-- ==== Sys2Proof/Word.lean ====
section
/-! DEFINITION. The register word, the byte, and named bit fields of a word (R2, R3).
A register is what software reads and writes whole, so it stays a bit vector; a field is read as a natural number. -/

namespace Sys2Proof

/-- A 64-bit register value (R3). -/
abbrev Word := BitVec 64

/-- One byte of the store, of host memory or of the flash. -/
abbrev Byte := BitVec 8

/-- A field of a register: its lowest bit and its width. -/
structure Fld where
  lo : Nat
  w  : Nat
  deriving DecidableEq, Repr

end Sys2Proof
end

