-- ==== Sys2Proof/Types.lean ====
section
/-! DEFINITION. The operand types of the commands: access paths, address spaces and the fixed choices an
operand makes. -/

namespace Sys2Proof

/-- The path of a register access; each has its own snapshot latches and staging (R9). -/
inductive Path where
  | host | smbus | stoker
  deriving DecidableEq, Repr

/-- A base address register of the function (R425). -/
inductive Bar where
  | bar0 | bar2 | bar4
  deriving DecidableEq, Repr

/-- The size of an access (R3): 8, 16, 32 or 64 bits. -/
inductive AccSize where
  | b8 | b16 | b32 | b64
  deriving DecidableEq, Repr

/-- The raw codes of a shadow (R82): of the free slice and, in the same order, of the slice in the position. -/
structure BgShadow where
  f : List (BitVec 12)
  a : List (BitVec 12)
  deriving DecidableEq, Repr

/-- The raw codes of an estimation window (R82, R83): of the free slice, one a DCLK cycle, and in each cycle those of the positions, 16 of
a single core or 32 of a pair in merged order (R74). -/
structure BgWindow where
  free : List (BitVec 12)
  rows : List (List (BitVec 12))
  deriving DecidableEq, Repr

/-- What a phase of a calibration run measured (R139, R144): the CALIN level (0.01 dBm) and frequency error (ppb), the
mean of u as a fraction, and the RMS amplitudes in 2^-20 LSB (of one tone, or of STEP 1 to 31). -/
structure CalMeas where
  level   : Int
  freqErr : Int
  meanNum : Int
  meanDen : Nat
  amps    : List Nat
  deriving DecidableEq, Repr

/-- What ECC finds at an access to a line beside what the model has flipped in itself (R391): nothing, one flipped bit, an
uncorrectable data word, or an uncorrectable check line. -/
inductive EccErr where
  | none | single | data | check
  deriving DecidableEq, Repr

/-- A granule that waits on a channel of the store (R381, R382): its first data line, the lines after it, whether it writes, its context and
class (0 GUARANTEED, with the metadata traffic of the Woodyard; 1 ASSURED; 2 BEST_EFFORT; 3 BACKGROUND, with the patrol scrub), its
deadline, and the device time since which it waits. -/
structure Granule where
  line  : Fin 469762048
  more  : Fin 4
  write : Bool
  ctx   : Fin 4096
  cls   : Fin 4
  due   : Nat
  since : Nat
  deriving DecidableEq, Repr

/-- What a read of host memory brings (R433, R434, R569): the bytes, and the offset of the first failed request with whether it
timed out (otherwise it was poisoned or failed); bytes from that offset on are not used. -/
structure HostRead where
  bytes : List Byte
  fail  : Option (Nat × Bool)
  deriving DecidableEq, Repr

/-- The unit whose request to the host fails (Table 19-6): a DMA channel, a plan load (with the byte offset of the request in the image), a
window-table load, a codec buffer job, or the bias switch of a billet. -/
inductive Requester where
  | dma (c : Nat)
  | plan (offset : Nat)
  | table (n : Nat)
  | codec (u : Nat)
  | bias (b : Nat)
  deriving DecidableEq, Repr

/-- What is allowed again (R428, R432): a vector's mask is cleared, the function's mask is cleared, or Bus Master Enable is set. -/
inductive Unmask where
  | vector (v : Fin 2048)
  | function
  | busMaster
  deriving DecidableEq, Repr

/-- An entry of the CDAT (Table 19-4). -/
inductive CdatEntry where
  | dsmas (handle base len : Nat) (nonVolatile : Bool)
  | readLatency (ns : Nat)
  | readBandwidth (mbps : Nat)
  | writeBandwidth (mbps : Nat)
  | dsemts (handle : Nat) (specificPurpose : Bool)
  deriving DecidableEq, Repr

/-- An answer of the DOE mailbox (R429, R430, R517): what it carries; the wire layouts are those of the standards the spec names. -/
inductive DoeAnswer where
  | error
  | protocols (names : List String)
  | cdat (seq : Nat) (entries : List CdatEntry)
  | spdmVersion (major minor : Nat)
  | spdmCapabilities (names : List String)
  | spdmAlgorithms (names : List String)
  | spdmDigests (digests : List Nat)
  | spdmCertificate (bytes : List Byte)
  | spdmChallenge (signature : List Byte)
  | spdmMeasurements (blocks : List (Nat × Nat)) (signature : Option (List Byte))
  | spdmUnsupported
  deriving DecidableEq, Repr

/-- A received Avenue packet (Table 21-3): the source's MAC, family, address and port, the four header words, and the bytes after them. -/
structure AvePkt where
  smac  : Nat
  v6    : Bool
  sip   : Nat
  sport : Nat
  w0    : Word
  w1    : Word
  w2    : Word
  w3    : Word
  body  : List Byte
  deriving DecidableEq, Repr

/-- A frame at a sub-port's receiver (R458, R464): its bytes without FCS, whether its FCS is bad, the codewords corrected and found
uncorrectable in it, and its stamp below the tick in 1/512. -/
structure NetFrame where
  bytes  : List Byte
  badFcs : Bool
  corr   : Nat
  uncorr : Nat
  fine   : Fin 512
  deriving DecidableEq, Repr

/-- The end of an AUX request (DIS_AUX.RESULT): the sink acknowledges, with the bytes a read brings, answers NACK, defers seven
times, or does not answer. -/
inductive AuxReply where
  | ack (bytes : List Byte)
  | nack | defer | timeout
  deriving DecidableEq, Repr

/-- What the outside answers when a register write makes the device ask: the end of an AUX request (R486), and the first 64 bytes of the
source of a codec buffer job in host memory, none when the request fails (R408). -/
structure Env where
  reply : AuxReply
  pre   : Option (List Byte)
  deriving DecidableEq, Repr

/-- What holds the device in reset (R545, R547). -/
inductive ResetPin where
  | porst | perst | rail
  deriving DecidableEq, Repr

/-- How a boot step ends (Table 23-6): milliseconds since the release; the nearest legal REFIN frequency and whether the measurement matched
one (step 1); which of slots A and B can be read (steps 2 and 4); whether lock is declared within TIMEOUT (step 3); and the channels
whose training fails (step 5). -/
structure BootEnd where
  ms     : Nat
  freq   : Fin 3
  match_ : Bool
  readA  : Bool
  readB  : Bool
  ok     : Bool
  failed : List (Fin 32)
  deriving DecidableEq, Repr

end Sys2Proof
end

