-- ==== Sys2Proof/Syntax.lean ====
section
/-! DEFINITION. The commands of the block: one constructor per row of the table of operations and events, in its order (the Turf
instructions carry the core that issues them). -/

namespace Sys2Proof

inductive Instr where
  /-- A write to a register that has no row of its own takes effect by its field access codes, with lock, reserved-field and structural-field checks. (R5) -/
  | registerWrite (p : Path) (bar : Bar) (a : Fin (2 ^ 26)) (v : Word) (env : Env)
  /-- A 32-bit read of a register's low half returns bits [31:0] and latches all 64 bits into that path's snapshot latch. (R6) -/
  | lowHalfRead (p : Path) (bar : Bar) (n : Fin (2 ^ 23))
  /-- A 32-bit read of a register's high half returns bits [63:32] of the snapshot latch. (R7) -/
  | highHalfRead (p : Path) (bar : Bar) (n : Fin (2 ^ 23))
  /-- A 32-bit low-half write is staged, or takes effect at once when bits [63:32] are all reserved. (R8) -/
  | lowHalfWrite (p : Path) (bar : Bar) (n : Fin (2 ^ 23)) (v : BitVec 32) (env : Env)
  /-- A 32-bit high-half write commits the staged low half with it in one cycle, or has no effect when nothing is staged. (R8) -/
  | highHalfWrite (p : Path) (bar : Bar) (n : Fin (2 ^ 23)) (v : BitVec 32) (env : Env)
  /-- An access to a reserved BAR0 address, or a misaligned or narrow access, completes without error, reads 0 or is discarded, and is counted. (R427) -/
  | reservedAddressAccess (p : Path) (bar : Bar) (a : Fin (2 ^ 26)) (sz : AccSize) (write : Bool)
  /-- A write to GLB_DEVID.DEVID takes effect unless it is locked or a plan is active. (R24) -/
  | devidWrite (v : Word)
  /-- A write of 1 to GLB_DEVID.LOCK locks DEVID until reset. (R23) -/
  | devidLock (v : Word)
  /-- A write of 1 to GLB_CTRL.DP_RESTART starts a datapath restart when the state allows it, and is discarded otherwise. (R25) -/
  | dpRestart (v : Word)
  /-- At t0 + 1 ms of a restart a DP_RESTART FAULT record is written in every OPEN context and DP_RESTART_BEGIN is raised. (R536) -/
  | restartFaultRecords
  /-- At t0 + 2 ms of a restart the Stoker is reloaded, units are reset, and Turf runs, codec jobs and DMA descriptors end ABORTED. (R536) -/
  | restartUnitReset
  /-- The retraining of failed memory channels within a restart ends, passing or failing. (R534) -/
  | restartTrainingEnd (ok : Bool)
  /-- A restart activates the active plan again, opens a new epoch in every context and returns to READY, or ends HALTED for a fourth automatic restart. (R536) -/
  | restartActivate
  /-- A restart that has not reached READY within 250 ms ends HALTED with RESTART_FAIL. (R538) -/
  | restartTimeout
  /-- LOSS_EDGES consecutive expected edges are missing or the amplitude falls below -10 dBm, so REF_OK clears. (R43) -/
  | refLoss (integ : Int)
  /-- After 1,024 consecutive good reference cycles REF_OK sets again. (R43) -/
  | refRestored
  /-- The phase error stays within WIN for CNT consecutive reference cycles and the MPLL declares lock. (R46) -/
  | mpllLockDeclared
  /-- On loss of lock or of reference the MPLL freezes its loop filter and enters HOLDOVER. (R47) -/
  | mpllLol (integ : Int)
  /-- A 1 ms gate counting VCO cycles against REFIN ends while LOCKED. (R48) -/
  | mpllFreqGate (err : Int)
  /-- At the end of each 1 ms of holdover the error bound CLK_HO_ERR.PPB is updated. (R48) -/
  | holdoverUpdate (meas : Nat)
  /-- The LPLL loses lock and coasts. (R52) -/
  | lpllHoldover
  /-- The LPLL regains lock. (R52) -/
  | lpllRelocked
  /-- A write of 1 to CLK_CMD.RETUNE is refused or starts a re-lock: CCLK to fallback, dividers held, MPLL retuned. (R53) -/
  | retune (v : Word)
  /-- SETTLE reference cycles after lock, the held dividers are released at phase zero and CCLK returns to f_root/32. (R54) -/
  | retuneSettleDone (fs : Nat)
  /-- Lock is not declared within TIMEOUT, so the device reverts to the previous word or, after a failed revert, enters HELD. (R56) -/
  | retuneTimeout
  /-- In HELD the device retries the staged word once per TIMEOUT period while REF_OK is 1. (R56) -/
  | heldRetry
  /-- A write of 1 to CLK_SYNC.ARM arms a divider reset or is refused. (R58) -/
  | syncArm (v : Word)
  /-- SYNCIN sampled high while armed and locked resets every MPLL output divider 64 root periods later and sets SYNCED. (R57) -/
  | syncinEdge (same : Bool)
  /-- A write of 1 to CNV_ATT.GO requests a step of the attenuator. (R67) -/
  | attGo (n : Fin 4) (v : Word)
  /-- The attenuator step is applied at its DCLK boundary, G_eff is recomputed, and LATE sets when TIME has passed. (R67) -/
  | attApply (n : Fin 4)
  /-- A write to CNV_CHCORR takes effect at the next DCLK boundary with G_eff recomputed. (R80) -/
  | chcorrWrite (n : Fin 4) (v : Word)
  /-- A write to CNV_SLICE is accepted only while background calibration is off and its step has ended. (R87) -/
  | sliceWrite (n : Fin 4) (k : Fin 17) (v : Word)
  /-- A write to CNV_BG.EN takes effect at the end of the current background step. (R87) -/
  | bgEnWrite (n : Fin 4) (v : Word)
  /-- The free slice has settled at position j for 1,024 DCLK and begins shadow sampling. (R82) -/
  | bgSettleEnd (n : Fin 4)
  /-- After 4,096 DCLK of shadow sampling the RMS difference decides whether the handover takes place. (R82) -/
  | bgShadowEnd (n : Fin 4) (w : BgShadow)
  /-- At the end of an estimation window the hold conditions are tested and the slice corrections are updated or held. (R83) -/
  | bgWindowEnd (n : Fin 4) (w : BgWindow)
  /-- After INTERVAL x 65,536 idle DCLK the next background step starts. (R82) -/
  | bgIntervalEnd (n : Fin 4)
  /-- A monitor's condition holds for its minimum width, so LATCHED sets and TRIPS increments. (R99) -/
  | monitorTrip (m : Fin 12) (v : Int)
  /-- In SAMPLED mode the comparator is powered for 20 ns every SAMPLE_US and latches when the condition holds. (R100) -/
  | monSample (m : Fin 12) (v : Int)
  /-- With CLR_MODE 1, LATCHED clears at the end of each CLEAR_US period. (R101) -/
  | monPeriodClear (m : Fin 12)
  /-- A software write of 1 clears MON_STATUS.LATCHED. (R101) -/
  | monLatchClear (m : Fin 12) (v : Word)
  /-- A write to MON_CFG takes effect within 100 ns, and clearing EN clears LATCHED. (R102) -/
  | monCfgWrite (m : Fin 12) (v : Word)
  /-- A write of 1 to PG_CFG.SW_TRIP trips the generator. (R104) -/
  | pgSwTrip (g : Fin 8) (v : Word)
  /-- A write of 1 to TRIPPED clears it, unless a trip input still holds, and the output resumes. (R106) -/
  | pgTripClear (g : Fin 8) (v : Word)
  /-- A write to SAFE moves a tripped output to the new level at once. (R105) -/
  | pgSafeWrite (g : Fin 8) (v : Word)
  /-- A write of 1 to PG_CFG.ARM requests a commit of the shadowed schedule. (R108) -/
  | pgArm (g : Fin 8) (v : Word)
  /-- The shadowed schedule commits at START or at the next period boundary, and LATE sets when START has passed. (R108) -/
  | pgScheduleCommit (g : Fin 8)
  /-- A scheduled active or idle edge of a PERIODIC or SINGLE schedule reaches its device time. (R107) -/
  | pgEdge (g : Fin 8)
  /-- A write to TBS_ADJ sets the rate correction, or is discarded out of range or while the Stoker owns it. (R114) -/
  | tbsAdjWrite (v : Word)
  /-- A write to TBS_SLEW replaces the pending phase correction, or only RATE_MAX when KEEP is 1. (R115) -/
  | tbsSlewWrite (v : Word)
  /-- A write to TBS_STEP steps device time at the next DCLK edge, or is refused. (R116) -/
  | tbsStepWrite (v : Word)
  /-- A write to TBS_SERVO.SOURCE moves the servo to ACQUIRE, or to FREE for NONE. (R120) -/
  | servoSourceWrite (v : Word)
  /-- In HOST mode a write to HOST_LOCK declares lock from ACQUIRE, or writing 0 moves LOCKED to HOLDOVER. (R120) -/
  | hostLockWrite (v : Word)
  /-- The Stoker's PTP slave clock produces an offset estimate and steers device time. (R119) -/
  | ptpUpdate (offPs : Int) (step : Bool)
  /-- No update for MISS seconds moves a LOCKED servo to HOLDOVER. (R120) -/
  | servoMissTimeout
  /-- HOST_TIMEOUT seconds without an accepted ADJ or SLEW write moves a LOCKED HOST servo to HOLDOVER. (R120) -/
  | hostTimeout
  /-- An edge reaches a TDC comparator and is stamped, or is lost in the dead time or on a full queue. (R123) -/
  | tdcEdge (c : Fin 12) (t : Nat) (rising : Bool)
  /-- FLUSH_US after its first stamp, a STAMPS record closes. (R127) -/
  | stampsFlush (c : Fin 12)
  /-- Every 1 ms the vernier ring periods are remeasured against DCLK and rescaled. (R123) -/
  | vernierRemeasure (a b : Nat)
  /-- A write of 1 to TDC_FREQ_CFG.EN starts the regression at START, or at the next DCLK edge when START has passed. (R132) -/
  | freqEnWrite (v : Word)
  /-- Device time reaches the start of a regression gate. (R132) -/
  | freqGateOpen
  /-- A gate ends, the regression result is captured, and a FREQ_RESULT record is written when a context is bound. (R134) -/
  | freqGateEnd
  /-- A write of 1 to TDC_FREQ_SNAP.SNAP captures the last result again. (R10) -/
  | tdcFreqSnap (v : Word)
  /-- A write of 1 to CAL_RUN.GO starts a calibration run or is refused. (R138) -/
  | calGo (v : Word)
  /-- A write of 1 to CAL_RUN.ABORT before the commit point aborts the run. (R142) -/
  | calAbort (v : Word)
  /-- A write of 1 to CAL_RUN.STORE starts a calibration-store write. (R148) -/
  | calStoreStart (v : Word)
  /-- A phase of a run ends and the run passes to the next phase or aborts on a check of Table 7-2. (R139) -/
  | calPhaseEnd (m : CalMeas)
  /-- MAX_AGE hours pass since LAST_TIME and DUE sets for the input. (R145) -/
  | calAgeDue (n : Fin 4)
  /-- With AUTO set and STATE IDLE, the device starts a GAIN run on the lowest eligible due input. (R146) -/
  | calAutoStart
  /-- RETRY_MIN minutes after an aborted automatic run the input becomes eligible again. (R146) -/
  | calRetryExpiry (n : Fin 4)
  /-- A calibration-store write finishes programming and read-back and ends DONE or FAILED. (R149) -/
  | storeWriteEnd (ok : Bool)
  /-- PLAN_CMD LOAD starts reading an image into the non-active slot, or is refused with BUSY. (R162) -/
  | planLoad (v : Word)
  /-- The image has been read and is validated in table order, becoming STAGED or REJECTED. (R163) -/
  | planFetchDone (img : HostRead)
  /-- PLAN_CMD ACTIVATE schedules the staged plan at PLAN_TIME, or is refused. (R167) -/
  | planActivate (v : Word)
  /-- PLAN_CMD ABORT before the commit point aborts a pending activation or STOP. (R171) -/
  | planAbort (v : Word)
  /-- PLAN_CMD DISCARD empties the staged slot, or is refused while an activation is pending. (R162) -/
  | planDiscard (v : Word)
  /-- PLAN_CMD STOP schedules the closing of the active plan at PLAN_TIME. (R172) -/
  | planStop (v : Word)
  /-- At PLAN_TIME every unit, route and context switches to the staged plan at once. (R168) -/
  | planCommit
  /-- At the STOP commit point every context is flushed and closed and every unit idled. (R172) -/
  | planStopCommit
  /-- A write of 1 to PLAN_PCOMMIT.GO requests a parameter commit. (R176) -/
  | pcommitGo (v : Word)
  /-- At its DCLK boundary every parameter-commit RWC field of every unit takes effect. (R176) -/
  | paramCommit
  /-- A write of 1 to DDC_SWAP.GO requests a coefficient-bank swap, completes it at once, or refuses it. (R191) -/
  | ddcSwapGo (u : Fin 20) (v : Word)
  /-- A write of 1 to DDC_SWAP.CANCEL before the commit point cancels the swap. (R194) -/
  | ddcSwapCancel (u : Fin 20) (v : Word)
  /-- The first new-bank output of the lowest named stage is computed. (R192) -/
  | ddcSwapCommit (u : Fin 20)
  /-- The last named stage switches, and the swap ends DONE with DDC_SWAP_AT set. (R193) -/
  | ddcSwapDone (u : Fin 20)
  /-- A coefficient write is stored, or discarded when it targets the active or pending bank or has an illegal K. (R189) -/
  | ddcCoefWrite (u : Fin 20) (k : Fin 12) (b : Fin 2) (r : Fin 9) (v : Word)
  /-- A write of 1 to RST_ARM arms an NCO accumulator reset at the next parameter commit. (R182) -/
  | ddcNcoRstArm (u : Fin 20) (v : Word)
  /-- A write of 1 to XFM_TAB_CTRL.LOAD starts loading the inactive window bank, or is refused. (R215) -/
  | tabLoad (n : Fin 4) (v : Word)
  /-- A window-table load ends DONE with CRC, WSUM and ENBW recorded, or FAILED. (R215) -/
  | tabLoadEnd (n : Fin 4) (ws : Option (List (BitVec 32)))
  /-- A write of 1 to XFM_TAB_CTRL.GO requests a table-bank swap, completes it at once, or refuses it. (R216) -/
  | tabSwapGo (n : Fin 4) (v : Word)
  /-- A write of 1 to XFM_TAB_CTRL.CANCEL before the commit point cancels the swap. (R217) -/
  | tabSwapCancel (n : Fin 4) (v : Word)
  /-- The weighted sums of the first frame that uses the new bank start and the swap ends DONE. (R217) -/
  | tabSwapCommit (n : Fin 4)
  /-- A write to XFM_CTRL is shadowed for the parameter commit, or discarded whole. (R228) -/
  | xfmCtrlWrite (n : Fin 4) (v : Word)
  /-- The last input sample of a frame arrives, and the frame is transformed and delivered or counted lost. (R218) -/
  | xfmFrame (n : Fin 4)
  /-- A detector unit takes a SPEC_CPX frame, forms bin powers and accumulates it into its interval. (R237) -/
  | detFrame (n : Fin 4)
  /-- The readout of a finished detector interval ends, allowing the next interval to close. (R242) -/
  | detReadoutDone (n : Fin 4)
  /-- A write to DET_CTRL, DET_INT or DET_ALIGN is shadowed, or discarded whole. (R240) -/
  | detWrite (n : Fin 4) (reg : Fin 3) (v : Word)
  /-- A density accumulator takes a frame or trace and scores each column into its cells. (R249) -/
  | denFrame (n : Fin 4)
  /-- The readout of a density bank ends and its DENSITY record is complete. (R250) -/
  | denReadoutDone (n : Fin 4)
  /-- A write to DEN_CTRL, DEN_INT or DEN_ALIGN is shadowed, or discarded whole. (R240) -/
  | denWrite (n : Fin 4) (reg : Fin 3) (v : Word)
  /-- A trigger-bus line low for 4 consecutive samples after high becomes a source event. (R260) -/
  | tbusEvent (l : Fin 8) (t : Nat)
  /-- The drive pulse of a trigger-bus line ends after WIDTH ticks. (R261) -/
  | tbusPulseEnd (l : Fin 8)
  /-- A level trigger's compared value crosses LEVEL while armed and an interpolated event is issued. (R262) -/
  | ltCrossing (i : Fin 8)
  /-- A mask unit tests a frame against its segments and issues an event per COND. (R266) -/
  | fmFrame (u : Fin 4)
  /-- A trigger timer reaches START + k x PERIOD and issues an event. (R257) -/
  | trgTimerEvent (n : Fin 4)
  /-- A write to TRG_SW issues an event of a software source. (R257) -/
  | trgSwFire (v : Word)
  /-- A source event reaches a qualifier and is held, judged at once as LATE_EV, or dropped. (R268) -/
  | tqEventArrival (q : Fin 16)
  /-- Device time reaches a held event's placement + EFF_LAG and the event is judged. (R268) -/
  | tqHorizon (q : Fin 16)
  /-- In AUTO mode no decision within TIMEOUT forces one. (R271) -/
  | tqAutoTimeout (q : Fin 16)
  /-- In FREE_RUN a decision is issued every TIMEOUT after the arming. (R271) -/
  | tqFreeRunDecision (q : Fin 16)
  /-- A write of 1 to TRG_TQ_CFG.ARM arms the qualifier. (R271) -/
  | tqArm (q : Fin 16) (v : Word)
  /-- A write of 1 to TRG_TQ_CFG.DISARM disarms the qualifier. (R271) -/
  | tqDisarm (q : Fin 16) (v : Word)
  /-- A write of 1 to TRG_TQ_SNAP.SNAP captures the last decision again. (R272) -/
  | trgTqSnap (q : Fin 16) (v : Word)
  /-- A write of 1 to ACQ_CMD.ARM starts a run with an empty ring, or is discarded. (R287) -/
  | acqArm (n : Fin 8) (v : Word)
  /-- A write of 1 to ACQ_CMD.STOP truncates a record in POST or sends the unit IDLE. (R288) -/
  | acqStop (n : Fin 8) (v : Word)
  /-- A decision reaches the acquisition unit and is accepted or logged as MISSED. (R286) -/
  | acqDecision (n : Fin 8)
  /-- PRE samples have arrived and the unit goes from FILLING to READY. (R284) -/
  | acqPreFilled (n : Fin 8)
  /-- Sample T0 + POST - 1 arrives and the record closes by linking its ring billets into the cord. (R281) -/
  | acqRecordClose (n : Fin 8)
  /-- HOLDOFF ticks after the last record sample pass and the unit returns to FILLING or DONE. (R284) -/
  | acqHoldoffEnd (n : Fin 8)
  /-- LOG_FLUSH_US after its first entry, a TRIGGER_LOG record closes. (R295) -/
  | acqLogFlush (n : Fin 8)
  /-- The Woodyard completes refilling a unit's extent set-aside after a close. (R339) -/
  | acqExtentRefill (n : Fin 8)
  /-- A write of 1 to ACQ_SNAP.SNAP captures the acquisition counters. (R301) -/
  | acqSnap (n : Fin 8) (v : Word)
  /-- Lane 8 takes a replayed RECORD and delivers it with a measurement trailer. (R296) -/
  | rmuRecord
  /-- A write to RMU_LEVEL is shadowed, or discarded when LO < MID < HI fails. (R302) -/
  | rmuLevelWrite (l : Fin 9) (v : Word)
  /-- A write of 1 to TC_CTRL.RUN starts a run on a HALTED core, or is discarded. (R316) -/
  | tcRun (c : Fin 32) (v : Word)
  /-- A write of 1 to TC_CTRL.ABORT before the commit point aborts the run. (R317) -/
  | tcAbort (c : Fin 32) (v : Word)
  /-- A host write to PM is stored while HALTED, or discarded and counted. (R307) -/
  | tcPmWrite (c : Fin 32) (a : Fin 2048) (v : BitVec 32)
  /-- A host write to DM is stored, losing to a core write to the same word in the same cycle. (R307) -/
  | tcDmWrite (c : Fin 32) (a : Fin 4096) (v : BitVec 32)
  /-- A write to TC_SIN sets the input ring, or is discarded while it holds an unreleased record. (R309) -/
  | tcSinWrite (c : Fin 32) (v : Word)
  /-- A write to TC_MBIN is stored, or discarded with OVERRUN while FULL. (R315) -/
  | tcMbinWrite (c : Fin 32) (k : Fin 4) (v : Word)
  /-- A write of 1 to POST sets inbound FULL and pends MBOX_IN. (R315) -/
  | tcMbinPost (c : Fin 32) (v : Word)
  /-- A write of 1 to TC_MBOUT_CTRL.ACK clears outbound FULL and releases a stalled MBPOST. (R315) -/
  | tcMboutAck (c : Fin 32) (v : Word)
  /-- A cluster writes a replayed record whole into a core's input ring, or counts it OVERSIZE. (R308) -/
  | tcRecordArrival (k : Fin 4) (i : Fin 8)
  /-- The cluster reads a queued record from a core, writes the device header fields and sends it. (R312) -/
  | tcClusterReadout (k : Fin 4)
  /-- TC_TIMER.PERIOD CCLK cycles elapse and TIMER pends. (R326) -/
  | tcTimerExpiry (c : Fin 32)
  /-- TC_CYCLES reaches a non-zero TC_LIMIT and the run aborts with WATCHDOG. (R317) -/
  | tcWatchdog (c : Fin 32)
  /-- An enabled pending interrupt is taken at an instruction boundary and the core vectors. (R327) -/
  | tcInterrupt (c : Fin 32)
  /-- Turf instruction NOP does nothing. (R329) -/
  | tNop (c : Fin 32)
  /-- Turf instruction LDI loads an immediate into a d register. (R329) -/
  | tLdi (c : Fin 32) (d : Fin 16) (imm : BitVec 16)
  /-- Turf instruction LD loads a DM word and modifies the pointer. (R329) -/
  | tLd (c : Fin 32) (d : Fin 16) (p : Fin 8) (am : Fin 4)
  /-- Turf instruction ST stores a d register to DM and modifies the pointer. (R329) -/
  | tSt (c : Fin 32) (d : Fin 16) (p : Fin 8) (am : Fin 4)
  /-- Turf instruction MOV copies a d register. (R329) -/
  | tMov (c : Fin 32) (d a : Fin 16)
  /-- Turf instruction MOVC reads a control register into a d register. (R329) -/
  | tMovcFromCr (c : Fin 32) (d : Fin 16) (r : Fin 64)
  /-- Turf instruction MOVC writes a d register to a control register. (R329) -/
  | tMovcToCr (c : Fin 32) (r : Fin 64) (d : Fin 16)
  /-- Turf instruction LDC loads an immediate into a control register. (R329) -/
  | tLdc (c : Fin 32) (r : Fin 64) (imm : BitVec 16)
  /-- Turf instruction ADD adds two d registers and sets Z, N, C. (R329) -/
  | tAdd (c : Fin 32) (d a b : Fin 16)
  /-- Turf instruction SUB subtracts two d registers and sets Z, N, C. (R329) -/
  | tSub (c : Fin 32) (d a b : Fin 16)
  /-- Turf instruction AND forms a bitwise AND. (R329) -/
  | tAnd (c : Fin 32) (d a b : Fin 16)
  /-- Turf instruction OR forms a bitwise OR. (R329) -/
  | tOr (c : Fin 32) (d a b : Fin 16)
  /-- Turf instruction XOR forms a bitwise XOR. (R329) -/
  | tXor (c : Fin 32) (d a b : Fin 16)
  /-- Turf instruction ADDI adds an immediate to a d register. (R329) -/
  | tAddi (c : Fin 32) (d : Fin 16) (imm : BitVec 16)
  /-- Turf instruction ASH shifts arithmetically by a register count. (R330) -/
  | tAsh (c : Fin 32) (d a b : Fin 16)
  /-- Turf instruction ASHI shifts arithmetically by an immediate count. (R330) -/
  | tAshi (c : Fin 32) (d a : Fin 16) (n : BitVec 5)
  /-- Turf instruction CMP sets Z, N, C from a subtraction. (R329) -/
  | tCmp (c : Fin 32) (a b : Fin 16)
  /-- Turf instruction ABS forms a saturated absolute value. (R329) -/
  | tAbs (c : Fin 32) (d a : Fin 16)
  /-- Turf instruction MOVM copies one DM word to another and modifies both pointers. (R329) -/
  | tMovm (c : Fin 32) (px : Fin 8) (amx : Fin 4) (py : Fin 8) (amy : Fin 4)
  /-- Turf instruction MPY sets an accumulator to a product. (R330) -/
  | tMpy (c : Fin 32) (a : Fin 2) (dx dy : Fin 16)
  /-- Turf instruction MAC adds a product to an accumulator. (R330) -/
  | tMac (c : Fin 32) (a : Fin 2) (dx dy : Fin 16)
  /-- Turf instruction MSU subtracts a product from an accumulator. (R330) -/
  | tMsu (c : Fin 32) (a : Fin 2) (dx dy : Fin 16)
  /-- Turf instruction MACM accumulates the product of two DM words. (R330) -/
  | tMacm (c : Fin 32) (a : Fin 2) (px : Fin 8) (amx : Fin 4) (py : Fin 8) (amy : Fin 4)
  /-- Turf instruction FTAP accumulates a filter tap and moves its data word up. (R330) -/
  | tFtap (c : Fin 32) (a : Fin 2) (px : Fin 8) (amx : Fin 4) (py : Fin 8) (amy : Fin 4)
  /-- Turf instruction ADDA adds a shifted d register to an accumulator. (R330) -/
  | tAdda (c : Fin 32) (a : Fin 2) (dx : Fin 16) (sh : Fin 25)
  /-- Turf instruction CLRA clears an accumulator. (R329) -/
  | tClra (c : Fin 32) (a : Fin 2)
  /-- Turf instruction ACP copies the other accumulator. (R329) -/
  | tAcp (c : Fin 32) (a : Fin 2)
  /-- Turf instruction EXT extracts a rounded, saturated word from an accumulator. (R330) -/
  | tExt (c : Fin 32) (d : Fin 16) (a : Fin 2) (n : Fin 25)
  /-- Turf instruction SHA shifts an accumulator. (R330) -/
  | tSha (c : Fin 32) (a : Fin 2) (n : BitVec 6)
  /-- Turf instruction EXPD counts the redundant sign bits of a d register. (R330) -/
  | tExpd (c : Fin 32) (d a : Fin 16)
  /-- Turf instruction EXPA counts the redundant sign bits of an accumulator. (R330) -/
  | tExpa (c : Fin 32) (d : Fin 16) (a : Fin 2)
  /-- Turf instruction BEXP tracks the block exponent over DM words. (R330) -/
  | tBexp (c : Fin 32) (d : Fin 16) (p : Fin 8) (am : Fin 4)
  /-- Turf instruction BSCL scales a DM word in place. (R330) -/
  | tBscl (c : Fin 32) (p : Fin 8) (am : Fin 4) (d : Fin 16)
  /-- Turf instruction B branches on a condition after two delay slots. (R322) -/
  | tB (c : Fin 32) (cond : Fin 16) (t : Fin 2048)
  /-- Turf instruction CALL pushes the return address and branches. (R325) -/
  | tCall (c : Fin 32) (t : Fin 2048)
  /-- Turf instruction RET pops the return address. (R325) -/
  | tRet (c : Fin 32)
  /-- Turf instruction RETI pops pc and restores sr from the shadow. (R327) -/
  | tReti (c : Fin 32)
  /-- Turf instruction RPT repeats the next instruction an immediate number of times. (R323) -/
  | tRpt (c : Fin 32) (n1 : Fin 1024)
  /-- Turf instruction RPTD repeats the next instruction a register count of times. (R323) -/
  | tRptd (c : Fin 32) (a : Fin 16)
  /-- Turf instruction LOOP runs a body an immediate number of times. (R324) -/
  | tLoop (c : Fin 32) (n : Fin 32768) (t : Fin 2048)
  /-- Turf instruction LOOPD runs a body a register count of times. (R324) -/
  | tLoopd (c : Fin 32) (a : Fin 16) (t : Fin 2048)
  /-- Turf instruction HALT retires and ends the run DONE. (R317) -/
  | tHalt (c : Fin 32)
  /-- Turf instruction IDLE waits for an enabled pending interrupt. (R327) -/
  | tIdle (c : Fin 32)
  /-- Turf instruction GETR returns the next unreturned record or stalls until one arrives. (R330) -/
  | tGetr (c : Fin 32) (p : Fin 8)
  /-- Turf instruction RELR frees the oldest returned record. (R311) -/
  | tRelr (c : Fin 32)
  /-- Turf instruction SEND queues a DM record for an outbound route, faults, or stalls for queue room. (R330) -/
  | tSend (c : Fin 32) (p : Fin 8) (r : Fin 4)
  /-- Turf instruction SWAIT waits until the send queue is empty. (R329) -/
  | tSwait (c : Fin 32)
  /-- Turf instruction MBR reads an inbound mailbox word. (R315) -/
  | tMbr (c : Fin 32) (d w : Fin 16)
  /-- Turf instruction MBW writes an outbound mailbox word. (R315) -/
  | tMbw (c : Fin 32) (w d : Fin 16)
  /-- Turf instruction MBACK frees the inbound mailbox channel. (R315) -/
  | tMback (c : Fin 32)
  /-- Turf instruction MBPOST posts the outbound words, or stalls while FULL. (R315) -/
  | tMbpost (c : Fin 32)
  /-- A record reaches a store port and is policed, placed in the cord, stalled or shed. (R372) -/
  | recordArrival (p : Fin 16)
  /-- The token bucket refills to the size of a withheld record and the store port returns credit. (R372) -/
  | policingCreditResume (x : Fin 4096)
  /-- A billet becomes available to a STALL context and the store port resumes its route. (R345) -/
  | overflowStallResume (x : Fin 4096)
  /-- A FAULT record held for lack of a billet is written when a billet returns. (R36) -/
  | faultRecordDeferred (x : Fin 4096)
  /-- A replay store port reads records of its context onto its outbound street. (R341) -/
  | replaySend (p : Fin 16)
  /-- STO_CMD TAKE adds a software reference to a billet, or is refused. (R343) -/
  | stoTake
  /-- STO_CMD FREE drops a software reference, returning or deferring the billet, or is refused. (R343) -/
  | stoFree
  /-- STO_CMD FLUSH closes an OPEN context's tail billet with a PAD record. (R350) -/
  | stoFlush
  /-- STO_CMD DISCARD ends every destination hold on a DRAINING or CLOSED context's cord. (R350) -/
  | stoDiscard
  /-- STO_CMD QUERY reports a billet's state in STO_BQ. (R343) -/
  | stoQuery
  /-- A write of 1 to STO_CSNAP.SNAP captures the named context's state. (R358) -/
  | stoCsnap (v : Word)
  /-- A billet's switch to host or device bias completes. (R422) -/
  | biasSwitchDone (b : Fin 1835008)
  /-- A tail billet holds unpublished records older than ZC_FLUSH_US and is flushed. (R351) -/
  | zcFlushTimer (x : Fin 4096)
  /-- A write to ZC_RELEASE gives back publish entries and ends HOST_ZC holds, or is discarded. (R353) -/
  | zcRelease (x : Fin 4096) (v : Word)
  /-- A write of 1 to the doorbell CTX_FLUSH issues FLUSH for the context. (R426) -/
  | ctxFlush (x : Fin 4096) (v : Word)
  /-- ADM_CMD OPEN tests an entry with the admitted set and opens the context or rejects it. (R364) -/
  | admOpen
  /-- ADM_CMD CLOSE moves a runtime context to DRAINING and ends its charges. (R364) -/
  | admClose
  /-- ADM_CMD TEST runs the admission tests and changes nothing. (R364) -/
  | admTest
  /-- A write of 1 to ADM_SNAP.SNAP captures the admission block. (R376) -/
  | admSnap (v : Word)
  /-- Device time reaches a record's deadline before its delivery completes, and MISS is applied. (R370) -/
  | deadlineMiss (x : Fin 4096) (d : Fin 4)
  /-- A write to MEM_MAP starts store initialisation, or is discarded while billets are in use. (R380) -/
  | memMapWrite (v : Word)
  /-- Store initialisation ends and MAP_BUSY clears. (R380) -/
  | mapInitDone
  /-- A write to MEM_SCHED takes effect, or is discarded whole when its values are illegal. (R383) -/
  | memSchedWrite (v : Word)
  /-- A channel issues a store granule, correcting or poisoning lines under ECC. (R381) -/
  | memGranule (ch : Fin 32) (waiting : List Granule) (err : EccErr)
  /-- Every POLL_MS the MR4 of each die is read and its refresh interval set. (R385) -/
  | mr4Poll (d : Fin 16) (code : Fin 8)
  /-- A refresh falls due and is issued, postponed, or forced with the outstanding ones. (R386) -/
  | refreshDue (ch : Fin 32) (wait : Bool)
  /-- A channel's retraining slot follows a refresh and the channel is retrained. (R389) -/
  | retrain (ch : Fin 32) (ok : Bool)
  /-- The patrol scrubber reads a line and corrects, clears or reports it. (R393) -/
  | scrubRead (err : EccErr)
  /-- A write of 1 to MEM_UE_SNAP.SNAP captures the last uncorrectable error again. (R395) -/
  | memUeSnap (v : Word)
  /-- A write of 1 to CMP_STREAM.FLUSH closes the current stream record. (R406) -/
  | cmpFlush (u : Fin 8) (v : Word)
  /-- An encoding stream job codes a block, closing a TIME_CODED record after RECBLK blocks. (R405) -/
  | cmpStreamBlock (u : Fin 8)
  /-- A decoding stream job decodes a replayed TIME_CODED record, dropping undecodable blocks. (R407) -/
  | cmpDecodeRecord (u : Fin 8)
  /-- A write of 1 to CMP_JOB_CTRL.GO starts a buffer job, or is refused. (R408) -/
  | cmpJobGo (u : Fin 8) (v : Word) (pre : Option (List Byte))
  /-- A buffer job codes a block and writes it, or pauses when it does not fit. (R409) -/
  | cmpJobBlock (u : Fin 8) (data : Option (List Byte))
  /-- A write of 1 to RESUME continues a PAUSED job into the new destination. (R409) -/
  | cmpJobResume (u : Fin 8) (v : Word)
  /-- A write of 1 to ABORT before the commit point aborts the buffer job. (R410) -/
  | cmpJobAbort (u : Fin 8) (v : Word)
  /-- The CXL link accepts the job's last output byte and the job ends DONE. (R410) -/
  | cmpJobDone (u : Fin 8)
  /-- A CXL.mem read returns store data, or poison outside the decoders or on an uncorrectable line. (R420) -/
  | cxlMemRead (n : Fin (2 ^ 46))
  /-- A CXL.mem write completes without effect and is counted. (R420) -/
  | cxlMemWrite
  /-- An HDM decoder commit succeeds or sets Error Not Committed. (R419) -/
  | hdmCommit (one : Bool) (base size skip ways : Nat) (lock : Bool)
  /-- A host snoop is answered with RspIHitI. (R424) -/
  | hostSnoop
  /-- A link retrain changes width or rate, and the CXL ceiling and CDAT are updated. (R416) -/
  | linkRetrain (width rate : Nat) (cxl : Bool)
  /-- The link goes down and the CXL.io function is reset as for FLR. (R431) -/
  | linkDown
  /-- A CXL Reset performs a datapath restart, clears decoders, bias and holds. (R431) -/
  | cxlReset (memClr : Bool)
  /-- An FLR or hot reset resets the CXL.io function, halts DMA and stops the event ring. (R431) -/
  | flr
  /-- Bus Master Enable is cleared and every request the device would issue completes as failed. (R432) -/
  | busMasterDisable
  /-- A host request times out and ends as failed for its unit. (R433) -/
  | completionTimeout (r : Requester)
  /-- A poisoned completion arrives and is handled as a failed access. (R434) -/
  | poisonedCompletion (r : Requester)
  /-- A vector or function is unmasked, or requests are allowed again, and pending messages are sent. (R428) -/
  | msixUnmask (u : Unmask)
  /-- A vector's MOD_US interval ends and its pending message is sent. (R529) -/
  | msixModerationEnd (v : Fin 2048)
  /-- A DOE Discovery request is answered. (R429) -/
  | doeDiscovery (req : List Byte) (busy : Bool)
  /-- A CDAT Table Access request returns CDAT entries. (R430) -/
  | cdatTableAccess (req : List Byte) (busy : Bool)
  /-- An SPDM GET_VERSION request is answered. (R517) -/
  | getVersion (req : List Byte) (busy : Bool)
  /-- An SPDM GET_CAPABILITIES request is answered. (R517) -/
  | getCapabilities (req : List Byte) (busy : Bool)
  /-- An SPDM NEGOTIATE_ALGORITHMS request selects P-384 and SHA-384. (R517) -/
  | negotiateAlgorithms (req : List Byte) (busy : Bool)
  /-- An SPDM GET_DIGESTS request returns certificate digests. (R517) -/
  | getDigests (req : List Byte) (busy : Bool)
  /-- An SPDM GET_CERTIFICATE request returns the identity certificate chain. (R517) -/
  | getCertificate (req : List Byte) (busy : Bool) (off len : Fin 65536)
  /-- An SPDM CHALLENGE is answered with a signature of the identity key. (R517) -/
  | challenge (req : List Byte) (busy : Bool)
  /-- An SPDM GET_MEASUREMENTS request returns the measurement blocks, signed on request. (R518) -/
  | getMeasurements (req : List Byte) (busy : Bool) (index : Fin 256) (signed : Bool)
  /-- Any other SPDM request is answered with ERROR UnsupportedRequest and counted. (R517) -/
  | spdmUnsupportedRequest (req : List Byte) (busy : Bool)
  /-- A write of 1 to DMA_CTRL.START fetches from DMA_HEAD, or is discarded. (R449) -/
  | dmaStart (c : Fin 128) (v : Word)
  /-- A write of 1 to DMA_CTRL.ABORT before the commit point aborts the descriptor. (R445) -/
  | dmaAbort (c : Fin 128) (v : Word)
  /-- A write of DMA_CFG.GIVE_CTX and GIVE_VALID binds the channel as producer, or is discarded. (R439) -/
  | dmaGiveBind (c : Fin 128) (v : Word)
  /-- A fetched descriptor and its list are checked and its operation starts or the chain ends in error. (R441) -/
  | dmaDescFetch (c : Fin 128) (desc list : HostRead)
  /-- DMA operation NOP completes at once. (R440) -/
  | dmaNop (c : Fin 128)
  /-- DMA operation CTX_TAKE copies whole records of the bound context to the host. (R442) -/
  | ctxTake (c : Fin 128)
  /-- DMA operation CTX_GIVE delivers whole records from the host into the bound context. (R443) -/
  | ctxGive (c : Fin 128) (data : HostRead)
  /-- DMA operation STORE_READ copies store bytes from referenced billets to the host. (R444) -/
  | storeRead (c : Fin 128)
  /-- DMA operation REF_TAKE performs a TAKE on a billet. (R444) -/
  | refTake (c : Fin 128)
  /-- DMA operation REF_GIVE performs a FREE on a billet. (R444) -/
  | refGive (c : Fin 128)
  /-- A record becomes available to a WAITING CTX_TAKE and copying begins. (R442) -/
  | dmaRecordAvailable (c : Fin 128)
  /-- No record is written for IDLE_US and the CTX_TAKE completes. (R442) -/
  | dmaIdleTimeout (c : Fin 128)
  /-- The data of a descriptor has moved and the completion record is written at the commit point. (R445) -/
  | dmaDataCompletion (c : Fin 128)
  /-- A write to NET_PORT_CFG takes the port's sub-ports down and restarts negotiation in the new mode. (R457) -/
  | netPortCfgWrite (p : Fin 4) (v : Word)
  /-- A sub-port's PCS locks with FEC and it reports LINK. (R457) -/
  | netLinkUp (i : Fin 16)
  /-- A sub-port loses LINK, sends nothing and stops Avenue timers. (R460) -/
  | netLinkLoss (i : Fin 16)
  /-- A received frame is dropped, handed to Avenue, to the Stoker, or to the exception ring. (R462) -/
  | netFrameRx (i : Fin 16) (f : NetFrame)
  /-- A received pause or PFC frame stops transmission on the sub-port for its pause time. (R459) -/
  | pauseFrameRx (i : Fin 16) (q : Fin 65536) (pfc : Option (List (Fin 8 × Fin 65536)))
  /-- The pause time ends and the sub-port transmits again. (R459) -/
  | pauseExpiry (i : Fin 16)
  /-- A write to NET_EXQ_RX_IDX.RELEASE gives back exception receive slots. (R463) -/
  | exqRxRelease (i : Fin 16) (v : Word)
  /-- A write to NET_EXQ_TX_IDX.TAIL queues exception transmit descriptors. (R463) -/
  | exqTxTail (i : Fin 16) (v : Word)
  /-- An exception transmit descriptor is sent or rejected and marked DONE with its timestamp. (R463) -/
  | exqTxSend (i : Fin 16) (desc data : HostRead) (fine : Fin 512)
  /-- AVE_CMD OPEN moves a CLOSED avenue to OPENING or LISTEN with a new nonce, or is refused. (R468) -/
  | aveCmdOpen (a : Fin 4096) (v : Word)
  /-- AVE_CMD CLOSE sends CLOSE and moves the avenue to CLOSING. (R468) -/
  | aveCmdClose (a : Fin 4096) (v : Word)
  /-- AVE_CMD RESET moves a FAILED avenue to CLOSED. (R468) -/
  | aveCmdReset (a : Fin 4096) (v : Word)
  /-- AVE_CMD SKIP ends a non-OPEN outbound avenue's holds up to the cord tail, or is refused. (R475) -/
  | aveCmdSkip (a : Fin 4096) (v : Word)
  /-- A received Avenue OPEN opens a LISTEN avenue with OPEN_ACK, or is handled as repeat or violation. (R468) -/
  | pktOpen (i : Fin 16) (p : AvePkt)
  /-- A received OPEN_ACK moves an OPENING avenue to OPEN. (R468) -/
  | pktOpenAck (i : Fin 16) (p : AvePkt)
  /-- A received DATA packet is accepted, reordered, acknowledged or answered as a violation. (R470) -/
  | pktData (i : Fin 16) (p : AvePkt)
  /-- A received ACK ends holds on acknowledged bytes, updates LIMIT and may trigger a fast retransmission. (R471) -/
  | pktAck (i : Fin 16) (p : AvePkt)
  /-- A received NAK from the partner is taken. (R476) -/
  | pktNak (i : Fin 16) (p : AvePkt)
  /-- A received CLOSE moves an OPEN avenue to CLOSED with CLOSE_ACK. (R468) -/
  | pktClose (i : Fin 16) (p : AvePkt)
  /-- A received CLOSE_ACK moves a CLOSING avenue to CLOSED. (R468) -/
  | pktCloseAck (i : Fin 16) (p : AvePkt)
  /-- A received TRIGGER is acknowledged and queued in its slot, or dropped or answered as a violation. (R478) -/
  | pktTrigger (i : Fin 16) (p : AvePkt)
  /-- A received TRIG_ACK ends the resending of a trigger message. (R481) -/
  | pktTrigAck (i : Fin 16) (p : AvePkt)
  /-- An outbound avenue sends stream bytes that are in the store and within credit. (R469) -/
  | aveDataSend (i : Fin 16)
  /-- RTO_US passes without acknowledgement and the range, OPEN or CLOSE is sent again or the avenue fails. (R471) -/
  | aveRtoExpiry (a : Fin 4096)
  /-- ACK_US after the first unacknowledged byte, the receiver sends an ACK. (R471) -/
  | aveAckTimer (a : Fin 4096)
  /-- Every DEAD_MS / 4 on an idle avenue, an ACK is sent. (R471) -/
  | aveIdleAck (a : Fin 4096)
  /-- DEAD_MS without a valid packet moves the avenue to FAILED with DEAD. (R471) -/
  | aveDeadExpiry (a : Fin 4096)
  /-- One second after quarantine the avenue returns to its previous state and restarts its timers. (R477) -/
  | aveQuarantineEnd (a : Fin 4096)
  /-- A write of 1 to AVE_SNAP.SNAP captures the avenue offsets. (R484) -/
  | aveSnap (a : Fin 4096) (v : Word)
  /-- A write of 1 to AVE_TRIG_SEND.GO sends a TRIGGER message. (R481) -/
  | trigSendGo (v : Word)
  /-- RTO_US passes without TRIG_ACK and the trigger message is sent again or counted UNACKED. (R481) -/
  | trigResend (a : Fin 4096)
  /-- A pending trigger message's time arrives and the event of source 52 + k is released. (R478) -/
  | trigMessageRelease (k : Fin 4)
  /-- HPD rises and the device reads DPCD, chooses and trains the link, or changes state on HPD loss. (R486) -/
  | disHpd (n : Fin 2) (sink : Option (Nat × Nat)) (ok : Bool)
  /-- A write of 1 to DIS_CTRL.COMMIT requests a commit at the next frame start. (R488) -/
  | disCommit (n : Fin 2) (v : Word)
  /-- A frame begins: a pending commit is checked and applied, and enabled layers latch their newest frame. (R494) -/
  | disFrameStart (n : Fin 2)
  /-- The new pixel clock is stable and the link retrains if needed, then a black frame is sent. (R489) -/
  | disClockStable (n : Fin 2) (ok : Bool)
  /-- A layer takes a record of its context, assembling or dropping a density or overlay frame. (R492) -/
  | disLayerRecord (n l : Fin 2)
  /-- A write of 1 to DIS_AUX.GO performs an AUX request. (R486) -/
  | disAuxGo (n : Fin 2) (v : Word) (reply : AuxReply)
  /-- A palette write is stored, or discarded when it targets the committed bank. (R496) -/
  | disPalWrite (n b : Fin 2) (i : Fin 1024) (v : Word)
  /-- A write to STK_CMD queues a command with a ticket, or is discarded. (R502) -/
  | stkCmdQueue (v : Word)
  /-- Stoker command NOP does nothing. (R503) -/
  | stkNop
  /-- Stoker command FLASH_READ copies flash contents to host memory. (R503) -/
  | flashRead
  /-- Stoker command FLASH_UPDATE checks a container and programs it into the unused slot. (R508) -/
  | flashUpdate (img : HostRead) (ok : Bool)
  /-- Stoker command CAL_STORE performs the calibration-store write. (R148) -/
  | calStore
  /-- Stoker command KEY_PROVISION writes the plan-signing key, or is refused after KEY_LOCK. (R513) -/
  | keyProvision (data : HostRead) (ok : Bool)
  /-- Stoker command KEY_LOCK fuses the SHA-384 of the provisioned key. (R513) -/
  | keyLock (ok : Bool)
  /-- Stoker command SVN_COMMIT raises a fused SVN floor. (R514) -/
  | svnCommit (ok : Bool)
  /-- Stoker command SECURE_ENABLE fuses secure mode. (R515) -/
  | secureEnable (ok : Bool)
  /-- A write of 1 to STK_CANCEL.GO cancels a queued command that has not started. (R504) -/
  | stkCancel (v : Word)
  /-- A control word fetch finds an ECC error, corrected or stopping the Stoker. (R500) -/
  | stkCsEccError (bad patch : Bool)
  /-- The Stoker reaches no safe point for WD_US and a WATCHDOG restart begins. (R535) -/
  | stkWatchdog
  /-- PORST# or PERST# is asserted, or a rail falls below 90 %, and the device enters reset. (R547) -/
  | porstAssert (p : ResetPin)
  /-- The release of PORST# or PERST# samples the straps and starts the boot ROM. (R510) -/
  | porstRelease (p : ResetPin) (bootsel : Fin 4) (smbAddr : Fin 8)
  /-- A boot step of Table 23-6 ends and the next starts, or boot halts or reaches READY. (R510) -/
  | bootStepEnd (e : BootEnd)
  /-- A write to EVT_RING_IDX.RELEASE gives back event records, or is discarded. (R526) -/
  | evtRelease (v : Word)
  /-- A write of EVT_CTRL.RING_EN starts or stops writing event records. (R528) -/
  | ringEnWrite (v : Word)
  /-- A write to EVT_SWTEST raises software-test sources. (R522) -/
  | evtSwtest (v : Word)
  /-- Injection type EVENT raises a source with INJECTED set. (R540) -/
  | injectEvent (v : Word)
  /-- Injection type CONTEXT recovers a context with code INJECTED. (R540) -/
  | injectContext (v : Word)
  /-- Injection type MEM_CE flips one data bit of a line at its next write. (R540) -/
  | injectMemCe (v : Word)
  /-- Injection type MEM_UE flips two data bits of a line at its next write. (R540) -/
  | injectMemUe (v : Word)
  /-- Injection type RESTART begins a restart with cause INJECTED. (R540) -/
  | injectRestart (v : Word)
  /-- A write of 1 to EVT_INJ.LOCK disables injection until reset. (R540) -/
  | injectLock (v : Word)
  /-- A rail falls between 90 % and 97 % of nominal and LOW sets. (R545) -/
  | railLow (r : Fin 11) (mv : Fin 65536)
  /-- Every 1 ms the sensors update THM_TEMP and THERM_ALERT# is driven. (R558) -/
  | thmSensorUpdate (temps : List Int) (rails : List (Nat × Nat))
  /-- A write to PWR_CTRL.CNV_STBY enters converter standby, or is discarded. (R555) -/
  | cnvStbyWrite (v : Word)
  /-- A write to PWR_CTRL.SR_EN allows self-refresh, and leaves it when in self-refresh. (R556) -/
  | srEnWrite (v : Word)
  /-- After 10 ms of idle conditions the store enters self-refresh. (R556) -/
  | selfRefreshEntry
  /-- SMBus SET_OFFSET sets the BAR0 pointer. (R561) -/
  | smbSetOffset (bytes : List Byte) (wrongPec : Bool)
  /-- SMBus READ returns 32 bits at the pointer and advances it. (R561) -/
  | smbRead
  /-- SMBus WRITE writes 32 bits at the pointer and advances it, or is discarded when locked. (R561) -/
  | smbWrite (bytes : List Byte) (wrongPec : Bool) (env : Env)
  /-- SMBus STATUS returns the last-write, PEC and state byte. (R561) -/
  | smbStatus
  /-- A write of 1 to MGT_SMB.LOCK through BAR0 locks SMBus writes until reset. (R562) -/
  | mgtSmbLock (v : Word)
  /-- JTAG instruction IDCODE selects the identification register. (R563) -/
  | idcode
  /-- JTAG instruction SAMPLE/PRELOAD captures or loads the boundary register. (R563) -/
  | samplePreload (capture : Bool) (bits : List Bool)
  /-- JTAG instruction EXTEST drives the balls from the boundary register. (R563) -/
  | extest
  /-- JTAG instruction CLAMP holds the outputs and selects bypass. (R563) -/
  | clamp
  /-- JTAG instruction HIGHZ floats the outputs. (R563) -/
  | highz
  /-- JTAG instruction EXTEST_PULSE runs the 1149.6 pulse test on the SERDES class. (R563) -/
  | extestPulse
  /-- JTAG instruction EXTEST_TRAIN runs the 1149.6 train test on the SERDES class. (R563) -/
  | extestTrain
  /-- JTAG instruction BYPASS selects the bypass register. (R563) -/
  | bypass
  /-- In each DCLK the converters deliver corrected samples and every unit takes its inbound beat and emits its outbound beat; a branch without credit loses the beat. (R158) -/
  | streetBeat (c0 c1 c2 c3 : List (BitVec 12))
  /-- A display line is scanned out, the layers are composed, and a layer whose data has not arrived is transparent for the rest of the line with UNDERFLOW counted. (R495) -/
  | scanoutLine (n : Fin 2) (y den ovl : Fin 65536)
  /-- A rail rises above nominal + 3 %, so PWR_RAIL.HIGH sets and PWR_RAIL_HIGH is raised. (R564) -/
  | railHigh (r : Fin 11) (mv : Fin 65536)
  /-- Every rail returns above 90 % of nominal and the device leaves the reset it held itself in, clearing LOW when the rail is back within 3 %. (R545) -/
  | railRecovered (r : Fin 11) (within : Bool)
  /-- A trigger-bus line that was low returns high, so the device can take another event on it. (R260) -/
  | tbusLineHigh (l : Fin 8)
  /-- The test access port is reset by TRST# or TMS, and IDCODE is selected. (R563) -/
  | tapReset
  deriving DecidableEq, Repr

end Sys2Proof
end

