-- ==== Sys2Proof/Decode.lean ====
section
/-! DEFINITION. The table of operations and events gives its rows no bits: a command is handed to the block whole, not read from a word. -/

namespace Sys2Proof

/-- The command that a word spells: no row of the table has bits, so none. -/
def decodeTableWord (nbits w : Nat) : Option Instr :=
  match nbits, w with
  | _, _ => none

end Sys2Proof
end

