-- ==== Sys2Proof/Config.lean ====
section
/-! DEFINITION. What the spec leaves open: free values (opaque constants without a body, applied to the counter
`freeCtr` of the state or to the operands they depend on) and what a part has fused into it. Nothing can prove a
value of any of them, so every claim holds for all of them. -/

namespace Sys2Proof.Config

/-- Which free billet the Woodyard takes: the search for a free billet starts at this number (assumption 3). -/
opaque billetPick : Nat → Nat

/-- CCLK cycles between the safe points of a Stoker routine, at most 2,048 (R501). -/
opaque stkSpan : Nat → Nat

/-- SEC_SERIAL.SERIAL, fused into the part (R521). -/
opaque serial : BitVec 48

/-- SEC_ID_HASH, the six words fused into the part (R521). -/
opaque idHash : Nat → BitVec 64

/-- What a read of the CXL capability structures at BAR0 0x1000 to 0x1FFF returns (R418): the CXL
specification gives their layout, this spec does not. -/
opaque cxlCapRead : Nat → BitVec 64

/-- Whether a result whose rounding the spec does not state is rounded up (assumption 4). -/
opaque roundUp : Nat → Bool

/-- Which of the two slices of a handover that is rejected for the third time in succession has failed: the one in the position, else the
free one (R86, assumption 60). -/
opaque failedSlice : Nat → Bool

/-- The gain error in 2^-15 that the estimator measures, from the sum of squares and count of a slice and of all active slices
(R82, assumption 61). -/
opaque gainError : Int → Nat → Int → Nat → Int

/-- The skew error in 25 fs that the estimator measures, from the correlations with the positions before and after (R82, assumption 61). -/
opaque skewError : Int → Int → Int

/-- The power of corrected samples within a half-width in kHz of the multiples of f_root/32, at a tick in fs: the spec does not say how
it is measured (R83, assumption 61). -/
opaque cohPower : Nat → Nat → List Int → Nat

/-- Whether a granule to an open row goes ahead of the head granule of its rank: R382 says that it may (assumption 69). -/
opaque rowHitAhead : Nat → Bool

/-- The rate correction that the Stoker's servo loop writes: the spec names the loop, not its gains (R119). -/
opaque servoAdj : Nat → Int

/-- Whether the Stoker steps or slews a phase error of the 1PPS out at once in ACQUIRE: R121 says that it may. -/
opaque servoJumps : Nat → Bool

/-- TDC_FREQ_RES2.FREQ where the formula of R133 divides by zero. -/
opaque freqOfZero : Nat → Nat

/-- The ENBW of a window whose coefficients sum to 0, or whose noise bandwidth does not fit the field (R222). -/
opaque enbwOpen : Nat → Nat

/-- The power of a bin whose frame has a full scale of 0 (R234), as a 40-bit significand. -/
opaque powerOpen : Nat → Nat

/-- The precision code of a forced or free-run decision, which Table 12-1 does not give. -/
opaque forcedPrec : Nat → Nat

/-- The fraction of R263 where the crossing sample equals the sample before it. -/
opaque crossOpen : Nat → Nat

/-- The spacing of the samples of a replayed record, in 1/65,536 tick, above 0: the record does not carry it. -/
opaque replaySpacing : Nat → Nat

/-- What MOVC reads from a control register index of 36 to 63, which R319 leaves undefined. -/
opaque crOpen : Nat → Nat

/-- The table that the encoder writes into a DYNAMIC block: R403 bounds it and names no more. Class `c` has the length `dynTable k c`
when these lengths are at most 15 and have a Kraft sum of at most 1. -/
opaque dynTable : Nat → Nat → Nat

/-- PRED in the header of a STORED block, which codes without a predictor (Table 18-2). -/
opaque storedPred : Nat → Nat

/-- SHA-384 (FIPS 180-4) of some bytes, as a number of 384 bits: the spec uses it and does not restate it (assumption 20). -/
opaque sha384 : List (BitVec 8) → Nat

/-- Does the ECDSA P-384 signature (r, s) (third and fourth arguments) verify against the public key (first, 768 bits) for a SHA-384 digest
(second; assumption 20)? -/
opaque ecdsaOk : Nat → Nat → Nat → Nat → Bool

/-- The public half of the vendor signing key with a KEY_ID, none when the KEY_ID is unknown (R506). -/
opaque vendorKey : Nat → Option Nat

/-- Does AES-256-GCM under the family patch key authenticate: IV, additional data, ciphertext, tag (R506, assumption 20)? -/
opaque gcmOk : List (BitVec 8) → List (BitVec 8) → List (BitVec 8) → List (BitVec 8) → Bool

/-- Does a decrypted patch payload fit the patch RAM with valid redirect entries (R507)? Its encoding is not published. -/
opaque patchOk : List (BitVec 8) → Bool

/-- The identity certificate chain of the provisioning area (R516). -/
opaque certChain : List (BitVec 8)

/-- The signature of the identity key over some bytes, the number `k` of signatures before it (R516, R517). -/
opaque idSign : Nat → List (BitVec 8) → List (BitVec 8)

/-- The measurement of the boot ROM (Table 23-7). -/
opaque bootRomHash : Nat

/-- The random nonce drawn at an OPEN of an avenue (R468). -/
opaque nonce : Nat → Nat

end Sys2Proof.Config
end

