-- ==== Sys2Proof/Machine/SMap.lean ====
section
/-! DEFINITION. Sparse tables by number, in one canonical form (keys strictly rising, no entry equal to what an
unlisted key reads as), the byte memories built on them, and the reading and writing of bit fields. -/

namespace Sys2Proof.Machine

/-- A sparse table: numbered entries, everything else at a default. -/
abbrev SMap (α : Type) := List (Nat × α)

/-- Reads entry `k`; an unlisted entry reads as `d`. -/
def SMap.get {α : Type} (d : α) : SMap α → Nat → α
  | [], _ => d
  | (k', v) :: t, k => if k' = k then v else SMap.get d t k

/-- Puts an entry before the first larger key. -/
def SMap.ins {α : Type} : SMap α → Nat → α → SMap α
  | [], k, v => [(k, v)]
  | (k', v') :: t, k, v => if k < k' then (k, v) :: (k', v') :: t else (k', v') :: SMap.ins t k v

/-- Takes every entry of key `k` out. -/
def SMap.del {α : Type} : SMap α → Nat → SMap α
  | [], _ => []
  | (k', v') :: t, k => if k' = k then SMap.del t k else (k', v') :: SMap.del t k

/-- Writes entry `k`; writing what an unlisted entry reads as takes the entry out. -/
def SMap.set {α : Type} [DecidableEq α] (d : α) (m : SMap α) (k : Nat) (v : α) : SMap α :=
  if v = d then m.del k else (m.del k).ins k v

/-- Applies `f` to entry `k`. -/
def SMap.upd {α : Type} [DecidableEq α] (d : α) (m : SMap α) (k : Nat) (f : α → α) : SMap α :=
  m.set d k (f (m.get d k))

/-- Keys strictly rising. -/
def SMap.sorted {α : Type} : SMap α → Bool
  | [] => true
  | [_] => true
  | (k, _) :: (k', v') :: t => k < k' && SMap.sorted ((k', v') :: t)

/-- The canonical form: keys strictly rising, no entry at the default. -/
def SMap.wf {α : Type} [DecidableEq α] (d : α) (m : SMap α) : Bool :=
  m.sorted && m.all (fun e => e.2 ≠ d)

/-- A byte memory: the listed bytes, in canonical form (`Host.Cell` pairs). -/
abbrev Memory := SMap Byte

/-- Reads the byte at address `a`; an unlisted byte reads as `d`. -/
def Memory.byte (d : Byte) (m : Memory) (a : Nat) : Byte := SMap.get d m a

/-- The canonical form of a byte memory whose unlisted bytes read as `d`. -/
def Memory.wf (d : Byte) (m : Memory) : Bool := SMap.wf d m

/-- Writes the bytes `bs` from address `a` upwards. -/
def Memory.write (d : Byte) : Memory → Nat → List Byte → Memory
  | m, _, [] => m
  | m, a, b :: bs => Memory.write d (SMap.set d m a b) (a + 1) bs

/-- Reads `n` bytes from address `a` upwards. -/
def Memory.read (d : Byte) (m : Memory) (a : Nat) : Nat → List Byte
  | 0 => []
  | n + 1 => Memory.byte d m a :: Memory.read d m (a + 1) n

/-- The `n` bytes of a number, lowest first (R2). -/
def leBytes : Nat → Nat → List Byte
  | 0, _ => []
  | n + 1, v => BitVec.ofNat 8 v :: leBytes n (v / 256)

/-- The number that bytes spell, lowest first (R2). -/
def leNat : List Byte → Nat
  | [] => 0
  | b :: bs => b.toNat + 256 * leNat bs

/-- The value of a field. -/
def fget (w : Word) (f : Fld) : Nat := w.toNat / 2 ^ f.lo % 2 ^ f.w

/-- The word with a field replaced by `v`, cut to the field's width. -/
def fset (w : Word) (f : Fld) (v : Nat) : Word :=
  BitVec.ofNat 64 (w.toNat % 2 ^ f.lo + v % 2 ^ f.w * 2 ^ f.lo + w.toNat / 2 ^ (f.lo + f.w) * 2 ^ (f.lo + f.w))

/-- Several fields replaced, in order. -/
def fsets (w : Word) : List (Fld × Nat) → Word
  | [] => w
  | (f, v) :: t => fsets (fset w f v) t

/-- A written word in which field `f` keeps its old value where the written one lies outside `lo` to `hi` (assumption 30). -/
def keepRange (old : Word) (f : Fld) (lo hi : Nat) (v : Word) : Word :=
  if fget v f < lo || hi < fget v f then fset v f (fget old f) else v

/-- A field read as two's complement. -/
def fgetS (w : Word) (f : Fld) : Int :=
  if fget w f < 2 ^ (f.w - 1) then (fget w f : Int) else (fget w f : Int) - 2 ^ f.w

/-- A number of `n` bits read as two's complement. -/
def toSigned (n v : Nat) : Int := if v % 2 ^ n < 2 ^ (n - 1) then (v % 2 ^ n : Int) else (v % 2 ^ n : Int) - 2 ^ n

/-- An integer as an `n`-bit two's-complement number. -/
def ofSigned (n : Nat) (v : Int) : Nat := (v % 2 ^ n).toNat

/-- One bit as a flag. -/
def b2n (b : Bool) : Nat := if b then 1 else 0

/-- A counter of `n` bits that stops at its largest value ("saturating"). -/
def satN (n v : Nat) : Nat := if v < 2 ^ n then v else 2 ^ n - 1

/-- Clamps an integer to the range of `n`-bit two's complement. -/
def satS (n : Nat) (v : Int) : Int :=
  if v < -(2 ^ (n - 1) : Int) then -(2 ^ (n - 1) : Int)
  else if (2 ^ (n - 1) : Int) - 1 < v then 2 ^ (n - 1) - 1 else v

/-- Rounds `v / 2^n` half up (towards plus infinity at the half). -/
def rndHalfUp (v : Int) (n : Nat) : Int := if n = 0 then v else (v + 2 ^ (n - 1)) / 2 ^ n

/-- Rounds `v / 2^n` to the nearest, a half to the even neighbour (convergent rounding). -/
def rndEven (v : Int) (n : Nat) : Int :=
  if n = 0 then v
  else
    let q := v / 2 ^ n
    let r := v % 2 ^ n
    if r < 2 ^ (n - 1) then q else if 2 ^ (n - 1) < r then q + 1 else if q % 2 = 0 then q else q + 1

/-- `a / b` rounded up. -/
def ceilDiv (a b : Nat) : Nat := (a + b - 1) / b

/-- Replaces the `i`-th element of a list by `f` of it. -/
def modAt {α : Type} (f : α → α) : List α → Nat → List α
  | [], _ => []
  | a :: t, 0 => f a :: t
  | a :: t, i + 1 => a :: modAt f t i

/-- The first `n` natural numbers. -/
def upTo (n : Nat) : List Nat := List.range n

/-- `a / b` rounded to the nearest, halves up. -/
def divRound (a : Int) (b : Nat) : Int := if b = 0 then 0 else (2 * a + b) / (2 * b)

end Sys2Proof.Machine
end

