-- ==== Sys2Proof/Machine/Parts.lean ====
section
/-! DEFINITION. The parts of the machine's state: one record type per kind of thing the chapters give the device
beside its registers. -/

namespace Sys2Proof.Machine

/-! ### Records, cords and contexts (chapters 2, 15, 16) -/

/-- The state of a context (R349). -/
inductive CtxSt where
  | closed | opened | draining
  deriving DecidableEq, Repr

/-- One extent of a cord (R336): its place in the byte stream of the context, its billet, its first byte there and
its byte count. -/
structure Ext where
  pos    : Nat
  billet : Nat
  off    : Nat
  bytes  : Nat
  deriving DecidableEq, Repr

/-- A record of a cord, as the Woodyard knows it: its header's SEQ, EPOCH and TYPE, its place and length in the
byte stream, its items in the producer's unit, when its last byte was written, the deadline of each
destination (R368) and which destinations have missed it, leave it out, or have begun it. -/
structure CordRec where
  seq   : Nat
  epoch : Nat
  typ   : Nat
  pos   : Nat
  len   : Nat
  items : Nat
  wtime : Nat
  due   : List (Option Nat)
  missed : List Bool
  skipped : List Bool
  deriving DecidableEq, Repr

/-- A destination of a context: the positions in the byte stream up to which its hold has ended, up to which it has
begun to deliver, and up to which delivery is complete, and the positions of the records it was to deliver that were freed or left
out: the first record it delivers after one of them carries GAP (R346, R371). -/
structure DestSt where
  fin   : Nat
  begun : Nat
  doneTo : Nat
  gap   : List Nat
  deriving DecidableEq, Repr

/-- A destination that a context no longer has, since it was opened again while DRAINING, and that finishes the old cord (R349):
its TYPE and INDEX, the position in the stream where the old cord ends, and words 5 and 6 of the old entry (Table 15-1). -/
structure OldDest where
  typ  : Nat
  ix   : Nat
  upto : Nat
  w5   : Word
  w6   : Word
  deriving DecidableEq, Repr

/-- A record on its way to a store port: the header fields its producer decides, and its payload in the three parts
of R338 (a record that no acquisition ring holds has only the first part). `devid` is the partner's DEVID of
a record received on an inbound avenue (R474); `canWait` says the source can wait, `policed` that the record has passed policing and now
waits for a billet (R372), and `epoch` the epoch of a record that was complete before a declared gap of its context and still
waits (R169). -/
structure Prod where
  ctx   : Nat
  typ   : Nat
  time  : Nat
  fine  : Nat
  flags : Nat
  items : Nat
  devid : Option Nat
  canWait : Bool
  policed : Bool
  epoch : Option Nat
  pre   : List Byte
  ring  : List Ext
  post  : List Byte
  deriving DecidableEq, Repr

/-- An event to be raised once a FAULT record is in the store: source, object, code, detail, rate limit in µs. `all` says that several
contexts' FAULT records share it, so that it is raised after the last of them. -/
structure EvReq where
  src    : Nat
  obj    : Option Nat
  code   : Nat
  detail : Nat
  lim    : Nat
  all    : Bool
  deriving DecidableEq, Repr

/-- A FAULT record to be written: CODE, SOURCE, LOST, LAST_GOOD, DETAIL and the detection time (Table
2-6), and the event that follows it once it is in the store (R36). -/
structure FaultRec where
  code   : Nat
  source : Nat
  lost   : Nat
  lastGood : Nat
  detail : Nat
  time   : Nat
  ev     : Option EvReq
  deriving DecidableEq, Repr

/-- A context (R347, R349): its state, its entry words, its producer, and its counters. -/
structure Ctx where
  st      : CtxSt
  entry   : List Word        -- Table 15-1, words 0 to 7
  runtime : Bool             -- opened by the admission controller, not by the plan
  seq     : Nat              -- SEQ of the next non-PAD record (R38)
  epoch   : Nat              -- R39
  epochPend : Bool           -- EPOCH increments with the next record other than FAULT (R531 step 4)
  recovering : Bool          -- CTX_RECOVERED is due with that record
  flags   : Nat              -- flags gathered for the next non-FAULT record (R30)
  lostSince : Nat            -- items lost since the previous record of any type (Table 2-6, LOST)
  lastGood : Nat             -- TIME of the last record other than FAULT and PAD
  lost    : Nat              -- STO_CSNAP2.LOST
  shed    : Nat              -- STO_CSNAP3.SHED
  overflow : Nat             -- STO_CSNAP3.OVERFLOW
  held    : Nat              -- billets charged (R342)
  wpos    : Nat              -- bytes written to the cord's stream so far
  tail    : Option (Nat × Nat)  -- the tail billet and its next free byte
  exts    : List Ext
  recs    : List CordRec
  dests   : List DestSt      -- of DEST0 to DEST3, then of `olds`
  olds    : List OldDest     -- R349
  faults  : List FaultRec    -- FAULT records held for want of a billet (R36)
  tokens  : Nat              -- token bucket T in 1/65,536 byte (R372)
  tokTime : Nat              -- device time of the last refill
  plat    : Nat              -- path latency P_i, ticks (R361)
  waiting : Option (Nat × Nat)  -- credit withheld: since when, and why (1 policing, 2 overflow)
  zcPub   : Nat              -- publish entries written (R352)
  zcRel   : Nat              -- publish entries given back
  zcEnds  : List (Nat × Nat)  -- per entry not given back: its billet and the end of its extent in the stream
  zcPos   : Nat              -- stream position up to which extents are published
  zcFullSaid : Bool          -- STO_ZC_FULL raised for this filling (R354)
  zcFirst : Nat              -- device time of the oldest unpublished record in the tail billet
  deriving DecidableEq, Repr

/-- A billet of the store that is in use (R340): its owner, whether a writer holds it, SWREF, DEFER, HBIAS, and
whether a bias switch is under way and where it goes. An unlisted billet is free. -/
structure Billet where
  owner  : Nat
  used   : Bool
  writer : Bool
  ring   : Bool
  swref  : Nat
  defer  : Bool
  hbias  : Bool
  switch : Option Bool       -- some true: to host bias; some false: to device bias (R422)
  deriving DecidableEq, Repr

/-- A store port (squares 70 to 85): the records that reach it, oldest first. -/
structure Port where
  inbox : List Prod
  deriving DecidableEq, Repr

/-! ### What leaves the device -/

/-- A UDP datagram the device sends (R461, R466): sub-port, own and next-hop MAC, address family, the DF bit of IPv4, addresses, ports,
UDP checksum, and payload; the rest of its Ethernet, IP and UDP headers is that of the standards. -/
structure Datagram where
  sub   : Nat
  smac  : Nat
  dmac  : Nat
  v6    : Bool
  df    : Bool
  sip   : Nat
  dip   : Nat
  sport : Nat
  dport : Nat
  csum  : Nat
  bytes : List Byte
  deriving DecidableEq, Repr

/-- Something the device sends: an MSI-X message, a network frame (port, bytes), a reply of the DOE mailbox, an
answer to a host snoop, a CXL.mem or CXL.io completion (bytes, poisoned), a pulse on a pin, a display
line, an AUX request, SMBus data, bits at TDO, and what JTAG drives on the balls. -/
inductive Out where
  | msix (vector : Nat)
  | frame (subport : Nat) (bytes : List Byte)
  | udp (d : Datagram)
  | doe (answer : DoeAnswer)
  | snoopRsp
  | memRead (bytes : List Byte) (poison : Bool)
  | memWriteDone
  | aer (timeout : Bool)
  | rasDataEcc
  | pulse (line : Nat)
  | aux (output : Nat) (word : Word) (data : List Byte)
  | video (output line : Nat) (sync : Bool × Bool) (pixels : List Nat)
  | smb (value : Nat)
  | tdo (bits : List Bool)
  | balls (bits : List Bool)
  | float
  deriving DecidableEq, Repr

/-! ### The host side: events, MSI-X, the link (chapters 19 and 24) -/

/-- One MSI-X vector: masked, message pending (PBA), when its last message was sent, and the message address and data of its table
entry. -/
structure Vec where
  masked  : Bool
  pend    : Bool
  last    : Option Nat
  addr    : Word
  data    : Nat
  deriving DecidableEq, Repr

/-- An HDM decoder (R419). -/
structure Hdm where
  base : Nat
  size : Nat
  skip : Nat
  committed : Bool
  notCommitted : Bool
  locked : Bool
  deriving DecidableEq, Repr

/-- The host link and the function behind it (R414 to R434). -/
structure Hif where
  bme      : Bool
  fnMasked : Bool
  vecs     : SMap Vec
  hdm0     : Hdm
  hdm1     : Hdm
  cdatSeq  : Nat
  bw       : Nat             -- lanes × rate (1/2 GT/s) of the last training, at first x16 at 32 GT/s (R416, R430)
  downSaid : Bool            -- HIF_LINK_DOWN waits for the link to be up again
  deriving DecidableEq, Repr

/-- The event controller's hidden state: records written and given back in all, occurrences since each source's last record (R525), when each limited
event was last recorded, and the records lost since the last EVT_LOST (R527). -/
structure Evt where
  written : Nat
  released : Nat
  occ     : SMap Nat
  last    : SMap Nat
  lostSince : Nat
  deriving DecidableEq, Repr

/-- A datapath restart (R534 to R538): its cause and beginning; how far it has come (0 ingress stopped, 1 FAULT records written, 2
units reset); the times of the automatic restarts; the channels to train again; whether it is a fourth automatic one; whether an
uncorrectable word in patch RAM was the cause; and whether a CXL Reset completes with it (Table 19-5). -/
structure Rst where
  cause  : Nat
  t0     : Nat
  phase  : Nat
  autos  : List Nat
  failed : List Nat
  fourth : Bool
  patch  : Bool
  cxl    : Bool
  deriving DecidableEq, Repr

/-! ### The Stoker, boot and security (chapter 23) -/

/-- A Stoker command in the queue (R502): its ticket, its code and arguments, and whether it has started. -/
structure StkCmd where
  ticket : Nat
  code   : Nat
  args   : List Word
  run    : Bool
  deriving DecidableEq, Repr

/-- The Stoker and security beside their registers: the command queue, oldest first; the provisioned plan-signing key (768 bits); the
fuses (the plan-key hash, secure mode, the two SVN floors); the measurement blocks; the boot step under way (0: none) and the
milliseconds since the release; and the requests and answers of the SPDM session so far (R517). -/
structure Stk where
  queue   : List StkCmd
  key     : Option Nat
  keyHash : Option Nat
  armed   : Bool
  kFloor  : Nat
  pFloor  : Nat
  meas    : SMap Nat
  step    : Nat
  ms      : Nat
  spdm    : List Byte
  deriving DecidableEq, Repr

/-! ### Clock synthesis (chapter 3) -/

/-- Where a RETUNE stands (R54, R56): nothing; locking to the new word, to the previous word, or in a retry from HELD;
waiting SETTLE after each of these locks; or HELD between retries. -/
inductive Retune where
  | idle | toNew | settleNew | toOld | settleOld | held | retry | settleRetry
  deriving DecidableEq, Repr

/-- One clock output: the root periods since its current period began, the divider and the delay (COARSE and FINE) it runs with, and
whether it runs (R60 to R62). -/
structure ClkOut where
  phase  : Nat
  div    : Nat
  coarse : Nat
  fine   : Nat
  run    : Bool
  deriving DecidableEq, Repr

/-- The MPLL: the words (N × 2^32 + FRAC) in force, before it and staged; the stage of a RETUNE; the last good
frequency gate since lock; the frozen error, the temperature and REF_OK history of a holdover; and the
moment of the last divider reset by SYNCIN. -/
structure Clk where
  word    : Nat
  prev    : Nat
  target  : Nat
  stage   : Retune
  gate    : Option Int
  gateBad : Bool
  frozen  : Int
  temp0   : Int
  refMs   : Bool
  syncAt  : Nat
  outs    : List ClkOut
  deriving DecidableEq, Repr

/-! ### Street grid and plan images (chapter 8) -/

/-- A route of a plan (Table 8-4); `context` is the field CONTEXT, whether or not CTX_VALID makes it the context `ctx`. -/
structure Route where
  num    : Nat
  src    : Nat
  wait   : Bool
  dsts   : List Nat
  rate   : Nat
  ctx    : Option Nat
  context : Nat
  upstream : Word
  deriving DecidableEq, Repr

/-- A unit record of a plan (R161): its square and its body words. -/
structure UnitRec where
  square : Nat
  body   : List Word
  deriving DecidableEq, Repr

/-- A plan image after parsing (Tables 8-2 and 8-3), with the SHA-384 of its bytes (Table 23-7). -/
structure PlanImg where
  sha    : Nat
  planId : Nat
  froot  : Nat
  crc    : Nat
  pair01 : Nat
  pair23 : Nat
  units  : List UnitRec
  routes : List Route
  ctxs   : List (List Word)
  params : List (Nat × Word)
  deriving DecidableEq, Repr

/-- The images of the two plan slots (R162). -/
structure PlanSt where
  slot0  : Option PlanImg
  slot1  : Option PlanImg
  deriving DecidableEq, Repr

/-! ### Timebase and time inputs (chapter 6) -/

/-- The timebase: the part of a phase correction still to apply, in 2^-40 tick (R115); steps that wait for the first
DCLK edge after a divider hold (R116); the consecutive updates within the lock window; and when the
last valid update came and LOCKED was entered (Table 6-1). -/
structure Tbs where
  slew    : Int
  steps   : List Int
  run     : Nat
  lastUpd : Nat
  lockAt  : Nat
  deriving DecidableEq, Repr

/-- A TDC channel: the time of its last stamped edge and whether one was stamped (1/512 tick), a loss to declare on the
next stamp, device-time bit 48 at the last stamp, the queue of stamps, and the STAMPS record under construction
with the device time of its first stamp and the flags it has gathered (R124 to R127). -/
structure TdcCh where
  last    : Option Int
  loss    : Bool
  era     : Bool
  queue   : List Word
  open_   : List Word
  openAt  : Nat
  fl      : Nat
  deriving DecidableEq, Repr

/-- The time inputs: the channels, the regression unit (base time and index of its gate, the stamps and losses seen in
it, the stamps with their LOSS that belong to later gates, and the flags of the gate; R132, R134), and the ring periods as last
measured (R123). -/
structure Tdc where
  chs     : SMap TdcCh
  base    : Nat
  idx     : Nat
  stamps  : List Nat
  loss    : Bool
  ahead   : List (Nat × Bool)
  fl      : Nat
  rings   : Nat × Nat
  deriving DecidableEq, Repr

/-! ### Streams (R18, R27 to R35, R154) -/

/-- One sample of a stream, or one place of it whose sample is missing (`ok` is 0: lost, withheld or invalid): its instant at
the ball in 1/65,536 tick (R71, R91, R186), its components, the flags it carries, and the format of the components (0 rs16, 1 cs16, 2 cs24).
Flag bits [15:0] are those of Table 2-2; bits [27:16] are the states of PG0 to PG3 at the sample's tick, and bits [43:32] those at the ticks
between the sample before and it (R110, R243). -/
structure Smp where
  t  : Nat
  i  : Int
  q  : Int
  ok : Bool
  fl : Nat
  fmt : Nat
  deriving DecidableEq, Repr

/-- One frame of a transform pipeline on its way (R205 to R224): the anchor it is counted from, its number, its instants in
1/65,536 tick, whether it was lost, and when not its exponent, delivered bins, first bin, transform size,
coefficient sum and flags. A trace that a detector unit sends to a density accumulator carries its binary32 values instead,
and whether they are RMS amplitudes (R248). -/
structure Frm where
  era   : Nat
  f     : Nat
  t     : Nat
  tend  : Nat
  lost  : Bool
  exp   : Int
  bins  : List (Int × Int)
  first : Nat
  log2n : Nat
  wsum  : Int
  fl    : Nat
  trace : Option (Bool × List Nat)
  deriving DecidableEq, Repr

/-! ### Down-conversion (chapter 9) -/

/-- A half-band stage: inputs taken and outputs computed since the origin, the instant of the newest output, and the newest
inputs, latest first (R183, R187). -/
structure DdcStg where
  n    : Nat
  m    : Nat
  last : Nat
  hist : List Smp
  deriving DecidableEq, Repr

/-- A bank swap that is pending: its instant in 1/65,536 tick, or none until the next parameter commit; the stages it names; and
whether its commit point has passed (R191 to R194). -/
structure DdcSwap where
  at_  : Option Nat
  mask : Nat
  done : Bool
  deriving DecidableEq, Repr

/-- A down-converter: samples mixed since the origin, the phase accumulator, the stages, a pending swap, and, oldest first, the boundaries
of parameter commits (1/65,536 tick) with the words DDC_STAGE that outputs aligned before them still use (R196). -/
structure Ddc where
  n    : Nat
  acc  : Nat
  stg  : List DdcStg
  swap : Option DdcSwap
  olds : List (Nat × List Word)
  deriving DecidableEq, Repr

/-! ### Transform pipelines (chapter 10) -/

/-- A transform pipeline: the count of its anchors, the boundary of the last one, and the frames since it; the instant at which the newest of
these frames begins; the samples received from the first of the frame that is next; the control values by the instant from which frames use
them, oldest first (R228); the two table banks, and the instant from which frames use the ACTIVE one (R216); the words of a load under way; and
a pending swap (its instant, or none until the next parameter commit). -/
structure Xfm where
  era   : Nat
  org   : Nat
  f     : Nat
  last  : Option Nat
  bankAt : Nat
  buf   : List Smp
  ctrls : List (Nat × Word)
  bankA : List Int
  bankB : List Int
  load  : Option Nat
  swap  : Option (Option Nat)
  deriving DecidableEq, Repr

/-! ### Detectors and density (chapter 11) -/

/-- A power in the accumulator format of R234: m × 2^e with m below 2^40. -/
structure Pw where
  m : Nat
  e : Int
  deriving DecidableEq, Repr

/-- What a detector unit accumulates over one state of an interval (R237): the frames in it, the instant of the first frame's
first sample, of the last frame's last sample, the number of the newest frame, the values
per output bin, and the sums of logarithms in LOGAVG (2^-24). -/
structure DetAcc where
  n    : Nat
  t    : Nat
  tend : Nat
  f    : Nat
  pw   : List Pw
  lg   : List Int
  deriving DecidableEq, Repr

/-- The interval of a detector unit or a density accumulator (R239 to R242): whether one runs, its index, the instant it
began at, the frame number that COUNT intervals count from, the losses and the flags of the frames it has seen, the CTRL, INT
and ALIGN values by the instant from which they hold, whether the last readout is under way, the anchor, and
the number of traces sent since it. -/
structure Intv where
  on    : Bool
  idx   : Int
  start : Nat
  base  : Nat
  lost  : Nat
  fl    : Nat
  cfgs  : List (Nat × Word × Word × Word)
  busy  : Bool
  era   : Nat
  sent  : Nat
  deriving DecidableEq, Repr

/-- A detector unit: its interval, the accumulations of the OFF and ON states, and the correction F per delivered bin as a
fraction (R235). -/
structure Det where
  iv   : Intv
  off  : DetAcc
  on   : DetAcc
  flat : List (Int × Nat)
  deriving DecidableEq, Repr

/-- A density accumulator: its interval; the cells of the bank being filled and of the persistence area; the scores
clamped, frames, last instant and whether a cell saturated; and the correction. -/
structure Den where
  iv    : Intv
  cells : SMap Nat
  pers  : SMap Nat
  high  : Nat
  under : Nat
  n     : Nat
  tend  : Nat
  sat   : Bool
  flat  : List (Int × Nat)
  deriving DecidableEq, Repr

/-! ### Triggers (chapter 12) -/

/-- A source event on the trigger fabric (R257): its placement in 1/65,536 tick, its source (64 + j for qualifier j), its
precision code, LOSS, whether it was judged late, and the DETAIL word of its log entry. -/
structure TrgEv where
  t      : Nat
  src    : Nat
  prec   : Nat
  loss   : Bool
  late   : Bool
  detail : Nat
  deriving DecidableEq, Repr

/-- A decision on its way to an acquisition unit: its placement, FORCED, and the words of its log entry (Table 12-6). -/
structure Dec where
  t      : Nat
  forced : Bool
  words  : List Nat
  deriving DecidableEq, Repr

/-- A qualifier (R267 to R273): the messages that have not reached it, the events it holds, what its function keeps of
judged events (ALL: events of SET_A; SEQ: the latest A; SEQ_NOT: each A that waits for its window) and the B
placements SEQ_NOT has seen, the progress of the count, the last decision's placement, the moment from which the AUTO
timer or FREE_RUN counts, the FREE_RUN decisions made, a loss to declare, and the boundaries of parameter
commits, latest first, each with the values that hold before it. -/
structure Tq where
  inbox : List TrgEv
  held  : List TrgEv
  memo  : List TrgEv
  bs    : List Nat
  count : Nat
  prev  : Option Nat
  base  : Nat
  k     : Nat
  loss  : Bool
  old   : List (Nat × List Word)
  deriving DecidableEq, Repr

/-- A level trigger (R262 to R264): the samples that wait for it, the sample before (its instant, and its value unless it was lost), its two armings, the crossings whose
MIN_WIDTH runs (the event and the samples still to pass), a loss to declare, and the DCLK of its last event. -/
structure Lt where
  queue : List Smp
  prev  : Option (Nat × Option Int)
  armR  : Bool
  armF  : Bool
  pendR : Option (TrgEv × Nat)
  pendF : Option (TrgEv × Nat)
  loss  : Bool
  last  : Option Nat
  deriving DecidableEq, Repr

/-- A mask unit: whether the previous frame qualified, its anchor, and a loss to declare (R266). -/
structure Fm where
  was  : Bool
  era  : Nat
  loss : Bool
  deriving DecidableEq, Repr

/-- A trigger-bus line (R260, R261): whether it is low and has given its event, whether another instrument pulls it,
and the device's drive pulses that have not ended, each from its first tick to the tick after its last. -/
structure Bus where
  low : Bool
  ext : Bool
  drv : List (Nat × Nat)
  deriving DecidableEq, Repr

/-! ### Acquisition (chapter 13) -/

/-- A record that an acquisition unit has accepted and not closed (R284): the indices of its trigger sample, as far as the samples so far
tell, and of its first sample, its PRE, POST and HOLDOFF, the MODE of its run, its segment and the run's segments, its placement, the
device time of its acceptance, the words of its log entry, whether it is FORCED, and the values of its RMU lane (CFG, SIG, LEVEL). -/
structure AuRec where
  t0    : Nat
  first : Nat
  pre   : Nat
  post  : Nat
  hold  : Nat
  mode  : Nat
  seg   : Nat
  nseg  : Nat
  place : Nat
  at_   : Nat
  entry : List Nat
  forced : Bool
  rmu   : List Word
  deriving DecidableEq, Repr

/-- A billet of a ring: the block of samples it holds (sample index / samples per billet), its number, and whether an
extent of a record lies in it (R281, R338). -/
structure AuSlot where
  blk    : Nat
  billet : Nat
  linked : Bool
  deriving DecidableEq, Repr

/-- The last record an acquisition unit closed: the instant of its last sample, and its HOLDOFF, MODE and NSEG (R284, R286, R290). -/
structure AuLast where
  t    : Nat
  hold : Nat
  mode : Nat
  nseg : Nat
  deriving DecidableEq, Repr

/-- An acquisition unit: the samples received since its ring was empty; those the ring holds, from index `base` on; the instant of the newest
sample that has left it; the index from which samples count as available, and the one after the last record; the billets of the ring and
those it owns beside it; the record in progress; the last record; the arming, and the arming out of IDLE; the log entries gathered with the device time of
the first and the flags of their record; whether the extent set-aside waits to be refilled; and the counters behind the snapshot block. -/
structure Au where
  n     : Nat
  base  : Nat
  ring  : List Smp
  gone  : Option Nat
  start : Nat
  recEnd : Nat
  slots : List AuSlot
  spare : List Nat
  rec_  : Option AuRec
  last  : Option AuLast
  armAt : Nat
  since : Nat
  log   : List (List Nat)
  logAt : Nat
  logFl : Nat
  refill : Bool
  records : Nat
  missed : Nat
  early : Nat
  stale : Nat
  trunc : Nat
  wrDisc : Nat
  deriving DecidableEq, Repr

/-- A record that a replay store port has sent onto a street: its route, its header, the fields of it that units use, its items in
the unit of its first producer, and its payload (R341). -/
structure RRec where
  route : Nat
  hdr   : List Byte
  typ   : Nat
  time  : Nat
  fine  : Nat
  flags : Nat
  ctx   : Nat
  items : Nat
  bytes : List Byte
  deriving DecidableEq, Repr

/-! ### Turf cores (chapter 14) -/

/-- The state of a core (R316). -/
inductive CoreSt where
  | halted | running | stalled | idle
  deriving DecidableEq, Repr

/-- Where a late write of a core goes: a d register, a DM word, or a control register (Table 14-6). -/
inductive LateTo where
  | d (i : Nat)
  | dm (w : Nat)
  | cr (i : Nat)
  deriving DecidableEq, Repr

/-- A value that later instructions do not see yet: how many issues ahead it is seen, where it goes, the value, and which of its
bits no younger instruction has written since. -/
structure Late where
  n    : Nat
  dst   : LateTo
  v    : Nat
  mask : Nat
  deriving DecidableEq, Repr

/-- A record queued by SEND: the pointer, base and length registers, the outbound route, and the record's bytes (R330). -/
structure TSend where
  p   : Nat
  b   : Nat
  l   : Nat
  r   : Nat
  len : Nat
  deriving DecidableEq, Repr

/-- What a STALLED core waits for (R316): a record for GETR pP, a queue entry for SEND, an empty queue, or an
acknowledged mailbox. -/
inductive CWait where
  | getr (p : Nat)
  | send (q : TSend)
  | swait
  | mbpost
  deriving DecidableEq, Repr

/-- A branch under way: the delay slots still to execute, the target (none for a branch not taken), and whether IE returns with
it (R322, R327). -/
structure Br where
  n  : Nat
  dst : Option Nat
  ie : Bool
  deriving DecidableEq, Repr

/-- A record in the input ring: its first word, its words, and whether GETR has returned it (R309, R311). -/
structure TRec where
  at_ : Nat
  n   : Nat
  ret : Bool
  deriving DecidableEq, Repr

/-- A Turf core (Table 14-1): its state; PM and DM; d registers; control registers by the index of Table 14-4; the
accumulators, and as the readers of Table 14-6 that lag see them, with V likewise; sr's shadow; late writes;
pc; a branch, a repeat and the instruction after a repeat under way; the call stack and the loop stack (start, end, and the
count of the enclosing loop), newest first; what a stall waits for; the input ring with the word after its newest
record, the loss to show at GETR and at the next record sent; the send queue; the cycles of the run; and the
cycles the timer has counted. -/
structure Core where
  st    : CoreSt
  pm    : SMap Nat
  dm    : SMap Nat
  d     : SMap Nat
  cr    : SMap Nat
  acc   : SMap Int
  accL  : SMap Int
  vL    : Bool
  shadow : Nat
  late  : List Late
  pc    : Nat
  br    : Option Br
  rpt   : Option Nat
  after : Bool
  calls : List Nat
  loops : List (Nat × Nat × Nat)
  wait  : Option CWait
  ring  : List TRec
  wptr  : Nat
  loss  : Bool
  gap   : Bool
  sendQ : List TSend
  cycles : Nat
  timer : Nat
  deriving DecidableEq, Repr

/-- A Turf cluster: per input slot the core after the one chosen last, and the core after the one read out last (R308, R312). -/
structure Cluster where
  rr  : SMap Nat
  out : Nat
  deriving DecidableEq, Repr

/-! ### DMA engine (chapter 20) -/

/-- What a channel does next: nothing; fetch a descriptor (its address, whether in the store, whether the first since START); begin the
operation it has read; go on with a copy; or commit a descriptor whose data has moved (status, failing beat,
DETAIL). -/
inductive DmaPhase where
  | none
  | fetch (addr : Nat) (store first : Bool)
  | ready
  | moving
  | moved (status beat detail : Nat)
  deriving DecidableEq, Repr

/-- A DMA channel: its phase; the descriptor's address and words; its buffers; the bytes and records moved; where the stream
position stands that its records end at, with the freed records that stood before the first of them; and the billets it holds a reference on. -/
structure Dma where
  phase : DmaPhase
  addr  : Nat
  words : List Word
  segs  : List (Nat × Nat)
  bytes : Nat
  recs  : Nat
  upTo_ : Nat
  gap   : List Nat
  refs  : List Nat
  deriving DecidableEq, Repr

/-! ### Codec units (chapter 18) -/

/-- What a coded stream is coded with: FMT, LOSSLESS, M, PRED, DYNAMIC, TABLE, whether DROP4 may be used, and the 32 code lengths
of the static table. -/
structure Codec where
  fmt   : Nat
  less  : Bool
  m     : Nat
  pred  : Nat
  dyn   : Bool
  table : Nat
  cnv   : Bool
  lens  : List Nat
  deriving DecidableEq, Repr

/-- The TIME_CODED record a stream job builds: its settings, the instant of its first sample, its samples, its flags, its
blocks, and their bytes. -/
structure CmpRec where
  cfg   : Codec
  t     : Nat
  n     : Nat
  fl    : Nat
  k     : Nat
  bytes : List Byte
  deriving DecidableEq, Repr

/-- A buffer job: its settings (of the preamble, when decoding), source and destination, the preamble that still has to be
written, and the samples and bytes still to decode. -/
structure CmpJob where
  cfg   : Codec
  dec   : Bool
  src   : Nat
  srcLen : Nat
  dst   : Nat
  dstLen : Nat
  pre   : List Byte
  left  : Nat
  deriving DecidableEq, Repr

/-- A codec unit: the samples that wait to be coded, the record under construction, and the buffer job. -/
structure Cmp where
  queue : List Smp
  rec_  : Option CmpRec
  job   : Option CmpJob
  deriving DecidableEq, Repr

/-! ### Network ports and the Avenue (chapter 21) -/

/-- A sub-port: since when and until when a pause stops it, what it will send after the pause, when it lost LINK, and when it last sent
a NAK for an unattributed packet. -/
structure NetSub where
  pause : Option (Nat × Nat)
  queue : List Out
  down  : Nat
  nak   : Option Nat
  deriving DecidableEq, Repr

/-- A record on an outbound avenue that is begun and not fully acknowledged: its first offset, its place in the cord, its length,
the flags of its copy, and its DELIVER_BY. -/
structure AveRec where
  ofs : Nat
  pos : Nat
  len : Nat
  fl  : Nat
  by_ : Nat
  deriving DecidableEq, Repr

/-- A range sent and not acknowledged: its offsets, its last sending, its sendings, the ACKs that reported it missing, whether a
SACK block covers it, and whether it waits to be sent again (R369, R471). -/
structure AveRange where
  lo  : Nat
  hi  : Nat
  at_ : Nat
  tries : Nat
  reports : Nat
  sacked : Bool
  again : Bool
  deriving DecidableEq, Repr

/-- A trigger message sent and not acknowledged. -/
structure AveTrig where
  seq  : Nat
  slot : Nat
  t    : Nat
  at_  : Nat
  tries : Nat
  deriving DecidableEq, Repr

/-- An avenue beside its registers (R468 to R481): its nonce and the partner's; the state a quarantine returns to and when it began;
the last sending of OPEN or CLOSE and how many; when the partner was last heard; what it has sent; the next offset, the acknowledged
one and the limit, of either direction; packets held ahead of the next offset; the partial record; since when
bytes wait to be acknowledged, and the last ACK; the violations of the last second; the last NAK; the trigger
messages sent, the next TSEQ, and those accepted. -/
structure Ave where
  own   : Nat
  peer  : Nat
  prev  : Nat
  quar  : Nat
  at_   : Nat
  tries : Nat
  heard : Nat
  recs  : List AveRec
  ranges : List AveRange
  next  : Nat
  acked : Nat
  limit : Nat
  ahead : List (Nat × List Byte)
  part  : List Byte
  ackAt : Option Nat
  idle  : Nat
  viols : List Nat
  nak   : Option Nat
  trigs : List AveTrig
  tseq  : Nat
  seen  : List Nat
  deriving DecidableEq, Repr

/-- A trigger slot: the placements that wait, and a loss to declare (R479). -/
structure TrigSlot where
  times : List Nat
  loss  : Bool
  deriving DecidableEq, Repr

/-! ### Display outputs (chapter 22) -/

/-- A frame of a layer in the cord of its context: where its first record begins and its last ends in the stream, and the pieces of
the stream that make it up. -/
structure DisFrame where
  ctx  : Nat
  lo   : Nat
  hi   : Nat
  segs : List (Nat × Nat)
  deriving DecidableEq, Repr

/-- A layer: the overlay frame under construction (its TIME, whether it is complete already), the complete frames not shown
yet, oldest first, the frame shown, and one swapped away from whose hold lasts until the next frame start (R492, R494). -/
structure DisLayer where
  asm   : Option (Nat × Bool × DisFrame)
  ready : List DisFrame
  shown : Option DisFrame
  old   : Option DisFrame
  deriving DecidableEq, Repr

/-- An output: what its sink allows (lanes and rate as DIS_LINK codes them), whether it is in the gap of a mode change (0 no, 1 until
the pixel clock is stable, 2 until the black frame, 3 in it), and the link chosen for the new timing (R486, R489). -/
structure Dis where
  sink : Option (Nat × Nat)
  gap  : Nat
  link : Option (Nat × Nat)
  deriving DecidableEq, Repr

/-! ### Package pins and test access (chapter 25) -/

/-- Pins and test access: whether PORST#, PERST# or a rail below 90 % holds the device in reset; the straps sampled last; the SMBus
pointer, whether its last write was discarded and whether its last command had a wrong PEC; the sensors at or above CRIT in the last update;
the JTAG instruction, the boundary register, and whether JTAG has taken the balls from the device. -/
structure Pkg where
  porst   : Bool
  perst   : Bool
  rail    : Bool
  bootsel : Nat
  smbAddr : Nat
  ptr     : Nat
  smbDisc : Bool
  smbPec  : Bool
  crit    : List Nat
  ir      : Nat
  cells   : List Bool
  taken   : Bool
  deriving DecidableEq, Repr

/-! ### Memory controller (chapter 17) -/

/-- The memory controller: failures of each channel's retraining in succession; the channels that failed and were trained again since
the store was initialised, whose lines read as poisoned until they are rewritten (R537); the line the scrubber reads next; the last
uncorrectable error (R390, R392, R393); the open row of each bank (by 8 × channel + bank, R384); and per channel how many granules in a row
went ahead of the head (R382), whether a write drain is under way (R383), and the refresh interval in force in ns, 0 before the first
refresh (R385). -/
structure Mem where
  fails : SMap Nat
  lost  : List Nat
  scrub : Nat
  ue    : Word × Word × Word
  open_ : SMap (Option Nat)
  hits  : SMap Nat
  drain : SMap Bool
  refi  : SMap Nat
  deriving DecidableEq, Repr

/-! ### Converter cores (chapter 4) -/

/-- Where a background-calibration step stands (R82). -/
inductive BgPhase where
  | off | settle | shadow | window | interval
  deriving DecidableEq, Repr

/-- A converter core beside its registers: G_eff in force (R69); the step of the
background calibration, whether a raw clip fell into its window or into the phases of a
calibration run (Table 7-2), whether its handover was rejected so that the
position is tried again, the rejections in succession of each slice (R86), the slice to be taken out by the next
handover, the steps completed in this rotation, whether the corrections are frozen (NO_SPARE), and the instant (1/65,536 tick)
at which the latch of the input's monitor cleared last (R103). -/
structure Cnv where
  geff    : Nat
  phase   : BgPhase
  clipWin : Bool
  clipCal : Bool
  retry   : Bool
  rejects : SMap Nat
  remove  : Option Nat
  steps   : Nat
  frozen  : Bool
  clrAt   : Option Int
  deriving DecidableEq, Repr

/-! ### Pulse generators (chapter 5) -/

/-- A pulse generator beside its registers: whether a first commit has taken place (R111), the index of the period it is
in, whether the active part of that period is under way, whether the output waits for a period boundary
(R106, R109), whether it has been held since, and the time of its last scheduled edge (R110). -/
structure Pg where
  ever  : Bool
  k     : Nat
  hi    : Bool
  mute  : Bool
  held  : Bool
  last  : Option Int
  deriving DecidableEq, Repr

/-! ### Calibration (chapter 7) -/

/-- A calibration run and the store beside their registers: the run's input, type, PERSIST and origin; the software's
attenuator step, ATTCAL values and background-calibration enables, kept to be restored (R139); the level at
CHECK; the measurements; the inputs whose RETRY_MIN runs, each with the time of its abort (R146); until when the samples of each input
are invalid (R140); and the copy that a store write will program, the image captured for it, and the cores whose slices are
still to be captured at the end of their step (R148). -/
structure Cal where
  input   : Nat
  typ     : Nat
  persist : Bool
  auto    : Bool
  step    : Nat
  attcal  : List Word
  en      : List Nat
  check   : Int
  offNum  : Int
  offDen  : Nat
  a0      : Nat
  as_     : List Nat
  retry   : SMap (Option Nat)
  badTo   : SMap Nat
  target  : Nat
  image   : List Byte
  await   : List Nat
  deriving DecidableEq, Repr

end Sys2Proof.Machine
end

