-- ==== Sys2Proof/Machine/Trig.lean ====
section
/-! DEFINITION. Functions of real numbers that the spec rounds to integers: cosine and sine, powers and logarithms. Where
an exact comparison of integers decides the rounding it is used; elsewhere fixed-point values with 96 or more
fraction bits are, far finer than any rounding step of the spec (assumption 9). -/

namespace Sys2Proof.Machine

/-- The fraction bits of the fixed-point values of this file. -/
abbrev fxBits : Nat := 96

/-- round(2 pi x 2^96). -/
abbrev fxTwoPi : Int := 497805226624462170461043889244

/-- The terms of a Taylor series from term `t`: each next term is -t x² / (k (k+1)), with x² in fixed point. -/
def taylor : Nat → Int → Int → Nat → Int
  | 0, _, _, _ => 0
  | n + 1, t, x2, k => t + taylor n (-(t * x2 / 2 ^ fxBits / (k * (k + 1)))) x2 (k + 2)

/-- cos x in fixed point, for x from 0 to pi/4. -/
def fxCos0 (x : Int) : Int := taylor 14 (2 ^ fxBits) (x * x / 2 ^ fxBits) 1

/-- sin x in fixed point, for x from 0 to pi/4. -/
def fxSin0 (x : Int) : Int := taylor 14 x (x * x / 2 ^ fxBits) 2

/-- cos(2 pi r / n) in fixed point, for r from 0 to n/4. -/
def fxCos1 (r n : Nat) : Int :=
  if 8 * r ≤ n then fxCos0 (fxTwoPi * r / n) else fxSin0 (fxTwoPi * (n - 4 * r) / (4 * n))

/-- cos(2 pi a / n) in fixed point. -/
def fxCos (a n : Nat) : Int :=
  let r := a % n
  if 4 * r ≤ n then fxCos1 r n
  else if 2 * r ≤ n then -(fxCos1 (n - 2 * r) (2 * n))
  else if 4 * r ≤ 3 * n then -(fxCos1 (2 * r - n) (2 * n))
  else fxCos1 (n - r) n

/-- sin(2 pi a / n) in fixed point. -/
def fxSin (a n : Nat) : Int := fxCos (4 * a + 3 * n) (4 * n)

/-- A fixed-point value times `k`, rounded to the nearest integer, a half away from zero. -/
def fxRound (k v : Int) : Int :=
  let p := k * v
  if 0 ≤ p then (p + 2 ^ (fxBits - 1)) / 2 ^ fxBits else -((-p + 2 ^ (fxBits - 1)) / 2 ^ fxBits)

/-- A logarithm by repeated squaring: the next `n` binary digits of log2 of `x`, which lies in [1, 2) in
fixed point. -/
def log2Digits : Nat → Nat → Nat
  | 0, _ => 0
  | n + 1, x =>
    let y := x * x / 2 ^ fxBits
    if 2 ^ (fxBits + 1) ≤ y then 2 ^ n + log2Digits n (y / 2) else log2Digits n y

/-- floor(2^d x log2(a / b)) for a, b above 0, up to the truncation of the squarings. -/
def fxLog2 (d a b : Nat) : Int :=
  let k : Int := (a.log2 : Int) - b.log2
  let x := if 0 ≤ k then a * 2 ^ fxBits / (b * 2 ^ k.toNat) else a * 2 ^ (-k).toNat * 2 ^ fxBits / b
  if 2 ^ fxBits ≤ x then k * 2 ^ d + log2Digits d x else (k - 1) * 2 ^ d + log2Digits d (2 * x)

/-- The series of e^x from term `t`, in fixed point. -/
def expTerms : Nat → Nat → Nat → Nat → Nat
  | 0, _, _, _ => 0
  | n + 1, t, x, k => t + expTerms n (t * x / 2 ^ fxBits / k) x (k + 1)

/-- round(ln 2 x 2^96). -/
abbrev fxLn2 : Nat := 54916777467707473351141471128

/-- 2^(a / b) as a mantissa of 97 bits and an exponent: the value is m x 2^(e - 96). -/
def fxExp2 (a : Int) (b : Nat) : Nat × Int :=
  let k := a / (b : Int)
  let r := (a % (b : Int)).toNat
  (expTerms 40 (2 ^ fxBits) (r * fxLn2 / b) 1, k)

/-- round(log2 10 x 2^96). -/
abbrev fxLog2Ten : Nat := 263190258962436467100402834429

/-- 10^(a / b) as a mantissa of 97 bits and an exponent: the value is m x 2^(e - 96). -/
def fxExp10 (a : Int) (b : Nat) : Nat × Int := fxExp2 (a * fxLog2Ten) (b * 2 ^ fxBits)

/-- The largest `m` below `lo + 2^n` with `ok m`, for a predicate that holds from `lo` up to a point, by bisection. -/
def bisectInt (ok : Int → Bool) : Nat → Int → Int
  | 0, lo => lo
  | n + 1, lo => if ok (lo + 2 ^ n) then bisectInt ok n (lo + 2 ^ n) else bisectInt ok n lo

/-- Is 10^e ≤ (a / b)^k? -/
def tenLe (e : Int) (a b k : Nat) : Bool :=
  if 0 ≤ e then 10 ^ e.toNat * b ^ k ≤ a ^ k else b ^ k ≤ a ^ k * 10 ^ (-e).toNat

/-- floor(2,560 x log10(a / b)), for a, b above 0 (R248). -/
def levelFloor (a b : Nat) : Int := bisectInt (fun e => tenLe e a b 2560) 18 (-131072)

/-- round(2,560 x log10(a / b)), for a, b above 0 (R238). -/
def levelRound (a b : Nat) : Int := bisectInt (fun e => tenLe (2 * e - 1) a b 5120) 18 (-131072)

end Sys2Proof.Machine
end

