-- ==== Sys2Proof/Machine/Pow.lean ====
section
/-! DEFINITION. The arithmetic of powers: the accumulator format of R234, binary32 (R238), and the logarithms of
LOGAVG and SPEC_DB. -/

namespace Sys2Proof.Machine

/-- a / b rounded to an integer, a half to the even neighbour; `more` says that something above the quotient was cut off. -/
def divEven (a b : Nat) (more : Bool) : Nat :=
  let q := a / b
  let r := a % b
  if 2 * r < b then q else if b < 2 * r then q + 1 else if more then q + 1 else if q % 2 = 0 then q else q + 1

/-- (a / b) × 2^e rounded once to the accumulator format: 40 bits, half to even. -/
def pwRound (a b : Nat) (e : Int) : Pw :=
  if a = 0 then ⟨0, 0⟩
  else
    let s : Int := 41 - ((a.log2 : Int) - b.log2)
    let (x, y) := if 0 ≤ s then (a * 2 ^ s.toNat, b) else (a, b * 2 ^ (-s).toNat)
    let q := x / y
    let nb := q.log2 + 1 - 40
    let m := divEven q (2 ^ nb) (x % y != 0)
    if m = 2 ^ 40 then ⟨2 ^ 39, e - s + nb + 1⟩ else ⟨m, e - s + nb⟩

/-- A power as a fraction. -/
def Pw.frac (p : Pw) : Nat × Nat := if 0 ≤ p.e then (p.m * 2 ^ p.e.toNat, 1) else (p.m, 2 ^ (-p.e).toNat)

/-- Is one power below another? -/
def Pw.lt (p q : Pw) : Bool :=
  let (a, b) := p.frac
  let (c, d) := q.frac
  a * d < c * b

/-- The sum of two powers, rounded to the accumulator format. -/
def Pw.add (p q : Pw) : Pw :=
  if p.m = 0 then q
  else if q.m = 0 then p
  else
    let e := min p.e q.e
    pwRound (p.m * 2 ^ (p.e - e).toNat + q.m * 2 ^ (q.e - e).toNat) 1 e

/-- The larger and the smaller of two powers. -/
def Pw.max (p q : Pw) : Pw := if p.lt q then q else p
def Pw.min (p q : Pw) : Pw := if p.lt q then p else q

/-- The binary32 word of (a / b), rounded to the nearest, half to even. -/
def toBin32 (a b : Nat) : Nat :=
  if a = 0 then 0
  else
    let k0 : Int := (a.log2 : Int) - b.log2
    let below := if 0 ≤ k0 then a < b * 2 ^ k0.toNat else a * 2 ^ (-k0).toNat < b
    let k := if below then k0 - 1 else k0
    let qe := Max.max (k - 23) (-149)
    let (x, y) := if 0 ≤ qe then (a, b * 2 ^ qe.toNat) else (a * 2 ^ (-qe).toNat, b)
    let n := divEven x y false
    let w := if -126 ≤ k then ((k + 127) * 2 ^ 23).toNat + n - 2 ^ 23 else n
    Min.min w 0x7F800000

/-- The integer square root of a number, by its bits. -/
def rootBits (v : Nat) : Nat → Nat → Nat
  | 0, r => r
  | n + 1, r => if (r + 2 ^ n) ^ 2 ≤ v then rootBits v n (r + 2 ^ n) else rootBits v n r

/-- floor(sqrt v). -/
def rootFloor (v : Nat) : Nat := rootBits v (v.log2 / 2 + 1) 0

/-- The binary32 word of sqrt(a / b), rounded once to the nearest, half to even. -/
def rootBin32 (a b : Nat) : Nat :=
  if a = 0 then 0
  else
    let k0 : Int := (a.log2 : Int) - b.log2
    let below := if 0 ≤ k0 then a < b * 2 ^ k0.toNat else a * 2 ^ (-k0).toNat < b
    let k := (if below then k0 - 1 else k0) / 2
    let qe := Max.max (k - 23) (-149)
    let (x, y) := if 0 ≤ qe then (4 * a, b * 4 ^ qe.toNat) else (4 * a * 4 ^ (-qe).toNat, b)
    let t := rootFloor (x / y)
    let exact := t * t * y == x
    let n := if t % 2 = 0 then t / 2 else if exact && t / 2 % 2 = 0 then t / 2 else t / 2 + 1
    let w := if -126 ≤ k then ((k + 127) * 2 ^ 23).toNat + n - 2 ^ 23 else n
    Min.min w 0x7F800000

/-- The value of a binary32 word that is not negative, as a fraction; an infinity counts as 2^128. -/
def bin32Frac (w : Nat) : Nat × Nat :=
  let x : Nat := w / 2 ^ 23 % 256
  let m : Nat := w % 2 ^ 23
  if x = 0 then (m, 2 ^ 149)
  else
    let e : Int := (x : Int) - 150
    if 0 ≤ e then ((m + 2 ^ 23) * 2 ^ e.toNat, 1) else (m + 2 ^ 23, 2 ^ (-e).toNat)

/-- log2 of max(p, 2^-100) in 2^-24; a fraction is cut up or down by a free choice (R237). -/
def Pw.log2Fix (p : Pw) (up : Bool) : Int :=
  if p.lt ⟨1, -100⟩ then -100 * 2 ^ 24
  else
    let v := fxLog2 24 p.m 1 + p.e * 2 ^ 24
    if p.m = 2 ^ p.m.log2 then v else v + b2n up

/-- g = 10^(-F / 2,560) for F = n / d (R235), as a mantissa and an exponent. -/
def flatGain (f : Int × Nat) : Nat × Int :=
  if f.1 = 0 then (1, 0) else
    let (m, e) := fxExp10 (-f.1) (2560 * f.2)
    (m, e - fxBits)

end Sys2Proof.Machine
end

