-- ==== Sys2Proof/Machine/Crc.lean ====
section
/-! DEFINITION. CRC-32C, as the calibration store, the plan images, the window tables and the containers use it (R147,
R160). -/

namespace Sys2Proof.Machine

/-- Eight steps of the reflected CRC-32C register (polynomial 0x82F6_3B78). -/
def crcBits : Nat → BitVec 32 → BitVec 32
  | 0, c => c
  | n + 1, c => crcBits n (if c.getLsbD 0 then (c >>> 1) ^^^ 0x82F63B78#32 else c >>> 1)

/-- The CRC register after the bytes of a list. -/
def crcRun : BitVec 32 → List Byte → BitVec 32
  | c, [] => c
  | c, b :: bs => crcRun (crcBits 8 (c ^^^ b.zeroExtend 32)) bs

/-- CRC-32C of a list of bytes. -/
def crc32c (bs : List Byte) : Nat := (~~~(crcRun 0xFFFFFFFF#32 bs)).toNat

/-- Does a 96-byte signature verify: ECDSA P-384 over the SHA-384 of `msg`, as r and then s, each a 48-byte little-endian integer (R160)? -/
def signedBy (key : Nat) (msg sig : List Byte) : Bool :=
  Config.ecdsaOk key (Config.sha384 msg) (leNat (sig.take 48)) (leNat ((sig.drop 48).take 48))

end Sys2Proof.Machine
end

