-- ==== Sys2Proof/Machine/Regs.lean ====
section
/-! DEFINITION. The register map of BAR0: for every register of the spec its address, its fields, its
access codes (Table 0-1) and its reset value, taken row by row from the register tables of the chapters.
The rule named before each group is the one that holds the register's table. -/

namespace Sys2Proof.Machine


/-- GLB_ID, R23 (`01_architecture.md`). -/
abbrev rGLB_ID : Nat := 0x0
abbrev fGLB_ID_FAMILY : Fld := ⟨24, 8⟩
abbrev fGLB_ID_STEPPING : Fld := ⟨16, 8⟩
abbrev fGLB_ID_PART : Fld := ⟨0, 16⟩
/-- GLB_CAPS, R23 (`01_architecture.md`). -/
abbrev rGLB_CAPS : Nat := 0x8
abbrev fGLB_CAPS_DISPLAYS : Fld := ⟨60, 2⟩
abbrev fGLB_CAPS_PORTS : Fld := ⟨56, 4⟩
abbrev fGLB_CAPS_DMA_CH : Fld := ⟨48, 8⟩
abbrev fGLB_CAPS_CONTEXTS : Fld := ⟨32, 16⟩
abbrev fGLB_CAPS_TURF : Fld := ⟨24, 8⟩
abbrev fGLB_CAPS_SQUARES : Fld := ⟨16, 8⟩
abbrev fGLB_CAPS_NB : Fld := ⟨8, 5⟩
abbrev fGLB_CAPS_TP : Fld := ⟨4, 4⟩
abbrev fGLB_CAPS_CNV : Fld := ⟨0, 4⟩
/-- GLB_DEVID, R23 (`01_architecture.md`). -/
abbrev rGLB_DEVID : Nat := 0x10
abbrev fGLB_DEVID_LOCK : Fld := ⟨63, 1⟩
abbrev fGLB_DEVID_DEVID : Fld := ⟨0, 16⟩
/-- GLB_STATUS, R24 (`01_architecture.md`). -/
abbrev rGLB_STATUS : Nat := 0x18
abbrev fGLB_STATUS_BOOT_MS : Fld := ⟨16, 16⟩
abbrev fGLB_STATUS_HALT_CAUSE : Fld := ⟨10, 3⟩
abbrev fGLB_STATUS_CXL_MODE : Fld := ⟨9, 1⟩
abbrev fGLB_STATUS_STORE_READY : Fld := ⟨8, 1⟩
abbrev fGLB_STATUS_PLAN_ACTIVE : Fld := ⟨7, 1⟩
abbrev fGLB_STATUS_SECURE : Fld := ⟨6, 1⟩
abbrev fGLB_STATUS_HOLDOVER : Fld := ⟨5, 1⟩
abbrev fGLB_STATUS_LPLL_LOCK : Fld := ⟨4, 1⟩
abbrev fGLB_STATUS_MPLL_LOCK : Fld := ⟨3, 1⟩
abbrev fGLB_STATUS_STATE : Fld := ⟨0, 3⟩
/-- GLB_CTRL, R24 (`01_architecture.md`). -/
abbrev rGLB_CTRL : Nat := 0x20
abbrev fGLB_CTRL_DP_RESTART : Fld := ⟨0, 1⟩
/-- GLB_SCRATCH, R24 (`01_architecture.md`). -/
abbrev rGLB_SCRATCH : Nat := 0x28
abbrev fGLB_SCRATCH_VALUE : Fld := ⟨0, 64⟩
/-- CLK_REF, R64 (`03_clock_synthesis.md`). -/
abbrev rCLK_REF : Nat := 0x20000
abbrev fCLK_REF_LOCK : Fld := ⟨63, 1⟩
abbrev fCLK_REF_LOSS_EDGES : Fld := ⟨8, 8⟩
abbrev fCLK_REF_DETECT_ERR : Fld := ⟨2, 1⟩
abbrev fCLK_REF_FREQ : Fld := ⟨0, 2⟩
/-- CLK_MPLL, R64 (`03_clock_synthesis.md`). -/
abbrev rCLK_MPLL : Nat := 0x20008
abbrev fCLK_MPLL_FRAC : Fld := ⟨32, 32⟩
abbrev fCLK_MPLL_N : Fld := ⟨16, 12⟩
abbrev fCLK_MPLL_BW : Fld := ⟨8, 2⟩
/-- CLK_CMD, R64 (`03_clock_synthesis.md`). -/
abbrev rCLK_CMD : Nat := 0x20010
abbrev fCLK_CMD_RESULT : Fld := ⟨8, 3⟩
abbrev fCLK_CMD_RETUNE : Fld := ⟨0, 1⟩
/-- CLK_LOCK, R64 (`03_clock_synthesis.md`). -/
abbrev rCLK_LOCK : Nat := 0x20018
abbrev fCLK_LOCK_TIMEOUT : Fld := ⟨48, 8⟩
abbrev fCLK_LOCK_SETTLE : Fld := ⟨32, 16⟩
abbrev fCLK_LOCK_CNT : Fld := ⟨16, 16⟩
abbrev fCLK_LOCK_WIN : Fld := ⟨0, 16⟩
/-- CLK_HOLD, R64 (`03_clock_synthesis.md`). -/
abbrev rCLK_HOLD : Nat := 0x20020
abbrev fCLK_HOLD_SLEW : Fld := ⟨48, 8⟩
abbrev fCLK_HOLD_TEMPCO : Fld := ⟨32, 16⟩
abbrev fCLK_HOLD_DRIFT : Fld := ⟨16, 16⟩
abbrev fCLK_HOLD_BOUND : Fld := ⟨0, 16⟩
/-- CLK_STATUS, R64 (`03_clock_synthesis.md`). -/
abbrev rCLK_STATUS : Nat := 0x20028
abbrev fCLK_STATUS_LOL_COUNT : Fld := ⟨16, 16⟩
abbrev fCLK_STATUS_FALLBACK_RING : Fld := ⟨10, 1⟩
abbrev fCLK_STATUS_CCLK_FALLBACK : Fld := ⟨9, 1⟩
abbrev fCLK_STATUS_HO_GAP : Fld := ⟨8, 1⟩
abbrev fCLK_STATUS_SYNCED : Fld := ⟨7, 1⟩
abbrev fCLK_STATUS_LPLL_HOLD : Fld := ⟨6, 1⟩
abbrev fCLK_STATUS_LPLL_LOCK : Fld := ⟨5, 1⟩
abbrev fCLK_STATUS_REF_OK : Fld := ⟨4, 1⟩
abbrev fCLK_STATUS_MPLL_STATE : Fld := ⟨0, 3⟩
/-- CLK_HO_ERR, R64 (`03_clock_synthesis.md`). -/
abbrev rCLK_HO_ERR : Nat := 0x20030
abbrev fCLK_HO_ERR_ELAPSED : Fld := ⟨32, 32⟩
abbrev fCLK_HO_ERR_PPB : Fld := ⟨0, 32⟩
/-- CLK_PIX, R64 (`03_clock_synthesis.md`). -/
abbrev rCLK_PIX (i : Nat) : Nat := 0x20040 + 0x8 * i
abbrev fCLK_PIX_EN : Fld := ⟨63, 1⟩
abbrev fCLK_PIX_DIV : Fld := ⟨24, 10⟩
abbrev fCLK_PIX_FRAC : Fld := ⟨0, 24⟩
/-- CLK_SYNC, R64 (`03_clock_synthesis.md`). -/
abbrev rCLK_SYNC : Nat := 0x20050
abbrev fCLK_SYNC_SLIP_COUNT : Fld := ⟨32, 16⟩
abbrev fCLK_SYNC_REFUSED : Fld := ⟨2, 1⟩
abbrev fCLK_SYNC_CHECK : Fld := ⟨1, 1⟩
abbrev fCLK_SYNC_ARM : Fld := ⟨0, 1⟩
/-- CLK_OUT, R64 (`03_clock_synthesis.md`). -/
abbrev rCLK_OUT (i : Nat) : Nat := 0x20080 + 0x8 * i
abbrev fCLK_OUT_EN : Fld := ⟨63, 1⟩
abbrev fCLK_OUT_DIV : Fld := ⟨32, 16⟩
abbrev fCLK_OUT_COARSE : Fld := ⟨16, 10⟩
abbrev fCLK_OUT_FINE : Fld := ⟨0, 7⟩
/-- CNV_ATT, R96 (`04_converters.md`). -/
abbrev rCNV_ATT (i : Nat) : Nat := 0x50000 + 0x4000 * i
abbrev fCNV_ATT_GO : Fld := ⟨63, 1⟩
abbrev fCNV_ATT_LATE : Fld := ⟨62, 1⟩
abbrev fCNV_ATT_STEP : Fld := ⟨0, 5⟩
/-- CNV_ATT_TIME, R96 (`04_converters.md`). -/
abbrev rCNV_ATT_TIME (i : Nat) : Nat := 0x50008 + 0x4000 * i
abbrev fCNV_ATT_TIME_TIME : Fld := ⟨0, 64⟩
/-- CNV_CHCORR, R96 (`04_converters.md`). -/
abbrev rCNV_CHCORR (i : Nat) : Nat := 0x50010 + 0x4000 * i
abbrev fCNV_CHCORR_OFFSET : Fld := ⟨16, 16⟩
abbrev fCNV_CHCORR_GAIN : Fld := ⟨0, 16⟩
/-- CNV_BG, R96 (`04_converters.md`). -/
abbrev rCNV_BG (i : Nat) : Nat := 0x50018 + 0x4000 * i
abbrev fCNV_BG_EN : Fld := ⟨63, 1⟩
abbrev fCNV_BG_HO_TOL : Fld := ⟨48, 8⟩
abbrev fCNV_BG_COH_FRAC : Fld := ⟨40, 8⟩
abbrev fCNV_BG_COH_BW : Fld := ⟨32, 8⟩
abbrev fCNV_BG_MIN_LEVEL : Fld := ⟨24, 8⟩
abbrev fCNV_BG_INTERVAL : Fld := ⟨16, 8⟩
abbrev fCNV_BG_WIN : Fld := ⟨8, 5⟩
/-- CNV_BG_STATUS, R96 (`04_converters.md`). -/
abbrev rCNV_BG_STATUS (i : Nat) : Nat := 0x50020 + 0x4000 * i
abbrev fCNV_BG_STATUS_FAILED : Fld := ⟨47, 17⟩
abbrev fCNV_BG_STATUS_ROTATIONS : Fld := ⟨16, 16⟩
abbrev fCNV_BG_STATUS_FREE : Fld := ⟨8, 5⟩
abbrev fCNV_BG_STATUS_POS : Fld := ⟨4, 4⟩
abbrev fCNV_BG_STATUS_REASON : Fld := ⟨1, 3⟩
abbrev fCNV_BG_STATUS_HOLD : Fld := ⟨0, 1⟩
/-- CNV_BG_COUNT, R96 (`04_converters.md`). -/
abbrev rCNV_BG_COUNT (i : Nat) : Nat := 0x50028 + 0x4000 * i
abbrev fCNV_BG_COUNT_HO_REJECT : Fld := ⟨48, 16⟩
abbrev fCNV_BG_COUNT_WIN_RESTART : Fld := ⟨32, 16⟩
abbrev fCNV_BG_COUNT_HOLD_WINDOWS : Fld := ⟨0, 32⟩
/-- CNV_CLIP, R96 (`04_converters.md`). -/
abbrev rCNV_CLIP (i : Nat) : Nat := 0x50030 + 0x4000 * i
abbrev fCNV_CLIP_SAT : Fld := ⟨32, 32⟩
abbrev fCNV_CLIP_RAW : Fld := ⟨0, 32⟩
/-- CNV_SLICE, R96 (`04_converters.md`). -/
abbrev rCNV_SLICE (i j : Nat) : Nat := 0x50100 + 0x4000 * i + 0x8 * j
abbrev fCNV_SLICE_POS : Fld := ⟨48, 5⟩
abbrev fCNV_SLICE_OFFSET : Fld := ⟨32, 16⟩
abbrev fCNV_SLICE_GAIN : Fld := ⟨16, 16⟩
abbrev fCNV_SLICE_SKEW : Fld := ⟨0, 8⟩
/-- CNV_ATTCAL, R96 (`04_converters.md`). -/
abbrev rCNV_ATTCAL (i j : Nat) : Nat := 0x50200 + 0x4000 * i + 0x8 * j
abbrev fCNV_ATTCAL_GAIN : Fld := ⟨0, 16⟩
/-- CNV_MODE, R96 (`04_converters.md`). -/
abbrev rCNV_MODE : Nat := 0x53f00
abbrev fCNV_MODE_PAIR23 : Fld := ⟨1, 1⟩
abbrev fCNV_MODE_PAIR01 : Fld := ⟨0, 1⟩
/-- MON_CFG, R112 (`05_monitors_and_pulse_generators.md`). -/
abbrev rMON_CFG (i : Nat) : Nat := 0x60000 + 0x10 * i
abbrev fMON_CFG_EN : Fld := ⟨63, 1⟩
abbrev fMON_CFG_SPEED : Fld := ⟨61, 2⟩
abbrev fMON_CFG_WINDOW : Fld := ⟨59, 2⟩
abbrev fMON_CFG_CLR_MODE : Fld := ⟨58, 1⟩
abbrev fMON_CFG_SAMPLE_US : Fld := ⟨48, 10⟩
abbrev fMON_CFG_CLEAR_US : Fld := ⟨32, 16⟩
abbrev fMON_CFG_HI : Fld := ⟨16, 11⟩
abbrev fMON_CFG_LO : Fld := ⟨0, 11⟩
/-- MON_STATUS, R112 (`05_monitors_and_pulse_generators.md`). -/
abbrev rMON_STATUS (i : Nat) : Nat := 0x60008 + 0x10 * i
abbrev fMON_STATUS_TRIPS : Fld := ⟨32, 32⟩
abbrev fMON_STATUS_LIVE : Fld := ⟨1, 1⟩
abbrev fMON_STATUS_LATCHED : Fld := ⟨0, 1⟩
/-- PG_CFG, R112 (`05_monitors_and_pulse_generators.md`). -/
abbrev rPG_CFG (i : Nat) : Nat := 0x68000 + 0x40 * i
abbrev fPG_CFG_SW_TRIP : Fld := ⟨63, 1⟩
abbrev fPG_CFG_ARM : Fld := ⟨62, 1⟩
abbrev fPG_CFG_TRIP_MASK : Fld := ⟨48, 12⟩
abbrev fPG_CFG_DET_GUARD : Fld := ⟨32, 8⟩
abbrev fPG_CFG_SAFE : Fld := ⟨4, 1⟩
abbrev fPG_CFG_ACT_HIGH : Fld := ⟨3, 1⟩
abbrev fPG_CFG_MODE : Fld := ⟨0, 3⟩
/-- PG_TIMING, R112 (`05_monitors_and_pulse_generators.md`). -/
abbrev rPG_TIMING (i : Nat) : Nat := 0x68008 + 0x40 * i
abbrev fPG_TIMING_WIDTH : Fld := ⟨32, 32⟩
abbrev fPG_TIMING_PERIOD : Fld := ⟨0, 32⟩
/-- PG_START, R112 (`05_monitors_and_pulse_generators.md`). -/
abbrev rPG_START (i : Nat) : Nat := 0x68010 + 0x40 * i
abbrev fPG_START_START : Fld := ⟨0, 64⟩
/-- PG_STATUS, R112 (`05_monitors_and_pulse_generators.md`). -/
abbrev rPG_STATUS (i : Nat) : Nat := 0x68018 + 0x40 * i
abbrev fPG_STATUS_PULSES : Fld := ⟨32, 32⟩
abbrev fPG_STATUS_LATE : Fld := ⟨3, 1⟩
abbrev fPG_STATUS_LEVEL : Fld := ⟨2, 1⟩
abbrev fPG_STATUS_RUNNING : Fld := ⟨1, 1⟩
abbrev fPG_STATUS_TRIPPED : Fld := ⟨0, 1⟩
/-- TBS_TIME, R135 (`06_timebase_and_time_inputs.md`). -/
abbrev rTBS_TIME : Nat := 0x30000
abbrev fTBS_TIME_TIME : Fld := ⟨0, 64⟩
/-- TBS_ADJ, R135 (`06_timebase_and_time_inputs.md`). -/
abbrev rTBS_ADJ : Nat := 0x30008
abbrev fTBS_ADJ_ADJ : Fld := ⟨0, 32⟩
/-- TBS_SLEW, R135 (`06_timebase_and_time_inputs.md`). -/
abbrev rTBS_SLEW : Nat := 0x30010
abbrev fTBS_SLEW_KEEP : Fld := ⟨63, 1⟩
abbrev fTBS_SLEW_RATE_MAX : Fld := ⟨32, 28⟩
abbrev fTBS_SLEW_OFFSET : Fld := ⟨0, 32⟩
/-- TBS_STEP, R135 (`06_timebase_and_time_inputs.md`). -/
abbrev rTBS_STEP : Nat := 0x30018
abbrev fTBS_STEP_DELTA : Fld := ⟨0, 64⟩
/-- TBS_ORIGIN_S, R135 (`06_timebase_and_time_inputs.md`). -/
abbrev rTBS_ORIGIN_S : Nat := 0x30020
abbrev fTBS_ORIGIN_S_SEC : Fld := ⟨0, 48⟩
/-- TBS_ORIGIN_NS, R135 (`06_timebase_and_time_inputs.md`). -/
abbrev rTBS_ORIGIN_NS : Nat := 0x30028
abbrev fTBS_ORIGIN_NS_NS : Fld := ⟨0, 30⟩
/-- TBS_SERVO, R135 (`06_timebase_and_time_inputs.md`). -/
abbrev rTBS_SERVO : Nat := 0x30030
abbrev fTBS_SERVO_HOST_LOCK : Fld := ⟨63, 1⟩
abbrev fTBS_SERVO_BW : Fld := ⟨58, 2⟩
abbrev fTBS_SERVO_PTP_PORT : Fld := ⟨56, 2⟩
abbrev fTBS_SERVO_HOST_TIMEOUT : Fld := ⟨48, 8⟩
abbrev fTBS_SERVO_MISS : Fld := ⟨40, 8⟩
abbrev fTBS_SERVO_LOCK_CNT : Fld := ⟨32, 8⟩
abbrev fTBS_SERVO_LOCK_NS : Fld := ⟨16, 16⟩
abbrev fTBS_SERVO_PPS_CH : Fld := ⟨8, 4⟩
abbrev fTBS_SERVO_SOURCE : Fld := ⟨0, 3⟩
/-- TBS_STATUS, R135 (`06_timebase_and_time_inputs.md`). -/
abbrev rTBS_STATUS : Nat := 0x30038
abbrev fTBS_STATUS_PHASE_ERR : Fld := ⟨32, 32⟩
abbrev fTBS_STATUS_LOL_COUNT : Fld := ⟨16, 16⟩
abbrev fTBS_STATUS_STEP_REFUSED : Fld := ⟨3, 1⟩
abbrev fTBS_STATUS_STATE : Fld := ⟨0, 3⟩
/-- TBS_TICK, R135 (`06_timebase_and_time_inputs.md`). -/
abbrev rTBS_TICK : Nat := 0x30040
abbrev fTBS_TICK_TICK_FS : Fld := ⟨0, 32⟩
/-- TBS_RETUNE, R135 (`06_timebase_and_time_inputs.md`). -/
abbrev rTBS_RETUNE : Nat := 0x30048
abbrev fTBS_RETUNE_TIME : Fld := ⟨0, 64⟩
/-- TDC_CH, R135 (`06_timebase_and_time_inputs.md`). -/
abbrev rTDC_CH (i : Nat) : Nat := 0x70000 + 0x20 * i
abbrev fTDC_CH_EN : Fld := ⟨63, 1⟩
abbrev fTDC_CH_SLOPE : Fld := ⟨61, 2⟩
abbrev fTDC_CH_HYST : Fld := ⟨56, 5⟩
abbrev fTDC_CH_THRESH : Fld := ⟨32, 16⟩
abbrev fTDC_CH_SKEW : Fld := ⟨16, 10⟩
abbrev fTDC_CH_CTX_VALID : Fld := ⟨12, 1⟩
abbrev fTDC_CH_CONTEXT : Fld := ⟨0, 12⟩
/-- TDC_CH_STAT, R135 (`06_timebase_and_time_inputs.md`). -/
abbrev rTDC_CH_STAT (i : Nat) : Nat := 0x70008 + 0x20 * i
abbrev fTDC_CH_STAT_LOST : Fld := ⟨32, 32⟩
abbrev fTDC_CH_STAT_QDROP : Fld := ⟨0, 32⟩
/-- TDC_CH_COUNT, R135 (`06_timebase_and_time_inputs.md`). -/
abbrev rTDC_CH_COUNT (i : Nat) : Nat := 0x70010 + 0x20 * i
abbrev fTDC_CH_COUNT_STAMPS : Fld := ⟨0, 64⟩
/-- TDC_CTRL, R135 (`06_timebase_and_time_inputs.md`). -/
abbrev rTDC_CTRL : Nat := 0x70300
abbrev fTDC_CTRL_FLUSH_US : Fld := ⟨32, 16⟩
abbrev fTDC_CTRL_MAX_STAMPS : Fld := ⟨0, 11⟩
/-- TDC_FREQ_CFG, R135 (`06_timebase_and_time_inputs.md`). -/
abbrev rTDC_FREQ_CFG : Nat := 0x70400
abbrev fTDC_FREQ_CFG_EN : Fld := ⟨63, 1⟩
abbrev fTDC_FREQ_CFG_REPEAT : Fld := ⟨62, 1⟩
abbrev fTDC_FREQ_CFG_CHANNEL : Fld := ⟨32, 4⟩
abbrev fTDC_FREQ_CFG_GATE : Fld := ⟨0, 32⟩
/-- TDC_FREQ_START, R135 (`06_timebase_and_time_inputs.md`). -/
abbrev rTDC_FREQ_START : Nat := 0x70408
abbrev fTDC_FREQ_START_START : Fld := ⟨0, 64⟩
/-- TDC_FREQ_SNAP, R135 (`06_timebase_and_time_inputs.md`). -/
abbrev rTDC_FREQ_SNAP : Nat := 0x70410
abbrev fTDC_FREQ_SNAP_SEQ : Fld := ⟨32, 32⟩
abbrev fTDC_FREQ_SNAP_SNAP : Fld := ⟨0, 1⟩
/-- TDC_FREQ_RES0, R135 (`06_timebase_and_time_inputs.md`). -/
abbrev rTDC_FREQ_RES0 : Nat := 0x70418
abbrev fTDC_FREQ_RES0_FEW : Fld := ⟨38, 1⟩
abbrev fTDC_FREQ_RES0_LOSS : Fld := ⟨37, 1⟩
abbrev fTDC_FREQ_RES0_VALID : Fld := ⟨36, 1⟩
abbrev fTDC_FREQ_RES0_CHANNEL : Fld := ⟨32, 4⟩
abbrev fTDC_FREQ_RES0_N : Fld := ⟨0, 32⟩
/-- TDC_FREQ_RES1, R135 (`06_timebase_and_time_inputs.md`). -/
abbrev rTDC_FREQ_RES1 : Nat := 0x70420
abbrev fTDC_FREQ_RES1_PERIOD : Fld := ⟨0, 64⟩
/-- TDC_FREQ_RES2, R135 (`06_timebase_and_time_inputs.md`). -/
abbrev rTDC_FREQ_RES2 : Nat := 0x70428
abbrev fTDC_FREQ_RES2_FREQ : Fld := ⟨0, 64⟩
/-- TDC_FREQ_RES3, R135 (`06_timebase_and_time_inputs.md`). -/
abbrev rTDC_FREQ_RES3 : Nat := 0x70430
abbrev fTDC_FREQ_RES3_RESID : Fld := ⟨0, 32⟩
/-- CAL_REF, R152 (`07_calibration.md`). -/
abbrev rCAL_REF : Nat := 0x40000
abbrev fCAL_REF_POINT : Fld := ⟨16, 6⟩
abbrev fCAL_REF_LEVEL : Fld := ⟨0, 16⟩
/-- CAL_RUN, R152 (`07_calibration.md`). -/
abbrev rCAL_RUN : Nat := 0x40008
abbrev fCAL_RUN_GO : Fld := ⟨63, 1⟩
abbrev fCAL_RUN_ABORT : Fld := ⟨62, 1⟩
abbrev fCAL_RUN_STORE : Fld := ⟨61, 1⟩
abbrev fCAL_RUN_PERSIST : Fld := ⟨8, 1⟩
abbrev fCAL_RUN_TYPE : Fld := ⟨4, 2⟩
abbrev fCAL_RUN_INPUT : Fld := ⟨0, 2⟩
/-- CAL_STATUS, R152 (`07_calibration.md`). -/
abbrev rCAL_STATUS : Nat := 0x40010
abbrev fCAL_STATUS_DUE : Fld := ⟨60, 4⟩
abbrev fCAL_STATUS_REASON : Fld := ⟨16, 8⟩
abbrev fCAL_STATUS_PHASE : Fld := ⟨8, 4⟩
abbrev fCAL_STATUS_RESULT : Fld := ⟨4, 2⟩
abbrev fCAL_STATUS_STATE : Fld := ⟨0, 2⟩
/-- CAL_MEAS, R152 (`07_calibration.md`). -/
abbrev rCAL_MEAS : Nat := 0x40018
abbrev fCAL_MEAS_FREQ_ERR : Fld := ⟨32, 32⟩
abbrev fCAL_MEAS_LEVEL : Fld := ⟨0, 16⟩
/-- CAL_POLICY, R152 (`07_calibration.md`). -/
abbrev rCAL_POLICY : Nat := 0x40020
abbrev fCAL_POLICY_AUTO : Fld := ⟨63, 1⟩
abbrev fCAL_POLICY_AUTO_PERSIST : Fld := ⟨62, 1⟩
abbrev fCAL_POLICY_RETRY_MIN : Fld := ⟨40, 8⟩
abbrev fCAL_POLICY_MAX_STEP : Fld := ⟨32, 8⟩
abbrev fCAL_POLICY_MAX_AGE : Fld := ⟨16, 16⟩
abbrev fCAL_POLICY_DELTA_T : Fld := ⟨0, 16⟩
/-- CAL_STORE, R152 (`07_calibration.md`). -/
abbrev rCAL_STORE : Nat := 0x40028
abbrev fCAL_STORE_SEQ : Fld := ⟨32, 32⟩
abbrev fCAL_STORE_F_VALID : Fld := ⟨7, 1⟩
abbrev fCAL_STORE_B_VALID : Fld := ⟨6, 1⟩
abbrev fCAL_STORE_A_VALID : Fld := ⟨5, 1⟩
abbrev fCAL_STORE_RESULT : Fld := ⟨3, 2⟩
abbrev fCAL_STORE_SOURCE : Fld := ⟨0, 2⟩
/-- CAL_HIST_SNAP, R152 (`07_calibration.md`). -/
abbrev rCAL_HIST_SNAP : Nat := 0x40030
abbrev fCAL_HIST_SNAP_SEQ : Fld := ⟨32, 32⟩
abbrev fCAL_HIST_SNAP_SNAP : Fld := ⟨0, 1⟩
/-- CAL_HIST0, R152 (`07_calibration.md`). -/
abbrev rCAL_HIST0 (i : Nat) : Nat := 0x40100 + 0x10 * i
abbrev fCAL_HIST0_LAST_TEMP : Fld := ⟨48, 16⟩
abbrev fCAL_HIST0_COUNT : Fld := ⟨0, 32⟩
/-- CAL_HIST1, R152 (`07_calibration.md`). -/
abbrev rCAL_HIST1 (i : Nat) : Nat := 0x40108 + 0x10 * i
abbrev fCAL_HIST1_LAST_TIME : Fld := ⟨0, 64⟩
/-- CAL_FLAT, R152 (`07_calibration.md`). -/
abbrev rCAL_FLAT (i j : Nat) : Nat := 0x40200 + 0x200 * i + 0x8 * j
abbrev fCAL_FLAT_VALID : Fld := ⟨16, 1⟩
abbrev fCAL_FLAT_VALUE : Fld := ⟨0, 16⟩
/-- GRID_SQ, R178 (`08_street_grid_and_plans.md`). -/
abbrev rGRID_SQ (i : Nat) : Nat := 0x300000 + 0x8 * i
abbrev fGRID_SQ_DROPS : Fld := ⟨32, 32⟩
abbrev fGRID_SQ_OUT_RATE : Fld := ⟨20, 7⟩
abbrev fGRID_SQ_IN_RATE : Fld := ⟨13, 7⟩
abbrev fGRID_SQ_ROUTES_IN : Fld := ⟨9, 4⟩
abbrev fGRID_SQ_ROUTES_OUT : Fld := ⟨6, 3⟩
/-- PLAN_SRC, R178 (`08_street_grid_and_plans.md`). -/
abbrev rPLAN_SRC : Nat := 0x380000
abbrev fPLAN_SRC_ADDR : Fld := ⟨6, 58⟩
/-- PLAN_LEN, R178 (`08_street_grid_and_plans.md`). -/
abbrev rPLAN_LEN : Nat := 0x380008
abbrev fPLAN_LEN_LEN : Fld := ⟨0, 21⟩
/-- PLAN_CMD, R178 (`08_street_grid_and_plans.md`). -/
abbrev rPLAN_CMD : Nat := 0x380010
abbrev fPLAN_CMD_CMD : Fld := ⟨0, 3⟩
/-- PLAN_TIME, R178 (`08_street_grid_and_plans.md`). -/
abbrev rPLAN_TIME : Nat := 0x380018
abbrev fPLAN_TIME_TIME : Fld := ⟨0, 64⟩
/-- PLAN_STATUS, R178 (`08_street_grid_and_plans.md`). -/
abbrev rPLAN_STATUS : Nat := 0x380020
abbrev fPLAN_STATUS_STRUCT_WR : Fld := ⟨48, 16⟩
abbrev fPLAN_STATUS_ACTIVATIONS : Fld := ⟨32, 16⟩
abbrev fPLAN_STATUS_REASON : Fld := ⟨16, 8⟩
abbrev fPLAN_STATUS_RESULT : Fld := ⟨8, 3⟩
abbrev fPLAN_STATUS_STATE : Fld := ⟨0, 2⟩
/-- PLAN_DETAIL, R178 (`08_street_grid_and_plans.md`). -/
abbrev rPLAN_DETAIL : Nat := 0x380028
abbrev fPLAN_DETAIL_DETAIL : Fld := ⟨0, 32⟩
/-- PLAN_SLOT, R178 (`08_street_grid_and_plans.md`). -/
abbrev rPLAN_SLOT (i : Nat) : Nat := 0x380040 + 0x8 * i
abbrev fPLAN_SLOT_CRC : Fld := ⟨32, 32⟩
abbrev fPLAN_SLOT_PLAN_ID : Fld := ⟨0, 32⟩
/-- PLAN_SLOT_STATE, R178 (`08_street_grid_and_plans.md`). -/
abbrev rPLAN_SLOT_STATE : Nat := 0x380050
abbrev fPLAN_SLOT_STATE_SLOT1 : Fld := ⟨2, 2⟩
abbrev fPLAN_SLOT_STATE_SLOT0 : Fld := ⟨0, 2⟩
/-- PLAN_PCOMMIT, R178 (`08_street_grid_and_plans.md`). -/
abbrev rPLAN_PCOMMIT : Nat := 0x380080
abbrev fPLAN_PCOMMIT_GO : Fld := ⟨63, 1⟩
abbrev fPLAN_PCOMMIT_LATE : Fld := ⟨62, 1⟩
abbrev fPLAN_PCOMMIT_COUNT : Fld := ⟨0, 32⟩
/-- PLAN_PC_TIME, R178 (`08_street_grid_and_plans.md`). -/
abbrev rPLAN_PC_TIME : Nat := 0x380088
abbrev fPLAN_PC_TIME_TIME : Fld := ⟨0, 64⟩
/-- DDC_CFG, R203 (`09_downconversion.md`). -/
abbrev rDDC_CFG (i : Nat) : Nat := 0x80000 + 0x1000 * i
abbrev fDDC_CFG_USED : Fld := ⟨63, 1⟩
abbrev fDDC_CFG_GANG : Fld := ⟨62, 1⟩
abbrev fDDC_CFG_PARTNER : Fld := ⟨61, 1⟩
abbrev fDDC_CFG_SRC_CPX : Fld := ⟨60, 1⟩
abbrev fDDC_CFG_SRC : Fld := ⟨48, 7⟩
abbrev fDDC_CFG_FMT : Fld := ⟨4, 1⟩
abbrev fDDC_CFG_STAGES : Fld := ⟨0, 4⟩
/-- DDC_NCO_FTW, R203 (`09_downconversion.md`). -/
abbrev rDDC_NCO_FTW (i : Nat) : Nat := 0x80008 + 0x1000 * i
abbrev fDDC_NCO_FTW_FTW : Fld := ⟨0, 48⟩
/-- DDC_NCO_CTRL, R203 (`09_downconversion.md`). -/
abbrev rDDC_NCO_CTRL (i : Nat) : Nat := 0x80010 + 0x1000 * i
abbrev fDDC_NCO_CTRL_RST_ARM : Fld := ⟨63, 1⟩
abbrev fDDC_NCO_CTRL_INVERT : Fld := ⟨32, 1⟩
abbrev fDDC_NCO_CTRL_POFF : Fld := ⟨0, 32⟩
/-- DDC_SWAP, R203 (`09_downconversion.md`). -/
abbrev rDDC_SWAP (i : Nat) : Nat := 0x80018 + 0x1000 * i
abbrev fDDC_SWAP_GO : Fld := ⟨63, 1⟩
abbrev fDDC_SWAP_CANCEL : Fld := ⟨62, 1⟩
abbrev fDDC_SWAP_SYNC : Fld := ⟨61, 1⟩
abbrev fDDC_SWAP_LATE : Fld := ⟨60, 1⟩
abbrev fDDC_SWAP_CAUSE : Fld := ⟨20, 4⟩
abbrev fDDC_SWAP_RESULT : Fld := ⟨16, 3⟩
abbrev fDDC_SWAP_MASK : Fld := ⟨0, 12⟩
/-- DDC_SWAP_TIME, R203 (`09_downconversion.md`). -/
abbrev rDDC_SWAP_TIME (i : Nat) : Nat := 0x80020 + 0x1000 * i
abbrev fDDC_SWAP_TIME_TIME : Fld := ⟨0, 64⟩
/-- DDC_SWAP_AT, R203 (`09_downconversion.md`). -/
abbrev rDDC_SWAP_AT (i : Nat) : Nat := 0x80028 + 0x1000 * i
abbrev fDDC_SWAP_AT_TIME : Fld := ⟨0, 64⟩
/-- DDC_STAT, R203 (`09_downconversion.md`). -/
abbrev rDDC_STAT (i : Nat) : Nat := 0x80030 + 0x1000 * i
abbrev fDDC_STAT_SAT : Fld := ⟨32, 32⟩
abbrev fDDC_STAT_COEF_DISC : Fld := ⟨16, 16⟩
abbrev fDDC_STAT_SWAPS : Fld := ⟨0, 16⟩
/-- DDC_STAGE, R203 (`09_downconversion.md`). -/
abbrev rDDC_STAGE (i j : Nat) : Nat := 0x80040 + 0x1000 * i + 0x8 * j
abbrev fDDC_STAGE_ACTIVE : Fld := ⟨10, 1⟩
abbrev fDDC_STAGE_ROUND : Fld := ⟨8, 2⟩
abbrev fDDC_STAGE_RSH : Fld := ⟨0, 5⟩
/-- DDC_COEF, word 0, R203 (`09_downconversion.md`). -/
abbrev rDDC_COEF0 (i j k : Nat) : Nat := 0x80400 + 0x1000 * i + 0x100 * j + 0x80 * k
abbrev fDDC_COEF0_CENTRE : Fld := ⟨32, 20⟩
abbrev fDDC_COEF0_K : Fld := ⟨0, 5⟩
/-- DDC_COEF, words 1 to 8, R203 (`09_downconversion.md`). -/
abbrev rDDC_COEFR (i j k l : Nat) : Nat := 0x80408 + 0x1000 * i + 0x100 * j + 0x80 * k + 0x8 * l
abbrev fDDC_COEFR_C_HI : Fld := ⟨32, 20⟩
abbrev fDDC_COEFR_C_LO : Fld := ⟨0, 20⟩
/-- XFM_CFG, R231 (`10_transform_pipelines.md`). -/
abbrev rXFM_CFG (i : Nat) : Nat := 0xa0000 + 0x8000 * i
abbrev fXFM_CFG_USED : Fld := ⟨63, 1⟩
abbrev fXFM_CFG_GANG : Fld := ⟨62, 1⟩
abbrev fXFM_CFG_PARTNER : Fld := ⟨61, 1⟩
abbrev fXFM_CFG_SRC_CS24 : Fld := ⟨60, 1⟩
abbrev fXFM_CFG_SRC : Fld := ⟨48, 7⟩
abbrev fXFM_CFG_STAGES : Fld := ⟨12, 4⟩
abbrev fXFM_CFG_OVL : Fld := ⟨8, 2⟩
abbrev fXFM_CFG_PCODE : Fld := ⟨5, 2⟩
abbrev fXFM_CFG_LOG2N : Fld := ⟨0, 5⟩
/-- XFM_BINS, R231 (`10_transform_pipelines.md`). -/
abbrev rXFM_BINS (i : Nat) : Nat := 0xa0008 + 0x8000 * i
abbrev fXFM_BINS_BINS : Fld := ⟨32, 19⟩
abbrev fXFM_BINS_FIRST : Fld := ⟨0, 18⟩
/-- XFM_CTRL, R231 (`10_transform_pipelines.md`). -/
abbrev rXFM_CTRL (i : Nat) : Nat := 0xa0010 + 0x8000 * i
abbrev fXFM_CTRL_SCHED : Fld := ⟨32, 18⟩
abbrev fXFM_CTRL_OUT_SHIFT : Fld := ⟨8, 5⟩
abbrev fXFM_CTRL_SCALING : Fld := ⟨4, 1⟩
abbrev fXFM_CTRL_WSEL : Fld := ⟨0, 3⟩
/-- XFM_WINFO, R231 (`10_transform_pipelines.md`). -/
abbrev rXFM_WINFO (i : Nat) : Nat := 0xa0018 + 0x8000 * i
abbrev fXFM_WINFO_ENBW : Fld := ⟨44, 20⟩
abbrev fXFM_WINFO_WSUM : Fld := ⟨0, 38⟩
/-- XFM_STAT, R231 (`10_transform_pipelines.md`). -/
abbrev rXFM_STAT (i : Nat) : Nat := 0xa0020 + 0x8000 * i
abbrev fXFM_STAT_SAT : Fld := ⟨32, 32⟩
abbrev fXFM_STAT_LOST : Fld := ⟨0, 32⟩
/-- XFM_COUNT, R231 (`10_transform_pipelines.md`). -/
abbrev rXFM_COUNT (i : Nat) : Nat := 0xa0028 + 0x8000 * i
abbrev fXFM_COUNT_WR_DISC : Fld := ⟨48, 16⟩
abbrev fXFM_COUNT_FRAMES : Fld := ⟨0, 48⟩
/-- XFM_EXP, R231 (`10_transform_pipelines.md`). -/
abbrev rXFM_EXP (i : Nat) : Nat := 0xa0030 + 0x8000 * i
abbrev fXFM_EXP_SHIFTS : Fld := ⟨32, 18⟩
abbrev fXFM_EXP_SF : Fld := ⟨16, 5⟩
abbrev fXFM_EXP_EXP : Fld := ⟨0, 8⟩
/-- XFM_TAB_SRC, R231 (`10_transform_pipelines.md`). -/
abbrev rXFM_TAB_SRC (i : Nat) : Nat := 0xa0040 + 0x8000 * i
abbrev fXFM_TAB_SRC_ADDR : Fld := ⟨6, 58⟩
/-- XFM_TAB_CTRL, R231 (`10_transform_pipelines.md`). -/
abbrev rXFM_TAB_CTRL (i : Nat) : Nat := 0xa0048 + 0x8000 * i
abbrev fXFM_TAB_CTRL_LOAD : Fld := ⟨63, 1⟩
abbrev fXFM_TAB_CTRL_GO : Fld := ⟨62, 1⟩
abbrev fXFM_TAB_CTRL_CANCEL : Fld := ⟨61, 1⟩
abbrev fXFM_TAB_CTRL_SYNC : Fld := ⟨60, 1⟩
abbrev fXFM_TAB_CTRL_LATE : Fld := ⟨59, 1⟩
abbrev fXFM_TAB_CTRL_LEN : Fld := ⟨0, 20⟩
/-- XFM_TAB_STATUS, R231 (`10_transform_pipelines.md`). -/
abbrev rXFM_TAB_STATUS (i : Nat) : Nat := 0xa0050 + 0x8000 * i
abbrev fXFM_TAB_STATUS_ACTIVE : Fld := ⟨32, 1⟩
abbrev fXFM_TAB_STATUS_SWAP_CAUSE : Fld := ⟨28, 4⟩
abbrev fXFM_TAB_STATUS_SWAP_RESULT : Fld := ⟨24, 3⟩
abbrev fXFM_TAB_STATUS_LOAD_REASON : Fld := ⟨20, 4⟩
abbrev fXFM_TAB_STATUS_LOAD_RESULT : Fld := ⟨16, 3⟩
abbrev fXFM_TAB_STATUS_SWAPS : Fld := ⟨0, 16⟩
/-- XFM_TAB_TIME, R231 (`10_transform_pipelines.md`). -/
abbrev rXFM_TAB_TIME (i : Nat) : Nat := 0xa0058 + 0x8000 * i
abbrev fXFM_TAB_TIME_TIME : Fld := ⟨0, 64⟩
/-- XFM_TAB_LEN, R231 (`10_transform_pipelines.md`). -/
abbrev rXFM_TAB_LEN (i : Nat) : Nat := 0xa0060 + 0x8000 * i
abbrev fXFM_TAB_LEN_LEN_B : Fld := ⟨32, 20⟩
abbrev fXFM_TAB_LEN_LEN_A : Fld := ⟨0, 20⟩
/-- XFM_TAB_AT, R231 (`10_transform_pipelines.md`). -/
abbrev rXFM_TAB_AT (i : Nat) : Nat := 0xa0068 + 0x8000 * i
abbrev fXFM_TAB_AT_TIME : Fld := ⟨0, 64⟩
/-- XFM_TAB_CRC, R231 (`10_transform_pipelines.md`). -/
abbrev rXFM_TAB_CRC (i : Nat) : Nat := 0xa0070 + 0x8000 * i
abbrev fXFM_TAB_CRC_CRC_B : Fld := ⟨32, 32⟩
abbrev fXFM_TAB_CRC_CRC_A : Fld := ⟨0, 32⟩
/-- DET_CFG, R255 (`11_detectors_and_density.md`). -/
abbrev rDET_CFG (i : Nat) : Nat := 0xc0000 + 0x1000 * i
abbrev fDET_CFG_USED : Fld := ⟨63, 1⟩
abbrev fDET_CFG_GANG : Fld := ⟨62, 1⟩
abbrev fDET_CFG_PARTNER : Fld := ⟨61, 1⟩
abbrev fDET_CFG_SRC : Fld := ⟨48, 7⟩
abbrev fDET_CFG_OUT : Fld := ⟨12, 1⟩
abbrev fDET_CFG_MERGE : Fld := ⟨8, 4⟩
abbrev fDET_CFG_SW_PG : Fld := ⟨4, 2⟩
abbrev fDET_CFG_SWITCHED : Fld := ⟨3, 1⟩
/-- DET_CTRL, R255 (`11_detectors_and_density.md`). -/
abbrev rDET_CTRL (i : Nat) : Nat := 0xc0008 + 0x1000 * i
abbrev fDET_CTRL_INT_MODE : Fld := ⟨16, 1⟩
abbrev fDET_CTRL_FLAT : Fld := ⟨8, 1⟩
abbrev fDET_CTRL_MERGE_FN : Fld := ⟨4, 1⟩
abbrev fDET_CTRL_MODE : Fld := ⟨0, 3⟩
/-- DET_INT, R255 (`11_detectors_and_density.md`). -/
abbrev rDET_INT (i : Nat) : Nat := 0xc0010 + 0x1000 * i
abbrev fDET_INT_VALUE : Fld := ⟨0, 48⟩
/-- DET_ALIGN, R255 (`11_detectors_and_density.md`). -/
abbrev rDET_ALIGN (i : Nat) : Nat := 0xc0018 + 0x1000 * i
abbrev fDET_ALIGN_ALIGN : Fld := ⟨0, 64⟩
/-- DET_STAT, R255 (`11_detectors_and_density.md`). -/
abbrev rDET_STAT (i : Nat) : Nat := 0xc0020 + 0x1000 * i
abbrev fDET_STAT_SW_DISCARD : Fld := ⟨32, 32⟩
abbrev fDET_STAT_LOST : Fld := ⟨0, 32⟩
/-- DET_COUNT, R255 (`11_detectors_and_density.md`). -/
abbrev rDET_COUNT (i : Nat) : Nat := 0xc0028 + 0x1000 * i
abbrev fDET_COUNT_WR_DISC : Fld := ⟨48, 16⟩
abbrev fDET_COUNT_EXTENDED : Fld := ⟨32, 16⟩
abbrev fDET_COUNT_EMPTY : Fld := ⟨0, 32⟩
/-- DET_FLAT, R255 (`11_detectors_and_density.md`). -/
abbrev rDET_FLAT (i : Nat) : Nat := 0xc0030 + 0x1000 * i
abbrev fDET_FLAT_UPDATES : Fld := ⟨32, 32⟩
abbrev fDET_FLAT_TRACED : Fld := ⟨2, 1⟩
abbrev fDET_FLAT_INPUT : Fld := ⟨0, 2⟩
/-- DEN_CFG, R255 (`11_detectors_and_density.md`). -/
abbrev rDEN_CFG (i : Nat) : Nat := 0xd0000 + 0x1000 * i
abbrev fDEN_CFG_USED : Fld := ⟨63, 1⟩
abbrev fDEN_CFG_GANG : Fld := ⟨62, 1⟩
abbrev fDEN_CFG_PARTNER : Fld := ⟨61, 1⟩
abbrev fDEN_CFG_SRC_DU : Fld := ⟨60, 1⟩
abbrev fDEN_CFG_SRC : Fld := ⟨48, 7⟩
abbrev fDEN_CFG_LOG2M : Fld := ⟨20, 4⟩
abbrev fDEN_CFG_PERSIST : Fld := ⟨16, 1⟩
abbrev fDEN_CFG_LOG2C : Fld := ⟨8, 4⟩
abbrev fDEN_CFG_LOG2A : Fld := ⟨0, 4⟩
/-- DEN_CTRL, R255 (`11_detectors_and_density.md`). -/
abbrev rDEN_CTRL (i : Nat) : Nat := 0xd0008 + 0x1000 * i
abbrev fDEN_CTRL_INT_MODE : Fld := ⟨48, 1⟩
abbrev fDEN_CTRL_FLAT : Fld := ⟨44, 1⟩
abbrev fDEN_CTRL_COLMODE : Fld := ⟨40, 1⟩
abbrev fDEN_CTRL_DECAY : Fld := ⟨32, 4⟩
abbrev fDEN_CTRL_STEP : Fld := ⟨16, 12⟩
abbrev fDEN_CTRL_TOP : Fld := ⟨0, 16⟩
/-- DEN_INT, R255 (`11_detectors_and_density.md`). -/
abbrev rDEN_INT (i : Nat) : Nat := 0xd0010 + 0x1000 * i
abbrev fDEN_INT_VALUE : Fld := ⟨0, 48⟩
/-- DEN_ALIGN, R255 (`11_detectors_and_density.md`). -/
abbrev rDEN_ALIGN (i : Nat) : Nat := 0xd0018 + 0x1000 * i
abbrev fDEN_ALIGN_ALIGN : Fld := ⟨0, 64⟩
/-- DEN_STAT, R255 (`11_detectors_and_density.md`). -/
abbrev rDEN_STAT (i : Nat) : Nat := 0xd0020 + 0x1000 * i
abbrev fDEN_STAT_UNDER : Fld := ⟨32, 32⟩
abbrev fDEN_STAT_OVER : Fld := ⟨0, 32⟩
/-- DEN_COUNT, R255 (`11_detectors_and_density.md`). -/
abbrev rDEN_COUNT (i : Nat) : Nat := 0xd0028 + 0x1000 * i
abbrev fDEN_COUNT_WR_DISC : Fld := ⟨48, 16⟩
abbrev fDEN_COUNT_EXTENDED : Fld := ⟨32, 16⟩
abbrev fDEN_COUNT_SAT : Fld := ⟨0, 32⟩
/-- DEN_LOST, R255 (`11_detectors_and_density.md`). -/
abbrev rDEN_LOST (i : Nat) : Nat := 0xd0030 + 0x1000 * i
abbrev fDEN_LOST_EMPTY : Fld := ⟨32, 32⟩
abbrev fDEN_LOST_LOST : Fld := ⟨0, 32⟩
/-- TRG_SRC, R278 (`12_triggers.md`). -/
abbrev rTRG_SRC (i : Nat) : Nat := 0xe0000 + 0x8 * i
abbrev fTRG_SRC_EVENTS : Fld := ⟨32, 32⟩
abbrev fTRG_SRC_LATENCY : Fld := ⟨0, 32⟩
/-- TRG_SW, R278 (`12_triggers.md`). -/
abbrev rTRG_SW : Nat := 0xe0200
abbrev fTRG_SW_FIRE : Fld := ⟨0, 4⟩
/-- TRG_TBUS, R278 (`12_triggers.md`). -/
abbrev rTRG_TBUS (i : Nat) : Nat := 0xe0240 + 0x8 * i
abbrev fTRG_TBUS_EN : Fld := ⟨63, 1⟩
abbrev fTRG_TBUS_LEVEL : Fld := ⟨62, 1⟩
abbrev fTRG_TBUS_SRC : Fld := ⟨32, 4⟩
abbrev fTRG_TBUS_WIDTH : Fld := ⟨0, 16⟩
/-- TRG_TMR_CFG, R278 (`12_triggers.md`). -/
abbrev rTRG_TMR_CFG (i : Nat) : Nat := 0xe0280 + 0x10 * i
abbrev fTRG_TMR_CFG_EN : Fld := ⟨63, 1⟩
abbrev fTRG_TMR_CFG_PERIOD : Fld := ⟨0, 48⟩
/-- TRG_TMR_START, R278 (`12_triggers.md`). -/
abbrev rTRG_TMR_START (i : Nat) : Nat := 0xe0288 + 0x10 * i
abbrev fTRG_TMR_START_START : Fld := ⟨0, 64⟩
/-- TRG_LT_CFG, R278 (`12_triggers.md`). -/
abbrev rTRG_LT_CFG (i : Nat) : Nat := 0xe0400 + 0x20 * i
abbrev fTRG_LT_CFG_SRC_FMT : Fld := ⟨60, 2⟩
abbrev fTRG_LT_CFG_SRC : Fld := ⟨48, 7⟩
abbrev fTRG_LT_CFG_MIN_WIDTH : Fld := ⟨32, 10⟩
abbrev fTRG_LT_CFG_SIGNAL : Fld := ⟨8, 2⟩
abbrev fTRG_LT_CFG_COND : Fld := ⟨4, 2⟩
abbrev fTRG_LT_CFG_EN : Fld := ⟨0, 1⟩
/-- TRG_LT_LEVEL, R278 (`12_triggers.md`). -/
abbrev rTRG_LT_LEVEL (i : Nat) : Nat := 0xe0408 + 0x20 * i
abbrev fTRG_LT_LEVEL_HYST : Fld := ⟨32, 32⟩
abbrev fTRG_LT_LEVEL_LEVEL : Fld := ⟨0, 32⟩
/-- TRG_LT_STAT, R278 (`12_triggers.md`). -/
abbrev rTRG_LT_STAT (i : Nat) : Nat := 0xe0410 + 0x20 * i
abbrev fTRG_LT_STAT_TRIGGERS : Fld := ⟨32, 32⟩
abbrev fTRG_LT_STAT_EXCESS : Fld := ⟨0, 32⟩
/-- TRG_TQ_CFG, R278 (`12_triggers.md`). -/
abbrev rTRG_TQ_CFG (i : Nat) : Nat := 0xe2000 + 0x100 * i
abbrev fTRG_TQ_CFG_ARM : Fld := ⟨63, 1⟩
abbrev fTRG_TQ_CFG_DISARM : Fld := ⟨62, 1⟩
abbrev fTRG_TQ_CFG_STATE : Fld := ⟨56, 1⟩
abbrev fTRG_TQ_CFG_COUNT_N : Fld := ⟨32, 16⟩
abbrev fTRG_TQ_CFG_MODE : Fld := ⟨8, 2⟩
abbrev fTRG_TQ_CFG_PLACE_A : Fld := ⟨4, 1⟩
abbrev fTRG_TQ_CFG_FUNC : Fld := ⟨0, 2⟩
/-- TRG_TQ_SETA, R278 (`12_triggers.md`). -/
abbrev rTRG_TQ_SETA (i : Nat) : Nat := 0xe2008 + 0x100 * i
abbrev fTRG_TQ_SETA_MASK : Fld := ⟨0, 64⟩
/-- TRG_TQ_SETB, R278 (`12_triggers.md`). -/
abbrev rTRG_TQ_SETB (i : Nat) : Nat := 0xe2010 + 0x100 * i
abbrev fTRG_TQ_SETB_MASK : Fld := ⟨0, 64⟩
/-- TRG_TQ_CHAIN, R278 (`12_triggers.md`). -/
abbrev rTRG_TQ_CHAIN (i : Nat) : Nat := 0xe2018 + 0x100 * i
abbrev fTRG_TQ_CHAIN_B : Fld := ⟨16, 16⟩
abbrev fTRG_TQ_CHAIN_A : Fld := ⟨0, 16⟩
/-- TRG_TQ_TIMING, R278 (`12_triggers.md`). -/
abbrev rTRG_TQ_TIMING (i : Nat) : Nat := 0xe2020 + 0x100 * i
abbrev fTRG_TQ_TIMING_HOLDOFF : Fld := ⟨32, 32⟩
abbrev fTRG_TQ_TIMING_WINDOW : Fld := ⟨0, 32⟩
/-- TRG_TQ_AUTO, R278 (`12_triggers.md`). -/
abbrev rTRG_TQ_AUTO (i : Nat) : Nat := 0xe2028 + 0x100 * i
abbrev fTRG_TQ_AUTO_LAG : Fld := ⟨32, 32⟩
abbrev fTRG_TQ_AUTO_TIMEOUT : Fld := ⟨0, 32⟩
/-- TRG_TQ_STAT, R278 (`12_triggers.md`). -/
abbrev rTRG_TQ_STAT (i : Nat) : Nat := 0xe2030 + 0x100 * i
abbrev fTRG_TQ_STAT_HELD_OFF : Fld := ⟨32, 32⟩
abbrev fTRG_TQ_STAT_Q_DROP : Fld := ⟨16, 16⟩
abbrev fTRG_TQ_STAT_LATE_EV : Fld := ⟨0, 16⟩
/-- TRG_TQ_COUNT, R278 (`12_triggers.md`). -/
abbrev rTRG_TQ_COUNT (i : Nat) : Nat := 0xe2038 + 0x100 * i
abbrev fTRG_TQ_COUNT_FORCED : Fld := ⟨32, 32⟩
abbrev fTRG_TQ_COUNT_FIRED : Fld := ⟨0, 32⟩
/-- TRG_TQ_SNAP, R278 (`12_triggers.md`). -/
abbrev rTRG_TQ_SNAP (i : Nat) : Nat := 0xe2040 + 0x100 * i
abbrev fTRG_TQ_SNAP_SEQ : Fld := ⟨32, 32⟩
abbrev fTRG_TQ_SNAP_SNAP : Fld := ⟨0, 1⟩
/-- TRG_TQ_LAST_TIME, R278 (`12_triggers.md`). -/
abbrev rTRG_TQ_LAST_TIME (i : Nat) : Nat := 0xe2048 + 0x100 * i
abbrev fTRG_TQ_LAST_TIME_TIME : Fld := ⟨0, 64⟩
/-- TRG_TQ_LAST_INFO, R278 (`12_triggers.md`). -/
abbrev rTRG_TQ_LAST_INFO (i : Nat) : Nat := 0xe2050 + 0x100 * i
abbrev fTRG_TQ_LAST_INFO_INFO : Fld := ⟨0, 64⟩
/-- TRG_TQ_EFF, R278 (`12_triggers.md`). -/
abbrev rTRG_TQ_EFF (i : Nat) : Nat := 0xe2058 + 0x100 * i
abbrev fTRG_TQ_EFF_EFF_LAG : Fld := ⟨0, 32⟩
/-- TRG_FM_CFG, R278 (`12_triggers.md`). -/
abbrev rTRG_FM_CFG (i : Nat) : Nat := 0xe8000 + 0x2000 * i
abbrev fTRG_FM_CFG_SRC : Fld := ⟨48, 7⟩
abbrev fTRG_FM_CFG_MIN_BINS : Fld := ⟨32, 16⟩
abbrev fTRG_FM_CFG_NSEG : Fld := ⟨16, 10⟩
abbrev fTRG_FM_CFG_FLAT : Fld := ⟨8, 1⟩
abbrev fTRG_FM_CFG_COND : Fld := ⟨4, 2⟩
abbrev fTRG_FM_CFG_EN : Fld := ⟨0, 1⟩
/-- TRG_FM_STAT, R278 (`12_triggers.md`). -/
abbrev rTRG_FM_STAT (i : Nat) : Nat := 0xe8008 + 0x2000 * i
abbrev fTRG_FM_STAT_QUALIFIED : Fld := ⟨32, 32⟩
abbrev fTRG_FM_STAT_TRIGGERS : Fld := ⟨0, 32⟩
/-- TRG_FM_SEG, R278 (`12_triggers.md`). -/
abbrev rTRG_FM_SEG (i j : Nat) : Nat := 0xe9000 + 0x2000 * i + 0x8 * j
abbrev fTRG_FM_SEG_START : Fld := ⟨32, 18⟩
abbrev fTRG_FM_SEG_UPPER : Fld := ⟨16, 16⟩
abbrev fTRG_FM_SEG_LOWER : Fld := ⟨0, 16⟩
/-- ACQ_CFG, R301 (`13_acquisition_and_records.md`). -/
abbrev rACQ_CFG (i : Nat) : Nat := 0xf0000 + 0x1000 * i
abbrev fACQ_CFG_USED : Fld := ⟨63, 1⟩
abbrev fACQ_CFG_LOG_EN : Fld := ⟨62, 1⟩
abbrev fACQ_CFG_SRC : Fld := ⟨48, 7⟩
abbrev fACQ_CFG_LOG_CTX : Fld := ⟨32, 12⟩
abbrev fACQ_CFG_FMT : Fld := ⟨30, 2⟩
abbrev fACQ_CFG_RLOG2 : Fld := ⟨24, 5⟩
abbrev fACQ_CFG_RED : Fld := ⟨22, 2⟩
abbrev fACQ_CFG_SEL : Fld := ⟨18, 4⟩
abbrev fACQ_CFG_RING_BILLETS : Fld := ⟨0, 16⟩
/-- ACQ_CTRL, R301 (`13_acquisition_and_records.md`). -/
abbrev rACQ_CTRL (i : Nat) : Nat := 0xf0008 + 0x1000 * i
abbrev fACQ_CTRL_RMU_EN : Fld := ⟨12, 1⟩
abbrev fACQ_CTRL_QUAL : Fld := ⟨8, 4⟩
abbrev fACQ_CTRL_POLICY : Fld := ⟨4, 1⟩
abbrev fACQ_CTRL_MODE : Fld := ⟨0, 2⟩
/-- ACQ_LEN, R301 (`13_acquisition_and_records.md`). -/
abbrev rACQ_LEN (i : Nat) : Nat := 0xf0010 + 0x1000 * i
abbrev fACQ_LEN_POST : Fld := ⟨32, 32⟩
abbrev fACQ_LEN_PRE : Fld := ⟨0, 32⟩
/-- ACQ_SEG, R301 (`13_acquisition_and_records.md`). -/
abbrev rACQ_SEG (i : Nat) : Nat := 0xf0018 + 0x1000 * i
abbrev fACQ_SEG_NSEG : Fld := ⟨32, 16⟩
abbrev fACQ_SEG_HOLDOFF : Fld := ⟨0, 32⟩
/-- ACQ_LOG, R301 (`13_acquisition_and_records.md`). -/
abbrev rACQ_LOG (i : Nat) : Nat := 0xf0020 + 0x1000 * i
abbrev fACQ_LOG_FLUSH_US : Fld := ⟨32, 16⟩
abbrev fACQ_LOG_LOG_MAX : Fld := ⟨0, 11⟩
/-- ACQ_CMD, R301 (`13_acquisition_and_records.md`). -/
abbrev rACQ_CMD (i : Nat) : Nat := 0xf0028 + 0x1000 * i
abbrev fACQ_CMD_ARM : Fld := ⟨63, 1⟩
abbrev fACQ_CMD_STOP : Fld := ⟨62, 1⟩
abbrev fACQ_CMD_SEG : Fld := ⟨32, 16⟩
abbrev fACQ_CMD_STATE : Fld := ⟨0, 3⟩
/-- ACQ_SNAP, R301 (`13_acquisition_and_records.md`). -/
abbrev rACQ_SNAP (i : Nat) : Nat := 0xf0030 + 0x1000 * i
abbrev fACQ_SNAP_SEQ : Fld := ⟨32, 32⟩
abbrev fACQ_SNAP_SNAP : Fld := ⟨0, 1⟩
/-- ACQ_COUNT0, R301 (`13_acquisition_and_records.md`). -/
abbrev rACQ_COUNT0 (i : Nat) : Nat := 0xf0038 + 0x1000 * i
abbrev fACQ_COUNT0_RECORDS : Fld := ⟨0, 64⟩
/-- ACQ_COUNT1, R301 (`13_acquisition_and_records.md`). -/
abbrev rACQ_COUNT1 (i : Nat) : Nat := 0xf0040 + 0x1000 * i
abbrev fACQ_COUNT1_EARLY : Fld := ⟨32, 32⟩
abbrev fACQ_COUNT1_MISSED : Fld := ⟨0, 32⟩
/-- ACQ_COUNT2, R301 (`13_acquisition_and_records.md`). -/
abbrev rACQ_COUNT2 (i : Nat) : Nat := 0xf0048 + 0x1000 * i
abbrev fACQ_COUNT2_WR_DISC : Fld := ⟨48, 16⟩
abbrev fACQ_COUNT2_STALE : Fld := ⟨32, 16⟩
abbrev fACQ_COUNT2_TRUNC : Fld := ⟨0, 32⟩
/-- RMU_CFG, R302 (`13_acquisition_and_records.md`). -/
abbrev rRMU_CFG (i : Nat) : Nat := 0x100000 + 0x20 * i
abbrev fRMU_CFG_RECORDS : Fld := ⟨32, 32⟩
abbrev fRMU_CFG_HYST : Fld := ⟨0, 24⟩
/-- RMU_SIG, R302 (`13_acquisition_and_records.md`). -/
abbrev rRMU_SIG (i : Nat) : Nat := 0x100008 + 0x20 * i
abbrev fRMU_SIG_SIGNAL : Fld := ⟨0, 2⟩
/-- RMU_LEVEL, R302 (`13_acquisition_and_records.md`). -/
abbrev rRMU_LEVEL (i : Nat) : Nat := 0x100010 + 0x20 * i
abbrev fRMU_LEVEL_HI : Fld := ⟨48, 16⟩
abbrev fRMU_LEVEL_MID : Fld := ⟨32, 16⟩
abbrev fRMU_LEVEL_LO : Fld := ⟨16, 16⟩
/-- TC_CTRL, R334 (`14_turf_cores.md`). -/
abbrev rTC_CTRL (i : Nat) : Nat := 0x200000 + 0x8000 * i
abbrev fTC_CTRL_RUN : Fld := ⟨63, 1⟩
abbrev fTC_CTRL_ABORT : Fld := ⟨62, 1⟩
abbrev fTC_CTRL_ENTRY : Fld := ⟨0, 11⟩
/-- TC_STATUS, R334 (`14_turf_cores.md`). -/
abbrev rTC_STATUS (i : Nat) : Nat := 0x200008 + 0x8000 * i
abbrev fTC_STATUS_RUNS : Fld := ⟨48, 16⟩
abbrev fTC_STATUS_FAULT_PC : Fld := ⟨32, 11⟩
abbrev fTC_STATUS_PC : Fld := ⟨16, 11⟩
abbrev fTC_STATUS_CAUSE : Fld := ⟨12, 4⟩
abbrev fTC_STATUS_RESULT : Fld := ⟨8, 2⟩
abbrev fTC_STATUS_STATE : Fld := ⟨0, 3⟩
/-- TC_LIMIT, R334 (`14_turf_cores.md`). -/
abbrev rTC_LIMIT (i : Nat) : Nat := 0x200010 + 0x8000 * i
abbrev fTC_LIMIT_CYCLES : Fld := ⟨0, 48⟩
/-- TC_CYCLES, R334 (`14_turf_cores.md`). -/
abbrev rTC_CYCLES (i : Nat) : Nat := 0x200018 + 0x8000 * i
abbrev fTC_CYCLES_CYCLES : Fld := ⟨0, 64⟩
/-- TC_SIN, R334 (`14_turf_cores.md`). -/
abbrev rTC_SIN (i : Nat) : Nat := 0x200020 + 0x8000 * i
abbrev fTC_SIN_LEN : Fld := ⟨32, 14⟩
abbrev fTC_SIN_BASE : Fld := ⟨0, 13⟩
/-- TC_SIN_STAT, R334 (`14_turf_cores.md`). -/
abbrev rTC_SIN_STAT (i : Nat) : Nat := 0x200028 + 0x8000 * i
abbrev fTC_SIN_STAT_RECEIVED : Fld := ⟨32, 32⟩
abbrev fTC_SIN_STAT_OVERSIZE : Fld := ⟨16, 16⟩
abbrev fTC_SIN_STAT_FILL : Fld := ⟨0, 14⟩
/-- TC_SOUT_STAT, R334 (`14_turf_cores.md`). -/
abbrev rTC_SOUT_STAT (i : Nat) : Nat := 0x200030 + 0x8000 * i
abbrev fTC_SOUT_STAT_SENT : Fld := ⟨32, 32⟩
abbrev fTC_SOUT_STAT_DISCARDED : Fld := ⟨16, 16⟩
abbrev fTC_SOUT_STAT_QUEUED : Fld := ⟨0, 3⟩
/-- TC_TIMER, R334 (`14_turf_cores.md`). -/
abbrev rTC_TIMER (i : Nat) : Nat := 0x200038 + 0x8000 * i
abbrev fTC_TIMER_EN : Fld := ⟨63, 1⟩
abbrev fTC_TIMER_PERIOD : Fld := ⟨0, 32⟩
/-- TC_STAT, R334 (`14_turf_cores.md`). -/
abbrev rTC_STAT (i : Nat) : Nat := 0x200040 + 0x8000 * i
abbrev fTC_STAT_FLUSHED : Fld := ⟨48, 16⟩
abbrev fTC_STAT_PM_DISC : Fld := ⟨32, 16⟩
abbrev fTC_STAT_CFG_DISC : Fld := ⟨16, 16⟩
abbrev fTC_STAT_CMD_DISC : Fld := ⟨0, 16⟩
/-- TC_MBIN, R334 (`14_turf_cores.md`). -/
abbrev rTC_MBIN (i j : Nat) : Nat := 0x200080 + 0x8000 * i + 0x8 * j
abbrev fTC_MBIN_DATA : Fld := ⟨0, 64⟩
/-- TC_MBIN_CTRL, R334 (`14_turf_cores.md`). -/
abbrev rTC_MBIN_CTRL (i : Nat) : Nat := 0x2000a0 + 0x8000 * i
abbrev fTC_MBIN_CTRL_POST : Fld := ⟨63, 1⟩
abbrev fTC_MBIN_CTRL_OVERRUN : Fld := ⟨1, 1⟩
abbrev fTC_MBIN_CTRL_FULL : Fld := ⟨0, 1⟩
/-- TC_MBOUT, R334 (`14_turf_cores.md`). -/
abbrev rTC_MBOUT (i j : Nat) : Nat := 0x2000c0 + 0x8000 * i + 0x8 * j
abbrev fTC_MBOUT_DATA : Fld := ⟨0, 64⟩
/-- TC_MBOUT_CTRL, R334 (`14_turf_cores.md`). -/
abbrev rTC_MBOUT_CTRL (i : Nat) : Nat := 0x2000e0 + 0x8000 * i
abbrev fTC_MBOUT_CTRL_ACK : Fld := ⟨63, 1⟩
abbrev fTC_MBOUT_CTRL_FULL : Fld := ⟨0, 1⟩
/-- TCL_IN, R334 (`14_turf_cores.md`). -/
abbrev rTCL_IN (i j : Nat) : Nat := 0x200400 + 0x40000 * i + 0x8 * j
abbrev fTCL_IN_VALID : Fld := ⟨63, 1⟩
abbrev fTCL_IN_MODE : Fld := ⟨56, 2⟩
abbrev fTCL_IN_CORES : Fld := ⟨48, 8⟩
abbrev fTCL_IN_ROUTE : Fld := ⟨32, 10⟩
abbrev fTCL_IN_RECORDS : Fld := ⟨0, 32⟩
/-- TCL_OUT, R334 (`14_turf_cores.md`). -/
abbrev rTCL_OUT (i j : Nat) : Nat := 0x200480 + 0x40000 * i + 0x8 * j
abbrev fTCL_OUT_VALID : Fld := ⟨63, 1⟩
abbrev fTCL_OUT_CONTEXT : Fld := ⟨44, 12⟩
abbrev fTCL_OUT_ROUTE : Fld := ⟨32, 10⟩
abbrev fTCL_OUT_RECORDS : Fld := ⟨0, 32⟩
/-- STO_CAP, R358 (`15_central_store.md`). -/
abbrev rSTO_CAP : Nat := 0x400000
abbrev fSTO_CAP_EXTENTS : Fld := ⟨32, 22⟩
abbrev fSTO_CAP_BILLETS : Fld := ⟨0, 21⟩
/-- STO_POOL, R358 (`15_central_store.md`). -/
abbrev rSTO_POOL : Nat := 0x400008
abbrev fSTO_POOL_POOL_FREE : Fld := ⟨32, 21⟩
abbrev fSTO_POOL_FREE : Fld := ⟨0, 21⟩
/-- STO_RSV, R358 (`15_central_store.md`). -/
abbrev rSTO_RSV : Nat := 0x400010
abbrev fSTO_RSV_POOL_WARN : Fld := ⟨32, 21⟩
abbrev fSTO_RSV_RESERVED : Fld := ⟨0, 21⟩
/-- STO_EXT, R358 (`15_central_store.md`). -/
abbrev rSTO_EXT : Nat := 0x400018
abbrev fSTO_EXT_EXT_WARN : Fld := ⟨32, 22⟩
abbrev fSTO_EXT_EXT_FREE : Fld := ⟨0, 22⟩
/-- STO_CMD, R358 (`15_central_store.md`). -/
abbrev rSTO_CMD : Nat := 0x400020
abbrev fSTO_CMD_CMD : Fld := ⟨0, 3⟩
/-- STO_CMD_ARG, R358 (`15_central_store.md`). -/
abbrev rSTO_CMD_ARG : Nat := 0x400028
abbrev fSTO_CMD_ARG_CONTEXT : Fld := ⟨32, 12⟩
abbrev fSTO_CMD_ARG_BILLET : Fld := ⟨0, 21⟩
/-- STO_CMD_STATUS, R358 (`15_central_store.md`). -/
abbrev rSTO_CMD_STATUS : Nat := 0x400030
abbrev fSTO_CMD_STATUS_BUSY : Fld := ⟨16, 1⟩
abbrev fSTO_CMD_STATUS_RESULT : Fld := ⟨8, 3⟩
abbrev fSTO_CMD_STATUS_REASON : Fld := ⟨0, 8⟩
/-- STO_BQ, R358 (`15_central_store.md`). -/
abbrev rSTO_BQ : Nat := 0x400038
abbrev fSTO_BQ_BILLET : Fld := ⟨32, 21⟩
abbrev fSTO_BQ_STATE : Fld := ⟨28, 2⟩
abbrev fSTO_BQ_OWNER : Fld := ⟨16, 12⟩
abbrev fSTO_BQ_DEFER : Fld := ⟨15, 1⟩
abbrev fSTO_BQ_WRITER : Fld := ⟨14, 1⟩
abbrev fSTO_BQ_HBIAS : Fld := ⟨13, 1⟩
abbrev fSTO_BQ_ZC : Fld := ⟨12, 1⟩
abbrev fSTO_BQ_SWREF : Fld := ⟨8, 4⟩
abbrev fSTO_BQ_REF : Fld := ⟨0, 8⟩
/-- STO_CNT0, R358 (`15_central_store.md`). -/
abbrev rSTO_CNT0 : Nat := 0x400040
abbrev fSTO_CNT0_FREE_DEFERRED : Fld := ⟨32, 32⟩
abbrev fSTO_CNT0_FREES : Fld := ⟨0, 32⟩
/-- STO_CNT1, R358 (`15_central_store.md`). -/
abbrev rSTO_CNT1 : Nat := 0x400048
abbrev fSTO_CNT1_FREE_BAD : Fld := ⟨48, 16⟩
abbrev fSTO_CNT1_REF_LIMIT : Fld := ⟨32, 16⟩
abbrev fSTO_CNT1_CMD_DISC : Fld := ⟨16, 16⟩
abbrev fSTO_CNT1_ZC_BAD_RELEASE : Fld := ⟨0, 16⟩
/-- STO_CSNAP, R358 (`15_central_store.md`). -/
abbrev rSTO_CSNAP : Nat := 0x400080
abbrev fSTO_CSNAP_SEQ : Fld := ⟨32, 32⟩
abbrev fSTO_CSNAP_CONTEXT : Fld := ⟨16, 12⟩
abbrev fSTO_CSNAP_SNAP : Fld := ⟨0, 1⟩
/-- STO_CSNAP0, R358 (`15_central_store.md`). -/
abbrev rSTO_CSNAP0 : Nat := 0x400088
abbrev fSTO_CSNAP0_NEXT_SEQ : Fld := ⟨0, 64⟩
/-- STO_CSNAP1, R358 (`15_central_store.md`). -/
abbrev rSTO_CSNAP1 : Nat := 0x400090
abbrev fSTO_CSNAP1_EPOCH : Fld := ⟨48, 16⟩
abbrev fSTO_CSNAP1_STATE : Fld := ⟨40, 2⟩
abbrev fSTO_CSNAP1_HELD : Fld := ⟨0, 21⟩
/-- STO_CSNAP2, R358 (`15_central_store.md`). -/
abbrev rSTO_CSNAP2 : Nat := 0x400098
abbrev fSTO_CSNAP2_LOST : Fld := ⟨0, 64⟩
/-- STO_CSNAP3, R358 (`15_central_store.md`). -/
abbrev rSTO_CSNAP3 : Nat := 0x4000a0
abbrev fSTO_CSNAP3_OVERFLOW : Fld := ⟨32, 32⟩
abbrev fSTO_CSNAP3_SHED : Fld := ⟨0, 32⟩
/-- STO_CTX, R358 (`15_central_store.md`). -/
abbrev rSTO_CTX (i j : Nat) : Nat := 0x410000 + 0x40 * i + 0x8 * j
abbrev fSTO_CTX_ENTRY : Fld := ⟨0, 64⟩
/-- STO_CUR, R358 (`15_central_store.md`). -/
abbrev rSTO_CUR (i j : Nat) : Nat := 0x450000 + 0x20 * i + 0x8 * j
abbrev fSTO_CUR_NEXT : Fld := ⟨0, 64⟩
/-- ADM_CMD, R376 (`16_admission_and_deadlines.md`). -/
abbrev rADM_CMD : Nat := 0x500000
abbrev fADM_CMD_CMD : Fld := ⟨0, 2⟩
/-- ADM_ARG, R376 (`16_admission_and_deadlines.md`). -/
abbrev rADM_ARG : Nat := 0x500008
abbrev fADM_ARG_CONTEXT : Fld := ⟨0, 12⟩
/-- ADM_STATUS, R376 (`16_admission_and_deadlines.md`). -/
abbrev rADM_STATUS : Nat := 0x500010
abbrev fADM_STATUS_RESOURCE : Fld := ⟨32, 6⟩
abbrev fADM_STATUS_CONTEXT : Fld := ⟨16, 12⟩
abbrev fADM_STATUS_OVERCOMMIT : Fld := ⟨12, 1⟩
abbrev fADM_STATUS_REASON : Fld := ⟨8, 4⟩
abbrev fADM_STATUS_RESULT : Fld := ⟨4, 2⟩
abbrev fADM_STATUS_BUSY : Fld := ⟨0, 1⟩
/-- ADM_MEM, R376 (`16_admission_and_deadlines.md`). -/
abbrev rADM_MEM : Nat := 0x500018
abbrev fADM_MEM_DMEM_NS : Fld := ⟨32, 32⟩
abbrev fADM_MEM_DMEM : Fld := ⟨0, 32⟩
/-- ADM_COUNT, R376 (`16_admission_and_deadlines.md`). -/
abbrev rADM_COUNT : Nat := 0x500020
abbrev fADM_COUNT_CMD_DISC : Fld := ⟨48, 16⟩
abbrev fADM_COUNT_REJECTED : Fld := ⟨24, 24⟩
abbrev fADM_COUNT_ADMITTED : Fld := ⟨0, 24⟩
/-- ADM_SNAP, R376 (`16_admission_and_deadlines.md`). -/
abbrev rADM_SNAP : Nat := 0x500028
abbrev fADM_SNAP_SEQ : Fld := ⟨32, 32⟩
abbrev fADM_SNAP_SNAP : Fld := ⟨0, 1⟩
/-- ADM_LOAD0, R376 (`16_admission_and_deadlines.md`). -/
abbrev rADM_LOAD0 : Nat := 0x500030
abbrev fADM_LOAD0_STORE_CEIL : Fld := ⟨32, 32⟩
abbrev fADM_LOAD0_STORE_LOAD : Fld := ⟨0, 32⟩
/-- ADM_LOAD1, R376 (`16_admission_and_deadlines.md`). -/
abbrev rADM_LOAD1 : Nat := 0x500038
abbrev fADM_LOAD1_ASSURED : Fld := ⟨32, 13⟩
abbrev fADM_LOAD1_GUARANTEED : Fld := ⟨0, 13⟩
/-- ADM_ENTRY, R376 (`16_admission_and_deadlines.md`). -/
abbrev rADM_ENTRY (i : Nat) : Nat := 0x500040 + 0x8 * i
abbrev fADM_ENTRY_ENTRY : Fld := ⟨0, 64⟩
/-- ADM_RES, R376 (`16_admission_and_deadlines.md`). -/
abbrev rADM_RES (i : Nat) : Nat := 0x500100 + 0x8 * i
abbrev fADM_RES_CEIL : Fld := ⟨32, 32⟩
abbrev fADM_RES_LOAD : Fld := ⟨0, 32⟩
/-- ADM_CTX, R376 (`16_admission_and_deadlines.md`). -/
abbrev rADM_CTX (i : Nat) : Nat := 0x510000 + 0x10 * i
abbrev fADM_CTX_P : Fld := ⟨32, 32⟩
abbrev fADM_CTX_MISSES : Fld := ⟨0, 32⟩
/-- ADM_CTX_STAT, R376 (`16_admission_and_deadlines.md`). -/
abbrev rADM_CTX_STAT (i : Nat) : Nat := 0x510008 + 0x10 * i
abbrev fADM_CTX_STAT_SHED_REC : Fld := ⟨32, 32⟩
abbrev fADM_CTX_STAT_STALL_US : Fld := ⟨0, 32⟩
/-- MEM_MAP, R395 (`17_memory_controller.md`). -/
abbrev rMEM_MAP : Nat := 0x600000
abbrev fMEM_MAP_MAP_DISC : Fld := ⟨48, 16⟩
abbrev fMEM_MAP_MAP_BUSY : Fld := ⟨8, 1⟩
abbrev fMEM_MAP_XOR : Fld := ⟨4, 1⟩
abbrev fMEM_MAP_GRAIN_LOG2 : Fld := ⟨0, 4⟩
/-- MEM_SCHED, R395 (`17_memory_controller.md`). -/
abbrev rMEM_SCHED : Nat := 0x600008
abbrev fMEM_SCHED_SCHED_DISC : Fld := ⟨48, 16⟩
abbrev fMEM_SCHED_HIT_RUN : Fld := ⟨32, 4⟩
abbrev fMEM_SCHED_WR_LOW : Fld := ⟨24, 8⟩
abbrev fMEM_SCHED_WR_HIGH : Fld := ⟨16, 8⟩
abbrev fMEM_SCHED_AGE_US : Fld := ⟨0, 16⟩
/-- MEM_REFRESH, R395 (`17_memory_controller.md`). -/
abbrev rMEM_REFRESH : Nat := 0x600010
abbrev fMEM_REFRESH_POLL_MS : Fld := ⟨8, 8⟩
abbrev fMEM_REFRESH_POSTPONE_MAX : Fld := ⟨0, 4⟩
/-- MEM_RETRAIN, R395 (`17_memory_controller.md`). -/
abbrev rMEM_RETRAIN : Nat := 0x600018
abbrev fMEM_RETRAIN_PERIOD_MS : Fld := ⟨0, 16⟩
/-- MEM_SCRUB, R395 (`17_memory_controller.md`). -/
abbrev rMEM_SCRUB : Nat := 0x600020
abbrev fMEM_SCRUB_EN : Fld := ⟨63, 1⟩
abbrev fMEM_SCRUB_CLEARED : Fld := ⟨32, 16⟩
abbrev fMEM_SCRUB_PASSES : Fld := ⟨16, 16⟩
abbrev fMEM_SCRUB_PROGRESS : Fld := ⟨8, 8⟩
abbrev fMEM_SCRUB_HOURS : Fld := ⟨0, 8⟩
/-- MEM_CH_STATUS, R395 (`17_memory_controller.md`). -/
abbrev rMEM_CH_STATUS (i : Nat) : Nat := 0x600100 + 0x8 * i
abbrev fMEM_CH_STATUS_FORCED : Fld := ⟨32, 32⟩
abbrev fMEM_CH_STATUS_RETRAIN_FAIL : Fld := ⟨16, 16⟩
abbrev fMEM_CH_STATUS_FAILED : Fld := ⟨9, 1⟩
abbrev fMEM_CH_STATUS_TRAINED : Fld := ⟨8, 1⟩
abbrev fMEM_CH_STATUS_POSTPONED : Fld := ⟨4, 4⟩
abbrev fMEM_CH_STATUS_MR4 : Fld := ⟨0, 3⟩
/-- MEM_CH_ECC, R395 (`17_memory_controller.md`). -/
abbrev rMEM_CH_ECC (i : Nat) : Nat := 0x600200 + 0x8 * i
abbrev fMEM_CH_ECC_UE : Fld := ⟨32, 32⟩
abbrev fMEM_CH_ECC_CE : Fld := ⟨0, 32⟩
/-- MEM_UE_SNAP, R395 (`17_memory_controller.md`). -/
abbrev rMEM_UE_SNAP : Nat := 0x600300
abbrev fMEM_UE_SNAP_SEQ : Fld := ⟨32, 32⟩
abbrev fMEM_UE_SNAP_SNAP : Fld := ⟨0, 1⟩
/-- MEM_UE0, R395 (`17_memory_controller.md`). -/
abbrev rMEM_UE0 : Nat := 0x600308
abbrev fMEM_UE0_OFFSET : Fld := ⟨0, 64⟩
/-- MEM_UE1, R395 (`17_memory_controller.md`). -/
abbrev rMEM_UE1 : Nat := 0x600310
abbrev fMEM_UE1_LINES : Fld := ⟨32, 4⟩
abbrev fMEM_UE1_SOURCE : Fld := ⟨28, 2⟩
abbrev fMEM_UE1_ROW : Fld := ⟨8, 16⟩
abbrev fMEM_UE1_BANK : Fld := ⟨5, 3⟩
abbrev fMEM_UE1_CH : Fld := ⟨0, 5⟩
/-- MEM_UE2, R395 (`17_memory_controller.md`). -/
abbrev rMEM_UE2 : Nat := 0x600318
abbrev fMEM_UE2_TIME : Fld := ⟨0, 64⟩
/-- CMP_CFG, R413 (`18_compression.md`). -/
abbrev rCMP_CFG (i : Nat) : Nat := 0x700000 + 0x1000 * i
abbrev fCMP_CFG_USED : Fld := ⟨63, 1⟩
abbrev fCMP_CFG_DIR : Fld := ⟨62, 1⟩
abbrev fCMP_CFG_MODE : Fld := ⟨61, 1⟩
abbrev fCMP_CFG_SRC : Fld := ⟨48, 7⟩
abbrev fCMP_CFG_FMT : Fld := ⟨0, 2⟩
/-- CMP_STREAM, R413 (`18_compression.md`). -/
abbrev rCMP_STREAM (i : Nat) : Nat := 0x700008 + 0x1000 * i
abbrev fCMP_STREAM_FLUSH : Fld := ⟨63, 1⟩
abbrev fCMP_STREAM_RECBLK : Fld := ⟨32, 16⟩
abbrev fCMP_STREAM_TABLE : Fld := ⟨12, 2⟩
abbrev fCMP_STREAM_KIND : Fld := ⟨8, 1⟩
abbrev fCMP_STREAM_PRED : Fld := ⟨4, 2⟩
abbrev fCMP_STREAM_M : Fld := ⟨0, 4⟩
/-- CMP_JOB_MODE, R413 (`18_compression.md`). -/
abbrev rCMP_JOB_MODE (i : Nat) : Nat := 0x700010 + 0x1000 * i
abbrev fCMP_JOB_MODE_SRC_CNV : Fld := ⟨19, 1⟩
abbrev fCMP_JOB_MODE_DIR : Fld := ⟨18, 1⟩
abbrev fCMP_JOB_MODE_MODE : Fld := ⟨17, 1⟩
abbrev fCMP_JOB_MODE_FMT : Fld := ⟨14, 2⟩
abbrev fCMP_JOB_MODE_TABLE : Fld := ⟨12, 2⟩
abbrev fCMP_JOB_MODE_KIND : Fld := ⟨8, 1⟩
abbrev fCMP_JOB_MODE_PRED : Fld := ⟨4, 2⟩
abbrev fCMP_JOB_MODE_M : Fld := ⟨0, 4⟩
/-- CMP_JOB_SRC, R413 (`18_compression.md`). -/
abbrev rCMP_JOB_SRC (i : Nat) : Nat := 0x700018 + 0x1000 * i
abbrev fCMP_JOB_SRC_ADDR : Fld := ⟨6, 58⟩
/-- CMP_JOB_DST, R413 (`18_compression.md`). -/
abbrev rCMP_JOB_DST (i : Nat) : Nat := 0x700020 + 0x1000 * i
abbrev fCMP_JOB_DST_ADDR : Fld := ⟨6, 58⟩
/-- CMP_JOB_LEN, R413 (`18_compression.md`). -/
abbrev rCMP_JOB_LEN (i : Nat) : Nat := 0x700028 + 0x1000 * i
abbrev fCMP_JOB_LEN_DST_LEN : Fld := ⟨32, 32⟩
abbrev fCMP_JOB_LEN_SRC_LEN : Fld := ⟨0, 32⟩
/-- CMP_JOB_CTRL, R413 (`18_compression.md`). -/
abbrev rCMP_JOB_CTRL (i : Nat) : Nat := 0x700030 + 0x1000 * i
abbrev fCMP_JOB_CTRL_GO : Fld := ⟨63, 1⟩
abbrev fCMP_JOB_CTRL_ABORT : Fld := ⟨62, 1⟩
abbrev fCMP_JOB_CTRL_RESUME : Fld := ⟨61, 1⟩
/-- CMP_JOB_STATUS, R413 (`18_compression.md`). -/
abbrev rCMP_JOB_STATUS (i : Nat) : Nat := 0x700038 + 0x1000 * i
abbrev fCMP_JOB_STATUS_CAUSE : Fld := ⟨12, 4⟩
abbrev fCMP_JOB_STATUS_REASON : Fld := ⟨8, 4⟩
abbrev fCMP_JOB_STATUS_RESULT : Fld := ⟨4, 2⟩
abbrev fCMP_JOB_STATUS_STATE : Fld := ⟨0, 2⟩
/-- CMP_JOB_COUNT, R413 (`18_compression.md`). -/
abbrev rCMP_JOB_COUNT (i : Nat) : Nat := 0x700040 + 0x1000 * i
abbrev fCMP_JOB_COUNT_OUT_DONE : Fld := ⟨32, 32⟩
abbrev fCMP_JOB_COUNT_IN_DONE : Fld := ⟨0, 32⟩
/-- CMP_STAT, R413 (`18_compression.md`). -/
abbrev rCMP_STAT (i : Nat) : Nat := 0x700048 + 0x1000 * i
abbrev fCMP_STAT_DECODE_ERR : Fld := ⟨32, 32⟩
abbrev fCMP_STAT_TAB_DISC : Fld := ⟨16, 16⟩
abbrev fCMP_STAT_CMD_DISC : Fld := ⟨0, 16⟩
/-- CMP_BLOCKS, R413 (`18_compression.md`). -/
abbrev rCMP_BLOCKS (i : Nat) : Nat := 0x700050 + 0x1000 * i
abbrev fCMP_BLOCKS_STORED : Fld := ⟨32, 32⟩
abbrev fCMP_BLOCKS_BLOCKS : Fld := ⟨0, 32⟩
/-- CMP_TAB, R413 (`18_compression.md`). -/
abbrev rCMP_TAB (i j k : Nat) : Nat := 0x700100 + 0x1000 * i + 0x10 * j + 0x8 * k
abbrev fCMP_TAB_LEN : Fld := ⟨0, 64⟩
/-- GLB_HIF_LINK, R435 (`19_host_interface.md`). -/
abbrev rGLB_HIF_LINK : Nat := 0x2000
abbrev fGLB_HIF_LINK_RETRAINS : Fld := ⟨48, 16⟩
abbrev fGLB_HIF_LINK_DOWNS : Fld := ⟨32, 16⟩
abbrev fGLB_HIF_LINK_RATE : Fld := ⟨8, 3⟩
abbrev fGLB_HIF_LINK_WIDTH : Fld := ⟨4, 2⟩
abbrev fGLB_HIF_LINK_CXL : Fld := ⟨0, 1⟩
/-- GLB_HIF_CTO, R435 (`19_host_interface.md`). -/
abbrev rGLB_HIF_CTO : Nat := 0x2008
abbrev fGLB_HIF_CTO_CTO_CACHE : Fld := ⟨32, 32⟩
abbrev fGLB_HIF_CTO_CTO_IO : Fld := ⟨0, 32⟩
/-- GLB_HIF_ERR, R435 (`19_host_interface.md`). -/
abbrev rGLB_HIF_ERR : Nat := 0x2010
abbrev fGLB_HIF_ERR_POISON_RX : Fld := ⟨48, 16⟩
abbrev fGLB_HIF_ERR_UR : Fld := ⟨32, 16⟩
abbrev fGLB_HIF_ERR_MEM_WR_DISC : Fld := ⟨16, 16⟩
abbrev fGLB_HIF_ERR_DEVBIAS_RD : Fld := ⟨0, 16⟩
/-- GLB_HIF_ACCESS, R435 (`19_host_interface.md`). -/
abbrev rGLB_HIF_ACCESS : Nat := 0x2018
abbrev fGLB_HIF_ACCESS_DB_DISC : Fld := ⟨48, 16⟩
abbrev fGLB_HIF_ACCESS_RSVD_WR : Fld := ⟨16, 16⟩
abbrev fGLB_HIF_ACCESS_RSVD_RD : Fld := ⟨0, 16⟩
/-- GLB_HIF_BIAS, R435 (`19_host_interface.md`). -/
abbrev rGLB_HIF_BIAS : Nat := 0x2020
abbrev fGLB_HIF_BIAS_TO_DEVICE : Fld := ⟨32, 32⟩
abbrev fGLB_HIF_BIAS_TO_HOST : Fld := ⟨0, 32⟩
/-- GLB_HIF_RESET, R435 (`19_host_interface.md`). -/
abbrev rGLB_HIF_RESET : Nat := 0x2028
abbrev fGLB_HIF_RESET_CXL_RESETS : Fld := ⟨48, 16⟩
abbrev fGLB_HIF_RESET_FLRS : Fld := ⟨32, 16⟩
abbrev fGLB_HIF_RESET_LAST : Fld := ⟨0, 2⟩
/-- DMA_CFG, R453 (`20_dma.md`). -/
abbrev rDMA_CFG (i : Nat) : Nat := 0x800000 + 0x1000 * i
abbrev fDMA_CFG_IDLE_US : Fld := ⟨56, 8⟩
abbrev fDMA_CFG_EFF_PRIO : Fld := ⟨48, 2⟩
abbrev fDMA_CFG_TAKE_VALID : Fld := ⟨44, 1⟩
abbrev fDMA_CFG_TAKE_CTX : Fld := ⟨32, 12⟩
abbrev fDMA_CFG_GIVE_VALID : Fld := ⟨28, 1⟩
abbrev fDMA_CFG_GIVE_CTX : Fld := ⟨16, 12⟩
abbrev fDMA_CFG_PRIORITY : Fld := ⟨0, 2⟩
/-- DMA_HEAD, R453 (`20_dma.md`). -/
abbrev rDMA_HEAD (i : Nat) : Nat := 0x800008 + 0x1000 * i
abbrev fDMA_HEAD_ADDR : Fld := ⟨6, 58⟩
abbrev fDMA_HEAD_STORE : Fld := ⟨1, 1⟩
/-- DMA_CTRL, R453 (`20_dma.md`). -/
abbrev rDMA_CTRL (i : Nat) : Nat := 0x800010 + 0x1000 * i
abbrev fDMA_CTRL_START : Fld := ⟨63, 1⟩
abbrev fDMA_CTRL_ABORT : Fld := ⟨62, 1⟩
/-- DMA_STATUS, R453 (`20_dma.md`). -/
abbrev rDMA_STATUS (i : Nat) : Nat := 0x800018 + 0x1000 * i
abbrev fDMA_STATUS_DESCS : Fld := ⟨32, 32⟩
abbrev fDMA_STATUS_CFG_DISC : Fld := ⟨24, 8⟩
abbrev fDMA_STATUS_LAST : Fld := ⟨16, 8⟩
abbrev fDMA_STATUS_STATE : Fld := ⟨0, 3⟩
/-- DMA_ERR, R453 (`20_dma.md`). -/
abbrev rDMA_ERR (i : Nat) : Nat := 0x800020 + 0x1000 * i
abbrev fDMA_ERR_ADDR : Fld := ⟨6, 58⟩
abbrev fDMA_ERR_STORE : Fld := ⟨0, 1⟩
/-- DMA_ERR_INFO, R453 (`20_dma.md`). -/
abbrev rDMA_ERR_INFO (i : Nat) : Nat := 0x800028 + 0x1000 * i
abbrev fDMA_ERR_INFO_BEAT : Fld := ⟨32, 32⟩
abbrev fDMA_ERR_INFO_BYTES : Fld := ⟨0, 32⟩
/-- DMA_BYTES, R453 (`20_dma.md`). -/
abbrev rDMA_BYTES (i : Nat) : Nat := 0x800030 + 0x1000 * i
abbrev fDMA_BYTES_BYTES : Fld := ⟨0, 64⟩
/-- DMA_LIMIT, R453 (`20_dma.md`). -/
abbrev rDMA_LIMIT (i : Nat) : Nat := 0x800038 + 0x1000 * i
abbrev fDMA_LIMIT_COUNT : Fld := ⟨32, 32⟩
abbrev fDMA_LIMIT_LIMIT : Fld := ⟨0, 32⟩
/-- DMA_GSTAT, R453 (`20_dma.md`). -/
abbrev rDMA_GSTAT : Nat := 0x880000
abbrev fDMA_GSTAT_PREEMPTS : Fld := ⟨32, 32⟩
abbrev fDMA_GSTAT_ACTIVE : Fld := ⟨0, 8⟩
/-- NET_PORT_CFG, R484 (`21_network_and_avenue.md`). -/
abbrev rNET_PORT_CFG (i : Nat) : Nat := 0x900000 + 0x1000 * i
abbrev fNET_PORT_CFG_AN_EN : Fld := ⟨63, 1⟩
abbrev fNET_PORT_CFG_LT_EN : Fld := ⟨62, 1⟩
abbrev fNET_PORT_CFG_CR : Fld := ⟨61, 1⟩
abbrev fNET_PORT_CFG_MODE : Fld := ⟨0, 3⟩
/-- NET_PORT_FEC, R484 (`21_network_and_avenue.md`). -/
abbrev rNET_PORT_FEC (i : Nat) : Nat := 0x900008 + 0x1000 * i
abbrev fNET_PORT_FEC_FEC_UNCORR : Fld := ⟨32, 32⟩
abbrev fNET_PORT_FEC_FEC_CORR : Fld := ⟨0, 32⟩
/-- NET_SUB_CFG, R484 (`21_network_and_avenue.md`). -/
abbrev rNET_SUB_CFG (i : Nat) : Nat := 0x908000 + 0x100 * i
abbrev fNET_SUB_CFG_MCAST : Fld := ⟨63, 1⟩
abbrev fNET_SUB_CFG_PAUSE_RX : Fld := ⟨62, 1⟩
abbrev fNET_SUB_CFG_PFC_RX : Fld := ⟨61, 1⟩
abbrev fNET_SUB_CFG_PFC_PRIO : Fld := ⟨58, 3⟩
abbrev fNET_SUB_CFG_MAX_FRAME : Fld := ⟨0, 14⟩
/-- NET_SUB_MAC, R484 (`21_network_and_avenue.md`). -/
abbrev rNET_SUB_MAC (i : Nat) : Nat := 0x908008 + 0x100 * i
abbrev fNET_SUB_MAC_MAC : Fld := ⟨0, 48⟩
/-- NET_SUB_IPV4, R484 (`21_network_and_avenue.md`). -/
abbrev rNET_SUB_IPV4 (i : Nat) : Nat := 0x908010 + 0x100 * i
abbrev fNET_SUB_IPV4_ADDR : Fld := ⟨0, 32⟩
/-- NET_SUB_IPV6, R484 (`21_network_and_avenue.md`). -/
abbrev rNET_SUB_IPV6 (i j : Nat) : Nat := 0x908018 + 0x100 * i + 0x8 * j
abbrev fNET_SUB_IPV6_ADDR : Fld := ⟨0, 64⟩
/-- NET_SUB_STATUS, R484 (`21_network_and_avenue.md`). -/
abbrev rNET_SUB_STATUS (i : Nat) : Nat := 0x908028 + 0x100 * i
abbrev fNET_SUB_STATUS_PAUSED_US : Fld := ⟨32, 32⟩
abbrev fNET_SUB_STATUS_DOWNS : Fld := ⟨16, 16⟩
abbrev fNET_SUB_STATUS_SPEED : Fld := ⟨1, 2⟩
abbrev fNET_SUB_STATUS_LINK : Fld := ⟨0, 1⟩
/-- NET_SUB_CNT0, R484 (`21_network_and_avenue.md`). -/
abbrev rNET_SUB_CNT0 (i : Nat) : Nat := 0x908030 + 0x100 * i
abbrev fNET_SUB_CNT0_RX_FRAMES : Fld := ⟨32, 32⟩
abbrev fNET_SUB_CNT0_TX_FRAMES : Fld := ⟨0, 32⟩
/-- NET_SUB_CNT1, R484 (`21_network_and_avenue.md`). -/
abbrev rNET_SUB_CNT1 (i : Nat) : Nat := 0x908038 + 0x100 * i
abbrev fNET_SUB_CNT1_RX_ERR : Fld := ⟨48, 16⟩
abbrev fNET_SUB_CNT1_CSUM_ERR : Fld := ⟨32, 16⟩
abbrev fNET_SUB_CNT1_EXQ_DROP : Fld := ⟨16, 16⟩
abbrev fNET_SUB_CNT1_TX_BAD : Fld := ⟨0, 16⟩
/-- NET_EXQ_RX, R484 (`21_network_and_avenue.md`). -/
abbrev rNET_EXQ_RX (i : Nat) : Nat := 0x908040 + 0x100 * i
abbrev fNET_EXQ_RX_ADDR : Fld := ⟨6, 58⟩
abbrev fNET_EXQ_RX_LOG2 : Fld := ⟨0, 4⟩
/-- NET_EXQ_RX_IDX, R484 (`21_network_and_avenue.md`). -/
abbrev rNET_EXQ_RX_IDX (i : Nat) : Nat := 0x908048 + 0x100 * i
abbrev fNET_EXQ_RX_IDX_WRITTEN : Fld := ⟨32, 16⟩
abbrev fNET_EXQ_RX_IDX_RELEASED : Fld := ⟨16, 16⟩
abbrev fNET_EXQ_RX_IDX_RELEASE : Fld := ⟨0, 16⟩
/-- NET_EXQ_TX, R484 (`21_network_and_avenue.md`). -/
abbrev rNET_EXQ_TX (i : Nat) : Nat := 0x908050 + 0x100 * i
abbrev fNET_EXQ_TX_ADDR : Fld := ⟨6, 58⟩
abbrev fNET_EXQ_TX_LOG2 : Fld := ⟨0, 4⟩
/-- NET_EXQ_TX_IDX, R484 (`21_network_and_avenue.md`). -/
abbrev rNET_EXQ_TX_IDX (i : Nat) : Nat := 0x908058 + 0x100 * i
abbrev fNET_EXQ_TX_IDX_DONE_IDX : Fld := ⟨32, 16⟩
abbrev fNET_EXQ_TX_IDX_TAIL : Fld := ⟨0, 16⟩
/-- AVE_CFG, R484 (`21_network_and_avenue.md`). -/
abbrev rAVE_CFG (i : Nat) : Nat := 0xa00000 + 0x80 * i
abbrev fAVE_CFG_TRIG_EN : Fld := ⟨63, 1⟩
abbrev fAVE_CFG_IPV6 : Fld := ⟨62, 1⟩
abbrev fAVE_CFG_ROLE : Fld := ⟨61, 1⟩
abbrev fAVE_CFG_DIR : Fld := ⟨60, 1⟩
abbrev fAVE_CFG_SUB : Fld := ⟨56, 4⟩
abbrev fAVE_CFG_CONTEXT : Fld := ⟨44, 12⟩
abbrev fAVE_CFG_PARTNER_AVE : Fld := ⟨32, 12⟩
abbrev fAVE_CFG_PARTNER_DEVID : Fld := ⟨16, 16⟩
abbrev fAVE_CFG_PARTNER_PORT : Fld := ⟨0, 16⟩
/-- AVE_MAC, R484 (`21_network_and_avenue.md`). -/
abbrev rAVE_MAC (i : Nat) : Nat := 0xa00008 + 0x80 * i
abbrev fAVE_MAC_MAC : Fld := ⟨0, 48⟩
/-- AVE_IP0, R484 (`21_network_and_avenue.md`). -/
abbrev rAVE_IP0 (i : Nat) : Nat := 0xa00010 + 0x80 * i
abbrev fAVE_IP0_ADDR : Fld := ⟨0, 64⟩
/-- AVE_IP1, R484 (`21_network_and_avenue.md`). -/
abbrev rAVE_IP1 (i : Nat) : Nat := 0xa00018 + 0x80 * i
abbrev fAVE_IP1_ADDR : Fld := ⟨0, 64⟩
/-- AVE_PARAM, R484 (`21_network_and_avenue.md`). -/
abbrev rAVE_PARAM (i : Nat) : Nat := 0xa00020 + 0x80 * i
abbrev fAVE_PARAM_RETRY_MAX : Fld := ⟨56, 8⟩
abbrev fAVE_PARAM_VIOL_MAX : Fld := ⟨48, 8⟩
abbrev fAVE_PARAM_RTO_US : Fld := ⟨32, 16⟩
abbrev fAVE_PARAM_DEAD_MS : Fld := ⟨16, 16⟩
abbrev fAVE_PARAM_WINDOW : Fld := ⟨0, 16⟩
/-- AVE_CMD, R484 (`21_network_and_avenue.md`). -/
abbrev rAVE_CMD (i : Nat) : Nat := 0xa00028 + 0x80 * i
abbrev fAVE_CMD_CMD : Fld := ⟨0, 3⟩
/-- AVE_STATUS, R484 (`21_network_and_avenue.md`). -/
abbrev rAVE_STATUS (i : Nat) : Nat := 0xa00030 + 0x80 * i
abbrev fAVE_STATUS_VIOL : Fld := ⟨48, 16⟩
abbrev fAVE_STATUS_QUARANTINES : Fld := ⟨32, 16⟩
abbrev fAVE_STATUS_REASON : Fld := ⟨16, 8⟩
abbrev fAVE_STATUS_LAST_VIOL : Fld := ⟨8, 4⟩
abbrev fAVE_STATUS_STATE : Fld := ⟨0, 3⟩
/-- AVE_SNAP, R484 (`21_network_and_avenue.md`). -/
abbrev rAVE_SNAP (i : Nat) : Nat := 0xa00038 + 0x80 * i
abbrev fAVE_SNAP_SEQ : Fld := ⟨32, 32⟩
abbrev fAVE_SNAP_SNAP : Fld := ⟨0, 1⟩
/-- AVE_OFS0, R484 (`21_network_and_avenue.md`). -/
abbrev rAVE_OFS0 (i : Nat) : Nat := 0xa00040 + 0x80 * i
abbrev fAVE_OFS0_NEXT : Fld := ⟨0, 64⟩
/-- AVE_OFS1, R484 (`21_network_and_avenue.md`). -/
abbrev rAVE_OFS1 (i : Nat) : Nat := 0xa00048 + 0x80 * i
abbrev fAVE_OFS1_ACKED : Fld := ⟨0, 64⟩
/-- AVE_OFS2, R484 (`21_network_and_avenue.md`). -/
abbrev rAVE_OFS2 (i : Nat) : Nat := 0xa00050 + 0x80 * i
abbrev fAVE_OFS2_LIMIT : Fld := ⟨0, 64⟩
/-- AVE_CNT0, R484 (`21_network_and_avenue.md`). -/
abbrev rAVE_CNT0 (i : Nat) : Nat := 0xa00058 + 0x80 * i
abbrev fAVE_CNT0_RETX : Fld := ⟨32, 32⟩
abbrev fAVE_CNT0_PACKETS : Fld := ⟨0, 32⟩
/-- AVE_CNT1, R484 (`21_network_and_avenue.md`). -/
abbrev rAVE_CNT1 (i : Nat) : Nat := 0xa00060 + 0x80 * i
abbrev fAVE_CNT1_DUP : Fld := ⟨48, 16⟩
abbrev fAVE_CNT1_LATE_RX : Fld := ⟨32, 16⟩
abbrev fAVE_CNT1_QDROP : Fld := ⟨16, 16⟩
abbrev fAVE_CNT1_POOL_DROP : Fld := ⟨0, 16⟩
/-- AVE_GLOBAL, R484 (`21_network_and_avenue.md`). -/
abbrev rAVE_GLOBAL : Nat := 0xa80000
abbrev fAVE_GLOBAL_LOCAL_PORT : Fld := ⟨48, 16⟩
abbrev fAVE_GLOBAL_ACK_US : Fld := ⟨32, 16⟩
abbrev fAVE_GLOBAL_NAK_GAP_US : Fld := ⟨16, 16⟩
abbrev fAVE_GLOBAL_TX_DISC : Fld := ⟨0, 16⟩
/-- AVE_UNATTR, R484 (`21_network_and_avenue.md`). -/
abbrev rAVE_UNATTR (i : Nat) : Nat := 0xa80100 + 0x8 * i
abbrev fAVE_UNATTR_NO_AVENUE : Fld := ⟨32, 32⟩
abbrev fAVE_UNATTR_BAD_NONCE : Fld := ⟨16, 16⟩
abbrev fAVE_UNATTR_BAD_HEADER : Fld := ⟨0, 16⟩
/-- AVE_TRIG, R484 (`21_network_and_avenue.md`). -/
abbrev rAVE_TRIG (i : Nat) : Nat := 0xa80200 + 0x8 * i
abbrev fAVE_TRIG_EN : Fld := ⟨63, 1⟩
abbrev fAVE_TRIG_PENDING : Fld := ⟨32, 5⟩
abbrev fAVE_TRIG_HORIZON : Fld := ⟨0, 32⟩
/-- AVE_TRIG_STAT, R484 (`21_network_and_avenue.md`). -/
abbrev rAVE_TRIG_STAT (i : Nat) : Nat := 0xa80220 + 0x8 * i
abbrev fAVE_TRIG_STAT_LATE : Fld := ⟨32, 32⟩
abbrev fAVE_TRIG_STAT_DROP : Fld := ⟨16, 16⟩
abbrev fAVE_TRIG_STAT_UNACKED : Fld := ⟨0, 16⟩
/-- AVE_TRIG_SEND, R484 (`21_network_and_avenue.md`). -/
abbrev rAVE_TRIG_SEND : Nat := 0xa80300
abbrev fAVE_TRIG_SEND_GO : Fld := ⟨63, 1⟩
abbrev fAVE_TRIG_SEND_SLOT : Fld := ⟨48, 2⟩
abbrev fAVE_TRIG_SEND_AVENUE : Fld := ⟨32, 12⟩
abbrev fAVE_TRIG_SEND_FRAC : Fld := ⟨0, 16⟩
/-- AVE_TRIG_SEND_TIME, R484 (`21_network_and_avenue.md`). -/
abbrev rAVE_TRIG_SEND_TIME : Nat := 0xa80308
abbrev fAVE_TRIG_SEND_TIME_TIME : Fld := ⟨0, 64⟩
/-- AVE_TRIG_FWD, R484 (`21_network_and_avenue.md`). -/
abbrev rAVE_TRIG_FWD (i : Nat) : Nat := 0xa80340 + 0x10 * i
abbrev fAVE_TRIG_FWD_EN : Fld := ⟨63, 1⟩
abbrev fAVE_TRIG_FWD_QUAL : Fld := ⟨56, 4⟩
abbrev fAVE_TRIG_FWD_SLOT : Fld := ⟨48, 2⟩
abbrev fAVE_TRIG_FWD_AVENUE : Fld := ⟨32, 12⟩
/-- AVE_TRIG_FWD_OFS, R484 (`21_network_and_avenue.md`). -/
abbrev rAVE_TRIG_FWD_OFS (i : Nat) : Nat := 0xa80348 + 0x10 * i
abbrev fAVE_TRIG_FWD_OFS_OFFSET : Fld := ⟨0, 32⟩
/-- DIS_CTRL, R498 (`22_display.md`). -/
abbrev rDIS_CTRL (i : Nat) : Nat := 0xb00000 + 0x10000 * i
abbrev fDIS_CTRL_COMMIT : Fld := ⟨63, 1⟩
abbrev fDIS_CTRL_EN : Fld := ⟨62, 1⟩
abbrev fDIS_CTRL_OVL_EN : Fld := ⟨61, 1⟩
abbrev fDIS_CTRL_DEN_EN : Fld := ⟨60, 1⟩
abbrev fDIS_CTRL_HPOL : Fld := ⟨59, 1⟩
abbrev fDIS_CTRL_VPOL : Fld := ⟨58, 1⟩
abbrev fDIS_CTRL_REASON : Fld := ⟨36, 4⟩
abbrev fDIS_CTRL_RESULT : Fld := ⟨34, 2⟩
abbrev fDIS_CTRL_STATE : Fld := ⟨32, 2⟩
abbrev fDIS_CTRL_BG : Fld := ⟨0, 24⟩
/-- DIS_HTIM, R498 (`22_display.md`). -/
abbrev rDIS_HTIM (i : Nat) : Nat := 0xb00008 + 0x10000 * i
abbrev fDIS_HTIM_HACT : Fld := ⟨48, 16⟩
abbrev fDIS_HTIM_HFP : Fld := ⟨32, 16⟩
abbrev fDIS_HTIM_HSYNC : Fld := ⟨16, 16⟩
abbrev fDIS_HTIM_HBP : Fld := ⟨0, 16⟩
/-- DIS_VTIM, R498 (`22_display.md`). -/
abbrev rDIS_VTIM (i : Nat) : Nat := 0xb00010 + 0x10000 * i
abbrev fDIS_VTIM_VACT : Fld := ⟨48, 16⟩
abbrev fDIS_VTIM_VFP : Fld := ⟨32, 16⟩
abbrev fDIS_VTIM_VSYNC : Fld := ⟨16, 16⟩
abbrev fDIS_VTIM_VBP : Fld := ⟨0, 16⟩
/-- DIS_LAYER, R498 (`22_display.md`). -/
abbrev rDIS_LAYER (i : Nat) : Nat := 0xb00018 + 0x10000 * i
abbrev fDIS_LAYER_PAL_SEL : Fld := ⟨32, 1⟩
abbrev fDIS_LAYER_FMT : Fld := ⟨24, 2⟩
abbrev fDIS_LAYER_PSHIFT : Fld := ⟨16, 5⟩
abbrev fDIS_LAYER_STRIDE : Fld := ⟨0, 16⟩
/-- DIS_RECT, R498 (`22_display.md`). -/
abbrev rDIS_RECT (i j : Nat) : Nat := 0xb00020 + 0x10000 * i + 0x8 * j
abbrev fDIS_RECT_X : Fld := ⟨48, 16⟩
abbrev fDIS_RECT_Y : Fld := ⟨32, 16⟩
abbrev fDIS_RECT_W : Fld := ⟨16, 16⟩
abbrev fDIS_RECT_H : Fld := ⟨0, 16⟩
/-- DIS_LINK, R498 (`22_display.md`). -/
abbrev rDIS_LINK (i : Nat) : Nat := 0xb00030 + 0x10000 * i
abbrev fDIS_LINK_LINK_FAIL : Fld := ⟨48, 16⟩
abbrev fDIS_LINK_RETRAINS : Fld := ⟨32, 16⟩
abbrev fDIS_LINK_TRAINED : Fld := ⟨13, 1⟩
abbrev fDIS_LINK_HPD : Fld := ⟨12, 1⟩
abbrev fDIS_LINK_RATE : Fld := ⟨10, 2⟩
abbrev fDIS_LINK_LANES : Fld := ⟨8, 2⟩
abbrev fDIS_LINK_MAX_RATE : Fld := ⟨2, 2⟩
abbrev fDIS_LINK_MAX_LANES : Fld := ⟨0, 2⟩
/-- DIS_STAT, R498 (`22_display.md`). -/
abbrev rDIS_STAT (i : Nat) : Nat := 0xb00038 + 0x10000 * i
abbrev fDIS_STAT_UNDERFLOW : Fld := ⟨32, 32⟩
abbrev fDIS_STAT_PAL_DISC : Fld := ⟨16, 16⟩
abbrev fDIS_STAT_BLANKS : Fld := ⟨0, 16⟩
/-- DIS_LSTAT, R498 (`22_display.md`). -/
abbrev rDIS_LSTAT (i j : Nat) : Nat := 0xb00040 + 0x10000 * i + 0x8 * j
abbrev fDIS_LSTAT_BOUND : Fld := ⟨63, 1⟩
abbrev fDIS_LSTAT_CONTEXT : Fld := ⟨48, 12⟩
abbrev fDIS_LSTAT_DROPPED : Fld := ⟨32, 16⟩
abbrev fDIS_LSTAT_LATCHED : Fld := ⟨0, 32⟩
/-- DIS_AUX, R498 (`22_display.md`). -/
abbrev rDIS_AUX (i : Nat) : Nat := 0xb00050 + 0x10000 * i
abbrev fDIS_AUX_GO : Fld := ⟨63, 1⟩
abbrev fDIS_AUX_RESULT : Fld := ⟨60, 3⟩
abbrev fDIS_AUX_CMD : Fld := ⟨56, 4⟩
abbrev fDIS_AUX_LEN : Fld := ⟨52, 4⟩
abbrev fDIS_AUX_ADDR : Fld := ⟨0, 20⟩
/-- DIS_AUX_DATA, R498 (`22_display.md`). -/
abbrev rDIS_AUX_DATA (i j : Nat) : Nat := 0xb00058 + 0x10000 * i + 0x8 * j
abbrev fDIS_AUX_DATA_DATA : Fld := ⟨0, 64⟩
/-- DIS_PAL, R498 (`22_display.md`). -/
abbrev rDIS_PAL (i j k : Nat) : Nat := 0xb08000 + 0x10000 * i + 0x2000 * j + 0x8 * k
abbrev fDIS_PAL_ARGB : Fld := ⟨0, 32⟩
/-- STK_STATUS, R521 (`23_stoker_boot_security.md`). -/
abbrev rSTK_STATUS : Nat := 0xc00000
abbrev fSTK_STATUS_MAX_SPAN : Fld := ⟨32, 16⟩
abbrev fSTK_STATUS_CS_CE : Fld := ⟨16, 16⟩
abbrev fSTK_STATUS_STATE : Fld := ⟨0, 3⟩
/-- STK_CMD, R521 (`23_stoker_boot_security.md`). -/
abbrev rSTK_CMD : Nat := 0xc00008
abbrev fSTK_CMD_CMD : Fld := ⟨0, 8⟩
/-- STK_ARG, R521 (`23_stoker_boot_security.md`). -/
abbrev rSTK_ARG (i : Nat) : Nat := 0xc00010 + 0x8 * i
abbrev fSTK_ARG_VALUE : Fld := ⟨0, 64⟩
/-- STK_QUEUE, R521 (`23_stoker_boot_security.md`). -/
abbrev rSTK_QUEUE : Nat := 0xc00030
abbrev fSTK_QUEUE_NEXT_TICKET : Fld := ⟨48, 16⟩
abbrev fSTK_QUEUE_DONE_TICKET : Fld := ⟨32, 16⟩
abbrev fSTK_QUEUE_REFUSED : Fld := ⟨16, 16⟩
abbrev fSTK_QUEUE_DEPTH : Fld := ⟨0, 5⟩
/-- STK_CANCEL, R521 (`23_stoker_boot_security.md`). -/
abbrev rSTK_CANCEL : Nat := 0xc00038
abbrev fSTK_CANCEL_GO : Fld := ⟨63, 1⟩
abbrev fSTK_CANCEL_TICKET : Fld := ⟨0, 16⟩
/-- STK_RESULT, R521 (`23_stoker_boot_security.md`). -/
abbrev rSTK_RESULT (i : Nat) : Nat := 0xc00040 + 0x8 * i
abbrev fSTK_RESULT_TICKET : Fld := ⟨48, 16⟩
abbrev fSTK_RESULT_RESULT : Fld := ⟨40, 3⟩
abbrev fSTK_RESULT_REASON : Fld := ⟨32, 8⟩
abbrev fSTK_RESULT_DETAIL : Fld := ⟨0, 32⟩
/-- SEC_STATUS, R521 (`23_stoker_boot_security.md`). -/
abbrev rSEC_STATUS : Nat := 0xd00000
abbrev fSEC_STATUS_KIND_REASON : Fld := ⟨24, 8⟩
abbrev fSEC_STATUS_PATCH_REASON : Fld := ⟨16, 8⟩
abbrev fSEC_STATUS_FALLBACK : Fld := ⟨9, 1⟩
abbrev fSEC_STATUS_PSLOT : Fld := ⟨7, 2⟩
abbrev fSEC_STATUS_KSLOT : Fld := ⟨6, 1⟩
abbrev fSEC_STATUS_BOOTSEL : Fld := ⟨4, 2⟩
abbrev fSEC_STATUS_KEY_LOCKED : Fld := ⟨3, 1⟩
abbrev fSEC_STATUS_KEY_PROV : Fld := ⟨2, 1⟩
abbrev fSEC_STATUS_SECURE_ARMED : Fld := ⟨1, 1⟩
abbrev fSEC_STATUS_SECURE : Fld := ⟨0, 1⟩
/-- SEC_SVN, R521 (`23_stoker_boot_security.md`). -/
abbrev rSEC_SVN : Nat := 0xd00008
abbrev fSEC_SVN_P_FLOOR : Fld := ⟨40, 8⟩
abbrev fSEC_SVN_K_FLOOR : Fld := ⟨32, 8⟩
abbrev fSEC_SVN_P_SVN : Fld := ⟨16, 16⟩
abbrev fSEC_SVN_K_SVN : Fld := ⟨0, 16⟩
/-- SEC_REV, R521 (`23_stoker_boot_security.md`). -/
abbrev rSEC_REV : Nat := 0xd00010
abbrev fSEC_REV_P_REV : Fld := ⟨32, 32⟩
abbrev fSEC_REV_K_REV : Fld := ⟨0, 32⟩
/-- SEC_SERIAL, R521 (`23_stoker_boot_security.md`). -/
abbrev rSEC_SERIAL : Nat := 0xd00018
abbrev fSEC_SERIAL_SERIAL : Fld := ⟨0, 48⟩
/-- SEC_ID_HASH, R521 (`23_stoker_boot_security.md`). -/
abbrev rSEC_ID_HASH (i : Nat) : Nat := 0xd00020 + 0x8 * i
abbrev fSEC_ID_HASH_HASH : Fld := ⟨0, 64⟩
/-- SEC_PLANKEY_HASH, R521 (`23_stoker_boot_security.md`). -/
abbrev rSEC_PLANKEY_HASH (i : Nat) : Nat := 0xd00050 + 0x8 * i
abbrev fSEC_PLANKEY_HASH_HASH : Fld := ⟨0, 64⟩
/-- SEC_MEAS, R521 (`23_stoker_boot_security.md`). -/
abbrev rSEC_MEAS : Nat := 0xd00080
abbrev fSEC_MEAS_INDEX : Fld := ⟨32, 8⟩
abbrev fSEC_MEAS_GEN : Fld := ⟨0, 32⟩
/-- SEC_SPDM, R521 (`23_stoker_boot_security.md`). -/
abbrev rSEC_SPDM : Nat := 0xd00088
abbrev fSEC_SPDM_ERRORS : Fld := ⟨32, 16⟩
abbrev fSEC_SPDM_REQUESTS : Fld := ⟨0, 32⟩
/-- EVT_CTRL, R541 (`24_events_errors_availability.md`). -/
abbrev rEVT_CTRL : Nat := 0x10000
abbrev fEVT_CTRL_RING_EN : Fld := ⟨63, 1⟩
abbrev fEVT_CTRL_AUTO_RESTART : Fld := ⟨62, 1⟩
abbrev fEVT_CTRL_MOD_US : Fld := ⟨32, 16⟩
abbrev fEVT_CTRL_WD_US : Fld := ⟨16, 16⟩
/-- EVT_RING, R541 (`24_events_errors_availability.md`). -/
abbrev rEVT_RING : Nat := 0x10008
abbrev fEVT_RING_ADDR : Fld := ⟨12, 52⟩
abbrev fEVT_RING_LOG2 : Fld := ⟨0, 5⟩
/-- EVT_RING_IDX, R541 (`24_events_errors_availability.md`). -/
abbrev rEVT_RING_IDX : Nat := 0x10010
abbrev fEVT_RING_IDX_WRITTEN : Fld := ⟨32, 16⟩
abbrev fEVT_RING_IDX_RELEASED : Fld := ⟨16, 16⟩
abbrev fEVT_RING_IDX_RELEASE : Fld := ⟨0, 16⟩
/-- EVT_STAT, R541 (`24_events_errors_availability.md`). -/
abbrev rEVT_STAT : Nat := 0x10018
abbrev fEVT_STAT_LOST : Fld := ⟨32, 32⟩
abbrev fEVT_STAT_RAISED : Fld := ⟨0, 32⟩
/-- EVT_SEQ, R541 (`24_events_errors_availability.md`). -/
abbrev rEVT_SEQ : Nat := 0x10020
abbrev fEVT_SEQ_NEXT : Fld := ⟨0, 64⟩
/-- EVT_SWTEST, R541 (`24_events_errors_availability.md`). -/
abbrev rEVT_SWTEST : Nat := 0x10028
abbrev fEVT_SWTEST_FIRE : Fld := ⟨0, 16⟩
/-- EVT_INJ, R541 (`24_events_errors_availability.md`). -/
abbrev rEVT_INJ : Nat := 0x10030
abbrev fEVT_INJ_GO : Fld := ⟨63, 1⟩
abbrev fEVT_INJ_LOCK : Fld := ⟨62, 1⟩
abbrev fEVT_INJ_RESULT : Fld := ⟨54, 2⟩
abbrev fEVT_INJ_TYPE : Fld := ⟨48, 3⟩
/-- EVT_INJ_ARG, R541 (`24_events_errors_availability.md`). -/
abbrev rEVT_INJ_ARG : Nat := 0x10038
abbrev fEVT_INJ_ARG_ARG : Fld := ⟨0, 64⟩
/-- EVT_RESTART, R541 (`24_events_errors_availability.md`). -/
abbrev rEVT_RESTART : Nat := 0x10040
abbrev fEVT_RESTART_COUNT : Fld := ⟨48, 16⟩
abbrev fEVT_RESTART_LAST_CAUSE : Fld := ⟨32, 8⟩
abbrev fEVT_RESTART_LAST_MS : Fld := ⟨0, 32⟩
/-- EVT_PEND, R541 (`24_events_errors_availability.md`). -/
abbrev rEVT_PEND (i : Nat) : Nat := 0x10100 + 0x8 * i
abbrev fEVT_PEND_STATUS : Fld := ⟨0, 64⟩
/-- EVT_SRC, R541 (`24_events_errors_availability.md`). -/
abbrev rEVT_SRC (i : Nat) : Nat := 0x12000 + 0x8 * i
abbrev fEVT_SRC_COUNT : Fld := ⟨32, 32⟩
abbrev fEVT_SRC_VECTOR : Fld := ⟨10, 11⟩
abbrev fEVT_SRC_SEVERITY : Fld := ⟨8, 2⟩
abbrev fEVT_SRC_EN : Fld := ⟨1, 1⟩
abbrev fEVT_SRC_STATUS : Fld := ⟨0, 1⟩
/-- PWR_RAIL, R565 (`25_package_and_electrical.md`). -/
abbrev rPWR_RAIL (i : Nat) : Nat := 0xe00000 + 0x8 * i
abbrev fPWR_RAIL_CURRENT : Fld := ⟨32, 16⟩
abbrev fPWR_RAIL_HIGH : Fld := ⟨17, 1⟩
abbrev fPWR_RAIL_LOW : Fld := ⟨16, 1⟩
abbrev fPWR_RAIL_MV : Fld := ⟨0, 16⟩
/-- PWR_CTRL, R565 (`25_package_and_electrical.md`). -/
abbrev rPWR_CTRL : Nat := 0xe00100
abbrev fPWR_CTRL_STBY_DISC : Fld := ⟨48, 16⟩
abbrev fPWR_CTRL_SR : Fld := ⟨2, 1⟩
abbrev fPWR_CTRL_SR_EN : Fld := ⟨1, 1⟩
abbrev fPWR_CTRL_CNV_STBY : Fld := ⟨0, 1⟩
/-- PWR_TOTAL, R565 (`25_package_and_electrical.md`). -/
abbrev rPWR_TOTAL : Nat := 0xe00108
abbrev fPWR_TOTAL_PEAK_MW : Fld := ⟨32, 32⟩
abbrev fPWR_TOTAL_MW : Fld := ⟨0, 32⟩
/-- THM_TEMP, R565 (`25_package_and_electrical.md`). -/
abbrev rTHM_TEMP (i : Nat) : Nat := 0xe10000 + 0x8 * i
abbrev fTHM_TEMP_MAX : Fld := ⟨32, 16⟩
abbrev fTHM_TEMP_TEMP : Fld := ⟨0, 16⟩
/-- THM_LIMIT, R565 (`25_package_and_electrical.md`). -/
abbrev rTHM_LIMIT : Nat := 0xe10040
abbrev fTHM_LIMIT_CRIT : Fld := ⟨32, 16⟩
abbrev fTHM_LIMIT_HYST : Fld := ⟨16, 8⟩
abbrev fTHM_LIMIT_ALERT : Fld := ⟨0, 16⟩
/-- THM_STATUS, R565 (`25_package_and_electrical.md`). -/
abbrev rTHM_STATUS : Nat := 0xe10048
abbrev fTHM_STATUS_ALERTS : Fld := ⟨32, 32⟩
abbrev fTHM_STATUS_STOPPED : Fld := ⟨3, 1⟩
abbrev fTHM_STATUS_MEM_HOT : Fld := ⟨2, 1⟩
abbrev fTHM_STATUS_PIN : Fld := ⟨1, 1⟩
abbrev fTHM_STATUS_ALERT : Fld := ⟨0, 1⟩
/-- MGT_SMB, R565 (`25_package_and_electrical.md`). -/
abbrev rMGT_SMB : Nat := 0xe20000
abbrev fMGT_SMB_LOCK : Fld := ⟨63, 1⟩
abbrev fMGT_SMB_PEC_EN : Fld := ⟨62, 1⟩
abbrev fMGT_SMB_WR_DISC : Fld := ⟨32, 16⟩
abbrev fMGT_SMB_PEC_ERR : Fld := ⟨16, 16⟩
abbrev fMGT_SMB_ADDR : Fld := ⟨0, 7⟩
/-- MGT_IDCODE, R565 (`25_package_and_electrical.md`). -/
abbrev rMGT_IDCODE : Nat := 0xe20008
abbrev fMGT_IDCODE_IDCODE : Fld := ⟨0, 32⟩

/-- The registers, by name; one constructor per register table of the spec. -/
inductive RegId where
  | GLB_ID | GLB_CAPS | GLB_DEVID | GLB_STATUS | GLB_CTRL | GLB_SCRATCH
  | CLK_REF | CLK_MPLL | CLK_CMD | CLK_LOCK | CLK_HOLD | CLK_STATUS
  | CLK_HO_ERR | CLK_PIX | CLK_SYNC | CLK_OUT | CNV_ATT | CNV_ATT_TIME
  | CNV_CHCORR | CNV_BG | CNV_BG_STATUS | CNV_BG_COUNT | CNV_CLIP | CNV_SLICE
  | CNV_ATTCAL | CNV_MODE | MON_CFG | MON_STATUS | PG_CFG | PG_TIMING
  | PG_START | PG_STATUS | TBS_TIME | TBS_ADJ | TBS_SLEW | TBS_STEP
  | TBS_ORIGIN_S | TBS_ORIGIN_NS | TBS_SERVO | TBS_STATUS | TBS_TICK | TBS_RETUNE
  | TDC_CH | TDC_CH_STAT | TDC_CH_COUNT | TDC_CTRL | TDC_FREQ_CFG | TDC_FREQ_START
  | TDC_FREQ_SNAP | TDC_FREQ_RES0 | TDC_FREQ_RES1 | TDC_FREQ_RES2 | TDC_FREQ_RES3 | CAL_REF
  | CAL_RUN | CAL_STATUS | CAL_MEAS | CAL_POLICY | CAL_STORE | CAL_HIST_SNAP
  | CAL_HIST0 | CAL_HIST1 | CAL_FLAT | GRID_SQ | PLAN_SRC | PLAN_LEN
  | PLAN_CMD | PLAN_TIME | PLAN_STATUS | PLAN_DETAIL | PLAN_SLOT | PLAN_SLOT_STATE
  | PLAN_PCOMMIT | PLAN_PC_TIME | DDC_CFG | DDC_NCO_FTW | DDC_NCO_CTRL | DDC_SWAP
  | DDC_SWAP_TIME | DDC_SWAP_AT | DDC_STAT | DDC_STAGE | DDC_COEF0 | DDC_COEFR
  | XFM_CFG | XFM_BINS | XFM_CTRL | XFM_WINFO | XFM_STAT | XFM_COUNT
  | XFM_EXP | XFM_TAB_SRC | XFM_TAB_CTRL | XFM_TAB_STATUS | XFM_TAB_TIME | XFM_TAB_LEN
  | XFM_TAB_AT | XFM_TAB_CRC | DET_CFG | DET_CTRL | DET_INT | DET_ALIGN
  | DET_STAT | DET_COUNT | DET_FLAT | DEN_CFG | DEN_CTRL | DEN_INT
  | DEN_ALIGN | DEN_STAT | DEN_COUNT | DEN_LOST | TRG_SRC | TRG_SW
  | TRG_TBUS | TRG_TMR_CFG | TRG_TMR_START | TRG_LT_CFG | TRG_LT_LEVEL | TRG_LT_STAT
  | TRG_TQ_CFG | TRG_TQ_SETA | TRG_TQ_SETB | TRG_TQ_CHAIN | TRG_TQ_TIMING | TRG_TQ_AUTO
  | TRG_TQ_STAT | TRG_TQ_COUNT | TRG_TQ_SNAP | TRG_TQ_LAST_TIME | TRG_TQ_LAST_INFO | TRG_TQ_EFF
  | TRG_FM_CFG | TRG_FM_STAT | TRG_FM_SEG | ACQ_CFG | ACQ_CTRL | ACQ_LEN
  | ACQ_SEG | ACQ_LOG | ACQ_CMD | ACQ_SNAP | ACQ_COUNT0 | ACQ_COUNT1
  | ACQ_COUNT2 | RMU_CFG | RMU_SIG | RMU_LEVEL | TC_CTRL | TC_STATUS
  | TC_LIMIT | TC_CYCLES | TC_SIN | TC_SIN_STAT | TC_SOUT_STAT | TC_TIMER
  | TC_STAT | TC_MBIN | TC_MBIN_CTRL | TC_MBOUT | TC_MBOUT_CTRL | TCL_IN
  | TCL_OUT | STO_CAP | STO_POOL | STO_RSV | STO_EXT | STO_CMD
  | STO_CMD_ARG | STO_CMD_STATUS | STO_BQ | STO_CNT0 | STO_CNT1 | STO_CSNAP
  | STO_CSNAP0 | STO_CSNAP1 | STO_CSNAP2 | STO_CSNAP3 | STO_CTX | STO_CUR
  | ADM_CMD | ADM_ARG | ADM_STATUS | ADM_MEM | ADM_COUNT | ADM_SNAP
  | ADM_LOAD0 | ADM_LOAD1 | ADM_ENTRY | ADM_RES | ADM_CTX | ADM_CTX_STAT
  | MEM_MAP | MEM_SCHED | MEM_REFRESH | MEM_RETRAIN | MEM_SCRUB | MEM_CH_STATUS
  | MEM_CH_ECC | MEM_UE_SNAP | MEM_UE0 | MEM_UE1 | MEM_UE2 | CMP_CFG
  | CMP_STREAM | CMP_JOB_MODE | CMP_JOB_SRC | CMP_JOB_DST | CMP_JOB_LEN | CMP_JOB_CTRL
  | CMP_JOB_STATUS | CMP_JOB_COUNT | CMP_STAT | CMP_BLOCKS | CMP_TAB | GLB_HIF_LINK
  | GLB_HIF_CTO | GLB_HIF_ERR | GLB_HIF_ACCESS | GLB_HIF_BIAS | GLB_HIF_RESET | DMA_CFG
  | DMA_HEAD | DMA_CTRL | DMA_STATUS | DMA_ERR | DMA_ERR_INFO | DMA_BYTES
  | DMA_LIMIT | DMA_GSTAT | NET_PORT_CFG | NET_PORT_FEC | NET_SUB_CFG | NET_SUB_MAC
  | NET_SUB_IPV4 | NET_SUB_IPV6 | NET_SUB_STATUS | NET_SUB_CNT0 | NET_SUB_CNT1 | NET_EXQ_RX
  | NET_EXQ_RX_IDX | NET_EXQ_TX | NET_EXQ_TX_IDX | AVE_CFG | AVE_MAC | AVE_IP0
  | AVE_IP1 | AVE_PARAM | AVE_CMD | AVE_STATUS | AVE_SNAP | AVE_OFS0
  | AVE_OFS1 | AVE_OFS2 | AVE_CNT0 | AVE_CNT1 | AVE_GLOBAL | AVE_UNATTR
  | AVE_TRIG | AVE_TRIG_STAT | AVE_TRIG_SEND | AVE_TRIG_SEND_TIME | AVE_TRIG_FWD | AVE_TRIG_FWD_OFS
  | DIS_CTRL | DIS_HTIM | DIS_VTIM | DIS_LAYER | DIS_RECT | DIS_LINK
  | DIS_STAT | DIS_LSTAT | DIS_AUX | DIS_AUX_DATA | DIS_PAL | STK_STATUS
  | STK_CMD | STK_ARG | STK_QUEUE | STK_CANCEL | STK_RESULT | SEC_STATUS
  | SEC_SVN | SEC_REV | SEC_SERIAL | SEC_ID_HASH | SEC_PLANKEY_HASH | SEC_MEAS
  | SEC_SPDM | EVT_CTRL | EVT_RING | EVT_RING_IDX | EVT_STAT | EVT_SEQ
  | EVT_SWTEST | EVT_INJ | EVT_INJ_ARG | EVT_RESTART | EVT_PEND | EVT_SRC
  | PWR_RAIL | PWR_CTRL | PWR_TOTAL | THM_TEMP | THM_LIMIT | THM_STATUS
  | MGT_SMB | MGT_IDCODE
  deriving DecidableEq, Repr

/-- One row of the register map: where the register stands, how its indices step, which of its bits carry
which access code of Table 0-1, and what the register holds after reset. -/
structure RegRow where
  id    : RegId
  base  : Nat
  dims  : List (Nat × Nat)
  used  : Nat
  rw    : Nat
  rwc   : Nat
  w1c   : Nat
  w1s   : Nat
  wo    : Nat
  rwl   : Nat
  reset : Nat
  deriving DecidableEq, Repr

/-- Part 1 of the register map. -/
def regRows1 : List RegRow :=
  [⟨.GLB_ID, 0x0, [], 0xffffffff, 0x0, 0x0, 0x0, 0x0, 0x0, 0x0, 0x1214020⟩,
   ⟨.GLB_CAPS, 0x8, [], 0x3fffffffffff1fff, 0x0, 0x0, 0x0, 0x0, 0x0, 0x0, 0x2480100020601044⟩,
   ⟨.GLB_DEVID, 0x10, [], 0x800000000000ffff, 0x0, 0x0, 0x0, 0x8000000000000000, 0x0, 0xffff, 0x0⟩,
   ⟨.GLB_STATUS, 0x18, [], 0xffff1fff, 0x0, 0x0, 0x0, 0x0, 0x0, 0x0, 0x0⟩,
   ⟨.GLB_CTRL, 0x20, [], 0x1, 0x0, 0x0, 0x0, 0x0, 0x1, 0x0, 0x0⟩,
   ⟨.GLB_SCRATCH, 0x28, [], 0xffffffffffffffff, 0xffffffffffffffff, 0x0, 0x0, 0x0, 0x0, 0x0, 0x0⟩,
   ⟨.CLK_REF, 0x20000, [], 0x800000000000ff07, 0xff00, 0x0, 0x0, 0x8000000000000000, 0x0, 0x3, 0x400⟩,
   ⟨.CLK_MPLL, 0x20008, [], 0xffffffff0fff0300, 0xffffffff0fff0300, 0x0, 0x0, 0x0, 0x0, 0x0, 0x7d00100⟩,
   ⟨.CLK_CMD, 0x20010, [], 0x701, 0x0, 0x0, 0x0, 0x0, 0x1, 0x0, 0x0⟩,
   ⟨.CLK_LOCK, 0x20018, [], 0xffffffffffffff, 0xffffffffffffff, 0x0, 0x0, 0x0, 0x0, 0x0, 0xa040001000014⟩,
   ⟨.CLK_HOLD, 0x20020, [], 0xffffffffffffff, 0xffffffffffffff, 0x0, 0x0, 0x0, 0x0, 0x0, 0xa0014003203e8⟩,
   ⟨.CLK_STATUS, 0x20028, [], 0xffff07f7, 0x0, 0x0, 0x0, 0x0, 0x0, 0x0, 0x200⟩,
   ⟨.CLK_HO_ERR, 0x20030, [], 0xffffffffffffffff, 0x0, 0x0, 0x0, 0x0, 0x0, 0x0, 0x0⟩,
   ⟨.CLK_PIX, 0x20040, [(8, 2)], 0x80000003ffffffff, 0x0, 0x80000003ffffffff, 0x0, 0x0, 0x0, 0x0, 0x28000000⟩,
   ⟨.CLK_SYNC, 0x20050, [], 0xffff00000007, 0x2, 0x0, 0x4, 0x1, 0x0, 0x0, 0x0⟩,
   ⟨.CLK_OUT, 0x20080, [(8, 4)], 0x8000ffff03ff007f, 0x8000000000000000, 0xffff03ff007f, 0x0, 0x0, 0x0, 0x0, 0x7d000000000⟩,
   ⟨.CNV_ATT, 0x50000, [(16384, 4)], 0xc00000000000001f, 0x0, 0x1f, 0x0, 0x8000000000000000, 0x0, 0x0, 0x0⟩,
   ⟨.CNV_ATT_TIME, 0x50008, [(16384, 4)], 0xffffffffffffffff, 0xffffffffffffffff, 0x0, 0x0, 0x0, 0x0, 0x0, 0x0⟩,
   ⟨.CNV_CHCORR, 0x50010, [(16384, 4)], 0xffffffff, 0xffffffff, 0x0, 0x0, 0x0, 0x0, 0x0, 0x8000⟩,
   ⟨.CNV_BG, 0x50018, [(16384, 4)], 0x80ffffffffff1f00, 0x80ffffffffff1f00, 0x0, 0x0, 0x0, 0x0, 0x0, 0x20800ad8001400⟩,
   ⟨.CNV_BG_STATUS, 0x50020, [(16384, 4)], 0xffff8000ffff1fff, 0x0, 0x0, 0x0, 0x0, 0x0, 0x0, 0x1009⟩,
   ⟨.CNV_BG_COUNT, 0x50028, [(16384, 4)], 0xffffffffffffffff, 0x0, 0x0, 0x0, 0x0, 0x0, 0x0, 0x0⟩,
   ⟨.CNV_CLIP, 0x50030, [(16384, 4)], 0xffffffffffffffff, 0x0, 0x0, 0x0, 0x0, 0x0, 0x0, 0x0⟩,
   ⟨.CNV_SLICE, 0x50100, [(16384, 4), (8, 17)], 0x1fffffffff00ff, 0xffffffff00ff, 0x0, 0x0, 0x0, 0x0, 0x0, 0x80000000⟩,
   ⟨.CNV_ATTCAL, 0x50200, [(16384, 4), (8, 32)], 0xffff, 0xffff, 0x0, 0x0, 0x0, 0x0, 0x0, 0x8000⟩,
   ⟨.CNV_MODE, 0x53f00, [], 0x3, 0x0, 0x0, 0x0, 0x0, 0x0, 0x0, 0x0⟩,
   ⟨.MON_CFG, 0x60000, [(16, 12)], 0xffffffff07ff07ff, 0xffffffff07ff07ff, 0x0, 0x0, 0x0, 0x0, 0x0, 0x6403e800000000⟩,
   ⟨.MON_STATUS, 0x60008, [(16, 12)], 0xffffffff00000003, 0x0, 0x0, 0x1, 0x0, 0x0, 0x0, 0x0⟩,
   ⟨.PG_CFG, 0x68000, [(64, 8)], 0xcfff00ff0000001f, 0xfff000000000010, 0xff0000000f, 0x0, 0xc000000000000000, 0x0, 0x0, 0x8⟩,
   ⟨.PG_TIMING, 0x68008, [(64, 8)], 0xffffffffffffffff, 0x0, 0xffffffffffffffff, 0x0, 0x0, 0x0, 0x0, 0x100000002⟩,
   ⟨.PG_START, 0x68010, [(64, 8)], 0xffffffffffffffff, 0x0, 0xffffffffffffffff, 0x0, 0x0, 0x0, 0x0, 0x0⟩,
   ⟨.PG_STATUS, 0x68018, [(64, 8)], 0xffffffff0000000f, 0x0, 0x0, 0x9, 0x0, 0x0, 0x0, 0x0⟩,
   ⟨.TBS_TIME, 0x30000, [], 0xffffffffffffffff, 0x0, 0x0, 0x0, 0x0, 0x0, 0x0, 0x0⟩,
   ⟨.TBS_ADJ, 0x30008, [], 0xffffffff, 0xffffffff, 0x0, 0x0, 0x0, 0x0, 0x0, 0x0⟩,
   ⟨.TBS_SLEW, 0x30010, [], 0x8fffffffffffffff, 0xfffffffffffffff, 0x0, 0x0, 0x0, 0x8000000000000000, 0x0, 0x14f8b5900000000⟩,
   ⟨.TBS_STEP, 0x30018, [], 0xffffffffffffffff, 0x0, 0x0, 0x0, 0x0, 0xffffffffffffffff, 0x0, 0x0⟩,
   ⟨.TBS_ORIGIN_S, 0x30020, [], 0xffffffffffff, 0xffffffffffff, 0x0, 0x0, 0x0, 0x0, 0x0, 0x0⟩,
   ⟨.TBS_ORIGIN_NS, 0x30028, [], 0x3fffffff, 0x3fffffff, 0x0, 0x0, 0x0, 0x0, 0x0, 0x0⟩,
   ⟨.TBS_SERVO, 0x30030, [], 0x8fffffffffff0f07, 0x8fffffffffff0f07, 0x0, 0x0, 0x0, 0x0, 0x0, 0x40a030a00320000⟩,
   ⟨.TBS_STATUS, 0x30038, [], 0xffffffffffff000f, 0x0, 0x0, 0x8, 0x0, 0x0, 0x0, 0x0⟩]

/-- Part 2 of the register map. -/
def regRows2 : List RegRow :=
  [⟨.TBS_TICK, 0x30040, [], 0xffffffff, 0x0, 0x0, 0x0, 0x0, 0x0, 0x0, 0xc3500⟩,
   ⟨.TBS_RETUNE, 0x30048, [], 0xffffffffffffffff, 0x0, 0x0, 0x0, 0x0, 0x0, 0x0, 0x0⟩,
   ⟨.TDC_CH, 0x70000, [(32, 12)], 0xff00ffff03ff1fff, 0xff00ffff03ff0000, 0x0, 0x0, 0x0, 0x0, 0x0, 0xa00000000000000⟩,
   ⟨.TDC_CH_STAT, 0x70008, [(32, 12)], 0xffffffffffffffff, 0x0, 0x0, 0x0, 0x0, 0x0, 0x0, 0x0⟩,
   ⟨.TDC_CH_COUNT, 0x70010, [(32, 12)], 0xffffffffffffffff, 0x0, 0x0, 0x0, 0x0, 0x0, 0x0, 0x0⟩,
   ⟨.TDC_CTRL, 0x70300, [], 0xffff000007ff, 0xffff000007ff, 0x0, 0x0, 0x0, 0x0, 0x0, 0x3e8000007fc⟩,
   ⟨.TDC_FREQ_CFG, 0x70400, [], 0xc000000fffffffff, 0xc000000fffffffff, 0x0, 0x0, 0x0, 0x0, 0x0, 0x1312d0⟩,
   ⟨.TDC_FREQ_START, 0x70408, [], 0xffffffffffffffff, 0xffffffffffffffff, 0x0, 0x0, 0x0, 0x0, 0x0, 0x0⟩,
   ⟨.TDC_FREQ_SNAP, 0x70410, [], 0xffffffff00000001, 0x0, 0x0, 0x0, 0x1, 0x0, 0x0, 0x0⟩,
   ⟨.TDC_FREQ_RES0, 0x70418, [], 0x7fffffffff, 0x0, 0x0, 0x0, 0x0, 0x0, 0x0, 0x0⟩,
   ⟨.TDC_FREQ_RES1, 0x70420, [], 0xffffffffffffffff, 0x0, 0x0, 0x0, 0x0, 0x0, 0x0, 0x0⟩,
   ⟨.TDC_FREQ_RES2, 0x70428, [], 0xffffffffffffffff, 0x0, 0x0, 0x0, 0x0, 0x0, 0x0, 0x0⟩,
   ⟨.TDC_FREQ_RES3, 0x70430, [], 0xffffffff, 0x0, 0x0, 0x0, 0x0, 0x0, 0x0, 0x0⟩,
   ⟨.CAL_REF, 0x40000, [], 0x3fffff, 0x3fffff, 0x0, 0x0, 0x0, 0x0, 0x0, 0x4fc18⟩,
   ⟨.CAL_RUN, 0x40008, [], 0xe000000000000133, 0x133, 0x0, 0x0, 0xe000000000000000, 0x0, 0x0, 0x0⟩,
   ⟨.CAL_STATUS, 0x40010, [], 0xf000000000ff0f33, 0x0, 0x0, 0x0, 0x0, 0x0, 0x0, 0x0⟩,
   ⟨.CAL_MEAS, 0x40018, [], 0xffffffff0000ffff, 0x0, 0x0, 0x0, 0x0, 0x0, 0x0, 0x0⟩,
   ⟨.CAL_POLICY, 0x40020, [], 0xc000ffffffffffff, 0xc000ffffffffffff, 0x0, 0x0, 0x0, 0x0, 0x0, 0x40000a0a00000050⟩,
   ⟨.CAL_STORE, 0x40028, [], 0xffffffff000000fb, 0x0, 0x0, 0x0, 0x0, 0x0, 0x0, 0x3⟩,
   ⟨.CAL_HIST_SNAP, 0x40030, [], 0xffffffff00000001, 0x0, 0x0, 0x0, 0x1, 0x0, 0x0, 0x0⟩,
   ⟨.CAL_HIST0, 0x40100, [(16, 4)], 0xffff0000ffffffff, 0x0, 0x0, 0x0, 0x0, 0x0, 0x0, 0x0⟩,
   ⟨.CAL_HIST1, 0x40108, [(16, 4)], 0xffffffffffffffff, 0x0, 0x0, 0x0, 0x0, 0x0, 0x0, 0x0⟩,
   ⟨.CAL_FLAT, 0x40200, [(512, 4), (8, 64)], 0x1ffff, 0x1ffff, 0x0, 0x0, 0x0, 0x0, 0x0, 0x0⟩,
   ⟨.GRID_SQ, 0x300000, [(8, 96)], 0xffffffff07ffffc0, 0x0, 0x0, 0x0, 0x0, 0x0, 0x0, 0x0⟩,
   ⟨.PLAN_SRC, 0x380000, [], 0xffffffffffffffc0, 0xffffffffffffffc0, 0x0, 0x0, 0x0, 0x0, 0x0, 0x0⟩,
   ⟨.PLAN_LEN, 0x380008, [], 0x1fffff, 0x1fffff, 0x0, 0x0, 0x0, 0x0, 0x0, 0x0⟩,
   ⟨.PLAN_CMD, 0x380010, [], 0x7, 0x0, 0x0, 0x0, 0x0, 0x7, 0x0, 0x0⟩,
   ⟨.PLAN_TIME, 0x380018, [], 0xffffffffffffffff, 0xffffffffffffffff, 0x0, 0x0, 0x0, 0x0, 0x0, 0x0⟩,
   ⟨.PLAN_STATUS, 0x380020, [], 0xffffffff00ff0703, 0x0, 0x0, 0x0, 0x0, 0x0, 0x0, 0x0⟩,
   ⟨.PLAN_DETAIL, 0x380028, [], 0xffffffff, 0x0, 0x0, 0x0, 0x0, 0x0, 0x0, 0x0⟩,
   ⟨.PLAN_SLOT, 0x380040, [(8, 2)], 0xffffffffffffffff, 0x0, 0x0, 0x0, 0x0, 0x0, 0x0, 0x0⟩,
   ⟨.PLAN_SLOT_STATE, 0x380050, [], 0xf, 0x0, 0x0, 0x0, 0x0, 0x0, 0x0, 0x0⟩,
   ⟨.PLAN_PCOMMIT, 0x380080, [], 0xc0000000ffffffff, 0x0, 0x0, 0x4000000000000000, 0x8000000000000000, 0x0, 0x0, 0x0⟩,
   ⟨.PLAN_PC_TIME, 0x380088, [], 0xffffffffffffffff, 0xffffffffffffffff, 0x0, 0x0, 0x0, 0x0, 0x0, 0x0⟩,
   ⟨.DDC_CFG, 0x80000, [(4096, 20)], 0xf07f00000000001f, 0x0, 0x0, 0x0, 0x0, 0x0, 0x0, 0x0⟩,
   ⟨.DDC_NCO_FTW, 0x80008, [(4096, 20)], 0xffffffffffff, 0x0, 0xffffffffffff, 0x0, 0x0, 0x0, 0x0, 0x0⟩,
   ⟨.DDC_NCO_CTRL, 0x80010, [(4096, 20)], 0x80000001ffffffff, 0x0, 0x1ffffffff, 0x0, 0x8000000000000000, 0x0, 0x0, 0x0⟩,
   ⟨.DDC_SWAP, 0x80018, [(4096, 20)], 0xf000000000f70fff, 0x2000000000000fff, 0x0, 0x1000000000000000, 0xc000000000000000, 0x0, 0x0, 0x0⟩,
   ⟨.DDC_SWAP_TIME, 0x80020, [(4096, 20)], 0xffffffffffffffff, 0xffffffffffffffff, 0x0, 0x0, 0x0, 0x0, 0x0, 0x0⟩,
   ⟨.DDC_SWAP_AT, 0x80028, [(4096, 20)], 0xffffffffffffffff, 0x0, 0x0, 0x0, 0x0, 0x0, 0x0, 0x0⟩]

/-- Part 3 of the register map. -/
def regRows3 : List RegRow :=
  [⟨.DDC_STAT, 0x80030, [(4096, 20)], 0xffffffffffffffff, 0x0, 0x0, 0x0, 0x0, 0x0, 0x0, 0x0⟩,
   ⟨.DDC_STAGE, 0x80040, [(4096, 20), (8, 12)], 0x71f, 0x0, 0x31f, 0x0, 0x0, 0x0, 0x0, 0x13⟩,
   ⟨.DDC_COEF0, 0x80400, [(4096, 20), (256, 12), (128, 2)], 0xfffff0000001f, 0xfffff0000001f, 0x0, 0x0, 0x0, 0x0, 0x0, 0x4000000000000⟩,
   ⟨.DDC_COEFR, 0x80408, [(4096, 20), (256, 12), (128, 2), (8, 8)], 0xfffff000fffff, 0xfffff000fffff, 0x0, 0x0, 0x0, 0x0, 0x0, 0x0⟩,
   ⟨.XFM_CFG, 0xa0000, [(32768, 4)], 0xf07f00000000f37f, 0x0, 0x0, 0x0, 0x0, 0x0, 0x0, 0x0⟩,
   ⟨.XFM_BINS, 0xa0008, [(32768, 4)], 0x7ffff0003ffff, 0x0, 0x0, 0x0, 0x0, 0x0, 0x0, 0x0⟩,
   ⟨.XFM_CTRL, 0xa0010, [(32768, 4)], 0x3ffff00001f17, 0x0, 0x3ffff00001f17, 0x0, 0x0, 0x0, 0x0, 0x2aaaa00000001⟩,
   ⟨.XFM_WINFO, 0xa0018, [(32768, 4)], 0xfffff03fffffffff, 0x0, 0x0, 0x0, 0x0, 0x0, 0x0, 0x0⟩,
   ⟨.XFM_STAT, 0xa0020, [(32768, 4)], 0xffffffffffffffff, 0x0, 0x0, 0x0, 0x0, 0x0, 0x0, 0x0⟩,
   ⟨.XFM_COUNT, 0xa0028, [(32768, 4)], 0xffffffffffffffff, 0x0, 0x0, 0x0, 0x0, 0x0, 0x0, 0x0⟩,
   ⟨.XFM_EXP, 0xa0030, [(32768, 4)], 0x3ffff001f00ff, 0x0, 0x0, 0x0, 0x0, 0x0, 0x0, 0x0⟩,
   ⟨.XFM_TAB_SRC, 0xa0040, [(32768, 4)], 0xffffffffffffffc0, 0xffffffffffffffc0, 0x0, 0x0, 0x0, 0x0, 0x0, 0x0⟩,
   ⟨.XFM_TAB_CTRL, 0xa0048, [(32768, 4)], 0xf8000000000fffff, 0x10000000000fffff, 0x0, 0x800000000000000, 0xe000000000000000, 0x0, 0x0, 0x0⟩,
   ⟨.XFM_TAB_STATUS, 0xa0050, [(32768, 4)], 0x1f7f7ffff, 0x0, 0x0, 0x0, 0x0, 0x0, 0x0, 0x0⟩,
   ⟨.XFM_TAB_TIME, 0xa0058, [(32768, 4)], 0xffffffffffffffff, 0xffffffffffffffff, 0x0, 0x0, 0x0, 0x0, 0x0, 0x0⟩,
   ⟨.XFM_TAB_LEN, 0xa0060, [(32768, 4)], 0xfffff000fffff, 0x0, 0x0, 0x0, 0x0, 0x0, 0x0, 0x0⟩,
   ⟨.XFM_TAB_AT, 0xa0068, [(32768, 4)], 0xffffffffffffffff, 0x0, 0x0, 0x0, 0x0, 0x0, 0x0, 0x0⟩,
   ⟨.XFM_TAB_CRC, 0xa0070, [(32768, 4)], 0xffffffffffffffff, 0x0, 0x0, 0x0, 0x0, 0x0, 0x0, 0x0⟩,
   ⟨.DET_CFG, 0xc0000, [(4096, 4)], 0xe07f000000001f38, 0x0, 0x0, 0x0, 0x0, 0x0, 0x0, 0x0⟩,
   ⟨.DET_CTRL, 0xc0008, [(4096, 4)], 0x10117, 0x0, 0x10117, 0x0, 0x0, 0x0, 0x0, 0x103⟩,
   ⟨.DET_INT, 0xc0010, [(4096, 4)], 0xffffffffffff, 0x0, 0xffffffffffff, 0x0, 0x0, 0x0, 0x0, 0x1000⟩,
   ⟨.DET_ALIGN, 0xc0018, [(4096, 4)], 0xffffffffffffffff, 0x0, 0xffffffffffffffff, 0x0, 0x0, 0x0, 0x0, 0x0⟩,
   ⟨.DET_STAT, 0xc0020, [(4096, 4)], 0xffffffffffffffff, 0x0, 0x0, 0x0, 0x0, 0x0, 0x0, 0x0⟩,
   ⟨.DET_COUNT, 0xc0028, [(4096, 4)], 0xffffffffffffffff, 0x0, 0x0, 0x0, 0x0, 0x0, 0x0, 0x0⟩,
   ⟨.DET_FLAT, 0xc0030, [(4096, 4)], 0xffffffff00000007, 0x0, 0x0, 0x0, 0x0, 0x0, 0x0, 0x0⟩,
   ⟨.DEN_CFG, 0xd0000, [(4096, 4)], 0xf07f000000f10f0f, 0x0, 0x0, 0x0, 0x0, 0x0, 0x0, 0x0⟩,
   ⟨.DEN_CTRL, 0xd0008, [(4096, 4)], 0x1110f0fffffff, 0x0, 0x1110f0fffffff, 0x0, 0x0, 0x0, 0x0, 0x100300400000⟩,
   ⟨.DEN_INT, 0xd0010, [(4096, 4)], 0xffffffffffff, 0x0, 0xffffffffffff, 0x0, 0x0, 0x0, 0x0, 0x10000⟩,
   ⟨.DEN_ALIGN, 0xd0018, [(4096, 4)], 0xffffffffffffffff, 0x0, 0xffffffffffffffff, 0x0, 0x0, 0x0, 0x0, 0x0⟩,
   ⟨.DEN_STAT, 0xd0020, [(4096, 4)], 0xffffffffffffffff, 0x0, 0x0, 0x0, 0x0, 0x0, 0x0, 0x0⟩,
   ⟨.DEN_COUNT, 0xd0028, [(4096, 4)], 0xffffffffffffffff, 0x0, 0x0, 0x0, 0x0, 0x0, 0x0, 0x0⟩,
   ⟨.DEN_LOST, 0xd0030, [(4096, 4)], 0xffffffffffffffff, 0x0, 0x0, 0x0, 0x0, 0x0, 0x0, 0x0⟩,
   ⟨.TRG_SRC, 0xe0000, [(8, 64)], 0xffffffffffffffff, 0x0, 0x0, 0x0, 0x0, 0x0, 0x0, 0x0⟩,
   ⟨.TRG_SW, 0xe0200, [], 0xf, 0x0, 0x0, 0x0, 0x0, 0xf, 0x0, 0x0⟩,
   ⟨.TRG_TBUS, 0xe0240, [(8, 8)], 0xc000000f0000ffff, 0x8000000f0000ffff, 0x0, 0x0, 0x0, 0x0, 0x0, 0x400000000000007d⟩,
   ⟨.TRG_TMR_CFG, 0xe0280, [(16, 4)], 0x8000ffffffffffff, 0x0, 0x8000ffffffffffff, 0x0, 0x0, 0x0, 0x0, 0x1312d0⟩,
   ⟨.TRG_TMR_START, 0xe0288, [(16, 4)], 0xffffffffffffffff, 0x0, 0xffffffffffffffff, 0x0, 0x0, 0x0, 0x0, 0x0⟩,
   ⟨.TRG_LT_CFG, 0xe0400, [(32, 8)], 0x307f03ff00000331, 0x0, 0x3ff00000331, 0x0, 0x0, 0x0, 0x0, 0x0⟩,
   ⟨.TRG_LT_LEVEL, 0xe0408, [(32, 8)], 0xffffffffffffffff, 0x0, 0xffffffffffffffff, 0x0, 0x0, 0x0, 0x0, 0x0⟩,
   ⟨.TRG_LT_STAT, 0xe0410, [(32, 8)], 0xffffffffffffffff, 0x0, 0x0, 0x0, 0x0, 0x0, 0x0, 0x0⟩]

/-- Part 4 of the register map. -/
def regRows4 : List RegRow :=
  [⟨.TRG_TQ_CFG, 0xe2000, [(256, 16)], 0xc100ffff00000313, 0x0, 0xffff00000313, 0x0, 0xc000000000000000, 0x0, 0x0, 0x100000000⟩,
   ⟨.TRG_TQ_SETA, 0xe2008, [(256, 16)], 0xffffffffffffffff, 0x0, 0xffffffffffffffff, 0x0, 0x0, 0x0, 0x0, 0x0⟩,
   ⟨.TRG_TQ_SETB, 0xe2010, [(256, 16)], 0xffffffffffffffff, 0x0, 0xffffffffffffffff, 0x0, 0x0, 0x0, 0x0, 0x0⟩,
   ⟨.TRG_TQ_CHAIN, 0xe2018, [(256, 16)], 0xffffffff, 0x0, 0xffffffff, 0x0, 0x0, 0x0, 0x0, 0x0⟩,
   ⟨.TRG_TQ_TIMING, 0xe2020, [(256, 16)], 0xffffffffffffffff, 0x0, 0xffffffffffffffff, 0x0, 0x0, 0x0, 0x0, 0x0⟩,
   ⟨.TRG_TQ_AUTO, 0xe2028, [(256, 16)], 0xffffffffffffffff, 0x0, 0xffffffffffffffff, 0x0, 0x0, 0x0, 0x0, 0x3207735940⟩,
   ⟨.TRG_TQ_STAT, 0xe2030, [(256, 16)], 0xffffffffffffffff, 0x0, 0x0, 0x0, 0x0, 0x0, 0x0, 0x0⟩,
   ⟨.TRG_TQ_COUNT, 0xe2038, [(256, 16)], 0xffffffffffffffff, 0x0, 0x0, 0x0, 0x0, 0x0, 0x0, 0x0⟩,
   ⟨.TRG_TQ_SNAP, 0xe2040, [(256, 16)], 0xffffffff00000001, 0x0, 0x0, 0x0, 0x1, 0x0, 0x0, 0x0⟩,
   ⟨.TRG_TQ_LAST_TIME, 0xe2048, [(256, 16)], 0xffffffffffffffff, 0x0, 0x0, 0x0, 0x0, 0x0, 0x0, 0x0⟩,
   ⟨.TRG_TQ_LAST_INFO, 0xe2050, [(256, 16)], 0xffffffffffffffff, 0x0, 0x0, 0x0, 0x0, 0x0, 0x0, 0x0⟩,
   ⟨.TRG_TQ_EFF, 0xe2058, [(256, 16)], 0xffffffff, 0x0, 0x0, 0x0, 0x0, 0x0, 0x0, 0x32⟩,
   ⟨.TRG_FM_CFG, 0xe8000, [(8192, 4)], 0x7fffff03ff0131, 0x0, 0xffff03ff0131, 0x0, 0x0, 0x0, 0x0, 0x100010100⟩,
   ⟨.TRG_FM_STAT, 0xe8008, [(8192, 4)], 0xffffffffffffffff, 0x0, 0x0, 0x0, 0x0, 0x0, 0x0, 0x0⟩,
   ⟨.TRG_FM_SEG, 0xe9000, [(8192, 4), (8, 512)], 0x3ffffffffffff, 0x0, 0x3ffffffffffff, 0x0, 0x0, 0x0, 0x0, 0x7fff8000⟩,
   ⟨.ACQ_CFG, 0xf0000, [(4096, 8)], 0xc07f0fffdffcffff, 0x0, 0x0, 0x0, 0x0, 0x0, 0x0, 0x0⟩,
   ⟨.ACQ_CTRL, 0xf0008, [(4096, 8)], 0x1f13, 0x0, 0x1f13, 0x0, 0x0, 0x0, 0x0, 0x0⟩,
   ⟨.ACQ_LEN, 0xf0010, [(4096, 8)], 0xffffffffffffffff, 0x0, 0xffffffffffffffff, 0x0, 0x0, 0x0, 0x0, 0x100000000400⟩,
   ⟨.ACQ_SEG, 0xf0018, [(4096, 8)], 0xffffffffffff, 0x0, 0xffffffffffff, 0x0, 0x0, 0x0, 0x0, 0x100000000⟩,
   ⟨.ACQ_LOG, 0xf0020, [(4096, 8)], 0xffff000007ff, 0x0, 0xffff000007ff, 0x0, 0x0, 0x0, 0x0, 0x3e80000007f⟩,
   ⟨.ACQ_CMD, 0xf0028, [(4096, 8)], 0xc000ffff00000007, 0x0, 0x0, 0x0, 0xc000000000000000, 0x0, 0x0, 0x0⟩,
   ⟨.ACQ_SNAP, 0xf0030, [(4096, 8)], 0xffffffff00000001, 0x0, 0x0, 0x0, 0x1, 0x0, 0x0, 0x0⟩,
   ⟨.ACQ_COUNT0, 0xf0038, [(4096, 8)], 0xffffffffffffffff, 0x0, 0x0, 0x0, 0x0, 0x0, 0x0, 0x0⟩,
   ⟨.ACQ_COUNT1, 0xf0040, [(4096, 8)], 0xffffffffffffffff, 0x0, 0x0, 0x0, 0x0, 0x0, 0x0, 0x0⟩,
   ⟨.ACQ_COUNT2, 0xf0048, [(4096, 8)], 0xffffffffffffffff, 0x0, 0x0, 0x0, 0x0, 0x0, 0x0, 0x0⟩,
   ⟨.RMU_CFG, 0x100000, [(32, 9)], 0xffffffff00ffffff, 0x0, 0xffffff, 0x0, 0x0, 0x0, 0x0, 0x0⟩,
   ⟨.RMU_SIG, 0x100008, [(32, 9)], 0x3, 0x0, 0x3, 0x0, 0x0, 0x0, 0x0, 0x0⟩,
   ⟨.RMU_LEVEL, 0x100010, [(32, 9)], 0xffffffffffff0000, 0x0, 0xffffffffffff0000, 0x0, 0x0, 0x0, 0x0, 0x60000000a0000000⟩,
   ⟨.TC_CTRL, 0x200000, [(32768, 32)], 0xc0000000000007ff, 0x7ff, 0x0, 0x0, 0xc000000000000000, 0x0, 0x0, 0x0⟩,
   ⟨.TC_STATUS, 0x200008, [(32768, 32)], 0xffff07ff07fff307, 0x0, 0x0, 0x0, 0x0, 0x0, 0x0, 0x0⟩,
   ⟨.TC_LIMIT, 0x200010, [(32768, 32)], 0xffffffffffff, 0xffffffffffff, 0x0, 0x0, 0x0, 0x0, 0x0, 0x0⟩,
   ⟨.TC_CYCLES, 0x200018, [(32768, 32)], 0xffffffffffffffff, 0x0, 0x0, 0x0, 0x0, 0x0, 0x0, 0x0⟩,
   ⟨.TC_SIN, 0x200020, [(32768, 32)], 0x3fff00001fff, 0x3fff00001fff, 0x0, 0x0, 0x0, 0x0, 0x0, 0x0⟩,
   ⟨.TC_SIN_STAT, 0x200028, [(32768, 32)], 0xffffffffffff3fff, 0x0, 0x0, 0x0, 0x0, 0x0, 0x0, 0x0⟩,
   ⟨.TC_SOUT_STAT, 0x200030, [(32768, 32)], 0xffffffffffff0007, 0x0, 0x0, 0x0, 0x0, 0x0, 0x0, 0x0⟩,
   ⟨.TC_TIMER, 0x200038, [(32768, 32)], 0x80000000ffffffff, 0x80000000ffffffff, 0x0, 0x0, 0x0, 0x0, 0x0, 0x98968⟩,
   ⟨.TC_STAT, 0x200040, [(32768, 32)], 0xffffffffffffffff, 0x0, 0x0, 0x0, 0x0, 0x0, 0x0, 0x0⟩,
   ⟨.TC_MBIN, 0x200080, [(32768, 32), (8, 4)], 0xffffffffffffffff, 0xffffffffffffffff, 0x0, 0x0, 0x0, 0x0, 0x0, 0x0⟩,
   ⟨.TC_MBIN_CTRL, 0x2000a0, [(32768, 32)], 0x8000000000000003, 0x0, 0x0, 0x2, 0x8000000000000000, 0x0, 0x0, 0x0⟩,
   ⟨.TC_MBOUT, 0x2000c0, [(32768, 32), (8, 4)], 0xffffffffffffffff, 0x0, 0x0, 0x0, 0x0, 0x0, 0x0, 0x0⟩]

/-- Part 5 of the register map. -/
def regRows5 : List RegRow :=
  [⟨.TC_MBOUT_CTRL, 0x2000e0, [(32768, 32)], 0x8000000000000001, 0x0, 0x0, 0x0, 0x8000000000000000, 0x0, 0x0, 0x0⟩,
   ⟨.TCL_IN, 0x200400, [(262144, 4), (8, 8)], 0x83ff03ffffffffff, 0x0, 0x0, 0x0, 0x0, 0x0, 0x0, 0x0⟩,
   ⟨.TCL_OUT, 0x200480, [(262144, 4), (8, 4)], 0x80fff3ffffffffff, 0x0, 0x0, 0x0, 0x0, 0x0, 0x0, 0x0⟩,
   ⟨.STO_CAP, 0x400000, [], 0x3fffff001fffff, 0x0, 0x0, 0x0, 0x0, 0x0, 0x0, 0x200000001c0000⟩,
   ⟨.STO_POOL, 0x400008, [], 0x1fffff001fffff, 0x0, 0x0, 0x0, 0x0, 0x0, 0x0, 0x1c0000001c0000⟩,
   ⟨.STO_RSV, 0x400010, [], 0x1fffff001fffff, 0x1fffff00000000, 0x0, 0x0, 0x0, 0x0, 0x0, 0x1000000000000⟩,
   ⟨.STO_EXT, 0x400018, [], 0x3fffff003fffff, 0x3fffff00000000, 0x0, 0x0, 0x0, 0x0, 0x0, 0x2000000200000⟩,
   ⟨.STO_CMD, 0x400020, [], 0x7, 0x0, 0x0, 0x0, 0x0, 0x7, 0x0, 0x0⟩,
   ⟨.STO_CMD_ARG, 0x400028, [], 0xfff001fffff, 0xfff001fffff, 0x0, 0x0, 0x0, 0x0, 0x0, 0x0⟩,
   ⟨.STO_CMD_STATUS, 0x400030, [], 0x107ff, 0x0, 0x0, 0x0, 0x0, 0x0, 0x0, 0x0⟩,
   ⟨.STO_BQ, 0x400038, [], 0x1fffff3fffffff, 0x0, 0x0, 0x0, 0x0, 0x0, 0x0, 0x0⟩,
   ⟨.STO_CNT0, 0x400040, [], 0xffffffffffffffff, 0x0, 0x0, 0x0, 0x0, 0x0, 0x0, 0x0⟩,
   ⟨.STO_CNT1, 0x400048, [], 0xffffffffffffffff, 0x0, 0x0, 0x0, 0x0, 0x0, 0x0, 0x0⟩,
   ⟨.STO_CSNAP, 0x400080, [], 0xffffffff0fff0001, 0xfff0000, 0x0, 0x0, 0x1, 0x0, 0x0, 0x0⟩,
   ⟨.STO_CSNAP0, 0x400088, [], 0xffffffffffffffff, 0x0, 0x0, 0x0, 0x0, 0x0, 0x0, 0x0⟩,
   ⟨.STO_CSNAP1, 0x400090, [], 0xffff0300001fffff, 0x0, 0x0, 0x0, 0x0, 0x0, 0x0, 0x0⟩,
   ⟨.STO_CSNAP2, 0x400098, [], 0xffffffffffffffff, 0x0, 0x0, 0x0, 0x0, 0x0, 0x0, 0x0⟩,
   ⟨.STO_CSNAP3, 0x4000a0, [], 0xffffffffffffffff, 0x0, 0x0, 0x0, 0x0, 0x0, 0x0, 0x0⟩,
   ⟨.STO_CTX, 0x410000, [(64, 4096), (8, 8)], 0xffffffffffffffff, 0x0, 0x0, 0x0, 0x0, 0x0, 0x0, 0x0⟩,
   ⟨.STO_CUR, 0x450000, [(32, 4096), (8, 4)], 0xffffffffffffffff, 0x0, 0x0, 0x0, 0x0, 0x0, 0x0, 0x0⟩,
   ⟨.ADM_CMD, 0x500000, [], 0x3, 0x0, 0x0, 0x0, 0x0, 0x3, 0x0, 0x0⟩,
   ⟨.ADM_ARG, 0x500008, [], 0xfff, 0xfff, 0x0, 0x0, 0x0, 0x0, 0x0, 0x0⟩,
   ⟨.ADM_STATUS, 0x500010, [], 0x3f0fff1f31, 0x0, 0x0, 0x0, 0x0, 0x0, 0x0, 0x3f00000000⟩,
   ⟨.ADM_MEM, 0x500018, [], 0xffffffffffffffff, 0x0, 0x0, 0x0, 0x0, 0x0, 0x0, 0x11a800001612⟩,
   ⟨.ADM_COUNT, 0x500020, [], 0xffffffffffffffff, 0x0, 0x0, 0x0, 0x0, 0x0, 0x0, 0x0⟩,
   ⟨.ADM_SNAP, 0x500028, [], 0xffffffff00000001, 0x0, 0x0, 0x0, 0x1, 0x0, 0x0, 0x0⟩,
   ⟨.ADM_LOAD0, 0x500030, [], 0xffffffffffffffff, 0x0, 0x0, 0x0, 0x0, 0x0, 0x0, 0x86666600000000⟩,
   ⟨.ADM_LOAD1, 0x500038, [], 0x1fff00001fff, 0x0, 0x0, 0x0, 0x0, 0x0, 0x0, 0x0⟩,
   ⟨.ADM_ENTRY, 0x500040, [(8, 8)], 0xffffffffffffffff, 0xffffffffffffffff, 0x0, 0x0, 0x0, 0x0, 0x0, 0x0⟩,
   ⟨.ADM_RES, 0x500100, [(8, 34)], 0xffffffffffffffff, 0x0, 0x0, 0x0, 0x0, 0x0, 0x0, 0x0⟩,
   ⟨.ADM_CTX, 0x510000, [(16, 4096)], 0xffffffffffffffff, 0x0, 0x0, 0x0, 0x0, 0x0, 0x0, 0x0⟩,
   ⟨.ADM_CTX_STAT, 0x510008, [(16, 4096)], 0xffffffffffffffff, 0x0, 0x0, 0x0, 0x0, 0x0, 0x0, 0x0⟩,
   ⟨.MEM_MAP, 0x600000, [], 0xffff00000000011f, 0x1f, 0x0, 0x0, 0x0, 0x0, 0x0, 0x18⟩,
   ⟨.MEM_SCHED, 0x600008, [], 0xffff000fffffffff, 0xfffffffff, 0x0, 0x0, 0x0, 0x0, 0x0, 0x410300014⟩,
   ⟨.MEM_REFRESH, 0x600010, [], 0xff0f, 0xff0f, 0x0, 0x0, 0x0, 0x0, 0x0, 0x408⟩,
   ⟨.MEM_RETRAIN, 0x600018, [], 0xffff, 0xffff, 0x0, 0x0, 0x0, 0x0, 0x0, 0x3e8⟩,
   ⟨.MEM_SCRUB, 0x600020, [], 0x8000ffffffffffff, 0x80000000000000ff, 0x0, 0x0, 0x0, 0x0, 0x0, 0x8000000000000018⟩,
   ⟨.MEM_CH_STATUS, 0x600100, [(8, 32)], 0xffffffffffff03f7, 0x0, 0x0, 0x0, 0x0, 0x0, 0x0, 0x0⟩,
   ⟨.MEM_CH_ECC, 0x600200, [(8, 32)], 0xffffffffffffffff, 0x0, 0x0, 0x0, 0x0, 0x0, 0x0, 0x0⟩,
   ⟨.MEM_UE_SNAP, 0x600300, [], 0xffffffff00000001, 0x0, 0x0, 0x0, 0x1, 0x0, 0x0, 0x0⟩]

/-- Part 6 of the register map. -/
def regRows6 : List RegRow :=
  [⟨.MEM_UE0, 0x600308, [], 0xffffffffffffffff, 0x0, 0x0, 0x0, 0x0, 0x0, 0x0, 0x0⟩,
   ⟨.MEM_UE1, 0x600310, [], 0xf30ffffff, 0x0, 0x0, 0x0, 0x0, 0x0, 0x0, 0x0⟩,
   ⟨.MEM_UE2, 0x600318, [], 0xffffffffffffffff, 0x0, 0x0, 0x0, 0x0, 0x0, 0x0, 0x0⟩,
   ⟨.CMP_CFG, 0x700000, [(4096, 8)], 0xe07f000000000003, 0x0, 0x0, 0x0, 0x0, 0x0, 0x0, 0x0⟩,
   ⟨.CMP_STREAM, 0x700008, [(4096, 8)], 0x8000ffff0000313f, 0x0, 0xffff0000313f, 0x0, 0x8000000000000000, 0x0, 0x0, 0x118⟩,
   ⟨.CMP_JOB_MODE, 0x700010, [(4096, 8)], 0xef13f, 0xef13f, 0x0, 0x0, 0x0, 0x0, 0x0, 0x118⟩,
   ⟨.CMP_JOB_SRC, 0x700018, [(4096, 8)], 0xffffffffffffffc0, 0xffffffffffffffc0, 0x0, 0x0, 0x0, 0x0, 0x0, 0x0⟩,
   ⟨.CMP_JOB_DST, 0x700020, [(4096, 8)], 0xffffffffffffffc0, 0xffffffffffffffc0, 0x0, 0x0, 0x0, 0x0, 0x0, 0x0⟩,
   ⟨.CMP_JOB_LEN, 0x700028, [(4096, 8)], 0xffffffffffffffff, 0xffffffffffffffff, 0x0, 0x0, 0x0, 0x0, 0x0, 0x0⟩,
   ⟨.CMP_JOB_CTRL, 0x700030, [(4096, 8)], 0xe000000000000000, 0x0, 0x0, 0x0, 0xe000000000000000, 0x0, 0x0, 0x0⟩,
   ⟨.CMP_JOB_STATUS, 0x700038, [(4096, 8)], 0xff33, 0x0, 0x0, 0x0, 0x0, 0x0, 0x0, 0x0⟩,
   ⟨.CMP_JOB_COUNT, 0x700040, [(4096, 8)], 0xffffffffffffffff, 0x0, 0x0, 0x0, 0x0, 0x0, 0x0, 0x0⟩,
   ⟨.CMP_STAT, 0x700048, [(4096, 8)], 0xffffffffffffffff, 0x0, 0x0, 0x0, 0x0, 0x0, 0x0, 0x0⟩,
   ⟨.CMP_BLOCKS, 0x700050, [(4096, 8)], 0xffffffffffffffff, 0x0, 0x0, 0x0, 0x0, 0x0, 0x0, 0x0⟩,
   ⟨.CMP_TAB, 0x700100, [(4096, 8), (16, 4), (8, 2)], 0xffffffffffffffff, 0x0, 0xffffffffffffffff, 0x0, 0x0, 0x0, 0x0, 0x0⟩,
   ⟨.GLB_HIF_LINK, 0x2000, [], 0xffffffff00000731, 0x0, 0x0, 0x0, 0x0, 0x0, 0x0, 0x0⟩,
   ⟨.GLB_HIF_CTO, 0x2008, [], 0xffffffffffffffff, 0x0, 0x0, 0x0, 0x0, 0x0, 0x0, 0x0⟩,
   ⟨.GLB_HIF_ERR, 0x2010, [], 0xffffffffffffffff, 0x0, 0x0, 0x0, 0x0, 0x0, 0x0, 0x0⟩,
   ⟨.GLB_HIF_ACCESS, 0x2018, [], 0xffff0000ffffffff, 0x0, 0x0, 0x0, 0x0, 0x0, 0x0, 0x0⟩,
   ⟨.GLB_HIF_BIAS, 0x2020, [], 0xffffffffffffffff, 0x0, 0x0, 0x0, 0x0, 0x0, 0x0, 0x0⟩,
   ⟨.GLB_HIF_RESET, 0x2028, [], 0xffffffff00000003, 0x0, 0x0, 0x0, 0x0, 0x0, 0x0, 0x0⟩,
   ⟨.DMA_CFG, 0x800000, [(4096, 128)], 0xff031fff1fff0003, 0xff0000001fff0003, 0x0, 0x0, 0x0, 0x0, 0x0, 0x6402000000000002⟩,
   ⟨.DMA_HEAD, 0x800008, [(4096, 128)], 0xffffffffffffffc2, 0xffffffffffffffc2, 0x0, 0x0, 0x0, 0x0, 0x0, 0x0⟩,
   ⟨.DMA_CTRL, 0x800010, [(4096, 128)], 0xc000000000000000, 0x0, 0x0, 0x0, 0xc000000000000000, 0x0, 0x0, 0x0⟩,
   ⟨.DMA_STATUS, 0x800018, [(4096, 128)], 0xffffffffffff0007, 0x0, 0x0, 0x0, 0x0, 0x0, 0x0, 0x0⟩,
   ⟨.DMA_ERR, 0x800020, [(4096, 128)], 0xffffffffffffffc1, 0x0, 0x0, 0x0, 0x0, 0x0, 0x0, 0x0⟩,
   ⟨.DMA_ERR_INFO, 0x800028, [(4096, 128)], 0xffffffffffffffff, 0x0, 0x0, 0x0, 0x0, 0x0, 0x0, 0x0⟩,
   ⟨.DMA_BYTES, 0x800030, [(4096, 128)], 0xffffffffffffffff, 0x0, 0x0, 0x0, 0x0, 0x0, 0x0, 0x0⟩,
   ⟨.DMA_LIMIT, 0x800038, [(4096, 128)], 0xffffffffffffffff, 0xffffffff, 0x0, 0x0, 0x0, 0x0, 0x0, 0x100000⟩,
   ⟨.DMA_GSTAT, 0x880000, [], 0xffffffff000000ff, 0x0, 0x0, 0x0, 0x0, 0x0, 0x0, 0x0⟩,
   ⟨.NET_PORT_CFG, 0x900000, [(4096, 4)], 0xe000000000000007, 0xe000000000000007, 0x0, 0x0, 0x0, 0x0, 0x0, 0xc000000000000000⟩,
   ⟨.NET_PORT_FEC, 0x900008, [(4096, 4)], 0xffffffffffffffff, 0x0, 0x0, 0x0, 0x0, 0x0, 0x0, 0x0⟩,
   ⟨.NET_SUB_CFG, 0x908000, [(256, 16)], 0xfc00000000003fff, 0xfc00000000003fff, 0x0, 0x0, 0x0, 0x0, 0x0, 0x2400⟩,
   ⟨.NET_SUB_MAC, 0x908008, [(256, 16)], 0xffffffffffff, 0xffffffffffff, 0x0, 0x0, 0x0, 0x0, 0x0, 0x0⟩,
   ⟨.NET_SUB_IPV4, 0x908010, [(256, 16)], 0xffffffff, 0xffffffff, 0x0, 0x0, 0x0, 0x0, 0x0, 0x0⟩,
   ⟨.NET_SUB_IPV6, 0x908018, [(256, 16), (8, 2)], 0xffffffffffffffff, 0xffffffffffffffff, 0x0, 0x0, 0x0, 0x0, 0x0, 0x0⟩,
   ⟨.NET_SUB_STATUS, 0x908028, [(256, 16)], 0xffffffffffff0007, 0x0, 0x0, 0x0, 0x0, 0x0, 0x0, 0x0⟩,
   ⟨.NET_SUB_CNT0, 0x908030, [(256, 16)], 0xffffffffffffffff, 0x0, 0x0, 0x0, 0x0, 0x0, 0x0, 0x0⟩,
   ⟨.NET_SUB_CNT1, 0x908038, [(256, 16)], 0xffffffffffffffff, 0x0, 0x0, 0x0, 0x0, 0x0, 0x0, 0x0⟩,
   ⟨.NET_EXQ_RX, 0x908040, [(256, 16)], 0xffffffffffffffcf, 0xffffffffffffffcf, 0x0, 0x0, 0x0, 0x0, 0x0, 0x0⟩]

/-- Part 7 of the register map. -/
def regRows7 : List RegRow :=
  [⟨.NET_EXQ_RX_IDX, 0x908048, [(256, 16)], 0xffffffffffff, 0x0, 0x0, 0x0, 0x0, 0xffff, 0x0, 0x0⟩,
   ⟨.NET_EXQ_TX, 0x908050, [(256, 16)], 0xffffffffffffffcf, 0xffffffffffffffcf, 0x0, 0x0, 0x0, 0x0, 0x0, 0x0⟩,
   ⟨.NET_EXQ_TX_IDX, 0x908058, [(256, 16)], 0xffff0000ffff, 0xffff, 0x0, 0x0, 0x0, 0x0, 0x0, 0x0⟩,
   ⟨.AVE_CFG, 0xa00000, [(128, 4096)], 0xffffffffffffffff, 0xffffffffffffffff, 0x0, 0x0, 0x0, 0x0, 0x0, 0x5356⟩,
   ⟨.AVE_MAC, 0xa00008, [(128, 4096)], 0xffffffffffff, 0xffffffffffff, 0x0, 0x0, 0x0, 0x0, 0x0, 0x0⟩,
   ⟨.AVE_IP0, 0xa00010, [(128, 4096)], 0xffffffffffffffff, 0xffffffffffffffff, 0x0, 0x0, 0x0, 0x0, 0x0, 0x0⟩,
   ⟨.AVE_IP1, 0xa00018, [(128, 4096)], 0xffffffffffffffff, 0xffffffffffffffff, 0x0, 0x0, 0x0, 0x0, 0x0, 0x0⟩,
   ⟨.AVE_PARAM, 0xa00020, [(128, 4096)], 0xffffffffffffffff, 0xffffffffffffffff, 0x0, 0x0, 0x0, 0x0, 0x0, 0x81000c803e81000⟩,
   ⟨.AVE_CMD, 0xa00028, [(128, 4096)], 0x7, 0x0, 0x0, 0x0, 0x0, 0x7, 0x0, 0x0⟩,
   ⟨.AVE_STATUS, 0xa00030, [(128, 4096)], 0xffffffff00ff0f07, 0x0, 0x0, 0x0, 0x0, 0x0, 0x0, 0x0⟩,
   ⟨.AVE_SNAP, 0xa00038, [(128, 4096)], 0xffffffff00000001, 0x0, 0x0, 0x0, 0x1, 0x0, 0x0, 0x0⟩,
   ⟨.AVE_OFS0, 0xa00040, [(128, 4096)], 0xffffffffffffffff, 0x0, 0x0, 0x0, 0x0, 0x0, 0x0, 0x0⟩,
   ⟨.AVE_OFS1, 0xa00048, [(128, 4096)], 0xffffffffffffffff, 0x0, 0x0, 0x0, 0x0, 0x0, 0x0, 0x0⟩,
   ⟨.AVE_OFS2, 0xa00050, [(128, 4096)], 0xffffffffffffffff, 0x0, 0x0, 0x0, 0x0, 0x0, 0x0, 0x0⟩,
   ⟨.AVE_CNT0, 0xa00058, [(128, 4096)], 0xffffffffffffffff, 0x0, 0x0, 0x0, 0x0, 0x0, 0x0, 0x0⟩,
   ⟨.AVE_CNT1, 0xa00060, [(128, 4096)], 0xffffffffffffffff, 0x0, 0x0, 0x0, 0x0, 0x0, 0x0, 0x0⟩,
   ⟨.AVE_GLOBAL, 0xa80000, [], 0xffffffffffffffff, 0xffffffffffff0000, 0x0, 0x0, 0x0, 0x0, 0x0, 0x5356001400640000⟩,
   ⟨.AVE_UNATTR, 0xa80100, [(8, 16)], 0xffffffffffffffff, 0x0, 0x0, 0x0, 0x0, 0x0, 0x0, 0x0⟩,
   ⟨.AVE_TRIG, 0xa80200, [(8, 4)], 0x8000001fffffffff, 0x80000000ffffffff, 0x0, 0x0, 0x0, 0x0, 0x0, 0x4a817c80⟩,
   ⟨.AVE_TRIG_STAT, 0xa80220, [(8, 4)], 0xffffffffffffffff, 0x0, 0x0, 0x0, 0x0, 0x0, 0x0, 0x0⟩,
   ⟨.AVE_TRIG_SEND, 0xa80300, [], 0x80030fff0000ffff, 0x30fff0000ffff, 0x0, 0x0, 0x8000000000000000, 0x0, 0x0, 0x0⟩,
   ⟨.AVE_TRIG_SEND_TIME, 0xa80308, [], 0xffffffffffffffff, 0xffffffffffffffff, 0x0, 0x0, 0x0, 0x0, 0x0, 0x0⟩,
   ⟨.AVE_TRIG_FWD, 0xa80340, [(16, 4)], 0x8f030fff00000000, 0x8f030fff00000000, 0x0, 0x0, 0x0, 0x0, 0x0, 0x0⟩,
   ⟨.AVE_TRIG_FWD_OFS, 0xa80348, [(16, 4)], 0xffffffff, 0xffffffff, 0x0, 0x0, 0x0, 0x0, 0x0, 0x1312d0⟩,
   ⟨.DIS_CTRL, 0xb00000, [(65536, 2)], 0xfc0000ff00ffffff, 0x0, 0x7c00000000ffffff, 0x0, 0x8000000000000000, 0x0, 0x0, 0xc00000000000000⟩,
   ⟨.DIS_HTIM, 0xb00008, [(65536, 2)], 0xffffffffffffffff, 0x0, 0xffffffffffffffff, 0x0, 0x0, 0x0, 0x0, 0x7800058002c0094⟩,
   ⟨.DIS_VTIM, 0xb00010, [(65536, 2)], 0xffffffffffffffff, 0x0, 0xffffffffffffffff, 0x0, 0x0, 0x0, 0x0, 0x438000400050024⟩,
   ⟨.DIS_LAYER, 0xb00018, [(65536, 2)], 0x1031fffff, 0x0, 0x1031fffff, 0x0, 0x0, 0x0, 0x0, 0x2001e00⟩,
   ⟨.DIS_RECT, 0xb00020, [(65536, 2), (8, 2)], 0xffffffffffffffff, 0x0, 0xffffffffffffffff, 0x0, 0x0, 0x0, 0x0, 0x7800438⟩,
   ⟨.DIS_LINK, 0xb00030, [(65536, 2)], 0xffffffff00003f0f, 0xf, 0x0, 0x0, 0x0, 0x0, 0x0, 0xf⟩,
   ⟨.DIS_STAT, 0xb00038, [(65536, 2)], 0xffffffffffffffff, 0x0, 0x0, 0x0, 0x0, 0x0, 0x0, 0x0⟩,
   ⟨.DIS_LSTAT, 0xb00040, [(65536, 2), (8, 2)], 0x8fffffffffffffff, 0x0, 0x0, 0x0, 0x0, 0x0, 0x0, 0x0⟩,
   ⟨.DIS_AUX, 0xb00050, [(65536, 2)], 0xfff00000000fffff, 0xff00000000fffff, 0x0, 0x0, 0x8000000000000000, 0x0, 0x0, 0x0⟩,
   ⟨.DIS_AUX_DATA, 0xb00058, [(65536, 2), (8, 2)], 0xffffffffffffffff, 0xffffffffffffffff, 0x0, 0x0, 0x0, 0x0, 0x0, 0x0⟩,
   ⟨.DIS_PAL, 0xb08000, [(65536, 2), (8192, 2), (8, 1024)], 0xffffffff, 0xffffffff, 0x0, 0x0, 0x0, 0x0, 0x0, 0x0⟩,
   ⟨.STK_STATUS, 0xc00000, [], 0xffffffff0007, 0x0, 0x0, 0x0, 0x0, 0x0, 0x0, 0x0⟩,
   ⟨.STK_CMD, 0xc00008, [], 0xff, 0x0, 0x0, 0x0, 0x0, 0xff, 0x0, 0x0⟩,
   ⟨.STK_ARG, 0xc00010, [(8, 4)], 0xffffffffffffffff, 0xffffffffffffffff, 0x0, 0x0, 0x0, 0x0, 0x0, 0x0⟩,
   ⟨.STK_QUEUE, 0xc00030, [], 0xffffffffffff001f, 0x0, 0x0, 0x0, 0x0, 0x0, 0x0, 0x0⟩,
   ⟨.STK_CANCEL, 0xc00038, [], 0x800000000000ffff, 0xffff, 0x0, 0x0, 0x8000000000000000, 0x0, 0x0, 0x0⟩]

/-- Part 8 of the register map. -/
def regRows8 : List RegRow :=
  [⟨.STK_RESULT, 0xc00040, [(8, 16)], 0xffff07ffffffffff, 0x0, 0x0, 0x0, 0x0, 0x0, 0x0, 0x0⟩,
   ⟨.SEC_STATUS, 0xd00000, [], 0xffff03ff, 0x0, 0x0, 0x0, 0x0, 0x0, 0x0, 0x0⟩,
   ⟨.SEC_SVN, 0xd00008, [], 0xffffffffffff, 0x0, 0x0, 0x0, 0x0, 0x0, 0x0, 0x0⟩,
   ⟨.SEC_REV, 0xd00010, [], 0xffffffffffffffff, 0x0, 0x0, 0x0, 0x0, 0x0, 0x0, 0x0⟩,
   ⟨.SEC_SERIAL, 0xd00018, [], 0xffffffffffff, 0x0, 0x0, 0x0, 0x0, 0x0, 0x0, 0x0⟩,
   ⟨.SEC_ID_HASH, 0xd00020, [(8, 6)], 0xffffffffffffffff, 0x0, 0x0, 0x0, 0x0, 0x0, 0x0, 0x0⟩,
   ⟨.SEC_PLANKEY_HASH, 0xd00050, [(8, 6)], 0xffffffffffffffff, 0x0, 0x0, 0x0, 0x0, 0x0, 0x0, 0x0⟩,
   ⟨.SEC_MEAS, 0xd00080, [], 0xffffffffff, 0x0, 0x0, 0x0, 0x0, 0x0, 0x0, 0x0⟩,
   ⟨.SEC_SPDM, 0xd00088, [], 0xffffffffffff, 0x0, 0x0, 0x0, 0x0, 0x0, 0x0, 0x0⟩,
   ⟨.EVT_CTRL, 0x10000, [], 0xc000ffffffff0000, 0xc000ffffffff0000, 0x0, 0x0, 0x0, 0x0, 0x0, 0x4000000000640000⟩,
   ⟨.EVT_RING, 0x10008, [], 0xfffffffffffff01f, 0xfffffffffffff01f, 0x0, 0x0, 0x0, 0x0, 0x0, 0xa⟩,
   ⟨.EVT_RING_IDX, 0x10010, [], 0xffffffffffff, 0x0, 0x0, 0x0, 0x0, 0xffff, 0x0, 0x0⟩,
   ⟨.EVT_STAT, 0x10018, [], 0xffffffffffffffff, 0x0, 0x0, 0x0, 0x0, 0x0, 0x0, 0x0⟩,
   ⟨.EVT_SEQ, 0x10020, [], 0xffffffffffffffff, 0x0, 0x0, 0x0, 0x0, 0x0, 0x0, 0x0⟩,
   ⟨.EVT_SWTEST, 0x10028, [], 0xffff, 0x0, 0x0, 0x0, 0x0, 0xffff, 0x0, 0x0⟩,
   ⟨.EVT_INJ, 0x10030, [], 0xc0c7000000000000, 0x7000000000000, 0x0, 0x0, 0xc000000000000000, 0x0, 0x0, 0x0⟩,
   ⟨.EVT_INJ_ARG, 0x10038, [], 0xffffffffffffffff, 0xffffffffffffffff, 0x0, 0x0, 0x0, 0x0, 0x0, 0x0⟩,
   ⟨.EVT_RESTART, 0x10040, [], 0xffff00ffffffffff, 0x0, 0x0, 0x0, 0x0, 0x0, 0x0, 0x0⟩,
   ⟨.EVT_PEND, 0x10100, [(8, 16)], 0xffffffffffffffff, 0x0, 0x0, 0x0, 0x0, 0x0, 0x0, 0x0⟩,
   ⟨.EVT_SRC, 0x12000, [(8, 1024)], 0xffffffff001fff03, 0x1fff02, 0x0, 0x1, 0x0, 0x0, 0x0, 0x2⟩,
   ⟨.PWR_RAIL, 0xe00000, [(8, 11)], 0xffff0003ffff, 0x0, 0x0, 0x0, 0x0, 0x0, 0x0, 0x0⟩,
   ⟨.PWR_CTRL, 0xe00100, [], 0xffff000000000007, 0x3, 0x0, 0x0, 0x0, 0x0, 0x0, 0x0⟩,
   ⟨.PWR_TOTAL, 0xe00108, [], 0xffffffffffffffff, 0x0, 0x0, 0x0, 0x0, 0x0, 0x0, 0x0⟩,
   ⟨.THM_TEMP, 0xe10000, [(8, 8)], 0xffff0000ffff, 0x0, 0x0, 0x0, 0x0, 0x0, 0x0, 0x800000000000⟩,
   ⟨.THM_LIMIT, 0xe10040, [], 0xffff00ffffff, 0xffff00ffffff, 0x0, 0x0, 0x0, 0x0, 0x0, 0x82000500730⟩,
   ⟨.THM_STATUS, 0xe10048, [], 0xffffffff0000000f, 0x0, 0x0, 0x0, 0x0, 0x0, 0x0, 0x0⟩,
   ⟨.MGT_SMB, 0xe20000, [], 0xc000ffffffff007f, 0x4000000000000000, 0x0, 0x0, 0x8000000000000000, 0x0, 0x0, 0x4000000000000058⟩,
   ⟨.MGT_IDCODE, 0xe20008, [], 0xffffffff, 0x0, 0x0, 0x0, 0x0, 0x0, 0x0, 0x24020a6b⟩]

/-- The whole register map. -/
def regRows : List RegRow :=
  regRows1 ++ regRows2 ++ regRows3 ++ regRows4 ++ regRows5 ++ regRows6 ++ regRows7 ++ regRows8

/-- Reads the indices of a register from the distance of an address to its base, outermost index first. -/
def regIdx : List (Nat × Nat) → Nat → Option (List Nat)
  | [], d => if d = 0 then some [] else none
  | (stride, n) :: rest, d =>
    if d / stride < n then (regIdx rest (d % stride)).map ((d / stride) :: ·) else none

/-- The row and the indices that an address stands in, if any. -/
def RegRow.hit (r : RegRow) (a : Nat) : Option (RegRow × List Nat) :=
  if r.base ≤ a then (regIdx r.dims (a - r.base)).map (r, ·) else none

/-- The register at a BAR0 address; `none` for a reserved address (R4, R21). -/
def findReg (a : Nat) : Option (RegRow × List Nat) := regRows.findSome? (·.hit a)


/-- The default severity of each event source (the event tables of the chapters; R522), as ranges. -/
def severityRuns : List (Nat × Nat × Nat) :=
  [(1, 1, 2), (2, 2, 1), (4, 4, 3), (9, 9, 1), (11, 12, 1), (13, 13, 2), (16, 18, 1), (20, 20, 3), (21, 21, 1), (24, 24, 1), (26, 27, 2), (32, 33, 1), (35, 35, 2), (37, 37, 3), (38, 38, 2), (41, 41, 2), (43, 43, 1), (45, 46, 1), (64, 67, 1), (76, 79, 1), (80, 87, 2), (97, 98, 1), (105, 106, 2), (128, 139, 1), (140, 147, 2), (148, 155, 1), (160, 171, 1), (172, 183, 2), (185, 185, 1), (192, 211, 1), (213, 215, 1), (256, 259, 1), (260, 263, 2), (265, 265, 1), (267, 268, 1), (272, 286, 1), (336, 336, 1), (337, 337, 2), (338, 338, 1), (352, 359, 1), (368, 375, 2), (376, 377, 1)] ++
  [(512, 575, 2), (576, 643, 1), (644, 644, 2), (645, 646, 1), (657, 657, 1), (658, 658, 2), (704, 707, 2), (708, 709, 3), (711, 711, 1), (744, 759, 1), (760, 767, 2), (768, 916, 1), (930, 930, 2), (931, 931, 1), (932, 932, 2), (933, 935, 1), (962, 963, 2), (964, 965, 1), (968, 971, 1), (977, 977, 1), (978, 979, 2), (980, 980, 1), (981, 982, 3), (983, 983, 2), (985, 985, 1), (992, 995, 1), (998, 999, 1), (1002, 1002, 2)]

/-- The default severity of source `s`: 0 INFO, 1 WARN, 2 ERROR, 3 FATAL. The four sources of a Turf core
are 0, 2, 0 and 1 (Table 14-11). -/
def defaultSeverity (s : Nat) : Nat :=
  if 384 ≤ s ∧ s < 512 then (match s % 4 with | 1 => 2 | 3 => 1 | _ => 0)
  else ((severityRuns.find? fun r => r.1 ≤ s && s ≤ r.2.1).map (·.2.2)).getD 0

/-- Table 9-3: the default coefficients c[1] to c[16] of a bank, in units of 2^-19 (bank 0 HB63B, bank 1 MF15). -/
def defaultCoef : Nat → List Int
  | 0 => [166226, -53680, 30220, -19600, 13380, -9273, 6401, -4345, 2871, -1830, 1111, -633, 328, -145, 46, -5]
  | _ => [156800, -31360, 6272, -640, 0, 0, 0, 0, 0, 0, 0, 0, 0, 0, 0, 0]

/-- Table 0 of a codec unit as CMP_TAB reads it (R404): the word of sixteen 4-bit fields of index `wd`. -/
def defaultCodeTab (wd : Nat) : Nat := if wd = 0 then 0xfffffba987654321 else 0xfffffffffff

/-- The reset values of the registers whose value depends on an index: CNV_SLICE.POS, DDC_COEF, EVT_SRC,
ADM_RES (Table 16-4, in 1/65,536 byte per DCLK at 20 GHz) and CMP_TAB (table 0, R404). -/
def resetIndexed (id : RegId) (ix : List Nat) (w : Nat) : Nat :=
  match id, ix with
  | .CNV_SLICE, [_, k] => w + (if k = 16 then 31 else k) * 2 ^ 48
  | .DDC_COEF0, [_, _, b] => w + (if b = 0 then 16 else 4)
  | .DDC_COEFR, [_, _, b, r] =>
    let c := fun i => ((defaultCoef b).getD i 0 % 2 ^ 20).toNat
    c (2 * r) + c (2 * r + 1) * 2 ^ 32
  | .EVT_SRC, [s] => w + s * 2 ^ 10 + defaultSeverity s * 2 ^ 8
  | .ADM_RES, [r] => w + (if r = 0 then 8808038 else if r = 1 then 2516582 else if r < 18 then 0 else 4194304) * 2 ^ 32
  | .CMP_TAB, [_, t, wd] => if t = 0 then defaultCodeTab wd else w
  | _, _ => w

/-- The registers whose reset value is not zero. -/
def resetRows : List (RegId × Nat × List (Nat × Nat) × Nat) :=
  [(.GLB_ID, 0x0, [], 0x1214020),
   (.GLB_CAPS, 0x8, [], 0x2480100020601044),
   (.CLK_REF, 0x20000, [], 0x400),
   (.CLK_MPLL, 0x20008, [], 0x7d00100),
   (.CLK_LOCK, 0x20018, [], 0xa040001000014),
   (.CLK_HOLD, 0x20020, [], 0xa0014003203e8),
   (.CLK_STATUS, 0x20028, [], 0x200),
   (.CLK_PIX, 0x20040, [(8, 2)], 0x28000000),
   (.CLK_OUT, 0x20080, [(8, 4)], 0x7d000000000),
   (.CNV_CHCORR, 0x50010, [(16384, 4)], 0x8000),
   (.CNV_BG, 0x50018, [(16384, 4)], 0x20800ad8001400),
   (.CNV_BG_STATUS, 0x50020, [(16384, 4)], 0x1009),
   (.CNV_SLICE, 0x50100, [(16384, 4), (8, 17)], 0x80000000),
   (.CNV_ATTCAL, 0x50200, [(16384, 4), (8, 32)], 0x8000),
   (.MON_CFG, 0x60000, [(16, 12)], 0x6403e800000000),
   (.PG_CFG, 0x68000, [(64, 8)], 0x8),
   (.PG_TIMING, 0x68008, [(64, 8)], 0x100000002),
   (.TBS_SLEW, 0x30010, [], 0x14f8b5900000000),
   (.TBS_SERVO, 0x30030, [], 0x40a030a00320000),
   (.TBS_TICK, 0x30040, [], 0xc3500),
   (.TDC_CH, 0x70000, [(32, 12)], 0xa00000000000000),
   (.TDC_CTRL, 0x70300, [], 0x3e8000007fc),
   (.TDC_FREQ_CFG, 0x70400, [], 0x1312d0),
   (.CAL_REF, 0x40000, [], 0x4fc18),
   (.CAL_POLICY, 0x40020, [], 0x40000a0a00000050),
   (.CAL_STORE, 0x40028, [], 0x3),
   (.DDC_STAGE, 0x80040, [(4096, 20), (8, 12)], 0x13),
   (.DDC_COEF0, 0x80400, [(4096, 20), (256, 12), (128, 2)], 0x4000000000000),
   (.DDC_COEFR, 0x80408, [(4096, 20), (256, 12), (128, 2), (8, 8)], 0x0),
   (.XFM_CTRL, 0xa0010, [(32768, 4)], 0x2aaaa00000001)] ++
  [(.DET_CTRL, 0xc0008, [(4096, 4)], 0x103),
   (.DET_INT, 0xc0010, [(4096, 4)], 0x1000),
   (.DEN_CTRL, 0xd0008, [(4096, 4)], 0x100300400000),
   (.DEN_INT, 0xd0010, [(4096, 4)], 0x10000),
   (.TRG_TBUS, 0xe0240, [(8, 8)], 0x400000000000007d),
   (.TRG_TMR_CFG, 0xe0280, [(16, 4)], 0x1312d0),
   (.TRG_TQ_CFG, 0xe2000, [(256, 16)], 0x100000000),
   (.TRG_TQ_AUTO, 0xe2028, [(256, 16)], 0x3207735940),
   (.TRG_TQ_EFF, 0xe2058, [(256, 16)], 0x32),
   (.TRG_FM_CFG, 0xe8000, [(8192, 4)], 0x100010100),
   (.TRG_FM_SEG, 0xe9000, [(8192, 4), (8, 512)], 0x7fff8000),
   (.ACQ_LEN, 0xf0010, [(4096, 8)], 0x100000000400),
   (.ACQ_SEG, 0xf0018, [(4096, 8)], 0x100000000),
   (.ACQ_LOG, 0xf0020, [(4096, 8)], 0x3e80000007f),
   (.RMU_LEVEL, 0x100010, [(32, 9)], 0x60000000a0000000),
   (.TC_TIMER, 0x200038, [(32768, 32)], 0x98968),
   (.STO_CAP, 0x400000, [], 0x200000001c0000),
   (.STO_POOL, 0x400008, [], 0x1c0000001c0000),
   (.STO_RSV, 0x400010, [], 0x1000000000000),
   (.STO_EXT, 0x400018, [], 0x2000000200000),
   (.ADM_STATUS, 0x500010, [], 0x3f00000000),
   (.ADM_MEM, 0x500018, [], 0x11a800001612),
   (.ADM_LOAD0, 0x500030, [], 0x86666600000000),
   (.ADM_RES, 0x500100, [(8, 34)], 0x0),
   (.MEM_MAP, 0x600000, [], 0x18),
   (.MEM_SCHED, 0x600008, [], 0x410300014),
   (.MEM_REFRESH, 0x600010, [], 0x408),
   (.MEM_RETRAIN, 0x600018, [], 0x3e8),
   (.MEM_SCRUB, 0x600020, [], 0x8000000000000018),
   (.CMP_STREAM, 0x700008, [(4096, 8)], 0x118)] ++
  [(.CMP_JOB_MODE, 0x700010, [(4096, 8)], 0x118),
   (.CMP_TAB, 0x700100, [(4096, 8), (16, 4), (8, 2)], 0x0),
   (.DMA_CFG, 0x800000, [(4096, 128)], 0x6402000000000002),
   (.DMA_LIMIT, 0x800038, [(4096, 128)], 0x100000),
   (.NET_PORT_CFG, 0x900000, [(4096, 4)], 0xc000000000000000),
   (.NET_SUB_CFG, 0x908000, [(256, 16)], 0x2400),
   (.AVE_CFG, 0xa00000, [(128, 4096)], 0x5356),
   (.AVE_PARAM, 0xa00020, [(128, 4096)], 0x81000c803e81000),
   (.AVE_GLOBAL, 0xa80000, [], 0x5356001400640000),
   (.AVE_TRIG, 0xa80200, [(8, 4)], 0x4a817c80),
   (.AVE_TRIG_FWD_OFS, 0xa80348, [(16, 4)], 0x1312d0),
   (.DIS_CTRL, 0xb00000, [(65536, 2)], 0xc00000000000000),
   (.DIS_HTIM, 0xb00008, [(65536, 2)], 0x7800058002c0094),
   (.DIS_VTIM, 0xb00010, [(65536, 2)], 0x438000400050024),
   (.DIS_LAYER, 0xb00018, [(65536, 2)], 0x2001e00),
   (.DIS_RECT, 0xb00020, [(65536, 2), (8, 2)], 0x7800438),
   (.DIS_LINK, 0xb00030, [(65536, 2)], 0xf),
   (.EVT_CTRL, 0x10000, [], 0x4000000000640000),
   (.EVT_RING, 0x10008, [], 0xa),
   (.EVT_SRC, 0x12000, [(8, 1024)], 0x2),
   (.THM_TEMP, 0xe10000, [(8, 8)], 0x800000000000),
   (.THM_LIMIT, 0xe10040, [], 0x82000500730),
   (.MGT_SMB, 0xe20000, [], 0x4000000000000058),
   (.MGT_IDCODE, 0xe20008, [], 0x24020a6b)]

/-- What the register at BAR0 address `a` holds after reset (the Reset column of the register tables). -/
def resetWord (a : Nat) : Word :=
  match resetRows.findSome? (fun r =>
    if r.2.1 ≤ a then (regIdx r.2.2.1 (a - r.2.1)).map (fun ix => resetIndexed r.1 ix r.2.2.2) else none) with
  | some w => BitVec.ofNat 64 w
  | none => 0

end Sys2Proof.Machine
end

