-- ==== Sys2Proof/Machine/State.lean ====
section
/-! DEFINITION. The state of the device, and the state right after reset. -/

namespace Sys2Proof.Machine

/-- The state. `regs` holds what a register reads as (for a shadowed field, the shadow) and `act` the values in
force behind shadowed fields (Table 0-1, RWC); both list only what differs from the reset value. -/
structure State where
  /-- The commands that wait, first in, first out. -/
  pending  : List Instr
  /-- What the registers read as, by BAR0 address (for a shadowed field, the shadow); only what differs from the reset value. -/
  regs     : SMap Word
  /-- The values in force behind shadowed fields (RWC, Table 0-1). -/
  act      : SMap Word
  /-- The latches of the 32-bit reads, by path and register (R6, R9). -/
  snap     : SMap (Option Word)
  /-- The staged low halves of 32-bit writes, by path and register (R8, R9). -/
  staged   : SMap (Option Word)
  /-- The data of the last read a sender made. -/
  readData : Word
  /-- What the device has sent, oldest first. -/
  outs     : List Out
  /-- Device time in ticks (R113). -/
  time     : Nat
  /-- The fraction of a tick below it, in 2^-40 (R114). -/
  frac     : Nat
  /-- The model's own: the counter that the free values of Config are applied to. -/
  freeCtr  : Nat
  /-- The bytes of the store; an unlisted byte is 0 (R380). -/
  store    : Memory
  /-- What the device has written into host memory; an unlisted byte is 0. -/
  hostMem  : Memory
  /-- The package flash; an unlisted byte is 0xFF. -/
  flash    : Memory
  /-- The event controller. -/
  evt      : Evt
  /-- The host interface. -/
  hif      : Hif
  /-- The contexts. -/
  ctxs     : SMap Ctx
  /-- The billets in use. -/
  billets  : SMap Billet
  /-- Records on their way into the store, by store port (16 on for DMA channels, 256 on for inbound avenues). -/
  ports    : SMap Port
  /-- Extents set aside, by acquisition unit (R338). -/
  aside    : SMap Nat
  /-- Whose turn it is among the contexts without deadlines, by destination and class (R369). -/
  served   : SMap Nat
  /-- Lines with an error, by line number (R391, R540). -/
  badLines : SMap Nat
  /-- Clock synthesis. -/
  clk      : Clk
  /-- Plan slots. -/
  plan     : PlanSt
  /-- The timebase. -/
  tbs      : Tbs
  /-- The time inputs. -/
  tdc      : Tdc
  /-- The converter cores. -/
  cnv      : SMap Cnv
  /-- The pulse generators. -/
  pg       : SMap Pg
  /-- Calibration. -/
  cal      : Cal
  /-- The down-converters. -/
  ddc      : SMap Ddc
  /-- The transform pipelines. -/
  xfm      : SMap Xfm
  /-- The samples of the record under construction at a store port, by context. -/
  streams  : SMap (List Smp)
  /-- Frames on their way to a unit, by square. -/
  frames   : SMap (List Frm)
  /-- The detector units. -/
  det      : SMap Det
  /-- The density accumulators. -/
  den      : SMap Den
  /-- The qualifiers. -/
  tq       : SMap Tq
  /-- The level triggers. -/
  lt       : SMap Lt
  /-- The mask units. -/
  fm       : SMap Fm
  /-- The trigger-bus lines. -/
  bus      : SMap Bus
  /-- The events a trigger timer has issued. -/
  tmr      : SMap Nat
  /-- Decisions on their way to an acquisition unit. -/
  decs     : SMap (List Dec)
  /-- The acquisition units. -/
  au       : SMap Au
  /-- Replayed records on their way to a unit, by square. -/
  replay   : SMap (List RRec)
  /-- The Turf cores. -/
  turf     : SMap Core
  /-- The Turf clusters. -/
  clusters : SMap Cluster
  /-- The sub-ports. -/
  net      : SMap NetSub
  /-- The avenues. -/
  ave      : SMap Ave
  /-- The trigger slots. -/
  slots    : SMap TrigSlot
  /-- The display outputs. -/
  dis      : SMap Dis
  /-- The display layers. -/
  layers   : SMap DisLayer
  /-- The memory controller. -/
  mem      : Mem
  /-- The DMA channels. -/
  dma      : SMap Dma
  /-- Datapath restarts. -/
  rst      : Rst
  /-- The Stoker, boot and security. -/
  stk      : Stk
  /-- The codec units. -/
  cmp      : SMap Cmp
  /-- Pins and test access. -/
  pkg      : Pkg
  deriving DecidableEq, Repr

/-- Why a step stops with a fault. Nothing the spec gives a command ends in one: the device reports what goes wrong
in its registers, events and records and goes on. -/
inductive Fault where
  /-- Raised by nothing in this model; it is the one inhabitant the interface asks for. Safe: no step reaches it. -/
  | none
  deriving DecidableEq, Repr

/-- Why a command has no meaning. -/
inductive Refusal where
  /-- Raised by `exec` for a command whose meaning is not written yet. Safe: a run stops there. -/
  | notModelled (mnemonic : String)
  deriving DecidableEq, Repr

/-- The device right after reset: PORST# low and PERST# high (assumption 6), STATE RESET, every register at its reset value, the store, host
memory and flash with nothing listed, nothing fused and no key provisioned (assumption 7). -/
def State.reset : State :=
  { pending := [], regs := [], act := [], snap := [], staged := [], readData := 0, outs := [], time := 0, frac := 0,
    freeCtr := 0, store := [], hostMem := [], flash := [], evt := ⟨0, 0, [], [], 0⟩,
    hif := ⟨false, false, [], ⟨0, 0, 0, false, false, false⟩, ⟨0, 0, 0, false, false, false⟩, 0, 1024, false⟩,
    ctxs := [], billets := [], ports := [], aside := [], served := [], badLines := [],
    clk := ⟨0, 0, 0, .idle, none, false, 0, 0, false, 0, List.replicate 4 ⟨0, 0, 0, 0, false⟩⟩,
    plan := ⟨none, none⟩, tbs := ⟨0, [], 0, 0, 0⟩, tdc := ⟨[], 0, 0, [], false, [], 0, (0, 0)⟩, cnv := [], pg := [],
    cal := ⟨0, 0, false, false, 0, [], [], 0, 0, 1, 0, [], [], [], 0, [], []⟩,
    ddc := [], xfm := [], streams := [], frames := [], det := [], den := [], tq := [], lt := [], fm := [], bus := [],
    tmr := [], decs := [], au := [], replay := [], turf := [], clusters := [], net := [], ave := [], slots := [],
    dis := [], layers := [], mem := ⟨[], [], 0, (0, 0, 0), [], [], [], []⟩, dma := [], rst := ⟨0, 0, 0, [], [], false, false, false⟩,
    stk := ⟨[], none, none, false, 0, 0, [], 0, 0, []⟩, cmp := [],
    pkg := ⟨true, false, false, 0, 0, 0, false, false, [], 1, List.replicate 1042 false, false⟩ }

end Sys2Proof.Machine
end

