-- ==== Sys2Proof/Machine/Ops.lean ====
section
/-! DEFINITION. The named operations over registers, time, host memory and events that every chapter uses. -/

namespace Sys2Proof.Machine

/-! ### Components of the state

Each changes one component and nothing else. -/

/-- `regs` changed. -/
def State.onRegs (s : State) (f : SMap Word → SMap Word) : State := { s with regs := f s.regs }
/-- `snap` changed. -/
def State.onSnap (s : State) (f : SMap (Option Word) → SMap (Option Word)) : State := { s with snap := f s.snap }
/-- `staged` changed. -/
def State.onStaged (s : State) (f : SMap (Option Word) → SMap (Option Word)) : State := { s with staged := f s.staged }
/-- `readData` changed. -/
def State.onReadData (s : State) (f : Word → Word) : State := { s with readData := f s.readData }
/-- `time` changed. -/
def State.onTime (s : State) (f : Nat → Nat) : State := { s with time := f s.time }
/-- `frac` changed. -/
def State.onFrac (s : State) (f : Nat → Nat) : State := { s with frac := f s.frac }
/-- `freeCtr` changed. -/
def State.onFreeCtr (s : State) (f : Nat → Nat) : State := { s with freeCtr := f s.freeCtr }
/-- Bytes written into the store from offset `a` up. -/
def State.putStore (s : State) (a : Nat) (bs : List Byte) : State := { s with store := s.store.write 0 a bs }
/-- The whole store cleared. -/
def State.storeClear (s : State) : State := { s with store := [] }
/-- Bytes programmed into the flash from offset `a` up. -/
def State.flashWrite (s : State) (a : Nat) (bs : List Byte) : State := { s with flash := s.flash.write 0xFF a bs }
/-- `n` bytes of the flash erased from offset `a` up: they read as 0xFF. -/
def State.flashErase (s : State) (a n : Nat) : State :=
  { s with flash := s.flash.filter fun e => e.1 < a || a + n ≤ e.1 }
/-- `evt` changed. -/
def State.onEvt (s : State) (f : Evt → Evt) : State := { s with evt := f s.evt }
/-- `ports` changed. -/
def State.onPorts (s : State) (f : SMap Port → SMap Port) : State := { s with ports := f s.ports }
/-- `aside` changed. -/
def State.onAside (s : State) (f : SMap Nat → SMap Nat) : State := { s with aside := f s.aside }
/-- `badLines` changed. -/
def State.onBadLines (s : State) (f : SMap Nat → SMap Nat) : State := { s with badLines := f s.badLines }
/-- `plan` changed. -/
def State.onPlan (s : State) (f : PlanSt → PlanSt) : State := { s with plan := f s.plan }
/-- `tbs` changed. -/
def State.onTbs (s : State) (f : Tbs → Tbs) : State := { s with tbs := f s.tbs }
/-- `tdc` changed. -/
def State.onTdc (s : State) (f : Tdc → Tdc) : State := { s with tdc := f s.tdc }
/-- `cal` changed. -/
def State.onCal (s : State) (f : Cal → Cal) : State := { s with cal := f s.cal }
/-- `streams` changed. -/
def State.onStreams (s : State) (f : SMap (List Smp) → SMap (List Smp)) : State := { s with streams := f s.streams }
/-- `frames` changed. -/
def State.onFrames (s : State) (f : SMap (List Frm) → SMap (List Frm)) : State := { s with frames := f s.frames }
/-- `lt` changed. -/
def State.onLt (s : State) (f : SMap Lt → SMap Lt) : State := { s with lt := f s.lt }
/-- `fm` changed. -/
def State.onFm (s : State) (f : SMap Fm → SMap Fm) : State := { s with fm := f s.fm }
/-- `bus` changed. -/
def State.onBus (s : State) (f : SMap Bus → SMap Bus) : State := { s with bus := f s.bus }
/-- `tmr` changed. -/
def State.onTmr (s : State) (f : SMap Nat → SMap Nat) : State := { s with tmr := f s.tmr }
/-- `decs` changed. -/
def State.onDecs (s : State) (f : SMap (List Dec) → SMap (List Dec)) : State := { s with decs := f s.decs }
/-- `replay` changed. -/
def State.onReplay (s : State) (f : SMap (List RRec) → SMap (List RRec)) : State := { s with replay := f s.replay }
/-- `slots` changed. -/
def State.onSlots (s : State) (f : SMap TrigSlot → SMap TrigSlot) : State := { s with slots := f s.slots }
/-- `mem` changed. -/
def State.onMem (s : State) (f : Mem → Mem) : State := { s with mem := f s.mem }
/-- `rst` changed. -/
def State.onRst (s : State) (f : Rst → Rst) : State := { s with rst := f s.rst }
/-- `stk` changed. -/
def State.onStk (s : State) (f : Stk → Stk) : State := { s with stk := f s.stk }

/-! ### Registers -/

/-- What the register at address `a` holds. -/
def State.rd (s : State) (a : Nat) : Word := SMap.get (resetWord a) s.regs a

/-- The register at address `a` replaced. -/
def State.wr (s : State) (a : Nat) (v : Word) : State := { s with regs := SMap.set (resetWord a) s.regs a v }

/-- A field of the register at address `a`. -/
def State.fld (s : State) (a : Nat) (f : Fld) : Nat := fget (s.rd a) f

/-- A field of the register at address `a`, as two's complement. -/
def State.fldS (s : State) (a : Nat) (f : Fld) : Int := fgetS (s.rd a) f

/-- A field of the register at address `a` replaced. -/
def State.setFld (s : State) (a : Nat) (f : Fld) (v : Nat) : State := s.wr a (fset (s.rd a) f v)

/-- Several fields of the register at address `a` replaced. -/
def State.setFlds (s : State) (a : Nat) (l : List (Fld × Nat)) : State := s.wr a (fsets (s.rd a) l)

/-- Is a one-bit field set? -/
def State.flag (s : State) (a : Nat) (f : Fld) : Bool := s.fld a f != 0

/-- Adds to a counter that wraps at its width ("modulo 2^n"). -/
def State.addMod (s : State) (a : Nat) (f : Fld) (n : Nat) : State := s.setFld a f (s.fld a f + n)

/-- Adds to a counter that stops at its largest value ("saturating"). -/
def State.addSat (s : State) (a : Nat) (f : Fld) (n : Nat) : State := s.setFld a f (satN f.w (s.fld a f + n))

/-- The value in force of a register with shadowed fields (Table 0-1, RWC). -/
def State.actv (s : State) (a : Nat) : Word := SMap.get (resetWord a) s.act a

/-- A field in force of a register with shadowed fields. -/
def State.afld (s : State) (a : Nat) (f : Fld) : Nat := fget (s.actv a) f

/-- The shadow of the register at `a` taken into force. -/
def State.commitReg (s : State) (a : Nat) : State := { s with act := SMap.set (resetWord a) s.act a (s.rd a) }

/-- The value in force of the register at `a` replaced. -/
def State.setAct (s : State) (a : Nat) (v : Word) : State := { s with act := SMap.set (resetWord a) s.act a v }

/-- The state right after writing `v` at `a` as an access by codes leaves it: RW, RWC and RWL bits take the written
value, W1S bits are set and W1C bits cleared where `v` has ones, all others stay (R5, Table 0-1). -/
def codeWrite (r : RegRow) (old v : Word) : Word :=
  let put := BitVec.ofNat 64 (r.rw ||| r.rwc ||| r.rwl)
  let w1s := BitVec.ofNat 64 r.w1s
  let w1c := BitVec.ofNat 64 r.w1c
  ((old &&& ~~~put) ||| (v &&& put) ||| (v &&& w1s)) &&& ~~~(v &&& w1c)

/-- The write of `v` by access codes to the register at `a`, with the strobes among its W1S bits taken back out:
`strobes` are the fields that clear when taken. -/
def State.wrCodes (s : State) (a : Nat) (v : Word) (strobes : List Fld) : State :=
  match findReg a with
  | none => s
  | some (r, _) => s.wr a (strobes.foldl (fun w f => fset w f (fget (s.rd a) f)) (codeWrite r (s.rd a) v))

/-- Where the snapshot latches and the staging of a path begin among the keys of `snap` and `staged` (R9). -/
def pathKey (p : Path) (a : Nat) : Nat :=
  match p with
  | .host => a
  | .smbus => 2 ^ 26 + a
  | .stoker => 2 ^ 27 + a

/-- A staged low half of the register at `a` on path `p` is dropped (R8). -/
def State.dropStaged (s : State) (p : Path) (a : Nat) : State :=
  { s with staged := SMap.set none s.staged (pathKey p a) none }

/-! ### Free values -/

/-- The next number of the free-value counter, and the state with the counter advanced. -/
def State.fresh (s : State) : Nat × State := (s.freeCtr, (s.onFreeCtr fun _ => s.freeCtr + 1))

/-! ### Time -/

/-- The tick in femtoseconds (TBS_TICK.TICK_FS, R118). -/
def State.tickFs (s : State) : Nat := s.fld rTBS_TICK fTBS_TICK_TICK_FS

/-- `n` nanoseconds in ticks, rounded up. -/
def State.nsTicks (s : State) (n : Nat) : Nat := ceilDiv (n * 1000000) s.tickFs

/-- `n` microseconds in ticks, rounded up. -/
def State.usTicks (s : State) (n : Nat) : Nat := ceilDiv (n * 1000000000) s.tickFs

/-- A number of ticks in whole microseconds. -/
def State.ticksUs (s : State) (t : Nat) : Nat := t * s.tickFs / 1000000000

/-- A number of ticks in whole milliseconds. -/
def State.ticksMs (s : State) (t : Nat) : Nat := t * s.tickFs / 1000000000000

/-- Are the dividers held by a re-lock (R54)? -/
def State.held (s : State) : Bool := s.clk.stage != .idle

/-- Device time with its fraction, in 2^-40 tick. -/
def State.time40 (s : State) : Nat := s.time * 2 ^ 40 + s.frac

/-- Device time in 1/65,536 tick, the unit of instants and placements (R257, R263). -/
def State.now16 (s : State) : Nat := s.time40 / 2 ^ 24

/-- Device time has reached `t`: the event commands that stand for "device time reaches t" begin with this. Device time does not move while
the dividers are held (R118). -/
def State.reach (s : State) (t : Nat) : State := if s.held then s else { s with time := max s.time t }

/-- What a unit of the DCLK domain does: it holds its state while its dividers are held (R15). -/
def State.clocked (s : State) (h : State → State) : State := if s.held then s else h s

/-! ### Global status -/

/-- GLB_STATUS.STATE. -/
def State.glb (s : State) : Nat := s.fld rGLB_STATUS fGLB_STATUS_STATE

/-- GLB_STATUS.STATE is READY. -/
def State.ready (s : State) : Bool := s.glb == 3

/-- GLB_STATUS.PLAN_ACTIVE. -/
def State.planActive (s : State) : Bool := s.flag rGLB_STATUS fGLB_STATUS_PLAN_ACTIVE

/-- The windows that respond in every state: GLB, EVT, STK, SEC and PWR/THM/MGT (R26, R510, Table 1-7). -/
def alwaysWindow (a : Nat) : Bool :=
  a < 0x20000 || (0xC00000 ≤ a && a < 0xF00000)

/-- Can the function be reached: not in reset nor in boot step 1 (R510, R547, R561; assumption 35)? -/
def State.awake (s : State) : Bool := s.glb != 0 && !(s.glb == 1 && s.stk.step == 1)

/-- Does the window of address `a` respond: the others only while STATE reads READY (R26, R510)? -/
def State.windowOpen (s : State) (a : Nat) : Bool := (alwaysWindow a && s.awake) || s.ready

/-- A 64-bit write on path `p` to the register at `a`, whose effect is `h`: discarded while the register's window does
not respond (R26); otherwise it drops a staged low half and takes effect (R8). -/
def State.write64 (s : State) (p : Path) (a : Nat) (h : State → State) : State :=
  if s.windowOpen a then h (s.dropStaged p a) else s

/-- An event of the device reaches it: none does while the device is in reset (R547). -/
def State.live (s : State) (h : State → State) : State := if s.glb = 0 then s else h s

/-! ### The path to the host -/

/-- May the device issue a request (R432): Bus Master Enable is 1 and the link is up. -/
def State.busOk (s : State) : Bool := s.hif.bme && s.fld rGLB_HIF_LINK fGLB_HIF_LINK_WIDTH != 0

/-- The device sends something. -/
def State.send (s : State) (o : Out) : State := { s with outs := s.outs ++ [o] }

/-- A posted write of bytes to host memory. -/
def State.hostWrite (s : State) (a : Nat) (bs : List Byte) : State := { s with hostMem := s.hostMem.write 0 a bs }

/-- A vector that nothing has touched: masked, nothing pending (assumption 8). -/
def vec0 : Vec := ⟨true, false, none, 0, 0⟩

/-- MSI-X vector `v`. -/
def State.vec (s : State) (v : Nat) : Vec := SMap.get vec0 s.hif.vecs v

/-- MSI-X vector `v` replaced. -/
def State.setVec (s : State) (v : Nat) (x : Vec) : State :=
  { s with hif := { s.hif with vecs := SMap.set vec0 s.hif.vecs v x } }

/-- Does the moderation of R529 hold back a message of the vector now? -/
def State.moderated (s : State) (v : Nat) : Bool :=
  match (s.vec v).last with
  | none => false
  | some t => s.fld rEVT_CTRL fEVT_CTRL_MOD_US != 0 && s.time < t + s.usTicks (s.fld rEVT_CTRL fEVT_CTRL_MOD_US)

/-- Signals vector `v`: the message is sent, or stays pending while the vector or the function is masked, no request
may be issued, or the vector's moderation interval runs (R428, R529). -/
def State.signal (s : State) (v : Nat) : State :=
  let x := s.vec v
  if x.masked || s.hif.fnMasked || !s.busOk || s.moderated v then s.setVec v { x with pend := true }
  else (s.setVec v { x with pend := false, last := some s.time }).send (.msix v)

/-! ### Raising an event (R523 to R529) -/

/-- The slots of the event ring. -/
def State.ringSize (s : State) : Nat := 2 ^ s.fld rEVT_RING fEVT_RING_LOG2

/-- The 32 bytes of an event record (Table 24-3). -/
def State.evtRecord (s : State) (src : Nat) (obj : Option Nat) (code detail : Nat) (inj : Bool) (occ : Nat) :
    List Byte :=
  let sev := s.fld (rEVT_SRC src) fEVT_SRC_SEVERITY
  let phase := 1 - s.evt.written / s.ringSize % 2
  leBytes 8 (src + sev * 2 ^ 10 + b2n inj * 2 ^ 12 + satN 16 occ * 2 ^ 16
      + s.fld rGLB_DEVID fGLB_DEVID_DEVID * 2 ^ 32 + phase * 2 ^ 63)
    ++ leBytes 8 s.time
    ++ leBytes 8 (obj.getD 0 % 2 ^ 16 + b2n obj.isSome * 2 ^ 16 + code % 2 ^ 8 * 2 ^ 24 + detail % 2 ^ 32 * 2 ^ 32)
    ++ leBytes 8 (s.fld rEVT_SEQ fEVT_SEQ_NEXT)

/-- Makes the record of an occurrence: nothing while RING_EN is 0; otherwise it takes a SEQ and either goes into the
ring or, with the ring full or no request possible, is counted lost (R526 to R528). -/
def State.ringPut (s : State) (src : Nat) (obj : Option Nat) (code detail : Nat) (inj : Bool) : State :=
  if s.flag rEVT_CTRL fEVT_CTRL_RING_EN then
    let occ := SMap.get 0 s.evt.occ src
    let bs := s.evtRecord src obj code detail inj occ
    let at_ := s.fld rEVT_RING fEVT_RING_ADDR * 4096 + 32 * (s.evt.written % s.ringSize)
    let s1 := s.addMod rEVT_SEQ fEVT_SEQ_NEXT 1
    let s2 := s1.onEvt fun z => { z with occ := SMap.set 0 s1.evt.occ src 0 }
    if s.busOk && s.evt.written - s.evt.released < s.ringSize then
      let s3 := s2.hostWrite at_ bs
      let s4 := s3.onEvt fun z => { z with written := s3.evt.written + 1 }
      s4.setFld rEVT_RING_IDX fEVT_RING_IDX_WRITTEN s4.evt.written
    else
      let s3 := s2.addSat rEVT_STAT fEVT_STAT_LOST 1
      s3.onEvt fun z => { z with lostSince := s3.evt.lostSince + 1 }
  else s

/-- One occurrence of source `src` (R523). `lim` is the source's rate limit in µs, 0 for none, kept per `key`: an
occurrence that finds it in force changes STATUS and COUNT only (R525). -/
def State.raiseWith (s : State) (src : Nat) (obj : Option Nat) (code detail : Nat) (inj : Bool) (lim key : Nat) :
    State :=
  let a := rEVT_SRC src
  let s1 := (s.setFlds a [(fEVT_SRC_STATUS, 1), (fEVT_SRC_COUNT, s.fld a fEVT_SRC_COUNT + 1)]).addMod
    rEVT_STAT fEVT_STAT_RAISED 1
  let s2 := s1.onEvt fun z => { z with occ := SMap.upd 0 s1.evt.occ src (· + 1) }
  if s2.flag a fEVT_SRC_EN then
    let k := src * 65536 + key
    let last := SMap.get 0 s2.evt.last k
    if lim != 0 && last != 0 && s2.time + 1 < last + s2.usTicks lim then s2
    else
      let s3 := if lim = 0 then s2 else s2.onEvt fun z => { z with last := SMap.set 0 s2.evt.last k (s2.time + 1) }
      (s3.ringPut src obj code detail inj).signal (s3.fld a fEVT_SRC_VECTOR)
  else s2

/-- One occurrence of a source without a rate limit. -/
def State.raise (s : State) (src : Nat) (obj : Option Nat := none) (code : Nat := 0) (detail : Nat := 0) : State :=
  s.raiseWith src obj code detail false 0 0

/-- One occurrence of a source that is recorded at most once per `us` microseconds for each `key`. -/
def State.raiseLim (s : State) (us : Nat) (src : Nat) (obj : Option Nat := none) (code : Nat := 0)
    (detail : Nat := 0) (key : Nat := 0) : State :=
  s.raiseWith src obj code detail false us key

/-- R527: as soon as a slot is free and writes are possible again, an EVT_LOST record is written at once. -/
def State.lostRecord (s : State) : State :=
  if s.evt.lostSince != 0 && s.flag rEVT_CTRL fEVT_CTRL_RING_EN && s.busOk
      && s.evt.written - s.evt.released < s.ringSize && s.flag (rEVT_SRC 1) fEVT_SRC_EN then
    let s1 := s.raise 1 none 0 (satN 32 s.evt.lostSince)
    s1.onEvt fun z => { z with lostSince := 0 }
  else s

end Sys2Proof.Machine
end

