-- ==== Sys2Proof/Machine/Store.lean ====
section
/-! DEFINITION. Contexts, cords, billets and records: the operations the store ports, the Woodyard and the egress
agents share (chapters 2, 15 and 16, R531). -/

namespace Sys2Proof.Machine

/-! ### Constants (Table 15-6) -/

/-- Bytes of a billet. -/
abbrev billetBytes : Nat := 16384
/-- Billets of the store. -/
abbrev nBillets : Nat := 1835008
/-- Extents of the extent table. -/
abbrev nExtents : Nat := 2097152
/-- Bytes of the store, 28 GiB. -/
abbrev storeBytes : Nat := 30064771072

/-- Flag bits of a record header (Table 2-2). -/
abbrev flGap : Nat := 1
abbrev flOverload : Nat := 2
abbrev flHoldover : Nat := 4
abbrev flCalHold : Nat := 8
abbrev flShortPre : Nat := 16
abbrev flForced : Nat := 32
abbrev flClipped : Nat := 64
abbrev flLate : Nat := 128
abbrev flCompressed : Nat := 256
abbrev flRestart : Nat := 512
abbrev flDataError : Nat := 1024

/-- Type codes of records (Table 2-3). -/
abbrev tyFault : Nat := 0x70
abbrev tyPad : Nat := 0x7F

/-! ### Contexts -/

/-- A context that was never opened. -/
def ctx0 : Ctx :=
  { st := .closed, entry := [], runtime := false, seq := 0, epoch := 0, epochPend := false, recovering := false,
    flags := 0, lostSince := 0, lastGood := 0, lost := 0, shed := 0, overflow := 0, held := 0, wpos := 0,
    tail := none, exts := [], recs := [], dests := [], olds := [], faults := [], tokens := 0, tokTime := 0, plat := 0,
    waiting := none, zcPub := 0, zcRel := 0, zcEnds := [], zcPos := 0, zcFullSaid := false, zcFirst := 0 }

/-- Context `x`. -/
def State.ctx (s : State) (x : Nat) : Ctx := SMap.get ctx0 s.ctxs x

/-- Context `x` replaced. -/
def State.setCtx (s : State) (x : Nat) (c : Ctx) : State := { s with ctxs := SMap.set ctx0 s.ctxs x c }

/-- Context `x` changed by `f`. -/
def State.updCtx (s : State) (x : Nat) (f : Ctx → Ctx) : State := s.setCtx x (f (s.ctx x))

/-- Bits of word `w` of a context entry (Table 15-1). -/
def entryFld (e : List Word) (w : Nat) (f : Fld) : Nat := fget (e.getD w 0) f

def Ctx.cls (c : Ctx) : Nat := entryFld c.entry 0 ⟨16, 2⟩
def Ctx.policy (c : Ctx) : Nat := entryFld c.entry 0 ⟨18, 2⟩
def Ctx.miss (c : Ctx) : Nat := entryFld c.entry 0 ⟨20, 2⟩
def Ctx.rate (c : Ctx) : Nat := entryFld c.entry 1 ⟨0, 23⟩
def Ctx.burst (c : Ctx) : Nat := entryFld c.entry 1 ⟨32, 32⟩
def Ctx.latency (c : Ctx) : Nat := entryFld c.entry 2 ⟨0, 32⟩
def Ctx.reserve (c : Ctx) : Nat := entryFld c.entry 3 ⟨0, 21⟩
def Ctx.limit (c : Ctx) : Nat := entryFld c.entry 3 ⟨32, 21⟩

/-- TYPE of destination `d` in an entry (0 none). -/
def entryDestType (e : List Word) (d : Nat) : Nat := entryFld e 4 ⟨16 * d, 3⟩
/-- INDEX of destination `d` in an entry. -/
def entryDestIndex (e : List Word) (d : Nat) : Nat := entryFld e 4 ⟨16 * d + 3, 12⟩

/-- Destination `4 + i` is the `i`-th of those that finish an old cord (R349). -/
def Ctx.old? (c : Ctx) (d : Nat) : Option OldDest := if d < 4 then none else c.olds[d - 4]?

def Ctx.destType (c : Ctx) (d : Nat) : Nat := if d < 4 then entryDestType c.entry d else ((c.old? d).map (·.typ)).getD 0
def Ctx.destIndex (c : Ctx) (d : Nat) : Nat := if d < 4 then entryDestIndex c.entry d else ((c.old? d).map (·.ix)).getD 0

/-- Where the part of the stream ends that destination `d` takes. -/
def Ctx.destEnd (c : Ctx) (d : Nat) : Nat := ((c.old? d).map (·.upto)).getD c.wpos

/-- The destinations a context has. -/
def Ctx.destList (c : Ctx) : List Nat := (upTo (4 + c.olds.length)).filter fun d => c.destType d != 0

/-- Words 5 and 6 of the entry that a HOST_ZC destination works with: the present entry's, or those of an old one that still
publishes its cord. -/
def Ctx.zcWord (c : Ctx) (w : Nat) : Word :=
  if (upTo 4).any (fun d => entryDestType c.entry d == 2) then c.entry.getD w 0
  else ((c.olds.find? fun o => o.typ == 2).map fun o => if w = 5 then o.w5 else o.w6).getD 0
def Ctx.zcRing (c : Ctx) : Nat := fget (c.zcWord 5) ⟨12, 52⟩ * 4096
def Ctx.zcLog2 (c : Ctx) : Nat := fget (c.zcWord 6) ⟨0, 5⟩
def Ctx.zcFlushUs (c : Ctx) : Nat := fget (c.zcWord 6) ⟨16, 16⟩

/-- A destination that has delivered nothing yet. -/
def dest0 : DestSt := ⟨0, 0, 0, []⟩

/-- The progress of destination `d`. -/
def Ctx.dest (c : Ctx) (d : Nat) : DestSt := c.dests.getD d dest0

/-- The progress of destination `d` changed. -/
def Ctx.updDest (c : Ctx) (d : Nat) (f : DestSt → DestSt) : Ctx := { c with dests := modAt f c.dests d }

/-- The destination of context `c` of type `ty` and index `ix`, if it has one. -/
def Ctx.findDest (c : Ctx) (ty ix : Nat) : Option Nat :=
  c.destList.find? fun d => c.destType d == ty && c.destIndex d == ix

/-! ### Billets -/

/-- A free billet. -/
def billet0 : Billet := ⟨0, false, false, false, 0, false, false, none⟩

/-- Billet `b`. -/
def State.billet (s : State) (b : Nat) : Billet := SMap.get billet0 s.billets b

/-- Billet `b` replaced. -/
def State.setBillet (s : State) (b : Nat) (x : Billet) : State := { s with billets := SMap.set billet0 s.billets b x }

/-- Does destination `d` of context `c` hold billet `b`, of which a writer holds `w` (R340, R341)? -/
def Ctx.destHolds (c : Ctx) (d b : Nat) (w : Bool) : Bool :=
  c.exts.any fun e => e.billet == b && e.pos < c.destEnd d && (w || (c.dest d).fin < min (e.pos + e.bytes) (c.destEnd d))

/-- The destinations of the owner that hold billet `b`. -/
def State.holders (s : State) (b : Nat) : List Nat :=
  let x := s.billet b
  let c := s.ctx x.owner
  c.destList.filter fun d => c.destHolds d b x.writer

/-- Does a closed acquisition record that waits at a store port have samples in billet `b`? Until it stands in the cord, its writer
holds the billet (R338). -/
def State.closing (s : State) (b : Nat) : Bool := s.ports.any fun e => e.2.inbox.any fun r => r.ring.any fun q => q.billet == b

/-- REF of billet `b` (R340). -/
def State.refOf (s : State) (b : Nat) : Nat :=
  let x := s.billet b
  if x.used then b2n (x.writer || s.closing b) + (s.holders b).length + x.swref else 0

/-- Does a HOST_ZC destination hold billet `b`? -/
def State.zcHold (s : State) (b : Nat) : Bool :=
  let c := s.ctx (s.billet b).owner
  (s.holders b).any fun d => c.destType d == 2

/-- The sum of RESERVE over every context that is OPEN or DRAINING (R344). -/
def State.reservedSum (s : State) : Nat :=
  s.ctxs.foldl (fun n e => if e.2.st = .closed then n else n + e.2.reserve) 0

/-- Free billets in all. -/
def State.freeBillets (s : State) : Nat := nBillets - s.ctxs.foldl (fun n e => n + e.2.held) 0

/-- Free billets of the shared pool: what neither a reservation nor a holding context takes (R344). -/
def State.poolFree (s : State) : Nat :=
  nBillets - s.ctxs.foldl (fun n e => n + if e.2.st = .closed then e.2.held else max e.2.held e.2.reserve) 0

/-- Extents that closed acquisition records have taken out of their units' set-asides and that are not in a cord yet: one for each
ring billet, and two for the parts in the tail (R338, R339). -/
def State.extClosing (s : State) : Nat :=
  s.ports.foldl (fun n e => e.2.inbox.foldl (fun n r => if r.ring.isEmpty then n else n + r.ring.length + 2) n) 0

/-- Free extents: not in a cord, not set aside for an acquisition unit, and not taken by a record that closes (R339). -/
def State.extFree (s : State) : Nat :=
  nExtents - s.ctxs.foldl (fun n e => n + e.2.exts.length) 0 - s.aside.foldl (fun n e => n + e.2) 0 - s.extClosing

/-- STO_POOL_LOW where POOL_FREE has fallen below POOL_WARN since `s0` (Table 15-7). -/
def State.poolLow (s0 s : State) : State :=
  let w := s.fld rSTO_RSV fSTO_RSV_POOL_WARN
  if w ≤ s0.poolFree && s.poolFree < w then s.raise 640 else s

/-- STO_EXTENT_LOW where EXT_FREE has fallen below EXT_WARN since `s0` (Table 15-7). -/
def State.extentLow (s0 s : State) : State :=
  let w := s.fld rSTO_EXT fSTO_EXT_EXT_WARN
  if w ≤ s0.extFree && s.extFree < w then s.raise 646 else s

/-- How many billets a context may still take (R344). -/
def State.canTake (s : State) (c : Ctx) : Nat :=
  (c.reserve - c.held) + (if s.extFree = 0 then 0 else min (c.limit - max c.held c.reserve) s.poolFree)

/-- A free billet, searched from `b` upwards (and round at the end of the store). -/
def freeFrom (m : SMap Billet) : Nat → Nat → Nat
  | 0, b => b
  | n + 1, b => if (SMap.get billet0 m b).used then freeFrom m n ((b + 1) % nBillets) else b

/-- Takes a free billet for context `x`; which one the spec leaves open (R344), so the search starts at a free
value. -/
def State.takeBillet (s : State) (x : Nat) (ring : Bool) : Nat × State :=
  let (k, s1) := s.fresh
  let b := freeFrom s1.billets s1.billets.length (Config.billetPick k % nBillets)
  let s2 := (s1.setBillet b ⟨x, true, true, ring, 0, false, false, none⟩).updCtx x fun c => { c with held := c.held + 1 }
  (b, State.poolLow s s2)

/-- Billet `b` returns to the free state (R342). -/
def State.freeBillet (s : State) (b : Nat) : State :=
  let x := (s.billet b).owner
  ((s.setBillet b billet0).updCtx x fun c =>
      { c with held := c.held - 1, exts := c.exts.filter fun e => e.billet != b }).addMod
    rSTO_CNT0 fSTO_CNT0_FREES 1

/-- What becomes of billet `b` once a hold on it has ended: a billet in host bias whose HOST_ZC hold and software
references have ended starts its switch back (R351), and one with REF 0 in device bias is freed (R342). -/
def State.settleBillet (s : State) (b : Nat) : State :=
  let x := s.billet b
  if !x.used then s
  else if x.switch.isSome then s
  else if x.hbias && !s.zcHold b && x.swref == 0 then s.setBillet b { x with switch := some false }
  else if s.refOf b == 0 && !x.hbias then s.freeBillet b
  else s

/-- A DRAINING context whose destinations hold nothing of its cord any more becomes CLOSED (Table 15-2). -/
def State.closeIfDrained (s : State) (x : Nat) : State :=
  let c := s.ctx x
  if c.st = .draining && c.faults.isEmpty && c.destList.all (fun d => c.destEnd d ≤ (c.dest d).fin) then
    s.setCtx x { c with
      st := .closed, entry := [], recs := [], dests := [], olds := [], tail := none, waiting := none,
      flags := 0, epochPend := false, recovering := false }
  else s

/-- Is record `r` left out at destination `d` (R371)? -/
def CordRec.skips (r : CordRec) (d : Nat) : Bool := r.skipped.getD d false

/-- Where destination `d` stands once it has finished everything up to stream position `p`: records left out at `d` that follow
directly are finished too. -/
def Ctx.skipPast (c : Ctx) (d : Nat) : Nat → Nat → Nat
  | 0, p => p
  | n + 1, p =>
    match c.recs.find? (fun r => p ≤ r.pos) with
    | some r => if r.skips d then Ctx.skipPast c d n (r.pos + r.len) else p
    | none => p

/-- Brings context `x` up to date after its destinations or writers have moved: finished records leave the cord,
billets without holds return, and a drained context closes. -/
def State.settle (s : State) (x : Nat) : State :=
  let s1 := s.updCtx x fun c =>
    let c1 := c.destList.foldl (fun (c : Ctx) d =>
      let q := c.skipPast d c.recs.length (c.dest d).fin
      c.updDest d fun t => { t with fin := q, begun := max t.begun q, doneTo := max t.doneTo q }) c
    { c1 with recs := c1.recs.filter fun r => c1.destList.any fun d => (c1.dest d).fin < min (r.pos + r.len) (c1.destEnd d) }
  let bs := ((s1.ctx x).exts.map (·.billet)).eraseDups
  (bs.foldl State.settleBillet s1).closeIfDrained x

/-! ### Writing the cord -/

/-- The writer leaves the tail billet of context `x` (R341). -/
def State.leaveTail (s : State) (x : Nat) : State :=
  match (s.ctx x).tail with
  | none => s
  | some (b, _) =>
    let s1 := s.setBillet b { s.billet b with writer := false }
    s1.updCtx x fun c => { c with tail := none }

/-- Adds `n` bytes at `off` of billet `b` to the end of a cord, growing its last extent where they follow on it. -/
def Ctx.addBytes (c : Ctx) (b off n : Nat) : Ctx :=
  match c.exts.getLast? with
  | some e =>
    if e.billet = b && e.off + e.bytes = off && e.pos + e.bytes = c.wpos then
      { c with exts := c.exts.dropLast ++ [{ e with bytes := e.bytes + n }], wpos := c.wpos + n }
    else { c with exts := c.exts ++ [⟨c.wpos, b, off, n⟩], wpos := c.wpos + n }
  | none => { c with exts := c.exts ++ [⟨c.wpos, b, off, n⟩], wpos := c.wpos + n }

/-! ### Lines of the memory (R379, R391, R537, R540) -/

/-- G, the interleave grain. -/
def State.grain (s : State) : Nat := 2 ^ s.fld rMEM_MAP fMEM_MAP_GRAIN_LOG2

/-- A place in the memory: channel, bank, row, data line of the row, and row slot. -/
structure MemPlace where
  ch   : Nat
  bank : Nat
  row  : Nat
  c    : Nat
  slot : Nat
  deriving DecidableEq, Repr

/-- The place of store offset `o`. -/
def State.place379 (s : State) (o : Nat) : MemPlace :=
  let g := s.grain
  let k := o / g
  let w := k / 32 * g + o % g
  let l := w / 64
  let slot := l / 28
  let row := slot / 8
  let bank := if s.flag rMEM_MAP fMEM_MAP_XOR then (slot % 8) ^^^ (row % 8) else slot % 8
  ⟨k % 32, bank, row, l % 28, slot⟩

/-- The error flags of a line: bit 0 one flipped bit, bit 1 uncorrectable, bits 2 and 3 the same to be flipped in at the next write,
bit 4 rewritten since its channel failed. A line of a channel that failed and was trained again reads as uncorrectable until then (R537). -/
def State.lineErr (s : State) (line : Nat) : Nat :=
  let e := SMap.get 0 s.badLines line
  if s.mem.lost.isEmpty || 16 ≤ e || !s.mem.lost.contains (s.place379 (64 * line)).ch then e else e ||| 2

/-- What a write of a line leaves of its errors: a rewritten line holds good data, and a flip that waits for the next write
takes place. -/
def State.lineRewritten (s : State) (line : Nat) : Nat :=
  let e := SMap.get 0 s.badLines line
  (if e / 8 % 2 = 1 then 2 else if e / 4 % 2 = 1 then 1 else 0)
    + if s.mem.lost.contains (s.place379 (64 * line)).ch then 16 else 0

/-- Does a line hold an uncorrectable error? -/
def State.lineBad (s : State) (line : Nat) : Bool := s.lineErr line / 2 % 2 == 1

/-- The bytes `bs` written from store offset `a` upwards. -/
def State.storeWrite (s : State) (a : Nat) (bs : List Byte) : State :=
  let s1 := s.putStore a bs
  if bs.isEmpty || (s.badLines.isEmpty && s.mem.lost.isEmpty) then s1
  else (upTo ((a + bs.length - 1) / 64 + 1 - a / 64)).foldl (fun (t : State) i =>
    (t.onBadLines fun _ => SMap.set 0 t.badLines (a / 64 + i) (t.lineRewritten (a / 64 + i)))) s1

/-- Writes bytes at the tail of the cord of context `x`, taking a new tail billet whenever the old one is full
(R337). The first argument bounds the number of billets. -/
def State.appendTail : Nat → State → Nat → List Byte → State
  | 0, s, _, _ => s
  | n + 1, s, x, bs =>
    if bs.isEmpty then s
    else
      let (b, off, s1) := match (s.ctx x).tail with
        | some (b, off) => (b, off, s)
        | none => let (b, s') := s.takeBillet x false; (b, 0, s')
      let room := billetBytes - off
      let now := bs.take room
      let s2 := (s1.storeWrite (b * billetBytes + off) now).updCtx x fun c =>
        { (c.addBytes b off now.length) with tail := some (b, off + now.length) }
      let s3 := if off + now.length = billetBytes then s2.leaveTail x else s2
      State.appendTail n s3 x (bs.drop room)

/-- Appends bytes to the cord of context `x`. -/
def State.append (s : State) (x : Nat) (bs : List Byte) : State :=
  State.appendTail (bs.length / billetBytes + 2) s x bs

/-- How many new billets `n` more bytes need. -/
def Ctx.billetsFor (c : Ctx) (n : Nat) : Nat :=
  match c.tail with
  | some (_, off) => ceilDiv (n - (billetBytes - off)) billetBytes
  | none => ceilDiv n billetBytes

/-- How many new extents `n` more bytes need: one for each new billet, and one where the tail's bytes do not follow on the last extent. -/
def Ctx.extsFor (c : Ctx) (n : Nat) : Nat :=
  c.billetsFor n + match c.tail, c.exts.getLast? with
    | some (b, off), some e => if e.billet = b && e.off + e.bytes = off && e.pos + e.bytes = c.wpos then 0 else 1
    | some _, none => 1
    | none, _ => 0

/-- Can `n` more bytes go into the cord of context `c`: billets by R344, and extents out of `ext` (R336)? -/
def State.roomFor (s : State) (c : Ctx) (n ext : Nat) : Bool := c.billetsFor n ≤ s.canTake c && c.extsFor n ≤ ext

/-- The 32-byte common header (Table 2-1). -/
def header (typ devid ctx epoch seq time len fine flags : Nat) : List Byte :=
  leBytes 8 (typ % 256 + 256 + devid % 2 ^ 16 * 2 ^ 16 + ctx % 2 ^ 12 * 2 ^ 32 + epoch % 2 ^ 16 * 2 ^ 48)
    ++ leBytes 8 seq ++ leBytes 8 time
    ++ leBytes 8 (len % 2 ^ 32 + fine % 2 ^ 9 * 2 ^ 32 + flags % 2 ^ 16 * 2 ^ 48)

/-- The tail fill that brings 32 + n to a multiple of 64 (R28). -/
def tailFill (n : Nat) : List Byte := List.replicate ((64 - (32 + n) % 64) % 64) 0

/-- The delay D_e of a destination, in ticks (Table 16-2). -/
def State.dE (s : State) (c : Ctx) (d : Nat) : Nat :=
  match c.destType d with
  | 1 => s.nsTicks 2000
  | 2 => s.nsTicks (1000 + 1000 * c.zcFlushUs)
  | 3 => s.nsTicks 1000
  | 5 => s.nsTicks 64
  | _ => 0

/-- The deadlines of a record written at `w` (R368): GUARANTEED and ASSURED contexts only, and none for a display
layer (Table 16-2). -/
def State.deadlines (s : State) (c : Ctx) (w : Nat) : List (Option Nat) :=
  (upTo 4).map fun d =>
    if c.cls < 2 && c.destType d != 0 && c.destType d != 4 then some (w + c.latency - c.plat - s.dE c d) else none

/-- Writes one record into the cord: header, body and tail fill. `flags` are the header's FLAGS. An avenue leaves PAD records out
(R469). -/
def State.writeRecord (s : State) (x typ devid epoch seq time fine flags items : Nat) (pre : List Byte)
    (ring : List Ext) (post : List Byte) : State :=
  let n := pre.length + ring.foldl (fun k e => k + e.bytes) 0 + post.length
  let len := n + (tailFill n).length
  let pos := (s.ctx x).wpos
  let tail := (s.ctx x).tail.map (·.1)
  let s1 := s.append x (header typ devid x epoch seq time len fine flags ++ pre)
  let s2 := ring.foldl (fun t e => t.updCtx x fun c =>
      { c with exts := c.exts ++ [{ e with pos := c.wpos }], wpos := c.wpos + e.bytes }) s1
  let s3 := s2.append x (post ++ tailFill n)
  s3.updCtx x fun c =>
    { c with
      recs := c.recs ++ [⟨seq, epoch, typ, pos, 32 + len, items, s.time, s.deadlines c s.time,
        List.replicate 4 false, (upTo 4).map fun d => typ == tyPad && c.destType d == 3⟩],
      zcFirst := if tail.isSome && c.tail.map (·.1) = tail then c.zcFirst else s.time }

/-! ### Zero-copy publishing (R351 to R354) -/

/-- Writes the publish entry of extent `e` (Table 15-3). -/
def State.publish (s : State) (x d : Nat) (e : Ext) : State :=
  let c := s.ctx x
  let r := c.recs.find? fun r => r.pos ≤ e.pos && e.pos < r.pos + r.len
  let seq := (r.map (·.seq)).getD c.seq
  let head := c.recs.any fun r => r.pos == e.pos
  let phase := 1 - c.zcPub / 2 ^ c.zcLog2 % 2
  let w0 := e.billet + e.off * 2 ^ 22 + e.bytes * 2 ^ 36 + b2n head * 2 ^ 51 + b2n ((c.dest d).gap.any (· < e.pos)) * 2 ^ 52
    + phase * 2 ^ 63
  let s1 := s.hostWrite (c.zcRing + 16 * (c.zcPub % 2 ^ c.zcLog2)) (leBytes 8 w0 ++ leBytes 8 seq)
  let e1 := e.pos + e.bytes
  s1.setCtx x ({ c with zcPub := c.zcPub + 1, zcEnds := c.zcEnds ++ [(e.billet, e1)], zcPos := e1 }.updDest d
    fun t => { t with begun := e1, doneTo := e1, gap := t.gap.filter (e.pos ≤ ·) })

/-- Does an extent hold bytes of a record that destination `d` does not leave out (R371)? -/
def Ctx.extWanted (c : Ctx) (d : Nat) (e : Ext) : Bool :=
  c.recs.any fun r => r.pos < e.pos + e.bytes && e.pos < r.pos + r.len && !r.skipped.getD d false

/-- Publishes what may be published, in cord order: extents no writer holds, whose billet is in host bias; a billet
not in host bias starts its switch; a full ring stops publishing and says so once per filling (R354). -/
def State.zcAdvance : Nat → State → Nat → State
  | 0, s, _ => s
  | n + 1, s, x =>
    let c := s.ctx x
    match c.destList.find? (fun d => c.destType d == 2) with
    | none => s
    | some d =>
      if 2 ^ c.zcLog2 ≤ c.zcPub - c.zcRel then
        if c.zcFullSaid then s else (s.raise 644 (some x)).updCtx x fun c => { c with zcFullSaid := true }
      else match c.exts.find? (fun e => c.zcPos ≤ e.pos && e.pos < c.destEnd d && c.extWanted d e) with
        | none => s
        | some e =>
          let b := s.billet e.billet
          if b.writer || !s.busOk || b.switch.isSome then s
          else if b.hbias then State.zcAdvance n (s.publish x d e) x
          else s.setBillet e.billet { b with switch := some true }

/-- Publishing of context `x` carried as far as it goes. -/
def State.zcRun (s : State) (x : Nat) : State := State.zcAdvance ((s.ctx x).exts.length + 1) s x

/-- Everything that follows a write into the cord of context `x`. -/
def State.afterWrite (s0 s : State) (x : Nat) : State := (State.extentLow s0 s).settle x |>.zcRun x

/-! ### FAULT and PAD records -/

/-- Raises the event that a FAULT record of context `x` brings, if any; one that several FAULT records share waits while a context
still holds one of them (R36). -/
def State.raiseReq (s : State) (x : Nat) : Option EvReq → State
  | none => s
  | some e =>
    if e.all && s.ctxs.any (fun c => c.2.faults.any fun f => f.ev == some e) then s else s.raiseLim e.lim e.src e.obj e.code e.detail x

/-- Fills the rest of a partly filled tail billet of context `x` with one PAD record (R37). A PAD written after a
recovery's FAULT record belongs to the new epoch (R531). Where an acquisition record has ended between two multiples of 64 bytes,
the PAD fills the multiples of 64 that are left (R28), none when fewer than 64 bytes are (assumption 57). -/
def State.pad (s : State) (x : Nat) : State :=
  let c := s.ctx x
  match c.tail with
  | none => s
  | some (_, off) =>
    let ep := if c.epochPend then (c.epoch + 1) % 65536 else c.epoch
    if billetBytes < off + 64 then s
    else
      let s1 := s.writeRecord x tyPad (s.fld rGLB_DEVID fGLB_DEVID_DEVID) ep c.seq s.time 0 0 0
        (List.replicate ((billetBytes - off) / 64 * 64 - 32) 0) [] []
      State.afterWrite s s1 x

/-- Closes the tail billet of context `x`: a PAD record fills it and the writer leaves (R37, R350). -/
def State.flushCtx (s : State) (x : Nat) : State :=
  match (s.ctx x).tail with
  | none => s
  | some _ => ((s.pad x).leaveTail x).settle x |>.zcRun x

/-- Writes a FAULT record that has a billet (R36, Table 2-6), and raises its event. In a DRAINING cord the writer then leaves the
billet as at the flush (R37), so that the cord can drain. -/
def State.putFault (s : State) (x : Nat) (f : FaultRec) : State :=
  let c := s.ctx x
  let body := leBytes 8 (f.code + f.source * 2 ^ 16) ++ leBytes 8 f.lost ++ leBytes 8 f.lastGood ++ leBytes 8 f.detail
  let s1 := s.writeRecord x tyFault (s.fld rGLB_DEVID fGLB_DEVID_DEVID) c.epoch c.seq f.time 0 0 0 body [] []
  let s2 := s1.updCtx x fun c => { c with seq := c.seq + 1 }
  let s3 := State.afterWrite s s2 x
  let s4 := if (s3.ctx x).st = .draining then s3.flushCtx x else s3
  s4.raiseReq x f.ev

/-- May a FAULT record of context `x` be written now: it fits the tail, R344 gives the context a billet, or the shared
pool has one, beyond LIMIT (R36)? -/
def State.faultRoom (s : State) (x : Nat) : Bool :=
  let c := s.ctx x
  s.roomFor c 64 s.extFree || (0 < s.poolFree && 0 < s.extFree)

/-- Writes a FAULT record into context `x`, or holds it while the pool is empty (R36). LOST takes every item lost
since the previous record and `more`; GAP of the next record then covers only what is lost after it. DESIGN CHOICE (assumption 58): LOST is
fixed at the detection, also where the record is then held; items lost while it is held go to GAP of the next non-FAULT record. -/
def State.fault (s : State) (x code source detail more : Nat) (ev : Option EvReq) :
    State :=
  let c := s.ctx x
  if c.st = .closed then s
  else
    let f : FaultRec :=
      ⟨code, source, satN 64 (c.lostSince + more), c.lastGood, detail, s.time, ev⟩
    let s1 := s.setCtx x { c with lostSince := 0, flags := c.flags - c.flags % 2 }
    if c.faults.isEmpty && s.faultRoom x then s1.putFault x f
    else s1.updCtx x fun c => { c with faults := c.faults ++ [f] }

/-- The FAULT records held for context `x` are written as far as billets allow (R36). -/
def State.putHeld : Nat → State → Nat → State
  | 0, s, _ => s
  | n + 1, s, x =>
    match (s.ctx x).faults with
    | [] => s
    | f :: fs =>
      if s.faultRoom x then
        State.putHeld n ((s.updCtx x fun c => { c with faults := fs }).putFault x f) x
      else s

/-! ### Losses and recovery -/

/-- `n` items of context `x` are lost and will be declared by GAP or by a FAULT record (R41). -/
def State.loseItems (s : State) (x n : Nat) : State :=
  s.updCtx x fun c =>
    { c with lost := satN 64 (c.lost + n), lostSince := c.lostSince + n, flags := c.flags ||| flGap }

/-- Flags gathered for the next non-FAULT record of context `x` (R30). -/
def State.flagCtx (s : State) (x fl : Nat) : State :=
  if (s.ctx x).st = .opened then s.updCtx x fun c => { c with flags := c.flags ||| fl } else s

/-- A context recovers (R531, steps 2 to 4). While a datapath restart runs, the restart's own FAULT record and epoch stand for
it, and only the event is raised (R532). A DRAINING context takes the FAULT record alone; a CLOSED one nothing. -/
def State.recover (s : State) (x code source detail more : Nat) (ev : Option EvReq) :
    State :=
  let c := s.ctx x
  if c.st = .closed then s
  else if s.glb = 4 then
    (s.updCtx x fun c => { c with lostSince := c.lostSince + more, flags := c.flags ||| flGap }).raiseReq x ev
  else if c.st = .draining then s.fault x code source detail more ev
  else
    let s1 := s.fault x code source detail more ev
    s1.updCtx x fun c =>
      { c with epochPend := true, recovering := true, flags := c.flags ||| flRestart ||| flGap }

/-- Is the MPLL in holdover (R47), or a servo selected and not LOCKED (R120)? -/
def State.inHoldover (s : State) : Bool :=
  s.flag rGLB_STATUS fGLB_STATUS_HOLDOVER ||
    (s.fld rTBS_SERVO fTBS_SERVO_SOURCE != 0 && s.fld rTBS_STATUS fTBS_STATUS_STATE != 2)

/-- HO_GAP: what MPLL domains produce is invalid (R49). -/
def State.hoGap (s : State) : Bool := s.flag rCLK_STATUS fCLK_STATUS_HO_GAP

/-- HOLDOVER while a holdover lasts. -/
def State.holdFlag (s : State) : Nat := if s.inHoldover then flHoldover else 0

/-- A record on its way with nothing in it. -/
def prod0 : Prod :=
  { ctx := 0, typ := 0, time := 0, fine := 0, flags := 0, items := 0, devid := none, canWait := false,
    policed := false, epoch := none, pre := [], ring := [], post := [] }

/-! ### Placing a record (R344, R345, R349, R372) -/

/-- The token bucket of context `c` at the present time (R372). -/
def State.tokensNow (s : State) (c : Ctx) : Nat :=
  min (c.tokens + c.rate * (s.time - c.tokTime)) (64 * c.burst * 65536)

/-- Frees one record of a cord under OVERWRITE: its bytes leave the extents, its items are lost, and the first record after it that
a destination delivers carries GAP (R345, R346). -/
def Ctx.dropRec (c : Ctx) (r : CordRec) : Ctx :=
  let cut := c.exts.flatMap fun e =>
    let a := max e.pos r.pos
    let b := min (e.pos + e.bytes) (r.pos + r.len)
    if b ≤ a then [e]
    else
      (if e.pos < a then [{ e with bytes := a - e.pos }] else [])
        ++ (if b < e.pos + e.bytes then
              [{ pos := b, billet := e.billet, off := e.off + (b - e.pos), bytes := e.pos + e.bytes - b }] else [])
  { c with
    exts := cut, recs := c.recs.filter fun q => q.pos != r.pos,
    lost := satN 64 (c.lost + r.items), overflow := satN 32 (c.overflow + 1),
    dests := c.dests.map fun d => if d.begun ≤ r.pos then { d with gap := d.gap ++ [r.pos] } else d }

/-- May OVERWRITE free record `r`: no destination has begun it, and no software reference covers its billets
(R345)? -/
def State.mayFree (s : State) (c : Ctx) (r : CordRec) : Bool :=
  c.destList.all (fun d => (c.dest d).begun ≤ r.pos) &&
  c.exts.all fun e => e.pos + e.bytes ≤ r.pos || r.pos + r.len ≤ e.pos || (s.billet e.billet).swref == 0

/-- Frees the oldest records that qualify, in cord order, until `need` more bytes have room. -/
def State.overwrite : Nat → State → Nat → Nat → State
  | 0, s, _, _ => s
  | n + 1, s, x, need =>
    let c := s.ctx x
    if s.roomFor c need s.extFree then s
    else match c.recs.find? (s.mayFree c) with
      | none => s
      | some r =>
        let bs := ((c.exts.filter fun e => r.pos < e.pos + e.bytes && e.pos < r.pos + r.len).map (·.billet)).eraseDups
        let s1 := s.setCtx x (c.dropRec r)
        State.overwrite n (bs.foldl State.settleBillet s1) x need

/-- What a store port did with a record: put it in its place, discarded it, or withholds credit (1 policing, 2 no
billet). -/
inductive Placed where
  | stored | discarded | waits (why : Nat)
  deriving DecidableEq, Repr

/-- The length of the record on the way, header and fill included. -/
def Prod.size (r : Prod) : Nat :=
  let n := r.pre.length + r.ring.foldl (fun k e => k + e.bytes) 0 + r.post.length
  32 + n + (tailFill n).length

/-- Writes an accepted record into the cord of its context (R27 to R30, R38, R39). A FAULT record, which only an avenue brings
here (R474), takes neither the flags nor the epoch that wait for the next other record, nor does one that was complete before the
declared gap they stand for (R169). -/
def State.storeRecord (s : State) (r : Prod) : State :=
  let x := r.ctx
  let c := s.ctx x
  let ep := if c.epochPend then (c.epoch + 1) % 65536 else c.epoch
  let dev := r.devid.getD (s.fld rGLB_DEVID fGLB_DEVID_DEVID)
  if r.typ = tyFault then
    let s1 := s.writeRecord x r.typ dev c.epoch c.seq r.time r.fine r.flags r.items r.pre r.ring r.post
    State.afterWrite s (s1.updCtx x fun c => { c with seq := c.seq + 1, waiting := none }) x
  else match r.epoch with
  | some e =>
    let s1 := s.writeRecord x r.typ dev e c.seq r.time r.fine (r.flags ||| s.holdFlag) r.items r.pre r.ring r.post
    State.afterWrite s (s1.updCtx x fun c => { c with seq := c.seq + 1, lastGood := r.time, waiting := none }) x
  | none =>
    let s1 := s.writeRecord x r.typ dev ep c.seq r.time r.fine
      (r.flags ||| c.flags ||| s.holdFlag) r.items r.pre r.ring r.post
    let s2 := s1.updCtx x fun c =>
      { c with
        seq := c.seq + 1, epoch := ep, epochPend := false, recovering := false, flags := 0, lostSince := 0,
        lastGood := r.time, waiting := none }
    let s3 := State.afterWrite s s2 x
    if c.recovering then s3.raiseLim 1000 5 (some x) else s3

/-- The flags of a record or sample that is not stored which the next record of its context carries instead (R30). HOLDOVER is not one of
them: it stays with records open during the holdover (R47, R50). -/
abbrev flCarried : Nat := flOverload + flCalHold + flClipped

/-- A record of an OPEN context is lost at the store port: its items are, and the next record carries its flags (R30, R41). -/
def State.loseRec (s : State) (r : Prod) : State := (s.loseItems r.ctx r.items).flagCtx r.ctx (r.flags &&& flCarried)

/-- A record of an OPEN context sheds at the store port for want of a billet (R345). -/
def State.shedOverflow (s : State) (r : Prod) : State :=
  (s.loseRec r).updCtx r.ctx fun c => { c with overflow := satN 32 (c.overflow + 1), waiting := none }

/-- A record that policing has accepted meets R344 and R345. -/
def State.placeAccepted (s : State) (r : Prod) : State × Placed :=
  let c := s.ctx r.ctx
  let need := r.size - r.ring.foldl (fun k e => k + e.bytes) 0
  let own := if r.ring.isEmpty then 0 else r.ring.length + 2
  if c.faults.isEmpty && s.roomFor c need (s.extFree + own) then (s.storeRecord r, .stored)
  else
    let s1 := s.raiseLim 1000 641 (some r.ctx) 0 0 r.ctx
    match c.policy with
    | 0 => (s1.updCtx r.ctx fun c => { c with waiting := some ((c.waiting.map (·.1)).getD s.time, 2) }, .waits 2)
    | 2 =>
      let s2 := State.overwrite (c.recs.length + 1) s1 r.ctx need
      if (s2.ctx r.ctx).faults.isEmpty && s2.roomFor (s2.ctx r.ctx) need (s2.extFree + own) then (s2.storeRecord r, .stored)
      else (s2.shedOverflow r, .discarded)
    | _ => (s1.shedOverflow r, .discarded)

/-- Policing's withholding of credit ends: its time is added to ADM_CTX_STAT.STALL_US (R372). -/
def State.stallEnds (s : State) (x : Nat) : State :=
  match (s.ctx x).waiting with
  | some (t, 1) =>
    (s.addSat (rADM_CTX_STAT x) fADM_CTX_STAT_STALL_US (s.ticksUs (s.time - t))).updCtx x
      fun c => { c with waiting := none }
  | _ => s

/-- A record reaches a store port: it is discarded for a context that is not OPEN (R349), policed (R372), and then
placed in the cord or handled by the context's overflow policy. -/
def State.place (s : State) (r : Prod) : State × Placed :=
  let x := r.ctx
  let c := s.ctx x
  match c.st with
  | .closed => (s, .discarded)
  | .draining => (s.updCtx x fun c => { c with lost := satN 64 (c.lost + r.items) }, .discarded)
  | .opened =>
    if r.policed || c.rate = 0 then s.placeAccepted r
    else
      let t := s.tokensNow c
      let cost := r.size * 65536
      if cost ≤ t then
        ((s.stallEnds x).updCtx x fun c => { c with tokens := t - cost, tokTime := s.time }).placeAccepted { r with policed := true }
      else if r.canWait && r.size ≤ 64 * c.burst then
        (s.updCtx x fun c => { c with waiting := some ((c.waiting.map (·.1)).getD s.time, 1) }, .waits 1)
      else
        let s1 := (s.loseRec r).updCtx x fun c => { c with shed := satN 32 (c.shed + r.items) }
        ((s1.addSat (rADM_CTX_STAT x) fADM_CTX_STAT_SHED_REC 1).raiseLim 1000 (576 + x / 64) (some x) 0 0 x,
          .discarded)

/-! ### Opening, flushing and closing a context (R349, R350) -/

/-- The cord of a DRAINING context that is opened again with `entry` (R349): a destination named by both entries goes on in its
new place, any other that has not finished the old cord stays beside them until it has, and a new one leaves the old records out. -/
def Ctx.reopen (c : Ctx) (entry : List Word) : Ctx :=
  let slots := c.destList.filter fun d => (c.dest d).fin < c.destEnd d
  let kept := (upTo 4).map fun j =>
    if entryDestType entry j = 0 then none
    else slots.find? fun d => c.destType d == entryDestType entry j && c.destIndex d == entryDestIndex entry j
  let left := slots.filter fun d => !kept.contains (some d)
  let perm := kept ++ left.map some
  { c with
    entry := entry
    dests := perm.map fun o => (o.map c.dest).getD ⟨c.wpos, c.wpos, c.wpos, []⟩
    olds := left.map fun d => ⟨c.destType d, c.destIndex d, c.destEnd d, c.zcWord 5, c.zcWord 6⟩
    recs := c.recs.map fun r => { r with
      due := perm.map fun o => o.bind fun d => r.due.getD d none
      missed := perm.map fun o => (o.map fun d => r.missed.getD d false).getD false
      skipped := perm.map fun o => (o.map fun d => r.skipped.getD d false || decide (c.destEnd d ≤ r.pos)).getD true } }

/-- Opens context `x` with an entry (R38, R39, R349, R372). A cord that has not drained stays before the new records. DESIGN CHOICE
(assumption 58): FAULT records still held for want of a billet stay held, and take SEQ and EPOCH of the new opening when they are
written. -/
def State.openCtx (s : State) (x : Nat) (entry : List Word) (runtime : Bool) (plat : Nat) : State :=
  let c := s.ctx x
  let c0 := if c.st = .draining then c.reopen entry
    else { c with entry := entry, dests := List.replicate 4 ⟨c.wpos, c.wpos, c.wpos, []⟩, olds := [] }
  let c1 : Ctx := { c0 with
    st := .opened, runtime := runtime, seq := 0, epoch := 0, epochPend := false, recovering := false,
    flags := 0, lostSince := 0, lastGood := 0, lost := 0, shed := 0, overflow := 0, plat := plat,
    waiting := none, zcFullSaid := false, zcPos := if c.st = .draining then c.zcPos else c.wpos,
    zcPub := if c.st = .draining then c.zcPub else 0, zcRel := if c.st = .draining then c.zcRel else 0,
    zcEnds := if c.st = .draining then c.zcEnds else [] }
  State.poolLow s (s.setCtx x { c1 with tokens := 64 * c1.burst * 65536, tokTime := s.time })

/-- An OPEN context goes to DRAINING: its tail is flushed and it closes at once when nothing is held (Table 15-2). -/
def State.drainCtx (s : State) (x : Nat) : State :=
  if (s.ctx x).st = .opened then
    let s1 := s.flushCtx x
    (s1.updCtx x fun c => { c with st := .draining, waiting := none }).settle x
  else s

/-! ### Delivering (R40, R341, R346, R370, R371) -/

/-- The next record destination `d` of context `c` will begin. -/
def Ctx.nextRec (c : Ctx) (d : Nat) : Option CordRec :=
  c.recs.find? fun r => (c.dest d).begun ≤ r.pos && r.pos < c.destEnd d && !r.skips d

/-- SEQ of the next record destination `d` will deliver (STO_CUR). -/
def Ctx.nextSeq (c : Ctx) (d : Nat) : Nat := ((c.nextRec d).map (·.seq)).getD c.seq

/-- Reads `n` bytes of a context's stream from position `p`. -/
def State.readStream (s : State) (x p n : Nat) : List Byte :=
  (s.ctx x).exts.flatMap fun e =>
    let a := max e.pos p
    let b := min (e.pos + e.bytes) (p + n)
    if b ≤ a then [] else s.store.read 0 (e.billet * billetBytes + e.off + (a - e.pos)) (b - a)

/-- Does an uncorrectable line lie in `n` bytes of a context's stream from position `p`? -/
def State.streamBad (s : State) (x p n : Nat) : Bool :=
  (s.ctx x).exts.any fun e =>
    let a := max e.pos p
    let b := min (e.pos + e.bytes) (p + n)
    if b ≤ a then false
    else
      let o := e.billet * billetBytes + e.off
      let first := (o + (a - e.pos)) / 64
      if s.badLines.isEmpty && s.mem.lost.isEmpty then false
      else (upTo ((o + (b - e.pos) - 1) / 64 + 1 - first)).any fun i => s.lineBad (first + i)

/-- Sets flag bits in the header of a delivered copy. -/
def orFlags (bs : List Byte) (fl : Nat) : List Byte :=
  (bs.take 30) ++ leBytes 2 (leNat ((bs.drop 30).take 2) ||| fl) ++ bs.drop 32

/-- The copy of record `r` that destination `d` of context `x` delivers: LATE, DATA_ERROR and GAP are set in the copy
(R31, R346, R371). -/
def State.copyRec (s : State) (x d : Nat) (r : CordRec) : List Byte :=
  let c := s.ctx x
  let late := r.missed.getD d false
  let fl := (if late then flLate else 0) ||| (if s.streamBad x r.pos r.len then flDataError else 0)
    ||| (if (c.dest d).gap.any (· < r.pos) then flGap else 0)
  orFlags (s.readStream x r.pos r.len) fl

/-- Destination `d` of context `x` has begun record `r`; the records freed before it have been declared, unless `r` is a PAD, which
is not delivered as a record (R346). -/
def State.beginRec (s : State) (x d : Nat) (r : CordRec) : State :=
  s.updCtx x fun c => c.updDest d fun t =>
    { t with begun := max t.begun (r.pos + r.len), gap := if r.typ = tyPad then t.gap else t.gap.filter (r.pos ≤ ·) }

/-- Destination `d` of context `x` has delivered everything up to stream position `p`. -/
def State.deliveredTo (s : State) (x d p : Nat) : State :=
  s.updCtx x fun c => c.updDest d fun t => { t with doneTo := max t.doneTo p }

/-- Ends the hold of destination `d` of context `x` up to stream position `p` and returns what becomes free. -/
def State.finishTo (s : State) (x d p : Nat) : State :=
  (s.updCtx x fun c => c.updDest d fun t =>
    { t with fin := max t.fin p, begun := max t.begun p, doneTo := max t.doneTo p }).settle x

/-! ### Self-refresh (R556) -/

/-- Is the store in self-refresh? -/
def State.selfRefresh (s : State) : Bool := s.flag rPWR_CTRL fPWR_CTRL_SR

/-- The store leaves self-refresh, before the access that causes it; only a device reset leaves that of a thermal stop (R556, R560). -/
def State.srExit (s : State) : State :=
  if s.selfRefresh && !s.flag rTHM_STATUS fTHM_STATUS_STOPPED then (s.setFld rPWR_CTRL fPWR_CTRL_SR 0).raise 23 else s

end Sys2Proof.Machine
end

