-- ==== Sys2Proof/Machine/Grid.lean ====
section
/-! DEFINITION. The street grid: which routes the active plan gives, and how a finished record leaves a square
(R153 to R158, R16). -/

namespace Sys2Proof.Machine

/-- The active plan, if any. -/
def State.activePlan (s : State) : Option PlanImg :=
  if s.fld rPLAN_SLOT_STATE fPLAN_SLOT_STATE_SLOT0 = 3 then s.plan.slot0
  else if s.fld rPLAN_SLOT_STATE fPLAN_SLOT_STATE_SLOT1 = 3 then s.plan.slot1
  else none

/-- The routes of the active plan. -/
def State.routes (s : State) : List Route := (s.activePlan.map (·.routes)).getD []

/-- The routes that a square sources. -/
def State.routesFrom (s : State) (sq : Nat) : List Route := s.routes.filter fun r => r.src == sq

/-- The routes that arrive at a square. -/
def State.routesInto (s : State) (sq : Nat) : List Route := s.routes.filter fun r => r.dsts.contains sq

/-- The unit record of a square in the active plan; a unit without one is idle (R161). -/
def State.unitRec (s : State) (sq : Nat) : Option UnitRec :=
  match s.activePlan with
  | none => none
  | some p => p.units.find? fun u => u.square == sq

/-- Is the unit of a square used by the active plan? -/
def State.used (s : State) (sq : Nat) : Bool := (s.unitRec sq).isSome

/-- Word `i` of the structural record of a square (0 when there is none). -/
def State.uword (s : State) (sq i : Nat) : Word := ((s.unitRec sq).map fun u => u.body.getD i 0).getD 0

/-- Is square `sq` a store port (Table 8-1)? -/
def isPort (sq : Nat) : Bool := 70 ≤ sq && sq < 86

/-- Store port `p`. -/
def State.port (s : State) (p : Nat) : Port := SMap.get ⟨[]⟩ s.ports p

/-- A record goes to the inbound street of store port `p`. -/
def State.toPort (s : State) (p : Nat) (r : Prod) : State :=
  { s with ports := SMap.upd ⟨[]⟩ s.ports p fun q => { q with inbox := q.inbox ++ [r] } }

/-- The beats of the 64-beat buffer at square `d` that route `r` has: in proportion to the rates of the arriving routes, at least 4
(R157; how a fraction is rounded the spec leaves open, assumption 31). -/
def State.share (s : State) (r : Route) (d : Nat) : Nat :=
  max 4 (64 * r.rate / (s.routesInto d).foldl (fun n q => n + q.rate) 0)

/-- The bytes of context `x` that have reached store port `p` and that it has not taken: complete records, and the samples of one under
construction. -/
def State.queued (s : State) (x p : Nat) : Nat :=
  (s.port p).inbox.foldl (fun n q => if q.ctx = x then n + q.size else n) 0
    + (SMap.get [] s.streams x).foldl (fun n y => n + (if y.fmt = 0 then 2 else if y.fmt = 1 then 4 else 6)) 0

/-- Does the branch of route `r` into square `d` hold no credit: the store port withholds it from the context, and the route's share of the
buffer is full (R157)? Units consume what reaches them at the rates that validation allows (R158). -/
def State.noCredit (s : State) (r : Route) (d : Nat) : Bool :=
  match r.ctx with
  | some x => isPort d && (s.ctx x).waiting.isSome && 64 * s.share r d ≤ s.queued x (d - 70)
  | none => false

/-- Must the source of square `sq` stall: has a branch of one of its WAIT routes no credit (R157)? -/
def State.stalls (s : State) (sq : Nat) : Bool := (s.routesFrom sq).any fun r => r.wait && r.dsts.any (s.noCredit r)

/-- `k` beats with `n` items of context `x` are lost on their way into square `d` for want of credit (R158). -/
def State.dropBeats (s : State) (x d k n : Nat) : State :=
  (((s.addSat (rGRID_SQ d) fGRID_SQ_DROPS k).loseItems x n).raiseLim 1000 13 (some d) 0 0 d)

/-- Record `r` takes the branch of route `rt` into the store port of square `d`; on a route that is not WAIT it is lost where the branch has
no credit (R157, R158). -/
def State.sendPort (s : State) (rt : Route) (d : Nat) (r : Prod) : State :=
  if !rt.wait && s.noCredit rt d then (s.dropBeats r.ctx d (ceilDiv r.size 64) r.items).flagCtx r.ctx (r.flags &&& flCarried)
  else s.toPort (d - 70) { r with canWait := rt.wait }

/-- A record leaves square `sq` for the store-port destinations of its routes, into the context the route carries,
or into `r.ctx` where the route carries none (Table 8-4, R568). -/
def State.emitRec (s : State) (sq : Nat) (r : Prod) : State :=
  (s.routesFrom sq).foldl (fun t rt =>
    (rt.dsts.filter isPort).foldl (fun t d => t.sendPort rt d { r with ctx := rt.ctx.getD r.ctx }) t) s

/-- The contexts that the units downstream of square `sq` write, `n` branches deep. -/
def State.ctxsBelow : Nat → State → Nat → List Nat
  | 0, _, _ => []
  | n + 1, s, sq =>
    ((s.routesFrom sq).flatMap fun r =>
      (r.ctx.toList) ++ (r.dsts.filter fun d => !isPort d).flatMap fun d => State.ctxsBelow n s d).eraseDups

/-- The contexts fed by square `sq`. -/
def State.ctxsFrom (s : State) (sq : Nat) : List Nat := State.ctxsBelow 8 s sq

/-- The squares from which the data of square `sq` come, `n` branches up. A store-port square begins a path: what comes into it goes to the
store (R17, R567). -/
def State.squaresAbove : Nat → State → Nat → List Nat
  | 0, _, sq => [sq]
  | n + 1, s, sq =>
    (sq :: (if isPort sq then [] else s.routesInto sq).flatMap fun r => State.squaresAbove n s r.src).eraseDups

/-- The squares on the path of context `x`, its store port left out. -/
def State.pathOf (s : State) (x : Nat) : List Nat :=
  ((s.routes.filter fun r => r.ctx == some x).flatMap fun r => State.squaresAbove 8 s r.src).eraseDups

/-- `n` items lost in every context fed by square `sq` (R41). -/
def State.loseFrom (s : State) (sq n : Nat) : State :=
  if n = 0 then s
  else (s.ctxsFrom sq).foldl (fun t x => if (t.ctx x).st = .opened then t.loseItems x n else t) s

/-- `n` items lost in the contexts that the routes of square `sq` carry themselves. -/
def State.loseDirect (s : State) (sq n : Nat) : State :=
  if n = 0 then s
  else (s.routesFrom sq).foldl (fun t r =>
    match r.ctx with
    | some x => if (t.ctx x).st = .opened then t.loseItems x n else t
    | none => t) s

end Sys2Proof.Machine
end

