-- ==== Sys2Proof/Machine/Cnv.lean ====
section
/-! DEFINITION. RF inputs and converter cores: the attenuator, the correction arithmetic and background calibration
(R65 to R96). -/

namespace Sys2Proof.Machine

/-- A core as it stands after reset. -/
def cnv0 : Cnv := ⟨0x8000, .off, false, false, false, [], none, 0, false, none⟩

/-- Core `n`. -/
def State.core (s : State) (n : Nat) : Cnv := SMap.get cnv0 s.cnv n

/-- Core `n` changed. -/
def State.updCore (s : State) (n : Nat) (f : Cnv → Cnv) : State := { s with cnv := SMap.upd cnv0 s.cnv n f }

/-! ### Pairing (R72 to R75) -/

/-- Is core `n` in a pair? -/
def State.paired (s : State) (n : Nat) : Bool :=
  if n < 2 then s.flag rCNV_MODE fCNV_MODE_PAIR01 else s.flag rCNV_MODE fCNV_MODE_PAIR23

/-- The core whose attenuator and channel correction govern core `n` (R75). -/
def State.govern (s : State) (n : Nat) : Nat := if s.paired n then n / 2 * 2 else n

/-- The converter square that core `n` feeds: in a pair, the first core's (R74). -/
def State.cnvSquare (s : State) (n : Nat) : Nat := s.govern n

/-! ### Attenuator and channel correction (R66 to R69, R80) -/

/-- The effective channel gain of core `n` at attenuator step `st` (R69). -/
def State.geffAt (s : State) (n st : Nat) : Nat :=
  (s.fld (rCNV_CHCORR n) fCNV_CHCORR_GAIN * s.fld (rCNV_ATTCAL n st) fCNV_ATTCAL_GAIN + 2 ^ 14) / 2 ^ 15

/-- The attenuator step in force. -/
def State.attStep (s : State) (n : Nat) : Nat := s.afld (rCNV_ATT n) fCNV_ATT_STEP

/-- G_eff of core `n` is computed again. DESIGN CHOICE (assumption 59): outside an application, that is at a write of CNV_CHCORR (R80), at a
change of pairing and at the boot load, CNV_ATTCAL counts as its register then reads. -/
def State.newGeff (s : State) (n : Nat) : State :=
  s.updCore n fun c => { c with geff := s.geffAt n (s.attStep n) }

/-- An event interrupts the estimation window of core `n`: the window is discarded and begins afresh (R84). -/
def State.windowRestart (s : State) (n : Nat) : State :=
  if (s.core n).phase = .window then
    (s.updCore n fun c => { c with clipWin := false }).addSat (rCNV_BG_COUNT n) fCNV_BG_COUNT_WIN_RESTART 1
  else s

/-- The attenuator of input `n` has changed: the windows of the cores behind it begin afresh; that of the second core of a pair has no
effect (R75, R84). -/
def State.attRestart (s : State) (n : Nat) : State :=
  if s.govern n != n then s
  else if s.paired n then (s.windowRestart n).windowRestart (n + 1)
  else s.windowRestart n

/-- Does a calibration run hold core `n` (R139)? -/
def State.calRunOn (s : State) (n : Nat) : Bool := s.fld rCAL_STATUS fCAL_STATUS_STATE = 1 && s.cal.input = s.govern n

/-- A write to CNV_ATT[n]; a GO of 1 requests the application, and a further one changes nothing (R67). -/
def State.wrAtt (n : Nat) (v : Word) (s : State) : State := s.wrCodes (rCNV_ATT n) v []

/-- The attenuator step is applied: at its TIME, or at the next DCLK boundary when TIME is 0 or has passed, which sets LATE
(R67, R69, R84, R117). During a calibration run of the input the run drives the attenuator, and the step applied is the
one restored at its end (R139). -/
def State.attApply (s : State) (n : Nat) : State :=
  if s.flag (rCNV_ATT n) fCNV_ATT_GO then
    let run := s.fld rCAL_STATUS fCAL_STATUS_STATE = 1 && s.cal.input = n
    let t := (s.rd (rCNV_ATT_TIME n)).toNat
    let s1 := s.reach t
    let s2 := (s1.commitReg (rCNV_ATT n)).setFlds (rCNV_ATT n)
      [(fCNV_ATT_GO, 0), (fCNV_ATT_LATE, b2n (t != 0 && t < s.time))]
    if run then (s2.onCal fun z => { z with step := s2.attStep n }).setAct (rCNV_ATT n) (s.actv (rCNV_ATT n))
    else (s2.newGeff n).attRestart n
  else s

/-- A write to CNV_ATTCAL[n][k]; a run of the input forces the value (R139). -/
def State.wrAttcal (n k : Nat) (v : Word) (s : State) : State :=
  if s.calRunOn n && s.cal.input = n then s else s.wrCodes (rCNV_ATTCAL n k) v []

/-- A write to CNV_CHCORR[n] takes effect with G_eff computed again (R80). -/
def State.wrChcorr (n : Nat) (v : Word) (s : State) : State := (s.wrCodes (rCNV_CHCORR n) v []).newGeff n

/-! ### Correction arithmetic (R78) -/

/-- What R78 makes of one raw code: the 12-bit result, whether the raw code clipped, whether the result saturated. -/
def correct (x : Int) (sOff : Int) (sGain : Nat) (cOff : Int) (geff : Nat) : Int × Bool × Bool :=
  let u := ((x * 64 - sOff) * sGain + 2 ^ 14) / 2 ^ 15
  let v := ((u - cOff) * geff + 2 ^ 14) / 2 ^ 15
  let z := (v + 32) / 64
  (satS 12 z, x == -2048 || x == 2047, 2047 < z || z < -2048)

/-- The physical slice of core `n` that holds logical position `j`. -/
def State.sliceAt (s : State) (n j : Nat) : Nat :=
  ((upTo 17).find? fun k => s.fld (rCNV_SLICE n k) fCNV_SLICE_POS == j).getD 16

/-- One raw code of slice `k` of core `n`, corrected by the slice and by the channel values of the governing core (R75, R78). -/
def State.sliceVal (s : State) (n k : Nat) (x : Int) : Int × Bool × Bool :=
  let g := s.govern n
  correct x (s.fldS (rCNV_SLICE n k) fCNV_SLICE_OFFSET) (s.fld (rCNV_SLICE n k) fCNV_SLICE_GAIN)
    (s.fldS (rCNV_CHCORR g) fCNV_CHCORR_OFFSET) (s.core g).geff

/-- One raw code of position `j` of core `n`, corrected. -/
def State.correctAt (s : State) (n j : Nat) (x : Int) : Int × Bool × Bool := s.sliceVal n (s.sliceAt n j) x

/-- A raw clip marks the window and the run of core `n`, and in a pair, whose positions are one interleave, those of both cores (R76). -/
def State.clipMark (s : State) (n : Nat) : State :=
  let mark := fun (t : State) (m : Nat) => t.updCore m fun c => { c with clipWin := true, clipCal := true }
  if s.paired n then mark (mark s (n / 2 * 2)) (n / 2 * 2 + 1) else mark s n

/-- The sixteen raw codes of one DCLK of core `n` corrected, each with whether it clipped; clips are counted and raised (R78, R79). -/
def State.coreBeat (s : State) (n : Nat) (raw : List Int) : List (Int × Bool) × State :=
  let r := raw.zipIdx.map fun e => s.correctAt n e.2 e.1
  let rc := (r.filter (·.2.1)).length
  let sc := (r.filter (·.2.2)).length
  let s1 := (s.addSat (rCNV_CLIP n) fCNV_CLIP_RAW rc).addSat (rCNV_CLIP n) fCNV_CLIP_SAT sc
  let s2 := if rc = 0 then s1 else s1.clipMark n
  let s3 := if rc + sc = 0 then s2 else s2.raiseLim 1000 (64 + n)
  (r.map fun e => (e.1, e.2.1 || e.2.2), s3)

/-! ### Background calibration (R82 to R88) -/

/-- Does the estimator of an input hold: in a pair, either core (R76)? -/
def State.calHold (s : State) (n : Nat) : Bool :=
  if s.paired n then s.flag (rCNV_BG_STATUS (n / 2 * 2)) fCNV_BG_STATUS_HOLD || s.flag (rCNV_BG_STATUS (n / 2 * 2 + 1)) fCNV_BG_STATUS_HOLD
  else s.flag (rCNV_BG_STATUS n) fCNV_BG_STATUS_HOLD

/-- HOLD and REASON of core `n` take new values; a rise or a fall of HOLD raises its event (R83). -/
def State.setHold (s : State) (n : Nat) (hold : Bool) (reason : Nat) : State :=
  let was := s.flag (rCNV_BG_STATUS n) fCNV_BG_STATUS_HOLD
  let s1 := s.setFlds (rCNV_BG_STATUS n) [(fCNV_BG_STATUS_HOLD, b2n hold), (fCNV_BG_STATUS_REASON, if hold then reason else 0)]
  if hold && !was then s1.raise (68 + n) else if was && !hold then s1.raise (72 + n) else s1

/-- The corrections of core `n` are frozen: no spare is left, and the estimator holds (R86). -/
def State.bgFreeze (s : State) (n : Nat) : State :=
  (s.updCore n fun c => { c with frozen := true, phase := .off, remove := none, retry := false, steps := 0 }).setHold n true 5

/-- Slice `k` of core `n` is retired (R86). The first retirement of a free slice leaves the core without a spare; one that
holds a position is taken out by the next handover that passes; a further one leaves the slice in position where it is. -/
def State.retireSlice (s : State) (n k : Nat) : State :=
  let failed := s.fld (rCNV_BG_STATUS n) fCNV_BG_STATUS_FAILED
  let s1 := (s.setFld (rCNV_BG_STATUS n) fCNV_BG_STATUS_FAILED (failed ||| 2 ^ k)).raise (80 + n)
  let s2 := s1.updCore n fun c => { c with rejects := [] }
  if failed != 0 then (s2.bgFreeze n).raise (84 + n)
  else if s.fld (rCNV_BG_STATUS n) fCNV_BG_STATUS_FREE = k then s2.bgFreeze n
  else s2.updCore n fun c => { c with remove := some k }

/-- Background calibration of core `n` starts a step at its position, unless its slices stand still in standby (R555). -/
def State.bgStart (s : State) (n : Nat) : State :=
  if (s.core n).frozen || s.flag rPWR_CTRL fPWR_CTRL_CNV_STBY then s else s.updCore n fun c => { c with phase := .settle, clipWin := false }

/-- A write to CNV_BG[n]: EN takes effect at the end of the current step (R87), so at once when none runs. A calibration run holds EN at 0;
the value written is the one restored at its end (R139). -/
def State.wrBg (n : Nat) (v : Word) (s : State) : State :=
  let s1 := s.wrCodes (rCNV_BG n) v []
  if s.calRunOn n then
    (s1.setFld (rCNV_BG n) fCNV_BG_EN 0).onCal fun z => { z with en := modAt (fun _ => fget v fCNV_BG_EN) z.en (n - z.input) }
  else if (s1.core n).phase = .off && s1.flag (rCNV_BG n) fCNV_BG_EN then
    if (s1.core n).frozen then s1.setHold n true 5 else s1.bgStart n
  else s1

/-- A write to CNV_SLICE[n][k]: accepted only while EN reads 0 and the current step has ended (R87). -/
def State.wrSlice (n k : Nat) (v : Word) (s : State) : State :=
  if !s.flag (rCNV_BG n) fCNV_BG_EN && (s.core n).phase = .off then s.wrCodes (rCNV_SLICE n k) v [] else s

/-- The free slice has settled and shadow sampling begins (R82 step 2). -/
def State.bgSettleEnd (s : State) (n : Nat) : State :=
  if (s.core n).phase = .settle && s.clk.stage = .idle then s.updCore n fun c => { c with phase := .shadow } else s

/-- Is the RMS difference of the corrected outputs of two slices at most `tol`/16 LSB (R82 steps 2 and 3)? -/
def shadowOk (tol : Nat) (f a : List Int) : Bool :=
  256 * (f.zip a).foldl (fun (k : Int) (e : Int × Int) => k + (e.1 - e.2) * (e.1 - e.2)) 0 ≤ (tol : Int) * tol * (f.zip a).length

/-- The free slice takes position `j` from slice `a`, which is free from then on; where `a` waits to be taken out, that completes the
rotation and leaves no spare (R82 step 3, R86). -/
def State.handover (s : State) (n j f a : Nat) : State :=
  let s1 := ((s.setFld (rCNV_SLICE n f) fCNV_SLICE_POS j).setFld (rCNV_SLICE n a) fCNV_SLICE_POS 31).setFld
    (rCNV_BG_STATUS n) fCNV_BG_STATUS_FREE a
  let s2 := s1.updCore n fun c =>
    { c with phase := .window, clipWin := false, retry := false, rejects := SMap.set 0 (SMap.set 0 c.rejects f 0) a 0 }
  if (s.core n).remove = some a then (s2.addMod (rCNV_BG_STATUS n) fCNV_BG_STATUS_ROTATIONS 1).bgFreeze n else s2

/-- The handover from slice `a` to slice `f` is rejected; the third rejection in succession retires a slice. DESIGN CHOICE (assumption 60): a
rejection counts for both slices; where it is the third for both, a free value says which of them is retired; a retirement
starts all counts afresh. -/
def State.handoverReject (s : State) (n f a : Nat) : State :=
  let c := s.core n
  let (k, s0) := s.fresh
  let s1 := (s0.addSat (rCNV_BG_COUNT n) fCNV_BG_COUNT_HO_REJECT 1).raise (76 + n)
  let kf := SMap.get 0 c.rejects f + 1
  let ka := SMap.get 0 c.rejects a + 1
  let s2 := s1.updCore n fun c =>
    { c with phase := .window, clipWin := false, retry := true, rejects := SMap.set 0 (SMap.set 0 c.rejects f kf) a ka }
  let bad := if 3 ≤ kf && 3 ≤ ka && c.remove != some a then [if Config.failedSlice k then a else f]
    else if 3 ≤ kf then [f] else if 3 ≤ ka && c.remove != some a then [a] else []
  bad.foldl (fun t x => t.retireSlice n x) s2

/-- The shadow sampling ends: `f` and `a` are the raw codes of the free slice and of the slice that holds the position. The free slice takes
the position, or the handover is rejected (R82 step 3, R85, R86). -/
def State.bgShadowEnd (s : State) (n : Nat) (f a : List (BitVec 12)) : State :=
  if (s.core n).phase = .shadow && s.clk.stage = .idle then
    let j := s.fld (rCNV_BG_STATUS n) fCNV_BG_STATUS_POS
    let kf := s.fld (rCNV_BG_STATUS n) fCNV_BG_STATUS_FREE
    let ka := s.sliceAt n j
    let out := fun (k : Nat) (l : List (BitVec 12)) => l.map fun x => (s.sliceVal n k x.toInt).1
    if shadowOk (s.fld (rCNV_BG n) fCNV_BG_HO_TOL) (out kf f) (out ka a) then s.handover n j kf ka else s.handoverReject n kf ka
  else s

/-- What the estimator forms from an estimation window (R82, R83): the count, the sum and the sum of squares of the corrected samples of the
free slice and of the active slices, the correlation of the free slice with the positions before and after its own,
and the power near the multiples of f_root/32. -/
structure BgSums where
  nF  : Nat
  sF  : Int
  qF  : Int
  nA  : Nat
  sA  : Int
  qA  : Int
  cLo : Int
  cHi : Int
  coh : Nat
  deriving DecidableEq, Repr

/-- The sums of a window. In a pair, positions are those of the interleave of both cores (R74, R76). -/
def State.bgSums (s : State) (n : Nat) (w : BgWindow) : BgSums :=
  let p := s.paired n
  let width := if p then 32 else 16
  let j := s.fld (rCNV_BG_STATUS n) fCNV_BG_STATUS_POS
  let m := if p then 2 * j + n % 2 else j
  let act := w.rows.flatMap fun row => row.zipIdx.map fun (e : BitVec 12 × Nat) =>
    (if p then s.correctAt (n / 2 * 2 + e.2 % 2) (e.2 / 2) e.1.toInt else s.correctAt n e.2 e.1.toInt).1
  let fr := w.free.map fun x => (s.sliceVal n (s.fld (rCNV_BG_STATUS n) fCNV_BG_STATUS_FREE) x.toInt).1
  let sum := fun (l : List Int) => l.foldl (fun (k : Int) x => k + x) 0
  let sq := fun (l : List Int) => l.foldl (fun (k : Int) x => k + x * x) 0
  let corr := fun (l : List Int) => (fr.zipIdx).foldl (fun (k : Int) (e : Int × Nat) => k + e.1 * l.getD (e.2 * width) 0) 0
  { nF := fr.length, sF := sum fr, qF := sq fr, nA := act.length, sA := sum act, qA := sq act,
    cLo := corr ((0 :: act).drop m), cHi := corr (act.drop (m + 1)),
    coh := Config.cohPower (s.fld (rCNV_BG n) fCNV_BG_COH_BW) s.tickFs act }

/-- Is the mean power of the active slices below `db` dBFS, where a full-scale sine has 2^21 LSB² (R144)? -/
def BgSums.quiet (b : BgSums) (db : Int) : Bool :=
  b.qA.toNat ^ 10 * 10 ^ (-db).toNat < 2 ^ 210 * 10 ^ db.toNat * (max 1 b.nA) ^ 10

/-- The hold condition of a window that is true first in the order of Table 4-3, or 0. -/
def State.bgReason (s : State) (n : Nat) (w : BgWindow) : Nat :=
  let b := s.bgSums n w
  let clip := fun (x : BitVec 12) => x.toInt == -2048 || x.toInt == 2047
  if b.quiet (s.fldS (rCNV_BG n) fCNV_BG_MIN_LEVEL) then 1
  else if s.fld (rCNV_BG n) fCNV_BG_COH_FRAC * b.qA.toNat < b.coh * 256 then 2
  else if (s.core n).clipWin || w.free.any clip || w.rows.any (·.any clip) then 3
  else if !s.flag (rCNV_BG n) fCNV_BG_EN then 4
  else if (s.core n).frozen then 5
  else 0

/-- A quarter of a measured error `num`/`den`; how a fraction is rounded the spec leaves open (R82). -/
def State.quarter (s : State) (num : Int) (den : Nat) : Int × State :=
  let (k, s1) := s.fresh
  (if num % (4 * den) = 0 then num / (4 * den) else num / (4 * den) + b2n (Config.roundUp k), s1)

/-- An estimation window ends: the estimator holds, or the free slice takes its new corrections and the core moves on; an
estimate beyond the bounds of Table 4-6 retires the slice (R82 step 5, R83, R86). The spec names the comparisons and not the units of
their results: the offset error is the difference of the means in 1/64 LSB, the other two are free values of what is compared
(assumption 61). -/
def State.bgWindowEnd (s : State) (n : Nat) (w : BgWindow) : State :=
  let c := s.core n
  if c.phase = .window && s.clk.stage = .idle then
    let why := s.bgReason n w
    if why != 0 then
      ((s.addSat (rCNV_BG_COUNT n) fCNV_BG_COUNT_HOLD_WINDOWS 1).setHold n true why).updCore n
        fun c => { c with phase := .interval }
    else
      let b := s.bgSums n w
      let f := s.fld (rCNV_BG_STATUS n) fCNV_BG_STATUS_FREE
      let (eo, s1) := s.quarter (64 * (b.sF * b.nA - b.sA * b.nF)) (max 1 (b.nF * b.nA))
      let (eg, s2) := s1.quarter (Config.gainError b.qF b.nF b.qA b.nA) 1
      let (es, s3) := s2.quarter (Config.skewError b.cLo b.cHi) 1
      let o := s.fldS (rCNV_SLICE n f) fCNV_SLICE_OFFSET + eo
      let g := (s.fld (rCNV_SLICE n f) fCNV_SLICE_GAIN : Int) + eg
      let k := s.fldS (rCNV_SLICE n f) fCNV_SLICE_SKEW + es
      let s4 := s3.setHold n false 0
      if o.natAbs ≤ 256 * 64 && 24576 ≤ g && g ≤ 40960 && -128 < k && k < 127 then
        let s5 := s4.setFlds (rCNV_SLICE n f) [(fCNV_SLICE_OFFSET, ofSigned 16 o), (fCNV_SLICE_GAIN, g.toNat),
          (fCNV_SLICE_SKEW, ofSigned 8 k)]
        let j := s.fld (rCNV_BG_STATUS n) fCNV_BG_STATUS_POS
        let s6 := if c.retry then s5 else s5.setFld (rCNV_BG_STATUS n) fCNV_BG_STATUS_POS ((j + 1) % 16)
        let done := if c.retry then c.steps else c.steps + 1
        let s7 := s6.updCore n fun c => { c with phase := .interval, steps := done % 17 }
        if done = 17 then s7.addMod (rCNV_BG_STATUS n) fCNV_BG_STATUS_ROTATIONS 1 else s7
      else (s4.updCore n fun c => { c with phase := .interval }).retireSlice n f
  else s

/-- The idle time of a step ends: the next step starts, or calibration stops where EN now reads 0 (R82 step 6, R87). -/
def State.bgIntervalEnd (s : State) (n : Nat) : State :=
  if (s.core n).phase = .interval && s.clk.stage = .idle then
    if s.flag (rCNV_BG n) fCNV_BG_EN then s.bgStart n
    else (s.updCore n fun c => { c with phase := .off }).setHold n true 4
  else s

/-- A re-lock begins: running windows are discarded (R84). -/
def State.bgRelockStart (s : State) : State := (upTo 4).foldl State.windowRestart s

/-- The dividers are released: an interrupted step begins again from its first part (R84). -/
def State.bgRelockEnd (s : State) : State :=
  (upTo 4).foldl (fun t n => if (t.core n).phase = .off || (t.core n).phase = .interval then t else t.bgStart n) s

/-- A plan activation that touches core `n`: its rotation restarts at position 0, corrections kept, and a
running window is discarded (R77, R84). -/
def State.bgPlanTouch (s : State) (n : Nat) : State :=
  let s1 := (s.windowRestart n).setFld (rCNV_BG_STATUS n) fCNV_BG_STATUS_POS 0
  let s2 := s1.updCore n fun c => { c with steps := 0, retry := false }
  if (s2.core n).phase = .off then s2 else s2.bgStart n

end Sys2Proof.Machine
end

