-- ==== Sys2Proof/Machine/Tbs.lean ====
section
/-! DEFINITION. The timebase: device time, rate, slew and step, and the servo (R113 to R121). -/

namespace Sys2Proof.Machine

/-- The bound of R114 and R115, ±200 ppm in 2^-40. -/
abbrev adjMax : Int := 219902325

/-- Device time set, in 2^-40 tick. -/
def State.setTime40 (s : State) (t : Nat) : State := ((s.onTime fun _ => t / 2 ^ 40).onFrac fun _ => t % 2 ^ 40)

/-- TBS_SLEW.OFFSET reads the part of the correction not yet applied, in 1/512 tick. -/
def State.showSlew (s : State) : State :=
  s.setFld rTBS_SLEW fTBS_SLEW_OFFSET (ofSigned 32 (s.tbs.slew.tdiv (2 ^ 31)))

/-- The slew term of one DCLK edge (R115): RATE_MAX towards zero, at most the remainder, and never beyond ±200 ppm
together with ADJ. -/
def State.slewTerm (s : State) : Int :=
  let r := s.tbs.slew
  let m : Int := s.fld rTBS_SLEW fTBS_SLEW_RATE_MAX
  let a := s.fldS rTBS_ADJ fTBS_ADJ_ADJ
  let t := if 0 ≤ r then min r m else max r (-m)
  max (-adjMax - a) (min (adjMax - a) t)

/-- Device time advances by one DCLK edge (R113, R115). -/
def State.dclkEdge (s : State) : State :=
  let t := s.slewTerm
  let a := s.fldS rTBS_ADJ fTBS_ADJ_ADJ
  let s1 := s.setTime40 ((s.time40 : Int) + 2 ^ 40 + a + t).toNat
  if t = 0 then s1 else (s1.onTbs fun z => { z with slew := s1.tbs.slew - t }).showSlew

/-- The parts of the pulse generators, of the cores, or of the acquisition units changed. -/
def State.onPg (s : State) (f : SMap Pg → SMap Pg) : State := { s with pg := f s.pg }
def State.onCnv (s : State) (f : SMap Cnv → SMap Cnv) : State := { s with cnv := f s.cnv }
def State.onAu (s : State) (f : SMap Au → SMap Au) : State := { s with au := f s.au }

/-- What dead times, guards and responses count from moves with a step of device time, since they are spans of time that the step does not
change (R103, R110, R124). -/
def State.stepMarks (s : State) (d : Int) : State :=
  let s1 := s.onTdc fun z => { z with chs := z.chs.map fun e => (e.1, { e.2 with last := e.2.last.map (· + d) }) }
  let s2 := s1.onPg fun z => z.map fun e => (e.1, { e.2 with last := e.2.last.map (· + d / 512) })
  s2.onCnv fun z => z.map fun e => (e.1, { e.2 with clrAt := e.2.clrAt.map (· + d * 128) })

/-- A step of device time by `d`/512 tick at a DCLK edge: refused while a plan is active or where the result would be
negative (R116). -/
def State.stepTime (s : State) (d : Int) : State :=
  let t : Int := s.time40 + d * 2 ^ 31
  if s.planActive || t < 0 then (s.setFld rTBS_STATUS fTBS_STATUS_STEP_REFUSED 1).raise 45
  else ((s.setTime40 t.toNat).stepMarks d).raise 44

/-- A write to TBS_STEP (R116): at the next DCLK edge, or after the release while the dividers are held. -/
def State.wrStep (s : State) (v : Word) : State :=
  if s.held then (s.onTbs fun z => { z with steps := s.tbs.steps ++ [v.toInt] }) else s.stepTime v.toInt

/-! ### The servo (R119 to R121) -/

/-- TBS_STATUS.STATE. -/
def State.servo (s : State) : Nat := s.fld rTBS_STATUS fTBS_STATUS_STATE

/-- TBS_SERVO.SOURCE. -/
def State.servoSrc (s : State) : Nat := s.fld rTBS_SERVO fTBS_SERVO_SOURCE

/-- Seconds in ticks. -/
def State.secTicks (s : State) (n : Nat) : Nat := s.usTicks (n * 1000000)

/-- The records under construction that hold no samples gather HOLDOVER as a holdover ends: STAMPS records, the gate of the regression unit,
and trigger-log records. Samples carry the flag themselves (R47, R50, R120). -/
def State.flagOpen (s : State) : State :=
  let g := s.fld rTDC_FREQ_CFG fTDC_FREQ_CFG_GATE
  let s1 := s.onTdc fun z =>
    { z with
      chs := z.chs.map fun e => (e.1, if e.2.open_.isEmpty then e.2 else { e.2 with fl := e.2.fl ||| flHoldover })
      fl := if z.base + z.idx * g ≤ s.time then z.fl ||| flHoldover else z.fl }
  s1.onAu fun z => z.map fun e => (e.1, if e.2.log.isEmpty then e.2 else { e.2 with logFl := e.2.logFl ||| flHoldover })

/-- The servo enters LOCKED; the records open until now carry HOLDOVER (R120). -/
def State.servoLock (s : State) : State :=
  let s1 := s.flagOpen.setFld rTBS_STATUS fTBS_STATUS_STATE 2
  (s1.onTbs fun z => { z with lockAt := s1.time, run := 0 }).raise 42

/-- The servo enters HOLDOVER (Table 6-1). -/
def State.servoHold (s : State) : State :=
  let s1 := (s.setFld rTBS_STATUS fTBS_STATUS_STATE 3).addSat rTBS_STATUS fTBS_STATUS_LOL_COUNT 1
  (s1.onTbs fun z => { z with run := 0 }).raise 43

/-- The servo enters ACQUIRE. -/
def State.servoAcquire (s : State) : State :=
  let s1 := s.setFld rTBS_STATUS fTBS_STATUS_STATE 1
  s1.onTbs fun z => { z with run := 0 }

/-- A divider hold takes a LOCKED servo to HOLDOVER (Table 6-1). -/
def State.servoDividerHold (s : State) : State := if s.servo = 2 then s.servoHold else s

/-- A valid update with phase error `e` ps (Table 6-1). -/
def State.servoUpdate (s : State) (e : Int) : State :=
  let s0 := s.setFld rTBS_STATUS fTBS_STATUS_PHASE_ERR (ofSigned 32 (satS 32 e))
  let s1 := s0.onTbs fun z => { z with lastUpd := s0.time }
  let w : Int := 1000 * s.fld rTBS_SERVO fTBS_SERVO_LOCK_NS
  match s.servo with
  | 3 => s1.servoAcquire
  | 1 =>
    if e.natAbs ≤ w.toNat then
      let s2 := s1.onTbs fun z => { z with run := s1.tbs.run + 1 }
      if s.fld rTBS_SERVO fTBS_SERVO_LOCK_CNT ≤ s2.tbs.run then s2.servoLock else s2
    else s1.onTbs fun z => { z with run := 0 }
  | 2 => if 4 * w.toNat < e.natAbs then s1.servoHold else s1
  | _ => s1

/-- The Stoker's loop writes ADJ: a value the spec does not give, within the range of R114. -/
def State.servoSteer (s : State) : State :=
  let (k, s1) := s.fresh
  s1.setFld rTBS_ADJ fTBS_ADJ_ADJ (ofSigned 32 (max (-adjMax) (min adjMax (Config.servoAdj k))))

/-- An accepted ADJ or SLEW write of software: in HOST mode it is a valid update (R120). -/
def State.hostSteer (s : State) : State :=
  if s.servoSrc = 4 then
    let s1 := s.onTbs fun z => { z with lastUpd := s.time }
    if s1.servo = 3 then s1.servoAcquire else s1
  else s

/-- Does the Stoker own ADJ and SLEW (R119)? -/
def State.stokerSteers (s : State) : Bool := s.servoSrc = 1 || s.servoSrc = 2 || s.servoSrc = 3

/-- A write to TBS_ADJ (R114, R119). -/
def State.wrAdj (p : Path) (v : Word) (s : State) : State :=
  let a := fgetS v fTBS_ADJ_ADJ
  if s.stokerSteers && p != .stoker then s
  else if a < -adjMax || adjMax < a then s
  else
    let s1 := s.setFld rTBS_ADJ fTBS_ADJ_ADJ (fget v fTBS_ADJ_ADJ)
    if p = .stoker then s1 else s1.hostSteer

/-- A write to TBS_SLEW (R115, R119). -/
def State.wrSlew (p : Path) (v : Word) (s : State) : State :=
  if s.stokerSteers && p != .stoker then s
  else
    let s1 := s.setFld rTBS_SLEW fTBS_SLEW_RATE_MAX (fget v fTBS_SLEW_RATE_MAX)
    let s2 :=
      if fget v fTBS_SLEW_KEEP = 1 then s1
      else (s1.onTbs fun z => { z with slew := fgetS v fTBS_SLEW_OFFSET * 2 ^ 31 }).showSlew
    if p = .stoker then s2 else s2.hostSteer

/-- A write to TBS_SERVO: the fields, then the transitions that SOURCE and HOST_LOCK bring (R120, Table 6-1). HOST_LOCK is
judged in the state before the write. -/
def State.wrServo (v : Word) (s : State) : State :=
  let st := s.servo
  let s1 := s.wrCodes rTBS_SERVO v []
  let src := s1.servoSrc
  if src = 0 then
    if st = 0 then s1
    else
      let s2 := if st = 2 then s1 else s1.flagOpen
      s2.setFld rTBS_STATUS fTBS_STATUS_STATE 0
  else if st = 0 then s1.servoAcquire
  else if src = 4 then
    if fget v fTBS_SERVO_HOST_LOCK = 1 then (if st = 1 then s1.servoLock else s1)
    else if st = 2 then s1.servoHold else s1
  else s1

/-- The reference frequency in Hz (CLK_REF.FREQ; 0 for the reserved code). -/
def State.fref (s : State) : Nat :=
  match s.fld rCLK_REF fCLK_REF_FREQ with
  | 0 => 10000000
  | 1 => 100000000
  | 2 => 156250000
  | _ => 0

/-- The root frequency that runs, in 2^-32 Hz: the reference times the word in force. -/
def State.froot (s : State) : Nat := s.fref * s.clk.word

/-- A span in 1/512 tick in fs, by the DCLK period that runs, 16 / f_root, rather than the rounded TICK_FS. -/
def State.unitsFs (s : State) (t : Nat) : Nat :=
  if s.froot = 0 then t * s.tickFs / 512 else t * 16 * 10 ^ 15 * 2 ^ 32 / (512 * s.froot)

/-- A span in fs in 1/512 tick, by the DCLK period that runs. -/
def State.fsUnits (s : State) (fs : Int) : Int :=
  if s.froot = 0 then (fs * 512).tdiv s.tickFs else (fs * 512 * s.froot).tdiv (16 * 10 ^ 15 * 2 ^ 32)

/-- In ACQUIRE the Stoker may take out a phase error of `e` ps at once: by a step under R116, or, while a plan is active, by slewing at
RATE_MAX (R121). -/
def State.servoJump (s : State) (e : Int) (jump : Bool) : State :=
  let d := s.fsUnits (-(e * 1000))
  if s.servo = 1 && jump then
    if s.planActive then (s.onTbs fun z => { z with slew := d * 2 ^ 31 }).showSlew else s.wrStep (BitVec.ofInt 64 d)
  else s

/-- The phase error of a 1PPS edge at `t` (1/512 tick), in ps: the stamp minus the nearest whole second of TAI, through the
origin (R119). -/
def State.ppsError (s : State) (t : Nat) : Int :=
  let fs := s.unitsFs t + s.fld rTBS_ORIGIN_NS fTBS_ORIGIN_NS_NS * 1000000
  let r := fs % 10 ^ 15
  if r < 5 * 10 ^ 14 then ((r / 1000 : Nat) : Int) else -(((10 ^ 15 - r) / 1000 : Nat) : Int)

/-- A 1PPS edge is stamped on the channel of the servo: the phase error is formed and ADJ updated. Whether the Stoker steps in ACQUIRE is
its choice (R121). -/
def State.ppsUpdate (s : State) (c t : Nat) : State :=
  if (s.servoSrc = 1 || s.servoSrc = 3) && s.fld rTBS_SERVO fTBS_SERVO_PPS_CH = c then
    let (k, s1) := s.fresh
    ((s1.servoJump (s.ppsError t) (Config.servoJumps k)).servoSteer).servoUpdate (s.ppsError t)
  else s

/-- An offset estimate of the PTP slave clock (R119, R121). In ACQUIRE the Stoker may step device time, under R116; while a
plan is active it slews at RATE_MAX instead. Under PTP_PPS the 1PPS supplies the phase. -/
def State.ptpUpdate (s : State) (offPs : Int) (step : Bool) : State :=
  if s.servoSrc = 2 || s.servoSrc = 3 then
    let s1 := s.servoJump offPs step
    if s.servoSrc = 2 then (s1.servoSteer).servoUpdate offPs else s1
  else s

/-- SERVO_MISS_TIMEOUT: MISS seconds without an update (Table 6-1; in HOST mode HOST_TIMEOUT takes its place). -/
def State.servoMiss (s : State) : State :=
  if s.servo = 2 && s.stokerSteers then
    (s.reach (s.tbs.lastUpd + s.secTicks (s.fld rTBS_SERVO fTBS_SERVO_MISS))).servoHold
  else s

/-- HOST_TIMEOUT: HOST_TIMEOUT seconds without an accepted ADJ or SLEW write, counted from the later of the last such write
and the entry to LOCKED (Table 6-1). -/
def State.servoHostTimeout (s : State) : State :=
  if s.servo = 2 && s.servoSrc = 4 then
    ((s.reach (max s.tbs.lastUpd s.tbs.lockAt + s.secTicks (s.fld rTBS_SERVO fTBS_SERVO_HOST_TIMEOUT))).raise 46).servoHold
  else s

/-! ### Divider release (R118) -/

/-- The nominal tick of a frequency word, in fs, rounded (TBS_TICK.TICK_FS): 16 / f_root. -/
def State.tickOf (s : State) (word : Nat) : Nat :=
  let d := s.fref * word
  if d = 0 then s.tickFs else (2 * (16 * 10 ^ 15 * 2 ^ 32) + d) / (2 * d)

/-- The dividers are released after a hold of `fs` femtoseconds: TICK_FS and D_mem take the values of the running f_root,
the hold is added to device time, TBS_RETUNE records the moment, and the steps that waited are applied
(R118, R116, R361). -/
def State.dividerRelease (s : State) (fs : Nat) : State :=
  let s1 := s.setFld rTBS_TICK fTBS_TICK_TICK_FS (s.tickOf s.clk.word)
  let hold := if s1.froot = 0 then fs * 2 ^ 40 / s1.tickFs else fs * 2 ^ 8 * s1.froot / (16 * 10 ^ 15)
  let s2 := s1.setTime40 (s1.time40 + hold)
  let s3 := (s2.wr rTBS_RETUNE (BitVec.ofNat 64 s2.time)).setFld rADM_MEM fADM_MEM_DMEM (s2.nsTicks 4520)
  let steps := s3.tbs.steps
  steps.foldl State.stepTime (s3.onTbs fun z => { z with steps := [] })

end Sys2Proof.Machine
end

