-- ==== Sys2Proof/Machine/MonPg.lean ====
section
/-! DEFINITION. Window monitors, the trip matrix and pulse generators (R97 to R112). -/

namespace Sys2Proof.Machine

/-- A generator as it stands after reset. -/
def pg0 : Pg := ⟨false, 0, false, false, false, none⟩

/-- Generator `g`. -/
def State.pgen (s : State) (g : Nat) : Pg := SMap.get pg0 s.pg g

/-- Generator `g` changed. -/
def State.updPg (s : State) (g : Nat) (f : Pg → Pg) : State := { s with pg := SMap.upd pg0 s.pg g f }

/-! ### The generators' outputs -/

def State.pgMode (s : State) (g : Nat) : Nat := s.afld (rPG_CFG g) fPG_CFG_MODE
def State.pgPeriod (s : State) (g : Nat) : Nat := max 1 (s.afld (rPG_TIMING g) fPG_TIMING_PERIOD)
def State.pgWidth (s : State) (g : Nat) : Nat := s.afld (rPG_TIMING g) fPG_TIMING_WIDTH
def State.pgStart (s : State) (g : Nat) : Nat := (s.actv (rPG_START g)).toNat

/-- Does the schedule of generator `g` ask for the active level (R107)? DESIGN CHOICE (assumption 62): from the clear of TRIPPED to the next period
boundary a PERIODIC or SINGLE output is idle. -/
def State.pgActive (s : State) (g : Nat) : Bool :=
  let x := s.pgen g
  match s.pgMode g with
  | 1 => true
  | 2 => x.hi && !x.mute && !x.held
  | 3 => x.hi && !x.mute && !x.held
  | _ => false

/-- The level the schedule of generator `g` asks for: 1 high (R107). Between the clear of TRIPPED and the next period boundary it is the idle
level (DESIGN CHOICE, assumption 62). -/
def State.pgLevel (s : State) (g : Nat) : Nat :=
  let act := s.afld (rPG_CFG g) fPG_CFG_ACT_HIGH
  if s.pgActive g then act else 1 - act

/-- The level driven at the ball: low until the first commit (R111), the safe level while tripped (R105). -/
def State.pgBall (s : State) (g : Nat) : Nat :=
  if !(s.pgen g).ever then 0
  else if s.flag (rPG_STATUS g) fPG_STATUS_TRIPPED then s.fld (rPG_CFG g) fPG_CFG_SAFE
  else s.pgLevel g

/-- PG_STATUS.LEVEL shows the level now driven. -/
def State.pgShow (s : State) (g : Nat) : State := s.setFld (rPG_STATUS g) fPG_STATUS_LEVEL (s.pgBall g)

/-- Does a monitor selected by generator `g` hold a latch (R104)? -/
def State.pgMonitors (s : State) (g : Nat) : Bool :=
  (upTo 12).any fun m =>
    s.fld (rPG_CFG g) fPG_CFG_TRIP_MASK / 2 ^ m % 2 == 1 && s.flag (rMON_STATUS m) fMON_STATUS_LATCHED

/-- The trip matrix: generator `g` trips while one of its inputs holds (R104). -/
def State.pgTrip (s : State) (g : Nat) : State :=
  if (s.pgMonitors g || s.flag (rPG_CFG g) fPG_CFG_SW_TRIP) && !s.flag (rPG_STATUS g) fPG_STATUS_TRIPPED then
    (((s.setFld (rPG_STATUS g) fPG_STATUS_TRIPPED 1).updPg g fun x => { x with mute := true }).pgShow g).raise (140 + g)
  else s.pgShow g

/-- The trip matrix for every generator. -/
def State.tripMatrix (s : State) : State := (upTo 8).foldl State.pgTrip s

/-! ### Monitors -/

/-- The condition of monitor `m` at `v` mV (R98, R99). -/
def State.monCond (s : State) (m : Nat) (v0 : Int) : Bool :=
  let v : Int := if m < 4 then v0.natAbs else v0
  let hi : Int := s.fld (rMON_CFG m) fMON_CFG_HI
  let lo : Int := s.fld (rMON_CFG m) fMON_CFG_LO
  match s.fld (rMON_CFG m) fMON_CFG_WINDOW with
  | 0 => hi < v
  | 1 => v < lo
  | 2 => hi < v || v < lo
  | _ => lo ≤ v && v ≤ hi

/-- The response of monitor `m` from condition to latch, in fs (Table 5-1). -/
def State.monResponse (s : State) (m : Nat) : Nat :=
  match s.fld (rMON_CFG m) fMON_CFG_SPEED with
  | 0 => 1500000
  | 1 => 10000000
  | 2 => 1000000000
  | _ => s.fld (rMON_CFG m) fMON_CFG_SAMPLE_US * 1000000000 + 20000000

/-- Does a sample of input `n` at the present instant carry OVERLOAD: was the latch set at any instant from the monitor's response time
before it on (R103)? A record's span widened at its start is the union of these over its samples. -/
def State.overloaded (s : State) (n : Nat) : Bool :=
  s.flag (rMON_STATUS n) fMON_STATUS_LATCHED || match (s.core n).clrAt with
    | some t => ((s.now16 : Int) - t) * s.tickFs ≤ s.monResponse n * 65536
    | none => false

/-- The comparator of monitor `m` has seen `v` mV for its minimum width, or over its sample: LIVE follows the condition,
and a condition that holds latches (R99, R100, R103, R104). -/
def State.monSee (s : State) (m : Nat) (v : Int) : State :=
  let c := s.monCond m v
  let s1 := s.setFld (rMON_STATUS m) fMON_STATUS_LIVE (b2n c)
  if c && !s.flag (rMON_STATUS m) fMON_STATUS_LATCHED then
    let s2 := (s1.setFld (rMON_STATUS m) fMON_STATUS_LATCHED 1).addSat (rMON_STATUS m) fMON_STATUS_TRIPS 1
    (s2.tripMatrix).raiseLim 1000 (128 + m)
  else s1

/-- LATCHED of monitor `m` clears. -/
def State.monClear (s : State) (m : Nat) : State :=
  if s.flag (rMON_STATUS m) fMON_STATUS_LATCHED then
    let s1 := if m < 4 then s.updCore m fun c => { c with clrAt := some (s.now16 : Int) } else s
    s1.setFld (rMON_STATUS m) fMON_STATUS_LATCHED 0
  else s

/-- A condition of monitor `m` has held for its minimum width (FAST, MEDIUM and SLOW). -/
def State.monTrip (s : State) (m : Nat) (v : Int) : State :=
  if s.flag (rMON_CFG m) fMON_CFG_EN && s.fld (rMON_CFG m) fMON_CFG_SPEED != 3 then s.monSee m v else s

/-- A 20 ns sample of monitor `m` in SAMPLED mode (R100). -/
def State.monSample (s : State) (m : Nat) (v : Int) : State :=
  if s.flag (rMON_CFG m) fMON_CFG_EN && s.fld (rMON_CFG m) fMON_CFG_SPEED = 3 then s.monSee m v else s

/-- The end of a CLEAR_US period (R101). -/
def State.monPeriod (s : State) (m : Nat) : State :=
  if s.flag (rMON_CFG m) fMON_CFG_CLR_MODE then s.monClear m else s

/-- A write to MON_STATUS[m]: a 1 clears LATCHED (R101). -/
def State.wrMonStatus (m : Nat) (v : Word) (s : State) : State :=
  if fget v fMON_STATUS_LATCHED = 1 then s.monClear m else s

/-- A write to MON_CFG[m]: one that sets EN to 0 clears LATCHED (R102). -/
def State.wrMonCfg (m : Nat) (v : Word) (s : State) : State :=
  let s1 := s.wrCodes (rMON_CFG m) v []
  if s1.flag (rMON_CFG m) fMON_CFG_EN then s1
  else (s1.monClear m).setFld (rMON_STATUS m) fMON_STATUS_LIVE 0

/-! ### Generator commands -/

/-- A write to PG_CFG[g]: SAFE and TRIP_MASK at once, the schedule fields shadowed, SW_TRIP and ARM set (R104, R105,
R108). -/
def State.wrPgCfg (g : Nat) (v : Word) (s : State) : State := (s.wrCodes (rPG_CFG g) v []).pgTrip g

/-- A write to PG_STATUS[g]: LATE clears; a 1 to TRIPPED is discarded while a selected monitor still holds its latch, else
it clears TRIPPED and SW_TRIP and the output resumes, in PERIODIC and SINGLE at the next period boundary
(R106). -/
def State.wrPgStatus (g : Nat) (v : Word) (s : State) : State :=
  let s1 := if fget v fPG_STATUS_LATE = 1 then s.setFld (rPG_STATUS g) fPG_STATUS_LATE 0 else s
  if fget v fPG_STATUS_TRIPPED = 1 && !s1.pgMonitors g then
    ((s1.setFld (rPG_STATUS g) fPG_STATUS_TRIPPED 0).setFld (rPG_CFG g) fPG_CFG_SW_TRIP 0).pgShow g
  else s1

/-- The first period boundary of generator `g` that has not passed: its index. -/
def State.pgNextK (s : State) (g : Nat) : Nat := ceilDiv (s.time - s.pgStart g) (s.pgPeriod g)

/-- The schedule of generator `g` begins with the values now in force. -/
def State.pgBegin (s : State) (g : Nat) : State :=
  let run := s.pgMode g = 2 || s.pgMode g = 3
  let tr := s.flag (rPG_STATUS g) fPG_STATUS_TRIPPED
  ((s.updPg g fun x => ⟨true, s.pgNextK g, false, tr, s.held, x.last⟩).setFld
    (rPG_STATUS g) fPG_STATUS_RUNNING (b2n run)).pgShow g

/-- The shadowed schedule of generator `g` is taken into force. -/
def State.pgTake (s : State) (g : Nat) : State :=
  (((s.commitReg (rPG_CFG g)).commitReg (rPG_TIMING g)).commitReg (rPG_START g)).setFld (rPG_CFG g) fPG_CFG_ARM 0

/-- An armed commit takes place (R108): while RUNNING at the next period boundary; otherwise at START, or, when START has
passed, at the first boundary that has not, with LATE set. OFF and STATIC have no schedule to align. -/
def State.pgCommit (s : State) (g : Nat) : State :=
  if s.flag (rPG_CFG g) fPG_CFG_ARM then
    if s.flag (rPG_STATUS g) fPG_STATUS_RUNNING then
      ((s.reach (s.pgStart g + s.pgNextK g * s.pgPeriod g)).pgTake g).pgBegin g
    else
      let mode := s.fld (rPG_CFG g) fPG_CFG_MODE
      let st := (s.rd (rPG_START g)).toNat
      if mode = 2 || mode = 3 then
        if s.time ≤ st then ((s.reach st).pgTake g).pgBegin g
        else (((s.pgTake g).pgBegin g).setFld (rPG_STATUS g) fPG_STATUS_LATE 1).raise (148 + g)
      else (s.pgTake g).pgBegin g
  else s

/-- The next scheduled edge of generator `g` (R105, R107, R110): an active edge starts a pulse, unless the generator is
tripped or held, and ends a wait for the period boundary; an idle edge ends the period's pulse, and in SINGLE
the schedule. -/
def State.pgEdge (s : State) (g : Nat) : State :=
  if s.flag (rPG_STATUS g) fPG_STATUS_RUNNING && !s.held then
    let x := s.pgen g
    let t0 := s.pgStart g + x.k * s.pgPeriod g
    if x.hi then
      let s1 := s.reach (t0 + s.pgWidth g)
      let s2 := s1.updPg g fun x => { x with hi := false, k := x.k + 1, last := some (s1.time : Int) }
      (if s.pgMode g = 3 then s2.setFld (rPG_STATUS g) fPG_STATUS_RUNNING 0 else s2).pgShow g
    else
      let s1 := s.reach t0
      let tr := s.flag (rPG_STATUS g) fPG_STATUS_TRIPPED
      let s2 := s1.updPg g fun x => { x with hi := true, mute := tr, last := some (s1.time : Int) }
      (if tr then s2 else s2.addMod (rPG_STATUS g) fPG_STATUS_PULSES 1).pgShow g
  else s

/-- The dividers are held: PERIODIC and SINGLE outputs return to the idle level (R109). -/
def State.pgHold (s : State) : State :=
  (upTo 8).foldl (fun t g => (t.updPg g fun x => { x with held := true }).pgShow g) s

/-- The dividers are released: each schedule resumes at the first period boundary that has not passed (R109). -/
def State.pgRelease (s : State) : State :=
  (upTo 8).foldl (fun t g =>
    (t.updPg g fun x => { x with held := false, hi := false, k := t.pgNextK g }).pgShow g) s

/-- The state bit of generator `g` (0 to 3) at the present tick for switched accumulation: whether its scheduled level is the active one, and
whether it is transitional (R110, R243). -/
def State.pgBit (s : State) (g : Nat) : Bool × Bool :=
  let x := s.pgen g
  let tr := s.flag (rPG_STATUS g) fPG_STATUS_TRIPPED
  let guard := match x.last with
    | some t => (s.time : Int) < t + s.afld (rPG_CFG g) fPG_CFG_DET_GUARD
    | none => false
  (x.ever && s.pgActive g, tr || x.held || guard)

end Sys2Proof.Machine
end

