-- ==== Sys2Proof/Machine/Ddc.lean ====
section
/-! DEFINITION. Down-conversion and half-band decimation: the arithmetic of WB and NB units, their coefficient banks and
the swap protocol (R179 to R203). -/

namespace Sys2Proof.Machine

/-! ### Streams -/

/-- Whole ticks as an instant. -/
abbrev tick16 (t : Nat) : Nat := t * 65536

/-- TIME and FINE of an instant (R27). -/
def timeOf (t : Nat) : Nat := t / 65536
def fineOf (t : Nat) : Nat := t % 65536 / 128

/-- A half-band stage that has taken nothing since its origin. -/
def ddcStg0 : DdcStg := ⟨0, 0, 0, []⟩

/-- A unit at a new origin. -/
def ddc0 : Ddc := ⟨0, 0, List.replicate 12 ddcStg0, none, []⟩

/-- Unit `u`. -/
def State.ddcU (s : State) (u : Nat) : Ddc := SMap.get ddc0 s.ddc u

/-- Unit `u` changed. -/
def State.updDdc (s : State) (u : Nat) (f : Ddc → Ddc) : State := { s with ddc := SMap.upd ddc0 s.ddc u f }

/-- The square of unit `u` (Tables 8-1 and 9-1). -/
abbrev ddcSquare (u : Nat) : Nat := u + 4

/-- Stages in use: STAGES of a used NB unit, one for a used WB unit. -/
def State.ddcStages (s : State) (u : Nat) : Nat := s.fld (rDDC_CFG u) fDDC_CFG_STAGES

/-- USED of unit `u`. -/
def State.ddcUsed (s : State) (u : Nat) : Bool := s.flag (rDDC_CFG u) fDDC_CFG_USED

/-! ### Mixers (R181, R182) -/

/-- The fixed mixer of a WB unit for input sample `n`. -/
def wbMix (invert : Bool) (n : Nat) (x : Int) : Int × Int :=
  let y := x * 256
  match n % 4 with
  | 0 => (y, 0)
  | 1 => (0, if invert then y else -y)
  | 2 => (-y, 0)
  | _ => (0, if invert then -y else y)

/-- The mixer output of an NB unit at accumulator value `acc` (R182). -/
def nbMix (acc poff : Nat) (cpx : Bool) (xi xq : Int) : Int × Int :=
  let a := (acc + poff * 2 ^ 16) % 2 ^ 48 / 2 ^ 28
  let c := fxRound 131071 (fxCos a (2 ^ 20))
  let d := fxRound 131071 (fxSin a (2 ^ 20))
  if cpx then (rndHalfUp (xi * c + xq * d) 10, rndHalfUp (xq * c - xi * d) 10)
  else (rndHalfUp (xi * c) 9, rndHalfUp (-(xi * d)) 9)

/-- The mixer of unit `u` takes one sample. -/
def State.ddcMix (s : State) (u : Nat) (x : Smp) : Smp × State :=
  let d := s.ddcU u
  let (i, q) :=
    if u < 4 then wbMix (fget (s.actv (rDDC_NCO_CTRL u)) fDDC_NCO_CTRL_INVERT == 1) d.n x.i
    else nbMix d.acc (s.afld (rDDC_NCO_CTRL u) fDDC_NCO_CTRL_POFF) (s.flag (rDDC_CFG u) fDDC_CFG_SRC_CPX) x.i x.q
  ({ x with i := i, q := q },
    s.updDdc u fun d =>
      { d with n := d.n + 1, acc := (d.acc + s.afld (rDDC_NCO_FTW u) fDDC_NCO_FTW_FTW) % 2 ^ 48 })

/-! ### Half-band stages (R183, R184) -/

/-- Coefficient c[i] of a bank, i from 1 to 16. -/
def State.ddcCoef (s : State) (u k b i : Nat) : Int :=
  let a := rDDC_COEFR u k b ((i - 1) / 2)
  if i % 2 = 1 then s.fldS a fDDC_COEFR_C_LO else s.fldS a fDDC_COEFR_C_HI

/-- The sum of R183 around the input that lies `j` places back in the history: `pick` chooses I or Q. -/
def halfBand (pick : Smp → Int) (hist : List Smp) (j : Nat) (centre : Int) (c : Nat → Int) (kk : Nat) : Int :=
  let at_ := fun p => ((hist[p]?).map pick).getD 0
  (upTo kk).foldl (fun a i => a + c (i + 1) * (at_ (j + (2 * i + 1)) + at_ (j - (2 * i + 1)))) (centre * at_ j)

/-- The places of the history that an output around place `j` uses. -/
def spanPlaces (j kk : Nat) : List Nat := j :: (upTo kk).flatMap fun i => [j + (2 * i + 1), j - (2 * i + 1)]

/-- ROUND of R184; for the reserved code 3 the direction is a free value. -/
def ddcRound (mode : Nat) (acc : Int) (sh : Nat) (up : Bool) : Int :=
  match mode with
  | 0 => rndHalfUp acc sh
  | 1 => rndEven acc sh
  | 2 => acc / 2 ^ sh
  | _ => if acc % 2 ^ sh = 0 then acc / 2 ^ sh else acc / 2 ^ sh + b2n up

/-- The bank in use by stage `k` for an output at instant `t` (R192). -/
def State.ddcBank (s : State) (u k t : Nat) : Nat :=
  let a := s.fld (rDDC_STAGE u k) fDDC_STAGE_ACTIVE
  match (s.ddcU u).swap with
  | some ⟨some at_, mask, _⟩ => if mask / 2 ^ k % 2 = 1 && at_ ≤ t then 1 - a else a
  | _ => a

/-- The highest bit of a mask. -/
def topBit (mask : Nat) : Nat := mask.log2

/-- The lowest bit of a mask that is not 0. -/
def lowBit (mask : Nat) : Nat := ((upTo 64).find? fun k => mask / 2 ^ k % 2 == 1).getD 0

/-- The named stages flip ACTIVE. -/
def State.ddcFlip (s : State) (u mask : Nat) : State :=
  (upTo 12).foldl (fun t k =>
    if mask / 2 ^ k % 2 = 1 then
      t.setFld (rDDC_STAGE u k) fDDC_STAGE_ACTIVE (1 - t.fld (rDDC_STAGE u k) fDDC_STAGE_ACTIVE)
    else t) s

/-- A swap ends DONE (R193). -/
def State.ddcSwapEnd (s : State) (u mask : Nat) : State :=
  (((s.ddcFlip u mask).updDdc u fun d => { d with swap := none }).setFlds (rDDC_SWAP u)
    [(fDDC_SWAP_GO, 0), (fDDC_SWAP_RESULT, 2), (fDDC_SWAP_CAUSE, 0)]).addMod (rDDC_STAT u) fDDC_STAT_SWAPS 1
    |>.raise 212

/-- A stage has computed an output at instant `t`: the commit point of a pending swap, and its end once the highest named
stage has switched (R192, R193). -/
def State.ddcSwapSee (s : State) (u k t : Nat) : State :=
  match (s.ddcU u).swap with
  | some ⟨some at_, mask, done⟩ =>
    if mask / 2 ^ k % 2 = 1 && at_ ≤ t then
      let s1 := if k = lowBit mask && !done then s.updDdc u fun d => { d with swap := some ⟨some at_, mask, true⟩ } else s
      if k = topBit mask then (s1.setFld (rDDC_SWAP_AT u) fDDC_SWAP_AT_TIME (timeOf t)).ddcSwapEnd u mask else s1
    else s
  | _ => s

/-- The limiter of R184: the value and whether it was limited. -/
def limit (lim v : Int) : Int × Bool := if lim < v then (lim, true) else if v < -lim - 1 then (-lim - 1, true) else (v, false)

/-- DDC_STAGE of stage `k` as an output at instant `t` uses it: RSH and ROUND apply to the first output aligned at or after their
commit (R196). -/
def State.ddcStageAt (s : State) (u k t : Nat) : Word :=
  (((s.ddcU u).olds.find? fun e => t < e.1).map fun e => e.2.getD k 0).getD (s.actv (rDDC_STAGE u k))

/-- The generator states at the tick of a sample, and at it and the ticks since the sample before, as bits [27:16]. -/
def pgOwn (fl : Nat) : Nat := fl / 2 ^ 16 % 2 ^ 12 * 2 ^ 16
def pgAll (fl : Nat) : Nat := pgOwn fl ||| fl / 2 ^ 32 % 2 ^ 12 * 2 ^ 16

/-- The generator states of an output at the instant of the input with flags `c`, when the output before lies two inputs earlier and `m` are the
flags of the input between (R243). -/
def pgSince (c m : Nat) : Nat := pgOwn c ||| (c / 2 ^ 32 % 2 ^ 12 * 2 ^ 16 ||| pgAll m) * 2 ^ 16

/-- One output of stage `k` with the input of its centre `j` places back in the history (R183, R184, R187). -/
def State.ddcOutput (s : State) (u k : Nat) (final : Bool) (hist : List Smp) (j b kk : Nat) : Smp × State :=
  let centre := s.fldS (rDDC_COEF0 u k b) fDDC_COEF0_CENTRE
  let c := s.ddcCoef u k b
  let t := ((hist[j]?).map (·.t)).getD 0
  let w := s.ddcStageAt u k t
  let sh := fget w fDDC_STAGE_RSH + (if final then 8 else 0)
  let lim : Int := if final then 2 ^ 15 - 1 else 2 ^ 23 - 1
  let mode := fget w fDDC_STAGE_ROUND
  let (f, s1) := s.fresh
  let (i, ci) := limit lim (ddcRound mode (halfBand (·.i) hist j centre c kk) sh (Config.roundUp (2 * f)))
  let (q, cq) := limit lim (ddcRound mode (halfBand (·.q) hist j centre c kk) sh (Config.roundUp (2 * f + 1)))
  let used := (spanPlaces j kk).map fun p => hist[p]?
  let ok := used.all fun x => (x.map (·.ok)).getD false
  let fl := used.foldl (fun a x => a ||| ((x.map (·.fl % 65536)).getD 0)) 0
    ||| pgSince (((hist[j]?).map (·.fl)).getD 0) (((hist[j + 1]?).map (·.fl)).getD 0)
  let n := b2n ci + b2n cq
  let clip := ok && n != 0
  let s2 := if clip then
      (s1.addSat (rDDC_STAT u) fDDC_STAT_SAT n).raiseLim 1000 (192 + u)
    else s1
  (⟨t, i, q, ok, if clip then fl ||| flClipped else fl, if final then 1 else 2⟩, s2)

/-- The outputs of stage `k` that its inputs allow now, oldest first. -/
def State.ddcOuts : Nat → State → Nat → Nat → Bool → List Smp × State
  | 0, s, _, _, _ => ([], s)
  | n + 1, s, u, k, final =>
    let st := (s.ddcU u).stg.getD k ddcStg0
    if st.n ≤ 2 * st.m then ([], s)
    else
      let j := st.n - 1 - 2 * st.m
      let t := ((st.hist[j]?).map (·.t)).getD 0
      let b := s.ddcBank u k t
      let kk := s.fld (rDDC_COEF0 u k b) fDDC_COEF0_K
      if j < 2 * kk - 1 then ([], s)
      else
        let (y, s1) := s.ddcOutput u k final st.hist j b kk
        let s2 := (s1.updDdc u fun d =>
          { d with stg := modAt (fun g => { g with m := g.m + 1, last := t }) d.stg k }).ddcSwapSee u k t
        let (ys, s3) := State.ddcOuts n s2 u k final
        (y :: ys, s3)

/-- Stage `k` takes one input. -/
def State.ddcPush (s : State) (u k : Nat) (final : Bool) (x : Smp) : List Smp × State :=
  State.ddcOuts 16 (s.updDdc u fun d =>
    { d with stg := modAt (fun g => { g with n := g.n + 1, hist := (x :: g.hist).take 64 }) d.stg k }) u k final

/-- Stage `k` takes several inputs, oldest first. -/
def State.ddcPushAll (s : State) (u k : Nat) (final : Bool) (xs : List Smp) : List Smp × State :=
  xs.foldl (fun r x => let (ys, t) := r.2.ddcPush u k final x; (r.1 ++ ys, t)) ([], s)

/-- Unit `u` takes the samples of a beat and delivers its outputs (R180 to R187). -/
def State.ddcTake (s : State) (u : Nat) (xs : List Smp) : List Smp × State :=
  let mixed := xs.foldl (fun r x => let (y, t) := r.2.ddcMix u x; (r.1 ++ [y], t)) ([], s)
  let d := s.ddcStages u
  (upTo d).foldl (fun r k => r.2.ddcPushAll u k (k + 1 == d && !s.flag (rDDC_CFG u) fDDC_CFG_FMT) r.1) mixed

/-! ### Origins (R185, R194) -/

/-- A swap whose commit point has not passed is cancelled (R194). -/
def State.ddcCancel (s : State) (u cause : Nat) : State :=
  match (s.ddcU u).swap with
  | some ⟨_, _, false⟩ =>
    ((s.updDdc u fun d => { d with swap := none }).setFlds (rDDC_SWAP u)
      [(fDDC_SWAP_GO, 0), (fDDC_SWAP_RESULT, 3), (fDDC_SWAP_CAUSE, cause)]).raise 213
  | _ => s

/-- The outputs that a unit's inputs have begun and that it has not computed: what a discarded pipeline loses (R169). -/
def State.ddcInFlight (s : State) (u : Nat) : Nat :=
  let d := s.ddcStages u
  if d = 0 then 0 else (s.ddcU u).n / 2 ^ d - ((s.ddcU u).stg.getD (d - 1) ddcStg0).m

/-- Unit `u` takes a new origin; a pending swap is cancelled with a cause (2 PLAN, 3 RESTART, 4 RELOCK). -/
def State.ddcOrigin (s : State) (u cause : Nat) : State :=
  let s1 := (s.loseDirect (ddcSquare u) (s.ddcInFlight u)).ddcCancel u cause
  s1.updDdc u fun d => { ddc0 with swap := d.swap }

/-! ### The swap protocol (R191 to R196) -/

/-- The instant of a swap: SYNC waits for the next parameter commit, TIME 0 is the next DCLK boundary. -/
def swapAt (s : State) (sync : Bool) (t : Nat) : Option Nat :=
  if sync then none else some (if t = 0 then tick16 (s.time + 1) else tick16 t)

/-- A write of 1 to DDC_SWAP[u].GO (R191, R192). -/
def State.ddcSwapGo (s : State) (u : Nat) : State :=
  let mask := s.fld (rDDC_SWAP u) fDDC_SWAP_MASK
  let refuse := fun cause => s.setFlds (rDDC_SWAP u) [(fDDC_SWAP_RESULT, 4), (fDDC_SWAP_CAUSE, cause)]
  if (s.ddcU u).swap.isSome then refuse 5
  else if mask = 0 || (u < 4 && 2 ≤ mask) || (s.ddcUsed u && 2 ^ s.ddcStages u ≤ mask) then refuse 6
  else if !s.ddcUsed u then s.ddcSwapEnd u mask
  else
    let st := (s.ddcU u).stg.getD (lowBit mask) ddcStg0
    let at_ := swapAt s (s.flag (rDDC_SWAP u) fDDC_SWAP_SYNC) (s.rd (rDDC_SWAP_TIME u)).toNat
    let late := match at_ with
      | some t => st.m != 0 && t ≤ st.last
      | none => false
    let s1 := (s.setFlds (rDDC_SWAP u) [(fDDC_SWAP_GO, 1), (fDDC_SWAP_RESULT, 1), (fDDC_SWAP_CAUSE, 0)]).updDdc u
      fun d => { d with swap := some ⟨if late then some (st.last + 1) else at_, mask, false⟩ }
    if late then (s1.setFld (rDDC_SWAP u) fDDC_SWAP_LATE 1).raise 214 else s1

/-- A write to DDC_SWAP[u]. -/
def State.wrDdcSwap (u : Nat) (v : Word) (s : State) : State :=
  let s1 := s.wrCodes (rDDC_SWAP u) v [fDDC_SWAP_GO, fDDC_SWAP_CANCEL]
  let s2 := if fget v fDDC_SWAP_CANCEL = 1 then s1.ddcCancel u 1 else s1
  if fget v fDDC_SWAP_GO = 1 then s2.ddcSwapGo u else s2

/-- The first new-bank output of the lowest named stage is computed: from here the swap can no longer be cancelled. -/
def State.ddcSwapCommit (s : State) (u : Nat) : State :=
  match (s.ddcU u).swap with
  | some ⟨some at_, mask, false⟩ =>
    (s.reach (ceilDiv at_ 65536)).updDdc u fun d => { d with swap := some ⟨some at_, mask, true⟩ }
  | _ => s

/-- Input samples per DCLK of unit `u` (R180, R186). -/
def State.ddcPerTick (s : State) (u : Nat) : Nat :=
  let src := s.fld (rDDC_CFG u) fDDC_CFG_SRC
  if src < 4 then (if s.paired src then 32 else 16) else if s.paired (src - 4) then 16 else 8

/-- The last named stage switches (R193). -/
def State.ddcSwapDone (s : State) (u : Nat) : State :=
  match (s.ddcU u).swap with
  | some ⟨some at_, mask, true⟩ =>
    let k := topBit mask
    let st := (s.ddcU u).stg.getD k ddcStg0
    let sp := 65536 * 2 ^ (k + 1) / s.ddcPerTick u
    let t := if st.m = 0 then at_ else if at_ ≤ st.last then st.last else st.last + ceilDiv (at_ - st.last) sp * sp
    (s.setFld (rDDC_SWAP_AT u) fDDC_SWAP_AT_TIME (timeOf t)).ddcSwapEnd u mask
  | _ => s

/-! ### Coefficients and controls (R189, R195, R203) -/

/-- May bank `b` of stage `k` be written: not the active one, nor one a pending swap will switch to? -/
def State.ddcBankFree (s : State) (u k b : Nat) : Bool :=
  s.fld (rDDC_STAGE u k) fDDC_STAGE_ACTIVE != b &&
  match (s.ddcU u).swap with
  | some x => x.mask / 2 ^ k % 2 != 1
  | none => true

/-- A coefficient write is discarded: counted and reported. -/
def State.ddcDiscard (s : State) (u : Nat) : State := (s.addSat (rDDC_STAT u) fDDC_STAT_COEF_DISC 1).raise 215

/-- A write to word 0 of a bank. -/
def State.wrDdcCoef0 (u k b : Nat) (v : Word) (s : State) : State :=
  let kk := fget v fDDC_COEF0_K
  if s.ddcBankFree u k b && 2 ≤ kk && kk ≤ 16 then s.wrCodes (rDDC_COEF0 u k b) v [] else s.ddcDiscard u

/-- A write to word r + 1 of a bank. -/
def State.wrDdcCoefR (u k b r : Nat) (v : Word) (s : State) : State :=
  if s.ddcBankFree u k b then s.wrCodes (rDDC_COEFR u k b r) v [] else s.ddcDiscard u

/-- A write to DDC_STAGE[u][k]; an RSH outside 16 to 23 is discarded (Table 9-6). -/
def State.wrDdcStage (u k : Nat) (v : Word) (s : State) : State :=
  let rsh := fget v fDDC_STAGE_RSH
  s.wrCodes (rDDC_STAGE u k)
    (if 16 ≤ rsh && rsh ≤ 23 then v else fset v fDDC_STAGE_RSH (s.fld (rDDC_STAGE u k) fDDC_STAGE_RSH)) []

/-- A write to DDC_NCO_FTW[u]; reserved in a WB block (R203). -/
def State.wrDdcFtw (u : Nat) (v : Word) (s : State) : State := if u < 4 then s else s.wrCodes (rDDC_NCO_FTW u) v []

/-- A write to DDC_NCO_CTRL[u]; a WB block has INVERT alone (R203). -/
def State.wrDdcCtrl (u : Nat) (v : Word) (s : State) : State :=
  s.wrCodes (rDDC_NCO_CTRL u) (if u < 4 then fsets v [(fDDC_NCO_CTRL_RST_ARM, 0), (fDDC_NCO_CTRL_POFF, 0)] else v) []

/-- The parameter commit in every unit: FTW, POFF, INVERT, RSH and ROUND take effect, an armed accumulator reset happens,
and a swap that waits for the commit takes its instant (R176, R182, R191, R196). -/
def State.ddcParamCommit (s : State) : State :=
  (upTo 20).foldl (fun t u =>
    let t1 := (t.commitReg (rDDC_NCO_FTW u)).commitReg (rDDC_NCO_CTRL u)
    let last := ((t1.ddcU u).stg.getD (t1.ddcStages u - 1) ddcStg0).last
    let t1 := t1.updDdc u fun x =>
      { x with olds := (x.olds.filter fun e => last < e.1) ++ if t1.ddcUsed u then [(tick16 s.time, (upTo 12).map fun k => t1.actv (rDDC_STAGE u k))] else [] }
    let t2 := (upTo 12).foldl (fun t k => t.commitReg (rDDC_STAGE u k)) t1
    let t3 := if t2.flag (rDDC_NCO_CTRL u) fDDC_NCO_CTRL_RST_ARM then
        (t2.updDdc u fun d => { d with acc := 0 }).setFld (rDDC_NCO_CTRL u) fDDC_NCO_CTRL_RST_ARM 0
      else t2
    match (t3.ddcU u).swap with
    | some ⟨none, mask, d⟩ => t3.updDdc u fun x => { x with swap := some ⟨some (tick16 s.time), mask, d⟩ }
    | _ => t3) s

/-! ### Plan records (R199, R200) -/

/-- The pairing of the converter at square `c` in a plan (Table 4-1). -/
def PlanImg.paired (p : PlanImg) (c : Nat) : Bool := if c < 2 then p.pair01 == 1 else p.pair23 == 1

/-- The record of a square in a plan. -/
def PlanImg.unit? (p : PlanImg) (sq : Nat) : Option UnitRec := p.units.find? fun u => u.square == sq

/-- Body word `i` of the record of a square. -/
def PlanImg.word (p : PlanImg) (sq i : Nat) : Nat := ((p.unit? sq).map fun u => (u.body.getD i 0).toNat).getD 0

/-- The routes that arrive at a square. -/
def PlanImg.into (p : PlanImg) (sq : Nat) : List Route := p.routes.filter fun r => r.dsts.contains sq

/-- The routes that a square sources. -/
def PlanImg.from_ (p : PlanImg) (sq : Nat) : List Route := p.routes.filter fun r => r.src == sq

/-- The source square of the one route that arrives at a square, if there is exactly one. -/
def PlanImg.srcOf (p : PlanImg) (sq : Nat) : Option Nat :=
  match p.into sq with
  | [r] => some r.src
  | _ => none

/-- Input samples per DCLK that a converter or WB square delivers. -/
def PlanImg.perTick (p : PlanImg) (src : Nat) : Nat :=
  if src < 4 then (if p.paired src then 32 else 16) else if p.paired (src - 4) then 16 else 8

/-- Is the record of a down-converter valid (R200)? -/
def PlanImg.ddcValid (p : PlanImg) (u : UnitRec) : Bool :=
  let sq := u.square
  let rs := p.into sq
  if sq < 8 then u.body.isEmpty && rs.length ≤ 1 && rs.all fun r => r.src == sq - 4
  else
    let w := p.word sq 0
    let st := w % 16
    let fmt := w / 16 % 2
    let gang := w / 32 % 2
    let src := (rs.map (·.src)).headD 4
    let direct := src < 4 && p.paired src
    u.body.length == 1 && w < 64 && 1 ≤ st && st ≤ 12 && rs.length ≤ 1 && src < 8
      && (gang == 0 || (sq % 2 == 0 && (p.unit? (sq + 1)).isNone && (p.into (sq + 1)).isEmpty
            && (p.from_ (sq + 1)).isEmpty))
      && (gang == 1) == direct
      && p.perTick src * (if fmt = 1 then 6 else 4) ≤ 64 * 2 ^ st

/-- DDC_CFG of every unit under a plan, or under none. -/
def State.ddcPlan (s : State) (p : Option PlanImg) : State :=
  (upTo 20).foldl (fun t u =>
    let sq := ddcSquare u
    let w := match p with
      | none => 0
      | some p =>
        let gang := p.word sq 0 / 32 % 2
        let partner := 4 ≤ u && u % 2 == 1 && p.word (sq - 1) 0 / 32 % 2 == 1
        let src := (p.srcOf sq).getD 0
        if (p.unit? sq).isSome then
          fsets 0 [(fDDC_CFG_USED, 1), (fDDC_CFG_GANG, if u < 4 then 0 else gang),
            (fDDC_CFG_SRC_CPX, b2n (4 ≤ src && src < 8)), (fDDC_CFG_SRC, src),
            (fDDC_CFG_FMT, if u < 4 then 0 else p.word sq 0 / 16), (fDDC_CFG_STAGES, if u < 4 then 1 else p.word sq 0)]
        else fset 0 fDDC_CFG_PARTNER (b2n partner)
    t.wr (rDDC_CFG u) w) s

end Sys2Proof.Machine
end

