-- ==== Sys2Proof/Machine/Xfm.lean ====
section
/-! DEFINITION. Transform pipelines: frames, windows and tables, the block-floating-point transform, and delivery of
frames (R204 to R231). -/

namespace Sys2Proof.Machine

/-- A pipeline as it stands after reset. -/
def xfm0 : Xfm := ⟨0, 0, 0, none, 0, [], [], [], [], none, none⟩

/-- Pipeline `n`. -/
def State.xfmU (s : State) (n : Nat) : Xfm := SMap.get xfm0 s.xfm n

/-- Pipeline `n` changed. -/
def State.updXfm (s : State) (n : Nat) (f : Xfm → Xfm) : State := { s with xfm := SMap.upd xfm0 s.xfm n f }

/-- The square of pipeline `n`. -/
abbrev xfmSquare (n : Nat) : Nat := 24 + n

/-! ### Windows (R212, R222) -/

/-- The coefficients a_0 to a_4 of Table 10-2, in 10^-8. -/
def winCoef : Nat → List Int
  | 1 => [50000000, 50000000]
  | 2 => [35875000, 48829000, 14128000, 1168000]
  | _ => [21557895, 41663158, 27726316, 8357895, 694737]

/-- Coefficient w[i] of a built-in window of length `n`, with weight 2^-17. -/
def winAt (wsel n i : Nat) : Int :=
  if wsel = 0 then 131072
  else
    let v := (winCoef wsel).zipIdx.foldl (fun a e => a + (if e.2 % 2 = 0 then e.1 else -e.1) * fxCos (e.2 * i) n) 0
    min 131071 ((2 * v * 131072 + 2 ^ fxBits * 100000000) / (2 ^ (fxBits + 1) * 100000000))

/-- All P × N coefficients of a frame: a built-in window, or the symmetric prototype of a table (R213). -/
def frameCoef (wsel : Nat) (tab : List Int) (n : Nat) : List Int :=
  if wsel = 4 then tab ++ tab.reverse else (upTo n).map (winAt wsel n)

/-- ENBW of a window in 2^-16 bin: N × sum(h²) / (sum h)². -/
def enbw (h : List Int) (n : Nat) (up : Bool) (other : Nat) : Nat :=
  let a := h.foldl (fun x c => x + (c * c).toNat) 0 * n * 65536
  let b := (h.foldl (· + ·) 0).natAbs ^ 2
  if b = 0 then other
  else
    let q := if a % b = 0 then a / b else a / b + b2n up
    if q < 2 ^ 20 then q else other

/-! ### The transform (R218 to R221) -/

/-- A complex value. -/
abbrev Cpx := Int × Int

/-- A shift that rounds half up in both components. -/
def cshr (v : Cpx) (n : Nat) : Cpx := (rndHalfUp v.1 n, rndHalfUp v.2 n)

/-- The largest component magnitude. -/
def peakOf (l : List Cpx) : Nat := l.foldl (fun m v => max m (max v.1.natAbs v.2.natAbs)) 0

/-- The weighted sums of R212: coefficients and samples are P × N long, samples in 24-bit scale. -/
def weighted (h : List Int) (x : List Cpx) (n p sw : Nat) : List Cpx :=
  let ha := h.toArray
  let xa := x.toArray
  (upTo n).map fun j =>
    let acc := (upTo p).foldl (fun (a : Cpx) k =>
      let c := ha.getD (k * n + j) 0
      let v := xa.getD (k * n + j) (0, 0)
      (a.1 + c * v.1, a.2 + c * v.2)) (0, 0)
    cshr acc (17 + sw)

/-- v × (-j)^k. -/
def turn (v : Cpx) (k : Nat) : Cpx :=
  match k % 4 with
  | 0 => v
  | 1 => (v.2, -v.1)
  | 2 => (-v.1, -v.2)
  | _ => (-v.2, v.1)

/-- b × W for the twiddle W = round(131,071 × e^(-j 2 pi m / n)); m = 0 is bypassed. -/
def twiddle (b : Cpx) (m n : Nat) : Cpx :=
  if m = 0 then b
  else
    let c := fxRound 131071 (fxCos m n)
    let d := -(fxRound 131071 (fxSin m n))
    (rndHalfUp (b.1 * c - b.2 * d) 17, rndHalfUp (b.1 * d + b.2 * c) 17)

/-- One stage over sub-transforms of length `nk`: radix 4, or radix 2 where `nk` is 2 (decimation in frequency). -/
def stage (y : List Cpx) (nk : Nat) : List Cpx :=
  let r := if nk = 2 then 2 else 4
  let l := nk / r
  let ya := y.toArray
  (upTo y.length).map fun pos =>
    let base := pos / nk * nk
    let k := pos % nk / l
    let j := pos % l
    let b := (upTo r).foldl (fun (a : Cpx) i =>
      let v := turn (ya.getD (base + j + i * l) (0, 0)) (if r = 2 then 2 * i * k else i * k)
      (a.1 + v.1, a.2 + v.2)) (0, 0)
    twiddle b (k * j) nk

/-- Limits a component to a range and counts it (R221). -/
def limitCpx (lo hi : Int) (v : Cpx) : Cpx × Nat :=
  let f := fun (x : Int) => if hi < x then (hi, 1) else if x < lo then (lo, 1) else (x, 0)
  ((((f v.1).1), ((f v.2).1)), (f v.1).2 + (f v.2).2)

/-- Limits every value of a list. -/
def limitAll (lo hi : Int) (l : List Cpx) : List Cpx × Nat :=
  let r := l.map (limitCpx lo hi)
  (r.map (·.1), r.foldl (fun n e => n + e.2) 0)

/-- The stages: the result in stage order, the shifts, and the limited values (R218, R221). `left` is the size of the
sub-transforms still to do, as a power of two. -/
def stages (fixed : Bool) (sched : Nat) : Nat → Nat → List Cpx → List Nat → Nat → List Cpx × List Nat × Nat
  | 0, _, y, ss, sat => (y, ss, sat)
  | fuel + 1, left, y, ss, sat =>
    if left = 0 then (y, ss, sat)
    else
      let m := peakOf y
      let sk := if fixed then sched / 4 ^ ss.length % 4 else if m < 2 ^ 22 then 0 else if m < 2 ^ 23 then 1 else 2
      let z := stage (y.map fun v => cshr v sk) (2 ^ left)
      let (z, n) := if fixed then limitAll (-(2 ^ 26 - 1)) (2 ^ 26 - 1) z else (z, 0)
      stages fixed sched fuel (left - 2) z (ss ++ [sk]) (sat + n)

/-- Where bin `k` of a transform of size 2^`b` stands after the stages. -/
def binPlace : Nat → Nat → Nat → Nat
  | 0, _, _ => 0
  | fuel + 1, b, k =>
    if b = 0 then 0
    else if b = 1 then k % 2
    else k % 4 * 2 ^ (b - 2) + binPlace fuel (b - 2) (k / 4)

/-- The smallest shift that brings `m` to at most 32,767 (R220). -/
def outShift (m : Nat) : Nat := ((upTo 32).find? fun n => rndHalfUp (m : Int) n ≤ 32767).getD 0

/-- What a frame's transform gives: bins, exponent, stage shifts, output shift, limited values. -/
structure XfmOut where
  bins   : List Cpx
  exp    : Int
  shifts : List Nat
  sf     : Nat
  sat    : Nat
  deriving DecidableEq, Repr

/-- The transform of one frame (R218 to R221, R223): `x` in 24-bit scale. -/
def transform (ctrl : Word) (h : List Int) (x : List Cpx) (log2n sw first bins : Nat) : XfmOut :=
  let n := 2 ^ log2n
  let fixed := fget ctrl fXFM_CTRL_SCALING == 1
  let y := weighted h x n (2 ^ sw) sw
  let (z, ss, sat) := stages fixed (fget ctrl fXFM_CTRL_SCHED) 10 log2n y [] 0
  let za := z.toArray
  let b := (upTo bins).map fun k => za.getD (binPlace 10 log2n ((first + k) % n)) (0, 0)
  let sf := if fixed then fget ctrl fXFM_CTRL_OUT_SHIFT else outShift (peakOf b)
  let (o, n2) := limitAll (-32768) 32767 (b.map fun v => cshr v sf)
  ⟨o, ((sw + ss.foldl (· + ·) 0 + sf : Nat) : Int) - 8, ss, sf, sat + n2⟩

/-! ### Delivery (R207, R210, R224) -/

/-- The 32-byte spectrum preamble (Table 2-4). -/
def specPreamble (bins first : Nat) (exp : Int) (det merge pgstate log2n frames tend : Nat) : List Byte :=
  leBytes 8 (bins + first * 2 ^ 32)
    ++ leBytes 8 (ofSigned 8 exp + det * 2 ^ 8 + merge * 2 ^ 16 + pgstate * 2 ^ 20 + log2n * 2 ^ 24 + frames % 2 ^ 32 * 2 ^ 32)
    ++ leBytes 8 tend ++ leBytes 8 0

/-- A SPEC_CPX record of a frame (R224). -/
def Frm.record (f : Frm) : Prod :=
  { prod0 with
    typ := 0x10
    time := timeOf f.t
    fine := fineOf f.t
    flags := f.fl % 65536
    items := 1
    pre := specPreamble f.bins.length f.first f.exp 0 0 0 f.log2n 1 (timeOf f.tend)
      ++ f.bins.flatMap fun b => leBytes 2 (ofSigned 16 b.1) ++ leBytes 2 (ofSigned 16 b.2) }

/-- Does the unit of square `d` take frames or traces: it has a record, or it is the partner in a gang of such a unit (R161, R245)? -/
def State.takesFrames (s : State) (d : Nat) : Bool :=
  s.used d || (d % 2 == 1 && ((28 ≤ d && d < 32 && s.flag (rDET_CFG (d - 28)) fDET_CFG_PARTNER)
    || (32 ≤ d && d < 36 && s.flag (rDEN_CFG (d - 32)) fDEN_CFG_PARTNER)))

/-- A frame, or the news that it is lost, leaves square `sq` for the squares of its routes that `keep` admits. -/
def State.sendFrame (s : State) (sq : Nat) (keep : Nat → Bool) (f : Frm) : State :=
  (s.routesFrom sq).foldl (fun t rt =>
    (rt.dsts.filter keep).foldl (fun t d =>
      if isPort d then
        if f.lost then t else t.sendPort rt d { f.record with ctx := rt.ctx.getD 0 }
      else if t.takesFrames d then (t.onFrames fun _ => SMap.upd [] t.frames d (· ++ [f]))
      else t) t) s

/-- Is square `d` a mask unit? -/
def isMask (d : Nat) : Bool := 44 ≤ d && d < 48

/-- Does pipeline `n` lead a gang? -/
def State.xfmGang (s : State) (n : Nat) : Bool := s.flag (rXFM_CFG n) fXFM_CFG_GANG

/-- Frame `f` of pipeline `n` leaves: odd frames of a gang at the partner's square, but mask units of a gang are
fed at the lead's square (R210, R266). -/
def State.deliver (s : State) (n : Nat) (f : Frm) : State :=
  if s.xfmGang n && f.f % 2 = 1 then
    (s.sendFrame (xfmSquare (n + 1)) (fun d => !isMask d) f).sendFrame (xfmSquare n) isMask f
  else s.sendFrame (xfmSquare n) (fun _ => true) f

/-- `k` frames of pipeline `n` from frame `f` on are lost, each for the contexts fed by the square it leaves at (R207, R210). -/
def State.loseFrames (s : State) (n f k : Nat) : State :=
  let odd := if s.xfmGang n then (k + f % 2) / 2 else 0
  ((s.addSat (rXFM_STAT n) fXFM_STAT_LOST k).loseFrom (xfmSquare n) (k - odd)).loseFrom (xfmSquare (n + 1)) odd

/-- The active bank of pipeline `n`. -/
def State.xfmActive (s : State) (n : Nat) : Nat := s.fld (rXFM_TAB_STATUS n) fXFM_TAB_STATUS_ACTIVE

/-- The words of a bank. -/
def Xfm.bank (x : Xfm) (b : Nat) : List Int := if b = 0 then x.bankA else x.bankB

/-- A swap of pipeline `n` ends DONE: frames that begin at instant `t` or later use the new bank (R216, R217). -/
def State.xfmSwapEnd (s : State) (n t : Nat) : State :=
  let st := rXFM_TAB_STATUS n
  (((s.updXfm n fun x => { x with swap := none, bankAt := t }).setFld (rXFM_TAB_CTRL n) fXFM_TAB_CTRL_GO 0).setFlds st
    [(fXFM_TAB_STATUS_ACTIVE, 1 - s.xfmActive n), (fXFM_TAB_STATUS_SWAP_RESULT, 2), (fXFM_TAB_STATUS_SWAP_CAUSE, 0)]).addMod
    st fXFM_TAB_STATUS_SWAPS 1 |>.raise 266

/-- The weighted sums of a frame with first instant `t` start: the commit point of a swap that serves it (R217). -/
def State.xfmSwapSee (s : State) (n t : Nat) : State :=
  match (s.xfmU n).swap with
  | some (some at_) =>
    if at_ ≤ t then (s.setFld (rXFM_TAB_AT n) fXFM_TAB_AT_TIME (timeOf t)).xfmSwapEnd n t else s
  | _ => s

/-- XFM_CTRL as a frame with first instant `t` uses it (R228). -/
def State.xfmCtrl (s : State) (n t : Nat) : Word :=
  (((s.xfmU n).ctrls.filter fun e => e.1 ≤ t).getLast?.map (·.2)).getD (s.actv (rXFM_CTRL n))

def State.xfmLog2n (s : State) (n : Nat) : Nat := s.fld (rXFM_CFG n) fXFM_CFG_LOG2N
def State.xfmPcode (s : State) (n : Nat) : Nat := s.fld (rXFM_CFG n) fXFM_CFG_PCODE
def State.xfmHop (s : State) (n : Nat) : Nat := 2 ^ (s.xfmLog2n n - s.fld (rXFM_CFG n) fXFM_CFG_OVL)

/-- The next frame of pipeline `n`, which begins at `t`, is done with: the samples before the frame after it are let go. -/
def State.xfmNext (s : State) (n t : Nat) : State :=
  s.updXfm n fun x => { x with f := x.f + 1, last := some t, buf := x.buf.drop (s.xfmHop n) }

/-- The flags of a frame over `span`: the quality flags of its samples, and the generator states of every tick from the first sample to the
last (R207, R243). -/
def spanFlags (span : List Smp) : Nat :=
  let pg := match span with
    | x :: l => l.foldl (fun a (y : Smp) => a ||| pgAll y.fl) (pgOwn x.fl)
    | [] => 0
  span.foldl (fun a (y : Smp) => a ||| y.fl % 65536) pg

/-- A component of an input sample in 24-bit scale (R218). -/
def Smp.cpx24 (x : Smp) : Cpx := let sc : Int := if x.fmt = 2 then 1 else 256; (x.i * sc, x.q * sc)

/-- A frame is transformed and delivered with the coefficients `h`. -/
def State.xfmRun (s : State) (n : Nat) (ctrl : Word) (h : List Int) (span : List Smp) (f0 : Frm) : State :=
  let log2n := s.xfmLog2n n
  let o := transform ctrl h (span.map Smp.cpx24) log2n (s.xfmPcode n) f0.first
    (s.fld (rXFM_BINS n) fXFM_BINS_BINS)
  let w := h.foldl (· + ·) 0
  let (k, s1) := s.fresh
  let s2 := (s1.addMod (rXFM_COUNT n) fXFM_COUNT_FRAMES 1).setFlds (rXFM_WINFO n)
    [(fXFM_WINFO_ENBW, enbw h (2 ^ log2n) (Config.roundUp k) (Config.enbwOpen k)), (fXFM_WINFO_WSUM, ofSigned 38 w)]
  let s3 := s2.setFlds (rXFM_EXP n)
    [(fXFM_EXP_SHIFTS, (o.shifts.zipIdx.foldl (fun a e => a + e.1 * 4 ^ e.2) 0)), (fXFM_EXP_SF, o.sf),
      (fXFM_EXP_EXP, ofSigned 8 o.exp)]
  let s4 := if o.sat = 0 then s3 else (s3.addSat (rXFM_STAT n) fXFM_STAT_SAT o.sat).raiseLim 1000 (256 + n)
  s4.deliver n { f0 with
    exp := o.exp
    bins := o.bins
    wsum := w
    fl := if o.sat = 0 then f0.fl else f0.fl ||| flClipped }

/-- The last input sample of the next frame of pipeline `n` has arrived: the frame is transformed and delivered, or counted
lost (R205 to R224), as is any frame while HO_GAP is 1 (R49). A partner's frames are its lead's. -/
def State.xfmFrame (s : State) (n : Nat) : State :=
  let x := s.xfmU n
  let log2n := s.xfmLog2n n
  let pn := 2 ^ (log2n + s.xfmPcode n)
  if !s.flag (rXFM_CFG n) fXFM_CFG_USED || x.buf.length < pn then s
  else
    let span := x.buf.take pn
    let t := ((span.head?).map (·.t)).getD 0
    let f0 : Frm := ⟨x.era, x.f, t, ((span.getLast?).map (·.t)).getD 0, false, 0, [],
      s.fld (rXFM_BINS n) fXFM_BINS_FIRST, log2n, 0, spanFlags span, none⟩
    let s1 := s.xfmNext n t
    if s.hoGap || span.any fun y => !y.ok then (s1.loseFrames n x.f 1).deliver n { f0 with lost := true }
    else
      let s2 := s1.xfmSwapSee n t
      let ctrl := s.xfmCtrl n t
      let tab := s.xfmPcode n != 0 || fget ctrl fXFM_CTRL_WSEL == 4
      let bank := (s2.xfmU n).bank (if (s2.xfmU n).bankAt ≤ t then s2.xfmActive n else 1 - s2.xfmActive n)
      if tab && 2 * bank.length != pn then
        ((s2.loseFrames n x.f 1).raiseLim 1000 (260 + n)).deliver n { f0 with lost := true }
      else s2.xfmRun n ctrl (frameCoef (if tab then 4 else fget ctrl fXFM_CTRL_WSEL) bank (2 ^ log2n)) span f0

/-- Pipeline `n` takes samples from its street: complex ones only (R204), the first being the first whose instant lies at or after the
boundary of the anchor (R206). -/
def State.xfmTake (s : State) (n : Nat) (xs : List Smp) : State :=
  if s.flag (rXFM_CFG n) fXFM_CFG_USED then
    s.updXfm n fun x =>
      let l := xs.filter fun (y : Smp) => y.fmt != 0
      { x with buf := x.buf ++ if x.f = 0 && x.buf.isEmpty then l.dropWhile fun (y : Smp) => y.t < x.org else l }
  else s

/-! ### Anchors (R206, R217) -/

/-- A pending swap of pipeline `n` is cancelled. -/
def State.xfmCancel (s : State) (n cause : Nat) : State :=
  match (s.xfmU n).swap with
  | some _ =>
    (((s.updXfm n fun x => { x with swap := none }).setFld (rXFM_TAB_CTRL n) fXFM_TAB_CTRL_GO 0).setFlds
      (rXFM_TAB_STATUS n) [(fXFM_TAB_STATUS_SWAP_RESULT, 3), (fXFM_TAB_STATUS_SWAP_CAUSE, cause)]).raise 267
  | none => s

/-- The frames that the samples received so far have started. -/
def State.xfmStarted (s : State) (n : Nat) : Nat :=
  if s.flag (rXFM_CFG n) fXFM_CFG_USED then ceilDiv (s.xfmU n).buf.length (s.xfmHop n) else 0

/-- Pipeline `n` takes a new anchor: the frames in progress are lost, and a pending swap is cancelled (2 PLAN, 3
RESTART, 4 RELOCK). -/
def State.xfmAnchor (s : State) (n cause : Nat) : State :=
  ((s.loseFrames n (s.xfmU n).f (s.xfmStarted n)).xfmCancel n cause).updXfm n fun x =>
    { x with era := x.era + 1, org := s.now16, f := 0, last := none, bankAt := 0, buf := [], ctrls := [] }

/-! ### Tables (R213 to R217) -/

/-- A bank of pipeline `n` takes words; none empties it. -/
def State.tabFill (s : State) (n b : Nat) (ws : Option (List Nat)) : State :=
  let l := (ws.getD []).map (toSigned 18)
  let crc := (ws.map fun l => (crc32c (l.flatMap (leBytes 4)))).getD 0
  let s1 := s.updXfm n fun x => if b = 0 then { x with bankA := l } else { x with bankB := l }
  if b = 0 then
    (s1.setFld (rXFM_TAB_LEN n) fXFM_TAB_LEN_LEN_A l.length).setFld (rXFM_TAB_CRC n) fXFM_TAB_CRC_CRC_A crc
  else (s1.setFld (rXFM_TAB_LEN n) fXFM_TAB_LEN_LEN_B l.length).setFld (rXFM_TAB_CRC n) fXFM_TAB_CRC_CRC_B crc

/-- A write of 1 to LOAD (R215). -/
def State.tabLoad (s : State) (n : Nat) : State :=
  let st := rXFM_TAB_STATUS n
  let len := s.fld (rXFM_TAB_CTRL n) fXFM_TAB_CTRL_LEN
  let refuse := fun why => (s.setFlds st [(fXFM_TAB_STATUS_LOAD_RESULT, 4), (fXFM_TAB_STATUS_LOAD_REASON, why)]).raise 265
  if (s.xfmU n).load.isSome || (s.xfmU n).swap.isSome then refuse 4
  else if !(32 ≤ len && len ≤ 524288 && len == 2 ^ len.log2) then refuse 2
  else ((s.updXfm n fun x => { x with load := some len }).setFld (rXFM_TAB_CTRL n) fXFM_TAB_CTRL_LOAD 1).setFlds st
    [(fXFM_TAB_STATUS_LOAD_RESULT, 1), (fXFM_TAB_STATUS_LOAD_REASON, 0)]

/-- A load ends with the words read from the host, or with a failed read (R215). -/
def State.tabLoadEnd (s : State) (n : Nat) (data : Option (List Nat)) : State :=
  match (s.xfmU n).load with
  | none => s
  | some len =>
    let st := rXFM_TAB_STATUS n
    let b := 1 - s.xfmActive n
    let s1 := (s.updXfm n fun x => { x with load := none }).setFld (rXFM_TAB_CTRL n) fXFM_TAB_CTRL_LOAD 0
    let fill := fun (t : State) ws => let t1 := t.tabFill n b ws; if s.xfmGang n then t1.tabFill (n + 1) b ws else t1
    let fail := fun why => ((fill s1 none).setFlds st
      [(fXFM_TAB_STATUS_LOAD_RESULT, 3), (fXFM_TAB_STATUS_LOAD_REASON, why)]).raise 265
    match data with
    | none => fail 1
    | some ws =>
      let l := ((ws ++ List.replicate (len - ws.length) 0).take len).map (· % 2 ^ 32)
      if l.any fun w => 2 ^ 18 ≤ w then fail 3
      else ((fill s1 (some l)).setFlds st [(fXFM_TAB_STATUS_LOAD_RESULT, 2), (fXFM_TAB_STATUS_LOAD_REASON, 0)]).raise 264

/-- A write of 1 to GO (R216, R217). -/
def State.tabSwapGo (s : State) (n : Nat) : State :=
  let st := rXFM_TAB_STATUS n
  let x := s.xfmU n
  let refuse := fun why => s.setFlds st [(fXFM_TAB_STATUS_SWAP_RESULT, 4), (fXFM_TAB_STATUS_SWAP_CAUSE, why)]
  if x.swap.isSome || x.load.isSome then refuse 5
  else if (x.bank (1 - s.xfmActive n)).isEmpty then refuse 6
  else if !s.flag (rXFM_CFG n) fXFM_CFG_USED then s.xfmSwapEnd n 0
  else
    let at_ := swapAt s (s.flag (rXFM_TAB_CTRL n) fXFM_TAB_CTRL_SYNC) (s.rd (rXFM_TAB_TIME n)).toNat
    let newest := ((x.buf[(x.buf.length - 1) / s.xfmHop n * s.xfmHop n]?).map (·.t)).or x.last
    let late : Bool := match at_, newest with
      | some t, some u => t < u
      | _, _ => false
    let s1 := ((s.updXfm n fun x => { x with swap := some (if late then newest.map (· + 1) else at_) }).setFld
      (rXFM_TAB_CTRL n) fXFM_TAB_CTRL_GO 1).setFlds st
      [(fXFM_TAB_STATUS_SWAP_RESULT, 1), (fXFM_TAB_STATUS_SWAP_CAUSE, 0)]
    if late then (s1.setFld (rXFM_TAB_CTRL n) fXFM_TAB_CTRL_LATE 1).raise 268 else s1

/-- A write to XFM_TAB_CTRL[n]. -/
def State.wrTabCtrl (n : Nat) (v : Word) (s : State) : State :=
  let s1 := s.wrCodes (rXFM_TAB_CTRL n) v [fXFM_TAB_CTRL_LOAD, fXFM_TAB_CTRL_GO, fXFM_TAB_CTRL_CANCEL]
  let s2 := if fget v fXFM_TAB_CTRL_CANCEL = 1 then s1.xfmCancel n 1 else s1
  let s3 := if fget v fXFM_TAB_CTRL_LOAD = 1 then s2.tabLoad n else s2
  if fget v fXFM_TAB_CTRL_GO = 1 then s3.tabSwapGo n else s3

/-- The weighted sums of the first frame that uses the new bank start (R217): the first frame that begins at or after the swap instant, once its
first sample is there. -/
def State.tabSwapCommit (s : State) (n : Nat) : State :=
  match (s.xfmU n).swap with
  | some (some at_) =>
    let x := s.xfmU n
    let starts := (upTo (s.xfmStarted n)).filterMap fun i => (x.buf[i * s.xfmHop n]?).map (·.t)
    match starts.find? fun t => at_ ≤ t with
    | some t => (s.setFld (rXFM_TAB_AT n) fXFM_TAB_AT_TIME (timeOf t)).xfmSwapEnd n t
    | none => s
  | _ => s

/-! ### Controls and plan records (R226 to R228) -/

/-- A write to XFM_CTRL[n] (R228). -/
def State.wrXfmCtrl (n : Nat) (v : Word) (s : State) : State :=
  let wsel := fget v fXFM_CTRL_WSEL
  let sched := fget v fXFM_CTRL_SCHED
  if 5 ≤ wsel || (upTo 9).any (fun k => sched / 4 ^ k % 4 == 3) || (s.xfmPcode n != 0 && wsel != 4) then
    s.addSat (rXFM_COUNT n) fXFM_COUNT_WR_DISC 1
  else s.wrCodes (rXFM_CTRL n) v []

/-- The parameter commit: new control values for frames that begin at or after it, and instants for swaps that wait
for it. -/
def State.xfmParamCommit (s : State) : State :=
  (upTo 4).foldl (fun t n =>
    let old := t.actv (rXFM_CTRL n)
    let t1 := t.commitReg (rXFM_CTRL n)
    t1.updXfm n fun x =>
      { x with
        ctrls := if t1.actv (rXFM_CTRL n) = old then x.ctrls
          else (if x.ctrls.isEmpty then [(0, old)] else x.ctrls) ++ [(tick16 s.time, t1.actv (rXFM_CTRL n))]
        swap := match x.swap with
          | some none => some (some (tick16 s.time))
          | w => w }) s

/-- The squares whose records a store port replays under a plan: those of the routes that carry a context with a REPLAY destination at the port
(R341, Table 15-1). -/
def PlanImg.replayed (p : PlanImg) (port : Nat) : List Nat :=
  (p.ctxs.filter fun e => (upTo 4).any fun j => entryDestType e j == 5 && entryDestIndex e j == port - 70).flatMap fun e =>
    (p.routes.filter fun r => r.ctx == some (entryFld e 0 ⟨0, 12⟩)).map (·.src)

/-- The format of the samples that leave a square under a plan (0 rs16, 1 cs16, 2 cs24): a converter's are real, a WB unit's cs16, an NB unit's
of its format; an acquisition unit's and a codec unit's are those of its source; a store port's those of the squares whose records it
replays, and cs16 where no context of the plan names the port for replay (DESIGN CHOICE, assumption 32). -/
def PlanImg.fmtFrom (p : PlanImg) : Nat → Nat → Nat
  | 0, _ => 1
  | n + 1, sq =>
    if sq < 4 then 0
    else if sq < 8 then 1
    else if sq < 24 then p.word sq 0 / 16 % 2 + 1
    else if 70 ≤ sq then ((p.replayed sq).head?.map fun c => PlanImg.fmtFrom p n c).getD 1
    else ((p.srcOf sq).map fun c => PlanImg.fmtFrom p n c).getD 1

/-- The format of the samples that arrive at a square under a plan. -/
def PlanImg.fmtInto (p : PlanImg) (sq : Nat) : Nat := ((p.srcOf sq).map fun c => p.fmtFrom 8 c).getD 1

/-- Bytes per complex sample on the route that arrives at a square (R209). -/
def PlanImg.sampleBytes (p : PlanImg) (sq : Nat) : Nat := if p.fmtInto sq = 2 then 6 else 4

/-- RATE of the route that arrives at a square. -/
def PlanImg.inRate (p : PlanImg) (sq : Nat) : Nat := ((p.into sq).map (·.rate)).headD 0

/-- Is the record of a transform pipeline valid (R227)? -/
def PlanImg.xfmValid (p : PlanImg) (u : UnitRec) : Bool :=
  let sq := u.square
  let w1 := p.word sq 0
  let w2 := p.word sq 1
  let log2n := w1 % 32
  let pcode := w1 / 32 % 4
  let ovl := w1 / 256 % 4
  let gang := w1 / 1024 % 2
  let first := w2 % 2 ^ 18
  let bins := w2 / 2 ^ 32 % 2 ^ 19
  let src := (p.srcOf sq).getD 0
  let bytes := p.sampleBytes sq
  u.body.length == 2 && w1 / 2048 == 0 && w1 / 128 % 2 == 0 && w2 / 2 ^ 18 % 2 ^ 14 == 0 && w2 / 2 ^ 51 == 0
    && 6 ≤ log2n && log2n ≤ 18 && log2n + pcode ≤ 20 && first < 2 ^ log2n
    && bins % 16 == 0 && 16 ≤ bins && bins ≤ 2 ^ log2n
    && (p.into sq).length == 1 && ((4 ≤ src && src < 24) || isPort src)
    && p.inRate sq * 2 ^ ovl ≤ (if gang = 1 then 32 else 16) * bytes * 65536
    && (gang == 0 || (sq % 2 == 0 && (p.unit? (sq + 1)).isNone && (p.into (sq + 1)).isEmpty
          && !(p.from_ (sq + 1)).isEmpty))
    && (p.from_ sq ++ if gang = 1 then p.from_ (sq + 1) else []).all fun r =>
         4 * bins * p.inRate sq ≤ r.rate * bytes * 2 ^ (log2n - ovl) * (if gang = 1 then 2 else 1)

/-- XFM_CFG and XFM_BINS of every pipeline under a plan, or under none. -/
def State.xfmPlan (s : State) (p : Option PlanImg) : State :=
  (upTo 4).foldl (fun t n =>
    let sq := xfmSquare n
    match p with
    | none => (t.wr (rXFM_CFG n) 0).wr (rXFM_BINS n) 0
    | some p =>
      if (p.unit? sq).isSome then
        let w := p.word sq 0
        (t.wr (rXFM_CFG n) (fsets 0 [(fXFM_CFG_USED, 1), (fXFM_CFG_GANG, w / 1024), (fXFM_CFG_SRC_CS24, b2n (p.sampleBytes sq == 6)),
          (fXFM_CFG_SRC, (p.srcOf sq).getD 0), (fXFM_CFG_STAGES, (w % 32 + 1) / 2), (fXFM_CFG_OVL, w / 256),
          (fXFM_CFG_PCODE, w / 32), (fXFM_CFG_LOG2N, w)])).wr (rXFM_BINS n)
            (fsets 0 [(fXFM_BINS_BINS, p.word sq 1 / 2 ^ 32), (fXFM_BINS_FIRST, p.word sq 1)])
      else (t.wr (rXFM_CFG n) (fset 0 fXFM_CFG_PARTNER (b2n (n % 2 == 1 && p.word (sq - 1) 0 / 1024 % 2 == 1)))).wr
        (rXFM_BINS n) 0) s

end Sys2Proof.Machine
end

