-- ==== Sys2Proof/Machine/Det.lean ====
section
/-! DEFINITION. Detector units and density accumulators (R232 to R255). -/

namespace Sys2Proof.Machine

/-! ### Defaults -/

def intv0 : Intv := ⟨false, 0, 0, 0, 0, 0, [], false, 0, 0⟩
def detAcc0 : DetAcc := ⟨0, 0, 0, 0, [], []⟩
def det0 : Det := ⟨intv0, detAcc0, detAcc0, []⟩
def den0 : Den := ⟨intv0, [], [], 0, 0, 0, 0, false, []⟩

/-- Detector unit `n`. -/
def State.detU (s : State) (n : Nat) : Det := SMap.get det0 s.det n
/-- Detector unit `n` changed. -/
def State.updDet (s : State) (n : Nat) (f : Det → Det) : State := { s with det := SMap.upd det0 s.det n f }
/-- Density accumulator `n`. -/
def State.denU (s : State) (n : Nat) : Den := SMap.get den0 s.den n
/-- Density accumulator `n` changed. -/
def State.updDen (s : State) (n : Nat) (f : Den → Den) : State := { s with den := SMap.upd den0 s.den n f }

/-- The squares of the units. -/
abbrev detSquare (n : Nat) : Nat := 28 + n
abbrev denSquare (n : Nat) : Nat := 32 + n

/-! ### Flatness correction (R235) -/

/-- A frequency in 2^-64 of the converter's sample rate, folded into its first zone. -/
def foldFreq (f : Int) : Nat :=
  let r := (f % 2 ^ 64).toNat
  if 2 ^ 63 < r then 2 ^ 64 - r else r

/-- The offset of bin `k` of a transform of size 2^`b` from the centre of a stream of rate `fs` (R223). -/
def binOffset (k b fs : Nat) : Int :=
  let k := k % 2 ^ b
  if 2 * k < 2 ^ b then (k * fs / 2 ^ b : Nat) else ((k * fs / 2 ^ b : Nat) : Int) - fs

/-- The frequency at the converter of offset `off` in the stream of WB unit `w` (R181, R223). -/
def State.wbFreq (s : State) (w : Nat) (off : Int) : Nat :=
  foldFreq (if fget (s.actv (rDDC_NCO_CTRL w)) fDDC_NCO_CTRL_INVERT = 1 then 2 ^ 62 - off else 2 ^ 62 + off)

/-- The input and the frequency, in 2^-64 of the converter's sample rate, at which the component of bin `k` of pipeline
`n` was sampled, where the path traces back to a converter. -/
def State.binFreq (s : State) (n k b : Nat) : Option (Nat × Nat) :=
  let lead := if s.flag (rXFM_CFG n) fXFM_CFG_PARTNER then n - 1 else n
  let src := s.fld (rXFM_CFG lead) fXFM_CFG_SRC
  if src < 4 || 24 ≤ src then none
  else if src < 8 then some (src - 4, s.wbFreq (src - 4) (binOffset k b (2 ^ 63)))
  else
    let u := src - 4
    let d := s.ddcStages u
    let from_ := s.fld (rDDC_CFG u) fDDC_CFG_SRC
    let ftw := s.afld (rDDC_NCO_FTW u) fDDC_NCO_FTW_FTW
    if from_ < 4 then some (from_, foldFreq (ftw * 2 ^ 16 + binOffset k b (2 ^ (64 - d))))
    else
      let o := (ftw * 2 ^ 15 + binOffset k b (2 ^ (63 - d))) % 2 ^ 63
      some (from_ - 4, s.wbFreq (from_ - 4) (if 2 ^ 62 ≤ o then o - 2 ^ 63 else o))

/-- F of input `n` at a frequency, in 1/256 dB, as a fraction: linear between the nearest valid points. -/
def State.flatAt (s : State) (n f : Nat) : Int × Nat :=
  let step := if s.paired n then 2 ^ 57 else 2 ^ 58
  let pts := (upTo 64).filter fun k => s.flag (rCAL_FLAT n k) fCAL_FLAT_VALID
  let v := fun k => s.fldS (rCAL_FLAT n k) fCAL_FLAT_VALUE
  let lo := (pts.filter fun k => k * step ≤ f).getLast?
  let hi := pts.find? fun k => f < k * step
  match lo, hi with
  | none, none => (0, 1)
  | some a, none => (v a, 1)
  | none, some b => (v b, 1)
  | some a, some b => (v a * ((b * step - f : Nat) : Int) + v b * ((f - a * step : Nat) : Int), (b - a) * step)

/-- F for every delivered bin of pipeline `n`; nothing where the path does not trace to a converter. -/
def State.flatTable (s : State) (n : Nat) : List (Int × Nat) :=
  let lead := if s.flag (rXFM_CFG n) fXFM_CFG_PARTNER then n - 1 else n
  let b := s.xfmLog2n lead
  let first := s.fld (rXFM_BINS lead) fXFM_BINS_FIRST
  (upTo (s.fld (rXFM_BINS lead) fXFM_BINS_BINS)).filterMap fun i =>
    (s.binFreq lead (first + i) b).map fun x => s.flatAt x.1 x.2

/-! ### Bin powers (R234, R236) -/

/-- p_k of one bin. -/
def binPower (exp : Int) (wsum : Int) (g : Int × Nat) (other : Nat) (b : Cpx) : Pw :=
  let e := (b.1 * b.1 + b.2 * b.2).toNat
  let w := wsum.natAbs ^ 2
  if w = 0 then ⟨other % 2 ^ 40, 0⟩
  else
    let (m, x) := flatGain g
    pwRound (e * 16 * m) w (2 * exp + x)

/-- The powers of the delivered bins of a frame. -/
def framePowers (f : Frm) (flat : List (Int × Nat)) (other : Nat) : List Pw :=
  let fa := flat.toArray
  f.bins.zipIdx.map fun b => binPower f.exp f.wsum (fa.getD b.2 (0, 1)) other b.1

/-- Merges runs of `m` bins. -/
def mergeBins (max_ : Bool) (m : Nat) : Nat → List Pw → List Pw
  | 0, _ => []
  | n + 1, l =>
    if l.isEmpty then []
    else
      let run := l.take m
      (run.foldl (fun a p => if max_ then a.max p else a.add p) ⟨0, 0⟩) :: mergeBins max_ m n (l.drop m)

/-! ### Intervals (R239, R240) -/

/-- The CTRL, INT and ALIGN values that hold for an instant. -/
def Intv.cfgAt (iv : Intv) (now : Word × Word × Word) (t : Nat) : Word × Word × Word :=
  (((iv.cfgs.filter fun c => c.1 ≤ t).getLast?).map (·.2)).getD now

/-- The boundary of R240 that lies between an earlier instant and `t`, if any. -/
def Intv.cutAt (iv : Intv) (t : Nat) : Option Nat :=
  ((iv.cfgs.filter fun c => c.1 != 0 && c.1 ≤ t).getLast?).map (·.1)

/-- The index of the interval that holds frame `f` at instant `t`. -/
def intvIndex (time : Bool) (val align base f t : Nat) : Int :=
  if time then ((timeOf t : Int) - align) / (max 1 val : Nat) else ((f : Int) - base) / (max 1 val : Nat)

/-- A parameter commit that changes a unit's values: from its boundary they hold. -/
def Intv.commit (iv : Intv) (t : Nat) (old new : Word × Word × Word) : Intv :=
  if old = new then iv else { iv with cfgs := (if iv.cfgs.isEmpty then [(0, old)] else iv.cfgs) ++ [(t, new)] }

/-- The values before the boundary a unit has now passed are let go. -/
def Intv.passed (iv : Intv) (t : Nat) : Intv :=
  { iv with cfgs := match iv.cutAt t with
      | some c => (0, (iv.cfgAt (0, 0, 0) t)) :: iv.cfgs.filter fun x => c < x.1
      | none => iv.cfgs }

/-! ### Detector units -/

/-- CTRL, INT and ALIGN of detector unit `n` in force. -/
def State.detNow (s : State) (n : Nat) : Word × Word × Word :=
  (s.actv (rDET_CTRL n), s.actv (rDET_INT n), s.actv (rDET_ALIGN n))

/-- The unit whose registers govern unit `n` (R245). -/
def State.detLead (s : State) (n : Nat) : Nat := if s.flag (rDET_CFG n) fDET_CFG_PARTNER then n - 1 else n

/-- Takes the powers of a frame into an accumulation (R237). -/
def DetAcc.take (a : DetAcc) (mode : Nat) (f : Frm) (q : List Pw) (up : Bool) : DetAcc :=
  let first := a.n = 0
  let comb := fun (g : Pw → Pw → Pw) => if first then q else a.pw.zipWith g q
  let lg := q.map fun p => p.log2Fix up
  { n := a.n + 1
    t := if first then f.t else a.t
    tend := f.tend
    f := f.f
    pw := match mode with
      | 0 => q
      | 1 => comb Pw.max
      | 2 => comb Pw.min
      | 4 => []
      | _ => comb Pw.add
    lg := if mode != 4 then [] else if first then lg else a.lg.zipWith (· + ·) lg }

/-- The partner's accumulation joins the lead's (R245). -/
def DetAcc.join (a b : DetAcc) (mode : Nat) : DetAcc :=
  if b.n = 0 then a
  else if a.n = 0 then b
  else
    { n := a.n + b.n
      t := min a.t b.t
      tend := max a.tend b.tend
      f := max a.f b.f
      pw := match mode with
        | 0 => if a.f < b.f then b.pw else a.pw
        | 1 => a.pw.zipWith Pw.max b.pw
        | 2 => a.pw.zipWith Pw.min b.pw
        | 4 => []
        | _ => a.pw.zipWith Pw.add b.pw
      lg := a.lg.zipWith (· + ·) b.lg }

/-- The binary32 words of an accumulation (R237, R238). -/
def DetAcc.words (a : DetAcc) (mode : Nat) : List Nat :=
  match mode with
  | 4 => a.lg.map fun v =>
      let (m, e) := fxExp2 v (a.n * 2 ^ 24)
      let e := e - fxBits
      if 0 ≤ e then toBin32 (m * 2 ^ e.toNat) 1 else toBin32 m (2 ^ (-e).toNat)
  | 3 => a.pw.map fun p => let (x, y) := p.frac; toBin32 x (y * a.n)
  | 5 => a.pw.map fun p => let (x, y) := p.frac; rootBin32 x (y * a.n)
  | _ => a.pw.map fun p => let (x, y) := p.frac; toBin32 x y

/-- round(log10 2 x 2^96). -/
abbrev fxLog10Two : Nat := 23850053418134191015272426710

/-- The SPEC_DB values of an accumulation and whether one is limited at the top (R238). -/
def DetAcc.decibels (a : DetAcc) (mode : Nat) : List Int × Bool :=
  let raw : List Int := match mode with
    | 4 => a.lg.map fun v =>
        let den : Int := a.n * 2 ^ 24 * 2 ^ fxBits
        (2 * 2560 * v * fxLog10Two + den) / (2 * den)
    | _ => a.pw.map fun (p : Pw) =>
        let (x, y) := p.frac
        if x = 0 then -32768 else levelRound x (if mode = 3 || mode = 5 then y * a.n else y)
  (raw.map (satS 16), raw.any fun v => 32767 < v)

/-- The pipeline whose registers govern pipeline `n`: the lead of its gang (R210). -/
def State.xfmLead (s : State) (n : Nat) : Nat := if s.flag (rXFM_CFG n) fXFM_CFG_PARTNER then n - 1 else n

/-- The pipeline that feeds detector unit `n`, or the lead of its gang. -/
def State.detPipe (s : State) (n : Nat) : Nat := s.xfmLead (s.fld (rDET_CFG n) fDET_CFG_SRC - 24)

/-- The record of one state of an interval, and the trace a density accumulator takes (R238, R244, R248). -/
def State.detRecord (s : State) (n mode : Nat) (a : DetAcc) (on gap : Bool) (iv : Intv) : Prod × Frm :=
  let cfg := rDET_CFG n
  let pg := s.fld cfg fDET_CFG_SW_PG
  let sw := s.fld cfg fDET_CFG_SWITCHED
  let lead := s.detPipe n
  let first := s.fld (rXFM_BINS lead) fXFM_BINS_FIRST
  let log2n := s.xfmLog2n lead
  let ws := a.words mode
  let (db, top) := a.decibels mode
  let out := s.flag cfg fDET_CFG_OUT
  let fl := (iv.fl % 65536) ||| (if gap then flGap else 0) ||| (if out && top then flClipped else 0)
  let pre := specPreamble ws.length first 0 (mode + pg * 16 + sw * 64) (s.fld cfg fDET_CFG_MERGE)
    (if on then 2 ^ pg else 0) log2n a.n (timeOf a.tend)
  ({ prod0 with
      typ := if out then 0x12 else 0x11
      time := timeOf a.t
      fine := fineOf a.t
      flags := fl
      items := a.n
      pre := pre ++ if out then db.flatMap fun v => leBytes 2 (ofSigned 16 v) else ws.flatMap (leBytes 4) },
    ⟨iv.era, iv.sent, a.t, a.tend, false, 0, [], first, log2n, 0, fl, some (mode == 5, ws)⟩)

/-- A record of detector unit `n` leaves: to store ports as a record, to density accumulators as a trace; while HO_GAP is 1 it is invalid
and lost (R49). -/
def State.detSend (s : State) (n mode : Nat) (a : DetAcc) (on gap : Bool) : State :=
  if a.n = 0 then s
  else if s.hoGap then s.loseDirect (detSquare n) a.n
  else
    let (r, tr) := s.detRecord n mode a on gap (s.detU n).iv
    let s1 := (s.routesFrom (detSquare n)).foldl (fun t rt =>
      rt.dsts.foldl (fun t d =>
        if isPort d then t.sendPort rt d { r with ctx := rt.ctx.getD 0 }
        else if t.takesFrames d then (t.onFrames fun _ => SMap.upd [] t.frames d (· ++ [tr]))
        else t) t) s
    s1.updDet n fun d => { d with iv := { d.iv with sent := d.iv.sent + 1 } }

/-- The interval of detector unit `n` closes: its records are formed, OFF before ON (R239, R242 to R245). -/
def State.detClose (s : State) (n mode : Nat) : State :=
  let d := s.detU n
  let p := if s.flag (rDET_CFG n) fDET_CFG_GANG then s.detU (n + 1) else det0
  let off := d.off.join p.off mode
  let on := d.on.join p.on mode
  let gap := d.iv.lost != 0
  let clear := fun (x : Det) => { x with off := detAcc0, on := detAcc0 }
  let s1 := ((s.detSend n mode off false gap).detSend n mode on true gap).updDet n fun x =>
    { clear x with iv := { x.iv with on := false, lost := 0, fl := 0, busy := x.iv.busy || off.n + on.n != 0 } }
  let s2 := if s.flag (rDET_CFG n) fDET_CFG_GANG then s1.updDet (n + 1) clear else s1
  if off.n + on.n = 0 then s2.addSat (rDET_COUNT n) fDET_COUNT_EMPTY 1 else s2

/-- An interval end: the interval closes, or continues as interval `j` while the last readout is under way (R242). -/
def State.detEnd (s : State) (n mode : Nat) (j : Int) : State :=
  if (s.detU n).iv.busy then
    ((s.addSat (rDET_COUNT n) fDET_COUNT_EXTENDED 1).raise 286).updDet n fun d => { d with iv := { d.iv with idx := j } }
  else s.detClose n mode

/-- A new interval begins with index `j`: the correction is computed (R235). -/
def State.detBegin (s : State) (n : Nat) (ctrl : Word) (j : Int) (start : Nat) : State :=
  let on := fget ctrl fDET_CTRL_FLAT == 1 && s.flag (rDET_FLAT n) fDET_FLAT_TRACED
  let s1 := if on then s.addMod (rDET_FLAT n) fDET_FLAT_UPDATES 1 else s
  s1.updDet n fun d =>
    { d with
      iv := { d.iv with on := true, idx := j, start := start, lost := 0, fl := 0 }
      flat := if on then s.flatTable (s.detPipe n) else [] }

/-- The state of a frame for switched accumulation, from the state bits of its samples (R243): some true ON, some
false OFF, none discarded. -/
def switchState (fl pg : Nat) : Option Bool :=
  let on := fl / 2 ^ (16 + pg) % 2 == 1
  let off := fl / 2 ^ (20 + pg) % 2 == 1
  let tr := fl / 2 ^ (24 + pg) % 2 == 1
  if tr then none else if on && !off then some true else if off && !on then some false else none

/-- A frame is accumulated by unit `n`, whose lead is `m` (R234 to R237, R243). -/
def State.detAccum (s : State) (m n : Nat) (ctrl : Word) (f : Frm) : State :=
  let (k, s1) := s.fresh
  let mode := fget ctrl fDET_CTRL_MODE
  let bins := framePowers f (s.detU m).flat (Config.powerOpen k)
  let q := mergeBins (fget ctrl fDET_CTRL_MERGE_FN == 1) (2 ^ s.fld (rDET_CFG m) fDET_CFG_MERGE) bins.length bins
  let up := Config.roundUp k
  if s.flag (rDET_CFG m) fDET_CFG_SWITCHED then
    match switchState f.fl (s.fld (rDET_CFG m) fDET_CFG_SW_PG) with
    | some true => s1.updDet n fun d => { d with on := d.on.take mode f q up }
    | some false => s1.updDet n fun d => { d with off := d.off.take mode f q up }
    | none => s1.addSat (rDET_STAT m) fDET_STAT_SW_DISCARD 1
  else s1.updDet n fun d => { d with off := d.off.take mode f q up }

/-- The intervals of lead `m` come to frame `f`: the boundary of a parameter commit closes the running interval, and so does a new anchor in
COUNT mode, whose intervals count from it (R239, R240). -/
def State.detCut (s : State) (m : Nat) (f : Frm) : State :=
  let iv := (s.detU m).iv
  let cut := (iv.cutAt f.t).isSome
  let ctrl := (iv.cfgAt (s.detNow m) 0).1
  let anew := f.era != iv.era && fget ctrl fDET_CTRL_INT_MODE == 0
  let s1 := if (cut || anew) && iv.on then s.detClose m (fget ctrl fDET_CTRL_MODE) else s
  s1.updDet m fun d =>
    { d with iv := { d.iv.passed f.t with base := if cut then f.f else if f.era = iv.era then d.iv.base else 0, era := f.era } }

/-- The first frame of a later interval `j` ends the running one; the intervals skipped are empty. -/
def State.detRoll (s : State) (m mode : Nat) (j : Int) : State :=
  let iv := (s.detU m).iv
  if iv.on && iv.idx < j then (s.detEnd m mode j).addSat (rDET_COUNT m) fDET_COUNT_EMPTY (j - iv.idx - 1).toNat else s

/-- Interval `j` of lead `m` begins at `start` unless one is running. -/
def State.detOpen (s : State) (m : Nat) (ctrl : Word) (j : Int) (start : Nat) : State :=
  if (s.detU m).iv.on then s else s.detBegin m ctrl j start

/-- The running interval of lead `m` takes the frame `f` of unit `n`. -/
def State.detAdd (s : State) (m n : Nat) (ctrl : Word) (f : Frm) : State :=
  let s1 := s.updDet m fun d => { d with iv := { d.iv with fl := d.iv.fl ||| f.fl % 65536 } }
  if f.lost then
    ((s1.addSat (rDET_STAT m) fDET_STAT_LOST 1).raiseLim 1000 (272 + m)).updDet m fun d =>
      { d with iv := { d.iv with lost := d.iv.lost + 1 } }
  else s1.detAccum m n ctrl f

/-- In COUNT mode the interval's last frame ends it; one that goes on does so as interval `j`. -/
def State.detLast (s : State) (m mode : Nat) (j : Int) (last : Bool) : State := if last then s.detEnd m mode j else s

/-- Takes the frame `f` into the intervals of lead `m`; it arrived at unit `n`. -/
def State.detStep (s : State) (m n : Nat) (f : Frm) : State :=
  let cut := (s.detU m).iv.cutAt f.t
  let iv := ((s.detCut m f).detU m).iv
  let (ctrl, int, align) := iv.cfgAt (s.detNow m) f.t
  let time := fget ctrl fDET_CTRL_INT_MODE == 1
  let mode := fget ctrl fDET_CTRL_MODE
  let val := fget int fDET_INT_VALUE
  let j := intvIndex time val align.toNat iv.base f.f f.t
  let start := match cut with
    | some c => c
    | none => if time then tick16 (align.toNat + j * val).toNat else f.t
  ((((s.detCut m f).detRoll m mode j).detOpen m ctrl j start).detAdd m n ctrl f).detLast m mode (j + 1)
    (!time && (f.f + 1 - iv.base) % val == 0)

/-- The frames that wait at a square. -/
def State.framesAt (s : State) (sq : Nat) : List Frm := SMap.get [] s.frames sq

/-- The next frame of a unit at square `sq`, unless the other unit of its gang must take an earlier one first. -/
def State.nextFrame (s : State) (sq : Nat) (other : Option Nat) : Option Frm :=
  match (s.framesAt sq).head?, other.bind fun o => (s.framesAt o).head? with
  | some f, some g => if g.era < f.era || (g.era == f.era && g.f < f.f) then none else some f
  | r, _ => r

/-- The other square of a gang, if the unit is in one. -/
def State.gangOther (s : State) (cfg : Nat) (gang partner : Fld) (sq : Nat) : Option Nat :=
  if s.flag cfg gang then some (sq + 1) else if s.flag cfg partner then some (sq - 1) else none

/-- The frame at the head of a square's queue is taken. -/
def State.popFrame (s : State) (sq : Nat) : State := { s with frames := SMap.upd [] s.frames sq (·.drop 1) }

/-- Detector unit `n` takes a frame (R237, R239, R242 to R245). -/
def State.detFrame (s : State) (n : Nat) : State :=
  let sq := detSquare n
  match s.nextFrame sq (s.gangOther (rDET_CFG n) fDET_CFG_GANG fDET_CFG_PARTNER sq) with
  | none => s
  | some f => (s.popFrame sq).detStep (s.detLead n) n f

/-- The readout of a finished interval of detector unit `n` ends (R242). -/
def State.detReadoutDone (s : State) (n : Nat) : State :=
  s.updDet n fun d => { d with iv := { d.iv with busy := false } }

/-- Detector unit `n` lets go of its own accumulations: the frames in them are lost for the contexts of square `sq`. -/
def State.detEmpty (s : State) (n sq : Nat) : State :=
  let d := s.detU n
  (s.loseDirect sq (d.off.n + d.on.n)).updDet n fun d =>
    { d with off := detAcc0, on := detAcc0, iv := { d.iv with on := false, lost := 0, fl := 0, base := 0, sent := 0 } }

/-- Detector unit `n` discards its accumulations, and those of its partner in a gang (R169, R245). -/
def State.detDiscard (s : State) (n : Nat) : State :=
  let sq := detSquare (s.detLead n)
  let s1 := s.detEmpty n sq
  if s.flag (rDET_CFG n) fDET_CFG_GANG then s1.detEmpty (n + 1) sq else s1

/-- The values of parameter commits that detector unit `n` has not come to are let go, at a plan commit that gives it new ones (R169, R240). -/
def State.detFresh (s : State) (n : Nat) : State := s.updDet n fun d => { d with iv := { d.iv with cfgs := [] } }

/-! ### Density accumulators (R247 to R251) -/

/-- CTRL, INT and ALIGN of density accumulator `n` in force. -/
def State.denNow (s : State) (n : Nat) : Word × Word × Word :=
  (s.actv (rDEN_CTRL n), s.actv (rDEN_INT n), s.actv (rDEN_ALIGN n))

/-- The unit whose registers govern accumulator `n`. -/
def State.denLead (s : State) (n : Nat) : Nat := if s.flag (rDEN_CFG n) fDEN_CFG_PARTNER then n - 1 else n

def State.denC (s : State) (n : Nat) : Nat := 2 ^ s.fld (rDEN_CFG n) fDEN_CFG_LOG2C
def State.denA (s : State) (n : Nat) : Nat := 2 ^ s.fld (rDEN_CFG n) fDEN_CFG_LOG2A

/-- Adds to a cell of 32 bits; whether it saturated. -/
def cellAdd (m : SMap Nat) (k v : Nat) : SMap Nat × Bool :=
  let x := SMap.get 0 m k + v
  (SMap.set 0 m k (satN 32 x), 2 ^ 32 ≤ x)

/-- One power as a fraction scores in column `c` of lead `m`'s grid, into the bank of unit `n` (R249). -/
def State.denScore (s : State) (m n : Nat) (ctrl : Word) (c : Nat) (p : Nat × Nat) : State :=
  let a := s.denA m
  let row : Int := if p.1 = 0 then a
    else (fgetS ctrl fDEN_CTRL_TOP - levelFloor p.1 p.2) / (max 1 (fget ctrl fDEN_CTRL_STEP) : Nat)
  let high := row < 0
  let under := (a : Int) ≤ row
  let r := if high then 0 else if under then a - 1 else row.toNat
  let (cells, sat) := cellAdd (s.denU n).cells (r * s.denC m + c) 1
  let s1 := s.updDen n fun d =>
    { d with
      cells := cells
      high := satN 32 (d.high + b2n high)
      under := satN 32 (d.under + b2n under)
      sat := d.sat || sat }
  let s2 := if high then s1.addSat (rDEN_STAT m) fDEN_STAT_OVER 1 else s1
  let s3 := if under then s2.addSat (rDEN_STAT m) fDEN_STAT_UNDER 1 else s2
  if sat then (s3.addSat (rDEN_COUNT m) fDEN_COUNT_SAT 1).raiseLim 1000 (280 + m) else s3

/-- The powers that a frame or a trace brings, as fractions (R248). -/
def densityPowers (f : Frm) (flat : List (Int × Nat)) (other : Nat) : List (Nat × Nat) :=
  match f.trace with
  | none => (framePowers f flat other).map Pw.frac
  | some (rms, ws) => ws.map fun w => let (x, y) := bin32Frac w; if rms then (x * x, y * y) else (x, y)

/-- The largest of a column's powers. -/
def fracMax (l : List (Nat × Nat)) : Nat × Nat := l.foldl (fun a p => if a.1 * p.2 < p.1 * a.2 then p else a) (0, 1)

/-- A frame or trace is scored (R249). -/
def State.denAccum (s : State) (m n : Nat) (ctrl : Word) (f : Frm) : State :=
  let (k, s1) := s.fresh
  let ps := (densityPowers f (s.denU m).flat (Config.powerOpen k)).toArray
  let c := s.denC m
  let w := ps.size / c
  let s2 := (upTo c).foldl (fun t i =>
    let col := (upTo w).map fun j => ps.getD (i * w + j) (0, 1)
    if fget ctrl fDEN_CTRL_COLMODE = 1 then t.denScore m n ctrl i (fracMax col)
    else col.foldl (fun t p => t.denScore m n ctrl i p) t) s1
  s2.updDen n fun d =>
    { d with
      n := d.n + 1
      tend := f.tend }

/-- The sum of two banks, cell by cell, saturating (R245), and the cells that saturated. -/
def bankSum (a b : SMap Nat) : SMap Nat × Nat :=
  b.foldl (fun r e => let (m, sat) := cellAdd r.1 e.1 e.2; (m, r.2 + b2n sat)) (a, 0)

/-- The persistence area after an interval: P - (P >> DECAY) + X (R250), and the cells that saturated. -/
def persist (p x : SMap Nat) (decay : Nat) : SMap Nat × Nat :=
  bankSum (p.foldl (fun m e => SMap.set 0 m e.1 (e.2 - e.2 / 2 ^ decay)) []) x

/-- The DENSITY payload (R251, Table 11-2). -/
def State.denPayload (s : State) (m : Nat) (ctrl : Word) (cells : SMap Nat) (n high under tend : Nat) : List Byte :=
  let c := s.denC m
  let a := s.denA m
  let cfg := rDEN_CFG m
  let src := s.fld cfg fDEN_CFG_SRC
  let tp := if s.flag cfg fDEN_CFG_SRC_DU then s.detPipe (src - 28) else s.xfmLead (src - 24)
  leBytes 8 (c + a * 2 ^ 16 + n % 2 ^ 32 * 2 ^ 32)
    ++ leBytes 8 (fget ctrl fDEN_CTRL_TOP + fget ctrl fDEN_CTRL_STEP * 2 ^ 16 + fget ctrl fDEN_CTRL_DECAY * 2 ^ 28
        + s.fld cfg fDEN_CFG_PERSIST * 2 ^ 32 + fget ctrl fDEN_CTRL_COLMODE * 2 ^ 33
        + s.fld cfg fDEN_CFG_LOG2M * 2 ^ 36 + s.xfmLog2n tp * 2 ^ 40 + s.fld (rXFM_BINS tp) fXFM_BINS_FIRST * 2 ^ 45)
    ++ leBytes 8 tend ++ leBytes 8 (high + under * 2 ^ 32)
    ++ (upTo (c * a)).flatMap fun k => leBytes 4 (SMap.get 0 cells k)

/-- The interval of density accumulator `m` closes: the banks swap and the record is formed (R250, R251);
while HO_GAP is 1 the record is invalid and lost (R49). -/
def State.denClose (s : State) (m : Nat) (ctrl : Word) : State :=
  let d := s.denU m
  let gang := s.flag (rDEN_CFG m) fDEN_CFG_GANG
  let p := if gang then s.denU (m + 1) else den0
  let n := d.n + p.n
  let clear := fun (x : Den) => { x with cells := [], high := 0, under := 0, n := 0, tend := 0, sat := false }
  let done := fun (t : State) =>
    let t1 := t.updDen m fun x => { clear x with iv := { x.iv with on := false, lost := 0, fl := 0, busy := x.iv.busy || n != 0 } }
    if gang then t1.updDen (m + 1) clear else t1
  if n = 0 then (done s).addSat (rDEN_LOST m) fDEN_LOST_EMPTY 1
  else
    let (x, sat1) := bankSum d.cells p.cells
    let pers := s.flag (rDEN_CFG m) fDEN_CFG_PERSIST
    let (y, sat2) := if pers then persist d.pers x (fget ctrl fDEN_CTRL_DECAY) else (x, 0)
    let sat := sat1 + sat2
    let s1 := if sat = 0 then s else (s.addSat (rDEN_COUNT m) fDEN_COUNT_SAT sat).raiseLim 1000 (280 + m)
    let s2 := done (s1.updDen m fun z => { z with pers := if pers then y else z.pers })
    let rec_ : Prod := { prod0 with
      typ := 0x20
      time := timeOf d.iv.start
      fine := fineOf d.iv.start
      flags := d.iv.fl ||| (if d.iv.lost != 0 then flGap else 0) ||| (if d.sat || p.sat || sat != 0 then flClipped else 0)
      items := n
      pre := s.denPayload m ctrl y n (satN 32 (d.high + p.high)) (satN 32 (d.under + p.under))
        (timeOf (max d.tend p.tend)) }
    if s.hoGap then s2.loseDirect (denSquare m) n else s2.emitRec (denSquare m) rec_

/-- An interval end of density accumulator `m`: the interval closes, or continues as interval `j` (R242). -/
def State.denEnd (s : State) (m : Nat) (ctrl : Word) (j : Int) : State :=
  if (s.denU m).iv.busy then
    ((s.addSat (rDEN_COUNT m) fDEN_COUNT_EXTENDED 1).raise 286).updDen m fun d => { d with iv := { d.iv with idx := j } }
  else s.denClose m ctrl

/-- A new interval of density accumulator `m` begins; with a detector unit for its source it corrects nothing itself. -/
def State.denBegin (s : State) (m : Nat) (ctrl : Word) (j : Int) (start : Nat) : State :=
  let src := s.fld (rDEN_CFG m) fDEN_CFG_SRC
  let flat := if fget ctrl fDEN_CTRL_FLAT = 1 && !s.flag (rDEN_CFG m) fDEN_CFG_SRC_DU then s.flatTable (src - 24) else []
  s.updDen m fun d => { d with iv := { d.iv with on := true, idx := j, start := start, lost := 0, fl := 0 }, flat := flat }

/-- The intervals of lead `m` come to `f`: the boundary of a parameter commit closes the running interval, and so does a new anchor in COUNT
mode (R239, R240). -/
def State.denCut (s : State) (m : Nat) (f : Frm) : State :=
  let iv := (s.denU m).iv
  let cut := (iv.cutAt f.t).isSome
  let ctrl := (iv.cfgAt (s.denNow m) 0).1
  let anew := f.era != iv.era && fget ctrl fDEN_CTRL_INT_MODE == 0
  let s1 := if (cut || anew) && iv.on then s.denClose m ctrl else s
  s1.updDen m fun d =>
    { d with iv := { d.iv.passed f.t with base := if cut then f.f else if f.era = iv.era then d.iv.base else 0, era := f.era } }

/-- The first frame of a later interval `j` ends the running one; the intervals skipped are empty. -/
def State.denRoll (s : State) (m : Nat) (ctrl : Word) (j : Int) : State :=
  let iv := (s.denU m).iv
  if iv.on && iv.idx < j then (s.denEnd m ctrl j).addSat (rDEN_LOST m) fDEN_LOST_EMPTY (j - iv.idx - 1).toNat else s

/-- Interval `j` of lead `m` begins at `start` unless one is running. -/
def State.denOpen (s : State) (m : Nat) (ctrl : Word) (j : Int) (start : Nat) : State :=
  if (s.denU m).iv.on then s else s.denBegin m ctrl j start

/-- The running interval of lead `m` takes the frame or trace `f` of unit `n`. -/
def State.denAdd (s : State) (m n : Nat) (ctrl : Word) (f : Frm) : State :=
  let s1 := s.updDen m fun d => { d with iv := { d.iv with fl := d.iv.fl ||| f.fl % 65536 } }
  if f.lost then
    ((s1.addSat (rDEN_LOST m) fDEN_LOST_LOST 1).raiseLim 1000 (276 + m)).updDen m fun d =>
      { d with iv := { d.iv with lost := d.iv.lost + 1 } }
  else s1.denAccum m n ctrl f

/-- In COUNT mode the interval's last frame ends it; one that goes on does so as interval `j`. -/
def State.denLast (s : State) (m : Nat) (ctrl : Word) (j : Int) (last : Bool) : State := if last then s.denEnd m ctrl j else s

/-- Takes the frame or trace `f` into the intervals of lead `m`; it arrived at unit `n`. -/
def State.denStep (s : State) (m n : Nat) (f : Frm) : State :=
  let cut := (s.denU m).iv.cutAt f.t
  let iv := ((s.denCut m f).denU m).iv
  let (ctrl, int, align) := iv.cfgAt (s.denNow m) f.t
  let time := fget ctrl fDEN_CTRL_INT_MODE == 1
  let val := fget int fDEN_INT_VALUE
  let j := intvIndex time val align.toNat iv.base f.f f.t
  let start := match cut with
    | some c => c
    | none => if time then tick16 (align.toNat + j * val).toNat else f.t
  ((((s.denCut m f).denRoll m ctrl j).denOpen m ctrl j start).denAdd m n ctrl f).denLast m ctrl (j + 1)
    (!time && (f.f + 1 - iv.base) % val == 0)

/-- Density accumulator `n` takes a frame or a trace (R249). -/
def State.denFrame (s : State) (n : Nat) : State :=
  let sq := denSquare n
  match s.nextFrame sq (s.gangOther (rDEN_CFG n) fDEN_CFG_GANG fDEN_CFG_PARTNER sq) with
  | none => s
  | some f => (s.popFrame sq).denStep (s.denLead n) n f

/-- The readout of a bank of density accumulator `n` ends (R250). -/
def State.denReadoutDone (s : State) (n : Nat) : State :=
  s.updDen n fun d => { d with iv := { d.iv with busy := false } }

/-- Density accumulator `n` lets go of its own bank: the frames in it are lost for the contexts of square `sq`. -/
def State.denEmpty (s : State) (n sq : Nat) : State :=
  (s.loseDirect sq (s.denU n).n).updDen n fun d =>
    { d with cells := [], high := 0, under := 0, n := 0, tend := 0, sat := false,
             iv := { d.iv with on := false, lost := 0, fl := 0, base := 0 } }

/-- Density accumulator `n` discards the interval it holds, and the bank of its partner in a gang (R169, R245). -/
def State.denDiscard (s : State) (n : Nat) : State :=
  let sq := denSquare (s.denLead n)
  let s1 := s.denEmpty n sq
  if s.flag (rDEN_CFG n) fDEN_CFG_GANG then s1.denEmpty (n + 1) sq else s1

/-- The values of parameter commits that density accumulator `n` has not come to are let go, at a plan commit that gives it new ones. -/
def State.denFresh (s : State) (n : Nat) : State := s.updDen n fun d => { d with iv := { d.iv with cfgs := [] } }

/-! ### Writes (R240, R241) and plan records (R252, R253) -/

/-- A rate test of R241 as a fraction: at least k × B_rec bytes per T, with RATE in 1/65,536 byte. `t` is T. -/
def fitsRate (rate need : Nat) (t : Nat × Nat) : Bool := need * t.2 * 65536 ≤ rate * t.1

/-- The pipeline whose record governs the pipeline at square `tp` in a plan: the lead's for the partner in a gang (R210). -/
def PlanImg.pipeOf (p : PlanImg) (tp : Nat) : Nat :=
  if tp % 2 = 1 && (p.unit? tp).isNone && p.word (tp - 1) 0 / 1024 % 2 = 1 then tp - 1 else tp

/-- T of a detector unit under a plan: INT ticks, or F × hop / r DCLK. -/
def PlanImg.detT (p : PlanImg) (sq : Nat) (ctrl int : Word) : Nat × Nat :=
  let tp := p.pipeOf ((p.srcOf sq).getD 24)
  let f := fget int fDET_INT_VALUE
  if fget ctrl fDET_CTRL_INT_MODE = 1 then (f, 1)
  else (f * 2 ^ (p.word tp 0 % 32 - p.word tp 0 / 256 % 4) * p.sampleBytes tp * 65536, p.inRate tp)

/-- BINS of the pipeline that feeds a square. -/
def PlanImg.binsInto (p : PlanImg) (sq : Nat) : Nat := p.word (p.pipeOf ((p.srcOf sq).getD 24)) 1 / 2 ^ 32 % 2 ^ 19

/-- The bytes of one record of a detector unit. -/
def PlanImg.detBytes (p : PlanImg) (sq : Nat) : Nat :=
  let w := p.word sq 0
  let b := p.binsInto sq / 2 ^ (w / 256 % 16)
  if w % 2 = 0 then 64 + 4 * b else (64 + 2 * b + 63) / 64 * 64

/-- R241 for a detector unit. -/
def PlanImg.detFits (p : PlanImg) (sq : Nat) (ctrl int : Word) : Bool :=
  (p.from_ sq).all fun r =>
    fitsRate r.rate ((if p.word sq 0 / 2 % 2 = 1 then 2 else 1) * p.detBytes sq) (p.detT sq ctrl int)

/-- T of a density accumulator under a plan; its traces come once per interval of its detector unit. -/
def PlanImg.denT (p : PlanImg) (sq : Nat) (ctrl int dctrl dint : Word) : Nat × Nat :=
  let src := (p.srcOf sq).getD 24
  let f := fget int fDEN_INT_VALUE
  if fget ctrl fDEN_CTRL_INT_MODE = 1 then (f, 1)
  else if src < 28 then
    let tp := p.pipeOf src
    (f * 2 ^ (p.word tp 0 % 32 - p.word tp 0 / 256 % 4) * p.sampleBytes tp * 65536, p.inRate tp)
  else let (a, b) := p.detT src dctrl dint; (f * a, b)

/-- R241 for a density accumulator. -/
def PlanImg.denFits (p : PlanImg) (sq : Nat) (ctrl int dctrl dint : Word) : Bool :=
  (p.from_ sq).all fun r =>
    fitsRate r.rate (64 + 4 * 2 ^ (p.word sq 0 % 16 + p.word sq 0 / 16 % 16)) (p.denT sq ctrl int dctrl dint)

/-- Are the values of an interval register within Table 11-4? -/
def intervalOk (time : Bool) (v : Nat) : Bool := if time then 16 ≤ v else 1 ≤ v && v < 2 ^ 32

/-- Are CTRL and INT of a detector unit legal together, codes, limits and R241 alike? -/
def State.detLegal (s : State) (n : Nat) (ctrl int : Word) : Bool :=
  fget ctrl fDET_CTRL_MODE < 6 && intervalOk (fget ctrl fDET_CTRL_INT_MODE == 1) (fget int fDET_INT_VALUE)
    && match s.activePlan with
      | some p => !s.flag (rDET_CFG n) fDET_CFG_USED || p.detFits (detSquare n) ctrl int
      | none => true

/-- A write of a detector unit is discarded. -/
def State.detDiscardWr (s : State) (n : Nat) : State := (s.addSat (rDET_COUNT n) fDET_COUNT_WR_DISC 1).raise 284

/-- Writes to DET_CTRL[n], DET_INT[n] and DET_ALIGN[n] (R240). -/
def State.wrDetCtrl (n : Nat) (v : Word) (s : State) : State :=
  let t := s.wrCodes (rDET_CTRL n) v []
  if s.detLegal n (t.rd (rDET_CTRL n)) (s.rd (rDET_INT n)) then t else s.detDiscardWr n
def State.wrDetInt (n : Nat) (v : Word) (s : State) : State :=
  let t := s.wrCodes (rDET_INT n) v []
  if s.detLegal n (s.rd (rDET_CTRL n)) (t.rd (rDET_INT n)) then t else s.detDiscardWr n
def State.wrDetAlign (n : Nat) (v : Word) (s : State) : State := s.wrCodes (rDET_ALIGN n) v []

/-- Are CTRL and INT of a density accumulator legal together? -/
def State.denLegal (s : State) (n : Nat) (ctrl int : Word) : Bool :=
  let step := fget ctrl fDEN_CTRL_STEP
  let du := s.fld (rDEN_CFG n) fDEN_CFG_SRC - 28
  1 ≤ step && step ≤ 2560
    && intervalOk (fget ctrl fDEN_CTRL_INT_MODE == 1) (fget int fDEN_INT_VALUE)
    && match s.activePlan with
      | some p => !s.flag (rDEN_CFG n) fDEN_CFG_USED ||
          p.denFits (denSquare n) ctrl int (s.rd (rDET_CTRL du)) (s.rd (rDET_INT du))
      | none => true

/-- A write of a density accumulator is discarded. -/
def State.denDiscardWr (s : State) (n : Nat) : State := (s.addSat (rDEN_COUNT n) fDEN_COUNT_WR_DISC 1).raise 285

/-- Writes to DEN_CTRL[n], DEN_INT[n] and DEN_ALIGN[n] (R240). -/
def State.wrDenCtrl (n : Nat) (v : Word) (s : State) : State :=
  let t := s.wrCodes (rDEN_CTRL n) v []
  if s.denLegal n (t.rd (rDEN_CTRL n)) (s.rd (rDEN_INT n)) then t else s.denDiscardWr n
def State.wrDenInt (n : Nat) (v : Word) (s : State) : State :=
  let t := s.wrCodes (rDEN_INT n) v []
  if s.denLegal n (s.rd (rDEN_CTRL n)) (t.rd (rDEN_INT n)) then t else s.denDiscardWr n
def State.wrDenAlign (n : Nat) (v : Word) (s : State) : State := s.wrCodes (rDEN_ALIGN n) v []

/-- The parameter commit of both kinds of unit (R240). -/
def State.detParamCommit (s : State) : State :=
  (upTo 4).foldl (fun t n =>
    let o1 := t.detNow n
    let o2 := t.denNow n
    let t1 := ((t.commitReg (rDET_CTRL n)).commitReg (rDET_INT n)).commitReg (rDET_ALIGN n)
    let t2 := ((t1.commitReg (rDEN_CTRL n)).commitReg (rDEN_INT n)).commitReg (rDEN_ALIGN n)
    let at_ := tick16 s.time
    (t2.updDet n fun d => { d with iv := d.iv.commit at_ o1 (t2.detNow n) }).updDen n fun d =>
      { d with iv := d.iv.commit at_ o2 (t2.denNow n) }) s

/-- The value a register will have under a plan: its PARAMS entry, or its reset value (R253). -/
def PlanImg.param (p : PlanImg) (a : Nat) : Word :=
  ((p.params.filter fun e => e.1 == a).getLast?.map (·.2)).getD (resetWord a)

/-- The gang rule of R253 for a unit at `sq` whose GANG bit is `bit` of its body word. -/
def PlanImg.gangOk (p : PlanImg) (sq : Nat) (gang srcGang : Bool) : Bool :=
  gang == srcGang &&
    (!gang || (sq % 2 == 0 && (p.from_ (sq + 1)).isEmpty
      && p.srcOf (sq + 1) == (p.srcOf sq).map (· + 1)))

/-- Does the unit at a square lead a gang in the plan (pipelines and detector units)? -/
def PlanImg.leads (p : PlanImg) (sq : Nat) : Bool :=
  if 24 ≤ sq && sq < 28 then p.word sq 0 / 1024 % 2 == 1
  else if 28 ≤ sq && sq < 32 then p.word sq 0 / 16 % 2 == 1
  else false

/-- Is the record of a detector unit valid (R253)? -/
def PlanImg.detValid (p : PlanImg) (u : UnitRec) : Bool :=
  let sq := u.square
  let w := p.word sq 0
  let src := (p.srcOf sq).getD 0
  let merge := w / 256 % 16
  let n := sq - 28
  u.body.length == 1 && w / 4096 == 0 && w / 32 % 8 == 0 && (p.into sq).length == 1 && 24 ≤ src && src < 28
    && p.gangOk sq (w / 16 % 2 == 1) (p.leads src)
    && 2 ^ merge ≤ p.binsInto sq && (w / 2 % 2 == 0 || p.binsInto sq / 2 ^ merge ≤ 131072)
    && p.detFits sq (p.param (rDET_CTRL n)) (p.param (rDET_INT n))

/-- The bins of a frame or trace that a density accumulator takes. -/
def PlanImg.denBins (p : PlanImg) (sq : Nat) : Nat :=
  let src := (p.srcOf sq).getD 24
  if src < 28 then p.binsInto sq else p.binsInto src / 2 ^ (p.word src 0 / 256 % 16)

/-- Is the record of a density accumulator valid (R253)? -/
def PlanImg.denValid (p : PlanImg) (u : UnitRec) : Bool :=
  let sq := u.square
  let w := p.word sq 0
  let src := (p.srcOf sq).getD 0
  let lc := w % 16
  let la := w / 16 % 16
  let m := p.denBins sq / 2 ^ lc
  let n := sq - 32
  u.body.length == 1 && w / 1024 == 0 && (p.into sq).length == 1 && 24 ≤ src && src < 32
    && p.gangOk sq (w / 512 % 2 == 1) (src < 28 && p.leads src)
    && 8 ≤ lc && lc ≤ 12 && 6 ≤ la && la ≤ 10 && lc + la ≤ (if w / 256 % 2 = 1 then 19 else 20)
    && m * 2 ^ lc == p.denBins sq && m != 0 && m == 2 ^ m.log2
    && p.denFits sq (p.param (rDEN_CTRL n)) (p.param (rDEN_INT n)) (p.param (rDET_CTRL (src - 28)))
        (p.param (rDET_INT (src - 28)))

/-- Does the path of a pipeline trace to a converter, and to which input (R235)? -/
def PlanImg.traced (p : PlanImg) (tp : Nat) : Option Nat :=
  match p.srcOf (p.pipeOf tp) with
  | some c =>
    if 4 ≤ c && c < 8 then (p.srcOf c).filter (· < 4)
    else if 8 ≤ c && c < 24 then
      match p.srcOf c with
      | some d => if d < 4 then some d else if d < 8 then (p.srcOf d).filter (· < 4) else none
      | none => none
    else none
  | none => none

/-- DET_CFG, DET_FLAT and DEN_CFG of every unit under a plan, or under none. -/
def State.detPlan (s : State) (p : Option PlanImg) : State :=
  (upTo 4).foldl (fun t n =>
    match p with
    | none => ((t.wr (rDET_CFG n) 0).wr (rDEN_CFG n) 0).setFlds (rDET_FLAT n) [(fDET_FLAT_TRACED, 0), (fDET_FLAT_INPUT, 0)]
    | some p =>
      let sq := detSquare n
      let w := p.word sq 0
      let tr := if (p.unit? sq).isSome then p.traced ((p.srcOf sq).getD 0) else none
      let c1 := if (p.unit? sq).isSome then
          fsets 0 [(fDET_CFG_USED, 1), (fDET_CFG_GANG, w / 16), (fDET_CFG_SRC, (p.srcOf sq).getD 0), (fDET_CFG_OUT, w),
            (fDET_CFG_MERGE, w / 256), (fDET_CFG_SW_PG, w / 4), (fDET_CFG_SWITCHED, w / 2)]
        else 0
      let c1 := fset c1 fDET_CFG_PARTNER (b2n (n % 2 == 1 && p.leads (sq - 1)))
      let dq := denSquare n
      let v := p.word dq 0
      let src := (p.srcOf dq).getD 0
      let c2 := if (p.unit? dq).isSome then
          fsets 0 [(fDEN_CFG_USED, 1), (fDEN_CFG_GANG, v / 512), (fDEN_CFG_SRC_DU, b2n (28 ≤ src)), (fDEN_CFG_SRC, src),
            (fDEN_CFG_LOG2M, (p.denBins dq / 2 ^ (v % 16)).log2), (fDEN_CFG_PERSIST, v / 256), (fDEN_CFG_LOG2C, v),
            (fDEN_CFG_LOG2A, v / 16)]
        else 0
      let c2 := fset c2 fDEN_CFG_PARTNER (b2n (n % 2 == 1 && p.word (dq - 1) 0 / 512 % 2 == 1))
      ((t.wr (rDET_CFG n) c1).wr (rDEN_CFG n) c2).setFlds (rDET_FLAT n)
        [(fDET_FLAT_TRACED, b2n tr.isSome), (fDET_FLAT_INPUT, tr.getD 0)]) s

end Sys2Proof.Machine
end

