-- ==== Sys2Proof/Machine/Latency.lean ====
section
/-! DEFINITION. Path latencies: what each unit adds between its street entry and its street exit, and the longest path
from the ball to a square (R90, R188, R225, R246, R361, R567). -/

namespace Sys2Proof.Machine

/-- (L_k - 1) / 2 of stage `k` of unit `u`, in the active bank. -/
def State.halfTaps (s : State) (u k : Nat) : Nat :=
  2 * s.fld (rDDC_COEF0 u k (s.fld (rDDC_STAGE u k) fDDC_STAGE_ACTIVE)) fDDC_COEF0_K - 1

/-- The latency of the unit at a square under plan `p`, in DCLK. -/
def State.unitLatency (s : State) (p : PlanImg) (sq : Nat) : Nat :=
  let w := p.word sq 0
  if sq < 4 then (if p.paired sq then 108 else 100)
  else if sq < 8 then 6 + ceilDiv (s.halfTaps (sq - 4) 0) (p.perTick (sq - 4))
  else if sq < 24 then
    let r := p.perTick ((p.srcOf sq).getD 0)
    6 + (upTo (w % 16)).foldl (fun a k => a + 4 + ceilDiv (s.halfTaps (sq - 4) k * 2 ^ k) r) 0
  else if sq < 28 then
    let lead := if (p.unit? sq).isNone then sq - 1 else sq
    let b := p.word lead 0 % 32
    let st := (b + 1) / 2
    (st + 1) * 2 ^ b / 16 + 12 * st + 24
  else if sq < 32 then
    (if w / 16 % 2 = 1 then 64 else 48)
      + ceilDiv (p.binsInto sq / 2 ^ (w / 256 % 16)) (if w % 2 = 1 then 32 else 16)
  else if sq < 36 then 32 + 2 ^ (w % 16 + w / 16 % 16) / 16
  else if 48 ≤ sq && sq < 56 then 16 + (if s.afld (rACQ_CTRL (sq - 48)) fACQ_CTRL_RMU_EN = 1 then 8 else 0)
  else if sq = 56 then 24
  else if 57 ≤ sq && sq < 61 then 520
  else if 61 ≤ sq && sq < 69 then
    (if w / 2 % 2 = 1 then 288 else if w % 2 = 1 then 24 else 16)
  else if sq = 69 then 32
  else 0

/-- The longest path latency to the entry of a square, in DCLK; `n` bounds the branches, and a store-port square begins a path (R567). -/
def State.pathLatency (s : State) (p : PlanImg) : Nat → Nat → Nat
  | 0, _ => 0
  | n + 1, sq =>
    (if isPort sq then [] else p.into sq).foldl (fun m r => max m (s.pathLatency p n r.src + s.unitLatency p r.src + 4)) 0

/-- Is a route that of the TDC square, with a channel bound to context `x` (R568)? -/
def PlanImg.carriesStamps (p : PlanImg) (r : Route) (x : Nat) : Bool :=
  r.src == 69 && (upTo 12).any fun c => p.word 69 c / 2 ^ 12 % 2 == 1 && p.word 69 c % 2 ^ 12 == x

/-- Is a route that of an acquisition unit whose LOG_CTX is context `x` (R299)? -/
def PlanImg.carriesLog (p : PlanImg) (r : Route) (x : Nat) : Bool :=
  48 ≤ r.src && r.src < 56 && p.word r.src 1 / 2 ^ 12 % 2 == 1 && p.word r.src 1 % 2 ^ 12 == x

/-- Does a route carry the records of context `x`: by its CONTEXT, as the route of the TDC square with a channel bound to it, or as the route
of an acquisition unit whose LOG_CTX it is (Table 8-4, R568, R299)? -/
def PlanImg.carries (p : PlanImg) (r : Route) (x : Nat) : Bool := r.ctx == some x || p.carriesStamps r x || p.carriesLog r x

/-- P_i of a plan context (R361). A TRIGGER_LOG record reaches the device when it closes, and adds 16 DCLK (R567, Table 16-8). -/
def State.ctxLatency (s : State) (p : PlanImg) (x : Nat) : Nat :=
  (p.routes.filter fun r => p.carries r x).foldl
    (fun m r => max m ((if p.carriesLog r x then 16 else s.pathLatency p 10 r.src + s.unitLatency p r.src) + 4)) 0

/-- The spacing of the samples of a square's stream as a fraction of ticks: a store-port source is taken at the RATE of
its route, cs16. -/
def PlanImg.spacing (p : PlanImg) (src dst : Nat) : Nat × Nat :=
  if src < 4 then (1, p.perTick src)
  else if src < 8 then (2, p.perTick (src - 4))
  else if src < 24 then (2 ^ (p.word src 0 % 16), p.perTick ((p.srcOf src).getD 0))
  else (4 * 65536, max 1 (p.inRate dst))

end Sys2Proof.Machine
end

