-- ==== Sys2Proof/Machine/NetTx.lean ====
section
/-! DEFINITION. Sending on the network ports: frames, Avenue packets and trigger messages (R455 to R466, R481). -/

namespace Sys2Proof.Machine

/-- A sub-port that nothing has touched. -/
def net0 : NetSub := ⟨none, [], 0, none⟩
/-- Sub-port `i`, and changed. -/
def State.netS (s : State) (i : Nat) : NetSub := SMap.get net0 s.net i
def State.updNet (s : State) (i : Nat) (f : NetSub → NetSub) : State := { s with net := SMap.upd net0 s.net i f }

/-- An avenue that was never opened. -/
def ave0 : Ave :=
  { own := 0, peer := 0, prev := 0, quar := 0, at_ := 0, tries := 0, heard := 0, recs := [], ranges := [], next := 0,
    acked := 0, limit := 0, ahead := [], part := [], ackAt := none, idle := 0, viols := [], nak := none, trigs := [],
    tseq := 0, seen := [] }
/-- Avenue `a`, and changed. -/
def State.aveU (s : State) (a : Nat) : Ave := SMap.get ave0 s.ave a
def State.updAve (s : State) (a : Nat) (f : Ave → Ave) : State := { s with ave := SMap.upd ave0 s.ave a f }

/-- STATE of avenue `a` (Table 21-5), its sub-port, and a field of AVE_PARAM. -/
def State.aveState (s : State) (a : Nat) : Nat := s.fld (rAVE_STATUS a) fAVE_STATUS_STATE
def State.aveSub (s : State) (a : Nat) : Nat := s.fld (rAVE_CFG a) fAVE_CFG_SUB
def State.avePar (s : State) (a : Nat) (f : Fld) : Nat := s.fld (rAVE_PARAM a) f
/-- Is avenue `a` inbound? -/
def State.aveIn (s : State) (a : Nat) : Bool := s.flag (rAVE_CFG a) fAVE_CFG_DIR
/-- STATE of avenue `a` replaced. -/
def State.setAveState (s : State) (a v : Nat) : State := s.setFld (rAVE_STATUS a) fAVE_STATUS_STATE v

/-- Does sub-port `i` have LINK? -/
def State.linkUp (s : State) (i : Nat) : Bool := s.flag (rNET_SUB_STATUS i) fNET_SUB_STATUS_LINK

/-- A frame leaves sub-port `i`: not without LINK (R460), and after the pause while one lasts (R459). -/
def State.netSend (s : State) (i : Nat) (o : Out) : State :=
  if !s.linkUp i then s
  else if (s.netS i).pause.isSome then s.updNet i fun n => { n with queue := n.queue ++ [o] }
  else (s.send o).addMod (rNET_SUB_CNT0 i) fNET_SUB_CNT0_TX_FRAMES 1

/-- Own address of sub-port `i` in a family, 0 for none. -/
def State.ownIp (s : State) (i : Nat) (v6 : Bool) : Nat :=
  if v6 then (s.rd (rNET_SUB_IPV6 i 0)).toNat + (s.rd (rNET_SUB_IPV6 i 1)).toNat * 2 ^ 64
  else s.fld (rNET_SUB_IPV4 i) fNET_SUB_IPV4_ADDR

/-- The address family and the address of the partner of avenue `a`. -/
def State.aveV6 (s : State) (a : Nat) : Bool := s.flag (rAVE_CFG a) fAVE_CFG_IPV6
def State.aveIp (s : State) (a : Nat) : Nat :=
  if s.aveV6 a then (s.rd (rAVE_IP0 a)).toNat + (s.rd (rAVE_IP1 a)).toNat * 2 ^ 64 else fget (s.rd (rAVE_IP0 a)) ⟨0, 32⟩

/-- The `n` bytes of a number in network byte order. -/
def beBytes (n v : Nat) : List Byte := (leBytes n v).reverse
/-- The ones' complement sum of 16-bit words (RFC 1071). -/
def sum16 : List Byte → Nat
  | a :: b :: t => a.toNat * 256 + b.toNat + sum16 t
  | [a] => a.toNat * 256
  | [] => 0
def fold16 (n : Nat) : Nat :=
  let a := n % 65536 + n / 65536
  let b := a % 65536 + a / 65536
  b % 65536 + b / 65536

/-- The UDP checksum of a payload over the pseudo header of its family, never sent as 0 (R461). -/
def udpCsum (v6 : Bool) (sip dip sport dport : Nat) (bytes : List Byte) : Nat :=
  let n := if v6 then 16 else 4
  let len := bytes.length + 8
  let c := 65535 - fold16 (sum16 (beBytes n sip) + sum16 (beBytes n dip) + 17 + len + sport + dport + len + sum16 bytes)
  if c = 0 then 65535 else c

/-- Sub-port `i` sends a UDP datagram: from its own addresses and LOCAL_PORT, with DF under IPv4 and its checksum (R461, R466). -/
def State.udpSend (s : State) (i dmac : Nat) (v6 : Bool) (dip dport : Nat) (bytes : List Byte) : State :=
  let sip := s.ownIp i v6
  let sport := s.fld rAVE_GLOBAL fAVE_GLOBAL_LOCAL_PORT
  let d : Datagram :=
    { sub := i, smac := s.fld (rNET_SUB_MAC i) fNET_SUB_MAC_MAC, dmac := dmac, v6 := v6, df := !v6, sip := sip, dip := dip,
      sport := sport, dport := dport, csum := udpCsum v6 sip dip sport dport bytes, bytes := bytes }
  s.netSend i (.udp d)

/-- The 32-byte header of Table 21-3; `w0` holds bits [63:56] (RETX and SLOT). -/
def aveHeader (typ devid src dst hi ofs len aux nonce time : Nat) : List Byte :=
  leBytes 8 (0x41 + 2 ^ 8 + typ % 16 * 2 ^ 12 + devid % 2 ^ 16 * 2 ^ 16 + src % 2 ^ 12 * 2 ^ 32 + dst % 2 ^ 12 * 2 ^ 44 + hi * 2 ^ 56)
    ++ leBytes 8 ofs ++ leBytes 8 (len % 2 ^ 16 + aux % 2 ^ 16 * 2 ^ 16 + nonce % 2 ^ 32 * 2 ^ 32) ++ leBytes 8 time

/-- Avenue `a` sends a packet to its partner: TYPE, RETX and SLOT, OFS, AUX, TIME and body (R466). An OPEN, before any nonce is known,
carries NONCE 0. -/
def State.aveSend (s : State) (a typ hi ofs aux time : Nat) (body : List Byte) : State :=
  let cfg := s.rd (rAVE_CFG a)
  let i := s.aveSub a
  let h := aveHeader typ (s.fld rGLB_DEVID fGLB_DEVID_DEVID) a (fget cfg fAVE_CFG_PARTNER_AVE) hi ofs body.length aux
    (if typ = 1 then 0 else (s.aveU a).peer) time
  s.udpSend i (s.fld (rAVE_MAC a) fAVE_MAC_MAC) (s.aveV6 a) (s.aveIp a) (fget cfg fAVE_CFG_PARTNER_PORT) (h ++ body)

/-- The TRIGGER packet of message `m` (Table 21-4). -/
def State.aveTrigPkt (s : State) (a : Nat) (m : AveTrig) (retx : Bool) : State :=
  s.aveSend a 8 (b2n retx + m.slot % 4 * 64) m.seq (m.t % 65536) (m.t / 65536) []

/-- A trigger message for the placement `t` (1/65,536 tick) is sent on avenue `a` as slot `k`: at most 16 may be outstanding, and a message on an
avenue that is not OPEN is not sent either (R481). -/
def State.aveTrigger (s : State) (a k t : Nat) : State :=
  let v := s.aveU a
  if s.aveState a != 3 || 16 ≤ v.trigs.length then s.addSat rAVE_GLOBAL fAVE_GLOBAL_TX_DISC 1
  else
    let m : AveTrig := ⟨v.tseq, k, t, s.time, 1⟩
    (s.updAve a fun v => { v with tseq := (v.tseq + 1) % 65536, trigs := v.trigs ++ [m] }).aveTrigPkt a m false

/-- A decision of qualifier `q` placed at `t` is forwarded by every AVE_TRIG_FWD entry that names it (R481). -/
def State.trigForward (s : State) (q t : Nat) : State :=
  (upTo 4).foldl (fun (u : State) f =>
    let w := u.rd (rAVE_TRIG_FWD f)
    if fget w fAVE_TRIG_FWD_EN = 1 && fget w fAVE_TRIG_FWD_QUAL = q then
      u.aveTrigger (fget w fAVE_TRIG_FWD_AVENUE) (fget w fAVE_TRIG_FWD_SLOT)
        (t + u.fld (rAVE_TRIG_FWD_OFS f) fAVE_TRIG_FWD_OFS_OFFSET * 65536)
    else u) s

/-- A write to AVE_TRIG_SEND (R481). -/
def State.wrTrigSend (v : Word) (s : State) : State :=
  let s1 := s.wrCodes rAVE_TRIG_SEND v [fAVE_TRIG_SEND_GO]
  if fget v fAVE_TRIG_SEND_GO = 1 then
    s1.aveTrigger (fget v fAVE_TRIG_SEND_AVENUE) (fget v fAVE_TRIG_SEND_SLOT)
      ((s1.rd rAVE_TRIG_SEND_TIME).toNat * 65536 + fget v fAVE_TRIG_SEND_FRAC)
  else s1

end Sys2Proof.Machine
end

