-- ==== Sys2Proof/Machine/Trg.lean ====
section
/-! DEFINITION. Trigger sources, level triggers, mask units, the trigger bus, and qualifiers (R256 to R278). -/

namespace Sys2Proof.Machine

def tq0 : Tq := ⟨[], [], [], [], 0, none, 0, 0, false, []⟩
def lt0 : Lt := ⟨[], none, false, false, none, none, false, none⟩
def fm0 : Fm := ⟨false, 0, false⟩
def bus0 : Bus := ⟨false, false, []⟩

/-- Qualifier `q`. -/
def State.tqU (s : State) (q : Nat) : Tq := SMap.get tq0 s.tq q
/-- Qualifier `q` changed. -/
def State.updTq (s : State) (q : Nat) (f : Tq → Tq) : State := { s with tq := SMap.upd tq0 s.tq q f }
/-- Level trigger `i`. -/
def State.ltU (s : State) (i : Nat) : Lt := SMap.get lt0 s.lt i
/-- Level trigger `i` changed. -/
def State.updLt (s : State) (i : Nat) (f : Lt → Lt) : State := { s with lt := SMap.upd lt0 s.lt i f }
/-- Mask unit `u`. -/
def State.fmU (s : State) (u : Nat) : Fm := SMap.get fm0 s.fm u
/-- Mask unit `u` changed. -/
def State.updFm (s : State) (u : Nat) (f : Fm → Fm) : State := { s with fm := SMap.upd fm0 s.fm u f }
/-- Trigger-bus line `l`. -/
def State.busL (s : State) (l : Nat) : Bus := SMap.get bus0 s.bus l
/-- Trigger-bus line `l` changed. -/
def State.updBus (s : State) (l : Nat) (f : Bus → Bus) : State := s.onBus fun _ => SMap.upd bus0 s.bus l f
/-- Does the device pull line `l` low now (R261)? -/
def State.busDriven (s : State) (l : Nat) : Bool := (s.busL l).drv.any fun p => p.1 ≤ s.time && s.time < p.2
/-- Is line `l` high now (TRG_TBUS.LEVEL)? -/
def State.busIsHigh (s : State) (l : Nat) : Bool := !(s.busL l).ext && !s.busDriven l

/-! ### The values of a qualifier -/

/-- The six shadowed words of qualifier `q` in force: CFG, SETA, SETB, CHAIN, TIMING, AUTO. -/
def State.tqNow (s : State) (q : Nat) : List Word :=
  [s.actv (rTRG_TQ_CFG q), s.actv (rTRG_TQ_SETA q), s.actv (rTRG_TQ_SETB q), s.actv (rTRG_TQ_CHAIN q),
    s.actv (rTRG_TQ_TIMING q), s.actv (rTRG_TQ_AUTO q)]

def cfgW (c : List Word) : Word := c.getD 0 0
def timW (c : List Word) : Word := c.getD 4 0
def autoW (c : List Word) : Word := c.getD 5 0

/-- Is source `src` (64 + j for qualifier j) in SET_A, or in SET_B? -/
def inSetA (c : List Word) (src : Nat) : Bool :=
  if src < 64 then (c.getD 1 0).toNat / 2 ^ src % 2 == 1 else fget (c.getD 3 0) fTRG_TQ_CHAIN_A / 2 ^ (src - 64) % 2 == 1
def inSetB (c : List Word) (src : Nat) : Bool :=
  if src < 64 then (c.getD 2 0).toNat / 2 ^ src % 2 == 1 else fget (c.getD 3 0) fTRG_TQ_CHAIN_B / 2 ^ (src - 64) % 2 == 1

/-- The sources selected in SET_A. -/
def setASources (c : List Word) : List Nat := (upTo 80).filter (inSetA c)

/-- EFF_LAG of qualifier `q` (R268). -/
def State.effLag (s : State) (q : Nat) : Nat := s.fld (rTRG_TQ_EFF q) fTRG_TQ_EFF_EFF_LAG

/-- Is qualifier `q` ARMED? -/
def State.armed (s : State) (q : Nat) : Bool := s.flag (rTRG_TQ_CFG q) fTRG_TQ_CFG_STATE

/-! ### Latencies (R259) -/

/-- The latency of source `src` (Table 12-2). -/
def State.srcLatency (s : State) (src : Nat) : Nat :=
  if src < 4 || (36 ≤ src && src < 44) then 30
  else if src < 12 then 8
  else if src < 20 then
    match s.activePlan with
    | some p =>
      let sq := 36 + (src - 12)
      match p.srcOf sq, p.unit? sq with
      | some from_, some _ =>
        let (a, b) := p.spacing from_ sq
        s.pathLatency p 10 sq + 16 + ceilDiv (s.afld (rTRG_LT_CFG (src - 12)) fTRG_LT_CFG_MIN_WIDTH * a) b
      | _, _ => 0
    | none => 0
  else if src < 24 then
    match s.activePlan with
    | some p =>
      let sq := 44 + (src - 20)
      match p.srcOf sq, p.unit? sq with
      | some tp, some _ =>
        let (a, b) := p.spacing ((p.srcOf tp).getD 0) tp
        let n := p.word tp 0 % 32 + p.word tp 0 / 32 % 4
        ceilDiv ((2 ^ n - 1) * a) (2 * b) + s.pathLatency p 10 tp + s.unitLatency p tp + p.binsInto sq / 16 + 16
      | _, _ => 0
    | none => 0
  else if src < 36 then ceilDiv (4 * s.tickFs + s.monResponse (src - 24)) s.tickFs
  else if src < 60 then 0
  else 2

/-- Latencies and EFF_LAG are computed again, at a plan commit and at a parameter commit (R259, R268). -/
def State.trgRelat (s : State) : State :=
  let s1 := (upTo 64).foldl (fun t k => t.setFld (rTRG_SRC k) fTRG_SRC_LATENCY (t.srcLatency k)) s
  (upTo 16).foldl (fun t q =>
    let c := t.tqNow q
    let lag := (upTo 80).foldl (fun m k =>
      if inSetA c k || inSetB c k then
        max m (if k < 64 then t.fld (rTRG_SRC k) fTRG_SRC_LATENCY else t.effLag (k - 64) + 1)
      else m) (fget (autoW c) fTRG_TQ_AUTO_LAG)
    t.setFld (rTRG_TQ_EFF q) fTRG_TQ_EFF_EFF_LAG lag) s1

/-! ### Source events (R257) -/

/-- An event of source `e.src` is issued: it is counted, and the message goes to every qualifier that selects it. -/
def State.trgIssue (s : State) (e : TrgEv) : State :=
  let s1 := if e.src < 64 then s.addMod (rTRG_SRC e.src) fTRG_SRC_EVENTS 1 else s
  (upTo 16).foldl (fun t q =>
    if inSetA (t.tqNow q) e.src || inSetB (t.tqNow q) e.src then
      t.updTq q fun x => { x with inbox := x.inbox ++ [e] }
    else t) s1

/-- An edge of TDC channel `c` was stamped at `t` (1/512 tick): channels 8 to 11 are sources 0 to 3, channels 0 to 7 are
sources 36 to 43 (Table 12-1). -/
def State.trgTdc (s : State) (c t : Nat) (loss : Bool) (stamp : Word) : State :=
  s.trgIssue ⟨t * 128, if 8 ≤ c then c - 8 else 36 + c, 1, loss, false, stamp.toNat⟩

/-- The latch of monitor `m` rises (Table 12-1). -/
def State.trgMon (s : State) (m : Nat) : State :=
  s.trgIssue ⟨tick16 ((s.time * s.tickFs - s.monResponse m) / s.tickFs), 24 + m, 4, false, false, 0⟩

/-- A scheduled start of generator `g`'s active level at device time `t`. -/
def State.trgPg (s : State) (g t : Nat) : State := s.trgIssue ⟨tick16 t, 44 + g, 0, false, false, 0⟩

/-- A write to TRG_SW: each bit issues an event of a software source (R257). -/
def State.wrTrgSw (v : Word) (s : State) : State :=
  (upTo 4).foldl (fun t i => if v.toNat / 2 ^ i % 2 = 1 then t.trgIssue ⟨tick16 t.time, 60 + i, 4, false, false, 0⟩ else t) s

/-- Trigger timer `t` reaches START + k × PERIOD (R257). -/
def State.trgTimer (s : State) (t : Nat) : State :=
  let c := s.actv (rTRG_TMR_CFG t)
  if fget c fTRG_TMR_CFG_EN = 1 then
    let k := SMap.get 0 s.tmr t
    let at_ := (s.actv (rTRG_TMR_START t)).toNat + k * fget c fTRG_TMR_CFG_PERIOD
    ((s.reach at_).onTmr fun _ => SMap.set 0 s.tmr t (k + 1)).trgIssue ⟨tick16 at_, 56 + t, 0, false, false, 0⟩
  else s

/-! ### The trigger bus (R260, R261) -/

/-- Line `l` has been low for four samples from device time `t` on, after it was high (R260). -/
def State.busEvent (s : State) (l t : Nat) : State :=
  if (s.busL l).low then s
  else
    let s1 := s.reach (t + 3)
    (s1.updBus l fun b => { b with low := true, ext := b.ext || !b.drv.any fun p => p.1 ≤ t && t + 3 < p.2 }).trgIssue
      ⟨tick16 (t - 3), 4 + l, 4, false, false, 0⟩

/-- The drive pulse of line `l` ends (R261). -/
def State.busPulseEnd (s : State) (l : Nat) : State :=
  match (s.busL l).drv with
  | (_, t) :: rest => (s.reach t).updBus l fun b => { b with drv := rest, low := b.low && b.ext }
  | [] => s

/-- Line `l` returns high (R260). -/
def State.busHigh (s : State) (l : Nat) : State :=
  s.updBus l fun b => { b with ext := false, low := b.low && s.busDriven l }

/-- A drive pulse from tick `a` to tick `e` joins the pulses of a line, latest last: one that falls inside the last extends it. -/
def addPulse (a e : Nat) : List (Nat × Nat) → List (Nat × Nat)
  | [] => [(a, e)]
  | [p] => if a ≤ p.2 then [(p.1, max p.2 e)] else [p, (a, e)]
  | p :: l => p :: addPulse a e l

/-- A decision of qualifier `q` at device time now pulls the lines it is bound to from two ticks later on (R261). -/
def State.busDrive (s : State) (q : Nat) : State :=
  (upTo 8).foldl (fun t l =>
    if t.flag (rTRG_TBUS l) fTRG_TBUS_EN && t.fld (rTRG_TBUS l) fTRG_TBUS_SRC = q then
      t.updBus l fun b => { b with drv := addPulse (t.time + 2) (t.time + 2 + t.fld (rTRG_TBUS l) fTRG_TBUS_WIDTH) b.drv }
    else t) s

/-! ### Decisions (R270 to R272, R274) -/

/-- The words of the log entry of a decision of qualifier `q` placed at `pl` (Table 12-6): SOURCE, PREC, LATE_EV and DETAIL are those of
the deciding event `e`. -/
def logWords (q pl : Nat) (e : TrgEv) (forced free loss : Bool) (now : Nat) : List Nat :=
  [timeOf pl,
    pl % 65536 + e.src * 2 ^ 16 + e.prec % 8 * 2 ^ 24 + q * 2 ^ 28 + b2n forced * 2 ^ 32 + b2n free * 2 ^ 33
      + b2n loss * 2 ^ 35 + b2n e.late * 2 ^ 36 + 2 ^ 63,
    now, e.detail]

/-- Qualifier `q` is DISARMED: it judges nothing and holds nothing (R271). -/
def State.tqDisarm (s : State) (q : Nat) : State :=
  (s.setFld (rTRG_TQ_CFG q) fTRG_TQ_CFG_STATE 0).updTq q fun x => { x with held := [], memo := [], bs := [] }

/-- A decision of qualifier `q` placed at `pl` is issued for the deciding event `e` (R271, R272). -/
def State.tqDecide (s : State) (q mode pl : Nat) (e : TrgEv) (forced free : Bool) : State :=
  let loss := (s.tqU q).loss
  let ws := logWords q pl e forced free loss s.time
  let s1 := ((s.wr (rTRG_TQ_LAST_TIME q) (BitVec.ofNat 64 (ws.getD 0 0))).wr (rTRG_TQ_LAST_INFO q)
    (BitVec.ofNat 64 (ws.getD 1 0))).addMod (rTRG_TQ_SNAP q) fTRG_TQ_SNAP_SEQ 1
  let s2 := (s1.addMod (rTRG_TQ_COUNT q) fTRG_TQ_COUNT_FIRED 1).addMod (rTRG_TQ_COUNT q) fTRG_TQ_COUNT_FORCED (b2n forced)
  let s3 := (s2.updTq q fun x => { x with loss := false, prev := some pl, base := max x.base pl }).raiseLim 1000 (320 + q)
  let s4 := (upTo 8).foldl (fun t n =>
    if t.afld (rACQ_CTRL n) fACQ_CTRL_QUAL = q then
      t.onDecs fun _ => SMap.upd [] t.decs n (· ++ [⟨pl, forced, ws⟩])
    else t) s3
  let s5 := ((s4.busDrive q).trigForward q pl).trgIssue ⟨pl, 64 + q, e.prec, loss, false, 0⟩
  if mode = 2 then s5.tqDisarm q else s5

/-- A qualified event, placed at `pl` and decided by `e`, meets the holdoff and the count (R270). -/
def State.tqQualify (s : State) (q : Nat) (c : List Word) (pl : Nat) (e : TrgEv) : State :=
  let hold := fget (timW c) fTRG_TQ_TIMING_HOLDOFF
  let x := s.tqU q
  let off : Bool := match x.prev with
    | some t => pl < t + tick16 hold
    | none => false
  if off then s.addSat (rTRG_TQ_STAT q) fTRG_TQ_STAT_HELD_OFF 1
  else if x.count + 1 < fget (cfgW c) fTRG_TQ_CFG_COUNT_N then s.updTq q fun x => { x with count := x.count + 1 }
  else (s.updTq q fun x => { x with count := 0 }).tqDecide q (fget (cfgW c) fTRG_TQ_CFG_MODE) pl e false false

/-- Is one event judged before another: by placement, then by source? -/
def evBefore (a b : TrgEv) : Bool := a.t < b.t || (a.t == b.t && a.src < b.src)

/-- Puts an event into the held ones, in the order of judgement. -/
def evInsert (e : TrgEv) : List TrgEv → List TrgEv
  | [] => [e]
  | x :: l => if evBefore e x then e :: x :: l else x :: evInsert e l

/-- The values under which qualifier `q` judges an event placed at `t`, and the span of placements that share them (R273). -/
def State.tqValues (s : State) (q t : Nat) : List Word × Nat × Option Nat :=
  let old := (s.tqU q).old
  match (old.filter fun b => t < b.1).getLast? with
  | some b => (b.2, ((old.find? fun b => b.1 ≤ t).map (·.1)).getD 0, some b.1)
  | none => (s.tqNow q, (old.head?.map (·.1)).getD 0, none)

/-- What SET_A's events of an ALL qualifier come to with event `e` (R269): the events kept, which lie within WINDOW of the latest, and the
placement of the qualified event when `e` completes one from every source `srcs`: the latest of them. -/
def allJudge (srcs : List Nat) (w : Nat) (memo : List TrgEv) (e : TrgEv) : List TrgEv × Option Nat :=
  let l := evInsert e memo
  let top := l.foldl (fun m x => max m x.t) 0
  let kept := l.filter fun x => top ≤ x.t + w
  if kept.contains e && srcs.all fun k => kept.any fun x => x.src == k then ([], some top) else (kept, none)

/-- Qualifier `q` judges event `e` (R269). What its function has kept from placements with other values does not count (R273). -/
def State.tqJudge (s : State) (q : Nat) (e : TrgEv) : State :=
  let (c, lo, hi) := s.tqValues q e.t
  let mine := fun (t : Nat) => decide (lo ≤ t) && (hi.map fun h => decide (t < h)).getD true
  let x := s.tqU q
  let memo := x.memo.filter fun y => mine y.t
  let rest := x.memo.filter fun y => !mine y.t
  let keep := fun (t : State) (l : List TrgEv) => t.updTq q fun y => { y with memo := l ++ rest }
  let w := tick16 (fget (timW c) fTRG_TQ_TIMING_WINDOW)
  let a := inSetA c e.src
  let b := inSetB c e.src
  match fget (cfgW c) fTRG_TQ_CFG_FUNC with
  | 0 => if a then s.tqQualify q c e.t e else s
  | 1 =>
    if a then
      match allJudge (setASources c) w memo e with
      | (l, some pl) => (keep s l).tqQualify q c pl e
      | (l, none) => keep s l
    else s
  | 2 =>
    let s2 := match b, memo.getLast? with
      | true, some y =>
        if y.t ≤ e.t && e.t ≤ y.t + w then
          (keep s []).tqQualify q c (if fget (cfgW c) fTRG_TQ_CFG_PLACE_A = 1 then y.t else e.t) e
        else s
      | _, _ => s
    let later := (s2.tqU q).memo.any fun y => mine y.t && e.t < y.t
    if a && s2.armed q && !later then keep s2 [e] else s2
  | _ =>
    let s2 := if b then (keep s (memo.filter fun y => !(y.t ≤ e.t && e.t ≤ y.t + w))).updTq q fun y =>
        { y with bs := (e.t :: y.bs).take 64 }
      else s
    if a && !((s2.tqU q).bs.any fun t => mine t && e.t ≤ t && t ≤ e.t + w) then
      s2.updTq q fun y => { y with memo := y.memo ++ [e] }
    else s2

/-- MODE of qualifier `q` in force. -/
def State.tqMode (s : State) (q : Nat) : Nat := fget (cfgW (s.tqNow q)) fTRG_TQ_CFG_MODE

/-- A source event reaches qualifier `q`: it is held, judged at once when its horizon has passed, or dropped on a full
store (R268). A DISARMED qualifier and one in FREE_RUN take nothing (R271). -/
def State.tqArrive (s : State) (q : Nat) : State :=
  match (s.tqU q).inbox with
  | [] => s
  | e :: rest =>
    let s1 := s.updTq q fun x => { x with inbox := rest }
    if !s.armed q || s.tqMode q = 3 then s1
    else
      let s2 := if e.loss then s1.updTq q fun x => { x with loss := true } else s1
      if e.t + tick16 (s.effLag q) < s.now16 then
        ((s2.addSat (rTRG_TQ_STAT q) fTRG_TQ_STAT_LATE_EV 1).raise 336).tqJudge q { e with late := true }
      else if 64 ≤ (s2.tqU q).held.length + (s2.tqU q).memo.length then
        ((s2.addSat (rTRG_TQ_STAT q) fTRG_TQ_STAT_Q_DROP 1).updTq q fun x => { x with loss := true }).raise 337
      else s2.updTq q fun x => { x with held := evInsert e x.held }

/-- An A of SEQ_NOT whose window passed without a B qualifies at the horizon of t_A + WINDOW. -/
def State.tqNotDue (s : State) (q : Nat) (c : List Word) (e : TrgEv) : State :=
  ((s.reach (ceilDiv e.t 65536 + fget (timW c) fTRG_TQ_TIMING_WINDOW + s.effLag q)).updTq q fun x =>
    { x with memo := x.memo.filter (· != e) }).tqQualify q c e.t e

/-- The A of a SEQ_NOT qualifier that waits for the end of its window, and the values that hold for it. -/
def State.tqWaits (s : State) (q : Nat) : Option (TrgEv × List Word) :=
  (s.tqU q).memo.findSome? fun e =>
    let c := (s.tqValues q e.t).1
    if fget (cfgW c) fTRG_TQ_CFG_FUNC = 3 then some (e, c) else none

/-- Device time reaches the next horizon of qualifier `q`, and the event is judged (R268, R269). -/
def State.tqHorizon (s : State) (q : Nat) : State :=
  if !s.armed q then s
  else
    let judge := fun (e : TrgEv) =>
      ((s.reach (timeOf e.t + s.effLag q)).updTq q fun y => { y with held := y.held.drop 1 }).tqJudge q e
    match (s.tqU q).held.head?, s.tqWaits q with
    | some e, some (a, c) =>
      if e.t ≤ a.t + tick16 (fget (timW c) fTRG_TQ_TIMING_WINDOW) then judge e else s.tqNotDue q c a
    | some e, none => judge e
    | none, some (a, c) => s.tqNotDue q c a
    | none, none => s

/-- No decision has been placed within TIMEOUT in AUTO mode: one is forced, placed at that instant; every event placed
before it has been judged by then (R268, R271). -/
def State.tqAuto (s : State) (q : Nat) : State :=
  if s.armed q && s.tqMode q = 1 then
    let c := s.tqNow q
    let t := (s.tqU q).base + tick16 (fget (autoW c) fTRG_TQ_AUTO_TIMEOUT)
    let due := (s.tqU q).held.any fun e => e.t ≤ t
    if due then s
    else
      let (k, s1) := s.fresh
      (s1.reach (ceilDiv t 65536 + s.effLag q)).tqDecide q 1 t ⟨t, 127, Config.forcedPrec k, false, false, 0⟩ true false
  else s

/-- The next decision of FREE_RUN mode, at the arming + k × TIMEOUT (R271). -/
def State.tqFree (s : State) (q : Nat) : State :=
  if s.armed q && s.tqMode q = 3 then
    let x := s.tqU q
    let t := x.base + (x.k + 1) * tick16 (fget (autoW (s.tqNow q)) fTRG_TQ_AUTO_TIMEOUT)
    let (k, s1) := s.fresh
    let base := x.base
    ((s1.reach (timeOf t)).tqDecide q 3 t ⟨t, 127, Config.forcedPrec k, false, false, 0⟩ false true).updTq q
      fun y => { y with k := x.k + 1, base := base }
  else s

/-- A write of 1 to ARM (R271): the timers count from here. The holdoff and the count go on from before (R270). -/
def State.tqArm (s : State) (q : Nat) : State :=
  if s.armed q then s
  else (s.setFld (rTRG_TQ_CFG q) fTRG_TQ_CFG_STATE 1).updTq q fun x => { x with base := tick16 s.time, k := 0 }

/-- Qualifier `q` releases the events it holds: they are judged at once, in their order, under the values that hold for their placements, and
what its function keeps is let go (R273). DESIGN CHOICE (assumption 65): released means judged, since events placed before the boundary are
to be judged under the old values. -/
def State.tqFlush (s : State) (q : Nat) : State :=
  let s1 := (s.tqU q).held.foldl (fun (t : State) e =>
    if t.armed q then (t.updTq q fun y => { y with held := y.held.drop 1 }).tqJudge q e else t) s
  s1.updTq q fun x => { x with memo := [], bs := [] }

/-- The holdoff, the AUTO timer and FREE_RUN of qualifier `q` restart at the present boundary (R273). -/
def State.tqTimers (s : State) (q : Nat) : State :=
  s.updTq q fun x => { x with prev := none, base := tick16 s.time, k := 0 }

/-- A parameter commit changed qualifier `q`, whose values were `c` (R273): its held events are released under them, and the count, the
holdoff and the timers restart; an event that arrives later and is placed before the boundary is still judged under them. -/
def State.tqRelease (s : State) (q : Nat) (c : List Word) : State :=
  let s1 := (s.updTq q fun x => { x with old := (tick16 s.time, c) :: x.old }).tqFlush q
  (s1.tqTimers q).updTq q fun x => { x with count := 0 }

/-! ### Level triggers (R262 to R264) -/

/-- The value a level trigger or an RMU lane compares, in 24-bit scale: `power` gives (I² + Q²) >> 23. -/
def ltValue (signal : Nat) (x : Smp) : Int :=
  let sc : Int := if x.fmt = 2 then 1 else 256
  match signal with
  | 0 => x.i * sc
  | 1 => x.q * sc
  | _ => ((x.i * sc) * (x.i * sc) + (x.q * sc) * (x.q * sc)) / 2 ^ 23

/-- The placement of a crossing of `level` between two samples (R263). Where the sample before is lost, or equal to the crossing sample,
the fraction is `other`. -/
def crossAt (level : Int) (t0 : Nat) (y0 : Option Int) (t1 : Nat) (x1 : Int) (other : Nat) : Nat :=
  let fr : Int := match y0 with
    | some x0 => if x1 = x0 then ((other % 256 : Nat) : Int) else (256 * (level - x0)).fdiv (x1 - x0)
    | none => ((other % 256 : Nat) : Int)
  let f := (max 0 (min 255 fr)).toNat
  t0 + f * (t1 - t0) / 256

/-- Source 12 + i issues an event unless its DCLK has one already (R264). -/
def State.ltIssue (s : State) (i : Nat) (cyc : Nat) (e : TrgEv) : State × Bool :=
  let x := s.ltU i
  if x.last = some cyc then
    ((s.addSat (rTRG_LT_STAT i) fTRG_LT_STAT_EXCESS 1).raiseLim 1000 338 none 0 0 i, false)
  else
    (((s.updLt i fun x => { x with last := some cyc, loss := false }).addMod (rTRG_LT_STAT i) fTRG_LT_STAT_TRIGGERS 1).trgIssue
      { e with loss := x.loss }, true)

/-- One direction of a level trigger meets a sample: re-arming, crossing and MIN_WIDTH (R262). `beyond` and `back` say
whether a value is at or beyond the level, and far enough back to arm. -/
def dirStep (beyond back : Int → Bool) (minw : Nat) (arm : Bool) (pend : Option (TrgEv × Nat)) (v : Int)
    (ev : Option TrgEv) : Bool × Option (TrgEv × Nat) × Option TrgEv :=
  -- a crossing that waits for MIN_WIDTH
  let (pend1, out1) := match pend with
    | some (e, n) =>
      if !beyond v then (none, none) else if n ≤ 1 then (none, some e) else (some (e, n - 1), none)
    | none => (none, none)
  -- a crossing at this sample
  let (arm2, pend2, out2) := match ev with
    | some e => if arm && beyond v then (false, (if minw = 0 then pend1 else some (e, minw)), (if minw = 0 then some e else out1))
        else (arm, pend1, out1)
    | none => (arm, pend1, out1)
  (arm2 || back v, pend2, out2)

/-- Level trigger `i` meets one sample; whether it issued an event. -/
def State.ltSample (s : State) (i : Nat) (x : Smp) : State × Bool :=
  if !x.ok then (s.updLt i fun l => { l with loss := true, prev := some (x.t, none) }, false)
  else
    let c := s.actv (rTRG_LT_CFG i)
    let lv := s.actv (rTRG_LT_LEVEL i)
    let level := fgetS lv fTRG_LT_LEVEL_LEVEL
    let hyst : Int := (fget lv fTRG_LT_LEVEL_HYST : Nat)
    let v := ltValue (fget c fTRG_LT_CFG_SIGNAL) x
    let l := s.ltU i
    let cond := fget c fTRG_LT_CFG_COND
    let (k, s1) := s.fresh
    let ev := l.prev.map fun p =>
      (⟨crossAt level p.1 p.2 x.t v (Config.crossOpen k), 12 + i, 2, false, false, (v % 2 ^ 32).toNat⟩ : TrgEv)
    let minw := fget c fTRG_LT_CFG_MIN_WIDTH
    let (ar, pr, o1) := dirStep (level ≤ ·) (· ≤ level - hyst) minw l.armR l.pendR v (if cond = 1 then none else ev)
    let (af, pf, o2) := dirStep (· ≤ level) (level + hyst ≤ ·) minw l.armF l.pendF v (if cond = 0 then none else ev)
    let s2 := s1.updLt i fun l => { l with prev := some (x.t, some v), armR := ar, armF := af, pendR := pr, pendF := pf }
    let fire := fun (t : State × Bool) (o : Option TrgEv) => match o with
      | some e => let (t1, b) := t.1.ltIssue i (timeOf x.t) e; (t1, t.2 || b)
      | none => t
    fire (fire (s2, false) o1) o2

/-- Level trigger `i` takes the samples that wait for it up to the next event. -/
def State.ltRun : Nat → State → Nat → State
  | 0, s, _ => s
  | n + 1, s, i =>
    match (s.ltU i).queue with
    | [] => s
    | x :: rest =>
      let (s1, fired) := (s.updLt i fun l => { l with queue := rest }).ltSample i x
      if fired then s1 else State.ltRun n s1 i

/-- The compared value of level trigger `i` crosses its level among the samples that have arrived, and an event is issued
(R262 to R264). -/
def State.ltCrossing (s : State) (i : Nat) : State := State.ltRun (s.ltU i).queue.length s i

/-- Level trigger `i` takes samples from its street; an idle or disabled unit lets them pass. -/
def State.ltTake (s : State) (i : Nat) (xs : List Smp) : State :=
  if s.used (36 + i) && fget (s.actv (rTRG_LT_CFG i)) fTRG_LT_CFG_EN = 1 then
    s.updLt i fun l => { l with queue := l.queue ++ xs }
  else s

/-! ### Mask units (R265, R266) -/

/-- The segment of mask unit `u` that covers delivered bin `b`. -/
def State.fmSegment (s : State) (u nseg b : Nat) : Option Nat :=
  let start := fun k => fget (s.actv (rTRG_FM_SEG u k)) fTRG_FM_SEG_START
  (upTo nseg).find? fun k =>
    start k ≤ b && (k + 1 = nseg || b < start (k + 1)) && (k = 0 || start (k - 1) < start k)

/-- The violating bins of a frame with their levels (R265). -/
def State.fmViolations (s : State) (u : Nat) (f : Frm) : List (Nat × Int) × State :=
  let c := s.actv (rTRG_FM_CFG u)
  let flat := if fget c fTRG_FM_CFG_FLAT = 1 then s.flatTable (fget c fTRG_FM_CFG_SRC - 24) else []
  let (k, s1) := s.fresh
  let ps := framePowers f flat (Config.powerOpen k)
  (ps.zipIdx.filterMap fun e =>
    let (a, b) := e.1.frac
    let l : Int := if a = 0 then -32768 else levelFloor a b
    match s.fmSegment u (fget c fTRG_FM_CFG_NSEG) e.2 with
    | some k =>
      let g := s.actv (rTRG_FM_SEG u k)
      let up := fgetS g fTRG_FM_SEG_UPPER
      let lo := fgetS g fTRG_FM_SEG_LOWER
      if (up < l && up != 32767) || (l < lo && lo != -32768) then some (e.2, l) else none
    | none => none, s1)

/-- Mask unit `u` tests its next frame (R266). -/
def State.fmFrame (s : State) (u : Nat) : State :=
  match s.framesAt (44 + u) with
  | [] => s
  | f :: _ =>
    let s1 := s.popFrame (44 + u)
    let c := s.actv (rTRG_FM_CFG u)
    if fget c fTRG_FM_CFG_EN = 0 || !s1.used (44 + u) then s1
    else if f.lost then s1.updFm u fun m => { m with loss := true, was := m.was && m.era == f.era, era := f.era }
    else
      let (vs, s2) := s1.fmViolations u f
      let x := s2.fmU u
      let was := x.was && x.era == f.era
      let now := fget c fTRG_FM_CFG_MIN_BINS ≤ vs.length
      let s3 := s2.addMod (rTRG_FM_STAT u) fTRG_FM_STAT_QUALIFIED (b2n now)
      let s4 := s3.updFm u fun m => { m with was := now, era := f.era }
      let fire : Bool := match fget c fTRG_FM_CFG_COND with
        | 0 => now
        | 1 => now && !was
        | _ => was && !now
      if fire then
        let detail := match vs with
          | (b, l) :: _ => b + ofSigned 16 l * 2 ^ 32 + satN 16 vs.length * 2 ^ 48
          | [] => 0
        ((s4.updFm u fun m => { m with loss := false }).addMod (rTRG_FM_STAT u) fTRG_FM_STAT_TRIGGERS 1).trgIssue
          ⟨(f.t + f.tend) / 2, 20 + u, 3, x.loss, false, detail⟩
      else s4

/-! ### Writes (R271, R278) -/

/-- A write to TRG_TBUS[l]. -/
def State.wrTbus (l : Nat) (v : Word) (s : State) : State :=
  if fget v fTRG_TBUS_WIDTH = 0 then s else s.wrCodes (rTRG_TBUS l) v []

/-- A write to TRG_TMR_CFG[t]. -/
def State.wrTmrCfg (t : Nat) (v : Word) (s : State) : State :=
  if fget v fTRG_TMR_CFG_PERIOD < 16 then s else s.wrCodes (rTRG_TMR_CFG t) v []

/-- A write to TRG_LT_CFG[i]. -/
def State.wrLtCfg (i : Nat) (v : Word) (s : State) : State :=
  if fget v fTRG_LT_CFG_SIGNAL = 3 || fget v fTRG_LT_CFG_COND = 3 then s else s.wrCodes (rTRG_LT_CFG i) v []

/-- A write to TRG_FM_CFG[u]. -/
def State.wrFmCfg (u : Nat) (v : Word) (s : State) : State :=
  let n := fget v fTRG_FM_CFG_NSEG
  if fget v fTRG_FM_CFG_COND = 3 || n = 0 || 512 < n || fget v fTRG_FM_CFG_MIN_BINS = 0 then s
  else s.wrCodes (rTRG_FM_CFG u) v []

/-- TIMEOUT is at least 16 in AUTO and FREE_RUN. -/
def timeoutOk (mode timeout : Nat) : Bool := !(mode == 1 || mode == 3) || 16 ≤ timeout

/-- A write to TRG_TQ_CFG[q]; ARM wins over DISARM (R271). -/
def State.wrTqCfg (q : Nat) (v : Word) (s : State) : State :=
  if fget v fTRG_TQ_CFG_COUNT_N = 0
      || !timeoutOk (fget v fTRG_TQ_CFG_MODE) (s.fld (rTRG_TQ_AUTO q) fTRG_TQ_AUTO_TIMEOUT) then s
  else
    let s1 := s.wrCodes (rTRG_TQ_CFG q) v [fTRG_TQ_CFG_ARM, fTRG_TQ_CFG_DISARM]
    if fget v fTRG_TQ_CFG_ARM = 1 then s1.tqArm q
    else if fget v fTRG_TQ_CFG_DISARM = 1 then s1.tqDisarm q
    else s1

/-- A write to TRG_TQ_CHAIN[q]: bits j of q and above must be 0. -/
def State.wrTqChain (q : Nat) (v : Word) (s : State) : State :=
  if 2 ^ q ≤ fget v fTRG_TQ_CHAIN_A || 2 ^ q ≤ fget v fTRG_TQ_CHAIN_B then s else s.wrCodes (rTRG_TQ_CHAIN q) v []

/-- A write to TRG_TQ_AUTO[q]. -/
def State.wrTqAuto (q : Nat) (v : Word) (s : State) : State :=
  if fget v fTRG_TQ_AUTO_LAG < 50
      || !timeoutOk (s.fld (rTRG_TQ_CFG q) fTRG_TQ_CFG_MODE) (fget v fTRG_TQ_AUTO_TIMEOUT) then s
  else s.wrCodes (rTRG_TQ_AUTO q) v []

/-- A write of 1 to TRG_TQ_SNAP[q].SNAP captures the last decision again. -/
def State.wrTqSnap (q : Nat) (v : Word) (s : State) : State :=
  if fget v fTRG_TQ_SNAP_SNAP = 1 then s.addMod (rTRG_TQ_SNAP q) fTRG_TQ_SNAP_SEQ 1 else s

/-! ### The parameter commit (R273, R278) -/

/-- The shadowed registers of the window in groups. -/
def State.trgCommitRegs (s : State) : State :=
  let s1 := (upTo 4).foldl (fun t k => (t.commitReg (rTRG_TMR_CFG k)).commitReg (rTRG_TMR_START k)) s
  let s2 := (upTo 8).foldl (fun t k => (t.commitReg (rTRG_LT_CFG k)).commitReg (rTRG_LT_LEVEL k)) s1
  let s3 := (upTo 4).foldl (fun t u =>
    (upTo 512).foldl (fun t k => t.commitReg (rTRG_FM_SEG u k)) (t.commitReg (rTRG_FM_CFG u))) s2
  (upTo 16).foldl (fun t q =>
    (([rTRG_TQ_CFG q, rTRG_TQ_SETA q, rTRG_TQ_SETB q, rTRG_TQ_CHAIN q, rTRG_TQ_TIMING q, rTRG_TQ_AUTO q]).foldl
      State.commitReg t)) s3

/-- What follows from new trigger values: `s` is the state before them, `s1` the state with them in force. A qualifier whose values change judges
what it holds under the old ones, a timer goes on from its new START, and a mask unit that was off begins anew (R273, R278). -/
def State.trgCommitted (s s1 : State) : State :=
  let mask := fun (w : Word) => fsets w [(fTRG_TQ_CFG_ARM, 0), (fTRG_TQ_CFG_DISARM, 0), (fTRG_TQ_CFG_STATE, 0)]
  let norm := fun (l : List Word) => mask (cfgW l) :: l.drop 1
  let s2 := (upTo 16).foldl (fun t q =>
    if norm (s.tqNow q) = norm (t.tqNow q) then t else t.tqRelease q (s.tqNow q)) s1
  let s3 := (upTo 4).foldl (fun t k =>
    if s.actv (rTRG_TMR_CFG k) = t.actv (rTRG_TMR_CFG k) && s.actv (rTRG_TMR_START k) = t.actv (rTRG_TMR_START k) then t
    else t.onTmr fun _ => SMap.set 0 t.tmr k (ceilDiv (t.time - (t.actv (rTRG_TMR_START k)).toNat)
      (max 1 (fget (t.actv (rTRG_TMR_CFG k)) fTRG_TMR_CFG_PERIOD)))) s2
  let s4 := (upTo 4).foldl (fun t u =>
    if fget (s.actv (rTRG_FM_CFG u)) fTRG_FM_CFG_EN = 0 then t.updFm u fun m => { m with was := false } else t) s3
  s4.trgRelat

/-- The parameter commit in the trigger units. -/
def State.trgParamCommit (s : State) : State := s.trgCommitted s.trgCommitRegs

/-- Every qualifier releases its events and restarts its timers (a datapath restart begins, a re-lock releases the dividers; R273). -/
def State.trgRestart (s : State) : State := (upTo 16).foldl (fun t q => (t.tqFlush q).tqTimers q) s

/-! ### Plan records (R275) -/

/-- Is the record of a level trigger or a mask unit valid? -/
def PlanImg.trgValid (p : PlanImg) (u : UnitRec) : Bool :=
  let sq := u.square
  match p.srcOf sq with
  | some src =>
    u.body.isEmpty && (if sq < 44 then src < 24 || isPort src else 24 ≤ src && src < 28 && (p.unit? src).isSome)
  | none => false

/-- TRG_LT_CFG.SRC and SRC_FMT, and TRG_FM_CFG.SRC, under a plan or under none. -/
def State.trgPlan (s : State) (p : Option PlanImg) : State :=
  let put := fun (t : State) a (l : List (Fld × Nat)) => (t.setFlds a l).setAct a (fsets (t.actv a) l)
  let src := fun sq => match p with
    | some p => if (p.unit? sq).isSome then (p.srcOf sq).getD 0 else 0
    | none => 0
  let fmt := fun sq => match p with
    | some p => if (p.unit? sq).isNone then 0 else p.fmtInto sq
    | none => 0
  let s1 := (upTo 8).foldl (fun t i =>
    put t (rTRG_LT_CFG i) [(fTRG_LT_CFG_SRC_FMT, fmt (36 + i)), (fTRG_LT_CFG_SRC, src (36 + i))]) s
  (upTo 4).foldl (fun t u => put t (rTRG_FM_CFG u) [(fTRG_FM_CFG_SRC, src (44 + u))]) s1

end Sys2Proof.Machine
end

