-- ==== Sys2Proof/Machine/Acq.lean ====
section
/-! DEFINITION. Acquisition units, reductions, and per-record measurement (R279 to R302, R338, R339). -/

namespace Sys2Proof.Machine

def au0 : Au := ⟨0, 0, [], none, 0, 0, [], [], none, none, 0, 0, [], 0, 0, false, 0, 0, 0, 0, 0, 0⟩

/-- Acquisition unit `n`. -/
def State.auU (s : State) (n : Nat) : Au := SMap.get au0 s.au n
/-- Acquisition unit `n` changed. -/
def State.updAu (s : State) (n : Nat) (f : Au → Au) : State := { s with au := SMap.upd au0 s.au n f }

/-- The square of unit `n`. -/
abbrev auSquare (n : Nat) : Nat := 48 + n

def State.auFmt (s : State) (n : Nat) : Nat := s.fld (rACQ_CFG n) fACQ_CFG_FMT
def State.auState (s : State) (n : Nat) : Nat := s.fld (rACQ_CMD n) fACQ_CMD_STATE
def State.setAuState (s : State) (n st : Nat) : State := s.setFld (rACQ_CMD n) fACQ_CMD_STATE st

/-- Bytes of a sample, by format (0 rs16, 1 cs16, 2 cs24). -/
def smpBytes (fmt : Nat) : Nat := if fmt = 0 then 2 else if fmt = 1 then 4 else 6

/-- Samples of a billet (R280). -/
def smpPerBillet (fmt : Nat) : Nat := 16384 / smpBytes fmt

/-- The bytes of a sample (R33). -/
def smpWord (fmt : Nat) (x : Smp) : List Byte :=
  if fmt = 0 then leBytes 2 (ofSigned 16 x.i)
  else if fmt = 1 then leBytes 2 (ofSigned 16 x.i) ++ leBytes 2 (ofSigned 16 x.q)
  else leBytes 6 (ofSigned 24 x.i + ofSigned 24 x.q * 2 ^ 24)

/-- The ring's capacity C_ring. -/
def State.auCap (s : State) (n : Nat) : Nat :=
  s.fld (rACQ_CFG n) fACQ_CFG_RING_BILLETS * smpPerBillet (s.auFmt n)

/-- The context of the unit's records. -/
def State.auCtx (s : State) (n : Nat) : Option Nat := ((s.routesFrom (auSquare n)).head?).bind (·.ctx)

/-- The unit's shadowed values in force. -/
def State.auMode (s : State) (n : Nat) : Nat := s.afld (rACQ_CTRL n) fACQ_CTRL_MODE
def State.auPre (s : State) (n : Nat) : Nat := s.afld (rACQ_LEN n) fACQ_LEN_PRE
def State.auPost (s : State) (n : Nat) : Nat := s.afld (rACQ_LEN n) fACQ_LEN_POST
def State.auNseg (s : State) (n : Nat) : Nat :=
  match s.auMode n with
  | 1 => 1
  | 2 => s.afld (rACQ_SEG n) fACQ_SEG_NSEG
  | _ => 1

/-! ### Measurement (R296 to R298) -/

/-- The value a lane measures, in 24-bit scale (R297). -/
def rmuValue (signal : Nat) (x : Smp) : Int :=
  let sc : Int := if x.fmt = 2 then 1 else 256
  match signal with
  | 0 => x.i * sc
  | 1 => x.q * sc
  | _ =>
    let v := ((x.i * sc) * (x.i * sc) + (x.q * sc) * (x.q * sc)).toNat
    let r := rootFloor v
    if r * r + r < v then r + 1 else r

/-- The crossings of a level: instants, oldest first, with `true` for rising (R297). -/
def crossings (level hyst : Int) (other : Nat) : List (Nat × Int) → Option (Nat × Int) → Bool → Bool → List (Nat × Bool)
  | [], _, _, _ => []
  | (t, v) :: l, prev, armR, armF =>
    let up := armR && level ≤ v
    let down := armF && v ≤ level
    let at_ := match prev with
      | some (t0, v0) => crossAt level t0 (some v0) t v other
      | none => t
    (if up then [(at_, true)] else []) ++ (if down then [(at_, false)] else [])
      ++ crossings level hyst other l (some (t, v)) ((armR && !up) || v ≤ level - hyst) ((armF && !down) || level + hyst ≤ v)

/-- The time from the first crossing of one kind to the next of another, if both are found. -/
def crossSpan (a b : List (Nat × Bool)) (da db : Bool) : Option Nat :=
  match a.find? (·.2 == da) with
  | none => none
  | some x => (b.find? fun y => y.2 == db && x.1 < y.1).map fun y => y.1 - x.1

/-- The 64-byte trailer of a record on a lane (Table 13-5): CFG, SIG and LEVEL of the lane, the samples, the tick in fs, and the
directions in which the quotients that the spec does not round are rounded. -/
def rmuTrailer (lane : Nat) (regs : List Word) (xs : List Smp) (tickFs : Nat) (up : Bool) (other : Nat) : List Byte :=
  let hyst : Int := (fget (regs.getD 0 0) fRMU_CFG_HYST : Nat)
  let sig := fget (regs.getD 1 0) fRMU_SIG_SIGNAL
  let lv := regs.getD 2 0
  let vs : List (Nat × Int) := xs.map fun x => (x.t, rmuValue sig x)
  let n := vs.length
  let mn : Int := vs.foldl (fun a (v : Nat × Int) => min a v.2) ((vs.head?.map (·.2)).getD 0)
  let mx : Int := vs.foldl (fun a (v : Nat × Int) => max a v.2) ((vs.head?.map (·.2)).getD 0)
  let sum : Int := vs.foldl (fun (a : Int) (v : Nat × Int) => a + v.2) 0
  let sq := (vs.foldl (fun (a : Int) (v : Nat × Int) => a + v.2 * v.2) 0).toNat
  let mean := if n = 0 then 0 else (2 * 256 * sum + n) / (2 * (n : Int))
  let rms := if n = 0 then 0 else rootFloor ((4 * 65536 * sq) / n)
  let cr := fun f => crossings (fgetS lv f * 256) hyst other vs none false false
  let lo := cr fRMU_LEVEL_LO
  let mid := cr fRMU_LEVEL_MID
  let hi := cr fRMU_LEVEL_HI
  let rising := mid.filter (·.2)
  let k := rising.length
  let span := ((rising.getLast?).map (·.1)).getD 0 - ((rising.head?).map (·.1)).getD 0
  let period := if k < 2 then 0 else span / (k - 1) + (if span % (k - 1) = 0 then 0 else b2n up)
  let fden := period * tickFs
  let fnum := 10 ^ 21 * 65536
  let freq := if fden = 0 then 0 else fnum / fden + (if fnum % fden = 0 then 0 else b2n up)
  let rise := crossSpan lo hi true true
  let fall := crossSpan hi lo false false
  let width := crossSpan mid mid true false
  let cap := fun (b : Nat) (v : Option Nat) => satN b (v.getD 0)
  let big := fun (b : Nat) (v : Option Nat) => 2 ^ b ≤ v.getD 0
  let valid := b2n (n != 0) + 2 + 4 * b2n (2 ≤ k) + 8 * b2n rise.isSome + 16 * b2n fall.isSome + 32 * b2n width.isSome
  leBytes 8 (ofSigned 32 mn + ofSigned 32 mx * 2 ^ 32)
    ++ leBytes 8 (ofSigned 32 mean + (rms + 1) / 2 % 2 ^ 32 * 2 ^ 32)
    ++ leBytes 8 ((mx - mn).toNat % 2 ^ 32 + satN 32 mid.length * 2 ^ 32)
    ++ leBytes 8 period ++ leBytes 8 freq
    ++ leBytes 8 (cap 32 rise + cap 32 fall * 2 ^ 32) ++ leBytes 8 (cap 64 width)
    ++ leBytes 8 (valid + b2n (big 32 rise || big 32 fall || big 64 width) * 2 ^ 6 + lane * 2 ^ 8)

/-- CFG, SIG and LEVEL of a lane in force. -/
def State.rmuRegs (s : State) (l : Nat) : List Word := [s.actv (rRMU_CFG l), s.actv (rRMU_SIG l), s.actv (rRMU_LEVEL l)]

/-! ### Reductions (R291 to R293) -/

/-- The words of one interval of component values `v` (R292, R293). -/
def reduceWords (red sel : Nat) (v : List Int) : List (Nat × Int) :=
  let n : Int := v.length
  let sum := v.foldl (· + ·) 0
  if red = 2 then [(4, (2 * 65536 * sum + n) / (2 * n))]
  else
    let mn := v.foldl min (v.headD 0)
    let mx := v.foldl max (v.headD 0)
    [(0, mn), (1, mx), (2, (sum + n / 2) / n), (3, v.headD 0)].filter fun e => sel / 2 ^ e.1 % 2 == 1

/-- The bytes of one interval: for a complex source each value is I then Q. -/
def reduceOne (red sel fmt : Nat) (xs : List Smp) : List Byte :=
  let w := fun (e : Nat × Int) => if e.1 = 4 then leBytes 4 (ofSigned 32 e.2) else leBytes 2 (ofSigned 16 e.2)
  let a := reduceWords red sel (xs.map (·.i))
  let b := reduceWords red sel (xs.map (·.q))
  if fmt = 0 then a.flatMap w else (a.zip b).flatMap fun e => w e.1 ++ w e.2

/-- The intervals of a record, `r` samples each. -/
def reduceAll (red sel fmt r : Nat) : Nat → List Smp → List (List Byte)
  | 0, _ => []
  | n + 1, xs => if xs.isEmpty then [] else reduceOne red sel fmt (xs.take r) :: reduceAll red sel fmt r n (xs.drop r)

/-! ### The ring (R280, R281, R338) -/

/-- The writer leaves billet `b` of a ring. -/
def State.ringLeave (s : State) (b : Nat) : State :=
  (s.setBillet b { s.billet b with writer := false }).settleBillet b

/-- The samples of an index range. -/
def Au.span (a : Au) (i j : Nat) : List Smp := (a.ring.drop (i - a.base)).take (j - i)

/-- Does a block hold samples of the record in progress? -/
def Au.inRecord (a : Au) (b : Nat) (x : AuSlot) : Bool :=
  match a.rec_ with
  | some r => x.blk * b + b > r.first && x.blk * b < r.t0 + r.post
  | none => false

/-- A fresh billet for the ring of unit `n` from its context `x`, as block `blk` (R280, R344). Where R344 gives none the context overflows
(R345): under OVERWRITE the oldest records make room; otherwise the sample that needs it is lost, since the ring cannot hold its input
back, under STALL too (DESIGN CHOICE, assumption 66). -/
def State.ringFresh (s : State) (n blk x : Nat) : State :=
  let add := fun (t : State) =>
    let (k, t1) := t.takeBillet x true
    t1.updAu n fun a => { a with slots := a.slots ++ [⟨blk, k, false⟩] }
  if 0 < s.canTake (s.ctx x) then add s
  else
    let anew := (((s.auU n).ring.getLast?).map (·.ok)).getD true
    let s1 := s.raiseLim 1000 641 (some x) 0 0 x
    let c := s1.ctx x
    let room := (c.tail.map fun e => billetBytes - e.2).getD 0
    let s2 := if c.policy = 2 then State.overwrite (c.recs.length + 1) s1 x (room + 1) else s1
    if 0 < s2.canTake (s2.ctx x) then add s2
    else (s2.loseItems x 1).updCtx x fun c => { c with overflow := satN 32 (c.overflow + b2n anew) }

/-- A billet for block `blk` of the ring of unit `n`: one the unit owns, the one whose position it is, or a fresh one from
the record context. -/
def State.ringBillet (s : State) (n blk : Nat) : State :=
  let a := s.auU n
  let b := smpPerBillet (s.auFmt n)
  let add := fun (t : State) (x : Nat) => t.updAu n fun a => { a with slots := a.slots ++ [⟨blk, x, false⟩] }
  let freshB := fun (t : State) => match t.auCtx n with
    | none => t
    | some x => t.ringFresh n blk x
  if a.slots.length < s.fld (rACQ_CFG n) fACQ_CFG_RING_BILLETS then
    match a.spare with
    | k :: rest => add (s.updAu n fun a => { a with spare := rest }) k
    | [] => freshB s
  else
    match a.slots with
    | [] => s
    | x :: rest =>
      let s1 := s.updAu n fun a => { a with slots := rest }
      if x.linked || a.inRecord b x then
        -- the writer leaves once the ring takes the replacement
        (freshB s1).ringLeave x.billet
      else add s1 x.billet

/-- One sample enters the ring of unit `n` (R280). -/
def State.ringPutSmp (s : State) (n : Nat) (x : Smp) : State :=
  let fmt := s.auFmt n
  let b := smpPerBillet fmt
  let i := (s.auU n).n
  let s1 := if (s.auU n).slots.any fun y => y.blk == i / b then s else s.ringBillet n (i / b)
  let place := (s1.auU n).slots.find? fun y => y.blk == i / b
  let s2 := match place with
    | some y => s1.storeWrite (y.billet * billetBytes + i % b * smpBytes fmt) (smpWord fmt x)
    | none => s1
  let ok := x.ok && place.isSome
  s2.updAu n fun a =>
    let keep := match a.rec_ with
      | some r => min r.first (i + 1 - s.auCap n)
      | none => i + 1 - s.auCap n
    let l := a.ring ++ [{ x with ok := ok }]
    { a with
      n := i + 1
      ring := l.drop (keep - a.base)
      gone := (((l.take (keep - a.base)).getLast?).map (·.t)).or a.gone
      base := max a.base keep
      start := if ok then a.start else i + 1 }

/-- The ring of unit `n` is empty from here on; its billets stay with the unit, but those a record lies in are left. -/
def State.ringEmpty (s : State) (n : Nat) : State :=
  let a := s.auU n
  let s1 := s.updAu n fun a =>
    { a with
      n := 0, base := 0, ring := [], gone := ((a.ring.getLast?).map (·.t)).or a.gone, start := 0, recEnd := 0, slots := []
      spare := a.spare ++ (a.slots.filter fun x => !x.linked).map (·.billet) }
  (a.slots.filter (·.linked)).foldl (fun t x => t.ringLeave x.billet) s1

/-! ### Records (R281, R283, R289, R294) -/

/-- The preamble of Table 13-2. -/
def State.auPreamble (s : State) (n : Nat) (r : AuRec) (count t0 : Nat) (trunc trailer : Bool) (lost : Nat) : List Byte :=
  let cfg := rACQ_CFG n
  let red := s.fld cfg fACQ_CFG_RED
  let seg2 := r.mode == 2
  leBytes 8 (count % 2 ^ 32 + (r.t0 - r.first) % 2 ^ 32 * 2 ^ 32)
    ++ leBytes 8 (((r.place : Int) - t0) % 2 ^ 64).toNat
    ++ leBytes 8 ((if seg2 then r.seg else 0) + (if seg2 then r.nseg else 1) * 2 ^ 16 + s.auFmt n * 2 ^ 32 + red * 2 ^ 34
        + s.fld cfg fACQ_CFG_SEL * 2 ^ 36 + (if red = 0 then 0 else s.fld cfg fACQ_CFG_RLOG2) * 2 ^ 40
        + b2n trunc * 2 ^ 45 + b2n trailer * 2 ^ 46)
    ++ leBytes 8 lost ++ r.entry.flatMap (leBytes 8)

/-- The extents of an index range in the ring's billets, one per billet (R338). -/
def Au.extents (a : Au) (fmt i j : Nat) : List Ext :=
  let b := smpPerBillet fmt
  (a.slots.filterMap fun x =>
    let lo := max i (x.blk * b)
    let hi := min j (x.blk * b + b)
    if lo < hi then some (⟨lo, x.billet, (lo - x.blk * b) * smpBytes fmt, (hi - lo) * smpBytes fmt⟩ : Ext) else none)

/-- The snapshot block of unit `n` is captured (R301). -/
def State.acqSnap (s : State) (n : Nat) : State :=
  let a := s.auU n
  (((s.addMod (rACQ_SNAP n) fACQ_SNAP_SEQ 1).wr (rACQ_COUNT0 n) (BitVec.ofNat 64 a.records)).setFlds (rACQ_COUNT1 n)
    [(fACQ_COUNT1_EARLY, a.early), (fACQ_COUNT1_MISSED, a.missed)]).setFlds (rACQ_COUNT2 n)
    [(fACQ_COUNT2_WR_DISC, a.wrDisc), (fACQ_COUNT2_STALE, a.stale), (fACQ_COUNT2_TRUNC, a.trunc)]

/-- A record of `n`'s output leaves for its store port, into context `x`. -/
def State.auEmit (s : State) (n : Nat) (x : Option Nat) (r : Prod) : State :=
  (s.routesFrom (auSquare n)).foldl (fun t rt =>
    (rt.dsts.filter isPort).foldl (fun t d =>
      t.sendPort rt d { r with ctx := x.getD (rt.ctx.getD 0) }) t) s

/-- The record in progress closes at sample index `e` (not included): complete, or truncated with TRUNC, and with GAP where
samples are lost: `lost` in its span, `more` of them not counted yet (R281, R288, R289, R291, R294, R338). A record under R338 takes
its extents out of the unit's set-aside (R339). -/
def State.auClose (s : State) (n e : Nat) (trunc gap : Bool) (lost more : Nat) : State :=
  let a := s.auU n
  match a.rec_ with
  | none => s
  | some r =>
    let cfg := rACQ_CFG n
    let fmt := s.auFmt n
    let red := s.fld cfg fACQ_CFG_RED
    let xs := a.span r.first e
    let first := ((xs.head?).map (·.t)).getD r.place
    let trailer := s.afld (rACQ_CTRL n) fACQ_CTRL_RMU_EN = 1
    let (k, s1) := s.fresh
    let tr := if trailer then rmuTrailer n r.rmu xs s.tickFs (Config.roundUp k) (Config.crossOpen k) else []
    let ivs := if red = 0 then [] else reduceAll red (s.fld cfg fACQ_CFG_SEL) fmt (2 ^ s.fld cfg fACQ_CFG_RLOG2) xs.length xs
    let exts := if red = 0 then a.extents fmt r.first e else []
    let fl := (xs.foldl (fun f x => f ||| x.fl) 0) % 65536 ||| (if r.t0 - r.first < r.pre then flShortPre else 0)
      ||| (if r.forced then flForced else 0) ||| (if gap then flGap else 0)
    let p : Prod := { prod0 with
      typ := if red = 0 then 0x30 else 0x31
      time := timeOf first
      fine := fineOf first
      flags := fl
      items := xs.length
      pre := s.auPreamble n r (if red = 0 then xs.length else ivs.length) first trunc trailer lost ++ ivs.flatten
      ring := exts
      post := tr }
    let s2 := s1.updAu n fun a =>
      { a with
        rec_ := none
        start := max a.start e
        recEnd := e
        last := some ⟨((xs.getLast?).map (·.t)).getD r.place, r.hold, r.mode, r.nseg⟩
        slots := a.slots.map fun x => if exts.any (fun y => y.billet == x.billet) then { x with linked := true } else x
        refill := a.refill || red == 0
        records := a.records + 1
        trunc := satN 32 (a.trunc + b2n trunc) }
    let s3 := if red = 0 then (s2.onAside fun _ => SMap.upd 0 s2.aside n (fun v => v - (exts.length + 2))) else s2
    let s4 := if trailer then s3.addMod (rRMU_CFG n) fRMU_CFG_RECORDS 1 else s3
    let s5 := if more = 0 then s4 else match s4.auCtx n with
      | some x => s4.loseItems x more
      | none => s4
    ((s5.auEmit n none p).addMod (rACQ_CMD n) fACQ_CMD_SEG 1 |>.setAuState n 4).acqSnap n

/-- Sample T0 + POST - 1 has arrived and the record closes (R281). -/
def State.auRecordClose (s : State) (n : Nat) : State :=
  match (s.auU n).rec_ with
  | some r => if r.t0 + r.post ≤ (s.auU n).n then s.auClose n (r.t0 + r.post) false false 0 0 else s
  | none => s

/-- Has the run of unit `n` closed its last segment, under the values its last record was taken with (R287, R290)? -/
def State.auRunDone (s : State) (n : Nat) : Bool :=
  (s.auU n).last.any fun l => l.mode == 1 || (l.mode == 2 && l.nseg ≤ s.fld (rACQ_CMD n) fACQ_CMD_SEG)

/-- HOLDOFF ticks after the last record sample have passed: the unit fills again, or is done (R284, R287). -/
def State.auHoldoffEnd (s : State) (n : Nat) : State :=
  if s.auState n = 4 then
    let l := (s.auU n).last.getD ⟨0, 0, 0, 0⟩
    let s1 := s.reach (ceilDiv l.t 65536 + l.hold)
    if s1.auRunDone n then (s1.setAuState n 5).raise (360 + n) else s1.setAuState n 1
  else s

/-- PRE samples have arrived (R284). -/
def State.auPreFilled (s : State) (n : Nat) : State :=
  if s.auState n = 1 && s.auPre n ≤ (s.auU n).n - (s.auU n).start then s.setAuState n 2 else s

/-! ### The log (R295) -/

/-- The log record of unit `n` closes: it leaves for LOG_CTX (R274, R295). -/
def State.logClose (s : State) (n : Nat) : State :=
  let a := s.auU n
  match a.log with
  | [] => s
  | e :: _ =>
    let p : Prod := { prod0 with
      typ := 0x50
      time := e.getD 0 0
      fine := e.getD 1 0 % 65536 / 128
      flags := a.logFl ||| s.holdFlag
      items := a.log.length
      pre := a.log.flatten.flatMap (leBytes 8) }
    (s.auEmit n (some (s.fld (rACQ_CFG n) fACQ_CFG_LOG_CTX)) p).updAu n fun a => { a with log := [], logFl := 0 }

/-- The log entries that unit `n` has gathered are lost to LOG_CTX (R41). -/
def State.auLogDrop (s : State) (n : Nat) : State :=
  let k := (s.auU n).log.length
  if k = 0 then s
  else (s.loseItems (s.fld (rACQ_CFG n) fACQ_CFG_LOG_CTX) k).updAu n fun a => { a with log := [], logFl := 0 }

/-- The entry of a judged decision enters the log; while HO_GAP is 1 it is invalid and lost (R49). -/
def State.logPut (s : State) (n : Nat) (ws : List Nat) (missed : Bool) : State :=
  if s.flag (rACQ_CFG n) fACQ_CFG_LOG_EN then
    if s.hoGap then s.loseItems (s.fld (rACQ_CFG n) fACQ_CFG_LOG_CTX) 1 else
    let w := ws.set 1 (ws.getD 1 0 + b2n missed * 2 ^ 34)
    let s1 := s.updAu n fun a => { a with log := a.log ++ [w], logAt := if a.log.isEmpty then s.time else a.logAt, logFl := a.logFl ||| s.holdFlag }
    if s1.afld (rACQ_LOG n) fACQ_LOG_LOG_MAX ≤ (s1.auU n).log.length then s1.logClose n else s1
  else s

/-- LOG_FLUSH_US after its first entry, a log record closes. -/
def State.logFlush (s : State) (n : Nat) : State :=
  if (s.auU n).log.isEmpty then s
  else (s.reach ((s.auU n).logAt + s.usTicks (s.afld (rACQ_LOG n) fACQ_LOG_FLUSH_US))).logClose n

/-! ### Decisions (R283 to R286) -/

/-- Why a decision is not accepted. -/
inductive Judged where
  | accept (t0 pre : Nat) | missed | early | stale
  deriving DecidableEq, Repr

/-- The trigger sample of a placement: the first sample whose instant lies at or after it; as far as the samples so far tell, when all of
them lie before it (R283). -/
def Au.trigger (a : Au) (t : Nat) : Nat := a.base + (a.ring.takeWhile fun x => x.t < t).length

/-- Has a sample at or after a placement arrived? -/
def Au.settled (a : Au) (t : Nat) : Bool := a.ring.any fun x => t ≤ x.t

/-- The samples available before index `t0`: those after the last record and after the last lost one before `t0` (R285, R289). -/
def Au.avail (a : Au) (t0 : Nat) : Nat :=
  let held := a.ring.take (t0 - a.base)
  let run := (held.reverse.takeWhile fun x => x.ok).length
  min (t0 - a.recEnd) (if run < held.length then run else t0)

/-- Judges a placement against the state the unit was in at that instant (R285, R286). -/
def State.auJudge (s : State) (n t : Nat) : Judged :=
  let a := s.auU n
  let t0 := a.trigger t
  let held : Bool := match a.last with
    | some l => t ≤ l.t || t < l.t + tick16 l.hold
    | none => false
  if s.auState n = 5 || t < a.armAt || a.rec_.isSome || held || a.refill then .missed
  else
    let pre := s.auPre n
    let av := a.avail t0
    if a.gone.any fun g => t ≤ g then .stale
    else if av < pre && s.afld (rACQ_CTRL n) fACQ_CTRL_POLICY = 1 then .early
    else if t0 - min pre av < a.base then .stale
    else .accept t0 (min pre av)

/-- The record just accepted by unit `n` closes at its last sample before a loss at or after T0 that has been seen (R289). -/
def State.auSeen (s : State) (n : Nat) : State :=
  let a := s.auU n
  match a.rec_ with
  | none => s
  | some r =>
    let l := a.span r.t0 (r.t0 + r.post)
    if l.all (·.ok) then s
    else
      let k := (l.takeWhile fun x => x.ok).length
      let lost := (l.filter fun x => !x.ok).length
      s.auClose n (r.t0 + k) true true lost lost

/-- Unit `n` as it is at placement `t`: a record whose samples have arrived is closed, and a holdoff that ends by then has ended. -/
def State.auCatchUp (s : State) (n t : Nat) : State :=
  let s1 := s.auRecordClose n
  if s1.auState n = 4 && (s1.auU n).last.any (fun l => l.t + tick16 l.hold ≤ t) then s1.auHoldoffEnd n else s1

/-- A decision of the unit's qualifier reaches unit `n` (R286). One whose trigger sample the samples so far do not tell waits while a record
is in progress; one placed before the unit left IDLE is neither logged nor counted, and one placed in the run before is missed. -/
def State.auDecision (s : State) (n : Nat) : State :=
  match SMap.get [] s.decs n with
  | [] => s
  | d :: rest =>
    let s1 := s.auCatchUp n d.t
    if (s1.auU n).rec_.isSome && !(s1.auU n).settled d.t then s1
    else
      let s0 := s1.onDecs fun _ => SMap.set [] s1.decs n rest
      if s0.auState n = 0 || d.t < (s0.auU n).since then s0
      else
        let miss := fun (t : State) =>
          (t.updAu n fun a => { a with missed := satN 32 (a.missed + 1) }).raiseLim 1000 (352 + n)
        match s0.auJudge n d.t with
        | .accept t0 pre =>
          let r : AuRec := ⟨t0, t0 - pre, s0.auPre n, s0.auPost n, s0.afld (rACQ_SEG n) fACQ_SEG_HOLDOFF, s0.auMode n,
            s0.fld (rACQ_CMD n) fACQ_CMD_SEG, s0.auNseg n, d.t, s0.time, d.words, d.forced, s0.rmuRegs n⟩
          (((s0.updAu n fun a => { a with rec_ := some r }).setAuState n 3).logPut n d.words false).auSeen n
        | .missed => (miss s0).logPut n d.words true
        | .early => (miss (s0.updAu n fun a => { a with early := satN 32 (a.early + 1) })).logPut n d.words true
        | .stale =>
          ((miss (s0.updAu n fun a => { a with stale := satN 16 (a.stale + 1) })).raiseLim 1000 (368 + n)).logPut n
            d.words true

/-- The Woodyard completes the refill of the extent set-aside (R339). -/
def State.auRefill (s : State) (n : Nat) : State :=
  let want := s.fld (rACQ_CFG n) fACQ_CFG_RING_BILLETS + 2
  let have_ := SMap.get 0 s.aside n
  if (s.auU n).refill && want - have_ ≤ s.extFree then
    State.extentLow s ((s.onAside fun _ => SMap.set 0 s.aside n (max want have_)).updAu n fun a => { a with refill := false })
  else s

/-! ### Runs (R287, R288) -/

/-- A write of 1 to ARM (R287). -/
def State.auArm (s : State) (n : Nat) : State :=
  let st := s.auState n
  if st = 0 || st = 5 then
    ((s.ringEmpty n).updAu n fun a =>
      { a with
        armAt := tick16 s.time, since := if st = 0 then tick16 s.time else a.since, gone := none, last := none }).setFlds (rACQ_CMD n)
      [(fACQ_CMD_SEG, 0), (fACQ_CMD_STATE, 1)]
  else s

/-- The record in progress of unit `n` closes at the samples it has: complete when all have arrived, otherwise truncated, and with GAP for a
loss (R288, R289). A record accepted in this DCLK closes with its samples before T0 when `now` says so. -/
def State.auCut (s : State) (n : Nat) (gap now : Bool) : State :=
  let a := s.auU n
  match a.rec_ with
  | some r =>
    if r.t0 + r.post ≤ a.n && !(now && r.at_ == s.time) then s.auClose n (r.t0 + r.post) false false 0 0
    else
      let e := if now && r.at_ == s.time then r.t0 else r.t0 + r.post
      s.auClose n (max r.first (min a.n e)) true gap 0 0
  | none => s

/-- A write of 1 to STOP (R288). -/
def State.auStop (s : State) (n : Nat) : State := (s.auCut n false true).setAuState n 0

/-- A write to ACQ_CMD[n]. -/
def State.wrAcqCmd (n : Nat) (v : Word) (s : State) : State :=
  let s1 := if fget v fACQ_CMD_STOP = 1 then s.auStop n else s
  if fget v fACQ_CMD_ARM = 1 then s1.auArm n else s1

/-- The trigger sample of the record in progress lies beyond a sample with instant `t` before the placement (R283). -/
def AuRec.later (r : AuRec) (i t : Nat) : AuRec :=
  if i = r.t0 && t < r.place then { r with t0 := i + 1, first := max r.first (i + 1 - r.pre) } else r

/-- Unit `n` takes a sample, `more` samples of the beat from it on being missing: a loss restarts the count or closes the record
(R280, R289). -/
def State.auSample (s : State) (n : Nat) (x : Smp) (more : Nat) : State :=
  let i := (s.auU n).n
  let s0 := s.updAu n fun a => { a with rec_ := a.rec_.map fun r => r.later i x.t }
  let t := s0.ringPutSmp n x
  if (((t.auU n).ring.getLast?).map fun y => y.ok).getD true then t
  else
    match (t.auU n).rec_ with
    | some r =>
      if i < r.t0 then t.updAu n fun a => { a with rec_ := some { r with first := i + 1 } }
      else if i < r.t0 + r.post then
        let lost := min more (r.t0 + r.post - i)
        t.auClose n i true true (max 1 lost) lost
      else t
    | none => if t.auState n = 2 then t.setAuState n 1 else t

/-- Unit `n` takes samples from its street. A unit fed by a store port takes the format of the first; a sample of another
format is no part of the stream and counts as lost. -/
def State.auTake (s : State) (n : Nat) (xs : List Smp) : State :=
  if s.auState n = 0 || s.auState n = 5 || !s.flag (rACQ_CFG n) fACQ_CFG_USED then s
  else
    let s1 := match xs with
      | x :: _ => if (s.auU n).n = 0 && isPort (s.fld (rACQ_CFG n) fACQ_CFG_SRC) then s.setFld (rACQ_CFG n) fACQ_CFG_FMT x.fmt else s
      | [] => s
    let ys := xs.map fun (x : Smp) => if x.fmt = s1.auFmt n then x else { x with ok := false }
    ys.zipIdx.foldl (fun (t : State) (e : Smp × Nat) => t.auSample n e.1 ((ys.drop e.2).filter fun y => !y.ok).length) s1

/-- A new anchor or origin of the source, a restart or a re-lock release acts as a loss: the record in progress closes, and the unit returns
to FILLING with an empty ring (R289), unless its run has closed its last segment. -/
def State.auAnchor (s : State) (n : Nat) : State :=
  let s1 := (s.auCut n true false).ringEmpty n
  if s1.auState n = 0 || s1.auState n = 5 || (s1.auState n == 4 && s1.auRunDone n) then s1 else s1.setAuState n 1

/-- The billets of the ring of unit `n` return to its context. -/
def State.auRelease (s : State) (n : Nat) : State :=
  let s1 := s.ringEmpty n
  (s1.auU n).spare.foldl (fun t b => t.ringLeave b) (s1.updAu n fun a => { a with spare := [] })

/-- Unit `n` becomes idle: its ring's billets and its set-aside return (R339). -/
def State.auIdle (s : State) (n : Nat) : State :=
  ((((s.auRelease n).auLogDrop n).updAu n fun a => { a with refill := false }).onAside fun m => SMap.set 0 m n 0).setAuState n 0

/-! ### Writes (R282, R290, R302) -/

/-- PRE + POST + lag + b ≤ C_ring under a plan, with the lag of a qualifier in ticks (R282). -/
def PlanImg.ringFits (p : PlanImg) (n : Nat) (len : Word) (lag : Nat) : Bool :=
  let sq := auSquare n
  match p.srcOf sq with
  | none => true
  | some src =>
    let fmt := p.fmtInto sq
    let (a, b) := if isPort src then (if fmt = 0 then (1, 32) else if fmt = 1 then (1, 16) else (6, 64)) else p.spacing src sq
    let per := smpPerBillet fmt
    fget len fACQ_LEN_PRE + fget len fACQ_LEN_POST + ceilDiv (lag * b) a + per ≤ p.word sq 0 % 65536 * per

/-- R282 against the active plan and a staged one, where they use the unit. -/
def State.lenFits (s : State) (n : Nat) (len : Word) (qual : Nat) : Bool :=
  let test := fun (p : Option PlanImg) => match p with
    | some p => (p.unit? (auSquare n)).isNone || p.ringFits n len (s.effLag qual)
    | none => true
  let staged := if s.fld rPLAN_SLOT_STATE fPLAN_SLOT_STATE_SLOT0 = 2 then s.plan.slot0
    else if s.fld rPLAN_SLOT_STATE fPLAN_SLOT_STATE_SLOT1 = 2 then s.plan.slot1 else none
  test s.activePlan && test staged

/-- A write of unit `n` is discarded whole (R290). -/
def State.auDiscard (s : State) (n : Nat) : State :=
  (s.updAu n fun a => { a with wrDisc := satN 16 (a.wrDisc + 1) }).raise 376

/-- A write to ACQ_CTRL[n]. -/
def State.wrAcqCtrl (n : Nat) (v : Word) (s : State) : State :=
  if fget v fACQ_CTRL_MODE = 3 || !s.lenFits n (s.rd (rACQ_LEN n)) (fget v fACQ_CTRL_QUAL) then s.auDiscard n
  else s.wrCodes (rACQ_CTRL n) v []

/-- A write to ACQ_LEN[n]; under a reduction PRE and POST are multiples of the interval (R291). -/
def State.wrAcqLen (n : Nat) (v : Word) (s : State) : State :=
  let pre := fget v fACQ_LEN_PRE
  let post := fget v fACQ_LEN_POST
  let r := if s.fld (rACQ_CFG n) fACQ_CFG_RED = 0 then 1 else 2 ^ s.fld (rACQ_CFG n) fACQ_CFG_RLOG2
  if pre % 32 = 0 && post % 32 = 0 && 32 ≤ post && post ≤ 2 ^ 31 && pre ≤ 2 ^ 31 && pre % r = 0 && post % r = 0
      && s.lenFits n v (s.fld (rACQ_CTRL n) fACQ_CTRL_QUAL) then s.wrCodes (rACQ_LEN n) v []
  else s.auDiscard n

/-- A write to ACQ_SEG[n]. -/
def State.wrAcqSeg (n : Nat) (v : Word) (s : State) : State :=
  if fget v fACQ_SEG_NSEG = 0 then s.auDiscard n else s.wrCodes (rACQ_SEG n) v []

/-- A write to ACQ_LOG[n]. -/
def State.wrAcqLog (n : Nat) (v : Word) (s : State) : State :=
  if fget v fACQ_LOG_LOG_MAX % 2 = 0 || fget v fACQ_LOG_FLUSH_US = 0 then s.auDiscard n else s.wrCodes (rACQ_LOG n) v []

/-- A write to ACQ_SNAP[n]. -/
def State.wrAcqSnap (n : Nat) (v : Word) (s : State) : State := if fget v fACQ_SNAP_SNAP = 1 then s.acqSnap n else s

/-- A write to RMU_LEVEL[l] (R302). -/
def State.wrRmuLevel (l : Nat) (v : Word) (s : State) : State :=
  if fgetS v fRMU_LEVEL_LO < fgetS v fRMU_LEVEL_MID && fgetS v fRMU_LEVEL_MID < fgetS v fRMU_LEVEL_HI then
    s.wrCodes (rRMU_LEVEL l) v []
  else s.raise 377

/-- A write to RMU_SIG[l]; the reserved code is not taken. -/
def State.wrRmuSig (l : Nat) (v : Word) (s : State) : State :=
  if fget v fRMU_SIG_SIGNAL = 3 then s else s.wrCodes (rRMU_SIG l) v []

/-- The parameter commit in the acquisition units and the RMU (R290, R302). A unit whose values no longer meet R282 keeps the
ones in force. -/
def State.acqParamCommit (s : State) : State :=
  let s1 := (upTo 8).foldl (fun t n =>
    let t1 := (t.commitReg (rACQ_SEG n)).commitReg (rACQ_LOG n)
    if t.lenFits n (t.rd (rACQ_LEN n)) (t.fld (rACQ_CTRL n) fACQ_CTRL_QUAL) then
      (t1.commitReg (rACQ_LEN n)).commitReg (rACQ_CTRL n)
    else t1.auDiscard n) s
  (upTo 9).foldl (fun t l => ((t.commitReg (rRMU_CFG l)).commitReg (rRMU_SIG l)).commitReg (rRMU_LEVEL l)) s1

/-! ### The RMU square (R296) -/

/-- The samples of a RECORD payload, spaced `d` from instant `t`. -/
def recordSamples (fmt n t d : Nat) (bs : List Byte) : List Smp :=
  (upTo n).map fun i =>
    let w := leNat ((bs.drop (64 + i * smpBytes fmt)).take (smpBytes fmt))
    let (x, y) := if fmt = 2 then (toSigned 24 w, toSigned 24 (w / 2 ^ 24)) else (toSigned 16 w, toSigned 16 (w / 2 ^ 16))
    ⟨t + i * d, x, if fmt = 0 then 0 else y, true, 0, fmt⟩

/-- The next record on the street of a square. -/
def State.nextReplay (s : State) (sq : Nat) : Option (RRec × State) :=
  match SMap.get [] s.replay sq with
  | [] => none
  | r :: rest => some (r, (s.onReplay fun _ => SMap.set [] s.replay sq rest))

/-- A replayed record as a store port stores it anew: the flags that tell of its first context or of the copy (GAP, RESTART, LATE,
DATA_ERROR; R30, R31) are not the new record's. -/
def RRec.again (r : RRec) : Prod :=
  { prod0 with
    ctx := r.ctx
    typ := r.typ
    time := r.time
    fine := r.fine
    flags := r.flags - (r.flags &&& (flGap ||| flRestart ||| flLate ||| flDataError))
    items := r.items
    pre := r.bytes }

/-- Lane 8 takes a replayed RECORD and delivers it with its trailer added or replaced; other products pass unchanged. Its square is idle in
a plan without a record for it (R161), and a record made in HO_GAP is lost (R49). -/
def State.rmuRecord (s : State) : State :=
  match s.nextReplay 56 with
  | none => s
  | some (r, s1) =>
    if s.hoGap then s1.loseDirect 56 r.items
    else if r.typ != 0x30 then s1.emitRec 56 r.again
    else
      let n := leNat (r.bytes.take 4)
      let w2 := leNat ((r.bytes.drop 16).take 8)
      let fmt := w2 / 2 ^ 32 % 4
      let (k, s2) := s1.fresh
      let xs := recordSamples fmt n (tick16 r.time + r.fine * 128) (Config.replaySpacing k) r.bytes
      let tr := rmuTrailer 8 (s.rmuRegs 8) xs s.tickFs (Config.roundUp k) (Config.crossOpen k)
      let w2' := w2 - w2 / 2 ^ 46 % 2 * 2 ^ 46 + 2 ^ 46
      let body := r.bytes.take 16 ++ leBytes 8 w2' ++ (r.bytes.drop 24).take (40 + n * smpBytes fmt) ++ tr
      (s2.addMod (rRMU_CFG 8) fRMU_CFG_RECORDS 1).emitRec 56 { r.again with
        items := n
        pre := body }

/-- The next record on the streets of a square that came on route `rt`. -/
def State.nextReplayOn (s : State) (sq rt : Nat) : Option (RRec × State) :=
  let q := SMap.get [] s.replay sq
  (q.find? (·.route == rt)).map fun r => (r, (s.onReplay fun _ => SMap.set [] s.replay sq (q.erase r)))

/-! ### Plan records (R299) -/

/-- The values that will be in force after a plan's commit: every PARAMS entry of it applied (R299). -/
def State.underPlan (s : State) (p : PlanImg) : State :=
  let s1 := (s.onPlan fun _ => ⟨some p, none⟩).setFlds rPLAN_SLOT_STATE [(fPLAN_SLOT_STATE_SLOT0, 3), (fPLAN_SLOT_STATE_SLOT1, 0)]
  p.params.foldl (fun (t : State) e => (t.wr e.1 e.2).setAct e.1 e.2) s1

/-- EFF_LAG that qualifier `q` will have in the state `t` under a plan (R299). -/
def State.effUnder (t : State) (q : Nat) : Nat :=
  (upTo (q + 1)).foldl (fun (m : List Nat) j =>
    let c := t.tqNow j
    m ++ [(upTo 80).foldl (fun x k =>
      if inSetA c k || inSetB c k then max x (if k < 64 then t.srcLatency k else m.getD (k - 64) 0 + 1) else x)
      (fget (autoW c) fTRG_TQ_AUTO_LAG)]) [] |>.getD q 0

/-- Is the record of an acquisition unit, or of the RMU, valid (R299)? -/
def State.acqValid (s : State) (p : PlanImg) (u : UnitRec) : Bool :=
  let sq := u.square
  if sq = 56 then u.body.isEmpty && (p.into sq).all fun r => isPort r.src
  else
    let n := sq - 48
    let w1 := p.word sq 0
    let w2 := p.word sq 1
    let red := w1 / 2 ^ 16 % 4
    let sel := w1 / 2 ^ 18 % 16
    let rlog := w1 / 2 ^ 24 % 32
    let t := s.underPlan p
    let q := t.afld (rACQ_CTRL n) fACQ_CTRL_QUAL
    u.body.length == 2 && w1 / 2 ^ 29 == 0 && w1 / 2 ^ 22 % 4 == 0 && w2 / 2 ^ 13 == 0
      && (match p.srcOf sq with
          | some src => src < 24 || isPort src
          | none => false)
      && (match p.from_ sq with
          | [r] => r.dsts.length == 1 && r.dsts.all isPort
          | _ => false)
      && red != 3 && (red == 0 || (1 ≤ rlog && rlog ≤ 16 && p.fmtInto sq != 2)) && (red != 1 || sel != 0)
      && (w2 / 2 ^ 12 % 2 == 0 || p.ctxs.any fun e => entryFld e 0 ⟨0, 12⟩ == w2 % 2 ^ 12)
      && p.ringFits n (t.actv (rACQ_LEN n)) (t.effUnder q)

/-- ACQ_CFG of every unit under a plan, or under none. -/
def State.acqPlan (s : State) (p : Option PlanImg) : State :=
  (upTo 8).foldl (fun t n =>
    let sq := auSquare n
    match p with
    | some p =>
      if (p.unit? sq).isSome then
        let w := p.word sq 0
        let v := p.word sq 1
        let src := (p.srcOf sq).getD 0
        t.wr (rACQ_CFG n) (fsets 0 [(fACQ_CFG_USED, 1), (fACQ_CFG_LOG_EN, v / 2 ^ 12), (fACQ_CFG_SRC, src),
          (fACQ_CFG_LOG_CTX, v), (fACQ_CFG_FMT, p.fmtInto sq),
          (fACQ_CFG_RLOG2, w / 2 ^ 24), (fACQ_CFG_RED, w / 2 ^ 16), (fACQ_CFG_SEL, w / 2 ^ 18), (fACQ_CFG_RING_BILLETS, w)])
      else t.wr (rACQ_CFG n) 0
    | none => t.wr (rACQ_CFG n) 0) s

end Sys2Proof.Machine
end

