-- ==== Sys2Proof/Machine/Cal.lean ====
section
/-! DEFINITION. Foreground calibration and the calibration store (R136 to R152). -/

namespace Sys2Proof.Machine

/-! ### The arithmetic of R144, in exact comparisons -/

/-- The largest `m` below `lo + 2^n` with `ok m`, for a predicate that holds up to a point, by bisection from `lo`. -/
def bisect (ok : Nat → Bool) : Nat → Nat → Nat
  | 0, lo => lo
  | n + 1, lo => if ok (lo + 2 ^ n) then bisect ok n (lo + 2 ^ n) else bisect ok n lo

/-- GAIN_new = round(GAIN_old × A_t / A_0), with A_t = 1,448.15 × 10^(-p/2000), p = 100 − LEVEL, and A_0 = a0 / 2^20: the
largest m with (2m − 1) × 100 × a0 × 10^(p/2000) ≤ 2 × GAIN_old × 144,815 × 2^20. Values from 2^17 up all
read as 2^17 − 1, which is out of range. -/
def calGain (gain p a0 : Nat) : Nat :=
  if a0 = 0 then 2 ^ 17 - 1
  else bisect (fun m => ((2 * m - 1) * 100 * a0) ^ 2000 * 10 ^ p ≤ (2 * gain * 144815 * 2 ^ 20) ^ 2000) 17 0

/-- ATTCAL[s] = round(2^15 × A_0 × 10^(-s/40) / A_s). -/
def calAtt (a0 as_ st : Nat) : Nat :=
  if as_ = 0 then 2 ^ 17 - 1
  else bisect (fun m => ((2 * m - 1) * as_) ^ 40 * 10 ^ st ≤ (2 * 2 ^ 15 * a0) ^ 40) 17 0

/-- CAL_FLAT VALUE + 2^17 = round(256 × 20 × log10(A_k / A_t)) + 2^17: the largest v with
10^((2v − 1)/10240 − p/2000) ≤ ak × 100 / (2^20 × 144,815). -/
def calFlat (ak p : Nat) : Nat :=
  bisect (fun m =>
    let e : Int := (2 * ((m : Int) - 2 ^ 17) - 1) * 25 - p * 128
    let l := (2 ^ 20 * 144815) ^ 256000
    let r := (ak * 100) ^ 256000
    if 0 ≤ e then l * 10 ^ e.toNat ≤ r else l ≤ r * 10 ^ (-e).toNat) 18 0

/-- Is the change from gain `a` to gain `b` above `m` × 0.1 dB (Table 7-2, RANGE)? -/
def gainStepOver (a b m : Nat) : Bool := a ^ 200 * 10 ^ m < b ^ 200 || b ^ 200 * 10 ^ m < a ^ 200

/-! ### Starting a run -/

/-- CAL_STATUS.STATE. -/
def State.calState (s : State) : Nat := s.fld rCAL_STATUS fCAL_STATUS_STATE

/-- Is input `n` used in the current converter mode (R73, Table 4-1)? -/
def State.inputUsed (s : State) (n : Nat) : Bool := s.govern n = n

/-- The cores behind input `n`. -/
def State.inputCores (s : State) (n : Nat) : List Nat := if s.paired n then [n, n + 1] else [n]

/-- A GO or STORE is refused (R138, R150). -/
def State.calRefuse (s : State) (reason : Nat) : State :=
  (s.setFlds rCAL_STATUS [(fCAL_STATUS_RESULT, 3), (fCAL_STATUS_REASON, reason)]).raise 98

/-- The reason a run is refused, in the order of R138 and R137, or 0. -/
def State.calBar (s : State) (n typ point : Nat) : Nat :=
  let lv := s.fldS rCAL_REF fCAL_REF_LEVEL
  if s.calState != 0 then 16
  else if !s.inputUsed n || !s.ready || s.flag rPWR_CTRL fPWR_CTRL_CNV_STBY then 17
  else if (typ = 0 && point != 4) || (typ != 0 && (point = 0 || (!s.paired n && 31 < point))) then 18
  else if lv < -2000 || 0 < lv then 19
  else 0

/-- A run on input `n` is accepted: phase WAIT_STEP begins, with EN held at 0, ATTCAL forced to 0x8000 and the software's
values kept (R139). -/
def State.calBegin (s : State) (n typ : Nat) (persist auto : Bool) : State :=
  let cores := s.inputCores n
  let s1 := (s.onCal fun z => { z with
    input := n, typ := typ, persist := persist, auto := auto, step := s.attStep n,
    attcal := (upTo 32).map fun k => s.rd (rCNV_ATTCAL n k),
    en := cores.map fun c => s.fld (rCNV_BG c) fCNV_BG_EN })
  let s2 := cores.foldl (fun t c => t.setFld (rCNV_BG c) fCNV_BG_EN 0) s1
  let s3 := (upTo 32).foldl (fun t k => t.setFld (rCNV_ATTCAL n k) fCNV_ATTCAL_GAIN 0x8000) s2
  (s3.setFlds rCAL_STATUS [(fCAL_STATUS_STATE, 1), (fCAL_STATUS_PHASE, 0), (fCAL_STATUS_RESULT, 0),
    (fCAL_STATUS_REASON, 0)]).setFld rCAL_RUN fCAL_RUN_GO 1

/-- A GO with the fields of CAL_RUN (R138). -/
def State.calGo (s : State) : State :=
  let n := s.fld rCAL_RUN fCAL_RUN_INPUT
  let typ := s.fld rCAL_RUN fCAL_RUN_TYPE
  let why := s.calBar n typ (s.fld rCAL_REF fCAL_REF_POINT)
  if why != 0 then s.calRefuse why else s.calBegin n typ (s.flag rCAL_RUN fCAL_RUN_PERSIST) false

/-! ### Ending a run -/

/-- The attenuator of input `n` driven to step `st`, with G_eff computed again. -/
def State.calDrive (s : State) (n st : Nat) : State :=
  (s.setAct (rCNV_ATT n) (fset (s.actv (rCNV_ATT n)) fCNV_ATT_STEP st)).newGeff n

/-- What every end of a run does (R139, R140): software STEP and EN restored, and the input, once it is at CALIN, switched back, its samples
invalid for 2 µs more. -/
def State.calRestore (s : State) : State :=
  let n := s.cal.input
  let cores := s.inputCores n
  let s1 := (cores.zip s.cal.en).foldl (fun t e => t.setFld (rCNV_BG e.1) fCNV_BG_EN e.2) s
  let s2 := cores.foldl (fun t c =>
    if t.flag (rCNV_BG c) fCNV_BG_EN && (t.core c).phase = .off then t.bgStart c else t) s1
  let s3 := s2.calDrive n s.cal.step
  let was := s.fld rCAL_STATUS fCAL_STATUS_PHASE
  (s3.onCal fun z => { z with badTo := if was = 0 then z.badTo else SMap.set 0 z.badTo n (s3.time + s3.usTicks 2) })
    |>.setFld rCAL_RUN fCAL_RUN_GO 0 |>.setFlds rCAL_STATUS [(fCAL_STATUS_STATE, 0), (fCAL_STATUS_PHASE, 0)]

/-- Are the samples of input `n` invalid now (R140)? While the switch to CALIN lasts the mark is 1. -/
def State.inputInvalid (s : State) (n : Nat) : Bool :=
  let b := SMap.get 0 s.cal.badTo n
  b == 1 || s.time < b

/-- The run aborts with a code of Table 7-2: ATTCAL is as before GO, and one CAL_ABORTED is raised (R141, R142, R146). -/
def State.calAbort (s : State) (reason : Nat) : State :=
  let n := s.cal.input
  let s1 := ((upTo 32).zip s.cal.attcal).foldl (fun t e => t.wr (rCNV_ATTCAL n e.1) e.2) s
  let s2 := s1.calRestore.setFlds rCAL_STATUS [(fCAL_STATUS_RESULT, 2), (fCAL_STATUS_REASON, reason)]
  let s3 := if s.cal.auto then (s2.onCal fun z => { z with retry := SMap.set none z.retry n (some s.time) }) else s2
  s3.raise 97

/-- A run in progress aborts on an outside cause (Table 7-2, codes 8 to 10). -/
def State.calAbortIf (s : State) (reason : Nat) : State := if s.calState = 1 then s.calAbort reason else s

/-! ### The store (R147 to R151) -/

/-- Flash offset of copy A (0), B (1) or F (2). -/
def calCopyAt (k : Nat) : Nat := if k = 0 then 0xFFE000 else if k = 1 then 0xFFF000 else 0xFFD000

/-- The bytes of a copy. -/
def State.calCopy (s : State) (k : Nat) : List Byte := s.flash.read 0xFF (calCopyAt k) 4096

/-- Is an image of 4,096 bytes valid (R147)? -/
def calValid (bs : List Byte) : Bool :=
  leNat (bs.take 4) == 0x53434B48 && leNat ((bs.drop 4).take 2) == 1
    && leNat ((bs.drop 4092).take 4) == crc32c (bs.take 4092)

/-- The SEQ of an image. -/
def calSeqOf (bs : List Byte) : Nat := leNat ((bs.drop 8).take 4)

/-- The part of an input block that holds a core's retired slices and CNV_SLICE images. -/
def State.calSlices (s : State) (n : Nat) : List Byte :=
  leBytes 4 (s.fld (rCNV_BG_STATUS n) fCNV_BG_STATUS_FAILED) ++ leBytes 4 0
    ++ (upTo 17).flatMap (fun k => leBytes 8 (fset (s.rd (rCNV_SLICE n k)) fCNV_SLICE_POS 0).toNat)

/-- The input block of Table 7-3 for input `n`. -/
def State.calBlock (s : State) (n : Nat) : List Byte :=
  leBytes 8 (s.rd (rCNV_CHCORR n)).toNat ++ s.calSlices n
    ++ (upTo 32).flatMap (fun k => leBytes 2 (s.fld (rCNV_ATTCAL n k) fCNV_ATTCAL_GAIN))
    ++ (upTo 64).flatMap (fun k => leBytes 2 (s.fld (rCAL_FLAT n k) fCAL_FLAT_VALUE))
    ++ leBytes 4 (s.fld (rCAL_HIST0 n) fCAL_HIST0_COUNT)
    ++ leBytes 4 ((upTo 31).foldl (fun a k => a + s.fld (rCAL_FLAT n (k + 1)) fCAL_FLAT_VALID * 2 ^ (k + 1)) 0)
    ++ leBytes 8 (s.rd (rCAL_HIST1 n)).toNat
    ++ leBytes 2 (s.fld (rCAL_HIST0 n) fCAL_HIST0_LAST_TEMP)
    ++ leBytes 4 ((upTo 32).foldl (fun a k => a + s.fld (rCAL_FLAT n (k + 32)) fCAL_FLAT_VALID * 2 ^ k) 0)
    ++ leBytes 18 0

/-- The image of the store as the registers now stand, with a given SEQ (Table 7-3). -/
def State.calImage (s : State) (seq : Nat) : List Byte :=
  let body := leBytes 4 0x53434B48 ++ leBytes 2 1 ++ leBytes 2 0 ++ leBytes 4 seq ++ leBytes 52 0
    ++ (upTo 4).flatMap s.calBlock ++ leBytes 2492 0
  body ++ leBytes 4 (crc32c body)

/-- The copy a store write targets (R148 step 2). -/
def State.calTarget (s : State) : Nat :=
  let a := s.flag rCAL_STORE fCAL_STORE_A_VALID
  let b := s.flag rCAL_STORE fCAL_STORE_B_VALID
  if a && b then (if calSeqOf (s.calCopy 1) < calSeqOf (s.calCopy 0) then 1 else 0)
  else if a then 1 else 0

/-- Does a flash command of the Stoker run, after which a store write that is accepted now starts (R505)? -/
def State.flashBusy (s : State) : Bool := s.stk.queue.any fun c => c.run && c.code != 4

/-- A store write starts: the image is captured, the slices of a core within a background step at the end of that step, and the target
erased, which leaves it invalid until the CRC word is programmed (R148, R149); a worn flash refuses it (R150). -/
def State.storeBegin (s : State) : State :=
  let seq := s.fld rCAL_STORE fCAL_STORE_SEQ
  if 200000 ≤ seq then
    (s.setFld rCAL_STORE fCAL_STORE_RESULT 3).setFld rCAL_STATUS fCAL_STATUS_REASON 20 |>.raise 98
  else if s.flashBusy then (s.onCal fun z => { z with image := [] }).setFld rCAL_STATUS fCAL_STATUS_STATE 2
  else
    let k := s.calTarget
    let wait := (upTo 4).filter fun n => (s.core n).phase != .off
    let s1 := (s.onCal fun z => { z with target := k, image := s.calImage (seq + 1), await := wait }).flashErase (calCopyAt k) 4096
    (s1.setFld rCAL_STORE (if k = 0 then fCAL_STORE_A_VALID else fCAL_STORE_B_VALID) 0).setFld
      rCAL_STATUS fCAL_STATUS_STATE 2

/-- A store write asked for by CAL_RUN.STORE or the CAL_STORE command (R148, R150). -/
def State.storeAsk (s : State) : State :=
  if s.calState != 0 then (s.setFld rCAL_STORE fCAL_STORE_RESULT 3).calRefuse 16
  else if 200000 ≤ s.fld rCAL_STORE fCAL_STORE_SEQ then (s.setFld rCAL_STORE fCAL_STORE_RESULT 3).calRefuse 20
  else s.storeBegin

/-- The slices and FAILED of core `n` enter the image of a running store write (R148 step 1). -/
def State.storeCapture (s : State) (n : Nat) : State :=
  if s.cal.await.contains n then
    let body := s.cal.image.take (72 + 384 * n) ++ s.calSlices n ++ (s.cal.image.take 4092).drop (216 + 384 * n)
    s.onCal fun z => { z with image := body ++ leBytes 4 (crc32c body), await := z.await.filter (· != n) }
  else s

/-- A command has taken core `n` from `s` to `t`: where the core's background step has ended, a store write captures its slices. -/
def State.storeStep (s t : State) (n : Nat) : State :=
  if (t.core n).phase = .off || ((s.core n).phase = .interval && (t.core n).phase = .settle) then t.storeCapture n else t

/-- A store write ends: every read-back matched (`ok`), or the target stays invalid (R149). -/
def State.storeEnd (s : State) (ok : Bool) : State :=
  if s.calState = 2 then
    let k := s.cal.target
    let s1 := s.setFld rCAL_STATUS fCAL_STATUS_STATE 0
    if ok then
      let s2 := s1.flashWrite (calCopyAt k) s.cal.image
      (s2.setFlds rCAL_STORE [(if k = 0 then fCAL_STORE_A_VALID else fCAL_STORE_B_VALID, 1), (fCAL_STORE_RESULT, 1),
        (fCAL_STORE_SEQ, calSeqOf s.cal.image)]).raise 104
    else (s1.setFld rCAL_STORE fCAL_STORE_RESULT 2).raise 105
  else s

/-! ### The phases -/

/-- The results of the run against their ranges (Table 7-2, RANGE): true when every one fits. -/
def State.calFits (s : State) : Bool :=
  let n := s.cal.input
  let p := (100 - s.fldS rCAL_REF fCAL_REF_LEVEL).toNat
  if s.cal.typ = 0 then
    let g0 := s.fld (rCNV_CHCORR n) fCNV_CHCORR_GAIN
    let g := calGain g0 p s.cal.a0
    let o := divRound s.cal.offNum s.cal.offDen
    g < 65536 && satS 16 o == o && !gainStepOver g0 g (s.fld rCAL_POLICY fCAL_POLICY_MAX_STEP)
      && (s.cal.as_.zipIdx.all fun e => calAtt s.cal.a0 e.1 (e.2 + 1) < 65536)
  else
    let v : Int := calFlat s.cal.a0 p - 2 ^ 17
    satS 16 v == v

/-- COMMIT: all results are written at one DCLK boundary (R143, R144). -/
def State.calCommit (s : State) : State :=
  let n := s.cal.input
  let p := (100 - s.fldS rCAL_REF fCAL_REF_LEVEL).toNat
  let point := if s.cal.auto then 4 else s.fld rCAL_REF fCAL_REF_POINT
  let s0 := ((upTo 32).zip s.cal.attcal).foldl (fun t e => t.wr (rCNV_ATTCAL n e.1) e.2) s
  let s1 :=
    if s.cal.typ = 0 then
      let g := calGain (s.fld (rCNV_CHCORR n) fCNV_CHCORR_GAIN) p s.cal.a0
      let o := divRound s.cal.offNum s.cal.offDen
      let t := s0.setFlds (rCNV_CHCORR n) [(fCNV_CHCORR_OFFSET, ofSigned 16 o), (fCNV_CHCORR_GAIN, g)]
      let t1 := (s.cal.as_.zipIdx).foldl (fun t e =>
        t.setFld (rCNV_ATTCAL n (e.2 + 1)) fCNV_ATTCAL_GAIN (calAtt s.cal.a0 e.1 (e.2 + 1))) t
      (t1.setFld (rCNV_ATTCAL n 0) fCNV_ATTCAL_GAIN 0x8000).setFlds (rCAL_FLAT n 4)
        [(fCAL_FLAT_VALUE, 0), (fCAL_FLAT_VALID, 1)]
    else
      s0.setFlds (rCAL_FLAT n point)
        [(fCAL_FLAT_VALUE, ofSigned 16 (calFlat s.cal.a0 p - 2 ^ 17)), (fCAL_FLAT_VALID, 1)]
  let s2 := s1.setFlds (rCAL_HIST0 n) [(fCAL_HIST0_COUNT, s1.fld (rCAL_HIST0 n) fCAL_HIST0_COUNT + 1),
    (fCAL_HIST0_LAST_TEMP, s1.fld (rTHM_TEMP n) fTHM_TEMP_TEMP)]
  let s3 := (s2.wr (rCAL_HIST1 n) (BitVec.ofNat 64 s2.time)).addMod rCAL_HIST_SNAP fCAL_HIST_SNAP_SEQ 1
  let due := s3.fld rCAL_STATUS fCAL_STATUS_DUE
  let s4 := s3.setFld rCAL_STATUS fCAL_STATUS_DUE (if due / 2 ^ n % 2 = 1 then due - 2 ^ n else due)
  let s5 := (s4.calRestore.setFlds rCAL_STATUS [(fCAL_STATUS_RESULT, 1), (fCAL_STATUS_REASON, 0)]).raise 96
  if s.cal.persist then s5.storeBegin else s5

/-- The run passes to phase `p`. -/
def State.calPhase (s : State) (p : Nat) : State := s.setFld rCAL_STATUS fCAL_STATUS_PHASE p

/-- The CALIN measurement of CHECK or RECHECK enters CAL_MEAS. -/
def State.calMeas (s : State) (m : CalMeas) : State :=
  s.setFlds rCAL_MEAS [(fCAL_MEAS_LEVEL, ofSigned 16 m.level), (fCAL_MEAS_FREQ_ERR, ofSigned 32 m.freqErr)]

/-- The check of a CALIN measurement that fails first, in the order of Table 7-2, or 0. -/
def State.calCheck (s : State) (m : CalMeas) : Nat :=
  if m.level < -4000 then 2
  else if 50 < (m.level - s.fldS rCAL_REF fCAL_REF_LEVEL).natAbs then 3
  else if 100000 < m.freqErr.natAbs then 4
  else 0

/-- Did a raw clip fall into the measuring phases of the run? -/
def State.calClipped (s : State) : Bool := (s.inputCores s.cal.input).any fun c => (s.core c).clipCal

/-- A phase of the run ends with its measurement `m` (R139, R141); STEPS goes on until `m`, at once or in parts, has brought all 31 amplitudes,
with the attenuator at the step to be measured next. -/
def State.calPhaseEnd (s : State) (m : CalMeas) : State :=
  let n := s.cal.input
  if s.calState != 1 then s
  else match s.fld rCAL_STATUS fCAL_STATUS_PHASE with
  | 0 =>
    if (s.inputCores n).all fun c => (s.core c).phase = .off then
      (s.onCal fun z => { z with badTo := SMap.set 0 s.cal.badTo n 1 }).calPhase 1
    else s
  | 1 => s.calPhase 2
  | 2 =>
    let s1 := ((s.calMeas m).onCal fun _ => { s.cal with check := m.level })
    let why := s1.calCheck m
    if why != 0 then s1.calAbort why
    else
      let s2 := (s1.inputCores n).foldl (fun t c => t.updCore c fun x => { x with clipCal := false }) s1
      if s.cal.typ = 0 then s2.calPhase 3 else (s2.calDrive n 0).calPhase 6
  | 3 =>
    if s.calClipped then s.calAbort 6
    else ((s.onCal fun z => { z with offNum := m.meanNum, offDen := m.meanDen }).calDrive n 0).calPhase 4
  | 4 =>
    if s.calClipped then s.calAbort 6
    else ((s.onCal fun z => { z with a0 := m.amps.headD 0, as_ := [] }).calDrive n 1).calPhase 5
  | 5 =>
    let as_ := (s.cal.as_ ++ m.amps).take 31
    let s1 := s.onCal fun z => { z with as_ := as_ }
    if s.calClipped then s.calAbort 6
    else if as_.length < 31 then s1.calDrive n (as_.length + 1)
    else (s1.calDrive n 31).calPhase 7
  | 6 =>
    if s.calClipped then s.calAbort 6
    else (s.onCal fun z => { z with a0 := m.amps.headD 0 }).calPhase 7
  | 7 =>
    let s1 := s.calMeas m
    let why := s1.calCheck m
    if why != 0 then s1.calAbort why
    else if 10 < (m.level - s.cal.check).natAbs then s1.calAbort 5
    else if s1.calFits then s1.calPhase 8 else s1.calAbort 7
  | 8 => s.calCommit
  | _ => s

/-! ### The commands of CAL_RUN -/

/-- A write to CAL_RUN: the fields, then ABORT, GO and STORE (R138, R142, R148). -/
def State.wrCalRun (v : Word) (s : State) : State :=
  let s0 := s.setFlds rCAL_RUN [(fCAL_RUN_PERSIST, fget v fCAL_RUN_PERSIST), (fCAL_RUN_TYPE, fget v fCAL_RUN_TYPE),
    (fCAL_RUN_INPUT, fget v fCAL_RUN_INPUT)]
  let s1 := if fget v fCAL_RUN_ABORT = 1 then s0.calAbortIf 1 else s0
  let s2 := if fget v fCAL_RUN_GO = 1 then s1.calGo else s1
  if fget v fCAL_RUN_STORE = 1 then s2.storeAsk else s2

/-- A write to CAL_FLAT[n][k]: discarded while STATE is not IDLE; VALID of point 0 reads 0. -/
def State.wrCalFlat (n k : Nat) (v : Word) (s : State) : State :=
  if s.calState != 0 then s
  else
    let s1 := s.wrCodes (rCAL_FLAT n k) v []
    if k = 0 then s1.setFld (rCAL_FLAT n k) fCAL_FLAT_VALID 0 else s1

/-! ### Due and automatic runs (R145, R146) -/

/-- DUE of input `n` rises (R145). -/
def State.calDueRise (s : State) (n : Nat) : State :=
  let due := s.fld rCAL_STATUS fCAL_STATUS_DUE
  if due / 2 ^ n % 2 = 1 then s
  else (s.setFld rCAL_STATUS fCAL_STATUS_DUE (due + 2 ^ n)).raise (100 + n)

/-- The temperature condition of R145 for input `n`. -/
def State.calDueTemp (s : State) (n : Nat) : State :=
  let d := s.fldS (rTHM_TEMP n) fTHM_TEMP_TEMP - s.fldS (rCAL_HIST0 n) fCAL_HIST0_LAST_TEMP
  if s.fld rCAL_POLICY fCAL_POLICY_DELTA_T < d.natAbs then s.calDueRise n else s

/-- MAX_AGE hours have passed since LAST_TIME of input `n` (R145). -/
def State.calDueAge (s : State) (n : Nat) : State :=
  let h := s.fld rCAL_POLICY fCAL_POLICY_MAX_AGE
  if h = 0 then s
  else (s.reach ((s.rd (rCAL_HIST1 n)).toNat + s.secTicks (h * 3600) + 1)).calDueRise n

/-- May an automatic run start on input `n` (R146)? -/
def State.calEligible (s : State) (n : Nat) : Bool :=
  s.inputUsed n && s.ready && !s.flag rPWR_CTRL fPWR_CTRL_CNV_STBY && (SMap.get none s.cal.retry n).isNone

/-- The device starts an automatic run on the lowest-numbered eligible input that is due (R146). -/
def State.calAuto (s : State) : State :=
  if s.flag rCAL_POLICY fCAL_POLICY_AUTO && s.calState = 0 then
    match (upTo 4).find? fun n => s.fld rCAL_STATUS fCAL_STATUS_DUE / 2 ^ n % 2 == 1 && s.calEligible n with
    | none => s
    | some n =>
      let why := s.calBar n 0 4
      if why != 0 then s.calRefuse why else s.calBegin n 0 (s.flag rCAL_POLICY fCAL_POLICY_AUTO_PERSIST) true
  else s

/-- RETRY_MIN minutes have passed since an aborted automatic run on input `n` (R146). -/
def State.calRetryEnd (s : State) (n : Nat) : State :=
  match SMap.get none s.cal.retry n with
  | some t =>
    (s.reach (t + s.secTicks (60 * s.fld rCAL_POLICY fCAL_POLICY_RETRY_MIN))).onCal fun z => { z with retry := SMap.set none z.retry n none }
  | none => s

/-- SNAP of CAL_HIST_SNAP captures the block again (R10). -/
def State.calHistSnap (s : State) : State := s.addMod rCAL_HIST_SNAP fCAL_HIST_SNAP_SEQ 1

/-! ### Loading at boot (R88, R151) -/

/-- The values of one input block of a valid copy restored into the registers. With slices marked as retired, slice 16 begins as the free one
where it is not marked, and the first handover from the lowest-numbered marked slice takes that out (R86); where it is marked
no slice is left to rotate (DESIGN CHOICE, assumption 67). -/
def State.calRestoreBlock (s : State) (bs : List Byte) (n : Nat) : State :=
  let b := bs.drop (64 + 384 * n)
  let w := fun o k => leNat ((b.drop o).take k)
  let s1 := (s.wr (rCNV_CHCORR n) (BitVec.ofNat 64 (w 0 8))).setFld (rCNV_BG_STATUS n) fCNV_BG_STATUS_FAILED (w 8 4)
  let s2 := (upTo 17).foldl (fun t k =>
    t.wr (rCNV_SLICE n k) (fset (BitVec.ofNat 64 (w (16 + 8 * k) 8)) fCNV_SLICE_POS
      (t.fld (rCNV_SLICE n k) fCNV_SLICE_POS))) s1
  let s3 := (upTo 32).foldl (fun t k => t.setFld (rCNV_ATTCAL n k) fCNV_ATTCAL_GAIN (w (152 + 2 * k) 2)) s2
  let s4 := (upTo 64).foldl (fun t k =>
    let v := if k = 0 then 0 else if k < 32 then w 348 4 / 2 ^ k % 2 else w 362 4 / 2 ^ (k - 32) % 2
    t.setFlds (rCAL_FLAT n k) [(fCAL_FLAT_VALUE, w (216 + 2 * k) 2), (fCAL_FLAT_VALID, v)]) s3
  let s5 := s4.setFlds (rCAL_HIST0 n) [(fCAL_HIST0_COUNT, w 344 4), (fCAL_HIST0_LAST_TEMP, w 360 2)]
  let s6 := (s5.wr (rCAL_HIST1 n) (BitVec.ofNat 64 (w 352 8))).newGeff n
  let failed := w 8 4 % 2 ^ 17
  if failed = 0 then s6
  else if failed / 2 ^ 16 = 1 then s6.updCore n fun c => { c with frozen := true }
  else s6.updCore n fun c => { c with remove := (upTo 16).find? fun k => failed / 2 ^ k % 2 == 1 }

/-- Kindling loads the copy of Table 7-4 (R151). -/
def State.calLoad (s : State) : State :=
  let a := s.calCopy 0
  let b := s.calCopy 1
  let f := s.calCopy 2
  let va := calValid a
  let vb := calValid b
  let vf := calValid f
  let sa := calSeqOf a
  let sb := calSeqOf b
  let src := if va && vb then (if sa < sb then 1 else 0) else if va then 0 else if vb then 1 else if vf then 2 else 3
  let img := if src = 0 then a else if src = 1 then b else f
  let s1 := s.setFlds rCAL_STORE [(fCAL_STORE_SEQ, max (if va then sa else 0) (if vb then sb else 0)),
    (fCAL_STORE_A_VALID, b2n va), (fCAL_STORE_B_VALID, b2n vb), (fCAL_STORE_F_VALID, b2n vf), (fCAL_STORE_SOURCE, src)]
  let s2 := if src = 3 then s1 else (upTo 4).foldl (fun t n => t.calRestoreBlock img n) s1
  if 2 ≤ src then s2.raise 106 else s2

end Sys2Proof.Machine
end

