-- ==== Sys2Proof/Machine/Code.lean ====
section
/-! DEFINITION. The coded stream of the codec units: preamble, FIXED blocks and LOSSLESS blocks, written and read (R397 to
R404). -/

namespace Sys2Proof.Machine

/-- Bytes of a component, and components of a sample. -/
def compBytes (fmt : Nat) : Nat := if fmt = 2 then 3 else 2
def compsOf (fmt : Nat) : Nat := if fmt = 0 then 1 else 2

/-- Components of a full block. -/
def Codec.blockComps (c : Codec) : Nat := if !c.less then 64 else if c.fmt = 2 then 1364 else 2048

/-- The components of samples, I before Q (R396). -/
def compsFrom (fmt : Nat) (xs : List Smp) : List Int := xs.flatMap fun x => if fmt = 0 then [x.i] else [x.i, x.q]

/-- The components of sample words in memory (R33). -/
def compsOfBytes (fmt : Nat) : Nat → List Byte → List Int
  | 0, _ => []
  | n + 1, bs => toSigned (8 * compBytes fmt) (leNat (bs.take (compBytes fmt))) :: compsOfBytes fmt n (bs.drop (compBytes fmt))

/-- Components as words in memory. -/
def compsBytes (fmt : Nat) (vs : List Int) : List Byte :=
  vs.flatMap fun v => leBytes (compBytes fmt) (ofSigned (8 * compBytes fmt) v)

/-! ### Bits -/

/-- Packs bits into bytes, each byte from bit 0 (R402). -/
def packBits : Nat → List Bool → List Byte
  | 0, _ => []
  | _, [] => []
  | n + 1, bs =>
    BitVec.ofNat 8 ((bs.take 8).foldr (fun b v => 2 * v + b2n b) 0) :: packBits n (bs.drop 8)

/-- The bits of bytes, each byte from bit 0. -/
def bitsOf (bs : List Byte) : List Bool := bs.flatMap fun b => (upTo 8).map fun i => b.toNat / 2 ^ i % 2 == 1

/-- The `n` bits of a number, most significant first, and least significant first. -/
def bitsMsb (n v : Nat) : List Bool := (upTo n).map fun i => v / 2 ^ (n - 1 - i) % 2 == 1
def bitsLsb (n v : Nat) : List Bool := (upTo n).map fun i => v / 2 ^ i % 2 == 1

/-- Zero bytes up to a multiple of 8. -/
def pad8 (bs : List Byte) : List Byte := bs ++ List.replicate ((8 - bs.length % 8) % 8) 0

/-! ### FIXED (R398, R399) -/

/-- h(s): half of the last place. -/
def halfAdd (e : Nat) : Int := if e = 0 then 0 else 2 ^ (e - 1)

/-- The mantissa of a component under exponent `e`. -/
def mantissa (v : Int) (e : Nat) : Int := (v + halfAdd e) / 2 ^ e

/-- The smallest exponent that fits every component, searched from `e`. -/
def fixedExp (m : Nat) (vs : List Int) : Nat → Nat → Nat
  | 0, e => e
  | n + 1, e =>
    if vs.all fun v => -(2 ^ (m - 1) : Int) ≤ mantissa v e && mantissa v e ≤ 2 ^ (m - 1) - 1 then e
    else fixedExp m vs n (e + 1)

/-- A FIXED block of up to 64 components. -/
def fixedBlock (fmt m : Nat) (vs : List Int) : List Byte :=
  let e := fixedExp m vs (8 * compBytes fmt - m + 1) 0
  let body := (vs.zip (upTo vs.length)).foldl (fun n (p : Int × Nat) => n + ofSigned m (mantissa p.1 e) * 2 ^ (m * p.2)) 0
  leBytes 1 e ++ leBytes (8 * m) body

/-- The components of a FIXED block, or none where a reserved bit is set. -/
def fixedDecode (fmt m : Nat) (cnv : Bool) (n : Nat) (bs : List Byte) : Option (List Int) :=
  let b0 := leNat (bs.take 1)
  let e := b0 % 32
  let body := leNat ((bs.drop 1).take (8 * m))
  if b0 / 32 != 0 then none
  else some ((upTo n).map fun (j : Nat) =>
    let v := satS (8 * compBytes fmt) (toSigned m (body / 2 ^ (m * j)) * 2 ^ e)
    if cnv && fmt != 2 then v - v % 16 else v)

/-! ### LOSSLESS (R400 to R404) -/

/-- The sum of 2^-length over the classes with a code, in 2^-15. -/
def kraft (lens : List Nat) : Nat := lens.foldl (fun n l => if l = 0 then n else n + 2 ^ (15 - l)) 0

/-- Table 0 (R404). -/
def table0 : List Nat := (upTo 32).map fun k => if k ≤ 10 then k + 1 else if k ≤ 26 then 15 else 0

/-- The 32 lengths of LEN_LO and LEN_HI, and back. -/
def lensOf (lo hi : Nat) : List Nat := (upTo 32).map fun k => if k < 16 then lo / 16 ^ k % 16 else hi / 16 ^ (k - 16) % 16
def lensWord (lens : List Nat) (from_ : Nat) : Nat :=
  (upTo 16).foldl (fun n k => n + lens.getD (from_ + k) 0 % 16 * 16 ^ k) 0

/-- The canonical codes in order: class, length, code (R402). -/
def canonical (lens : List Nat) : List (Nat × Nat × Nat) :=
  let order := (upTo 15).flatMap fun l => (upTo 32).filterMap fun k => if lens.getD k 0 = l + 1 then some (k, l + 1) else none
  (order.foldl (fun (a : List (Nat × Nat × Nat) × Nat × Nat) (p : Nat × Nat) =>
    let code := a.2.1 * 2 ^ (p.2 - a.2.2)
    (a.1 ++ [(p.1, p.2, code)], code + 1, p.2)) ([], 0, 0)).1

/-- Residuals under a predictor, with the history of `q` interleaved sequences (R401). -/
def residuals (pred q : Nat) (vs : List Int) : List Int :=
  (vs.zip (upTo vs.length)).map fun (p : Int × Nat) =>
    let h := fun (d : Nat) => if d * q ≤ p.2 then vs.getD (p.2 - d * q) 0 else 0
    if pred = 0 then p.1 else if pred = 1 then p.1 - h 1 else p.1 - 2 * h 1 + h 2

/-- The components that residuals stand for. -/
def unresidual (pred q : Nat) (rs : List Int) : List Int :=
  rs.foldl (fun (acc : List Int) (r : Int) =>
    let i := acc.length
    let h := fun (d : Nat) => if d * q ≤ i then acc.getD (i - d * q) 0 else 0
    acc ++ [if pred = 0 then r else if pred = 1 then r + h 1 else r + 2 * h 1 - h 2]) []

/-- z of a residual, its class, and the residual of a z. -/
def zigzag (r : Int) : Nat := if 0 ≤ r then (2 * r).toNat else (-2 * r - 1).toNat
def zClass (z : Nat) : Nat := if z = 0 then 0 else Nat.log2 z + 1
def unzigzag (z : Nat) : Int := if z % 2 = 0 then (z / 2 : Nat) else -(((z + 1) / 2 : Nat) : Int)

/-- The bits of a z under a set of codes, or none where its class has no code. -/
def codeBits (codes : List (Nat × Nat × Nat)) (z : Nat) : Option (List Bool) :=
  let k := zClass z
  (codes.find? fun c => c.1 == k).map fun c => bitsMsb c.2.1 c.2.2 ++ bitsLsb (k - 1) z

/-- The bits of all, or none. -/
def codeAll (codes : List (Nat × Nat × Nat)) : List Nat → Option (List Bool)
  | [] => some []
  | z :: zs => match codeBits codes z, codeAll codes zs with
    | some a, some b => some (a ++ b)
    | _, _ => none

/-- The block header of Table 18-2. -/
def blockHeader (kind pred : Nat) (drop4 : Bool) (comp bytes : Nat) : List Byte :=
  leBytes 8 (kind + pred * 4 + b2n drop4 * 16 + comp * 2 ^ 8 + bytes * 2 ^ 32)

/-- The DYNAMIC table the encoder proposes, if R403 allows it. -/
def dynLens (k : Nat) : List Nat :=
  let l := (upTo 32).map fun c => Config.dynTable k c
  if l.all (· ≤ 15) && kraft l ≤ 2 ^ 15 then l else table0

/-- A LOSSLESS block, and whether it was written STORED; `k` numbers the choices the spec leaves open. -/
def lessBlock (c : Codec) (k : Nat) (vs : List Int) : List Byte × Bool :=
  let drop := c.cnv && c.fmt != 2 && vs.all fun v => v % 16 == 0
  let xs := if drop then vs.map (· / 16) else vs
  let zs := (residuals c.pred (compsOf c.fmt) xs).map zigzag
  let lens := if c.dyn then dynLens k else c.lens
  let raw := pad8 (compsBytes c.fmt vs)
  let stored := (blockHeader 0 (Config.storedPred k % 3) false vs.length raw.length ++ raw, true)
  match codeAll (canonical lens) zs with
  | none => stored
  | some bits =>
    let tab := if c.dyn then leBytes 8 (lensWord lens 0) ++ leBytes 8 (lensWord lens 16) else []
    let body := pad8 (tab ++ packBits (bits.length / 8 + 1) bits)
    if raw.length ≤ body.length then stored
    else (blockHeader (if c.dyn then 2 else 1) c.pred drop vs.length body.length ++ body, false)

/-- Reads one code: the class and the bits after it. -/
def readCode (codes : List (Nat × Nat × Nat)) : Nat → Nat → Nat → List Bool → Option (Nat × List Bool)
  | 0, _, _, _ => none
  | _, _, _, [] => none
  | n + 1, len, v, b :: bs =>
    let v' := 2 * v + b2n b
    match codes.find? fun c => c.2.1 == len + 1 && c.2.2 == v' with
    | some c => some (c.1, bs)
    | none => readCode codes n (len + 1) v' bs

/-- Reads `n` values z. -/
def readZs (codes : List (Nat × Nat × Nat)) : Nat → List Bool → Option (List Nat)
  | 0, _ => some []
  | n + 1, bs =>
    match readCode codes 15 0 0 bs with
    | none => none
    | some (k, rest) =>
      let e := k - 1
      if rest.length < e then none
      else
        let low := (rest.take e).foldr (fun b v => 2 * v + b2n b) 0
        let z := if k = 0 then 0 else 2 ^ (k - 1) + low
        (readZs codes n (rest.drop e)).map fun t => z :: t

/-- The fields of a block header: KIND, PRED, DROP4, COMP, BYTES, and whether a reserved bit or code stands in it. -/
structure BlkHdr where
  kind  : Nat
  pred  : Nat
  drop  : Bool
  comp  : Nat
  bytes : Nat
  bad   : Bool
  deriving DecidableEq, Repr

/-- Reads a block header. -/
def blkHdr (fmt : Nat) (bs : List Byte) : BlkHdr :=
  let w := leNat (bs.take 8)
  let kind := w % 4
  let pred := w / 4 % 4
  let drop := w / 16 % 2 == 1
  let comp := w / 2 ^ 8 % 2 ^ 12
  let bytes := w / 2 ^ 32 % 2 ^ 32
  ⟨kind, pred, drop, comp, bytes, kind == 3 || pred == 3 || w / 32 % 8 != 0 || w / 2 ^ 20 % 2 ^ 12 != 0 || comp == 0
    || (if fmt = 2 then 1364 else 2048) < comp || bytes % 8 != 0 || (drop && fmt == 2)⟩

/-- The components of a LOSSLESS block, or none where it cannot be decoded (R407). -/
def lessDecode (c : Codec) (h : BlkHdr) (bs : List Byte) : Option (List Int) :=
  let body := (bs.drop 8).take h.bytes
  if h.bad || body.length < h.bytes then none
  else if h.kind = 0 then
    if h.bytes < h.comp * compBytes c.fmt then none else some (compsOfBytes c.fmt h.comp body)
  else
    let lens := if h.kind = 2 then lensOf (leNat (body.take 8)) (leNat ((body.drop 8).take 8)) else c.lens
    let data := if h.kind = 2 then body.drop 16 else body
    if 2 ^ 15 < kraft lens || (h.kind == 2 && h.bytes < 16) then none
    else
      (readZs (canonical lens) h.comp (bitsOf data)).map fun zs =>
        let vs := unresidual h.pred (compsOf c.fmt) (zs.map unzigzag)
        if h.drop then vs.map (· * 16) else vs

/-! ### The preamble (Table 18-1) -/

/-- The 32 bytes of a preamble. -/
def codedPreamble (c : Codec) (samples blocks coded : Nat) : List Byte :=
  leBytes 8 (samples % 2 ^ 32 + c.fmt * 2 ^ 32 + b2n c.less * 2 ^ 34
      + (if c.less then c.pred * 2 ^ 40 + c.table * 2 ^ 44 else c.m * 2 ^ 36) + satN 16 blocks * 2 ^ 48)
    ++ leBytes 8 (if c.less then lensWord c.lens 0 else 0) ++ leBytes 8 (if c.less then lensWord c.lens 16 else 0)
    ++ leBytes 8 (coded % 2 ^ 32)

/-- A preamble read back: the settings, SAMPLES, CODED, and whether a reserved bit or code stands in it. -/
def readPreamble (cnv : Bool) (bs : List Byte) : Codec × Nat × Nat × Bool :=
  let w := leNat (bs.take 8)
  let lo := leNat ((bs.drop 8).take 8)
  let hi := leNat ((bs.drop 16).take 8)
  let less := w / 2 ^ 34 % 2 == 1
  let m := w / 2 ^ 36 % 16
  let c : Codec := ⟨w / 2 ^ 32 % 4, less, m, w / 2 ^ 40 % 4, false, w / 2 ^ 44 % 4, cnv, lensOf lo hi⟩
  let w3 := leNat ((bs.drop 24).take 8)
  (c, w % 2 ^ 32, w3 % 2 ^ 32, c.fmt == 3 || w / 2 ^ 35 % 2 == 1 || w / 2 ^ 42 % 4 != 0 || w / 2 ^ 46 % 4 != 0
    || (if less then c.pred == 3 else !([4, 6, 8, 10].contains m)) || w3 / 2 ^ 32 != 0)

/-- A block of either mode, and whether it was written STORED. -/
def codeBlock (c : Codec) (k : Nat) (vs : List Int) : List Byte × Bool :=
  if c.less then lessBlock c k vs else (fixedBlock c.fmt c.m vs, false)

/-- One block of a coded stream of which `left` components remain: its bytes, its components, and the components themselves
unless the block cannot be decoded. -/
def nextBlock (c : Codec) (left : Nat) (bs : List Byte) : Nat × Nat × Option (List Int) :=
  if c.less then
    let h := blkHdr c.fmt bs
    (8 + h.bytes, min left (if h.comp = 0 then left else h.comp), (lessDecode c h bs).map (·.take left))
  else
    let n := min left 64
    (1 + 8 * c.m, n, if bs.length < 1 + 8 * c.m then none else fixedDecode c.fmt c.m c.cnv n bs)

end Sys2Proof.Machine
end

