-- ==== Sys2Proof/Machine/Cmp.lean ====
section
/-! DEFINITION. Codec units: stream jobs, buffer jobs and plan records (R396, R405 to R413). -/

namespace Sys2Proof.Machine

/-- A codec unit with nothing on its way. -/
def cmp0 : Cmp := ⟨[], none, none⟩

/-- Codec unit `u`, and it changed. -/
def State.cmpU (s : State) (u : Nat) : Cmp := SMap.get cmp0 s.cmp u
def State.updCmp (s : State) (u : Nat) (f : Cmp → Cmp) : State := { s with cmp := SMap.upd cmp0 s.cmp u f }

/-- The square of unit `u`. -/
abbrev cmpSquare (u : Nat) : Nat := 61 + u

/-- The 32 lengths of table `t` in force (R404). -/
def State.cmpTable (s : State) (u t : Nat) : List Nat :=
  if t = 0 then table0 else lensOf (s.actv (rCMP_TAB u t 0)).toNat (s.actv (rCMP_TAB u t 1)).toNat

/-- Is a square a converter? -/
def isCnvSquare (sq : Nat) : Bool := sq < 4

/-- The settings a stream record of samples in format `fmt` takes when it begins. -/
def State.streamCodec (s : State) (u fmt : Nat) : Codec :=
  let c := rCMP_CFG u
  let v := rCMP_STREAM u
  let t := s.afld v fCMP_STREAM_TABLE
  ⟨fmt, s.flag c fCMP_CFG_MODE, s.afld v fCMP_STREAM_M, s.afld v fCMP_STREAM_PRED,
    s.afld v fCMP_STREAM_KIND == 1, t, isCnvSquare (s.fld c fCMP_CFG_SRC), s.cmpTable u t⟩

/-- Blocks per record (R405). -/
def State.recBlocks (s : State) (u : Nat) (c : Codec) : Nat :=
  let n := s.afld (rCMP_STREAM u) fCMP_STREAM_RECBLK
  if n != 0 then n else if c.less then 4 else (16384 - 64) / (1 + 8 * c.m)

/-! ### Encoding stream jobs (R405, R406) -/

/-- Closes the record under construction and sends it to the store port. -/
def State.cmpClose (s : State) (u : Nat) : State :=
  match (s.cmpU u).rec_ with
  | none => s
  | some r =>
    (s.updCmp u fun x => { x with rec_ := none }).emitRec (cmpSquare u) { prod0 with
      typ := 0x04
      time := timeOf r.t
      fine := fineOf r.t
      flags := flCompressed ||| r.fl
      items := r.n
      pre := codedPreamble r.cfg r.n r.k r.bytes.length ++ r.bytes }

/-- The settings of the next block: those of the record under construction, or those that a record of samples in format `fmt` begins with. -/
def State.cmpCodec (s : State) (u fmt : Nat) : Codec :=
  match (s.cmpU u).rec_ with
  | some r => r.cfg
  | none => s.streamCodec u fmt

/-- Codes samples as one block of the record under construction, which begins with them when there is none. -/
def State.cmpBlock (s : State) (u : Nat) (xs : List Smp) : State :=
  let cfg := s.cmpCodec u ((xs.head?.map (·.fmt)).getD 0)
  let r := ((s.cmpU u).rec_).getD ⟨cfg, (xs.head?.map (·.t)).getD 0, 0, 0, 0, []⟩
  let (k, s1) := s.fresh
  let (bs, st) := codeBlock cfg k (compsFrom cfg.fmt xs)
  let r' := { r with
    n := r.n + xs.length
    fl := r.fl ||| xs.foldl (fun f x => f ||| x.fl % 65536) 0
    k := r.k + 1
    bytes := r.bytes ++ bs }
  let s2 := (s1.updCmp u fun x => { x with rec_ := some r' }).addMod (rCMP_BLOCKS u) fCMP_BLOCKS_BLOCKS 1
  let s3 := if st then s2.addMod (rCMP_BLOCKS u) fCMP_BLOCKS_STORED 1 else s2
  if s3.recBlocks u cfg ≤ r'.k then s3.cmpClose u else s3

/-- Samples of a full block. -/
def State.blockSamples (s : State) (u fmt : Nat) : Nat :=
  let c := s.cmpCodec u fmt
  c.blockComps / compsOf c.fmt

/-- Samples at the head of the queue that were lost are declared, and close the record before them. -/
def State.cmpLost (s : State) (u : Nat) : State :=
  let q := (s.cmpU u).queue
  let lost := (q.takeWhile fun x => !x.ok).length
  if lost = 0 then s
  else ((s.cmpClose u).updCmp u fun x => { x with queue := q.drop lost }).loseDirect (cmpSquare u) lost

/-- A record holds samples of one format: one of another format than `fmt` closes. -/
def State.cmpFormat (s : State) (u fmt : Nat) : State :=
  match (s.cmpU u).rec_ with
  | some r => if r.cfg.fmt = fmt then s else s.cmpClose u
  | none => s

/-- The samples that the next block of unit `u` may take, of the `n` of a full one: up to the first that is lost or of another format. -/
def State.cmpGood (s : State) (u n : Nat) : List Smp :=
  let q := (s.cmpU u).queue
  let fmt := (q.head?.map (·.fmt)).getD 0
  (q.take n).takeWhile fun x => x.ok && x.fmt == fmt

/-- The next block of unit `u`: a full one as soon as its samples are there, or a short one that closes the record where a
sample was lost. -/
def State.cmpStep (s : State) (u : Nat) : State :=
  let sl := s.cmpLost u
  let fmt := (((sl.cmpU u).queue.head?).map (·.fmt)).getD 0
  if (sl.cmpU u).queue.isEmpty then sl else
  let s0 := sl.cmpFormat u fmt
  let q := (s0.cmpU u).queue
  let n := s0.blockSamples u fmt
  let good := s0.cmpGood u n
  if n ≤ good.length then (s0.updCmp u fun x => { x with queue := q.drop n }).cmpBlock u good
  else if good.length < q.length then
    let s1 := s0.updCmp u fun x => { x with queue := q.drop good.length }
    let s2 := if good.isEmpty then s1 else s1.cmpBlock u good
    (s2.cmpClose u).cmpLost u
  else s0

/-- Everything received is coded and the record closes at its last sample. -/
def State.cmpDrain : Nat → State → Nat → State
  | 0, s, _ => s
  | n + 1, s, u =>
    let q := (s.cmpU u).queue
    if q.isEmpty then s.cmpClose u
    else
      let s0 := s.cmpFormat u ((q.head?.map (·.fmt)).getD 0)
      let k := s0.blockSamples u ((q.head?.map (·.fmt)).getD 0)
      let good := s0.cmpGood u k
      if k ≤ good.length || good.length < q.length then State.cmpDrain n (s.cmpStep u) u
      else ((s0.updCmp u fun x => { x with queue := [] }).cmpBlock u good).cmpClose u

/-- FLUSH, a new origin or a declared gap closes the record of unit `u` (R406). -/
def State.cmpFlush (s : State) (u : Nat) : State := State.cmpDrain ((s.cmpU u).queue.length + 1) s u

/-- Does the unit encode a stream? -/
def State.cmpEncodes (s : State) (u : Nat) : Bool :=
  s.flag (rCMP_CFG u) fCMP_CFG_USED && !s.flag (rCMP_CFG u) fCMP_CFG_DIR

/-- Samples reach an encoding unit. -/
def State.cmpTake (s : State) (u : Nat) (xs : List Smp) : State :=
  if s.cmpEncodes u then s.updCmp u fun x => { x with queue := x.queue ++ xs } else s

/-! ### Decoding (R407) -/

/-- Decodes the blocks of a coded stream: the components, of which those of an undecodable block are none, the number dropped,
and the blocks read. -/
def decodeAll (c : Codec) : Nat → Nat → List Byte → List (Option Int) × Nat × Nat
  | 0, _, _ => ([], 0, 0)
  | n + 1, left, bs =>
    if left = 0 then ([], 0, 0)
    else if bs.isEmpty then (List.replicate left none, left, 0)
    else
      let (size, k, vs) := nextBlock c left bs
      let (rest, bad, blocks) := decodeAll c n (left - k) (bs.drop size)
      match vs with
      | some v => (v.map some ++ rest, bad, blocks + 1)
      | none => (List.replicate k none ++ rest, k + bad, blocks + 1)

/-- Samples from components, spaced `d` from instant `t`; a sample with a dropped component is not there. Bit 31 of its flags says
that its loss is declared already. -/
def compSamples (fmt t d fl : Nat) (vs : List (Option Int)) : List Smp :=
  let q := compsOf fmt
  (upTo (vs.length / q)).map fun i =>
    let a := vs.getD (q * i) none
    let b := if q = 1 then some 0 else vs.getD (q * i + 1) none
    match a, b with
    | some x, some y => ⟨t + i * d, x, y, true, fl, fmt⟩
    | _, _ => ⟨t + i * d, 0, 0, false, fl ||| 2 ^ 31, fmt⟩

/-- Was the stream of context `x` coded from a converter square in the active plan? -/
def State.fromCnv (s : State) (x : Nat) : Bool :=
  s.routes.any fun r => r.ctx == some x && 61 ≤ r.src && r.src < 69
    && (s.routesInto r.src).any fun q => isCnvSquare q.src

/-- A decoding stream job takes the next replayed record and gives the samples of its stream. -/
def State.cmpDecode (s : State) (u : Nat) : State × List Smp :=
  if !(s.flag (rCMP_CFG u) fCMP_CFG_USED && s.flag (rCMP_CFG u) fCMP_CFG_DIR) then (s, [])
  else match s.nextReplay (cmpSquare u) with
    | none => (s, [])
    | some (r, s1) =>
      if r.typ != 0x04 then (s1, [])
      else
        let (c, n, coded, bad) := readPreamble (s1.fromCnv r.ctx) (r.bytes.take 32)
        let body := if coded = 0 then r.bytes.drop 32 else (r.bytes.drop 32).take coded
        let total := n * compsOf c.fmt
        let (vs, drop, blocks) := if bad then (List.replicate total none, total, 0) else decodeAll c (total + 1) total body
        let (k, s2) := s1.fresh
        let keep := flOverload ||| flHoldover ||| flCalHold ||| flClipped
        let xs := compSamples c.fmt (tick16 r.time + r.fine * 128) (Config.replaySpacing k) ((r.flags &&& keep) ||| s.holdFlag) vs
        let lost := (xs.filter fun x => !x.ok).length
        let s3 := s2.addMod (rCMP_BLOCKS u) fCMP_BLOCKS_BLOCKS blocks
        let s4 := if drop = 0 then s3
          else ((s3.addSat (rCMP_STAT u) fCMP_STAT_DECODE_ERR drop).loseFrom (cmpSquare u) lost).raiseLim 1000 (760 + u)
        (s4, xs)

/-! ### Buffer jobs (R408 to R410) -/

/-- STATE of the job. -/
def State.jobState (s : State) (u : Nat) : Nat := s.fld (rCMP_JOB_STATUS u) fCMP_JOB_STATUS_STATE

/-- A buffer job ends ABORTED. -/
def State.jobAbort (s : State) (u cause : Nat) : State :=
  if s.jobState u = 0 then s
  else
    ((s.setFlds (rCMP_JOB_STATUS u) [(fCMP_JOB_STATUS_STATE, 0), (fCMP_JOB_STATUS_RESULT, 2), (fCMP_JOB_STATUS_CAUSE, cause)]).updCmp
      u fun x => { x with job := none }).raise (744 + u)

/-- The settings of CMP_JOB_MODE. -/
def State.jobCodec (s : State) (u : Nat) : Codec :=
  let a := rCMP_JOB_MODE u
  let t := s.fld a fCMP_JOB_MODE_TABLE
  ⟨s.fld a fCMP_JOB_MODE_FMT, s.flag a fCMP_JOB_MODE_MODE, s.fld a fCMP_JOB_MODE_M, s.fld a fCMP_JOB_MODE_PRED,
    s.flag a fCMP_JOB_MODE_KIND, t, s.flag a fCMP_JOB_MODE_SRC_CNV, s.cmpTable u t⟩

/-- GO: `pre` is what the device reads of the first 32 source bytes, none where the read fails. DESIGN CHOICE (assumption 73): a decode job
whose preamble has a reserved code or bit is refused with BAD_MODE. -/
def State.jobGo (s : State) (u : Nat) (pre : Option (List Byte)) : State :=
  let st := rCMP_JOB_STATUS u
  let refuse := fun (n : Nat) => s.setFlds st [(fCMP_JOB_STATUS_RESULT, 3), (fCMP_JOB_STATUS_REASON, n)]
  let dec := s.flag (rCMP_JOB_MODE u) fCMP_JOB_MODE_DIR
  let c := s.jobCodec u
  let srcLen := s.fld (rCMP_JOB_LEN u) fCMP_JOB_LEN_SRC_LEN
  let dstLen := s.fld (rCMP_JOB_LEN u) fCMP_JOB_LEN_DST_LEN
  let comps := srcLen / compBytes c.fmt
  let (pc, n, coded, pbad) := readPreamble c.cnv ((pre.getD []).take 32)
  let start := fun (job : CmpJob) (inn out : Nat) =>
    ((s.setFlds st [(fCMP_JOB_STATUS_STATE, 1), (fCMP_JOB_STATUS_RESULT, 0), (fCMP_JOB_STATUS_REASON, 0),
      (fCMP_JOB_STATUS_CAUSE, 0)]).setFlds (rCMP_JOB_COUNT u) [(fCMP_JOB_COUNT_IN_DONE, inn), (fCMP_JOB_COUNT_OUT_DONE, out)]).updCmp
        u fun x => { x with job := some job }
  if s.jobState u != 0 || s.flag (rCMP_CFG u) fCMP_CFG_USED then refuse 1
  else if !dec && (c.fmt == 3 || c.pred == 3 || (if c.less then (c.cnv && c.fmt == 2) else !([4, 6, 8, 10].contains c.m))) then
    refuse 2
  else if dstLen % 64 != 0 || (!dec && srcLen % compBytes c.fmt != 0) then refuse 3
  else if dec then
    let job : CmpJob := ⟨pc, true, s.fld (rCMP_JOB_SRC u) fCMP_JOB_SRC_ADDR * 64, if coded = 0 then srcLen else min srcLen (32 + coded),
      s.fld (rCMP_JOB_DST u) fCMP_JOB_DST_ADDR * 64, dstLen, [], n * compsOf pc.fmt⟩
    if pre.isNone || !s.busOk then (start job 0 0).jobAbort u 2
    else if pbad then refuse 2
    else if dstLen < n * compsOf pc.fmt * compBytes pc.fmt then refuse 4
    else start job 32 0
  else if !c.less && dstLen < 32 + ceilDiv comps 64 * (1 + 8 * c.m) then refuse 4
  else
    let head := codedPreamble c (comps / compsOf c.fmt) (ceilDiv comps c.blockComps) 0
    let dst := s.fld (rCMP_JOB_DST u) fCMP_JOB_DST_ADDR * 64
    let job : CmpJob := ⟨c, false, s.fld (rCMP_JOB_SRC u) fCMP_JOB_SRC_ADDR * 64, srcLen, dst, dstLen, [], 0⟩
    if dstLen < 32 then start { job with pre := head } 0 0
    else if s.busOk then (start job 0 32).hostWrite dst head
    else (start job 0 0).jobAbort u 2

/-- The next block of a running job: `data` is what the device reads of the source from IN_DONE on, none where the read
fails. -/
def State.jobBlock (s : State) (u : Nat) (data : Option (List Byte)) : State :=
  match (s.cmpU u).job with
  | none => s
  | some j =>
    let inn := s.fld (rCMP_JOB_COUNT u) fCMP_JOB_COUNT_IN_DONE
    let out := s.fld (rCMP_JOB_COUNT u) fCMP_JOB_COUNT_OUT_DONE
    let left := j.srcLen - inn
    if s.jobState u != 1 || (if j.dec then j.left = 0 else left = 0) then s
    else match data with
      | none => s.jobAbort u 2
      | some bs =>
        if !s.busOk then s.jobAbort u 2
        else if j.dec then
          let (size, k, vs) := nextBlock j.cfg j.left (bs.take left)
          match vs with
          | none => s.jobAbort u 3
          | some v =>
            let o := compsBytes j.cfg.fmt v
            (((s.hostWrite (j.dst + out) o).setFlds (rCMP_JOB_COUNT u) [(fCMP_JOB_COUNT_IN_DONE, inn + size),
              (fCMP_JOB_COUNT_OUT_DONE, out + o.length)]).updCmp u fun x =>
                { x with job := some { j with left := j.left - k } }).addMod (rCMP_BLOCKS u) fCMP_BLOCKS_BLOCKS 1
        else
          let n := min left (j.cfg.blockComps * compBytes j.cfg.fmt)
          let raw := bs.take n ++ List.replicate (n - bs.length) 0
          let (k, s1) := s.fresh
          let (blk, stored) := codeBlock j.cfg k (compsOfBytes j.cfg.fmt (n / compBytes j.cfg.fmt) raw)
          let o := j.pre ++ blk
          if j.dstLen < out + o.length then (s1.setFld (rCMP_JOB_STATUS u) fCMP_JOB_STATUS_STATE 2).raise (752 + u)
          else
            let s2 := ((s1.hostWrite (j.dst + out) o).setFlds (rCMP_JOB_COUNT u) [(fCMP_JOB_COUNT_IN_DONE, inn + n),
              (fCMP_JOB_COUNT_OUT_DONE, out + o.length)]).updCmp u fun x => { x with job := some { j with pre := [] } }
            let s3 := s2.addMod (rCMP_BLOCKS u) fCMP_BLOCKS_BLOCKS 1
            if stored then s3.addMod (rCMP_BLOCKS u) fCMP_BLOCKS_STORED 1 else s3

/-- RESUME: a PAUSED job goes on in the new destination; otherwise the write is discarded (R409). -/
def State.jobResume (s : State) (u : Nat) : State :=
  match (s.cmpU u).job with
  | some j =>
    if s.jobState u = 2 then
      ((s.setFld (rCMP_JOB_STATUS u) fCMP_JOB_STATUS_STATE 1).setFld (rCMP_JOB_COUNT u) fCMP_JOB_COUNT_OUT_DONE 0).updCmp u fun x =>
        { x with job := some { j with
            dst := s.fld (rCMP_JOB_DST u) fCMP_JOB_DST_ADDR * 64
            dstLen := s.fld (rCMP_JOB_LEN u) fCMP_JOB_LEN_DST_LEN } }
    else s.addSat (rCMP_STAT u) fCMP_STAT_CMD_DISC 1
  | none => s.addSat (rCMP_STAT u) fCMP_STAT_CMD_DISC 1

/-- The link accepts the last output byte: the job ends DONE (R410). -/
def State.jobDone (s : State) (u : Nat) : State :=
  match (s.cmpU u).job with
  | none => s
  | some j =>
    let inn := s.fld (rCMP_JOB_COUNT u) fCMP_JOB_COUNT_IN_DONE
    if s.jobState u = 1 && (if j.dec then j.left == 0 else inn == j.srcLen) then
      ((s.setFlds (rCMP_JOB_STATUS u) [(fCMP_JOB_STATUS_STATE, 0), (fCMP_JOB_STATUS_RESULT, 1)]).updCmp u fun x =>
        { x with job := none }).raise (736 + u)
    else s

/-! ### Writes -/

/-- A write to CMP_JOB_CTRL: ABORT, then RESUME, then GO. -/
def State.wrCmpJobCtrl (u : Nat) (pre : Option (List Byte)) (v : Word) (s : State) : State :=
  let s1 := if fget v fCMP_JOB_CTRL_ABORT = 1 then s.jobAbort u 1 else s
  let s2 := if fget v fCMP_JOB_CTRL_RESUME = 1 then s1.jobResume u else s1
  if fget v fCMP_JOB_CTRL_GO = 1 then s2.jobGo u pre else s2

/-- Do the rates of a unit's routes carry its coded stream (R411)? `m` is M. -/
def ratesFit (less : Bool) (m fmt inRate outRate : Nat) : Bool :=
  if less then inRate * 4112 ≤ outRate * 4096 else inRate * (1 + 8 * m) ≤ outRate * 64 * compBytes fmt

/-- Would a value of M break the RATE test of the active plan? -/
def State.mBreaks (s : State) (u m : Nat) : Bool :=
  let sq := cmpSquare u
  s.cmpEncodes u && !s.flag (rCMP_CFG u) fCMP_CFG_MODE &&
    (s.routesInto sq).any fun i => (s.routesFrom sq).any fun o => !ratesFit false m (s.fld (rCMP_CFG u) fCMP_CFG_FMT) i.rate o.rate

/-- A write to CMP_STREAM: discarded whole with a value of M or PRED that is not one, or that breaks the RATE test; FLUSH closes the
record. -/
def State.wrCmpStream (u : Nat) (v : Word) (s : State) : State :=
  let m := fget v fCMP_STREAM_M
  if !([4, 6, 8, 10].contains m) || fget v fCMP_STREAM_PRED = 3 || s.mBreaks u m then s.addSat (rCMP_STAT u) fCMP_STAT_CMD_DISC 1
  else
    let s1 := s.wrCodes (rCMP_STREAM u) v [fCMP_STREAM_FLUSH]
    if fget v fCMP_STREAM_FLUSH = 1 && s1.cmpEncodes u then s1.cmpFlush u else s1

/-- The parameter commit of unit `u` (R176, R404). -/
def State.cmpCommit (s : State) (u : Nat) : State :=
  (upTo 4).foldl (fun t k =>
    if k = 0 then t
    else if 2 ^ 15 < kraft (lensOf (t.rd (rCMP_TAB u k 0)).toNat (t.rd (rCMP_TAB u k 1)).toNat) then
      t.addSat (rCMP_STAT u) fCMP_STAT_TAB_DISC 1
    else (t.commitReg (rCMP_TAB u k 0)).commitReg (rCMP_TAB u k 1)) (s.commitReg (rCMP_STREAM u))

/-- The parameter commit of every codec unit. -/
def State.cmpParamCommit (s : State) : State := (upTo 8).foldl State.cmpCommit s

/-! ### Plan records (R411) -/

/-- Is the unit record of a codec unit valid? -/
def PlanImg.cmpValid (p : PlanImg) (u : UnitRec) : Bool :=
  let sq := u.square
  let w := p.word sq 0
  let dec := w % 2 == 1
  let less := w / 2 % 2 == 1
  let fmt := p.fmtInto sq
  let m := ((p.params.filter fun e => e.1 == rCMP_STREAM (sq - 61)).getLast?.map fun e => fget e.2 fCMP_STREAM_M).getD 8
  u.body.length == 1 && w / 4 == 0
    && (match p.into sq with
        | [r] => (if dec then isPort r.src else r.src < 24 || isPort r.src)
            && r.rate ≤ 64 * 65536 && (!less || r.rate * 4112 ≤ 64 * 65536 * 4096)
            && (dec || (p.from_ sq).all fun o => o.dsts.all isPort && ratesFit less m fmt r.rate o.rate)
        | _ => false)

/-- CMP_CFG of every unit under a plan, or under none; a unit that gets a record aborts its buffer job. -/
def State.cmpPlan (s : State) (p : Option PlanImg) : State :=
  (upTo 8).foldl (fun t u =>
    let sq := cmpSquare u
    match p.bind fun q => (q.unit? sq).map fun _ => q with
    | some q =>
      let w := q.word sq 0
      let src := (q.srcOf sq).getD 0
      (t.jobAbort u 5).wr (rCMP_CFG u) (fsets 0 [(fCMP_CFG_USED, 1), (fCMP_CFG_DIR, w), (fCMP_CFG_MODE, w / 2),
        (fCMP_CFG_SRC, src), (fCMP_CFG_FMT, q.fmtInto sq)])
    | none => (t.wr (rCMP_CFG u) 0).updCmp u fun x => { x with queue := [], rec_ := none }) s

end Sys2Proof.Machine
end

