-- ==== Sys2Proof/Machine/Operands.lean ====
section
/-! DEFINITION. The operand forms of the Turf instructions: d registers, control registers, accumulators, DM words and
pointers with their address updates, and the moments at which written values are seen (R319 to R321). -/

namespace Sys2Proof.Machine

/-- A core right after device reset (R316). -/
def core0 : Core :=
  { st := .halted, pm := [], dm := [], d := [], cr := [], acc := [], accL := [], vL := false, shadow := 0, late := [],
    pc := 0, br := none, rpt := none, after := false, calls := [], loops := [], wait := none, ring := [], wptr := 0,
    loss := false, gap := false, sendQ := [], cycles := 0, timer := 0 }

/-- Core `c`. -/
def State.tcore (s : State) (c : Nat) : Core := SMap.get core0 s.turf c
/-- Core `c` replaced. -/
def State.setTcore (s : State) (c : Nat) (x : Core) : State := { s with turf := SMap.set core0 s.turf c x }
/-- Core `c` changed. -/
def State.updTcore (s : State) (c : Nat) (f : Core → Core) : State := s.setTcore c (f (s.tcore c))

/-! ### Reading -/

/-- Register d`i`, 16 bits. -/
def Core.dReg (x : Core) (i : Nat) : Nat := SMap.get 0 x.d i
/-- Register d`i` as a signed number. -/
def Core.dInt (x : Core) (i : Nat) : Int := toSigned 16 (x.dReg i)
/-- A DM word. -/
def Core.dmWord (x : Core) (w : Nat) : Nat := SMap.get 0 x.dm (w % 8192)
/-- A DM word as a signed number. -/
def Core.dmInt (x : Core) (w : Nat) : Int := toSigned 16 (x.dmWord w)
/-- Control register `i` (Table 14-4). -/
def Core.crReg (x : Core) (i : Nat) : Nat := SMap.get 0 x.cr i
/-- Pointer `k`, its step register, base and length. -/
def Core.p (x : Core) (k : Nat) : Nat := x.crReg k
def Core.n (x : Core) (k : Nat) : Int := toSigned 13 (x.crReg (8 + k))
def Core.b (x : Core) (k : Nat) : Nat := x.crReg (16 + k)
def Core.l (x : Core) (k : Nat) : Nat := x.crReg (24 + k)
/-- Remaining count of the innermost loop, sr, ier and ipr. -/
def Core.lc (x : Core) : Nat := x.crReg 32
def Core.sr (x : Core) : Nat := x.crReg 33
def Core.ier (x : Core) : Nat := x.crReg 34
def Core.ipr (x : Core) : Nat := x.crReg 35
/-- Bit `i` of sr. -/
def Core.srBit (x : Core) (i : Nat) : Bool := x.sr / 2 ^ i % 2 == 1
/-- sr.RND. -/
def Core.rndMode (x : Core) : Nat := x.sr / 2 ^ 10 % 4
/-- Accumulator `a`, and as EXT, EXPA and ACP read it (Table 14-6). -/
def Core.accReg (x : Core) (a : Nat) : Int := SMap.get 0 x.acc a
def Core.accLag (x : Core) (a : Nat) : Int := SMap.get 0 x.accL a

/-- What MOVC reads of control register `i`: n sign-extended, all others zero-extended; an index that the spec leaves undefined
gives a free value (R319). -/
def Core.crValue (x : Core) (i : Nat) : Nat :=
  if 8 ≤ i && i < 16 then ofSigned 16 (x.n (i - 8))
  else if i < 36 then x.crReg i
  else Config.crOpen i % 2 ^ 16

/-! ### Writing -/

/-- The bits a control register keeps of a written value (R319, Table 14-5); an index above 35 keeps none. -/
def crMask (i : Nat) : Nat :=
  if i < 24 then 0x1FFF else if i < 32 then 0x3FFF else if i = 32 then 0xFFFF else if i = 33 then 0x1F3F
  else if i < 36 then 0xF else 0

/-- No late write to `t` is outstanding any more: a younger instruction has written it. -/
def Core.dropLate (x : Core) (t : LateTo) : Core := { x with late := x.late.filter fun e => e.dst != t }

/-- The bits `m` of sr have been written by a younger instruction. -/
def Core.dropSr (x : Core) (m : Nat) : Core :=
  { x with late := x.late.map fun e => if e.dst = .cr 33 then { e with mask := e.mask - (e.mask &&& m) } else e }

/-- A d register written, seen from +1. -/
def Core.setD (x : Core) (i v : Nat) : Core :=
  { x.dropLate (.d i) with d := SMap.set 0 x.d i (v % 2 ^ 16) }

/-- A control register written, seen from +1. -/
def Core.setCr (x : Core) (i v : Nat) : Core :=
  { x.dropLate (.cr i) with cr := SMap.set 0 x.cr i (v &&& crMask i) }

/-- The bits `m` of sr replaced by those of `v`, seen from +1. -/
def Core.setSr (x : Core) (m v : Nat) : Core :=
  let y := x.dropSr m
  { y with cr := SMap.set 0 y.cr 33 ((y.sr - (y.sr &&& m)) + (v &&& m)) }

/-- An accumulator written. -/
def Core.setAcc (x : Core) (a : Nat) (v : Int) : Core := { x with acc := SMap.set 0 x.acc a v }

/-- A write that instructions see only from the `n`-th issue after this one (Table 14-6). -/
def Core.later (x : Core) (n : Nat) (t : LateTo) (v : Nat) : Core :=
  { x with late := x.late ++ [⟨n, t, v, 0xFFFF⟩] }

/-- LD and MBR write a d register: seen from +2, as is an older write that is still on its way until then. -/
def Core.loadD (x : Core) (i v : Nat) : Core := x.later 2 (.d i) (v % 2 ^ 16)

/-- ST, MOVM, FTAP and BSCL write a DM word: seen from +2. -/
def Core.storeDm (x : Core) (w v : Nat) : Core := x.later 2 (.dm (w % 8192)) (v % 2 ^ 16)

/-- LDC and MOVC write a control register: seen from +3. -/
def Core.loadCr (x : Core) (i v : Nat) : Core :=
  if i < 36 then x.later 3 (.cr i) v else x

/-- A late write takes effect; a write of 1 to a bit of ipr clears it. -/
def Core.applyLate (x : Core) (e : Late) : Core :=
  match e.dst with
  | .d i => { x with d := SMap.set 0 x.d i e.v }
  | .dm w => { x with dm := SMap.set 0 x.dm w e.v }
  | .cr i =>
    if i = 35 then { x with cr := SMap.set 0 x.cr 35 (x.ipr - (x.ipr &&& e.v)) }
    else if i = 33 then
      let m := e.mask &&& 0x1F3F
      let v := (x.sr - (x.sr &&& m)) + (e.v &&& m)
      { x with cr := SMap.set 0 x.cr 33 v, vL := if m % 2 = 1 then v % 2 == 1 else x.vL }
    else { x with cr := SMap.set 0 x.cr i (e.v &&& crMask i) }

/-- The next instruction issues: late writes come one issue nearer, and those that it sees take effect. -/
def Core.mature (x : Core) : Core :=
  let due := x.late.filter fun e => e.n ≤ 1
  let rest := (x.late.filter fun e => 1 < e.n).map fun e => { e with n := e.n - 1 }
  due.foldl Core.applyLate { x with late := rest }

/-- Every instruction issued so far retires: all late writes take effect. -/
def Core.retire (x : Core) : Core := x.late.foldl Core.applyLate { x with late := [] }

/-! ### Address updates (R320) -/

/-- A pointer `p` moved by `step` under base `b` and length `l`. -/
def stepPtr (p b l : Nat) (step : Int) : Nat :=
  let m := min l 8192
  if m = 0 then ((p + step) % 8192).toNat
  else (b + ((p : Int) + step - b) % m).toNat % 8192

/-- The step of address mode `am`. -/
def Core.step (x : Core) (k am : Nat) : Int :=
  if am = 0 then 0 else if am = 1 then 1 else if am = 2 then -1 else x.n k

/-- Pointer `k` modified by address mode `am`. -/
def Core.modify (x : Core) (k am : Nat) : Core :=
  x.setCr k (stepPtr (x.p k) (x.b k) (x.l k) (x.step k am))

end Sys2Proof.Machine
end

