-- ==== Sys2Proof/Machine/Flags.lean ====
section
/-! DEFINITION. The flags of sr and the arithmetic helpers of the Turf instructions (Table 14-5, R330). -/

namespace Sys2Proof.Machine

/-- Bits of sr. -/
abbrev srV : Nat := 1
abbrev srS : Nat := 2
abbrev srZ : Nat := 4
abbrev srN : Nat := 8
abbrev srC : Nat := 16
abbrev srLoss : Nat := 32
abbrev srIe : Nat := 0x1000

/-- Z and N of a 16-bit result. -/
def Core.flagsZN (x : Core) (v : Nat) : Core :=
  x.setSr (srZ + srN) (srZ * b2n (v % 2 ^ 16 == 0) + srN * b2n (v / 2 ^ 15 % 2 == 1))

/-- Z and N of a 16-bit result, and C. -/
def Core.flagsZNC (x : Core) (v : Nat) (c : Bool) : Core :=
  x.setSr (srZ + srN + srC)
    (srZ * b2n (v % 2 ^ 16 == 0) + srN * b2n (v / 2 ^ 15 % 2 == 1) + srC * b2n c)

/-- A sticky bit of sr sets when `on`. -/
def Core.stick (x : Core) (bit : Nat) (on : Bool) : Core := if on then x.setSr bit bit else x

/-- The sum of two 16-bit numbers, and its carry. -/
def addC (a b : Nat) : Nat × Bool := ((a + b) % 2 ^ 16, 2 ^ 16 ≤ a + b)

/-- The difference of two 16-bit numbers, and "no borrow". -/
def subC (a b : Nat) : Nat × Bool := ((a + 2 ^ 16 - b) % 2 ^ 16, b ≤ a)

/-- Bits of `v`, from bit `i - 1` downwards, that equal the sign `neg`, before the first that differs. -/
def sameBits (neg : Bool) (v : Nat) : Nat → Nat
  | 0 => 0
  | i + 1 => if (v / 2 ^ i % 2 == 1) == neg then 1 + sameBits neg v i else 0

/-- rsb16 of a 16-bit word. -/
def rsb16 (v : Nat) : Nat := sameBits (v / 2 ^ 15 % 2 == 1) v 15

/-- rsb40 of an accumulator. -/
def rsb40 (a : Int) : Nat := sameBits (a < 0) (ofSigned 40 a) 39

/-- prod(x, y). -/
def Core.prod (x : Core) (a b : Int) : Int := if x.srBit 8 then 2 * (a * b) else a * b

/-- accw(v): the value an accumulator takes, and whether it overflowed 40 bits. -/
def Core.accw (x : Core) (v : Int) : Int × Bool :=
  if v < -(2 ^ 39) ∨ (2 : Int) ^ 39 ≤ v then
    (if x.srBit 9 then satS 40 v else toSigned 40 (ofSigned 40 v), true)
  else (v, false)

/-- Accumulator `a` takes accw(v), and V sets on overflow. -/
def Core.accPut (x : Core) (a : Nat) (v : Int) : Core :=
  let (r, o) := x.accw v
  (x.setAcc a r).stick srV o

/-- rnd(v, n) under rounding mode `m` (3 acts as 1). -/
def rndBy (m : Nat) (v : Int) (n : Nat) : Int :=
  if n = 0 then v else if m = 0 then v / 2 ^ n else if m = 2 then rndEven v n else rndHalfUp v n

/-- sat16(v): the clamped value, and whether it was clamped. -/
def sat16 (v : Int) : Int × Bool := (satS 16 v, satS 16 v != v)

/-- ash(v, c): the shifted value, and whether it saturated. -/
def Core.ash (x : Core) (v c : Int) : Int × Bool :=
  let k := if c < -16 then -16 else if 15 < c then 15 else c
  if 0 ≤ k then sat16 (v * 2 ^ k.toNat) else (rndBy x.rndMode v (-k).toNat, false)

/-- A saturated 16-bit result to register d`i`: S, Z and N. -/
def Core.putSat (x : Core) (i : Nat) (r : Int × Bool) : Core :=
  ((x.setD i (ofSigned 16 r.1)).stick srS r.2).flagsZN (ofSigned 16 r.1)

/-- A branch condition of R329; V is read as Table 14-6 lets B see it. -/
def Core.cond (x : Core) (k : Nat) : Bool :=
  let z := x.srBit 2
  let n := x.srBit 3
  let c := x.srBit 4
  match k with
  | 0 => true
  | 1 => z
  | 2 => !z
  | 3 => n
  | 4 => !n
  | 5 => !n && !z
  | 6 => n || z
  | 7 => c
  | 8 => !c
  | 9 => x.vL
  | 10 => !x.vL
  | _ => false

end Sys2Proof.Machine
end

