-- ==== Sys2Proof/Machine/Turf.lean ====
section
/-! DEFINITION. Turf cores and clusters: issuing an instruction, runs and aborts, interrupts, input rings, sends and the mailbox
(R303 to R328, R331, R533). -/

namespace Sys2Proof.Machine

/-! ### Sequencing (R322 to R325) -/

/-- Where an instruction may stand: opcodes 0x00 to 0x2B anywhere, RELR in delay slots and at the end of a loop body too, the
others in neither (R322 to R324). -/
inductive Place where
  | plain | relr | other
  deriving DecidableEq, Repr

/-- Is pc one of the last two addresses of an active loop's body, or in a delay slot? -/
def Core.tailSlot (x : Core) : Bool :=
  x.br.isSome || x.loops.any fun l => l.1 ≤ x.pc && (x.pc == l.2.1 || x.pc + 1 == l.2.1)

/-- May an instruction of this placement issue at pc now? -/
def Core.placeOk (x : Core) (k : Place) : Bool :=
  (x.rpt.isNone || k == .plain) && (!x.tailSlot || k != .other)

/-- pc moves on from an instruction that no branch takes away: at the end of a loop body the loop turns, or is exhausted and
popped. -/
def Core.loopNext : Nat → Core → Core
  | 0, x => { x with pc := (x.pc + 1) % 2048 }
  | n + 1, x =>
    match x.loops with
    | (st, en, saved) :: rest =>
      if x.pc = en then
        if x.lc ≤ 1 then Core.loopNext n ({ x with loops := rest }.setCr 32 saved)
        else { x.setCr 32 (x.lc - 1) with pc := st }
      else { x with pc := (x.pc + 1) % 2048 }
    | [] => { x with pc := (x.pc + 1) % 2048 }

/-- pc moves on after an instruction that issued while the branch `b` was under way. -/
def Core.slotNext (x : Core) (b : Option Br) : Core :=
  match b with
  | none => x.loopNext 4
  | some q =>
    if q.n ≤ 1 then
      let y := match q.dst with
        | some t => { x with pc := t, br := none }
        | none => { x with br := none }.loopNext 4
      if q.ie then y.setSr srIe srIe else y
    else { x with pc := (x.pc + 1) % 2048, br := some { q with n := q.n - 1 } }

/-- The core moves on after an instruction: `x0` as the instruction issued, `x` with its effect. -/
def Core.advance (x0 x : Core) : Core :=
  match x0.rpt with
  | some n =>
    if 1 < n then { x with rpt := some (n - 1) }
    else { x with rpt := none, after := true }.slotNext x0.br
  | none => x.slotNext x0.br

/-! ### Interrupts (R326 to R328) -/

/-- Does the instruction word at pc start a holdoff of its own? -/
def Core.startsHold (x : Core) : Bool :=
  let op := SMap.get 0 x.pm x.pc / 2 ^ 26
  0x30 ≤ op && op ≤ 0x35

/-- Is a holdoff in force? -/
def Core.holdoff (x : Core) : Bool := x.br.isSome || x.rpt.isSome || (x.after && !x.startsHold)

/-- The pending interrupts that ier enables. -/
def Core.pending (x : Core) : Nat := x.ier &&& x.ipr

/-- The lowest number among them. -/
def Core.irq (x : Core) : Nat := ((upTo 4).find? fun i => x.pending / 2 ^ i % 2 == 1).getD 0

/-- Is an interrupt taken at this boundary (R327)? -/
def Core.irqReady (x : Core) : Bool :=
  (x.st == .running || x.st == .stalled) && x.srBit 12 && x.pending != 0 && !x.holdoff

/-- IDLE ends once any interrupt has its bits set in ier and ipr. -/
def Core.wakeIdle (x : Core) : Core :=
  if x.st = .idle && x.pending != 0 then Core.advance x { x with st := .running } else x

/-- Bit `i` of ipr sets. -/
def Core.pend (x : Core) (i : Nat) : Core :=
  ({ x with cr := SMap.set 0 x.cr 35 (x.ipr ||| 2 ^ i) }).wakeIdle

/-! ### The end of a run (R317, R533) -/

/-- The cluster of core `c` (R303). -/
abbrev tcCluster (c : Nat) : Nat := c / 8
/-- The square of cluster `k` (R304). -/
abbrev clSquare (k : Nat) : Nat := 57 + k

/-- Puts a route in its place by number. -/
def insRoute (r : Route) : List Route → List Route
  | [] => [r]
  | q :: l => if r.num < q.num then r :: q :: l else q :: insRoute r l

/-- Routes in ascending order of their numbers. -/
def sortRoutes (l : List Route) : List Route := l.foldl (fun a r => insRoute r a) []

/-- Outbound route `r` of cluster `k` (R331). -/
def State.clOut (s : State) (k r : Nat) : Option Route := (sortRoutes (s.routesFrom (clSquare k)))[r]?

/-- Input slot `i` of cluster `k` (R331). -/
def State.clIn (s : State) (k i : Nat) : Option Route := (sortRoutes (s.routesInto (clSquare k)))[i]?

/-- A run of core `c` ends with a result and a cause. -/
def State.tcEnd (s : State) (c result cause : Nat) : State :=
  (s.setFlds (rTC_STATUS c)
      [(fTC_STATUS_RESULT, result), (fTC_STATUS_CAUSE, cause), (fTC_STATUS_RUNS, s.fld (rTC_STATUS c) fTC_STATUS_RUNS + 1)]).updTcore
    c fun x => { x with st := .halted, wait := none, br := none, rpt := none, after := false }

/-- The TURF_ABORT records of the contexts that lost queued records; TC_ABORTED follows the first of them, or is raised at once
when there is none (R36, R533). -/
def State.tcFaults (s : State) (c cause : Nat) (lost : List (Nat × Nat)) : State :=
  let open_ := lost.filter fun e => (s.ctx e.1).st != .closed
  match open_ with
  | [] => s.raise (385 + 4 * c)
  | (x, n) :: rest =>
    let det := c + cause * 2 ^ 8
    let s1 := (s.loseItems x n).recover x 5 (385 + 4 * c) det 0 (some ⟨385 + 4 * c, none, 0, 5, 0, false⟩)
    rest.foldl (fun t e => (t.loseItems e.1 e.2).recover e.1 5 (385 + 4 * c) det 0 none) s1

/-- A run of core `c` is aborted with `cause`: queued records are discarded and counted, and an instruction that waits is cancelled. A command
that issues an instruction stands for it up to its write stage, so those issued before have retired (DESIGN CHOICE, assumption 70). -/
def State.tcAbort (s : State) (c cause : Nat) : State :=
  let x := s.tcore c
  if x.st = .halted then s
  else
    let k := tcCluster c
    let lost := (upTo 4).filterMap fun r =>
      let n := (x.sendQ.filter fun q => q.r == r).length
      match (s.clOut k r).bind (·.ctx) with
      | some y => if n = 0 then none else some (y, n)
      | none => none
    let s2 := s.addSat (rTC_SOUT_STAT c) fTC_SOUT_STAT_DISCARDED x.sendQ.length
    (((s2.updTcore c fun y => { y.retire with sendQ := [] }).tcEnd c 2 cause)).tcFaults c cause lost

/-- A fault of causes 2 to 7 at the instruction now issuing: those before it retire. -/
def State.tcFault (s : State) (c cause : Nat) : State :=
  let x := s.tcore c
  ((s.updTcore c Core.retire).setFld (rTC_STATUS c) fTC_STATUS_FAULT_PC x.pc).tcAbort c cause

/-! ### Cycles, the timer and the watchdog -/

/-- The timer of a core counts `n` CCLK cycles; with PERIOD of them elapsed, TIMER pends (Table 14-7). -/
def Core.tickTimer (x : Core) (cfg : Word) (n : Nat) : Core :=
  if fget cfg fTC_TIMER_EN = 0 then { x with timer := 0 }
  else if fget cfg fTC_TIMER_PERIOD ≤ x.timer + n then
    ({ x with timer := x.timer + n - fget cfg fTC_TIMER_PERIOD }).pend 2
  else { x with timer := x.timer + n }

/-- `n` CCLK cycles of core `c` pass: TC_CYCLES, the timer, and the watchdog (cause 8). -/
def State.tcCycle (s : State) (c n : Nat) : State :=
  let x := s.tcore c
  let lim := s.fld (rTC_LIMIT c) fTC_LIMIT_CYCLES
  let y := if x.st = .halted then x else { x with cycles := (x.cycles + n) % 2 ^ 64 }
  let s1 := s.setTcore c (y.tickTimer (s.rd (rTC_TIMER c)) n)
  if x.st != .halted && lim != 0 && x.cycles < lim && lim ≤ x.cycles + n then s1.tcAbort c 8 else s1

/-! ### Issuing (R321) -/

/-- What an instruction does to the core and to the rest of the machine. -/
inductive Issue where
  | next (x : Core)
  | nextWith (x : Core) (s : State)
  | wait (x : Core) (w : CWait)
  | sleep (x : Core)
  | halt (x : Core)
  | fault (cause : Nat)

/-- Core `c` issues an instruction of placement `k` with effect `f` at pc. A core that is not RUNNING issues nothing. -/
def State.issue (s : State) (c : Nat) (k : Place) (f : Core → Issue) : State :=
  let x := s.tcore c
  if x.st != .running then s
  else
    let x0 := x.mature
    let lag := fun (y : Core) => { y with accL := x0.acc, vL := x0.srBit 0 }
    if !x0.placeOk k then (s.tcFault c 2)
    else
      match f { x0 with after := false } with
      | .next y => (s.setTcore c (Core.advance x0 (lag y))).tcCycle c 1
      | .nextWith y t => (t.setTcore c (Core.advance x0 (lag y))).tcCycle c 1
      | .wait y w => (s.setTcore c { lag y with st := .stalled, wait := some w }).tcCycle c 1
      | .sleep y => (s.setTcore c ({ lag y with st := .idle }).wakeIdle).tcCycle c 1
      | .halt y =>
        ((s.setTcore c { (lag y).retire with cycles := (x.cycles + 1) % 2 ^ 64 }).tcEnd c 1 0).raise (384 + 4 * c)
      | .fault e => (s.setTcore c x0).tcFault c e

/-- An instruction of opcodes 0x00 to 0x2B with effect `f` on the core. -/
def State.issuePlain (s : State) (c : Nat) (f : Core → Core) : State := s.issue c .plain fun x => .next (f x)

/-- The interrupt of core `c` is taken, if one may be (R327). -/
def State.tcInterrupt (s : State) (c : Nat) : State :=
  let x := s.tcore c
  if !x.irqReady then s
  else if 8 ≤ x.calls.length then s.tcFault c 3
  else
    let i := x.irq
    let y := { x with
      calls := x.pc :: x.calls
      shadow := x.sr
      st := .running
      wait := none
      after := false
      pc := 8 * (i + 1)
      cr := SMap.set 0 x.cr 35 (x.ipr - (x.ipr &&& 2 ^ i)) }
    (s.setTcore c (y.setSr srIe 0)).tcCycle c 3

/-! ### Stalls -/

/-- The queued record takes its place. -/
def Core.queue (x : Core) (q : TSend) : Core := { x with sendQ := x.sendQ ++ [q] }

/-- GETR pP takes the next record that it has not returned (R330). -/
def Core.takeRec (x : Core) (sin : Word) (p : Nat) : Option Core :=
  match x.ring.find? (fun r => !r.ret) with
  | none => none
  | some r =>
    let ring := (x.ring.takeWhile (·.ret)) ++ { r with ret := true } :: (x.ring.dropWhile (·.ret)).tail
    let y := ((({ x with ring := ring }.setCr p r.at_).setCr (16 + p) (fget sin fTC_SIN_BASE)).setCr (24 + p)
      (fget sin fTC_SIN_LEN))
    some (if x.loss then { y with loss := false }.setSr srLoss srLoss else y)

/-- MBPOST: outbound FULL sets and TC_MBOX is raised. -/
def State.mbPost (s : State) (c : Nat) : State :=
  (s.setFld (rTC_MBOUT_CTRL c) fTC_MBOUT_CTRL_FULL 1).raise (386 + 4 * c)

/-- A stall ends: the instruction completes and the core goes on. -/
def State.unstall (s : State) (c : Nat) (x y : Core) : State :=
  s.setTcore c (Core.advance x { y with st := .running, wait := none })

/-- The stalled instruction of core `c` completes, if what it waits for is there. -/
def State.tcWake (s : State) (c : Nat) : State :=
  let x := s.tcore c
  match x.wait with
  | some (.getr p) =>
    match x.takeRec (s.rd (rTC_SIN c)) p with
    | some y => s.unstall c x y
    | none => s
  | some (.send q) => if x.sendQ.length < 4 then s.unstall c x (x.queue q) else s
  | some .swait => if x.sendQ.isEmpty then s.unstall c x x else s
  | some .mbpost =>
    if s.flag (rTC_MBOUT_CTRL c) fTC_MBOUT_CTRL_FULL then s else (s.unstall c x x).mbPost c
  | none => s

/-! ### The host's side -/

/-- Starts a run (R316). -/
def State.tcRun (s : State) (c : Nat) : State :=
  let x := s.tcore c
  if x.st != .halted then s.addSat (rTC_STAT c) fTC_STAT_CMD_DISC 1
  else
    let s1 := s.setFlds (rTC_STATUS c) [(fTC_STATUS_RESULT, 0), (fTC_STATUS_CAUSE, 0)]
    let y : Core := { x with
      st := .running
      late := []
      pc := s.fld (rTC_CTRL c) fTC_CTRL_ENTRY
      br := none
      rpt := none
      after := false
      calls := []
      loops := []
      wait := none
      vL := false
      accL := x.acc
      cycles := 0
      ring := x.ring.map fun r => { r with ret := false } }
    s1.setTcore c (((y.setCr 33 0).setCr 34 0).setCr 35 0)

/-- A write to TC_CTRL: ENTRY, then ABORT, then RUN. -/
def State.wrTcCtrl (c : Nat) (v : Word) (s : State) : State :=
  let s1 := s.setFld (rTC_CTRL c) fTC_CTRL_ENTRY (fget v fTC_CTRL_ENTRY)
  let s2 := if fget v fTC_CTRL_ABORT = 1 then s1.tcAbort c 1 else s1
  if fget v fTC_CTRL_RUN = 1 then s2.tcRun c else s2

/-- Host writes of 32-bit instructions from PM address `a` on (R306, R307); each discarded access counts once. -/
def State.wrPm (s : State) (c a : Nat) (ws : List Nat) : State :=
  if (s.tcore c).st != .halted then s.addSat (rTC_STAT c) fTC_STAT_PM_DISC 1
  else s.updTcore c fun x =>
    { x with pm := (ws.zip (upTo ws.length)).foldl (fun m (e : Nat × Nat) => SMap.set 0 m (a + e.2) (e.1 % 2 ^ 32)) x.pm }

/-- Host writes of 16-bit words from DM word `w` on (R306, R307). -/
def State.wrDm (s : State) (c w : Nat) (ws : List Nat) : State :=
  s.updTcore c fun x =>
    { x with dm := (ws.zip (upTo ws.length)).foldl (fun m (e : Nat × Nat) => SMap.set 0 m (w + e.2) (e.1 % 2 ^ 16)) x.dm }

/-- Words held by unreleased records of the ring. -/
def Core.fill (x : Core) : Nat := x.ring.foldl (fun n r => n + r.n) 0

/-- A write to TC_SIN: discarded while the ring holds an unreleased record (R309), and out of the ranges of Table 14-10. -/
def State.wrTcSin (c : Nat) (v : Word) (s : State) : State :=
  let len := fget v fTC_SIN_LEN
  let base := fget v fTC_SIN_BASE
  if !(s.tcore c).ring.isEmpty || !(len == 0 || (64 ≤ len && len ≤ 8192 && len % 32 == 0)) || base % 32 != 0
      || 8192 < base + len then
    s.addSat (rTC_STAT c) fTC_STAT_CFG_DISC 1
  else
    (s.setFlds (rTC_SIN c) [(fTC_SIN_LEN, len), (fTC_SIN_BASE, base)]).updTcore c fun x => { x with wptr := base }

/-- A write to TC_MBIN[c][k], discarded with OVERRUN while FULL (R315). -/
def State.wrMbin (c k : Nat) (v : Word) (s : State) : State :=
  if s.flag (rTC_MBIN_CTRL c) fTC_MBIN_CTRL_FULL then s.setFld (rTC_MBIN_CTRL c) fTC_MBIN_CTRL_OVERRUN 1
  else s.wr (rTC_MBIN c k) v

/-- A write to TC_MBIN_CTRL: OVERRUN is W1C; POST sets FULL and pends MBOX_IN, or sets OVERRUN while FULL. -/
def State.wrMbinCtrl (c : Nat) (v : Word) (s : State) : State :=
  let s1 := if fget v fTC_MBIN_CTRL_OVERRUN = 1 then s.setFld (rTC_MBIN_CTRL c) fTC_MBIN_CTRL_OVERRUN 0 else s
  if fget v fTC_MBIN_CTRL_POST = 0 then s1
  else if s1.flag (rTC_MBIN_CTRL c) fTC_MBIN_CTRL_FULL then s1.setFld (rTC_MBIN_CTRL c) fTC_MBIN_CTRL_OVERRUN 1
  else (s1.setFld (rTC_MBIN_CTRL c) fTC_MBIN_CTRL_FULL 1).updTcore c fun x => x.pend 0

/-- A write to TC_MBOUT_CTRL: ACK clears FULL and lets a stalled MBPOST complete. -/
def State.wrMboutCtrl (c : Nat) (v : Word) (s : State) : State :=
  if fget v fTC_MBOUT_CTRL_ACK = 1 then (s.setFld (rTC_MBOUT_CTRL c) fTC_MBOUT_CTRL_FULL 0).tcWake c else s

/-! ### Clusters (R308 to R314) -/

/-- Cluster `k`. -/
def State.cluster (s : State) (k : Nat) : Cluster := SMap.get ⟨[], 0⟩ s.clusters k
def State.updCluster (s : State) (k : Nat) (f : Cluster → Cluster) : State :=
  { s with clusters := SMap.upd ⟨[], 0⟩ s.clusters k f }

/-- The LEN of a core's ring. -/
def State.ringLen (s : State) (c : Nat) : Nat := s.fld (rTC_SIN c) fTC_SIN_LEN

/-- Writes a record into a core's ring, or drops it when it is larger than the ring (R309, R310). -/
def State.ringStore (s : State) (c : Nat) (bs : List Byte) : State :=
  let n := (bs.length + 1) / 2
  let len := s.ringLen c
  if len < n then
    ((s.updTcore c fun x => { x with loss := true, gap := true }).addSat (rTC_SIN_STAT c) fTC_SIN_STAT_OVERSIZE
      1).raiseLim 1000 (387 + 4 * c)
  else
    let base := s.fld (rTC_SIN c) fTC_SIN_BASE
    let x := s.tcore c
    let at_ := x.wptr
    let dm := (upTo n).foldl (fun m i =>
      SMap.set 0 m (base + (at_ - base + i) % len) (leNat ((bs.drop (2 * i)).take 2))) x.dm
    let none_ := x.ring.all (·.ret)
    let y := { x with
      dm := dm
      ring := x.ring ++ [⟨at_, n, false⟩]
      wptr := base + (at_ - base + n) % len }
    ((s.setTcore c (if none_ then y.pend 1 else y)).addMod (rTC_SIN_STAT c) fTC_SIN_STAT_RECEIVED 1).tcWake c

/-- Has the core room for a record of `n` words, or is the record larger than its ring? -/
def State.ringRoom (s : State) (c n : Nat) : Bool :=
  s.ringLen c < n || n ≤ s.ringLen c - (s.tcore c).fill

/-- The cluster takes the next record of input slot `i` and writes it into its cores (R308). -/
def State.tcArrival (s : State) (k i : Nat) : State :=
  match s.clIn k i with
  | none => s
  | some rt =>
    match s.nextReplayOn (clSquare k) rt.num with
    | none => s
    | some (r, s1) =>
      let bs := r.hdr ++ r.bytes
      let n := (bs.length + 1) / 2
      let cfg := s.rd (rTCL_IN k i)
      let cores := (upTo 8).filter fun j => fget cfg fTCL_IN_CORES / 2 ^ j % 2 == 1 && s.ringLen (8 * k + j) != 0
      let count := fun (t : State) => t.addMod (rTCL_IN k i) fTCL_IN_RECORDS 1
      if cores.isEmpty then s
      else if fget cfg fTCL_IN_MODE = 1 then
        if cores.all fun j => s.ringRoom (8 * k + j) n then
          count (cores.foldl (fun t j => t.ringStore (8 * k + j) bs) s1)
        else s
      else
        let nx := SMap.get 0 (s.cluster k).rr i
        let j := ((cores.find? fun j => nx ≤ j).orElse fun _ => cores.head?).getD 0
        if s.ringRoom (8 * k + j) n then
          count ((s1.updCluster k fun q => { q with rr := SMap.set 0 q.rr i (j + 1) }).ringStore (8 * k + j) bs)
        else s

/-- The bytes of a queued record as DM holds them. -/
def Core.sendBytes (x : Core) (q : TSend) : List Byte :=
  (upTo (q.len / 2)).flatMap fun (i : Nat) => leBytes 2 (x.dmWord (stepPtr q.p q.b q.l i))

/-- The cluster reads the next queued record, round robin over its cores, and sends it (R312, R313); a record whose WAIT route has no credit
stays queued (R157), and one made in HO_GAP is lost (R49). -/
def State.tcReadout (s : State) (k : Nat) : State :=
  let ready := fun (c : Nat) => match (s.tcore c).sendQ with
    | [] => false
    | q :: _ => match s.clOut k q.r with
      | some rt => !(rt.wait && rt.dsts.any (s.noCredit rt))
      | none => false
  match (upTo 8).find? fun i => ready (8 * k + ((s.cluster k).out + i) % 8) with
  | none => s
  | some i =>
    let j := ((s.cluster k).out + i) % 8
    let c := 8 * k + j
    let x := s.tcore c
    match x.sendQ with
    | [] => s
    | q :: rest =>
      match s.clOut k q.r with
      | none => s
      | some rt =>
        let bs := x.retire.sendBytes q
        let w3 := leNat ((bs.drop 24).take 8)
        let fl := w3 / 2 ^ 48
        let fl' := (fl - (fl &&& (flGap ||| flRestart))) ||| (if x.gap then flGap else 0)
        let rec_ : Prod := { prod0 with
          ctx := rt.ctx.getD 0
          typ := 0x60
          time := leNat ((bs.drop 16).take 8)
          fine := w3 / 2 ^ 32 % 2 ^ 9
          flags := fl'
          items := 1
          pre := bs.drop 32 }
        let y := { x with sendQ := rest, gap := false }
        let s1 := (s.setTcore c (if rest.isEmpty then y.pend 3 else y)).updCluster k fun q => { q with out := (j + 1) % 8 }
        let s2 := (s1.addMod (rTC_SOUT_STAT c) fTC_SOUT_STAT_SENT 1).addMod (rTCL_OUT k q.r) fTCL_OUT_RECORDS 1
        (if s.hoGap then s2.loseItems rec_.ctx 1
          else (rt.dsts.filter isPort).foldl (fun t d => t.sendPort rt d rec_) s2).tcWake c

/-- Empties the ring of core `c`, counting what was not released (R314). -/
def State.tcFlush (s : State) (c : Nat) : State :=
  let x := s.tcore c
  if x.ring.isEmpty then s
  else
    (s.addSat (rTC_STAT c) fTC_STAT_FLUSHED x.ring.length).updTcore c fun y => { y with ring := [], loss := true, gap := true }

/-- The cores of a cluster that a plan commit leaves idle (cause 9), or every core at a datapath restart (cause 10). -/
def State.tcStop (s : State) (cause : Nat) (cores : List Nat) : State :=
  cores.foldl (fun t c => (t.tcAbort c cause).tcFlush c) s

/-! ### Plan records (R331) -/

/-- Is the unit record of a cluster valid? -/
def PlanImg.turfValid (p : PlanImg) (u : UnitRec) : Bool :=
  let into := p.routes.filter fun r => r.dsts.contains u.square
  let nums := u.body.map fun w => fget w ⟨0, 10⟩
  into.all (fun r => isPort r.src && r.wait)
    && nums.length == into.length && into.all (fun r => nums.contains r.num) && nums.eraseDups.length == nums.length
    && u.body.all (fun w => fget w ⟨16, 2⟩ ≤ 1 && fget w ⟨24, 8⟩ != 0)
    && (p.routes.filter fun r => r.src == u.square).all fun r => r.dsts.all isPort

/-- The cluster registers as a plan (or none) leaves them, and the runs of clusters left idle abort (R314, R317). The plan is
active already. -/
def State.turfPlan (s : State) (p : Option PlanImg) : State :=
  (upTo 4).foldl (fun t k =>
    let u := p.bind fun q => q.units.find? fun u => u.square == clSquare k
    let t1 := if u.isSome then t else t.tcStop 9 ((upTo 8).map fun j => 8 * k + j)
    let t2 := (upTo 8).foldl (fun (v : State) i =>
      match v.clIn k i with
      | none => v.wr (rTCL_IN k i) 0
      | some r =>
        let body := ((u.map (·.body)).getD []).find? fun w => fget w ⟨0, 10⟩ == r.num
        let w := body.getD 0
        let old := v.rd (rTCL_IN k i)
        let keep := fget old fTCL_IN_VALID == 1 && fget old fTCL_IN_ROUTE == r.num
        (v.wr (rTCL_IN k i) (fsets 0 [(fTCL_IN_VALID, 1), (fTCL_IN_MODE, fget w ⟨16, 2⟩), (fTCL_IN_CORES, fget w ⟨24, 8⟩),
          (fTCL_IN_ROUTE, r.num), (fTCL_IN_RECORDS, if keep then fget old fTCL_IN_RECORDS else 0)])).updCluster k fun q =>
            if keep then q else { q with rr := SMap.set 0 q.rr i 0 }) t1
    (upTo 4).foldl (fun (v : State) r =>
      match v.clOut k r with
      | none => v.wr (rTCL_OUT k r) 0
      | some rt =>
        let old := v.rd (rTCL_OUT k r)
        let keep := fget old fTCL_OUT_VALID == 1 && fget old fTCL_OUT_ROUTE == rt.num
        v.wr (rTCL_OUT k r) (fsets 0 [(fTCL_OUT_VALID, 1), (fTCL_OUT_CONTEXT, rt.ctx.getD 0), (fTCL_OUT_ROUTE, rt.num),
          (fTCL_OUT_RECORDS, if keep then fget old fTCL_OUT_RECORDS else 0)])) t2) s

end Sys2Proof.Machine
end

