-- ==== Sys2Proof/Machine/Sto.lean ====
section
/-! DEFINITION. The Woodyard's commands, credit, and the order in which egress agents serve contexts (R343, R350 to R358,
R369, R371). -/

namespace Sys2Proof.Machine

/-! ### Reasons of STO_CMD_STATUS -/

abbrev stFree : Nat := 1
abbrev stOwner : Nat := 2
abbrev stRefLimit : Nat := 3
abbrev stSwLimit : Nat := 4
abbrev stNoSwref : Nat := 5
abbrev stState : Nat := 6
abbrev stRange : Nat := 7
abbrev stWriting : Nat := 8

/-! ### Software references (R343) -/

/-- TAKE of billet `b` for context `x`: the reason of a refusal (0 none), and the state after. -/
def State.swTake (s : State) (x b : Nat) : Nat × State :=
  let t := s.billet b
  let limit := fun (r : Nat) => (r, (s.addSat rSTO_CNT1 fSTO_CNT1_REF_LIMIT 1).raise 643)
  if nBillets ≤ b then (stRange, s)
  else if !t.used then (stFree, s)
  else if t.owner != x || !(s.ctx x).exts.any (fun e => e.billet == b) then (stOwner, s)
  else if t.writer then (stWriting, s)
  else if 255 ≤ s.refOf b then limit stRefLimit
  else if 15 ≤ t.swref then limit stSwLimit
  else (0, s.setBillet b { t with swref := t.swref + 1 })

/-- FREE of billet `b`: a FREE that leaves REF above 0 is deferred. -/
def State.swFree (s : State) (b : Nat) : Nat × State :=
  let t := s.billet b
  if nBillets ≤ b then (stRange, s)
  else if t.swref = 0 then (stNoSwref, (s.addSat rSTO_CNT1 fSTO_CNT1_FREE_BAD 1).raise 642)
  else
    let s1 := s.setBillet b { t with swref := t.swref - 1 }
    let s2 := if s1.refOf b = 0 then s1
      else (s1.setBillet b { t with swref := t.swref - 1, defer := true }).addSat rSTO_CNT0 fSTO_CNT0_FREE_DEFERRED 1
    (0, s2.settleBillet b)

/-! ### STO_CMD -/

/-- FLUSH of context `x` (R350). -/
def State.stoFlush (s : State) (x : Nat) : Nat × State :=
  if (s.ctx x).st = .opened then (0, s.flushCtx x) else (stState, s)

/-- DISCARD of context `x`: every destination hold on its cord ends, the items of undelivered records count in LOST, and a DRAINING
context is CLOSED (Table 15-2). FAULT records held for want of a billet go with the cord, and the event of one is never raised, since it
never reaches the store (R36; DESIGN CHOICE, assumption 58). -/
def State.stoDiscard (s : State) (x : Nat) : Nat × State :=
  let c := s.ctx x
  if c.st = .opened then (stState, s)
  else
    let undone := c.recs.filter fun r => c.destList.any fun d => (c.dest d).doneTo < r.pos + r.len && !r.skips d
    let n := undone.foldl (fun k r => k + r.items) 0
    let c1 := { c with
      lost := satN 64 (c.lost + n)
      faults := []
      dests := c.dests.map fun t => { t with fin := max t.fin c.wpos, begun := max t.begun c.wpos, doneTo := max t.doneTo c.wpos } }
    (0, (s.setCtx x c1).settle x)

/-- QUERY: STO_BQ shows billet `b`. -/
def State.stoQuery (s : State) (b : Nat) : Nat × State :=
  if nBillets ≤ b then (stRange, s)
  else
    let t := s.billet b
    (0, s.wr rSTO_BQ (fsets 0 [
      (fSTO_BQ_BILLET, b), (fSTO_BQ_STATE, if !t.used then 0 else if t.ring && t.writer then 2 else 1),
      (fSTO_BQ_OWNER, t.owner), (fSTO_BQ_DEFER, b2n t.defer), (fSTO_BQ_WRITER, b2n t.writer),
      (fSTO_BQ_HBIAS, b2n t.hbias), (fSTO_BQ_ZC, b2n (t.used && s.zcHold b)), (fSTO_BQ_SWREF, t.swref),
      (fSTO_BQ_REF, s.refOf b)]))

/-- RESULT and REASON of a command. -/
def State.stoResult (r : Nat × State) : State :=
  r.2.setFlds rSTO_CMD_STATUS [(fSTO_CMD_STATUS_RESULT, if r.1 = 0 then 1 else 2), (fSTO_CMD_STATUS_REASON, r.1)]

/-- A write to STO_CMD: the command is applied with STO_CMD_ARG (R343); the codes 0, 6 and 7 are
discarded, and every command while the store is being initialised (R380). -/
def State.wrStoCmd (v : Word) (s : State) : State :=
  let x := s.fld rSTO_CMD_ARG fSTO_CMD_ARG_CONTEXT
  let b := s.fld rSTO_CMD_ARG fSTO_CMD_ARG_BILLET
  if s.flag rMEM_MAP fMEM_MAP_MAP_BUSY then s.addSat rSTO_CNT1 fSTO_CNT1_CMD_DISC 1
  else
  let s := s.srExit
  match fget v fSTO_CMD_CMD with
  | 1 => State.stoResult (s.swTake x b)
  | 2 => State.stoResult (s.swFree b)
  | 3 => State.stoResult (s.stoFlush x)
  | 4 => State.stoResult (s.stoDiscard x)
  | 5 => State.stoResult (s.stoQuery b)
  | _ => s.addSat rSTO_CNT1 fSTO_CNT1_CMD_DISC 1

/-- The code of a context's state in STO_CSNAP1. -/
def ctxStCode : CtxSt → Nat
  | .closed => 0
  | .opened => 1
  | .draining => 2

/-- A write to STO_CSNAP: with SNAP 1 the block is captured for CONTEXT (R358). -/
def State.wrStoCsnap (v : Word) (s : State) : State :=
  let x := fget v fSTO_CSNAP_CONTEXT
  let s1 := s.setFld rSTO_CSNAP fSTO_CSNAP_CONTEXT x
  if fget v fSTO_CSNAP_SNAP = 0 then s1
  else
    let c := s.ctx x
    ((((s1.addMod rSTO_CSNAP fSTO_CSNAP_SEQ 1).wr rSTO_CSNAP0 (BitVec.ofNat 64 c.seq)).wr rSTO_CSNAP1 (fsets 0 [
      (fSTO_CSNAP1_EPOCH, c.epoch), (fSTO_CSNAP1_STATE, ctxStCode c.st), (fSTO_CSNAP1_HELD, c.held)])).wr rSTO_CSNAP2
        (BitVec.ofNat 64 c.lost)).wr rSTO_CSNAP3 (fsets 0 [(fSTO_CSNAP3_OVERFLOW, c.overflow), (fSTO_CSNAP3_SHED, c.shed)])

/-! ### Store ports -/

/-- Port `p` takes the first record of its inbox whose context `ok` allows; a record that must wait stays in its place. The ring billets
of an acquisition record that has left the inbox are held by its cord from here on, or by nothing. -/
def State.portTake (s : State) (p : Nat) (ok : Prod → Bool) : State :=
  let q := (s.port p).inbox
  match q.find? ok with
  | none => s
  | some r =>
    let i := (q.takeWhile fun e => !ok e).length
    let out := fun (t : State) (keep : List Prod) =>
      (if keep.isEmpty then r.ring.map (·.billet) else []).eraseDups.foldl State.settleBillet
        (t.onPorts fun _ => SMap.set ⟨[]⟩ t.ports p ⟨q.take i ++ keep ++ q.drop (i + 1)⟩)
    match s.place r with
    | (s1, .waits w) => out s1 [{ r with policed := w == 2 }]
    | (s1, _) => out s1 []

/-- A record reaches store port `p`: the oldest whose context's credit is not withheld. -/
def State.arrive (s : State) (p : Nat) : State := s.portTake p fun r => (s.ctx r.ctx).waiting.isNone

/-- The ports a waiting record of context `x` stands at. -/
def State.waitPorts (s : State) (x : Nat) : List Nat :=
  (s.ports.filter fun e => e.2.inbox.any fun r => r.ctx == x).map (·.1)

/-- Credit withheld from context `x` for reason `why` is looked at again. -/
def State.retryCtx (s : State) (x why : Nat) : State :=
  match (s.ctx x).waiting with
  | some (_, w) =>
    if w = why then (s.waitPorts x).foldl (fun t p => t.portTake p fun r => r.ctx == x) s else s
  | none => s

/-! ### Zero-copy release (R352, R353) -/

/-- Ends HOST_ZC holds of context `x` after `n` publish entries came back: the stream is finished up to the end of the last of
them. -/
def State.zcRelease (s : State) (x n : Nat) : State :=
  let c := s.ctx x
  let out := c.zcPub - c.zcRel
  if n = 0 then s
  else if out < n || c.st = .closed then (s.addSat rSTO_CNT1 fSTO_CNT1_ZC_BAD_RELEASE 1).raise 645 (some x)
  else
    match c.destList.find? (fun d => c.destType d == 2) with
    | none => s
    | some d =>
      let p := ((c.zcEnds.take n).getLast?.map (·.2)).getD 0
      let s1 := s.setCtx x { c with zcRel := c.zcRel + n, zcEnds := c.zcEnds.drop n, zcFullSaid := false }
      (s1.finishTo x d p).zcRun x

/-- ZC_INDEX of context `x`. -/
def State.zcIndex (s : State) (x : Nat) : Word :=
  let c := s.ctx x
  BitVec.ofNat 64 (c.zcRel % 2 ^ 16 + c.zcPub % 2 ^ 16 * 2 ^ 32)

/-- A tail billet with unpublished records older than ZC_FLUSH_US is flushed (R351). -/
def State.zcFlush (s : State) (x : Nat) : State :=
  let c := s.ctx x
  match c.tail, c.destList.find? (fun d => c.destType d == 2) with
  | some _, some _ =>
    if c.st = .opened then
      (s.reach (c.zcFirst + s.usTicks c.zcFlushUs)).flushCtx x
    else s
  | _, _ => s

/-- The switch of billet `b` to host or device bias completes (R351, R422): in host bias publishing goes on; in device bias the
billet is free once nothing holds it. A billet whose holds have ended while it went to host bias goes back at once. -/
def State.biasDone (s : State) (b : Nat) : State :=
  let t := s.billet b
  match t.switch with
  | none => s
  | some true =>
    let s1 := ((s.setBillet b { t with switch := none, hbias := true }).addMod rGLB_HIF_BIAS fGLB_HIF_BIAS_TO_HOST 1).zcRun t.owner
    (s1.settleBillet b).closeIfDrained t.owner
  | some false =>
    let s1 := ((s.setBillet b { t with switch := none, hbias := false }).addMod rGLB_HIF_BIAS fGLB_HIF_BIAS_TO_DEVICE 1).settleBillet b
    s1.closeIfDrained t.owner

/-! ### Who is served next (R369) -/

/-- The rank of a waiting record: class, then the nearest deadline, then the context number (0 where the class has no
deadlines). -/
def serveBefore (a b : Nat × Nat × Nat) : Bool :=
  a.1 < b.1 || (a.1 == b.1 && (a.2.1 < b.2.1 || (a.2.1 == b.2.1 && a.2.2 < b.2.2)))

/-- The records that wait at destinations of type `ty` and index `ix`: context, destination, record. -/
def State.waitingAt (s : State) (ty ix : Nat) : List (Nat × Nat × CordRec) :=
  s.ctxs.filterMap fun e =>
    if e.2.st = .closed then none
    else match e.2.findDest ty ix with
      | none => none
      | some d => (e.2.nextRec d).map fun r => (e.1, d, r)

/-- The key of the turns at a destination: BEST_EFFORT and BACKGROUND contexts take turns of their own (Table 16-1). -/
def turnKey (ty ix cls : Nat) : Nat := ty * 4096 + ix + if cls = 3 then 32768 else 0

/-- Is context `x` among those whose turn comes before the contexts start again (0), or not (1)? -/
def State.turnOf (s : State) (ty ix cls x : Nat) : Nat := if SMap.get 0 s.served (turnKey ty ix cls) ≤ x then 0 else 1

/-- The rank of a waiting record at a destination; in the classes without deadlines the contexts take turns. -/
def State.rankOf (s : State) (ty ix : Nat) (w : Nat × Nat × CordRec) : Nat × Nat × Nat :=
  let c := s.ctx w.1
  if c.cls < 2 then (c.cls, (w.2.2.due.getD w.2.1 none).getD 0, w.1)
  else (c.cls, s.turnOf ty ix c.cls w.1, w.1)

/-- The waiting record served next at a destination. -/
def State.serveNext (s : State) (ty ix : Nat) : Option (Nat × Nat × CordRec) :=
  (s.waitingAt ty ix).foldl (fun best w =>
    match best with
    | none => some w
    | some b => if serveBefore (s.rankOf ty ix w) (s.rankOf ty ix b) then some w else some b) none

/-- Context `x` of class `cls` has been served at a destination: its turn is over with the end of the record (`done`), one record per turn;
GUARANTEED and ASSURED contexts take no turns (R369, Table 16-1). -/
def State.hadTurn (s : State) (ty ix cls x : Nat) (done : Bool) : State :=
  if cls < 2 then s else { s with served := SMap.set 0 s.served (turnKey ty ix cls) (if done then x + 1 else x) }

end Sys2Proof.Machine
end

