-- ==== Sys2Proof/Machine/Adm.lean ====
section
/-! DEFINITION. Admission tests and commands, and deadline misses (R348, R359 to R376). -/

namespace Sys2Proof.Machine

/-! ### Is an entry valid in itself (R348, R415, R438)? -/

/-- The largest INDEX of a destination type. -/
def indexMax (ty : Nat) : Nat :=
  match ty with
  | 1 => 127
  | 2 => 0
  | 3 => 4095
  | 4 => 3
  | 5 => 15
  | _ => 4095

/-- Is any of the bits of mask `m` set in word `w` of an entry? -/
def entryBits (e : List Word) (w m : Nat) : Bool := (e.getD w 0) &&& BitVec.ofNat 64 m != 0

/-- The checks of R348 that concern the entry alone; `cxl` says that the CXL.mem window exists (R415). -/
def entryValid (e : List Word) (cxl : Bool) : Bool :=
  let ds := (upTo 4).filter fun d => entryDestType e d != 0
  let key := fun (d : Nat) => (entryDestType e d, entryDestIndex e d)
  let zc := ds.filter fun d => entryDestType e d == 2
  let res := entryFld e 3 ⟨0, 21⟩
  let lim := entryFld e 3 ⟨32, 21⟩
  entryFld e 0 ⟨12, 1⟩ == 1
    && !entryBits e 0 0xFFFFFFFFFFC0E000 && !entryBits e 1 0xFF800000 && !entryBits e 2 0xFFFFFFFF00000000
    && !entryBits e 3 0xFFE00000FFE00000 && !entryBits e 4 0x8000800080008000 && !entryBits e 5 0xFFF
    && !entryBits e 6 0xFFFFFFFF0000FFE0 && e.getD 7 0 == 0
    && entryFld e 0 ⟨18, 2⟩ != 3 && entryFld e 0 ⟨20, 2⟩ != 3
    && ds.all (fun d => entryDestType e d ≤ 5 && entryDestIndex e d ≤ indexMax (entryDestType e d))
    && (ds.map key).eraseDups.length == ds.length
    && 2 ≤ res && res ≤ nBillets && res ≤ lim && lim ≤ nBillets
    && (match zc with
      | [] => e.getD 5 0 == 0 && e.getD 6 0 == 0
      | [_] => cxl && 6 ≤ entryFld e 6 ⟨0, 5⟩ && entryFld e 6 ⟨0, 5⟩ ≤ 16 && 1 ≤ entryFld e 6 ⟨16, 16⟩
      | _ => false)

/-- R360: RATE and LATENCY as the class asks. -/
def contractOk (e : List Word) : Bool :=
  if entryFld e 0 ⟨16, 2⟩ < 2 then entryFld e 1 ⟨0, 23⟩ != 0 && entryFld e 2 ⟨0, 32⟩ != 0
  else entryFld e 2 ⟨0, 32⟩ == 0

/-- The DMA channels an entry names. -/
def entryChannels (e : List Word) : List Nat :=
  ((upTo 4).filter fun d => entryDestType e d == 1).map fun d => entryDestIndex e d

/-! ### Resources (Table 16-4) -/

/-- Lanes counted for a sub-port under a MODE, in halves (Table 21-1, R456). -/
def laneHalves (mode sub : Nat) : Nat :=
  match mode, sub with
  | 1, 0 => 8
  | 2, 0 => 4
  | 2, 2 => 4
  | 3, _ => 2
  | 4, 0 => 4
  | 5, 0 => 4
  | 5, 2 => 2
  | 5, 3 => 2
  | _, _ => 0

/-- Lanes of the CXL link by its WIDTH, and the rate in 1/2 GT/s by its RATE. -/
def linkLanes (width : Nat) : Nat :=
  match width with
  | 1 => 4
  | 2 => 8
  | 3 => 16
  | _ => 0
def linkHalfGt (rate : Nat) : Nat :=
  match rate with
  | 0 => 5
  | 1 => 10
  | 2 => 16
  | 3 => 32
  | 4 => 64
  | _ => 0

/-- The ceiling of resource `r` in 10^-15 of 1/65,536 byte per DCLK (R362, R416). -/
def State.ceilRaw (s : State) (r : Nat) : Nat :=
  let gb := fun (n d : Nat) => n * 10 ^ 9 * 65536 * s.tickFs / d
  if r = 0 then gb 168 1
  else if r = 1 then gb (48 * s.hif.bw) (16 * 64)
  else if r < 18 then
    gb (45 * laneHalves (s.fld (rNET_PORT_CFG ((r - 2) / 4)) fNET_PORT_CFG_MODE) ((r - 2) % 4)) 8
  else 64 * 65536 * 10 ^ 15

/-- The ceiling of resource `r` as the registers show it, 1/65,536 byte per DCLK. -/
def State.ceilOf (s : State) (r : Nat) : Nat := s.ceilRaw r / 10 ^ 15

/-- The resource that destination `d` of an entry is charged to, if any. -/
def State.resOf (s : State) (e : List Word) (d : Nat) : Option Nat :=
  match entryDestType e d with
  | 1 => some 1
  | 2 => some 1
  | 3 => some (2 + s.fld (rAVE_CFG (entryDestIndex e d)) fAVE_CFG_SUB)
  | 5 => some (18 + entryDestIndex e d)
  | _ => none

/-! ### Displays -/

/-- Frame bytes of layer `l` of output `n`: the cells of the accumulator that feeds the layer's context, or STRIDE × H. -/
def State.layerBytes (s : State) (n l : Nat) : Nat :=
  if l = 1 then fget (s.actv (rDIS_LAYER n)) fDIS_LAYER_STRIDE * s.afld (rDIS_RECT n 1) fDIS_RECT_H
  else
    match s.ctxs.find? fun c => c.2.st != .closed && (c.2.findDest 4 (2 * n)).isSome with
    | none => 0
    | some (x, _) =>
      match s.routes.find? fun r => r.ctx == some x && 32 ≤ r.src && r.src < 36 with
      | none => 0
      | some r =>
        let w := (s.uword r.src 0).toNat
        64 + 4 * 2 ^ (w % 16 + w / 16 % 16)

/-- S_disp: each enabled layer's frame bytes times the vertical rate, in 1/65,536 byte per DCLK, rounded up (R495). -/
def State.dispLoad (s : State) : Nat :=
  (upTo 2).foldl (fun (a n : Nat) =>
    let ctl := s.actv (rDIS_CTRL n)
    let pix := s.actv (rCLK_PIX n)
    let h := s.actv (rDIS_HTIM n)
    let v := s.actv (rDIS_VTIM n)
    let sum := fun (w : Word) => fget w ⟨0, 16⟩ + fget w ⟨16, 16⟩ + fget w ⟨32, 16⟩ + fget w ⟨48, 16⟩
    let bytes := (if fget ctl fDIS_CTRL_DEN_EN = 1 then s.layerBytes n 0 else 0)
      + (if fget ctl fDIS_CTRL_OVL_EN = 1 then s.layerBytes n 1 else 0)
    if fget ctl fDIS_CTRL_EN = 0 then a
    else a + ceilDiv (bytes * 10 ^ 10 * 2 ^ 24 * 65536 * s.tickFs)
      ((fget pix fCLK_PIX_DIV * 2 ^ 24 + fget pix fCLK_PIX_FRAC) * sum h * sum v * 10 ^ 15)) 0

/-! ### The tests (Table 16-3) -/

/-- A contract under test: context, entry, and path latency. -/
structure Flow where
  x : Nat
  e : List Word
  p : Nat
  deriving DecidableEq, Repr

def Flow.cls (f : Flow) : Nat := entryFld f.e 0 ⟨16, 2⟩
def Flow.rate (f : Flow) : Nat := entryFld f.e 1 ⟨0, 23⟩
def Flow.burst (f : Flow) : Nat := 64 * entryFld f.e 1 ⟨32, 32⟩
def Flow.dests (f : Flow) : List Nat := (upTo 4).filter fun d => entryDestType f.e d != 0

/-- D_e of a destination in ticks (Table 16-2). -/
def State.flowDe (s : State) (f : Flow) (d : Nat) : Nat :=
  match entryDestType f.e d with
  | 1 => s.nsTicks 2000
  | 2 => s.nsTicks (1000 + 1000 * entryFld f.e 6 ⟨16, 16⟩)
  | 3 => s.nsTicks 1000
  | 5 => s.nsTicks 64
  | _ => 0

/-- D_mem in ticks (R361). -/
def State.dMem (s : State) : Nat := s.nsTicks (s.fld rADM_MEM fADM_MEM_DMEM_NS)

/-- d_ie of the destinations that have a deadline: destination, resource, relative deadline (R361). -/
def State.relDeadlines (s : State) (f : Flow) : List (Nat × Nat × Int) :=
  f.dests.filterMap fun d => (s.resOf f.e d).map fun r =>
    (d, r, (entryFld f.e 2 ⟨0, 32⟩ : Int) - f.p - s.flowDe f d - s.dMem)

/-- The left side of STORE, 1/65,536 byte per DCLK. -/
def State.storeLoad (s : State) (fs : List Flow) : Nat :=
  (fs.filter fun f => f.cls < 2).foldl (fun n f =>
    n + f.rate * (1 + (f.dests.filter fun d => entryDestType f.e d != 4).length)) 0 + s.dispLoad

/-- How many destinations of a contract lie on resource `r`. -/
def State.destsOn (s : State) (f : Flow) (r : Nat) : Nat := (f.dests.filter fun d => s.resOf f.e d == some r).length

/-- The left side of DEST for resource `r`. -/
def State.destLoad (s : State) (fs : List Flow) (r : Nat) : Nat :=
  (fs.filter fun f => f.cls < 2).foldl (fun n f => n + f.rate * s.destsOn f r) 0

/-- The failing context of a test over a sum (R363). -/
def blame (admitted : List Nat) (xs : List Nat) : Nat :=
  let new := xs.filter fun x => !admitted.contains x
  (if new.isEmpty then xs else new).foldl min 4096 % 4096

/-- A failed test: REASON, RESOURCE (63 none), CONTEXT. -/
abbrev AdmFail := Nat × Nat × Nat

/-- The deadlines that DEMAND sees on resource `r`: a GUARANTEED contract takes part in the store with its smallest. -/
def State.demandPts (s : State) (fs : List Flow) (r : Nat) : List (Int × Flow) :=
  (fs.filter fun f => f.cls == 0).flatMap fun f =>
    let ds := s.relDeadlines f
    if r = 0 then
      match ds with
      | [] => []
      | d :: rest => [(rest.foldl (fun m e => min m e.2.2) d.2.2, f)]
    else (ds.filter fun d => d.2.1 == r).map fun d => (d.2.2, f)

/-- DEMAND on resource `r`: the smallest point at which it fails, with its contributors. -/
def State.demandFail (s : State) (fs : List Flow) (r : Nat) : Option (List Nat) :=
  let pts := s.demandPts fs r
  let bad := pts.filter fun (t : Int × Flow) =>
    let need := pts.foldl (fun (n : Int) (q : Int × Flow) =>
      if q.1 ≤ t.1 then n + 65536 * q.2.burst + q.2.rate * (t.1 - q.1) else n) 0
    (s.ceilRaw r : Int) * t.1 < need * 10 ^ 15
  match bad with
  | [] => none
  | b :: rest =>
    let t := rest.foldl (fun m q => min m q.1) b.1
    some ((pts.filter fun q => q.1 ≤ t).map fun q => q.2.x)

/-- The tests of Table 16-3 in order, on a set of contracts of which `admitted` are admitted already. -/
def State.admTest (s : State) (fs : List Flow) (admitted : List Nat) : Option AdmFail :=
  let ga := fs.filter fun f => f.cls < 2
  let store := if s.ceilOf 0 < s.storeLoad fs then some (1, 0, blame admitted (ga.map (·.x))) else none
  let dest := ((upTo 34).find? fun r => r != 0 && s.ceilOf r < s.destLoad fs r).map fun r =>
    (2, r, blame admitted ((ga.filter fun f => s.destsOn f r != 0).map (·.x)))
  let budget := ga.findSome? fun f => ((s.relDeadlines f).find? fun d => d.2.2 < 1).map fun d => (3, d.2.1, f.x)
  let demand := (upTo 34).findSome? fun r => (s.demandFail fs r).map fun xs => (4, r, blame admitted xs)
  let names := fs.map (·.x)
  let sum := fs.foldl (fun n f => n + entryFld f.e 3 ⟨0, 21⟩) 0
    + s.ctxs.foldl (fun n c => if c.2.st = .draining && !names.contains c.1 then n + c.2.reserve else n) 0
  let rsum := if nBillets < sum then some (5, 63, blame admitted names) else none
  let rone := (ga.find? fun f => entryFld f.e 3 ⟨0, 21⟩ <
    ceilDiv (65536 * f.burst + f.rate * entryFld f.e 2 ⟨0, 32⟩) (65536 * 16384) + 2).map fun f => (5, 63, f.x)
  store.orElse fun _ => dest.orElse fun _ => budget.orElse fun _ => demand.orElse fun _ => rsum.orElse fun _ => rone

/-! ### Sets -/

/-- The admitted contracts: the contexts that are OPEN. -/
def State.admitted (s : State) : List Flow :=
  (s.ctxs.filter fun c => c.2.st == .opened).map fun c => ⟨c.1, c.2.entry, c.2.plat⟩

/-- The contracts of a plan with its path latencies. -/
def State.planFlows (s : State) (p : PlanImg) : List Flow :=
  p.ctxs.map fun e => let x := entryFld e 0 ⟨0, 12⟩; ⟨x, e, s.ctxLatency p x⟩

/-- The runtime contracts admitted now. -/
def State.runtimeFlows (s : State) : List Flow :=
  (s.ctxs.filter fun c => c.2.st == .opened && c.2.runtime).map fun c => ⟨c.1, c.2.entry, 0⟩

/-- RESULT of a failed test or refused contract: REJECTED for a test of Table 16-3, otherwise REFUSED (Table 16-5). -/
def admResult (f : AdmFail) : Nat := if f.1 < 6 then 2 else 3

/-- A plan's set: its contracts with the runtime contracts admitted now (R173). A contract that breaks R360 is refused first. -/
def State.planTest (s : State) (p : PlanImg) : Option AdmFail :=
  ((p.ctxs.find? fun e => !contractOk e).map fun e => ((6, 63, entryFld e 0 ⟨0, 12⟩) : AdmFail)).orElse fun _ => s.admTest (s.planFlows p ++ s.runtimeFlows) (s.admitted.map (·.x))

/-- The staged plan while its activation is pending. -/
def State.stagedPlan (s : State) : Option PlanImg :=
  if s.fld rPLAN_SLOT_STATE fPLAN_SLOT_STATE_SLOT0 = 2 then s.plan.slot0
  else if s.fld rPLAN_SLOT_STATE fPLAN_SLOT_STATE_SLOT1 = 2 then s.plan.slot1
  else none

/-! ### Results -/

/-- The snapshot block (R376). -/
def State.admCapture (s : State) : State :=
  let fs := s.admitted
  let count := fun (k : Nat) => (fs.filter fun f => f.cls == k).length
  let s1 := ((s.addMod rADM_SNAP fADM_SNAP_SEQ 1).wr rADM_LOAD0 (fsets 0 [
    (fADM_LOAD0_STORE_CEIL, s.ceilOf 0), (fADM_LOAD0_STORE_LOAD, s.storeLoad fs)])).wr rADM_LOAD1 (fsets 0 [
      (fADM_LOAD1_ASSURED, count 1), (fADM_LOAD1_GUARANTEED, count 0)])
  (upTo 34).foldl (fun t r => t.wr (rADM_RES r) (fsets 0 [
    (fADM_RES_CEIL, s.ceilOf r), (fADM_RES_LOAD, if r = 0 then s.storeLoad fs else s.destLoad fs r)])) s1

/-- RESULT, REASON, RESOURCE and CONTEXT. -/
def State.admStatus (s : State) (result reason res x : Nat) : State :=
  s.setFlds rADM_STATUS [(fADM_STATUS_RESULT, result), (fADM_STATUS_REASON, reason), (fADM_STATUS_RESOURCE, res),
    (fADM_STATUS_CONTEXT, x)]

/-- The result `o` of a new test of the contexts taken in: OVERCOMMIT sets with the first failure and clears with a test that passes (R367). -/
def State.admNote (s : State) (o : Option AdmFail) : State :=
  match o with
  | none => (s.setFld rADM_STATUS fADM_STATUS_OVERCOMMIT 0).admCapture
  | some f =>
    let s2 := s.setFlds rADM_STATUS [(fADM_STATUS_REASON, f.1), (fADM_STATUS_RESOURCE, f.2.1), (fADM_STATUS_CONTEXT, f.2.2)]
    if s2.flag rADM_STATUS fADM_STATUS_OVERCOMMIT then s2.admCapture
    else ((s2.setFld rADM_STATUS fADM_STATUS_OVERCOMMIT 1).raise 658 (some f.2.2)).admCapture

/-- The admitted set is tested again (R367). -/
def State.admRetest (s : State) : State :=
  let s1 := s.setFld rADM_MEM fADM_MEM_DMEM s.dMem
  s1.admNote (s1.admTest s1.admitted (s1.admitted.map (·.x)))

/-- A failed or refused command or plan set: the status, the count and the event. -/
def State.admFail (s : State) (result : Nat) (f : AdmFail) (count : Bool) : State :=
  let s1 := s.admStatus result f.1 f.2.1 f.2.2
  (if count then s1.addMod rADM_COUNT fADM_COUNT_REJECTED 1 else s1).raise 657 (some f.2.2) f.1

/-- A context opens with its entry and path latency (R349). -/
def State.takeIn (s : State) (x : Nat) (e : List Word) (runtime : Bool) (p : Nat) : State :=
  (s.openCtx x e runtime p).setFld (rADM_CTX x) fADM_CTX_P p

/-- OPEN or TEST of an entry (R364). -/
def State.admOpen (s : State) (e : List Word) (commit : Bool) : State :=
  let x := entryFld e 0 ⟨0, 12⟩
  let taken := (s.ctxs.filter fun c => c.2.st == .opened && c.1 != x).flatMap fun c => entryChannels c.2.entry
  let bad := !entryValid e (s.flag rGLB_STATUS fGLB_STATUS_CXL_MODE) || !contractOk e
    || (entryChannels e).any fun ch => taken.contains ch
  if bad then s.admFail 3 (6, 63, x) true
  else if (s.ctx x).st != .closed then s.admFail 3 (7, 63, x) true
  else if commit && s.flag rADM_STATUS fADM_STATUS_OVERCOMMIT then s.admFail 3 (9, 63, x) true
  else
    let f : Flow := ⟨x, e, 0⟩
    let adm := s.admitted
    let res := (s.admTest (adm ++ [f]) (adm.map (·.x))).orElse fun _ =>
      if s.fld rPLAN_STATUS fPLAN_STATUS_STATE = 2 then
        (s.stagedPlan).bind fun p => s.admTest (s.planFlows p ++ s.runtimeFlows ++ [f]) (adm.map (·.x))
      else none
    match res with
    | some r => s.admFail 2 r true
    | none =>
      let s1 := s.admStatus 1 0 63 x
      if commit then ((s1.takeIn x e true 0).addMod rADM_COUNT fADM_COUNT_ADMITTED 1).raise 656 (some x) else s1

/-- CLOSE of runtime context `x`. -/
def State.admClose (s : State) (x : Nat) : State :=
  let c := s.ctx x
  if c.st != .opened then s.admFail 3 (7, 63, x) true
  else if !c.runtime then s.admFail 3 (8, 63, x) true
  else (s.drainCtx x).admStatus 0 0 63 x

/-- A write to ADM_CMD; 0 is discarded, and every command while the store is being initialised (R380). The block is captured after every command, and a CLOSE tests the set again. -/
def State.wrAdmCmd (v : Word) (s : State) : State :=
  let e := (upTo 8).map fun i => s.rd (rADM_ENTRY i)
  if s.flag rMEM_MAP fMEM_MAP_MAP_BUSY then s.addSat rADM_COUNT fADM_COUNT_CMD_DISC 1
  else match fget v fADM_CMD_CMD with
  | 1 => (s.srExit.admOpen e true).admCapture
  | 2 =>
    let x := s.fld rADM_ARG fADM_ARG_CONTEXT
    let s1 := s.admClose x
    if s1.fld rADM_STATUS fADM_STATUS_RESULT = 0 then s1.admRetest else s1.admCapture
  | 3 => (s.admOpen e false).admCapture
  | _ => s

/-- A write to ADM_SNAP. -/
def State.wrAdmSnap (v : Word) (s : State) : State := if fget v fADM_SNAP_SNAP = 1 then s.admCapture else s

/-! ### Deadline misses (R370, R371) -/

/-- The record of context `x` whose deadline at destination `d` passes next, with that deadline. -/
def Ctx.nextDue (c : Ctx) (d : Nat) : Option (CordRec × Nat) :=
  (c.recs.filterMap fun r =>
    if r.missed.getD d false || r.skips d || r.pos + r.len ≤ (c.dest d).doneTo then none
    else (r.due.getD d none).map fun t => (r, t)).foldl (fun (b : Option (CordRec × Nat)) e =>
      match b with
      | none => some e
      | some (_, t) => if e.2 < t then some e else b) none

end Sys2Proof.Machine
end

