-- ==== Sys2Proof/Machine/Mem.lean ====
section
/-! DEFINITION. The memory controller: the address map, ECC and scrub, refresh and training (R377 to R395). -/

namespace Sys2Proof.Machine

/-! ### Address mapping (R379) -/

/-- The store offset of data line `c` of a row slot of a channel. -/
def State.offsetOf (s : State) (ch slot c : Nat) : Nat :=
  let g := s.grain
  let w := 64 * (28 * slot + c)
  (w / g * 32 + ch) * g + w % g

/-- The data lines that the check line of a place covers. -/
def State.checkLines (s : State) (p : MemPlace) : List Nat :=
  ((upTo 8).filter fun i => p.c / 8 * 8 + i < 28).map fun i => s.offsetOf p.ch p.slot (p.c / 8 * 8 + i) / 64

/-! ### Errors (R391 to R393) -/

/-- The error flags of a line replaced. -/
def State.setLineErr (s : State) (line v : Nat) : State := { s with badLines := SMap.set 0 s.badLines line v }

/-- A corrected error on channel `ch`: counted, and MEM_CE at most once per second. -/
def State.memCe (s : State) (ch : Nat) : State :=
  (s.addSat (rMEM_CH_ECC ch) fMEM_CH_ECC_CE 1).raiseLim 1000000 (672 + ch) (some ch)

/-- The last uncorrectable error into the snapshot block (R392). -/
def State.ueCapture (s : State) : State :=
  (((s.addMod rMEM_UE_SNAP fMEM_UE_SNAP_SEQ 1).wr rMEM_UE0 s.mem.ue.1).wr rMEM_UE1 s.mem.ue.2.1).wr rMEM_UE2 s.mem.ue.2.2

/-- An uncorrectable error found by a read (source 0) or the scrubber (1): the lines are poisoned, counted and captured. -/
def State.memUe (s : State) (p : MemPlace) (lines : List Nat) (source : Nat) : State :=
  let s1 := lines.foldl (fun t l => t.setLineErr l (SMap.get 0 t.badLines l ||| 2)) s
  let s2 := s1.addSat (rMEM_CH_ECC p.ch) fMEM_CH_ECC_UE lines.length
  let w1 := fsets 0 [(fMEM_UE1_LINES, lines.length), (fMEM_UE1_SOURCE, source), (fMEM_UE1_ROW, p.row), (fMEM_UE1_BANK, p.bank),
    (fMEM_UE1_CH, p.ch)]
  (s2.onMem fun z => { z with ue := (BitVec.ofNat 64 (64 * (lines.head?).getD 0), w1, BitVec.ofNat 64 s.time) }).ueCapture

/-! ### Ordering (R382 to R384) -/

/-- Has a granule waited AGE_US, so that it is promoted? -/
def State.promoted (s : State) (g : Granule) : Bool := s.usTicks (s.fld rMEM_SCHED fMEM_SCHED_AGE_US) ≤ s.time - g.since

/-- The rank of a waiting granule and its order within the rank: promoted granules by age, GUARANTEED and ASSURED ones by deadline, the
others by age (R382); of equal deadlines the lower context goes first (R369). -/
def State.granuleRank (s : State) (g : Granule) : Nat × Nat :=
  if s.promoted g then (0, g.since)
  else (1 + g.cls.val, if g.cls.val < 2 then 4096 * g.due + g.ctx.val else g.since)

/-- The data lines of a granule: it lies within one aligned block of min(256, G) bytes (R381), and so in one channel and one row. -/
def State.granuleLines (s : State) (g : Granule) : List Nat :=
  let b := min 256 s.grain / 64
  (upTo (g.more.val + 1)).filterMap fun i => if (g.line.val + i) / b = g.line.val / b then some (g.line.val + i) else none

/-- The granule of a list that comes first in R382's order; of equals the one listed first. -/
def State.granuleHead (s : State) : List Granule → Option Granule
  | [] => none
  | g :: gs => match s.granuleHead gs with
    | none => some g
    | some h =>
      let a := s.granuleRank g
      let b := s.granuleRank h
      if b.1 < a.1 || (b.1 == a.1 && b.2 < a.2) then some h else some g

/-- Is the row of a granule open (R384)? -/
def State.rowOpen (s : State) (g : Granule) : Bool :=
  let p := s.place379 (64 * g.line.val)
  SMap.get none s.mem.open_ (8 * p.ch + p.bank) == some p.row

/-- The granule that channel `ch` issues out of those waiting in one direction: the head, or one of its rank to an open row that goes ahead,
at most HIT_RUN times in a row (R382). -/
def State.granulePick (s : State) (ch : Nat) (gs : List Granule) : Option (Granule × State) :=
  (s.granuleHead gs).map fun h =>
    let hit := gs.find? fun g => (s.granuleRank g).1 == (s.granuleRank h).1 && s.rowOpen g
    let (k, s1) := s.fresh
    match hit with
    | some g =>
      if !s.rowOpen h && SMap.get 0 s.mem.hits ch < s.fld rMEM_SCHED fMEM_SCHED_HIT_RUN && Config.rowHitAhead k then
        (g, s1.onMem fun z => { z with hits := SMap.upd 0 z.hits ch (· + 1) })
      else (h, s1.onMem fun z => { z with hits := SMap.set 0 z.hits ch 0 })
    | none => (h, s1.onMem fun z => { z with hits := SMap.set 0 z.hits ch 0 })

/-- Does channel `ch` serve writes now, with `r` reads and `w` writes waiting (R383)? -/
def State.drains (s : State) (ch r w : Nat) : Bool :=
  w != 0 && (s.fld rMEM_SCHED fMEM_SCHED_WR_HIGH ≤ w || r == 0
    || (SMap.get false s.mem.drain ch && s.fld rMEM_SCHED fMEM_SCHED_WR_LOW < w))

/-- A granule's row is opened in its bank (R384). -/
def State.rowOpened (s : State) (p : MemPlace) : State :=
  s.onMem fun z => { z with open_ := SMap.set none z.open_ (8 * p.ch + p.bank) (some p.row) }

/-- A refresh closes every row of its channel (R384). -/
def State.rowsClosed (s : State) (ch : Nat) : State :=
  s.onMem fun z => { z with open_ := (upTo 8).foldl (fun m b => SMap.set none m (8 * ch + b) none) z.open_ }

/-- A line of a granule is read or written, and ECC finds `err` beside what is flipped in. -/
def State.granuleLine (s : State) (line : Nat) (write : Bool) (err : EccErr) : State :=
  let p := s.place379 (64 * line)
  let e := s.lineErr line
  if write then s.setLineErr line (s.lineRewritten line)
  else if err = .check then (s.memUe p (s.checkLines p) 0).raise 704 (some p.ch)
  else if err = .data || e / 2 % 2 = 1 then (s.memUe p [line] 0).raise 704 (some p.ch)
  else if err = .single || e % 2 = 1 then (s.memCe p.ch).setLineErr line (SMap.get 0 s.badLines line - e % 2)
  else s

/-- A granule is issued: its lines in turn. `err` is what ECC finds in the first. -/
def State.granule (s : State) (g : Granule) (err : EccErr) : State :=
  (s.granuleLines g).foldl (fun t l => t.granuleLine l g.write (if l = g.line.val then err else .none)) s

/-- One of the postponed refreshes of channel `ch` is issued when no GUARANTEED granule waits there (R386). -/
def State.refreshOld (s : State) (ch : Nat) (gs : List Granule) : State :=
  let out := s.fld (rMEM_CH_STATUS ch) fMEM_CH_STATUS_POSTPONED
  if out = 0 || gs.any fun g => g.cls == 0 then s
  else (s.rowsClosed ch).setFld (rMEM_CH_STATUS ch) fMEM_CH_STATUS_POSTPONED (out - 1)

/-- Channel `ch` issues one of the granules that wait on it, in the order of R382 and R383, and before it a refresh that was postponed for
GUARANTEED granules when none of them waits any more; granules of another channel are not its own. What waits is the traffic of the
device's own agents, so it comes with the command (DESIGN CHOICE, assumption 69). -/
def State.channelIssue (s : State) (ch : Nat) (waiting : List Granule) (err : EccErr) : State :=
  let mine := waiting.filter fun g => (s.place379 (64 * g.line.val)).ch == ch
  let ws := mine.filter fun g => g.write
  let rs := mine.filter fun g => !g.write
  let d := s.drains ch rs.length ws.length
  let on := d && s.fld rMEM_SCHED fMEM_SCHED_WR_LOW < ws.length - 1
  match (s.refreshOld ch mine).granulePick ch (if d then ws else rs) with
  | none => s
  | some (g, s1) =>
    ((s1.onMem fun z => { z with drain := SMap.set false z.drain ch on }).rowOpened (s.place379 (64 * g.line.val))).granule g err

/-- The scrubber moves on to the next line; a pass ends at the last. -/
def State.scrubNext (s : State) : State :=
  let n := storeBytes / 64
  let q := s.mem.scrub + 1
  let s1 := s.onMem fun z => { z with scrub := q % n }
  if q = n then
    ((s1.addMod rMEM_SCRUB fMEM_SCRUB_PASSES 1).setFld rMEM_SCRUB fMEM_SCRUB_PROGRESS 0).raise 710
  else s1.setFld rMEM_SCRUB fMEM_SCRUB_PROGRESS (q * 256 / n)

/-- The scrubber reads its next line (R393). -/
def State.scrubRead (s : State) (err : EccErr) : State :=
  if !s.flag rMEM_SCRUB fMEM_SCRUB_EN || s.selfRefresh then s
  else
    let line := s.mem.scrub
    let p := s.place379 (64 * line)
    let e := s.lineErr line
    let t := fun (l : Nat) => s.billet (64 * l / billetBytes)
    let bad := fun (lines : List Nat) =>
      let s1 := s.memUe p lines 1
      let s2 := (lines.filter fun l => !(t l).used).foldl (fun v l =>
        (v.storeWrite (64 * l) (List.replicate 64 0)).addSat rMEM_SCRUB fMEM_SCRUB_CLEARED 1) s1
      if lines.any fun l => (t l).used then s2.raise 704 (some p.ch) else s2
    let s1 :=
      if err = .check then bad (s.checkLines p)
      else if err = .data || e / 2 % 2 = 1 then bad [line]
      else if err = .single || e % 2 = 1 then
        (if (t line).hbias then s.memCe p.ch else (s.memCe p.ch).setLineErr line (SMap.get 0 s.badLines line - e % 2))
      else s
    s1.scrubNext

/-! ### Refresh (R385 to R387) -/

/-- The MR4 of die `d` is read: both of its channels take the code. -/
def State.mr4Poll (s : State) (d code : Nat) : State :=
  let s1 := (s.setFld (rMEM_CH_STATUS (2 * d)) fMEM_CH_STATUS_MR4 code).setFld (rMEM_CH_STATUS (2 * d + 1)) fMEM_CH_STATUS_MR4 code
  if code = 5 || code = 6 then s1.raise 705 else if code = 0 || code = 7 then s1.raise 706 else s1

/-- Does either channel of the die of channel `ch` report 0b101 or higher? -/
def State.dieHot (s : State) (ch : Nat) : Bool := 5 ≤ s.fld (rMEM_CH_STATUS ch) fMEM_CH_STATUS_MR4

/-- The refresh interval of an MR4 code in ns (Table 17-1). -/
def tRefi (code : Nat) : Nat := [3900, 15600, 7800, 3900, 1950, 975, 975, 975].getD code 0

/-- A refresh falls due on channel `ch`, and from it on the interval of the last MR4 code is in force (R385); `wait` says that a GUARANTEED granule waits there (R386). -/
def State.refreshDue (s : State) (ch : Nat) (wait : Bool) : State :=
  let a := rMEM_CH_STATUS ch
  let s := s.onMem fun z => { z with refi := SMap.set 0 z.refi ch (tRefi (s.fld a fMEM_CH_STATUS_MR4)) }
  let out := s.fld a fMEM_CH_STATUS_POSTPONED
  let maxOut := s.fld rMEM_REFRESH fMEM_REFRESH_POSTPONE_MAX
  let issued := (s.rowsClosed ch).setFld a fMEM_CH_STATUS_POSTPONED 0
  if s.selfRefresh then s
  else if s.dieHot ch then issued
  else if maxOut ≤ out && (wait || out != 0) then (issued.addSat a fMEM_CH_STATUS_FORCED 1).raiseLim 1000000 711 (some ch) 0 0 ch
  else if wait then s.setFld a fMEM_CH_STATUS_POSTPONED (out + 1)
  else issued

/-! ### Training (R389, R390) -/

/-- Channel `ch` is retrained after a refresh; a third failure in succession fails the channel. -/
def State.retrain (s : State) (ch : Nat) (ok : Bool) : State :=
  let a := rMEM_CH_STATUS ch
  let setN := fun (t : State) (n : Nat) => (t.onMem fun z => { z with fails := SMap.set 0 t.mem.fails ch n })
  if s.selfRefresh || s.fld a fMEM_CH_STATUS_POSTPONED != 0 || s.flag a fMEM_CH_STATUS_FAILED then s
  else if ok then setN s 0
  else
    let n := SMap.get 0 s.mem.fails ch + 1
    let s1 := (setN s n).addSat a fMEM_CH_STATUS_RETRAIN_FAIL 1
    let s2 := s1.raise 707 (some ch)
    if n < 3 then s2 else (s2.setFld a fMEM_CH_STATUS_FAILED 1).raise 708 (some ch)

/-! ### Registers -/

/-- A write to MEM_MAP (R380). -/
def State.wrMemMap (v : Word) (s : State) : State :=
  let g := fget v fMEM_MAP_GRAIN_LOG2
  let s := s.srExit
  if s.freeBillets != nBillets then s.addSat rMEM_MAP fMEM_MAP_MAP_DISC 1
  else if g < 6 || 14 < g then s
  else s.setFlds rMEM_MAP [(fMEM_MAP_XOR, fget v fMEM_MAP_XOR), (fMEM_MAP_GRAIN_LOG2, g), (fMEM_MAP_MAP_BUSY, 1)]

/-- Store initialisation ends: zeros with valid check bytes over the whole store. -/
def State.mapInitDone (s : State) : State :=
  if s.flag rMEM_MAP fMEM_MAP_MAP_BUSY then
    (((s.setFld rMEM_MAP fMEM_MAP_MAP_BUSY 0).storeClear.onBadLines fun _ => []).onMem fun _ => { s.mem with lost := [] })
  else s

/-- A write to MEM_SCHED, discarded whole when its values are illegal (R383). -/
def State.wrMemSched (v : Word) (s : State) : State :=
  let hi := fget v fMEM_SCHED_WR_HIGH
  if 56 < hi || hi ≤ fget v fMEM_SCHED_WR_LOW || fget v fMEM_SCHED_AGE_US = 0 then s.addSat rMEM_SCHED fMEM_SCHED_SCHED_DISC 1
  else s.wrCodes rMEM_SCHED v []

/-- A write to MEM_UE_SNAP. -/
def State.wrMemUeSnap (v : Word) (s : State) : State := if fget v fMEM_UE_SNAP_SNAP = 1 then s.ueCapture else s

end Sys2Proof.Machine
end

