-- ==== Sys2Proof/Machine/Dma.lean ====
section
/-! DEFINITION. The DMA engine (R436 to R453). -/

namespace Sys2Proof.Machine

/-- A channel that does nothing. -/
def dma0 : Dma := ⟨.none, 0, [], [], 0, 0, 0, [], []⟩

/-- Channel `c`, replaced, and changed. -/
def State.dmaCh (s : State) (c : Nat) : Dma := SMap.get dma0 s.dma c
def State.setDma (s : State) (c : Nat) (d : Dma) : State := { s with dma := SMap.set dma0 s.dma c d }
def State.updDma (s : State) (c : Nat) (f : Dma → Dma) : State := s.setDma c (f (s.dmaCh c))

/-- Fields of a descriptor (Table 20-1). -/
def Dma.w (d : Dma) (i : Nat) (f : Fld) : Nat := fget (d.words.getD i 0) f
def Dma.op (d : Dma) : Nat := d.w 0 ⟨0, 4⟩
def Dma.sg (d : Dma) : Bool := d.w 0 ⟨4, 1⟩ == 1
def Dma.irq (d : Dma) : Bool := d.w 0 ⟨5, 1⟩ == 1
def Dma.crec (d : Dma) : Bool := d.w 0 ⟨6, 1⟩ == 1
def Dma.tag (d : Dma) : Nat := d.w 0 ⟨32, 32⟩
def Dma.host (d : Dma) : Nat := d.w 2 ⟨0, 64⟩
def Dma.len (d : Dma) : Nat := d.w 3 ⟨0, 32⟩
def Dma.sgCount (d : Dma) : Nat := d.w 3 ⟨32, 13⟩
def Dma.storeOff (d : Dma) : Nat := d.w 4 ⟨0, 64⟩
def Dma.billet (d : Dma) : Nat := d.w 4 ⟨0, 21⟩
def Dma.refCtx (d : Dma) : Nat := d.w 4 ⟨32, 12⟩
def Dma.comp (d : Dma) : Nat := d.w 5 ⟨0, 64⟩

/-- STATUS codes (Table 20-3). -/
abbrev dsDone : Nat := 0
abbrev dsAborted : Nat := 1
abbrev dsAlign : Nat := 16
abbrev dsBad : Nat := 17
abbrev dsLoop : Nat := 18
abbrev dsFetchTimeout : Nat := 19
abbrev dsFetchErr : Nat := 20
abbrev dsDataTimeout : Nat := 21
abbrev dsDataErr : Nat := 22
abbrev dsNotBound : Nat := 23
abbrev dsTooSmall : Nat := 24
abbrev dsBadRecord : Nat := 25
abbrev dsNoRef : Nat := 26
abbrev dsRefRefused : Nat := 27

/-- BEAT where no beat failed. -/
abbrev noBeat : Nat := 2 ^ 32 - 1

/-! ### Contexts and priority (R436, R438) -/

/-- The context that names channel `c` as its destination, with the destination's index. -/
def State.takeCtx (s : State) (c : Nat) : Option (Nat × Nat) :=
  s.ctxs.findSome? fun e => if e.2.st = .closed then none else (e.2.findDest 1 c).map fun d => (e.1, d)

/-- The level in force. -/
def State.effPrio (s : State) (c : Nat) : Nat :=
  match s.takeCtx c with
  | some (x, _) => if (s.ctx x).cls < 2 then 0 else s.fld (rDMA_CFG c) fDMA_CFG_PRIORITY
  | none => s.fld (rDMA_CFG c) fDMA_CFG_PRIORITY

/-- The channel as a key of the inboxes, beside the store ports. -/
abbrev dmaBox (c : Nat) : Nat := 16 + c

/-- STATE of the channel, and it set. -/
def State.dmaState (s : State) (c : Nat) : Nat := s.fld (rDMA_STATUS c) fDMA_STATUS_STATE
def State.setDmaState (s : State) (c v : Nat) : State := s.setFld (rDMA_STATUS c) fDMA_STATUS_STATE v

/-! ### Failed host requests (R433, R434) -/

/-- A request of a unit has failed: a timeout or a poisoned completion is counted and reported, also by AER as an uncorrectable
non-fatal error (R434). -/
def State.hostFail (s : State) (timeout : Bool) : State :=
  (if timeout then (s.addSat rGLB_HIF_CTO fGLB_HIF_CTO_CTO_IO 1).raiseLim 1000 993
    else (s.addSat rGLB_HIF_ERR fGLB_HIF_ERR_POISON_RX 1).raiseLim 1000 994).send (.aer timeout)

/-! ### The end of a descriptor (R445, R446, R450) -/

/-- The completion record of Table 20-4. -/
def State.compRecord (s : State) (c status failAt detail : Nat) : List Byte :=
  let d := s.dmaCh c
  let x := if d.op = 1 then ((s.takeCtx c).map (·.1)).getD 0
    else if d.op = 2 then s.fld (rDMA_CFG c) fDMA_CFG_GIVE_CTX else if d.op = 4 then d.refCtx else 0
  leBytes 8 (status + 2 ^ 8 + c * 2 ^ 16 + d.tag * 2 ^ 32) ++ leBytes 8 (d.bytes % 2 ^ 32 + failAt * 2 ^ 32) ++ leBytes 8 d.addr
    ++ leBytes 8 (d.recs % 2 ^ 16 + x * 2 ^ 16 + detail * 2 ^ 32)

/-- References that the descriptor holds are given back (R444). -/
def State.dropRefs (s : State) (bs : List Nat) : State :=
  bs.foldl (fun t b => (t.setBillet b { t.billet b with swref := (t.billet b).swref - 1 }).settleBillet b) s

/-- A CTX_TAKE that did not commit leaves its records unfinished: they will be delivered again, GAP with the first. -/
def State.untake (s : State) (c : Nat) : State :=
  let d := s.dmaCh c
  if d.op != 1 || d.recs = 0 then s
  else match s.takeCtx c with
    | some (x, k) => s.updCtx x fun y => y.updDest k fun e => { e with begun := e.fin, gap := d.gap ++ e.gap.filter fun p => !d.gap.contains p }
    | none => s

/-- The channel's event: STATUS and TAG (R452). -/
def State.dmaEvent (s : State) (c status tag : Nat) : State := s.raise (768 + c) none status tag

/-- Ends the descriptor that channel `c` has read with `status`. `stop` is the STATE of the channel after an ABORTED outcome. -/
def State.dmaEnd (s : State) (c status failAt detail stop : Nat) : State :=
  let d := s.dmaCh c
  let s0 := if status = dsDone then
      (match (if d.op = 1 then s.takeCtx c else none) with
        | some (x, k) => s.finishTo x k d.upTo_
        | none => s)
    else s.untake c
  let s1 := s0.dropRefs d.refs
  let s2 := if d.crec && s1.busOk then s1.hostWrite d.comp (s.compRecord c status failAt detail) else s1
  let s3 := ((s2.addMod (rDMA_STATUS c) fDMA_STATUS_DESCS 1).setFld (rDMA_STATUS c) fDMA_STATUS_LAST status).addMod
    (rDMA_BYTES c) fDMA_BYTES_BYTES d.bytes
  let s4 := s3.onPorts fun _ => SMap.set ⟨[]⟩ s3.ports (dmaBox c) ⟨[]⟩
  if status = dsDone then
    let s5 := if d.irq then s4.dmaEvent c status d.tag else s4
    if d.w 1 ⟨0, 1⟩ = 1 then
      s5.setDma c { dma0 with phase := .fetch (d.w 1 ⟨6, 58⟩ * 64) (d.w 1 ⟨1, 1⟩ == 1) false }
    else (s5.setDma c dma0).setDmaState c 0
  else if status = dsAborted then ((s4.setDma c dma0).setDmaState c stop).dmaEvent c status d.tag
  else
    let s5 := (s4.wr (rDMA_ERR c) (fsets 0 [(fDMA_ERR_ADDR, d.addr / 64), (fDMA_ERR_STORE, d.addr)])).wr (rDMA_ERR_INFO c)
      (fsets 0 [(fDMA_ERR_INFO_BEAT, failAt), (fDMA_ERR_INFO_BYTES, d.bytes)])
    ((s5.setDma c dma0).setDmaState c 3).dmaEvent c status d.tag

/-- A fetch that reads no descriptor ends the chain (R448), or the descriptor it was to read (R447). -/
def State.dmaNoRead (s : State) (c status addr : Nat) (store : Bool) : State :=
  let s1 := (s.wr (rDMA_ERR c) (fsets 0 [(fDMA_ERR_ADDR, addr / 64), (fDMA_ERR_STORE, b2n store)])).wr (rDMA_ERR_INFO c)
    (fsets 0 [(fDMA_ERR_INFO_BEAT, noBeat), (fDMA_ERR_INFO_BYTES, 0)])
  let s2 := if status = dsLoop then s1 else s1.addMod (rDMA_STATUS c) fDMA_STATUS_DESCS 1
  (((s2.setFld (rDMA_STATUS c) fDMA_STATUS_LAST status).setDma c dma0).setDmaState c 3).dmaEvent c status 0

/-- ABORT, or a reset, ends what channel `c` does; `stop` is the STATE it is left in. A channel that has read no descriptor yet
ends with its event alone. -/
def State.dmaKill (s : State) (c stop : Nat) : State :=
  let d := s.dmaCh c
  match d.phase with
  | .none => if stop = 3 then s.setDmaState c 3 else s
  | .fetch _ _ _ =>
    ((((s.addMod (rDMA_STATUS c) fDMA_STATUS_DESCS 1).setFld (rDMA_STATUS c) fDMA_STATUS_LAST dsAborted).setDma c dma0).setDmaState c
      stop).dmaEvent c dsAborted 0
  | _ => s.dmaEnd c dsAborted noBeat 0 stop

/-- Every channel's descriptor ends ABORTED and every channel is HALTED (R431, R445, R536). -/
def State.dmaHaltAll (s : State) : State := (upTo 128).foldl (fun t c => t.dmaKill c 3) s

/-! ### Fetching a descriptor (R440, R441, R448) -/

/-- The words of a descriptor. -/
def descWords (bs : List Byte) : List Word := (upTo 8).map fun i => BitVec.ofNat 64 (leNat ((bs.drop (8 * i)).take 8))

/-- The buffers of a scatter-gather list. -/
def sgList (n : Nat) (bs : List Byte) : List (Nat × Nat) :=
  (upTo n).map fun i => (leNat ((bs.drop (16 * i)).take 8), leNat ((bs.drop (16 * i + 8)).take 4))

/-- The billets that `n` store bytes from `o` lie in. -/
def billetsOver (o n : Nat) : List Nat :=
  if n = 0 then [] else (upTo ((o + n - 1) / billetBytes + 1 - o / billetBytes)).map fun i => o / billetBytes + i

/-- The checks of R441 on a descriptor with its buffers: the status of the first that fails. -/
def State.descCheck (s : State) (c : Nat) (d : Dma) : Option Nat :=
  let data := 1 ≤ d.op && d.op ≤ 3
  let resv := d.w 0 ⟨7, 25⟩ != 0 || d.w 1 ⟨2, 4⟩ != 0 || d.w 3 ⟨45, 19⟩ != 0 || d.words.getD 6 0 != 0 || d.words.getD 7 0 != 0
  if 5 < d.op || resv then some dsBad
  else if d.host % 64 != 0 || d.len % 64 != 0 || (data && d.segs.any fun g => g.1 % 64 != 0 || g.2 % 64 != 0)
      || (d.op == 3 && d.storeOff % 64 != 0) || (d.crec && d.comp % 64 != 0) then some dsAlign
  else if data && (d.len == 0 || (d.sg && (d.sgCount == 0 || 4096 < d.sgCount
      || d.segs.foldl (fun n g => n + g.2) 0 != d.len))) then some dsBad
  else if d.op = 1 && (s.takeCtx c).isNone then some dsNotBound
  else if d.op = 2 && !s.flag (rDMA_CFG c) fDMA_CFG_GIVE_VALID then some dsNotBound
  else if d.op = 3 && (billetsOver d.storeOff d.len).any (fun b => (s.billet b).swref == 0) then some dsNoRef
  else none

/-- The fetch that channel `c` waits for takes place: `desc` is what host memory gives for the descriptor, `list` for its
list. -/
def State.dmaFetch (s : State) (c : Nat) (desc list : HostRead) : State :=
  match (s.dmaCh c).phase with
  | .fetch addr store first =>
    let head := s.rd (rDMA_HEAD c)
    let lim := s.rd (rDMA_LIMIT c)
    let isHead := addr / 64 == fget head fDMA_HEAD_ADDR && b2n store == fget head fDMA_HEAD_STORE
    if fget lim fDMA_LIMIT_LIMIT == fget lim fDMA_LIMIT_COUNT || (!first && isHead) then s.dmaNoRead c dsLoop addr store
    else
      let s1 := s.addMod (rDMA_LIMIT c) fDMA_LIMIT_COUNT 1
      let failSt := fun (t : Bool) => if t then dsFetchTimeout else dsFetchErr
      let inStore := store && storeBytes ≤ addr
      let noRef := store && ((s.billet (addr / billetBytes)).swref == 0 || s.lineBad (addr / 64))
      if inStore || noRef then s1.dmaNoRead c dsFetchErr addr store
      else if !store && !s.busOk then s1.dmaNoRead c dsFetchErr addr store
      else if !store && desc.fail.isSome then
        let t := (desc.fail.map (·.2)).getD false
        (s1.hostFail t).dmaNoRead c (failSt t) addr store
      else
        let bs := if store then s.store.read 0 addr 64 else desc.bytes.take 64
        let d0 : Dma := { dma0 with phase := .ready, addr := addr + b2n store, words := descWords bs }
        let wantList := d0.sg && 1 ≤ d0.op && d0.op ≤ 3 && d0.host % 64 == 0 && 1 ≤ d0.sgCount && d0.sgCount ≤ 4096
        if wantList && !s.busOk then (s1.setDma c d0).dmaEnd c dsFetchErr noBeat 0 3
        else if wantList && list.fail.isSome then
          let t := (list.fail.map (·.2)).getD false
          ((s1.hostFail t).setDma c d0).dmaEnd c (failSt t) noBeat 0 3
        else
          let d := { d0 with segs := if wantList then sgList d0.sgCount list.bytes else [(d0.host, d0.len)] }
          match s1.descCheck c d with
          | some e => (s1.setDma c d).dmaEnd c e noBeat 0 3
          | none => s1.setDma c d
  | _ => s

/-! ### The operations -/

/-- Does channel `c` have operation `op` to begin? -/
def State.dmaReady (s : State) (c op : Nat) : Bool := (s.dmaCh c).phase == .ready && (s.dmaCh c).op == op

/-- The work that channel `c` has for the engine now, by its place in R437's order: the level, then the class, deadline and number of the
context whose record a CTX_TAKE copies next; other work ranks as BEST_EFFORT, within which the order is the sender's (assumption 71). -/
def State.dmaWork (s : State) (c : Nat) : Option (Nat × Nat × Nat × Nat) :=
  let d := s.dmaCh c
  let free := d.phase == .ready
  if d.op = 1 && (free || d.phase == .moving) then
    (s.takeCtx c).bind fun (e : Nat × Nat) => ((s.ctx e.1).nextRec e.2).map fun r =>
      let cls := (s.ctx e.1).cls
      (s.effPrio c, if cls < 2 then (cls, (r.due.getD e.2 none).getD 0, e.1) else (cls, 0, 0))
  else if free && (d.op == 2 || d.op == 3) then some (s.effPrio c, 2, 0, 0)
  else none

/-- Does the engine serve channel `c` next: does no other channel's work come before its own (R437)? -/
def State.dmaTurn (s : State) (c : Nat) : Bool :=
  match s.dmaWork c with
  | none => true
  | some a => s.dma.all fun e =>
    match s.dmaWork e.1 with
    | none => true
    | some b => !(b.1 < a.1 || (b.1 == a.1 && serveBefore b.2 a.2))

/-- An URGENT channel that begins to move data pre-empts channels of a lower level that have data on the way (R437). -/
def State.preempt (s : State) (c : Nat) : State :=
  let other := s.dma.filter fun e => e.1 != c && s.effPrio e.1 != 0 && (match e.2.phase with
    | .moved _ _ _ => true
    | _ => false)
  if s.effPrio c = 0 then s.addMod rDMA_GSTAT fDMA_GSTAT_PREEMPTS other.length else s

/-- Writes `bs` into the buffers of a descriptor from byte `off` on. -/
def putSegs (s : State) : List (Nat × Nat) → Nat → List Byte → State
  | [], _, _ => s
  | (a, n) :: rest, off, bs =>
    if off < n then putSegs (s.hostWrite (a + off) (bs.take (n - off))) rest 0 (bs.drop (n - off))
    else putSegs s rest (off - n) bs

/-- CTX_TAKE copies records while the next one fits (R442). -/
def State.takeLoop : Nat → State → Nat → State
  | 0, s, _ => s
  | n + 1, s, c =>
    let d := s.dmaCh c
    match s.takeCtx c with
    | none => s.updDma c fun e => { e with phase := .moved dsNotBound noBeat 0 }
    | some (x, k) =>
      match (s.ctx x).nextRec k with
      | none => (s.updDma c fun e => { e with phase := .moving }).setDmaState c (if d.recs = 0 then 2 else 1)
      | some r =>
        let e := r.pos + r.len
        if r.typ = tyPad then
          let s1 := s.beginRec x k r
          State.takeLoop n ((if d.recs = 0 then s1.finishTo x k e else s1).updDma c fun y => { y with upTo_ := e }) c
        else if d.len < d.bytes + r.len then
          (s.updDma c fun y =>
            { y with phase := .moved (if d.recs = 0 then dsTooSmall else dsDone) noBeat 0 }).setDmaState c 1
        else if !s.busOk then
          (s.updDma c fun y => { y with phase := .moved dsDataErr (d.bytes / 64) 0 }).setDmaState c 1
        else
          let bs := s.copyRec x k r
          let s1 := ((putSegs s d.segs d.bytes bs).beginRec x k r).deliveredTo x k e
          let s2 := s1.updDma c fun y =>
            { y with
              phase := .moving, bytes := d.bytes + r.len, recs := d.recs + 1, upTo_ := e
              gap := if d.recs = 0 then ((s.ctx x).dest k).gap else d.gap }
          State.takeLoop n (s2.setDmaState c 1) c

/-- The copying of channel `c` carried as far as it goes. -/
def State.takeRun (s : State) (c : Nat) : State :=
  State.takeLoop (((s.takeCtx c).map fun e => (s.ctx e.1).recs.length).getD 0 + 1) s c

/-- CTX_TAKE begins. -/
def State.ctxTake (s : State) (c : Nat) : State := if s.dmaReady c 1 && s.dmaTurn c then (s.preempt c).takeRun c else s

/-- A record becomes available to a CTX_TAKE that waits. -/
def State.recordAvailable (s : State) (c : Nat) : State :=
  if (s.dmaCh c).phase == .moving && (s.dmaCh c).op == 1 && s.dmaTurn c then s.takeRun c else s

/-- No record for IDLE_US: the CTX_TAKE that has copied something completes, unless a record is there to be copied. -/
def State.dmaIdle (s : State) (c : Nat) : State :=
  let d := s.dmaCh c
  let more := ((s.takeCtx c).bind fun e => (s.ctx e.1).nextRec e.2).isSome
  if d.phase == .moving && d.op == 1 && d.recs != 0 && !more then
    s.updDma c fun e => { e with phase := .moved dsDone noBeat 0 }
  else s

/-- The records in a host buffer of which `good` bytes are read: those wholly read, and whether the next breaks R443. -/
def giveRecs (x : Nat) (len good : Nat) : Nat → Nat → List Byte → List Prod × Bool
  | 0, _, _ => ([], false)
  | n + 1, o, bs =>
    if len ≤ o || good < o + 32 then ([], false)
    else
      let typ := leNat (bs.take 1)
      let w3 := leNat ((bs.drop 24).take 8)
      let size := 32 + w3 % 2 ^ 32
      if size % 64 != 0 || 4096 < size || typ = tyFault || typ = tyPad || len < o + size then ([], true)
      else if good < o + size then ([], false)
      else
        let fl := w3 / 2 ^ 48
        let r : Prod := { prod0 with
          ctx := x
          typ := typ
          time := leNat ((bs.drop 16).take 8)
          fine := w3 / 2 ^ 32 % 2 ^ 9
          flags := fl - (fl &&& (flGap ||| flRestart))
          items := 1
          canWait := true
          pre := (bs.drop 32).take (size - 32) }
        let (rest, bad) := giveRecs x len good n (o + size) (bs.drop size)
        (r :: rest, bad)

/-- Delivers the records in channel `c`'s inbox as far as credit allows, counting them. -/
def State.giveLoop : Nat → State → Nat → State
  | 0, s, _ => s
  | n + 1, s, c =>
    match (s.port (dmaBox c)).inbox with
    | [] => s
    | r :: _ =>
      let s1 := s.portTake (dmaBox c) fun _ => true
      if ((s1.port (dmaBox c)).inbox.length) = (s.port (dmaBox c)).inbox.length then s1
      else State.giveLoop n (s1.updDma c fun d => { d with recs := d.recs + 1, bytes := d.bytes + r.size }) c

/-- CTX_GIVE: `data` is what host memory gives for the buffer (R443, R446, R447). -/
def State.ctxGive (s : State) (c : Nat) (data : HostRead) : State :=
  if !(s.dmaReady c 2 && s.dmaTurn c) then s
  else
    let s0 := s.preempt c
    let d := s.dmaCh c
    let x := s.fld (rDMA_CFG c) fDMA_CFG_GIVE_CTX
    if !s.busOk then s0.updDma c fun e => { e with phase := .moved dsDataErr 0 0 }
    else
      let cut := (data.fail.map fun f => f.1 / 64 * 64).getD d.len
      let good := min cut d.len
      let bs := data.bytes ++ List.replicate (d.len - data.bytes.length) 0
      let (rs, bad) := giveRecs x d.len good (d.len / 64 + 1) 0 bs
      let t := (data.fail.map (·.2)).getD false
      let failed := data.fail.isSome && good < d.len && !bad
      let st := if bad then dsBadRecord else if failed then (if t then dsDataTimeout else dsDataErr) else dsDone
      let s1 := if failed then s0.hostFail t else s0
      let s2 := s1.onPorts fun _ => SMap.set ⟨[]⟩ s1.ports (dmaBox c) ⟨rs⟩
      let s3 := s2.updDma c fun e => { e with phase := .moved st (if failed then good / 64 else noBeat) (if failed then good else 0) }
      State.giveLoop (rs.length + 1) s3 c

/-- Software references to billets, taken in order up to the first refusal: its reason (0 with none) and the billets taken. -/
def State.swTakeAll (s : State) (bs : List Nat) : (Nat × List Nat) × State :=
  bs.foldl (fun (a : (Nat × List Nat) × State) b =>
    if a.1.1 != 0 then a
    else
      let r := a.2.swTake (a.2.billet b).owner b
      if r.1 = 0 then ((0, a.1.2 ++ [b]), r.2) else ((r.1, a.1.2), r.2)) ((0, []), s)

/-- The first line of `n` store bytes from `o` on that cannot be read, as an offset from `o`. -/
def State.badFrom (s : State) (o n : Nat) : Option Nat := ((upTo (n / 64)).find? fun i => s.lineBad (o / 64 + i)).map (64 * ·)

/-- STORE_READ (R444). A line with an uncorrectable error is a poisoned read (R391, R447; assumption 71). -/
def State.storeRead (s : State) (c : Nat) : State :=
  if !(s.dmaReady c 3 && s.dmaTurn c) then s
  else
    let s0 := s.preempt c
    let d := s.dmaCh c
    let ((why, held), s1) := s0.swTakeAll (billetsOver d.storeOff d.len)
    let s2 := s1.updDma c fun e => { e with refs := held }
    if why != 0 then s2.dmaEnd c dsRefRefused noBeat why 3
    else if !s.busOk then s2.updDma c fun e => { e with phase := .moved dsDataErr 0 0 }
    else
      let bad := if s.badLines.isEmpty && s.mem.lost.isEmpty then none else s.badFrom d.storeOff d.len
      let n := bad.getD d.len
      (putSegs s2 d.segs 0 (s.store.read 0 d.storeOff n)).updDma c fun e =>
        { e with phase := if bad.isSome then .moved dsDataErr (n / 64) 0 else .moved dsDone noBeat 0, bytes := n }

/-- NOP, REF_TAKE and REF_GIVE end at once. -/
def State.dmaNop (s : State) (c : Nat) : State := if s.dmaReady c 0 then s.dmaEnd c dsDone noBeat 0 3 else s
def State.refTake (s : State) (c : Nat) : State :=
  if !s.dmaReady c 4 then s
  else
    let d := s.dmaCh c
    let r := s.swTake d.refCtx d.billet
    if r.1 = 0 then r.2.dmaEnd c dsDone noBeat 0 3 else r.2.dmaEnd c dsRefRefused noBeat r.1 3
def State.refGive (s : State) (c : Nat) : State :=
  if !s.dmaReady c 5 then s
  else
    let r := s.swFree (s.dmaCh c).billet
    if r.1 = 0 then r.2.dmaEnd c dsDone noBeat 0 3 else r.2.dmaEnd c dsRefRefused noBeat r.1 3

/-- The data of the descriptor has moved: it commits (R445). Records of a CTX_GIVE that wait for credit hold it up. The bytes of a
failed CTX_GIVE are those read before the failing beat (Table 20-5). -/
def State.dmaCommit (s : State) (c : Nat) : State :=
  match (s.dmaCh c).phase with
  | .moved st failAt det =>
    let s1 := State.giveLoop ((s.port (dmaBox c)).inbox.length + 1) s c
    if !((s1.port (dmaBox c)).inbox.isEmpty) then s1
    else if det != 0 then (s1.updDma c fun d => { d with bytes := det }).dmaEnd c st failAt 0 3
    else s1.dmaEnd c st failAt 0 3
  | _ => s

/-- The outstanding host request of channel `c` fails (Table 19-6). -/
def State.dmaReqFail (s : State) (c : Nat) (timeout : Bool) : State :=
  let d := s.dmaCh c
  match d.phase with
  | .fetch addr store _ => if store then s else s.dmaNoRead c (if timeout then dsFetchTimeout else dsFetchErr) addr store
  | .ready => if d.op = 2 then s.dmaEnd c (if timeout then dsDataTimeout else dsDataErr) 0 0 3 else s
  | _ => s

/-! ### Writes -/

/-- START (R449). -/
def State.dmaStart (s : State) (c : Nat) : State :=
  let s := s.srExit
  if s.dmaState c = 0 || s.dmaState c = 3 then
    let h := s.rd (rDMA_HEAD c)
    ((s.setFld (rDMA_LIMIT c) fDMA_LIMIT_COUNT 0).setDma c { dma0 with
      phase := .fetch (fget h fDMA_HEAD_ADDR * 64) (fget h fDMA_HEAD_STORE == 1) true }).setDmaState c 1
  else s.addSat (rDMA_STATUS c) fDMA_STATUS_CFG_DISC 1

/-- A write to DMA_CTRL: ABORT, then START. -/
def State.wrDmaCtrl (c : Nat) (v : Word) (s : State) : State :=
  let s1 := if fget v fDMA_CTRL_ABORT = 1 && (s.dmaState c = 1 || s.dmaState c = 2) then s.dmaKill c 0 else s
  if fget v fDMA_CTRL_START = 1 then s1.dmaStart c else s1

/-- A write to DMA_CFG: one that changes the binding is accepted only as R439 states; IDLE_US 0 keeps the old value (assumption 30). -/
def State.wrDmaCfg (c : Nat) (v : Word) (s : State) : State :=
  let a := rDMA_CFG c
  let v := keepRange (s.rd a) fDMA_CFG_IDLE_US 1 255 v
  let gv := fget v fDMA_CFG_GIVE_VALID
  let gx := fget v fDMA_CFG_GIVE_CTX
  let other := (upTo 128).any fun k =>
    k != c && s.flag (rDMA_CFG k) fDMA_CFG_GIVE_VALID && s.fld (rDMA_CFG k) fDMA_CFG_GIVE_CTX == gx
  let idle := s.dmaState c == 0 || s.dmaState c == 3
  let same := gv == s.fld a fDMA_CFG_GIVE_VALID && gx == s.fld a fDMA_CFG_GIVE_CTX
  if same || (idle && (gv == 0 || ((s.ctx gx).st == .opened && (s.ctx gx).runtime && !other))) then s.wrCodes a v []
  else s.addSat (rDMA_STATUS c) fDMA_STATUS_CFG_DISC 1

/-- A write to DMA_LIMIT: 0 is discarded. -/
def State.wrDmaLimit (c : Nat) (v : Word) (s : State) : State :=
  if fget v fDMA_LIMIT_LIMIT = 0 then s else s.wrCodes (rDMA_LIMIT c) v []

/-- Channels RUNNING or WAITING (DMA_GSTAT.ACTIVE). -/
def State.dmaActive (s : State) : Nat := ((upTo 128).filter fun c => s.dmaState c == 1 || s.dmaState c == 2).length

end Sys2Proof.Machine
end

