-- ==== Sys2Proof/Machine/Tdc.lean ====
section
/-! DEFINITION. The time inputs: stamping, the stamp queues and STAMPS records, and frequency by regression (R122 to
R134). -/

namespace Sys2Proof.Machine

/-- A channel that has stamped nothing. -/
def tdcCh0 : TdcCh := ⟨none, false, false, [], [], 0, 0⟩

/-- TDC channel `c`. -/
def State.tdcCh (s : State) (c : Nat) : TdcCh := SMap.get tdcCh0 s.tdc.chs c

/-- TDC channel `c` changed. -/
def State.updTdc (s : State) (c : Nat) (f : TdcCh → TdcCh) : State :=
  { s with tdc := { s.tdc with chs := SMap.upd tdcCh0 s.tdc.chs c f } }

/-- The context bound to channel `c`, if any (R568). -/
def State.tdcCtx (s : State) (c : Nat) : Option Nat :=
  if s.flag (rTDC_CH c) fTDC_CH_CTX_VALID then some (s.fld (rTDC_CH c) fTDC_CH_CONTEXT) else none

/-- Does channel `c` stamp: EN is 1, or it serves the trigger fabric (R122)? -/
def State.tdcStamps (s : State) (c : Nat) : Bool := s.flag (rTDC_CH c) fTDC_CH_EN || 8 ≤ c

/-- An edge of channel `c` that is not stamped: LOST counts it and the next stamp carries LOSS (R124). -/
def State.tdcLose (s : State) (c : Nat) : State :=
  ((s.updTdc c fun x => { x with loss := true }).addSat (rTDC_CH_STAT c) fTDC_CH_STAT_LOST 1).raiseLim 1000 (160 + c)

/-- The device time of a stamp with COARSE `co` that lies near `t`. -/
def stampTime (t co : Nat) : Nat :=
  let d := (co + 2 ^ 48 - t % 2 ^ 48) % 2 ^ 48
  if d < 2 ^ 47 then t + d else t + d - 2 ^ 48

/-- The STAMPS record of channel `c` closes and leaves for its context (R127). -/
def State.tdcClose (s : State) (c : Nat) : State :=
  let x := s.tdcCh c
  match x.open_ with
  | [] => s
  | w :: _ =>
    let k := x.open_.length
    let r : Prod := { prod0 with
      ctx := (s.tdcCtx c).getD 0, typ := 0x40, time := stampTime x.openAt (fget w ⟨9, 48⟩), fine := fget w ⟨0, 9⟩
      flags := x.fl ||| s.holdFlag, items := k, pre := x.open_.flatMap fun v => leBytes 8 v.toNat }
    (s.updTdc c fun x => { x with open_ := [], fl := 0 }).emitRec 69 r

/-- Moves up to `n` stamps of channel `c` from its queue into its STAMPS record, which closes when it is full (R127). -/
def State.tdcDrain : Nat → State → Nat → State
  | 0, s, _ => s
  | n + 1, s, c =>
    let x := s.tdcCh c
    match x.queue with
    | [] => s
    | w :: q =>
      let at_ := if x.open_.isEmpty then s.time else x.openAt
      let s1 := s.updTdc c fun x => { x with queue := q, open_ := x.open_ ++ [w], openAt := at_ }
      let s2 := if s1.fld rTDC_CTRL fTDC_CTRL_MAX_STAMPS ≤ (s1.tdcCh c).open_.length then s1.tdcClose c else s1
      State.tdcDrain n s2 c

/-- One DCLK of the stamp square: eight stamps of the lowest channel that has any (64 bytes per DCLK). -/
def State.tdcBeat (s : State) : State :=
  match (upTo 12).find? (fun c => !(s.tdcCh c).queue.isEmpty) with
  | some c => State.tdcDrain 8 s c
  | none => s

/-- The flush of channel `c`: what its queue holds joins the record, which then closes (R127). -/
def State.tdcFlush (s : State) (c : Nat) : State :=
  let x := s.tdcCh c
  if x.open_.isEmpty && x.queue.isEmpty then s
  else
    let s1 := State.tdcDrain x.queue.length s c
    let x1 := s1.tdcCh c
    if x1.open_.isEmpty then s1
    else
      let s2 := s1.reach (x1.openAt + s1.usTicks (s1.fld rTDC_CTRL fTDC_CTRL_FLUSH_US))
      s2.tdcClose c

/-- The stamp word of an edge of channel `c` at `t` (1/512 tick) (Table 2-5, R125). -/
def stampWord (loss rising wrap : Bool) (c t : Nat) : Word :=
  BitVec.ofNat 64 (t % 512 + t / 512 % 2 ^ 48 * 2 ^ 9 + c * 2 ^ 57 + b2n wrap * 2 ^ 61 + b2n rising * 2 ^ 62
    + b2n loss * 2 ^ 63)

/-- A stamp enters the queue of its channel, or is dropped on a full queue; while HO_GAP is 1 it is invalid and lost (R49, R126, R129). -/
def State.tdcEnqueue (s : State) (c : Nat) (w : Word) : State :=
  match s.tdcCtx c with
  | none => s.updTdc c fun x => { x with loss := false }
  | some x =>
    if 512 ≤ (s.tdcCh c).queue.length then
      (((s.updTdc c fun y => { y with loss := true }).addSat (rTDC_CH_STAT c) fTDC_CH_STAT_QDROP 1).raiseLim
        1000 (172 + c)).loseItems x 1
    else if s.hoGap then (s.updTdc c fun y => { y with loss := false }).loseItems x 1
    else s.updTdc c fun y => { y with queue := y.queue ++ [w], loss := false }

/-- The gate of the regression unit that is running: its first and last tick (R132). -/
def State.gateSpan (s : State) : Nat × Nat :=
  let g := s.fld rTDC_FREQ_CFG fTDC_FREQ_CFG_GATE
  (s.tdc.base + s.tdc.idx * g, s.tdc.base + (s.tdc.idx + 1) * g)

/-- The regression unit takes a stamp of its channel that lies in the gate; one that SKEW has moved beyond it waits for its own gate (R132). -/
def State.freqTake (s : State) (c t : Nat) (loss : Bool) : State :=
  let (a, b) := s.gateSpan
  if s.flag rTDC_FREQ_CFG fTDC_FREQ_CFG_EN && s.fld rTDC_FREQ_CFG fTDC_FREQ_CFG_CHANNEL = c && a * 512 ≤ t then
    if t < b * 512 then s.onTdc fun z => { z with stamps := s.tdc.stamps ++ [t], loss := s.tdc.loss || loss }
    else s.onTdc fun z => { z with ahead := s.tdc.ahead ++ [(t, loss)] }
  else s

/-- What an edge came to: nothing (not selected or not stamping), lost, or stamped at a time, with the LOSS it carries and its stamp. -/
inductive Edge where
  | none | lost | stamped (t : Nat) (loss : Bool) (w : Word)
  deriving DecidableEq, Repr

/-- An edge reaches the comparator of channel `c` at `t` (1/512 tick, before SKEW) (R122 to R125, R129, R132). -/
def State.tdcEdge (s0 : State) (c t : Nat) (rising : Bool) : State × Edge :=
  let s := s0.reach (t / 512)
  let slope := s.fld (rTDC_CH c) fTDC_CH_SLOPE
  if (slope = 0 && !rising) || (slope = 1 && rising) || !s.tdcStamps c then (s, .none)
  else
    let x := s.tdcCh c
    let dead := match x.last with
      | some l => ((t : Int) - l) * s.tickFs < 2000000 * 512
      | none => false
    if s.held || dead then (s.tdcLose c, .lost)
    else
      let u := ((t : Int) + s.fldS (rTDC_CH c) fTDC_CH_SKEW).toNat
      let era := u / 512 / 2 ^ 48 % 2 == 1
      let w := stampWord x.loss rising (era != x.era) c u
      let s1 := s.updTdc c fun y => { y with last := some (t : Int), era := era }
      let s2 := s1.addMod (rTDC_CH_COUNT c) fTDC_CH_COUNT_STAMPS 1
      let s3 := if s2.flag (rTDC_CH c) fTDC_CH_EN then (s2.freqTake c u x.loss).tdcEnqueue c w
        else s2.updTdc c fun y => { y with loss := false }
      ((if s3.flag (rTDC_CH c) fTDC_CH_EN then s3.ppsUpdate c u else s3), .stamped u x.loss w)

/-! ### Frequency by regression -/

/-- The integer square root, by its bits from the highest of `n` downwards. -/
def isqrtBits (v : Nat) : Nat → Nat → Nat
  | 0, r => r
  | n + 1, r => if (r + 2 ^ n) * (r + 2 ^ n) ≤ v then isqrtBits v n (r + 2 ^ n) else isqrtBits v n r

/-- The integer square root. -/
def isqrt (v : Nat) : Nat := isqrtBits v (v.log2 / 2 + 1) 0

/-- The sums of R133 over stamps t_0, t_1, … relative to t_0: the sum of k × t_k, of t_k and of t_k². -/
def regSums (t0 : Nat) : List Nat → Nat → Int × Int × Int
  | [], _ => (0, 0, 0)
  | t :: ts, k =>
    let (a, b, c) := regSums t0 ts (k + 1)
    let d : Int := (t : Int) - t0
    (k * d + a, d + b, d * d + c)

/-- The result of a gate (R133): N, VALID, LOSS, FEW, PERIOD, FREQ, RESID. `up` rounds RESID up where it is not whole; `open0`
stands for FREQ where the formula divides by zero. -/
def freqResult (ts : List Nat) (loss : Bool) (tick : Nat) (up : Bool) (open0 : Nat) :
    Nat × Bool × Bool × Bool × Nat × Nat × Nat :=
  let n := ts.length
  if n < 3 || loss then (n, false, loss, n < 3, 0, 0, 0)
  else
    let (s1, st, s2) := regSums (ts.headD 0) ts 0
    let nn : Int := n
    let num : Int := 12 * (nn * s1 - nn * (nn - 1) / 2 * st)
    let den := n * n * (n * n - 1)
    let period := divRound (num * 2 ^ 32) (den * 512)
    let freq : Nat := if period ≤ 0 then open0
      else (divRound (10 ^ 6 * 2 ^ 32 * 10 ^ 15) (period.toNat * tick)).toNat
    -- n times the squared residual: Σ t² − (Σ t)²/n − (n Σ k t − (n(n−1)/2) Σ t)² × 12 / (n³ (n² − 1)), over n^3 (n^2 - 1)
    let d3 : Int := nn * nn * nn * (nn * nn - 1)
    let m := nn * s1 - nn * (nn - 1) / 2 * st
    let sse : Int := s2 * d3 - st * st * (nn * nn * (nn * nn - 1)) - 12 * m * m
    -- RESID² in fs² is sse / (n × d3) × (tick / 512)²
    let q := sse.toNat * tick * tick
    let dq := n * d3.toNat * (512 * 512)
    let r := isqrt (q / dq)
    let resid := if r * r * dq = q then r else r + b2n up
    (n, true, false, false, period.toNat, freq, resid)

/-- Captures a result into the TDC_FREQ_RES block (R134, R10). -/
def State.freqCapture (s : State) : State :=
  let (k, s0) := s.fresh
  let (n, valid, loss, few, p, f, r) :=
    freqResult s0.tdc.stamps s0.tdc.loss s0.tickFs (Config.roundUp k) (Config.freqOfZero k)
  let ch := s0.fld rTDC_FREQ_CFG fTDC_FREQ_CFG_CHANNEL
  let s1 := s0.setFlds rTDC_FREQ_RES0 [(fTDC_FREQ_RES0_N, n), (fTDC_FREQ_RES0_CHANNEL, ch),
    (fTDC_FREQ_RES0_VALID, b2n valid), (fTDC_FREQ_RES0_LOSS, b2n loss), (fTDC_FREQ_RES0_FEW, b2n few)]
  let s2 := ((s1.wr rTDC_FREQ_RES1 (BitVec.ofNat 64 p)).wr rTDC_FREQ_RES2 (BitVec.ofNat 64 f)).setFld
    rTDC_FREQ_RES3 fTDC_FREQ_RES3_RESID r
  (s2.addMod rTDC_FREQ_SNAP fTDC_FREQ_SNAP_SEQ 1).raise (if valid then 184 else 185)

/-- The FREQ_RESULT record of a gate that opened at `t`, from the captured result (Table 6-3), for the context bound to
the channel; it is invalid and lost while HO_GAP is 1 (R49). -/
def State.freqRecord (s : State) (t : Nat) : State :=
  match s.tdcCtx (s.fld rTDC_FREQ_CFG fTDC_FREQ_CFG_CHANNEL) with
  | none => s
  | some x =>
    if s.hoGap then s.loseItems x 1
    else s.emitRec 69 { prod0 with
      ctx := x, typ := 0x41, time := t, flags := s.tdc.fl ||| s.holdFlag, items := 1
      pre := [rTDC_FREQ_RES0, rTDC_FREQ_RES1, rTDC_FREQ_RES2, rTDC_FREQ_RES3].flatMap
        fun a => leBytes 8 (s.rd a).toNat }

/-- A gate ends (R132, R134): the result is captured, its record is written, and the next gate begins or EN clears. -/
def State.freqGateEnd (s : State) : State :=
  if s.flag rTDC_FREQ_CFG fTDC_FREQ_CFG_EN then
    let (a, b) := s.gateSpan
    let s1 := ((s.reach b).freqCapture).freqRecord a
    let e := (b + s1.fld rTDC_FREQ_CFG fTDC_FREQ_CFG_GATE) * 512
    let mine := s1.tdc.ahead.filter fun x => x.1 < e
    let s2 := s1.onTdc fun z =>
      { z with
        stamps := mine.map (·.1), loss := mine.any (·.2), ahead := s1.tdc.ahead.filter fun x => e ≤ x.1
        fl := 0, idx := s1.tdc.idx + 1 }
    if s2.flag rTDC_FREQ_CFG fTDC_FREQ_CFG_REPEAT then s2 else s2.setFld rTDC_FREQ_CFG fTDC_FREQ_CFG_EN 0
  else s

/-- A write to TDC_FREQ_CFG; EN set from 0 starts the regression at START, or at the next DCLK edge when START has
passed (R132). -/
def State.wrFreqCfg (v : Word) (s : State) : State :=
  let was := s.flag rTDC_FREQ_CFG fTDC_FREQ_CFG_EN
  let s1 := s.wrCodes rTDC_FREQ_CFG v []
  if !was && s1.flag rTDC_FREQ_CFG fTDC_FREQ_CFG_EN then
    let st := (s1.rd rTDC_FREQ_START).toNat
    s1.onTdc fun z => { z with base := if st < s1.time then s1.time + 1 else st, idx := 0, stamps := [], loss := false, ahead := [], fl := 0 }
  else s1

/-- A write of 1 to TDC_FREQ_SNAP.SNAP captures the last result again (R10). -/
def State.freqSnap (s : State) : State := s.addMod rTDC_FREQ_SNAP fTDC_FREQ_SNAP_SEQ 1

/-- A write to TDC_CTRL: a MAX_STAMPS that breaks R127 is discarded. -/
def State.wrTdcCtrl (v : Word) (s : State) : State :=
  let m := fget v fTDC_CTRL_MAX_STAMPS
  let s1 := s.setFld rTDC_CTRL fTDC_CTRL_FLUSH_US (fget v fTDC_CTRL_FLUSH_US)
  if 4 ≤ m && m ≤ 2044 && m % 8 = 4 then s1.setFld rTDC_CTRL fTDC_CTRL_MAX_STAMPS m else s1

end Sys2Proof.Machine
end

