-- ==== Sys2Proof/Machine/Partial.lean ====
section
/-! DEFINITION. Discarding the partial state of processing units, as at a declared gap (R169, R531); recovery of a context
with it; new origins; and deadline misses, which can ask for a recovery (R370, R371). -/

namespace Sys2Proof.Machine

/-! ### Partial state -/

/-- A sample marked missing. -/
def Smp.missing (x : Smp) : Smp := { x with ok := false }

/-- The unit of square `sq` discards its partial state: samples in the filters of a down-converter and in the frames of a
pipeline count as missing from here, accumulations and records under construction are lost; but the record an acquisition unit has accepted is
never withdrawn: it closes truncated (R169, R284, R289). -/
def State.unitDiscard (s : State) (sq : Nat) : State :=
  if sq < 4 then s
  else if sq < 24 then
    s.updDdc (sq - 4) fun d => { d with stg := d.stg.map fun g => { g with hist := g.hist.map Smp.missing } }
  else if sq < 28 then s.updXfm (sq - 24) fun x => { x with buf := x.buf.map Smp.missing }
  else if sq < 32 then s.detDiscard (sq - 28)
  else if sq < 36 then s.denDiscard (sq - 32)
  else if 48 ≤ sq && sq < 56 then s.auAnchor (sq - 48)
  else if 61 ≤ sq && sq < 69 then
    let u := sq - 61
    let c := s.cmpU u
    (s.loseDirect sq (c.queue.length + ((c.rec_.map (·.n)).getD 0))).updCmp u fun c => { c with queue := [], rec_ := none }
  else s

/-- The record of a stream under construction for context `x` at its store port is dropped. -/
def State.streamDrop (s : State) (x : Nat) : State :=
  let q := SMap.get [] s.streams x
  if q.isEmpty then s
  else ((s.loseItems x q.length).onStreams fun _ => SMap.set [] s.streams x [])

/-- The STAMPS records under construction for context `x` are dropped. -/
def State.stampsDrop (s : State) (x : Nat) : State :=
  (upTo 12).foldl (fun (t : State) c =>
    if t.tdcCtx c = some x && !(t.tdcCh c).open_.isEmpty then
      (t.loseItems x (t.tdcCh c).open_.length).updTdc c fun h => { h with open_ := [] }
    else t) s

/-- Every unit on the path of context `x` discards its partial state (R531 step 1); a unit that also feeds another context
keeps its own, since a fault causes no loss outside its scope (R530). -/
def State.discardPath (s : State) (x : Nat) : State :=
  ((((s.pathOf x).filter fun sq => (s.ctxsFrom sq).all (· == x)).foldl State.unitDiscard s).streamDrop x).stampsDrop x

/-- A context recovers, with the partial state on its path discarded first (R531, R532). -/
def State.recoverPath (s : State) (x code source detail more : Nat) (ev : Option EvReq) : State :=
  (if (s.ctx x).st = .opened && s.glb != 4 then s.discardPath x else s).recover x code source detail more ev

/-- The event `e` that the FAULT records just made for the contexts `xs` bring together: at once when all of them are in the store,
otherwise with the last that is held for want of a billet (R36). -/
def State.faultsEvent (s : State) (xs : List Nat) (e : EvReq) : State :=
  let held := xs.filter fun x => !(s.ctx x).faults.isEmpty
  let q := { e with all := true }
  if held.isEmpty then s.raiseReq 0 (some { e with all := false })
  else held.foldl (fun (t : State) x => t.updCtx x fun c =>
    { c with faults := modAt (fun (f : FaultRec) => { f with ev := some q }) c.faults (c.faults.length - 1) }) s

/-! ### New origins (R185, R206, R289, R406) -/

/-- The unit of square `sq` takes a new origin at the present DCLK boundary; `cause` is that of a cancelled swap (2 PLAN, 3 RESTART, 4 RELOCK).
A detector or a density accumulator begins with the values in force; at a re-lock the times of its parameter commits still stand. -/
def State.unitOrigin (cause : Nat) (s : State) (sq : Nat) : State :=
  if 4 ≤ sq && sq < 24 then s.ddcOrigin (sq - 4) cause
  else if 24 ≤ sq && sq < 28 then s.xfmAnchor (sq - 24) cause
  else if 28 ≤ sq && sq < 32 then (if cause = 4 then s else s.detFresh (sq - 28))
  else if 32 ≤ sq && sq < 36 then (if cause = 4 then s else s.denFresh (sq - 32))
  else if 48 ≤ sq && sq < 56 then s.auAnchor (sq - 48)
  else if 61 ≤ sq && sq < 69 then s.cmpFlush (sq - 61)
  else s

/-! ### Deadline misses (R370, R371) -/

/-- Record `r` of a cord changed by `f`. -/
def Ctx.updRec (c : Ctx) (pos : Nat) (f : CordRec → CordRec) : Ctx :=
  { c with recs := c.recs.map fun r => if r.pos = pos then f r else r }

/-- Destination `d` leaves record `r` out. -/
def CordRec.leaveOut (r : CordRec) (d : Nat) : CordRec := { r with skipped := modAt (fun _ => true) r.skipped d }

/-- Device time reaches the next deadline of context `x` at destination `d`. The miss of a FAULT record is counted and reported, and MISS
never leaves one out (R36). -/
def State.deadlineMiss (s : State) (x d : Nat) : State :=
  let c := s.ctx x
  if c.st = .closed then s
  else
    match c.nextDue d with
    | none => s
    | some (r, t) =>
      let s1 := ((s.reach t).updCtx x fun c => c.updRec r.pos fun q =>
        { q with missed := modAt (fun _ => true) q.missed d }).addSat (rADM_CTX x) fADM_CTX_MISSES 1
      let src := 512 + x / 64
      let begun := (c.dest d).begun
      match (if r.typ = tyFault then 0 else c.miss) with
      | 1 =>
        let s2 := s1.raiseLim 1000 src (some x) 0 0 x
        if c.destType d = 2 || c.destType d = 4 || r.pos < begun then s2
        else
          (s2.updCtx x fun c => ({ c.updRec r.pos fun q => q.leaveOut d with lost := satN 64 (c.lost + r.items) }).updDest d
            fun e => { e with gap := e.gap ++ [r.pos] }).finishTo x d (c.dest d).fin
      | 2 =>
        let mine := fun (q : CordRec) => begun ≤ q.pos && q.pos < c.destEnd d && q.typ != tyFault
        let gone := c.recs.filter fun q => mine q && !q.skips d
        let n := gone.foldl (fun k q => k + q.items) 0
        let s2 := s1.updCtx x fun c =>
          { c with
            recs := c.recs.map fun q => if mine q then q.leaveOut d else q
            lost := satN 64 (c.lost + n) }
        (s2.recoverPath x 1 src d n (some ⟨src, some x, 0, 1, 1000, false⟩)).finishTo x d (c.dest d).fin
      | _ => s1.raiseLim 1000 src (some x) 0 0 x

end Sys2Proof.Machine
end

