-- ==== Sys2Proof/Machine/Plan.lean ====
section
/-! DEFINITION. Plan images: reading, validating and staging them, and the commands of PLAN_CMD up to the commit point
(R153 to R178). -/

namespace Sys2Proof.Machine

/-! ### Reading bytes of an image -/

/-- The `n` bytes at offset `o`, as a number. -/
def leAt (bs : List Byte) (o n : Nat) : Nat := leNat ((bs.drop o).take n)

/-- Are the `n` bytes at offset `o` all 0? -/
def zeroAt (bs : List Byte) (o n : Nat) : Bool := ((bs.drop o).take n).all (· == 0)

/-- The `n` words at offset `o`. -/
def wordsAt (bs : List Byte) (o n : Nat) : List Word := (upTo n).map fun i => BitVec.ofNat 64 (leAt bs (o + 8 * i) 8)

/-- Why validation rejects an image: REASON and DETAIL (Table 8-5). -/
abbrev PlanErr := Nat × Nat

/-- The first of a list of checks that fails. -/
def firstErr : List (Bool × PlanErr) → Option PlanErr
  | [] => none
  | (true, e) :: _ => some e
  | (false, _) :: t => firstErr t

/-- SIGNED of an image. -/
def planSigned (bs : List Byte) : Bool := leAt bs 6 2 % 2 == 1

/-- The offset of the CRC of an image of `len` bytes, where its sections end (R160). -/
def crcPlace (bs : List Byte) (len : Nat) : Nat := if planSigned bs then len - 100 else len - 4

/-- May a plan signature be checked against the provisioned key (R513)? -/
def State.planKey (s : State) : Option Nat :=
  match s.stk.key, s.stk.keyHash with
  | some k, some h => if Config.sha384 (leBytes 96 k) = h then some k else none
  | k, none => k
  | none, _ => none

/-- The checks of Table 8-5 on the header, the CRC and the signature. -/
def State.planHead (s : State) (bs : List Byte) (planLen : Nat) : Option PlanErr :=
  let len := leAt bs 8 4
  let signed := planSigned bs
  let c := crcPlace bs len
  let sigOk := match s.planKey with
    | none => false
    | some k => signedBy k (bs.take (len - 96)) ((bs.drop (len - 96)).take 96)
  firstErr [
    (leAt bs 0 4 != 0x4C504B48, 2, 0), (leAt bs 4 2 != 1, 3, 4), (1 < leAt bs 6 2, 3, 6), (!zeroAt bs 15 1, 3, 15),
    (!zeroAt bs 30 34, 3, 30), (leAt bs 12 2 != 0x4020, 4, 12), (s.fld rGLB_ID fGLB_ID_STEPPING < leAt bs 14 1, 4, 14),
    (2 ^ 20 < len || len != planLen || len % 4 != 0 || len < 64 + (if signed then 100 else 4), 5, 8),
    (crc32c (bs.take c) != leAt bs c 4, 6, c), (s.flag rGLB_STATUS fGLB_STATUS_SECURE && !signed, 7, 6),
    (signed && !sigOk, 8, len - 96)]

/-- An entry of the section table: TYPE, OFFSET, SIZE. -/
abbrev Sect := Nat × Nat × Nat

/-- The bytes one item of a section takes. -/
def sectGrain (ty : Nat) : Nat :=
  match ty with
  | 1 => 16
  | 2 => 8
  | 3 => 32
  | 4 => 64
  | _ => 16

/-- The section table, `n` entries from entry `i` on, with those before it (R161). -/
def sections (bs : List Byte) (fin : Nat) : Nat → Nat → List Sect → Except PlanErr (List Sect)
  | 0, _, acc => .ok acc
  | n + 1, i, acc =>
    let o := 64 + 16 * i
    let ty := leAt bs o 2
    let off := leAt bs (o + 4) 4
    let size := leAt bs (o + 8) 4
    let bad := ty = 0 || 5 < ty || (acc.any fun e => e.1 == ty) || leAt bs (o + 2) 2 != 0 || leAt bs (o + 12) 4 != 0
      || off % 8 != 0 || size % sectGrain ty != 0 || fin < off + size || off < 64 + 16 * leAt bs 28 2
      || (acc.any fun e => off < e.2.1 + e.2.2 && e.2.1 < off + size)
    if bad then .error (9, o) else sections bs fin n (i + 1) (acc ++ [(ty, off, size)])

/-- The section of a type, as offset and size (an absent one is empty). -/
def sectOf (l : List Sect) (ty : Nat) : Nat × Nat := ((l.find? fun e => e.1 == ty).map (·.2)).getD (0, 0)

/-- The unit records between two offsets; a malformed one answers its square (R161). -/
def unitRecs (bs : List Byte) (fin : Nat) : Nat → Nat → List UnitRec → Except PlanErr (List UnitRec)
  | 0, _, acc => .ok acc
  | n + 1, o, acc =>
    if fin ≤ o then .ok acc
    else
      let w := leAt bs o 8
      let sq := w % 128
      let len := w / 65536 % 65536
      if w / 2 ^ 32 != 0 || w / 128 % 512 != 0 || len < 8 || len % 8 != 0 || fin < o + len || (acc.any fun u => u.square == sq) then
        .error (11, sq)
      else unitRecs bs fin n (o + len) (acc ++ [⟨sq, wordsAt bs (o + 8) (len / 8 - 1)⟩])

/-- The route entry at an offset, and whether a bit that Table 8-4 does not name is set or NDST is out of range. -/
def routeAt (bs : List Byte) (o : Nat) : Route × Bool :=
  let w0 := leAt bs o 8
  let w1 := leAt bs (o + 8) 8
  let n := w0 / 2 ^ 24 % 8
  let dsts := (upTo n).map fun i => w0 / 2 ^ (32 + 8 * i) % 128
  (⟨w0 % 1024, w0 / 2 ^ 16 % 128, w0 / 2 ^ 23 % 2 == 1, dsts, w1 % 2 ^ 23,
      if w1 / 2 ^ 44 % 2 = 1 then some (w1 / 2 ^ 32 % 4096) else none, w1 / 2 ^ 32 % 4096, BitVec.ofNat 64 (leAt bs (o + 16) 8)⟩,
    n = 0 || 4 < n || w0 / 2 ^ 10 % 64 != 0 || w0 / 2 ^ 27 % 32 != 0 || (upTo 4).any (fun i => w0 / 2 ^ (39 + 8 * i) % 2 == 1)
      || w1 / 2 ^ 23 % 512 != 0 || w1 / 2 ^ 45 != 0 || leAt bs (o + 24) 8 != 0
      || (w1 / 2 ^ 44 % 2 = 0 && w0 / 2 ^ 16 % 128 = 69 && w1 / 2 ^ 32 % 4096 != 0))

/-! ### The checks on units, routes and contexts -/

/-- Is the unit record of the TDC stamp square valid (R568)? -/
def PlanImg.tdcValid (p : PlanImg) (u : UnitRec) : Bool :=
  let bound := u.body.filter fun w => fget w ⟨12, 1⟩ == 1
  u.body.length == 12 && u.body.all (fun w => fget w ⟨13, 51⟩ == 0)
    && bound.all (fun w => p.ctxs.any fun e => entryFld e 0 ⟨0, 12⟩ == fget w ⟨0, 12⟩)
    && (bound.isEmpty || match p.from_ 69 with
      | [r] => r.dsts.length == 1 && r.dsts.all isPort && !r.wait && r.ctx.isNone && r.context == 0
      | _ => false)

/-- Is a unit record valid under its chapter? A square whose chapter defines no record takes none. -/
def State.unitValid (s : State) (p : PlanImg) (u : UnitRec) : Bool :=
  let sq := u.square
  if sq < 4 then false
  else if sq < 24 then p.ddcValid u
  else if sq < 28 then p.xfmValid u
  else if sq < 32 then p.detValid u
  else if sq < 36 then p.denValid u
  else if sq < 48 then p.trgValid u
  else if sq < 57 then s.acqValid p u
  else if sq < 61 then p.turfValid u
  else if sq < 69 then p.cmpValid u
  else if sq = 69 then p.tdcValid u
  else false

/-- Is a route's source or destination a reserved square or one without that street, a rule of store ports or of WAIT broken, or the
source unused in the converter mode (R73, R153, R158, Table 8-4)? -/
def PlanImg.routeBad (p : PlanImg) (before : List Route) (r : Route) : Bool :=
  let ports := r.dsts.filter isPort
  92 ≤ r.src || (36 ≤ r.src && r.src < 48)
    || r.dsts.any (fun d => d < 4 || d == 69 || 86 ≤ d)
    || r.dsts.eraseDups.length != r.dsts.length || 1 < ports.length
    || r.ctx.isSome != (!ports.isEmpty && r.src != 69)
    || (match r.ctx with
      | some x => !(p.ctxs.any fun e => entryFld e 0 ⟨0, 12⟩ == x)
      | none => false)
    || (r.wait && r.src < 28) || (r.src == 1 && p.pair01 == 1) || (r.src == 3 && p.pair23 == 1)
    || before.any (fun q => q.num == r.num)

/-- The first route that is wrong, with its number. -/
def PlanImg.routesBad (p : PlanImg) : List (Route × Bool) → List Route → Option PlanErr
  | [], _ => none
  | (r, bad) :: t, before => if bad || p.routeBad before r then some (12, r.num) else p.routesBad t (before ++ [r])

/-- The sum of the RATEs of routes, in 1/65,536 byte per DCLK. -/
def rateSum (rs : List Route) : Nat := rs.foldl (fun n r => n + r.rate) 0

/-- The first square whose streets carry too much (R156). -/
def PlanImg.overRate (p : PlanImg) : Option PlanErr :=
  ((upTo 96).find? fun sq =>
    64 * 65536 < rateSum (p.from_ sq) || 64 * 65536 < rateSum (p.into sq) || 4 < (p.from_ sq).length || 8 < (p.into sq).length).map
      fun sq => (13, sq)

/-- The routes that carry records into context `x`: those that name it, that of the stamp square where a channel is bound to it,
and those of the acquisition units whose log goes to it (R299, R568). -/
def PlanImg.feeds (p : PlanImg) (x : Nat) : List Route :=
  let word := fun (sq i : Nat) => p.word sq i
  p.routes.filter fun r => r.ctx == some x
    || (r.src == 69 && (upTo 12).any fun c => word 69 c == x + 2 ^ 12)
    || (48 ≤ r.src && r.src < 56 && word r.src 1 == x + 2 ^ 12)

/-- Is a context entry of the plan invalid (R348, R415, R438)? -/
def State.ctxBad (s : State) (p : PlanImg) (e : List Word) : Bool :=
  let x := entryFld e 0 ⟨0, 12⟩
  let named := p.routes.filter fun r => r.ctx == some x
  let feeds := p.feeds x
  let others := (p.ctxs.filter fun f => entryFld f 0 ⟨0, 12⟩ != x).flatMap entryChannels
    ++ (s.ctxs.filter fun c => c.2.st == .opened && c.2.runtime && c.1 != x).flatMap fun c => entryChannels c.2.entry
  !entryValid e (s.flag rGLB_STATUS fGLB_STATUS_CXL_MODE) || 1 < named.length || feeds.isEmpty
    || (p.ctxs.filter fun f => entryFld f 0 ⟨0, 12⟩ == x).length != 1
    || ((s.ctx x).st == .opened && (s.ctx x).runtime)
    || (entryFld e 0 ⟨18, 2⟩ == 0 && feeds.any fun r => !r.wait)
    || named.any (fun r => 48 ≤ r.src && r.src < 56 && entryFld e 3 ⟨0, 21⟩ < p.word r.src 0 % 65536 + 2)
    || (entryChannels e).any fun c => others.contains c

/-- May a PARAMS entry name the register at `a`: does it hold a field that software writes to keep a value? -/
def paramReg (a : Nat) : Bool :=
  match findReg a with
  | some (r, _) => a % 8 == 0 && (r.rw ||| r.rwc ||| r.rwl) != 0
  | none => false

/-- The image of an accepted header, its sections still to be checked. -/
def State.planBody (s : State) (bs : List Byte) : Except PlanErr PlanImg :=
  let len := leAt bs 8 4
  let fin := crcPlace bs len
  let n := leAt bs 28 2
  if n < 2 || 5 < n then .error (9, 28)
  else match sections bs fin n 0 [] with
    | .error e => .error e
    | .ok l =>
      if !(l.any fun e => e.1 == 1) || !(l.any fun e => e.1 == 3) then .error (9, 64)
      else
        let (mo, ms) := sectOf l 1
        if ms != 16 || 1 < leAt bs mo 1 || 1 < leAt bs (mo + 1) 1 || !zeroAt bs (mo + 2) 14 then .error (10, mo)
        else
          let (uo, us) := sectOf l 2
          match unitRecs bs (uo + us) (us / 8) uo [] with
          | .error e => .error e
          | .ok units =>
            let (ro, rs) := sectOf l 3
            let (co, cs) := sectOf l 4
            let (po, ps) := sectOf l 5
            let rts := (upTo (rs / 32)).map fun i => routeAt bs (ro + 32 * i)
            let pars := (upTo (ps / 16)).map fun i => (po + 16 * i, leAt bs (po + 16 * i) 4, leAt bs (po + 16 * i + 4) 4)
            let p : PlanImg := {
              sha := Config.sha384 (bs.take len)
              planId := leAt bs 16 4
              froot := leAt bs 20 4
              crc := leAt bs fin 4
              pair01 := leAt bs mo 1
              pair23 := leAt bs (mo + 1) 1
              units := units
              routes := rts.map (·.1)
              ctxs := (upTo (cs / 64)).map fun i => wordsAt bs (co + 64 * i) 8
              params := pars.map fun e => (e.2.1, BitVec.ofNat 64 (leAt bs (e.1 + 8) 8)) }
            let units := (units.find? fun u => !s.unitValid p u).map fun u => ((11, u.square) : PlanErr)
            let ctxs := (p.ctxs.find? fun e => s.ctxBad p e).map fun e => ((14, entryFld e 0 ⟨0, 12⟩) : PlanErr)
            let pbad := (pars.find? fun e => e.2.2 != 0 || !paramReg e.2.1).map fun e => ((15, e.1) : PlanErr)
            match units.orElse fun _ => (p.routesBad rts []).orElse fun _ => p.overRate.orElse fun _ => ctxs.orElse fun _ => pbad with
            | some e => .error e
            | none => .ok p

/-! ### Status and slots -/

/-- PLAN_STATUS: STATE, RESULT, REASON. -/
def State.planStatus (s : State) (st result reason : Nat) : State :=
  s.setFlds rPLAN_STATUS [(fPLAN_STATUS_STATE, st), (fPLAN_STATUS_RESULT, result), (fPLAN_STATUS_REASON, reason)]

/-- PLAN_STATUS.STATE. -/
def State.planState (s : State) : Nat := s.fld rPLAN_STATUS fPLAN_STATUS_STATE

/-- The state of slot `k`. -/
def State.slotState (s : State) (k : Nat) : Nat :=
  s.fld rPLAN_SLOT_STATE (if k = 0 then fPLAN_SLOT_STATE_SLOT0 else fPLAN_SLOT_STATE_SLOT1)

/-- Slot `k` takes a state and an image; PLAN_SLOT shows the image. -/
def State.setSlot (s : State) (k st : Nat) (p : Option PlanImg) : State :=
  let s1 := s.setFld rPLAN_SLOT_STATE (if k = 0 then fPLAN_SLOT_STATE_SLOT0 else fPLAN_SLOT_STATE_SLOT1) st
  let s2 := s1.wr (rPLAN_SLOT k) (match p with
    | some q => fsets 0 [(fPLAN_SLOT_CRC, q.crc), (fPLAN_SLOT_PLAN_ID, q.planId)]
    | none => 0)
  s2.onPlan fun _ => if k = 0 then { s2.plan with slot0 := p } else { s2.plan with slot1 := p }

/-- The slot that is not ACTIVE: slot 0 when neither is. -/
def State.idleSlot (s : State) : Nat := if s.slotState 0 = 3 then 1 else if s.slotState 1 = 3 then 0 else if s.slotState 1 = 2 then 1 else 0

/-- A command is refused. -/
def State.planRefuse (s : State) (reason : Nat) : State :=
  (s.setFlds rPLAN_STATUS [(fPLAN_STATUS_RESULT, 3), (fPLAN_STATUS_REASON, reason)]).raise 9 none reason

/-- A load ends REJECTED: its slot is EMPTY. -/
def State.planReject (s : State) (e : PlanErr) : State :=
  (((s.setSlot s.idleSlot 0 none).planStatus 0 2 e.1).setFld rPLAN_DETAIL fPLAN_DETAIL_DETAIL e.2).raise 9 none e.1 e.2

/-! ### Loading (R162, R163, R165, R569) -/

/-- LOAD. -/
def State.planLoad (s : State) : State :=
  if s.planState != 0 then s.planRefuse 17
  else (s.setSlot s.idleSlot 1 none).setFld rPLAN_STATUS fPLAN_STATUS_STATE 1

/-- The image has been read, or a read of it failed. -/
def State.planFetchDone (s : State) (img : HostRead) : State :=
  let len := s.fld rPLAN_LEN fPLAN_LEN_LEN
  if s.planState != 1 then s
  else if !s.busOk then s.planReject (1, 0)
  else match img.fail with
    | some (o, timeout) =>
      if o < len then (s.hostFail timeout).planReject (1, o) else s.planReject (1, o)
    | none =>
      let bs := img.bytes.take len ++ List.replicate (len - img.bytes.length) 0
      match s.planHead bs len with
      | some e => s.planReject e
      | none =>
        match s.planBody bs with
        | .error e => s.planReject e
        | .ok p =>
          match s.planTest p with
          | some f => ((s.admFail (admResult f) f false).admCapture).planReject (16, f.2.2)
          | none => (((s.setSlot s.idleSlot 2 (some p)).planStatus 0 1 0).admStatus 1 0 63 0).raise 8 none 0 p.planId

/-! ### ACTIVATE, STOP, ABORT and DISCARD (R162, R167, R171 to R173) -/

/-- Does FROOT_KHZ differ from the running root frequency by more than 1 kHz? -/
def State.frootOff (s : State) (khz : Nat) : Bool :=
  let f := s.fref * s.clk.word
  let g := khz * 1000 * 2 ^ 32
  f + 1000 * 2 ^ 32 < g || g + 1000 * 2 ^ 32 < f

/-- The commit time that a command takes, none when it is too soon (R167). -/
def State.planWhen (s : State) : Option Nat :=
  let t := (s.rd rPLAN_TIME).toNat
  if t = 0 then some (s.time + 125000) else if t < s.time + 125000 then none else some t

/-- ACTIVATE, or STOP. -/
def State.planSchedule (s : State) (stop : Bool) : State :=
  let go := fun (t : Nat) => (s.wr rPLAN_TIME (BitVec.ofNat 64 t)).setFlds rPLAN_STATUS
    [(fPLAN_STATUS_STATE, if stop then 3 else 2), (fPLAN_STATUS_RESULT, 0), (fPLAN_STATUS_REASON, 0)]
  if s.planState != 0 then s.planRefuse 17
  else if stop then
    if s.activePlan.isNone then s.planRefuse 32
    else if !s.ready then s.planRefuse 35
    else match s.planWhen with
      | none => s.planRefuse 33
      | some t => go t
  else match s.stagedPlan with
    | none => s.planRefuse 32
    | some p =>
      if !s.ready then s.planRefuse 35
      else if s.frootOff p.froot then s.planRefuse 34
      else match s.planWhen with
        | none => s.planRefuse 33
        | some t =>
          match s.planTest p with
          | some f =>
            (((s.admFail (admResult f) f false).admCapture).setFld rPLAN_DETAIL fPLAN_DETAIL_DETAIL f.2.2).planRefuse 16
          | none => (go t).setFld rPWR_CTRL fPWR_CTRL_CNV_STBY 0

/-- An activation or STOP that is pending is aborted. -/
def State.planAbort (s : State) (reason : Nat) : State :=
  if s.planState = 2 || s.planState = 3 then (s.planStatus 0 4 reason).raise 11 none reason else s

/-- A datapath restart begins: a load ends too (R165). -/
def State.planRestart (s : State) : State :=
  if s.planState = 1 then ((s.setSlot s.idleSlot 0 none).planStatus 0 4 50).raise 11 none 50
  else s.planAbort 50

/-- DISCARD: refused while an activation is pending, otherwise it empties the staged slot (R162). -/
def State.planDiscard (s : State) : State :=
  if s.planState = 2 then s.planRefuse 17
  else if s.slotState s.idleSlot = 2 then s.setSlot s.idleSlot 0 none else s

/-- A write to PLAN_CMD; while the store is being initialised every command is refused with BUSY (R380). -/
def State.wrPlanCmd (v : Word) (s : State) : State :=
  let c := fget v fPLAN_CMD_CMD
  if c = 0 || 6 ≤ c then s
  else if s.flag rMEM_MAP fMEM_MAP_MAP_BUSY then s.planRefuse 17
  else match c with
    | 1 => s.planLoad
    | 2 => s.srExit.planSchedule false
    | 3 => s.planAbort 48
    | 4 => s.planDiscard
    | _ => s.planSchedule true

/-! ### Requesting a parameter commit (R176) -/

/-- A write to PLAN_PCOMMIT: LATE is cleared where written, and GO asks for a commit. The time in force behind PLAN_PC_TIME is the one the
commit waits for, 0 for the next DCLK boundary. -/
def State.wrPcommit (v : Word) (s : State) : State :=
  let a := rPLAN_PCOMMIT
  let t := (s.rd rPLAN_PC_TIME).toNat
  let s1 := s.wrCodes a v [fPLAN_PCOMMIT_GO]
  if fget v fPLAN_PCOMMIT_GO = 0 || s.flag a fPLAN_PCOMMIT_GO then s1
  else
    let s2 := s1.setFld a fPLAN_PCOMMIT_GO 1
    if t != 0 && t ≤ s.time then ((s2.setAct rPLAN_PC_TIME 0).setFld a fPLAN_PCOMMIT_LATE 1).raise 12
    else s2.setAct rPLAN_PC_TIME (BitVec.ofNat 64 t)

end Sys2Proof.Machine
end

