-- ==== Sys2Proof/Machine/Clk.lean ====
section
/-! DEFINITION. Clock synthesis: reference, lock, holdover, re-lock, SYNCIN and the clock outputs (R42 to R63, R566). -/

namespace Sys2Proof.Machine

/-- MPLL_STATE. -/
def State.mpll (s : State) : Nat := s.fld rCLK_STATUS fCLK_STATUS_MPLL_STATE

/-- REF_OK. -/
def State.refOk (s : State) : Bool := s.flag rCLK_STATUS fCLK_STATUS_REF_OK

/-- The word staged in CLK_MPLL: N × 2^32 + FRAC. -/
def State.mpllWord (s : State) : Nat := s.fld rCLK_MPLL fCLK_MPLL_N * 2 ^ 32 + s.fld rCLK_MPLL fCLK_MPLL_FRAC

/-- Does a word give an f_root of 16.0 to 20.48 GHz (R44)? -/
def State.wordOk (s : State) (w : Nat) : Bool :=
  16000000000 * 2 ^ 32 ≤ s.fref * w && s.fref * w ≤ 20480000000 * 2 ^ 32

/-- The clock machinery changed. -/
def State.updClk (s : State) (f : Clk → Clk) : State := { s with clk := f s.clk }

/-- The temperature of the synthesizers, 1/16 °C (R558). -/
def State.synthTemp (s : State) : Int := s.fldS (rTHM_TEMP 4) fTHM_TEMP_TEMP

/-! ### Reference, lock and holdover (R43, R46 to R51) -/

/-- The MPLL enters holdover; `integ` is the offset in the loop filter's integrator, which counts where no gate has ended since
lock (R47, R48, R51). -/
def State.enterHoldover (s : State) (integ : Int) : State :=
  let e := s.clk.gate.getD integ
  let s1 := (s.setFlds rCLK_STATUS [(fCLK_STATUS_MPLL_STATE, 3), (fCLK_STATUS_SYNCED, 0)]).addSat rCLK_STATUS
    fCLK_STATUS_LOL_COUNT 1
  let s2 := s1.setFlds rGLB_STATUS [(fGLB_STATUS_HOLDOVER, 1), (fGLB_STATUS_MPLL_LOCK, 0)]
  let s3 := (s2.wr rCLK_HO_ERR (fset 0 fCLK_HO_ERR_PPB (satN 32 e.natAbs))).updClk fun c =>
    { c with frozen := e, temp0 := s.synthTemp, refMs := s.refOk }
  s3.raise 32

/-- The reference is lost. -/
def State.refLoss (s : State) (integ : Int) : State :=
  if !s.refOk then s
  else
    let s1 := ((s.setFld rCLK_STATUS fCLK_STATUS_REF_OK 0).updClk fun c => { c with gateBad := true, refMs := false }).raise 33
    if s1.mpll = 2 then s1.enterHoldover integ else s1

/-- The reference is good again. -/
def State.refRestored (s : State) : State :=
  if s.refOk then s else (s.setFld rCLK_STATUS fCLK_STATUS_REF_OK 1).raise 34

/-- The MPLL loses lock. -/
def State.mpllLol (s : State) (integ : Int) : State := if s.mpll = 2 then s.enterHoldover integ else s

/-- The MPLL declares lock: holdover ends (R50), a re-lock goes on to SETTLE (R54, R56), and an acquisition at boot is over. -/
def State.mpllLocked (s : State) : State :=
  if !s.refOk then s
  else match s.clk.stage with
    | .toNew => s.updClk fun c => { c with stage := .settleNew }
    | .toOld => s.updClk fun c => { c with stage := .settleOld }
    | .retry => s.updClk fun c => { c with stage := .settleRetry }
    | .idle =>
      let lock := ((s.flagOpen.setFlds rCLK_STATUS [(fCLK_STATUS_MPLL_STATE, 2), (fCLK_STATUS_HO_GAP, 0)]).setFlds rGLB_STATUS
        [(fGLB_STATUS_HOLDOVER, 0), (fGLB_STATUS_MPLL_LOCK, 1)]).updClk fun c => { c with gate := none, gateBad := false }
      if s.mpll = 3 then lock.raise 36 else if s.mpll = 1 then lock else s
    | _ => s

/-- A 1 ms gate ends while LOCKED with a frequency error of `err` ppb. -/
def State.freqGate (s : State) (err : Int) : State :=
  if s.mpll != 2 then s
  else if s.clk.gateBad || !s.refOk then s.updClk fun c => { c with gateBad := !s.refOk }
  else s.updClk fun c => { c with gate := some err }

/-- One more millisecond of holdover has passed; `meas` is the error measured over it, used while REF_OK was 1 throughout. -/
def State.holdoverUpdate (s : State) (meas : Nat) : State :=
  if s.mpll != 3 then s
  else
    let s0 := s.addSat rCLK_HO_ERR fCLK_HO_ERR_ELAPSED 1
    let ms := s0.fld rCLK_HO_ERR fCLK_HO_ERR_ELAPSED
    let (k, s1) := s0.fresh
    -- |frozen| + DRIFT × 0.01 ppb/s × ms / 1,000 + TEMPCO × |ΔT| / 16, in 1/1,600,000 ppb
    let num := s.clk.frozen.natAbs * 1600000 + s.fld rCLK_HOLD fCLK_HOLD_DRIFT * ms * 16
      + s.fld rCLK_HOLD fCLK_HOLD_TEMPCO * (s.synthTemp - s.clk.temp0).natAbs * 100000
    let model := if num % 1600000 != 0 && Config.roundUp k then num / 1600000 + 1 else num / 1600000
    let ppb := if s.clk.refMs && s.refOk then meas else model
    let s2 := (s1.setFld rCLK_HO_ERR fCLK_HO_ERR_PPB (satN 32 ppb)).updClk fun c => { c with refMs := s.refOk }
    let was := s.flag rCLK_STATUS fCLK_STATUS_HO_GAP
    let gap := s.fld rCLK_HOLD fCLK_HOLD_BOUND < ppb
    let s3 := s2.setFld rCLK_STATUS fCLK_STATUS_HO_GAP (b2n gap)
    if gap && !was then s3.raise 35 else s3

/-! ### The link synthesizer (R52) -/

/-- The LPLL loses lock. -/
def State.lpllHoldover (s : State) : State :=
  if s.flag rCLK_STATUS fCLK_STATUS_LPLL_HOLD then s
  else ((s.setFlds rCLK_STATUS [(fCLK_STATUS_LPLL_HOLD, 1), (fCLK_STATUS_LPLL_LOCK, 0), (fCLK_STATUS_FALLBACK_RING, 1)]).setFld
    rGLB_STATUS fGLB_STATUS_LPLL_LOCK 0).raise 38

/-- The LPLL regains lock. -/
def State.lpllRelocked (s : State) : State :=
  if s.flag rCLK_STATUS fCLK_STATUS_LPLL_HOLD then
    ((s.setFlds rCLK_STATUS [(fCLK_STATUS_LPLL_HOLD, 0), (fCLK_STATUS_LPLL_LOCK, 1), (fCLK_STATUS_FALLBACK_RING, 0)]).setFld
      rGLB_STATUS fGLB_STATUS_LPLL_LOCK 1).raise 39
  else s

/-! ### Re-lock (R53 to R56, R566) -/

/-- CLK_CMD.RESULT. -/
def State.clkResult (s : State) (n : Nat) : State := s.setFld rCLK_CMD fCLK_CMD_RESULT n

/-- The root periods of the high phase of an output (R60). -/
def ClkOut.high (o : ClkOut) : Nat := if o.div % 2 = 0 then o.div / 2 else (o.div + 1) / 2

/-- Every clock output completes its high phase and is held low (R54 step 2). -/
def State.outsLow (s : State) : State :=
  s.updClk fun c => { c with outs := c.outs.map fun o => { o with phase := max o.phase o.high } }

/-- A write of 1 to RETUNE: refused, or the dividers are held and the MPLL goes to the staged word. -/
def State.retune (s : State) : State :=
  if s.mpll != 2 then s.clkResult 4
  else if !s.wordOk s.mpllWord then s.clkResult 3
  else
    let s1 := (s.clkResult 1).setFlds rCLK_STATUS [(fCLK_STATUS_MPLL_STATE, 4), (fCLK_STATUS_CCLK_FALLBACK, 1)]
    let s2 := (s1.setFld rGLB_STATUS fGLB_STATUS_MPLL_LOCK 0).updClk fun c =>
      { c with prev := c.word, target := s.mpllWord, stage := .toNew }
    (((((s2.planAbort 49).calAbortIf 8).bgRelockStart).pgHold).outsLow).servoDividerHold

/-- A write to CLK_CMD. -/
def State.wrClkCmd (v : Word) (s : State) : State := if fget v fCLK_CMD_RETUNE = 1 then s.retune else s

/-- Lock is not declared within TIMEOUT. -/
def State.retuneTimeout (s : State) : State :=
  match s.clk.stage with
  | .toNew => (s.clkResult 5).updClk fun c => { c with stage := .toOld }
  | .toOld => (((s.clkResult 6).setFld rCLK_STATUS fCLK_STATUS_MPLL_STATE 5).updClk fun c => { c with stage := .held }).raise 37
  | .retry => s.updClk fun c => { c with stage := .held }
  | _ => s

/-- A TIMEOUT period in HELD passes: the staged word is tried again while REF_OK is 1. -/
def State.heldRetry (s : State) : State :=
  match s.clk.stage with
  | .held => if s.refOk then s.updClk fun c => { c with stage := .retry } else s
  | _ => s

/-- The records that have reached the store ports are placed, as far as their contexts take them. -/
def State.drainPorts (s : State) : State :=
  (upTo 16).foldl (fun t p => (upTo (t.port p).inbox.length).foldl (fun v _ => v.arrive p) t) s

/-- The OPEN contexts whose path begins at a converter square (R566). -/
def State.cnvContexts (s : State) : List Nat :=
  (s.ctxs.filter fun e => e.2.st == .opened && (s.pathOf e.1).any (· < 4)).map (·.1)

/-- Does a converter feed square `sq`, through other units or directly? -/
def State.cnvFed (s : State) (sq : Nat) : Bool := (s.squaresAbove 8 sq).any (· < 4)

/-- The clock outputs start their next period at divider phase zero with the written divider; one whose EN is 0 rests low (R57, R61, R62). -/
def State.outsZero (s : State) : State :=
  s.updClk fun c => { c with outs := c.outs.zipIdx.map fun (o, n) =>
    { o with phase := 0, div := s.fld (rCLK_OUT n) fCLK_OUT_DIV, run := s.flag (rCLK_OUT n) fCLK_OUT_EN } }

/-- SETTLE reference cycles after lock: the dividers, held for `fs` femtoseconds, are released (R54, R118, R185, R289, R566); units that
a store port feeds take no new origin (R206), and acquisition units close in any case (R289). DESIGN CHOICE
(assumption 63): a loss of reference or of lock while MPLL_STATE is RELOCK or HELD enters no holdover, and SETTLE goes on to LOCKED. -/
def State.settleDone (s : State) (fs : Nat) : State :=
  let go := fun (word result : Nat) =>
    let s1 := (s.clkResult result).updClk fun c => { c with word := word, stage := .idle, gate := none, gateBad := false }
    let s2 := (s1.setFlds rCLK_STATUS [(fCLK_STATUS_MPLL_STATE, 2), (fCLK_STATUS_CCLK_FALLBACK, 0)]).setFld rGLB_STATUS
      fGLB_STATUS_MPLL_LOCK 1
    let s3 := (((s2.dividerRelease fs).outsZero.pgRelease).bgRelockEnd).trgRestart
    let s4 := (((upTo 96).filter fun sq => (48 ≤ sq && sq < 56) || s.cnvFed sq).foldl (State.unitOrigin 4) s3).drainPorts
    let xs := s4.cnvContexts
    let s5 := xs.foldl (fun t x => t.recoverPath x 3 36 result 0 none) s4
    (if s5.glb = 4 then s5.raise 36 else s5.faultsEvent xs ⟨36, none, 0, 0, 0, false⟩).admRetest
  match s.clk.stage with
  | .settleNew | .settleRetry => go s.clk.target 2
  | .settleOld => go s.clk.prev 5
  | _ => s

/-! ### SYNCIN (R57 to R59) -/

/-- A write to CLK_SYNC (R57, R58). DESIGN CHOICE (assumption 63): REFUSED stays 1 after a later ARM that is accepted, until a write of 1 clears it. -/
def State.wrClkSync (v : Word) (s : State) : State :=
  let s1 := s.wrCodes rCLK_SYNC v [fCLK_SYNC_ARM]
  if fget v fCLK_SYNC_ARM = 0 then s1
  else if s.planActive || s.fld rCLK_MPLL fCLK_MPLL_FRAC != 0 then s1.setFld rCLK_SYNC fCLK_SYNC_REFUSED 1
  else s1.setFld rCLK_SYNC fCLK_SYNC_ARM 1

/-- SYNCIN is sampled high at a reference edge; `same` is whether the divider phase is the one it would have set. -/
def State.syncinEdge (s : State) (same : Bool) : State :=
  if s.flag rCLK_SYNC fCLK_SYNC_ARM then
    if s.mpll = 2 then
      (((s.setFld rCLK_SYNC fCLK_SYNC_ARM 0).setFld rCLK_STATUS fCLK_STATUS_SYNCED 1).outsZero).raise 40
    else s
  else if s.flag rCLK_SYNC fCLK_SYNC_CHECK then
    if same then s.setFld rCLK_STATUS fCLK_STATUS_SYNCED 1
    else ((s.setFld rCLK_STATUS fCLK_STATUS_SYNCED 0).addSat rCLK_SYNC fCLK_SYNC_SLIP_COUNT 1).raise 41
  else s

/-! ### Clock outputs (R60 to R62) -/

/-- A write to CLK_OUT[n]: a DIV below 8 is discarded. -/
def State.wrClkOut (n : Nat) (v : Word) (s : State) : State :=
  let d := fget v fCLK_OUT_DIV
  s.wrCodes (rCLK_OUT n) (if d < 8 then fset v fCLK_OUT_DIV (s.fld (rCLK_OUT n) fCLK_OUT_DIV) else v) []

/-- One root period of an output whose register holds `w`; `root` is the root period in steps of 0.4 ps. At the end of a period the
divider is taken and the delay moves by at most one root period; a cleared EN stops it after the high phase. -/
def ClkOut.tick (w : Word) (root : Nat) (o : ClkOut) : ClkOut :=
  let en := fget w fCLK_OUT_EN == 1
  let coarse := fget w fCLK_OUT_COARSE
  let fine := fget w fCLK_OUT_FINE
  if o.div ≤ o.phase + 1 then
    let o1 := if o.coarse < coarse then { o with coarse := o.coarse + 1 }
      else if coarse < o.coarse then { o with coarse := o.coarse - 1 }
      else if o.fine < fine then { o with fine := min fine (o.fine + root) }
      else { o with fine := max fine (o.fine - root) }
    { o1 with phase := 0, div := fget w fCLK_OUT_DIV, run := en }
  else
    { o with phase := o.phase + 1, run := o.run && (en || o.phase + 1 < o.high) }

/-- One DCLK of the clock outputs: 16 root periods; none passes while the dividers are held. -/
def State.clkOutBeat (s : State) : State :=
  if s.held then s
  else
    let root := s.tickFs / 16 / 400
    let step := fun (e : ClkOut × Nat) => (upTo 16).foldl (fun (q : ClkOut) _ => q.tick (s.rd (rCLK_OUT e.2)) root) e.1
    s.updClk fun c => { c with outs := c.outs.zipIdx.map step }

end Sys2Proof.Machine
end

