-- ==== Sys2Proof/Machine/TurfCmds.lean ====
section
/-! DEFINITION. The commands of chapter 14: the host's writes to a core, what the clusters do, and the Turf instructions.
An instruction command is core `c` issuing that instruction at its pc. -/

namespace Sys2Proof.Machine

/-- The outcome of a command that goes on. -/
abbrev Res := Host.Outcome State Fault Refusal

/-! ### Host writes and clusters -/

/-- TC_RUN: the host writes TC_CTRL with RUN 1 (R316). -/
def execTcRun (c : Fin 32) (v : Word) (s : State) : Res :=
  .next (s.write64 .host (rTC_CTRL c) (State.wrTcCtrl c (fset v fTC_CTRL_RUN 1)))

/-- TC_ABORT: the host writes TC_CTRL with ABORT 1 (R317). -/
def execTcAbort (c : Fin 32) (v : Word) (s : State) : Res :=
  .next (s.write64 .host (rTC_CTRL c) (State.wrTcCtrl c (fset v fTC_CTRL_ABORT 1)))

/-- TC_PM_WRITE: a 32-bit host write of instruction `a` of PM (R306, R307). -/
def execTcPmWrite (c : Fin 32) (a : Fin 2048) (v : BitVec 32) (s : State) : Res :=
  .next (if s.windowOpen (rTC_CTRL c) then s.wrPm c a [v.toNat] else s)

/-- TC_DM_WRITE: a 32-bit host write of the two DM words from 2 × `a` on (R306, R307). -/
def execTcDmWrite (c : Fin 32) (a : Fin 4096) (v : BitVec 32) (s : State) : Res :=
  .next (if s.windowOpen (rTC_CTRL c) then s.wrDm c (2 * a) [v.toNat % 2 ^ 16, v.toNat / 2 ^ 16] else s)

/-- TC_SIN_WRITE (R309). -/
def execTcSinWrite (c : Fin 32) (v : Word) (s : State) : Res :=
  .next (s.write64 .host (rTC_SIN c) (State.wrTcSin c v))

/-- TC_MBIN_WRITE (R315). -/
def execTcMbinWrite (c : Fin 32) (k : Fin 4) (v : Word) (s : State) : Res :=
  .next (s.write64 .host (rTC_MBIN c k) (State.wrMbin c k v))

/-- TC_MBIN_POST: the host writes TC_MBIN_CTRL with POST 1 (R315). -/
def execTcMbinPost (c : Fin 32) (v : Word) (s : State) : Res :=
  .next (s.write64 .host (rTC_MBIN_CTRL c) (State.wrMbinCtrl c (fset v fTC_MBIN_CTRL_POST 1)))

/-- TC_MBOUT_ACK: the host writes TC_MBOUT_CTRL with ACK 1 (R315). -/
def execTcMboutAck (c : Fin 32) (v : Word) (s : State) : Res :=
  .next (s.write64 .host (rTC_MBOUT_CTRL c) (State.wrMboutCtrl c (fset v fTC_MBOUT_CTRL_ACK 1)))

/-- TC_RECORD_ARRIVAL: cluster `k` takes the next record of input slot `i` (R308 to R310). -/
def execTcRecordArrival (k : Fin 4) (i : Fin 8) (s : State) : Res := .next (s.clocked fun t => t.tcArrival k i)

/-- TC_CLUSTER_READOUT: cluster `k` reads and sends the next queued record (R312, R313). -/
def execTcClusterReadout (k : Fin 4) (s : State) : Res := .next (s.clocked fun t => t.tcReadout k)

/-- TC_TIMER_EXPIRY: PERIOD cycles have elapsed, and TIMER pends while EN is 1 (R326). -/
def execTcTimerExpiry (c : Fin 32) (s : State) : Res :=
  .next (if s.flag (rTC_TIMER c) fTC_TIMER_EN then s.updTcore c fun x => { x with timer := 0 }.pend 2 else s)

/-- TC_WATCHDOG: TC_CYCLES has reached a non-zero TC_LIMIT, and the run aborts (R317). -/
def execTcWatchdog (c : Fin 32) (s : State) : Res :=
  .next (
    let lim := s.fld (rTC_LIMIT c) fTC_LIMIT_CYCLES
    if (s.tcore c).st = .halted || lim = 0 then s
    else (s.updTcore c fun x => { x with cycles := max x.cycles lim }).tcAbort c 8)

/-- TC_INTERRUPT: an enabled pending interrupt is taken at the instruction boundary (R327, R328). -/
def execTcInterrupt (c : Fin 32) (s : State) : Res := .next (s.tcInterrupt c)

/-! ### Data movement and ALU (opcodes 0x00 to 0x12) -/

/-- NOP. -/
def execTNop (c : Fin 32) (s : State) : Res := .next (s.issuePlain c fun x => x)

/-- LDI dD, #imm. -/
def execTLdi (c : Fin 32) (d : Fin 16) (imm : BitVec 16) (s : State) : Res :=
  .next (s.issuePlain c fun x => x.setD d imm.toNat)

/-- LD dD, *pP am. -/
def execTLd (c : Fin 32) (d : Fin 16) (p : Fin 8) (am : Fin 4) (s : State) : Res :=
  .next (s.issuePlain c fun x => (x.loadD d (x.dmWord (x.p p))).modify p am)

/-- ST dD, *pP am. -/
def execTSt (c : Fin 32) (d : Fin 16) (p : Fin 8) (am : Fin 4) (s : State) : Res :=
  .next (s.issuePlain c fun x => (x.storeDm (x.p p) (x.dReg d)).modify p am)

/-- MOV dD, dA. -/
def execTMov (c : Fin 32) (d a : Fin 16) (s : State) : Res :=
  .next (s.issuePlain c fun x => x.setD d (x.dReg a))

/-- MOVC dD, cr. -/
def execTMovcFromCr (c : Fin 32) (d : Fin 16) (r : Fin 64) (s : State) : Res :=
  .next (s.issuePlain c fun x => x.setD d (x.crValue r))

/-- MOVC cr, dD. -/
def execTMovcToCr (c : Fin 32) (r : Fin 64) (d : Fin 16) (s : State) : Res :=
  .next (s.issuePlain c fun x => x.loadCr r (x.dReg d))

/-- LDC cr, #imm. -/
def execTLdc (c : Fin 32) (r : Fin 64) (imm : BitVec 16) (s : State) : Res :=
  .next (s.issuePlain c fun x => x.loadCr r imm.toNat)

/-- ADD dD, dA, dB. -/
def execTAdd (c : Fin 32) (d a b : Fin 16) (s : State) : Res :=
  .next (s.issuePlain c fun x =>
    let r := addC (x.dReg a) (x.dReg b)
    (x.setD d r.1).flagsZNC r.1 r.2)

/-- SUB dD, dA, dB. -/
def execTSub (c : Fin 32) (d a b : Fin 16) (s : State) : Res :=
  .next (s.issuePlain c fun x =>
    let r := subC (x.dReg a) (x.dReg b)
    (x.setD d r.1).flagsZNC r.1 r.2)

/-- AND dD, dA, dB. -/
def execTAnd (c : Fin 32) (d a b : Fin 16) (s : State) : Res :=
  .next (s.issuePlain c fun x =>
    let r := x.dReg a &&& x.dReg b
    (x.setD d r).flagsZN r)

/-- OR dD, dA, dB. -/
def execTOr (c : Fin 32) (d a b : Fin 16) (s : State) : Res :=
  .next (s.issuePlain c fun x =>
    let r := x.dReg a ||| x.dReg b
    (x.setD d r).flagsZN r)

/-- XOR dD, dA, dB. -/
def execTXor (c : Fin 32) (d a b : Fin 16) (s : State) : Res :=
  .next (s.issuePlain c fun x =>
    let r := x.dReg a ^^^ x.dReg b
    (x.setD d r).flagsZN r)

/-- ADDI dD, #imm. -/
def execTAddi (c : Fin 32) (d : Fin 16) (imm : BitVec 16) (s : State) : Res :=
  .next (s.issuePlain c fun x =>
    let r := addC (x.dReg d) imm.toNat
    (x.setD d r.1).flagsZNC r.1 r.2)

/-- ASH dD, dA, dB. -/
def execTAsh (c : Fin 32) (d a b : Fin 16) (s : State) : Res :=
  .next (s.issuePlain c fun x => x.putSat d (x.ash (x.dInt a) (x.dInt b)))

/-- ASHI dD, dA, #s: the shift count is a signed five-bit number. -/
def execTAshi (c : Fin 32) (d a : Fin 16) (n : BitVec 5) (s : State) : Res :=
  .next (s.issuePlain c fun x => x.putSat d (x.ash (x.dInt a) n.toInt))

/-- CMP dA, dB. -/
def execTCmp (c : Fin 32) (a b : Fin 16) (s : State) : Res :=
  .next (s.issuePlain c fun x =>
    let r := subC (x.dReg a) (x.dReg b)
    x.flagsZNC r.1 r.2)

/-- ABS dD, dA. -/
def execTAbs (c : Fin 32) (d a : Fin 16) (s : State) : Res :=
  .next (s.issuePlain c fun x => x.putSat d (sat16 (if x.dInt a < 0 then -x.dInt a else x.dInt a)))

/-- MOVM *pX amx, *pY amy. -/
def execTMovm (c : Fin 32) (px : Fin 8) (amx : Fin 4) (py : Fin 8) (amy : Fin 4) (s : State) : Res :=
  .next (s.issuePlain c fun x =>
    ((x.storeDm (x.p py) (x.dmWord (x.p px))).modify px amx).modify py amy)

/-! ### Multiply-accumulate and accumulators (opcodes 0x18 to 0x2B) -/

/-- MPY a, dX, dY. -/
def execTMpy (c : Fin 32) (a : Fin 2) (dx dy : Fin 16) (s : State) : Res :=
  .next (s.issuePlain c fun x => x.setAcc a (x.prod (x.dInt dx) (x.dInt dy)))

/-- MAC a, dX, dY. -/
def execTMac (c : Fin 32) (a : Fin 2) (dx dy : Fin 16) (s : State) : Res :=
  .next (s.issuePlain c fun x => x.accPut a (x.accReg a + x.prod (x.dInt dx) (x.dInt dy)))

/-- MSU a, dX, dY. -/
def execTMsu (c : Fin 32) (a : Fin 2) (dx dy : Fin 16) (s : State) : Res :=
  .next (s.issuePlain c fun x => x.accPut a (x.accReg a - x.prod (x.dInt dx) (x.dInt dy)))

/-- MACM a, *pX amx, *pY amy. -/
def execTMacm (c : Fin 32) (a : Fin 2) (px : Fin 8) (amx : Fin 4) (py : Fin 8) (amy : Fin 4) (s : State) : Res :=
  .next (s.issuePlain c fun x =>
    ((x.accPut a (x.accReg a + x.prod (x.dmInt (x.p px)) (x.dmInt (x.p py)))).modify px amx).modify py amy)

/-- FTAP a, *pX amx, *pY amy: the data word also moves one DM word up (R330). -/
def execTFtap (c : Fin 32) (a : Fin 2) (px : Fin 8) (amx : Fin 4) (py : Fin 8) (amy : Fin 4) (s : State) : Res :=
  .next (s.issuePlain c fun x =>
    let y := x.accPut a (x.accReg a + x.prod (x.dmInt (x.p px)) (x.dmInt (x.p py)))
    ((y.storeDm (x.p px + 1) (x.dmWord (x.p px))).modify px amx).modify py amy)

/-- ADDA a, dX, #sh. -/
def execTAdda (c : Fin 32) (a : Fin 2) (dx : Fin 16) (sh : Fin 25) (s : State) : Res :=
  .next (s.issuePlain c fun x => x.accPut a (x.accReg a + x.dInt dx * 2 ^ (sh : Nat)))

/-- CLRA a. -/
def execTClra (c : Fin 32) (a : Fin 2) (s : State) : Res := .next (s.issuePlain c fun x => x.setAcc a 0)

/-- ACP a: the other accumulator, as Table 14-6 lets ACP see it. -/
def execTAcp (c : Fin 32) (a : Fin 2) (s : State) : Res :=
  .next (s.issuePlain c fun x => x.setAcc a (x.accLag (1 - (a : Nat))))

/-- EXT dD, a, #s. -/
def execTExt (c : Fin 32) (d : Fin 16) (a : Fin 2) (n : Fin 25) (s : State) : Res :=
  .next (s.issuePlain c fun x => x.putSat d (sat16 (rndBy x.rndMode (x.accLag a) n)))

/-- SHA a, #s: the shift count is a signed six-bit number. -/
def execTSha (c : Fin 32) (a : Fin 2) (n : BitVec 6) (s : State) : Res :=
  .next (s.issuePlain c fun x =>
    if 0 ≤ n.toInt then x.accPut a (x.accReg a * 2 ^ n.toInt.toNat)
    else x.setAcc a (x.accReg a / 2 ^ (-n.toInt).toNat))

/-- EXPD dD, dA. -/
def execTExpd (c : Fin 32) (d a : Fin 16) (s : State) : Res :=
  .next (s.issuePlain c fun x => x.setD d (rsb16 (x.dReg a)))

/-- EXPA dD, a. -/
def execTExpa (c : Fin 32) (d : Fin 16) (a : Fin 2) (s : State) : Res :=
  .next (s.issuePlain c fun x => x.setD d (ofSigned 16 ((rsb40 (x.accLag a) : Int) - 8)))

/-- BEXP dD, *pP am. -/
def execTBexp (c : Fin 32) (d : Fin 16) (p : Fin 8) (am : Fin 4) (s : State) : Res :=
  .next (s.issuePlain c fun x =>
    let r : Int := rsb16 (x.dmWord (x.p p))
    (x.setD d (ofSigned 16 (min (x.dInt d) r))).modify p am)

/-- BSCL *pP am, dD. -/
def execTBscl (c : Fin 32) (p : Fin 8) (am : Fin 4) (d : Fin 16) (s : State) : Res :=
  .next (s.issuePlain c fun x =>
    let r := x.ash (x.dmInt (x.p p)) (x.dInt d)
    ((x.storeDm (x.p p) (ofSigned 16 r.1)).stick srS r.2).modify p am)

/-! ### Control flow (opcodes 0x30 to 0x39) -/

/-- A branch ends every active loop whose body its target lies outside, with the loops inside it (R324). -/
def Core.leaveLoops (x : Core) (t : Nat) : Core :=
  let out := x.loops.filter fun l => t < l.1 || l.2.1 < t
  match out.getLast? with
  | none => x
  | some l =>
    let n := (x.loops.takeWhile fun m => m != l).length + 1
    { x with loops := x.loops.drop n }.setCr 32 l.2.2

/-- B cond, t. Values 11 to 15 of cond are ILLEGAL. -/
def execTB (c : Fin 32) (cond : Fin 16) (t : Fin 2048) (s : State) : Res :=
  .next (s.issue c .other fun x =>
    if 10 < (cond : Nat) then .fault 2
    else if x.cond cond then .next { x.leaveLoops t with br := some ⟨2, some t, false⟩ }
    else .next { x with br := some ⟨2, none, false⟩ })

/-- CALL t: pushes the address after the delay slots. -/
def execTCall (c : Fin 32) (t : Fin 2048) (s : State) : Res :=
  .next (s.issue c .other fun x =>
    if 8 ≤ x.calls.length then .fault 3
    else .next { x with calls := ((x.pc + 3) % 2048) :: x.calls, br := some ⟨2, some t, false⟩ })

/-- RET. -/
def execTRet (c : Fin 32) (s : State) : Res :=
  .next (s.issue c .other fun x =>
    match x.calls with
    | [] => .fault 3
    | a :: rest => .next { x with calls := rest, br := some ⟨2, some a, false⟩ })

/-- RETI: sr returns from the shadow, IE after the delay slots (R327). -/
def execTReti (c : Fin 32) (s : State) : Res :=
  .next (s.issue c .other fun x =>
    match x.calls with
    | [] => .fault 3
    | a :: rest =>
      let ie := x.shadow / 2 ^ 12 % 2 == 1
      .next ({ x with calls := rest, br := some ⟨2, some a, ie⟩ }.setSr 0x1F3F (x.shadow - b2n ie * 2 ^ 12)))

/-- A repeat of the next instruction: a count of 0 skips it (R323). -/
def Core.startRpt (x : Core) (n : Nat) : Core :=
  if n = 0 then { x with pc := (x.pc + 1) % 2048, after := true } else { x with rpt := some n }

/-- RPT #n: the word holds n − 1. -/
def execTRpt (c : Fin 32) (n1 : Fin 1024) (s : State) : Res :=
  .next (s.issue c .other fun x => .next (x.startRpt (n1 + 1)))

/-- RPTD dA. -/
def execTRptd (c : Fin 32) (a : Fin 16) (s : State) : Res :=
  .next (s.issue c .other fun x => if 1024 < x.dReg a then .fault 5 else .next (x.startRpt (x.dReg a)))

/-- A loop up to address `t`, `n` times: a count of 0 skips the body (R324, R325). -/
def Core.startLoop (x : Core) (n t : Nat) : Issue :=
  if t ≤ x.pc then .fault 2
  else if 4 ≤ x.loops.length then .fault 4
  else if n = 0 then .next { x with pc := t }
  else .next ({ x with loops := (x.pc + 1, t, x.lc) :: x.loops }.setCr 32 n)

/-- LOOP #n, t. -/
def execTLoop (c : Fin 32) (n : Fin 32768) (t : Fin 2048) (s : State) : Res :=
  .next (s.issue c .other fun x => x.startLoop n t)

/-- LOOPD dA, t. -/
def execTLoopd (c : Fin 32) (a : Fin 16) (t : Fin 2048) (s : State) : Res :=
  .next (s.issue c .other fun x => x.startLoop (x.dReg a) t)

/-- HALT: the run ends DONE (R317). -/
def execTHalt (c : Fin 32) (s : State) : Res := .next (s.issue c .other fun x => .halt x)

/-- IDLE (R327). -/
def execTIdle (c : Fin 32) (s : State) : Res := .next (s.issue c .other fun x => .sleep x)

/-! ### Records and the mailbox (opcodes 0x3A to 0x3E) -/

/-- GETR pP (R330). -/
def execTGetr (c : Fin 32) (p : Fin 8) (s : State) : Res :=
  .next (s.issue c .other fun x =>
    match x.takeRec (s.rd (rTC_SIN c)) p with
    | some y => .next y
    | none => .wait x (.getr p))

/-- RELR (R311). -/
def execTRelr (c : Fin 32) (s : State) : Res :=
  .next (s.issue c .relr fun x =>
    match x.ring with
    | r :: rest => .next (if r.ret then { x with ring := rest } else x)
    | [] => .next x)

/-- SEND pP, #r (R312, R330). -/
def execTSend (c : Fin 32) (p : Fin 8) (r : Fin 4) (s : State) : Res :=
  .next (s.issue c .other fun x =>
    if (s.clOut (tcCluster c) r).isNone then .fault 7
    else
      let at_ := fun (i : Nat) => x.dmWord (stepPtr (x.p p) (x.b p) (x.l p) i)
      let len := 32 + at_ 12 + at_ 13 * 2 ^ 16
      if len % 64 ≠ 0 ∨ 16384 < len then .fault 6
      else
        let q : TSend := ⟨x.p p, x.b p, x.l p, r, len⟩
        if x.sendQ.length < 4 then .next (x.queue q) else .wait x (.send q))

/-- SWAIT. -/
def execTSwait (c : Fin 32) (s : State) : Res :=
  .next (s.issue c .other fun x => if x.sendQ.isEmpty then .next x else .wait x .swait)

/-- MBR dD, #w (R315). -/
def execTMbr (c : Fin 32) (d w : Fin 16) (s : State) : Res :=
  .next (s.issue c .other fun x =>
    .next (x.loadD d (fget (s.rd (rTC_MBIN c ((w : Nat) / 4))) ⟨16 * ((w : Nat) % 4), 16⟩)))

/-- MBW #w, dD (R315). -/
def execTMbw (c : Fin 32) (w d : Fin 16) (s : State) : Res :=
  .next (s.issue c .other fun x =>
    .nextWith x (s.setFld (rTC_MBOUT c ((w : Nat) / 4)) ⟨16 * ((w : Nat) % 4), 16⟩ (x.dReg d)))

/-- MBACK frees the inbound channel (R315). -/
def execTMback (c : Fin 32) (s : State) : Res :=
  .next (s.issue c .other fun x => .nextWith x (s.setFld (rTC_MBIN_CTRL c) fTC_MBIN_CTRL_FULL 0))

/-- MBPOST posts the outbound words, or stalls while FULL is 1 (R315). -/
def execTMbpost (c : Fin 32) (s : State) : Res :=
  .next (s.issue c .other fun x =>
    if s.flag (rTC_MBOUT_CTRL c) fTC_MBOUT_CTRL_FULL then .wait x .mbpost else .nextWith x (s.mbPost c))

end Sys2Proof.Machine
end

