-- ==== Sys2Proof/Machine/Rst.lean ====
section
/-! DEFINITION. Datapath restarts: their causes and the steps of Table 24-7 up to the activation of the plan (R25, R534 to
R538). -/

namespace Sys2Proof.Machine

/-- Causes of Table 24-6. -/
abbrev dpSoftware : Nat := 1
abbrev dpStoker : Nat := 2
abbrev dpWatchdog : Nat := 3
abbrev dpMem : Nat := 4
abbrev dpCxl : Nat := 5
abbrev dpInjected : Nat := 6

/-- A restart begins: ingress stops, and what a restart aborts at its beginning ends (R142, R165, R171, R194, R217, R273). -/
def State.dpBegin (s : State) (cause : Nat) (auto : Bool) (failed : List Nat) (patch : Bool) : State :=
  let recent := s.rst.autos.filter fun t => s.time < t + s.secTicks 60
  let autos := if auto then recent ++ [s.time] else recent
  let s1 := (s.setFlds rGLB_STATUS [(fGLB_STATUS_STATE, 4), (fGLB_STATUS_HALT_CAUSE, 0)]).setFld rEVT_RESTART
    fEVT_RESTART_LAST_CAUSE cause
  let s2 := ((s1.addSat rEVT_RESTART fEVT_RESTART_COUNT 1).onRst fun _ => ⟨cause, s.time, 0, autos, failed, auto && 4 ≤ autos.length, patch, false⟩)
  let s3 := (s2.planRestart).calAbortIf 10
  let s4 := (upTo 20).foldl (fun t u => t.ddcCancel u 3) s3
  ((upTo 4).foldl (fun t n => t.xfmCancel n 3) s4).trgRestart

/-- STATE becomes HALTED with a cause. -/
def State.haltWith (s : State) (cause : Nat) : State :=
  s.setFlds rGLB_STATUS [(fGLB_STATUS_STATE, 5), (fGLB_STATUS_HALT_CAUSE, cause)]

/-- An automatic cause arises (R534): it begins a restart, or halts the device while AUTO_RESTART is 0; a restart that runs absorbs
it and adds a failed channel; in any other state nothing begins. -/
def State.dpAuto (s : State) (cause : Nat) (failed : List Nat) (patch : Bool) : State :=
  if s.glb = 4 then (s.onRst fun z => { z with failed := s.rst.failed ++ failed })
  else if !s.ready then s
  else if s.flag rEVT_CTRL fEVT_CTRL_AUTO_RESTART then s.dpBegin cause true failed patch
  else ((s.haltWith 5).onRst fun _ => { s.rst with patch := patch })

/-- May a write of DP_RESTART begin a restart now (R25)? -/
def State.dpAllowed (s : State) : Bool :=
  s.ready || (s.glb == 5 && (s.fld rGLB_STATUS fGLB_STATUS_HALT_CAUSE == 4 || s.fld rGLB_STATUS fGLB_STATUS_HALT_CAUSE == 5))

/-- A write to GLB_CTRL. A restart that software begins out of a halt serves what led to the halt: channels that have failed are
trained again, and faulty patch RAM is left out. -/
def State.wrGlbCtrl (v : Word) (s : State) : State :=
  if fget v fGLB_CTRL_DP_RESTART = 1 && s.dpAllowed then
    if s.ready then s.dpBegin dpSoftware false [] false
    else s.dpBegin dpSoftware false ((upTo 32).filter fun ch => s.flag (rMEM_CH_STATUS ch) fMEM_CH_STATUS_FAILED) s.rst.patch
  else s

/-- A CXL Reset begins a restart while STATE is READY, or a running one absorbs it; it leaves no halt (R534). -/
def State.dpOrder (s : State) (cause : Nat) : State := if s.ready then s.dpBegin cause false [] false else s

/-- A CXL Reset completes. -/
def State.cxlResetDone (s : State) : State := (s.addSat rGLB_HIF_RESET fGLB_HIF_RESET_CXL_RESETS 1).raise 1001

/-- Time of the running restart, in ms since t0, has come. -/
def State.dpAt (s : State) (ms : Nat) : State := s.reach (s.rst.t0 + s.usTicks (1000 * ms))

/-- The restart ends HALTED with RESTART_FAIL (R538). -/
def State.dpFail (s : State) : State :=
  ((s.haltWith 4).setFld rEVT_RESTART fEVT_RESTART_LAST_MS (satN 32 (s.ticksMs (s.time - s.rst.t0)))).raise 4

/-- t0 + 1 ms: what units hold in part is let go (records in acquisition units close at their last sample, R289), and every OPEN
context takes its FAULT record. From here on its records belong to a new epoch (R531, R532). -/
def State.dpFaults (s : State) : State :=
  if s.glb != 4 || s.rst.phase != 0 then s
  else
    let s0 := s.dpAt 1
    let s1 := ((upTo 8).foldl State.auAnchor s0).drainPorts
    let s2 := ((upTo 96).filter fun sq => sq < 48 || 56 ≤ sq).foldl State.unitDiscard s1
    let xs := (s2.ctxs.filter fun e => e.2.st == .opened).map (·.1)
    let s3 := xs.foldl (fun t x =>
      (((t.streamDrop x).stampsDrop x).fault x 4 2 s.rst.cause 0 none).updCtx x fun c =>
        { c with epochPend := true, recovering := true, flags := c.flags ||| flRestart ||| flGap }) s2
    (s3.onRst fun z => { z with phase := 1 }).faultsEvent xs ⟨2, none, 0, 0, 0, false⟩

/-- t0 + 2 ms: the Stoker is reloaded, without its patch when patch RAM was the cause (R537), and Turf runs, codec jobs and DMA
descriptors end ABORTED. -/
def State.dpReset (s : State) : State :=
  if s.glb != 4 || s.rst.phase != 1 then s
  else
    let s1 := (s.dpAt 2).setFld rSTK_STATUS fSTK_STATUS_STATE 2
    let s2 := if s.rst.patch then (s1.setFld rSEC_STATUS fSEC_STATUS_PSLOT 0).raise 979 else s1
    let s3 := (s2.tcStop 10 (upTo 32))
    let s4 := ((upTo 8).foldl (fun t u => t.jobAbort u 4) s3).dmaHaltAll
    s4.onRst fun z => { z with phase := 2 }

/-- A channel has been trained again: its store reads as poisoned until it is rewritten (R537), and its bad lines are found no more. -/
def State.chTrained (s : State) (ch : Nat) : State :=
  ((s.setFld (rMEM_CH_STATUS ch) fMEM_CH_STATUS_FAILED 0).onMem fun m =>
    { m with fails := SMap.set 0 m.fails ch 0, lost := (m.lost.filter (· != ch)) ++ [ch] }).onBadLines fun ls =>
      ls.filterMap fun l =>
        if (s.place379 (64 * l.1)).ch = ch then (if l.2 / 4 % 4 = 0 then none else some (l.1, l.2 / 4 % 4 * 4)) else some l

/-- The failed channels have been trained again; a failure ends the restart HALTED (R534, R538). The store of a channel trained again reads
as poisoned until it is rewritten (R537). -/
def State.dpTrained (s : State) (ok : Bool) : State :=
  if s.glb != 4 || s.rst.phase != 2 || s.rst.failed.isEmpty then s
  else if !ok then s.dpFail
  else
    let chs := s.rst.failed.eraseDups
    let s1 := chs.foldl (fun t ch => t.chTrained ch) s
    s1.onRst fun z => { z with failed := [] }

/-- READY is not reached within 250 ms (R538). -/
def State.dpTimeout (s : State) : State := if s.glb != 4 then s else (s.dpAt 250).dpFail

/-- A channel's retraining, with the restart that its third failure in succession causes (R389, R390). -/
def State.retrainCh (s : State) (ch : Nat) (ok : Bool) : State :=
  let s1 := s.retrain ch ok
  if s1.flag (rMEM_CH_STATUS ch) fMEM_CH_STATUS_FAILED && !s.flag (rMEM_CH_STATUS ch) fMEM_CH_STATUS_FAILED then
    s1.dpAuto dpMem [ch] false
  else s1

/-- The Stoker reaches no safe point for WD_US (R535). -/
def State.watchdog (s : State) : State := (s.raise 982).dpAuto dpWatchdog [] false

end Sys2Proof.Machine
end

