-- ==== Sys2Proof/Machine/Evt.lean ====
section
/-! DEFINITION. The event controller's registers and error injection (R522 to R529, R540). -/

namespace Sys2Proof.Machine

/-- A write to EVT_RING_IDX: the next RELEASE records are given back (R526, R527). -/
def State.wrRingIdx (v : Word) (s : State) : State :=
  let n := fget v fEVT_RING_IDX_RELEASE
  if n = 0 || s.evt.written < s.evt.released + n then s
  else
    let s1 := s.onEvt fun z => { z with released := s.evt.released + n }
    (s1.setFld rEVT_RING_IDX fEVT_RING_IDX_RELEASED s1.evt.released).lostRecord

/-- A write to EVT_CTRL (R528). -/
def State.wrEvtCtrl (v : Word) (s : State) : State :=
  (s.wrCodes rEVT_CTRL (keepRange (s.rd rEVT_CTRL) fEVT_CTRL_WD_US 10 65535 v) []).lostRecord

/-- A write to EVT_RING: LOG2 is written only while RING_EN is 0. -/
def State.wrEvtRing (v : Word) (s : State) : State :=
  let old := s.rd rEVT_RING
  let v1 := if s.flag rEVT_CTRL fEVT_CTRL_RING_EN then fset v fEVT_RING_LOG2 (fget old fEVT_RING_LOG2)
    else keepRange old fEVT_RING_LOG2 6 16 v
  s.wrCodes rEVT_RING v1 []

/-- A write to EVT_SWTEST: bit i raises source 1,008 + i (R522). -/
def State.wrSwtest (v : Word) (s : State) : State :=
  (upTo 16).foldl (fun t i => if v.getLsbD i then t.raise (1008 + i) else t) s

/-- An injection is refused (R540). -/
def State.injRefuse (s : State) : State := s.setFld rEVT_INJ fEVT_INJ_RESULT 2

/-- An injection has been performed; one that recovers a context raises its event with the FAULT record. -/
def State.injDone (s : State) : State := s.setFld rEVT_INJ fEVT_INJ_RESULT 1

/-- The injection of EVT_INJ.TYPE with EVT_INJ_ARG. -/
def State.inject (s : State) : State :=
  let arg := (s.rd rEVT_INJ_ARG).toNat
  let flip := fun (bit : Nat) =>
    if arg % 64 != 0 || storeBytes ≤ arg then s.injRefuse
    else
      let l := arg / 64
      (((s.onBadLines fun _ => SMap.upd 0 s.badLines l fun e => e ||| bit) : State).injDone).raise 6
  match s.fld rEVT_INJ fEVT_INJ_TYPE with
  | 1 => ((s.injDone).raiseWith (arg % 1024) none 0 0 true 0 0).raise 6
  | 2 =>
    let x := arg % 4096
    if (s.ctx x).st = .opened then s.injDone.recoverPath x 6 6 0 0 (some ⟨6, none, 0, 6, 0, false⟩) else s.injRefuse
  | 3 => flip 4
  | 4 => flip 8
  | 5 => if s.dpAllowed then ((s.injDone).raise 6).dpBegin dpInjected false [] false else s.injRefuse
  | _ => s.injRefuse

/-- A write to EVT_INJ: an injection that GO asks for comes before the lock of the same write (R5, R540). -/
def State.wrEvtInj (v : Word) (s : State) : State :=
  let locked := s.flag rEVT_INJ fEVT_INJ_LOCK
  let s1 := s.wrCodes rEVT_INJ v [fEVT_INJ_GO, fEVT_INJ_LOCK]
  let s2 := if fget v fEVT_INJ_GO = 0 then s1 else if locked then s1.injRefuse else s1.inject
  if fget v fEVT_INJ_LOCK = 1 then s2.setFld rEVT_INJ fEVT_INJ_LOCK 1 else s2

/-- EVT_PEND[k]: the STATUS bits of 64 sources. -/
def State.evtPend (s : State) (k : Nat) : Word :=
  BitVec.ofNat 64 ((upTo 64).foldl (fun w j => w + s.fld (rEVT_SRC (64 * k + j)) fEVT_SRC_STATUS * 2 ^ j) 0)

/-- A control word fetch of the Stoker finds an ECC error: a single bit is corrected, anything else stops the Stoker; `patch` says
that the word lies in patch RAM (R500, R537). -/
def State.csError (s : State) (bad patch : Bool) : State :=
  if bad then ((s.setFld rSTK_STATUS fSTK_STATUS_STATE 3).raise 981).dpAuto dpStoker [] patch
  else (s.addSat rSTK_STATUS fSTK_STATUS_CS_CE 1).raiseLim 1000000 980

end Sys2Proof.Machine
end

