-- ==== Sys2Proof/Machine/Ave.lean ====
section
/-! DEFINITION. The Avenue transport (R466 to R484). -/

namespace Sys2Proof.Machine

/-! ### Avenues and their contexts -/

/-- The context of avenue `a`. -/
def State.aveCtx (s : State) (a : Nat) : Nat := s.fld (rAVE_CFG a) fAVE_CFG_CONTEXT

/-- The inbox from which inbound avenue `a` gives records to its context. -/
def aveBox (a : Nat) : Nat := 256 + a

/-- The avenues that are not CLOSED; a STATE other than 0 is listed among the registers. -/
def State.avesUp (s : State) : List Nat :=
  s.regs.filterMap fun e =>
    if rAVE_STATUS 0 ≤ e.1 && e.1 < 0xA80000 && (e.1 - rAVE_STATUS 0) % 0x80 == 0 && fget e.2 fAVE_STATUS_STATE != 0 then
      some ((e.1 - rAVE_STATUS 0) / 0x80)
    else none

/-- MAX of sub-port `i` in an address family (R467). -/
def State.aveMax (s : State) (i : Nat) (v6 : Bool) : Nat :=
  (s.fld (rNET_SUB_CFG i) fNET_SUB_CFG_MAX_FRAME - (14 + (if v6 then 40 else 20) + 8 + 32 + 4)) / 64 * 64

/-! ### Granting credit and acknowledging (R470, R471) -/

/-- The bytes that the token bucket and the reservation of the context of inbound avenue `a` allow, beside what has arrived and is
not in the cord yet. -/
def State.aveAccept (s : State) (a : Nat) : Nat :=
  let c := s.ctx (s.aveCtx a)
  let room := (c.reserve - c.held) * billetBytes + ((c.tail.map fun t => billetBytes - t.2).getD 0)
  let lim := if c.rate = 0 then room else min room (s.tokensNow c / 65536)
  lim - (s.aveU a).part.length - ((s.port (aveBox a)).inbox.foldl (fun n r => n + r.size) 0)

/-- The LIMIT that inbound avenue `a` grants now; one granted before stays. -/
def State.aveLimit (s : State) (a : Nat) : Nat :=
  let v := s.aveU a
  max v.limit (v.next + min (s.avePar a fAVE_PARAM_WINDOW * 64) (s.aveAccept a))

/-- The received ranges above the next offset, lowest first, joined where they meet. -/
def joinRanges : List (Nat × Nat) → List (Nat × Nat)
  | [] => []
  | (a, b) :: t =>
    match joinRanges t with
    | [] => [(a, b)]
    | (c, d) :: r => if c ≤ b then (a, max b d) :: r else (a, b) :: (c, d) :: r

/-- Inbound avenue `a` sends an ACK. -/
def State.aveAck (s : State) (a : Nat) : State :=
  let v := s.aveU a
  let lim := s.aveLimit a
  let sack := (joinRanges (v.ahead.map fun e => (e.1, e.1 + e.2.length))).take 8
  let body := sack.flatMap fun e => leBytes 8 e.1 ++ leBytes 8 e.2
  (s.updAve a fun v => { v with limit := lim, acked := v.next, ackAt := none, idle := s.time }).aveSend a 4 0 v.next
    sack.length lim body

/-! ### OPEN and its end (R468, R475) -/

/-- The body of OPEN and OPEN_ACK: the nonce, whether this side sends data, and the initial LIMIT, 0 on the side that sends. -/
def State.aveOpenPkt (s : State) (a typ : Nat) : State :=
  let lim := if s.aveIn a then s.aveLimit a else 0
  let s1 := if s.aveIn a then s.updAve a fun v => { v with limit := lim } else s
  s1.aveSend a typ 0 0 0 s.time
    (leBytes 8 ((s.aveU a).own % 2 ^ 32 + b2n (!s.aveIn a) * 2 ^ 32) ++ leBytes 8 lim ++ leBytes 16 0)

/-- The items of the records that destination `d` of a context holds from stream position `p` on. -/
def Ctx.itemsFrom (c : Ctx) (d p : Nat) : Nat :=
  c.recs.foldl (fun n r => if p < r.pos + r.len && r.pos < c.destEnd d && !r.skips d then n + r.items else n) 0

/-- The destination of outbound avenue `a` takes its position at a transition to OPEN: the first record not finished. One whose
first bytes are gone with an acknowledged billet cannot be sent again and counts as lost. -/
def State.aveRewind (s : State) (a : Nat) : State :=
  let x := s.aveCtx a
  match (s.ctx x).findDest 3 a with
  | none => s
  | some d =>
    let c := s.ctx x
    let p := (c.dest d).fin
    let s1 := match c.recs.find? fun r => r.pos < p && p < r.pos + r.len with
      | some r => (s.updCtx x fun c => ({ c with lost := satN 64 (c.lost + r.items) }.updDest d
          fun t => { t with gap := t.gap ++ [r.pos] })).finishTo x d (r.pos + r.len)
      | none => s
    s1.updCtx x fun c => c.updDest d fun t => { t with begun := t.fin }

/-- Avenue `a` enters OPEN with the partner's nonce and its LIMIT. -/
def State.aveOpened (s : State) (a peer limit : Nat) : State :=
  let s1 := (if s.aveIn a then s else s.aveRewind a).updAve a fun v =>
    { v with
      peer := peer, heard := s.time, recs := [], ranges := [], next := 0, acked := 0, limit := if s.aveIn a then v.limit else limit,
      ahead := [], part := [], ackAt := none, idle := s.time }
  (s1.setAveState a 3).raise 928 (some a)

/-- What an inbound avenue drops when it leaves OPEN: packets held ahead, and a partial record, which is lost and declared by GAP
(R474). -/
def State.aveLeave (s : State) (a : Nat) : State :=
  let v := s.aveU a
  let s1 := s.updAve a fun v => { v with ahead := [], part := [], ackAt := none }
  if s.aveIn a && !v.part.isEmpty && (s.ctx (s.aveCtx a)).st == .opened then s1.loseItems (s.aveCtx a) 1 else s1

/-- Avenue `a` becomes CLOSED from OPEN or CLOSING. -/
def State.aveClosed (s : State) (a : Nat) : State := ((s.aveLeave a).setAveState a 0).raise 929 (some a)

/-- The end of a destination's holds on every record up to the cord's tail: the items lost at it. -/
def State.aveDrop (s : State) (a : Nat) : Nat × State :=
  let x := s.aveCtx a
  match (s.ctx x).findDest 3 a with
  | none => (0, s)
  | some d =>
    let c := s.ctx x
    let n := c.itemsFrom d (c.dest d).fin
    (n, (s.updCtx x fun c => { c with lost := satN 64 (c.lost + n) }).finishTo x d (c.destEnd d))

/-- Avenue `a` enters FAILED (R471, R474, R475). -/
def State.aveFail (s : State) (a reason : Nat) : State :=
  let s1 := (s.aveLeave a).setFlds (rAVE_STATUS a) [(fAVE_STATUS_STATE, 5), (fAVE_STATUS_REASON, reason)]
  let x := s.aveCtx a
  if s.aveIn a || ((s.ctx x).findDest 3 a).isNone || (s.ctx x).st == .closed then s1.raise 930 (some a)
  else
    let (n, s2) := s1.aveDrop a
    if (s2.ctx x).st == .closed then s2.raise 930 (some a)
    else s2.fault x 2 930 (a + reason * 2 ^ 16) n (some ⟨930, some a, 0, 2, 0, false⟩)

/-- Is avenue `a` bound (R468)? -/
def State.aveBound (s : State) (a : Nat) : Bool :=
  let x := s.aveCtx a
  let c := s.ctx x
  if s.aveIn a then
    c.st == .opened && c.runtime && !((upTo 128).any fun k =>
        s.flag (rDMA_CFG k) fDMA_CFG_GIVE_VALID && s.fld (rDMA_CFG k) fDMA_CFG_GIVE_CTX == x)
      && !(s.avesUp.any fun b => b != a && s.aveIn b && s.aveCtx b == x)
  else c.st == .opened && (c.findDest 3 a).isSome

/-- Are the addresses that OPEN needs there (R468)? -/
def State.aveAddressed (s : State) (a : Nat) : Bool :=
  s.aveIp a != 0 && s.fld (rAVE_MAC a) fAVE_MAC_MAC != 0 && s.ownIp (s.aveSub a) (s.aveV6 a) != 0

/-- Does the MODE of its port create sub-port `i` (Table 21-1)? -/
def State.subExists (s : State) (i : Nat) : Bool := laneHalves (s.fld (rNET_PORT_CFG (i / 4)) fNET_PORT_CFG_MODE) (i % 4) != 0

/-- Refusal of a command. -/
def State.aveRefuse (s : State) (a reason : Nat) : State := s.setFld (rAVE_STATUS a) fAVE_STATUS_REASON reason

/-- OPEN is sent once more. -/
def State.aveSendOpen (s : State) (a : Nat) : State :=
  (s.updAve a fun v => { v with at_ := s.time, tries := v.tries + if s.linkUp (s.aveSub a) then 1 else 0 }).aveOpenPkt a 1

/-- AVE_CMD OPEN. -/
def State.aveCmdOpen (s : State) (a : Nat) : State :=
  if s.aveState a != 0 then s.aveRefuse a 17
  else if !s.aveBound a then s.aveRefuse a 16
  else if !s.aveAddressed a then s.aveRefuse a 18
  else if !s.subExists (s.aveSub a) then s.aveRefuse a 19
  else
    let (k, s1) := s.fresh
    let s2 := (s1.updAve a fun _ => { ave0 with own := Config.nonce k % 2 ^ 32, heard := s.time }).aveRefuse a 0
    if s.flag (rAVE_CFG a) fAVE_CFG_ROLE then s2.setAveState a 2 else (s2.setAveState a 1).aveSendOpen a

/-- The final offset of avenue `a`. CLOSE is sent once more. -/
def State.aveSendClose (s : State) (a : Nat) : State :=
  (s.updAve a fun v => { v with at_ := s.time, tries := v.tries + 1 }).aveSend a 6 0 (s.aveU a).next 0 0 []

/-- AVE_CMD CLOSE: the state machine takes it in OPEN; in another state it is refused. -/
def State.aveCmdClose (s : State) (a : Nat) : State :=
  if s.aveState a = 3 then
    (((s.aveLeave a).setAveState a 4).updAve a fun v => { v with tries := 0 }).aveSendClose a
  else s.aveRefuse a 17

/-- AVE_CMD RESET: the state machine takes it in FAILED; in another state it is refused. -/
def State.aveCmdReset (s : State) (a : Nat) : State :=
  if s.aveState a = 5 then s.setFlds (rAVE_STATUS a) [(fAVE_STATUS_STATE, 0), (fAVE_STATUS_REASON, 0)] else s.aveRefuse a 17

/-- AVE_CMD SKIP (R475): the loss is declared by GAP in the next record delivered. -/
def State.aveCmdSkip (s : State) (a : Nat) : State :=
  if s.aveState a = 3 then s.aveRefuse a 17
  else
    let x := s.aveCtx a
    let (n, s1) := s.aveDrop a
    if n = 0 then s1
    else match (s1.ctx x).findDest 3 a with
      | none => s1
      | some d => s1.updCtx x fun c => c.updDest d fun t => { t with gap := t.gap ++ [((s.ctx x).dest d).fin] }

/-- A write to AVE_CMD. -/
def State.wrAveCmd (a : Nat) (v : Word) (s : State) : State :=
  match fget v fAVE_CMD_CMD with
  | 1 => s.aveCmdOpen a
  | 2 => s.aveCmdClose a
  | 3 => s.aveCmdReset a
  | 4 => s.aveCmdSkip a
  | _ => s

/-! ### Sending DATA (R469, R472) -/

/-- The end of the bytes of context `x` that no writer holds. -/
def State.availEnd (s : State) (x : Nat) : Nat :=
  let c := s.ctx x
  c.exts.foldl (fun n e => if (s.billet e.billet).writer then min n e.pos else n) c.wpos

/-- Where avenue `a` goes on in the cord: the stream position, the bytes left of the record there, and the record when it
is not begun. -/
def State.aveNext (s : State) (a x d : Nat) : Option (Nat × Nat × Option CordRec) :=
  let v := s.aveU a
  let fresh := ((s.ctx x).nextRec d).map fun r => (r.pos, r.len, some r)
  match v.recs.getLast? with
  | some r => if v.next < r.ofs + r.len then some (r.pos + (v.next - r.ofs), r.ofs + r.len - v.next, none) else fresh
  | none => fresh

/-- The bytes that outbound avenue `a` may send now of the record where it goes on, at most `room`. -/
def State.aveNow (s : State) (a x d room : Nat) : Nat :=
  match s.aveNext a x d with
  | none => 0
  | some (p, left, _) => min (min room (((s.aveU a).limit - (s.aveU a).next) / 64 * 64)) (min left (s.availEnd x - p))

/-- DELIVER_BY of record `r` (R472). -/
def Ctx.deliverBy (c : Ctx) (r : CordRec) : Nat := if c.cls < 2 then r.wtime + c.latency - c.plat else 0

/-- Record `r` is begun on avenue `a`: its copy takes LATE, DATA_ERROR and GAP. -/
def State.aveBegin (s : State) (a x d : Nat) (r : CordRec) : State :=
  let c := s.ctx x
  let fl := (if r.missed.getD d false then flLate else 0) ||| (if s.streamBad x r.pos r.len then flDataError else 0)
    ||| (if (c.dest d).gap.any (· < r.pos) then flGap else 0)
  (s.updAve a fun v => { v with recs := v.recs ++ [⟨v.next, r.pos, r.len, fl, c.deliverBy r⟩] }).beginRec x d r

/-- The bytes of the avenue's stream from `lo` to `hi`, out of the records it has begun. -/
def State.aveBytes (s : State) (a x lo hi : Nat) : List Byte :=
  (s.aveU a).recs.flatMap fun r =>
    let b := max r.ofs lo
    let e := min (r.ofs + r.len) hi
    if e ≤ b then []
    else
      let bs := s.readStream x (r.pos + (b - r.ofs)) (e - b)
      if b = r.ofs then orFlags bs r.fl else bs

/-- DELIVER_BY of a packet that carries the stream from `lo` on. -/
def Ave.byOf (v : Ave) (lo : Nat) : Nat := ((v.recs.find? fun r => lo < r.ofs + r.len).map (·.by_)).getD 0

/-- Avenue `a` advances its next offset over at most `room` bytes, beginning records as it goes. -/
def State.aveGather : Nat → State → Nat → Nat → Nat → Nat → State
  | 0, s, _, _, _, _ => s
  | n + 1, s, a, x, d, room =>
    let k := s.aveNow a x d room
    if k = 0 then s
    else match s.aveNext a x d with
      | none => s
      | some (p, _, r) =>
        let s1 := match r with
          | some r => s.aveBegin a x d r
          | none => s
        State.aveGather n ((s1.updAve a fun v => { v with next := v.next + k }).deliveredTo x d (p + k)) a x d (room - k)

/-- Outbound avenue `a` sends one DATA packet. -/
def State.aveData (s : State) (a : Nat) : State :=
  let x := s.aveCtx a
  match (s.ctx x).findDest 3 a with
  | none => s
  | some d =>
    let lo := (s.aveU a).next
    let m := s.aveMax (s.aveSub a) (s.aveV6 a)
    let s1 := State.aveGather (m / 64 + 1) s a x d m
    let hi := (s1.aveU a).next
    if hi = lo then s
    else
      ((s1.updAve a fun v => { v with ranges := v.ranges ++ [⟨lo, hi, s.time, 1, 0, false, false⟩] }).addMod (rAVE_CNT0 a)
        fAVE_CNT0_PACKETS 1).aveSend a 3 0 lo 0 ((s1.aveU a).byOf lo) (s1.aveBytes a x lo hi)

/-- The range of avenue `a` that waits to be sent again, the one sent longest ago first. -/
def State.aveAgain (s : State) (a : Nat) : Option AveRange :=
  match (s.aveU a).ranges.filter fun r => r.again && !r.sacked with
  | [] => none
  | r :: rs => some (rs.foldl (fun (b : AveRange) e => if e.at_ < b.at_ then e else b) r)

/-- The rank of what avenue `a` sends again: within its class, after every first transmission, without a deadline (R369). -/
def State.aveRankAgain (s : State) (a : Nat) : Option (Nat × Nat × Nat) :=
  if s.aveIn a || s.aveState a != 3 then none else (s.aveAgain a).map fun _ => (2 * (s.ctx (s.aveCtx a)).cls + 1, 0, s.aveCtx a)

/-- The rank of the data that avenue `a` sends first at its sub-port `i`: twice the context's class, the deadline of the record it goes on
with, and the context (R369). -/
def State.aveRank (s : State) (i a : Nat) : Option (Nat × Nat × Nat) :=
  let x := s.aveCtx a
  let c := s.ctx x
  match c.findDest 3 a with
  | none => none
  | some d =>
    if s.aveIn a || s.aveState a != 3 || s.aveNow a x d 64 = 0 then none
    else
      let p := ((s.aveNext a x d).map (·.1)).getD 0
      let due := ((c.recs.find? fun r => r.pos ≤ p && p < r.pos + r.len).bind fun r => r.due.getD d none).getD 0
      some (if c.cls < 2 then (2 * c.cls, due, x) else (2 * c.cls, s.turnOf 3 i c.cls x, x))

/-- What waits on the avenues of sub-port `i`, with its rank. -/
def State.aveWaits (s : State) (i : Nat) : List (Nat × (Nat × Nat × Nat)) :=
  (s.avesUp.filter fun a => s.aveSub a == i).flatMap fun a =>
    ((s.aveRank i a).toList ++ (s.aveRankAgain a).toList).map fun r => (a, r)

/-- The avenue of sub-port `i` that is served first, with its rank, odd for what is sent again. -/
def State.aveFirst (s : State) (i : Nat) : Option (Nat × (Nat × Nat × Nat)) :=
  (s.aveWaits i).foldl (fun (b : Option (Nat × (Nat × Nat × Nat))) e =>
    match b with
    | none => some e
    | some f => if serveBefore e.2 f.2 then some e else some f) none

/-- May sub-port `i` send from its exception transmit ring: it has LINK and no pause, and a descriptor waits? -/
def State.exqWaits (s : State) (i : Nat) : Bool :=
  fget (s.rd (rNET_EXQ_TX i)) fNET_EXQ_TX_LOG2 != 0 && s.linkUp i && (s.netS i).pause.isNone && s.busOk
    && s.fld (rNET_EXQ_TX_IDX i) fNET_EXQ_TX_IDX_DONE_IDX != s.fld (rNET_EXQ_TX_IDX i) fNET_EXQ_TX_IDX_TAIL

/-- Has avenue `a` sent the record where it stands to its end? -/
def State.aveAtEnd (s : State) (a : Nat) : Bool :=
  match (s.aveU a).recs.getLast? with
  | some r => r.ofs + r.len ≤ (s.aveU a).next
  | none => true

/-- Range `g` of avenue `a` is sent again. -/
def State.aveDataAgain (s : State) (a : Nat) (g : AveRange) : State :=
  ((s.updAve a fun v => { v with ranges := v.ranges.map fun r =>
    if r.lo = g.lo then { r with at_ := s.time, tries := r.tries + 1, reports := 0, again := false } else r }).addSat (rAVE_CNT0 a)
      fAVE_CNT0_RETX 1).aveSend a 3 1 g.lo 0 ((s.aveU a).byOf g.lo) (s.aveBytes a (s.aveCtx a) g.lo g.hi)

/-- Sub-port `i` sends the next DATA packet of the avenue that is served first; what a BEST_EFFORT context sends again and what a
BACKGROUND context sends stay behind the exception transmit ring, which ranks as BEST_EFFORT (R369, R463). -/
def State.aveServe (s : State) (i : Nat) : State :=
  if !s.linkUp i || (s.netS i).pause.isSome then s
  else match s.aveFirst i with
    | none => s
    | some (a, r) =>
      if 5 ≤ r.1 && s.exqWaits i then s
      else if r.1 % 2 = 1 then
        match s.aveAgain a with
        | some g => s.aveDataAgain a g
        | none => s
      else (s.aveData a).hadTurn 3 i (r.1 / 2) (s.aveCtx a) ((s.aveData a).aveAtEnd a)

/-- What is to be sent again goes at once where nothing comes before it. -/
def State.aveServeAgain (s : State) (i : Nat) : State :=
  match s.aveFirst i with
  | some (_, r) => if r.1 % 2 = 1 then s.aveServe i else s
  | none => s

/-- Range `g` of avenue `a` is to be sent again, in its turn at the sub-port, or the avenue fails once it has been sent RETRY_MAX + 1
times (R369, R471). -/
def State.aveResend (s : State) (a : Nat) (g : AveRange) : State :=
  if s.avePar a fAVE_PARAM_RETRY_MAX + 1 ≤ g.tries then s.aveFail a 2
  else
    (s.updAve a fun v => { v with ranges := v.ranges.map fun r =>
      if r.lo = g.lo then { r with again := true } else r }).aveServeAgain (s.aveSub a)

/-! ### Violations (R476, R477) -/

/-- A NAK for the packet `p` of avenue `a`, unless one was sent within NAK_GAP_US. -/
def State.aveNak (s : State) (a reason ofs : Nat) (p : AvePkt) : State :=
  let gap := s.usTicks (s.fld rAVE_GLOBAL fAVE_GLOBAL_NAK_GAP_US)
  let off : Bool := match (s.aveU a).nak with
    | some t => s.time < t + gap
    | none => false
  if off then s
  else (s.updAve a fun v => { v with nak := some s.time }).aveSend a 5 0 ofs reason 0 (leBytes 8 p.w0.toNat ++ leBytes 24 0)

/-- An attributed violation is counted (R476). -/
def State.aveCount (s : State) (a code : Nat) : State :=
  ((s.addSat (rAVE_STATUS a) fAVE_STATUS_VIOL 1).setFld (rAVE_STATUS a) fAVE_STATUS_LAST_VIOL code).raiseLim 1000000 931 (some a) code 0 a

/-- An attributed violation that counts toward quarantine; more than VIOL_MAX within a second of device time quarantine the avenue. -/
def State.aveViol (s : State) (a code : Nat) : State :=
  let st := rAVE_STATUS a
  let s1 := s.aveCount a code
  let near := ((s1.aveU a).viols.filter fun t => s.time < t + s.usTicks 1000000) ++ [s.time]
  let s2 := s1.updAve a fun v => { v with viols := near }
  if s2.avePar a fAVE_PARAM_VIOL_MAX < near.length && s2.aveState a != 6 && s2.aveState a != 0 then
    let prev := s2.aveState a
    (((s2.updAve a fun v => { v with prev := prev, quar := s.time, viols := [] }).setAveState a 6).addSat st fAVE_STATUS_QUARANTINES 1).raise
      932 (some a)
  else s2

/-- A violation answered by a NAK; the packet is dropped. -/
def State.aveReject (s : State) (a code ofs : Nat) (p : AvePkt) : State := (s.aveNak a code ofs p).aveViol a code

/-- A packet that no avenue matches: counted at its sub-port, and answered by at most one NAK per ms (R476). Its NAK carries NONCE 0. -/
def State.aveUnmatched (s : State) (i : Nat) (p : AvePkt) : State :=
  let s1 := s.addSat (rAVE_UNATTR i) fAVE_UNATTR_NO_AVENUE 1
  let off : Bool := match (s.netS i).nak with
    | some t => s.time < t + s.usTicks 1000
    | none => false
  if off then s1
  else
    let body := leBytes 8 p.w0.toNat ++ leBytes 24 0
    let h := aveHeader 5 (s.fld rGLB_DEVID fGLB_DEVID_DEVID) (fget p.w0 ⟨44, 12⟩) (fget p.w0 ⟨32, 12⟩) 0 0 32 2 0 0
    (s1.updNet i fun n => { n with nak := some s.time }).udpSend i p.smac p.v6 p.sip p.sport (h ++ body)

/-! ### Receiving DATA (R470 to R474) -/

/-- The whole records at the front of a byte stream, the bytes that remain, and whether the record there breaks R474. -/
def wholeRecs (x : Nat) : Nat → List Byte → List Prod × List Byte × Bool
  | 0, bs => ([], bs, false)
  | n + 1, bs =>
    if bs.length < 32 then ([], bs, false)
    else
      let typ := leNat (bs.take 1)
      let w3 := leNat ((bs.drop 24).take 8)
      let size := 32 + w3 % 2 ^ 32
      if leNat ((bs.drop 1).take 1) != 1 || size % 64 != 0 || typ = tyPad then ([], [], true)
      else if bs.length < size then ([], bs, false)
      else
        let r : Prod := { prod0 with
          ctx := x
          typ := typ
          time := leNat ((bs.drop 16).take 8)
          fine := w3 / 2 ^ 32 % 2 ^ 9
          flags := w3 / 2 ^ 48
          items := 1
          devid := some (leNat ((bs.drop 2).take 2))
          canWait := true
          pre := (bs.drop 32).take (size - 32) }
        let (rest, left, bad) := wholeRecs x n (bs.drop size)
        (r :: rest, left, bad)

/-- The packets held ahead that now follow in order: the next offset and the bytes. -/
def drainAhead : Nat → Nat → List (Nat × List Byte) → Nat × List Byte × List (Nat × List Byte)
  | 0, nx, l => (nx, [], l)
  | _ + 1, nx, [] => (nx, [], [])
  | n + 1, nx, (o, bs) :: t =>
    if nx < o then (nx, [], (o, bs) :: t)
    else
      let add := bs.drop (nx - o)
      let (nx', more, left) := drainAhead n (nx + add.length) t
      (nx', add ++ more, left)

/-- Puts a packet among those held ahead, by offset. -/
def insAhead (o : Nat) (bs : List Byte) : List (Nat × List Byte) → List (Nat × List Byte)
  | [] => [(o, bs)]
  | (o', b') :: t => if o < o' then (o, bs) :: (o', b') :: t else (o', b') :: insAhead o bs t

/-- Inbound avenue `a` passes bytes on in order: whole records go to its context; a record that breaks R474 fails the avenue. -/
def State.aveDeliver (s : State) (a : Nat) (p : AvePkt) (bs : List Byte) : State :=
  let all := (s.aveU a).part ++ bs
  let (rs, left, bad) := wholeRecs (s.aveCtx a) (all.length / 32 + 1) all
  let s1 := (s.updAve a fun v => { v with part := left })
  let s2 := s1.onPorts fun _ => SMap.upd ⟨[]⟩ s1.ports (aveBox a) fun q => { q with inbox := q.inbox ++ rs }
  let s3 := rs.foldl (fun t _ => t.portTake (aveBox a) fun r => (t.ctx r.ctx).waiting.isNone) s2
  if bad then ((s3.aveNak a 9 (p.w1).toNat p).aveViol a 9).aveFail a 4 else s3

/-- The reorder pool of a port in use (R473). -/
def State.poolUsed (s : State) (port : Nat) : Nat :=
  s.avesUp.foldl (fun n a =>
    if s.aveIn a && s.aveSub a / 4 == port then n + (s.aveU a).ahead.foldl (fun k e => k + e.2.length) 0 else n) 0

/-- A DATA packet in OPEN on inbound avenue `a`. -/
def State.aveTakeData (s : State) (a : Nat) (p : AvePkt) : State :=
  let v := s.aveU a
  let o := p.w1.toNat
  let hi := o + p.body.length
  if v.limit < hi then s.aveReject a 5 o p
  else
    let s0 := (s.updAve a fun v => { v with heard := s.time })
    let s1 := if p.w3.toNat != 0 && p.w3.toNat < s.time then s0.addSat (rAVE_CNT1 a) fAVE_CNT1_LATE_RX 1 else s0
    let dup := hi ≤ v.next || (joinRanges (v.ahead.map fun e => (e.1, e.1 + e.2.length))).any fun e => e.1 ≤ o && hi ≤ e.2
    if dup then (s1.addSat (rAVE_CNT1 a) fAVE_CNT1_DUP 1).aveAck a
    else if v.next < o then
      if 8388608 < s1.poolUsed (s.aveSub a / 4) + p.body.length then
        (s1.addSat (rAVE_CNT1 a) fAVE_CNT1_POOL_DROP 1).raiseLim 1000 935 (some a) 0 0 (s.aveSub a / 4)
      else
        ((s1.updAve a fun v => { v with ahead := insAhead o p.body v.ahead }).addMod (rAVE_CNT0 a) fAVE_CNT0_PACKETS 1).aveAck a
    else
      let now := p.body.drop (v.next - o)
      let (nx, more, left) := drainAhead (v.ahead.length + 1) hi v.ahead
      let s2 := (s1.updAve a fun v =>
        { v with next := nx, ahead := left, idle := s.time, ackAt := some (v.ackAt.getD s.time) }).addMod (rAVE_CNT0 a) fAVE_CNT0_PACKETS 1
      let s3 := s2.aveDeliver a p (now ++ more)
      if !v.ahead.isEmpty && left.length < v.ahead.length && s3.aveState a = 3 then s3.aveAck a else s3

/-! ### Receiving ACK (R470, R471) -/

/-- The SACK blocks of an ACK. -/
def sackBlocks : Nat → List Byte → List (Nat × Nat)
  | 0, _ => []
  | n + 1, bs => if bs.length < 16 then [] else (leNat (bs.take 8), leNat ((bs.drop 8).take 8)) :: sackBlocks n (bs.drop 16)

/-- Are blocks in order, apart, and between `lo` and `hi`? -/
def sackOk (hi : Nat) : Nat → List (Nat × Nat) → Bool
  | _, [] => true
  | lo, (a, b) :: t => lo ≤ a && a < b && b ≤ hi && sackOk hi b t

/-- The cord position up to which holds end when the stream is acknowledged to `o`: the end of the last whole record, or of
an extent of the record in part acknowledged, with whose billet the hold ends (R341). -/
def Ctx.ackPos (c : Ctx) (v : Ave) (o fin : Nat) : Nat :=
  match v.recs.find? fun r => r.ofs < o && o ≤ r.ofs + r.len with
  | none => fin
  | some r =>
    let p := r.pos + (o - r.ofs)
    if o = r.ofs + r.len then p
    else c.exts.foldl (fun m e => if e.pos + e.bytes ≤ p then max m (e.pos + e.bytes) else m) (max fin r.pos)

/-- An ACK in OPEN on outbound avenue `a`. -/
def State.aveTakeAck (s : State) (a : Nat) (p : AvePkt) : State :=
  let v := s.aveU a
  let o := p.w1.toNat
  let n := fget p.w2 ⟨16, 16⟩
  let blocks := sackBlocks n p.body
  if v.next < o || 8 < n || !sackOk v.next o blocks then s.aveReject a 7 o p
  else
    let lim := p.w3.toNat
    let s0 := (s.updAve a fun v => { v with heard := s.time, limit := max v.limit lim, acked := max v.acked o })
    let s1 := if lim < v.limit then s0.aveViol a 8 else s0
    let cover := fun (r : AveRange) => blocks.any fun b => b.1 ≤ r.lo && r.hi ≤ b.2
    let below := fun (r : AveRange) => blocks.any fun b => r.hi ≤ b.1
    let s2 := s1.updAve a fun w =>
      { w with
        ranges := (w.ranges.filter fun r => o < r.hi).map fun r =>
          let r := { r with lo := max r.lo o }
          if cover r then { r with sacked := true }
          else if below r && !r.sacked then { r with reports := r.reports + 1 } else r
        recs := w.recs.filter fun r => o < r.ofs + r.len || w.next < r.ofs + r.len }
    let x := s.aveCtx a
    let s3 := match (s2.ctx x).findDest 3 a with
      | none => s2
      | some d => s2.finishTo x d ((s2.ctx x).ackPos v o ((s2.ctx x).dest d).fin)
    ((s3.aveU a).ranges.filter fun r => 3 ≤ r.reports && !r.sacked && !r.again).foldl (fun (t : State) r =>
      if t.aveState a = 3 then t.aveResend a r else t) s3

/-! ### Trigger messages (R478 to R481) -/

/-- Trigger slot `k`, and changed, with PENDING as it now reads. -/
def State.slotU (s : State) (k : Nat) : TrigSlot := SMap.get ⟨[], false⟩ s.slots k
def State.updSlot (s : State) (k : Nat) (f : TrigSlot → TrigSlot) : State :=
  let x := f (s.slotU k)
  (s.onSlots fun _ => SMap.set ⟨[], false⟩ s.slots k x).setFld (rAVE_TRIG k) fAVE_TRIG_PENDING x.times.length

/-- The event of slot `k` placed at `t` is released. -/
def State.slotRelease (s : State) (k t : Nat) : State :=
  (s.updSlot k fun x => { x with loss := false }).trgIssue ⟨t, 52 + k, 0, (s.slotU k).loss, false, 0⟩

/-- An accepted message of slot `k` placed at `t`. -/
def State.slotTake (s : State) (k t : Nat) : State :=
  if t < s.time * 65536 then
    ((s.addSat (rAVE_TRIG_STAT k) fAVE_TRIG_STAT_LATE 1).raise 933).slotRelease k t
  else if 16 ≤ (s.slotU k).times.length then
    ((s.addSat (rAVE_TRIG_STAT k) fAVE_TRIG_STAT_DROP 1).raise 934).updSlot k fun x => { x with loss := true }
  else s.updSlot k fun x => { x with times := x.times ++ [t] }

/-- Device time reaches the first message that waits in slot `k`. -/
def State.slotDue (s : State) (k : Nat) : State :=
  match (s.slotU k).times with
  | [] => s
  | t :: ts =>
    let m := ts.foldl min t
    ((s.reach (ceilDiv m 65536)).updSlot k fun x => { x with times := x.times.erase m }).slotRelease k m

/-- A TRIGGER packet in OPEN on avenue `a`. The TSEQ numbers accepted last are remembered. -/
def State.aveTakeTrigger (s : State) (a : Nat) (p : AvePkt) : State :=
  let k := fget p.w0 ⟨62, 2⟩
  let q := fget p.w1 ⟨0, 16⟩
  let w := s.rd (rAVE_TRIG k)
  if !s.flag (rAVE_CFG a) fAVE_CFG_TRIG_EN || fget w fAVE_TRIG_EN = 0 || s.time + fget w fAVE_TRIG_HORIZON < p.w3.toNat then
    s.aveReject a 10 0 p
  else
    let s1 := (s.updAve a fun v => { v with heard := s.time }).aveSend a 9 0 q 0 0 []
    if (s.aveU a).seen.contains q then s1
    else (s1.updAve a fun v => { v with seen := (q :: v.seen).take 65535 }).slotTake k
      (p.w3.toNat * 65536 + fget p.w2 ⟨16, 16⟩)

/-- A message that leaves the outstanding ones without acknowledgement. -/
def State.trigUnacked (s : State) (a : Nat) (m : AveTrig) : State :=
  (s.updAve a fun v => { v with trigs := v.trigs.filter fun e => e.seq != m.seq }).addSat (rAVE_TRIG_STAT (m.slot % 4))
    fAVE_TRIG_STAT_UNACKED 1

/-- RTO_US after the last sending of the oldest outstanding message of avenue `a` (R481). -/
def State.trigResend (s : State) (a : Nat) : State :=
  match (s.aveU a).trigs with
  | [] => s
  | m :: ms =>
    if s.aveState a != 3 || !s.linkUp (s.aveSub a) then s
    else
      let m := ms.foldl (fun b e => if e.at_ < b.at_ then e else b) m
      let s1 := s.reach (m.at_ + s.usTicks (s.avePar a fAVE_PARAM_RTO_US))
      if m.t ≤ s1.time * 65536 || s.avePar a fAVE_PARAM_RETRY_MAX < m.tries then s1.trigUnacked a m
      else
        (s1.updAve a fun v => { v with trigs := v.trigs.map fun e =>
          if e.seq = m.seq then { e with at_ := s1.time, tries := e.tries + 1 } else e }).aveTrigPkt a m true

/-! ### Packets (R462, R468, R476) -/

/-- Is a packet attributed to avenue `a` (R476)? -/
def State.aveMatches (s : State) (a : Nat) (p : AvePkt) : Bool :=
  let cfg := s.rd (rAVE_CFG a)
  s.aveState a != 0 && fget p.w0 ⟨16, 16⟩ == fget cfg fAVE_CFG_PARTNER_DEVID && fget p.w0 ⟨32, 12⟩ == fget cfg fAVE_CFG_PARTNER_AVE
    && p.v6 == s.aveV6 a && p.sip == s.aveIp a && p.sport == fget cfg fAVE_CFG_PARTNER_PORT

/-- The TYPE of a packet. -/
def pktType (p : AvePkt) : Nat := fget p.w0 ⟨12, 4⟩

/-- Is the header well formed: MAGIC, VERSION, TYPE and the reserved bits (Table 21-6, code 1)? -/
def pktHeaderOk (p : AvePkt) : Bool :=
  fget p.w0 ⟨0, 8⟩ == 0x41 && fget p.w0 ⟨8, 4⟩ == 1 && 1 ≤ (pktType p) && (pktType p) ≤ 9 && fget p.w0 ⟨57, 5⟩ == 0
    && (fget p.w0 ⟨62, 2⟩ == 0 || (pktType p) == 8)

/-- Is LEN as TYPE asks (Table 21-6, code 4)? -/
def pktLenOk (p : AvePkt) (mx : Nat) : Bool :=
  let len := fget p.w2 ⟨0, 16⟩
  len == p.body.length && match (pktType p) with
    | 1 => len == 32
    | 2 => len == 32
    | 3 => len % 64 == 0 && len != 0 && len ≤ mx
    | 4 => len == 16 * fget p.w2 ⟨16, 16⟩
    | 5 => len == 32
    | _ => len == 0

/-- The nonce and the direction bit that an OPEN or OPEN_ACK carries, and its LIMIT. -/
def pktNonce (p : AvePkt) : Nat := leNat (p.body.take 4)
def pktSends (p : AvePkt) : Bool := leNat ((p.body.drop 4).take 1) % 2 == 1
def pktLimit (p : AvePkt) : Nat := leNat ((p.body.drop 8).take 8)

/-- An attributed packet with the right nonce and length meets the state machine (Table 21-5). -/
def State.avePacket (s : State) (a : Nat) (p : AvePkt) : State :=
  let st := s.aveState a
  let ofs := p.w1.toNat
  let heard := fun (t : State) => t.updAve a fun v => { v with heard := s.time }
  match (pktType p) with
  | 1 =>
    if st = 2 && (pktSends p) == s.aveIn a then
      let s1 := (s.updAve a fun v => { v with peer := (pktNonce p) }).aveOpenPkt a 2
      s1.aveOpened a (pktNonce p) (pktLimit p)
    else if st = 3 && (pktNonce p) = (s.aveU a).peer then (heard s).aveOpenPkt a 2
    else s.aveReject a 6 0 p
  | 2 =>
    if st = 1 && (pktSends p) == s.aveIn a then s.aveOpened a (pktNonce p) (pktLimit p)
    else if st = 3 && (pktNonce p) = (s.aveU a).peer then heard s
    else s.aveReject a 6 0 p
  | 3 => if st = 3 && s.aveIn a then s.aveTakeData a p else s.aveReject a 6 ofs p
  | 4 => if st = 3 && !s.aveIn a then s.aveTakeAck a p else s.aveReject a 6 ofs p
  | 5 => heard s
  | 6 =>
    if st = 3 then ((heard s).aveSend a 7 0 (s.aveU a).next 0 0 []).aveClosed a else s.aveReject a 6 ofs p
  | 7 => if st = 4 then s.aveClosed a else s.aveReject a 6 ofs p
  | 8 => if st = 3 then s.aveTakeTrigger a p else s.aveReject a 6 0 p
  | 9 =>
    if st = 3 then (heard s).updAve a fun v => { v with trigs := v.trigs.filter fun e => e.seq != ofs % 65536 }
    else s.aveReject a 6 0 p
  | _ => s

/-- An Avenue packet is received on sub-port `i`. A packet that matches except for its NONCE counts as unattributed, in the one counter that
names it, AVE_UNATTR.BAD_NONCE (assumption 72). -/
def State.aveRx (s : State) (i : Nat) (p : AvePkt) : State :=
  let a := fget p.w0 ⟨44, 12⟩
  if !s.aveMatches a p then
    (if pktHeaderOk p then s.aveUnmatched i p else s.addSat (rAVE_UNATTR i) fAVE_UNATTR_BAD_HEADER 1)
  else if s.aveState a = 6 then s.addSat (rAVE_CNT1 a) fAVE_CNT1_QDROP 1
  else if !(pktHeaderOk p) then s.aveCount a 1
  else if (pktType p) != 1 && fget p.w2 ⟨32, 32⟩ != (s.aveU a).own then s.addSat (rAVE_UNATTR i) fAVE_UNATTR_BAD_NONCE 1
  else if !pktLenOk p (s.aveMax i p.v6) then s.aveReject a 4 0 p
  else s.avePacket a p

/-! ### Timers (R468, R471, R477) -/

/-- RTO_US has passed on avenue `a`: OPEN or CLOSE is sent again or given up, or the range that waits longest is sent again. -/
def State.aveRto (s : State) (a : Nat) : State :=
  let v := s.aveU a
  let rto := s.usTicks (s.avePar a fAVE_PARAM_RTO_US)
  let mx := s.avePar a fAVE_PARAM_RETRY_MAX
  if !s.linkUp (s.aveSub a) then s
  else match s.aveState a with
  | 1 =>
    let s1 := s.reach (v.at_ + rto)
    if mx ≤ v.tries then s1.aveFail a 1 else s1.aveSendOpen a
  | 4 =>
    let s1 := s.reach (v.at_ + rto)
    if mx ≤ v.tries then s1.aveClosed a else s1.aveSendClose a
  | 3 =>
    match v.ranges.filter fun r => !r.sacked && !r.again with
    | [] => s
    | r :: rs =>
      let g := rs.foldl (fun b e => if e.at_ < b.at_ then e else b) r
      (s.reach (g.at_ + rto)).aveResend a g
  | _ => s

/-- ACK_US after the first byte not acknowledged. -/
def State.aveAckTimer (s : State) (a : Nat) : State :=
  match (s.aveU a).ackAt with
  | some t =>
    if s.aveState a = 3 && s.aveIn a then (s.reach (t + s.usTicks (s.fld rAVE_GLOBAL fAVE_GLOBAL_ACK_US))).aveAck a else s
  | none => s

/-- DEAD_MS / 4 after the last ACK of an idle inbound avenue. -/
def State.aveIdleAck (s : State) (a : Nat) : State :=
  let v := s.aveU a
  if s.aveState a = 3 && s.aveIn a && v.ackAt.isNone then
    (s.reach (v.idle + s.usTicks (s.avePar a fAVE_PARAM_DEAD_MS * 250))).aveAck a
  else s

/-- DEAD_MS without a valid packet from the partner. -/
def State.aveDead (s : State) (a : Nat) : State :=
  if s.aveState a = 3 && s.linkUp (s.aveSub a) then
    (s.reach ((s.aveU a).heard + s.usTicks (s.avePar a fAVE_PARAM_DEAD_MS * 1000))).aveFail a 3
  else s

/-- The timers of an avenue begin again at device time `t`. -/
def Ave.restartAt (v : Ave) (t : Nat) : Ave :=
  { v with
    at_ := t, heard := t, idle := t, ackAt := v.ackAt.map fun _ => t
    ranges := v.ranges.map fun r => { r with at_ := t }
    trigs := v.trigs.map fun m => { m with at_ := t } }

/-- The timers of an avenue go on after `d` ticks in which they stood. -/
def Ave.shift (v : Ave) (d : Nat) : Ave :=
  { v with
    at_ := v.at_ + d, heard := v.heard + d
    ranges := v.ranges.map fun r => { r with at_ := r.at_ + d }
    trigs := v.trigs.map fun m => { m with at_ := m.at_ + d } }

/-- One second after the quarantine of avenue `a`. -/
def State.aveQuarEnd (s : State) (a : Nat) : State :=
  if s.aveState a = 6 then
    let s1 := s.reach ((s.aveU a).quar + s.usTicks 1000000)
    (s1.updAve a fun v => v.restartAt s1.time).setAveState a (s.aveU a).prev
  else s

/-! ### Register writes (R484) -/

/-- A write to AVE_SNAP[a]. -/
def State.wrAveSnap (a : Nat) (v : Word) (s : State) : State :=
  let t := s.aveU a
  if fget v fAVE_SNAP_SNAP = 1 then
    (((s.addMod (rAVE_SNAP a) fAVE_SNAP_SEQ 1).wr (rAVE_OFS0 a) (BitVec.ofNat 64 t.next)).wr (rAVE_OFS1 a)
      (BitVec.ofNat 64 t.acked)).wr (rAVE_OFS2 a) (BitVec.ofNat 64 t.limit)
  else s

/-- A write to AVE_CFG, AVE_MAC, AVE_IP0 or AVE_IP1 of avenue `a`, at address `r`: only while it is CLOSED. -/
def State.wrAveClosed (a r : Nat) (v : Word) (s : State) : State := if s.aveState a = 0 then s.wrCodes r v [] else s

/-- A write to AVE_PARAM[a]; a value out of range keeps the old one (assumption 30). -/
def State.wrAveParam (a : Nat) (v : Word) (s : State) : State :=
  let r := rAVE_PARAM a
  let o := s.rd r
  s.wrCodes r (keepRange o fAVE_PARAM_RETRY_MAX 1 255 (keepRange o fAVE_PARAM_VIOL_MAX 1 255
    (keepRange o fAVE_PARAM_RTO_US 10 65535 (keepRange o fAVE_PARAM_DEAD_MS 4 65535 (keepRange o fAVE_PARAM_WINDOW 1 65535 v))))) []

/-- A write to AVE_GLOBAL: LOCAL_PORT only while every avenue is CLOSED. -/
def State.wrAveGlobal (v : Word) (s : State) : State :=
  let o := s.rd rAVE_GLOBAL
  let v1 := if s.avesUp.isEmpty then v else fset v fAVE_GLOBAL_LOCAL_PORT (fget o fAVE_GLOBAL_LOCAL_PORT)
  s.wrCodes rAVE_GLOBAL (keepRange o fAVE_GLOBAL_ACK_US 1 65535 (keepRange o fAVE_GLOBAL_NAK_GAP_US 1 65535 v1)) []

end Sys2Proof.Machine
end

