-- ==== Sys2Proof/Machine/Dis.lean ====
section
/-! DEFINITION. Display outputs (R485 to R498). -/

namespace Sys2Proof.Machine

def dis0 : Dis := ⟨none, 0, none⟩
def layer0 : DisLayer := ⟨none, [], none, none⟩

/-- Output `n`, layer `l` of output `n`, and each changed. -/
def State.disU (s : State) (n : Nat) : Dis := SMap.get dis0 s.dis n
def State.updDis (s : State) (n : Nat) (f : Dis → Dis) : State := { s with dis := SMap.upd dis0 s.dis n f }
def State.layerU (s : State) (n l : Nat) : DisLayer := SMap.get layer0 s.layers (2 * n + l)
def State.updLayer (s : State) (n l : Nat) (f : DisLayer → DisLayer) : State :=
  { s with layers := SMap.upd layer0 s.layers (2 * n + l) f }

/-- STATE of output `n`. -/
def State.disState (s : State) (n : Nat) : Nat := s.fld (rDIS_CTRL n) fDIS_CTRL_STATE
def State.setDisState (s : State) (n v : Nat) : State := s.setFld (rDIS_CTRL n) fDIS_CTRL_STATE v

/-! ### The link (R486) -/

/-- The pixel clock of a CLK_PIX value, as a fraction in Hz. -/
def pixHz (w : Word) : Nat × Nat := (10 ^ 10 * 2 ^ 24, fget w fCLK_PIX_DIV * 2 ^ 24 + fget w fCLK_PIX_FRAC)

/-- Bit/s of a rate code, and lanes of a lane code. -/
def linkRate (r : Nat) : Nat :=
  match r with
  | 0 => 1620000000
  | 1 => 2700000000
  | 2 => 5400000000
  | _ => 8100000000
def linkLaneCount (l : Nat) : Nat := if l = 0 then 0 else 2 ^ (l - 1)

/-- The lanes and the rate that R486 chooses for a pixel clock within what DIS_LINK[n] and `sink` allow. -/
def State.chooseLink (s : State) (n : Nat) (pix : Word) (sink : Nat × Nat) : Option (Nat × Nat) :=
  let lanes := min (s.fld (rDIS_LINK n) fDIS_LINK_MAX_LANES) sink.1
  let top := min (s.fld (rDIS_LINK n) fDIS_LINK_MAX_RATE) sink.2
  let (num, den) := pixHz pix
  ((upTo 4).find? fun r => r ≤ top && num * 30 ≤ linkLaneCount lanes * linkRate r * den).map fun r => (lanes, r)

/-- Training of the link of output `n` ends. -/
def State.linkTrained (s : State) (n : Nat) (choice : Option (Nat × Nat)) (ok : Bool) : State :=
  let a := rDIS_LINK n
  match choice, ok with
  | some (lanes, rate), true =>
    (s.setFlds a [(fDIS_LINK_TRAINED, 1), (fDIS_LINK_LANES, lanes), (fDIS_LINK_RATE, rate)]).addSat a fDIS_LINK_RETRAINS 1
  | _, _ =>
    ((((s.setFlds a [(fDIS_LINK_TRAINED, 0), (fDIS_LINK_LANES, 0)]).addSat a fDIS_LINK_LINK_FAIL 1).setDisState n 3).updDis n
      fun d => { d with gap := 0 }).raise (962 + n) (some n)

/-- HPD of output `n` changes: `sink` is what the sink's DPCD allows (none: HPD fell), `ok` whether the training succeeds. -/
def State.hpd (s : State) (n : Nat) (sink : Option (Nat × Nat)) (ok : Bool) : State :=
  let a := rDIS_LINK n
  let en := s.afld (rDIS_CTRL n) fDIS_CTRL_EN = 1
  let s1 := (s.setFld a fDIS_LINK_HPD (b2n sink.isSome)).updDis n fun d => { d with sink := sink }
  let s2 := if s.flag a fDIS_LINK_HPD == sink.isSome then s1 else s1.raise (960 + n) (some n)
  match sink with
  | none =>
    ((s2.setFlds a [(fDIS_LINK_TRAINED, 0), (fDIS_LINK_LANES, 0)]).updDis n fun d => { d with gap := 0 }).setDisState n
      (if en then 3 else 0)
  | some k =>
    let s3 := s2.linkTrained n (s2.chooseLink n (s.actv (rCLK_PIX n)) k) ok
    if s3.flag a fDIS_LINK_TRAINED && s3.disState n != 2 then s3.setDisState n (if en then 1 else 0) else s3

/-! ### Commits (R488, R489) -/

/-- A write to DIS_CTRL[n]; a COMMIT stays pending until the commit point. -/
def State.wrDisCtrl (n : Nat) (v : Word) (s : State) : State :=
  let s1 := s.wrCodes (rDIS_CTRL n) v []
  if fget v fDIS_CTRL_COMMIT = 1 then s1.setFld (rDIS_CTRL n) fDIS_CTRL_RESULT 1 else s1

/-- Bytes per pixel of an overlay format; 3 is none. -/
def fmtBytes (f : Nat) : Nat := if f = 0 then 2 else if f = 1 then 3 else if f = 2 then 4 else 0

/-- REASON of a commit of the shadows of output `n`, 0 when every check of Table 22-1 passes. -/
def State.disCheck (s : State) (n : Nat) : Nat :=
  let h := s.rd (rDIS_HTIM n)
  let v := s.rd (rDIS_VTIM n)
  let pix := s.rd (rCLK_PIX n)
  let hact := fget h fDIS_HTIM_HACT
  let vact := fget v fDIS_VTIM_VACT
  let inR := fun (x lo hi : Nat) => lo ≤ x && x ≤ hi
  let (num, den) := pixHz pix
  let tot := (hact + fget h ⟨0, 16⟩ + fget h ⟨16, 16⟩ + fget h ⟨32, 16⟩) * (vact + fget v ⟨0, 16⟩ + fget v ⟨16, 16⟩ + fget v ⟨32, 16⟩)
  let timing := inR hact 320 3840 && inR vact 200 2160
    && inR (fget h ⟨0, 16⟩) 1 1023 && inR (fget h ⟨16, 16⟩) 1 1023 && inR (fget h ⟨32, 16⟩) 1 1023
    && inR (fget v ⟨0, 16⟩) 1 255 && inR (fget v ⟨16, 16⟩) 1 255 && inR (fget v ⟨32, 16⟩) 1 255
    && 24 * tot * den ≤ num && num ≤ 120 * tot * den
  let clock := 25000000 * den ≤ num && num ≤ 600000000 * den
    && (!s.flag (rDIS_CTRL n) fDIS_CTRL_EN || s.flag (rCLK_PIX n) fCLK_PIX_EN)
  let rect := fun (l : Nat) =>
    let r := s.rd (rDIS_RECT n l)
    1 ≤ fget r fDIS_RECT_W && 1 ≤ fget r fDIS_RECT_H && fget r fDIS_RECT_X + fget r fDIS_RECT_W ≤ hact
      && fget r fDIS_RECT_Y + fget r fDIS_RECT_H ≤ vact
  let lay := s.rd (rDIS_LAYER n)
  let fb := fmtBytes (fget lay fDIS_LAYER_FMT)
  let layer := rect 0 && rect 1 && fb != 0 && s.fld (rDIS_RECT n 1) fDIS_RECT_W * fb ≤ fget lay fDIS_LAYER_STRIDE
  if !timing then 1
  else if !clock then 2
  else if (s.chooseLink n pix ((s.disU n).sink.getD (3, 3))).isNone then 3
  else if !layer then 4
  else 0

/-- The commit point of output `n` (R488, R489). -/
def State.disCommit (s : State) (n : Nat) : State :=
  let a := rDIS_CTRL n
  let why := s.disCheck n
  if why != 0 then
    (s.setFlds a [(fDIS_CTRL_COMMIT, 0), (fDIS_CTRL_RESULT, 3), (fDIS_CTRL_REASON, why)]).raise (968 + n) (some n) why
  else
    let pixNew := s.actv (rCLK_PIX n) != s.rd (rCLK_PIX n)
    let s1 := s.setFlds a [(fDIS_CTRL_COMMIT, 0), (fDIS_CTRL_RESULT, 2), (fDIS_CTRL_REASON, 0)]
    let s2 := [a, rDIS_HTIM n, rDIS_VTIM n, rDIS_LAYER n, rDIS_RECT n 0, rDIS_RECT n 1, rCLK_PIX n].foldl
      (fun (t : State) r => t.commitReg r) s1
    let en := s2.afld a fDIS_CTRL_EN = 1
    let trained := s2.flag (rDIS_LINK n) fDIS_LINK_TRAINED
    let choice := (s2.disU n).sink.bind fun k => s2.chooseLink n (s2.actv (rCLK_PIX n)) k
    let use := (s2.fld (rDIS_LINK n) fDIS_LINK_LANES, s2.fld (rDIS_LINK n) fDIS_LINK_RATE)
    let s3 :=
      if !en then (s2.setDisState n 0).updDis n fun d => { d with gap := 0 }
      else if !trained then s2.setDisState n 3
      else if pixNew then
        ((s2.setDisState n 2).addSat (rDIS_STAT n) fDIS_STAT_BLANKS 1).updDis n fun d =>
          { d with gap := 1, link := if choice = some use then none else choice }
      else if (s2.disU n).gap = 0 then s2.setDisState n 1
      else s2
    (s3.raise (966 + n) (some n)).admRetest

/-- The new pixel clock of output `n` is stable; a link that changes retrains, with the outcome `ok`, and the black frame of the new
timing follows (R489). -/
def State.pixStable (s : State) (n : Nat) (ok : Bool) : State :=
  let d := s.disU n
  if d.gap = 1 then
    let s1 := s.updDis n fun d => { d with gap := 2, link := none }
    if d.link.isSome then s1.linkTrained n d.link ok else s1
  else s

/-! ### Layers (R490 to R494) -/

/-- The context that names layer `l` of output `n`, with its destination. -/
def State.layerCtx (s : State) (n l : Nat) : Option (Nat × Nat) :=
  s.ctxs.findSome? fun e => if e.2.st = .closed then none else (e.2.findDest 4 (2 * n + l)).map fun d => (e.1, d)

/-- The end of the holds of a layer: they reach up to the first byte of the earliest frame it keeps, or of the next record. -/
def State.layerHold (s : State) (n l : Nat) : State :=
  match s.layerCtx n l with
  | none => s
  | some (x, d) =>
    let y := s.layerU n l
    let kept := y.ready ++ y.shown.toList ++ y.old.toList ++ (y.asm.map (·.2.2)).toList
    let p := (kept.filter fun f => f.ctx == x).foldl (fun m f => min m f.lo) ((s.ctx x).dest d).begun
    s.finishTo x d p

/-- A frame or a record of layer `l` is dropped. -/
def State.layerDrop (s : State) (n l : Nat) : State :=
  (s.addSat (rDIS_LSTAT n l) fDIS_LSTAT_DROPPED 1).raiseLim 1000000 (970 + n) (some n)

/-- The overlay frame under construction, when it is incomplete, is dropped. -/
def State.asmDrop (s : State) (n : Nat) : State :=
  match (s.layerU n 1).asm with
  | some (_, done, _) => (if done then s else s.layerDrop n 1).updLayer n 1 fun y => { y with asm := none }
  | none => s

/-- The bytes of a frame's pieces. -/
def DisFrame.size (f : DisFrame) : Nat := f.segs.foldl (fun n g => n + g.2) 0

/-- Layer `l` of output `n` takes the next record of its context. -/
def State.layerTake (s : State) (n l : Nat) : State :=
  match s.layerCtx n l with
  | none => s
  | some (x, d) =>
    match (s.ctx x).nextRec d with
    | none => s
    | some r =>
      let fl := leNat (((s.copyRec x d r).drop 30).take 2)
      let s1 := (s.beginRec x d r).deliveredTo x d (r.pos + r.len)
      let f : DisFrame := ⟨x, r.pos, r.pos + r.len, [(r.pos + 32, r.len - 32)]⟩
      let s2 :=
        if l = 0 then
          if r.typ = 0x20 then s1.updLayer n 0 fun y => { y with ready := y.ready ++ [f] }
          else if r.typ = tyPad then s1
          else s1.layerDrop n 0
        else if r.typ = tyPad || r.typ = tyFault then s1
        else
          let t := leNat (((s.readStream x r.pos 32).drop 16).take 8)
          let cut := fl &&& (flGap ||| flRestart) != 0
          let same : Bool := match (s.layerU n 1).asm with
            | some (t', _, _) => t' == t && !cut
            | none => false
          let s3 := if same then s1 else s1.asmDrop n
          let (done, g) := match (s3.layerU n 1).asm with
            | some (_, done, g) => (done, if done then g else { g with hi := f.hi, segs := g.segs ++ f.segs })
            | none => (false, f)
          let want := fget (s.actv (rDIS_LAYER n)) fDIS_LAYER_STRIDE * s.afld (rDIS_RECT n 1) fDIS_RECT_H
          if !done && want ≤ g.size then
            s3.updLayer n 1 fun y => { y with asm := some (t, true, { g with lo := g.hi, segs := [] }), ready := y.ready ++ [g] }
          else s3.updLayer n 1 fun y => { y with asm := some (t, done, if done then { g with lo := f.hi } else g) }
      s2.layerHold n l

/-- Layer `l` latches its newest complete frame (R494). -/
def State.layerLatch (s : State) (n l : Nat) : State :=
  let y := s.layerU n l
  match y.ready.getLast? with
  | none => s
  | some f => (s.updLayer n l fun y => { y with ready := [], shown := some f, old := y.shown }).addMod (rDIS_LSTAT n l) fDIS_LSTAT_LATCHED 1

/-- The first frame after a swap has finished. -/
def State.layerOld (s : State) (n l : Nat) : State := s.updLayer n l fun y => { y with old := none }

/-- A frame of output `n` begins: a pending commit is checked and applied, a gap goes on, and enabled layers latch. -/
def State.frameStart (s : State) (n : Nat) : State :=
  let g := (s.disU n).gap
  if g = 1 then s
  else
    let s1 := if g = 2 then s.updDis n fun d => { d with gap := 3 }
      else if g = 3 then (s.updDis n fun d => { d with gap := 0 }).setDisState n 1 else s
    let s2 := (s1.layerOld n 0).layerOld n 1
    let s3 := if s2.flag (rDIS_CTRL n) fDIS_CTRL_COMMIT then s2.disCommit n else s2
    let ctl := s3.actv (rDIS_CTRL n)
    let s4 :=
      if (s3.disU n).gap != 0 then s3
      else
        let s5 := if fget ctl fDIS_CTRL_DEN_EN = 1 then s3.layerLatch n 0 else s3
        if fget ctl fDIS_CTRL_OVL_EN = 1 then s5.layerLatch n 1 else s5
    (s4.layerHold n 0).layerHold n 1

/-! ### Scan-out (R491 to R495) -/

/-- Four channels, A R G B. -/
abbrev Argb := Nat × Nat × Nat × Nat

/-- An ARGB word, and the pixel bytes of an overlay format; RGB565 is widened by bit replication. -/
def argbOf (w : Nat) : Argb := (w / 2 ^ 24 % 256, w / 2 ^ 16 % 256, w / 2 ^ 8 % 256, w % 256)
def pixelOf (fmt w : Nat) : Argb :=
  if fmt = 0 then
    let r := w / 2 ^ 11 % 32
    let g := w / 2 ^ 5 % 64
    let b := w % 32
    (255, r * 8 + r / 4, g * 4 + g / 16, b * 8 + b / 4)
  else if fmt = 1 then (255, w / 2 ^ 16 % 256, w / 2 ^ 8 % 256, w % 256)
  else argbOf w

/-- R493: a layer's pixel over what lies below it. -/
def blend (p : Argb) (d : Nat × Nat × Nat) : Nat × Nat × Nat :=
  let f := fun (s d : Nat) => (p.1 * s + (255 - p.1) * d + 127) / 255
  (f p.2.1 d.1, f p.2.2.1 d.2.1, f p.2.2.2 d.2.2)

/-- `n` bytes of a frame from byte `o` on. -/
def State.frameBytes (s : State) (x : Nat) : List (Nat × Nat) → Nat → Nat → List Byte
  | [], _, _ => []
  | (p, k) :: t, o, n =>
    if k ≤ o then State.frameBytes s x t (o - k) n
    else
      let m := min n (k - o)
      s.readStream x (p + o) m ++ (if n ≤ m then [] else State.frameBytes s x t 0 (n - m))

/-- The pixel of layer `l` at pixel (`px`, `py`) of the active frame of output `n`, if it is not transparent there. -/
def State.layerPixel (s : State) (n l px py : Nat) : Option Argb :=
  let r := s.actv (rDIS_RECT n l)
  let x := px - fget r fDIS_RECT_X
  let y := py - fget r fDIS_RECT_Y
  let inside := fget r fDIS_RECT_X ≤ px && fget r fDIS_RECT_Y ≤ py && x < fget r fDIS_RECT_W && y < fget r fDIS_RECT_H
  let lay := s.actv (rDIS_LAYER n)
  match inside, (s.layerU n l).shown with
  | true, some f =>
    let byte := fun (o k : Nat) => leNat (s.frameBytes f.ctx f.segs o k)
    if l = 0 then
      let cs := byte 0 2
      let rs := byte 2 2
      let a := y * rs / fget r fDIS_RECT_H
      let c := x * cs / fget r fDIS_RECT_W
      let cell := byte (32 + 4 * (a * cs + c)) 4
      let e := min 1023 (cell / 2 ^ fget lay fDIS_LAYER_PSHIFT)
      some (argbOf (s.rd (rDIS_PAL n (fget lay fDIS_LAYER_PAL_SEL) e)).toNat)
    else
      let fmt := fget lay fDIS_LAYER_FMT
      some (pixelOf fmt (byte (y * fget lay fDIS_LAYER_STRIDE + x * fmtBytes fmt) (fmtBytes fmt)))
  | _, _ => none

/-- Are the horizontal and the vertical sync of output `n` active high (R487)? -/
def State.disSync (s : State) (n : Nat) : Bool × Bool :=
  (s.afld (rDIS_CTRL n) fDIS_CTRL_HPOL == 1, s.afld (rDIS_CTRL n) fDIS_CTRL_VPOL == 1)

/-- Line `y` of the active frame of output `n` is scanned out; the data of layer `l` have arrived up to pixel `upto l` (R493, R495). -/
def State.scanLine (s : State) (n y den ovl : Nat) : State :=
  let ctl := s.actv (rDIS_CTRL n)
  let hact := fget (s.actv (rDIS_HTIM n)) fDIS_HTIM_HACT
  let vact := fget (s.actv (rDIS_VTIM n)) fDIS_VTIM_VACT
  let black := (s.disU n).gap = 3
  if vact ≤ y || !(s.disState n = 1 || black) then s
  else if black then s.send (.video n y (s.disSync n) (List.replicate hact 0))
  else
    let bg := fget ctl fDIS_CTRL_BG
    let onD := fget ctl fDIS_CTRL_DEN_EN = 1
    let onO := fget ctl fDIS_CTRL_OVL_EN = 1
    let pix := (upTo hact).map fun px =>
      let d0 := (bg / 2 ^ 16 % 256, bg / 2 ^ 8 % 256, bg % 256)
      let d1 := match if onD && px < den then s.layerPixel n 0 px y else none with
        | some p => blend p d0
        | none => d0
      let d2 := match if onO && px < ovl then s.layerPixel n 1 px y else none with
        | some p => blend p d1
        | none => d1
      d2.1 * 2 ^ 16 + d2.2.1 * 2 ^ 8 + d2.2.2
    let late := fun (l upto : Nat) (on : Bool) =>
      let r := s.actv (rDIS_RECT n l)
      b2n (on && (s.layerU n l).shown.isSome && fget r fDIS_RECT_Y ≤ y && y < fget r fDIS_RECT_Y + fget r fDIS_RECT_H
        && upto < fget r fDIS_RECT_X + fget r fDIS_RECT_W)
    let k := late 0 den onD + late 1 ovl onO
    let s1 := s.send (.video n y (s.disSync n) pix)
    if k = 0 then s1 else (s1.addSat (rDIS_STAT n) fDIS_STAT_UNDERFLOW k).raiseLim 1000000 (964 + n) (some n)

/-! ### AUX and palette (R486, R496) -/

/-- A write to DIS_AUX[n]; with GO the request is made, and `reply` is its end. A CMD with bit 0 set reads. -/
def State.wrDisAux (n : Nat) (v : Word) (reply : AuxReply) (s : State) : State :=
  let s1 := s.wrCodes (rDIS_AUX n) v [fDIS_AUX_GO]
  if fget v fDIS_AUX_GO = 0 then s1
  else
    let len := fget v fDIS_AUX_LEN + 1
    let read := fget v fDIS_AUX_CMD % 2 = 1
    let buf := leBytes 8 (s1.rd (rDIS_AUX_DATA n 0)).toNat ++ leBytes 8 (s1.rd (rDIS_AUX_DATA n 1)).toNat
    let s2 := s1.send (.aux n v (if read then [] else buf.take len))
    match reply with
    | .ack bs =>
      let got := bs.take len
      let all := if read then got ++ buf.drop got.length else buf
      ((s2.wr (rDIS_AUX_DATA n 0) (BitVec.ofNat 64 (leNat (all.take 8)))).wr (rDIS_AUX_DATA n 1)
        (BitVec.ofNat 64 (leNat ((all.drop 8).take 8)))).setFld (rDIS_AUX n) fDIS_AUX_RESULT 2
    | .nack => s2.setFld (rDIS_AUX n) fDIS_AUX_RESULT 3
    | .defer => s2.setFld (rDIS_AUX n) fDIS_AUX_RESULT 4
    | .timeout => s2.setFld (rDIS_AUX n) fDIS_AUX_RESULT 5

/-- A write to DIS_PAL[n][b][i]. -/
def State.wrDisPal (n b i : Nat) (v : Word) (s : State) : State :=
  if s.afld (rDIS_LAYER n) fDIS_LAYER_PAL_SEL = b then s.addSat (rDIS_STAT n) fDIS_STAT_PAL_DISC 1
  else s.wrCodes (rDIS_PAL n b i) v []

/-- A write to DIS_LINK[n]: MAX_LANES 0 is discarded. -/
def State.wrDisLink (n : Nat) (v : Word) (s : State) : State :=
  s.wrCodes (rDIS_LINK n) (keepRange (s.rd (rDIS_LINK n)) fDIS_LINK_MAX_LANES 1 3 v) []

/-- DIS_LSTAT[n][l] with BOUND and CONTEXT. -/
def State.lstatView (s : State) (n l : Nat) : Word :=
  let w := s.rd (rDIS_LSTAT n l)
  match s.layerCtx n l with
  | some (x, _) => fsets w [(fDIS_LSTAT_BOUND, 1), (fDIS_LSTAT_CONTEXT, x)]
  | none => w

end Sys2Proof.Machine
end

