-- ==== Sys2Proof/Machine/Hif.lean ====
section
/-! DEFINITION. The CXL host interface: memory window, link, resets, interrupts, doorbells and the DOE mailbox (R414 to R435,
R516 to R518). -/

namespace Sys2Proof.Machine

/-- The host interface changed. -/
def State.updHif (s : State) (f : Hif → Hif) : State := { s with hif := f s.hif }

/-- GLB_STATUS.CXL_MODE. -/
def State.cxlMode (s : State) : Bool := s.flag rGLB_STATUS fGLB_STATUS_CXL_MODE

/-! ### CXL.mem (R417 to R424) -/

/-- The store offset behind a host address that decoder `d` covers. -/
def Hdm.dpa (d : Hdm) (hpa : Nat) : Option Nat :=
  if d.committed && d.base ≤ hpa && hpa < d.base + d.size then some (d.skip + (hpa - d.base)) else none

/-- What the function's configuration space and its CXL DVSEC report (R414, R417). -/
structure CfgView where
  deviceId     : Nat
  classCode    : Nat
  cacheCapable : Bool
  memCapable   : Bool
  hdmCount     : Nat
  memHwInit    : Nat
  infoValid    : Bool
  memActive    : Bool
  deriving DecidableEq, Repr

/-- The configuration space as it reads now; Memory_Active follows the store (R417). -/
def State.cfgView (s : State) : CfgView :=
  ⟨0x4020, 0x118000, true, true, 2, 0, true, s.flag rGLB_STATUS fGLB_STATUS_STORE_READY && !s.flag rMEM_MAP fMEM_MAP_MAP_BUSY⟩

/-- A CXL.mem read of the 64-byte line at a host address; an uncorrectable error that it returns is reported by the RAS capability too
(R434). Without CXL there is no CXL.mem window (R415). -/
def State.cxlRead (s : State) (hpa : Nat) : State :=
  if !s.cxlMode then s
  else match (s.hif.hdm0.dpa hpa).orElse fun _ => s.hif.hdm1.dpa hpa with
    | none => (s.addSat rGLB_HIF_ERR fGLB_HIF_ERR_UR 1).send (.memRead [] true)
    | some o =>
      let s1 := s.srExit
      let l := o / 64
      let s2 := if (s1.billet (o / billetBytes)).hbias then s1
        else (s1.addSat rGLB_HIF_ERR fGLB_HIF_ERR_DEVBIAS_RD 1).raiseLim 1000000 996
      (if s2.lineBad l then s2.send .rasDataEcc else s2).send (.memRead (s2.store.read 0 (64 * l) 64) (s2.lineBad l))

/-- A CXL.mem write has no effect on the store (R420). -/
def State.cxlWrite (s : State) : State :=
  if !s.cxlMode then s
  else ((s.addSat rGLB_HIF_ERR fGLB_HIF_ERR_MEM_WR_DISC 1).raiseLim 1000000 995).send .memWriteDone

/-- Do two ranges overlap? -/
def overlaps (a n b m : Nat) : Bool := a < b + m && b < a + n

/-- HDM decoder `one` (false: the first) is committed (R419). A locked decoder keeps what it holds. -/
def State.hdmCommit (s : State) (one : Bool) (base size skip ways : Nat) (lock : Bool) : State :=
  let d := if one then s.hif.hdm1 else s.hif.hdm0
  let other := if one then s.hif.hdm0 else s.hif.hdm1
  let put := fun (t : State) (x : Hdm) => t.updHif fun h => if one then { h with hdm1 := x } else { h with hdm0 := x }
  if d.locked then s
  else if ways = 1 && size != 0 && size % 2 ^ 28 == 0 && skip + size ≤ storeBytes
      && !(other.committed && overlaps skip size other.skip other.size) then
    put s ⟨base, size, skip, true, false, lock⟩
  else (put s ⟨base, size, skip, false, true, false⟩).raise 998

/-- A host snoop is answered with RspIHitI (R424). -/
def State.snoop (s : State) : State := s.send .snoopRsp

/-! ### Interrupts (R428, R529) -/

/-- Vectors whose messages wait are signalled, as far as masks, requests and moderation allow. -/
def State.sendPending (s : State) : State :=
  s.hif.vecs.foldl (fun t v => if v.2.pend then t.signal v.1 else t) s

/-- A vector or the function is unmasked, or requests are allowed again: waiting messages are sent, and an EVT_LOST record that was due
is written (R428, R527). -/
def State.unmask (s : State) (u : Unmask) : State :=
  match u with
  | .vector v => let s1 := s.setVec v { s.vec v with masked := false }; if (s1.vec v).pend then s1.signal v else s1
  | .function => (s.updHif fun h => { h with fnMasked := false }).sendPending
  | .busMaster => ((s.updHif fun h => { h with bme := true }).lostRecord).sendPending

/-- The moderation interval of vector `v` ends. -/
def State.moderationEnd (s : State) (v : Nat) : State :=
  match (s.vec v).last with
  | some t =>
    let s1 := s.reach (t + s.usTicks (s.fld rEVT_CTRL fEVT_CTRL_MOD_US))
    if (s1.vec v).pend then s1.signal v else s1
  | none => s

/-! ### The link and resets (R416, R431, R432) -/

/-- The link trains to a width and a rate, with CXL or without (R415, R416). A change of width or rate updates the CXL ceiling and the
CDAT, and tests the admitted set again; a link that was down reports that now. -/
def State.linkRetrain (s : State) (width rate : Nat) (cxl : Bool) : State :=
  let w := max 1 (min width 3)
  let r := min rate 4
  let c := cxl && 2 ≤ r
  let changed := s.fld rGLB_HIF_LINK fGLB_HIF_LINK_WIDTH != w || s.fld rGLB_HIF_LINK fGLB_HIF_LINK_RATE != r
  let s1 := ((s.setFlds rGLB_HIF_LINK [(fGLB_HIF_LINK_WIDTH, w), (fGLB_HIF_LINK_RATE, r), (fGLB_HIF_LINK_CXL, b2n c)]).setFld
    rGLB_STATUS fGLB_STATUS_CXL_MODE (b2n c)).addSat rGLB_HIF_LINK fGLB_HIF_LINK_RETRAINS 1
  let s2 := if s.hif.downSaid then (s1.updHif fun h => { h with downSaid := false }).raise 1002 else s1
  let s3 := if changed then
      ((s2.updHif fun h => { h with cdatSeq := h.cdatSeq + 1, bw := linkLanes w * linkHalfGt r }).raise
        992).admRetest
    else s2
  (s3.lostRecord).sendPending

/-- The CXL.io function is reset: MSI-X, Bus Master Enable, the DMA channels and the event ring writer (Table 19-5). Without Bus Master
Enable the channels write no completion record. -/
def State.fnReset (s : State) : State :=
  ((s.updHif fun h => { h with bme := false, fnMasked := false, vecs := [] }).dmaHaltAll).setFld rEVT_CTRL fEVT_CTRL_RING_EN 0

/-- The link goes down. -/
def State.linkDown (s : State) : State :=
  if s.fld rGLB_HIF_LINK fGLB_HIF_LINK_WIDTH = 0 then s
  else
    let s1 := ((s.setFld rGLB_HIF_LINK fGLB_HIF_LINK_WIDTH 0).addSat rGLB_HIF_LINK fGLB_HIF_LINK_DOWNS 1).updHif fun h =>
      { h with downSaid := true }
    s1.fnReset.setFld rGLB_HIF_RESET fGLB_HIF_RESET_LAST 3

/-- An FLR or a hot reset. -/
def State.flr (s : State) : State :=
  (((s.fnReset).setFld rGLB_HIF_RESET fGLB_HIF_RESET_LAST 2).addSat rGLB_HIF_RESET fGLB_HIF_RESET_FLRS 1).raise 1000

/-- Every HOST_ZC hold of context `x` ends; the items it had not given back are lost. -/
def State.zcEnd (s : State) (x : Nat) : State :=
  let c := s.ctx x
  match c.destList.find? (fun d => c.destType d == 2) with
  | none => s
  | some d =>
    if c.st = .closed then s
    else
      let n := c.recs.foldl (fun k r => if (c.dest d).fin < r.pos + r.len && !r.skips d then k + r.items else k) 0
      (s.updCtx x fun c => { c with
        lost := satN 64 (c.lost + n)
        zcRel := c.zcPub
        zcEnds := []
        zcPos := c.wpos }).finishTo x d c.wpos

/-- A CXL Reset (Table 19-5): a datapath restart, or its share of a running one (R534); decoders cleared; every billet in device bias;
HOST_ZC holds and software references ended; with Mem Clr the store zeroed. It completes with the restart. -/
def State.cxlReset (s : State) (memClr : Bool) : State :=
  let hdm : Hdm := ⟨0, 0, 0, false, false, false⟩
  let s1 := (s.dpOrder dpCxl).updHif fun h => { h with hdm0 := hdm, hdm1 := hdm }
  let s2 := (s1.ctxs.map (·.1)).foldl State.zcEnd s1
  let s3 := s2.billets.foldl (fun (t : State) e =>
    let b := e.1
    let x := t.billet b
    let t1 := if x.hbias then t.addMod rGLB_HIF_BIAS fGLB_HIF_BIAS_TO_DEVICE 1 else t
    (t1.setBillet b { x with swref := 0, defer := false, hbias := false, switch := none }).settleBillet b) s2
  let s4 := if memClr then ((s3.storeClear.onBadLines fun _ => []).onMem fun z => { z with lost := [] }) else s3
  let s5 := s4.setFld rGLB_HIF_RESET fGLB_HIF_RESET_LAST 1
  if s5.glb = 4 then s5.onRst fun z => { z with cxl := true } else s5.dmaHaltAll.cxlResetDone

/-- Bus Master Enable is cleared. -/
def State.busMasterOff (s : State) : State := s.updHif fun h => { h with bme := false }

/-- A request of a unit fails by a timeout or a poisoned completion, and the unit reports it (Table 19-6). -/
def State.requestFail (s : State) (r : Requester) (timeout : Bool) : State :=
  match r with
  | .dma c => (s.hostFail timeout).dmaReqFail c timeout
  | .plan o => if s.planState = 1 then (s.hostFail timeout).planReject (1, o) else s.hostFail timeout
  | .table n => (s.hostFail timeout).tabLoadEnd n none
  | .codec u => (s.hostFail timeout).jobAbort u 2
  | .bias _ => if timeout then ((s.addSat rGLB_HIF_CTO fGLB_HIF_CTO_CTO_CACHE 1).raiseLim 1000 993).send (.aer true) else s.hostFail false

/-! ### Doorbells (R353, R426) -/

/-- A discarded access to a doorbell page. -/
def State.dbDiscard (s : State) : State := (s.addSat rGLB_HIF_ACCESS fGLB_HIF_ACCESS_DB_DISC 1).raiseLim 1000000 999

/-- A write to ZC_RELEASE of page `x`. -/
def State.dbRelease (s : State) (x n : Nat) : State := if (s.ctx x).st = .closed then s.dbDiscard else s.zcRelease x n

/-- A write to CTX_FLUSH of page `x`: FLUSH of an OPEN context (R350). -/
def State.dbFlush (s : State) (x : Nat) (go : Bool) : State :=
  if (s.ctx x).st = .closed then s.dbDiscard
  else if go && (s.ctx x).st == .opened then s.flushCtx x else s

/-- CTX_STATE of page `x`. -/
def State.dbState (s : State) (x : Nat) : Word :=
  let c := s.ctx x
  fsets 0 [(⟨48, 16⟩, c.epoch), (⟨40, 2⟩, ctxStCode c.st), (⟨0, 21⟩, c.held)]

/-- A 64-bit write to BAR4. -/
def State.bar4Write (s : State) (a : Nat) (v : Word) : State :=
  let x := a / 4096
  match a % 4096 with
  | 0x000 => s.dbRelease x (v.toNat % 65536)
  | 0x018 => s.dbFlush x (v.getLsbD 0)
  | 0x008 => if (s.ctx x).st = .closed then s.dbDiscard else s
  | 0x010 => if (s.ctx x).st = .closed then s.dbDiscard else s
  | _ => s.dbDiscard

/-- A 64-bit read of BAR4. -/
def State.bar4Read (s : State) (a : Nat) : Word :=
  let x := a / 4096
  match a % 4096 with
  | 0x008 => s.zcIndex x
  | 0x010 => s.dbState x
  | _ => 0

/-! ### The MSI-X table (R425) -/

/-- A 64-bit write to BAR2: the address of an entry, or its data and its mask. The PBA is read-only. -/
def State.bar2Write (s : State) (a : Nat) (v : Word) : State :=
  if 0x8000 ≤ a then s
  else
    let n := a / 16
    let x := s.vec n
    if a % 16 = 0 then s.setVec n { x with addr := v }
    else
      let m := v.getLsbD 32
      let s1 := s.setVec n { x with data := v.toNat % 2 ^ 32, masked := m }
      if !m && x.pend then s1.signal n else s1

/-- A 64-bit read of BAR2. -/
def State.bar2Read (s : State) (a : Nat) : Word :=
  if 0x8100 ≤ a then 0
  else if 0x8000 ≤ a then
    BitVec.ofNat 64 ((upTo 64).foldl (fun w i => w + b2n (s.vec ((a - 0x8000) / 8 * 64 + i)).pend * 2 ^ i) 0)
  else
    let x := s.vec (a / 16)
    if a % 16 = 0 then x.addr else BitVec.ofNat 64 (x.data + b2n x.masked * 2 ^ 32)

/-! ### The DOE mailbox (R429, R430, R516 to R518) -/

/-- A DOE request of `len` bytes, sent while a response is pending or not, with the answer `h` gives. -/
def State.doe (s : State) (len : Nat) (busy : Bool) (h : State → State) : State :=
  if 4096 < len || busy then s.send (.doe .error) else h s

/-- The CDAT (Table 19-4). -/
def State.cdat (s : State) : List CdatEntry :=
  [.dsmas 0 0 storeBytes false, .readLatency 420, .readBandwidth (48000 * s.hif.bw / (16 * 64)), .writeBandwidth 0, .dsemts 0 true]

/-- An SPDM request is answered. -/
def State.spdm (s : State) (a : DoeAnswer) : State := (s.addMod rSEC_SPDM fSEC_SPDM_REQUESTS 1).send (.doe a)

/-- The certificate digests: SHA-384 of the chain in slot 0. -/
def certDigests : List Nat := [Config.sha384 Config.certChain]

/-- The measurement blocks that a request names: none for 0, all for 255 (R518). -/
def State.measBlocks (s : State) (index : Nat) : List (Nat × Nat) :=
  ((upTo 6).map fun i => (i + 1, SMap.get 0 s.stk.meas (i + 1))).filter fun b => index == 255 || b.1 == index

/-- The bytes of measurement blocks, for a signature. -/
def measBytes (l : List (Nat × Nat)) : List Byte := l.flatMap fun b => leBytes 1 b.1 ++ leBytes 48 b.2

/-- A request that is not supported (R517). -/
def State.spdmError (s : State) : State :=
  ((s.addSat rSEC_SPDM fSEC_SPDM_ERRORS 1).raiseLim 1000000 985).spdm .spdmUnsupported

/-- A block of measurements changes (R518). -/
def State.measure (s : State) (index v : Nat) : State :=
  (((s.addMod rSEC_MEAS fSEC_MEAS_GEN 1).onStk fun k => { k with meas := SMap.set 0 k.meas index v }).setFld rSEC_MEAS
    fSEC_MEAS_INDEX index).raise 984

end Sys2Proof.Machine
end

