-- ==== Sys2Proof/Machine/Net.lean ====
section
/-! DEFINITION. Network ports, received frames and the exception queues (R454 to R465). -/

namespace Sys2Proof.Machine

/-! ### Link (R457, R460) -/

/-- SPEED of a sub-port under its MODE: 1 100G, 2 200G, 3 400G. -/
def State.subSpeed (s : State) (i : Nat) : Nat :=
  match laneHalves (s.fld (rNET_PORT_CFG (i / 4)) fNET_PORT_CFG_MODE) (i % 4) with
  | 8 => 3
  | 4 => 2
  | 2 => 1
  | _ => 0

/-- The exception transmit ring of sub-port `i` is emptied without LINK (R460). -/
def State.exqTxDrop (s : State) (i : Nat) : State :=
  s.setFld (rNET_EXQ_TX_IDX i) fNET_EXQ_TX_IDX_DONE_IDX (s.fld (rNET_EXQ_TX_IDX i) fNET_EXQ_TX_IDX_TAIL)

/-- Sub-port `i` loses LINK. -/
def State.netDown (s : State) (i : Nat) : State :=
  if s.linkUp i then
    let s1 := ((s.setFlds (rNET_SUB_STATUS i) [(fNET_SUB_STATUS_LINK, 0), (fNET_SUB_STATUS_SPEED, 0)]).addSat (rNET_SUB_STATUS i)
      fNET_SUB_STATUS_DOWNS 1).updNet i fun n => { n with pause := none, down := s.time, queue := [] }
    (s1.exqTxDrop i).raise (896 + i) (some i)
  else s

/-- The PCS of sub-port `i` locks with FEC: the timers of its avenues go on (R471). -/
def State.netUp (s : State) (i : Nat) : State :=
  if s.linkUp i || !s.subExists i then s
  else
    let d := s.time - (s.netS i).down
    let s1 := s.setFlds (rNET_SUB_STATUS i) [(fNET_SUB_STATUS_LINK, 1), (fNET_SUB_STATUS_SPEED, s.subSpeed i)]
    let s2 := (s1.avesUp.filter fun a => s1.aveSub a == i).foldl (fun (t : State) a => t.updAve a fun v => v.shift d) s1
    s2.raise (896 + i) (some i)

/-- A write to NET_PORT_CFG[p]: its sub-ports go down at once, avenues on sub-ports that no longer exist fail, and the admitted set is
tested again (R457, R484). -/
def State.wrPortCfg (p : Nat) (v : Word) (s : State) : State :=
  if 5 < fget v fNET_PORT_CFG_MODE then s
  else
    let s1 := (upTo 4).foldl (fun (t : State) k => t.netDown (4 * p + k)) s
    let s2 := s1.wrCodes (rNET_PORT_CFG p) v []
    let gone := s2.avesUp.filter fun a => s2.aveSub a / 4 == p && !s2.subExists (s2.aveSub a)
    let s3 := gone.foldl (fun (t : State) a => if t.aveState a = 5 then t.aveRefuse a 5 else t.aveFail a 5) s2
    s3.admRetest

/-! ### Pause (R459) -/

/-- Sub-port `i` receives a pause of `q` quanta of 512 bit times: transmission stops for that time, or goes on at 0. -/
def State.pauseEnd (s : State) (i : Nat) : State :=
  match (s.netS i).pause with
  | none => s
  | some (t0, _) =>
    let s1 := s.addSat (rNET_SUB_STATUS i) fNET_SUB_STATUS_PAUSED_US (s.ticksUs (s.time - t0))
    let q := (s.netS i).queue
    let s2 := s1.updNet i fun n => { n with pause := none, queue := [] }
    q.foldl (fun (t : State) o => t.netSend i o) s2

/-- The pause time of `q` quanta at the speed of sub-port `i`, in ticks. -/
def State.quanta (s : State) (i q : Nat) : Nat :=
  match s.fld (rNET_SUB_STATUS i) fNET_SUB_STATUS_SPEED with
  | 1 => ceilDiv (q * 5120000) s.tickFs
  | 2 => ceilDiv (q * 2560000) s.tickFs
  | 3 => ceilDiv (q * 1280000) s.tickFs
  | _ => 0

/-- A pause of `q` quanta takes effect on sub-port `i`. -/
def State.pauseFor (s : State) (i q : Nat) : State :=
  if !s.linkUp i then s
  else if q = 0 then s.pauseEnd i
  else s.updNet i fun n => { n with pause := some ((n.pause.map (·.1)).getD s.time, s.time + s.quanta i q) }

/-- A pause (`pfc` none) or PFC frame (its enabled priorities with their quanta). -/
def State.pauseRx (s : State) (i q : Nat) (pfc : Option (List (Nat × Nat))) : State :=
  match pfc with
  | none => if s.flag (rNET_SUB_CFG i) fNET_SUB_CFG_PAUSE_RX then s.pauseFor i q else s
  | some l =>
    if s.flag (rNET_SUB_CFG i) fNET_SUB_CFG_PFC_RX then
      match l.find? fun e => e.1 == s.fld (rNET_SUB_CFG i) fNET_SUB_CFG_PFC_PRIO with
      | some e => s.pauseFor i e.2
      | none => s
    else s

/-- The pause time of sub-port `i` is over. -/
def State.pauseExpire (s : State) (i : Nat) : State :=
  match (s.netS i).pause with
  | some (_, t) => (s.reach t).pauseEnd i
  | none => s

/-! ### Frames -/

/-- A number in network byte order. -/
def beNat (l : List Byte) : Nat := l.foldl (fun n b => n * 256 + b.toNat) 0
/-- `n` bytes of a frame from byte `o` on. -/
def at_ (f : List Byte) (o n : Nat) : List Byte := (f.drop o).take n

/-- An unfragmented UDP datagram in a frame: family, source and destination addresses, where the UDP header begins, and its length. -/
structure Udp where
  v6  : Bool
  sip : Nat
  dip : Nat
  o   : Nat
  len : Nat
  deriving DecidableEq, Repr

/-- The UDP datagram of an Ethernet frame, if it is one. -/
def udpOf (f : List Byte) : Option Udp :=
  let ty := beNat (at_ f 12 2)
  if ty = 0x0800 then
    let h := (beNat (at_ f 14 1) % 16) * 4
    if beNat (at_ f 14 1) / 16 = 4 && 20 ≤ h && beNat (at_ f 20 2) % 2 ^ 14 = 0 && beNat (at_ f 23 1) = 17
        && 14 + h + 8 ≤ f.length then
      some ⟨false, beNat (at_ f 26 4), beNat (at_ f 30 4), 14 + h, beNat (at_ f (14 + h + 4) 2)⟩
    else none
  else if ty = 0x86DD then
    if beNat (at_ f 14 1) / 16 = 6 && beNat (at_ f 20 1) = 17 && 62 ≤ f.length then
      some ⟨true, beNat (at_ f 22 16), beNat (at_ f 38 16), 54, beNat (at_ f 58 2)⟩
    else none
  else none

/-- The UDP checksum over the pseudo header and the datagram, which is 0xFFFF where the transmitted one is good. -/
def udpSum (f : List Byte) (u : Udp) : Nat :=
  let n := if u.v6 then 16 else 4
  fold16 (sum16 (beBytes n u.sip) + sum16 (beBytes n u.dip) + 17 + u.len + sum16 (at_ f u.o u.len))

/-- Is a frame a PTP frame, and is it a PTP event message (R464)? -/
def ptpOf (f : List Byte) (u : Option Udp) : Bool × Bool :=
  match u with
  | some u =>
    let p := beNat (at_ f (u.o + 2) 2)
    (p == 319 || p == 320, p == 319)
  | none => if beNat (at_ f 12 2) = 0x88F7 then (true, beNat (at_ f 14 1) % 16 < 4) else (false, false)

/-- A frame goes to the exception receive ring of sub-port `i` (Table 21-2). -/
def State.exqPut (s : State) (i : Nat) (f : List Byte) (sumOk ptp : Bool) (fine : Nat) : State :=
  let r := s.rd (rNET_EXQ_RX i)
  let idx := rNET_EXQ_RX_IDX i
  let wr := s.fld idx fNET_EXQ_RX_IDX_WRITTEN
  let lg := fget r fNET_EXQ_RX_LOG2
  let used := (wr + 65536 - s.fld idx fNET_EXQ_RX_IDX_RELEASED) % 65536
  if lg = 0 || 2 ^ lg ≤ used || !s.busOk then
    (s.addSat (rNET_SUB_CNT1 i) fNET_SUB_CNT1_EXQ_DROP 1).raiseLim 1000 916 (some i) 0 0 i
  else
    let slot := fget r fNET_EXQ_RX_ADDR * 64 + wr % 2 ^ lg * 9280
    let phase := 1 - wr / 2 ^ lg % 2
    let w0 := f.length % 2 ^ 14 + b2n sumOk * 2 ^ 16 + b2n ptp * 2 ^ 17 + i * 2 ^ 18 + phase * 2 ^ 63
    ((s.hostWrite (slot + 64) f).hostWrite slot (leBytes 8 w0 ++ leBytes 8 s.time ++ leBytes 8 fine ++ leBytes 40 0)).addMod idx
      fNET_EXQ_RX_IDX_WRITTEN 1

/-- A frame that MAC and checksum have let through is sorted: Avenue, the Stoker's PTP, or the exception ring (R462, R464). -/
def State.netSort (s : State) (i : Nat) (f : List Byte) (u : Option Udp) (sumOk : Bool) (fine : Nat) : State :=
  let (ptp, event) := ptpOf f u
  let src := s.fld rTBS_SERVO fTBS_SERVO_SOURCE
  let stoker := ptp && (src == 2 || src == 3) && i == 4 * s.fld rTBS_SERVO fTBS_SERVO_PTP_PORT
  match u with
  | some d =>
    if stoker then s
    else if d.dip = s.ownIp i d.v6 && d.dip != 0 && beNat (at_ f (d.o + 2) 2) = s.fld rAVE_GLOBAL fAVE_GLOBAL_LOCAL_PORT then
      let b := at_ f (d.o + 8) (d.len - 8)
      if b.length < 32 then s.addSat (rAVE_UNATTR i) fAVE_UNATTR_BAD_HEADER 1
      else
        let w := fun (k : Nat) => BitVec.ofNat 64 (leNat (at_ b (8 * k) 8))
        s.aveRx i ⟨beNat (at_ f 6 6), d.v6, d.sip, beNat (at_ f d.o 2), w 0, w 1, w 2, w 3, b.drop 32⟩
    else s.exqPut i f sumOk event fine
  | none => if stoker then s else s.exqPut i f sumOk event fine

/-- A frame is received on sub-port `i` (R458 to R464). -/
def State.netRx (s : State) (i : Nat) (x : NetFrame) : State :=
  if !s.linkUp i then s
  else
    let f := x.bytes
    let p := i / 4
    let s1 := s.addMod (rNET_PORT_FEC p) fNET_PORT_FEC_FEC_CORR x.corr
    let s2 := if x.uncorr = 0 then s1
      else (s1.addSat (rNET_PORT_FEC p) fNET_PORT_FEC_FEC_UNCORR x.uncorr).raiseLim 1000000 (912 + p) (some p)
    if x.badFcs || x.uncorr != 0 || s.fld (rNET_SUB_CFG i) fNET_SUB_CFG_MAX_FRAME < f.length + 4 then
      s2.addSat (rNET_SUB_CNT1 i) fNET_SUB_CNT1_RX_ERR 1
    else if beNat (at_ f 12 2) = 0x8808 then
      if beNat (at_ f 14 2) = 1 then s2.pauseRx i (beNat (at_ f 16 2)) none
      else if beNat (at_ f 14 2) = 0x0101 then
        s2.pauseRx i 0 (some (((upTo 8).filter fun k => beNat (at_ f 16 2) / 2 ^ k % 2 == 1).map fun k =>
          (k, beNat (at_ f (18 + 2 * k) 2))))
      else s2
    else
      let dst := beNat (at_ f 0 6)
      let own := dst == s.fld (rNET_SUB_MAC i) fNET_SUB_MAC_MAC || dst == 2 ^ 48 - 1
        || (s.flag (rNET_SUB_CFG i) fNET_SUB_CFG_MCAST && dst / 2 ^ 40 % 2 == 1)
      if !own then s2
      else
        let u := udpOf f
        let sum : Option Bool := u.bind fun d => if beNat (at_ f (d.o + 6) 2) = 0 then none else some (udpSum f d == 0xFFFF)
        if sum = some false then s2.addSat (rNET_SUB_CNT1 i) fNET_SUB_CNT1_CSUM_ERR 1
        else
          (s2.addMod (rNET_SUB_CNT0 i) fNET_SUB_CNT0_RX_FRAMES 1).netSort i f u (sum == some true) x.fine.val

/-! ### Exception queues (R463 to R465) -/

/-- RELEASE gives slots of the exception receive ring back. -/
def State.wrExqRxIdx (i : Nat) (v : Word) (s : State) : State :=
  let idx := rNET_EXQ_RX_IDX i
  let n := fget v fNET_EXQ_RX_IDX_RELEASE
  let used := (s.fld idx fNET_EXQ_RX_IDX_WRITTEN + 65536 - s.fld idx fNET_EXQ_RX_IDX_RELEASED) % 65536
  if used < n then s else s.addMod idx fNET_EXQ_RX_IDX_RELEASED n

/-- A write to NET_EXQ_TX_IDX: the producer index; without LINK what it queues is discarded. -/
def State.wrExqTxIdx (i : Nat) (v : Word) (s : State) : State :=
  let s1 := s.wrCodes (rNET_EXQ_TX_IDX i) v []
  if s1.linkUp i then s1 else s1.exqTxDrop i

/-- A write to NET_EXQ_RX or NET_EXQ_TX, at address `r`: LOG2 from 4 to 12, or 0. -/
def State.wrExqRing (r : Nat) (v : Word) (s : State) : State :=
  s.wrCodes r (if fget v ⟨0, 4⟩ = 0 then v else keepRange (s.rd r) ⟨0, 4⟩ 4 12 v) []

/-- A write to NET_SUB_CFG[i]; a MAX_FRAME out of range keeps the old one (assumption 30). -/
def State.wrSubCfg (i : Nat) (v : Word) (s : State) : State :=
  s.wrCodes (rNET_SUB_CFG i) (keepRange (s.rd (rNET_SUB_CFG i)) fNET_SUB_CFG_MAX_FRAME 1518 9216 v) []

/-- Bytes of a frame replaced from byte `o` on. -/
def putAt (f : List Byte) (o : Nat) (bs : List Byte) : List Byte := f.take o ++ bs ++ f.drop (o + bs.length)

/-- The UDP checksum of a frame filled in; a computed 0 is sent as 0xFFFF. -/
def fillSum (f : List Byte) : List Byte :=
  match udpOf f with
  | none => f
  | some u =>
    let g := putAt f (u.o + 6) [0, 0]
    let c := 65535 - udpSum g u
    putAt g (u.o + 6) (beBytes 2 (if c = 0 then 65535 else c))

/-- PTP time of the present device time and 1/512 tick `fine`: seconds and ns (R465). -/
def State.ptpNow (s : State) (fine : Nat) : Nat × Nat :=
  let fs := (s.time * 512 + fine) * s.tickFs / 512 + s.fld rTBS_ORIGIN_NS fTBS_ORIGIN_NS_NS * 1000000
  ((s.rd rTBS_ORIGIN_S).toNat + fs / 10 ^ 15, fs % 10 ^ 15 / 1000000)

/-- The originTimestamp of a Sync message in a frame, 34 bytes into the PTP message (IEEE 1588-2019), is written. -/
def State.oneStep (s : State) (f : List Byte) (fine : Nat) : List Byte :=
  let u := udpOf f
  let o := match u with
    | some u => u.o + 8
    | none => 14
  let (sec, ns) := s.ptpNow fine
  let g := putAt f (o + 34) (beBytes 6 sec ++ beBytes 4 ns)
  if u.isSome then fillSum g else g

/-- The next descriptor of the exception transmit ring of sub-port `i` is sent, or rejected, and marked DONE: `desc` and `data` are what the
host gives for it and for its frame. One whose read fails is not sent. It ranks as BEST_EFFORT, behind every GUARANTEED and ASSURED avenue
of the sub-port. The stamp is returned where TS asks for one and ONE_STEP does not (R465); otherwise TIME is 0 (assumption 72). -/
def State.exqSend (s : State) (i : Nat) (desc data : HostRead) (fine : Nat) : State :=
  let r := s.rd (rNET_EXQ_TX i)
  let idx := rNET_EXQ_TX_IDX i
  let done := s.fld idx fNET_EXQ_TX_IDX_DONE_IDX
  let lg := fget r fNET_EXQ_TX_LOG2
  if !s.exqWaits i || (s.aveFirst i).any fun e => e.2.1 < 4 then s
  else
    let a := fget r fNET_EXQ_TX_ADDR * 64 + done % 2 ^ lg * 64
    let w1 := leNat (at_ desc.bytes 8 8)
    let len := w1 % 2 ^ 14
    let bad := desc.fail.isSome || data.fail.isSome || len < 60 || 9212 < len
    let mark := fun (t : State) (tm fn : Nat) =>
      (t.hostWrite (a + 8) (leBytes 8 (w1 % 2 ^ 63 + 2 ^ 63) ++ leBytes 8 tm ++ leBytes 8 fn)).addMod idx fNET_EXQ_TX_IDX_DONE_IDX 1
    if bad then mark (s.addSat (rNET_SUB_CNT1 i) fNET_SUB_CNT1_TX_BAD 1) 0 0
    else
      let f := (data.bytes ++ List.replicate (len - data.bytes.length) 0).take len
      let f1 := if w1 / 2 ^ 18 % 2 = 1 then s.oneStep f fine else f
      let f2 := if w1 / 2 ^ 16 % 2 = 1 then fillSum f1 else f1
      let two := w1 / 2 ^ 17 % 2 = 1 && w1 / 2 ^ 18 % 2 = 0
      mark (s.netSend i (.frame i f2)) (if two then s.time else 0) (if two then fine else 0)

end Sys2Proof.Machine
end

