-- ==== Sys2Proof/Machine/Stk.lean ====
section
/-! DEFINITION. The Stoker's command queue, flash containers, keys and fuses, and boot (R499 to R521). -/

namespace Sys2Proof.Machine

/-- The Stoker and security changed. -/
def State.updStk (s : State) (f : Stk → Stk) : State := { s with stk := f s.stk }

/-! ### THERM_ALERT# (R558) -/

/-- Does a sensor or a memory die ask for THERM_ALERT#, or does nothing hold it any longer? -/
def State.thmAlert (s : State) : Bool :=
  (upTo 8).any fun k => (s.fld rTHM_LIMIT fTHM_LIMIT_ALERT : Int) ≤ s.fldS (rTHM_TEMP k) fTHM_TEMP_TEMP
def State.memHot (s : State) : Bool := (upTo 32).any s.dieHot
def State.thmCool (s : State) : Bool :=
  (upTo 8).all fun k => s.fldS (rTHM_TEMP k) fTHM_TEMP_TEMP <
    (s.fld rTHM_LIMIT fTHM_LIMIT_ALERT : Int) - s.fld rTHM_LIMIT fTHM_LIMIT_HYST

/-- ALERT, MEM_HOT and THERM_ALERT# as the conditions now stand. -/
def State.thmPin (s : State) : State :=
  let a := rTHM_STATUS
  let alert := s.thmAlert
  let hot := s.memHot
  let stop := s.flag a fTHM_STATUS_STOPPED
  let s1 := s.setFlds a [(fTHM_STATUS_ALERT, b2n alert), (fTHM_STATUS_MEM_HOT, b2n hot)]
  if s.flag a fTHM_STATUS_PIN then
    if s.thmCool && !hot && !stop then (s1.setFld a fTHM_STATUS_PIN 0).raiseLim 1000000 19 else s1
  else if alert || hot || stop then (s1.setFld a fTHM_STATUS_PIN 1).addSat a fTHM_STATUS_ALERTS 1
  else s1

/-! ### Containers (Tables 23-3 to 23-5) -/

/-- Offset and size of slot B (`b`) or A of Kindling (`kind` 0) or the patch (1). -/
def slotAt (kind : Nat) (b : Bool) : Nat := if kind = 0 then (if b then 0x90000 else 0x10000) else if b then 0x150000 else 0x110000
def slotSize (kind : Nat) : Nat := if kind = 0 then 524288 else 262144

/-- A field of a container header. -/
def hdrAt (h : List Byte) (o n : Nat) : Nat := leNat ((h.drop o).take n)

/-- (SVN, REV) of a header, and whether one is greater than another. -/
def verOf (h : List Byte) : Nat × Nat := (hdrAt h 16 4, hdrAt h 20 4)
def verLess (a b : Nat × Nat) : Bool := a.1 < b.1 || (a.1 == b.1 && a.2 < b.2)

/-- The first code of Table 23-5 from BAD_MAGIC on that rejects a container, 0 when none does: `h` is its header, `get` gives its first
bytes, and `room` is what there is room for. -/
def State.containerCode (s : State) (kind room : Nat) (h : List Byte) (get : Nat → List Byte) : Nat :=
  let len := hdrAt h 8 4
  let plen := hdrAt h 24 4
  let step := s.fld rGLB_ID fGLB_ID_STEPPING
  let key := hdrAt h 28 4
  let all := get len
  let pay := (all.drop 64).take plen
  let floor := if kind = 0 then s.stk.kFloor else s.stk.pFloor
  if hdrAt h 0 4 != (if kind = 0 then 0x4E4B4B48 else 0x54504B48) then 2
  else if hdrAt h 4 2 != 1 || hdrAt h 6 2 != 0 || hdrAt h 44 4 != 0 then 3
  else if hdrAt h 12 2 != 0x4020 || step < hdrAt h 14 1 || hdrAt h 15 1 < step then 4
  else if len != 64 + plen + 96 || room < len || plen % 16 != 0 then 5
  else if (key = 0 && s.flag rGLB_STATUS fGLB_STATUS_SECURE) || (match Config.vendorKey key with
      | none => true
      | some k => !signedBy k (all.take (len - 96)) ((all.drop (len - 96)).take 96)) then 6
  else if hdrAt h 16 4 < floor then 7
  else if kind = 0 then 0
  else if !Config.gcmOk ((h.drop 32).take 12) (h.take 48) pay ((h.drop 48).take 16) then 8
  else if !Config.patchOk pay then 9
  else 0

/-- The code that rejects a slot of the flash; `ok` says that it can be read. -/
def State.slotCode (s : State) (kind : Nat) (b ok : Bool) : Nat :=
  if !ok then 1
  else s.containerCode kind (slotSize kind) (s.flash.read 0xFF (slotAt kind b) 64) fun n => s.flash.read 0xFF (slotAt kind b) n

/-- The header of a slot. -/
def State.slotHdr (s : State) (kind : Nat) (b : Bool) : List Byte := s.flash.read 0xFF (slotAt kind b) 64

/-! ### The queue (R502 to R504) -/

/-- Is the device halted at boot for want of a Kindling, so that only a repair of the flash is taken (R511)? -/
def State.bootHalt (s : State) : Bool := s.glb == 5 && s.fld rSTK_STATUS fSTK_STATUS_STATE == 0

/-- Does the Stoker serve its queue? -/
def State.stkServes (s : State) : Bool := s.fld rSTK_STATUS fSTK_STATUS_STATE == 2 || s.bootHalt

/-- A write to STK_CMD: the arguments are copied, and the command gets a ticket. -/
def State.wrStkCmd (v : Word) (s : State) : State :=
  let code := fget v fSTK_CMD_CMD
  if code = 0 || 8 < code || 16 ≤ s.stk.queue.length || (s.bootHalt && code != 3) then
    s.addSat rSTK_QUEUE fSTK_QUEUE_REFUSED 1
  else
    let t := s.fld rSTK_QUEUE fSTK_QUEUE_NEXT_TICKET
    let s1 := s.updStk fun k => { k with queue := k.queue ++ [⟨t, code, (upTo 4).map fun i => s.rd (rSTK_ARG i), false⟩] }
    ((s1.addMod rSTK_QUEUE fSTK_QUEUE_NEXT_TICKET 1).addMod rSTK_QUEUE fSTK_QUEUE_DEPTH 1).wr (rSTK_RESULT (t % 16))
      (fsets 0 [(fSTK_RESULT_TICKET, t), (fSTK_RESULT_RESULT, 1)])

/-- A Stoker routine has run: the longest interval between its safe points, at most 2,048 cycles, is a free value (R501). -/
def State.safePoint (s : State) : State :=
  s.fresh.2.setFld rSTK_STATUS fSTK_STATUS_MAX_SPAN (max (s.fld rSTK_STATUS fSTK_STATUS_MAX_SPAN) (Config.stkSpan s.fresh.1 % 2049))

/-- Command `t` ends with its outcome, REASON and DETAIL. -/
def State.stkEnd (s : State) (t result reason detail : Nat) : State :=
  let s1 := (s.safePoint.updStk fun k => { k with queue := k.queue.filter fun c => c.ticket != t }).wr (rSTK_RESULT (t % 16))
    (fsets 0 [(fSTK_RESULT_TICKET, t), (fSTK_RESULT_RESULT, result), (fSTK_RESULT_REASON, reason), (fSTK_RESULT_DETAIL, detail)])
  (s1.setFlds rSTK_QUEUE [(fSTK_QUEUE_DONE_TICKET, t), (fSTK_QUEUE_DEPTH, s.fld rSTK_QUEUE fSTK_QUEUE_DEPTH - 1)]).raise
    (if result = 3 then 976 else 977)

def State.stkDone (s : State) (c : StkCmd) (detail : Nat) : State := s.stkEnd c.ticket 3 0 detail
def State.stkFailed (s : State) (c : StkCmd) (reason detail : Nat) : State := s.stkEnd c.ticket 4 reason detail
def State.stkRefused (s : State) (c : StkCmd) (reason : Nat) : State := s.stkEnd c.ticket 5 reason 0

/-- The command at the head of the queue starts and goes on past this step. -/
def State.stkRunning (s : State) (c : StkCmd) : State :=
  (s.updStk fun k => { k with queue := k.queue.map fun e => if e.ticket = c.ticket then { e with run := true } else e }).setFld
    (rSTK_RESULT (c.ticket % 16)) fSTK_RESULT_RESULT 2

/-- The head of the queue runs as `f` says, when it is a command of code `code` and the Stoker serves it. -/
def State.stkRun (s : State) (code : Nat) (f : StkCmd → State) : State :=
  match s.stk.queue with
  | c :: _ => if c.code = code && s.stkServes then f c else s
  | [] => s

/-- A write to STK_CANCEL. -/
def State.wrStkCancel (v : Word) (s : State) : State :=
  let s1 := s.wrCodes rSTK_CANCEL v [fSTK_CANCEL_GO]
  let t := fget v fSTK_CANCEL_TICKET
  if fget v fSTK_CANCEL_GO = 1 && s1.stk.queue.any (fun c => c.ticket == t && !c.run) then s1.stkEnd t 6 0 0 else s1

/-- Argument `i` of a command. -/
def StkCmd.arg (c : StkCmd) (i : Nat) : Nat := (c.args.getD i 0).toNat

/-! ### The commands (Table 23-1) -/

/-- NOP. -/
def State.stkNop (s : State) : State := s.stkRun 1 fun c => s.stkDone c 0

/-- Is a store write under way, for which a flash command waits (R505)? -/
def State.storing (s : State) : Bool := s.calState == 2

/-- FLASH_READ. -/
def State.stkFlashRead (s : State) : State :=
  s.stkRun 2 fun c =>
    if s.storing then s
    else
      let o := c.arg 0
      let n := c.arg 2
      if o % 64 != 0 || c.arg 1 % 64 != 0 || n % 64 != 0 || 2 ^ 24 < o + n then s.stkRefused c 1
      else if !s.busOk then s.stkFailed c 6 0
      else (s.hostWrite (c.arg 1) (s.flash.read 0xFF o n)).stkDone c n

/-- The slot that FLASH_UPDATE programs: the one not loaded at this boot; with none loaded, B under BOOTSEL 2 and A otherwise. -/
def State.updateSlot (s : State) (kind : Nat) : Bool :=
  if kind = 0 then
    if s.bootHalt then s.fld rSEC_STATUS fSEC_STATUS_BOOTSEL = 2 else s.fld rSEC_STATUS fSEC_STATUS_KSLOT = 0
  else s.fld rSEC_STATUS fSEC_STATUS_PSLOT = 1

/-- What FLASH_UPDATE wrote of an image before its commit point: every byte except MAGIC. -/
def imageBody (img : List Byte) (n : Nat) : List Byte := List.replicate 4 0xFF ++ (img.take n).drop 4

/-- A store write that was accepted while a flash command ran starts now (R505). -/
def State.storeResume (s : State) : State := if s.storing && s.cal.image.isEmpty then s.storeBegin else s

/-- FLASH_UPDATE (R508): it begins with the image that host memory gives, which is checked and programmed without MAGIC, and ends, in a
second step, with MAGIC; `ok` says that the read-back matches. -/
def State.stkFlashUpdate (s : State) (img : HostRead) (ok : Bool) : State :=
  s.stkRun 3 fun c =>
    let kind := c.arg 0
    let n := c.arg 2
    if c.run then
      let a := slotAt kind (s.updateSlot kind)
      let magic := leBytes 4 (if kind = 0 then 0x4E4B4B48 else 0x54504B48)
      (if ok then (s.flashWrite a magic).stkDone c n else s.stkFailed c 8 0).storeResume
    else if s.storing then s
    else if 1 < kind || slotSize kind < n || (s.bootHalt && kind != 0) then s.stkRefused c 1
    else if img.fail.isSome || !s.busOk then s.stkFailed c 6 0
    else
      let bs := (img.bytes ++ List.replicate (n - img.bytes.length) 0).take n
      let code := s.containerCode kind n (bs.take 64) fun k => bs.take k
      let old := (s.fld rSEC_SVN (if kind = 0 then fSEC_SVN_K_SVN else fSEC_SVN_P_SVN),
        s.fld rSEC_REV (if kind = 0 then fSEC_REV_K_REV else fSEC_REV_P_REV))
      if code != 0 then s.stkFailed c 7 code
      else if !verLess old (verOf bs) then s.stkRefused c 4
      else
        let a := slotAt kind (s.updateSlot kind)
        ((s.flashErase a (slotSize kind)).flashWrite a (imageBody bs n)).stkRunning c

/-- CAL_STORE: it waits for a store write under way, is refused while a run is under way or the flash is worn, and otherwise starts the
store write whose end ends it. -/
def State.stkCalStore (s : State) : State :=
  s.stkRun 4 fun c =>
    if c.run || s.storing then s
    else if s.calState != 0 then s.stkRefused c 2
    else
      let s1 := s.storeAsk
      if s1.storing then s1.stkRunning c else s1.stkRefused c 0

/-- The end of a calibration-store write, with measurement 5 and the CAL_STORE command that started it; it cannot end before every core's
slices are captured. -/
def State.calStoreEnd (s : State) (ok : Bool) : State :=
  let s := s.cal.await.foldl (fun (t : State) n => if (t.core n).phase = .off then t.storeCapture n else t) s
  if s.storing && !s.cal.image.isEmpty && s.cal.await.isEmpty then
    let s1 := s.storeEnd ok
    let s2 := if ok then s1.measure 5 (Config.sha384 s.cal.image) else s1
    match s2.stk.queue with
    | c :: _ => if c.code = 4 && c.run then (if ok then s2.stkDone c 0 else s2.stkFailed c 8 0) else s2
    | [] => s2
  else s

/-- The 96 bytes of a key. -/
def keyBytes (k : Nat) : List Byte := leBytes 96 k

/-- The bytes of measurement 6, in the order Table 23-7 names them; their layout is not published. -/
def State.fuseBytes (s : State) : List Byte :=
  leBytes 1 (s.fld rSEC_STATUS fSEC_STATUS_SECURE) ++ leBytes 1 (b2n s.stk.armed) ++ leBytes 1 s.stk.kFloor ++ leBytes 1 s.stk.pFloor
    ++ leBytes 1 (s.fld rSEC_STATUS fSEC_STATUS_BOOTSEL) ++ leBytes 48 (s.stk.keyHash.getD 0)

/-- Measurement 6 after a fusing command. -/
def State.measureFuses (s : State) : State := s.measure 6 (Config.sha384 s.fuseBytes)

/-- The registers that show fuses and the provisioning area. -/
def State.fuseRegs (s : State) : State :=
  let s1 := s.setFlds rSEC_STATUS [(fSEC_STATUS_KEY_LOCKED, b2n s.stk.keyHash.isSome), (fSEC_STATUS_KEY_PROV, b2n s.stk.key.isSome),
    (fSEC_STATUS_SECURE_ARMED, b2n s.stk.armed)]
  let s2 := s1.setFlds rSEC_SVN [(fSEC_SVN_K_FLOOR, s.stk.kFloor), (fSEC_SVN_P_FLOOR, s.stk.pFloor)]
  (upTo 6).foldl (fun (t : State) k =>
    t.wr (rSEC_PLANKEY_HASH k) (BitVec.ofNat 64 (s.stk.keyHash.getD 0 / 2 ^ (64 * k)))) s2

/-- KEY_PROVISION: `data` is the key that host memory gives, `ok` that the flash takes it. -/
def State.stkKeyProvision (s : State) (data : HostRead) (ok : Bool) : State :=
  s.stkRun 5 fun c =>
    if s.storing then s
    else if s.stk.keyHash.isSome then s.stkRefused c 3
    else if data.fail.isSome || !s.busOk then s.stkFailed c 6 0
    else if !ok then s.stkFailed c 8 0
    else ((s.updStk fun k => { k with key := some (leNat (data.bytes.take 96)) }).fuseRegs).stkDone c 96

/-- KEY_LOCK; a lock that is made already ends DONE without fusing. -/
def State.stkKeyLock (s : State) (ok : Bool) : State :=
  s.stkRun 6 fun c =>
    match s.stk.key with
    | none => s.stkRefused c 5
    | some k =>
      if s.stk.keyHash.isSome then s.stkDone c 0
      else if !ok then s.stkFailed c 9 0
      else (((s.updStk fun q => { q with keyHash := some (Config.sha384 (keyBytes k)) }).fuseRegs).measureFuses).stkDone c 0

/-- SVN_COMMIT. -/
def State.stkSvnCommit (s : State) (ok : Bool) : State :=
  s.stkRun 7 fun c =>
    if 1 < c.arg 0 then s.stkRefused c 1
    else
      let kind := c.arg 0
      let svn := s.fld rSEC_SVN (if kind = 0 then fSEC_SVN_K_SVN else fSEC_SVN_P_SVN)
      let floor := if kind = 0 then s.stk.kFloor else s.stk.pFloor
      if svn ≤ floor then s.stkDone c 0
      else if !ok then s.stkFailed c 9 0
      else
        let s1 := s.updStk fun k => if kind = 0 then { k with kFloor := svn } else { k with pFloor := svn }
        (s1.fuseRegs.measureFuses).stkDone c 0

/-- SECURE_ENABLE. -/
def State.stkSecureEnable (s : State) (ok : Bool) : State :=
  s.stkRun 8 fun c =>
    if s.stk.keyHash.isNone then s.stkRefused c 5
    else if s.stk.armed then s.stkDone c 0
    else if !ok then s.stkFailed c 9 0
    else (((s.updStk fun k => { k with armed := true }).fuseRegs).measureFuses).stkDone c 0

/-! ### Boot (Table 23-6) -/

/-- Boot goes on to step `n`. -/
def State.bootTo (s : State) (n : Nat) : State := s.updStk fun k => { k with step := n }

/-- Boot ends HALTED with a cause. -/
def State.bootStop (s : State) (cause : Nat) : State := (s.bootTo 0).haltWith cause

/-- The slots of a kind in the order boot tries them (R508, R509). -/
def State.slotOrder (s : State) (kind : Nat) : List Bool :=
  let bs := s.fld rSEC_STATUS fSEC_STATUS_BOOTSEL
  if kind = 0 && bs = 1 then [false]
  else if kind = 0 && bs = 2 then [true]
  else if verLess (verOf (s.slotHdr kind false)) (verOf (s.slotHdr kind true)) then [true, false]
  else [false, true]

/-- Tries slots in order: the slot taken, if any, and the code of the last one rejected; `readable` says which can be read. -/
def State.trySlots (s : State) (kind : Nat) (readable : Bool → Bool) : List Bool → Nat → Option Bool × Nat
  | [], code => (none, code)
  | b :: t, code =>
    match s.slotCode kind b (readable b) with
    | 0 => (some b, code)
    | k + 1 => State.trySlots s kind readable t (k + 1)

/-- A second slot was booted (R508). -/
def State.fallback (s : State) : State := (s.setFld rSEC_STATUS fSEC_STATUS_FALLBACK 1).raise 983

/-- Step 1 ends: REFIN measured, with the nearest legal frequency and whether it matched one (R42). DESIGN CHOICE (assumption 63): REF_OK first rises
here, when it matched one. -/
def State.bootRef (s : State) (e : BootEnd) : State :=
  let hot := (upTo 8).any fun k => (s.fld rTHM_LIMIT fTHM_LIMIT_CRIT : Int) ≤ s.fldS (rTHM_TEMP k) fTHM_TEMP_TEMP
  let s1 := s.setFlds rCLK_REF [(fCLK_REF_FREQ, e.freq.val), (fCLK_REF_DETECT_ERR, b2n !e.match_)]
  let s2 := s1.setFld rCLK_STATUS fCLK_STATUS_REF_OK (b2n e.match_)
  if hot then ((s2.setFld rTHM_STATUS fTHM_STATUS_STOPPED 1).thmPin).bootStop 3 else s2.bootTo 2

/-- Step 2 ends: a Kindling slot is loaded, or the device halts (R509, R511). -/
def State.bootKindling (s : State) (e : BootEnd) : State :=
  let order := s.slotOrder 0
  let (slot, code) := s.trySlots 0 (fun b => if b then e.readB else e.readA) order 0
  let s1 := s.setFld rSEC_STATUS fSEC_STATUS_KIND_REASON code
  match slot with
  | none => s1.bootStop 1
  | some b =>
    if s.fld rSEC_STATUS fSEC_STATUS_BOOTSEL = 3 then s1.bootStop 1
    else
      let h := s.slotHdr 0 b
      let s2 := (s1.setFld rSEC_STATUS fSEC_STATUS_KSLOT (b2n b)).setFld rSEC_SVN fSEC_SVN_K_SVN (hdrAt h 16 4)
      let s3 := (s2.setFld rSEC_REV fSEC_REV_K_REV (hdrAt h 20 4)).setFld rSTK_STATUS fSTK_STATUS_STATE 1
      let s4 := s3.onStk fun z => { z with meas := SMap.set 0 z.meas 2 (Config.sha384 (s.flash.read 0xFF (slotAt 0 b) (hdrAt h 8 4))) }
      let s5 := if order.head? = some b then s4 else s4.fallback
      (s5.setFld rCLK_STATUS fCLK_STATUS_MPLL_STATE 1).bootTo 3

/-- Step 3 ends: both synthesizers locked at 20.000 GHz, or the device halts (R45, R511). -/
def State.bootLock (s : State) (e : BootEnd) : State :=
  if !e.ok then s.bootStop 1
  else
    let n := match s.fld rCLK_REF fCLK_REF_FREQ with
      | 0 => 2000
      | 1 => 200
      | _ => 128
    let s1 := (s.setFld rCLK_REF fCLK_REF_LOCK 1).setFlds rCLK_MPLL [(fCLK_MPLL_N, n), (fCLK_MPLL_FRAC, 0)]
    let s2 := s1.setFlds rCLK_STATUS [(fCLK_STATUS_MPLL_STATE, 2), (fCLK_STATUS_LPLL_LOCK, 1), (fCLK_STATUS_CCLK_FALLBACK, 0),
      (fCLK_STATUS_FALLBACK_RING, 0)]
    ((s2.setFlds rGLB_STATUS [(fGLB_STATUS_MPLL_LOCK, 1), (fGLB_STATUS_LPLL_LOCK, 1)]).updClk fun c =>
      { c with word := n * 2 ^ 32, prev := n * 2 ^ 32, target := n * 2 ^ 32 }).bootTo 4

/-- Block `i` of the boot measurements is formed. -/
def State.formMeas (s : State) (i v : Nat) : State := s.onStk fun z => { z with meas := SMap.set 0 z.meas i v }

/-- The reason a patch slot was rejected for, and one event per rejected slot. -/
def State.patchRejects (s : State) (code n : Nat) : State :=
  (List.range n).foldl (fun (t : State) _ => t.raise 978) (s.setFld rSEC_STATUS fSEC_STATUS_PATCH_REASON code)

/-- The patch of slot `b` is loaded; `back` says that the other slot was rejected before. -/
def State.patchLoad (s : State) (b back : Bool) : State :=
  let h := s.slotHdr 1 b
  let s2 := (s.setFld rSEC_STATUS fSEC_STATUS_PSLOT (if b then 2 else 1)).setFld rSEC_SVN fSEC_SVN_P_SVN (hdrAt h 16 4)
  let s3 := (s2.setFld rSEC_REV fSEC_REV_P_REV (hdrAt h 20 4)).formMeas 3 (Config.sha384 (s.flash.read 0xFF (slotAt 1 b) (hdrAt h 8 4)))
  if back then s3.fallback else s3

/-- Step 4 ends: a patch slot is loaded, or the ROM microcode runs alone (R511). -/
def State.bootPatch (s : State) (e : BootEnd) : State :=
  let order := s.slotOrder 1
  let (slot, code) := s.trySlots 1 (fun b => if b then e.readB else e.readA) order 0
  let rejected := match slot with
    | none => order.length
    | some b => if order.head? = some b then 0 else 1
  let s1 := s.patchRejects code rejected
  let s2 := match slot with
    | none => (s1.formMeas 3 (Config.sha384 [])).raise 979
    | some b => s1.patchLoad b (rejected != 0)
  (s2.setFld rGLB_STATUS fGLB_STATUS_STATE 2).bootTo 5

/-- Step 5 ends: memory training; TRAINED sets for the channels that pass and FAILED for the others (R388). -/
def State.bootTrain (s : State) (e : BootEnd) : State :=
  let bad := e.failed.map fun ch => ch.val
  let s1 := (upTo 32).foldl (fun (t : State) ch =>
    t.setFld (rMEM_CH_STATUS ch) (if bad.contains ch then fMEM_CH_STATUS_FAILED else fMEM_CH_STATUS_TRAINED) 1) s
  if bad.isEmpty then s1.bootTo 6 else (s1.raise 709).bootStop 2

/-- Step 8 ends: measurements formed, of which boot changes blocks 2, 3, 5 and 6 (Table 23-7), background calibration on (R88), READY; BOOT_MS saturates (R23). -/
def State.bootReady (s : State) (ms : Nat) : State :=
  let src := s.fld rCAL_STORE fCAL_STORE_SOURCE
  let s1 := (s.formMeas 1 Config.bootRomHash).formMeas 4 (Config.sha384 [])
  let s2 := (s1.formMeas 5 (Config.sha384 (if src = 3 then [] else s1.calCopy src))).formMeas 6 (Config.sha384 s1.fuseBytes)
  let s3 := [2, 3, 5, 6].foldl (fun (t : State) i => t.measure i (SMap.get 0 t.stk.meas i)) s2
  let s4 := (upTo 4).foldl (fun (t : State) n => let t1 := t.setFld (rCNV_BG n) fCNV_BG_EN 1
    if (t1.core n).frozen then t1.setHold n true 5 else t1.bgStart n) s3
  (((s4.setFlds rGLB_STATUS [(fGLB_STATUS_STATE, 3), (fGLB_STATUS_BOOT_MS, satN 16 ms)]).setFld rSTK_STATUS fSTK_STATUS_STATE 2).bootTo 0).raise 0

/-- The boot step under way ends. -/
def State.bootStep (s : State) (e : BootEnd) : State :=
  let s1 := s.updStk fun k => { k with ms := e.ms }
  match s.stk.step with
  | 1 => s1.bootRef e
  | 2 => s1.bootKindling e
  | 3 => s1.bootLock e
  | 4 => s1.bootPatch e
  | 5 => s1.bootTrain e
  | 6 => ((s1.storeClear.onBadLines fun _ => []).setFld rGLB_STATUS fGLB_STATUS_STORE_READY 1).bootTo 7
  | 7 => s1.calLoad.bootTo 8
  | 8 => s1.bootReady e.ms
  | _ => s

end Sys2Proof.Machine
end

