-- ==== Sys2Proof/Machine/Pkg.lean ====
section
/-! DEFINITION. Power, thermal, standby and self-refresh, reset pins, and the test access port (R544 to R565). -/

namespace Sys2Proof.Machine

/-- Pins and test access changed. -/
def State.updPkg (s : State) (f : Pkg → Pkg) : State := { s with pkg := f s.pkg }

/-! ### Rails (R545, R564) -/

/-- Rail `r` is measured at `mv` (0.1 mV) below nominal − 3 %, or above nominal + 3 %. -/
def State.railLow (s : State) (r mv : Nat) : State :=
  let a := rPWR_RAIL r
  let s1 := s.setFlds a [(fPWR_RAIL_LOW, 1), (fPWR_RAIL_MV, mv)]
  if s.flag a fPWR_RAIL_LOW then s1 else s1.raiseLim 1000000 16 (some r) 0 0 r
def State.railHigh (s : State) (r mv : Nat) : State :=
  let a := rPWR_RAIL r
  let s1 := s.setFlds a [(fPWR_RAIL_HIGH, 1), (fPWR_RAIL_MV, mv)]
  if s.flag a fPWR_RAIL_HIGH then s1 else s1.raiseLim 1000000 17 (some r) 0 0 r

/-! ### Thermal (R558 to R560) -/

/-- The thermal stop (R560), caused by sensor `k`. -/
def State.thermalStop (s : State) (k : Nat) : State :=
  let s1 := s.raiseLim 1000000 20 (some k) 0 0 k
  let s2 := (upTo 16).foldl (fun (t : State) i => t.netDown i) s1
  let s3 := (upTo 2).foldl (fun (t : State) n =>
    (t.setFlds (rDIS_LINK n) [(fDIS_LINK_TRAINED, 0), (fDIS_LINK_LANES, 0)]).setDisState n 0) s2
  let s4 := (upTo 4).foldl (fun (t : State) n => t.updCore n fun c => { c with phase := .off }) s3
  let s5 := if s4.selfRefresh then s4 else (s4.setFld rPWR_CTRL fPWR_CTRL_SR 1).raise 22
  ((s5.setFld rTHM_STATUS fTHM_STATUS_STOPPED 1).haltWith 3).thmPin

/-- Sensor `k` reads `temp`. -/
def State.sensor (s : State) (k : Nat) (temp : Int) : State :=
  let a := rTHM_TEMP k
  let old := s.fldS a fTHM_TEMP_TEMP
  let lim : Int := s.fld rTHM_LIMIT fTHM_LIMIT_ALERT
  let s1 := s.setFlds a [(fTHM_TEMP_TEMP, ofSigned 16 temp), (fTHM_TEMP_MAX, ofSigned 16 (max temp (s.fldS a fTHM_TEMP_MAX)))]
  let s2 := if lim ≤ temp && old < lim then s1.raiseLim 1000000 18 (some k) 0 0 k else s1
  let s3 := if temp < -880 then s2.raiseLim 1000000 21 (some k) 0 0 k else s2
  if k < 4 then s3.calDueTemp k else s3

/-- Temperatures are taken into THM_TEMP. -/
def State.thmSense (s : State) (temps : List Int) : State :=
  (temps.zipIdx.take 8).foldl (fun (t : State) (e : Int × Nat) => t.sensor e.2 e.1) s

/-- Rail voltages and currents are taken into PWR_RAIL, their sum and its peak into PWR_TOTAL. -/
def State.railSense (s : State) (rails : List (Nat × Nat)) : State :=
  let s2 := (rails.zipIdx.take 11).foldl (fun (t : State) (e : (Nat × Nat) × Nat) =>
    t.setFlds (rPWR_RAIL e.2) [(fPWR_RAIL_MV, e.1.1), (fPWR_RAIL_CURRENT, e.1.2)]) s
  let mw := ((rails.take 11).foldl (fun (n : Nat) (e : Nat × Nat) => n + e.1 * e.2) 0) / 1000
  s2.setFlds rPWR_TOTAL [(fPWR_TOTAL_MW, mw), (fPWR_TOTAL_PEAK_MW, max mw (s2.fld rPWR_TOTAL fPWR_TOTAL_PEAK_MW))]

/-- The sensors at CRIT or above. -/
def State.critSensors (s : State) : List Nat :=
  (upTo 8).filter fun k => (s.fld rTHM_LIMIT fTHM_LIMIT_CRIT : Int) ≤ s.fldS (rTHM_TEMP k) fTHM_TEMP_TEMP

/-- The sensors at CRIT of this update; one that was there at the update before stops the device. -/
def State.thmCrit (s : State) (crit : List Nat) : State :=
  let s4 := s.updPkg fun p => { p with crit := crit }
  match crit.find? fun k => s.pkg.crit.contains k with
  | some k => if s4.flag rTHM_STATUS fTHM_STATUS_STOPPED then s4.thmPin else s4.thermalStop k
  | none => s4.thmPin

/-- Every 1 ms: the sensors' temperatures in 1/16 °C and the rails' voltage (0.1 mV) and current (10 mA). -/
def State.thmUpdate (s : State) (temps : List Int) (rails : List (Nat × Nat)) : State :=
  let s3 := (s.thmSense temps).railSense rails
  s3.thmCrit s3.critSensors

/-- A write to THM_LIMIT: a CRIT above 2,160 is discarded. -/
def State.wrThmLimit (v : Word) (s : State) : State :=
  (s.wrCodes rTHM_LIMIT (keepRange (s.rd rTHM_LIMIT) fTHM_LIMIT_CRIT 0 2160 v) []).thmPin

/-! ### Standby and self-refresh (R555, R556) -/

/-- A write to PWR_CTRL. -/
def State.wrPwrCtrl (v : Word) (s : State) : State :=
  let a := rPWR_CTRL
  let ok := !s.planActive && ((upTo 4).all fun n => !s.flag (rCNV_BG n) fCNV_BG_EN) && s.calState == 0
  let ask := fget v fPWR_CTRL_CNV_STBY
  let s1 := s.srExit.setFld a fPWR_CTRL_SR_EN (fget v fPWR_CTRL_SR_EN)
  if ask = 0 then s1.setFld a fPWR_CTRL_CNV_STBY 0
  else if ok then s1.setFld a fPWR_CTRL_CNV_STBY 1
  else s1.addSat a fPWR_CTRL_STBY_DISC 1

/-- The conditions of self-refresh have held for 10 ms. -/
def State.srEnter (s : State) : State :=
  let idle := s.flag rPWR_CTRL fPWR_CTRL_SR_EN && !s.selfRefresh && !s.planActive && (s.ctxs.all fun c => c.2.st == .closed)
    && s.dmaActive == 0 && s.freeBillets == nBillets && !s.flag rMEM_MAP fMEM_MAP_MAP_BUSY && s.flag rGLB_STATUS fGLB_STATUS_STORE_READY
  if idle then (s.setFld rPWR_CTRL fPWR_CTRL_SR 1).raise 22 else s

/-! ### Device reset (R431, R509, R545, R547) -/

/-- What a device reset leaves before the fuses are read. What survives: the commands that wait and what was sent (the model's own),
host memory, the flash (a write in progress has left its target invalid), the fuses, the provisioned key, and the pins. -/
def State.resetCore (s : State) : State :=
  let r := State.reset
  { r with
    pending := s.pending
    outs := s.outs
    readData := s.readData
    hostMem := s.hostMem
    freeCtr := s.freeCtr
    flash := s.flash
    stk := { r.stk with
      key := s.stk.key
      keyHash := s.stk.keyHash
      armed := s.stk.armed
      kFloor := s.stk.kFloor
      pFloor := s.stk.pFloor }
    pkg := { r.pkg with
      porst := s.pkg.porst
      perst := s.pkg.perst
      rail := s.pkg.rail
      bootsel := s.pkg.bootsel
      smbAddr := s.pkg.smbAddr } }

/-- The device enters reset, and its registers show the fuses. -/
def State.deviceReset (s : State) : State :=
  let s2 := s.resetCore.fuseRegs
  (s2.setFld rSEC_STATUS fSEC_STATUS_SECURE (b2n s.stk.armed)).setFld rGLB_STATUS fGLB_STATUS_SECURE (b2n s.stk.armed)

/-- PORST#, PERST# or the loss of a rail asserts the reset. -/
def State.resetAssert (s : State) (p : ResetPin) : State :=
  let s1 := s.deviceReset
  match p with
  | .porst => s1.updPkg fun k => { k with porst := true }
  | .perst => s1.updPkg fun k => { k with perst := true }
  | .rail => s1.updPkg fun k => { k with rail := true }

/-- The boot ROM starts, once nothing holds the device in reset any longer. -/
def State.bootBegin (s : State) : State :=
  if s.pkg.porst || s.pkg.perst || s.pkg.rail || s.glb != 0 then s
  else
    ((s.setFld rGLB_STATUS fGLB_STATUS_STATE 1).setFld rSEC_STATUS fSEC_STATUS_BOOTSEL s.pkg.bootsel).setFld rMGT_SMB fMGT_SMB_ADDR
      (0x58 + s.pkg.smbAddr) |>.bootTo 1

/-- A reset pin is released; PORST# samples the straps. -/
def State.resetRelease (s : State) (p : ResetPin) (bootsel smbAddr : Nat) : State :=
  match p with
  | .porst => (s.updPkg fun k => { k with porst := false, bootsel := bootsel % 4, smbAddr := smbAddr % 8 }).bootBegin
  | .perst => (s.updPkg fun k => { k with perst := false }).bootBegin
  | .rail => s

/-- Every rail is above 90 % of nominal; `within` says that rail `r` is back within 3 %. A reset the device held itself in ends as
a release of PORST# does, with the straps sampled before. -/
def State.railRecovered (s : State) (r : Nat) (within : Bool) : State :=
  let s1 := if within then s.setFlds (rPWR_RAIL r) [(fPWR_RAIL_LOW, 0), (fPWR_RAIL_HIGH, 0)] else s
  if s1.pkg.rail then (s1.updPkg fun k => { k with rail := false }).bootBegin else s1

/-! ### Test access port (R563) -/

/-- A JTAG instruction is loaded. -/
def State.tapIr (s : State) (code : Nat) : State := s.updPkg fun p => { p with ir := code }

/-- The bits of the identification register, bit 0 first. -/
def State.idBits (s : State) : List Bool :=
  (upTo 32).map fun i => s.fld rMGT_IDCODE fMGT_IDCODE_IDCODE / 2 ^ i % 2 == 1

/-- JTAG takes the balls from the device. -/
def State.tapTake (s : State) : State := s.updPkg fun p => { p with taken := true }

/-- The boundary register holds `bits`, 1,042 of them. -/
def State.tapCells (s : State) (bits : List Bool) : State :=
  s.updPkg fun p => { p with cells := (bits ++ List.replicate 1042 false).take 1042 }

end Sys2Proof.Machine
end

