-- ==== Sys2Proof/Machine/StoreCmds.lean ====
section
/-! DEFINITION. The commands of chapters 15 and 16. -/

namespace Sys2Proof.Machine

/-- RECORD_ARRIVAL: the next record at store port `p` (R344, R345, R349, R372). -/
def execRecordArrival (p : Fin 16) (s : State) : Res := .next (s.arrive p)

/-- POLICING_CREDIT_RESUME: the bucket of context `x` holds the withheld record's size (R372). -/
def execPolicingCreditResume (x : Fin 4096) (s : State) : Res := .next (s.retryCtx x 1)

/-- OVERFLOW_STALL_RESUME: a billet has become available to a stalled context (R345). -/
def execOverflowStallResume (x : Fin 4096) (s : State) : Res := .next (s.retryCtx x 2)

/-- FAULT_RECORD_DEFERRED: FAULT records held for context `x` are written (R36). -/
def execFaultRecordDeferred (x : Fin 4096) (s : State) : Res :=
  .next ((State.putHeld (s.ctx x).faults.length s x).closeIfDrained x)

/-- STO_TAKE: STO_CMD written 1 (R343). -/
def execStoTake (s : State) : Res := .next (s.write64 .host rSTO_CMD (State.wrStoCmd 1))
/-- STO_FREE: STO_CMD written 2 (R343). -/
def execStoFree (s : State) : Res := .next (s.write64 .host rSTO_CMD (State.wrStoCmd 2))
/-- STO_FLUSH: STO_CMD written 3 (R350). -/
def execStoFlush (s : State) : Res := .next (s.write64 .host rSTO_CMD (State.wrStoCmd 3))
/-- STO_DISCARD: STO_CMD written 4 (R350). -/
def execStoDiscard (s : State) : Res := .next (s.write64 .host rSTO_CMD (State.wrStoCmd 4))
/-- STO_QUERY: STO_CMD written 5 (R343). -/
def execStoQuery (s : State) : Res := .next (s.write64 .host rSTO_CMD (State.wrStoCmd 5))

/-- STO_CSNAP: STO_CSNAP written with SNAP 1 (R358). -/
def execStoCsnap (v : Word) (s : State) : Res :=
  .next (s.write64 .host rSTO_CSNAP (State.wrStoCsnap (fset v fSTO_CSNAP_SNAP 1)))

/-- BIAS_SWITCH_DONE: the switch of billet `b` completes (R351, R422). -/
def execBiasSwitchDone (b : Fin 1835008) (s : State) : Res := .next (s.biasDone b)

/-- ZC_FLUSH_TIMER: the tail billet of context `x` holds unpublished records older than ZC_FLUSH_US (R351). -/
def execZcFlushTimer (x : Fin 4096) (s : State) : Res := .next (s.zcFlush x)

/-- ADM_OPEN: ADM_CMD written 1 (R364). -/
def execAdmOpen (s : State) : Res := .next (s.write64 .host rADM_CMD (State.wrAdmCmd 1))
/-- ADM_CLOSE: ADM_CMD written 2 (R364). -/
def execAdmClose (s : State) : Res := .next (s.write64 .host rADM_CMD (State.wrAdmCmd 2))
/-- ADM_TEST: ADM_CMD written 3 (R364). -/
def execAdmTest (s : State) : Res := .next (s.write64 .host rADM_CMD (State.wrAdmCmd 3))

/-- ADM_SNAP: ADM_SNAP written with SNAP 1 (R376). -/
def execAdmSnap (v : Word) (s : State) : Res :=
  .next (s.write64 .host rADM_SNAP (State.wrAdmSnap (fset v fADM_SNAP_SNAP 1)))

/-- DEADLINE_MISS: device time reaches the next deadline of context `x` at destination `d` (R370, R371). -/
def execDeadlineMiss (x : Fin 4096) (d : Fin 4) (s : State) : Res := .next (s.deadlineMiss x d)

end Sys2Proof.Machine
end

