-- ==== Sys2Proof/Machine/RegWrite.lean ====
section
/-! DEFINITION. Accesses to the address spaces of the function: what a write to a register does and what a read returns, the 32-bit
halves, the memory windows of the Turf cores, reserved addresses, and the SMBus path (R3 to R9, R26, R306, R427, R561, R562). -/

namespace Sys2Proof.Machine

/-! ### What a register write does -/

/-- The fields whose range a chapter gives without saying what a value outside it does: the field keeps its old value (assumption 30). -/
def regRanges (id : RegId) : List (Fld × Nat × Nat) :=
  match id with
  | .CLK_REF => [(fCLK_REF_LOSS_EDGES, 2, 255), (fCLK_REF_FREQ, 0, 2)]
  | .CLK_MPLL => [(fCLK_MPLL_BW, 0, 2)]
  | .CLK_LOCK => [(fCLK_LOCK_TIMEOUT, 1, 255), (fCLK_LOCK_CNT, 16, 65535), (fCLK_LOCK_WIN, 2, 1000)]
  | .CLK_PIX => [(fCLK_PIX_DIV, 16, 400)]
  | .CNV_BG => [(fCNV_BG_WIN, 16, 24), (fCNV_BG_COH_BW, 1, 255), (fCNV_BG_HO_TOL, 1, 255), (fCNV_BG_MIN_LEVEL, 176, 246)]
  | .MON_CFG => [(fMON_CFG_SAMPLE_US, 1, 1023), (fMON_CFG_CLEAR_US, 1, 65535)]
  | .PG_CFG => [(fPG_CFG_MODE, 0, 3)]
  | .PG_TIMING => [(fPG_TIMING_PERIOD, 2, 2 ^ 32 - 1), (fPG_TIMING_WIDTH, 1, 2 ^ 32 - 1)]
  | .TBS_ORIGIN_NS => [(fTBS_ORIGIN_NS_NS, 0, 999999999)]
  | .TBS_SERVO => [(fTBS_SERVO_BW, 0, 2), (fTBS_SERVO_HOST_TIMEOUT, 1, 255), (fTBS_SERVO_MISS, 1, 255),
      (fTBS_SERVO_LOCK_CNT, 1, 255), (fTBS_SERVO_LOCK_NS, 1, 65535), (fTBS_SERVO_PPS_CH, 0, 11), (fTBS_SERVO_SOURCE, 0, 4)]
  | .TDC_CH => [(fTDC_CH_SLOPE, 0, 2)]
  | .TDC_CTRL => [(fTDC_CTRL_FLUSH_US, 1, 65535)]
  | .TDC_FREQ_CFG => [(fTDC_FREQ_CFG_CHANNEL, 0, 11), (fTDC_FREQ_CFG_GATE, 16, 2 ^ 32 - 1)]
  | .CAL_POLICY => [(fCAL_POLICY_DELTA_T, 1, 65535), (fCAL_POLICY_MAX_STEP, 1, 255)]
  | .TC_TIMER => [(fTC_TIMER_PERIOD, 16, 2 ^ 32 - 1)]
  | .MEM_REFRESH => [(fMEM_REFRESH_POLL_MS, 1, 16), (fMEM_REFRESH_POSTPONE_MAX, 0, 8)]
  | .MEM_RETRAIN => [(fMEM_RETRAIN_PERIOD_MS, 1000, 60000)]
  | .MEM_SCRUB => [(fMEM_SCRUB_HOURS, 1, 255)]
  | _ => []

/-- A written word with the fields of `regRanges` kept where they lie outside their range; the thresholds of the monitors (R98) and of the
time inputs (Table 6-2) and WIDTH, which lies below PERIOD (Table 5-2), have ranges that depend on more than the field. -/
def inRange (id : RegId) (m : Nat) (old v : Word) : Word :=
  let w := (regRanges id).foldl (fun w r => keepRange old r.1 r.2.1 r.2.2 w) v
  match id with
  | .MON_CFG => let top := if m < 4 then 1000 else 1800
    keepRange old fMON_CFG_HI 0 top (keepRange old fMON_CFG_LO 0 top w)
  | .TDC_CH =>
    let t := fgetS w fTDC_CH_THRESH
    if t < -1250 || 2500 < t then fset w fTDC_CH_THRESH (fget old fTDC_CH_THRESH) else w
  | .PG_TIMING => if fget w fPG_TIMING_WIDTH < fget w fPG_TIMING_PERIOD then w else old
  | _ => w

/-- A write of a structural field while a plan is active is discarded and counted (R175). -/
def State.structWr (s : State) : State := s.addSat rPLAN_STATUS fPLAN_STATUS_STRUCT_WR 1

/-- A write to a register all of whose fields are structural: the registers carry them read-only, and one made while a plan is active is
counted (R175). -/
def State.wrStruct (s : State) : State := if s.planActive then s.structWr else s

/-- A write to GLB_DEVID: DEVID keeps its value once locked or while a plan is active, and LOCK takes effect after the write that sets
it (R5, R23, R24). -/
def State.wrDevid (v : Word) (s : State) : State :=
  let old := s.rd rGLB_DEVID
  let v1 := if s.flag rGLB_DEVID fGLB_DEVID_LOCK || s.planActive then fset v fGLB_DEVID_DEVID (fget old fGLB_DEVID_DEVID) else v
  s.wrCodes rGLB_DEVID v1 []

/-- A write to CLK_REF: FREQ keeps its value once locked (R5). -/
def State.wrClkRef (v : Word) (s : State) : State :=
  let old := s.rd rCLK_REF
  s.wrCodes rCLK_REF (if s.flag rCLK_REF fCLK_REF_LOCK then fset v fCLK_REF_FREQ (fget old fCLK_REF_FREQ) else v) []

/-- A write to TDC_CH[c]: its binding of the channel is structural (R568), so that the write of these fields is discarded, and counted while
a plan is active (R175). -/
def State.wrTdcCh (c : Nat) (v : Word) (s : State) : State := s.wrStruct.wrCodes (rTDC_CH c) v []

/-- A write to TDC_FREQ_SNAP. -/
def State.wrFreqSnap (v : Word) (s : State) : State := if fget v fTDC_FREQ_SNAP_SNAP = 1 then s.freqSnap else s

/-- A write to CAL_HIST_SNAP. -/
def State.wrHistSnap (v : Word) (s : State) : State := if fget v fCAL_HIST_SNAP_SNAP = 1 then s.calHistSnap else s

/-- A write to MGT_SMB: LOCK is set only through BAR0 (R562). -/
def State.wrMgtSmb (p : Path) (v : Word) (s : State) : State := if p = .smbus then s else s.wrCodes rMGT_SMB v []

/-- Writes to the registers of the Avenues, the displays and management; any other register goes by its access codes (R5). -/
def State.regAve (p : Path) (id : RegId) (ix : List Nat) (a : Nat) (env : Env) (v : Word) (s : State) : State :=
  let i := ix.getD 0 0
  let j := ix.getD 1 0
  let k := ix.getD 2 0
  match id with
  | .AVE_CFG => s.wrAveClosed i a v
  | .AVE_MAC => s.wrAveClosed i a v
  | .AVE_IP0 => s.wrAveClosed i a v
  | .AVE_IP1 => s.wrAveClosed i a v
  | .AVE_PARAM => s.wrAveParam i v
  | .AVE_CMD => s.wrAveCmd i v
  | .AVE_SNAP => s.wrAveSnap i v
  | .AVE_GLOBAL => s.wrAveGlobal v
  | .AVE_TRIG_SEND => s.wrTrigSend v
  | .DIS_CTRL => s.wrDisCtrl i v
  | .DIS_LINK => s.wrDisLink i v
  | .DIS_AUX => s.wrDisAux i v env.reply
  | .DIS_PAL => s.wrDisPal i j k v
  | .STK_CMD => s.wrStkCmd v
  | .STK_CANCEL => s.wrStkCancel v
  | .EVT_CTRL => s.wrEvtCtrl v
  | .EVT_RING => s.wrEvtRing v
  | .EVT_RING_IDX => s.wrRingIdx v
  | .EVT_SWTEST => s.wrSwtest v
  | .EVT_INJ => s.wrEvtInj v
  | .PWR_CTRL => s.wrPwrCtrl v
  | .THM_LIMIT => s.wrThmLimit v
  | .MGT_SMB => s.wrMgtSmb p v
  | _ => s.wrCodes a v []

/-- Writes to the registers of the store, codec jobs, DMA and the network; then the chapters after them. -/
def State.regSto (p : Path) (id : RegId) (ix : List Nat) (a : Nat) (env : Env) (v : Word) (s : State) : State :=
  let i := ix.getD 0 0
  let j := ix.getD 1 0
  match id with
  | .STO_CMD => s.wrStoCmd v
  | .STO_CSNAP => s.wrStoCsnap v
  | .ADM_CMD => s.wrAdmCmd v
  | .ADM_SNAP => s.wrAdmSnap v
  | .MEM_MAP => s.wrMemMap v
  | .MEM_SCHED => s.wrMemSched v
  | .MEM_UE_SNAP => s.wrMemUeSnap v
  | .CMP_CFG => s.wrStruct
  | .CMP_STREAM => s.wrCmpStream i v
  | .CMP_JOB_CTRL => s.wrCmpJobCtrl i env.pre v
  | .CMP_TAB => if j = 0 then s else s.wrCodes a v []
  | .DMA_CFG => s.wrDmaCfg i v
  | .DMA_CTRL => s.wrDmaCtrl i v
  | .DMA_LIMIT => s.wrDmaLimit i v
  | .NET_PORT_CFG => s.wrPortCfg i v
  | .NET_SUB_CFG => s.wrSubCfg i v
  | .NET_EXQ_RX => s.wrExqRing a v
  | .NET_EXQ_RX_IDX => s.wrExqRxIdx i v
  | .NET_EXQ_TX => s.wrExqRing a v
  | .NET_EXQ_TX_IDX => s.wrExqTxIdx i v
  | _ => State.regAve p id ix a env v s

/-- Writes to the registers of triggers, acquisition and the Turf cores; then the chapters after them. -/
def State.regTrg (p : Path) (id : RegId) (ix : List Nat) (a : Nat) (env : Env) (v : Word) (s : State) : State :=
  let i := ix.getD 0 0
  let j := ix.getD 1 0
  match id with
  | .TRG_SW => s.wrTrgSw v
  | .TRG_TBUS => s.wrTbus i v
  | .TRG_TMR_CFG => s.wrTmrCfg i v
  | .TRG_LT_CFG => s.wrLtCfg i v
  | .TRG_TQ_CFG => s.wrTqCfg i v
  | .TRG_TQ_CHAIN => s.wrTqChain i v
  | .TRG_TQ_AUTO => s.wrTqAuto i v
  | .TRG_TQ_SNAP => s.wrTqSnap i v
  | .TRG_FM_CFG => s.wrFmCfg i v
  | .ACQ_CFG => s.wrStruct
  | .ACQ_CTRL => s.wrAcqCtrl i v
  | .ACQ_LEN => s.wrAcqLen i v
  | .ACQ_SEG => s.wrAcqSeg i v
  | .ACQ_LOG => s.wrAcqLog i v
  | .ACQ_CMD => s.wrAcqCmd i v
  | .ACQ_SNAP => s.wrAcqSnap i v
  | .RMU_SIG => s.wrRmuSig i v
  | .RMU_LEVEL => s.wrRmuLevel i v
  | .TC_CTRL => s.wrTcCtrl i v
  | .TC_SIN => s.wrTcSin i v
  | .TC_MBIN => s.wrMbin i j v
  | .TC_MBIN_CTRL => s.wrMbinCtrl i v
  | .TC_MBOUT_CTRL => s.wrMboutCtrl i v
  | .TCL_IN => s.wrStruct
  | .TCL_OUT => s.wrStruct
  | _ => State.regSto p id ix a env v s

/-- Writes to the registers of plans and the streaming units; then the chapters after them. -/
def State.regStream (p : Path) (id : RegId) (ix : List Nat) (a : Nat) (env : Env) (v : Word) (s : State) : State :=
  let i := ix.getD 0 0
  let j := ix.getD 1 0
  let k := ix.getD 2 0
  match id with
  | .PLAN_CMD => s.wrPlanCmd v
  | .PLAN_PCOMMIT => s.wrPcommit v
  | .DDC_CFG => s.wrStruct
  | .DDC_NCO_FTW => s.wrDdcFtw i v
  | .DDC_NCO_CTRL => s.wrDdcCtrl i v
  | .DDC_SWAP => s.wrDdcSwap i v
  | .DDC_STAGE => s.wrDdcStage i j v
  | .DDC_COEF0 => s.wrDdcCoef0 i j k v
  | .DDC_COEFR => s.wrDdcCoefR i j k (ix.getD 3 0) v
  | .XFM_CFG => s.wrStruct
  | .XFM_BINS => s.wrStruct
  | .XFM_CTRL => s.wrXfmCtrl i v
  | .XFM_TAB_CTRL => s.wrTabCtrl i v
  | .DET_CFG => s.wrStruct
  | .DET_CTRL => s.wrDetCtrl i v
  | .DET_INT => s.wrDetInt i v
  | .DET_ALIGN => s.wrDetAlign i v
  | .DEN_CFG => s.wrStruct
  | .DEN_CTRL => s.wrDenCtrl i v
  | .DEN_INT => s.wrDenInt i v
  | .DEN_ALIGN => s.wrDenAlign i v
  | _ => State.regTrg p id ix a env v s

/-- The effect of writing `v` to a register whose row is `r`, with indices `ix`, at address `a` on path `p`. What its chapter says of the
register comes first; every other register goes by its access codes (R5). -/
def State.regEffect (p : Path) (r : RegRow) (ix : List Nat) (a : Nat) (env : Env) (v0 : Word) (s : State) : State :=
  let i := ix.getD 0 0
  let j := ix.getD 1 0
  let v := inRange r.id i (s.rd a) v0
  match r.id with
  | .GLB_DEVID => s.wrDevid v
  | .GLB_CTRL => s.wrGlbCtrl v
  | .CLK_REF => s.wrClkRef v
  | .CLK_CMD => s.wrClkCmd v
  | .CLK_SYNC => s.wrClkSync v
  | .CLK_OUT => s.wrClkOut i v
  | .CNV_ATT => s.wrAtt i v
  | .CNV_CHCORR => s.wrChcorr i v
  | .CNV_BG => s.wrBg i v
  | .CNV_ATTCAL => s.wrAttcal i j v
  | .CNV_SLICE => s.wrSlice i j v
  | .MON_CFG => s.wrMonCfg i v
  | .MON_STATUS => s.wrMonStatus i v
  | .PG_CFG => s.wrPgCfg i v
  | .PG_STATUS => s.wrPgStatus i v
  | .TBS_ADJ => s.wrAdj p v
  | .TBS_SLEW => s.wrSlew p v
  | .TBS_STEP => s.wrStep v
  | .TBS_SERVO => s.wrServo v
  | .TDC_CH => s.wrTdcCh i v
  | .TDC_CTRL => s.wrTdcCtrl v
  | .TDC_FREQ_CFG => s.wrFreqCfg v
  | .TDC_FREQ_SNAP => s.wrFreqSnap v
  | .CAL_RUN => s.wrCalRun v
  | .CAL_HIST_SNAP => s.wrHistSnap v
  | .CAL_FLAT => s.wrCalFlat i j v
  | _ => State.regStream p r.id ix a env v s

/-- A 64-bit host write of `v` to register `id` with first index `i` at `a`, whose effect its chapter gives as `h`. -/
def State.hostWr (s : State) (id : RegId) (i a : Nat) (h : Word → State → State) (v : Word) : State :=
  s.write64 .host a fun t => h (inRange id i (t.rd a) v) t

/-! ### What a register reads as -/

/-- A core's STATE as TC_STATUS reads it. -/
def coreStCode : CoreSt → Nat
  | .halted => 0
  | .running => 1
  | .stalled => 2
  | .idle => 3

/-- What the register whose row is `r` reads as: most hold what they show; the others show live state. Write-only fields read 0 because
nothing stores them (Table 0-1). -/
def State.regView (s : State) (r : RegRow) (ix : List Nat) (a : Nat) : Word :=
  let i := ix.getD 0 0
  let j := ix.getD 1 0
  let w := s.rd a
  match r.id with
  | .TBS_TIME => BitVec.ofNat 64 s.time
  | .TC_STATUS => fsets w [(fTC_STATUS_STATE, coreStCode (s.tcore i).st), (fTC_STATUS_PC, (s.tcore i).pc)]
  | .TC_CYCLES => fset w fTC_CYCLES_CYCLES (s.tcore i).cycles
  | .TC_SIN_STAT => fset w fTC_SIN_STAT_FILL (s.tcore i).fill
  | .TC_SOUT_STAT => fset w fTC_SOUT_STAT_QUEUED (s.tcore i).sendQ.length
  | .STO_POOL => fsets w [(fSTO_POOL_POOL_FREE, s.poolFree), (fSTO_POOL_FREE, s.freeBillets)]
  | .TRG_TBUS => fset w fTRG_TBUS_LEVEL (b2n (s.busIsHigh i))
  | .STO_RSV => fset w fSTO_RSV_RESERVED s.reservedSum
  | .STO_EXT => fset w fSTO_EXT_EXT_FREE s.extFree
  | .STO_CTX => if (s.ctx i).st = .closed then 0 else (s.ctx i).entry.getD j 0
  | .STO_CUR => fset w fSTO_CUR_NEXT ((s.ctx i).nextSeq j)
  | .DMA_CFG =>
    fsets w [(fDMA_CFG_EFF_PRIO, s.effPrio i), (fDMA_CFG_TAKE_VALID, b2n (s.takeCtx i).isSome),
      (fDMA_CFG_TAKE_CTX, ((s.takeCtx i).map (·.1)).getD 0)]
  | .DMA_GSTAT => fset w fDMA_GSTAT_ACTIVE s.dmaActive
  | .DIS_LSTAT => s.lstatView i j
  | .SEC_SERIAL => fset w fSEC_SERIAL_SERIAL Config.serial.toNat
  | .SEC_ID_HASH => Config.idHash i
  | .EVT_PEND => s.evtPend i
  | _ => w

/-! ### Accesses (R3 to R9, R26, R427) -/

/-- An access to a reserved address, or a misaligned one, is counted and raises HIF_RSVD_ACCESS (R427). -/
def State.rsvd (s : State) (write : Bool) : State :=
  if s.awake then
    (s.addSat rGLB_HIF_ACCESS (if write then fGLB_HIF_ACCESS_RSVD_WR else fGLB_HIF_ACCESS_RSVD_RD) 1).raiseLim 1000000 997
  else s

/-- Where a BAR0 address lies: in a register's row, in PM or DM of a core (Table 14-2), in the CXL capability structures (R418), or
nowhere. -/
inductive Place0 where
  | reg (r : RegRow) (ix : List Nat)
  | pm (core byte : Nat)
  | dm (core byte : Nat)
  | cxl
  | none
  deriving DecidableEq, Repr

/-- The place of BAR0 byte address `a`; a register is named by its first byte. -/
def place0 (a : Nat) : Place0 :=
  let c := (a - 0x200000) / 0x8000
  let o := (a - 0x200000) % 0x8000
  if 0x200000 ≤ a && a < 0x300000 && 0x1000 ≤ o && o < 0x3000 then .pm c (o - 0x1000)
  else if 0x200000 ≤ a && a < 0x300000 && 0x4000 ≤ o then .dm c (o - 0x4000)
  else if 0x1000 ≤ a && a < 0x2000 then .cxl
  else match findReg (a - a % 8) with
    | some (r, ix) => .reg r ix
    | Option.none => .none

/-- Is the address a reserved one (R4, R21)? -/
def reserved0 (a : Nat) : Bool := match place0 a with | .none => true | _ => false

/-- A 64-bit write of BAR0 at the multiple of 8 `a`: nothing while its window does not respond (R26); otherwise it drops a staged low half
and takes effect (R8). The CXL specification, not this spec, gives the CXL capability structures; a write to them changes nothing here. -/
def State.write0 (p : Path) (a : Nat) (env : Env) (v : Word) (s : State) : State :=
  match place0 a with
  | .reg r ix => s.write64 p a fun t => t.regEffect p r ix a env v
  | .pm c b => if s.windowOpen a then s.wrPm c (b / 4) [v.toNat % 2 ^ 32, v.toNat / 2 ^ 32] else s
  | .dm c b => if s.windowOpen a then s.wrDm c (b / 2) ((upTo 4).map fun i => v.toNat / 2 ^ (16 * i)) else s
  | .cxl => s
  | .none => s.rsvd true

/-- What a 64-bit read of BAR0 at the multiple of 8 `a` returns (0 while its window does not respond, R26). -/
def State.view0 (s : State) (a : Nat) : Word :=
  if !s.windowOpen a then 0
  else match place0 a with
    | .reg r ix => s.regView r ix a
    | .pm c b => BitVec.ofNat 64 (SMap.get 0 (s.tcore c).pm (b / 4) + SMap.get 0 (s.tcore c).pm (b / 4 + 1) * 2 ^ 32)
    | .dm c b =>
      let x := s.tcore c
      let dm := (if x.st == .running then x else x.retire).dm
      BitVec.ofNat 64 ((upTo 4).foldl (fun n i => n + SMap.get 0 dm (b / 2 + i) * 2 ^ (16 * i)) 0)
    | .cxl => Config.cxlCapRead a
    | .none => 0

/-- A 64-bit read of BAR0 (R6). -/
def State.read0 (a : Nat) (s : State) : State :=
  let s1 := if reserved0 a then s.rsvd false else s
  s1.onReadData fun _ => s.view0 a

/-- Are bits [63:32] of the register all reserved (R8)? -/
def RegRow.lowOnly (r : RegRow) : Bool := r.used < 2 ^ 32

/-- A 32-bit read of the low half of the register at `a`: bits [31:0], and all 64 bits go into the path's latch (R6, R9). -/
def State.readLow (p : Path) (a : Nat) (s : State) : State :=
  match place0 a with
  | .reg _ _ =>
    if s.windowOpen a then
      let w := s.view0 a
      ((s.onSnap fun _ => SMap.set none s.snap (pathKey p a) (some w)).onReadData fun _ => BitVec.ofNat 64 (w.toNat % 2 ^ 32))
    else s.onReadData fun _ => 0
  | .none => ((s.rsvd false).onReadData fun _ => 0)
  | _ => s.onReadData fun _ => BitVec.ofNat 64 ((s.view0 a).toNat % 2 ^ 32)

/-- A 32-bit read of the high half of the register at `a`: bits [63:32] of the latch, which holds what the register reads as after reset
before the first low-half read (R7). -/
def State.readHigh (p : Path) (a : Nat) (s : State) : State :=
  match place0 a with
  | .reg r ix =>
    if s.windowOpen a then
      s.onReadData fun _ => BitVec.ofNat 64 (((SMap.get none s.snap (pathKey p a)).getD (State.reset.regView r ix a)).toNat / 2 ^ 32)
    else s.onReadData fun _ => 0
  | .none => ((s.rsvd false).onReadData fun _ => 0)
  | _ => s.onReadData fun _ => BitVec.ofNat 64 ((s.view0 a).toNat / 2 ^ 32)

/-- A 32-bit write to the low half of the register at `a`: staged, or taken at once when the high half is all reserved (R8). -/
def State.writeLow (p : Path) (a : Nat) (env : Env) (v : BitVec 32) (s : State) : State :=
  match place0 a with
  | .reg r ix =>
    if !s.windowOpen a then s
    else if r.lowOnly then s.regEffect p r ix a env (BitVec.ofNat 64 v.toNat)
    else s.onStaged fun _ => SMap.set none s.staged (pathKey p a) (some (BitVec.ofNat 64 v.toNat))
  | .pm c b => if s.windowOpen a then s.wrPm c (b / 4) [v.toNat] else s
  | .dm c b => if s.windowOpen a then s.wrDm c (b / 2) [v.toNat, v.toNat / 2 ^ 16] else s
  | .cxl => s
  | .none => s.rsvd true

/-- A 32-bit write to the high half of the register at `a`: it commits the staged low half with it, and has no effect when nothing is staged
(R8). -/
def State.writeHigh (p : Path) (a : Nat) (env : Env) (v : BitVec 32) (s : State) : State :=
  match place0 a with
  | .reg r ix =>
    if !s.windowOpen a then s
    else match SMap.get none s.staged (pathKey p a) with
      | some low => (s.dropStaged p a).regEffect p r ix a env (BitVec.ofNat 64 (v.toNat * 2 ^ 32 + low.toNat % 2 ^ 32))
      | Option.none => s
  | .pm c b => if s.windowOpen a then s.wrPm c (b / 4 + 1) [v.toNat] else s
  | .dm c b => if s.windowOpen a then s.wrDm c (b / 2 + 2) [v.toNat, v.toNat / 2 ^ 16] else s
  | .cxl => s
  | .none => s.rsvd true

/-! ### SMBus (R561, R562) -/

/-- Does the device discard a write at `a` on path `p` (R562)? -/
def State.smbBlocked (s : State) (p : Path) (a : Nat) : Bool :=
  p == .smbus && (s.flag rMGT_SMB fMGT_SMB_LOCK || s.flag rGLB_STATUS fGLB_STATUS_SECURE) && a - a % 8 != rTHM_LIMIT

/-- A write discarded by the SMBus lock (R562). -/
def State.smbDiscard (s : State) : State :=
  ((s.addSat rMGT_SMB fMGT_SMB_WR_DISC 1).raiseLim 1000000 25).updPkg fun p => { p with smbDisc := true }

/-- A write on path `p`, let through or discarded by the SMBus lock. -/
def State.pathWrite (p : Path) (a : Nat) (h : State → State) (s : State) : State := if s.smbBlocked p a then s.smbDiscard else h s

/-! ### Accesses by address space (R3, R6 to R9, R425 to R427) -/

/-- A 64-bit write to byte address `a` of BAR4: one that is not a multiple of 8 is discarded (R3, R426). -/
def State.bar4Write64 (s : State) (a : Nat) (v : Word) : State :=
  if !s.awake then s else if a % 8 = 0 then s.bar4Write a v else s.dbDiscard

/-- A 64-bit write to byte address `a` of an address space; one that is not a multiple of 8 is misaligned (R3). -/
def State.barWrite (s : State) (p : Path) (bar : Bar) (a : Nat) (v : Word) (env : Env) : State :=
  if !s.awake then s
  else match bar with
  | .bar0 => s.pathWrite p a (if a % 8 = 0 then State.write0 p a env v else fun t => t.rsvd true)
  | .bar2 => if a % 8 = 0 then s.bar2Write a v else s
  | .bar4 => s.bar4Write64 a v

/-- A 32-bit read of the low (`high` false) or high half at the multiple of 8 `a`. DESIGN CHOICE (assumption 68): a half of a doorbell word reads
as that half of the live word; R426 discards a narrower access, which the model takes of writes. -/
def State.halfRead (s : State) (p : Path) (bar : Bar) (a : Nat) (high : Bool) : State :=
  let half := fun (w : Word) => BitVec.ofNat 64 (if high then w.toNat / 2 ^ 32 else w.toNat % 2 ^ 32)
  if !s.awake then (s.onReadData fun _ => 0)
  else match bar with
  | .bar0 => if high then s.readHigh p a else s.readLow p a
  | .bar2 => s.onReadData fun _ => half (s.bar2Read a)
  | .bar4 => s.onReadData fun _ => half (s.bar4Read a)

/-- A 32-bit write of the low or high half at the multiple of 8 `a`. A half of an entry of the MSI-X table takes effect by itself, as the PCI
Express specification has it (PRESUMED, assumption 34); one of a doorbell is discarded (R426). -/
def State.halfWrite (s : State) (p : Path) (bar : Bar) (a : Nat) (high : Bool) (v : BitVec 32) (env : Env) : State :=
  if !s.awake then s
  else match bar with
  | .bar0 => s.pathWrite p a (if high then State.writeHigh p a env v else State.writeLow p a env v)
  | .bar2 =>
    let old := (s.bar2Read a).toNat
    s.bar2Write a (BitVec.ofNat 64 (if high then old % 2 ^ 32 + v.toNat * 2 ^ 32 else old / 2 ^ 32 * 2 ^ 32 + v.toNat))
  | .bar4 => s.dbDiscard

/-- Is an access of a size at `a` misaligned (R3)? -/
def misaligned (a : Nat) (sz : AccSize) : Bool :=
  match sz with
  | .b64 => a % 8 != 0
  | .b32 => a % 4 != 0
  | _ => false

/-- Is an access narrower than 32 bits? -/
def narrow (sz : AccSize) : Bool := sz == .b8 || sz == .b16

/-- A read of any size and address: a misaligned or narrow one returns 0, and in BAR0 a misaligned one and one of a reserved address are
counted (R3, R4, R427); any other returns what stands there. -/
def State.anyRead (s : State) (p : Path) (bar : Bar) (a : Nat) (sz : AccSize) : State :=
  let zero := fun (t : State) => (t.onReadData fun _ => 0)
  if !s.awake then zero s
  else match bar with
  | .bar0 =>
    if misaligned a sz || reserved0 a then zero (s.rsvd false)
    else if narrow sz then zero s
    else if sz = .b64 then s.read0 a
    else s.halfRead p .bar0 (a - a % 8) (a % 8 == 4)
  | b =>
    if misaligned a sz || narrow sz then zero s
    else if sz = .b64 then (s.onReadData fun _ => if b = .bar2 then s.bar2Read a else s.bar4Read a)
    else s.halfRead p b (a - a % 8) (a % 8 == 4)

/-- A write that no register takes, of any size and address: it changes nothing, and is counted in BAR0 when it is misaligned or its address is
reserved (R427), and in BAR4 always (R426). -/
def State.anyDrop (s : State) (p : Path) (bar : Bar) (a : Nat) (sz : AccSize) : State :=
  if !s.awake then s
  else match bar with
  | .bar0 => if misaligned a sz || reserved0 a then s.pathWrite p a (fun t => t.rsvd true) else s
  | .bar2 => s
  | .bar4 => if sz = .b64 && a % 8 = 0 && a % 4096 < 0x20 && (s.ctx (a / 4096)).st != .closed then s else s.dbDiscard

end Sys2Proof.Machine
end

