-- ==== Sys2Proof/Machine/CalCmds.lean ====
section
/-! DEFINITION. The commands of chapter 7: calibration runs and the calibration store. -/

namespace Sys2Proof.Machine

/-- CAL_GO: a write of CAL_RUN with GO 1 (R138). -/
def execCalGo (v : Word) (s : State) : Res := .next (s.hostWr .CAL_RUN 0 rCAL_RUN State.wrCalRun (fset v fCAL_RUN_GO 1))

/-- CAL_ABORT: a write of CAL_RUN with ABORT 1 (R142). -/
def execCalAbort (v : Word) (s : State) : Res := .next (s.hostWr .CAL_RUN 0 rCAL_RUN State.wrCalRun (fset v fCAL_RUN_ABORT 1))

/-- CAL_STORE_START: a write of CAL_RUN with STORE 1 (R148). -/
def execCalStoreStart (v : Word) (s : State) : Res :=
  .next (s.hostWr .CAL_RUN 0 rCAL_RUN State.wrCalRun (fset v fCAL_RUN_STORE 1))

/-- CAL_PHASE_END with what the phase measured (R139). -/
def execCalPhaseEnd (m : CalMeas) (s : State) : Res := .next (s.live fun t => t.calPhaseEnd m)

/-- CAL_AGE_DUE (R145). -/
def execCalAgeDue (n : Fin 4) (s : State) : Res := .next (s.live fun t => t.calDueAge n)

/-- CAL_AUTO_START (R146). -/
def execCalAutoStart (s : State) : Res := .next (s.live State.calAuto)

/-- CAL_RETRY_EXPIRY (R146). -/
def execCalRetryExpiry (n : Fin 4) (s : State) : Res := .next (s.live fun t => t.calRetryEnd n)

/-- STORE_WRITE_END: every read-back matched (`ok`), or one did not (R149). -/
def execStoreWriteEnd (ok : Bool) (s : State) : Res := .next (s.live fun t => t.calStoreEnd ok)

end Sys2Proof.Machine
end

