-- ==== Sys2Proof/Machine/ClkCmds.lean ====
section
/-! DEFINITION. The commands of chapter 3: the reference, the synthesizers, re-locks and divider synchronisation. -/

namespace Sys2Proof.Machine

/-- REF_LOSS; `integ` is the offset in the loop filter's integrator, in ppb, which counts where no gate has ended since lock (R43, R47). -/
def execRefLoss (integ : Int) (s : State) : Res := .next (s.live fun t => t.refLoss integ)

/-- REF_RESTORED (R43). -/
def execRefRestored (s : State) : Res := .next (s.live State.refRestored)

/-- MPLL_LOCK_DECLARED (R46, R50, R54). -/
def execMpllLockDeclared (s : State) : Res := .next (s.live State.mpllLocked)

/-- MPLL_LOL (R47). -/
def execMpllLol (integ : Int) (s : State) : Res := .next (s.live fun t => t.mpllLol integ)

/-- MPLL_FREQ_GATE: a gate ends with a frequency error of `err` ppb (R48). -/
def execMpllFreqGate (err : Int) (s : State) : Res := .next (s.live fun t => t.freqGate err)

/-- HOLDOVER_UPDATE: a millisecond of holdover ends; `meas` is the error measured over it in ppb, used while REF_OK is 1 (R48). -/
def execHoldoverUpdate (meas : Nat) (s : State) : Res := .next (s.live fun t => t.holdoverUpdate meas)

/-- LPLL_HOLDOVER (R52). -/
def execLpllHoldover (s : State) : Res := .next (s.live State.lpllHoldover)

/-- LPLL_RELOCKED (R52). -/
def execLpllRelocked (s : State) : Res := .next (s.live State.lpllRelocked)

/-- RETUNE: a write of CLK_CMD with RETUNE 1 (R53). -/
def execRetune (v : Word) (s : State) : Res :=
  .next (s.hostWr .CLK_CMD 0 rCLK_CMD State.wrClkCmd (fset v fCLK_CMD_RETUNE 1))

/-- RETUNE_SETTLE_DONE: the dividers, held for `fs` femtoseconds, are released (R54, R118). -/
def execRetuneSettleDone (fs : Nat) (s : State) : Res := .next (s.live fun t => t.settleDone fs)

/-- RETUNE_TIMEOUT (R56). -/
def execRetuneTimeout (s : State) : Res := .next (s.live State.retuneTimeout)

/-- HELD_RETRY (R56). -/
def execHeldRetry (s : State) : Res := .next (s.live State.heldRetry)

/-- SYNC_ARM: a write of CLK_SYNC with ARM 1 (R58). -/
def execSyncArm (v : Word) (s : State) : Res :=
  .next (s.hostWr .CLK_SYNC 0 rCLK_SYNC State.wrClkSync (fset v fCLK_SYNC_ARM 1))

/-- SYNCIN_EDGE: SYNCIN is sampled high; `same` is whether the divider phase is the one it sets (R57, R58). -/
def execSyncinEdge (same : Bool) (s : State) : Res := .next (s.live fun t => t.syncinEdge same)

end Sys2Proof.Machine
end

