-- ==== Sys2Proof/Machine/CnvCmds.lean ====
section
/-! DEFINITION. The commands of chapter 4: the attenuators, the channel corrections and background calibration. -/

namespace Sys2Proof.Machine

/-- ATT_GO: a write of CNV_ATT[n] with GO 1 (R67). -/
def execAttGo (n : Fin 4) (v : Word) (s : State) : Res :=
  .next (s.hostWr .CNV_ATT n (rCNV_ATT n) (State.wrAtt n) (fset v fCNV_ATT_GO 1))

/-- ATT_APPLY: the requested step of input `n` is applied (R67, R69). -/
def execAttApply (n : Fin 4) (s : State) : Res := .next (s.live fun t => t.clocked fun d => d.attApply n)

/-- CHCORR_WRITE (R80). -/
def execChcorrWrite (n : Fin 4) (v : Word) (s : State) : Res :=
  .next (s.hostWr .CNV_CHCORR n (rCNV_CHCORR n) (State.wrChcorr n) v)

/-- SLICE_WRITE (R87). -/
def execSliceWrite (n : Fin 4) (k : Fin 17) (v : Word) (s : State) : Res :=
  .next (s.hostWr .CNV_SLICE n (rCNV_SLICE n k) (State.wrSlice n k) v)

/-- BG_EN_WRITE: a write of CNV_BG[n] (R87). -/
def execBgEnWrite (n : Fin 4) (v : Word) (s : State) : Res :=
  .next (s.hostWr .CNV_BG n (rCNV_BG n) (State.wrBg n) v)

/-- BG_SETTLE_END (R82 step 2). -/
def execBgSettleEnd (n : Fin 4) (s : State) : Res := .next (s.live fun t => t.bgSettleEnd n)

/-- BG_SHADOW_END with the raw codes of the free slice and of the slice in the position during the shadow (R82 step 3). -/
def execBgShadowEnd (n : Fin 4) (w : BgShadow) (s : State) : Res := .next (s.live fun t => t.storeStep (t.bgShadowEnd n w.f w.a) n)

/-- BG_WINDOW_END with the raw codes of the window (R82, R83). -/
def execBgWindowEnd (n : Fin 4) (w : BgWindow) (s : State) : Res := .next (s.live fun t => t.storeStep (t.bgWindowEnd n w) n)

/-- BG_INTERVAL_END (R82 step 6). -/
def execBgIntervalEnd (n : Fin 4) (s : State) : Res := .next (s.live fun t => t.storeStep (t.bgIntervalEnd n) n)

end Sys2Proof.Machine
end

