-- ==== Sys2Proof/Machine/DdcCmds.lean ====
section
/-! DEFINITION. The commands of chapters 9 to 11: coefficient banks, oscillators, window tables, frames, detectors and density
accumulators. -/

namespace Sys2Proof.Machine

/-! ### Downconversion (R182, R189 to R196) -/

/-- DDC_SWAP_GO: a write of DDC_SWAP[u] with GO 1 (R191). -/
def execDdcSwapGo (u : Fin 20) (v : Word) (s : State) : Res :=
  .next (s.hostWr .DDC_SWAP u (rDDC_SWAP u) (State.wrDdcSwap u) (fset v fDDC_SWAP_GO 1))

/-- DDC_SWAP_CANCEL: a write of DDC_SWAP[u] with CANCEL 1 (R194). -/
def execDdcSwapCancel (u : Fin 20) (v : Word) (s : State) : Res :=
  .next (s.hostWr .DDC_SWAP u (rDDC_SWAP u) (State.wrDdcSwap u) (fset v fDDC_SWAP_CANCEL 1))

/-- DDC_SWAP_COMMIT (R192). -/
def execDdcSwapCommit (u : Fin 20) (s : State) : Res := .next (s.live fun t => t.clocked fun d => d.ddcSwapCommit u)

/-- DDC_SWAP_DONE (R193). -/
def execDdcSwapDone (u : Fin 20) (s : State) : Res := .next (s.live fun t => t.clocked fun d => d.ddcSwapDone u)

/-- DDC_COEF_WRITE: word 0 of bank `b` of stage `k`, or word `r` of it (R189). -/
def execDdcCoefWrite (u : Fin 20) (k : Fin 12) (b : Fin 2) (r : Fin 9) (v : Word) (s : State) : Res :=
  .next (
    if r = 0 then s.hostWr .DDC_COEF0 u (rDDC_COEF0 u k b) (State.wrDdcCoef0 u k b) v
    else s.hostWr .DDC_COEFR u (rDDC_COEFR u k b (r - 1)) (State.wrDdcCoefR u k b (r - 1)) v)

/-- DDC_NCO_RST_ARM: a write of DDC_NCO_CTRL[u] with RST_ARM 1 (R182). -/
def execDdcNcoRstArm (u : Fin 20) (v : Word) (s : State) : Res :=
  .next (s.hostWr .DDC_NCO_CTRL u (rDDC_NCO_CTRL u) (State.wrDdcCtrl u) (fset v fDDC_NCO_CTRL_RST_ARM 1))

/-! ### Transform pipelines (R205 to R228) -/

/-- TAB_LOAD: a write of XFM_TAB_CTRL[n] with LOAD 1 (R215). -/
def execTabLoad (n : Fin 4) (v : Word) (s : State) : Res :=
  .next (s.hostWr .XFM_TAB_CTRL n (rXFM_TAB_CTRL n) (State.wrTabCtrl n) (fset v fXFM_TAB_CTRL_LOAD 1))

/-- TAB_LOAD_END with the words of the table, or none when a read of it failed (R215). -/
def execTabLoadEnd (n : Fin 4) (ws : Option (List (BitVec 32))) (s : State) : Res :=
  .next (s.live fun t => t.tabLoadEnd n (ws.map fun l => l.map BitVec.toNat))

/-- TAB_SWAP_GO: a write of XFM_TAB_CTRL[n] with GO 1 (R216). -/
def execTabSwapGo (n : Fin 4) (v : Word) (s : State) : Res :=
  .next (s.hostWr .XFM_TAB_CTRL n (rXFM_TAB_CTRL n) (State.wrTabCtrl n) (fset v fXFM_TAB_CTRL_GO 1))

/-- TAB_SWAP_CANCEL: a write of XFM_TAB_CTRL[n] with CANCEL 1 (R217). -/
def execTabSwapCancel (n : Fin 4) (v : Word) (s : State) : Res :=
  .next (s.hostWr .XFM_TAB_CTRL n (rXFM_TAB_CTRL n) (State.wrTabCtrl n) (fset v fXFM_TAB_CTRL_CANCEL 1))

/-- TAB_SWAP_COMMIT (R217). -/
def execTabSwapCommit (n : Fin 4) (s : State) : Res := .next (s.live fun t => t.clocked fun d => d.tabSwapCommit n)

/-- XFM_CTRL_WRITE (R228). -/
def execXfmCtrlWrite (n : Fin 4) (v : Word) (s : State) : Res :=
  .next (s.hostWr .XFM_CTRL n (rXFM_CTRL n) (State.wrXfmCtrl n) v)

/-- XFM_FRAME (R205 to R224). -/
def execXfmFrame (n : Fin 4) (s : State) : Res := .next (s.live fun t => t.clocked fun d => d.xfmFrame n)

/-! ### Detectors and density (R234 to R250) -/

/-- DET_FRAME (R237). -/
def execDetFrame (n : Fin 4) (s : State) : Res := .next (s.live fun t => t.clocked fun d => d.detFrame n)

/-- DET_READOUT_DONE (R242). -/
def execDetReadoutDone (n : Fin 4) (s : State) : Res := .next (s.live fun t => t.clocked fun d => d.detReadoutDone n)

/-- DET_WRITE: DET_CTRL, DET_INT or DET_ALIGN (R240). -/
def execDetWrite (n : Fin 4) (reg : Fin 3) (v : Word) (s : State) : Res :=
  .next (match reg with
    | 0 => s.hostWr .DET_CTRL n (rDET_CTRL n) (State.wrDetCtrl n) v
    | 1 => s.hostWr .DET_INT n (rDET_INT n) (State.wrDetInt n) v
    | _ => s.hostWr .DET_ALIGN n (rDET_ALIGN n) (State.wrDetAlign n) v)

/-- DEN_FRAME (R249). -/
def execDenFrame (n : Fin 4) (s : State) : Res := .next (s.live fun t => t.clocked fun d => d.denFrame n)

/-- DEN_READOUT_DONE (R250). -/
def execDenReadoutDone (n : Fin 4) (s : State) : Res := .next (s.live fun t => t.clocked fun d => d.denReadoutDone n)

/-- DEN_WRITE: DEN_CTRL, DEN_INT or DEN_ALIGN (R240). -/
def execDenWrite (n : Fin 4) (reg : Fin 3) (v : Word) (s : State) : Res :=
  .next (match reg with
    | 0 => s.hostWr .DEN_CTRL n (rDEN_CTRL n) (State.wrDenCtrl n) v
    | 1 => s.hostWr .DEN_INT n (rDEN_INT n) (State.wrDenInt n) v
    | _ => s.hostWr .DEN_ALIGN n (rDEN_ALIGN n) (State.wrDenAlign n) v)

end Sys2Proof.Machine
end

