-- ==== Sys2Proof/Machine/DisCmds.lean ====
section
/-! DEFINITION. The commands of chapter 22: the display outputs. -/

namespace Sys2Proof.Machine

/-- DIS_HPD of output `n`: HPD rises with the lanes and the rate that the sink's DPCD allows and trains (`ok`), or falls (R486). -/
def execDisHpd (n : Fin 2) (sink : Option (Nat × Nat)) (ok : Bool) (s : State) : Res := .next (s.live fun t => t.hpd n sink ok)

/-- DIS_COMMIT: a write of DIS_CTRL[n] with COMMIT 1 (R488). -/
def execDisCommit (n : Fin 2) (v : Word) (s : State) : Res :=
  .next (s.hostWr .DIS_CTRL n (rDIS_CTRL n) (State.wrDisCtrl n) (fset v fDIS_CTRL_COMMIT 1))

/-- DIS_FRAME_START (R488, R494). -/
def execDisFrameStart (n : Fin 2) (s : State) : Res := .next (s.live fun t => t.frameStart n)

/-- DIS_CLOCK_STABLE; `ok` is the outcome of a link training it needs (R489). -/
def execDisClockStable (n : Fin 2) (ok : Bool) (s : State) : Res := .next (s.live fun t => t.pixStable n ok)

/-- DIS_LAYER_RECORD: layer `l` of output `n` (R492). -/
def execDisLayerRecord (n l : Fin 2) (s : State) : Res := .next (s.live fun t => t.layerTake n l)

/-- DIS_AUX_GO: a write of DIS_AUX[n] with GO 1, and the request's end (R486). -/
def execDisAuxGo (n : Fin 2) (v : Word) (reply : AuxReply) (s : State) : Res :=
  .next (s.hostWr .DIS_AUX n (rDIS_AUX n) (fun w t => t.wrDisAux n w reply) (fset v fDIS_AUX_GO 1))

/-- DIS_PAL_WRITE: entry `i` of bank `b` (R496). -/
def execDisPalWrite (n b : Fin 2) (i : Fin 1024) (v : Word) (s : State) : Res :=
  .next (s.hostWr .DIS_PAL n (rDIS_PAL n b i) (State.wrDisPal n b i) v)

/-- SCANOUT_LINE: line `y` of output `n`; the data of the density and the overlay layer have arrived up to pixels `den` and `ovl` (R495). -/
def execScanoutLine (n : Fin 2) (y den ovl : Fin 65536) (s : State) : Res := .next (s.live fun t => t.scanLine n y den ovl)

end Sys2Proof.Machine
end

