-- ==== Sys2Proof/Machine/DmaCmds.lean ====
section
/-! DEFINITION. The commands of chapter 20: the DMA channels. What a read of host memory brings stands in the command. -/

namespace Sys2Proof.Machine

/-- DMA_START: a write of DMA_CTRL[c] with START 1 (R449). -/
def execDmaStart (c : Fin 128) (v : Word) (s : State) : Res :=
  .next (s.hostWr .DMA_CTRL c (rDMA_CTRL c) (State.wrDmaCtrl c) (fset v fDMA_CTRL_START 1))

/-- DMA_ABORT: a write of DMA_CTRL[c] with ABORT 1 (R445). -/
def execDmaAbort (c : Fin 128) (v : Word) (s : State) : Res :=
  .next (s.hostWr .DMA_CTRL c (rDMA_CTRL c) (State.wrDmaCtrl c) (fset v fDMA_CTRL_ABORT 1))

/-- DMA_GIVE_BIND: a write of DMA_CFG[c] (R439). -/
def execDmaGiveBind (c : Fin 128) (v : Word) (s : State) : Res :=
  .next (s.hostWr .DMA_CFG c (rDMA_CFG c) (State.wrDmaCfg c) v)

/-- DMA_DESC_FETCH: the descriptor and its list are read and checked (R441). -/
def execDmaDescFetch (c : Fin 128) (desc list : HostRead) (s : State) : Res := .next (s.live fun t => t.dmaFetch c desc list)

/-- DMA_NOP (R440). -/
def execDmaNop (c : Fin 128) (s : State) : Res := .next (s.live fun t => t.dmaNop c)

/-- CTX_TAKE (R442). -/
def execCtxTake (c : Fin 128) (s : State) : Res := .next (s.live fun t => t.ctxTake c)

/-- CTX_GIVE (R443). -/
def execCtxGive (c : Fin 128) (data : HostRead) (s : State) : Res := .next (s.live fun t => t.ctxGive c data)

/-- STORE_READ (R444). -/
def execStoreRead (c : Fin 128) (s : State) : Res := .next (s.live fun t => t.storeRead c)

/-- REF_TAKE (R444). -/
def execRefTake (c : Fin 128) (s : State) : Res := .next (s.live fun t => t.refTake c)

/-- REF_GIVE (R444). -/
def execRefGive (c : Fin 128) (s : State) : Res := .next (s.live fun t => t.refGive c)

/-- DMA_RECORD_AVAILABLE (R442). -/
def execDmaRecordAvailable (c : Fin 128) (s : State) : Res := .next (s.live fun t => t.recordAvailable c)

/-- DMA_IDLE_TIMEOUT (R442). -/
def execDmaIdleTimeout (c : Fin 128) (s : State) : Res := .next (s.live fun t => t.dmaIdle c)

/-- DMA_DATA_COMPLETION (R445). -/
def execDmaDataCompletion (c : Fin 128) (s : State) : Res := .next (s.live fun t => t.dmaCommit c)

end Sys2Proof.Machine
end

