-- ==== Sys2Proof/Machine/PlanCommit.lean ====
section
/-! DEFINITION. The commit points of plans and parameters: a staged plan becomes the active one, STOP closes the active plan, a
parameter commit takes the shadows into force, and a restart activates the active plan again (R166 to R176, R536). -/

namespace Sys2Proof.Machine

/-! ### What a plan feeds (R166) -/

/-- A branch as R166 compares it: source, destination, RATE and UPSTREAM. -/
abbrev Branch := Nat × Nat × Nat × Word

/-- The branches into square `sq` and, `n` units deep, into the units above it, up to the source squares: a store port that replays is
one, and what comes into it is no part of the path (R17). -/
def PlanImg.branchesInto (p : PlanImg) : Nat → Nat → List Branch
  | 0, _ => []
  | n + 1, sq => (p.into sq).flatMap fun r =>
    (r.src, sq, r.rate, r.upstream) :: if isPort r.src then [] else PlanImg.branchesInto p n r.src

/-- The branches on the path of context `x` from source squares to its store port. -/
def PlanImg.ctxBranches (p : PlanImg) (x : Nat) : List Branch :=
  ((p.routes.filter fun r => p.carries r x).flatMap fun r =>
    ((r.dsts.filter isPort).map fun d => (r.src, d, r.rate, r.upstream)) ++ p.branchesInto 8 r.src).eraseDups

/-- Do two sets of branches match? -/
def sameBranches (a b : List Branch) : Bool := a.all b.contains && b.all a.contains

/-- The context numbers of a plan. -/
def PlanImg.ctxNums (p : PlanImg) : List Nat := p.ctxs.map fun e => entryFld e 0 ⟨0, 12⟩

/-- The entry of context `x` in a plan. -/
def PlanImg.entryOf (p : PlanImg) (x : Nat) : Option (List Word) := p.ctxs.find? fun e => entryFld e 0 ⟨0, 12⟩ == x

/-- The converter cores whose pairing changes (R77, R170). -/
def pairCores (old new : PlanImg) : List Nat :=
  (if old.pair01 = new.pair01 then [] else [0, 1]) ++ (if old.pair23 = new.pair23 then [] else [2, 3])

/-- Is context `x` kept from plan `old` to plan `new` (R166, R170)? -/
def keptCtx (old new : PlanImg) (x : Nat) : Bool :=
  match old.entryOf x, new.entryOf x with
  | some a, some b =>
    a == b && sameBranches (old.ctxBranches x) (new.ctxBranches x)
      && !(old.ctxBranches x).any fun br => (pairCores old new).contains br.1
  | _, _ => false

/-- The contexts whose path goes through square `sq`. -/
def PlanImg.ctxsThrough (p : PlanImg) (sq : Nat) : List Nat :=
  p.ctxNums.filter fun x => (p.ctxBranches x).any fun b => b.1 == sq || b.2.1 == sq

/-- Does the unit of square `sq` keep its state from `old` to `new`: it is unchanged, its inputs match, and the contexts it feeds, if any,
include a kept one (R169)? -/
def keptUnit (old new : PlanImg) (sq : Nat) : Bool :=
  let through := old.ctxsThrough sq ++ new.ctxsThrough sq
  (old.unit? sq).isSome && old.unit? sq == new.unit? sq
    && sameBranches (old.branchesInto 8 sq) (new.branchesInto 8 sq)
    && !((old.branchesInto 8 sq).any fun br => (pairCores old new).contains br.1)
    && (through.isEmpty || through.any (keptCtx old new))

/-! ### Units and contexts at the boundary (R169) -/

/-- The items that frames and replayed records on their way to the unit of square `sq` stand for: one a frame, and a record its own. -/
def State.onTheWay (s : State) (sq : Nat) : Nat :=
  ((SMap.get [] s.frames sq).filter fun f => !f.lost).length
    + (SMap.get [] s.replay sq).foldl (fun n r => n + r.items) 0

/-- What the unit of square `sq` has in hand is let go and counted lost (R41, R169): partial state, frames and replayed records on their way to
it and to its partner in a gang, the log entries an acquisition unit has gathered, and the state of triggers. A codec unit closes its record at
the last sample it has (R406). -/
def State.unitClear (s : State) (sq : Nat) : State :=
  let s0 := if 48 ≤ sq && sq < 56 then s.auLogDrop (sq - 48) else s
  let gang := (28 ≤ sq && sq < 32 && s.flag (rDET_CFG (sq - 28)) fDET_CFG_GANG)
    || (32 ≤ sq && sq < 36 && s.flag (rDEN_CFG (sq - 32)) fDEN_CFG_GANG)
  let sqs := if gang then [sq, sq + 1] else [sq]
  let s1 := ((if 61 ≤ sq && sq < 69 then s0 else s0.unitDiscard sq).unitOrigin 2 sq).loseFrom sq (sqs.foldl (fun n q => n + s0.onTheWay q) 0)
  let s2 := (s1.onFrames fun m => sqs.foldl (fun m q => SMap.set [] m q []) m).onReplay fun m => SMap.set [] m sq []
  if 36 ≤ sq && sq < 44 then (s2.onLt fun _ => SMap.set lt0 s2.lt (sq - 36) lt0)
  else if 44 ≤ sq && sq < 48 then (s2.onFm fun _ => SMap.set fm0 s2.fm (sq - 44) fm0)
  else s2

/-- The records of context `x` that are complete and wait at a store port belong to epoch `ep` (R169). -/
def State.oldEpoch (s : State) (x ep : Nat) : State :=
  s.onPorts fun ps => ps.map fun e => (e.1, { e.2 with
    inbox := e.2.inbox.map fun r => if r.ctx = x && r.epoch.isNone then { r with epoch := some ep } else r })

/-- A context in both plans that is not kept: a declared gap and a new epoch, and the new entry in force. Destinations that stay go on, new
ones begin with the next record, and one that the new entry lacks finishes the cord. -/
def State.gapCtx (s : State) (x plat : Nat) (e : List Word) : State :=
  let s0 := (s.streamDrop x).stampsDrop x
  let s1 := (s0.oldEpoch x (s0.ctx x).epoch).updCtx x fun c =>
    { c.reopen e with
      epoch := (c.epoch + 1) % 65536, flags := c.flags ||| flGap ||| flRestart, plat := plat }
  (s1.setFld (rADM_CTX x) fADM_CTX_P plat).settle x

/-- The registers that show a plan: GRID_SQ, CNV_MODE, TDC_CH, and each unit's configuration (R72, R175, R178). DESIGN CHOICE (assumption 59):
with no plan, that is after a STOP, CNV_MODE keeps the mode of the plan that was active last, and the cores stay as it paired them. -/
def State.showPlan (s : State) (p : Option PlanImg) : State :=
  let s1 := (upTo 96).foldl (fun (t : State) sq =>
    let ins := (p.map fun q => q.into sq).getD []
    let outs := (p.map fun q => q.from_ sq).getD []
    let rate := fun (l : List Route) => ceilDiv (l.foldl (fun n r => n + r.rate) 0) 65536
    t.setFlds (rGRID_SQ sq) [(fGRID_SQ_OUT_RATE, rate outs), (fGRID_SQ_IN_RATE, rate ins), (fGRID_SQ_ROUTES_IN, ins.length),
      (fGRID_SQ_ROUTES_OUT, outs.length)]) s
  let s2 := match p with
    | some q => s1.setFlds rCNV_MODE [(fCNV_MODE_PAIR01, q.pair01), (fCNV_MODE_PAIR23, q.pair23)]
    | none => s1
  let s3 := (upTo 12).foldl (fun (t : State) c =>
    let w : Nat := (p.map fun q => q.word 69 c).getD 0
    t.setFlds (rTDC_CH c) [(fTDC_CH_CONTEXT, if w / 2 ^ 12 % 2 = 1 then w else 0), (fTDC_CH_CTX_VALID, w / 2 ^ 12)]) s2
  ((((((s3.ddcPlan p).xfmPlan p).detPlan p).trgPlan p).acqPlan p).turfPlan p).cmpPlan p

/-- The extent set-aside of each acquisition unit (R339): RING_BILLETS + 2 where the plan uses it, as far as there are free extents, else
the unit goes idle. A unit that does not keep its state gives its ring's billets back. -/
def State.auAside (s : State) (kept : Nat → Bool) : State :=
  State.extentLow s ((upTo 8).foldl (fun (t : State) n =>
    if !t.flag (rACQ_CFG n) fACQ_CFG_USED then t.auIdle n
    else if kept (auSquare n) then t
    else
      let t1 := (t.auRelease n).onAside fun m => SMap.set 0 m n 0
      let want := t1.fld (rACQ_CFG n) fACQ_CFG_RING_BILLETS + 2
      (t1.onAside fun m => SMap.set 0 m n (min want t1.extFree)).updAu n fun a => { a with refill := decide (t1.extFree < want) }) s)

/-! ### PARAMS (Table 8-3, R169, R176) -/

/-- The square of the unit that a parameter-commit register belongs to, none for one that belongs to no square (a timer or a qualifier);
`none` outside for a register with another commit point. -/
def commitSquare (id : RegId) (i : Nat) : Option (Option Nat) :=
  match id with
  | .DDC_NCO_FTW | .DDC_NCO_CTRL | .DDC_STAGE => some (some (ddcSquare i))
  | .XFM_CTRL => some (some (xfmSquare i))
  | .DET_CTRL | .DET_INT | .DET_ALIGN => some (some (detSquare i))
  | .DEN_CTRL | .DEN_INT | .DEN_ALIGN => some (some (denSquare i))
  | .TRG_LT_CFG | .TRG_LT_LEVEL => some (some (36 + i))
  | .TRG_FM_CFG | .TRG_FM_SEG => some (some (44 + i))
  | .TRG_TMR_CFG | .TRG_TMR_START | .TRG_TQ_CFG | .TRG_TQ_SETA | .TRG_TQ_SETB | .TRG_TQ_CHAIN | .TRG_TQ_TIMING
  | .TRG_TQ_AUTO => some none
  | .ACQ_CTRL | .ACQ_LEN | .ACQ_SEG | .ACQ_LOG => some (some (auSquare i))
  | .RMU_CFG | .RMU_SIG | .RMU_LEVEL => some (some (48 + i))
  | .CMP_STREAM | .CMP_TAB => some (some (cmpSquare i))
  | _ => none

/-- The PARAMS of a plan: each is written as software would, and those of units that do not keep their state take effect at once. A
request that a written register makes of the outside gets no answer. -/
def State.writeParams (s : State) (p : PlanImg) (kept : Nat → Bool) : State :=
  let s1 := p.params.foldl (fun (t : State) e =>
    match findReg e.1 with
    | some (r, ix) => t.regEffect .stoker r ix e.1 ⟨.timeout, none⟩ e.2
    | none => t) s
  s1.trgCommitted (p.params.foldl (fun (t : State) e =>
    match findReg e.1 with
    | some (r, ix) =>
      match commitSquare r.id (ix.getD 0 0) with
      | some (some sq) => if kept sq then t else t.commitReg e.1
      | some none => t.commitReg e.1
      | none => t
    | none => t) s1)

/-! ### The commit points -/

/-- An activation or STOP ends DONE. -/
def State.planDone (s : State) (sha detail : Nat) : State :=
  ((((s.planStatus 0 1 0).raise 10 none 0 detail).measure 4 sha).admRetest).trgRelat

/-- The staged plan becomes the active one at PLAN_TIME (R168 to R170). DESIGN CHOICE (assumption 59): an activation touches a converter core
(R84) where it changes the core's pairing, and no other. -/
def State.planActivate (s : State) (new : PlanImg) : State :=
  let s0 := (s.reach (s.rd rPLAN_TIME).toNat).drainPorts
  let old : PlanImg := s0.activePlan.getD ⟨0, 0, 0, 0, s.fld rCNV_MODE fCNV_MODE_PAIR01, s.fld rCNV_MODE fCNV_MODE_PAIR23, [], [], [], []⟩
  let kept := keptUnit old new
  let cores := pairCores old new
  let s1 := (((old.units.map (·.square)).filter fun sq => !kept sq).foldl State.unitClear s0).drainPorts
  let s2 := cores.foldl (fun (t : State) n => if t.cal.input = n then t.calAbortIf 9 else t) s1
  let closing := old.ctxNums.filter fun x => (new.entryOf x).isNone
  let s3 := closing.foldl (fun (t : State) x => ((t.streamDrop x).stampsDrop x).drainCtx x) s2
  let k := s3.idleSlot
  let s4 := ((s3.setSlot (1 - k) 0 none).setSlot k 3 (some new)).setFld rGLB_STATUS fGLB_STATUS_PLAN_ACTIVE 1
  let s5 := (s4.showPlan (some new)).auAside kept
  let s6 := cores.foldl (fun (t : State) n => (t.newGeff n).bgPlanTouch n) s5
  let s7 := new.ctxs.foldl (fun (t : State) e =>
    let x := entryFld e 0 ⟨0, 12⟩
    let plat := t.ctxLatency new x
    if keptCtx old new x then t
    else if (old.entryOf x).isSome && (t.ctx x).st = .opened then t.gapCtx x plat e
    else t.takeIn x e false plat) s6
  let s8 := ((new.units.map (·.square)).filter fun sq => !kept sq).foldl (State.unitOrigin 2) s7
  let s9 := s8.writeParams new kept
  (s9.addMod rPLAN_STATUS fPLAN_STATUS_ACTIVATIONS 1).planDone new.sha new.planId

/-- PLAN_TIME is reached while ACTIVATING. -/
def State.planCommit (s : State) : State :=
  if s.planState != 2 then s
  else match s.stagedPlan with
    | some p => s.planActivate p
    | none => s

/-- PLAN_TIME is reached while STOPPING: every context of the active plan is flushed and closed, and every unit goes idle (R172). -/
def State.planStopCommit (s : State) : State :=
  if s.planState != 3 then s
  else match s.activePlan with
    | none => s
    | some old =>
      let s0 := (s.reach (s.rd rPLAN_TIME).toNat).drainPorts
      let s1 := ((old.units.map (·.square)).foldl State.unitClear s0).drainPorts
      let s2 := old.ctxNums.foldl (fun (t : State) x => ((t.streamDrop x).stampsDrop x).drainCtx x) s1
      let s3 := (s2.setSlot (1 - s2.idleSlot) 0 none).setFld rGLB_STATUS fGLB_STATUS_PLAN_ACTIVE 0
      ((s3.showPlan none).auAside fun _ => false).planDone (Config.sha384 []) old.planId

/-- The boundary of a parameter commit (R176); a plan commit at the same boundary comes before it. One whose time a step or a hold has
passed takes effect late (R117). -/
def State.paramCommit (s : State) : State :=
  if !s.flag rPLAN_PCOMMIT fPLAN_PCOMMIT_GO then s
  else
    let t := (s.actv rPLAN_PC_TIME).toNat
    let s0 := s.reach t
    let s1 := if (s.rd rPLAN_TIME).toNat ≤ s0.time then s0.planCommit else s0
    let s2 := (s1.setFld rPLAN_PCOMMIT fPLAN_PCOMMIT_GO 0).addMod rPLAN_PCOMMIT fPLAN_PCOMMIT_COUNT 1
    let s2 := if t != 0 && t < s.time then (s2.setFld rPLAN_PCOMMIT fPLAN_PCOMMIT_LATE 1).raise 12 else s2
    (((((s2.ddcParamCommit).xfmParamCommit).detParamCommit).cmpParamCommit).trgParamCommit).acqParamCommit

/-- A restart reaches its end: the active plan is activated again with every unit at a new origin and every context of it in a new epoch, and
STATE is READY, with the Stoker running also where it stopped again meanwhile; a fourth automatic one ends HALTED instead (R174, R536, R538). -/
def State.dpActivate (s : State) : State :=
  if s.glb != 4 || s.rst.phase != 2 || !s.rst.failed.isEmpty then s
  else if s.rst.fourth then s.dpFail
  else
    let s1 := (((s.onFrames fun _ => []).onReplay fun _ => []).onDecs fun _ => [])
    let s2 := ((s1.activePlan.map fun p => p.units.map (·.square)).getD []).foldl (State.unitOrigin 3) s1
    let s3 := (s2.onLt fun _ => []).onFm fun _ => []
    let s4 := ((s3.setFld rGLB_STATUS fGLB_STATUS_STATE 3).setFld rSTK_STATUS fSTK_STATUS_STATE 2).setFld rEVT_RESTART fEVT_RESTART_LAST_MS
      (satN 32 (s3.ticksMs (s3.time - s3.rst.t0)))
    let s5 := (s4.raise 3).trgRelat
    if s5.rst.cxl then s5.cxlResetDone else s5

end Sys2Proof.Machine
end

