-- ==== Sys2Proof/Machine/GlbCmds.lean ====
section
/-! DEFINITION. The commands of chapters 0 and 1: register accesses, the device ID and datapath restarts. -/

namespace Sys2Proof.Machine

/-! ### Register accesses (R3 to R9, R427) -/

/-- REGISTER_WRITE: a 64-bit write of `v` to byte address `a` of an address space on path `p`. -/
def execRegisterWrite (p : Path) (bar : Bar) (a : Fin (2 ^ 26)) (v : Word) (env : Env) (s : State) : Res :=
  .next (s.barWrite p bar a v env)

/-- LOW_HALF_READ of the 64-bit word `n` of an address space. -/
def execLowHalfRead (p : Path) (bar : Bar) (n : Fin (2 ^ 23)) (s : State) : Res := .next (s.halfRead p bar (8 * n) false)

/-- HIGH_HALF_READ of the 64-bit word `n`. -/
def execHighHalfRead (p : Path) (bar : Bar) (n : Fin (2 ^ 23)) (s : State) : Res := .next (s.halfRead p bar (8 * n) true)

/-- LOW_HALF_WRITE of the 64-bit word `n`. -/
def execLowHalfWrite (p : Path) (bar : Bar) (n : Fin (2 ^ 23)) (v : BitVec 32) (env : Env) (s : State) : Res :=
  .next (s.halfWrite p bar (8 * n) false v env)

/-- HIGH_HALF_WRITE of the 64-bit word `n`. -/
def execHighHalfWrite (p : Path) (bar : Bar) (n : Fin (2 ^ 23)) (v : BitVec 32) (env : Env) (s : State) : Res :=
  .next (s.halfWrite p bar (8 * n) true v env)

/-- RESERVED_ADDRESS_ACCESS: an access of any size to byte address `a`. A read of a register that is neither narrow nor misaligned is the read
it is (R6); a write to one has its own commands, and as this one changes nothing. -/
def execReservedAddressAccess (p : Path) (bar : Bar) (a : Fin (2 ^ 26)) (sz : AccSize) (write : Bool) (s : State) : Res :=
  .next (if write then s.anyDrop p bar a sz else s.anyRead p bar a sz)

/-! ### The device ID (R5, R23, R24) -/

/-- DEVID_WRITE. -/
def execDevidWrite (v : Word) (s : State) : Res := .next (s.hostWr .GLB_DEVID 0 rGLB_DEVID State.wrDevid v)

/-- DEVID_LOCK: a write of GLB_DEVID with LOCK 1. -/
def execDevidLock (v : Word) (s : State) : Res :=
  .next (s.hostWr .GLB_DEVID 0 rGLB_DEVID State.wrDevid (fset v fGLB_DEVID_LOCK 1))

/-! ### Datapath restarts (R25, R534 to R538) -/

/-- DP_RESTART: a write of GLB_CTRL with DP_RESTART 1. -/
def execDpRestart (v : Word) (s : State) : Res :=
  .next (s.hostWr .GLB_CTRL 0 rGLB_CTRL State.wrGlbCtrl (fset v fGLB_CTRL_DP_RESTART 1))

/-- RESTART_FAULT_RECORDS: t0 + 1 ms. -/
def execRestartFaultRecords (s : State) : Res := .next s.dpFaults

/-- RESTART_UNIT_RESET: t0 + 2 ms. -/
def execRestartUnitReset (s : State) : Res := .next s.dpReset

/-- RESTART_TRAINING_END: the failed channels have been trained again, or one fails. -/
def execRestartTrainingEnd (ok : Bool) (s : State) : Res := .next (s.dpTrained ok)

/-- RESTART_ACTIVATE. -/
def execRestartActivate (s : State) : Res := .next s.dpActivate

/-- RESTART_TIMEOUT: t0 + 250 ms. -/
def execRestartTimeout (s : State) : Res := .next s.dpTimeout

end Sys2Proof.Machine
end

