-- ==== Sys2Proof/Machine/HifCmds.lean ====
section
/-! DEFINITION. The commands of chapter 19: CXL.mem, the link and its resets, failed requests, MSI-X, and the DOE mailbox with SPDM
(chapter 23). -/

namespace Sys2Proof.Machine

/-! ### CXL.mem and HDM decoders (R418 to R424) -/

/-- CXL_MEM_READ of the 64-byte line at host address 64 × `n` (R420). -/
def execCxlMemRead (n : Fin (2 ^ 46)) (s : State) : Res := .next (s.live fun t => t.cxlRead (64 * n))

/-- CXL_MEM_WRITE (R420). -/
def execCxlMemWrite (s : State) : Res := .next (s.live State.cxlWrite)

/-- HDM_COMMIT of a decoder (`one` false: the first) with its base, size, DPA skip, interleave ways and lock (R419). -/
def execHdmCommit (one : Bool) (base size skip ways : Nat) (lock : Bool) (s : State) : Res :=
  .next (s.live fun t => t.hdmCommit one base size skip ways lock)

/-- HOST_SNOOP (R424). -/
def execHostSnoop (s : State) : Res := .next (s.live State.snoop)

/-! ### The link and resets (R416, R431, R432) -/

/-- LINK_RETRAIN to a width and a rate code, with or without CXL (R415, R416). -/
def execLinkRetrain (width rate : Nat) (cxl : Bool) (s : State) : Res := .next (s.live fun t => t.linkRetrain width rate cxl)

/-- LINK_DOWN (R431). -/
def execLinkDown (s : State) : Res := .next (s.live State.linkDown)

/-- CXL_RESET (R431). -/
def execCxlReset (memClr : Bool) (s : State) : Res := .next (s.live fun t => t.cxlReset memClr)

/-- FLR, or a hot reset (R431). -/
def execFlr (s : State) : Res := .next (s.live State.flr)

/-- BUS_MASTER_DISABLE (R432). -/
def execBusMasterDisable (s : State) : Res := .next (s.live State.busMasterOff)

/-! ### Failed requests (R433, R434) -/

/-- COMPLETION_TIMEOUT of a request of unit `r` (R433). -/
def execCompletionTimeout (r : Requester) (s : State) : Res := .next (s.live fun t => t.requestFail r true)

/-- POISONED_COMPLETION of a request of unit `r` (R434). -/
def execPoisonedCompletion (r : Requester) (s : State) : Res := .next (s.live fun t => t.requestFail r false)

/-! ### MSI-X (R428, R529) -/

/-- MSIX_UNMASK (R428). -/
def execMsixUnmask (u : Unmask) (s : State) : Res := .next (s.live fun t => t.unmask u)

/-- MSIX_MODERATION_END of vector `v` (R529). -/
def execMsixModerationEnd (v : Fin 2048) (s : State) : Res := .next (s.live fun t => t.moderationEnd v)

/-! ### The DOE mailbox (R429, R430, R517, R518)
A request is its bytes, sent while a response is pending (`busy`) or not. The spec leaves the wire layouts to the standards it names. -/

/-- Request bytes and answer bytes join what the identity key signs over (PRESUMED: SPDM 1.2 signs over the messages before; assumption 36). -/
def State.spdmNote (s : State) (bs : List Byte) : State := s.updStk fun k => { k with spdm := k.spdm ++ bs }

/-- DOE_DISCOVERY (R429). -/
def execDoeDiscovery (req : List Byte) (busy : Bool) (s : State) : Res :=
  .next (s.live fun t => t.doe req.length busy fun u =>
    u.send (.doe (.protocols ["DOE Discovery", "CMA/SPDM", "CDAT Table Access"])))

/-- CDAT_TABLE_ACCESS (R430). -/
def execCdatTableAccess (req : List Byte) (busy : Bool) (s : State) : Res :=
  .next (s.live fun t => t.doe req.length busy fun u => u.send (.doe (.cdat u.hif.cdatSeq u.cdat)))

/-- GET_VERSION: SPDM 1.2 (R429, R517); a session begins with it. -/
def execGetVersion (req : List Byte) (busy : Bool) (s : State) : Res :=
  .next (s.live fun t => t.doe req.length busy fun u =>
    ((u.updStk fun k => { k with spdm := [] }).spdmNote req).spdm (.spdmVersion 1 2))

/-- GET_CAPABILITIES (R517). -/
def execGetCapabilities (req : List Byte) (busy : Bool) (s : State) : Res :=
  .next (s.live fun t => t.doe req.length busy fun u => (u.spdmNote req).spdm (.spdmCapabilities ["CERT", "CHAL", "MEAS_SIG"]))

/-- NEGOTIATE_ALGORITHMS: ECDSA P-384 and SHA-384 only (R517). -/
def execNegotiateAlgorithms (req : List Byte) (busy : Bool) (s : State) : Res :=
  .next (s.live fun t => t.doe req.length busy fun u => (u.spdmNote req).spdm (.spdmAlgorithms ["ECDSA P-384", "SHA-384"]))

/-- GET_DIGESTS (R517). -/
def execGetDigests (req : List Byte) (busy : Bool) (s : State) : Res :=
  .next (s.live fun t => t.doe req.length busy fun u =>
    (u.spdmNote (req ++ certDigests.flatMap (leBytes 48))).spdm (.spdmDigests certDigests))

/-- GET_CERTIFICATE: `len` bytes of the chain from `off` on (R516, R517). -/
def execGetCertificate (req : List Byte) (busy : Bool) (off len : Fin 65536) (s : State) : Res :=
  .next (s.live fun t => t.doe req.length busy fun u =>
    let bs := (Config.certChain.drop off).take len
    (u.spdmNote (req ++ bs)).spdm (.spdmCertificate bs))

/-- CHALLENGE: answered with a signature of the identity key (R516, R517). -/
def execChallenge (req : List Byte) (busy : Bool) (s : State) : Res :=
  .next (s.live fun t => t.doe req.length busy fun u =>
    let (k, w) := (u.spdmNote req).fresh
    w.spdm (.spdmChallenge (Config.idSign k w.stk.spdm)))

/-- GET_MEASUREMENTS: the blocks that `index` names, signed on request (R517, R518). -/
def execGetMeasurements (req : List Byte) (busy : Bool) (index : Fin 256) (signed : Bool) (s : State) : Res :=
  .next (s.live fun t => t.doe req.length busy fun u =>
    let bl := u.measBlocks index
    let v := u.spdmNote (req ++ measBytes bl)
    if signed then
      let (k, w) := v.fresh
      w.spdm (.spdmMeasurements bl (some (Config.idSign k w.stk.spdm)))
    else v.spdm (.spdmMeasurements bl none))

/-- SPDM_UNSUPPORTED_REQUEST (R517). -/
def execSpdmUnsupportedRequest (req : List Byte) (busy : Bool) (s : State) : Res :=
  .next (s.live fun t => t.doe req.length busy fun u => (u.spdmNote req).spdmError)

end Sys2Proof.Machine
end

