-- ==== Sys2Proof/Machine/Beat.lean ====
section
/-! DEFINITION. What moves in one DCLK (R154 to R158): converter samples into the grid, sample streams from unit to unit and into store
ports, device time, and records that a store port replays (R17, R341). -/

namespace Sys2Proof.Machine

/-! ### Sample streams -/

/-- The samples of one record of a stream into a store port: they fill a billet (16,384 bytes with the header; assumption 31). -/
def streamCap (fmt : Nat) : Nat := (billetBytes - 32) / smpBytes fmt

/-- The product type of a sample stream (Table 2-3). -/
def streamType (fmt : Nat) : Nat := if fmt = 0 then 0x03 else fmt

/-- The record under construction for context `x` at store port `p` is finished. -/
def State.streamClose (s : State) (x p : Nat) (wait : Bool) : State :=
  let q := SMap.get [] s.streams x
  match q with
  | [] => s
  | y :: _ =>
    (s.onStreams fun _ => SMap.set [] s.streams x []).toPort p { prod0 with
      ctx := x
      typ := streamType y.fmt
      time := timeOf y.t
      fine := fineOf y.t
      flags := q.foldl (fun a (z : Smp) => a ||| z.fl % 65536) 0
      items := q.length
      canWait := wait
      pre := q.flatMap (smpWord y.fmt) }

/-- Is the loss of a missing sample declared already (`compSamples`)? -/
def Smp.declared (y : Smp) : Bool := y.fl / 2 ^ 31 % 2 == 1

/-- One sample reaches store port `p` for context `x`. A missing one ends the record under construction and counts as lost, and the next
record carries its flags (R30); a sample of another format begins a new record. -/
def State.streamPut (s : State) (x p : Nat) (wait : Bool) (y : Smp) : State :=
  if !y.ok then
    let s1 := s.streamClose x p wait
    if y.declared then s1 else (s1.loseItems x 1).flagCtx x (y.fl &&& flCarried)
  else
    let s0 := match SMap.get [] s.streams x with
      | z :: _ => if z.fmt = y.fmt then s else s.streamClose x p wait
      | [] => s
    let s1 := s0.onStreams fun _ => SMap.upd [] s0.streams x fun q => q ++ [y]
    if streamCap y.fmt ≤ (SMap.get [] s1.streams x).length then s1.streamClose x p wait else s1

/-- A beat of route `r` reaches the store port of square `d`; on a route that is not WAIT it is lost where the branch has no credit (R157,
R158). -/
def State.portBeat (s : State) (r : Route) (d : Nat) (xs : List Smp) : State :=
  match r.ctx with
  | none => s
  | some x =>
    if (s.ctx x).st != .opened then s
    else if !r.wait && s.noCredit r d then
      (s.dropBeats x d 1 (xs.filter fun y => !y.declared).length).flagCtx x (xs.foldl (fun a (y : Smp) => a ||| y.fl &&& flCarried) 0)
    else xs.foldl (fun (t : State) y => t.streamPut x (d - 70) r.wait y) s

/-- Samples leave square `sq` on its routes, and every unit they reach takes them; down-converters pass theirs on (`n` units deep). -/
def State.feed : Nat → State → Nat → List Smp → State
  | 0, s, _, _ => s
  | n + 1, s, sq, xs =>
    if xs.isEmpty then s
    else (s.routesFrom sq).foldl (fun (t : State) r =>
      r.dsts.foldl (fun (t : State) d =>
        if 4 ≤ d && d < 24 then
          if t.ddcUsed (d - 4) then
            let (ys, t1) := t.ddcTake (d - 4) xs
            State.feed n t1 d ys
          else t
        else if 24 ≤ d && d < 28 then t.xfmTake (d - 24) xs
        else if 36 ≤ d && d < 44 then t.ltTake (d - 36) xs
        else if 48 ≤ d && d < 56 then t.auTake (d - 48) xs
        else if 61 ≤ d && d < 69 then t.cmpTake (d - 61) xs
        else if isPort d then t.portBeat r d xs
        else t) t) s

/-! ### Converters (R70 to R79) -/

/-- What a sample of input `n` carries beside its own CLIPPED: the quality flags in force and the states of PG0 to PG3 (R89, R103, R110,
Table 2-2). -/
def State.liveFlags (s : State) (n : Nat) : Nat :=
  let q := (if s.overloaded n then flOverload else 0) ||| (if s.calHold n then flCalHold else 0) ||| s.holdFlag
  (upTo 4).foldl (fun a g =>
    let (active, tr) := s.pgBit g
    a + (if active then 2 ^ (16 + g) else 2 ^ (20 + g)) + (if tr then 2 ^ (24 + g) else 0)) q

/-- The samples that core `n` delivers in this DCLK out of 16 raw codes, the first at `ofs` of a tick in 1/65,536. They are missing in HO_GAP
and while their input is at CALIN (R49, R140). DESIGN CHOICE (assumption 64): the fraction of device time (R113) is added to the position
within the tick, whose FINE R71 gives as 32 × j. -/
def State.coreSamples (s : State) (n ofs fl : Nat) (raw : List (BitVec 12)) : List Smp × State :=
  let (ys, s1) := s.coreBeat n ((raw.take 16 ++ List.replicate (16 - raw.length) 0).map BitVec.toInt)
  let ok := !s.hoGap && !s.inputInvalid (s.govern n)
  (ys.zipIdx.map fun (e : (Int × Bool) × Nat) =>
    ⟨s.now16 + e.2 * 4096 + ofs, e.1.1 * 16, 0, ok, if e.1.2 then fl ||| flClipped else fl, 0⟩, s1)

/-- Two streams of a pair merged alternately (R74). -/
def interleave : List Smp → List Smp → List Smp
  | x :: xs, y :: ys => x :: y :: interleave xs ys
  | xs, [] => xs
  | [], ys => ys

/-- Pair `k` of cores delivers its samples: merged at the first core's square when paired, else at each core's (R71, R74). -/
def State.pairBeat (s : State) (k : Nat) (a b : List (BitVec 12)) : State :=
  let n := 2 * k
  let (xs, s1) := s.coreSamples n 0 (s.liveFlags n) a
  if s.paired n then
    let (ys, s2) := s1.coreSamples (n + 1) 2048 (s.liveFlags n) b
    State.feed 6 s2 n (interleave xs ys)
  else
    let (ys, s2) := s1.coreSamples (n + 1) 0 (s.liveFlags (n + 1)) b
    State.feed 6 (State.feed 6 s2 n xs) (n + 1) ys

/-- Do the converters deliver: in READY, out of standby, with no thermal stop, and with the balls not taken by JTAG? -/
def State.cnvRuns (s : State) : Bool :=
  s.ready && !s.flag rPWR_CTRL fPWR_CTRL_CNV_STBY && !s.flag rTHM_STATUS fTHM_STATUS_STOPPED && !s.pkg.taken

/-- One DCLK: nothing while the dividers are held or the device is in reset, since DCLK then has no edges; otherwise the converters deliver, a
queue of stamps drains, the clock outputs run on, and device time advances (R113, R118, R127, R154). -/
def State.beat (s : State) (c0 c1 c2 c3 : List (BitVec 12)) : State :=
  if s.held || s.glb = 0 then s
  else
    let s1 := if s.cnvRuns then (s.pairBeat 0 c0 c1).pairBeat 1 c2 c3 else s
    let s2 := if s1.ready then s1.tdcBeat else s1
    s2.clkOutBeat.dclkEdge

/-! ### Replay (R17, R341) -/

/-- A record of `items` items as the units that take whole records see it. -/
def replayRec (route x items : Nat) (bs : List Byte) : RRec :=
  ⟨route, bs.take 32, leNat (bs.take 1), leNat ((bs.drop 16).take 8), leNat ((bs.drop 28).take 2) % 2 ^ 9, leNat ((bs.drop 30).take 2), x,
    items, bs.drop 32⟩

/-- The samples of a replayed record: those of a TIME record, or those a RECORD holds; other types have none. They carry the flags `fl`
beside its own, and are missing where `ok` is false. -/
def replaySamples (r : RRec) (d fl : Nat) (ok : Bool) : List Smp :=
  let t := tick16 r.time + r.fine * 128
  let fl := fl ||| r.flags &&& (flOverload ||| flHoldover ||| flCalHold ||| flClipped)
  let tag := fun (l : List Smp) => l.map fun (y : Smp) => { y with fl := fl, ok := ok }
  if 1 ≤ r.typ && r.typ ≤ 3 then
    let fmt := r.typ % 3
    tag (recordSamples fmt (r.bytes.length / smpBytes fmt) t d (List.replicate 64 0 ++ r.bytes))
  else if r.typ = 0x30 then
    let fmt := leNat ((r.bytes.drop 20).take 1) % 4
    tag (recordSamples fmt (leNat (r.bytes.take 4)) t d r.bytes)
  else []

/-- Does square `d` take whole records: the RMU, a Turf cluster, or a decoding codec unit, each only with a record in the plan (R161)? -/
def State.takesRecords (s : State) (d : Nat) : Bool :=
  s.used d && ((56 ≤ d && d < 61) || (61 ≤ d && d < 69 && s.flag (rCMP_CFG (d - 61)) fCMP_CFG_DIR))

/-- A replayed record reaches square `d` on route `rt`: whole, as samples, or as a record into another store port, which loses it where it
was made in HO_GAP (R49). -/
def State.replayTo (s : State) (rt : Route) (d : Nat) (r : RRec) : State :=
  if s.takesRecords d then (s.onReplay fun _ => SMap.upd [] s.replay d fun q => q ++ [{ r with route := rt.num }])
  else if isPort d then
    let rec_ := { r.again with ctx := rt.ctx.getD r.ctx }
    if s.hoGap then (if (s.ctx rec_.ctx).st = .opened then s.loseItems rec_.ctx r.items else s) else s.sendPort rt d rec_
  else
    let (k, s1) := s.fresh
    let xs := replaySamples r (Config.replaySpacing k) s.holdFlag (!s.hoGap)
    if 24 ≤ d && d < 28 then s1.xfmTake (d - 24) xs
    else if 36 ≤ d && d < 44 then s1.ltTake (d - 36) xs
    else if 48 ≤ d && d < 56 then s1.auTake (d - 48) xs
    else if 61 ≤ d && d < 69 then s1.cmpTake (d - 61) xs
    else s1

/-- Is the branch of route `rt` into square `q` taken up: by a record of the route that a unit has not taken yet, or for want of credit? -/
def State.branchBusy (s : State) (rt : Route) (q : Nat) : Bool :=
  if s.takesRecords q then (SMap.get [] s.replay q).any fun v => v.route == rt.num else s.noCredit rt q

/-- A replayed record takes route `rt`; on one that is not WAIT, a branch that is taken up loses it (R158). -/
def State.replayRoute (s : State) (rt : Route) (rr : RRec) (len : Nat) : State :=
  rt.dsts.foldl (fun (t : State) q =>
    if !rt.wait && t.takesRecords q && t.branchBusy rt q then
      ((t.addSat (rGRID_SQ q) fGRID_SQ_DROPS (ceilDiv len 64)).loseFrom q rr.items).raiseLim 1000 13 (some q) 0 0 q
    else t.replayTo rt q rr) s

/-- Store port `p` reads the next record of the contexts that replay through it onto its outbound street, unless a WAIT route of it has a
branch that is taken up (R157); PAD records carry nothing and stay out (assumption 32). -/
def State.replaySend (s : State) (p : Nat) : State :=
  match s.serveNext 5 p with
  | none => s
  | some (x, d, r) =>
    let rts := s.routesFrom (70 + p)
    let e := r.pos + r.len
    if r.typ = tyPad then ((s.beginRec x d r).deliveredTo x d e).finishTo x d e
    else if rts.any fun rt => rt.wait && rt.dsts.any (s.branchBusy rt) then s
    else
      let rr := replayRec 0 x r.items (s.copyRec x d r)
      let s1 := rts.foldl (fun (t : State) rt => t.replayRoute rt rr r.len) (s.beginRec x d r)
      ((s1.deliveredTo x d e).finishTo x d e).hadTurn 5 p (s.ctx x).cls x true

/-- A decoding codec unit takes a replayed record, and its samples leave the unit's square in the record's format (R407), unless a WAIT
route of it has a branch without credit (R157). -/
def State.cmpDecodeFeed (s : State) (u : Nat) : State :=
  if s.stalls (cmpSquare u) then s
  else
    let (s1, xs) := s.cmpDecode u
    State.feed 6 s1 (cmpSquare u) (if s.hoGap then xs.map Smp.missing else xs)

end Sys2Proof.Machine
end

