-- ==== Sys2Proof/Machine/MemCmds.lean ====
section
/-! DEFINITION. The commands of chapters 8, 15, 17 and 18 that the store, the memory controller and the codec units take beside those of
StoreCmds: beats, replay, doorbells, memory and compression. -/

namespace Sys2Proof.Machine

/-! ### The street grid and replay (R158, R341) -/

/-- STREET_BEAT: one DCLK, with the sixteen raw codes of each converter core (R70, R158). -/
def execStreetBeat (c0 c1 c2 c3 : List (BitVec 12)) (s : State) : Res := .next (s.beat c0 c1 c2 c3)

/-- REPLAY_SEND (R341). -/
def execReplaySend (p : Fin 16) (s : State) : Res := .next (s.live fun t => t.clocked fun d => d.replaySend p)

/-! ### Doorbells (R353, R426) -/

/-- ZC_RELEASE: a write of the doorbell word of context `x` (R353). -/
def execZcRelease (x : Fin 4096) (v : Word) (s : State) : Res := .next (s.bar4Write64 (4096 * x) v)

/-- CTX_FLUSH: a write of the doorbell word of context `x` with GO 1 (R426). -/
def execCtxFlush (x : Fin 4096) (v : Word) (s : State) : Res :=
  .next (s.bar4Write64 (4096 * x + 0x18) (v ||| 1))

/-! ### Memory controller (R379 to R395) -/

/-- MEM_MAP_WRITE (R380). -/
def execMemMapWrite (v : Word) (s : State) : Res := .next (s.hostWr .MEM_MAP 0 rMEM_MAP State.wrMemMap v)

/-- MAP_INIT_DONE (R380). -/
def execMapInitDone (s : State) : Res := .next (s.live State.mapInitDone)

/-- MEM_SCHED_WRITE (R383). -/
def execMemSchedWrite (v : Word) (s : State) : Res := .next (s.hostWr .MEM_SCHED 0 rMEM_SCHED State.wrMemSched v)

/-- MEM_GRANULE: channel `ch` issues one of the granules that wait, and what ECC finds beside what is flipped in (R381 to R384, R391). -/
def execMemGranule (ch : Fin 32) (waiting : List Granule) (err : EccErr) (s : State) : Res :=
  .next (s.live fun t => t.channelIssue ch waiting err)

/-- MR4_POLL: the MR4 code of die `d` is read; the pin follows a hot die (R385, R558). -/
def execMr4Poll (d : Fin 16) (code : Fin 8) (s : State) : Res := .next (s.live fun t => (t.mr4Poll d code).thmPin)

/-- REFRESH_DUE on channel `ch`; `wait` says that a GUARANTEED granule waits there (R386). -/
def execRefreshDue (ch : Fin 32) (wait : Bool) (s : State) : Res := .next (s.live fun t => t.refreshDue ch wait)

/-- RETRAIN of channel `ch`, which passes or fails (R389, R390). -/
def execRetrain (ch : Fin 32) (ok : Bool) (s : State) : Res := .next (s.live fun t => t.retrainCh ch ok)

/-- SCRUB_READ (R393). -/
def execScrubRead (err : EccErr) (s : State) : Res := .next (s.live fun t => t.scrubRead err)

/-- MEM_UE_SNAP: a write of the register with SNAP 1 (R395). -/
def execMemUeSnap (v : Word) (s : State) : Res :=
  .next (s.hostWr .MEM_UE_SNAP 0 rMEM_UE_SNAP State.wrMemUeSnap (fset v fMEM_UE_SNAP_SNAP 1))

/-! ### Compression (R404 to R411) -/

/-- CMP_FLUSH: a write of CMP_STREAM[u] with FLUSH 1 (R406). -/
def execCmpFlush (u : Fin 8) (v : Word) (s : State) : Res :=
  .next (s.hostWr .CMP_STREAM u (rCMP_STREAM u) (State.wrCmpStream u) (fset v fCMP_STREAM_FLUSH 1))

/-- CMP_STREAM_BLOCK (R405). -/
def execCmpStreamBlock (u : Fin 8) (s : State) : Res := .next (s.live fun t => t.clocked fun d => d.cmpStep u)

/-- CMP_DECODE_RECORD (R407). -/
def execCmpDecodeRecord (u : Fin 8) (s : State) : Res := .next (s.live fun t => t.clocked fun d => d.cmpDecodeFeed u)

/-- CMP_JOB_GO: a write of CMP_JOB_CTRL[u] with GO 1; `pre` is what the device reads of the source's first bytes (R408). -/
def execCmpJobGo (u : Fin 8) (v : Word) (pre : Option (List Byte)) (s : State) : Res :=
  .next (s.hostWr .CMP_JOB_CTRL u (rCMP_JOB_CTRL u) (State.wrCmpJobCtrl u pre) (fset v fCMP_JOB_CTRL_GO 1))

/-- CMP_JOB_BLOCK; `data` is what the device reads of the source from IN_DONE on (R409). -/
def execCmpJobBlock (u : Fin 8) (data : Option (List Byte)) (s : State) : Res := .next (s.live fun t => t.jobBlock u data)

/-- CMP_JOB_RESUME: a write of CMP_JOB_CTRL[u] with RESUME 1 (R409). -/
def execCmpJobResume (u : Fin 8) (v : Word) (s : State) : Res :=
  .next (s.hostWr .CMP_JOB_CTRL u (rCMP_JOB_CTRL u) (State.wrCmpJobCtrl u none) (fset v fCMP_JOB_CTRL_RESUME 1))

/-- CMP_JOB_ABORT: a write of CMP_JOB_CTRL[u] with ABORT 1 (R410). -/
def execCmpJobAbort (u : Fin 8) (v : Word) (s : State) : Res :=
  .next (s.hostWr .CMP_JOB_CTRL u (rCMP_JOB_CTRL u) (State.wrCmpJobCtrl u none) (fset v fCMP_JOB_CTRL_ABORT 1))

/-- CMP_JOB_DONE (R410). -/
def execCmpJobDone (u : Fin 8) (s : State) : Res := .next (s.live fun t => t.jobDone u)

end Sys2Proof.Machine
end

