-- ==== Sys2Proof/Machine/MonCmds.lean ====
section
/-! DEFINITION. The commands of chapter 5: the monitors and the pulse generators, with the trigger events of both (Table 12-1). -/

namespace Sys2Proof.Machine

/-- The latch of monitor `m` has risen by `h`: the trigger fabric sees it (Table 12-1). -/
def State.monRise (s : State) (m : Nat) (h : State → State) : State :=
  let t := h s
  if t.flag (rMON_STATUS m) fMON_STATUS_LATCHED && !s.flag (rMON_STATUS m) fMON_STATUS_LATCHED then t.trgMon m else t

/-- An edge of generator `g`: a scheduled start of the active level is a trigger source while the generator is not tripped or held (Table 12-1). -/
def State.pgEdgeTrg (s : State) (g : Nat) : State :=
  let x := s.pgen g
  let t := s.pgEdge g
  if s.flag (rPG_STATUS g) fPG_STATUS_RUNNING && !s.held && !x.hi && !s.flag (rPG_STATUS g) fPG_STATUS_TRIPPED then
    t.trgPg g (s.pgStart g + x.k * s.pgPeriod g)
  else t

/-- MONITOR_TRIP: monitor `m` has seen `v` mV for its minimum width (R99). -/
def execMonitorTrip (m : Fin 12) (v : Int) (s : State) : Res := .next (s.live fun t => t.monRise m fun u => u.monTrip m v)

/-- MON_SAMPLE: a sample of `v` mV in SAMPLED mode (R100). -/
def execMonSample (m : Fin 12) (v : Int) (s : State) : Res := .next (s.live fun t => t.monRise m fun u => u.monSample m v)

/-- MON_PERIOD_CLEAR (R101). -/
def execMonPeriodClear (m : Fin 12) (s : State) : Res := .next (s.live fun t => t.monPeriod m)

/-- MON_LATCH_CLEAR: a write of MON_STATUS[m] with LATCHED 1 (R101). -/
def execMonLatchClear (m : Fin 12) (v : Word) (s : State) : Res :=
  .next (s.hostWr .MON_STATUS m (rMON_STATUS m) (State.wrMonStatus m) (fset v fMON_STATUS_LATCHED 1))

/-- MON_CFG_WRITE (R102). -/
def execMonCfgWrite (m : Fin 12) (v : Word) (s : State) : Res :=
  .next (s.hostWr .MON_CFG m (rMON_CFG m) (State.wrMonCfg m) v)

/-- PG_SW_TRIP: a write of PG_CFG[g] with SW_TRIP 1 (R104). -/
def execPgSwTrip (g : Fin 8) (v : Word) (s : State) : Res :=
  .next (s.hostWr .PG_CFG g (rPG_CFG g) (State.wrPgCfg g) (fset v fPG_CFG_SW_TRIP 1))

/-- PG_TRIP_CLEAR: a write of PG_STATUS[g] with TRIPPED 1 (R106). -/
def execPgTripClear (g : Fin 8) (v : Word) (s : State) : Res :=
  .next (s.hostWr .PG_STATUS g (rPG_STATUS g) (State.wrPgStatus g) (fset v fPG_STATUS_TRIPPED 1))

/-- PG_SAFE_WRITE: a write of PG_CFG[g] (R105). -/
def execPgSafeWrite (g : Fin 8) (v : Word) (s : State) : Res :=
  .next (s.hostWr .PG_CFG g (rPG_CFG g) (State.wrPgCfg g) v)

/-- PG_ARM: a write of PG_CFG[g] with ARM 1 (R108). -/
def execPgArm (g : Fin 8) (v : Word) (s : State) : Res :=
  .next (s.hostWr .PG_CFG g (rPG_CFG g) (State.wrPgCfg g) (fset v fPG_CFG_ARM 1))

/-- PG_SCHEDULE_COMMIT (R108). -/
def execPgScheduleCommit (g : Fin 8) (s : State) : Res := .next (s.live fun t => t.clocked fun d => d.pgCommit g)

/-- PG_EDGE (R107, R110). -/
def execPgEdge (g : Fin 8) (s : State) : Res := .next (s.live fun t => t.pgEdgeTrg g)

end Sys2Proof.Machine
end

