-- ==== Sys2Proof/Machine/NetCmds.lean ====
section
/-! DEFINITION. The commands of chapter 21: ports, frames, the exception rings and Avenue. -/

namespace Sys2Proof.Machine

/-! ### Ports and frames (R457 to R464) -/

/-- NET_PORT_CFG_WRITE (R457). -/
def execNetPortCfgWrite (p : Fin 4) (v : Word) (s : State) : Res :=
  .next (s.hostWr .NET_PORT_CFG p (rNET_PORT_CFG p) (State.wrPortCfg p) v)

/-- NET_LINK_UP (R457). -/
def execNetLinkUp (i : Fin 16) (s : State) : Res := .next (s.live fun t => t.netUp i)

/-- NET_LINK_LOSS (R460). -/
def execNetLinkLoss (i : Fin 16) (s : State) : Res := .next (s.live fun t => t.netDown i)

/-- NET_FRAME_RX (R458, R462, R464). -/
def execNetFrameRx (i : Fin 16) (f : NetFrame) (s : State) : Res := .next (s.live fun t => t.netRx i f)

/-- PAUSE_FRAME_RX of `q` quanta, or a PFC frame with its enabled priorities and their quanta (R459). -/
def execPauseFrameRx (i : Fin 16) (q : Fin 65536) (pfc : Option (List (Fin 8 × Fin 65536))) (s : State) : Res :=
  .next (s.live fun t => t.pauseRx i q (pfc.map fun l => l.map fun e => (e.1.val, e.2.val)))

/-- PAUSE_EXPIRY (R459). -/
def execPauseExpiry (i : Fin 16) (s : State) : Res := .next (s.live fun t => t.pauseExpire i)

/-- EXQ_RX_RELEASE: a write of NET_EXQ_RX_IDX[i] (R463). -/
def execExqRxRelease (i : Fin 16) (v : Word) (s : State) : Res :=
  .next (s.hostWr .NET_EXQ_RX_IDX i (rNET_EXQ_RX_IDX i) (State.wrExqRxIdx i) v)

/-- EXQ_TX_TAIL: a write of NET_EXQ_TX_IDX[i] (R463). -/
def execExqTxTail (i : Fin 16) (v : Word) (s : State) : Res :=
  .next (s.hostWr .NET_EXQ_TX_IDX i (rNET_EXQ_TX_IDX i) (State.wrExqTxIdx i) v)

/-- EXQ_TX_SEND: the next descriptor with what host memory gives for it and for its frame, and the stamp below the tick in 1/512 (R463). -/
def execExqTxSend (i : Fin 16) (desc data : HostRead) (fine : Fin 512) (s : State) : Res :=
  .next (s.live fun t => t.exqSend i desc data fine)

/-! ### Avenue commands (R468, R475) -/

/-- AVE_CMD_OPEN: AVE_CMD OPEN of avenue `a`. -/
def execAveCmdOpen (a : Fin 4096) (v : Word) (s : State) : Res :=
  .next (s.hostWr .AVE_CMD a (rAVE_CMD a) (State.wrAveCmd a) (fset v fAVE_CMD_CMD 1))

/-- AVE_CMD_CLOSE: AVE_CMD CLOSE. -/
def execAveCmdClose (a : Fin 4096) (v : Word) (s : State) : Res :=
  .next (s.hostWr .AVE_CMD a (rAVE_CMD a) (State.wrAveCmd a) (fset v fAVE_CMD_CMD 2))

/-- AVE_CMD_RESET: AVE_CMD RESET. -/
def execAveCmdReset (a : Fin 4096) (v : Word) (s : State) : Res :=
  .next (s.hostWr .AVE_CMD a (rAVE_CMD a) (State.wrAveCmd a) (fset v fAVE_CMD_CMD 3))

/-- AVE_CMD_SKIP: AVE_CMD SKIP. -/
def execAveCmdSkip (a : Fin 4096) (v : Word) (s : State) : Res :=
  .next (s.hostWr .AVE_CMD a (rAVE_CMD a) (State.wrAveCmd a) (fset v fAVE_CMD_CMD 4))

/-! ### Received packets (R466 to R481) -/

/-- A packet of a TYPE reaches sub-port `i`, while it has LINK (R460). -/
def State.packetIn (s : State) (i : Nat) (ty : Nat) (p : AvePkt) : State :=
  if s.linkUp i then s.aveRx i { p with w0 := fset p.w0 ⟨12, 4⟩ ty } else s

/-- OPEN (R468). -/
def execOpen (i : Fin 16) (p : AvePkt) (s : State) : Res := .next (s.live fun t => t.packetIn i 1 p)

/-- OPEN_ACK (R468). -/
def execOpenAck (i : Fin 16) (p : AvePkt) (s : State) : Res := .next (s.live fun t => t.packetIn i 2 p)

/-- DATA (R470). -/
def execData (i : Fin 16) (p : AvePkt) (s : State) : Res := .next (s.live fun t => t.packetIn i 3 p)

/-- ACK (R471). -/
def execAck (i : Fin 16) (p : AvePkt) (s : State) : Res := .next (s.live fun t => t.packetIn i 4 p)

/-- NAK (R476). -/
def execNak (i : Fin 16) (p : AvePkt) (s : State) : Res := .next (s.live fun t => t.packetIn i 5 p)

/-- CLOSE (R468). -/
def execClose (i : Fin 16) (p : AvePkt) (s : State) : Res := .next (s.live fun t => t.packetIn i 6 p)

/-- CLOSE_ACK (R468). -/
def execCloseAck (i : Fin 16) (p : AvePkt) (s : State) : Res := .next (s.live fun t => t.packetIn i 7 p)

/-- TRIGGER (R478). -/
def execTrigger (i : Fin 16) (p : AvePkt) (s : State) : Res := .next (s.live fun t => t.packetIn i 8 p)

/-- TRIG_ACK (R481). -/
def execTrigAck (i : Fin 16) (p : AvePkt) (s : State) : Res := .next (s.live fun t => t.packetIn i 9 p)

/-! ### Sending and timers (R469, R471, R477, R481) -/

/-- AVE_DATA_SEND: sub-port `i` sends the next DATA packet of the avenue served first (R369, R469). -/
def execAveDataSend (i : Fin 16) (s : State) : Res := .next (s.live fun t => t.aveServe i)

/-- AVE_RTO_EXPIRY (R471). -/
def execAveRtoExpiry (a : Fin 4096) (s : State) : Res := .next (s.live fun t => t.aveRto a)

/-- AVE_ACK_TIMER (R471). -/
def execAveAckTimer (a : Fin 4096) (s : State) : Res := .next (s.live fun t => t.aveAckTimer a)

/-- AVE_IDLE_ACK (R471). -/
def execAveIdleAck (a : Fin 4096) (s : State) : Res := .next (s.live fun t => t.aveIdleAck a)

/-- AVE_DEAD_EXPIRY (R471). -/
def execAveDeadExpiry (a : Fin 4096) (s : State) : Res := .next (s.live fun t => t.aveDead a)

/-- AVE_QUARANTINE_END (R477). -/
def execAveQuarantineEnd (a : Fin 4096) (s : State) : Res := .next (s.live fun t => t.aveQuarEnd a)

/-- AVE_SNAP: a write of AVE_SNAP[a] with SNAP 1 (R484). -/
def execAveSnap (a : Fin 4096) (v : Word) (s : State) : Res :=
  .next (s.hostWr .AVE_SNAP a (rAVE_SNAP a) (State.wrAveSnap a) (fset v fAVE_SNAP_SNAP 1))

/-- TRIG_SEND_GO: a write of AVE_TRIG_SEND with GO 1 (R481). -/
def execTrigSendGo (v : Word) (s : State) : Res :=
  .next (s.hostWr .AVE_TRIG_SEND 0 rAVE_TRIG_SEND State.wrTrigSend (fset v fAVE_TRIG_SEND_GO 1))

/-- TRIG_RESEND: the oldest outstanding message of avenue `a` (R481). -/
def execTrigResend (a : Fin 4096) (s : State) : Res := .next (s.live fun t => t.trigResend a)

/-- TRIG_MESSAGE_RELEASE: slot `k` (R478). -/
def execTrigMessageRelease (k : Fin 4) (s : State) : Res := .next (s.live fun t => t.slotDue k)

end Sys2Proof.Machine
end

