-- ==== Sys2Proof/Machine/PkgCmds.lean ====
section
/-! DEFINITION. The commands of chapter 25: rails, temperatures, power, the SMBus target and the test access port. -/

namespace Sys2Proof.Machine

/-! ### Rails, temperatures and power (R545, R555 to R560) -/

/-- RAIL_LOW: rail `r` is measured at `mv` (0.1 mV), between 90 % and 97 % of nominal (R545). -/
def execRailLow (r : Fin 11) (mv : Fin 65536) (s : State) : Res := .next (s.live fun t => t.railLow r mv)

/-- RAIL_HIGH: above nominal + 3 % (R564). -/
def execRailHigh (r : Fin 11) (mv : Fin 65536) (s : State) : Res := .next (s.live fun t => t.railHigh r mv)

/-- RAIL_RECOVERED: every rail is above 90 %; `within` says that rail `r` is back within 3 % (R545). -/
def execRailRecovered (r : Fin 11) (within : Bool) (s : State) : Res := .next (s.railRecovered r within)

/-- THM_SENSOR_UPDATE: the sensors in 1/16 °C, and each rail's voltage (0.1 mV) and current (10 mA) (R558). -/
def execThmSensorUpdate (temps : List Int) (rails : List (Nat × Nat)) (s : State) : Res :=
  .next (s.live fun t => t.thmUpdate temps rails)

/-- CNV_STBY_WRITE: a write of PWR_CTRL (R555). -/
def execCnvStbyWrite (v : Word) (s : State) : Res := .next (s.hostWr .PWR_CTRL 0 rPWR_CTRL State.wrPwrCtrl v)

/-- SR_EN_WRITE: a write of PWR_CTRL (R556). -/
def execSrEnWrite (v : Word) (s : State) : Res := .next (s.hostWr .PWR_CTRL 0 rPWR_CTRL State.wrPwrCtrl v)

/-- SELF_REFRESH_ENTRY (R556). -/
def execSelfRefreshEntry (s : State) : Res := .next (s.live State.srEnter)

/-! ### SMBus (R561, R562): the target answers from the end of boot step 1 -/

/-- A command that the target takes: with `wrongPec` or another byte count than `n` it is not acknowledged, has no effect and is counted. -/
def State.smbCmd (s : State) (wrongPec : Bool) (len n : Nat) (h : State → State) : State :=
  if !s.awake then s
  else
    let bad := wrongPec && s.flag rMGT_SMB fMGT_SMB_PEC_EN
    if bad || len != n then
      ((s.addSat rMGT_SMB fMGT_SMB_PEC_ERR 1).raiseLim 1000000 24).updPkg fun p => { p with smbPec := p.smbPec || bad }
    else h (s.updPkg fun p => { p with smbPec := false })

/-- SMB_SET_OFFSET: a block write of the pointer, least significant byte first (R2); one that is no multiple of 4 or no BAR0 offset is not
acknowledged. -/
def execSmbSetOffset (bytes : List Byte) (wrongPec : Bool) (s : State) : Res :=
  .next (s.smbCmd wrongPec bytes.length 4 fun t =>
    let a := leNat bytes
    if a % 4 = 0 && a < 2 ^ 26 then t.updPkg fun p => { p with ptr := a } else t)

/-- SMB_READ: a 32-bit read on the SMBus path at the pointer, which advances by 4. -/
def execSmbRead (s : State) : Res :=
  .next (s.smbCmd false 4 4 fun t =>
    let a := t.pkg.ptr
    let u := t.halfRead .smbus .bar0 (a - a % 8) (a % 8 == 4)
    (u.updPkg fun p => { p with ptr := (a + 4) % 2 ^ 26 }).send (.smb (u.readData.toNat % 2 ^ 32)))

/-- SMB_WRITE: a 32-bit write on the SMBus path at the pointer, which advances by 4, or a discarded one; `env` is what the write asks of the
outside. -/
def execSmbWrite (bytes : List Byte) (wrongPec : Bool) (env : Env) (s : State) : Res :=
  .next (s.smbCmd wrongPec bytes.length 4 fun t =>
    let a := t.pkg.ptr
    let u := t.halfWrite .smbus .bar0 (a - a % 8) (a % 8 == 4) (BitVec.ofNat 32 (leNat bytes)) env
    u.updPkg fun p => { p with ptr := (a + 4) % 2 ^ 26, smbDisc := t.smbBlocked .smbus (a - a % 8) })

/-- SMB_STATUS: bit 0 last write discarded, bit 1 last PEC error, bits [4:2] STATE. -/
def execSmbStatus (s : State) : Res :=
  .next (if s.awake then s.send (.smb (b2n s.pkg.smbDisc + 2 * b2n s.pkg.smbPec + 4 * s.glb)) else s)

/-- MGT_SMB_LOCK: a write of MGT_SMB with LOCK 1 through BAR0 (R562). -/
def execMgtSmbLock (v : Word) (s : State) : Res :=
  .next (s.hostWr .MGT_SMB 0 rMGT_SMB (State.wrMgtSmb .host) (fset v fMGT_SMB_LOCK 1))

/-! ### Test access port (R563): it does not depend on the device's reset -/

/-- IDCODE: the identification register shifts out. -/
def execIdcode (s : State) : Res := .next ((s.tapIr 1).send (.tdo s.idBits))

/-- SAMPLE_PRELOAD: the boundary register captures the balls, which shift out, or is loaded with `bits`. -/
def execSamplePreload (capture : Bool) (bits : List Bool) (s : State) : Res :=
  .next (
    let t := (s.tapIr 2).tapCells bits
    if capture then t.send (.tdo t.pkg.cells) else t)

/-- EXTEST: the boundary register drives the balls. -/
def execExtest (s : State) : Res := .next (((s.tapIr 3).tapTake).send (.balls s.pkg.cells))

/-- CLAMP: the outputs hold what the boundary register gives, and bypass is selected. -/
def execClamp (s : State) : Res := .next (((s.tapIr 4).tapTake).send (.balls s.pkg.cells))

/-- HIGHZ: the outputs float. -/
def execHighz (s : State) : Res := .next (((s.tapIr 5).tapTake).send .float)

/-- EXTEST_PULSE: the pulse test drives the SERDES class from the boundary register. -/
def execExtestPulse (s : State) : Res := .next (((s.tapIr 6).tapTake).send (.balls s.pkg.cells))

/-- EXTEST_TRAIN: the train test drives the SERDES class from the boundary register. -/
def execExtestTrain (s : State) : Res := .next (((s.tapIr 7).tapTake).send (.balls s.pkg.cells))

/-- BYPASS. -/
def execBypass (s : State) : Res := .next (s.tapIr 0xFF)

/-- TAP_RESET: IDCODE is selected. -/
def execTapReset (s : State) : Res := .next (s.tapIr 1)

end Sys2Proof.Machine
end

