-- ==== Sys2Proof/Machine/PlanCmds.lean ====
section
/-! DEFINITION. The commands of chapter 8: plans and parameter commits. A PLAN_CMD command is a write of that register with its code in CMD
(R162). -/

namespace Sys2Proof.Machine

/-- PLAN_LOAD: PLAN_CMD LOAD (R162). -/
def execPlanLoad (v : Word) (s : State) : Res := .next (s.hostWr .PLAN_CMD 0 rPLAN_CMD State.wrPlanCmd (fset v fPLAN_CMD_CMD 1))

/-- PLAN_FETCH_DONE: the image has been read, or a read of it has failed (R163, R433, R434). -/
def execPlanFetchDone (img : HostRead) (s : State) : Res := .next (s.live fun t => t.planFetchDone img)

/-- PLAN_ACTIVATE: PLAN_CMD ACTIVATE (R167). -/
def execPlanActivate (v : Word) (s : State) : Res :=
  .next (s.hostWr .PLAN_CMD 0 rPLAN_CMD State.wrPlanCmd (fset v fPLAN_CMD_CMD 2))

/-- PLAN_ABORT: PLAN_CMD ABORT (R171). -/
def execPlanAbort (v : Word) (s : State) : Res := .next (s.hostWr .PLAN_CMD 0 rPLAN_CMD State.wrPlanCmd (fset v fPLAN_CMD_CMD 3))

/-- PLAN_DISCARD: PLAN_CMD DISCARD (R162). -/
def execPlanDiscard (v : Word) (s : State) : Res :=
  .next (s.hostWr .PLAN_CMD 0 rPLAN_CMD State.wrPlanCmd (fset v fPLAN_CMD_CMD 4))

/-- PLAN_STOP: PLAN_CMD STOP (R172). -/
def execPlanStop (v : Word) (s : State) : Res := .next (s.hostWr .PLAN_CMD 0 rPLAN_CMD State.wrPlanCmd (fset v fPLAN_CMD_CMD 5))

/-- PLAN_COMMIT: PLAN_TIME is reached while ACTIVATING (R168); no time is reached while the dividers are held (R118). -/
def execPlanCommit (s : State) : Res := .next (s.live fun t => t.clocked State.planCommit)

/-- PLAN_STOP_COMMIT: PLAN_TIME is reached while STOPPING (R172). -/
def execPlanStopCommit (s : State) : Res := .next (s.live fun t => t.clocked State.planStopCommit)

/-- PCOMMIT_GO: a write of PLAN_PCOMMIT with GO 1 (R176). -/
def execPcommitGo (v : Word) (s : State) : Res :=
  .next (s.hostWr .PLAN_PCOMMIT 0 rPLAN_PCOMMIT State.wrPcommit (fset v fPLAN_PCOMMIT_GO 1))

/-- PARAM_COMMIT (R176). -/
def execParamCommit (s : State) : Res := .next (s.live fun t => t.clocked State.paramCommit)

end Sys2Proof.Machine
end

