-- ==== Sys2Proof/Machine/StkCmds.lean ====
section
/-! DEFINITION. The commands of chapters 23 and 24: the Stoker's queue and commands, resets and boot, events and injection. -/

namespace Sys2Proof.Machine

/-! ### The Stoker's commands (R502 to R515): the head of the queue begins, or goes on -/

/-- STK_CMD_QUEUE: a write of STK_CMD (R502). -/
def execStkCmdQueue (v : Word) (s : State) : Res := .next (s.hostWr .STK_CMD 0 rSTK_CMD State.wrStkCmd v)

/-- STK_NOP (R503). -/
def execStkNop (s : State) : Res := .next (s.live State.stkNop)

/-- FLASH_READ (R503). -/
def execFlashRead (s : State) : Res := .next (s.live State.stkFlashRead)

/-- FLASH_UPDATE: what host memory gives of the image, and whether the read-back matches (R508). -/
def execFlashUpdate (img : HostRead) (ok : Bool) (s : State) : Res := .next (s.live fun t => t.stkFlashUpdate img ok)

/-- CAL_STORE (R148). -/
def execCalStore (s : State) : Res := .next (s.live State.stkCalStore)

/-- KEY_PROVISION: what host memory gives of the key, and whether the flash takes it (R513). -/
def execKeyProvision (data : HostRead) (ok : Bool) (s : State) : Res := .next (s.live fun t => t.stkKeyProvision data ok)

/-- KEY_LOCK; `ok` that the fuses take it (R513). -/
def execKeyLock (ok : Bool) (s : State) : Res := .next (s.live fun t => t.stkKeyLock ok)

/-- SVN_COMMIT (R514). -/
def execSvnCommit (ok : Bool) (s : State) : Res := .next (s.live fun t => t.stkSvnCommit ok)

/-- SECURE_ENABLE (R515). -/
def execSecureEnable (ok : Bool) (s : State) : Res := .next (s.live fun t => t.stkSecureEnable ok)

/-- STK_CANCEL: a write of STK_CANCEL with GO 1 (R504). -/
def execStkCancel (v : Word) (s : State) : Res :=
  .next (s.hostWr .STK_CANCEL 0 rSTK_CANCEL State.wrStkCancel (fset v fSTK_CANCEL_GO 1))

/-- STK_CS_ECC_ERROR: an uncorrectable word (`bad`), in patch RAM or not (R500, R537). -/
def execStkCsEccError (bad patch : Bool) (s : State) : Res := .next (s.live fun t => t.csError bad patch)

/-- STK_WATCHDOG (R535). -/
def execStkWatchdog (s : State) : Res := .next (s.live State.watchdog)

/-! ### Resets and boot (R510, R545, R547) -/

/-- PORST_ASSERT: a pin, or a rail below 90 % (R545, R547). -/
def execPorstAssert (p : ResetPin) (s : State) : Res := .next (s.resetAssert p)

/-- PORST_RELEASE, with the straps that a release of PORST# samples (R510). -/
def execPorstRelease (p : ResetPin) (bootsel : Fin 4) (smbAddr : Fin 8) (s : State) : Res := .next (s.resetRelease p bootsel smbAddr)

/-- BOOT_STEP_END (R510, R511). -/
def execBootStepEnd (e : BootEnd) (s : State) : Res := .next (s.bootStep e)

/-! ### Events (R522 to R540) -/

/-- EVT_RELEASE: a write of EVT_RING_IDX (R526). -/
def execEvtRelease (v : Word) (s : State) : Res := .next (s.hostWr .EVT_RING_IDX 0 rEVT_RING_IDX State.wrRingIdx v)

/-- RING_EN_WRITE: a write of EVT_CTRL (R528). -/
def execRingEnWrite (v : Word) (s : State) : Res := .next (s.hostWr .EVT_CTRL 0 rEVT_CTRL State.wrEvtCtrl v)

/-- EVT_SWTEST: a write of the register (R522). -/
def execEvtSwtest (v : Word) (s : State) : Res := .next (s.hostWr .EVT_SWTEST 0 rEVT_SWTEST State.wrSwtest v)

/-- A write of EVT_INJ with GO 1 and a TYPE. -/
def injWord (v : Word) (ty : Nat) : Word := fsets v [(fEVT_INJ_GO, 1), (fEVT_INJ_TYPE, ty)]

/-- INJECT_EVENT (R540). -/
def execInjectEvent (v : Word) (s : State) : Res := .next (s.hostWr .EVT_INJ 0 rEVT_INJ State.wrEvtInj (injWord v 1))

/-- INJECT_CONTEXT (R540). -/
def execInjectContext (v : Word) (s : State) : Res := .next (s.hostWr .EVT_INJ 0 rEVT_INJ State.wrEvtInj (injWord v 2))

/-- INJECT_MEM_CE (R540). -/
def execInjectMemCe (v : Word) (s : State) : Res := .next (s.hostWr .EVT_INJ 0 rEVT_INJ State.wrEvtInj (injWord v 3))

/-- INJECT_MEM_UE (R540). -/
def execInjectMemUe (v : Word) (s : State) : Res := .next (s.hostWr .EVT_INJ 0 rEVT_INJ State.wrEvtInj (injWord v 4))

/-- INJECT_RESTART (R540). -/
def execInjectRestart (v : Word) (s : State) : Res := .next (s.hostWr .EVT_INJ 0 rEVT_INJ State.wrEvtInj (injWord v 5))

/-- INJECT_LOCK: a write of EVT_INJ with LOCK 1 (R540). -/
def execInjectLock (v : Word) (s : State) : Res :=
  .next (s.hostWr .EVT_INJ 0 rEVT_INJ State.wrEvtInj (fset v fEVT_INJ_LOCK 1))

end Sys2Proof.Machine
end

