-- ==== Sys2Proof/Machine/TbsCmds.lean ====
section
/-! DEFINITION. The commands of chapter 6: device time, its servo, the time inputs and frequency by regression. -/

namespace Sys2Proof.Machine

/-- TBS_ADJ_WRITE by software (R114). -/
def execTbsAdjWrite (v : Word) (s : State) : Res := .next (s.hostWr .TBS_ADJ 0 rTBS_ADJ (State.wrAdj .host) v)

/-- TBS_SLEW_WRITE by software (R115). -/
def execTbsSlewWrite (v : Word) (s : State) : Res := .next (s.hostWr .TBS_SLEW 0 rTBS_SLEW (State.wrSlew .host) v)

/-- TBS_STEP_WRITE (R116). -/
def execTbsStepWrite (v : Word) (s : State) : Res := .next (s.hostWr .TBS_STEP 0 rTBS_STEP (fun w t => t.wrStep w) v)

/-- SERVO_SOURCE_WRITE: a write of TBS_SERVO (R120). -/
def execServoSourceWrite (v : Word) (s : State) : Res := .next (s.hostWr .TBS_SERVO 0 rTBS_SERVO State.wrServo v)

/-- HOST_LOCK_WRITE: a write of TBS_SERVO (R120). -/
def execHostLockWrite (v : Word) (s : State) : Res := .next (s.hostWr .TBS_SERVO 0 rTBS_SERVO State.wrServo v)

/-- PTP_UPDATE: an offset estimate in ps; `step` is whether the Stoker steps in ACQUIRE (R119, R121). -/
def execPtpUpdate (offPs : Int) (step : Bool) (s : State) : Res := .next (s.live fun t => t.ptpUpdate offPs step)

/-- SERVO_MISS_TIMEOUT (R120). -/
def execServoMissTimeout (s : State) : Res := .next (s.live fun t => t.clocked State.servoMiss)

/-- HOST_TIMEOUT (R120). -/
def execHostTimeout (s : State) : Res := .next (s.live fun t => t.clocked State.servoHostTimeout)

/-- An edge at channel `c`, and the trigger event of a stamped one; channels 0 to 7 are sources while EN is 1 (Table 12-1). -/
def State.edgeIn (s : State) (c t : Nat) (rising : Bool) : State :=
  match s.tdcEdge c t rising with
  | (u, .stamped at_ loss w) => if 8 ≤ c || u.flag (rTDC_CH c) fTDC_CH_EN then u.trgTdc c at_ loss w else u
  | (u, .lost) => u
  | (u, .none) => u

/-- TDC_EDGE at time `t` in 1/512 tick, before SKEW; a thermal stop has powered the time inputs down (R123, R560). -/
def execTdcEdge (c : Fin 12) (t : Nat) (rising : Bool) (s : State) : Res :=
  .next (s.live fun u => if u.flag rTHM_STATUS fTHM_STATUS_STOPPED then u else u.edgeIn c t rising)

/-- STAMPS_FLUSH (R127). -/
def execStampsFlush (c : Fin 12) (s : State) : Res := .next (s.live fun t => t.clocked fun u => u.tdcFlush c)

/-- VERNIER_REMEASURE: the two ring periods against DCLK, as measured (R123). -/
def execVernierRemeasure (a b : Nat) (s : State) : Res := .next (s.live fun t => (t.onTdc fun z => { z with rings := (a, b) }))

/-- FREQ_EN_WRITE: a write of TDC_FREQ_CFG with EN 1 (R132). -/
def execFreqEnWrite (v : Word) (s : State) : Res :=
  .next (s.hostWr .TDC_FREQ_CFG 0 rTDC_FREQ_CFG State.wrFreqCfg (fset v fTDC_FREQ_CFG_EN 1))

/-- FREQ_GATE_OPEN: device time reaches the start of the gate (R132). -/
def execFreqGateOpen (s : State) : Res :=
  .next (s.live fun t => if t.flag rTDC_FREQ_CFG fTDC_FREQ_CFG_EN then t.reach t.gateSpan.1 else t)

/-- FREQ_GATE_END (R132, R134). -/
def execFreqGateEnd (s : State) : Res := .next (s.live fun t => t.clocked State.freqGateEnd)

/-- TDC_FREQ_SNAP: a write of the register with SNAP 1 (R10). -/
def execTdcFreqSnap (v : Word) (s : State) : Res :=
  .next (s.hostWr .TDC_FREQ_SNAP 0 rTDC_FREQ_SNAP State.wrFreqSnap (fset v fTDC_FREQ_SNAP_SNAP 1))

end Sys2Proof.Machine
end

