-- ==== Sys2Proof/Machine/TrgCmds.lean ====
section
/-! DEFINITION. The commands of chapters 12 and 13: trigger sources and qualifiers, acquisition units and the record measurement unit. -/

namespace Sys2Proof.Machine

/-! ### Trigger sources (R257 to R266) -/

/-- TBUS_EVENT: line `l` has been low for four samples from device time `t` on (R260). -/
def execTbusEvent (l : Fin 8) (t : Nat) (s : State) : Res := .next (s.live fun u => u.clocked fun d => d.busEvent l t)

/-- TBUS_PULSE_END (R261). -/
def execTbusPulseEnd (l : Fin 8) (s : State) : Res := .next (s.live fun t => t.clocked fun d => d.busPulseEnd l)

/-- TBUS_LINE_HIGH (R260). -/
def execTbusLineHigh (l : Fin 8) (s : State) : Res := .next (s.live fun t => t.clocked fun d => d.busHigh l)

/-- LT_CROSSING (R262 to R264). -/
def execLtCrossing (i : Fin 8) (s : State) : Res := .next (s.live fun t => t.clocked fun d => d.ltCrossing i)

/-- FM_FRAME (R266). -/
def execFmFrame (u : Fin 4) (s : State) : Res := .next (s.live fun t => t.clocked fun d => d.fmFrame u)

/-- TRG_TIMER_EVENT (R257). -/
def execTrgTimerEvent (n : Fin 4) (s : State) : Res := .next (s.live fun t => t.clocked fun d => d.trgTimer n)

/-- TRG_SW_FIRE: a write of TRG_SW (R257). -/
def execTrgSwFire (v : Word) (s : State) : Res := .next (s.hostWr .TRG_SW 0 rTRG_SW State.wrTrgSw v)

/-! ### Qualifiers (R268 to R273) -/

/-- TQ_EVENT_ARRIVAL (R268). -/
def execTqEventArrival (q : Fin 16) (s : State) : Res := .next (s.live fun t => t.clocked fun d => d.tqArrive q)

/-- TQ_HORIZON (R268, R269). -/
def execTqHorizon (q : Fin 16) (s : State) : Res := .next (s.live fun t => t.clocked fun d => d.tqHorizon q)

/-- TQ_AUTO_TIMEOUT (R271). -/
def execTqAutoTimeout (q : Fin 16) (s : State) : Res := .next (s.live fun t => t.clocked fun d => d.tqAuto q)

/-- TQ_FREE_RUN_DECISION (R271). -/
def execTqFreeRunDecision (q : Fin 16) (s : State) : Res := .next (s.live fun t => t.clocked fun d => d.tqFree q)

/-- TQ_ARM: a write of TRG_TQ_CFG[q] with ARM 1 (R271). -/
def execTqArm (q : Fin 16) (v : Word) (s : State) : Res :=
  .next (s.hostWr .TRG_TQ_CFG q (rTRG_TQ_CFG q) (State.wrTqCfg q) (fset v fTRG_TQ_CFG_ARM 1))

/-- TQ_DISARM: a write of TRG_TQ_CFG[q] with DISARM 1 (R271). -/
def execTqDisarm (q : Fin 16) (v : Word) (s : State) : Res :=
  .next (s.hostWr .TRG_TQ_CFG q (rTRG_TQ_CFG q) (State.wrTqCfg q) (fset v fTRG_TQ_CFG_DISARM 1))

/-- TRG_TQ_SNAP: a write of TRG_TQ_SNAP[q] with SNAP 1 (R272). -/
def execTrgTqSnap (q : Fin 16) (v : Word) (s : State) : Res :=
  .next (s.hostWr .TRG_TQ_SNAP q (rTRG_TQ_SNAP q) (State.wrTqSnap q) (fset v fTRG_TQ_SNAP_SNAP 1))

/-! ### Acquisition (R279 to R302) -/

/-- ACQ_ARM: a write of ACQ_CMD[n] with ARM 1 (R287). -/
def execAcqArm (n : Fin 8) (v : Word) (s : State) : Res :=
  .next (s.hostWr .ACQ_CMD n (rACQ_CMD n) (State.wrAcqCmd n) (fset v fACQ_CMD_ARM 1))

/-- ACQ_STOP: a write of ACQ_CMD[n] with STOP 1 (R288). -/
def execAcqStop (n : Fin 8) (v : Word) (s : State) : Res :=
  .next (s.hostWr .ACQ_CMD n (rACQ_CMD n) (State.wrAcqCmd n) (fset v fACQ_CMD_STOP 1))

/-- ACQ_DECISION (R286). -/
def execAcqDecision (n : Fin 8) (s : State) : Res := .next (s.live fun t => t.clocked fun d => d.auDecision n)

/-- ACQ_PRE_FILLED (R284). -/
def execAcqPreFilled (n : Fin 8) (s : State) : Res := .next (s.live fun t => t.clocked fun d => d.auPreFilled n)

/-- ACQ_RECORD_CLOSE (R281). -/
def execAcqRecordClose (n : Fin 8) (s : State) : Res := .next (s.live fun t => t.clocked fun d => d.auRecordClose n)

/-- ACQ_HOLDOFF_END (R284). -/
def execAcqHoldoffEnd (n : Fin 8) (s : State) : Res := .next (s.live fun t => t.clocked fun d => d.auHoldoffEnd n)

/-- ACQ_LOG_FLUSH (R295). -/
def execAcqLogFlush (n : Fin 8) (s : State) : Res := .next (s.live fun t => t.clocked fun d => d.logFlush n)

/-- ACQ_EXTENT_REFILL (R339). -/
def execAcqExtentRefill (n : Fin 8) (s : State) : Res := .next (s.live fun t => t.auRefill n)

/-- ACQ_SNAP: a write of ACQ_SNAP[n] with SNAP 1 (R301). -/
def execAcqSnap (n : Fin 8) (v : Word) (s : State) : Res :=
  .next (s.hostWr .ACQ_SNAP n (rACQ_SNAP n) (State.wrAcqSnap n) (fset v fACQ_SNAP_SNAP 1))

/-- RMU_RECORD (R296). -/
def execRmuRecord (s : State) : Res := .next (s.live fun t => t.clocked State.rmuRecord)

/-- RMU_LEVEL_WRITE (R302). -/
def execRmuLevelWrite (l : Fin 9) (v : Word) (s : State) : Res :=
  .next (s.hostWr .RMU_LEVEL l (rRMU_LEVEL l) (State.wrRmuLevel l) v)

end Sys2Proof.Machine
end

