-- ==== Sys2Proof/Machine/Dispatch.lean ====
section
/-! DEFINITION. The dispatch of the commands to their meanings: one arm per constructor of Instr, in the order of the table. -/

namespace Sys2Proof.Machine

def exec (i : Instr) (s : State) : Host.Outcome State Fault Refusal :=
  match i with
  | .registerWrite p bar a v env => Sys2Proof.Machine.execRegisterWrite p bar a v env s
  | .lowHalfRead p bar n => Sys2Proof.Machine.execLowHalfRead p bar n s
  | .highHalfRead p bar n => Sys2Proof.Machine.execHighHalfRead p bar n s
  | .lowHalfWrite p bar n v env => Sys2Proof.Machine.execLowHalfWrite p bar n v env s
  | .highHalfWrite p bar n v env => Sys2Proof.Machine.execHighHalfWrite p bar n v env s
  | .reservedAddressAccess p bar a sz write => Sys2Proof.Machine.execReservedAddressAccess p bar a sz write s
  | .devidWrite v => Sys2Proof.Machine.execDevidWrite v s
  | .devidLock v => Sys2Proof.Machine.execDevidLock v s
  | .dpRestart v => Sys2Proof.Machine.execDpRestart v s
  | .restartFaultRecords => Sys2Proof.Machine.execRestartFaultRecords s
  | .restartUnitReset => Sys2Proof.Machine.execRestartUnitReset s
  | .restartTrainingEnd ok => Sys2Proof.Machine.execRestartTrainingEnd ok s
  | .restartActivate => Sys2Proof.Machine.execRestartActivate s
  | .restartTimeout => Sys2Proof.Machine.execRestartTimeout s
  | .refLoss integ => Sys2Proof.Machine.execRefLoss integ s
  | .refRestored => Sys2Proof.Machine.execRefRestored s
  | .mpllLockDeclared => Sys2Proof.Machine.execMpllLockDeclared s
  | .mpllLol integ => Sys2Proof.Machine.execMpllLol integ s
  | .mpllFreqGate err => Sys2Proof.Machine.execMpllFreqGate err s
  | .holdoverUpdate meas => Sys2Proof.Machine.execHoldoverUpdate meas s
  | .lpllHoldover => Sys2Proof.Machine.execLpllHoldover s
  | .lpllRelocked => Sys2Proof.Machine.execLpllRelocked s
  | .retune v => Sys2Proof.Machine.execRetune v s
  | .retuneSettleDone fs => Sys2Proof.Machine.execRetuneSettleDone fs s
  | .retuneTimeout => Sys2Proof.Machine.execRetuneTimeout s
  | .heldRetry => Sys2Proof.Machine.execHeldRetry s
  | .syncArm v => Sys2Proof.Machine.execSyncArm v s
  | .syncinEdge same => Sys2Proof.Machine.execSyncinEdge same s
  | .attGo n v => Sys2Proof.Machine.execAttGo n v s
  | .attApply n => Sys2Proof.Machine.execAttApply n s
  | .chcorrWrite n v => Sys2Proof.Machine.execChcorrWrite n v s
  | .sliceWrite n k v => Sys2Proof.Machine.execSliceWrite n k v s
  | .bgEnWrite n v => Sys2Proof.Machine.execBgEnWrite n v s
  | .bgSettleEnd n => Sys2Proof.Machine.execBgSettleEnd n s
  | .bgShadowEnd n w => Sys2Proof.Machine.execBgShadowEnd n w s
  | .bgWindowEnd n w => Sys2Proof.Machine.execBgWindowEnd n w s
  | .bgIntervalEnd n => Sys2Proof.Machine.execBgIntervalEnd n s
  | .monitorTrip m v => Sys2Proof.Machine.execMonitorTrip m v s
  | .monSample m v => Sys2Proof.Machine.execMonSample m v s
  | .monPeriodClear m => Sys2Proof.Machine.execMonPeriodClear m s
  | .monLatchClear m v => Sys2Proof.Machine.execMonLatchClear m v s
  | .monCfgWrite m v => Sys2Proof.Machine.execMonCfgWrite m v s
  | .pgSwTrip g v => Sys2Proof.Machine.execPgSwTrip g v s
  | .pgTripClear g v => Sys2Proof.Machine.execPgTripClear g v s
  | .pgSafeWrite g v => Sys2Proof.Machine.execPgSafeWrite g v s
  | .pgArm g v => Sys2Proof.Machine.execPgArm g v s
  | .pgScheduleCommit g => Sys2Proof.Machine.execPgScheduleCommit g s
  | .pgEdge g => Sys2Proof.Machine.execPgEdge g s
  | .tbsAdjWrite v => Sys2Proof.Machine.execTbsAdjWrite v s
  | .tbsSlewWrite v => Sys2Proof.Machine.execTbsSlewWrite v s
  | .tbsStepWrite v => Sys2Proof.Machine.execTbsStepWrite v s
  | .servoSourceWrite v => Sys2Proof.Machine.execServoSourceWrite v s
  | .hostLockWrite v => Sys2Proof.Machine.execHostLockWrite v s
  | .ptpUpdate offPs step => Sys2Proof.Machine.execPtpUpdate offPs step s
  | .servoMissTimeout => Sys2Proof.Machine.execServoMissTimeout s
  | .hostTimeout => Sys2Proof.Machine.execHostTimeout s
  | .tdcEdge c t rising => Sys2Proof.Machine.execTdcEdge c t rising s
  | .stampsFlush c => Sys2Proof.Machine.execStampsFlush c s
  | .vernierRemeasure a b => Sys2Proof.Machine.execVernierRemeasure a b s
  | .freqEnWrite v => Sys2Proof.Machine.execFreqEnWrite v s
  | .freqGateOpen => Sys2Proof.Machine.execFreqGateOpen s
  | .freqGateEnd => Sys2Proof.Machine.execFreqGateEnd s
  | .tdcFreqSnap v => Sys2Proof.Machine.execTdcFreqSnap v s
  | .calGo v => Sys2Proof.Machine.execCalGo v s
  | .calAbort v => Sys2Proof.Machine.execCalAbort v s
  | .calStoreStart v => Sys2Proof.Machine.execCalStoreStart v s
  | .calPhaseEnd m => Sys2Proof.Machine.execCalPhaseEnd m s
  | .calAgeDue n => Sys2Proof.Machine.execCalAgeDue n s
  | .calAutoStart => Sys2Proof.Machine.execCalAutoStart s
  | .calRetryExpiry n => Sys2Proof.Machine.execCalRetryExpiry n s
  | .storeWriteEnd ok => Sys2Proof.Machine.execStoreWriteEnd ok s
  | .planLoad v => Sys2Proof.Machine.execPlanLoad v s
  | .planFetchDone img => Sys2Proof.Machine.execPlanFetchDone img s
  | .planActivate v => Sys2Proof.Machine.execPlanActivate v s
  | .planAbort v => Sys2Proof.Machine.execPlanAbort v s
  | .planDiscard v => Sys2Proof.Machine.execPlanDiscard v s
  | .planStop v => Sys2Proof.Machine.execPlanStop v s
  | .planCommit => Sys2Proof.Machine.execPlanCommit s
  | .planStopCommit => Sys2Proof.Machine.execPlanStopCommit s
  | .pcommitGo v => Sys2Proof.Machine.execPcommitGo v s
  | .paramCommit => Sys2Proof.Machine.execParamCommit s
  | .ddcSwapGo u v => Sys2Proof.Machine.execDdcSwapGo u v s
  | .ddcSwapCancel u v => Sys2Proof.Machine.execDdcSwapCancel u v s
  | .ddcSwapCommit u => Sys2Proof.Machine.execDdcSwapCommit u s
  | .ddcSwapDone u => Sys2Proof.Machine.execDdcSwapDone u s
  | .ddcCoefWrite u k b r v => Sys2Proof.Machine.execDdcCoefWrite u k b r v s
  | .ddcNcoRstArm u v => Sys2Proof.Machine.execDdcNcoRstArm u v s
  | .tabLoad n v => Sys2Proof.Machine.execTabLoad n v s
  | .tabLoadEnd n ws => Sys2Proof.Machine.execTabLoadEnd n ws s
  | .tabSwapGo n v => Sys2Proof.Machine.execTabSwapGo n v s
  | .tabSwapCancel n v => Sys2Proof.Machine.execTabSwapCancel n v s
  | .tabSwapCommit n => Sys2Proof.Machine.execTabSwapCommit n s
  | .xfmCtrlWrite n v => Sys2Proof.Machine.execXfmCtrlWrite n v s
  | .xfmFrame n => Sys2Proof.Machine.execXfmFrame n s
  | .detFrame n => Sys2Proof.Machine.execDetFrame n s
  | .detReadoutDone n => Sys2Proof.Machine.execDetReadoutDone n s
  | .detWrite n reg v => Sys2Proof.Machine.execDetWrite n reg v s
  | .denFrame n => Sys2Proof.Machine.execDenFrame n s
  | .denReadoutDone n => Sys2Proof.Machine.execDenReadoutDone n s
  | .denWrite n reg v => Sys2Proof.Machine.execDenWrite n reg v s
  | .tbusEvent l t => Sys2Proof.Machine.execTbusEvent l t s
  | .tbusPulseEnd l => Sys2Proof.Machine.execTbusPulseEnd l s
  | .ltCrossing ix => Sys2Proof.Machine.execLtCrossing ix s
  | .fmFrame u => Sys2Proof.Machine.execFmFrame u s
  | .trgTimerEvent n => Sys2Proof.Machine.execTrgTimerEvent n s
  | .trgSwFire v => Sys2Proof.Machine.execTrgSwFire v s
  | .tqEventArrival q => Sys2Proof.Machine.execTqEventArrival q s
  | .tqHorizon q => Sys2Proof.Machine.execTqHorizon q s
  | .tqAutoTimeout q => Sys2Proof.Machine.execTqAutoTimeout q s
  | .tqFreeRunDecision q => Sys2Proof.Machine.execTqFreeRunDecision q s
  | .tqArm q v => Sys2Proof.Machine.execTqArm q v s
  | .tqDisarm q v => Sys2Proof.Machine.execTqDisarm q v s
  | .trgTqSnap q v => Sys2Proof.Machine.execTrgTqSnap q v s
  | .acqArm n v => Sys2Proof.Machine.execAcqArm n v s
  | .acqStop n v => Sys2Proof.Machine.execAcqStop n v s
  | .acqDecision n => Sys2Proof.Machine.execAcqDecision n s
  | .acqPreFilled n => Sys2Proof.Machine.execAcqPreFilled n s
  | .acqRecordClose n => Sys2Proof.Machine.execAcqRecordClose n s
  | .acqHoldoffEnd n => Sys2Proof.Machine.execAcqHoldoffEnd n s
  | .acqLogFlush n => Sys2Proof.Machine.execAcqLogFlush n s
  | .acqExtentRefill n => Sys2Proof.Machine.execAcqExtentRefill n s
  | .acqSnap n v => Sys2Proof.Machine.execAcqSnap n v s
  | .rmuRecord => Sys2Proof.Machine.execRmuRecord s
  | .rmuLevelWrite l v => Sys2Proof.Machine.execRmuLevelWrite l v s
  | .tcRun c v => Sys2Proof.Machine.execTcRun c v s
  | .tcAbort c v => Sys2Proof.Machine.execTcAbort c v s
  | .tcPmWrite c a v => Sys2Proof.Machine.execTcPmWrite c a v s
  | .tcDmWrite c a v => Sys2Proof.Machine.execTcDmWrite c a v s
  | .tcSinWrite c v => Sys2Proof.Machine.execTcSinWrite c v s
  | .tcMbinWrite c k v => Sys2Proof.Machine.execTcMbinWrite c k v s
  | .tcMbinPost c v => Sys2Proof.Machine.execTcMbinPost c v s
  | .tcMboutAck c v => Sys2Proof.Machine.execTcMboutAck c v s
  | .tcRecordArrival k ix => Sys2Proof.Machine.execTcRecordArrival k ix s
  | .tcClusterReadout k => Sys2Proof.Machine.execTcClusterReadout k s
  | .tcTimerExpiry c => Sys2Proof.Machine.execTcTimerExpiry c s
  | .tcWatchdog c => Sys2Proof.Machine.execTcWatchdog c s
  | .tcInterrupt c => Sys2Proof.Machine.execTcInterrupt c s
  | .tNop c => Sys2Proof.Machine.execTNop c s
  | .tLdi c d imm => Sys2Proof.Machine.execTLdi c d imm s
  | .tLd c d p am => Sys2Proof.Machine.execTLd c d p am s
  | .tSt c d p am => Sys2Proof.Machine.execTSt c d p am s
  | .tMov c d a => Sys2Proof.Machine.execTMov c d a s
  | .tMovcFromCr c d r => Sys2Proof.Machine.execTMovcFromCr c d r s
  | .tMovcToCr c r d => Sys2Proof.Machine.execTMovcToCr c r d s
  | .tLdc c r imm => Sys2Proof.Machine.execTLdc c r imm s
  | .tAdd c d a b => Sys2Proof.Machine.execTAdd c d a b s
  | .tSub c d a b => Sys2Proof.Machine.execTSub c d a b s
  | .tAnd c d a b => Sys2Proof.Machine.execTAnd c d a b s
  | .tOr c d a b => Sys2Proof.Machine.execTOr c d a b s
  | .tXor c d a b => Sys2Proof.Machine.execTXor c d a b s
  | .tAddi c d imm => Sys2Proof.Machine.execTAddi c d imm s
  | .tAsh c d a b => Sys2Proof.Machine.execTAsh c d a b s
  | .tAshi c d a n => Sys2Proof.Machine.execTAshi c d a n s
  | .tCmp c a b => Sys2Proof.Machine.execTCmp c a b s
  | .tAbs c d a => Sys2Proof.Machine.execTAbs c d a s
  | .tMovm c px amx py amy => Sys2Proof.Machine.execTMovm c px amx py amy s
  | .tMpy c a dx dy => Sys2Proof.Machine.execTMpy c a dx dy s
  | .tMac c a dx dy => Sys2Proof.Machine.execTMac c a dx dy s
  | .tMsu c a dx dy => Sys2Proof.Machine.execTMsu c a dx dy s
  | .tMacm c a px amx py amy => Sys2Proof.Machine.execTMacm c a px amx py amy s
  | .tFtap c a px amx py amy => Sys2Proof.Machine.execTFtap c a px amx py amy s
  | .tAdda c a dx sh => Sys2Proof.Machine.execTAdda c a dx sh s
  | .tClra c a => Sys2Proof.Machine.execTClra c a s
  | .tAcp c a => Sys2Proof.Machine.execTAcp c a s
  | .tExt c d a n => Sys2Proof.Machine.execTExt c d a n s
  | .tSha c a n => Sys2Proof.Machine.execTSha c a n s
  | .tExpd c d a => Sys2Proof.Machine.execTExpd c d a s
  | .tExpa c d a => Sys2Proof.Machine.execTExpa c d a s
  | .tBexp c d p am => Sys2Proof.Machine.execTBexp c d p am s
  | .tBscl c p am d => Sys2Proof.Machine.execTBscl c p am d s
  | .tB c cond t => Sys2Proof.Machine.execTB c cond t s
  | .tCall c t => Sys2Proof.Machine.execTCall c t s
  | .tRet c => Sys2Proof.Machine.execTRet c s
  | .tReti c => Sys2Proof.Machine.execTReti c s
  | .tRpt c n1 => Sys2Proof.Machine.execTRpt c n1 s
  | .tRptd c a => Sys2Proof.Machine.execTRptd c a s
  | .tLoop c n t => Sys2Proof.Machine.execTLoop c n t s
  | .tLoopd c a t => Sys2Proof.Machine.execTLoopd c a t s
  | .tHalt c => Sys2Proof.Machine.execTHalt c s
  | .tIdle c => Sys2Proof.Machine.execTIdle c s
  | .tGetr c p => Sys2Proof.Machine.execTGetr c p s
  | .tRelr c => Sys2Proof.Machine.execTRelr c s
  | .tSend c p r => Sys2Proof.Machine.execTSend c p r s
  | .tSwait c => Sys2Proof.Machine.execTSwait c s
  | .tMbr c d w => Sys2Proof.Machine.execTMbr c d w s
  | .tMbw c w d => Sys2Proof.Machine.execTMbw c w d s
  | .tMback c => Sys2Proof.Machine.execTMback c s
  | .tMbpost c => Sys2Proof.Machine.execTMbpost c s
  | .recordArrival p => Sys2Proof.Machine.execRecordArrival p s
  | .policingCreditResume x => Sys2Proof.Machine.execPolicingCreditResume x s
  | .overflowStallResume x => Sys2Proof.Machine.execOverflowStallResume x s
  | .faultRecordDeferred x => Sys2Proof.Machine.execFaultRecordDeferred x s
  | .replaySend p => Sys2Proof.Machine.execReplaySend p s
  | .stoTake => Sys2Proof.Machine.execStoTake s
  | .stoFree => Sys2Proof.Machine.execStoFree s
  | .stoFlush => Sys2Proof.Machine.execStoFlush s
  | .stoDiscard => Sys2Proof.Machine.execStoDiscard s
  | .stoQuery => Sys2Proof.Machine.execStoQuery s
  | .stoCsnap v => Sys2Proof.Machine.execStoCsnap v s
  | .biasSwitchDone b => Sys2Proof.Machine.execBiasSwitchDone b s
  | .zcFlushTimer x => Sys2Proof.Machine.execZcFlushTimer x s
  | .zcRelease x v => Sys2Proof.Machine.execZcRelease x v s
  | .ctxFlush x v => Sys2Proof.Machine.execCtxFlush x v s
  | .admOpen => Sys2Proof.Machine.execAdmOpen s
  | .admClose => Sys2Proof.Machine.execAdmClose s
  | .admTest => Sys2Proof.Machine.execAdmTest s
  | .admSnap v => Sys2Proof.Machine.execAdmSnap v s
  | .deadlineMiss x d => Sys2Proof.Machine.execDeadlineMiss x d s
  | .memMapWrite v => Sys2Proof.Machine.execMemMapWrite v s
  | .mapInitDone => Sys2Proof.Machine.execMapInitDone s
  | .memSchedWrite v => Sys2Proof.Machine.execMemSchedWrite v s
  | .memGranule ch waiting err => Sys2Proof.Machine.execMemGranule ch waiting err s
  | .mr4Poll d code => Sys2Proof.Machine.execMr4Poll d code s
  | .refreshDue ch wait => Sys2Proof.Machine.execRefreshDue ch wait s
  | .retrain ch ok => Sys2Proof.Machine.execRetrain ch ok s
  | .scrubRead err => Sys2Proof.Machine.execScrubRead err s
  | .memUeSnap v => Sys2Proof.Machine.execMemUeSnap v s
  | .cmpFlush u v => Sys2Proof.Machine.execCmpFlush u v s
  | .cmpStreamBlock u => Sys2Proof.Machine.execCmpStreamBlock u s
  | .cmpDecodeRecord u => Sys2Proof.Machine.execCmpDecodeRecord u s
  | .cmpJobGo u v pre => Sys2Proof.Machine.execCmpJobGo u v pre s
  | .cmpJobBlock u data => Sys2Proof.Machine.execCmpJobBlock u data s
  | .cmpJobResume u v => Sys2Proof.Machine.execCmpJobResume u v s
  | .cmpJobAbort u v => Sys2Proof.Machine.execCmpJobAbort u v s
  | .cmpJobDone u => Sys2Proof.Machine.execCmpJobDone u s
  | .cxlMemRead n => Sys2Proof.Machine.execCxlMemRead n s
  | .cxlMemWrite => Sys2Proof.Machine.execCxlMemWrite s
  | .hdmCommit one base size skip ways lock => Sys2Proof.Machine.execHdmCommit one base size skip ways lock s
  | .hostSnoop => Sys2Proof.Machine.execHostSnoop s
  | .linkRetrain width rate cxl => Sys2Proof.Machine.execLinkRetrain width rate cxl s
  | .linkDown => Sys2Proof.Machine.execLinkDown s
  | .cxlReset memClr => Sys2Proof.Machine.execCxlReset memClr s
  | .flr => Sys2Proof.Machine.execFlr s
  | .busMasterDisable => Sys2Proof.Machine.execBusMasterDisable s
  | .completionTimeout r => Sys2Proof.Machine.execCompletionTimeout r s
  | .poisonedCompletion r => Sys2Proof.Machine.execPoisonedCompletion r s
  | .msixUnmask u => Sys2Proof.Machine.execMsixUnmask u s
  | .msixModerationEnd v => Sys2Proof.Machine.execMsixModerationEnd v s
  | .doeDiscovery req busy => Sys2Proof.Machine.execDoeDiscovery req busy s
  | .cdatTableAccess req busy => Sys2Proof.Machine.execCdatTableAccess req busy s
  | .getVersion req busy => Sys2Proof.Machine.execGetVersion req busy s
  | .getCapabilities req busy => Sys2Proof.Machine.execGetCapabilities req busy s
  | .negotiateAlgorithms req busy => Sys2Proof.Machine.execNegotiateAlgorithms req busy s
  | .getDigests req busy => Sys2Proof.Machine.execGetDigests req busy s
  | .getCertificate req busy off len => Sys2Proof.Machine.execGetCertificate req busy off len s
  | .challenge req busy => Sys2Proof.Machine.execChallenge req busy s
  | .getMeasurements req busy index signed => Sys2Proof.Machine.execGetMeasurements req busy index signed s
  | .spdmUnsupportedRequest req busy => Sys2Proof.Machine.execSpdmUnsupportedRequest req busy s
  | .dmaStart c v => Sys2Proof.Machine.execDmaStart c v s
  | .dmaAbort c v => Sys2Proof.Machine.execDmaAbort c v s
  | .dmaGiveBind c v => Sys2Proof.Machine.execDmaGiveBind c v s
  | .dmaDescFetch c desc list => Sys2Proof.Machine.execDmaDescFetch c desc list s
  | .dmaNop c => Sys2Proof.Machine.execDmaNop c s
  | .ctxTake c => Sys2Proof.Machine.execCtxTake c s
  | .ctxGive c data => Sys2Proof.Machine.execCtxGive c data s
  | .storeRead c => Sys2Proof.Machine.execStoreRead c s
  | .refTake c => Sys2Proof.Machine.execRefTake c s
  | .refGive c => Sys2Proof.Machine.execRefGive c s
  | .dmaRecordAvailable c => Sys2Proof.Machine.execDmaRecordAvailable c s
  | .dmaIdleTimeout c => Sys2Proof.Machine.execDmaIdleTimeout c s
  | .dmaDataCompletion c => Sys2Proof.Machine.execDmaDataCompletion c s
  | .netPortCfgWrite p v => Sys2Proof.Machine.execNetPortCfgWrite p v s
  | .netLinkUp ix => Sys2Proof.Machine.execNetLinkUp ix s
  | .netLinkLoss ix => Sys2Proof.Machine.execNetLinkLoss ix s
  | .netFrameRx ix f => Sys2Proof.Machine.execNetFrameRx ix f s
  | .pauseFrameRx ix q pfc => Sys2Proof.Machine.execPauseFrameRx ix q pfc s
  | .pauseExpiry ix => Sys2Proof.Machine.execPauseExpiry ix s
  | .exqRxRelease ix v => Sys2Proof.Machine.execExqRxRelease ix v s
  | .exqTxTail ix v => Sys2Proof.Machine.execExqTxTail ix v s
  | .exqTxSend ix desc data fine => Sys2Proof.Machine.execExqTxSend ix desc data fine s
  | .aveCmdOpen a v => Sys2Proof.Machine.execAveCmdOpen a v s
  | .aveCmdClose a v => Sys2Proof.Machine.execAveCmdClose a v s
  | .aveCmdReset a v => Sys2Proof.Machine.execAveCmdReset a v s
  | .aveCmdSkip a v => Sys2Proof.Machine.execAveCmdSkip a v s
  | .pktOpen ix p => Sys2Proof.Machine.execOpen ix p s
  | .pktOpenAck ix p => Sys2Proof.Machine.execOpenAck ix p s
  | .pktData ix p => Sys2Proof.Machine.execData ix p s
  | .pktAck ix p => Sys2Proof.Machine.execAck ix p s
  | .pktNak ix p => Sys2Proof.Machine.execNak ix p s
  | .pktClose ix p => Sys2Proof.Machine.execClose ix p s
  | .pktCloseAck ix p => Sys2Proof.Machine.execCloseAck ix p s
  | .pktTrigger ix p => Sys2Proof.Machine.execTrigger ix p s
  | .pktTrigAck ix p => Sys2Proof.Machine.execTrigAck ix p s
  | .aveDataSend ix => Sys2Proof.Machine.execAveDataSend ix s
  | .aveRtoExpiry a => Sys2Proof.Machine.execAveRtoExpiry a s
  | .aveAckTimer a => Sys2Proof.Machine.execAveAckTimer a s
  | .aveIdleAck a => Sys2Proof.Machine.execAveIdleAck a s
  | .aveDeadExpiry a => Sys2Proof.Machine.execAveDeadExpiry a s
  | .aveQuarantineEnd a => Sys2Proof.Machine.execAveQuarantineEnd a s
  | .aveSnap a v => Sys2Proof.Machine.execAveSnap a v s
  | .trigSendGo v => Sys2Proof.Machine.execTrigSendGo v s
  | .trigResend a => Sys2Proof.Machine.execTrigResend a s
  | .trigMessageRelease k => Sys2Proof.Machine.execTrigMessageRelease k s
  | .disHpd n sink ok => Sys2Proof.Machine.execDisHpd n sink ok s
  | .disCommit n v => Sys2Proof.Machine.execDisCommit n v s
  | .disFrameStart n => Sys2Proof.Machine.execDisFrameStart n s
  | .disClockStable n ok => Sys2Proof.Machine.execDisClockStable n ok s
  | .disLayerRecord n l => Sys2Proof.Machine.execDisLayerRecord n l s
  | .disAuxGo n v reply => Sys2Proof.Machine.execDisAuxGo n v reply s
  | .disPalWrite n b ix v => Sys2Proof.Machine.execDisPalWrite n b ix v s
  | .stkCmdQueue v => Sys2Proof.Machine.execStkCmdQueue v s
  | .stkNop => Sys2Proof.Machine.execStkNop s
  | .flashRead => Sys2Proof.Machine.execFlashRead s
  | .flashUpdate img ok => Sys2Proof.Machine.execFlashUpdate img ok s
  | .calStore => Sys2Proof.Machine.execCalStore s
  | .keyProvision data ok => Sys2Proof.Machine.execKeyProvision data ok s
  | .keyLock ok => Sys2Proof.Machine.execKeyLock ok s
  | .svnCommit ok => Sys2Proof.Machine.execSvnCommit ok s
  | .secureEnable ok => Sys2Proof.Machine.execSecureEnable ok s
  | .stkCancel v => Sys2Proof.Machine.execStkCancel v s
  | .stkCsEccError bad patch => Sys2Proof.Machine.execStkCsEccError bad patch s
  | .stkWatchdog => Sys2Proof.Machine.execStkWatchdog s
  | .porstAssert p => Sys2Proof.Machine.execPorstAssert p s
  | .porstRelease p bootsel smbAddr => Sys2Proof.Machine.execPorstRelease p bootsel smbAddr s
  | .bootStepEnd e => Sys2Proof.Machine.execBootStepEnd e s
  | .evtRelease v => Sys2Proof.Machine.execEvtRelease v s
  | .ringEnWrite v => Sys2Proof.Machine.execRingEnWrite v s
  | .evtSwtest v => Sys2Proof.Machine.execEvtSwtest v s
  | .injectEvent v => Sys2Proof.Machine.execInjectEvent v s
  | .injectContext v => Sys2Proof.Machine.execInjectContext v s
  | .injectMemCe v => Sys2Proof.Machine.execInjectMemCe v s
  | .injectMemUe v => Sys2Proof.Machine.execInjectMemUe v s
  | .injectRestart v => Sys2Proof.Machine.execInjectRestart v s
  | .injectLock v => Sys2Proof.Machine.execInjectLock v s
  | .railLow r mv => Sys2Proof.Machine.execRailLow r mv s
  | .thmSensorUpdate temps rails => Sys2Proof.Machine.execThmSensorUpdate temps rails s
  | .cnvStbyWrite v => Sys2Proof.Machine.execCnvStbyWrite v s
  | .srEnWrite v => Sys2Proof.Machine.execSrEnWrite v s
  | .selfRefreshEntry => Sys2Proof.Machine.execSelfRefreshEntry s
  | .smbSetOffset bytes wrongPec => Sys2Proof.Machine.execSmbSetOffset bytes wrongPec s
  | .smbRead => Sys2Proof.Machine.execSmbRead s
  | .smbWrite bytes wrongPec env => Sys2Proof.Machine.execSmbWrite bytes wrongPec env s
  | .smbStatus => Sys2Proof.Machine.execSmbStatus s
  | .mgtSmbLock v => Sys2Proof.Machine.execMgtSmbLock v s
  | .idcode => Sys2Proof.Machine.execIdcode s
  | .samplePreload capture bits => Sys2Proof.Machine.execSamplePreload capture bits s
  | .extest => Sys2Proof.Machine.execExtest s
  | .clamp => Sys2Proof.Machine.execClamp s
  | .highz => Sys2Proof.Machine.execHighz s
  | .extestPulse => Sys2Proof.Machine.execExtestPulse s
  | .extestTrain => Sys2Proof.Machine.execExtestTrain s
  | .bypass => Sys2Proof.Machine.execBypass s
  | .streetBeat c0 c1 c2 c3 => Sys2Proof.Machine.execStreetBeat c0 c1 c2 c3 s
  | .scanoutLine n y den ovl => Sys2Proof.Machine.execScanoutLine n y den ovl s
  | .railHigh r mv => Sys2Proof.Machine.execRailHigh r mv s
  | .railRecovered r within => Sys2Proof.Machine.execRailRecovered r within s
  | .tbusLineHigh l => Sys2Proof.Machine.execTbusLineHigh l s
  | .tapReset => Sys2Proof.Machine.execTapReset s

end Sys2Proof.Machine
end

