-- ==== Sys2Proof/Machine/TurfTick.lean ====
section
/-! DEFINITION. The Turf cores running on their own: a word of PM read as an instruction (R329, Table 14-8), and one CCLK of the
cores. -/

namespace Sys2Proof.Machine

/-- Field of `n` bits from bit `lo` of an instruction word, as an operand of that width. -/
def tfld (w lo n : Nat) : Fin (2 ^ n) := ⟨w / 2 ^ lo % 2 ^ n, Nat.mod_lt _ (Nat.two_pow_pos n)⟩

/-- Are the bits below the opcode that no field `(lo, width)` names all 0? -/
def tclear (w : Nat) (fs : List (Nat × Nat)) : Bool :=
  w % 2 ^ 26 == (fs.map fun f => w / 2 ^ f.1 % 2 ^ f.2 * 2 ^ f.1).sum

/-- A signed field of `n` bits in the low bits of the word. -/
def tsgn (w n : Nat) : BitVec n := BitVec.ofNat n w

/-- An operand of 0 to 24 in [4:0]. -/
def tfld24 (w : Nat) : Option (Fin 25) := if h : w % 32 < 25 then some ⟨w % 32, h⟩ else none

/-- A word of opcodes 0x00 to 0x12, as core `c` issues it. -/
def turfMove (c : Fin 32) (w : Nat) : Option (State → Res) :=
  let D := tfld w 22 4; let A := tfld w 18 4; let B := tfld w 14 4
  let P := tfld w 19 3; let AM := tfld w 17 2; let CR := tfld w 16 6
  let ok := fun (fs : List (Nat × Nat)) (f : State → Res) => if tclear w fs then some f else none
  let fDAB := [(22, 4), (18, 4), (14, 4)]
  match w / 2 ^ 26 with
  | 0x00 => ok [] (execTNop c)
  | 0x01 => ok [(22, 4), (0, 16)] (execTLdi c D (tsgn w 16))
  | 0x02 => ok [(22, 4), (19, 3), (17, 2)] (execTLd c D P AM)
  | 0x03 => ok [(22, 4), (19, 3), (17, 2)] (execTSt c D P AM)
  | 0x04 => ok [(22, 4), (18, 4)] (execTMov c D A)
  | 0x05 => ok [(22, 4), (16, 6)] (execTMovcFromCr c D CR)
  | 0x06 => ok [(22, 4), (16, 6)] (execTMovcToCr c CR D)
  | 0x07 => ok [(16, 6), (0, 16)] (execTLdc c CR (tsgn w 16))
  | 0x08 => ok fDAB (execTAdd c D A B)
  | 0x09 => ok fDAB (execTSub c D A B)
  | 0x0A => ok fDAB (execTAnd c D A B)
  | 0x0B => ok fDAB (execTOr c D A B)
  | 0x0C => ok fDAB (execTXor c D A B)
  | 0x0D => ok [(22, 4), (0, 16)] (execTAddi c D (tsgn w 16))
  | 0x0E => ok fDAB (execTAsh c D A B)
  | 0x0F => ok [(22, 4), (18, 4), (0, 5)] (execTAshi c D A (tsgn w 5))
  | 0x10 => ok [(18, 4), (14, 4)] (execTCmp c A B)
  | 0x11 => ok [(22, 4), (18, 4)] (execTAbs c D A)
  | 0x12 => ok [(22, 3), (20, 2), (17, 3), (15, 2)] (execTMovm c (tfld w 22 3) (tfld w 20 2) (tfld w 17 3) (tfld w 15 2))
  | _ => none

/-- A word of opcodes 0x18 to 0x2B. The field `a` of EXT and EXPA is bit 21, else bit 25. -/
def turfAcc (c : Fin 32) (w : Nat) : Option (State → Res) :=
  let a := tfld w 25 1; let X := tfld w 21 4; let Y := tfld w 17 4; let a21 := tfld w 21 1
  let D := tfld w 22 4; let A := tfld w 18 4; let P := tfld w 19 3; let AM := tfld w 17 2
  let PX := tfld w 22 3; let AMX := tfld w 20 2; let PY := tfld w 17 3; let AMY := tfld w 15 2
  let ok := fun (fs : List (Nat × Nat)) (f : State → Res) => if tclear w fs then some f else none
  let fXY := [(25, 1), (21, 4), (17, 4)]
  let fPP := [(25, 1), (22, 3), (20, 2), (17, 3), (15, 2)]
  match w / 2 ^ 26 with
  | 0x18 => ok fXY (execTMpy c a X Y)
  | 0x19 => ok fXY (execTMac c a X Y)
  | 0x1A => ok fXY (execTMsu c a X Y)
  | 0x1B => ok fPP (execTMacm c a PX AMX PY AMY)
  | 0x1C => ok fPP (execTFtap c a PX AMX PY AMY)
  | 0x1D => (tfld24 w).bind fun n => ok [(25, 1), (21, 4), (0, 5)] (execTAdda c a X n)
  | 0x1E => ok [(25, 1)] (execTClra c a)
  | 0x1F => ok [(25, 1)] (execTAcp c a)
  | 0x20 => (tfld24 w).bind fun n => ok [(22, 4), (21, 1), (0, 5)] (execTExt c D a21 n)
  | 0x21 => ok [(25, 1), (0, 6)] (execTSha c a (tsgn w 6))
  | 0x28 => ok [(22, 4), (18, 4)] (execTExpd c D A)
  | 0x29 => ok [(22, 4), (21, 1)] (execTExpa c D a21)
  | 0x2A => ok [(22, 4), (19, 3), (17, 2)] (execTBexp c D P AM)
  | 0x2B => ok [(22, 4), (19, 3), (17, 2)] (execTBscl c P AM D)
  | _ => none

/-- A word of opcode 0x3E: MBR, MBW, MBACK or MBPOST by its sub field (R329). -/
def turfMb (c : Fin 32) (w : Nat) : Option (State → Res) :=
  let D := tfld w 22 4; let W := tfld w 0 4
  if !tclear w [(22, 4), (4, 2), (0, 4)] then none
  else match w / 16 % 4 with
    | 0 => some (execTMbr c D W)
    | 1 => some (execTMbw c W D)
    | 2 => if w % 2 ^ 26 = 32 then some (execTMback c) else none
    | _ => if w % 2 ^ 26 = 48 then some (execTMbpost c) else none

/-- A word of opcodes 0x30 to 0x3E. -/
def turfFlow (c : Fin 32) (w : Nat) : Option (State → Res) :=
  let A := tfld w 18 4; let P := tfld w 19 3; let t := tfld w 0 11
  let ok := fun (fs : List (Nat × Nat)) (f : State → Res) => if tclear w fs then some f else none
  match w / 2 ^ 26 with
  | 0x30 => if 11 ≤ w / 2 ^ 22 % 16 then none else ok [(22, 4), (0, 11)] (execTB c (tfld w 22 4) t)
  | 0x31 => ok [(0, 11)] (execTCall c t)
  | 0x32 => ok [] (execTRet c)
  | 0x33 => ok [] (execTReti c)
  | 0x34 => ok [(0, 10)] (execTRpt c (tfld w 0 10))
  | 0x35 => ok [(18, 4)] (execTRptd c A)
  | 0x36 => ok [(11, 15), (0, 11)] (execTLoop c (tfld w 11 15) t)
  | 0x37 => ok [(18, 4), (0, 11)] (execTLoopd c A t)
  | 0x38 => ok [] (execTHalt c)
  | 0x39 => ok [] (execTIdle c)
  | 0x3A => ok [(19, 3)] (execTGetr c P)
  | 0x3B => ok [] (execTRelr c)
  | 0x3C => ok [(19, 3), (0, 2)] (execTSend c P (tfld w 0 2))
  | 0x3D => ok [] (execTSwait c)
  | 0x3E => turfMb c w
  | _ => none

/-- The instruction a word of PM holds (R329); none is ILLEGAL. -/
def turfDecode (c : Fin 32) (w : Nat) : Option (State → Res) :=
  if w < 0x15 * 2 ^ 26 then turfMove c w else if w < 0x30 * 2 ^ 26 then turfAcc c w else turfFlow c w

/-- The state an outcome goes on in. -/
def Res.stateOr (d : State) : Res → State
  | .next t => t
  | .fault _ => d
  | .refused _ => d

/-- The next event of core `c` on its own: it takes an interrupt, runs the instruction at its pc (ILLEGAL is cause 2), or waits one
cycle; the timer of a halted core runs too (R321, R326, R327). -/
def State.tcTick (s : State) (c : Fin 32) : State :=
  let x := s.tcore c
  if x.irqReady then s.tcInterrupt c
  else if x.st == .running then
    match turfDecode c (SMap.get 0 x.pm x.pc) with
    | some f => Res.stateOr s (f s)
    | none => s.tcFault c 2
  else s.tcCycle c 1

/-- All 32 cores, in order of number (DESIGN CHOICE, assumption 33): what a step does with nothing commanded. CCLK has edges outside RESET. -/
def State.turfTick (s : State) : State :=
  if s.glb = 0 then s else (List.finRange 32).foldl (fun (t : State) c => t.tcTick c) s

end Sys2Proof.Machine
end

