-- ==== Sys2Proof/WellFormed.lean ====
section
/-! DEFINITION. Which commands a sender can give: operand types bound most operands; what they do not bound is checked here, one named
check each. A command that fails a check is none the interfaces carry. -/

namespace Sys2Proof

/-- Why a command is ill-formed. -/
inductive Bad where
  /-- A 64-bit register write whose address is not a multiple of 8 (R3); RESERVED_ADDRESS_ACCESS carries those. -/
  | misaligned
  /-- An address beyond its BAR (R425). -/
  | outsideBar
  /-- A BAR2 or BAR4 access on a path other than the host's (R9, R561). -/
  | wrongPath
  /-- A 64-bit access on the SMBus, whose accesses are of 32 bits (R561). -/
  | smbusWidth
  /-- Other than sixteen codes of a core in a beat (R70), or codes of a window or a shadow that do not match (R82). -/
  | codes
  /-- An empty measurement: a divisor of zero (R144). -/
  | measure
  /-- Other than eight sensors or eleven rails (R545, R558). -/
  | sensors
  /-- Other than 1,042 boundary cells (R563). -/
  | cells
  /-- A unit that the device does not have (Table 19-6). -/
  | requester
  /-- A width or rate code that GLB_HIF_LINK does not have (R416). -/
  | link
  /-- A sink that offers no lane count of DisplayPort (R486). -/
  | sink
  /-- A frame too short for its addresses and type (R462). -/
  | frame
  deriving DecidableEq, Repr

/-- The size of a BAR (Table 19-2). -/
def barSize : Bar → Nat
  | .bar0 => 0x4000000
  | .bar2 => 0x10000
  | .bar4 => 0x1000000

/-- The checks of an access of `n` bytes at byte address `a`. -/
def accessBad (p : Path) (bar : Bar) (a n : Nat) : List (Bool × Bad) :=
  [(barSize bar < a + n, .outsideBar), (bar != .bar0 && p != .host, .wrongPath), (p == .smbus && n == 8, .smbusWidth)]

/-- The bytes of an access size. -/
def AccSize.bytes : AccSize → Nat
  | .b8 => 1
  | .b16 => 2
  | .b32 => 4
  | .b64 => 8

/-- The index of a requester against what the device has. -/
def Requester.bad : Requester → Bool
  | .dma c => 128 ≤ c
  | .plan o => 2 ^ 20 ≤ o
  | .table n => 4 ≤ n
  | .codec u => 8 ≤ u
  | .bias b => 1835008 ≤ b

/-- The checks of a command, in order: whether each fails, and its name. -/
def Instr.checks (i : Instr) : List (Bool × Bad) :=
  match i with
  | .registerWrite p bar a _ _ => (a.val % 8 != 0, .misaligned) :: accessBad p bar a 8
  | .lowHalfRead p bar n => accessBad p bar (8 * n) 4
  | .highHalfRead p bar n => accessBad p bar (8 * n + 4) 4
  | .lowHalfWrite p bar n _ _ => accessBad p bar (8 * n) 4
  | .highHalfWrite p bar n _ _ => accessBad p bar (8 * n + 4) 4
  | .reservedAddressAccess p bar a sz _ => accessBad p bar a sz.bytes
  | .streetBeat c0 c1 c2 c3 => [([c0, c1, c2, c3].any fun l => l.length != 16, .codes)]
  | .bgShadowEnd _ w => [(w.f.length != w.a.length, .codes)]
  | .bgWindowEnd _ w => [(w.rows.any (fun r => r.length != 16 && r.length != 32) || w.free.length != w.rows.length, .codes)]
  | .calPhaseEnd m => [(m.meanDen == 0, .measure)]
  | .thmSensorUpdate temps rails => [(temps.length != 8 || rails.length != 11, .sensors)]
  | .samplePreload _ bits => [(bits.length != 1042, .cells)]
  | .completionTimeout r => [(r.bad, .requester)]
  | .poisonedCompletion r => [(r.bad, .requester)]
  | .linkRetrain width rate _ => [(width == 0 || 4 ≤ width || 5 ≤ rate, .link)]
  | .disHpd _ (some k) _ => [(k.1 != 1 && k.1 != 2 && k.1 != 4, .sink)]
  | .netFrameRx _ f => [(f.bytes.length < 14, .frame)]
  | _ => []

/-- The first check that a command fails. -/
def Instr.bad (i : Instr) : Option Bad := (i.checks.find? fun c => c.1).map fun c => c.2

/-- The command is well formed. -/
def Instr.wf (i : Instr) : Bool := i.bad.isNone

end Sys2Proof
end

