-- ==== Sys2Proof/Safety.lean ====
section
/-! DEFINITION. What counts as a safe state and a safe run, in the terms the statements use. -/

namespace Sys2Proof

open Sys2Proof.Machine

/-- The canonical form of the three memories: addresses strictly rising, and no entry equal to what an unlisted address reads as. -/
structure MemoriesOk (s : State) : Prop where
  store   : Memory.wf 0 s.store = true
  hostMem : Memory.wf 0 s.hostMem = true
  flash   : Memory.wf 0xFF s.flash = true

/-- The canonical form of a register map: addresses strictly rising, and no entry equal to the register's value at reset. -/
def regsOk (m : SMap Word) : Prop := m.sorted = true ∧ ∀ e ∈ m, e.2 ≠ resetWord e.1

/-- The machine's tables are in canonical form: the memories, the registers and the values of the registers in force. -/
structure TablesOk (s : State) : Prop where
  memories : MemoriesOk s
  regs     : regsOk s.regs
  act      : regsOk s.act

/-- What fuses allow from one moment to the next: a floor never falls, and neither a locked plan key nor SECURE_ENABLE is undone
(R513 to R515). -/
structure FusesOnlyBurn (a b : Stk) : Prop where
  kFloor : a.kFloor ≤ b.kFloor
  pFloor : a.pFloor ≤ b.pFloor
  locked : ∀ h, a.keyHash = some h → b.keyHash = some h ∧ b.key = a.key
  armed  : a.armed = true → b.armed = true

/-- A step goes on: it ends in neither a fault nor a refusal. -/
def stepGoesOn (s : State) : Prop := ∃ t, step s = .next t

/-! ### What a change is confined to

A set of components of the state is a number: bit `k` stands for the `k`-th field of `State`. -/

abbrev mPending : Nat := 2 ^ 0
abbrev mRegs : Nat := 2 ^ 1
abbrev mAct : Nat := 2 ^ 2
abbrev mSnap : Nat := 2 ^ 3
abbrev mStaged : Nat := 2 ^ 4
abbrev mReadData : Nat := 2 ^ 5
abbrev mOuts : Nat := 2 ^ 6
abbrev mTime : Nat := 2 ^ 7
abbrev mFrac : Nat := 2 ^ 8
abbrev mFreeCtr : Nat := 2 ^ 9
abbrev mStore : Nat := 2 ^ 10
abbrev mHostMem : Nat := 2 ^ 11
abbrev mFlash : Nat := 2 ^ 12
abbrev mEvt : Nat := 2 ^ 13
abbrev mHif : Nat := 2 ^ 14
abbrev mCtxs : Nat := 2 ^ 15
abbrev mBillets : Nat := 2 ^ 16
abbrev mPorts : Nat := 2 ^ 17
abbrev mAside : Nat := 2 ^ 18
abbrev mServed : Nat := 2 ^ 19
abbrev mBadLines : Nat := 2 ^ 20
abbrev mClk : Nat := 2 ^ 21
abbrev mPlan : Nat := 2 ^ 22
abbrev mTbs : Nat := 2 ^ 23
abbrev mTdc : Nat := 2 ^ 24
abbrev mCnv : Nat := 2 ^ 25
abbrev mPg : Nat := 2 ^ 26
abbrev mCal : Nat := 2 ^ 27
abbrev mDdc : Nat := 2 ^ 28
abbrev mXfm : Nat := 2 ^ 29
abbrev mStreams : Nat := 2 ^ 30
abbrev mFrames : Nat := 2 ^ 31
abbrev mDet : Nat := 2 ^ 32
abbrev mDen : Nat := 2 ^ 33
abbrev mTq : Nat := 2 ^ 34
abbrev mLt : Nat := 2 ^ 35
abbrev mFm : Nat := 2 ^ 36
abbrev mBus : Nat := 2 ^ 37
abbrev mTmr : Nat := 2 ^ 38
abbrev mDecs : Nat := 2 ^ 39
abbrev mAu : Nat := 2 ^ 40
abbrev mReplay : Nat := 2 ^ 41
abbrev mTurf : Nat := 2 ^ 42
abbrev mClusters : Nat := 2 ^ 43
abbrev mNet : Nat := 2 ^ 44
abbrev mAve : Nat := 2 ^ 45
abbrev mSlots : Nat := 2 ^ 46
abbrev mDis : Nat := 2 ^ 47
abbrev mLayers : Nat := 2 ^ 48
abbrev mMem : Nat := 2 ^ 49
abbrev mDma : Nat := 2 ^ 50
abbrev mRst : Nat := 2 ^ 51
abbrev mStk : Nat := 2 ^ 52
abbrev mCmp : Nat := 2 ^ 53
abbrev mPkg : Nat := 2 ^ 54
/-- The registers of the GLB window below 0x1000 (those that say what state the device is in); `mRegs` alone leaves them as they are. -/
abbrev mGlb : Nat := 2 ^ 55
/-- What raising an event touches: the event registers, the event controller, the vectors, host memory and what the device sends. -/
abbrev mEvent : Nat := mRegs ||| mEvt ||| mHif ||| mHostMem ||| mOuts

/-- `t` agrees with `s` in every component outside `m`; the tables keep their form, and fuses only burn. -/
structure Touches (m : Nat) (s t : State) : Prop where
  pending : m.testBit 0 = false → t.pending = s.pending
  regs : m.testBit 1 = false → t.regs = s.regs
  act : m.testBit 2 = false → t.act = s.act
  snap : m.testBit 3 = false → t.snap = s.snap
  staged : m.testBit 4 = false → t.staged = s.staged
  readData : m.testBit 5 = false → t.readData = s.readData
  outs : m.testBit 6 = false → t.outs = s.outs
  time : m.testBit 7 = false → t.time = s.time
  frac : m.testBit 8 = false → t.frac = s.frac
  freeCtr : m.testBit 9 = false → t.freeCtr = s.freeCtr
  store : m.testBit 10 = false → t.store = s.store
  hostMem : m.testBit 11 = false → t.hostMem = s.hostMem
  flash : m.testBit 12 = false → t.flash = s.flash
  evt : m.testBit 13 = false → t.evt = s.evt
  hif : m.testBit 14 = false → t.hif = s.hif
  ctxs : m.testBit 15 = false → t.ctxs = s.ctxs
  billets : m.testBit 16 = false → t.billets = s.billets
  ports : m.testBit 17 = false → t.ports = s.ports
  aside : m.testBit 18 = false → t.aside = s.aside
  served : m.testBit 19 = false → t.served = s.served
  badLines : m.testBit 20 = false → t.badLines = s.badLines
  clk : m.testBit 21 = false → t.clk = s.clk
  plan : m.testBit 22 = false → t.plan = s.plan
  tbs : m.testBit 23 = false → t.tbs = s.tbs
  tdc : m.testBit 24 = false → t.tdc = s.tdc
  cnv : m.testBit 25 = false → t.cnv = s.cnv
  pg : m.testBit 26 = false → t.pg = s.pg
  cal : m.testBit 27 = false → t.cal = s.cal
  ddc : m.testBit 28 = false → t.ddc = s.ddc
  xfm : m.testBit 29 = false → t.xfm = s.xfm
  streams : m.testBit 30 = false → t.streams = s.streams
  frames : m.testBit 31 = false → t.frames = s.frames
  det : m.testBit 32 = false → t.det = s.det
  den : m.testBit 33 = false → t.den = s.den
  tq : m.testBit 34 = false → t.tq = s.tq
  lt : m.testBit 35 = false → t.lt = s.lt
  fm : m.testBit 36 = false → t.fm = s.fm
  bus : m.testBit 37 = false → t.bus = s.bus
  tmr : m.testBit 38 = false → t.tmr = s.tmr
  decs : m.testBit 39 = false → t.decs = s.decs
  au : m.testBit 40 = false → t.au = s.au
  replay : m.testBit 41 = false → t.replay = s.replay
  turf : m.testBit 42 = false → t.turf = s.turf
  clusters : m.testBit 43 = false → t.clusters = s.clusters
  net : m.testBit 44 = false → t.net = s.net
  ave : m.testBit 45 = false → t.ave = s.ave
  slots : m.testBit 46 = false → t.slots = s.slots
  dis : m.testBit 47 = false → t.dis = s.dis
  layers : m.testBit 48 = false → t.layers = s.layers
  mem : m.testBit 49 = false → t.mem = s.mem
  dma : m.testBit 50 = false → t.dma = s.dma
  rst : m.testBit 51 = false → t.rst = s.rst
  stk : m.testBit 52 = false → t.stk = s.stk
  cmp : m.testBit 53 = false → t.cmp = s.cmp
  pkg : m.testBit 54 = false → t.pkg = s.pkg
  glb : m.testBit 55 = false → ∀ a < 0x1000, t.rd a = s.rd a
  tables : TablesOk s → TablesOk t
  fuses : FusesOnlyBurn s.stk t.stk

/-- The registers that raising event source `src` may write. -/
def evtRegs (src : Nat) : List Nat := [rEVT_SRC src, rEVT_STAT, rEVT_SEQ, rEVT_RING_IDX]

/-- No register differs but those at the addresses `l` and those that raising the sources `srcs` may write. -/
def regsKept (l srcs : List Nat) (s t : State) : Prop := ∀ a, a ∉ l → (∀ src ∈ srcs, a ∉ evtRegs src) → t.rd a = s.rd a

/-- `t` differs from `s` in the components `m` only, and in no register but those at `l` and those that the events `srcs` write. -/
def onlyIn (m : Nat) (l srcs : List Nat) (s t : State) : Prop := Touches m s t ∧ regsKept l srcs s t

/-- The registers that count what a branch loses for want of credit, on which a record leaves its unit (R158; its event is source 13). -/
def dropRegs : List Nat := (upTo 96).map fun d => rGRID_SQ d

/-- The command `c` answers a next state of which `P` holds. -/
def completes (c : Instr) (s : State) (P : State → Prop) : Prop := ∃ t, exec c s = .next t ∧ P t

/-! ### A Turf core between two instructions -/

/-- Core `c` issues its next instruction with nothing in its way: it is RUNNING, no branch, repeat or end of a loop body is near, and
neither its timer nor its watchdog runs. -/
def turfReady (c : Nat) (s : State) : Prop :=
  (s.tcore c).st = .running ∧ (s.tcore c).br = none ∧ (s.tcore c).rpt = none ∧
  (∀ l ∈ (s.tcore c).loops, (s.tcore c).pc ≠ l.2.1 ∧ (s.tcore c).pc + 1 ≠ l.2.1) ∧
  s.fld (rTC_TIMER c) fTC_TIMER_EN = 0 ∧ s.fld (rTC_LIMIT c) fTC_LIMIT_CYCLES = 0

/-- The late writes to `t` among `l`: when each is seen, and its value. -/
def lateTo (t : LateTo) (l : List Late) : List (Nat × Nat) := (l.filter fun e => e.dst = t).map fun e => (e.n, e.v)

/-- Core `y` is core `x` one instruction on. But for sr, the instruction has written at most the registers `W` and the accumulators `as`,
and it leaves behind the late writes `nl`; pc and the cycle count have advanced by 1. -/
def coreStep (W : List LateTo) (as : List Nat) (nl : List Late) (x y : Core) : Prop :=
  (∀ i, LateTo.d i ∉ W → y.dReg i = x.dReg i) ∧
  (∀ i, i ≠ 33 → LateTo.cr i ∉ W → y.crReg i = x.crReg i) ∧
  (∀ a, a ∉ as → y.accReg a = x.accReg a) ∧
  (∀ t, lateTo t y.late = lateTo t ((if t ∈ W then [] else x.late) ++ nl)) ∧
  y.pc = (x.pc + 1) % 2048 ∧ y.cycles = (x.cycles + 1) % 2 ^ 64 ∧ y.after = false ∧ y.accL = x.acc ∧ y.vL = x.srBit 0 ∧ y.timer = 0 ∧
  (y.st, y.pm, y.dm, y.shadow, y.br, y.rpt, y.calls, y.loops, y.wait, y.ring, y.wptr, y.loss, y.gap, y.sendQ) =
    (x.st, x.pm, x.dm, x.shadow, x.br, x.rpt, x.calls, x.loops, x.wait, x.ring, x.wptr, x.loss, x.gap, x.sendQ)

/-- From `s` to `t` only core `c` has changed. -/
def onlyCore (c : Nat) (s t : State) : Prop := Touches mTurf s t ∧ ∀ k, k ≠ c → t.tcore k = s.tcore k

/-- The instruction command `i` completes on core `c`: nothing but that core changes, it moves on as `coreStep` says, sr becomes `sr`, and
`P` holds of the core as it issued the instruction and as it is after. -/
def turfRuns (i : Instr) (c : Nat) (s : State) (W : List LateTo) (as : List Nat) (nl : Core → List Late) (sr : Core → Nat)
    (P : Core → Core → Prop) : Prop :=
  completes i s fun t => onlyCore c s t ∧ coreStep W as (nl (s.tcore c).mature) (s.tcore c).mature (t.tcore c) ∧
    (t.tcore c).sr = sr (s.tcore c).mature ∧ P (s.tcore c).mature (t.tcore c)

/-- Core `x` after an instruction that changes nothing of its own: pc and the cycle count advance by 1. -/
def turfNext (x : Core) : Core :=
  { x with
    pc := (x.pc + 1) % 2048
    after := false
    accL := x.acc
    vL := x.srBit 0
    cycles := (x.cycles + 1) % 2 ^ 64
    timer := 0 }

/-- Core `x` after it has issued an instruction that now stalls: pc stays. -/
def turfStall (w : CWait) (x : Core) : Core :=
  { x with
    after := false
    accL := x.acc
    vL := x.srBit 0
    st := .stalled
    wait := some w
    cycles := (x.cycles + 1) % 2 ^ 64
    timer := 0 }

/-- The command `i` completes, and all it does is to take core `c` from the core `x` that issues it to `f x`. -/
def turfFlows (i : Instr) (c : Nat) (s : State) (f : Core → Core) : Prop :=
  completes i s fun t => onlyCore c s t ∧ t.tcore c = f (s.tcore c).mature

/-- The command `i` ends the run of core `c` with a fault of cause `e` at its pc (R317): ABORTED, FAULT_PC and CAUSE name it, the queued
records are counted as discarded, and TC_ABORTED is raised. -/
def turfFaults (i : Instr) (c : Nat) (s : State) (e : Nat) : Prop :=
  completes i s fun t => (t.tcore c).st = .halted ∧ (t.tcore c).sendQ = [] ∧
    t.fld (rTC_STATUS c) fTC_STATUS_RESULT = 2 ∧ t.fld (rTC_STATUS c) fTC_STATUS_CAUSE = e ∧
    t.fld (rTC_STATUS c) fTC_STATUS_FAULT_PC = (s.tcore c).pc % 2048 ∧
    t.fld (rTC_STATUS c) fTC_STATUS_RUNS = (s.fld (rTC_STATUS c) fTC_STATUS_RUNS + 1) % 2 ^ 16 ∧
    t.fld (rTC_SOUT_STAT c) fTC_SOUT_STAT_DISCARDED =
      satN 16 (s.fld (rTC_SOUT_STAT c) fTC_SOUT_STAT_DISCARDED + (s.tcore c).sendQ.length) ∧
    (∀ k, k ≠ c → t.tcore k = s.tcore k) ∧ onlyIn (mEvent ||| mTurf) [rTC_STATUS c, rTC_SOUT_STAT c] [385 + 4 * c] s t

/-! ### Packets of an avenue -/

/-- Packet `p` at sub-port `i`, taken as TYPE `ty`, is `q`, and avenue `a` takes it: it is attributed to the avenue, which is not
QUARANTINED, and its header, nonce and length are as they must be (R476). -/
def aveTakes (i ty a : Nat) (p q : AvePkt) (s : State) : Prop :=
  s.glb ≠ 0 ∧ s.linkUp i = true ∧ q = { p with w0 := fset p.w0 ⟨12, 4⟩ ty } ∧ fget q.w0 ⟨44, 12⟩ = a ∧ pktHeaderOk q = true ∧
  s.aveMatches a q = true ∧ s.aveState a ≠ 6 ∧ (ty = 1 ∨ fget q.w2 ⟨32, 32⟩ = (s.aveU a).own) ∧ pktLenOk q (s.aveMax i q.v6) = true

/-- What avenue `a` sends leaves its sub-port at once. -/
def aveCanSend (a : Nat) (s : State) : Prop := s.linkUp (s.aveSub a) = true ∧ (s.netS (s.aveSub a)).pause = none

/-- Of what the device sends, `t` has after `s` one packet of avenue `a` more, with its TYPE, RETX and SLOT, OFS, AUX,
TIME and body (R466), and after it at most messages of events. -/
def aveSent (a typ hi ofs aux time : Nat) (body : List Byte) (s t : State) : Prop :=
  ∃ (d : Datagram) (l : List Out), t.outs = s.outs ++ .udp d :: l ∧ (∀ o ∈ l, ∃ v, o = .msix v) ∧ d.sub = s.aveSub a ∧
    d.dmac = s.fld (rAVE_MAC a) fAVE_MAC_MAC ∧ d.dip = s.aveIp a ∧
    d.sport = s.fld rAVE_GLOBAL fAVE_GLOBAL_LOCAL_PORT ∧ d.dport = s.fld (rAVE_CFG a) fAVE_CFG_PARTNER_PORT ∧
    d.bytes = aveHeader typ (s.fld rGLB_DEVID fGLB_DEVID_DEVID) a (s.fld (rAVE_CFG a) fAVE_CFG_PARTNER_AVE) hi ofs body.length aux
      (if typ = 1 then 0 else (t.aveU a).peer) time ++ body

/-- The body of an OPEN or OPEN_ACK: the nonce, whether the sender sends data, and LIMIT. -/
def openBody (nonce : Nat) (sends : Bool) (limit : Nat) : List Byte :=
  leBytes 8 (nonce % 2 ^ 32 + b2n sends * 2 ^ 32) ++ leBytes 8 limit ++ leBytes 16 0

/-! ### The Stoker's queue -/

/-- Stoker command `c` ends with its outcome, REASON and DETAIL (R502): it leaves the queue, its result register and DONE_TICKET say so, DEPTH
falls by 1, and MAX_SPAN stays or rises, to 2,048 at most. -/
def stkEnds (c : StkCmd) (result reason detail : Nat) (s t : State) : Prop :=
  t.stk.queue = s.stk.queue.filter (fun e => e.ticket != c.ticket) ∧
  t.rd (rSTK_RESULT (c.ticket % 16)) = fsets 0 [(fSTK_RESULT_TICKET, c.ticket), (fSTK_RESULT_RESULT, result),
    (fSTK_RESULT_REASON, reason), (fSTK_RESULT_DETAIL, detail)] ∧
  t.fld rSTK_QUEUE fSTK_QUEUE_DONE_TICKET = c.ticket % 2 ^ 16 ∧
  t.fld rSTK_QUEUE fSTK_QUEUE_DEPTH = s.fld rSTK_QUEUE fSTK_QUEUE_DEPTH - 1 ∧
  s.fld rSTK_STATUS fSTK_STATUS_MAX_SPAN ≤ t.fld rSTK_STATUS fSTK_STATUS_MAX_SPAN ∧
  t.fld rSTK_STATUS fSTK_STATUS_MAX_SPAN ≤ max (s.fld rSTK_STATUS fSTK_STATUS_MAX_SPAN) 2048

end Sys2Proof
end

