-- ==== Sys2Proof/Certificates/Slice0/Obligations.lean ====
section
/-! DEFINITION. The statements about the model, each with what it says in words. -/

open Sys2Proof Sys2Proof.Machine

/-- With a command at the front of its queue, the device's next step is that command's effect on the state with the rest of the queue; with
nothing waiting a step is one tick of the Turf cores (the model's choice, assumption 33). -/
def Obligations.StepRunsFront : Prop :=
  (∀ (c : Instr) (s : State) (rest : List Instr), step { s with pending := c :: rest } = exec c { s with pending := rest }) ∧
  (∀ s : State, s.pending = [] → step s = .next s.turfTick)

/-- From every state every command answers a next state: none ends in a fault or a refusal; and the commands that wait stay as they are
(the queue is the model's own).
Where the spec leaves a point open this states the choice of the model, logged as assumption 11. -/
def Obligations.EveryCommandGoesOn : Prop :=
  ∀ (c : Instr) (s : State), completes c s fun t => t.pending = s.pending

/-- The canonical form of the data store, of host memory, of the flash and of the register maps is an invariant: whatever command a step
runs, and on an idle step too, tables in canonical form stay so. -/
def Obligations.StepKeepsTables : Prop := ∀ s t : State, TablesOk s → step s = .next t → TablesOk t

/-- The state after reset has the invariant of StepKeepsTables.
Where the spec leaves a point open this states the choice of the model, logged as assumptions 6, 7, 8. -/
def Obligations.ResetTablesOk : Prop := TablesOk State.reset

/-- Across every step, device resets among them, no anti-rollback floor falls, a plan key that KEY_LOCK has fused stays the key and stays
locked, and SECURE_ENABLE is never undone. -/
def Obligations.StepBurnsFusesOnly : Prop := ∀ s t : State, step s = .next t → FusesOnlyBurn s.stk t.stk

/-- The flash changes only by a register write (which may start or end a calibration run), by the commands of calibration and of plan
commits (whose end may start a store write that waits), and by the Stoker's FLASH_UPDATE and CAL_STORE; every other command, a device
reset among them, leaves every byte of it alone. -/
def Obligations.FlashFrame : Prop :=
  ∀ (c : Instr) (s t : State), exec c s = .next t →
    (match c with
      | .registerWrite .. => False | .lowHalfWrite .. => False | .highHalfWrite .. => False | .smbWrite .. => False
      | .calGo .. => False | .calAbort .. => False | .calStoreStart .. => False | .calPhaseEnd .. => False
      | .storeWriteEnd .. => False | .planCommit => False | .paramCommit => False
      | .flashUpdate .. => False | .calStore .. => False
      | _ => True) →
    ∀ a : Nat, Memory.byte 0xFF t.flash a = Memory.byte 0xFF s.flash a

/-- The Stoker's state, the provisioned key, the fuses and the measurements change only by register writes, by the Stoker's and SPDM's own
commands, by plan commits and the end of a store write (whose measurements they are), and by resets and boot steps. -/
def Obligations.StokerFrame : Prop :=
  ∀ (c : Instr) (s t : State), exec c s = .next t →
    (match c with
      | .registerWrite .. => False | .lowHalfWrite .. => False | .highHalfWrite .. => False | .smbWrite .. => False
      | .storeWriteEnd .. => False | .planCommit => False | .planStopCommit => False | .paramCommit => False
      | .getVersion .. => False | .getCapabilities .. => False | .negotiateAlgorithms .. => False | .getDigests .. => False
      | .getCertificate .. => False | .challenge .. => False | .getMeasurements .. => False | .spdmUnsupportedRequest .. => False
      | .stkCmdQueue .. => False | .stkNop => False | .flashRead => False | .flashUpdate .. => False | .calStore => False
      | .keyProvision .. => False | .keyLock .. => False | .svnCommit .. => False | .secureEnable .. => False | .stkCancel .. => False
      | .porstAssert .. => False | .porstRelease .. => False | .bootStepEnd .. => False | .railRecovered .. => False
      | _ => True) →
    t.stk = s.stk

/-- What a display shows, its link and its sink change only by DIS_HPD, by a clock that is stable or not, at a frame start, and by a device
reset. -/
def Obligations.DisplayFrame : Prop :=
  ∀ (c : Instr) (s t : State), exec c s = .next t →
    (match c with
      | .disHpd .. => False | .disFrameStart .. => False | .disClockStable .. => False | .porstAssert .. => False
      | _ => True) →
    t.dis = s.dis

/-- A 32-bit read of the low half of a register whose window responds returns bits [31:0] of what the register reads as and latches all 64
bits; a read of the high half on the same path returns bits [63:32] of that latch whatever has become of the register since, and, with the
latch untouched since reset, bits [63:32] of the register's reset value. Neither changes anything else. -/
def Obligations.HalfReadsUseTheLatch : Prop :=
  ∀ (p : Path) (n : Fin (2 ^ 23)) (s : State) (r : RegRow) (ix : List Nat), s.awake = true → s.windowOpen (8 * n) = true →
    place0 (8 * n) = .reg r ix →
    exec (.lowHalfRead p .bar0 n) s =
      .next { s with snap := SMap.set none s.snap (pathKey p (8 * n)) (some (s.view0 (8 * n))),
                     readData := BitVec.ofNat 64 ((s.view0 (8 * n)).toNat % 2 ^ 32) } ∧
    exec (.highHalfRead p .bar0 n) s =
      .next { s with readData := BitVec.ofNat 64 (((SMap.get none s.snap (pathKey p (8 * n))).getD (State.reset.regView r ix (8 * n))).toNat / 2 ^ 32) }

/-- On a path that nothing blocks, to a register whose window responds: a low-half write is staged and changes nothing else, unless the high
half is all reserved, when it takes effect at once; a high-half write commits the staged low half with it, which is staged no longer, and
with nothing staged it has no effect; a 64-bit write takes effect as written and drops the staged low half. -/
def Obligations.HalfWritesCommitTogether : Prop :=
  ∀ (p : Path) (n : Fin (2 ^ 23)) (s : State) (r : RegRow) (ix : List Nat) (env : Env), s.awake = true → s.windowOpen (8 * n) = true →
    place0 (8 * n) = .reg r ix → s.smbBlocked p (8 * n) = false →
    (∀ v, exec (.lowHalfWrite p .bar0 n v env) s =
      .next (if r.lowOnly then s.regEffect p r ix (8 * n) env (BitVec.ofNat 64 v.toNat)
        else { s with staged := SMap.set none s.staged (pathKey p (8 * n)) (some (BitVec.ofNat 64 v.toNat)) })) ∧
    (∀ v, exec (.highHalfWrite p .bar0 n v env) s =
      .next (match SMap.get none s.staged (pathKey p (8 * n)) with
        | some low => (s.dropStaged p (8 * n)).regEffect p r ix (8 * n) env (BitVec.ofNat 64 (v.toNat * 2 ^ 32 + low.toNat % 2 ^ 32))
        | none => s)) ∧
    (∀ v (h : 8 * n.val < 2 ^ 26), exec (.registerWrite p .bar0 ⟨8 * n, h⟩ v env) s =
      .next ((s.dropStaged p (8 * n)).regEffect p r ix (8 * n) env v))

/-- GLB_SCRATCH takes the value of a 64-bit write and reads it back, and no other register, and nothing but the dropped staging of the path,
changes; a read of it on another path sees the same value. -/
def Obligations.ScratchHoldsWhatIsWritten : Prop :=
  ∀ (p : Path) (v : Word) (env : Env) (s : State), s.awake = true → s.smbBlocked p rGLB_SCRATCH = false →
    exec (.registerWrite p .bar0 ⟨rGLB_SCRATCH, by decide⟩ v env) s = .next ((s.dropStaged p rGLB_SCRATCH).wr rGLB_SCRATCH v) ∧
    (∀ a, ((s.dropStaged p rGLB_SCRATCH).wr rGLB_SCRATCH v).rd a = if a = rGLB_SCRATCH then v else s.rd a) ∧
    ((s.dropStaged p rGLB_SCRATCH).wr rGLB_SCRATCH v).view0 rGLB_SCRATCH = v

/-- In BAR0 of a device that can be reached: a read that is misaligned or of a reserved address returns 0 and counts in RSVD_RD, a write
that is so and that the SMBus lock lets through counts in RSVD_WR, each saturating; an aligned read that is narrower than 32 bits returns 0
and counts nothing; and none of them changes a register but that counter and the registers of events.
Where the spec leaves a point open this states the choice of the model, logged as assumptions 29, 35. -/
def Obligations.ReservedAccessCounts : Prop :=
  ∀ (p : Path) (a : Fin (2 ^ 26)) (sz : AccSize) (s : State), s.awake = true →
    ((misaligned a sz || reserved0 a) = true →
      completes (.reservedAddressAccess p .bar0 a sz false) s fun t =>
        t.readData = 0 ∧ t.fld rGLB_HIF_ACCESS fGLB_HIF_ACCESS_RSVD_RD = satN 16 (s.fld rGLB_HIF_ACCESS fGLB_HIF_ACCESS_RSVD_RD + 1) ∧
        regsKept [rGLB_HIF_ACCESS] [997] s t) ∧
    ((misaligned a sz || reserved0 a) = true → s.smbBlocked p a = false →
      completes (.reservedAddressAccess p .bar0 a sz true) s fun t =>
        t.fld rGLB_HIF_ACCESS fGLB_HIF_ACCESS_RSVD_WR = satN 16 (s.fld rGLB_HIF_ACCESS fGLB_HIF_ACCESS_RSVD_WR + 1) ∧
        regsKept [rGLB_HIF_ACCESS] [997] s t) ∧
    ((misaligned a sz || reserved0 a) = false → narrow sz = true →
      exec (.reservedAddressAccess p .bar0 a sz false) s = .next { s with readData := 0 })

/-- The registers below 0x1000 of the GLB window, GLB_STATUS with STATE and PLAN_ACTIVE among them, change only by register writes and the
device ID's, by datapath restarts and what may begin one, by lock, holdover and re-lock of the synthesizers, by plan commits, and by resets
and boot steps: every other command leaves each of them as it reads. -/
def Obligations.DeviceStateFrame : Prop :=
  ∀ (c : Instr) (s t : State), exec c s = .next t →
    (match c with
      | .registerWrite .. => False | .lowHalfWrite .. => False | .highHalfWrite .. => False | .smbWrite .. => False
      | .devidWrite .. => False | .devidLock .. => False
      | .dpRestart .. => False | .restartTrainingEnd .. => False | .restartActivate => False | .restartTimeout => False
      | .retrain .. => False | .cxlReset .. => False | .stkCsEccError .. => False | .stkWatchdog => False | .thmSensorUpdate .. => False
      | .injectEvent .. => False | .injectContext .. => False | .injectMemCe .. => False | .injectMemUe .. => False
      | .injectRestart .. => False | .injectLock .. => False
      | .refLoss .. => False | .mpllLockDeclared => False | .mpllLol .. => False | .lpllHoldover => False | .lpllRelocked => False
      | .retune .. => False | .retuneSettleDone .. => False | .linkRetrain .. => False
      | .planCommit => False | .planStopCommit => False | .paramCommit => False
      | .porstAssert .. => False | .porstRelease .. => False | .bootStepEnd .. => False | .railRecovered .. => False
      | _ => True) →
    ∀ a < 0x1000, t.rd a = s.rd a

/-- While the device can be reached: a DEVID_WRITE with the ID unlocked and no plan active sets DEVID; a locked one keeps DEVID; DEVID_LOCK
sets LOCK, and DEVID as that write says (a lock bit takes effect only after the write that sets it). No other register changes.
Where the spec leaves a point open this states the choice of the model, logged as assumption 27. -/
def Obligations.DevidLocks : Prop :=
  (∀ (v : Word) (s : State), s.awake = true → s.flag rGLB_DEVID fGLB_DEVID_LOCK = false → s.planActive = false →
    completes (.devidWrite v) s fun t => t.fld rGLB_DEVID fGLB_DEVID_DEVID = fget v fGLB_DEVID_DEVID ∧
      t.flag rGLB_DEVID fGLB_DEVID_LOCK = (fget v fGLB_DEVID_LOCK != 0) ∧ onlyIn (mRegs ||| mGlb ||| mStaged) [rGLB_DEVID] [] s t) ∧
  (∀ (v : Word) (s : State), s.awake = true → s.flag rGLB_DEVID fGLB_DEVID_LOCK = true →
    completes (.devidWrite v) s fun t => t.fld rGLB_DEVID fGLB_DEVID_DEVID = s.fld rGLB_DEVID fGLB_DEVID_DEVID ∧
      t.flag rGLB_DEVID fGLB_DEVID_LOCK = true ∧ onlyIn (mRegs ||| mGlb ||| mStaged) [rGLB_DEVID] [] s t) ∧
  (∀ (v : Word) (s : State), s.awake = true → s.flag rGLB_DEVID fGLB_DEVID_LOCK = false → s.planActive = false →
    completes (.devidLock v) s fun t => t.fld rGLB_DEVID fGLB_DEVID_DEVID = fget v fGLB_DEVID_DEVID ∧
      t.flag rGLB_DEVID fGLB_DEVID_LOCK = true ∧ onlyIn (mRegs ||| mGlb ||| mStaged) [rGLB_DEVID] [] s t)

/-- DP_RESTART in READY begins a restart for cause SOFTWARE at the present time; its steps come at their times and each only in its turn;
channels trained again are no longer failed, one that fails ends the restart, and so do 250 ms, HALTED with RESTART_FAIL (HALT_CAUSE 4); else the
restart ends with STATE at READY and event 3, with nothing left of the frames and replays on their way.
Where the spec leaves a point open this states the choice of the model, logged as assumptions 11, 25. -/
def Obligations.DatapathRestart : Prop :=
  (∀ (v : Word) (s : State), s.ready = true →
    completes (.dpRestart v) s fun t => t.glb = 4 ∧ t.rst = ⟨1, s.time, 0, s.rst.autos.filter (fun x => s.time < x + s.secTicks 60), [], false, false, false⟩) ∧
  (∀ s : State, s.glb = 4 → s.rst.phase = 0 → completes .restartFaultRecords s fun t => t.rst = { s.rst with phase := 1 } ∧ t.glb = 4) ∧
  (∀ s : State, s.glb = 4 → s.rst.phase = 1 → completes .restartUnitReset s fun t => t.rst = { s.rst with phase := 2 } ∧ t.glb = 4) ∧
  (∀ s : State, s.glb = 4 → s.rst.phase = 2 → s.rst.failed ≠ [] →
    completes (.restartTrainingEnd true) s fun t => t.rst = { s.rst with failed := [] } ∧ t.glb = 4) ∧
  (∀ s : State, s.glb = 4 → s.rst.phase = 2 → s.rst.failed ≠ [] →
    completes (.restartTrainingEnd false) s fun t => t.glb = 5 ∧ t.fld rGLB_STATUS fGLB_STATUS_HALT_CAUSE = 4 ∧ t.rst = s.rst) ∧
  (∀ s : State, s.glb = 4 → completes .restartTimeout s fun t => t.glb = 5 ∧ t.fld rGLB_STATUS fGLB_STATUS_HALT_CAUSE = 4 ∧
    t.rst = s.rst ∧ s.time ≤ t.time) ∧
  (∀ s : State, s.glb = 4 → s.rst.phase = 2 → s.rst.failed = [] → s.rst.fourth = false →
    completes .restartActivate s fun t => t.glb = 3 ∧ t.frames = [] ∧ t.replay = [] ∧ t.lt = [] ∧ t.fm = [] ∧ t.rst = s.rst)

/-- Outside reset: the loss of a good reference clears REF_OK and raises REF_LOSS (33), and in LOCKED it, and a loss of lock, put the MPLL
into HOLDOVER, with GLB_STATUS telling so and the error of the last good gate frozen; a reference that is good again sets REF_OK and raises
34; a lock declared in HOLDOVER ends it, and the records open until then are marked; a 1 ms gate that ends well in LOCKED is the error a holdover would freeze. Nothing else changes.
Where the spec leaves a point open this states the choice of the model, logged as assumptions 4, 11, 63. -/
def Obligations.HoldoverEntryAndExit : Prop :=
  (∀ (i : Int) (s : State), s.glb ≠ 0 → s.refOk = true → s.mpll ≠ 2 →
    exec (.refLoss i) s =
      .next (((s.setFld rCLK_STATUS fCLK_STATUS_REF_OK 0).updClk fun c => { c with gateBad := true, refMs := false }).raise 33)) ∧
  (∀ (i : Int) (s : State), s.glb ≠ 0 → s.refOk = true → s.mpll = 2 →
    completes (.refLoss i) s fun t => t.refOk = false ∧ t.mpll = 3 ∧ t.flag rGLB_STATUS fGLB_STATUS_HOLDOVER = true ∧
      t.flag rGLB_STATUS fGLB_STATUS_MPLL_LOCK = false ∧
      onlyIn (mEvent ||| mClk ||| mGlb) [rCLK_STATUS, rGLB_STATUS, rCLK_HO_ERR] [32, 33] s t) ∧
  (∀ (s : State), s.glb ≠ 0 → s.refOk = false →
    exec .refRestored s = .next ((s.setFld rCLK_STATUS fCLK_STATUS_REF_OK 1).raise 34)) ∧
  (∀ (i : Int) (s : State), s.glb ≠ 0 → s.mpll = 2 →
    completes (.mpllLol i) s fun t => t.mpll = 3 ∧ t.flag rCLK_STATUS fCLK_STATUS_SYNCED = false ∧
      t.flag rGLB_STATUS fGLB_STATUS_HOLDOVER = true ∧ t.clk.frozen = s.clk.gate.getD i ∧
      onlyIn (mEvent ||| mClk ||| mGlb) [rCLK_STATUS, rGLB_STATUS, rCLK_HO_ERR] [32] s t) ∧
  (∀ (s : State), s.glb ≠ 0 → s.refOk = true → s.clk.stage = .idle → s.mpll = 3 →
    completes .mpllLockDeclared s fun t => t.mpll = 2 ∧ t.flag rCLK_STATUS fCLK_STATUS_HO_GAP = false ∧
      t.flag rGLB_STATUS fGLB_STATUS_HOLDOVER = false ∧ t.flag rGLB_STATUS fGLB_STATUS_MPLL_LOCK = true ∧
      onlyIn (mEvent ||| mClk ||| mTdc ||| mAu ||| mGlb) [rCLK_STATUS, rGLB_STATUS] [36] s t) ∧
  (∀ (e : Int) (s : State), s.glb ≠ 0 → s.mpll = 2 → s.clk.gateBad = false → s.refOk = true →
    exec (.mpllFreqGate e) s = .next { s with clk := { s.clk with gate := some e } })

/-- A RETUNE in LOCKED to a staged word whose f_root is legal is taken up and goes to that word, and every clock output completes its high phase; in any other state of the MPLL, and for any
other word, CLK_CMD.RESULT says so (4, 3) and nothing else happens. Lock not declared within TIMEOUT sends it back to the previous word
(RESULT 5), and there to HELD (RESULT 6, MPLL_STATE 5, event 37), from where each TIMEOUT with a good reference tries again. SETTLE after
lock ends the re-lock with the new word in force. SYNC_ARM arms; a SYNCIN edge then takes the arm back and sets SYNCED. The LPLL's holdover
and re-lock show in its two registers and raise 38 and 39; a millisecond of holdover counts in ELAPSED.
Where the spec leaves a point open this states the choice of the model, logged as assumptions 11, 63. -/
def Obligations.RelockAndSync : Prop :=
  (∀ (v : Word) (s : State), s.ready = true → s.mpll = 2 → s.wordOk s.mpllWord = true →
    completes (.retune v) s fun t => t.clk = { s.clk with prev := s.clk.word, target := s.mpllWord, stage := .toNew,
                                                            outs := s.clk.outs.map fun o => { o with phase := max o.phase o.high } } ∧
      Touches (mEvent ||| mAct ||| mStaged ||| mCtxs ||| mBillets ||| mClk ||| mTbs ||| mCnv ||| mPg ||| mCal ||| mGlb) s t) ∧
  (∀ (v : Word) (s : State), s.ready = true → s.mpll ≠ 2 →
    exec (.retune v) s = .next ((s.dropStaged .host rCLK_CMD).setFld rCLK_CMD fCLK_CMD_RESULT 4)) ∧
  (∀ (v : Word) (s : State), s.ready = true → s.mpll = 2 → s.wordOk s.mpllWord = false →
    exec (.retune v) s = .next ((s.dropStaged .host rCLK_CMD).setFld rCLK_CMD fCLK_CMD_RESULT 3)) ∧
  (∀ (fs : Nat) (s : State), s.glb ≠ 0 → s.clk.stage = .settleNew →
    completes (.retuneSettleDone fs) s fun t => t.clk.stage = .idle ∧ t.clk.word = s.clk.target ∧ t.clk.gate = none) ∧
  (∀ s : State, s.glb ≠ 0 → s.clk.stage = .toNew →
    exec .retuneTimeout s = .next ((s.setFld rCLK_CMD fCLK_CMD_RESULT 5).updClk fun c => { c with stage := .toOld })) ∧
  (∀ s : State, s.glb ≠ 0 → s.clk.stage = .toOld →
    exec .retuneTimeout s = .next ((((s.setFld rCLK_CMD fCLK_CMD_RESULT 6).setFld rCLK_STATUS fCLK_STATUS_MPLL_STATE 5).updClk
      fun c => { c with stage := .held }).raise 37)) ∧
  (∀ s : State, s.glb ≠ 0 → s.clk.stage = .held → s.refOk = true →
    exec .heldRetry s = .next { s with clk := { s.clk with stage := .retry } }) ∧
  (∀ (v : Word) (s : State), s.ready = true → s.planActive = false → s.fld rCLK_MPLL fCLK_MPLL_FRAC = 0 →
    completes (.syncArm v) s fun t => t.flag rCLK_SYNC fCLK_SYNC_ARM = true ∧ onlyIn (mRegs ||| mStaged) [rCLK_SYNC] [] s t) ∧
  (∀ (same : Bool) (s : State), s.glb ≠ 0 → s.flag rCLK_SYNC fCLK_SYNC_ARM = true → s.mpll = 2 →
    completes (.syncinEdge same) s fun t => t.flag rCLK_SYNC fCLK_SYNC_ARM = false ∧ t.flag rCLK_STATUS fCLK_STATUS_SYNCED = true ∧
      onlyIn (mEvent ||| mClk) [rCLK_SYNC, rCLK_STATUS] [40] s t) ∧
  (∀ s : State, s.glb ≠ 0 → s.flag rCLK_STATUS fCLK_STATUS_LPLL_HOLD = false →
    completes .lpllHoldover s fun t => t.flag rCLK_STATUS fCLK_STATUS_LPLL_HOLD = true ∧ t.flag rCLK_STATUS fCLK_STATUS_LPLL_LOCK = false ∧
      t.flag rGLB_STATUS fGLB_STATUS_LPLL_LOCK = false ∧ onlyIn (mEvent ||| mGlb) [rCLK_STATUS, rGLB_STATUS] [38] s t) ∧
  (∀ s : State, s.glb ≠ 0 → s.flag rCLK_STATUS fCLK_STATUS_LPLL_HOLD = true →
    completes .lpllRelocked s fun t => t.flag rCLK_STATUS fCLK_STATUS_LPLL_HOLD = false ∧ t.flag rCLK_STATUS fCLK_STATUS_LPLL_LOCK = true ∧
      t.flag rGLB_STATUS fGLB_STATUS_LPLL_LOCK = true ∧ onlyIn (mEvent ||| mGlb) [rCLK_STATUS, rGLB_STATUS] [39] s t) ∧
  (∀ (ppb : Nat) (s : State), s.glb ≠ 0 → s.mpll = 3 →
    completes (.holdoverUpdate ppb) s fun t =>
      t.fld rCLK_HO_ERR fCLK_HO_ERR_ELAPSED = satN 32 (s.fld rCLK_HO_ERR fCLK_HO_ERR_ELAPSED + 1) ∧
      onlyIn (mEvent ||| mFreeCtr ||| mClk) [rCLK_STATUS, rCLK_HO_ERR] [35] s t)

/-- In READY a write of CNV_ATT[n] with GO sets GO and the step asked for, and changes no step in force. When the step is applied, GO is
cleared, LATE tells whether its TIME had passed, the step takes force, time has reached TIME, and, where no calibration run drives the input,
G_eff is computed with the new step; nothing is applied while the dividers are held. A write of CNV_CHCORR[n] holds its two fields and computes G_eff at once, with the step in force.
Where the spec leaves a point open this states the choice of the model, logged as assumptions 27, 30, 59. -/
def Obligations.AttenuatorAndChannelCorrection : Prop :=
  (∀ (n : Fin 4) (v : Word) (s : State), s.ready = true →
    completes (.attGo n v) s fun t => t.flag (rCNV_ATT n) fCNV_ATT_GO = true ∧
      t.fld (rCNV_ATT n) fCNV_ATT_STEP = fget v fCNV_ATT_STEP ∧ t.attStep n = s.attStep n ∧
      onlyIn (mRegs ||| mStaged) [rCNV_ATT n] [] s t) ∧
  (∀ (n : Fin 4) (s : State), s.glb ≠ 0 → s.held = true → exec (.attApply n) s = .next s) ∧
  (∀ (n : Fin 4) (s : State), s.glb ≠ 0 → s.held = false → s.flag (rCNV_ATT n) fCNV_ATT_GO = true →
    (s.fld rCAL_STATUS fCAL_STATUS_STATE ≠ 1 ∨ s.cal.input ≠ n) →
    completes (.attApply n) s fun t => t.flag (rCNV_ATT n) fCNV_ATT_GO = false ∧
      t.flag (rCNV_ATT n) fCNV_ATT_LATE = (decide ((s.rd (rCNV_ATT_TIME n)).toNat ≠ 0 ∧ (s.rd (rCNV_ATT_TIME n)).toNat < s.time)) ∧
      t.attStep n = s.fld (rCNV_ATT n) fCNV_ATT_STEP ∧ (t.core n).geff = s.geffAt n (s.fld (rCNV_ATT n) fCNV_ATT_STEP) ∧
      t.time = max s.time (s.rd (rCNV_ATT_TIME n)).toNat ∧ t.cal = s.cal ∧
      onlyIn (mRegs ||| mAct ||| mTime ||| mCnv) [rCNV_ATT n, rCNV_BG_COUNT n, rCNV_BG_COUNT (n + 1)] [] s t) ∧
  (∀ (n : Fin 4) (v : Word) (s : State), s.ready = true →
    completes (.chcorrWrite n v) s fun t => t.fld (rCNV_CHCORR n) fCNV_CHCORR_GAIN = fget v fCNV_CHCORR_GAIN ∧
      t.fld (rCNV_CHCORR n) fCNV_CHCORR_OFFSET = fget v fCNV_CHCORR_OFFSET ∧ (t.core n).geff = t.geffAt n (s.attStep n) ∧
      onlyIn (mRegs ||| mStaged ||| mCnv) [rCNV_CHCORR n] [] s t)

/-- A write of CNV_SLICE is taken only while EN reads 0 and no step runs. A write of CNV_BG that sets EN while no step runs, outside a
calibration run of the input and outside standby, starts one, with the free slice settling; the end of settling starts shadow sampling. With
the RMS difference of the corrected outputs within HO_TOL the free slice takes the position, and the one that held it is free; beyond it the
handover is rejected, is counted in HO_REJECT and raises its event, and the rejections of both slices count. A window that meets a hold
condition counts in HOLD_WINDOWS, and HOLD and REASON say so; one that meets none ends HOLD, and each correction of the free slice moves by a
quarter of its error, a fraction rounded down or up, with the position moved on, or, where one would leave its bounds, the slice is marked
FAILED. The idle time ends with the next step, or, where EN reads 0, with no step and REASON 4.
Where the spec leaves a point open this states the choice of the model, logged as assumptions 4, 11, 60, 61. -/
def Obligations.BackgroundCalibration : Prop :=
  (∀ (n : Fin 4) (k : Fin 17) (v : Word) (s : State), s.ready = true → s.flag (rCNV_BG n) fCNV_BG_EN = false → (s.core n).phase = .off →
    exec (.sliceWrite n k v) s = .next ((s.dropStaged .host (rCNV_SLICE n k)).wrCodes (rCNV_SLICE n k) v [])) ∧
  (∀ (n : Fin 4) (k : Fin 17) (v : Word) (s : State), s.ready = true →
    (s.flag (rCNV_BG n) fCNV_BG_EN = true ∨ (s.core n).phase ≠ .off) →
    exec (.sliceWrite n k v) s = .next (s.dropStaged .host (rCNV_SLICE n k))) ∧
  (∀ (n : Fin 4) (v : Word) (s : State), s.ready = true → (s.core n).phase = .off → (s.core n).frozen = false → fget v fCNV_BG_EN = 1 →
    s.calRunOn n = false → s.flag rPWR_CTRL fPWR_CTRL_CNV_STBY = false →
    exec (.bgEnWrite n v) s = .next (((s.dropStaged .host (rCNV_BG n)).wrCodes (rCNV_BG n) (inRange .CNV_BG n (s.rd (rCNV_BG n)) v) []).updCore n
      fun c => { c with phase := .settle, clipWin := false })) ∧
  (∀ (n : Fin 4) (v : Word) (s : State), s.ready = true → (s.core n).phase ≠ .off → s.calRunOn n = false →
    exec (.bgEnWrite n v) s =
      .next ((s.dropStaged .host (rCNV_BG n)).wrCodes (rCNV_BG n) (inRange .CNV_BG n (s.rd (rCNV_BG n)) v) [])) ∧
  (∀ (n : Fin 4) (s : State), s.glb ≠ 0 → s.clk.stage = .idle → (s.core n).phase = .settle →
    exec (.bgSettleEnd n) s = .next (s.updCore n fun c => { c with phase := .shadow })) ∧
  (∀ (n : Fin 4) (f a : List (BitVec 12)) (j kf ka : Nat) (s : State), s.glb ≠ 0 → s.clk.stage = .idle → (s.core n).phase = .shadow →
    s.fld (rCNV_BG_STATUS n) fCNV_BG_STATUS_POS = j → s.fld (rCNV_BG_STATUS n) fCNV_BG_STATUS_FREE = kf → s.sliceAt n j = ka →
    (s.core n).remove ≠ some ka →
    shadowOk (s.fld (rCNV_BG n) fCNV_BG_HO_TOL) (f.map fun x => (s.sliceVal n kf x.toInt).1) (a.map fun x => (s.sliceVal n ka x.toInt).1) = true →
    exec (.bgShadowEnd n ⟨f, a⟩) s = .next
      ((((s.setFld (rCNV_SLICE n kf) fCNV_SLICE_POS j).setFld (rCNV_SLICE n ka) fCNV_SLICE_POS 31).setFld
        (rCNV_BG_STATUS n) fCNV_BG_STATUS_FREE ka).updCore n fun c =>
          { c with phase := .window, clipWin := false, retry := false, rejects := SMap.set 0 (SMap.set 0 c.rejects kf 0) ka 0 })) ∧
  (∀ (n : Fin 4) (f a : List (BitVec 12)) (kf ka : Nat) (s : State), s.glb ≠ 0 → s.clk.stage = .idle → (s.core n).phase = .shadow →
    s.fld (rCNV_BG_STATUS n) fCNV_BG_STATUS_FREE = kf → s.sliceAt n (s.fld (rCNV_BG_STATUS n) fCNV_BG_STATUS_POS) = ka →
    shadowOk (s.fld (rCNV_BG n) fCNV_BG_HO_TOL) (f.map fun x => (s.sliceVal n kf x.toInt).1) (a.map fun x => (s.sliceVal n ka x.toInt).1) = false →
    SMap.get 0 (s.core n).rejects kf < 2 → SMap.get 0 (s.core n).rejects ka < 2 →
    exec (.bgShadowEnd n ⟨f, a⟩) s = .next
      ((({ s with freeCtr := s.freeCtr + 1 }.addSat (rCNV_BG_COUNT n) fCNV_BG_COUNT_HO_REJECT 1).raise (76 + n)).updCore n fun c =>
        { c with phase := .window, clipWin := false, retry := true,
                 rejects := SMap.set 0 (SMap.set 0 c.rejects kf (SMap.get 0 (s.core n).rejects kf + 1)) ka
                   (SMap.get 0 (s.core n).rejects ka + 1) })) ∧
  (∀ (n : Fin 4) (w : BgWindow) (s : State), s.glb ≠ 0 → s.clk.stage = .idle → (s.core n).phase = .window →
    completes (.bgWindowEnd n w) s fun t =>
      (s.bgReason n w ≠ 0 → t = ((s.addSat (rCNV_BG_COUNT n) fCNV_BG_COUNT_HOLD_WINDOWS 1).setHold n true (s.bgReason n w)).updCore n
        fun c => { c with phase := .interval }) ∧
      (s.bgReason n w = 0 → ∀ f : Fin 17, s.fld (rCNV_BG_STATUS n) fCNV_BG_STATUS_FREE = f → ∃ eo eg es : Int,
        (4 * eo - 4 ≤ 64 * ((s.bgSums n w).sF * (s.bgSums n w).nA - (s.bgSums n w).sA * (s.bgSums n w).nF) /
            (max 1 ((s.bgSums n w).nF * (s.bgSums n w).nA) : Nat) ∧
          64 * ((s.bgSums n w).sF * (s.bgSums n w).nA - (s.bgSums n w).sA * (s.bgSums n w).nF) /
            (max 1 ((s.bgSums n w).nF * (s.bgSums n w).nA) : Nat) ≤ 4 * eo + 3) ∧
        (4 * eg - 3 ≤ Config.gainError (s.bgSums n w).qF (s.bgSums n w).nF (s.bgSums n w).qA (s.bgSums n w).nA ∧
          Config.gainError (s.bgSums n w).qF (s.bgSums n w).nF (s.bgSums n w).qA (s.bgSums n w).nA ≤ 4 * eg + 3) ∧
        (4 * es - 3 ≤ Config.skewError (s.bgSums n w).cLo (s.bgSums n w).cHi ∧
          Config.skewError (s.bgSums n w).cLo (s.bgSums n w).cHi ≤ 4 * es + 3) ∧
        (if (s.fldS (rCNV_SLICE n f) fCNV_SLICE_OFFSET + eo).natAbs ≤ 16384 ∧
            24576 ≤ s.fld (rCNV_SLICE n f) fCNV_SLICE_GAIN + eg ∧ s.fld (rCNV_SLICE n f) fCNV_SLICE_GAIN + eg ≤ 40960 ∧
            -128 < s.fldS (rCNV_SLICE n f) fCNV_SLICE_SKEW + es ∧ s.fldS (rCNV_SLICE n f) fCNV_SLICE_SKEW + es < 127 then
          t.flag (rCNV_BG_STATUS n) fCNV_BG_STATUS_HOLD = false ∧ (t.core n).phase = .interval ∧
          t.fldS (rCNV_SLICE n f) fCNV_SLICE_OFFSET = s.fldS (rCNV_SLICE n f) fCNV_SLICE_OFFSET + eo ∧
          (t.fld (rCNV_SLICE n f) fCNV_SLICE_GAIN : Int) = s.fld (rCNV_SLICE n f) fCNV_SLICE_GAIN + eg ∧
          t.fldS (rCNV_SLICE n f) fCNV_SLICE_SKEW = s.fldS (rCNV_SLICE n f) fCNV_SLICE_SKEW + es ∧
          t.fld (rCNV_BG_STATUS n) fCNV_BG_STATUS_POS =
            (if (s.core n).retry then s.fld (rCNV_BG_STATUS n) fCNV_BG_STATUS_POS else (s.fld (rCNV_BG_STATUS n) fCNV_BG_STATUS_POS + 1) % 16) ∧
          onlyIn (mEvent ||| mFreeCtr ||| mCnv) [rCNV_SLICE n f, rCNV_BG_STATUS n] [72 + n.val] s t
        else (s.fld (rCNV_BG_STATUS n) fCNV_BG_STATUS_FAILED ||| 2 ^ f.val) = t.fld (rCNV_BG_STATUS n) fCNV_BG_STATUS_FAILED ∧
          (t.core n).phase = .off))) ∧
  (∀ (n : Fin 4) (s : State), s.glb ≠ 0 → s.clk.stage = .idle → (s.core n).phase = .interval → (s.core n).frozen = false →
    s.flag rPWR_CTRL fPWR_CTRL_CNV_STBY = false → s.cal.await.contains n.val = false → s.flag (rCNV_BG n) fCNV_BG_EN = true →
    exec (.bgIntervalEnd n) s = .next (s.updCore n fun c => { c with phase := .settle, clipWin := false })) ∧
  (∀ (n : Fin 4) (s : State), s.glb ≠ 0 → s.clk.stage = .idle → (s.core n).phase = .interval → s.cal.await.contains n.val = false →
    s.flag (rCNV_BG n) fCNV_BG_EN = false →
    exec (.bgIntervalEnd n) s = .next ((s.updCore n fun c => { c with phase := .off }).setHold n true 4)) ∧
  (∀ (n : Fin 4) (why : Nat) (s : State), why < 8 →
    ((s.setHold n true why).flag (rCNV_BG_STATUS n) fCNV_BG_STATUS_HOLD = true ∧
      (s.setHold n true why).fld (rCNV_BG_STATUS n) fCNV_BG_STATUS_REASON = why))

/-- Outside reset an enabled monitor that sees its condition sets LIVE and, where it is not latched, LATCHED, and counts in TRIPS; while the
condition does not hold, or the latch is set already, LIVE follows it and nothing else changes; one that is not enabled, or whose speed
takes its other kind of observation, sees nothing. The end of a CLEAR_US period clears LATCHED in its mode and does nothing in the other; a
1 written to LATCHED clears it; a write of MON_CFG with EN 0 clears LATCHED and LIVE.
Where the spec leaves a point open this states the choice of the model, logged as assumption 30. -/
def Obligations.MonitorsLatchAndClear : Prop :=
  (∀ (m : Fin 12) (v : Int) (s : State), s.glb ≠ 0 → s.flag (rMON_CFG m) fMON_CFG_EN = true → s.monCond m v = true →
    s.flag (rMON_STATUS m) fMON_STATUS_LATCHED = false →
    ∀ c, (c = .monitorTrip m v ∧ s.fld (rMON_CFG m) fMON_CFG_SPEED ≠ 3) ∨ (c = .monSample m v ∧ s.fld (rMON_CFG m) fMON_CFG_SPEED = 3) →
    completes c s fun t => t.flag (rMON_STATUS m) fMON_STATUS_LIVE = true ∧ t.flag (rMON_STATUS m) fMON_STATUS_LATCHED = true ∧
      t.fld (rMON_STATUS m) fMON_STATUS_TRIPS = satN fMON_STATUS_TRIPS.w (s.fld (rMON_STATUS m) fMON_STATUS_TRIPS + 1) ∧
      Touches (mEvent ||| mPg ||| mTq) s t) ∧
  (∀ (m : Fin 12) (v : Int) (s : State), s.glb ≠ 0 → s.flag (rMON_CFG m) fMON_CFG_EN = true →
    (s.monCond m v = false ∨ s.flag (rMON_STATUS m) fMON_STATUS_LATCHED = true) →
    ∀ c, (c = .monitorTrip m v ∧ s.fld (rMON_CFG m) fMON_CFG_SPEED ≠ 3) ∨ (c = .monSample m v ∧ s.fld (rMON_CFG m) fMON_CFG_SPEED = 3) →
    exec c s = .next (s.setFld (rMON_STATUS m) fMON_STATUS_LIVE (b2n (s.monCond m v)))) ∧
  (∀ (m : Fin 12) (v : Int) (s : State), s.glb ≠ 0 →
    ∀ c, (c = .monitorTrip m v ∧ (s.flag (rMON_CFG m) fMON_CFG_EN = false ∨ s.fld (rMON_CFG m) fMON_CFG_SPEED = 3)) ∨
      (c = .monSample m v ∧ (s.flag (rMON_CFG m) fMON_CFG_EN = false ∨ s.fld (rMON_CFG m) fMON_CFG_SPEED ≠ 3)) →
    exec c s = .next s) ∧
  (∀ (m : Fin 12) (s : State), s.glb ≠ 0 → s.flag (rMON_CFG m) fMON_CFG_CLR_MODE = true →
    completes (.monPeriodClear m) s fun t => t.flag (rMON_STATUS m) fMON_STATUS_LATCHED = false ∧
      onlyIn (mRegs ||| mCnv) [rMON_STATUS m] [] s t) ∧
  (∀ (m : Fin 12) (s : State), s.glb ≠ 0 → s.flag (rMON_CFG m) fMON_CFG_CLR_MODE = false → exec (.monPeriodClear m) s = .next s) ∧
  (∀ (m : Fin 12) (v : Word) (s : State), s.ready = true →
    completes (.monLatchClear m v) s fun t => t.flag (rMON_STATUS m) fMON_STATUS_LATCHED = false ∧
      t.fld (rMON_STATUS m) fMON_STATUS_TRIPS = s.fld (rMON_STATUS m) fMON_STATUS_TRIPS ∧
      onlyIn (mRegs ||| mStaged ||| mCnv) [rMON_STATUS m] [] s t) ∧
  (∀ (m : Fin 12) (v : Word) (s : State), s.ready = true → fget v fMON_CFG_EN = 0 →
    completes (.monCfgWrite m v) s fun t => t.flag (rMON_CFG m) fMON_CFG_EN = false ∧ t.flag (rMON_STATUS m) fMON_STATUS_LATCHED = false ∧
      t.flag (rMON_STATUS m) fMON_STATUS_LIVE = false ∧ onlyIn (mRegs ||| mStaged ||| mCnv) [rMON_CFG m, rMON_STATUS m] [] s t)

/-- A write of SW_TRIP trips a generator that is not tripped: TRIPPED is set and its event raised, and a generator that has ever been
committed drives SAFE. TRIPPED and SW_TRIP clear by a 1 written to TRIPPED while no selected monitor holds its latch, and not while one does.
A write of PG_CFG holds SAFE at once; ARM is set by writing it. A commit that is armed takes the three shadowed registers into force, clears
ARM and leaves RUNNING set in PERIODIC and SINGLE only; one that is not armed, or comes while the dividers are held, does nothing. An idle edge of a running schedule ends the
pulse, and in SINGLE the schedule; an active edge of one not tripped counts a pulse.
Where the spec leaves a point open this states the choice of the model, logged as assumptions 11, 30, 62. -/
def Obligations.GeneratorsTripAndRun : Prop :=
  (∀ (g : Fin 8) (v : Word) (s : State), s.ready = true → s.flag (rPG_STATUS g) fPG_STATUS_TRIPPED = false →
    completes (.pgSwTrip g v) s fun t => t.flag (rPG_STATUS g) fPG_STATUS_TRIPPED = true ∧ t.flag (rPG_CFG g) fPG_CFG_SW_TRIP = true ∧
      t.fld (rPG_STATUS g) fPG_STATUS_LEVEL = (if (s.pgen g).ever then fget v fPG_CFG_SAFE else 0) ∧
      onlyIn (mEvent ||| mStaged ||| mPg) [rPG_CFG g, rPG_STATUS g] [140 + g.val] s t) ∧
  (∀ (g : Fin 8) (v : Word) (s : State), s.ready = true → s.pgMonitors g = false →
    completes (.pgTripClear g v) s fun t => t.flag (rPG_STATUS g) fPG_STATUS_TRIPPED = false ∧ t.flag (rPG_CFG g) fPG_CFG_SW_TRIP = false ∧
      onlyIn (mRegs ||| mStaged) [rPG_CFG g, rPG_STATUS g] [] s t) ∧
  (∀ (g : Fin 8) (v : Word) (s : State), s.ready = true → s.pgMonitors g = true → fget v fPG_STATUS_LATE = 0 →
    exec (.pgTripClear g v) s = .next (s.dropStaged .host (rPG_STATUS g))) ∧
  (∀ (g : Fin 8) (v : Word) (s : State), s.ready = true →
    completes (.pgSafeWrite g v) s fun t => t.fld (rPG_CFG g) fPG_CFG_SAFE = fget v fPG_CFG_SAFE ∧ t.pgMode g = s.pgMode g ∧
      onlyIn (mEvent ||| mStaged ||| mPg) [rPG_CFG g, rPG_STATUS g] [140 + g.val] s t) ∧
  (∀ (g : Fin 8) (v : Word) (s : State), s.ready = true →
    completes (.pgArm g v) s fun t => t.flag (rPG_CFG g) fPG_CFG_ARM = true ∧ t.pgMode g = s.pgMode g ∧
      onlyIn (mEvent ||| mStaged ||| mPg) [rPG_CFG g, rPG_STATUS g] [140 + g.val] s t) ∧
  (∀ (g : Fin 8) (s : State), s.glb ≠ 0 → s.held = false → s.flag (rPG_CFG g) fPG_CFG_ARM = true →
    completes (.pgScheduleCommit g) s fun t => t.flag (rPG_CFG g) fPG_CFG_ARM = false ∧ t.actv (rPG_CFG g) = s.rd (rPG_CFG g) ∧
      t.actv (rPG_TIMING g) = s.rd (rPG_TIMING g) ∧ t.actv (rPG_START g) = s.rd (rPG_START g) ∧
      t.flag (rPG_STATUS g) fPG_STATUS_RUNNING = decide (t.pgMode g = 2 ∨ t.pgMode g = 3) ∧ (t.pgen g).ever = true ∧
      onlyIn (mEvent ||| mAct ||| mTime ||| mPg) [rPG_CFG g, rPG_STATUS g] [148 + g.val] s t) ∧
  (∀ (g : Fin 8) (s : State), s.glb ≠ 0 → (s.held = true ∨ s.flag (rPG_CFG g) fPG_CFG_ARM = false) → exec (.pgScheduleCommit g) s = .next s) ∧
  (∀ (g : Fin 8) (s : State), s.glb ≠ 0 → s.held = false → s.flag (rPG_STATUS g) fPG_STATUS_RUNNING = true → (s.pgen g).hi = true →
    completes (.pgEdge g) s fun t => (t.pgen g).hi = false ∧ (t.pgen g).k = (s.pgen g).k + 1 ∧
      t.time = max s.time (s.pgStart g + (s.pgen g).k * s.pgPeriod g + s.pgWidth g) ∧
      t.flag (rPG_STATUS g) fPG_STATUS_RUNNING = decide (s.pgMode g ≠ 3) ∧ onlyIn (mRegs ||| mTime ||| mPg) [rPG_STATUS g] [] s t) ∧
  (∀ (g : Fin 8) (s : State), s.glb ≠ 0 → s.held = false → s.flag (rPG_STATUS g) fPG_STATUS_RUNNING = true → (s.pgen g).hi = false →
    s.flag (rPG_STATUS g) fPG_STATUS_TRIPPED = false →
    completes (.pgEdge g) s fun t => (t.pgen g).hi = true ∧ (t.pgen g).mute = false ∧
      t.time = max s.time (s.pgStart g + (s.pgen g).k * s.pgPeriod g) ∧
      t.fld (rPG_STATUS g) fPG_STATUS_PULSES = (s.fld (rPG_STATUS g) fPG_STATUS_PULSES + 1) % 2 ^ fPG_STATUS_PULSES.w ∧
      Touches (mRegs ||| mTime ||| mPg ||| mTq) s t)

/-- In READY, while software steers and SOURCE is not HOST: ADJ takes a value within 200 ppm and keeps its own on any other; a write of SLEW
with KEEP 0 starts a new correction, and one with KEEP 1 changes RATE_MAX only. While the Stoker steers both are discarded. A write of STEP
with the dividers running moves device time, and with it the marks that spans of time are counted from, by DELTA/512 tick and raises 44, or, while a plan is active or the result would be negative,
changes no time, sets STEP_REFUSED and raises 45; with the dividers held it waits. Nothing else changes. One DCLK, unless the dividers are held or
the device is in reset, advances device time by 1 tick, ADJ and the slew term of R115, which the correction loses.
Where the spec leaves a point open this states the choice of the model, logged as assumptions 11, 12. -/
def Obligations.TimeIsSteered : Prop :=
  (∀ (v : Word) (s : State), s.ready = true → s.stokerSteers = false → s.servoSrc ≠ 4 → (fgetS v fTBS_ADJ_ADJ).natAbs ≤ 219902325 →
    exec (.tbsAdjWrite v) s = .next ((s.dropStaged .host rTBS_ADJ).setFld rTBS_ADJ fTBS_ADJ_ADJ (fget v fTBS_ADJ_ADJ))) ∧
  (∀ (v : Word) (s : State), s.ready = true → (s.stokerSteers = true ∨ 219902325 < (fgetS v fTBS_ADJ_ADJ).natAbs) →
    exec (.tbsAdjWrite v) s = .next (s.dropStaged .host rTBS_ADJ)) ∧
  (∀ (v : Word) (s : State), s.ready = true → s.stokerSteers = false → s.servoSrc ≠ 4 → fget v fTBS_SLEW_KEEP = 1 →
    exec (.tbsSlewWrite v) s =
      .next ((s.dropStaged .host rTBS_SLEW).setFld rTBS_SLEW fTBS_SLEW_RATE_MAX (fget v fTBS_SLEW_RATE_MAX))) ∧
  (∀ (v : Word) (s : State), s.ready = true → s.stokerSteers = false → s.servoSrc ≠ 4 → fget v fTBS_SLEW_KEEP = 0 →
    completes (.tbsSlewWrite v) s fun t => t.tbs = { s.tbs with slew := fgetS v fTBS_SLEW_OFFSET * 2 ^ 31 } ∧
      t.fldS rTBS_SLEW fTBS_SLEW_OFFSET = fgetS v fTBS_SLEW_OFFSET ∧
      t.fld rTBS_SLEW fTBS_SLEW_RATE_MAX = fget v fTBS_SLEW_RATE_MAX ∧ onlyIn (mRegs ||| mStaged ||| mTbs) [rTBS_SLEW] [] s t) ∧
  (∀ (v : Word) (s : State), s.ready = true → s.stokerSteers = true → exec (.tbsSlewWrite v) s = .next (s.dropStaged .host rTBS_SLEW)) ∧
  (∀ (v : Word) (s : State), s.ready = true → s.held = true →
    exec (.tbsStepWrite v) s = .next { s.dropStaged .host rTBS_STEP with tbs := { s.tbs with steps := s.tbs.steps ++ [v.toInt] } }) ∧
  (∀ (v : Word) (s : State), s.ready = true → s.held = false → s.planActive = false → 0 ≤ (s.time40 : Int) + v.toInt * 2 ^ 31 →
    exec (.tbsStepWrite v) s = .next (({ s.dropStaged .host rTBS_STEP with
      time := ((s.time40 : Int) + v.toInt * 2 ^ 31).toNat / 2 ^ 40,
      frac := ((s.time40 : Int) + v.toInt * 2 ^ 31).toNat % 2 ^ 40 }.stepMarks v.toInt).raise 44)) ∧
  (∀ (v : Word) (s : State), s.ready = true → s.held = false →
    (s.planActive = true ∨ (s.time40 : Int) + v.toInt * 2 ^ 31 < 0) →
    exec (.tbsStepWrite v) s = .next (((s.dropStaged .host rTBS_STEP).setFld rTBS_STATUS fTBS_STATUS_STEP_REFUSED 1).raise 45)) ∧
  (∀ (c0 c1 c2 c3 : List (BitVec 12)) (s : State),
    (s.held = true ∨ s.glb = 0 → exec (.streetBeat c0 c1 c2 c3) s = .next s) ∧
    (s.held = false → s.glb ≠ 0 → (s.cnvRuns = false ∨ ∀ n < 4, s.routesFrom n = []) → (∀ c < 12, (s.tdcCh c).queue = []) →
      completes (.streetBeat c0 c1 c2 c3) s fun t =>
        (t.time40 : Int) = s.time40 + 2 ^ 40 + s.fldS rTBS_ADJ fTBS_ADJ_ADJ + s.slewTerm ∧ t.tbs.slew = s.tbs.slew - s.slewTerm ∧
        (s.cnvRuns = false → onlyIn (mRegs ||| mTime ||| mFrac ||| mClk ||| mTbs) [rTBS_SLEW] [] s t)))

/-- A write of SOURCE 0 ends the servo in OFF; one of a source from OFF begins ACQUIRE; HOST_LOCK 1 in ACQUIRE under HOST locks and raises
42, and 0 in LOCKED falls back to HOLDOVER, counts LOL_COUNT and raises 43. MISS seconds without an update end LOCKED of a servo the Stoker
steers, HOST_TIMEOUT seconds without a write that of HOST, which also raises 46; neither while the dividers are held. A PTP estimate under PTP with no step taken records its
phase error and is the last update; under any source but PTP and PTP_PPS it does nothing.
Where the spec leaves a point open this states the choice of the model, logged as assumptions 11, 12, 26. -/
def Obligations.ServoStates : Prop :=
  (∀ (v : Word) (s : State), s.ready = true → fget v fTBS_SERVO_SOURCE = 0 →
    completes (.servoSourceWrite v) s fun t => t.servoSrc = 0 ∧ t.servo = 0 ∧
      onlyIn (mRegs ||| mStaged ||| mTdc ||| mAu) [rTBS_SERVO, rTBS_STATUS] [] s t) ∧
  (∀ (v : Word) (s : State), s.ready = true → s.servo = 0 → 1 ≤ fget v fTBS_SERVO_SOURCE → fget v fTBS_SERVO_SOURCE ≤ 4 →
    completes (.servoSourceWrite v) s fun t => t.servoSrc = fget v fTBS_SERVO_SOURCE ∧ t.servo = 1 ∧ t.tbs.run = 0 ∧
      onlyIn (mRegs ||| mStaged ||| mTbs) [rTBS_SERVO, rTBS_STATUS] [] s t) ∧
  (∀ (v : Word) (s : State), s.ready = true → s.servo = 1 → fget v fTBS_SERVO_SOURCE = 4 → fget v fTBS_SERVO_HOST_LOCK = 1 →
    completes (.hostLockWrite v) s fun t => t.servo = 2 ∧ t.tbs.lockAt = s.time ∧
      onlyIn (mEvent ||| mStaged ||| mTbs ||| mTdc ||| mAu) [rTBS_SERVO, rTBS_STATUS] [42] s t) ∧
  (∀ (v : Word) (s : State), s.ready = true → s.servo = 2 → fget v fTBS_SERVO_SOURCE = 4 → fget v fTBS_SERVO_HOST_LOCK = 0 →
    completes (.hostLockWrite v) s fun t => t.servo = 3 ∧
      t.fld rTBS_STATUS fTBS_STATUS_LOL_COUNT = satN 16 (s.fld rTBS_STATUS fTBS_STATUS_LOL_COUNT + 1) ∧
      onlyIn (mEvent ||| mStaged ||| mTbs) [rTBS_SERVO, rTBS_STATUS] [43] s t) ∧
  (∀ s : State, s.glb ≠ 0 → s.held = false → s.servo = 2 → s.stokerSteers = true →
    completes .servoMissTimeout s fun t => t.servo = 3 ∧
      t.time = max s.time (s.tbs.lastUpd + s.secTicks (s.fld rTBS_SERVO fTBS_SERVO_MISS)) ∧
      onlyIn (mEvent ||| mTime ||| mTbs) [rTBS_STATUS] [43] s t) ∧
  (∀ s : State, s.glb ≠ 0 → (s.held = true ∨ s.servo ≠ 2 ∨ s.stokerSteers = false) → exec .servoMissTimeout s = .next s) ∧
  (∀ s : State, s.glb ≠ 0 → (s.held = true ∨ s.servo ≠ 2 ∨ s.servoSrc ≠ 4) → exec .hostTimeout s = .next s) ∧
  (∀ s : State, s.glb ≠ 0 → s.held = false → s.servo = 2 → s.servoSrc = 4 →
    completes .hostTimeout s fun t => t.servo = 3 ∧
      t.time = max s.time (max s.tbs.lastUpd s.tbs.lockAt + s.secTicks (s.fld rTBS_SERVO fTBS_SERVO_HOST_TIMEOUT)) ∧
      onlyIn (mEvent ||| mTime ||| mTbs) [rTBS_STATUS] [43, 46] s t) ∧
  (∀ (off : Int) (s : State), s.glb ≠ 0 → s.servoSrc = 2 →
    completes (.ptpUpdate off false) s fun t => t.fldS rTBS_STATUS fTBS_STATUS_PHASE_ERR = satS 32 off ∧ t.tbs.lastUpd = s.time ∧
      (fgetS (t.rd rTBS_ADJ) fTBS_ADJ_ADJ).natAbs ≤ 219902325 ∧
      onlyIn (mEvent ||| mFreeCtr ||| mTbs ||| mTdc ||| mAu) [rTBS_STATUS, rTBS_ADJ] [42, 43] s t) ∧
  (∀ (off : Int) (step : Bool) (s : State), s.glb ≠ 0 → s.servoSrc ≠ 2 → s.servoSrc ≠ 3 → exec (.ptpUpdate off step) s = .next s)

/-- Outside reset and a thermal stop, an edge that a channel does not select, or of a channel that does not stamp, only lets time reach it;
one within 2 ns of the last stamp, or while the dividers are held, counts in LOST and makes the next stamp carry LOSS; any other counts in
STAMPS, and the channel remembers its time, unless it is the servo's 1PPS, on which the Stoker may step device time. The flush of a channel with nothing to flush does nothing; one that has at most the stamps a
record holds leaves it empty. The ring periods are what was measured last.
Where the spec leaves a point open this states the choice of the model, logged as assumptions 11, 40. -/
def Obligations.EdgesAreStamped : Prop :=
  (∀ (c : Fin 12) (t : Nat) (r : Bool) (s : State), s.glb ≠ 0 → s.flag rTHM_STATUS fTHM_STATUS_STOPPED = false →
    ((s.fld (rTDC_CH c) fTDC_CH_SLOPE = 0 ∧ r = false) ∨ (s.fld (rTDC_CH c) fTDC_CH_SLOPE = 1 ∧ r = true) ∨ s.tdcStamps c = false) →
    exec (.tdcEdge c t r) s = .next (s.reach (t / 512))) ∧
  (∀ (c : Fin 12) (t : Nat) (r : Bool) (s : State), s.glb ≠ 0 → s.flag rTHM_STATUS fTHM_STATUS_STOPPED = false → s.tdcStamps c = true →
    ¬ (s.fld (rTDC_CH c) fTDC_CH_SLOPE = 0 ∧ r = false) → ¬ (s.fld (rTDC_CH c) fTDC_CH_SLOPE = 1 ∧ r = true) →
    (s.held = true ∨ ∃ l, (s.tdcCh c).last = some l ∧ ((t : Int) - l) * s.tickFs < 2000000 * 512) →
    completes (.tdcEdge c t r) s fun u => u.fld (rTDC_CH_STAT c) fTDC_CH_STAT_LOST =
        satN fTDC_CH_STAT_LOST.w (s.fld (rTDC_CH_STAT c) fTDC_CH_STAT_LOST + 1) ∧
      u.tdcCh c = { s.tdcCh c with loss := true } ∧ u.time = (s.reach (t / 512)).time ∧
      onlyIn (mEvent ||| mTime ||| mTdc) [rTDC_CH_STAT c] [160 + c.val] s u) ∧
  (∀ (c : Fin 12) (t : Nat) (r : Bool) (s : State), s.glb ≠ 0 → s.flag rTHM_STATUS fTHM_STATUS_STOPPED = false → s.tdcStamps c = true →
    ¬ (s.fld (rTDC_CH c) fTDC_CH_SLOPE = 0 ∧ r = false) → ¬ (s.fld (rTDC_CH c) fTDC_CH_SLOPE = 1 ∧ r = true) →
    s.held = false → (∀ l, (s.tdcCh c).last = some l → 2000000 * 512 ≤ ((t : Int) - l) * s.tickFs) →
    completes (.tdcEdge c t r) s fun u => u.fld (rTDC_CH_COUNT c) fTDC_CH_COUNT_STAMPS =
        (s.fld (rTDC_CH_COUNT c) fTDC_CH_COUNT_STAMPS + 1) % 2 ^ fTDC_CH_COUNT_STAMPS.w ∧
      ((s.servoSrc = 1 ∨ s.servoSrc = 3 → s.fld rTBS_SERVO fTBS_SERVO_PPS_CH ≠ c) → (u.tdcCh c).last = some (t : Int) ∧
        u.time = max s.time (t / 512)) ∧
      Touches (mEvent ||| mTime ||| mFrac ||| mFreeCtr ||| mCtxs ||| mTbs ||| mTdc ||| mCnv ||| mPg ||| mTq ||| mAu) s u) ∧
  (∀ (c : Fin 12) (s : State), s.glb ≠ 0 → (s.held = true ∨ ((s.tdcCh c).queue = [] ∧ (s.tdcCh c).open_ = [])) →
    exec (.stampsFlush c) s = .next s) ∧
  (∀ (c : Fin 12) (s : State), s.glb ≠ 0 → s.held = false → (s.tdcCh c).queue = [] → (s.tdcCh c).open_ ≠ [] →
    completes (.stampsFlush c) s fun u => (u.tdcCh c).open_ = [] ∧ (u.tdcCh c).queue = [] ∧
      u.time = max s.time ((s.tdcCh c).openAt + s.usTicks (s.fld rTDC_CTRL fTDC_CTRL_FLUSH_US)) ∧ 
      onlyIn (mEvent ||| mTime ||| mCtxs ||| mPorts ||| mTdc) dropRegs [13] s u) ∧
  (∀ (a b : Nat) (s : State), s.glb ≠ 0 → exec (.vernierRemeasure a b) s = .next { s with tdc := { s.tdc with rings := (a, b) } })

/-- A write with EN 1 while the regression is off opens its first gate at START, or at the next tick when START has passed; while it runs
the gate under way stays. The opening of a gate lets time reach it. Its end captures N, VALID, LOSS and FEW of the stamps it took, counts
SEQ and raises 184 or 185, and the next gate begins with the stamps that SKEW moved into it, or EN clears without REPEAT. SNAP 1 counts SEQ and captures nothing new.
Where the spec leaves a point open this states the choice of the model, logged as assumptions 4, 13. -/
def Obligations.FrequencyGates : Prop :=
  (∀ (v : Word) (s : State), s.ready = true → s.flag rTDC_FREQ_CFG fTDC_FREQ_CFG_EN = false →
    completes (.freqEnWrite v) s fun t => t.flag rTDC_FREQ_CFG fTDC_FREQ_CFG_EN = true ∧
      t.tdc = { s.tdc with base := if (s.rd rTDC_FREQ_START).toNat < s.time then s.time + 1 else (s.rd rTDC_FREQ_START).toNat,
                           idx := 0, stamps := [], loss := false, ahead := [], fl := 0 } ∧
      onlyIn (mRegs ||| mStaged ||| mTdc) [rTDC_FREQ_CFG] [] s t) ∧
  (∀ (v : Word) (s : State), s.ready = true → s.flag rTDC_FREQ_CFG fTDC_FREQ_CFG_EN = true →
    completes (.freqEnWrite v) s fun t => t.flag rTDC_FREQ_CFG fTDC_FREQ_CFG_EN = true ∧
      onlyIn (mRegs ||| mStaged) [rTDC_FREQ_CFG] [] s t) ∧
  (∀ s : State, s.glb ≠ 0 → s.flag rTDC_FREQ_CFG fTDC_FREQ_CFG_EN = true →
    exec .freqGateOpen s = .next (s.reach s.gateSpan.1)) ∧
  (∀ s : State, s.glb ≠ 0 → s.held = false → s.flag rTDC_FREQ_CFG fTDC_FREQ_CFG_EN = true →
    completes .freqGateEnd s fun t => t.fld rTDC_FREQ_RES0 fTDC_FREQ_RES0_N = s.tdc.stamps.length % 2 ^ fTDC_FREQ_RES0_N.w ∧
      t.flag rTDC_FREQ_RES0 fTDC_FREQ_RES0_VALID = decide (3 ≤ s.tdc.stamps.length ∧ s.tdc.loss = false) ∧
      t.flag rTDC_FREQ_RES0 fTDC_FREQ_RES0_LOSS = s.tdc.loss ∧
      t.flag rTDC_FREQ_RES0 fTDC_FREQ_RES0_FEW = decide (s.tdc.stamps.length < 3) ∧
      t.tdc = { s.tdc with
        stamps := (s.tdc.ahead.filter fun x => x.1 < (s.gateSpan.2 + s.fld rTDC_FREQ_CFG fTDC_FREQ_CFG_GATE) * 512).map (·.1),
        loss := (s.tdc.ahead.filter fun x => x.1 < (s.gateSpan.2 + s.fld rTDC_FREQ_CFG fTDC_FREQ_CFG_GATE) * 512).any (·.2),
        ahead := s.tdc.ahead.filter fun x => (s.gateSpan.2 + s.fld rTDC_FREQ_CFG fTDC_FREQ_CFG_GATE) * 512 ≤ x.1,
        fl := 0, idx := s.tdc.idx + 1 } ∧
      t.flag rTDC_FREQ_CFG fTDC_FREQ_CFG_EN = s.flag rTDC_FREQ_CFG fTDC_FREQ_CFG_REPEAT ∧ t.time = max s.time s.gateSpan.2 ∧
      onlyIn (mEvent ||| mTime ||| mFreeCtr ||| mCtxs ||| mPorts ||| mTdc)
        ([rTDC_FREQ_CFG, rTDC_FREQ_RES0, rTDC_FREQ_RES1, rTDC_FREQ_RES2, rTDC_FREQ_RES3, rTDC_FREQ_SNAP] ++ dropRegs) [184, 185, 13] s t) ∧
  (∀ s : State, s.glb ≠ 0 → s.held = true ∨ s.flag rTDC_FREQ_CFG fTDC_FREQ_CFG_EN = false → exec .freqGateEnd s = .next s) ∧
  (∀ (v : Word) (s : State), s.ready = true →
    exec (.tdcFreqSnap v) s = .next ((s.dropStaged .host rTDC_FREQ_SNAP).addMod rTDC_FREQ_SNAP fTDC_FREQ_SNAP_SEQ 1))

/-- In READY, GO with nothing that bars the run takes input and type from the write, keeps the step, forces every ATTCAL of the input to 0x8000
and EN of its cores to 0, and begins in WAIT_STEP; a run that is barred is refused with its reason and raises 98. ABORT ends a run with RESULT
2, REASON 1, ATTCAL as it was before GO, and 97; with no run it only writes the fields. Phases without a measurement pass to the next; a
CALIN that fails CHECK ends the run with its reason; STEPS gathers 31 amplitudes, at each step of the attenuator; a write of EN during
the run leaves it at 0; COMMIT without PERSIST ends it with RESULT 1, one more run in COUNT, the time and 96.
Where the spec leaves a point open this states the choice of the model, logged as assumptions 11, 28, 37. -/
def Obligations.CalibrationRuns : Prop :=
  (∀ (v : Word) (n : Fin 4) (s : State), s.ready = true → fget v fCAL_RUN_ABORT = 0 → fget v fCAL_RUN_STORE = 0 → fget v fCAL_RUN_INPUT = n →
    s.calBar n (fget v fCAL_RUN_TYPE) (s.fld rCAL_REF fCAL_REF_POINT) = 0 →
    completes (.calGo v) s fun t => t.calState = 1 ∧ t.fld rCAL_STATUS fCAL_STATUS_PHASE = 0 ∧ t.cal.input = n ∧
      t.cal.typ = fget v fCAL_RUN_TYPE ∧ t.cal.step = s.attStep n ∧ t.cal.auto = false ∧
      t.cal.attcal = (upTo 32).map (fun k => s.rd (rCNV_ATTCAL n k)) ∧
      (∀ k < 32, t.fld (rCNV_ATTCAL n k) fCNV_ATTCAL_GAIN = 0x8000) ∧ (∀ c ∈ s.inputCores n, t.flag (rCNV_BG c) fCNV_BG_EN = false) ∧
      onlyIn (mRegs ||| mStaged ||| mCal)
        ([rCAL_RUN, rCAL_STATUS] ++ (s.inputCores n).map rCNV_BG ++ (upTo 32).map (rCNV_ATTCAL n)) [] s t) ∧
  (∀ (v : Word) (s : State), s.ready = true → fget v fCAL_RUN_ABORT = 0 → fget v fCAL_RUN_STORE = 0 →
    s.calBar (fget v fCAL_RUN_INPUT) (fget v fCAL_RUN_TYPE) (s.fld rCAL_REF fCAL_REF_POINT) ≠ 0 →
    exec (.calGo v) s = .next
      ((((s.dropStaged .host rCAL_RUN).setFlds rCAL_RUN [(fCAL_RUN_PERSIST, fget v fCAL_RUN_PERSIST), (fCAL_RUN_TYPE, fget v fCAL_RUN_TYPE),
        (fCAL_RUN_INPUT, fget v fCAL_RUN_INPUT)]).setFlds rCAL_STATUS [(fCAL_STATUS_RESULT, 3),
        (fCAL_STATUS_REASON, s.calBar (fget v fCAL_RUN_INPUT) (fget v fCAL_RUN_TYPE) (s.fld rCAL_REF fCAL_REF_POINT))]).raise 98)) ∧
  (∀ (v : Word) (n : Fin 4) (s : State), s.ready = true → fget v fCAL_RUN_GO = 0 → fget v fCAL_RUN_STORE = 0 → s.calState = 1 →
    s.cal.input = n → s.cal.attcal.length = 32 →
    completes (.calAbort v) s fun t => t.calState = 0 ∧ t.fld rCAL_STATUS fCAL_STATUS_RESULT = 2 ∧
      t.fld rCAL_STATUS fCAL_STATUS_REASON = 1 ∧ t.flag rCAL_RUN fCAL_RUN_GO = false ∧
      (∀ k < 32, t.rd (rCNV_ATTCAL n k) = s.cal.attcal.getD k 0) ∧ t.attStep n = s.cal.step % 32 ∧
      regsKept ([rCAL_RUN, rCAL_STATUS] ++ (s.inputCores n).map rCNV_BG ++ (upTo 32).map (rCNV_ATTCAL n)) [97] s t) ∧
  (∀ (v : Word) (s : State), s.ready = true → fget v fCAL_RUN_GO = 0 → fget v fCAL_RUN_STORE = 0 → s.calState ≠ 1 →
    exec (.calAbort v) s = .next ((s.dropStaged .host rCAL_RUN).setFlds rCAL_RUN [(fCAL_RUN_PERSIST, fget v fCAL_RUN_PERSIST),
      (fCAL_RUN_TYPE, fget v fCAL_RUN_TYPE), (fCAL_RUN_INPUT, fget v fCAL_RUN_INPUT)])) ∧
  (∀ (m : CalMeas) (s : State), s.glb ≠ 0 → s.calState = 1 → s.fld rCAL_STATUS fCAL_STATUS_PHASE = 1 →
    exec (.calPhaseEnd m) s = .next (s.setFld rCAL_STATUS fCAL_STATUS_PHASE 2)) ∧
  (∀ (m : CalMeas) (s : State), s.glb ≠ 0 → s.calState = 1 → s.fld rCAL_STATUS fCAL_STATUS_PHASE = 0 →
    (∀ c ∈ s.inputCores s.cal.input, (s.core c).phase = .off) →
    exec (.calPhaseEnd m) s = .next ({ s with cal := { s.cal with badTo := SMap.set 0 s.cal.badTo s.cal.input 1 } }.setFld
      rCAL_STATUS fCAL_STATUS_PHASE 1)) ∧
  (∀ (m : CalMeas) (n : Fin 4) (s : State), s.glb ≠ 0 → s.calState = 1 → s.fld rCAL_STATUS fCAL_STATUS_PHASE = 2 → s.cal.input = n →
    s.calCheck m ≠ 0 →
    completes (.calPhaseEnd m) s fun t => t.calState = 0 ∧ t.fld rCAL_STATUS fCAL_STATUS_RESULT = 2 ∧
      t.fld rCAL_STATUS fCAL_STATUS_REASON = s.calCheck m ∧
      regsKept ([rCAL_RUN, rCAL_STATUS, rCAL_MEAS] ++ (s.inputCores n).map rCNV_BG ++ (upTo 32).map (rCNV_ATTCAL n)) [97] s t) ∧
  (∀ (m : CalMeas) (n : Fin 4) (s : State), s.glb ≠ 0 → s.calState = 1 → s.fld rCAL_STATUS fCAL_STATUS_PHASE = 8 → s.cal.input = n →
    s.cal.persist = false →
    completes (.calPhaseEnd m) s fun t => t.calState = 0 ∧ t.fld rCAL_STATUS fCAL_STATUS_RESULT = 1 ∧
      t.fld (rCAL_HIST0 n) fCAL_HIST0_COUNT = (s.fld (rCAL_HIST0 n) fCAL_HIST0_COUNT + 1) % 2 ^ 32 ∧
      t.rd (rCAL_HIST1 n) = BitVec.ofNat 64 s.time ∧ t.fld rCAL_STATUS fCAL_STATUS_DUE / 2 ^ n.val % 2 = 0 ∧
      Touches (mEvent ||| mAct ||| mCtxs ||| mBillets ||| mCnv ||| mCal) s t) ∧
  (∀ (m : CalMeas) (s : State), s.glb ≠ 0 → s.calState = 1 → s.fld rCAL_STATUS fCAL_STATUS_PHASE = 5 → s.calClipped = false →
    (s.cal.as_ ++ m.amps).length < 31 →
    exec (.calPhaseEnd m) s = .next ((s.onCal fun z => { z with as_ := s.cal.as_ ++ m.amps }).calDrive s.cal.input
      ((s.cal.as_ ++ m.amps).length + 1))) ∧
  (∀ (m : CalMeas) (s : State), s.glb ≠ 0 → s.calState ≠ 1 → exec (.calPhaseEnd m) s = .next s) ∧
  (∀ (n : Fin 4) (v : Word) (s : State), s.ready = true → s.calRunOn n = true →
    completes (.bgEnWrite n v) s fun t => t.flag (rCNV_BG n) fCNV_BG_EN = false ∧ t.core n = s.core n ∧
      onlyIn (mRegs ||| mStaged ||| mCal) [rCNV_BG n] [] s t)

/-- MAX_AGE hours since LAST_TIME raise DUE of an input that is not due, once. With AUTO the device starts a run on the first input that is due
and eligible; the retry time, counted from the abort, ends the wait of an input. In READY, STORE with nothing under way captures the image, erases the target, which
reads as erased and is not valid, and STATE is STORING; with something under way, or worn out, it is refused. At its end the target holds
the image and is valid, with its SEQ, RESULT 1 and 104; a failed one leaves the target invalid, with RESULT 2 and 105. The write does not end
before the slices of every core that was within a background step are in the image, which they enter as that step ends.
Where the spec leaves a point open this states the choice of the model, logged as assumptions 22, 25. -/
def Obligations.CalibrationStore : Prop :=
  (∀ (n : Fin 4) (s : State), s.glb ≠ 0 → s.fld rCAL_POLICY fCAL_POLICY_MAX_AGE ≠ 0 →
    s.fld rCAL_STATUS fCAL_STATUS_DUE / 2 ^ n.val % 2 = 0 →
    exec (.calAgeDue n) s = .next (((s.reach
      ((s.rd (rCAL_HIST1 n)).toNat + s.secTicks (s.fld rCAL_POLICY fCAL_POLICY_MAX_AGE * 3600) + 1)).setFld rCAL_STATUS fCAL_STATUS_DUE
        (s.fld rCAL_STATUS fCAL_STATUS_DUE + 2 ^ n.val)).raise (100 + n))) ∧
  (∀ (n : Fin 4) (s : State), s.glb ≠ 0 → s.fld rCAL_POLICY fCAL_POLICY_MAX_AGE = 0 → exec (.calAgeDue n) s = .next s) ∧
  (∀ (n : Fin 4) (s : State), s.glb ≠ 0 → s.flag rCAL_POLICY fCAL_POLICY_AUTO = true → s.calState = 0 →
    (upTo 4).find? (fun m => s.fld rCAL_STATUS fCAL_STATUS_DUE / 2 ^ m % 2 == 1 && s.calEligible m) = some n.val →
    s.calBar n 0 4 = 0 →
    completes .calAutoStart s fun t => t.calState = 1 ∧ t.cal.input = n ∧ t.cal.typ = 0 ∧ t.cal.auto = true ∧
      onlyIn (mRegs ||| mCal)
        ([rCAL_RUN, rCAL_STATUS] ++ (s.inputCores n).map rCNV_BG ++ (upTo 32).map (rCNV_ATTCAL n)) [] s t) ∧
  (∀ s : State, s.glb ≠ 0 → (s.flag rCAL_POLICY fCAL_POLICY_AUTO = false ∨ s.calState ≠ 0) → exec .calAutoStart s = .next s) ∧
  (∀ (n : Fin 4) (s : State), s.glb ≠ 0 →
    (SMap.get none s.cal.retry n = none → exec (.calRetryExpiry n) s = .next s) ∧
    (∀ t, SMap.get none s.cal.retry n = some t →
      exec (.calRetryExpiry n) s = .next ((s.reach (t + s.secTicks (60 * s.fld rCAL_POLICY fCAL_POLICY_RETRY_MIN))).onCal fun z =>
        { z with retry := SMap.set none z.retry n none }))) ∧
  (∀ (v : Word) (s : State), s.ready = true → fget v fCAL_RUN_GO = 0 → fget v fCAL_RUN_ABORT = 0 → s.calState = 0 →
    s.fld rCAL_STORE fCAL_STORE_SEQ < 200000 → s.flashBusy = false →
    completes (.calStoreStart v) s fun t => t.calState = 2 ∧ t.cal.target = s.calTarget ∧
      (∀ n, n ∈ t.cal.await ↔ n < 4 ∧ (s.core n).phase ≠ .off) ∧
      t.flag rCAL_STORE (if s.calTarget = 0 then fCAL_STORE_A_VALID else fCAL_STORE_B_VALID) = false ∧
      (∀ a, Memory.byte 0xFF t.flash a = if calCopyAt s.calTarget ≤ a ∧ a < calCopyAt s.calTarget + 4096 then 0xFF else Memory.byte 0xFF s.flash a) ∧
      onlyIn (mRegs ||| mStaged ||| mFlash ||| mCal) [rCAL_RUN, rCAL_STORE, rCAL_STATUS] [] s t) ∧
  (∀ (v : Word) (s : State), s.ready = true → fget v fCAL_RUN_GO = 0 → fget v fCAL_RUN_ABORT = 0 →
    (s.calState ≠ 0 ∨ 200000 ≤ s.fld rCAL_STORE fCAL_STORE_SEQ) →
    completes (.calStoreStart v) s fun t => t.fld rCAL_STORE fCAL_STORE_RESULT = 3 ∧ t.fld rCAL_STATUS fCAL_STATUS_RESULT = 3 ∧
      t.fld rCAL_STATUS fCAL_STATUS_REASON = (if s.calState ≠ 0 then 16 else 20) ∧
      onlyIn (mEvent ||| mStaged) [rCAL_RUN, rCAL_STORE, rCAL_STATUS] [98] s t) ∧
  (∀ s : State, s.glb ≠ 0 → s.calState = 2 → s.cal.image ≠ [] → s.cal.await = [] → s.stk.queue = [] →
    completes (.storeWriteEnd true) s fun t => t.calState = 0 ∧ t.fld rCAL_STORE fCAL_STORE_RESULT = 1 ∧
      t.flag rCAL_STORE (if s.cal.target = 0 then fCAL_STORE_A_VALID else fCAL_STORE_B_VALID) = true ∧
      t.flash = Memory.write 0xFF s.flash (calCopyAt s.cal.target) s.cal.image ∧
      onlyIn (mEvent ||| mFlash ||| mStk) [rCAL_STORE, rCAL_STATUS, rSEC_MEAS] [104, 984] s t) ∧
  (∀ s : State, s.glb ≠ 0 → s.calState = 2 → s.cal.image ≠ [] → s.cal.await = [] → s.stk.queue = [] →
    exec (.storeWriteEnd false) s =
      .next (((s.setFld rCAL_STATUS fCAL_STATUS_STATE 0).setFld rCAL_STORE fCAL_STORE_RESULT 2).raise 105)) ∧
  (∀ (ok : Bool) (s : State), s.glb ≠ 0 → ((s.calState ≠ 2 ∧ s.cal.await = []) ∨
    (s.cal.await ≠ [] ∧ ∀ n ∈ s.cal.await, (s.core n).phase ≠ .off)) → exec (.storeWriteEnd ok) s = .next s) ∧
  (∀ (n : Fin 4) (s : State), s.glb ≠ 0 → s.clk.stage = .idle → (s.core n).phase = .interval → (s.core n).frozen = false →
    s.flag rPWR_CTRL fPWR_CTRL_CNV_STBY = false → n.val ∈ s.cal.await →
    completes (.bgIntervalEnd n) s fun t => t.cal.await = s.cal.await.filter (· != n.val) ∧
      (∀ b, b = s.cal.image.take (72 + 384 * n) ++ s.calSlices n ++ (s.cal.image.take 4092).drop (216 + 384 * n) →
        t.cal.image = b ++ leBytes 4 (crc32c b)) ∧
      onlyIn (mRegs ||| mCnv ||| mCal) [rCNV_BG_STATUS n] [] s t)

/-- In READY with no map being cleared. With nothing under way LOAD empties the slot that is not active and STATE is LOADING; ACTIVATE of a
staged plan whose frequency, time and admission fit takes the time, leaves converter standby, and STATE is ACTIVATING; STOP of an active plan
likewise, and STATE is STOPPING; with a command under way these are refused with BUSY and event 9. DISCARD empties a staged slot, and is refused
so while an activation is pending. ABORT ends
an activation or a STOP that is pending with RESULT 4, REASON 48 and event 11, and does nothing else otherwise. While a map is being cleared
every command is refused with BUSY.
Where the spec leaves a point open this states the choice of the model, logged as assumptions 27, 28, 37. -/
def Obligations.PlanCommands : Prop :=
  (∀ (v : Word) (s : State), s.ready = true → s.flag rMEM_MAP fMEM_MAP_MAP_BUSY = false → s.planState = 0 →
    exec (.planLoad v) s =
      .next (((s.dropStaged .host rPLAN_CMD).setSlot s.idleSlot 1 none).setFld rPLAN_STATUS fPLAN_STATUS_STATE 1)) ∧
  (∀ (v : Word) (p : PlanImg) (w : Nat) (s : State), s.ready = true → s.flag rMEM_MAP fMEM_MAP_MAP_BUSY = false → s.planState = 0 →
    s.selfRefresh = false → s.stagedPlan = some p → s.frootOff p.froot = false → s.planWhen = some w → s.planTest p = none →
    completes (.planActivate v) s fun t => t.planState = 2 ∧ t.fld rPLAN_STATUS fPLAN_STATUS_RESULT = 0 ∧
      t.rd rPLAN_TIME = BitVec.ofNat 64 w ∧ t.flag rPWR_CTRL fPWR_CTRL_CNV_STBY = false ∧ t.plan = s.plan ∧
      onlyIn (mRegs ||| mStaged) [rPLAN_TIME, rPLAN_STATUS, rPWR_CTRL] [] s t) ∧
  (∀ (v : Word) (w : Nat) (s : State), s.ready = true → s.flag rMEM_MAP fMEM_MAP_MAP_BUSY = false → s.planState = 0 →
    s.activePlan ≠ none → s.planWhen = some w →
    exec (.planStop v) s = .next (((s.dropStaged .host rPLAN_CMD).wr rPLAN_TIME (BitVec.ofNat 64 w)).setFlds rPLAN_STATUS
      [(fPLAN_STATUS_STATE, 3), (fPLAN_STATUS_RESULT, 0), (fPLAN_STATUS_REASON, 0)])) ∧
  (∀ (v : Word) (s : State), s.ready = true → s.flag rMEM_MAP fMEM_MAP_MAP_BUSY = false → s.planState ≠ 2 → s.slotState s.idleSlot = 2 →
    exec (.planDiscard v) s = .next ((s.dropStaged .host rPLAN_CMD).setSlot s.idleSlot 0 none)) ∧
  (∀ (v : Word) (s : State), s.ready = true → s.flag rMEM_MAP fMEM_MAP_MAP_BUSY = false → s.planState ≠ 2 → s.slotState s.idleSlot ≠ 2 →
    exec (.planDiscard v) s = .next (s.dropStaged .host rPLAN_CMD)) ∧
  (∀ (v : Word) (s : State), s.ready = true → s.flag rMEM_MAP fMEM_MAP_MAP_BUSY = false →
    ∀ c, (s.planState ≠ 0 ∧ c = .planLoad v) ∨ (s.planState ≠ 0 ∧ c = .planStop v) ∨ (s.planState = 2 ∧ c = .planDiscard v) →
    exec c s = .next (((s.dropStaged .host rPLAN_CMD).setFlds rPLAN_STATUS
      [(fPLAN_STATUS_RESULT, 3), (fPLAN_STATUS_REASON, 17)]).raise 9 none 17)) ∧
  (∀ (v : Word) (s : State), s.ready = true → s.flag rMEM_MAP fMEM_MAP_MAP_BUSY = false → (s.planState = 2 ∨ s.planState = 3) →
    exec (.planAbort v) s = .next (((s.dropStaged .host rPLAN_CMD).setFlds rPLAN_STATUS
      [(fPLAN_STATUS_STATE, 0), (fPLAN_STATUS_RESULT, 4), (fPLAN_STATUS_REASON, 48)]).raise 11 none 48)) ∧
  (∀ (v : Word) (s : State), s.ready = true → s.flag rMEM_MAP fMEM_MAP_MAP_BUSY = false → s.planState < 2 →
    exec (.planAbort v) s = .next (s.dropStaged .host rPLAN_CMD)) ∧
  (∀ (v : Word) (s : State), s.ready = true → s.flag rMEM_MAP fMEM_MAP_MAP_BUSY = true →
    ∀ c ∈ [Instr.planLoad v, .planActivate v, .planAbort v, .planDiscard v, .planStop v],
    exec c s = .next (((s.dropStaged .host rPLAN_CMD).setFlds rPLAN_STATUS
      [(fPLAN_STATUS_RESULT, 3), (fPLAN_STATUS_REASON, 17)]).raise 9 none 17))

/-- A fetch that a bus that is not mastered, or a failed read inside the image, ends is REJECTED with REASON 1 and the offset, and its slot is
empty; an image that passes every check is staged, with RESULT 1 and event 8; outside LOADING a fetch does nothing. The commit of an
activation makes the staged plan (one without PARAMS) a plan of the slots, PLAN_ACTIVE and RESULT say so and time has reached PLAN_TIME;
that of a STOP clears PLAN_ACTIVE. GO asks for a parameter commit once, and a time that has passed sets LATE and raises 12; the commit
itself, at the time in force behind PLAN_PC_TIME, counts in COUNT and clears GO. No commit comes while the dividers are held.
Where the spec leaves a point open this states the choice of the model, logged as assumptions 22, 43, 44, 45. -/
def Obligations.PlanCommits : Prop :=
  (∀ (img : HostRead) (s : State), s.glb ≠ 0 → s.planState = 1 → s.busOk = false →
    exec (.planFetchDone img) s = .next ((((s.setSlot s.idleSlot 0 none).setFlds rPLAN_STATUS
      [(fPLAN_STATUS_STATE, 0), (fPLAN_STATUS_RESULT, 2), (fPLAN_STATUS_REASON, 1)]).setFld rPLAN_DETAIL fPLAN_DETAIL_DETAIL 0).raise 9 none 1 0)) ∧
  (∀ (img : HostRead) (o : Nat) (s : State), s.glb ≠ 0 → s.planState = 1 → s.busOk = true → img.fail = some (o, false) →
    o < s.fld rPLAN_LEN fPLAN_LEN_LEN →
    completes (.planFetchDone img) s fun t => t.planState = 0 ∧ t.fld rPLAN_STATUS fPLAN_STATUS_RESULT = 2 ∧
      t.fld rPLAN_STATUS fPLAN_STATUS_REASON = 1 ∧ Touches (mEvent ||| mPlan) s t) ∧
  (∀ (img : HostRead) (p : PlanImg) (s : State), s.glb ≠ 0 → s.planState = 1 → s.busOk = true → img.fail = none →
    img.bytes.length = s.fld rPLAN_LEN fPLAN_LEN_LEN → s.planHead img.bytes img.bytes.length = none → s.planBody img.bytes = .ok p →
    s.planTest p = none →
    exec (.planFetchDone img) s = .next ((((s.setSlot s.idleSlot 2 (some p)).setFlds rPLAN_STATUS
      [(fPLAN_STATUS_STATE, 0), (fPLAN_STATUS_RESULT, 1), (fPLAN_STATUS_REASON, 0)]).admStatus 1 0 63 0).raise 8 none 0 p.planId)) ∧
  (∀ (img : HostRead) (s : State), s.glb ≠ 0 → s.planState ≠ 1 → exec (.planFetchDone img) s = .next s) ∧
  (∀ (p : PlanImg) (s : State), s.glb ≠ 0 → s.held = false → s.planState = 2 → s.stagedPlan = some p → p.params = [] →
    completes .planCommit s fun t => t.planState = 0 ∧ t.fld rPLAN_STATUS fPLAN_STATUS_RESULT = 1 ∧
      (t.plan.slot0 = some p ∨ t.plan.slot1 = some p) ∧ t.planActive = true ∧ (s.rd rPLAN_TIME).toNat ≤ t.time) ∧
  (∀ s : State, s.glb ≠ 0 → s.held = true ∨ s.planState ≠ 2 → exec .planCommit s = .next s) ∧
  (∀ (p : PlanImg) (s : State), s.glb ≠ 0 → s.held = false → s.planState = 3 → s.activePlan = some p →
    completes .planStopCommit s fun t => t.planState = 0 ∧ t.fld rPLAN_STATUS fPLAN_STATUS_RESULT = 1 ∧
      (t.plan.slot0 = none ∨ t.plan.slot1 = none) ∧ t.planActive = false ∧ (s.rd rPLAN_TIME).toNat ≤ t.time) ∧
  (∀ s : State, s.glb ≠ 0 → s.held = true ∨ s.planState ≠ 3 → exec .planStopCommit s = .next s) ∧
  (∀ (v : Word) (s : State), s.ready = true → s.flag rPLAN_PCOMMIT fPLAN_PCOMMIT_GO = false →
    completes (.pcommitGo v) s fun t => t.flag rPLAN_PCOMMIT fPLAN_PCOMMIT_GO = true ∧
      ((s.rd rPLAN_PC_TIME).toNat ≠ 0 ∧ (s.rd rPLAN_PC_TIME).toNat ≤ s.time → t.flag rPLAN_PCOMMIT fPLAN_PCOMMIT_LATE = true) ∧
      t.fld rPLAN_PCOMMIT fPLAN_PCOMMIT_COUNT = s.fld rPLAN_PCOMMIT fPLAN_PCOMMIT_COUNT ∧
      onlyIn (mEvent ||| mAct ||| mStaged) [rPLAN_PCOMMIT] [12] s t) ∧
  (∀ s : State, s.glb ≠ 0 → s.held = false → s.flag rPLAN_PCOMMIT fPLAN_PCOMMIT_GO = true → s.planState ≠ 2 →
    completes .paramCommit s fun t => t.flag rPLAN_PCOMMIT fPLAN_PCOMMIT_GO = false ∧
      t.fld rPLAN_PCOMMIT fPLAN_PCOMMIT_COUNT = (s.fld rPLAN_PCOMMIT fPLAN_PCOMMIT_COUNT + 1) % 2 ^ fPLAN_PCOMMIT_COUNT.w ∧
      (s.actv rPLAN_PC_TIME).toNat ≤ t.time ∧ t.plan = s.plan) ∧
  (∀ s : State, s.glb ≠ 0 → s.held = true ∨ s.flag rPLAN_PCOMMIT fPLAN_PCOMMIT_GO = false → exec .paramCommit s = .next s)

/-- In READY, GO on a used unit with no swap pending, a mask of stages it has and a time ahead of its outputs leaves the swap pending, with GO 1
and RESULT 1; on an unused unit it is done at once; while one is pending it is refused with CAUSE 5. CANCEL before the commit point ends it
with RESULT 3, CAUSE 1 and 213, and after it, or with none pending, changes nothing but SYNC and MASK. At its end every stage of the mask and
no other has changed ACTIVE, GO is 0, RESULT 2, SWAPS one more and 212 raised; the commit point and the end come while the dividers run. A coefficient of a bank that is neither active nor about to be
is held, any other write of one counts in COEF_DISC and raises 215. RST_ARM arms in a narrow-band unit.
Where the spec leaves a point open this states the choice of the model, logged as assumptions 27, 37, 38. -/
def Obligations.DownconversionSwaps : Prop :=
  (∀ (u : Fin 20) (v : Word) (s : State), s.ready = true → fget v fDDC_SWAP_CANCEL = 0 → (s.ddcU u).swap = none → s.ddcUsed u = true →
    0 < fget v fDDC_SWAP_MASK → (u.val < 4 → fget v fDDC_SWAP_MASK < 2) → fget v fDDC_SWAP_MASK < 2 ^ s.ddcStages u →
    ((s.ddcU u).stg.getD (lowBit (fget v fDDC_SWAP_MASK)) ddcStg0).m = 0 →
    completes (.ddcSwapGo u v) s fun t => t.flag (rDDC_SWAP u) fDDC_SWAP_GO = true ∧ t.fld (rDDC_SWAP u) fDDC_SWAP_RESULT = 1 ∧
      (t.ddcU u) = { s.ddcU u with swap := some ⟨swapAt s (fget v fDDC_SWAP_SYNC == 1) (s.rd (rDDC_SWAP_TIME u)).toNat,
        fget v fDDC_SWAP_MASK, false⟩ } ∧
      onlyIn (mRegs ||| mStaged ||| mDdc) [rDDC_SWAP u] [] s t) ∧
  (∀ (u : Fin 20) (v : Word) (s : State), s.ready = true → fget v fDDC_SWAP_CANCEL = 0 → (s.ddcU u).swap ≠ none →
    completes (.ddcSwapGo u v) s fun t => t.fld (rDDC_SWAP u) fDDC_SWAP_RESULT = 4 ∧ t.fld (rDDC_SWAP u) fDDC_SWAP_CAUSE = 5 ∧
      t.ddc = s.ddc ∧ onlyIn (mRegs ||| mStaged) [rDDC_SWAP u] [] s t) ∧
  (∀ (u : Fin 20) (v : Word) (s : State), s.ready = true → fget v fDDC_SWAP_CANCEL = 0 → (s.ddcU u).swap = none → s.ddcUsed u = false →
    0 < fget v fDDC_SWAP_MASK → (u.val < 4 → fget v fDDC_SWAP_MASK < 2) →
    completes (.ddcSwapGo u v) s fun t => t.flag (rDDC_SWAP u) fDDC_SWAP_GO = false ∧ t.fld (rDDC_SWAP u) fDDC_SWAP_RESULT = 2 ∧
      (∀ k < 12, t.fld (rDDC_STAGE u k) fDDC_STAGE_ACTIVE =
        if fget v fDDC_SWAP_MASK / 2 ^ k % 2 = 1 then 1 - s.fld (rDDC_STAGE u k) fDDC_STAGE_ACTIVE else s.fld (rDDC_STAGE u k) fDDC_STAGE_ACTIVE) ∧
      onlyIn (mEvent ||| mStaged ||| mDdc) ([rDDC_SWAP u, rDDC_STAT u] ++ (upTo 12).map (rDDC_STAGE u)) [212] s t) ∧
  (∀ (u : Fin 20) (v : Word) (w : DdcSwap) (s : State), s.ready = true → fget v fDDC_SWAP_GO = 0 → (s.ddcU u).swap = some w → w.done = false →
    completes (.ddcSwapCancel u v) s fun t => (t.ddcU u) = { s.ddcU u with swap := none } ∧ t.flag (rDDC_SWAP u) fDDC_SWAP_GO = false ∧
      t.fld (rDDC_SWAP u) fDDC_SWAP_RESULT = 3 ∧ t.fld (rDDC_SWAP u) fDDC_SWAP_CAUSE = 1 ∧
      onlyIn (mEvent ||| mStaged ||| mDdc) [rDDC_SWAP u] [213] s t) ∧
  (∀ (u : Fin 20) (at_ mask : Nat) (s : State), s.glb ≠ 0 → s.held = false → (s.ddcU u).swap = some ⟨some at_, mask, false⟩ →
    exec (.ddcSwapCommit u) s =
      .next ((s.reach (ceilDiv at_ 65536)).updDdc u fun d => { d with swap := some ⟨some at_, mask, true⟩ })) ∧
  (∀ (u : Fin 20) (at_ mask : Nat) (s : State), s.glb ≠ 0 → s.held = false → (s.ddcU u).swap = some ⟨some at_, mask, true⟩ →
    completes (.ddcSwapDone u) s fun t => (t.ddcU u) = { s.ddcU u with swap := none } ∧ t.flag (rDDC_SWAP u) fDDC_SWAP_GO = false ∧
      t.fld (rDDC_SWAP u) fDDC_SWAP_RESULT = 2 ∧ t.fld (rDDC_SWAP u) fDDC_SWAP_CAUSE = 0 ∧
      t.fld (rDDC_STAT u) fDDC_STAT_SWAPS = (s.fld (rDDC_STAT u) fDDC_STAT_SWAPS + 1) % 2 ^ 16 ∧
      (∀ k < 12, t.fld (rDDC_STAGE u k) fDDC_STAGE_ACTIVE =
        if mask / 2 ^ k % 2 = 1 then 1 - s.fld (rDDC_STAGE u k) fDDC_STAGE_ACTIVE else s.fld (rDDC_STAGE u k) fDDC_STAGE_ACTIVE) ∧
      onlyIn (mEvent ||| mDdc) ([rDDC_SWAP u, rDDC_SWAP_AT u, rDDC_STAT u] ++ (upTo 12).map (rDDC_STAGE u)) [212] s t) ∧
  (∀ (u : Fin 20) (s : State), s.glb ≠ 0 → s.held = true ∨ (s.ddcU u).swap = none →
    exec (.ddcSwapCommit u) s = .next s ∧ exec (.ddcSwapDone u) s = .next s) ∧
  (∀ (u : Fin 20) (k : Fin 12) (b : Fin 2) (v : Word) (s : State), s.ready = true → s.ddcBankFree u k b = true →
    (2 ≤ fget v fDDC_COEF0_K → fget v fDDC_COEF0_K ≤ 16 →
      exec (.ddcCoefWrite u k b 0 v) s = .next ((s.dropStaged .host (rDDC_COEF0 u k b)).wrCodes (rDDC_COEF0 u k b) v [])) ∧
    (∀ r : Fin 9, r ≠ 0 → exec (.ddcCoefWrite u k b r v) s =
      .next ((s.dropStaged .host (rDDC_COEFR u k b (r - 1))).wrCodes (rDDC_COEFR u k b (r - 1)) v []))) ∧
  (∀ (u : Fin 20) (k : Fin 12) (b : Fin 2) (r : Fin 9) (v : Word) (s : State), s.ready = true → s.ddcBankFree u k b = false →
    exec (.ddcCoefWrite u k b r v) s =
      .next (((s.dropStaged .host (if r = 0 then rDDC_COEF0 u k b else rDDC_COEFR u k b (r - 1))).addSat (rDDC_STAT u) fDDC_STAT_COEF_DISC 1).raise 215)) ∧
  (∀ (u : Fin 20) (v : Word) (s : State), s.ready = true →
    completes (.ddcNcoRstArm u v) s fun t =>
      (4 ≤ u.val → t.flag (rDDC_NCO_CTRL u) fDDC_NCO_CTRL_RST_ARM = true) ∧
      (u.val < 4 → t.flag (rDDC_NCO_CTRL u) fDDC_NCO_CTRL_RST_ARM = s.flag (rDDC_NCO_CTRL u) fDDC_NCO_CTRL_RST_ARM) ∧
      t.fld (rDDC_NCO_CTRL u) fDDC_NCO_CTRL_INVERT = fget v fDDC_NCO_CTRL_INVERT ∧
      t.actv (rDDC_NCO_CTRL u) = s.actv (rDDC_NCO_CTRL u) ∧ onlyIn (mRegs ||| mStaged) [rDDC_NCO_CTRL u] [] s t)

/-- In READY, LOAD of a legal length with no load or swap under way is taken, with RESULT 1; else it is refused, with REASON 4 or 2 and 265.
The words that arrive, none above 18 bits, fill the bank that is not active, and a failed read leaves it empty. GO on a loaded bank waits for
the frame, in an unused pipeline it swaps at once; CANCEL ends a wait with RESULT 3, CAUSE 1 and 267; at the swap, by the first frame begun at or after its instant, ACTIVE changes, SWAPS
counts and 266 is raised. A legal write of XFM_CTRL is held, another counts in WR_DISC. A frame whose samples have all arrived is done with,
and the samples before the next are let go; with fewer samples, or while the dividers are held, nothing happens.
Where the spec leaves a point open this states the choice of the model, logged as assumptions 14, 22, 37. -/
def Obligations.TransformTablesAndFrames : Prop :=
  (∀ (n : Fin 4) (v : Word) (s : State), s.ready = true → fget v fXFM_TAB_CTRL_CANCEL = 0 → fget v fXFM_TAB_CTRL_GO = 0 →
    (s.xfmU n).load = none → (s.xfmU n).swap = none → 32 ≤ fget v fXFM_TAB_CTRL_LEN → fget v fXFM_TAB_CTRL_LEN ≤ 524288 →
    fget v fXFM_TAB_CTRL_LEN = 2 ^ (fget v fXFM_TAB_CTRL_LEN).log2 →
    completes (.tabLoad n v) s fun t => (t.xfmU n) = { s.xfmU n with load := some (fget v fXFM_TAB_CTRL_LEN) } ∧
      t.flag (rXFM_TAB_CTRL n) fXFM_TAB_CTRL_LOAD = true ∧ t.fld (rXFM_TAB_STATUS n) fXFM_TAB_STATUS_LOAD_RESULT = 1 ∧
      onlyIn (mRegs ||| mStaged ||| mXfm) [rXFM_TAB_CTRL n, rXFM_TAB_STATUS n] [] s t) ∧
  (∀ (n : Fin 4) (v : Word) (s : State), s.ready = true → fget v fXFM_TAB_CTRL_CANCEL = 0 → fget v fXFM_TAB_CTRL_GO = 0 →
    ((s.xfmU n).load ≠ none ∨ (s.xfmU n).swap ≠ none ∨ fget v fXFM_TAB_CTRL_LEN < 32) →
    completes (.tabLoad n v) s fun t => t.fld (rXFM_TAB_STATUS n) fXFM_TAB_STATUS_LOAD_RESULT = 4 ∧
      t.fld (rXFM_TAB_STATUS n) fXFM_TAB_STATUS_LOAD_REASON = (if (s.xfmU n).load ≠ none ∨ (s.xfmU n).swap ≠ none then 4 else 2) ∧
      onlyIn (mEvent ||| mStaged) [rXFM_TAB_CTRL n, rXFM_TAB_STATUS n] [265] s t) ∧
  (∀ (n : Fin 4) (ws : List (BitVec 32)) (s : State), s.glb ≠ 0 → (s.xfmU n).load = some ws.length → s.xfmGang n = false →
    (∀ w ∈ ws, w.toNat < 2 ^ 18) →
    completes (.tabLoadEnd n (some ws)) s fun t => (t.xfmU n).load = none ∧
      (t.xfmU n).bank (1 - s.xfmActive n) = ws.map (fun w => toSigned 18 w.toNat) ∧
      t.fld (rXFM_TAB_STATUS n) fXFM_TAB_STATUS_LOAD_RESULT = 2 ∧
      onlyIn (mEvent ||| mXfm) [rXFM_TAB_CTRL n, rXFM_TAB_STATUS n, rXFM_TAB_LEN n, rXFM_TAB_CRC n] [264] s t) ∧
  (∀ (n : Fin 4) (len : Nat) (s : State), s.glb ≠ 0 → (s.xfmU n).load = some len → s.xfmGang n = false →
    completes (.tabLoadEnd n none) s fun t => (t.xfmU n).load = none ∧ (t.xfmU n).bank (1 - s.xfmActive n) = [] ∧
      t.fld (rXFM_TAB_STATUS n) fXFM_TAB_STATUS_LOAD_RESULT = 3 ∧ t.fld (rXFM_TAB_STATUS n) fXFM_TAB_STATUS_LOAD_REASON = 1 ∧
      onlyIn (mEvent ||| mXfm) [rXFM_TAB_CTRL n, rXFM_TAB_STATUS n, rXFM_TAB_LEN n, rXFM_TAB_CRC n] [265] s t) ∧
  (∀ (n : Fin 4) (v : Word) (s : State), s.ready = true → fget v fXFM_TAB_CTRL_CANCEL = 0 → fget v fXFM_TAB_CTRL_LOAD = 0 →
    (s.xfmU n).load = none → (s.xfmU n).swap = none → (s.xfmU n).bank (1 - s.xfmActive n) ≠ [] →
    completes (.tabSwapGo n v) s fun t =>
      (s.flag (rXFM_CFG n) fXFM_CFG_USED = true → (t.xfmU n).swap ≠ none ∧ t.xfmActive n = s.xfmActive n ∧
        t.flag (rXFM_TAB_CTRL n) fXFM_TAB_CTRL_GO = true ∧ t.fld (rXFM_TAB_STATUS n) fXFM_TAB_STATUS_SWAP_RESULT = 1) ∧
      (s.flag (rXFM_CFG n) fXFM_CFG_USED = false → (t.xfmU n).swap = none ∧ t.xfmActive n = 1 - s.xfmActive n ∧
        t.flag (rXFM_TAB_CTRL n) fXFM_TAB_CTRL_GO = false ∧ t.fld (rXFM_TAB_STATUS n) fXFM_TAB_STATUS_SWAP_RESULT = 2) ∧
      onlyIn (mEvent ||| mStaged ||| mXfm) [rXFM_TAB_CTRL n, rXFM_TAB_STATUS n] [266, 268] s t) ∧
  (∀ (n : Fin 4) (v : Word) (s : State), s.ready = true → fget v fXFM_TAB_CTRL_LOAD = 0 → fget v fXFM_TAB_CTRL_GO = 0 →
    (s.xfmU n).swap ≠ none →
    completes (.tabSwapCancel n v) s fun t => (t.xfmU n) = { s.xfmU n with swap := none } ∧
      t.flag (rXFM_TAB_CTRL n) fXFM_TAB_CTRL_GO = false ∧ t.fld (rXFM_TAB_STATUS n) fXFM_TAB_STATUS_SWAP_RESULT = 3 ∧
      t.fld (rXFM_TAB_STATUS n) fXFM_TAB_STATUS_SWAP_CAUSE = 1 ∧
      onlyIn (mEvent ||| mStaged ||| mXfm) [rXFM_TAB_CTRL n, rXFM_TAB_STATUS n] [267] s t) ∧
  (∀ (n : Fin 4) (at_ t0 : Nat) (s : State), s.glb ≠ 0 → s.held = false → (s.xfmU n).swap = some (some at_) →
    ((upTo (s.xfmStarted n)).filterMap fun i => ((s.xfmU n).buf[i * s.xfmHop n]?).map (·.t)).find? (fun t => at_ ≤ t) = some t0 →
    completes (.tabSwapCommit n) s fun t => (t.xfmU n) = { s.xfmU n with swap := none, bankAt := t0 } ∧ t.xfmActive n = 1 - s.xfmActive n ∧
      t.fld (rXFM_TAB_STATUS n) fXFM_TAB_STATUS_SWAP_RESULT = 2 ∧
      t.fld (rXFM_TAB_STATUS n) fXFM_TAB_STATUS_SWAPS = (s.fld (rXFM_TAB_STATUS n) fXFM_TAB_STATUS_SWAPS + 1) % 2 ^ 16 ∧
      t.fld (rXFM_TAB_AT n) fXFM_TAB_AT_TIME = timeOf t0 % 2 ^ fXFM_TAB_AT_TIME.w ∧
      onlyIn (mEvent ||| mXfm) [rXFM_TAB_CTRL n, rXFM_TAB_STATUS n, rXFM_TAB_AT n] [266] s t) ∧
  (∀ (n : Fin 4) (s : State), s.glb ≠ 0 → (s.held = true ∨ (s.xfmU n).swap = none ∨ (s.xfmU n).buf = []) → exec (.tabSwapCommit n) s = .next s) ∧
  (∀ (n : Fin 4) (v : Word) (s : State), s.ready = true → fget v fXFM_CTRL_WSEL < 5 →
    (∀ k < 9, fget v fXFM_CTRL_SCHED / 4 ^ k % 4 ≠ 3) → (s.xfmPcode n = 0 ∨ fget v fXFM_CTRL_WSEL = 4) →
    exec (.xfmCtrlWrite n v) s = .next ((s.dropStaged .host (rXFM_CTRL n)).wrCodes (rXFM_CTRL n) v [])) ∧
  (∀ (n : Fin 4) (v : Word) (s : State), s.ready = true →
    (5 ≤ fget v fXFM_CTRL_WSEL ∨ (∃ k < 9, fget v fXFM_CTRL_SCHED / 4 ^ k % 4 = 3) ∨ (s.xfmPcode n ≠ 0 ∧ fget v fXFM_CTRL_WSEL ≠ 4)) →
    exec (.xfmCtrlWrite n v) s = .next ((s.dropStaged .host (rXFM_CTRL n)).addSat (rXFM_COUNT n) fXFM_COUNT_WR_DISC 1)) ∧
  (∀ (n : Fin 4) (s : State), s.glb ≠ 0 → s.held = false → s.flag (rXFM_CFG n) fXFM_CFG_USED = true →
    2 ^ (s.xfmLog2n n + s.xfmPcode n) ≤ (s.xfmU n).buf.length →
    completes (.xfmFrame n) s fun t => (t.xfmU n).f = (s.xfmU n).f + 1 ∧ (t.xfmU n).last = ((s.xfmU n).buf.head?.map (·.t)) ∧
      (t.xfmU n).buf = (s.xfmU n).buf.drop (s.xfmHop n) ∧
      (t.xfmU n).bankA = (s.xfmU n).bankA ∧ (t.xfmU n).bankB = (s.xfmU n).bankB ∧
      Touches (mEvent ||| mFreeCtr ||| mCtxs ||| mPorts ||| mXfm ||| mFrames) s t) ∧
  (∀ (n : Fin 4) (s : State), s.glb ≠ 0 →
    (s.held = true ∨ s.flag (rXFM_CFG n) fXFM_CFG_USED = false ∨ (s.xfmU n).buf.length < 2 ^ (s.xfmLog2n n + s.xfmPcode n)) →
    exec (.xfmFrame n) s = .next s)

/-- In READY a write of CTRL or INT that leaves the unit legal, and any of ALIGN, is held; another counts in WR_DISC and raises its event. With
no frame to take a unit does nothing. A frame that reaches a unit of no gang inside a running interval, which it neither starts nor ends, with
no commit in between: one marked lost counts in LOST and in the interval's losses; any other is one more of the accumulation. The end of a
readout frees the unit for the next interval. While the dividers are held none of this happens.
Where the spec leaves a point open this states the choice of the model, logged as assumptions 9, 14. -/
def Obligations.DetectorsAndDensity : Prop :=
  (∀ (n : Fin 4) (v : Word) (s : State), s.ready = true →
    exec (.detWrite n 2 v) s = .next ((s.dropStaged .host (rDET_ALIGN n)).wrCodes (rDET_ALIGN n) v []) ∧
    exec (.denWrite n 2 v) s = .next ((s.dropStaged .host (rDEN_ALIGN n)).wrCodes (rDEN_ALIGN n) v [])) ∧
  (∀ (n : Fin 4) (v : Word) (s : State), s.ready = true →
    exec (.detWrite n 1 v) s = .next
      (if s.detLegal n (s.rd (rDET_CTRL n)) ((s.wrCodes (rDET_INT n) v []).rd (rDET_INT n))
        then (s.dropStaged .host (rDET_INT n)).wrCodes (rDET_INT n) v []
        else ((s.dropStaged .host (rDET_INT n)).addSat (rDET_COUNT n) fDET_COUNT_WR_DISC 1).raise 284)) ∧
  (∀ (n : Fin 4) (v : Word) (s : State), s.ready = true →
    exec (.denWrite n 1 v) s = .next
      (if s.denLegal n (s.rd (rDEN_CTRL n)) ((s.wrCodes (rDEN_INT n) v []).rd (rDEN_INT n))
        then (s.dropStaged .host (rDEN_INT n)).wrCodes (rDEN_INT n) v []
        else ((s.dropStaged .host (rDEN_INT n)).addSat (rDEN_COUNT n) fDEN_COUNT_WR_DISC 1).raise 285)) ∧
  (∀ (n : Fin 4) (s : State), s.glb ≠ 0 → s.held = true ∨ SMap.get [] s.frames (detSquare n) = [] → exec (.detFrame n) s = .next s) ∧
  (∀ (n : Fin 4) (s : State), s.glb ≠ 0 → s.held = true ∨ SMap.get [] s.frames (denSquare n) = [] → exec (.denFrame n) s = .next s) ∧
  (∀ (n : Fin 4) (f : Machine.Frm) (rest : List Machine.Frm) (s : State), s.glb ≠ 0 → s.held = false → SMap.get [] s.frames (detSquare n) = f :: rest →
    s.flag (rDET_CFG n) fDET_CFG_GANG = false → s.flag (rDET_CFG n) fDET_CFG_PARTNER = false → (s.detU n).iv.cfgs = [] →
    (s.detU n).iv.on = true → f.era = (s.detU n).iv.era → fget (s.actv (rDET_CTRL n)) fDET_CTRL_INT_MODE = 1 →
    intvIndex true (fget (s.actv (rDET_INT n)) fDET_INT_VALUE) (s.actv (rDET_ALIGN n)).toNat (s.detU n).iv.base f.f f.t ≤ (s.detU n).iv.idx →
    completes (.detFrame n) s fun t => t.frames = SMap.upd [] s.frames (detSquare n) (·.drop 1) ∧
      (f.lost = true → (t.detU n).iv.lost = (s.detU n).iv.lost + 1 ∧ (t.detU n).off = (s.detU n).off ∧ (t.detU n).on = (s.detU n).on ∧
        t.fld (rDET_STAT n) fDET_STAT_LOST = satN fDET_STAT_LOST.w (s.fld (rDET_STAT n) fDET_STAT_LOST + 1)) ∧
      (f.lost = false → s.flag (rDET_CFG n) fDET_CFG_SWITCHED = false →
        (t.detU n).off.n = (s.detU n).off.n + 1 ∧ (t.detU n).on = (s.detU n).on ∧ (t.detU n).iv.lost = (s.detU n).iv.lost) ∧
      onlyIn (mEvent ||| mFreeCtr ||| mFrames ||| mDet) [rDET_STAT n] [272 + n.val] s t) ∧
  (∀ (n : Fin 4) (f : Machine.Frm) (rest : List Machine.Frm) (s : State), s.glb ≠ 0 → s.held = false → SMap.get [] s.frames (denSquare n) = f :: rest →
    s.flag (rDEN_CFG n) fDEN_CFG_GANG = false → s.flag (rDEN_CFG n) fDEN_CFG_PARTNER = false → (s.denU n).iv.cfgs = [] →
    (s.denU n).iv.on = true → f.era = (s.denU n).iv.era → fget (s.actv (rDEN_CTRL n)) fDEN_CTRL_INT_MODE = 1 →
    intvIndex true (fget (s.actv (rDEN_INT n)) fDEN_INT_VALUE) (s.actv (rDEN_ALIGN n)).toNat (s.denU n).iv.base f.f f.t ≤ (s.denU n).iv.idx →
    completes (.denFrame n) s fun t => t.frames = SMap.upd [] s.frames (denSquare n) (·.drop 1) ∧
      (f.lost = true → (t.denU n).iv.lost = (s.denU n).iv.lost + 1 ∧ (t.denU n).n = (s.denU n).n ∧ (t.denU n).cells = (s.denU n).cells) ∧
      (f.lost = false → (t.denU n).n = (s.denU n).n + 1 ∧ (t.denU n).tend = f.tend) ∧
      onlyIn (mEvent ||| mFreeCtr ||| mFrames ||| mDen) [rDEN_STAT n, rDEN_LOST n, rDEN_COUNT n] [276 + n.val, 280 + n.val] s t) ∧
  (∀ (n : Fin 4) (s : State), s.glb ≠ 0 → s.held = true → exec (.detReadoutDone n) s = .next s ∧ exec (.denReadoutDone n) s = .next s) ∧
  (∀ (n : Fin 4) (s : State), s.glb ≠ 0 → s.held = false →
    exec (.detReadoutDone n) s = .next (s.updDet n fun d => { d with iv := { d.iv with busy := false } }) ∧
    exec (.denReadoutDone n) s = .next (s.updDen n fun d => { d with iv := { d.iv with busy := false } }))

/-- Outside reset and a hold of the dividers, what a source's command brings about is one event of that source: EVENTS counts it and it joins the inbox of every qualifier
that selects the source, and no other. That holds of a trigger-bus line that was not low, of an enabled timer, whose time is START + k × PERIOD,
of each bit of a write of TRG_SW, of a sample at or beyond the level of an armed level trigger without MIN_WIDTH, and of a frame in which
enough bins violate a mask. A line that is low, a disabled timer, a mask unit without a record or disabled, and a unit with nothing to take
issue nothing, nor does anything while the dividers are held; a line's drive ends with its pulse, and its level follows it.
Where the spec leaves a point open this states the choice of the model, logged as assumptions 16, 40. -/
def Obligations.TriggerSources : Prop :=
  (∀ (l : Fin 8) (t : Nat) (s : State), s.glb ≠ 0 → s.held = false → (s.busL l).low = false →
    completes (.tbusEvent l t) s fun u => (u.busL l).low = true ∧ u.time = max s.time (t + 3) ∧
      u.fld (rTRG_SRC (4 + l)) fTRG_SRC_EVENTS = (s.fld (rTRG_SRC (4 + l)) fTRG_SRC_EVENTS + 1) % 2 ^ 32 ∧
      (∀ q < 16, (u.tqU q).inbox = if inSetA (s.tqNow q) (4 + l) || inSetB (s.tqNow q) (4 + l)
        then (s.tqU q).inbox ++ [⟨tick16 (t - 3), 4 + l, 4, false, false, 0⟩] else (s.tqU q).inbox) ∧
      onlyIn (mRegs ||| mTime ||| mTq ||| mBus) [rTRG_SRC (4 + l)] [] s u) ∧
  (∀ (l : Fin 8) (t : Nat) (s : State), s.glb ≠ 0 → s.held = true ∨ (s.busL l).low = true → exec (.tbusEvent l t) s = .next s) ∧
  (∀ (l : Fin 8) (b e : Nat) (rest : List (Nat × Nat)) (s : State), s.glb ≠ 0 → s.held = false → (s.busL l).drv = (b, e) :: rest →
    completes (.tbusPulseEnd l) s fun u => (u.busL l).drv = rest ∧ (u.busL l).low = ((s.busL l).low && (s.busL l).ext) ∧
      u.time = max s.time e ∧ (rest = [] → u.busIsHigh l = !(s.busL l).ext) ∧ onlyIn (mTime ||| mBus) [] [] s u) ∧
  (∀ (l : Fin 8) (s : State), s.glb ≠ 0 → s.held = true ∨ (s.busL l).drv = [] → exec (.tbusPulseEnd l) s = .next s) ∧
  (∀ (l : Fin 8) (s : State), s.glb ≠ 0 → s.held = false →
    completes (.tbusLineHigh l) s fun u => (u.busL l).ext = false ∧ (u.busL l).drv = (s.busL l).drv ∧
      u.busIsHigh l = !s.busDriven l ∧ onlyIn mBus [] [] s u) ∧
  (∀ (n : Fin 4) (s : State), s.glb ≠ 0 → s.held = false → fget (s.actv (rTRG_TMR_CFG n)) fTRG_TMR_CFG_EN = 1 →
    completes (.trgTimerEvent n) s fun u =>
      u.time = max s.time ((s.actv (rTRG_TMR_START n)).toNat + SMap.get 0 s.tmr n * fget (s.actv (rTRG_TMR_CFG n)) fTRG_TMR_CFG_PERIOD) ∧
      SMap.get 0 u.tmr n = SMap.get 0 s.tmr n + 1 ∧
      u.fld (rTRG_SRC (56 + n)) fTRG_SRC_EVENTS = (s.fld (rTRG_SRC (56 + n)) fTRG_SRC_EVENTS + 1) % 2 ^ 32 ∧
      (∀ q < 16, (u.tqU q).inbox.length = (s.tqU q).inbox.length + b2n (inSetA (s.tqNow q) (56 + n) || inSetB (s.tqNow q) (56 + n))) ∧
      onlyIn (mRegs ||| mTime ||| mTq ||| mTmr) [rTRG_SRC (56 + n)] [] s u) ∧
  (∀ (n : Fin 4) (s : State), s.glb ≠ 0 → s.held = true ∨ fget (s.actv (rTRG_TMR_CFG n)) fTRG_TMR_CFG_EN = 0 → exec (.trgTimerEvent n) s = .next s) ∧
  (∀ (v : Word) (s : State), s.ready = true →
    completes (.trgSwFire v) s fun u =>
      (∀ i < 4, u.fld (rTRG_SRC (60 + i)) fTRG_SRC_EVENTS = (s.fld (rTRG_SRC (60 + i)) fTRG_SRC_EVENTS + v.toNat / 2 ^ i % 2) % 2 ^ 32) ∧
      (∀ q < 16, (u.tqU q).inbox = (s.tqU q).inbox ++ ((upTo 4).filter fun i => v.toNat / 2 ^ i % 2 == 1 &&
        (inSetA (s.tqNow q) (60 + i) || inSetB (s.tqNow q) (60 + i))).map fun i => ⟨tick16 s.time, 60 + i, 4, false, false, 0⟩) ∧
      onlyIn (mRegs ||| mStaged ||| mTq) ((upTo 4).map fun i => rTRG_SRC (60 + i)) [] s u) ∧
  (∀ (i : Fin 8) (x : Smp) (p : Nat × Option Int) (s : State), s.glb ≠ 0 → s.held = false → (s.ltU i).queue = [x] → x.ok = true → (s.ltU i).prev = some p →
    (s.ltU i).armR = true → (s.ltU i).pendR = none → (s.ltU i).pendF = none → (s.ltU i).last ≠ some (timeOf x.t) →
    fget (s.actv (rTRG_LT_CFG i)) fTRG_LT_CFG_COND = 0 → fget (s.actv (rTRG_LT_CFG i)) fTRG_LT_CFG_MIN_WIDTH = 0 →
    fgetS (s.actv (rTRG_LT_LEVEL i)) fTRG_LT_LEVEL_LEVEL ≤ ltValue (fget (s.actv (rTRG_LT_CFG i)) fTRG_LT_CFG_SIGNAL) x →
    completes (.ltCrossing i) s fun u => (u.ltU i).queue = [] ∧ (u.ltU i).last = some (timeOf x.t) ∧
      u.fld (rTRG_LT_STAT i) fTRG_LT_STAT_TRIGGERS = (s.fld (rTRG_LT_STAT i) fTRG_LT_STAT_TRIGGERS + 1) % 2 ^ fTRG_LT_STAT_TRIGGERS.w ∧
      u.fld (rTRG_SRC (12 + i)) fTRG_SRC_EVENTS = (s.fld (rTRG_SRC (12 + i)) fTRG_SRC_EVENTS + 1) % 2 ^ 32 ∧
      onlyIn (mRegs ||| mFreeCtr ||| mTq ||| mLt) [rTRG_LT_STAT i, rTRG_SRC (12 + i)] [] s u) ∧
  (∀ (i : Fin 8) (s : State), s.glb ≠ 0 → s.held = true ∨ (s.ltU i).queue = [] → exec (.ltCrossing i) s = .next s) ∧
  (∀ (u : Fin 4) (f : Machine.Frm) (rest : List Machine.Frm) (s : State), s.glb ≠ 0 → s.held = false → s.used (44 + u.val) = true →
    SMap.get [] s.frames (44 + u.val) = f :: rest → f.lost = false →
    fget (s.actv (rTRG_FM_CFG u)) fTRG_FM_CFG_EN = 1 → fget (s.actv (rTRG_FM_CFG u)) fTRG_FM_CFG_COND = 0 →
    completes (.fmFrame u) s fun t => t.frames = SMap.upd [] s.frames (44 + u.val) (·.drop 1) ∧
      (fget (s.actv (rTRG_FM_CFG u)) fTRG_FM_CFG_MIN_BINS ≤ (s.fmViolations u f).1.length →
        t.fld (rTRG_FM_STAT u) fTRG_FM_STAT_TRIGGERS = (s.fld (rTRG_FM_STAT u) fTRG_FM_STAT_TRIGGERS + 1) % 2 ^ fTRG_FM_STAT_TRIGGERS.w ∧
        t.fld (rTRG_SRC (20 + u)) fTRG_SRC_EVENTS = (s.fld (rTRG_SRC (20 + u)) fTRG_SRC_EVENTS + 1) % 2 ^ 32) ∧
      ((s.fmViolations u f).1.length < fget (s.actv (rTRG_FM_CFG u)) fTRG_FM_CFG_MIN_BINS →
        t.fld (rTRG_FM_STAT u) fTRG_FM_STAT_TRIGGERS = s.fld (rTRG_FM_STAT u) fTRG_FM_STAT_TRIGGERS ∧ t.tq = s.tq) ∧
      onlyIn (mRegs ||| mFreeCtr ||| mFrames ||| mTq ||| mFm) [rTRG_FM_STAT u, rTRG_SRC (20 + u)] [] s t) ∧
  (∀ (u : Fin 4) (s : State), s.glb ≠ 0 → s.held = false → SMap.get [] s.frames (44 + u.val) ≠ [] →
    (s.used (44 + u.val) = false ∨ fget (s.actv (rTRG_FM_CFG u)) fTRG_FM_CFG_EN = 0) → exec (.fmFrame u) s = .next (s.popFrame (44 + u.val))) ∧
  (∀ (u : Fin 4) (s : State), s.glb ≠ 0 → s.held = true ∨ SMap.get [] s.frames (44 + u.val) = [] → exec (.fmFrame u) s = .next s)

/-- Outside reset and a hold of the dividers, an event at an armed qualifier with room is held in the order of judgement; one past its horizon counts in LATE_EV, one
without room in Q_DROP; a disarmed qualifier and one in FREE_RUN take nothing. At the horizon of its first held event a
qualifier that decides on each A fires: FIRED and SEQ count, the last decision shows the event's placement, time has reached the horizon.
AUTO forces a decision at its timeout, counted in FORCED too, FREE_RUN makes its next. In READY, ARM arms a disarmed qualifier, whose
timers count from the present time, and leaves an armed one alone, DISARM empties it, and SNAP counts.
Where the spec leaves a point open this states the choice of the model, logged as assumptions 11, 15, 65. -/
def Obligations.Qualifiers : Prop :=
  (∀ (q : Fin 16) (s : State), s.glb ≠ 0 → s.held = true ∨ (s.tqU q).inbox = [] → exec (.tqEventArrival q) s = .next s) ∧
  (∀ (q : Fin 16) (e : TrgEv) (rest : List TrgEv) (s : State), s.glb ≠ 0 → s.held = false → (s.tqU q).inbox = e :: rest →
    (s.armed q = false ∨ s.tqMode q = 3) →
    exec (.tqEventArrival q) s = .next (s.updTq q fun x => { x with inbox := rest })) ∧
  (∀ (q : Fin 16) (e : TrgEv) (rest : List TrgEv) (s : State), s.glb ≠ 0 → s.held = false → (s.tqU q).inbox = e :: rest → s.armed q = true → s.tqMode q ≠ 3 →
    s.now16 ≤ e.t + tick16 (s.effLag q) → (s.tqU q).held.length + (s.tqU q).memo.length < 64 →
    completes (.tqEventArrival q) s fun t =>
      t.tqU q = { s.tqU q with inbox := rest, held := evInsert e (s.tqU q).held, loss := (s.tqU q).loss || e.loss } ∧ Touches mTq s t) ∧
  (∀ (q : Fin 16) (e : TrgEv) (rest : List TrgEv) (s : State), s.glb ≠ 0 → s.held = false → (s.tqU q).inbox = e :: rest → s.armed q = true → s.tqMode q ≠ 3 →
    s.now16 ≤ e.t + tick16 (s.effLag q) → 64 ≤ (s.tqU q).held.length + (s.tqU q).memo.length →
    completes (.tqEventArrival q) s fun t => t.tqU q = { s.tqU q with inbox := rest, loss := true } ∧
      t.fld (rTRG_TQ_STAT q) fTRG_TQ_STAT_Q_DROP = satN 16 (s.fld (rTRG_TQ_STAT q) fTRG_TQ_STAT_Q_DROP + 1) ∧
      onlyIn (mEvent ||| mTq) [rTRG_TQ_STAT q] [337] s t) ∧
  (∀ (q : Fin 16) (s : State), s.glb ≠ 0 → (s.held = true ∨ s.armed q = false ∨ (s.tqU q).held = [] ∧ (s.tqU q).memo = []) →
    exec (.tqHorizon q) s = .next s) ∧
  (∀ (q : Fin 16) (e : TrgEv) (rest : List TrgEv) (s : State), s.glb ≠ 0 → s.held = false → s.armed q = true → (s.tqU q).old = [] → (s.tqU q).held = e :: rest →
    fget (cfgW (s.tqNow q)) fTRG_TQ_CFG_FUNC = 0 → fget (cfgW (s.tqNow q)) fTRG_TQ_CFG_COUNT_N ≤ 1 → inSetA (s.tqNow q) e.src = true →
    (s.tqU q).prev = none →
    completes (.tqHorizon q) s fun t =>
      t.fld (rTRG_TQ_COUNT q) fTRG_TQ_COUNT_FIRED = (s.fld (rTRG_TQ_COUNT q) fTRG_TQ_COUNT_FIRED + 1) % 2 ^ fTRG_TQ_COUNT_FIRED.w ∧
      t.rd (rTRG_TQ_LAST_TIME q) = BitVec.ofNat 64 (timeOf e.t) ∧
      t.fld (rTRG_TQ_SNAP q) fTRG_TQ_SNAP_SEQ = (s.fld (rTRG_TQ_SNAP q) fTRG_TQ_SNAP_SEQ + 1) % 2 ^ 32 ∧
      (s.tqMode q ≠ 2 → (t.tqU q).held = rest) ∧ t.armed q = decide (s.tqMode q ≠ 2) ∧
      t.time = max s.time (timeOf e.t + s.effLag q)) ∧
  (∀ (q : Fin 16) (s : State), s.glb ≠ 0 → s.held = false → s.armed q = true → s.tqMode q = 1 →
    (∀ e ∈ (s.tqU q).held, (s.tqU q).base + tick16 (fget (autoW (s.tqNow q)) fTRG_TQ_AUTO_TIMEOUT) < e.t) →
    completes (.tqAutoTimeout q) s fun t =>
      t.fld (rTRG_TQ_COUNT q) fTRG_TQ_COUNT_FIRED = (s.fld (rTRG_TQ_COUNT q) fTRG_TQ_COUNT_FIRED + 1) % 2 ^ fTRG_TQ_COUNT_FIRED.w ∧
      t.fld (rTRG_TQ_COUNT q) fTRG_TQ_COUNT_FORCED = (s.fld (rTRG_TQ_COUNT q) fTRG_TQ_COUNT_FORCED + 1) % 2 ^ fTRG_TQ_COUNT_FORCED.w ∧
      t.rd (rTRG_TQ_LAST_TIME q) =
        BitVec.ofNat 64 (timeOf ((s.tqU q).base + tick16 (fget (autoW (s.tqNow q)) fTRG_TQ_AUTO_TIMEOUT)))) ∧
  (∀ (q : Fin 16) (s : State), s.glb ≠ 0 → (s.held = true ∨ s.armed q = false ∨ s.tqMode q ≠ 1) → exec (.tqAutoTimeout q) s = .next s) ∧
  (∀ (q : Fin 16) (s : State), s.glb ≠ 0 → s.held = false → s.armed q = true → s.tqMode q = 3 →
    completes (.tqFreeRunDecision q) s fun t => (t.tqU q).k = (s.tqU q).k + 1 ∧ (t.tqU q).base = (s.tqU q).base ∧
      t.fld (rTRG_TQ_COUNT q) fTRG_TQ_COUNT_FIRED = (s.fld (rTRG_TQ_COUNT q) fTRG_TQ_COUNT_FIRED + 1) % 2 ^ fTRG_TQ_COUNT_FIRED.w ∧
      t.fld (rTRG_TQ_COUNT q) fTRG_TQ_COUNT_FORCED = s.fld (rTRG_TQ_COUNT q) fTRG_TQ_COUNT_FORCED) ∧
  (∀ (q : Fin 16) (s : State), s.glb ≠ 0 → (s.held = true ∨ s.armed q = false ∨ s.tqMode q ≠ 3) → exec (.tqFreeRunDecision q) s = .next s) ∧
  (∀ (q : Fin 16) (v : Word) (s : State), s.ready = true → fget v fTRG_TQ_CFG_COUNT_N ≠ 0 → fget v fTRG_TQ_CFG_MODE % 2 = 0 →
    completes (.tqArm q v) s fun t => t.armed q = true ∧
      (s.armed q = false → t.tqU q = { s.tqU q with base := tick16 s.time, k := 0 }) ∧
      (s.armed q = true → t.tqU q = s.tqU q) ∧
      t.tqNow q = s.tqNow q ∧ onlyIn (mRegs ||| mStaged ||| mTq) [rTRG_TQ_CFG q] [] s t) ∧
  (∀ (q : Fin 16) (v : Word) (s : State), s.ready = true → fget v fTRG_TQ_CFG_COUNT_N ≠ 0 → fget v fTRG_TQ_CFG_MODE % 2 = 0 →
    fget v fTRG_TQ_CFG_ARM = 0 →
    completes (.tqDisarm q v) s fun t => t.armed q = false ∧
      t.tqU q = { s.tqU q with held := [], memo := [], bs := [] } ∧
      onlyIn (mRegs ||| mStaged ||| mTq) [rTRG_TQ_CFG q] [] s t) ∧
  (∀ (q : Fin 16) (v : Word) (s : State), s.ready = true →
    exec (.trgTqSnap q v) s = .next ((s.dropStaged .host (rTRG_TQ_SNAP q)).addMod (rTRG_TQ_SNAP q) fTRG_TQ_SNAP_SEQ 1))

/-- In READY, ARM in IDLE or DONE starts a run: FILLING, SEG 0, an empty ring, armed at the present time; in any other state it does nothing. STOP
leads to IDLE and closes a record under way, one more of its records. Outside reset and a hold of the dividers, a unit that holds its PRE samples waits for a decision;
one that is accepted opens the record around its trigger sample, one in IDLE or from before the unit left it is let go, and one that is missed is
counted. A record closes once its last sample has come, and then HOLDOFF runs, after which the run is done, with its event, or fills
again.
Where the spec leaves a point open this states the choice of the model, logged as assumptions 28, 30, 66. -/
def Obligations.AcquisitionRuns : Prop :=
  (∀ (n : Fin 8) (v : Word) (s : State), s.ready = true → fget v fACQ_CMD_STOP = 0 → (s.auState n = 0 ∨ s.auState n = 5) →
    completes (.acqArm n v) s fun t => t.auState n = 1 ∧ t.fld (rACQ_CMD n) fACQ_CMD_SEG = 0 ∧ (t.auU n).ring = [] ∧ (t.auU n).n = 0 ∧
      (t.auU n).armAt = tick16 s.time ∧ (t.auU n).records = (s.auU n).records ∧
      Touches (mEvent ||| mStaged ||| mFreeCtr ||| mStore ||| mCtxs ||| mBillets ||| mPorts ||| mAside ||| mBadLines ||| mAu) s t) ∧
  (∀ (n : Fin 8) (v : Word) (s : State), s.ready = true → fget v fACQ_CMD_STOP = 0 → s.auState n ≠ 0 → s.auState n ≠ 5 →
    exec (.acqArm n v) s = .next (s.dropStaged .host (rACQ_CMD n))) ∧
  (∀ (n : Fin 8) (v : Word) (s : State), s.ready = true → fget v fACQ_CMD_ARM = 0 → (s.auU n).rec_ = none →
    exec (.acqStop n v) s = .next ((s.dropStaged .host (rACQ_CMD n)).setFld (rACQ_CMD n) fACQ_CMD_STATE 0)) ∧
  (∀ (n : Fin 8) (v : Word) (r : AuRec) (s : State), s.ready = true → fget v fACQ_CMD_ARM = 0 → (s.auU n).rec_ = some r →
    completes (.acqStop n v) s fun t => t.auState n = 0 ∧ (t.auU n).rec_ = none ∧ (t.auU n).records = (s.auU n).records + 1 ∧
      (t.auU n).trunc = satN 32 ((s.auU n).trunc + b2n ((s.auU n).n < r.t0 + r.post || r.at_ == s.time))) ∧
  (∀ (n : Fin 8) (s : State), s.glb ≠ 0 → s.held = true ∨ SMap.get [] s.decs n = [] → exec (.acqDecision n) s = .next s) ∧
  (∀ (n : Fin 8) (d : Dec) (rest : List Dec) (s : State), s.glb ≠ 0 → s.held = false → (s.auU n).rec_ = none → s.auState n ≠ 4 →
    SMap.get [] s.decs n = d :: rest →
    (s.auState n = 0 ∨ d.t < (s.auU n).since) →
    exec (.acqDecision n) s = .next { s with decs := SMap.set [] s.decs n rest }) ∧
  (∀ (n : Fin 8) (d : Dec) (rest : List Dec) (t0 pre : Nat) (s : State), s.glb ≠ 0 → s.held = false → (s.auU n).rec_ = none → s.auState n ≠ 4 →
    SMap.get [] s.decs n = d :: rest →
    s.auState n ≠ 0 → (s.auU n).since ≤ d.t → s.auJudge n d.t = .accept t0 pre → ((s.auU n).span t0 (t0 + s.auPost n)).all (·.ok) = true →
    s.flag (rACQ_CFG n) fACQ_CFG_LOG_EN = false →
    completes (.acqDecision n) s fun t => t.auState n = 3 ∧ SMap.get [] t.decs n = rest ∧
      (∃ r, (t.auU n).rec_ = some r ∧ r.t0 = t0 ∧ r.first = t0 - pre ∧ r.post = s.auPost n ∧ r.place = d.t) ∧
      onlyIn (mRegs ||| mDecs ||| mAu) [rACQ_CMD n] [] s t) ∧
  (∀ (n : Fin 8) (d : Dec) (rest : List Dec) (s : State), s.glb ≠ 0 → s.held = false → (s.auU n).rec_ = none → s.auState n ≠ 4 →
    SMap.get [] s.decs n = d :: rest →
    s.auState n ≠ 0 → (s.auU n).since ≤ d.t → s.auJudge n d.t = .missed → s.flag (rACQ_CFG n) fACQ_CFG_LOG_EN = false →
    completes (.acqDecision n) s fun t => t.auU n = { s.auU n with missed := satN 32 ((s.auU n).missed + 1) } ∧
      SMap.get [] t.decs n = rest ∧ onlyIn (mEvent ||| mDecs ||| mAu) [] [352 + n.val] s t) ∧
  (∀ (n : Fin 8) (s : State), s.glb ≠ 0 → s.held = false → s.auState n = 1 → s.auPre n ≤ (s.auU n).n - (s.auU n).start →
    exec (.acqPreFilled n) s = .next (s.setFld (rACQ_CMD n) fACQ_CMD_STATE 2)) ∧
  (∀ (n : Fin 8) (s : State), s.glb ≠ 0 → (s.held = true ∨ s.auState n ≠ 1 ∨ (s.auU n).n - (s.auU n).start < s.auPre n) →
    exec (.acqPreFilled n) s = .next s) ∧
  (∀ (n : Fin 8) (r : AuRec) (s : State), s.glb ≠ 0 → s.held = false → (s.auU n).rec_ = some r → r.t0 + r.post ≤ (s.auU n).n →
    completes (.acqRecordClose n) s fun t => t.auState n = 4 ∧ (t.auU n).rec_ = none ∧ (t.auU n).records = (s.auU n).records + 1 ∧
      t.fld (rACQ_CMD n) fACQ_CMD_SEG = (s.fld (rACQ_CMD n) fACQ_CMD_SEG + 1) % 2 ^ 16 ∧ (t.auU n).refill = ((s.auU n).refill || s.fld (rACQ_CFG n) fACQ_CFG_RED == 0)) ∧
  (∀ (n : Fin 8) (s : State), s.glb ≠ 0 → s.held = true ∨ (∀ r, (s.auU n).rec_ = some r → (s.auU n).n < r.t0 + r.post) →
    exec (.acqRecordClose n) s = .next s) ∧
  (∀ (n : Fin 8) (l : AuLast) (s : State), s.glb ≠ 0 → s.held = false → s.auState n = 4 → (s.auU n).last = some l →
    exec (.acqHoldoffEnd n) s = .next
      (if l.mode = 1 ∨ (l.mode = 2 ∧ l.nseg ≤ s.fld (rACQ_CMD n) fACQ_CMD_SEG) then
        ((s.reach (ceilDiv l.t 65536 + l.hold)).setFld (rACQ_CMD n) fACQ_CMD_STATE 5).raise (360 + n)
      else (s.reach (ceilDiv l.t 65536 + l.hold)).setFld (rACQ_CMD n) fACQ_CMD_STATE 1)) ∧
  (∀ (n : Fin 8) (s : State), s.glb ≠ 0 → s.held = true ∨ s.auState n ≠ 4 → exec (.acqHoldoffEnd n) s = .next s)

/-- A log with entries leaves at its time and is empty; one without stays. The refill of the extent set-aside, once asked for and where the
extents are there, tops it up to RING_BILLETS + 2. SNAP in READY captures the counters of the unit and counts SEQ. A replayed RECORD that
reaches the RMU's lane 8, with HO_GAP 0, is measured, and counted in RECORDS; another product passes, uncounted; each leaves the street. In READY a write of
RMU_LEVEL is held where LO < MID < HI, and discarded with 377 where not.
Where the spec leaves a point open this states the choice of the model, logged as assumption 11. -/
def Obligations.AcquisitionService : Prop :=
  (∀ (n : Fin 8) (s : State), s.glb ≠ 0 → s.held = false → (s.auU n).log ≠ [] →
    completes (.acqLogFlush n) s fun t => (t.auU n) = { s.auU n with log := [], logFl := 0 } ∧
      t.time = max s.time ((s.auU n).logAt + s.usTicks (s.afld (rACQ_LOG n) fACQ_LOG_FLUSH_US)) ∧ 
      onlyIn (mEvent ||| mTime ||| mCtxs ||| mPorts ||| mAu) dropRegs [13] s t) ∧
  (∀ (n : Fin 8) (s : State), s.glb ≠ 0 → s.held = true ∨ (s.auU n).log = [] → exec (.acqLogFlush n) s = .next s) ∧
  (∀ (n : Fin 8) (s : State), s.glb ≠ 0 → (s.auU n).refill = true →
    s.fld (rACQ_CFG n) fACQ_CFG_RING_BILLETS + 2 - SMap.get 0 s.aside n ≤ s.extFree →
    completes (.acqExtentRefill n) s fun t => (t.auU n).refill = false ∧
      SMap.get 0 t.aside n = max (s.fld (rACQ_CFG n) fACQ_CFG_RING_BILLETS + 2) (SMap.get 0 s.aside n) ∧
      onlyIn (mEvent ||| mAside ||| mAu) [] [646] s t) ∧
  (∀ (n : Fin 8) (s : State), s.glb ≠ 0 →
    ((s.auU n).refill = false ∨ s.extFree < s.fld (rACQ_CFG n) fACQ_CFG_RING_BILLETS + 2 - SMap.get 0 s.aside n) →
    exec (.acqExtentRefill n) s = .next s) ∧
  (∀ (n : Fin 8) (v : Word) (s : State), s.ready = true →
    completes (.acqSnap n v) s fun t => t.fld (rACQ_SNAP n) fACQ_SNAP_SEQ = (s.fld (rACQ_SNAP n) fACQ_SNAP_SEQ + 1) % 2 ^ 32 ∧
      t.rd (rACQ_COUNT0 n) = BitVec.ofNat 64 (s.auU n).records ∧
      t.fld (rACQ_COUNT1 n) fACQ_COUNT1_MISSED = (s.auU n).missed % 2 ^ 32 ∧ t.fld (rACQ_COUNT1 n) fACQ_COUNT1_EARLY = (s.auU n).early % 2 ^ 32 ∧
      t.fld (rACQ_COUNT2 n) fACQ_COUNT2_TRUNC = (s.auU n).trunc % 2 ^ 32 ∧ t.au = s.au ∧
      onlyIn (mRegs ||| mStaged) [rACQ_SNAP n, rACQ_COUNT0 n, rACQ_COUNT1 n, rACQ_COUNT2 n] [] s t) ∧
  (∀ (r : RRec) (rest : List RRec) (s : State), s.glb ≠ 0 → s.held = false → s.hoGap = false → SMap.get [] s.replay 56 = r :: rest →
    completes .rmuRecord s fun t => SMap.get [] t.replay 56 = rest ∧
      t.fld (rRMU_CFG 8) fRMU_CFG_RECORDS = (s.fld (rRMU_CFG 8) fRMU_CFG_RECORDS + b2n (r.typ == 0x30)) % 2 ^ 32 ∧
      onlyIn (mEvent ||| mFreeCtr ||| mCtxs ||| mPorts ||| mReplay) (rRMU_CFG 8 :: dropRegs) [13] s t) ∧
  (∀ s : State, s.glb ≠ 0 → s.held = true ∨ SMap.get [] s.replay 56 = [] → exec .rmuRecord s = .next s) ∧
  (∀ (l : Fin 9) (v : Word) (s : State), s.ready = true →
    exec (.rmuLevelWrite l v) s = .next
      (if fgetS v fRMU_LEVEL_LO < fgetS v fRMU_LEVEL_MID ∧ fgetS v fRMU_LEVEL_MID < fgetS v fRMU_LEVEL_HI
        then (s.dropStaged .host (rRMU_LEVEL l)).wrCodes (rRMU_LEVEL l) v []
        else (s.dropStaged .host (rRMU_LEVEL l)).raise 377))

/-- On a core that issues with nothing in its way, the instructions of opcodes 0x00 to 0x12 complete, pc moves to the next address and the
core counts one cycle. The destination d register takes the value Table 14-8 gives; a value that LD, ST, MOVM, LDC or MOVC leaves is written
two or three issues later; pointers take the update of their address mode; Z, N and C follow a 16-bit result as Table 14-5 says, S is set when
ASH, ASHI or ABS saturates, and no other bit of sr changes. No other register, no other DM word, no other core and nothing outside the cores
changes. On a core that is not RUNNING the same commands issue nothing.
Where the spec leaves a point open this states the choice of the model, logged as assumptions 17, 46, 70. -/
def Obligations.TurfMovesAndAlu : Prop :=
  (∀ (c : Fin 32) (s : State), turfReady c s →
    turfRuns (.tNop c) c s [] [] (fun _ => []) (·.sr) fun _ _ => True) ∧
  (∀ (c : Fin 32) (d : Fin 16) (imm : BitVec 16) (s : State), turfReady c s →
    turfRuns (.tLdi c d imm) c s [.d d] [] (fun _ => []) (·.sr) fun _ y => y.dReg d = imm.toNat) ∧
  (∀ (c : Fin 32) (d : Fin 16) (p : Fin 8) (am : Fin 4) (s : State), turfReady c s →
    turfRuns (.tLd c d p am) c s [.cr p] [] (fun x => [⟨2, .d d, x.dmWord (x.p p) % 2 ^ 16, 0xFFFF⟩]) (·.sr) fun x y =>
      y.dReg d = x.dReg d ∧ y.p p = stepPtr (x.p p) (x.b p) (x.l p) (x.step p am)) ∧
  (∀ (c : Fin 32) (d : Fin 16) (p : Fin 8) (am : Fin 4) (s : State), turfReady c s →
    turfRuns (.tSt c d p am) c s [.cr p] [] (fun x => [⟨2, .dm (x.p p % 8192), x.dReg d % 2 ^ 16, 0xFFFF⟩]) (·.sr) fun x y =>
      y.p p = stepPtr (x.p p) (x.b p) (x.l p) (x.step p am)) ∧
  (∀ (c : Fin 32) (d a : Fin 16) (s : State), turfReady c s →
    turfRuns (.tMov c d a) c s [.d d] [] (fun _ => []) (·.sr) fun x y => y.dReg d = x.dReg a % 2 ^ 16) ∧
  (∀ (c : Fin 32) (d : Fin 16) (r : Fin 64) (s : State), turfReady c s →
    turfRuns (.tMovcFromCr c d r) c s [.d d] [] (fun _ => []) (·.sr) fun x y =>
      y.dReg d = (if 8 ≤ r.val ∧ r.val < 16 then ofSigned 16 (toSigned 13 (x.crReg r)) else if r.val < 36 then x.crReg r % 2 ^ 16
        else Config.crOpen r % 2 ^ 16)) ∧
  (∀ (c : Fin 32) (r : Fin 64) (d : Fin 16) (s : State), turfReady c s →
    turfRuns (.tMovcToCr c r d) c s [] []
      (fun x => if r.val < 36 then [⟨3, .cr r, x.dReg d, 0xFFFF⟩] else []) (·.sr) fun x y => y.crReg r = x.crReg r) ∧
  (∀ (c : Fin 32) (r : Fin 64) (imm : BitVec 16) (s : State), turfReady c s →
    turfRuns (.tLdc c r imm) c s [] []
      (fun _ => if r.val < 36 then [⟨3, .cr r, imm.toNat, 0xFFFF⟩] else []) (·.sr) fun x y => y.crReg r = x.crReg r) ∧
  (∀ (c : Fin 32) (d a b : Fin 16) (s : State), turfReady c s →
    turfRuns (.tAdd c d a b) c s [.d d] [] (fun _ => [])
      (fun x => (x.flagsZNC (x.dReg a + x.dReg b) (2 ^ 16 ≤ x.dReg a + x.dReg b)).sr) fun x y =>
        y.dReg d = (x.dReg a + x.dReg b) % 2 ^ 16) ∧
  (∀ (c : Fin 32) (d a b : Fin 16) (s : State), turfReady c s →
    turfRuns (.tSub c d a b) c s [.d d] [] (fun _ => [])
      (fun x => (x.flagsZNC (x.dReg a + 2 ^ 16 - x.dReg b) (x.dReg b ≤ x.dReg a)).sr) fun x y =>
        y.dReg d = (x.dReg a + 2 ^ 16 - x.dReg b) % 2 ^ 16) ∧
  (∀ (c : Fin 32) (d a b : Fin 16) (s : State), turfReady c s →
    turfRuns (.tAnd c d a b) c s [.d d] [] (fun _ => []) (fun x => (x.flagsZN (x.dReg a &&& x.dReg b)).sr) fun x y =>
      y.dReg d = (x.dReg a &&& x.dReg b) % 2 ^ 16) ∧
  (∀ (c : Fin 32) (d a b : Fin 16) (s : State), turfReady c s →
    turfRuns (.tOr c d a b) c s [.d d] [] (fun _ => []) (fun x => (x.flagsZN (x.dReg a ||| x.dReg b)).sr) fun x y =>
      y.dReg d = (x.dReg a ||| x.dReg b) % 2 ^ 16) ∧
  (∀ (c : Fin 32) (d a b : Fin 16) (s : State), turfReady c s →
    turfRuns (.tXor c d a b) c s [.d d] [] (fun _ => []) (fun x => (x.flagsZN (x.dReg a ^^^ x.dReg b)).sr) fun x y =>
      y.dReg d = (x.dReg a ^^^ x.dReg b) % 2 ^ 16) ∧
  (∀ (c : Fin 32) (d : Fin 16) (imm : BitVec 16) (s : State), turfReady c s →
    turfRuns (.tAddi c d imm) c s [.d d] [] (fun _ => [])
      (fun x => (x.flagsZNC (x.dReg d + imm.toNat) (2 ^ 16 ≤ x.dReg d + imm.toNat)).sr) fun x y =>
        y.dReg d = (x.dReg d + imm.toNat) % 2 ^ 16) ∧
  (∀ (c : Fin 32) (d a b : Fin 16) (s : State), turfReady c s →
    turfRuns (.tAsh c d a b) c s [.d d] [] (fun _ => [])
      (fun x => ((x.stick srS (x.ash (x.dInt a) (x.dInt b)).2).flagsZN (ofSigned 16 (x.ash (x.dInt a) (x.dInt b)).1)).sr) fun x y =>
        y.dReg d = ofSigned 16 (x.ash (x.dInt a) (x.dInt b)).1) ∧
  (∀ (c : Fin 32) (d a : Fin 16) (n : BitVec 5) (s : State), turfReady c s →
    turfRuns (.tAshi c d a n) c s [.d d] [] (fun _ => [])
      (fun x => ((x.stick srS (x.ash (x.dInt a) n.toInt).2).flagsZN (ofSigned 16 (x.ash (x.dInt a) n.toInt).1)).sr) fun x y =>
        y.dReg d = ofSigned 16 (x.ash (x.dInt a) n.toInt).1) ∧
  (∀ (c : Fin 32) (a b : Fin 16) (s : State), turfReady c s →
    turfRuns (.tCmp c a b) c s [] [] (fun _ => [])
      (fun x => (x.flagsZNC (x.dReg a + 2 ^ 16 - x.dReg b) (x.dReg b ≤ x.dReg a)).sr) fun _ _ => True) ∧
  (∀ (c : Fin 32) (d a : Fin 16) (s : State), turfReady c s →
    turfRuns (.tAbs c d a) c s [.d d] [] (fun _ => [])
      (fun x => ((x.stick srS (x.dReg a % 2 ^ 16 == 0x8000)).flagsZN (min (x.dInt a).natAbs 0x7FFF)).sr) fun x y =>
        y.dReg d = min (x.dInt a).natAbs 0x7FFF) ∧
  (∀ (c : Fin 32) (px : Fin 8) (amx : Fin 4) (py : Fin 8) (amy : Fin 4) (s : State), turfReady c s →
    turfRuns (.tMovm c px amx py amy) c s [.cr px, .cr py] []
      (fun x => [⟨2, .dm (x.p py % 8192), x.dmWord (x.p px) % 2 ^ 16, 0xFFFF⟩]) (·.sr) fun x y =>
        y.p py = stepPtr (if px = py then stepPtr (x.p px) (x.b px) (x.l px) (x.step px amx) else x.p py) (x.b py) (x.l py) (x.step py amy) ∧
        (px ≠ py → y.p px = stepPtr (x.p px) (x.b px) (x.l px) (x.step px amx))) ∧
  (∀ (x : Core) (v : Nat) (c : Bool),
    ((x.flagsZNC v c).srBit 2 = (v % 2 ^ 16 == 0)) ∧ ((x.flagsZNC v c).srBit 3 = (v / 2 ^ 15 % 2 == 1)) ∧ ((x.flagsZNC v c).srBit 4 = c) ∧
    (∀ i, i ≠ 2 → i ≠ 3 → i ≠ 4 → (x.flagsZNC v c).srBit i = x.srBit i) ∧
    ((x.flagsZN v).srBit 2 = (v % 2 ^ 16 == 0)) ∧ ((x.flagsZN v).srBit 3 = (v / 2 ^ 15 % 2 == 1)) ∧
    (∀ i, i ≠ 2 → i ≠ 3 → (x.flagsZN v).srBit i = x.srBit i) ∧
    (x.stick srS c).srBit 1 = (c || x.srBit 1) ∧ (∀ i, i ≠ 1 → (x.stick srS c).srBit i = x.srBit i)) ∧
  (∀ (x : Core) (v n : Int), -(2 ^ 15) ≤ v → v < 2 ^ 15 →
    (∀ k : Nat, n = k → k < 16 → x.ash v n = (satS 16 (v * 2 ^ k), satS 16 (v * 2 ^ k) != v * 2 ^ k)) ∧
    (16 ≤ n → x.ash v n = x.ash v 15) ∧ (n ≤ -16 → x.ash v n = x.ash v (-16)) ∧
    (∀ k : Nat, n = -k → 1 ≤ k → k ≤ 16 → x.rndMode = 0 → x.ash v n = (v / 2 ^ k, false)) ∧
    (∀ k : Nat, n = -k → 1 ≤ k → k ≤ 16 → (x.rndMode = 1 ∨ x.rndMode = 3) → x.ash v n = ((v + 2 ^ (k - 1)) / 2 ^ k, false))) ∧
  (∀ (c : Fin 32) (d a b : Fin 16) (p q : Fin 8) (am an : Fin 4) (r : Fin 64) (imm : BitVec 16) (n : BitVec 5) (s : State),
    (s.tcore c).st ≠ .running →
    ∀ i ∈ [.tNop c, .tLdi c d imm, .tLd c d p am, .tSt c d p am, .tMov c d a, .tMovcFromCr c d r, .tMovcToCr c r d, .tLdc c r imm,
        .tAdd c d a b, .tSub c d a b, .tAnd c d a b, .tOr c d a b, .tXor c d a b, .tAddi c d imm, .tAsh c d a b, .tAshi c d a n,
        .tCmp c a b, .tAbs c d a, .tMovm c p am q an], exec i s = .next s)

/-- On a core that issues with nothing in its way, the instructions of opcodes 0x18 to 0x2B complete. MPY, CLRA and ACP replace their
accumulator; MAC, MSU, MACM, FTAP, ADDA and SHA with a shift of 0 or more put accw of their exact result there, and V is set when it left
40 bits; SHA with a negative shift shifts right. EXT rounds and clamps an accumulator into a d register, setting Z and N and, on a clamp, S.
EXPD, EXPA and BEXP count redundant sign bits. FTAP, BSCL and the address updates act as R330 and R320 say. EXT, EXPA and ACP read an
accumulator as Table 14-6 lets them see it. Nothing else changes, and on a core that is not RUNNING the same commands issue nothing.
Where the spec leaves a point open this states the choice of the model, logged as assumption 46. -/
def Obligations.TurfAccumulators : Prop :=
  (∀ (c : Fin 32) (a : Fin 2) (dx dy : Fin 16) (s : State), turfReady c s →
    turfRuns (.tMpy c a dx dy) c s [] [a] (fun _ => []) (·.sr) fun x y => y.accReg a = x.prod (x.dInt dx) (x.dInt dy)) ∧
  (∀ (c : Fin 32) (a : Fin 2) (dx dy : Fin 16) (s : State), turfReady c s →
    turfRuns (.tMac c a dx dy) c s [] [a] (fun _ => [])
      (fun x => (x.stick srV (x.accw (x.accReg a + x.prod (x.dInt dx) (x.dInt dy))).2).sr) fun x y =>
        y.accReg a = (x.accw (x.accReg a + x.prod (x.dInt dx) (x.dInt dy))).1) ∧
  (∀ (c : Fin 32) (a : Fin 2) (dx dy : Fin 16) (s : State), turfReady c s →
    turfRuns (.tMsu c a dx dy) c s [] [a] (fun _ => [])
      (fun x => (x.stick srV (x.accw (x.accReg a - x.prod (x.dInt dx) (x.dInt dy))).2).sr) fun x y =>
        y.accReg a = (x.accw (x.accReg a - x.prod (x.dInt dx) (x.dInt dy))).1) ∧
  (∀ (c : Fin 32) (a : Fin 2) (px : Fin 8) (amx : Fin 4) (py : Fin 8) (amy : Fin 4) (s : State), turfReady c s →
    turfRuns (.tMacm c a px amx py amy) c s [.cr px, .cr py] [a] (fun _ => [])
      (fun x => (x.stick srV (x.accw (x.accReg a + x.prod (x.dmInt (x.p px)) (x.dmInt (x.p py)))).2).sr) fun x y =>
        y.accReg a = (x.accw (x.accReg a + x.prod (x.dmInt (x.p px)) (x.dmInt (x.p py)))).1 ∧
        y.p py = stepPtr (if px = py then stepPtr (x.p px) (x.b px) (x.l px) (x.step px amx) else x.p py) (x.b py) (x.l py) (x.step py amy) ∧
        (px ≠ py → y.p px = stepPtr (x.p px) (x.b px) (x.l px) (x.step px amx))) ∧
  (∀ (c : Fin 32) (a : Fin 2) (px : Fin 8) (amx : Fin 4) (py : Fin 8) (amy : Fin 4) (s : State), turfReady c s →
    turfRuns (.tFtap c a px amx py amy) c s [.cr px, .cr py] [a]
      (fun x => [⟨2, .dm ((x.p px + 1) % 8192), x.dmWord (x.p px) % 2 ^ 16, 0xFFFF⟩])
      (fun x => (x.stick srV (x.accw (x.accReg a + x.prod (x.dmInt (x.p px)) (x.dmInt (x.p py)))).2).sr) fun x y =>
        y.accReg a = (x.accw (x.accReg a + x.prod (x.dmInt (x.p px)) (x.dmInt (x.p py)))).1 ∧
        y.p py = stepPtr (if px = py then stepPtr (x.p px) (x.b px) (x.l px) (x.step px amx) else x.p py) (x.b py) (x.l py) (x.step py amy) ∧
        (px ≠ py → y.p px = stepPtr (x.p px) (x.b px) (x.l px) (x.step px amx))) ∧
  (∀ (c : Fin 32) (a : Fin 2) (dx : Fin 16) (sh : Fin 25) (s : State), turfReady c s →
    turfRuns (.tAdda c a dx sh) c s [] [a] (fun _ => [])
      (fun x => (x.stick srV (x.accw (x.accReg a + x.dInt dx * 2 ^ sh.val)).2).sr) fun x y =>
        y.accReg a = (x.accw (x.accReg a + x.dInt dx * 2 ^ sh.val)).1) ∧
  (∀ (c : Fin 32) (a : Fin 2) (s : State), turfReady c s →
    turfRuns (.tClra c a) c s [] [a] (fun _ => []) (·.sr) fun _ y => y.accReg a = 0) ∧
  (∀ (c : Fin 32) (a : Fin 2) (s : State), turfReady c s →
    turfRuns (.tAcp c a) c s [] [a] (fun _ => []) (·.sr) fun x y => y.accReg a = x.accLag (1 - a.val)) ∧
  (∀ (c : Fin 32) (d : Fin 16) (a : Fin 2) (n : Fin 25) (s : State), turfReady c s →
    turfRuns (.tExt c d a n) c s [.d d] [] (fun _ => [])
      (fun x => ((x.stick srS (satS 16 (rndBy x.rndMode (x.accLag a) n) != rndBy x.rndMode (x.accLag a) n)).flagsZN
        (ofSigned 16 (satS 16 (rndBy x.rndMode (x.accLag a) n)))).sr) fun x y =>
        y.dReg d = ofSigned 16 (satS 16 (rndBy x.rndMode (x.accLag a) n))) ∧
  (∀ (c : Fin 32) (a : Fin 2) (n : BitVec 6) (s : State), turfReady c s → 0 ≤ n.toInt →
    turfRuns (.tSha c a n) c s [] [a] (fun _ => [])
      (fun x => (x.stick srV (x.accw (x.accReg a * 2 ^ n.toInt.toNat)).2).sr) fun x y =>
        y.accReg a = (x.accw (x.accReg a * 2 ^ n.toInt.toNat)).1) ∧
  (∀ (c : Fin 32) (a : Fin 2) (n : BitVec 6) (s : State), turfReady c s → n.toInt < 0 →
    turfRuns (.tSha c a n) c s [] [a] (fun _ => []) (·.sr) fun x y => y.accReg a = x.accReg a / 2 ^ (-n.toInt).toNat) ∧
  (∀ (c : Fin 32) (d a : Fin 16) (s : State), turfReady c s →
    turfRuns (.tExpd c d a) c s [.d d] [] (fun _ => []) (·.sr) fun x y => y.dReg d = rsb16 (x.dReg a)) ∧
  (∀ (c : Fin 32) (d : Fin 16) (a : Fin 2) (s : State), turfReady c s →
    turfRuns (.tExpa c d a) c s [.d d] [] (fun _ => []) (·.sr) fun x y => toSigned 16 (y.dReg d) = (rsb40 (x.accLag a) : Int) - 8) ∧
  (∀ (c : Fin 32) (d : Fin 16) (p : Fin 8) (am : Fin 4) (s : State), turfReady c s →
    turfRuns (.tBexp c d p am) c s [.d d, .cr p] [] (fun _ => []) (·.sr) fun x y =>
      toSigned 16 (y.dReg d) = min (x.dInt d) (rsb16 (x.dmWord (x.p p))) ∧
      y.p p = stepPtr (x.p p) (x.b p) (x.l p) (x.step p am)) ∧
  (∀ (c : Fin 32) (p : Fin 8) (am : Fin 4) (d : Fin 16) (s : State), turfReady c s →
    turfRuns (.tBscl c p am d) c s [.cr p] []
      (fun x => [⟨2, .dm (x.p p % 8192), ofSigned 16 (x.ash (x.dmInt (x.p p)) (x.dInt d)).1, 0xFFFF⟩])
      (fun x => (x.stick srS (x.ash (x.dmInt (x.p p)) (x.dInt d)).2).sr) fun x y =>
        y.p p = stepPtr (x.p p) (x.b p) (x.l p) (x.step p am)) ∧
  (∀ (x : Core) (v : Int),
    (-(2 ^ 39) ≤ v → v < 2 ^ 39 → x.accw v = (v, false)) ∧
    (2 ^ 39 ≤ v → x.srBit 9 = true → x.accw v = (2 ^ 39 - 1, true)) ∧
    (v < -(2 ^ 39) → x.srBit 9 = true → x.accw v = (-(2 ^ 39), true)) ∧
    ((v < -(2 ^ 39) ∨ 2 ^ 39 ≤ v) → x.srBit 9 = false →
      (x.accw v).2 = true ∧ ((x.accw v).1 - v) % 2 ^ 40 = 0 ∧ -(2 ^ 39) ≤ (x.accw v).1 ∧ (x.accw v).1 < 2 ^ 39) ∧
    (∀ c : Bool, (x.stick srV c).srBit 0 = (c || x.srBit 0) ∧ ∀ i, i ≠ 0 → (x.stick srV c).srBit i = x.srBit i)) ∧
  (∀ (c : Fin 32) (d e : Fin 16) (a : Fin 2) (p q : Fin 8) (am an : Fin 4) (sh : Fin 25) (n : BitVec 6) (s : State),
    (s.tcore c).st ≠ .running →
    ∀ i ∈ [.tMpy c a d e, .tMac c a d e, .tMsu c a d e, .tMacm c a p am q an, .tFtap c a p am q an, .tAdda c a d sh, .tClra c a, .tAcp c a,
        .tExt c d a sh, .tSha c a n, .tExpd c d e, .tExpa c d a, .tBexp c d p am, .tBscl c p am d], exec i s = .next s)

/-- On a core that issues with nothing in its way, B, CALL, RET and RETI start two delay slots; the target follows the second. A branch
ends the loops whose body its target lies outside. CALL pushes the address after the slots, RET and RETI pop; a full or empty stack faults
with cause 3; RETI restores sr, with IE held back until its slots have executed. RPT and RPTD repeat the next instruction, a count of 0 skips
it, a count above 1,024 faults with cause 5. LOOP and LOOPD push a loop, skip a body of count 0, and fault with cause 2 when the end is not
past them and with 4 when four loops are active. A condition above 10, and an instruction placed where R322 to R324 forbid it, fault with
cause 2. HALT ends the run DONE with every queued record kept; IDLE waits unless an enabled interrupt pends.
Where the spec leaves a point open this states the choice of the model, logged as assumption 46. -/
def Obligations.TurfControlFlow : Prop :=
  (∀ (c : Fin 32) (k : Fin 16) (t : Fin 2048) (s : State), turfReady c s → k.val ≤ 10 →
    turfFlows (.tB c k t) c s fun x => if x.cond k then { turfNext (x.leaveLoops t) with br := some ⟨2, some t, false⟩ }
      else { turfNext x with br := some ⟨2, none, false⟩ }) ∧
  (∀ (c : Fin 32) (k : Fin 16) (t : Fin 2048) (s : State), turfReady c s → 10 < k.val →
    (∀ q ∈ (s.tcore c).sendQ, (s.clOut (tcCluster c) q.r).bind (·.ctx) = none) → turfFaults (.tB c k t) c s 2) ∧
  (∀ (x : Core), x.cond 0 = true ∧ x.cond 1 = x.srBit 2 ∧ x.cond 2 = !x.srBit 2 ∧ x.cond 3 = x.srBit 3 ∧ x.cond 4 = !x.srBit 3 ∧
    x.cond 5 = (!x.srBit 3 && !x.srBit 2) ∧ x.cond 6 = (x.srBit 3 || x.srBit 2) ∧ x.cond 7 = x.srBit 4 ∧ x.cond 8 = !x.srBit 4 ∧
    x.cond 9 = x.vL ∧ x.cond 10 = !x.vL) ∧
  (∀ (x : Core) (t : Nat), (∀ l ∈ x.loops, l.1 ≤ t ∧ t ≤ l.2.1) → x.leaveLoops t = x) ∧
  (∀ (x : Core) (t : Nat) (a b : List (Nat × Nat × Nat)) (l : Nat × Nat × Nat), x.loops = a ++ l :: b → l ∉ a → (t < l.1 ∨ l.2.1 < t) →
    (∀ m ∈ b, m.1 ≤ t ∧ t ≤ m.2.1) → (x.leaveLoops t).loops = b ∧ (x.leaveLoops t).lc = l.2.2 % 2 ^ 16) ∧
  (∀ (c : Fin 32) (t : Fin 2048) (s : State), turfReady c s → (s.tcore c).calls.length < 8 →
    turfFlows (.tCall c t) c s fun x => { turfNext x with calls := (x.pc + 3) % 2048 :: x.calls, br := some ⟨2, some t, false⟩ }) ∧
  (∀ (c : Fin 32) (t : Fin 2048) (s : State), turfReady c s → 8 ≤ (s.tcore c).calls.length → (s.tcore c).sendQ = [] →
    turfFaults (.tCall c t) c s 3) ∧
  (∀ (c : Fin 32) (a : Nat) (rest : List Nat) (s : State), turfReady c s → (s.tcore c).calls = a :: rest →
    turfFlows (.tRet c) c s (fun x => { turfNext x with calls := rest, br := some ⟨2, some a, false⟩ }) ∧
    completes (.tReti c) s fun t => onlyCore c s t ∧ (t.tcore c).calls = rest ∧ (t.tcore c).pc = ((s.tcore c).pc + 1) % 2048 ∧
      (t.tcore c).br = some ⟨2, some a, (s.tcore c).shadow / 2 ^ 12 % 2 == 1⟩ ∧
      ∀ i, (t.tcore c).srBit i = if i ∈ [0, 1, 2, 3, 4, 5, 8, 9, 10, 11] then (s.tcore c).shadow / 2 ^ i % 2 == 1
        else i != 12 && (s.tcore c).mature.srBit i) ∧
  (∀ (c : Fin 32) (s : State), turfReady c s → (s.tcore c).calls = [] → (s.tcore c).sendQ = [] →
    turfFaults (.tRet c) c s 3 ∧ turfFaults (.tReti c) c s 3) ∧
  (∀ (c : Fin 32) (n1 : Fin 1024) (s : State), turfReady c s →
    turfFlows (.tRpt c n1) c s fun x => { turfNext x with rpt := some (n1 + 1) }) ∧
  (∀ (c : Fin 32) (a : Fin 16) (s : State), turfReady c s → (s.tcore c).mature.dReg a ≤ 1024 → (s.tcore c).pc < 2047 →
    turfFlows (.tRptd c a) c s fun x => if x.dReg a = 0 then { turfNext x with pc := (x.pc + 2) % 2048, after := true }
      else { turfNext x with rpt := some (x.dReg a) }) ∧
  (∀ (c : Fin 32) (a : Fin 16) (s : State), turfReady c s → 1024 < (s.tcore c).mature.dReg a → (s.tcore c).sendQ = [] →
    turfFaults (.tRptd c a) c s 5) ∧
  (∀ (c : Fin 32) (n : Fin 32768) (t : Fin 2048) (s : State), turfReady c s → (s.tcore c).pc < t.val → (s.tcore c).loops.length < 4 →
    completes (.tLoop c n t) s fun u => onlyCore c s u ∧
      (0 < n.val → (u.tcore c).loops = ((s.tcore c).pc + 1, t.val, (s.tcore c).mature.lc) :: (s.tcore c).loops ∧ (u.tcore c).lc = n ∧
        (u.tcore c).pc = ((s.tcore c).pc + 1) % 2048) ∧
      (n.val = 0 → (∀ l ∈ (s.tcore c).loops, t.val ≠ l.2.1) → (u.tcore c).loops = (s.tcore c).loops ∧ (u.tcore c).pc = (t + 1) % 2048)) ∧
  (∀ (c : Fin 32) (a : Fin 16) (t : Fin 2048) (s : State), turfReady c s → (s.tcore c).pc < t.val → (s.tcore c).loops.length < 4 →
    completes (.tLoopd c a t) s fun u => onlyCore c s u ∧
      (0 < (s.tcore c).mature.dReg a → (u.tcore c).loops = ((s.tcore c).pc + 1, t.val, (s.tcore c).mature.lc) :: (s.tcore c).loops ∧
        (u.tcore c).lc = (s.tcore c).mature.dReg a % 2 ^ 16 ∧ (u.tcore c).pc = ((s.tcore c).pc + 1) % 2048) ∧
      ((s.tcore c).mature.dReg a = 0 → (∀ l ∈ (s.tcore c).loops, t.val ≠ l.2.1) →
        (u.tcore c).loops = (s.tcore c).loops ∧ (u.tcore c).pc = (t + 1) % 2048)) ∧
  (∀ (c : Fin 32) (n : Fin 32768) (a : Fin 16) (t : Fin 2048) (s : State), turfReady c s → (s.tcore c).sendQ = [] →
    (t.val ≤ (s.tcore c).pc → turfFaults (.tLoop c n t) c s 2 ∧ turfFaults (.tLoopd c a t) c s 2) ∧
    ((s.tcore c).pc < t.val → 4 ≤ (s.tcore c).loops.length → turfFaults (.tLoop c n t) c s 4 ∧ turfFaults (.tLoopd c a t) c s 4)) ∧
  (∀ (c : Fin 32) (s : State), turfReady c s →
    completes (.tHalt c) s fun t => (t.tcore c).st = .halted ∧ (t.tcore c).d = (s.tcore c).mature.retire.d ∧
      (t.tcore c).dm = (s.tcore c).mature.retire.dm ∧ (t.tcore c).late = [] ∧ (t.tcore c).sendQ = (s.tcore c).sendQ ∧
      (t.tcore c).ring = (s.tcore c).ring ∧ (t.tcore c).cycles = ((s.tcore c).cycles + 1) % 2 ^ 64 ∧
      t.fld (rTC_STATUS c) fTC_STATUS_RESULT = 1 ∧ t.fld (rTC_STATUS c) fTC_STATUS_CAUSE = 0 ∧
      t.fld (rTC_STATUS c) fTC_STATUS_RUNS = (s.fld (rTC_STATUS c) fTC_STATUS_RUNS + 1) % 2 ^ 16 ∧
      (∀ k, k ≠ c.val → t.tcore k = s.tcore k) ∧ onlyIn (mEvent ||| mTurf) [rTC_STATUS c] [384 + 4 * c] s t) ∧
  (∀ (c : Fin 32) (s : State), turfReady c s →
    completes (.tIdle c) s fun t => onlyCore c s t ∧ (t.tcore c).late = (s.tcore c).mature.late ∧
      (t.tcore c).cycles = ((s.tcore c).cycles + 1) % 2 ^ 64 ∧
      ((s.tcore c).mature.pending = 0 → (t.tcore c).st = .idle ∧ (t.tcore c).pc = (s.tcore c).pc) ∧
      ((s.tcore c).mature.pending ≠ 0 → (t.tcore c).st = .running ∧ (t.tcore c).pc = ((s.tcore c).pc + 1) % 2048)) ∧
  (∀ (c : Fin 32) (n : Nat) (d : Option Nat) (ie : Bool) (s : State), (s.tcore c).st = .running → (s.tcore c).rpt = none →
    (s.tcore c).br = some ⟨n, d, ie⟩ → s.fld (rTC_TIMER c) fTC_TIMER_EN = 0 → s.fld (rTC_LIMIT c) fTC_LIMIT_CYCLES = 0 →
    (1 < n → turfFlows (.tNop c) c s fun x => { turfNext x with br := some ⟨n - 1, d, ie⟩ }) ∧
    (∀ a, n = 1 → d = some a → completes (.tNop c) s fun t => onlyCore c s t ∧ (t.tcore c).pc = a ∧ (t.tcore c).br = none ∧
      (t.tcore c).srBit 12 = (ie || (s.tcore c).mature.srBit 12)) ∧
    ((s.tcore c).sendQ = [] → turfFaults (.tHalt c) c s 2)) ∧
  (∀ (c : Fin 32) (n : Nat) (s : State), (s.tcore c).st = .running → (s.tcore c).rpt = some n → (s.tcore c).br = none →
    (∀ l ∈ (s.tcore c).loops, (s.tcore c).pc ≠ l.2.1 ∧ (s.tcore c).pc + 1 ≠ l.2.1) →
    s.fld (rTC_TIMER c) fTC_TIMER_EN = 0 → s.fld (rTC_LIMIT c) fTC_LIMIT_CYCLES = 0 →
    (1 < n → turfFlows (.tNop c) c s fun x => { turfNext x with pc := x.pc, rpt := some (n - 1) }) ∧
    (n = 1 → turfFlows (.tNop c) c s fun x => { turfNext x with rpt := none, after := true }) ∧
    ((s.tcore c).sendQ = [] → turfFaults (.tRelr c) c s 2)) ∧
  (∀ (c : Fin 32) (st en sv : Nat) (rest : List (Nat × Nat × Nat)) (s : State), (s.tcore c).st = .running → (s.tcore c).rpt = none →
    (s.tcore c).br = none → (s.tcore c).loops = (st, en, sv) :: rest → (s.tcore c).pc = en → st ≤ en → (∀ l ∈ rest, en ≠ l.2.1) →
    s.fld (rTC_TIMER c) fTC_TIMER_EN = 0 → s.fld (rTC_LIMIT c) fTC_LIMIT_CYCLES = 0 →
    (1 < (s.tcore c).mature.lc → completes (.tNop c) s fun t => onlyCore c s t ∧ (t.tcore c).pc = st ∧
      (t.tcore c).lc = ((s.tcore c).mature.lc - 1) % 2 ^ 16 ∧ (t.tcore c).loops = (s.tcore c).loops) ∧
    ((s.tcore c).mature.lc ≤ 1 → completes (.tNop c) s fun t => onlyCore c s t ∧ (t.tcore c).pc = (en + 1) % 2048 ∧
      (t.tcore c).lc = sv % 2 ^ 16 ∧ (t.tcore c).loops = rest) ∧
    ((s.tcore c).sendQ = [] → turfFaults (.tHalt c) c s 2)) ∧
  (∀ (c : Fin 32) (k : Fin 16) (t : Fin 2048) (n1 : Fin 1024) (n : Fin 32768) (s : State), (s.tcore c).st ≠ .running →
    ∀ i ∈ [.tB c k t, .tCall c t, .tRet c, .tReti c, .tRpt c n1, .tRptd c k, .tLoop c n t, .tLoopd c k t, .tHalt c, .tIdle c],
      exec i s = .next s)

/-- On a core with nothing late, no loop and nothing in its way: the value of LD reaches its d register for the second instruction after it
and not the first, that of ST reaches DM likewise, that of LDC reaches a pointer for the third and not the second, and the result of MPY
reaches EXT, EXPA and ACP (which read the lagging accumulator) for the second and not the first.
Where the spec leaves a point open this states the choice of the model, logged as assumptions 33, 70. -/
def Obligations.TurfLatencies : Prop :=
  (∀ (c : Fin 32) (d : Fin 16) (p : Fin 8) (am : Fin 4) (s : State), turfReady c s → (s.tcore c).late = [] → (s.tcore c).loops = [] →
    ∃ t u, exec (.tLd c d p am) s = .next t ∧ exec (.tNop c) t = .next u ∧
      (t.tcore c).mature.dReg d = (s.tcore c).dReg d ∧
      (u.tcore c).mature.dReg d = (s.tcore c).dmWord ((s.tcore c).p p) % 2 ^ 16) ∧
  (∀ (c : Fin 32) (d : Fin 16) (p : Fin 8) (am : Fin 4) (s : State), turfReady c s → (s.tcore c).late = [] → (s.tcore c).loops = [] →
    ∃ t u, exec (.tSt c d p am) s = .next t ∧ exec (.tNop c) t = .next u ∧
      (∀ w, (t.tcore c).mature.dmWord w = (s.tcore c).dmWord w) ∧
      (∀ w, w % 8192 ≠ (s.tcore c).p p % 8192 → (u.tcore c).mature.dmWord w = (s.tcore c).dmWord w) ∧
      (u.tcore c).mature.dmWord ((s.tcore c).p p) = (s.tcore c).dReg d % 2 ^ 16) ∧
  (∀ (c : Fin 32) (p : Fin 8) (imm : BitVec 16) (s : State), turfReady c s → (s.tcore c).late = [] → (s.tcore c).loops = [] →
    ∃ t u v, exec (.tLdc c ⟨p, by omega⟩ imm) s = .next t ∧ exec (.tNop c) t = .next u ∧ exec (.tNop c) u = .next v ∧
      (t.tcore c).mature.p p = (s.tcore c).p p ∧ (u.tcore c).mature.p p = (s.tcore c).p p ∧
      (v.tcore c).mature.p p = imm.toNat % 8192) ∧
  (∀ (c : Fin 32) (a : Fin 2) (x y : Fin 16) (s : State), turfReady c s → (s.tcore c).late = [] → (s.tcore c).loops = [] →
    ∃ t u, exec (.tMpy c a x y) s = .next t ∧ exec (.tNop c) t = .next u ∧
      (t.tcore c).mature.accLag a = (s.tcore c).accReg a ∧
      (u.tcore c).mature.accLag a = (s.tcore c).prod ((s.tcore c).dInt x) ((s.tcore c).dInt y) ∧
      (t.tcore c).accReg a = (u.tcore c).mature.accLag a)

/-- On a core that issues with nothing in its way: GETR takes the oldest record it has not returned, sets the pointer to its first word and
base and length to the ring's, and LOSS if one was lost; with none it stalls. RELR frees the oldest returned record, or nothing. SEND queues
a record whose length is a multiple of 64 of at most 16,384 bytes, stalls on a full queue, and faults with cause 6 on a bad length and 7 on a
route the cluster lacks. SWAIT stalls while a record is queued. MBR reads a word of the inbound mailbox, MBW writes one of the outbound,
MBACK frees the inbound channel, MBPOST sets outbound FULL and raises TC_MBOX, or stalls while FULL is 1.
Where the spec leaves a point open this states the choice of the model, logged as assumptions 33, 46. -/
def Obligations.TurfRecordsAndMailbox : Prop :=
  (∀ (c : Fin 32) (p : Fin 8) (a b : List TRec) (r : TRec) (s : State), turfReady c s → (s.tcore c).ring = a ++ r :: b →
    (∀ q ∈ a, q.ret = true) → r.ret = false →
    completes (.tGetr c p) s fun t => onlyCore c s t ∧ (t.tcore c).ring = a ++ { r with ret := true } :: b ∧
      (t.tcore c).p p = r.at_ % 8192 ∧ (t.tcore c).b p = s.fld (rTC_SIN c) fTC_SIN_BASE ∧ (t.tcore c).l p = s.fld (rTC_SIN c) fTC_SIN_LEN ∧
      (t.tcore c).srBit 5 = ((s.tcore c).loss || (s.tcore c).mature.srBit 5) ∧ (t.tcore c).loss = false ∧
      (t.tcore c).pc = ((s.tcore c).pc + 1) % 2048 ∧ (t.tcore c).d = (s.tcore c).mature.d ∧ (t.tcore c).acc = (s.tcore c).acc) ∧
  (∀ (c : Fin 32) (p : Fin 8) (s : State), turfReady c s → (∀ q ∈ (s.tcore c).ring, q.ret = true) →
    turfFlows (.tGetr c p) c s (turfStall (.getr p))) ∧
  (∀ (c : Fin 32) (r : TRec) (rest : List TRec) (s : State), turfReady c s → (s.tcore c).ring = r :: rest → r.ret = true →
    turfFlows (.tRelr c) c s fun x => { turfNext x with ring := rest }) ∧
  (∀ (c : Fin 32) (s : State), turfReady c s → (∀ r ∈ (s.tcore c).ring.head?, r.ret = false) → turfFlows (.tRelr c) c s turfNext) ∧
  (∀ (c : Fin 32) (p : Fin 8) (r : Fin 4) (len : Nat) (s : State), turfReady c s → s.clOut (tcCluster c) r ≠ none →
    (let x := (s.tcore c).mature
     len = 32 + x.dmWord (stepPtr (x.p p) (x.b p) (x.l p) 12) + x.dmWord (stepPtr (x.p p) (x.b p) (x.l p) 13) * 2 ^ 16) →
    (len % 64 = 0 → len ≤ 16384 → (s.tcore c).sendQ.length < 4 →
      turfFlows (.tSend c p r) c s fun x => { turfNext x with sendQ := x.sendQ ++ [⟨x.p p, x.b p, x.l p, r, len⟩] }) ∧
    (len % 64 = 0 → len ≤ 16384 → 4 ≤ (s.tcore c).sendQ.length →
      turfFlows (.tSend c p r) c s fun x => turfStall (.send ⟨x.p p, x.b p, x.l p, r, len⟩) x) ∧
    ((len % 64 ≠ 0 ∨ 16384 < len) → (s.tcore c).sendQ = [] → turfFaults (.tSend c p r) c s 6)) ∧
  (∀ (c : Fin 32) (p : Fin 8) (r : Fin 4) (s : State), turfReady c s → s.clOut (tcCluster c) r = none → (s.tcore c).sendQ = [] →
    turfFaults (.tSend c p r) c s 7) ∧
  (∀ (c : Fin 32) (s : State), turfReady c s →
    ((s.tcore c).sendQ = [] → turfFlows (.tSwait c) c s turfNext) ∧
    ((s.tcore c).sendQ ≠ [] → turfFlows (.tSwait c) c s (turfStall .swait))) ∧
  (∀ (c : Fin 32) (d w : Fin 16) (s : State), turfReady c s →
    turfRuns (.tMbr c d w) c s [] [] (fun _ => [⟨2, .d d, (s.rd (rTC_MBIN c (w.val / 4))).toNat / 2 ^ (16 * (w.val % 4)) % 2 ^ 16, 0xFFFF⟩])
      (·.sr) fun x y => y.dReg d = x.dReg d) ∧
  (∀ (c : Fin 32) (w d : Fin 16) (s : State), turfReady c s →
    completes (.tMbw c w d) s fun t =>
      (t.rd (rTC_MBOUT c (w.val / 4))).toNat / 2 ^ (16 * (w.val % 4)) % 2 ^ 16 = (s.tcore c).mature.dReg d % 2 ^ 16 ∧
      (∀ j < 4, j ≠ w.val % 4 → (t.rd (rTC_MBOUT c (w.val / 4))).toNat / 2 ^ (16 * j) % 2 ^ 16 =
        (s.rd (rTC_MBOUT c (w.val / 4))).toNat / 2 ^ (16 * j) % 2 ^ 16) ∧
      t.tcore c = turfNext (s.tcore c).mature ∧ (∀ k, k ≠ c.val → t.tcore k = s.tcore k) ∧
      onlyIn (mRegs ||| mTurf) [rTC_MBOUT c (w.val / 4)] [] s t) ∧
  (∀ (c : Fin 32) (s : State), turfReady c s →
    completes (.tMback c) s fun t => t.fld (rTC_MBIN_CTRL c) fTC_MBIN_CTRL_FULL = 0 ∧
      t.fld (rTC_MBIN_CTRL c) fTC_MBIN_CTRL_OVERRUN = s.fld (rTC_MBIN_CTRL c) fTC_MBIN_CTRL_OVERRUN ∧
      t.tcore c = turfNext (s.tcore c).mature ∧ (∀ k, k ≠ c.val → t.tcore k = s.tcore k) ∧
      onlyIn (mRegs ||| mTurf) [rTC_MBIN_CTRL c] [] s t) ∧
  (∀ (c : Fin 32) (s : State), turfReady c s → s.flag (rTC_MBOUT_CTRL c) fTC_MBOUT_CTRL_FULL = false →
    completes (.tMbpost c) s fun t => t.flag (rTC_MBOUT_CTRL c) fTC_MBOUT_CTRL_FULL = true ∧
      t.tcore c = turfNext (s.tcore c).mature ∧ (∀ k, k ≠ c.val → t.tcore k = s.tcore k) ∧
      onlyIn (mEvent ||| mTurf) [rTC_MBOUT_CTRL c] [386 + 4 * c] s t) ∧
  (∀ (c : Fin 32) (s : State), turfReady c s → s.flag (rTC_MBOUT_CTRL c) fTC_MBOUT_CTRL_FULL = true →
    turfFlows (.tMbpost c) c s (turfStall .mbpost)) ∧
  (∀ (c : Fin 32) (p : Fin 8) (r : Fin 4) (d w : Fin 16) (s : State), (s.tcore c).st ≠ .running →
    ∀ i ∈ [.tGetr c p, .tRelr c, .tSend c p r, .tSwait c, .tMbr c d w, .tMbw c w d, .tMback c, .tMbpost c], exec i s = .next s)

/-- In READY, RUN starts a halted core at ENTRY with empty stacks, sr, ier and ipr 0 and its memories, registers and queues kept; on a core
that is not halted it counts in CMD_DISC. ABORT ends a run with cause 1 and does nothing to a halted core. PM takes an instruction while the
core is halted and counts the access in PM_DISC otherwise; DM takes two words at any time. TC_SIN is held when it is in range and the ring is
empty, and counted in CFG_DISC otherwise. Inbound mailbox words and POST are taken while FULL is 0 and set OVERRUN otherwise; ACK clears
outbound FULL. The watchdog ends a run with cause 8, the timer sets ipr bit 2 while EN is 1, and an enabled pending interrupt is taken as
R327 says: the lowest number first, pc on the call stack, sr in the shadow, IE and the bit cleared, and pc at the vector.
Where the spec leaves a point open this states the choice of the model, logged as assumptions 24, 28. -/
def Obligations.TurfRuns : Prop :=
  (∀ (c : Fin 32) (v : Word) (s : State), s.ready = true → (s.tcore c).st = .halted →
    completes (.tcRun c v) s fun t =>
      (t.tcore c).st = .running ∧ (t.tcore c).pc = fget v fTC_CTRL_ENTRY ∧ (t.tcore c).calls = [] ∧ (t.tcore c).loops = [] ∧
      (t.tcore c).sr = 0 ∧ (t.tcore c).ier = 0 ∧ (t.tcore c).ipr = 0 ∧ (t.tcore c).cycles = 0 ∧
      (∀ i < 33, (t.tcore c).crReg i = (s.tcore c).crReg i) ∧
      ((t.tcore c).pm, (t.tcore c).dm, (t.tcore c).d, (t.tcore c).acc, (t.tcore c).sendQ) =
        ((s.tcore c).pm, (s.tcore c).dm, (s.tcore c).d, (s.tcore c).acc, (s.tcore c).sendQ) ∧
      (t.tcore c).ring = (s.tcore c).ring.map (fun r => { r with ret := false }) ∧
      t.fld (rTC_STATUS c) fTC_STATUS_RESULT = 0 ∧ t.fld (rTC_STATUS c) fTC_STATUS_CAUSE = 0 ∧
      (∀ k, k ≠ c.val → t.tcore k = s.tcore k) ∧ onlyIn (mRegs ||| mStaged ||| mTurf) [rTC_CTRL c, rTC_STATUS c] [] s t) ∧
  (∀ (c : Fin 32) (v : Word) (s : State), s.ready = true → (s.tcore c).st ≠ .halted → fget v fTC_CTRL_ABORT = 0 →
    completes (.tcRun c v) s fun t =>
      t.fld (rTC_STAT c) fTC_STAT_CMD_DISC = satN 16 (s.fld (rTC_STAT c) fTC_STAT_CMD_DISC + 1) ∧ t.turf = s.turf ∧
      onlyIn (mRegs ||| mStaged) [rTC_CTRL c, rTC_STAT c] [] s t) ∧
  (∀ (c : Fin 32) (v : Word) (s : State), s.ready = true → (s.tcore c).st ≠ .halted → fget v fTC_CTRL_RUN = 0 →
    (∀ q ∈ (s.tcore c).sendQ, (s.clOut (tcCluster c) q.r).bind (·.ctx) = none) →
    completes (.tcAbort c v) s fun t => (t.tcore c).st = .halted ∧ (t.tcore c).sendQ = [] ∧ (t.tcore c).late = [] ∧
      t.fld (rTC_STATUS c) fTC_STATUS_RESULT = 2 ∧ t.fld (rTC_STATUS c) fTC_STATUS_CAUSE = 1 ∧
      t.fld (rTC_STATUS c) fTC_STATUS_RUNS = (s.fld (rTC_STATUS c) fTC_STATUS_RUNS + 1) % 2 ^ 16 ∧
      t.fld (rTC_SOUT_STAT c) fTC_SOUT_STAT_DISCARDED =
        satN 16 (s.fld (rTC_SOUT_STAT c) fTC_SOUT_STAT_DISCARDED + (s.tcore c).sendQ.length) ∧
      onlyIn (mEvent ||| mStaged ||| mTurf) [rTC_CTRL c, rTC_STATUS c, rTC_SOUT_STAT c] [385 + 4 * c] s t) ∧
  (∀ (c : Fin 32) (v : Word) (s : State), s.ready = true → (s.tcore c).st = .halted → fget v fTC_CTRL_RUN = 0 →
    exec (.tcAbort c v) s =
      .next ((s.dropStaged .host (rTC_CTRL c)).setFld (rTC_CTRL c) fTC_CTRL_ENTRY (fget v fTC_CTRL_ENTRY))) ∧
  (∀ (c : Fin 32) (a : Fin 2048) (v : BitVec 32) (s : State), s.ready = true →
    completes (.tcPmWrite c a v) s fun t =>
      ((s.tcore c).st = .halted → t.tcore c = { s.tcore c with pm := SMap.set 0 (s.tcore c).pm a v.toNat } ∧ onlyCore c s t) ∧
      ((s.tcore c).st ≠ .halted → t.fld (rTC_STAT c) fTC_STAT_PM_DISC = satN 16 (s.fld (rTC_STAT c) fTC_STAT_PM_DISC + 1) ∧
        onlyIn mRegs [rTC_STAT c] [] s t)) ∧
  (∀ (c : Fin 32) (a : Fin 4096) (v : BitVec 32) (s : State), s.ready = true →
    completes (.tcDmWrite c a v) s fun t => onlyCore c s t ∧ (t.tcore c).dmWord (2 * a) = v.toNat % 2 ^ 16 ∧
      (t.tcore c).dmWord (2 * a + 1) = v.toNat / 2 ^ 16 ∧
      (∀ w < 8192, w ≠ 2 * a.val → w ≠ 2 * a.val + 1 → (t.tcore c).dmWord w = (s.tcore c).dmWord w) ∧
      { t.tcore c with dm := (s.tcore c).dm } = s.tcore c) ∧
  (∀ (c : Fin 32) (v : Word) (s : State), s.ready = true →
    ((s.tcore c).ring = [] →
      (fget v fTC_SIN_LEN = 0 ∨ 64 ≤ fget v fTC_SIN_LEN ∧ fget v fTC_SIN_LEN ≤ 8192 ∧ fget v fTC_SIN_LEN % 32 = 0) →
      fget v fTC_SIN_BASE % 32 = 0 → fget v fTC_SIN_BASE + fget v fTC_SIN_LEN ≤ 8192 →
      completes (.tcSinWrite c v) s fun t => t.fld (rTC_SIN c) fTC_SIN_LEN = fget v fTC_SIN_LEN ∧
        t.fld (rTC_SIN c) fTC_SIN_BASE = fget v fTC_SIN_BASE ∧ t.tcore c = { s.tcore c with wptr := fget v fTC_SIN_BASE } ∧
        onlyIn (mRegs ||| mStaged ||| mTurf) [rTC_SIN c] [] s t) ∧
    ((s.tcore c).ring ≠ [] →
      exec (.tcSinWrite c v) s = .next ((s.dropStaged .host (rTC_SIN c)).addSat (rTC_STAT c) fTC_STAT_CFG_DISC 1))) ∧
  (∀ (c : Fin 32) (k : Fin 4) (v : Word) (s : State), s.ready = true →
    (s.flag (rTC_MBIN_CTRL c) fTC_MBIN_CTRL_FULL = false →
      exec (.tcMbinWrite c k v) s = .next ((s.dropStaged .host (rTC_MBIN c k)).wr (rTC_MBIN c k) v)) ∧
    (s.flag (rTC_MBIN_CTRL c) fTC_MBIN_CTRL_FULL = true →
      exec (.tcMbinWrite c k v) s = .next ((s.dropStaged .host (rTC_MBIN c k)).setFld (rTC_MBIN_CTRL c) fTC_MBIN_CTRL_OVERRUN 1))) ∧
  (∀ (c : Fin 32) (v : Word) (s : State), s.ready = true →
    completes (.tcMbinPost c v) s fun t => t.flag (rTC_MBIN_CTRL c) fTC_MBIN_CTRL_FULL = true ∧
      t.flag (rTC_MBIN_CTRL c) fTC_MBIN_CTRL_OVERRUN = (s.flag (rTC_MBIN_CTRL c) fTC_MBIN_CTRL_FULL ||
        (s.flag (rTC_MBIN_CTRL c) fTC_MBIN_CTRL_OVERRUN && fget v fTC_MBIN_CTRL_OVERRUN == 0)) ∧
      (s.flag (rTC_MBIN_CTRL c) fTC_MBIN_CTRL_FULL = false → (t.tcore c).ipr % 2 = 1) ∧
      (s.flag (rTC_MBIN_CTRL c) fTC_MBIN_CTRL_FULL = true → t.turf = s.turf) ∧
      onlyIn (mRegs ||| mStaged ||| mTurf) [rTC_MBIN_CTRL c] [] s t) ∧
  (∀ (c : Fin 32) (v : Word) (s : State), s.ready = true →
    completes (.tcMboutAck c v) s fun t =>
      ((s.tcore c).wait ≠ some .mbpost → t.flag (rTC_MBOUT_CTRL c) fTC_MBOUT_CTRL_FULL = false) ∧
      ((s.tcore c).wait = some .mbpost → t.flag (rTC_MBOUT_CTRL c) fTC_MBOUT_CTRL_FULL = true ∧ (t.tcore c).st = .running) ∧
      onlyIn (mEvent ||| mStaged ||| mTurf) [rTC_MBOUT_CTRL c] [386 + 4 * c] s t) ∧
  (∀ (c : Fin 32) (s : State), s.flag (rTC_TIMER c) fTC_TIMER_EN = true →
    completes (.tcTimerExpiry c) s fun t => onlyCore c s t ∧ (t.tcore c).ipr / 4 % 2 = 1 ∧ (t.tcore c).timer = 0 ∧
      (t.tcore c).d = (s.tcore c).d ∧ (t.tcore c).acc = (s.tcore c).acc ∧ ((s.tcore c).st ≠ .idle → (t.tcore c).pc = (s.tcore c).pc)) ∧
  (∀ (c : Fin 32) (s : State), s.flag (rTC_TIMER c) fTC_TIMER_EN = false → exec (.tcTimerExpiry c) s = .next s) ∧
  (∀ (c : Fin 32) (s : State), (s.tcore c).st ≠ .halted → s.fld (rTC_LIMIT c) fTC_LIMIT_CYCLES ≠ 0 → (s.tcore c).sendQ = [] →
    completes (.tcWatchdog c) s fun t => (t.tcore c).st = .halted ∧ s.fld (rTC_LIMIT c) fTC_LIMIT_CYCLES ≤ (t.tcore c).cycles ∧
      t.fld (rTC_STATUS c) fTC_STATUS_RESULT = 2 ∧ t.fld (rTC_STATUS c) fTC_STATUS_CAUSE = 8 ∧
      onlyIn (mEvent ||| mTurf) [rTC_STATUS c, rTC_SOUT_STAT c] [385 + 4 * c] s t) ∧
  (∀ (c : Fin 32) (s : State), (s.tcore c).st = .halted ∨ s.fld (rTC_LIMIT c) fTC_LIMIT_CYCLES = 0 → exec (.tcWatchdog c) s = .next s) ∧
  (∀ (c : Fin 32) (i : Nat) (s : State), (s.tcore c).irqReady = true → (s.tcore c).calls.length < 8 → i < 4 →
    (s.tcore c).pending / 2 ^ i % 2 = 1 → (∀ j < i, (s.tcore c).pending / 2 ^ j % 2 = 0) →
    s.fld (rTC_TIMER c) fTC_TIMER_EN = 0 → s.fld (rTC_LIMIT c) fTC_LIMIT_CYCLES = 0 →
    completes (.tcInterrupt c) s fun t => onlyCore c s t ∧ (t.tcore c).st = .running ∧ (t.tcore c).wait = none ∧
      (t.tcore c).pc = 8 * (i + 1) ∧ (t.tcore c).calls = (s.tcore c).pc :: (s.tcore c).calls ∧ (t.tcore c).shadow = (s.tcore c).sr ∧
      (t.tcore c).srBit 12 = false ∧ (∀ j, j ≠ 12 → (t.tcore c).srBit j = (s.tcore c).srBit j) ∧
      (t.tcore c).ipr = (s.tcore c).ipr - 2 ^ i ∧ (t.tcore c).cycles = ((s.tcore c).cycles + 3) % 2 ^ 64 ∧
      (t.tcore c).d = (s.tcore c).d ∧ (t.tcore c).acc = (s.tcore c).acc ∧ (t.tcore c).dm = (s.tcore c).dm) ∧
  (∀ (c : Fin 32) (s : State), (s.tcore c).irqReady = false → exec (.tcInterrupt c) s = .next s) ∧
  (∀ (c : Fin 32) (s : State), (s.tcore c).irqReady = true → 8 ≤ (s.tcore c).calls.length → (s.tcore c).sendQ = [] →
    turfFaults (.tcInterrupt c) c s 3)

/-- A cluster takes the next record of an input slot whole: a core alone in CORES with room for it holds the record's words in its ring after
the previous record, wrapping at the ring's end, and RECEIVED and RECORDS count it; a record larger than the ring is not delivered, OVERSIZE
counts it and the loss is marked; without room the record waits. A readout takes the queued record of the core whose turn it is, sends it to
the store port of its route as a TURF_OUT record with the payload from DM and the GAP flag of a lost record, and counts it in SENT and
RECORDS; the last one sets SEND_DONE; one whose WAIT route has no credit stays queued. With nothing to take, or with the dividers held,
neither does anything.
Where the spec leaves a point open this states the choice of the model, logged as assumption 11. -/
def Obligations.TurfClusters : Prop :=
  (∀ (k : Fin 4) (i j : Fin 8) (rt : Route) (r : RRec) (s : State), s.clIn k i = some rt →
    (SMap.get [] s.replay (clSquare k)).find? (·.route == rt.num) = some r →
    fget (s.rd (rTCL_IN k i)) fTCL_IN_CORES = 2 ^ j.val → s.ringLen (8 * k + j) ≠ 0 →
    ((r.hdr ++ r.bytes).length + 1) / 2 + (s.tcore (8 * k + j)).fill ≤ s.ringLen (8 * k + j) →
    s.fld (rTC_SIN (8 * k + j)) fTC_SIN_BASE + s.ringLen (8 * k + j) ≤ 8192 → (s.tcore (8 * k + j)).wait = none → s.held = false →
    completes (.tcRecordArrival k i) s fun t =>
      (t.tcore (8 * k + j)).ring = (s.tcore (8 * k + j)).ring ++
        [⟨(s.tcore (8 * k + j)).wptr, ((r.hdr ++ r.bytes).length + 1) / 2, false⟩] ∧
      (∀ w, w < ((r.hdr ++ r.bytes).length + 1) / 2 →
        (t.tcore (8 * k + j)).dmWord (s.fld (rTC_SIN (8 * k + j)) fTC_SIN_BASE +
          ((s.tcore (8 * k + j)).wptr - s.fld (rTC_SIN (8 * k + j)) fTC_SIN_BASE + w) % s.ringLen (8 * k + j)) =
        leNat (((r.hdr ++ r.bytes).drop (2 * w)).take 2)) ∧
      ((s.tcore (8 * k + j)).ring.all (·.ret) = true → (t.tcore (8 * k + j)).ipr / 2 % 2 = 1) ∧
      t.fld (rTC_SIN_STAT (8 * k + j)) fTC_SIN_STAT_RECEIVED = (s.fld (rTC_SIN_STAT (8 * k + j)) fTC_SIN_STAT_RECEIVED + 1) % 2 ^ 32 ∧
      t.fld (rTCL_IN k i) fTCL_IN_RECORDS = (s.fld (rTCL_IN k i) fTCL_IN_RECORDS + 1) % 2 ^ 32 ∧
      (∀ c, c ≠ 8 * k.val + j → t.tcore c = s.tcore c) ∧
      onlyIn (mEvent ||| mReplay ||| mTurf ||| mClusters) [rTC_SIN_STAT (8 * k + j), rTCL_IN k i] [] s t) ∧
  (∀ (k : Fin 4) (i j : Fin 8) (rt : Route) (r : RRec) (s : State), s.clIn k i = some rt →
    (SMap.get [] s.replay (clSquare k)).find? (·.route == rt.num) = some r →
    fget (s.rd (rTCL_IN k i)) fTCL_IN_CORES = 2 ^ j.val → s.ringLen (8 * k + j) ≠ 0 →
    s.ringLen (8 * k + j) < ((r.hdr ++ r.bytes).length + 1) / 2 → s.held = false →
    completes (.tcRecordArrival k i) s fun t =>
      t.tcore (8 * k + j) = { s.tcore (8 * k + j) with loss := true, gap := true } ∧
      t.fld (rTC_SIN_STAT (8 * k + j)) fTC_SIN_STAT_OVERSIZE = satN 16 (s.fld (rTC_SIN_STAT (8 * k + j)) fTC_SIN_STAT_OVERSIZE + 1) ∧
      t.fld (rTC_SIN_STAT (8 * k + j)) fTC_SIN_STAT_RECEIVED = s.fld (rTC_SIN_STAT (8 * k + j)) fTC_SIN_STAT_RECEIVED ∧
      onlyIn (mEvent ||| mReplay ||| mTurf ||| mClusters) [rTC_SIN_STAT (8 * k + j), rTCL_IN k i] [387 + 4 * (8 * k + j)] s t) ∧
  (∀ (k : Fin 4) (i j : Fin 8) (rt : Route) (r : RRec) (s : State), s.clIn k i = some rt →
    (SMap.get [] s.replay (clSquare k)).find? (·.route == rt.num) = some r →
    fget (s.rd (rTCL_IN k i)) fTCL_IN_CORES = 2 ^ j.val → ((r.hdr ++ r.bytes).length + 1) / 2 ≤ s.ringLen (8 * k + j) →
    s.ringLen (8 * k + j) < ((r.hdr ++ r.bytes).length + 1) / 2 + (s.tcore (8 * k + j)).fill →
    exec (.tcRecordArrival k i) s = .next s) ∧
  (∀ (k : Fin 4) (i : Fin 8) (s : State), s.held = true ∨ s.clIn k i = none ∨ SMap.get [] s.replay (clSquare k) = [] →
    exec (.tcRecordArrival k i) s = .next s) ∧
  (∀ (k : Fin 4) (j : Fin 8) (q : TSend) (rest : List TSend) (rt : Route) (p : Nat) (s : State), (s.cluster k).out = j →
    (s.tcore (8 * k + j)).sendQ = q :: rest → s.clOut k q.r = some rt → rt.dsts = [70 + p] → p < 16 →
    (s.tcore (8 * k + j)).wait = none → s.held = false → s.hoGap = false → s.noCredit rt (70 + p) = false →
    completes (.tcClusterReadout k) s fun t => (t.tcore (8 * k + j)).sendQ = rest ∧ (t.tcore (8 * k + j)).gap = false ∧
      (rest = [] → (t.tcore (8 * k + j)).ipr / 8 % 2 = 1) ∧ (t.cluster k).out = (j.val + 1) % 8 ∧
      t.fld (rTC_SOUT_STAT (8 * k + j)) fTC_SOUT_STAT_SENT = (s.fld (rTC_SOUT_STAT (8 * k + j)) fTC_SOUT_STAT_SENT + 1) % 2 ^ 32 ∧
      (∃ r : Prod, (SMap.get ⟨[]⟩ t.ports p).inbox = (SMap.get ⟨[]⟩ s.ports p).inbox ++ [r] ∧ r.typ = 0x60 ∧ r.ctx = rt.ctx.getD 0 ∧
        r.pre = ((s.tcore (8 * k + j)).retire.sendBytes q).drop 32 ∧ r.items = 1 ∧ r.canWait = rt.wait ∧
        r.flags &&& flGap = if (s.tcore (8 * k + j)).gap then flGap else 0) ∧
      (∀ c, c ≠ 8 * k.val + j → t.tcore c = s.tcore c) ∧
      onlyIn (mEvent ||| mPorts ||| mTurf ||| mClusters) [rTC_SOUT_STAT (8 * k + j), rTCL_OUT k q.r] [] s t) ∧
  (∀ (k : Fin 4) (j : Fin 8) (q : TSend) (rest : List TSend) (rt : Route) (s : State),
    (∀ i < 8, i ≠ j.val → (s.tcore (8 * k + i)).sendQ = []) → (s.tcore (8 * k + j)).sendQ = q :: rest → s.clOut k q.r = some rt →
    rt.wait = true → (∃ d ∈ rt.dsts, s.noCredit rt d = true) → exec (.tcClusterReadout k) s = .next s) ∧
  (∀ (k : Fin 4) (s : State), (s.held = true ∨ ∀ j < 8, (s.tcore (8 * k + j)).sendQ = []) → exec (.tcClusterReadout k) s = .next s)

/-- The record at the head of a port's inbox, of an OPEN context whose credit is not withheld and whose tail billet has room, is written at
the tail: the store holds header, payload and tail fill there and no other byte changes, SEQ, the stream position and the epoch advance, and
the gathered flags go out with it. A record of a CLOSED context is discarded, one of a DRAINING one counts in LOST. Past the bucket's tokens
a replayed or waiting route waits and any other record is shed and counted. Without a billet STALL withholds credit, SHED counts the record
and its items, sets GAP and keeps the flags to carry on. Credit comes back when the resume command finds tokens or a billet. A held FAULT record is written as soon as it
fits. Nothing waiting: nothing happens.
Where the spec leaves a point open this states the choice of the model, logged as assumptions 3, 31, 57, 58. -/
def Obligations.RecordsReachTheStore : Prop :=
  (∀ (p : Fin 16) (s : State), (∀ r ∈ (s.port p).inbox, (s.ctx r.ctx).waiting ≠ none) → exec (.recordArrival p) s = .next s) ∧
  (∀ (p : Fin 16) (r : Prod) (rest : List Prod) (s : State), (s.port p).inbox = r :: rest → (s.ctx r.ctx).waiting = none →
    (s.ctx r.ctx).st = .closed → r.ring = [] →
    exec (.recordArrival p) s = .next (s.onPorts fun _ => SMap.set ⟨[]⟩ s.ports p ⟨rest⟩)) ∧
  (∀ (p : Fin 16) (r : Prod) (rest : List Prod) (s : State), (s.port p).inbox = r :: rest → (s.ctx r.ctx).waiting = none →
    (s.ctx r.ctx).st = .draining → r.ring = [] →
    exec (.recordArrival p) s = .next ((s.updCtx r.ctx fun c => { c with lost := satN 64 (c.lost + r.items) }).onPorts fun _ =>
      SMap.set ⟨[]⟩ s.ports p ⟨rest⟩)) ∧
  (∀ (p : Fin 16) (r : Prod) (rest : List Prod) (b off d : Nat) (c : Ctx) (s : State), (s.port p).inbox = r :: rest → s.ctx r.ctx = c →
    c.waiting = none → c.st = .opened → r.epoch = none → 0 < s.extFree →
    (r.policed = true ∨ c.rate = 0) → c.faults = [] → c.tail = some (b, off) → off + r.size ≤ 16384 → r.ring = [] →
    r.typ ≠ tyFault → r.typ ≠ tyPad → (∀ q ∈ c.recs, q.pos + q.len ≤ c.wpos) → d < 4 → d ∈ c.destList → (c.dest d).fin ≤ c.wpos →
    completes (.recordArrival p) s fun t =>
      (t.port p).inbox = rest ∧ (t.ctx r.ctx).seq = c.seq + 1 ∧ (t.ctx r.ctx).wpos = c.wpos + r.size ∧ (t.ctx r.ctx).flags = 0 ∧
      (t.ctx r.ctx).lastGood = r.time ∧ (t.ctx r.ctx).lost = c.lost ∧
      (t.ctx r.ctx).epoch = (if c.epochPend then (c.epoch + 1) % 65536 else c.epoch) ∧
      (∃ q ∈ (t.ctx r.ctx).recs, q.seq = c.seq ∧ q.epoch = (t.ctx r.ctx).epoch ∧ q.typ = r.typ ∧ q.pos = c.wpos ∧ q.len = r.size ∧
        q.items = r.items) ∧
      t.store.read 0 (16384 * b + off) r.size =
        header r.typ (r.devid.getD (s.fld rGLB_DEVID fGLB_DEVID_DEVID)) r.ctx (t.ctx r.ctx).epoch c.seq r.time (r.size - 32) r.fine
          (r.flags ||| c.flags ||| if s.inHoldover then flHoldover else 0) ++ r.pre ++ r.post ++ tailFill (r.pre.length + r.post.length) ∧
      (∀ a, a < 16384 * b + off ∨ 16384 * b + off + r.size ≤ a → t.store.byte 0 a = s.store.byte 0 a) ∧
      Touches (mEvent ||| mFreeCtr ||| mStore ||| mCtxs ||| mBillets ||| mPorts ||| mBadLines) s t) ∧
  (∀ (p : Fin 16) (r : Prod) (rest : List Prod) (c : Ctx) (s : State), (s.port p).inbox = r :: rest → s.ctx r.ctx = c →
    c.waiting = none → c.st = .opened → r.ring = [] →
    r.policed = false → c.rate ≠ 0 → s.tokensNow c < r.size * 65536 → r.ctx < 4096 →
    (r.canWait = true → r.size ≤ 64 * c.burst →
      exec (.recordArrival p) s = .next ((s.updCtx r.ctx fun c => { c with waiting := some (s.time, 1) }).onPorts fun _ =>
        SMap.set ⟨[]⟩ s.ports p ⟨r :: rest⟩)) ∧
    (r.canWait = false ∨ 64 * c.burst < r.size →
      completes (.recordArrival p) s fun t => (t.port p).inbox = rest ∧ (t.ctx r.ctx).shed = satN 32 (c.shed + r.items) ∧
        (t.ctx r.ctx).lost = satN 64 (c.lost + r.items) ∧ (t.ctx r.ctx).flags = c.flags ||| flGap ||| r.flags &&& flCarried ∧ (t.ctx r.ctx).seq = c.seq ∧
        t.fld (rADM_CTX_STAT r.ctx) fADM_CTX_STAT_SHED_REC = satN 32 (s.fld (rADM_CTX_STAT r.ctx) fADM_CTX_STAT_SHED_REC + 1) ∧
        onlyIn (mEvent ||| mCtxs ||| mPorts) [rADM_CTX_STAT r.ctx] [576 + r.ctx / 64] s t)) ∧
  (∀ (p : Fin 16) (r : Prod) (rest : List Prod) (c : Ctx) (s : State), (s.port p).inbox = r :: rest → s.ctx r.ctx = c →
    c.waiting = none → c.st = .opened →
    (r.policed = true ∨ c.rate = 0) → r.ring = [] → (c.faults ≠ [] ∨ s.roomFor c r.size s.extFree = false) →
    (c.policy = 0 →
      completes (.recordArrival p) s fun t => (t.port p).inbox = { r with policed := true } :: rest ∧
        t.ctx r.ctx = { c with waiting := some (s.time, 2) } ∧ onlyIn (mEvent ||| mCtxs ||| mPorts) [] [641] s t) ∧
    (c.policy = 1 ∨ c.policy = 2 ∧ c.recs = [] →
      completes (.recordArrival p) s fun t => (t.port p).inbox = rest ∧ (t.ctx r.ctx).lost = satN 64 (c.lost + r.items) ∧
        (t.ctx r.ctx).overflow = satN 32 (c.overflow + 1) ∧ (t.ctx r.ctx).flags = c.flags ||| flGap ||| r.flags &&& flCarried ∧ (t.ctx r.ctx).seq = c.seq ∧
        onlyIn (mEvent ||| mCtxs ||| mPorts) [] [641] s t)) ∧
  (∀ (x : Fin 4096) (p t0 : Nat) (r : Prod) (b off : Nat) (s : State), s.ports = [(p, ⟨[r]⟩)] → r.ctx = x → (s.ctx x).waiting = some (t0, 1) →
    (s.ctx x).st = .opened → 0 < s.extFree → r.policed = false → (s.ctx x).rate ≠ 0 →
    r.size * 65536 ≤ s.tokensNow (s.ctx x) → (s.ctx x).faults = [] → (s.ctx x).tail = some (b, off) → off + r.size ≤ 16384 → r.ring = [] →
    completes (.policingCreditResume x) s fun t => (t.port p).inbox = [] ∧ (t.ctx x).waiting = none ∧ (t.ctx x).seq = (s.ctx x).seq + 1 ∧
      (t.ctx x).tokens = s.tokensNow (s.ctx x) - r.size * 65536 ∧ (t.ctx x).tokTime = s.time ∧
      t.fld (rADM_CTX_STAT x) fADM_CTX_STAT_STALL_US =
        satN 32 (s.fld (rADM_CTX_STAT x) fADM_CTX_STAT_STALL_US + s.ticksUs (s.time - t0)) ∧
      Touches (mEvent ||| mFreeCtr ||| mStore ||| mCtxs ||| mBillets ||| mPorts ||| mBadLines) s t) ∧
  (∀ (x : Fin 4096) (p t0 : Nat) (r : Prod) (b off : Nat) (s : State), s.ports = [(p, ⟨[r]⟩)] → r.ctx = x → (s.ctx x).waiting = some (t0, 2) →
    (s.ctx x).st = .opened → 0 < s.extFree → r.policed = true →
    (s.ctx x).faults = [] → (s.ctx x).tail = some (b, off) → off + r.size ≤ 16384 → r.ring = [] →
    completes (.overflowStallResume x) s fun t => (t.port p).inbox = [] ∧ (t.ctx x).waiting = none ∧ (t.ctx x).seq = (s.ctx x).seq + 1 ∧
      (t.ctx x).lost = (s.ctx x).lost ∧
      Touches (mEvent ||| mFreeCtr ||| mStore ||| mCtxs ||| mBillets ||| mPorts ||| mBadLines) s t) ∧
  (∀ (x : Fin 4096) (s : State),
    ((∀ t0, (s.ctx x).waiting ≠ some (t0, 1)) → exec (.policingCreditResume x) s = .next s) ∧
    ((∀ t0, (s.ctx x).waiting ≠ some (t0, 2)) → exec (.overflowStallResume x) s = .next s) ∧
    ((s.ctx x).faults = [] → (s.ctx x).st ≠ .draining → exec (.faultRecordDeferred x) s = .next s)) ∧
  (∀ (x : Fin 4096) (f : FaultRec) (b off : Nat) (s : State), (s.ctx x).faults = [f] → (s.ctx x).st = .opened →
    (s.ctx x).tail = some (b, off) → off + 64 ≤ 16384 → 0 < s.extFree →
    completes (.faultRecordDeferred x) s fun t => (t.ctx x).faults = [] ∧ (t.ctx x).seq = (s.ctx x).seq + 1 ∧
      (t.ctx x).wpos = (s.ctx x).wpos + 64 ∧
      t.store.read 0 (16384 * b + off) 64 =
        header tyFault (s.fld rGLB_DEVID fGLB_DEVID_DEVID) x (s.ctx x).epoch (s.ctx x).seq f.time 32 0 0 ++
          leBytes 8 (f.code + f.source * 2 ^ 16) ++ leBytes 8 f.lost ++ leBytes 8 f.lastGood ++ leBytes 8 f.detail ∧
      (∀ a, a < 16384 * b + off ∨ 16384 * b + off + 64 ≤ a → t.store.byte 0 a = s.store.byte 0 a) ∧
      Touches (mEvent ||| mFreeCtr ||| mStore ||| mCtxs ||| mBillets ||| mBadLines) s t)

/-- In READY, with the store initialised and out of self-refresh: TAKE of a billet of the named context adds a software reference, FREE takes
one away, both say so in STO_CMD_STATUS, and a refusal names its reason and changes no billet; FLUSH pads the tail of an OPEN context; DISCARD
ends the holds on a DRAINING cord, which closes; QUERY and a snapshot show a billet and a context. While the store is being initialised every
command is counted in CMD_DISC. The bias switch of a billet ends as R351 and R422 say, ZC_RELEASE and CTX_FLUSH act on an open page and count
in DB_DISC on a closed one, the zero-copy timer flushes a waiting tail, and a store port replays the next record and ends its hold on it, unless
a WAIT route of it has a branch that is taken up.
Where the spec leaves a point open this states the choice of the model, logged as assumptions 3, 32, 47, 57. -/
def Obligations.WoodyardCommands : Prop :=
  (∀ (s : State), s.ready = true → s.flag rMEM_MAP fMEM_MAP_MAP_BUSY = true →
    ∀ i ∈ [Instr.stoTake, .stoFree, .stoFlush, .stoDiscard, .stoQuery],
      exec i s = .next ((s.dropStaged .host rSTO_CMD).addSat rSTO_CNT1 fSTO_CNT1_CMD_DISC 1)) ∧
  (∀ (x b : Nat) (s : State), s.ready = true → s.flag rMEM_MAP fMEM_MAP_MAP_BUSY = false → s.selfRefresh = false →
    s.fld rSTO_CMD_ARG fSTO_CMD_ARG_CONTEXT = x → s.fld rSTO_CMD_ARG fSTO_CMD_ARG_BILLET = b →
    (b < nBillets → (s.billet b).used = true → (s.billet b).owner = x → ((s.ctx x).exts.any fun e => e.billet == b) = true →
      (s.billet b).writer = false → s.refOf b < 255 → (s.billet b).swref < 15 →
      completes .stoTake s fun t => t.billet b = { s.billet b with swref := (s.billet b).swref + 1 } ∧
        (∀ k, k ≠ b → t.billet k = s.billet k) ∧ t.fld rSTO_CMD_STATUS fSTO_CMD_STATUS_RESULT = 1 ∧
        t.fld rSTO_CMD_STATUS fSTO_CMD_STATUS_REASON = 0 ∧ onlyIn (mRegs ||| mStaged ||| mBillets) [rSTO_CMD_STATUS] [] s t) ∧
    (b < nBillets → (s.billet b).used = false →
      completes .stoTake s fun t => t.billets = s.billets ∧ t.fld rSTO_CMD_STATUS fSTO_CMD_STATUS_RESULT = 2 ∧
        t.fld rSTO_CMD_STATUS fSTO_CMD_STATUS_REASON = 1 ∧ onlyIn (mRegs ||| mStaged) [rSTO_CMD_STATUS] [] s t) ∧
    (b < nBillets → (s.billet b).used = true → (s.billet b).owner ≠ x →
      completes .stoTake s fun t => t.billets = s.billets ∧ t.fld rSTO_CMD_STATUS fSTO_CMD_STATUS_RESULT = 2 ∧
        t.fld rSTO_CMD_STATUS fSTO_CMD_STATUS_REASON = 2 ∧ onlyIn (mRegs ||| mStaged) [rSTO_CMD_STATUS] [] s t) ∧
    (b < nBillets → 2 ≤ (s.billet b).swref → (s.billet b).used = true → (s.billet b).hbias = false → (s.billet b).switch = none →
      completes .stoFree s fun t =>
        t.billet b = { s.billet b with swref := (s.billet b).swref - 1, defer := true } ∧ (∀ k, k ≠ b → t.billet k = s.billet k) ∧
        t.fld rSTO_CNT0 fSTO_CNT0_FREE_DEFERRED = satN 32 (s.fld rSTO_CNT0 fSTO_CNT0_FREE_DEFERRED + 1) ∧
        t.fld rSTO_CMD_STATUS fSTO_CMD_STATUS_RESULT = 1 ∧ t.fld rSTO_CMD_STATUS fSTO_CMD_STATUS_REASON = 0 ∧
        onlyIn (mRegs ||| mStaged ||| mBillets) [rSTO_CMD_STATUS, rSTO_CNT0] [] s t) ∧
    (b < nBillets → (s.billet b).swref = 1 → (s.billet b).used = true → (s.billet b).hbias = false → (s.billet b).switch = none →
      (s.billet b).writer = false → s.closing b = false → s.holders b = [] →
      completes .stoFree s fun t => t.billet b = billet0 ∧ (∀ k, k ≠ b → t.billet k = s.billet k) ∧
        t.fld rSTO_CNT0 fSTO_CNT0_FREES = (s.fld rSTO_CNT0 fSTO_CNT0_FREES + 1) % 2 ^ 32 ∧
        (t.ctx (s.billet b).owner).held = (s.ctx (s.billet b).owner).held - 1 ∧
        t.fld rSTO_CMD_STATUS fSTO_CMD_STATUS_RESULT = 1 ∧
        onlyIn (mRegs ||| mStaged ||| mBillets ||| mCtxs) [rSTO_CMD_STATUS, rSTO_CNT0] [] s t) ∧
    (b < nBillets → (s.billet b).swref = 0 →
      completes .stoFree s fun t => t.billets = s.billets ∧ t.fld rSTO_CMD_STATUS fSTO_CMD_STATUS_RESULT = 2 ∧
        t.fld rSTO_CMD_STATUS fSTO_CMD_STATUS_REASON = 5 ∧
        t.fld rSTO_CNT1 fSTO_CNT1_FREE_BAD = satN 16 (s.fld rSTO_CNT1 fSTO_CNT1_FREE_BAD + 1) ∧
        onlyIn (mEvent ||| mStaged) [rSTO_CMD_STATUS, rSTO_CNT1] [642] s t) ∧
    (b < nBillets →
      completes .stoQuery s fun t => t.fld rSTO_CMD_STATUS fSTO_CMD_STATUS_RESULT = 1 ∧ t.fld rSTO_BQ fSTO_BQ_BILLET = b ∧
        t.fld rSTO_BQ fSTO_BQ_OWNER = (s.billet b).owner % 2 ^ 12 ∧ t.fld rSTO_BQ fSTO_BQ_REF = s.refOf b % 2 ^ 8 ∧
        t.fld rSTO_BQ fSTO_BQ_SWREF = (s.billet b).swref % 2 ^ 4 ∧ t.flag rSTO_BQ fSTO_BQ_WRITER = (s.billet b).writer ∧
        t.flag rSTO_BQ fSTO_BQ_HBIAS = (s.billet b).hbias ∧
        (t.fld rSTO_BQ fSTO_BQ_STATE = 0 ↔ (s.billet b).used = false) ∧ onlyIn (mRegs ||| mStaged) [rSTO_BQ, rSTO_CMD_STATUS] [] s t) ∧
    (nBillets ≤ b → ∀ i ∈ [Instr.stoTake, .stoFree, .stoQuery],
      completes i s fun t => t.fld rSTO_CMD_STATUS fSTO_CMD_STATUS_RESULT = 2 ∧ t.fld rSTO_CMD_STATUS fSTO_CMD_STATUS_REASON = 7 ∧
        onlyIn (mRegs ||| mStaged) [rSTO_CMD_STATUS] [] s t) ∧
    ((s.ctx x).st = .opened → (s.ctx x).tail = none →
      completes .stoFlush s fun t => t.fld rSTO_CMD_STATUS fSTO_CMD_STATUS_RESULT = 1 ∧ onlyIn (mRegs ||| mStaged) [rSTO_CMD_STATUS] [] s t) ∧
    ((s.ctx x).st ≠ .opened →
      completes .stoFlush s fun t => t.fld rSTO_CMD_STATUS fSTO_CMD_STATUS_RESULT = 2 ∧ t.fld rSTO_CMD_STATUS fSTO_CMD_STATUS_REASON = 6 ∧
        onlyIn (mRegs ||| mStaged) [rSTO_CMD_STATUS] [] s t) ∧
    (∀ k off, (s.ctx x).st = .opened → (s.ctx x).tail = some (k, off) → off % 64 = 0 → off < 16384 →
      completes .stoFlush s fun t => t.fld rSTO_CMD_STATUS fSTO_CMD_STATUS_RESULT = 1 ∧ (t.ctx x).tail = none ∧
        (t.ctx x).wpos = (s.ctx x).wpos + (16384 - off) ∧ (t.ctx x).seq = (s.ctx x).seq ∧
        (∀ a, a < 16384 * k + off ∨ 16384 * (k + 1) ≤ a → t.store.byte 0 a = s.store.byte 0 a)) ∧
    ((s.ctx x).st = .opened →
      completes .stoDiscard s fun t => t.fld rSTO_CMD_STATUS fSTO_CMD_STATUS_RESULT = 2 ∧ t.fld rSTO_CMD_STATUS fSTO_CMD_STATUS_REASON = 6 ∧
        onlyIn (mRegs ||| mStaged) [rSTO_CMD_STATUS] [] s t) ∧
    ((s.ctx x).st = .draining → (s.ctx x).dests.length = 4 + (s.ctx x).olds.length → (∀ o ∈ (s.ctx x).olds, o.upto ≤ (s.ctx x).wpos) →
      completes .stoDiscard s fun t => t.fld rSTO_CMD_STATUS fSTO_CMD_STATUS_RESULT = 1 ∧ (t.ctx x).st = .closed ∧ (t.ctx x).recs = [] ∧
        (t.ctx x).lost = satN 64 ((s.ctx x).lost + (((s.ctx x).recs.filter fun r => (s.ctx x).destList.any fun d =>
          ((s.ctx x).dest d).doneTo < r.pos + r.len && !r.skips d).foldl (fun k r => k + r.items) 0)) ∧ t.store = s.store)) ∧
  (∀ (v : Word) (x : Nat) (s : State), s.ready = true → fget v fSTO_CSNAP_CONTEXT = x →
    completes (.stoCsnap v) s fun t => t.fld rSTO_CSNAP fSTO_CSNAP_SEQ = (s.fld rSTO_CSNAP fSTO_CSNAP_SEQ + 1) % 2 ^ 32 ∧
      t.fld rSTO_CSNAP fSTO_CSNAP_CONTEXT = x ∧ t.rd rSTO_CSNAP0 = BitVec.ofNat 64 (s.ctx x).seq ∧
      t.rd rSTO_CSNAP2 = BitVec.ofNat 64 (s.ctx x).lost ∧ t.fld rSTO_CSNAP3 fSTO_CSNAP3_OVERFLOW = (s.ctx x).overflow % 2 ^ 32 ∧
      t.fld rSTO_CSNAP3 fSTO_CSNAP3_SHED = (s.ctx x).shed % 2 ^ 32 ∧
      onlyIn (mRegs ||| mStaged) [rSTO_CSNAP, rSTO_CSNAP0, rSTO_CSNAP1, rSTO_CSNAP2, rSTO_CSNAP3] [] s t) ∧
  (∀ (b : Fin 1835008) (s : State),
    ((s.billet b).switch = none → exec (.biasSwitchDone b) s = .next s) ∧
    ((s.billet b).switch = some true →
      completes (.biasSwitchDone b) s fun t => (t.billet b).hbias = true ∧ ((s.billet b).swref ≠ 0 → (t.billet b).switch = none) ∧
        ((s.billet b).used = true → (s.billet b).swref = 0 → s.holders b = [] → (t.billet b).switch = some false) ∧
        t.fld rGLB_HIF_BIAS fGLB_HIF_BIAS_TO_HOST = (s.fld rGLB_HIF_BIAS fGLB_HIF_BIAS_TO_HOST + 1) % 2 ^ 32 ∧
        onlyIn (mEvent ||| mCtxs ||| mBillets) [rGLB_HIF_BIAS] [644] s t) ∧
    ((s.billet b).switch = some false → (s.billet b).used = true → (s.billet b).swref = 0 → (s.billet b).writer = false → s.closing b = false →
      s.holders b = [] → completes (.biasSwitchDone b) s fun t => t.billet b = billet0 ∧ (∀ k : Nat, k ≠ b → t.billet k = s.billet k) ∧
        t.fld rGLB_HIF_BIAS fGLB_HIF_BIAS_TO_DEVICE = (s.fld rGLB_HIF_BIAS fGLB_HIF_BIAS_TO_DEVICE + 1) % 2 ^ 32 ∧
        onlyIn (mRegs ||| mCtxs ||| mBillets) [rGLB_HIF_BIAS, rSTO_CNT0] [] s t)) ∧
  (∀ (x : Fin 4096) (s : State),
    ((s.ctx x).tail = none ∨ (s.ctx x).st ≠ .opened → exec (.zcFlushTimer x) s = .next s) ∧
    (∀ k off d, (s.ctx x).tail = some (k, off) → (s.ctx x).st = .opened → off % 64 = 0 → off < 16384 → d ∈ (s.ctx x).destList →
      (s.ctx x).destType d = 2 →
      completes (.zcFlushTimer x) s fun t => (t.ctx x).tail = none ∧ (t.ctx x).wpos = (s.ctx x).wpos + (16384 - off) ∧
        (s.held = false → t.time = max s.time ((s.ctx x).zcFirst + s.usTicks (s.ctx x).zcFlushUs)) ∧
        Touches (mEvent ||| mTime ||| mFreeCtr ||| mStore ||| mCtxs ||| mBillets ||| mBadLines) s t)) ∧
  (∀ (x : Fin 4096) (v : Word) (s : State), s.awake = true →
    ((s.ctx x).st = .closed →
      exec (.zcRelease x v) s = .next s.dbDiscard ∧ exec (.ctxFlush x v) s = .next s.dbDiscard) ∧
    ((s.ctx x).st = .opened → v.toNat % 65536 = 0 → exec (.zcRelease x v) s = .next s) ∧
    (∀ d, (s.ctx x).st = .opened → 0 < v.toNat % 65536 → v.toNat % 65536 ≤ (s.ctx x).zcPub - (s.ctx x).zcRel →
      (s.ctx x).destList.find? (fun d => (s.ctx x).destType d == 2) = some d →
      completes (.zcRelease x v) s fun t => (t.ctx x).zcRel = (s.ctx x).zcRel + v.toNat % 65536 ∧ (t.ctx x).st = .opened ∧ t.time = s.time ∧
        Touches (mEvent ||| mCtxs ||| mBillets) s t) ∧
    ((s.ctx x).st = .opened → (s.ctx x).zcPub - (s.ctx x).zcRel < v.toNat % 65536 →
      exec (.zcRelease x v) s = .next ((s.addSat rSTO_CNT1 fSTO_CNT1_ZC_BAD_RELEASE 1).raise 645 (some x))) ∧
    ((s.ctx x).st = .opened ∧ (s.ctx x).tail = none ∨ (s.ctx x).st = .draining → exec (.ctxFlush x v) s = .next s) ∧
    (∀ k off, (s.ctx x).st = .opened → (s.ctx x).tail = some (k, off) → off % 64 = 0 → off < 16384 →
      completes (.ctxFlush x v) s fun t => (t.ctx x).tail = none ∧ (t.ctx x).wpos = (s.ctx x).wpos + (16384 - off) ∧
        Touches (mEvent ||| mFreeCtr ||| mStore ||| mCtxs ||| mBillets ||| mBadLines) s t)) ∧
  (∀ (p : Fin 16) (s : State), s.glb ≠ 0 →
    (s.held = true ∨ s.serveNext 5 p = none → exec (.replaySend p) s = .next s) ∧
    (∀ x d r, s.held = false → s.serveNext 5 p = some (x, d, r) → r.typ = tyPad →
      exec (.replaySend p) s =
        .next (((s.beginRec x d r).deliveredTo x d (r.pos + r.len)).finishTo x d (r.pos + r.len))) ∧
    (∀ x d r, s.held = false → s.serveNext 5 p = some (x, d, r) → r.typ ≠ tyPad → s.routesFrom (70 + p) = [] →
      exec (.replaySend p) s =
        .next ((((s.beginRec x d r).deliveredTo x d (r.pos + r.len)).finishTo x d (r.pos + r.len)).hadTurn 5 p (s.ctx x).cls x true)) ∧
    (∀ x d r, s.held = false → s.serveNext 5 p = some (x, d, r) → r.typ ≠ tyPad →
      (∀ rt ∈ s.routesFrom (70 + p), rt.wait = true → ∀ q ∈ rt.dsts, s.branchBusy rt q = false) →
      completes (.replaySend p) s fun t => ((s.ctx x).cls < 2 → t.served = s.served) ∧
        (2 ≤ (s.ctx x).cls → SMap.get 0 t.served (turnKey 5 p (s.ctx x).cls) = x + 1) ∧
        (∀ rt q, s.routesFrom (70 + p) = [rt] → rt.dsts = [q] → s.takesRecords q = true → s.branchBusy rt q = false →
          ∃ v : RRec, SMap.get [] t.replay q = SMap.get [] s.replay q ++ [v] ∧ v.route = rt.num ∧ v.ctx = x ∧ v.items = r.items ∧
            v.hdr ++ v.bytes = s.copyRec x d r) ∧
        Touches (mEvent ||| mFreeCtr ||| mStore ||| mCtxs ||| mBillets ||| mPorts ||| mAside ||| mServed ||| mBadLines ||| mXfm ||| mLt |||
          mAu ||| mReplay ||| mCmp) s t) ∧
    (∀ x d r rt q, s.serveNext 5 p = some (x, d, r) → r.typ ≠ tyPad → rt ∈ s.routesFrom (70 + p) → rt.wait = true → q ∈ rt.dsts →
      s.branchBusy rt q = true → exec (.replaySend p) s = .next s))

/-- In READY with the store initialised: OPEN of a valid entry of a CLOSED context whose set passes every test opens the context with that
entry, SEQ and EPOCH 0, and says so; one that fails changes no context and names REASON, RESOURCE and CONTEXT; TEST answers alike and opens
nothing; CLOSE drains an OPEN runtime context and refuses any other. Every command while the store is being initialised counts in CMD_DISC.
A snapshot is numbered. A deadline miss counts in MISSES and marks the record; under DROP the record is left out at that destination and
counts as lost, a FAULT record never; without a deadline to miss nothing happens.
Where the spec leaves a point open this states the choice of the model, logged as assumptions 11, 25. -/
def Obligations.AdmissionAndDeadlines : Prop :=
  (∀ (s : State), s.ready = true → s.flag rMEM_MAP fMEM_MAP_MAP_BUSY = true →
    ∀ i ∈ [Instr.admOpen, .admClose, .admTest],
      exec i s = .next ((s.dropStaged .host rADM_CMD).addSat rADM_COUNT fADM_COUNT_CMD_DISC 1)) ∧
  (∀ (e : List Word) (x : Nat) (s : State), s.ready = true → s.flag rMEM_MAP fMEM_MAP_MAP_BUSY = false → s.selfRefresh = false →
    e = (upTo 8).map (fun i => s.rd (rADM_ENTRY i)) → x = entryFld e 0 ⟨0, 12⟩ →
    ((entryValid e (s.flag rGLB_STATUS fGLB_STATUS_CXL_MODE) = false ∨ contractOk e = false) →
      ∀ i ∈ [Instr.admOpen, .admTest], completes i s fun t =>
        t.fld rADM_STATUS fADM_STATUS_RESULT = 3 ∧ t.fld rADM_STATUS fADM_STATUS_REASON = 6 ∧ t.fld rADM_STATUS fADM_STATUS_RESOURCE = 63 ∧
        t.fld rADM_STATUS fADM_STATUS_CONTEXT = x ∧
        t.fld rADM_COUNT fADM_COUNT_REJECTED = (s.fld rADM_COUNT fADM_COUNT_REJECTED + 1) % 2 ^ 24 ∧
        onlyIn (mEvent ||| mStaged) ([rADM_STATUS, rADM_COUNT, rADM_SNAP, rADM_LOAD0, rADM_LOAD1] ++ (upTo 34).map rADM_RES) [657] s t) ∧
    (entryValid e (s.flag rGLB_STATUS fGLB_STATUS_CXL_MODE) = true → contractOk e = true →
      (∀ c ∈ s.ctxs, c.2.st = .opened → c.1 ≠ x → ∀ ch ∈ entryChannels c.2.entry, ch ∉ entryChannels e) →
      ((s.ctx x).st ≠ .closed → ∀ i ∈ [Instr.admOpen, .admTest], completes i s fun t =>
        t.fld rADM_STATUS fADM_STATUS_RESULT = 3 ∧ t.fld rADM_STATUS fADM_STATUS_REASON = 7 ∧ t.ctxs = s.ctxs) ∧
      ((s.ctx x).st = .closed → s.flag rADM_STATUS fADM_STATUS_OVERCOMMIT = true → completes .admOpen s fun t =>
        t.fld rADM_STATUS fADM_STATUS_RESULT = 3 ∧ t.fld rADM_STATUS fADM_STATUS_REASON = 9 ∧ t.ctxs = s.ctxs) ∧
      ((s.ctx x).st = .closed → s.flag rADM_STATUS fADM_STATUS_OVERCOMMIT = false → s.fld rPLAN_STATUS fPLAN_STATUS_STATE ≠ 2 →
        (s.admTest (s.admitted ++ [⟨x, e, 0⟩]) (s.admitted.map (·.x)) = none →
          (completes .admOpen s fun t => (t.ctx x).st = .opened ∧ (t.ctx x).entry = e ∧ (t.ctx x).runtime = true ∧ (t.ctx x).seq = 0 ∧
            (t.ctx x).epoch = 0 ∧ (∀ k, k ≠ x → t.ctx k = s.ctx k) ∧ t.fld rADM_STATUS fADM_STATUS_RESULT = 1 ∧
            t.fld rADM_STATUS fADM_STATUS_REASON = 0 ∧
            t.fld rADM_COUNT fADM_COUNT_ADMITTED = (s.fld rADM_COUNT fADM_COUNT_ADMITTED + 1) % 2 ^ 24 ∧
            onlyIn (mEvent ||| mStaged ||| mCtxs)
              ([rADM_STATUS, rADM_COUNT, rADM_CTX x, rADM_SNAP, rADM_LOAD0, rADM_LOAD1] ++ (upTo 34).map rADM_RES) [656] s t) ∧
          completes .admTest s fun t => t.fld rADM_STATUS fADM_STATUS_RESULT = 1 ∧ t.fld rADM_STATUS fADM_STATUS_REASON = 0 ∧
            onlyIn (mRegs ||| mStaged) ([rADM_STATUS, rADM_SNAP, rADM_LOAD0, rADM_LOAD1] ++ (upTo 34).map rADM_RES) [] s t) ∧
        (∀ f, s.admTest (s.admitted ++ [⟨x, e, 0⟩]) (s.admitted.map (·.x)) = some f →
          ∀ i ∈ [Instr.admOpen, .admTest], completes i s fun t =>
            t.fld rADM_STATUS fADM_STATUS_RESULT = 2 ∧ t.fld rADM_STATUS fADM_STATUS_REASON = f.1 % 16 ∧
            t.fld rADM_STATUS fADM_STATUS_RESOURCE = f.2.1 % 64 ∧ t.fld rADM_STATUS fADM_STATUS_CONTEXT = f.2.2 % 4096 ∧
            t.ctxs = s.ctxs)))) ∧
  (∀ (x : Nat) (s : State), s.ready = true → s.flag rMEM_MAP fMEM_MAP_MAP_BUSY = false → s.fld rADM_ARG fADM_ARG_CONTEXT = x →
    ((s.ctx x).st = .opened → (s.ctx x).runtime = true →
      completes .admClose s fun t => (t.ctx x).st ≠ .opened ∧ t.fld rADM_STATUS fADM_STATUS_RESULT = 0 ∧
        Touches (mEvent ||| mStaged ||| mFreeCtr ||| mStore ||| mCtxs ||| mBillets ||| mBadLines) s t) ∧
    ((s.ctx x).st ≠ .opened → completes .admClose s fun t =>
      t.fld rADM_STATUS fADM_STATUS_RESULT = 3 ∧ t.fld rADM_STATUS fADM_STATUS_REASON = 7 ∧ t.ctxs = s.ctxs) ∧
    ((s.ctx x).st = .opened → (s.ctx x).runtime = false → completes .admClose s fun t =>
      t.fld rADM_STATUS fADM_STATUS_RESULT = 3 ∧ t.fld rADM_STATUS fADM_STATUS_REASON = 8 ∧ t.ctxs = s.ctxs)) ∧
  (∀ (v : Word) (s : State), s.ready = true →
    completes (.admSnap v) s fun t => t.fld rADM_SNAP fADM_SNAP_SEQ = (s.fld rADM_SNAP fADM_SNAP_SEQ + 1) % 2 ^ 32 ∧
      t.fld rADM_LOAD0 fADM_LOAD0_STORE_LOAD = s.storeLoad s.admitted % 2 ^ 32 ∧
      t.fld rADM_LOAD0 fADM_LOAD0_STORE_CEIL = s.ceilOf 0 % 2 ^ 32 ∧
      (∀ r < 34, r ≠ 0 → t.fld (rADM_RES r) fADM_RES_LOAD = s.destLoad s.admitted r % 2 ^ 32) ∧
      onlyIn (mRegs ||| mStaged) ([rADM_SNAP, rADM_LOAD0, rADM_LOAD1] ++ (upTo 34).map rADM_RES) [] s t) ∧
  (∀ (x : Fin 4096) (d : Fin 4) (s : State), (s.ctx x).st = .closed ∨ (s.ctx x).nextDue d = none → exec (.deadlineMiss x d) s = .next s) ∧
  (∀ (x : Fin 4096) (d : Fin 4) (r : CordRec) (n : Nat) (s : State), (s.ctx x).st ≠ .closed → (s.ctx x).nextDue d = some (r, n) →
    (completes (.deadlineMiss x d) s fun t => (s.held = false → t.time = max s.time n) ∧ t.rst = s.rst ∧ t.flash = s.flash) ∧
    (((s.ctx x).miss = 0 ∨ r.typ = tyFault) → completes (.deadlineMiss x d) s fun t =>
      t.fld (rADM_CTX x) fADM_CTX_MISSES = satN 32 (s.fld (rADM_CTX x) fADM_CTX_MISSES + 1) ∧
      (t.ctx x).recs = (s.ctx x).recs.map (fun q => if q.pos = r.pos then { q with missed := modAt (fun _ => true) q.missed d } else q) ∧
      (t.ctx x).lost = (s.ctx x).lost ∧
      onlyIn (mEvent ||| mTime ||| mCtxs) [rADM_CTX x] [512 + x / 64] s t) ∧
    ((s.ctx x).miss = 1 → r.typ ≠ tyFault → (s.ctx x).destType d ≠ 2 → (s.ctx x).destType d ≠ 4 → ((s.ctx x).dest d).begun ≤ r.pos →
      completes (.deadlineMiss x d) s fun t =>
        t.fld (rADM_CTX x) fADM_CTX_MISSES = satN 32 (s.fld (rADM_CTX x) fADM_CTX_MISSES + 1) ∧
        (t.ctx x).lost = satN 64 ((s.ctx x).lost + r.items)))

/-- MEM_MAP takes a new map while every billet is free and starts store initialisation, which ends with zeros everywhere and no error; it is
counted in MAP_DISC otherwise. MEM_SCHED is taken whole when legal and counted in SCHED_DISC otherwise. A granule opens its row; of two
reads to closed rows the promoted goes first, then the lower class, then the nearer deadline. A write rewrites its line; a read
finds a correctable error, counted and corrected, or an uncorrectable one, counted, captured and raised. The scrubber reads line after line
and counts its passes. A temperature code reaches both channels of its die; a refresh that need not wait is made, one that a GUARANTEED
granule holds up is postponed until the bound, and then forced, and each closes the rows of its channel; a retraining clears or counts failures, and the third in succession fails
the channel and starts a datapath restart.
Where the spec leaves a point open this states the choice of the model, logged as assumptions 25, 69. -/
def Obligations.MemoryController : Prop :=
  (∀ (v : Word) (s : State), s.ready = true → s.selfRefresh = false →
    (s.freeBillets ≠ nBillets →
      exec (.memMapWrite v) s = .next ((s.dropStaged .host rMEM_MAP).addSat rMEM_MAP fMEM_MAP_MAP_DISC 1)) ∧
    (s.freeBillets = nBillets → 6 ≤ fget v fMEM_MAP_GRAIN_LOG2 → fget v fMEM_MAP_GRAIN_LOG2 ≤ 14 →
      completes (.memMapWrite v) s fun t => t.fld rMEM_MAP fMEM_MAP_GRAIN_LOG2 = fget v fMEM_MAP_GRAIN_LOG2 ∧
        t.fld rMEM_MAP fMEM_MAP_XOR = fget v fMEM_MAP_XOR ∧ t.flag rMEM_MAP fMEM_MAP_MAP_BUSY = true ∧
        onlyIn (mRegs ||| mStaged) [rMEM_MAP] [] s t) ∧
    (s.freeBillets = nBillets → (fget v fMEM_MAP_GRAIN_LOG2 < 6 ∨ 14 < fget v fMEM_MAP_GRAIN_LOG2) →
      exec (.memMapWrite v) s = .next (s.dropStaged .host rMEM_MAP))) ∧
  (∀ (s : State), s.glb ≠ 0 →
    (s.flag rMEM_MAP fMEM_MAP_MAP_BUSY = false → exec .mapInitDone s = .next s) ∧
    (s.flag rMEM_MAP fMEM_MAP_MAP_BUSY = true →
      completes .mapInitDone s fun t => t.flag rMEM_MAP fMEM_MAP_MAP_BUSY = false ∧ (∀ a, t.store.byte 0 a = 0) ∧ t.badLines = [] ∧
        t.mem.lost = [] ∧ onlyIn (mRegs ||| mStore ||| mBadLines ||| mMem) [rMEM_MAP] [] s t)) ∧
  (∀ (v : Word) (s : State), s.ready = true →
    (fget v fMEM_SCHED_WR_HIGH ≤ 56 → fget v fMEM_SCHED_WR_LOW < fget v fMEM_SCHED_WR_HIGH → fget v fMEM_SCHED_AGE_US ≠ 0 →
      exec (.memSchedWrite v) s = .next ((s.dropStaged .host rMEM_SCHED).wrCodes rMEM_SCHED v [])) ∧
    ((56 < fget v fMEM_SCHED_WR_HIGH ∨ fget v fMEM_SCHED_WR_HIGH ≤ fget v fMEM_SCHED_WR_LOW ∨ fget v fMEM_SCHED_AGE_US = 0) →
      exec (.memSchedWrite v) s = .next ((s.dropStaged .host rMEM_SCHED).addSat rMEM_SCHED fMEM_SCHED_SCHED_DISC 1))) ∧
  (∀ (ch : Fin 32) (gs : List Granule) (e : EccErr) (s : State), s.glb = 0 ∨ (∀ g ∈ gs, (s.place379 (64 * g.line)).ch ≠ ch) →
    exec (.memGranule ch gs e) s = .next s) ∧
  (∀ (ch : Fin 32) (g : Granule) (p : MemPlace) (s : State), s.glb ≠ 0 → s.fld (rMEM_CH_STATUS ch) fMEM_CH_STATUS_POSTPONED = 0 →
    p = s.place379 (64 * g.line) → p.ch = ch →
    (g.write = true → ∀ e, completes (.memGranule ch [g] e) s fun t =>
      (∀ k, SMap.get 0 t.badLines k = if k ∈ s.granuleLines g then s.lineRewritten k else SMap.get 0 s.badLines k) ∧
      SMap.get none t.mem.open_ (8 * ch + p.bank) = some p.row ∧ onlyIn (mFreeCtr ||| mBadLines ||| mMem) [] [] s t) ∧
    (g.write = false → g.more = 0 → s.lineErr g.line % 4 = 0 → completes (.memGranule ch [g] .none) s fun t =>
      SMap.get none t.mem.open_ (8 * ch + p.bank) = some p.row ∧ onlyIn (mFreeCtr ||| mMem) [] [] s t) ∧
    (g.write = false → g.more = 0 → s.lineErr g.line / 2 % 2 = 0 → completes (.memGranule ch [g] .single) s fun t =>
      t.fld (rMEM_CH_ECC ch) fMEM_CH_ECC_CE = satN 32 (s.fld (rMEM_CH_ECC ch) fMEM_CH_ECC_CE + 1) ∧
      t.fld (rMEM_CH_ECC ch) fMEM_CH_ECC_UE = s.fld (rMEM_CH_ECC ch) fMEM_CH_ECC_UE ∧
      (∀ k : Nat, k ≠ g.line → SMap.get 0 t.badLines k = SMap.get 0 s.badLines k) ∧
      onlyIn (mEvent ||| mFreeCtr ||| mBadLines ||| mMem) [rMEM_CH_ECC ch] [672 + ch] s t) ∧
    (g.write = false → g.more = 0 → completes (.memGranule ch [g] .data) s fun t =>
      t.fld (rMEM_CH_ECC ch) fMEM_CH_ECC_UE = satN 32 (s.fld (rMEM_CH_ECC ch) fMEM_CH_ECC_UE + 1) ∧
      SMap.get 0 t.badLines g.line / 2 % 2 = 1 ∧ t.fld rMEM_UE_SNAP fMEM_UE_SNAP_SEQ = (s.fld rMEM_UE_SNAP fMEM_UE_SNAP_SEQ + 1) % 2 ^ 32 ∧
      t.rd rMEM_UE0 = BitVec.ofNat 64 (64 * g.line) ∧ t.fld rMEM_UE1 fMEM_UE1_CH = ch ∧ t.fld rMEM_UE1 fMEM_UE1_LINES = 1 ∧
      t.rd rMEM_UE2 = BitVec.ofNat 64 s.time ∧
      onlyIn (mEvent ||| mFreeCtr ||| mBadLines ||| mMem) [rMEM_CH_ECC ch, rMEM_UE_SNAP, rMEM_UE0, rMEM_UE1, rMEM_UE2] [704] s t)) ∧
  (∀ (ch : Fin 32) (g h : Granule) (p q : MemPlace) (s : State), s.glb ≠ 0 → s.fld (rMEM_CH_STATUS ch) fMEM_CH_STATUS_POSTPONED = 0 →
    p = s.place379 (64 * g.line) → q = s.place379 (64 * h.line) → p.ch = ch → q.ch = ch → g.write = false → h.write = false →
    s.rowOpen g = false → s.rowOpen h = false →
    ((s.promoted g = false ∧ s.promoted h = false ∧ (g.cls < h.cls ∨ g.cls = h.cls ∧ g.cls < 2 ∧ g.due < h.due)) ∨
      (s.promoted g = true ∧ (s.promoted h = false ∨ g.since < h.since))) →
    ∀ l ∈ [[g, h], [h, g]], completes (.memGranule ch l .none) s fun t => SMap.get none t.mem.open_ (8 * ch + p.bank) = some p.row ∧
      (p.bank ≠ q.bank → SMap.get none t.mem.open_ (8 * ch + q.bank) = SMap.get none s.mem.open_ (8 * ch + q.bank))) ∧
  (∀ (d : Fin 16) (k : Fin 8) (s : State), s.glb ≠ 0 →
    completes (.mr4Poll d k) s fun t =>
      t.fld (rMEM_CH_STATUS (2 * d)) fMEM_CH_STATUS_MR4 = k ∧ t.fld (rMEM_CH_STATUS (2 * d + 1)) fMEM_CH_STATUS_MR4 = k ∧
      onlyIn mEvent [rMEM_CH_STATUS (2 * d), rMEM_CH_STATUS (2 * d + 1), rTHM_STATUS] [705, 706, 19] s t) ∧
  (∀ (ch : Fin 32) (s : State), s.glb ≠ 0 →
    (∀ w, s.selfRefresh = true → completes (.refreshDue ch w) s fun t =>
      SMap.get 0 t.mem.refi ch = tRefi (s.fld (rMEM_CH_STATUS ch) fMEM_CH_STATUS_MR4) ∧ t.mem.open_ = s.mem.open_ ∧ onlyIn mMem [] [] s t) ∧
    (∀ w, s.selfRefresh = false → (s.dieHot ch = true ∨ w = false ∧ (s.fld (rMEM_CH_STATUS ch) fMEM_CH_STATUS_POSTPONED = 0 ∨
        s.fld (rMEM_CH_STATUS ch) fMEM_CH_STATUS_POSTPONED < s.fld rMEM_REFRESH fMEM_REFRESH_POSTPONE_MAX)) →
      completes (.refreshDue ch w) s fun t => SMap.get 0 t.mem.refi ch = tRefi (s.fld (rMEM_CH_STATUS ch) fMEM_CH_STATUS_MR4) ∧
        t.fld (rMEM_CH_STATUS ch) fMEM_CH_STATUS_POSTPONED = 0 ∧ (∀ b < 8, SMap.get none t.mem.open_ (8 * ch + b) = none) ∧
        (∀ k, (k < 8 * ch.val ∨ 8 * ch.val + 8 ≤ k) → SMap.get none t.mem.open_ k = SMap.get none s.mem.open_ k) ∧
        onlyIn (mRegs ||| mMem) [rMEM_CH_STATUS ch] [] s t) ∧
    (s.selfRefresh = false → s.dieHot ch = false →
      s.fld (rMEM_CH_STATUS ch) fMEM_CH_STATUS_POSTPONED < s.fld rMEM_REFRESH fMEM_REFRESH_POSTPONE_MAX →
      exec (.refreshDue ch true) s = .next ((s.onMem fun z => { z with
        refi := SMap.set 0 z.refi ch (tRefi (s.fld (rMEM_CH_STATUS ch) fMEM_CH_STATUS_MR4)) }).setFld (rMEM_CH_STATUS ch)
          fMEM_CH_STATUS_POSTPONED (s.fld (rMEM_CH_STATUS ch) fMEM_CH_STATUS_POSTPONED + 1))) ∧
    (∀ w, s.selfRefresh = false → s.dieHot ch = false → (w = true ∨ s.fld (rMEM_CH_STATUS ch) fMEM_CH_STATUS_POSTPONED ≠ 0) →
      s.fld rMEM_REFRESH fMEM_REFRESH_POSTPONE_MAX ≤ s.fld (rMEM_CH_STATUS ch) fMEM_CH_STATUS_POSTPONED →
      completes (.refreshDue ch w) s fun t => t.fld (rMEM_CH_STATUS ch) fMEM_CH_STATUS_POSTPONED = 0 ∧
        t.fld (rMEM_CH_STATUS ch) fMEM_CH_STATUS_FORCED = satN 32 (s.fld (rMEM_CH_STATUS ch) fMEM_CH_STATUS_FORCED + 1) ∧
        (∀ b < 8, SMap.get none t.mem.open_ (8 * ch + b) = none) ∧ onlyIn (mEvent ||| mMem) [rMEM_CH_STATUS ch] [711] s t)) ∧
  (∀ (ch : Fin 32) (s : State), s.glb ≠ 0 → s.selfRefresh = false → s.fld (rMEM_CH_STATUS ch) fMEM_CH_STATUS_POSTPONED = 0 →
    s.flag (rMEM_CH_STATUS ch) fMEM_CH_STATUS_FAILED = false →
    exec (.retrain ch true) s = .next (s.onMem fun z => { z with fails := SMap.set 0 z.fails ch 0 }) ∧
    (SMap.get 0 s.mem.fails ch < 2 → completes (.retrain ch false) s fun t =>
      SMap.get 0 t.mem.fails ch = SMap.get 0 s.mem.fails ch + 1 ∧ t.flag (rMEM_CH_STATUS ch) fMEM_CH_STATUS_FAILED = false ∧
      t.fld (rMEM_CH_STATUS ch) fMEM_CH_STATUS_RETRAIN_FAIL = satN 16 (s.fld (rMEM_CH_STATUS ch) fMEM_CH_STATUS_RETRAIN_FAIL + 1) ∧
      onlyIn (mEvent ||| mMem) [rMEM_CH_STATUS ch] [707] s t) ∧
    (2 ≤ SMap.get 0 s.mem.fails ch → completes (.retrain ch false) s fun t =>
      SMap.get 0 t.mem.fails ch = SMap.get 0 s.mem.fails ch + 1 ∧ t.store = s.store ∧
      (s.ready = true → s.flag rEVT_CTRL fEVT_CTRL_AUTO_RESTART = false → t.flag (rMEM_CH_STATUS ch) fMEM_CH_STATUS_FAILED = true ∧
        t.glb = 5))) ∧
  (∀ (ch : Fin 32) (ok : Bool) (s : State), s.glb ≠ 0 → (s.selfRefresh = true ∨ s.fld (rMEM_CH_STATUS ch) fMEM_CH_STATUS_POSTPONED ≠ 0 ∨
    s.flag (rMEM_CH_STATUS ch) fMEM_CH_STATUS_FAILED = true) → exec (.retrain ch ok) s = .next s) ∧
  (∀ (s : State), s.glb ≠ 0 →
    ((s.flag rMEM_SCRUB fMEM_SCRUB_EN = false ∨ s.selfRefresh = true) → ∀ e, exec (.scrubRead e) s = .next s) ∧
    (s.flag rMEM_SCRUB fMEM_SCRUB_EN = true → s.selfRefresh = false → s.lineErr s.mem.scrub % 4 = 0 → s.mem.scrub + 1 < 469762048 →
      completes (.scrubRead .none) s fun t => t.mem.scrub = s.mem.scrub + 1 ∧
        t.fld rMEM_SCRUB fMEM_SCRUB_PROGRESS = (s.mem.scrub + 1) * 256 / 469762048 ∧
        onlyIn (mRegs ||| mMem) [rMEM_SCRUB] [] s t) ∧
    (s.flag rMEM_SCRUB fMEM_SCRUB_EN = true → s.selfRefresh = false → s.lineErr s.mem.scrub % 4 = 0 → s.mem.scrub + 1 = 469762048 →
      completes (.scrubRead .none) s fun t => t.mem.scrub = 0 ∧ t.fld rMEM_SCRUB fMEM_SCRUB_PROGRESS = 0 ∧
        t.fld rMEM_SCRUB fMEM_SCRUB_PASSES = (s.fld rMEM_SCRUB fMEM_SCRUB_PASSES + 1) % 2 ^ 16 ∧
        onlyIn (mEvent ||| mMem) [rMEM_SCRUB] [710] s t) ∧
    (s.flag rMEM_SCRUB fMEM_SCRUB_EN = true → s.selfRefresh = false → s.mem.scrub + 1 < 469762048 →
      (s.billet (64 * s.mem.scrub / 16384)).used = false →
      completes (.scrubRead .data) s fun t => t.mem.scrub = s.mem.scrub + 1 ∧
        (∀ i < 64, t.store.byte 0 (64 * s.mem.scrub + i) = 0) ∧
        (∀ a, a < 64 * s.mem.scrub ∨ 64 * s.mem.scrub + 64 ≤ a → t.store.byte 0 a = s.store.byte 0 a) ∧
        t.fld rMEM_SCRUB fMEM_SCRUB_CLEARED = satN 16 (s.fld rMEM_SCRUB fMEM_SCRUB_CLEARED + 1))) ∧
  (∀ (v : Word) (s : State), s.ready = true →
    completes (.memUeSnap v) s fun t => t.fld rMEM_UE_SNAP fMEM_UE_SNAP_SEQ = (s.fld rMEM_UE_SNAP fMEM_UE_SNAP_SEQ + 1) % 2 ^ 32 ∧
      t.rd rMEM_UE0 = s.mem.ue.1 ∧ t.rd rMEM_UE1 = s.mem.ue.2.1 ∧ t.rd rMEM_UE2 = s.mem.ue.2.2 ∧
      onlyIn (mRegs ||| mStaged) [rMEM_UE_SNAP, rMEM_UE0, rMEM_UE1, rMEM_UE2] [] s t)

/-- In READY, a stream write with a legal M and PRED that keeps the RATE test is taken, FLUSH closing the record of an encoding unit, and any
other is counted in CMD_DISC. Outside reset, with its clock running, a full block of samples is coded into the record and leaves the queue, and BLOCKS counts it; with
nothing waiting, or the dividers held, nothing happens. A decoding unit takes the next replayed record and counts its blocks. GO refuses a used or busy unit with REASON 1, starts a legal FIXED encoding with its preamble in host memory
and the counts at 0 and 32; a FIXED block advances both counts and is written where the destination has room, and pauses the job where it
has none; a block whose source cannot be read aborts the job with cause 2; RESUME takes a PAUSED job on into the new
destination and is counted otherwise; ABORT ends a job with cause 1 and its event; a job whose input is all coded ends DONE with its event.
Where the spec leaves a point open this states the choice of the model, logged as assumptions 18, 22, 73. -/
def Obligations.CodecUnits : Prop :=
  (∀ (u : Fin 8) (v : Word) (s : State), s.ready = true →
    ((fget v fCMP_STREAM_M ∉ [4, 6, 8, 10] ∨ fget v fCMP_STREAM_PRED = 3 ∨ s.mBreaks u (fget v fCMP_STREAM_M) = true) →
      exec (.cmpFlush u v) s = .next ((s.dropStaged .host (rCMP_STREAM u)).addSat (rCMP_STAT u) fCMP_STAT_CMD_DISC 1)) ∧
    (fget v fCMP_STREAM_M ∈ [4, 6, 8, 10] → fget v fCMP_STREAM_PRED ≠ 3 → s.mBreaks u (fget v fCMP_STREAM_M) = false →
      (s.cmpEncodes u = false → completes (.cmpFlush u v) s fun t => t.fld (rCMP_STREAM u) fCMP_STREAM_M = fget v fCMP_STREAM_M ∧
        t.actv (rCMP_STREAM u) = s.actv (rCMP_STREAM u) ∧ t.flag (rCMP_STREAM u) fCMP_STREAM_FLUSH = s.flag (rCMP_STREAM u) fCMP_STREAM_FLUSH ∧
        onlyIn (mRegs ||| mStaged) [rCMP_STREAM u] [] s t) ∧
      (s.cmpEncodes u = true → (s.cmpU u).queue = [] → completes (.cmpFlush u v) s fun t =>
        t.cmpU u = { s.cmpU u with rec_ := none } ∧ ((s.cmpU u).rec_ = none → t.ports = s.ports) ∧
        onlyIn (mEvent ||| mStaged ||| mCtxs ||| mCmp ||| mPorts) (rCMP_STREAM u :: dropRegs) [13] s t))) ∧
  (∀ (u : Fin 8) (s : State), (s.glb = 0 ∨ s.held = true ∨ (s.cmpU u).queue = []) → exec (.cmpStreamBlock u) s = .next s) ∧
  (∀ (u : Fin 8) (n fmt : Nat) (s : State), s.glb ≠ 0 → s.held = false → (s.cmpU u).rec_ = none → n = s.blockSamples u fmt →
    n ≤ (s.cmpU u).queue.length → (∀ x ∈ (s.cmpU u).queue.take n, x.ok = true ∧ x.fmt = fmt) →
    1 < s.recBlocks u (s.streamCodec u fmt) →
    completes (.cmpStreamBlock u) s fun t => (t.cmpU u).queue = (s.cmpU u).queue.drop n ∧
      (∃ r, (t.cmpU u).rec_ = some r ∧ r.cfg = s.streamCodec u fmt ∧ r.n = n ∧ r.k = 1 ∧ r.t = ((s.cmpU u).queue.head?.map (·.t)).getD 0) ∧
      (t.cmpU u).job = (s.cmpU u).job ∧
      t.fld (rCMP_BLOCKS u) fCMP_BLOCKS_BLOCKS = (s.fld (rCMP_BLOCKS u) fCMP_BLOCKS_BLOCKS + 1) % 2 ^ 32 ∧
      onlyIn (mRegs ||| mFreeCtr ||| mCmp) [rCMP_BLOCKS u] [] s t) ∧
  (∀ (u : Fin 8) (s : State), (s.glb = 0 ∨ s.held = true ∨ s.stalls (cmpSquare u) = true ∨ SMap.get [] s.replay (cmpSquare u) = []) →
    exec (.cmpDecodeRecord u) s = .next s) ∧
  (∀ (u : Fin 8) (r : RRec) (rest : List RRec) (s : State), s.glb ≠ 0 → s.held = false → s.stalls (cmpSquare u) = false →
    SMap.get [] s.replay (cmpSquare u) = r :: rest →
    s.flag (rCMP_CFG u) fCMP_CFG_USED = true → s.flag (rCMP_CFG u) fCMP_CFG_DIR = true → r.typ ≠ 4 →
    exec (.cmpDecodeRecord u) s = .next (s.onReplay fun _ => SMap.set [] s.replay (cmpSquare u) rest)) ∧
  (∀ (u : Fin 8) (r : RRec) (rest : List RRec) (c : Codec) (n coded : Nat) (bad : Bool) (s : State), s.glb ≠ 0 → s.held = false →
    s.stalls (cmpSquare u) = false → SMap.get [] s.replay (cmpSquare u) = r :: rest → s.flag (rCMP_CFG u) fCMP_CFG_USED = true →
    s.flag (rCMP_CFG u) fCMP_CFG_DIR = true → r.typ = 4 → readPreamble (s.fromCnv r.ctx) (r.bytes.take 32) = (c, n, coded, bad) →
    completes (.cmpDecodeRecord u) s fun t => SMap.get [] t.replay (cmpSquare u) = rest ∧
      (bad = false → coded = 0 → s.routesFrom (cmpSquare u) = [] → t.fld (rCMP_BLOCKS u) fCMP_BLOCKS_BLOCKS =
        (s.fld (rCMP_BLOCKS u) fCMP_BLOCKS_BLOCKS +
          (decodeAll c (n * compsOf c.fmt + 1) (n * compsOf c.fmt) (r.bytes.drop 32)).2.2) % 2 ^ 32) ∧
      Touches (mEvent ||| mFreeCtr ||| mStore ||| mCtxs ||| mBillets ||| mPorts ||| mAside ||| mBadLines ||| mDdc ||| mXfm ||| mStreams |||
        mLt ||| mAu ||| mReplay ||| mCmp) s t) ∧
  (∀ (u : Fin 8) (v : Word) (pre : Option (List Byte)) (s : State), s.ready = true → fget v fCMP_JOB_CTRL_ABORT = 0 →
    fget v fCMP_JOB_CTRL_RESUME = 0 →
    ((s.jobState u ≠ 0 ∨ s.flag (rCMP_CFG u) fCMP_CFG_USED = true) →
      completes (.cmpJobGo u v pre) s fun t => t.fld (rCMP_JOB_STATUS u) fCMP_JOB_STATUS_RESULT = 3 ∧
        t.fld (rCMP_JOB_STATUS u) fCMP_JOB_STATUS_REASON = 1 ∧ t.jobState u = s.jobState u ∧
        onlyIn (mRegs ||| mStaged) [rCMP_JOB_STATUS u] [] s t) ∧
    (s.jobState u = 0 → s.flag (rCMP_CFG u) fCMP_CFG_USED = false → s.flag (rCMP_JOB_MODE u) fCMP_JOB_MODE_DIR = false →
      s.flag (rCMP_JOB_MODE u) fCMP_JOB_MODE_MODE = false → (s.jobCodec u).fmt ≠ 3 → (s.jobCodec u).pred ≠ 3 → (s.jobCodec u).m ∈ [4, 6, 8, 10] →
      s.fld (rCMP_JOB_LEN u) fCMP_JOB_LEN_DST_LEN % 64 = 0 →
      s.fld (rCMP_JOB_LEN u) fCMP_JOB_LEN_SRC_LEN % compBytes (s.jobCodec u).fmt = 0 →
      32 + ceilDiv (s.fld (rCMP_JOB_LEN u) fCMP_JOB_LEN_SRC_LEN / compBytes (s.jobCodec u).fmt) 64 * (1 + 8 * (s.jobCodec u).m) ≤
        s.fld (rCMP_JOB_LEN u) fCMP_JOB_LEN_DST_LEN → s.busOk = true →
      completes (.cmpJobGo u v pre) s fun t => t.jobState u = 1 ∧ t.fld (rCMP_JOB_STATUS u) fCMP_JOB_STATUS_RESULT = 0 ∧
        t.fld (rCMP_JOB_COUNT u) fCMP_JOB_COUNT_IN_DONE = 0 ∧ t.fld (rCMP_JOB_COUNT u) fCMP_JOB_COUNT_OUT_DONE = 32 ∧
        (∃ j, (t.cmpU u).job = some j ∧ j.cfg = s.jobCodec u ∧ j.dec = false ∧
          j.srcLen = s.fld (rCMP_JOB_LEN u) fCMP_JOB_LEN_SRC_LEN ∧ j.dst = s.fld (rCMP_JOB_DST u) fCMP_JOB_DST_ADDR * 64) ∧
        (∀ a, a < s.fld (rCMP_JOB_DST u) fCMP_JOB_DST_ADDR * 64 ∨ s.fld (rCMP_JOB_DST u) fCMP_JOB_DST_ADDR * 64 + 32 ≤ a →
          t.hostMem.byte 0 a = s.hostMem.byte 0 a) ∧
        onlyIn (mRegs ||| mStaged ||| mHostMem ||| mCmp) [rCMP_JOB_STATUS u, rCMP_JOB_COUNT u] [] s t)) ∧
  (∀ (u : Fin 8) (d : Option (List Byte)) (s : State), s.glb ≠ 0 → (s.cmpU u).job = none → exec (.cmpJobBlock u d) s = .next s) ∧
  (∀ (u : Fin 8) (j : CmpJob) (s : State), s.glb ≠ 0 → (s.cmpU u).job = some j → j.dec = false → s.jobState u = 1 →
    s.fld (rCMP_JOB_COUNT u) fCMP_JOB_COUNT_IN_DONE < j.srcLen →
    completes (.cmpJobBlock u none) s fun t => t.jobState u = 0 ∧ t.fld (rCMP_JOB_STATUS u) fCMP_JOB_STATUS_RESULT = 2 ∧
      t.fld (rCMP_JOB_STATUS u) fCMP_JOB_STATUS_CAUSE = 2 ∧ t.cmpU u = { s.cmpU u with job := none } ∧
      onlyIn (mEvent ||| mCmp) [rCMP_JOB_STATUS u] [744 + u] s t) ∧
  (∀ (u : Fin 8) (j : CmpJob) (bs : List Byte) (inn out n len : Nat) (s : State), s.glb ≠ 0 → (s.cmpU u).job = some j → j.dec = false →
    s.jobState u = 1 → s.busOk = true → j.cfg.less = false → inn = s.fld (rCMP_JOB_COUNT u) fCMP_JOB_COUNT_IN_DONE →
    out = s.fld (rCMP_JOB_COUNT u) fCMP_JOB_COUNT_OUT_DONE → inn < j.srcLen → n = min (j.srcLen - inn) (64 * compBytes j.cfg.fmt) →
    len = j.pre.length + 1 + 8 * j.cfg.m →
    (out + len ≤ j.dstLen → completes (.cmpJobBlock u (some bs)) s fun t =>
      t.fld (rCMP_JOB_COUNT u) fCMP_JOB_COUNT_IN_DONE = (inn + n) % 2 ^ 32 ∧
      t.fld (rCMP_JOB_COUNT u) fCMP_JOB_COUNT_OUT_DONE = (out + len) % 2 ^ 32 ∧ t.cmpU u = { s.cmpU u with job := some { j with pre := [] } } ∧
      t.fld (rCMP_BLOCKS u) fCMP_BLOCKS_BLOCKS = (s.fld (rCMP_BLOCKS u) fCMP_BLOCKS_BLOCKS + 1) % 2 ^ 32 ∧
      (∀ a, a < j.dst + out ∨ j.dst + out + len ≤ a → t.hostMem.byte 0 a = s.hostMem.byte 0 a) ∧
      onlyIn (mRegs ||| mFreeCtr ||| mHostMem ||| mCmp) [rCMP_JOB_COUNT u, rCMP_BLOCKS u] [] s t) ∧
    (j.dstLen < out + len → completes (.cmpJobBlock u (some bs)) s fun t => t.jobState u = 2 ∧ t.cmpU u = s.cmpU u ∧
      onlyIn (mEvent ||| mFreeCtr) [rCMP_JOB_STATUS u] [752 + u] s t)) ∧
  (∀ (u : Fin 8) (v : Word) (s : State), s.ready = true → fget v fCMP_JOB_CTRL_ABORT = 0 → fget v fCMP_JOB_CTRL_GO = 0 →
    (∀ j, (s.cmpU u).job = some j → s.jobState u = 2 →
      completes (.cmpJobResume u v) s fun t => t.jobState u = 1 ∧ t.fld (rCMP_JOB_COUNT u) fCMP_JOB_COUNT_OUT_DONE = 0 ∧
        t.fld (rCMP_JOB_COUNT u) fCMP_JOB_COUNT_IN_DONE = s.fld (rCMP_JOB_COUNT u) fCMP_JOB_COUNT_IN_DONE ∧
        (t.cmpU u).job = some { j with
          dst := s.fld (rCMP_JOB_DST u) fCMP_JOB_DST_ADDR * 64
          dstLen := s.fld (rCMP_JOB_LEN u) fCMP_JOB_LEN_DST_LEN } ∧
        onlyIn (mRegs ||| mStaged ||| mCmp) [rCMP_JOB_STATUS u, rCMP_JOB_COUNT u] [] s t) ∧
    (((s.cmpU u).job = none ∨ s.jobState u ≠ 2) →
      exec (.cmpJobResume u v) s = .next ((s.dropStaged .host (rCMP_JOB_CTRL u)).addSat (rCMP_STAT u) fCMP_STAT_CMD_DISC 1))) ∧
  (∀ (u : Fin 8) (v : Word) (s : State), s.ready = true → fget v fCMP_JOB_CTRL_RESUME = 0 → fget v fCMP_JOB_CTRL_GO = 0 →
    (s.jobState u = 0 → exec (.cmpJobAbort u v) s = .next (s.dropStaged .host (rCMP_JOB_CTRL u))) ∧
    (s.jobState u ≠ 0 →
      completes (.cmpJobAbort u v) s fun t => t.jobState u = 0 ∧ t.fld (rCMP_JOB_STATUS u) fCMP_JOB_STATUS_RESULT = 2 ∧
        t.fld (rCMP_JOB_STATUS u) fCMP_JOB_STATUS_CAUSE = 1 ∧ t.cmpU u = { s.cmpU u with job := none } ∧
        onlyIn (mEvent ||| mStaged ||| mCmp) [rCMP_JOB_STATUS u] [744 + u] s t)) ∧
  (∀ (u : Fin 8) (s : State), s.glb ≠ 0 →
    ((s.cmpU u).job = none ∨ s.jobState u ≠ 1 → exec (.cmpJobDone u) s = .next s) ∧
    (∀ j, (s.cmpU u).job = some j → s.jobState u = 1 → (j.dec = true → j.left = 0) →
      (j.dec = false → s.fld (rCMP_JOB_COUNT u) fCMP_JOB_COUNT_IN_DONE = j.srcLen) →
      completes (.cmpJobDone u) s fun t => t.jobState u = 0 ∧ t.fld (rCMP_JOB_STATUS u) fCMP_JOB_STATUS_RESULT = 1 ∧
        t.cmpU u = { s.cmpU u with job := none } ∧ onlyIn (mEvent ||| mCmp) [rCMP_JOB_STATUS u] [736 + u] s t))

/-- Outside reset: in CXL mode a read of a line that a decoder covers answers with the store's bytes there, poisoned where the line is bad, which is reported as a RAS data error,
and counts a line of a billet in device bias; one that none covers answers empty and counts in UR; a write changes nothing and counts in
MEM_WR_DISC. A legal decoder commits, an illegal one is marked and raised, a locked one keeps what it holds. A snoop is answered. Training
sets width, rate and mode and counts; link down, FLR and CXL Reset clear Bus Master Enable or the decoders as Table 19-5 says, halt the
channels and stop the ring, and Mem Clr zeroes the store.
Where the spec leaves a point open this states the choice of the model, logged as assumptions 8, 49, 50, 68. -/
def Obligations.LinkAndMemoryWindow : Prop :=
  (∀ (n : Fin (2 ^ 46)) (s : State), s.glb ≠ 0 →
    (s.cxlMode = false → exec (.cxlMemRead n) s = .next s) ∧
    (s.cxlMode = true → s.hif.hdm0.dpa (64 * n) = none → s.hif.hdm1.dpa (64 * n) = none →
      exec (.cxlMemRead n) s = .next ((s.addSat rGLB_HIF_ERR fGLB_HIF_ERR_UR 1).send (.memRead [] true))) ∧
    (∀ o, s.cxlMode = true → s.selfRefresh = false → s.hif.hdm0.dpa (64 * n) = some o →
      ((s.billet (o / 16384)).hbias = true →
        exec (.cxlMemRead n) s = .next ((if s.lineBad (o / 64) then s.send .rasDataEcc else s).send
          (.memRead (s.store.read 0 (64 * (o / 64)) 64) (s.lineBad (o / 64))))) ∧
      ((s.billet (o / 16384)).hbias = false →
        completes (.cxlMemRead n) s fun t => t.store = s.store ∧
          t.fld rGLB_HIF_ERR fGLB_HIF_ERR_DEVBIAS_RD = satN 16 (s.fld rGLB_HIF_ERR fGLB_HIF_ERR_DEVBIAS_RD + 1) ∧
          t.outs.getLast? = some (.memRead (s.store.read 0 (64 * (o / 64)) 64) (s.lineBad (o / 64))) ∧
          onlyIn mEvent [rGLB_HIF_ERR] [996] s t))) ∧
  (∀ (s : State), s.glb ≠ 0 →
    (s.cxlMode = false → exec .cxlMemWrite s = .next s) ∧
    (s.cxlMode = true → completes .cxlMemWrite s fun t => t.store = s.store ∧
      t.fld rGLB_HIF_ERR fGLB_HIF_ERR_MEM_WR_DISC = satN 16 (s.fld rGLB_HIF_ERR fGLB_HIF_ERR_MEM_WR_DISC + 1) ∧
      t.outs.getLast? = some .memWriteDone ∧ onlyIn mEvent [rGLB_HIF_ERR] [995] s t)) ∧
  (∀ (base size skip ways : Nat) (lock : Bool) (s : State), s.glb ≠ 0 →
    (s.hif.hdm0.locked = true → exec (.hdmCommit false base size skip ways lock) s = .next s) ∧
    (s.hif.hdm1.locked = true → exec (.hdmCommit true base size skip ways lock) s = .next s) ∧
    (s.hif.hdm0.locked = false → s.hif.hdm1.committed = false → ways = 1 → 0 < size → size % 2 ^ 28 = 0 → skip + size ≤ 30064771072 →
      exec (.hdmCommit false base size skip ways lock) s =
        .next (s.updHif fun h => { h with hdm0 := ⟨base, size, skip, true, false, lock⟩ })) ∧
    (s.hif.hdm1.locked = false → s.hif.hdm0.committed = true → ways = 1 → 0 < size → size % 2 ^ 28 = 0 → skip + size ≤ 30064771072 →
      (skip + size ≤ s.hif.hdm0.skip ∨ s.hif.hdm0.skip + s.hif.hdm0.size ≤ skip) →
      exec (.hdmCommit true base size skip ways lock) s =
        .next (s.updHif fun h => { h with hdm1 := ⟨base, size, skip, true, false, lock⟩ })) ∧
    (s.hif.hdm0.locked = false → (ways ≠ 1 ∨ size = 0 ∨ size % 2 ^ 28 ≠ 0 ∨ 30064771072 < skip + size) →
      completes (.hdmCommit false base size skip ways lock) s fun t => t.hif.hdm0 = ⟨base, size, skip, false, true, false⟩ ∧
        t.hif.hdm1 = s.hif.hdm1 ∧ onlyIn mEvent [] [998] s t)) ∧
  (∀ (s : State), s.glb ≠ 0 → exec .hostSnoop s = .next (s.send .snoopRsp)) ∧
  (∀ (w r : Nat) (cxl : Bool) (s : State), s.glb ≠ 0 →
    completes (.linkRetrain w r cxl) s fun t =>
      t.fld rGLB_HIF_LINK fGLB_HIF_LINK_WIDTH = max 1 (min w 3) ∧ t.fld rGLB_HIF_LINK fGLB_HIF_LINK_RATE = min r 4 ∧
      t.flag rGLB_HIF_LINK fGLB_HIF_LINK_CXL = (cxl && 2 ≤ r) ∧ t.cxlMode = (cxl && 2 ≤ r) ∧ t.glb = s.glb ∧
      t.fld rGLB_HIF_LINK fGLB_HIF_LINK_RETRAINS = satN 16 (s.fld rGLB_HIF_LINK fGLB_HIF_LINK_RETRAINS + 1) ∧
      t.store = s.store ∧ t.time = s.time ∧ t.ctxs = s.ctxs) ∧
  (∀ (s : State), s.glb ≠ 0 →
    (s.fld rGLB_HIF_LINK fGLB_HIF_LINK_WIDTH = 0 → exec .linkDown s = .next s) ∧
    (s.fld rGLB_HIF_LINK fGLB_HIF_LINK_WIDTH ≠ 0 → s.dma = [] →
      completes .linkDown s fun t => t.fld rGLB_HIF_LINK fGLB_HIF_LINK_WIDTH = 0 ∧ t.hif.bme = false ∧ t.hif.vecs = [] ∧
        t.hif.downSaid = true ∧ t.flag rEVT_CTRL fEVT_CTRL_RING_EN = false ∧ (∀ c < 128, t.dmaState c = 3) ∧
        t.fld rGLB_HIF_LINK fGLB_HIF_LINK_DOWNS = satN 16 (s.fld rGLB_HIF_LINK fGLB_HIF_LINK_DOWNS + 1) ∧
        t.fld rGLB_HIF_RESET fGLB_HIF_RESET_LAST = 3 ∧
        onlyIn (mRegs ||| mHif ||| mDma) ([rGLB_HIF_LINK, rGLB_HIF_RESET, rEVT_CTRL] ++ (upTo 128).map rDMA_STATUS) [] s t)) ∧
  (∀ (s : State), s.glb ≠ 0 → s.dma = [] →
    completes .flr s fun t => t.hif.bme = false ∧ t.flag rEVT_CTRL fEVT_CTRL_RING_EN = false ∧ (∀ c < 128, t.dmaState c = 3) ∧
      t.fld rGLB_HIF_RESET fGLB_HIF_RESET_LAST = 2 ∧
      t.fld rGLB_HIF_RESET fGLB_HIF_RESET_FLRS = satN 16 (s.fld rGLB_HIF_RESET fGLB_HIF_RESET_FLRS + 1) ∧
      onlyIn (mEvent ||| mDma) ([rGLB_HIF_RESET, rEVT_CTRL] ++ (upTo 128).map rDMA_STATUS) [1000] s t) ∧
  (∀ (m : Bool) (s : State), s.glb ≠ 0 →
    completes (.cxlReset m) s fun t => t.fld rGLB_HIF_RESET fGLB_HIF_RESET_LAST = 1 ∧
      (m = true → (∀ a, t.store.byte 0 a = 0) ∧ t.badLines = [] ∧ t.mem.lost = []) ∧ t.time = s.time ∧ t.flash = s.flash ∧
      (s.ready = true → t.glb = 4 ∧ t.rst.cxl = true) ∧
      (s.glb = 4 → t.hif.hdm0 = ⟨0, 0, 0, false, false, false⟩ ∧ t.hif.hdm1 = ⟨0, 0, 0, false, false, false⟩ ∧ t.rst.cxl = true ∧
        (m = false → t.store = s.store))) ∧
  (∀ (s : State), s.glb ≠ 0 → exec .busMasterDisable s = .next (s.updHif fun h => { h with bme := false }))

/-- Outside reset: a timeout of a bias switch counts in CTO_CACHE and of any other request in CTO_IO, a poisoned completion in POISON_RX, and
the unit that asked reports it: a codec job aborts with cause 2, a plan load is rejected, a table load fails with reason 1, a channel that
fetches a descriptor halts. Unmasking a vector sends its pending message where requests and moderation allow, as does the end of its
moderation interval. A DOE request while one is answered, or longer than 4,096 bytes, is answered with an error and nothing else; every other
is answered as R429, R430, R517 and R518 say, and each SPDM request counts.
Where the spec leaves a point open this states the choice of the model, logged as assumptions 21, 22, 36. -/
def Obligations.FailuresMessagesAndDoe : Prop :=
  (∀ (b : Nat) (s : State), s.glb ≠ 0 →
    exec (.completionTimeout (.bias b)) s = .next ((s.addSat rGLB_HIF_CTO fGLB_HIF_CTO_CTO_CACHE 1).raiseLim 1000 993 |>.send (.aer true)) ∧
    exec (.poisonedCompletion (.bias b)) s = .next ((s.addSat rGLB_HIF_ERR fGLB_HIF_ERR_POISON_RX 1).raiseLim 1000 994 |>.send (.aer false))) ∧
  (∀ (u : Fin 8) (j : CmpJob) (s : State), s.glb ≠ 0 → s.jobState u ≠ 0 → (s.cmpU u).job = some j →
    (completes (.completionTimeout (.codec u)) s fun t => t.jobState u = 0 ∧ t.fld (rCMP_JOB_STATUS u) fCMP_JOB_STATUS_CAUSE = 2 ∧
      (t.cmpU u).job = none ∧ t.fld rGLB_HIF_CTO fGLB_HIF_CTO_CTO_IO = satN 32 (s.fld rGLB_HIF_CTO fGLB_HIF_CTO_CTO_IO + 1) ∧
      onlyIn (mEvent ||| mCmp) [rGLB_HIF_CTO, rCMP_JOB_STATUS u] [993, 744 + u] s t) ∧
    completes (.poisonedCompletion (.codec u)) s fun t => t.jobState u = 0 ∧ t.fld (rCMP_JOB_STATUS u) fCMP_JOB_STATUS_CAUSE = 2 ∧
      (t.cmpU u).job = none ∧ t.fld rGLB_HIF_ERR fGLB_HIF_ERR_POISON_RX = satN 16 (s.fld rGLB_HIF_ERR fGLB_HIF_ERR_POISON_RX + 1) ∧
      onlyIn (mEvent ||| mCmp) [rGLB_HIF_ERR, rCMP_JOB_STATUS u] [994, 744 + u] s t) ∧
  (∀ (o : Nat) (s : State), s.glb ≠ 0 → s.planState = 1 →
    completes (.completionTimeout (.plan o)) s fun t => t.planState = 0 ∧ t.fld rPLAN_STATUS fPLAN_STATUS_RESULT = 2 ∧
      t.fld rPLAN_STATUS fPLAN_STATUS_REASON = 1 ∧ t.fld rGLB_HIF_CTO fGLB_HIF_CTO_CTO_IO = satN 32 (s.fld rGLB_HIF_CTO fGLB_HIF_CTO_CTO_IO + 1)) ∧
  (∀ (n : Fin 4) (len : Nat) (s : State), s.glb ≠ 0 → (s.xfmU n).load = some len →
    completes (.poisonedCompletion (.table n)) s fun t => (t.xfmU n).load = none ∧
      t.fld (rXFM_TAB_STATUS n) fXFM_TAB_STATUS_LOAD_RESULT = 3 ∧ t.fld (rXFM_TAB_STATUS n) fXFM_TAB_STATUS_LOAD_REASON = 1 ∧
      t.flag (rXFM_TAB_CTRL n) fXFM_TAB_CTRL_LOAD = false) ∧
  (∀ (c : Fin 128) (a : Nat) (f : Bool) (s : State), s.glb ≠ 0 → (s.dmaCh c).phase = .fetch a false f →
    (completes (.completionTimeout (.dma c)) s fun t => t.dmaState c = 3 ∧ t.dmaCh c = dma0 ∧ t.fld (rDMA_STATUS c) fDMA_STATUS_LAST = 19 ∧
      onlyIn (mEvent ||| mDma) [rGLB_HIF_CTO, rDMA_STATUS c, rDMA_ERR c, rDMA_ERR_INFO c] [993, 768 + c] s t) ∧
    completes (.poisonedCompletion (.dma c)) s fun t => t.dmaState c = 3 ∧ t.dmaCh c = dma0 ∧ t.fld (rDMA_STATUS c) fDMA_STATUS_LAST = 20 ∧
      onlyIn (mEvent ||| mDma) [rGLB_HIF_ERR, rDMA_STATUS c, rDMA_ERR c, rDMA_ERR_INFO c] [994, 768 + c] s t) ∧
  (∀ (v : Fin 2048) (s : State), s.glb ≠ 0 →
    ((s.vec v).pend = true → s.hif.fnMasked = false → s.busOk = true → s.moderated v = false →
      completes (.msixUnmask (.vector v)) s fun t => t.outs = s.outs ++ [.msix v] ∧ (t.vec v).masked = false ∧ (t.vec v).pend = false ∧
        (t.vec v).last = some s.time ∧ (∀ k : Nat, k ≠ v → t.vec k = s.vec k) ∧ Touches (mOuts ||| mHif) s t) ∧
    ((s.vec v).pend = false → exec (.msixUnmask (.vector v)) s = .next (s.setVec v { s.vec v with masked := false }))) ∧
  (∀ (s : State), s.glb ≠ 0 → s.hif.vecs = [] →
    exec (.msixUnmask .function) s = .next (s.updHif fun h => { h with fnMasked := false }) ∧
    (s.evt.lostSince = 0 → exec (.msixUnmask .busMaster) s = .next (s.updHif fun h => { h with bme := true }))) ∧
  (∀ (v : Fin 2048) (s : State), s.glb ≠ 0 →
    ((s.vec v).last = none → exec (.msixModerationEnd v) s = .next s) ∧
    (∀ t0, (s.vec v).last = some t0 → (s.vec v).pend = true → (s.vec v).masked = false → s.hif.fnMasked = false → s.busOk = true →
      s.held = false → completes (.msixModerationEnd v) s fun t => t.time = max s.time (t0 + s.usTicks (s.fld rEVT_CTRL fEVT_CTRL_MOD_US)) ∧
        t.outs = s.outs ++ [.msix v] ∧ (t.vec v).pend = false ∧ Touches (mOuts ||| mTime ||| mHif) s t)) ∧
  (∀ (req : List Byte) (busy sg : Bool) (off len : Fin 65536) (ix : Fin 256) (s : State), s.glb ≠ 0 →
    (4096 < req.length ∨ busy = true) →
    ∀ i ∈ [Instr.doeDiscovery req busy, .cdatTableAccess req busy, .getVersion req busy, .getCapabilities req busy,
        .negotiateAlgorithms req busy, .getDigests req busy, .getCertificate req busy off len, .challenge req busy,
        .getMeasurements req busy ix sg, .spdmUnsupportedRequest req busy],
      exec i s = .next (s.send (.doe .error))) ∧
  (∀ (req : List Byte) (s : State), s.glb ≠ 0 → req.length ≤ 4096 →
    exec (.doeDiscovery req false) s = .next (s.send (.doe (.protocols ["DOE Discovery", "CMA/SPDM", "CDAT Table Access"]))) ∧
    exec (.cdatTableAccess req false) s = .next (s.send (.doe (.cdat s.hif.cdatSeq s.cdat)))) ∧
  (∀ (req : List Byte) (off len : Fin 65536) (ix : Fin 256) (sg : Bool) (s : State), s.glb ≠ 0 → req.length ≤ 4096 →
    (completes (.getVersion req false) s fun t => t.outs = s.outs ++ [.doe (.spdmVersion 1 2)] ∧ t.stk = { s.stk with spdm := req } ∧
      t.fld rSEC_SPDM fSEC_SPDM_REQUESTS = (s.fld rSEC_SPDM fSEC_SPDM_REQUESTS + 1) % 2 ^ 32 ∧
      onlyIn (mRegs ||| mOuts ||| mStk) [rSEC_SPDM] [] s t) ∧
    (completes (.getCapabilities req false) s fun t => t.outs = s.outs ++ [.doe (.spdmCapabilities ["CERT", "CHAL", "MEAS_SIG"])] ∧
      t.stk = { s.stk with spdm := s.stk.spdm ++ req } ∧ onlyIn (mRegs ||| mOuts ||| mStk) [rSEC_SPDM] [] s t) ∧
    (completes (.negotiateAlgorithms req false) s fun t => t.outs = s.outs ++ [.doe (.spdmAlgorithms ["ECDSA P-384", "SHA-384"])] ∧
      onlyIn (mRegs ||| mOuts ||| mStk) [rSEC_SPDM] [] s t) ∧
    (completes (.getDigests req false) s fun t => t.outs = s.outs ++ [.doe (.spdmDigests [Config.sha384 Config.certChain])] ∧
      onlyIn (mRegs ||| mOuts ||| mStk) [rSEC_SPDM] [] s t) ∧
    (completes (.getCertificate req false off len) s fun t =>
      t.outs = s.outs ++ [.doe (.spdmCertificate ((Config.certChain.drop off).take len))] ∧
      onlyIn (mRegs ||| mOuts ||| mStk) [rSEC_SPDM] [] s t) ∧
    (completes (.challenge req false) s fun t =>
      t.outs = s.outs ++ [.doe (.spdmChallenge (Config.idSign s.freeCtr (s.stk.spdm ++ req)))] ∧
      onlyIn (mRegs ||| mOuts ||| mFreeCtr ||| mStk) [rSEC_SPDM] [] s t) ∧
    (completes (.getMeasurements req false ix sg) s fun t =>
      (∃ sig, t.outs = s.outs ++ [.doe (.spdmMeasurements (((upTo 6).map fun i => (i + 1, SMap.get 0 s.stk.meas (i + 1))).filter
        fun b => ix.val == 255 || b.1 == ix.val) sig)] ∧ (sig = none ↔ sg = false)) ∧
      onlyIn (mRegs ||| mOuts ||| mFreeCtr ||| mStk) [rSEC_SPDM] [] s t) ∧
    completes (.spdmUnsupportedRequest req false) s fun t => t.outs.getLast? = some (.doe .spdmUnsupported) ∧
      t.fld rSEC_SPDM fSEC_SPDM_ERRORS = satN 16 (s.fld rSEC_SPDM fSEC_SPDM_ERRORS + 1) ∧
      t.fld rSEC_SPDM fSEC_SPDM_REQUESTS = (s.fld rSEC_SPDM fSEC_SPDM_REQUESTS + 1) % 2 ^ 32 ∧
      onlyIn (mEvent ||| mStk) [rSEC_SPDM] [985] s t)

/-- In READY, START on an IDLE or HALTED channel clears COUNT and leaves it RUNNING at the fetch of DMA_HEAD; in any other state it counts in
CFG_DISC. ABORT ends what a channel does, IDLE, with status 1 and the channel's event, and does nothing on an idle one. A binding is taken
on an idle channel for an OPEN runtime context that no other channel has, and else counts in CFG_DISC. Outside reset: a fetch at LIMIT, or
back at DMA_HEAD, ends the chain with 18 and reads nothing; a failed one ends it with 19 or 20; one that reads a descriptor counts it, and the
first check of R441 that fails ends it with its status, else it stands ready. A NOP ends DONE: the channel is IDLE with NEXT_VALID 0 and
else fetches NEXT, DESCS counts, LAST is 0, and its event is raised only with IRQ.
Where the spec leaves a point open this states the choice of the model, logged as assumption 22. -/
def Obligations.DmaChannels : Prop :=
  (∀ (c : Fin 128) (v : Word) (s : State), s.ready = true → fget v fDMA_CTRL_ABORT = 0 → s.selfRefresh = false →
    (s.dmaState c = 0 ∨ s.dmaState c = 3 →
      exec (.dmaStart c v) s = .next ((((s.dropStaged .host (rDMA_CTRL c)).setFld (rDMA_LIMIT c) fDMA_LIMIT_COUNT 0).setDma c { dma0 with
        phase := .fetch (s.fld (rDMA_HEAD c) fDMA_HEAD_ADDR * 64) (s.flag (rDMA_HEAD c) fDMA_HEAD_STORE) true }).setDmaState c 1)) ∧
    (s.dmaState c = 1 ∨ s.dmaState c = 2 →
      exec (.dmaStart c v) s = .next ((s.dropStaged .host (rDMA_CTRL c)).addSat (rDMA_STATUS c) fDMA_STATUS_CFG_DISC 1))) ∧
  (∀ (c : Fin 128) (v : Word) (s : State), s.ready = true → fget v fDMA_CTRL_START = 0 →
    (s.dmaState c = 0 ∨ s.dmaState c = 3 → exec (.dmaAbort c v) s = .next (s.dropStaged .host (rDMA_CTRL c))) ∧
    (s.dmaState c = 1 ∨ s.dmaState c = 2 → (s.dmaCh c).phase ≠ .none → (s.dmaCh c).refs = [] → (s.dmaCh c).op ≠ 1 → (s.dmaCh c).crec = false →
      completes (.dmaAbort c v) s fun t => t.dmaState c = 0 ∧ t.dmaCh c = dma0 ∧ t.fld (rDMA_STATUS c) fDMA_STATUS_LAST = 1 ∧
        (∀ k : Nat, k ≠ c → t.dmaCh k = s.dmaCh k) ∧
        onlyIn (mEvent ||| mStaged ||| mPorts ||| mDma) [rDMA_STATUS c, rDMA_BYTES c] [768 + c] s t)) ∧
  (∀ (c : Fin 128) (v : Word) (s : State), s.ready = true →
    (s.dmaState c = 0 ∨ s.dmaState c = 3 → (s.ctx (fget v fDMA_CFG_GIVE_CTX)).st = .opened →
      (s.ctx (fget v fDMA_CFG_GIVE_CTX)).runtime = true →
      (∀ k < 128, k ≠ c.val → s.flag (rDMA_CFG k) fDMA_CFG_GIVE_VALID = false ∨
        s.fld (rDMA_CFG k) fDMA_CFG_GIVE_CTX ≠ fget v fDMA_CFG_GIVE_CTX) →
      exec (.dmaGiveBind c v) s = .next ((s.dropStaged .host (rDMA_CFG c)).wrCodes (rDMA_CFG c)
        (keepRange (s.rd (rDMA_CFG c)) fDMA_CFG_IDLE_US 1 255 v) [])) ∧
    (fget v fDMA_CFG_GIVE_VALID = 1 → s.flag (rDMA_CFG c) fDMA_CFG_GIVE_VALID = false →
      (s.dmaState c = 1 ∨ s.dmaState c = 2 ∨ (s.ctx (fget v fDMA_CFG_GIVE_CTX)).st ≠ .opened ∨
        (s.ctx (fget v fDMA_CFG_GIVE_CTX)).runtime = false ∨
        ∃ k : Fin 128, k ≠ c ∧ s.flag (rDMA_CFG k) fDMA_CFG_GIVE_VALID = true ∧
          s.fld (rDMA_CFG k) fDMA_CFG_GIVE_CTX = fget v fDMA_CFG_GIVE_CTX) →
      exec (.dmaGiveBind c v) s = .next ((s.dropStaged .host (rDMA_CFG c)).addSat (rDMA_STATUS c) fDMA_STATUS_CFG_DISC 1))) ∧
  (∀ (c : Fin 128) (desc list : HostRead) (s : State), s.glb ≠ 0 →
    ((∀ a b f, (s.dmaCh c).phase ≠ .fetch a b f) → exec (.dmaDescFetch c desc list) s = .next s) ∧
    (∀ a b f, (s.dmaCh c).phase = .fetch a b f →
      (s.fld (rDMA_LIMIT c) fDMA_LIMIT_LIMIT = s.fld (rDMA_LIMIT c) fDMA_LIMIT_COUNT ∨
        f = false ∧ a / 64 = s.fld (rDMA_HEAD c) fDMA_HEAD_ADDR ∧ b = s.flag (rDMA_HEAD c) fDMA_HEAD_STORE) →
      completes (.dmaDescFetch c desc list) s fun t => t.dmaState c = 3 ∧ t.dmaCh c = dma0 ∧ t.fld (rDMA_STATUS c) fDMA_STATUS_LAST = 18 ∧
        t.fld (rDMA_ERR c) fDMA_ERR_ADDR = a / 64 % 2 ^ 58 ∧ t.flag (rDMA_ERR c) fDMA_ERR_STORE = b ∧
        onlyIn (mEvent ||| mDma) [rDMA_STATUS c, rDMA_ERR c, rDMA_ERR_INFO c] [768 + c] s t) ∧
    (∀ a at_ timeout, (s.dmaCh c).phase = .fetch a false true → s.fld (rDMA_LIMIT c) fDMA_LIMIT_LIMIT ≠ s.fld (rDMA_LIMIT c) fDMA_LIMIT_COUNT →
      s.busOk = true → desc.fail = some (at_, timeout) →
      completes (.dmaDescFetch c desc list) s fun t => t.dmaState c = 3 ∧ t.dmaCh c = dma0 ∧
        t.fld (rDMA_STATUS c) fDMA_STATUS_LAST = (if timeout then 19 else 20) ∧
        onlyIn (mEvent ||| mDma) [rGLB_HIF_CTO, rGLB_HIF_ERR, rDMA_LIMIT c, rDMA_STATUS c, rDMA_ERR c, rDMA_ERR_INFO c] [993, 994, 768 + c] s t) ∧
    (∀ a d, (s.dmaCh c).phase = .fetch a false true → s.fld (rDMA_LIMIT c) fDMA_LIMIT_LIMIT ≠ s.fld (rDMA_LIMIT c) fDMA_LIMIT_COUNT →
      s.busOk = true → desc.fail = none →
      d = { dma0 with
        phase := .ready, addr := a, words := descWords (desc.bytes.take 64)
        segs := [(fget ((descWords (desc.bytes.take 64)).getD 2 0) ⟨0, 64⟩, fget ((descWords (desc.bytes.take 64)).getD 3 0) ⟨0, 32⟩)] } →
      d.sg = false →
      (s.descCheck c d = none →
        exec (.dmaDescFetch c desc list) s = .next ((s.addMod (rDMA_LIMIT c) fDMA_LIMIT_COUNT 1).setDma c d)) ∧
      (∀ e, s.descCheck c d = some e → d.crec = false →
        completes (.dmaDescFetch c desc list) s fun t => t.dmaState c = 3 ∧ t.dmaCh c = dma0 ∧ t.fld (rDMA_STATUS c) fDMA_STATUS_LAST = e ∧
          t.fld (rDMA_LIMIT c) fDMA_LIMIT_COUNT = (s.fld (rDMA_LIMIT c) fDMA_LIMIT_COUNT + 1) % 2 ^ 32 ∧
          t.fld (rDMA_ERR c) fDMA_ERR_ADDR = a / 64 % 2 ^ 58 ∧ t.fld (rDMA_ERR_INFO c) fDMA_ERR_INFO_BEAT = 2 ^ 32 - 1 ∧
          t.fld (rDMA_ERR_INFO c) fDMA_ERR_INFO_BYTES = 0 ∧
          onlyIn (mEvent ||| mPorts ||| mDma) [rDMA_LIMIT c, rDMA_STATUS c, rDMA_BYTES c, rDMA_ERR c, rDMA_ERR_INFO c] [768 + c] s t) ∧
      (5 < d.op → s.descCheck c d = some 17) ∧
      (d.w 0 ⟨7, 25⟩ = 0 → d.w 1 ⟨2, 4⟩ = 0 → d.w 3 ⟨45, 19⟩ = 0 → d.words.getD 6 0 = 0 → d.words.getD 7 0 = 0 → d.crec = false →
        (d.op ≤ 5 → (d.host % 64 ≠ 0 ∨ d.len % 64 ≠ 0) → s.descCheck c d = some 16) ∧
        (d.op = 0 ∨ d.op = 4 ∨ d.op = 5 → d.host % 64 = 0 → d.len % 64 = 0 → s.descCheck c d = none) ∧
        (1 ≤ d.op → d.op ≤ 3 →
          (d.host % 64 = 0 → d.len % 64 = 0 → (d.op = 3 → d.storeOff % 64 = 0) →
            (d.len = 0 → s.descCheck c d = some 17) ∧
            (0 < d.len → d.op = 1 → s.takeCtx c = none → s.descCheck c d = some 23) ∧
            (0 < d.len → d.op = 2 → s.flag (rDMA_CFG c) fDMA_CFG_GIVE_VALID = false → s.descCheck c d = some 23) ∧
            (0 < d.len → d.op = 3 → (∃ b ∈ billetsOver d.storeOff d.len, (s.billet b).swref = 0) → s.descCheck c d = some 26)))))) ∧
  (∀ (c : Fin 128) (s : State), s.glb ≠ 0 →
    ((s.dmaCh c).phase ≠ .ready ∨ (s.dmaCh c).op ≠ 0 → exec (.dmaNop c) s = .next s) ∧
    ((s.dmaCh c).phase = .ready → (s.dmaCh c).op = 0 → (s.dmaCh c).crec = false → (s.dmaCh c).refs = [] →
      completes (.dmaNop c) s fun t =>
        t.fld (rDMA_STATUS c) fDMA_STATUS_DESCS = (s.fld (rDMA_STATUS c) fDMA_STATUS_DESCS + 1) % 2 ^ 32 ∧
        t.fld (rDMA_STATUS c) fDMA_STATUS_LAST = 0 ∧
        ((s.dmaCh c).w 1 ⟨0, 1⟩ = 0 → t.dmaCh c = dma0 ∧ t.dmaState c = 0) ∧
        ((s.dmaCh c).w 1 ⟨0, 1⟩ = 1 → t.dmaState c = s.dmaState c ∧
          t.dmaCh c = { dma0 with phase := .fetch ((s.dmaCh c).w 1 ⟨6, 58⟩ * 64) ((s.dmaCh c).w 1 ⟨1, 1⟩ == 1) false }) ∧
        ((s.dmaCh c).irq = false → t.evt = s.evt ∧ t.outs = s.outs ∧ t.hostMem = s.hostMem) ∧
        onlyIn (mEvent ||| mPorts ||| mDma) [rDMA_STATUS c, rDMA_BYTES c] [768 + c] s t))

/-- Outside reset, on a channel whose descriptor has passed the checks and whose turn it is: CTX_TAKE with no record waits, STATE 2; with a record that fits it
writes the record's copy at HOST and no other byte, counts its bytes, and waits for the next; one larger than LEN ends what it does with 24. The
arrival of a record resumes a wait, IDLE_US lets it commit when no further record is there. CTX_GIVE passes each whole record of the buffer to the store, counts
it, and stops at one that breaks R443 with 25; a failed read is counted and named. STORE_READ holds a reference on each billet and copies the
bytes to HOST, up to a poisoned line, which ends it with 22. REF_TAKE and REF_GIVE take and free one billet's reference, and end DONE, or 27 with the refusal. The commit ends the
descriptor with its status: DONE leaves the channel IDLE at the end of the chain, an error HALTED, with the event. A command whose operation
does not stand ready changes nothing.
Where the spec leaves a point open this states the choice of the model, logged as assumptions 5, 22, 71. -/
def Obligations.DmaOperations : Prop :=
  (∀ (c : Fin 128) (data : HostRead) (s : State), s.glb ≠ 0 → (s.dmaCh c).phase ≠ .ready →
    ∀ i ∈ [Instr.ctxTake c, .ctxGive c data, .storeRead c, .refTake c, .refGive c], exec i s = .next s) ∧
  (∀ (c : Fin 128) (data : HostRead) (s : State), s.dmaTurn c = false →
    ∀ i ∈ [Instr.ctxTake c, .ctxGive c data, .storeRead c, .dmaRecordAvailable c], exec i s = .next s) ∧
  (∀ (c : Fin 128) (x k a n : Nat) (s : State), s.glb ≠ 0 → s.dmaTurn c = true → s.takeCtx c = some (x, k) → (s.dmaCh c).op = 1 → (s.dmaCh c).recs = 0 →
    (s.dmaCh c).bytes = 0 → (s.dmaCh c).segs = [(a, n)] → (s.dmaCh c).len = n →
    ∀ i, (i = Instr.ctxTake c ∧ (s.dmaCh c).phase = .ready ∨ i = Instr.dmaRecordAvailable c ∧ (s.dmaCh c).phase = .moving) →
      ((s.ctx x).nextRec k = none →
        completes i s fun t => t.dmaState c = 2 ∧ t.dmaCh c = { s.dmaCh c with phase := .moving } ∧
          onlyIn (mRegs ||| mDma) [rDMA_STATUS c, rDMA_GSTAT] [] s t) ∧
      (∀ r, (s.ctx x).nextRec k = some r → r.typ ≠ tyPad → n < r.len →
        completes i s fun t => t.dmaState c = 1 ∧ t.dmaCh c = { s.dmaCh c with phase := .moved 24 noBeat 0 } ∧
          onlyIn (mRegs ||| mDma) [rDMA_STATUS c, rDMA_GSTAT] [] s t) ∧
      (∀ r, s.ctxs.sorted = true → k < (s.ctx x).dests.length → (s.ctx x).recs = [r] → (s.ctx x).nextRec k = some r →
        r.typ ≠ tyPad → r.len ≤ n → 0 < r.len → s.busOk = true →
        completes i s fun t => (t.dmaCh c).phase = .moving ∧ (t.dmaCh c).bytes = r.len ∧ (t.dmaCh c).recs = 1 ∧ t.dmaState c = 1 ∧
          t.hostMem = s.hostMem.write 0 a ((s.copyRec x k r).take n) ∧ ((t.ctx x).dest k).doneTo = max ((s.ctx x).dest k).doneTo (r.pos + r.len) ∧
          ((t.ctx x).dest k).fin = ((s.ctx x).dest k).fin ∧ (t.ctx x).recs = [r] ∧ (∀ y, y ≠ x → t.ctx y = s.ctx y) ∧
          onlyIn (mRegs ||| mHostMem ||| mCtxs ||| mDma) [rDMA_STATUS c, rDMA_GSTAT] [] s t)) ∧
  (∀ (c : Fin 128) (s : State), s.glb ≠ 0 →
    ((s.dmaCh c).phase ≠ .moving → exec (.dmaRecordAvailable c) s = .next s ∧ exec (.dmaIdleTimeout c) s = .next s) ∧
    ((s.dmaCh c).recs = 0 → exec (.dmaIdleTimeout c) s = .next s) ∧
    (∀ x k r, s.takeCtx c = some (x, k) → (s.ctx x).nextRec k = some r → exec (.dmaIdleTimeout c) s = .next s) ∧
    ((s.dmaCh c).phase = .moving → (s.dmaCh c).op = 1 → (s.dmaCh c).recs ≠ 0 → (∀ x k, s.takeCtx c = some (x, k) → (s.ctx x).nextRec k = none) →
      exec (.dmaIdleTimeout c) s = .next (s.setDma c { s.dmaCh c with phase := .moved 0 noBeat 0 }))) ∧
  (∀ (c : Fin 128) (data : HostRead) (x : Nat) (s : State), s.glb ≠ 0 → s.dmaTurn c = true → (s.dmaCh c).phase = .ready → (s.dmaCh c).op = 2 →
    (s.dmaCh c).recs = 0 → (s.dmaCh c).bytes = 0 → s.fld (rDMA_CFG c) fDMA_CFG_GIVE_CTX = x →
    (s.busOk = false →
      completes (.ctxGive c data) s fun t => t.dmaCh c = { s.dmaCh c with phase := .moved 22 0 0 } ∧ t.store = s.store ∧
        onlyIn (mRegs ||| mDma) [rDMA_GSTAT] [] s t) ∧
    (∀ timeout, s.busOk = true → data.fail = some (0, timeout) → 0 < (s.dmaCh c).len →
      completes (.ctxGive c data) s fun t => t.dmaCh c = { s.dmaCh c with phase := .moved (if timeout then 21 else 22) 0 0 } ∧
        t.store = s.store ∧ onlyIn (mEvent ||| mPorts ||| mDma) [rDMA_GSTAT, rGLB_HIF_CTO, rGLB_HIF_ERR] [993, 994] s t) ∧
    (s.busOk = true → data.fail = none → data.bytes.length = (s.dmaCh c).len → 32 ≤ data.bytes.length →
      (leNat (data.bytes.take 1) = tyPad ∨ leNat (data.bytes.take 1) = tyFault ∨
        (32 + leNat ((data.bytes.drop 24).take 8) % 2 ^ 32) % 64 ≠ 0 ∨ 4096 < 32 + leNat ((data.bytes.drop 24).take 8) % 2 ^ 32) →
      completes (.ctxGive c data) s fun t => t.dmaCh c = { s.dmaCh c with phase := .moved 25 noBeat 0 } ∧ t.store = s.store ∧
        onlyIn (mRegs ||| mPorts ||| mDma) [rDMA_GSTAT] [] s t) ∧
    (∀ (r : Prod) (b off : Nat), s.busOk = true → data.fail = none → data.bytes.length = (s.dmaCh c).len →
      giveRecs x data.bytes.length data.bytes.length (data.bytes.length / 64 + 1) 0 data.bytes = ([r], false) →
      0 < s.extFree → (s.ctx x).st = .opened → (s.ctx x).rate = 0 → (s.ctx x).faults = [] → (s.ctx x).tail = some (b, off) →
      off + r.size ≤ 16384 →
      completes (.ctxGive c data) s fun t => (t.dmaCh c).phase = .moved 0 noBeat 0 ∧ (t.dmaCh c).recs = 1 ∧ (t.dmaCh c).bytes = r.size ∧
        (t.ctx x).seq = (s.ctx x).seq + 1 ∧ (t.ctx x).wpos = (s.ctx x).wpos + r.size ∧ (t.port (dmaBox c)).inbox = [] ∧
        (∀ a, a < 16384 * b + off ∨ 16384 * b + off + r.size ≤ a → t.store.byte 0 a = s.store.byte 0 a) ∧
        Touches (mEvent ||| mFreeCtr ||| mStore ||| mCtxs ||| mBillets ||| mPorts ||| mBadLines ||| mDma) s t)) ∧
  (∀ (c : Fin 128) (b a : Nat) (s : State), s.glb ≠ 0 → s.dmaTurn c = true → (s.dmaCh c).phase = .ready → (s.dmaCh c).op = 3 → (s.dmaCh c).crec = false →
    (s.dmaCh c).recs = 0 → (s.dmaCh c).bytes = 0 → (s.dmaCh c).segs = [(a, (s.dmaCh c).len)] → 0 < (s.dmaCh c).len →
    billetsOver (s.dmaCh c).storeOff (s.dmaCh c).len = [b] →
    ((s.swTake (s.billet b).owner b).1 = 0 → s.busOk = true → s.badFrom (s.dmaCh c).storeOff (s.dmaCh c).len = none →
      completes (.storeRead c) s fun t => (t.billet b).swref = (s.billet b).swref + 1 ∧ (∀ k, k ≠ b → t.billet k = s.billet k) ∧
        t.dmaCh c = { s.dmaCh c with phase := .moved 0 noBeat 0, bytes := (s.dmaCh c).len, refs := [b] } ∧
        t.hostMem = s.hostMem.write 0 a (s.store.read 0 (s.dmaCh c).storeOff (s.dmaCh c).len) ∧
        onlyIn (mRegs ||| mHostMem ||| mBillets ||| mDma) [rDMA_GSTAT] [] s t) ∧
    (∀ n, (s.swTake (s.billet b).owner b).1 = 0 → s.busOk = true → (s.badLines ≠ [] ∨ s.mem.lost ≠ []) →
      s.badFrom (s.dmaCh c).storeOff (s.dmaCh c).len = some n →
      completes (.storeRead c) s fun t =>
        t.dmaCh c = { s.dmaCh c with phase := .moved 22 (n / 64) 0, bytes := n, refs := [b] } ∧
        t.hostMem = s.hostMem.write 0 a ((s.store.read 0 (s.dmaCh c).storeOff n).take (s.dmaCh c).len) ∧
        onlyIn (mRegs ||| mHostMem ||| mBillets ||| mDma) [rDMA_GSTAT] [] s t) ∧
    ((s.swTake (s.billet b).owner b).1 ≠ 0 →
      completes (.storeRead c) s fun t => t.billets = s.billets ∧ t.dmaState c = 3 ∧ t.dmaCh c = dma0 ∧
        t.fld (rDMA_STATUS c) fDMA_STATUS_LAST = 27 ∧
        onlyIn (mEvent ||| mPorts ||| mDma) [rDMA_GSTAT, rSTO_CNT1, rDMA_STATUS c, rDMA_BYTES c, rDMA_ERR c, rDMA_ERR_INFO c]
          [643, 768 + c] s t)) ∧
  (∀ (c : Fin 128) (s : State), s.glb ≠ 0 → (s.dmaCh c).phase = .ready → (s.dmaCh c).crec = false → (s.dmaCh c).refs = [] →
    (s.dmaCh c).irq = false → (s.dmaCh c).w 1 ⟨0, 1⟩ = 0 →
    ((s.dmaCh c).op = 4 → (s.swTake (s.dmaCh c).refCtx (s.dmaCh c).billet).1 = 0 →
      completes (.refTake c) s fun t =>
        t.billet (s.dmaCh c).billet = { s.billet (s.dmaCh c).billet with swref := (s.billet (s.dmaCh c).billet).swref + 1 } ∧
        (∀ k, k ≠ (s.dmaCh c).billet → t.billet k = s.billet k) ∧ t.dmaState c = 0 ∧ t.dmaCh c = dma0 ∧
        t.fld (rDMA_STATUS c) fDMA_STATUS_LAST = 0 ∧
        onlyIn (mRegs ||| mBillets ||| mPorts ||| mDma) [rDMA_STATUS c, rDMA_BYTES c] [] s t) ∧
    ((s.dmaCh c).op = 4 → (s.swTake (s.dmaCh c).refCtx (s.dmaCh c).billet).1 ≠ 0 →
      completes (.refTake c) s fun t => t.billets = s.billets ∧ t.dmaState c = 3 ∧ t.fld (rDMA_STATUS c) fDMA_STATUS_LAST = 27 ∧
        onlyIn (mEvent ||| mPorts ||| mDma) [rSTO_CNT1, rDMA_STATUS c, rDMA_BYTES c, rDMA_ERR c, rDMA_ERR_INFO c] [643, 768 + c] s t) ∧
    ((s.dmaCh c).op = 5 → (s.dmaCh c).billet < nBillets → 2 ≤ (s.billet (s.dmaCh c).billet).swref →
      (s.billet (s.dmaCh c).billet).used = true → (s.billet (s.dmaCh c).billet).hbias = false →
      (s.billet (s.dmaCh c).billet).switch = none →
      completes (.refGive c) s fun t =>
        t.billet (s.dmaCh c).billet =
          { s.billet (s.dmaCh c).billet with swref := (s.billet (s.dmaCh c).billet).swref - 1, defer := true } ∧
        (∀ k, k ≠ (s.dmaCh c).billet → t.billet k = s.billet k) ∧ t.dmaState c = 0 ∧ t.dmaCh c = dma0 ∧
        t.fld rSTO_CNT0 fSTO_CNT0_FREE_DEFERRED = satN 32 (s.fld rSTO_CNT0 fSTO_CNT0_FREE_DEFERRED + 1) ∧
        onlyIn (mRegs ||| mBillets ||| mPorts ||| mDma) [rSTO_CNT0, rDMA_STATUS c, rDMA_BYTES c] [] s t) ∧
    ((s.dmaCh c).op = 5 → (s.billet (s.dmaCh c).billet).swref = 0 →
      completes (.refGive c) s fun t => t.billets = s.billets ∧ t.dmaState c = 3 ∧ t.fld (rDMA_STATUS c) fDMA_STATUS_LAST = 27 ∧
        onlyIn (mEvent ||| mPorts ||| mDma) [rSTO_CNT1, rDMA_STATUS c, rDMA_BYTES c, rDMA_ERR c, rDMA_ERR_INFO c] [642, 768 + c] s t)) ∧
  (∀ (c : Fin 128) (s : State), s.glb ≠ 0 →
    ((∀ a b d, (s.dmaCh c).phase ≠ .moved a b d) → exec (.dmaDataCompletion c) s = .next s) ∧
    (∀ st beat, (s.dmaCh c).phase = .moved st beat 0 → (s.port (dmaBox c)).inbox = [] → (s.dmaCh c).refs = [] → (s.dmaCh c).op ≠ 1 →
      (s.dmaCh c).crec = false → (s.dmaCh c).w 1 ⟨0, 1⟩ = 0 →
      (st = 0 → (s.dmaCh c).irq = false →
        completes (.dmaDataCompletion c) s fun t => t.dmaState c = 0 ∧ t.dmaCh c = dma0 ∧ t.fld (rDMA_STATUS c) fDMA_STATUS_LAST = 0 ∧
          (t.rd (rDMA_BYTES c)).toNat = ((s.rd (rDMA_BYTES c)).toNat + (s.dmaCh c).bytes) % 2 ^ 64 ∧
          onlyIn (mRegs ||| mPorts ||| mDma) [rDMA_STATUS c, rDMA_BYTES c] [] s t) ∧
      (16 ≤ st → st < 256 →
        completes (.dmaDataCompletion c) s fun t => t.dmaState c = 3 ∧ t.dmaCh c = dma0 ∧ t.fld (rDMA_STATUS c) fDMA_STATUS_LAST = st ∧
          t.fld (rDMA_ERR c) fDMA_ERR_ADDR = (s.dmaCh c).addr / 64 % 2 ^ 58 ∧
          t.fld (rDMA_ERR_INFO c) fDMA_ERR_INFO_BEAT = beat % 2 ^ 32 ∧
          t.fld (rDMA_ERR_INFO c) fDMA_ERR_INFO_BYTES = (s.dmaCh c).bytes % 2 ^ 32 ∧
          onlyIn (mEvent ||| mPorts ||| mDma) [rDMA_STATUS c, rDMA_BYTES c, rDMA_ERR c, rDMA_ERR_INFO c] [768 + c] s t)))

/-- In READY a legal MODE is written and every sub-port of the port loses LINK; an illegal one is ignored. Outside reset: a lock gives LINK
and SPEED and its event and shifts the timers of the sub-port's avenues by the time LINK was gone; a loss clears LINK, counts in DOWNS and
drops what is queued. Without LINK nothing is received. A frame with a bad FCS or an uncorrectable codeword counts in RX_ERR, one for another
MAC is dropped, a datagram with a bad checksum counts in CSUM_ERR, and any other frame counts in RX_FRAMES and goes into the next slot of the
exception ring, or counts in EXQ_DROP with 916 when the ring has none. A pause holds transmission for its time where enabled; at its end what
waited is sent. RELEASE and TAIL move their indices, and a transmit descriptor is sent whole and marked done, stamped where TS asks for it, unless an avenue of a
GUARANTEED or ASSURED context stands before it; a bad one counts in TX_BAD. Which frames get a stamp is the model's reading (assumption 72).
Where the spec leaves a point open this states the choice of the model, logged as assumptions 51, 72. -/
def Obligations.NetworkPorts : Prop :=
  (∀ (p : Fin 4) (v : Word) (s : State), s.ready = true →
    (5 < fget v fNET_PORT_CFG_MODE → exec (.netPortCfgWrite p v) s = .next (s.dropStaged .host (rNET_PORT_CFG p))) ∧
    (fget v fNET_PORT_CFG_MODE ≤ 5 → s.avesUp = [] →
      completes (.netPortCfgWrite p v) s fun t => t.fld (rNET_PORT_CFG p) fNET_PORT_CFG_MODE = fget v fNET_PORT_CFG_MODE ∧
        (∀ k < 4, t.linkUp (4 * p + k) = false) ∧ (∀ i, i / 4 ≠ p.val → t.netS i = s.netS i) ∧
        Touches (mEvent ||| mStaged ||| mNet) s t)) ∧
  (∀ (i : Fin 16) (s : State), s.glb ≠ 0 →
    (s.linkUp i = true ∨ s.subExists i = false → exec (.netLinkUp i) s = .next s) ∧
    (∀ l, s.linkUp i = false → s.subExists i = true → (s.avesUp.filter fun a => s.aveSub a == i) = l → l.length ≤ 1 →
      completes (.netLinkUp i) s fun t => t.linkUp i = true ∧ t.fld (rNET_SUB_STATUS i) fNET_SUB_STATUS_SPEED = s.subSpeed i ∧
        (∀ a, t.aveU a = if a ∈ l then (s.aveU a).shift (s.time - (s.netS i).down) else s.aveU a) ∧
        onlyIn (mEvent ||| mAve) [rNET_SUB_STATUS i] [896 + i] s t)) ∧
  (∀ (i : Fin 16) (s : State), s.glb ≠ 0 →
    (s.linkUp i = false → exec (.netLinkLoss i) s = .next s) ∧
    (s.linkUp i = true →
      completes (.netLinkLoss i) s fun t => t.linkUp i = false ∧ t.fld (rNET_SUB_STATUS i) fNET_SUB_STATUS_SPEED = 0 ∧
        t.fld (rNET_SUB_STATUS i) fNET_SUB_STATUS_DOWNS = satN 16 (s.fld (rNET_SUB_STATUS i) fNET_SUB_STATUS_DOWNS + 1) ∧
        t.netS i = { s.netS i with pause := none, down := s.time, queue := [] } ∧ (∀ k : Nat, k ≠ i → t.netS k = s.netS k) ∧
        t.fld (rNET_EXQ_TX_IDX i) fNET_EXQ_TX_IDX_DONE_IDX = s.fld (rNET_EXQ_TX_IDX i) fNET_EXQ_TX_IDX_TAIL ∧
        onlyIn (mEvent ||| mNet) [rNET_SUB_STATUS i, rNET_EXQ_TX_IDX i] [896 + i] s t)) ∧
  (∀ (i : Fin 16) (x : NetFrame) (s : State), s.glb ≠ 0 →
    (s.linkUp i = false → exec (.netFrameRx i x) s = .next s) ∧
    (s.linkUp i = true → x.badFcs = true ∨ 0 < x.uncorr →
      completes (.netFrameRx i x) s fun t =>
        t.fld (rNET_SUB_CNT1 i) fNET_SUB_CNT1_RX_ERR = satN 16 (s.fld (rNET_SUB_CNT1 i) fNET_SUB_CNT1_RX_ERR + 1) ∧
        t.fld (rNET_PORT_FEC (i / 4)) fNET_PORT_FEC_FEC_CORR = (s.fld (rNET_PORT_FEC (i / 4)) fNET_PORT_FEC_FEC_CORR + x.corr) % 2 ^ 32 ∧
        t.fld (rNET_PORT_FEC (i / 4)) fNET_PORT_FEC_FEC_UNCORR = satN 32 (s.fld (rNET_PORT_FEC (i / 4)) fNET_PORT_FEC_FEC_UNCORR + x.uncorr) ∧
        onlyIn mEvent [rNET_PORT_FEC (i / 4), rNET_SUB_CNT1 i] [912 + i / 4] s t) ∧
    (∀ d, s.linkUp i = true → x.badFcs = false → x.uncorr = 0 → x.bytes.length + 4 ≤ s.fld (rNET_SUB_CFG i) fNET_SUB_CFG_MAX_FRAME →
      beNat (at_ x.bytes 12 2) ≠ 0x8808 → beNat (at_ x.bytes 0 6) = d →
      (d ≠ s.fld (rNET_SUB_MAC i) fNET_SUB_MAC_MAC → d ≠ 2 ^ 48 - 1 →
        s.flag (rNET_SUB_CFG i) fNET_SUB_CFG_MCAST = false ∨ d / 2 ^ 40 % 2 = 0 →
        completes (.netFrameRx i x) s fun t => onlyIn mRegs [rNET_PORT_FEC (i / 4)] [] s t) ∧
      (∀ u, d = s.fld (rNET_SUB_MAC i) fNET_SUB_MAC_MAC → udpOf x.bytes = some u → beNat (at_ x.bytes (u.o + 6) 2) ≠ 0 →
        udpSum x.bytes u ≠ 0xFFFF →
        completes (.netFrameRx i x) s fun t =>
          t.fld (rNET_SUB_CNT1 i) fNET_SUB_CNT1_CSUM_ERR = satN 16 (s.fld (rNET_SUB_CNT1 i) fNET_SUB_CNT1_CSUM_ERR + 1) ∧
          onlyIn mRegs [rNET_PORT_FEC (i / 4), rNET_SUB_CNT1 i] [] s t) ∧
      (∀ lg wr slot, d = s.fld (rNET_SUB_MAC i) fNET_SUB_MAC_MAC → beNat (at_ x.bytes 12 2) ≠ 0x0800 → beNat (at_ x.bytes 12 2) ≠ 0x86DD →
        beNat (at_ x.bytes 12 2) ≠ 0x88F7 → s.fld (rNET_EXQ_RX i) fNET_EXQ_RX_LOG2 = lg →
        s.fld (rNET_EXQ_RX_IDX i) fNET_EXQ_RX_IDX_WRITTEN = wr → s.fld (rNET_EXQ_RX i) fNET_EXQ_RX_ADDR * 64 + wr % 2 ^ lg * 9280 = slot →
        (lg ≠ 0 → (wr + 65536 - s.fld (rNET_EXQ_RX_IDX i) fNET_EXQ_RX_IDX_RELEASED) % 65536 < 2 ^ lg → s.busOk = true →
          completes (.netFrameRx i x) s fun t =>
            t.fld (rNET_SUB_CNT0 i) fNET_SUB_CNT0_RX_FRAMES = (s.fld (rNET_SUB_CNT0 i) fNET_SUB_CNT0_RX_FRAMES + 1) % 2 ^ 32 ∧
            t.fld (rNET_EXQ_RX_IDX i) fNET_EXQ_RX_IDX_WRITTEN = (wr + 1) % 65536 ∧ t.hostMem.read 0 (slot + 64) x.bytes.length = x.bytes ∧
            t.hostMem.read 0 slot 8 = leBytes 8 (x.bytes.length % 2 ^ 14 + i * 2 ^ 18 + (1 - wr / 2 ^ lg % 2) * 2 ^ 63) ∧
            t.hostMem.read 0 (slot + 8) 8 = leBytes 8 s.time ∧
            (∀ a, a < slot ∨ slot + 64 + x.bytes.length ≤ a → t.hostMem.byte 0 a = s.hostMem.byte 0 a) ∧
            onlyIn (mRegs ||| mHostMem) [rNET_PORT_FEC (i / 4), rNET_SUB_CNT0 i, rNET_EXQ_RX_IDX i] [] s t) ∧
        (lg = 0 ∨ 2 ^ lg ≤ (wr + 65536 - s.fld (rNET_EXQ_RX_IDX i) fNET_EXQ_RX_IDX_RELEASED) % 65536 ∨ s.busOk = false →
          completes (.netFrameRx i x) s fun t =>
            t.fld (rNET_SUB_CNT1 i) fNET_SUB_CNT1_EXQ_DROP = satN 16 (s.fld (rNET_SUB_CNT1 i) fNET_SUB_CNT1_EXQ_DROP + 1) ∧
            onlyIn mEvent [rNET_PORT_FEC (i / 4), rNET_SUB_CNT0 i, rNET_SUB_CNT1 i] [916] s t)))) ∧
  (∀ (i : Fin 16) (q : Fin 65536) (s : State), s.glb ≠ 0 →
    (s.flag (rNET_SUB_CFG i) fNET_SUB_CFG_PAUSE_RX = false ∨ s.linkUp i = false → exec (.pauseFrameRx i q none) s = .next s) ∧
    (s.flag (rNET_SUB_CFG i) fNET_SUB_CFG_PAUSE_RX = true → s.linkUp i = true → 0 < q.val →
      exec (.pauseFrameRx i q none) s =
        .next (s.updNet i fun n => { n with pause := some ((n.pause.map (·.1)).getD s.time, s.time + s.quanta i q) })) ∧
    (∀ l : List (Fin 8 × Fin 65536), s.flag (rNET_SUB_CFG i) fNET_SUB_CFG_PFC_RX = false ∨
      (∀ e ∈ l, e.1.val ≠ s.fld (rNET_SUB_CFG i) fNET_SUB_CFG_PFC_PRIO) → exec (.pauseFrameRx i q (some l)) s = .next s) ∧
    (∀ pr : Fin 8, s.flag (rNET_SUB_CFG i) fNET_SUB_CFG_PFC_RX = true → s.linkUp i = true → 0 < q.val →
      s.fld (rNET_SUB_CFG i) fNET_SUB_CFG_PFC_PRIO = pr →
      exec (.pauseFrameRx i 0 (some [(pr, q)])) s =
        .next (s.updNet i fun n => { n with pause := some ((n.pause.map (·.1)).getD s.time, s.time + s.quanta i q) }))) ∧
  (∀ (i : Fin 16) (s : State), s.glb ≠ 0 →
    ((s.netS i).pause = none → exec (.pauseExpiry i) s = .next s) ∧
    (∀ t0 t1, (s.netS i).pause = some (t0, t1) → s.linkUp i = true → s.held = false →
      completes (.pauseExpiry i) s fun t => t.time = max s.time t1 ∧ t.netS i = { s.netS i with pause := none, queue := [] } ∧
        t.outs = s.outs ++ (s.netS i).queue ∧
        t.fld (rNET_SUB_STATUS i) fNET_SUB_STATUS_PAUSED_US =
          satN 32 (s.fld (rNET_SUB_STATUS i) fNET_SUB_STATUS_PAUSED_US + s.ticksUs (max s.time t1 - t0)) ∧
        onlyIn (mRegs ||| mOuts ||| mTime ||| mNet) [rNET_SUB_STATUS i, rNET_SUB_CNT0 i] [] s t)) ∧
  (∀ (i : Fin 16) (v : Word) (used : Nat) (s : State), s.ready = true →
    (s.fld (rNET_EXQ_RX_IDX i) fNET_EXQ_RX_IDX_WRITTEN + 65536 - s.fld (rNET_EXQ_RX_IDX i) fNET_EXQ_RX_IDX_RELEASED) % 65536 = used →
    (fget v fNET_EXQ_RX_IDX_RELEASE ≤ used →
      exec (.exqRxRelease i v) s = .next ((s.dropStaged .host (rNET_EXQ_RX_IDX i)).addMod (rNET_EXQ_RX_IDX i) fNET_EXQ_RX_IDX_RELEASED
        (fget v fNET_EXQ_RX_IDX_RELEASE))) ∧
    (used < fget v fNET_EXQ_RX_IDX_RELEASE → exec (.exqRxRelease i v) s = .next (s.dropStaged .host (rNET_EXQ_RX_IDX i)))) ∧
  (∀ (i : Fin 16) (v : Word) (s : State), s.ready = true →
    completes (.exqTxTail i v) s fun t => t.fld (rNET_EXQ_TX_IDX i) fNET_EXQ_TX_IDX_TAIL = fget v fNET_EXQ_TX_IDX_TAIL ∧
      t.fld (rNET_EXQ_TX_IDX i) fNET_EXQ_TX_IDX_DONE_IDX =
        (if s.linkUp i then s.fld (rNET_EXQ_TX_IDX i) fNET_EXQ_TX_IDX_DONE_IDX else fget v fNET_EXQ_TX_IDX_TAIL) ∧
      onlyIn (mRegs ||| mStaged) [rNET_EXQ_TX_IDX i] [] s t) ∧
  (∀ (i : Fin 16) (desc data : HostRead) (fine : Fin 512) (dn lg w1 a : Nat) (s : State), s.glb ≠ 0 →
    s.fld (rNET_EXQ_TX_IDX i) fNET_EXQ_TX_IDX_DONE_IDX = dn → s.fld (rNET_EXQ_TX i) fNET_EXQ_TX_LOG2 = lg →
    leNat (at_ desc.bytes 8 8) = w1 → s.fld (rNET_EXQ_TX i) fNET_EXQ_TX_ADDR * 64 + dn % 2 ^ lg * 64 = a →
    (lg = 0 ∨ dn = s.fld (rNET_EXQ_TX_IDX i) fNET_EXQ_TX_IDX_TAIL ∨ s.linkUp i = false ∨ (s.netS i).pause ≠ none ∨ s.busOk = false ∨
        ((s.aveFirst i).any fun e => e.2.1 < 4) = true → exec (.exqTxSend i desc data fine) s = .next s) ∧
    (lg ≠ 0 → dn ≠ s.fld (rNET_EXQ_TX_IDX i) fNET_EXQ_TX_IDX_TAIL → s.linkUp i = true → (s.netS i).pause = none → s.busOk = true →
      ((s.aveFirst i).any fun e => e.2.1 < 4) = false →
      (desc.fail = none → data.fail = none → 60 ≤ w1 % 2 ^ 14 → w1 % 2 ^ 14 ≤ 9212 → w1 / 2 ^ 16 % 2 = 0 → w1 / 2 ^ 18 % 2 = 0 →
        data.bytes.length = w1 % 2 ^ 14 →
        completes (.exqTxSend i desc data fine) s fun t => t.outs = s.outs ++ [.frame i data.bytes] ∧
          t.fld (rNET_EXQ_TX_IDX i) fNET_EXQ_TX_IDX_DONE_IDX = (dn + 1) % 65536 ∧
          t.fld (rNET_SUB_CNT0 i) fNET_SUB_CNT0_TX_FRAMES = (s.fld (rNET_SUB_CNT0 i) fNET_SUB_CNT0_TX_FRAMES + 1) % 2 ^ 32 ∧
          t.hostMem = s.hostMem.write 0 (a + 8) (leBytes 8 (w1 % 2 ^ 63 + 2 ^ 63) ++ (if w1 / 2 ^ 17 % 2 = 1 then leBytes 8 s.time ++
            leBytes 8 fine else leBytes 16 0)) ∧
          onlyIn (mRegs ||| mOuts ||| mHostMem) [rNET_SUB_CNT0 i, rNET_EXQ_TX_IDX i] [] s t) ∧
      (desc.fail ≠ none ∨ data.fail ≠ none ∨ w1 % 2 ^ 14 < 60 ∨ 9212 < w1 % 2 ^ 14 →
        completes (.exqTxSend i desc data fine) s fun t => t.outs = s.outs ∧
          t.fld (rNET_EXQ_TX_IDX i) fNET_EXQ_TX_IDX_DONE_IDX = (dn + 1) % 65536 ∧
          t.fld (rNET_SUB_CNT1 i) fNET_SUB_CNT1_TX_BAD = satN 16 (s.fld (rNET_SUB_CNT1 i) fNET_SUB_CNT1_TX_BAD + 1) ∧
          onlyIn (mRegs ||| mHostMem) [rNET_SUB_CNT1 i, rNET_EXQ_TX_IDX i] [] s t)))

/-- In READY, OPEN is refused with the reason of R468, or leaves the avenue in LISTEN or OPENING with a new nonce, and then an OPEN packet
leaves; CLOSE acts in OPEN, RESET in FAILED, SKIP in every other state than OPEN, and a refusal only sets REASON. A packet that no avenue takes
changes no avenue: it counts in BAD_HEADER, NO_AVENUE, BAD_NONCE (there alone, assumption 72) or QDROP, or as an avenue's violation 1 when
its header is wrong. OPEN in LISTEN is answered and opens, OPEN_ACK opens in OPENING, CLOSE in OPEN is
answered and closes, CLOSE_ACK closes in CLOSING, a NAK only is heard. A packet that the state does not allow counts in VIOL, and one more than
VIOL_MAX within a second quarantines the avenue for a second. RTO_US resends OPEN, CLOSE or a range, which waits while its avenue has data to send first, and gives up after RETRY_MAX; DEAD_MS fails
an avenue.
Where the spec leaves a point open this states the choice of the model, logged as assumptions 21, 52, 72. -/
def Obligations.AvenueStates : Prop :=
  (∀ (a : Fin 4096) (v : Word) (x : Nat) (s : State), s.ready = true → s.aveCtx a = x →
    (s.aveState a ≠ 0 → exec (.aveCmdOpen a v) s = .next ((s.dropStaged .host (rAVE_CMD a)).setFld (rAVE_STATUS a) fAVE_STATUS_REASON 17)) ∧
    (s.aveState a = 0 → s.aveBound a = false → exec (.aveCmdOpen a v) s = .next ((s.dropStaged .host (rAVE_CMD a)).setFld (rAVE_STATUS a) fAVE_STATUS_REASON 16)) ∧
    (s.aveState a = 0 → s.aveBound a = true → s.aveAddressed a = false →
      exec (.aveCmdOpen a v) s = .next ((s.dropStaged .host (rAVE_CMD a)).setFld (rAVE_STATUS a) fAVE_STATUS_REASON 18)) ∧
    (s.aveState a = 0 → s.aveBound a = true → s.aveAddressed a = true → s.subExists (s.aveSub a) = false →
      exec (.aveCmdOpen a v) s = .next ((s.dropStaged .host (rAVE_CMD a)).setFld (rAVE_STATUS a) fAVE_STATUS_REASON 19)) ∧
    (s.aveState a = 0 → s.aveBound a = true → s.aveAddressed a = true → s.subExists (s.aveSub a) = true →
      (s.flag (rAVE_CFG a) fAVE_CFG_ROLE = true →
        completes (.aveCmdOpen a v) s fun t => t.aveState a = 2 ∧ t.fld (rAVE_STATUS a) fAVE_STATUS_REASON = 0 ∧
          t.aveU a = { ave0 with own := Config.nonce s.freeCtr % 2 ^ 32, heard := s.time } ∧
          onlyIn (mRegs ||| mStaged ||| mFreeCtr ||| mAve) [rAVE_STATUS a] [] s t) ∧
      (s.flag (rAVE_CFG a) fAVE_CFG_ROLE = false → aveCanSend a s →
        completes (.aveCmdOpen a v) s fun t => t.aveState a = 1 ∧ t.fld (rAVE_STATUS a) fAVE_STATUS_REASON = 0 ∧
          (t.aveU a).own = Config.nonce s.freeCtr % 2 ^ 32 ∧ (t.aveU a).tries = 1 ∧ (t.aveU a).at_ = s.time ∧
          aveSent a 1 0 0 0 s.time (openBody (t.aveU a).own (!s.aveIn a) (if s.aveIn a then (t.aveU a).limit else 0)) s t ∧
          onlyIn (mRegs ||| mStaged ||| mOuts ||| mFreeCtr ||| mAve) [rAVE_STATUS a, rNET_SUB_CNT0 (s.aveSub a)] [] s t)) ∧
    (s.aveState a ≠ 3 → exec (.aveCmdClose a v) s = .next ((s.dropStaged .host (rAVE_CMD a)).setFld (rAVE_STATUS a) fAVE_STATUS_REASON 17)) ∧
    (s.aveState a = 3 → (s.aveU a).part = [] → aveCanSend a s →
      completes (.aveCmdClose a v) s fun t => t.aveState a = 4 ∧ (t.aveU a).tries = 1 ∧ (t.aveU a).at_ = s.time ∧
        aveSent a 6 0 (s.aveU a).next 0 0 [] s t ∧
        onlyIn (mRegs ||| mStaged ||| mOuts ||| mAve) [rAVE_STATUS a, rNET_SUB_CNT0 (s.aveSub a)] [] s t) ∧
    (s.aveState a ≠ 5 → exec (.aveCmdReset a v) s = .next ((s.dropStaged .host (rAVE_CMD a)).setFld (rAVE_STATUS a) fAVE_STATUS_REASON 17)) ∧
    (s.aveState a = 5 → completes (.aveCmdReset a v) s fun t => t.aveState a = 0 ∧ t.fld (rAVE_STATUS a) fAVE_STATUS_REASON = 0 ∧
      onlyIn (mRegs ||| mStaged) [rAVE_STATUS a] [] s t) ∧
    (s.aveState a = 3 → exec (.aveCmdSkip a v) s = .next ((s.dropStaged .host (rAVE_CMD a)).setFld (rAVE_STATUS a) fAVE_STATUS_REASON 17)) ∧
    (s.aveState a ≠ 3 → (s.ctx x).findDest 3 a = none → exec (.aveCmdSkip a v) s = .next (s.dropStaged .host (rAVE_CMD a))) ∧
    (∀ d n, s.aveState a ≠ 3 → (s.ctx x).findDest 3 a = some d → d < (s.ctx x).dests.length → (s.ctx x).st = .opened →
      (s.ctx x).itemsFrom d ((s.ctx x).dest d).fin = n → 0 < n →
      completes (.aveCmdSkip a v) s fun t => (t.ctx x).lost = satN 64 ((s.ctx x).lost + n) ∧
        ((t.ctx x).dest d).fin =
          (s.ctx x).skipPast d (s.ctx x).recs.length (max ((s.ctx x).dest d).fin ((s.ctx x).destEnd d)) ∧
        ((t.ctx x).dest d).gap = ((s.ctx x).dest d).gap ++ [((s.ctx x).dest d).fin] ∧ t.aveState a = s.aveState a ∧
        Touches (mRegs ||| mStaged ||| mCtxs ||| mBillets) s t)) ∧
  (∀ (i : Fin 16) (p : AvePkt) (s : State), s.glb ≠ 0 →
    ∀ e ∈ [(Instr.pktOpen, 1), (.pktOpenAck, 2), (.pktData, 3), (.pktAck, 4), (.pktNak, 5), (.pktClose, 6), (.pktCloseAck, 7),
        (.pktTrigger, 8), (.pktTrigAck, 9)],
      (s.linkUp i = false → exec (e.1 i p) s = .next s) ∧
      (∀ q a, s.linkUp i = true → q = { p with w0 := fset p.w0 ⟨12, 4⟩ e.2 } → fget q.w0 ⟨44, 12⟩ = a →
        (pktHeaderOk q = false → s.aveMatches a q = false →
          exec (e.1 i p) s = .next (s.addSat (rAVE_UNATTR i) fAVE_UNATTR_BAD_HEADER 1)) ∧
        (pktHeaderOk q = false → s.aveMatches a q = true → s.aveState a ≠ 6 →
          completes (e.1 i p) s fun t => t.fld (rAVE_STATUS a) fAVE_STATUS_VIOL = satN 16 (s.fld (rAVE_STATUS a) fAVE_STATUS_VIOL + 1) ∧
            t.fld (rAVE_STATUS a) fAVE_STATUS_LAST_VIOL = 1 ∧ t.aveState a = s.aveState a ∧ onlyIn mEvent [rAVE_STATUS a] [931] s t) ∧
        (pktHeaderOk q = true → s.aveMatches a q = false →
          completes (e.1 i p) s fun t =>
            t.fld (rAVE_UNATTR i) fAVE_UNATTR_NO_AVENUE = satN 32 (s.fld (rAVE_UNATTR i) fAVE_UNATTR_NO_AVENUE + 1) ∧
            t.ave = s.ave ∧ onlyIn (mRegs ||| mOuts ||| mNet) [rAVE_UNATTR i, rNET_SUB_CNT0 i] [] s t) ∧
        (s.aveMatches a q = true → s.aveState a = 6 →
          exec (e.1 i p) s = .next (s.addSat (rAVE_CNT1 a) fAVE_CNT1_QDROP 1)) ∧
        (pktHeaderOk q = true → s.aveMatches a q = true → s.aveState a ≠ 6 → e.2 ≠ 1 → fget q.w2 ⟨32, 32⟩ ≠ (s.aveU a).own →
          exec (e.1 i p) s = .next (s.addSat (rAVE_UNATTR i) fAVE_UNATTR_BAD_NONCE 1))) ∧
      (∀ q a, aveTakes i e.2 a p q s →
        (e.2 = 1 ∧ s.aveState a ≠ 2 ∧ s.aveState a ≠ 3 ∨ e.2 = 2 ∧ s.aveState a ≠ 1 ∧ s.aveState a ≠ 3 ∨
          e.2 = 3 ∧ (s.aveState a ≠ 3 ∨ s.aveIn a = false) ∨ e.2 = 4 ∧ (s.aveState a ≠ 3 ∨ s.aveIn a = true) ∨
          e.2 = 6 ∧ s.aveState a ≠ 3 ∨ e.2 = 7 ∧ s.aveState a ≠ 4 ∨ (e.2 = 8 ∨ e.2 = 9) ∧ s.aveState a ≠ 3) →
        ((s.aveU a).viols.length < s.avePar a fAVE_PARAM_VIOL_MAX →
          completes (e.1 i p) s fun t => t.fld (rAVE_STATUS a) fAVE_STATUS_VIOL = satN 16 (s.fld (rAVE_STATUS a) fAVE_STATUS_VIOL + 1) ∧
            t.fld (rAVE_STATUS a) fAVE_STATUS_LAST_VIOL = 6 ∧ t.aveState a = s.aveState a ∧ (t.aveU a).next = (s.aveU a).next ∧
            onlyIn (mEvent ||| mNet ||| mAve) [rAVE_STATUS a, rNET_SUB_CNT0 (s.aveSub a)] [931] s t) ∧
        (s.avePar a fAVE_PARAM_VIOL_MAX ≤ (s.aveU a).viols.length → (∀ v ∈ (s.aveU a).viols, s.time < v + s.usTicks 1000000) →
          completes (e.1 i p) s fun t => t.aveState a = 6 ∧ (t.aveU a).prev = s.aveState a ∧ (t.aveU a).quar = s.time ∧
            t.fld (rAVE_STATUS a) fAVE_STATUS_QUARANTINES = satN 16 (s.fld (rAVE_STATUS a) fAVE_STATUS_QUARANTINES + 1) ∧
            onlyIn (mEvent ||| mNet ||| mAve) [rAVE_STATUS a, rNET_SUB_CNT0 (s.aveSub a)] [931, 932] s t))) ∧
  (∀ (i : Fin 16) (a : Nat) (p q : AvePkt) (s : State),
    (aveTakes i 1 a p q s → s.aveState a = 2 → pktSends q = s.aveIn a → aveCanSend a s →
      (∀ d, s.aveIn a = false → (s.ctx (s.aveCtx a)).findDest 3 a = some d → ∀ r ∈ (s.ctx (s.aveCtx a)).recs,
        ((s.ctx (s.aveCtx a)).dest d).fin ≤ r.pos ∨ r.pos + r.len ≤ ((s.ctx (s.aveCtx a)).dest d).fin) →
      completes (.pktOpen i p) s fun t => t.aveState a = 3 ∧ (t.aveU a).peer = pktNonce q ∧ (t.aveU a).own = (s.aveU a).own ∧
        (t.aveU a).next = 0 ∧ (t.aveU a).recs = [] ∧ (t.aveU a).heard = s.time ∧ (s.aveIn a = false → (t.aveU a).limit = pktLimit q) ∧
        aveSent a 2 0 0 0 s.time (openBody (s.aveU a).own (!s.aveIn a) (if s.aveIn a then (t.aveU a).limit else 0)) s t ∧
        Touches (mEvent ||| mCtxs ||| mAve) s t) ∧
    (aveTakes i 2 a p q s → s.aveState a = 1 → pktSends q = s.aveIn a →
      (∀ d, s.aveIn a = false → (s.ctx (s.aveCtx a)).findDest 3 a = some d → ∀ r ∈ (s.ctx (s.aveCtx a)).recs,
        ((s.ctx (s.aveCtx a)).dest d).fin ≤ r.pos ∨ r.pos + r.len ≤ ((s.ctx (s.aveCtx a)).dest d).fin) →
      completes (.pktOpenAck i p) s fun t => t.aveState a = 3 ∧ (t.aveU a).peer = pktNonce q ∧ (t.aveU a).next = 0 ∧
        (t.aveU a).recs = [] ∧ (t.aveU a).heard = s.time ∧ (t.aveU a).limit = (if s.aveIn a then (s.aveU a).limit else pktLimit q) ∧
        (∀ d, s.aveIn a = false → (s.ctx (s.aveCtx a)).findDest 3 a = some d → d < (s.ctx (s.aveCtx a)).dests.length →
          ((t.ctx (s.aveCtx a)).dest d).begun = ((s.ctx (s.aveCtx a)).dest d).fin) ∧
        onlyIn (mEvent ||| mCtxs ||| mAve) [rAVE_STATUS a] [928] s t) ∧
    (aveTakes i 2 a p q s → s.aveState a = 3 → pktNonce q = (s.aveU a).peer →
      exec (.pktOpenAck i p) s = .next (s.updAve a fun v => { v with heard := s.time })) ∧
    (aveTakes i 5 a p q s → exec (.pktNak i p) s = .next (s.updAve a fun v => { v with heard := s.time })) ∧
    (aveTakes i 6 a p q s → s.aveState a = 3 → (s.aveU a).part = [] → aveCanSend a s →
      completes (.pktClose i p) s fun t => t.aveState a = 0 ∧ aveSent a 7 0 (s.aveU a).next 0 0 [] s t ∧
        onlyIn (mEvent ||| mAve) [rAVE_STATUS a, rNET_SUB_CNT0 (s.aveSub a)] [929] s t) ∧
    (aveTakes i 7 a p q s → s.aveState a = 4 → (s.aveU a).part = [] →
      completes (.pktCloseAck i p) s fun t => t.aveState a = 0 ∧ onlyIn (mEvent ||| mAve) [rAVE_STATUS a] [929] s t)) ∧
  (∀ (a : Fin 4096) (now : Nat) (s : State), s.glb ≠ 0 →
    (s.linkUp (s.aveSub a) = false → exec (.aveRtoExpiry a) s = .next s ∧ exec (.aveDeadExpiry a) s = .next s) ∧
    (s.aveState a ≠ 1 → s.aveState a ≠ 3 → s.aveState a ≠ 4 → exec (.aveRtoExpiry a) s = .next s) ∧
    (s.aveState a ≠ 3 → exec (.aveDeadExpiry a) s = .next s) ∧
    (max s.time ((s.aveU a).at_ + s.usTicks (s.avePar a fAVE_PARAM_RTO_US)) = now → s.held = false → aveCanSend a s →
      (s.aveState a = 1 → (s.aveU a).tries < s.avePar a fAVE_PARAM_RETRY_MAX →
        completes (.aveRtoExpiry a) s fun t => t.aveState a = 1 ∧ t.time = now ∧ (t.aveU a).tries = (s.aveU a).tries + 1 ∧
          (t.aveU a).at_ = now ∧
          aveSent a 1 0 0 0 now (openBody (s.aveU a).own (!s.aveIn a) (if s.aveIn a then (t.aveU a).limit else 0)) s t ∧
          onlyIn (mRegs ||| mOuts ||| mTime ||| mAve) [rNET_SUB_CNT0 (s.aveSub a)] [] s t) ∧
      (s.aveState a = 1 → s.avePar a fAVE_PARAM_RETRY_MAX ≤ (s.aveU a).tries → s.aveIn a = true → (s.aveU a).part = [] →
        completes (.aveRtoExpiry a) s fun t => t.aveState a = 5 ∧ t.fld (rAVE_STATUS a) fAVE_STATUS_REASON = 1 ∧ t.time = now ∧
          onlyIn (mEvent ||| mTime ||| mAve) [rAVE_STATUS a] [930] s t) ∧
      (s.aveState a = 4 → (s.aveU a).tries < s.avePar a fAVE_PARAM_RETRY_MAX →
        completes (.aveRtoExpiry a) s fun t => t.aveState a = 4 ∧ t.time = now ∧ (t.aveU a).tries = (s.aveU a).tries + 1 ∧
          aveSent a 6 0 (s.aveU a).next 0 0 [] s t ∧
          onlyIn (mRegs ||| mOuts ||| mTime ||| mAve) [rNET_SUB_CNT0 (s.aveSub a)] [] s t) ∧
      (s.aveState a = 4 → s.avePar a fAVE_PARAM_RETRY_MAX ≤ (s.aveU a).tries → (s.aveU a).part = [] →
        completes (.aveRtoExpiry a) s fun t => t.aveState a = 0 ∧ t.time = now ∧
          onlyIn (mEvent ||| mTime ||| mAve) [rAVE_STATUS a] [929] s t)) ∧
    (s.aveState a = 3 → (s.aveU a).ranges.filter (fun r => !r.sacked && !r.again) = [] → exec (.aveRtoExpiry a) s = .next s) ∧
    (∀ g, s.aveState a = 3 → s.aveIn a = false → (s.aveU a).ranges = [g] → g.sacked = false → g.again = false →
      g.tries ≤ s.avePar a fAVE_PARAM_RETRY_MAX → s.held = false → aveCanSend a s →
      (s.avesUp.filter fun b => s.aveSub b == s.aveSub a) = [a.val] →
      (s.aveRank (s.aveSub a) a = none → s.exqWaits (s.aveSub a) = false →
        completes (.aveRtoExpiry a) s fun t => t.time = max s.time (g.at_ + s.usTicks (s.avePar a fAVE_PARAM_RTO_US)) ∧
          (t.aveU a).ranges = [{ g with at_ := t.time, tries := g.tries + 1, reports := 0 }] ∧
          t.fld (rAVE_CNT0 a) fAVE_CNT0_RETX = satN 32 (s.fld (rAVE_CNT0 a) fAVE_CNT0_RETX + 1) ∧
          aveSent a 3 1 g.lo 0 ((s.aveU a).byOf g.lo) (s.aveBytes a (s.aveCtx a) g.lo g.hi) s t ∧
          onlyIn (mRegs ||| mOuts ||| mTime ||| mAve) [rAVE_CNT0 a, rNET_SUB_CNT0 (s.aveSub a)] [] s t) ∧
      (s.aveRank (s.aveSub a) a ≠ none →
        completes (.aveRtoExpiry a) s fun t => t.time = max s.time (g.at_ + s.usTicks (s.avePar a fAVE_PARAM_RTO_US)) ∧
          (t.aveU a).ranges = [{ g with again := true }] ∧ onlyIn (mTime ||| mAve) [] [] s t)) ∧
    (s.aveState a = 3 → s.linkUp (s.aveSub a) = true → s.aveIn a = true → (s.aveU a).part = [] → s.held = false →
      completes (.aveDeadExpiry a) s fun t => t.aveState a = 5 ∧ t.fld (rAVE_STATUS a) fAVE_STATUS_REASON = 3 ∧
        t.time = max s.time ((s.aveU a).heard + s.usTicks (s.avePar a fAVE_PARAM_DEAD_MS * 1000)) ∧
        onlyIn (mEvent ||| mTime ||| mAve) [rAVE_STATUS a] [930] s t) ∧
    (s.aveState a ≠ 6 → exec (.aveQuarantineEnd a) s = .next s) ∧
    (∀ n, s.aveState a = 6 → (s.aveU a).prev < 8 → s.held = false → max s.time ((s.aveU a).quar + s.usTicks 1000000) = n →
      completes (.aveQuarantineEnd a) s fun t => t.aveState a = (s.aveU a).prev ∧ t.time = n ∧ t.aveU a = (s.aveU a).restartAt n ∧
        onlyIn (mRegs ||| mTime ||| mAve) [rAVE_STATUS a] [] s t))

/-- Outside reset: with LINK and no pause a sub-port sends the next record of its avenue as one DATA packet when it fits MAX and the credit,
and counts it, and a range that waits to be sent again when it comes first; with nothing to send, or only a BACKGROUND context's data, or what a BEST_EFFORT context sends again, while an exception frame waits, nothing happens. DATA in order advances the next offset and its whole records enter the cord, DATA ahead of
it is held and acknowledged at once, a duplicate counts in DUP, and DATA beyond LIMIT is a violation that advances nothing. An ACK ends holds up
to what it acknowledges and raises LIMIT, one beyond what was sent is a violation. The ACK timers acknowledge what has arrived. A TRIGGER that a
slot accepts is answered and waits in the slot, a repeat is answered only, and its event is issued when its time comes. A trigger message leaves,
and leaves again, until it is acknowledged, its time passes or RETRY_MAX sendings have been made.
Where the spec leaves a point open this states the choice of the model, logged as assumption 52. -/
def Obligations.AvenueTransfers : Prop :=
  (∀ (i : Fin 16) (s : State), s.glb ≠ 0 →
    (s.linkUp i = false ∨ (s.netS i).pause ≠ none ∨ (s.avesUp.filter fun a => s.aveSub a == i) = [] → exec (.aveDataSend i) s = .next s) ∧
    (∀ e, s.aveFirst i = some e → 5 ≤ e.2.1 → s.exqWaits i = true → exec (.aveDataSend i) s = .next s) ∧
    (∀ a g r, s.linkUp i = true → (s.netS i).pause = none → aveCanSend a s → s.aveFirst i = some (a, r) → r.1 % 2 = 1 →
      (r.1 < 5 ∨ s.exqWaits i = false) → s.aveAgain a = some g →
      completes (.aveDataSend i) s fun t => (t.aveU a).next = (s.aveU a).next ∧
        (t.aveU a).ranges = (s.aveU a).ranges.map (fun q =>
          if q.lo = g.lo then { q with at_ := s.time, tries := q.tries + 1, reports := 0, again := false } else q) ∧
        t.fld (rAVE_CNT0 a) fAVE_CNT0_RETX = satN 32 (s.fld (rAVE_CNT0 a) fAVE_CNT0_RETX + 1) ∧
        aveSent a 3 1 g.lo 0 ((s.aveU a).byOf g.lo) (s.aveBytes a (s.aveCtx a) g.lo g.hi) s t ∧
        onlyIn (mRegs ||| mOuts ||| mAve) [rAVE_CNT0 a, rNET_SUB_CNT0 (s.aveSub a)] [] s t) ∧
    (∀ a x d r, s.linkUp i = true → (s.netS i).pause = none → (s.avesUp.filter fun a => s.aveSub a == i) = [a] → s.aveIn a = false →
      s.aveState a = 3 → s.aveCtx a = x → (s.ctx x).findDest 3 a = some d → d < (s.ctx x).dests.length → (s.aveU a).recs = [] →
      (s.ctx x).recs = [r] → (s.ctx x).nextRec d = some r → 0 < r.len → r.len % 64 = 0 → r.len ≤ s.aveMax i (s.aveV6 a) →
      r.len ≤ (s.aveU a).limit - (s.aveU a).next → r.pos + r.len ≤ s.availEnd x →
      ((s.ctx x).cls < 3 ∨ s.exqWaits i = false) →
      completes (.aveDataSend i) s fun t => (t.aveU a).next = (s.aveU a).next + r.len ∧
        (t.aveU a).ranges = (s.aveU a).ranges ++ [⟨(s.aveU a).next, (s.aveU a).next + r.len, s.time, 1, 0, false, false⟩] ∧
        t.fld (rAVE_CNT0 a) fAVE_CNT0_PACKETS = (s.fld (rAVE_CNT0 a) fAVE_CNT0_PACKETS + 1) % 2 ^ 32 ∧
        ((t.ctx x).dest d).begun = max ((s.ctx x).dest d).begun (r.pos + r.len) ∧ ((t.ctx x).dest d).fin = ((s.ctx x).dest d).fin ∧
        aveSent a 3 0 (s.aveU a).next 0 ((s.ctx x).deliverBy r) (s.copyRec x d r) s t ∧
        onlyIn (mRegs ||| mOuts ||| mCtxs ||| mServed ||| mAve) [rAVE_CNT0 a, rNET_SUB_CNT0 i] [] s t)) ∧
  (∀ (i : Fin 16) (a lo hi : Nat) (p q : AvePkt) (s : State), aveTakes i 3 a p q s → s.aveState a = 3 → s.aveIn a = true →
    q.w1.toNat = lo → lo + q.body.length = hi → (q.w3.toNat = 0 ∨ s.time ≤ q.w3.toNat) →
    ((s.aveU a).limit < hi → (s.aveU a).viols.length < s.avePar a fAVE_PARAM_VIOL_MAX →
      completes (.pktData i p) s fun t => t.fld (rAVE_STATUS a) fAVE_STATUS_LAST_VIOL = 5 ∧ (t.aveU a).next = (s.aveU a).next ∧
        onlyIn (mEvent ||| mNet ||| mAve) [rAVE_STATUS a, rNET_SUB_CNT0 (s.aveSub a)] [931] s t) ∧
    (hi ≤ (s.aveU a).limit → hi ≤ (s.aveU a).next →
      completes (.pktData i p) s fun t => t.fld (rAVE_CNT1 a) fAVE_CNT1_DUP = satN 16 (s.fld (rAVE_CNT1 a) fAVE_CNT1_DUP + 1) ∧
        (t.aveU a).next = (s.aveU a).next ∧ (t.aveU a).ackAt = none ∧
        onlyIn (mRegs ||| mOuts ||| mNet ||| mAve) [rAVE_CNT1 a, rNET_SUB_CNT0 (s.aveSub a)] [] s t) ∧
    (hi ≤ (s.aveU a).limit → (s.aveU a).next < lo → (s.aveU a).ahead = [] → s.poolUsed (s.aveSub a / 4) + q.body.length ≤ 8388608 →
      completes (.pktData i p) s fun t => (t.aveU a).ahead = [(lo, q.body)] ∧ (t.aveU a).next = (s.aveU a).next ∧
        t.fld (rAVE_CNT0 a) fAVE_CNT0_PACKETS = (s.fld (rAVE_CNT0 a) fAVE_CNT0_PACKETS + 1) % 2 ^ 32 ∧
        onlyIn (mRegs ||| mOuts ||| mNet ||| mAve) [rAVE_CNT0 a, rNET_SUB_CNT0 (s.aveSub a)] [] s t) ∧
    (hi ≤ (s.aveU a).limit → lo = (s.aveU a).next → (s.aveU a).ahead = [] →
      (wholeRecs (s.aveCtx a) (((s.aveU a).part ++ q.body).length / 32 + 1) ((s.aveU a).part ++ q.body) =
          ([], (s.aveU a).part ++ q.body, false) →
        completes (.pktData i p) s fun t => (t.aveU a).next = hi ∧ (t.aveU a).part = (s.aveU a).part ++ q.body ∧
          (t.aveU a).ackAt = some ((s.aveU a).ackAt.getD s.time) ∧ t.store = s.store ∧
          t.fld (rAVE_CNT0 a) fAVE_CNT0_PACKETS = (s.fld (rAVE_CNT0 a) fAVE_CNT0_PACKETS + 1) % 2 ^ 32 ∧
          Touches (mRegs ||| mPorts ||| mAve) s t) ∧
      (∀ r left x b off, wholeRecs x (((s.aveU a).part ++ q.body).length / 32 + 1) ((s.aveU a).part ++ q.body) = ([r], left, false) →
        r.typ ≠ tyFault → s.aveCtx a = x → (s.port (aveBox a)).inbox = [] → (s.ctx x).waiting = none → (s.ctx x).st = .opened → (s.ctx x).rate = 0 →
        0 < s.extFree → (s.ctx x).faults = [] → (s.ctx x).tail = some (b, off) → off + r.size ≤ 16384 →
        completes (.pktData i p) s fun t => (t.aveU a).next = hi ∧ (t.aveU a).part = left ∧ (t.ctx x).seq = (s.ctx x).seq + 1 ∧
          (t.ctx x).wpos = (s.ctx x).wpos + r.size ∧
          (∀ k, k < 16384 * b + off ∨ 16384 * b + off + r.size ≤ k → t.store.byte 0 k = s.store.byte 0 k)))) ∧
  (∀ (i : Fin 16) (a x d o : Nat) (p q : AvePkt) (s : State), aveTakes i 4 a p q s → s.aveState a = 3 → s.aveIn a = false → q.w1.toNat = o →
    ((s.aveU a).next < o → (s.aveU a).viols.length < s.avePar a fAVE_PARAM_VIOL_MAX →
      completes (.pktAck i p) s fun t => t.fld (rAVE_STATUS a) fAVE_STATUS_LAST_VIOL = 7 ∧ (t.aveU a).acked = (s.aveU a).acked ∧
        t.ctxs = s.ctxs ∧ onlyIn (mEvent ||| mNet ||| mAve) [rAVE_STATUS a, rNET_SUB_CNT0 (s.aveSub a)] [931] s t) ∧
    (o ≤ (s.aveU a).next → fget q.w2 ⟨16, 16⟩ = 0 → (s.aveU a).limit ≤ q.w3.toNat → (∀ r ∈ (s.aveU a).ranges, r.reports < 3) →
      s.aveCtx a = x → (s.ctx x).findDest 3 a = some d → d < (s.ctx x).dests.length → (s.ctx x).st = .opened →
      completes (.pktAck i p) s fun t => (t.aveU a).acked = max (s.aveU a).acked o ∧ (t.aveU a).limit = q.w3.toNat ∧
        (t.aveU a).heard = s.time ∧ (t.aveU a).ranges = ((s.aveU a).ranges.filter fun r => o < r.hi).map (fun r => { r with lo := max r.lo o }) ∧
        ((t.ctx x).dest d).fin = (s.ctx x).skipPast d (s.ctx x).recs.length
          (max ((s.ctx x).dest d).fin ((s.ctx x).ackPos (s.aveU a) o ((s.ctx x).dest d).fin)) ∧ t.outs = s.outs ∧
        Touches (mRegs ||| mCtxs ||| mBillets ||| mAve) s t)) ∧
  (∀ (a : Fin 4096) (s : State), s.glb ≠ 0 →
    ((s.aveU a).ackAt = none ∨ s.aveState a ≠ 3 ∨ s.aveIn a = false → exec (.aveAckTimer a) s = .next s) ∧
    ((s.aveU a).ackAt ≠ none ∨ s.aveState a ≠ 3 ∨ s.aveIn a = false → exec (.aveIdleAck a) s = .next s) ∧
    (s.aveState a = 3 → s.aveIn a = true → aveCanSend a s → (s.aveU a).ahead = [] → s.held = false →
      (∀ t0, (s.aveU a).ackAt = some t0 →
        completes (.aveAckTimer a) s fun t => t.time = max s.time (t0 + s.usTicks (s.fld rAVE_GLOBAL fAVE_GLOBAL_ACK_US)) ∧
          (t.aveU a).ackAt = none ∧ (t.aveU a).acked = (s.aveU a).next ∧ (s.aveU a).limit ≤ (t.aveU a).limit ∧
          aveSent a 4 0 (s.aveU a).next 0 (t.aveU a).limit [] s t ∧
          onlyIn (mRegs ||| mOuts ||| mTime ||| mAve) [rNET_SUB_CNT0 (s.aveSub a)] [] s t) ∧
      ((s.aveU a).ackAt = none →
        completes (.aveIdleAck a) s fun t =>
          t.time = max s.time ((s.aveU a).idle + s.usTicks (s.avePar a fAVE_PARAM_DEAD_MS * 250)) ∧ (t.aveU a).idle = t.time ∧
          aveSent a 4 0 (s.aveU a).next 0 (t.aveU a).limit [] s t ∧
          onlyIn (mRegs ||| mOuts ||| mTime ||| mAve) [rNET_SUB_CNT0 (s.aveSub a)] [] s t))) ∧
  (∀ (a : Fin 4096) (v : Word) (s : State), s.ready = true →
    completes (.aveSnap a v) s fun t => t.fld (rAVE_SNAP a) fAVE_SNAP_SEQ = (s.fld (rAVE_SNAP a) fAVE_SNAP_SEQ + 1) % 2 ^ 32 ∧
      t.rd (rAVE_OFS0 a) = BitVec.ofNat 64 (s.aveU a).next ∧ t.rd (rAVE_OFS1 a) = BitVec.ofNat 64 (s.aveU a).acked ∧
      t.rd (rAVE_OFS2 a) = BitVec.ofNat 64 (s.aveU a).limit ∧
      onlyIn (mRegs ||| mStaged) [rAVE_SNAP a, rAVE_OFS0 a, rAVE_OFS1 a, rAVE_OFS2 a] [] s t) ∧
  (∀ (i : Fin 16) (a k n : Nat) (p q : AvePkt) (s : State), aveTakes i 8 a p q s → s.aveState a = 3 → fget q.w0 ⟨62, 2⟩ = k →
    q.w3.toNat * 65536 + fget q.w2 ⟨16, 16⟩ = n →
    (s.flag (rAVE_CFG a) fAVE_CFG_TRIG_EN = false ∨ s.flag (rAVE_TRIG k) fAVE_TRIG_EN = false →
      (s.aveU a).viols.length < s.avePar a fAVE_PARAM_VIOL_MAX →
      completes (.pktTrigger i p) s fun t => t.fld (rAVE_STATUS a) fAVE_STATUS_LAST_VIOL = 10 ∧ t.slots = s.slots ∧
        onlyIn (mEvent ||| mNet ||| mAve) [rAVE_STATUS a, rNET_SUB_CNT0 (s.aveSub a)] [931] s t) ∧
    (s.flag (rAVE_CFG a) fAVE_CFG_TRIG_EN = true → s.flag (rAVE_TRIG k) fAVE_TRIG_EN = true → aveCanSend a s →
      s.time ≤ q.w3.toNat → q.w3.toNat ≤ s.time + s.fld (rAVE_TRIG k) fAVE_TRIG_HORIZON →
      ((s.aveU a).seen.contains (fget q.w1 ⟨0, 16⟩) = true →
        completes (.pktTrigger i p) s fun t => aveSent a 9 0 (fget q.w1 ⟨0, 16⟩) 0 0 [] s t ∧ t.slots = s.slots ∧
          onlyIn (mRegs ||| mOuts ||| mAve) [rNET_SUB_CNT0 (s.aveSub a)] [] s t) ∧
      ((s.aveU a).seen.contains (fget q.w1 ⟨0, 16⟩) = false → (s.slotU k).times.length < 16 →
        completes (.pktTrigger i p) s fun t => aveSent a 9 0 (fget q.w1 ⟨0, 16⟩) 0 0 [] s t ∧
          (t.slotU k) = { s.slotU k with times := (s.slotU k).times ++ [n] } ∧ (∀ j, j ≠ k → t.slotU j = s.slotU j) ∧
          t.fld (rAVE_TRIG k) fAVE_TRIG_PENDING = (s.slotU k).times.length + 1 ∧
          onlyIn (mRegs ||| mOuts ||| mAve ||| mSlots) [rNET_SUB_CNT0 (s.aveSub a), rAVE_TRIG k] [] s t) ∧
      ((s.aveU a).seen.contains (fget q.w1 ⟨0, 16⟩) = false → 16 ≤ (s.slotU k).times.length →
        completes (.pktTrigger i p) s fun t => aveSent a 9 0 (fget q.w1 ⟨0, 16⟩) 0 0 [] s t ∧
          (t.slotU k) = { s.slotU k with loss := true } ∧
          t.fld (rAVE_TRIG_STAT k) fAVE_TRIG_STAT_DROP = satN 16 (s.fld (rAVE_TRIG_STAT k) fAVE_TRIG_STAT_DROP + 1)))) ∧
  (∀ (i : Fin 16) (a : Nat) (p q : AvePkt) (s : State), aveTakes i 9 a p q s → s.aveState a = 3 →
    completes (.pktTrigAck i p) s fun t =>
      t.aveU a = { s.aveU a with heard := s.time, trigs := (s.aveU a).trigs.filter fun e => e.seq != q.w1.toNat % 65536 } ∧
      (∀ b, b ≠ a → t.aveU b = s.aveU b) ∧ Touches mAve s t) ∧
  (∀ (v : Word) (a : Nat) (s : State), s.ready = true → fget v fAVE_TRIG_SEND_AVENUE = a →
    (s.aveState a ≠ 3 ∨ 16 ≤ (s.aveU a).trigs.length →
      completes (.trigSendGo v) s fun t => t.fld rAVE_GLOBAL fAVE_GLOBAL_TX_DISC = satN 16 (s.fld rAVE_GLOBAL fAVE_GLOBAL_TX_DISC + 1) ∧
        onlyIn (mRegs ||| mStaged) [rAVE_TRIG_SEND, rAVE_GLOBAL] [] s t) ∧
    (∀ m, s.aveState a = 3 → (s.aveU a).trigs.length < 16 → aveCanSend a s →
      m = (⟨(s.aveU a).tseq, fget v fAVE_TRIG_SEND_SLOT,
        (s.rd rAVE_TRIG_SEND_TIME).toNat * 65536 + fget v fAVE_TRIG_SEND_FRAC, s.time, 1⟩ : AveTrig) →
      completes (.trigSendGo v) s fun t =>
        t.aveU a = { s.aveU a with tseq := ((s.aveU a).tseq + 1) % 65536, trigs := (s.aveU a).trigs ++ [m] } ∧
        aveSent a 8 (m.slot * 64) m.seq (fget v fAVE_TRIG_SEND_FRAC) (s.rd rAVE_TRIG_SEND_TIME).toNat [] s t ∧
        onlyIn (mRegs ||| mStaged ||| mOuts ||| mAve) [rAVE_TRIG_SEND, rNET_SUB_CNT0 (s.aveSub a)] [] s t)) ∧
  (∀ (a : Fin 4096) (m : AveTrig) (now : Nat) (s : State), s.glb ≠ 0 →
    ((s.aveU a).trigs = [] ∨ s.aveState a ≠ 3 ∨ s.linkUp (s.aveSub a) = false → exec (.trigResend a) s = .next s) ∧
    ((s.aveU a).trigs = [m] → s.aveState a = 3 → max s.time (m.at_ + s.usTicks (s.avePar a fAVE_PARAM_RTO_US)) = now → s.held = false →
      s.linkUp (s.aveSub a) = true →
      (m.t ≤ now * 65536 ∨ s.avePar a fAVE_PARAM_RETRY_MAX < m.tries →
        completes (.trigResend a) s fun t => (t.aveU a) = { s.aveU a with trigs := [] } ∧ t.time = now ∧
          t.fld (rAVE_TRIG_STAT (m.slot % 4)) fAVE_TRIG_STAT_UNACKED =
            satN 16 (s.fld (rAVE_TRIG_STAT (m.slot % 4)) fAVE_TRIG_STAT_UNACKED + 1) ∧
          onlyIn (mRegs ||| mTime ||| mAve) [rAVE_TRIG_STAT (m.slot % 4)] [] s t) ∧
      (now * 65536 < m.t → m.tries ≤ s.avePar a fAVE_PARAM_RETRY_MAX → (s.netS (s.aveSub a)).pause = none →
        completes (.trigResend a) s fun t => (t.aveU a) = { s.aveU a with trigs := [{ m with at_ := now, tries := m.tries + 1 }] } ∧
          t.time = now ∧ aveSent a 8 (1 + m.slot % 4 * 64) m.seq (m.t % 65536) (m.t / 65536) [] s t ∧
          onlyIn (mRegs ||| mOuts ||| mTime ||| mAve) [rNET_SUB_CNT0 (s.aveSub a)] [] s t))) ∧
  (∀ (k : Fin 4) (s : State), s.glb ≠ 0 →
    ((s.slotU k).times = [] → exec (.trigMessageRelease k) s = .next s) ∧
    (∀ n, (s.slotU k).times = [n] → s.held = false →
      completes (.trigMessageRelease k) s fun t => (t.slotU k) = ⟨[], false⟩ ∧ t.time = max s.time (ceilDiv n 65536) ∧
        t.fld (rAVE_TRIG k) fAVE_TRIG_PENDING = 0 ∧
        t.fld (rTRG_SRC (52 + k)) fTRG_SRC_EVENTS = (s.fld (rTRG_SRC (52 + k)) fTRG_SRC_EVENTS + 1) % 2 ^ fTRG_SRC_EVENTS.w ∧
        (∀ z : Fin 16, (t.tqU z).inbox = (s.tqU z).inbox ++
          if inSetA (s.tqNow z) (52 + k) || inSetB (s.tqNow z) (52 + k) then
            [⟨n, 52 + k, 0, (s.slotU k).loss, false, 0⟩] else []) ∧
        onlyIn (mRegs ||| mTime ||| mTq ||| mSlots) [rAVE_TRIG k, rTRG_SRC (52 + k)] [] s t))

/-- Outside reset: a fall of HPD drops the link, a rise trains it with the lanes and rate that R486 chooses, or fails with 962 + n. A commit is
pending until the next frame, where a check that fails leaves everything in force as it was and names its REASON, and otherwise every shadow comes
into force at once. A gap goes on frame by frame to BLACK and back to ACTIVE. Each enabled layer shows its newest complete frame and counts it.
A record of a layer becomes a frame; one it cannot show counts in DROPPED. A palette entry of the bank in force counts in PAL_DISC, of the other
is written. An AUX request leaves with its bytes and its RESULT says how it ended. A line goes out with the background and what the layers show
there; data that are late count in UNDERFLOW.
Where the spec leaves a point open this states the choice of the model, logged as assumption 53. -/
def Obligations.DisplayOutputs : Prop :=
  (∀ (n : Fin 2) (ok : Bool) (s : State), s.glb ≠ 0 →
    completes (.disHpd n none ok) s fun t => t.flag (rDIS_LINK n) fDIS_LINK_HPD = false ∧ t.flag (rDIS_LINK n) fDIS_LINK_TRAINED = false ∧
      t.fld (rDIS_LINK n) fDIS_LINK_LANES = 0 ∧ t.disState n = (if s.afld (rDIS_CTRL n) fDIS_CTRL_EN = 1 then 3 else 0) ∧
      t.disU n = { s.disU n with sink := none, gap := 0 } ∧ onlyIn (mEvent ||| mDis) [rDIS_LINK n, rDIS_CTRL n] [960 + n] s t) ∧
  (∀ (n : Fin 2) (ok : Bool) (k : Nat × Nat) (s : State), s.glb ≠ 0 →
    (∀ l r, ok = true → s.chooseLink n (s.actv (rCLK_PIX n)) k = some (l, r) →
      completes (.disHpd n (some k) ok) s fun t => t.flag (rDIS_LINK n) fDIS_LINK_HPD = true ∧ t.flag (rDIS_LINK n) fDIS_LINK_TRAINED = true ∧
        t.fld (rDIS_LINK n) fDIS_LINK_LANES = l ∧ t.fld (rDIS_LINK n) fDIS_LINK_RATE = r ∧
        t.fld (rDIS_LINK n) fDIS_LINK_RETRAINS = satN 16 (s.fld (rDIS_LINK n) fDIS_LINK_RETRAINS + 1) ∧
        (s.disState n ≠ 2 → t.disState n = s.afld (rDIS_CTRL n) fDIS_CTRL_EN) ∧ (s.disState n = 2 → t.disState n = 2) ∧
        onlyIn (mEvent ||| mDis) [rDIS_LINK n, rDIS_CTRL n] [960 + n] s t) ∧
    (ok = false ∨ s.chooseLink n (s.actv (rCLK_PIX n)) k = none →
      completes (.disHpd n (some k) ok) s fun t => t.flag (rDIS_LINK n) fDIS_LINK_TRAINED = false ∧ t.fld (rDIS_LINK n) fDIS_LINK_LANES = 0 ∧
        t.fld (rDIS_LINK n) fDIS_LINK_LINK_FAIL = satN 16 (s.fld (rDIS_LINK n) fDIS_LINK_LINK_FAIL + 1) ∧ t.disState n = 3 ∧
        onlyIn (mEvent ||| mDis) [rDIS_LINK n, rDIS_CTRL n] [960 + n, 962 + n] s t)) ∧
  (∀ (n : Fin 2) (v : Word) (s : State), s.ready = true →
    completes (.disCommit n v) s fun t => t.flag (rDIS_CTRL n) fDIS_CTRL_COMMIT = true ∧ t.fld (rDIS_CTRL n) fDIS_CTRL_RESULT = 1 ∧
      t.fld (rDIS_CTRL n) fDIS_CTRL_EN = fget v fDIS_CTRL_EN ∧ t.fld (rDIS_CTRL n) fDIS_CTRL_BG = fget v fDIS_CTRL_BG ∧
      t.disState n = s.disState n ∧ onlyIn (mRegs ||| mStaged) [rDIS_CTRL n] [] s t) ∧
  (∀ (n : Fin 2) (s : State), s.glb ≠ 0 → s.layerCtx n 0 = none → s.layerCtx n 1 = none →
    ((s.disU n).gap = 1 → exec (.disFrameStart n) s = .next s) ∧
    ((s.disU n).gap = 2 → s.flag (rDIS_CTRL n) fDIS_CTRL_COMMIT = false →
      completes (.disFrameStart n) s fun t => t.disU n = { s.disU n with gap := 3 } ∧ t.disState n = s.disState n ∧
        onlyIn (mRegs ||| mDis ||| mLayers) [] [] s t) ∧
    ((s.disU n).gap = 3 → s.flag (rDIS_CTRL n) fDIS_CTRL_COMMIT = false → s.afld (rDIS_CTRL n) fDIS_CTRL_DEN_EN = 0 →
      s.afld (rDIS_CTRL n) fDIS_CTRL_OVL_EN = 0 →
      completes (.disFrameStart n) s fun t => t.disU n = { s.disU n with gap := 0 } ∧ t.disState n = 1 ∧
        onlyIn (mRegs ||| mDis ||| mLayers) [rDIS_CTRL n] [] s t) ∧
    ((s.disU n).gap = 0 → s.flag (rDIS_CTRL n) fDIS_CTRL_COMMIT = true → s.disCheck n ≠ 0 → s.afld (rDIS_CTRL n) fDIS_CTRL_DEN_EN = 0 →
      s.afld (rDIS_CTRL n) fDIS_CTRL_OVL_EN = 0 →
      completes (.disFrameStart n) s fun t => t.flag (rDIS_CTRL n) fDIS_CTRL_COMMIT = false ∧ t.fld (rDIS_CTRL n) fDIS_CTRL_RESULT = 3 ∧
        t.fld (rDIS_CTRL n) fDIS_CTRL_REASON = s.disCheck n ∧ t.disState n = s.disState n ∧
        onlyIn (mEvent ||| mLayers) [rDIS_CTRL n] [968 + n] s t) ∧
    ((s.disU n).gap = 0 → s.flag (rDIS_CTRL n) fDIS_CTRL_COMMIT = true → s.disCheck n = 0 → s.flag (rDIS_CTRL n) fDIS_CTRL_EN = true →
      s.flag (rDIS_LINK n) fDIS_LINK_TRAINED = true → s.actv (rCLK_PIX n) = s.rd (rCLK_PIX n) →
      s.fld (rDIS_CTRL n) fDIS_CTRL_DEN_EN = 0 → s.fld (rDIS_CTRL n) fDIS_CTRL_OVL_EN = 0 →
      completes (.disFrameStart n) s fun t => t.flag (rDIS_CTRL n) fDIS_CTRL_COMMIT = false ∧ t.fld (rDIS_CTRL n) fDIS_CTRL_RESULT = 2 ∧
        t.fld (rDIS_CTRL n) fDIS_CTRL_REASON = 0 ∧ t.disState n = 1 ∧ t.afld (rDIS_CTRL n) fDIS_CTRL_EN = 1 ∧
        t.afld (rDIS_CTRL n) fDIS_CTRL_BG = s.fld (rDIS_CTRL n) fDIS_CTRL_BG ∧
        (∀ a ∈ [rDIS_HTIM n, rDIS_VTIM n, rDIS_LAYER n, rDIS_RECT n 0, rDIS_RECT n 1, rCLK_PIX n], t.actv a = s.rd a) ∧
        (∀ a, a ∉ [rDIS_CTRL n, rDIS_HTIM n, rDIS_VTIM n, rDIS_LAYER n, rDIS_RECT n 0, rDIS_RECT n 1, rCLK_PIX n] → t.actv a = s.actv a) ∧
        Touches (mEvent ||| mAct ||| mLayers) s t) ∧
    (∀ (l : Fin 2) (f : DisFrame), (s.disU n).gap = 0 → s.flag (rDIS_CTRL n) fDIS_CTRL_COMMIT = false →
      s.afld (rDIS_CTRL n) (if l = 0 then fDIS_CTRL_DEN_EN else fDIS_CTRL_OVL_EN) = 1 →
      s.afld (rDIS_CTRL n) (if l = 0 then fDIS_CTRL_OVL_EN else fDIS_CTRL_DEN_EN) = 0 → (s.layerU n l).ready.getLast? = some f →
      completes (.disFrameStart n) s fun t =>
        t.layerU n l = { s.layerU n l with ready := [], shown := some f, old := (s.layerU n l).shown } ∧
        t.fld (rDIS_LSTAT n l) fDIS_LSTAT_LATCHED = (s.fld (rDIS_LSTAT n l) fDIS_LSTAT_LATCHED + 1) % 2 ^ 32 ∧
        onlyIn (mRegs ||| mLayers) [rDIS_LSTAT n l] [] s t)) ∧
  (∀ (n : Fin 2) (ok : Bool) (s : State), s.glb ≠ 0 →
    ((s.disU n).gap ≠ 1 → exec (.disClockStable n ok) s = .next s) ∧
    ((s.disU n).gap = 1 → (s.disU n).link = none →
      exec (.disClockStable n ok) s = .next (s.updDis n fun d => { d with gap := 2, link := none })) ∧
    (∀ l r, (s.disU n).gap = 1 → (s.disU n).link = some (l, r) → l < 4 → r < 4 → ok = true →
      completes (.disClockStable n ok) s fun t => t.disU n = { s.disU n with gap := 2, link := none } ∧
        t.flag (rDIS_LINK n) fDIS_LINK_TRAINED = true ∧ t.fld (rDIS_LINK n) fDIS_LINK_LANES = l ∧ t.fld (rDIS_LINK n) fDIS_LINK_RATE = r ∧
        onlyIn (mRegs ||| mDis) [rDIS_LINK n] [] s t)) ∧
  (∀ (n l : Fin 2) (s : State), s.glb ≠ 0 →
    (s.layerCtx n l = none → exec (.disLayerRecord n l) s = .next s) ∧
    (∀ x d, s.layerCtx n l = some (x, d) → (s.ctx x).nextRec d = none → exec (.disLayerRecord n l) s = .next s) ∧
    (∀ x d r, l = 0 → s.layerCtx n 0 = some (x, d) → (s.ctx x).nextRec d = some r →
      (r.typ = 0x20 →
        completes (.disLayerRecord n 0) s fun t =>
          t.layerU n 0 = { s.layerU n 0 with ready := (s.layerU n 0).ready ++ [⟨x, r.pos, r.pos + r.len, [(r.pos + 32, r.len - 32)]⟩] } ∧
          Touches (mRegs ||| mCtxs ||| mBillets ||| mLayers) s t) ∧
      (r.typ ≠ 0x20 → r.typ ≠ tyPad →
        completes (.disLayerRecord n 0) s fun t => t.layers = s.layers ∧
          t.fld (rDIS_LSTAT n 0) fDIS_LSTAT_DROPPED = satN 16 (s.fld (rDIS_LSTAT n 0) fDIS_LSTAT_DROPPED + 1) ∧
          Touches (mEvent ||| mCtxs ||| mBillets) s t))) ∧
  (∀ (n : Fin 2) (v w : Word) (buf : List Byte) (s : State), s.ready = true → fset v fDIS_AUX_GO 1 = w →
    leBytes 8 (s.rd (rDIS_AUX_DATA n 0)).toNat ++ leBytes 8 (s.rd (rDIS_AUX_DATA n 1)).toNat = buf →
    (∀ e ∈ [(AuxReply.nack, 3), (.defer, 4), (.timeout, 5)],
      completes (.disAuxGo n v e.1) s fun t => t.fld (rDIS_AUX n) fDIS_AUX_RESULT = e.2 ∧
        t.outs = s.outs ++ [.aux n w (if fget v fDIS_AUX_CMD % 2 = 1 then [] else buf.take (fget v fDIS_AUX_LEN + 1))] ∧
        onlyIn (mRegs ||| mStaged ||| mOuts) [rDIS_AUX n] [] s t) ∧
    (∀ bs, fget v fDIS_AUX_CMD % 2 = 1 → bs.length = fget v fDIS_AUX_LEN + 1 →
      completes (.disAuxGo n v (.ack bs)) s fun t => t.fld (rDIS_AUX n) fDIS_AUX_RESULT = 2 ∧ t.outs = s.outs ++ [.aux n w []] ∧
        leBytes 8 (t.rd (rDIS_AUX_DATA n 0)).toNat ++ leBytes 8 (t.rd (rDIS_AUX_DATA n 1)).toNat = bs ++ buf.drop bs.length ∧
        onlyIn (mRegs ||| mStaged ||| mOuts) [rDIS_AUX n, rDIS_AUX_DATA n 0, rDIS_AUX_DATA n 1] [] s t)) ∧
  (∀ (n b : Fin 2) (i : Fin 1024) (v : Word) (s : State), s.ready = true →
    (s.afld (rDIS_LAYER n) fDIS_LAYER_PAL_SEL = b →
      exec (.disPalWrite n b i v) s = .next ((s.dropStaged .host (rDIS_PAL n b i)).addSat (rDIS_STAT n) fDIS_STAT_PAL_DISC 1)) ∧
    (s.afld (rDIS_LAYER n) fDIS_LAYER_PAL_SEL ≠ b →
      exec (.disPalWrite n b i v) s = .next ((s.dropStaged .host (rDIS_PAL n b i)).wrCodes (rDIS_PAL n b i) v []))) ∧
  (∀ (n : Fin 2) (y den ovl : Fin 65536) (hact : Nat) (s : State), s.glb ≠ 0 → s.afld (rDIS_HTIM n) fDIS_HTIM_HACT = hact →
    (s.afld (rDIS_VTIM n) fDIS_VTIM_VACT ≤ y ∨ (s.disState n ≠ 1 ∧ (s.disU n).gap ≠ 3) → exec (.scanoutLine n y den ovl) s = .next s) ∧
    (y < s.afld (rDIS_VTIM n) fDIS_VTIM_VACT → (s.disU n).gap = 3 →
      exec (.scanoutLine n y den ovl) s = .next (s.send (.video n y (s.disSync n) (List.replicate hact 0)))) ∧
    (y < s.afld (rDIS_VTIM n) fDIS_VTIM_VACT → (s.disU n).gap ≠ 3 → s.disState n = 1 → s.afld (rDIS_CTRL n) fDIS_CTRL_DEN_EN = 0 →
      (s.afld (rDIS_CTRL n) fDIS_CTRL_OVL_EN = 0 →
        exec (.scanoutLine n y den ovl) s = .next (s.send (.video n y (s.disSync n) (List.replicate hact (s.afld (rDIS_CTRL n) fDIS_CTRL_BG))))) ∧
      (∀ f, s.afld (rDIS_CTRL n) fDIS_CTRL_OVL_EN = 1 → (s.layerU n 1).shown = some f →
        s.afld (rDIS_RECT n 1) fDIS_RECT_Y ≤ y → y < s.afld (rDIS_RECT n 1) fDIS_RECT_Y + s.afld (rDIS_RECT n 1) fDIS_RECT_H →
        ovl < s.afld (rDIS_RECT n 1) fDIS_RECT_X + s.afld (rDIS_RECT n 1) fDIS_RECT_W →
        completes (.scanoutLine n y den ovl) s fun t =>
          t.fld (rDIS_STAT n) fDIS_STAT_UNDERFLOW = satN 32 (s.fld (rDIS_STAT n) fDIS_STAT_UNDERFLOW + 1) ∧
          (∃ pix l, t.outs = s.outs ++ .video n y (s.disSync n) pix :: l ∧ pix.length = hact ∧
            (∀ px < hact, ovl ≤ px → pix[px]? = some (s.afld (rDIS_CTRL n) fDIS_CTRL_BG)) ∧
            (∀ px < hact, px < ovl → ∀ p, s.layerPixel n 1 px y = some p → p.1 = 255 → p.2.1 < 256 → p.2.2.1 < 256 → p.2.2.2 < 256 →
              pix[px]? = some (p.2.1 * 2 ^ 16 + p.2.2.1 * 2 ^ 8 + p.2.2.2))) ∧
          onlyIn mEvent [rDIS_STAT n] [964 + n] s t)))

/-- A write of STK_CMD with a legal code (after a halted boot: FLASH_UPDATE) and room in the queue gives the command a ticket and copies its
arguments, any other counts in REFUSED; STK_CANCEL ends a waiting command with 6 and does nothing else. Outside reset, with its command at the head and the queue served: NOP ends
DONE; FLASH_READ writes the bytes to the host, or ends 5 or 4; FLASH_UPDATE checks the image, programs the slot without MAGIC and goes on, then
writes MAGIC and ends; CAL_STORE starts a store write; KEY_PROVISION sets the plan key unless it is locked; KEY_LOCK, SVN_COMMIT and SECURE_ENABLE
burn their fuse, end DONE at once when that is done already, and end 4 with reason 9 when the fuse fails. With another command at the head
nothing happens. A command's end leaves MAX_SPAN where it was or higher, up to the 2,048 cycles of R501: how long the routine ran is a free
value.
Where the spec leaves a point open this states the choice of the model, logged as assumptions 20, 22, 27, 54. -/
def Obligations.StokerCommands : Prop :=
  (∀ (v : Word) (c : Nat) (s : State), s.windowOpen rSTK_CMD = true → fget v fSTK_CMD_CMD = c →
    (c = 0 ∨ 8 < c ∨ 16 ≤ s.stk.queue.length ∨ (s.bootHalt = true ∧ c ≠ 3) →
      exec (.stkCmdQueue v) s = .next ((s.dropStaged .host rSTK_CMD).addSat rSTK_QUEUE fSTK_QUEUE_REFUSED 1)) ∧
    (∀ k, 1 ≤ c → c ≤ 8 → s.stk.queue.length < 16 → (s.bootHalt = false ∨ c = 3) → s.fld rSTK_QUEUE fSTK_QUEUE_NEXT_TICKET = k →
      completes (.stkCmdQueue v) s fun t =>
        t.stk = { s.stk with queue := s.stk.queue ++ [⟨k, c, (upTo 4).map fun i => s.rd (rSTK_ARG i), false⟩] } ∧
        t.fld rSTK_QUEUE fSTK_QUEUE_NEXT_TICKET = (k + 1) % 2 ^ 16 ∧ t.fld (rSTK_RESULT (k % 16)) fSTK_RESULT_TICKET = k ∧
        t.fld (rSTK_RESULT (k % 16)) fSTK_RESULT_RESULT = 1 ∧
        onlyIn (mRegs ||| mStaged ||| mStk) [rSTK_QUEUE, rSTK_RESULT (k % 16)] [] s t)) ∧
  (∀ (v : Word) (k : Nat) (s : State), s.windowOpen rSTK_CANCEL = true → fget v fSTK_CANCEL_TICKET = k →
    ((∀ c ∈ s.stk.queue, c.ticket ≠ k ∨ c.run = true) →
      completes (.stkCancel v) s fun t => t.stk = s.stk ∧ onlyIn (mRegs ||| mStaged) [rSTK_CANCEL] [] s t) ∧
    (∀ c ∈ s.stk.queue, c.ticket = k → c.run = false →
      completes (.stkCancel v) s fun t => stkEnds c 6 0 0 s t ∧
        onlyIn (mEvent ||| mStaged ||| mFreeCtr ||| mStk) [rSTK_CANCEL, rSTK_QUEUE, rSTK_RESULT (k % 16), rSTK_STATUS] [977] s t)) ∧
  (∀ (img data : HostRead) (ok : Bool) (s : State), s.glb ≠ 0 →
    ∀ e ∈ [(Instr.stkNop, 1), (.flashRead, 2), (.flashUpdate img ok, 3), (.calStore, 4), (.keyProvision data ok, 5), (.keyLock ok, 6),
        (.svnCommit ok, 7), (.secureEnable ok, 8)],
      (s.stkServes = false ∨ (∀ c, s.stk.queue.head? = some c → c.code ≠ e.2)) → exec e.1 s = .next s) ∧
  (∀ (c : StkCmd) (rest : List StkCmd) (l : List Nat) (s : State), s.glb ≠ 0 → s.stk.queue = c :: rest → s.stkServes = true →
    [rSTK_QUEUE, rSTK_RESULT (c.ticket % 16), rSTK_STATUS] = l →
    (c.code = 1 → completes .stkNop s fun t => stkEnds c 3 0 0 s t ∧ onlyIn (mEvent ||| mFreeCtr ||| mStk) l [976] s t) ∧
    (c.code = 2 → s.storing = true → exec .flashRead s = .next s) ∧
    (c.code = 2 → s.storing = false →
      (c.arg 0 % 64 ≠ 0 ∨ c.arg 1 % 64 ≠ 0 ∨ c.arg 2 % 64 ≠ 0 ∨ 2 ^ 24 < c.arg 0 + c.arg 2 →
        completes .flashRead s fun t => stkEnds c 5 1 0 s t ∧ onlyIn (mEvent ||| mFreeCtr ||| mStk) l [977] s t) ∧
      (c.arg 0 % 64 = 0 → c.arg 1 % 64 = 0 → c.arg 2 % 64 = 0 → c.arg 0 + c.arg 2 ≤ 2 ^ 24 →
        (s.busOk = false → completes .flashRead s fun t => stkEnds c 4 6 0 s t ∧ onlyIn (mEvent ||| mFreeCtr ||| mStk) l [977] s t) ∧
        (s.busOk = true → s.flag rEVT_CTRL fEVT_CTRL_RING_EN = false →
          completes .flashRead s fun t => stkEnds c 3 0 (c.arg 2) s t ∧
            t.hostMem = s.hostMem.write 0 (c.arg 1) (s.flash.read 0xFF (c.arg 0) (c.arg 2)) ∧ onlyIn (mEvent ||| mFreeCtr ||| mStk) l [976] s t))) ∧
    (c.code = 4 → c.run = false → s.storing = false →
      (s.calState ≠ 0 → completes .calStore s fun t => stkEnds c 5 2 0 s t ∧ onlyIn (mEvent ||| mFreeCtr ||| mStk) l [977] s t) ∧
      (s.calState = 0 → s.fld rCAL_STORE fCAL_STORE_SEQ < 200000 → s.flashBusy = false →
        completes .calStore s fun t => t.storing = true ∧ t.fld (rSTK_RESULT (c.ticket % 16)) fSTK_RESULT_RESULT = 2 ∧
          t.cal.target = s.calTarget ∧ t.cal.image = s.calImage (s.fld rCAL_STORE fCAL_STORE_SEQ + 1) ∧
          t.cal.await = (upTo 4).filter (fun n => (s.core n).phase != .off) ∧
          (∀ a, calCopyAt s.calTarget ≤ a → a < calCopyAt s.calTarget + 4096 → t.flash.byte 0xFF a = 0xFF) ∧
          (∀ a, a < calCopyAt s.calTarget ∨ calCopyAt s.calTarget + 4096 ≤ a → t.flash.byte 0xFF a = s.flash.byte 0xFF a) ∧
          onlyIn (mRegs ||| mFlash ||| mCal ||| mStk) [rSTK_RESULT (c.ticket % 16), rCAL_STORE, rCAL_STATUS] [] s t))) ∧
  (∀ (c : StkCmd) (rest : List StkCmd) (img : HostRead) (ok : Bool) (kind n a : Nat) (l : List Nat) (s : State), s.glb ≠ 0 →
    s.stk.queue = c :: rest → s.stkServes = true → c.code = 3 → s.storing = false → c.arg 0 = kind → c.arg 2 = n →
    slotAt kind (s.updateSlot kind) = a → [rSTK_QUEUE, rSTK_RESULT (c.ticket % 16), rSTK_STATUS] = l →
    (c.run = false →
      (1 < kind ∨ slotSize kind < n ∨ s.bootHalt = true ∧ kind ≠ 0 →
        completes (.flashUpdate img ok) s fun t => stkEnds c 5 1 0 s t ∧ onlyIn (mEvent ||| mFreeCtr ||| mStk) l [977] s t) ∧
      (kind ≤ 1 → n ≤ slotSize kind → s.bootHalt = false ∨ kind = 0 →
        (img.fail ≠ none ∨ s.busOk = false →
          completes (.flashUpdate img ok) s fun t => stkEnds c 4 6 0 s t ∧ onlyIn (mEvent ||| mFreeCtr ||| mStk) l [977] s t) ∧
        (∀ code old, img.fail = none → s.busOk = true → img.bytes.length = n →
          s.containerCode kind n (img.bytes.take 64) (fun k => img.bytes.take k) = code →
          (s.fld rSEC_SVN (if kind = 0 then fSEC_SVN_K_SVN else fSEC_SVN_P_SVN),
            s.fld rSEC_REV (if kind = 0 then fSEC_REV_K_REV else fSEC_REV_P_REV)) = old →
          completes (.flashUpdate img ok) s fun t =>
            if code ≠ 0 then stkEnds c 4 7 code s t ∧ onlyIn (mEvent ||| mFreeCtr ||| mStk) l [977] s t
            else if verLess old (verOf img.bytes) = false then stkEnds c 5 4 0 s t ∧ onlyIn (mEvent ||| mFreeCtr ||| mStk) l [977] s t
            else t.flash.read 0xFF a 4 = List.replicate 4 0xFF ∧
              (∀ k, 4 ≤ k → k < n → t.flash.byte 0xFF (a + k) = img.bytes.getD k 0) ∧
              (∀ k, k < a ∨ a + slotSize kind ≤ k → t.flash.byte 0xFF k = s.flash.byte 0xFF k) ∧
              t.fld (rSTK_RESULT (c.ticket % 16)) fSTK_RESULT_RESULT = 2 ∧
              onlyIn (mRegs ||| mFlash ||| mStk) [rSTK_RESULT (c.ticket % 16)] [] s t))) ∧
    (c.run = true →
      (ok = true →
        completes (.flashUpdate img ok) s fun t => stkEnds c 3 0 n s t ∧
          t.flash.read 0xFF a 4 = leBytes 4 (if kind = 0 then 0x4E4B4B48 else 0x54504B48) ∧
          (∀ k, k < a ∨ a + 4 ≤ k → t.flash.byte 0xFF k = s.flash.byte 0xFF k) ∧ onlyIn (mEvent ||| mFreeCtr ||| mFlash ||| mStk) l [976] s t) ∧
      (ok = false →
        completes (.flashUpdate img ok) s fun t => stkEnds c 4 8 0 s t ∧ onlyIn (mEvent ||| mFreeCtr ||| mStk) l [977] s t))) ∧
  (∀ (c : StkCmd) (rest : List StkCmd) (data : HostRead) (ok : Bool) (l : List Nat) (s : State), s.glb ≠ 0 →
    s.stk.queue = c :: rest → s.stkServes = true → [rSTK_QUEUE, rSTK_RESULT (c.ticket % 16), rSTK_STATUS] = l →
    (c.code = 5 → s.storing = false →
      (s.stk.keyHash ≠ none →
        completes (.keyProvision data ok) s fun t => stkEnds c 5 3 0 s t ∧ t.stk.key = s.stk.key ∧ onlyIn (mEvent ||| mFreeCtr ||| mStk) l [977] s t) ∧
      (s.stk.keyHash = none → data.fail = none → s.busOk = true → ok = true →
        completes (.keyProvision data ok) s fun t => stkEnds c 3 0 96 s t ∧ t.stk.key = some (leNat (data.bytes.take 96)) ∧
          t.flag rSEC_STATUS fSEC_STATUS_KEY_PROV = true ∧ t.stk.keyHash = none ∧
          onlyIn (mEvent ||| mFreeCtr ||| mStk) (l ++ [rSEC_STATUS, rSEC_SVN] ++ (upTo 6).map rSEC_PLANKEY_HASH) [976] s t) ∧
      (s.stk.keyHash = none → data.fail = none → s.busOk = true → ok = false →
        completes (.keyProvision data ok) s fun t => stkEnds c 4 8 0 s t ∧ t.stk.key = s.stk.key ∧ onlyIn (mEvent ||| mFreeCtr ||| mStk) l [977] s t)) ∧
    (c.code = 6 →
      (s.stk.key = none → completes (.keyLock ok) s fun t => stkEnds c 5 5 0 s t ∧ onlyIn (mEvent ||| mFreeCtr ||| mStk) l [977] s t) ∧
      (∀ k, s.stk.key = some k → s.stk.keyHash ≠ none →
        completes (.keyLock ok) s fun t => stkEnds c 3 0 0 s t ∧ t.stk.keyHash = s.stk.keyHash ∧ onlyIn (mEvent ||| mFreeCtr ||| mStk) l [976] s t) ∧
      (∀ k, s.stk.key = some k → s.stk.keyHash = none → ok = false →
        completes (.keyLock ok) s fun t => stkEnds c 4 9 0 s t ∧ t.stk.keyHash = none ∧ onlyIn (mEvent ||| mFreeCtr ||| mStk) l [977] s t) ∧
      (∀ k, s.stk.key = some k → s.stk.keyHash = none → ok = true →
        completes (.keyLock ok) s fun t => stkEnds c 3 0 0 s t ∧ t.stk.keyHash = some (Config.sha384 (keyBytes k)) ∧ t.stk.key = some k ∧
          t.flag rSEC_STATUS fSEC_STATUS_KEY_LOCKED = true ∧
          onlyIn (mEvent ||| mFreeCtr ||| mStk) (l ++ [rSEC_STATUS, rSEC_SVN, rSEC_MEAS] ++ (upTo 6).map rSEC_PLANKEY_HASH) [984, 976] s t)) ∧
    (c.code = 7 →
      (1 < c.arg 0 → completes (.svnCommit ok) s fun t => stkEnds c 5 1 0 s t ∧ onlyIn (mEvent ||| mFreeCtr ||| mStk) l [977] s t) ∧
      (∀ svn, c.arg 0 = 0 → s.fld rSEC_SVN fSEC_SVN_K_SVN = svn →
        (svn ≤ s.stk.kFloor →
          completes (.svnCommit ok) s fun t => stkEnds c 3 0 0 s t ∧ t.stk.kFloor = s.stk.kFloor ∧ onlyIn (mEvent ||| mFreeCtr ||| mStk) l [976] s t) ∧
        (s.stk.kFloor < svn → ok = false →
          completes (.svnCommit ok) s fun t => stkEnds c 4 9 0 s t ∧ t.stk.kFloor = s.stk.kFloor ∧ onlyIn (mEvent ||| mFreeCtr ||| mStk) l [977] s t) ∧
        (s.stk.kFloor < svn → ok = true →
          completes (.svnCommit ok) s fun t => stkEnds c 3 0 0 s t ∧ t.stk.kFloor = svn ∧ t.stk.pFloor = s.stk.pFloor ∧
            onlyIn (mEvent ||| mFreeCtr ||| mStk) (l ++ [rSEC_STATUS, rSEC_SVN, rSEC_MEAS] ++ (upTo 6).map rSEC_PLANKEY_HASH) [984, 976] s t))) ∧
    (c.code = 8 →
      (s.stk.keyHash = none → completes (.secureEnable ok) s fun t => stkEnds c 5 5 0 s t ∧ onlyIn (mEvent ||| mFreeCtr ||| mStk) l [977] s t) ∧
      (s.stk.keyHash ≠ none → s.stk.armed = true →
        completes (.secureEnable ok) s fun t => stkEnds c 3 0 0 s t ∧ onlyIn (mEvent ||| mFreeCtr ||| mStk) l [976] s t) ∧
      (s.stk.keyHash ≠ none → s.stk.armed = false → ok = false →
        completes (.secureEnable ok) s fun t => stkEnds c 4 9 0 s t ∧ t.stk.armed = false ∧ onlyIn (mEvent ||| mFreeCtr ||| mStk) l [977] s t) ∧
      (s.stk.keyHash ≠ none → s.stk.armed = false → ok = true →
        completes (.secureEnable ok) s fun t => stkEnds c 3 0 0 s t ∧ t.stk.armed = true ∧
          t.flag rSEC_STATUS fSEC_STATUS_SECURE_ARMED = true ∧ t.flag rGLB_STATUS fGLB_STATUS_SECURE = s.flag rGLB_STATUS fGLB_STATUS_SECURE ∧
          onlyIn (mEvent ||| mFreeCtr ||| mStk) (l ++ [rSEC_STATUS, rSEC_SVN, rSEC_MEAS] ++ (upTo 6).map rSEC_PLANKEY_HASH) [984, 976] s t)))

/-- An asserted reset pin brings every register but the fused ones to its reset value, empties store, cords and contexts, and keeps host memory,
the flash, keys and fuses; the last pin's release samples the straps and begins boot step 1. Each boot step hands on to the next: REFIN measured,
a Kindling slot loaded, the synthesizers locked, the patch loaded or the ROM left alone, the memory trained, the store cleared, the calibration
loaded, and READY with the boot time and event 0; a step that fails leaves the device HALTED with its cause.  A control-store word that cannot
be corrected, or the watchdog, restarts the datapath with AUTO_RESTART and halts without it; a corrected one only counts.
Where the spec leaves a point open this states the choice of the model, logged as assumptions 6, 7, 25, 35. -/
def Obligations.ResetAndBoot : Prop :=
  (∀ (p : ResetPin) (s : State),
    completes (.porstAssert p) s fun t => t.glb = 0 ∧ t.store = [] ∧ t.ctxs = [] ∧ t.billets = [] ∧ t.time = 0 ∧ t.stk.queue = [] ∧
      t.hostMem = s.hostMem ∧ t.flash = s.flash ∧ t.pending = s.pending ∧ t.outs = s.outs ∧ t.stk.key = s.stk.key ∧
      t.stk.keyHash = s.stk.keyHash ∧ t.stk.armed = s.stk.armed ∧ t.stk.kFloor = s.stk.kFloor ∧ t.stk.pFloor = s.stk.pFloor ∧
      t.flag rGLB_STATUS fGLB_STATUS_SECURE = s.stk.armed ∧
      t.pkg.porst = (s.pkg.porst || p == .porst) ∧ t.pkg.perst = (s.pkg.perst || p == .perst) ∧ t.pkg.rail = (s.pkg.rail || p == .rail) ∧
      (∀ a, a ∉ [rGLB_STATUS, rSEC_STATUS, rSEC_SVN] ++ (upTo 6).map rSEC_PLANKEY_HASH → t.rd a = State.reset.rd a)) ∧
  (∀ (b : Fin 4) (m : Fin 8) (s : State),
    exec (.porstRelease .rail b m) s = .next s ∧
    (s.pkg.perst = true ∨ s.pkg.rail = true ∨ s.glb ≠ 0 →
      exec (.porstRelease .porst b m) s = .next (s.updPkg fun k => { k with porst := false, bootsel := b, smbAddr := m })) ∧
    (s.pkg.porst = true ∨ s.pkg.rail = true ∨ s.glb ≠ 0 →
      exec (.porstRelease .perst b m) s = .next (s.updPkg fun k => { k with perst := false })) ∧
    (s.pkg.perst = false → s.pkg.rail = false → s.glb = 0 →
      completes (.porstRelease .porst b m) s fun t => t.glb = 1 ∧ t.fld rSEC_STATUS fSEC_STATUS_BOOTSEL = b ∧
        t.fld rMGT_SMB fMGT_SMB_ADDR = 0x58 + m ∧ t.stk = { s.stk with step := 1 } ∧
        t.pkg = { s.pkg with porst := false, bootsel := b, smbAddr := m } ∧
        onlyIn (mRegs ||| mStk ||| mPkg ||| mGlb) [rGLB_STATUS, rSEC_STATUS, rMGT_SMB] [] s t)) ∧
  (∀ (e : BootEnd) (s : State),
    (s.stk.step = 0 ∨ 8 < s.stk.step → exec (.bootStepEnd e) s = .next s) ∧
    (s.stk.step = 1 → (∀ k < 8, s.fldS (rTHM_TEMP k) fTHM_TEMP_TEMP < s.fld rTHM_LIMIT fTHM_LIMIT_CRIT) →
      completes (.bootStepEnd e) s fun t => t.stk.step = 2 ∧ t.glb = s.glb ∧ t.fld rCLK_REF fCLK_REF_FREQ = e.freq ∧
        t.flag rCLK_REF fCLK_REF_DETECT_ERR = !e.match_ ∧ t.flag rCLK_STATUS fCLK_STATUS_REF_OK = e.match_ ∧
        onlyIn (mRegs ||| mStk) [rCLK_REF, rCLK_STATUS] [] s t) ∧
    (s.stk.step = 1 → (∃ k : Fin 8, (s.fld rTHM_LIMIT fTHM_LIMIT_CRIT : Int) ≤ s.fldS (rTHM_TEMP k) fTHM_TEMP_TEMP) →
      completes (.bootStepEnd e) s fun t => t.stk.step = 0 ∧ t.glb = 5 ∧ t.fld rGLB_STATUS fGLB_STATUS_HALT_CAUSE = 3 ∧
        t.flag rTHM_STATUS fTHM_STATUS_STOPPED = true) ∧
    (s.stk.step = 2 → (∀ b, s.slotCode 0 b (if b then e.readB else e.readA) ≠ 0) →
      completes (.bootStepEnd e) s fun t => t.stk.step = 0 ∧ t.glb = 5 ∧ t.fld rGLB_STATUS fGLB_STATUS_HALT_CAUSE = 1 ∧
        onlyIn (mRegs ||| mStk ||| mGlb) [rSEC_STATUS, rGLB_STATUS] [] s t) ∧
    (∀ b, s.stk.step = 2 → s.fld rSEC_STATUS fSEC_STATUS_BOOTSEL ≠ 3 → (s.slotOrder 0).head? = some b →
      completes (.bootStepEnd e) s fun t => s.slotCode 0 b (if b then e.readB else e.readA) = 0 →
        t.stk.step = 3 ∧ t.glb = s.glb ∧ t.flag rSEC_STATUS fSEC_STATUS_KSLOT = b ∧
        t.fld rSEC_SVN fSEC_SVN_K_SVN = hdrAt (s.slotHdr 0 b) 16 4 % 2 ^ 16 ∧ t.fld rSTK_STATUS fSTK_STATUS_STATE = 1 ∧
        t.fld rCLK_STATUS fCLK_STATUS_MPLL_STATE = 1 ∧
        SMap.get 0 t.stk.meas 2 = Config.sha384 (s.flash.read 0xFF (slotAt 0 b) (hdrAt (s.slotHdr 0 b) 8 4)) ∧
        onlyIn (mRegs ||| mStk) [rSEC_STATUS, rSEC_SVN, rSEC_REV, rSTK_STATUS, rCLK_STATUS] [] s t) ∧
    (s.stk.step = 3 →
      (e.ok = false → completes (.bootStepEnd e) s fun t => t.stk.step = 0 ∧ t.glb = 5 ∧ t.fld rGLB_STATUS fGLB_STATUS_HALT_CAUSE = 1) ∧
      (e.ok = true → completes (.bootStepEnd e) s fun t => t.stk.step = 4 ∧ t.glb = s.glb ∧ t.fld rCLK_STATUS fCLK_STATUS_MPLL_STATE = 2 ∧
        t.flag rCLK_STATUS fCLK_STATUS_LPLL_LOCK = true ∧ t.flag rGLB_STATUS fGLB_STATUS_MPLL_LOCK = true ∧
        t.flag rGLB_STATUS fGLB_STATUS_LPLL_LOCK = true ∧ t.flag rCLK_REF fCLK_REF_LOCK = true ∧
        t.fld rCLK_MPLL fCLK_MPLL_N = (match s.fld rCLK_REF fCLK_REF_FREQ with | 0 => 2000 | 1 => 200 | _ => 128) ∧
        onlyIn (mRegs ||| mClk ||| mStk ||| mGlb) [rCLK_REF, rCLK_MPLL, rCLK_STATUS, rGLB_STATUS] [] s t)) ∧
    (s.stk.step = 4 → (∀ b, s.slotCode 1 b (if b then e.readB else e.readA) ≠ 0) →
      completes (.bootStepEnd e) s fun t => t.stk.step = 5 ∧ t.glb = 2 ∧
        onlyIn (mEvent ||| mStk ||| mGlb) [rSEC_STATUS, rGLB_STATUS] [978, 979] s t) ∧
    (∀ b, s.stk.step = 4 → (s.slotOrder 1).head? = some b →
      completes (.bootStepEnd e) s fun t => t.stk.step = 5 ∧ t.glb = 2 ∧ (s.slotCode 1 b (if b then e.readB else e.readA) = 0 →
        t.fld rSEC_STATUS fSEC_STATUS_PSLOT = (if b then 2 else 1) ∧
        t.fld rSEC_SVN fSEC_SVN_P_SVN = hdrAt (s.slotHdr 1 b) 16 4 % 2 ^ 16 ∧
        SMap.get 0 t.stk.meas 3 = Config.sha384 (s.flash.read 0xFF (slotAt 1 b) (hdrAt (s.slotHdr 1 b) 8 4)) ∧
        onlyIn (mRegs ||| mStk ||| mGlb) [rSEC_STATUS, rSEC_SVN, rSEC_REV, rGLB_STATUS] [] s t)) ∧
    (s.stk.step = 5 → (e.failed = [] →
        completes (.bootStepEnd e) s fun t => t.stk.step = 6 ∧ t.glb = s.glb ∧ (∀ ch < 32, t.flag (rMEM_CH_STATUS ch) fMEM_CH_STATUS_TRAINED = true) ∧
          onlyIn (mRegs ||| mStk) ((upTo 32).map rMEM_CH_STATUS) [] s t) ∧
      (e.failed ≠ [] →
        completes (.bootStepEnd e) s fun t => t.stk.step = 0 ∧ t.glb = 5 ∧ t.fld rGLB_STATUS fGLB_STATUS_HALT_CAUSE = 2 ∧
          (∀ ch ∈ e.failed, t.flag (rMEM_CH_STATUS ch) fMEM_CH_STATUS_FAILED = true))) ∧
    (s.stk.step = 6 → completes (.bootStepEnd e) s fun t => t.stk.step = 7 ∧ (∀ a, t.store.byte 0 a = 0) ∧ t.badLines = [] ∧
      t.flag rGLB_STATUS fGLB_STATUS_STORE_READY = true ∧ t.glb = s.glb) ∧
    (s.stk.step = 7 → completes (.bootStepEnd e) s fun t => t.stk.step = 8 ∧ t.flash = s.flash) ∧
    (s.stk.step = 8 → completes (.bootStepEnd e) s fun t => t.stk.step = 0 ∧ t.ready = true ∧
      t.fld rGLB_STATUS fGLB_STATUS_BOOT_MS = satN 16 e.ms ∧ t.fld rSTK_STATUS fSTK_STATUS_STATE = 2 ∧
      (∀ n < 4, t.flag (rCNV_BG n) fCNV_BG_EN = true) ∧ SMap.get 0 t.stk.meas 1 = Config.bootRomHash ∧ t.flash = s.flash)) ∧
  (∀ (patch : Bool) (s : State), s.glb ≠ 0 →
    exec (.stkCsEccError false patch) s = .next ((s.addSat rSTK_STATUS fSTK_STATUS_CS_CE 1).raiseLim 1000000 980) ∧
    (∀ e ∈ [(Instr.stkCsEccError true patch, 981, 2), (.stkWatchdog, 982, 3)],
      (s.glb ≠ 3 → completes e.1 s fun t => t.glb = s.glb ∧ onlyIn (mEvent ||| mRst) [rSTK_STATUS] [e.2.1] s t) ∧
      (s.glb = 3 → s.flag rEVT_CTRL fEVT_CTRL_AUTO_RESTART = false →
        completes e.1 s fun t => t.glb = 5 ∧ t.fld rGLB_STATUS fGLB_STATUS_HALT_CAUSE = 5 ∧
          onlyIn (mEvent ||| mRst ||| mGlb) [rSTK_STATUS, rGLB_STATUS] [e.2.1] s t) ∧
      (s.glb = 3 → s.flag rEVT_CTRL fEVT_CTRL_AUTO_RESTART = true →
        completes e.1 s fun t => t.glb = 4 ∧ t.fld rEVT_RESTART fEVT_RESTART_LAST_CAUSE = e.2.2 ∧
          t.fld rEVT_RESTART fEVT_RESTART_COUNT = satN 16 (s.fld rEVT_RESTART fEVT_RESTART_COUNT + 1) ∧
          t.rst.cause = e.2.2 ∧ t.rst.t0 = s.time ∧ t.rst.phase = 0 ∧ t.time = s.time ∧ t.store = s.store)))

/-- With the window open: a RELEASE of no more records than are outstanding gives that many back, any other changes nothing; EVT_CTRL takes
RING_EN, AUTO_RESTART and MOD_US, and WD_US from 10; each 1 of EVT_SWTEST raises its test source; an injection is refused while LOCK is 1 or where
its argument allows none, and otherwise raises the named source, recovers the named context, marks the named line with an error, or begins a
restart; LOCK, once written 1, is 1.
Where the spec leaves a point open this states the choice of the model, logged as assumptions 27, 30, 48. -/
def Obligations.EventControlsAndInjection : Prop :=
  (∀ (v : Word) (n : Nat) (s : State), s.windowOpen rEVT_RING_IDX = true → fget v fEVT_RING_IDX_RELEASE = n →
    (n = 0 ∨ s.evt.written < s.evt.released + n → exec (.evtRelease v) s = .next (s.dropStaged .host rEVT_RING_IDX)) ∧
    (0 < n → s.evt.released + n ≤ s.evt.written →
      completes (.evtRelease v) s fun t => t.evt.released = s.evt.released + n ∧
        t.fld rEVT_RING_IDX fEVT_RING_IDX_RELEASED = (s.evt.released + n) % 2 ^ 16 ∧
        onlyIn (mEvent ||| mStaged) [rEVT_RING_IDX] [1] s t)) ∧
  (∀ (v : Word) (s : State), s.windowOpen rEVT_CTRL = true →
    completes (.ringEnWrite v) s fun t =>
      t.fld rEVT_CTRL fEVT_CTRL_RING_EN = fget v fEVT_CTRL_RING_EN ∧
      t.fld rEVT_CTRL fEVT_CTRL_AUTO_RESTART = fget v fEVT_CTRL_AUTO_RESTART ∧
      t.fld rEVT_CTRL fEVT_CTRL_MOD_US = fget v fEVT_CTRL_MOD_US ∧
      t.fld rEVT_CTRL fEVT_CTRL_WD_US =
        (if fget v fEVT_CTRL_WD_US < 10 then s.fld rEVT_CTRL fEVT_CTRL_WD_US else fget v fEVT_CTRL_WD_US) ∧
      onlyIn (mEvent ||| mStaged) [rEVT_CTRL] [1] s t) ∧
  (∀ (v : Word) (s : State), s.windowOpen rEVT_SWTEST = true →
    completes (.evtSwtest v) s fun t =>
      (∀ i < 16, t.fld (rEVT_SRC (1008 + i)) fEVT_SRC_COUNT =
        (s.fld (rEVT_SRC (1008 + i)) fEVT_SRC_COUNT + b2n (v.getLsbD i)) % 2 ^ 32) ∧
      (∀ i < 16, v.getLsbD i = true → t.flag (rEVT_SRC (1008 + i)) fEVT_SRC_STATUS = true) ∧
      onlyIn (mEvent ||| mStaged) [] ((upTo 16).map fun i => 1008 + i) s t) ∧
  (∀ (v : Word) (s : State), s.windowOpen rEVT_INJ = true → s.flag rEVT_INJ fEVT_INJ_LOCK = true →
    ∀ i ∈ [Instr.injectEvent v, .injectContext v, .injectMemCe v, .injectMemUe v, .injectRestart v],
      completes i s fun t => t.fld rEVT_INJ fEVT_INJ_RESULT = 2 ∧ t.flag rEVT_INJ fEVT_INJ_LOCK = true ∧
        onlyIn (mRegs ||| mStaged) [rEVT_INJ] [] s t) ∧
  (∀ (v : Word) (arg : Nat) (s : State), s.windowOpen rEVT_INJ = true → s.flag rEVT_INJ fEVT_INJ_LOCK = false →
    (s.rd rEVT_INJ_ARG).toNat = arg →
    (completes (.injectEvent v) s fun t => t.fld rEVT_INJ fEVT_INJ_RESULT = 1 ∧
      t.flag (rEVT_SRC (arg % 1024)) fEVT_SRC_STATUS = true ∧ t.flag (rEVT_SRC 6) fEVT_SRC_STATUS = true ∧
      (arg % 1024 ≠ 6 → t.fld (rEVT_SRC (arg % 1024)) fEVT_SRC_COUNT = (s.fld (rEVT_SRC (arg % 1024)) fEVT_SRC_COUNT + 1) % 2 ^ 32) ∧
      onlyIn (mEvent ||| mStaged) [rEVT_INJ] [arg % 1024, 6] s t) ∧
    ((s.ctx (arg % 4096)).st ≠ .opened →
      completes (.injectContext v) s fun t => t.fld rEVT_INJ fEVT_INJ_RESULT = 2 ∧ t.ctxs = s.ctxs ∧
        onlyIn (mRegs ||| mStaged) [rEVT_INJ] [] s t) ∧
    ((s.ctx (arg % 4096)).st = .opened → s.glb = 3 →
      completes (.injectContext v) s fun t => (t.ctx (arg % 4096)).epochPend = true ∧ (t.ctx (arg % 4096)).recovering = true ∧
        t.fld rEVT_INJ fEVT_INJ_RESULT = 1) ∧
    (∀ e ∈ [(Instr.injectMemCe v, 4), (.injectMemUe v, 8)],
      (arg % 64 ≠ 0 ∨ 30064771072 ≤ arg →
        completes e.1 s fun t => t.fld rEVT_INJ fEVT_INJ_RESULT = 2 ∧ onlyIn (mRegs ||| mStaged) [rEVT_INJ] [] s t) ∧
      (arg % 64 = 0 → arg < 30064771072 →
        completes e.1 s fun t => t.fld rEVT_INJ fEVT_INJ_RESULT = 1 ∧
          SMap.get 0 t.badLines (arg / 64) = SMap.get 0 s.badLines (arg / 64) ||| e.2 ∧
          (∀ l, l ≠ arg / 64 → SMap.get 0 t.badLines l = SMap.get 0 s.badLines l) ∧ t.store = s.store ∧
          onlyIn (mEvent ||| mBadLines ||| mStaged) [rEVT_INJ] [6] s t)) ∧
    (s.dpAllowed = true →
      completes (.injectRestart v) s fun t => t.glb = 4 ∧ t.fld rEVT_RESTART fEVT_RESTART_LAST_CAUSE = 6 ∧
        t.fld rEVT_RESTART fEVT_RESTART_COUNT = satN 16 (s.fld rEVT_RESTART fEVT_RESTART_COUNT + 1) ∧
        t.rst.cause = 6 ∧ t.rst.t0 = s.time ∧ t.rst.phase = 0 ∧ t.time = s.time ∧ t.store = s.store) ∧
    (s.dpAllowed = false →
      completes (.injectRestart v) s fun t => t.fld rEVT_INJ fEVT_INJ_RESULT = 2 ∧
        onlyIn (mRegs ||| mStaged) [rEVT_INJ] [] s t)) ∧
  (∀ (v : Word) (s : State), s.windowOpen rEVT_INJ = true → fget v fEVT_INJ_GO = 0 →
    completes (.injectLock v) s fun t => t.flag rEVT_INJ fEVT_INJ_LOCK = true ∧
      t.fld rEVT_INJ fEVT_INJ_RESULT = s.fld rEVT_INJ fEVT_INJ_RESULT ∧ t.fld rEVT_INJ fEVT_INJ_TYPE = fget v fEVT_INJ_TYPE ∧
      onlyIn (mRegs ||| mStaged) [rEVT_INJ] [] s t)

/-- Outside reset a rail outside 3 % is marked with its voltage and its event, once; recovery clears both marks and ends a reset that a rail
held, where no pin holds it. An update of the sensors sets TEMP, MAX, each rail and the total; a sensor at CRIT in two updates in a row halts the
device with cause 3. PWR_CTRL takes SR_EN and, where nothing forbids it, standby; a forbidden one counts. The idle store enters self-refresh and
says so. The SMBus target ignores everything before it wakes, refuses a wrong PEC or length, keeps a legal offset, and reads and writes as the
32-bit accesses of its path do, four bytes on each time. Each JTAG instruction is loaded, shifts or drives what R563 gives it, and takes nothing
else.
Where the spec leaves a point open this states the choice of the model, logged as assumptions 25, 27, 41, 42, 55, 73. -/
def Obligations.PackageCommands : Prop :=
  (∀ (r : Fin 11) (mv : Fin 65536) (s : State), s.glb ≠ 0 →
    ∀ e ∈ [(Instr.railLow r mv, fPWR_RAIL_LOW, 16), (.railHigh r mv, fPWR_RAIL_HIGH, 17)],
      (s.flag (rPWR_RAIL r) e.2.1 = true → exec e.1 s = .next (s.setFlds (rPWR_RAIL r) [(e.2.1, 1), (fPWR_RAIL_MV, mv)])) ∧
      (s.flag (rPWR_RAIL r) e.2.1 = false →
        completes e.1 s fun t => t.flag (rPWR_RAIL r) e.2.1 = true ∧ t.fld (rPWR_RAIL r) fPWR_RAIL_MV = mv ∧
          onlyIn mEvent [rPWR_RAIL r] [e.2.2] s t)) ∧
  (∀ (r : Fin 11) (s : State),
    (s.pkg.rail = false →
      exec (.railRecovered r false) s = .next s ∧
      exec (.railRecovered r true) s = .next (s.setFlds (rPWR_RAIL r) [(fPWR_RAIL_LOW, 0), (fPWR_RAIL_HIGH, 0)])) ∧
    (∀ w, s.pkg.rail = true → s.pkg.porst = false → s.pkg.perst = false → s.glb = 0 →
      completes (.railRecovered r w) s fun t => t.glb = 1 ∧ t.stk = { s.stk with step := 1 } ∧ t.pkg = { s.pkg with rail := false } ∧
        onlyIn (mRegs ||| mStk ||| mPkg ||| mGlb) [rPWR_RAIL r, rGLB_STATUS, rSEC_STATUS, rMGT_SMB] [] s t) ∧
    (∀ w, s.pkg.rail = true → (s.pkg.porst = true ∨ s.pkg.perst = true) →
      completes (.railRecovered r w) s fun t => t.pkg = { s.pkg with rail := false } ∧ t.stk = s.stk ∧
        onlyIn (mRegs ||| mPkg) [rPWR_RAIL r] [] s t)) ∧
  (∀ (temps : List Int) (rails : List (Nat × Nat)) (s : State), s.glb ≠ 0 → temps.length = 8 → rails.length = 11 →
    (∀ x ∈ temps, -32768 ≤ x ∧ x < 32768) →
    ((∀ x ∈ temps, x < s.fld rTHM_LIMIT fTHM_LIMIT_CRIT) →
      completes (.thmSensorUpdate temps rails) s fun t =>
        (∀ k < 8, t.fldS (rTHM_TEMP k) fTHM_TEMP_TEMP = temps.getD k 0 ∧
          t.fldS (rTHM_TEMP k) fTHM_TEMP_MAX = max (temps.getD k 0) (s.fldS (rTHM_TEMP k) fTHM_TEMP_MAX)) ∧
        (∀ k < 11, t.fld (rPWR_RAIL k) fPWR_RAIL_MV = (rails.getD k (0, 0)).1 % 2 ^ 16 ∧
          t.fld (rPWR_RAIL k) fPWR_RAIL_CURRENT = (rails.getD k (0, 0)).2 % 2 ^ 16) ∧
        t.fld rPWR_TOTAL fPWR_TOTAL_MW = rails.foldl (fun n e => n + e.1 * e.2) 0 / 1000 % 2 ^ 32 ∧
        t.pkg = { s.pkg with crit := [] } ∧ t.glb = s.glb) ∧
    (∀ k : Fin 8, s.pkg.crit = [k.val] → s.flag rTHM_STATUS fTHM_STATUS_STOPPED = false →
      (s.fld rTHM_LIMIT fTHM_LIMIT_CRIT : Int) ≤ temps.getD k 0 →
      completes (.thmSensorUpdate temps rails) s fun t => t.glb = 5 ∧ t.fld rGLB_STATUS fGLB_STATUS_HALT_CAUSE = 3 ∧
        t.flag rTHM_STATUS fTHM_STATUS_STOPPED = true)) ∧
  (∀ (v : Word) (en : Bool) (s : State), s.windowOpen rPWR_CTRL = true →
    (!s.planActive && ((upTo 4).all fun n => !s.flag (rCNV_BG n) fCNV_BG_EN) && s.calState == 0) = en →
    ∀ i ∈ [Instr.cnvStbyWrite v, .srEnWrite v],
      (s.selfRefresh = false ∨ s.flag rTHM_STATUS fTHM_STATUS_STOPPED = true →
        completes i s fun t => t.selfRefresh = s.selfRefresh ∧ t.fld rPWR_CTRL fPWR_CTRL_SR_EN = fget v fPWR_CTRL_SR_EN ∧
          (fget v fPWR_CTRL_CNV_STBY = 0 → t.flag rPWR_CTRL fPWR_CTRL_CNV_STBY = false) ∧
          (fget v fPWR_CTRL_CNV_STBY = 1 → en = true → t.flag rPWR_CTRL fPWR_CTRL_CNV_STBY = true) ∧
          (fget v fPWR_CTRL_CNV_STBY = 1 → en = false → t.flag rPWR_CTRL fPWR_CTRL_CNV_STBY = s.flag rPWR_CTRL fPWR_CTRL_CNV_STBY) ∧
          t.fld rPWR_CTRL fPWR_CTRL_STBY_DISC =
            satN 16 (s.fld rPWR_CTRL fPWR_CTRL_STBY_DISC + if fget v fPWR_CTRL_CNV_STBY = 1 ∧ en = false then 1 else 0) ∧
          onlyIn (mRegs ||| mStaged) [rPWR_CTRL] [] s t) ∧
      (s.selfRefresh = true → s.flag rTHM_STATUS fTHM_STATUS_STOPPED = false →
        completes i s fun t => t.selfRefresh = false ∧ t.fld rPWR_CTRL fPWR_CTRL_SR_EN = fget v fPWR_CTRL_SR_EN ∧
          onlyIn (mEvent ||| mStaged) [rPWR_CTRL] [23] s t)) ∧
  (∀ (s : State), s.glb ≠ 0 →
    (s.flag rPWR_CTRL fPWR_CTRL_SR_EN = false ∨ s.selfRefresh = true ∨ s.planActive = true ∨ s.dmaActive ≠ 0 ∨
        s.flag rGLB_STATUS fGLB_STATUS_STORE_READY = false →
      exec .selfRefreshEntry s = .next s) ∧
    (s.flag rPWR_CTRL fPWR_CTRL_SR_EN = true → s.selfRefresh = false → s.planActive = false → s.dmaActive = 0 →
      s.flag rGLB_STATUS fGLB_STATUS_STORE_READY = true → s.flag rMEM_MAP fMEM_MAP_MAP_BUSY = false → s.freeBillets = 1835008 →
      (∀ c ∈ s.ctxs, c.2.st = .closed) →
      completes .selfRefreshEntry s fun t => t.selfRefresh = true ∧ onlyIn mEvent [rPWR_CTRL] [22] s t)) ∧
  (∀ (bytes : List Byte) (bad : Bool) (env : Env) (s : State), s.awake = false →
    ∀ i ∈ [Instr.smbSetOffset bytes bad, .smbRead, .smbWrite bytes bad env, .smbStatus], exec i s = .next s) ∧
  (∀ (bytes : List Byte) (bad : Bool) (env : Env) (s : State), s.awake = true →
    ((bad && s.flag rMGT_SMB fMGT_SMB_PEC_EN) = true ∨ bytes.length ≠ 4 →
      ∀ i ∈ [Instr.smbSetOffset bytes bad, .smbWrite bytes bad env],
        completes i s fun t => t.fld rMGT_SMB fMGT_SMB_PEC_ERR = satN 16 (s.fld rMGT_SMB fMGT_SMB_PEC_ERR + 1) ∧
          t.pkg = { s.pkg with smbPec := s.pkg.smbPec || (bad && s.flag rMGT_SMB fMGT_SMB_PEC_EN) } ∧
          onlyIn (mEvent ||| mPkg) [rMGT_SMB] [24] s t) ∧
    ((bad && s.flag rMGT_SMB fMGT_SMB_PEC_EN) = false → bytes.length = 4 →
      (leNat bytes % 4 = 0 → leNat bytes < 2 ^ 26 →
        exec (.smbSetOffset bytes bad) s = .next (s.updPkg fun p => { p with ptr := leNat bytes, smbPec := false })) ∧
      (leNat bytes % 4 ≠ 0 ∨ 2 ^ 26 ≤ leNat bytes →
        exec (.smbSetOffset bytes bad) s = .next (s.updPkg fun p => { p with smbPec := false })) ∧
      (∀ n : Fin (2 ^ 23),
        (s.pkg.ptr = 8 * n → ∃ u, exec (.lowHalfWrite .smbus .bar0 n (BitVec.ofNat 32 (leNat bytes)) env)
            (s.updPkg fun p => { p with smbPec := false }) = .next u ∧
          exec (.smbWrite bytes bad env) s =
            .next (u.updPkg fun p => { p with ptr := 8 * n + 4, smbDisc := s.smbBlocked .smbus (8 * n) })) ∧
        (s.pkg.ptr = 8 * n + 4 → ∃ u, exec (.highHalfWrite .smbus .bar0 n (BitVec.ofNat 32 (leNat bytes)) env)
            (s.updPkg fun p => { p with smbPec := false }) = .next u ∧
          exec (.smbWrite bytes bad env) s =
            .next (u.updPkg fun p => { p with ptr := (8 * n + 8) % 2 ^ 26, smbDisc := s.smbBlocked .smbus (8 * n) })))) ∧
    (∀ n : Fin (2 ^ 23),
      (s.pkg.ptr = 8 * n → ∃ u, exec (.lowHalfRead .smbus .bar0 n) (s.updPkg fun p => { p with smbPec := false }) = .next u ∧
        exec .smbRead s = .next ((u.updPkg fun p => { p with ptr := 8 * n + 4 }).send (.smb (u.readData.toNat % 2 ^ 32)))) ∧
      (s.pkg.ptr = 8 * n + 4 → ∃ u, exec (.highHalfRead .smbus .bar0 n) (s.updPkg fun p => { p with smbPec := false }) = .next u ∧
        exec .smbRead s = .next ((u.updPkg fun p => { p with ptr := (8 * n + 8) % 2 ^ 26 }).send (.smb (u.readData.toNat % 2 ^ 32))))) ∧
    exec .smbStatus s = .next (s.send (.smb (b2n s.pkg.smbDisc + 2 * b2n s.pkg.smbPec + 4 * s.glb)))) ∧
  (∀ (v : Word) (s : State), s.windowOpen rMGT_SMB = true →
    completes (.mgtSmbLock v) s fun t => t.flag rMGT_SMB fMGT_SMB_LOCK = true ∧
      t.fld rMGT_SMB fMGT_SMB_PEC_EN = fget v fMGT_SMB_PEC_EN ∧ onlyIn (mRegs ||| mStaged) [rMGT_SMB] [] s t) ∧
  (∀ (bits : List Bool) (s : State),
    exec .idcode s = .next ((s.updPkg fun p => { p with ir := 1 }).send (.tdo s.idBits)) ∧
    exec .tapReset s = .next (s.updPkg fun p => { p with ir := 1 }) ∧
    exec .bypass s = .next (s.updPkg fun p => { p with ir := 0xFF }) ∧
    (bits.length = 1042 →
      exec (.samplePreload false bits) s = .next (s.updPkg fun p => { p with ir := 2, cells := bits }) ∧
      exec (.samplePreload true bits) s = .next ((s.updPkg fun p => { p with ir := 2, cells := bits }).send (.tdo bits))) ∧
    (∀ e ∈ [(Instr.extest, 3), (.clamp, 4), (.extestPulse, 6), (.extestTrain, 7)],
      exec e.1 s = .next ((s.updPkg fun p => { p with ir := e.2, taken := true }).send (.balls s.pkg.cells))) ∧
    exec .highz s = .next ((s.updPkg fun p => { p with ir := 5, taken := true }).send .float))
end

