-- ==== Sys2Proof/Laws/SMap.lean ====
section
/-! SUPPORT. Laws of sparse tables, byte memories and bit fields: read after write, what a write leaves alone, and the
canonical form that every write keeps. -/

set_option Elab.async false

namespace Sys2Proof.Machine

variable {α : Type}

/-! ### Reading after writing -/

theorem SMap.get_del_same (d : α) (m : SMap α) (k : Nat) : SMap.get d (m.del k) k = d := by
  induction m with
  | nil => rfl
  | cons e t ih =>
    obtain ⟨k', v⟩ := e
    by_cases h : k' = k <;> simp [SMap.del, SMap.get, h, ih]

theorem SMap.get_del_ne (d : α) (m : SMap α) {k j : Nat} (h : j ≠ k) : SMap.get d (m.del k) j = SMap.get d m j := by
  induction m with
  | nil => rfl
  | cons e t ih =>
    obtain ⟨k', v⟩ := e
    by_cases hk : k' = k
    · subst hk; simp [SMap.del, SMap.get, ih, h.symm]
    · by_cases hj : k' = j
      · subst hj; simp [SMap.del, SMap.get, hk]
      · simp [SMap.del, SMap.get, hk, hj, ih]

theorem SMap.get_ins_same (d : α) (m : SMap α) (k : Nat) (v : α) (h : ∀ e ∈ m, e.1 ≠ k) :
    SMap.get d (m.ins k v) k = v := by
  induction m with
  | nil => simp [SMap.ins, SMap.get]
  | cons e t ih =>
    obtain ⟨k', w⟩ := e
    have hk : k' ≠ k := h (k', w) (by simp)
    simp only [SMap.ins]
    split
    · simp [SMap.get]
    · simp [SMap.get, hk]
      exact ih fun e he => h e (by simp [he])

theorem SMap.get_ins_ne (d : α) (m : SMap α) {k j : Nat} (v : α) (h : j ≠ k) :
    SMap.get d (m.ins k v) j = SMap.get d m j := by
  induction m with
  | nil => simp [SMap.ins, SMap.get, h.symm]
  | cons e t ih =>
    obtain ⟨k', w⟩ := e
    simp only [SMap.ins]
    split
    · simp [SMap.get, h.symm]
    · by_cases hj : k' = j <;> simp [SMap.get, hj, ih]

theorem SMap.mem_del {m : SMap α} {k : Nat} {e : Nat × α} : e ∈ m.del k ↔ e ∈ m ∧ e.1 ≠ k := by
  induction m with
  | nil => simp [SMap.del]
  | cons x t ih =>
    obtain ⟨k', v⟩ := x
    by_cases hk : k' = k
    · subst hk
      simp only [SMap.del, ↓reduceIte, List.mem_cons, ih]
      constructor
      · exact fun h => ⟨Or.inr h.1, h.2⟩
      · rintro ⟨rfl | h, hne⟩
        · exact absurd rfl hne
        · exact ⟨h, hne⟩
    · simp only [SMap.del, if_neg hk, List.mem_cons, ih]
      constructor
      · rintro (rfl | h)
        · exact ⟨Or.inl rfl, hk⟩
        · exact ⟨Or.inr h.1, h.2⟩
      · rintro ⟨rfl | h, hne⟩
        · exact Or.inl rfl
        · exact Or.inr ⟨h, hne⟩

/-- A table reads at a written key what was written. -/
@[simp] theorem SMap.get_set_same [DecidableEq α] (d : α) (m : SMap α) (k : Nat) (v : α) :
    SMap.get d (SMap.set d m k v) k = v := by
  unfold SMap.set
  split
  · rename_i h; rw [SMap.get_del_same, h]
  · exact SMap.get_ins_same d _ k v fun e he => (SMap.mem_del.mp he).2

/-- A write leaves every other key alone. -/
theorem SMap.get_set_ne [DecidableEq α] (d d' : α) (m : SMap α) {k j : Nat} (v : α) (h : j ≠ k) :
    SMap.get d' (SMap.set d m k v) j = SMap.get d' m j := by
  unfold SMap.set
  split
  · exact SMap.get_del_ne d' m h
  · rw [SMap.get_ins_ne d' _ v h, SMap.get_del_ne d' m h]

/-- A write seen from any key. -/
theorem SMap.get_set [DecidableEq α] (d : α) (m : SMap α) (k j : Nat) (v : α) :
    SMap.get d (SMap.set d m k v) j = if j = k then v else SMap.get d m j := by
  by_cases h : j = k
  · subst h; simp
  · rw [if_neg h, SMap.get_set_ne d d m v h]

@[simp] theorem SMap.get_upd_same [DecidableEq α] (d : α) (m : SMap α) (k : Nat) (f : α → α) :
    SMap.get d (SMap.upd d m k f) k = f (SMap.get d m k) := by simp [SMap.upd]

theorem SMap.get_upd_ne [DecidableEq α] (d d' : α) (m : SMap α) {k j : Nat} (f : α → α) (h : j ≠ k) :
    SMap.get d' (SMap.upd d m k f) j = SMap.get d' m j := by
  unfold SMap.upd; exact SMap.get_set_ne d d' m _ h

/-! ### The canonical form -/

/-- Keys from `n` on, strictly rising. -/
def SMap.from : Nat → SMap α → Prop
  | _, [] => True
  | n, (k, _) :: t => n ≤ k ∧ SMap.from (k + 1) t

theorem SMap.from_mono {m : SMap α} {n n' : Nat} (h : n' ≤ n) (hm : SMap.from n m) : SMap.from n' m := by
  cases m with
  | nil => trivial
  | cons e t => exact ⟨Nat.le_trans h hm.1, hm.2⟩

theorem SMap.from_iff_sorted : ∀ (m : SMap α), (∃ n, SMap.from n m) ↔ m.sorted = true
  | [] => by simp [SMap.from, SMap.sorted]
  | [e] => by
    obtain ⟨k, v⟩ := e
    simp only [SMap.from, SMap.sorted, and_true, iff_true]
    exact ⟨k, Nat.le_refl _⟩
  | (k, v) :: (k', v') :: t => by
    have ih := SMap.from_iff_sorted ((k', v') :: t)
    simp only [SMap.sorted, Bool.and_eq_true, decide_eq_true_eq]
    constructor
    · rintro ⟨n, h⟩
      exact ⟨h.2.1, ih.mp ⟨_, h.2⟩⟩
    · rintro ⟨hk, hs⟩
      obtain ⟨n, hn⟩ := ih.mpr hs
      exact ⟨k, Nat.le_refl _, hk, hn.2⟩

theorem SMap.from_del : ∀ (m : SMap α) (n k : Nat), SMap.from n m → SMap.from n (m.del k)
  | [], _, _, _ => trivial
  | (k', v) :: t, n, k, h => by
    simp only [SMap.del]
    split
    · exact SMap.from_mono (by have := h.1; omega) (SMap.from_del t _ k h.2)
    · exact ⟨h.1, SMap.from_del t _ k h.2⟩

theorem SMap.from_ins : ∀ (m : SMap α) (n k : Nat) (v : α), SMap.from n m → n ≤ k → (∀ e ∈ m, e.1 ≠ k) →
    SMap.from n (m.ins k v)
  | [], n, k, v, _, hk, _ => ⟨hk, trivial⟩
  | (k', w) :: t, n, k, v, h, hk, hne => by
    simp only [SMap.ins]
    have hkk : k' ≠ k := hne (k', w) (by simp)
    split
    · rename_i hlt
      exact ⟨hk, by omega, h.2⟩
    · exact ⟨h.1, SMap.from_ins t _ k v h.2 (by omega) fun e he => hne e (by simp [he])⟩

theorem SMap.mem_ins {m : SMap α} {k : Nat} {v : α} {e : Nat × α} : e ∈ m.ins k v ↔ e = (k, v) ∨ e ∈ m := by
  induction m with
  | nil => simp [SMap.ins]
  | cons x t ih =>
    obtain ⟨k', w⟩ := x
    simp only [SMap.ins]
    split
    · simp
    · simp only [List.mem_cons, ih]
      constructor
      · rintro (h | h | h)
        · exact Or.inr (Or.inl h)
        · exact Or.inl h
        · exact Or.inr (Or.inr h)
      · rintro (h | h | h)
        · exact Or.inr (Or.inl h)
        · exact Or.inl h
        · exact Or.inr (Or.inr h)

/-- Sorted keys stay sorted. -/
theorem SMap.sorted_set [DecidableEq α] (d : α) (m : SMap α) (k : Nat) (v : α) (h : m.sorted = true) :
    (SMap.set d m k v).sorted = true := by
  obtain ⟨n, hn⟩ := (SMap.from_iff_sorted m).mpr h
  have h0 : SMap.from 0 (m.del k) := SMap.from_mono (Nat.zero_le _) (SMap.from_del m n k hn)
  apply (SMap.from_iff_sorted _).mp
  unfold SMap.set
  split
  · exact ⟨0, h0⟩
  · exact ⟨0, SMap.from_ins _ 0 k v h0 (Nat.zero_le _) fun e he => (SMap.mem_del.mp he).2⟩

/-- Every write keeps the canonical form. -/
theorem SMap.wf_set [DecidableEq α] (d : α) (m : SMap α) (k : Nat) (v : α) (h : SMap.wf d m = true) :
    SMap.wf d (SMap.set d m k v) = true := by
  simp only [SMap.wf, Bool.and_eq_true, List.all_eq_true, decide_eq_true_eq] at h ⊢
  refine ⟨SMap.sorted_set d m k v h.1, fun e he => ?_⟩
  unfold SMap.set at he
  split at he
  · exact h.2 e (SMap.mem_del.mp he).1
  · rename_i hv
    rcases SMap.mem_ins.mp he with rfl | he
    · exact hv
    · exact h.2 e (SMap.mem_del.mp he).1

theorem SMap.wf_upd [DecidableEq α] (d : α) (m : SMap α) (k : Nat) (f : α → α) (h : SMap.wf d m = true) :
    SMap.wf d (SMap.upd d m k f) = true := SMap.wf_set d m k _ h

theorem SMap.from_filter (p : Nat × α → Bool) : ∀ (m : SMap α) (n : Nat), SMap.from n m → SMap.from n (m.filter p)
  | [], _, _ => trivial
  | (k, v) :: t, n, h => by
    have ih := SMap.from_filter p t (k + 1) h.2
    by_cases hp : p (k, v) = true
    · rw [List.filter_cons_of_pos hp]
      exact ⟨h.1, ih⟩
    · rw [List.filter_cons_of_neg hp]
      exact SMap.from_mono (Nat.le_succ_of_le h.1) ih

/-- Taking entries out keeps the canonical form. -/
theorem SMap.wf_filter [DecidableEq α] {d : α} (p : Nat × α → Bool) (m : SMap α) (h : SMap.wf d m = true) :
    SMap.wf d (m.filter p) = true := by
  simp only [SMap.wf, Bool.and_eq_true, List.all_eq_true, decide_eq_true_eq] at h ⊢
  obtain ⟨n, hn⟩ := (SMap.from_iff_sorted m).mpr h.1
  exact ⟨(SMap.from_iff_sorted _).mp ⟨n, SMap.from_filter p m n hn⟩, fun e he => h.2 e (List.mem_filter.mp he).1⟩

@[simp] theorem SMap.wf_nil [DecidableEq α] (d : α) : SMap.wf d ([] : SMap α) = true := rfl

/-! ### Byte memories -/

/-- Writing bytes keeps the canonical form. -/
theorem Memory.wf_write (d : Byte) : ∀ (bs : List Byte) (m : Memory) (a : Nat), Memory.wf d m = true →
    Memory.wf d (Memory.write d m a bs) = true
  | [], _, _, h => h
  | b :: bs, m, a, h => Memory.wf_write d bs _ (a + 1) (SMap.wf_set d m a b h)

/-- Writing bytes leaves every byte outside them alone. -/
theorem Memory.byte_write_out (d : Byte) : ∀ (bs : List Byte) (m : Memory) (a x : Nat), x < a ∨ a + bs.length ≤ x →
    Memory.byte d (Memory.write d m a bs) x = Memory.byte d m x
  | [], _, _, _, _ => rfl
  | b :: bs, m, a, x, h => by
    simp only [List.length_cons] at h
    rw [Memory.write, Memory.byte_write_out d bs _ (a + 1) x (by omega)]
    exact SMap.get_set_ne d d m b (by omega)

/-- A byte read where bytes were written is the byte written there. -/
theorem Memory.byte_write_in (d : Byte) : ∀ (bs : List Byte) (m : Memory) (a i : Nat), i < bs.length →
    Memory.byte d (Memory.write d m a bs) (a + i) = bs.getD i d
  | [], _, _, _, h => absurd h (Nat.not_lt_zero _)
  | b :: bs, m, a, 0, _ => by
    rw [Memory.write, Memory.byte_write_out d bs _ (a + 1) (a + 0) (by omega)]
    simp [Memory.byte]
  | b :: bs, m, a, i + 1, h => by
    rw [Memory.write, show a + (i + 1) = a + 1 + i by omega,
      Memory.byte_write_in d bs _ (a + 1) i (by simpa using h)]
    simp

/-- Bytes read where they were written. -/
theorem Memory.read_write (d : Byte) (bs : List Byte) (m : Memory) (a : Nat) :
    Memory.read d (Memory.write d m a bs) a bs.length = bs := by
  have key : ∀ (n a' : Nat) (m' : Memory), Memory.read d m' a' n = (List.range n).map fun i => Memory.byte d m' (a' + i) := by
    intro n
    induction n with
    | zero => intros; rfl
    | succ n ih =>
      intro a' m'
      rw [Memory.read, ih, List.range_succ_eq_map]
      simp only [List.map_cons, List.map_map, Nat.add_zero, List.cons.injEq, true_and]
      apply List.map_congr_left
      intro i _
      simp only [Function.comp]
      congr 1; omega
  rw [key]
  apply List.ext_getElem
  · simp
  · intro i h1 h2
    simp only [List.getElem_map, List.getElem_range]
    rw [Memory.byte_write_in d bs m a i h2]
    simp [List.getD_eq_getElem?_getD, List.getElem?_eq_getElem h2]

/-! ### Bit fields -/

theorem fset_toNat (w : Word) (f : Fld) (v : Nat) (h : f.lo + f.w ≤ 64) :
    (fset w f v).toNat = w.toNat % 2 ^ f.lo + v % 2 ^ f.w * 2 ^ f.lo + w.toNat / 2 ^ (f.lo + f.w) * 2 ^ (f.lo + f.w) := by
  have hw := w.isLt
  have h1 : w.toNat % 2 ^ f.lo < 2 ^ f.lo := Nat.mod_lt _ (Nat.two_pow_pos _)
  have h2 : v % 2 ^ f.w < 2 ^ f.w := Nat.mod_lt _ (Nat.two_pow_pos _)
  have hp : 2 ^ (f.lo + f.w) = 2 ^ f.w * 2 ^ f.lo := by rw [Nat.pow_add, Nat.mul_comm]
  have hlow : w.toNat % 2 ^ f.lo + v % 2 ^ f.w * 2 ^ f.lo < 2 ^ (f.lo + f.w) := by
    have : (v % 2 ^ f.w + 1) * 2 ^ f.lo ≤ 2 ^ f.w * 2 ^ f.lo := Nat.mul_le_mul_right _ h2
    rw [Nat.add_mul, Nat.one_mul] at this
    omega
  have hhi : (w.toNat / 2 ^ (f.lo + f.w) + 1) * 2 ^ (f.lo + f.w) ≤ 2 ^ 64 := by
    have e : (2 : Nat) ^ 64 = 2 ^ (64 - (f.lo + f.w)) * 2 ^ (f.lo + f.w) := by
      rw [← Nat.pow_add]; congr 1; omega
    rw [e]
    apply Nat.mul_le_mul_right
    exact Nat.div_lt_of_lt_mul (by rw [Nat.mul_comm, ← e]; exact hw)
  rw [Nat.add_mul, Nat.one_mul] at hhi
  simp only [fset, BitVec.toNat_ofNat]
  exact Nat.mod_eq_of_lt (by omega)

/-- A field reads what was put into it, cut to its width. -/
theorem fget_fset_same (w : Word) (f : Fld) (v : Nat) (h : f.lo + f.w ≤ 64 := by decide) : fget (fset w f v) f = v % 2 ^ f.w := by
  have h1 : w.toNat % 2 ^ f.lo < 2 ^ f.lo := Nat.mod_lt _ (Nat.two_pow_pos _)
  rw [fget, fset_toNat w f v h, Nat.pow_add,
    show w.toNat % 2 ^ f.lo + v % 2 ^ f.w * 2 ^ f.lo + w.toNat / (2 ^ f.lo * 2 ^ f.w) * (2 ^ f.lo * 2 ^ f.w)
      = w.toNat % 2 ^ f.lo + 2 ^ f.lo * (v % 2 ^ f.w + 2 ^ f.w * (w.toNat / (2 ^ f.lo * 2 ^ f.w))) by
        rw [Nat.mul_add, ← Nat.mul_assoc (2 ^ f.lo) (2 ^ f.w), Nat.mul_comm (2 ^ f.lo) (v % 2 ^ f.w),
          Nat.mul_comm (2 ^ f.lo * 2 ^ f.w) (w.toNat / _), Nat.add_assoc],
    Nat.add_mul_div_left _ _ (Nat.two_pow_pos _), Nat.div_eq_of_lt h1, Nat.zero_add, Nat.add_mul_mod_self_left,
    Nat.mod_mod]

/-- A field reads as before when another field is put. -/
theorem fget_fset_ne (w : Word) (f g : Fld) (v : Nat) (h : f.lo + f.w ≤ 64)
    (hd : g.lo + g.w ≤ f.lo ∨ f.lo + f.w ≤ g.lo) : fget (fset w f v) g = fget w g := by
  have e : ∀ x, fget x g = (x.toNat >>> g.lo) % 2 ^ g.w := fun x => by rw [fget, Nat.shiftRight_eq_div_pow]
  rw [e, e]
  apply Nat.eq_of_testBit_eq
  intro i
  simp only [Nat.testBit_mod_two_pow, Nat.testBit_shiftRight]
  by_cases hi : i < g.w
  · simp only [hi, decide_true, Bool.true_and]
    rw [fset_toNat w f v h]
    have h1 : w.toNat % 2 ^ f.lo < 2 ^ f.lo := Nat.mod_lt _ (Nat.two_pow_pos _)
    have h2 : v % 2 ^ f.w < 2 ^ f.w := Nat.mod_lt _ (Nat.two_pow_pos _)
    have hlow : w.toNat % 2 ^ f.lo + v % 2 ^ f.w * 2 ^ f.lo < 2 ^ (f.lo + f.w) := by
      have : (v % 2 ^ f.w + 1) * 2 ^ f.lo ≤ 2 ^ f.w * 2 ^ f.lo := Nat.mul_le_mul_right _ h2
      rw [Nat.add_mul, Nat.one_mul, ← Nat.pow_add, Nat.add_comm f.w] at this
      omega
    rw [Nat.add_comm (_ + _) (_ * _), Nat.mul_comm (_ / _) (2 ^ (f.lo + f.w)),
      Nat.testBit_two_pow_mul_add _ hlow]
    by_cases hlt : g.lo + i < f.lo + f.w
    · rw [if_pos hlt]
      have hg : g.lo + i < f.lo := by omega
      rw [Nat.add_comm (_ % _), Nat.mul_comm (_ % _) (2 ^ f.lo), Nat.testBit_two_pow_mul_add _ h1, if_pos hg,
        Nat.testBit_mod_two_pow]
      simp [hg]
    · rw [if_neg hlt, ← Nat.shiftRight_eq_div_pow, Nat.testBit_shiftRight]
      congr 1; omega
  · simp [hi]

end Sys2Proof.Machine
end

