-- ==== Sys2Proof/Laws/State.lean ====
section
/-! SUPPORT. What each named update of the state leaves alone: one lemma per field per update, each true by definition. -/

set_option Elab.async false

namespace Sys2Proof.Machine

variable (s : State)

/-! ### wr -/
@[simp] theorem State.wr_pending (a : Nat) (v : Word) : (s.wr a v).pending = s.pending := (rfl)
@[simp] theorem State.wr_act (a : Nat) (v : Word) : (s.wr a v).act = s.act := (rfl)
@[simp] theorem State.wr_snap (a : Nat) (v : Word) : (s.wr a v).snap = s.snap := (rfl)
@[simp] theorem State.wr_staged (a : Nat) (v : Word) : (s.wr a v).staged = s.staged := (rfl)
@[simp] theorem State.wr_readData (a : Nat) (v : Word) : (s.wr a v).readData = s.readData := (rfl)
@[simp] theorem State.wr_outs (a : Nat) (v : Word) : (s.wr a v).outs = s.outs := (rfl)
@[simp] theorem State.wr_time (a : Nat) (v : Word) : (s.wr a v).time = s.time := (rfl)
@[simp] theorem State.wr_frac (a : Nat) (v : Word) : (s.wr a v).frac = s.frac := (rfl)
@[simp] theorem State.wr_freeCtr (a : Nat) (v : Word) : (s.wr a v).freeCtr = s.freeCtr := (rfl)
@[simp] theorem State.wr_store (a : Nat) (v : Word) : (s.wr a v).store = s.store := (rfl)
@[simp] theorem State.wr_hostMem (a : Nat) (v : Word) : (s.wr a v).hostMem = s.hostMem := (rfl)
@[simp] theorem State.wr_flash (a : Nat) (v : Word) : (s.wr a v).flash = s.flash := (rfl)
@[simp] theorem State.wr_evt (a : Nat) (v : Word) : (s.wr a v).evt = s.evt := (rfl)
@[simp] theorem State.wr_hif (a : Nat) (v : Word) : (s.wr a v).hif = s.hif := (rfl)
@[simp] theorem State.wr_ctxs (a : Nat) (v : Word) : (s.wr a v).ctxs = s.ctxs := (rfl)
@[simp] theorem State.wr_billets (a : Nat) (v : Word) : (s.wr a v).billets = s.billets := (rfl)
@[simp] theorem State.wr_ports (a : Nat) (v : Word) : (s.wr a v).ports = s.ports := (rfl)
@[simp] theorem State.wr_aside (a : Nat) (v : Word) : (s.wr a v).aside = s.aside := (rfl)
@[simp] theorem State.wr_served (a : Nat) (v : Word) : (s.wr a v).served = s.served := (rfl)
@[simp] theorem State.wr_badLines (a : Nat) (v : Word) : (s.wr a v).badLines = s.badLines := (rfl)
@[simp] theorem State.wr_clk (a : Nat) (v : Word) : (s.wr a v).clk = s.clk := (rfl)
@[simp] theorem State.wr_plan (a : Nat) (v : Word) : (s.wr a v).plan = s.plan := (rfl)
@[simp] theorem State.wr_tbs (a : Nat) (v : Word) : (s.wr a v).tbs = s.tbs := (rfl)
@[simp] theorem State.wr_tdc (a : Nat) (v : Word) : (s.wr a v).tdc = s.tdc := (rfl)
@[simp] theorem State.wr_cnv (a : Nat) (v : Word) : (s.wr a v).cnv = s.cnv := (rfl)
@[simp] theorem State.wr_pg (a : Nat) (v : Word) : (s.wr a v).pg = s.pg := (rfl)
@[simp] theorem State.wr_cal (a : Nat) (v : Word) : (s.wr a v).cal = s.cal := (rfl)
@[simp] theorem State.wr_ddc (a : Nat) (v : Word) : (s.wr a v).ddc = s.ddc := (rfl)
@[simp] theorem State.wr_xfm (a : Nat) (v : Word) : (s.wr a v).xfm = s.xfm := (rfl)
@[simp] theorem State.wr_streams (a : Nat) (v : Word) : (s.wr a v).streams = s.streams := (rfl)
@[simp] theorem State.wr_frames (a : Nat) (v : Word) : (s.wr a v).frames = s.frames := (rfl)
@[simp] theorem State.wr_det (a : Nat) (v : Word) : (s.wr a v).det = s.det := (rfl)
@[simp] theorem State.wr_den (a : Nat) (v : Word) : (s.wr a v).den = s.den := (rfl)
@[simp] theorem State.wr_tq (a : Nat) (v : Word) : (s.wr a v).tq = s.tq := (rfl)
@[simp] theorem State.wr_lt (a : Nat) (v : Word) : (s.wr a v).lt = s.lt := (rfl)
@[simp] theorem State.wr_fm (a : Nat) (v : Word) : (s.wr a v).fm = s.fm := (rfl)
@[simp] theorem State.wr_bus (a : Nat) (v : Word) : (s.wr a v).bus = s.bus := (rfl)
@[simp] theorem State.wr_tmr (a : Nat) (v : Word) : (s.wr a v).tmr = s.tmr := (rfl)
@[simp] theorem State.wr_decs (a : Nat) (v : Word) : (s.wr a v).decs = s.decs := (rfl)
@[simp] theorem State.wr_au (a : Nat) (v : Word) : (s.wr a v).au = s.au := (rfl)
@[simp] theorem State.wr_replay (a : Nat) (v : Word) : (s.wr a v).replay = s.replay := (rfl)
@[simp] theorem State.wr_turf (a : Nat) (v : Word) : (s.wr a v).turf = s.turf := (rfl)
@[simp] theorem State.wr_clusters (a : Nat) (v : Word) : (s.wr a v).clusters = s.clusters := (rfl)
@[simp] theorem State.wr_net (a : Nat) (v : Word) : (s.wr a v).net = s.net := (rfl)
@[simp] theorem State.wr_ave (a : Nat) (v : Word) : (s.wr a v).ave = s.ave := (rfl)
@[simp] theorem State.wr_slots (a : Nat) (v : Word) : (s.wr a v).slots = s.slots := (rfl)
@[simp] theorem State.wr_dis (a : Nat) (v : Word) : (s.wr a v).dis = s.dis := (rfl)
@[simp] theorem State.wr_layers (a : Nat) (v : Word) : (s.wr a v).layers = s.layers := (rfl)
@[simp] theorem State.wr_mem (a : Nat) (v : Word) : (s.wr a v).mem = s.mem := (rfl)
@[simp] theorem State.wr_dma (a : Nat) (v : Word) : (s.wr a v).dma = s.dma := (rfl)
@[simp] theorem State.wr_rst (a : Nat) (v : Word) : (s.wr a v).rst = s.rst := (rfl)
@[simp] theorem State.wr_stk (a : Nat) (v : Word) : (s.wr a v).stk = s.stk := (rfl)
@[simp] theorem State.wr_cmp (a : Nat) (v : Word) : (s.wr a v).cmp = s.cmp := (rfl)
@[simp] theorem State.wr_pkg (a : Nat) (v : Word) : (s.wr a v).pkg = s.pkg := (rfl)
@[simp] theorem State.actv_wr (a : Nat) (v : Word) (adr : Nat) : (s.wr a v).actv adr = s.actv adr := (rfl)

/-! ### setFld -/
@[simp] theorem State.setFld_pending (a : Nat) (f : Fld) (v : Nat) : (s.setFld a f v).pending = s.pending := (rfl)
@[simp] theorem State.setFld_act (a : Nat) (f : Fld) (v : Nat) : (s.setFld a f v).act = s.act := (rfl)
@[simp] theorem State.setFld_snap (a : Nat) (f : Fld) (v : Nat) : (s.setFld a f v).snap = s.snap := (rfl)
@[simp] theorem State.setFld_staged (a : Nat) (f : Fld) (v : Nat) : (s.setFld a f v).staged = s.staged := (rfl)
@[simp] theorem State.setFld_readData (a : Nat) (f : Fld) (v : Nat) : (s.setFld a f v).readData = s.readData := (rfl)
@[simp] theorem State.setFld_outs (a : Nat) (f : Fld) (v : Nat) : (s.setFld a f v).outs = s.outs := (rfl)
@[simp] theorem State.setFld_time (a : Nat) (f : Fld) (v : Nat) : (s.setFld a f v).time = s.time := (rfl)
@[simp] theorem State.setFld_frac (a : Nat) (f : Fld) (v : Nat) : (s.setFld a f v).frac = s.frac := (rfl)
@[simp] theorem State.setFld_freeCtr (a : Nat) (f : Fld) (v : Nat) : (s.setFld a f v).freeCtr = s.freeCtr := (rfl)
@[simp] theorem State.setFld_store (a : Nat) (f : Fld) (v : Nat) : (s.setFld a f v).store = s.store := (rfl)
@[simp] theorem State.setFld_hostMem (a : Nat) (f : Fld) (v : Nat) : (s.setFld a f v).hostMem = s.hostMem := (rfl)
@[simp] theorem State.setFld_flash (a : Nat) (f : Fld) (v : Nat) : (s.setFld a f v).flash = s.flash := (rfl)
@[simp] theorem State.setFld_evt (a : Nat) (f : Fld) (v : Nat) : (s.setFld a f v).evt = s.evt := (rfl)
@[simp] theorem State.setFld_hif (a : Nat) (f : Fld) (v : Nat) : (s.setFld a f v).hif = s.hif := (rfl)
@[simp] theorem State.setFld_ctxs (a : Nat) (f : Fld) (v : Nat) : (s.setFld a f v).ctxs = s.ctxs := (rfl)
@[simp] theorem State.setFld_billets (a : Nat) (f : Fld) (v : Nat) : (s.setFld a f v).billets = s.billets := (rfl)
@[simp] theorem State.setFld_ports (a : Nat) (f : Fld) (v : Nat) : (s.setFld a f v).ports = s.ports := (rfl)
@[simp] theorem State.setFld_aside (a : Nat) (f : Fld) (v : Nat) : (s.setFld a f v).aside = s.aside := (rfl)
@[simp] theorem State.setFld_served (a : Nat) (f : Fld) (v : Nat) : (s.setFld a f v).served = s.served := (rfl)
@[simp] theorem State.setFld_badLines (a : Nat) (f : Fld) (v : Nat) : (s.setFld a f v).badLines = s.badLines := (rfl)
@[simp] theorem State.setFld_clk (a : Nat) (f : Fld) (v : Nat) : (s.setFld a f v).clk = s.clk := (rfl)
@[simp] theorem State.setFld_plan (a : Nat) (f : Fld) (v : Nat) : (s.setFld a f v).plan = s.plan := (rfl)
@[simp] theorem State.setFld_tbs (a : Nat) (f : Fld) (v : Nat) : (s.setFld a f v).tbs = s.tbs := (rfl)
@[simp] theorem State.setFld_tdc (a : Nat) (f : Fld) (v : Nat) : (s.setFld a f v).tdc = s.tdc := (rfl)
@[simp] theorem State.setFld_cnv (a : Nat) (f : Fld) (v : Nat) : (s.setFld a f v).cnv = s.cnv := (rfl)
@[simp] theorem State.setFld_pg (a : Nat) (f : Fld) (v : Nat) : (s.setFld a f v).pg = s.pg := (rfl)
@[simp] theorem State.setFld_cal (a : Nat) (f : Fld) (v : Nat) : (s.setFld a f v).cal = s.cal := (rfl)
@[simp] theorem State.setFld_ddc (a : Nat) (f : Fld) (v : Nat) : (s.setFld a f v).ddc = s.ddc := (rfl)
@[simp] theorem State.setFld_xfm (a : Nat) (f : Fld) (v : Nat) : (s.setFld a f v).xfm = s.xfm := (rfl)
@[simp] theorem State.setFld_streams (a : Nat) (f : Fld) (v : Nat) : (s.setFld a f v).streams = s.streams := (rfl)
@[simp] theorem State.setFld_frames (a : Nat) (f : Fld) (v : Nat) : (s.setFld a f v).frames = s.frames := (rfl)
@[simp] theorem State.setFld_det (a : Nat) (f : Fld) (v : Nat) : (s.setFld a f v).det = s.det := (rfl)
@[simp] theorem State.setFld_den (a : Nat) (f : Fld) (v : Nat) : (s.setFld a f v).den = s.den := (rfl)
@[simp] theorem State.setFld_tq (a : Nat) (f : Fld) (v : Nat) : (s.setFld a f v).tq = s.tq := (rfl)
@[simp] theorem State.setFld_lt (a : Nat) (f : Fld) (v : Nat) : (s.setFld a f v).lt = s.lt := (rfl)
@[simp] theorem State.setFld_fm (a : Nat) (f : Fld) (v : Nat) : (s.setFld a f v).fm = s.fm := (rfl)
@[simp] theorem State.setFld_bus (a : Nat) (f : Fld) (v : Nat) : (s.setFld a f v).bus = s.bus := (rfl)
@[simp] theorem State.setFld_tmr (a : Nat) (f : Fld) (v : Nat) : (s.setFld a f v).tmr = s.tmr := (rfl)
@[simp] theorem State.setFld_decs (a : Nat) (f : Fld) (v : Nat) : (s.setFld a f v).decs = s.decs := (rfl)
@[simp] theorem State.setFld_au (a : Nat) (f : Fld) (v : Nat) : (s.setFld a f v).au = s.au := (rfl)
@[simp] theorem State.setFld_replay (a : Nat) (f : Fld) (v : Nat) : (s.setFld a f v).replay = s.replay := (rfl)
@[simp] theorem State.setFld_turf (a : Nat) (f : Fld) (v : Nat) : (s.setFld a f v).turf = s.turf := (rfl)
@[simp] theorem State.setFld_clusters (a : Nat) (f : Fld) (v : Nat) : (s.setFld a f v).clusters = s.clusters := (rfl)
@[simp] theorem State.setFld_net (a : Nat) (f : Fld) (v : Nat) : (s.setFld a f v).net = s.net := (rfl)
@[simp] theorem State.setFld_ave (a : Nat) (f : Fld) (v : Nat) : (s.setFld a f v).ave = s.ave := (rfl)
@[simp] theorem State.setFld_slots (a : Nat) (f : Fld) (v : Nat) : (s.setFld a f v).slots = s.slots := (rfl)
@[simp] theorem State.setFld_dis (a : Nat) (f : Fld) (v : Nat) : (s.setFld a f v).dis = s.dis := (rfl)
@[simp] theorem State.setFld_layers (a : Nat) (f : Fld) (v : Nat) : (s.setFld a f v).layers = s.layers := (rfl)
@[simp] theorem State.setFld_mem (a : Nat) (f : Fld) (v : Nat) : (s.setFld a f v).mem = s.mem := (rfl)
@[simp] theorem State.setFld_dma (a : Nat) (f : Fld) (v : Nat) : (s.setFld a f v).dma = s.dma := (rfl)
@[simp] theorem State.setFld_rst (a : Nat) (f : Fld) (v : Nat) : (s.setFld a f v).rst = s.rst := (rfl)
@[simp] theorem State.setFld_stk (a : Nat) (f : Fld) (v : Nat) : (s.setFld a f v).stk = s.stk := (rfl)
@[simp] theorem State.setFld_cmp (a : Nat) (f : Fld) (v : Nat) : (s.setFld a f v).cmp = s.cmp := (rfl)
@[simp] theorem State.setFld_pkg (a : Nat) (f : Fld) (v : Nat) : (s.setFld a f v).pkg = s.pkg := (rfl)
@[simp] theorem State.actv_setFld (a : Nat) (f : Fld) (v : Nat) (adr : Nat) : (s.setFld a f v).actv adr = s.actv adr := (rfl)

/-! ### setFlds -/
@[simp] theorem State.setFlds_pending (a : Nat) (l : List (Fld × Nat)) : (s.setFlds a l).pending = s.pending := (rfl)
@[simp] theorem State.setFlds_act (a : Nat) (l : List (Fld × Nat)) : (s.setFlds a l).act = s.act := (rfl)
@[simp] theorem State.setFlds_snap (a : Nat) (l : List (Fld × Nat)) : (s.setFlds a l).snap = s.snap := (rfl)
@[simp] theorem State.setFlds_staged (a : Nat) (l : List (Fld × Nat)) : (s.setFlds a l).staged = s.staged := (rfl)
@[simp] theorem State.setFlds_readData (a : Nat) (l : List (Fld × Nat)) : (s.setFlds a l).readData = s.readData := (rfl)
@[simp] theorem State.setFlds_outs (a : Nat) (l : List (Fld × Nat)) : (s.setFlds a l).outs = s.outs := (rfl)
@[simp] theorem State.setFlds_time (a : Nat) (l : List (Fld × Nat)) : (s.setFlds a l).time = s.time := (rfl)
@[simp] theorem State.setFlds_frac (a : Nat) (l : List (Fld × Nat)) : (s.setFlds a l).frac = s.frac := (rfl)
@[simp] theorem State.setFlds_freeCtr (a : Nat) (l : List (Fld × Nat)) : (s.setFlds a l).freeCtr = s.freeCtr := (rfl)
@[simp] theorem State.setFlds_store (a : Nat) (l : List (Fld × Nat)) : (s.setFlds a l).store = s.store := (rfl)
@[simp] theorem State.setFlds_hostMem (a : Nat) (l : List (Fld × Nat)) : (s.setFlds a l).hostMem = s.hostMem := (rfl)
@[simp] theorem State.setFlds_flash (a : Nat) (l : List (Fld × Nat)) : (s.setFlds a l).flash = s.flash := (rfl)
@[simp] theorem State.setFlds_evt (a : Nat) (l : List (Fld × Nat)) : (s.setFlds a l).evt = s.evt := (rfl)
@[simp] theorem State.setFlds_hif (a : Nat) (l : List (Fld × Nat)) : (s.setFlds a l).hif = s.hif := (rfl)
@[simp] theorem State.setFlds_ctxs (a : Nat) (l : List (Fld × Nat)) : (s.setFlds a l).ctxs = s.ctxs := (rfl)
@[simp] theorem State.setFlds_billets (a : Nat) (l : List (Fld × Nat)) : (s.setFlds a l).billets = s.billets := (rfl)
@[simp] theorem State.setFlds_ports (a : Nat) (l : List (Fld × Nat)) : (s.setFlds a l).ports = s.ports := (rfl)
@[simp] theorem State.setFlds_aside (a : Nat) (l : List (Fld × Nat)) : (s.setFlds a l).aside = s.aside := (rfl)
@[simp] theorem State.setFlds_served (a : Nat) (l : List (Fld × Nat)) : (s.setFlds a l).served = s.served := (rfl)
@[simp] theorem State.setFlds_badLines (a : Nat) (l : List (Fld × Nat)) : (s.setFlds a l).badLines = s.badLines := (rfl)
@[simp] theorem State.setFlds_clk (a : Nat) (l : List (Fld × Nat)) : (s.setFlds a l).clk = s.clk := (rfl)
@[simp] theorem State.setFlds_plan (a : Nat) (l : List (Fld × Nat)) : (s.setFlds a l).plan = s.plan := (rfl)
@[simp] theorem State.setFlds_tbs (a : Nat) (l : List (Fld × Nat)) : (s.setFlds a l).tbs = s.tbs := (rfl)
@[simp] theorem State.setFlds_tdc (a : Nat) (l : List (Fld × Nat)) : (s.setFlds a l).tdc = s.tdc := (rfl)
@[simp] theorem State.setFlds_cnv (a : Nat) (l : List (Fld × Nat)) : (s.setFlds a l).cnv = s.cnv := (rfl)
@[simp] theorem State.setFlds_pg (a : Nat) (l : List (Fld × Nat)) : (s.setFlds a l).pg = s.pg := (rfl)
@[simp] theorem State.setFlds_cal (a : Nat) (l : List (Fld × Nat)) : (s.setFlds a l).cal = s.cal := (rfl)
@[simp] theorem State.setFlds_ddc (a : Nat) (l : List (Fld × Nat)) : (s.setFlds a l).ddc = s.ddc := (rfl)
@[simp] theorem State.setFlds_xfm (a : Nat) (l : List (Fld × Nat)) : (s.setFlds a l).xfm = s.xfm := (rfl)
@[simp] theorem State.setFlds_streams (a : Nat) (l : List (Fld × Nat)) : (s.setFlds a l).streams = s.streams := (rfl)
@[simp] theorem State.setFlds_frames (a : Nat) (l : List (Fld × Nat)) : (s.setFlds a l).frames = s.frames := (rfl)
@[simp] theorem State.setFlds_det (a : Nat) (l : List (Fld × Nat)) : (s.setFlds a l).det = s.det := (rfl)
@[simp] theorem State.setFlds_den (a : Nat) (l : List (Fld × Nat)) : (s.setFlds a l).den = s.den := (rfl)
@[simp] theorem State.setFlds_tq (a : Nat) (l : List (Fld × Nat)) : (s.setFlds a l).tq = s.tq := (rfl)
@[simp] theorem State.setFlds_lt (a : Nat) (l : List (Fld × Nat)) : (s.setFlds a l).lt = s.lt := (rfl)
@[simp] theorem State.setFlds_fm (a : Nat) (l : List (Fld × Nat)) : (s.setFlds a l).fm = s.fm := (rfl)
@[simp] theorem State.setFlds_bus (a : Nat) (l : List (Fld × Nat)) : (s.setFlds a l).bus = s.bus := (rfl)
@[simp] theorem State.setFlds_tmr (a : Nat) (l : List (Fld × Nat)) : (s.setFlds a l).tmr = s.tmr := (rfl)
@[simp] theorem State.setFlds_decs (a : Nat) (l : List (Fld × Nat)) : (s.setFlds a l).decs = s.decs := (rfl)
@[simp] theorem State.setFlds_au (a : Nat) (l : List (Fld × Nat)) : (s.setFlds a l).au = s.au := (rfl)
@[simp] theorem State.setFlds_replay (a : Nat) (l : List (Fld × Nat)) : (s.setFlds a l).replay = s.replay := (rfl)
@[simp] theorem State.setFlds_turf (a : Nat) (l : List (Fld × Nat)) : (s.setFlds a l).turf = s.turf := (rfl)
@[simp] theorem State.setFlds_clusters (a : Nat) (l : List (Fld × Nat)) : (s.setFlds a l).clusters = s.clusters := (rfl)
@[simp] theorem State.setFlds_net (a : Nat) (l : List (Fld × Nat)) : (s.setFlds a l).net = s.net := (rfl)
@[simp] theorem State.setFlds_ave (a : Nat) (l : List (Fld × Nat)) : (s.setFlds a l).ave = s.ave := (rfl)
@[simp] theorem State.setFlds_slots (a : Nat) (l : List (Fld × Nat)) : (s.setFlds a l).slots = s.slots := (rfl)
@[simp] theorem State.setFlds_dis (a : Nat) (l : List (Fld × Nat)) : (s.setFlds a l).dis = s.dis := (rfl)
@[simp] theorem State.setFlds_layers (a : Nat) (l : List (Fld × Nat)) : (s.setFlds a l).layers = s.layers := (rfl)
@[simp] theorem State.setFlds_mem (a : Nat) (l : List (Fld × Nat)) : (s.setFlds a l).mem = s.mem := (rfl)
@[simp] theorem State.setFlds_dma (a : Nat) (l : List (Fld × Nat)) : (s.setFlds a l).dma = s.dma := (rfl)
@[simp] theorem State.setFlds_rst (a : Nat) (l : List (Fld × Nat)) : (s.setFlds a l).rst = s.rst := (rfl)
@[simp] theorem State.setFlds_stk (a : Nat) (l : List (Fld × Nat)) : (s.setFlds a l).stk = s.stk := (rfl)
@[simp] theorem State.setFlds_cmp (a : Nat) (l : List (Fld × Nat)) : (s.setFlds a l).cmp = s.cmp := (rfl)
@[simp] theorem State.setFlds_pkg (a : Nat) (l : List (Fld × Nat)) : (s.setFlds a l).pkg = s.pkg := (rfl)
@[simp] theorem State.actv_setFlds (a : Nat) (l : List (Fld × Nat)) (adr : Nat) : (s.setFlds a l).actv adr = s.actv adr := (rfl)

/-! ### addMod -/
@[simp] theorem State.addMod_pending (a : Nat) (f : Fld) (n : Nat) : (s.addMod a f n).pending = s.pending := (rfl)
@[simp] theorem State.addMod_act (a : Nat) (f : Fld) (n : Nat) : (s.addMod a f n).act = s.act := (rfl)
@[simp] theorem State.addMod_snap (a : Nat) (f : Fld) (n : Nat) : (s.addMod a f n).snap = s.snap := (rfl)
@[simp] theorem State.addMod_staged (a : Nat) (f : Fld) (n : Nat) : (s.addMod a f n).staged = s.staged := (rfl)
@[simp] theorem State.addMod_readData (a : Nat) (f : Fld) (n : Nat) : (s.addMod a f n).readData = s.readData := (rfl)
@[simp] theorem State.addMod_outs (a : Nat) (f : Fld) (n : Nat) : (s.addMod a f n).outs = s.outs := (rfl)
@[simp] theorem State.addMod_time (a : Nat) (f : Fld) (n : Nat) : (s.addMod a f n).time = s.time := (rfl)
@[simp] theorem State.addMod_frac (a : Nat) (f : Fld) (n : Nat) : (s.addMod a f n).frac = s.frac := (rfl)
@[simp] theorem State.addMod_freeCtr (a : Nat) (f : Fld) (n : Nat) : (s.addMod a f n).freeCtr = s.freeCtr := (rfl)
@[simp] theorem State.addMod_store (a : Nat) (f : Fld) (n : Nat) : (s.addMod a f n).store = s.store := (rfl)
@[simp] theorem State.addMod_hostMem (a : Nat) (f : Fld) (n : Nat) : (s.addMod a f n).hostMem = s.hostMem := (rfl)
@[simp] theorem State.addMod_flash (a : Nat) (f : Fld) (n : Nat) : (s.addMod a f n).flash = s.flash := (rfl)
@[simp] theorem State.addMod_evt (a : Nat) (f : Fld) (n : Nat) : (s.addMod a f n).evt = s.evt := (rfl)
@[simp] theorem State.addMod_hif (a : Nat) (f : Fld) (n : Nat) : (s.addMod a f n).hif = s.hif := (rfl)
@[simp] theorem State.addMod_ctxs (a : Nat) (f : Fld) (n : Nat) : (s.addMod a f n).ctxs = s.ctxs := (rfl)
@[simp] theorem State.addMod_billets (a : Nat) (f : Fld) (n : Nat) : (s.addMod a f n).billets = s.billets := (rfl)
@[simp] theorem State.addMod_ports (a : Nat) (f : Fld) (n : Nat) : (s.addMod a f n).ports = s.ports := (rfl)
@[simp] theorem State.addMod_aside (a : Nat) (f : Fld) (n : Nat) : (s.addMod a f n).aside = s.aside := (rfl)
@[simp] theorem State.addMod_served (a : Nat) (f : Fld) (n : Nat) : (s.addMod a f n).served = s.served := (rfl)
@[simp] theorem State.addMod_badLines (a : Nat) (f : Fld) (n : Nat) : (s.addMod a f n).badLines = s.badLines := (rfl)
@[simp] theorem State.addMod_clk (a : Nat) (f : Fld) (n : Nat) : (s.addMod a f n).clk = s.clk := (rfl)
@[simp] theorem State.addMod_plan (a : Nat) (f : Fld) (n : Nat) : (s.addMod a f n).plan = s.plan := (rfl)
@[simp] theorem State.addMod_tbs (a : Nat) (f : Fld) (n : Nat) : (s.addMod a f n).tbs = s.tbs := (rfl)
@[simp] theorem State.addMod_tdc (a : Nat) (f : Fld) (n : Nat) : (s.addMod a f n).tdc = s.tdc := (rfl)
@[simp] theorem State.addMod_cnv (a : Nat) (f : Fld) (n : Nat) : (s.addMod a f n).cnv = s.cnv := (rfl)
@[simp] theorem State.addMod_pg (a : Nat) (f : Fld) (n : Nat) : (s.addMod a f n).pg = s.pg := (rfl)
@[simp] theorem State.addMod_cal (a : Nat) (f : Fld) (n : Nat) : (s.addMod a f n).cal = s.cal := (rfl)
@[simp] theorem State.addMod_ddc (a : Nat) (f : Fld) (n : Nat) : (s.addMod a f n).ddc = s.ddc := (rfl)
@[simp] theorem State.addMod_xfm (a : Nat) (f : Fld) (n : Nat) : (s.addMod a f n).xfm = s.xfm := (rfl)
@[simp] theorem State.addMod_streams (a : Nat) (f : Fld) (n : Nat) : (s.addMod a f n).streams = s.streams := (rfl)
@[simp] theorem State.addMod_frames (a : Nat) (f : Fld) (n : Nat) : (s.addMod a f n).frames = s.frames := (rfl)
@[simp] theorem State.addMod_det (a : Nat) (f : Fld) (n : Nat) : (s.addMod a f n).det = s.det := (rfl)
@[simp] theorem State.addMod_den (a : Nat) (f : Fld) (n : Nat) : (s.addMod a f n).den = s.den := (rfl)
@[simp] theorem State.addMod_tq (a : Nat) (f : Fld) (n : Nat) : (s.addMod a f n).tq = s.tq := (rfl)
@[simp] theorem State.addMod_lt (a : Nat) (f : Fld) (n : Nat) : (s.addMod a f n).lt = s.lt := (rfl)
@[simp] theorem State.addMod_fm (a : Nat) (f : Fld) (n : Nat) : (s.addMod a f n).fm = s.fm := (rfl)
@[simp] theorem State.addMod_bus (a : Nat) (f : Fld) (n : Nat) : (s.addMod a f n).bus = s.bus := (rfl)
@[simp] theorem State.addMod_tmr (a : Nat) (f : Fld) (n : Nat) : (s.addMod a f n).tmr = s.tmr := (rfl)
@[simp] theorem State.addMod_decs (a : Nat) (f : Fld) (n : Nat) : (s.addMod a f n).decs = s.decs := (rfl)
@[simp] theorem State.addMod_au (a : Nat) (f : Fld) (n : Nat) : (s.addMod a f n).au = s.au := (rfl)
@[simp] theorem State.addMod_replay (a : Nat) (f : Fld) (n : Nat) : (s.addMod a f n).replay = s.replay := (rfl)
@[simp] theorem State.addMod_turf (a : Nat) (f : Fld) (n : Nat) : (s.addMod a f n).turf = s.turf := (rfl)
@[simp] theorem State.addMod_clusters (a : Nat) (f : Fld) (n : Nat) : (s.addMod a f n).clusters = s.clusters := (rfl)
@[simp] theorem State.addMod_net (a : Nat) (f : Fld) (n : Nat) : (s.addMod a f n).net = s.net := (rfl)
@[simp] theorem State.addMod_ave (a : Nat) (f : Fld) (n : Nat) : (s.addMod a f n).ave = s.ave := (rfl)
@[simp] theorem State.addMod_slots (a : Nat) (f : Fld) (n : Nat) : (s.addMod a f n).slots = s.slots := (rfl)
@[simp] theorem State.addMod_dis (a : Nat) (f : Fld) (n : Nat) : (s.addMod a f n).dis = s.dis := (rfl)
@[simp] theorem State.addMod_layers (a : Nat) (f : Fld) (n : Nat) : (s.addMod a f n).layers = s.layers := (rfl)
@[simp] theorem State.addMod_mem (a : Nat) (f : Fld) (n : Nat) : (s.addMod a f n).mem = s.mem := (rfl)
@[simp] theorem State.addMod_dma (a : Nat) (f : Fld) (n : Nat) : (s.addMod a f n).dma = s.dma := (rfl)
@[simp] theorem State.addMod_rst (a : Nat) (f : Fld) (n : Nat) : (s.addMod a f n).rst = s.rst := (rfl)
@[simp] theorem State.addMod_stk (a : Nat) (f : Fld) (n : Nat) : (s.addMod a f n).stk = s.stk := (rfl)
@[simp] theorem State.addMod_cmp (a : Nat) (f : Fld) (n : Nat) : (s.addMod a f n).cmp = s.cmp := (rfl)
@[simp] theorem State.addMod_pkg (a : Nat) (f : Fld) (n : Nat) : (s.addMod a f n).pkg = s.pkg := (rfl)
@[simp] theorem State.actv_addMod (a : Nat) (f : Fld) (n : Nat) (adr : Nat) : (s.addMod a f n).actv adr = s.actv adr := (rfl)

/-! ### addSat -/
@[simp] theorem State.addSat_pending (a : Nat) (f : Fld) (n : Nat) : (s.addSat a f n).pending = s.pending := (rfl)
@[simp] theorem State.addSat_act (a : Nat) (f : Fld) (n : Nat) : (s.addSat a f n).act = s.act := (rfl)
@[simp] theorem State.addSat_snap (a : Nat) (f : Fld) (n : Nat) : (s.addSat a f n).snap = s.snap := (rfl)
@[simp] theorem State.addSat_staged (a : Nat) (f : Fld) (n : Nat) : (s.addSat a f n).staged = s.staged := (rfl)
@[simp] theorem State.addSat_readData (a : Nat) (f : Fld) (n : Nat) : (s.addSat a f n).readData = s.readData := (rfl)
@[simp] theorem State.addSat_outs (a : Nat) (f : Fld) (n : Nat) : (s.addSat a f n).outs = s.outs := (rfl)
@[simp] theorem State.addSat_time (a : Nat) (f : Fld) (n : Nat) : (s.addSat a f n).time = s.time := (rfl)
@[simp] theorem State.addSat_frac (a : Nat) (f : Fld) (n : Nat) : (s.addSat a f n).frac = s.frac := (rfl)
@[simp] theorem State.addSat_freeCtr (a : Nat) (f : Fld) (n : Nat) : (s.addSat a f n).freeCtr = s.freeCtr := (rfl)
@[simp] theorem State.addSat_store (a : Nat) (f : Fld) (n : Nat) : (s.addSat a f n).store = s.store := (rfl)
@[simp] theorem State.addSat_hostMem (a : Nat) (f : Fld) (n : Nat) : (s.addSat a f n).hostMem = s.hostMem := (rfl)
@[simp] theorem State.addSat_flash (a : Nat) (f : Fld) (n : Nat) : (s.addSat a f n).flash = s.flash := (rfl)
@[simp] theorem State.addSat_evt (a : Nat) (f : Fld) (n : Nat) : (s.addSat a f n).evt = s.evt := (rfl)
@[simp] theorem State.addSat_hif (a : Nat) (f : Fld) (n : Nat) : (s.addSat a f n).hif = s.hif := (rfl)
@[simp] theorem State.addSat_ctxs (a : Nat) (f : Fld) (n : Nat) : (s.addSat a f n).ctxs = s.ctxs := (rfl)
@[simp] theorem State.addSat_billets (a : Nat) (f : Fld) (n : Nat) : (s.addSat a f n).billets = s.billets := (rfl)
@[simp] theorem State.addSat_ports (a : Nat) (f : Fld) (n : Nat) : (s.addSat a f n).ports = s.ports := (rfl)
@[simp] theorem State.addSat_aside (a : Nat) (f : Fld) (n : Nat) : (s.addSat a f n).aside = s.aside := (rfl)
@[simp] theorem State.addSat_served (a : Nat) (f : Fld) (n : Nat) : (s.addSat a f n).served = s.served := (rfl)
@[simp] theorem State.addSat_badLines (a : Nat) (f : Fld) (n : Nat) : (s.addSat a f n).badLines = s.badLines := (rfl)
@[simp] theorem State.addSat_clk (a : Nat) (f : Fld) (n : Nat) : (s.addSat a f n).clk = s.clk := (rfl)
@[simp] theorem State.addSat_plan (a : Nat) (f : Fld) (n : Nat) : (s.addSat a f n).plan = s.plan := (rfl)
@[simp] theorem State.addSat_tbs (a : Nat) (f : Fld) (n : Nat) : (s.addSat a f n).tbs = s.tbs := (rfl)
@[simp] theorem State.addSat_tdc (a : Nat) (f : Fld) (n : Nat) : (s.addSat a f n).tdc = s.tdc := (rfl)
@[simp] theorem State.addSat_cnv (a : Nat) (f : Fld) (n : Nat) : (s.addSat a f n).cnv = s.cnv := (rfl)
@[simp] theorem State.addSat_pg (a : Nat) (f : Fld) (n : Nat) : (s.addSat a f n).pg = s.pg := (rfl)
@[simp] theorem State.addSat_cal (a : Nat) (f : Fld) (n : Nat) : (s.addSat a f n).cal = s.cal := (rfl)
@[simp] theorem State.addSat_ddc (a : Nat) (f : Fld) (n : Nat) : (s.addSat a f n).ddc = s.ddc := (rfl)
@[simp] theorem State.addSat_xfm (a : Nat) (f : Fld) (n : Nat) : (s.addSat a f n).xfm = s.xfm := (rfl)
@[simp] theorem State.addSat_streams (a : Nat) (f : Fld) (n : Nat) : (s.addSat a f n).streams = s.streams := (rfl)
@[simp] theorem State.addSat_frames (a : Nat) (f : Fld) (n : Nat) : (s.addSat a f n).frames = s.frames := (rfl)
@[simp] theorem State.addSat_det (a : Nat) (f : Fld) (n : Nat) : (s.addSat a f n).det = s.det := (rfl)
@[simp] theorem State.addSat_den (a : Nat) (f : Fld) (n : Nat) : (s.addSat a f n).den = s.den := (rfl)
@[simp] theorem State.addSat_tq (a : Nat) (f : Fld) (n : Nat) : (s.addSat a f n).tq = s.tq := (rfl)
@[simp] theorem State.addSat_lt (a : Nat) (f : Fld) (n : Nat) : (s.addSat a f n).lt = s.lt := (rfl)
@[simp] theorem State.addSat_fm (a : Nat) (f : Fld) (n : Nat) : (s.addSat a f n).fm = s.fm := (rfl)
@[simp] theorem State.addSat_bus (a : Nat) (f : Fld) (n : Nat) : (s.addSat a f n).bus = s.bus := (rfl)
@[simp] theorem State.addSat_tmr (a : Nat) (f : Fld) (n : Nat) : (s.addSat a f n).tmr = s.tmr := (rfl)
@[simp] theorem State.addSat_decs (a : Nat) (f : Fld) (n : Nat) : (s.addSat a f n).decs = s.decs := (rfl)
@[simp] theorem State.addSat_au (a : Nat) (f : Fld) (n : Nat) : (s.addSat a f n).au = s.au := (rfl)
@[simp] theorem State.addSat_replay (a : Nat) (f : Fld) (n : Nat) : (s.addSat a f n).replay = s.replay := (rfl)
@[simp] theorem State.addSat_turf (a : Nat) (f : Fld) (n : Nat) : (s.addSat a f n).turf = s.turf := (rfl)
@[simp] theorem State.addSat_clusters (a : Nat) (f : Fld) (n : Nat) : (s.addSat a f n).clusters = s.clusters := (rfl)
@[simp] theorem State.addSat_net (a : Nat) (f : Fld) (n : Nat) : (s.addSat a f n).net = s.net := (rfl)
@[simp] theorem State.addSat_ave (a : Nat) (f : Fld) (n : Nat) : (s.addSat a f n).ave = s.ave := (rfl)
@[simp] theorem State.addSat_slots (a : Nat) (f : Fld) (n : Nat) : (s.addSat a f n).slots = s.slots := (rfl)
@[simp] theorem State.addSat_dis (a : Nat) (f : Fld) (n : Nat) : (s.addSat a f n).dis = s.dis := (rfl)
@[simp] theorem State.addSat_layers (a : Nat) (f : Fld) (n : Nat) : (s.addSat a f n).layers = s.layers := (rfl)
@[simp] theorem State.addSat_mem (a : Nat) (f : Fld) (n : Nat) : (s.addSat a f n).mem = s.mem := (rfl)
@[simp] theorem State.addSat_dma (a : Nat) (f : Fld) (n : Nat) : (s.addSat a f n).dma = s.dma := (rfl)
@[simp] theorem State.addSat_rst (a : Nat) (f : Fld) (n : Nat) : (s.addSat a f n).rst = s.rst := (rfl)
@[simp] theorem State.addSat_stk (a : Nat) (f : Fld) (n : Nat) : (s.addSat a f n).stk = s.stk := (rfl)
@[simp] theorem State.addSat_cmp (a : Nat) (f : Fld) (n : Nat) : (s.addSat a f n).cmp = s.cmp := (rfl)
@[simp] theorem State.addSat_pkg (a : Nat) (f : Fld) (n : Nat) : (s.addSat a f n).pkg = s.pkg := (rfl)
@[simp] theorem State.actv_addSat (a : Nat) (f : Fld) (n : Nat) (adr : Nat) : (s.addSat a f n).actv adr = s.actv adr := (rfl)

/-! ### setAct -/
@[simp] theorem State.setAct_pending (a : Nat) (v : Word) : (s.setAct a v).pending = s.pending := (rfl)
@[simp] theorem State.setAct_regs (a : Nat) (v : Word) : (s.setAct a v).regs = s.regs := (rfl)
@[simp] theorem State.setAct_snap (a : Nat) (v : Word) : (s.setAct a v).snap = s.snap := (rfl)
@[simp] theorem State.setAct_staged (a : Nat) (v : Word) : (s.setAct a v).staged = s.staged := (rfl)
@[simp] theorem State.setAct_readData (a : Nat) (v : Word) : (s.setAct a v).readData = s.readData := (rfl)
@[simp] theorem State.setAct_outs (a : Nat) (v : Word) : (s.setAct a v).outs = s.outs := (rfl)
@[simp] theorem State.setAct_time (a : Nat) (v : Word) : (s.setAct a v).time = s.time := (rfl)
@[simp] theorem State.setAct_frac (a : Nat) (v : Word) : (s.setAct a v).frac = s.frac := (rfl)
@[simp] theorem State.setAct_freeCtr (a : Nat) (v : Word) : (s.setAct a v).freeCtr = s.freeCtr := (rfl)
@[simp] theorem State.setAct_store (a : Nat) (v : Word) : (s.setAct a v).store = s.store := (rfl)
@[simp] theorem State.setAct_hostMem (a : Nat) (v : Word) : (s.setAct a v).hostMem = s.hostMem := (rfl)
@[simp] theorem State.setAct_flash (a : Nat) (v : Word) : (s.setAct a v).flash = s.flash := (rfl)
@[simp] theorem State.setAct_evt (a : Nat) (v : Word) : (s.setAct a v).evt = s.evt := (rfl)
@[simp] theorem State.setAct_hif (a : Nat) (v : Word) : (s.setAct a v).hif = s.hif := (rfl)
@[simp] theorem State.setAct_ctxs (a : Nat) (v : Word) : (s.setAct a v).ctxs = s.ctxs := (rfl)
@[simp] theorem State.setAct_billets (a : Nat) (v : Word) : (s.setAct a v).billets = s.billets := (rfl)
@[simp] theorem State.setAct_ports (a : Nat) (v : Word) : (s.setAct a v).ports = s.ports := (rfl)
@[simp] theorem State.setAct_aside (a : Nat) (v : Word) : (s.setAct a v).aside = s.aside := (rfl)
@[simp] theorem State.setAct_served (a : Nat) (v : Word) : (s.setAct a v).served = s.served := (rfl)
@[simp] theorem State.setAct_badLines (a : Nat) (v : Word) : (s.setAct a v).badLines = s.badLines := (rfl)
@[simp] theorem State.setAct_clk (a : Nat) (v : Word) : (s.setAct a v).clk = s.clk := (rfl)
@[simp] theorem State.setAct_plan (a : Nat) (v : Word) : (s.setAct a v).plan = s.plan := (rfl)
@[simp] theorem State.setAct_tbs (a : Nat) (v : Word) : (s.setAct a v).tbs = s.tbs := (rfl)
@[simp] theorem State.setAct_tdc (a : Nat) (v : Word) : (s.setAct a v).tdc = s.tdc := (rfl)
@[simp] theorem State.setAct_cnv (a : Nat) (v : Word) : (s.setAct a v).cnv = s.cnv := (rfl)
@[simp] theorem State.setAct_pg (a : Nat) (v : Word) : (s.setAct a v).pg = s.pg := (rfl)
@[simp] theorem State.setAct_cal (a : Nat) (v : Word) : (s.setAct a v).cal = s.cal := (rfl)
@[simp] theorem State.setAct_ddc (a : Nat) (v : Word) : (s.setAct a v).ddc = s.ddc := (rfl)
@[simp] theorem State.setAct_xfm (a : Nat) (v : Word) : (s.setAct a v).xfm = s.xfm := (rfl)
@[simp] theorem State.setAct_streams (a : Nat) (v : Word) : (s.setAct a v).streams = s.streams := (rfl)
@[simp] theorem State.setAct_frames (a : Nat) (v : Word) : (s.setAct a v).frames = s.frames := (rfl)
@[simp] theorem State.setAct_det (a : Nat) (v : Word) : (s.setAct a v).det = s.det := (rfl)
@[simp] theorem State.setAct_den (a : Nat) (v : Word) : (s.setAct a v).den = s.den := (rfl)
@[simp] theorem State.setAct_tq (a : Nat) (v : Word) : (s.setAct a v).tq = s.tq := (rfl)
@[simp] theorem State.setAct_lt (a : Nat) (v : Word) : (s.setAct a v).lt = s.lt := (rfl)
@[simp] theorem State.setAct_fm (a : Nat) (v : Word) : (s.setAct a v).fm = s.fm := (rfl)
@[simp] theorem State.setAct_bus (a : Nat) (v : Word) : (s.setAct a v).bus = s.bus := (rfl)
@[simp] theorem State.setAct_tmr (a : Nat) (v : Word) : (s.setAct a v).tmr = s.tmr := (rfl)
@[simp] theorem State.setAct_decs (a : Nat) (v : Word) : (s.setAct a v).decs = s.decs := (rfl)
@[simp] theorem State.setAct_au (a : Nat) (v : Word) : (s.setAct a v).au = s.au := (rfl)
@[simp] theorem State.setAct_replay (a : Nat) (v : Word) : (s.setAct a v).replay = s.replay := (rfl)
@[simp] theorem State.setAct_turf (a : Nat) (v : Word) : (s.setAct a v).turf = s.turf := (rfl)
@[simp] theorem State.setAct_clusters (a : Nat) (v : Word) : (s.setAct a v).clusters = s.clusters := (rfl)
@[simp] theorem State.setAct_net (a : Nat) (v : Word) : (s.setAct a v).net = s.net := (rfl)
@[simp] theorem State.setAct_ave (a : Nat) (v : Word) : (s.setAct a v).ave = s.ave := (rfl)
@[simp] theorem State.setAct_slots (a : Nat) (v : Word) : (s.setAct a v).slots = s.slots := (rfl)
@[simp] theorem State.setAct_dis (a : Nat) (v : Word) : (s.setAct a v).dis = s.dis := (rfl)
@[simp] theorem State.setAct_layers (a : Nat) (v : Word) : (s.setAct a v).layers = s.layers := (rfl)
@[simp] theorem State.setAct_mem (a : Nat) (v : Word) : (s.setAct a v).mem = s.mem := (rfl)
@[simp] theorem State.setAct_dma (a : Nat) (v : Word) : (s.setAct a v).dma = s.dma := (rfl)
@[simp] theorem State.setAct_rst (a : Nat) (v : Word) : (s.setAct a v).rst = s.rst := (rfl)
@[simp] theorem State.setAct_stk (a : Nat) (v : Word) : (s.setAct a v).stk = s.stk := (rfl)
@[simp] theorem State.setAct_cmp (a : Nat) (v : Word) : (s.setAct a v).cmp = s.cmp := (rfl)
@[simp] theorem State.setAct_pkg (a : Nat) (v : Word) : (s.setAct a v).pkg = s.pkg := (rfl)
@[simp] theorem State.rd_setAct (a : Nat) (v : Word) (adr : Nat) : (s.setAct a v).rd adr = s.rd adr := (rfl)
@[simp] theorem State.fld_setAct (a : Nat) (v : Word) (adr : Nat) (fd : Fld) : (s.setAct a v).fld adr fd = s.fld adr fd := (rfl)

/-! ### commitReg -/
@[simp] theorem State.commitReg_pending (a : Nat) : (s.commitReg a).pending = s.pending := (rfl)
@[simp] theorem State.commitReg_regs (a : Nat) : (s.commitReg a).regs = s.regs := (rfl)
@[simp] theorem State.commitReg_snap (a : Nat) : (s.commitReg a).snap = s.snap := (rfl)
@[simp] theorem State.commitReg_staged (a : Nat) : (s.commitReg a).staged = s.staged := (rfl)
@[simp] theorem State.commitReg_readData (a : Nat) : (s.commitReg a).readData = s.readData := (rfl)
@[simp] theorem State.commitReg_outs (a : Nat) : (s.commitReg a).outs = s.outs := (rfl)
@[simp] theorem State.commitReg_time (a : Nat) : (s.commitReg a).time = s.time := (rfl)
@[simp] theorem State.commitReg_frac (a : Nat) : (s.commitReg a).frac = s.frac := (rfl)
@[simp] theorem State.commitReg_freeCtr (a : Nat) : (s.commitReg a).freeCtr = s.freeCtr := (rfl)
@[simp] theorem State.commitReg_store (a : Nat) : (s.commitReg a).store = s.store := (rfl)
@[simp] theorem State.commitReg_hostMem (a : Nat) : (s.commitReg a).hostMem = s.hostMem := (rfl)
@[simp] theorem State.commitReg_flash (a : Nat) : (s.commitReg a).flash = s.flash := (rfl)
@[simp] theorem State.commitReg_evt (a : Nat) : (s.commitReg a).evt = s.evt := (rfl)
@[simp] theorem State.commitReg_hif (a : Nat) : (s.commitReg a).hif = s.hif := (rfl)
@[simp] theorem State.commitReg_ctxs (a : Nat) : (s.commitReg a).ctxs = s.ctxs := (rfl)
@[simp] theorem State.commitReg_billets (a : Nat) : (s.commitReg a).billets = s.billets := (rfl)
@[simp] theorem State.commitReg_ports (a : Nat) : (s.commitReg a).ports = s.ports := (rfl)
@[simp] theorem State.commitReg_aside (a : Nat) : (s.commitReg a).aside = s.aside := (rfl)
@[simp] theorem State.commitReg_served (a : Nat) : (s.commitReg a).served = s.served := (rfl)
@[simp] theorem State.commitReg_badLines (a : Nat) : (s.commitReg a).badLines = s.badLines := (rfl)
@[simp] theorem State.commitReg_clk (a : Nat) : (s.commitReg a).clk = s.clk := (rfl)
@[simp] theorem State.commitReg_plan (a : Nat) : (s.commitReg a).plan = s.plan := (rfl)
@[simp] theorem State.commitReg_tbs (a : Nat) : (s.commitReg a).tbs = s.tbs := (rfl)
@[simp] theorem State.commitReg_tdc (a : Nat) : (s.commitReg a).tdc = s.tdc := (rfl)
@[simp] theorem State.commitReg_cnv (a : Nat) : (s.commitReg a).cnv = s.cnv := (rfl)
@[simp] theorem State.commitReg_pg (a : Nat) : (s.commitReg a).pg = s.pg := (rfl)
@[simp] theorem State.commitReg_cal (a : Nat) : (s.commitReg a).cal = s.cal := (rfl)
@[simp] theorem State.commitReg_ddc (a : Nat) : (s.commitReg a).ddc = s.ddc := (rfl)
@[simp] theorem State.commitReg_xfm (a : Nat) : (s.commitReg a).xfm = s.xfm := (rfl)
@[simp] theorem State.commitReg_streams (a : Nat) : (s.commitReg a).streams = s.streams := (rfl)
@[simp] theorem State.commitReg_frames (a : Nat) : (s.commitReg a).frames = s.frames := (rfl)
@[simp] theorem State.commitReg_det (a : Nat) : (s.commitReg a).det = s.det := (rfl)
@[simp] theorem State.commitReg_den (a : Nat) : (s.commitReg a).den = s.den := (rfl)
@[simp] theorem State.commitReg_tq (a : Nat) : (s.commitReg a).tq = s.tq := (rfl)
@[simp] theorem State.commitReg_lt (a : Nat) : (s.commitReg a).lt = s.lt := (rfl)
@[simp] theorem State.commitReg_fm (a : Nat) : (s.commitReg a).fm = s.fm := (rfl)
@[simp] theorem State.commitReg_bus (a : Nat) : (s.commitReg a).bus = s.bus := (rfl)
@[simp] theorem State.commitReg_tmr (a : Nat) : (s.commitReg a).tmr = s.tmr := (rfl)
@[simp] theorem State.commitReg_decs (a : Nat) : (s.commitReg a).decs = s.decs := (rfl)
@[simp] theorem State.commitReg_au (a : Nat) : (s.commitReg a).au = s.au := (rfl)
@[simp] theorem State.commitReg_replay (a : Nat) : (s.commitReg a).replay = s.replay := (rfl)
@[simp] theorem State.commitReg_turf (a : Nat) : (s.commitReg a).turf = s.turf := (rfl)
@[simp] theorem State.commitReg_clusters (a : Nat) : (s.commitReg a).clusters = s.clusters := (rfl)
@[simp] theorem State.commitReg_net (a : Nat) : (s.commitReg a).net = s.net := (rfl)
@[simp] theorem State.commitReg_ave (a : Nat) : (s.commitReg a).ave = s.ave := (rfl)
@[simp] theorem State.commitReg_slots (a : Nat) : (s.commitReg a).slots = s.slots := (rfl)
@[simp] theorem State.commitReg_dis (a : Nat) : (s.commitReg a).dis = s.dis := (rfl)
@[simp] theorem State.commitReg_layers (a : Nat) : (s.commitReg a).layers = s.layers := (rfl)
@[simp] theorem State.commitReg_mem (a : Nat) : (s.commitReg a).mem = s.mem := (rfl)
@[simp] theorem State.commitReg_dma (a : Nat) : (s.commitReg a).dma = s.dma := (rfl)
@[simp] theorem State.commitReg_rst (a : Nat) : (s.commitReg a).rst = s.rst := (rfl)
@[simp] theorem State.commitReg_stk (a : Nat) : (s.commitReg a).stk = s.stk := (rfl)
@[simp] theorem State.commitReg_cmp (a : Nat) : (s.commitReg a).cmp = s.cmp := (rfl)
@[simp] theorem State.commitReg_pkg (a : Nat) : (s.commitReg a).pkg = s.pkg := (rfl)
@[simp] theorem State.rd_commitReg (a : Nat) (adr : Nat) : (s.commitReg a).rd adr = s.rd adr := (rfl)
@[simp] theorem State.fld_commitReg (a : Nat) (adr : Nat) (fd : Fld) : (s.commitReg a).fld adr fd = s.fld adr fd := (rfl)

/-! ### dropStaged -/
@[simp] theorem State.dropStaged_pending (p : Path) (a : Nat) : (s.dropStaged p a).pending = s.pending := (rfl)
@[simp] theorem State.dropStaged_regs (p : Path) (a : Nat) : (s.dropStaged p a).regs = s.regs := (rfl)
@[simp] theorem State.dropStaged_act (p : Path) (a : Nat) : (s.dropStaged p a).act = s.act := (rfl)
@[simp] theorem State.dropStaged_snap (p : Path) (a : Nat) : (s.dropStaged p a).snap = s.snap := (rfl)
@[simp] theorem State.dropStaged_readData (p : Path) (a : Nat) : (s.dropStaged p a).readData = s.readData := (rfl)
@[simp] theorem State.dropStaged_outs (p : Path) (a : Nat) : (s.dropStaged p a).outs = s.outs := (rfl)
@[simp] theorem State.dropStaged_time (p : Path) (a : Nat) : (s.dropStaged p a).time = s.time := (rfl)
@[simp] theorem State.dropStaged_frac (p : Path) (a : Nat) : (s.dropStaged p a).frac = s.frac := (rfl)
@[simp] theorem State.dropStaged_freeCtr (p : Path) (a : Nat) : (s.dropStaged p a).freeCtr = s.freeCtr := (rfl)
@[simp] theorem State.dropStaged_store (p : Path) (a : Nat) : (s.dropStaged p a).store = s.store := (rfl)
@[simp] theorem State.dropStaged_hostMem (p : Path) (a : Nat) : (s.dropStaged p a).hostMem = s.hostMem := (rfl)
@[simp] theorem State.dropStaged_flash (p : Path) (a : Nat) : (s.dropStaged p a).flash = s.flash := (rfl)
@[simp] theorem State.dropStaged_evt (p : Path) (a : Nat) : (s.dropStaged p a).evt = s.evt := (rfl)
@[simp] theorem State.dropStaged_hif (p : Path) (a : Nat) : (s.dropStaged p a).hif = s.hif := (rfl)
@[simp] theorem State.dropStaged_ctxs (p : Path) (a : Nat) : (s.dropStaged p a).ctxs = s.ctxs := (rfl)
@[simp] theorem State.dropStaged_billets (p : Path) (a : Nat) : (s.dropStaged p a).billets = s.billets := (rfl)
@[simp] theorem State.dropStaged_ports (p : Path) (a : Nat) : (s.dropStaged p a).ports = s.ports := (rfl)
@[simp] theorem State.dropStaged_aside (p : Path) (a : Nat) : (s.dropStaged p a).aside = s.aside := (rfl)
@[simp] theorem State.dropStaged_served (p : Path) (a : Nat) : (s.dropStaged p a).served = s.served := (rfl)
@[simp] theorem State.dropStaged_badLines (p : Path) (a : Nat) : (s.dropStaged p a).badLines = s.badLines := (rfl)
@[simp] theorem State.dropStaged_clk (p : Path) (a : Nat) : (s.dropStaged p a).clk = s.clk := (rfl)
@[simp] theorem State.dropStaged_plan (p : Path) (a : Nat) : (s.dropStaged p a).plan = s.plan := (rfl)
@[simp] theorem State.dropStaged_tbs (p : Path) (a : Nat) : (s.dropStaged p a).tbs = s.tbs := (rfl)
@[simp] theorem State.dropStaged_tdc (p : Path) (a : Nat) : (s.dropStaged p a).tdc = s.tdc := (rfl)
@[simp] theorem State.dropStaged_cnv (p : Path) (a : Nat) : (s.dropStaged p a).cnv = s.cnv := (rfl)
@[simp] theorem State.dropStaged_pg (p : Path) (a : Nat) : (s.dropStaged p a).pg = s.pg := (rfl)
@[simp] theorem State.dropStaged_cal (p : Path) (a : Nat) : (s.dropStaged p a).cal = s.cal := (rfl)
@[simp] theorem State.dropStaged_ddc (p : Path) (a : Nat) : (s.dropStaged p a).ddc = s.ddc := (rfl)
@[simp] theorem State.dropStaged_xfm (p : Path) (a : Nat) : (s.dropStaged p a).xfm = s.xfm := (rfl)
@[simp] theorem State.dropStaged_streams (p : Path) (a : Nat) : (s.dropStaged p a).streams = s.streams := (rfl)
@[simp] theorem State.dropStaged_frames (p : Path) (a : Nat) : (s.dropStaged p a).frames = s.frames := (rfl)
@[simp] theorem State.dropStaged_det (p : Path) (a : Nat) : (s.dropStaged p a).det = s.det := (rfl)
@[simp] theorem State.dropStaged_den (p : Path) (a : Nat) : (s.dropStaged p a).den = s.den := (rfl)
@[simp] theorem State.dropStaged_tq (p : Path) (a : Nat) : (s.dropStaged p a).tq = s.tq := (rfl)
@[simp] theorem State.dropStaged_lt (p : Path) (a : Nat) : (s.dropStaged p a).lt = s.lt := (rfl)
@[simp] theorem State.dropStaged_fm (p : Path) (a : Nat) : (s.dropStaged p a).fm = s.fm := (rfl)
@[simp] theorem State.dropStaged_bus (p : Path) (a : Nat) : (s.dropStaged p a).bus = s.bus := (rfl)
@[simp] theorem State.dropStaged_tmr (p : Path) (a : Nat) : (s.dropStaged p a).tmr = s.tmr := (rfl)
@[simp] theorem State.dropStaged_decs (p : Path) (a : Nat) : (s.dropStaged p a).decs = s.decs := (rfl)
@[simp] theorem State.dropStaged_au (p : Path) (a : Nat) : (s.dropStaged p a).au = s.au := (rfl)
@[simp] theorem State.dropStaged_replay (p : Path) (a : Nat) : (s.dropStaged p a).replay = s.replay := (rfl)
@[simp] theorem State.dropStaged_turf (p : Path) (a : Nat) : (s.dropStaged p a).turf = s.turf := (rfl)
@[simp] theorem State.dropStaged_clusters (p : Path) (a : Nat) : (s.dropStaged p a).clusters = s.clusters := (rfl)
@[simp] theorem State.dropStaged_net (p : Path) (a : Nat) : (s.dropStaged p a).net = s.net := (rfl)
@[simp] theorem State.dropStaged_ave (p : Path) (a : Nat) : (s.dropStaged p a).ave = s.ave := (rfl)
@[simp] theorem State.dropStaged_slots (p : Path) (a : Nat) : (s.dropStaged p a).slots = s.slots := (rfl)
@[simp] theorem State.dropStaged_dis (p : Path) (a : Nat) : (s.dropStaged p a).dis = s.dis := (rfl)
@[simp] theorem State.dropStaged_layers (p : Path) (a : Nat) : (s.dropStaged p a).layers = s.layers := (rfl)
@[simp] theorem State.dropStaged_mem (p : Path) (a : Nat) : (s.dropStaged p a).mem = s.mem := (rfl)
@[simp] theorem State.dropStaged_dma (p : Path) (a : Nat) : (s.dropStaged p a).dma = s.dma := (rfl)
@[simp] theorem State.dropStaged_rst (p : Path) (a : Nat) : (s.dropStaged p a).rst = s.rst := (rfl)
@[simp] theorem State.dropStaged_stk (p : Path) (a : Nat) : (s.dropStaged p a).stk = s.stk := (rfl)
@[simp] theorem State.dropStaged_cmp (p : Path) (a : Nat) : (s.dropStaged p a).cmp = s.cmp := (rfl)
@[simp] theorem State.dropStaged_pkg (p : Path) (a : Nat) : (s.dropStaged p a).pkg = s.pkg := (rfl)
@[simp] theorem State.rd_dropStaged (p : Path) (a : Nat) (adr : Nat) : (s.dropStaged p a).rd adr = s.rd adr := (rfl)
@[simp] theorem State.fld_dropStaged (p : Path) (a : Nat) (adr : Nat) (fd : Fld) : (s.dropStaged p a).fld adr fd = s.fld adr fd := (rfl)
@[simp] theorem State.actv_dropStaged (p : Path) (a : Nat) (adr : Nat) : (s.dropStaged p a).actv adr = s.actv adr := (rfl)

/-! ### reach -/
@[simp] theorem State.reach_pending (n : Nat) : (s.reach n).pending = s.pending := by unfold State.reach; split <;> rfl
@[simp] theorem State.reach_regs (n : Nat) : (s.reach n).regs = s.regs := by unfold State.reach; split <;> rfl
@[simp] theorem State.reach_act (n : Nat) : (s.reach n).act = s.act := by unfold State.reach; split <;> rfl
@[simp] theorem State.reach_snap (n : Nat) : (s.reach n).snap = s.snap := by unfold State.reach; split <;> rfl
@[simp] theorem State.reach_staged (n : Nat) : (s.reach n).staged = s.staged := by unfold State.reach; split <;> rfl
@[simp] theorem State.reach_readData (n : Nat) : (s.reach n).readData = s.readData := by unfold State.reach; split <;> rfl
@[simp] theorem State.reach_outs (n : Nat) : (s.reach n).outs = s.outs := by unfold State.reach; split <;> rfl
@[simp] theorem State.reach_frac (n : Nat) : (s.reach n).frac = s.frac := by unfold State.reach; split <;> rfl
@[simp] theorem State.reach_freeCtr (n : Nat) : (s.reach n).freeCtr = s.freeCtr := by unfold State.reach; split <;> rfl
@[simp] theorem State.reach_store (n : Nat) : (s.reach n).store = s.store := by unfold State.reach; split <;> rfl
@[simp] theorem State.reach_hostMem (n : Nat) : (s.reach n).hostMem = s.hostMem := by unfold State.reach; split <;> rfl
@[simp] theorem State.reach_flash (n : Nat) : (s.reach n).flash = s.flash := by unfold State.reach; split <;> rfl
@[simp] theorem State.reach_evt (n : Nat) : (s.reach n).evt = s.evt := by unfold State.reach; split <;> rfl
@[simp] theorem State.reach_hif (n : Nat) : (s.reach n).hif = s.hif := by unfold State.reach; split <;> rfl
@[simp] theorem State.reach_ctxs (n : Nat) : (s.reach n).ctxs = s.ctxs := by unfold State.reach; split <;> rfl
@[simp] theorem State.reach_billets (n : Nat) : (s.reach n).billets = s.billets := by unfold State.reach; split <;> rfl
@[simp] theorem State.reach_ports (n : Nat) : (s.reach n).ports = s.ports := by unfold State.reach; split <;> rfl
@[simp] theorem State.reach_aside (n : Nat) : (s.reach n).aside = s.aside := by unfold State.reach; split <;> rfl
@[simp] theorem State.reach_served (n : Nat) : (s.reach n).served = s.served := by unfold State.reach; split <;> rfl
@[simp] theorem State.reach_badLines (n : Nat) : (s.reach n).badLines = s.badLines := by unfold State.reach; split <;> rfl
@[simp] theorem State.reach_clk (n : Nat) : (s.reach n).clk = s.clk := by unfold State.reach; split <;> rfl
@[simp] theorem State.reach_plan (n : Nat) : (s.reach n).plan = s.plan := by unfold State.reach; split <;> rfl
@[simp] theorem State.reach_tbs (n : Nat) : (s.reach n).tbs = s.tbs := by unfold State.reach; split <;> rfl
@[simp] theorem State.reach_tdc (n : Nat) : (s.reach n).tdc = s.tdc := by unfold State.reach; split <;> rfl
@[simp] theorem State.reach_cnv (n : Nat) : (s.reach n).cnv = s.cnv := by unfold State.reach; split <;> rfl
@[simp] theorem State.reach_pg (n : Nat) : (s.reach n).pg = s.pg := by unfold State.reach; split <;> rfl
@[simp] theorem State.reach_cal (n : Nat) : (s.reach n).cal = s.cal := by unfold State.reach; split <;> rfl
@[simp] theorem State.reach_ddc (n : Nat) : (s.reach n).ddc = s.ddc := by unfold State.reach; split <;> rfl
@[simp] theorem State.reach_xfm (n : Nat) : (s.reach n).xfm = s.xfm := by unfold State.reach; split <;> rfl
@[simp] theorem State.reach_streams (n : Nat) : (s.reach n).streams = s.streams := by unfold State.reach; split <;> rfl
@[simp] theorem State.reach_frames (n : Nat) : (s.reach n).frames = s.frames := by unfold State.reach; split <;> rfl
@[simp] theorem State.reach_det (n : Nat) : (s.reach n).det = s.det := by unfold State.reach; split <;> rfl
@[simp] theorem State.reach_den (n : Nat) : (s.reach n).den = s.den := by unfold State.reach; split <;> rfl
@[simp] theorem State.reach_tq (n : Nat) : (s.reach n).tq = s.tq := by unfold State.reach; split <;> rfl
@[simp] theorem State.reach_lt (n : Nat) : (s.reach n).lt = s.lt := by unfold State.reach; split <;> rfl
@[simp] theorem State.reach_fm (n : Nat) : (s.reach n).fm = s.fm := by unfold State.reach; split <;> rfl
@[simp] theorem State.reach_bus (n : Nat) : (s.reach n).bus = s.bus := by unfold State.reach; split <;> rfl
@[simp] theorem State.reach_tmr (n : Nat) : (s.reach n).tmr = s.tmr := by unfold State.reach; split <;> rfl
@[simp] theorem State.reach_decs (n : Nat) : (s.reach n).decs = s.decs := by unfold State.reach; split <;> rfl
@[simp] theorem State.reach_au (n : Nat) : (s.reach n).au = s.au := by unfold State.reach; split <;> rfl
@[simp] theorem State.reach_replay (n : Nat) : (s.reach n).replay = s.replay := by unfold State.reach; split <;> rfl
@[simp] theorem State.reach_turf (n : Nat) : (s.reach n).turf = s.turf := by unfold State.reach; split <;> rfl
@[simp] theorem State.reach_clusters (n : Nat) : (s.reach n).clusters = s.clusters := by unfold State.reach; split <;> rfl
@[simp] theorem State.reach_net (n : Nat) : (s.reach n).net = s.net := by unfold State.reach; split <;> rfl
@[simp] theorem State.reach_ave (n : Nat) : (s.reach n).ave = s.ave := by unfold State.reach; split <;> rfl
@[simp] theorem State.reach_slots (n : Nat) : (s.reach n).slots = s.slots := by unfold State.reach; split <;> rfl
@[simp] theorem State.reach_dis (n : Nat) : (s.reach n).dis = s.dis := by unfold State.reach; split <;> rfl
@[simp] theorem State.reach_layers (n : Nat) : (s.reach n).layers = s.layers := by unfold State.reach; split <;> rfl
@[simp] theorem State.reach_mem (n : Nat) : (s.reach n).mem = s.mem := by unfold State.reach; split <;> rfl
@[simp] theorem State.reach_dma (n : Nat) : (s.reach n).dma = s.dma := by unfold State.reach; split <;> rfl
@[simp] theorem State.reach_rst (n : Nat) : (s.reach n).rst = s.rst := by unfold State.reach; split <;> rfl
@[simp] theorem State.reach_stk (n : Nat) : (s.reach n).stk = s.stk := by unfold State.reach; split <;> rfl
@[simp] theorem State.reach_cmp (n : Nat) : (s.reach n).cmp = s.cmp := by unfold State.reach; split <;> rfl
@[simp] theorem State.reach_pkg (n : Nat) : (s.reach n).pkg = s.pkg := by unfold State.reach; split <;> rfl
@[simp] theorem State.rd_reach (n : Nat) (adr : Nat) : (s.reach n).rd adr = s.rd adr := by unfold State.reach; split <;> rfl
@[simp] theorem State.fld_reach (n : Nat) (adr : Nat) (fd : Fld) : (s.reach n).fld adr fd = s.fld adr fd := by unfold State.reach; split <;> rfl
@[simp] theorem State.actv_reach (n : Nat) (adr : Nat) : (s.reach n).actv adr = s.actv adr := by unfold State.reach; split <;> rfl

/-! ### send -/
@[simp] theorem State.send_pending (o : Out) : (s.send o).pending = s.pending := (rfl)
@[simp] theorem State.send_regs (o : Out) : (s.send o).regs = s.regs := (rfl)
@[simp] theorem State.send_act (o : Out) : (s.send o).act = s.act := (rfl)
@[simp] theorem State.send_snap (o : Out) : (s.send o).snap = s.snap := (rfl)
@[simp] theorem State.send_staged (o : Out) : (s.send o).staged = s.staged := (rfl)
@[simp] theorem State.send_readData (o : Out) : (s.send o).readData = s.readData := (rfl)
@[simp] theorem State.send_time (o : Out) : (s.send o).time = s.time := (rfl)
@[simp] theorem State.send_frac (o : Out) : (s.send o).frac = s.frac := (rfl)
@[simp] theorem State.send_freeCtr (o : Out) : (s.send o).freeCtr = s.freeCtr := (rfl)
@[simp] theorem State.send_store (o : Out) : (s.send o).store = s.store := (rfl)
@[simp] theorem State.send_hostMem (o : Out) : (s.send o).hostMem = s.hostMem := (rfl)
@[simp] theorem State.send_flash (o : Out) : (s.send o).flash = s.flash := (rfl)
@[simp] theorem State.send_evt (o : Out) : (s.send o).evt = s.evt := (rfl)
@[simp] theorem State.send_hif (o : Out) : (s.send o).hif = s.hif := (rfl)
@[simp] theorem State.send_ctxs (o : Out) : (s.send o).ctxs = s.ctxs := (rfl)
@[simp] theorem State.send_billets (o : Out) : (s.send o).billets = s.billets := (rfl)
@[simp] theorem State.send_ports (o : Out) : (s.send o).ports = s.ports := (rfl)
@[simp] theorem State.send_aside (o : Out) : (s.send o).aside = s.aside := (rfl)
@[simp] theorem State.send_served (o : Out) : (s.send o).served = s.served := (rfl)
@[simp] theorem State.send_badLines (o : Out) : (s.send o).badLines = s.badLines := (rfl)
@[simp] theorem State.send_clk (o : Out) : (s.send o).clk = s.clk := (rfl)
@[simp] theorem State.send_plan (o : Out) : (s.send o).plan = s.plan := (rfl)
@[simp] theorem State.send_tbs (o : Out) : (s.send o).tbs = s.tbs := (rfl)
@[simp] theorem State.send_tdc (o : Out) : (s.send o).tdc = s.tdc := (rfl)
@[simp] theorem State.send_cnv (o : Out) : (s.send o).cnv = s.cnv := (rfl)
@[simp] theorem State.send_pg (o : Out) : (s.send o).pg = s.pg := (rfl)
@[simp] theorem State.send_cal (o : Out) : (s.send o).cal = s.cal := (rfl)
@[simp] theorem State.send_ddc (o : Out) : (s.send o).ddc = s.ddc := (rfl)
@[simp] theorem State.send_xfm (o : Out) : (s.send o).xfm = s.xfm := (rfl)
@[simp] theorem State.send_streams (o : Out) : (s.send o).streams = s.streams := (rfl)
@[simp] theorem State.send_frames (o : Out) : (s.send o).frames = s.frames := (rfl)
@[simp] theorem State.send_det (o : Out) : (s.send o).det = s.det := (rfl)
@[simp] theorem State.send_den (o : Out) : (s.send o).den = s.den := (rfl)
@[simp] theorem State.send_tq (o : Out) : (s.send o).tq = s.tq := (rfl)
@[simp] theorem State.send_lt (o : Out) : (s.send o).lt = s.lt := (rfl)
@[simp] theorem State.send_fm (o : Out) : (s.send o).fm = s.fm := (rfl)
@[simp] theorem State.send_bus (o : Out) : (s.send o).bus = s.bus := (rfl)
@[simp] theorem State.send_tmr (o : Out) : (s.send o).tmr = s.tmr := (rfl)
@[simp] theorem State.send_decs (o : Out) : (s.send o).decs = s.decs := (rfl)
@[simp] theorem State.send_au (o : Out) : (s.send o).au = s.au := (rfl)
@[simp] theorem State.send_replay (o : Out) : (s.send o).replay = s.replay := (rfl)
@[simp] theorem State.send_turf (o : Out) : (s.send o).turf = s.turf := (rfl)
@[simp] theorem State.send_clusters (o : Out) : (s.send o).clusters = s.clusters := (rfl)
@[simp] theorem State.send_net (o : Out) : (s.send o).net = s.net := (rfl)
@[simp] theorem State.send_ave (o : Out) : (s.send o).ave = s.ave := (rfl)
@[simp] theorem State.send_slots (o : Out) : (s.send o).slots = s.slots := (rfl)
@[simp] theorem State.send_dis (o : Out) : (s.send o).dis = s.dis := (rfl)
@[simp] theorem State.send_layers (o : Out) : (s.send o).layers = s.layers := (rfl)
@[simp] theorem State.send_mem (o : Out) : (s.send o).mem = s.mem := (rfl)
@[simp] theorem State.send_dma (o : Out) : (s.send o).dma = s.dma := (rfl)
@[simp] theorem State.send_rst (o : Out) : (s.send o).rst = s.rst := (rfl)
@[simp] theorem State.send_stk (o : Out) : (s.send o).stk = s.stk := (rfl)
@[simp] theorem State.send_cmp (o : Out) : (s.send o).cmp = s.cmp := (rfl)
@[simp] theorem State.send_pkg (o : Out) : (s.send o).pkg = s.pkg := (rfl)
@[simp] theorem State.rd_send (o : Out) (adr : Nat) : (s.send o).rd adr = s.rd adr := (rfl)
@[simp] theorem State.fld_send (o : Out) (adr : Nat) (fd : Fld) : (s.send o).fld adr fd = s.fld adr fd := (rfl)
@[simp] theorem State.actv_send (o : Out) (adr : Nat) : (s.send o).actv adr = s.actv adr := (rfl)

/-! ### hostWrite -/
@[simp] theorem State.hostWrite_pending (a : Nat) (bs : List Byte) : (s.hostWrite a bs).pending = s.pending := (rfl)
@[simp] theorem State.hostWrite_regs (a : Nat) (bs : List Byte) : (s.hostWrite a bs).regs = s.regs := (rfl)
@[simp] theorem State.hostWrite_act (a : Nat) (bs : List Byte) : (s.hostWrite a bs).act = s.act := (rfl)
@[simp] theorem State.hostWrite_snap (a : Nat) (bs : List Byte) : (s.hostWrite a bs).snap = s.snap := (rfl)
@[simp] theorem State.hostWrite_staged (a : Nat) (bs : List Byte) : (s.hostWrite a bs).staged = s.staged := (rfl)
@[simp] theorem State.hostWrite_readData (a : Nat) (bs : List Byte) : (s.hostWrite a bs).readData = s.readData := (rfl)
@[simp] theorem State.hostWrite_outs (a : Nat) (bs : List Byte) : (s.hostWrite a bs).outs = s.outs := (rfl)
@[simp] theorem State.hostWrite_time (a : Nat) (bs : List Byte) : (s.hostWrite a bs).time = s.time := (rfl)
@[simp] theorem State.hostWrite_frac (a : Nat) (bs : List Byte) : (s.hostWrite a bs).frac = s.frac := (rfl)
@[simp] theorem State.hostWrite_freeCtr (a : Nat) (bs : List Byte) : (s.hostWrite a bs).freeCtr = s.freeCtr := (rfl)
@[simp] theorem State.hostWrite_store (a : Nat) (bs : List Byte) : (s.hostWrite a bs).store = s.store := (rfl)
@[simp] theorem State.hostWrite_flash (a : Nat) (bs : List Byte) : (s.hostWrite a bs).flash = s.flash := (rfl)
@[simp] theorem State.hostWrite_evt (a : Nat) (bs : List Byte) : (s.hostWrite a bs).evt = s.evt := (rfl)
@[simp] theorem State.hostWrite_hif (a : Nat) (bs : List Byte) : (s.hostWrite a bs).hif = s.hif := (rfl)
@[simp] theorem State.hostWrite_ctxs (a : Nat) (bs : List Byte) : (s.hostWrite a bs).ctxs = s.ctxs := (rfl)
@[simp] theorem State.hostWrite_billets (a : Nat) (bs : List Byte) : (s.hostWrite a bs).billets = s.billets := (rfl)
@[simp] theorem State.hostWrite_ports (a : Nat) (bs : List Byte) : (s.hostWrite a bs).ports = s.ports := (rfl)
@[simp] theorem State.hostWrite_aside (a : Nat) (bs : List Byte) : (s.hostWrite a bs).aside = s.aside := (rfl)
@[simp] theorem State.hostWrite_served (a : Nat) (bs : List Byte) : (s.hostWrite a bs).served = s.served := (rfl)
@[simp] theorem State.hostWrite_badLines (a : Nat) (bs : List Byte) : (s.hostWrite a bs).badLines = s.badLines := (rfl)
@[simp] theorem State.hostWrite_clk (a : Nat) (bs : List Byte) : (s.hostWrite a bs).clk = s.clk := (rfl)
@[simp] theorem State.hostWrite_plan (a : Nat) (bs : List Byte) : (s.hostWrite a bs).plan = s.plan := (rfl)
@[simp] theorem State.hostWrite_tbs (a : Nat) (bs : List Byte) : (s.hostWrite a bs).tbs = s.tbs := (rfl)
@[simp] theorem State.hostWrite_tdc (a : Nat) (bs : List Byte) : (s.hostWrite a bs).tdc = s.tdc := (rfl)
@[simp] theorem State.hostWrite_cnv (a : Nat) (bs : List Byte) : (s.hostWrite a bs).cnv = s.cnv := (rfl)
@[simp] theorem State.hostWrite_pg (a : Nat) (bs : List Byte) : (s.hostWrite a bs).pg = s.pg := (rfl)
@[simp] theorem State.hostWrite_cal (a : Nat) (bs : List Byte) : (s.hostWrite a bs).cal = s.cal := (rfl)
@[simp] theorem State.hostWrite_ddc (a : Nat) (bs : List Byte) : (s.hostWrite a bs).ddc = s.ddc := (rfl)
@[simp] theorem State.hostWrite_xfm (a : Nat) (bs : List Byte) : (s.hostWrite a bs).xfm = s.xfm := (rfl)
@[simp] theorem State.hostWrite_streams (a : Nat) (bs : List Byte) : (s.hostWrite a bs).streams = s.streams := (rfl)
@[simp] theorem State.hostWrite_frames (a : Nat) (bs : List Byte) : (s.hostWrite a bs).frames = s.frames := (rfl)
@[simp] theorem State.hostWrite_det (a : Nat) (bs : List Byte) : (s.hostWrite a bs).det = s.det := (rfl)
@[simp] theorem State.hostWrite_den (a : Nat) (bs : List Byte) : (s.hostWrite a bs).den = s.den := (rfl)
@[simp] theorem State.hostWrite_tq (a : Nat) (bs : List Byte) : (s.hostWrite a bs).tq = s.tq := (rfl)
@[simp] theorem State.hostWrite_lt (a : Nat) (bs : List Byte) : (s.hostWrite a bs).lt = s.lt := (rfl)
@[simp] theorem State.hostWrite_fm (a : Nat) (bs : List Byte) : (s.hostWrite a bs).fm = s.fm := (rfl)
@[simp] theorem State.hostWrite_bus (a : Nat) (bs : List Byte) : (s.hostWrite a bs).bus = s.bus := (rfl)
@[simp] theorem State.hostWrite_tmr (a : Nat) (bs : List Byte) : (s.hostWrite a bs).tmr = s.tmr := (rfl)
@[simp] theorem State.hostWrite_decs (a : Nat) (bs : List Byte) : (s.hostWrite a bs).decs = s.decs := (rfl)
@[simp] theorem State.hostWrite_au (a : Nat) (bs : List Byte) : (s.hostWrite a bs).au = s.au := (rfl)
@[simp] theorem State.hostWrite_replay (a : Nat) (bs : List Byte) : (s.hostWrite a bs).replay = s.replay := (rfl)
@[simp] theorem State.hostWrite_turf (a : Nat) (bs : List Byte) : (s.hostWrite a bs).turf = s.turf := (rfl)
@[simp] theorem State.hostWrite_clusters (a : Nat) (bs : List Byte) : (s.hostWrite a bs).clusters = s.clusters := (rfl)
@[simp] theorem State.hostWrite_net (a : Nat) (bs : List Byte) : (s.hostWrite a bs).net = s.net := (rfl)
@[simp] theorem State.hostWrite_ave (a : Nat) (bs : List Byte) : (s.hostWrite a bs).ave = s.ave := (rfl)
@[simp] theorem State.hostWrite_slots (a : Nat) (bs : List Byte) : (s.hostWrite a bs).slots = s.slots := (rfl)
@[simp] theorem State.hostWrite_dis (a : Nat) (bs : List Byte) : (s.hostWrite a bs).dis = s.dis := (rfl)
@[simp] theorem State.hostWrite_layers (a : Nat) (bs : List Byte) : (s.hostWrite a bs).layers = s.layers := (rfl)
@[simp] theorem State.hostWrite_mem (a : Nat) (bs : List Byte) : (s.hostWrite a bs).mem = s.mem := (rfl)
@[simp] theorem State.hostWrite_dma (a : Nat) (bs : List Byte) : (s.hostWrite a bs).dma = s.dma := (rfl)
@[simp] theorem State.hostWrite_rst (a : Nat) (bs : List Byte) : (s.hostWrite a bs).rst = s.rst := (rfl)
@[simp] theorem State.hostWrite_stk (a : Nat) (bs : List Byte) : (s.hostWrite a bs).stk = s.stk := (rfl)
@[simp] theorem State.hostWrite_cmp (a : Nat) (bs : List Byte) : (s.hostWrite a bs).cmp = s.cmp := (rfl)
@[simp] theorem State.hostWrite_pkg (a : Nat) (bs : List Byte) : (s.hostWrite a bs).pkg = s.pkg := (rfl)
@[simp] theorem State.rd_hostWrite (a : Nat) (bs : List Byte) (adr : Nat) : (s.hostWrite a bs).rd adr = s.rd adr := (rfl)
@[simp] theorem State.fld_hostWrite (a : Nat) (bs : List Byte) (adr : Nat) (fd : Fld) : (s.hostWrite a bs).fld adr fd = s.fld adr fd := (rfl)
@[simp] theorem State.actv_hostWrite (a : Nat) (bs : List Byte) (adr : Nat) : (s.hostWrite a bs).actv adr = s.actv adr := (rfl)

/-! ### putStore -/
@[simp] theorem State.putStore_pending (a : Nat) (bs : List Byte) : (s.putStore a bs).pending = s.pending := (rfl)
@[simp] theorem State.putStore_regs (a : Nat) (bs : List Byte) : (s.putStore a bs).regs = s.regs := (rfl)
@[simp] theorem State.putStore_act (a : Nat) (bs : List Byte) : (s.putStore a bs).act = s.act := (rfl)
@[simp] theorem State.putStore_snap (a : Nat) (bs : List Byte) : (s.putStore a bs).snap = s.snap := (rfl)
@[simp] theorem State.putStore_staged (a : Nat) (bs : List Byte) : (s.putStore a bs).staged = s.staged := (rfl)
@[simp] theorem State.putStore_readData (a : Nat) (bs : List Byte) : (s.putStore a bs).readData = s.readData := (rfl)
@[simp] theorem State.putStore_outs (a : Nat) (bs : List Byte) : (s.putStore a bs).outs = s.outs := (rfl)
@[simp] theorem State.putStore_time (a : Nat) (bs : List Byte) : (s.putStore a bs).time = s.time := (rfl)
@[simp] theorem State.putStore_frac (a : Nat) (bs : List Byte) : (s.putStore a bs).frac = s.frac := (rfl)
@[simp] theorem State.putStore_freeCtr (a : Nat) (bs : List Byte) : (s.putStore a bs).freeCtr = s.freeCtr := (rfl)
@[simp] theorem State.putStore_hostMem (a : Nat) (bs : List Byte) : (s.putStore a bs).hostMem = s.hostMem := (rfl)
@[simp] theorem State.putStore_flash (a : Nat) (bs : List Byte) : (s.putStore a bs).flash = s.flash := (rfl)
@[simp] theorem State.putStore_evt (a : Nat) (bs : List Byte) : (s.putStore a bs).evt = s.evt := (rfl)
@[simp] theorem State.putStore_hif (a : Nat) (bs : List Byte) : (s.putStore a bs).hif = s.hif := (rfl)
@[simp] theorem State.putStore_ctxs (a : Nat) (bs : List Byte) : (s.putStore a bs).ctxs = s.ctxs := (rfl)
@[simp] theorem State.putStore_billets (a : Nat) (bs : List Byte) : (s.putStore a bs).billets = s.billets := (rfl)
@[simp] theorem State.putStore_ports (a : Nat) (bs : List Byte) : (s.putStore a bs).ports = s.ports := (rfl)
@[simp] theorem State.putStore_aside (a : Nat) (bs : List Byte) : (s.putStore a bs).aside = s.aside := (rfl)
@[simp] theorem State.putStore_served (a : Nat) (bs : List Byte) : (s.putStore a bs).served = s.served := (rfl)
@[simp] theorem State.putStore_badLines (a : Nat) (bs : List Byte) : (s.putStore a bs).badLines = s.badLines := (rfl)
@[simp] theorem State.putStore_clk (a : Nat) (bs : List Byte) : (s.putStore a bs).clk = s.clk := (rfl)
@[simp] theorem State.putStore_plan (a : Nat) (bs : List Byte) : (s.putStore a bs).plan = s.plan := (rfl)
@[simp] theorem State.putStore_tbs (a : Nat) (bs : List Byte) : (s.putStore a bs).tbs = s.tbs := (rfl)
@[simp] theorem State.putStore_tdc (a : Nat) (bs : List Byte) : (s.putStore a bs).tdc = s.tdc := (rfl)
@[simp] theorem State.putStore_cnv (a : Nat) (bs : List Byte) : (s.putStore a bs).cnv = s.cnv := (rfl)
@[simp] theorem State.putStore_pg (a : Nat) (bs : List Byte) : (s.putStore a bs).pg = s.pg := (rfl)
@[simp] theorem State.putStore_cal (a : Nat) (bs : List Byte) : (s.putStore a bs).cal = s.cal := (rfl)
@[simp] theorem State.putStore_ddc (a : Nat) (bs : List Byte) : (s.putStore a bs).ddc = s.ddc := (rfl)
@[simp] theorem State.putStore_xfm (a : Nat) (bs : List Byte) : (s.putStore a bs).xfm = s.xfm := (rfl)
@[simp] theorem State.putStore_streams (a : Nat) (bs : List Byte) : (s.putStore a bs).streams = s.streams := (rfl)
@[simp] theorem State.putStore_frames (a : Nat) (bs : List Byte) : (s.putStore a bs).frames = s.frames := (rfl)
@[simp] theorem State.putStore_det (a : Nat) (bs : List Byte) : (s.putStore a bs).det = s.det := (rfl)
@[simp] theorem State.putStore_den (a : Nat) (bs : List Byte) : (s.putStore a bs).den = s.den := (rfl)
@[simp] theorem State.putStore_tq (a : Nat) (bs : List Byte) : (s.putStore a bs).tq = s.tq := (rfl)
@[simp] theorem State.putStore_lt (a : Nat) (bs : List Byte) : (s.putStore a bs).lt = s.lt := (rfl)
@[simp] theorem State.putStore_fm (a : Nat) (bs : List Byte) : (s.putStore a bs).fm = s.fm := (rfl)
@[simp] theorem State.putStore_bus (a : Nat) (bs : List Byte) : (s.putStore a bs).bus = s.bus := (rfl)
@[simp] theorem State.putStore_tmr (a : Nat) (bs : List Byte) : (s.putStore a bs).tmr = s.tmr := (rfl)
@[simp] theorem State.putStore_decs (a : Nat) (bs : List Byte) : (s.putStore a bs).decs = s.decs := (rfl)
@[simp] theorem State.putStore_au (a : Nat) (bs : List Byte) : (s.putStore a bs).au = s.au := (rfl)
@[simp] theorem State.putStore_replay (a : Nat) (bs : List Byte) : (s.putStore a bs).replay = s.replay := (rfl)
@[simp] theorem State.putStore_turf (a : Nat) (bs : List Byte) : (s.putStore a bs).turf = s.turf := (rfl)
@[simp] theorem State.putStore_clusters (a : Nat) (bs : List Byte) : (s.putStore a bs).clusters = s.clusters := (rfl)
@[simp] theorem State.putStore_net (a : Nat) (bs : List Byte) : (s.putStore a bs).net = s.net := (rfl)
@[simp] theorem State.putStore_ave (a : Nat) (bs : List Byte) : (s.putStore a bs).ave = s.ave := (rfl)
@[simp] theorem State.putStore_slots (a : Nat) (bs : List Byte) : (s.putStore a bs).slots = s.slots := (rfl)
@[simp] theorem State.putStore_dis (a : Nat) (bs : List Byte) : (s.putStore a bs).dis = s.dis := (rfl)
@[simp] theorem State.putStore_layers (a : Nat) (bs : List Byte) : (s.putStore a bs).layers = s.layers := (rfl)
@[simp] theorem State.putStore_mem (a : Nat) (bs : List Byte) : (s.putStore a bs).mem = s.mem := (rfl)
@[simp] theorem State.putStore_dma (a : Nat) (bs : List Byte) : (s.putStore a bs).dma = s.dma := (rfl)
@[simp] theorem State.putStore_rst (a : Nat) (bs : List Byte) : (s.putStore a bs).rst = s.rst := (rfl)
@[simp] theorem State.putStore_stk (a : Nat) (bs : List Byte) : (s.putStore a bs).stk = s.stk := (rfl)
@[simp] theorem State.putStore_cmp (a : Nat) (bs : List Byte) : (s.putStore a bs).cmp = s.cmp := (rfl)
@[simp] theorem State.putStore_pkg (a : Nat) (bs : List Byte) : (s.putStore a bs).pkg = s.pkg := (rfl)
@[simp] theorem State.rd_putStore (a : Nat) (bs : List Byte) (adr : Nat) : (s.putStore a bs).rd adr = s.rd adr := (rfl)
@[simp] theorem State.fld_putStore (a : Nat) (bs : List Byte) (adr : Nat) (fd : Fld) : (s.putStore a bs).fld adr fd = s.fld adr fd := (rfl)
@[simp] theorem State.actv_putStore (a : Nat) (bs : List Byte) (adr : Nat) : (s.putStore a bs).actv adr = s.actv adr := (rfl)

/-! ### storeClear -/
@[simp] theorem State.storeClear_pending  : (s.storeClear).pending = s.pending := (rfl)
@[simp] theorem State.storeClear_regs  : (s.storeClear).regs = s.regs := (rfl)
@[simp] theorem State.storeClear_act  : (s.storeClear).act = s.act := (rfl)
@[simp] theorem State.storeClear_snap  : (s.storeClear).snap = s.snap := (rfl)
@[simp] theorem State.storeClear_staged  : (s.storeClear).staged = s.staged := (rfl)
@[simp] theorem State.storeClear_readData  : (s.storeClear).readData = s.readData := (rfl)
@[simp] theorem State.storeClear_outs  : (s.storeClear).outs = s.outs := (rfl)
@[simp] theorem State.storeClear_time  : (s.storeClear).time = s.time := (rfl)
@[simp] theorem State.storeClear_frac  : (s.storeClear).frac = s.frac := (rfl)
@[simp] theorem State.storeClear_freeCtr  : (s.storeClear).freeCtr = s.freeCtr := (rfl)
@[simp] theorem State.storeClear_hostMem  : (s.storeClear).hostMem = s.hostMem := (rfl)
@[simp] theorem State.storeClear_flash  : (s.storeClear).flash = s.flash := (rfl)
@[simp] theorem State.storeClear_evt  : (s.storeClear).evt = s.evt := (rfl)
@[simp] theorem State.storeClear_hif  : (s.storeClear).hif = s.hif := (rfl)
@[simp] theorem State.storeClear_ctxs  : (s.storeClear).ctxs = s.ctxs := (rfl)
@[simp] theorem State.storeClear_billets  : (s.storeClear).billets = s.billets := (rfl)
@[simp] theorem State.storeClear_ports  : (s.storeClear).ports = s.ports := (rfl)
@[simp] theorem State.storeClear_aside  : (s.storeClear).aside = s.aside := (rfl)
@[simp] theorem State.storeClear_served  : (s.storeClear).served = s.served := (rfl)
@[simp] theorem State.storeClear_badLines  : (s.storeClear).badLines = s.badLines := (rfl)
@[simp] theorem State.storeClear_clk  : (s.storeClear).clk = s.clk := (rfl)
@[simp] theorem State.storeClear_plan  : (s.storeClear).plan = s.plan := (rfl)
@[simp] theorem State.storeClear_tbs  : (s.storeClear).tbs = s.tbs := (rfl)
@[simp] theorem State.storeClear_tdc  : (s.storeClear).tdc = s.tdc := (rfl)
@[simp] theorem State.storeClear_cnv  : (s.storeClear).cnv = s.cnv := (rfl)
@[simp] theorem State.storeClear_pg  : (s.storeClear).pg = s.pg := (rfl)
@[simp] theorem State.storeClear_cal  : (s.storeClear).cal = s.cal := (rfl)
@[simp] theorem State.storeClear_ddc  : (s.storeClear).ddc = s.ddc := (rfl)
@[simp] theorem State.storeClear_xfm  : (s.storeClear).xfm = s.xfm := (rfl)
@[simp] theorem State.storeClear_streams  : (s.storeClear).streams = s.streams := (rfl)
@[simp] theorem State.storeClear_frames  : (s.storeClear).frames = s.frames := (rfl)
@[simp] theorem State.storeClear_det  : (s.storeClear).det = s.det := (rfl)
@[simp] theorem State.storeClear_den  : (s.storeClear).den = s.den := (rfl)
@[simp] theorem State.storeClear_tq  : (s.storeClear).tq = s.tq := (rfl)
@[simp] theorem State.storeClear_lt  : (s.storeClear).lt = s.lt := (rfl)
@[simp] theorem State.storeClear_fm  : (s.storeClear).fm = s.fm := (rfl)
@[simp] theorem State.storeClear_bus  : (s.storeClear).bus = s.bus := (rfl)
@[simp] theorem State.storeClear_tmr  : (s.storeClear).tmr = s.tmr := (rfl)
@[simp] theorem State.storeClear_decs  : (s.storeClear).decs = s.decs := (rfl)
@[simp] theorem State.storeClear_au  : (s.storeClear).au = s.au := (rfl)
@[simp] theorem State.storeClear_replay  : (s.storeClear).replay = s.replay := (rfl)
@[simp] theorem State.storeClear_turf  : (s.storeClear).turf = s.turf := (rfl)
@[simp] theorem State.storeClear_clusters  : (s.storeClear).clusters = s.clusters := (rfl)
@[simp] theorem State.storeClear_net  : (s.storeClear).net = s.net := (rfl)
@[simp] theorem State.storeClear_ave  : (s.storeClear).ave = s.ave := (rfl)
@[simp] theorem State.storeClear_slots  : (s.storeClear).slots = s.slots := (rfl)
@[simp] theorem State.storeClear_dis  : (s.storeClear).dis = s.dis := (rfl)
@[simp] theorem State.storeClear_layers  : (s.storeClear).layers = s.layers := (rfl)
@[simp] theorem State.storeClear_mem  : (s.storeClear).mem = s.mem := (rfl)
@[simp] theorem State.storeClear_dma  : (s.storeClear).dma = s.dma := (rfl)
@[simp] theorem State.storeClear_rst  : (s.storeClear).rst = s.rst := (rfl)
@[simp] theorem State.storeClear_stk  : (s.storeClear).stk = s.stk := (rfl)
@[simp] theorem State.storeClear_cmp  : (s.storeClear).cmp = s.cmp := (rfl)
@[simp] theorem State.storeClear_pkg  : (s.storeClear).pkg = s.pkg := (rfl)
@[simp] theorem State.rd_storeClear  (adr : Nat) : (s.storeClear).rd adr = s.rd adr := (rfl)
@[simp] theorem State.fld_storeClear  (adr : Nat) (fd : Fld) : (s.storeClear).fld adr fd = s.fld adr fd := (rfl)
@[simp] theorem State.actv_storeClear  (adr : Nat) : (s.storeClear).actv adr = s.actv adr := (rfl)

/-! ### flashWrite -/
@[simp] theorem State.flashWrite_pending (a : Nat) (bs : List Byte) : (s.flashWrite a bs).pending = s.pending := (rfl)
@[simp] theorem State.flashWrite_regs (a : Nat) (bs : List Byte) : (s.flashWrite a bs).regs = s.regs := (rfl)
@[simp] theorem State.flashWrite_act (a : Nat) (bs : List Byte) : (s.flashWrite a bs).act = s.act := (rfl)
@[simp] theorem State.flashWrite_snap (a : Nat) (bs : List Byte) : (s.flashWrite a bs).snap = s.snap := (rfl)
@[simp] theorem State.flashWrite_staged (a : Nat) (bs : List Byte) : (s.flashWrite a bs).staged = s.staged := (rfl)
@[simp] theorem State.flashWrite_readData (a : Nat) (bs : List Byte) : (s.flashWrite a bs).readData = s.readData := (rfl)
@[simp] theorem State.flashWrite_outs (a : Nat) (bs : List Byte) : (s.flashWrite a bs).outs = s.outs := (rfl)
@[simp] theorem State.flashWrite_time (a : Nat) (bs : List Byte) : (s.flashWrite a bs).time = s.time := (rfl)
@[simp] theorem State.flashWrite_frac (a : Nat) (bs : List Byte) : (s.flashWrite a bs).frac = s.frac := (rfl)
@[simp] theorem State.flashWrite_freeCtr (a : Nat) (bs : List Byte) : (s.flashWrite a bs).freeCtr = s.freeCtr := (rfl)
@[simp] theorem State.flashWrite_store (a : Nat) (bs : List Byte) : (s.flashWrite a bs).store = s.store := (rfl)
@[simp] theorem State.flashWrite_hostMem (a : Nat) (bs : List Byte) : (s.flashWrite a bs).hostMem = s.hostMem := (rfl)
@[simp] theorem State.flashWrite_evt (a : Nat) (bs : List Byte) : (s.flashWrite a bs).evt = s.evt := (rfl)
@[simp] theorem State.flashWrite_hif (a : Nat) (bs : List Byte) : (s.flashWrite a bs).hif = s.hif := (rfl)
@[simp] theorem State.flashWrite_ctxs (a : Nat) (bs : List Byte) : (s.flashWrite a bs).ctxs = s.ctxs := (rfl)
@[simp] theorem State.flashWrite_billets (a : Nat) (bs : List Byte) : (s.flashWrite a bs).billets = s.billets := (rfl)
@[simp] theorem State.flashWrite_ports (a : Nat) (bs : List Byte) : (s.flashWrite a bs).ports = s.ports := (rfl)
@[simp] theorem State.flashWrite_aside (a : Nat) (bs : List Byte) : (s.flashWrite a bs).aside = s.aside := (rfl)
@[simp] theorem State.flashWrite_served (a : Nat) (bs : List Byte) : (s.flashWrite a bs).served = s.served := (rfl)
@[simp] theorem State.flashWrite_badLines (a : Nat) (bs : List Byte) : (s.flashWrite a bs).badLines = s.badLines := (rfl)
@[simp] theorem State.flashWrite_clk (a : Nat) (bs : List Byte) : (s.flashWrite a bs).clk = s.clk := (rfl)
@[simp] theorem State.flashWrite_plan (a : Nat) (bs : List Byte) : (s.flashWrite a bs).plan = s.plan := (rfl)
@[simp] theorem State.flashWrite_tbs (a : Nat) (bs : List Byte) : (s.flashWrite a bs).tbs = s.tbs := (rfl)
@[simp] theorem State.flashWrite_tdc (a : Nat) (bs : List Byte) : (s.flashWrite a bs).tdc = s.tdc := (rfl)
@[simp] theorem State.flashWrite_cnv (a : Nat) (bs : List Byte) : (s.flashWrite a bs).cnv = s.cnv := (rfl)
@[simp] theorem State.flashWrite_pg (a : Nat) (bs : List Byte) : (s.flashWrite a bs).pg = s.pg := (rfl)
@[simp] theorem State.flashWrite_cal (a : Nat) (bs : List Byte) : (s.flashWrite a bs).cal = s.cal := (rfl)
@[simp] theorem State.flashWrite_ddc (a : Nat) (bs : List Byte) : (s.flashWrite a bs).ddc = s.ddc := (rfl)
@[simp] theorem State.flashWrite_xfm (a : Nat) (bs : List Byte) : (s.flashWrite a bs).xfm = s.xfm := (rfl)
@[simp] theorem State.flashWrite_streams (a : Nat) (bs : List Byte) : (s.flashWrite a bs).streams = s.streams := (rfl)
@[simp] theorem State.flashWrite_frames (a : Nat) (bs : List Byte) : (s.flashWrite a bs).frames = s.frames := (rfl)
@[simp] theorem State.flashWrite_det (a : Nat) (bs : List Byte) : (s.flashWrite a bs).det = s.det := (rfl)
@[simp] theorem State.flashWrite_den (a : Nat) (bs : List Byte) : (s.flashWrite a bs).den = s.den := (rfl)
@[simp] theorem State.flashWrite_tq (a : Nat) (bs : List Byte) : (s.flashWrite a bs).tq = s.tq := (rfl)
@[simp] theorem State.flashWrite_lt (a : Nat) (bs : List Byte) : (s.flashWrite a bs).lt = s.lt := (rfl)
@[simp] theorem State.flashWrite_fm (a : Nat) (bs : List Byte) : (s.flashWrite a bs).fm = s.fm := (rfl)
@[simp] theorem State.flashWrite_bus (a : Nat) (bs : List Byte) : (s.flashWrite a bs).bus = s.bus := (rfl)
@[simp] theorem State.flashWrite_tmr (a : Nat) (bs : List Byte) : (s.flashWrite a bs).tmr = s.tmr := (rfl)
@[simp] theorem State.flashWrite_decs (a : Nat) (bs : List Byte) : (s.flashWrite a bs).decs = s.decs := (rfl)
@[simp] theorem State.flashWrite_au (a : Nat) (bs : List Byte) : (s.flashWrite a bs).au = s.au := (rfl)
@[simp] theorem State.flashWrite_replay (a : Nat) (bs : List Byte) : (s.flashWrite a bs).replay = s.replay := (rfl)
@[simp] theorem State.flashWrite_turf (a : Nat) (bs : List Byte) : (s.flashWrite a bs).turf = s.turf := (rfl)
@[simp] theorem State.flashWrite_clusters (a : Nat) (bs : List Byte) : (s.flashWrite a bs).clusters = s.clusters := (rfl)
@[simp] theorem State.flashWrite_net (a : Nat) (bs : List Byte) : (s.flashWrite a bs).net = s.net := (rfl)
@[simp] theorem State.flashWrite_ave (a : Nat) (bs : List Byte) : (s.flashWrite a bs).ave = s.ave := (rfl)
@[simp] theorem State.flashWrite_slots (a : Nat) (bs : List Byte) : (s.flashWrite a bs).slots = s.slots := (rfl)
@[simp] theorem State.flashWrite_dis (a : Nat) (bs : List Byte) : (s.flashWrite a bs).dis = s.dis := (rfl)
@[simp] theorem State.flashWrite_layers (a : Nat) (bs : List Byte) : (s.flashWrite a bs).layers = s.layers := (rfl)
@[simp] theorem State.flashWrite_mem (a : Nat) (bs : List Byte) : (s.flashWrite a bs).mem = s.mem := (rfl)
@[simp] theorem State.flashWrite_dma (a : Nat) (bs : List Byte) : (s.flashWrite a bs).dma = s.dma := (rfl)
@[simp] theorem State.flashWrite_rst (a : Nat) (bs : List Byte) : (s.flashWrite a bs).rst = s.rst := (rfl)
@[simp] theorem State.flashWrite_stk (a : Nat) (bs : List Byte) : (s.flashWrite a bs).stk = s.stk := (rfl)
@[simp] theorem State.flashWrite_cmp (a : Nat) (bs : List Byte) : (s.flashWrite a bs).cmp = s.cmp := (rfl)
@[simp] theorem State.flashWrite_pkg (a : Nat) (bs : List Byte) : (s.flashWrite a bs).pkg = s.pkg := (rfl)
@[simp] theorem State.rd_flashWrite (a : Nat) (bs : List Byte) (adr : Nat) : (s.flashWrite a bs).rd adr = s.rd adr := (rfl)
@[simp] theorem State.fld_flashWrite (a : Nat) (bs : List Byte) (adr : Nat) (fd : Fld) : (s.flashWrite a bs).fld adr fd = s.fld adr fd := (rfl)
@[simp] theorem State.actv_flashWrite (a : Nat) (bs : List Byte) (adr : Nat) : (s.flashWrite a bs).actv adr = s.actv adr := (rfl)

/-! ### flashErase -/
@[simp] theorem State.flashErase_pending (a n : Nat) : (s.flashErase a n).pending = s.pending := (rfl)
@[simp] theorem State.flashErase_regs (a n : Nat) : (s.flashErase a n).regs = s.regs := (rfl)
@[simp] theorem State.flashErase_act (a n : Nat) : (s.flashErase a n).act = s.act := (rfl)
@[simp] theorem State.flashErase_snap (a n : Nat) : (s.flashErase a n).snap = s.snap := (rfl)
@[simp] theorem State.flashErase_staged (a n : Nat) : (s.flashErase a n).staged = s.staged := (rfl)
@[simp] theorem State.flashErase_readData (a n : Nat) : (s.flashErase a n).readData = s.readData := (rfl)
@[simp] theorem State.flashErase_outs (a n : Nat) : (s.flashErase a n).outs = s.outs := (rfl)
@[simp] theorem State.flashErase_time (a n : Nat) : (s.flashErase a n).time = s.time := (rfl)
@[simp] theorem State.flashErase_frac (a n : Nat) : (s.flashErase a n).frac = s.frac := (rfl)
@[simp] theorem State.flashErase_freeCtr (a n : Nat) : (s.flashErase a n).freeCtr = s.freeCtr := (rfl)
@[simp] theorem State.flashErase_store (a n : Nat) : (s.flashErase a n).store = s.store := (rfl)
@[simp] theorem State.flashErase_hostMem (a n : Nat) : (s.flashErase a n).hostMem = s.hostMem := (rfl)
@[simp] theorem State.flashErase_evt (a n : Nat) : (s.flashErase a n).evt = s.evt := (rfl)
@[simp] theorem State.flashErase_hif (a n : Nat) : (s.flashErase a n).hif = s.hif := (rfl)
@[simp] theorem State.flashErase_ctxs (a n : Nat) : (s.flashErase a n).ctxs = s.ctxs := (rfl)
@[simp] theorem State.flashErase_billets (a n : Nat) : (s.flashErase a n).billets = s.billets := (rfl)
@[simp] theorem State.flashErase_ports (a n : Nat) : (s.flashErase a n).ports = s.ports := (rfl)
@[simp] theorem State.flashErase_aside (a n : Nat) : (s.flashErase a n).aside = s.aside := (rfl)
@[simp] theorem State.flashErase_served (a n : Nat) : (s.flashErase a n).served = s.served := (rfl)
@[simp] theorem State.flashErase_badLines (a n : Nat) : (s.flashErase a n).badLines = s.badLines := (rfl)
@[simp] theorem State.flashErase_clk (a n : Nat) : (s.flashErase a n).clk = s.clk := (rfl)
@[simp] theorem State.flashErase_plan (a n : Nat) : (s.flashErase a n).plan = s.plan := (rfl)
@[simp] theorem State.flashErase_tbs (a n : Nat) : (s.flashErase a n).tbs = s.tbs := (rfl)
@[simp] theorem State.flashErase_tdc (a n : Nat) : (s.flashErase a n).tdc = s.tdc := (rfl)
@[simp] theorem State.flashErase_cnv (a n : Nat) : (s.flashErase a n).cnv = s.cnv := (rfl)
@[simp] theorem State.flashErase_pg (a n : Nat) : (s.flashErase a n).pg = s.pg := (rfl)
@[simp] theorem State.flashErase_cal (a n : Nat) : (s.flashErase a n).cal = s.cal := (rfl)
@[simp] theorem State.flashErase_ddc (a n : Nat) : (s.flashErase a n).ddc = s.ddc := (rfl)
@[simp] theorem State.flashErase_xfm (a n : Nat) : (s.flashErase a n).xfm = s.xfm := (rfl)
@[simp] theorem State.flashErase_streams (a n : Nat) : (s.flashErase a n).streams = s.streams := (rfl)
@[simp] theorem State.flashErase_frames (a n : Nat) : (s.flashErase a n).frames = s.frames := (rfl)
@[simp] theorem State.flashErase_det (a n : Nat) : (s.flashErase a n).det = s.det := (rfl)
@[simp] theorem State.flashErase_den (a n : Nat) : (s.flashErase a n).den = s.den := (rfl)
@[simp] theorem State.flashErase_tq (a n : Nat) : (s.flashErase a n).tq = s.tq := (rfl)
@[simp] theorem State.flashErase_lt (a n : Nat) : (s.flashErase a n).lt = s.lt := (rfl)
@[simp] theorem State.flashErase_fm (a n : Nat) : (s.flashErase a n).fm = s.fm := (rfl)
@[simp] theorem State.flashErase_bus (a n : Nat) : (s.flashErase a n).bus = s.bus := (rfl)
@[simp] theorem State.flashErase_tmr (a n : Nat) : (s.flashErase a n).tmr = s.tmr := (rfl)
@[simp] theorem State.flashErase_decs (a n : Nat) : (s.flashErase a n).decs = s.decs := (rfl)
@[simp] theorem State.flashErase_au (a n : Nat) : (s.flashErase a n).au = s.au := (rfl)
@[simp] theorem State.flashErase_replay (a n : Nat) : (s.flashErase a n).replay = s.replay := (rfl)
@[simp] theorem State.flashErase_turf (a n : Nat) : (s.flashErase a n).turf = s.turf := (rfl)
@[simp] theorem State.flashErase_clusters (a n : Nat) : (s.flashErase a n).clusters = s.clusters := (rfl)
@[simp] theorem State.flashErase_net (a n : Nat) : (s.flashErase a n).net = s.net := (rfl)
@[simp] theorem State.flashErase_ave (a n : Nat) : (s.flashErase a n).ave = s.ave := (rfl)
@[simp] theorem State.flashErase_slots (a n : Nat) : (s.flashErase a n).slots = s.slots := (rfl)
@[simp] theorem State.flashErase_dis (a n : Nat) : (s.flashErase a n).dis = s.dis := (rfl)
@[simp] theorem State.flashErase_layers (a n : Nat) : (s.flashErase a n).layers = s.layers := (rfl)
@[simp] theorem State.flashErase_mem (a n : Nat) : (s.flashErase a n).mem = s.mem := (rfl)
@[simp] theorem State.flashErase_dma (a n : Nat) : (s.flashErase a n).dma = s.dma := (rfl)
@[simp] theorem State.flashErase_rst (a n : Nat) : (s.flashErase a n).rst = s.rst := (rfl)
@[simp] theorem State.flashErase_stk (a n : Nat) : (s.flashErase a n).stk = s.stk := (rfl)
@[simp] theorem State.flashErase_cmp (a n : Nat) : (s.flashErase a n).cmp = s.cmp := (rfl)
@[simp] theorem State.flashErase_pkg (a n : Nat) : (s.flashErase a n).pkg = s.pkg := (rfl)
@[simp] theorem State.rd_flashErase (a n : Nat) (adr : Nat) : (s.flashErase a n).rd adr = s.rd adr := (rfl)
@[simp] theorem State.fld_flashErase (a n : Nat) (adr : Nat) (fd : Fld) : (s.flashErase a n).fld adr fd = s.fld adr fd := (rfl)
@[simp] theorem State.actv_flashErase (a n : Nat) (adr : Nat) : (s.flashErase a n).actv adr = s.actv adr := (rfl)

/-! ### setVec -/
@[simp] theorem State.setVec_pending (v : Nat) (x : Vec) : (s.setVec v x).pending = s.pending := (rfl)
@[simp] theorem State.setVec_regs (v : Nat) (x : Vec) : (s.setVec v x).regs = s.regs := (rfl)
@[simp] theorem State.setVec_act (v : Nat) (x : Vec) : (s.setVec v x).act = s.act := (rfl)
@[simp] theorem State.setVec_snap (v : Nat) (x : Vec) : (s.setVec v x).snap = s.snap := (rfl)
@[simp] theorem State.setVec_staged (v : Nat) (x : Vec) : (s.setVec v x).staged = s.staged := (rfl)
@[simp] theorem State.setVec_readData (v : Nat) (x : Vec) : (s.setVec v x).readData = s.readData := (rfl)
@[simp] theorem State.setVec_outs (v : Nat) (x : Vec) : (s.setVec v x).outs = s.outs := (rfl)
@[simp] theorem State.setVec_time (v : Nat) (x : Vec) : (s.setVec v x).time = s.time := (rfl)
@[simp] theorem State.setVec_frac (v : Nat) (x : Vec) : (s.setVec v x).frac = s.frac := (rfl)
@[simp] theorem State.setVec_freeCtr (v : Nat) (x : Vec) : (s.setVec v x).freeCtr = s.freeCtr := (rfl)
@[simp] theorem State.setVec_store (v : Nat) (x : Vec) : (s.setVec v x).store = s.store := (rfl)
@[simp] theorem State.setVec_hostMem (v : Nat) (x : Vec) : (s.setVec v x).hostMem = s.hostMem := (rfl)
@[simp] theorem State.setVec_flash (v : Nat) (x : Vec) : (s.setVec v x).flash = s.flash := (rfl)
@[simp] theorem State.setVec_evt (v : Nat) (x : Vec) : (s.setVec v x).evt = s.evt := (rfl)
@[simp] theorem State.setVec_ctxs (v : Nat) (x : Vec) : (s.setVec v x).ctxs = s.ctxs := (rfl)
@[simp] theorem State.setVec_billets (v : Nat) (x : Vec) : (s.setVec v x).billets = s.billets := (rfl)
@[simp] theorem State.setVec_ports (v : Nat) (x : Vec) : (s.setVec v x).ports = s.ports := (rfl)
@[simp] theorem State.setVec_aside (v : Nat) (x : Vec) : (s.setVec v x).aside = s.aside := (rfl)
@[simp] theorem State.setVec_served (v : Nat) (x : Vec) : (s.setVec v x).served = s.served := (rfl)
@[simp] theorem State.setVec_badLines (v : Nat) (x : Vec) : (s.setVec v x).badLines = s.badLines := (rfl)
@[simp] theorem State.setVec_clk (v : Nat) (x : Vec) : (s.setVec v x).clk = s.clk := (rfl)
@[simp] theorem State.setVec_plan (v : Nat) (x : Vec) : (s.setVec v x).plan = s.plan := (rfl)
@[simp] theorem State.setVec_tbs (v : Nat) (x : Vec) : (s.setVec v x).tbs = s.tbs := (rfl)
@[simp] theorem State.setVec_tdc (v : Nat) (x : Vec) : (s.setVec v x).tdc = s.tdc := (rfl)
@[simp] theorem State.setVec_cnv (v : Nat) (x : Vec) : (s.setVec v x).cnv = s.cnv := (rfl)
@[simp] theorem State.setVec_pg (v : Nat) (x : Vec) : (s.setVec v x).pg = s.pg := (rfl)
@[simp] theorem State.setVec_cal (v : Nat) (x : Vec) : (s.setVec v x).cal = s.cal := (rfl)
@[simp] theorem State.setVec_ddc (v : Nat) (x : Vec) : (s.setVec v x).ddc = s.ddc := (rfl)
@[simp] theorem State.setVec_xfm (v : Nat) (x : Vec) : (s.setVec v x).xfm = s.xfm := (rfl)
@[simp] theorem State.setVec_streams (v : Nat) (x : Vec) : (s.setVec v x).streams = s.streams := (rfl)
@[simp] theorem State.setVec_frames (v : Nat) (x : Vec) : (s.setVec v x).frames = s.frames := (rfl)
@[simp] theorem State.setVec_det (v : Nat) (x : Vec) : (s.setVec v x).det = s.det := (rfl)
@[simp] theorem State.setVec_den (v : Nat) (x : Vec) : (s.setVec v x).den = s.den := (rfl)
@[simp] theorem State.setVec_tq (v : Nat) (x : Vec) : (s.setVec v x).tq = s.tq := (rfl)
@[simp] theorem State.setVec_lt (v : Nat) (x : Vec) : (s.setVec v x).lt = s.lt := (rfl)
@[simp] theorem State.setVec_fm (v : Nat) (x : Vec) : (s.setVec v x).fm = s.fm := (rfl)
@[simp] theorem State.setVec_bus (v : Nat) (x : Vec) : (s.setVec v x).bus = s.bus := (rfl)
@[simp] theorem State.setVec_tmr (v : Nat) (x : Vec) : (s.setVec v x).tmr = s.tmr := (rfl)
@[simp] theorem State.setVec_decs (v : Nat) (x : Vec) : (s.setVec v x).decs = s.decs := (rfl)
@[simp] theorem State.setVec_au (v : Nat) (x : Vec) : (s.setVec v x).au = s.au := (rfl)
@[simp] theorem State.setVec_replay (v : Nat) (x : Vec) : (s.setVec v x).replay = s.replay := (rfl)
@[simp] theorem State.setVec_turf (v : Nat) (x : Vec) : (s.setVec v x).turf = s.turf := (rfl)
@[simp] theorem State.setVec_clusters (v : Nat) (x : Vec) : (s.setVec v x).clusters = s.clusters := (rfl)
@[simp] theorem State.setVec_net (v : Nat) (x : Vec) : (s.setVec v x).net = s.net := (rfl)
@[simp] theorem State.setVec_ave (v : Nat) (x : Vec) : (s.setVec v x).ave = s.ave := (rfl)
@[simp] theorem State.setVec_slots (v : Nat) (x : Vec) : (s.setVec v x).slots = s.slots := (rfl)
@[simp] theorem State.setVec_dis (v : Nat) (x : Vec) : (s.setVec v x).dis = s.dis := (rfl)
@[simp] theorem State.setVec_layers (v : Nat) (x : Vec) : (s.setVec v x).layers = s.layers := (rfl)
@[simp] theorem State.setVec_mem (v : Nat) (x : Vec) : (s.setVec v x).mem = s.mem := (rfl)
@[simp] theorem State.setVec_dma (v : Nat) (x : Vec) : (s.setVec v x).dma = s.dma := (rfl)
@[simp] theorem State.setVec_rst (v : Nat) (x : Vec) : (s.setVec v x).rst = s.rst := (rfl)
@[simp] theorem State.setVec_stk (v : Nat) (x : Vec) : (s.setVec v x).stk = s.stk := (rfl)
@[simp] theorem State.setVec_cmp (v : Nat) (x : Vec) : (s.setVec v x).cmp = s.cmp := (rfl)
@[simp] theorem State.setVec_pkg (v : Nat) (x : Vec) : (s.setVec v x).pkg = s.pkg := (rfl)
@[simp] theorem State.rd_setVec (v : Nat) (x : Vec) (adr : Nat) : (s.setVec v x).rd adr = s.rd adr := (rfl)
@[simp] theorem State.fld_setVec (v : Nat) (x : Vec) (adr : Nat) (fd : Fld) : (s.setVec v x).fld adr fd = s.fld adr fd := (rfl)
@[simp] theorem State.actv_setVec (v : Nat) (x : Vec) (adr : Nat) : (s.setVec v x).actv adr = s.actv adr := (rfl)

/-! ### onPg -/
@[simp] theorem State.onPg_pending (f : _ → _) : (s.onPg f).pending = s.pending := (rfl)
@[simp] theorem State.onPg_regs (f : _ → _) : (s.onPg f).regs = s.regs := (rfl)
@[simp] theorem State.onPg_act (f : _ → _) : (s.onPg f).act = s.act := (rfl)
@[simp] theorem State.onPg_snap (f : _ → _) : (s.onPg f).snap = s.snap := (rfl)
@[simp] theorem State.onPg_staged (f : _ → _) : (s.onPg f).staged = s.staged := (rfl)
@[simp] theorem State.onPg_readData (f : _ → _) : (s.onPg f).readData = s.readData := (rfl)
@[simp] theorem State.onPg_outs (f : _ → _) : (s.onPg f).outs = s.outs := (rfl)
@[simp] theorem State.onPg_time (f : _ → _) : (s.onPg f).time = s.time := (rfl)
@[simp] theorem State.onPg_frac (f : _ → _) : (s.onPg f).frac = s.frac := (rfl)
@[simp] theorem State.onPg_freeCtr (f : _ → _) : (s.onPg f).freeCtr = s.freeCtr := (rfl)
@[simp] theorem State.onPg_store (f : _ → _) : (s.onPg f).store = s.store := (rfl)
@[simp] theorem State.onPg_hostMem (f : _ → _) : (s.onPg f).hostMem = s.hostMem := (rfl)
@[simp] theorem State.onPg_flash (f : _ → _) : (s.onPg f).flash = s.flash := (rfl)
@[simp] theorem State.onPg_evt (f : _ → _) : (s.onPg f).evt = s.evt := (rfl)
@[simp] theorem State.onPg_hif (f : _ → _) : (s.onPg f).hif = s.hif := (rfl)
@[simp] theorem State.onPg_ctxs (f : _ → _) : (s.onPg f).ctxs = s.ctxs := (rfl)
@[simp] theorem State.onPg_billets (f : _ → _) : (s.onPg f).billets = s.billets := (rfl)
@[simp] theorem State.onPg_ports (f : _ → _) : (s.onPg f).ports = s.ports := (rfl)
@[simp] theorem State.onPg_aside (f : _ → _) : (s.onPg f).aside = s.aside := (rfl)
@[simp] theorem State.onPg_served (f : _ → _) : (s.onPg f).served = s.served := (rfl)
@[simp] theorem State.onPg_badLines (f : _ → _) : (s.onPg f).badLines = s.badLines := (rfl)
@[simp] theorem State.onPg_clk (f : _ → _) : (s.onPg f).clk = s.clk := (rfl)
@[simp] theorem State.onPg_plan (f : _ → _) : (s.onPg f).plan = s.plan := (rfl)
@[simp] theorem State.onPg_tbs (f : _ → _) : (s.onPg f).tbs = s.tbs := (rfl)
@[simp] theorem State.onPg_tdc (f : _ → _) : (s.onPg f).tdc = s.tdc := (rfl)
@[simp] theorem State.onPg_cnv (f : _ → _) : (s.onPg f).cnv = s.cnv := (rfl)
@[simp] theorem State.onPg_cal (f : _ → _) : (s.onPg f).cal = s.cal := (rfl)
@[simp] theorem State.onPg_ddc (f : _ → _) : (s.onPg f).ddc = s.ddc := (rfl)
@[simp] theorem State.onPg_xfm (f : _ → _) : (s.onPg f).xfm = s.xfm := (rfl)
@[simp] theorem State.onPg_streams (f : _ → _) : (s.onPg f).streams = s.streams := (rfl)
@[simp] theorem State.onPg_frames (f : _ → _) : (s.onPg f).frames = s.frames := (rfl)
@[simp] theorem State.onPg_det (f : _ → _) : (s.onPg f).det = s.det := (rfl)
@[simp] theorem State.onPg_den (f : _ → _) : (s.onPg f).den = s.den := (rfl)
@[simp] theorem State.onPg_tq (f : _ → _) : (s.onPg f).tq = s.tq := (rfl)
@[simp] theorem State.onPg_lt (f : _ → _) : (s.onPg f).lt = s.lt := (rfl)
@[simp] theorem State.onPg_fm (f : _ → _) : (s.onPg f).fm = s.fm := (rfl)
@[simp] theorem State.onPg_bus (f : _ → _) : (s.onPg f).bus = s.bus := (rfl)
@[simp] theorem State.onPg_tmr (f : _ → _) : (s.onPg f).tmr = s.tmr := (rfl)
@[simp] theorem State.onPg_decs (f : _ → _) : (s.onPg f).decs = s.decs := (rfl)
@[simp] theorem State.onPg_au (f : _ → _) : (s.onPg f).au = s.au := (rfl)
@[simp] theorem State.onPg_replay (f : _ → _) : (s.onPg f).replay = s.replay := (rfl)
@[simp] theorem State.onPg_turf (f : _ → _) : (s.onPg f).turf = s.turf := (rfl)
@[simp] theorem State.onPg_clusters (f : _ → _) : (s.onPg f).clusters = s.clusters := (rfl)
@[simp] theorem State.onPg_net (f : _ → _) : (s.onPg f).net = s.net := (rfl)
@[simp] theorem State.onPg_ave (f : _ → _) : (s.onPg f).ave = s.ave := (rfl)
@[simp] theorem State.onPg_slots (f : _ → _) : (s.onPg f).slots = s.slots := (rfl)
@[simp] theorem State.onPg_dis (f : _ → _) : (s.onPg f).dis = s.dis := (rfl)
@[simp] theorem State.onPg_layers (f : _ → _) : (s.onPg f).layers = s.layers := (rfl)
@[simp] theorem State.onPg_mem (f : _ → _) : (s.onPg f).mem = s.mem := (rfl)
@[simp] theorem State.onPg_dma (f : _ → _) : (s.onPg f).dma = s.dma := (rfl)
@[simp] theorem State.onPg_rst (f : _ → _) : (s.onPg f).rst = s.rst := (rfl)
@[simp] theorem State.onPg_stk (f : _ → _) : (s.onPg f).stk = s.stk := (rfl)
@[simp] theorem State.onPg_cmp (f : _ → _) : (s.onPg f).cmp = s.cmp := (rfl)
@[simp] theorem State.onPg_pkg (f : _ → _) : (s.onPg f).pkg = s.pkg := (rfl)
@[simp] theorem State.rd_onPg (f : _ → _) (adr : Nat) : (s.onPg f).rd adr = s.rd adr := (rfl)
@[simp] theorem State.fld_onPg (f : _ → _) (adr : Nat) (fd : Fld) : (s.onPg f).fld adr fd = s.fld adr fd := (rfl)
@[simp] theorem State.actv_onPg (f : _ → _) (adr : Nat) : (s.onPg f).actv adr = s.actv adr := (rfl)

/-! ### onCnv -/
@[simp] theorem State.onCnv_pending (f : _ → _) : (s.onCnv f).pending = s.pending := (rfl)
@[simp] theorem State.onCnv_regs (f : _ → _) : (s.onCnv f).regs = s.regs := (rfl)
@[simp] theorem State.onCnv_act (f : _ → _) : (s.onCnv f).act = s.act := (rfl)
@[simp] theorem State.onCnv_snap (f : _ → _) : (s.onCnv f).snap = s.snap := (rfl)
@[simp] theorem State.onCnv_staged (f : _ → _) : (s.onCnv f).staged = s.staged := (rfl)
@[simp] theorem State.onCnv_readData (f : _ → _) : (s.onCnv f).readData = s.readData := (rfl)
@[simp] theorem State.onCnv_outs (f : _ → _) : (s.onCnv f).outs = s.outs := (rfl)
@[simp] theorem State.onCnv_time (f : _ → _) : (s.onCnv f).time = s.time := (rfl)
@[simp] theorem State.onCnv_frac (f : _ → _) : (s.onCnv f).frac = s.frac := (rfl)
@[simp] theorem State.onCnv_freeCtr (f : _ → _) : (s.onCnv f).freeCtr = s.freeCtr := (rfl)
@[simp] theorem State.onCnv_store (f : _ → _) : (s.onCnv f).store = s.store := (rfl)
@[simp] theorem State.onCnv_hostMem (f : _ → _) : (s.onCnv f).hostMem = s.hostMem := (rfl)
@[simp] theorem State.onCnv_flash (f : _ → _) : (s.onCnv f).flash = s.flash := (rfl)
@[simp] theorem State.onCnv_evt (f : _ → _) : (s.onCnv f).evt = s.evt := (rfl)
@[simp] theorem State.onCnv_hif (f : _ → _) : (s.onCnv f).hif = s.hif := (rfl)
@[simp] theorem State.onCnv_ctxs (f : _ → _) : (s.onCnv f).ctxs = s.ctxs := (rfl)
@[simp] theorem State.onCnv_billets (f : _ → _) : (s.onCnv f).billets = s.billets := (rfl)
@[simp] theorem State.onCnv_ports (f : _ → _) : (s.onCnv f).ports = s.ports := (rfl)
@[simp] theorem State.onCnv_aside (f : _ → _) : (s.onCnv f).aside = s.aside := (rfl)
@[simp] theorem State.onCnv_served (f : _ → _) : (s.onCnv f).served = s.served := (rfl)
@[simp] theorem State.onCnv_badLines (f : _ → _) : (s.onCnv f).badLines = s.badLines := (rfl)
@[simp] theorem State.onCnv_clk (f : _ → _) : (s.onCnv f).clk = s.clk := (rfl)
@[simp] theorem State.onCnv_plan (f : _ → _) : (s.onCnv f).plan = s.plan := (rfl)
@[simp] theorem State.onCnv_tbs (f : _ → _) : (s.onCnv f).tbs = s.tbs := (rfl)
@[simp] theorem State.onCnv_tdc (f : _ → _) : (s.onCnv f).tdc = s.tdc := (rfl)
@[simp] theorem State.onCnv_pg (f : _ → _) : (s.onCnv f).pg = s.pg := (rfl)
@[simp] theorem State.onCnv_cal (f : _ → _) : (s.onCnv f).cal = s.cal := (rfl)
@[simp] theorem State.onCnv_ddc (f : _ → _) : (s.onCnv f).ddc = s.ddc := (rfl)
@[simp] theorem State.onCnv_xfm (f : _ → _) : (s.onCnv f).xfm = s.xfm := (rfl)
@[simp] theorem State.onCnv_streams (f : _ → _) : (s.onCnv f).streams = s.streams := (rfl)
@[simp] theorem State.onCnv_frames (f : _ → _) : (s.onCnv f).frames = s.frames := (rfl)
@[simp] theorem State.onCnv_det (f : _ → _) : (s.onCnv f).det = s.det := (rfl)
@[simp] theorem State.onCnv_den (f : _ → _) : (s.onCnv f).den = s.den := (rfl)
@[simp] theorem State.onCnv_tq (f : _ → _) : (s.onCnv f).tq = s.tq := (rfl)
@[simp] theorem State.onCnv_lt (f : _ → _) : (s.onCnv f).lt = s.lt := (rfl)
@[simp] theorem State.onCnv_fm (f : _ → _) : (s.onCnv f).fm = s.fm := (rfl)
@[simp] theorem State.onCnv_bus (f : _ → _) : (s.onCnv f).bus = s.bus := (rfl)
@[simp] theorem State.onCnv_tmr (f : _ → _) : (s.onCnv f).tmr = s.tmr := (rfl)
@[simp] theorem State.onCnv_decs (f : _ → _) : (s.onCnv f).decs = s.decs := (rfl)
@[simp] theorem State.onCnv_au (f : _ → _) : (s.onCnv f).au = s.au := (rfl)
@[simp] theorem State.onCnv_replay (f : _ → _) : (s.onCnv f).replay = s.replay := (rfl)
@[simp] theorem State.onCnv_turf (f : _ → _) : (s.onCnv f).turf = s.turf := (rfl)
@[simp] theorem State.onCnv_clusters (f : _ → _) : (s.onCnv f).clusters = s.clusters := (rfl)
@[simp] theorem State.onCnv_net (f : _ → _) : (s.onCnv f).net = s.net := (rfl)
@[simp] theorem State.onCnv_ave (f : _ → _) : (s.onCnv f).ave = s.ave := (rfl)
@[simp] theorem State.onCnv_slots (f : _ → _) : (s.onCnv f).slots = s.slots := (rfl)
@[simp] theorem State.onCnv_dis (f : _ → _) : (s.onCnv f).dis = s.dis := (rfl)
@[simp] theorem State.onCnv_layers (f : _ → _) : (s.onCnv f).layers = s.layers := (rfl)
@[simp] theorem State.onCnv_mem (f : _ → _) : (s.onCnv f).mem = s.mem := (rfl)
@[simp] theorem State.onCnv_dma (f : _ → _) : (s.onCnv f).dma = s.dma := (rfl)
@[simp] theorem State.onCnv_rst (f : _ → _) : (s.onCnv f).rst = s.rst := (rfl)
@[simp] theorem State.onCnv_stk (f : _ → _) : (s.onCnv f).stk = s.stk := (rfl)
@[simp] theorem State.onCnv_cmp (f : _ → _) : (s.onCnv f).cmp = s.cmp := (rfl)
@[simp] theorem State.onCnv_pkg (f : _ → _) : (s.onCnv f).pkg = s.pkg := (rfl)
@[simp] theorem State.rd_onCnv (f : _ → _) (adr : Nat) : (s.onCnv f).rd adr = s.rd adr := (rfl)
@[simp] theorem State.fld_onCnv (f : _ → _) (adr : Nat) (fd : Fld) : (s.onCnv f).fld adr fd = s.fld adr fd := (rfl)
@[simp] theorem State.actv_onCnv (f : _ → _) (adr : Nat) : (s.onCnv f).actv adr = s.actv adr := (rfl)

/-! ### onAu -/
@[simp] theorem State.onAu_pending (f : _ → _) : (s.onAu f).pending = s.pending := (rfl)
@[simp] theorem State.onAu_regs (f : _ → _) : (s.onAu f).regs = s.regs := (rfl)
@[simp] theorem State.onAu_act (f : _ → _) : (s.onAu f).act = s.act := (rfl)
@[simp] theorem State.onAu_snap (f : _ → _) : (s.onAu f).snap = s.snap := (rfl)
@[simp] theorem State.onAu_staged (f : _ → _) : (s.onAu f).staged = s.staged := (rfl)
@[simp] theorem State.onAu_readData (f : _ → _) : (s.onAu f).readData = s.readData := (rfl)
@[simp] theorem State.onAu_outs (f : _ → _) : (s.onAu f).outs = s.outs := (rfl)
@[simp] theorem State.onAu_time (f : _ → _) : (s.onAu f).time = s.time := (rfl)
@[simp] theorem State.onAu_frac (f : _ → _) : (s.onAu f).frac = s.frac := (rfl)
@[simp] theorem State.onAu_freeCtr (f : _ → _) : (s.onAu f).freeCtr = s.freeCtr := (rfl)
@[simp] theorem State.onAu_store (f : _ → _) : (s.onAu f).store = s.store := (rfl)
@[simp] theorem State.onAu_hostMem (f : _ → _) : (s.onAu f).hostMem = s.hostMem := (rfl)
@[simp] theorem State.onAu_flash (f : _ → _) : (s.onAu f).flash = s.flash := (rfl)
@[simp] theorem State.onAu_evt (f : _ → _) : (s.onAu f).evt = s.evt := (rfl)
@[simp] theorem State.onAu_hif (f : _ → _) : (s.onAu f).hif = s.hif := (rfl)
@[simp] theorem State.onAu_ctxs (f : _ → _) : (s.onAu f).ctxs = s.ctxs := (rfl)
@[simp] theorem State.onAu_billets (f : _ → _) : (s.onAu f).billets = s.billets := (rfl)
@[simp] theorem State.onAu_ports (f : _ → _) : (s.onAu f).ports = s.ports := (rfl)
@[simp] theorem State.onAu_aside (f : _ → _) : (s.onAu f).aside = s.aside := (rfl)
@[simp] theorem State.onAu_served (f : _ → _) : (s.onAu f).served = s.served := (rfl)
@[simp] theorem State.onAu_badLines (f : _ → _) : (s.onAu f).badLines = s.badLines := (rfl)
@[simp] theorem State.onAu_clk (f : _ → _) : (s.onAu f).clk = s.clk := (rfl)
@[simp] theorem State.onAu_plan (f : _ → _) : (s.onAu f).plan = s.plan := (rfl)
@[simp] theorem State.onAu_tbs (f : _ → _) : (s.onAu f).tbs = s.tbs := (rfl)
@[simp] theorem State.onAu_tdc (f : _ → _) : (s.onAu f).tdc = s.tdc := (rfl)
@[simp] theorem State.onAu_cnv (f : _ → _) : (s.onAu f).cnv = s.cnv := (rfl)
@[simp] theorem State.onAu_pg (f : _ → _) : (s.onAu f).pg = s.pg := (rfl)
@[simp] theorem State.onAu_cal (f : _ → _) : (s.onAu f).cal = s.cal := (rfl)
@[simp] theorem State.onAu_ddc (f : _ → _) : (s.onAu f).ddc = s.ddc := (rfl)
@[simp] theorem State.onAu_xfm (f : _ → _) : (s.onAu f).xfm = s.xfm := (rfl)
@[simp] theorem State.onAu_streams (f : _ → _) : (s.onAu f).streams = s.streams := (rfl)
@[simp] theorem State.onAu_frames (f : _ → _) : (s.onAu f).frames = s.frames := (rfl)
@[simp] theorem State.onAu_det (f : _ → _) : (s.onAu f).det = s.det := (rfl)
@[simp] theorem State.onAu_den (f : _ → _) : (s.onAu f).den = s.den := (rfl)
@[simp] theorem State.onAu_tq (f : _ → _) : (s.onAu f).tq = s.tq := (rfl)
@[simp] theorem State.onAu_lt (f : _ → _) : (s.onAu f).lt = s.lt := (rfl)
@[simp] theorem State.onAu_fm (f : _ → _) : (s.onAu f).fm = s.fm := (rfl)
@[simp] theorem State.onAu_bus (f : _ → _) : (s.onAu f).bus = s.bus := (rfl)
@[simp] theorem State.onAu_tmr (f : _ → _) : (s.onAu f).tmr = s.tmr := (rfl)
@[simp] theorem State.onAu_decs (f : _ → _) : (s.onAu f).decs = s.decs := (rfl)
@[simp] theorem State.onAu_replay (f : _ → _) : (s.onAu f).replay = s.replay := (rfl)
@[simp] theorem State.onAu_turf (f : _ → _) : (s.onAu f).turf = s.turf := (rfl)
@[simp] theorem State.onAu_clusters (f : _ → _) : (s.onAu f).clusters = s.clusters := (rfl)
@[simp] theorem State.onAu_net (f : _ → _) : (s.onAu f).net = s.net := (rfl)
@[simp] theorem State.onAu_ave (f : _ → _) : (s.onAu f).ave = s.ave := (rfl)
@[simp] theorem State.onAu_slots (f : _ → _) : (s.onAu f).slots = s.slots := (rfl)
@[simp] theorem State.onAu_dis (f : _ → _) : (s.onAu f).dis = s.dis := (rfl)
@[simp] theorem State.onAu_layers (f : _ → _) : (s.onAu f).layers = s.layers := (rfl)
@[simp] theorem State.onAu_mem (f : _ → _) : (s.onAu f).mem = s.mem := (rfl)
@[simp] theorem State.onAu_dma (f : _ → _) : (s.onAu f).dma = s.dma := (rfl)
@[simp] theorem State.onAu_rst (f : _ → _) : (s.onAu f).rst = s.rst := (rfl)
@[simp] theorem State.onAu_stk (f : _ → _) : (s.onAu f).stk = s.stk := (rfl)
@[simp] theorem State.onAu_cmp (f : _ → _) : (s.onAu f).cmp = s.cmp := (rfl)
@[simp] theorem State.onAu_pkg (f : _ → _) : (s.onAu f).pkg = s.pkg := (rfl)
@[simp] theorem State.rd_onAu (f : _ → _) (adr : Nat) : (s.onAu f).rd adr = s.rd adr := (rfl)
@[simp] theorem State.fld_onAu (f : _ → _) (adr : Nat) (fd : Fld) : (s.onAu f).fld adr fd = s.fld adr fd := (rfl)
@[simp] theorem State.actv_onAu (f : _ → _) (adr : Nat) : (s.onAu f).actv adr = s.actv adr := (rfl)

/-! ### onRegs -/
@[simp] theorem State.onRegs_pending (f : _ → _) : (s.onRegs f).pending = s.pending := (rfl)
@[simp] theorem State.onRegs_act (f : _ → _) : (s.onRegs f).act = s.act := (rfl)
@[simp] theorem State.onRegs_snap (f : _ → _) : (s.onRegs f).snap = s.snap := (rfl)
@[simp] theorem State.onRegs_staged (f : _ → _) : (s.onRegs f).staged = s.staged := (rfl)
@[simp] theorem State.onRegs_readData (f : _ → _) : (s.onRegs f).readData = s.readData := (rfl)
@[simp] theorem State.onRegs_outs (f : _ → _) : (s.onRegs f).outs = s.outs := (rfl)
@[simp] theorem State.onRegs_time (f : _ → _) : (s.onRegs f).time = s.time := (rfl)
@[simp] theorem State.onRegs_frac (f : _ → _) : (s.onRegs f).frac = s.frac := (rfl)
@[simp] theorem State.onRegs_freeCtr (f : _ → _) : (s.onRegs f).freeCtr = s.freeCtr := (rfl)
@[simp] theorem State.onRegs_store (f : _ → _) : (s.onRegs f).store = s.store := (rfl)
@[simp] theorem State.onRegs_hostMem (f : _ → _) : (s.onRegs f).hostMem = s.hostMem := (rfl)
@[simp] theorem State.onRegs_flash (f : _ → _) : (s.onRegs f).flash = s.flash := (rfl)
@[simp] theorem State.onRegs_evt (f : _ → _) : (s.onRegs f).evt = s.evt := (rfl)
@[simp] theorem State.onRegs_hif (f : _ → _) : (s.onRegs f).hif = s.hif := (rfl)
@[simp] theorem State.onRegs_ctxs (f : _ → _) : (s.onRegs f).ctxs = s.ctxs := (rfl)
@[simp] theorem State.onRegs_billets (f : _ → _) : (s.onRegs f).billets = s.billets := (rfl)
@[simp] theorem State.onRegs_ports (f : _ → _) : (s.onRegs f).ports = s.ports := (rfl)
@[simp] theorem State.onRegs_aside (f : _ → _) : (s.onRegs f).aside = s.aside := (rfl)
@[simp] theorem State.onRegs_served (f : _ → _) : (s.onRegs f).served = s.served := (rfl)
@[simp] theorem State.onRegs_badLines (f : _ → _) : (s.onRegs f).badLines = s.badLines := (rfl)
@[simp] theorem State.onRegs_clk (f : _ → _) : (s.onRegs f).clk = s.clk := (rfl)
@[simp] theorem State.onRegs_plan (f : _ → _) : (s.onRegs f).plan = s.plan := (rfl)
@[simp] theorem State.onRegs_tbs (f : _ → _) : (s.onRegs f).tbs = s.tbs := (rfl)
@[simp] theorem State.onRegs_tdc (f : _ → _) : (s.onRegs f).tdc = s.tdc := (rfl)
@[simp] theorem State.onRegs_cnv (f : _ → _) : (s.onRegs f).cnv = s.cnv := (rfl)
@[simp] theorem State.onRegs_pg (f : _ → _) : (s.onRegs f).pg = s.pg := (rfl)
@[simp] theorem State.onRegs_cal (f : _ → _) : (s.onRegs f).cal = s.cal := (rfl)
@[simp] theorem State.onRegs_ddc (f : _ → _) : (s.onRegs f).ddc = s.ddc := (rfl)
@[simp] theorem State.onRegs_xfm (f : _ → _) : (s.onRegs f).xfm = s.xfm := (rfl)
@[simp] theorem State.onRegs_streams (f : _ → _) : (s.onRegs f).streams = s.streams := (rfl)
@[simp] theorem State.onRegs_frames (f : _ → _) : (s.onRegs f).frames = s.frames := (rfl)
@[simp] theorem State.onRegs_det (f : _ → _) : (s.onRegs f).det = s.det := (rfl)
@[simp] theorem State.onRegs_den (f : _ → _) : (s.onRegs f).den = s.den := (rfl)
@[simp] theorem State.onRegs_tq (f : _ → _) : (s.onRegs f).tq = s.tq := (rfl)
@[simp] theorem State.onRegs_lt (f : _ → _) : (s.onRegs f).lt = s.lt := (rfl)
@[simp] theorem State.onRegs_fm (f : _ → _) : (s.onRegs f).fm = s.fm := (rfl)
@[simp] theorem State.onRegs_bus (f : _ → _) : (s.onRegs f).bus = s.bus := (rfl)
@[simp] theorem State.onRegs_tmr (f : _ → _) : (s.onRegs f).tmr = s.tmr := (rfl)
@[simp] theorem State.onRegs_decs (f : _ → _) : (s.onRegs f).decs = s.decs := (rfl)
@[simp] theorem State.onRegs_au (f : _ → _) : (s.onRegs f).au = s.au := (rfl)
@[simp] theorem State.onRegs_replay (f : _ → _) : (s.onRegs f).replay = s.replay := (rfl)
@[simp] theorem State.onRegs_turf (f : _ → _) : (s.onRegs f).turf = s.turf := (rfl)
@[simp] theorem State.onRegs_clusters (f : _ → _) : (s.onRegs f).clusters = s.clusters := (rfl)
@[simp] theorem State.onRegs_net (f : _ → _) : (s.onRegs f).net = s.net := (rfl)
@[simp] theorem State.onRegs_ave (f : _ → _) : (s.onRegs f).ave = s.ave := (rfl)
@[simp] theorem State.onRegs_slots (f : _ → _) : (s.onRegs f).slots = s.slots := (rfl)
@[simp] theorem State.onRegs_dis (f : _ → _) : (s.onRegs f).dis = s.dis := (rfl)
@[simp] theorem State.onRegs_layers (f : _ → _) : (s.onRegs f).layers = s.layers := (rfl)
@[simp] theorem State.onRegs_mem (f : _ → _) : (s.onRegs f).mem = s.mem := (rfl)
@[simp] theorem State.onRegs_dma (f : _ → _) : (s.onRegs f).dma = s.dma := (rfl)
@[simp] theorem State.onRegs_rst (f : _ → _) : (s.onRegs f).rst = s.rst := (rfl)
@[simp] theorem State.onRegs_stk (f : _ → _) : (s.onRegs f).stk = s.stk := (rfl)
@[simp] theorem State.onRegs_cmp (f : _ → _) : (s.onRegs f).cmp = s.cmp := (rfl)
@[simp] theorem State.onRegs_pkg (f : _ → _) : (s.onRegs f).pkg = s.pkg := (rfl)
@[simp] theorem State.actv_onRegs (f : _ → _) (adr : Nat) : (s.onRegs f).actv adr = s.actv adr := (rfl)

/-! ### onSnap -/
@[simp] theorem State.onSnap_pending (f : _ → _) : (s.onSnap f).pending = s.pending := (rfl)
@[simp] theorem State.onSnap_regs (f : _ → _) : (s.onSnap f).regs = s.regs := (rfl)
@[simp] theorem State.onSnap_act (f : _ → _) : (s.onSnap f).act = s.act := (rfl)
@[simp] theorem State.onSnap_staged (f : _ → _) : (s.onSnap f).staged = s.staged := (rfl)
@[simp] theorem State.onSnap_readData (f : _ → _) : (s.onSnap f).readData = s.readData := (rfl)
@[simp] theorem State.onSnap_outs (f : _ → _) : (s.onSnap f).outs = s.outs := (rfl)
@[simp] theorem State.onSnap_time (f : _ → _) : (s.onSnap f).time = s.time := (rfl)
@[simp] theorem State.onSnap_frac (f : _ → _) : (s.onSnap f).frac = s.frac := (rfl)
@[simp] theorem State.onSnap_freeCtr (f : _ → _) : (s.onSnap f).freeCtr = s.freeCtr := (rfl)
@[simp] theorem State.onSnap_store (f : _ → _) : (s.onSnap f).store = s.store := (rfl)
@[simp] theorem State.onSnap_hostMem (f : _ → _) : (s.onSnap f).hostMem = s.hostMem := (rfl)
@[simp] theorem State.onSnap_flash (f : _ → _) : (s.onSnap f).flash = s.flash := (rfl)
@[simp] theorem State.onSnap_evt (f : _ → _) : (s.onSnap f).evt = s.evt := (rfl)
@[simp] theorem State.onSnap_hif (f : _ → _) : (s.onSnap f).hif = s.hif := (rfl)
@[simp] theorem State.onSnap_ctxs (f : _ → _) : (s.onSnap f).ctxs = s.ctxs := (rfl)
@[simp] theorem State.onSnap_billets (f : _ → _) : (s.onSnap f).billets = s.billets := (rfl)
@[simp] theorem State.onSnap_ports (f : _ → _) : (s.onSnap f).ports = s.ports := (rfl)
@[simp] theorem State.onSnap_aside (f : _ → _) : (s.onSnap f).aside = s.aside := (rfl)
@[simp] theorem State.onSnap_served (f : _ → _) : (s.onSnap f).served = s.served := (rfl)
@[simp] theorem State.onSnap_badLines (f : _ → _) : (s.onSnap f).badLines = s.badLines := (rfl)
@[simp] theorem State.onSnap_clk (f : _ → _) : (s.onSnap f).clk = s.clk := (rfl)
@[simp] theorem State.onSnap_plan (f : _ → _) : (s.onSnap f).plan = s.plan := (rfl)
@[simp] theorem State.onSnap_tbs (f : _ → _) : (s.onSnap f).tbs = s.tbs := (rfl)
@[simp] theorem State.onSnap_tdc (f : _ → _) : (s.onSnap f).tdc = s.tdc := (rfl)
@[simp] theorem State.onSnap_cnv (f : _ → _) : (s.onSnap f).cnv = s.cnv := (rfl)
@[simp] theorem State.onSnap_pg (f : _ → _) : (s.onSnap f).pg = s.pg := (rfl)
@[simp] theorem State.onSnap_cal (f : _ → _) : (s.onSnap f).cal = s.cal := (rfl)
@[simp] theorem State.onSnap_ddc (f : _ → _) : (s.onSnap f).ddc = s.ddc := (rfl)
@[simp] theorem State.onSnap_xfm (f : _ → _) : (s.onSnap f).xfm = s.xfm := (rfl)
@[simp] theorem State.onSnap_streams (f : _ → _) : (s.onSnap f).streams = s.streams := (rfl)
@[simp] theorem State.onSnap_frames (f : _ → _) : (s.onSnap f).frames = s.frames := (rfl)
@[simp] theorem State.onSnap_det (f : _ → _) : (s.onSnap f).det = s.det := (rfl)
@[simp] theorem State.onSnap_den (f : _ → _) : (s.onSnap f).den = s.den := (rfl)
@[simp] theorem State.onSnap_tq (f : _ → _) : (s.onSnap f).tq = s.tq := (rfl)
@[simp] theorem State.onSnap_lt (f : _ → _) : (s.onSnap f).lt = s.lt := (rfl)
@[simp] theorem State.onSnap_fm (f : _ → _) : (s.onSnap f).fm = s.fm := (rfl)
@[simp] theorem State.onSnap_bus (f : _ → _) : (s.onSnap f).bus = s.bus := (rfl)
@[simp] theorem State.onSnap_tmr (f : _ → _) : (s.onSnap f).tmr = s.tmr := (rfl)
@[simp] theorem State.onSnap_decs (f : _ → _) : (s.onSnap f).decs = s.decs := (rfl)
@[simp] theorem State.onSnap_au (f : _ → _) : (s.onSnap f).au = s.au := (rfl)
@[simp] theorem State.onSnap_replay (f : _ → _) : (s.onSnap f).replay = s.replay := (rfl)
@[simp] theorem State.onSnap_turf (f : _ → _) : (s.onSnap f).turf = s.turf := (rfl)
@[simp] theorem State.onSnap_clusters (f : _ → _) : (s.onSnap f).clusters = s.clusters := (rfl)
@[simp] theorem State.onSnap_net (f : _ → _) : (s.onSnap f).net = s.net := (rfl)
@[simp] theorem State.onSnap_ave (f : _ → _) : (s.onSnap f).ave = s.ave := (rfl)
@[simp] theorem State.onSnap_slots (f : _ → _) : (s.onSnap f).slots = s.slots := (rfl)
@[simp] theorem State.onSnap_dis (f : _ → _) : (s.onSnap f).dis = s.dis := (rfl)
@[simp] theorem State.onSnap_layers (f : _ → _) : (s.onSnap f).layers = s.layers := (rfl)
@[simp] theorem State.onSnap_mem (f : _ → _) : (s.onSnap f).mem = s.mem := (rfl)
@[simp] theorem State.onSnap_dma (f : _ → _) : (s.onSnap f).dma = s.dma := (rfl)
@[simp] theorem State.onSnap_rst (f : _ → _) : (s.onSnap f).rst = s.rst := (rfl)
@[simp] theorem State.onSnap_stk (f : _ → _) : (s.onSnap f).stk = s.stk := (rfl)
@[simp] theorem State.onSnap_cmp (f : _ → _) : (s.onSnap f).cmp = s.cmp := (rfl)
@[simp] theorem State.onSnap_pkg (f : _ → _) : (s.onSnap f).pkg = s.pkg := (rfl)
@[simp] theorem State.rd_onSnap (f : _ → _) (adr : Nat) : (s.onSnap f).rd adr = s.rd adr := (rfl)
@[simp] theorem State.fld_onSnap (f : _ → _) (adr : Nat) (fd : Fld) : (s.onSnap f).fld adr fd = s.fld adr fd := (rfl)
@[simp] theorem State.actv_onSnap (f : _ → _) (adr : Nat) : (s.onSnap f).actv adr = s.actv adr := (rfl)

/-! ### onStaged -/
@[simp] theorem State.onStaged_pending (f : _ → _) : (s.onStaged f).pending = s.pending := (rfl)
@[simp] theorem State.onStaged_regs (f : _ → _) : (s.onStaged f).regs = s.regs := (rfl)
@[simp] theorem State.onStaged_act (f : _ → _) : (s.onStaged f).act = s.act := (rfl)
@[simp] theorem State.onStaged_snap (f : _ → _) : (s.onStaged f).snap = s.snap := (rfl)
@[simp] theorem State.onStaged_readData (f : _ → _) : (s.onStaged f).readData = s.readData := (rfl)
@[simp] theorem State.onStaged_outs (f : _ → _) : (s.onStaged f).outs = s.outs := (rfl)
@[simp] theorem State.onStaged_time (f : _ → _) : (s.onStaged f).time = s.time := (rfl)
@[simp] theorem State.onStaged_frac (f : _ → _) : (s.onStaged f).frac = s.frac := (rfl)
@[simp] theorem State.onStaged_freeCtr (f : _ → _) : (s.onStaged f).freeCtr = s.freeCtr := (rfl)
@[simp] theorem State.onStaged_store (f : _ → _) : (s.onStaged f).store = s.store := (rfl)
@[simp] theorem State.onStaged_hostMem (f : _ → _) : (s.onStaged f).hostMem = s.hostMem := (rfl)
@[simp] theorem State.onStaged_flash (f : _ → _) : (s.onStaged f).flash = s.flash := (rfl)
@[simp] theorem State.onStaged_evt (f : _ → _) : (s.onStaged f).evt = s.evt := (rfl)
@[simp] theorem State.onStaged_hif (f : _ → _) : (s.onStaged f).hif = s.hif := (rfl)
@[simp] theorem State.onStaged_ctxs (f : _ → _) : (s.onStaged f).ctxs = s.ctxs := (rfl)
@[simp] theorem State.onStaged_billets (f : _ → _) : (s.onStaged f).billets = s.billets := (rfl)
@[simp] theorem State.onStaged_ports (f : _ → _) : (s.onStaged f).ports = s.ports := (rfl)
@[simp] theorem State.onStaged_aside (f : _ → _) : (s.onStaged f).aside = s.aside := (rfl)
@[simp] theorem State.onStaged_served (f : _ → _) : (s.onStaged f).served = s.served := (rfl)
@[simp] theorem State.onStaged_badLines (f : _ → _) : (s.onStaged f).badLines = s.badLines := (rfl)
@[simp] theorem State.onStaged_clk (f : _ → _) : (s.onStaged f).clk = s.clk := (rfl)
@[simp] theorem State.onStaged_plan (f : _ → _) : (s.onStaged f).plan = s.plan := (rfl)
@[simp] theorem State.onStaged_tbs (f : _ → _) : (s.onStaged f).tbs = s.tbs := (rfl)
@[simp] theorem State.onStaged_tdc (f : _ → _) : (s.onStaged f).tdc = s.tdc := (rfl)
@[simp] theorem State.onStaged_cnv (f : _ → _) : (s.onStaged f).cnv = s.cnv := (rfl)
@[simp] theorem State.onStaged_pg (f : _ → _) : (s.onStaged f).pg = s.pg := (rfl)
@[simp] theorem State.onStaged_cal (f : _ → _) : (s.onStaged f).cal = s.cal := (rfl)
@[simp] theorem State.onStaged_ddc (f : _ → _) : (s.onStaged f).ddc = s.ddc := (rfl)
@[simp] theorem State.onStaged_xfm (f : _ → _) : (s.onStaged f).xfm = s.xfm := (rfl)
@[simp] theorem State.onStaged_streams (f : _ → _) : (s.onStaged f).streams = s.streams := (rfl)
@[simp] theorem State.onStaged_frames (f : _ → _) : (s.onStaged f).frames = s.frames := (rfl)
@[simp] theorem State.onStaged_det (f : _ → _) : (s.onStaged f).det = s.det := (rfl)
@[simp] theorem State.onStaged_den (f : _ → _) : (s.onStaged f).den = s.den := (rfl)
@[simp] theorem State.onStaged_tq (f : _ → _) : (s.onStaged f).tq = s.tq := (rfl)
@[simp] theorem State.onStaged_lt (f : _ → _) : (s.onStaged f).lt = s.lt := (rfl)
@[simp] theorem State.onStaged_fm (f : _ → _) : (s.onStaged f).fm = s.fm := (rfl)
@[simp] theorem State.onStaged_bus (f : _ → _) : (s.onStaged f).bus = s.bus := (rfl)
@[simp] theorem State.onStaged_tmr (f : _ → _) : (s.onStaged f).tmr = s.tmr := (rfl)
@[simp] theorem State.onStaged_decs (f : _ → _) : (s.onStaged f).decs = s.decs := (rfl)
@[simp] theorem State.onStaged_au (f : _ → _) : (s.onStaged f).au = s.au := (rfl)
@[simp] theorem State.onStaged_replay (f : _ → _) : (s.onStaged f).replay = s.replay := (rfl)
@[simp] theorem State.onStaged_turf (f : _ → _) : (s.onStaged f).turf = s.turf := (rfl)
@[simp] theorem State.onStaged_clusters (f : _ → _) : (s.onStaged f).clusters = s.clusters := (rfl)
@[simp] theorem State.onStaged_net (f : _ → _) : (s.onStaged f).net = s.net := (rfl)
@[simp] theorem State.onStaged_ave (f : _ → _) : (s.onStaged f).ave = s.ave := (rfl)
@[simp] theorem State.onStaged_slots (f : _ → _) : (s.onStaged f).slots = s.slots := (rfl)
@[simp] theorem State.onStaged_dis (f : _ → _) : (s.onStaged f).dis = s.dis := (rfl)
@[simp] theorem State.onStaged_layers (f : _ → _) : (s.onStaged f).layers = s.layers := (rfl)
@[simp] theorem State.onStaged_mem (f : _ → _) : (s.onStaged f).mem = s.mem := (rfl)
@[simp] theorem State.onStaged_dma (f : _ → _) : (s.onStaged f).dma = s.dma := (rfl)
@[simp] theorem State.onStaged_rst (f : _ → _) : (s.onStaged f).rst = s.rst := (rfl)
@[simp] theorem State.onStaged_stk (f : _ → _) : (s.onStaged f).stk = s.stk := (rfl)
@[simp] theorem State.onStaged_cmp (f : _ → _) : (s.onStaged f).cmp = s.cmp := (rfl)
@[simp] theorem State.onStaged_pkg (f : _ → _) : (s.onStaged f).pkg = s.pkg := (rfl)
@[simp] theorem State.rd_onStaged (f : _ → _) (adr : Nat) : (s.onStaged f).rd adr = s.rd adr := (rfl)
@[simp] theorem State.fld_onStaged (f : _ → _) (adr : Nat) (fd : Fld) : (s.onStaged f).fld adr fd = s.fld adr fd := (rfl)
@[simp] theorem State.actv_onStaged (f : _ → _) (adr : Nat) : (s.onStaged f).actv adr = s.actv adr := (rfl)

/-! ### onReadData -/
@[simp] theorem State.onReadData_pending (f : _ → _) : (s.onReadData f).pending = s.pending := (rfl)
@[simp] theorem State.onReadData_regs (f : _ → _) : (s.onReadData f).regs = s.regs := (rfl)
@[simp] theorem State.onReadData_act (f : _ → _) : (s.onReadData f).act = s.act := (rfl)
@[simp] theorem State.onReadData_snap (f : _ → _) : (s.onReadData f).snap = s.snap := (rfl)
@[simp] theorem State.onReadData_staged (f : _ → _) : (s.onReadData f).staged = s.staged := (rfl)
@[simp] theorem State.onReadData_outs (f : _ → _) : (s.onReadData f).outs = s.outs := (rfl)
@[simp] theorem State.onReadData_time (f : _ → _) : (s.onReadData f).time = s.time := (rfl)
@[simp] theorem State.onReadData_frac (f : _ → _) : (s.onReadData f).frac = s.frac := (rfl)
@[simp] theorem State.onReadData_freeCtr (f : _ → _) : (s.onReadData f).freeCtr = s.freeCtr := (rfl)
@[simp] theorem State.onReadData_store (f : _ → _) : (s.onReadData f).store = s.store := (rfl)
@[simp] theorem State.onReadData_hostMem (f : _ → _) : (s.onReadData f).hostMem = s.hostMem := (rfl)
@[simp] theorem State.onReadData_flash (f : _ → _) : (s.onReadData f).flash = s.flash := (rfl)
@[simp] theorem State.onReadData_evt (f : _ → _) : (s.onReadData f).evt = s.evt := (rfl)
@[simp] theorem State.onReadData_hif (f : _ → _) : (s.onReadData f).hif = s.hif := (rfl)
@[simp] theorem State.onReadData_ctxs (f : _ → _) : (s.onReadData f).ctxs = s.ctxs := (rfl)
@[simp] theorem State.onReadData_billets (f : _ → _) : (s.onReadData f).billets = s.billets := (rfl)
@[simp] theorem State.onReadData_ports (f : _ → _) : (s.onReadData f).ports = s.ports := (rfl)
@[simp] theorem State.onReadData_aside (f : _ → _) : (s.onReadData f).aside = s.aside := (rfl)
@[simp] theorem State.onReadData_served (f : _ → _) : (s.onReadData f).served = s.served := (rfl)
@[simp] theorem State.onReadData_badLines (f : _ → _) : (s.onReadData f).badLines = s.badLines := (rfl)
@[simp] theorem State.onReadData_clk (f : _ → _) : (s.onReadData f).clk = s.clk := (rfl)
@[simp] theorem State.onReadData_plan (f : _ → _) : (s.onReadData f).plan = s.plan := (rfl)
@[simp] theorem State.onReadData_tbs (f : _ → _) : (s.onReadData f).tbs = s.tbs := (rfl)
@[simp] theorem State.onReadData_tdc (f : _ → _) : (s.onReadData f).tdc = s.tdc := (rfl)
@[simp] theorem State.onReadData_cnv (f : _ → _) : (s.onReadData f).cnv = s.cnv := (rfl)
@[simp] theorem State.onReadData_pg (f : _ → _) : (s.onReadData f).pg = s.pg := (rfl)
@[simp] theorem State.onReadData_cal (f : _ → _) : (s.onReadData f).cal = s.cal := (rfl)
@[simp] theorem State.onReadData_ddc (f : _ → _) : (s.onReadData f).ddc = s.ddc := (rfl)
@[simp] theorem State.onReadData_xfm (f : _ → _) : (s.onReadData f).xfm = s.xfm := (rfl)
@[simp] theorem State.onReadData_streams (f : _ → _) : (s.onReadData f).streams = s.streams := (rfl)
@[simp] theorem State.onReadData_frames (f : _ → _) : (s.onReadData f).frames = s.frames := (rfl)
@[simp] theorem State.onReadData_det (f : _ → _) : (s.onReadData f).det = s.det := (rfl)
@[simp] theorem State.onReadData_den (f : _ → _) : (s.onReadData f).den = s.den := (rfl)
@[simp] theorem State.onReadData_tq (f : _ → _) : (s.onReadData f).tq = s.tq := (rfl)
@[simp] theorem State.onReadData_lt (f : _ → _) : (s.onReadData f).lt = s.lt := (rfl)
@[simp] theorem State.onReadData_fm (f : _ → _) : (s.onReadData f).fm = s.fm := (rfl)
@[simp] theorem State.onReadData_bus (f : _ → _) : (s.onReadData f).bus = s.bus := (rfl)
@[simp] theorem State.onReadData_tmr (f : _ → _) : (s.onReadData f).tmr = s.tmr := (rfl)
@[simp] theorem State.onReadData_decs (f : _ → _) : (s.onReadData f).decs = s.decs := (rfl)
@[simp] theorem State.onReadData_au (f : _ → _) : (s.onReadData f).au = s.au := (rfl)
@[simp] theorem State.onReadData_replay (f : _ → _) : (s.onReadData f).replay = s.replay := (rfl)
@[simp] theorem State.onReadData_turf (f : _ → _) : (s.onReadData f).turf = s.turf := (rfl)
@[simp] theorem State.onReadData_clusters (f : _ → _) : (s.onReadData f).clusters = s.clusters := (rfl)
@[simp] theorem State.onReadData_net (f : _ → _) : (s.onReadData f).net = s.net := (rfl)
@[simp] theorem State.onReadData_ave (f : _ → _) : (s.onReadData f).ave = s.ave := (rfl)
@[simp] theorem State.onReadData_slots (f : _ → _) : (s.onReadData f).slots = s.slots := (rfl)
@[simp] theorem State.onReadData_dis (f : _ → _) : (s.onReadData f).dis = s.dis := (rfl)
@[simp] theorem State.onReadData_layers (f : _ → _) : (s.onReadData f).layers = s.layers := (rfl)
@[simp] theorem State.onReadData_mem (f : _ → _) : (s.onReadData f).mem = s.mem := (rfl)
@[simp] theorem State.onReadData_dma (f : _ → _) : (s.onReadData f).dma = s.dma := (rfl)
@[simp] theorem State.onReadData_rst (f : _ → _) : (s.onReadData f).rst = s.rst := (rfl)
@[simp] theorem State.onReadData_stk (f : _ → _) : (s.onReadData f).stk = s.stk := (rfl)
@[simp] theorem State.onReadData_cmp (f : _ → _) : (s.onReadData f).cmp = s.cmp := (rfl)
@[simp] theorem State.onReadData_pkg (f : _ → _) : (s.onReadData f).pkg = s.pkg := (rfl)
@[simp] theorem State.rd_onReadData (f : _ → _) (adr : Nat) : (s.onReadData f).rd adr = s.rd adr := (rfl)
@[simp] theorem State.fld_onReadData (f : _ → _) (adr : Nat) (fd : Fld) : (s.onReadData f).fld adr fd = s.fld adr fd := (rfl)
@[simp] theorem State.actv_onReadData (f : _ → _) (adr : Nat) : (s.onReadData f).actv adr = s.actv adr := (rfl)

/-! ### onTime -/
@[simp] theorem State.onTime_pending (f : _ → _) : (s.onTime f).pending = s.pending := (rfl)
@[simp] theorem State.onTime_regs (f : _ → _) : (s.onTime f).regs = s.regs := (rfl)
@[simp] theorem State.onTime_act (f : _ → _) : (s.onTime f).act = s.act := (rfl)
@[simp] theorem State.onTime_snap (f : _ → _) : (s.onTime f).snap = s.snap := (rfl)
@[simp] theorem State.onTime_staged (f : _ → _) : (s.onTime f).staged = s.staged := (rfl)
@[simp] theorem State.onTime_readData (f : _ → _) : (s.onTime f).readData = s.readData := (rfl)
@[simp] theorem State.onTime_outs (f : _ → _) : (s.onTime f).outs = s.outs := (rfl)
@[simp] theorem State.onTime_frac (f : _ → _) : (s.onTime f).frac = s.frac := (rfl)
@[simp] theorem State.onTime_freeCtr (f : _ → _) : (s.onTime f).freeCtr = s.freeCtr := (rfl)
@[simp] theorem State.onTime_store (f : _ → _) : (s.onTime f).store = s.store := (rfl)
@[simp] theorem State.onTime_hostMem (f : _ → _) : (s.onTime f).hostMem = s.hostMem := (rfl)
@[simp] theorem State.onTime_flash (f : _ → _) : (s.onTime f).flash = s.flash := (rfl)
@[simp] theorem State.onTime_evt (f : _ → _) : (s.onTime f).evt = s.evt := (rfl)
@[simp] theorem State.onTime_hif (f : _ → _) : (s.onTime f).hif = s.hif := (rfl)
@[simp] theorem State.onTime_ctxs (f : _ → _) : (s.onTime f).ctxs = s.ctxs := (rfl)
@[simp] theorem State.onTime_billets (f : _ → _) : (s.onTime f).billets = s.billets := (rfl)
@[simp] theorem State.onTime_ports (f : _ → _) : (s.onTime f).ports = s.ports := (rfl)
@[simp] theorem State.onTime_aside (f : _ → _) : (s.onTime f).aside = s.aside := (rfl)
@[simp] theorem State.onTime_served (f : _ → _) : (s.onTime f).served = s.served := (rfl)
@[simp] theorem State.onTime_badLines (f : _ → _) : (s.onTime f).badLines = s.badLines := (rfl)
@[simp] theorem State.onTime_clk (f : _ → _) : (s.onTime f).clk = s.clk := (rfl)
@[simp] theorem State.onTime_plan (f : _ → _) : (s.onTime f).plan = s.plan := (rfl)
@[simp] theorem State.onTime_tbs (f : _ → _) : (s.onTime f).tbs = s.tbs := (rfl)
@[simp] theorem State.onTime_tdc (f : _ → _) : (s.onTime f).tdc = s.tdc := (rfl)
@[simp] theorem State.onTime_cnv (f : _ → _) : (s.onTime f).cnv = s.cnv := (rfl)
@[simp] theorem State.onTime_pg (f : _ → _) : (s.onTime f).pg = s.pg := (rfl)
@[simp] theorem State.onTime_cal (f : _ → _) : (s.onTime f).cal = s.cal := (rfl)
@[simp] theorem State.onTime_ddc (f : _ → _) : (s.onTime f).ddc = s.ddc := (rfl)
@[simp] theorem State.onTime_xfm (f : _ → _) : (s.onTime f).xfm = s.xfm := (rfl)
@[simp] theorem State.onTime_streams (f : _ → _) : (s.onTime f).streams = s.streams := (rfl)
@[simp] theorem State.onTime_frames (f : _ → _) : (s.onTime f).frames = s.frames := (rfl)
@[simp] theorem State.onTime_det (f : _ → _) : (s.onTime f).det = s.det := (rfl)
@[simp] theorem State.onTime_den (f : _ → _) : (s.onTime f).den = s.den := (rfl)
@[simp] theorem State.onTime_tq (f : _ → _) : (s.onTime f).tq = s.tq := (rfl)
@[simp] theorem State.onTime_lt (f : _ → _) : (s.onTime f).lt = s.lt := (rfl)
@[simp] theorem State.onTime_fm (f : _ → _) : (s.onTime f).fm = s.fm := (rfl)
@[simp] theorem State.onTime_bus (f : _ → _) : (s.onTime f).bus = s.bus := (rfl)
@[simp] theorem State.onTime_tmr (f : _ → _) : (s.onTime f).tmr = s.tmr := (rfl)
@[simp] theorem State.onTime_decs (f : _ → _) : (s.onTime f).decs = s.decs := (rfl)
@[simp] theorem State.onTime_au (f : _ → _) : (s.onTime f).au = s.au := (rfl)
@[simp] theorem State.onTime_replay (f : _ → _) : (s.onTime f).replay = s.replay := (rfl)
@[simp] theorem State.onTime_turf (f : _ → _) : (s.onTime f).turf = s.turf := (rfl)
@[simp] theorem State.onTime_clusters (f : _ → _) : (s.onTime f).clusters = s.clusters := (rfl)
@[simp] theorem State.onTime_net (f : _ → _) : (s.onTime f).net = s.net := (rfl)
@[simp] theorem State.onTime_ave (f : _ → _) : (s.onTime f).ave = s.ave := (rfl)
@[simp] theorem State.onTime_slots (f : _ → _) : (s.onTime f).slots = s.slots := (rfl)
@[simp] theorem State.onTime_dis (f : _ → _) : (s.onTime f).dis = s.dis := (rfl)
@[simp] theorem State.onTime_layers (f : _ → _) : (s.onTime f).layers = s.layers := (rfl)
@[simp] theorem State.onTime_mem (f : _ → _) : (s.onTime f).mem = s.mem := (rfl)
@[simp] theorem State.onTime_dma (f : _ → _) : (s.onTime f).dma = s.dma := (rfl)
@[simp] theorem State.onTime_rst (f : _ → _) : (s.onTime f).rst = s.rst := (rfl)
@[simp] theorem State.onTime_stk (f : _ → _) : (s.onTime f).stk = s.stk := (rfl)
@[simp] theorem State.onTime_cmp (f : _ → _) : (s.onTime f).cmp = s.cmp := (rfl)
@[simp] theorem State.onTime_pkg (f : _ → _) : (s.onTime f).pkg = s.pkg := (rfl)
@[simp] theorem State.rd_onTime (f : _ → _) (adr : Nat) : (s.onTime f).rd adr = s.rd adr := (rfl)
@[simp] theorem State.fld_onTime (f : _ → _) (adr : Nat) (fd : Fld) : (s.onTime f).fld adr fd = s.fld adr fd := (rfl)
@[simp] theorem State.actv_onTime (f : _ → _) (adr : Nat) : (s.onTime f).actv adr = s.actv adr := (rfl)

/-! ### onFrac -/
@[simp] theorem State.onFrac_pending (f : _ → _) : (s.onFrac f).pending = s.pending := (rfl)
@[simp] theorem State.onFrac_regs (f : _ → _) : (s.onFrac f).regs = s.regs := (rfl)
@[simp] theorem State.onFrac_act (f : _ → _) : (s.onFrac f).act = s.act := (rfl)
@[simp] theorem State.onFrac_snap (f : _ → _) : (s.onFrac f).snap = s.snap := (rfl)
@[simp] theorem State.onFrac_staged (f : _ → _) : (s.onFrac f).staged = s.staged := (rfl)
@[simp] theorem State.onFrac_readData (f : _ → _) : (s.onFrac f).readData = s.readData := (rfl)
@[simp] theorem State.onFrac_outs (f : _ → _) : (s.onFrac f).outs = s.outs := (rfl)
@[simp] theorem State.onFrac_time (f : _ → _) : (s.onFrac f).time = s.time := (rfl)
@[simp] theorem State.onFrac_freeCtr (f : _ → _) : (s.onFrac f).freeCtr = s.freeCtr := (rfl)
@[simp] theorem State.onFrac_store (f : _ → _) : (s.onFrac f).store = s.store := (rfl)
@[simp] theorem State.onFrac_hostMem (f : _ → _) : (s.onFrac f).hostMem = s.hostMem := (rfl)
@[simp] theorem State.onFrac_flash (f : _ → _) : (s.onFrac f).flash = s.flash := (rfl)
@[simp] theorem State.onFrac_evt (f : _ → _) : (s.onFrac f).evt = s.evt := (rfl)
@[simp] theorem State.onFrac_hif (f : _ → _) : (s.onFrac f).hif = s.hif := (rfl)
@[simp] theorem State.onFrac_ctxs (f : _ → _) : (s.onFrac f).ctxs = s.ctxs := (rfl)
@[simp] theorem State.onFrac_billets (f : _ → _) : (s.onFrac f).billets = s.billets := (rfl)
@[simp] theorem State.onFrac_ports (f : _ → _) : (s.onFrac f).ports = s.ports := (rfl)
@[simp] theorem State.onFrac_aside (f : _ → _) : (s.onFrac f).aside = s.aside := (rfl)
@[simp] theorem State.onFrac_served (f : _ → _) : (s.onFrac f).served = s.served := (rfl)
@[simp] theorem State.onFrac_badLines (f : _ → _) : (s.onFrac f).badLines = s.badLines := (rfl)
@[simp] theorem State.onFrac_clk (f : _ → _) : (s.onFrac f).clk = s.clk := (rfl)
@[simp] theorem State.onFrac_plan (f : _ → _) : (s.onFrac f).plan = s.plan := (rfl)
@[simp] theorem State.onFrac_tbs (f : _ → _) : (s.onFrac f).tbs = s.tbs := (rfl)
@[simp] theorem State.onFrac_tdc (f : _ → _) : (s.onFrac f).tdc = s.tdc := (rfl)
@[simp] theorem State.onFrac_cnv (f : _ → _) : (s.onFrac f).cnv = s.cnv := (rfl)
@[simp] theorem State.onFrac_pg (f : _ → _) : (s.onFrac f).pg = s.pg := (rfl)
@[simp] theorem State.onFrac_cal (f : _ → _) : (s.onFrac f).cal = s.cal := (rfl)
@[simp] theorem State.onFrac_ddc (f : _ → _) : (s.onFrac f).ddc = s.ddc := (rfl)
@[simp] theorem State.onFrac_xfm (f : _ → _) : (s.onFrac f).xfm = s.xfm := (rfl)
@[simp] theorem State.onFrac_streams (f : _ → _) : (s.onFrac f).streams = s.streams := (rfl)
@[simp] theorem State.onFrac_frames (f : _ → _) : (s.onFrac f).frames = s.frames := (rfl)
@[simp] theorem State.onFrac_det (f : _ → _) : (s.onFrac f).det = s.det := (rfl)
@[simp] theorem State.onFrac_den (f : _ → _) : (s.onFrac f).den = s.den := (rfl)
@[simp] theorem State.onFrac_tq (f : _ → _) : (s.onFrac f).tq = s.tq := (rfl)
@[simp] theorem State.onFrac_lt (f : _ → _) : (s.onFrac f).lt = s.lt := (rfl)
@[simp] theorem State.onFrac_fm (f : _ → _) : (s.onFrac f).fm = s.fm := (rfl)
@[simp] theorem State.onFrac_bus (f : _ → _) : (s.onFrac f).bus = s.bus := (rfl)
@[simp] theorem State.onFrac_tmr (f : _ → _) : (s.onFrac f).tmr = s.tmr := (rfl)
@[simp] theorem State.onFrac_decs (f : _ → _) : (s.onFrac f).decs = s.decs := (rfl)
@[simp] theorem State.onFrac_au (f : _ → _) : (s.onFrac f).au = s.au := (rfl)
@[simp] theorem State.onFrac_replay (f : _ → _) : (s.onFrac f).replay = s.replay := (rfl)
@[simp] theorem State.onFrac_turf (f : _ → _) : (s.onFrac f).turf = s.turf := (rfl)
@[simp] theorem State.onFrac_clusters (f : _ → _) : (s.onFrac f).clusters = s.clusters := (rfl)
@[simp] theorem State.onFrac_net (f : _ → _) : (s.onFrac f).net = s.net := (rfl)
@[simp] theorem State.onFrac_ave (f : _ → _) : (s.onFrac f).ave = s.ave := (rfl)
@[simp] theorem State.onFrac_slots (f : _ → _) : (s.onFrac f).slots = s.slots := (rfl)
@[simp] theorem State.onFrac_dis (f : _ → _) : (s.onFrac f).dis = s.dis := (rfl)
@[simp] theorem State.onFrac_layers (f : _ → _) : (s.onFrac f).layers = s.layers := (rfl)
@[simp] theorem State.onFrac_mem (f : _ → _) : (s.onFrac f).mem = s.mem := (rfl)
@[simp] theorem State.onFrac_dma (f : _ → _) : (s.onFrac f).dma = s.dma := (rfl)
@[simp] theorem State.onFrac_rst (f : _ → _) : (s.onFrac f).rst = s.rst := (rfl)
@[simp] theorem State.onFrac_stk (f : _ → _) : (s.onFrac f).stk = s.stk := (rfl)
@[simp] theorem State.onFrac_cmp (f : _ → _) : (s.onFrac f).cmp = s.cmp := (rfl)
@[simp] theorem State.onFrac_pkg (f : _ → _) : (s.onFrac f).pkg = s.pkg := (rfl)
@[simp] theorem State.rd_onFrac (f : _ → _) (adr : Nat) : (s.onFrac f).rd adr = s.rd adr := (rfl)
@[simp] theorem State.fld_onFrac (f : _ → _) (adr : Nat) (fd : Fld) : (s.onFrac f).fld adr fd = s.fld adr fd := (rfl)
@[simp] theorem State.actv_onFrac (f : _ → _) (adr : Nat) : (s.onFrac f).actv adr = s.actv adr := (rfl)

/-! ### onFreeCtr -/
@[simp] theorem State.onFreeCtr_pending (f : _ → _) : (s.onFreeCtr f).pending = s.pending := (rfl)
@[simp] theorem State.onFreeCtr_regs (f : _ → _) : (s.onFreeCtr f).regs = s.regs := (rfl)
@[simp] theorem State.onFreeCtr_act (f : _ → _) : (s.onFreeCtr f).act = s.act := (rfl)
@[simp] theorem State.onFreeCtr_snap (f : _ → _) : (s.onFreeCtr f).snap = s.snap := (rfl)
@[simp] theorem State.onFreeCtr_staged (f : _ → _) : (s.onFreeCtr f).staged = s.staged := (rfl)
@[simp] theorem State.onFreeCtr_readData (f : _ → _) : (s.onFreeCtr f).readData = s.readData := (rfl)
@[simp] theorem State.onFreeCtr_outs (f : _ → _) : (s.onFreeCtr f).outs = s.outs := (rfl)
@[simp] theorem State.onFreeCtr_time (f : _ → _) : (s.onFreeCtr f).time = s.time := (rfl)
@[simp] theorem State.onFreeCtr_frac (f : _ → _) : (s.onFreeCtr f).frac = s.frac := (rfl)
@[simp] theorem State.onFreeCtr_store (f : _ → _) : (s.onFreeCtr f).store = s.store := (rfl)
@[simp] theorem State.onFreeCtr_hostMem (f : _ → _) : (s.onFreeCtr f).hostMem = s.hostMem := (rfl)
@[simp] theorem State.onFreeCtr_flash (f : _ → _) : (s.onFreeCtr f).flash = s.flash := (rfl)
@[simp] theorem State.onFreeCtr_evt (f : _ → _) : (s.onFreeCtr f).evt = s.evt := (rfl)
@[simp] theorem State.onFreeCtr_hif (f : _ → _) : (s.onFreeCtr f).hif = s.hif := (rfl)
@[simp] theorem State.onFreeCtr_ctxs (f : _ → _) : (s.onFreeCtr f).ctxs = s.ctxs := (rfl)
@[simp] theorem State.onFreeCtr_billets (f : _ → _) : (s.onFreeCtr f).billets = s.billets := (rfl)
@[simp] theorem State.onFreeCtr_ports (f : _ → _) : (s.onFreeCtr f).ports = s.ports := (rfl)
@[simp] theorem State.onFreeCtr_aside (f : _ → _) : (s.onFreeCtr f).aside = s.aside := (rfl)
@[simp] theorem State.onFreeCtr_served (f : _ → _) : (s.onFreeCtr f).served = s.served := (rfl)
@[simp] theorem State.onFreeCtr_badLines (f : _ → _) : (s.onFreeCtr f).badLines = s.badLines := (rfl)
@[simp] theorem State.onFreeCtr_clk (f : _ → _) : (s.onFreeCtr f).clk = s.clk := (rfl)
@[simp] theorem State.onFreeCtr_plan (f : _ → _) : (s.onFreeCtr f).plan = s.plan := (rfl)
@[simp] theorem State.onFreeCtr_tbs (f : _ → _) : (s.onFreeCtr f).tbs = s.tbs := (rfl)
@[simp] theorem State.onFreeCtr_tdc (f : _ → _) : (s.onFreeCtr f).tdc = s.tdc := (rfl)
@[simp] theorem State.onFreeCtr_cnv (f : _ → _) : (s.onFreeCtr f).cnv = s.cnv := (rfl)
@[simp] theorem State.onFreeCtr_pg (f : _ → _) : (s.onFreeCtr f).pg = s.pg := (rfl)
@[simp] theorem State.onFreeCtr_cal (f : _ → _) : (s.onFreeCtr f).cal = s.cal := (rfl)
@[simp] theorem State.onFreeCtr_ddc (f : _ → _) : (s.onFreeCtr f).ddc = s.ddc := (rfl)
@[simp] theorem State.onFreeCtr_xfm (f : _ → _) : (s.onFreeCtr f).xfm = s.xfm := (rfl)
@[simp] theorem State.onFreeCtr_streams (f : _ → _) : (s.onFreeCtr f).streams = s.streams := (rfl)
@[simp] theorem State.onFreeCtr_frames (f : _ → _) : (s.onFreeCtr f).frames = s.frames := (rfl)
@[simp] theorem State.onFreeCtr_det (f : _ → _) : (s.onFreeCtr f).det = s.det := (rfl)
@[simp] theorem State.onFreeCtr_den (f : _ → _) : (s.onFreeCtr f).den = s.den := (rfl)
@[simp] theorem State.onFreeCtr_tq (f : _ → _) : (s.onFreeCtr f).tq = s.tq := (rfl)
@[simp] theorem State.onFreeCtr_lt (f : _ → _) : (s.onFreeCtr f).lt = s.lt := (rfl)
@[simp] theorem State.onFreeCtr_fm (f : _ → _) : (s.onFreeCtr f).fm = s.fm := (rfl)
@[simp] theorem State.onFreeCtr_bus (f : _ → _) : (s.onFreeCtr f).bus = s.bus := (rfl)
@[simp] theorem State.onFreeCtr_tmr (f : _ → _) : (s.onFreeCtr f).tmr = s.tmr := (rfl)
@[simp] theorem State.onFreeCtr_decs (f : _ → _) : (s.onFreeCtr f).decs = s.decs := (rfl)
@[simp] theorem State.onFreeCtr_au (f : _ → _) : (s.onFreeCtr f).au = s.au := (rfl)
@[simp] theorem State.onFreeCtr_replay (f : _ → _) : (s.onFreeCtr f).replay = s.replay := (rfl)
@[simp] theorem State.onFreeCtr_turf (f : _ → _) : (s.onFreeCtr f).turf = s.turf := (rfl)
@[simp] theorem State.onFreeCtr_clusters (f : _ → _) : (s.onFreeCtr f).clusters = s.clusters := (rfl)
@[simp] theorem State.onFreeCtr_net (f : _ → _) : (s.onFreeCtr f).net = s.net := (rfl)
@[simp] theorem State.onFreeCtr_ave (f : _ → _) : (s.onFreeCtr f).ave = s.ave := (rfl)
@[simp] theorem State.onFreeCtr_slots (f : _ → _) : (s.onFreeCtr f).slots = s.slots := (rfl)
@[simp] theorem State.onFreeCtr_dis (f : _ → _) : (s.onFreeCtr f).dis = s.dis := (rfl)
@[simp] theorem State.onFreeCtr_layers (f : _ → _) : (s.onFreeCtr f).layers = s.layers := (rfl)
@[simp] theorem State.onFreeCtr_mem (f : _ → _) : (s.onFreeCtr f).mem = s.mem := (rfl)
@[simp] theorem State.onFreeCtr_dma (f : _ → _) : (s.onFreeCtr f).dma = s.dma := (rfl)
@[simp] theorem State.onFreeCtr_rst (f : _ → _) : (s.onFreeCtr f).rst = s.rst := (rfl)
@[simp] theorem State.onFreeCtr_stk (f : _ → _) : (s.onFreeCtr f).stk = s.stk := (rfl)
@[simp] theorem State.onFreeCtr_cmp (f : _ → _) : (s.onFreeCtr f).cmp = s.cmp := (rfl)
@[simp] theorem State.onFreeCtr_pkg (f : _ → _) : (s.onFreeCtr f).pkg = s.pkg := (rfl)
@[simp] theorem State.rd_onFreeCtr (f : _ → _) (adr : Nat) : (s.onFreeCtr f).rd adr = s.rd adr := (rfl)
@[simp] theorem State.fld_onFreeCtr (f : _ → _) (adr : Nat) (fd : Fld) : (s.onFreeCtr f).fld adr fd = s.fld adr fd := (rfl)
@[simp] theorem State.actv_onFreeCtr (f : _ → _) (adr : Nat) : (s.onFreeCtr f).actv adr = s.actv adr := (rfl)

/-! ### onEvt -/
@[simp] theorem State.onEvt_pending (f : _ → _) : (s.onEvt f).pending = s.pending := (rfl)
@[simp] theorem State.onEvt_regs (f : _ → _) : (s.onEvt f).regs = s.regs := (rfl)
@[simp] theorem State.onEvt_act (f : _ → _) : (s.onEvt f).act = s.act := (rfl)
@[simp] theorem State.onEvt_snap (f : _ → _) : (s.onEvt f).snap = s.snap := (rfl)
@[simp] theorem State.onEvt_staged (f : _ → _) : (s.onEvt f).staged = s.staged := (rfl)
@[simp] theorem State.onEvt_readData (f : _ → _) : (s.onEvt f).readData = s.readData := (rfl)
@[simp] theorem State.onEvt_outs (f : _ → _) : (s.onEvt f).outs = s.outs := (rfl)
@[simp] theorem State.onEvt_time (f : _ → _) : (s.onEvt f).time = s.time := (rfl)
@[simp] theorem State.onEvt_frac (f : _ → _) : (s.onEvt f).frac = s.frac := (rfl)
@[simp] theorem State.onEvt_freeCtr (f : _ → _) : (s.onEvt f).freeCtr = s.freeCtr := (rfl)
@[simp] theorem State.onEvt_store (f : _ → _) : (s.onEvt f).store = s.store := (rfl)
@[simp] theorem State.onEvt_hostMem (f : _ → _) : (s.onEvt f).hostMem = s.hostMem := (rfl)
@[simp] theorem State.onEvt_flash (f : _ → _) : (s.onEvt f).flash = s.flash := (rfl)
@[simp] theorem State.onEvt_hif (f : _ → _) : (s.onEvt f).hif = s.hif := (rfl)
@[simp] theorem State.onEvt_ctxs (f : _ → _) : (s.onEvt f).ctxs = s.ctxs := (rfl)
@[simp] theorem State.onEvt_billets (f : _ → _) : (s.onEvt f).billets = s.billets := (rfl)
@[simp] theorem State.onEvt_ports (f : _ → _) : (s.onEvt f).ports = s.ports := (rfl)
@[simp] theorem State.onEvt_aside (f : _ → _) : (s.onEvt f).aside = s.aside := (rfl)
@[simp] theorem State.onEvt_served (f : _ → _) : (s.onEvt f).served = s.served := (rfl)
@[simp] theorem State.onEvt_badLines (f : _ → _) : (s.onEvt f).badLines = s.badLines := (rfl)
@[simp] theorem State.onEvt_clk (f : _ → _) : (s.onEvt f).clk = s.clk := (rfl)
@[simp] theorem State.onEvt_plan (f : _ → _) : (s.onEvt f).plan = s.plan := (rfl)
@[simp] theorem State.onEvt_tbs (f : _ → _) : (s.onEvt f).tbs = s.tbs := (rfl)
@[simp] theorem State.onEvt_tdc (f : _ → _) : (s.onEvt f).tdc = s.tdc := (rfl)
@[simp] theorem State.onEvt_cnv (f : _ → _) : (s.onEvt f).cnv = s.cnv := (rfl)
@[simp] theorem State.onEvt_pg (f : _ → _) : (s.onEvt f).pg = s.pg := (rfl)
@[simp] theorem State.onEvt_cal (f : _ → _) : (s.onEvt f).cal = s.cal := (rfl)
@[simp] theorem State.onEvt_ddc (f : _ → _) : (s.onEvt f).ddc = s.ddc := (rfl)
@[simp] theorem State.onEvt_xfm (f : _ → _) : (s.onEvt f).xfm = s.xfm := (rfl)
@[simp] theorem State.onEvt_streams (f : _ → _) : (s.onEvt f).streams = s.streams := (rfl)
@[simp] theorem State.onEvt_frames (f : _ → _) : (s.onEvt f).frames = s.frames := (rfl)
@[simp] theorem State.onEvt_det (f : _ → _) : (s.onEvt f).det = s.det := (rfl)
@[simp] theorem State.onEvt_den (f : _ → _) : (s.onEvt f).den = s.den := (rfl)
@[simp] theorem State.onEvt_tq (f : _ → _) : (s.onEvt f).tq = s.tq := (rfl)
@[simp] theorem State.onEvt_lt (f : _ → _) : (s.onEvt f).lt = s.lt := (rfl)
@[simp] theorem State.onEvt_fm (f : _ → _) : (s.onEvt f).fm = s.fm := (rfl)
@[simp] theorem State.onEvt_bus (f : _ → _) : (s.onEvt f).bus = s.bus := (rfl)
@[simp] theorem State.onEvt_tmr (f : _ → _) : (s.onEvt f).tmr = s.tmr := (rfl)
@[simp] theorem State.onEvt_decs (f : _ → _) : (s.onEvt f).decs = s.decs := (rfl)
@[simp] theorem State.onEvt_au (f : _ → _) : (s.onEvt f).au = s.au := (rfl)
@[simp] theorem State.onEvt_replay (f : _ → _) : (s.onEvt f).replay = s.replay := (rfl)
@[simp] theorem State.onEvt_turf (f : _ → _) : (s.onEvt f).turf = s.turf := (rfl)
@[simp] theorem State.onEvt_clusters (f : _ → _) : (s.onEvt f).clusters = s.clusters := (rfl)
@[simp] theorem State.onEvt_net (f : _ → _) : (s.onEvt f).net = s.net := (rfl)
@[simp] theorem State.onEvt_ave (f : _ → _) : (s.onEvt f).ave = s.ave := (rfl)
@[simp] theorem State.onEvt_slots (f : _ → _) : (s.onEvt f).slots = s.slots := (rfl)
@[simp] theorem State.onEvt_dis (f : _ → _) : (s.onEvt f).dis = s.dis := (rfl)
@[simp] theorem State.onEvt_layers (f : _ → _) : (s.onEvt f).layers = s.layers := (rfl)
@[simp] theorem State.onEvt_mem (f : _ → _) : (s.onEvt f).mem = s.mem := (rfl)
@[simp] theorem State.onEvt_dma (f : _ → _) : (s.onEvt f).dma = s.dma := (rfl)
@[simp] theorem State.onEvt_rst (f : _ → _) : (s.onEvt f).rst = s.rst := (rfl)
@[simp] theorem State.onEvt_stk (f : _ → _) : (s.onEvt f).stk = s.stk := (rfl)
@[simp] theorem State.onEvt_cmp (f : _ → _) : (s.onEvt f).cmp = s.cmp := (rfl)
@[simp] theorem State.onEvt_pkg (f : _ → _) : (s.onEvt f).pkg = s.pkg := (rfl)
@[simp] theorem State.rd_onEvt (f : _ → _) (adr : Nat) : (s.onEvt f).rd adr = s.rd adr := (rfl)
@[simp] theorem State.fld_onEvt (f : _ → _) (adr : Nat) (fd : Fld) : (s.onEvt f).fld adr fd = s.fld adr fd := (rfl)
@[simp] theorem State.actv_onEvt (f : _ → _) (adr : Nat) : (s.onEvt f).actv adr = s.actv adr := (rfl)

/-! ### onPorts -/
@[simp] theorem State.onPorts_pending (f : _ → _) : (s.onPorts f).pending = s.pending := (rfl)
@[simp] theorem State.onPorts_regs (f : _ → _) : (s.onPorts f).regs = s.regs := (rfl)
@[simp] theorem State.onPorts_act (f : _ → _) : (s.onPorts f).act = s.act := (rfl)
@[simp] theorem State.onPorts_snap (f : _ → _) : (s.onPorts f).snap = s.snap := (rfl)
@[simp] theorem State.onPorts_staged (f : _ → _) : (s.onPorts f).staged = s.staged := (rfl)
@[simp] theorem State.onPorts_readData (f : _ → _) : (s.onPorts f).readData = s.readData := (rfl)
@[simp] theorem State.onPorts_outs (f : _ → _) : (s.onPorts f).outs = s.outs := (rfl)
@[simp] theorem State.onPorts_time (f : _ → _) : (s.onPorts f).time = s.time := (rfl)
@[simp] theorem State.onPorts_frac (f : _ → _) : (s.onPorts f).frac = s.frac := (rfl)
@[simp] theorem State.onPorts_freeCtr (f : _ → _) : (s.onPorts f).freeCtr = s.freeCtr := (rfl)
@[simp] theorem State.onPorts_store (f : _ → _) : (s.onPorts f).store = s.store := (rfl)
@[simp] theorem State.onPorts_hostMem (f : _ → _) : (s.onPorts f).hostMem = s.hostMem := (rfl)
@[simp] theorem State.onPorts_flash (f : _ → _) : (s.onPorts f).flash = s.flash := (rfl)
@[simp] theorem State.onPorts_evt (f : _ → _) : (s.onPorts f).evt = s.evt := (rfl)
@[simp] theorem State.onPorts_hif (f : _ → _) : (s.onPorts f).hif = s.hif := (rfl)
@[simp] theorem State.onPorts_ctxs (f : _ → _) : (s.onPorts f).ctxs = s.ctxs := (rfl)
@[simp] theorem State.onPorts_billets (f : _ → _) : (s.onPorts f).billets = s.billets := (rfl)
@[simp] theorem State.onPorts_aside (f : _ → _) : (s.onPorts f).aside = s.aside := (rfl)
@[simp] theorem State.onPorts_served (f : _ → _) : (s.onPorts f).served = s.served := (rfl)
@[simp] theorem State.onPorts_badLines (f : _ → _) : (s.onPorts f).badLines = s.badLines := (rfl)
@[simp] theorem State.onPorts_clk (f : _ → _) : (s.onPorts f).clk = s.clk := (rfl)
@[simp] theorem State.onPorts_plan (f : _ → _) : (s.onPorts f).plan = s.plan := (rfl)
@[simp] theorem State.onPorts_tbs (f : _ → _) : (s.onPorts f).tbs = s.tbs := (rfl)
@[simp] theorem State.onPorts_tdc (f : _ → _) : (s.onPorts f).tdc = s.tdc := (rfl)
@[simp] theorem State.onPorts_cnv (f : _ → _) : (s.onPorts f).cnv = s.cnv := (rfl)
@[simp] theorem State.onPorts_pg (f : _ → _) : (s.onPorts f).pg = s.pg := (rfl)
@[simp] theorem State.onPorts_cal (f : _ → _) : (s.onPorts f).cal = s.cal := (rfl)
@[simp] theorem State.onPorts_ddc (f : _ → _) : (s.onPorts f).ddc = s.ddc := (rfl)
@[simp] theorem State.onPorts_xfm (f : _ → _) : (s.onPorts f).xfm = s.xfm := (rfl)
@[simp] theorem State.onPorts_streams (f : _ → _) : (s.onPorts f).streams = s.streams := (rfl)
@[simp] theorem State.onPorts_frames (f : _ → _) : (s.onPorts f).frames = s.frames := (rfl)
@[simp] theorem State.onPorts_det (f : _ → _) : (s.onPorts f).det = s.det := (rfl)
@[simp] theorem State.onPorts_den (f : _ → _) : (s.onPorts f).den = s.den := (rfl)
@[simp] theorem State.onPorts_tq (f : _ → _) : (s.onPorts f).tq = s.tq := (rfl)
@[simp] theorem State.onPorts_lt (f : _ → _) : (s.onPorts f).lt = s.lt := (rfl)
@[simp] theorem State.onPorts_fm (f : _ → _) : (s.onPorts f).fm = s.fm := (rfl)
@[simp] theorem State.onPorts_bus (f : _ → _) : (s.onPorts f).bus = s.bus := (rfl)
@[simp] theorem State.onPorts_tmr (f : _ → _) : (s.onPorts f).tmr = s.tmr := (rfl)
@[simp] theorem State.onPorts_decs (f : _ → _) : (s.onPorts f).decs = s.decs := (rfl)
@[simp] theorem State.onPorts_au (f : _ → _) : (s.onPorts f).au = s.au := (rfl)
@[simp] theorem State.onPorts_replay (f : _ → _) : (s.onPorts f).replay = s.replay := (rfl)
@[simp] theorem State.onPorts_turf (f : _ → _) : (s.onPorts f).turf = s.turf := (rfl)
@[simp] theorem State.onPorts_clusters (f : _ → _) : (s.onPorts f).clusters = s.clusters := (rfl)
@[simp] theorem State.onPorts_net (f : _ → _) : (s.onPorts f).net = s.net := (rfl)
@[simp] theorem State.onPorts_ave (f : _ → _) : (s.onPorts f).ave = s.ave := (rfl)
@[simp] theorem State.onPorts_slots (f : _ → _) : (s.onPorts f).slots = s.slots := (rfl)
@[simp] theorem State.onPorts_dis (f : _ → _) : (s.onPorts f).dis = s.dis := (rfl)
@[simp] theorem State.onPorts_layers (f : _ → _) : (s.onPorts f).layers = s.layers := (rfl)
@[simp] theorem State.onPorts_mem (f : _ → _) : (s.onPorts f).mem = s.mem := (rfl)
@[simp] theorem State.onPorts_dma (f : _ → _) : (s.onPorts f).dma = s.dma := (rfl)
@[simp] theorem State.onPorts_rst (f : _ → _) : (s.onPorts f).rst = s.rst := (rfl)
@[simp] theorem State.onPorts_stk (f : _ → _) : (s.onPorts f).stk = s.stk := (rfl)
@[simp] theorem State.onPorts_cmp (f : _ → _) : (s.onPorts f).cmp = s.cmp := (rfl)
@[simp] theorem State.onPorts_pkg (f : _ → _) : (s.onPorts f).pkg = s.pkg := (rfl)
@[simp] theorem State.rd_onPorts (f : _ → _) (adr : Nat) : (s.onPorts f).rd adr = s.rd adr := (rfl)
@[simp] theorem State.fld_onPorts (f : _ → _) (adr : Nat) (fd : Fld) : (s.onPorts f).fld adr fd = s.fld adr fd := (rfl)
@[simp] theorem State.actv_onPorts (f : _ → _) (adr : Nat) : (s.onPorts f).actv adr = s.actv adr := (rfl)

/-! ### onAside -/
@[simp] theorem State.onAside_pending (f : _ → _) : (s.onAside f).pending = s.pending := (rfl)
@[simp] theorem State.onAside_regs (f : _ → _) : (s.onAside f).regs = s.regs := (rfl)
@[simp] theorem State.onAside_act (f : _ → _) : (s.onAside f).act = s.act := (rfl)
@[simp] theorem State.onAside_snap (f : _ → _) : (s.onAside f).snap = s.snap := (rfl)
@[simp] theorem State.onAside_staged (f : _ → _) : (s.onAside f).staged = s.staged := (rfl)
@[simp] theorem State.onAside_readData (f : _ → _) : (s.onAside f).readData = s.readData := (rfl)
@[simp] theorem State.onAside_outs (f : _ → _) : (s.onAside f).outs = s.outs := (rfl)
@[simp] theorem State.onAside_time (f : _ → _) : (s.onAside f).time = s.time := (rfl)
@[simp] theorem State.onAside_frac (f : _ → _) : (s.onAside f).frac = s.frac := (rfl)
@[simp] theorem State.onAside_freeCtr (f : _ → _) : (s.onAside f).freeCtr = s.freeCtr := (rfl)
@[simp] theorem State.onAside_store (f : _ → _) : (s.onAside f).store = s.store := (rfl)
@[simp] theorem State.onAside_hostMem (f : _ → _) : (s.onAside f).hostMem = s.hostMem := (rfl)
@[simp] theorem State.onAside_flash (f : _ → _) : (s.onAside f).flash = s.flash := (rfl)
@[simp] theorem State.onAside_evt (f : _ → _) : (s.onAside f).evt = s.evt := (rfl)
@[simp] theorem State.onAside_hif (f : _ → _) : (s.onAside f).hif = s.hif := (rfl)
@[simp] theorem State.onAside_ctxs (f : _ → _) : (s.onAside f).ctxs = s.ctxs := (rfl)
@[simp] theorem State.onAside_billets (f : _ → _) : (s.onAside f).billets = s.billets := (rfl)
@[simp] theorem State.onAside_ports (f : _ → _) : (s.onAside f).ports = s.ports := (rfl)
@[simp] theorem State.onAside_served (f : _ → _) : (s.onAside f).served = s.served := (rfl)
@[simp] theorem State.onAside_badLines (f : _ → _) : (s.onAside f).badLines = s.badLines := (rfl)
@[simp] theorem State.onAside_clk (f : _ → _) : (s.onAside f).clk = s.clk := (rfl)
@[simp] theorem State.onAside_plan (f : _ → _) : (s.onAside f).plan = s.plan := (rfl)
@[simp] theorem State.onAside_tbs (f : _ → _) : (s.onAside f).tbs = s.tbs := (rfl)
@[simp] theorem State.onAside_tdc (f : _ → _) : (s.onAside f).tdc = s.tdc := (rfl)
@[simp] theorem State.onAside_cnv (f : _ → _) : (s.onAside f).cnv = s.cnv := (rfl)
@[simp] theorem State.onAside_pg (f : _ → _) : (s.onAside f).pg = s.pg := (rfl)
@[simp] theorem State.onAside_cal (f : _ → _) : (s.onAside f).cal = s.cal := (rfl)
@[simp] theorem State.onAside_ddc (f : _ → _) : (s.onAside f).ddc = s.ddc := (rfl)
@[simp] theorem State.onAside_xfm (f : _ → _) : (s.onAside f).xfm = s.xfm := (rfl)
@[simp] theorem State.onAside_streams (f : _ → _) : (s.onAside f).streams = s.streams := (rfl)
@[simp] theorem State.onAside_frames (f : _ → _) : (s.onAside f).frames = s.frames := (rfl)
@[simp] theorem State.onAside_det (f : _ → _) : (s.onAside f).det = s.det := (rfl)
@[simp] theorem State.onAside_den (f : _ → _) : (s.onAside f).den = s.den := (rfl)
@[simp] theorem State.onAside_tq (f : _ → _) : (s.onAside f).tq = s.tq := (rfl)
@[simp] theorem State.onAside_lt (f : _ → _) : (s.onAside f).lt = s.lt := (rfl)
@[simp] theorem State.onAside_fm (f : _ → _) : (s.onAside f).fm = s.fm := (rfl)
@[simp] theorem State.onAside_bus (f : _ → _) : (s.onAside f).bus = s.bus := (rfl)
@[simp] theorem State.onAside_tmr (f : _ → _) : (s.onAside f).tmr = s.tmr := (rfl)
@[simp] theorem State.onAside_decs (f : _ → _) : (s.onAside f).decs = s.decs := (rfl)
@[simp] theorem State.onAside_au (f : _ → _) : (s.onAside f).au = s.au := (rfl)
@[simp] theorem State.onAside_replay (f : _ → _) : (s.onAside f).replay = s.replay := (rfl)
@[simp] theorem State.onAside_turf (f : _ → _) : (s.onAside f).turf = s.turf := (rfl)
@[simp] theorem State.onAside_clusters (f : _ → _) : (s.onAside f).clusters = s.clusters := (rfl)
@[simp] theorem State.onAside_net (f : _ → _) : (s.onAside f).net = s.net := (rfl)
@[simp] theorem State.onAside_ave (f : _ → _) : (s.onAside f).ave = s.ave := (rfl)
@[simp] theorem State.onAside_slots (f : _ → _) : (s.onAside f).slots = s.slots := (rfl)
@[simp] theorem State.onAside_dis (f : _ → _) : (s.onAside f).dis = s.dis := (rfl)
@[simp] theorem State.onAside_layers (f : _ → _) : (s.onAside f).layers = s.layers := (rfl)
@[simp] theorem State.onAside_mem (f : _ → _) : (s.onAside f).mem = s.mem := (rfl)
@[simp] theorem State.onAside_dma (f : _ → _) : (s.onAside f).dma = s.dma := (rfl)
@[simp] theorem State.onAside_rst (f : _ → _) : (s.onAside f).rst = s.rst := (rfl)
@[simp] theorem State.onAside_stk (f : _ → _) : (s.onAside f).stk = s.stk := (rfl)
@[simp] theorem State.onAside_cmp (f : _ → _) : (s.onAside f).cmp = s.cmp := (rfl)
@[simp] theorem State.onAside_pkg (f : _ → _) : (s.onAside f).pkg = s.pkg := (rfl)
@[simp] theorem State.rd_onAside (f : _ → _) (adr : Nat) : (s.onAside f).rd adr = s.rd adr := (rfl)
@[simp] theorem State.fld_onAside (f : _ → _) (adr : Nat) (fd : Fld) : (s.onAside f).fld adr fd = s.fld adr fd := (rfl)
@[simp] theorem State.actv_onAside (f : _ → _) (adr : Nat) : (s.onAside f).actv adr = s.actv adr := (rfl)

/-! ### onBadLines -/
@[simp] theorem State.onBadLines_pending (f : _ → _) : (s.onBadLines f).pending = s.pending := (rfl)
@[simp] theorem State.onBadLines_regs (f : _ → _) : (s.onBadLines f).regs = s.regs := (rfl)
@[simp] theorem State.onBadLines_act (f : _ → _) : (s.onBadLines f).act = s.act := (rfl)
@[simp] theorem State.onBadLines_snap (f : _ → _) : (s.onBadLines f).snap = s.snap := (rfl)
@[simp] theorem State.onBadLines_staged (f : _ → _) : (s.onBadLines f).staged = s.staged := (rfl)
@[simp] theorem State.onBadLines_readData (f : _ → _) : (s.onBadLines f).readData = s.readData := (rfl)
@[simp] theorem State.onBadLines_outs (f : _ → _) : (s.onBadLines f).outs = s.outs := (rfl)
@[simp] theorem State.onBadLines_time (f : _ → _) : (s.onBadLines f).time = s.time := (rfl)
@[simp] theorem State.onBadLines_frac (f : _ → _) : (s.onBadLines f).frac = s.frac := (rfl)
@[simp] theorem State.onBadLines_freeCtr (f : _ → _) : (s.onBadLines f).freeCtr = s.freeCtr := (rfl)
@[simp] theorem State.onBadLines_store (f : _ → _) : (s.onBadLines f).store = s.store := (rfl)
@[simp] theorem State.onBadLines_hostMem (f : _ → _) : (s.onBadLines f).hostMem = s.hostMem := (rfl)
@[simp] theorem State.onBadLines_flash (f : _ → _) : (s.onBadLines f).flash = s.flash := (rfl)
@[simp] theorem State.onBadLines_evt (f : _ → _) : (s.onBadLines f).evt = s.evt := (rfl)
@[simp] theorem State.onBadLines_hif (f : _ → _) : (s.onBadLines f).hif = s.hif := (rfl)
@[simp] theorem State.onBadLines_ctxs (f : _ → _) : (s.onBadLines f).ctxs = s.ctxs := (rfl)
@[simp] theorem State.onBadLines_billets (f : _ → _) : (s.onBadLines f).billets = s.billets := (rfl)
@[simp] theorem State.onBadLines_ports (f : _ → _) : (s.onBadLines f).ports = s.ports := (rfl)
@[simp] theorem State.onBadLines_aside (f : _ → _) : (s.onBadLines f).aside = s.aside := (rfl)
@[simp] theorem State.onBadLines_served (f : _ → _) : (s.onBadLines f).served = s.served := (rfl)
@[simp] theorem State.onBadLines_clk (f : _ → _) : (s.onBadLines f).clk = s.clk := (rfl)
@[simp] theorem State.onBadLines_plan (f : _ → _) : (s.onBadLines f).plan = s.plan := (rfl)
@[simp] theorem State.onBadLines_tbs (f : _ → _) : (s.onBadLines f).tbs = s.tbs := (rfl)
@[simp] theorem State.onBadLines_tdc (f : _ → _) : (s.onBadLines f).tdc = s.tdc := (rfl)
@[simp] theorem State.onBadLines_cnv (f : _ → _) : (s.onBadLines f).cnv = s.cnv := (rfl)
@[simp] theorem State.onBadLines_pg (f : _ → _) : (s.onBadLines f).pg = s.pg := (rfl)
@[simp] theorem State.onBadLines_cal (f : _ → _) : (s.onBadLines f).cal = s.cal := (rfl)
@[simp] theorem State.onBadLines_ddc (f : _ → _) : (s.onBadLines f).ddc = s.ddc := (rfl)
@[simp] theorem State.onBadLines_xfm (f : _ → _) : (s.onBadLines f).xfm = s.xfm := (rfl)
@[simp] theorem State.onBadLines_streams (f : _ → _) : (s.onBadLines f).streams = s.streams := (rfl)
@[simp] theorem State.onBadLines_frames (f : _ → _) : (s.onBadLines f).frames = s.frames := (rfl)
@[simp] theorem State.onBadLines_det (f : _ → _) : (s.onBadLines f).det = s.det := (rfl)
@[simp] theorem State.onBadLines_den (f : _ → _) : (s.onBadLines f).den = s.den := (rfl)
@[simp] theorem State.onBadLines_tq (f : _ → _) : (s.onBadLines f).tq = s.tq := (rfl)
@[simp] theorem State.onBadLines_lt (f : _ → _) : (s.onBadLines f).lt = s.lt := (rfl)
@[simp] theorem State.onBadLines_fm (f : _ → _) : (s.onBadLines f).fm = s.fm := (rfl)
@[simp] theorem State.onBadLines_bus (f : _ → _) : (s.onBadLines f).bus = s.bus := (rfl)
@[simp] theorem State.onBadLines_tmr (f : _ → _) : (s.onBadLines f).tmr = s.tmr := (rfl)
@[simp] theorem State.onBadLines_decs (f : _ → _) : (s.onBadLines f).decs = s.decs := (rfl)
@[simp] theorem State.onBadLines_au (f : _ → _) : (s.onBadLines f).au = s.au := (rfl)
@[simp] theorem State.onBadLines_replay (f : _ → _) : (s.onBadLines f).replay = s.replay := (rfl)
@[simp] theorem State.onBadLines_turf (f : _ → _) : (s.onBadLines f).turf = s.turf := (rfl)
@[simp] theorem State.onBadLines_clusters (f : _ → _) : (s.onBadLines f).clusters = s.clusters := (rfl)
@[simp] theorem State.onBadLines_net (f : _ → _) : (s.onBadLines f).net = s.net := (rfl)
@[simp] theorem State.onBadLines_ave (f : _ → _) : (s.onBadLines f).ave = s.ave := (rfl)
@[simp] theorem State.onBadLines_slots (f : _ → _) : (s.onBadLines f).slots = s.slots := (rfl)
@[simp] theorem State.onBadLines_dis (f : _ → _) : (s.onBadLines f).dis = s.dis := (rfl)
@[simp] theorem State.onBadLines_layers (f : _ → _) : (s.onBadLines f).layers = s.layers := (rfl)
@[simp] theorem State.onBadLines_mem (f : _ → _) : (s.onBadLines f).mem = s.mem := (rfl)
@[simp] theorem State.onBadLines_dma (f : _ → _) : (s.onBadLines f).dma = s.dma := (rfl)
@[simp] theorem State.onBadLines_rst (f : _ → _) : (s.onBadLines f).rst = s.rst := (rfl)
@[simp] theorem State.onBadLines_stk (f : _ → _) : (s.onBadLines f).stk = s.stk := (rfl)
@[simp] theorem State.onBadLines_cmp (f : _ → _) : (s.onBadLines f).cmp = s.cmp := (rfl)
@[simp] theorem State.onBadLines_pkg (f : _ → _) : (s.onBadLines f).pkg = s.pkg := (rfl)
@[simp] theorem State.rd_onBadLines (f : _ → _) (adr : Nat) : (s.onBadLines f).rd adr = s.rd adr := (rfl)
@[simp] theorem State.fld_onBadLines (f : _ → _) (adr : Nat) (fd : Fld) : (s.onBadLines f).fld adr fd = s.fld adr fd := (rfl)
@[simp] theorem State.actv_onBadLines (f : _ → _) (adr : Nat) : (s.onBadLines f).actv adr = s.actv adr := (rfl)

/-! ### onPlan -/
@[simp] theorem State.onPlan_pending (f : _ → _) : (s.onPlan f).pending = s.pending := (rfl)
@[simp] theorem State.onPlan_regs (f : _ → _) : (s.onPlan f).regs = s.regs := (rfl)
@[simp] theorem State.onPlan_act (f : _ → _) : (s.onPlan f).act = s.act := (rfl)
@[simp] theorem State.onPlan_snap (f : _ → _) : (s.onPlan f).snap = s.snap := (rfl)
@[simp] theorem State.onPlan_staged (f : _ → _) : (s.onPlan f).staged = s.staged := (rfl)
@[simp] theorem State.onPlan_readData (f : _ → _) : (s.onPlan f).readData = s.readData := (rfl)
@[simp] theorem State.onPlan_outs (f : _ → _) : (s.onPlan f).outs = s.outs := (rfl)
@[simp] theorem State.onPlan_time (f : _ → _) : (s.onPlan f).time = s.time := (rfl)
@[simp] theorem State.onPlan_frac (f : _ → _) : (s.onPlan f).frac = s.frac := (rfl)
@[simp] theorem State.onPlan_freeCtr (f : _ → _) : (s.onPlan f).freeCtr = s.freeCtr := (rfl)
@[simp] theorem State.onPlan_store (f : _ → _) : (s.onPlan f).store = s.store := (rfl)
@[simp] theorem State.onPlan_hostMem (f : _ → _) : (s.onPlan f).hostMem = s.hostMem := (rfl)
@[simp] theorem State.onPlan_flash (f : _ → _) : (s.onPlan f).flash = s.flash := (rfl)
@[simp] theorem State.onPlan_evt (f : _ → _) : (s.onPlan f).evt = s.evt := (rfl)
@[simp] theorem State.onPlan_hif (f : _ → _) : (s.onPlan f).hif = s.hif := (rfl)
@[simp] theorem State.onPlan_ctxs (f : _ → _) : (s.onPlan f).ctxs = s.ctxs := (rfl)
@[simp] theorem State.onPlan_billets (f : _ → _) : (s.onPlan f).billets = s.billets := (rfl)
@[simp] theorem State.onPlan_ports (f : _ → _) : (s.onPlan f).ports = s.ports := (rfl)
@[simp] theorem State.onPlan_aside (f : _ → _) : (s.onPlan f).aside = s.aside := (rfl)
@[simp] theorem State.onPlan_served (f : _ → _) : (s.onPlan f).served = s.served := (rfl)
@[simp] theorem State.onPlan_badLines (f : _ → _) : (s.onPlan f).badLines = s.badLines := (rfl)
@[simp] theorem State.onPlan_clk (f : _ → _) : (s.onPlan f).clk = s.clk := (rfl)
@[simp] theorem State.onPlan_tbs (f : _ → _) : (s.onPlan f).tbs = s.tbs := (rfl)
@[simp] theorem State.onPlan_tdc (f : _ → _) : (s.onPlan f).tdc = s.tdc := (rfl)
@[simp] theorem State.onPlan_cnv (f : _ → _) : (s.onPlan f).cnv = s.cnv := (rfl)
@[simp] theorem State.onPlan_pg (f : _ → _) : (s.onPlan f).pg = s.pg := (rfl)
@[simp] theorem State.onPlan_cal (f : _ → _) : (s.onPlan f).cal = s.cal := (rfl)
@[simp] theorem State.onPlan_ddc (f : _ → _) : (s.onPlan f).ddc = s.ddc := (rfl)
@[simp] theorem State.onPlan_xfm (f : _ → _) : (s.onPlan f).xfm = s.xfm := (rfl)
@[simp] theorem State.onPlan_streams (f : _ → _) : (s.onPlan f).streams = s.streams := (rfl)
@[simp] theorem State.onPlan_frames (f : _ → _) : (s.onPlan f).frames = s.frames := (rfl)
@[simp] theorem State.onPlan_det (f : _ → _) : (s.onPlan f).det = s.det := (rfl)
@[simp] theorem State.onPlan_den (f : _ → _) : (s.onPlan f).den = s.den := (rfl)
@[simp] theorem State.onPlan_tq (f : _ → _) : (s.onPlan f).tq = s.tq := (rfl)
@[simp] theorem State.onPlan_lt (f : _ → _) : (s.onPlan f).lt = s.lt := (rfl)
@[simp] theorem State.onPlan_fm (f : _ → _) : (s.onPlan f).fm = s.fm := (rfl)
@[simp] theorem State.onPlan_bus (f : _ → _) : (s.onPlan f).bus = s.bus := (rfl)
@[simp] theorem State.onPlan_tmr (f : _ → _) : (s.onPlan f).tmr = s.tmr := (rfl)
@[simp] theorem State.onPlan_decs (f : _ → _) : (s.onPlan f).decs = s.decs := (rfl)
@[simp] theorem State.onPlan_au (f : _ → _) : (s.onPlan f).au = s.au := (rfl)
@[simp] theorem State.onPlan_replay (f : _ → _) : (s.onPlan f).replay = s.replay := (rfl)
@[simp] theorem State.onPlan_turf (f : _ → _) : (s.onPlan f).turf = s.turf := (rfl)
@[simp] theorem State.onPlan_clusters (f : _ → _) : (s.onPlan f).clusters = s.clusters := (rfl)
@[simp] theorem State.onPlan_net (f : _ → _) : (s.onPlan f).net = s.net := (rfl)
@[simp] theorem State.onPlan_ave (f : _ → _) : (s.onPlan f).ave = s.ave := (rfl)
@[simp] theorem State.onPlan_slots (f : _ → _) : (s.onPlan f).slots = s.slots := (rfl)
@[simp] theorem State.onPlan_dis (f : _ → _) : (s.onPlan f).dis = s.dis := (rfl)
@[simp] theorem State.onPlan_layers (f : _ → _) : (s.onPlan f).layers = s.layers := (rfl)
@[simp] theorem State.onPlan_mem (f : _ → _) : (s.onPlan f).mem = s.mem := (rfl)
@[simp] theorem State.onPlan_dma (f : _ → _) : (s.onPlan f).dma = s.dma := (rfl)
@[simp] theorem State.onPlan_rst (f : _ → _) : (s.onPlan f).rst = s.rst := (rfl)
@[simp] theorem State.onPlan_stk (f : _ → _) : (s.onPlan f).stk = s.stk := (rfl)
@[simp] theorem State.onPlan_cmp (f : _ → _) : (s.onPlan f).cmp = s.cmp := (rfl)
@[simp] theorem State.onPlan_pkg (f : _ → _) : (s.onPlan f).pkg = s.pkg := (rfl)
@[simp] theorem State.rd_onPlan (f : _ → _) (adr : Nat) : (s.onPlan f).rd adr = s.rd adr := (rfl)
@[simp] theorem State.fld_onPlan (f : _ → _) (adr : Nat) (fd : Fld) : (s.onPlan f).fld adr fd = s.fld adr fd := (rfl)
@[simp] theorem State.actv_onPlan (f : _ → _) (adr : Nat) : (s.onPlan f).actv adr = s.actv adr := (rfl)

/-! ### onTbs -/
@[simp] theorem State.onTbs_pending (f : _ → _) : (s.onTbs f).pending = s.pending := (rfl)
@[simp] theorem State.onTbs_regs (f : _ → _) : (s.onTbs f).regs = s.regs := (rfl)
@[simp] theorem State.onTbs_act (f : _ → _) : (s.onTbs f).act = s.act := (rfl)
@[simp] theorem State.onTbs_snap (f : _ → _) : (s.onTbs f).snap = s.snap := (rfl)
@[simp] theorem State.onTbs_staged (f : _ → _) : (s.onTbs f).staged = s.staged := (rfl)
@[simp] theorem State.onTbs_readData (f : _ → _) : (s.onTbs f).readData = s.readData := (rfl)
@[simp] theorem State.onTbs_outs (f : _ → _) : (s.onTbs f).outs = s.outs := (rfl)
@[simp] theorem State.onTbs_time (f : _ → _) : (s.onTbs f).time = s.time := (rfl)
@[simp] theorem State.onTbs_frac (f : _ → _) : (s.onTbs f).frac = s.frac := (rfl)
@[simp] theorem State.onTbs_freeCtr (f : _ → _) : (s.onTbs f).freeCtr = s.freeCtr := (rfl)
@[simp] theorem State.onTbs_store (f : _ → _) : (s.onTbs f).store = s.store := (rfl)
@[simp] theorem State.onTbs_hostMem (f : _ → _) : (s.onTbs f).hostMem = s.hostMem := (rfl)
@[simp] theorem State.onTbs_flash (f : _ → _) : (s.onTbs f).flash = s.flash := (rfl)
@[simp] theorem State.onTbs_evt (f : _ → _) : (s.onTbs f).evt = s.evt := (rfl)
@[simp] theorem State.onTbs_hif (f : _ → _) : (s.onTbs f).hif = s.hif := (rfl)
@[simp] theorem State.onTbs_ctxs (f : _ → _) : (s.onTbs f).ctxs = s.ctxs := (rfl)
@[simp] theorem State.onTbs_billets (f : _ → _) : (s.onTbs f).billets = s.billets := (rfl)
@[simp] theorem State.onTbs_ports (f : _ → _) : (s.onTbs f).ports = s.ports := (rfl)
@[simp] theorem State.onTbs_aside (f : _ → _) : (s.onTbs f).aside = s.aside := (rfl)
@[simp] theorem State.onTbs_served (f : _ → _) : (s.onTbs f).served = s.served := (rfl)
@[simp] theorem State.onTbs_badLines (f : _ → _) : (s.onTbs f).badLines = s.badLines := (rfl)
@[simp] theorem State.onTbs_clk (f : _ → _) : (s.onTbs f).clk = s.clk := (rfl)
@[simp] theorem State.onTbs_plan (f : _ → _) : (s.onTbs f).plan = s.plan := (rfl)
@[simp] theorem State.onTbs_tdc (f : _ → _) : (s.onTbs f).tdc = s.tdc := (rfl)
@[simp] theorem State.onTbs_cnv (f : _ → _) : (s.onTbs f).cnv = s.cnv := (rfl)
@[simp] theorem State.onTbs_pg (f : _ → _) : (s.onTbs f).pg = s.pg := (rfl)
@[simp] theorem State.onTbs_cal (f : _ → _) : (s.onTbs f).cal = s.cal := (rfl)
@[simp] theorem State.onTbs_ddc (f : _ → _) : (s.onTbs f).ddc = s.ddc := (rfl)
@[simp] theorem State.onTbs_xfm (f : _ → _) : (s.onTbs f).xfm = s.xfm := (rfl)
@[simp] theorem State.onTbs_streams (f : _ → _) : (s.onTbs f).streams = s.streams := (rfl)
@[simp] theorem State.onTbs_frames (f : _ → _) : (s.onTbs f).frames = s.frames := (rfl)
@[simp] theorem State.onTbs_det (f : _ → _) : (s.onTbs f).det = s.det := (rfl)
@[simp] theorem State.onTbs_den (f : _ → _) : (s.onTbs f).den = s.den := (rfl)
@[simp] theorem State.onTbs_tq (f : _ → _) : (s.onTbs f).tq = s.tq := (rfl)
@[simp] theorem State.onTbs_lt (f : _ → _) : (s.onTbs f).lt = s.lt := (rfl)
@[simp] theorem State.onTbs_fm (f : _ → _) : (s.onTbs f).fm = s.fm := (rfl)
@[simp] theorem State.onTbs_bus (f : _ → _) : (s.onTbs f).bus = s.bus := (rfl)
@[simp] theorem State.onTbs_tmr (f : _ → _) : (s.onTbs f).tmr = s.tmr := (rfl)
@[simp] theorem State.onTbs_decs (f : _ → _) : (s.onTbs f).decs = s.decs := (rfl)
@[simp] theorem State.onTbs_au (f : _ → _) : (s.onTbs f).au = s.au := (rfl)
@[simp] theorem State.onTbs_replay (f : _ → _) : (s.onTbs f).replay = s.replay := (rfl)
@[simp] theorem State.onTbs_turf (f : _ → _) : (s.onTbs f).turf = s.turf := (rfl)
@[simp] theorem State.onTbs_clusters (f : _ → _) : (s.onTbs f).clusters = s.clusters := (rfl)
@[simp] theorem State.onTbs_net (f : _ → _) : (s.onTbs f).net = s.net := (rfl)
@[simp] theorem State.onTbs_ave (f : _ → _) : (s.onTbs f).ave = s.ave := (rfl)
@[simp] theorem State.onTbs_slots (f : _ → _) : (s.onTbs f).slots = s.slots := (rfl)
@[simp] theorem State.onTbs_dis (f : _ → _) : (s.onTbs f).dis = s.dis := (rfl)
@[simp] theorem State.onTbs_layers (f : _ → _) : (s.onTbs f).layers = s.layers := (rfl)
@[simp] theorem State.onTbs_mem (f : _ → _) : (s.onTbs f).mem = s.mem := (rfl)
@[simp] theorem State.onTbs_dma (f : _ → _) : (s.onTbs f).dma = s.dma := (rfl)
@[simp] theorem State.onTbs_rst (f : _ → _) : (s.onTbs f).rst = s.rst := (rfl)
@[simp] theorem State.onTbs_stk (f : _ → _) : (s.onTbs f).stk = s.stk := (rfl)
@[simp] theorem State.onTbs_cmp (f : _ → _) : (s.onTbs f).cmp = s.cmp := (rfl)
@[simp] theorem State.onTbs_pkg (f : _ → _) : (s.onTbs f).pkg = s.pkg := (rfl)
@[simp] theorem State.rd_onTbs (f : _ → _) (adr : Nat) : (s.onTbs f).rd adr = s.rd adr := (rfl)
@[simp] theorem State.fld_onTbs (f : _ → _) (adr : Nat) (fd : Fld) : (s.onTbs f).fld adr fd = s.fld adr fd := (rfl)
@[simp] theorem State.actv_onTbs (f : _ → _) (adr : Nat) : (s.onTbs f).actv adr = s.actv adr := (rfl)

/-! ### onTdc -/
@[simp] theorem State.onTdc_pending (f : _ → _) : (s.onTdc f).pending = s.pending := (rfl)
@[simp] theorem State.onTdc_regs (f : _ → _) : (s.onTdc f).regs = s.regs := (rfl)
@[simp] theorem State.onTdc_act (f : _ → _) : (s.onTdc f).act = s.act := (rfl)
@[simp] theorem State.onTdc_snap (f : _ → _) : (s.onTdc f).snap = s.snap := (rfl)
@[simp] theorem State.onTdc_staged (f : _ → _) : (s.onTdc f).staged = s.staged := (rfl)
@[simp] theorem State.onTdc_readData (f : _ → _) : (s.onTdc f).readData = s.readData := (rfl)
@[simp] theorem State.onTdc_outs (f : _ → _) : (s.onTdc f).outs = s.outs := (rfl)
@[simp] theorem State.onTdc_time (f : _ → _) : (s.onTdc f).time = s.time := (rfl)
@[simp] theorem State.onTdc_frac (f : _ → _) : (s.onTdc f).frac = s.frac := (rfl)
@[simp] theorem State.onTdc_freeCtr (f : _ → _) : (s.onTdc f).freeCtr = s.freeCtr := (rfl)
@[simp] theorem State.onTdc_store (f : _ → _) : (s.onTdc f).store = s.store := (rfl)
@[simp] theorem State.onTdc_hostMem (f : _ → _) : (s.onTdc f).hostMem = s.hostMem := (rfl)
@[simp] theorem State.onTdc_flash (f : _ → _) : (s.onTdc f).flash = s.flash := (rfl)
@[simp] theorem State.onTdc_evt (f : _ → _) : (s.onTdc f).evt = s.evt := (rfl)
@[simp] theorem State.onTdc_hif (f : _ → _) : (s.onTdc f).hif = s.hif := (rfl)
@[simp] theorem State.onTdc_ctxs (f : _ → _) : (s.onTdc f).ctxs = s.ctxs := (rfl)
@[simp] theorem State.onTdc_billets (f : _ → _) : (s.onTdc f).billets = s.billets := (rfl)
@[simp] theorem State.onTdc_ports (f : _ → _) : (s.onTdc f).ports = s.ports := (rfl)
@[simp] theorem State.onTdc_aside (f : _ → _) : (s.onTdc f).aside = s.aside := (rfl)
@[simp] theorem State.onTdc_served (f : _ → _) : (s.onTdc f).served = s.served := (rfl)
@[simp] theorem State.onTdc_badLines (f : _ → _) : (s.onTdc f).badLines = s.badLines := (rfl)
@[simp] theorem State.onTdc_clk (f : _ → _) : (s.onTdc f).clk = s.clk := (rfl)
@[simp] theorem State.onTdc_plan (f : _ → _) : (s.onTdc f).plan = s.plan := (rfl)
@[simp] theorem State.onTdc_tbs (f : _ → _) : (s.onTdc f).tbs = s.tbs := (rfl)
@[simp] theorem State.onTdc_cnv (f : _ → _) : (s.onTdc f).cnv = s.cnv := (rfl)
@[simp] theorem State.onTdc_pg (f : _ → _) : (s.onTdc f).pg = s.pg := (rfl)
@[simp] theorem State.onTdc_cal (f : _ → _) : (s.onTdc f).cal = s.cal := (rfl)
@[simp] theorem State.onTdc_ddc (f : _ → _) : (s.onTdc f).ddc = s.ddc := (rfl)
@[simp] theorem State.onTdc_xfm (f : _ → _) : (s.onTdc f).xfm = s.xfm := (rfl)
@[simp] theorem State.onTdc_streams (f : _ → _) : (s.onTdc f).streams = s.streams := (rfl)
@[simp] theorem State.onTdc_frames (f : _ → _) : (s.onTdc f).frames = s.frames := (rfl)
@[simp] theorem State.onTdc_det (f : _ → _) : (s.onTdc f).det = s.det := (rfl)
@[simp] theorem State.onTdc_den (f : _ → _) : (s.onTdc f).den = s.den := (rfl)
@[simp] theorem State.onTdc_tq (f : _ → _) : (s.onTdc f).tq = s.tq := (rfl)
@[simp] theorem State.onTdc_lt (f : _ → _) : (s.onTdc f).lt = s.lt := (rfl)
@[simp] theorem State.onTdc_fm (f : _ → _) : (s.onTdc f).fm = s.fm := (rfl)
@[simp] theorem State.onTdc_bus (f : _ → _) : (s.onTdc f).bus = s.bus := (rfl)
@[simp] theorem State.onTdc_tmr (f : _ → _) : (s.onTdc f).tmr = s.tmr := (rfl)
@[simp] theorem State.onTdc_decs (f : _ → _) : (s.onTdc f).decs = s.decs := (rfl)
@[simp] theorem State.onTdc_au (f : _ → _) : (s.onTdc f).au = s.au := (rfl)
@[simp] theorem State.onTdc_replay (f : _ → _) : (s.onTdc f).replay = s.replay := (rfl)
@[simp] theorem State.onTdc_turf (f : _ → _) : (s.onTdc f).turf = s.turf := (rfl)
@[simp] theorem State.onTdc_clusters (f : _ → _) : (s.onTdc f).clusters = s.clusters := (rfl)
@[simp] theorem State.onTdc_net (f : _ → _) : (s.onTdc f).net = s.net := (rfl)
@[simp] theorem State.onTdc_ave (f : _ → _) : (s.onTdc f).ave = s.ave := (rfl)
@[simp] theorem State.onTdc_slots (f : _ → _) : (s.onTdc f).slots = s.slots := (rfl)
@[simp] theorem State.onTdc_dis (f : _ → _) : (s.onTdc f).dis = s.dis := (rfl)
@[simp] theorem State.onTdc_layers (f : _ → _) : (s.onTdc f).layers = s.layers := (rfl)
@[simp] theorem State.onTdc_mem (f : _ → _) : (s.onTdc f).mem = s.mem := (rfl)
@[simp] theorem State.onTdc_dma (f : _ → _) : (s.onTdc f).dma = s.dma := (rfl)
@[simp] theorem State.onTdc_rst (f : _ → _) : (s.onTdc f).rst = s.rst := (rfl)
@[simp] theorem State.onTdc_stk (f : _ → _) : (s.onTdc f).stk = s.stk := (rfl)
@[simp] theorem State.onTdc_cmp (f : _ → _) : (s.onTdc f).cmp = s.cmp := (rfl)
@[simp] theorem State.onTdc_pkg (f : _ → _) : (s.onTdc f).pkg = s.pkg := (rfl)
@[simp] theorem State.rd_onTdc (f : _ → _) (adr : Nat) : (s.onTdc f).rd adr = s.rd adr := (rfl)
@[simp] theorem State.fld_onTdc (f : _ → _) (adr : Nat) (fd : Fld) : (s.onTdc f).fld adr fd = s.fld adr fd := (rfl)
@[simp] theorem State.actv_onTdc (f : _ → _) (adr : Nat) : (s.onTdc f).actv adr = s.actv adr := (rfl)

/-! ### onCal -/
@[simp] theorem State.onCal_pending (f : _ → _) : (s.onCal f).pending = s.pending := (rfl)
@[simp] theorem State.onCal_regs (f : _ → _) : (s.onCal f).regs = s.regs := (rfl)
@[simp] theorem State.onCal_act (f : _ → _) : (s.onCal f).act = s.act := (rfl)
@[simp] theorem State.onCal_snap (f : _ → _) : (s.onCal f).snap = s.snap := (rfl)
@[simp] theorem State.onCal_staged (f : _ → _) : (s.onCal f).staged = s.staged := (rfl)
@[simp] theorem State.onCal_readData (f : _ → _) : (s.onCal f).readData = s.readData := (rfl)
@[simp] theorem State.onCal_outs (f : _ → _) : (s.onCal f).outs = s.outs := (rfl)
@[simp] theorem State.onCal_time (f : _ → _) : (s.onCal f).time = s.time := (rfl)
@[simp] theorem State.onCal_frac (f : _ → _) : (s.onCal f).frac = s.frac := (rfl)
@[simp] theorem State.onCal_freeCtr (f : _ → _) : (s.onCal f).freeCtr = s.freeCtr := (rfl)
@[simp] theorem State.onCal_store (f : _ → _) : (s.onCal f).store = s.store := (rfl)
@[simp] theorem State.onCal_hostMem (f : _ → _) : (s.onCal f).hostMem = s.hostMem := (rfl)
@[simp] theorem State.onCal_flash (f : _ → _) : (s.onCal f).flash = s.flash := (rfl)
@[simp] theorem State.onCal_evt (f : _ → _) : (s.onCal f).evt = s.evt := (rfl)
@[simp] theorem State.onCal_hif (f : _ → _) : (s.onCal f).hif = s.hif := (rfl)
@[simp] theorem State.onCal_ctxs (f : _ → _) : (s.onCal f).ctxs = s.ctxs := (rfl)
@[simp] theorem State.onCal_billets (f : _ → _) : (s.onCal f).billets = s.billets := (rfl)
@[simp] theorem State.onCal_ports (f : _ → _) : (s.onCal f).ports = s.ports := (rfl)
@[simp] theorem State.onCal_aside (f : _ → _) : (s.onCal f).aside = s.aside := (rfl)
@[simp] theorem State.onCal_served (f : _ → _) : (s.onCal f).served = s.served := (rfl)
@[simp] theorem State.onCal_badLines (f : _ → _) : (s.onCal f).badLines = s.badLines := (rfl)
@[simp] theorem State.onCal_clk (f : _ → _) : (s.onCal f).clk = s.clk := (rfl)
@[simp] theorem State.onCal_plan (f : _ → _) : (s.onCal f).plan = s.plan := (rfl)
@[simp] theorem State.onCal_tbs (f : _ → _) : (s.onCal f).tbs = s.tbs := (rfl)
@[simp] theorem State.onCal_tdc (f : _ → _) : (s.onCal f).tdc = s.tdc := (rfl)
@[simp] theorem State.onCal_cnv (f : _ → _) : (s.onCal f).cnv = s.cnv := (rfl)
@[simp] theorem State.onCal_pg (f : _ → _) : (s.onCal f).pg = s.pg := (rfl)
@[simp] theorem State.onCal_ddc (f : _ → _) : (s.onCal f).ddc = s.ddc := (rfl)
@[simp] theorem State.onCal_xfm (f : _ → _) : (s.onCal f).xfm = s.xfm := (rfl)
@[simp] theorem State.onCal_streams (f : _ → _) : (s.onCal f).streams = s.streams := (rfl)
@[simp] theorem State.onCal_frames (f : _ → _) : (s.onCal f).frames = s.frames := (rfl)
@[simp] theorem State.onCal_det (f : _ → _) : (s.onCal f).det = s.det := (rfl)
@[simp] theorem State.onCal_den (f : _ → _) : (s.onCal f).den = s.den := (rfl)
@[simp] theorem State.onCal_tq (f : _ → _) : (s.onCal f).tq = s.tq := (rfl)
@[simp] theorem State.onCal_lt (f : _ → _) : (s.onCal f).lt = s.lt := (rfl)
@[simp] theorem State.onCal_fm (f : _ → _) : (s.onCal f).fm = s.fm := (rfl)
@[simp] theorem State.onCal_bus (f : _ → _) : (s.onCal f).bus = s.bus := (rfl)
@[simp] theorem State.onCal_tmr (f : _ → _) : (s.onCal f).tmr = s.tmr := (rfl)
@[simp] theorem State.onCal_decs (f : _ → _) : (s.onCal f).decs = s.decs := (rfl)
@[simp] theorem State.onCal_au (f : _ → _) : (s.onCal f).au = s.au := (rfl)
@[simp] theorem State.onCal_replay (f : _ → _) : (s.onCal f).replay = s.replay := (rfl)
@[simp] theorem State.onCal_turf (f : _ → _) : (s.onCal f).turf = s.turf := (rfl)
@[simp] theorem State.onCal_clusters (f : _ → _) : (s.onCal f).clusters = s.clusters := (rfl)
@[simp] theorem State.onCal_net (f : _ → _) : (s.onCal f).net = s.net := (rfl)
@[simp] theorem State.onCal_ave (f : _ → _) : (s.onCal f).ave = s.ave := (rfl)
@[simp] theorem State.onCal_slots (f : _ → _) : (s.onCal f).slots = s.slots := (rfl)
@[simp] theorem State.onCal_dis (f : _ → _) : (s.onCal f).dis = s.dis := (rfl)
@[simp] theorem State.onCal_layers (f : _ → _) : (s.onCal f).layers = s.layers := (rfl)
@[simp] theorem State.onCal_mem (f : _ → _) : (s.onCal f).mem = s.mem := (rfl)
@[simp] theorem State.onCal_dma (f : _ → _) : (s.onCal f).dma = s.dma := (rfl)
@[simp] theorem State.onCal_rst (f : _ → _) : (s.onCal f).rst = s.rst := (rfl)
@[simp] theorem State.onCal_stk (f : _ → _) : (s.onCal f).stk = s.stk := (rfl)
@[simp] theorem State.onCal_cmp (f : _ → _) : (s.onCal f).cmp = s.cmp := (rfl)
@[simp] theorem State.onCal_pkg (f : _ → _) : (s.onCal f).pkg = s.pkg := (rfl)
@[simp] theorem State.rd_onCal (f : _ → _) (adr : Nat) : (s.onCal f).rd adr = s.rd adr := (rfl)
@[simp] theorem State.fld_onCal (f : _ → _) (adr : Nat) (fd : Fld) : (s.onCal f).fld adr fd = s.fld adr fd := (rfl)
@[simp] theorem State.actv_onCal (f : _ → _) (adr : Nat) : (s.onCal f).actv adr = s.actv adr := (rfl)

/-! ### onStreams -/
@[simp] theorem State.onStreams_pending (f : _ → _) : (s.onStreams f).pending = s.pending := (rfl)
@[simp] theorem State.onStreams_regs (f : _ → _) : (s.onStreams f).regs = s.regs := (rfl)
@[simp] theorem State.onStreams_act (f : _ → _) : (s.onStreams f).act = s.act := (rfl)
@[simp] theorem State.onStreams_snap (f : _ → _) : (s.onStreams f).snap = s.snap := (rfl)
@[simp] theorem State.onStreams_staged (f : _ → _) : (s.onStreams f).staged = s.staged := (rfl)
@[simp] theorem State.onStreams_readData (f : _ → _) : (s.onStreams f).readData = s.readData := (rfl)
@[simp] theorem State.onStreams_outs (f : _ → _) : (s.onStreams f).outs = s.outs := (rfl)
@[simp] theorem State.onStreams_time (f : _ → _) : (s.onStreams f).time = s.time := (rfl)
@[simp] theorem State.onStreams_frac (f : _ → _) : (s.onStreams f).frac = s.frac := (rfl)
@[simp] theorem State.onStreams_freeCtr (f : _ → _) : (s.onStreams f).freeCtr = s.freeCtr := (rfl)
@[simp] theorem State.onStreams_store (f : _ → _) : (s.onStreams f).store = s.store := (rfl)
@[simp] theorem State.onStreams_hostMem (f : _ → _) : (s.onStreams f).hostMem = s.hostMem := (rfl)
@[simp] theorem State.onStreams_flash (f : _ → _) : (s.onStreams f).flash = s.flash := (rfl)
@[simp] theorem State.onStreams_evt (f : _ → _) : (s.onStreams f).evt = s.evt := (rfl)
@[simp] theorem State.onStreams_hif (f : _ → _) : (s.onStreams f).hif = s.hif := (rfl)
@[simp] theorem State.onStreams_ctxs (f : _ → _) : (s.onStreams f).ctxs = s.ctxs := (rfl)
@[simp] theorem State.onStreams_billets (f : _ → _) : (s.onStreams f).billets = s.billets := (rfl)
@[simp] theorem State.onStreams_ports (f : _ → _) : (s.onStreams f).ports = s.ports := (rfl)
@[simp] theorem State.onStreams_aside (f : _ → _) : (s.onStreams f).aside = s.aside := (rfl)
@[simp] theorem State.onStreams_served (f : _ → _) : (s.onStreams f).served = s.served := (rfl)
@[simp] theorem State.onStreams_badLines (f : _ → _) : (s.onStreams f).badLines = s.badLines := (rfl)
@[simp] theorem State.onStreams_clk (f : _ → _) : (s.onStreams f).clk = s.clk := (rfl)
@[simp] theorem State.onStreams_plan (f : _ → _) : (s.onStreams f).plan = s.plan := (rfl)
@[simp] theorem State.onStreams_tbs (f : _ → _) : (s.onStreams f).tbs = s.tbs := (rfl)
@[simp] theorem State.onStreams_tdc (f : _ → _) : (s.onStreams f).tdc = s.tdc := (rfl)
@[simp] theorem State.onStreams_cnv (f : _ → _) : (s.onStreams f).cnv = s.cnv := (rfl)
@[simp] theorem State.onStreams_pg (f : _ → _) : (s.onStreams f).pg = s.pg := (rfl)
@[simp] theorem State.onStreams_cal (f : _ → _) : (s.onStreams f).cal = s.cal := (rfl)
@[simp] theorem State.onStreams_ddc (f : _ → _) : (s.onStreams f).ddc = s.ddc := (rfl)
@[simp] theorem State.onStreams_xfm (f : _ → _) : (s.onStreams f).xfm = s.xfm := (rfl)
@[simp] theorem State.onStreams_frames (f : _ → _) : (s.onStreams f).frames = s.frames := (rfl)
@[simp] theorem State.onStreams_det (f : _ → _) : (s.onStreams f).det = s.det := (rfl)
@[simp] theorem State.onStreams_den (f : _ → _) : (s.onStreams f).den = s.den := (rfl)
@[simp] theorem State.onStreams_tq (f : _ → _) : (s.onStreams f).tq = s.tq := (rfl)
@[simp] theorem State.onStreams_lt (f : _ → _) : (s.onStreams f).lt = s.lt := (rfl)
@[simp] theorem State.onStreams_fm (f : _ → _) : (s.onStreams f).fm = s.fm := (rfl)
@[simp] theorem State.onStreams_bus (f : _ → _) : (s.onStreams f).bus = s.bus := (rfl)
@[simp] theorem State.onStreams_tmr (f : _ → _) : (s.onStreams f).tmr = s.tmr := (rfl)
@[simp] theorem State.onStreams_decs (f : _ → _) : (s.onStreams f).decs = s.decs := (rfl)
@[simp] theorem State.onStreams_au (f : _ → _) : (s.onStreams f).au = s.au := (rfl)
@[simp] theorem State.onStreams_replay (f : _ → _) : (s.onStreams f).replay = s.replay := (rfl)
@[simp] theorem State.onStreams_turf (f : _ → _) : (s.onStreams f).turf = s.turf := (rfl)
@[simp] theorem State.onStreams_clusters (f : _ → _) : (s.onStreams f).clusters = s.clusters := (rfl)
@[simp] theorem State.onStreams_net (f : _ → _) : (s.onStreams f).net = s.net := (rfl)
@[simp] theorem State.onStreams_ave (f : _ → _) : (s.onStreams f).ave = s.ave := (rfl)
@[simp] theorem State.onStreams_slots (f : _ → _) : (s.onStreams f).slots = s.slots := (rfl)
@[simp] theorem State.onStreams_dis (f : _ → _) : (s.onStreams f).dis = s.dis := (rfl)
@[simp] theorem State.onStreams_layers (f : _ → _) : (s.onStreams f).layers = s.layers := (rfl)
@[simp] theorem State.onStreams_mem (f : _ → _) : (s.onStreams f).mem = s.mem := (rfl)
@[simp] theorem State.onStreams_dma (f : _ → _) : (s.onStreams f).dma = s.dma := (rfl)
@[simp] theorem State.onStreams_rst (f : _ → _) : (s.onStreams f).rst = s.rst := (rfl)
@[simp] theorem State.onStreams_stk (f : _ → _) : (s.onStreams f).stk = s.stk := (rfl)
@[simp] theorem State.onStreams_cmp (f : _ → _) : (s.onStreams f).cmp = s.cmp := (rfl)
@[simp] theorem State.onStreams_pkg (f : _ → _) : (s.onStreams f).pkg = s.pkg := (rfl)
@[simp] theorem State.rd_onStreams (f : _ → _) (adr : Nat) : (s.onStreams f).rd adr = s.rd adr := (rfl)
@[simp] theorem State.fld_onStreams (f : _ → _) (adr : Nat) (fd : Fld) : (s.onStreams f).fld adr fd = s.fld adr fd := (rfl)
@[simp] theorem State.actv_onStreams (f : _ → _) (adr : Nat) : (s.onStreams f).actv adr = s.actv adr := (rfl)

/-! ### onFrames -/
@[simp] theorem State.onFrames_pending (f : _ → _) : (s.onFrames f).pending = s.pending := (rfl)
@[simp] theorem State.onFrames_regs (f : _ → _) : (s.onFrames f).regs = s.regs := (rfl)
@[simp] theorem State.onFrames_act (f : _ → _) : (s.onFrames f).act = s.act := (rfl)
@[simp] theorem State.onFrames_snap (f : _ → _) : (s.onFrames f).snap = s.snap := (rfl)
@[simp] theorem State.onFrames_staged (f : _ → _) : (s.onFrames f).staged = s.staged := (rfl)
@[simp] theorem State.onFrames_readData (f : _ → _) : (s.onFrames f).readData = s.readData := (rfl)
@[simp] theorem State.onFrames_outs (f : _ → _) : (s.onFrames f).outs = s.outs := (rfl)
@[simp] theorem State.onFrames_time (f : _ → _) : (s.onFrames f).time = s.time := (rfl)
@[simp] theorem State.onFrames_frac (f : _ → _) : (s.onFrames f).frac = s.frac := (rfl)
@[simp] theorem State.onFrames_freeCtr (f : _ → _) : (s.onFrames f).freeCtr = s.freeCtr := (rfl)
@[simp] theorem State.onFrames_store (f : _ → _) : (s.onFrames f).store = s.store := (rfl)
@[simp] theorem State.onFrames_hostMem (f : _ → _) : (s.onFrames f).hostMem = s.hostMem := (rfl)
@[simp] theorem State.onFrames_flash (f : _ → _) : (s.onFrames f).flash = s.flash := (rfl)
@[simp] theorem State.onFrames_evt (f : _ → _) : (s.onFrames f).evt = s.evt := (rfl)
@[simp] theorem State.onFrames_hif (f : _ → _) : (s.onFrames f).hif = s.hif := (rfl)
@[simp] theorem State.onFrames_ctxs (f : _ → _) : (s.onFrames f).ctxs = s.ctxs := (rfl)
@[simp] theorem State.onFrames_billets (f : _ → _) : (s.onFrames f).billets = s.billets := (rfl)
@[simp] theorem State.onFrames_ports (f : _ → _) : (s.onFrames f).ports = s.ports := (rfl)
@[simp] theorem State.onFrames_aside (f : _ → _) : (s.onFrames f).aside = s.aside := (rfl)
@[simp] theorem State.onFrames_served (f : _ → _) : (s.onFrames f).served = s.served := (rfl)
@[simp] theorem State.onFrames_badLines (f : _ → _) : (s.onFrames f).badLines = s.badLines := (rfl)
@[simp] theorem State.onFrames_clk (f : _ → _) : (s.onFrames f).clk = s.clk := (rfl)
@[simp] theorem State.onFrames_plan (f : _ → _) : (s.onFrames f).plan = s.plan := (rfl)
@[simp] theorem State.onFrames_tbs (f : _ → _) : (s.onFrames f).tbs = s.tbs := (rfl)
@[simp] theorem State.onFrames_tdc (f : _ → _) : (s.onFrames f).tdc = s.tdc := (rfl)
@[simp] theorem State.onFrames_cnv (f : _ → _) : (s.onFrames f).cnv = s.cnv := (rfl)
@[simp] theorem State.onFrames_pg (f : _ → _) : (s.onFrames f).pg = s.pg := (rfl)
@[simp] theorem State.onFrames_cal (f : _ → _) : (s.onFrames f).cal = s.cal := (rfl)
@[simp] theorem State.onFrames_ddc (f : _ → _) : (s.onFrames f).ddc = s.ddc := (rfl)
@[simp] theorem State.onFrames_xfm (f : _ → _) : (s.onFrames f).xfm = s.xfm := (rfl)
@[simp] theorem State.onFrames_streams (f : _ → _) : (s.onFrames f).streams = s.streams := (rfl)
@[simp] theorem State.onFrames_det (f : _ → _) : (s.onFrames f).det = s.det := (rfl)
@[simp] theorem State.onFrames_den (f : _ → _) : (s.onFrames f).den = s.den := (rfl)
@[simp] theorem State.onFrames_tq (f : _ → _) : (s.onFrames f).tq = s.tq := (rfl)
@[simp] theorem State.onFrames_lt (f : _ → _) : (s.onFrames f).lt = s.lt := (rfl)
@[simp] theorem State.onFrames_fm (f : _ → _) : (s.onFrames f).fm = s.fm := (rfl)
@[simp] theorem State.onFrames_bus (f : _ → _) : (s.onFrames f).bus = s.bus := (rfl)
@[simp] theorem State.onFrames_tmr (f : _ → _) : (s.onFrames f).tmr = s.tmr := (rfl)
@[simp] theorem State.onFrames_decs (f : _ → _) : (s.onFrames f).decs = s.decs := (rfl)
@[simp] theorem State.onFrames_au (f : _ → _) : (s.onFrames f).au = s.au := (rfl)
@[simp] theorem State.onFrames_replay (f : _ → _) : (s.onFrames f).replay = s.replay := (rfl)
@[simp] theorem State.onFrames_turf (f : _ → _) : (s.onFrames f).turf = s.turf := (rfl)
@[simp] theorem State.onFrames_clusters (f : _ → _) : (s.onFrames f).clusters = s.clusters := (rfl)
@[simp] theorem State.onFrames_net (f : _ → _) : (s.onFrames f).net = s.net := (rfl)
@[simp] theorem State.onFrames_ave (f : _ → _) : (s.onFrames f).ave = s.ave := (rfl)
@[simp] theorem State.onFrames_slots (f : _ → _) : (s.onFrames f).slots = s.slots := (rfl)
@[simp] theorem State.onFrames_dis (f : _ → _) : (s.onFrames f).dis = s.dis := (rfl)
@[simp] theorem State.onFrames_layers (f : _ → _) : (s.onFrames f).layers = s.layers := (rfl)
@[simp] theorem State.onFrames_mem (f : _ → _) : (s.onFrames f).mem = s.mem := (rfl)
@[simp] theorem State.onFrames_dma (f : _ → _) : (s.onFrames f).dma = s.dma := (rfl)
@[simp] theorem State.onFrames_rst (f : _ → _) : (s.onFrames f).rst = s.rst := (rfl)
@[simp] theorem State.onFrames_stk (f : _ → _) : (s.onFrames f).stk = s.stk := (rfl)
@[simp] theorem State.onFrames_cmp (f : _ → _) : (s.onFrames f).cmp = s.cmp := (rfl)
@[simp] theorem State.onFrames_pkg (f : _ → _) : (s.onFrames f).pkg = s.pkg := (rfl)
@[simp] theorem State.rd_onFrames (f : _ → _) (adr : Nat) : (s.onFrames f).rd adr = s.rd adr := (rfl)
@[simp] theorem State.fld_onFrames (f : _ → _) (adr : Nat) (fd : Fld) : (s.onFrames f).fld adr fd = s.fld adr fd := (rfl)
@[simp] theorem State.actv_onFrames (f : _ → _) (adr : Nat) : (s.onFrames f).actv adr = s.actv adr := (rfl)

/-! ### onLt -/
@[simp] theorem State.onLt_pending (f : _ → _) : (s.onLt f).pending = s.pending := (rfl)
@[simp] theorem State.onLt_regs (f : _ → _) : (s.onLt f).regs = s.regs := (rfl)
@[simp] theorem State.onLt_act (f : _ → _) : (s.onLt f).act = s.act := (rfl)
@[simp] theorem State.onLt_snap (f : _ → _) : (s.onLt f).snap = s.snap := (rfl)
@[simp] theorem State.onLt_staged (f : _ → _) : (s.onLt f).staged = s.staged := (rfl)
@[simp] theorem State.onLt_readData (f : _ → _) : (s.onLt f).readData = s.readData := (rfl)
@[simp] theorem State.onLt_outs (f : _ → _) : (s.onLt f).outs = s.outs := (rfl)
@[simp] theorem State.onLt_time (f : _ → _) : (s.onLt f).time = s.time := (rfl)
@[simp] theorem State.onLt_frac (f : _ → _) : (s.onLt f).frac = s.frac := (rfl)
@[simp] theorem State.onLt_freeCtr (f : _ → _) : (s.onLt f).freeCtr = s.freeCtr := (rfl)
@[simp] theorem State.onLt_store (f : _ → _) : (s.onLt f).store = s.store := (rfl)
@[simp] theorem State.onLt_hostMem (f : _ → _) : (s.onLt f).hostMem = s.hostMem := (rfl)
@[simp] theorem State.onLt_flash (f : _ → _) : (s.onLt f).flash = s.flash := (rfl)
@[simp] theorem State.onLt_evt (f : _ → _) : (s.onLt f).evt = s.evt := (rfl)
@[simp] theorem State.onLt_hif (f : _ → _) : (s.onLt f).hif = s.hif := (rfl)
@[simp] theorem State.onLt_ctxs (f : _ → _) : (s.onLt f).ctxs = s.ctxs := (rfl)
@[simp] theorem State.onLt_billets (f : _ → _) : (s.onLt f).billets = s.billets := (rfl)
@[simp] theorem State.onLt_ports (f : _ → _) : (s.onLt f).ports = s.ports := (rfl)
@[simp] theorem State.onLt_aside (f : _ → _) : (s.onLt f).aside = s.aside := (rfl)
@[simp] theorem State.onLt_served (f : _ → _) : (s.onLt f).served = s.served := (rfl)
@[simp] theorem State.onLt_badLines (f : _ → _) : (s.onLt f).badLines = s.badLines := (rfl)
@[simp] theorem State.onLt_clk (f : _ → _) : (s.onLt f).clk = s.clk := (rfl)
@[simp] theorem State.onLt_plan (f : _ → _) : (s.onLt f).plan = s.plan := (rfl)
@[simp] theorem State.onLt_tbs (f : _ → _) : (s.onLt f).tbs = s.tbs := (rfl)
@[simp] theorem State.onLt_tdc (f : _ → _) : (s.onLt f).tdc = s.tdc := (rfl)
@[simp] theorem State.onLt_cnv (f : _ → _) : (s.onLt f).cnv = s.cnv := (rfl)
@[simp] theorem State.onLt_pg (f : _ → _) : (s.onLt f).pg = s.pg := (rfl)
@[simp] theorem State.onLt_cal (f : _ → _) : (s.onLt f).cal = s.cal := (rfl)
@[simp] theorem State.onLt_ddc (f : _ → _) : (s.onLt f).ddc = s.ddc := (rfl)
@[simp] theorem State.onLt_xfm (f : _ → _) : (s.onLt f).xfm = s.xfm := (rfl)
@[simp] theorem State.onLt_streams (f : _ → _) : (s.onLt f).streams = s.streams := (rfl)
@[simp] theorem State.onLt_frames (f : _ → _) : (s.onLt f).frames = s.frames := (rfl)
@[simp] theorem State.onLt_det (f : _ → _) : (s.onLt f).det = s.det := (rfl)
@[simp] theorem State.onLt_den (f : _ → _) : (s.onLt f).den = s.den := (rfl)
@[simp] theorem State.onLt_tq (f : _ → _) : (s.onLt f).tq = s.tq := (rfl)
@[simp] theorem State.onLt_fm (f : _ → _) : (s.onLt f).fm = s.fm := (rfl)
@[simp] theorem State.onLt_bus (f : _ → _) : (s.onLt f).bus = s.bus := (rfl)
@[simp] theorem State.onLt_tmr (f : _ → _) : (s.onLt f).tmr = s.tmr := (rfl)
@[simp] theorem State.onLt_decs (f : _ → _) : (s.onLt f).decs = s.decs := (rfl)
@[simp] theorem State.onLt_au (f : _ → _) : (s.onLt f).au = s.au := (rfl)
@[simp] theorem State.onLt_replay (f : _ → _) : (s.onLt f).replay = s.replay := (rfl)
@[simp] theorem State.onLt_turf (f : _ → _) : (s.onLt f).turf = s.turf := (rfl)
@[simp] theorem State.onLt_clusters (f : _ → _) : (s.onLt f).clusters = s.clusters := (rfl)
@[simp] theorem State.onLt_net (f : _ → _) : (s.onLt f).net = s.net := (rfl)
@[simp] theorem State.onLt_ave (f : _ → _) : (s.onLt f).ave = s.ave := (rfl)
@[simp] theorem State.onLt_slots (f : _ → _) : (s.onLt f).slots = s.slots := (rfl)
@[simp] theorem State.onLt_dis (f : _ → _) : (s.onLt f).dis = s.dis := (rfl)
@[simp] theorem State.onLt_layers (f : _ → _) : (s.onLt f).layers = s.layers := (rfl)
@[simp] theorem State.onLt_mem (f : _ → _) : (s.onLt f).mem = s.mem := (rfl)
@[simp] theorem State.onLt_dma (f : _ → _) : (s.onLt f).dma = s.dma := (rfl)
@[simp] theorem State.onLt_rst (f : _ → _) : (s.onLt f).rst = s.rst := (rfl)
@[simp] theorem State.onLt_stk (f : _ → _) : (s.onLt f).stk = s.stk := (rfl)
@[simp] theorem State.onLt_cmp (f : _ → _) : (s.onLt f).cmp = s.cmp := (rfl)
@[simp] theorem State.onLt_pkg (f : _ → _) : (s.onLt f).pkg = s.pkg := (rfl)
@[simp] theorem State.rd_onLt (f : _ → _) (adr : Nat) : (s.onLt f).rd adr = s.rd adr := (rfl)
@[simp] theorem State.fld_onLt (f : _ → _) (adr : Nat) (fd : Fld) : (s.onLt f).fld adr fd = s.fld adr fd := (rfl)
@[simp] theorem State.actv_onLt (f : _ → _) (adr : Nat) : (s.onLt f).actv adr = s.actv adr := (rfl)

/-! ### onFm -/
@[simp] theorem State.onFm_pending (f : _ → _) : (s.onFm f).pending = s.pending := (rfl)
@[simp] theorem State.onFm_regs (f : _ → _) : (s.onFm f).regs = s.regs := (rfl)
@[simp] theorem State.onFm_act (f : _ → _) : (s.onFm f).act = s.act := (rfl)
@[simp] theorem State.onFm_snap (f : _ → _) : (s.onFm f).snap = s.snap := (rfl)
@[simp] theorem State.onFm_staged (f : _ → _) : (s.onFm f).staged = s.staged := (rfl)
@[simp] theorem State.onFm_readData (f : _ → _) : (s.onFm f).readData = s.readData := (rfl)
@[simp] theorem State.onFm_outs (f : _ → _) : (s.onFm f).outs = s.outs := (rfl)
@[simp] theorem State.onFm_time (f : _ → _) : (s.onFm f).time = s.time := (rfl)
@[simp] theorem State.onFm_frac (f : _ → _) : (s.onFm f).frac = s.frac := (rfl)
@[simp] theorem State.onFm_freeCtr (f : _ → _) : (s.onFm f).freeCtr = s.freeCtr := (rfl)
@[simp] theorem State.onFm_store (f : _ → _) : (s.onFm f).store = s.store := (rfl)
@[simp] theorem State.onFm_hostMem (f : _ → _) : (s.onFm f).hostMem = s.hostMem := (rfl)
@[simp] theorem State.onFm_flash (f : _ → _) : (s.onFm f).flash = s.flash := (rfl)
@[simp] theorem State.onFm_evt (f : _ → _) : (s.onFm f).evt = s.evt := (rfl)
@[simp] theorem State.onFm_hif (f : _ → _) : (s.onFm f).hif = s.hif := (rfl)
@[simp] theorem State.onFm_ctxs (f : _ → _) : (s.onFm f).ctxs = s.ctxs := (rfl)
@[simp] theorem State.onFm_billets (f : _ → _) : (s.onFm f).billets = s.billets := (rfl)
@[simp] theorem State.onFm_ports (f : _ → _) : (s.onFm f).ports = s.ports := (rfl)
@[simp] theorem State.onFm_aside (f : _ → _) : (s.onFm f).aside = s.aside := (rfl)
@[simp] theorem State.onFm_served (f : _ → _) : (s.onFm f).served = s.served := (rfl)
@[simp] theorem State.onFm_badLines (f : _ → _) : (s.onFm f).badLines = s.badLines := (rfl)
@[simp] theorem State.onFm_clk (f : _ → _) : (s.onFm f).clk = s.clk := (rfl)
@[simp] theorem State.onFm_plan (f : _ → _) : (s.onFm f).plan = s.plan := (rfl)
@[simp] theorem State.onFm_tbs (f : _ → _) : (s.onFm f).tbs = s.tbs := (rfl)
@[simp] theorem State.onFm_tdc (f : _ → _) : (s.onFm f).tdc = s.tdc := (rfl)
@[simp] theorem State.onFm_cnv (f : _ → _) : (s.onFm f).cnv = s.cnv := (rfl)
@[simp] theorem State.onFm_pg (f : _ → _) : (s.onFm f).pg = s.pg := (rfl)
@[simp] theorem State.onFm_cal (f : _ → _) : (s.onFm f).cal = s.cal := (rfl)
@[simp] theorem State.onFm_ddc (f : _ → _) : (s.onFm f).ddc = s.ddc := (rfl)
@[simp] theorem State.onFm_xfm (f : _ → _) : (s.onFm f).xfm = s.xfm := (rfl)
@[simp] theorem State.onFm_streams (f : _ → _) : (s.onFm f).streams = s.streams := (rfl)
@[simp] theorem State.onFm_frames (f : _ → _) : (s.onFm f).frames = s.frames := (rfl)
@[simp] theorem State.onFm_det (f : _ → _) : (s.onFm f).det = s.det := (rfl)
@[simp] theorem State.onFm_den (f : _ → _) : (s.onFm f).den = s.den := (rfl)
@[simp] theorem State.onFm_tq (f : _ → _) : (s.onFm f).tq = s.tq := (rfl)
@[simp] theorem State.onFm_lt (f : _ → _) : (s.onFm f).lt = s.lt := (rfl)
@[simp] theorem State.onFm_bus (f : _ → _) : (s.onFm f).bus = s.bus := (rfl)
@[simp] theorem State.onFm_tmr (f : _ → _) : (s.onFm f).tmr = s.tmr := (rfl)
@[simp] theorem State.onFm_decs (f : _ → _) : (s.onFm f).decs = s.decs := (rfl)
@[simp] theorem State.onFm_au (f : _ → _) : (s.onFm f).au = s.au := (rfl)
@[simp] theorem State.onFm_replay (f : _ → _) : (s.onFm f).replay = s.replay := (rfl)
@[simp] theorem State.onFm_turf (f : _ → _) : (s.onFm f).turf = s.turf := (rfl)
@[simp] theorem State.onFm_clusters (f : _ → _) : (s.onFm f).clusters = s.clusters := (rfl)
@[simp] theorem State.onFm_net (f : _ → _) : (s.onFm f).net = s.net := (rfl)
@[simp] theorem State.onFm_ave (f : _ → _) : (s.onFm f).ave = s.ave := (rfl)
@[simp] theorem State.onFm_slots (f : _ → _) : (s.onFm f).slots = s.slots := (rfl)
@[simp] theorem State.onFm_dis (f : _ → _) : (s.onFm f).dis = s.dis := (rfl)
@[simp] theorem State.onFm_layers (f : _ → _) : (s.onFm f).layers = s.layers := (rfl)
@[simp] theorem State.onFm_mem (f : _ → _) : (s.onFm f).mem = s.mem := (rfl)
@[simp] theorem State.onFm_dma (f : _ → _) : (s.onFm f).dma = s.dma := (rfl)
@[simp] theorem State.onFm_rst (f : _ → _) : (s.onFm f).rst = s.rst := (rfl)
@[simp] theorem State.onFm_stk (f : _ → _) : (s.onFm f).stk = s.stk := (rfl)
@[simp] theorem State.onFm_cmp (f : _ → _) : (s.onFm f).cmp = s.cmp := (rfl)
@[simp] theorem State.onFm_pkg (f : _ → _) : (s.onFm f).pkg = s.pkg := (rfl)
@[simp] theorem State.rd_onFm (f : _ → _) (adr : Nat) : (s.onFm f).rd adr = s.rd adr := (rfl)
@[simp] theorem State.fld_onFm (f : _ → _) (adr : Nat) (fd : Fld) : (s.onFm f).fld adr fd = s.fld adr fd := (rfl)
@[simp] theorem State.actv_onFm (f : _ → _) (adr : Nat) : (s.onFm f).actv adr = s.actv adr := (rfl)

/-! ### onBus -/
@[simp] theorem State.onBus_pending (f : _ → _) : (s.onBus f).pending = s.pending := (rfl)
@[simp] theorem State.onBus_regs (f : _ → _) : (s.onBus f).regs = s.regs := (rfl)
@[simp] theorem State.onBus_act (f : _ → _) : (s.onBus f).act = s.act := (rfl)
@[simp] theorem State.onBus_snap (f : _ → _) : (s.onBus f).snap = s.snap := (rfl)
@[simp] theorem State.onBus_staged (f : _ → _) : (s.onBus f).staged = s.staged := (rfl)
@[simp] theorem State.onBus_readData (f : _ → _) : (s.onBus f).readData = s.readData := (rfl)
@[simp] theorem State.onBus_outs (f : _ → _) : (s.onBus f).outs = s.outs := (rfl)
@[simp] theorem State.onBus_time (f : _ → _) : (s.onBus f).time = s.time := (rfl)
@[simp] theorem State.onBus_frac (f : _ → _) : (s.onBus f).frac = s.frac := (rfl)
@[simp] theorem State.onBus_freeCtr (f : _ → _) : (s.onBus f).freeCtr = s.freeCtr := (rfl)
@[simp] theorem State.onBus_store (f : _ → _) : (s.onBus f).store = s.store := (rfl)
@[simp] theorem State.onBus_hostMem (f : _ → _) : (s.onBus f).hostMem = s.hostMem := (rfl)
@[simp] theorem State.onBus_flash (f : _ → _) : (s.onBus f).flash = s.flash := (rfl)
@[simp] theorem State.onBus_evt (f : _ → _) : (s.onBus f).evt = s.evt := (rfl)
@[simp] theorem State.onBus_hif (f : _ → _) : (s.onBus f).hif = s.hif := (rfl)
@[simp] theorem State.onBus_ctxs (f : _ → _) : (s.onBus f).ctxs = s.ctxs := (rfl)
@[simp] theorem State.onBus_billets (f : _ → _) : (s.onBus f).billets = s.billets := (rfl)
@[simp] theorem State.onBus_ports (f : _ → _) : (s.onBus f).ports = s.ports := (rfl)
@[simp] theorem State.onBus_aside (f : _ → _) : (s.onBus f).aside = s.aside := (rfl)
@[simp] theorem State.onBus_served (f : _ → _) : (s.onBus f).served = s.served := (rfl)
@[simp] theorem State.onBus_badLines (f : _ → _) : (s.onBus f).badLines = s.badLines := (rfl)
@[simp] theorem State.onBus_clk (f : _ → _) : (s.onBus f).clk = s.clk := (rfl)
@[simp] theorem State.onBus_plan (f : _ → _) : (s.onBus f).plan = s.plan := (rfl)
@[simp] theorem State.onBus_tbs (f : _ → _) : (s.onBus f).tbs = s.tbs := (rfl)
@[simp] theorem State.onBus_tdc (f : _ → _) : (s.onBus f).tdc = s.tdc := (rfl)
@[simp] theorem State.onBus_cnv (f : _ → _) : (s.onBus f).cnv = s.cnv := (rfl)
@[simp] theorem State.onBus_pg (f : _ → _) : (s.onBus f).pg = s.pg := (rfl)
@[simp] theorem State.onBus_cal (f : _ → _) : (s.onBus f).cal = s.cal := (rfl)
@[simp] theorem State.onBus_ddc (f : _ → _) : (s.onBus f).ddc = s.ddc := (rfl)
@[simp] theorem State.onBus_xfm (f : _ → _) : (s.onBus f).xfm = s.xfm := (rfl)
@[simp] theorem State.onBus_streams (f : _ → _) : (s.onBus f).streams = s.streams := (rfl)
@[simp] theorem State.onBus_frames (f : _ → _) : (s.onBus f).frames = s.frames := (rfl)
@[simp] theorem State.onBus_det (f : _ → _) : (s.onBus f).det = s.det := (rfl)
@[simp] theorem State.onBus_den (f : _ → _) : (s.onBus f).den = s.den := (rfl)
@[simp] theorem State.onBus_tq (f : _ → _) : (s.onBus f).tq = s.tq := (rfl)
@[simp] theorem State.onBus_lt (f : _ → _) : (s.onBus f).lt = s.lt := (rfl)
@[simp] theorem State.onBus_fm (f : _ → _) : (s.onBus f).fm = s.fm := (rfl)
@[simp] theorem State.onBus_tmr (f : _ → _) : (s.onBus f).tmr = s.tmr := (rfl)
@[simp] theorem State.onBus_decs (f : _ → _) : (s.onBus f).decs = s.decs := (rfl)
@[simp] theorem State.onBus_au (f : _ → _) : (s.onBus f).au = s.au := (rfl)
@[simp] theorem State.onBus_replay (f : _ → _) : (s.onBus f).replay = s.replay := (rfl)
@[simp] theorem State.onBus_turf (f : _ → _) : (s.onBus f).turf = s.turf := (rfl)
@[simp] theorem State.onBus_clusters (f : _ → _) : (s.onBus f).clusters = s.clusters := (rfl)
@[simp] theorem State.onBus_net (f : _ → _) : (s.onBus f).net = s.net := (rfl)
@[simp] theorem State.onBus_ave (f : _ → _) : (s.onBus f).ave = s.ave := (rfl)
@[simp] theorem State.onBus_slots (f : _ → _) : (s.onBus f).slots = s.slots := (rfl)
@[simp] theorem State.onBus_dis (f : _ → _) : (s.onBus f).dis = s.dis := (rfl)
@[simp] theorem State.onBus_layers (f : _ → _) : (s.onBus f).layers = s.layers := (rfl)
@[simp] theorem State.onBus_mem (f : _ → _) : (s.onBus f).mem = s.mem := (rfl)
@[simp] theorem State.onBus_dma (f : _ → _) : (s.onBus f).dma = s.dma := (rfl)
@[simp] theorem State.onBus_rst (f : _ → _) : (s.onBus f).rst = s.rst := (rfl)
@[simp] theorem State.onBus_stk (f : _ → _) : (s.onBus f).stk = s.stk := (rfl)
@[simp] theorem State.onBus_cmp (f : _ → _) : (s.onBus f).cmp = s.cmp := (rfl)
@[simp] theorem State.onBus_pkg (f : _ → _) : (s.onBus f).pkg = s.pkg := (rfl)
@[simp] theorem State.rd_onBus (f : _ → _) (adr : Nat) : (s.onBus f).rd adr = s.rd adr := (rfl)
@[simp] theorem State.fld_onBus (f : _ → _) (adr : Nat) (fd : Fld) : (s.onBus f).fld adr fd = s.fld adr fd := (rfl)
@[simp] theorem State.actv_onBus (f : _ → _) (adr : Nat) : (s.onBus f).actv adr = s.actv adr := (rfl)

/-! ### onTmr -/
@[simp] theorem State.onTmr_pending (f : _ → _) : (s.onTmr f).pending = s.pending := (rfl)
@[simp] theorem State.onTmr_regs (f : _ → _) : (s.onTmr f).regs = s.regs := (rfl)
@[simp] theorem State.onTmr_act (f : _ → _) : (s.onTmr f).act = s.act := (rfl)
@[simp] theorem State.onTmr_snap (f : _ → _) : (s.onTmr f).snap = s.snap := (rfl)
@[simp] theorem State.onTmr_staged (f : _ → _) : (s.onTmr f).staged = s.staged := (rfl)
@[simp] theorem State.onTmr_readData (f : _ → _) : (s.onTmr f).readData = s.readData := (rfl)
@[simp] theorem State.onTmr_outs (f : _ → _) : (s.onTmr f).outs = s.outs := (rfl)
@[simp] theorem State.onTmr_time (f : _ → _) : (s.onTmr f).time = s.time := (rfl)
@[simp] theorem State.onTmr_frac (f : _ → _) : (s.onTmr f).frac = s.frac := (rfl)
@[simp] theorem State.onTmr_freeCtr (f : _ → _) : (s.onTmr f).freeCtr = s.freeCtr := (rfl)
@[simp] theorem State.onTmr_store (f : _ → _) : (s.onTmr f).store = s.store := (rfl)
@[simp] theorem State.onTmr_hostMem (f : _ → _) : (s.onTmr f).hostMem = s.hostMem := (rfl)
@[simp] theorem State.onTmr_flash (f : _ → _) : (s.onTmr f).flash = s.flash := (rfl)
@[simp] theorem State.onTmr_evt (f : _ → _) : (s.onTmr f).evt = s.evt := (rfl)
@[simp] theorem State.onTmr_hif (f : _ → _) : (s.onTmr f).hif = s.hif := (rfl)
@[simp] theorem State.onTmr_ctxs (f : _ → _) : (s.onTmr f).ctxs = s.ctxs := (rfl)
@[simp] theorem State.onTmr_billets (f : _ → _) : (s.onTmr f).billets = s.billets := (rfl)
@[simp] theorem State.onTmr_ports (f : _ → _) : (s.onTmr f).ports = s.ports := (rfl)
@[simp] theorem State.onTmr_aside (f : _ → _) : (s.onTmr f).aside = s.aside := (rfl)
@[simp] theorem State.onTmr_served (f : _ → _) : (s.onTmr f).served = s.served := (rfl)
@[simp] theorem State.onTmr_badLines (f : _ → _) : (s.onTmr f).badLines = s.badLines := (rfl)
@[simp] theorem State.onTmr_clk (f : _ → _) : (s.onTmr f).clk = s.clk := (rfl)
@[simp] theorem State.onTmr_plan (f : _ → _) : (s.onTmr f).plan = s.plan := (rfl)
@[simp] theorem State.onTmr_tbs (f : _ → _) : (s.onTmr f).tbs = s.tbs := (rfl)
@[simp] theorem State.onTmr_tdc (f : _ → _) : (s.onTmr f).tdc = s.tdc := (rfl)
@[simp] theorem State.onTmr_cnv (f : _ → _) : (s.onTmr f).cnv = s.cnv := (rfl)
@[simp] theorem State.onTmr_pg (f : _ → _) : (s.onTmr f).pg = s.pg := (rfl)
@[simp] theorem State.onTmr_cal (f : _ → _) : (s.onTmr f).cal = s.cal := (rfl)
@[simp] theorem State.onTmr_ddc (f : _ → _) : (s.onTmr f).ddc = s.ddc := (rfl)
@[simp] theorem State.onTmr_xfm (f : _ → _) : (s.onTmr f).xfm = s.xfm := (rfl)
@[simp] theorem State.onTmr_streams (f : _ → _) : (s.onTmr f).streams = s.streams := (rfl)
@[simp] theorem State.onTmr_frames (f : _ → _) : (s.onTmr f).frames = s.frames := (rfl)
@[simp] theorem State.onTmr_det (f : _ → _) : (s.onTmr f).det = s.det := (rfl)
@[simp] theorem State.onTmr_den (f : _ → _) : (s.onTmr f).den = s.den := (rfl)
@[simp] theorem State.onTmr_tq (f : _ → _) : (s.onTmr f).tq = s.tq := (rfl)
@[simp] theorem State.onTmr_lt (f : _ → _) : (s.onTmr f).lt = s.lt := (rfl)
@[simp] theorem State.onTmr_fm (f : _ → _) : (s.onTmr f).fm = s.fm := (rfl)
@[simp] theorem State.onTmr_bus (f : _ → _) : (s.onTmr f).bus = s.bus := (rfl)
@[simp] theorem State.onTmr_decs (f : _ → _) : (s.onTmr f).decs = s.decs := (rfl)
@[simp] theorem State.onTmr_au (f : _ → _) : (s.onTmr f).au = s.au := (rfl)
@[simp] theorem State.onTmr_replay (f : _ → _) : (s.onTmr f).replay = s.replay := (rfl)
@[simp] theorem State.onTmr_turf (f : _ → _) : (s.onTmr f).turf = s.turf := (rfl)
@[simp] theorem State.onTmr_clusters (f : _ → _) : (s.onTmr f).clusters = s.clusters := (rfl)
@[simp] theorem State.onTmr_net (f : _ → _) : (s.onTmr f).net = s.net := (rfl)
@[simp] theorem State.onTmr_ave (f : _ → _) : (s.onTmr f).ave = s.ave := (rfl)
@[simp] theorem State.onTmr_slots (f : _ → _) : (s.onTmr f).slots = s.slots := (rfl)
@[simp] theorem State.onTmr_dis (f : _ → _) : (s.onTmr f).dis = s.dis := (rfl)
@[simp] theorem State.onTmr_layers (f : _ → _) : (s.onTmr f).layers = s.layers := (rfl)
@[simp] theorem State.onTmr_mem (f : _ → _) : (s.onTmr f).mem = s.mem := (rfl)
@[simp] theorem State.onTmr_dma (f : _ → _) : (s.onTmr f).dma = s.dma := (rfl)
@[simp] theorem State.onTmr_rst (f : _ → _) : (s.onTmr f).rst = s.rst := (rfl)
@[simp] theorem State.onTmr_stk (f : _ → _) : (s.onTmr f).stk = s.stk := (rfl)
@[simp] theorem State.onTmr_cmp (f : _ → _) : (s.onTmr f).cmp = s.cmp := (rfl)
@[simp] theorem State.onTmr_pkg (f : _ → _) : (s.onTmr f).pkg = s.pkg := (rfl)
@[simp] theorem State.rd_onTmr (f : _ → _) (adr : Nat) : (s.onTmr f).rd adr = s.rd adr := (rfl)
@[simp] theorem State.fld_onTmr (f : _ → _) (adr : Nat) (fd : Fld) : (s.onTmr f).fld adr fd = s.fld adr fd := (rfl)
@[simp] theorem State.actv_onTmr (f : _ → _) (adr : Nat) : (s.onTmr f).actv adr = s.actv adr := (rfl)

/-! ### onDecs -/
@[simp] theorem State.onDecs_pending (f : _ → _) : (s.onDecs f).pending = s.pending := (rfl)
@[simp] theorem State.onDecs_regs (f : _ → _) : (s.onDecs f).regs = s.regs := (rfl)
@[simp] theorem State.onDecs_act (f : _ → _) : (s.onDecs f).act = s.act := (rfl)
@[simp] theorem State.onDecs_snap (f : _ → _) : (s.onDecs f).snap = s.snap := (rfl)
@[simp] theorem State.onDecs_staged (f : _ → _) : (s.onDecs f).staged = s.staged := (rfl)
@[simp] theorem State.onDecs_readData (f : _ → _) : (s.onDecs f).readData = s.readData := (rfl)
@[simp] theorem State.onDecs_outs (f : _ → _) : (s.onDecs f).outs = s.outs := (rfl)
@[simp] theorem State.onDecs_time (f : _ → _) : (s.onDecs f).time = s.time := (rfl)
@[simp] theorem State.onDecs_frac (f : _ → _) : (s.onDecs f).frac = s.frac := (rfl)
@[simp] theorem State.onDecs_freeCtr (f : _ → _) : (s.onDecs f).freeCtr = s.freeCtr := (rfl)
@[simp] theorem State.onDecs_store (f : _ → _) : (s.onDecs f).store = s.store := (rfl)
@[simp] theorem State.onDecs_hostMem (f : _ → _) : (s.onDecs f).hostMem = s.hostMem := (rfl)
@[simp] theorem State.onDecs_flash (f : _ → _) : (s.onDecs f).flash = s.flash := (rfl)
@[simp] theorem State.onDecs_evt (f : _ → _) : (s.onDecs f).evt = s.evt := (rfl)
@[simp] theorem State.onDecs_hif (f : _ → _) : (s.onDecs f).hif = s.hif := (rfl)
@[simp] theorem State.onDecs_ctxs (f : _ → _) : (s.onDecs f).ctxs = s.ctxs := (rfl)
@[simp] theorem State.onDecs_billets (f : _ → _) : (s.onDecs f).billets = s.billets := (rfl)
@[simp] theorem State.onDecs_ports (f : _ → _) : (s.onDecs f).ports = s.ports := (rfl)
@[simp] theorem State.onDecs_aside (f : _ → _) : (s.onDecs f).aside = s.aside := (rfl)
@[simp] theorem State.onDecs_served (f : _ → _) : (s.onDecs f).served = s.served := (rfl)
@[simp] theorem State.onDecs_badLines (f : _ → _) : (s.onDecs f).badLines = s.badLines := (rfl)
@[simp] theorem State.onDecs_clk (f : _ → _) : (s.onDecs f).clk = s.clk := (rfl)
@[simp] theorem State.onDecs_plan (f : _ → _) : (s.onDecs f).plan = s.plan := (rfl)
@[simp] theorem State.onDecs_tbs (f : _ → _) : (s.onDecs f).tbs = s.tbs := (rfl)
@[simp] theorem State.onDecs_tdc (f : _ → _) : (s.onDecs f).tdc = s.tdc := (rfl)
@[simp] theorem State.onDecs_cnv (f : _ → _) : (s.onDecs f).cnv = s.cnv := (rfl)
@[simp] theorem State.onDecs_pg (f : _ → _) : (s.onDecs f).pg = s.pg := (rfl)
@[simp] theorem State.onDecs_cal (f : _ → _) : (s.onDecs f).cal = s.cal := (rfl)
@[simp] theorem State.onDecs_ddc (f : _ → _) : (s.onDecs f).ddc = s.ddc := (rfl)
@[simp] theorem State.onDecs_xfm (f : _ → _) : (s.onDecs f).xfm = s.xfm := (rfl)
@[simp] theorem State.onDecs_streams (f : _ → _) : (s.onDecs f).streams = s.streams := (rfl)
@[simp] theorem State.onDecs_frames (f : _ → _) : (s.onDecs f).frames = s.frames := (rfl)
@[simp] theorem State.onDecs_det (f : _ → _) : (s.onDecs f).det = s.det := (rfl)
@[simp] theorem State.onDecs_den (f : _ → _) : (s.onDecs f).den = s.den := (rfl)
@[simp] theorem State.onDecs_tq (f : _ → _) : (s.onDecs f).tq = s.tq := (rfl)
@[simp] theorem State.onDecs_lt (f : _ → _) : (s.onDecs f).lt = s.lt := (rfl)
@[simp] theorem State.onDecs_fm (f : _ → _) : (s.onDecs f).fm = s.fm := (rfl)
@[simp] theorem State.onDecs_bus (f : _ → _) : (s.onDecs f).bus = s.bus := (rfl)
@[simp] theorem State.onDecs_tmr (f : _ → _) : (s.onDecs f).tmr = s.tmr := (rfl)
@[simp] theorem State.onDecs_au (f : _ → _) : (s.onDecs f).au = s.au := (rfl)
@[simp] theorem State.onDecs_replay (f : _ → _) : (s.onDecs f).replay = s.replay := (rfl)
@[simp] theorem State.onDecs_turf (f : _ → _) : (s.onDecs f).turf = s.turf := (rfl)
@[simp] theorem State.onDecs_clusters (f : _ → _) : (s.onDecs f).clusters = s.clusters := (rfl)
@[simp] theorem State.onDecs_net (f : _ → _) : (s.onDecs f).net = s.net := (rfl)
@[simp] theorem State.onDecs_ave (f : _ → _) : (s.onDecs f).ave = s.ave := (rfl)
@[simp] theorem State.onDecs_slots (f : _ → _) : (s.onDecs f).slots = s.slots := (rfl)
@[simp] theorem State.onDecs_dis (f : _ → _) : (s.onDecs f).dis = s.dis := (rfl)
@[simp] theorem State.onDecs_layers (f : _ → _) : (s.onDecs f).layers = s.layers := (rfl)
@[simp] theorem State.onDecs_mem (f : _ → _) : (s.onDecs f).mem = s.mem := (rfl)
@[simp] theorem State.onDecs_dma (f : _ → _) : (s.onDecs f).dma = s.dma := (rfl)
@[simp] theorem State.onDecs_rst (f : _ → _) : (s.onDecs f).rst = s.rst := (rfl)
@[simp] theorem State.onDecs_stk (f : _ → _) : (s.onDecs f).stk = s.stk := (rfl)
@[simp] theorem State.onDecs_cmp (f : _ → _) : (s.onDecs f).cmp = s.cmp := (rfl)
@[simp] theorem State.onDecs_pkg (f : _ → _) : (s.onDecs f).pkg = s.pkg := (rfl)
@[simp] theorem State.rd_onDecs (f : _ → _) (adr : Nat) : (s.onDecs f).rd adr = s.rd adr := (rfl)
@[simp] theorem State.fld_onDecs (f : _ → _) (adr : Nat) (fd : Fld) : (s.onDecs f).fld adr fd = s.fld adr fd := (rfl)
@[simp] theorem State.actv_onDecs (f : _ → _) (adr : Nat) : (s.onDecs f).actv adr = s.actv adr := (rfl)

/-! ### onReplay -/
@[simp] theorem State.onReplay_pending (f : _ → _) : (s.onReplay f).pending = s.pending := (rfl)
@[simp] theorem State.onReplay_regs (f : _ → _) : (s.onReplay f).regs = s.regs := (rfl)
@[simp] theorem State.onReplay_act (f : _ → _) : (s.onReplay f).act = s.act := (rfl)
@[simp] theorem State.onReplay_snap (f : _ → _) : (s.onReplay f).snap = s.snap := (rfl)
@[simp] theorem State.onReplay_staged (f : _ → _) : (s.onReplay f).staged = s.staged := (rfl)
@[simp] theorem State.onReplay_readData (f : _ → _) : (s.onReplay f).readData = s.readData := (rfl)
@[simp] theorem State.onReplay_outs (f : _ → _) : (s.onReplay f).outs = s.outs := (rfl)
@[simp] theorem State.onReplay_time (f : _ → _) : (s.onReplay f).time = s.time := (rfl)
@[simp] theorem State.onReplay_frac (f : _ → _) : (s.onReplay f).frac = s.frac := (rfl)
@[simp] theorem State.onReplay_freeCtr (f : _ → _) : (s.onReplay f).freeCtr = s.freeCtr := (rfl)
@[simp] theorem State.onReplay_store (f : _ → _) : (s.onReplay f).store = s.store := (rfl)
@[simp] theorem State.onReplay_hostMem (f : _ → _) : (s.onReplay f).hostMem = s.hostMem := (rfl)
@[simp] theorem State.onReplay_flash (f : _ → _) : (s.onReplay f).flash = s.flash := (rfl)
@[simp] theorem State.onReplay_evt (f : _ → _) : (s.onReplay f).evt = s.evt := (rfl)
@[simp] theorem State.onReplay_hif (f : _ → _) : (s.onReplay f).hif = s.hif := (rfl)
@[simp] theorem State.onReplay_ctxs (f : _ → _) : (s.onReplay f).ctxs = s.ctxs := (rfl)
@[simp] theorem State.onReplay_billets (f : _ → _) : (s.onReplay f).billets = s.billets := (rfl)
@[simp] theorem State.onReplay_ports (f : _ → _) : (s.onReplay f).ports = s.ports := (rfl)
@[simp] theorem State.onReplay_aside (f : _ → _) : (s.onReplay f).aside = s.aside := (rfl)
@[simp] theorem State.onReplay_served (f : _ → _) : (s.onReplay f).served = s.served := (rfl)
@[simp] theorem State.onReplay_badLines (f : _ → _) : (s.onReplay f).badLines = s.badLines := (rfl)
@[simp] theorem State.onReplay_clk (f : _ → _) : (s.onReplay f).clk = s.clk := (rfl)
@[simp] theorem State.onReplay_plan (f : _ → _) : (s.onReplay f).plan = s.plan := (rfl)
@[simp] theorem State.onReplay_tbs (f : _ → _) : (s.onReplay f).tbs = s.tbs := (rfl)
@[simp] theorem State.onReplay_tdc (f : _ → _) : (s.onReplay f).tdc = s.tdc := (rfl)
@[simp] theorem State.onReplay_cnv (f : _ → _) : (s.onReplay f).cnv = s.cnv := (rfl)
@[simp] theorem State.onReplay_pg (f : _ → _) : (s.onReplay f).pg = s.pg := (rfl)
@[simp] theorem State.onReplay_cal (f : _ → _) : (s.onReplay f).cal = s.cal := (rfl)
@[simp] theorem State.onReplay_ddc (f : _ → _) : (s.onReplay f).ddc = s.ddc := (rfl)
@[simp] theorem State.onReplay_xfm (f : _ → _) : (s.onReplay f).xfm = s.xfm := (rfl)
@[simp] theorem State.onReplay_streams (f : _ → _) : (s.onReplay f).streams = s.streams := (rfl)
@[simp] theorem State.onReplay_frames (f : _ → _) : (s.onReplay f).frames = s.frames := (rfl)
@[simp] theorem State.onReplay_det (f : _ → _) : (s.onReplay f).det = s.det := (rfl)
@[simp] theorem State.onReplay_den (f : _ → _) : (s.onReplay f).den = s.den := (rfl)
@[simp] theorem State.onReplay_tq (f : _ → _) : (s.onReplay f).tq = s.tq := (rfl)
@[simp] theorem State.onReplay_lt (f : _ → _) : (s.onReplay f).lt = s.lt := (rfl)
@[simp] theorem State.onReplay_fm (f : _ → _) : (s.onReplay f).fm = s.fm := (rfl)
@[simp] theorem State.onReplay_bus (f : _ → _) : (s.onReplay f).bus = s.bus := (rfl)
@[simp] theorem State.onReplay_tmr (f : _ → _) : (s.onReplay f).tmr = s.tmr := (rfl)
@[simp] theorem State.onReplay_decs (f : _ → _) : (s.onReplay f).decs = s.decs := (rfl)
@[simp] theorem State.onReplay_au (f : _ → _) : (s.onReplay f).au = s.au := (rfl)
@[simp] theorem State.onReplay_turf (f : _ → _) : (s.onReplay f).turf = s.turf := (rfl)
@[simp] theorem State.onReplay_clusters (f : _ → _) : (s.onReplay f).clusters = s.clusters := (rfl)
@[simp] theorem State.onReplay_net (f : _ → _) : (s.onReplay f).net = s.net := (rfl)
@[simp] theorem State.onReplay_ave (f : _ → _) : (s.onReplay f).ave = s.ave := (rfl)
@[simp] theorem State.onReplay_slots (f : _ → _) : (s.onReplay f).slots = s.slots := (rfl)
@[simp] theorem State.onReplay_dis (f : _ → _) : (s.onReplay f).dis = s.dis := (rfl)
@[simp] theorem State.onReplay_layers (f : _ → _) : (s.onReplay f).layers = s.layers := (rfl)
@[simp] theorem State.onReplay_mem (f : _ → _) : (s.onReplay f).mem = s.mem := (rfl)
@[simp] theorem State.onReplay_dma (f : _ → _) : (s.onReplay f).dma = s.dma := (rfl)
@[simp] theorem State.onReplay_rst (f : _ → _) : (s.onReplay f).rst = s.rst := (rfl)
@[simp] theorem State.onReplay_stk (f : _ → _) : (s.onReplay f).stk = s.stk := (rfl)
@[simp] theorem State.onReplay_cmp (f : _ → _) : (s.onReplay f).cmp = s.cmp := (rfl)
@[simp] theorem State.onReplay_pkg (f : _ → _) : (s.onReplay f).pkg = s.pkg := (rfl)
@[simp] theorem State.rd_onReplay (f : _ → _) (adr : Nat) : (s.onReplay f).rd adr = s.rd adr := (rfl)
@[simp] theorem State.fld_onReplay (f : _ → _) (adr : Nat) (fd : Fld) : (s.onReplay f).fld adr fd = s.fld adr fd := (rfl)
@[simp] theorem State.actv_onReplay (f : _ → _) (adr : Nat) : (s.onReplay f).actv adr = s.actv adr := (rfl)

/-! ### onSlots -/
@[simp] theorem State.onSlots_pending (f : _ → _) : (s.onSlots f).pending = s.pending := (rfl)
@[simp] theorem State.onSlots_regs (f : _ → _) : (s.onSlots f).regs = s.regs := (rfl)
@[simp] theorem State.onSlots_act (f : _ → _) : (s.onSlots f).act = s.act := (rfl)
@[simp] theorem State.onSlots_snap (f : _ → _) : (s.onSlots f).snap = s.snap := (rfl)
@[simp] theorem State.onSlots_staged (f : _ → _) : (s.onSlots f).staged = s.staged := (rfl)
@[simp] theorem State.onSlots_readData (f : _ → _) : (s.onSlots f).readData = s.readData := (rfl)
@[simp] theorem State.onSlots_outs (f : _ → _) : (s.onSlots f).outs = s.outs := (rfl)
@[simp] theorem State.onSlots_time (f : _ → _) : (s.onSlots f).time = s.time := (rfl)
@[simp] theorem State.onSlots_frac (f : _ → _) : (s.onSlots f).frac = s.frac := (rfl)
@[simp] theorem State.onSlots_freeCtr (f : _ → _) : (s.onSlots f).freeCtr = s.freeCtr := (rfl)
@[simp] theorem State.onSlots_store (f : _ → _) : (s.onSlots f).store = s.store := (rfl)
@[simp] theorem State.onSlots_hostMem (f : _ → _) : (s.onSlots f).hostMem = s.hostMem := (rfl)
@[simp] theorem State.onSlots_flash (f : _ → _) : (s.onSlots f).flash = s.flash := (rfl)
@[simp] theorem State.onSlots_evt (f : _ → _) : (s.onSlots f).evt = s.evt := (rfl)
@[simp] theorem State.onSlots_hif (f : _ → _) : (s.onSlots f).hif = s.hif := (rfl)
@[simp] theorem State.onSlots_ctxs (f : _ → _) : (s.onSlots f).ctxs = s.ctxs := (rfl)
@[simp] theorem State.onSlots_billets (f : _ → _) : (s.onSlots f).billets = s.billets := (rfl)
@[simp] theorem State.onSlots_ports (f : _ → _) : (s.onSlots f).ports = s.ports := (rfl)
@[simp] theorem State.onSlots_aside (f : _ → _) : (s.onSlots f).aside = s.aside := (rfl)
@[simp] theorem State.onSlots_served (f : _ → _) : (s.onSlots f).served = s.served := (rfl)
@[simp] theorem State.onSlots_badLines (f : _ → _) : (s.onSlots f).badLines = s.badLines := (rfl)
@[simp] theorem State.onSlots_clk (f : _ → _) : (s.onSlots f).clk = s.clk := (rfl)
@[simp] theorem State.onSlots_plan (f : _ → _) : (s.onSlots f).plan = s.plan := (rfl)
@[simp] theorem State.onSlots_tbs (f : _ → _) : (s.onSlots f).tbs = s.tbs := (rfl)
@[simp] theorem State.onSlots_tdc (f : _ → _) : (s.onSlots f).tdc = s.tdc := (rfl)
@[simp] theorem State.onSlots_cnv (f : _ → _) : (s.onSlots f).cnv = s.cnv := (rfl)
@[simp] theorem State.onSlots_pg (f : _ → _) : (s.onSlots f).pg = s.pg := (rfl)
@[simp] theorem State.onSlots_cal (f : _ → _) : (s.onSlots f).cal = s.cal := (rfl)
@[simp] theorem State.onSlots_ddc (f : _ → _) : (s.onSlots f).ddc = s.ddc := (rfl)
@[simp] theorem State.onSlots_xfm (f : _ → _) : (s.onSlots f).xfm = s.xfm := (rfl)
@[simp] theorem State.onSlots_streams (f : _ → _) : (s.onSlots f).streams = s.streams := (rfl)
@[simp] theorem State.onSlots_frames (f : _ → _) : (s.onSlots f).frames = s.frames := (rfl)
@[simp] theorem State.onSlots_det (f : _ → _) : (s.onSlots f).det = s.det := (rfl)
@[simp] theorem State.onSlots_den (f : _ → _) : (s.onSlots f).den = s.den := (rfl)
@[simp] theorem State.onSlots_tq (f : _ → _) : (s.onSlots f).tq = s.tq := (rfl)
@[simp] theorem State.onSlots_lt (f : _ → _) : (s.onSlots f).lt = s.lt := (rfl)
@[simp] theorem State.onSlots_fm (f : _ → _) : (s.onSlots f).fm = s.fm := (rfl)
@[simp] theorem State.onSlots_bus (f : _ → _) : (s.onSlots f).bus = s.bus := (rfl)
@[simp] theorem State.onSlots_tmr (f : _ → _) : (s.onSlots f).tmr = s.tmr := (rfl)
@[simp] theorem State.onSlots_decs (f : _ → _) : (s.onSlots f).decs = s.decs := (rfl)
@[simp] theorem State.onSlots_au (f : _ → _) : (s.onSlots f).au = s.au := (rfl)
@[simp] theorem State.onSlots_replay (f : _ → _) : (s.onSlots f).replay = s.replay := (rfl)
@[simp] theorem State.onSlots_turf (f : _ → _) : (s.onSlots f).turf = s.turf := (rfl)
@[simp] theorem State.onSlots_clusters (f : _ → _) : (s.onSlots f).clusters = s.clusters := (rfl)
@[simp] theorem State.onSlots_net (f : _ → _) : (s.onSlots f).net = s.net := (rfl)
@[simp] theorem State.onSlots_ave (f : _ → _) : (s.onSlots f).ave = s.ave := (rfl)
@[simp] theorem State.onSlots_dis (f : _ → _) : (s.onSlots f).dis = s.dis := (rfl)
@[simp] theorem State.onSlots_layers (f : _ → _) : (s.onSlots f).layers = s.layers := (rfl)
@[simp] theorem State.onSlots_mem (f : _ → _) : (s.onSlots f).mem = s.mem := (rfl)
@[simp] theorem State.onSlots_dma (f : _ → _) : (s.onSlots f).dma = s.dma := (rfl)
@[simp] theorem State.onSlots_rst (f : _ → _) : (s.onSlots f).rst = s.rst := (rfl)
@[simp] theorem State.onSlots_stk (f : _ → _) : (s.onSlots f).stk = s.stk := (rfl)
@[simp] theorem State.onSlots_cmp (f : _ → _) : (s.onSlots f).cmp = s.cmp := (rfl)
@[simp] theorem State.onSlots_pkg (f : _ → _) : (s.onSlots f).pkg = s.pkg := (rfl)
@[simp] theorem State.rd_onSlots (f : _ → _) (adr : Nat) : (s.onSlots f).rd adr = s.rd adr := (rfl)
@[simp] theorem State.fld_onSlots (f : _ → _) (adr : Nat) (fd : Fld) : (s.onSlots f).fld adr fd = s.fld adr fd := (rfl)
@[simp] theorem State.actv_onSlots (f : _ → _) (adr : Nat) : (s.onSlots f).actv adr = s.actv adr := (rfl)

/-! ### onMem -/
@[simp] theorem State.onMem_pending (f : _ → _) : (s.onMem f).pending = s.pending := (rfl)
@[simp] theorem State.onMem_regs (f : _ → _) : (s.onMem f).regs = s.regs := (rfl)
@[simp] theorem State.onMem_act (f : _ → _) : (s.onMem f).act = s.act := (rfl)
@[simp] theorem State.onMem_snap (f : _ → _) : (s.onMem f).snap = s.snap := (rfl)
@[simp] theorem State.onMem_staged (f : _ → _) : (s.onMem f).staged = s.staged := (rfl)
@[simp] theorem State.onMem_readData (f : _ → _) : (s.onMem f).readData = s.readData := (rfl)
@[simp] theorem State.onMem_outs (f : _ → _) : (s.onMem f).outs = s.outs := (rfl)
@[simp] theorem State.onMem_time (f : _ → _) : (s.onMem f).time = s.time := (rfl)
@[simp] theorem State.onMem_frac (f : _ → _) : (s.onMem f).frac = s.frac := (rfl)
@[simp] theorem State.onMem_freeCtr (f : _ → _) : (s.onMem f).freeCtr = s.freeCtr := (rfl)
@[simp] theorem State.onMem_store (f : _ → _) : (s.onMem f).store = s.store := (rfl)
@[simp] theorem State.onMem_hostMem (f : _ → _) : (s.onMem f).hostMem = s.hostMem := (rfl)
@[simp] theorem State.onMem_flash (f : _ → _) : (s.onMem f).flash = s.flash := (rfl)
@[simp] theorem State.onMem_evt (f : _ → _) : (s.onMem f).evt = s.evt := (rfl)
@[simp] theorem State.onMem_hif (f : _ → _) : (s.onMem f).hif = s.hif := (rfl)
@[simp] theorem State.onMem_ctxs (f : _ → _) : (s.onMem f).ctxs = s.ctxs := (rfl)
@[simp] theorem State.onMem_billets (f : _ → _) : (s.onMem f).billets = s.billets := (rfl)
@[simp] theorem State.onMem_ports (f : _ → _) : (s.onMem f).ports = s.ports := (rfl)
@[simp] theorem State.onMem_aside (f : _ → _) : (s.onMem f).aside = s.aside := (rfl)
@[simp] theorem State.onMem_served (f : _ → _) : (s.onMem f).served = s.served := (rfl)
@[simp] theorem State.onMem_badLines (f : _ → _) : (s.onMem f).badLines = s.badLines := (rfl)
@[simp] theorem State.onMem_clk (f : _ → _) : (s.onMem f).clk = s.clk := (rfl)
@[simp] theorem State.onMem_plan (f : _ → _) : (s.onMem f).plan = s.plan := (rfl)
@[simp] theorem State.onMem_tbs (f : _ → _) : (s.onMem f).tbs = s.tbs := (rfl)
@[simp] theorem State.onMem_tdc (f : _ → _) : (s.onMem f).tdc = s.tdc := (rfl)
@[simp] theorem State.onMem_cnv (f : _ → _) : (s.onMem f).cnv = s.cnv := (rfl)
@[simp] theorem State.onMem_pg (f : _ → _) : (s.onMem f).pg = s.pg := (rfl)
@[simp] theorem State.onMem_cal (f : _ → _) : (s.onMem f).cal = s.cal := (rfl)
@[simp] theorem State.onMem_ddc (f : _ → _) : (s.onMem f).ddc = s.ddc := (rfl)
@[simp] theorem State.onMem_xfm (f : _ → _) : (s.onMem f).xfm = s.xfm := (rfl)
@[simp] theorem State.onMem_streams (f : _ → _) : (s.onMem f).streams = s.streams := (rfl)
@[simp] theorem State.onMem_frames (f : _ → _) : (s.onMem f).frames = s.frames := (rfl)
@[simp] theorem State.onMem_det (f : _ → _) : (s.onMem f).det = s.det := (rfl)
@[simp] theorem State.onMem_den (f : _ → _) : (s.onMem f).den = s.den := (rfl)
@[simp] theorem State.onMem_tq (f : _ → _) : (s.onMem f).tq = s.tq := (rfl)
@[simp] theorem State.onMem_lt (f : _ → _) : (s.onMem f).lt = s.lt := (rfl)
@[simp] theorem State.onMem_fm (f : _ → _) : (s.onMem f).fm = s.fm := (rfl)
@[simp] theorem State.onMem_bus (f : _ → _) : (s.onMem f).bus = s.bus := (rfl)
@[simp] theorem State.onMem_tmr (f : _ → _) : (s.onMem f).tmr = s.tmr := (rfl)
@[simp] theorem State.onMem_decs (f : _ → _) : (s.onMem f).decs = s.decs := (rfl)
@[simp] theorem State.onMem_au (f : _ → _) : (s.onMem f).au = s.au := (rfl)
@[simp] theorem State.onMem_replay (f : _ → _) : (s.onMem f).replay = s.replay := (rfl)
@[simp] theorem State.onMem_turf (f : _ → _) : (s.onMem f).turf = s.turf := (rfl)
@[simp] theorem State.onMem_clusters (f : _ → _) : (s.onMem f).clusters = s.clusters := (rfl)
@[simp] theorem State.onMem_net (f : _ → _) : (s.onMem f).net = s.net := (rfl)
@[simp] theorem State.onMem_ave (f : _ → _) : (s.onMem f).ave = s.ave := (rfl)
@[simp] theorem State.onMem_slots (f : _ → _) : (s.onMem f).slots = s.slots := (rfl)
@[simp] theorem State.onMem_dis (f : _ → _) : (s.onMem f).dis = s.dis := (rfl)
@[simp] theorem State.onMem_layers (f : _ → _) : (s.onMem f).layers = s.layers := (rfl)
@[simp] theorem State.onMem_dma (f : _ → _) : (s.onMem f).dma = s.dma := (rfl)
@[simp] theorem State.onMem_rst (f : _ → _) : (s.onMem f).rst = s.rst := (rfl)
@[simp] theorem State.onMem_stk (f : _ → _) : (s.onMem f).stk = s.stk := (rfl)
@[simp] theorem State.onMem_cmp (f : _ → _) : (s.onMem f).cmp = s.cmp := (rfl)
@[simp] theorem State.onMem_pkg (f : _ → _) : (s.onMem f).pkg = s.pkg := (rfl)
@[simp] theorem State.rd_onMem (f : _ → _) (adr : Nat) : (s.onMem f).rd adr = s.rd adr := (rfl)
@[simp] theorem State.fld_onMem (f : _ → _) (adr : Nat) (fd : Fld) : (s.onMem f).fld adr fd = s.fld adr fd := (rfl)
@[simp] theorem State.actv_onMem (f : _ → _) (adr : Nat) : (s.onMem f).actv adr = s.actv adr := (rfl)

/-! ### onRst -/
@[simp] theorem State.onRst_pending (f : _ → _) : (s.onRst f).pending = s.pending := (rfl)
@[simp] theorem State.onRst_regs (f : _ → _) : (s.onRst f).regs = s.regs := (rfl)
@[simp] theorem State.onRst_act (f : _ → _) : (s.onRst f).act = s.act := (rfl)
@[simp] theorem State.onRst_snap (f : _ → _) : (s.onRst f).snap = s.snap := (rfl)
@[simp] theorem State.onRst_staged (f : _ → _) : (s.onRst f).staged = s.staged := (rfl)
@[simp] theorem State.onRst_readData (f : _ → _) : (s.onRst f).readData = s.readData := (rfl)
@[simp] theorem State.onRst_outs (f : _ → _) : (s.onRst f).outs = s.outs := (rfl)
@[simp] theorem State.onRst_time (f : _ → _) : (s.onRst f).time = s.time := (rfl)
@[simp] theorem State.onRst_frac (f : _ → _) : (s.onRst f).frac = s.frac := (rfl)
@[simp] theorem State.onRst_freeCtr (f : _ → _) : (s.onRst f).freeCtr = s.freeCtr := (rfl)
@[simp] theorem State.onRst_store (f : _ → _) : (s.onRst f).store = s.store := (rfl)
@[simp] theorem State.onRst_hostMem (f : _ → _) : (s.onRst f).hostMem = s.hostMem := (rfl)
@[simp] theorem State.onRst_flash (f : _ → _) : (s.onRst f).flash = s.flash := (rfl)
@[simp] theorem State.onRst_evt (f : _ → _) : (s.onRst f).evt = s.evt := (rfl)
@[simp] theorem State.onRst_hif (f : _ → _) : (s.onRst f).hif = s.hif := (rfl)
@[simp] theorem State.onRst_ctxs (f : _ → _) : (s.onRst f).ctxs = s.ctxs := (rfl)
@[simp] theorem State.onRst_billets (f : _ → _) : (s.onRst f).billets = s.billets := (rfl)
@[simp] theorem State.onRst_ports (f : _ → _) : (s.onRst f).ports = s.ports := (rfl)
@[simp] theorem State.onRst_aside (f : _ → _) : (s.onRst f).aside = s.aside := (rfl)
@[simp] theorem State.onRst_served (f : _ → _) : (s.onRst f).served = s.served := (rfl)
@[simp] theorem State.onRst_badLines (f : _ → _) : (s.onRst f).badLines = s.badLines := (rfl)
@[simp] theorem State.onRst_clk (f : _ → _) : (s.onRst f).clk = s.clk := (rfl)
@[simp] theorem State.onRst_plan (f : _ → _) : (s.onRst f).plan = s.plan := (rfl)
@[simp] theorem State.onRst_tbs (f : _ → _) : (s.onRst f).tbs = s.tbs := (rfl)
@[simp] theorem State.onRst_tdc (f : _ → _) : (s.onRst f).tdc = s.tdc := (rfl)
@[simp] theorem State.onRst_cnv (f : _ → _) : (s.onRst f).cnv = s.cnv := (rfl)
@[simp] theorem State.onRst_pg (f : _ → _) : (s.onRst f).pg = s.pg := (rfl)
@[simp] theorem State.onRst_cal (f : _ → _) : (s.onRst f).cal = s.cal := (rfl)
@[simp] theorem State.onRst_ddc (f : _ → _) : (s.onRst f).ddc = s.ddc := (rfl)
@[simp] theorem State.onRst_xfm (f : _ → _) : (s.onRst f).xfm = s.xfm := (rfl)
@[simp] theorem State.onRst_streams (f : _ → _) : (s.onRst f).streams = s.streams := (rfl)
@[simp] theorem State.onRst_frames (f : _ → _) : (s.onRst f).frames = s.frames := (rfl)
@[simp] theorem State.onRst_det (f : _ → _) : (s.onRst f).det = s.det := (rfl)
@[simp] theorem State.onRst_den (f : _ → _) : (s.onRst f).den = s.den := (rfl)
@[simp] theorem State.onRst_tq (f : _ → _) : (s.onRst f).tq = s.tq := (rfl)
@[simp] theorem State.onRst_lt (f : _ → _) : (s.onRst f).lt = s.lt := (rfl)
@[simp] theorem State.onRst_fm (f : _ → _) : (s.onRst f).fm = s.fm := (rfl)
@[simp] theorem State.onRst_bus (f : _ → _) : (s.onRst f).bus = s.bus := (rfl)
@[simp] theorem State.onRst_tmr (f : _ → _) : (s.onRst f).tmr = s.tmr := (rfl)
@[simp] theorem State.onRst_decs (f : _ → _) : (s.onRst f).decs = s.decs := (rfl)
@[simp] theorem State.onRst_au (f : _ → _) : (s.onRst f).au = s.au := (rfl)
@[simp] theorem State.onRst_replay (f : _ → _) : (s.onRst f).replay = s.replay := (rfl)
@[simp] theorem State.onRst_turf (f : _ → _) : (s.onRst f).turf = s.turf := (rfl)
@[simp] theorem State.onRst_clusters (f : _ → _) : (s.onRst f).clusters = s.clusters := (rfl)
@[simp] theorem State.onRst_net (f : _ → _) : (s.onRst f).net = s.net := (rfl)
@[simp] theorem State.onRst_ave (f : _ → _) : (s.onRst f).ave = s.ave := (rfl)
@[simp] theorem State.onRst_slots (f : _ → _) : (s.onRst f).slots = s.slots := (rfl)
@[simp] theorem State.onRst_dis (f : _ → _) : (s.onRst f).dis = s.dis := (rfl)
@[simp] theorem State.onRst_layers (f : _ → _) : (s.onRst f).layers = s.layers := (rfl)
@[simp] theorem State.onRst_mem (f : _ → _) : (s.onRst f).mem = s.mem := (rfl)
@[simp] theorem State.onRst_dma (f : _ → _) : (s.onRst f).dma = s.dma := (rfl)
@[simp] theorem State.onRst_stk (f : _ → _) : (s.onRst f).stk = s.stk := (rfl)
@[simp] theorem State.onRst_cmp (f : _ → _) : (s.onRst f).cmp = s.cmp := (rfl)
@[simp] theorem State.onRst_pkg (f : _ → _) : (s.onRst f).pkg = s.pkg := (rfl)
@[simp] theorem State.rd_onRst (f : _ → _) (adr : Nat) : (s.onRst f).rd adr = s.rd adr := (rfl)
@[simp] theorem State.fld_onRst (f : _ → _) (adr : Nat) (fd : Fld) : (s.onRst f).fld adr fd = s.fld adr fd := (rfl)
@[simp] theorem State.actv_onRst (f : _ → _) (adr : Nat) : (s.onRst f).actv adr = s.actv adr := (rfl)

/-! ### onStk -/
@[simp] theorem State.onStk_pending (f : _ → _) : (s.onStk f).pending = s.pending := (rfl)
@[simp] theorem State.onStk_regs (f : _ → _) : (s.onStk f).regs = s.regs := (rfl)
@[simp] theorem State.onStk_act (f : _ → _) : (s.onStk f).act = s.act := (rfl)
@[simp] theorem State.onStk_snap (f : _ → _) : (s.onStk f).snap = s.snap := (rfl)
@[simp] theorem State.onStk_staged (f : _ → _) : (s.onStk f).staged = s.staged := (rfl)
@[simp] theorem State.onStk_readData (f : _ → _) : (s.onStk f).readData = s.readData := (rfl)
@[simp] theorem State.onStk_outs (f : _ → _) : (s.onStk f).outs = s.outs := (rfl)
@[simp] theorem State.onStk_time (f : _ → _) : (s.onStk f).time = s.time := (rfl)
@[simp] theorem State.onStk_frac (f : _ → _) : (s.onStk f).frac = s.frac := (rfl)
@[simp] theorem State.onStk_freeCtr (f : _ → _) : (s.onStk f).freeCtr = s.freeCtr := (rfl)
@[simp] theorem State.onStk_store (f : _ → _) : (s.onStk f).store = s.store := (rfl)
@[simp] theorem State.onStk_hostMem (f : _ → _) : (s.onStk f).hostMem = s.hostMem := (rfl)
@[simp] theorem State.onStk_flash (f : _ → _) : (s.onStk f).flash = s.flash := (rfl)
@[simp] theorem State.onStk_evt (f : _ → _) : (s.onStk f).evt = s.evt := (rfl)
@[simp] theorem State.onStk_hif (f : _ → _) : (s.onStk f).hif = s.hif := (rfl)
@[simp] theorem State.onStk_ctxs (f : _ → _) : (s.onStk f).ctxs = s.ctxs := (rfl)
@[simp] theorem State.onStk_billets (f : _ → _) : (s.onStk f).billets = s.billets := (rfl)
@[simp] theorem State.onStk_ports (f : _ → _) : (s.onStk f).ports = s.ports := (rfl)
@[simp] theorem State.onStk_aside (f : _ → _) : (s.onStk f).aside = s.aside := (rfl)
@[simp] theorem State.onStk_served (f : _ → _) : (s.onStk f).served = s.served := (rfl)
@[simp] theorem State.onStk_badLines (f : _ → _) : (s.onStk f).badLines = s.badLines := (rfl)
@[simp] theorem State.onStk_clk (f : _ → _) : (s.onStk f).clk = s.clk := (rfl)
@[simp] theorem State.onStk_plan (f : _ → _) : (s.onStk f).plan = s.plan := (rfl)
@[simp] theorem State.onStk_tbs (f : _ → _) : (s.onStk f).tbs = s.tbs := (rfl)
@[simp] theorem State.onStk_tdc (f : _ → _) : (s.onStk f).tdc = s.tdc := (rfl)
@[simp] theorem State.onStk_cnv (f : _ → _) : (s.onStk f).cnv = s.cnv := (rfl)
@[simp] theorem State.onStk_pg (f : _ → _) : (s.onStk f).pg = s.pg := (rfl)
@[simp] theorem State.onStk_cal (f : _ → _) : (s.onStk f).cal = s.cal := (rfl)
@[simp] theorem State.onStk_ddc (f : _ → _) : (s.onStk f).ddc = s.ddc := (rfl)
@[simp] theorem State.onStk_xfm (f : _ → _) : (s.onStk f).xfm = s.xfm := (rfl)
@[simp] theorem State.onStk_streams (f : _ → _) : (s.onStk f).streams = s.streams := (rfl)
@[simp] theorem State.onStk_frames (f : _ → _) : (s.onStk f).frames = s.frames := (rfl)
@[simp] theorem State.onStk_det (f : _ → _) : (s.onStk f).det = s.det := (rfl)
@[simp] theorem State.onStk_den (f : _ → _) : (s.onStk f).den = s.den := (rfl)
@[simp] theorem State.onStk_tq (f : _ → _) : (s.onStk f).tq = s.tq := (rfl)
@[simp] theorem State.onStk_lt (f : _ → _) : (s.onStk f).lt = s.lt := (rfl)
@[simp] theorem State.onStk_fm (f : _ → _) : (s.onStk f).fm = s.fm := (rfl)
@[simp] theorem State.onStk_bus (f : _ → _) : (s.onStk f).bus = s.bus := (rfl)
@[simp] theorem State.onStk_tmr (f : _ → _) : (s.onStk f).tmr = s.tmr := (rfl)
@[simp] theorem State.onStk_decs (f : _ → _) : (s.onStk f).decs = s.decs := (rfl)
@[simp] theorem State.onStk_au (f : _ → _) : (s.onStk f).au = s.au := (rfl)
@[simp] theorem State.onStk_replay (f : _ → _) : (s.onStk f).replay = s.replay := (rfl)
@[simp] theorem State.onStk_turf (f : _ → _) : (s.onStk f).turf = s.turf := (rfl)
@[simp] theorem State.onStk_clusters (f : _ → _) : (s.onStk f).clusters = s.clusters := (rfl)
@[simp] theorem State.onStk_net (f : _ → _) : (s.onStk f).net = s.net := (rfl)
@[simp] theorem State.onStk_ave (f : _ → _) : (s.onStk f).ave = s.ave := (rfl)
@[simp] theorem State.onStk_slots (f : _ → _) : (s.onStk f).slots = s.slots := (rfl)
@[simp] theorem State.onStk_dis (f : _ → _) : (s.onStk f).dis = s.dis := (rfl)
@[simp] theorem State.onStk_layers (f : _ → _) : (s.onStk f).layers = s.layers := (rfl)
@[simp] theorem State.onStk_mem (f : _ → _) : (s.onStk f).mem = s.mem := (rfl)
@[simp] theorem State.onStk_dma (f : _ → _) : (s.onStk f).dma = s.dma := (rfl)
@[simp] theorem State.onStk_rst (f : _ → _) : (s.onStk f).rst = s.rst := (rfl)
@[simp] theorem State.onStk_cmp (f : _ → _) : (s.onStk f).cmp = s.cmp := (rfl)
@[simp] theorem State.onStk_pkg (f : _ → _) : (s.onStk f).pkg = s.pkg := (rfl)
@[simp] theorem State.rd_onStk (f : _ → _) (adr : Nat) : (s.onStk f).rd adr = s.rd adr := (rfl)
@[simp] theorem State.fld_onStk (f : _ → _) (adr : Nat) (fd : Fld) : (s.onStk f).fld adr fd = s.fld adr fd := (rfl)
@[simp] theorem State.actv_onStk (f : _ → _) (adr : Nat) : (s.onStk f).actv adr = s.actv adr := (rfl)

/-! ### updAu -/
@[simp] theorem State.updAu_pending (n : Nat) (f : Au → Au) : (s.updAu n f).pending = s.pending := (rfl)
@[simp] theorem State.updAu_regs (n : Nat) (f : Au → Au) : (s.updAu n f).regs = s.regs := (rfl)
@[simp] theorem State.updAu_act (n : Nat) (f : Au → Au) : (s.updAu n f).act = s.act := (rfl)
@[simp] theorem State.updAu_snap (n : Nat) (f : Au → Au) : (s.updAu n f).snap = s.snap := (rfl)
@[simp] theorem State.updAu_staged (n : Nat) (f : Au → Au) : (s.updAu n f).staged = s.staged := (rfl)
@[simp] theorem State.updAu_readData (n : Nat) (f : Au → Au) : (s.updAu n f).readData = s.readData := (rfl)
@[simp] theorem State.updAu_outs (n : Nat) (f : Au → Au) : (s.updAu n f).outs = s.outs := (rfl)
@[simp] theorem State.updAu_time (n : Nat) (f : Au → Au) : (s.updAu n f).time = s.time := (rfl)
@[simp] theorem State.updAu_frac (n : Nat) (f : Au → Au) : (s.updAu n f).frac = s.frac := (rfl)
@[simp] theorem State.updAu_freeCtr (n : Nat) (f : Au → Au) : (s.updAu n f).freeCtr = s.freeCtr := (rfl)
@[simp] theorem State.updAu_store (n : Nat) (f : Au → Au) : (s.updAu n f).store = s.store := (rfl)
@[simp] theorem State.updAu_hostMem (n : Nat) (f : Au → Au) : (s.updAu n f).hostMem = s.hostMem := (rfl)
@[simp] theorem State.updAu_flash (n : Nat) (f : Au → Au) : (s.updAu n f).flash = s.flash := (rfl)
@[simp] theorem State.updAu_evt (n : Nat) (f : Au → Au) : (s.updAu n f).evt = s.evt := (rfl)
@[simp] theorem State.updAu_hif (n : Nat) (f : Au → Au) : (s.updAu n f).hif = s.hif := (rfl)
@[simp] theorem State.updAu_ctxs (n : Nat) (f : Au → Au) : (s.updAu n f).ctxs = s.ctxs := (rfl)
@[simp] theorem State.updAu_billets (n : Nat) (f : Au → Au) : (s.updAu n f).billets = s.billets := (rfl)
@[simp] theorem State.updAu_ports (n : Nat) (f : Au → Au) : (s.updAu n f).ports = s.ports := (rfl)
@[simp] theorem State.updAu_aside (n : Nat) (f : Au → Au) : (s.updAu n f).aside = s.aside := (rfl)
@[simp] theorem State.updAu_served (n : Nat) (f : Au → Au) : (s.updAu n f).served = s.served := (rfl)
@[simp] theorem State.updAu_badLines (n : Nat) (f : Au → Au) : (s.updAu n f).badLines = s.badLines := (rfl)
@[simp] theorem State.updAu_clk (n : Nat) (f : Au → Au) : (s.updAu n f).clk = s.clk := (rfl)
@[simp] theorem State.updAu_plan (n : Nat) (f : Au → Au) : (s.updAu n f).plan = s.plan := (rfl)
@[simp] theorem State.updAu_tbs (n : Nat) (f : Au → Au) : (s.updAu n f).tbs = s.tbs := (rfl)
@[simp] theorem State.updAu_tdc (n : Nat) (f : Au → Au) : (s.updAu n f).tdc = s.tdc := (rfl)
@[simp] theorem State.updAu_cnv (n : Nat) (f : Au → Au) : (s.updAu n f).cnv = s.cnv := (rfl)
@[simp] theorem State.updAu_pg (n : Nat) (f : Au → Au) : (s.updAu n f).pg = s.pg := (rfl)
@[simp] theorem State.updAu_cal (n : Nat) (f : Au → Au) : (s.updAu n f).cal = s.cal := (rfl)
@[simp] theorem State.updAu_ddc (n : Nat) (f : Au → Au) : (s.updAu n f).ddc = s.ddc := (rfl)
@[simp] theorem State.updAu_xfm (n : Nat) (f : Au → Au) : (s.updAu n f).xfm = s.xfm := (rfl)
@[simp] theorem State.updAu_streams (n : Nat) (f : Au → Au) : (s.updAu n f).streams = s.streams := (rfl)
@[simp] theorem State.updAu_frames (n : Nat) (f : Au → Au) : (s.updAu n f).frames = s.frames := (rfl)
@[simp] theorem State.updAu_det (n : Nat) (f : Au → Au) : (s.updAu n f).det = s.det := (rfl)
@[simp] theorem State.updAu_den (n : Nat) (f : Au → Au) : (s.updAu n f).den = s.den := (rfl)
@[simp] theorem State.updAu_tq (n : Nat) (f : Au → Au) : (s.updAu n f).tq = s.tq := (rfl)
@[simp] theorem State.updAu_lt (n : Nat) (f : Au → Au) : (s.updAu n f).lt = s.lt := (rfl)
@[simp] theorem State.updAu_fm (n : Nat) (f : Au → Au) : (s.updAu n f).fm = s.fm := (rfl)
@[simp] theorem State.updAu_bus (n : Nat) (f : Au → Au) : (s.updAu n f).bus = s.bus := (rfl)
@[simp] theorem State.updAu_tmr (n : Nat) (f : Au → Au) : (s.updAu n f).tmr = s.tmr := (rfl)
@[simp] theorem State.updAu_decs (n : Nat) (f : Au → Au) : (s.updAu n f).decs = s.decs := (rfl)
@[simp] theorem State.updAu_replay (n : Nat) (f : Au → Au) : (s.updAu n f).replay = s.replay := (rfl)
@[simp] theorem State.updAu_turf (n : Nat) (f : Au → Au) : (s.updAu n f).turf = s.turf := (rfl)
@[simp] theorem State.updAu_clusters (n : Nat) (f : Au → Au) : (s.updAu n f).clusters = s.clusters := (rfl)
@[simp] theorem State.updAu_net (n : Nat) (f : Au → Au) : (s.updAu n f).net = s.net := (rfl)
@[simp] theorem State.updAu_ave (n : Nat) (f : Au → Au) : (s.updAu n f).ave = s.ave := (rfl)
@[simp] theorem State.updAu_slots (n : Nat) (f : Au → Au) : (s.updAu n f).slots = s.slots := (rfl)
@[simp] theorem State.updAu_dis (n : Nat) (f : Au → Au) : (s.updAu n f).dis = s.dis := (rfl)
@[simp] theorem State.updAu_layers (n : Nat) (f : Au → Au) : (s.updAu n f).layers = s.layers := (rfl)
@[simp] theorem State.updAu_mem (n : Nat) (f : Au → Au) : (s.updAu n f).mem = s.mem := (rfl)
@[simp] theorem State.updAu_dma (n : Nat) (f : Au → Au) : (s.updAu n f).dma = s.dma := (rfl)
@[simp] theorem State.updAu_rst (n : Nat) (f : Au → Au) : (s.updAu n f).rst = s.rst := (rfl)
@[simp] theorem State.updAu_stk (n : Nat) (f : Au → Au) : (s.updAu n f).stk = s.stk := (rfl)
@[simp] theorem State.updAu_cmp (n : Nat) (f : Au → Au) : (s.updAu n f).cmp = s.cmp := (rfl)
@[simp] theorem State.updAu_pkg (n : Nat) (f : Au → Au) : (s.updAu n f).pkg = s.pkg := (rfl)
@[simp] theorem State.rd_updAu (n : Nat) (f : Au → Au) (adr : Nat) : (s.updAu n f).rd adr = s.rd adr := (rfl)
@[simp] theorem State.fld_updAu (n : Nat) (f : Au → Au) (adr : Nat) (fd : Fld) : (s.updAu n f).fld adr fd = s.fld adr fd := (rfl)
@[simp] theorem State.actv_updAu (n : Nat) (f : Au → Au) (adr : Nat) : (s.updAu n f).actv adr = s.actv adr := (rfl)

/-! ### updClk -/
@[simp] theorem State.updClk_pending (f : Clk → Clk) : (s.updClk f).pending = s.pending := (rfl)
@[simp] theorem State.updClk_regs (f : Clk → Clk) : (s.updClk f).regs = s.regs := (rfl)
@[simp] theorem State.updClk_act (f : Clk → Clk) : (s.updClk f).act = s.act := (rfl)
@[simp] theorem State.updClk_snap (f : Clk → Clk) : (s.updClk f).snap = s.snap := (rfl)
@[simp] theorem State.updClk_staged (f : Clk → Clk) : (s.updClk f).staged = s.staged := (rfl)
@[simp] theorem State.updClk_readData (f : Clk → Clk) : (s.updClk f).readData = s.readData := (rfl)
@[simp] theorem State.updClk_outs (f : Clk → Clk) : (s.updClk f).outs = s.outs := (rfl)
@[simp] theorem State.updClk_time (f : Clk → Clk) : (s.updClk f).time = s.time := (rfl)
@[simp] theorem State.updClk_frac (f : Clk → Clk) : (s.updClk f).frac = s.frac := (rfl)
@[simp] theorem State.updClk_freeCtr (f : Clk → Clk) : (s.updClk f).freeCtr = s.freeCtr := (rfl)
@[simp] theorem State.updClk_store (f : Clk → Clk) : (s.updClk f).store = s.store := (rfl)
@[simp] theorem State.updClk_hostMem (f : Clk → Clk) : (s.updClk f).hostMem = s.hostMem := (rfl)
@[simp] theorem State.updClk_flash (f : Clk → Clk) : (s.updClk f).flash = s.flash := (rfl)
@[simp] theorem State.updClk_evt (f : Clk → Clk) : (s.updClk f).evt = s.evt := (rfl)
@[simp] theorem State.updClk_hif (f : Clk → Clk) : (s.updClk f).hif = s.hif := (rfl)
@[simp] theorem State.updClk_ctxs (f : Clk → Clk) : (s.updClk f).ctxs = s.ctxs := (rfl)
@[simp] theorem State.updClk_billets (f : Clk → Clk) : (s.updClk f).billets = s.billets := (rfl)
@[simp] theorem State.updClk_ports (f : Clk → Clk) : (s.updClk f).ports = s.ports := (rfl)
@[simp] theorem State.updClk_aside (f : Clk → Clk) : (s.updClk f).aside = s.aside := (rfl)
@[simp] theorem State.updClk_served (f : Clk → Clk) : (s.updClk f).served = s.served := (rfl)
@[simp] theorem State.updClk_badLines (f : Clk → Clk) : (s.updClk f).badLines = s.badLines := (rfl)
@[simp] theorem State.updClk_plan (f : Clk → Clk) : (s.updClk f).plan = s.plan := (rfl)
@[simp] theorem State.updClk_tbs (f : Clk → Clk) : (s.updClk f).tbs = s.tbs := (rfl)
@[simp] theorem State.updClk_tdc (f : Clk → Clk) : (s.updClk f).tdc = s.tdc := (rfl)
@[simp] theorem State.updClk_cnv (f : Clk → Clk) : (s.updClk f).cnv = s.cnv := (rfl)
@[simp] theorem State.updClk_pg (f : Clk → Clk) : (s.updClk f).pg = s.pg := (rfl)
@[simp] theorem State.updClk_cal (f : Clk → Clk) : (s.updClk f).cal = s.cal := (rfl)
@[simp] theorem State.updClk_ddc (f : Clk → Clk) : (s.updClk f).ddc = s.ddc := (rfl)
@[simp] theorem State.updClk_xfm (f : Clk → Clk) : (s.updClk f).xfm = s.xfm := (rfl)
@[simp] theorem State.updClk_streams (f : Clk → Clk) : (s.updClk f).streams = s.streams := (rfl)
@[simp] theorem State.updClk_frames (f : Clk → Clk) : (s.updClk f).frames = s.frames := (rfl)
@[simp] theorem State.updClk_det (f : Clk → Clk) : (s.updClk f).det = s.det := (rfl)
@[simp] theorem State.updClk_den (f : Clk → Clk) : (s.updClk f).den = s.den := (rfl)
@[simp] theorem State.updClk_tq (f : Clk → Clk) : (s.updClk f).tq = s.tq := (rfl)
@[simp] theorem State.updClk_lt (f : Clk → Clk) : (s.updClk f).lt = s.lt := (rfl)
@[simp] theorem State.updClk_fm (f : Clk → Clk) : (s.updClk f).fm = s.fm := (rfl)
@[simp] theorem State.updClk_bus (f : Clk → Clk) : (s.updClk f).bus = s.bus := (rfl)
@[simp] theorem State.updClk_tmr (f : Clk → Clk) : (s.updClk f).tmr = s.tmr := (rfl)
@[simp] theorem State.updClk_decs (f : Clk → Clk) : (s.updClk f).decs = s.decs := (rfl)
@[simp] theorem State.updClk_au (f : Clk → Clk) : (s.updClk f).au = s.au := (rfl)
@[simp] theorem State.updClk_replay (f : Clk → Clk) : (s.updClk f).replay = s.replay := (rfl)
@[simp] theorem State.updClk_turf (f : Clk → Clk) : (s.updClk f).turf = s.turf := (rfl)
@[simp] theorem State.updClk_clusters (f : Clk → Clk) : (s.updClk f).clusters = s.clusters := (rfl)
@[simp] theorem State.updClk_net (f : Clk → Clk) : (s.updClk f).net = s.net := (rfl)
@[simp] theorem State.updClk_ave (f : Clk → Clk) : (s.updClk f).ave = s.ave := (rfl)
@[simp] theorem State.updClk_slots (f : Clk → Clk) : (s.updClk f).slots = s.slots := (rfl)
@[simp] theorem State.updClk_dis (f : Clk → Clk) : (s.updClk f).dis = s.dis := (rfl)
@[simp] theorem State.updClk_layers (f : Clk → Clk) : (s.updClk f).layers = s.layers := (rfl)
@[simp] theorem State.updClk_mem (f : Clk → Clk) : (s.updClk f).mem = s.mem := (rfl)
@[simp] theorem State.updClk_dma (f : Clk → Clk) : (s.updClk f).dma = s.dma := (rfl)
@[simp] theorem State.updClk_rst (f : Clk → Clk) : (s.updClk f).rst = s.rst := (rfl)
@[simp] theorem State.updClk_stk (f : Clk → Clk) : (s.updClk f).stk = s.stk := (rfl)
@[simp] theorem State.updClk_cmp (f : Clk → Clk) : (s.updClk f).cmp = s.cmp := (rfl)
@[simp] theorem State.updClk_pkg (f : Clk → Clk) : (s.updClk f).pkg = s.pkg := (rfl)
@[simp] theorem State.rd_updClk (f : Clk → Clk) (adr : Nat) : (s.updClk f).rd adr = s.rd adr := (rfl)
@[simp] theorem State.fld_updClk (f : Clk → Clk) (adr : Nat) (fd : Fld) : (s.updClk f).fld adr fd = s.fld adr fd := (rfl)
@[simp] theorem State.actv_updClk (f : Clk → Clk) (adr : Nat) : (s.updClk f).actv adr = s.actv adr := (rfl)

/-! ### updCmp -/
@[simp] theorem State.updCmp_pending (u : Nat) (f : Cmp → Cmp) : (s.updCmp u f).pending = s.pending := (rfl)
@[simp] theorem State.updCmp_regs (u : Nat) (f : Cmp → Cmp) : (s.updCmp u f).regs = s.regs := (rfl)
@[simp] theorem State.updCmp_act (u : Nat) (f : Cmp → Cmp) : (s.updCmp u f).act = s.act := (rfl)
@[simp] theorem State.updCmp_snap (u : Nat) (f : Cmp → Cmp) : (s.updCmp u f).snap = s.snap := (rfl)
@[simp] theorem State.updCmp_staged (u : Nat) (f : Cmp → Cmp) : (s.updCmp u f).staged = s.staged := (rfl)
@[simp] theorem State.updCmp_readData (u : Nat) (f : Cmp → Cmp) : (s.updCmp u f).readData = s.readData := (rfl)
@[simp] theorem State.updCmp_outs (u : Nat) (f : Cmp → Cmp) : (s.updCmp u f).outs = s.outs := (rfl)
@[simp] theorem State.updCmp_time (u : Nat) (f : Cmp → Cmp) : (s.updCmp u f).time = s.time := (rfl)
@[simp] theorem State.updCmp_frac (u : Nat) (f : Cmp → Cmp) : (s.updCmp u f).frac = s.frac := (rfl)
@[simp] theorem State.updCmp_freeCtr (u : Nat) (f : Cmp → Cmp) : (s.updCmp u f).freeCtr = s.freeCtr := (rfl)
@[simp] theorem State.updCmp_store (u : Nat) (f : Cmp → Cmp) : (s.updCmp u f).store = s.store := (rfl)
@[simp] theorem State.updCmp_hostMem (u : Nat) (f : Cmp → Cmp) : (s.updCmp u f).hostMem = s.hostMem := (rfl)
@[simp] theorem State.updCmp_flash (u : Nat) (f : Cmp → Cmp) : (s.updCmp u f).flash = s.flash := (rfl)
@[simp] theorem State.updCmp_evt (u : Nat) (f : Cmp → Cmp) : (s.updCmp u f).evt = s.evt := (rfl)
@[simp] theorem State.updCmp_hif (u : Nat) (f : Cmp → Cmp) : (s.updCmp u f).hif = s.hif := (rfl)
@[simp] theorem State.updCmp_ctxs (u : Nat) (f : Cmp → Cmp) : (s.updCmp u f).ctxs = s.ctxs := (rfl)
@[simp] theorem State.updCmp_billets (u : Nat) (f : Cmp → Cmp) : (s.updCmp u f).billets = s.billets := (rfl)
@[simp] theorem State.updCmp_ports (u : Nat) (f : Cmp → Cmp) : (s.updCmp u f).ports = s.ports := (rfl)
@[simp] theorem State.updCmp_aside (u : Nat) (f : Cmp → Cmp) : (s.updCmp u f).aside = s.aside := (rfl)
@[simp] theorem State.updCmp_served (u : Nat) (f : Cmp → Cmp) : (s.updCmp u f).served = s.served := (rfl)
@[simp] theorem State.updCmp_badLines (u : Nat) (f : Cmp → Cmp) : (s.updCmp u f).badLines = s.badLines := (rfl)
@[simp] theorem State.updCmp_clk (u : Nat) (f : Cmp → Cmp) : (s.updCmp u f).clk = s.clk := (rfl)
@[simp] theorem State.updCmp_plan (u : Nat) (f : Cmp → Cmp) : (s.updCmp u f).plan = s.plan := (rfl)
@[simp] theorem State.updCmp_tbs (u : Nat) (f : Cmp → Cmp) : (s.updCmp u f).tbs = s.tbs := (rfl)
@[simp] theorem State.updCmp_tdc (u : Nat) (f : Cmp → Cmp) : (s.updCmp u f).tdc = s.tdc := (rfl)
@[simp] theorem State.updCmp_cnv (u : Nat) (f : Cmp → Cmp) : (s.updCmp u f).cnv = s.cnv := (rfl)
@[simp] theorem State.updCmp_pg (u : Nat) (f : Cmp → Cmp) : (s.updCmp u f).pg = s.pg := (rfl)
@[simp] theorem State.updCmp_cal (u : Nat) (f : Cmp → Cmp) : (s.updCmp u f).cal = s.cal := (rfl)
@[simp] theorem State.updCmp_ddc (u : Nat) (f : Cmp → Cmp) : (s.updCmp u f).ddc = s.ddc := (rfl)
@[simp] theorem State.updCmp_xfm (u : Nat) (f : Cmp → Cmp) : (s.updCmp u f).xfm = s.xfm := (rfl)
@[simp] theorem State.updCmp_streams (u : Nat) (f : Cmp → Cmp) : (s.updCmp u f).streams = s.streams := (rfl)
@[simp] theorem State.updCmp_frames (u : Nat) (f : Cmp → Cmp) : (s.updCmp u f).frames = s.frames := (rfl)
@[simp] theorem State.updCmp_det (u : Nat) (f : Cmp → Cmp) : (s.updCmp u f).det = s.det := (rfl)
@[simp] theorem State.updCmp_den (u : Nat) (f : Cmp → Cmp) : (s.updCmp u f).den = s.den := (rfl)
@[simp] theorem State.updCmp_tq (u : Nat) (f : Cmp → Cmp) : (s.updCmp u f).tq = s.tq := (rfl)
@[simp] theorem State.updCmp_lt (u : Nat) (f : Cmp → Cmp) : (s.updCmp u f).lt = s.lt := (rfl)
@[simp] theorem State.updCmp_fm (u : Nat) (f : Cmp → Cmp) : (s.updCmp u f).fm = s.fm := (rfl)
@[simp] theorem State.updCmp_bus (u : Nat) (f : Cmp → Cmp) : (s.updCmp u f).bus = s.bus := (rfl)
@[simp] theorem State.updCmp_tmr (u : Nat) (f : Cmp → Cmp) : (s.updCmp u f).tmr = s.tmr := (rfl)
@[simp] theorem State.updCmp_decs (u : Nat) (f : Cmp → Cmp) : (s.updCmp u f).decs = s.decs := (rfl)
@[simp] theorem State.updCmp_au (u : Nat) (f : Cmp → Cmp) : (s.updCmp u f).au = s.au := (rfl)
@[simp] theorem State.updCmp_replay (u : Nat) (f : Cmp → Cmp) : (s.updCmp u f).replay = s.replay := (rfl)
@[simp] theorem State.updCmp_turf (u : Nat) (f : Cmp → Cmp) : (s.updCmp u f).turf = s.turf := (rfl)
@[simp] theorem State.updCmp_clusters (u : Nat) (f : Cmp → Cmp) : (s.updCmp u f).clusters = s.clusters := (rfl)
@[simp] theorem State.updCmp_net (u : Nat) (f : Cmp → Cmp) : (s.updCmp u f).net = s.net := (rfl)
@[simp] theorem State.updCmp_ave (u : Nat) (f : Cmp → Cmp) : (s.updCmp u f).ave = s.ave := (rfl)
@[simp] theorem State.updCmp_slots (u : Nat) (f : Cmp → Cmp) : (s.updCmp u f).slots = s.slots := (rfl)
@[simp] theorem State.updCmp_dis (u : Nat) (f : Cmp → Cmp) : (s.updCmp u f).dis = s.dis := (rfl)
@[simp] theorem State.updCmp_layers (u : Nat) (f : Cmp → Cmp) : (s.updCmp u f).layers = s.layers := (rfl)
@[simp] theorem State.updCmp_mem (u : Nat) (f : Cmp → Cmp) : (s.updCmp u f).mem = s.mem := (rfl)
@[simp] theorem State.updCmp_dma (u : Nat) (f : Cmp → Cmp) : (s.updCmp u f).dma = s.dma := (rfl)
@[simp] theorem State.updCmp_rst (u : Nat) (f : Cmp → Cmp) : (s.updCmp u f).rst = s.rst := (rfl)
@[simp] theorem State.updCmp_stk (u : Nat) (f : Cmp → Cmp) : (s.updCmp u f).stk = s.stk := (rfl)
@[simp] theorem State.updCmp_pkg (u : Nat) (f : Cmp → Cmp) : (s.updCmp u f).pkg = s.pkg := (rfl)
@[simp] theorem State.rd_updCmp (u : Nat) (f : Cmp → Cmp) (adr : Nat) : (s.updCmp u f).rd adr = s.rd adr := (rfl)
@[simp] theorem State.fld_updCmp (u : Nat) (f : Cmp → Cmp) (adr : Nat) (fd : Fld) : (s.updCmp u f).fld adr fd = s.fld adr fd := (rfl)
@[simp] theorem State.actv_updCmp (u : Nat) (f : Cmp → Cmp) (adr : Nat) : (s.updCmp u f).actv adr = s.actv adr := (rfl)

/-! ### updCore -/
@[simp] theorem State.updCore_pending (n : Nat) (f : Cnv → Cnv) : (s.updCore n f).pending = s.pending := (rfl)
@[simp] theorem State.updCore_regs (n : Nat) (f : Cnv → Cnv) : (s.updCore n f).regs = s.regs := (rfl)
@[simp] theorem State.updCore_act (n : Nat) (f : Cnv → Cnv) : (s.updCore n f).act = s.act := (rfl)
@[simp] theorem State.updCore_snap (n : Nat) (f : Cnv → Cnv) : (s.updCore n f).snap = s.snap := (rfl)
@[simp] theorem State.updCore_staged (n : Nat) (f : Cnv → Cnv) : (s.updCore n f).staged = s.staged := (rfl)
@[simp] theorem State.updCore_readData (n : Nat) (f : Cnv → Cnv) : (s.updCore n f).readData = s.readData := (rfl)
@[simp] theorem State.updCore_outs (n : Nat) (f : Cnv → Cnv) : (s.updCore n f).outs = s.outs := (rfl)
@[simp] theorem State.updCore_time (n : Nat) (f : Cnv → Cnv) : (s.updCore n f).time = s.time := (rfl)
@[simp] theorem State.updCore_frac (n : Nat) (f : Cnv → Cnv) : (s.updCore n f).frac = s.frac := (rfl)
@[simp] theorem State.updCore_freeCtr (n : Nat) (f : Cnv → Cnv) : (s.updCore n f).freeCtr = s.freeCtr := (rfl)
@[simp] theorem State.updCore_store (n : Nat) (f : Cnv → Cnv) : (s.updCore n f).store = s.store := (rfl)
@[simp] theorem State.updCore_hostMem (n : Nat) (f : Cnv → Cnv) : (s.updCore n f).hostMem = s.hostMem := (rfl)
@[simp] theorem State.updCore_flash (n : Nat) (f : Cnv → Cnv) : (s.updCore n f).flash = s.flash := (rfl)
@[simp] theorem State.updCore_evt (n : Nat) (f : Cnv → Cnv) : (s.updCore n f).evt = s.evt := (rfl)
@[simp] theorem State.updCore_hif (n : Nat) (f : Cnv → Cnv) : (s.updCore n f).hif = s.hif := (rfl)
@[simp] theorem State.updCore_ctxs (n : Nat) (f : Cnv → Cnv) : (s.updCore n f).ctxs = s.ctxs := (rfl)
@[simp] theorem State.updCore_billets (n : Nat) (f : Cnv → Cnv) : (s.updCore n f).billets = s.billets := (rfl)
@[simp] theorem State.updCore_ports (n : Nat) (f : Cnv → Cnv) : (s.updCore n f).ports = s.ports := (rfl)
@[simp] theorem State.updCore_aside (n : Nat) (f : Cnv → Cnv) : (s.updCore n f).aside = s.aside := (rfl)
@[simp] theorem State.updCore_served (n : Nat) (f : Cnv → Cnv) : (s.updCore n f).served = s.served := (rfl)
@[simp] theorem State.updCore_badLines (n : Nat) (f : Cnv → Cnv) : (s.updCore n f).badLines = s.badLines := (rfl)
@[simp] theorem State.updCore_clk (n : Nat) (f : Cnv → Cnv) : (s.updCore n f).clk = s.clk := (rfl)
@[simp] theorem State.updCore_plan (n : Nat) (f : Cnv → Cnv) : (s.updCore n f).plan = s.plan := (rfl)
@[simp] theorem State.updCore_tbs (n : Nat) (f : Cnv → Cnv) : (s.updCore n f).tbs = s.tbs := (rfl)
@[simp] theorem State.updCore_tdc (n : Nat) (f : Cnv → Cnv) : (s.updCore n f).tdc = s.tdc := (rfl)
@[simp] theorem State.updCore_pg (n : Nat) (f : Cnv → Cnv) : (s.updCore n f).pg = s.pg := (rfl)
@[simp] theorem State.updCore_cal (n : Nat) (f : Cnv → Cnv) : (s.updCore n f).cal = s.cal := (rfl)
@[simp] theorem State.updCore_ddc (n : Nat) (f : Cnv → Cnv) : (s.updCore n f).ddc = s.ddc := (rfl)
@[simp] theorem State.updCore_xfm (n : Nat) (f : Cnv → Cnv) : (s.updCore n f).xfm = s.xfm := (rfl)
@[simp] theorem State.updCore_streams (n : Nat) (f : Cnv → Cnv) : (s.updCore n f).streams = s.streams := (rfl)
@[simp] theorem State.updCore_frames (n : Nat) (f : Cnv → Cnv) : (s.updCore n f).frames = s.frames := (rfl)
@[simp] theorem State.updCore_det (n : Nat) (f : Cnv → Cnv) : (s.updCore n f).det = s.det := (rfl)
@[simp] theorem State.updCore_den (n : Nat) (f : Cnv → Cnv) : (s.updCore n f).den = s.den := (rfl)
@[simp] theorem State.updCore_tq (n : Nat) (f : Cnv → Cnv) : (s.updCore n f).tq = s.tq := (rfl)
@[simp] theorem State.updCore_lt (n : Nat) (f : Cnv → Cnv) : (s.updCore n f).lt = s.lt := (rfl)
@[simp] theorem State.updCore_fm (n : Nat) (f : Cnv → Cnv) : (s.updCore n f).fm = s.fm := (rfl)
@[simp] theorem State.updCore_bus (n : Nat) (f : Cnv → Cnv) : (s.updCore n f).bus = s.bus := (rfl)
@[simp] theorem State.updCore_tmr (n : Nat) (f : Cnv → Cnv) : (s.updCore n f).tmr = s.tmr := (rfl)
@[simp] theorem State.updCore_decs (n : Nat) (f : Cnv → Cnv) : (s.updCore n f).decs = s.decs := (rfl)
@[simp] theorem State.updCore_au (n : Nat) (f : Cnv → Cnv) : (s.updCore n f).au = s.au := (rfl)
@[simp] theorem State.updCore_replay (n : Nat) (f : Cnv → Cnv) : (s.updCore n f).replay = s.replay := (rfl)
@[simp] theorem State.updCore_turf (n : Nat) (f : Cnv → Cnv) : (s.updCore n f).turf = s.turf := (rfl)
@[simp] theorem State.updCore_clusters (n : Nat) (f : Cnv → Cnv) : (s.updCore n f).clusters = s.clusters := (rfl)
@[simp] theorem State.updCore_net (n : Nat) (f : Cnv → Cnv) : (s.updCore n f).net = s.net := (rfl)
@[simp] theorem State.updCore_ave (n : Nat) (f : Cnv → Cnv) : (s.updCore n f).ave = s.ave := (rfl)
@[simp] theorem State.updCore_slots (n : Nat) (f : Cnv → Cnv) : (s.updCore n f).slots = s.slots := (rfl)
@[simp] theorem State.updCore_dis (n : Nat) (f : Cnv → Cnv) : (s.updCore n f).dis = s.dis := (rfl)
@[simp] theorem State.updCore_layers (n : Nat) (f : Cnv → Cnv) : (s.updCore n f).layers = s.layers := (rfl)
@[simp] theorem State.updCore_mem (n : Nat) (f : Cnv → Cnv) : (s.updCore n f).mem = s.mem := (rfl)
@[simp] theorem State.updCore_dma (n : Nat) (f : Cnv → Cnv) : (s.updCore n f).dma = s.dma := (rfl)
@[simp] theorem State.updCore_rst (n : Nat) (f : Cnv → Cnv) : (s.updCore n f).rst = s.rst := (rfl)
@[simp] theorem State.updCore_stk (n : Nat) (f : Cnv → Cnv) : (s.updCore n f).stk = s.stk := (rfl)
@[simp] theorem State.updCore_cmp (n : Nat) (f : Cnv → Cnv) : (s.updCore n f).cmp = s.cmp := (rfl)
@[simp] theorem State.updCore_pkg (n : Nat) (f : Cnv → Cnv) : (s.updCore n f).pkg = s.pkg := (rfl)
@[simp] theorem State.rd_updCore (n : Nat) (f : Cnv → Cnv) (adr : Nat) : (s.updCore n f).rd adr = s.rd adr := (rfl)
@[simp] theorem State.fld_updCore (n : Nat) (f : Cnv → Cnv) (adr : Nat) (fd : Fld) : (s.updCore n f).fld adr fd = s.fld adr fd := (rfl)
@[simp] theorem State.actv_updCore (n : Nat) (f : Cnv → Cnv) (adr : Nat) : (s.updCore n f).actv adr = s.actv adr := (rfl)

/-! ### updDdc -/
@[simp] theorem State.updDdc_pending (u : Nat) (f : Ddc → Ddc) : (s.updDdc u f).pending = s.pending := (rfl)
@[simp] theorem State.updDdc_regs (u : Nat) (f : Ddc → Ddc) : (s.updDdc u f).regs = s.regs := (rfl)
@[simp] theorem State.updDdc_act (u : Nat) (f : Ddc → Ddc) : (s.updDdc u f).act = s.act := (rfl)
@[simp] theorem State.updDdc_snap (u : Nat) (f : Ddc → Ddc) : (s.updDdc u f).snap = s.snap := (rfl)
@[simp] theorem State.updDdc_staged (u : Nat) (f : Ddc → Ddc) : (s.updDdc u f).staged = s.staged := (rfl)
@[simp] theorem State.updDdc_readData (u : Nat) (f : Ddc → Ddc) : (s.updDdc u f).readData = s.readData := (rfl)
@[simp] theorem State.updDdc_outs (u : Nat) (f : Ddc → Ddc) : (s.updDdc u f).outs = s.outs := (rfl)
@[simp] theorem State.updDdc_time (u : Nat) (f : Ddc → Ddc) : (s.updDdc u f).time = s.time := (rfl)
@[simp] theorem State.updDdc_frac (u : Nat) (f : Ddc → Ddc) : (s.updDdc u f).frac = s.frac := (rfl)
@[simp] theorem State.updDdc_freeCtr (u : Nat) (f : Ddc → Ddc) : (s.updDdc u f).freeCtr = s.freeCtr := (rfl)
@[simp] theorem State.updDdc_store (u : Nat) (f : Ddc → Ddc) : (s.updDdc u f).store = s.store := (rfl)
@[simp] theorem State.updDdc_hostMem (u : Nat) (f : Ddc → Ddc) : (s.updDdc u f).hostMem = s.hostMem := (rfl)
@[simp] theorem State.updDdc_flash (u : Nat) (f : Ddc → Ddc) : (s.updDdc u f).flash = s.flash := (rfl)
@[simp] theorem State.updDdc_evt (u : Nat) (f : Ddc → Ddc) : (s.updDdc u f).evt = s.evt := (rfl)
@[simp] theorem State.updDdc_hif (u : Nat) (f : Ddc → Ddc) : (s.updDdc u f).hif = s.hif := (rfl)
@[simp] theorem State.updDdc_ctxs (u : Nat) (f : Ddc → Ddc) : (s.updDdc u f).ctxs = s.ctxs := (rfl)
@[simp] theorem State.updDdc_billets (u : Nat) (f : Ddc → Ddc) : (s.updDdc u f).billets = s.billets := (rfl)
@[simp] theorem State.updDdc_ports (u : Nat) (f : Ddc → Ddc) : (s.updDdc u f).ports = s.ports := (rfl)
@[simp] theorem State.updDdc_aside (u : Nat) (f : Ddc → Ddc) : (s.updDdc u f).aside = s.aside := (rfl)
@[simp] theorem State.updDdc_served (u : Nat) (f : Ddc → Ddc) : (s.updDdc u f).served = s.served := (rfl)
@[simp] theorem State.updDdc_badLines (u : Nat) (f : Ddc → Ddc) : (s.updDdc u f).badLines = s.badLines := (rfl)
@[simp] theorem State.updDdc_clk (u : Nat) (f : Ddc → Ddc) : (s.updDdc u f).clk = s.clk := (rfl)
@[simp] theorem State.updDdc_plan (u : Nat) (f : Ddc → Ddc) : (s.updDdc u f).plan = s.plan := (rfl)
@[simp] theorem State.updDdc_tbs (u : Nat) (f : Ddc → Ddc) : (s.updDdc u f).tbs = s.tbs := (rfl)
@[simp] theorem State.updDdc_tdc (u : Nat) (f : Ddc → Ddc) : (s.updDdc u f).tdc = s.tdc := (rfl)
@[simp] theorem State.updDdc_cnv (u : Nat) (f : Ddc → Ddc) : (s.updDdc u f).cnv = s.cnv := (rfl)
@[simp] theorem State.updDdc_pg (u : Nat) (f : Ddc → Ddc) : (s.updDdc u f).pg = s.pg := (rfl)
@[simp] theorem State.updDdc_cal (u : Nat) (f : Ddc → Ddc) : (s.updDdc u f).cal = s.cal := (rfl)
@[simp] theorem State.updDdc_xfm (u : Nat) (f : Ddc → Ddc) : (s.updDdc u f).xfm = s.xfm := (rfl)
@[simp] theorem State.updDdc_streams (u : Nat) (f : Ddc → Ddc) : (s.updDdc u f).streams = s.streams := (rfl)
@[simp] theorem State.updDdc_frames (u : Nat) (f : Ddc → Ddc) : (s.updDdc u f).frames = s.frames := (rfl)
@[simp] theorem State.updDdc_det (u : Nat) (f : Ddc → Ddc) : (s.updDdc u f).det = s.det := (rfl)
@[simp] theorem State.updDdc_den (u : Nat) (f : Ddc → Ddc) : (s.updDdc u f).den = s.den := (rfl)
@[simp] theorem State.updDdc_tq (u : Nat) (f : Ddc → Ddc) : (s.updDdc u f).tq = s.tq := (rfl)
@[simp] theorem State.updDdc_lt (u : Nat) (f : Ddc → Ddc) : (s.updDdc u f).lt = s.lt := (rfl)
@[simp] theorem State.updDdc_fm (u : Nat) (f : Ddc → Ddc) : (s.updDdc u f).fm = s.fm := (rfl)
@[simp] theorem State.updDdc_bus (u : Nat) (f : Ddc → Ddc) : (s.updDdc u f).bus = s.bus := (rfl)
@[simp] theorem State.updDdc_tmr (u : Nat) (f : Ddc → Ddc) : (s.updDdc u f).tmr = s.tmr := (rfl)
@[simp] theorem State.updDdc_decs (u : Nat) (f : Ddc → Ddc) : (s.updDdc u f).decs = s.decs := (rfl)
@[simp] theorem State.updDdc_au (u : Nat) (f : Ddc → Ddc) : (s.updDdc u f).au = s.au := (rfl)
@[simp] theorem State.updDdc_replay (u : Nat) (f : Ddc → Ddc) : (s.updDdc u f).replay = s.replay := (rfl)
@[simp] theorem State.updDdc_turf (u : Nat) (f : Ddc → Ddc) : (s.updDdc u f).turf = s.turf := (rfl)
@[simp] theorem State.updDdc_clusters (u : Nat) (f : Ddc → Ddc) : (s.updDdc u f).clusters = s.clusters := (rfl)
@[simp] theorem State.updDdc_net (u : Nat) (f : Ddc → Ddc) : (s.updDdc u f).net = s.net := (rfl)
@[simp] theorem State.updDdc_ave (u : Nat) (f : Ddc → Ddc) : (s.updDdc u f).ave = s.ave := (rfl)
@[simp] theorem State.updDdc_slots (u : Nat) (f : Ddc → Ddc) : (s.updDdc u f).slots = s.slots := (rfl)
@[simp] theorem State.updDdc_dis (u : Nat) (f : Ddc → Ddc) : (s.updDdc u f).dis = s.dis := (rfl)
@[simp] theorem State.updDdc_layers (u : Nat) (f : Ddc → Ddc) : (s.updDdc u f).layers = s.layers := (rfl)
@[simp] theorem State.updDdc_mem (u : Nat) (f : Ddc → Ddc) : (s.updDdc u f).mem = s.mem := (rfl)
@[simp] theorem State.updDdc_dma (u : Nat) (f : Ddc → Ddc) : (s.updDdc u f).dma = s.dma := (rfl)
@[simp] theorem State.updDdc_rst (u : Nat) (f : Ddc → Ddc) : (s.updDdc u f).rst = s.rst := (rfl)
@[simp] theorem State.updDdc_stk (u : Nat) (f : Ddc → Ddc) : (s.updDdc u f).stk = s.stk := (rfl)
@[simp] theorem State.updDdc_cmp (u : Nat) (f : Ddc → Ddc) : (s.updDdc u f).cmp = s.cmp := (rfl)
@[simp] theorem State.updDdc_pkg (u : Nat) (f : Ddc → Ddc) : (s.updDdc u f).pkg = s.pkg := (rfl)
@[simp] theorem State.rd_updDdc (u : Nat) (f : Ddc → Ddc) (adr : Nat) : (s.updDdc u f).rd adr = s.rd adr := (rfl)
@[simp] theorem State.fld_updDdc (u : Nat) (f : Ddc → Ddc) (adr : Nat) (fd : Fld) : (s.updDdc u f).fld adr fd = s.fld adr fd := (rfl)
@[simp] theorem State.actv_updDdc (u : Nat) (f : Ddc → Ddc) (adr : Nat) : (s.updDdc u f).actv adr = s.actv adr := (rfl)

/-! ### updDet -/
@[simp] theorem State.updDet_pending (n : Nat) (f : Det → Det) : (s.updDet n f).pending = s.pending := (rfl)
@[simp] theorem State.updDet_regs (n : Nat) (f : Det → Det) : (s.updDet n f).regs = s.regs := (rfl)
@[simp] theorem State.updDet_act (n : Nat) (f : Det → Det) : (s.updDet n f).act = s.act := (rfl)
@[simp] theorem State.updDet_snap (n : Nat) (f : Det → Det) : (s.updDet n f).snap = s.snap := (rfl)
@[simp] theorem State.updDet_staged (n : Nat) (f : Det → Det) : (s.updDet n f).staged = s.staged := (rfl)
@[simp] theorem State.updDet_readData (n : Nat) (f : Det → Det) : (s.updDet n f).readData = s.readData := (rfl)
@[simp] theorem State.updDet_outs (n : Nat) (f : Det → Det) : (s.updDet n f).outs = s.outs := (rfl)
@[simp] theorem State.updDet_time (n : Nat) (f : Det → Det) : (s.updDet n f).time = s.time := (rfl)
@[simp] theorem State.updDet_frac (n : Nat) (f : Det → Det) : (s.updDet n f).frac = s.frac := (rfl)
@[simp] theorem State.updDet_freeCtr (n : Nat) (f : Det → Det) : (s.updDet n f).freeCtr = s.freeCtr := (rfl)
@[simp] theorem State.updDet_store (n : Nat) (f : Det → Det) : (s.updDet n f).store = s.store := (rfl)
@[simp] theorem State.updDet_hostMem (n : Nat) (f : Det → Det) : (s.updDet n f).hostMem = s.hostMem := (rfl)
@[simp] theorem State.updDet_flash (n : Nat) (f : Det → Det) : (s.updDet n f).flash = s.flash := (rfl)
@[simp] theorem State.updDet_evt (n : Nat) (f : Det → Det) : (s.updDet n f).evt = s.evt := (rfl)
@[simp] theorem State.updDet_hif (n : Nat) (f : Det → Det) : (s.updDet n f).hif = s.hif := (rfl)
@[simp] theorem State.updDet_ctxs (n : Nat) (f : Det → Det) : (s.updDet n f).ctxs = s.ctxs := (rfl)
@[simp] theorem State.updDet_billets (n : Nat) (f : Det → Det) : (s.updDet n f).billets = s.billets := (rfl)
@[simp] theorem State.updDet_ports (n : Nat) (f : Det → Det) : (s.updDet n f).ports = s.ports := (rfl)
@[simp] theorem State.updDet_aside (n : Nat) (f : Det → Det) : (s.updDet n f).aside = s.aside := (rfl)
@[simp] theorem State.updDet_served (n : Nat) (f : Det → Det) : (s.updDet n f).served = s.served := (rfl)
@[simp] theorem State.updDet_badLines (n : Nat) (f : Det → Det) : (s.updDet n f).badLines = s.badLines := (rfl)
@[simp] theorem State.updDet_clk (n : Nat) (f : Det → Det) : (s.updDet n f).clk = s.clk := (rfl)
@[simp] theorem State.updDet_plan (n : Nat) (f : Det → Det) : (s.updDet n f).plan = s.plan := (rfl)
@[simp] theorem State.updDet_tbs (n : Nat) (f : Det → Det) : (s.updDet n f).tbs = s.tbs := (rfl)
@[simp] theorem State.updDet_tdc (n : Nat) (f : Det → Det) : (s.updDet n f).tdc = s.tdc := (rfl)
@[simp] theorem State.updDet_cnv (n : Nat) (f : Det → Det) : (s.updDet n f).cnv = s.cnv := (rfl)
@[simp] theorem State.updDet_pg (n : Nat) (f : Det → Det) : (s.updDet n f).pg = s.pg := (rfl)
@[simp] theorem State.updDet_cal (n : Nat) (f : Det → Det) : (s.updDet n f).cal = s.cal := (rfl)
@[simp] theorem State.updDet_ddc (n : Nat) (f : Det → Det) : (s.updDet n f).ddc = s.ddc := (rfl)
@[simp] theorem State.updDet_xfm (n : Nat) (f : Det → Det) : (s.updDet n f).xfm = s.xfm := (rfl)
@[simp] theorem State.updDet_streams (n : Nat) (f : Det → Det) : (s.updDet n f).streams = s.streams := (rfl)
@[simp] theorem State.updDet_frames (n : Nat) (f : Det → Det) : (s.updDet n f).frames = s.frames := (rfl)
@[simp] theorem State.updDet_den (n : Nat) (f : Det → Det) : (s.updDet n f).den = s.den := (rfl)
@[simp] theorem State.updDet_tq (n : Nat) (f : Det → Det) : (s.updDet n f).tq = s.tq := (rfl)
@[simp] theorem State.updDet_lt (n : Nat) (f : Det → Det) : (s.updDet n f).lt = s.lt := (rfl)
@[simp] theorem State.updDet_fm (n : Nat) (f : Det → Det) : (s.updDet n f).fm = s.fm := (rfl)
@[simp] theorem State.updDet_bus (n : Nat) (f : Det → Det) : (s.updDet n f).bus = s.bus := (rfl)
@[simp] theorem State.updDet_tmr (n : Nat) (f : Det → Det) : (s.updDet n f).tmr = s.tmr := (rfl)
@[simp] theorem State.updDet_decs (n : Nat) (f : Det → Det) : (s.updDet n f).decs = s.decs := (rfl)
@[simp] theorem State.updDet_au (n : Nat) (f : Det → Det) : (s.updDet n f).au = s.au := (rfl)
@[simp] theorem State.updDet_replay (n : Nat) (f : Det → Det) : (s.updDet n f).replay = s.replay := (rfl)
@[simp] theorem State.updDet_turf (n : Nat) (f : Det → Det) : (s.updDet n f).turf = s.turf := (rfl)
@[simp] theorem State.updDet_clusters (n : Nat) (f : Det → Det) : (s.updDet n f).clusters = s.clusters := (rfl)
@[simp] theorem State.updDet_net (n : Nat) (f : Det → Det) : (s.updDet n f).net = s.net := (rfl)
@[simp] theorem State.updDet_ave (n : Nat) (f : Det → Det) : (s.updDet n f).ave = s.ave := (rfl)
@[simp] theorem State.updDet_slots (n : Nat) (f : Det → Det) : (s.updDet n f).slots = s.slots := (rfl)
@[simp] theorem State.updDet_dis (n : Nat) (f : Det → Det) : (s.updDet n f).dis = s.dis := (rfl)
@[simp] theorem State.updDet_layers (n : Nat) (f : Det → Det) : (s.updDet n f).layers = s.layers := (rfl)
@[simp] theorem State.updDet_mem (n : Nat) (f : Det → Det) : (s.updDet n f).mem = s.mem := (rfl)
@[simp] theorem State.updDet_dma (n : Nat) (f : Det → Det) : (s.updDet n f).dma = s.dma := (rfl)
@[simp] theorem State.updDet_rst (n : Nat) (f : Det → Det) : (s.updDet n f).rst = s.rst := (rfl)
@[simp] theorem State.updDet_stk (n : Nat) (f : Det → Det) : (s.updDet n f).stk = s.stk := (rfl)
@[simp] theorem State.updDet_cmp (n : Nat) (f : Det → Det) : (s.updDet n f).cmp = s.cmp := (rfl)
@[simp] theorem State.updDet_pkg (n : Nat) (f : Det → Det) : (s.updDet n f).pkg = s.pkg := (rfl)
@[simp] theorem State.rd_updDet (n : Nat) (f : Det → Det) (adr : Nat) : (s.updDet n f).rd adr = s.rd adr := (rfl)
@[simp] theorem State.fld_updDet (n : Nat) (f : Det → Det) (adr : Nat) (fd : Fld) : (s.updDet n f).fld adr fd = s.fld adr fd := (rfl)
@[simp] theorem State.actv_updDet (n : Nat) (f : Det → Det) (adr : Nat) : (s.updDet n f).actv adr = s.actv adr := (rfl)

/-! ### updDen -/
@[simp] theorem State.updDen_pending (n : Nat) (f : Den → Den) : (s.updDen n f).pending = s.pending := (rfl)
@[simp] theorem State.updDen_regs (n : Nat) (f : Den → Den) : (s.updDen n f).regs = s.regs := (rfl)
@[simp] theorem State.updDen_act (n : Nat) (f : Den → Den) : (s.updDen n f).act = s.act := (rfl)
@[simp] theorem State.updDen_snap (n : Nat) (f : Den → Den) : (s.updDen n f).snap = s.snap := (rfl)
@[simp] theorem State.updDen_staged (n : Nat) (f : Den → Den) : (s.updDen n f).staged = s.staged := (rfl)
@[simp] theorem State.updDen_readData (n : Nat) (f : Den → Den) : (s.updDen n f).readData = s.readData := (rfl)
@[simp] theorem State.updDen_outs (n : Nat) (f : Den → Den) : (s.updDen n f).outs = s.outs := (rfl)
@[simp] theorem State.updDen_time (n : Nat) (f : Den → Den) : (s.updDen n f).time = s.time := (rfl)
@[simp] theorem State.updDen_frac (n : Nat) (f : Den → Den) : (s.updDen n f).frac = s.frac := (rfl)
@[simp] theorem State.updDen_freeCtr (n : Nat) (f : Den → Den) : (s.updDen n f).freeCtr = s.freeCtr := (rfl)
@[simp] theorem State.updDen_store (n : Nat) (f : Den → Den) : (s.updDen n f).store = s.store := (rfl)
@[simp] theorem State.updDen_hostMem (n : Nat) (f : Den → Den) : (s.updDen n f).hostMem = s.hostMem := (rfl)
@[simp] theorem State.updDen_flash (n : Nat) (f : Den → Den) : (s.updDen n f).flash = s.flash := (rfl)
@[simp] theorem State.updDen_evt (n : Nat) (f : Den → Den) : (s.updDen n f).evt = s.evt := (rfl)
@[simp] theorem State.updDen_hif (n : Nat) (f : Den → Den) : (s.updDen n f).hif = s.hif := (rfl)
@[simp] theorem State.updDen_ctxs (n : Nat) (f : Den → Den) : (s.updDen n f).ctxs = s.ctxs := (rfl)
@[simp] theorem State.updDen_billets (n : Nat) (f : Den → Den) : (s.updDen n f).billets = s.billets := (rfl)
@[simp] theorem State.updDen_ports (n : Nat) (f : Den → Den) : (s.updDen n f).ports = s.ports := (rfl)
@[simp] theorem State.updDen_aside (n : Nat) (f : Den → Den) : (s.updDen n f).aside = s.aside := (rfl)
@[simp] theorem State.updDen_served (n : Nat) (f : Den → Den) : (s.updDen n f).served = s.served := (rfl)
@[simp] theorem State.updDen_badLines (n : Nat) (f : Den → Den) : (s.updDen n f).badLines = s.badLines := (rfl)
@[simp] theorem State.updDen_clk (n : Nat) (f : Den → Den) : (s.updDen n f).clk = s.clk := (rfl)
@[simp] theorem State.updDen_plan (n : Nat) (f : Den → Den) : (s.updDen n f).plan = s.plan := (rfl)
@[simp] theorem State.updDen_tbs (n : Nat) (f : Den → Den) : (s.updDen n f).tbs = s.tbs := (rfl)
@[simp] theorem State.updDen_tdc (n : Nat) (f : Den → Den) : (s.updDen n f).tdc = s.tdc := (rfl)
@[simp] theorem State.updDen_cnv (n : Nat) (f : Den → Den) : (s.updDen n f).cnv = s.cnv := (rfl)
@[simp] theorem State.updDen_pg (n : Nat) (f : Den → Den) : (s.updDen n f).pg = s.pg := (rfl)
@[simp] theorem State.updDen_cal (n : Nat) (f : Den → Den) : (s.updDen n f).cal = s.cal := (rfl)
@[simp] theorem State.updDen_ddc (n : Nat) (f : Den → Den) : (s.updDen n f).ddc = s.ddc := (rfl)
@[simp] theorem State.updDen_xfm (n : Nat) (f : Den → Den) : (s.updDen n f).xfm = s.xfm := (rfl)
@[simp] theorem State.updDen_streams (n : Nat) (f : Den → Den) : (s.updDen n f).streams = s.streams := (rfl)
@[simp] theorem State.updDen_frames (n : Nat) (f : Den → Den) : (s.updDen n f).frames = s.frames := (rfl)
@[simp] theorem State.updDen_det (n : Nat) (f : Den → Den) : (s.updDen n f).det = s.det := (rfl)
@[simp] theorem State.updDen_tq (n : Nat) (f : Den → Den) : (s.updDen n f).tq = s.tq := (rfl)
@[simp] theorem State.updDen_lt (n : Nat) (f : Den → Den) : (s.updDen n f).lt = s.lt := (rfl)
@[simp] theorem State.updDen_fm (n : Nat) (f : Den → Den) : (s.updDen n f).fm = s.fm := (rfl)
@[simp] theorem State.updDen_bus (n : Nat) (f : Den → Den) : (s.updDen n f).bus = s.bus := (rfl)
@[simp] theorem State.updDen_tmr (n : Nat) (f : Den → Den) : (s.updDen n f).tmr = s.tmr := (rfl)
@[simp] theorem State.updDen_decs (n : Nat) (f : Den → Den) : (s.updDen n f).decs = s.decs := (rfl)
@[simp] theorem State.updDen_au (n : Nat) (f : Den → Den) : (s.updDen n f).au = s.au := (rfl)
@[simp] theorem State.updDen_replay (n : Nat) (f : Den → Den) : (s.updDen n f).replay = s.replay := (rfl)
@[simp] theorem State.updDen_turf (n : Nat) (f : Den → Den) : (s.updDen n f).turf = s.turf := (rfl)
@[simp] theorem State.updDen_clusters (n : Nat) (f : Den → Den) : (s.updDen n f).clusters = s.clusters := (rfl)
@[simp] theorem State.updDen_net (n : Nat) (f : Den → Den) : (s.updDen n f).net = s.net := (rfl)
@[simp] theorem State.updDen_ave (n : Nat) (f : Den → Den) : (s.updDen n f).ave = s.ave := (rfl)
@[simp] theorem State.updDen_slots (n : Nat) (f : Den → Den) : (s.updDen n f).slots = s.slots := (rfl)
@[simp] theorem State.updDen_dis (n : Nat) (f : Den → Den) : (s.updDen n f).dis = s.dis := (rfl)
@[simp] theorem State.updDen_layers (n : Nat) (f : Den → Den) : (s.updDen n f).layers = s.layers := (rfl)
@[simp] theorem State.updDen_mem (n : Nat) (f : Den → Den) : (s.updDen n f).mem = s.mem := (rfl)
@[simp] theorem State.updDen_dma (n : Nat) (f : Den → Den) : (s.updDen n f).dma = s.dma := (rfl)
@[simp] theorem State.updDen_rst (n : Nat) (f : Den → Den) : (s.updDen n f).rst = s.rst := (rfl)
@[simp] theorem State.updDen_stk (n : Nat) (f : Den → Den) : (s.updDen n f).stk = s.stk := (rfl)
@[simp] theorem State.updDen_cmp (n : Nat) (f : Den → Den) : (s.updDen n f).cmp = s.cmp := (rfl)
@[simp] theorem State.updDen_pkg (n : Nat) (f : Den → Den) : (s.updDen n f).pkg = s.pkg := (rfl)
@[simp] theorem State.rd_updDen (n : Nat) (f : Den → Den) (adr : Nat) : (s.updDen n f).rd adr = s.rd adr := (rfl)
@[simp] theorem State.fld_updDen (n : Nat) (f : Den → Den) (adr : Nat) (fd : Fld) : (s.updDen n f).fld adr fd = s.fld adr fd := (rfl)
@[simp] theorem State.actv_updDen (n : Nat) (f : Den → Den) (adr : Nat) : (s.updDen n f).actv adr = s.actv adr := (rfl)

/-! ### updDis -/
@[simp] theorem State.updDis_pending (n : Nat) (f : Dis → Dis) : (s.updDis n f).pending = s.pending := (rfl)
@[simp] theorem State.updDis_regs (n : Nat) (f : Dis → Dis) : (s.updDis n f).regs = s.regs := (rfl)
@[simp] theorem State.updDis_act (n : Nat) (f : Dis → Dis) : (s.updDis n f).act = s.act := (rfl)
@[simp] theorem State.updDis_snap (n : Nat) (f : Dis → Dis) : (s.updDis n f).snap = s.snap := (rfl)
@[simp] theorem State.updDis_staged (n : Nat) (f : Dis → Dis) : (s.updDis n f).staged = s.staged := (rfl)
@[simp] theorem State.updDis_readData (n : Nat) (f : Dis → Dis) : (s.updDis n f).readData = s.readData := (rfl)
@[simp] theorem State.updDis_outs (n : Nat) (f : Dis → Dis) : (s.updDis n f).outs = s.outs := (rfl)
@[simp] theorem State.updDis_time (n : Nat) (f : Dis → Dis) : (s.updDis n f).time = s.time := (rfl)
@[simp] theorem State.updDis_frac (n : Nat) (f : Dis → Dis) : (s.updDis n f).frac = s.frac := (rfl)
@[simp] theorem State.updDis_freeCtr (n : Nat) (f : Dis → Dis) : (s.updDis n f).freeCtr = s.freeCtr := (rfl)
@[simp] theorem State.updDis_store (n : Nat) (f : Dis → Dis) : (s.updDis n f).store = s.store := (rfl)
@[simp] theorem State.updDis_hostMem (n : Nat) (f : Dis → Dis) : (s.updDis n f).hostMem = s.hostMem := (rfl)
@[simp] theorem State.updDis_flash (n : Nat) (f : Dis → Dis) : (s.updDis n f).flash = s.flash := (rfl)
@[simp] theorem State.updDis_evt (n : Nat) (f : Dis → Dis) : (s.updDis n f).evt = s.evt := (rfl)
@[simp] theorem State.updDis_hif (n : Nat) (f : Dis → Dis) : (s.updDis n f).hif = s.hif := (rfl)
@[simp] theorem State.updDis_ctxs (n : Nat) (f : Dis → Dis) : (s.updDis n f).ctxs = s.ctxs := (rfl)
@[simp] theorem State.updDis_billets (n : Nat) (f : Dis → Dis) : (s.updDis n f).billets = s.billets := (rfl)
@[simp] theorem State.updDis_ports (n : Nat) (f : Dis → Dis) : (s.updDis n f).ports = s.ports := (rfl)
@[simp] theorem State.updDis_aside (n : Nat) (f : Dis → Dis) : (s.updDis n f).aside = s.aside := (rfl)
@[simp] theorem State.updDis_served (n : Nat) (f : Dis → Dis) : (s.updDis n f).served = s.served := (rfl)
@[simp] theorem State.updDis_badLines (n : Nat) (f : Dis → Dis) : (s.updDis n f).badLines = s.badLines := (rfl)
@[simp] theorem State.updDis_clk (n : Nat) (f : Dis → Dis) : (s.updDis n f).clk = s.clk := (rfl)
@[simp] theorem State.updDis_plan (n : Nat) (f : Dis → Dis) : (s.updDis n f).plan = s.plan := (rfl)
@[simp] theorem State.updDis_tbs (n : Nat) (f : Dis → Dis) : (s.updDis n f).tbs = s.tbs := (rfl)
@[simp] theorem State.updDis_tdc (n : Nat) (f : Dis → Dis) : (s.updDis n f).tdc = s.tdc := (rfl)
@[simp] theorem State.updDis_cnv (n : Nat) (f : Dis → Dis) : (s.updDis n f).cnv = s.cnv := (rfl)
@[simp] theorem State.updDis_pg (n : Nat) (f : Dis → Dis) : (s.updDis n f).pg = s.pg := (rfl)
@[simp] theorem State.updDis_cal (n : Nat) (f : Dis → Dis) : (s.updDis n f).cal = s.cal := (rfl)
@[simp] theorem State.updDis_ddc (n : Nat) (f : Dis → Dis) : (s.updDis n f).ddc = s.ddc := (rfl)
@[simp] theorem State.updDis_xfm (n : Nat) (f : Dis → Dis) : (s.updDis n f).xfm = s.xfm := (rfl)
@[simp] theorem State.updDis_streams (n : Nat) (f : Dis → Dis) : (s.updDis n f).streams = s.streams := (rfl)
@[simp] theorem State.updDis_frames (n : Nat) (f : Dis → Dis) : (s.updDis n f).frames = s.frames := (rfl)
@[simp] theorem State.updDis_det (n : Nat) (f : Dis → Dis) : (s.updDis n f).det = s.det := (rfl)
@[simp] theorem State.updDis_den (n : Nat) (f : Dis → Dis) : (s.updDis n f).den = s.den := (rfl)
@[simp] theorem State.updDis_tq (n : Nat) (f : Dis → Dis) : (s.updDis n f).tq = s.tq := (rfl)
@[simp] theorem State.updDis_lt (n : Nat) (f : Dis → Dis) : (s.updDis n f).lt = s.lt := (rfl)
@[simp] theorem State.updDis_fm (n : Nat) (f : Dis → Dis) : (s.updDis n f).fm = s.fm := (rfl)
@[simp] theorem State.updDis_bus (n : Nat) (f : Dis → Dis) : (s.updDis n f).bus = s.bus := (rfl)
@[simp] theorem State.updDis_tmr (n : Nat) (f : Dis → Dis) : (s.updDis n f).tmr = s.tmr := (rfl)
@[simp] theorem State.updDis_decs (n : Nat) (f : Dis → Dis) : (s.updDis n f).decs = s.decs := (rfl)
@[simp] theorem State.updDis_au (n : Nat) (f : Dis → Dis) : (s.updDis n f).au = s.au := (rfl)
@[simp] theorem State.updDis_replay (n : Nat) (f : Dis → Dis) : (s.updDis n f).replay = s.replay := (rfl)
@[simp] theorem State.updDis_turf (n : Nat) (f : Dis → Dis) : (s.updDis n f).turf = s.turf := (rfl)
@[simp] theorem State.updDis_clusters (n : Nat) (f : Dis → Dis) : (s.updDis n f).clusters = s.clusters := (rfl)
@[simp] theorem State.updDis_net (n : Nat) (f : Dis → Dis) : (s.updDis n f).net = s.net := (rfl)
@[simp] theorem State.updDis_ave (n : Nat) (f : Dis → Dis) : (s.updDis n f).ave = s.ave := (rfl)
@[simp] theorem State.updDis_slots (n : Nat) (f : Dis → Dis) : (s.updDis n f).slots = s.slots := (rfl)
@[simp] theorem State.updDis_layers (n : Nat) (f : Dis → Dis) : (s.updDis n f).layers = s.layers := (rfl)
@[simp] theorem State.updDis_mem (n : Nat) (f : Dis → Dis) : (s.updDis n f).mem = s.mem := (rfl)
@[simp] theorem State.updDis_dma (n : Nat) (f : Dis → Dis) : (s.updDis n f).dma = s.dma := (rfl)
@[simp] theorem State.updDis_rst (n : Nat) (f : Dis → Dis) : (s.updDis n f).rst = s.rst := (rfl)
@[simp] theorem State.updDis_stk (n : Nat) (f : Dis → Dis) : (s.updDis n f).stk = s.stk := (rfl)
@[simp] theorem State.updDis_cmp (n : Nat) (f : Dis → Dis) : (s.updDis n f).cmp = s.cmp := (rfl)
@[simp] theorem State.updDis_pkg (n : Nat) (f : Dis → Dis) : (s.updDis n f).pkg = s.pkg := (rfl)
@[simp] theorem State.rd_updDis (n : Nat) (f : Dis → Dis) (adr : Nat) : (s.updDis n f).rd adr = s.rd adr := (rfl)
@[simp] theorem State.fld_updDis (n : Nat) (f : Dis → Dis) (adr : Nat) (fd : Fld) : (s.updDis n f).fld adr fd = s.fld adr fd := (rfl)
@[simp] theorem State.actv_updDis (n : Nat) (f : Dis → Dis) (adr : Nat) : (s.updDis n f).actv adr = s.actv adr := (rfl)

/-! ### updLayer -/
@[simp] theorem State.updLayer_pending (n l : Nat) (f : DisLayer → DisLayer) : (s.updLayer n l f).pending = s.pending := (rfl)
@[simp] theorem State.updLayer_regs (n l : Nat) (f : DisLayer → DisLayer) : (s.updLayer n l f).regs = s.regs := (rfl)
@[simp] theorem State.updLayer_act (n l : Nat) (f : DisLayer → DisLayer) : (s.updLayer n l f).act = s.act := (rfl)
@[simp] theorem State.updLayer_snap (n l : Nat) (f : DisLayer → DisLayer) : (s.updLayer n l f).snap = s.snap := (rfl)
@[simp] theorem State.updLayer_staged (n l : Nat) (f : DisLayer → DisLayer) : (s.updLayer n l f).staged = s.staged := (rfl)
@[simp] theorem State.updLayer_readData (n l : Nat) (f : DisLayer → DisLayer) : (s.updLayer n l f).readData = s.readData := (rfl)
@[simp] theorem State.updLayer_outs (n l : Nat) (f : DisLayer → DisLayer) : (s.updLayer n l f).outs = s.outs := (rfl)
@[simp] theorem State.updLayer_time (n l : Nat) (f : DisLayer → DisLayer) : (s.updLayer n l f).time = s.time := (rfl)
@[simp] theorem State.updLayer_frac (n l : Nat) (f : DisLayer → DisLayer) : (s.updLayer n l f).frac = s.frac := (rfl)
@[simp] theorem State.updLayer_freeCtr (n l : Nat) (f : DisLayer → DisLayer) : (s.updLayer n l f).freeCtr = s.freeCtr := (rfl)
@[simp] theorem State.updLayer_store (n l : Nat) (f : DisLayer → DisLayer) : (s.updLayer n l f).store = s.store := (rfl)
@[simp] theorem State.updLayer_hostMem (n l : Nat) (f : DisLayer → DisLayer) : (s.updLayer n l f).hostMem = s.hostMem := (rfl)
@[simp] theorem State.updLayer_flash (n l : Nat) (f : DisLayer → DisLayer) : (s.updLayer n l f).flash = s.flash := (rfl)
@[simp] theorem State.updLayer_evt (n l : Nat) (f : DisLayer → DisLayer) : (s.updLayer n l f).evt = s.evt := (rfl)
@[simp] theorem State.updLayer_hif (n l : Nat) (f : DisLayer → DisLayer) : (s.updLayer n l f).hif = s.hif := (rfl)
@[simp] theorem State.updLayer_ctxs (n l : Nat) (f : DisLayer → DisLayer) : (s.updLayer n l f).ctxs = s.ctxs := (rfl)
@[simp] theorem State.updLayer_billets (n l : Nat) (f : DisLayer → DisLayer) : (s.updLayer n l f).billets = s.billets := (rfl)
@[simp] theorem State.updLayer_ports (n l : Nat) (f : DisLayer → DisLayer) : (s.updLayer n l f).ports = s.ports := (rfl)
@[simp] theorem State.updLayer_aside (n l : Nat) (f : DisLayer → DisLayer) : (s.updLayer n l f).aside = s.aside := (rfl)
@[simp] theorem State.updLayer_served (n l : Nat) (f : DisLayer → DisLayer) : (s.updLayer n l f).served = s.served := (rfl)
@[simp] theorem State.updLayer_badLines (n l : Nat) (f : DisLayer → DisLayer) : (s.updLayer n l f).badLines = s.badLines := (rfl)
@[simp] theorem State.updLayer_clk (n l : Nat) (f : DisLayer → DisLayer) : (s.updLayer n l f).clk = s.clk := (rfl)
@[simp] theorem State.updLayer_plan (n l : Nat) (f : DisLayer → DisLayer) : (s.updLayer n l f).plan = s.plan := (rfl)
@[simp] theorem State.updLayer_tbs (n l : Nat) (f : DisLayer → DisLayer) : (s.updLayer n l f).tbs = s.tbs := (rfl)
@[simp] theorem State.updLayer_tdc (n l : Nat) (f : DisLayer → DisLayer) : (s.updLayer n l f).tdc = s.tdc := (rfl)
@[simp] theorem State.updLayer_cnv (n l : Nat) (f : DisLayer → DisLayer) : (s.updLayer n l f).cnv = s.cnv := (rfl)
@[simp] theorem State.updLayer_pg (n l : Nat) (f : DisLayer → DisLayer) : (s.updLayer n l f).pg = s.pg := (rfl)
@[simp] theorem State.updLayer_cal (n l : Nat) (f : DisLayer → DisLayer) : (s.updLayer n l f).cal = s.cal := (rfl)
@[simp] theorem State.updLayer_ddc (n l : Nat) (f : DisLayer → DisLayer) : (s.updLayer n l f).ddc = s.ddc := (rfl)
@[simp] theorem State.updLayer_xfm (n l : Nat) (f : DisLayer → DisLayer) : (s.updLayer n l f).xfm = s.xfm := (rfl)
@[simp] theorem State.updLayer_streams (n l : Nat) (f : DisLayer → DisLayer) : (s.updLayer n l f).streams = s.streams := (rfl)
@[simp] theorem State.updLayer_frames (n l : Nat) (f : DisLayer → DisLayer) : (s.updLayer n l f).frames = s.frames := (rfl)
@[simp] theorem State.updLayer_det (n l : Nat) (f : DisLayer → DisLayer) : (s.updLayer n l f).det = s.det := (rfl)
@[simp] theorem State.updLayer_den (n l : Nat) (f : DisLayer → DisLayer) : (s.updLayer n l f).den = s.den := (rfl)
@[simp] theorem State.updLayer_tq (n l : Nat) (f : DisLayer → DisLayer) : (s.updLayer n l f).tq = s.tq := (rfl)
@[simp] theorem State.updLayer_lt (n l : Nat) (f : DisLayer → DisLayer) : (s.updLayer n l f).lt = s.lt := (rfl)
@[simp] theorem State.updLayer_fm (n l : Nat) (f : DisLayer → DisLayer) : (s.updLayer n l f).fm = s.fm := (rfl)
@[simp] theorem State.updLayer_bus (n l : Nat) (f : DisLayer → DisLayer) : (s.updLayer n l f).bus = s.bus := (rfl)
@[simp] theorem State.updLayer_tmr (n l : Nat) (f : DisLayer → DisLayer) : (s.updLayer n l f).tmr = s.tmr := (rfl)
@[simp] theorem State.updLayer_decs (n l : Nat) (f : DisLayer → DisLayer) : (s.updLayer n l f).decs = s.decs := (rfl)
@[simp] theorem State.updLayer_au (n l : Nat) (f : DisLayer → DisLayer) : (s.updLayer n l f).au = s.au := (rfl)
@[simp] theorem State.updLayer_replay (n l : Nat) (f : DisLayer → DisLayer) : (s.updLayer n l f).replay = s.replay := (rfl)
@[simp] theorem State.updLayer_turf (n l : Nat) (f : DisLayer → DisLayer) : (s.updLayer n l f).turf = s.turf := (rfl)
@[simp] theorem State.updLayer_clusters (n l : Nat) (f : DisLayer → DisLayer) : (s.updLayer n l f).clusters = s.clusters := (rfl)
@[simp] theorem State.updLayer_net (n l : Nat) (f : DisLayer → DisLayer) : (s.updLayer n l f).net = s.net := (rfl)
@[simp] theorem State.updLayer_ave (n l : Nat) (f : DisLayer → DisLayer) : (s.updLayer n l f).ave = s.ave := (rfl)
@[simp] theorem State.updLayer_slots (n l : Nat) (f : DisLayer → DisLayer) : (s.updLayer n l f).slots = s.slots := (rfl)
@[simp] theorem State.updLayer_dis (n l : Nat) (f : DisLayer → DisLayer) : (s.updLayer n l f).dis = s.dis := (rfl)
@[simp] theorem State.updLayer_mem (n l : Nat) (f : DisLayer → DisLayer) : (s.updLayer n l f).mem = s.mem := (rfl)
@[simp] theorem State.updLayer_dma (n l : Nat) (f : DisLayer → DisLayer) : (s.updLayer n l f).dma = s.dma := (rfl)
@[simp] theorem State.updLayer_rst (n l : Nat) (f : DisLayer → DisLayer) : (s.updLayer n l f).rst = s.rst := (rfl)
@[simp] theorem State.updLayer_stk (n l : Nat) (f : DisLayer → DisLayer) : (s.updLayer n l f).stk = s.stk := (rfl)
@[simp] theorem State.updLayer_cmp (n l : Nat) (f : DisLayer → DisLayer) : (s.updLayer n l f).cmp = s.cmp := (rfl)
@[simp] theorem State.updLayer_pkg (n l : Nat) (f : DisLayer → DisLayer) : (s.updLayer n l f).pkg = s.pkg := (rfl)
@[simp] theorem State.rd_updLayer (n l : Nat) (f : DisLayer → DisLayer) (adr : Nat) : (s.updLayer n l f).rd adr = s.rd adr := (rfl)
@[simp] theorem State.fld_updLayer (n l : Nat) (f : DisLayer → DisLayer) (adr : Nat) (fd : Fld) : (s.updLayer n l f).fld adr fd = s.fld adr fd := (rfl)
@[simp] theorem State.actv_updLayer (n l : Nat) (f : DisLayer → DisLayer) (adr : Nat) : (s.updLayer n l f).actv adr = s.actv adr := (rfl)

/-! ### setDma -/
@[simp] theorem State.setDma_pending (c : Nat) (d : Dma) : (s.setDma c d).pending = s.pending := (rfl)
@[simp] theorem State.setDma_regs (c : Nat) (d : Dma) : (s.setDma c d).regs = s.regs := (rfl)
@[simp] theorem State.setDma_act (c : Nat) (d : Dma) : (s.setDma c d).act = s.act := (rfl)
@[simp] theorem State.setDma_snap (c : Nat) (d : Dma) : (s.setDma c d).snap = s.snap := (rfl)
@[simp] theorem State.setDma_staged (c : Nat) (d : Dma) : (s.setDma c d).staged = s.staged := (rfl)
@[simp] theorem State.setDma_readData (c : Nat) (d : Dma) : (s.setDma c d).readData = s.readData := (rfl)
@[simp] theorem State.setDma_outs (c : Nat) (d : Dma) : (s.setDma c d).outs = s.outs := (rfl)
@[simp] theorem State.setDma_time (c : Nat) (d : Dma) : (s.setDma c d).time = s.time := (rfl)
@[simp] theorem State.setDma_frac (c : Nat) (d : Dma) : (s.setDma c d).frac = s.frac := (rfl)
@[simp] theorem State.setDma_freeCtr (c : Nat) (d : Dma) : (s.setDma c d).freeCtr = s.freeCtr := (rfl)
@[simp] theorem State.setDma_store (c : Nat) (d : Dma) : (s.setDma c d).store = s.store := (rfl)
@[simp] theorem State.setDma_hostMem (c : Nat) (d : Dma) : (s.setDma c d).hostMem = s.hostMem := (rfl)
@[simp] theorem State.setDma_flash (c : Nat) (d : Dma) : (s.setDma c d).flash = s.flash := (rfl)
@[simp] theorem State.setDma_evt (c : Nat) (d : Dma) : (s.setDma c d).evt = s.evt := (rfl)
@[simp] theorem State.setDma_hif (c : Nat) (d : Dma) : (s.setDma c d).hif = s.hif := (rfl)
@[simp] theorem State.setDma_ctxs (c : Nat) (d : Dma) : (s.setDma c d).ctxs = s.ctxs := (rfl)
@[simp] theorem State.setDma_billets (c : Nat) (d : Dma) : (s.setDma c d).billets = s.billets := (rfl)
@[simp] theorem State.setDma_ports (c : Nat) (d : Dma) : (s.setDma c d).ports = s.ports := (rfl)
@[simp] theorem State.setDma_aside (c : Nat) (d : Dma) : (s.setDma c d).aside = s.aside := (rfl)
@[simp] theorem State.setDma_served (c : Nat) (d : Dma) : (s.setDma c d).served = s.served := (rfl)
@[simp] theorem State.setDma_badLines (c : Nat) (d : Dma) : (s.setDma c d).badLines = s.badLines := (rfl)
@[simp] theorem State.setDma_clk (c : Nat) (d : Dma) : (s.setDma c d).clk = s.clk := (rfl)
@[simp] theorem State.setDma_plan (c : Nat) (d : Dma) : (s.setDma c d).plan = s.plan := (rfl)
@[simp] theorem State.setDma_tbs (c : Nat) (d : Dma) : (s.setDma c d).tbs = s.tbs := (rfl)
@[simp] theorem State.setDma_tdc (c : Nat) (d : Dma) : (s.setDma c d).tdc = s.tdc := (rfl)
@[simp] theorem State.setDma_cnv (c : Nat) (d : Dma) : (s.setDma c d).cnv = s.cnv := (rfl)
@[simp] theorem State.setDma_pg (c : Nat) (d : Dma) : (s.setDma c d).pg = s.pg := (rfl)
@[simp] theorem State.setDma_cal (c : Nat) (d : Dma) : (s.setDma c d).cal = s.cal := (rfl)
@[simp] theorem State.setDma_ddc (c : Nat) (d : Dma) : (s.setDma c d).ddc = s.ddc := (rfl)
@[simp] theorem State.setDma_xfm (c : Nat) (d : Dma) : (s.setDma c d).xfm = s.xfm := (rfl)
@[simp] theorem State.setDma_streams (c : Nat) (d : Dma) : (s.setDma c d).streams = s.streams := (rfl)
@[simp] theorem State.setDma_frames (c : Nat) (d : Dma) : (s.setDma c d).frames = s.frames := (rfl)
@[simp] theorem State.setDma_det (c : Nat) (d : Dma) : (s.setDma c d).det = s.det := (rfl)
@[simp] theorem State.setDma_den (c : Nat) (d : Dma) : (s.setDma c d).den = s.den := (rfl)
@[simp] theorem State.setDma_tq (c : Nat) (d : Dma) : (s.setDma c d).tq = s.tq := (rfl)
@[simp] theorem State.setDma_lt (c : Nat) (d : Dma) : (s.setDma c d).lt = s.lt := (rfl)
@[simp] theorem State.setDma_fm (c : Nat) (d : Dma) : (s.setDma c d).fm = s.fm := (rfl)
@[simp] theorem State.setDma_bus (c : Nat) (d : Dma) : (s.setDma c d).bus = s.bus := (rfl)
@[simp] theorem State.setDma_tmr (c : Nat) (d : Dma) : (s.setDma c d).tmr = s.tmr := (rfl)
@[simp] theorem State.setDma_decs (c : Nat) (d : Dma) : (s.setDma c d).decs = s.decs := (rfl)
@[simp] theorem State.setDma_au (c : Nat) (d : Dma) : (s.setDma c d).au = s.au := (rfl)
@[simp] theorem State.setDma_replay (c : Nat) (d : Dma) : (s.setDma c d).replay = s.replay := (rfl)
@[simp] theorem State.setDma_turf (c : Nat) (d : Dma) : (s.setDma c d).turf = s.turf := (rfl)
@[simp] theorem State.setDma_clusters (c : Nat) (d : Dma) : (s.setDma c d).clusters = s.clusters := (rfl)
@[simp] theorem State.setDma_net (c : Nat) (d : Dma) : (s.setDma c d).net = s.net := (rfl)
@[simp] theorem State.setDma_ave (c : Nat) (d : Dma) : (s.setDma c d).ave = s.ave := (rfl)
@[simp] theorem State.setDma_slots (c : Nat) (d : Dma) : (s.setDma c d).slots = s.slots := (rfl)
@[simp] theorem State.setDma_dis (c : Nat) (d : Dma) : (s.setDma c d).dis = s.dis := (rfl)
@[simp] theorem State.setDma_layers (c : Nat) (d : Dma) : (s.setDma c d).layers = s.layers := (rfl)
@[simp] theorem State.setDma_mem (c : Nat) (d : Dma) : (s.setDma c d).mem = s.mem := (rfl)
@[simp] theorem State.setDma_rst (c : Nat) (d : Dma) : (s.setDma c d).rst = s.rst := (rfl)
@[simp] theorem State.setDma_stk (c : Nat) (d : Dma) : (s.setDma c d).stk = s.stk := (rfl)
@[simp] theorem State.setDma_cmp (c : Nat) (d : Dma) : (s.setDma c d).cmp = s.cmp := (rfl)
@[simp] theorem State.setDma_pkg (c : Nat) (d : Dma) : (s.setDma c d).pkg = s.pkg := (rfl)
@[simp] theorem State.rd_setDma (c : Nat) (d : Dma) (adr : Nat) : (s.setDma c d).rd adr = s.rd adr := (rfl)
@[simp] theorem State.fld_setDma (c : Nat) (d : Dma) (adr : Nat) (fd : Fld) : (s.setDma c d).fld adr fd = s.fld adr fd := (rfl)
@[simp] theorem State.actv_setDma (c : Nat) (d : Dma) (adr : Nat) : (s.setDma c d).actv adr = s.actv adr := (rfl)

/-! ### updHif -/
@[simp] theorem State.updHif_pending (f : Hif → Hif) : (s.updHif f).pending = s.pending := (rfl)
@[simp] theorem State.updHif_regs (f : Hif → Hif) : (s.updHif f).regs = s.regs := (rfl)
@[simp] theorem State.updHif_act (f : Hif → Hif) : (s.updHif f).act = s.act := (rfl)
@[simp] theorem State.updHif_snap (f : Hif → Hif) : (s.updHif f).snap = s.snap := (rfl)
@[simp] theorem State.updHif_staged (f : Hif → Hif) : (s.updHif f).staged = s.staged := (rfl)
@[simp] theorem State.updHif_readData (f : Hif → Hif) : (s.updHif f).readData = s.readData := (rfl)
@[simp] theorem State.updHif_outs (f : Hif → Hif) : (s.updHif f).outs = s.outs := (rfl)
@[simp] theorem State.updHif_time (f : Hif → Hif) : (s.updHif f).time = s.time := (rfl)
@[simp] theorem State.updHif_frac (f : Hif → Hif) : (s.updHif f).frac = s.frac := (rfl)
@[simp] theorem State.updHif_freeCtr (f : Hif → Hif) : (s.updHif f).freeCtr = s.freeCtr := (rfl)
@[simp] theorem State.updHif_store (f : Hif → Hif) : (s.updHif f).store = s.store := (rfl)
@[simp] theorem State.updHif_hostMem (f : Hif → Hif) : (s.updHif f).hostMem = s.hostMem := (rfl)
@[simp] theorem State.updHif_flash (f : Hif → Hif) : (s.updHif f).flash = s.flash := (rfl)
@[simp] theorem State.updHif_evt (f : Hif → Hif) : (s.updHif f).evt = s.evt := (rfl)
@[simp] theorem State.updHif_ctxs (f : Hif → Hif) : (s.updHif f).ctxs = s.ctxs := (rfl)
@[simp] theorem State.updHif_billets (f : Hif → Hif) : (s.updHif f).billets = s.billets := (rfl)
@[simp] theorem State.updHif_ports (f : Hif → Hif) : (s.updHif f).ports = s.ports := (rfl)
@[simp] theorem State.updHif_aside (f : Hif → Hif) : (s.updHif f).aside = s.aside := (rfl)
@[simp] theorem State.updHif_served (f : Hif → Hif) : (s.updHif f).served = s.served := (rfl)
@[simp] theorem State.updHif_badLines (f : Hif → Hif) : (s.updHif f).badLines = s.badLines := (rfl)
@[simp] theorem State.updHif_clk (f : Hif → Hif) : (s.updHif f).clk = s.clk := (rfl)
@[simp] theorem State.updHif_plan (f : Hif → Hif) : (s.updHif f).plan = s.plan := (rfl)
@[simp] theorem State.updHif_tbs (f : Hif → Hif) : (s.updHif f).tbs = s.tbs := (rfl)
@[simp] theorem State.updHif_tdc (f : Hif → Hif) : (s.updHif f).tdc = s.tdc := (rfl)
@[simp] theorem State.updHif_cnv (f : Hif → Hif) : (s.updHif f).cnv = s.cnv := (rfl)
@[simp] theorem State.updHif_pg (f : Hif → Hif) : (s.updHif f).pg = s.pg := (rfl)
@[simp] theorem State.updHif_cal (f : Hif → Hif) : (s.updHif f).cal = s.cal := (rfl)
@[simp] theorem State.updHif_ddc (f : Hif → Hif) : (s.updHif f).ddc = s.ddc := (rfl)
@[simp] theorem State.updHif_xfm (f : Hif → Hif) : (s.updHif f).xfm = s.xfm := (rfl)
@[simp] theorem State.updHif_streams (f : Hif → Hif) : (s.updHif f).streams = s.streams := (rfl)
@[simp] theorem State.updHif_frames (f : Hif → Hif) : (s.updHif f).frames = s.frames := (rfl)
@[simp] theorem State.updHif_det (f : Hif → Hif) : (s.updHif f).det = s.det := (rfl)
@[simp] theorem State.updHif_den (f : Hif → Hif) : (s.updHif f).den = s.den := (rfl)
@[simp] theorem State.updHif_tq (f : Hif → Hif) : (s.updHif f).tq = s.tq := (rfl)
@[simp] theorem State.updHif_lt (f : Hif → Hif) : (s.updHif f).lt = s.lt := (rfl)
@[simp] theorem State.updHif_fm (f : Hif → Hif) : (s.updHif f).fm = s.fm := (rfl)
@[simp] theorem State.updHif_bus (f : Hif → Hif) : (s.updHif f).bus = s.bus := (rfl)
@[simp] theorem State.updHif_tmr (f : Hif → Hif) : (s.updHif f).tmr = s.tmr := (rfl)
@[simp] theorem State.updHif_decs (f : Hif → Hif) : (s.updHif f).decs = s.decs := (rfl)
@[simp] theorem State.updHif_au (f : Hif → Hif) : (s.updHif f).au = s.au := (rfl)
@[simp] theorem State.updHif_replay (f : Hif → Hif) : (s.updHif f).replay = s.replay := (rfl)
@[simp] theorem State.updHif_turf (f : Hif → Hif) : (s.updHif f).turf = s.turf := (rfl)
@[simp] theorem State.updHif_clusters (f : Hif → Hif) : (s.updHif f).clusters = s.clusters := (rfl)
@[simp] theorem State.updHif_net (f : Hif → Hif) : (s.updHif f).net = s.net := (rfl)
@[simp] theorem State.updHif_ave (f : Hif → Hif) : (s.updHif f).ave = s.ave := (rfl)
@[simp] theorem State.updHif_slots (f : Hif → Hif) : (s.updHif f).slots = s.slots := (rfl)
@[simp] theorem State.updHif_dis (f : Hif → Hif) : (s.updHif f).dis = s.dis := (rfl)
@[simp] theorem State.updHif_layers (f : Hif → Hif) : (s.updHif f).layers = s.layers := (rfl)
@[simp] theorem State.updHif_mem (f : Hif → Hif) : (s.updHif f).mem = s.mem := (rfl)
@[simp] theorem State.updHif_dma (f : Hif → Hif) : (s.updHif f).dma = s.dma := (rfl)
@[simp] theorem State.updHif_rst (f : Hif → Hif) : (s.updHif f).rst = s.rst := (rfl)
@[simp] theorem State.updHif_stk (f : Hif → Hif) : (s.updHif f).stk = s.stk := (rfl)
@[simp] theorem State.updHif_cmp (f : Hif → Hif) : (s.updHif f).cmp = s.cmp := (rfl)
@[simp] theorem State.updHif_pkg (f : Hif → Hif) : (s.updHif f).pkg = s.pkg := (rfl)
@[simp] theorem State.rd_updHif (f : Hif → Hif) (adr : Nat) : (s.updHif f).rd adr = s.rd adr := (rfl)
@[simp] theorem State.fld_updHif (f : Hif → Hif) (adr : Nat) (fd : Fld) : (s.updHif f).fld adr fd = s.fld adr fd := (rfl)
@[simp] theorem State.actv_updHif (f : Hif → Hif) (adr : Nat) : (s.updHif f).actv adr = s.actv adr := (rfl)

/-! ### setLineErr -/
@[simp] theorem State.setLineErr_pending (line v : Nat) : (s.setLineErr line v).pending = s.pending := (rfl)
@[simp] theorem State.setLineErr_regs (line v : Nat) : (s.setLineErr line v).regs = s.regs := (rfl)
@[simp] theorem State.setLineErr_act (line v : Nat) : (s.setLineErr line v).act = s.act := (rfl)
@[simp] theorem State.setLineErr_snap (line v : Nat) : (s.setLineErr line v).snap = s.snap := (rfl)
@[simp] theorem State.setLineErr_staged (line v : Nat) : (s.setLineErr line v).staged = s.staged := (rfl)
@[simp] theorem State.setLineErr_readData (line v : Nat) : (s.setLineErr line v).readData = s.readData := (rfl)
@[simp] theorem State.setLineErr_outs (line v : Nat) : (s.setLineErr line v).outs = s.outs := (rfl)
@[simp] theorem State.setLineErr_time (line v : Nat) : (s.setLineErr line v).time = s.time := (rfl)
@[simp] theorem State.setLineErr_frac (line v : Nat) : (s.setLineErr line v).frac = s.frac := (rfl)
@[simp] theorem State.setLineErr_freeCtr (line v : Nat) : (s.setLineErr line v).freeCtr = s.freeCtr := (rfl)
@[simp] theorem State.setLineErr_store (line v : Nat) : (s.setLineErr line v).store = s.store := (rfl)
@[simp] theorem State.setLineErr_hostMem (line v : Nat) : (s.setLineErr line v).hostMem = s.hostMem := (rfl)
@[simp] theorem State.setLineErr_flash (line v : Nat) : (s.setLineErr line v).flash = s.flash := (rfl)
@[simp] theorem State.setLineErr_evt (line v : Nat) : (s.setLineErr line v).evt = s.evt := (rfl)
@[simp] theorem State.setLineErr_hif (line v : Nat) : (s.setLineErr line v).hif = s.hif := (rfl)
@[simp] theorem State.setLineErr_ctxs (line v : Nat) : (s.setLineErr line v).ctxs = s.ctxs := (rfl)
@[simp] theorem State.setLineErr_billets (line v : Nat) : (s.setLineErr line v).billets = s.billets := (rfl)
@[simp] theorem State.setLineErr_ports (line v : Nat) : (s.setLineErr line v).ports = s.ports := (rfl)
@[simp] theorem State.setLineErr_aside (line v : Nat) : (s.setLineErr line v).aside = s.aside := (rfl)
@[simp] theorem State.setLineErr_served (line v : Nat) : (s.setLineErr line v).served = s.served := (rfl)
@[simp] theorem State.setLineErr_clk (line v : Nat) : (s.setLineErr line v).clk = s.clk := (rfl)
@[simp] theorem State.setLineErr_plan (line v : Nat) : (s.setLineErr line v).plan = s.plan := (rfl)
@[simp] theorem State.setLineErr_tbs (line v : Nat) : (s.setLineErr line v).tbs = s.tbs := (rfl)
@[simp] theorem State.setLineErr_tdc (line v : Nat) : (s.setLineErr line v).tdc = s.tdc := (rfl)
@[simp] theorem State.setLineErr_cnv (line v : Nat) : (s.setLineErr line v).cnv = s.cnv := (rfl)
@[simp] theorem State.setLineErr_pg (line v : Nat) : (s.setLineErr line v).pg = s.pg := (rfl)
@[simp] theorem State.setLineErr_cal (line v : Nat) : (s.setLineErr line v).cal = s.cal := (rfl)
@[simp] theorem State.setLineErr_ddc (line v : Nat) : (s.setLineErr line v).ddc = s.ddc := (rfl)
@[simp] theorem State.setLineErr_xfm (line v : Nat) : (s.setLineErr line v).xfm = s.xfm := (rfl)
@[simp] theorem State.setLineErr_streams (line v : Nat) : (s.setLineErr line v).streams = s.streams := (rfl)
@[simp] theorem State.setLineErr_frames (line v : Nat) : (s.setLineErr line v).frames = s.frames := (rfl)
@[simp] theorem State.setLineErr_det (line v : Nat) : (s.setLineErr line v).det = s.det := (rfl)
@[simp] theorem State.setLineErr_den (line v : Nat) : (s.setLineErr line v).den = s.den := (rfl)
@[simp] theorem State.setLineErr_tq (line v : Nat) : (s.setLineErr line v).tq = s.tq := (rfl)
@[simp] theorem State.setLineErr_lt (line v : Nat) : (s.setLineErr line v).lt = s.lt := (rfl)
@[simp] theorem State.setLineErr_fm (line v : Nat) : (s.setLineErr line v).fm = s.fm := (rfl)
@[simp] theorem State.setLineErr_bus (line v : Nat) : (s.setLineErr line v).bus = s.bus := (rfl)
@[simp] theorem State.setLineErr_tmr (line v : Nat) : (s.setLineErr line v).tmr = s.tmr := (rfl)
@[simp] theorem State.setLineErr_decs (line v : Nat) : (s.setLineErr line v).decs = s.decs := (rfl)
@[simp] theorem State.setLineErr_au (line v : Nat) : (s.setLineErr line v).au = s.au := (rfl)
@[simp] theorem State.setLineErr_replay (line v : Nat) : (s.setLineErr line v).replay = s.replay := (rfl)
@[simp] theorem State.setLineErr_turf (line v : Nat) : (s.setLineErr line v).turf = s.turf := (rfl)
@[simp] theorem State.setLineErr_clusters (line v : Nat) : (s.setLineErr line v).clusters = s.clusters := (rfl)
@[simp] theorem State.setLineErr_net (line v : Nat) : (s.setLineErr line v).net = s.net := (rfl)
@[simp] theorem State.setLineErr_ave (line v : Nat) : (s.setLineErr line v).ave = s.ave := (rfl)
@[simp] theorem State.setLineErr_slots (line v : Nat) : (s.setLineErr line v).slots = s.slots := (rfl)
@[simp] theorem State.setLineErr_dis (line v : Nat) : (s.setLineErr line v).dis = s.dis := (rfl)
@[simp] theorem State.setLineErr_layers (line v : Nat) : (s.setLineErr line v).layers = s.layers := (rfl)
@[simp] theorem State.setLineErr_mem (line v : Nat) : (s.setLineErr line v).mem = s.mem := (rfl)
@[simp] theorem State.setLineErr_dma (line v : Nat) : (s.setLineErr line v).dma = s.dma := (rfl)
@[simp] theorem State.setLineErr_rst (line v : Nat) : (s.setLineErr line v).rst = s.rst := (rfl)
@[simp] theorem State.setLineErr_stk (line v : Nat) : (s.setLineErr line v).stk = s.stk := (rfl)
@[simp] theorem State.setLineErr_cmp (line v : Nat) : (s.setLineErr line v).cmp = s.cmp := (rfl)
@[simp] theorem State.setLineErr_pkg (line v : Nat) : (s.setLineErr line v).pkg = s.pkg := (rfl)
@[simp] theorem State.rd_setLineErr (line v : Nat) (adr : Nat) : (s.setLineErr line v).rd adr = s.rd adr := (rfl)
@[simp] theorem State.fld_setLineErr (line v : Nat) (adr : Nat) (fd : Fld) : (s.setLineErr line v).fld adr fd = s.fld adr fd := (rfl)
@[simp] theorem State.actv_setLineErr (line v : Nat) (adr : Nat) : (s.setLineErr line v).actv adr = s.actv adr := (rfl)

/-! ### updPg -/
@[simp] theorem State.updPg_pending (g : Nat) (f : Pg → Pg) : (s.updPg g f).pending = s.pending := (rfl)
@[simp] theorem State.updPg_regs (g : Nat) (f : Pg → Pg) : (s.updPg g f).regs = s.regs := (rfl)
@[simp] theorem State.updPg_act (g : Nat) (f : Pg → Pg) : (s.updPg g f).act = s.act := (rfl)
@[simp] theorem State.updPg_snap (g : Nat) (f : Pg → Pg) : (s.updPg g f).snap = s.snap := (rfl)
@[simp] theorem State.updPg_staged (g : Nat) (f : Pg → Pg) : (s.updPg g f).staged = s.staged := (rfl)
@[simp] theorem State.updPg_readData (g : Nat) (f : Pg → Pg) : (s.updPg g f).readData = s.readData := (rfl)
@[simp] theorem State.updPg_outs (g : Nat) (f : Pg → Pg) : (s.updPg g f).outs = s.outs := (rfl)
@[simp] theorem State.updPg_time (g : Nat) (f : Pg → Pg) : (s.updPg g f).time = s.time := (rfl)
@[simp] theorem State.updPg_frac (g : Nat) (f : Pg → Pg) : (s.updPg g f).frac = s.frac := (rfl)
@[simp] theorem State.updPg_freeCtr (g : Nat) (f : Pg → Pg) : (s.updPg g f).freeCtr = s.freeCtr := (rfl)
@[simp] theorem State.updPg_store (g : Nat) (f : Pg → Pg) : (s.updPg g f).store = s.store := (rfl)
@[simp] theorem State.updPg_hostMem (g : Nat) (f : Pg → Pg) : (s.updPg g f).hostMem = s.hostMem := (rfl)
@[simp] theorem State.updPg_flash (g : Nat) (f : Pg → Pg) : (s.updPg g f).flash = s.flash := (rfl)
@[simp] theorem State.updPg_evt (g : Nat) (f : Pg → Pg) : (s.updPg g f).evt = s.evt := (rfl)
@[simp] theorem State.updPg_hif (g : Nat) (f : Pg → Pg) : (s.updPg g f).hif = s.hif := (rfl)
@[simp] theorem State.updPg_ctxs (g : Nat) (f : Pg → Pg) : (s.updPg g f).ctxs = s.ctxs := (rfl)
@[simp] theorem State.updPg_billets (g : Nat) (f : Pg → Pg) : (s.updPg g f).billets = s.billets := (rfl)
@[simp] theorem State.updPg_ports (g : Nat) (f : Pg → Pg) : (s.updPg g f).ports = s.ports := (rfl)
@[simp] theorem State.updPg_aside (g : Nat) (f : Pg → Pg) : (s.updPg g f).aside = s.aside := (rfl)
@[simp] theorem State.updPg_served (g : Nat) (f : Pg → Pg) : (s.updPg g f).served = s.served := (rfl)
@[simp] theorem State.updPg_badLines (g : Nat) (f : Pg → Pg) : (s.updPg g f).badLines = s.badLines := (rfl)
@[simp] theorem State.updPg_clk (g : Nat) (f : Pg → Pg) : (s.updPg g f).clk = s.clk := (rfl)
@[simp] theorem State.updPg_plan (g : Nat) (f : Pg → Pg) : (s.updPg g f).plan = s.plan := (rfl)
@[simp] theorem State.updPg_tbs (g : Nat) (f : Pg → Pg) : (s.updPg g f).tbs = s.tbs := (rfl)
@[simp] theorem State.updPg_tdc (g : Nat) (f : Pg → Pg) : (s.updPg g f).tdc = s.tdc := (rfl)
@[simp] theorem State.updPg_cnv (g : Nat) (f : Pg → Pg) : (s.updPg g f).cnv = s.cnv := (rfl)
@[simp] theorem State.updPg_cal (g : Nat) (f : Pg → Pg) : (s.updPg g f).cal = s.cal := (rfl)
@[simp] theorem State.updPg_ddc (g : Nat) (f : Pg → Pg) : (s.updPg g f).ddc = s.ddc := (rfl)
@[simp] theorem State.updPg_xfm (g : Nat) (f : Pg → Pg) : (s.updPg g f).xfm = s.xfm := (rfl)
@[simp] theorem State.updPg_streams (g : Nat) (f : Pg → Pg) : (s.updPg g f).streams = s.streams := (rfl)
@[simp] theorem State.updPg_frames (g : Nat) (f : Pg → Pg) : (s.updPg g f).frames = s.frames := (rfl)
@[simp] theorem State.updPg_det (g : Nat) (f : Pg → Pg) : (s.updPg g f).det = s.det := (rfl)
@[simp] theorem State.updPg_den (g : Nat) (f : Pg → Pg) : (s.updPg g f).den = s.den := (rfl)
@[simp] theorem State.updPg_tq (g : Nat) (f : Pg → Pg) : (s.updPg g f).tq = s.tq := (rfl)
@[simp] theorem State.updPg_lt (g : Nat) (f : Pg → Pg) : (s.updPg g f).lt = s.lt := (rfl)
@[simp] theorem State.updPg_fm (g : Nat) (f : Pg → Pg) : (s.updPg g f).fm = s.fm := (rfl)
@[simp] theorem State.updPg_bus (g : Nat) (f : Pg → Pg) : (s.updPg g f).bus = s.bus := (rfl)
@[simp] theorem State.updPg_tmr (g : Nat) (f : Pg → Pg) : (s.updPg g f).tmr = s.tmr := (rfl)
@[simp] theorem State.updPg_decs (g : Nat) (f : Pg → Pg) : (s.updPg g f).decs = s.decs := (rfl)
@[simp] theorem State.updPg_au (g : Nat) (f : Pg → Pg) : (s.updPg g f).au = s.au := (rfl)
@[simp] theorem State.updPg_replay (g : Nat) (f : Pg → Pg) : (s.updPg g f).replay = s.replay := (rfl)
@[simp] theorem State.updPg_turf (g : Nat) (f : Pg → Pg) : (s.updPg g f).turf = s.turf := (rfl)
@[simp] theorem State.updPg_clusters (g : Nat) (f : Pg → Pg) : (s.updPg g f).clusters = s.clusters := (rfl)
@[simp] theorem State.updPg_net (g : Nat) (f : Pg → Pg) : (s.updPg g f).net = s.net := (rfl)
@[simp] theorem State.updPg_ave (g : Nat) (f : Pg → Pg) : (s.updPg g f).ave = s.ave := (rfl)
@[simp] theorem State.updPg_slots (g : Nat) (f : Pg → Pg) : (s.updPg g f).slots = s.slots := (rfl)
@[simp] theorem State.updPg_dis (g : Nat) (f : Pg → Pg) : (s.updPg g f).dis = s.dis := (rfl)
@[simp] theorem State.updPg_layers (g : Nat) (f : Pg → Pg) : (s.updPg g f).layers = s.layers := (rfl)
@[simp] theorem State.updPg_mem (g : Nat) (f : Pg → Pg) : (s.updPg g f).mem = s.mem := (rfl)
@[simp] theorem State.updPg_dma (g : Nat) (f : Pg → Pg) : (s.updPg g f).dma = s.dma := (rfl)
@[simp] theorem State.updPg_rst (g : Nat) (f : Pg → Pg) : (s.updPg g f).rst = s.rst := (rfl)
@[simp] theorem State.updPg_stk (g : Nat) (f : Pg → Pg) : (s.updPg g f).stk = s.stk := (rfl)
@[simp] theorem State.updPg_cmp (g : Nat) (f : Pg → Pg) : (s.updPg g f).cmp = s.cmp := (rfl)
@[simp] theorem State.updPg_pkg (g : Nat) (f : Pg → Pg) : (s.updPg g f).pkg = s.pkg := (rfl)
@[simp] theorem State.rd_updPg (g : Nat) (f : Pg → Pg) (adr : Nat) : (s.updPg g f).rd adr = s.rd adr := (rfl)
@[simp] theorem State.fld_updPg (g : Nat) (f : Pg → Pg) (adr : Nat) (fd : Fld) : (s.updPg g f).fld adr fd = s.fld adr fd := (rfl)
@[simp] theorem State.actv_updPg (g : Nat) (f : Pg → Pg) (adr : Nat) : (s.updPg g f).actv adr = s.actv adr := (rfl)

/-! ### updNet -/
@[simp] theorem State.updNet_pending (i : Nat) (f : NetSub → NetSub) : (s.updNet i f).pending = s.pending := (rfl)
@[simp] theorem State.updNet_regs (i : Nat) (f : NetSub → NetSub) : (s.updNet i f).regs = s.regs := (rfl)
@[simp] theorem State.updNet_act (i : Nat) (f : NetSub → NetSub) : (s.updNet i f).act = s.act := (rfl)
@[simp] theorem State.updNet_snap (i : Nat) (f : NetSub → NetSub) : (s.updNet i f).snap = s.snap := (rfl)
@[simp] theorem State.updNet_staged (i : Nat) (f : NetSub → NetSub) : (s.updNet i f).staged = s.staged := (rfl)
@[simp] theorem State.updNet_readData (i : Nat) (f : NetSub → NetSub) : (s.updNet i f).readData = s.readData := (rfl)
@[simp] theorem State.updNet_outs (i : Nat) (f : NetSub → NetSub) : (s.updNet i f).outs = s.outs := (rfl)
@[simp] theorem State.updNet_time (i : Nat) (f : NetSub → NetSub) : (s.updNet i f).time = s.time := (rfl)
@[simp] theorem State.updNet_frac (i : Nat) (f : NetSub → NetSub) : (s.updNet i f).frac = s.frac := (rfl)
@[simp] theorem State.updNet_freeCtr (i : Nat) (f : NetSub → NetSub) : (s.updNet i f).freeCtr = s.freeCtr := (rfl)
@[simp] theorem State.updNet_store (i : Nat) (f : NetSub → NetSub) : (s.updNet i f).store = s.store := (rfl)
@[simp] theorem State.updNet_hostMem (i : Nat) (f : NetSub → NetSub) : (s.updNet i f).hostMem = s.hostMem := (rfl)
@[simp] theorem State.updNet_flash (i : Nat) (f : NetSub → NetSub) : (s.updNet i f).flash = s.flash := (rfl)
@[simp] theorem State.updNet_evt (i : Nat) (f : NetSub → NetSub) : (s.updNet i f).evt = s.evt := (rfl)
@[simp] theorem State.updNet_hif (i : Nat) (f : NetSub → NetSub) : (s.updNet i f).hif = s.hif := (rfl)
@[simp] theorem State.updNet_ctxs (i : Nat) (f : NetSub → NetSub) : (s.updNet i f).ctxs = s.ctxs := (rfl)
@[simp] theorem State.updNet_billets (i : Nat) (f : NetSub → NetSub) : (s.updNet i f).billets = s.billets := (rfl)
@[simp] theorem State.updNet_ports (i : Nat) (f : NetSub → NetSub) : (s.updNet i f).ports = s.ports := (rfl)
@[simp] theorem State.updNet_aside (i : Nat) (f : NetSub → NetSub) : (s.updNet i f).aside = s.aside := (rfl)
@[simp] theorem State.updNet_served (i : Nat) (f : NetSub → NetSub) : (s.updNet i f).served = s.served := (rfl)
@[simp] theorem State.updNet_badLines (i : Nat) (f : NetSub → NetSub) : (s.updNet i f).badLines = s.badLines := (rfl)
@[simp] theorem State.updNet_clk (i : Nat) (f : NetSub → NetSub) : (s.updNet i f).clk = s.clk := (rfl)
@[simp] theorem State.updNet_plan (i : Nat) (f : NetSub → NetSub) : (s.updNet i f).plan = s.plan := (rfl)
@[simp] theorem State.updNet_tbs (i : Nat) (f : NetSub → NetSub) : (s.updNet i f).tbs = s.tbs := (rfl)
@[simp] theorem State.updNet_tdc (i : Nat) (f : NetSub → NetSub) : (s.updNet i f).tdc = s.tdc := (rfl)
@[simp] theorem State.updNet_cnv (i : Nat) (f : NetSub → NetSub) : (s.updNet i f).cnv = s.cnv := (rfl)
@[simp] theorem State.updNet_pg (i : Nat) (f : NetSub → NetSub) : (s.updNet i f).pg = s.pg := (rfl)
@[simp] theorem State.updNet_cal (i : Nat) (f : NetSub → NetSub) : (s.updNet i f).cal = s.cal := (rfl)
@[simp] theorem State.updNet_ddc (i : Nat) (f : NetSub → NetSub) : (s.updNet i f).ddc = s.ddc := (rfl)
@[simp] theorem State.updNet_xfm (i : Nat) (f : NetSub → NetSub) : (s.updNet i f).xfm = s.xfm := (rfl)
@[simp] theorem State.updNet_streams (i : Nat) (f : NetSub → NetSub) : (s.updNet i f).streams = s.streams := (rfl)
@[simp] theorem State.updNet_frames (i : Nat) (f : NetSub → NetSub) : (s.updNet i f).frames = s.frames := (rfl)
@[simp] theorem State.updNet_det (i : Nat) (f : NetSub → NetSub) : (s.updNet i f).det = s.det := (rfl)
@[simp] theorem State.updNet_den (i : Nat) (f : NetSub → NetSub) : (s.updNet i f).den = s.den := (rfl)
@[simp] theorem State.updNet_tq (i : Nat) (f : NetSub → NetSub) : (s.updNet i f).tq = s.tq := (rfl)
@[simp] theorem State.updNet_lt (i : Nat) (f : NetSub → NetSub) : (s.updNet i f).lt = s.lt := (rfl)
@[simp] theorem State.updNet_fm (i : Nat) (f : NetSub → NetSub) : (s.updNet i f).fm = s.fm := (rfl)
@[simp] theorem State.updNet_bus (i : Nat) (f : NetSub → NetSub) : (s.updNet i f).bus = s.bus := (rfl)
@[simp] theorem State.updNet_tmr (i : Nat) (f : NetSub → NetSub) : (s.updNet i f).tmr = s.tmr := (rfl)
@[simp] theorem State.updNet_decs (i : Nat) (f : NetSub → NetSub) : (s.updNet i f).decs = s.decs := (rfl)
@[simp] theorem State.updNet_au (i : Nat) (f : NetSub → NetSub) : (s.updNet i f).au = s.au := (rfl)
@[simp] theorem State.updNet_replay (i : Nat) (f : NetSub → NetSub) : (s.updNet i f).replay = s.replay := (rfl)
@[simp] theorem State.updNet_turf (i : Nat) (f : NetSub → NetSub) : (s.updNet i f).turf = s.turf := (rfl)
@[simp] theorem State.updNet_clusters (i : Nat) (f : NetSub → NetSub) : (s.updNet i f).clusters = s.clusters := (rfl)
@[simp] theorem State.updNet_ave (i : Nat) (f : NetSub → NetSub) : (s.updNet i f).ave = s.ave := (rfl)
@[simp] theorem State.updNet_slots (i : Nat) (f : NetSub → NetSub) : (s.updNet i f).slots = s.slots := (rfl)
@[simp] theorem State.updNet_dis (i : Nat) (f : NetSub → NetSub) : (s.updNet i f).dis = s.dis := (rfl)
@[simp] theorem State.updNet_layers (i : Nat) (f : NetSub → NetSub) : (s.updNet i f).layers = s.layers := (rfl)
@[simp] theorem State.updNet_mem (i : Nat) (f : NetSub → NetSub) : (s.updNet i f).mem = s.mem := (rfl)
@[simp] theorem State.updNet_dma (i : Nat) (f : NetSub → NetSub) : (s.updNet i f).dma = s.dma := (rfl)
@[simp] theorem State.updNet_rst (i : Nat) (f : NetSub → NetSub) : (s.updNet i f).rst = s.rst := (rfl)
@[simp] theorem State.updNet_stk (i : Nat) (f : NetSub → NetSub) : (s.updNet i f).stk = s.stk := (rfl)
@[simp] theorem State.updNet_cmp (i : Nat) (f : NetSub → NetSub) : (s.updNet i f).cmp = s.cmp := (rfl)
@[simp] theorem State.updNet_pkg (i : Nat) (f : NetSub → NetSub) : (s.updNet i f).pkg = s.pkg := (rfl)
@[simp] theorem State.rd_updNet (i : Nat) (f : NetSub → NetSub) (adr : Nat) : (s.updNet i f).rd adr = s.rd adr := (rfl)
@[simp] theorem State.fld_updNet (i : Nat) (f : NetSub → NetSub) (adr : Nat) (fd : Fld) : (s.updNet i f).fld adr fd = s.fld adr fd := (rfl)
@[simp] theorem State.actv_updNet (i : Nat) (f : NetSub → NetSub) (adr : Nat) : (s.updNet i f).actv adr = s.actv adr := (rfl)

/-! ### updAve -/
@[simp] theorem State.updAve_pending (a : Nat) (f : Ave → Ave) : (s.updAve a f).pending = s.pending := (rfl)
@[simp] theorem State.updAve_regs (a : Nat) (f : Ave → Ave) : (s.updAve a f).regs = s.regs := (rfl)
@[simp] theorem State.updAve_act (a : Nat) (f : Ave → Ave) : (s.updAve a f).act = s.act := (rfl)
@[simp] theorem State.updAve_snap (a : Nat) (f : Ave → Ave) : (s.updAve a f).snap = s.snap := (rfl)
@[simp] theorem State.updAve_staged (a : Nat) (f : Ave → Ave) : (s.updAve a f).staged = s.staged := (rfl)
@[simp] theorem State.updAve_readData (a : Nat) (f : Ave → Ave) : (s.updAve a f).readData = s.readData := (rfl)
@[simp] theorem State.updAve_outs (a : Nat) (f : Ave → Ave) : (s.updAve a f).outs = s.outs := (rfl)
@[simp] theorem State.updAve_time (a : Nat) (f : Ave → Ave) : (s.updAve a f).time = s.time := (rfl)
@[simp] theorem State.updAve_frac (a : Nat) (f : Ave → Ave) : (s.updAve a f).frac = s.frac := (rfl)
@[simp] theorem State.updAve_freeCtr (a : Nat) (f : Ave → Ave) : (s.updAve a f).freeCtr = s.freeCtr := (rfl)
@[simp] theorem State.updAve_store (a : Nat) (f : Ave → Ave) : (s.updAve a f).store = s.store := (rfl)
@[simp] theorem State.updAve_hostMem (a : Nat) (f : Ave → Ave) : (s.updAve a f).hostMem = s.hostMem := (rfl)
@[simp] theorem State.updAve_flash (a : Nat) (f : Ave → Ave) : (s.updAve a f).flash = s.flash := (rfl)
@[simp] theorem State.updAve_evt (a : Nat) (f : Ave → Ave) : (s.updAve a f).evt = s.evt := (rfl)
@[simp] theorem State.updAve_hif (a : Nat) (f : Ave → Ave) : (s.updAve a f).hif = s.hif := (rfl)
@[simp] theorem State.updAve_ctxs (a : Nat) (f : Ave → Ave) : (s.updAve a f).ctxs = s.ctxs := (rfl)
@[simp] theorem State.updAve_billets (a : Nat) (f : Ave → Ave) : (s.updAve a f).billets = s.billets := (rfl)
@[simp] theorem State.updAve_ports (a : Nat) (f : Ave → Ave) : (s.updAve a f).ports = s.ports := (rfl)
@[simp] theorem State.updAve_aside (a : Nat) (f : Ave → Ave) : (s.updAve a f).aside = s.aside := (rfl)
@[simp] theorem State.updAve_served (a : Nat) (f : Ave → Ave) : (s.updAve a f).served = s.served := (rfl)
@[simp] theorem State.updAve_badLines (a : Nat) (f : Ave → Ave) : (s.updAve a f).badLines = s.badLines := (rfl)
@[simp] theorem State.updAve_clk (a : Nat) (f : Ave → Ave) : (s.updAve a f).clk = s.clk := (rfl)
@[simp] theorem State.updAve_plan (a : Nat) (f : Ave → Ave) : (s.updAve a f).plan = s.plan := (rfl)
@[simp] theorem State.updAve_tbs (a : Nat) (f : Ave → Ave) : (s.updAve a f).tbs = s.tbs := (rfl)
@[simp] theorem State.updAve_tdc (a : Nat) (f : Ave → Ave) : (s.updAve a f).tdc = s.tdc := (rfl)
@[simp] theorem State.updAve_cnv (a : Nat) (f : Ave → Ave) : (s.updAve a f).cnv = s.cnv := (rfl)
@[simp] theorem State.updAve_pg (a : Nat) (f : Ave → Ave) : (s.updAve a f).pg = s.pg := (rfl)
@[simp] theorem State.updAve_cal (a : Nat) (f : Ave → Ave) : (s.updAve a f).cal = s.cal := (rfl)
@[simp] theorem State.updAve_ddc (a : Nat) (f : Ave → Ave) : (s.updAve a f).ddc = s.ddc := (rfl)
@[simp] theorem State.updAve_xfm (a : Nat) (f : Ave → Ave) : (s.updAve a f).xfm = s.xfm := (rfl)
@[simp] theorem State.updAve_streams (a : Nat) (f : Ave → Ave) : (s.updAve a f).streams = s.streams := (rfl)
@[simp] theorem State.updAve_frames (a : Nat) (f : Ave → Ave) : (s.updAve a f).frames = s.frames := (rfl)
@[simp] theorem State.updAve_det (a : Nat) (f : Ave → Ave) : (s.updAve a f).det = s.det := (rfl)
@[simp] theorem State.updAve_den (a : Nat) (f : Ave → Ave) : (s.updAve a f).den = s.den := (rfl)
@[simp] theorem State.updAve_tq (a : Nat) (f : Ave → Ave) : (s.updAve a f).tq = s.tq := (rfl)
@[simp] theorem State.updAve_lt (a : Nat) (f : Ave → Ave) : (s.updAve a f).lt = s.lt := (rfl)
@[simp] theorem State.updAve_fm (a : Nat) (f : Ave → Ave) : (s.updAve a f).fm = s.fm := (rfl)
@[simp] theorem State.updAve_bus (a : Nat) (f : Ave → Ave) : (s.updAve a f).bus = s.bus := (rfl)
@[simp] theorem State.updAve_tmr (a : Nat) (f : Ave → Ave) : (s.updAve a f).tmr = s.tmr := (rfl)
@[simp] theorem State.updAve_decs (a : Nat) (f : Ave → Ave) : (s.updAve a f).decs = s.decs := (rfl)
@[simp] theorem State.updAve_au (a : Nat) (f : Ave → Ave) : (s.updAve a f).au = s.au := (rfl)
@[simp] theorem State.updAve_replay (a : Nat) (f : Ave → Ave) : (s.updAve a f).replay = s.replay := (rfl)
@[simp] theorem State.updAve_turf (a : Nat) (f : Ave → Ave) : (s.updAve a f).turf = s.turf := (rfl)
@[simp] theorem State.updAve_clusters (a : Nat) (f : Ave → Ave) : (s.updAve a f).clusters = s.clusters := (rfl)
@[simp] theorem State.updAve_net (a : Nat) (f : Ave → Ave) : (s.updAve a f).net = s.net := (rfl)
@[simp] theorem State.updAve_slots (a : Nat) (f : Ave → Ave) : (s.updAve a f).slots = s.slots := (rfl)
@[simp] theorem State.updAve_dis (a : Nat) (f : Ave → Ave) : (s.updAve a f).dis = s.dis := (rfl)
@[simp] theorem State.updAve_layers (a : Nat) (f : Ave → Ave) : (s.updAve a f).layers = s.layers := (rfl)
@[simp] theorem State.updAve_mem (a : Nat) (f : Ave → Ave) : (s.updAve a f).mem = s.mem := (rfl)
@[simp] theorem State.updAve_dma (a : Nat) (f : Ave → Ave) : (s.updAve a f).dma = s.dma := (rfl)
@[simp] theorem State.updAve_rst (a : Nat) (f : Ave → Ave) : (s.updAve a f).rst = s.rst := (rfl)
@[simp] theorem State.updAve_stk (a : Nat) (f : Ave → Ave) : (s.updAve a f).stk = s.stk := (rfl)
@[simp] theorem State.updAve_cmp (a : Nat) (f : Ave → Ave) : (s.updAve a f).cmp = s.cmp := (rfl)
@[simp] theorem State.updAve_pkg (a : Nat) (f : Ave → Ave) : (s.updAve a f).pkg = s.pkg := (rfl)
@[simp] theorem State.rd_updAve (a : Nat) (f : Ave → Ave) (adr : Nat) : (s.updAve a f).rd adr = s.rd adr := (rfl)
@[simp] theorem State.fld_updAve (a : Nat) (f : Ave → Ave) (adr : Nat) (fd : Fld) : (s.updAve a f).fld adr fd = s.fld adr fd := (rfl)
@[simp] theorem State.actv_updAve (a : Nat) (f : Ave → Ave) (adr : Nat) : (s.updAve a f).actv adr = s.actv adr := (rfl)

/-! ### setTcore -/
@[simp] theorem State.setTcore_pending (c : Nat) (x : Core) : (s.setTcore c x).pending = s.pending := (rfl)
@[simp] theorem State.setTcore_regs (c : Nat) (x : Core) : (s.setTcore c x).regs = s.regs := (rfl)
@[simp] theorem State.setTcore_act (c : Nat) (x : Core) : (s.setTcore c x).act = s.act := (rfl)
@[simp] theorem State.setTcore_snap (c : Nat) (x : Core) : (s.setTcore c x).snap = s.snap := (rfl)
@[simp] theorem State.setTcore_staged (c : Nat) (x : Core) : (s.setTcore c x).staged = s.staged := (rfl)
@[simp] theorem State.setTcore_readData (c : Nat) (x : Core) : (s.setTcore c x).readData = s.readData := (rfl)
@[simp] theorem State.setTcore_outs (c : Nat) (x : Core) : (s.setTcore c x).outs = s.outs := (rfl)
@[simp] theorem State.setTcore_time (c : Nat) (x : Core) : (s.setTcore c x).time = s.time := (rfl)
@[simp] theorem State.setTcore_frac (c : Nat) (x : Core) : (s.setTcore c x).frac = s.frac := (rfl)
@[simp] theorem State.setTcore_freeCtr (c : Nat) (x : Core) : (s.setTcore c x).freeCtr = s.freeCtr := (rfl)
@[simp] theorem State.setTcore_store (c : Nat) (x : Core) : (s.setTcore c x).store = s.store := (rfl)
@[simp] theorem State.setTcore_hostMem (c : Nat) (x : Core) : (s.setTcore c x).hostMem = s.hostMem := (rfl)
@[simp] theorem State.setTcore_flash (c : Nat) (x : Core) : (s.setTcore c x).flash = s.flash := (rfl)
@[simp] theorem State.setTcore_evt (c : Nat) (x : Core) : (s.setTcore c x).evt = s.evt := (rfl)
@[simp] theorem State.setTcore_hif (c : Nat) (x : Core) : (s.setTcore c x).hif = s.hif := (rfl)
@[simp] theorem State.setTcore_ctxs (c : Nat) (x : Core) : (s.setTcore c x).ctxs = s.ctxs := (rfl)
@[simp] theorem State.setTcore_billets (c : Nat) (x : Core) : (s.setTcore c x).billets = s.billets := (rfl)
@[simp] theorem State.setTcore_ports (c : Nat) (x : Core) : (s.setTcore c x).ports = s.ports := (rfl)
@[simp] theorem State.setTcore_aside (c : Nat) (x : Core) : (s.setTcore c x).aside = s.aside := (rfl)
@[simp] theorem State.setTcore_served (c : Nat) (x : Core) : (s.setTcore c x).served = s.served := (rfl)
@[simp] theorem State.setTcore_badLines (c : Nat) (x : Core) : (s.setTcore c x).badLines = s.badLines := (rfl)
@[simp] theorem State.setTcore_clk (c : Nat) (x : Core) : (s.setTcore c x).clk = s.clk := (rfl)
@[simp] theorem State.setTcore_plan (c : Nat) (x : Core) : (s.setTcore c x).plan = s.plan := (rfl)
@[simp] theorem State.setTcore_tbs (c : Nat) (x : Core) : (s.setTcore c x).tbs = s.tbs := (rfl)
@[simp] theorem State.setTcore_tdc (c : Nat) (x : Core) : (s.setTcore c x).tdc = s.tdc := (rfl)
@[simp] theorem State.setTcore_cnv (c : Nat) (x : Core) : (s.setTcore c x).cnv = s.cnv := (rfl)
@[simp] theorem State.setTcore_pg (c : Nat) (x : Core) : (s.setTcore c x).pg = s.pg := (rfl)
@[simp] theorem State.setTcore_cal (c : Nat) (x : Core) : (s.setTcore c x).cal = s.cal := (rfl)
@[simp] theorem State.setTcore_ddc (c : Nat) (x : Core) : (s.setTcore c x).ddc = s.ddc := (rfl)
@[simp] theorem State.setTcore_xfm (c : Nat) (x : Core) : (s.setTcore c x).xfm = s.xfm := (rfl)
@[simp] theorem State.setTcore_streams (c : Nat) (x : Core) : (s.setTcore c x).streams = s.streams := (rfl)
@[simp] theorem State.setTcore_frames (c : Nat) (x : Core) : (s.setTcore c x).frames = s.frames := (rfl)
@[simp] theorem State.setTcore_det (c : Nat) (x : Core) : (s.setTcore c x).det = s.det := (rfl)
@[simp] theorem State.setTcore_den (c : Nat) (x : Core) : (s.setTcore c x).den = s.den := (rfl)
@[simp] theorem State.setTcore_tq (c : Nat) (x : Core) : (s.setTcore c x).tq = s.tq := (rfl)
@[simp] theorem State.setTcore_lt (c : Nat) (x : Core) : (s.setTcore c x).lt = s.lt := (rfl)
@[simp] theorem State.setTcore_fm (c : Nat) (x : Core) : (s.setTcore c x).fm = s.fm := (rfl)
@[simp] theorem State.setTcore_bus (c : Nat) (x : Core) : (s.setTcore c x).bus = s.bus := (rfl)
@[simp] theorem State.setTcore_tmr (c : Nat) (x : Core) : (s.setTcore c x).tmr = s.tmr := (rfl)
@[simp] theorem State.setTcore_decs (c : Nat) (x : Core) : (s.setTcore c x).decs = s.decs := (rfl)
@[simp] theorem State.setTcore_au (c : Nat) (x : Core) : (s.setTcore c x).au = s.au := (rfl)
@[simp] theorem State.setTcore_replay (c : Nat) (x : Core) : (s.setTcore c x).replay = s.replay := (rfl)
@[simp] theorem State.setTcore_clusters (c : Nat) (x : Core) : (s.setTcore c x).clusters = s.clusters := (rfl)
@[simp] theorem State.setTcore_net (c : Nat) (x : Core) : (s.setTcore c x).net = s.net := (rfl)
@[simp] theorem State.setTcore_ave (c : Nat) (x : Core) : (s.setTcore c x).ave = s.ave := (rfl)
@[simp] theorem State.setTcore_slots (c : Nat) (x : Core) : (s.setTcore c x).slots = s.slots := (rfl)
@[simp] theorem State.setTcore_dis (c : Nat) (x : Core) : (s.setTcore c x).dis = s.dis := (rfl)
@[simp] theorem State.setTcore_layers (c : Nat) (x : Core) : (s.setTcore c x).layers = s.layers := (rfl)
@[simp] theorem State.setTcore_mem (c : Nat) (x : Core) : (s.setTcore c x).mem = s.mem := (rfl)
@[simp] theorem State.setTcore_dma (c : Nat) (x : Core) : (s.setTcore c x).dma = s.dma := (rfl)
@[simp] theorem State.setTcore_rst (c : Nat) (x : Core) : (s.setTcore c x).rst = s.rst := (rfl)
@[simp] theorem State.setTcore_stk (c : Nat) (x : Core) : (s.setTcore c x).stk = s.stk := (rfl)
@[simp] theorem State.setTcore_cmp (c : Nat) (x : Core) : (s.setTcore c x).cmp = s.cmp := (rfl)
@[simp] theorem State.setTcore_pkg (c : Nat) (x : Core) : (s.setTcore c x).pkg = s.pkg := (rfl)
@[simp] theorem State.rd_setTcore (c : Nat) (x : Core) (adr : Nat) : (s.setTcore c x).rd adr = s.rd adr := (rfl)
@[simp] theorem State.fld_setTcore (c : Nat) (x : Core) (adr : Nat) (fd : Fld) : (s.setTcore c x).fld adr fd = s.fld adr fd := (rfl)
@[simp] theorem State.actv_setTcore (c : Nat) (x : Core) (adr : Nat) : (s.setTcore c x).actv adr = s.actv adr := (rfl)

/-! ### updPkg -/
@[simp] theorem State.updPkg_pending (f : Pkg → Pkg) : (s.updPkg f).pending = s.pending := (rfl)
@[simp] theorem State.updPkg_regs (f : Pkg → Pkg) : (s.updPkg f).regs = s.regs := (rfl)
@[simp] theorem State.updPkg_act (f : Pkg → Pkg) : (s.updPkg f).act = s.act := (rfl)
@[simp] theorem State.updPkg_snap (f : Pkg → Pkg) : (s.updPkg f).snap = s.snap := (rfl)
@[simp] theorem State.updPkg_staged (f : Pkg → Pkg) : (s.updPkg f).staged = s.staged := (rfl)
@[simp] theorem State.updPkg_readData (f : Pkg → Pkg) : (s.updPkg f).readData = s.readData := (rfl)
@[simp] theorem State.updPkg_outs (f : Pkg → Pkg) : (s.updPkg f).outs = s.outs := (rfl)
@[simp] theorem State.updPkg_time (f : Pkg → Pkg) : (s.updPkg f).time = s.time := (rfl)
@[simp] theorem State.updPkg_frac (f : Pkg → Pkg) : (s.updPkg f).frac = s.frac := (rfl)
@[simp] theorem State.updPkg_freeCtr (f : Pkg → Pkg) : (s.updPkg f).freeCtr = s.freeCtr := (rfl)
@[simp] theorem State.updPkg_store (f : Pkg → Pkg) : (s.updPkg f).store = s.store := (rfl)
@[simp] theorem State.updPkg_hostMem (f : Pkg → Pkg) : (s.updPkg f).hostMem = s.hostMem := (rfl)
@[simp] theorem State.updPkg_flash (f : Pkg → Pkg) : (s.updPkg f).flash = s.flash := (rfl)
@[simp] theorem State.updPkg_evt (f : Pkg → Pkg) : (s.updPkg f).evt = s.evt := (rfl)
@[simp] theorem State.updPkg_hif (f : Pkg → Pkg) : (s.updPkg f).hif = s.hif := (rfl)
@[simp] theorem State.updPkg_ctxs (f : Pkg → Pkg) : (s.updPkg f).ctxs = s.ctxs := (rfl)
@[simp] theorem State.updPkg_billets (f : Pkg → Pkg) : (s.updPkg f).billets = s.billets := (rfl)
@[simp] theorem State.updPkg_ports (f : Pkg → Pkg) : (s.updPkg f).ports = s.ports := (rfl)
@[simp] theorem State.updPkg_aside (f : Pkg → Pkg) : (s.updPkg f).aside = s.aside := (rfl)
@[simp] theorem State.updPkg_served (f : Pkg → Pkg) : (s.updPkg f).served = s.served := (rfl)
@[simp] theorem State.updPkg_badLines (f : Pkg → Pkg) : (s.updPkg f).badLines = s.badLines := (rfl)
@[simp] theorem State.updPkg_clk (f : Pkg → Pkg) : (s.updPkg f).clk = s.clk := (rfl)
@[simp] theorem State.updPkg_plan (f : Pkg → Pkg) : (s.updPkg f).plan = s.plan := (rfl)
@[simp] theorem State.updPkg_tbs (f : Pkg → Pkg) : (s.updPkg f).tbs = s.tbs := (rfl)
@[simp] theorem State.updPkg_tdc (f : Pkg → Pkg) : (s.updPkg f).tdc = s.tdc := (rfl)
@[simp] theorem State.updPkg_cnv (f : Pkg → Pkg) : (s.updPkg f).cnv = s.cnv := (rfl)
@[simp] theorem State.updPkg_pg (f : Pkg → Pkg) : (s.updPkg f).pg = s.pg := (rfl)
@[simp] theorem State.updPkg_cal (f : Pkg → Pkg) : (s.updPkg f).cal = s.cal := (rfl)
@[simp] theorem State.updPkg_ddc (f : Pkg → Pkg) : (s.updPkg f).ddc = s.ddc := (rfl)
@[simp] theorem State.updPkg_xfm (f : Pkg → Pkg) : (s.updPkg f).xfm = s.xfm := (rfl)
@[simp] theorem State.updPkg_streams (f : Pkg → Pkg) : (s.updPkg f).streams = s.streams := (rfl)
@[simp] theorem State.updPkg_frames (f : Pkg → Pkg) : (s.updPkg f).frames = s.frames := (rfl)
@[simp] theorem State.updPkg_det (f : Pkg → Pkg) : (s.updPkg f).det = s.det := (rfl)
@[simp] theorem State.updPkg_den (f : Pkg → Pkg) : (s.updPkg f).den = s.den := (rfl)
@[simp] theorem State.updPkg_tq (f : Pkg → Pkg) : (s.updPkg f).tq = s.tq := (rfl)
@[simp] theorem State.updPkg_lt (f : Pkg → Pkg) : (s.updPkg f).lt = s.lt := (rfl)
@[simp] theorem State.updPkg_fm (f : Pkg → Pkg) : (s.updPkg f).fm = s.fm := (rfl)
@[simp] theorem State.updPkg_bus (f : Pkg → Pkg) : (s.updPkg f).bus = s.bus := (rfl)
@[simp] theorem State.updPkg_tmr (f : Pkg → Pkg) : (s.updPkg f).tmr = s.tmr := (rfl)
@[simp] theorem State.updPkg_decs (f : Pkg → Pkg) : (s.updPkg f).decs = s.decs := (rfl)
@[simp] theorem State.updPkg_au (f : Pkg → Pkg) : (s.updPkg f).au = s.au := (rfl)
@[simp] theorem State.updPkg_replay (f : Pkg → Pkg) : (s.updPkg f).replay = s.replay := (rfl)
@[simp] theorem State.updPkg_turf (f : Pkg → Pkg) : (s.updPkg f).turf = s.turf := (rfl)
@[simp] theorem State.updPkg_clusters (f : Pkg → Pkg) : (s.updPkg f).clusters = s.clusters := (rfl)
@[simp] theorem State.updPkg_net (f : Pkg → Pkg) : (s.updPkg f).net = s.net := (rfl)
@[simp] theorem State.updPkg_ave (f : Pkg → Pkg) : (s.updPkg f).ave = s.ave := (rfl)
@[simp] theorem State.updPkg_slots (f : Pkg → Pkg) : (s.updPkg f).slots = s.slots := (rfl)
@[simp] theorem State.updPkg_dis (f : Pkg → Pkg) : (s.updPkg f).dis = s.dis := (rfl)
@[simp] theorem State.updPkg_layers (f : Pkg → Pkg) : (s.updPkg f).layers = s.layers := (rfl)
@[simp] theorem State.updPkg_mem (f : Pkg → Pkg) : (s.updPkg f).mem = s.mem := (rfl)
@[simp] theorem State.updPkg_dma (f : Pkg → Pkg) : (s.updPkg f).dma = s.dma := (rfl)
@[simp] theorem State.updPkg_rst (f : Pkg → Pkg) : (s.updPkg f).rst = s.rst := (rfl)
@[simp] theorem State.updPkg_stk (f : Pkg → Pkg) : (s.updPkg f).stk = s.stk := (rfl)
@[simp] theorem State.updPkg_cmp (f : Pkg → Pkg) : (s.updPkg f).cmp = s.cmp := (rfl)
@[simp] theorem State.rd_updPkg (f : Pkg → Pkg) (adr : Nat) : (s.updPkg f).rd adr = s.rd adr := (rfl)
@[simp] theorem State.fld_updPkg (f : Pkg → Pkg) (adr : Nat) (fd : Fld) : (s.updPkg f).fld adr fd = s.fld adr fd := (rfl)
@[simp] theorem State.actv_updPkg (f : Pkg → Pkg) (adr : Nat) : (s.updPkg f).actv adr = s.actv adr := (rfl)

/-! ### updStk -/
@[simp] theorem State.updStk_pending (f : Stk → Stk) : (s.updStk f).pending = s.pending := (rfl)
@[simp] theorem State.updStk_regs (f : Stk → Stk) : (s.updStk f).regs = s.regs := (rfl)
@[simp] theorem State.updStk_act (f : Stk → Stk) : (s.updStk f).act = s.act := (rfl)
@[simp] theorem State.updStk_snap (f : Stk → Stk) : (s.updStk f).snap = s.snap := (rfl)
@[simp] theorem State.updStk_staged (f : Stk → Stk) : (s.updStk f).staged = s.staged := (rfl)
@[simp] theorem State.updStk_readData (f : Stk → Stk) : (s.updStk f).readData = s.readData := (rfl)
@[simp] theorem State.updStk_outs (f : Stk → Stk) : (s.updStk f).outs = s.outs := (rfl)
@[simp] theorem State.updStk_time (f : Stk → Stk) : (s.updStk f).time = s.time := (rfl)
@[simp] theorem State.updStk_frac (f : Stk → Stk) : (s.updStk f).frac = s.frac := (rfl)
@[simp] theorem State.updStk_freeCtr (f : Stk → Stk) : (s.updStk f).freeCtr = s.freeCtr := (rfl)
@[simp] theorem State.updStk_store (f : Stk → Stk) : (s.updStk f).store = s.store := (rfl)
@[simp] theorem State.updStk_hostMem (f : Stk → Stk) : (s.updStk f).hostMem = s.hostMem := (rfl)
@[simp] theorem State.updStk_flash (f : Stk → Stk) : (s.updStk f).flash = s.flash := (rfl)
@[simp] theorem State.updStk_evt (f : Stk → Stk) : (s.updStk f).evt = s.evt := (rfl)
@[simp] theorem State.updStk_hif (f : Stk → Stk) : (s.updStk f).hif = s.hif := (rfl)
@[simp] theorem State.updStk_ctxs (f : Stk → Stk) : (s.updStk f).ctxs = s.ctxs := (rfl)
@[simp] theorem State.updStk_billets (f : Stk → Stk) : (s.updStk f).billets = s.billets := (rfl)
@[simp] theorem State.updStk_ports (f : Stk → Stk) : (s.updStk f).ports = s.ports := (rfl)
@[simp] theorem State.updStk_aside (f : Stk → Stk) : (s.updStk f).aside = s.aside := (rfl)
@[simp] theorem State.updStk_served (f : Stk → Stk) : (s.updStk f).served = s.served := (rfl)
@[simp] theorem State.updStk_badLines (f : Stk → Stk) : (s.updStk f).badLines = s.badLines := (rfl)
@[simp] theorem State.updStk_clk (f : Stk → Stk) : (s.updStk f).clk = s.clk := (rfl)
@[simp] theorem State.updStk_plan (f : Stk → Stk) : (s.updStk f).plan = s.plan := (rfl)
@[simp] theorem State.updStk_tbs (f : Stk → Stk) : (s.updStk f).tbs = s.tbs := (rfl)
@[simp] theorem State.updStk_tdc (f : Stk → Stk) : (s.updStk f).tdc = s.tdc := (rfl)
@[simp] theorem State.updStk_cnv (f : Stk → Stk) : (s.updStk f).cnv = s.cnv := (rfl)
@[simp] theorem State.updStk_pg (f : Stk → Stk) : (s.updStk f).pg = s.pg := (rfl)
@[simp] theorem State.updStk_cal (f : Stk → Stk) : (s.updStk f).cal = s.cal := (rfl)
@[simp] theorem State.updStk_ddc (f : Stk → Stk) : (s.updStk f).ddc = s.ddc := (rfl)
@[simp] theorem State.updStk_xfm (f : Stk → Stk) : (s.updStk f).xfm = s.xfm := (rfl)
@[simp] theorem State.updStk_streams (f : Stk → Stk) : (s.updStk f).streams = s.streams := (rfl)
@[simp] theorem State.updStk_frames (f : Stk → Stk) : (s.updStk f).frames = s.frames := (rfl)
@[simp] theorem State.updStk_det (f : Stk → Stk) : (s.updStk f).det = s.det := (rfl)
@[simp] theorem State.updStk_den (f : Stk → Stk) : (s.updStk f).den = s.den := (rfl)
@[simp] theorem State.updStk_tq (f : Stk → Stk) : (s.updStk f).tq = s.tq := (rfl)
@[simp] theorem State.updStk_lt (f : Stk → Stk) : (s.updStk f).lt = s.lt := (rfl)
@[simp] theorem State.updStk_fm (f : Stk → Stk) : (s.updStk f).fm = s.fm := (rfl)
@[simp] theorem State.updStk_bus (f : Stk → Stk) : (s.updStk f).bus = s.bus := (rfl)
@[simp] theorem State.updStk_tmr (f : Stk → Stk) : (s.updStk f).tmr = s.tmr := (rfl)
@[simp] theorem State.updStk_decs (f : Stk → Stk) : (s.updStk f).decs = s.decs := (rfl)
@[simp] theorem State.updStk_au (f : Stk → Stk) : (s.updStk f).au = s.au := (rfl)
@[simp] theorem State.updStk_replay (f : Stk → Stk) : (s.updStk f).replay = s.replay := (rfl)
@[simp] theorem State.updStk_turf (f : Stk → Stk) : (s.updStk f).turf = s.turf := (rfl)
@[simp] theorem State.updStk_clusters (f : Stk → Stk) : (s.updStk f).clusters = s.clusters := (rfl)
@[simp] theorem State.updStk_net (f : Stk → Stk) : (s.updStk f).net = s.net := (rfl)
@[simp] theorem State.updStk_ave (f : Stk → Stk) : (s.updStk f).ave = s.ave := (rfl)
@[simp] theorem State.updStk_slots (f : Stk → Stk) : (s.updStk f).slots = s.slots := (rfl)
@[simp] theorem State.updStk_dis (f : Stk → Stk) : (s.updStk f).dis = s.dis := (rfl)
@[simp] theorem State.updStk_layers (f : Stk → Stk) : (s.updStk f).layers = s.layers := (rfl)
@[simp] theorem State.updStk_mem (f : Stk → Stk) : (s.updStk f).mem = s.mem := (rfl)
@[simp] theorem State.updStk_dma (f : Stk → Stk) : (s.updStk f).dma = s.dma := (rfl)
@[simp] theorem State.updStk_rst (f : Stk → Stk) : (s.updStk f).rst = s.rst := (rfl)
@[simp] theorem State.updStk_cmp (f : Stk → Stk) : (s.updStk f).cmp = s.cmp := (rfl)
@[simp] theorem State.updStk_pkg (f : Stk → Stk) : (s.updStk f).pkg = s.pkg := (rfl)
@[simp] theorem State.rd_updStk (f : Stk → Stk) (adr : Nat) : (s.updStk f).rd adr = s.rd adr := (rfl)
@[simp] theorem State.fld_updStk (f : Stk → Stk) (adr : Nat) (fd : Fld) : (s.updStk f).fld adr fd = s.fld adr fd := (rfl)
@[simp] theorem State.actv_updStk (f : Stk → Stk) (adr : Nat) : (s.updStk f).actv adr = s.actv adr := (rfl)

/-! ### setCtx -/
@[simp] theorem State.setCtx_pending (x : Nat) (c : Ctx) : (s.setCtx x c).pending = s.pending := (rfl)
@[simp] theorem State.setCtx_regs (x : Nat) (c : Ctx) : (s.setCtx x c).regs = s.regs := (rfl)
@[simp] theorem State.setCtx_act (x : Nat) (c : Ctx) : (s.setCtx x c).act = s.act := (rfl)
@[simp] theorem State.setCtx_snap (x : Nat) (c : Ctx) : (s.setCtx x c).snap = s.snap := (rfl)
@[simp] theorem State.setCtx_staged (x : Nat) (c : Ctx) : (s.setCtx x c).staged = s.staged := (rfl)
@[simp] theorem State.setCtx_readData (x : Nat) (c : Ctx) : (s.setCtx x c).readData = s.readData := (rfl)
@[simp] theorem State.setCtx_outs (x : Nat) (c : Ctx) : (s.setCtx x c).outs = s.outs := (rfl)
@[simp] theorem State.setCtx_time (x : Nat) (c : Ctx) : (s.setCtx x c).time = s.time := (rfl)
@[simp] theorem State.setCtx_frac (x : Nat) (c : Ctx) : (s.setCtx x c).frac = s.frac := (rfl)
@[simp] theorem State.setCtx_freeCtr (x : Nat) (c : Ctx) : (s.setCtx x c).freeCtr = s.freeCtr := (rfl)
@[simp] theorem State.setCtx_store (x : Nat) (c : Ctx) : (s.setCtx x c).store = s.store := (rfl)
@[simp] theorem State.setCtx_hostMem (x : Nat) (c : Ctx) : (s.setCtx x c).hostMem = s.hostMem := (rfl)
@[simp] theorem State.setCtx_flash (x : Nat) (c : Ctx) : (s.setCtx x c).flash = s.flash := (rfl)
@[simp] theorem State.setCtx_evt (x : Nat) (c : Ctx) : (s.setCtx x c).evt = s.evt := (rfl)
@[simp] theorem State.setCtx_hif (x : Nat) (c : Ctx) : (s.setCtx x c).hif = s.hif := (rfl)
@[simp] theorem State.setCtx_billets (x : Nat) (c : Ctx) : (s.setCtx x c).billets = s.billets := (rfl)
@[simp] theorem State.setCtx_ports (x : Nat) (c : Ctx) : (s.setCtx x c).ports = s.ports := (rfl)
@[simp] theorem State.setCtx_aside (x : Nat) (c : Ctx) : (s.setCtx x c).aside = s.aside := (rfl)
@[simp] theorem State.setCtx_served (x : Nat) (c : Ctx) : (s.setCtx x c).served = s.served := (rfl)
@[simp] theorem State.setCtx_badLines (x : Nat) (c : Ctx) : (s.setCtx x c).badLines = s.badLines := (rfl)
@[simp] theorem State.setCtx_clk (x : Nat) (c : Ctx) : (s.setCtx x c).clk = s.clk := (rfl)
@[simp] theorem State.setCtx_plan (x : Nat) (c : Ctx) : (s.setCtx x c).plan = s.plan := (rfl)
@[simp] theorem State.setCtx_tbs (x : Nat) (c : Ctx) : (s.setCtx x c).tbs = s.tbs := (rfl)
@[simp] theorem State.setCtx_tdc (x : Nat) (c : Ctx) : (s.setCtx x c).tdc = s.tdc := (rfl)
@[simp] theorem State.setCtx_cnv (x : Nat) (c : Ctx) : (s.setCtx x c).cnv = s.cnv := (rfl)
@[simp] theorem State.setCtx_pg (x : Nat) (c : Ctx) : (s.setCtx x c).pg = s.pg := (rfl)
@[simp] theorem State.setCtx_cal (x : Nat) (c : Ctx) : (s.setCtx x c).cal = s.cal := (rfl)
@[simp] theorem State.setCtx_ddc (x : Nat) (c : Ctx) : (s.setCtx x c).ddc = s.ddc := (rfl)
@[simp] theorem State.setCtx_xfm (x : Nat) (c : Ctx) : (s.setCtx x c).xfm = s.xfm := (rfl)
@[simp] theorem State.setCtx_streams (x : Nat) (c : Ctx) : (s.setCtx x c).streams = s.streams := (rfl)
@[simp] theorem State.setCtx_frames (x : Nat) (c : Ctx) : (s.setCtx x c).frames = s.frames := (rfl)
@[simp] theorem State.setCtx_det (x : Nat) (c : Ctx) : (s.setCtx x c).det = s.det := (rfl)
@[simp] theorem State.setCtx_den (x : Nat) (c : Ctx) : (s.setCtx x c).den = s.den := (rfl)
@[simp] theorem State.setCtx_tq (x : Nat) (c : Ctx) : (s.setCtx x c).tq = s.tq := (rfl)
@[simp] theorem State.setCtx_lt (x : Nat) (c : Ctx) : (s.setCtx x c).lt = s.lt := (rfl)
@[simp] theorem State.setCtx_fm (x : Nat) (c : Ctx) : (s.setCtx x c).fm = s.fm := (rfl)
@[simp] theorem State.setCtx_bus (x : Nat) (c : Ctx) : (s.setCtx x c).bus = s.bus := (rfl)
@[simp] theorem State.setCtx_tmr (x : Nat) (c : Ctx) : (s.setCtx x c).tmr = s.tmr := (rfl)
@[simp] theorem State.setCtx_decs (x : Nat) (c : Ctx) : (s.setCtx x c).decs = s.decs := (rfl)
@[simp] theorem State.setCtx_au (x : Nat) (c : Ctx) : (s.setCtx x c).au = s.au := (rfl)
@[simp] theorem State.setCtx_replay (x : Nat) (c : Ctx) : (s.setCtx x c).replay = s.replay := (rfl)
@[simp] theorem State.setCtx_turf (x : Nat) (c : Ctx) : (s.setCtx x c).turf = s.turf := (rfl)
@[simp] theorem State.setCtx_clusters (x : Nat) (c : Ctx) : (s.setCtx x c).clusters = s.clusters := (rfl)
@[simp] theorem State.setCtx_net (x : Nat) (c : Ctx) : (s.setCtx x c).net = s.net := (rfl)
@[simp] theorem State.setCtx_ave (x : Nat) (c : Ctx) : (s.setCtx x c).ave = s.ave := (rfl)
@[simp] theorem State.setCtx_slots (x : Nat) (c : Ctx) : (s.setCtx x c).slots = s.slots := (rfl)
@[simp] theorem State.setCtx_dis (x : Nat) (c : Ctx) : (s.setCtx x c).dis = s.dis := (rfl)
@[simp] theorem State.setCtx_layers (x : Nat) (c : Ctx) : (s.setCtx x c).layers = s.layers := (rfl)
@[simp] theorem State.setCtx_mem (x : Nat) (c : Ctx) : (s.setCtx x c).mem = s.mem := (rfl)
@[simp] theorem State.setCtx_dma (x : Nat) (c : Ctx) : (s.setCtx x c).dma = s.dma := (rfl)
@[simp] theorem State.setCtx_rst (x : Nat) (c : Ctx) : (s.setCtx x c).rst = s.rst := (rfl)
@[simp] theorem State.setCtx_stk (x : Nat) (c : Ctx) : (s.setCtx x c).stk = s.stk := (rfl)
@[simp] theorem State.setCtx_cmp (x : Nat) (c : Ctx) : (s.setCtx x c).cmp = s.cmp := (rfl)
@[simp] theorem State.setCtx_pkg (x : Nat) (c : Ctx) : (s.setCtx x c).pkg = s.pkg := (rfl)
@[simp] theorem State.rd_setCtx (x : Nat) (c : Ctx) (adr : Nat) : (s.setCtx x c).rd adr = s.rd adr := (rfl)
@[simp] theorem State.fld_setCtx (x : Nat) (c : Ctx) (adr : Nat) (fd : Fld) : (s.setCtx x c).fld adr fd = s.fld adr fd := (rfl)
@[simp] theorem State.actv_setCtx (x : Nat) (c : Ctx) (adr : Nat) : (s.setCtx x c).actv adr = s.actv adr := (rfl)

/-! ### setBillet -/
@[simp] theorem State.setBillet_pending (b : Nat) (x : Billet) : (s.setBillet b x).pending = s.pending := (rfl)
@[simp] theorem State.setBillet_regs (b : Nat) (x : Billet) : (s.setBillet b x).regs = s.regs := (rfl)
@[simp] theorem State.setBillet_act (b : Nat) (x : Billet) : (s.setBillet b x).act = s.act := (rfl)
@[simp] theorem State.setBillet_snap (b : Nat) (x : Billet) : (s.setBillet b x).snap = s.snap := (rfl)
@[simp] theorem State.setBillet_staged (b : Nat) (x : Billet) : (s.setBillet b x).staged = s.staged := (rfl)
@[simp] theorem State.setBillet_readData (b : Nat) (x : Billet) : (s.setBillet b x).readData = s.readData := (rfl)
@[simp] theorem State.setBillet_outs (b : Nat) (x : Billet) : (s.setBillet b x).outs = s.outs := (rfl)
@[simp] theorem State.setBillet_time (b : Nat) (x : Billet) : (s.setBillet b x).time = s.time := (rfl)
@[simp] theorem State.setBillet_frac (b : Nat) (x : Billet) : (s.setBillet b x).frac = s.frac := (rfl)
@[simp] theorem State.setBillet_freeCtr (b : Nat) (x : Billet) : (s.setBillet b x).freeCtr = s.freeCtr := (rfl)
@[simp] theorem State.setBillet_store (b : Nat) (x : Billet) : (s.setBillet b x).store = s.store := (rfl)
@[simp] theorem State.setBillet_hostMem (b : Nat) (x : Billet) : (s.setBillet b x).hostMem = s.hostMem := (rfl)
@[simp] theorem State.setBillet_flash (b : Nat) (x : Billet) : (s.setBillet b x).flash = s.flash := (rfl)
@[simp] theorem State.setBillet_evt (b : Nat) (x : Billet) : (s.setBillet b x).evt = s.evt := (rfl)
@[simp] theorem State.setBillet_hif (b : Nat) (x : Billet) : (s.setBillet b x).hif = s.hif := (rfl)
@[simp] theorem State.setBillet_ctxs (b : Nat) (x : Billet) : (s.setBillet b x).ctxs = s.ctxs := (rfl)
@[simp] theorem State.setBillet_ports (b : Nat) (x : Billet) : (s.setBillet b x).ports = s.ports := (rfl)
@[simp] theorem State.setBillet_aside (b : Nat) (x : Billet) : (s.setBillet b x).aside = s.aside := (rfl)
@[simp] theorem State.setBillet_served (b : Nat) (x : Billet) : (s.setBillet b x).served = s.served := (rfl)
@[simp] theorem State.setBillet_badLines (b : Nat) (x : Billet) : (s.setBillet b x).badLines = s.badLines := (rfl)
@[simp] theorem State.setBillet_clk (b : Nat) (x : Billet) : (s.setBillet b x).clk = s.clk := (rfl)
@[simp] theorem State.setBillet_plan (b : Nat) (x : Billet) : (s.setBillet b x).plan = s.plan := (rfl)
@[simp] theorem State.setBillet_tbs (b : Nat) (x : Billet) : (s.setBillet b x).tbs = s.tbs := (rfl)
@[simp] theorem State.setBillet_tdc (b : Nat) (x : Billet) : (s.setBillet b x).tdc = s.tdc := (rfl)
@[simp] theorem State.setBillet_cnv (b : Nat) (x : Billet) : (s.setBillet b x).cnv = s.cnv := (rfl)
@[simp] theorem State.setBillet_pg (b : Nat) (x : Billet) : (s.setBillet b x).pg = s.pg := (rfl)
@[simp] theorem State.setBillet_cal (b : Nat) (x : Billet) : (s.setBillet b x).cal = s.cal := (rfl)
@[simp] theorem State.setBillet_ddc (b : Nat) (x : Billet) : (s.setBillet b x).ddc = s.ddc := (rfl)
@[simp] theorem State.setBillet_xfm (b : Nat) (x : Billet) : (s.setBillet b x).xfm = s.xfm := (rfl)
@[simp] theorem State.setBillet_streams (b : Nat) (x : Billet) : (s.setBillet b x).streams = s.streams := (rfl)
@[simp] theorem State.setBillet_frames (b : Nat) (x : Billet) : (s.setBillet b x).frames = s.frames := (rfl)
@[simp] theorem State.setBillet_det (b : Nat) (x : Billet) : (s.setBillet b x).det = s.det := (rfl)
@[simp] theorem State.setBillet_den (b : Nat) (x : Billet) : (s.setBillet b x).den = s.den := (rfl)
@[simp] theorem State.setBillet_tq (b : Nat) (x : Billet) : (s.setBillet b x).tq = s.tq := (rfl)
@[simp] theorem State.setBillet_lt (b : Nat) (x : Billet) : (s.setBillet b x).lt = s.lt := (rfl)
@[simp] theorem State.setBillet_fm (b : Nat) (x : Billet) : (s.setBillet b x).fm = s.fm := (rfl)
@[simp] theorem State.setBillet_bus (b : Nat) (x : Billet) : (s.setBillet b x).bus = s.bus := (rfl)
@[simp] theorem State.setBillet_tmr (b : Nat) (x : Billet) : (s.setBillet b x).tmr = s.tmr := (rfl)
@[simp] theorem State.setBillet_decs (b : Nat) (x : Billet) : (s.setBillet b x).decs = s.decs := (rfl)
@[simp] theorem State.setBillet_au (b : Nat) (x : Billet) : (s.setBillet b x).au = s.au := (rfl)
@[simp] theorem State.setBillet_replay (b : Nat) (x : Billet) : (s.setBillet b x).replay = s.replay := (rfl)
@[simp] theorem State.setBillet_turf (b : Nat) (x : Billet) : (s.setBillet b x).turf = s.turf := (rfl)
@[simp] theorem State.setBillet_clusters (b : Nat) (x : Billet) : (s.setBillet b x).clusters = s.clusters := (rfl)
@[simp] theorem State.setBillet_net (b : Nat) (x : Billet) : (s.setBillet b x).net = s.net := (rfl)
@[simp] theorem State.setBillet_ave (b : Nat) (x : Billet) : (s.setBillet b x).ave = s.ave := (rfl)
@[simp] theorem State.setBillet_slots (b : Nat) (x : Billet) : (s.setBillet b x).slots = s.slots := (rfl)
@[simp] theorem State.setBillet_dis (b : Nat) (x : Billet) : (s.setBillet b x).dis = s.dis := (rfl)
@[simp] theorem State.setBillet_layers (b : Nat) (x : Billet) : (s.setBillet b x).layers = s.layers := (rfl)
@[simp] theorem State.setBillet_mem (b : Nat) (x : Billet) : (s.setBillet b x).mem = s.mem := (rfl)
@[simp] theorem State.setBillet_dma (b : Nat) (x : Billet) : (s.setBillet b x).dma = s.dma := (rfl)
@[simp] theorem State.setBillet_rst (b : Nat) (x : Billet) : (s.setBillet b x).rst = s.rst := (rfl)
@[simp] theorem State.setBillet_stk (b : Nat) (x : Billet) : (s.setBillet b x).stk = s.stk := (rfl)
@[simp] theorem State.setBillet_cmp (b : Nat) (x : Billet) : (s.setBillet b x).cmp = s.cmp := (rfl)
@[simp] theorem State.setBillet_pkg (b : Nat) (x : Billet) : (s.setBillet b x).pkg = s.pkg := (rfl)
@[simp] theorem State.rd_setBillet (b : Nat) (x : Billet) (adr : Nat) : (s.setBillet b x).rd adr = s.rd adr := (rfl)
@[simp] theorem State.fld_setBillet (b : Nat) (x : Billet) (adr : Nat) (fd : Fld) : (s.setBillet b x).fld adr fd = s.fld adr fd := (rfl)
@[simp] theorem State.actv_setBillet (b : Nat) (x : Billet) (adr : Nat) : (s.setBillet b x).actv adr = s.actv adr := (rfl)

/-! ### updTdc -/
@[simp] theorem State.updTdc_pending (c : Nat) (f : TdcCh → TdcCh) : (s.updTdc c f).pending = s.pending := (rfl)
@[simp] theorem State.updTdc_regs (c : Nat) (f : TdcCh → TdcCh) : (s.updTdc c f).regs = s.regs := (rfl)
@[simp] theorem State.updTdc_act (c : Nat) (f : TdcCh → TdcCh) : (s.updTdc c f).act = s.act := (rfl)
@[simp] theorem State.updTdc_snap (c : Nat) (f : TdcCh → TdcCh) : (s.updTdc c f).snap = s.snap := (rfl)
@[simp] theorem State.updTdc_staged (c : Nat) (f : TdcCh → TdcCh) : (s.updTdc c f).staged = s.staged := (rfl)
@[simp] theorem State.updTdc_readData (c : Nat) (f : TdcCh → TdcCh) : (s.updTdc c f).readData = s.readData := (rfl)
@[simp] theorem State.updTdc_outs (c : Nat) (f : TdcCh → TdcCh) : (s.updTdc c f).outs = s.outs := (rfl)
@[simp] theorem State.updTdc_time (c : Nat) (f : TdcCh → TdcCh) : (s.updTdc c f).time = s.time := (rfl)
@[simp] theorem State.updTdc_frac (c : Nat) (f : TdcCh → TdcCh) : (s.updTdc c f).frac = s.frac := (rfl)
@[simp] theorem State.updTdc_freeCtr (c : Nat) (f : TdcCh → TdcCh) : (s.updTdc c f).freeCtr = s.freeCtr := (rfl)
@[simp] theorem State.updTdc_store (c : Nat) (f : TdcCh → TdcCh) : (s.updTdc c f).store = s.store := (rfl)
@[simp] theorem State.updTdc_hostMem (c : Nat) (f : TdcCh → TdcCh) : (s.updTdc c f).hostMem = s.hostMem := (rfl)
@[simp] theorem State.updTdc_flash (c : Nat) (f : TdcCh → TdcCh) : (s.updTdc c f).flash = s.flash := (rfl)
@[simp] theorem State.updTdc_evt (c : Nat) (f : TdcCh → TdcCh) : (s.updTdc c f).evt = s.evt := (rfl)
@[simp] theorem State.updTdc_hif (c : Nat) (f : TdcCh → TdcCh) : (s.updTdc c f).hif = s.hif := (rfl)
@[simp] theorem State.updTdc_ctxs (c : Nat) (f : TdcCh → TdcCh) : (s.updTdc c f).ctxs = s.ctxs := (rfl)
@[simp] theorem State.updTdc_billets (c : Nat) (f : TdcCh → TdcCh) : (s.updTdc c f).billets = s.billets := (rfl)
@[simp] theorem State.updTdc_ports (c : Nat) (f : TdcCh → TdcCh) : (s.updTdc c f).ports = s.ports := (rfl)
@[simp] theorem State.updTdc_aside (c : Nat) (f : TdcCh → TdcCh) : (s.updTdc c f).aside = s.aside := (rfl)
@[simp] theorem State.updTdc_served (c : Nat) (f : TdcCh → TdcCh) : (s.updTdc c f).served = s.served := (rfl)
@[simp] theorem State.updTdc_badLines (c : Nat) (f : TdcCh → TdcCh) : (s.updTdc c f).badLines = s.badLines := (rfl)
@[simp] theorem State.updTdc_clk (c : Nat) (f : TdcCh → TdcCh) : (s.updTdc c f).clk = s.clk := (rfl)
@[simp] theorem State.updTdc_plan (c : Nat) (f : TdcCh → TdcCh) : (s.updTdc c f).plan = s.plan := (rfl)
@[simp] theorem State.updTdc_tbs (c : Nat) (f : TdcCh → TdcCh) : (s.updTdc c f).tbs = s.tbs := (rfl)
@[simp] theorem State.updTdc_cnv (c : Nat) (f : TdcCh → TdcCh) : (s.updTdc c f).cnv = s.cnv := (rfl)
@[simp] theorem State.updTdc_pg (c : Nat) (f : TdcCh → TdcCh) : (s.updTdc c f).pg = s.pg := (rfl)
@[simp] theorem State.updTdc_cal (c : Nat) (f : TdcCh → TdcCh) : (s.updTdc c f).cal = s.cal := (rfl)
@[simp] theorem State.updTdc_ddc (c : Nat) (f : TdcCh → TdcCh) : (s.updTdc c f).ddc = s.ddc := (rfl)
@[simp] theorem State.updTdc_xfm (c : Nat) (f : TdcCh → TdcCh) : (s.updTdc c f).xfm = s.xfm := (rfl)
@[simp] theorem State.updTdc_streams (c : Nat) (f : TdcCh → TdcCh) : (s.updTdc c f).streams = s.streams := (rfl)
@[simp] theorem State.updTdc_frames (c : Nat) (f : TdcCh → TdcCh) : (s.updTdc c f).frames = s.frames := (rfl)
@[simp] theorem State.updTdc_det (c : Nat) (f : TdcCh → TdcCh) : (s.updTdc c f).det = s.det := (rfl)
@[simp] theorem State.updTdc_den (c : Nat) (f : TdcCh → TdcCh) : (s.updTdc c f).den = s.den := (rfl)
@[simp] theorem State.updTdc_tq (c : Nat) (f : TdcCh → TdcCh) : (s.updTdc c f).tq = s.tq := (rfl)
@[simp] theorem State.updTdc_lt (c : Nat) (f : TdcCh → TdcCh) : (s.updTdc c f).lt = s.lt := (rfl)
@[simp] theorem State.updTdc_fm (c : Nat) (f : TdcCh → TdcCh) : (s.updTdc c f).fm = s.fm := (rfl)
@[simp] theorem State.updTdc_bus (c : Nat) (f : TdcCh → TdcCh) : (s.updTdc c f).bus = s.bus := (rfl)
@[simp] theorem State.updTdc_tmr (c : Nat) (f : TdcCh → TdcCh) : (s.updTdc c f).tmr = s.tmr := (rfl)
@[simp] theorem State.updTdc_decs (c : Nat) (f : TdcCh → TdcCh) : (s.updTdc c f).decs = s.decs := (rfl)
@[simp] theorem State.updTdc_au (c : Nat) (f : TdcCh → TdcCh) : (s.updTdc c f).au = s.au := (rfl)
@[simp] theorem State.updTdc_replay (c : Nat) (f : TdcCh → TdcCh) : (s.updTdc c f).replay = s.replay := (rfl)
@[simp] theorem State.updTdc_turf (c : Nat) (f : TdcCh → TdcCh) : (s.updTdc c f).turf = s.turf := (rfl)
@[simp] theorem State.updTdc_clusters (c : Nat) (f : TdcCh → TdcCh) : (s.updTdc c f).clusters = s.clusters := (rfl)
@[simp] theorem State.updTdc_net (c : Nat) (f : TdcCh → TdcCh) : (s.updTdc c f).net = s.net := (rfl)
@[simp] theorem State.updTdc_ave (c : Nat) (f : TdcCh → TdcCh) : (s.updTdc c f).ave = s.ave := (rfl)
@[simp] theorem State.updTdc_slots (c : Nat) (f : TdcCh → TdcCh) : (s.updTdc c f).slots = s.slots := (rfl)
@[simp] theorem State.updTdc_dis (c : Nat) (f : TdcCh → TdcCh) : (s.updTdc c f).dis = s.dis := (rfl)
@[simp] theorem State.updTdc_layers (c : Nat) (f : TdcCh → TdcCh) : (s.updTdc c f).layers = s.layers := (rfl)
@[simp] theorem State.updTdc_mem (c : Nat) (f : TdcCh → TdcCh) : (s.updTdc c f).mem = s.mem := (rfl)
@[simp] theorem State.updTdc_dma (c : Nat) (f : TdcCh → TdcCh) : (s.updTdc c f).dma = s.dma := (rfl)
@[simp] theorem State.updTdc_rst (c : Nat) (f : TdcCh → TdcCh) : (s.updTdc c f).rst = s.rst := (rfl)
@[simp] theorem State.updTdc_stk (c : Nat) (f : TdcCh → TdcCh) : (s.updTdc c f).stk = s.stk := (rfl)
@[simp] theorem State.updTdc_cmp (c : Nat) (f : TdcCh → TdcCh) : (s.updTdc c f).cmp = s.cmp := (rfl)
@[simp] theorem State.updTdc_pkg (c : Nat) (f : TdcCh → TdcCh) : (s.updTdc c f).pkg = s.pkg := (rfl)
@[simp] theorem State.rd_updTdc (c : Nat) (f : TdcCh → TdcCh) (adr : Nat) : (s.updTdc c f).rd adr = s.rd adr := (rfl)
@[simp] theorem State.fld_updTdc (c : Nat) (f : TdcCh → TdcCh) (adr : Nat) (fd : Fld) : (s.updTdc c f).fld adr fd = s.fld adr fd := (rfl)
@[simp] theorem State.actv_updTdc (c : Nat) (f : TdcCh → TdcCh) (adr : Nat) : (s.updTdc c f).actv adr = s.actv adr := (rfl)

/-! ### updTq -/
@[simp] theorem State.updTq_pending (q : Nat) (f : Tq → Tq) : (s.updTq q f).pending = s.pending := (rfl)
@[simp] theorem State.updTq_regs (q : Nat) (f : Tq → Tq) : (s.updTq q f).regs = s.regs := (rfl)
@[simp] theorem State.updTq_act (q : Nat) (f : Tq → Tq) : (s.updTq q f).act = s.act := (rfl)
@[simp] theorem State.updTq_snap (q : Nat) (f : Tq → Tq) : (s.updTq q f).snap = s.snap := (rfl)
@[simp] theorem State.updTq_staged (q : Nat) (f : Tq → Tq) : (s.updTq q f).staged = s.staged := (rfl)
@[simp] theorem State.updTq_readData (q : Nat) (f : Tq → Tq) : (s.updTq q f).readData = s.readData := (rfl)
@[simp] theorem State.updTq_outs (q : Nat) (f : Tq → Tq) : (s.updTq q f).outs = s.outs := (rfl)
@[simp] theorem State.updTq_time (q : Nat) (f : Tq → Tq) : (s.updTq q f).time = s.time := (rfl)
@[simp] theorem State.updTq_frac (q : Nat) (f : Tq → Tq) : (s.updTq q f).frac = s.frac := (rfl)
@[simp] theorem State.updTq_freeCtr (q : Nat) (f : Tq → Tq) : (s.updTq q f).freeCtr = s.freeCtr := (rfl)
@[simp] theorem State.updTq_store (q : Nat) (f : Tq → Tq) : (s.updTq q f).store = s.store := (rfl)
@[simp] theorem State.updTq_hostMem (q : Nat) (f : Tq → Tq) : (s.updTq q f).hostMem = s.hostMem := (rfl)
@[simp] theorem State.updTq_flash (q : Nat) (f : Tq → Tq) : (s.updTq q f).flash = s.flash := (rfl)
@[simp] theorem State.updTq_evt (q : Nat) (f : Tq → Tq) : (s.updTq q f).evt = s.evt := (rfl)
@[simp] theorem State.updTq_hif (q : Nat) (f : Tq → Tq) : (s.updTq q f).hif = s.hif := (rfl)
@[simp] theorem State.updTq_ctxs (q : Nat) (f : Tq → Tq) : (s.updTq q f).ctxs = s.ctxs := (rfl)
@[simp] theorem State.updTq_billets (q : Nat) (f : Tq → Tq) : (s.updTq q f).billets = s.billets := (rfl)
@[simp] theorem State.updTq_ports (q : Nat) (f : Tq → Tq) : (s.updTq q f).ports = s.ports := (rfl)
@[simp] theorem State.updTq_aside (q : Nat) (f : Tq → Tq) : (s.updTq q f).aside = s.aside := (rfl)
@[simp] theorem State.updTq_served (q : Nat) (f : Tq → Tq) : (s.updTq q f).served = s.served := (rfl)
@[simp] theorem State.updTq_badLines (q : Nat) (f : Tq → Tq) : (s.updTq q f).badLines = s.badLines := (rfl)
@[simp] theorem State.updTq_clk (q : Nat) (f : Tq → Tq) : (s.updTq q f).clk = s.clk := (rfl)
@[simp] theorem State.updTq_plan (q : Nat) (f : Tq → Tq) : (s.updTq q f).plan = s.plan := (rfl)
@[simp] theorem State.updTq_tbs (q : Nat) (f : Tq → Tq) : (s.updTq q f).tbs = s.tbs := (rfl)
@[simp] theorem State.updTq_tdc (q : Nat) (f : Tq → Tq) : (s.updTq q f).tdc = s.tdc := (rfl)
@[simp] theorem State.updTq_cnv (q : Nat) (f : Tq → Tq) : (s.updTq q f).cnv = s.cnv := (rfl)
@[simp] theorem State.updTq_pg (q : Nat) (f : Tq → Tq) : (s.updTq q f).pg = s.pg := (rfl)
@[simp] theorem State.updTq_cal (q : Nat) (f : Tq → Tq) : (s.updTq q f).cal = s.cal := (rfl)
@[simp] theorem State.updTq_ddc (q : Nat) (f : Tq → Tq) : (s.updTq q f).ddc = s.ddc := (rfl)
@[simp] theorem State.updTq_xfm (q : Nat) (f : Tq → Tq) : (s.updTq q f).xfm = s.xfm := (rfl)
@[simp] theorem State.updTq_streams (q : Nat) (f : Tq → Tq) : (s.updTq q f).streams = s.streams := (rfl)
@[simp] theorem State.updTq_frames (q : Nat) (f : Tq → Tq) : (s.updTq q f).frames = s.frames := (rfl)
@[simp] theorem State.updTq_det (q : Nat) (f : Tq → Tq) : (s.updTq q f).det = s.det := (rfl)
@[simp] theorem State.updTq_den (q : Nat) (f : Tq → Tq) : (s.updTq q f).den = s.den := (rfl)
@[simp] theorem State.updTq_lt (q : Nat) (f : Tq → Tq) : (s.updTq q f).lt = s.lt := (rfl)
@[simp] theorem State.updTq_fm (q : Nat) (f : Tq → Tq) : (s.updTq q f).fm = s.fm := (rfl)
@[simp] theorem State.updTq_bus (q : Nat) (f : Tq → Tq) : (s.updTq q f).bus = s.bus := (rfl)
@[simp] theorem State.updTq_tmr (q : Nat) (f : Tq → Tq) : (s.updTq q f).tmr = s.tmr := (rfl)
@[simp] theorem State.updTq_decs (q : Nat) (f : Tq → Tq) : (s.updTq q f).decs = s.decs := (rfl)
@[simp] theorem State.updTq_au (q : Nat) (f : Tq → Tq) : (s.updTq q f).au = s.au := (rfl)
@[simp] theorem State.updTq_replay (q : Nat) (f : Tq → Tq) : (s.updTq q f).replay = s.replay := (rfl)
@[simp] theorem State.updTq_turf (q : Nat) (f : Tq → Tq) : (s.updTq q f).turf = s.turf := (rfl)
@[simp] theorem State.updTq_clusters (q : Nat) (f : Tq → Tq) : (s.updTq q f).clusters = s.clusters := (rfl)
@[simp] theorem State.updTq_net (q : Nat) (f : Tq → Tq) : (s.updTq q f).net = s.net := (rfl)
@[simp] theorem State.updTq_ave (q : Nat) (f : Tq → Tq) : (s.updTq q f).ave = s.ave := (rfl)
@[simp] theorem State.updTq_slots (q : Nat) (f : Tq → Tq) : (s.updTq q f).slots = s.slots := (rfl)
@[simp] theorem State.updTq_dis (q : Nat) (f : Tq → Tq) : (s.updTq q f).dis = s.dis := (rfl)
@[simp] theorem State.updTq_layers (q : Nat) (f : Tq → Tq) : (s.updTq q f).layers = s.layers := (rfl)
@[simp] theorem State.updTq_mem (q : Nat) (f : Tq → Tq) : (s.updTq q f).mem = s.mem := (rfl)
@[simp] theorem State.updTq_dma (q : Nat) (f : Tq → Tq) : (s.updTq q f).dma = s.dma := (rfl)
@[simp] theorem State.updTq_rst (q : Nat) (f : Tq → Tq) : (s.updTq q f).rst = s.rst := (rfl)
@[simp] theorem State.updTq_stk (q : Nat) (f : Tq → Tq) : (s.updTq q f).stk = s.stk := (rfl)
@[simp] theorem State.updTq_cmp (q : Nat) (f : Tq → Tq) : (s.updTq q f).cmp = s.cmp := (rfl)
@[simp] theorem State.updTq_pkg (q : Nat) (f : Tq → Tq) : (s.updTq q f).pkg = s.pkg := (rfl)
@[simp] theorem State.rd_updTq (q : Nat) (f : Tq → Tq) (adr : Nat) : (s.updTq q f).rd adr = s.rd adr := (rfl)
@[simp] theorem State.fld_updTq (q : Nat) (f : Tq → Tq) (adr : Nat) (fd : Fld) : (s.updTq q f).fld adr fd = s.fld adr fd := (rfl)
@[simp] theorem State.actv_updTq (q : Nat) (f : Tq → Tq) (adr : Nat) : (s.updTq q f).actv adr = s.actv adr := (rfl)

/-! ### updLt -/
@[simp] theorem State.updLt_pending (i : Nat) (f : Lt → Lt) : (s.updLt i f).pending = s.pending := (rfl)
@[simp] theorem State.updLt_regs (i : Nat) (f : Lt → Lt) : (s.updLt i f).regs = s.regs := (rfl)
@[simp] theorem State.updLt_act (i : Nat) (f : Lt → Lt) : (s.updLt i f).act = s.act := (rfl)
@[simp] theorem State.updLt_snap (i : Nat) (f : Lt → Lt) : (s.updLt i f).snap = s.snap := (rfl)
@[simp] theorem State.updLt_staged (i : Nat) (f : Lt → Lt) : (s.updLt i f).staged = s.staged := (rfl)
@[simp] theorem State.updLt_readData (i : Nat) (f : Lt → Lt) : (s.updLt i f).readData = s.readData := (rfl)
@[simp] theorem State.updLt_outs (i : Nat) (f : Lt → Lt) : (s.updLt i f).outs = s.outs := (rfl)
@[simp] theorem State.updLt_time (i : Nat) (f : Lt → Lt) : (s.updLt i f).time = s.time := (rfl)
@[simp] theorem State.updLt_frac (i : Nat) (f : Lt → Lt) : (s.updLt i f).frac = s.frac := (rfl)
@[simp] theorem State.updLt_freeCtr (i : Nat) (f : Lt → Lt) : (s.updLt i f).freeCtr = s.freeCtr := (rfl)
@[simp] theorem State.updLt_store (i : Nat) (f : Lt → Lt) : (s.updLt i f).store = s.store := (rfl)
@[simp] theorem State.updLt_hostMem (i : Nat) (f : Lt → Lt) : (s.updLt i f).hostMem = s.hostMem := (rfl)
@[simp] theorem State.updLt_flash (i : Nat) (f : Lt → Lt) : (s.updLt i f).flash = s.flash := (rfl)
@[simp] theorem State.updLt_evt (i : Nat) (f : Lt → Lt) : (s.updLt i f).evt = s.evt := (rfl)
@[simp] theorem State.updLt_hif (i : Nat) (f : Lt → Lt) : (s.updLt i f).hif = s.hif := (rfl)
@[simp] theorem State.updLt_ctxs (i : Nat) (f : Lt → Lt) : (s.updLt i f).ctxs = s.ctxs := (rfl)
@[simp] theorem State.updLt_billets (i : Nat) (f : Lt → Lt) : (s.updLt i f).billets = s.billets := (rfl)
@[simp] theorem State.updLt_ports (i : Nat) (f : Lt → Lt) : (s.updLt i f).ports = s.ports := (rfl)
@[simp] theorem State.updLt_aside (i : Nat) (f : Lt → Lt) : (s.updLt i f).aside = s.aside := (rfl)
@[simp] theorem State.updLt_served (i : Nat) (f : Lt → Lt) : (s.updLt i f).served = s.served := (rfl)
@[simp] theorem State.updLt_badLines (i : Nat) (f : Lt → Lt) : (s.updLt i f).badLines = s.badLines := (rfl)
@[simp] theorem State.updLt_clk (i : Nat) (f : Lt → Lt) : (s.updLt i f).clk = s.clk := (rfl)
@[simp] theorem State.updLt_plan (i : Nat) (f : Lt → Lt) : (s.updLt i f).plan = s.plan := (rfl)
@[simp] theorem State.updLt_tbs (i : Nat) (f : Lt → Lt) : (s.updLt i f).tbs = s.tbs := (rfl)
@[simp] theorem State.updLt_tdc (i : Nat) (f : Lt → Lt) : (s.updLt i f).tdc = s.tdc := (rfl)
@[simp] theorem State.updLt_cnv (i : Nat) (f : Lt → Lt) : (s.updLt i f).cnv = s.cnv := (rfl)
@[simp] theorem State.updLt_pg (i : Nat) (f : Lt → Lt) : (s.updLt i f).pg = s.pg := (rfl)
@[simp] theorem State.updLt_cal (i : Nat) (f : Lt → Lt) : (s.updLt i f).cal = s.cal := (rfl)
@[simp] theorem State.updLt_ddc (i : Nat) (f : Lt → Lt) : (s.updLt i f).ddc = s.ddc := (rfl)
@[simp] theorem State.updLt_xfm (i : Nat) (f : Lt → Lt) : (s.updLt i f).xfm = s.xfm := (rfl)
@[simp] theorem State.updLt_streams (i : Nat) (f : Lt → Lt) : (s.updLt i f).streams = s.streams := (rfl)
@[simp] theorem State.updLt_frames (i : Nat) (f : Lt → Lt) : (s.updLt i f).frames = s.frames := (rfl)
@[simp] theorem State.updLt_det (i : Nat) (f : Lt → Lt) : (s.updLt i f).det = s.det := (rfl)
@[simp] theorem State.updLt_den (i : Nat) (f : Lt → Lt) : (s.updLt i f).den = s.den := (rfl)
@[simp] theorem State.updLt_tq (i : Nat) (f : Lt → Lt) : (s.updLt i f).tq = s.tq := (rfl)
@[simp] theorem State.updLt_fm (i : Nat) (f : Lt → Lt) : (s.updLt i f).fm = s.fm := (rfl)
@[simp] theorem State.updLt_bus (i : Nat) (f : Lt → Lt) : (s.updLt i f).bus = s.bus := (rfl)
@[simp] theorem State.updLt_tmr (i : Nat) (f : Lt → Lt) : (s.updLt i f).tmr = s.tmr := (rfl)
@[simp] theorem State.updLt_decs (i : Nat) (f : Lt → Lt) : (s.updLt i f).decs = s.decs := (rfl)
@[simp] theorem State.updLt_au (i : Nat) (f : Lt → Lt) : (s.updLt i f).au = s.au := (rfl)
@[simp] theorem State.updLt_replay (i : Nat) (f : Lt → Lt) : (s.updLt i f).replay = s.replay := (rfl)
@[simp] theorem State.updLt_turf (i : Nat) (f : Lt → Lt) : (s.updLt i f).turf = s.turf := (rfl)
@[simp] theorem State.updLt_clusters (i : Nat) (f : Lt → Lt) : (s.updLt i f).clusters = s.clusters := (rfl)
@[simp] theorem State.updLt_net (i : Nat) (f : Lt → Lt) : (s.updLt i f).net = s.net := (rfl)
@[simp] theorem State.updLt_ave (i : Nat) (f : Lt → Lt) : (s.updLt i f).ave = s.ave := (rfl)
@[simp] theorem State.updLt_slots (i : Nat) (f : Lt → Lt) : (s.updLt i f).slots = s.slots := (rfl)
@[simp] theorem State.updLt_dis (i : Nat) (f : Lt → Lt) : (s.updLt i f).dis = s.dis := (rfl)
@[simp] theorem State.updLt_layers (i : Nat) (f : Lt → Lt) : (s.updLt i f).layers = s.layers := (rfl)
@[simp] theorem State.updLt_mem (i : Nat) (f : Lt → Lt) : (s.updLt i f).mem = s.mem := (rfl)
@[simp] theorem State.updLt_dma (i : Nat) (f : Lt → Lt) : (s.updLt i f).dma = s.dma := (rfl)
@[simp] theorem State.updLt_rst (i : Nat) (f : Lt → Lt) : (s.updLt i f).rst = s.rst := (rfl)
@[simp] theorem State.updLt_stk (i : Nat) (f : Lt → Lt) : (s.updLt i f).stk = s.stk := (rfl)
@[simp] theorem State.updLt_cmp (i : Nat) (f : Lt → Lt) : (s.updLt i f).cmp = s.cmp := (rfl)
@[simp] theorem State.updLt_pkg (i : Nat) (f : Lt → Lt) : (s.updLt i f).pkg = s.pkg := (rfl)
@[simp] theorem State.rd_updLt (i : Nat) (f : Lt → Lt) (adr : Nat) : (s.updLt i f).rd adr = s.rd adr := (rfl)
@[simp] theorem State.fld_updLt (i : Nat) (f : Lt → Lt) (adr : Nat) (fd : Fld) : (s.updLt i f).fld adr fd = s.fld adr fd := (rfl)
@[simp] theorem State.actv_updLt (i : Nat) (f : Lt → Lt) (adr : Nat) : (s.updLt i f).actv adr = s.actv adr := (rfl)

/-! ### updFm -/
@[simp] theorem State.updFm_pending (u : Nat) (f : Fm → Fm) : (s.updFm u f).pending = s.pending := (rfl)
@[simp] theorem State.updFm_regs (u : Nat) (f : Fm → Fm) : (s.updFm u f).regs = s.regs := (rfl)
@[simp] theorem State.updFm_act (u : Nat) (f : Fm → Fm) : (s.updFm u f).act = s.act := (rfl)
@[simp] theorem State.updFm_snap (u : Nat) (f : Fm → Fm) : (s.updFm u f).snap = s.snap := (rfl)
@[simp] theorem State.updFm_staged (u : Nat) (f : Fm → Fm) : (s.updFm u f).staged = s.staged := (rfl)
@[simp] theorem State.updFm_readData (u : Nat) (f : Fm → Fm) : (s.updFm u f).readData = s.readData := (rfl)
@[simp] theorem State.updFm_outs (u : Nat) (f : Fm → Fm) : (s.updFm u f).outs = s.outs := (rfl)
@[simp] theorem State.updFm_time (u : Nat) (f : Fm → Fm) : (s.updFm u f).time = s.time := (rfl)
@[simp] theorem State.updFm_frac (u : Nat) (f : Fm → Fm) : (s.updFm u f).frac = s.frac := (rfl)
@[simp] theorem State.updFm_freeCtr (u : Nat) (f : Fm → Fm) : (s.updFm u f).freeCtr = s.freeCtr := (rfl)
@[simp] theorem State.updFm_store (u : Nat) (f : Fm → Fm) : (s.updFm u f).store = s.store := (rfl)
@[simp] theorem State.updFm_hostMem (u : Nat) (f : Fm → Fm) : (s.updFm u f).hostMem = s.hostMem := (rfl)
@[simp] theorem State.updFm_flash (u : Nat) (f : Fm → Fm) : (s.updFm u f).flash = s.flash := (rfl)
@[simp] theorem State.updFm_evt (u : Nat) (f : Fm → Fm) : (s.updFm u f).evt = s.evt := (rfl)
@[simp] theorem State.updFm_hif (u : Nat) (f : Fm → Fm) : (s.updFm u f).hif = s.hif := (rfl)
@[simp] theorem State.updFm_ctxs (u : Nat) (f : Fm → Fm) : (s.updFm u f).ctxs = s.ctxs := (rfl)
@[simp] theorem State.updFm_billets (u : Nat) (f : Fm → Fm) : (s.updFm u f).billets = s.billets := (rfl)
@[simp] theorem State.updFm_ports (u : Nat) (f : Fm → Fm) : (s.updFm u f).ports = s.ports := (rfl)
@[simp] theorem State.updFm_aside (u : Nat) (f : Fm → Fm) : (s.updFm u f).aside = s.aside := (rfl)
@[simp] theorem State.updFm_served (u : Nat) (f : Fm → Fm) : (s.updFm u f).served = s.served := (rfl)
@[simp] theorem State.updFm_badLines (u : Nat) (f : Fm → Fm) : (s.updFm u f).badLines = s.badLines := (rfl)
@[simp] theorem State.updFm_clk (u : Nat) (f : Fm → Fm) : (s.updFm u f).clk = s.clk := (rfl)
@[simp] theorem State.updFm_plan (u : Nat) (f : Fm → Fm) : (s.updFm u f).plan = s.plan := (rfl)
@[simp] theorem State.updFm_tbs (u : Nat) (f : Fm → Fm) : (s.updFm u f).tbs = s.tbs := (rfl)
@[simp] theorem State.updFm_tdc (u : Nat) (f : Fm → Fm) : (s.updFm u f).tdc = s.tdc := (rfl)
@[simp] theorem State.updFm_cnv (u : Nat) (f : Fm → Fm) : (s.updFm u f).cnv = s.cnv := (rfl)
@[simp] theorem State.updFm_pg (u : Nat) (f : Fm → Fm) : (s.updFm u f).pg = s.pg := (rfl)
@[simp] theorem State.updFm_cal (u : Nat) (f : Fm → Fm) : (s.updFm u f).cal = s.cal := (rfl)
@[simp] theorem State.updFm_ddc (u : Nat) (f : Fm → Fm) : (s.updFm u f).ddc = s.ddc := (rfl)
@[simp] theorem State.updFm_xfm (u : Nat) (f : Fm → Fm) : (s.updFm u f).xfm = s.xfm := (rfl)
@[simp] theorem State.updFm_streams (u : Nat) (f : Fm → Fm) : (s.updFm u f).streams = s.streams := (rfl)
@[simp] theorem State.updFm_frames (u : Nat) (f : Fm → Fm) : (s.updFm u f).frames = s.frames := (rfl)
@[simp] theorem State.updFm_det (u : Nat) (f : Fm → Fm) : (s.updFm u f).det = s.det := (rfl)
@[simp] theorem State.updFm_den (u : Nat) (f : Fm → Fm) : (s.updFm u f).den = s.den := (rfl)
@[simp] theorem State.updFm_tq (u : Nat) (f : Fm → Fm) : (s.updFm u f).tq = s.tq := (rfl)
@[simp] theorem State.updFm_lt (u : Nat) (f : Fm → Fm) : (s.updFm u f).lt = s.lt := (rfl)
@[simp] theorem State.updFm_bus (u : Nat) (f : Fm → Fm) : (s.updFm u f).bus = s.bus := (rfl)
@[simp] theorem State.updFm_tmr (u : Nat) (f : Fm → Fm) : (s.updFm u f).tmr = s.tmr := (rfl)
@[simp] theorem State.updFm_decs (u : Nat) (f : Fm → Fm) : (s.updFm u f).decs = s.decs := (rfl)
@[simp] theorem State.updFm_au (u : Nat) (f : Fm → Fm) : (s.updFm u f).au = s.au := (rfl)
@[simp] theorem State.updFm_replay (u : Nat) (f : Fm → Fm) : (s.updFm u f).replay = s.replay := (rfl)
@[simp] theorem State.updFm_turf (u : Nat) (f : Fm → Fm) : (s.updFm u f).turf = s.turf := (rfl)
@[simp] theorem State.updFm_clusters (u : Nat) (f : Fm → Fm) : (s.updFm u f).clusters = s.clusters := (rfl)
@[simp] theorem State.updFm_net (u : Nat) (f : Fm → Fm) : (s.updFm u f).net = s.net := (rfl)
@[simp] theorem State.updFm_ave (u : Nat) (f : Fm → Fm) : (s.updFm u f).ave = s.ave := (rfl)
@[simp] theorem State.updFm_slots (u : Nat) (f : Fm → Fm) : (s.updFm u f).slots = s.slots := (rfl)
@[simp] theorem State.updFm_dis (u : Nat) (f : Fm → Fm) : (s.updFm u f).dis = s.dis := (rfl)
@[simp] theorem State.updFm_layers (u : Nat) (f : Fm → Fm) : (s.updFm u f).layers = s.layers := (rfl)
@[simp] theorem State.updFm_mem (u : Nat) (f : Fm → Fm) : (s.updFm u f).mem = s.mem := (rfl)
@[simp] theorem State.updFm_dma (u : Nat) (f : Fm → Fm) : (s.updFm u f).dma = s.dma := (rfl)
@[simp] theorem State.updFm_rst (u : Nat) (f : Fm → Fm) : (s.updFm u f).rst = s.rst := (rfl)
@[simp] theorem State.updFm_stk (u : Nat) (f : Fm → Fm) : (s.updFm u f).stk = s.stk := (rfl)
@[simp] theorem State.updFm_cmp (u : Nat) (f : Fm → Fm) : (s.updFm u f).cmp = s.cmp := (rfl)
@[simp] theorem State.updFm_pkg (u : Nat) (f : Fm → Fm) : (s.updFm u f).pkg = s.pkg := (rfl)
@[simp] theorem State.rd_updFm (u : Nat) (f : Fm → Fm) (adr : Nat) : (s.updFm u f).rd adr = s.rd adr := (rfl)
@[simp] theorem State.fld_updFm (u : Nat) (f : Fm → Fm) (adr : Nat) (fd : Fld) : (s.updFm u f).fld adr fd = s.fld adr fd := (rfl)
@[simp] theorem State.actv_updFm (u : Nat) (f : Fm → Fm) (adr : Nat) : (s.updFm u f).actv adr = s.actv adr := (rfl)

/-! ### updCluster -/
@[simp] theorem State.updCluster_pending (k : Nat) (f : Cluster → Cluster) : (s.updCluster k f).pending = s.pending := (rfl)
@[simp] theorem State.updCluster_regs (k : Nat) (f : Cluster → Cluster) : (s.updCluster k f).regs = s.regs := (rfl)
@[simp] theorem State.updCluster_act (k : Nat) (f : Cluster → Cluster) : (s.updCluster k f).act = s.act := (rfl)
@[simp] theorem State.updCluster_snap (k : Nat) (f : Cluster → Cluster) : (s.updCluster k f).snap = s.snap := (rfl)
@[simp] theorem State.updCluster_staged (k : Nat) (f : Cluster → Cluster) : (s.updCluster k f).staged = s.staged := (rfl)
@[simp] theorem State.updCluster_readData (k : Nat) (f : Cluster → Cluster) : (s.updCluster k f).readData = s.readData := (rfl)
@[simp] theorem State.updCluster_outs (k : Nat) (f : Cluster → Cluster) : (s.updCluster k f).outs = s.outs := (rfl)
@[simp] theorem State.updCluster_time (k : Nat) (f : Cluster → Cluster) : (s.updCluster k f).time = s.time := (rfl)
@[simp] theorem State.updCluster_frac (k : Nat) (f : Cluster → Cluster) : (s.updCluster k f).frac = s.frac := (rfl)
@[simp] theorem State.updCluster_freeCtr (k : Nat) (f : Cluster → Cluster) : (s.updCluster k f).freeCtr = s.freeCtr := (rfl)
@[simp] theorem State.updCluster_store (k : Nat) (f : Cluster → Cluster) : (s.updCluster k f).store = s.store := (rfl)
@[simp] theorem State.updCluster_hostMem (k : Nat) (f : Cluster → Cluster) : (s.updCluster k f).hostMem = s.hostMem := (rfl)
@[simp] theorem State.updCluster_flash (k : Nat) (f : Cluster → Cluster) : (s.updCluster k f).flash = s.flash := (rfl)
@[simp] theorem State.updCluster_evt (k : Nat) (f : Cluster → Cluster) : (s.updCluster k f).evt = s.evt := (rfl)
@[simp] theorem State.updCluster_hif (k : Nat) (f : Cluster → Cluster) : (s.updCluster k f).hif = s.hif := (rfl)
@[simp] theorem State.updCluster_ctxs (k : Nat) (f : Cluster → Cluster) : (s.updCluster k f).ctxs = s.ctxs := (rfl)
@[simp] theorem State.updCluster_billets (k : Nat) (f : Cluster → Cluster) : (s.updCluster k f).billets = s.billets := (rfl)
@[simp] theorem State.updCluster_ports (k : Nat) (f : Cluster → Cluster) : (s.updCluster k f).ports = s.ports := (rfl)
@[simp] theorem State.updCluster_aside (k : Nat) (f : Cluster → Cluster) : (s.updCluster k f).aside = s.aside := (rfl)
@[simp] theorem State.updCluster_served (k : Nat) (f : Cluster → Cluster) : (s.updCluster k f).served = s.served := (rfl)
@[simp] theorem State.updCluster_badLines (k : Nat) (f : Cluster → Cluster) : (s.updCluster k f).badLines = s.badLines := (rfl)
@[simp] theorem State.updCluster_clk (k : Nat) (f : Cluster → Cluster) : (s.updCluster k f).clk = s.clk := (rfl)
@[simp] theorem State.updCluster_plan (k : Nat) (f : Cluster → Cluster) : (s.updCluster k f).plan = s.plan := (rfl)
@[simp] theorem State.updCluster_tbs (k : Nat) (f : Cluster → Cluster) : (s.updCluster k f).tbs = s.tbs := (rfl)
@[simp] theorem State.updCluster_tdc (k : Nat) (f : Cluster → Cluster) : (s.updCluster k f).tdc = s.tdc := (rfl)
@[simp] theorem State.updCluster_cnv (k : Nat) (f : Cluster → Cluster) : (s.updCluster k f).cnv = s.cnv := (rfl)
@[simp] theorem State.updCluster_pg (k : Nat) (f : Cluster → Cluster) : (s.updCluster k f).pg = s.pg := (rfl)
@[simp] theorem State.updCluster_cal (k : Nat) (f : Cluster → Cluster) : (s.updCluster k f).cal = s.cal := (rfl)
@[simp] theorem State.updCluster_ddc (k : Nat) (f : Cluster → Cluster) : (s.updCluster k f).ddc = s.ddc := (rfl)
@[simp] theorem State.updCluster_xfm (k : Nat) (f : Cluster → Cluster) : (s.updCluster k f).xfm = s.xfm := (rfl)
@[simp] theorem State.updCluster_streams (k : Nat) (f : Cluster → Cluster) : (s.updCluster k f).streams = s.streams := (rfl)
@[simp] theorem State.updCluster_frames (k : Nat) (f : Cluster → Cluster) : (s.updCluster k f).frames = s.frames := (rfl)
@[simp] theorem State.updCluster_det (k : Nat) (f : Cluster → Cluster) : (s.updCluster k f).det = s.det := (rfl)
@[simp] theorem State.updCluster_den (k : Nat) (f : Cluster → Cluster) : (s.updCluster k f).den = s.den := (rfl)
@[simp] theorem State.updCluster_tq (k : Nat) (f : Cluster → Cluster) : (s.updCluster k f).tq = s.tq := (rfl)
@[simp] theorem State.updCluster_lt (k : Nat) (f : Cluster → Cluster) : (s.updCluster k f).lt = s.lt := (rfl)
@[simp] theorem State.updCluster_fm (k : Nat) (f : Cluster → Cluster) : (s.updCluster k f).fm = s.fm := (rfl)
@[simp] theorem State.updCluster_bus (k : Nat) (f : Cluster → Cluster) : (s.updCluster k f).bus = s.bus := (rfl)
@[simp] theorem State.updCluster_tmr (k : Nat) (f : Cluster → Cluster) : (s.updCluster k f).tmr = s.tmr := (rfl)
@[simp] theorem State.updCluster_decs (k : Nat) (f : Cluster → Cluster) : (s.updCluster k f).decs = s.decs := (rfl)
@[simp] theorem State.updCluster_au (k : Nat) (f : Cluster → Cluster) : (s.updCluster k f).au = s.au := (rfl)
@[simp] theorem State.updCluster_replay (k : Nat) (f : Cluster → Cluster) : (s.updCluster k f).replay = s.replay := (rfl)
@[simp] theorem State.updCluster_turf (k : Nat) (f : Cluster → Cluster) : (s.updCluster k f).turf = s.turf := (rfl)
@[simp] theorem State.updCluster_net (k : Nat) (f : Cluster → Cluster) : (s.updCluster k f).net = s.net := (rfl)
@[simp] theorem State.updCluster_ave (k : Nat) (f : Cluster → Cluster) : (s.updCluster k f).ave = s.ave := (rfl)
@[simp] theorem State.updCluster_slots (k : Nat) (f : Cluster → Cluster) : (s.updCluster k f).slots = s.slots := (rfl)
@[simp] theorem State.updCluster_dis (k : Nat) (f : Cluster → Cluster) : (s.updCluster k f).dis = s.dis := (rfl)
@[simp] theorem State.updCluster_layers (k : Nat) (f : Cluster → Cluster) : (s.updCluster k f).layers = s.layers := (rfl)
@[simp] theorem State.updCluster_mem (k : Nat) (f : Cluster → Cluster) : (s.updCluster k f).mem = s.mem := (rfl)
@[simp] theorem State.updCluster_dma (k : Nat) (f : Cluster → Cluster) : (s.updCluster k f).dma = s.dma := (rfl)
@[simp] theorem State.updCluster_rst (k : Nat) (f : Cluster → Cluster) : (s.updCluster k f).rst = s.rst := (rfl)
@[simp] theorem State.updCluster_stk (k : Nat) (f : Cluster → Cluster) : (s.updCluster k f).stk = s.stk := (rfl)
@[simp] theorem State.updCluster_cmp (k : Nat) (f : Cluster → Cluster) : (s.updCluster k f).cmp = s.cmp := (rfl)
@[simp] theorem State.updCluster_pkg (k : Nat) (f : Cluster → Cluster) : (s.updCluster k f).pkg = s.pkg := (rfl)
@[simp] theorem State.rd_updCluster (k : Nat) (f : Cluster → Cluster) (adr : Nat) : (s.updCluster k f).rd adr = s.rd adr := (rfl)
@[simp] theorem State.fld_updCluster (k : Nat) (f : Cluster → Cluster) (adr : Nat) (fd : Fld) : (s.updCluster k f).fld adr fd = s.fld adr fd := (rfl)
@[simp] theorem State.actv_updCluster (k : Nat) (f : Cluster → Cluster) (adr : Nat) : (s.updCluster k f).actv adr = s.actv adr := (rfl)

/-! ### updXfm -/
@[simp] theorem State.updXfm_pending (n : Nat) (f : Xfm → Xfm) : (s.updXfm n f).pending = s.pending := (rfl)
@[simp] theorem State.updXfm_regs (n : Nat) (f : Xfm → Xfm) : (s.updXfm n f).regs = s.regs := (rfl)
@[simp] theorem State.updXfm_act (n : Nat) (f : Xfm → Xfm) : (s.updXfm n f).act = s.act := (rfl)
@[simp] theorem State.updXfm_snap (n : Nat) (f : Xfm → Xfm) : (s.updXfm n f).snap = s.snap := (rfl)
@[simp] theorem State.updXfm_staged (n : Nat) (f : Xfm → Xfm) : (s.updXfm n f).staged = s.staged := (rfl)
@[simp] theorem State.updXfm_readData (n : Nat) (f : Xfm → Xfm) : (s.updXfm n f).readData = s.readData := (rfl)
@[simp] theorem State.updXfm_outs (n : Nat) (f : Xfm → Xfm) : (s.updXfm n f).outs = s.outs := (rfl)
@[simp] theorem State.updXfm_time (n : Nat) (f : Xfm → Xfm) : (s.updXfm n f).time = s.time := (rfl)
@[simp] theorem State.updXfm_frac (n : Nat) (f : Xfm → Xfm) : (s.updXfm n f).frac = s.frac := (rfl)
@[simp] theorem State.updXfm_freeCtr (n : Nat) (f : Xfm → Xfm) : (s.updXfm n f).freeCtr = s.freeCtr := (rfl)
@[simp] theorem State.updXfm_store (n : Nat) (f : Xfm → Xfm) : (s.updXfm n f).store = s.store := (rfl)
@[simp] theorem State.updXfm_hostMem (n : Nat) (f : Xfm → Xfm) : (s.updXfm n f).hostMem = s.hostMem := (rfl)
@[simp] theorem State.updXfm_flash (n : Nat) (f : Xfm → Xfm) : (s.updXfm n f).flash = s.flash := (rfl)
@[simp] theorem State.updXfm_evt (n : Nat) (f : Xfm → Xfm) : (s.updXfm n f).evt = s.evt := (rfl)
@[simp] theorem State.updXfm_hif (n : Nat) (f : Xfm → Xfm) : (s.updXfm n f).hif = s.hif := (rfl)
@[simp] theorem State.updXfm_ctxs (n : Nat) (f : Xfm → Xfm) : (s.updXfm n f).ctxs = s.ctxs := (rfl)
@[simp] theorem State.updXfm_billets (n : Nat) (f : Xfm → Xfm) : (s.updXfm n f).billets = s.billets := (rfl)
@[simp] theorem State.updXfm_ports (n : Nat) (f : Xfm → Xfm) : (s.updXfm n f).ports = s.ports := (rfl)
@[simp] theorem State.updXfm_aside (n : Nat) (f : Xfm → Xfm) : (s.updXfm n f).aside = s.aside := (rfl)
@[simp] theorem State.updXfm_served (n : Nat) (f : Xfm → Xfm) : (s.updXfm n f).served = s.served := (rfl)
@[simp] theorem State.updXfm_badLines (n : Nat) (f : Xfm → Xfm) : (s.updXfm n f).badLines = s.badLines := (rfl)
@[simp] theorem State.updXfm_clk (n : Nat) (f : Xfm → Xfm) : (s.updXfm n f).clk = s.clk := (rfl)
@[simp] theorem State.updXfm_plan (n : Nat) (f : Xfm → Xfm) : (s.updXfm n f).plan = s.plan := (rfl)
@[simp] theorem State.updXfm_tbs (n : Nat) (f : Xfm → Xfm) : (s.updXfm n f).tbs = s.tbs := (rfl)
@[simp] theorem State.updXfm_tdc (n : Nat) (f : Xfm → Xfm) : (s.updXfm n f).tdc = s.tdc := (rfl)
@[simp] theorem State.updXfm_cnv (n : Nat) (f : Xfm → Xfm) : (s.updXfm n f).cnv = s.cnv := (rfl)
@[simp] theorem State.updXfm_pg (n : Nat) (f : Xfm → Xfm) : (s.updXfm n f).pg = s.pg := (rfl)
@[simp] theorem State.updXfm_cal (n : Nat) (f : Xfm → Xfm) : (s.updXfm n f).cal = s.cal := (rfl)
@[simp] theorem State.updXfm_ddc (n : Nat) (f : Xfm → Xfm) : (s.updXfm n f).ddc = s.ddc := (rfl)
@[simp] theorem State.updXfm_streams (n : Nat) (f : Xfm → Xfm) : (s.updXfm n f).streams = s.streams := (rfl)
@[simp] theorem State.updXfm_frames (n : Nat) (f : Xfm → Xfm) : (s.updXfm n f).frames = s.frames := (rfl)
@[simp] theorem State.updXfm_det (n : Nat) (f : Xfm → Xfm) : (s.updXfm n f).det = s.det := (rfl)
@[simp] theorem State.updXfm_den (n : Nat) (f : Xfm → Xfm) : (s.updXfm n f).den = s.den := (rfl)
@[simp] theorem State.updXfm_tq (n : Nat) (f : Xfm → Xfm) : (s.updXfm n f).tq = s.tq := (rfl)
@[simp] theorem State.updXfm_lt (n : Nat) (f : Xfm → Xfm) : (s.updXfm n f).lt = s.lt := (rfl)
@[simp] theorem State.updXfm_fm (n : Nat) (f : Xfm → Xfm) : (s.updXfm n f).fm = s.fm := (rfl)
@[simp] theorem State.updXfm_bus (n : Nat) (f : Xfm → Xfm) : (s.updXfm n f).bus = s.bus := (rfl)
@[simp] theorem State.updXfm_tmr (n : Nat) (f : Xfm → Xfm) : (s.updXfm n f).tmr = s.tmr := (rfl)
@[simp] theorem State.updXfm_decs (n : Nat) (f : Xfm → Xfm) : (s.updXfm n f).decs = s.decs := (rfl)
@[simp] theorem State.updXfm_au (n : Nat) (f : Xfm → Xfm) : (s.updXfm n f).au = s.au := (rfl)
@[simp] theorem State.updXfm_replay (n : Nat) (f : Xfm → Xfm) : (s.updXfm n f).replay = s.replay := (rfl)
@[simp] theorem State.updXfm_turf (n : Nat) (f : Xfm → Xfm) : (s.updXfm n f).turf = s.turf := (rfl)
@[simp] theorem State.updXfm_clusters (n : Nat) (f : Xfm → Xfm) : (s.updXfm n f).clusters = s.clusters := (rfl)
@[simp] theorem State.updXfm_net (n : Nat) (f : Xfm → Xfm) : (s.updXfm n f).net = s.net := (rfl)
@[simp] theorem State.updXfm_ave (n : Nat) (f : Xfm → Xfm) : (s.updXfm n f).ave = s.ave := (rfl)
@[simp] theorem State.updXfm_slots (n : Nat) (f : Xfm → Xfm) : (s.updXfm n f).slots = s.slots := (rfl)
@[simp] theorem State.updXfm_dis (n : Nat) (f : Xfm → Xfm) : (s.updXfm n f).dis = s.dis := (rfl)
@[simp] theorem State.updXfm_layers (n : Nat) (f : Xfm → Xfm) : (s.updXfm n f).layers = s.layers := (rfl)
@[simp] theorem State.updXfm_mem (n : Nat) (f : Xfm → Xfm) : (s.updXfm n f).mem = s.mem := (rfl)
@[simp] theorem State.updXfm_dma (n : Nat) (f : Xfm → Xfm) : (s.updXfm n f).dma = s.dma := (rfl)
@[simp] theorem State.updXfm_rst (n : Nat) (f : Xfm → Xfm) : (s.updXfm n f).rst = s.rst := (rfl)
@[simp] theorem State.updXfm_stk (n : Nat) (f : Xfm → Xfm) : (s.updXfm n f).stk = s.stk := (rfl)
@[simp] theorem State.updXfm_cmp (n : Nat) (f : Xfm → Xfm) : (s.updXfm n f).cmp = s.cmp := (rfl)
@[simp] theorem State.updXfm_pkg (n : Nat) (f : Xfm → Xfm) : (s.updXfm n f).pkg = s.pkg := (rfl)
@[simp] theorem State.rd_updXfm (n : Nat) (f : Xfm → Xfm) (adr : Nat) : (s.updXfm n f).rd adr = s.rd adr := (rfl)
@[simp] theorem State.fld_updXfm (n : Nat) (f : Xfm → Xfm) (adr : Nat) (fd : Fld) : (s.updXfm n f).fld adr fd = s.fld adr fd := (rfl)
@[simp] theorem State.actv_updXfm (n : Nat) (f : Xfm → Xfm) (adr : Nat) : (s.updXfm n f).actv adr = s.actv adr := (rfl)

end Sys2Proof.Machine
end

