-- ==== Sys2Proof/Laws/Regs.lean ====
section
/-! SUPPORT. Laws of registers: what a read gives after a write, field by field, and what raising an event leaves alone. -/

set_option Elab.async false

namespace Sys2Proof.Machine

/-! ### Whole registers -/

/-- A register read after a register write. -/
theorem State.rd_wr (s : State) (a b : Nat) (v : Word) : (s.wr a v).rd b = if b = a then v else s.rd b := by
  unfold State.rd State.wr
  by_cases h : b = a
  · subst h; simp
  · simp [h, SMap.get_set_ne _ _ _ _ h]

@[simp] theorem State.rd_wr_same (s : State) (a : Nat) (v : Word) : (s.wr a v).rd a = v := by simp [State.rd_wr]

theorem State.rd_wr_ne (s : State) {a b : Nat} (v : Word) (h : b ≠ a) : (s.wr a v).rd b = s.rd b := by
  simp [State.rd_wr, h]

/-- Two states with the same register table read alike. -/
theorem State.rd_congr {s t : State} (h : t.regs = s.regs) (a : Nat) : t.rd a = s.rd a := by unfold State.rd; rw [h]

theorem State.fld_congr {s t : State} (h : t.regs = s.regs) (a : Nat) (f : Fld) : t.fld a f = s.fld a f := by
  unfold State.fld; rw [State.rd_congr h]

/-! ### Fields -/

theorem State.rd_setFld (s : State) (a b : Nat) (f : Fld) (v : Nat) :
    (s.setFld a f v).rd b = if b = a then fset (s.rd a) f v else s.rd b := State.rd_wr s a b _

theorem State.rd_setFld_ne (s : State) {a b : Nat} (f : Fld) (v : Nat) (h : b ≠ a) : (s.setFld a f v).rd b = s.rd b := by
  simp [State.rd_setFld, h]

theorem State.rd_setFlds (s : State) (a b : Nat) (l : List (Fld × Nat)) :
    (s.setFlds a l).rd b = if b = a then fsets (s.rd a) l else s.rd b := State.rd_wr s a b _

theorem State.rd_setFlds_ne (s : State) {a b : Nat} (l : List (Fld × Nat)) (h : b ≠ a) : (s.setFlds a l).rd b = s.rd b := by
  simp [State.rd_setFlds, h]

/-- A field reads what was put into it. -/
theorem State.fld_setFld_same (s : State) (a : Nat) (f : Fld) (v : Nat) (h : f.lo + f.w ≤ 64) :
    (s.setFld a f v).fld a f = v % 2 ^ f.w := by
  unfold State.fld; rw [State.rd_setFld, if_pos rfl, fget_fset_same _ _ _ h]

theorem State.fld_setFld_reg (s : State) {a b : Nat} (f g : Fld) (v : Nat) (h : b ≠ a) :
    (s.setFld a f v).fld b g = s.fld b g := by unfold State.fld; rw [State.rd_setFld_ne s f v h]

theorem State.fld_setFld_fld (s : State) (a b : Nat) (f g : Fld) (v : Nat) (h : f.lo + f.w ≤ 64)
    (hd : g.lo + g.w ≤ f.lo ∨ f.lo + f.w ≤ g.lo) : (s.setFld a f v).fld b g = s.fld b g := by
  unfold State.fld; rw [State.rd_setFld]
  split
  · rename_i e; subst e; exact fget_fset_ne _ _ _ _ h hd
  · rfl

theorem State.fld_setFlds_reg (s : State) {a b : Nat} (l : List (Fld × Nat)) (g : Fld) (h : b ≠ a) :
    (s.setFlds a l).fld b g = s.fld b g := by unfold State.fld; rw [State.rd_setFlds_ne s l h]

/-- A saturated number fits its width. -/
theorem satN_mod (w n : Nat) : satN w n % 2 ^ w = satN w n := by
  have : 0 < 2 ^ w := Nat.two_pow_pos w
  apply Nat.mod_eq_of_lt
  unfold satN
  split <;> omega

/-- A saturating counter after an addition. -/
theorem State.fld_addSat_same (s : State) (a : Nat) (f : Fld) (n : Nat) (h : f.lo + f.w ≤ 64) :
    (s.addSat a f n).fld a f = satN f.w (s.fld a f + n) := by
  unfold State.addSat
  rw [State.fld_setFld_same _ _ _ _ h, satN_mod]

/-- A counter that wraps, after an addition. -/
theorem State.fld_addMod_same (s : State) (a : Nat) (f : Fld) (n : Nat) (h : f.lo + f.w ≤ 64) :
    (s.addMod a f n).fld a f = (s.fld a f + n) % 2 ^ f.w := by
  unfold State.addMod
  rw [State.fld_setFld_same _ _ _ _ h]

/-! ### Raising an event (R523 to R529)

An occurrence touches the registers of the EVT window, the event controller, the vectors, host memory and what the device has sent,
and nothing else. -/

/-- The state with all that an event may touch taken out of it: registers, event controller, vectors, host memory and what the device
has sent. -/
def State.sansEvt (s : State) : State :=
  { s with regs := [], evt := ⟨0, 0, [], [], 0⟩, hif := { s.hif with vecs := [] }, hostMem := [], outs := [] }

/-- An update in the manner of an event of source `src`: it leaves all but those parts alone, and every register outside `evtRegs`. -/
def evtOnly (s t : State) (src : Nat) : Prop := t.sansEvt = s.sansEvt ∧ ∀ a, a ∉ evtRegs src → t.rd a = s.rd a

theorem evtOnly.refl (s : State) (src : Nat) : evtOnly s s src := ⟨rfl, fun _ _ => rfl⟩

theorem evtOnly.trans {s t u : State} {src : Nat} (h : evtOnly s t src) (k : evtOnly t u src) : evtOnly s u src :=
  ⟨k.1.trans h.1, fun a ha => (k.2 a ha).trans (h.2 a ha)⟩

theorem evtOnly.wr (s : State) (src a : Nat) (w : Word) (ha : a ∈ evtRegs src) : evtOnly s (s.wr a w) src :=
  ⟨rfl, fun _ hb => State.rd_wr_ne s w fun e => hb (e ▸ ha)⟩

theorem evtOnly.setFlds (s : State) (src a : Nat) (l : List (Fld × Nat)) (ha : a ∈ evtRegs src) :
    evtOnly s (s.setFlds a l) src := evtOnly.wr s src a _ ha

theorem evtOnly.setFld (s : State) (src a : Nat) (f : Fld) (v : Nat) (ha : a ∈ evtRegs src) :
    evtOnly s (s.setFld a f v) src := evtOnly.wr s src a _ ha

theorem evtOnly.addMod (s : State) (src a : Nat) (f : Fld) (n : Nat) (ha : a ∈ evtRegs src) :
    evtOnly s (s.addMod a f n) src := evtOnly.wr s src a _ ha

theorem evtOnly.addSat (s : State) (src a : Nat) (f : Fld) (n : Nat) (ha : a ∈ evtRegs src) :
    evtOnly s (s.addSat a f n) src := evtOnly.wr s src a _ ha

theorem evtOnly.onEvt (s : State) (src : Nat) (f : Evt → Evt) : evtOnly s (s.onEvt f) src := ⟨rfl, fun _ _ => rfl⟩

theorem evtOnly.send (s : State) (src : Nat) (o : Out) : evtOnly s (s.send o) src := ⟨rfl, fun _ _ => rfl⟩

theorem evtOnly.setVec (s : State) (src v : Nat) (x : Vec) : evtOnly s (s.setVec v x) src := ⟨rfl, fun _ _ => rfl⟩

theorem evtOnly.hostWrite (s : State) (src a : Nat) (bs : List Byte) : evtOnly s (s.hostWrite a bs) src := ⟨rfl, fun _ _ => rfl⟩

theorem evtOnly.signal (s : State) (src v : Nat) : evtOnly s (s.signal v) src := by
  unfold State.signal
  simp only
  split
  · exact evtOnly.setVec s src v _
  · exact evtOnly.trans (evtOnly.setVec s src v _) (evtOnly.send _ src _)

theorem evtOnly.ringPut (s : State) (src src' : Nat) (obj : Option Nat) (code detail : Nat) (inj : Bool) :
    evtOnly s (s.ringPut src' obj code detail inj) src := by
  have hSeq : rEVT_SEQ ∈ evtRegs src := by simp [evtRegs]
  have hStat : rEVT_STAT ∈ evtRegs src := by simp [evtRegs]
  have hIdx : rEVT_RING_IDX ∈ evtRegs src := by simp [evtRegs]
  unfold State.ringPut
  simp only
  split
  · split
    · refine evtOnly.trans ?_ (evtOnly.setFld _ src _ _ _ hIdx)
      refine evtOnly.trans ?_ (evtOnly.onEvt _ src _)
      refine evtOnly.trans ?_ (evtOnly.hostWrite _ src _ _)
      exact evtOnly.trans (evtOnly.addMod _ src _ _ _ hSeq) (evtOnly.onEvt _ src _)
    · refine evtOnly.trans ?_ (evtOnly.onEvt _ src _)
      refine evtOnly.trans ?_ (evtOnly.addSat _ src _ _ _ hStat)
      exact evtOnly.trans (evtOnly.addMod _ src _ _ _ hSeq) (evtOnly.onEvt _ src _)
  · exact evtOnly.refl s src

/-- Raising a source touches only what `evtOnly` names. -/
theorem evtOnly.raiseWith (s : State) (src : Nat) (obj : Option Nat) (code detail : Nat) (inj : Bool) (lim key : Nat) :
    evtOnly s (s.raiseWith src obj code detail inj lim key) src := by
  have hSrc : rEVT_SRC src ∈ evtRegs src := by simp [evtRegs]
  have hStat : rEVT_STAT ∈ evtRegs src := by simp [evtRegs]
  unfold State.raiseWith
  simp only
  split
  · split
    · refine evtOnly.trans ?_ (evtOnly.onEvt _ src _)
      exact evtOnly.trans (evtOnly.setFlds _ src _ _ hSrc) (evtOnly.addMod _ src _ _ _ hStat)
    · refine evtOnly.trans ?_ (evtOnly.signal _ src _)
      refine evtOnly.trans ?_ (evtOnly.ringPut _ src src _ _ _ _)
      split
      · refine evtOnly.trans ?_ (evtOnly.onEvt _ src _)
        exact evtOnly.trans (evtOnly.setFlds _ src _ _ hSrc) (evtOnly.addMod _ src _ _ _ hStat)
      · refine evtOnly.trans ?_ (evtOnly.onEvt _ src _)
        refine evtOnly.trans ?_ (evtOnly.onEvt _ src _)
        exact evtOnly.trans (evtOnly.setFlds _ src _ _ hSrc) (evtOnly.addMod _ src _ _ _ hStat)
  · refine evtOnly.trans ?_ (evtOnly.onEvt _ src _)
    exact evtOnly.trans (evtOnly.setFlds _ src _ _ hSrc) (evtOnly.addMod _ src _ _ _ hStat)

theorem evtOnly.raise (s : State) (src : Nat) (obj : Option Nat) (code detail : Nat) :
    evtOnly s (s.raise src obj code detail) src := evtOnly.raiseWith s src obj code detail false 0 0

theorem evtOnly.raiseLim (s : State) (us src : Nat) (obj : Option Nat) (code detail key : Nat) :
    evtOnly s (s.raiseLim us src obj code detail key) src := evtOnly.raiseWith s src obj code detail false us key

/-- A register outside the event window reads as before an event, for a source of R522. -/
theorem State.rd_raiseWith (s : State) (src : Nat) (obj : Option Nat) (code detail : Nat) (inj : Bool) (lim key a : Nat)
    (ha : a < 0x10000 ∨ 0x12000 + 8 * src < a) : (s.raiseWith src obj code detail inj lim key).rd a = s.rd a := by
  apply (evtOnly.raiseWith s src obj code detail inj lim key).2
  simp only [evtRegs, List.mem_cons, List.not_mem_nil, or_false, not_or]
  simp only [rEVT_SRC, rEVT_STAT, rEVT_SEQ, rEVT_RING_IDX]
  omega

theorem State.rd_raise (s : State) (src : Nat) (obj : Option Nat) (code detail a : Nat)
    (ha : a < 0x10000 ∨ 0x12000 + 8 * src < a) : (s.raise src obj code detail).rd a = s.rd a :=
  State.rd_raiseWith s src obj code detail false 0 0 a ha

theorem State.rd_raiseLim (s : State) (us src : Nat) (obj : Option Nat) (code detail key a : Nat)
    (ha : a < 0x10000 ∨ 0x12000 + 8 * src < a) : (s.raiseLim us src obj code detail key).rd a = s.rd a :=
  State.rd_raiseWith s src obj code detail false us key a ha

theorem State.fld_raise (s : State) (src : Nat) (obj : Option Nat) (code detail a : Nat) (f : Fld)
    (ha : a < 0x10000 ∨ 0x12000 + 8 * src < a) : (s.raise src obj code detail).fld a f = s.fld a f := by
  unfold State.fld
  rw [State.rd_raise _ _ _ _ _ _ ha]

theorem State.fld_raiseLim (s : State) (us src : Nat) (obj : Option Nat) (code detail key a : Nat) (f : Fld)
    (ha : a < 0x10000 ∨ 0x12000 + 8 * src < a) : (s.raiseLim us src obj code detail key).fld a f = s.fld a f := by
  unfold State.fld
  rw [State.rd_raiseLim _ _ _ _ _ _ _ _ ha]

/-- Outside reset what reaches the device reaches it. -/
theorem State.live_up {s : State} (h : s.glb ≠ 0) (f : State → State) : s.live f = f s := by
  unfold State.live
  rw [if_neg h]

/-- In READY every window responds. -/
theorem State.windowOpen_ready {s : State} (h : s.ready = true) (a : Nat) : s.windowOpen a = true := by
  simp [State.windowOpen, h]

end Sys2Proof.Machine

/-! ### Which registers a change keeps -/

namespace Sys2Proof

open Sys2Proof.Machine

variable {l srcs : List Nat} {s t : State}

theorem regsKept.refl (l srcs : List Nat) (s : State) : regsKept l srcs s s := fun _ _ _ => rfl

theorem regsKept.trans {u : State} (h : regsKept l srcs s t) (k : regsKept l srcs t u) : regsKept l srcs s u :=
  fun a ha hs => (k a ha hs).trans (h a ha hs)

/-- A change of other components keeps every register. -/
theorem regsKept.of_regs {u : State} (e : u.regs = t.regs) (h : regsKept l srcs s t) : regsKept l srcs s u :=
  fun a ha hs => (State.rd_congr e a).trans (h a ha hs)

theorem regsKept.wr {a : Nat} (v : Word) (m : a ∈ l) (h : regsKept l srcs s t) : regsKept l srcs s (t.wr a v) :=
  fun b hb hs => (State.rd_wr_ne t v fun (e : b = a) => hb (e.symm ▸ m)).trans (h b hb hs)

theorem regsKept.setFld {a : Nat} (f : Fld) (v : Nat) (m : a ∈ l) (h : regsKept l srcs s t) : regsKept l srcs s (t.setFld a f v) :=
  regsKept.wr _ m h

theorem regsKept.setFlds {a : Nat} (e : List (Fld × Nat)) (m : a ∈ l) (h : regsKept l srcs s t) : regsKept l srcs s (t.setFlds a e) :=
  regsKept.wr _ m h

theorem regsKept.addMod {a : Nat} (f : Fld) (n : Nat) (m : a ∈ l) (h : regsKept l srcs s t) : regsKept l srcs s (t.addMod a f n) :=
  regsKept.wr _ m h

theorem regsKept.addSat {a : Nat} (f : Fld) (n : Nat) (m : a ∈ l) (h : regsKept l srcs s t) : regsKept l srcs s (t.addSat a f n) :=
  regsKept.wr _ m h

theorem regsKept.raise {src : Nat} (obj : Option Nat) (code detail : Nat) (m : src ∈ srcs) (h : regsKept l srcs s t) :
    regsKept l srcs s (t.raise src obj code detail) :=
  fun b hb hs => ((evtOnly.raise t src obj code detail).2 b (hs src m)).trans (h b hb hs)

theorem regsKept.raiseLim {src : Nat} (us : Nat) (obj : Option Nat) (code detail key : Nat) (m : src ∈ srcs) (h : regsKept l srcs s t) :
    regsKept l srcs s (t.raiseLim us src obj code detail key) :=
  fun b hb hs => ((evtOnly.raiseLim t us src obj code detail key).2 b (hs src m)).trans (h b hb hs)

end Sys2Proof
end

