-- ==== Sys2Proof/Laws/Touches.lean ====
section
/-! SUPPORT. What an operation can do at most: `Touches m s t` says that `t` agrees with `s` in every component of the state outside
the set `m`, that the tables keep their canonical form, and that no fuse is undone; one lemma per operation names its set. -/

set_option Elab.async false

namespace Sys2Proof

open Sys2Proof.Machine


theorem regsOk_set {m : SMap Word} (h : regsOk m) (a : Nat) (v : Word) : regsOk (SMap.set (resetWord a) m a v) := by
  refine ⟨SMap.sorted_set _ m a v h.1, fun e he => ?_⟩
  unfold SMap.set at he
  split at he
  · exact h.2 e (SMap.mem_del.mp he).1
  · next hv =>
    rcases SMap.mem_ins.mp he with rfl | he
    · exact hv
    · exact h.2 e (SMap.mem_del.mp he).1

theorem regsOk_nil : regsOk [] := ⟨rfl, fun _ h => nomatch h⟩

theorem TablesOk.of_eq {s t : State} (h : TablesOk s) (a : t.store = s.store) (b : t.hostMem = s.hostMem) (c : t.flash = s.flash)
    (d : t.regs = s.regs) (e : t.act = s.act) : TablesOk t :=
  ⟨⟨a ▸ h.memories.store, b ▸ h.memories.hostMem, c ▸ h.memories.flash⟩, d ▸ h.regs, e ▸ h.act⟩

theorem FusesOnlyBurn.refl (a : Stk) : FusesOnlyBurn a a := ⟨Nat.le_refl _, Nat.le_refl _, fun _ h => ⟨h, rfl⟩, id⟩

theorem FusesOnlyBurn.trans {a b c : Stk} (h : FusesOnlyBurn a b) (k : FusesOnlyBurn b c) : FusesOnlyBurn a c :=
  ⟨Nat.le_trans h.kFloor k.kFloor, Nat.le_trans h.pFloor k.pFloor,
    fun x e => ⟨(k.locked x (h.locked x e).1).1, ((k.locked x (h.locked x e).1).2).trans (h.locked x e).2⟩, fun e => k.armed (h.armed e)⟩

theorem FusesOnlyBurn.of_eq {a b : Stk} (p : b.kFloor = a.kFloor) (q : b.pFloor = a.pFloor) (r : b.keyHash = a.keyHash)
    (k : b.key = a.key) (z : b.armed = a.armed) : FusesOnlyBurn a b :=
  ⟨Nat.le_of_eq p.symm, Nat.le_of_eq q.symm, fun _ h => ⟨r ▸ h, k⟩, fun h => z ▸ h⟩


theorem Touches.refl (m : Nat) (s : State) : Touches m s s := by
  constructor <;> first | exact fun _ => rfl | exact fun _ _ _ => rfl | exact id | exact FusesOnlyBurn.refl _

theorem Touches.trans {m : Nat} {s t u : State} (h : Touches m s t) (k : Touches m t u) : Touches m s u where
  pending := fun b => (k.pending b).trans (h.pending b)
  regs := fun b => (k.regs b).trans (h.regs b)
  act := fun b => (k.act b).trans (h.act b)
  snap := fun b => (k.snap b).trans (h.snap b)
  staged := fun b => (k.staged b).trans (h.staged b)
  readData := fun b => (k.readData b).trans (h.readData b)
  outs := fun b => (k.outs b).trans (h.outs b)
  time := fun b => (k.time b).trans (h.time b)
  frac := fun b => (k.frac b).trans (h.frac b)
  freeCtr := fun b => (k.freeCtr b).trans (h.freeCtr b)
  store := fun b => (k.store b).trans (h.store b)
  hostMem := fun b => (k.hostMem b).trans (h.hostMem b)
  flash := fun b => (k.flash b).trans (h.flash b)
  evt := fun b => (k.evt b).trans (h.evt b)
  hif := fun b => (k.hif b).trans (h.hif b)
  ctxs := fun b => (k.ctxs b).trans (h.ctxs b)
  billets := fun b => (k.billets b).trans (h.billets b)
  ports := fun b => (k.ports b).trans (h.ports b)
  aside := fun b => (k.aside b).trans (h.aside b)
  served := fun b => (k.served b).trans (h.served b)
  badLines := fun b => (k.badLines b).trans (h.badLines b)
  clk := fun b => (k.clk b).trans (h.clk b)
  plan := fun b => (k.plan b).trans (h.plan b)
  tbs := fun b => (k.tbs b).trans (h.tbs b)
  tdc := fun b => (k.tdc b).trans (h.tdc b)
  cnv := fun b => (k.cnv b).trans (h.cnv b)
  pg := fun b => (k.pg b).trans (h.pg b)
  cal := fun b => (k.cal b).trans (h.cal b)
  ddc := fun b => (k.ddc b).trans (h.ddc b)
  xfm := fun b => (k.xfm b).trans (h.xfm b)
  streams := fun b => (k.streams b).trans (h.streams b)
  frames := fun b => (k.frames b).trans (h.frames b)
  det := fun b => (k.det b).trans (h.det b)
  den := fun b => (k.den b).trans (h.den b)
  tq := fun b => (k.tq b).trans (h.tq b)
  lt := fun b => (k.lt b).trans (h.lt b)
  fm := fun b => (k.fm b).trans (h.fm b)
  bus := fun b => (k.bus b).trans (h.bus b)
  tmr := fun b => (k.tmr b).trans (h.tmr b)
  decs := fun b => (k.decs b).trans (h.decs b)
  au := fun b => (k.au b).trans (h.au b)
  replay := fun b => (k.replay b).trans (h.replay b)
  turf := fun b => (k.turf b).trans (h.turf b)
  clusters := fun b => (k.clusters b).trans (h.clusters b)
  net := fun b => (k.net b).trans (h.net b)
  ave := fun b => (k.ave b).trans (h.ave b)
  slots := fun b => (k.slots b).trans (h.slots b)
  dis := fun b => (k.dis b).trans (h.dis b)
  layers := fun b => (k.layers b).trans (h.layers b)
  mem := fun b => (k.mem b).trans (h.mem b)
  dma := fun b => (k.dma b).trans (h.dma b)
  rst := fun b => (k.rst b).trans (h.rst b)
  stk := fun b => (k.stk b).trans (h.stk b)
  cmp := fun b => (k.cmp b).trans (h.cmp b)
  pkg := fun b => (k.pkg b).trans (h.pkg b)
  glb := fun b a l => (k.glb b a l).trans (h.glb b a l)
  tables := fun x => k.tables (h.tables x)
  fuses := h.fuses.trans k.fuses

theorem testBit_sub {m m' i : Nat} (h : m &&& m' = m) (b : m'.testBit i = false) : m.testBit i = false := by
  rw [← h, Nat.testBit_and, b, Bool.and_false]

theorem Touches.mono {m m' : Nat} {s t : State} (k : Touches m s t) (h : m &&& m' = m) : Touches m' s t where
  pending := fun b => k.pending (testBit_sub h b)
  regs := fun b => k.regs (testBit_sub h b)
  act := fun b => k.act (testBit_sub h b)
  snap := fun b => k.snap (testBit_sub h b)
  staged := fun b => k.staged (testBit_sub h b)
  readData := fun b => k.readData (testBit_sub h b)
  outs := fun b => k.outs (testBit_sub h b)
  time := fun b => k.time (testBit_sub h b)
  frac := fun b => k.frac (testBit_sub h b)
  freeCtr := fun b => k.freeCtr (testBit_sub h b)
  store := fun b => k.store (testBit_sub h b)
  hostMem := fun b => k.hostMem (testBit_sub h b)
  flash := fun b => k.flash (testBit_sub h b)
  evt := fun b => k.evt (testBit_sub h b)
  hif := fun b => k.hif (testBit_sub h b)
  ctxs := fun b => k.ctxs (testBit_sub h b)
  billets := fun b => k.billets (testBit_sub h b)
  ports := fun b => k.ports (testBit_sub h b)
  aside := fun b => k.aside (testBit_sub h b)
  served := fun b => k.served (testBit_sub h b)
  badLines := fun b => k.badLines (testBit_sub h b)
  clk := fun b => k.clk (testBit_sub h b)
  plan := fun b => k.plan (testBit_sub h b)
  tbs := fun b => k.tbs (testBit_sub h b)
  tdc := fun b => k.tdc (testBit_sub h b)
  cnv := fun b => k.cnv (testBit_sub h b)
  pg := fun b => k.pg (testBit_sub h b)
  cal := fun b => k.cal (testBit_sub h b)
  ddc := fun b => k.ddc (testBit_sub h b)
  xfm := fun b => k.xfm (testBit_sub h b)
  streams := fun b => k.streams (testBit_sub h b)
  frames := fun b => k.frames (testBit_sub h b)
  det := fun b => k.det (testBit_sub h b)
  den := fun b => k.den (testBit_sub h b)
  tq := fun b => k.tq (testBit_sub h b)
  lt := fun b => k.lt (testBit_sub h b)
  fm := fun b => k.fm (testBit_sub h b)
  bus := fun b => k.bus (testBit_sub h b)
  tmr := fun b => k.tmr (testBit_sub h b)
  decs := fun b => k.decs (testBit_sub h b)
  au := fun b => k.au (testBit_sub h b)
  replay := fun b => k.replay (testBit_sub h b)
  turf := fun b => k.turf (testBit_sub h b)
  clusters := fun b => k.clusters (testBit_sub h b)
  net := fun b => k.net (testBit_sub h b)
  ave := fun b => k.ave (testBit_sub h b)
  slots := fun b => k.slots (testBit_sub h b)
  dis := fun b => k.dis (testBit_sub h b)
  layers := fun b => k.layers (testBit_sub h b)
  mem := fun b => k.mem (testBit_sub h b)
  dma := fun b => k.dma (testBit_sub h b)
  rst := fun b => k.rst (testBit_sub h b)
  stk := fun b => k.stk (testBit_sub h b)
  cmp := fun b => k.cmp (testBit_sub h b)
  pkg := fun b => k.pkg (testBit_sub h b)
  glb := fun b => k.glb (testBit_sub h b)
  tables := k.tables
  fuses := k.fuses

/-- One more operation after the others. -/
theorem Touches.step {m m' : Nat} {s t u : State} (k : Touches m' t u) (h : m' &&& m = m') (g : Touches m s t) : Touches m s u := g.trans (k.mono h)

theorem Touches.ofSnd {α : Type} {m : Nat} {s t : State} {a : α} {p : α × State} (e : p = (a, t)) (h : Touches m s p.2) : Touches m s t := by
  subst e; exact h

theorem Touches.ofFst {α : Type} {m : Nat} {s t : State} {a : α} {p : State × α} (e : p = (t, a)) (h : Touches m s p.1) : Touches m s t := by
  subst e; exact h

theorem Touches.foldl {β : Type} {m : Nat} {s u : State} {g : State → β → State} {l : List β} (h : ∀ t b, Touches m t (g t b))
    (k : Touches m s u) : Touches m s (l.foldl g u) := by
  induction l generalizing u with
  | nil => exact k
  | cons b l ih => exact ih (k.trans (h u b))

theorem Touches.foldlSnd {α β : Type} {m : Nat} {s : State} {p : α × State} {g : α × State → β → α × State} {l : List β}
    (h : ∀ r b, Touches m r.2 (g r b).2) (k : Touches m s p.2) : Touches m s (l.foldl g p).2 := by
  induction l generalizing p with
  | nil => exact k
  | cons b l ih => exact ih (k.trans (h p b))

theorem Touches.foldlFst {α β : Type} {m : Nat} {s : State} {p : State × α} {g : State × α → β → State × α} {l : List β}
    (h : ∀ r b, Touches m r.1 (g r b).1) (k : Touches m s p.1) : Touches m s (l.foldl g p).1 := by
  induction l generalizing p with
  | nil => exact k
  | cons b l ih => exact ih (k.trans (h p b))

/-- Operations whose result is a command's answer. -/
def TouchesRes (m : Nat) (s : State) (r : Host.Outcome State Fault Refusal) : Prop := ∃ t, r = .next t ∧ Touches m s t

theorem TouchesRes.mono {m m' : Nat} {s : State} {r : Host.Outcome State Fault Refusal} (k : TouchesRes m s r) (h : m &&& m' = m) :
    TouchesRes m' s r :=
  k.elim fun t e => ⟨t, e.1, e.2.mono h⟩

theorem TouchesRes.touches {m : Nat} {s t : State} {r : Host.Outcome State Fault Refusal} (k : TouchesRes m s r) (h : r = .next t) :
    Touches m s t := by
  obtain ⟨u, e, g⟩ := k
  rw [e] at h
  cases h
  exact g

theorem Touches.res {m : Nat} {s t : State} (h : Touches m s t) : TouchesRes m s (.next t) := ⟨t, rfl, h⟩

theorem Touches.stepBy (m' : Nat) {m : Nat} {s t u : State} (k : Touches m' t u) (h : m' &&& m = m') (g : Touches m s t) : Touches m s u :=
  g.trans (k.mono h)

end Sys2Proof
end

