-- ==== Sys2Proof/Laws/TouchesOps.lean ====
section
/-! SUPPORT. What the operations of the shared operations and the store can touch. -/

set_option Elab.async false

namespace Sys2Proof.Machine

/-! ### Machine/Ops.lean -/

-- `State.onRegs` is used for questions only: no operation answers with it.

theorem touches_State.onSnap (s : State) (f : SMap (Option Word) → SMap (Option Word)) :
    Touches mSnap s (State.onSnap s f) := by
  constructor <;> first | exact fun h => absurd h (by decide) | exact fun _ => rfl | exact fun _ a _ => State.rd_congr (by rfl) a | exact fun h => h.of_eq rfl rfl rfl rfl rfl | exact FusesOnlyBurn.of_eq rfl rfl rfl rfl rfl

theorem touches_State.onStaged (s : State) (f : SMap (Option Word) → SMap (Option Word)) :
    Touches mStaged s (State.onStaged s f) := by
  constructor <;> first | exact fun h => absurd h (by decide) | exact fun _ => rfl | exact fun _ a _ => State.rd_congr (by rfl) a | exact fun h => h.of_eq rfl rfl rfl rfl rfl | exact FusesOnlyBurn.of_eq rfl rfl rfl rfl rfl

theorem touches_State.onReadData (s : State) (f : Word → Word) :
    Touches mReadData s (State.onReadData s f) := by
  constructor <;> first | exact fun h => absurd h (by decide) | exact fun _ => rfl | exact fun _ a _ => State.rd_congr (by rfl) a | exact fun h => h.of_eq rfl rfl rfl rfl rfl | exact FusesOnlyBurn.of_eq rfl rfl rfl rfl rfl

theorem touches_State.onTime (s : State) (f : Nat → Nat) :
    Touches mTime s (State.onTime s f) := by
  constructor <;> first | exact fun h => absurd h (by decide) | exact fun _ => rfl | exact fun _ a _ => State.rd_congr (by rfl) a | exact fun h => h.of_eq rfl rfl rfl rfl rfl | exact FusesOnlyBurn.of_eq rfl rfl rfl rfl rfl

theorem touches_State.onFrac (s : State) (f : Nat → Nat) :
    Touches mFrac s (State.onFrac s f) := by
  constructor <;> first | exact fun h => absurd h (by decide) | exact fun _ => rfl | exact fun _ a _ => State.rd_congr (by rfl) a | exact fun h => h.of_eq rfl rfl rfl rfl rfl | exact FusesOnlyBurn.of_eq rfl rfl rfl rfl rfl

theorem touches_State.onFreeCtr (s : State) (f : Nat → Nat) :
    Touches mFreeCtr s (State.onFreeCtr s f) := by
  constructor <;> first | exact fun h => absurd h (by decide) | exact fun _ => rfl | exact fun _ a _ => State.rd_congr (by rfl) a | exact fun h => h.of_eq rfl rfl rfl rfl rfl | exact FusesOnlyBurn.of_eq rfl rfl rfl rfl rfl

theorem touches_State.putStore (s : State) (a : Nat) (bs : List Byte) : Touches mStore s (State.putStore s a bs) := by
  constructor <;> first | exact fun h => absurd h (by decide) | exact fun _ => rfl | exact fun _ _ _ => rfl | exact FusesOnlyBurn.of_eq rfl rfl rfl rfl rfl | skip
  exact fun h => ⟨⟨Memory.wf_write _ bs _ a h.memories.store, h.memories.hostMem, h.memories.flash⟩, h.regs, h.act⟩

theorem touches_State.storeClear (s : State) : Touches mStore s (State.storeClear s) := by
  constructor <;> first | exact fun h => absurd h (by decide) | exact fun _ => rfl | exact fun _ _ _ => rfl | exact FusesOnlyBurn.of_eq rfl rfl rfl rfl rfl | skip
  exact fun h => ⟨⟨rfl, h.memories.hostMem, h.memories.flash⟩, h.regs, h.act⟩

theorem touches_State.flashWrite (s : State) (a : Nat) (bs : List Byte) : Touches mFlash s (State.flashWrite s a bs) := by
  constructor <;> first | exact fun h => absurd h (by decide) | exact fun _ => rfl | exact fun _ _ _ => rfl | exact FusesOnlyBurn.of_eq rfl rfl rfl rfl rfl | skip
  exact fun h => ⟨⟨h.memories.store, h.memories.hostMem, Memory.wf_write _ bs _ a h.memories.flash⟩, h.regs, h.act⟩

theorem touches_State.flashErase (s : State) (a n : Nat) : Touches mFlash s (State.flashErase s a n) := by
  constructor <;> first | exact fun h => absurd h (by decide) | exact fun _ => rfl | exact fun _ _ _ => rfl | exact FusesOnlyBurn.of_eq rfl rfl rfl rfl rfl | skip
  exact fun h => ⟨⟨h.memories.store, h.memories.hostMem, SMap.wf_filter _ _ h.memories.flash⟩, h.regs, h.act⟩

theorem touches_State.onEvt (s : State) (f : Evt → Evt) :
    Touches mEvt s (State.onEvt s f) := by
  constructor <;> first | exact fun h => absurd h (by decide) | exact fun _ => rfl | exact fun _ a _ => State.rd_congr (by rfl) a | exact fun h => h.of_eq rfl rfl rfl rfl rfl | exact FusesOnlyBurn.of_eq rfl rfl rfl rfl rfl

theorem touches_State.onPorts (s : State) (f : SMap Port → SMap Port) :
    Touches mPorts s (State.onPorts s f) := by
  constructor <;> first | exact fun h => absurd h (by decide) | exact fun _ => rfl | exact fun _ a _ => State.rd_congr (by rfl) a | exact fun h => h.of_eq rfl rfl rfl rfl rfl | exact FusesOnlyBurn.of_eq rfl rfl rfl rfl rfl

theorem touches_State.onAside (s : State) (f : SMap Nat → SMap Nat) :
    Touches mAside s (State.onAside s f) := by
  constructor <;> first | exact fun h => absurd h (by decide) | exact fun _ => rfl | exact fun _ a _ => State.rd_congr (by rfl) a | exact fun h => h.of_eq rfl rfl rfl rfl rfl | exact FusesOnlyBurn.of_eq rfl rfl rfl rfl rfl

theorem touches_State.onBadLines (s : State) (f : SMap Nat → SMap Nat) :
    Touches mBadLines s (State.onBadLines s f) := by
  constructor <;> first | exact fun h => absurd h (by decide) | exact fun _ => rfl | exact fun _ a _ => State.rd_congr (by rfl) a | exact fun h => h.of_eq rfl rfl rfl rfl rfl | exact FusesOnlyBurn.of_eq rfl rfl rfl rfl rfl

theorem touches_State.onPlan (s : State) (f : PlanSt → PlanSt) :
    Touches mPlan s (State.onPlan s f) := by
  constructor <;> first | exact fun h => absurd h (by decide) | exact fun _ => rfl | exact fun _ a _ => State.rd_congr (by rfl) a | exact fun h => h.of_eq rfl rfl rfl rfl rfl | exact FusesOnlyBurn.of_eq rfl rfl rfl rfl rfl

theorem touches_State.onTbs (s : State) (f : Tbs → Tbs) :
    Touches mTbs s (State.onTbs s f) := by
  constructor <;> first | exact fun h => absurd h (by decide) | exact fun _ => rfl | exact fun _ a _ => State.rd_congr (by rfl) a | exact fun h => h.of_eq rfl rfl rfl rfl rfl | exact FusesOnlyBurn.of_eq rfl rfl rfl rfl rfl

theorem touches_State.onTdc (s : State) (f : Tdc → Tdc) :
    Touches mTdc s (State.onTdc s f) := by
  constructor <;> first | exact fun h => absurd h (by decide) | exact fun _ => rfl | exact fun _ a _ => State.rd_congr (by rfl) a | exact fun h => h.of_eq rfl rfl rfl rfl rfl | exact FusesOnlyBurn.of_eq rfl rfl rfl rfl rfl

theorem touches_State.onCal (s : State) (f : Cal → Cal) :
    Touches mCal s (State.onCal s f) := by
  constructor <;> first | exact fun h => absurd h (by decide) | exact fun _ => rfl | exact fun _ a _ => State.rd_congr (by rfl) a | exact fun h => h.of_eq rfl rfl rfl rfl rfl | exact FusesOnlyBurn.of_eq rfl rfl rfl rfl rfl

theorem touches_State.onStreams (s : State) (f : SMap (List Smp) → SMap (List Smp)) :
    Touches mStreams s (State.onStreams s f) := by
  constructor <;> first | exact fun h => absurd h (by decide) | exact fun _ => rfl | exact fun _ a _ => State.rd_congr (by rfl) a | exact fun h => h.of_eq rfl rfl rfl rfl rfl | exact FusesOnlyBurn.of_eq rfl rfl rfl rfl rfl

theorem touches_State.onFrames (s : State) (f : SMap (List Frm) → SMap (List Frm)) :
    Touches mFrames s (State.onFrames s f) := by
  constructor <;> first | exact fun h => absurd h (by decide) | exact fun _ => rfl | exact fun _ a _ => State.rd_congr (by rfl) a | exact fun h => h.of_eq rfl rfl rfl rfl rfl | exact FusesOnlyBurn.of_eq rfl rfl rfl rfl rfl

theorem touches_State.onLt (s : State) (f : SMap Lt → SMap Lt) :
    Touches mLt s (State.onLt s f) := by
  constructor <;> first | exact fun h => absurd h (by decide) | exact fun _ => rfl | exact fun _ a _ => State.rd_congr (by rfl) a | exact fun h => h.of_eq rfl rfl rfl rfl rfl | exact FusesOnlyBurn.of_eq rfl rfl rfl rfl rfl

theorem touches_State.onFm (s : State) (f : SMap Fm → SMap Fm) :
    Touches mFm s (State.onFm s f) := by
  constructor <;> first | exact fun h => absurd h (by decide) | exact fun _ => rfl | exact fun _ a _ => State.rd_congr (by rfl) a | exact fun h => h.of_eq rfl rfl rfl rfl rfl | exact FusesOnlyBurn.of_eq rfl rfl rfl rfl rfl

theorem touches_State.onBus (s : State) (f : SMap Bus → SMap Bus) :
    Touches mBus s (State.onBus s f) := by
  constructor <;> first | exact fun h => absurd h (by decide) | exact fun _ => rfl | exact fun _ a _ => State.rd_congr (by rfl) a | exact fun h => h.of_eq rfl rfl rfl rfl rfl | exact FusesOnlyBurn.of_eq rfl rfl rfl rfl rfl

theorem touches_State.onTmr (s : State) (f : SMap Nat → SMap Nat) :
    Touches mTmr s (State.onTmr s f) := by
  constructor <;> first | exact fun h => absurd h (by decide) | exact fun _ => rfl | exact fun _ a _ => State.rd_congr (by rfl) a | exact fun h => h.of_eq rfl rfl rfl rfl rfl | exact FusesOnlyBurn.of_eq rfl rfl rfl rfl rfl

theorem touches_State.onDecs (s : State) (f : SMap (List Dec) → SMap (List Dec)) :
    Touches mDecs s (State.onDecs s f) := by
  constructor <;> first | exact fun h => absurd h (by decide) | exact fun _ => rfl | exact fun _ a _ => State.rd_congr (by rfl) a | exact fun h => h.of_eq rfl rfl rfl rfl rfl | exact FusesOnlyBurn.of_eq rfl rfl rfl rfl rfl

theorem touches_State.onReplay (s : State) (f : SMap (List RRec) → SMap (List RRec)) :
    Touches mReplay s (State.onReplay s f) := by
  constructor <;> first | exact fun h => absurd h (by decide) | exact fun _ => rfl | exact fun _ a _ => State.rd_congr (by rfl) a | exact fun h => h.of_eq rfl rfl rfl rfl rfl | exact FusesOnlyBurn.of_eq rfl rfl rfl rfl rfl

theorem touches_State.onSlots (s : State) (f : SMap TrigSlot → SMap TrigSlot) :
    Touches mSlots s (State.onSlots s f) := by
  constructor <;> first | exact fun h => absurd h (by decide) | exact fun _ => rfl | exact fun _ a _ => State.rd_congr (by rfl) a | exact fun h => h.of_eq rfl rfl rfl rfl rfl | exact FusesOnlyBurn.of_eq rfl rfl rfl rfl rfl

theorem touches_State.onMem (s : State) (f : Mem → Mem) :
    Touches mMem s (State.onMem s f) := by
  constructor <;> first | exact fun h => absurd h (by decide) | exact fun _ => rfl | exact fun _ a _ => State.rd_congr (by rfl) a | exact fun h => h.of_eq rfl rfl rfl rfl rfl | exact FusesOnlyBurn.of_eq rfl rfl rfl rfl rfl

theorem touches_State.onRst (s : State) (f : Rst → Rst) :
    Touches mRst s (State.onRst s f) := by
  constructor <;> first | exact fun h => absurd h (by decide) | exact fun _ => rfl | exact fun _ a _ => State.rd_congr (by rfl) a | exact fun h => h.of_eq rfl rfl rfl rfl rfl | exact FusesOnlyBurn.of_eq rfl rfl rfl rfl rfl

theorem touches_State.onStk (s : State) (f : Stk → Stk) (k : FusesOnlyBurn s.stk (f s.stk)) : Touches mStk s (State.onStk s f) := by
  constructor <;> first | exact fun h => absurd h (by decide) | exact fun _ => rfl | exact fun _ _ _ => rfl | exact fun h => h.of_eq rfl rfl rfl rfl rfl | exact k

theorem touches_State.wr (s : State) (a : Nat) (v : Word) : Touches (mRegs ||| mGlb) s (State.wr s a v) := by
  constructor <;> first | exact fun h => absurd h (by decide) | exact fun _ => rfl | exact fun _ _ _ => rfl | exact FusesOnlyBurn.of_eq rfl rfl rfl rfl rfl | skip
  exact fun h => ⟨⟨h.memories.store, h.memories.hostMem, h.memories.flash⟩, regsOk_set h.regs a v, h.act⟩
theorem touches_State.wr_hi (s : State) (a : Nat) (v : Word) (hi : 0x1000 ≤ a) : Touches mRegs s (State.wr s a v) := by
  constructor <;> first | exact fun h => absurd h (by decide) | exact fun _ => rfl | exact fun _ _ _ => rfl | exact FusesOnlyBurn.of_eq rfl rfl rfl rfl rfl | skip
  · exact fun _ b h => State.rd_wr_ne s v (by omega)
  · exact fun h => ⟨⟨h.memories.store, h.memories.hostMem, h.memories.flash⟩, regsOk_set h.regs a v, h.act⟩

theorem touches_State.setFld (s : State) (a : Nat) (f : Fld) (v : Nat) : Touches (mRegs ||| mGlb) s (State.setFld s a f v) := touches_State.wr s a _
theorem touches_State.setFld_hi (s : State) (a : Nat) (f : Fld) (v : Nat) (hi : 0x1000 ≤ a) : Touches mRegs s (State.setFld s a f v) := touches_State.wr_hi s a _ hi

theorem touches_State.setFlds (s : State) (a : Nat) (l : List (Fld × Nat)) : Touches (mRegs ||| mGlb) s (State.setFlds s a l) := touches_State.wr s a _
theorem touches_State.setFlds_hi (s : State) (a : Nat) (l : List (Fld × Nat)) (hi : 0x1000 ≤ a) : Touches mRegs s (State.setFlds s a l) := touches_State.wr_hi s a _ hi

theorem touches_State.addMod (s : State) (a : Nat) (f : Fld) (n : Nat) : Touches (mRegs ||| mGlb) s (State.addMod s a f n) := touches_State.wr s a _
theorem touches_State.addMod_hi (s : State) (a : Nat) (f : Fld) (n : Nat) (hi : 0x1000 ≤ a) : Touches mRegs s (State.addMod s a f n) := touches_State.wr_hi s a _ hi

theorem touches_State.addSat (s : State) (a : Nat) (f : Fld) (n : Nat) : Touches (mRegs ||| mGlb) s (State.addSat s a f n) := touches_State.wr s a _
theorem touches_State.addSat_hi (s : State) (a : Nat) (f : Fld) (n : Nat) (hi : 0x1000 ≤ a) : Touches mRegs s (State.addSat s a f n) := touches_State.wr_hi s a _ hi

theorem touches_State.commitReg (s : State) (a : Nat) : Touches mAct s (State.commitReg s a) := by
  constructor <;> first | exact fun h => absurd h (by decide) | exact fun _ => rfl | exact fun _ _ _ => rfl | exact FusesOnlyBurn.of_eq rfl rfl rfl rfl rfl | skip
  exact fun h => ⟨⟨h.memories.store, h.memories.hostMem, h.memories.flash⟩, h.regs, regsOk_set h.act a _⟩

theorem touches_State.setAct (s : State) (a : Nat) (v : Word) : Touches mAct s (State.setAct s a v) := by
  constructor <;> first | exact fun h => absurd h (by decide) | exact fun _ => rfl | exact fun _ _ _ => rfl | exact FusesOnlyBurn.of_eq rfl rfl rfl rfl rfl | skip
  exact fun h => ⟨⟨h.memories.store, h.memories.hostMem, h.memories.flash⟩, h.regs, regsOk_set h.act a v⟩

theorem touches_State.wrCodes (s : State) (a : Nat) (v : Word) (strobes : List Fld) :
    Touches (mRegs ||| mGlb) s (State.wrCodes s a v strobes) := by
  unfold State.wrCodes
  split
  · exact Touches.refl _ _
  · exact touches_State.wr s a _
theorem touches_State.wrCodes_hi (s : State) (a : Nat) (v : Word) (strobes : List Fld) (hi : 0x1000 ≤ a) :
    Touches mRegs s (State.wrCodes s a v strobes) := by
  unfold State.wrCodes
  split
  · exact Touches.refl _ _
  · exact touches_State.wr_hi s a _ hi

theorem touches_State.dropStaged (s : State) (p : Path) (a : Nat) :
    Touches mStaged s (State.dropStaged s p a) := by
  constructor <;> first | exact fun h => absurd h (by decide) | exact fun _ => rfl | exact fun _ a _ => State.rd_congr (by rfl) a | exact fun h => h.of_eq rfl rfl rfl rfl rfl | exact FusesOnlyBurn.of_eq rfl rfl rfl rfl rfl

theorem touches_State.fresh (s : State) :
    Touches mFreeCtr s (State.fresh s).2 := by
  unfold State.fresh
  (try dsimp only)
  repeat' (first
    | with_reducible exact Touches.refl _ _
    | ((with_reducible apply Touches.stepBy 0x200 (touches_State.onFreeCtr _ _)); · decide))

theorem touches_State.reach (s : State) (t : Nat) : Touches mTime s (State.reach s t) := by
  unfold State.reach
  split
  · exact Touches.refl _ _
  · constructor <;> first | exact fun h => absurd h (by decide) | exact fun _ => rfl | exact fun _ a _ => State.rd_congr (by rfl) a | exact fun h => h.of_eq rfl rfl rfl rfl rfl | exact FusesOnlyBurn.of_eq rfl rfl rfl rfl rfl

theorem touches_State.clocked {m : Nat} (s : State) (h : State → State) (k : ∀ t, Touches m t (h t)) :
    Touches m s (State.clocked s h) := by
  unfold State.clocked
  split
  · exact Touches.refl _ _
  · exact k s

theorem touches_State.write64 {m : Nat} (hm : mStaged &&& m = mStaged) (s : State) (p : Path) (a : Nat) (h : State → State)
    (k : ∀ t, Touches m t (h t)) : Touches m s (State.write64 s p a h) := by
  unfold State.write64
  split
  · exact ((touches_State.dropStaged s p a).mono hm).trans (k _)
  · exact Touches.refl _ _

theorem touches_State.live {m : Nat} (s : State) (h : State → State) (k : ∀ t, Touches m t (h t)) :
    Touches m s (State.live s h) := by
  unfold State.live
  split
  · exact Touches.refl _ _
  · exact k s

theorem touches_State.send (s : State) (o : Out) :
    Touches mOuts s (State.send s o) := by
  constructor <;> first | exact fun h => absurd h (by decide) | exact fun _ => rfl | exact fun _ a _ => State.rd_congr (by rfl) a | exact fun h => h.of_eq rfl rfl rfl rfl rfl | exact FusesOnlyBurn.of_eq rfl rfl rfl rfl rfl

theorem touches_State.hostWrite (s : State) (a : Nat) (bs : List Byte) : Touches mHostMem s (State.hostWrite s a bs) := by
  constructor <;> first | exact fun h => absurd h (by decide) | exact fun _ => rfl | exact fun _ _ _ => rfl | exact FusesOnlyBurn.of_eq rfl rfl rfl rfl rfl | skip
  exact fun h => ⟨⟨h.memories.store, Memory.wf_write _ bs _ a h.memories.hostMem, h.memories.flash⟩, h.regs, h.act⟩

theorem touches_State.setVec (s : State) (v : Nat) (x : Vec) :
    Touches mHif s (State.setVec s v x) := by
  constructor <;> first | exact fun h => absurd h (by decide) | exact fun _ => rfl | exact fun _ a _ => State.rd_congr (by rfl) a | exact fun h => h.of_eq rfl rfl rfl rfl rfl | exact FusesOnlyBurn.of_eq rfl rfl rfl rfl rfl

theorem touches_State.signal (s : State) (v : Nat) :
    Touches (mOuts ||| mHif) s (State.signal s v) := by
  unfold State.signal
  (try dsimp only)
  repeat' (first
    | with_reducible exact Touches.refl _ _
    | ((with_reducible apply Touches.stepBy 0x4000 (touches_State.setVec _ _ _)); · decide)
    | ((with_reducible apply Touches.stepBy 0x40 (touches_State.send _ _)); · decide)
    | split)

theorem touches_State.ringPut (s : State) (src : Nat) (obj : Option Nat) (code detail : Nat) (inj : Bool) :
    Touches (mRegs ||| mHostMem ||| mEvt) s (State.ringPut s src obj code detail inj) := by
  unfold State.ringPut
  (try dsimp only)
  repeat' (first
    | with_reducible exact Touches.refl _ _
    | ((with_reducible apply Touches.stepBy 0x800 (touches_State.hostWrite _ _ _)); · decide)
    | ((with_reducible apply Touches.stepBy 0x2 (touches_State.addSat_hi _ _ _ _ ?hi)); (case hi => first | decide | (simp only [rEVT_CTRL, rEVT_RING, rEVT_RING_IDX, rEVT_SEQ, rEVT_STAT]; omega) | (split <;> decide) | (split <;> simp only [rEVT_CTRL, rEVT_RING, rEVT_RING_IDX, rEVT_SEQ, rEVT_STAT] <;> omega)); (· decide))
    | ((with_reducible apply Touches.stepBy 0x2 (touches_State.addMod_hi _ _ _ _ ?hi)); (case hi => first | decide | (simp only [rEVT_CTRL, rEVT_RING, rEVT_RING_IDX, rEVT_SEQ, rEVT_STAT]; omega) | (split <;> decide) | (split <;> simp only [rEVT_CTRL, rEVT_RING, rEVT_RING_IDX, rEVT_SEQ, rEVT_STAT] <;> omega)); (· decide))
    | ((with_reducible apply Touches.stepBy 0x2 (touches_State.setFld_hi _ _ _ _ ?hi)); (case hi => first | decide | (simp only [rEVT_CTRL, rEVT_RING, rEVT_RING_IDX, rEVT_SEQ, rEVT_STAT]; omega) | (split <;> decide) | (split <;> simp only [rEVT_CTRL, rEVT_RING, rEVT_RING_IDX, rEVT_SEQ, rEVT_STAT] <;> omega)); (· decide))
    | ((with_reducible apply Touches.stepBy 0x2000 (touches_State.onEvt _ _)); · decide)
    | split)

theorem touches_State.raiseWith (s : State) (src : Nat) (obj : Option Nat) (code detail : Nat) (inj : Bool) (lim key : Nat) :
    Touches mEvent s (State.raiseWith s src obj code detail inj lim key) := by
  unfold State.raiseWith
  (try dsimp only)
  repeat' (first
    | with_reducible exact Touches.refl _ _
    | ((with_reducible apply Touches.stepBy 0x2802 (touches_State.ringPut _ _ _ _ _ _)); · decide)
    | ((with_reducible apply Touches.stepBy 0x4040 (touches_State.signal _ _)); · decide)
    | ((with_reducible apply Touches.stepBy 0x2 (touches_State.addMod_hi _ _ _ _ ?hi)); (case hi => first | decide | (simp only [rEVT_SRC, rEVT_STAT]; omega) | (split <;> decide) | (split <;> simp only [rEVT_SRC, rEVT_STAT] <;> omega)); (· decide))
    | ((with_reducible apply Touches.stepBy 0x2 (touches_State.setFlds_hi _ _ _ ?hi)); (case hi => first | decide | (simp only [rEVT_SRC, rEVT_STAT]; omega) | (split <;> decide) | (split <;> simp only [rEVT_SRC, rEVT_STAT] <;> omega)); (· decide))
    | ((with_reducible apply Touches.stepBy 0x2000 (touches_State.onEvt _ _)); · decide)
    | split)

theorem touches_State.raise (s : State) (src : Nat) (obj : Option Nat) (code : Nat) (detail : Nat) :
    Touches mEvent s (State.raise s src obj code detail) := by
  unfold State.raise
  (try dsimp only)
  repeat' (first
    | with_reducible exact Touches.refl _ _
    | ((with_reducible apply Touches.stepBy 0x6842 (touches_State.raiseWith _ _ _ _ _ _ _ _)); · decide))

theorem touches_State.raiseLim (s : State) (us : Nat) (src : Nat) (obj : Option Nat) (code : Nat)
    (detail : Nat) (key : Nat) :
    Touches mEvent s (State.raiseLim s us src obj code detail key) := by
  unfold State.raiseLim
  (try dsimp only)
  repeat' (first
    | with_reducible exact Touches.refl _ _
    | ((with_reducible apply Touches.stepBy 0x6842 (touches_State.raiseWith _ _ _ _ _ _ _ _)); · decide))

theorem touches_State.lostRecord (s : State) :
    Touches mEvent s (State.lostRecord s) := by
  unfold State.lostRecord
  (try dsimp only)
  repeat' (first
    | with_reducible exact Touches.refl _ _
    | ((with_reducible apply Touches.stepBy 0x6842 (touches_State.raise _ _ _ _ _)); · decide)
    | ((with_reducible apply Touches.stepBy 0x2000 (touches_State.onEvt _ _)); · decide)
    | split)

/-! ### Machine/Store.lean -/

theorem touches_State.setCtx (s : State) (x : Nat) (c : Ctx) :
    Touches mCtxs s (State.setCtx s x c) := by
  constructor <;> first | exact fun h => absurd h (by decide) | exact fun _ => rfl | exact fun _ a _ => State.rd_congr (by rfl) a | exact fun h => h.of_eq rfl rfl rfl rfl rfl | exact FusesOnlyBurn.of_eq rfl rfl rfl rfl rfl

theorem touches_State.updCtx (s : State) (x : Nat) (f : Ctx → Ctx) :
    Touches mCtxs s (State.updCtx s x f) := by
  unfold State.updCtx
  (try dsimp only)
  repeat' (first
    | with_reducible exact Touches.refl _ _
    | ((with_reducible apply Touches.stepBy 0x8000 (touches_State.setCtx _ _ _)); · decide))

theorem touches_State.setBillet (s : State) (b : Nat) (x : Billet) :
    Touches mBillets s (State.setBillet s b x) := by
  constructor <;> first | exact fun h => absurd h (by decide) | exact fun _ => rfl | exact fun _ a _ => State.rd_congr (by rfl) a | exact fun h => h.of_eq rfl rfl rfl rfl rfl | exact FusesOnlyBurn.of_eq rfl rfl rfl rfl rfl

theorem touches_State.poolLow (s0 s : State) :
    Touches mEvent s (State.poolLow s0 s) := by
  unfold State.poolLow
  (try dsimp only)
  repeat' (first
    | with_reducible exact Touches.refl _ _
    | ((with_reducible apply Touches.stepBy 0x6842 (touches_State.raise _ _ _ _ _)); · decide)
    | split)

theorem touches_State.extentLow (s0 s : State) :
    Touches mEvent s (State.extentLow s0 s) := by
  unfold State.extentLow
  (try dsimp only)
  repeat' (first
    | with_reducible exact Touches.refl _ _
    | ((with_reducible apply Touches.stepBy 0x6842 (touches_State.raise _ _ _ _ _)); · decide)
    | split)

theorem touches_State.takeBillet (s : State) (x : Nat) (ring : Bool) :
    Touches (mEvent ||| mFreeCtr ||| mCtxs ||| mBillets) s (State.takeBillet s x ring).2 := by
  unfold State.takeBillet
  (try dsimp only)
  repeat' (first
    | with_reducible exact Touches.refl _ _
    | ((with_reducible apply Touches.stepBy 0x6842 (touches_State.poolLow _ _)); · decide)
    | ((with_reducible apply Touches.stepBy 0x10000 (touches_State.setBillet _ _ _)); · decide)
    | ((with_reducible apply Touches.stepBy 0x8000 (touches_State.updCtx _ _ _)); · decide)
    | ((with_reducible apply Touches.stepBy 0x200 (touches_State.fresh _)); · decide)
    | split
    | with_reducible refine Touches.ofSnd (by assumption) ?_
    | with_reducible refine Touches.ofFst (by assumption) ?_)

theorem touches_State.freeBillet (s : State) (b : Nat) :
    Touches (mRegs ||| mCtxs ||| mBillets) s (State.freeBillet s b) := by
  unfold State.freeBillet
  (try dsimp only)
  repeat' (first
    | with_reducible exact Touches.refl _ _
    | ((with_reducible apply Touches.stepBy 0x10000 (touches_State.setBillet _ _ _)); · decide)
    | ((with_reducible apply Touches.stepBy 0x8000 (touches_State.updCtx _ _ _)); · decide)
    | ((with_reducible apply Touches.stepBy 0x2 (touches_State.addMod_hi _ _ _ _ ?hi)); (case hi => first | decide | (simp only [rSTO_CNT0]; omega) | (split <;> decide) | (split <;> simp only [rSTO_CNT0] <;> omega)); (· decide)))

theorem touches_State.settleBillet (s : State) (b : Nat) :
    Touches (mRegs ||| mCtxs ||| mBillets) s (State.settleBillet s b) := by
  unfold State.settleBillet
  (try dsimp only)
  repeat' (first
    | with_reducible exact Touches.refl _ _
    | ((with_reducible apply Touches.stepBy 0x18002 (touches_State.freeBillet _ _)); · decide)
    | ((with_reducible apply Touches.stepBy 0x10000 (touches_State.setBillet _ _ _)); · decide)
    | split)

theorem touches_State.closeIfDrained (s : State) (x : Nat) :
    Touches mCtxs s (State.closeIfDrained s x) := by
  unfold State.closeIfDrained
  (try dsimp only)
  repeat' (first
    | with_reducible exact Touches.refl _ _
    | ((with_reducible apply Touches.stepBy 0x8000 (touches_State.setCtx _ _ _)); · decide)
    | split)

theorem touches_State.settle (s : State) (x : Nat) :
    Touches (mRegs ||| mCtxs ||| mBillets) s (State.settle s x) := by
  unfold State.settle
  (try dsimp only)
  repeat' (first
    | with_reducible exact Touches.refl _ _
    | ((with_reducible apply Touches.stepBy 0x8000 (touches_State.closeIfDrained _ _)); · decide)
    | ((with_reducible apply Touches.stepBy 0x18002 (touches_State.settleBillet _ _)); · decide)
    | ((with_reducible apply Touches.stepBy 0x8000 (touches_State.updCtx _ _ _)); · decide)
    | ((with_reducible refine Touches.foldl ?_ ?_))
    | ((intro t b); try dsimp only)
    | split
    | (with_reducible constructor <;> first | exact fun h => absurd h (by decide) | exact fun _ => rfl | exact fun _ a _ => State.rd_congr (by rfl) a | exact fun h => h.of_eq rfl rfl rfl rfl rfl | exact FusesOnlyBurn.of_eq rfl rfl rfl rfl rfl))

theorem touches_State.leaveTail (s : State) (x : Nat) :
    Touches (mCtxs ||| mBillets) s (State.leaveTail s x) := by
  unfold State.leaveTail
  (try dsimp only)
  repeat' (first
    | with_reducible exact Touches.refl _ _
    | ((with_reducible apply Touches.stepBy 0x10000 (touches_State.setBillet _ _ _)); · decide)
    | ((with_reducible apply Touches.stepBy 0x8000 (touches_State.updCtx _ _ _)); · decide)
    | split
    | with_reducible refine Touches.ofSnd (by assumption) ?_
    | with_reducible refine Touches.ofFst (by assumption) ?_)

theorem touches_State.storeWrite (s : State) (a : Nat) (bs : List Byte) :
    Touches (mStore ||| mBadLines) s (State.storeWrite s a bs) := by
  unfold State.storeWrite
  (try dsimp only)
  repeat' (first
    | with_reducible exact Touches.refl _ _
    | ((with_reducible apply Touches.stepBy 0x100000 (touches_State.onBadLines _ _)); · decide)
    | ((with_reducible apply Touches.stepBy 0x400 (touches_State.putStore _ _ _)); · decide)
    | ((with_reducible refine Touches.foldl ?_ ?_))
    | ((intro t b); try dsimp only)
    | split)

theorem touches_State.appendTail (x0 : Nat) (s : State) (x2 : Nat) (x3 : List Byte) :
    Touches (mEvent ||| mFreeCtr ||| mStore ||| mCtxs ||| mBillets ||| mBadLines) s (State.appendTail x0 s x2 x3) := by
  induction x0 generalizing s x2 x3 with
  | zero => unfold State.appendTail; exact Touches.refl _ _
  | succ x0 ih =>
    unfold State.appendTail
    (try dsimp only)
    repeat' (first
      | with_reducible exact Touches.refl _ _
      | ((with_reducible apply Touches.stepBy 0x11ee42 (ih _ _ _)); · decide)
      | ((with_reducible apply Touches.stepBy 0x100400 (touches_State.storeWrite _ _ _)); · decide)
      | ((with_reducible apply Touches.stepBy 0x18000 (touches_State.leaveTail _ _)); · decide)
      | ((with_reducible apply Touches.stepBy 0x1ea42 (touches_State.takeBillet _ _ _)); · decide)
      | ((with_reducible apply Touches.stepBy 0x8000 (touches_State.updCtx _ _ _)); · decide)
      | split
      | with_reducible refine Touches.ofSnd (by assumption) ?_
      | with_reducible refine Touches.ofFst (by assumption) ?_
      | split)

theorem touches_State.append (s : State) (x : Nat) (bs : List Byte) :
    Touches (mEvent ||| mFreeCtr ||| mStore ||| mCtxs ||| mBillets ||| mBadLines) s (State.append s x bs) := by
  unfold State.append
  (try dsimp only)
  repeat' (first
    | with_reducible exact Touches.refl _ _
    | ((with_reducible apply Touches.stepBy 0x11ee42 (touches_State.appendTail  _ _ _ _)); · decide))

theorem touches_State.writeRecord (s : State) (x typ devid epoch seq time fine flags items : Nat) (pre : List Byte)
    (ring : List Ext) (post : List Byte) :
    Touches (mEvent ||| mFreeCtr ||| mStore ||| mCtxs ||| mBillets ||| mBadLines) s (State.writeRecord s x typ devid epoch seq time fine flags items pre ring post) := by
  unfold State.writeRecord
  (try dsimp only)
  repeat' (first
    | with_reducible exact Touches.refl _ _
    | ((with_reducible apply Touches.stepBy 0x11ee42 (touches_State.append _ _ _)); · decide)
    | ((with_reducible apply Touches.stepBy 0x8000 (touches_State.updCtx _ _ _)); · decide)
    | ((with_reducible refine Touches.foldl ?_ ?_))
    | ((with_reducible refine Touches.foldlFst ?_ ?_))
    | ((intro t b); try dsimp only)
    | split)

theorem touches_State.publish (s : State) (x d : Nat) (e : Ext) :
    Touches (mHostMem ||| mCtxs) s (State.publish s x d e) := by
  unfold State.publish
  (try dsimp only)
  repeat' (first
    | with_reducible exact Touches.refl _ _
    | ((with_reducible apply Touches.stepBy 0x8000 (touches_State.setCtx _ _ _)); · decide)
    | ((with_reducible apply Touches.stepBy 0x800 (touches_State.hostWrite _ _ _)); · decide)
    | (with_reducible constructor <;> first | exact fun h => absurd h (by decide) | exact fun _ => rfl | exact fun _ a _ => State.rd_congr (by rfl) a | exact fun h => h.of_eq rfl rfl rfl rfl rfl | exact FusesOnlyBurn.of_eq rfl rfl rfl rfl rfl))

theorem touches_State.zcAdvance (x0 : Nat) (s : State) (x2 : Nat) :
    Touches (mEvent ||| mCtxs ||| mBillets) s (State.zcAdvance x0 s x2) := by
  induction x0 generalizing s x2 with
  | zero => unfold State.zcAdvance; exact Touches.refl _ _
  | succ x0 ih =>
    unfold State.zcAdvance
    (try dsimp only)
    repeat' (first
      | with_reducible exact Touches.refl _ _
      | ((with_reducible apply Touches.stepBy 0x1e842 (ih _ _)); · decide)
      | ((with_reducible apply Touches.stepBy 0x8800 (touches_State.publish _ _ _ _)); · decide)
      | ((with_reducible apply Touches.stepBy 0x10000 (touches_State.setBillet _ _ _)); · decide)
      | ((with_reducible apply Touches.stepBy 0x8000 (touches_State.updCtx _ _ _)); · decide)
      | ((with_reducible apply Touches.stepBy 0x6842 (touches_State.raise _ _ _ _ _)); · decide)
      | split
      | with_reducible refine Touches.ofSnd (by assumption) ?_
      | with_reducible refine Touches.ofFst (by assumption) ?_
      | split)

theorem touches_State.zcRun (s : State) (x : Nat) :
    Touches (mEvent ||| mCtxs ||| mBillets) s (State.zcRun s x) := by
  unfold State.zcRun
  (try dsimp only)
  repeat' (first
    | with_reducible exact Touches.refl _ _
    | ((with_reducible apply Touches.stepBy 0x1e842 (touches_State.zcAdvance  _ _ _)); · decide))

theorem touches_State.afterWrite (s0 s : State) (x : Nat) :
    Touches (mEvent ||| mCtxs ||| mBillets) s (State.afterWrite s0 s x) := by
  unfold State.afterWrite
  (try dsimp only)
  repeat' (first
    | with_reducible exact Touches.refl _ _
    | ((with_reducible apply Touches.stepBy 0x1e842 (touches_State.zcRun _ _)); · decide)
    | ((with_reducible apply Touches.stepBy 0x18002 (touches_State.settle _ _)); · decide)
    | ((with_reducible apply Touches.stepBy 0x6842 (touches_State.extentLow _ _)); · decide))

theorem touches_State.raiseReq (s : State) (x : Nat) (x0 : Option EvReq) :
    Touches mEvent s (State.raiseReq s x x0) := by
  unfold State.raiseReq
  split
  all_goals (try dsimp only)
  all_goals repeat' (first
    | with_reducible exact Touches.refl _ _
    | ((with_reducible apply Touches.stepBy 0x6842 (touches_State.raiseLim _ _ _ _ _ _ _)); · decide)
    | split
    | split)

theorem touches_State.pad (s : State) (x : Nat) :
    Touches (mEvent ||| mFreeCtr ||| mStore ||| mCtxs ||| mBillets ||| mBadLines) s (State.pad s x) := by
  unfold State.pad
  (try dsimp only)
  repeat' (first
    | with_reducible exact Touches.refl _ _
    | ((with_reducible apply Touches.stepBy 0x1e842 (touches_State.afterWrite _ _ _)); · decide)
    | ((with_reducible apply Touches.stepBy 0x11ee42 (touches_State.writeRecord _ _ _ _ _ _ _ _ _ _ _ _ _)); · decide)
    | split
    | with_reducible refine Touches.ofSnd (by assumption) ?_
    | with_reducible refine Touches.ofFst (by assumption) ?_)

theorem touches_State.flushCtx (s : State) (x : Nat) :
    Touches (mEvent ||| mFreeCtr ||| mStore ||| mCtxs ||| mBillets ||| mBadLines) s (State.flushCtx s x) := by
  unfold State.flushCtx
  (try dsimp only)
  repeat' (first
    | with_reducible exact Touches.refl _ _
    | ((with_reducible apply Touches.stepBy 0x11ee42 (touches_State.pad _ _)); · decide)
    | ((with_reducible apply Touches.stepBy 0x1e842 (touches_State.zcRun _ _)); · decide)
    | ((with_reducible apply Touches.stepBy 0x18000 (touches_State.leaveTail _ _)); · decide)
    | ((with_reducible apply Touches.stepBy 0x18002 (touches_State.settle _ _)); · decide)
    | split
    | with_reducible refine Touches.ofSnd (by assumption) ?_
    | with_reducible refine Touches.ofFst (by assumption) ?_)

theorem touches_State.putFault (s : State) (x : Nat) (f : FaultRec) :
    Touches (mEvent ||| mFreeCtr ||| mStore ||| mCtxs ||| mBillets ||| mBadLines) s (State.putFault s x f) := by
  unfold State.putFault
  (try dsimp only)
  repeat' (first
    | with_reducible exact Touches.refl _ _
    | ((with_reducible apply Touches.stepBy 0x11ee42 (touches_State.flushCtx _ _)); · decide)
    | ((with_reducible apply Touches.stepBy 0x6842 (touches_State.raiseReq _ _ _)); · decide)
    | ((with_reducible apply Touches.stepBy 0x1e842 (touches_State.afterWrite _ _ _)); · decide)
    | ((with_reducible apply Touches.stepBy 0x11ee42 (touches_State.writeRecord _ _ _ _ _ _ _ _ _ _ _ _ _)); · decide)
    | ((with_reducible apply Touches.stepBy 0x8000 (touches_State.updCtx _ _ _)); · decide)
    | split)

theorem touches_State.fault (s : State) (x code source detail more : Nat) (ev : Option EvReq) :
    Touches (mEvent ||| mFreeCtr ||| mStore ||| mCtxs ||| mBillets ||| mBadLines) s (State.fault s x code source detail more ev) := by
  unfold State.fault
  (try dsimp only)
  repeat' (first
    | with_reducible exact Touches.refl _ _
    | ((with_reducible apply Touches.stepBy 0x11ee42 (touches_State.putFault _ _ _)); · decide)
    | ((with_reducible apply Touches.stepBy 0x8000 (touches_State.updCtx _ _ _)); · decide)
    | ((with_reducible apply Touches.stepBy 0x8000 (touches_State.setCtx _ _ _)); · decide)
    | split)

theorem touches_State.putHeld (x0 : Nat) (s : State) (x2 : Nat) :
    Touches (mEvent ||| mFreeCtr ||| mStore ||| mCtxs ||| mBillets ||| mBadLines) s (State.putHeld x0 s x2) := by
  induction x0 generalizing s x2 with
  | zero => unfold State.putHeld; exact Touches.refl _ _
  | succ x0 ih =>
    unfold State.putHeld
    (try dsimp only)
    repeat' (first
      | with_reducible exact Touches.refl _ _
      | ((with_reducible apply Touches.stepBy 0x11ee42 (ih _ _)); · decide)
      | ((with_reducible apply Touches.stepBy 0x11ee42 (touches_State.putFault _ _ _)); · decide)
      | ((with_reducible apply Touches.stepBy 0x8000 (touches_State.updCtx _ _ _)); · decide)
      | split
      | with_reducible refine Touches.ofSnd (by assumption) ?_
      | with_reducible refine Touches.ofFst (by assumption) ?_
      | split)

theorem touches_State.loseItems (s : State) (x n : Nat) :
    Touches mCtxs s (State.loseItems s x n) := by
  unfold State.loseItems
  (try dsimp only)
  repeat' (first
    | with_reducible exact Touches.refl _ _
    | ((with_reducible apply Touches.stepBy 0x8000 (touches_State.updCtx _ _ _)); · decide))

theorem touches_State.flagCtx (s : State) (x fl : Nat) :
    Touches mCtxs s (State.flagCtx s x fl) := by
  unfold State.flagCtx
  (try dsimp only)
  repeat' (first
    | with_reducible exact Touches.refl _ _
    | ((with_reducible apply Touches.stepBy 0x8000 (touches_State.updCtx _ _ _)); · decide)
    | split)

theorem touches_State.recover (s : State) (x code source detail more : Nat) (ev : Option EvReq) :
    Touches (mEvent ||| mFreeCtr ||| mStore ||| mCtxs ||| mBillets ||| mBadLines) s (State.recover s x code source detail more ev) := by
  unfold State.recover
  (try dsimp only)
  repeat' (first
    | with_reducible exact Touches.refl _ _
    | ((with_reducible apply Touches.stepBy 0x11ee42 (touches_State.fault _ _ _ _ _ _ _)); · decide)
    | ((with_reducible apply Touches.stepBy 0x6842 (touches_State.raiseReq _ _ _)); · decide)
    | ((with_reducible apply Touches.stepBy 0x8000 (touches_State.updCtx _ _ _)); · decide)
    | split)

theorem touches_State.overwrite (x0 : Nat) (s : State) (x2 : Nat) (x3 : Nat) :
    Touches (mRegs ||| mCtxs ||| mBillets) s (State.overwrite x0 s x2 x3) := by
  induction x0 generalizing s x2 x3 with
  | zero => unfold State.overwrite; exact Touches.refl _ _
  | succ x0 ih =>
    unfold State.overwrite
    (try dsimp only)
    repeat' (first
      | with_reducible exact Touches.refl _ _
      | ((with_reducible apply Touches.stepBy 0x18002 (ih _ _ _)); · decide)
      | ((with_reducible apply Touches.stepBy 0x18002 (touches_State.settleBillet _ _)); · decide)
      | ((with_reducible apply Touches.stepBy 0x8000 (touches_State.setCtx _ _ _)); · decide)
      | ((with_reducible refine Touches.foldl ?_ ?_))
      | ((intro t b); try dsimp only)
      | split
      | with_reducible refine Touches.ofSnd (by assumption) ?_
      | with_reducible refine Touches.ofFst (by assumption) ?_
      | split)

theorem touches_State.storeRecord (s : State) (r : Prod) :
    Touches (mEvent ||| mFreeCtr ||| mStore ||| mCtxs ||| mBillets ||| mBadLines) s (State.storeRecord s r) := by
  unfold State.storeRecord
  (try dsimp only)
  repeat' (first
    | with_reducible exact Touches.refl _ _
    | ((with_reducible apply Touches.stepBy 0x1e842 (touches_State.afterWrite _ _ _)); · decide)
    | ((with_reducible apply Touches.stepBy 0x11ee42 (touches_State.writeRecord _ _ _ _ _ _ _ _ _ _ _ _ _)); · decide)
    | ((with_reducible apply Touches.stepBy 0x8000 (touches_State.updCtx _ _ _)); · decide)
    | ((with_reducible apply Touches.stepBy 0x6842 (touches_State.raiseLim _ _ _ _ _ _ _)); · decide)
    | split
    | with_reducible refine Touches.ofSnd (by assumption) ?_
    | with_reducible refine Touches.ofFst (by assumption) ?_)

theorem touches_State.loseRec (s : State) (r : Prod) :
    Touches mCtxs s (State.loseRec s r) := by
  unfold State.loseRec
  (try dsimp only)
  repeat' (first
    | with_reducible exact Touches.refl _ _
    | ((with_reducible apply Touches.stepBy 0x8000 (touches_State.flagCtx _ _ _)); · decide)
    | ((with_reducible apply Touches.stepBy 0x8000 (touches_State.loseItems _ _ _)); · decide))

theorem touches_State.shedOverflow (s : State) (r : Prod) :
    Touches mCtxs s (State.shedOverflow s r) := by
  unfold State.shedOverflow
  (try dsimp only)
  repeat' (first
    | with_reducible exact Touches.refl _ _
    | ((with_reducible apply Touches.stepBy 0x8000 (touches_State.loseRec _ _)); · decide)
    | ((with_reducible apply Touches.stepBy 0x8000 (touches_State.updCtx _ _ _)); · decide))

theorem touches_State.placeAccepted (s : State) (r : Prod) :
    Touches (mEvent ||| mFreeCtr ||| mStore ||| mCtxs ||| mBillets ||| mBadLines) s (State.placeAccepted s r).1 := by
  unfold State.placeAccepted
  (try dsimp only)
  repeat' (first
    | with_reducible exact Touches.refl _ _
    | ((with_reducible apply Touches.stepBy 0x8000 (touches_State.shedOverflow _ _)); · decide)
    | ((with_reducible apply Touches.stepBy 0x11ee42 (touches_State.storeRecord _ _)); · decide)
    | ((with_reducible apply Touches.stepBy 0x18002 (touches_State.overwrite  _ _ _ _)); · decide)
    | ((with_reducible apply Touches.stepBy 0x8000 (touches_State.updCtx _ _ _)); · decide)
    | ((with_reducible apply Touches.stepBy 0x6842 (touches_State.raiseLim _ _ _ _ _ _ _)); · decide)
    | ((with_reducible refine Touches.foldl ?_ ?_))
    | ((with_reducible refine Touches.foldlFst ?_ ?_))
    | ((intro t b); try dsimp only)
    | split
    | with_reducible refine Touches.ofSnd (by assumption) ?_
    | with_reducible refine Touches.ofFst (by assumption) ?_)

theorem touches_State.stallEnds (s : State) (x : Nat) :
    Touches (mRegs ||| mCtxs) s (State.stallEnds s x) := by
  unfold State.stallEnds
  (try dsimp only)
  repeat' (first
    | with_reducible exact Touches.refl _ _
    | ((with_reducible apply Touches.stepBy 0x8000 (touches_State.updCtx _ _ _)); · decide)
    | ((with_reducible apply Touches.stepBy 0x2 (touches_State.addSat_hi _ _ _ _ ?hi)); (case hi => first | decide | (simp only [rADM_CTX_STAT]; omega) | (split <;> decide) | (split <;> simp only [rADM_CTX_STAT] <;> omega)); (· decide))
    | split
    | with_reducible refine Touches.ofSnd (by assumption) ?_
    | with_reducible refine Touches.ofFst (by assumption) ?_)

theorem touches_State.place (s : State) (r : Prod) :
    Touches (mEvent ||| mFreeCtr ||| mStore ||| mCtxs ||| mBillets ||| mBadLines) s (State.place s r).1 := by
  unfold State.place
  (try dsimp only)
  repeat' (first
    | with_reducible exact Touches.refl _ _
    | ((with_reducible apply Touches.stepBy 0x8002 (touches_State.stallEnds _ _)); · decide)
    | ((with_reducible apply Touches.stepBy 0x11ee42 (touches_State.placeAccepted _ _)); · decide)
    | ((with_reducible apply Touches.stepBy 0x8000 (touches_State.loseRec _ _)); · decide)
    | ((with_reducible apply Touches.stepBy 0x8000 (touches_State.updCtx _ _ _)); · decide)
    | ((with_reducible apply Touches.stepBy 0x6842 (touches_State.raiseLim _ _ _ _ _ _ _)); · decide)
    | ((with_reducible apply Touches.stepBy 0x2 (touches_State.addSat_hi _ _ _ _ ?hi)); (case hi => first | decide | (simp only [rADM_CTX_STAT]; omega) | (split <;> decide) | (split <;> simp only [rADM_CTX_STAT] <;> omega)); (· decide))
    | split
    | with_reducible refine Touches.ofSnd (by assumption) ?_
    | with_reducible refine Touches.ofFst (by assumption) ?_
    | (with_reducible constructor <;> first | exact fun h => absurd h (by decide) | exact fun _ => rfl | exact fun _ a _ => State.rd_congr (by rfl) a | exact fun h => h.of_eq rfl rfl rfl rfl rfl | exact FusesOnlyBurn.of_eq rfl rfl rfl rfl rfl))

theorem touches_State.openCtx (s : State) (x : Nat) (entry : List Word) (runtime : Bool) (plat : Nat) :
    Touches (mEvent ||| mCtxs) s (State.openCtx s x entry runtime plat) := by
  unfold State.openCtx
  (try dsimp only)
  repeat' (first
    | with_reducible exact Touches.refl _ _
    | ((with_reducible apply Touches.stepBy 0x6842 (touches_State.poolLow _ _)); · decide)
    | ((with_reducible apply Touches.stepBy 0x8000 (touches_State.setCtx _ _ _)); · decide)
    | split)

theorem touches_State.drainCtx (s : State) (x : Nat) :
    Touches (mEvent ||| mFreeCtr ||| mStore ||| mCtxs ||| mBillets ||| mBadLines) s (State.drainCtx s x) := by
  unfold State.drainCtx
  (try dsimp only)
  repeat' (first
    | with_reducible exact Touches.refl _ _
    | ((with_reducible apply Touches.stepBy 0x11ee42 (touches_State.flushCtx _ _)); · decide)
    | ((with_reducible apply Touches.stepBy 0x18002 (touches_State.settle _ _)); · decide)
    | ((with_reducible apply Touches.stepBy 0x8000 (touches_State.updCtx _ _ _)); · decide)
    | split)

theorem touches_State.beginRec (s : State) (x d : Nat) (r : CordRec) :
    Touches mCtxs s (State.beginRec s x d r) := by
  unfold State.beginRec
  (try dsimp only)
  repeat' (first
    | with_reducible exact Touches.refl _ _
    | ((with_reducible apply Touches.stepBy 0x8000 (touches_State.updCtx _ _ _)); · decide)
    | split
    | (with_reducible constructor <;> first | exact fun h => absurd h (by decide) | exact fun _ => rfl | exact fun _ a _ => State.rd_congr (by rfl) a | exact fun h => h.of_eq rfl rfl rfl rfl rfl | exact FusesOnlyBurn.of_eq rfl rfl rfl rfl rfl))

theorem touches_State.deliveredTo (s : State) (x d p : Nat) :
    Touches mCtxs s (State.deliveredTo s x d p) := by
  unfold State.deliveredTo
  (try dsimp only)
  repeat' (first
    | with_reducible exact Touches.refl _ _
    | ((with_reducible apply Touches.stepBy 0x8000 (touches_State.updCtx _ _ _)); · decide)
    | (with_reducible constructor <;> first | exact fun h => absurd h (by decide) | exact fun _ => rfl | exact fun _ a _ => State.rd_congr (by rfl) a | exact fun h => h.of_eq rfl rfl rfl rfl rfl | exact FusesOnlyBurn.of_eq rfl rfl rfl rfl rfl))

theorem touches_State.finishTo (s : State) (x d p : Nat) :
    Touches (mRegs ||| mCtxs ||| mBillets) s (State.finishTo s x d p) := by
  unfold State.finishTo
  (try dsimp only)
  repeat' (first
    | with_reducible exact Touches.refl _ _
    | ((with_reducible apply Touches.stepBy 0x18002 (touches_State.settle _ _)); · decide)
    | ((with_reducible apply Touches.stepBy 0x8000 (touches_State.updCtx _ _ _)); · decide)
    | (with_reducible constructor <;> first | exact fun h => absurd h (by decide) | exact fun _ => rfl | exact fun _ a _ => State.rd_congr (by rfl) a | exact fun h => h.of_eq rfl rfl rfl rfl rfl | exact FusesOnlyBurn.of_eq rfl rfl rfl rfl rfl))

theorem touches_State.srExit (s : State) :
    Touches mEvent s (State.srExit s) := by
  unfold State.srExit
  (try dsimp only)
  repeat' (first
    | with_reducible exact Touches.refl _ _
    | ((with_reducible apply Touches.stepBy 0x6842 (touches_State.raise _ _ _ _ _)); · decide)
    | ((with_reducible apply Touches.stepBy 0x2 (touches_State.setFld_hi _ _ _ _ ?hi)); (case hi => first | decide | (simp only [rPWR_CTRL, rTHM_STATUS]; omega) | (split <;> decide) | (split <;> simp only [rPWR_CTRL, rTHM_STATUS] <;> omega)); (· decide))
    | split)

/-! ### Machine/Grid.lean -/

theorem touches_State.toPort (s : State) (p : Nat) (r : Prod) :
    Touches mPorts s (State.toPort s p r) := by
  unfold State.toPort
  (try dsimp only)
  repeat' (first
    | with_reducible exact Touches.refl _ _
    | (with_reducible constructor <;> first | exact fun h => absurd h (by decide) | exact fun _ => rfl | exact fun _ a _ => State.rd_congr (by rfl) a | exact fun h => h.of_eq rfl rfl rfl rfl rfl | exact FusesOnlyBurn.of_eq rfl rfl rfl rfl rfl))

theorem touches_State.dropBeats (s : State) (x d k n : Nat) :
    Touches (mEvent ||| mCtxs) s (State.dropBeats s x d k n) := by
  unfold State.dropBeats
  (try dsimp only)
  repeat' (first
    | with_reducible exact Touches.refl _ _
    | ((with_reducible apply Touches.stepBy 0x8000 (touches_State.loseItems _ _ _)); · decide)
    | ((with_reducible apply Touches.stepBy 0x6842 (touches_State.raiseLim _ _ _ _ _ _ _)); · decide)
    | ((with_reducible apply Touches.stepBy 0x2 (touches_State.addSat_hi _ _ _ _ ?hi)); (case hi => first | decide | (simp only [rGRID_SQ]; omega) | (split <;> decide) | (split <;> simp only [rGRID_SQ] <;> omega)); (· decide)))

theorem touches_State.sendPort (s : State) (rt : Route) (d : Nat) (r : Prod) :
    Touches (mEvent ||| mCtxs ||| mPorts) s (State.sendPort s rt d r) := by
  unfold State.sendPort
  (try dsimp only)
  repeat' (first
    | with_reducible exact Touches.refl _ _
    | ((with_reducible apply Touches.stepBy 0x8000 (touches_State.flagCtx _ _ _)); · decide)
    | ((with_reducible apply Touches.stepBy 0xe842 (touches_State.dropBeats _ _ _ _ _)); · decide)
    | ((with_reducible apply Touches.stepBy 0x20000 (touches_State.toPort _ _ _)); · decide)
    | split
    | (with_reducible constructor <;> first | exact fun h => absurd h (by decide) | exact fun _ => rfl | exact fun _ a _ => State.rd_congr (by rfl) a | exact fun h => h.of_eq rfl rfl rfl rfl rfl | exact FusesOnlyBurn.of_eq rfl rfl rfl rfl rfl))

theorem touches_State.emitRec (s : State) (sq : Nat) (r : Prod) :
    Touches (mEvent ||| mCtxs ||| mPorts) s (State.emitRec s sq r) := by
  unfold State.emitRec
  (try dsimp only)
  repeat' (first
    | with_reducible exact Touches.refl _ _
    | ((with_reducible apply Touches.stepBy 0x2e842 (touches_State.sendPort _ _ _ _)); · decide)
    | ((with_reducible refine Touches.foldl ?_ ?_))
    | ((intro t b); try dsimp only)
    | (with_reducible constructor <;> first | exact fun h => absurd h (by decide) | exact fun _ => rfl | exact fun _ a _ => State.rd_congr (by rfl) a | exact fun h => h.of_eq rfl rfl rfl rfl rfl | exact FusesOnlyBurn.of_eq rfl rfl rfl rfl rfl))

theorem touches_State.loseFrom (s : State) (sq n : Nat) :
    Touches mCtxs s (State.loseFrom s sq n) := by
  unfold State.loseFrom
  (try dsimp only)
  repeat' (first
    | with_reducible exact Touches.refl _ _
    | ((with_reducible apply Touches.stepBy 0x8000 (touches_State.loseItems _ _ _)); · decide)
    | ((with_reducible refine Touches.foldl ?_ ?_))
    | ((intro t b); try dsimp only)
    | split)

theorem touches_State.loseDirect (s : State) (sq n : Nat) :
    Touches mCtxs s (State.loseDirect s sq n) := by
  unfold State.loseDirect
  (try dsimp only)
  repeat' (first
    | with_reducible exact Touches.refl _ _
    | ((with_reducible apply Touches.stepBy 0x8000 (touches_State.loseItems _ _ _)); · decide)
    | ((with_reducible refine Touches.foldl ?_ ?_))
    | ((intro t b); try dsimp only)
    | split
    | with_reducible refine Touches.ofSnd (by assumption) ?_
    | with_reducible refine Touches.ofFst (by assumption) ?_)

end Sys2Proof.Machine
end

