-- ==== Sys2Proof/Laws/TouchesSignal.lean ====
section
/-! SUPPORT. What the operations of the signal path, triggers, acquisition and the Turf can touch. -/

set_option Elab.async false

namespace Sys2Proof.Machine

/-! ### Machine/Cnv.lean -/

theorem touches_State.updCore (s : State) (n : Nat) (f : Cnv → Cnv) :
    Touches mCnv s (State.updCore s n f) := by
  constructor <;> first | exact fun h => absurd h (by decide) | exact fun _ => rfl | exact fun _ a _ => State.rd_congr (by rfl) a | exact fun h => h.of_eq rfl rfl rfl rfl rfl | exact FusesOnlyBurn.of_eq rfl rfl rfl rfl rfl

theorem touches_State.newGeff (s : State) (n : Nat) :
    Touches mCnv s (State.newGeff s n) := by
  unfold State.newGeff
  (try dsimp only)
  repeat' (first
    | with_reducible exact Touches.refl _ _
    | ((with_reducible apply Touches.stepBy 0x2000000 (touches_State.updCore _ _ _)); · decide))

theorem touches_State.windowRestart (s : State) (n : Nat) :
    Touches (mRegs ||| mCnv) s (State.windowRestart s n) := by
  unfold State.windowRestart
  (try dsimp only)
  repeat' (first
    | with_reducible exact Touches.refl _ _
    | ((with_reducible apply Touches.stepBy 0x2 (touches_State.addSat_hi _ _ _ _ ?hi)); (case hi => first | decide | (simp only [rCNV_BG_COUNT]; omega) | (split <;> decide) | (split <;> simp only [rCNV_BG_COUNT] <;> omega)); (· decide))
    | ((with_reducible apply Touches.stepBy 0x2000000 (touches_State.updCore _ _ _)); · decide)
    | split)

theorem touches_State.attRestart (s : State) (n : Nat) :
    Touches (mRegs ||| mCnv) s (State.attRestart s n) := by
  unfold State.attRestart
  (try dsimp only)
  repeat' (first
    | with_reducible exact Touches.refl _ _
    | ((with_reducible apply Touches.stepBy 0x2000002 (touches_State.windowRestart _ _)); · decide)
    | split)

theorem touches_State.wrAtt (n : Nat) (v : Word) (s : State) :
    Touches mRegs s (State.wrAtt n v s) := by
  unfold State.wrAtt
  (try dsimp only)
  repeat' (first
    | with_reducible exact Touches.refl _ _
    | ((with_reducible apply Touches.stepBy 0x2 (touches_State.wrCodes_hi _ _ _ _ ?hi)); (case hi => first | decide | (simp only [rCNV_ATT]; omega) | (split <;> decide) | (split <;> simp only [rCNV_ATT] <;> omega)); (· decide)))

theorem touches_State.attApply (s : State) (n : Nat) :
    Touches (mRegs ||| mAct ||| mTime ||| mCnv ||| mCal) s (State.attApply s n) := by
  unfold State.attApply
  (try dsimp only)
  repeat' (first
    | with_reducible exact Touches.refl _ _
    | ((with_reducible apply Touches.stepBy 0x80 (touches_State.reach _ _)); · decide)
    | ((with_reducible apply Touches.stepBy 0x4 (touches_State.setAct _ _ _)); · decide)
    | ((with_reducible apply Touches.stepBy 0x4 (touches_State.commitReg _ _)); · decide)
    | ((with_reducible apply Touches.stepBy 0x2 (touches_State.setFlds_hi _ _ _ ?hi)); (case hi => first | decide | (simp only [rCAL_STATUS, rCNV_ATT, rCNV_ATT_TIME]; omega) | (split <;> decide) | (split <;> simp only [rCAL_STATUS, rCNV_ATT, rCNV_ATT_TIME] <;> omega)); (· decide))
    | ((with_reducible apply Touches.stepBy 0x8000000 (touches_State.onCal _ _)); · decide)
    | ((with_reducible apply Touches.stepBy 0x2000002 (touches_State.attRestart _ _)); · decide)
    | ((with_reducible apply Touches.stepBy 0x2000000 (touches_State.newGeff _ _)); · decide)
    | split)

theorem touches_State.wrAttcal (n k : Nat) (v : Word) (s : State) :
    Touches mRegs s (State.wrAttcal n k v s) := by
  unfold State.wrAttcal
  (try dsimp only)
  repeat' (first
    | with_reducible exact Touches.refl _ _
    | ((with_reducible apply Touches.stepBy 0x2 (touches_State.wrCodes_hi _ _ _ _ ?hi)); (case hi => first | decide | (simp only [rCNV_ATTCAL]; omega) | (split <;> decide) | (split <;> simp only [rCNV_ATTCAL] <;> omega)); (· decide))
    | split)

theorem touches_State.wrChcorr (n : Nat) (v : Word) (s : State) :
    Touches (mRegs ||| mCnv) s (State.wrChcorr n v s) := by
  unfold State.wrChcorr
  (try dsimp only)
  repeat' (first
    | with_reducible exact Touches.refl _ _
    | ((with_reducible apply Touches.stepBy 0x2 (touches_State.wrCodes_hi _ _ _ _ ?hi)); (case hi => first | decide | (simp only [rCNV_CHCORR]; omega) | (split <;> decide) | (split <;> simp only [rCNV_CHCORR] <;> omega)); (· decide))
    | ((with_reducible apply Touches.stepBy 0x2000000 (touches_State.newGeff _ _)); · decide))

theorem touches_State.clipMark (s : State) (n : Nat) :
    Touches mCnv s (State.clipMark s n) := by
  unfold State.clipMark
  (try dsimp only)
  repeat' (first
    | with_reducible exact Touches.refl _ _
    | ((with_reducible apply Touches.stepBy 0x2000000 (touches_State.updCore _ _ _)); · decide)
    | split)

theorem touches_State.coreBeat (s : State) (n : Nat) (raw : List Int) :
    Touches (mEvent ||| mCnv) s (State.coreBeat s n raw).2 := by
  unfold State.coreBeat
  (try dsimp only)
  repeat' (first
    | with_reducible exact Touches.refl _ _
    | ((with_reducible apply Touches.stepBy 0x6842 (touches_State.raiseLim _ _ _ _ _ _ _)); · decide)
    | ((with_reducible apply Touches.stepBy 0x2 (touches_State.addSat_hi _ _ _ _ ?hi)); (case hi => first | decide | (simp only [rCNV_CLIP]; omega) | (split <;> decide) | (split <;> simp only [rCNV_CLIP] <;> omega)); (· decide))
    | ((with_reducible apply Touches.stepBy 0x2000000 (touches_State.clipMark _ _)); · decide)
    | split)

theorem touches_State.setHold (s : State) (n : Nat) (hold : Bool) (reason : Nat) :
    Touches mEvent s (State.setHold s n hold reason) := by
  unfold State.setHold
  (try dsimp only)
  repeat' (first
    | with_reducible exact Touches.refl _ _
    | ((with_reducible apply Touches.stepBy 0x6842 (touches_State.raise _ _ _ _ _)); · decide)
    | ((with_reducible apply Touches.stepBy 0x2 (touches_State.setFlds_hi _ _ _ ?hi)); (case hi => first | decide | (simp only [rCNV_BG_STATUS]; omega) | (split <;> decide) | (split <;> simp only [rCNV_BG_STATUS] <;> omega)); (· decide))
    | split)

theorem touches_State.bgFreeze (s : State) (n : Nat) :
    Touches (mEvent ||| mCnv) s (State.bgFreeze s n) := by
  unfold State.bgFreeze
  (try dsimp only)
  repeat' (first
    | with_reducible exact Touches.refl _ _
    | ((with_reducible apply Touches.stepBy 0x6842 (touches_State.setHold _ _ _ _)); · decide)
    | ((with_reducible apply Touches.stepBy 0x2000000 (touches_State.updCore _ _ _)); · decide))

theorem touches_State.retireSlice (s : State) (n k : Nat) :
    Touches (mEvent ||| mCnv) s (State.retireSlice s n k) := by
  unfold State.retireSlice
  (try dsimp only)
  repeat' (first
    | with_reducible exact Touches.refl _ _
    | ((with_reducible apply Touches.stepBy 0x6842 (touches_State.raise _ _ _ _ _)); · decide)
    | ((with_reducible apply Touches.stepBy 0x2 (touches_State.setFld_hi _ _ _ _ ?hi)); (case hi => first | decide | (simp only [rCNV_BG_STATUS]; omega) | (split <;> decide) | (split <;> simp only [rCNV_BG_STATUS] <;> omega)); (· decide))
    | ((with_reducible apply Touches.stepBy 0x2006842 (touches_State.bgFreeze _ _)); · decide)
    | ((with_reducible apply Touches.stepBy 0x2000000 (touches_State.updCore _ _ _)); · decide)
    | split)

theorem touches_State.bgStart (s : State) (n : Nat) :
    Touches (mRegs ||| mCtxs ||| mBillets ||| mCnv) s (State.bgStart s n) := by
  unfold State.bgStart
  (try dsimp only)
  repeat' (first
    | with_reducible exact Touches.refl _ _
    | ((with_reducible apply Touches.stepBy 0x18002 (touches_State.settle _ _)); · decide)
    | ((with_reducible apply Touches.stepBy 0x2000000 (touches_State.updCore _ _ _)); · decide)
    | split)

theorem touches_State.wrBg (n : Nat) (v : Word) (s : State) :
    Touches (mEvent ||| mCtxs ||| mBillets ||| mCnv ||| mCal) s (State.wrBg n v s) := by
  unfold State.wrBg
  (try dsimp only)
  repeat' (first
    | with_reducible exact Touches.refl _ _
    | ((with_reducible apply Touches.stepBy 0x2 (touches_State.wrCodes_hi _ _ _ _ ?hi)); (case hi => first | decide | (simp only [rCNV_BG]; omega) | (split <;> decide) | (split <;> simp only [rCNV_BG] <;> omega)); (· decide))
    | ((with_reducible apply Touches.stepBy 0x2 (touches_State.setFld_hi _ _ _ _ ?hi)); (case hi => first | decide | (simp only [rCNV_BG]; omega) | (split <;> decide) | (split <;> simp only [rCNV_BG] <;> omega)); (· decide))
    | ((with_reducible apply Touches.stepBy 0x8000000 (touches_State.onCal _ _)); · decide)
    | ((with_reducible apply Touches.stepBy 0x2018002 (touches_State.bgStart _ _)); · decide)
    | ((with_reducible apply Touches.stepBy 0x6842 (touches_State.setHold _ _ _ _)); · decide)
    | split)

theorem touches_State.wrSlice (n k : Nat) (v : Word) (s : State) :
    Touches mRegs s (State.wrSlice n k v s) := by
  unfold State.wrSlice
  (try dsimp only)
  repeat' (first
    | with_reducible exact Touches.refl _ _
    | ((with_reducible apply Touches.stepBy 0x2 (touches_State.wrCodes_hi _ _ _ _ ?hi)); (case hi => first | decide | (simp only [rCNV_BG, rCNV_SLICE]; omega) | (split <;> decide) | (split <;> simp only [rCNV_BG, rCNV_SLICE] <;> omega)); (· decide))
    | split)

theorem touches_State.bgSettleEnd (s : State) (n : Nat) :
    Touches (mRegs ||| mCtxs ||| mBillets ||| mCnv) s (State.bgSettleEnd s n) := by
  unfold State.bgSettleEnd
  (try dsimp only)
  repeat' (first
    | with_reducible exact Touches.refl _ _
    | ((with_reducible apply Touches.stepBy 0x18002 (touches_State.settle _ _)); · decide)
    | ((with_reducible apply Touches.stepBy 0x2000000 (touches_State.updCore _ _ _)); · decide)
    | split)

theorem touches_State.handover (s : State) (n j f a : Nat) :
    Touches (mEvent ||| mCnv) s (State.handover s n j f a) := by
  unfold State.handover
  (try dsimp only)
  repeat' (first
    | with_reducible exact Touches.refl _ _
    | ((with_reducible apply Touches.stepBy 0x2 (touches_State.addMod_hi _ _ _ _ ?hi)); (case hi => first | decide | (simp only [rCNV_BG_STATUS, rCNV_SLICE]; omega) | (split <;> decide) | (split <;> simp only [rCNV_BG_STATUS, rCNV_SLICE] <;> omega)); (· decide))
    | ((with_reducible apply Touches.stepBy 0x2 (touches_State.setFld_hi _ _ _ _ ?hi)); (case hi => first | decide | (simp only [rCNV_BG_STATUS, rCNV_SLICE]; omega) | (split <;> decide) | (split <;> simp only [rCNV_BG_STATUS, rCNV_SLICE] <;> omega)); (· decide))
    | ((with_reducible apply Touches.stepBy 0x2006842 (touches_State.bgFreeze _ _)); · decide)
    | ((with_reducible apply Touches.stepBy 0x2000000 (touches_State.updCore _ _ _)); · decide)
    | split)

theorem touches_State.handoverReject (s : State) (n f a : Nat) :
    Touches (mEvent ||| mFreeCtr ||| mCnv) s (State.handoverReject s n f a) := by
  unfold State.handoverReject
  (try dsimp only)
  repeat' (first
    | with_reducible exact Touches.refl _ _
    | ((with_reducible apply Touches.stepBy 0x6842 (touches_State.raise _ _ _ _ _)); · decide)
    | ((with_reducible apply Touches.stepBy 0x200 (touches_State.fresh _)); · decide)
    | ((with_reducible apply Touches.stepBy 0x2 (touches_State.addSat_hi _ _ _ _ ?hi)); (case hi => first | decide | (simp only [rCNV_BG_COUNT]; omega) | (split <;> decide) | (split <;> simp only [rCNV_BG_COUNT] <;> omega)); (· decide))
    | ((with_reducible apply Touches.stepBy 0x2006842 (touches_State.retireSlice _ _ _)); · decide)
    | ((with_reducible apply Touches.stepBy 0x2000000 (touches_State.updCore _ _ _)); · decide)
    | ((with_reducible refine Touches.foldl ?_ ?_))
    | ((intro t b); try dsimp only)
    | split
    | with_reducible refine Touches.ofSnd (by assumption) ?_
    | with_reducible refine Touches.ofFst (by assumption) ?_)

theorem touches_State.bgShadowEnd (s : State) (n : Nat) (f a : List (BitVec 12)) :
    Touches (mEvent ||| mFreeCtr ||| mCnv) s (State.bgShadowEnd s n f a) := by
  unfold State.bgShadowEnd
  (try dsimp only)
  repeat' (first
    | with_reducible exact Touches.refl _ _
    | ((with_reducible apply Touches.stepBy 0x2006a42 (touches_State.handoverReject _ _ _ _)); · decide)
    | ((with_reducible apply Touches.stepBy 0x2006842 (touches_State.handover _ _ _ _ _)); · decide)
    | split)

theorem touches_State.quarter (s : State) (num : Int) (den : Nat) :
    Touches mFreeCtr s (State.quarter s num den).2 := by
  unfold State.quarter
  (try dsimp only)
  repeat' (first
    | with_reducible exact Touches.refl _ _
    | ((with_reducible apply Touches.stepBy 0x200 (touches_State.fresh _)); · decide)
    | split
    | with_reducible refine Touches.ofSnd (by assumption) ?_
    | with_reducible refine Touches.ofFst (by assumption) ?_)

theorem touches_State.bgWindowEnd (s : State) (n : Nat) (w : BgWindow) :
    Touches (mEvent ||| mFreeCtr ||| mCnv) s (State.bgWindowEnd s n w) := by
  unfold State.bgWindowEnd
  (try dsimp only)
  repeat' (first
    | with_reducible exact Touches.refl _ _
    | ((with_reducible apply Touches.stepBy 0x2 (touches_State.addSat_hi _ _ _ _ ?hi)); (case hi => first | decide | (simp only [rCNV_BG_COUNT, rCNV_BG_STATUS, rCNV_SLICE]; omega) | (split <;> decide) | (split <;> simp only [rCNV_BG_COUNT, rCNV_BG_STATUS, rCNV_SLICE] <;> omega)); (· decide))
    | ((with_reducible apply Touches.stepBy 0x2 (touches_State.addMod_hi _ _ _ _ ?hi)); (case hi => first | decide | (simp only [rCNV_BG_COUNT, rCNV_BG_STATUS, rCNV_SLICE]; omega) | (split <;> decide) | (split <;> simp only [rCNV_BG_COUNT, rCNV_BG_STATUS, rCNV_SLICE] <;> omega)); (· decide))
    | ((with_reducible apply Touches.stepBy 0x2 (touches_State.setFlds_hi _ _ _ ?hi)); (case hi => first | decide | (simp only [rCNV_BG_COUNT, rCNV_BG_STATUS, rCNV_SLICE]; omega) | (split <;> decide) | (split <;> simp only [rCNV_BG_COUNT, rCNV_BG_STATUS, rCNV_SLICE] <;> omega)); (· decide))
    | ((with_reducible apply Touches.stepBy 0x2 (touches_State.setFld_hi _ _ _ _ ?hi)); (case hi => first | decide | (simp only [rCNV_BG_COUNT, rCNV_BG_STATUS, rCNV_SLICE]; omega) | (split <;> decide) | (split <;> simp only [rCNV_BG_COUNT, rCNV_BG_STATUS, rCNV_SLICE] <;> omega)); (· decide))
    | ((with_reducible apply Touches.stepBy 0x200 (touches_State.quarter _ _ _)); · decide)
    | ((with_reducible apply Touches.stepBy 0x2006842 (touches_State.retireSlice _ _ _)); · decide)
    | ((with_reducible apply Touches.stepBy 0x6842 (touches_State.setHold _ _ _ _)); · decide)
    | ((with_reducible apply Touches.stepBy 0x2000000 (touches_State.updCore _ _ _)); · decide)
    | split
    | with_reducible refine Touches.ofSnd (by assumption) ?_
    | with_reducible refine Touches.ofFst (by assumption) ?_)

theorem touches_State.bgIntervalEnd (s : State) (n : Nat) :
    Touches (mEvent ||| mCtxs ||| mBillets ||| mCnv) s (State.bgIntervalEnd s n) := by
  unfold State.bgIntervalEnd
  (try dsimp only)
  repeat' (first
    | with_reducible exact Touches.refl _ _
    | ((with_reducible apply Touches.stepBy 0x2018002 (touches_State.bgStart _ _)); · decide)
    | ((with_reducible apply Touches.stepBy 0x6842 (touches_State.setHold _ _ _ _)); · decide)
    | ((with_reducible apply Touches.stepBy 0x2000000 (touches_State.updCore _ _ _)); · decide)
    | split)

theorem touches_State.bgRelockStart (s : State) :
    Touches (mRegs ||| mCnv) s (State.bgRelockStart s) := by
  unfold State.bgRelockStart
  (try dsimp only)
  repeat' (first
    | with_reducible exact Touches.refl _ _
    | ((with_reducible apply Touches.stepBy 0x2000002 (touches_State.windowRestart _ _)); · decide)
    | ((with_reducible refine Touches.foldl ?_ ?_))
    | ((intro t b); try dsimp only))

theorem touches_State.bgRelockEnd (s : State) :
    Touches (mRegs ||| mCtxs ||| mBillets ||| mCnv) s (State.bgRelockEnd s) := by
  unfold State.bgRelockEnd
  (try dsimp only)
  repeat' (first
    | with_reducible exact Touches.refl _ _
    | ((with_reducible apply Touches.stepBy 0x2018002 (touches_State.bgStart _ _)); · decide)
    | ((with_reducible refine Touches.foldl ?_ ?_))
    | ((intro t b); try dsimp only)
    | split)

theorem touches_State.bgPlanTouch (s : State) (n : Nat) :
    Touches (mRegs ||| mCtxs ||| mBillets ||| mCnv) s (State.bgPlanTouch s n) := by
  unfold State.bgPlanTouch
  (try dsimp only)
  repeat' (first
    | with_reducible exact Touches.refl _ _
    | ((with_reducible apply Touches.stepBy 0x2 (touches_State.setFld_hi _ _ _ _ ?hi)); (case hi => first | decide | (simp only [rCNV_BG_STATUS]; omega) | (split <;> decide) | (split <;> simp only [rCNV_BG_STATUS] <;> omega)); (· decide))
    | ((with_reducible apply Touches.stepBy 0x2018002 (touches_State.bgStart _ _)); · decide)
    | ((with_reducible apply Touches.stepBy 0x2000002 (touches_State.windowRestart _ _)); · decide)
    | ((with_reducible apply Touches.stepBy 0x2000000 (touches_State.updCore _ _ _)); · decide)
    | split)

/-! ### Machine/Tbs.lean -/

theorem touches_State.setTime40 (s : State) (t : Nat) :
    Touches (mTime ||| mFrac) s (State.setTime40 s t) := by
  unfold State.setTime40
  (try dsimp only)
  repeat' (first
    | with_reducible exact Touches.refl _ _
    | ((with_reducible apply Touches.stepBy 0x100 (touches_State.onFrac _ _)); · decide)
    | ((with_reducible apply Touches.stepBy 0x80 (touches_State.onTime _ _)); · decide))

theorem touches_State.showSlew (s : State) :
    Touches mRegs s (State.showSlew s) := by
  unfold State.showSlew
  (try dsimp only)
  repeat' (first
    | with_reducible exact Touches.refl _ _
    | ((with_reducible apply Touches.stepBy 0x2 (touches_State.setFld_hi _ _ _ _ ?hi)); (case hi => first | decide | (simp only [rTBS_SLEW]; omega) | (split <;> decide) | (split <;> simp only [rTBS_SLEW] <;> omega)); (· decide)))

theorem touches_State.dclkEdge (s : State) :
    Touches (mRegs ||| mTime ||| mFrac ||| mTbs) s (State.dclkEdge s) := by
  unfold State.dclkEdge
  (try dsimp only)
  repeat' (first
    | with_reducible exact Touches.refl _ _
    | ((with_reducible apply Touches.stepBy 0x2 (touches_State.showSlew _)); · decide)
    | ((with_reducible apply Touches.stepBy 0x180 (touches_State.setTime40 _ _)); · decide)
    | ((with_reducible apply Touches.stepBy 0x800000 (touches_State.onTbs _ _)); · decide)
    | split)

theorem touches_State.onPg (s : State) (f : SMap Pg → SMap Pg) :
    Touches mPg s (State.onPg s f) := by
  constructor <;> first | exact fun h => absurd h (by decide) | exact fun _ => rfl | exact fun _ a _ => State.rd_congr (by rfl) a | exact fun h => h.of_eq rfl rfl rfl rfl rfl | exact FusesOnlyBurn.of_eq rfl rfl rfl rfl rfl

theorem touches_State.onCnv (s : State) (f : SMap Cnv → SMap Cnv) :
    Touches mCnv s (State.onCnv s f) := by
  constructor <;> first | exact fun h => absurd h (by decide) | exact fun _ => rfl | exact fun _ a _ => State.rd_congr (by rfl) a | exact fun h => h.of_eq rfl rfl rfl rfl rfl | exact FusesOnlyBurn.of_eq rfl rfl rfl rfl rfl

theorem touches_State.onAu (s : State) (f : SMap Au → SMap Au) :
    Touches mAu s (State.onAu s f) := by
  constructor <;> first | exact fun h => absurd h (by decide) | exact fun _ => rfl | exact fun _ a _ => State.rd_congr (by rfl) a | exact fun h => h.of_eq rfl rfl rfl rfl rfl | exact FusesOnlyBurn.of_eq rfl rfl rfl rfl rfl

theorem touches_State.stepMarks (s : State) (d : Int) :
    Touches (mTdc ||| mCnv ||| mPg) s (State.stepMarks s d) := by
  unfold State.stepMarks
  (try dsimp only)
  repeat' (first
    | with_reducible exact Touches.refl _ _
    | ((with_reducible apply Touches.stepBy 0x2000000 (touches_State.onCnv _ _)); · decide)
    | ((with_reducible apply Touches.stepBy 0x4000000 (touches_State.onPg _ _)); · decide)
    | ((with_reducible apply Touches.stepBy 0x1000000 (touches_State.onTdc _ _)); · decide))

theorem touches_State.stepTime (s : State) (d : Int) :
    Touches (mEvent ||| mTime ||| mFrac ||| mTdc ||| mCnv ||| mPg) s (State.stepTime s d) := by
  unfold State.stepTime
  (try dsimp only)
  repeat' (first
    | with_reducible exact Touches.refl _ _
    | ((with_reducible apply Touches.stepBy 0x7000000 (touches_State.stepMarks _ _)); · decide)
    | ((with_reducible apply Touches.stepBy 0x180 (touches_State.setTime40 _ _)); · decide)
    | ((with_reducible apply Touches.stepBy 0x6842 (touches_State.raise _ _ _ _ _)); · decide)
    | ((with_reducible apply Touches.stepBy 0x2 (touches_State.setFld_hi _ _ _ _ ?hi)); (case hi => first | decide | (simp only [rTBS_STATUS]; omega) | (split <;> decide) | (split <;> simp only [rTBS_STATUS] <;> omega)); (· decide))
    | split)

theorem touches_State.wrStep (s : State) (v : Word) :
    Touches (mEvent ||| mTime ||| mFrac ||| mTbs ||| mTdc ||| mCnv ||| mPg) s (State.wrStep s v) := by
  unfold State.wrStep
  (try dsimp only)
  repeat' (first
    | with_reducible exact Touches.refl _ _
    | ((with_reducible apply Touches.stepBy 0x70069c2 (touches_State.stepTime _ _)); · decide)
    | ((with_reducible apply Touches.stepBy 0x800000 (touches_State.onTbs _ _)); · decide)
    | split)

theorem touches_State.flagOpen (s : State) :
    Touches (mTdc ||| mAu) s (State.flagOpen s) := by
  unfold State.flagOpen
  (try dsimp only)
  repeat' (first
    | with_reducible exact Touches.refl _ _
    | ((with_reducible apply Touches.stepBy 0x10000000000 (touches_State.onAu _ _)); · decide)
    | ((with_reducible apply Touches.stepBy 0x1000000 (touches_State.onTdc _ _)); · decide)
    | split)

theorem touches_State.servoLock (s : State) :
    Touches (mEvent ||| mTbs ||| mTdc ||| mAu) s (State.servoLock s) := by
  unfold State.servoLock
  (try dsimp only)
  repeat' (first
    | with_reducible exact Touches.refl _ _
    | ((with_reducible apply Touches.stepBy 0x10001000000 (touches_State.flagOpen _)); · decide)
    | ((with_reducible apply Touches.stepBy 0x6842 (touches_State.raise _ _ _ _ _)); · decide)
    | ((with_reducible apply Touches.stepBy 0x2 (touches_State.setFld_hi _ _ _ _ ?hi)); (case hi => first | decide | (simp only [rTBS_STATUS]; omega) | (split <;> decide) | (split <;> simp only [rTBS_STATUS] <;> omega)); (· decide))
    | ((with_reducible apply Touches.stepBy 0x800000 (touches_State.onTbs _ _)); · decide))

theorem touches_State.servoHold (s : State) :
    Touches (mEvent ||| mTbs) s (State.servoHold s) := by
  unfold State.servoHold
  (try dsimp only)
  repeat' (first
    | with_reducible exact Touches.refl _ _
    | ((with_reducible apply Touches.stepBy 0x6842 (touches_State.raise _ _ _ _ _)); · decide)
    | ((with_reducible apply Touches.stepBy 0x2 (touches_State.addSat_hi _ _ _ _ ?hi)); (case hi => first | decide | (simp only [rTBS_STATUS]; omega) | (split <;> decide) | (split <;> simp only [rTBS_STATUS] <;> omega)); (· decide))
    | ((with_reducible apply Touches.stepBy 0x2 (touches_State.setFld_hi _ _ _ _ ?hi)); (case hi => first | decide | (simp only [rTBS_STATUS]; omega) | (split <;> decide) | (split <;> simp only [rTBS_STATUS] <;> omega)); (· decide))
    | ((with_reducible apply Touches.stepBy 0x800000 (touches_State.onTbs _ _)); · decide))

theorem touches_State.servoAcquire (s : State) :
    Touches (mRegs ||| mTbs) s (State.servoAcquire s) := by
  unfold State.servoAcquire
  (try dsimp only)
  repeat' (first
    | with_reducible exact Touches.refl _ _
    | ((with_reducible apply Touches.stepBy 0x2 (touches_State.setFld_hi _ _ _ _ ?hi)); (case hi => first | decide | (simp only [rTBS_STATUS]; omega) | (split <;> decide) | (split <;> simp only [rTBS_STATUS] <;> omega)); (· decide))
    | ((with_reducible apply Touches.stepBy 0x800000 (touches_State.onTbs _ _)); · decide))

theorem touches_State.servoDividerHold (s : State) :
    Touches (mEvent ||| mTbs) s (State.servoDividerHold s) := by
  unfold State.servoDividerHold
  (try dsimp only)
  repeat' (first
    | with_reducible exact Touches.refl _ _
    | ((with_reducible apply Touches.stepBy 0x806842 (touches_State.servoHold _)); · decide)
    | split)

theorem touches_State.servoUpdate (s : State) (e : Int) :
    Touches (mEvent ||| mTbs ||| mTdc ||| mAu) s (State.servoUpdate s e) := by
  unfold State.servoUpdate
  (try dsimp only)
  repeat' (first
    | with_reducible exact Touches.refl _ _
    | ((with_reducible apply Touches.stepBy 0x800002 (touches_State.servoAcquire _)); · decide)
    | ((with_reducible apply Touches.stepBy 0x806842 (touches_State.servoHold _)); · decide)
    | ((with_reducible apply Touches.stepBy 0x10001806842 (touches_State.servoLock _)); · decide)
    | ((with_reducible apply Touches.stepBy 0x2 (touches_State.setFld_hi _ _ _ _ ?hi)); (case hi => first | decide | (simp only [rTBS_SERVO, rTBS_STATUS]; omega) | (split <;> decide) | (split <;> simp only [rTBS_SERVO, rTBS_STATUS] <;> omega)); (· decide))
    | ((with_reducible apply Touches.stepBy 0x800000 (touches_State.onTbs _ _)); · decide)
    | split
    | with_reducible refine Touches.ofSnd (by assumption) ?_
    | with_reducible refine Touches.ofFst (by assumption) ?_)

theorem touches_State.servoSteer (s : State) :
    Touches (mRegs ||| mFreeCtr) s (State.servoSteer s) := by
  unfold State.servoSteer
  (try dsimp only)
  repeat' (first
    | with_reducible exact Touches.refl _ _
    | ((with_reducible apply Touches.stepBy 0x200 (touches_State.fresh _)); · decide)
    | ((with_reducible apply Touches.stepBy 0x2 (touches_State.setFld_hi _ _ _ _ ?hi)); (case hi => first | decide | (simp only [rTBS_ADJ]; omega) | (split <;> decide) | (split <;> simp only [rTBS_ADJ] <;> omega)); (· decide))
    | split
    | with_reducible refine Touches.ofSnd (by assumption) ?_
    | with_reducible refine Touches.ofFst (by assumption) ?_)

theorem touches_State.hostSteer (s : State) :
    Touches (mRegs ||| mTbs) s (State.hostSteer s) := by
  unfold State.hostSteer
  (try dsimp only)
  repeat' (first
    | with_reducible exact Touches.refl _ _
    | ((with_reducible apply Touches.stepBy 0x800002 (touches_State.servoAcquire _)); · decide)
    | ((with_reducible apply Touches.stepBy 0x800000 (touches_State.onTbs _ _)); · decide)
    | split)

theorem touches_State.wrAdj (p : Path) (v : Word) (s : State) :
    Touches (mRegs ||| mTbs) s (State.wrAdj p v s) := by
  unfold State.wrAdj
  (try dsimp only)
  repeat' (first
    | with_reducible exact Touches.refl _ _
    | ((with_reducible apply Touches.stepBy 0x800002 (touches_State.hostSteer _)); · decide)
    | ((with_reducible apply Touches.stepBy 0x2 (touches_State.setFld_hi _ _ _ _ ?hi)); (case hi => first | decide | (simp only [rTBS_ADJ]; omega) | (split <;> decide) | (split <;> simp only [rTBS_ADJ] <;> omega)); (· decide))
    | split)

theorem touches_State.wrSlew (p : Path) (v : Word) (s : State) :
    Touches (mRegs ||| mTbs) s (State.wrSlew p v s) := by
  unfold State.wrSlew
  (try dsimp only)
  repeat' (first
    | with_reducible exact Touches.refl _ _
    | ((with_reducible apply Touches.stepBy 0x800002 (touches_State.hostSteer _)); · decide)
    | ((with_reducible apply Touches.stepBy 0x2 (touches_State.showSlew _)); · decide)
    | ((with_reducible apply Touches.stepBy 0x2 (touches_State.setFld_hi _ _ _ _ ?hi)); (case hi => first | decide | (simp only [rTBS_SLEW]; omega) | (split <;> decide) | (split <;> simp only [rTBS_SLEW] <;> omega)); (· decide))
    | ((with_reducible apply Touches.stepBy 0x800000 (touches_State.onTbs _ _)); · decide)
    | split)

theorem touches_State.wrServo (v : Word) (s : State) :
    Touches (mEvent ||| mTbs ||| mTdc ||| mAu) s (State.wrServo v s) := by
  unfold State.wrServo
  (try dsimp only)
  repeat' (first
    | with_reducible exact Touches.refl _ _
    | ((with_reducible apply Touches.stepBy 0x800002 (touches_State.servoAcquire _)); · decide)
    | ((with_reducible apply Touches.stepBy 0x806842 (touches_State.servoHold _)); · decide)
    | ((with_reducible apply Touches.stepBy 0x10001806842 (touches_State.servoLock _)); · decide)
    | ((with_reducible apply Touches.stepBy 0x10001000000 (touches_State.flagOpen _)); · decide)
    | ((with_reducible apply Touches.stepBy 0x2 (touches_State.wrCodes_hi _ _ _ _ ?hi)); (case hi => first | decide | (simp only [rTBS_SERVO, rTBS_STATUS]; omega) | (split <;> decide) | (split <;> simp only [rTBS_SERVO, rTBS_STATUS] <;> omega)); (· decide))
    | ((with_reducible apply Touches.stepBy 0x2 (touches_State.setFld_hi _ _ _ _ ?hi)); (case hi => first | decide | (simp only [rTBS_SERVO, rTBS_STATUS]; omega) | (split <;> decide) | (split <;> simp only [rTBS_SERVO, rTBS_STATUS] <;> omega)); (· decide))
    | split)

theorem touches_State.servoJump (s : State) (e : Int) (jump : Bool) :
    Touches (mEvent ||| mTime ||| mFrac ||| mTbs ||| mTdc ||| mCnv ||| mPg) s (State.servoJump s e jump) := by
  unfold State.servoJump
  (try dsimp only)
  repeat' (first
    | with_reducible exact Touches.refl _ _
    | ((with_reducible apply Touches.stepBy 0x78069c2 (touches_State.wrStep _ _)); · decide)
    | ((with_reducible apply Touches.stepBy 0x2 (touches_State.showSlew _)); · decide)
    | ((with_reducible apply Touches.stepBy 0x800000 (touches_State.onTbs _ _)); · decide)
    | split)

theorem touches_State.ppsUpdate (s : State) (c t : Nat) :
    Touches (mEvent ||| mTime ||| mFrac ||| mFreeCtr ||| mTbs ||| mTdc ||| mCnv ||| mPg ||| mAu) s (State.ppsUpdate s c t) := by
  unfold State.ppsUpdate
  (try dsimp only)
  repeat' (first
    | with_reducible exact Touches.refl _ _
    | ((with_reducible apply Touches.stepBy 0x78069c2 (touches_State.servoJump _ _ _)); · decide)
    | ((with_reducible apply Touches.stepBy 0x202 (touches_State.servoSteer _)); · decide)
    | ((with_reducible apply Touches.stepBy 0x10001806842 (touches_State.servoUpdate _ _)); · decide)
    | ((with_reducible apply Touches.stepBy 0x200 (touches_State.fresh _)); · decide)
    | split
    | with_reducible refine Touches.ofSnd (by assumption) ?_
    | with_reducible refine Touches.ofFst (by assumption) ?_)

theorem touches_State.ptpUpdate (s : State) (offPs : Int) (step : Bool) :
    Touches (mEvent ||| mTime ||| mFrac ||| mFreeCtr ||| mTbs ||| mTdc ||| mCnv ||| mPg ||| mAu) s (State.ptpUpdate s offPs step) := by
  unfold State.ptpUpdate
  (try dsimp only)
  repeat' (first
    | with_reducible exact Touches.refl _ _
    | ((with_reducible apply Touches.stepBy 0x78069c2 (touches_State.servoJump _ _ _)); · decide)
    | ((with_reducible apply Touches.stepBy 0x202 (touches_State.servoSteer _)); · decide)
    | ((with_reducible apply Touches.stepBy 0x10001806842 (touches_State.servoUpdate _ _)); · decide)
    | split)

theorem touches_State.servoMiss (s : State) :
    Touches (mEvent ||| mTime ||| mTbs) s (State.servoMiss s) := by
  unfold State.servoMiss
  (try dsimp only)
  repeat' (first
    | with_reducible exact Touches.refl _ _
    | ((with_reducible apply Touches.stepBy 0x806842 (touches_State.servoHold _)); · decide)
    | ((with_reducible apply Touches.stepBy 0x80 (touches_State.reach _ _)); · decide)
    | split)

theorem touches_State.servoHostTimeout (s : State) :
    Touches (mEvent ||| mTime ||| mTbs) s (State.servoHostTimeout s) := by
  unfold State.servoHostTimeout
  (try dsimp only)
  repeat' (first
    | with_reducible exact Touches.refl _ _
    | ((with_reducible apply Touches.stepBy 0x806842 (touches_State.servoHold _)); · decide)
    | ((with_reducible apply Touches.stepBy 0x6842 (touches_State.raise _ _ _ _ _)); · decide)
    | ((with_reducible apply Touches.stepBy 0x80 (touches_State.reach _ _)); · decide)
    | split)

theorem touches_State.dividerRelease (s : State) (fs : Nat) :
    Touches (mEvent ||| mTime ||| mFrac ||| mTbs ||| mTdc ||| mCnv ||| mPg) s (State.dividerRelease s fs) := by
  unfold State.dividerRelease
  (try dsimp only)
  repeat' (first
    | with_reducible exact Touches.refl _ _
    | ((with_reducible apply Touches.stepBy 0x70069c2 (touches_State.stepTime _ _)); · decide)
    | ((with_reducible apply Touches.stepBy 0x180 (touches_State.setTime40 _ _)); · decide)
    | ((with_reducible apply Touches.stepBy 0x2 (touches_State.setFld_hi _ _ _ _ ?hi)); (case hi => first | decide | (simp only [rADM_MEM, rTBS_RETUNE, rTBS_TICK]; omega) | (split <;> decide) | (split <;> simp only [rADM_MEM, rTBS_RETUNE, rTBS_TICK] <;> omega)); (· decide))
    | ((with_reducible apply Touches.stepBy 0x2 (touches_State.wr_hi _ _ _ ?hi)); (case hi => first | decide | (simp only [rADM_MEM, rTBS_RETUNE, rTBS_TICK]; omega) | (split <;> decide) | (split <;> simp only [rADM_MEM, rTBS_RETUNE, rTBS_TICK] <;> omega)); (· decide))
    | ((with_reducible apply Touches.stepBy 0x800000 (touches_State.onTbs _ _)); · decide)
    | ((with_reducible refine Touches.foldl ?_ ?_))
    | ((intro t b); try dsimp only)
    | split)

/-! ### Machine/MonPg.lean -/

theorem touches_State.updPg (s : State) (g : Nat) (f : Pg → Pg) :
    Touches mPg s (State.updPg s g f) := by
  constructor <;> first | exact fun h => absurd h (by decide) | exact fun _ => rfl | exact fun _ a _ => State.rd_congr (by rfl) a | exact fun h => h.of_eq rfl rfl rfl rfl rfl | exact FusesOnlyBurn.of_eq rfl rfl rfl rfl rfl

theorem touches_State.pgShow (s : State) (g : Nat) :
    Touches mRegs s (State.pgShow s g) := by
  unfold State.pgShow
  (try dsimp only)
  repeat' (first
    | with_reducible exact Touches.refl _ _
    | ((with_reducible apply Touches.stepBy 0x2 (touches_State.setFld_hi _ _ _ _ ?hi)); (case hi => first | decide | (simp only [rPG_STATUS]; omega) | (split <;> decide) | (split <;> simp only [rPG_STATUS] <;> omega)); (· decide)))

theorem touches_State.pgTrip (s : State) (g : Nat) :
    Touches (mEvent ||| mPg) s (State.pgTrip s g) := by
  unfold State.pgTrip
  (try dsimp only)
  repeat' (first
    | with_reducible exact Touches.refl _ _
    | ((with_reducible apply Touches.stepBy 0x6842 (touches_State.raise _ _ _ _ _)); · decide)
    | ((with_reducible apply Touches.stepBy 0x2 (touches_State.setFld_hi _ _ _ _ ?hi)); (case hi => first | decide | (simp only [rPG_CFG, rPG_STATUS]; omega) | (split <;> decide) | (split <;> simp only [rPG_CFG, rPG_STATUS] <;> omega)); (· decide))
    | ((with_reducible apply Touches.stepBy 0x2 (touches_State.pgShow _ _)); · decide)
    | ((with_reducible apply Touches.stepBy 0x4000000 (touches_State.updPg _ _ _)); · decide)
    | split)

theorem touches_State.tripMatrix (s : State) :
    Touches (mEvent ||| mPg) s (State.tripMatrix s) := by
  unfold State.tripMatrix
  (try dsimp only)
  repeat' (first
    | with_reducible exact Touches.refl _ _
    | ((with_reducible apply Touches.stepBy 0x4006842 (touches_State.pgTrip _ _)); · decide)
    | ((with_reducible refine Touches.foldl ?_ ?_))
    | ((intro t b); try dsimp only))

theorem touches_State.monSee (s : State) (m : Nat) (v : Int) :
    Touches (mEvent ||| mPg) s (State.monSee s m v) := by
  unfold State.monSee
  (try dsimp only)
  repeat' (first
    | with_reducible exact Touches.refl _ _
    | ((with_reducible apply Touches.stepBy 0x6842 (touches_State.raiseLim _ _ _ _ _ _ _)); · decide)
    | ((with_reducible apply Touches.stepBy 0x2 (touches_State.addSat_hi _ _ _ _ ?hi)); (case hi => first | decide | (simp only [rMON_STATUS]; omega) | (split <;> decide) | (split <;> simp only [rMON_STATUS] <;> omega)); (· decide))
    | ((with_reducible apply Touches.stepBy 0x2 (touches_State.setFld_hi _ _ _ _ ?hi)); (case hi => first | decide | (simp only [rMON_STATUS]; omega) | (split <;> decide) | (split <;> simp only [rMON_STATUS] <;> omega)); (· decide))
    | ((with_reducible apply Touches.stepBy 0x4006842 (touches_State.tripMatrix _)); · decide)
    | split)

theorem touches_State.monClear (s : State) (m : Nat) :
    Touches (mRegs ||| mCnv) s (State.monClear s m) := by
  unfold State.monClear
  (try dsimp only)
  repeat' (first
    | with_reducible exact Touches.refl _ _
    | ((with_reducible apply Touches.stepBy 0x2 (touches_State.setFld_hi _ _ _ _ ?hi)); (case hi => first | decide | (simp only [rMON_STATUS]; omega) | (split <;> decide) | (split <;> simp only [rMON_STATUS] <;> omega)); (· decide))
    | ((with_reducible apply Touches.stepBy 0x2000000 (touches_State.updCore _ _ _)); · decide)
    | split)

theorem touches_State.monTrip (s : State) (m : Nat) (v : Int) :
    Touches (mEvent ||| mPg) s (State.monTrip s m v) := by
  unfold State.monTrip
  (try dsimp only)
  repeat' (first
    | with_reducible exact Touches.refl _ _
    | ((with_reducible apply Touches.stepBy 0x4006842 (touches_State.monSee _ _ _)); · decide)
    | split)

theorem touches_State.monSample (s : State) (m : Nat) (v : Int) :
    Touches (mEvent ||| mPg) s (State.monSample s m v) := by
  unfold State.monSample
  (try dsimp only)
  repeat' (first
    | with_reducible exact Touches.refl _ _
    | ((with_reducible apply Touches.stepBy 0x4006842 (touches_State.monSee _ _ _)); · decide)
    | split)

theorem touches_State.monPeriod (s : State) (m : Nat) :
    Touches (mRegs ||| mCnv) s (State.monPeriod s m) := by
  unfold State.monPeriod
  (try dsimp only)
  repeat' (first
    | with_reducible exact Touches.refl _ _
    | ((with_reducible apply Touches.stepBy 0x2000002 (touches_State.monClear _ _)); · decide)
    | split)

theorem touches_State.wrMonStatus (m : Nat) (v : Word) (s : State) :
    Touches (mRegs ||| mCnv) s (State.wrMonStatus m v s) := by
  unfold State.wrMonStatus
  (try dsimp only)
  repeat' (first
    | with_reducible exact Touches.refl _ _
    | ((with_reducible apply Touches.stepBy 0x2000002 (touches_State.monClear _ _)); · decide)
    | split)

theorem touches_State.wrMonCfg (m : Nat) (v : Word) (s : State) :
    Touches (mRegs ||| mCnv) s (State.wrMonCfg m v s) := by
  unfold State.wrMonCfg
  (try dsimp only)
  repeat' (first
    | with_reducible exact Touches.refl _ _
    | ((with_reducible apply Touches.stepBy 0x2 (touches_State.wrCodes_hi _ _ _ _ ?hi)); (case hi => first | decide | (simp only [rMON_CFG, rMON_STATUS]; omega) | (split <;> decide) | (split <;> simp only [rMON_CFG, rMON_STATUS] <;> omega)); (· decide))
    | ((with_reducible apply Touches.stepBy 0x2 (touches_State.setFld_hi _ _ _ _ ?hi)); (case hi => first | decide | (simp only [rMON_CFG, rMON_STATUS]; omega) | (split <;> decide) | (split <;> simp only [rMON_CFG, rMON_STATUS] <;> omega)); (· decide))
    | ((with_reducible apply Touches.stepBy 0x2000002 (touches_State.monClear _ _)); · decide)
    | split)

theorem touches_State.wrPgCfg (g : Nat) (v : Word) (s : State) :
    Touches (mEvent ||| mPg) s (State.wrPgCfg g v s) := by
  unfold State.wrPgCfg
  (try dsimp only)
  repeat' (first
    | with_reducible exact Touches.refl _ _
    | ((with_reducible apply Touches.stepBy 0x2 (touches_State.wrCodes_hi _ _ _ _ ?hi)); (case hi => first | decide | (simp only [rPG_CFG]; omega) | (split <;> decide) | (split <;> simp only [rPG_CFG] <;> omega)); (· decide))
    | ((with_reducible apply Touches.stepBy 0x4006842 (touches_State.pgTrip _ _)); · decide))

theorem touches_State.wrPgStatus (g : Nat) (v : Word) (s : State) :
    Touches mRegs s (State.wrPgStatus g v s) := by
  unfold State.wrPgStatus
  (try dsimp only)
  repeat' (first
    | with_reducible exact Touches.refl _ _
    | ((with_reducible apply Touches.stepBy 0x2 (touches_State.setFld_hi _ _ _ _ ?hi)); (case hi => first | decide | (simp only [rPG_CFG, rPG_STATUS]; omega) | (split <;> decide) | (split <;> simp only [rPG_CFG, rPG_STATUS] <;> omega)); (· decide))
    | ((with_reducible apply Touches.stepBy 0x2 (touches_State.pgShow _ _)); · decide)
    | split)

theorem touches_State.pgBegin (s : State) (g : Nat) :
    Touches (mRegs ||| mPg) s (State.pgBegin s g) := by
  unfold State.pgBegin
  (try dsimp only)
  repeat' (first
    | with_reducible exact Touches.refl _ _
    | ((with_reducible apply Touches.stepBy 0x2 (touches_State.setFld_hi _ _ _ _ ?hi)); (case hi => first | decide | (simp only [rPG_STATUS]; omega) | (split <;> decide) | (split <;> simp only [rPG_STATUS] <;> omega)); (· decide))
    | ((with_reducible apply Touches.stepBy 0x2 (touches_State.pgShow _ _)); · decide)
    | ((with_reducible apply Touches.stepBy 0x4000000 (touches_State.updPg _ _ _)); · decide))

theorem touches_State.pgTake (s : State) (g : Nat) :
    Touches (mRegs ||| mAct) s (State.pgTake s g) := by
  unfold State.pgTake
  (try dsimp only)
  repeat' (first
    | with_reducible exact Touches.refl _ _
    | ((with_reducible apply Touches.stepBy 0x4 (touches_State.commitReg _ _)); · decide)
    | ((with_reducible apply Touches.stepBy 0x2 (touches_State.setFld_hi _ _ _ _ ?hi)); (case hi => first | decide | (simp only [rPG_CFG, rPG_START, rPG_TIMING]; omega) | (split <;> decide) | (split <;> simp only [rPG_CFG, rPG_START, rPG_TIMING] <;> omega)); (· decide)))

theorem touches_State.pgCommit (s : State) (g : Nat) :
    Touches (mEvent ||| mAct ||| mTime ||| mPg) s (State.pgCommit s g) := by
  unfold State.pgCommit
  (try dsimp only)
  repeat' (first
    | with_reducible exact Touches.refl _ _
    | ((with_reducible apply Touches.stepBy 0x6842 (touches_State.raise _ _ _ _ _)); · decide)
    | ((with_reducible apply Touches.stepBy 0x80 (touches_State.reach _ _)); · decide)
    | ((with_reducible apply Touches.stepBy 0x2 (touches_State.setFld_hi _ _ _ _ ?hi)); (case hi => first | decide | (simp only [rPG_CFG, rPG_START, rPG_STATUS]; omega) | (split <;> decide) | (split <;> simp only [rPG_CFG, rPG_START, rPG_STATUS] <;> omega)); (· decide))
    | ((with_reducible apply Touches.stepBy 0x6 (touches_State.pgTake _ _)); · decide)
    | ((with_reducible apply Touches.stepBy 0x4000002 (touches_State.pgBegin _ _)); · decide)
    | split)

theorem touches_State.pgEdge (s : State) (g : Nat) :
    Touches (mRegs ||| mTime ||| mPg) s (State.pgEdge s g) := by
  unfold State.pgEdge
  (try dsimp only)
  repeat' (first
    | with_reducible exact Touches.refl _ _
    | ((with_reducible apply Touches.stepBy 0x80 (touches_State.reach _ _)); · decide)
    | ((with_reducible apply Touches.stepBy 0x2 (touches_State.addMod_hi _ _ _ _ ?hi)); (case hi => first | decide | (simp only [rPG_STATUS]; omega) | (split <;> decide) | (split <;> simp only [rPG_STATUS] <;> omega)); (· decide))
    | ((with_reducible apply Touches.stepBy 0x2 (touches_State.setFld_hi _ _ _ _ ?hi)); (case hi => first | decide | (simp only [rPG_STATUS]; omega) | (split <;> decide) | (split <;> simp only [rPG_STATUS] <;> omega)); (· decide))
    | ((with_reducible apply Touches.stepBy 0x2 (touches_State.pgShow _ _)); · decide)
    | ((with_reducible apply Touches.stepBy 0x4000000 (touches_State.updPg _ _ _)); · decide)
    | split)

theorem touches_State.pgHold (s : State) :
    Touches (mRegs ||| mPg) s (State.pgHold s) := by
  unfold State.pgHold
  (try dsimp only)
  repeat' (first
    | with_reducible exact Touches.refl _ _
    | ((with_reducible apply Touches.stepBy 0x2 (touches_State.pgShow _ _)); · decide)
    | ((with_reducible apply Touches.stepBy 0x4000000 (touches_State.updPg _ _ _)); · decide)
    | ((with_reducible refine Touches.foldl ?_ ?_))
    | ((intro t b); try dsimp only))

theorem touches_State.pgRelease (s : State) :
    Touches (mRegs ||| mPg) s (State.pgRelease s) := by
  unfold State.pgRelease
  (try dsimp only)
  repeat' (first
    | with_reducible exact Touches.refl _ _
    | ((with_reducible apply Touches.stepBy 0x2 (touches_State.pgShow _ _)); · decide)
    | ((with_reducible apply Touches.stepBy 0x4000000 (touches_State.updPg _ _ _)); · decide)
    | ((with_reducible refine Touches.foldl ?_ ?_))
    | ((intro t b); try dsimp only))

/-! ### Machine/Ddc.lean -/

theorem touches_State.updDdc (s : State) (u : Nat) (f : Ddc → Ddc) :
    Touches mDdc s (State.updDdc s u f) := by
  constructor <;> first | exact fun h => absurd h (by decide) | exact fun _ => rfl | exact fun _ a _ => State.rd_congr (by rfl) a | exact fun h => h.of_eq rfl rfl rfl rfl rfl | exact FusesOnlyBurn.of_eq rfl rfl rfl rfl rfl

theorem touches_State.ddcMix (s : State) (u : Nat) (x : Smp) :
    Touches mDdc s (State.ddcMix s u x).2 := by
  unfold State.ddcMix
  (try dsimp only)
  repeat' (first
    | with_reducible exact Touches.refl _ _
    | ((with_reducible apply Touches.stepBy 0x10000000 (touches_State.updDdc _ _ _)); · decide)
    | split
    | with_reducible refine Touches.ofSnd (by assumption) ?_
    | with_reducible refine Touches.ofFst (by assumption) ?_)

theorem touches_State.ddcFlip (s : State) (u mask : Nat) :
    Touches mRegs s (State.ddcFlip s u mask) := by
  unfold State.ddcFlip
  (try dsimp only)
  repeat' (first
    | with_reducible exact Touches.refl _ _
    | ((with_reducible apply Touches.stepBy 0x2 (touches_State.setFld_hi _ _ _ _ ?hi)); (case hi => first | decide | (simp only [rDDC_STAGE]; omega) | (split <;> decide) | (split <;> simp only [rDDC_STAGE] <;> omega)); (· decide))
    | ((with_reducible refine Touches.foldl ?_ ?_))
    | ((intro t b); try dsimp only)
    | split)

theorem touches_State.ddcSwapEnd (s : State) (u mask : Nat) :
    Touches (mEvent ||| mDdc) s (State.ddcSwapEnd s u mask) := by
  unfold State.ddcSwapEnd
  (try dsimp only)
  repeat' (first
    | with_reducible exact Touches.refl _ _
    | ((with_reducible apply Touches.stepBy 0x6842 (touches_State.raise _ _ _ _ _)); · decide)
    | ((with_reducible apply Touches.stepBy 0x2 (touches_State.addMod_hi _ _ _ _ ?hi)); (case hi => first | decide | (simp only [rDDC_STAT, rDDC_SWAP]; omega) | (split <;> decide) | (split <;> simp only [rDDC_STAT, rDDC_SWAP] <;> omega)); (· decide))
    | ((with_reducible apply Touches.stepBy 0x2 (touches_State.setFlds_hi _ _ _ ?hi)); (case hi => first | decide | (simp only [rDDC_STAT, rDDC_SWAP]; omega) | (split <;> decide) | (split <;> simp only [rDDC_STAT, rDDC_SWAP] <;> omega)); (· decide))
    | ((with_reducible apply Touches.stepBy 0x2 (touches_State.ddcFlip _ _ _)); · decide)
    | ((with_reducible apply Touches.stepBy 0x10000000 (touches_State.updDdc _ _ _)); · decide))

theorem touches_State.ddcSwapSee (s : State) (u k t : Nat) :
    Touches (mEvent ||| mDdc) s (State.ddcSwapSee s u k t) := by
  unfold State.ddcSwapSee
  (try dsimp only)
  repeat' (first
    | with_reducible exact Touches.refl _ _
    | ((with_reducible apply Touches.stepBy 0x2 (touches_State.setFld_hi _ _ _ _ ?hi)); (case hi => first | decide | (simp only [rDDC_SWAP_AT]; omega) | (split <;> decide) | (split <;> simp only [rDDC_SWAP_AT] <;> omega)); (· decide))
    | ((with_reducible apply Touches.stepBy 0x10006842 (touches_State.ddcSwapEnd _ _ _)); · decide)
    | ((with_reducible apply Touches.stepBy 0x10000000 (touches_State.updDdc _ _ _)); · decide)
    | split
    | with_reducible refine Touches.ofSnd (by assumption) ?_
    | with_reducible refine Touches.ofFst (by assumption) ?_)

theorem touches_State.ddcOutput (s : State) (u k : Nat) (final : Bool) (hist : List Smp) (j b kk : Nat) :
    Touches (mEvent ||| mFreeCtr) s (State.ddcOutput s u k final hist j b kk).2 := by
  unfold State.ddcOutput
  (try dsimp only)
  repeat' (first
    | with_reducible exact Touches.refl _ _
    | ((with_reducible apply Touches.stepBy 0x6842 (touches_State.raiseLim _ _ _ _ _ _ _)); · decide)
    | ((with_reducible apply Touches.stepBy 0x200 (touches_State.fresh _)); · decide)
    | ((with_reducible apply Touches.stepBy 0x2 (touches_State.addSat_hi _ _ _ _ ?hi)); (case hi => first | decide | (simp only [rDDC_COEF0, rDDC_STAT]; omega) | (split <;> decide) | (split <;> simp only [rDDC_COEF0, rDDC_STAT] <;> omega)); (· decide))
    | ((with_reducible refine Touches.foldl ?_ ?_))
    | ((intro t b); try dsimp only)
    | split
    | with_reducible refine Touches.ofSnd (by assumption) ?_
    | with_reducible refine Touches.ofFst (by assumption) ?_)

theorem touches_State.ddcOuts (x0 : Nat) (s : State) (x2 : Nat) (x3 : Nat) (x4 : Bool) :
    Touches (mEvent ||| mFreeCtr ||| mDdc) s (State.ddcOuts x0 s x2 x3 x4).2 := by
  induction x0 generalizing s x2 x3 x4 with
  | zero => unfold State.ddcOuts; exact Touches.refl _ _
  | succ x0 ih =>
    unfold State.ddcOuts
    (try dsimp only)
    repeat' (first
      | with_reducible exact Touches.refl _ _
      | ((with_reducible apply Touches.stepBy 0x10006a42 (ih _ _ _ _)); · decide)
      | ((with_reducible apply Touches.stepBy 0x6a42 (touches_State.ddcOutput _ _ _ _ _ _ _ _)); · decide)
      | ((with_reducible apply Touches.stepBy 0x10006842 (touches_State.ddcSwapSee _ _ _ _)); · decide)
      | ((with_reducible apply Touches.stepBy 0x10000000 (touches_State.updDdc _ _ _)); · decide)
      | split
      | with_reducible refine Touches.ofSnd (by assumption) ?_
      | with_reducible refine Touches.ofFst (by assumption) ?_
      | split)

theorem touches_State.ddcPush (s : State) (u k : Nat) (final : Bool) (x : Smp) :
    Touches (mEvent ||| mFreeCtr ||| mDdc) s (State.ddcPush s u k final x).2 := by
  unfold State.ddcPush
  (try dsimp only)
  repeat' (first
    | with_reducible exact Touches.refl _ _
    | ((with_reducible apply Touches.stepBy 0x10006a42 (touches_State.ddcOuts  _ _ _ _ _)); · decide)
    | ((with_reducible apply Touches.stepBy 0x10000000 (touches_State.updDdc _ _ _)); · decide))

theorem touches_State.ddcPushAll (s : State) (u k : Nat) (final : Bool) (xs : List Smp) :
    Touches (mEvent ||| mFreeCtr ||| mDdc) s (State.ddcPushAll s u k final xs).2 := by
  unfold State.ddcPushAll
  (try dsimp only)
  repeat' (first
    | with_reducible exact Touches.refl _ _
    | ((with_reducible apply Touches.stepBy 0x10006a42 (touches_State.ddcPush _ _ _ _ _)); · decide)
    | ((with_reducible refine Touches.foldl ?_ ?_))
    | ((with_reducible refine Touches.foldlSnd ?_ ?_))
    | ((with_reducible refine Touches.foldlFst ?_ ?_))
    | ((intro t b); try dsimp only)
    | split
    | with_reducible refine Touches.ofSnd (by assumption) ?_
    | with_reducible refine Touches.ofFst (by assumption) ?_)

theorem touches_State.ddcTake (s : State) (u : Nat) (xs : List Smp) :
    Touches (mEvent ||| mFreeCtr ||| mDdc) s (State.ddcTake s u xs).2 := by
  unfold State.ddcTake
  (try dsimp only)
  repeat' (first
    | with_reducible exact Touches.refl _ _
    | ((with_reducible apply Touches.stepBy 0x10006a42 (touches_State.ddcPushAll _ _ _ _ _)); · decide)
    | ((with_reducible apply Touches.stepBy 0x10000000 (touches_State.ddcMix _ _ _)); · decide)
    | ((with_reducible refine Touches.foldl ?_ ?_))
    | ((with_reducible refine Touches.foldlSnd ?_ ?_))
    | ((with_reducible refine Touches.foldlFst ?_ ?_))
    | ((intro t b); try dsimp only)
    | split
    | with_reducible refine Touches.ofSnd (by assumption) ?_
    | with_reducible refine Touches.ofFst (by assumption) ?_)

theorem touches_State.ddcCancel (s : State) (u cause : Nat) :
    Touches (mEvent ||| mDdc) s (State.ddcCancel s u cause) := by
  unfold State.ddcCancel
  (try dsimp only)
  repeat' (first
    | with_reducible exact Touches.refl _ _
    | ((with_reducible apply Touches.stepBy 0x6842 (touches_State.raise _ _ _ _ _)); · decide)
    | ((with_reducible apply Touches.stepBy 0x2 (touches_State.setFlds_hi _ _ _ ?hi)); (case hi => first | decide | (simp only [rDDC_SWAP]; omega) | (split <;> decide) | (split <;> simp only [rDDC_SWAP] <;> omega)); (· decide))
    | ((with_reducible apply Touches.stepBy 0x10000000 (touches_State.updDdc _ _ _)); · decide)
    | split
    | with_reducible refine Touches.ofSnd (by assumption) ?_
    | with_reducible refine Touches.ofFst (by assumption) ?_)

theorem touches_State.ddcOrigin (s : State) (u cause : Nat) :
    Touches (mEvent ||| mCtxs ||| mDdc) s (State.ddcOrigin s u cause) := by
  unfold State.ddcOrigin
  (try dsimp only)
  repeat' (first
    | with_reducible exact Touches.refl _ _
    | ((with_reducible apply Touches.stepBy 0x8000 (touches_State.loseDirect _ _ _)); · decide)
    | ((with_reducible apply Touches.stepBy 0x10006842 (touches_State.ddcCancel _ _ _)); · decide)
    | ((with_reducible apply Touches.stepBy 0x10000000 (touches_State.updDdc _ _ _)); · decide))

theorem touches_State.ddcSwapGo (s : State) (u : Nat) :
    Touches (mEvent ||| mDdc) s (State.ddcSwapGo s u) := by
  unfold State.ddcSwapGo
  (try dsimp only)
  repeat' (first
    | with_reducible exact Touches.refl _ _
    | ((with_reducible apply Touches.stepBy 0x6842 (touches_State.raise _ _ _ _ _)); · decide)
    | ((with_reducible apply Touches.stepBy 0x2 (touches_State.setFlds_hi _ _ _ ?hi)); (case hi => first | decide | (simp only [rDDC_SWAP, rDDC_SWAP_TIME]; omega) | (split <;> decide) | (split <;> simp only [rDDC_SWAP, rDDC_SWAP_TIME] <;> omega)); (· decide))
    | ((with_reducible apply Touches.stepBy 0x2 (touches_State.setFld_hi _ _ _ _ ?hi)); (case hi => first | decide | (simp only [rDDC_SWAP, rDDC_SWAP_TIME]; omega) | (split <;> decide) | (split <;> simp only [rDDC_SWAP, rDDC_SWAP_TIME] <;> omega)); (· decide))
    | ((with_reducible apply Touches.stepBy 0x10006842 (touches_State.ddcSwapEnd _ _ _)); · decide)
    | ((with_reducible apply Touches.stepBy 0x10000000 (touches_State.updDdc _ _ _)); · decide)
    | split
    | with_reducible refine Touches.ofSnd (by assumption) ?_
    | with_reducible refine Touches.ofFst (by assumption) ?_)

theorem touches_State.wrDdcSwap (u : Nat) (v : Word) (s : State) :
    Touches (mEvent ||| mDdc) s (State.wrDdcSwap u v s) := by
  unfold State.wrDdcSwap
  (try dsimp only)
  repeat' (first
    | with_reducible exact Touches.refl _ _
    | ((with_reducible apply Touches.stepBy 0x2 (touches_State.wrCodes_hi _ _ _ _ ?hi)); (case hi => first | decide | (simp only [rDDC_SWAP]; omega) | (split <;> decide) | (split <;> simp only [rDDC_SWAP] <;> omega)); (· decide))
    | ((with_reducible apply Touches.stepBy 0x10006842 (touches_State.ddcSwapGo _ _)); · decide)
    | ((with_reducible apply Touches.stepBy 0x10006842 (touches_State.ddcCancel _ _ _)); · decide)
    | split)

theorem touches_State.ddcSwapCommit (s : State) (u : Nat) :
    Touches (mTime ||| mDdc) s (State.ddcSwapCommit s u) := by
  unfold State.ddcSwapCommit
  (try dsimp only)
  repeat' (first
    | with_reducible exact Touches.refl _ _
    | ((with_reducible apply Touches.stepBy 0x80 (touches_State.reach _ _)); · decide)
    | ((with_reducible apply Touches.stepBy 0x10000000 (touches_State.updDdc _ _ _)); · decide)
    | split
    | with_reducible refine Touches.ofSnd (by assumption) ?_
    | with_reducible refine Touches.ofFst (by assumption) ?_)

theorem touches_State.ddcSwapDone (s : State) (u : Nat) :
    Touches (mEvent ||| mDdc) s (State.ddcSwapDone s u) := by
  unfold State.ddcSwapDone
  (try dsimp only)
  repeat' (first
    | with_reducible exact Touches.refl _ _
    | ((with_reducible apply Touches.stepBy 0x2 (touches_State.setFld_hi _ _ _ _ ?hi)); (case hi => first | decide | (simp only [rDDC_SWAP_AT]; omega) | (split <;> decide) | (split <;> simp only [rDDC_SWAP_AT] <;> omega)); (· decide))
    | ((with_reducible apply Touches.stepBy 0x10006842 (touches_State.ddcSwapEnd _ _ _)); · decide)
    | split
    | with_reducible refine Touches.ofSnd (by assumption) ?_
    | with_reducible refine Touches.ofFst (by assumption) ?_)

theorem touches_State.ddcDiscard (s : State) (u : Nat) :
    Touches mEvent s (State.ddcDiscard s u) := by
  unfold State.ddcDiscard
  (try dsimp only)
  repeat' (first
    | with_reducible exact Touches.refl _ _
    | ((with_reducible apply Touches.stepBy 0x6842 (touches_State.raise _ _ _ _ _)); · decide)
    | ((with_reducible apply Touches.stepBy 0x2 (touches_State.addSat_hi _ _ _ _ ?hi)); (case hi => first | decide | (simp only [rDDC_STAT]; omega) | (split <;> decide) | (split <;> simp only [rDDC_STAT] <;> omega)); (· decide)))

theorem touches_State.wrDdcCoef0 (u k b : Nat) (v : Word) (s : State) :
    Touches mEvent s (State.wrDdcCoef0 u k b v s) := by
  unfold State.wrDdcCoef0
  (try dsimp only)
  repeat' (first
    | with_reducible exact Touches.refl _ _
    | ((with_reducible apply Touches.stepBy 0x2 (touches_State.wrCodes_hi _ _ _ _ ?hi)); (case hi => first | decide | (simp only [rDDC_COEF0]; omega) | (split <;> decide) | (split <;> simp only [rDDC_COEF0] <;> omega)); (· decide))
    | ((with_reducible apply Touches.stepBy 0x6842 (touches_State.ddcDiscard _ _)); · decide)
    | split)

theorem touches_State.wrDdcCoefR (u k b r : Nat) (v : Word) (s : State) :
    Touches mEvent s (State.wrDdcCoefR u k b r v s) := by
  unfold State.wrDdcCoefR
  (try dsimp only)
  repeat' (first
    | with_reducible exact Touches.refl _ _
    | ((with_reducible apply Touches.stepBy 0x2 (touches_State.wrCodes_hi _ _ _ _ ?hi)); (case hi => first | decide | (simp only [rDDC_COEFR]; omega) | (split <;> decide) | (split <;> simp only [rDDC_COEFR] <;> omega)); (· decide))
    | ((with_reducible apply Touches.stepBy 0x6842 (touches_State.ddcDiscard _ _)); · decide)
    | split)

theorem touches_State.wrDdcStage (u k : Nat) (v : Word) (s : State) :
    Touches mRegs s (State.wrDdcStage u k v s) := by
  unfold State.wrDdcStage
  (try dsimp only)
  repeat' (first
    | with_reducible exact Touches.refl _ _
    | ((with_reducible apply Touches.stepBy 0x2 (touches_State.wrCodes_hi _ _ _ _ ?hi)); (case hi => first | decide | (simp only [rDDC_STAGE]; omega) | (split <;> decide) | (split <;> simp only [rDDC_STAGE] <;> omega)); (· decide))
    | split)

theorem touches_State.wrDdcFtw (u : Nat) (v : Word) (s : State) :
    Touches mRegs s (State.wrDdcFtw u v s) := by
  unfold State.wrDdcFtw
  (try dsimp only)
  repeat' (first
    | with_reducible exact Touches.refl _ _
    | ((with_reducible apply Touches.stepBy 0x2 (touches_State.wrCodes_hi _ _ _ _ ?hi)); (case hi => first | decide | (simp only [rDDC_NCO_FTW]; omega) | (split <;> decide) | (split <;> simp only [rDDC_NCO_FTW] <;> omega)); (· decide))
    | split)

theorem touches_State.wrDdcCtrl (u : Nat) (v : Word) (s : State) :
    Touches mRegs s (State.wrDdcCtrl u v s) := by
  unfold State.wrDdcCtrl
  (try dsimp only)
  repeat' (first
    | with_reducible exact Touches.refl _ _
    | ((with_reducible apply Touches.stepBy 0x2 (touches_State.wrCodes_hi _ _ _ _ ?hi)); (case hi => first | decide | (simp only [rDDC_NCO_CTRL]; omega) | (split <;> decide) | (split <;> simp only [rDDC_NCO_CTRL] <;> omega)); (· decide))
    | split)

theorem touches_State.ddcParamCommit (s : State) :
    Touches (mRegs ||| mAct ||| mDdc) s (State.ddcParamCommit s) := by
  unfold State.ddcParamCommit
  (try dsimp only)
  repeat' (first
    | with_reducible exact Touches.refl _ _
    | ((with_reducible apply Touches.stepBy 0x4 (touches_State.commitReg _ _)); · decide)
    | ((with_reducible apply Touches.stepBy 0x2 (touches_State.setFld_hi _ _ _ _ ?hi)); (case hi => first | decide | (simp only [rDDC_NCO_CTRL, rDDC_NCO_FTW, rDDC_STAGE]; omega) | (split <;> decide) | (split <;> simp only [rDDC_NCO_CTRL, rDDC_NCO_FTW, rDDC_STAGE] <;> omega)); (· decide))
    | ((with_reducible apply Touches.stepBy 0x10000000 (touches_State.updDdc _ _ _)); · decide)
    | ((with_reducible refine Touches.foldl ?_ ?_))
    | ((with_reducible refine Touches.foldlFst ?_ ?_))
    | ((intro t b); try dsimp only)
    | split
    | with_reducible refine Touches.ofSnd (by assumption) ?_
    | with_reducible refine Touches.ofFst (by assumption) ?_)

theorem touches_State.ddcPlan (s : State) (p : Option PlanImg) :
    Touches mRegs s (State.ddcPlan s p) := by
  unfold State.ddcPlan
  (try dsimp only)
  repeat' (first
    | with_reducible exact Touches.refl _ _
    | ((with_reducible apply Touches.stepBy 0x2 (touches_State.wr_hi _ _ _ ?hi)); (case hi => first | decide | (simp only [rDDC_CFG]; omega) | (split <;> decide) | (split <;> simp only [rDDC_CFG] <;> omega)); (· decide))
    | ((with_reducible refine Touches.foldl ?_ ?_))
    | ((intro t b); try dsimp only)
    | split
    | with_reducible refine Touches.ofSnd (by assumption) ?_
    | with_reducible refine Touches.ofFst (by assumption) ?_)

/-! ### Machine/Xfm.lean -/

theorem touches_State.updXfm (s : State) (n : Nat) (f : Xfm → Xfm) :
    Touches mXfm s (State.updXfm s n f) := by
  constructor <;> first | exact fun h => absurd h (by decide) | exact fun _ => rfl | exact fun _ a _ => State.rd_congr (by rfl) a | exact fun h => h.of_eq rfl rfl rfl rfl rfl | exact FusesOnlyBurn.of_eq rfl rfl rfl rfl rfl

theorem touches_State.sendFrame (s : State) (sq : Nat) (keep : Nat → Bool) (f : Frm) :
    Touches (mEvent ||| mCtxs ||| mPorts ||| mFrames) s (State.sendFrame s sq keep f) := by
  unfold State.sendFrame
  (try dsimp only)
  repeat' (first
    | with_reducible exact Touches.refl _ _
    | ((with_reducible apply Touches.stepBy 0x80000000 (touches_State.onFrames _ _)); · decide)
    | ((with_reducible apply Touches.stepBy 0x2e842 (touches_State.sendPort _ _ _ _)); · decide)
    | ((with_reducible refine Touches.foldl ?_ ?_))
    | ((intro t b); try dsimp only)
    | split)

theorem touches_State.deliver (s : State) (n : Nat) (f : Frm) :
    Touches (mEvent ||| mCtxs ||| mPorts ||| mFrames) s (State.deliver s n f) := by
  unfold State.deliver
  (try dsimp only)
  repeat' (first
    | with_reducible exact Touches.refl _ _
    | ((with_reducible apply Touches.stepBy 0x8002e842 (touches_State.sendFrame _ _ _ _)); · decide)
    | split)

theorem touches_State.loseFrames (s : State) (n f k : Nat) :
    Touches (mRegs ||| mCtxs) s (State.loseFrames s n f k) := by
  unfold State.loseFrames
  (try dsimp only)
  repeat' (first
    | with_reducible exact Touches.refl _ _
    | ((with_reducible apply Touches.stepBy 0x2 (touches_State.addSat_hi _ _ _ _ ?hi)); (case hi => first | decide | (simp only [rXFM_STAT]; omega) | (split <;> decide) | (split <;> simp only [rXFM_STAT] <;> omega)); (· decide))
    | ((with_reducible apply Touches.stepBy 0x8000 (touches_State.loseFrom _ _ _)); · decide)
    | split)

theorem touches_State.xfmSwapEnd (s : State) (n t : Nat) :
    Touches (mEvent ||| mXfm) s (State.xfmSwapEnd s n t) := by
  unfold State.xfmSwapEnd
  (try dsimp only)
  repeat' (first
    | with_reducible exact Touches.refl _ _
    | ((with_reducible apply Touches.stepBy 0x20000000 (touches_State.updXfm _ _ _)); · decide)
    | ((with_reducible apply Touches.stepBy 0x6842 (touches_State.raise _ _ _ _ _)); · decide)
    | ((with_reducible apply Touches.stepBy 0x2 (touches_State.addMod_hi _ _ _ _ ?hi)); (case hi => first | decide | (simp only [rXFM_TAB_CTRL, rXFM_TAB_STATUS]; omega) | (split <;> decide) | (split <;> simp only [rXFM_TAB_CTRL, rXFM_TAB_STATUS] <;> omega)); (· decide))
    | ((with_reducible apply Touches.stepBy 0x2 (touches_State.setFlds_hi _ _ _ ?hi)); (case hi => first | decide | (simp only [rXFM_TAB_CTRL, rXFM_TAB_STATUS]; omega) | (split <;> decide) | (split <;> simp only [rXFM_TAB_CTRL, rXFM_TAB_STATUS] <;> omega)); (· decide))
    | ((with_reducible apply Touches.stepBy 0x2 (touches_State.setFld_hi _ _ _ _ ?hi)); (case hi => first | decide | (simp only [rXFM_TAB_CTRL, rXFM_TAB_STATUS]; omega) | (split <;> decide) | (split <;> simp only [rXFM_TAB_CTRL, rXFM_TAB_STATUS] <;> omega)); (· decide)))

theorem touches_State.xfmSwapSee (s : State) (n t : Nat) :
    Touches (mEvent ||| mXfm) s (State.xfmSwapSee s n t) := by
  unfold State.xfmSwapSee
  (try dsimp only)
  repeat' (first
    | with_reducible exact Touches.refl _ _
    | ((with_reducible apply Touches.stepBy 0x20006842 (touches_State.xfmSwapEnd _ _ _)); · decide)
    | ((with_reducible apply Touches.stepBy 0x2 (touches_State.setFld_hi _ _ _ _ ?hi)); (case hi => first | decide | (simp only [rXFM_TAB_AT]; omega) | (split <;> decide) | (split <;> simp only [rXFM_TAB_AT] <;> omega)); (· decide))
    | split
    | with_reducible refine Touches.ofSnd (by assumption) ?_
    | with_reducible refine Touches.ofFst (by assumption) ?_)

theorem touches_State.xfmNext (s : State) (n t : Nat) :
    Touches mXfm s (State.xfmNext s n t) := by
  unfold State.xfmNext
  (try dsimp only)
  repeat' (first
    | with_reducible exact Touches.refl _ _
    | ((with_reducible apply Touches.stepBy 0x20000000 (touches_State.updXfm _ _ _)); · decide))

theorem touches_State.xfmRun (s : State) (n : Nat) (ctrl : Word) (h : List Int) (span : List Smp) (f0 : Frm) :
    Touches (mEvent ||| mFreeCtr ||| mCtxs ||| mPorts ||| mFrames) s (State.xfmRun s n ctrl h span f0) := by
  unfold State.xfmRun
  (try dsimp only)
  repeat' (first
    | with_reducible exact Touches.refl _ _
    | ((with_reducible apply Touches.stepBy 0x8002e842 (touches_State.deliver _ _ _)); · decide)
    | ((with_reducible apply Touches.stepBy 0x6842 (touches_State.raiseLim _ _ _ _ _ _ _)); · decide)
    | ((with_reducible apply Touches.stepBy 0x200 (touches_State.fresh _)); · decide)
    | ((with_reducible apply Touches.stepBy 0x2 (touches_State.addSat_hi _ _ _ _ ?hi)); (case hi => first | decide | (simp only [rXFM_BINS, rXFM_COUNT, rXFM_EXP, rXFM_STAT, rXFM_WINFO]; omega) | (split <;> decide) | (split <;> simp only [rXFM_BINS, rXFM_COUNT, rXFM_EXP, rXFM_STAT, rXFM_WINFO] <;> omega)); (· decide))
    | ((with_reducible apply Touches.stepBy 0x2 (touches_State.addMod_hi _ _ _ _ ?hi)); (case hi => first | decide | (simp only [rXFM_BINS, rXFM_COUNT, rXFM_EXP, rXFM_STAT, rXFM_WINFO]; omega) | (split <;> decide) | (split <;> simp only [rXFM_BINS, rXFM_COUNT, rXFM_EXP, rXFM_STAT, rXFM_WINFO] <;> omega)); (· decide))
    | ((with_reducible apply Touches.stepBy 0x2 (touches_State.setFlds_hi _ _ _ ?hi)); (case hi => first | decide | (simp only [rXFM_BINS, rXFM_COUNT, rXFM_EXP, rXFM_STAT, rXFM_WINFO]; omega) | (split <;> decide) | (split <;> simp only [rXFM_BINS, rXFM_COUNT, rXFM_EXP, rXFM_STAT, rXFM_WINFO] <;> omega)); (· decide))
    | ((with_reducible refine Touches.foldl ?_ ?_))
    | ((with_reducible refine Touches.foldlSnd ?_ ?_))
    | ((with_reducible refine Touches.foldlFst ?_ ?_))
    | ((intro t b); try dsimp only)
    | split
    | with_reducible refine Touches.ofSnd (by assumption) ?_
    | with_reducible refine Touches.ofFst (by assumption) ?_)

theorem touches_State.xfmFrame (s : State) (n : Nat) :
    Touches (mEvent ||| mFreeCtr ||| mCtxs ||| mPorts ||| mXfm ||| mFrames) s (State.xfmFrame s n) := by
  unfold State.xfmFrame
  (try dsimp only)
  repeat' (first
    | with_reducible exact Touches.refl _ _
    | ((with_reducible apply Touches.stepBy 0x8002ea42 (touches_State.xfmRun _ _ _ _ _ _)); · decide)
    | ((with_reducible apply Touches.stepBy 0x20000000 (touches_State.xfmNext _ _ _)); · decide)
    | ((with_reducible apply Touches.stepBy 0x20006842 (touches_State.xfmSwapSee _ _ _)); · decide)
    | ((with_reducible apply Touches.stepBy 0x8002 (touches_State.loseFrames _ _ _ _)); · decide)
    | ((with_reducible apply Touches.stepBy 0x8002e842 (touches_State.deliver _ _ _)); · decide)
    | ((with_reducible apply Touches.stepBy 0x6842 (touches_State.raiseLim _ _ _ _ _ _ _)); · decide)
    | split)

theorem touches_State.xfmTake (s : State) (n : Nat) (xs : List Smp) :
    Touches mXfm s (State.xfmTake s n xs) := by
  unfold State.xfmTake
  (try dsimp only)
  repeat' (first
    | with_reducible exact Touches.refl _ _
    | ((with_reducible apply Touches.stepBy 0x20000000 (touches_State.updXfm _ _ _)); · decide)
    | split)

theorem touches_State.xfmCancel (s : State) (n cause : Nat) :
    Touches (mEvent ||| mXfm) s (State.xfmCancel s n cause) := by
  unfold State.xfmCancel
  (try dsimp only)
  repeat' (first
    | with_reducible exact Touches.refl _ _
    | ((with_reducible apply Touches.stepBy 0x20000000 (touches_State.updXfm _ _ _)); · decide)
    | ((with_reducible apply Touches.stepBy 0x6842 (touches_State.raise _ _ _ _ _)); · decide)
    | ((with_reducible apply Touches.stepBy 0x2 (touches_State.setFlds_hi _ _ _ ?hi)); (case hi => first | decide | (simp only [rXFM_TAB_CTRL, rXFM_TAB_STATUS]; omega) | (split <;> decide) | (split <;> simp only [rXFM_TAB_CTRL, rXFM_TAB_STATUS] <;> omega)); (· decide))
    | ((with_reducible apply Touches.stepBy 0x2 (touches_State.setFld_hi _ _ _ _ ?hi)); (case hi => first | decide | (simp only [rXFM_TAB_CTRL, rXFM_TAB_STATUS]; omega) | (split <;> decide) | (split <;> simp only [rXFM_TAB_CTRL, rXFM_TAB_STATUS] <;> omega)); (· decide))
    | split
    | with_reducible refine Touches.ofSnd (by assumption) ?_
    | with_reducible refine Touches.ofFst (by assumption) ?_)

theorem touches_State.xfmAnchor (s : State) (n cause : Nat) :
    Touches (mEvent ||| mCtxs ||| mXfm) s (State.xfmAnchor s n cause) := by
  unfold State.xfmAnchor
  (try dsimp only)
  repeat' (first
    | with_reducible exact Touches.refl _ _
    | ((with_reducible apply Touches.stepBy 0x20006842 (touches_State.xfmCancel _ _ _)); · decide)
    | ((with_reducible apply Touches.stepBy 0x8002 (touches_State.loseFrames _ _ _ _)); · decide)
    | ((with_reducible apply Touches.stepBy 0x20000000 (touches_State.updXfm _ _ _)); · decide))

theorem touches_State.tabFill (s : State) (n b : Nat) (ws : Option (List Nat)) :
    Touches (mRegs ||| mXfm) s (State.tabFill s n b ws) := by
  unfold State.tabFill
  (try dsimp only)
  repeat' (first
    | with_reducible exact Touches.refl _ _
    | ((with_reducible apply Touches.stepBy 0x20000000 (touches_State.updXfm _ _ _)); · decide)
    | ((with_reducible apply Touches.stepBy 0x2 (touches_State.setFld_hi _ _ _ _ ?hi)); (case hi => first | decide | (simp only [rXFM_TAB_CRC, rXFM_TAB_LEN]; omega) | (split <;> decide) | (split <;> simp only [rXFM_TAB_CRC, rXFM_TAB_LEN] <;> omega)); (· decide))
    | split)

theorem touches_State.tabLoad (s : State) (n : Nat) :
    Touches (mEvent ||| mXfm) s (State.tabLoad s n) := by
  unfold State.tabLoad
  (try dsimp only)
  repeat' (first
    | with_reducible exact Touches.refl _ _
    | ((with_reducible apply Touches.stepBy 0x20000000 (touches_State.updXfm _ _ _)); · decide)
    | ((with_reducible apply Touches.stepBy 0x6842 (touches_State.raise _ _ _ _ _)); · decide)
    | ((with_reducible apply Touches.stepBy 0x2 (touches_State.setFlds_hi _ _ _ ?hi)); (case hi => first | decide | (simp only [rXFM_TAB_CTRL, rXFM_TAB_STATUS]; omega) | (split <;> decide) | (split <;> simp only [rXFM_TAB_CTRL, rXFM_TAB_STATUS] <;> omega)); (· decide))
    | ((with_reducible apply Touches.stepBy 0x2 (touches_State.setFld_hi _ _ _ _ ?hi)); (case hi => first | decide | (simp only [rXFM_TAB_CTRL, rXFM_TAB_STATUS]; omega) | (split <;> decide) | (split <;> simp only [rXFM_TAB_CTRL, rXFM_TAB_STATUS] <;> omega)); (· decide))
    | split)

theorem touches_State.tabLoadEnd (s : State) (n : Nat) (data : Option (List Nat)) :
    Touches (mEvent ||| mXfm) s (State.tabLoadEnd s n data) := by
  unfold State.tabLoadEnd
  (try dsimp only)
  repeat' (first
    | with_reducible exact Touches.refl _ _
    | ((with_reducible apply Touches.stepBy 0x20000002 (touches_State.tabFill _ _ _ _)); · decide)
    | ((with_reducible apply Touches.stepBy 0x20000000 (touches_State.updXfm _ _ _)); · decide)
    | ((with_reducible apply Touches.stepBy 0x6842 (touches_State.raise _ _ _ _ _)); · decide)
    | ((with_reducible apply Touches.stepBy 0x2 (touches_State.setFlds_hi _ _ _ ?hi)); (case hi => first | decide | (simp only [rXFM_TAB_CTRL, rXFM_TAB_STATUS]; omega) | (split <;> decide) | (split <;> simp only [rXFM_TAB_CTRL, rXFM_TAB_STATUS] <;> omega)); (· decide))
    | ((with_reducible apply Touches.stepBy 0x2 (touches_State.setFld_hi _ _ _ _ ?hi)); (case hi => first | decide | (simp only [rXFM_TAB_CTRL, rXFM_TAB_STATUS]; omega) | (split <;> decide) | (split <;> simp only [rXFM_TAB_CTRL, rXFM_TAB_STATUS] <;> omega)); (· decide))
    | split
    | with_reducible refine Touches.ofSnd (by assumption) ?_
    | with_reducible refine Touches.ofFst (by assumption) ?_)

theorem touches_State.tabSwapGo (s : State) (n : Nat) :
    Touches (mEvent ||| mXfm) s (State.tabSwapGo s n) := by
  unfold State.tabSwapGo
  (try dsimp only)
  repeat' (first
    | with_reducible exact Touches.refl _ _
    | ((with_reducible apply Touches.stepBy 0x20006842 (touches_State.xfmSwapEnd _ _ _)); · decide)
    | ((with_reducible apply Touches.stepBy 0x20000000 (touches_State.updXfm _ _ _)); · decide)
    | ((with_reducible apply Touches.stepBy 0x6842 (touches_State.raise _ _ _ _ _)); · decide)
    | ((with_reducible apply Touches.stepBy 0x2 (touches_State.setFlds_hi _ _ _ ?hi)); (case hi => first | decide | (simp only [rXFM_CFG, rXFM_TAB_CTRL, rXFM_TAB_STATUS, rXFM_TAB_TIME]; omega) | (split <;> decide) | (split <;> simp only [rXFM_CFG, rXFM_TAB_CTRL, rXFM_TAB_STATUS, rXFM_TAB_TIME] <;> omega)); (· decide))
    | ((with_reducible apply Touches.stepBy 0x2 (touches_State.setFld_hi _ _ _ _ ?hi)); (case hi => first | decide | (simp only [rXFM_CFG, rXFM_TAB_CTRL, rXFM_TAB_STATUS, rXFM_TAB_TIME]; omega) | (split <;> decide) | (split <;> simp only [rXFM_CFG, rXFM_TAB_CTRL, rXFM_TAB_STATUS, rXFM_TAB_TIME] <;> omega)); (· decide))
    | split
    | with_reducible refine Touches.ofSnd (by assumption) ?_
    | with_reducible refine Touches.ofFst (by assumption) ?_)

theorem touches_State.wrTabCtrl (n : Nat) (v : Word) (s : State) :
    Touches (mEvent ||| mXfm) s (State.wrTabCtrl n v s) := by
  unfold State.wrTabCtrl
  (try dsimp only)
  repeat' (first
    | with_reducible exact Touches.refl _ _
    | ((with_reducible apply Touches.stepBy 0x20006842 (touches_State.tabSwapGo _ _)); · decide)
    | ((with_reducible apply Touches.stepBy 0x20006842 (touches_State.tabLoad _ _)); · decide)
    | ((with_reducible apply Touches.stepBy 0x20006842 (touches_State.xfmCancel _ _ _)); · decide)
    | ((with_reducible apply Touches.stepBy 0x2 (touches_State.wrCodes_hi _ _ _ _ ?hi)); (case hi => first | decide | (simp only [rXFM_TAB_CTRL]; omega) | (split <;> decide) | (split <;> simp only [rXFM_TAB_CTRL] <;> omega)); (· decide))
    | split)

theorem touches_State.tabSwapCommit (s : State) (n : Nat) :
    Touches (mEvent ||| mXfm) s (State.tabSwapCommit s n) := by
  unfold State.tabSwapCommit
  (try dsimp only)
  repeat' (first
    | with_reducible exact Touches.refl _ _
    | ((with_reducible apply Touches.stepBy 0x20006842 (touches_State.xfmSwapEnd _ _ _)); · decide)
    | ((with_reducible apply Touches.stepBy 0x2 (touches_State.setFld_hi _ _ _ _ ?hi)); (case hi => first | decide | (simp only [rXFM_TAB_AT]; omega) | (split <;> decide) | (split <;> simp only [rXFM_TAB_AT] <;> omega)); (· decide))
    | split
    | with_reducible refine Touches.ofSnd (by assumption) ?_
    | with_reducible refine Touches.ofFst (by assumption) ?_)

theorem touches_State.wrXfmCtrl (n : Nat) (v : Word) (s : State) :
    Touches mRegs s (State.wrXfmCtrl n v s) := by
  unfold State.wrXfmCtrl
  (try dsimp only)
  repeat' (first
    | with_reducible exact Touches.refl _ _
    | ((with_reducible apply Touches.stepBy 0x2 (touches_State.wrCodes_hi _ _ _ _ ?hi)); (case hi => first | decide | (simp only [rXFM_COUNT, rXFM_CTRL]; omega) | (split <;> decide) | (split <;> simp only [rXFM_COUNT, rXFM_CTRL] <;> omega)); (· decide))
    | ((with_reducible apply Touches.stepBy 0x2 (touches_State.addSat_hi _ _ _ _ ?hi)); (case hi => first | decide | (simp only [rXFM_COUNT, rXFM_CTRL]; omega) | (split <;> decide) | (split <;> simp only [rXFM_COUNT, rXFM_CTRL] <;> omega)); (· decide))
    | split)

theorem touches_State.xfmParamCommit (s : State) :
    Touches (mAct ||| mXfm) s (State.xfmParamCommit s) := by
  unfold State.xfmParamCommit
  (try dsimp only)
  repeat' (first
    | with_reducible exact Touches.refl _ _
    | ((with_reducible apply Touches.stepBy 0x20000000 (touches_State.updXfm _ _ _)); · decide)
    | ((with_reducible apply Touches.stepBy 0x4 (touches_State.commitReg _ _)); · decide)
    | ((with_reducible refine Touches.foldl ?_ ?_))
    | ((intro t b); try dsimp only)
    | split
    | with_reducible refine Touches.ofSnd (by assumption) ?_
    | with_reducible refine Touches.ofFst (by assumption) ?_)

theorem touches_State.xfmPlan (s : State) (p : Option PlanImg) :
    Touches mRegs s (State.xfmPlan s p) := by
  unfold State.xfmPlan
  (try dsimp only)
  repeat' (first
    | with_reducible exact Touches.refl _ _
    | ((with_reducible apply Touches.stepBy 0x2 (touches_State.wr_hi _ _ _ ?hi)); (case hi => first | decide | (simp only [rXFM_BINS, rXFM_CFG]; omega) | (split <;> decide) | (split <;> simp only [rXFM_BINS, rXFM_CFG] <;> omega)); (· decide))
    | ((with_reducible refine Touches.foldl ?_ ?_))
    | ((intro t b); try dsimp only)
    | split
    | with_reducible refine Touches.ofSnd (by assumption) ?_
    | with_reducible refine Touches.ofFst (by assumption) ?_)

/-! ### Machine/Det.lean -/

theorem touches_State.updDet (s : State) (n : Nat) (f : Det → Det) :
    Touches mDet s (State.updDet s n f) := by
  constructor <;> first | exact fun h => absurd h (by decide) | exact fun _ => rfl | exact fun _ a _ => State.rd_congr (by rfl) a | exact fun h => h.of_eq rfl rfl rfl rfl rfl | exact FusesOnlyBurn.of_eq rfl rfl rfl rfl rfl

theorem touches_State.updDen (s : State) (n : Nat) (f : Den → Den) :
    Touches mDen s (State.updDen s n f) := by
  constructor <;> first | exact fun h => absurd h (by decide) | exact fun _ => rfl | exact fun _ a _ => State.rd_congr (by rfl) a | exact fun h => h.of_eq rfl rfl rfl rfl rfl | exact FusesOnlyBurn.of_eq rfl rfl rfl rfl rfl

theorem touches_State.detSend (s : State) (n mode : Nat) (a : DetAcc) (on gap : Bool) :
    Touches (mEvent ||| mCtxs ||| mPorts ||| mFrames ||| mDet) s (State.detSend s n mode a on gap) := by
  unfold State.detSend
  (try dsimp only)
  repeat' (first
    | with_reducible exact Touches.refl _ _
    | ((with_reducible apply Touches.stepBy 0x80000000 (touches_State.onFrames _ _)); · decide)
    | ((with_reducible apply Touches.stepBy 0x8000 (touches_State.loseDirect _ _ _)); · decide)
    | ((with_reducible apply Touches.stepBy 0x2e842 (touches_State.sendPort _ _ _ _)); · decide)
    | ((with_reducible apply Touches.stepBy 0x100000000 (touches_State.updDet _ _ _)); · decide)
    | ((with_reducible refine Touches.foldl ?_ ?_))
    | ((intro t b); try dsimp only)
    | split
    | with_reducible refine Touches.ofSnd (by assumption) ?_
    | with_reducible refine Touches.ofFst (by assumption) ?_
    | (with_reducible constructor <;> first | exact fun h => absurd h (by decide) | exact fun _ => rfl | exact fun _ a _ => State.rd_congr (by rfl) a | exact fun h => h.of_eq rfl rfl rfl rfl rfl | exact FusesOnlyBurn.of_eq rfl rfl rfl rfl rfl))

theorem touches_State.detClose (s : State) (n mode : Nat) :
    Touches (mEvent ||| mCtxs ||| mPorts ||| mFrames ||| mDet) s (State.detClose s n mode) := by
  unfold State.detClose
  (try dsimp only)
  repeat' (first
    | with_reducible exact Touches.refl _ _
    | ((with_reducible apply Touches.stepBy 0x2 (touches_State.addSat_hi _ _ _ _ ?hi)); (case hi => first | decide | (simp only [rDET_CFG, rDET_COUNT]; omega) | (split <;> decide) | (split <;> simp only [rDET_CFG, rDET_COUNT] <;> omega)); (· decide))
    | ((with_reducible apply Touches.stepBy 0x18002e842 (touches_State.detSend _ _ _ _ _ _)); · decide)
    | ((with_reducible apply Touches.stepBy 0x100000000 (touches_State.updDet _ _ _)); · decide)
    | split)

theorem touches_State.detEnd (s : State) (n mode : Nat) (j : Int) :
    Touches (mEvent ||| mCtxs ||| mPorts ||| mFrames ||| mDet) s (State.detEnd s n mode j) := by
  unfold State.detEnd
  (try dsimp only)
  repeat' (first
    | with_reducible exact Touches.refl _ _
    | ((with_reducible apply Touches.stepBy 0x6842 (touches_State.raise _ _ _ _ _)); · decide)
    | ((with_reducible apply Touches.stepBy 0x2 (touches_State.addSat_hi _ _ _ _ ?hi)); (case hi => first | decide | (simp only [rDET_COUNT]; omega) | (split <;> decide) | (split <;> simp only [rDET_COUNT] <;> omega)); (· decide))
    | ((with_reducible apply Touches.stepBy 0x18002e842 (touches_State.detClose _ _ _)); · decide)
    | ((with_reducible apply Touches.stepBy 0x100000000 (touches_State.updDet _ _ _)); · decide)
    | split)

theorem touches_State.detBegin (s : State) (n : Nat) (ctrl : Word) (j : Int) (start : Nat) :
    Touches (mRegs ||| mDet) s (State.detBegin s n ctrl j start) := by
  unfold State.detBegin
  (try dsimp only)
  repeat' (first
    | with_reducible exact Touches.refl _ _
    | ((with_reducible apply Touches.stepBy 0x2 (touches_State.addMod_hi _ _ _ _ ?hi)); (case hi => first | decide | (simp only [rDET_FLAT]; omega) | (split <;> decide) | (split <;> simp only [rDET_FLAT] <;> omega)); (· decide))
    | ((with_reducible apply Touches.stepBy 0x100000000 (touches_State.updDet _ _ _)); · decide)
    | split)

theorem touches_State.detAccum (s : State) (m n : Nat) (ctrl : Word) (f : Frm) :
    Touches (mRegs ||| mFreeCtr ||| mDet) s (State.detAccum s m n ctrl f) := by
  unfold State.detAccum
  (try dsimp only)
  repeat' (first
    | with_reducible exact Touches.refl _ _
    | ((with_reducible apply Touches.stepBy 0x200 (touches_State.fresh _)); · decide)
    | ((with_reducible apply Touches.stepBy 0x2 (touches_State.addSat_hi _ _ _ _ ?hi)); (case hi => first | decide | (simp only [rDET_CFG, rDET_STAT]; omega) | (split <;> decide) | (split <;> simp only [rDET_CFG, rDET_STAT] <;> omega)); (· decide))
    | ((with_reducible apply Touches.stepBy 0x100000000 (touches_State.updDet _ _ _)); · decide)
    | split
    | with_reducible refine Touches.ofSnd (by assumption) ?_
    | with_reducible refine Touches.ofFst (by assumption) ?_)

theorem touches_State.detCut (s : State) (m : Nat) (f : Frm) :
    Touches (mEvent ||| mCtxs ||| mPorts ||| mFrames ||| mDet) s (State.detCut s m f) := by
  unfold State.detCut
  (try dsimp only)
  repeat' (first
    | with_reducible exact Touches.refl _ _
    | ((with_reducible apply Touches.stepBy 0x18002e842 (touches_State.detClose _ _ _)); · decide)
    | ((with_reducible apply Touches.stepBy 0x100000000 (touches_State.updDet _ _ _)); · decide)
    | split)

theorem touches_State.detRoll (s : State) (m mode : Nat) (j : Int) :
    Touches (mEvent ||| mCtxs ||| mPorts ||| mFrames ||| mDet) s (State.detRoll s m mode j) := by
  unfold State.detRoll
  (try dsimp only)
  repeat' (first
    | with_reducible exact Touches.refl _ _
    | ((with_reducible apply Touches.stepBy 0x2 (touches_State.addSat_hi _ _ _ _ ?hi)); (case hi => first | decide | (simp only [rDET_COUNT]; omega) | (split <;> decide) | (split <;> simp only [rDET_COUNT] <;> omega)); (· decide))
    | ((with_reducible apply Touches.stepBy 0x18002e842 (touches_State.detEnd _ _ _ _)); · decide)
    | split)

theorem touches_State.detOpen (s : State) (m : Nat) (ctrl : Word) (j : Int) (start : Nat) :
    Touches (mRegs ||| mDet) s (State.detOpen s m ctrl j start) := by
  unfold State.detOpen
  (try dsimp only)
  repeat' (first
    | with_reducible exact Touches.refl _ _
    | ((with_reducible apply Touches.stepBy 0x100000002 (touches_State.detBegin _ _ _ _ _)); · decide)
    | split)

theorem touches_State.detAdd (s : State) (m n : Nat) (ctrl : Word) (f : Frm) :
    Touches (mEvent ||| mFreeCtr ||| mDet) s (State.detAdd s m n ctrl f) := by
  unfold State.detAdd
  (try dsimp only)
  repeat' (first
    | with_reducible exact Touches.refl _ _
    | ((with_reducible apply Touches.stepBy 0x6842 (touches_State.raiseLim _ _ _ _ _ _ _)); · decide)
    | ((with_reducible apply Touches.stepBy 0x2 (touches_State.addSat_hi _ _ _ _ ?hi)); (case hi => first | decide | (simp only [rDET_STAT]; omega) | (split <;> decide) | (split <;> simp only [rDET_STAT] <;> omega)); (· decide))
    | ((with_reducible apply Touches.stepBy 0x100000202 (touches_State.detAccum _ _ _ _ _)); · decide)
    | ((with_reducible apply Touches.stepBy 0x100000000 (touches_State.updDet _ _ _)); · decide)
    | split)

theorem touches_State.detLast (s : State) (m mode : Nat) (j : Int) (last : Bool) :
    Touches (mEvent ||| mCtxs ||| mPorts ||| mFrames ||| mDet) s (State.detLast s m mode j last) := by
  unfold State.detLast
  (try dsimp only)
  repeat' (first
    | with_reducible exact Touches.refl _ _
    | ((with_reducible apply Touches.stepBy 0x18002e842 (touches_State.detEnd _ _ _ _)); · decide)
    | split)

theorem touches_State.detStep (s : State) (m n : Nat) (f : Frm) :
    Touches (mEvent ||| mFreeCtr ||| mCtxs ||| mPorts ||| mFrames ||| mDet) s (State.detStep s m n f) := by
  unfold State.detStep
  (try dsimp only)
  repeat' (first
    | with_reducible exact Touches.refl _ _
    | ((with_reducible apply Touches.stepBy 0x18002e842 (touches_State.detLast _ _ _ _ _)); · decide)
    | ((with_reducible apply Touches.stepBy 0x100006a42 (touches_State.detAdd _ _ _ _ _)); · decide)
    | ((with_reducible apply Touches.stepBy 0x100000002 (touches_State.detOpen _ _ _ _ _)); · decide)
    | ((with_reducible apply Touches.stepBy 0x18002e842 (touches_State.detRoll _ _ _ _)); · decide)
    | ((with_reducible apply Touches.stepBy 0x18002e842 (touches_State.detCut _ _ _)); · decide)
    | split
    | with_reducible refine Touches.ofSnd (by assumption) ?_
    | with_reducible refine Touches.ofFst (by assumption) ?_)

theorem touches_State.popFrame (s : State) (sq : Nat) :
    Touches mFrames s (State.popFrame s sq) := by
  unfold State.popFrame
  (try dsimp only)
  repeat' (first
    | with_reducible exact Touches.refl _ _
    | (with_reducible constructor <;> first | exact fun h => absurd h (by decide) | exact fun _ => rfl | exact fun _ a _ => State.rd_congr (by rfl) a | exact fun h => h.of_eq rfl rfl rfl rfl rfl | exact FusesOnlyBurn.of_eq rfl rfl rfl rfl rfl))

theorem touches_State.detFrame (s : State) (n : Nat) :
    Touches (mEvent ||| mFreeCtr ||| mCtxs ||| mPorts ||| mFrames ||| mDet) s (State.detFrame s n) := by
  unfold State.detFrame
  (try dsimp only)
  repeat' (first
    | with_reducible exact Touches.refl _ _
    | ((with_reducible apply Touches.stepBy 0x80000000 (touches_State.popFrame _ _)); · decide)
    | ((with_reducible apply Touches.stepBy 0x18002ea42 (touches_State.detStep _ _ _ _)); · decide)
    | split
    | with_reducible refine Touches.ofSnd (by assumption) ?_
    | with_reducible refine Touches.ofFst (by assumption) ?_)

theorem touches_State.detReadoutDone (s : State) (n : Nat) :
    Touches mDet s (State.detReadoutDone s n) := by
  unfold State.detReadoutDone
  (try dsimp only)
  repeat' (first
    | with_reducible exact Touches.refl _ _
    | ((with_reducible apply Touches.stepBy 0x100000000 (touches_State.updDet _ _ _)); · decide))

theorem touches_State.detEmpty (s : State) (n sq : Nat) :
    Touches (mCtxs ||| mDet) s (State.detEmpty s n sq) := by
  unfold State.detEmpty
  (try dsimp only)
  repeat' (first
    | with_reducible exact Touches.refl _ _
    | ((with_reducible apply Touches.stepBy 0x8000 (touches_State.loseDirect _ _ _)); · decide)
    | ((with_reducible apply Touches.stepBy 0x100000000 (touches_State.updDet _ _ _)); · decide))

theorem touches_State.detDiscard (s : State) (n : Nat) :
    Touches (mCtxs ||| mDet) s (State.detDiscard s n) := by
  unfold State.detDiscard
  (try dsimp only)
  repeat' (first
    | with_reducible exact Touches.refl _ _
    | ((with_reducible apply Touches.stepBy 0x100008000 (touches_State.detEmpty _ _ _)); · decide)
    | split)

theorem touches_State.detFresh (s : State) (n : Nat) :
    Touches mDet s (State.detFresh s n) := by
  unfold State.detFresh
  (try dsimp only)
  repeat' (first
    | with_reducible exact Touches.refl _ _
    | ((with_reducible apply Touches.stepBy 0x100000000 (touches_State.updDet _ _ _)); · decide))

theorem touches_State.denScore (s : State) (m n : Nat) (ctrl : Word) (c : Nat) (p : Nat × Nat) :
    Touches (mEvent ||| mDen) s (State.denScore s m n ctrl c p) := by
  unfold State.denScore
  (try dsimp only)
  repeat' (first
    | with_reducible exact Touches.refl _ _
    | ((with_reducible apply Touches.stepBy 0x6842 (touches_State.raiseLim _ _ _ _ _ _ _)); · decide)
    | ((with_reducible apply Touches.stepBy 0x2 (touches_State.addSat_hi _ _ _ _ ?hi)); (case hi => first | decide | (simp only [rDEN_COUNT, rDEN_STAT]; omega) | (split <;> decide) | (split <;> simp only [rDEN_COUNT, rDEN_STAT] <;> omega)); (· decide))
    | ((with_reducible apply Touches.stepBy 0x200000000 (touches_State.updDen _ _ _)); · decide)
    | split
    | with_reducible refine Touches.ofSnd (by assumption) ?_
    | with_reducible refine Touches.ofFst (by assumption) ?_)

theorem touches_State.denAccum (s : State) (m n : Nat) (ctrl : Word) (f : Frm) :
    Touches (mEvent ||| mFreeCtr ||| mDen) s (State.denAccum s m n ctrl f) := by
  unfold State.denAccum
  (try dsimp only)
  repeat' (first
    | with_reducible exact Touches.refl _ _
    | ((with_reducible apply Touches.stepBy 0x200 (touches_State.fresh _)); · decide)
    | ((with_reducible apply Touches.stepBy 0x200006842 (touches_State.denScore _ _ _ _ _ _)); · decide)
    | ((with_reducible apply Touches.stepBy 0x200000000 (touches_State.updDen _ _ _)); · decide)
    | ((with_reducible refine Touches.foldl ?_ ?_))
    | ((intro t b); try dsimp only)
    | split
    | with_reducible refine Touches.ofSnd (by assumption) ?_
    | with_reducible refine Touches.ofFst (by assumption) ?_)

theorem touches_State.denClose (s : State) (m : Nat) (ctrl : Word) :
    Touches (mEvent ||| mCtxs ||| mPorts ||| mDen) s (State.denClose s m ctrl) := by
  unfold State.denClose
  (try dsimp only)
  repeat' (first
    | with_reducible exact Touches.refl _ _
    | ((with_reducible apply Touches.stepBy 0x6842 (touches_State.raiseLim _ _ _ _ _ _ _)); · decide)
    | ((with_reducible apply Touches.stepBy 0x2 (touches_State.addSat_hi _ _ _ _ ?hi)); (case hi => first | decide | (simp only [rDEN_CFG, rDEN_COUNT, rDEN_LOST]; omega) | (split <;> decide) | (split <;> simp only [rDEN_CFG, rDEN_COUNT, rDEN_LOST] <;> omega)); (· decide))
    | ((with_reducible apply Touches.stepBy 0x8000 (touches_State.loseDirect _ _ _)); · decide)
    | ((with_reducible apply Touches.stepBy 0x2e842 (touches_State.emitRec _ _ _)); · decide)
    | ((with_reducible apply Touches.stepBy 0x200000000 (touches_State.updDen _ _ _)); · decide)
    | split
    | with_reducible refine Touches.ofSnd (by assumption) ?_
    | with_reducible refine Touches.ofFst (by assumption) ?_)

theorem touches_State.denEnd (s : State) (m : Nat) (ctrl : Word) (j : Int) :
    Touches (mEvent ||| mCtxs ||| mPorts ||| mDen) s (State.denEnd s m ctrl j) := by
  unfold State.denEnd
  (try dsimp only)
  repeat' (first
    | with_reducible exact Touches.refl _ _
    | ((with_reducible apply Touches.stepBy 0x6842 (touches_State.raise _ _ _ _ _)); · decide)
    | ((with_reducible apply Touches.stepBy 0x2 (touches_State.addSat_hi _ _ _ _ ?hi)); (case hi => first | decide | (simp only [rDEN_COUNT]; omega) | (split <;> decide) | (split <;> simp only [rDEN_COUNT] <;> omega)); (· decide))
    | ((with_reducible apply Touches.stepBy 0x20002e842 (touches_State.denClose _ _ _)); · decide)
    | ((with_reducible apply Touches.stepBy 0x200000000 (touches_State.updDen _ _ _)); · decide)
    | split)

theorem touches_State.denBegin (s : State) (m : Nat) (ctrl : Word) (j : Int) (start : Nat) :
    Touches mDen s (State.denBegin s m ctrl j start) := by
  unfold State.denBegin
  (try dsimp only)
  repeat' (first
    | with_reducible exact Touches.refl _ _
    | ((with_reducible apply Touches.stepBy 0x200000000 (touches_State.updDen _ _ _)); · decide)
    | split)

theorem touches_State.denCut (s : State) (m : Nat) (f : Frm) :
    Touches (mEvent ||| mCtxs ||| mPorts ||| mDen) s (State.denCut s m f) := by
  unfold State.denCut
  (try dsimp only)
  repeat' (first
    | with_reducible exact Touches.refl _ _
    | ((with_reducible apply Touches.stepBy 0x20002e842 (touches_State.denClose _ _ _)); · decide)
    | ((with_reducible apply Touches.stepBy 0x200000000 (touches_State.updDen _ _ _)); · decide)
    | split)

theorem touches_State.denRoll (s : State) (m : Nat) (ctrl : Word) (j : Int) :
    Touches (mEvent ||| mCtxs ||| mPorts ||| mDen) s (State.denRoll s m ctrl j) := by
  unfold State.denRoll
  (try dsimp only)
  repeat' (first
    | with_reducible exact Touches.refl _ _
    | ((with_reducible apply Touches.stepBy 0x2 (touches_State.addSat_hi _ _ _ _ ?hi)); (case hi => first | decide | (simp only [rDEN_LOST]; omega) | (split <;> decide) | (split <;> simp only [rDEN_LOST] <;> omega)); (· decide))
    | ((with_reducible apply Touches.stepBy 0x20002e842 (touches_State.denEnd _ _ _ _)); · decide)
    | split)

theorem touches_State.denOpen (s : State) (m : Nat) (ctrl : Word) (j : Int) (start : Nat) :
    Touches mDen s (State.denOpen s m ctrl j start) := by
  unfold State.denOpen
  (try dsimp only)
  repeat' (first
    | with_reducible exact Touches.refl _ _
    | ((with_reducible apply Touches.stepBy 0x200000000 (touches_State.denBegin _ _ _ _ _)); · decide)
    | split)

theorem touches_State.denAdd (s : State) (m n : Nat) (ctrl : Word) (f : Frm) :
    Touches (mEvent ||| mFreeCtr ||| mDen) s (State.denAdd s m n ctrl f) := by
  unfold State.denAdd
  (try dsimp only)
  repeat' (first
    | with_reducible exact Touches.refl _ _
    | ((with_reducible apply Touches.stepBy 0x6842 (touches_State.raiseLim _ _ _ _ _ _ _)); · decide)
    | ((with_reducible apply Touches.stepBy 0x2 (touches_State.addSat_hi _ _ _ _ ?hi)); (case hi => first | decide | (simp only [rDEN_LOST]; omega) | (split <;> decide) | (split <;> simp only [rDEN_LOST] <;> omega)); (· decide))
    | ((with_reducible apply Touches.stepBy 0x200006a42 (touches_State.denAccum _ _ _ _ _)); · decide)
    | ((with_reducible apply Touches.stepBy 0x200000000 (touches_State.updDen _ _ _)); · decide)
    | split)

theorem touches_State.denLast (s : State) (m : Nat) (ctrl : Word) (j : Int) (last : Bool) :
    Touches (mEvent ||| mCtxs ||| mPorts ||| mDen) s (State.denLast s m ctrl j last) := by
  unfold State.denLast
  (try dsimp only)
  repeat' (first
    | with_reducible exact Touches.refl _ _
    | ((with_reducible apply Touches.stepBy 0x20002e842 (touches_State.denEnd _ _ _ _)); · decide)
    | split)

theorem touches_State.denStep (s : State) (m n : Nat) (f : Frm) :
    Touches (mEvent ||| mFreeCtr ||| mCtxs ||| mPorts ||| mDen) s (State.denStep s m n f) := by
  unfold State.denStep
  (try dsimp only)
  repeat' (first
    | with_reducible exact Touches.refl _ _
    | ((with_reducible apply Touches.stepBy 0x20002e842 (touches_State.denLast _ _ _ _ _)); · decide)
    | ((with_reducible apply Touches.stepBy 0x200006a42 (touches_State.denAdd _ _ _ _ _)); · decide)
    | ((with_reducible apply Touches.stepBy 0x200000000 (touches_State.denOpen _ _ _ _ _)); · decide)
    | ((with_reducible apply Touches.stepBy 0x20002e842 (touches_State.denRoll _ _ _ _)); · decide)
    | ((with_reducible apply Touches.stepBy 0x20002e842 (touches_State.denCut _ _ _)); · decide)
    | split
    | with_reducible refine Touches.ofSnd (by assumption) ?_
    | with_reducible refine Touches.ofFst (by assumption) ?_)

theorem touches_State.denFrame (s : State) (n : Nat) :
    Touches (mEvent ||| mFreeCtr ||| mCtxs ||| mPorts ||| mFrames ||| mDen) s (State.denFrame s n) := by
  unfold State.denFrame
  (try dsimp only)
  repeat' (first
    | with_reducible exact Touches.refl _ _
    | ((with_reducible apply Touches.stepBy 0x20002ea42 (touches_State.denStep _ _ _ _)); · decide)
    | ((with_reducible apply Touches.stepBy 0x80000000 (touches_State.popFrame _ _)); · decide)
    | split
    | with_reducible refine Touches.ofSnd (by assumption) ?_
    | with_reducible refine Touches.ofFst (by assumption) ?_)

theorem touches_State.denReadoutDone (s : State) (n : Nat) :
    Touches mDen s (State.denReadoutDone s n) := by
  unfold State.denReadoutDone
  (try dsimp only)
  repeat' (first
    | with_reducible exact Touches.refl _ _
    | ((with_reducible apply Touches.stepBy 0x200000000 (touches_State.updDen _ _ _)); · decide))

theorem touches_State.denEmpty (s : State) (n sq : Nat) :
    Touches (mCtxs ||| mDen) s (State.denEmpty s n sq) := by
  unfold State.denEmpty
  (try dsimp only)
  repeat' (first
    | with_reducible exact Touches.refl _ _
    | ((with_reducible apply Touches.stepBy 0x8000 (touches_State.loseDirect _ _ _)); · decide)
    | ((with_reducible apply Touches.stepBy 0x200000000 (touches_State.updDen _ _ _)); · decide))

theorem touches_State.denDiscard (s : State) (n : Nat) :
    Touches (mCtxs ||| mDen) s (State.denDiscard s n) := by
  unfold State.denDiscard
  (try dsimp only)
  repeat' (first
    | with_reducible exact Touches.refl _ _
    | ((with_reducible apply Touches.stepBy 0x200008000 (touches_State.denEmpty _ _ _)); · decide)
    | split)

theorem touches_State.denFresh (s : State) (n : Nat) :
    Touches mDen s (State.denFresh s n) := by
  unfold State.denFresh
  (try dsimp only)
  repeat' (first
    | with_reducible exact Touches.refl _ _
    | ((with_reducible apply Touches.stepBy 0x200000000 (touches_State.updDen _ _ _)); · decide))

theorem touches_State.detDiscardWr (s : State) (n : Nat) :
    Touches mEvent s (State.detDiscardWr s n) := by
  unfold State.detDiscardWr
  (try dsimp only)
  repeat' (first
    | with_reducible exact Touches.refl _ _
    | ((with_reducible apply Touches.stepBy 0x6842 (touches_State.raise _ _ _ _ _)); · decide)
    | ((with_reducible apply Touches.stepBy 0x2 (touches_State.addSat_hi _ _ _ _ ?hi)); (case hi => first | decide | (simp only [rDET_COUNT]; omega) | (split <;> decide) | (split <;> simp only [rDET_COUNT] <;> omega)); (· decide)))

theorem touches_State.wrDetCtrl (n : Nat) (v : Word) (s : State) :
    Touches mEvent s (State.wrDetCtrl n v s) := by
  unfold State.wrDetCtrl
  (try dsimp only)
  repeat' (first
    | with_reducible exact Touches.refl _ _
    | ((with_reducible apply Touches.stepBy 0x2 (touches_State.wrCodes_hi _ _ _ _ ?hi)); (case hi => first | decide | (simp only [rDET_CTRL, rDET_INT]; omega) | (split <;> decide) | (split <;> simp only [rDET_CTRL, rDET_INT] <;> omega)); (· decide))
    | ((with_reducible apply Touches.stepBy 0x6842 (touches_State.detDiscardWr _ _)); · decide)
    | split)

theorem touches_State.wrDetInt (n : Nat) (v : Word) (s : State) :
    Touches mEvent s (State.wrDetInt n v s) := by
  unfold State.wrDetInt
  (try dsimp only)
  repeat' (first
    | with_reducible exact Touches.refl _ _
    | ((with_reducible apply Touches.stepBy 0x2 (touches_State.wrCodes_hi _ _ _ _ ?hi)); (case hi => first | decide | (simp only [rDET_CTRL, rDET_INT]; omega) | (split <;> decide) | (split <;> simp only [rDET_CTRL, rDET_INT] <;> omega)); (· decide))
    | ((with_reducible apply Touches.stepBy 0x6842 (touches_State.detDiscardWr _ _)); · decide)
    | split)

theorem touches_State.wrDetAlign (n : Nat) (v : Word) (s : State) :
    Touches mRegs s (State.wrDetAlign n v s) := by
  unfold State.wrDetAlign
  (try dsimp only)
  repeat' (first
    | with_reducible exact Touches.refl _ _
    | ((with_reducible apply Touches.stepBy 0x2 (touches_State.wrCodes_hi _ _ _ _ ?hi)); (case hi => first | decide | (simp only [rDET_ALIGN]; omega) | (split <;> decide) | (split <;> simp only [rDET_ALIGN] <;> omega)); (· decide)))

theorem touches_State.denDiscardWr (s : State) (n : Nat) :
    Touches mEvent s (State.denDiscardWr s n) := by
  unfold State.denDiscardWr
  (try dsimp only)
  repeat' (first
    | with_reducible exact Touches.refl _ _
    | ((with_reducible apply Touches.stepBy 0x6842 (touches_State.raise _ _ _ _ _)); · decide)
    | ((with_reducible apply Touches.stepBy 0x2 (touches_State.addSat_hi _ _ _ _ ?hi)); (case hi => first | decide | (simp only [rDEN_COUNT]; omega) | (split <;> decide) | (split <;> simp only [rDEN_COUNT] <;> omega)); (· decide)))

theorem touches_State.wrDenCtrl (n : Nat) (v : Word) (s : State) :
    Touches mEvent s (State.wrDenCtrl n v s) := by
  unfold State.wrDenCtrl
  (try dsimp only)
  repeat' (first
    | with_reducible exact Touches.refl _ _
    | ((with_reducible apply Touches.stepBy 0x2 (touches_State.wrCodes_hi _ _ _ _ ?hi)); (case hi => first | decide | (simp only [rDEN_CTRL, rDEN_INT]; omega) | (split <;> decide) | (split <;> simp only [rDEN_CTRL, rDEN_INT] <;> omega)); (· decide))
    | ((with_reducible apply Touches.stepBy 0x6842 (touches_State.denDiscardWr _ _)); · decide)
    | split)

theorem touches_State.wrDenInt (n : Nat) (v : Word) (s : State) :
    Touches mEvent s (State.wrDenInt n v s) := by
  unfold State.wrDenInt
  (try dsimp only)
  repeat' (first
    | with_reducible exact Touches.refl _ _
    | ((with_reducible apply Touches.stepBy 0x2 (touches_State.wrCodes_hi _ _ _ _ ?hi)); (case hi => first | decide | (simp only [rDEN_CTRL, rDEN_INT]; omega) | (split <;> decide) | (split <;> simp only [rDEN_CTRL, rDEN_INT] <;> omega)); (· decide))
    | ((with_reducible apply Touches.stepBy 0x6842 (touches_State.denDiscardWr _ _)); · decide)
    | split)

theorem touches_State.wrDenAlign (n : Nat) (v : Word) (s : State) :
    Touches mRegs s (State.wrDenAlign n v s) := by
  unfold State.wrDenAlign
  (try dsimp only)
  repeat' (first
    | with_reducible exact Touches.refl _ _
    | ((with_reducible apply Touches.stepBy 0x2 (touches_State.wrCodes_hi _ _ _ _ ?hi)); (case hi => first | decide | (simp only [rDEN_ALIGN]; omega) | (split <;> decide) | (split <;> simp only [rDEN_ALIGN] <;> omega)); (· decide)))

theorem touches_State.detParamCommit (s : State) :
    Touches (mAct ||| mDet ||| mDen) s (State.detParamCommit s) := by
  unfold State.detParamCommit
  (try dsimp only)
  repeat' (first
    | with_reducible exact Touches.refl _ _
    | ((with_reducible apply Touches.stepBy 0x4 (touches_State.commitReg _ _)); · decide)
    | ((with_reducible apply Touches.stepBy 0x200000000 (touches_State.updDen _ _ _)); · decide)
    | ((with_reducible apply Touches.stepBy 0x100000000 (touches_State.updDet _ _ _)); · decide)
    | ((with_reducible refine Touches.foldl ?_ ?_))
    | ((intro t b); try dsimp only))

theorem touches_State.detPlan (s : State) (p : Option PlanImg) :
    Touches mRegs s (State.detPlan s p) := by
  unfold State.detPlan
  (try dsimp only)
  repeat' (first
    | with_reducible exact Touches.refl _ _
    | ((with_reducible apply Touches.stepBy 0x2 (touches_State.setFlds_hi _ _ _ ?hi)); (case hi => first | decide | (simp only [rDEN_CFG, rDET_CFG, rDET_FLAT]; omega) | (split <;> decide) | (split <;> simp only [rDEN_CFG, rDET_CFG, rDET_FLAT] <;> omega)); (· decide))
    | ((with_reducible apply Touches.stepBy 0x2 (touches_State.wr_hi _ _ _ ?hi)); (case hi => first | decide | (simp only [rDEN_CFG, rDET_CFG, rDET_FLAT]; omega) | (split <;> decide) | (split <;> simp only [rDEN_CFG, rDET_CFG, rDET_FLAT] <;> omega)); (· decide))
    | ((with_reducible refine Touches.foldl ?_ ?_))
    | ((intro t b); try dsimp only)
    | split
    | with_reducible refine Touches.ofSnd (by assumption) ?_
    | with_reducible refine Touches.ofFst (by assumption) ?_)

/-! ### Machine/NetTx.lean -/

theorem touches_State.updNet (s : State) (i : Nat) (f : NetSub → NetSub) :
    Touches mNet s (State.updNet s i f) := by
  constructor <;> first | exact fun h => absurd h (by decide) | exact fun _ => rfl | exact fun _ a _ => State.rd_congr (by rfl) a | exact fun h => h.of_eq rfl rfl rfl rfl rfl | exact FusesOnlyBurn.of_eq rfl rfl rfl rfl rfl

theorem touches_State.updAve (s : State) (a : Nat) (f : Ave → Ave) :
    Touches mAve s (State.updAve s a f) := by
  constructor <;> first | exact fun h => absurd h (by decide) | exact fun _ => rfl | exact fun _ a _ => State.rd_congr (by rfl) a | exact fun h => h.of_eq rfl rfl rfl rfl rfl | exact FusesOnlyBurn.of_eq rfl rfl rfl rfl rfl

theorem touches_State.setAveState (s : State) (a v : Nat) :
    Touches mRegs s (State.setAveState s a v) := by
  unfold State.setAveState
  (try dsimp only)
  repeat' (first
    | with_reducible exact Touches.refl _ _
    | ((with_reducible apply Touches.stepBy 0x2 (touches_State.setFld_hi _ _ _ _ ?hi)); (case hi => first | decide | (simp only [rAVE_STATUS]; omega) | (split <;> decide) | (split <;> simp only [rAVE_STATUS] <;> omega)); (· decide)))

theorem touches_State.netSend (s : State) (i : Nat) (o : Out) :
    Touches (mRegs ||| mOuts ||| mNet) s (State.netSend s i o) := by
  unfold State.netSend
  (try dsimp only)
  repeat' (first
    | with_reducible exact Touches.refl _ _
    | ((with_reducible apply Touches.stepBy 0x40 (touches_State.send _ _)); · decide)
    | ((with_reducible apply Touches.stepBy 0x2 (touches_State.addMod_hi _ _ _ _ ?hi)); (case hi => first | decide | (simp only [rNET_SUB_CNT0]; omega) | (split <;> decide) | (split <;> simp only [rNET_SUB_CNT0] <;> omega)); (· decide))
    | ((with_reducible apply Touches.stepBy 0x100000000000 (touches_State.updNet _ _ _)); · decide)
    | split)

theorem touches_State.udpSend (s : State) (i dmac : Nat) (v6 : Bool) (dip dport : Nat) (bytes : List Byte) :
    Touches (mRegs ||| mOuts ||| mNet) s (State.udpSend s i dmac v6 dip dport bytes) := by
  unfold State.udpSend
  (try dsimp only)
  repeat' (first
    | with_reducible exact Touches.refl _ _
    | ((with_reducible apply Touches.stepBy 0x100000000042 (touches_State.netSend _ _ _)); · decide))

theorem touches_State.aveSend (s : State) (a typ hi ofs aux time : Nat) (body : List Byte) :
    Touches (mRegs ||| mOuts ||| mNet) s (State.aveSend s a typ hi ofs aux time body) := by
  unfold State.aveSend
  (try dsimp only)
  repeat' (first
    | with_reducible exact Touches.refl _ _
    | ((with_reducible apply Touches.stepBy 0x100000000042 (touches_State.udpSend _ _ _ _ _ _ _)); · decide)
    | split)

theorem touches_State.aveTrigPkt (s : State) (a : Nat) (m : AveTrig) (retx : Bool) :
    Touches (mRegs ||| mOuts ||| mNet) s (State.aveTrigPkt s a m retx) := by
  unfold State.aveTrigPkt
  (try dsimp only)
  repeat' (first
    | with_reducible exact Touches.refl _ _
    | ((with_reducible apply Touches.stepBy 0x100000000042 (touches_State.aveSend _ _ _ _ _ _ _ _)); · decide))

theorem touches_State.aveTrigger (s : State) (a k t : Nat) :
    Touches (mRegs ||| mOuts ||| mNet ||| mAve) s (State.aveTrigger s a k t) := by
  unfold State.aveTrigger
  (try dsimp only)
  repeat' (first
    | with_reducible exact Touches.refl _ _
    | ((with_reducible apply Touches.stepBy 0x2 (touches_State.addSat_hi _ _ _ _ ?hi)); (case hi => first | decide | (simp only [rAVE_GLOBAL]; omega) | (split <;> decide) | (split <;> simp only [rAVE_GLOBAL] <;> omega)); (· decide))
    | ((with_reducible apply Touches.stepBy 0x100000000042 (touches_State.aveTrigPkt _ _ _ _)); · decide)
    | ((with_reducible apply Touches.stepBy 0x200000000000 (touches_State.updAve _ _ _)); · decide)
    | split)

theorem touches_State.trigForward (s : State) (q t : Nat) :
    Touches (mRegs ||| mOuts ||| mNet ||| mAve) s (State.trigForward s q t) := by
  unfold State.trigForward
  (try dsimp only)
  repeat' (first
    | with_reducible exact Touches.refl _ _
    | ((with_reducible apply Touches.stepBy 0x300000000042 (touches_State.aveTrigger _ _ _ _)); · decide)
    | ((with_reducible refine Touches.foldl ?_ ?_))
    | ((intro t b); try dsimp only)
    | split)

theorem touches_State.wrTrigSend (v : Word) (s : State) :
    Touches (mRegs ||| mOuts ||| mNet ||| mAve) s (State.wrTrigSend v s) := by
  unfold State.wrTrigSend
  (try dsimp only)
  repeat' (first
    | with_reducible exact Touches.refl _ _
    | ((with_reducible apply Touches.stepBy 0x2 (touches_State.wrCodes_hi _ _ _ _ ?hi)); (case hi => first | decide | (simp only [rAVE_TRIG_SEND, rAVE_TRIG_SEND_TIME]; omega) | (split <;> decide) | (split <;> simp only [rAVE_TRIG_SEND, rAVE_TRIG_SEND_TIME] <;> omega)); (· decide))
    | ((with_reducible apply Touches.stepBy 0x300000000042 (touches_State.aveTrigger _ _ _ _)); · decide)
    | split)

/-! ### Machine/Trg.lean -/

theorem touches_State.updTq (s : State) (q : Nat) (f : Tq → Tq) :
    Touches mTq s (State.updTq s q f) := by
  constructor <;> first | exact fun h => absurd h (by decide) | exact fun _ => rfl | exact fun _ a _ => State.rd_congr (by rfl) a | exact fun h => h.of_eq rfl rfl rfl rfl rfl | exact FusesOnlyBurn.of_eq rfl rfl rfl rfl rfl

theorem touches_State.updLt (s : State) (i : Nat) (f : Lt → Lt) :
    Touches mLt s (State.updLt s i f) := by
  constructor <;> first | exact fun h => absurd h (by decide) | exact fun _ => rfl | exact fun _ a _ => State.rd_congr (by rfl) a | exact fun h => h.of_eq rfl rfl rfl rfl rfl | exact FusesOnlyBurn.of_eq rfl rfl rfl rfl rfl

theorem touches_State.updFm (s : State) (u : Nat) (f : Fm → Fm) :
    Touches mFm s (State.updFm s u f) := by
  constructor <;> first | exact fun h => absurd h (by decide) | exact fun _ => rfl | exact fun _ a _ => State.rd_congr (by rfl) a | exact fun h => h.of_eq rfl rfl rfl rfl rfl | exact FusesOnlyBurn.of_eq rfl rfl rfl rfl rfl

theorem touches_State.updBus (s : State) (l : Nat) (f : Bus → Bus) :
    Touches mBus s (State.updBus s l f) := by
  unfold State.updBus
  (try dsimp only)
  repeat' (first
    | with_reducible exact Touches.refl _ _
    | ((with_reducible apply Touches.stepBy 0x2000000000 (touches_State.onBus _ _)); · decide))

theorem touches_State.trgRelat (s : State) :
    Touches mRegs s (State.trgRelat s) := by
  unfold State.trgRelat
  (try dsimp only)
  repeat' (first
    | with_reducible exact Touches.refl _ _
    | ((with_reducible apply Touches.stepBy 0x2 (touches_State.setFld_hi _ _ _ _ ?hi)); (case hi => first | decide | (simp only [rTRG_SRC, rTRG_TQ_EFF]; omega) | (split <;> decide) | (split <;> simp only [rTRG_SRC, rTRG_TQ_EFF] <;> omega)); (· decide))
    | ((with_reducible refine Touches.foldl ?_ ?_))
    | ((intro t b); try dsimp only)
    | split)

theorem touches_State.trgIssue (s : State) (e : TrgEv) :
    Touches (mRegs ||| mTq) s (State.trgIssue s e) := by
  unfold State.trgIssue
  (try dsimp only)
  repeat' (first
    | with_reducible exact Touches.refl _ _
    | ((with_reducible apply Touches.stepBy 0x400000000 (touches_State.updTq _ _ _)); · decide)
    | ((with_reducible apply Touches.stepBy 0x2 (touches_State.addMod_hi _ _ _ _ ?hi)); (case hi => first | decide | (simp only [rTRG_SRC]; omega) | (split <;> decide) | (split <;> simp only [rTRG_SRC] <;> omega)); (· decide))
    | ((with_reducible refine Touches.foldl ?_ ?_))
    | ((intro t b); try dsimp only)
    | split)

theorem touches_State.trgTdc (s : State) (c t : Nat) (loss : Bool) (stamp : Word) :
    Touches (mRegs ||| mTq) s (State.trgTdc s c t loss stamp) := by
  unfold State.trgTdc
  (try dsimp only)
  repeat' (first
    | with_reducible exact Touches.refl _ _
    | ((with_reducible apply Touches.stepBy 0x400000002 (touches_State.trgIssue _ _)); · decide)
    | split)

theorem touches_State.trgMon (s : State) (m : Nat) :
    Touches (mRegs ||| mTq) s (State.trgMon s m) := by
  unfold State.trgMon
  (try dsimp only)
  repeat' (first
    | with_reducible exact Touches.refl _ _
    | ((with_reducible apply Touches.stepBy 0x400000002 (touches_State.trgIssue _ _)); · decide))

theorem touches_State.trgPg (s : State) (g t : Nat) :
    Touches (mRegs ||| mTq) s (State.trgPg s g t) := by
  unfold State.trgPg
  (try dsimp only)
  repeat' (first
    | with_reducible exact Touches.refl _ _
    | ((with_reducible apply Touches.stepBy 0x400000002 (touches_State.trgIssue _ _)); · decide))

theorem touches_State.wrTrgSw (v : Word) (s : State) :
    Touches (mRegs ||| mTq) s (State.wrTrgSw v s) := by
  unfold State.wrTrgSw
  (try dsimp only)
  repeat' (first
    | with_reducible exact Touches.refl _ _
    | ((with_reducible apply Touches.stepBy 0x400000002 (touches_State.trgIssue _ _)); · decide)
    | ((with_reducible refine Touches.foldl ?_ ?_))
    | ((intro t b); try dsimp only)
    | split)

theorem touches_State.trgTimer (s : State) (t : Nat) :
    Touches (mRegs ||| mTime ||| mTq ||| mTmr) s (State.trgTimer s t) := by
  unfold State.trgTimer
  (try dsimp only)
  repeat' (first
    | with_reducible exact Touches.refl _ _
    | ((with_reducible apply Touches.stepBy 0x400000002 (touches_State.trgIssue _ _)); · decide)
    | ((with_reducible apply Touches.stepBy 0x80 (touches_State.reach _ _)); · decide)
    | ((with_reducible apply Touches.stepBy 0x4000000000 (touches_State.onTmr _ _)); · decide)
    | split)

theorem touches_State.busEvent (s : State) (l t : Nat) :
    Touches (mRegs ||| mTime ||| mTq ||| mBus) s (State.busEvent s l t) := by
  unfold State.busEvent
  (try dsimp only)
  repeat' (first
    | with_reducible exact Touches.refl _ _
    | ((with_reducible apply Touches.stepBy 0x400000002 (touches_State.trgIssue _ _)); · decide)
    | ((with_reducible apply Touches.stepBy 0x2000000000 (touches_State.updBus _ _ _)); · decide)
    | ((with_reducible apply Touches.stepBy 0x80 (touches_State.reach _ _)); · decide)
    | split)

theorem touches_State.busPulseEnd (s : State) (l : Nat) :
    Touches (mTime ||| mBus) s (State.busPulseEnd s l) := by
  unfold State.busPulseEnd
  (try dsimp only)
  repeat' (first
    | with_reducible exact Touches.refl _ _
    | ((with_reducible apply Touches.stepBy 0x2000000000 (touches_State.updBus _ _ _)); · decide)
    | ((with_reducible apply Touches.stepBy 0x80 (touches_State.reach _ _)); · decide)
    | split
    | with_reducible refine Touches.ofSnd (by assumption) ?_
    | with_reducible refine Touches.ofFst (by assumption) ?_)

theorem touches_State.busHigh (s : State) (l : Nat) :
    Touches mBus s (State.busHigh s l) := by
  unfold State.busHigh
  (try dsimp only)
  repeat' (first
    | with_reducible exact Touches.refl _ _
    | ((with_reducible apply Touches.stepBy 0x2000000000 (touches_State.updBus _ _ _)); · decide))

theorem touches_State.busDrive (s : State) (q : Nat) :
    Touches mBus s (State.busDrive s q) := by
  unfold State.busDrive
  (try dsimp only)
  repeat' (first
    | with_reducible exact Touches.refl _ _
    | ((with_reducible apply Touches.stepBy 0x2000000000 (touches_State.updBus _ _ _)); · decide)
    | ((with_reducible refine Touches.foldl ?_ ?_))
    | ((intro t b); try dsimp only)
    | split)

theorem touches_State.tqDisarm (s : State) (q : Nat) :
    Touches (mRegs ||| mTq) s (State.tqDisarm s q) := by
  unfold State.tqDisarm
  (try dsimp only)
  repeat' (first
    | with_reducible exact Touches.refl _ _
    | ((with_reducible apply Touches.stepBy 0x400000000 (touches_State.updTq _ _ _)); · decide)
    | ((with_reducible apply Touches.stepBy 0x2 (touches_State.setFld_hi _ _ _ _ ?hi)); (case hi => first | decide | (simp only [rTRG_TQ_CFG]; omega) | (split <;> decide) | (split <;> simp only [rTRG_TQ_CFG] <;> omega)); (· decide)))

theorem touches_State.tqDecide (s : State) (q mode pl : Nat) (e : TrgEv) (forced free : Bool) :
    Touches (mEvent ||| mTq ||| mBus ||| mDecs ||| mNet ||| mAve) s (State.tqDecide s q mode pl e forced free) := by
  unfold State.tqDecide
  (try dsimp only)
  repeat' (first
    | with_reducible exact Touches.refl _ _
    | ((with_reducible apply Touches.stepBy 0x400000002 (touches_State.tqDisarm _ _)); · decide)
    | ((with_reducible apply Touches.stepBy 0x2000000000 (touches_State.busDrive _ _)); · decide)
    | ((with_reducible apply Touches.stepBy 0x400000002 (touches_State.trgIssue _ _)); · decide)
    | ((with_reducible apply Touches.stepBy 0x400000000 (touches_State.updTq _ _ _)); · decide)
    | ((with_reducible apply Touches.stepBy 0x6842 (touches_State.raiseLim _ _ _ _ _ _ _)); · decide)
    | ((with_reducible apply Touches.stepBy 0x2 (touches_State.addMod_hi _ _ _ _ ?hi)); (case hi => first | decide | (simp only [rACQ_CTRL, rTRG_TQ_COUNT, rTRG_TQ_LAST_INFO, rTRG_TQ_LAST_TIME, rTRG_TQ_SNAP]; omega) | (split <;> decide) | (split <;> simp only [rACQ_CTRL, rTRG_TQ_COUNT, rTRG_TQ_LAST_INFO, rTRG_TQ_LAST_TIME, rTRG_TQ_SNAP] <;> omega)); (· decide))
    | ((with_reducible apply Touches.stepBy 0x2 (touches_State.wr_hi _ _ _ ?hi)); (case hi => first | decide | (simp only [rACQ_CTRL, rTRG_TQ_COUNT, rTRG_TQ_LAST_INFO, rTRG_TQ_LAST_TIME, rTRG_TQ_SNAP]; omega) | (split <;> decide) | (split <;> simp only [rACQ_CTRL, rTRG_TQ_COUNT, rTRG_TQ_LAST_INFO, rTRG_TQ_LAST_TIME, rTRG_TQ_SNAP] <;> omega)); (· decide))
    | ((with_reducible apply Touches.stepBy 0x8000000000 (touches_State.onDecs _ _)); · decide)
    | ((with_reducible apply Touches.stepBy 0x300000000042 (touches_State.trigForward _ _ _)); · decide)
    | ((with_reducible refine Touches.foldl ?_ ?_))
    | ((intro t b); try dsimp only)
    | split)

theorem touches_State.tqQualify (s : State) (q : Nat) (c : List Word) (pl : Nat) (e : TrgEv) :
    Touches (mEvent ||| mTq ||| mBus ||| mDecs ||| mNet ||| mAve) s (State.tqQualify s q c pl e) := by
  unfold State.tqQualify
  (try dsimp only)
  repeat' (first
    | with_reducible exact Touches.refl _ _
    | ((with_reducible apply Touches.stepBy 0x30a400006842 (touches_State.tqDecide _ _ _ _ _ _ _)); · decide)
    | ((with_reducible apply Touches.stepBy 0x400000000 (touches_State.updTq _ _ _)); · decide)
    | ((with_reducible apply Touches.stepBy 0x2 (touches_State.addSat_hi _ _ _ _ ?hi)); (case hi => first | decide | (simp only [rTRG_TQ_STAT]; omega) | (split <;> decide) | (split <;> simp only [rTRG_TQ_STAT] <;> omega)); (· decide))
    | split
    | with_reducible refine Touches.ofSnd (by assumption) ?_
    | with_reducible refine Touches.ofFst (by assumption) ?_)

theorem touches_State.tqJudge (s : State) (q : Nat) (e : TrgEv) :
    Touches (mEvent ||| mTq ||| mBus ||| mDecs ||| mNet ||| mAve) s (State.tqJudge s q e) := by
  unfold State.tqJudge
  (try dsimp only)
  repeat' (first
    | with_reducible exact Touches.refl _ _
    | ((with_reducible apply Touches.stepBy 0x30a400006842 (touches_State.tqQualify _ _ _ _ _)); · decide)
    | ((with_reducible apply Touches.stepBy 0x400000000 (touches_State.updTq _ _ _)); · decide)
    | split
    | with_reducible refine Touches.ofSnd (by assumption) ?_
    | with_reducible refine Touches.ofFst (by assumption) ?_)

theorem touches_State.tqArrive (s : State) (q : Nat) :
    Touches (mEvent ||| mTq ||| mBus ||| mDecs ||| mNet ||| mAve) s (State.tqArrive s q) := by
  unfold State.tqArrive
  (try dsimp only)
  repeat' (first
    | with_reducible exact Touches.refl _ _
    | ((with_reducible apply Touches.stepBy 0x30a400006842 (touches_State.tqJudge _ _ _)); · decide)
    | ((with_reducible apply Touches.stepBy 0x400000000 (touches_State.updTq _ _ _)); · decide)
    | ((with_reducible apply Touches.stepBy 0x6842 (touches_State.raise _ _ _ _ _)); · decide)
    | ((with_reducible apply Touches.stepBy 0x2 (touches_State.addSat_hi _ _ _ _ ?hi)); (case hi => first | decide | (simp only [rTRG_TQ_STAT]; omega) | (split <;> decide) | (split <;> simp only [rTRG_TQ_STAT] <;> omega)); (· decide))
    | split
    | with_reducible refine Touches.ofSnd (by assumption) ?_
    | with_reducible refine Touches.ofFst (by assumption) ?_)

theorem touches_State.tqNotDue (s : State) (q : Nat) (c : List Word) (e : TrgEv) :
    Touches (mEvent ||| mTime ||| mTq ||| mBus ||| mDecs ||| mNet ||| mAve) s (State.tqNotDue s q c e) := by
  unfold State.tqNotDue
  (try dsimp only)
  repeat' (first
    | with_reducible exact Touches.refl _ _
    | ((with_reducible apply Touches.stepBy 0x30a400006842 (touches_State.tqQualify _ _ _ _ _)); · decide)
    | ((with_reducible apply Touches.stepBy 0x400000000 (touches_State.updTq _ _ _)); · decide)
    | ((with_reducible apply Touches.stepBy 0x80 (touches_State.reach _ _)); · decide))

theorem touches_State.tqHorizon (s : State) (q : Nat) :
    Touches (mEvent ||| mTime ||| mTq ||| mBus ||| mDecs ||| mNet ||| mAve) s (State.tqHorizon s q) := by
  unfold State.tqHorizon
  (try dsimp only)
  repeat' (first
    | with_reducible exact Touches.refl _ _
    | ((with_reducible apply Touches.stepBy 0x30a4000068c2 (touches_State.tqNotDue _ _ _ _)); · decide)
    | ((with_reducible apply Touches.stepBy 0x30a400006842 (touches_State.tqJudge _ _ _)); · decide)
    | ((with_reducible apply Touches.stepBy 0x400000000 (touches_State.updTq _ _ _)); · decide)
    | ((with_reducible apply Touches.stepBy 0x80 (touches_State.reach _ _)); · decide)
    | split
    | with_reducible refine Touches.ofSnd (by assumption) ?_
    | with_reducible refine Touches.ofFst (by assumption) ?_)

theorem touches_State.tqAuto (s : State) (q : Nat) :
    Touches (mEvent ||| mTime ||| mFreeCtr ||| mTq ||| mBus ||| mDecs ||| mNet ||| mAve) s (State.tqAuto s q) := by
  unfold State.tqAuto
  (try dsimp only)
  repeat' (first
    | with_reducible exact Touches.refl _ _
    | ((with_reducible apply Touches.stepBy 0x30a400006842 (touches_State.tqDecide _ _ _ _ _ _ _)); · decide)
    | ((with_reducible apply Touches.stepBy 0x80 (touches_State.reach _ _)); · decide)
    | ((with_reducible apply Touches.stepBy 0x200 (touches_State.fresh _)); · decide)
    | split
    | with_reducible refine Touches.ofSnd (by assumption) ?_
    | with_reducible refine Touches.ofFst (by assumption) ?_)

theorem touches_State.tqFree (s : State) (q : Nat) :
    Touches (mEvent ||| mTime ||| mFreeCtr ||| mTq ||| mBus ||| mDecs ||| mNet ||| mAve) s (State.tqFree s q) := by
  unfold State.tqFree
  (try dsimp only)
  repeat' (first
    | with_reducible exact Touches.refl _ _
    | ((with_reducible apply Touches.stepBy 0x30a400006842 (touches_State.tqDecide _ _ _ _ _ _ _)); · decide)
    | ((with_reducible apply Touches.stepBy 0x400000000 (touches_State.updTq _ _ _)); · decide)
    | ((with_reducible apply Touches.stepBy 0x80 (touches_State.reach _ _)); · decide)
    | ((with_reducible apply Touches.stepBy 0x200 (touches_State.fresh _)); · decide)
    | split
    | with_reducible refine Touches.ofSnd (by assumption) ?_
    | with_reducible refine Touches.ofFst (by assumption) ?_)

theorem touches_State.tqArm (s : State) (q : Nat) :
    Touches (mRegs ||| mTq) s (State.tqArm s q) := by
  unfold State.tqArm
  (try dsimp only)
  repeat' (first
    | with_reducible exact Touches.refl _ _
    | ((with_reducible apply Touches.stepBy 0x400000000 (touches_State.updTq _ _ _)); · decide)
    | ((with_reducible apply Touches.stepBy 0x2 (touches_State.setFld_hi _ _ _ _ ?hi)); (case hi => first | decide | (simp only [rTRG_TQ_CFG]; omega) | (split <;> decide) | (split <;> simp only [rTRG_TQ_CFG] <;> omega)); (· decide))
    | split)

theorem touches_State.tqFlush (s : State) (q : Nat) :
    Touches (mEvent ||| mTq ||| mBus ||| mDecs ||| mNet ||| mAve) s (State.tqFlush s q) := by
  unfold State.tqFlush
  (try dsimp only)
  repeat' (first
    | with_reducible exact Touches.refl _ _
    | ((with_reducible apply Touches.stepBy 0x30a400006842 (touches_State.tqJudge _ _ _)); · decide)
    | ((with_reducible apply Touches.stepBy 0x400000000 (touches_State.updTq _ _ _)); · decide)
    | ((with_reducible refine Touches.foldl ?_ ?_))
    | ((intro t b); try dsimp only)
    | split)

theorem touches_State.tqTimers (s : State) (q : Nat) :
    Touches mTq s (State.tqTimers s q) := by
  unfold State.tqTimers
  (try dsimp only)
  repeat' (first
    | with_reducible exact Touches.refl _ _
    | ((with_reducible apply Touches.stepBy 0x400000000 (touches_State.updTq _ _ _)); · decide))

theorem touches_State.tqRelease (s : State) (q : Nat) (c : List Word) :
    Touches (mEvent ||| mTq ||| mBus ||| mDecs ||| mNet ||| mAve) s (State.tqRelease s q c) := by
  unfold State.tqRelease
  (try dsimp only)
  repeat' (first
    | with_reducible exact Touches.refl _ _
    | ((with_reducible apply Touches.stepBy 0x400000000 (touches_State.tqTimers _ _)); · decide)
    | ((with_reducible apply Touches.stepBy 0x30a400006842 (touches_State.tqFlush _ _)); · decide)
    | ((with_reducible apply Touches.stepBy 0x400000000 (touches_State.updTq _ _ _)); · decide))

theorem touches_State.ltIssue (s : State) (i : Nat) (cyc : Nat) (e : TrgEv) :
    Touches (mEvent ||| mTq ||| mLt) s (State.ltIssue s i cyc e).1 := by
  unfold State.ltIssue
  (try dsimp only)
  repeat' (first
    | with_reducible exact Touches.refl _ _
    | ((with_reducible apply Touches.stepBy 0x400000002 (touches_State.trgIssue _ _)); · decide)
    | ((with_reducible apply Touches.stepBy 0x800000000 (touches_State.updLt _ _ _)); · decide)
    | ((with_reducible apply Touches.stepBy 0x6842 (touches_State.raiseLim _ _ _ _ _ _ _)); · decide)
    | ((with_reducible apply Touches.stepBy 0x2 (touches_State.addSat_hi _ _ _ _ ?hi)); (case hi => first | decide | (simp only [rTRG_LT_STAT]; omega) | (split <;> decide) | (split <;> simp only [rTRG_LT_STAT] <;> omega)); (· decide))
    | ((with_reducible apply Touches.stepBy 0x2 (touches_State.addMod_hi _ _ _ _ ?hi)); (case hi => first | decide | (simp only [rTRG_LT_STAT]; omega) | (split <;> decide) | (split <;> simp only [rTRG_LT_STAT] <;> omega)); (· decide))
    | split)

theorem touches_State.ltSample (s : State) (i : Nat) (x : Smp) :
    Touches (mEvent ||| mFreeCtr ||| mTq ||| mLt) s (State.ltSample s i x).1 := by
  unfold State.ltSample
  (try dsimp only)
  repeat' (first
    | with_reducible exact Touches.refl _ _
    | ((with_reducible apply Touches.stepBy 0xc00006842 (touches_State.ltIssue _ _ _ _)); · decide)
    | ((with_reducible apply Touches.stepBy 0x800000000 (touches_State.updLt _ _ _)); · decide)
    | ((with_reducible apply Touches.stepBy 0x200 (touches_State.fresh _)); · decide)
    | split
    | with_reducible refine Touches.ofSnd (by assumption) ?_
    | with_reducible refine Touches.ofFst (by assumption) ?_)

theorem touches_State.ltRun (x0 : Nat) (s : State) (x2 : Nat) :
    Touches (mEvent ||| mFreeCtr ||| mTq ||| mLt) s (State.ltRun x0 s x2) := by
  induction x0 generalizing s x2 with
  | zero => unfold State.ltRun; exact Touches.refl _ _
  | succ x0 ih =>
    unfold State.ltRun
    (try dsimp only)
    repeat' (first
      | with_reducible exact Touches.refl _ _
      | ((with_reducible apply Touches.stepBy 0xc00006a42 (ih _ _)); · decide)
      | ((with_reducible apply Touches.stepBy 0xc00006a42 (touches_State.ltSample _ _ _)); · decide)
      | ((with_reducible apply Touches.stepBy 0x800000000 (touches_State.updLt _ _ _)); · decide)
      | split
      | with_reducible refine Touches.ofSnd (by assumption) ?_
      | with_reducible refine Touches.ofFst (by assumption) ?_
      | split)

theorem touches_State.ltCrossing (s : State) (i : Nat) :
    Touches (mEvent ||| mFreeCtr ||| mTq ||| mLt) s (State.ltCrossing s i) := by
  unfold State.ltCrossing
  (try dsimp only)
  repeat' (first
    | with_reducible exact Touches.refl _ _
    | ((with_reducible apply Touches.stepBy 0xc00006a42 (touches_State.ltRun  _ _ _)); · decide))

theorem touches_State.ltTake (s : State) (i : Nat) (xs : List Smp) :
    Touches mLt s (State.ltTake s i xs) := by
  unfold State.ltTake
  (try dsimp only)
  repeat' (first
    | with_reducible exact Touches.refl _ _
    | ((with_reducible apply Touches.stepBy 0x800000000 (touches_State.updLt _ _ _)); · decide)
    | split)

theorem touches_State.fmViolations (s : State) (u : Nat) (f : Frm) :
    Touches mFreeCtr s (State.fmViolations s u f).2 := by
  unfold State.fmViolations
  (try dsimp only)
  repeat' (first
    | with_reducible exact Touches.refl _ _
    | ((with_reducible apply Touches.stepBy 0x200 (touches_State.fresh _)); · decide)
    | split
    | with_reducible refine Touches.ofSnd (by assumption) ?_
    | with_reducible refine Touches.ofFst (by assumption) ?_)

theorem touches_State.fmFrame (s : State) (u : Nat) :
    Touches (mRegs ||| mFreeCtr ||| mFrames ||| mTq ||| mFm) s (State.fmFrame s u) := by
  unfold State.fmFrame
  (try dsimp only)
  repeat' (first
    | with_reducible exact Touches.refl _ _
    | ((with_reducible apply Touches.stepBy 0x200 (touches_State.fmViolations _ _ _)); · decide)
    | ((with_reducible apply Touches.stepBy 0x400000002 (touches_State.trgIssue _ _)); · decide)
    | ((with_reducible apply Touches.stepBy 0x1000000000 (touches_State.updFm _ _ _)); · decide)
    | ((with_reducible apply Touches.stepBy 0x2 (touches_State.addMod_hi _ _ _ _ ?hi)); (case hi => first | decide | (simp only [rTRG_FM_CFG, rTRG_FM_STAT]; omega) | (split <;> decide) | (split <;> simp only [rTRG_FM_CFG, rTRG_FM_STAT] <;> omega)); (· decide))
    | ((with_reducible apply Touches.stepBy 0x80000000 (touches_State.popFrame _ _)); · decide)
    | split
    | with_reducible refine Touches.ofSnd (by assumption) ?_
    | with_reducible refine Touches.ofFst (by assumption) ?_)

theorem touches_State.wrTbus (l : Nat) (v : Word) (s : State) :
    Touches mRegs s (State.wrTbus l v s) := by
  unfold State.wrTbus
  (try dsimp only)
  repeat' (first
    | with_reducible exact Touches.refl _ _
    | ((with_reducible apply Touches.stepBy 0x2 (touches_State.wrCodes_hi _ _ _ _ ?hi)); (case hi => first | decide | (simp only [rTRG_TBUS]; omega) | (split <;> decide) | (split <;> simp only [rTRG_TBUS] <;> omega)); (· decide))
    | split)

theorem touches_State.wrTmrCfg (t : Nat) (v : Word) (s : State) :
    Touches mRegs s (State.wrTmrCfg t v s) := by
  unfold State.wrTmrCfg
  (try dsimp only)
  repeat' (first
    | with_reducible exact Touches.refl _ _
    | ((with_reducible apply Touches.stepBy 0x2 (touches_State.wrCodes_hi _ _ _ _ ?hi)); (case hi => first | decide | (simp only [rTRG_TMR_CFG]; omega) | (split <;> decide) | (split <;> simp only [rTRG_TMR_CFG] <;> omega)); (· decide))
    | split)

theorem touches_State.wrLtCfg (i : Nat) (v : Word) (s : State) :
    Touches mRegs s (State.wrLtCfg i v s) := by
  unfold State.wrLtCfg
  (try dsimp only)
  repeat' (first
    | with_reducible exact Touches.refl _ _
    | ((with_reducible apply Touches.stepBy 0x2 (touches_State.wrCodes_hi _ _ _ _ ?hi)); (case hi => first | decide | (simp only [rTRG_LT_CFG]; omega) | (split <;> decide) | (split <;> simp only [rTRG_LT_CFG] <;> omega)); (· decide))
    | split)

theorem touches_State.wrFmCfg (u : Nat) (v : Word) (s : State) :
    Touches mRegs s (State.wrFmCfg u v s) := by
  unfold State.wrFmCfg
  (try dsimp only)
  repeat' (first
    | with_reducible exact Touches.refl _ _
    | ((with_reducible apply Touches.stepBy 0x2 (touches_State.wrCodes_hi _ _ _ _ ?hi)); (case hi => first | decide | (simp only [rTRG_FM_CFG]; omega) | (split <;> decide) | (split <;> simp only [rTRG_FM_CFG] <;> omega)); (· decide))
    | split)

theorem touches_State.wrTqCfg (q : Nat) (v : Word) (s : State) :
    Touches (mRegs ||| mTq) s (State.wrTqCfg q v s) := by
  unfold State.wrTqCfg
  (try dsimp only)
  repeat' (first
    | with_reducible exact Touches.refl _ _
    | ((with_reducible apply Touches.stepBy 0x400000002 (touches_State.tqArm _ _)); · decide)
    | ((with_reducible apply Touches.stepBy 0x400000002 (touches_State.tqDisarm _ _)); · decide)
    | ((with_reducible apply Touches.stepBy 0x2 (touches_State.wrCodes_hi _ _ _ _ ?hi)); (case hi => first | decide | (simp only [rTRG_TQ_AUTO, rTRG_TQ_CFG]; omega) | (split <;> decide) | (split <;> simp only [rTRG_TQ_AUTO, rTRG_TQ_CFG] <;> omega)); (· decide))
    | split)

theorem touches_State.wrTqChain (q : Nat) (v : Word) (s : State) :
    Touches mRegs s (State.wrTqChain q v s) := by
  unfold State.wrTqChain
  (try dsimp only)
  repeat' (first
    | with_reducible exact Touches.refl _ _
    | ((with_reducible apply Touches.stepBy 0x2 (touches_State.wrCodes_hi _ _ _ _ ?hi)); (case hi => first | decide | (simp only [rTRG_TQ_CHAIN]; omega) | (split <;> decide) | (split <;> simp only [rTRG_TQ_CHAIN] <;> omega)); (· decide))
    | split)

theorem touches_State.wrTqAuto (q : Nat) (v : Word) (s : State) :
    Touches mRegs s (State.wrTqAuto q v s) := by
  unfold State.wrTqAuto
  (try dsimp only)
  repeat' (first
    | with_reducible exact Touches.refl _ _
    | ((with_reducible apply Touches.stepBy 0x2 (touches_State.wrCodes_hi _ _ _ _ ?hi)); (case hi => first | decide | (simp only [rTRG_TQ_AUTO, rTRG_TQ_CFG]; omega) | (split <;> decide) | (split <;> simp only [rTRG_TQ_AUTO, rTRG_TQ_CFG] <;> omega)); (· decide))
    | split)

theorem touches_State.wrTqSnap (q : Nat) (v : Word) (s : State) :
    Touches mRegs s (State.wrTqSnap q v s) := by
  unfold State.wrTqSnap
  (try dsimp only)
  repeat' (first
    | with_reducible exact Touches.refl _ _
    | ((with_reducible apply Touches.stepBy 0x2 (touches_State.addMod_hi _ _ _ _ ?hi)); (case hi => first | decide | (simp only [rTRG_TQ_SNAP]; omega) | (split <;> decide) | (split <;> simp only [rTRG_TQ_SNAP] <;> omega)); (· decide))
    | split)

theorem touches_State.trgCommitRegs (s : State) :
    Touches mAct s (State.trgCommitRegs s) := by
  unfold State.trgCommitRegs
  (try dsimp only)
  repeat' (first
    | with_reducible exact Touches.refl _ _
    | ((with_reducible apply Touches.stepBy 0x4 (touches_State.commitReg _ _)); · decide)
    | ((with_reducible refine Touches.foldl ?_ ?_))
    | ((intro t b); try dsimp only))

theorem touches_State.trgCommitted (s s1 : State) :
    Touches (mEvent ||| mTq ||| mFm ||| mBus ||| mTmr ||| mDecs ||| mNet ||| mAve) s1 (State.trgCommitted s s1) := by
  unfold State.trgCommitted
  (try dsimp only)
  repeat' (first
    | with_reducible exact Touches.refl _ _
    | ((with_reducible apply Touches.stepBy 0x30a400006842 (touches_State.tqRelease _ _ _)); · decide)
    | ((with_reducible apply Touches.stepBy 0x2 (touches_State.trgRelat _)); · decide)
    | ((with_reducible apply Touches.stepBy 0x1000000000 (touches_State.updFm _ _ _)); · decide)
    | ((with_reducible apply Touches.stepBy 0x4000000000 (touches_State.onTmr _ _)); · decide)
    | ((with_reducible refine Touches.foldl ?_ ?_))
    | ((intro t b); try dsimp only)
    | split)

theorem touches_State.trgParamCommit (s : State) :
    Touches (mEvent ||| mAct ||| mTq ||| mFm ||| mBus ||| mTmr ||| mDecs ||| mNet ||| mAve) s (State.trgParamCommit s) := by
  unfold State.trgParamCommit
  (try dsimp only)
  repeat' (first
    | with_reducible exact Touches.refl _ _
    | ((with_reducible apply Touches.stepBy 0x30f400006842 (touches_State.trgCommitted _ _)); · decide)
    | ((with_reducible apply Touches.stepBy 0x4 (touches_State.trgCommitRegs _)); · decide))

theorem touches_State.trgRestart (s : State) :
    Touches (mEvent ||| mTq ||| mBus ||| mDecs ||| mNet ||| mAve) s (State.trgRestart s) := by
  unfold State.trgRestart
  (try dsimp only)
  repeat' (first
    | with_reducible exact Touches.refl _ _
    | ((with_reducible apply Touches.stepBy 0x400000000 (touches_State.tqTimers _ _)); · decide)
    | ((with_reducible apply Touches.stepBy 0x30a400006842 (touches_State.tqFlush _ _)); · decide)
    | ((with_reducible refine Touches.foldl ?_ ?_))
    | ((intro t b); try dsimp only))

theorem touches_State.trgPlan (s : State) (p : Option PlanImg) :
    Touches (mRegs ||| mAct ||| mGlb) s (State.trgPlan s p) := by
  unfold State.trgPlan
  (try dsimp only)
  repeat' (first
    | with_reducible exact Touches.refl _ _
    | ((with_reducible apply Touches.stepBy 0x4 (touches_State.setAct _ _ _)); · decide)
    | ((with_reducible apply Touches.stepBy 0x2 (touches_State.setFlds_hi _ _ _ ?hi)); (case hi => first | decide | (simp only [rTRG_FM_CFG, rTRG_LT_CFG]; omega) | (split <;> decide) | (split <;> simp only [rTRG_FM_CFG, rTRG_LT_CFG] <;> omega)); (· decide))
    | ((with_reducible apply Touches.stepBy 0x80000000000002 (touches_State.setFlds _ _ _)); · decide)
    | ((with_reducible refine Touches.foldl ?_ ?_))
    | ((intro t b); try dsimp only)
    | split
    | with_reducible refine Touches.ofSnd (by assumption) ?_
    | with_reducible refine Touches.ofFst (by assumption) ?_)

/-! ### Machine/Acq.lean -/

theorem touches_State.updAu (s : State) (n : Nat) (f : Au → Au) :
    Touches mAu s (State.updAu s n f) := by
  constructor <;> first | exact fun h => absurd h (by decide) | exact fun _ => rfl | exact fun _ a _ => State.rd_congr (by rfl) a | exact fun h => h.of_eq rfl rfl rfl rfl rfl | exact FusesOnlyBurn.of_eq rfl rfl rfl rfl rfl

theorem touches_State.setAuState (s : State) (n st : Nat) :
    Touches mRegs s (State.setAuState s n st) := by
  unfold State.setAuState
  (try dsimp only)
  repeat' (first
    | with_reducible exact Touches.refl _ _
    | ((with_reducible apply Touches.stepBy 0x2 (touches_State.setFld_hi _ _ _ _ ?hi)); (case hi => first | decide | (simp only [rACQ_CMD]; omega) | (split <;> decide) | (split <;> simp only [rACQ_CMD] <;> omega)); (· decide)))

theorem touches_State.ringLeave (s : State) (b : Nat) :
    Touches (mRegs ||| mCtxs ||| mBillets) s (State.ringLeave s b) := by
  unfold State.ringLeave
  (try dsimp only)
  repeat' (first
    | with_reducible exact Touches.refl _ _
    | ((with_reducible apply Touches.stepBy 0x18002 (touches_State.settleBillet _ _)); · decide)
    | ((with_reducible apply Touches.stepBy 0x10000 (touches_State.setBillet _ _ _)); · decide))

theorem touches_State.ringFresh (s : State) (n blk x : Nat) :
    Touches (mEvent ||| mFreeCtr ||| mCtxs ||| mBillets ||| mAu) s (State.ringFresh s n blk x) := by
  unfold State.ringFresh
  (try dsimp only)
  repeat' (first
    | with_reducible exact Touches.refl _ _
    | ((with_reducible apply Touches.stepBy 0x18002 (touches_State.overwrite  _ _ _ _)); · decide)
    | ((with_reducible apply Touches.stepBy 0x8000 (touches_State.loseItems _ _ _)); · decide)
    | ((with_reducible apply Touches.stepBy 0x1ea42 (touches_State.takeBillet _ _ _)); · decide)
    | ((with_reducible apply Touches.stepBy 0x8000 (touches_State.updCtx _ _ _)); · decide)
    | ((with_reducible apply Touches.stepBy 0x6842 (touches_State.raiseLim _ _ _ _ _ _ _)); · decide)
    | ((with_reducible apply Touches.stepBy 0x10000000000 (touches_State.updAu _ _ _)); · decide)
    | split
    | with_reducible refine Touches.ofSnd (by assumption) ?_
    | with_reducible refine Touches.ofFst (by assumption) ?_)

theorem touches_State.ringBillet (s : State) (n blk : Nat) :
    Touches (mEvent ||| mFreeCtr ||| mCtxs ||| mBillets ||| mAu) s (State.ringBillet s n blk) := by
  unfold State.ringBillet
  (try dsimp only)
  repeat' (first
    | with_reducible exact Touches.refl _ _
    | ((with_reducible apply Touches.stepBy 0x1000001ea42 (touches_State.ringFresh _ _ _ _)); · decide)
    | ((with_reducible apply Touches.stepBy 0x18002 (touches_State.ringLeave _ _)); · decide)
    | ((with_reducible apply Touches.stepBy 0x10000000000 (touches_State.updAu _ _ _)); · decide)
    | split
    | with_reducible refine Touches.ofSnd (by assumption) ?_
    | with_reducible refine Touches.ofFst (by assumption) ?_)

theorem touches_State.ringPutSmp (s : State) (n : Nat) (x : Smp) :
    Touches (mEvent ||| mFreeCtr ||| mStore ||| mCtxs ||| mBillets ||| mBadLines ||| mAu) s (State.ringPutSmp s n x) := by
  unfold State.ringPutSmp
  (try dsimp only)
  repeat' (first
    | with_reducible exact Touches.refl _ _
    | ((with_reducible apply Touches.stepBy 0x11ee42 (touches_State.place _ _)); · decide)
    | ((with_reducible apply Touches.stepBy 0x100400 (touches_State.storeWrite _ _ _)); · decide)
    | ((with_reducible apply Touches.stepBy 0x1000001ea42 (touches_State.ringBillet _ _ _)); · decide)
    | ((with_reducible apply Touches.stepBy 0x10000000000 (touches_State.updAu _ _ _)); · decide)
    | split
    | with_reducible refine Touches.ofSnd (by assumption) ?_
    | with_reducible refine Touches.ofFst (by assumption) ?_)

theorem touches_State.ringEmpty (s : State) (n : Nat) :
    Touches (mRegs ||| mCtxs ||| mBillets ||| mAu) s (State.ringEmpty s n) := by
  unfold State.ringEmpty
  (try dsimp only)
  repeat' (first
    | with_reducible exact Touches.refl _ _
    | ((with_reducible apply Touches.stepBy 0x18002 (touches_State.ringLeave _ _)); · decide)
    | ((with_reducible apply Touches.stepBy 0x10000000000 (touches_State.updAu _ _ _)); · decide)
    | ((with_reducible refine Touches.foldl ?_ ?_))
    | ((intro t b); try dsimp only))

theorem touches_State.acqSnap (s : State) (n : Nat) :
    Touches mRegs s (State.acqSnap s n) := by
  unfold State.acqSnap
  (try dsimp only)
  repeat' (first
    | with_reducible exact Touches.refl _ _
    | ((with_reducible apply Touches.stepBy 0x2 (touches_State.addMod_hi _ _ _ _ ?hi)); (case hi => first | decide | (simp only [rACQ_COUNT0, rACQ_COUNT1, rACQ_COUNT2, rACQ_SNAP]; omega) | (split <;> decide) | (split <;> simp only [rACQ_COUNT0, rACQ_COUNT1, rACQ_COUNT2, rACQ_SNAP] <;> omega)); (· decide))
    | ((with_reducible apply Touches.stepBy 0x2 (touches_State.setFlds_hi _ _ _ ?hi)); (case hi => first | decide | (simp only [rACQ_COUNT0, rACQ_COUNT1, rACQ_COUNT2, rACQ_SNAP]; omega) | (split <;> decide) | (split <;> simp only [rACQ_COUNT0, rACQ_COUNT1, rACQ_COUNT2, rACQ_SNAP] <;> omega)); (· decide))
    | ((with_reducible apply Touches.stepBy 0x2 (touches_State.wr_hi _ _ _ ?hi)); (case hi => first | decide | (simp only [rACQ_COUNT0, rACQ_COUNT1, rACQ_COUNT2, rACQ_SNAP]; omega) | (split <;> decide) | (split <;> simp only [rACQ_COUNT0, rACQ_COUNT1, rACQ_COUNT2, rACQ_SNAP] <;> omega)); (· decide)))

theorem touches_State.auEmit (s : State) (n : Nat) (x : Option Nat) (r : Prod) :
    Touches (mEvent ||| mCtxs ||| mPorts) s (State.auEmit s n x r) := by
  unfold State.auEmit
  (try dsimp only)
  repeat' (first
    | with_reducible exact Touches.refl _ _
    | ((with_reducible apply Touches.stepBy 0x2e842 (touches_State.sendPort _ _ _ _)); · decide)
    | ((with_reducible refine Touches.foldl ?_ ?_))
    | ((intro t b); try dsimp only)
    | (with_reducible constructor <;> first | exact fun h => absurd h (by decide) | exact fun _ => rfl | exact fun _ a _ => State.rd_congr (by rfl) a | exact fun h => h.of_eq rfl rfl rfl rfl rfl | exact FusesOnlyBurn.of_eq rfl rfl rfl rfl rfl))

theorem touches_State.auClose (s : State) (n e : Nat) (trunc gap : Bool) (lost more : Nat) :
    Touches (mEvent ||| mFreeCtr ||| mStore ||| mCtxs ||| mBillets ||| mPorts ||| mAside ||| mBadLines ||| mAu) s (State.auClose s n e trunc gap lost more) := by
  unfold State.auClose
  (try dsimp only)
  repeat' (first
    | with_reducible exact Touches.refl _ _
    | ((with_reducible apply Touches.stepBy 0x11ee42 (touches_State.place _ _)); · decide)
    | ((with_reducible apply Touches.stepBy 0x8000 (touches_State.loseItems _ _ _)); · decide)
    | ((with_reducible apply Touches.stepBy 0x200 (touches_State.fresh _)); · decide)
    | ((with_reducible apply Touches.stepBy 0x2 (touches_State.addMod_hi _ _ _ _ ?hi)); (case hi => first | decide | (simp only [rACQ_CFG, rACQ_CMD, rACQ_CTRL, rRMU_CFG]; omega) | (split <;> decide) | (split <;> simp only [rACQ_CFG, rACQ_CMD, rACQ_CTRL, rRMU_CFG] <;> omega)); (· decide))
    | ((with_reducible apply Touches.stepBy 0x40000 (touches_State.onAside _ _)); · decide)
    | ((with_reducible apply Touches.stepBy 0x2e842 (touches_State.auEmit _ _ _ _)); · decide)
    | ((with_reducible apply Touches.stepBy 0x2 (touches_State.acqSnap _ _)); · decide)
    | ((with_reducible apply Touches.stepBy 0x2 (touches_State.setAuState _ _ _)); · decide)
    | ((with_reducible apply Touches.stepBy 0x10000000000 (touches_State.updAu _ _ _)); · decide)
    | ((with_reducible refine Touches.foldl ?_ ?_))
    | ((intro t b); try dsimp only)
    | split
    | with_reducible refine Touches.ofSnd (by assumption) ?_
    | with_reducible refine Touches.ofFst (by assumption) ?_)

theorem touches_State.auRecordClose (s : State) (n : Nat) :
    Touches (mEvent ||| mFreeCtr ||| mStore ||| mCtxs ||| mBillets ||| mPorts ||| mAside ||| mBadLines ||| mAu) s (State.auRecordClose s n) := by
  unfold State.auRecordClose
  (try dsimp only)
  repeat' (first
    | with_reducible exact Touches.refl _ _
    | ((with_reducible apply Touches.stepBy 0x1000017ee42 (touches_State.auClose _ _ _ _ _ _ _)); · decide)
    | split
    | with_reducible refine Touches.ofSnd (by assumption) ?_
    | with_reducible refine Touches.ofFst (by assumption) ?_)

theorem touches_State.auHoldoffEnd (s : State) (n : Nat) :
    Touches (mEvent ||| mTime) s (State.auHoldoffEnd s n) := by
  unfold State.auHoldoffEnd
  (try dsimp only)
  repeat' (first
    | with_reducible exact Touches.refl _ _
    | ((with_reducible apply Touches.stepBy 0x6842 (touches_State.raise _ _ _ _ _)); · decide)
    | ((with_reducible apply Touches.stepBy 0x80 (touches_State.reach _ _)); · decide)
    | ((with_reducible apply Touches.stepBy 0x2 (touches_State.setAuState _ _ _)); · decide)
    | split)

theorem touches_State.auPreFilled (s : State) (n : Nat) :
    Touches mRegs s (State.auPreFilled s n) := by
  unfold State.auPreFilled
  (try dsimp only)
  repeat' (first
    | with_reducible exact Touches.refl _ _
    | ((with_reducible apply Touches.stepBy 0x2 (touches_State.setAuState _ _ _)); · decide)
    | split)

theorem touches_State.logClose (s : State) (n : Nat) :
    Touches (mEvent ||| mCtxs ||| mPorts ||| mAu) s (State.logClose s n) := by
  unfold State.logClose
  (try dsimp only)
  repeat' (first
    | with_reducible exact Touches.refl _ _
    | ((with_reducible apply Touches.stepBy 0x2e842 (touches_State.auEmit _ _ _ _)); · decide)
    | ((with_reducible apply Touches.stepBy 0x10000000000 (touches_State.updAu _ _ _)); · decide)
    | split
    | with_reducible refine Touches.ofSnd (by assumption) ?_
    | with_reducible refine Touches.ofFst (by assumption) ?_)

theorem touches_State.auLogDrop (s : State) (n : Nat) :
    Touches (mCtxs ||| mAu) s (State.auLogDrop s n) := by
  unfold State.auLogDrop
  (try dsimp only)
  repeat' (first
    | with_reducible exact Touches.refl _ _
    | ((with_reducible apply Touches.stepBy 0x8000 (touches_State.loseItems _ _ _)); · decide)
    | ((with_reducible apply Touches.stepBy 0x10000000000 (touches_State.updAu _ _ _)); · decide)
    | split)

theorem touches_State.logPut (s : State) (n : Nat) (ws : List Nat) (missed : Bool) :
    Touches (mEvent ||| mCtxs ||| mPorts ||| mAu) s (State.logPut s n ws missed) := by
  unfold State.logPut
  (try dsimp only)
  repeat' (first
    | with_reducible exact Touches.refl _ _
    | ((with_reducible apply Touches.stepBy 0x8000 (touches_State.loseItems _ _ _)); · decide)
    | ((with_reducible apply Touches.stepBy 0x1000002e842 (touches_State.logClose _ _)); · decide)
    | ((with_reducible apply Touches.stepBy 0x10000000000 (touches_State.updAu _ _ _)); · decide)
    | split)

theorem touches_State.logFlush (s : State) (n : Nat) :
    Touches (mEvent ||| mTime ||| mCtxs ||| mPorts ||| mAu) s (State.logFlush s n) := by
  unfold State.logFlush
  (try dsimp only)
  repeat' (first
    | with_reducible exact Touches.refl _ _
    | ((with_reducible apply Touches.stepBy 0x80 (touches_State.reach _ _)); · decide)
    | ((with_reducible apply Touches.stepBy 0x1000002e842 (touches_State.logClose _ _)); · decide)
    | split)

theorem touches_State.auSeen (s : State) (n : Nat) :
    Touches (mEvent ||| mFreeCtr ||| mStore ||| mCtxs ||| mBillets ||| mPorts ||| mAside ||| mBadLines ||| mAu) s (State.auSeen s n) := by
  unfold State.auSeen
  (try dsimp only)
  repeat' (first
    | with_reducible exact Touches.refl _ _
    | ((with_reducible apply Touches.stepBy 0x1000017ee42 (touches_State.auClose _ _ _ _ _ _ _)); · decide)
    | split
    | with_reducible refine Touches.ofSnd (by assumption) ?_
    | with_reducible refine Touches.ofFst (by assumption) ?_)

theorem touches_State.auCatchUp (s : State) (n t : Nat) :
    Touches (mEvent ||| mTime ||| mFreeCtr ||| mStore ||| mCtxs ||| mBillets ||| mPorts ||| mAside ||| mBadLines ||| mAu) s (State.auCatchUp s n t) := by
  unfold State.auCatchUp
  (try dsimp only)
  repeat' (first
    | with_reducible exact Touches.refl _ _
    | ((with_reducible apply Touches.stepBy 0x68c2 (touches_State.auHoldoffEnd _ _)); · decide)
    | ((with_reducible apply Touches.stepBy 0x1000017ee42 (touches_State.auRecordClose _ _)); · decide)
    | split)

theorem touches_State.auDecision (s : State) (n : Nat) :
    Touches (mEvent ||| mTime ||| mFreeCtr ||| mStore ||| mCtxs ||| mBillets ||| mPorts ||| mAside ||| mBadLines ||| mDecs ||| mAu) s (State.auDecision s n) := by
  unfold State.auDecision
  (try dsimp only)
  repeat' (first
    | with_reducible exact Touches.refl _ _
    | ((with_reducible apply Touches.stepBy 0x6842 (touches_State.raiseLim _ _ _ _ _ _ _)); · decide)
    | ((with_reducible apply Touches.stepBy 0x8000000000 (touches_State.onDecs _ _)); · decide)
    | ((with_reducible apply Touches.stepBy 0x1000017eec2 (touches_State.auCatchUp _ _ _)); · decide)
    | ((with_reducible apply Touches.stepBy 0x1000017ee42 (touches_State.auSeen _ _)); · decide)
    | ((with_reducible apply Touches.stepBy 0x1000002e842 (touches_State.logPut _ _ _ _)); · decide)
    | ((with_reducible apply Touches.stepBy 0x2 (touches_State.setAuState _ _ _)); · decide)
    | ((with_reducible apply Touches.stepBy 0x10000000000 (touches_State.updAu _ _ _)); · decide)
    | split
    | with_reducible refine Touches.ofSnd (by assumption) ?_
    | with_reducible refine Touches.ofFst (by assumption) ?_)

theorem touches_State.auRefill (s : State) (n : Nat) :
    Touches (mEvent ||| mAside ||| mAu) s (State.auRefill s n) := by
  unfold State.auRefill
  (try dsimp only)
  repeat' (first
    | with_reducible exact Touches.refl _ _
    | ((with_reducible apply Touches.stepBy 0x6842 (touches_State.extentLow _ _)); · decide)
    | ((with_reducible apply Touches.stepBy 0x40000 (touches_State.onAside _ _)); · decide)
    | ((with_reducible apply Touches.stepBy 0x10000000000 (touches_State.updAu _ _ _)); · decide)
    | split)

theorem touches_State.auArm (s : State) (n : Nat) :
    Touches (mRegs ||| mCtxs ||| mBillets ||| mAu) s (State.auArm s n) := by
  unfold State.auArm
  (try dsimp only)
  repeat' (first
    | with_reducible exact Touches.refl _ _
    | ((with_reducible apply Touches.stepBy 0x2 (touches_State.setFlds_hi _ _ _ ?hi)); (case hi => first | decide | (simp only [rACQ_CMD]; omega) | (split <;> decide) | (split <;> simp only [rACQ_CMD] <;> omega)); (· decide))
    | ((with_reducible apply Touches.stepBy 0x10000018002 (touches_State.ringEmpty _ _)); · decide)
    | ((with_reducible apply Touches.stepBy 0x10000000000 (touches_State.updAu _ _ _)); · decide)
    | split)

theorem touches_State.auCut (s : State) (n : Nat) (gap now : Bool) :
    Touches (mEvent ||| mFreeCtr ||| mStore ||| mCtxs ||| mBillets ||| mPorts ||| mAside ||| mBadLines ||| mAu) s (State.auCut s n gap now) := by
  unfold State.auCut
  (try dsimp only)
  repeat' (first
    | with_reducible exact Touches.refl _ _
    | ((with_reducible apply Touches.stepBy 0x1000017ee42 (touches_State.auClose _ _ _ _ _ _ _)); · decide)
    | split
    | with_reducible refine Touches.ofSnd (by assumption) ?_
    | with_reducible refine Touches.ofFst (by assumption) ?_)

theorem touches_State.auStop (s : State) (n : Nat) :
    Touches (mEvent ||| mFreeCtr ||| mStore ||| mCtxs ||| mBillets ||| mPorts ||| mAside ||| mBadLines ||| mAu) s (State.auStop s n) := by
  unfold State.auStop
  (try dsimp only)
  repeat' (first
    | with_reducible exact Touches.refl _ _
    | ((with_reducible apply Touches.stepBy 0x1000017ee42 (touches_State.auCut _ _ _ _)); · decide)
    | ((with_reducible apply Touches.stepBy 0x2 (touches_State.setAuState _ _ _)); · decide))

theorem touches_State.wrAcqCmd (n : Nat) (v : Word) (s : State) :
    Touches (mEvent ||| mFreeCtr ||| mStore ||| mCtxs ||| mBillets ||| mPorts ||| mAside ||| mBadLines ||| mAu) s (State.wrAcqCmd n v s) := by
  unfold State.wrAcqCmd
  (try dsimp only)
  repeat' (first
    | with_reducible exact Touches.refl _ _
    | ((with_reducible apply Touches.stepBy 0x1000017ee42 (touches_State.auStop _ _)); · decide)
    | ((with_reducible apply Touches.stepBy 0x10000018002 (touches_State.auArm _ _)); · decide)
    | split)

theorem touches_State.auSample (s : State) (n : Nat) (x : Smp) (more : Nat) :
    Touches (mEvent ||| mFreeCtr ||| mStore ||| mCtxs ||| mBillets ||| mPorts ||| mAside ||| mBadLines ||| mAu) s (State.auSample s n x more) := by
  unfold State.auSample
  (try dsimp only)
  repeat' (first
    | with_reducible exact Touches.refl _ _
    | ((with_reducible apply Touches.stepBy 0x1000017ee42 (touches_State.auClose _ _ _ _ _ _ _)); · decide)
    | ((with_reducible apply Touches.stepBy 0x1000011ee42 (touches_State.ringPutSmp _ _ _)); · decide)
    | ((with_reducible apply Touches.stepBy 0x2 (touches_State.setAuState _ _ _)); · decide)
    | ((with_reducible apply Touches.stepBy 0x10000000000 (touches_State.updAu _ _ _)); · decide)
    | split
    | with_reducible refine Touches.ofSnd (by assumption) ?_
    | with_reducible refine Touches.ofFst (by assumption) ?_
    | (with_reducible constructor <;> first | exact fun h => absurd h (by decide) | exact fun _ => rfl | exact fun _ a _ => State.rd_congr (by rfl) a | exact fun h => h.of_eq rfl rfl rfl rfl rfl | exact FusesOnlyBurn.of_eq rfl rfl rfl rfl rfl))

theorem touches_State.auTake (s : State) (n : Nat) (xs : List Smp) :
    Touches (mEvent ||| mFreeCtr ||| mStore ||| mCtxs ||| mBillets ||| mPorts ||| mAside ||| mBadLines ||| mAu) s (State.auTake s n xs) := by
  unfold State.auTake
  (try dsimp only)
  repeat' (first
    | with_reducible exact Touches.refl _ _
    | ((with_reducible apply Touches.stepBy 0x2 (touches_State.setFld_hi _ _ _ _ ?hi)); (case hi => first | decide | (simp only [rACQ_CFG]; omega) | (split <;> decide) | (split <;> simp only [rACQ_CFG] <;> omega)); (· decide))
    | ((with_reducible apply Touches.stepBy 0x1000017ee42 (touches_State.auSample _ _ _ _)); · decide)
    | ((with_reducible refine Touches.foldl ?_ ?_))
    | ((with_reducible refine Touches.foldlSnd ?_ ?_))
    | ((with_reducible refine Touches.foldlFst ?_ ?_))
    | ((intro t b); try dsimp only)
    | split
    | with_reducible refine Touches.ofSnd (by assumption) ?_
    | with_reducible refine Touches.ofFst (by assumption) ?_)

theorem touches_State.auAnchor (s : State) (n : Nat) :
    Touches (mEvent ||| mFreeCtr ||| mStore ||| mCtxs ||| mBillets ||| mPorts ||| mAside ||| mBadLines ||| mAu) s (State.auAnchor s n) := by
  unfold State.auAnchor
  (try dsimp only)
  repeat' (first
    | with_reducible exact Touches.refl _ _
    | ((with_reducible apply Touches.stepBy 0x1000017ee42 (touches_State.auCut _ _ _ _)); · decide)
    | ((with_reducible apply Touches.stepBy 0x10000018002 (touches_State.ringEmpty _ _)); · decide)
    | ((with_reducible apply Touches.stepBy 0x2 (touches_State.setAuState _ _ _)); · decide)
    | split)

theorem touches_State.auRelease (s : State) (n : Nat) :
    Touches (mRegs ||| mCtxs ||| mBillets ||| mAu) s (State.auRelease s n) := by
  unfold State.auRelease
  (try dsimp only)
  repeat' (first
    | with_reducible exact Touches.refl _ _
    | ((with_reducible apply Touches.stepBy 0x10000018002 (touches_State.ringEmpty _ _)); · decide)
    | ((with_reducible apply Touches.stepBy 0x18002 (touches_State.ringLeave _ _)); · decide)
    | ((with_reducible apply Touches.stepBy 0x10000000000 (touches_State.updAu _ _ _)); · decide)
    | ((with_reducible refine Touches.foldl ?_ ?_))
    | ((intro t b); try dsimp only))

theorem touches_State.auIdle (s : State) (n : Nat) :
    Touches (mRegs ||| mCtxs ||| mBillets ||| mAside ||| mAu) s (State.auIdle s n) := by
  unfold State.auIdle
  (try dsimp only)
  repeat' (first
    | with_reducible exact Touches.refl _ _
    | ((with_reducible apply Touches.stepBy 0x40000 (touches_State.onAside _ _)); · decide)
    | ((with_reducible apply Touches.stepBy 0x10000018002 (touches_State.auRelease _ _)); · decide)
    | ((with_reducible apply Touches.stepBy 0x10000008000 (touches_State.auLogDrop _ _)); · decide)
    | ((with_reducible apply Touches.stepBy 0x2 (touches_State.setAuState _ _ _)); · decide)
    | ((with_reducible apply Touches.stepBy 0x10000000000 (touches_State.updAu _ _ _)); · decide))

theorem touches_State.auDiscard (s : State) (n : Nat) :
    Touches (mEvent ||| mAu) s (State.auDiscard s n) := by
  unfold State.auDiscard
  (try dsimp only)
  repeat' (first
    | with_reducible exact Touches.refl _ _
    | ((with_reducible apply Touches.stepBy 0x6842 (touches_State.raise _ _ _ _ _)); · decide)
    | ((with_reducible apply Touches.stepBy 0x10000000000 (touches_State.updAu _ _ _)); · decide))

theorem touches_State.wrAcqCtrl (n : Nat) (v : Word) (s : State) :
    Touches (mEvent ||| mAu) s (State.wrAcqCtrl n v s) := by
  unfold State.wrAcqCtrl
  (try dsimp only)
  repeat' (first
    | with_reducible exact Touches.refl _ _
    | ((with_reducible apply Touches.stepBy 0x2 (touches_State.wrCodes_hi _ _ _ _ ?hi)); (case hi => first | decide | (simp only [rACQ_CTRL, rACQ_LEN]; omega) | (split <;> decide) | (split <;> simp only [rACQ_CTRL, rACQ_LEN] <;> omega)); (· decide))
    | ((with_reducible apply Touches.stepBy 0x10000006842 (touches_State.auDiscard _ _)); · decide)
    | split)

theorem touches_State.wrAcqLen (n : Nat) (v : Word) (s : State) :
    Touches (mEvent ||| mAu) s (State.wrAcqLen n v s) := by
  unfold State.wrAcqLen
  (try dsimp only)
  repeat' (first
    | with_reducible exact Touches.refl _ _
    | ((with_reducible apply Touches.stepBy 0x2 (touches_State.wrCodes_hi _ _ _ _ ?hi)); (case hi => first | decide | (simp only [rACQ_CFG, rACQ_CTRL, rACQ_LEN]; omega) | (split <;> decide) | (split <;> simp only [rACQ_CFG, rACQ_CTRL, rACQ_LEN] <;> omega)); (· decide))
    | ((with_reducible apply Touches.stepBy 0x10000006842 (touches_State.auDiscard _ _)); · decide)
    | split)

theorem touches_State.wrAcqSeg (n : Nat) (v : Word) (s : State) :
    Touches (mEvent ||| mAu) s (State.wrAcqSeg n v s) := by
  unfold State.wrAcqSeg
  (try dsimp only)
  repeat' (first
    | with_reducible exact Touches.refl _ _
    | ((with_reducible apply Touches.stepBy 0x2 (touches_State.wrCodes_hi _ _ _ _ ?hi)); (case hi => first | decide | (simp only [rACQ_SEG]; omega) | (split <;> decide) | (split <;> simp only [rACQ_SEG] <;> omega)); (· decide))
    | ((with_reducible apply Touches.stepBy 0x10000006842 (touches_State.auDiscard _ _)); · decide)
    | split)

theorem touches_State.wrAcqLog (n : Nat) (v : Word) (s : State) :
    Touches (mEvent ||| mAu) s (State.wrAcqLog n v s) := by
  unfold State.wrAcqLog
  (try dsimp only)
  repeat' (first
    | with_reducible exact Touches.refl _ _
    | ((with_reducible apply Touches.stepBy 0x2 (touches_State.wrCodes_hi _ _ _ _ ?hi)); (case hi => first | decide | (simp only [rACQ_LOG]; omega) | (split <;> decide) | (split <;> simp only [rACQ_LOG] <;> omega)); (· decide))
    | ((with_reducible apply Touches.stepBy 0x10000006842 (touches_State.auDiscard _ _)); · decide)
    | split)

theorem touches_State.wrAcqSnap (n : Nat) (v : Word) (s : State) :
    Touches mRegs s (State.wrAcqSnap n v s) := by
  unfold State.wrAcqSnap
  (try dsimp only)
  repeat' (first
    | with_reducible exact Touches.refl _ _
    | ((with_reducible apply Touches.stepBy 0x2 (touches_State.acqSnap _ _)); · decide)
    | split)

theorem touches_State.wrRmuLevel (l : Nat) (v : Word) (s : State) :
    Touches mEvent s (State.wrRmuLevel l v s) := by
  unfold State.wrRmuLevel
  (try dsimp only)
  repeat' (first
    | with_reducible exact Touches.refl _ _
    | ((with_reducible apply Touches.stepBy 0x6842 (touches_State.raise _ _ _ _ _)); · decide)
    | ((with_reducible apply Touches.stepBy 0x2 (touches_State.wrCodes_hi _ _ _ _ ?hi)); (case hi => first | decide | (simp only [rRMU_LEVEL]; omega) | (split <;> decide) | (split <;> simp only [rRMU_LEVEL] <;> omega)); (· decide))
    | split)

theorem touches_State.wrRmuSig (l : Nat) (v : Word) (s : State) :
    Touches mRegs s (State.wrRmuSig l v s) := by
  unfold State.wrRmuSig
  (try dsimp only)
  repeat' (first
    | with_reducible exact Touches.refl _ _
    | ((with_reducible apply Touches.stepBy 0x2 (touches_State.wrCodes_hi _ _ _ _ ?hi)); (case hi => first | decide | (simp only [rRMU_SIG]; omega) | (split <;> decide) | (split <;> simp only [rRMU_SIG] <;> omega)); (· decide))
    | split)

theorem touches_State.acqParamCommit (s : State) :
    Touches (mEvent ||| mAct ||| mAu) s (State.acqParamCommit s) := by
  unfold State.acqParamCommit
  (try dsimp only)
  repeat' (first
    | with_reducible exact Touches.refl _ _
    | ((with_reducible apply Touches.stepBy 0x4 (touches_State.commitReg _ _)); · decide)
    | ((with_reducible apply Touches.stepBy 0x10000006842 (touches_State.auDiscard _ _)); · decide)
    | ((with_reducible refine Touches.foldl ?_ ?_))
    | ((intro t b); try dsimp only)
    | split)

theorem touches_State.nextReplay (s : State) (sq : Nat) {r : RRec} {t : State} (h : s.nextReplay sq = some (r, t)) : Touches mReplay s t := by
  unfold State.nextReplay at h
  split at h
  · cases h
  · cases h
    exact touches_State.onReplay _ _

theorem touches_State.rmuRecord (s : State) :
    Touches (mEvent ||| mFreeCtr ||| mCtxs ||| mPorts ||| mReplay) s (State.rmuRecord s) := by
  unfold State.rmuRecord
  (try dsimp only)
  repeat' (first
    | with_reducible exact Touches.refl _ _
    | ((with_reducible apply Touches.stepBy 0x200 (touches_State.fresh _)); · decide)
    | ((with_reducible apply Touches.stepBy 0x2 (touches_State.addMod_hi _ _ _ _ ?hi)); (case hi => first | decide | (simp only [rRMU_CFG]; omega) | (split <;> decide) | (split <;> simp only [rRMU_CFG] <;> omega)); (· decide))
    | ((with_reducible apply Touches.stepBy 0x8000 (touches_State.loseDirect _ _ _)); · decide)
    | ((with_reducible apply Touches.stepBy 0x2e842 (touches_State.emitRec _ _ _)); · decide)
    | (with_reducible exact (touches_State.nextReplay _ _ (by assumption)).mono (by decide))
    | split
    | with_reducible refine Touches.ofSnd (by assumption) ?_
    | with_reducible refine Touches.ofFst (by assumption) ?_)

theorem touches_State.nextReplayOn (s : State) (sq rt : Nat) {r : RRec} {t : State} (h : s.nextReplayOn sq rt = some (r, t)) :
    Touches mReplay s t := by
  unfold State.nextReplayOn at h
  obtain ⟨_, _, e⟩ := Option.map_eq_some_iff.1 h
  cases e
  exact touches_State.onReplay _ _

theorem touches_State.underPlan (s : State) (p : PlanImg) :
    Touches (mRegs ||| mAct ||| mPlan ||| mGlb) s (State.underPlan s p) := by
  unfold State.underPlan
  (try dsimp only)
  repeat' (first
    | with_reducible exact Touches.refl _ _
    | ((with_reducible apply Touches.stepBy 0x4 (touches_State.setAct _ _ _)); · decide)
    | ((with_reducible apply Touches.stepBy 0x2 (touches_State.setFlds_hi _ _ _ ?hi)); (case hi => first | decide | (simp only [rPLAN_SLOT_STATE]; omega) | (split <;> decide) | (split <;> simp only [rPLAN_SLOT_STATE] <;> omega)); (· decide))
    | ((with_reducible apply Touches.stepBy 0x80000000000002 (touches_State.setFlds _ _ _)); · decide)
    | ((with_reducible apply Touches.stepBy 0x2 (touches_State.wr_hi _ _ _ ?hi)); (case hi => first | decide | (simp only [rPLAN_SLOT_STATE]; omega) | (split <;> decide) | (split <;> simp only [rPLAN_SLOT_STATE] <;> omega)); (· decide))
    | ((with_reducible apply Touches.stepBy 0x80000000000002 (touches_State.wr _ _ _)); · decide)
    | ((with_reducible apply Touches.stepBy 0x400000 (touches_State.onPlan _ _)); · decide)
    | ((with_reducible refine Touches.foldl ?_ ?_))
    | ((with_reducible refine Touches.foldlSnd ?_ ?_))
    | ((with_reducible refine Touches.foldlFst ?_ ?_))
    | ((intro t b); try dsimp only)
    | split)

theorem touches_State.acqPlan (s : State) (p : Option PlanImg) :
    Touches mRegs s (State.acqPlan s p) := by
  unfold State.acqPlan
  (try dsimp only)
  repeat' (first
    | with_reducible exact Touches.refl _ _
    | ((with_reducible apply Touches.stepBy 0x2 (touches_State.wr_hi _ _ _ ?hi)); (case hi => first | decide | (simp only [rACQ_CFG]; omega) | (split <;> decide) | (split <;> simp only [rACQ_CFG] <;> omega)); (· decide))
    | ((with_reducible refine Touches.foldl ?_ ?_))
    | ((intro t b); try dsimp only)
    | split
    | with_reducible refine Touches.ofSnd (by assumption) ?_
    | with_reducible refine Touches.ofFst (by assumption) ?_)

/-! ### Machine/Operands.lean -/

theorem touches_State.setTcore (s : State) (c : Nat) (x : Core) :
    Touches mTurf s (State.setTcore s c x) := by
  constructor <;> first | exact fun h => absurd h (by decide) | exact fun _ => rfl | exact fun _ a _ => State.rd_congr (by rfl) a | exact fun h => h.of_eq rfl rfl rfl rfl rfl | exact FusesOnlyBurn.of_eq rfl rfl rfl rfl rfl

theorem touches_State.updTcore (s : State) (c : Nat) (f : Core → Core) :
    Touches mTurf s (State.updTcore s c f) := by
  unfold State.updTcore
  (try dsimp only)
  repeat' (first
    | with_reducible exact Touches.refl _ _
    | ((with_reducible apply Touches.stepBy 0x40000000000 (touches_State.setTcore _ _ _)); · decide))

/-! ### Machine/Turf.lean -/

theorem touches_State.tcEnd (s : State) (c result cause : Nat) :
    Touches (mRegs ||| mTurf) s (State.tcEnd s c result cause) := by
  unfold State.tcEnd
  (try dsimp only)
  repeat' (first
    | with_reducible exact Touches.refl _ _
    | ((with_reducible apply Touches.stepBy 0x2 (touches_State.setFlds_hi _ _ _ ?hi)); (case hi => first | decide | (simp only [rTC_STATUS]; omega) | (split <;> decide) | (split <;> simp only [rTC_STATUS] <;> omega)); (· decide))
    | ((with_reducible apply Touches.stepBy 0x40000000000 (touches_State.updTcore _ _ _)); · decide))

theorem touches_State.tcFaults (s : State) (c cause : Nat) (lost : List (Nat × Nat)) :
    Touches (mEvent ||| mFreeCtr ||| mStore ||| mCtxs ||| mBillets ||| mBadLines) s (State.tcFaults s c cause lost) := by
  unfold State.tcFaults
  (try dsimp only)
  repeat' (first
    | with_reducible exact Touches.refl _ _
    | ((with_reducible apply Touches.stepBy 0x11ee42 (touches_State.recover _ _ _ _ _ _ _)); · decide)
    | ((with_reducible apply Touches.stepBy 0x8000 (touches_State.loseItems _ _ _)); · decide)
    | ((with_reducible apply Touches.stepBy 0x6842 (touches_State.raise _ _ _ _ _)); · decide)
    | ((with_reducible refine Touches.foldl ?_ ?_))
    | ((with_reducible refine Touches.foldlSnd ?_ ?_))
    | ((with_reducible refine Touches.foldlFst ?_ ?_))
    | ((intro t b); try dsimp only)
    | split
    | with_reducible refine Touches.ofSnd (by assumption) ?_
    | with_reducible refine Touches.ofFst (by assumption) ?_)

theorem touches_State.tcAbort (s : State) (c cause : Nat) :
    Touches (mEvent ||| mFreeCtr ||| mStore ||| mCtxs ||| mBillets ||| mBadLines ||| mTurf) s (State.tcAbort s c cause) := by
  unfold State.tcAbort
  (try dsimp only)
  repeat' (first
    | with_reducible exact Touches.refl _ _
    | ((with_reducible apply Touches.stepBy 0x11ee42 (touches_State.tcFaults _ _ _ _)); · decide)
    | ((with_reducible apply Touches.stepBy 0x40000000002 (touches_State.tcEnd _ _ _ _)); · decide)
    | ((with_reducible apply Touches.stepBy 0x2 (touches_State.addSat_hi _ _ _ _ ?hi)); (case hi => first | decide | (simp only [rTC_SOUT_STAT]; omega) | (split <;> decide) | (split <;> simp only [rTC_SOUT_STAT] <;> omega)); (· decide))
    | ((with_reducible apply Touches.stepBy 0x40000000000 (touches_State.updTcore _ _ _)); · decide)
    | split
    | with_reducible refine Touches.ofSnd (by assumption) ?_
    | with_reducible refine Touches.ofFst (by assumption) ?_)

theorem touches_State.tcFault (s : State) (c cause : Nat) :
    Touches (mEvent ||| mFreeCtr ||| mStore ||| mCtxs ||| mBillets ||| mBadLines ||| mTurf) s (State.tcFault s c cause) := by
  unfold State.tcFault
  (try dsimp only)
  repeat' (first
    | with_reducible exact Touches.refl _ _
    | ((with_reducible apply Touches.stepBy 0x4000011ee42 (touches_State.tcAbort _ _ _)); · decide)
    | ((with_reducible apply Touches.stepBy 0x2 (touches_State.setFld_hi _ _ _ _ ?hi)); (case hi => first | decide | (simp only [rTC_STATUS]; omega) | (split <;> decide) | (split <;> simp only [rTC_STATUS] <;> omega)); (· decide))
    | ((with_reducible apply Touches.stepBy 0x40000000000 (touches_State.updTcore _ _ _)); · decide))

theorem touches_State.tcCycle (s : State) (c n : Nat) :
    Touches (mEvent ||| mFreeCtr ||| mStore ||| mCtxs ||| mBillets ||| mBadLines ||| mTurf) s (State.tcCycle s c n) := by
  unfold State.tcCycle
  (try dsimp only)
  repeat' (first
    | with_reducible exact Touches.refl _ _
    | ((with_reducible apply Touches.stepBy 0x4000011ee42 (touches_State.tcAbort _ _ _)); · decide)
    | ((with_reducible apply Touches.stepBy 0x40000000000 (touches_State.setTcore _ _ _)); · decide)
    | split)

theorem touches_State.issue {m : Nat} (hm : (mEvent ||| mFreeCtr ||| mStore ||| mCtxs ||| mBillets ||| mBadLines ||| mTurf) &&& m = (mEvent ||| mFreeCtr ||| mStore ||| mCtxs ||| mBillets ||| mBadLines ||| mTurf)) (s : State) (c : Nat) (k : Place) (f : Core → Issue)
    (h : ∀ x y t, f x = .nextWith y t → Touches m s t) : Touches m s (State.issue s c k f) := by
  have fin : ∀ {t u : State}, Touches (mEvent ||| mFreeCtr ||| mStore ||| mCtxs ||| mBillets ||| mBadLines ||| mTurf) t u → Touches m t u := fun k => k.mono hm
  unfold State.issue
  dsimp only
  split
  · exact Touches.refl _ _
  · split
    · exact fin ((touches_State.tcFault s c _).mono (by decide))
    · split
      · exact fin (((touches_State.setTcore s c _).mono (by decide)).trans ((touches_State.tcCycle _ c 1).mono (by decide)))
      · next e => exact (h _ _ _ e).trans (fin (((touches_State.setTcore _ c _).mono (by decide)).trans ((touches_State.tcCycle _ c 1).mono (by decide))))
      · exact fin (((touches_State.setTcore s c _).mono (by decide)).trans ((touches_State.tcCycle _ c 1).mono (by decide)))
      · exact fin (((touches_State.setTcore s c _).mono (by decide)).trans ((touches_State.tcCycle _ c 1).mono (by decide)))
      · exact fin ((((touches_State.setTcore s c _).mono (by decide)).trans ((touches_State.tcEnd _ c 1 0).mono (by decide))).trans
          ((touches_State.raise _ _ _ _ _).mono (by decide)))
      · exact fin (((touches_State.setTcore s c _).mono (by decide)).trans ((touches_State.tcFault _ c _).mono (by decide)))

theorem touches_State.issuePlain (s : State) (c : Nat) (f : Core → Core) : Touches (mEvent ||| mFreeCtr ||| mStore ||| mCtxs ||| mBillets ||| mBadLines ||| mTurf) s (State.issuePlain s c f) :=
  touches_State.issue (by decide) s c .plain _ fun _ _ _ h => by cases h

theorem touches_State.tcInterrupt (s : State) (c : Nat) :
    Touches (mEvent ||| mFreeCtr ||| mStore ||| mCtxs ||| mBillets ||| mBadLines ||| mTurf) s (State.tcInterrupt s c) := by
  unfold State.tcInterrupt
  (try dsimp only)
  repeat' (first
    | with_reducible exact Touches.refl _ _
    | ((with_reducible apply Touches.stepBy 0x4000011ee42 (touches_State.tcCycle _ _ _)); · decide)
    | ((with_reducible apply Touches.stepBy 0x4000011ee42 (touches_State.tcFault _ _ _)); · decide)
    | ((with_reducible apply Touches.stepBy 0x40000000000 (touches_State.setTcore _ _ _)); · decide)
    | split)

theorem touches_State.mbPost (s : State) (c : Nat) :
    Touches mEvent s (State.mbPost s c) := by
  unfold State.mbPost
  (try dsimp only)
  repeat' (first
    | with_reducible exact Touches.refl _ _
    | ((with_reducible apply Touches.stepBy 0x6842 (touches_State.raise _ _ _ _ _)); · decide)
    | ((with_reducible apply Touches.stepBy 0x2 (touches_State.setFld_hi _ _ _ _ ?hi)); (case hi => first | decide | (simp only [rTC_MBOUT_CTRL]; omega) | (split <;> decide) | (split <;> simp only [rTC_MBOUT_CTRL] <;> omega)); (· decide)))

theorem touches_State.unstall (s : State) (c : Nat) (x y : Core) :
    Touches mTurf s (State.unstall s c x y) := by
  unfold State.unstall
  (try dsimp only)
  repeat' (first
    | with_reducible exact Touches.refl _ _
    | ((with_reducible apply Touches.stepBy 0x40000000000 (touches_State.setTcore _ _ _)); · decide))

theorem touches_State.tcWake (s : State) (c : Nat) :
    Touches (mEvent ||| mTurf) s (State.tcWake s c) := by
  unfold State.tcWake
  (try dsimp only)
  repeat' (first
    | with_reducible exact Touches.refl _ _
    | ((with_reducible apply Touches.stepBy 0x40000000000 (touches_State.unstall _ _ _ _)); · decide)
    | ((with_reducible apply Touches.stepBy 0x6842 (touches_State.mbPost _ _)); · decide)
    | ((with_reducible apply Touches.stepBy 0x40 (touches_State.send _ _)); · decide)
    | split
    | with_reducible refine Touches.ofSnd (by assumption) ?_
    | with_reducible refine Touches.ofFst (by assumption) ?_)

theorem touches_State.tcRun (s : State) (c : Nat) :
    Touches (mRegs ||| mTurf) s (State.tcRun s c) := by
  unfold State.tcRun
  (try dsimp only)
  repeat' (first
    | with_reducible exact Touches.refl _ _
    | ((with_reducible apply Touches.stepBy 0x2 (touches_State.addSat_hi _ _ _ _ ?hi)); (case hi => first | decide | (simp only [rTC_CTRL, rTC_STAT, rTC_STATUS]; omega) | (split <;> decide) | (split <;> simp only [rTC_CTRL, rTC_STAT, rTC_STATUS] <;> omega)); (· decide))
    | ((with_reducible apply Touches.stepBy 0x2 (touches_State.setFlds_hi _ _ _ ?hi)); (case hi => first | decide | (simp only [rTC_CTRL, rTC_STAT, rTC_STATUS]; omega) | (split <;> decide) | (split <;> simp only [rTC_CTRL, rTC_STAT, rTC_STATUS] <;> omega)); (· decide))
    | ((with_reducible apply Touches.stepBy 0x40000000000 (touches_State.setTcore _ _ _)); · decide)
    | split
    | (with_reducible constructor <;> first | exact fun h => absurd h (by decide) | exact fun _ => rfl | exact fun _ a _ => State.rd_congr (by rfl) a | exact fun h => h.of_eq rfl rfl rfl rfl rfl | exact FusesOnlyBurn.of_eq rfl rfl rfl rfl rfl))

theorem touches_State.wrTcCtrl (c : Nat) (v : Word) (s : State) :
    Touches (mEvent ||| mFreeCtr ||| mStore ||| mCtxs ||| mBillets ||| mBadLines ||| mTurf) s (State.wrTcCtrl c v s) := by
  unfold State.wrTcCtrl
  (try dsimp only)
  repeat' (first
    | with_reducible exact Touches.refl _ _
    | ((with_reducible apply Touches.stepBy 0x40000000002 (touches_State.tcRun _ _)); · decide)
    | ((with_reducible apply Touches.stepBy 0x4000011ee42 (touches_State.tcAbort _ _ _)); · decide)
    | ((with_reducible apply Touches.stepBy 0x2 (touches_State.setFld_hi _ _ _ _ ?hi)); (case hi => first | decide | (simp only [rTC_CTRL]; omega) | (split <;> decide) | (split <;> simp only [rTC_CTRL] <;> omega)); (· decide))
    | split)

theorem touches_State.wrPm (s : State) (c a : Nat) (ws : List Nat) :
    Touches (mRegs ||| mTurf) s (State.wrPm s c a ws) := by
  unfold State.wrPm
  (try dsimp only)
  repeat' (first
    | with_reducible exact Touches.refl _ _
    | ((with_reducible apply Touches.stepBy 0x2 (touches_State.addSat_hi _ _ _ _ ?hi)); (case hi => first | decide | (simp only [rTC_STAT]; omega) | (split <;> decide) | (split <;> simp only [rTC_STAT] <;> omega)); (· decide))
    | ((with_reducible apply Touches.stepBy 0x40000000000 (touches_State.updTcore _ _ _)); · decide)
    | ((with_reducible refine Touches.foldl ?_ ?_))
    | ((with_reducible refine Touches.foldlSnd ?_ ?_))
    | ((with_reducible refine Touches.foldlFst ?_ ?_))
    | ((intro t b); try dsimp only)
    | split)

theorem touches_State.wrDm (s : State) (c w : Nat) (ws : List Nat) :
    Touches mTurf s (State.wrDm s c w ws) := by
  unfold State.wrDm
  (try dsimp only)
  repeat' (first
    | with_reducible exact Touches.refl _ _
    | ((with_reducible apply Touches.stepBy 0x40000000000 (touches_State.updTcore _ _ _)); · decide)
    | ((with_reducible refine Touches.foldl ?_ ?_))
    | ((with_reducible refine Touches.foldlSnd ?_ ?_))
    | ((with_reducible refine Touches.foldlFst ?_ ?_))
    | ((intro t b); try dsimp only))

theorem touches_State.wrTcSin (c : Nat) (v : Word) (s : State) :
    Touches (mRegs ||| mTurf) s (State.wrTcSin c v s) := by
  unfold State.wrTcSin
  (try dsimp only)
  repeat' (first
    | with_reducible exact Touches.refl _ _
    | ((with_reducible apply Touches.stepBy 0x2 (touches_State.addSat_hi _ _ _ _ ?hi)); (case hi => first | decide | (simp only [rTC_SIN, rTC_STAT]; omega) | (split <;> decide) | (split <;> simp only [rTC_SIN, rTC_STAT] <;> omega)); (· decide))
    | ((with_reducible apply Touches.stepBy 0x2 (touches_State.setFlds_hi _ _ _ ?hi)); (case hi => first | decide | (simp only [rTC_SIN, rTC_STAT]; omega) | (split <;> decide) | (split <;> simp only [rTC_SIN, rTC_STAT] <;> omega)); (· decide))
    | ((with_reducible apply Touches.stepBy 0x40000000000 (touches_State.updTcore _ _ _)); · decide)
    | split)

theorem touches_State.wrMbin (c k : Nat) (v : Word) (s : State) :
    Touches mRegs s (State.wrMbin c k v s) := by
  unfold State.wrMbin
  (try dsimp only)
  repeat' (first
    | with_reducible exact Touches.refl _ _
    | ((with_reducible apply Touches.stepBy 0x2 (touches_State.setFld_hi _ _ _ _ ?hi)); (case hi => first | decide | (simp only [rTC_MBIN, rTC_MBIN_CTRL]; omega) | (split <;> decide) | (split <;> simp only [rTC_MBIN, rTC_MBIN_CTRL] <;> omega)); (· decide))
    | ((with_reducible apply Touches.stepBy 0x2 (touches_State.wr_hi _ _ _ ?hi)); (case hi => first | decide | (simp only [rTC_MBIN, rTC_MBIN_CTRL]; omega) | (split <;> decide) | (split <;> simp only [rTC_MBIN, rTC_MBIN_CTRL] <;> omega)); (· decide))
    | split)

theorem touches_State.wrMbinCtrl (c : Nat) (v : Word) (s : State) :
    Touches (mRegs ||| mTurf) s (State.wrMbinCtrl c v s) := by
  unfold State.wrMbinCtrl
  (try dsimp only)
  repeat' (first
    | with_reducible exact Touches.refl _ _
    | ((with_reducible apply Touches.stepBy 0x2 (touches_State.setFld_hi _ _ _ _ ?hi)); (case hi => first | decide | (simp only [rTC_MBIN_CTRL]; omega) | (split <;> decide) | (split <;> simp only [rTC_MBIN_CTRL] <;> omega)); (· decide))
    | ((with_reducible apply Touches.stepBy 0x40000000000 (touches_State.updTcore _ _ _)); · decide)
    | split)

theorem touches_State.wrMboutCtrl (c : Nat) (v : Word) (s : State) :
    Touches (mEvent ||| mTurf) s (State.wrMboutCtrl c v s) := by
  unfold State.wrMboutCtrl
  (try dsimp only)
  repeat' (first
    | with_reducible exact Touches.refl _ _
    | ((with_reducible apply Touches.stepBy 0x40000006842 (touches_State.tcWake _ _)); · decide)
    | ((with_reducible apply Touches.stepBy 0x2 (touches_State.setFld_hi _ _ _ _ ?hi)); (case hi => first | decide | (simp only [rTC_MBOUT_CTRL]; omega) | (split <;> decide) | (split <;> simp only [rTC_MBOUT_CTRL] <;> omega)); (· decide))
    | split)

theorem touches_State.updCluster (s : State) (k : Nat) (f : Cluster → Cluster) :
    Touches mClusters s (State.updCluster s k f) := by
  constructor <;> first | exact fun h => absurd h (by decide) | exact fun _ => rfl | exact fun _ a _ => State.rd_congr (by rfl) a | exact fun h => h.of_eq rfl rfl rfl rfl rfl | exact FusesOnlyBurn.of_eq rfl rfl rfl rfl rfl

theorem touches_State.ringStore (s : State) (c : Nat) (bs : List Byte) :
    Touches (mEvent ||| mTurf) s (State.ringStore s c bs) := by
  unfold State.ringStore
  (try dsimp only)
  repeat' (first
    | with_reducible exact Touches.refl _ _
    | ((with_reducible apply Touches.stepBy 0x40000006842 (touches_State.tcWake _ _)); · decide)
    | ((with_reducible apply Touches.stepBy 0x6842 (touches_State.raiseLim _ _ _ _ _ _ _)); · decide)
    | ((with_reducible apply Touches.stepBy 0x2 (touches_State.addSat_hi _ _ _ _ ?hi)); (case hi => first | decide | (simp only [rTC_SIN, rTC_SIN_STAT]; omega) | (split <;> decide) | (split <;> simp only [rTC_SIN, rTC_SIN_STAT] <;> omega)); (· decide))
    | ((with_reducible apply Touches.stepBy 0x2 (touches_State.addMod_hi _ _ _ _ ?hi)); (case hi => first | decide | (simp only [rTC_SIN, rTC_SIN_STAT]; omega) | (split <;> decide) | (split <;> simp only [rTC_SIN, rTC_SIN_STAT] <;> omega)); (· decide))
    | ((with_reducible apply Touches.stepBy 0x40000000000 (touches_State.updTcore _ _ _)); · decide)
    | ((with_reducible apply Touches.stepBy 0x40000000000 (touches_State.setTcore _ _ _)); · decide)
    | ((with_reducible refine Touches.foldl ?_ ?_))
    | ((intro t b); try dsimp only)
    | split)

theorem touches_State.tcArrival (s : State) (k i : Nat) :
    Touches (mEvent ||| mReplay ||| mTurf ||| mClusters) s (State.tcArrival s k i) := by
  unfold State.tcArrival
  (try dsimp only)
  repeat' (first
    | with_reducible exact Touches.refl _ _
    | ((with_reducible apply Touches.stepBy 0x40000006842 (touches_State.ringStore _ _ _)); · decide)
    | ((with_reducible apply Touches.stepBy 0x80000000000 (touches_State.updCluster _ _ _)); · decide)
    | ((with_reducible apply Touches.stepBy 0x2 (touches_State.addMod_hi _ _ _ _ ?hi)); (case hi => first | decide | (simp only [rTCL_IN]; omega) | (split <;> decide) | (split <;> simp only [rTCL_IN] <;> omega)); (· decide))
    | (with_reducible exact (touches_State.nextReplayOn _ _ _ (by assumption)).mono (by decide))
    | ((with_reducible refine Touches.foldl ?_ ?_))
    | ((intro t b); try dsimp only)
    | split
    | with_reducible refine Touches.ofSnd (by assumption) ?_
    | with_reducible refine Touches.ofFst (by assumption) ?_)

theorem touches_State.tcReadout (s : State) (k : Nat) :
    Touches (mEvent ||| mCtxs ||| mPorts ||| mTurf ||| mClusters) s (State.tcReadout s k) := by
  unfold State.tcReadout
  (try dsimp only)
  repeat' (first
    | with_reducible exact Touches.refl _ _
    | ((with_reducible apply Touches.stepBy 0x80000000000 (touches_State.updCluster _ _ _)); · decide)
    | ((with_reducible apply Touches.stepBy 0x40000006842 (touches_State.tcWake _ _)); · decide)
    | ((with_reducible apply Touches.stepBy 0x8000 (touches_State.loseItems _ _ _)); · decide)
    | ((with_reducible apply Touches.stepBy 0x2 (touches_State.addMod_hi _ _ _ _ ?hi)); (case hi => first | decide | (simp only [rTCL_OUT, rTC_SOUT_STAT]; omega) | (split <;> decide) | (split <;> simp only [rTCL_OUT, rTC_SOUT_STAT] <;> omega)); (· decide))
    | ((with_reducible apply Touches.stepBy 0x40000000000 (touches_State.setTcore _ _ _)); · decide)
    | ((with_reducible apply Touches.stepBy 0x2e842 (touches_State.sendPort _ _ _ _)); · decide)
    | ((with_reducible refine Touches.foldl ?_ ?_))
    | ((intro t b); try dsimp only)
    | split
    | with_reducible refine Touches.ofSnd (by assumption) ?_
    | with_reducible refine Touches.ofFst (by assumption) ?_)

theorem touches_State.tcFlush (s : State) (c : Nat) :
    Touches (mRegs ||| mTurf) s (State.tcFlush s c) := by
  unfold State.tcFlush
  (try dsimp only)
  repeat' (first
    | with_reducible exact Touches.refl _ _
    | ((with_reducible apply Touches.stepBy 0x2 (touches_State.addSat_hi _ _ _ _ ?hi)); (case hi => first | decide | (simp only [rTC_STAT]; omega) | (split <;> decide) | (split <;> simp only [rTC_STAT] <;> omega)); (· decide))
    | ((with_reducible apply Touches.stepBy 0x40000000000 (touches_State.updTcore _ _ _)); · decide)
    | split)

theorem touches_State.tcStop (s : State) (cause : Nat) (cores : List Nat) :
    Touches (mEvent ||| mFreeCtr ||| mStore ||| mCtxs ||| mBillets ||| mBadLines ||| mTurf) s (State.tcStop s cause cores) := by
  unfold State.tcStop
  (try dsimp only)
  repeat' (first
    | with_reducible exact Touches.refl _ _
    | ((with_reducible apply Touches.stepBy 0x40000000002 (touches_State.tcFlush _ _)); · decide)
    | ((with_reducible apply Touches.stepBy 0x4000011ee42 (touches_State.tcAbort _ _ _)); · decide)
    | ((with_reducible refine Touches.foldl ?_ ?_))
    | ((intro t b); try dsimp only))

theorem touches_State.turfPlan (s : State) (p : Option PlanImg) :
    Touches (mEvent ||| mFreeCtr ||| mStore ||| mCtxs ||| mBillets ||| mBadLines ||| mTurf ||| mClusters) s (State.turfPlan s p) := by
  unfold State.turfPlan
  (try dsimp only)
  repeat' (first
    | with_reducible exact Touches.refl _ _
    | ((with_reducible apply Touches.stepBy 0x4000011ee42 (touches_State.tcStop _ _ _)); · decide)
    | ((with_reducible apply Touches.stepBy 0x80000000000 (touches_State.updCluster _ _ _)); · decide)
    | ((with_reducible apply Touches.stepBy 0x2 (touches_State.wr_hi _ _ _ ?hi)); (case hi => first | decide | (simp only [rTCL_IN, rTCL_OUT]; omega) | (split <;> decide) | (split <;> simp only [rTCL_IN, rTCL_OUT] <;> omega)); (· decide))
    | ((with_reducible refine Touches.foldl ?_ ?_))
    | ((intro t b); try dsimp only)
    | split
    | with_reducible refine Touches.ofSnd (by assumption) ?_
    | with_reducible refine Touches.ofFst (by assumption) ?_)

end Sys2Proof.Machine
end

