-- ==== Sys2Proof/Laws/TouchesSystem.lean ====
section
/-! SUPPORT. What the operations of the store control, admission, memory, codec, DMA, calibration, plans and clocks can touch. -/

set_option Elab.async false

namespace Sys2Proof.Machine

/-! ### Machine/Sto.lean -/

theorem touches_State.swTake (s : State) (x b : Nat) :
    Touches (mEvent ||| mBillets) s (State.swTake s x b).2 := by
  unfold State.swTake
  (try dsimp only)
  repeat' (first
    | with_reducible exact Touches.refl _ _
    | ((with_reducible apply Touches.stepBy 0x10000 (touches_State.setBillet _ _ _)); · decide)
    | ((with_reducible apply Touches.stepBy 0x6842 (touches_State.raise _ _ _ _ _)); · decide)
    | ((with_reducible apply Touches.stepBy 0x2 (touches_State.addSat_hi _ _ _ _ ?hi)); (case hi => first | decide | (simp only [rSTO_CNT1]; omega) | (split <;> decide) | (split <;> simp only [rSTO_CNT1] <;> omega)); (· decide))
    | split
    | (with_reducible constructor <;> first | exact fun h => absurd h (by decide) | exact fun _ => rfl | exact fun _ a _ => State.rd_congr (by rfl) a | exact fun h => h.of_eq rfl rfl rfl rfl rfl | exact FusesOnlyBurn.of_eq rfl rfl rfl rfl rfl))

theorem touches_State.swFree (s : State) (b : Nat) :
    Touches (mEvent ||| mCtxs ||| mBillets) s (State.swFree s b).2 := by
  unfold State.swFree
  (try dsimp only)
  repeat' (first
    | with_reducible exact Touches.refl _ _
    | ((with_reducible apply Touches.stepBy 0x18002 (touches_State.settleBillet _ _)); · decide)
    | ((with_reducible apply Touches.stepBy 0x10000 (touches_State.setBillet _ _ _)); · decide)
    | ((with_reducible apply Touches.stepBy 0x6842 (touches_State.raise _ _ _ _ _)); · decide)
    | ((with_reducible apply Touches.stepBy 0x2 (touches_State.addSat_hi _ _ _ _ ?hi)); (case hi => first | decide | (simp only [rSTO_CNT0, rSTO_CNT1]; omega) | (split <;> decide) | (split <;> simp only [rSTO_CNT0, rSTO_CNT1] <;> omega)); (· decide))
    | split
    | (with_reducible constructor <;> first | exact fun h => absurd h (by decide) | exact fun _ => rfl | exact fun _ a _ => State.rd_congr (by rfl) a | exact fun h => h.of_eq rfl rfl rfl rfl rfl | exact FusesOnlyBurn.of_eq rfl rfl rfl rfl rfl))

theorem touches_State.stoFlush (s : State) (x : Nat) :
    Touches (mEvent ||| mFreeCtr ||| mStore ||| mCtxs ||| mBillets ||| mBadLines) s (State.stoFlush s x).2 := by
  unfold State.stoFlush
  (try dsimp only)
  repeat' (first
    | with_reducible exact Touches.refl _ _
    | ((with_reducible apply Touches.stepBy 0x11ee42 (touches_State.flushCtx _ _)); · decide)
    | split)

theorem touches_State.stoDiscard (s : State) (x : Nat) :
    Touches (mRegs ||| mCtxs ||| mBillets) s (State.stoDiscard s x).2 := by
  unfold State.stoDiscard
  (try dsimp only)
  repeat' (first
    | with_reducible exact Touches.refl _ _
    | ((with_reducible apply Touches.stepBy 0x18002 (touches_State.settle _ _)); · decide)
    | ((with_reducible apply Touches.stepBy 0x8000 (touches_State.setCtx _ _ _)); · decide)
    | ((with_reducible refine Touches.foldl ?_ ?_))
    | ((intro t b); try dsimp only)
    | split
    | (with_reducible constructor <;> first | exact fun h => absurd h (by decide) | exact fun _ => rfl | exact fun _ a _ => State.rd_congr (by rfl) a | exact fun h => h.of_eq rfl rfl rfl rfl rfl | exact FusesOnlyBurn.of_eq rfl rfl rfl rfl rfl))

theorem touches_State.stoQuery (s : State) (b : Nat) :
    Touches mRegs s (State.stoQuery s b).2 := by
  unfold State.stoQuery
  (try dsimp only)
  repeat' (first
    | with_reducible exact Touches.refl _ _
    | ((with_reducible apply Touches.stepBy 0x2 (touches_State.wr_hi _ _ _ ?hi)); (case hi => first | decide | (simp only [rSTO_BQ]; omega) | (split <;> decide) | (split <;> simp only [rSTO_BQ] <;> omega)); (· decide))
    | split)

theorem touches_State.stoResult (r : Nat × State) : Touches mRegs r.2 (State.stoResult r) := touches_State.setFlds_hi _ _ _ (by decide)

theorem touches_State.wrStoCmd (v : Word) (s : State) :
    Touches (mEvent ||| mFreeCtr ||| mStore ||| mCtxs ||| mBillets ||| mBadLines) s (State.wrStoCmd v s) := by
  unfold State.wrStoCmd
  (try dsimp only)
  repeat' (first
    | with_reducible exact Touches.refl _ _
    | ((with_reducible apply Touches.stepBy 0x6842 (touches_State.srExit _)); · decide)
    | ((with_reducible apply Touches.stepBy 0x2 (touches_State.stoResult _)); · decide)
    | ((with_reducible apply Touches.stepBy 0x2 (touches_State.stoQuery _ _)); · decide)
    | ((with_reducible apply Touches.stepBy 0x18002 (touches_State.stoDiscard _ _)); · decide)
    | ((with_reducible apply Touches.stepBy 0x11ee42 (touches_State.stoFlush _ _)); · decide)
    | ((with_reducible apply Touches.stepBy 0x1e842 (touches_State.swFree _ _)); · decide)
    | ((with_reducible apply Touches.stepBy 0x16842 (touches_State.swTake _ _ _)); · decide)
    | ((with_reducible apply Touches.stepBy 0x2 (touches_State.addSat_hi _ _ _ _ ?hi)); (case hi => first | decide | (simp only [rMEM_MAP, rSTO_CMD_ARG, rSTO_CNT1]; omega) | (split <;> decide) | (split <;> simp only [rMEM_MAP, rSTO_CMD_ARG, rSTO_CNT1] <;> omega)); (· decide))
    | split
    | with_reducible refine Touches.ofSnd (by assumption) ?_
    | with_reducible refine Touches.ofFst (by assumption) ?_)

theorem touches_State.wrStoCsnap (v : Word) (s : State) :
    Touches mRegs s (State.wrStoCsnap v s) := by
  unfold State.wrStoCsnap
  (try dsimp only)
  repeat' (first
    | with_reducible exact Touches.refl _ _
    | ((with_reducible apply Touches.stepBy 0x2 (touches_State.addMod_hi _ _ _ _ ?hi)); (case hi => first | decide | (simp only [rSTO_CSNAP, rSTO_CSNAP0, rSTO_CSNAP1, rSTO_CSNAP2, rSTO_CSNAP3]; omega) | (split <;> decide) | (split <;> simp only [rSTO_CSNAP, rSTO_CSNAP0, rSTO_CSNAP1, rSTO_CSNAP2, rSTO_CSNAP3] <;> omega)); (· decide))
    | ((with_reducible apply Touches.stepBy 0x2 (touches_State.setFld_hi _ _ _ _ ?hi)); (case hi => first | decide | (simp only [rSTO_CSNAP, rSTO_CSNAP0, rSTO_CSNAP1, rSTO_CSNAP2, rSTO_CSNAP3]; omega) | (split <;> decide) | (split <;> simp only [rSTO_CSNAP, rSTO_CSNAP0, rSTO_CSNAP1, rSTO_CSNAP2, rSTO_CSNAP3] <;> omega)); (· decide))
    | ((with_reducible apply Touches.stepBy 0x2 (touches_State.wr_hi _ _ _ ?hi)); (case hi => first | decide | (simp only [rSTO_CSNAP, rSTO_CSNAP0, rSTO_CSNAP1, rSTO_CSNAP2, rSTO_CSNAP3]; omega) | (split <;> decide) | (split <;> simp only [rSTO_CSNAP, rSTO_CSNAP0, rSTO_CSNAP1, rSTO_CSNAP2, rSTO_CSNAP3] <;> omega)); (· decide))
    | split)

theorem touches_State.portTake (s : State) (p : Nat) (ok : Prod → Bool) :
    Touches (mEvent ||| mFreeCtr ||| mStore ||| mCtxs ||| mBillets ||| mPorts ||| mBadLines) s (State.portTake s p ok) := by
  unfold State.portTake
  (try dsimp only)
  repeat' (first
    | with_reducible exact Touches.refl _ _
    | ((with_reducible apply Touches.stepBy 0x11ee42 (touches_State.place _ _)); · decide)
    | ((with_reducible apply Touches.stepBy 0x18002 (touches_State.settleBillet _ _)); · decide)
    | ((with_reducible apply Touches.stepBy 0x20000 (touches_State.onPorts _ _)); · decide)
    | ((with_reducible refine Touches.foldl ?_ ?_))
    | ((intro t b); try dsimp only)
    | split
    | with_reducible refine Touches.ofSnd (by assumption) ?_
    | with_reducible refine Touches.ofFst (by assumption) ?_
    | (with_reducible constructor <;> first | exact fun h => absurd h (by decide) | exact fun _ => rfl | exact fun _ a _ => State.rd_congr (by rfl) a | exact fun h => h.of_eq rfl rfl rfl rfl rfl | exact FusesOnlyBurn.of_eq rfl rfl rfl rfl rfl))

theorem touches_State.arrive (s : State) (p : Nat) :
    Touches (mEvent ||| mFreeCtr ||| mStore ||| mCtxs ||| mBillets ||| mPorts ||| mBadLines) s (State.arrive s p) := by
  unfold State.arrive
  (try dsimp only)
  repeat' (first
    | with_reducible exact Touches.refl _ _
    | ((with_reducible apply Touches.stepBy 0x13ee42 (touches_State.portTake _ _ _)); · decide))

theorem touches_State.retryCtx (s : State) (x why : Nat) :
    Touches (mEvent ||| mFreeCtr ||| mStore ||| mCtxs ||| mBillets ||| mPorts ||| mBadLines) s (State.retryCtx s x why) := by
  unfold State.retryCtx
  (try dsimp only)
  repeat' (first
    | with_reducible exact Touches.refl _ _
    | ((with_reducible apply Touches.stepBy 0x13ee42 (touches_State.portTake _ _ _)); · decide)
    | ((with_reducible refine Touches.foldl ?_ ?_))
    | ((intro t b); try dsimp only)
    | split
    | with_reducible refine Touches.ofSnd (by assumption) ?_
    | with_reducible refine Touches.ofFst (by assumption) ?_)

theorem touches_State.zcRelease (s : State) (x n : Nat) :
    Touches (mEvent ||| mCtxs ||| mBillets) s (State.zcRelease s x n) := by
  unfold State.zcRelease
  (try dsimp only)
  repeat' (first
    | with_reducible exact Touches.refl _ _
    | ((with_reducible apply Touches.stepBy 0x18002 (touches_State.finishTo _ _ _ _)); · decide)
    | ((with_reducible apply Touches.stepBy 0x1e842 (touches_State.zcRun _ _)); · decide)
    | ((with_reducible apply Touches.stepBy 0x8000 (touches_State.setCtx _ _ _)); · decide)
    | ((with_reducible apply Touches.stepBy 0x6842 (touches_State.raise _ _ _ _ _)); · decide)
    | ((with_reducible apply Touches.stepBy 0x2 (touches_State.addSat_hi _ _ _ _ ?hi)); (case hi => first | decide | (simp only [rSTO_CNT1]; omega) | (split <;> decide) | (split <;> simp only [rSTO_CNT1] <;> omega)); (· decide))
    | split
    | with_reducible refine Touches.ofSnd (by assumption) ?_
    | with_reducible refine Touches.ofFst (by assumption) ?_)

theorem touches_State.zcFlush (s : State) (x : Nat) :
    Touches (mEvent ||| mTime ||| mFreeCtr ||| mStore ||| mCtxs ||| mBillets ||| mBadLines) s (State.zcFlush s x) := by
  unfold State.zcFlush
  (try dsimp only)
  repeat' (first
    | with_reducible exact Touches.refl _ _
    | ((with_reducible apply Touches.stepBy 0x11ee42 (touches_State.flushCtx _ _)); · decide)
    | ((with_reducible apply Touches.stepBy 0x80 (touches_State.reach _ _)); · decide)
    | split
    | with_reducible refine Touches.ofSnd (by assumption) ?_
    | with_reducible refine Touches.ofFst (by assumption) ?_)

theorem touches_State.biasDone (s : State) (b : Nat) :
    Touches (mEvent ||| mCtxs ||| mBillets) s (State.biasDone s b) := by
  unfold State.biasDone
  (try dsimp only)
  repeat' (first
    | with_reducible exact Touches.refl _ _
    | ((with_reducible apply Touches.stepBy 0x1e842 (touches_State.zcRun _ _)); · decide)
    | ((with_reducible apply Touches.stepBy 0x8000 (touches_State.closeIfDrained _ _)); · decide)
    | ((with_reducible apply Touches.stepBy 0x18002 (touches_State.settleBillet _ _)); · decide)
    | ((with_reducible apply Touches.stepBy 0x10000 (touches_State.setBillet _ _ _)); · decide)
    | ((with_reducible apply Touches.stepBy 0x2 (touches_State.addMod_hi _ _ _ _ ?hi)); (case hi => first | decide | (simp only [rGLB_HIF_BIAS]; omega) | (split <;> decide) | (split <;> simp only [rGLB_HIF_BIAS] <;> omega)); (· decide))
    | split
    | with_reducible refine Touches.ofSnd (by assumption) ?_
    | with_reducible refine Touches.ofFst (by assumption) ?_
    | (with_reducible constructor <;> first | exact fun h => absurd h (by decide) | exact fun _ => rfl | exact fun _ a _ => State.rd_congr (by rfl) a | exact fun h => h.of_eq rfl rfl rfl rfl rfl | exact FusesOnlyBurn.of_eq rfl rfl rfl rfl rfl))

theorem touches_State.hadTurn (s : State) (ty ix cls x : Nat) (done : Bool) :
    Touches mServed s (State.hadTurn s ty ix cls x done) := by
  unfold State.hadTurn
  (try dsimp only)
  repeat' (first
    | with_reducible exact Touches.refl _ _
    | split
    | (with_reducible constructor <;> first | exact fun h => absurd h (by decide) | exact fun _ => rfl | exact fun _ a _ => State.rd_congr (by rfl) a | exact fun h => h.of_eq rfl rfl rfl rfl rfl | exact FusesOnlyBurn.of_eq rfl rfl rfl rfl rfl))

/-! ### Machine/Adm.lean -/

theorem touches_State.admCapture (s : State) :
    Touches mRegs s (State.admCapture s) := by
  unfold State.admCapture
  (try dsimp only)
  repeat' (first
    | with_reducible exact Touches.refl _ _
    | ((with_reducible apply Touches.stepBy 0x2 (touches_State.addMod_hi _ _ _ _ ?hi)); (case hi => first | decide | (simp only [rADM_LOAD0, rADM_LOAD1, rADM_RES, rADM_SNAP]; omega) | (split <;> decide) | (split <;> simp only [rADM_LOAD0, rADM_LOAD1, rADM_RES, rADM_SNAP] <;> omega)); (· decide))
    | ((with_reducible apply Touches.stepBy 0x2 (touches_State.wr_hi _ _ _ ?hi)); (case hi => first | decide | (simp only [rADM_LOAD0, rADM_LOAD1, rADM_RES, rADM_SNAP]; omega) | (split <;> decide) | (split <;> simp only [rADM_LOAD0, rADM_LOAD1, rADM_RES, rADM_SNAP] <;> omega)); (· decide))
    | ((with_reducible refine Touches.foldl ?_ ?_))
    | ((intro t b); try dsimp only)
    | split)

theorem touches_State.admStatus (s : State) (result reason res x : Nat) :
    Touches mRegs s (State.admStatus s result reason res x) := by
  unfold State.admStatus
  (try dsimp only)
  repeat' (first
    | with_reducible exact Touches.refl _ _
    | ((with_reducible apply Touches.stepBy 0x2 (touches_State.setFlds_hi _ _ _ ?hi)); (case hi => first | decide | (simp only [rADM_STATUS]; omega) | (split <;> decide) | (split <;> simp only [rADM_STATUS] <;> omega)); (· decide)))

theorem touches_State.admNote (s : State) (o : Option AdmFail) :
    Touches mEvent s (State.admNote s o) := by
  unfold State.admNote
  (try dsimp only)
  repeat' (first
    | with_reducible exact Touches.refl _ _
    | ((with_reducible apply Touches.stepBy 0x6842 (touches_State.raise _ _ _ _ _)); · decide)
    | ((with_reducible apply Touches.stepBy 0x2 (touches_State.setFlds_hi _ _ _ ?hi)); (case hi => first | decide | (simp only [rADM_STATUS]; omega) | (split <;> decide) | (split <;> simp only [rADM_STATUS] <;> omega)); (· decide))
    | ((with_reducible apply Touches.stepBy 0x2 (touches_State.setFld_hi _ _ _ _ ?hi)); (case hi => first | decide | (simp only [rADM_STATUS]; omega) | (split <;> decide) | (split <;> simp only [rADM_STATUS] <;> omega)); (· decide))
    | ((with_reducible apply Touches.stepBy 0x2 (touches_State.admCapture _)); · decide)
    | split
    | with_reducible refine Touches.ofSnd (by assumption) ?_
    | with_reducible refine Touches.ofFst (by assumption) ?_)

theorem touches_State.admRetest (s : State) :
    Touches mEvent s (State.admRetest s) := by
  unfold State.admRetest
  (try dsimp only)
  repeat' (first
    | with_reducible exact Touches.refl _ _
    | ((with_reducible apply Touches.stepBy 0x2 (touches_State.setFld_hi _ _ _ _ ?hi)); (case hi => first | decide | (simp only [rADM_MEM]; omega) | (split <;> decide) | (split <;> simp only [rADM_MEM] <;> omega)); (· decide))
    | ((with_reducible apply Touches.stepBy 0x6842 (touches_State.admNote _ _)); · decide))

theorem touches_State.admFail (s : State) (result : Nat) (f : AdmFail) (count : Bool) :
    Touches mEvent s (State.admFail s result f count) := by
  unfold State.admFail
  (try dsimp only)
  repeat' (first
    | with_reducible exact Touches.refl _ _
    | ((with_reducible apply Touches.stepBy 0x6842 (touches_State.raise _ _ _ _ _)); · decide)
    | ((with_reducible apply Touches.stepBy 0x2 (touches_State.addMod_hi _ _ _ _ ?hi)); (case hi => first | decide | (simp only [rADM_COUNT]; omega) | (split <;> decide) | (split <;> simp only [rADM_COUNT] <;> omega)); (· decide))
    | ((with_reducible apply Touches.stepBy 0x2 (touches_State.admStatus _ _ _ _ _)); · decide)
    | split)

theorem touches_State.takeIn (s : State) (x : Nat) (e : List Word) (runtime : Bool) (p : Nat) :
    Touches (mEvent ||| mCtxs) s (State.takeIn s x e runtime p) := by
  unfold State.takeIn
  (try dsimp only)
  repeat' (first
    | with_reducible exact Touches.refl _ _
    | ((with_reducible apply Touches.stepBy 0xe842 (touches_State.openCtx _ _ _ _ _)); · decide)
    | ((with_reducible apply Touches.stepBy 0x2 (touches_State.setFld_hi _ _ _ _ ?hi)); (case hi => first | decide | (simp only [rADM_CTX]; omega) | (split <;> decide) | (split <;> simp only [rADM_CTX] <;> omega)); (· decide)))

theorem touches_State.admOpen (s : State) (e : List Word) (commit : Bool) :
    Touches (mEvent ||| mCtxs) s (State.admOpen s e commit) := by
  unfold State.admOpen
  (try dsimp only)
  repeat' (first
    | with_reducible exact Touches.refl _ _
    | ((with_reducible apply Touches.stepBy 0x6842 (touches_State.raise _ _ _ _ _)); · decide)
    | ((with_reducible apply Touches.stepBy 0x2 (touches_State.addMod_hi _ _ _ _ ?hi)); (case hi => first | decide | (simp only [rADM_COUNT, rADM_STATUS, rGLB_STATUS, rPLAN_STATUS]; omega) | (split <;> decide) | (split <;> simp only [rADM_COUNT, rADM_STATUS, rGLB_STATUS, rPLAN_STATUS] <;> omega)); (· decide))
    | ((with_reducible apply Touches.stepBy 0xe842 (touches_State.takeIn _ _ _ _ _)); · decide)
    | ((with_reducible apply Touches.stepBy 0x6842 (touches_State.admFail _ _ _ _)); · decide)
    | ((with_reducible apply Touches.stepBy 0x2 (touches_State.admStatus _ _ _ _ _)); · decide)
    | split
    | with_reducible refine Touches.ofSnd (by assumption) ?_
    | with_reducible refine Touches.ofFst (by assumption) ?_)

theorem touches_State.admClose (s : State) (x : Nat) :
    Touches (mEvent ||| mFreeCtr ||| mStore ||| mCtxs ||| mBillets ||| mBadLines) s (State.admClose s x) := by
  unfold State.admClose
  (try dsimp only)
  repeat' (first
    | with_reducible exact Touches.refl _ _
    | ((with_reducible apply Touches.stepBy 0x11ee42 (touches_State.drainCtx _ _)); · decide)
    | ((with_reducible apply Touches.stepBy 0x6842 (touches_State.admFail _ _ _ _)); · decide)
    | ((with_reducible apply Touches.stepBy 0x2 (touches_State.admStatus _ _ _ _ _)); · decide)
    | split)

theorem touches_State.wrAdmCmd (v : Word) (s : State) :
    Touches (mEvent ||| mFreeCtr ||| mStore ||| mCtxs ||| mBillets ||| mBadLines) s (State.wrAdmCmd v s) := by
  unfold State.wrAdmCmd
  (try dsimp only)
  repeat' (first
    | with_reducible exact Touches.refl _ _
    | ((with_reducible apply Touches.stepBy 0x6842 (touches_State.srExit _)); · decide)
    | ((with_reducible apply Touches.stepBy 0x2 (touches_State.addSat_hi _ _ _ _ ?hi)); (case hi => first | decide | (simp only [rADM_ARG, rADM_COUNT, rADM_ENTRY, rADM_STATUS, rMEM_MAP]; omega) | (split <;> decide) | (split <;> simp only [rADM_ARG, rADM_COUNT, rADM_ENTRY, rADM_STATUS, rMEM_MAP] <;> omega)); (· decide))
    | ((with_reducible apply Touches.stepBy 0x11ee42 (touches_State.admClose _ _)); · decide)
    | ((with_reducible apply Touches.stepBy 0xe842 (touches_State.admOpen _ _ _)); · decide)
    | ((with_reducible apply Touches.stepBy 0x6842 (touches_State.admRetest _)); · decide)
    | ((with_reducible apply Touches.stepBy 0x2 (touches_State.admCapture _)); · decide)
    | split
    | with_reducible refine Touches.ofSnd (by assumption) ?_
    | with_reducible refine Touches.ofFst (by assumption) ?_)

theorem touches_State.wrAdmSnap (v : Word) (s : State) :
    Touches mRegs s (State.wrAdmSnap v s) := by
  unfold State.wrAdmSnap
  (try dsimp only)
  repeat' (first
    | with_reducible exact Touches.refl _ _
    | ((with_reducible apply Touches.stepBy 0x2 (touches_State.admCapture _)); · decide)
    | split)

/-! ### Machine/Mem.lean -/

theorem touches_State.setLineErr (s : State) (line v : Nat) :
    Touches mBadLines s (State.setLineErr s line v) := by
  constructor <;> first | exact fun h => absurd h (by decide) | exact fun _ => rfl | exact fun _ a _ => State.rd_congr (by rfl) a | exact fun h => h.of_eq rfl rfl rfl rfl rfl | exact FusesOnlyBurn.of_eq rfl rfl rfl rfl rfl

theorem touches_State.memCe (s : State) (ch : Nat) :
    Touches mEvent s (State.memCe s ch) := by
  unfold State.memCe
  (try dsimp only)
  repeat' (first
    | with_reducible exact Touches.refl _ _
    | ((with_reducible apply Touches.stepBy 0x6842 (touches_State.raiseLim _ _ _ _ _ _ _)); · decide)
    | ((with_reducible apply Touches.stepBy 0x2 (touches_State.addSat_hi _ _ _ _ ?hi)); (case hi => first | decide | (simp only [rMEM_CH_ECC]; omega) | (split <;> decide) | (split <;> simp only [rMEM_CH_ECC] <;> omega)); (· decide)))

theorem touches_State.ueCapture (s : State) :
    Touches mRegs s (State.ueCapture s) := by
  unfold State.ueCapture
  (try dsimp only)
  repeat' (first
    | with_reducible exact Touches.refl _ _
    | ((with_reducible apply Touches.stepBy 0x2 (touches_State.addMod_hi _ _ _ _ ?hi)); (case hi => first | decide | (simp only [rMEM_UE0, rMEM_UE1, rMEM_UE2, rMEM_UE_SNAP]; omega) | (split <;> decide) | (split <;> simp only [rMEM_UE0, rMEM_UE1, rMEM_UE2, rMEM_UE_SNAP] <;> omega)); (· decide))
    | ((with_reducible apply Touches.stepBy 0x2 (touches_State.wr_hi _ _ _ ?hi)); (case hi => first | decide | (simp only [rMEM_UE0, rMEM_UE1, rMEM_UE2, rMEM_UE_SNAP]; omega) | (split <;> decide) | (split <;> simp only [rMEM_UE0, rMEM_UE1, rMEM_UE2, rMEM_UE_SNAP] <;> omega)); (· decide)))

theorem touches_State.memUe (s : State) (p : MemPlace) (lines : List Nat) (source : Nat) :
    Touches (mRegs ||| mBadLines ||| mMem) s (State.memUe s p lines source) := by
  unfold State.memUe
  (try dsimp only)
  repeat' (first
    | with_reducible exact Touches.refl _ _
    | ((with_reducible apply Touches.stepBy 0x2 (touches_State.addSat_hi _ _ _ _ ?hi)); (case hi => first | decide | (simp only [rMEM_CH_ECC]; omega) | (split <;> decide) | (split <;> simp only [rMEM_CH_ECC] <;> omega)); (· decide))
    | ((with_reducible apply Touches.stepBy 0x2000000000000 (touches_State.onMem _ _)); · decide)
    | ((with_reducible apply Touches.stepBy 0x2 (touches_State.ueCapture _)); · decide)
    | ((with_reducible apply Touches.stepBy 0x100000 (touches_State.setLineErr _ _ _)); · decide)
    | ((with_reducible refine Touches.foldl ?_ ?_))
    | ((intro t b); try dsimp only))

theorem touches_State.granulePick (s : State) (ch : Nat) (gs : List Granule) {g : Granule} {t : State} (h : s.granulePick ch gs = some (g, t)) :
    Touches (mFreeCtr ||| mMem) s t := by
  unfold State.granulePick at h
  obtain ⟨_, _, e⟩ := Option.map_eq_some_iff.1 h
  dsimp only at e
  split at e
  · split at e
    all_goals (cases e; exact ((touches_State.fresh s).mono (by decide)).trans ((touches_State.onMem _ _).mono (by decide)))
  · cases e
    exact ((touches_State.fresh s).mono (by decide)).trans ((touches_State.onMem _ _).mono (by decide))

theorem touches_State.rowOpened (s : State) (p : MemPlace) :
    Touches mMem s (State.rowOpened s p) := by
  unfold State.rowOpened
  (try dsimp only)
  repeat' (first
    | with_reducible exact Touches.refl _ _
    | ((with_reducible apply Touches.stepBy 0x2000000000000 (touches_State.onMem _ _)); · decide))

theorem touches_State.rowsClosed (s : State) (ch : Nat) :
    Touches mMem s (State.rowsClosed s ch) := by
  unfold State.rowsClosed
  (try dsimp only)
  repeat' (first
    | with_reducible exact Touches.refl _ _
    | ((with_reducible apply Touches.stepBy 0x2000000000000 (touches_State.onMem _ _)); · decide)
    | ((with_reducible refine Touches.foldl ?_ ?_))
    | ((intro t b); try dsimp only))

theorem touches_State.granuleLine (s : State) (line : Nat) (write : Bool) (err : EccErr) :
    Touches (mEvent ||| mBadLines ||| mMem) s (State.granuleLine s line write err) := by
  unfold State.granuleLine
  (try dsimp only)
  repeat' (first
    | with_reducible exact Touches.refl _ _
    | ((with_reducible apply Touches.stepBy 0x6842 (touches_State.raise _ _ _ _ _)); · decide)
    | ((with_reducible apply Touches.stepBy 0x2000000100002 (touches_State.memUe _ _ _ _)); · decide)
    | ((with_reducible apply Touches.stepBy 0x6842 (touches_State.memCe _ _)); · decide)
    | ((with_reducible apply Touches.stepBy 0x100000 (touches_State.setLineErr _ _ _)); · decide)
    | split)

theorem touches_State.granule (s : State) (g : Granule) (err : EccErr) :
    Touches (mEvent ||| mBadLines ||| mMem) s (State.granule s g err) := by
  unfold State.granule
  (try dsimp only)
  repeat' (first
    | with_reducible exact Touches.refl _ _
    | ((with_reducible apply Touches.stepBy 0x2000000106842 (touches_State.granuleLine _ _ _ _)); · decide)
    | ((with_reducible refine Touches.foldl ?_ ?_))
    | ((intro t b); try dsimp only)
    | split)

theorem touches_State.refreshOld (s : State) (ch : Nat) (gs : List Granule) :
    Touches (mRegs ||| mMem) s (State.refreshOld s ch gs) := by
  unfold State.refreshOld
  (try dsimp only)
  repeat' (first
    | with_reducible exact Touches.refl _ _
    | ((with_reducible apply Touches.stepBy 0x2 (touches_State.setFld_hi _ _ _ _ ?hi)); (case hi => first | decide | (simp only [rMEM_CH_STATUS]; omega) | (split <;> decide) | (split <;> simp only [rMEM_CH_STATUS] <;> omega)); (· decide))
    | ((with_reducible apply Touches.stepBy 0x2000000000000 (touches_State.rowsClosed _ _)); · decide)
    | split)

theorem touches_State.channelIssue (s : State) (ch : Nat) (waiting : List Granule) (err : EccErr) :
    Touches (mEvent ||| mFreeCtr ||| mBadLines ||| mMem) s (State.channelIssue s ch waiting err) := by
  unfold State.channelIssue
  dsimp only
  split
  · exact Touches.refl _ _
  · next h =>
    have a := ((touches_State.refreshOld _ _ _).mono (by decide : _ &&& (mEvent ||| mFreeCtr ||| mBadLines ||| mMem) = _)).trans
      ((touches_State.granulePick _ _ _ h).mono (by decide))
    exact ((a.trans ((touches_State.onMem _ _).mono (by decide))).trans ((touches_State.rowOpened _ _).mono (by decide))).trans
      ((touches_State.granule _ _ _).mono (by decide))

theorem touches_State.scrubNext (s : State) :
    Touches (mEvent ||| mMem) s (State.scrubNext s) := by
  unfold State.scrubNext
  (try dsimp only)
  repeat' (first
    | with_reducible exact Touches.refl _ _
    | ((with_reducible apply Touches.stepBy 0x6842 (touches_State.raise _ _ _ _ _)); · decide)
    | ((with_reducible apply Touches.stepBy 0x2 (touches_State.addMod_hi _ _ _ _ ?hi)); (case hi => first | decide | (simp only [rMEM_SCRUB]; omega) | (split <;> decide) | (split <;> simp only [rMEM_SCRUB] <;> omega)); (· decide))
    | ((with_reducible apply Touches.stepBy 0x2 (touches_State.setFld_hi _ _ _ _ ?hi)); (case hi => first | decide | (simp only [rMEM_SCRUB]; omega) | (split <;> decide) | (split <;> simp only [rMEM_SCRUB] <;> omega)); (· decide))
    | ((with_reducible apply Touches.stepBy 0x2000000000000 (touches_State.onMem _ _)); · decide)
    | split)

theorem touches_State.scrubRead (s : State) (err : EccErr) :
    Touches (mEvent ||| mStore ||| mBadLines ||| mMem) s (State.scrubRead s err) := by
  unfold State.scrubRead
  (try dsimp only)
  repeat' (first
    | with_reducible exact Touches.refl _ _
    | ((with_reducible apply Touches.stepBy 0x100400 (touches_State.storeWrite _ _ _)); · decide)
    | ((with_reducible apply Touches.stepBy 0x6842 (touches_State.raise _ _ _ _ _)); · decide)
    | ((with_reducible apply Touches.stepBy 0x2 (touches_State.addSat_hi _ _ _ _ ?hi)); (case hi => first | decide | (simp only [rMEM_SCRUB]; omega) | (split <;> decide) | (split <;> simp only [rMEM_SCRUB] <;> omega)); (· decide))
    | ((with_reducible apply Touches.stepBy 0x2000000006842 (touches_State.scrubNext _)); · decide)
    | ((with_reducible apply Touches.stepBy 0x2000000100002 (touches_State.memUe _ _ _ _)); · decide)
    | ((with_reducible apply Touches.stepBy 0x6842 (touches_State.memCe _ _)); · decide)
    | ((with_reducible apply Touches.stepBy 0x100000 (touches_State.setLineErr _ _ _)); · decide)
    | ((with_reducible refine Touches.foldl ?_ ?_))
    | ((intro t b); try dsimp only)
    | split
    | with_reducible refine Touches.ofSnd (by assumption) ?_
    | with_reducible refine Touches.ofFst (by assumption) ?_)

theorem touches_State.mr4Poll (s : State) (d code : Nat) :
    Touches mEvent s (State.mr4Poll s d code) := by
  unfold State.mr4Poll
  (try dsimp only)
  repeat' (first
    | with_reducible exact Touches.refl _ _
    | ((with_reducible apply Touches.stepBy 0x6842 (touches_State.raise _ _ _ _ _)); · decide)
    | ((with_reducible apply Touches.stepBy 0x2 (touches_State.setFld_hi _ _ _ _ ?hi)); (case hi => first | decide | (simp only [rMEM_CH_STATUS]; omega) | (split <;> decide) | (split <;> simp only [rMEM_CH_STATUS] <;> omega)); (· decide))
    | split)

theorem touches_State.refreshDue (s : State) (ch : Nat) (wait : Bool) :
    Touches (mEvent ||| mMem) s (State.refreshDue s ch wait) := by
  unfold State.refreshDue
  (try dsimp only)
  repeat' (first
    | with_reducible exact Touches.refl _ _
    | ((with_reducible apply Touches.stepBy 0x6842 (touches_State.raiseLim _ _ _ _ _ _ _)); · decide)
    | ((with_reducible apply Touches.stepBy 0x2 (touches_State.addSat_hi _ _ _ _ ?hi)); (case hi => first | decide | (simp only [rMEM_CH_STATUS, rMEM_REFRESH]; omega) | (split <;> decide) | (split <;> simp only [rMEM_CH_STATUS, rMEM_REFRESH] <;> omega)); (· decide))
    | ((with_reducible apply Touches.stepBy 0x2 (touches_State.setFld_hi _ _ _ _ ?hi)); (case hi => first | decide | (simp only [rMEM_CH_STATUS, rMEM_REFRESH]; omega) | (split <;> decide) | (split <;> simp only [rMEM_CH_STATUS, rMEM_REFRESH] <;> omega)); (· decide))
    | ((with_reducible apply Touches.stepBy 0x2000000000000 (touches_State.onMem _ _)); · decide)
    | ((with_reducible apply Touches.stepBy 0x2000000000000 (touches_State.rowsClosed _ _)); · decide)
    | split)

theorem touches_State.retrain (s : State) (ch : Nat) (ok : Bool) :
    Touches (mEvent ||| mMem) s (State.retrain s ch ok) := by
  unfold State.retrain
  (try dsimp only)
  repeat' (first
    | with_reducible exact Touches.refl _ _
    | ((with_reducible apply Touches.stepBy 0x6842 (touches_State.raise _ _ _ _ _)); · decide)
    | ((with_reducible apply Touches.stepBy 0x2 (touches_State.addSat_hi _ _ _ _ ?hi)); (case hi => first | decide | (simp only [rMEM_CH_STATUS]; omega) | (split <;> decide) | (split <;> simp only [rMEM_CH_STATUS] <;> omega)); (· decide))
    | ((with_reducible apply Touches.stepBy 0x2 (touches_State.setFld_hi _ _ _ _ ?hi)); (case hi => first | decide | (simp only [rMEM_CH_STATUS]; omega) | (split <;> decide) | (split <;> simp only [rMEM_CH_STATUS] <;> omega)); (· decide))
    | ((with_reducible apply Touches.stepBy 0x2000000000000 (touches_State.onMem _ _)); · decide)
    | split)

theorem touches_State.wrMemMap (v : Word) (s : State) :
    Touches mEvent s (State.wrMemMap v s) := by
  unfold State.wrMemMap
  (try dsimp only)
  repeat' (first
    | with_reducible exact Touches.refl _ _
    | ((with_reducible apply Touches.stepBy 0x6842 (touches_State.srExit _)); · decide)
    | ((with_reducible apply Touches.stepBy 0x2 (touches_State.addSat_hi _ _ _ _ ?hi)); (case hi => first | decide | (simp only [rMEM_MAP]; omega) | (split <;> decide) | (split <;> simp only [rMEM_MAP] <;> omega)); (· decide))
    | ((with_reducible apply Touches.stepBy 0x2 (touches_State.setFlds_hi _ _ _ ?hi)); (case hi => first | decide | (simp only [rMEM_MAP]; omega) | (split <;> decide) | (split <;> simp only [rMEM_MAP] <;> omega)); (· decide))
    | split)

theorem touches_State.mapInitDone (s : State) :
    Touches (mRegs ||| mStore ||| mBadLines ||| mMem) s (State.mapInitDone s) := by
  unfold State.mapInitDone
  (try dsimp only)
  repeat' (first
    | with_reducible exact Touches.refl _ _
    | ((with_reducible apply Touches.stepBy 0x2 (touches_State.setFld_hi _ _ _ _ ?hi)); (case hi => first | decide | (simp only [rMEM_MAP]; omega) | (split <;> decide) | (split <;> simp only [rMEM_MAP] <;> omega)); (· decide))
    | ((with_reducible apply Touches.stepBy 0x2000000000000 (touches_State.onMem _ _)); · decide)
    | ((with_reducible apply Touches.stepBy 0x100000 (touches_State.onBadLines _ _)); · decide)
    | ((with_reducible apply Touches.stepBy 0x400 (touches_State.storeClear _)); · decide)
    | split)

theorem touches_State.wrMemSched (v : Word) (s : State) :
    Touches mRegs s (State.wrMemSched v s) := by
  unfold State.wrMemSched
  (try dsimp only)
  repeat' (first
    | with_reducible exact Touches.refl _ _
    | ((with_reducible apply Touches.stepBy 0x2 (touches_State.wrCodes_hi _ _ _ _ ?hi)); (case hi => first | decide | (simp only [rMEM_SCHED]; omega) | (split <;> decide) | (split <;> simp only [rMEM_SCHED] <;> omega)); (· decide))
    | ((with_reducible apply Touches.stepBy 0x2 (touches_State.addSat_hi _ _ _ _ ?hi)); (case hi => first | decide | (simp only [rMEM_SCHED]; omega) | (split <;> decide) | (split <;> simp only [rMEM_SCHED] <;> omega)); (· decide))
    | split)

theorem touches_State.wrMemUeSnap (v : Word) (s : State) :
    Touches mRegs s (State.wrMemUeSnap v s) := by
  unfold State.wrMemUeSnap
  (try dsimp only)
  repeat' (first
    | with_reducible exact Touches.refl _ _
    | ((with_reducible apply Touches.stepBy 0x2 (touches_State.ueCapture _)); · decide)
    | split)

/-! ### Machine/Cmp.lean -/

theorem touches_State.updCmp (s : State) (u : Nat) (f : Cmp → Cmp) :
    Touches mCmp s (State.updCmp s u f) := by
  constructor <;> first | exact fun h => absurd h (by decide) | exact fun _ => rfl | exact fun _ a _ => State.rd_congr (by rfl) a | exact fun h => h.of_eq rfl rfl rfl rfl rfl | exact FusesOnlyBurn.of_eq rfl rfl rfl rfl rfl

theorem touches_State.cmpClose (s : State) (u : Nat) :
    Touches (mEvent ||| mCtxs ||| mPorts ||| mCmp) s (State.cmpClose s u) := by
  unfold State.cmpClose
  (try dsimp only)
  repeat' (first
    | with_reducible exact Touches.refl _ _
    | ((with_reducible apply Touches.stepBy 0x2e842 (touches_State.emitRec _ _ _)); · decide)
    | ((with_reducible apply Touches.stepBy 0x20000000000000 (touches_State.updCmp _ _ _)); · decide)
    | split
    | with_reducible refine Touches.ofSnd (by assumption) ?_
    | with_reducible refine Touches.ofFst (by assumption) ?_)

theorem touches_State.cmpBlock (s : State) (u : Nat) (xs : List Smp) :
    Touches (mEvent ||| mFreeCtr ||| mCtxs ||| mPorts ||| mCmp) s (State.cmpBlock s u xs) := by
  unfold State.cmpBlock
  (try dsimp only)
  repeat' (first
    | with_reducible exact Touches.refl _ _
    | ((with_reducible apply Touches.stepBy 0x200 (touches_State.fresh _)); · decide)
    | ((with_reducible apply Touches.stepBy 0x2 (touches_State.addMod_hi _ _ _ _ ?hi)); (case hi => first | decide | (simp only [rCMP_BLOCKS]; omega) | (split <;> decide) | (split <;> simp only [rCMP_BLOCKS] <;> omega)); (· decide))
    | ((with_reducible apply Touches.stepBy 0x2000000002e842 (touches_State.cmpClose _ _)); · decide)
    | ((with_reducible apply Touches.stepBy 0x20000000000000 (touches_State.updCmp _ _ _)); · decide)
    | ((with_reducible refine Touches.foldl ?_ ?_))
    | ((intro t b); try dsimp only)
    | split
    | with_reducible refine Touches.ofSnd (by assumption) ?_
    | with_reducible refine Touches.ofFst (by assumption) ?_
    | (with_reducible constructor <;> first | exact fun h => absurd h (by decide) | exact fun _ => rfl | exact fun _ a _ => State.rd_congr (by rfl) a | exact fun h => h.of_eq rfl rfl rfl rfl rfl | exact FusesOnlyBurn.of_eq rfl rfl rfl rfl rfl))

theorem touches_State.cmpLost (s : State) (u : Nat) :
    Touches (mEvent ||| mCtxs ||| mPorts ||| mCmp) s (State.cmpLost s u) := by
  unfold State.cmpLost
  (try dsimp only)
  repeat' (first
    | with_reducible exact Touches.refl _ _
    | ((with_reducible apply Touches.stepBy 0x8000 (touches_State.loseDirect _ _ _)); · decide)
    | ((with_reducible apply Touches.stepBy 0x2000000002e842 (touches_State.cmpClose _ _)); · decide)
    | ((with_reducible apply Touches.stepBy 0x20000000000000 (touches_State.updCmp _ _ _)); · decide)
    | split)

theorem touches_State.cmpFormat (s : State) (u fmt : Nat) :
    Touches (mEvent ||| mCtxs ||| mPorts ||| mCmp) s (State.cmpFormat s u fmt) := by
  unfold State.cmpFormat
  (try dsimp only)
  repeat' (first
    | with_reducible exact Touches.refl _ _
    | ((with_reducible apply Touches.stepBy 0x2000000002e842 (touches_State.cmpClose _ _)); · decide)
    | split
    | with_reducible refine Touches.ofSnd (by assumption) ?_
    | with_reducible refine Touches.ofFst (by assumption) ?_)

theorem touches_State.cmpStep (s : State) (u : Nat) :
    Touches (mEvent ||| mFreeCtr ||| mCtxs ||| mPorts ||| mCmp) s (State.cmpStep s u) := by
  unfold State.cmpStep
  (try dsimp only)
  repeat' (first
    | with_reducible exact Touches.refl _ _
    | ((with_reducible apply Touches.stepBy 0x2000000002e842 (touches_State.cmpFormat _ _ _)); · decide)
    | ((with_reducible apply Touches.stepBy 0x2000000002e842 (touches_State.cmpLost _ _)); · decide)
    | ((with_reducible apply Touches.stepBy 0x2000000002ea42 (touches_State.cmpBlock _ _ _)); · decide)
    | ((with_reducible apply Touches.stepBy 0x2000000002e842 (touches_State.cmpClose _ _)); · decide)
    | ((with_reducible apply Touches.stepBy 0x20000000000000 (touches_State.updCmp _ _ _)); · decide)
    | split)

theorem touches_State.cmpDrain (x0 : Nat) (s : State) (x2 : Nat) :
    Touches (mEvent ||| mFreeCtr ||| mCtxs ||| mPorts ||| mCmp) s (State.cmpDrain x0 s x2) := by
  induction x0 generalizing s x2 with
  | zero => unfold State.cmpDrain; exact Touches.refl _ _
  | succ x0 ih =>
    unfold State.cmpDrain
    (try dsimp only)
    repeat' (first
      | with_reducible exact Touches.refl _ _
      | ((with_reducible apply Touches.stepBy 0x2000000002ea42 (ih _ _)); · decide)
      | ((with_reducible apply Touches.stepBy 0x2000000002ea42 (touches_State.cmpStep _ _)); · decide)
      | ((with_reducible apply Touches.stepBy 0x2000000002e842 (touches_State.cmpFormat _ _ _)); · decide)
      | ((with_reducible apply Touches.stepBy 0x2000000002ea42 (touches_State.cmpBlock _ _ _)); · decide)
      | ((with_reducible apply Touches.stepBy 0x2000000002e842 (touches_State.cmpClose _ _)); · decide)
      | ((with_reducible apply Touches.stepBy 0x20000000000000 (touches_State.updCmp _ _ _)); · decide)
      | split
      | split)

theorem touches_State.cmpFlush (s : State) (u : Nat) :
    Touches (mEvent ||| mFreeCtr ||| mCtxs ||| mPorts ||| mCmp) s (State.cmpFlush s u) := by
  unfold State.cmpFlush
  (try dsimp only)
  repeat' (first
    | with_reducible exact Touches.refl _ _
    | ((with_reducible apply Touches.stepBy 0x2000000002ea42 (touches_State.cmpDrain  _ _ _)); · decide))

theorem touches_State.cmpTake (s : State) (u : Nat) (xs : List Smp) :
    Touches mCmp s (State.cmpTake s u xs) := by
  unfold State.cmpTake
  (try dsimp only)
  repeat' (first
    | with_reducible exact Touches.refl _ _
    | ((with_reducible apply Touches.stepBy 0x20000000000000 (touches_State.updCmp _ _ _)); · decide)
    | split)

theorem touches_State.cmpDecode (s : State) (u : Nat) :
    Touches (mEvent ||| mFreeCtr ||| mCtxs ||| mReplay) s (State.cmpDecode s u).1 := by
  unfold State.cmpDecode
  (try dsimp only)
  repeat' (first
    | with_reducible exact Touches.refl _ _
    | ((with_reducible apply Touches.stepBy 0x6842 (touches_State.raiseLim _ _ _ _ _ _ _)); · decide)
    | ((with_reducible apply Touches.stepBy 0x200 (touches_State.fresh _)); · decide)
    | ((with_reducible apply Touches.stepBy 0x2 (touches_State.addSat_hi _ _ _ _ ?hi)); (case hi => first | decide | (simp only [rCMP_BLOCKS, rCMP_CFG, rCMP_STAT]; omega) | (split <;> decide) | (split <;> simp only [rCMP_BLOCKS, rCMP_CFG, rCMP_STAT] <;> omega)); (· decide))
    | ((with_reducible apply Touches.stepBy 0x2 (touches_State.addMod_hi _ _ _ _ ?hi)); (case hi => first | decide | (simp only [rCMP_BLOCKS, rCMP_CFG, rCMP_STAT]; omega) | (split <;> decide) | (split <;> simp only [rCMP_BLOCKS, rCMP_CFG, rCMP_STAT] <;> omega)); (· decide))
    | ((with_reducible apply Touches.stepBy 0x8000 (touches_State.loseFrom _ _ _)); · decide)
    | (with_reducible exact (touches_State.nextReplay _ _ (by assumption)).mono (by decide))
    | split
    | with_reducible refine Touches.ofSnd (by assumption) ?_
    | with_reducible refine Touches.ofFst (by assumption) ?_)

theorem touches_State.jobAbort (s : State) (u cause : Nat) :
    Touches (mEvent ||| mCmp) s (State.jobAbort s u cause) := by
  unfold State.jobAbort
  (try dsimp only)
  repeat' (first
    | with_reducible exact Touches.refl _ _
    | ((with_reducible apply Touches.stepBy 0x6842 (touches_State.raise _ _ _ _ _)); · decide)
    | ((with_reducible apply Touches.stepBy 0x2 (touches_State.setFlds_hi _ _ _ ?hi)); (case hi => first | decide | (simp only [rCMP_JOB_STATUS]; omega) | (split <;> decide) | (split <;> simp only [rCMP_JOB_STATUS] <;> omega)); (· decide))
    | ((with_reducible apply Touches.stepBy 0x20000000000000 (touches_State.updCmp _ _ _)); · decide)
    | split)

theorem touches_State.jobGo (s : State) (u : Nat) (pre : Option (List Byte)) :
    Touches (mEvent ||| mCmp) s (State.jobGo s u pre) := by
  unfold State.jobGo
  (try dsimp only)
  repeat' (first
    | with_reducible exact Touches.refl _ _
    | ((with_reducible apply Touches.stepBy 0x800 (touches_State.hostWrite _ _ _)); · decide)
    | ((with_reducible apply Touches.stepBy 0x2 (touches_State.setFlds_hi _ _ _ ?hi)); (case hi => first | decide | (simp only [rCMP_CFG, rCMP_JOB_COUNT, rCMP_JOB_DST, rCMP_JOB_LEN, rCMP_JOB_MODE, rCMP_JOB_SRC, rCMP_JOB_STATUS]; omega) | (split <;> decide) | (split <;> simp only [rCMP_CFG, rCMP_JOB_COUNT, rCMP_JOB_DST, rCMP_JOB_LEN, rCMP_JOB_MODE, rCMP_JOB_SRC, rCMP_JOB_STATUS] <;> omega)); (· decide))
    | ((with_reducible apply Touches.stepBy 0x20000000006842 (touches_State.jobAbort _ _ _)); · decide)
    | ((with_reducible apply Touches.stepBy 0x20000000000000 (touches_State.updCmp _ _ _)); · decide)
    | split
    | with_reducible refine Touches.ofSnd (by assumption) ?_
    | with_reducible refine Touches.ofFst (by assumption) ?_)

theorem touches_State.jobBlock (s : State) (u : Nat) (data : Option (List Byte)) :
    Touches (mEvent ||| mFreeCtr ||| mCmp) s (State.jobBlock s u data) := by
  unfold State.jobBlock
  (try dsimp only)
  repeat' (first
    | with_reducible exact Touches.refl _ _
    | ((with_reducible apply Touches.stepBy 0x6842 (touches_State.raise _ _ _ _ _)); · decide)
    | ((with_reducible apply Touches.stepBy 0x800 (touches_State.hostWrite _ _ _)); · decide)
    | ((with_reducible apply Touches.stepBy 0x200 (touches_State.fresh _)); · decide)
    | ((with_reducible apply Touches.stepBy 0x2 (touches_State.addMod_hi _ _ _ _ ?hi)); (case hi => first | decide | (simp only [rCMP_BLOCKS, rCMP_JOB_COUNT, rCMP_JOB_STATUS]; omega) | (split <;> decide) | (split <;> simp only [rCMP_BLOCKS, rCMP_JOB_COUNT, rCMP_JOB_STATUS] <;> omega)); (· decide))
    | ((with_reducible apply Touches.stepBy 0x2 (touches_State.setFlds_hi _ _ _ ?hi)); (case hi => first | decide | (simp only [rCMP_BLOCKS, rCMP_JOB_COUNT, rCMP_JOB_STATUS]; omega) | (split <;> decide) | (split <;> simp only [rCMP_BLOCKS, rCMP_JOB_COUNT, rCMP_JOB_STATUS] <;> omega)); (· decide))
    | ((with_reducible apply Touches.stepBy 0x2 (touches_State.setFld_hi _ _ _ _ ?hi)); (case hi => first | decide | (simp only [rCMP_BLOCKS, rCMP_JOB_COUNT, rCMP_JOB_STATUS]; omega) | (split <;> decide) | (split <;> simp only [rCMP_BLOCKS, rCMP_JOB_COUNT, rCMP_JOB_STATUS] <;> omega)); (· decide))
    | ((with_reducible apply Touches.stepBy 0x20000000006842 (touches_State.jobAbort _ _ _)); · decide)
    | ((with_reducible apply Touches.stepBy 0x20000000000000 (touches_State.updCmp _ _ _)); · decide)
    | split
    | with_reducible refine Touches.ofSnd (by assumption) ?_
    | with_reducible refine Touches.ofFst (by assumption) ?_)

theorem touches_State.jobResume (s : State) (u : Nat) :
    Touches (mRegs ||| mCmp) s (State.jobResume s u) := by
  unfold State.jobResume
  (try dsimp only)
  repeat' (first
    | with_reducible exact Touches.refl _ _
    | ((with_reducible apply Touches.stepBy 0x2 (touches_State.addSat_hi _ _ _ _ ?hi)); (case hi => first | decide | (simp only [rCMP_JOB_COUNT, rCMP_JOB_DST, rCMP_JOB_LEN, rCMP_JOB_STATUS, rCMP_STAT]; omega) | (split <;> decide) | (split <;> simp only [rCMP_JOB_COUNT, rCMP_JOB_DST, rCMP_JOB_LEN, rCMP_JOB_STATUS, rCMP_STAT] <;> omega)); (· decide))
    | ((with_reducible apply Touches.stepBy 0x2 (touches_State.setFld_hi _ _ _ _ ?hi)); (case hi => first | decide | (simp only [rCMP_JOB_COUNT, rCMP_JOB_DST, rCMP_JOB_LEN, rCMP_JOB_STATUS, rCMP_STAT]; omega) | (split <;> decide) | (split <;> simp only [rCMP_JOB_COUNT, rCMP_JOB_DST, rCMP_JOB_LEN, rCMP_JOB_STATUS, rCMP_STAT] <;> omega)); (· decide))
    | ((with_reducible apply Touches.stepBy 0x20000000000000 (touches_State.updCmp _ _ _)); · decide)
    | split
    | with_reducible refine Touches.ofSnd (by assumption) ?_
    | with_reducible refine Touches.ofFst (by assumption) ?_)

theorem touches_State.jobDone (s : State) (u : Nat) :
    Touches (mEvent ||| mCmp) s (State.jobDone s u) := by
  unfold State.jobDone
  (try dsimp only)
  repeat' (first
    | with_reducible exact Touches.refl _ _
    | ((with_reducible apply Touches.stepBy 0x6842 (touches_State.raise _ _ _ _ _)); · decide)
    | ((with_reducible apply Touches.stepBy 0x2 (touches_State.setFlds_hi _ _ _ ?hi)); (case hi => first | decide | (simp only [rCMP_JOB_COUNT, rCMP_JOB_STATUS]; omega) | (split <;> decide) | (split <;> simp only [rCMP_JOB_COUNT, rCMP_JOB_STATUS] <;> omega)); (· decide))
    | ((with_reducible apply Touches.stepBy 0x20000000000000 (touches_State.updCmp _ _ _)); · decide)
    | split
    | with_reducible refine Touches.ofSnd (by assumption) ?_
    | with_reducible refine Touches.ofFst (by assumption) ?_)

theorem touches_State.wrCmpJobCtrl (u : Nat) (pre : Option (List Byte)) (v : Word) (s : State) :
    Touches (mEvent ||| mCmp) s (State.wrCmpJobCtrl u pre v s) := by
  unfold State.wrCmpJobCtrl
  (try dsimp only)
  repeat' (first
    | with_reducible exact Touches.refl _ _
    | ((with_reducible apply Touches.stepBy 0x20000000000002 (touches_State.jobResume _ _)); · decide)
    | ((with_reducible apply Touches.stepBy 0x20000000006842 (touches_State.jobGo _ _ _)); · decide)
    | ((with_reducible apply Touches.stepBy 0x20000000006842 (touches_State.jobAbort _ _ _)); · decide)
    | split)

theorem touches_State.wrCmpStream (u : Nat) (v : Word) (s : State) :
    Touches (mEvent ||| mFreeCtr ||| mCtxs ||| mPorts ||| mCmp) s (State.wrCmpStream u v s) := by
  unfold State.wrCmpStream
  (try dsimp only)
  repeat' (first
    | with_reducible exact Touches.refl _ _
    | ((with_reducible apply Touches.stepBy 0x2 (touches_State.wrCodes_hi _ _ _ _ ?hi)); (case hi => first | decide | (simp only [rCMP_STAT, rCMP_STREAM]; omega) | (split <;> decide) | (split <;> simp only [rCMP_STAT, rCMP_STREAM] <;> omega)); (· decide))
    | ((with_reducible apply Touches.stepBy 0x2 (touches_State.addSat_hi _ _ _ _ ?hi)); (case hi => first | decide | (simp only [rCMP_STAT, rCMP_STREAM]; omega) | (split <;> decide) | (split <;> simp only [rCMP_STAT, rCMP_STREAM] <;> omega)); (· decide))
    | ((with_reducible apply Touches.stepBy 0x2000000002ea42 (touches_State.cmpFlush _ _)); · decide)
    | split)

theorem touches_State.cmpCommit (s : State) (u : Nat) :
    Touches (mRegs ||| mAct) s (State.cmpCommit s u) := by
  unfold State.cmpCommit
  (try dsimp only)
  repeat' (first
    | with_reducible exact Touches.refl _ _
    | ((with_reducible apply Touches.stepBy 0x4 (touches_State.commitReg _ _)); · decide)
    | ((with_reducible apply Touches.stepBy 0x2 (touches_State.addSat_hi _ _ _ _ ?hi)); (case hi => first | decide | (simp only [rCMP_STAT, rCMP_STREAM, rCMP_TAB]; omega) | (split <;> decide) | (split <;> simp only [rCMP_STAT, rCMP_STREAM, rCMP_TAB] <;> omega)); (· decide))
    | ((with_reducible refine Touches.foldl ?_ ?_))
    | ((intro t b); try dsimp only)
    | split)

theorem touches_State.cmpParamCommit (s : State) :
    Touches (mRegs ||| mAct) s (State.cmpParamCommit s) := by
  unfold State.cmpParamCommit
  (try dsimp only)
  repeat' (first
    | with_reducible exact Touches.refl _ _
    | ((with_reducible apply Touches.stepBy 0x6 (touches_State.cmpCommit _ _)); · decide)
    | ((with_reducible refine Touches.foldl ?_ ?_))
    | ((intro t b); try dsimp only))

theorem touches_State.cmpPlan (s : State) (p : Option PlanImg) :
    Touches (mEvent ||| mCmp) s (State.cmpPlan s p) := by
  unfold State.cmpPlan
  (try dsimp only)
  repeat' (first
    | with_reducible exact Touches.refl _ _
    | ((with_reducible apply Touches.stepBy 0x2 (touches_State.wr_hi _ _ _ ?hi)); (case hi => first | decide | (simp only [rCMP_CFG]; omega) | (split <;> decide) | (split <;> simp only [rCMP_CFG] <;> omega)); (· decide))
    | ((with_reducible apply Touches.stepBy 0x20000000006842 (touches_State.jobAbort _ _ _)); · decide)
    | ((with_reducible apply Touches.stepBy 0x20000000000000 (touches_State.updCmp _ _ _)); · decide)
    | ((with_reducible refine Touches.foldl ?_ ?_))
    | ((intro t b); try dsimp only)
    | split
    | with_reducible refine Touches.ofSnd (by assumption) ?_
    | with_reducible refine Touches.ofFst (by assumption) ?_)

/-! ### Machine/Dma.lean -/

theorem touches_State.setDma (s : State) (c : Nat) (d : Dma) :
    Touches mDma s (State.setDma s c d) := by
  constructor <;> first | exact fun h => absurd h (by decide) | exact fun _ => rfl | exact fun _ a _ => State.rd_congr (by rfl) a | exact fun h => h.of_eq rfl rfl rfl rfl rfl | exact FusesOnlyBurn.of_eq rfl rfl rfl rfl rfl

theorem touches_State.updDma (s : State) (c : Nat) (f : Dma → Dma) :
    Touches mDma s (State.updDma s c f) := by
  unfold State.updDma
  (try dsimp only)
  repeat' (first
    | with_reducible exact Touches.refl _ _
    | ((with_reducible apply Touches.stepBy 0x4000000000000 (touches_State.setDma _ _ _)); · decide))

theorem touches_State.setDmaState (s : State) (c v : Nat) :
    Touches mRegs s (State.setDmaState s c v) := by
  unfold State.setDmaState
  (try dsimp only)
  repeat' (first
    | with_reducible exact Touches.refl _ _
    | ((with_reducible apply Touches.stepBy 0x2 (touches_State.setFld_hi _ _ _ _ ?hi)); (case hi => first | decide | (simp only [rDMA_STATUS]; omega) | (split <;> decide) | (split <;> simp only [rDMA_STATUS] <;> omega)); (· decide)))

theorem touches_State.hostFail (s : State) (timeout : Bool) :
    Touches mEvent s (State.hostFail s timeout) := by
  unfold State.hostFail
  (try dsimp only)
  repeat' (first
    | with_reducible exact Touches.refl _ _
    | ((with_reducible apply Touches.stepBy 0x6842 (touches_State.raiseLim _ _ _ _ _ _ _)); · decide)
    | ((with_reducible apply Touches.stepBy 0x40 (touches_State.send _ _)); · decide)
    | ((with_reducible apply Touches.stepBy 0x2 (touches_State.addSat_hi _ _ _ _ ?hi)); (case hi => first | decide | (simp only [rGLB_HIF_CTO, rGLB_HIF_ERR]; omega) | (split <;> decide) | (split <;> simp only [rGLB_HIF_CTO, rGLB_HIF_ERR] <;> omega)); (· decide))
    | split)

theorem touches_State.dropRefs (s : State) (bs : List Nat) :
    Touches (mRegs ||| mCtxs ||| mBillets) s (State.dropRefs s bs) := by
  unfold State.dropRefs
  (try dsimp only)
  repeat' (first
    | with_reducible exact Touches.refl _ _
    | ((with_reducible apply Touches.stepBy 0x18002 (touches_State.settleBillet _ _)); · decide)
    | ((with_reducible apply Touches.stepBy 0x10000 (touches_State.setBillet _ _ _)); · decide)
    | ((with_reducible refine Touches.foldl ?_ ?_))
    | ((intro t b); try dsimp only))

theorem touches_State.untake (s : State) (c : Nat) :
    Touches mCtxs s (State.untake s c) := by
  unfold State.untake
  (try dsimp only)
  repeat' (first
    | with_reducible exact Touches.refl _ _
    | ((with_reducible apply Touches.stepBy 0x8000 (touches_State.updCtx _ _ _)); · decide)
    | split
    | with_reducible refine Touches.ofSnd (by assumption) ?_
    | with_reducible refine Touches.ofFst (by assumption) ?_)

theorem touches_State.dmaEvent (s : State) (c status tag : Nat) :
    Touches mEvent s (State.dmaEvent s c status tag) := by
  unfold State.dmaEvent
  (try dsimp only)
  repeat' (first
    | with_reducible exact Touches.refl _ _
    | ((with_reducible apply Touches.stepBy 0x6842 (touches_State.raise _ _ _ _ _)); · decide))

theorem touches_State.dmaEnd (s : State) (c status failAt detail stop : Nat) :
    Touches (mEvent ||| mCtxs ||| mBillets ||| mPorts ||| mDma) s (State.dmaEnd s c status failAt detail stop) := by
  unfold State.dmaEnd
  (try dsimp only)
  repeat' (first
    | with_reducible exact Touches.refl _ _
    | ((with_reducible apply Touches.stepBy 0x18002 (touches_State.finishTo _ _ _ _)); · decide)
    | ((with_reducible apply Touches.stepBy 0x800 (touches_State.hostWrite _ _ _)); · decide)
    | ((with_reducible apply Touches.stepBy 0x2 (touches_State.addMod_hi _ _ _ _ ?hi)); (case hi => first | decide | (simp only [rDMA_BYTES, rDMA_ERR, rDMA_ERR_INFO, rDMA_STATUS]; omega) | (split <;> decide) | (split <;> simp only [rDMA_BYTES, rDMA_ERR, rDMA_ERR_INFO, rDMA_STATUS] <;> omega)); (· decide))
    | ((with_reducible apply Touches.stepBy 0x2 (touches_State.setFld_hi _ _ _ _ ?hi)); (case hi => first | decide | (simp only [rDMA_BYTES, rDMA_ERR, rDMA_ERR_INFO, rDMA_STATUS]; omega) | (split <;> decide) | (split <;> simp only [rDMA_BYTES, rDMA_ERR, rDMA_ERR_INFO, rDMA_STATUS] <;> omega)); (· decide))
    | ((with_reducible apply Touches.stepBy 0x2 (touches_State.wr_hi _ _ _ ?hi)); (case hi => first | decide | (simp only [rDMA_BYTES, rDMA_ERR, rDMA_ERR_INFO, rDMA_STATUS]; omega) | (split <;> decide) | (split <;> simp only [rDMA_BYTES, rDMA_ERR, rDMA_ERR_INFO, rDMA_STATUS] <;> omega)); (· decide))
    | ((with_reducible apply Touches.stepBy 0x20000 (touches_State.onPorts _ _)); · decide)
    | ((with_reducible apply Touches.stepBy 0x6842 (touches_State.dmaEvent _ _ _ _)); · decide)
    | ((with_reducible apply Touches.stepBy 0x8000 (touches_State.untake _ _)); · decide)
    | ((with_reducible apply Touches.stepBy 0x18002 (touches_State.dropRefs _ _)); · decide)
    | ((with_reducible apply Touches.stepBy 0x2 (touches_State.setDmaState _ _ _)); · decide)
    | ((with_reducible apply Touches.stepBy 0x4000000000000 (touches_State.setDma _ _ _)); · decide)
    | split
    | with_reducible refine Touches.ofSnd (by assumption) ?_
    | with_reducible refine Touches.ofFst (by assumption) ?_)

theorem touches_State.dmaNoRead (s : State) (c status addr : Nat) (store : Bool) :
    Touches (mEvent ||| mDma) s (State.dmaNoRead s c status addr store) := by
  unfold State.dmaNoRead
  (try dsimp only)
  repeat' (first
    | with_reducible exact Touches.refl _ _
    | ((with_reducible apply Touches.stepBy 0x2 (touches_State.addMod_hi _ _ _ _ ?hi)); (case hi => first | decide | (simp only [rDMA_ERR, rDMA_ERR_INFO, rDMA_STATUS]; omega) | (split <;> decide) | (split <;> simp only [rDMA_ERR, rDMA_ERR_INFO, rDMA_STATUS] <;> omega)); (· decide))
    | ((with_reducible apply Touches.stepBy 0x2 (touches_State.setFld_hi _ _ _ _ ?hi)); (case hi => first | decide | (simp only [rDMA_ERR, rDMA_ERR_INFO, rDMA_STATUS]; omega) | (split <;> decide) | (split <;> simp only [rDMA_ERR, rDMA_ERR_INFO, rDMA_STATUS] <;> omega)); (· decide))
    | ((with_reducible apply Touches.stepBy 0x2 (touches_State.wr_hi _ _ _ ?hi)); (case hi => first | decide | (simp only [rDMA_ERR, rDMA_ERR_INFO, rDMA_STATUS]; omega) | (split <;> decide) | (split <;> simp only [rDMA_ERR, rDMA_ERR_INFO, rDMA_STATUS] <;> omega)); (· decide))
    | ((with_reducible apply Touches.stepBy 0x6842 (touches_State.dmaEvent _ _ _ _)); · decide)
    | ((with_reducible apply Touches.stepBy 0x2 (touches_State.setDmaState _ _ _)); · decide)
    | ((with_reducible apply Touches.stepBy 0x4000000000000 (touches_State.setDma _ _ _)); · decide)
    | split)

theorem touches_State.dmaKill (s : State) (c stop : Nat) :
    Touches (mEvent ||| mCtxs ||| mBillets ||| mPorts ||| mDma) s (State.dmaKill s c stop) := by
  unfold State.dmaKill
  (try dsimp only)
  repeat' (first
    | with_reducible exact Touches.refl _ _
    | ((with_reducible apply Touches.stepBy 0x2 (touches_State.addMod_hi _ _ _ _ ?hi)); (case hi => first | decide | (simp only [rDMA_STATUS]; omega) | (split <;> decide) | (split <;> simp only [rDMA_STATUS] <;> omega)); (· decide))
    | ((with_reducible apply Touches.stepBy 0x2 (touches_State.setFld_hi _ _ _ _ ?hi)); (case hi => first | decide | (simp only [rDMA_STATUS]; omega) | (split <;> decide) | (split <;> simp only [rDMA_STATUS] <;> omega)); (· decide))
    | ((with_reducible apply Touches.stepBy 0x400000003e842 (touches_State.dmaEnd _ _ _ _ _ _)); · decide)
    | ((with_reducible apply Touches.stepBy 0x6842 (touches_State.dmaEvent _ _ _ _)); · decide)
    | ((with_reducible apply Touches.stepBy 0x2 (touches_State.setDmaState _ _ _)); · decide)
    | ((with_reducible apply Touches.stepBy 0x4000000000000 (touches_State.setDma _ _ _)); · decide)
    | split
    | with_reducible refine Touches.ofSnd (by assumption) ?_
    | with_reducible refine Touches.ofFst (by assumption) ?_)

theorem touches_State.dmaHaltAll (s : State) :
    Touches (mEvent ||| mCtxs ||| mBillets ||| mPorts ||| mDma) s (State.dmaHaltAll s) := by
  unfold State.dmaHaltAll
  (try dsimp only)
  repeat' (first
    | with_reducible exact Touches.refl _ _
    | ((with_reducible apply Touches.stepBy 0x400000003e842 (touches_State.dmaKill _ _ _)); · decide)
    | ((with_reducible refine Touches.foldl ?_ ?_))
    | ((intro t b); try dsimp only))

theorem touches_State.dmaFetch (s : State) (c : Nat) (desc list : HostRead) :
    Touches (mEvent ||| mCtxs ||| mBillets ||| mPorts ||| mDma) s (State.dmaFetch s c desc list) := by
  unfold State.dmaFetch
  (try dsimp only)
  repeat' (first
    | with_reducible exact Touches.refl _ _
    | ((with_reducible apply Touches.stepBy 0x2 (touches_State.addMod_hi _ _ _ _ ?hi)); (case hi => first | decide | (simp only [rDMA_HEAD, rDMA_LIMIT]; omega) | (split <;> decide) | (split <;> simp only [rDMA_HEAD, rDMA_LIMIT] <;> omega)); (· decide))
    | ((with_reducible apply Touches.stepBy 0x4000000006842 (touches_State.dmaNoRead _ _ _ _ _)); · decide)
    | ((with_reducible apply Touches.stepBy 0x400000003e842 (touches_State.dmaEnd _ _ _ _ _ _)); · decide)
    | ((with_reducible apply Touches.stepBy 0x6842 (touches_State.hostFail _ _)); · decide)
    | ((with_reducible apply Touches.stepBy 0x4000000000000 (touches_State.setDma _ _ _)); · decide)
    | split
    | with_reducible refine Touches.ofSnd (by assumption) ?_
    | with_reducible refine Touches.ofFst (by assumption) ?_)

theorem touches_State.preempt (s : State) (c : Nat) :
    Touches mRegs s (State.preempt s c) := by
  unfold State.preempt
  (try dsimp only)
  repeat' (first
    | with_reducible exact Touches.refl _ _
    | ((with_reducible apply Touches.stepBy 0x2 (touches_State.addMod_hi _ _ _ _ ?hi)); (case hi => first | decide | (simp only [rDMA_GSTAT]; omega) | (split <;> decide) | (split <;> simp only [rDMA_GSTAT] <;> omega)); (· decide))
    | split
    | with_reducible refine Touches.ofSnd (by assumption) ?_
    | with_reducible refine Touches.ofFst (by assumption) ?_)

theorem touches_putSegs (s : State) (x0 : List (Nat × Nat)) (x1 : Nat) (x2 : List Byte) :
    Touches mHostMem s (putSegs s x0 x1 x2) := by
  induction x0 generalizing s x1 x2 with
  | nil => exact Touches.refl _ _
  | cons e l ih =>
    unfold putSegs
    split
    · exact (touches_State.hostWrite s _ _).trans (ih _ _ _)
    · exact ih _ _ _

theorem touches_State.takeLoop (x0 : Nat) (s : State) (x2 : Nat) :
    Touches (mRegs ||| mHostMem ||| mCtxs ||| mBillets ||| mDma) s (State.takeLoop x0 s x2) := by
  induction x0 generalizing s x2 with
  | zero => unfold State.takeLoop; exact Touches.refl _ _
  | succ x0 ih =>
    unfold State.takeLoop
    (try dsimp only)
    repeat' (first
      | with_reducible exact Touches.refl _ _
      | ((with_reducible apply Touches.stepBy 0x4000000018802 (ih _ _)); · decide)
      | ((with_reducible apply Touches.stepBy 0x18002 (touches_State.finishTo _ _ _ _)); · decide)
      | ((with_reducible apply Touches.stepBy 0x8000 (touches_State.deliveredTo _ _ _ _)); · decide)
      | ((with_reducible apply Touches.stepBy 0x8000 (touches_State.beginRec _ _ _ _)); · decide)
      | ((with_reducible apply Touches.stepBy 0x800 (touches_putSegs _ _ _ _)); · decide)
      | ((with_reducible apply Touches.stepBy 0x2 (touches_State.setDmaState _ _ _)); · decide)
      | ((with_reducible apply Touches.stepBy 0x4000000000000 (touches_State.updDma _ _ _)); · decide)
      | split
      | with_reducible refine Touches.ofSnd (by assumption) ?_
      | with_reducible refine Touches.ofFst (by assumption) ?_
      | split)

theorem touches_State.takeRun (s : State) (c : Nat) :
    Touches (mRegs ||| mHostMem ||| mCtxs ||| mBillets ||| mDma) s (State.takeRun s c) := by
  unfold State.takeRun
  (try dsimp only)
  repeat' (first
    | with_reducible exact Touches.refl _ _
    | ((with_reducible apply Touches.stepBy 0x4000000018802 (touches_State.takeLoop  _ _ _)); · decide))

theorem touches_State.ctxTake (s : State) (c : Nat) :
    Touches (mRegs ||| mHostMem ||| mCtxs ||| mBillets ||| mDma) s (State.ctxTake s c) := by
  unfold State.ctxTake
  (try dsimp only)
  repeat' (first
    | with_reducible exact Touches.refl _ _
    | ((with_reducible apply Touches.stepBy 0x4000000018802 (touches_State.takeRun _ _)); · decide)
    | ((with_reducible apply Touches.stepBy 0x2 (touches_State.preempt _ _)); · decide)
    | split)

theorem touches_State.recordAvailable (s : State) (c : Nat) :
    Touches (mRegs ||| mHostMem ||| mCtxs ||| mBillets ||| mDma) s (State.recordAvailable s c) := by
  unfold State.recordAvailable
  (try dsimp only)
  repeat' (first
    | with_reducible exact Touches.refl _ _
    | ((with_reducible apply Touches.stepBy 0x4000000018802 (touches_State.takeRun _ _)); · decide)
    | split)

theorem touches_State.dmaIdle (s : State) (c : Nat) :
    Touches mDma s (State.dmaIdle s c) := by
  unfold State.dmaIdle
  (try dsimp only)
  repeat' (first
    | with_reducible exact Touches.refl _ _
    | ((with_reducible apply Touches.stepBy 0x4000000000000 (touches_State.updDma _ _ _)); · decide)
    | split)

theorem touches_State.giveLoop (x0 : Nat) (s : State) (x2 : Nat) :
    Touches (mEvent ||| mFreeCtr ||| mStore ||| mCtxs ||| mBillets ||| mPorts ||| mBadLines ||| mDma) s (State.giveLoop x0 s x2) := by
  induction x0 generalizing s x2 with
  | zero => unfold State.giveLoop; exact Touches.refl _ _
  | succ x0 ih =>
    unfold State.giveLoop
    (try dsimp only)
    repeat' (first
      | with_reducible exact Touches.refl _ _
      | ((with_reducible apply Touches.stepBy 0x400000013ee42 (ih _ _)); · decide)
      | ((with_reducible apply Touches.stepBy 0x13ee42 (touches_State.portTake _ _ _)); · decide)
      | ((with_reducible apply Touches.stepBy 0x4000000000000 (touches_State.updDma _ _ _)); · decide)
      | split
      | with_reducible refine Touches.ofSnd (by assumption) ?_
      | with_reducible refine Touches.ofFst (by assumption) ?_
      | split)

theorem touches_State.ctxGive (s : State) (c : Nat) (data : HostRead) :
    Touches (mEvent ||| mFreeCtr ||| mStore ||| mCtxs ||| mBillets ||| mPorts ||| mBadLines ||| mDma) s (State.ctxGive s c data) := by
  unfold State.ctxGive
  (try dsimp only)
  repeat' (first
    | with_reducible exact Touches.refl _ _
    | ((with_reducible apply Touches.stepBy 0x20000 (touches_State.onPorts _ _)); · decide)
    | ((with_reducible apply Touches.stepBy 0x400000013ee42 (touches_State.giveLoop  _ _ _)); · decide)
    | ((with_reducible apply Touches.stepBy 0x2 (touches_State.preempt _ _)); · decide)
    | ((with_reducible apply Touches.stepBy 0x6842 (touches_State.hostFail _ _)); · decide)
    | ((with_reducible apply Touches.stepBy 0x4000000000000 (touches_State.updDma _ _ _)); · decide)
    | split
    | with_reducible refine Touches.ofSnd (by assumption) ?_
    | with_reducible refine Touches.ofFst (by assumption) ?_)

theorem touches_State.swTakeAll (s : State) (bs : List Nat) :
    Touches (mEvent ||| mBillets) s (State.swTakeAll s bs).2 := by
  unfold State.swTakeAll
  (try dsimp only)
  repeat' (first
    | with_reducible exact Touches.refl _ _
    | ((with_reducible apply Touches.stepBy 0x16842 (touches_State.swTake _ _ _)); · decide)
    | ((with_reducible refine Touches.foldl ?_ ?_))
    | ((with_reducible refine Touches.foldlSnd ?_ ?_))
    | ((with_reducible refine Touches.foldlFst ?_ ?_))
    | ((intro t b); try dsimp only)
    | split)

theorem touches_State.storeRead (s : State) (c : Nat) :
    Touches (mEvent ||| mCtxs ||| mBillets ||| mPorts ||| mDma) s (State.storeRead s c) := by
  unfold State.storeRead
  (try dsimp only)
  repeat' (first
    | with_reducible exact Touches.refl _ _
    | ((with_reducible apply Touches.stepBy 0x16842 (touches_State.swTakeAll _ _)); · decide)
    | ((with_reducible apply Touches.stepBy 0x800 (touches_putSegs _ _ _ _)); · decide)
    | ((with_reducible apply Touches.stepBy 0x2 (touches_State.preempt _ _)); · decide)
    | ((with_reducible apply Touches.stepBy 0x400000003e842 (touches_State.dmaEnd _ _ _ _ _ _)); · decide)
    | ((with_reducible apply Touches.stepBy 0x4000000000000 (touches_State.updDma _ _ _)); · decide)
    | split
    | with_reducible refine Touches.ofSnd (by assumption) ?_
    | with_reducible refine Touches.ofFst (by assumption) ?_)

theorem touches_State.dmaNop (s : State) (c : Nat) :
    Touches (mEvent ||| mCtxs ||| mBillets ||| mPorts ||| mDma) s (State.dmaNop s c) := by
  unfold State.dmaNop
  (try dsimp only)
  repeat' (first
    | with_reducible exact Touches.refl _ _
    | ((with_reducible apply Touches.stepBy 0x400000003e842 (touches_State.dmaEnd _ _ _ _ _ _)); · decide)
    | split)

theorem touches_State.refTake (s : State) (c : Nat) :
    Touches (mEvent ||| mCtxs ||| mBillets ||| mPorts ||| mDma) s (State.refTake s c) := by
  unfold State.refTake
  (try dsimp only)
  repeat' (first
    | with_reducible exact Touches.refl _ _
    | ((with_reducible apply Touches.stepBy 0x16842 (touches_State.swTake _ _ _)); · decide)
    | ((with_reducible apply Touches.stepBy 0x400000003e842 (touches_State.dmaEnd _ _ _ _ _ _)); · decide)
    | split)

theorem touches_State.refGive (s : State) (c : Nat) :
    Touches (mEvent ||| mCtxs ||| mBillets ||| mPorts ||| mDma) s (State.refGive s c) := by
  unfold State.refGive
  (try dsimp only)
  repeat' (first
    | with_reducible exact Touches.refl _ _
    | ((with_reducible apply Touches.stepBy 0x1e842 (touches_State.swFree _ _)); · decide)
    | ((with_reducible apply Touches.stepBy 0x400000003e842 (touches_State.dmaEnd _ _ _ _ _ _)); · decide)
    | split)

theorem touches_State.dmaCommit (s : State) (c : Nat) :
    Touches (mEvent ||| mFreeCtr ||| mStore ||| mCtxs ||| mBillets ||| mPorts ||| mBadLines ||| mDma) s (State.dmaCommit s c) := by
  unfold State.dmaCommit
  (try dsimp only)
  repeat' (first
    | with_reducible exact Touches.refl _ _
    | ((with_reducible apply Touches.stepBy 0x400000013ee42 (touches_State.giveLoop  _ _ _)); · decide)
    | ((with_reducible apply Touches.stepBy 0x400000003e842 (touches_State.dmaEnd _ _ _ _ _ _)); · decide)
    | ((with_reducible apply Touches.stepBy 0x4000000000000 (touches_State.updDma _ _ _)); · decide)
    | split
    | with_reducible refine Touches.ofSnd (by assumption) ?_
    | with_reducible refine Touches.ofFst (by assumption) ?_)

theorem touches_State.dmaReqFail (s : State) (c : Nat) (timeout : Bool) :
    Touches (mEvent ||| mCtxs ||| mBillets ||| mPorts ||| mDma) s (State.dmaReqFail s c timeout) := by
  unfold State.dmaReqFail
  (try dsimp only)
  repeat' (first
    | with_reducible exact Touches.refl _ _
    | ((with_reducible apply Touches.stepBy 0x4000000006842 (touches_State.dmaNoRead _ _ _ _ _)); · decide)
    | ((with_reducible apply Touches.stepBy 0x400000003e842 (touches_State.dmaEnd _ _ _ _ _ _)); · decide)
    | split
    | with_reducible refine Touches.ofSnd (by assumption) ?_
    | with_reducible refine Touches.ofFst (by assumption) ?_)

theorem touches_State.dmaStart (s : State) (c : Nat) :
    Touches (mEvent ||| mDma) s (State.dmaStart s c) := by
  unfold State.dmaStart
  (try dsimp only)
  repeat' (first
    | with_reducible exact Touches.refl _ _
    | ((with_reducible apply Touches.stepBy 0x6842 (touches_State.srExit _)); · decide)
    | ((with_reducible apply Touches.stepBy 0x2 (touches_State.addSat_hi _ _ _ _ ?hi)); (case hi => first | decide | (simp only [rDMA_HEAD, rDMA_LIMIT, rDMA_STATUS]; omega) | (split <;> decide) | (split <;> simp only [rDMA_HEAD, rDMA_LIMIT, rDMA_STATUS] <;> omega)); (· decide))
    | ((with_reducible apply Touches.stepBy 0x2 (touches_State.setFld_hi _ _ _ _ ?hi)); (case hi => first | decide | (simp only [rDMA_HEAD, rDMA_LIMIT, rDMA_STATUS]; omega) | (split <;> decide) | (split <;> simp only [rDMA_HEAD, rDMA_LIMIT, rDMA_STATUS] <;> omega)); (· decide))
    | ((with_reducible apply Touches.stepBy 0x2 (touches_State.setDmaState _ _ _)); · decide)
    | ((with_reducible apply Touches.stepBy 0x4000000000000 (touches_State.setDma _ _ _)); · decide)
    | split)

theorem touches_State.wrDmaCtrl (c : Nat) (v : Word) (s : State) :
    Touches (mEvent ||| mCtxs ||| mBillets ||| mPorts ||| mDma) s (State.wrDmaCtrl c v s) := by
  unfold State.wrDmaCtrl
  (try dsimp only)
  repeat' (first
    | with_reducible exact Touches.refl _ _
    | ((with_reducible apply Touches.stepBy 0x4000000006842 (touches_State.dmaStart _ _)); · decide)
    | ((with_reducible apply Touches.stepBy 0x400000003e842 (touches_State.dmaKill _ _ _)); · decide)
    | split)

theorem touches_State.wrDmaCfg (c : Nat) (v : Word) (s : State) :
    Touches mRegs s (State.wrDmaCfg c v s) := by
  unfold State.wrDmaCfg
  (try dsimp only)
  repeat' (first
    | with_reducible exact Touches.refl _ _
    | ((with_reducible apply Touches.stepBy 0x2 (touches_State.wrCodes_hi _ _ _ _ ?hi)); (case hi => first | decide | (simp only [rDMA_CFG, rDMA_STATUS]; omega) | (split <;> decide) | (split <;> simp only [rDMA_CFG, rDMA_STATUS] <;> omega)); (· decide))
    | ((with_reducible apply Touches.stepBy 0x2 (touches_State.addSat_hi _ _ _ _ ?hi)); (case hi => first | decide | (simp only [rDMA_CFG, rDMA_STATUS]; omega) | (split <;> decide) | (split <;> simp only [rDMA_CFG, rDMA_STATUS] <;> omega)); (· decide))
    | split)

theorem touches_State.wrDmaLimit (c : Nat) (v : Word) (s : State) :
    Touches mRegs s (State.wrDmaLimit c v s) := by
  unfold State.wrDmaLimit
  (try dsimp only)
  repeat' (first
    | with_reducible exact Touches.refl _ _
    | ((with_reducible apply Touches.stepBy 0x2 (touches_State.wrCodes_hi _ _ _ _ ?hi)); (case hi => first | decide | (simp only [rDMA_LIMIT]; omega) | (split <;> decide) | (split <;> simp only [rDMA_LIMIT] <;> omega)); (· decide))
    | split)

/-! ### Machine/Tdc.lean -/

theorem touches_State.updTdc (s : State) (c : Nat) (f : TdcCh → TdcCh) :
    Touches mTdc s (State.updTdc s c f) := by
  constructor <;> first | exact fun h => absurd h (by decide) | exact fun _ => rfl | exact fun _ a _ => State.rd_congr (by rfl) a | exact fun h => h.of_eq rfl rfl rfl rfl rfl | exact FusesOnlyBurn.of_eq rfl rfl rfl rfl rfl

theorem touches_State.tdcLose (s : State) (c : Nat) :
    Touches (mEvent ||| mTdc) s (State.tdcLose s c) := by
  unfold State.tdcLose
  (try dsimp only)
  repeat' (first
    | with_reducible exact Touches.refl _ _
    | ((with_reducible apply Touches.stepBy 0x1000000 (touches_State.updTdc _ _ _)); · decide)
    | ((with_reducible apply Touches.stepBy 0x6842 (touches_State.raiseLim _ _ _ _ _ _ _)); · decide)
    | ((with_reducible apply Touches.stepBy 0x2 (touches_State.addSat_hi _ _ _ _ ?hi)); (case hi => first | decide | (simp only [rTDC_CH_STAT]; omega) | (split <;> decide) | (split <;> simp only [rTDC_CH_STAT] <;> omega)); (· decide)))

theorem touches_State.tdcClose (s : State) (c : Nat) :
    Touches (mEvent ||| mCtxs ||| mPorts ||| mTdc) s (State.tdcClose s c) := by
  unfold State.tdcClose
  (try dsimp only)
  repeat' (first
    | with_reducible exact Touches.refl _ _
    | ((with_reducible apply Touches.stepBy 0x1000000 (touches_State.updTdc _ _ _)); · decide)
    | ((with_reducible apply Touches.stepBy 0x2e842 (touches_State.emitRec _ _ _)); · decide)
    | split
    | with_reducible refine Touches.ofSnd (by assumption) ?_
    | with_reducible refine Touches.ofFst (by assumption) ?_)

theorem touches_State.tdcDrain (x0 : Nat) (s : State) (x2 : Nat) :
    Touches (mEvent ||| mCtxs ||| mPorts ||| mTdc) s (State.tdcDrain x0 s x2) := by
  induction x0 generalizing s x2 with
  | zero => unfold State.tdcDrain; exact Touches.refl _ _
  | succ x0 ih =>
    unfold State.tdcDrain
    (try dsimp only)
    repeat' (first
      | with_reducible exact Touches.refl _ _
      | ((with_reducible apply Touches.stepBy 0x102e842 (ih _ _)); · decide)
      | ((with_reducible apply Touches.stepBy 0x102e842 (touches_State.tdcClose _ _)); · decide)
      | ((with_reducible apply Touches.stepBy 0x1000000 (touches_State.updTdc _ _ _)); · decide)
      | split
      | with_reducible refine Touches.ofSnd (by assumption) ?_
      | with_reducible refine Touches.ofFst (by assumption) ?_
      | split)

theorem touches_State.tdcBeat (s : State) :
    Touches (mEvent ||| mCtxs ||| mPorts ||| mTdc) s (State.tdcBeat s) := by
  unfold State.tdcBeat
  (try dsimp only)
  repeat' (first
    | with_reducible exact Touches.refl _ _
    | ((with_reducible apply Touches.stepBy 0x102e842 (touches_State.tdcDrain  _ _ _)); · decide)
    | split
    | with_reducible refine Touches.ofSnd (by assumption) ?_
    | with_reducible refine Touches.ofFst (by assumption) ?_)

theorem touches_State.tdcFlush (s : State) (c : Nat) :
    Touches (mEvent ||| mTime ||| mCtxs ||| mPorts ||| mTdc) s (State.tdcFlush s c) := by
  unfold State.tdcFlush
  (try dsimp only)
  repeat' (first
    | with_reducible exact Touches.refl _ _
    | ((with_reducible apply Touches.stepBy 0x102e842 (touches_State.tdcDrain  _ _ _)); · decide)
    | ((with_reducible apply Touches.stepBy 0x102e842 (touches_State.tdcClose _ _)); · decide)
    | ((with_reducible apply Touches.stepBy 0x80 (touches_State.reach _ _)); · decide)
    | split)

theorem touches_State.tdcEnqueue (s : State) (c : Nat) (w : Word) :
    Touches (mEvent ||| mCtxs ||| mTdc) s (State.tdcEnqueue s c w) := by
  unfold State.tdcEnqueue
  (try dsimp only)
  repeat' (first
    | with_reducible exact Touches.refl _ _
    | ((with_reducible apply Touches.stepBy 0x1000000 (touches_State.updTdc _ _ _)); · decide)
    | ((with_reducible apply Touches.stepBy 0x8000 (touches_State.loseItems _ _ _)); · decide)
    | ((with_reducible apply Touches.stepBy 0x6842 (touches_State.raiseLim _ _ _ _ _ _ _)); · decide)
    | ((with_reducible apply Touches.stepBy 0x2 (touches_State.addSat_hi _ _ _ _ ?hi)); (case hi => first | decide | (simp only [rTDC_CH_STAT]; omega) | (split <;> decide) | (split <;> simp only [rTDC_CH_STAT] <;> omega)); (· decide))
    | split
    | with_reducible refine Touches.ofSnd (by assumption) ?_
    | with_reducible refine Touches.ofFst (by assumption) ?_)

theorem touches_State.freqTake (s : State) (c t : Nat) (loss : Bool) :
    Touches mTdc s (State.freqTake s c t loss) := by
  unfold State.freqTake
  (try dsimp only)
  repeat' (first
    | with_reducible exact Touches.refl _ _
    | ((with_reducible apply Touches.stepBy 0x1000000 (touches_State.onTdc _ _)); · decide)
    | split
    | with_reducible refine Touches.ofSnd (by assumption) ?_
    | with_reducible refine Touches.ofFst (by assumption) ?_)

theorem touches_State.tdcEdge (s0 : State) (c t : Nat) (rising : Bool) :
    Touches (mEvent ||| mTime ||| mFrac ||| mFreeCtr ||| mCtxs ||| mTbs ||| mTdc ||| mCnv ||| mPg ||| mAu) s0 (State.tdcEdge s0 c t rising).1 := by
  unfold State.tdcEdge
  (try dsimp only)
  repeat' (first
    | with_reducible exact Touches.refl _ _
    | ((with_reducible apply Touches.stepBy 0x1000000 (touches_State.freqTake _ _ _ _)); · decide)
    | ((with_reducible apply Touches.stepBy 0x100e842 (touches_State.tdcEnqueue _ _ _)); · decide)
    | ((with_reducible apply Touches.stepBy 0x1006842 (touches_State.tdcLose _ _)); · decide)
    | ((with_reducible apply Touches.stepBy 0x1000000 (touches_State.updTdc _ _ _)); · decide)
    | ((with_reducible apply Touches.stepBy 0x10007806bc2 (touches_State.ppsUpdate _ _ _)); · decide)
    | ((with_reducible apply Touches.stepBy 0x80 (touches_State.reach _ _)); · decide)
    | ((with_reducible apply Touches.stepBy 0x2 (touches_State.addMod_hi _ _ _ _ ?hi)); (case hi => first | decide | (simp only [rTDC_CH, rTDC_CH_COUNT]; omega) | (split <;> decide) | (split <;> simp only [rTDC_CH, rTDC_CH_COUNT] <;> omega)); (· decide))
    | split
    | with_reducible refine Touches.ofSnd (by assumption) ?_
    | with_reducible refine Touches.ofFst (by assumption) ?_)

theorem touches_State.freqCapture (s : State) :
    Touches (mEvent ||| mFreeCtr) s (State.freqCapture s) := by
  unfold State.freqCapture
  (try dsimp only)
  repeat' (first
    | with_reducible exact Touches.refl _ _
    | ((with_reducible apply Touches.stepBy 0x6842 (touches_State.raise _ _ _ _ _)); · decide)
    | ((with_reducible apply Touches.stepBy 0x200 (touches_State.fresh _)); · decide)
    | ((with_reducible apply Touches.stepBy 0x2 (touches_State.addMod_hi _ _ _ _ ?hi)); (case hi => first | decide | (simp only [rTDC_FREQ_CFG, rTDC_FREQ_RES0, rTDC_FREQ_RES1, rTDC_FREQ_RES2, rTDC_FREQ_RES3, rTDC_FREQ_SNAP]; omega) | (split <;> decide) | (split <;> simp only [rTDC_FREQ_CFG, rTDC_FREQ_RES0, rTDC_FREQ_RES1, rTDC_FREQ_RES2, rTDC_FREQ_RES3, rTDC_FREQ_SNAP] <;> omega)); (· decide))
    | ((with_reducible apply Touches.stepBy 0x2 (touches_State.setFlds_hi _ _ _ ?hi)); (case hi => first | decide | (simp only [rTDC_FREQ_CFG, rTDC_FREQ_RES0, rTDC_FREQ_RES1, rTDC_FREQ_RES2, rTDC_FREQ_RES3, rTDC_FREQ_SNAP]; omega) | (split <;> decide) | (split <;> simp only [rTDC_FREQ_CFG, rTDC_FREQ_RES0, rTDC_FREQ_RES1, rTDC_FREQ_RES2, rTDC_FREQ_RES3, rTDC_FREQ_SNAP] <;> omega)); (· decide))
    | ((with_reducible apply Touches.stepBy 0x2 (touches_State.setFld_hi _ _ _ _ ?hi)); (case hi => first | decide | (simp only [rTDC_FREQ_CFG, rTDC_FREQ_RES0, rTDC_FREQ_RES1, rTDC_FREQ_RES2, rTDC_FREQ_RES3, rTDC_FREQ_SNAP]; omega) | (split <;> decide) | (split <;> simp only [rTDC_FREQ_CFG, rTDC_FREQ_RES0, rTDC_FREQ_RES1, rTDC_FREQ_RES2, rTDC_FREQ_RES3, rTDC_FREQ_SNAP] <;> omega)); (· decide))
    | ((with_reducible apply Touches.stepBy 0x2 (touches_State.wr_hi _ _ _ ?hi)); (case hi => first | decide | (simp only [rTDC_FREQ_CFG, rTDC_FREQ_RES0, rTDC_FREQ_RES1, rTDC_FREQ_RES2, rTDC_FREQ_RES3, rTDC_FREQ_SNAP]; omega) | (split <;> decide) | (split <;> simp only [rTDC_FREQ_CFG, rTDC_FREQ_RES0, rTDC_FREQ_RES1, rTDC_FREQ_RES2, rTDC_FREQ_RES3, rTDC_FREQ_SNAP] <;> omega)); (· decide))
    | split
    | with_reducible refine Touches.ofSnd (by assumption) ?_
    | with_reducible refine Touches.ofFst (by assumption) ?_)

theorem touches_State.freqRecord (s : State) (t : Nat) :
    Touches (mEvent ||| mCtxs ||| mPorts) s (State.freqRecord s t) := by
  unfold State.freqRecord
  (try dsimp only)
  repeat' (first
    | with_reducible exact Touches.refl _ _
    | ((with_reducible apply Touches.stepBy 0x8000 (touches_State.loseItems _ _ _)); · decide)
    | ((with_reducible apply Touches.stepBy 0x2e842 (touches_State.emitRec _ _ _)); · decide)
    | split
    | with_reducible refine Touches.ofSnd (by assumption) ?_
    | with_reducible refine Touches.ofFst (by assumption) ?_)

theorem touches_State.freqGateEnd (s : State) :
    Touches (mEvent ||| mTime ||| mFreeCtr ||| mCtxs ||| mPorts ||| mTdc) s (State.freqGateEnd s) := by
  unfold State.freqGateEnd
  (try dsimp only)
  repeat' (first
    | with_reducible exact Touches.refl _ _
    | ((with_reducible apply Touches.stepBy 0x2e842 (touches_State.freqRecord _ _)); · decide)
    | ((with_reducible apply Touches.stepBy 0x6a42 (touches_State.freqCapture _)); · decide)
    | ((with_reducible apply Touches.stepBy 0x80 (touches_State.reach _ _)); · decide)
    | ((with_reducible apply Touches.stepBy 0x2 (touches_State.setFld_hi _ _ _ _ ?hi)); (case hi => first | decide | (simp only [rTDC_FREQ_CFG]; omega) | (split <;> decide) | (split <;> simp only [rTDC_FREQ_CFG] <;> omega)); (· decide))
    | ((with_reducible apply Touches.stepBy 0x1000000 (touches_State.onTdc _ _)); · decide)
    | split
    | with_reducible refine Touches.ofSnd (by assumption) ?_
    | with_reducible refine Touches.ofFst (by assumption) ?_)

theorem touches_State.wrFreqCfg (v : Word) (s : State) :
    Touches (mRegs ||| mTdc) s (State.wrFreqCfg v s) := by
  unfold State.wrFreqCfg
  (try dsimp only)
  repeat' (first
    | with_reducible exact Touches.refl _ _
    | ((with_reducible apply Touches.stepBy 0x2 (touches_State.wrCodes_hi _ _ _ _ ?hi)); (case hi => first | decide | (simp only [rTDC_FREQ_CFG, rTDC_FREQ_START]; omega) | (split <;> decide) | (split <;> simp only [rTDC_FREQ_CFG, rTDC_FREQ_START] <;> omega)); (· decide))
    | ((with_reducible apply Touches.stepBy 0x1000000 (touches_State.onTdc _ _)); · decide)
    | split)

theorem touches_State.freqSnap (s : State) :
    Touches mRegs s (State.freqSnap s) := by
  unfold State.freqSnap
  (try dsimp only)
  repeat' (first
    | with_reducible exact Touches.refl _ _
    | ((with_reducible apply Touches.stepBy 0x2 (touches_State.addMod_hi _ _ _ _ ?hi)); (case hi => first | decide | (simp only [rTDC_FREQ_SNAP]; omega) | (split <;> decide) | (split <;> simp only [rTDC_FREQ_SNAP] <;> omega)); (· decide)))

theorem touches_State.wrTdcCtrl (v : Word) (s : State) :
    Touches mRegs s (State.wrTdcCtrl v s) := by
  unfold State.wrTdcCtrl
  (try dsimp only)
  repeat' (first
    | with_reducible exact Touches.refl _ _
    | ((with_reducible apply Touches.stepBy 0x2 (touches_State.setFld_hi _ _ _ _ ?hi)); (case hi => first | decide | (simp only [rTDC_CTRL]; omega) | (split <;> decide) | (split <;> simp only [rTDC_CTRL] <;> omega)); (· decide))
    | split)

/-! ### Machine/Partial.lean -/

theorem touches_State.unitDiscard (s : State) (sq : Nat) :
    Touches (mEvent ||| mFreeCtr ||| mStore ||| mCtxs ||| mBillets ||| mPorts ||| mAside ||| mBadLines ||| mDdc ||| mXfm ||| mDet ||| mDen ||| mAu ||| mCmp) s (State.unitDiscard s sq) := by
  unfold State.unitDiscard
  (try dsimp only)
  repeat' (first
    | with_reducible exact Touches.refl _ _
    | ((with_reducible apply Touches.stepBy 0x20000000 (touches_State.updXfm _ _ _)); · decide)
    | ((with_reducible apply Touches.stepBy 0x8000 (touches_State.loseDirect _ _ _)); · decide)
    | ((with_reducible apply Touches.stepBy 0x200008000 (touches_State.denDiscard _ _)); · decide)
    | ((with_reducible apply Touches.stepBy 0x100008000 (touches_State.detDiscard _ _)); · decide)
    | ((with_reducible apply Touches.stepBy 0x10000000 (touches_State.updDdc _ _ _)); · decide)
    | ((with_reducible apply Touches.stepBy 0x20000000000000 (touches_State.updCmp _ _ _)); · decide)
    | ((with_reducible apply Touches.stepBy 0x1000017ee42 (touches_State.auAnchor _ _)); · decide)
    | split)

theorem touches_State.streamDrop (s : State) (x : Nat) :
    Touches (mCtxs ||| mStreams) s (State.streamDrop s x) := by
  unfold State.streamDrop
  (try dsimp only)
  repeat' (first
    | with_reducible exact Touches.refl _ _
    | ((with_reducible apply Touches.stepBy 0x8000 (touches_State.loseItems _ _ _)); · decide)
    | ((with_reducible apply Touches.stepBy 0x40000000 (touches_State.onStreams _ _)); · decide)
    | split)

theorem touches_State.stampsDrop (s : State) (x : Nat) :
    Touches (mCtxs ||| mTdc) s (State.stampsDrop s x) := by
  unfold State.stampsDrop
  (try dsimp only)
  repeat' (first
    | with_reducible exact Touches.refl _ _
    | ((with_reducible apply Touches.stepBy 0x1000000 (touches_State.updTdc _ _ _)); · decide)
    | ((with_reducible apply Touches.stepBy 0x8000 (touches_State.loseItems _ _ _)); · decide)
    | ((with_reducible refine Touches.foldl ?_ ?_))
    | ((intro t b); try dsimp only)
    | split)

theorem touches_State.discardPath (s : State) (x : Nat) :
    Touches (mEvent ||| mFreeCtr ||| mStore ||| mCtxs ||| mBillets ||| mPorts ||| mAside ||| mBadLines ||| mTdc ||| mDdc ||| mXfm ||| mStreams ||| mDet ||| mDen ||| mAu ||| mCmp) s (State.discardPath s x) := by
  unfold State.discardPath
  (try dsimp only)
  repeat' (first
    | with_reducible exact Touches.refl _ _
    | ((with_reducible apply Touches.stepBy 0x1008000 (touches_State.stampsDrop _ _)); · decide)
    | ((with_reducible apply Touches.stepBy 0x40008000 (touches_State.streamDrop _ _)); · decide)
    | ((with_reducible apply Touches.stepBy 0x2001033017ee42 (touches_State.unitDiscard _ _)); · decide)
    | ((with_reducible refine Touches.foldl ?_ ?_))
    | ((intro t b); try dsimp only))

theorem touches_State.recoverPath (s : State) (x code source detail more : Nat) (ev : Option EvReq) :
    Touches (mEvent ||| mFreeCtr ||| mStore ||| mCtxs ||| mBillets ||| mPorts ||| mAside ||| mBadLines ||| mTdc ||| mDdc ||| mXfm ||| mStreams ||| mDet ||| mDen ||| mAu ||| mCmp) s (State.recoverPath s x code source detail more ev) := by
  unfold State.recoverPath
  (try dsimp only)
  repeat' (first
    | with_reducible exact Touches.refl _ _
    | ((with_reducible apply Touches.stepBy 0x11ee42 (touches_State.recover _ _ _ _ _ _ _)); · decide)
    | ((with_reducible apply Touches.stepBy 0x2001037117ee42 (touches_State.discardPath _ _)); · decide)
    | split)

theorem touches_State.faultsEvent (s : State) (xs : List Nat) (e : EvReq) :
    Touches (mEvent ||| mCtxs) s (State.faultsEvent s xs e) := by
  unfold State.faultsEvent
  (try dsimp only)
  repeat' (first
    | with_reducible exact Touches.refl _ _
    | ((with_reducible apply Touches.stepBy 0x6842 (touches_State.raiseReq _ _ _)); · decide)
    | ((with_reducible apply Touches.stepBy 0x8000 (touches_State.updCtx _ _ _)); · decide)
    | ((with_reducible refine Touches.foldl ?_ ?_))
    | ((intro t b); try dsimp only)
    | split)

theorem touches_State.unitOrigin (cause : Nat) (s : State) (sq : Nat) :
    Touches (mEvent ||| mFreeCtr ||| mStore ||| mCtxs ||| mBillets ||| mPorts ||| mAside ||| mBadLines ||| mDdc ||| mXfm ||| mDet ||| mDen ||| mAu ||| mCmp) s (State.unitOrigin cause s sq) := by
  unfold State.unitOrigin
  (try dsimp only)
  repeat' (first
    | with_reducible exact Touches.refl _ _
    | ((with_reducible apply Touches.stepBy 0x2000e842 (touches_State.xfmAnchor _ _ _)); · decide)
    | ((with_reducible apply Touches.stepBy 0x200000000 (touches_State.denFresh _ _)); · decide)
    | ((with_reducible apply Touches.stepBy 0x100000000 (touches_State.detFresh _ _)); · decide)
    | ((with_reducible apply Touches.stepBy 0x1000e842 (touches_State.ddcOrigin _ _ _)); · decide)
    | ((with_reducible apply Touches.stepBy 0x2000000002ea42 (touches_State.cmpFlush _ _)); · decide)
    | ((with_reducible apply Touches.stepBy 0x1000017ee42 (touches_State.auAnchor _ _)); · decide)
    | split)

theorem touches_State.deadlineMiss (s : State) (x d : Nat) :
    Touches (mEvent ||| mTime ||| mFreeCtr ||| mStore ||| mCtxs ||| mBillets ||| mPorts ||| mAside ||| mBadLines ||| mTdc ||| mDdc ||| mXfm ||| mStreams ||| mDet ||| mDen ||| mAu ||| mCmp) s (State.deadlineMiss s x d) := by
  unfold State.deadlineMiss
  (try dsimp only)
  repeat' (first
    | with_reducible exact Touches.refl _ _
    | ((with_reducible apply Touches.stepBy 0x18002 (touches_State.finishTo _ _ _ _)); · decide)
    | ((with_reducible apply Touches.stepBy 0x8000 (touches_State.updCtx _ _ _)); · decide)
    | ((with_reducible apply Touches.stepBy 0x2001037117ee42 (touches_State.recoverPath _ _ _ _ _ _ _)); · decide)
    | ((with_reducible apply Touches.stepBy 0x6842 (touches_State.raiseLim _ _ _ _ _ _ _)); · decide)
    | ((with_reducible apply Touches.stepBy 0x80 (touches_State.reach _ _)); · decide)
    | ((with_reducible apply Touches.stepBy 0x2 (touches_State.addSat_hi _ _ _ _ ?hi)); (case hi => first | decide | (simp only [rADM_CTX]; omega) | (split <;> decide) | (split <;> simp only [rADM_CTX] <;> omega)); (· decide))
    | ((with_reducible refine Touches.foldl ?_ ?_))
    | ((intro t b); try dsimp only)
    | split
    | with_reducible refine Touches.ofSnd (by assumption) ?_
    | with_reducible refine Touches.ofFst (by assumption) ?_)

/-! ### Machine/Cal.lean -/

theorem touches_State.calRefuse (s : State) (reason : Nat) :
    Touches mEvent s (State.calRefuse s reason) := by
  unfold State.calRefuse
  (try dsimp only)
  repeat' (first
    | with_reducible exact Touches.refl _ _
    | ((with_reducible apply Touches.stepBy 0x6842 (touches_State.raise _ _ _ _ _)); · decide)
    | ((with_reducible apply Touches.stepBy 0x2 (touches_State.setFlds_hi _ _ _ ?hi)); (case hi => first | decide | (simp only [rCAL_STATUS]; omega) | (split <;> decide) | (split <;> simp only [rCAL_STATUS] <;> omega)); (· decide)))

theorem touches_State.calBegin (s : State) (n typ : Nat) (persist auto : Bool) :
    Touches (mRegs ||| mCal) s (State.calBegin s n typ persist auto) := by
  unfold State.calBegin
  (try dsimp only)
  repeat' (first
    | with_reducible exact Touches.refl _ _
    | ((with_reducible apply Touches.stepBy 0x2 (touches_State.setFlds_hi _ _ _ ?hi)); (case hi => first | decide | (simp only [rCAL_RUN, rCAL_STATUS, rCNV_ATTCAL, rCNV_BG]; omega) | (split <;> decide) | (split <;> simp only [rCAL_RUN, rCAL_STATUS, rCNV_ATTCAL, rCNV_BG] <;> omega)); (· decide))
    | ((with_reducible apply Touches.stepBy 0x2 (touches_State.setFld_hi _ _ _ _ ?hi)); (case hi => first | decide | (simp only [rCAL_RUN, rCAL_STATUS, rCNV_ATTCAL, rCNV_BG]; omega) | (split <;> decide) | (split <;> simp only [rCAL_RUN, rCAL_STATUS, rCNV_ATTCAL, rCNV_BG] <;> omega)); (· decide))
    | ((with_reducible apply Touches.stepBy 0x8000000 (touches_State.onCal _ _)); · decide)
    | ((with_reducible refine Touches.foldl ?_ ?_))
    | ((intro t b); try dsimp only))

theorem touches_State.calGo (s : State) :
    Touches (mEvent ||| mCal) s (State.calGo s) := by
  unfold State.calGo
  (try dsimp only)
  repeat' (first
    | with_reducible exact Touches.refl _ _
    | ((with_reducible apply Touches.stepBy 0x8000002 (touches_State.calBegin _ _ _ _ _)); · decide)
    | ((with_reducible apply Touches.stepBy 0x6842 (touches_State.calRefuse _ _)); · decide)
    | split)

theorem touches_State.calDrive (s : State) (n st : Nat) :
    Touches (mAct ||| mCnv) s (State.calDrive s n st) := by
  unfold State.calDrive
  (try dsimp only)
  repeat' (first
    | with_reducible exact Touches.refl _ _
    | ((with_reducible apply Touches.stepBy 0x4 (touches_State.setAct _ _ _)); · decide)
    | ((with_reducible apply Touches.stepBy 0x2000000 (touches_State.newGeff _ _)); · decide))

theorem touches_State.calRestore (s : State) :
    Touches (mRegs ||| mAct ||| mCtxs ||| mBillets ||| mCnv ||| mCal) s (State.calRestore s) := by
  unfold State.calRestore
  (try dsimp only)
  repeat' (first
    | with_reducible exact Touches.refl _ _
    | ((with_reducible apply Touches.stepBy 0x2 (touches_State.setFlds_hi _ _ _ ?hi)); (case hi => first | decide | (simp only [rCAL_RUN, rCAL_STATUS, rCNV_BG]; omega) | (split <;> decide) | (split <;> simp only [rCAL_RUN, rCAL_STATUS, rCNV_BG] <;> omega)); (· decide))
    | ((with_reducible apply Touches.stepBy 0x2 (touches_State.setFld_hi _ _ _ _ ?hi)); (case hi => first | decide | (simp only [rCAL_RUN, rCAL_STATUS, rCNV_BG]; omega) | (split <;> decide) | (split <;> simp only [rCAL_RUN, rCAL_STATUS, rCNV_BG] <;> omega)); (· decide))
    | ((with_reducible apply Touches.stepBy 0x8000000 (touches_State.onCal _ _)); · decide)
    | ((with_reducible apply Touches.stepBy 0x2018002 (touches_State.bgStart _ _)); · decide)
    | ((with_reducible apply Touches.stepBy 0x2000004 (touches_State.calDrive _ _ _)); · decide)
    | ((with_reducible refine Touches.foldl ?_ ?_))
    | ((with_reducible refine Touches.foldlSnd ?_ ?_))
    | ((with_reducible refine Touches.foldlFst ?_ ?_))
    | ((intro t b); try dsimp only)
    | split)

theorem touches_State.calAbort (s : State) (reason : Nat) :
    Touches (mEvent ||| mAct ||| mCtxs ||| mBillets ||| mCnv ||| mCal) s (State.calAbort s reason) := by
  unfold State.calAbort
  (try dsimp only)
  repeat' (first
    | with_reducible exact Touches.refl _ _
    | ((with_reducible apply Touches.stepBy 0x6842 (touches_State.raise _ _ _ _ _)); · decide)
    | ((with_reducible apply Touches.stepBy 0x2 (touches_State.setFlds_hi _ _ _ ?hi)); (case hi => first | decide | (simp only [rCAL_STATUS, rCNV_ATTCAL]; omega) | (split <;> decide) | (split <;> simp only [rCAL_STATUS, rCNV_ATTCAL] <;> omega)); (· decide))
    | ((with_reducible apply Touches.stepBy 0x2 (touches_State.wr_hi _ _ _ ?hi)); (case hi => first | decide | (simp only [rCAL_STATUS, rCNV_ATTCAL]; omega) | (split <;> decide) | (split <;> simp only [rCAL_STATUS, rCNV_ATTCAL] <;> omega)); (· decide))
    | ((with_reducible apply Touches.stepBy 0x8000000 (touches_State.onCal _ _)); · decide)
    | ((with_reducible apply Touches.stepBy 0xa018006 (touches_State.calRestore _)); · decide)
    | ((with_reducible refine Touches.foldl ?_ ?_))
    | ((with_reducible refine Touches.foldlSnd ?_ ?_))
    | ((with_reducible refine Touches.foldlFst ?_ ?_))
    | ((intro t b); try dsimp only)
    | split)

theorem touches_State.calAbortIf (s : State) (reason : Nat) :
    Touches (mEvent ||| mAct ||| mCtxs ||| mBillets ||| mCnv ||| mCal) s (State.calAbortIf s reason) := by
  unfold State.calAbortIf
  (try dsimp only)
  repeat' (first
    | with_reducible exact Touches.refl _ _
    | ((with_reducible apply Touches.stepBy 0xa01e846 (touches_State.calAbort _ _)); · decide)
    | split)

theorem touches_State.storeBegin (s : State) :
    Touches (mEvent ||| mFlash ||| mCal) s (State.storeBegin s) := by
  unfold State.storeBegin
  (try dsimp only)
  repeat' (first
    | with_reducible exact Touches.refl _ _
    | ((with_reducible apply Touches.stepBy 0x6842 (touches_State.raise _ _ _ _ _)); · decide)
    | ((with_reducible apply Touches.stepBy 0x2 (touches_State.setFld_hi _ _ _ _ ?hi)); (case hi => first | decide | (simp only [rCAL_STATUS, rCAL_STORE]; omega) | (split <;> decide) | (split <;> simp only [rCAL_STATUS, rCAL_STORE] <;> omega)); (· decide))
    | ((with_reducible apply Touches.stepBy 0x8000000 (touches_State.onCal _ _)); · decide)
    | ((with_reducible apply Touches.stepBy 0x1000 (touches_State.flashErase _ _ _)); · decide)
    | split)

theorem touches_State.storeAsk (s : State) :
    Touches (mEvent ||| mFlash ||| mCal) s (State.storeAsk s) := by
  unfold State.storeAsk
  (try dsimp only)
  repeat' (first
    | with_reducible exact Touches.refl _ _
    | ((with_reducible apply Touches.stepBy 0x2 (touches_State.setFld_hi _ _ _ _ ?hi)); (case hi => first | decide | (simp only [rCAL_STORE]; omega) | (split <;> decide) | (split <;> simp only [rCAL_STORE] <;> omega)); (· decide))
    | ((with_reducible apply Touches.stepBy 0x8007842 (touches_State.storeBegin _)); · decide)
    | ((with_reducible apply Touches.stepBy 0x6842 (touches_State.calRefuse _ _)); · decide)
    | split)

theorem touches_State.storeCapture (s : State) (n : Nat) :
    Touches mCal s (State.storeCapture s n) := by
  unfold State.storeCapture
  (try dsimp only)
  repeat' (first
    | with_reducible exact Touches.refl _ _
    | ((with_reducible apply Touches.stepBy 0x8000000 (touches_State.onCal _ _)); · decide)
    | split)

theorem touches_State.storeStep (s t : State) (n : Nat) :
    Touches (mRegs ||| mCtxs ||| mBillets ||| mCal) t (State.storeStep s t n) := by
  unfold State.storeStep
  (try dsimp only)
  repeat' (first
    | with_reducible exact Touches.refl _ _
    | ((with_reducible apply Touches.stepBy 0x18002 (touches_State.settle _ _)); · decide)
    | ((with_reducible apply Touches.stepBy 0x8000000 (touches_State.storeCapture _ _)); · decide)
    | split)

theorem touches_State.storeEnd (s : State) (ok : Bool) :
    Touches (mEvent ||| mFlash) s (State.storeEnd s ok) := by
  unfold State.storeEnd
  (try dsimp only)
  repeat' (first
    | with_reducible exact Touches.refl _ _
    | ((with_reducible apply Touches.stepBy 0x6842 (touches_State.raise _ _ _ _ _)); · decide)
    | ((with_reducible apply Touches.stepBy 0x2 (touches_State.setFlds_hi _ _ _ ?hi)); (case hi => first | decide | (simp only [rCAL_STATUS, rCAL_STORE]; omega) | (split <;> decide) | (split <;> simp only [rCAL_STATUS, rCAL_STORE] <;> omega)); (· decide))
    | ((with_reducible apply Touches.stepBy 0x2 (touches_State.setFld_hi _ _ _ _ ?hi)); (case hi => first | decide | (simp only [rCAL_STATUS, rCAL_STORE]; omega) | (split <;> decide) | (split <;> simp only [rCAL_STATUS, rCAL_STORE] <;> omega)); (· decide))
    | ((with_reducible apply Touches.stepBy 0x1000 (touches_State.flashWrite _ _ _)); · decide)
    | split)

theorem touches_State.calCommit (s : State) :
    Touches (mEvent ||| mAct ||| mFlash ||| mCtxs ||| mBillets ||| mCnv ||| mCal) s (State.calCommit s) := by
  unfold State.calCommit
  (try dsimp only)
  repeat' (first
    | with_reducible exact Touches.refl _ _
    | ((with_reducible apply Touches.stepBy 0x6842 (touches_State.raise _ _ _ _ _)); · decide)
    | ((with_reducible apply Touches.stepBy 0x2 (touches_State.addMod_hi _ _ _ _ ?hi)); (case hi => first | decide | (simp only [rCAL_FLAT, rCAL_HIST0, rCAL_HIST1, rCAL_HIST_SNAP, rCAL_REF, rCAL_STATUS, rCNV_ATTCAL, rCNV_CHCORR, rTHM_TEMP]; omega) | (split <;> decide) | (split <;> simp only [rCAL_FLAT, rCAL_HIST0, rCAL_HIST1, rCAL_HIST_SNAP, rCAL_REF, rCAL_STATUS, rCNV_ATTCAL, rCNV_CHCORR, rTHM_TEMP] <;> omega)); (· decide))
    | ((with_reducible apply Touches.stepBy 0x2 (touches_State.setFlds_hi _ _ _ ?hi)); (case hi => first | decide | (simp only [rCAL_FLAT, rCAL_HIST0, rCAL_HIST1, rCAL_HIST_SNAP, rCAL_REF, rCAL_STATUS, rCNV_ATTCAL, rCNV_CHCORR, rTHM_TEMP]; omega) | (split <;> decide) | (split <;> simp only [rCAL_FLAT, rCAL_HIST0, rCAL_HIST1, rCAL_HIST_SNAP, rCAL_REF, rCAL_STATUS, rCNV_ATTCAL, rCNV_CHCORR, rTHM_TEMP] <;> omega)); (· decide))
    | ((with_reducible apply Touches.stepBy 0x2 (touches_State.setFld_hi _ _ _ _ ?hi)); (case hi => first | decide | (simp only [rCAL_FLAT, rCAL_HIST0, rCAL_HIST1, rCAL_HIST_SNAP, rCAL_REF, rCAL_STATUS, rCNV_ATTCAL, rCNV_CHCORR, rTHM_TEMP]; omega) | (split <;> decide) | (split <;> simp only [rCAL_FLAT, rCAL_HIST0, rCAL_HIST1, rCAL_HIST_SNAP, rCAL_REF, rCAL_STATUS, rCNV_ATTCAL, rCNV_CHCORR, rTHM_TEMP] <;> omega)); (· decide))
    | ((with_reducible apply Touches.stepBy 0x2 (touches_State.wr_hi _ _ _ ?hi)); (case hi => first | decide | (simp only [rCAL_FLAT, rCAL_HIST0, rCAL_HIST1, rCAL_HIST_SNAP, rCAL_REF, rCAL_STATUS, rCNV_ATTCAL, rCNV_CHCORR, rTHM_TEMP]; omega) | (split <;> decide) | (split <;> simp only [rCAL_FLAT, rCAL_HIST0, rCAL_HIST1, rCAL_HIST_SNAP, rCAL_REF, rCAL_STATUS, rCNV_ATTCAL, rCNV_CHCORR, rTHM_TEMP] <;> omega)); (· decide))
    | ((with_reducible apply Touches.stepBy 0x8007842 (touches_State.storeBegin _)); · decide)
    | ((with_reducible apply Touches.stepBy 0xa018006 (touches_State.calRestore _)); · decide)
    | ((with_reducible refine Touches.foldl ?_ ?_))
    | ((with_reducible refine Touches.foldlSnd ?_ ?_))
    | ((with_reducible refine Touches.foldlFst ?_ ?_))
    | ((intro t b); try dsimp only)
    | split)

theorem touches_State.calPhase (s : State) (p : Nat) :
    Touches mRegs s (State.calPhase s p) := by
  unfold State.calPhase
  (try dsimp only)
  repeat' (first
    | with_reducible exact Touches.refl _ _
    | ((with_reducible apply Touches.stepBy 0x2 (touches_State.setFld_hi _ _ _ _ ?hi)); (case hi => first | decide | (simp only [rCAL_STATUS]; omega) | (split <;> decide) | (split <;> simp only [rCAL_STATUS] <;> omega)); (· decide)))

theorem touches_State.calMeas (s : State) (m : CalMeas) :
    Touches mRegs s (State.calMeas s m) := by
  unfold State.calMeas
  (try dsimp only)
  repeat' (first
    | with_reducible exact Touches.refl _ _
    | ((with_reducible apply Touches.stepBy 0x2 (touches_State.setFlds_hi _ _ _ ?hi)); (case hi => first | decide | (simp only [rCAL_MEAS]; omega) | (split <;> decide) | (split <;> simp only [rCAL_MEAS] <;> omega)); (· decide)))

theorem touches_State.calPhaseEnd (s : State) (m : CalMeas) :
    Touches (mEvent ||| mAct ||| mFlash ||| mCtxs ||| mBillets ||| mCnv ||| mCal) s (State.calPhaseEnd s m) := by
  unfold State.calPhaseEnd
  (try dsimp only)
  repeat' (first
    | with_reducible exact Touches.refl _ _
    | ((with_reducible apply Touches.stepBy 0x8000000 (touches_State.onCal _ _)); · decide)
    | ((with_reducible apply Touches.stepBy 0x2000000 (touches_State.updCore _ _ _)); · decide)
    | ((with_reducible apply Touches.stepBy 0x2 (touches_State.calMeas _ _)); · decide)
    | ((with_reducible apply Touches.stepBy 0x2 (touches_State.calPhase _ _)); · decide)
    | ((with_reducible apply Touches.stepBy 0xa01f846 (touches_State.calCommit _)); · decide)
    | ((with_reducible apply Touches.stepBy 0xa01e846 (touches_State.calAbort _ _)); · decide)
    | ((with_reducible apply Touches.stepBy 0x2000004 (touches_State.calDrive _ _ _)); · decide)
    | ((with_reducible refine Touches.foldl ?_ ?_))
    | ((intro t b); try dsimp only)
    | split
    | with_reducible refine Touches.ofSnd (by assumption) ?_
    | with_reducible refine Touches.ofFst (by assumption) ?_)

theorem touches_State.wrCalRun (v : Word) (s : State) :
    Touches (mEvent ||| mAct ||| mFlash ||| mCtxs ||| mBillets ||| mCnv ||| mCal) s (State.wrCalRun v s) := by
  unfold State.wrCalRun
  (try dsimp only)
  repeat' (first
    | with_reducible exact Touches.refl _ _
    | ((with_reducible apply Touches.stepBy 0x2 (touches_State.setFlds_hi _ _ _ ?hi)); (case hi => first | decide | (simp only [rCAL_RUN]; omega) | (split <;> decide) | (split <;> simp only [rCAL_RUN] <;> omega)); (· decide))
    | ((with_reducible apply Touches.stepBy 0x8007842 (touches_State.storeAsk _)); · decide)
    | ((with_reducible apply Touches.stepBy 0xa01e846 (touches_State.calAbortIf _ _)); · decide)
    | ((with_reducible apply Touches.stepBy 0x8006842 (touches_State.calGo _)); · decide)
    | split)

theorem touches_State.wrCalFlat (n k : Nat) (v : Word) (s : State) :
    Touches mRegs s (State.wrCalFlat n k v s) := by
  unfold State.wrCalFlat
  (try dsimp only)
  repeat' (first
    | with_reducible exact Touches.refl _ _
    | ((with_reducible apply Touches.stepBy 0x2 (touches_State.wrCodes_hi _ _ _ _ ?hi)); (case hi => first | decide | (simp only [rCAL_FLAT]; omega) | (split <;> decide) | (split <;> simp only [rCAL_FLAT] <;> omega)); (· decide))
    | ((with_reducible apply Touches.stepBy 0x2 (touches_State.setFld_hi _ _ _ _ ?hi)); (case hi => first | decide | (simp only [rCAL_FLAT]; omega) | (split <;> decide) | (split <;> simp only [rCAL_FLAT] <;> omega)); (· decide))
    | split)

theorem touches_State.calDueRise (s : State) (n : Nat) :
    Touches mEvent s (State.calDueRise s n) := by
  unfold State.calDueRise
  (try dsimp only)
  repeat' (first
    | with_reducible exact Touches.refl _ _
    | ((with_reducible apply Touches.stepBy 0x6842 (touches_State.raise _ _ _ _ _)); · decide)
    | ((with_reducible apply Touches.stepBy 0x2 (touches_State.setFld_hi _ _ _ _ ?hi)); (case hi => first | decide | (simp only [rCAL_STATUS]; omega) | (split <;> decide) | (split <;> simp only [rCAL_STATUS] <;> omega)); (· decide))
    | split)

theorem touches_State.calDueTemp (s : State) (n : Nat) :
    Touches mEvent s (State.calDueTemp s n) := by
  unfold State.calDueTemp
  (try dsimp only)
  repeat' (first
    | with_reducible exact Touches.refl _ _
    | ((with_reducible apply Touches.stepBy 0x6842 (touches_State.calDueRise _ _)); · decide)
    | split)

theorem touches_State.calDueAge (s : State) (n : Nat) :
    Touches (mEvent ||| mTime) s (State.calDueAge s n) := by
  unfold State.calDueAge
  (try dsimp only)
  repeat' (first
    | with_reducible exact Touches.refl _ _
    | ((with_reducible apply Touches.stepBy 0x80 (touches_State.reach _ _)); · decide)
    | ((with_reducible apply Touches.stepBy 0x6842 (touches_State.calDueRise _ _)); · decide)
    | split)

theorem touches_State.calAuto (s : State) :
    Touches (mEvent ||| mCal) s (State.calAuto s) := by
  unfold State.calAuto
  (try dsimp only)
  repeat' (first
    | with_reducible exact Touches.refl _ _
    | ((with_reducible apply Touches.stepBy 0x8000002 (touches_State.calBegin _ _ _ _ _)); · decide)
    | ((with_reducible apply Touches.stepBy 0x6842 (touches_State.calRefuse _ _)); · decide)
    | split
    | with_reducible refine Touches.ofSnd (by assumption) ?_
    | with_reducible refine Touches.ofFst (by assumption) ?_)

theorem touches_State.calRetryEnd (s : State) (n : Nat) :
    Touches (mTime ||| mCal) s (State.calRetryEnd s n) := by
  unfold State.calRetryEnd
  (try dsimp only)
  repeat' (first
    | with_reducible exact Touches.refl _ _
    | ((with_reducible apply Touches.stepBy 0x80 (touches_State.reach _ _)); · decide)
    | ((with_reducible apply Touches.stepBy 0x8000000 (touches_State.onCal _ _)); · decide)
    | split
    | with_reducible refine Touches.ofSnd (by assumption) ?_
    | with_reducible refine Touches.ofFst (by assumption) ?_)

theorem touches_State.calHistSnap (s : State) :
    Touches mRegs s (State.calHistSnap s) := by
  unfold State.calHistSnap
  (try dsimp only)
  repeat' (first
    | with_reducible exact Touches.refl _ _
    | ((with_reducible apply Touches.stepBy 0x2 (touches_State.addMod_hi _ _ _ _ ?hi)); (case hi => first | decide | (simp only [rCAL_HIST_SNAP]; omega) | (split <;> decide) | (split <;> simp only [rCAL_HIST_SNAP] <;> omega)); (· decide)))

theorem touches_State.calRestoreBlock (s : State) (bs : List Byte) (n : Nat) :
    Touches (mRegs ||| mCnv) s (State.calRestoreBlock s bs n) := by
  unfold State.calRestoreBlock
  (try dsimp only)
  repeat' (first
    | with_reducible exact Touches.refl _ _
    | ((with_reducible apply Touches.stepBy 0x2 (touches_State.setFlds_hi _ _ _ ?hi)); (case hi => first | decide | (simp only [rCAL_FLAT, rCAL_HIST0, rCAL_HIST1, rCNV_ATTCAL, rCNV_BG_STATUS, rCNV_CHCORR, rCNV_SLICE]; omega) | (split <;> decide) | (split <;> simp only [rCAL_FLAT, rCAL_HIST0, rCAL_HIST1, rCNV_ATTCAL, rCNV_BG_STATUS, rCNV_CHCORR, rCNV_SLICE] <;> omega)); (· decide))
    | ((with_reducible apply Touches.stepBy 0x2 (touches_State.setFld_hi _ _ _ _ ?hi)); (case hi => first | decide | (simp only [rCAL_FLAT, rCAL_HIST0, rCAL_HIST1, rCNV_ATTCAL, rCNV_BG_STATUS, rCNV_CHCORR, rCNV_SLICE]; omega) | (split <;> decide) | (split <;> simp only [rCAL_FLAT, rCAL_HIST0, rCAL_HIST1, rCNV_ATTCAL, rCNV_BG_STATUS, rCNV_CHCORR, rCNV_SLICE] <;> omega)); (· decide))
    | ((with_reducible apply Touches.stepBy 0x2 (touches_State.wr_hi _ _ _ ?hi)); (case hi => first | decide | (simp only [rCAL_FLAT, rCAL_HIST0, rCAL_HIST1, rCNV_ATTCAL, rCNV_BG_STATUS, rCNV_CHCORR, rCNV_SLICE]; omega) | (split <;> decide) | (split <;> simp only [rCAL_FLAT, rCAL_HIST0, rCAL_HIST1, rCNV_ATTCAL, rCNV_BG_STATUS, rCNV_CHCORR, rCNV_SLICE] <;> omega)); (· decide))
    | ((with_reducible apply Touches.stepBy 0x2000000 (touches_State.newGeff _ _)); · decide)
    | ((with_reducible apply Touches.stepBy 0x2000000 (touches_State.updCore _ _ _)); · decide)
    | ((with_reducible refine Touches.foldl ?_ ?_))
    | ((intro t b); try dsimp only)
    | split)

theorem touches_State.calLoad (s : State) :
    Touches (mEvent ||| mCnv) s (State.calLoad s) := by
  unfold State.calLoad
  (try dsimp only)
  repeat' (first
    | with_reducible exact Touches.refl _ _
    | ((with_reducible apply Touches.stepBy 0x6842 (touches_State.raise _ _ _ _ _)); · decide)
    | ((with_reducible apply Touches.stepBy 0x2 (touches_State.setFlds_hi _ _ _ ?hi)); (case hi => first | decide | (simp only [rCAL_STORE]; omega) | (split <;> decide) | (split <;> simp only [rCAL_STORE] <;> omega)); (· decide))
    | ((with_reducible apply Touches.stepBy 0x2000002 (touches_State.calRestoreBlock _ _ _)); · decide)
    | ((with_reducible refine Touches.foldl ?_ ?_))
    | ((intro t b); try dsimp only)
    | split)

/-! ### Machine/Plan.lean -/

theorem touches_State.planStatus (s : State) (st result reason : Nat) :
    Touches mRegs s (State.planStatus s st result reason) := by
  unfold State.planStatus
  (try dsimp only)
  repeat' (first
    | with_reducible exact Touches.refl _ _
    | ((with_reducible apply Touches.stepBy 0x2 (touches_State.setFlds_hi _ _ _ ?hi)); (case hi => first | decide | (simp only [rPLAN_STATUS]; omega) | (split <;> decide) | (split <;> simp only [rPLAN_STATUS] <;> omega)); (· decide)))

theorem touches_State.setSlot (s : State) (k st : Nat) (p : Option PlanImg) :
    Touches (mRegs ||| mPlan) s (State.setSlot s k st p) := by
  unfold State.setSlot
  (try dsimp only)
  repeat' (first
    | with_reducible exact Touches.refl _ _
    | ((with_reducible apply Touches.stepBy 0x2 (touches_State.setFld_hi _ _ _ _ ?hi)); (case hi => first | decide | (simp only [rPLAN_SLOT, rPLAN_SLOT_STATE]; omega) | (split <;> decide) | (split <;> simp only [rPLAN_SLOT, rPLAN_SLOT_STATE] <;> omega)); (· decide))
    | ((with_reducible apply Touches.stepBy 0x2 (touches_State.wr_hi _ _ _ ?hi)); (case hi => first | decide | (simp only [rPLAN_SLOT, rPLAN_SLOT_STATE]; omega) | (split <;> decide) | (split <;> simp only [rPLAN_SLOT, rPLAN_SLOT_STATE] <;> omega)); (· decide))
    | ((with_reducible apply Touches.stepBy 0x400000 (touches_State.onPlan _ _)); · decide)
    | split
    | with_reducible refine Touches.ofSnd (by assumption) ?_
    | with_reducible refine Touches.ofFst (by assumption) ?_)

theorem touches_State.planRefuse (s : State) (reason : Nat) :
    Touches mEvent s (State.planRefuse s reason) := by
  unfold State.planRefuse
  (try dsimp only)
  repeat' (first
    | with_reducible exact Touches.refl _ _
    | ((with_reducible apply Touches.stepBy 0x6842 (touches_State.raise _ _ _ _ _)); · decide)
    | ((with_reducible apply Touches.stepBy 0x2 (touches_State.setFlds_hi _ _ _ ?hi)); (case hi => first | decide | (simp only [rPLAN_STATUS]; omega) | (split <;> decide) | (split <;> simp only [rPLAN_STATUS] <;> omega)); (· decide)))

theorem touches_State.planReject (s : State) (e : PlanErr) :
    Touches (mEvent ||| mPlan) s (State.planReject s e) := by
  unfold State.planReject
  (try dsimp only)
  repeat' (first
    | with_reducible exact Touches.refl _ _
    | ((with_reducible apply Touches.stepBy 0x400002 (touches_State.setSlot _ _ _ _)); · decide)
    | ((with_reducible apply Touches.stepBy 0x2 (touches_State.planStatus _ _ _ _)); · decide)
    | ((with_reducible apply Touches.stepBy 0x6842 (touches_State.raise _ _ _ _ _)); · decide)
    | ((with_reducible apply Touches.stepBy 0x2 (touches_State.setFld_hi _ _ _ _ ?hi)); (case hi => first | decide | (simp only [rPLAN_DETAIL]; omega) | (split <;> decide) | (split <;> simp only [rPLAN_DETAIL] <;> omega)); (· decide)))

theorem touches_State.planLoad (s : State) :
    Touches (mEvent ||| mPlan) s (State.planLoad s) := by
  unfold State.planLoad
  (try dsimp only)
  repeat' (first
    | with_reducible exact Touches.refl _ _
    | ((with_reducible apply Touches.stepBy 0x6842 (touches_State.planRefuse _ _)); · decide)
    | ((with_reducible apply Touches.stepBy 0x400002 (touches_State.setSlot _ _ _ _)); · decide)
    | ((with_reducible apply Touches.stepBy 0x2 (touches_State.setFld_hi _ _ _ _ ?hi)); (case hi => first | decide | (simp only [rPLAN_STATUS]; omega) | (split <;> decide) | (split <;> simp only [rPLAN_STATUS] <;> omega)); (· decide))
    | split)

theorem touches_State.planFetchDone (s : State) (img : HostRead) :
    Touches (mEvent ||| mPlan) s (State.planFetchDone s img) := by
  unfold State.planFetchDone
  (try dsimp only)
  repeat' (first
    | with_reducible exact Touches.refl _ _
    | ((with_reducible apply Touches.stepBy 0x406842 (touches_State.planReject _ _)); · decide)
    | ((with_reducible apply Touches.stepBy 0x400002 (touches_State.setSlot _ _ _ _)); · decide)
    | ((with_reducible apply Touches.stepBy 0x2 (touches_State.planStatus _ _ _ _)); · decide)
    | ((with_reducible apply Touches.stepBy 0x6842 (touches_State.raise _ _ _ _ _)); · decide)
    | ((with_reducible apply Touches.stepBy 0x6842 (touches_State.hostFail _ _)); · decide)
    | ((with_reducible apply Touches.stepBy 0x6842 (touches_State.admFail _ _ _ _)); · decide)
    | ((with_reducible apply Touches.stepBy 0x2 (touches_State.admStatus _ _ _ _ _)); · decide)
    | ((with_reducible apply Touches.stepBy 0x2 (touches_State.admCapture _)); · decide)
    | split
    | with_reducible refine Touches.ofSnd (by assumption) ?_
    | with_reducible refine Touches.ofFst (by assumption) ?_)

theorem touches_State.planSchedule (s : State) (stop : Bool) :
    Touches mEvent s (State.planSchedule s stop) := by
  unfold State.planSchedule
  (try dsimp only)
  repeat' (first
    | with_reducible exact Touches.refl _ _
    | ((with_reducible apply Touches.stepBy 0x6842 (touches_State.planRefuse _ _)); · decide)
    | ((with_reducible apply Touches.stepBy 0x2 (touches_State.setFlds_hi _ _ _ ?hi)); (case hi => first | decide | (simp only [rPLAN_DETAIL, rPLAN_STATUS, rPLAN_TIME, rPWR_CTRL]; omega) | (split <;> decide) | (split <;> simp only [rPLAN_DETAIL, rPLAN_STATUS, rPLAN_TIME, rPWR_CTRL] <;> omega)); (· decide))
    | ((with_reducible apply Touches.stepBy 0x2 (touches_State.setFld_hi _ _ _ _ ?hi)); (case hi => first | decide | (simp only [rPLAN_DETAIL, rPLAN_STATUS, rPLAN_TIME, rPWR_CTRL]; omega) | (split <;> decide) | (split <;> simp only [rPLAN_DETAIL, rPLAN_STATUS, rPLAN_TIME, rPWR_CTRL] <;> omega)); (· decide))
    | ((with_reducible apply Touches.stepBy 0x2 (touches_State.wr_hi _ _ _ ?hi)); (case hi => first | decide | (simp only [rPLAN_DETAIL, rPLAN_STATUS, rPLAN_TIME, rPWR_CTRL]; omega) | (split <;> decide) | (split <;> simp only [rPLAN_DETAIL, rPLAN_STATUS, rPLAN_TIME, rPWR_CTRL] <;> omega)); (· decide))
    | ((with_reducible apply Touches.stepBy 0x6842 (touches_State.admFail _ _ _ _)); · decide)
    | ((with_reducible apply Touches.stepBy 0x2 (touches_State.admCapture _)); · decide)
    | split
    | with_reducible refine Touches.ofSnd (by assumption) ?_
    | with_reducible refine Touches.ofFst (by assumption) ?_)

theorem touches_State.planAbort (s : State) (reason : Nat) :
    Touches mEvent s (State.planAbort s reason) := by
  unfold State.planAbort
  (try dsimp only)
  repeat' (first
    | with_reducible exact Touches.refl _ _
    | ((with_reducible apply Touches.stepBy 0x2 (touches_State.planStatus _ _ _ _)); · decide)
    | ((with_reducible apply Touches.stepBy 0x6842 (touches_State.raise _ _ _ _ _)); · decide)
    | split)

theorem touches_State.planRestart (s : State) :
    Touches (mEvent ||| mPlan) s (State.planRestart s) := by
  unfold State.planRestart
  (try dsimp only)
  repeat' (first
    | with_reducible exact Touches.refl _ _
    | ((with_reducible apply Touches.stepBy 0x6842 (touches_State.planAbort _ _)); · decide)
    | ((with_reducible apply Touches.stepBy 0x400002 (touches_State.setSlot _ _ _ _)); · decide)
    | ((with_reducible apply Touches.stepBy 0x2 (touches_State.planStatus _ _ _ _)); · decide)
    | ((with_reducible apply Touches.stepBy 0x6842 (touches_State.raise _ _ _ _ _)); · decide)
    | split)

theorem touches_State.planDiscard (s : State) :
    Touches (mEvent ||| mPlan) s (State.planDiscard s) := by
  unfold State.planDiscard
  (try dsimp only)
  repeat' (first
    | with_reducible exact Touches.refl _ _
    | ((with_reducible apply Touches.stepBy 0x6842 (touches_State.planRefuse _ _)); · decide)
    | ((with_reducible apply Touches.stepBy 0x400002 (touches_State.setSlot _ _ _ _)); · decide)
    | split)

theorem touches_State.wrPlanCmd (v : Word) (s : State) :
    Touches (mEvent ||| mPlan) s (State.wrPlanCmd v s) := by
  unfold State.wrPlanCmd
  (try dsimp only)
  repeat' (first
    | with_reducible exact Touches.refl _ _
    | ((with_reducible apply Touches.stepBy 0x6842 (touches_State.srExit _)); · decide)
    | ((with_reducible apply Touches.stepBy 0x406842 (touches_State.planDiscard _)); · decide)
    | ((with_reducible apply Touches.stepBy 0x6842 (touches_State.planAbort _ _)); · decide)
    | ((with_reducible apply Touches.stepBy 0x6842 (touches_State.planSchedule _ _)); · decide)
    | ((with_reducible apply Touches.stepBy 0x406842 (touches_State.planLoad _)); · decide)
    | ((with_reducible apply Touches.stepBy 0x6842 (touches_State.planRefuse _ _)); · decide)
    | split
    | with_reducible refine Touches.ofSnd (by assumption) ?_
    | with_reducible refine Touches.ofFst (by assumption) ?_)

theorem touches_State.wrPcommit (v : Word) (s : State) :
    Touches (mEvent ||| mAct) s (State.wrPcommit v s) := by
  unfold State.wrPcommit
  (try dsimp only)
  repeat' (first
    | with_reducible exact Touches.refl _ _
    | ((with_reducible apply Touches.stepBy 0x6842 (touches_State.raise _ _ _ _ _)); · decide)
    | ((with_reducible apply Touches.stepBy 0x2 (touches_State.wrCodes_hi _ _ _ _ ?hi)); (case hi => first | decide | (simp only [rPLAN_PCOMMIT, rPLAN_PC_TIME]; omega) | (split <;> decide) | (split <;> simp only [rPLAN_PCOMMIT, rPLAN_PC_TIME] <;> omega)); (· decide))
    | ((with_reducible apply Touches.stepBy 0x4 (touches_State.setAct _ _ _)); · decide)
    | ((with_reducible apply Touches.stepBy 0x2 (touches_State.setFld_hi _ _ _ _ ?hi)); (case hi => first | decide | (simp only [rPLAN_PCOMMIT, rPLAN_PC_TIME]; omega) | (split <;> decide) | (split <;> simp only [rPLAN_PCOMMIT, rPLAN_PC_TIME] <;> omega)); (· decide))
    | split)

/-! ### Machine/Clk.lean -/

theorem touches_State.updClk (s : State) (f : Clk → Clk) :
    Touches mClk s (State.updClk s f) := by
  constructor <;> first | exact fun h => absurd h (by decide) | exact fun _ => rfl | exact fun _ a _ => State.rd_congr (by rfl) a | exact fun h => h.of_eq rfl rfl rfl rfl rfl | exact FusesOnlyBurn.of_eq rfl rfl rfl rfl rfl

theorem touches_State.enterHoldover (s : State) (integ : Int) :
    Touches (mEvent ||| mClk ||| mGlb) s (State.enterHoldover s integ) := by
  unfold State.enterHoldover
  (try dsimp only)
  repeat' (first
    | with_reducible exact Touches.refl _ _
    | ((with_reducible apply Touches.stepBy 0x6842 (touches_State.raise _ _ _ _ _)); · decide)
    | ((with_reducible apply Touches.stepBy 0x2 (touches_State.addSat_hi _ _ _ _ ?hi)); (case hi => first | decide | (simp only [rCLK_HO_ERR, rCLK_STATUS, rGLB_STATUS]; omega) | (split <;> decide) | (split <;> simp only [rCLK_HO_ERR, rCLK_STATUS, rGLB_STATUS] <;> omega)); (· decide))
    | ((with_reducible apply Touches.stepBy 0x80000000000002 (touches_State.addSat _ _ _ _)); · decide)
    | ((with_reducible apply Touches.stepBy 0x2 (touches_State.setFlds_hi _ _ _ ?hi)); (case hi => first | decide | (simp only [rCLK_HO_ERR, rCLK_STATUS, rGLB_STATUS]; omega) | (split <;> decide) | (split <;> simp only [rCLK_HO_ERR, rCLK_STATUS, rGLB_STATUS] <;> omega)); (· decide))
    | ((with_reducible apply Touches.stepBy 0x80000000000002 (touches_State.setFlds _ _ _)); · decide)
    | ((with_reducible apply Touches.stepBy 0x2 (touches_State.wr_hi _ _ _ ?hi)); (case hi => first | decide | (simp only [rCLK_HO_ERR, rCLK_STATUS, rGLB_STATUS]; omega) | (split <;> decide) | (split <;> simp only [rCLK_HO_ERR, rCLK_STATUS, rGLB_STATUS] <;> omega)); (· decide))
    | ((with_reducible apply Touches.stepBy 0x80000000000002 (touches_State.wr _ _ _)); · decide)
    | ((with_reducible apply Touches.stepBy 0x200000 (touches_State.updClk _ _)); · decide)
    | (with_reducible constructor <;> first | exact fun h => absurd h (by decide) | exact fun _ => rfl | exact fun _ a _ => State.rd_congr (by rfl) a | exact fun h => h.of_eq rfl rfl rfl rfl rfl | exact FusesOnlyBurn.of_eq rfl rfl rfl rfl rfl))

theorem touches_State.refLoss (s : State) (integ : Int) :
    Touches (mEvent ||| mClk ||| mGlb) s (State.refLoss s integ) := by
  unfold State.refLoss
  (try dsimp only)
  repeat' (first
    | with_reducible exact Touches.refl _ _
    | ((with_reducible apply Touches.stepBy 0x6842 (touches_State.raise _ _ _ _ _)); · decide)
    | ((with_reducible apply Touches.stepBy 0x2 (touches_State.setFld_hi _ _ _ _ ?hi)); (case hi => first | decide | (simp only [rCLK_STATUS]; omega) | (split <;> decide) | (split <;> simp only [rCLK_STATUS] <;> omega)); (· decide))
    | ((with_reducible apply Touches.stepBy 0x80000000000002 (touches_State.setFld _ _ _ _)); · decide)
    | ((with_reducible apply Touches.stepBy 0x80000000206842 (touches_State.enterHoldover _ _)); · decide)
    | ((with_reducible apply Touches.stepBy 0x200000 (touches_State.updClk _ _)); · decide)
    | split)

theorem touches_State.refRestored (s : State) :
    Touches mEvent s (State.refRestored s) := by
  unfold State.refRestored
  (try dsimp only)
  repeat' (first
    | with_reducible exact Touches.refl _ _
    | ((with_reducible apply Touches.stepBy 0x6842 (touches_State.raise _ _ _ _ _)); · decide)
    | ((with_reducible apply Touches.stepBy 0x2 (touches_State.setFld_hi _ _ _ _ ?hi)); (case hi => first | decide | (simp only [rCLK_STATUS]; omega) | (split <;> decide) | (split <;> simp only [rCLK_STATUS] <;> omega)); (· decide))
    | split)

theorem touches_State.mpllLol (s : State) (integ : Int) :
    Touches (mEvent ||| mClk ||| mGlb) s (State.mpllLol s integ) := by
  unfold State.mpllLol
  (try dsimp only)
  repeat' (first
    | with_reducible exact Touches.refl _ _
    | ((with_reducible apply Touches.stepBy 0x80000000206842 (touches_State.enterHoldover _ _)); · decide)
    | split)

theorem touches_State.mpllLocked (s : State) :
    Touches (mEvent ||| mClk ||| mTdc ||| mAu ||| mGlb) s (State.mpllLocked s) := by
  unfold State.mpllLocked
  (try dsimp only)
  repeat' (first
    | with_reducible exact Touches.refl _ _
    | ((with_reducible apply Touches.stepBy 0x10001000000 (touches_State.flagOpen _)); · decide)
    | ((with_reducible apply Touches.stepBy 0x6842 (touches_State.raise _ _ _ _ _)); · decide)
    | ((with_reducible apply Touches.stepBy 0x2 (touches_State.setFlds_hi _ _ _ ?hi)); (case hi => first | decide | (simp only [rCLK_STATUS, rGLB_STATUS]; omega) | (split <;> decide) | (split <;> simp only [rCLK_STATUS, rGLB_STATUS] <;> omega)); (· decide))
    | ((with_reducible apply Touches.stepBy 0x80000000000002 (touches_State.setFlds _ _ _)); · decide)
    | ((with_reducible apply Touches.stepBy 0x200000 (touches_State.updClk _ _)); · decide)
    | split
    | with_reducible refine Touches.ofSnd (by assumption) ?_
    | with_reducible refine Touches.ofFst (by assumption) ?_
    | (with_reducible constructor <;> first | exact fun h => absurd h (by decide) | exact fun _ => rfl | exact fun _ a _ => State.rd_congr (by rfl) a | exact fun h => h.of_eq rfl rfl rfl rfl rfl | exact FusesOnlyBurn.of_eq rfl rfl rfl rfl rfl))

theorem touches_State.freqGate (s : State) (err : Int) :
    Touches mClk s (State.freqGate s err) := by
  unfold State.freqGate
  (try dsimp only)
  repeat' (first
    | with_reducible exact Touches.refl _ _
    | ((with_reducible apply Touches.stepBy 0x200000 (touches_State.updClk _ _)); · decide)
    | split)

theorem touches_State.holdoverUpdate (s : State) (meas : Nat) :
    Touches (mEvent ||| mFreeCtr ||| mClk) s (State.holdoverUpdate s meas) := by
  unfold State.holdoverUpdate
  (try dsimp only)
  repeat' (first
    | with_reducible exact Touches.refl _ _
    | ((with_reducible apply Touches.stepBy 0x6842 (touches_State.raise _ _ _ _ _)); · decide)
    | ((with_reducible apply Touches.stepBy 0x200 (touches_State.fresh _)); · decide)
    | ((with_reducible apply Touches.stepBy 0x2 (touches_State.addSat_hi _ _ _ _ ?hi)); (case hi => first | decide | (simp only [rCLK_HOLD, rCLK_HO_ERR, rCLK_STATUS]; omega) | (split <;> decide) | (split <;> simp only [rCLK_HOLD, rCLK_HO_ERR, rCLK_STATUS] <;> omega)); (· decide))
    | ((with_reducible apply Touches.stepBy 0x2 (touches_State.setFld_hi _ _ _ _ ?hi)); (case hi => first | decide | (simp only [rCLK_HOLD, rCLK_HO_ERR, rCLK_STATUS]; omega) | (split <;> decide) | (split <;> simp only [rCLK_HOLD, rCLK_HO_ERR, rCLK_STATUS] <;> omega)); (· decide))
    | ((with_reducible apply Touches.stepBy 0x200000 (touches_State.updClk _ _)); · decide)
    | split
    | with_reducible refine Touches.ofSnd (by assumption) ?_
    | with_reducible refine Touches.ofFst (by assumption) ?_)

theorem touches_State.lpllHoldover (s : State) :
    Touches (mEvent ||| mGlb) s (State.lpllHoldover s) := by
  unfold State.lpllHoldover
  (try dsimp only)
  repeat' (first
    | with_reducible exact Touches.refl _ _
    | ((with_reducible apply Touches.stepBy 0x6842 (touches_State.raise _ _ _ _ _)); · decide)
    | ((with_reducible apply Touches.stepBy 0x2 (touches_State.setFlds_hi _ _ _ ?hi)); (case hi => first | decide | (simp only [rCLK_STATUS, rGLB_STATUS]; omega) | (split <;> decide) | (split <;> simp only [rCLK_STATUS, rGLB_STATUS] <;> omega)); (· decide))
    | ((with_reducible apply Touches.stepBy 0x80000000000002 (touches_State.setFlds _ _ _)); · decide)
    | ((with_reducible apply Touches.stepBy 0x2 (touches_State.setFld_hi _ _ _ _ ?hi)); (case hi => first | decide | (simp only [rCLK_STATUS, rGLB_STATUS]; omega) | (split <;> decide) | (split <;> simp only [rCLK_STATUS, rGLB_STATUS] <;> omega)); (· decide))
    | ((with_reducible apply Touches.stepBy 0x80000000000002 (touches_State.setFld _ _ _ _)); · decide)
    | split)

theorem touches_State.lpllRelocked (s : State) :
    Touches (mEvent ||| mGlb) s (State.lpllRelocked s) := by
  unfold State.lpllRelocked
  (try dsimp only)
  repeat' (first
    | with_reducible exact Touches.refl _ _
    | ((with_reducible apply Touches.stepBy 0x6842 (touches_State.raise _ _ _ _ _)); · decide)
    | ((with_reducible apply Touches.stepBy 0x2 (touches_State.setFlds_hi _ _ _ ?hi)); (case hi => first | decide | (simp only [rCLK_STATUS, rGLB_STATUS]; omega) | (split <;> decide) | (split <;> simp only [rCLK_STATUS, rGLB_STATUS] <;> omega)); (· decide))
    | ((with_reducible apply Touches.stepBy 0x80000000000002 (touches_State.setFlds _ _ _)); · decide)
    | ((with_reducible apply Touches.stepBy 0x2 (touches_State.setFld_hi _ _ _ _ ?hi)); (case hi => first | decide | (simp only [rCLK_STATUS, rGLB_STATUS]; omega) | (split <;> decide) | (split <;> simp only [rCLK_STATUS, rGLB_STATUS] <;> omega)); (· decide))
    | ((with_reducible apply Touches.stepBy 0x80000000000002 (touches_State.setFld _ _ _ _)); · decide)
    | split)

theorem touches_State.clkResult (s : State) (n : Nat) :
    Touches mRegs s (State.clkResult s n) := by
  unfold State.clkResult
  (try dsimp only)
  repeat' (first
    | with_reducible exact Touches.refl _ _
    | ((with_reducible apply Touches.stepBy 0x2 (touches_State.setFld_hi _ _ _ _ ?hi)); (case hi => first | decide | (simp only [rCLK_CMD]; omega) | (split <;> decide) | (split <;> simp only [rCLK_CMD] <;> omega)); (· decide)))

theorem touches_State.outsLow (s : State) :
    Touches mClk s (State.outsLow s) := by
  unfold State.outsLow
  (try dsimp only)
  repeat' (first
    | with_reducible exact Touches.refl _ _
    | ((with_reducible apply Touches.stepBy 0x200000 (touches_State.updClk _ _)); · decide))

theorem touches_State.retune (s : State) :
    Touches (mEvent ||| mAct ||| mCtxs ||| mBillets ||| mClk ||| mTbs ||| mCnv ||| mPg ||| mCal ||| mGlb) s (State.retune s) := by
  unfold State.retune
  (try dsimp only)
  repeat' (first
    | with_reducible exact Touches.refl _ _
    | ((with_reducible apply Touches.stepBy 0x806842 (touches_State.servoDividerHold _)); · decide)
    | ((with_reducible apply Touches.stepBy 0x6842 (touches_State.planAbort _ _)); · decide)
    | ((with_reducible apply Touches.stepBy 0x2 (touches_State.setFlds_hi _ _ _ ?hi)); (case hi => first | decide | (simp only [rCLK_STATUS, rGLB_STATUS]; omega) | (split <;> decide) | (split <;> simp only [rCLK_STATUS, rGLB_STATUS] <;> omega)); (· decide))
    | ((with_reducible apply Touches.stepBy 0x80000000000002 (touches_State.setFlds _ _ _)); · decide)
    | ((with_reducible apply Touches.stepBy 0x2 (touches_State.setFld_hi _ _ _ _ ?hi)); (case hi => first | decide | (simp only [rCLK_STATUS, rGLB_STATUS]; omega) | (split <;> decide) | (split <;> simp only [rCLK_STATUS, rGLB_STATUS] <;> omega)); (· decide))
    | ((with_reducible apply Touches.stepBy 0x80000000000002 (touches_State.setFld _ _ _ _)); · decide)
    | ((with_reducible apply Touches.stepBy 0x4000002 (touches_State.pgHold _)); · decide)
    | ((with_reducible apply Touches.stepBy 0x2000002 (touches_State.bgRelockStart _)); · decide)
    | ((with_reducible apply Touches.stepBy 0x200000 (touches_State.outsLow _)); · decide)
    | ((with_reducible apply Touches.stepBy 0x2 (touches_State.clkResult _ _)); · decide)
    | ((with_reducible apply Touches.stepBy 0x200000 (touches_State.updClk _ _)); · decide)
    | ((with_reducible apply Touches.stepBy 0xa01e846 (touches_State.calAbortIf _ _)); · decide)
    | split
    | (with_reducible constructor <;> first | exact fun h => absurd h (by decide) | exact fun _ => rfl | exact fun _ a _ => State.rd_congr (by rfl) a | exact fun h => h.of_eq rfl rfl rfl rfl rfl | exact FusesOnlyBurn.of_eq rfl rfl rfl rfl rfl))

theorem touches_State.wrClkCmd (v : Word) (s : State) :
    Touches (mEvent ||| mAct ||| mCtxs ||| mBillets ||| mClk ||| mTbs ||| mCnv ||| mPg ||| mCal ||| mGlb) s (State.wrClkCmd v s) := by
  unfold State.wrClkCmd
  (try dsimp only)
  repeat' (first
    | with_reducible exact Touches.refl _ _
    | ((with_reducible apply Touches.stepBy 0x8000000ea1e846 (touches_State.retune _)); · decide)
    | split)

theorem touches_State.retuneTimeout (s : State) :
    Touches (mEvent ||| mClk) s (State.retuneTimeout s) := by
  unfold State.retuneTimeout
  (try dsimp only)
  repeat' (first
    | with_reducible exact Touches.refl _ _
    | ((with_reducible apply Touches.stepBy 0x6842 (touches_State.raise _ _ _ _ _)); · decide)
    | ((with_reducible apply Touches.stepBy 0x2 (touches_State.setFld_hi _ _ _ _ ?hi)); (case hi => first | decide | (simp only [rCLK_STATUS]; omega) | (split <;> decide) | (split <;> simp only [rCLK_STATUS] <;> omega)); (· decide))
    | ((with_reducible apply Touches.stepBy 0x2 (touches_State.clkResult _ _)); · decide)
    | ((with_reducible apply Touches.stepBy 0x200000 (touches_State.updClk _ _)); · decide)
    | split
    | with_reducible refine Touches.ofSnd (by assumption) ?_
    | with_reducible refine Touches.ofFst (by assumption) ?_)

theorem touches_State.heldRetry (s : State) :
    Touches mClk s (State.heldRetry s) := by
  unfold State.heldRetry
  (try dsimp only)
  repeat' (first
    | with_reducible exact Touches.refl _ _
    | ((with_reducible apply Touches.stepBy 0x200000 (touches_State.updClk _ _)); · decide)
    | split
    | with_reducible refine Touches.ofSnd (by assumption) ?_
    | with_reducible refine Touches.ofFst (by assumption) ?_)

theorem touches_State.drainPorts (s : State) :
    Touches (mEvent ||| mFreeCtr ||| mStore ||| mCtxs ||| mBillets ||| mPorts ||| mBadLines) s (State.drainPorts s) := by
  unfold State.drainPorts
  (try dsimp only)
  repeat' (first
    | with_reducible exact Touches.refl _ _
    | ((with_reducible apply Touches.stepBy 0x13ee42 (touches_State.arrive _ _)); · decide)
    | ((with_reducible refine Touches.foldl ?_ ?_))
    | ((intro t b); try dsimp only))

theorem touches_State.outsZero (s : State) :
    Touches mClk s (State.outsZero s) := by
  unfold State.outsZero
  (try dsimp only)
  repeat' (first
    | with_reducible exact Touches.refl _ _
    | ((with_reducible apply Touches.stepBy 0x200000 (touches_State.updClk _ _)); · decide)
    | split)

theorem touches_State.settleDone (s : State) (fs : Nat) :
    Touches (mEvent ||| mTime ||| mFrac ||| mFreeCtr ||| mStore ||| mCtxs ||| mBillets ||| mPorts ||| mAside ||| mBadLines ||| mClk ||| mTbs ||| mTdc ||| mCnv ||| mPg ||| mDdc ||| mXfm ||| mStreams ||| mDet ||| mDen ||| mTq ||| mBus ||| mDecs ||| mAu ||| mNet ||| mAve ||| mCmp ||| mGlb) s (State.settleDone s fs) := by
  unfold State.settleDone
  (try dsimp only)
  repeat' (first
    | with_reducible exact Touches.refl _ _
    | ((with_reducible apply Touches.stepBy 0x30a400006842 (touches_State.trgRestart _)); · decide)
    | ((with_reducible apply Touches.stepBy 0x78069c2 (touches_State.dividerRelease _ _)); · decide)
    | ((with_reducible apply Touches.stepBy 0x2001033017ee42 (touches_State.unitOrigin _ _ _)); · decide)
    | ((with_reducible apply Touches.stepBy 0xe842 (touches_State.faultsEvent _ _ _)); · decide)
    | ((with_reducible apply Touches.stepBy 0x2001037117ee42 (touches_State.recoverPath _ _ _ _ _ _ _)); · decide)
    | ((with_reducible apply Touches.stepBy 0x6842 (touches_State.raise _ _ _ _ _)); · decide)
    | ((with_reducible apply Touches.stepBy 0x2 (touches_State.setFlds_hi _ _ _ ?hi)); (case hi => first | decide | (simp only [rCLK_STATUS, rGLB_STATUS]; omega) | (split <;> decide) | (split <;> simp only [rCLK_STATUS, rGLB_STATUS] <;> omega)); (· decide))
    | ((with_reducible apply Touches.stepBy 0x80000000000002 (touches_State.setFlds _ _ _)); · decide)
    | ((with_reducible apply Touches.stepBy 0x2 (touches_State.setFld_hi _ _ _ _ ?hi)); (case hi => first | decide | (simp only [rCLK_STATUS, rGLB_STATUS]; omega) | (split <;> decide) | (split <;> simp only [rCLK_STATUS, rGLB_STATUS] <;> omega)); (· decide))
    | ((with_reducible apply Touches.stepBy 0x80000000000002 (touches_State.setFld _ _ _ _)); · decide)
    | ((with_reducible apply Touches.stepBy 0x4000002 (touches_State.pgRelease _)); · decide)
    | ((with_reducible apply Touches.stepBy 0x2018002 (touches_State.bgRelockEnd _)); · decide)
    | ((with_reducible apply Touches.stepBy 0x200000 (touches_State.outsZero _)); · decide)
    | ((with_reducible apply Touches.stepBy 0x13ee42 (touches_State.drainPorts _)); · decide)
    | ((with_reducible apply Touches.stepBy 0x2 (touches_State.clkResult _ _)); · decide)
    | ((with_reducible apply Touches.stepBy 0x200000 (touches_State.updClk _ _)); · decide)
    | ((with_reducible apply Touches.stepBy 0x6842 (touches_State.admRetest _)); · decide)
    | ((with_reducible refine Touches.foldl ?_ ?_))
    | ((intro t b); try dsimp only)
    | split
    | with_reducible refine Touches.ofSnd (by assumption) ?_
    | with_reducible refine Touches.ofFst (by assumption) ?_
    | (with_reducible constructor <;> first | exact fun h => absurd h (by decide) | exact fun _ => rfl | exact fun _ a _ => State.rd_congr (by rfl) a | exact fun h => h.of_eq rfl rfl rfl rfl rfl | exact FusesOnlyBurn.of_eq rfl rfl rfl rfl rfl))

theorem touches_State.wrClkSync (v : Word) (s : State) :
    Touches mRegs s (State.wrClkSync v s) := by
  unfold State.wrClkSync
  (try dsimp only)
  repeat' (first
    | with_reducible exact Touches.refl _ _
    | ((with_reducible apply Touches.stepBy 0x2 (touches_State.wrCodes_hi _ _ _ _ ?hi)); (case hi => first | decide | (simp only [rCLK_MPLL, rCLK_SYNC]; omega) | (split <;> decide) | (split <;> simp only [rCLK_MPLL, rCLK_SYNC] <;> omega)); (· decide))
    | ((with_reducible apply Touches.stepBy 0x2 (touches_State.setFld_hi _ _ _ _ ?hi)); (case hi => first | decide | (simp only [rCLK_MPLL, rCLK_SYNC]; omega) | (split <;> decide) | (split <;> simp only [rCLK_MPLL, rCLK_SYNC] <;> omega)); (· decide))
    | split)

theorem touches_State.syncinEdge (s : State) (same : Bool) :
    Touches (mEvent ||| mClk) s (State.syncinEdge s same) := by
  unfold State.syncinEdge
  (try dsimp only)
  repeat' (first
    | with_reducible exact Touches.refl _ _
    | ((with_reducible apply Touches.stepBy 0x6842 (touches_State.raise _ _ _ _ _)); · decide)
    | ((with_reducible apply Touches.stepBy 0x2 (touches_State.addSat_hi _ _ _ _ ?hi)); (case hi => first | decide | (simp only [rCLK_STATUS, rCLK_SYNC]; omega) | (split <;> decide) | (split <;> simp only [rCLK_STATUS, rCLK_SYNC] <;> omega)); (· decide))
    | ((with_reducible apply Touches.stepBy 0x2 (touches_State.setFld_hi _ _ _ _ ?hi)); (case hi => first | decide | (simp only [rCLK_STATUS, rCLK_SYNC]; omega) | (split <;> decide) | (split <;> simp only [rCLK_STATUS, rCLK_SYNC] <;> omega)); (· decide))
    | ((with_reducible apply Touches.stepBy 0x200000 (touches_State.outsZero _)); · decide)
    | split)

theorem touches_State.wrClkOut (n : Nat) (v : Word) (s : State) :
    Touches mRegs s (State.wrClkOut n v s) := by
  unfold State.wrClkOut
  (try dsimp only)
  repeat' (first
    | with_reducible exact Touches.refl _ _
    | ((with_reducible apply Touches.stepBy 0x2 (touches_State.wrCodes_hi _ _ _ _ ?hi)); (case hi => first | decide | (simp only [rCLK_OUT]; omega) | (split <;> decide) | (split <;> simp only [rCLK_OUT] <;> omega)); (· decide))
    | split)

theorem touches_State.clkOutBeat (s : State) :
    Touches mClk s (State.clkOutBeat s) := by
  unfold State.clkOutBeat
  (try dsimp only)
  repeat' (first
    | with_reducible exact Touches.refl _ _
    | ((with_reducible apply Touches.stepBy 0x200000 (touches_State.updClk _ _)); · decide)
    | ((with_reducible refine Touches.foldl ?_ ?_))
    | ((with_reducible refine Touches.foldlSnd ?_ ?_))
    | ((with_reducible refine Touches.foldlFst ?_ ?_))
    | ((intro t b); try dsimp only)
    | split)

end Sys2Proof.Machine
end

