-- ==== Sys2Proof/Laws/TouchesHost.lean ====
section
/-! SUPPORT. What the operations of the Turf instructions, reset, events, Avenues, host interface, Stoker, network, displays, package and register writes can touch. -/

set_option Elab.async false

namespace Sys2Proof.Machine

/-! ### Machine/TurfCmds.lean -/

theorem touches_execTcRun (c : Fin 32) (v : Word) (s : State) :
    TouchesRes (mEvent ||| mStaged ||| mFreeCtr ||| mStore ||| mCtxs ||| mBillets ||| mBadLines ||| mTurf) s (execTcRun c v s) := by
  unfold execTcRun
  (try dsimp only)
  repeat' (first
    | refine Touches.res ?_
    | with_reducible exact Touches.refl _ _
    | ((with_reducible apply Touches.stepBy 0x4000011ee42 (touches_State.wrTcCtrl _ _ _)); · decide)
    | ((with_reducible apply touches_State.write64 ?_ _ _ _ _ ?_); (· decide); intro t; try dsimp only)
    | ((intro t b); try dsimp only)
    | (cases h; done)
    | cases h
    | split at h
    | (unfold Core.startLoop at h))

theorem touches_execTcAbort (c : Fin 32) (v : Word) (s : State) :
    TouchesRes (mEvent ||| mStaged ||| mFreeCtr ||| mStore ||| mCtxs ||| mBillets ||| mBadLines ||| mTurf) s (execTcAbort c v s) := by
  unfold execTcAbort
  (try dsimp only)
  repeat' (first
    | refine Touches.res ?_
    | with_reducible exact Touches.refl _ _
    | ((with_reducible apply Touches.stepBy 0x4000011ee42 (touches_State.wrTcCtrl _ _ _)); · decide)
    | ((with_reducible apply touches_State.write64 ?_ _ _ _ _ ?_); (· decide); intro t; try dsimp only)
    | ((intro t b); try dsimp only)
    | (cases h; done)
    | cases h
    | split at h
    | (unfold Core.startLoop at h))

theorem touches_execTcPmWrite (c : Fin 32) (a : Fin 2048) (v : BitVec 32) (s : State) :
    TouchesRes (mRegs ||| mTurf) s (execTcPmWrite c a v s) := by
  unfold execTcPmWrite
  (try dsimp only)
  repeat' (first
    | refine Touches.res ?_
    | with_reducible exact Touches.refl _ _
    | ((with_reducible apply Touches.stepBy 0x40000000002 (touches_State.wrPm _ _ _ _)); · decide)
    | split
    | (cases h; done)
    | cases h
    | split at h
    | (unfold Core.startLoop at h))

theorem touches_execTcDmWrite (c : Fin 32) (a : Fin 4096) (v : BitVec 32) (s : State) :
    TouchesRes mTurf s (execTcDmWrite c a v s) := by
  unfold execTcDmWrite
  (try dsimp only)
  repeat' (first
    | refine Touches.res ?_
    | with_reducible exact Touches.refl _ _
    | ((with_reducible apply Touches.stepBy 0x40000000000 (touches_State.wrDm _ _ _ _)); · decide)
    | split
    | (cases h; done)
    | cases h
    | split at h
    | (unfold Core.startLoop at h))

theorem touches_execTcSinWrite (c : Fin 32) (v : Word) (s : State) :
    TouchesRes (mRegs ||| mStaged ||| mTurf) s (execTcSinWrite c v s) := by
  unfold execTcSinWrite
  (try dsimp only)
  repeat' (first
    | refine Touches.res ?_
    | with_reducible exact Touches.refl _ _
    | ((with_reducible apply Touches.stepBy 0x40000000002 (touches_State.wrTcSin _ _ _)); · decide)
    | ((with_reducible apply touches_State.write64 ?_ _ _ _ _ ?_); (· decide); intro t; try dsimp only)
    | ((intro t b); try dsimp only)
    | (cases h; done)
    | cases h
    | split at h
    | (unfold Core.startLoop at h))

theorem touches_execTcMbinWrite (c : Fin 32) (k : Fin 4) (v : Word) (s : State) :
    TouchesRes (mRegs ||| mStaged) s (execTcMbinWrite c k v s) := by
  unfold execTcMbinWrite
  (try dsimp only)
  repeat' (first
    | refine Touches.res ?_
    | with_reducible exact Touches.refl _ _
    | ((with_reducible apply Touches.stepBy 0x2 (touches_State.wrMbin _ _ _ _)); · decide)
    | ((with_reducible apply touches_State.write64 ?_ _ _ _ _ ?_); (· decide); intro t; try dsimp only)
    | ((intro t b); try dsimp only)
    | (cases h; done)
    | cases h
    | split at h
    | (unfold Core.startLoop at h))

theorem touches_execTcMbinPost (c : Fin 32) (v : Word) (s : State) :
    TouchesRes (mRegs ||| mStaged ||| mTurf) s (execTcMbinPost c v s) := by
  unfold execTcMbinPost
  (try dsimp only)
  repeat' (first
    | refine Touches.res ?_
    | with_reducible exact Touches.refl _ _
    | ((with_reducible apply Touches.stepBy 0x40000000002 (touches_State.wrMbinCtrl _ _ _)); · decide)
    | ((with_reducible apply touches_State.write64 ?_ _ _ _ _ ?_); (· decide); intro t; try dsimp only)
    | ((intro t b); try dsimp only)
    | (cases h; done)
    | cases h
    | split at h
    | (unfold Core.startLoop at h))

theorem touches_execTcMboutAck (c : Fin 32) (v : Word) (s : State) :
    TouchesRes (mEvent ||| mStaged ||| mTurf) s (execTcMboutAck c v s) := by
  unfold execTcMboutAck
  (try dsimp only)
  repeat' (first
    | refine Touches.res ?_
    | with_reducible exact Touches.refl _ _
    | ((with_reducible apply Touches.stepBy 0x40000006842 (touches_State.wrMboutCtrl _ _ _)); · decide)
    | ((with_reducible apply touches_State.write64 ?_ _ _ _ _ ?_); (· decide); intro t; try dsimp only)
    | ((intro t b); try dsimp only)
    | (cases h; done)
    | cases h
    | split at h
    | (unfold Core.startLoop at h))

theorem touches_execTcRecordArrival (k : Fin 4) (i : Fin 8) (s : State) :
    TouchesRes (mEvent ||| mReplay ||| mTurf ||| mClusters) s (execTcRecordArrival k i s) := by
  unfold execTcRecordArrival
  (try dsimp only)
  repeat' (first
    | refine Touches.res ?_
    | with_reducible exact Touches.refl _ _
    | ((with_reducible apply Touches.stepBy 0xe0000006842 (touches_State.tcArrival _ _ _)); · decide)
    | ((with_reducible apply touches_State.clocked _ _ ?_); intro t; try dsimp only)
    | ((intro t b); try dsimp only)
    | (cases h; done)
    | cases h
    | split at h
    | (unfold Core.startLoop at h))

theorem touches_execTcClusterReadout (k : Fin 4) (s : State) :
    TouchesRes (mEvent ||| mCtxs ||| mPorts ||| mTurf ||| mClusters) s (execTcClusterReadout k s) := by
  unfold execTcClusterReadout
  (try dsimp only)
  repeat' (first
    | refine Touches.res ?_
    | with_reducible exact Touches.refl _ _
    | ((with_reducible apply Touches.stepBy 0xc000002e842 (touches_State.tcReadout _ _)); · decide)
    | ((with_reducible apply touches_State.clocked _ _ ?_); intro t; try dsimp only)
    | ((intro t b); try dsimp only)
    | (cases h; done)
    | cases h
    | split at h
    | (unfold Core.startLoop at h))

theorem touches_execTcTimerExpiry (c : Fin 32) (s : State) :
    TouchesRes mTurf s (execTcTimerExpiry c s) := by
  unfold execTcTimerExpiry
  (try dsimp only)
  repeat' (first
    | refine Touches.res ?_
    | with_reducible exact Touches.refl _ _
    | ((with_reducible apply Touches.stepBy 0x40000000000 (touches_State.updTcore _ _ _)); · decide)
    | split
    | (cases h; done)
    | cases h
    | split at h
    | (unfold Core.startLoop at h))

theorem touches_execTcWatchdog (c : Fin 32) (s : State) :
    TouchesRes (mEvent ||| mFreeCtr ||| mStore ||| mCtxs ||| mBillets ||| mBadLines ||| mTurf) s (execTcWatchdog c s) := by
  unfold execTcWatchdog
  (try dsimp only)
  repeat' (first
    | refine Touches.res ?_
    | with_reducible exact Touches.refl _ _
    | ((with_reducible apply Touches.stepBy 0x4000011ee42 (touches_State.tcAbort _ _ _)); · decide)
    | ((with_reducible apply Touches.stepBy 0x40000000000 (touches_State.updTcore _ _ _)); · decide)
    | split
    | (cases h; done)
    | cases h
    | split at h
    | (unfold Core.startLoop at h))

theorem touches_execTcInterrupt (c : Fin 32) (s : State) :
    TouchesRes (mEvent ||| mFreeCtr ||| mStore ||| mCtxs ||| mBillets ||| mBadLines ||| mTurf) s (execTcInterrupt c s) := by
  unfold execTcInterrupt
  (try dsimp only)
  repeat' (first
    | refine Touches.res ?_
    | with_reducible exact Touches.refl _ _
    | ((with_reducible apply Touches.stepBy 0x4000011ee42 (touches_State.tcInterrupt _ _)); · decide)
    | (cases h; done)
    | cases h
    | split at h
    | (unfold Core.startLoop at h))

theorem touches_execTNop (c : Fin 32) (s : State) :
    TouchesRes (mEvent ||| mFreeCtr ||| mStore ||| mCtxs ||| mBillets ||| mBadLines ||| mTurf) s (execTNop c s) := by
  unfold execTNop
  (try dsimp only)
  repeat' (first
    | refine Touches.res ?_
    | with_reducible exact Touches.refl _ _
    | ((with_reducible apply Touches.stepBy 0x4000011ee42 (touches_State.issuePlain _ _ _)); · decide)
    | (cases h; done)
    | cases h
    | split at h
    | (unfold Core.startLoop at h))

theorem touches_execTLdi (c : Fin 32) (d : Fin 16) (imm : BitVec 16) (s : State) :
    TouchesRes (mEvent ||| mFreeCtr ||| mStore ||| mCtxs ||| mBillets ||| mBadLines ||| mTurf) s (execTLdi c d imm s) := by
  unfold execTLdi
  (try dsimp only)
  repeat' (first
    | refine Touches.res ?_
    | with_reducible exact Touches.refl _ _
    | ((with_reducible apply Touches.stepBy 0x4000011ee42 (touches_State.issuePlain _ _ _)); · decide)
    | (cases h; done)
    | cases h
    | split at h
    | (unfold Core.startLoop at h))

theorem touches_execTLd (c : Fin 32) (d : Fin 16) (p : Fin 8) (am : Fin 4) (s : State) :
    TouchesRes (mEvent ||| mFreeCtr ||| mStore ||| mCtxs ||| mBillets ||| mBadLines ||| mTurf) s (execTLd c d p am s) := by
  unfold execTLd
  (try dsimp only)
  repeat' (first
    | refine Touches.res ?_
    | with_reducible exact Touches.refl _ _
    | ((with_reducible apply Touches.stepBy 0x4000011ee42 (touches_State.issuePlain _ _ _)); · decide)
    | (cases h; done)
    | cases h
    | split at h
    | (unfold Core.startLoop at h))

theorem touches_execTSt (c : Fin 32) (d : Fin 16) (p : Fin 8) (am : Fin 4) (s : State) :
    TouchesRes (mEvent ||| mFreeCtr ||| mStore ||| mCtxs ||| mBillets ||| mBadLines ||| mTurf) s (execTSt c d p am s) := by
  unfold execTSt
  (try dsimp only)
  repeat' (first
    | refine Touches.res ?_
    | with_reducible exact Touches.refl _ _
    | ((with_reducible apply Touches.stepBy 0x4000011ee42 (touches_State.issuePlain _ _ _)); · decide)
    | (cases h; done)
    | cases h
    | split at h
    | (unfold Core.startLoop at h))

theorem touches_execTMov (c : Fin 32) (d a : Fin 16) (s : State) :
    TouchesRes (mEvent ||| mFreeCtr ||| mStore ||| mCtxs ||| mBillets ||| mBadLines ||| mTurf) s (execTMov c d a s) := by
  unfold execTMov
  (try dsimp only)
  repeat' (first
    | refine Touches.res ?_
    | with_reducible exact Touches.refl _ _
    | ((with_reducible apply Touches.stepBy 0x4000011ee42 (touches_State.issuePlain _ _ _)); · decide)
    | (cases h; done)
    | cases h
    | split at h
    | (unfold Core.startLoop at h))

theorem touches_execTMovcFromCr (c : Fin 32) (d : Fin 16) (r : Fin 64) (s : State) :
    TouchesRes (mEvent ||| mFreeCtr ||| mStore ||| mCtxs ||| mBillets ||| mBadLines ||| mTurf) s (execTMovcFromCr c d r s) := by
  unfold execTMovcFromCr
  (try dsimp only)
  repeat' (first
    | refine Touches.res ?_
    | with_reducible exact Touches.refl _ _
    | ((with_reducible apply Touches.stepBy 0x4000011ee42 (touches_State.issuePlain _ _ _)); · decide)
    | (cases h; done)
    | cases h
    | split at h
    | (unfold Core.startLoop at h))

theorem touches_execTMovcToCr (c : Fin 32) (r : Fin 64) (d : Fin 16) (s : State) :
    TouchesRes (mEvent ||| mFreeCtr ||| mStore ||| mCtxs ||| mBillets ||| mBadLines ||| mTurf) s (execTMovcToCr c r d s) := by
  unfold execTMovcToCr
  (try dsimp only)
  repeat' (first
    | refine Touches.res ?_
    | with_reducible exact Touches.refl _ _
    | ((with_reducible apply Touches.stepBy 0x4000011ee42 (touches_State.issuePlain _ _ _)); · decide)
    | (cases h; done)
    | cases h
    | split at h
    | (unfold Core.startLoop at h))

theorem touches_execTLdc (c : Fin 32) (r : Fin 64) (imm : BitVec 16) (s : State) :
    TouchesRes (mEvent ||| mFreeCtr ||| mStore ||| mCtxs ||| mBillets ||| mBadLines ||| mTurf) s (execTLdc c r imm s) := by
  unfold execTLdc
  (try dsimp only)
  repeat' (first
    | refine Touches.res ?_
    | with_reducible exact Touches.refl _ _
    | ((with_reducible apply Touches.stepBy 0x4000011ee42 (touches_State.issuePlain _ _ _)); · decide)
    | (cases h; done)
    | cases h
    | split at h
    | (unfold Core.startLoop at h))

theorem touches_execTAdd (c : Fin 32) (d a b : Fin 16) (s : State) :
    TouchesRes (mEvent ||| mFreeCtr ||| mStore ||| mCtxs ||| mBillets ||| mBadLines ||| mTurf) s (execTAdd c d a b s) := by
  unfold execTAdd
  (try dsimp only)
  repeat' (first
    | refine Touches.res ?_
    | with_reducible exact Touches.refl _ _
    | ((with_reducible apply Touches.stepBy 0x4000011ee42 (touches_State.issuePlain _ _ _)); · decide)
    | (cases h; done)
    | cases h
    | split at h
    | (unfold Core.startLoop at h))

theorem touches_execTSub (c : Fin 32) (d a b : Fin 16) (s : State) :
    TouchesRes (mEvent ||| mFreeCtr ||| mStore ||| mCtxs ||| mBillets ||| mBadLines ||| mTurf) s (execTSub c d a b s) := by
  unfold execTSub
  (try dsimp only)
  repeat' (first
    | refine Touches.res ?_
    | with_reducible exact Touches.refl _ _
    | ((with_reducible apply Touches.stepBy 0x4000011ee42 (touches_State.issuePlain _ _ _)); · decide)
    | (cases h; done)
    | cases h
    | split at h
    | (unfold Core.startLoop at h))

theorem touches_execTAnd (c : Fin 32) (d a b : Fin 16) (s : State) :
    TouchesRes (mEvent ||| mFreeCtr ||| mStore ||| mCtxs ||| mBillets ||| mBadLines ||| mTurf) s (execTAnd c d a b s) := by
  unfold execTAnd
  (try dsimp only)
  repeat' (first
    | refine Touches.res ?_
    | with_reducible exact Touches.refl _ _
    | ((with_reducible apply Touches.stepBy 0x4000011ee42 (touches_State.issuePlain _ _ _)); · decide)
    | (cases h; done)
    | cases h
    | split at h
    | (unfold Core.startLoop at h))

theorem touches_execTOr (c : Fin 32) (d a b : Fin 16) (s : State) :
    TouchesRes (mEvent ||| mFreeCtr ||| mStore ||| mCtxs ||| mBillets ||| mBadLines ||| mTurf) s (execTOr c d a b s) := by
  unfold execTOr
  (try dsimp only)
  repeat' (first
    | refine Touches.res ?_
    | with_reducible exact Touches.refl _ _
    | ((with_reducible apply Touches.stepBy 0x4000011ee42 (touches_State.issuePlain _ _ _)); · decide)
    | (cases h; done)
    | cases h
    | split at h
    | (unfold Core.startLoop at h))

theorem touches_execTXor (c : Fin 32) (d a b : Fin 16) (s : State) :
    TouchesRes (mEvent ||| mFreeCtr ||| mStore ||| mCtxs ||| mBillets ||| mBadLines ||| mTurf) s (execTXor c d a b s) := by
  unfold execTXor
  (try dsimp only)
  repeat' (first
    | refine Touches.res ?_
    | with_reducible exact Touches.refl _ _
    | ((with_reducible apply Touches.stepBy 0x4000011ee42 (touches_State.issuePlain _ _ _)); · decide)
    | (cases h; done)
    | cases h
    | split at h
    | (unfold Core.startLoop at h))

theorem touches_execTAddi (c : Fin 32) (d : Fin 16) (imm : BitVec 16) (s : State) :
    TouchesRes (mEvent ||| mFreeCtr ||| mStore ||| mCtxs ||| mBillets ||| mBadLines ||| mTurf) s (execTAddi c d imm s) := by
  unfold execTAddi
  (try dsimp only)
  repeat' (first
    | refine Touches.res ?_
    | with_reducible exact Touches.refl _ _
    | ((with_reducible apply Touches.stepBy 0x4000011ee42 (touches_State.issuePlain _ _ _)); · decide)
    | (cases h; done)
    | cases h
    | split at h
    | (unfold Core.startLoop at h))

theorem touches_execTAsh (c : Fin 32) (d a b : Fin 16) (s : State) :
    TouchesRes (mEvent ||| mFreeCtr ||| mStore ||| mCtxs ||| mBillets ||| mBadLines ||| mTurf) s (execTAsh c d a b s) := by
  unfold execTAsh
  (try dsimp only)
  repeat' (first
    | refine Touches.res ?_
    | with_reducible exact Touches.refl _ _
    | ((with_reducible apply Touches.stepBy 0x4000011ee42 (touches_State.issuePlain _ _ _)); · decide)
    | (cases h; done)
    | cases h
    | split at h
    | (unfold Core.startLoop at h))

theorem touches_execTAshi (c : Fin 32) (d a : Fin 16) (n : BitVec 5) (s : State) :
    TouchesRes (mEvent ||| mFreeCtr ||| mStore ||| mCtxs ||| mBillets ||| mBadLines ||| mTurf) s (execTAshi c d a n s) := by
  unfold execTAshi
  (try dsimp only)
  repeat' (first
    | refine Touches.res ?_
    | with_reducible exact Touches.refl _ _
    | ((with_reducible apply Touches.stepBy 0x4000011ee42 (touches_State.issuePlain _ _ _)); · decide)
    | (cases h; done)
    | cases h
    | split at h
    | (unfold Core.startLoop at h))

theorem touches_execTCmp (c : Fin 32) (a b : Fin 16) (s : State) :
    TouchesRes (mEvent ||| mFreeCtr ||| mStore ||| mCtxs ||| mBillets ||| mBadLines ||| mTurf) s (execTCmp c a b s) := by
  unfold execTCmp
  (try dsimp only)
  repeat' (first
    | refine Touches.res ?_
    | with_reducible exact Touches.refl _ _
    | ((with_reducible apply Touches.stepBy 0x4000011ee42 (touches_State.issuePlain _ _ _)); · decide)
    | (cases h; done)
    | cases h
    | split at h
    | (unfold Core.startLoop at h))

theorem touches_execTAbs (c : Fin 32) (d a : Fin 16) (s : State) :
    TouchesRes (mEvent ||| mFreeCtr ||| mStore ||| mCtxs ||| mBillets ||| mBadLines ||| mTurf) s (execTAbs c d a s) := by
  unfold execTAbs
  (try dsimp only)
  repeat' (first
    | refine Touches.res ?_
    | with_reducible exact Touches.refl _ _
    | ((with_reducible apply Touches.stepBy 0x4000011ee42 (touches_State.issuePlain _ _ _)); · decide)
    | split
    | (cases h; done)
    | cases h
    | split at h
    | (unfold Core.startLoop at h))

theorem touches_execTMovm (c : Fin 32) (px : Fin 8) (amx : Fin 4) (py : Fin 8) (amy : Fin 4) (s : State) :
    TouchesRes (mEvent ||| mFreeCtr ||| mStore ||| mCtxs ||| mBillets ||| mBadLines ||| mTurf) s (execTMovm c px amx py amy s) := by
  unfold execTMovm
  (try dsimp only)
  repeat' (first
    | refine Touches.res ?_
    | with_reducible exact Touches.refl _ _
    | ((with_reducible apply Touches.stepBy 0x4000011ee42 (touches_State.issuePlain _ _ _)); · decide)
    | (cases h; done)
    | cases h
    | split at h
    | (unfold Core.startLoop at h))

theorem touches_execTMpy (c : Fin 32) (a : Fin 2) (dx dy : Fin 16) (s : State) :
    TouchesRes (mEvent ||| mFreeCtr ||| mStore ||| mCtxs ||| mBillets ||| mBadLines ||| mTurf) s (execTMpy c a dx dy s) := by
  unfold execTMpy
  (try dsimp only)
  repeat' (first
    | refine Touches.res ?_
    | with_reducible exact Touches.refl _ _
    | ((with_reducible apply Touches.stepBy 0x4000011ee42 (touches_State.issuePlain _ _ _)); · decide)
    | (cases h; done)
    | cases h
    | split at h
    | (unfold Core.startLoop at h))

theorem touches_execTMac (c : Fin 32) (a : Fin 2) (dx dy : Fin 16) (s : State) :
    TouchesRes (mEvent ||| mFreeCtr ||| mStore ||| mCtxs ||| mBillets ||| mBadLines ||| mTurf) s (execTMac c a dx dy s) := by
  unfold execTMac
  (try dsimp only)
  repeat' (first
    | refine Touches.res ?_
    | with_reducible exact Touches.refl _ _
    | ((with_reducible apply Touches.stepBy 0x4000011ee42 (touches_State.issuePlain _ _ _)); · decide)
    | (cases h; done)
    | cases h
    | split at h
    | (unfold Core.startLoop at h))

theorem touches_execTMsu (c : Fin 32) (a : Fin 2) (dx dy : Fin 16) (s : State) :
    TouchesRes (mEvent ||| mFreeCtr ||| mStore ||| mCtxs ||| mBillets ||| mBadLines ||| mTurf) s (execTMsu c a dx dy s) := by
  unfold execTMsu
  (try dsimp only)
  repeat' (first
    | refine Touches.res ?_
    | with_reducible exact Touches.refl _ _
    | ((with_reducible apply Touches.stepBy 0x4000011ee42 (touches_State.issuePlain _ _ _)); · decide)
    | (cases h; done)
    | cases h
    | split at h
    | (unfold Core.startLoop at h))

theorem touches_execTMacm (c : Fin 32) (a : Fin 2) (px : Fin 8) (amx : Fin 4) (py : Fin 8) (amy : Fin 4) (s : State) :
    TouchesRes (mEvent ||| mFreeCtr ||| mStore ||| mCtxs ||| mBillets ||| mBadLines ||| mTurf) s (execTMacm c a px amx py amy s) := by
  unfold execTMacm
  (try dsimp only)
  repeat' (first
    | refine Touches.res ?_
    | with_reducible exact Touches.refl _ _
    | ((with_reducible apply Touches.stepBy 0x4000011ee42 (touches_State.issuePlain _ _ _)); · decide)
    | (cases h; done)
    | cases h
    | split at h
    | (unfold Core.startLoop at h))

theorem touches_execTFtap (c : Fin 32) (a : Fin 2) (px : Fin 8) (amx : Fin 4) (py : Fin 8) (amy : Fin 4) (s : State) :
    TouchesRes (mEvent ||| mFreeCtr ||| mStore ||| mCtxs ||| mBillets ||| mBadLines ||| mTurf) s (execTFtap c a px amx py amy s) := by
  unfold execTFtap
  (try dsimp only)
  repeat' (first
    | refine Touches.res ?_
    | with_reducible exact Touches.refl _ _
    | ((with_reducible apply Touches.stepBy 0x4000011ee42 (touches_State.issuePlain _ _ _)); · decide)
    | (cases h; done)
    | cases h
    | split at h
    | (unfold Core.startLoop at h))

theorem touches_execTAdda (c : Fin 32) (a : Fin 2) (dx : Fin 16) (sh : Fin 25) (s : State) :
    TouchesRes (mEvent ||| mFreeCtr ||| mStore ||| mCtxs ||| mBillets ||| mBadLines ||| mTurf) s (execTAdda c a dx sh s) := by
  unfold execTAdda
  (try dsimp only)
  repeat' (first
    | refine Touches.res ?_
    | with_reducible exact Touches.refl _ _
    | ((with_reducible apply Touches.stepBy 0x4000011ee42 (touches_State.issuePlain _ _ _)); · decide)
    | (cases h; done)
    | cases h
    | split at h
    | (unfold Core.startLoop at h))

theorem touches_execTClra (c : Fin 32) (a : Fin 2) (s : State) :
    TouchesRes (mEvent ||| mFreeCtr ||| mStore ||| mCtxs ||| mBillets ||| mBadLines ||| mTurf) s (execTClra c a s) := by
  unfold execTClra
  (try dsimp only)
  repeat' (first
    | refine Touches.res ?_
    | with_reducible exact Touches.refl _ _
    | ((with_reducible apply Touches.stepBy 0x4000011ee42 (touches_State.issuePlain _ _ _)); · decide)
    | (cases h; done)
    | cases h
    | split at h
    | (unfold Core.startLoop at h))

theorem touches_execTAcp (c : Fin 32) (a : Fin 2) (s : State) :
    TouchesRes (mEvent ||| mFreeCtr ||| mStore ||| mCtxs ||| mBillets ||| mBadLines ||| mTurf) s (execTAcp c a s) := by
  unfold execTAcp
  (try dsimp only)
  repeat' (first
    | refine Touches.res ?_
    | with_reducible exact Touches.refl _ _
    | ((with_reducible apply Touches.stepBy 0x4000011ee42 (touches_State.issuePlain _ _ _)); · decide)
    | (cases h; done)
    | cases h
    | split at h
    | (unfold Core.startLoop at h))

theorem touches_execTExt (c : Fin 32) (d : Fin 16) (a : Fin 2) (n : Fin 25) (s : State) :
    TouchesRes (mEvent ||| mFreeCtr ||| mStore ||| mCtxs ||| mBillets ||| mBadLines ||| mTurf) s (execTExt c d a n s) := by
  unfold execTExt
  (try dsimp only)
  repeat' (first
    | refine Touches.res ?_
    | with_reducible exact Touches.refl _ _
    | ((with_reducible apply Touches.stepBy 0x4000011ee42 (touches_State.issuePlain _ _ _)); · decide)
    | (cases h; done)
    | cases h
    | split at h
    | (unfold Core.startLoop at h))

theorem touches_execTSha (c : Fin 32) (a : Fin 2) (n : BitVec 6) (s : State) :
    TouchesRes (mEvent ||| mFreeCtr ||| mStore ||| mCtxs ||| mBillets ||| mBadLines ||| mTurf) s (execTSha c a n s) := by
  unfold execTSha
  (try dsimp only)
  repeat' (first
    | refine Touches.res ?_
    | with_reducible exact Touches.refl _ _
    | ((with_reducible apply Touches.stepBy 0x4000011ee42 (touches_State.issuePlain _ _ _)); · decide)
    | split
    | (cases h; done)
    | cases h
    | split at h
    | (unfold Core.startLoop at h))

theorem touches_execTExpd (c : Fin 32) (d a : Fin 16) (s : State) :
    TouchesRes (mEvent ||| mFreeCtr ||| mStore ||| mCtxs ||| mBillets ||| mBadLines ||| mTurf) s (execTExpd c d a s) := by
  unfold execTExpd
  (try dsimp only)
  repeat' (first
    | refine Touches.res ?_
    | with_reducible exact Touches.refl _ _
    | ((with_reducible apply Touches.stepBy 0x4000011ee42 (touches_State.issuePlain _ _ _)); · decide)
    | (cases h; done)
    | cases h
    | split at h
    | (unfold Core.startLoop at h))

theorem touches_execTExpa (c : Fin 32) (d : Fin 16) (a : Fin 2) (s : State) :
    TouchesRes (mEvent ||| mFreeCtr ||| mStore ||| mCtxs ||| mBillets ||| mBadLines ||| mTurf) s (execTExpa c d a s) := by
  unfold execTExpa
  (try dsimp only)
  repeat' (first
    | refine Touches.res ?_
    | with_reducible exact Touches.refl _ _
    | ((with_reducible apply Touches.stepBy 0x4000011ee42 (touches_State.issuePlain _ _ _)); · decide)
    | (cases h; done)
    | cases h
    | split at h
    | (unfold Core.startLoop at h))

theorem touches_execTBexp (c : Fin 32) (d : Fin 16) (p : Fin 8) (am : Fin 4) (s : State) :
    TouchesRes (mEvent ||| mFreeCtr ||| mStore ||| mCtxs ||| mBillets ||| mBadLines ||| mTurf) s (execTBexp c d p am s) := by
  unfold execTBexp
  (try dsimp only)
  repeat' (first
    | refine Touches.res ?_
    | with_reducible exact Touches.refl _ _
    | ((with_reducible apply Touches.stepBy 0x4000011ee42 (touches_State.issuePlain _ _ _)); · decide)
    | (cases h; done)
    | cases h
    | split at h
    | (unfold Core.startLoop at h))

theorem touches_execTBscl (c : Fin 32) (p : Fin 8) (am : Fin 4) (d : Fin 16) (s : State) :
    TouchesRes (mEvent ||| mFreeCtr ||| mStore ||| mCtxs ||| mBillets ||| mBadLines ||| mTurf) s (execTBscl c p am d s) := by
  unfold execTBscl
  (try dsimp only)
  repeat' (first
    | refine Touches.res ?_
    | with_reducible exact Touches.refl _ _
    | ((with_reducible apply Touches.stepBy 0x4000011ee42 (touches_State.issuePlain _ _ _)); · decide)
    | (cases h; done)
    | cases h
    | split at h
    | (unfold Core.startLoop at h))

theorem touches_execTB (c : Fin 32) (cond : Fin 16) (t : Fin 2048) (s : State) :
    TouchesRes (mEvent ||| mFreeCtr ||| mStore ||| mCtxs ||| mBillets ||| mBadLines ||| mTurf) s (execTB c cond t s) := by
  unfold execTB
  (try dsimp only)
  repeat' (first
    | refine Touches.res ?_
    | with_reducible exact Touches.refl _ _
    | ((with_reducible apply touches_State.issue ?_ _ _ _ _ ?_); (· decide); intro x y t h; try dsimp only)
    | ((with_reducible apply Touches.stepBy 0x11ee42 (touches_State.fault _ _ _ _ _ _ _)); · decide)
    | ((intro t b); try dsimp only)
    | split
    | (cases h; done)
    | cases h
    | split at h
    | (unfold Core.startLoop at h))

theorem touches_execTCall (c : Fin 32) (t : Fin 2048) (s : State) :
    TouchesRes (mEvent ||| mFreeCtr ||| mStore ||| mCtxs ||| mBillets ||| mBadLines ||| mTurf) s (execTCall c t s) := by
  unfold execTCall
  (try dsimp only)
  repeat' (first
    | refine Touches.res ?_
    | with_reducible exact Touches.refl _ _
    | ((with_reducible apply touches_State.issue ?_ _ _ _ _ ?_); (· decide); intro x y t h; try dsimp only)
    | ((with_reducible apply Touches.stepBy 0x11ee42 (touches_State.fault _ _ _ _ _ _ _)); · decide)
    | ((intro t b); try dsimp only)
    | split
    | (cases h; done)
    | cases h
    | split at h
    | (unfold Core.startLoop at h))

theorem touches_execTRet (c : Fin 32) (s : State) :
    TouchesRes (mEvent ||| mFreeCtr ||| mStore ||| mCtxs ||| mBillets ||| mBadLines ||| mTurf) s (execTRet c s) := by
  unfold execTRet
  (try dsimp only)
  repeat' (first
    | refine Touches.res ?_
    | with_reducible exact Touches.refl _ _
    | ((with_reducible apply touches_State.issue ?_ _ _ _ _ ?_); (· decide); intro x y t h; try dsimp only)
    | ((with_reducible apply Touches.stepBy 0x11ee42 (touches_State.fault _ _ _ _ _ _ _)); · decide)
    | ((intro t b); try dsimp only)
    | split
    | with_reducible refine Touches.ofSnd (by assumption) ?_
    | with_reducible refine Touches.ofFst (by assumption) ?_
    | (cases h; done)
    | cases h
    | split at h
    | (unfold Core.startLoop at h))

theorem touches_execTReti (c : Fin 32) (s : State) :
    TouchesRes (mEvent ||| mFreeCtr ||| mStore ||| mCtxs ||| mBillets ||| mBadLines ||| mTurf) s (execTReti c s) := by
  unfold execTReti
  (try dsimp only)
  repeat' (first
    | refine Touches.res ?_
    | with_reducible exact Touches.refl _ _
    | ((with_reducible apply touches_State.issue ?_ _ _ _ _ ?_); (· decide); intro x y t h; try dsimp only)
    | ((with_reducible apply Touches.stepBy 0x11ee42 (touches_State.fault _ _ _ _ _ _ _)); · decide)
    | ((intro t b); try dsimp only)
    | split
    | with_reducible refine Touches.ofSnd (by assumption) ?_
    | with_reducible refine Touches.ofFst (by assumption) ?_
    | (cases h; done)
    | cases h
    | split at h
    | (unfold Core.startLoop at h))

theorem touches_execTRpt (c : Fin 32) (n1 : Fin 1024) (s : State) :
    TouchesRes (mEvent ||| mFreeCtr ||| mStore ||| mCtxs ||| mBillets ||| mBadLines ||| mTurf) s (execTRpt c n1 s) := by
  unfold execTRpt
  (try dsimp only)
  repeat' (first
    | refine Touches.res ?_
    | with_reducible exact Touches.refl _ _
    | ((with_reducible apply touches_State.issue ?_ _ _ _ _ ?_); (· decide); intro x y t h; try dsimp only)
    | ((intro t b); try dsimp only)
    | (cases h; done)
    | cases h
    | split at h
    | (unfold Core.startLoop at h))

theorem touches_execTRptd (c : Fin 32) (a : Fin 16) (s : State) :
    TouchesRes (mEvent ||| mFreeCtr ||| mStore ||| mCtxs ||| mBillets ||| mBadLines ||| mTurf) s (execTRptd c a s) := by
  unfold execTRptd
  (try dsimp only)
  repeat' (first
    | refine Touches.res ?_
    | with_reducible exact Touches.refl _ _
    | ((with_reducible apply touches_State.issue ?_ _ _ _ _ ?_); (· decide); intro x y t h; try dsimp only)
    | ((with_reducible apply Touches.stepBy 0x11ee42 (touches_State.fault _ _ _ _ _ _ _)); · decide)
    | ((intro t b); try dsimp only)
    | split
    | (cases h; done)
    | cases h
    | split at h
    | (unfold Core.startLoop at h))

theorem touches_execTLoop (c : Fin 32) (n : Fin 32768) (t : Fin 2048) (s : State) :
    TouchesRes (mEvent ||| mFreeCtr ||| mStore ||| mCtxs ||| mBillets ||| mBadLines ||| mTurf) s (execTLoop c n t s) := by
  unfold execTLoop
  (try dsimp only)
  repeat' (first
    | refine Touches.res ?_
    | with_reducible exact Touches.refl _ _
    | ((with_reducible apply touches_State.issue ?_ _ _ _ _ ?_); (· decide); intro x y t h; try dsimp only)
    | ((intro t b); try dsimp only)
    | (cases h; done)
    | cases h
    | split at h
    | (unfold Core.startLoop at h))

theorem touches_execTLoopd (c : Fin 32) (a : Fin 16) (t : Fin 2048) (s : State) :
    TouchesRes (mEvent ||| mFreeCtr ||| mStore ||| mCtxs ||| mBillets ||| mBadLines ||| mTurf) s (execTLoopd c a t s) := by
  unfold execTLoopd
  (try dsimp only)
  repeat' (first
    | refine Touches.res ?_
    | with_reducible exact Touches.refl _ _
    | ((with_reducible apply touches_State.issue ?_ _ _ _ _ ?_); (· decide); intro x y t h; try dsimp only)
    | ((intro t b); try dsimp only)
    | (cases h; done)
    | cases h
    | split at h
    | (unfold Core.startLoop at h))

theorem touches_execTHalt (c : Fin 32) (s : State) :
    TouchesRes (mEvent ||| mFreeCtr ||| mStore ||| mCtxs ||| mBillets ||| mBadLines ||| mTurf) s (execTHalt c s) := by
  unfold execTHalt
  (try dsimp only)
  repeat' (first
    | refine Touches.res ?_
    | with_reducible exact Touches.refl _ _
    | ((with_reducible apply touches_State.issue ?_ _ _ _ _ ?_); (· decide); intro x y t h; try dsimp only)
    | ((intro t b); try dsimp only)
    | (cases h; done)
    | cases h
    | split at h
    | (unfold Core.startLoop at h))

theorem touches_execTIdle (c : Fin 32) (s : State) :
    TouchesRes (mEvent ||| mFreeCtr ||| mStore ||| mCtxs ||| mBillets ||| mBadLines ||| mTurf) s (execTIdle c s) := by
  unfold execTIdle
  (try dsimp only)
  repeat' (first
    | refine Touches.res ?_
    | with_reducible exact Touches.refl _ _
    | ((with_reducible apply touches_State.issue ?_ _ _ _ _ ?_); (· decide); intro x y t h; try dsimp only)
    | ((intro t b); try dsimp only)
    | (cases h; done)
    | cases h
    | split at h
    | (unfold Core.startLoop at h))

theorem touches_execTGetr (c : Fin 32) (p : Fin 8) (s : State) :
    TouchesRes (mEvent ||| mFreeCtr ||| mStore ||| mCtxs ||| mBillets ||| mBadLines ||| mTurf) s (execTGetr c p s) := by
  unfold execTGetr
  (try dsimp only)
  repeat' (first
    | refine Touches.res ?_
    | with_reducible exact Touches.refl _ _
    | ((with_reducible apply touches_State.issue ?_ _ _ _ _ ?_); (· decide); intro x y t h; try dsimp only)
    | ((intro t b); try dsimp only)
    | split
    | with_reducible refine Touches.ofSnd (by assumption) ?_
    | with_reducible refine Touches.ofFst (by assumption) ?_
    | (cases h; done)
    | cases h
    | split at h
    | (unfold Core.startLoop at h))

theorem touches_execTRelr (c : Fin 32) (s : State) :
    TouchesRes (mEvent ||| mFreeCtr ||| mStore ||| mCtxs ||| mBillets ||| mBadLines ||| mTurf) s (execTRelr c s) := by
  unfold execTRelr
  (try dsimp only)
  repeat' (first
    | refine Touches.res ?_
    | with_reducible exact Touches.refl _ _
    | ((with_reducible apply touches_State.issue ?_ _ _ _ _ ?_); (· decide); intro x y t h; try dsimp only)
    | ((intro t b); try dsimp only)
    | split
    | with_reducible refine Touches.ofSnd (by assumption) ?_
    | with_reducible refine Touches.ofFst (by assumption) ?_
    | (cases h; done)
    | cases h
    | split at h
    | (unfold Core.startLoop at h))

theorem touches_execTSend (c : Fin 32) (p : Fin 8) (r : Fin 4) (s : State) :
    TouchesRes (mEvent ||| mFreeCtr ||| mStore ||| mCtxs ||| mBillets ||| mBadLines ||| mTurf) s (execTSend c p r s) := by
  unfold execTSend
  (try dsimp only)
  repeat' (first
    | refine Touches.res ?_
    | with_reducible exact Touches.refl _ _
    | ((with_reducible apply touches_State.issue ?_ _ _ _ _ ?_); (· decide); intro x y t h; try dsimp only)
    | ((with_reducible apply Touches.stepBy 0x11ee42 (touches_State.fault _ _ _ _ _ _ _)); · decide)
    | ((with_reducible apply Touches.stepBy 0x40 (touches_State.send _ _)); · decide)
    | ((intro t b); try dsimp only)
    | split
    | (cases h; done)
    | cases h
    | split at h
    | (unfold Core.startLoop at h))

theorem touches_execTSwait (c : Fin 32) (s : State) :
    TouchesRes (mEvent ||| mFreeCtr ||| mStore ||| mCtxs ||| mBillets ||| mBadLines ||| mTurf) s (execTSwait c s) := by
  unfold execTSwait
  (try dsimp only)
  repeat' (first
    | refine Touches.res ?_
    | with_reducible exact Touches.refl _ _
    | ((with_reducible apply touches_State.issue ?_ _ _ _ _ ?_); (· decide); intro x y t h; try dsimp only)
    | ((intro t b); try dsimp only)
    | split
    | (cases h; done)
    | cases h
    | split at h
    | (unfold Core.startLoop at h))

theorem touches_execTMbr (c : Fin 32) (d w : Fin 16) (s : State) :
    TouchesRes (mEvent ||| mFreeCtr ||| mStore ||| mCtxs ||| mBillets ||| mBadLines ||| mTurf) s (execTMbr c d w s) := by
  unfold execTMbr
  (try dsimp only)
  repeat' (first
    | refine Touches.res ?_
    | with_reducible exact Touches.refl _ _
    | ((with_reducible apply touches_State.issue ?_ _ _ _ _ ?_); (· decide); intro x y t h; try dsimp only)
    | ((intro t b); try dsimp only)
    | (cases h; done)
    | cases h
    | split at h
    | (unfold Core.startLoop at h))

theorem touches_execTMbw (c : Fin 32) (w d : Fin 16) (s : State) :
    TouchesRes (mEvent ||| mFreeCtr ||| mStore ||| mCtxs ||| mBillets ||| mBadLines ||| mTurf) s (execTMbw c w d s) := by
  unfold execTMbw
  (try dsimp only)
  repeat' (first
    | refine Touches.res ?_
    | with_reducible exact Touches.refl _ _
    | ((with_reducible apply touches_State.issue ?_ _ _ _ _ ?_); (· decide); intro x y t h; try dsimp only)
    | ((with_reducible apply Touches.stepBy 0x2 (touches_State.setFld_hi _ _ _ _ ?hi)); (case hi => first | decide | (simp only [rTC_MBOUT]; omega) | (split <;> decide) | (split <;> simp only [rTC_MBOUT] <;> omega)); (· decide))
    | ((intro t b); try dsimp only)
    | (cases h; done)
    | cases h
    | split at h
    | (unfold Core.startLoop at h))

theorem touches_execTMback (c : Fin 32) (s : State) :
    TouchesRes (mEvent ||| mFreeCtr ||| mStore ||| mCtxs ||| mBillets ||| mBadLines ||| mTurf) s (execTMback c s) := by
  unfold execTMback
  (try dsimp only)
  repeat' (first
    | refine Touches.res ?_
    | with_reducible exact Touches.refl _ _
    | ((with_reducible apply touches_State.issue ?_ _ _ _ _ ?_); (· decide); intro x y t h; try dsimp only)
    | ((with_reducible apply Touches.stepBy 0x2 (touches_State.setFld_hi _ _ _ _ ?hi)); (case hi => first | decide | (simp only [rTC_MBIN_CTRL]; omega) | (split <;> decide) | (split <;> simp only [rTC_MBIN_CTRL] <;> omega)); (· decide))
    | ((intro t b); try dsimp only)
    | (cases h; done)
    | cases h
    | split at h
    | (unfold Core.startLoop at h))

theorem touches_execTMbpost (c : Fin 32) (s : State) :
    TouchesRes (mEvent ||| mFreeCtr ||| mStore ||| mCtxs ||| mBillets ||| mBadLines ||| mTurf) s (execTMbpost c s) := by
  unfold execTMbpost
  (try dsimp only)
  repeat' (first
    | refine Touches.res ?_
    | with_reducible exact Touches.refl _ _
    | ((with_reducible apply Touches.stepBy 0x6842 (touches_State.mbPost _ _)); · decide)
    | ((with_reducible apply touches_State.issue ?_ _ _ _ _ ?_); (· decide); intro x y t h; try dsimp only)
    | ((intro t b); try dsimp only)
    | split
    | (cases h; done)
    | cases h
    | split at h
    | (unfold Core.startLoop at h))

/-! ### Machine/Rst.lean -/

theorem touches_State.dpBegin (s : State) (cause : Nat) (auto : Bool) (failed : List Nat) (patch : Bool) :
    Touches (mEvent ||| mAct ||| mCtxs ||| mBillets ||| mPlan ||| mCnv ||| mCal ||| mDdc ||| mXfm ||| mTq ||| mBus ||| mDecs ||| mNet ||| mAve ||| mRst ||| mGlb) s (State.dpBegin s cause auto failed patch) := by
  unfold State.dpBegin
  (try dsimp only)
  repeat' (first
    | with_reducible exact Touches.refl _ _
    | ((with_reducible apply Touches.stepBy 0x20006842 (touches_State.xfmCancel _ _ _)); · decide)
    | ((with_reducible apply Touches.stepBy 0x30a400006842 (touches_State.trgRestart _)); · decide)
    | ((with_reducible apply Touches.stepBy 0x406842 (touches_State.planRestart _)); · decide)
    | ((with_reducible apply Touches.stepBy 0x2 (touches_State.addSat_hi _ _ _ _ ?hi)); (case hi => first | decide | (simp only [rEVT_RESTART, rGLB_STATUS]; omega) | (split <;> decide) | (split <;> simp only [rEVT_RESTART, rGLB_STATUS] <;> omega)); (· decide))
    | ((with_reducible apply Touches.stepBy 0x80000000000002 (touches_State.addSat _ _ _ _)); · decide)
    | ((with_reducible apply Touches.stepBy 0x2 (touches_State.setFlds_hi _ _ _ ?hi)); (case hi => first | decide | (simp only [rEVT_RESTART, rGLB_STATUS]; omega) | (split <;> decide) | (split <;> simp only [rEVT_RESTART, rGLB_STATUS] <;> omega)); (· decide))
    | ((with_reducible apply Touches.stepBy 0x80000000000002 (touches_State.setFlds _ _ _)); · decide)
    | ((with_reducible apply Touches.stepBy 0x2 (touches_State.setFld_hi _ _ _ _ ?hi)); (case hi => first | decide | (simp only [rEVT_RESTART, rGLB_STATUS]; omega) | (split <;> decide) | (split <;> simp only [rEVT_RESTART, rGLB_STATUS] <;> omega)); (· decide))
    | ((with_reducible apply Touches.stepBy 0x80000000000002 (touches_State.setFld _ _ _ _)); · decide)
    | ((with_reducible apply Touches.stepBy 0x8000000000000 (touches_State.onRst _ _)); · decide)
    | ((with_reducible apply Touches.stepBy 0x10006842 (touches_State.ddcCancel _ _ _)); · decide)
    | ((with_reducible apply Touches.stepBy 0xa01e846 (touches_State.calAbortIf _ _)); · decide)
    | ((with_reducible refine Touches.foldl ?_ ?_))
    | ((intro t b); try dsimp only)
    | split)

theorem touches_State.haltWith (s : State) (cause : Nat) :
    Touches (mRegs ||| mGlb) s (State.haltWith s cause) := by
  unfold State.haltWith
  (try dsimp only)
  repeat' (first
    | with_reducible exact Touches.refl _ _
    | ((with_reducible apply Touches.stepBy 0x2 (touches_State.setFlds_hi _ _ _ ?hi)); (case hi => first | decide | (simp only [rGLB_STATUS]; omega) | (split <;> decide) | (split <;> simp only [rGLB_STATUS] <;> omega)); (· decide))
    | ((with_reducible apply Touches.stepBy 0x80000000000002 (touches_State.setFlds _ _ _)); · decide))

theorem touches_State.dpAuto (s : State) (cause : Nat) (failed : List Nat) (patch : Bool) :
    Touches (mEvent ||| mAct ||| mCtxs ||| mBillets ||| mPlan ||| mCnv ||| mCal ||| mDdc ||| mXfm ||| mTq ||| mBus ||| mDecs ||| mNet ||| mAve ||| mRst ||| mGlb) s (State.dpAuto s cause failed patch) := by
  unfold State.dpAuto
  (try dsimp only)
  repeat' (first
    | with_reducible exact Touches.refl _ _
    | ((with_reducible apply Touches.stepBy 0x80000000000002 (touches_State.haltWith _ _)); · decide)
    | ((with_reducible apply Touches.stepBy 0x8830a43a41e846 (touches_State.dpBegin _ _ _ _ _)); · decide)
    | ((with_reducible apply Touches.stepBy 0x8000000000000 (touches_State.onRst _ _)); · decide)
    | split)

theorem touches_State.wrGlbCtrl (v : Word) (s : State) :
    Touches (mEvent ||| mAct ||| mCtxs ||| mBillets ||| mPlan ||| mCnv ||| mCal ||| mDdc ||| mXfm ||| mTq ||| mBus ||| mDecs ||| mNet ||| mAve ||| mRst ||| mGlb) s (State.wrGlbCtrl v s) := by
  unfold State.wrGlbCtrl
  (try dsimp only)
  repeat' (first
    | with_reducible exact Touches.refl _ _
    | ((with_reducible apply Touches.stepBy 0x8830a43a41e846 (touches_State.dpBegin _ _ _ _ _)); · decide)
    | split)

theorem touches_State.dpOrder (s : State) (cause : Nat) :
    Touches (mEvent ||| mAct ||| mCtxs ||| mBillets ||| mPlan ||| mCnv ||| mCal ||| mDdc ||| mXfm ||| mTq ||| mBus ||| mDecs ||| mNet ||| mAve ||| mRst ||| mGlb) s (State.dpOrder s cause) := by
  unfold State.dpOrder
  (try dsimp only)
  repeat' (first
    | with_reducible exact Touches.refl _ _
    | ((with_reducible apply Touches.stepBy 0x8830a43a41e846 (touches_State.dpBegin _ _ _ _ _)); · decide)
    | split)

theorem touches_State.cxlResetDone (s : State) :
    Touches mEvent s (State.cxlResetDone s) := by
  unfold State.cxlResetDone
  (try dsimp only)
  repeat' (first
    | with_reducible exact Touches.refl _ _
    | ((with_reducible apply Touches.stepBy 0x6842 (touches_State.raise _ _ _ _ _)); · decide)
    | ((with_reducible apply Touches.stepBy 0x2 (touches_State.addSat_hi _ _ _ _ ?hi)); (case hi => first | decide | (simp only [rGLB_HIF_RESET]; omega) | (split <;> decide) | (split <;> simp only [rGLB_HIF_RESET] <;> omega)); (· decide)))

theorem touches_State.dpAt (s : State) (ms : Nat) :
    Touches mTime s (State.dpAt s ms) := by
  unfold State.dpAt
  (try dsimp only)
  repeat' (first
    | with_reducible exact Touches.refl _ _
    | ((with_reducible apply Touches.stepBy 0x80 (touches_State.reach _ _)); · decide))

theorem touches_State.dpFail (s : State) :
    Touches (mEvent ||| mGlb) s (State.dpFail s) := by
  unfold State.dpFail
  (try dsimp only)
  repeat' (first
    | with_reducible exact Touches.refl _ _
    | ((with_reducible apply Touches.stepBy 0x80000000000002 (touches_State.haltWith _ _)); · decide)
    | ((with_reducible apply Touches.stepBy 0x6842 (touches_State.raise _ _ _ _ _)); · decide)
    | ((with_reducible apply Touches.stepBy 0x2 (touches_State.setFld_hi _ _ _ _ ?hi)); (case hi => first | decide | (simp only [rEVT_RESTART]; omega) | (split <;> decide) | (split <;> simp only [rEVT_RESTART] <;> omega)); (· decide))
    | ((with_reducible apply Touches.stepBy 0x80000000000002 (touches_State.setFld _ _ _ _)); · decide))

theorem touches_State.dpFaults (s : State) :
    Touches (mEvent ||| mTime ||| mFreeCtr ||| mStore ||| mCtxs ||| mBillets ||| mPorts ||| mAside ||| mBadLines ||| mTdc ||| mDdc ||| mXfm ||| mStreams ||| mDet ||| mDen ||| mAu ||| mRst ||| mCmp) s (State.dpFaults s) := by
  unfold State.dpFaults
  (try dsimp only)
  repeat' (first
    | with_reducible exact Touches.refl _ _
    | ((with_reducible apply Touches.stepBy 0x11ee42 (touches_State.fault _ _ _ _ _ _ _)); · decide)
    | ((with_reducible apply Touches.stepBy 0x8000 (touches_State.updCtx _ _ _)); · decide)
    | ((with_reducible apply Touches.stepBy 0x80 (touches_State.dpAt _ _)); · decide)
    | ((with_reducible apply Touches.stepBy 0xe842 (touches_State.faultsEvent _ _ _)); · decide)
    | ((with_reducible apply Touches.stepBy 0x1008000 (touches_State.stampsDrop _ _)); · decide)
    | ((with_reducible apply Touches.stepBy 0x40008000 (touches_State.streamDrop _ _)); · decide)
    | ((with_reducible apply Touches.stepBy 0x2001033017ee42 (touches_State.unitDiscard _ _)); · decide)
    | ((with_reducible apply Touches.stepBy 0x8000000000000 (touches_State.onRst _ _)); · decide)
    | ((with_reducible apply Touches.stepBy 0x13ee42 (touches_State.drainPorts _)); · decide)
    | ((with_reducible apply Touches.stepBy 0x1000017ee42 (touches_State.auAnchor _ _)); · decide)
    | ((with_reducible refine Touches.foldl ?_ ?_))
    | ((with_reducible refine Touches.foldlSnd ?_ ?_))
    | ((with_reducible refine Touches.foldlFst ?_ ?_))
    | ((intro t b); try dsimp only)
    | split)

theorem touches_State.dpReset (s : State) :
    Touches (mEvent ||| mTime ||| mFreeCtr ||| mStore ||| mCtxs ||| mBillets ||| mPorts ||| mBadLines ||| mTurf ||| mDma ||| mRst ||| mCmp) s (State.dpReset s) := by
  unfold State.dpReset
  (try dsimp only)
  repeat' (first
    | with_reducible exact Touches.refl _ _
    | ((with_reducible apply Touches.stepBy 0x4000011ee42 (touches_State.tcStop _ _ _)); · decide)
    | ((with_reducible apply Touches.stepBy 0x80 (touches_State.dpAt _ _)); · decide)
    | ((with_reducible apply Touches.stepBy 0x6842 (touches_State.raise _ _ _ _ _)); · decide)
    | ((with_reducible apply Touches.stepBy 0x2 (touches_State.setFld_hi _ _ _ _ ?hi)); (case hi => first | decide | (simp only [rSEC_STATUS, rSTK_STATUS]; omega) | (split <;> decide) | (split <;> simp only [rSEC_STATUS, rSTK_STATUS] <;> omega)); (· decide))
    | ((with_reducible apply Touches.stepBy 0x8000000000000 (touches_State.onRst _ _)); · decide)
    | ((with_reducible apply Touches.stepBy 0x400000003e842 (touches_State.dmaHaltAll _)); · decide)
    | ((with_reducible apply Touches.stepBy 0x20000000006842 (touches_State.jobAbort _ _ _)); · decide)
    | ((with_reducible refine Touches.foldl ?_ ?_))
    | ((intro t b); try dsimp only)
    | split)

theorem touches_State.chTrained (s : State) (ch : Nat) :
    Touches (mRegs ||| mBadLines ||| mMem) s (State.chTrained s ch) := by
  unfold State.chTrained
  (try dsimp only)
  repeat' (first
    | with_reducible exact Touches.refl _ _
    | ((with_reducible apply Touches.stepBy 0x2 (touches_State.setFld_hi _ _ _ _ ?hi)); (case hi => first | decide | (simp only [rMEM_CH_STATUS]; omega) | (split <;> decide) | (split <;> simp only [rMEM_CH_STATUS] <;> omega)); (· decide))
    | ((with_reducible apply Touches.stepBy 0x2000000000000 (touches_State.onMem _ _)); · decide)
    | ((with_reducible apply Touches.stepBy 0x100000 (touches_State.onBadLines _ _)); · decide)
    | split)

theorem touches_State.dpTrained (s : State) (ok : Bool) :
    Touches (mEvent ||| mBadLines ||| mMem ||| mRst ||| mGlb) s (State.dpTrained s ok) := by
  unfold State.dpTrained
  (try dsimp only)
  repeat' (first
    | with_reducible exact Touches.refl _ _
    | ((with_reducible apply Touches.stepBy 0x2000000100002 (touches_State.chTrained _ _)); · decide)
    | ((with_reducible apply Touches.stepBy 0x80000000006842 (touches_State.dpFail _)); · decide)
    | ((with_reducible apply Touches.stepBy 0x8000000000000 (touches_State.onRst _ _)); · decide)
    | ((with_reducible refine Touches.foldl ?_ ?_))
    | ((intro t b); try dsimp only)
    | split)

theorem touches_State.dpTimeout (s : State) :
    Touches (mEvent ||| mTime ||| mGlb) s (State.dpTimeout s) := by
  unfold State.dpTimeout
  (try dsimp only)
  repeat' (first
    | with_reducible exact Touches.refl _ _
    | ((with_reducible apply Touches.stepBy 0x80000000006842 (touches_State.dpFail _)); · decide)
    | ((with_reducible apply Touches.stepBy 0x80 (touches_State.dpAt _ _)); · decide)
    | split)

theorem touches_State.retrainCh (s : State) (ch : Nat) (ok : Bool) :
    Touches (mEvent ||| mAct ||| mCtxs ||| mBillets ||| mPlan ||| mCnv ||| mCal ||| mDdc ||| mXfm ||| mTq ||| mBus ||| mDecs ||| mNet ||| mAve ||| mMem ||| mRst ||| mGlb) s (State.retrainCh s ch ok) := by
  unfold State.retrainCh
  (try dsimp only)
  repeat' (first
    | with_reducible exact Touches.refl _ _
    | ((with_reducible apply Touches.stepBy 0x8830a43a41e846 (touches_State.dpAuto _ _ _ _)); · decide)
    | ((with_reducible apply Touches.stepBy 0x2000000006842 (touches_State.retrain _ _ _)); · decide)
    | split)

theorem touches_State.watchdog (s : State) :
    Touches (mEvent ||| mAct ||| mCtxs ||| mBillets ||| mPlan ||| mCnv ||| mCal ||| mDdc ||| mXfm ||| mTq ||| mBus ||| mDecs ||| mNet ||| mAve ||| mRst ||| mGlb) s (State.watchdog s) := by
  unfold State.watchdog
  (try dsimp only)
  repeat' (first
    | with_reducible exact Touches.refl _ _
    | ((with_reducible apply Touches.stepBy 0x8830a43a41e846 (touches_State.dpAuto _ _ _ _)); · decide)
    | ((with_reducible apply Touches.stepBy 0x6842 (touches_State.raise _ _ _ _ _)); · decide))

/-! ### Machine/Evt.lean -/

theorem touches_State.wrRingIdx (v : Word) (s : State) :
    Touches mEvent s (State.wrRingIdx v s) := by
  unfold State.wrRingIdx
  (try dsimp only)
  repeat' (first
    | with_reducible exact Touches.refl _ _
    | ((with_reducible apply Touches.stepBy 0x6842 (touches_State.lostRecord _)); · decide)
    | ((with_reducible apply Touches.stepBy 0x2 (touches_State.setFld_hi _ _ _ _ ?hi)); (case hi => first | decide | (simp only [rEVT_RING_IDX]; omega) | (split <;> decide) | (split <;> simp only [rEVT_RING_IDX] <;> omega)); (· decide))
    | ((with_reducible apply Touches.stepBy 0x2000 (touches_State.onEvt _ _)); · decide)
    | split)

theorem touches_State.wrEvtCtrl (v : Word) (s : State) :
    Touches mEvent s (State.wrEvtCtrl v s) := by
  unfold State.wrEvtCtrl
  (try dsimp only)
  repeat' (first
    | with_reducible exact Touches.refl _ _
    | ((with_reducible apply Touches.stepBy 0x6842 (touches_State.lostRecord _)); · decide)
    | ((with_reducible apply Touches.stepBy 0x2 (touches_State.wrCodes_hi _ _ _ _ ?hi)); (case hi => first | decide | (simp only [rEVT_CTRL]; omega) | (split <;> decide) | (split <;> simp only [rEVT_CTRL] <;> omega)); (· decide)))

theorem touches_State.wrEvtRing (v : Word) (s : State) :
    Touches mRegs s (State.wrEvtRing v s) := by
  unfold State.wrEvtRing
  (try dsimp only)
  repeat' (first
    | with_reducible exact Touches.refl _ _
    | ((with_reducible apply Touches.stepBy 0x2 (touches_State.wrCodes_hi _ _ _ _ ?hi)); (case hi => first | decide | (simp only [rEVT_CTRL, rEVT_RING]; omega) | (split <;> decide) | (split <;> simp only [rEVT_CTRL, rEVT_RING] <;> omega)); (· decide))
    | split)

theorem touches_State.wrSwtest (v : Word) (s : State) :
    Touches mEvent s (State.wrSwtest v s) := by
  unfold State.wrSwtest
  (try dsimp only)
  repeat' (first
    | with_reducible exact Touches.refl _ _
    | ((with_reducible apply Touches.stepBy 0x6842 (touches_State.raise _ _ _ _ _)); · decide)
    | ((with_reducible refine Touches.foldl ?_ ?_))
    | ((intro t b); try dsimp only)
    | split)

theorem touches_State.injRefuse (s : State) :
    Touches mRegs s (State.injRefuse s) := by
  unfold State.injRefuse
  (try dsimp only)
  repeat' (first
    | with_reducible exact Touches.refl _ _
    | ((with_reducible apply Touches.stepBy 0x2 (touches_State.setFld_hi _ _ _ _ ?hi)); (case hi => first | decide | (simp only [rEVT_INJ]; omega) | (split <;> decide) | (split <;> simp only [rEVT_INJ] <;> omega)); (· decide)))

theorem touches_State.injDone (s : State) :
    Touches mRegs s (State.injDone s) := by
  unfold State.injDone
  (try dsimp only)
  repeat' (first
    | with_reducible exact Touches.refl _ _
    | ((with_reducible apply Touches.stepBy 0x2 (touches_State.setFld_hi _ _ _ _ ?hi)); (case hi => first | decide | (simp only [rEVT_INJ]; omega) | (split <;> decide) | (split <;> simp only [rEVT_INJ] <;> omega)); (· decide)))

theorem touches_State.inject (s : State) :
    Touches (mEvent ||| mAct ||| mFreeCtr ||| mStore ||| mCtxs ||| mBillets ||| mPorts ||| mAside ||| mBadLines ||| mPlan ||| mTdc ||| mCnv ||| mCal ||| mDdc ||| mXfm ||| mStreams ||| mDet ||| mDen ||| mTq ||| mBus ||| mDecs ||| mAu ||| mNet ||| mAve ||| mRst ||| mCmp ||| mGlb) s (State.inject s) := by
  unfold State.inject
  (try dsimp only)
  repeat' (first
    | with_reducible exact Touches.refl _ _
    | ((with_reducible apply Touches.stepBy 0x8830a43a41e846 (touches_State.dpBegin _ _ _ _ _)); · decide)
    | ((with_reducible apply Touches.stepBy 0x2001037117ee42 (touches_State.recoverPath _ _ _ _ _ _ _)); · decide)
    | ((with_reducible apply Touches.stepBy 0x6842 (touches_State.raise _ _ _ _ _)); · decide)
    | ((with_reducible apply Touches.stepBy 0x6842 (touches_State.raiseWith _ _ _ _ _ _ _ _)); · decide)
    | ((with_reducible apply Touches.stepBy 0x100000 (touches_State.onBadLines _ _)); · decide)
    | ((with_reducible apply Touches.stepBy 0x2 (touches_State.injDone _)); · decide)
    | ((with_reducible apply Touches.stepBy 0x2 (touches_State.injRefuse _)); · decide)
    | split
    | with_reducible refine Touches.ofSnd (by assumption) ?_
    | with_reducible refine Touches.ofFst (by assumption) ?_)

theorem touches_State.wrEvtInj (v : Word) (s : State) :
    Touches (mEvent ||| mAct ||| mFreeCtr ||| mStore ||| mCtxs ||| mBillets ||| mPorts ||| mAside ||| mBadLines ||| mPlan ||| mTdc ||| mCnv ||| mCal ||| mDdc ||| mXfm ||| mStreams ||| mDet ||| mDen ||| mTq ||| mBus ||| mDecs ||| mAu ||| mNet ||| mAve ||| mRst ||| mCmp ||| mGlb) s (State.wrEvtInj v s) := by
  unfold State.wrEvtInj
  (try dsimp only)
  repeat' (first
    | with_reducible exact Touches.refl _ _
    | ((with_reducible apply Touches.stepBy 0x2 (touches_State.wrCodes_hi _ _ _ _ ?hi)); (case hi => first | decide | (simp only [rEVT_INJ]; omega) | (split <;> decide) | (split <;> simp only [rEVT_INJ] <;> omega)); (· decide))
    | ((with_reducible apply Touches.stepBy 0x80000000000002 (touches_State.wrCodes _ _ _ _)); · decide)
    | ((with_reducible apply Touches.stepBy 0x2 (touches_State.setFld_hi _ _ _ _ ?hi)); (case hi => first | decide | (simp only [rEVT_INJ]; omega) | (split <;> decide) | (split <;> simp only [rEVT_INJ] <;> omega)); (· decide))
    | ((with_reducible apply Touches.stepBy 0x80000000000002 (touches_State.setFld _ _ _ _)); · decide)
    | ((with_reducible apply Touches.stepBy 0xa831a77b57ee46 (touches_State.inject _)); · decide)
    | ((with_reducible apply Touches.stepBy 0x2 (touches_State.injRefuse _)); · decide)
    | split)

theorem touches_State.csError (s : State) (bad patch : Bool) :
    Touches (mEvent ||| mAct ||| mCtxs ||| mBillets ||| mPlan ||| mCnv ||| mCal ||| mDdc ||| mXfm ||| mTq ||| mBus ||| mDecs ||| mNet ||| mAve ||| mRst ||| mGlb) s (State.csError s bad patch) := by
  unfold State.csError
  (try dsimp only)
  repeat' (first
    | with_reducible exact Touches.refl _ _
    | ((with_reducible apply Touches.stepBy 0x8830a43a41e846 (touches_State.dpAuto _ _ _ _)); · decide)
    | ((with_reducible apply Touches.stepBy 0x6842 (touches_State.raiseLim _ _ _ _ _ _ _)); · decide)
    | ((with_reducible apply Touches.stepBy 0x6842 (touches_State.raise _ _ _ _ _)); · decide)
    | ((with_reducible apply Touches.stepBy 0x2 (touches_State.addSat_hi _ _ _ _ ?hi)); (case hi => first | decide | (simp only [rSTK_STATUS]; omega) | (split <;> decide) | (split <;> simp only [rSTK_STATUS] <;> omega)); (· decide))
    | ((with_reducible apply Touches.stepBy 0x80000000000002 (touches_State.addSat _ _ _ _)); · decide)
    | ((with_reducible apply Touches.stepBy 0x2 (touches_State.setFld_hi _ _ _ _ ?hi)); (case hi => first | decide | (simp only [rSTK_STATUS]; omega) | (split <;> decide) | (split <;> simp only [rSTK_STATUS] <;> omega)); (· decide))
    | ((with_reducible apply Touches.stepBy 0x80000000000002 (touches_State.setFld _ _ _ _)); · decide)
    | split)

/-! ### Machine/Ave.lean -/

theorem touches_State.aveAck (s : State) (a : Nat) :
    Touches (mRegs ||| mOuts ||| mNet ||| mAve) s (State.aveAck s a) := by
  unfold State.aveAck
  (try dsimp only)
  repeat' (first
    | with_reducible exact Touches.refl _ _
    | ((with_reducible apply Touches.stepBy 0x100000000042 (touches_State.aveSend _ _ _ _ _ _ _ _)); · decide)
    | ((with_reducible apply Touches.stepBy 0x200000000000 (touches_State.updAve _ _ _)); · decide))

theorem touches_State.aveOpenPkt (s : State) (a typ : Nat) :
    Touches (mRegs ||| mOuts ||| mNet ||| mAve) s (State.aveOpenPkt s a typ) := by
  unfold State.aveOpenPkt
  (try dsimp only)
  repeat' (first
    | with_reducible exact Touches.refl _ _
    | ((with_reducible apply Touches.stepBy 0x100000000042 (touches_State.aveSend _ _ _ _ _ _ _ _)); · decide)
    | ((with_reducible apply Touches.stepBy 0x200000000000 (touches_State.updAve _ _ _)); · decide)
    | split)

theorem touches_State.aveRewind (s : State) (a : Nat) :
    Touches (mRegs ||| mCtxs ||| mBillets) s (State.aveRewind s a) := by
  unfold State.aveRewind
  (try dsimp only)
  repeat' (first
    | with_reducible exact Touches.refl _ _
    | ((with_reducible apply Touches.stepBy 0x18002 (touches_State.finishTo _ _ _ _)); · decide)
    | ((with_reducible apply Touches.stepBy 0x8000 (touches_State.updCtx _ _ _)); · decide)
    | split
    | with_reducible refine Touches.ofSnd (by assumption) ?_
    | with_reducible refine Touches.ofFst (by assumption) ?_
    | (with_reducible constructor <;> first | exact fun h => absurd h (by decide) | exact fun _ => rfl | exact fun _ a _ => State.rd_congr (by rfl) a | exact fun h => h.of_eq rfl rfl rfl rfl rfl | exact FusesOnlyBurn.of_eq rfl rfl rfl rfl rfl))

theorem touches_State.aveOpened (s : State) (a peer limit : Nat) :
    Touches (mEvent ||| mCtxs ||| mBillets ||| mAve) s (State.aveOpened s a peer limit) := by
  unfold State.aveOpened
  (try dsimp only)
  repeat' (first
    | with_reducible exact Touches.refl _ _
    | ((with_reducible apply Touches.stepBy 0x6842 (touches_State.raise _ _ _ _ _)); · decide)
    | ((with_reducible apply Touches.stepBy 0x2 (touches_State.setAveState _ _ _)); · decide)
    | ((with_reducible apply Touches.stepBy 0x200000000000 (touches_State.updAve _ _ _)); · decide)
    | ((with_reducible apply Touches.stepBy 0x18002 (touches_State.aveRewind _ _)); · decide)
    | split)

theorem touches_State.aveLeave (s : State) (a : Nat) :
    Touches (mCtxs ||| mAve) s (State.aveLeave s a) := by
  unfold State.aveLeave
  (try dsimp only)
  repeat' (first
    | with_reducible exact Touches.refl _ _
    | ((with_reducible apply Touches.stepBy 0x8000 (touches_State.loseItems _ _ _)); · decide)
    | ((with_reducible apply Touches.stepBy 0x200000000000 (touches_State.updAve _ _ _)); · decide)
    | split)

theorem touches_State.aveClosed (s : State) (a : Nat) :
    Touches (mEvent ||| mCtxs ||| mAve) s (State.aveClosed s a) := by
  unfold State.aveClosed
  (try dsimp only)
  repeat' (first
    | with_reducible exact Touches.refl _ _
    | ((with_reducible apply Touches.stepBy 0x6842 (touches_State.raise _ _ _ _ _)); · decide)
    | ((with_reducible apply Touches.stepBy 0x2 (touches_State.setAveState _ _ _)); · decide)
    | ((with_reducible apply Touches.stepBy 0x200000008000 (touches_State.aveLeave _ _)); · decide))

theorem touches_State.aveDrop (s : State) (a : Nat) :
    Touches (mRegs ||| mCtxs ||| mBillets) s (State.aveDrop s a).2 := by
  unfold State.aveDrop
  (try dsimp only)
  repeat' (first
    | with_reducible exact Touches.refl _ _
    | ((with_reducible apply Touches.stepBy 0x18002 (touches_State.finishTo _ _ _ _)); · decide)
    | ((with_reducible apply Touches.stepBy 0x8000 (touches_State.updCtx _ _ _)); · decide)
    | split
    | with_reducible refine Touches.ofSnd (by assumption) ?_
    | with_reducible refine Touches.ofFst (by assumption) ?_)

theorem touches_State.aveFail (s : State) (a reason : Nat) :
    Touches (mEvent ||| mFreeCtr ||| mStore ||| mCtxs ||| mBillets ||| mBadLines ||| mAve) s (State.aveFail s a reason) := by
  unfold State.aveFail
  (try dsimp only)
  repeat' (first
    | with_reducible exact Touches.refl _ _
    | ((with_reducible apply Touches.stepBy 0x11ee42 (touches_State.fault _ _ _ _ _ _ _)); · decide)
    | ((with_reducible apply Touches.stepBy 0x6842 (touches_State.raise _ _ _ _ _)); · decide)
    | ((with_reducible apply Touches.stepBy 0x2 (touches_State.setFlds_hi _ _ _ ?hi)); (case hi => first | decide | (simp only [rAVE_STATUS]; omega) | (split <;> decide) | (split <;> simp only [rAVE_STATUS] <;> omega)); (· decide))
    | ((with_reducible apply Touches.stepBy 0x18002 (touches_State.aveDrop _ _)); · decide)
    | ((with_reducible apply Touches.stepBy 0x200000008000 (touches_State.aveLeave _ _)); · decide)
    | split
    | with_reducible refine Touches.ofSnd (by assumption) ?_
    | with_reducible refine Touches.ofFst (by assumption) ?_)

theorem touches_State.aveRefuse (s : State) (a reason : Nat) :
    Touches mRegs s (State.aveRefuse s a reason) := by
  unfold State.aveRefuse
  (try dsimp only)
  repeat' (first
    | with_reducible exact Touches.refl _ _
    | ((with_reducible apply Touches.stepBy 0x2 (touches_State.setFld_hi _ _ _ _ ?hi)); (case hi => first | decide | (simp only [rAVE_STATUS]; omega) | (split <;> decide) | (split <;> simp only [rAVE_STATUS] <;> omega)); (· decide)))

theorem touches_State.aveSendOpen (s : State) (a : Nat) :
    Touches (mRegs ||| mOuts ||| mNet ||| mAve) s (State.aveSendOpen s a) := by
  unfold State.aveSendOpen
  (try dsimp only)
  repeat' (first
    | with_reducible exact Touches.refl _ _
    | ((with_reducible apply Touches.stepBy 0x200000000000 (touches_State.updAve _ _ _)); · decide)
    | ((with_reducible apply Touches.stepBy 0x300000000042 (touches_State.aveOpenPkt _ _ _)); · decide)
    | split)

theorem touches_State.aveCmdOpen (s : State) (a : Nat) :
    Touches (mRegs ||| mOuts ||| mFreeCtr ||| mNet ||| mAve) s (State.aveCmdOpen s a) := by
  unfold State.aveCmdOpen
  (try dsimp only)
  repeat' (first
    | with_reducible exact Touches.refl _ _
    | ((with_reducible apply Touches.stepBy 0x200 (touches_State.fresh _)); · decide)
    | ((with_reducible apply Touches.stepBy 0x2 (touches_State.setAveState _ _ _)); · decide)
    | ((with_reducible apply Touches.stepBy 0x200000000000 (touches_State.updAve _ _ _)); · decide)
    | ((with_reducible apply Touches.stepBy 0x300000000042 (touches_State.aveSendOpen _ _)); · decide)
    | ((with_reducible apply Touches.stepBy 0x2 (touches_State.aveRefuse _ _ _)); · decide)
    | split
    | with_reducible refine Touches.ofSnd (by assumption) ?_
    | with_reducible refine Touches.ofFst (by assumption) ?_)

theorem touches_State.aveSendClose (s : State) (a : Nat) :
    Touches (mRegs ||| mOuts ||| mNet ||| mAve) s (State.aveSendClose s a) := by
  unfold State.aveSendClose
  (try dsimp only)
  repeat' (first
    | with_reducible exact Touches.refl _ _
    | ((with_reducible apply Touches.stepBy 0x100000000042 (touches_State.aveSend _ _ _ _ _ _ _ _)); · decide)
    | ((with_reducible apply Touches.stepBy 0x200000000000 (touches_State.updAve _ _ _)); · decide))

theorem touches_State.aveCmdClose (s : State) (a : Nat) :
    Touches (mRegs ||| mOuts ||| mCtxs ||| mNet ||| mAve) s (State.aveCmdClose s a) := by
  unfold State.aveCmdClose
  (try dsimp only)
  repeat' (first
    | with_reducible exact Touches.refl _ _
    | ((with_reducible apply Touches.stepBy 0x2 (touches_State.setAveState _ _ _)); · decide)
    | ((with_reducible apply Touches.stepBy 0x200000000000 (touches_State.updAve _ _ _)); · decide)
    | ((with_reducible apply Touches.stepBy 0x300000000042 (touches_State.aveSendClose _ _)); · decide)
    | ((with_reducible apply Touches.stepBy 0x2 (touches_State.aveRefuse _ _ _)); · decide)
    | ((with_reducible apply Touches.stepBy 0x200000008000 (touches_State.aveLeave _ _)); · decide)
    | split)

theorem touches_State.aveCmdReset (s : State) (a : Nat) :
    Touches mRegs s (State.aveCmdReset s a) := by
  unfold State.aveCmdReset
  (try dsimp only)
  repeat' (first
    | with_reducible exact Touches.refl _ _
    | ((with_reducible apply Touches.stepBy 0x2 (touches_State.setFlds_hi _ _ _ ?hi)); (case hi => first | decide | (simp only [rAVE_STATUS]; omega) | (split <;> decide) | (split <;> simp only [rAVE_STATUS] <;> omega)); (· decide))
    | ((with_reducible apply Touches.stepBy 0x2 (touches_State.aveRefuse _ _ _)); · decide)
    | split)

theorem touches_State.aveCmdSkip (s : State) (a : Nat) :
    Touches (mRegs ||| mCtxs ||| mBillets) s (State.aveCmdSkip s a) := by
  unfold State.aveCmdSkip
  (try dsimp only)
  repeat' (first
    | with_reducible exact Touches.refl _ _
    | ((with_reducible apply Touches.stepBy 0x8000 (touches_State.updCtx _ _ _)); · decide)
    | ((with_reducible apply Touches.stepBy 0x2 (touches_State.aveRefuse _ _ _)); · decide)
    | ((with_reducible apply Touches.stepBy 0x18002 (touches_State.aveDrop _ _)); · decide)
    | split
    | with_reducible refine Touches.ofSnd (by assumption) ?_
    | with_reducible refine Touches.ofFst (by assumption) ?_
    | (with_reducible constructor <;> first | exact fun h => absurd h (by decide) | exact fun _ => rfl | exact fun _ a _ => State.rd_congr (by rfl) a | exact fun h => h.of_eq rfl rfl rfl rfl rfl | exact FusesOnlyBurn.of_eq rfl rfl rfl rfl rfl))

theorem touches_State.wrAveCmd (a : Nat) (v : Word) (s : State) :
    Touches (mRegs ||| mOuts ||| mFreeCtr ||| mCtxs ||| mBillets ||| mNet ||| mAve) s (State.wrAveCmd a v s) := by
  unfold State.wrAveCmd
  (try dsimp only)
  repeat' (first
    | with_reducible exact Touches.refl _ _
    | ((with_reducible apply Touches.stepBy 0x18002 (touches_State.aveCmdSkip _ _)); · decide)
    | ((with_reducible apply Touches.stepBy 0x2 (touches_State.aveCmdReset _ _)); · decide)
    | ((with_reducible apply Touches.stepBy 0x300000008042 (touches_State.aveCmdClose _ _)); · decide)
    | ((with_reducible apply Touches.stepBy 0x300000000242 (touches_State.aveCmdOpen _ _)); · decide)
    | split
    | with_reducible refine Touches.ofSnd (by assumption) ?_
    | with_reducible refine Touches.ofFst (by assumption) ?_)

theorem touches_State.aveBegin (s : State) (a x d : Nat) (r : CordRec) :
    Touches (mCtxs ||| mAve) s (State.aveBegin s a x d r) := by
  unfold State.aveBegin
  (try dsimp only)
  repeat' (first
    | with_reducible exact Touches.refl _ _
    | ((with_reducible apply Touches.stepBy 0x8000 (touches_State.beginRec _ _ _ _)); · decide)
    | ((with_reducible apply Touches.stepBy 0x200000000000 (touches_State.updAve _ _ _)); · decide)
    | split)

theorem touches_State.aveGather (x0 : Nat) (s : State) (x2 : Nat) (x3 : Nat) (x4 : Nat) (x5 : Nat) :
    Touches (mCtxs ||| mAve) s (State.aveGather x0 s x2 x3 x4 x5) := by
  induction x0 generalizing s x2 x3 x4 x5 with
  | zero => unfold State.aveGather; exact Touches.refl _ _
  | succ x0 ih =>
    unfold State.aveGather
    (try dsimp only)
    repeat' (first
      | with_reducible exact Touches.refl _ _
      | ((with_reducible apply Touches.stepBy 0x200000008000 (ih _ _ _ _ _)); · decide)
      | ((with_reducible apply Touches.stepBy 0x8000 (touches_State.deliveredTo _ _ _ _)); · decide)
      | ((with_reducible apply Touches.stepBy 0x200000000000 (touches_State.updAve _ _ _)); · decide)
      | ((with_reducible apply Touches.stepBy 0x200000008000 (touches_State.aveBegin _ _ _ _ _)); · decide)
      | split
      | with_reducible refine Touches.ofSnd (by assumption) ?_
      | with_reducible refine Touches.ofFst (by assumption) ?_
      | split)

theorem touches_State.aveData (s : State) (a : Nat) :
    Touches (mRegs ||| mOuts ||| mCtxs ||| mNet ||| mAve) s (State.aveData s a) := by
  unfold State.aveData
  (try dsimp only)
  repeat' (first
    | with_reducible exact Touches.refl _ _
    | ((with_reducible apply Touches.stepBy 0x2 (touches_State.addMod_hi _ _ _ _ ?hi)); (case hi => first | decide | (simp only [rAVE_CNT0]; omega) | (split <;> decide) | (split <;> simp only [rAVE_CNT0] <;> omega)); (· decide))
    | ((with_reducible apply Touches.stepBy 0x100000000042 (touches_State.aveSend _ _ _ _ _ _ _ _)); · decide)
    | ((with_reducible apply Touches.stepBy 0x200000000000 (touches_State.updAve _ _ _)); · decide)
    | ((with_reducible apply Touches.stepBy 0x200000008000 (touches_State.aveGather  _ _ _ _ _ _)); · decide)
    | split
    | with_reducible refine Touches.ofSnd (by assumption) ?_
    | with_reducible refine Touches.ofFst (by assumption) ?_)

theorem touches_State.aveDataAgain (s : State) (a : Nat) (g : AveRange) :
    Touches (mRegs ||| mOuts ||| mNet ||| mAve) s (State.aveDataAgain s a g) := by
  unfold State.aveDataAgain
  (try dsimp only)
  repeat' (first
    | with_reducible exact Touches.refl _ _
    | ((with_reducible apply Touches.stepBy 0x2 (touches_State.addSat_hi _ _ _ _ ?hi)); (case hi => first | decide | (simp only [rAVE_CNT0]; omega) | (split <;> decide) | (split <;> simp only [rAVE_CNT0] <;> omega)); (· decide))
    | ((with_reducible apply Touches.stepBy 0x100000000042 (touches_State.aveSend _ _ _ _ _ _ _ _)); · decide)
    | ((with_reducible apply Touches.stepBy 0x200000000000 (touches_State.updAve _ _ _)); · decide)
    | split
    | (with_reducible constructor <;> first | exact fun h => absurd h (by decide) | exact fun _ => rfl | exact fun _ a _ => State.rd_congr (by rfl) a | exact fun h => h.of_eq rfl rfl rfl rfl rfl | exact FusesOnlyBurn.of_eq rfl rfl rfl rfl rfl))

theorem touches_State.aveServe (s : State) (i : Nat) :
    Touches (mRegs ||| mOuts ||| mCtxs ||| mServed ||| mNet ||| mAve) s (State.aveServe s i) := by
  unfold State.aveServe
  (try dsimp only)
  repeat' (first
    | with_reducible exact Touches.refl _ _
    | ((with_reducible apply Touches.stepBy 0x80000 (touches_State.hadTurn _ _ _ _ _ _)); · decide)
    | ((with_reducible apply Touches.stepBy 0x300000000042 (touches_State.aveDataAgain _ _ _)); · decide)
    | ((with_reducible apply Touches.stepBy 0x300000008042 (touches_State.aveData _ _)); · decide)
    | split
    | with_reducible refine Touches.ofSnd (by assumption) ?_
    | with_reducible refine Touches.ofFst (by assumption) ?_)

theorem touches_State.aveServeAgain (s : State) (i : Nat) :
    Touches (mRegs ||| mOuts ||| mCtxs ||| mServed ||| mNet ||| mAve) s (State.aveServeAgain s i) := by
  unfold State.aveServeAgain
  (try dsimp only)
  repeat' (first
    | with_reducible exact Touches.refl _ _
    | ((with_reducible apply Touches.stepBy 0x300000088042 (touches_State.aveServe _ _)); · decide)
    | split
    | with_reducible refine Touches.ofSnd (by assumption) ?_
    | with_reducible refine Touches.ofFst (by assumption) ?_)

theorem touches_State.aveResend (s : State) (a : Nat) (g : AveRange) :
    Touches (mEvent ||| mFreeCtr ||| mStore ||| mCtxs ||| mBillets ||| mServed ||| mBadLines ||| mNet ||| mAve) s (State.aveResend s a g) := by
  unfold State.aveResend
  (try dsimp only)
  repeat' (first
    | with_reducible exact Touches.refl _ _
    | ((with_reducible apply Touches.stepBy 0x200000000000 (touches_State.updAve _ _ _)); · decide)
    | ((with_reducible apply Touches.stepBy 0x300000088042 (touches_State.aveServeAgain _ _)); · decide)
    | ((with_reducible apply Touches.stepBy 0x20000011ee42 (touches_State.aveFail _ _ _)); · decide)
    | split
    | (with_reducible constructor <;> first | exact fun h => absurd h (by decide) | exact fun _ => rfl | exact fun _ a _ => State.rd_congr (by rfl) a | exact fun h => h.of_eq rfl rfl rfl rfl rfl | exact FusesOnlyBurn.of_eq rfl rfl rfl rfl rfl))

theorem touches_State.aveNak (s : State) (a reason ofs : Nat) (p : AvePkt) :
    Touches (mRegs ||| mOuts ||| mNet ||| mAve) s (State.aveNak s a reason ofs p) := by
  unfold State.aveNak
  (try dsimp only)
  repeat' (first
    | with_reducible exact Touches.refl _ _
    | ((with_reducible apply Touches.stepBy 0x100000000042 (touches_State.aveSend _ _ _ _ _ _ _ _)); · decide)
    | ((with_reducible apply Touches.stepBy 0x200000000000 (touches_State.updAve _ _ _)); · decide)
    | split
    | with_reducible refine Touches.ofSnd (by assumption) ?_
    | with_reducible refine Touches.ofFst (by assumption) ?_)

theorem touches_State.aveCount (s : State) (a code : Nat) :
    Touches mEvent s (State.aveCount s a code) := by
  unfold State.aveCount
  (try dsimp only)
  repeat' (first
    | with_reducible exact Touches.refl _ _
    | ((with_reducible apply Touches.stepBy 0x6842 (touches_State.raiseLim _ _ _ _ _ _ _)); · decide)
    | ((with_reducible apply Touches.stepBy 0x2 (touches_State.addSat_hi _ _ _ _ ?hi)); (case hi => first | decide | (simp only [rAVE_STATUS]; omega) | (split <;> decide) | (split <;> simp only [rAVE_STATUS] <;> omega)); (· decide))
    | ((with_reducible apply Touches.stepBy 0x2 (touches_State.setFld_hi _ _ _ _ ?hi)); (case hi => first | decide | (simp only [rAVE_STATUS]; omega) | (split <;> decide) | (split <;> simp only [rAVE_STATUS] <;> omega)); (· decide)))

theorem touches_State.aveViol (s : State) (a code : Nat) :
    Touches (mEvent ||| mAve) s (State.aveViol s a code) := by
  unfold State.aveViol
  (try dsimp only)
  repeat' (first
    | with_reducible exact Touches.refl _ _
    | ((with_reducible apply Touches.stepBy 0x6842 (touches_State.raise _ _ _ _ _)); · decide)
    | ((with_reducible apply Touches.stepBy 0x2 (touches_State.addSat_hi _ _ _ _ ?hi)); (case hi => first | decide | (simp only [rAVE_STATUS]; omega) | (split <;> decide) | (split <;> simp only [rAVE_STATUS] <;> omega)); (· decide))
    | ((with_reducible apply Touches.stepBy 0x2 (touches_State.setAveState _ _ _)); · decide)
    | ((with_reducible apply Touches.stepBy 0x200000000000 (touches_State.updAve _ _ _)); · decide)
    | ((with_reducible apply Touches.stepBy 0x6842 (touches_State.aveCount _ _ _)); · decide)
    | split)

theorem touches_State.aveReject (s : State) (a code ofs : Nat) (p : AvePkt) :
    Touches (mEvent ||| mNet ||| mAve) s (State.aveReject s a code ofs p) := by
  unfold State.aveReject
  (try dsimp only)
  repeat' (first
    | with_reducible exact Touches.refl _ _
    | ((with_reducible apply Touches.stepBy 0x200000006842 (touches_State.aveViol _ _ _)); · decide)
    | ((with_reducible apply Touches.stepBy 0x300000000042 (touches_State.aveNak _ _ _ _ _)); · decide))

theorem touches_State.aveUnmatched (s : State) (i : Nat) (p : AvePkt) :
    Touches (mRegs ||| mOuts ||| mNet) s (State.aveUnmatched s i p) := by
  unfold State.aveUnmatched
  (try dsimp only)
  repeat' (first
    | with_reducible exact Touches.refl _ _
    | ((with_reducible apply Touches.stepBy 0x2 (touches_State.addSat_hi _ _ _ _ ?hi)); (case hi => first | decide | (simp only [rAVE_UNATTR, rGLB_DEVID]; omega) | (split <;> decide) | (split <;> simp only [rAVE_UNATTR, rGLB_DEVID] <;> omega)); (· decide))
    | ((with_reducible apply Touches.stepBy 0x100000000042 (touches_State.udpSend _ _ _ _ _ _ _)); · decide)
    | ((with_reducible apply Touches.stepBy 0x100000000000 (touches_State.updNet _ _ _)); · decide)
    | split
    | with_reducible refine Touches.ofSnd (by assumption) ?_
    | with_reducible refine Touches.ofFst (by assumption) ?_)

theorem touches_State.aveDeliver (s : State) (a : Nat) (p : AvePkt) (bs : List Byte) :
    Touches (mEvent ||| mFreeCtr ||| mStore ||| mCtxs ||| mBillets ||| mPorts ||| mBadLines ||| mNet ||| mAve) s (State.aveDeliver s a p bs) := by
  unfold State.aveDeliver
  (try dsimp only)
  repeat' (first
    | with_reducible exact Touches.refl _ _
    | ((with_reducible apply Touches.stepBy 0x13ee42 (touches_State.portTake _ _ _)); · decide)
    | ((with_reducible apply Touches.stepBy 0x20000 (touches_State.onPorts _ _)); · decide)
    | ((with_reducible apply Touches.stepBy 0x200000000000 (touches_State.updAve _ _ _)); · decide)
    | ((with_reducible apply Touches.stepBy 0x200000006842 (touches_State.aveViol _ _ _)); · decide)
    | ((with_reducible apply Touches.stepBy 0x300000000042 (touches_State.aveNak _ _ _ _ _)); · decide)
    | ((with_reducible apply Touches.stepBy 0x20000011ee42 (touches_State.aveFail _ _ _)); · decide)
    | ((with_reducible refine Touches.foldl ?_ ?_))
    | ((intro t b); try dsimp only)
    | split
    | with_reducible refine Touches.ofSnd (by assumption) ?_
    | with_reducible refine Touches.ofFst (by assumption) ?_)

theorem touches_State.aveTakeData (s : State) (a : Nat) (p : AvePkt) :
    Touches (mEvent ||| mFreeCtr ||| mStore ||| mCtxs ||| mBillets ||| mPorts ||| mBadLines ||| mNet ||| mAve) s (State.aveTakeData s a p) := by
  unfold State.aveTakeData
  (try dsimp only)
  repeat' (first
    | with_reducible exact Touches.refl _ _
    | ((with_reducible apply Touches.stepBy 0x6842 (touches_State.raiseLim _ _ _ _ _ _ _)); · decide)
    | ((with_reducible apply Touches.stepBy 0x2 (touches_State.addSat_hi _ _ _ _ ?hi)); (case hi => first | decide | (simp only [rAVE_CNT0, rAVE_CNT1]; omega) | (split <;> decide) | (split <;> simp only [rAVE_CNT0, rAVE_CNT1] <;> omega)); (· decide))
    | ((with_reducible apply Touches.stepBy 0x2 (touches_State.addMod_hi _ _ _ _ ?hi)); (case hi => first | decide | (simp only [rAVE_CNT0, rAVE_CNT1]; omega) | (split <;> decide) | (split <;> simp only [rAVE_CNT0, rAVE_CNT1] <;> omega)); (· decide))
    | ((with_reducible apply Touches.stepBy 0x200000000000 (touches_State.updAve _ _ _)); · decide)
    | ((with_reducible apply Touches.stepBy 0x30000013ee42 (touches_State.aveDeliver _ _ _ _)); · decide)
    | ((with_reducible apply Touches.stepBy 0x300000006842 (touches_State.aveReject _ _ _ _ _)); · decide)
    | ((with_reducible apply Touches.stepBy 0x300000000042 (touches_State.aveAck _ _)); · decide)
    | split
    | with_reducible refine Touches.ofSnd (by assumption) ?_
    | with_reducible refine Touches.ofFst (by assumption) ?_)

theorem touches_State.aveTakeAck (s : State) (a : Nat) (p : AvePkt) :
    Touches (mEvent ||| mFreeCtr ||| mStore ||| mCtxs ||| mBillets ||| mServed ||| mBadLines ||| mNet ||| mAve) s (State.aveTakeAck s a p) := by
  unfold State.aveTakeAck
  (try dsimp only)
  repeat' (first
    | with_reducible exact Touches.refl _ _
    | ((with_reducible apply Touches.stepBy 0x18002 (touches_State.finishTo _ _ _ _)); · decide)
    | ((with_reducible apply Touches.stepBy 0x200000000000 (touches_State.updAve _ _ _)); · decide)
    | ((with_reducible apply Touches.stepBy 0x300000006842 (touches_State.aveReject _ _ _ _ _)); · decide)
    | ((with_reducible apply Touches.stepBy 0x200000006842 (touches_State.aveViol _ _ _)); · decide)
    | ((with_reducible apply Touches.stepBy 0x30000019ee42 (touches_State.aveResend _ _ _)); · decide)
    | ((with_reducible refine Touches.foldl ?_ ?_))
    | ((with_reducible refine Touches.foldlSnd ?_ ?_))
    | ((with_reducible refine Touches.foldlFst ?_ ?_))
    | ((intro t b); try dsimp only)
    | split
    | with_reducible refine Touches.ofSnd (by assumption) ?_
    | with_reducible refine Touches.ofFst (by assumption) ?_
    | (with_reducible constructor <;> first | exact fun h => absurd h (by decide) | exact fun _ => rfl | exact fun _ a _ => State.rd_congr (by rfl) a | exact fun h => h.of_eq rfl rfl rfl rfl rfl | exact FusesOnlyBurn.of_eq rfl rfl rfl rfl rfl))

theorem touches_State.updSlot (s : State) (k : Nat) (f : TrigSlot → TrigSlot) :
    Touches (mRegs ||| mSlots) s (State.updSlot s k f) := by
  unfold State.updSlot
  (try dsimp only)
  repeat' (first
    | with_reducible exact Touches.refl _ _
    | ((with_reducible apply Touches.stepBy 0x2 (touches_State.setFld_hi _ _ _ _ ?hi)); (case hi => first | decide | (simp only [rAVE_TRIG]; omega) | (split <;> decide) | (split <;> simp only [rAVE_TRIG] <;> omega)); (· decide))
    | ((with_reducible apply Touches.stepBy 0x400000000000 (touches_State.onSlots _ _)); · decide))

theorem touches_State.slotRelease (s : State) (k t : Nat) :
    Touches (mRegs ||| mTq ||| mSlots) s (State.slotRelease s k t) := by
  unfold State.slotRelease
  (try dsimp only)
  repeat' (first
    | with_reducible exact Touches.refl _ _
    | ((with_reducible apply Touches.stepBy 0x400000002 (touches_State.trgIssue _ _)); · decide)
    | ((with_reducible apply Touches.stepBy 0x400000000002 (touches_State.updSlot _ _ _)); · decide))

theorem touches_State.slotTake (s : State) (k t : Nat) :
    Touches (mEvent ||| mTq ||| mSlots) s (State.slotTake s k t) := by
  unfold State.slotTake
  (try dsimp only)
  repeat' (first
    | with_reducible exact Touches.refl _ _
    | ((with_reducible apply Touches.stepBy 0x6842 (touches_State.raise _ _ _ _ _)); · decide)
    | ((with_reducible apply Touches.stepBy 0x2 (touches_State.addSat_hi _ _ _ _ ?hi)); (case hi => first | decide | (simp only [rAVE_TRIG_STAT]; omega) | (split <;> decide) | (split <;> simp only [rAVE_TRIG_STAT] <;> omega)); (· decide))
    | ((with_reducible apply Touches.stepBy 0x400400000002 (touches_State.slotRelease _ _ _)); · decide)
    | ((with_reducible apply Touches.stepBy 0x400000000002 (touches_State.updSlot _ _ _)); · decide)
    | split)

theorem touches_State.slotDue (s : State) (k : Nat) :
    Touches (mRegs ||| mTime ||| mTq ||| mSlots) s (State.slotDue s k) := by
  unfold State.slotDue
  (try dsimp only)
  repeat' (first
    | with_reducible exact Touches.refl _ _
    | ((with_reducible apply Touches.stepBy 0x80 (touches_State.reach _ _)); · decide)
    | ((with_reducible apply Touches.stepBy 0x400400000002 (touches_State.slotRelease _ _ _)); · decide)
    | ((with_reducible apply Touches.stepBy 0x400000000002 (touches_State.updSlot _ _ _)); · decide)
    | ((with_reducible refine Touches.foldl ?_ ?_))
    | ((intro t b); try dsimp only)
    | split
    | with_reducible refine Touches.ofSnd (by assumption) ?_
    | with_reducible refine Touches.ofFst (by assumption) ?_)

theorem touches_State.aveTakeTrigger (s : State) (a : Nat) (p : AvePkt) :
    Touches (mEvent ||| mTq ||| mNet ||| mAve ||| mSlots) s (State.aveTakeTrigger s a p) := by
  unfold State.aveTakeTrigger
  (try dsimp only)
  repeat' (first
    | with_reducible exact Touches.refl _ _
    | ((with_reducible apply Touches.stepBy 0x100000000042 (touches_State.aveSend _ _ _ _ _ _ _ _)); · decide)
    | ((with_reducible apply Touches.stepBy 0x200000000000 (touches_State.updAve _ _ _)); · decide)
    | ((with_reducible apply Touches.stepBy 0x400400006842 (touches_State.slotTake _ _ _)); · decide)
    | ((with_reducible apply Touches.stepBy 0x300000006842 (touches_State.aveReject _ _ _ _ _)); · decide)
    | split)

theorem touches_State.trigUnacked (s : State) (a : Nat) (m : AveTrig) :
    Touches (mRegs ||| mAve) s (State.trigUnacked s a m) := by
  unfold State.trigUnacked
  (try dsimp only)
  repeat' (first
    | with_reducible exact Touches.refl _ _
    | ((with_reducible apply Touches.stepBy 0x2 (touches_State.addSat_hi _ _ _ _ ?hi)); (case hi => first | decide | (simp only [rAVE_TRIG_STAT]; omega) | (split <;> decide) | (split <;> simp only [rAVE_TRIG_STAT] <;> omega)); (· decide))
    | ((with_reducible apply Touches.stepBy 0x200000000000 (touches_State.updAve _ _ _)); · decide))

theorem touches_State.trigResend (s : State) (a : Nat) :
    Touches (mRegs ||| mOuts ||| mTime ||| mNet ||| mAve) s (State.trigResend s a) := by
  unfold State.trigResend
  (try dsimp only)
  repeat' (first
    | with_reducible exact Touches.refl _ _
    | ((with_reducible apply Touches.stepBy 0x80 (touches_State.reach _ _)); · decide)
    | ((with_reducible apply Touches.stepBy 0x100000000042 (touches_State.aveTrigPkt _ _ _ _)); · decide)
    | ((with_reducible apply Touches.stepBy 0x200000000000 (touches_State.updAve _ _ _)); · decide)
    | ((with_reducible apply Touches.stepBy 0x200000000002 (touches_State.trigUnacked _ _ _)); · decide)
    | ((with_reducible refine Touches.foldl ?_ ?_))
    | ((intro t b); try dsimp only)
    | split
    | with_reducible refine Touches.ofSnd (by assumption) ?_
    | with_reducible refine Touches.ofFst (by assumption) ?_)

theorem touches_State.avePacket (s : State) (a : Nat) (p : AvePkt) :
    Touches (mEvent ||| mFreeCtr ||| mStore ||| mCtxs ||| mBillets ||| mPorts ||| mServed ||| mBadLines ||| mTq ||| mNet ||| mAve ||| mSlots) s (State.avePacket s a p) := by
  unfold State.avePacket
  (try dsimp only)
  repeat' (first
    | with_reducible exact Touches.refl _ _
    | ((with_reducible apply Touches.stepBy 0x100000000042 (touches_State.aveSend _ _ _ _ _ _ _ _)); · decide)
    | ((with_reducible apply Touches.stepBy 0x200000000000 (touches_State.updAve _ _ _)); · decide)
    | ((with_reducible apply Touches.stepBy 0x700400006842 (touches_State.aveTakeTrigger _ _ _)); · decide)
    | ((with_reducible apply Touches.stepBy 0x30000019ee42 (touches_State.aveTakeAck _ _ _)); · decide)
    | ((with_reducible apply Touches.stepBy 0x30000013ee42 (touches_State.aveTakeData _ _ _)); · decide)
    | ((with_reducible apply Touches.stepBy 0x300000006842 (touches_State.aveReject _ _ _ _ _)); · decide)
    | ((with_reducible apply Touches.stepBy 0x20000000e842 (touches_State.aveClosed _ _)); · decide)
    | ((with_reducible apply Touches.stepBy 0x20000001e842 (touches_State.aveOpened _ _ _ _)); · decide)
    | ((with_reducible apply Touches.stepBy 0x300000000042 (touches_State.aveOpenPkt _ _ _)); · decide)
    | split
    | with_reducible refine Touches.ofSnd (by assumption) ?_
    | with_reducible refine Touches.ofFst (by assumption) ?_)

theorem touches_State.aveRx (s : State) (i : Nat) (p : AvePkt) :
    Touches (mEvent ||| mFreeCtr ||| mStore ||| mCtxs ||| mBillets ||| mPorts ||| mServed ||| mBadLines ||| mTq ||| mNet ||| mAve ||| mSlots) s (State.aveRx s i p) := by
  unfold State.aveRx
  (try dsimp only)
  repeat' (first
    | with_reducible exact Touches.refl _ _
    | ((with_reducible apply Touches.stepBy 0x2 (touches_State.addSat_hi _ _ _ _ ?hi)); (case hi => first | decide | (simp only [rAVE_CNT1, rAVE_UNATTR]; omega) | (split <;> decide) | (split <;> simp only [rAVE_CNT1, rAVE_UNATTR] <;> omega)); (· decide))
    | ((with_reducible apply Touches.stepBy 0x7004001bee42 (touches_State.avePacket _ _ _)); · decide)
    | ((with_reducible apply Touches.stepBy 0x100000000042 (touches_State.aveUnmatched _ _ _)); · decide)
    | ((with_reducible apply Touches.stepBy 0x300000006842 (touches_State.aveReject _ _ _ _ _)); · decide)
    | ((with_reducible apply Touches.stepBy 0x6842 (touches_State.aveCount _ _ _)); · decide)
    | split
    | with_reducible refine Touches.ofSnd (by assumption) ?_
    | with_reducible refine Touches.ofFst (by assumption) ?_)

theorem touches_State.aveRto (s : State) (a : Nat) :
    Touches (mEvent ||| mTime ||| mFreeCtr ||| mStore ||| mCtxs ||| mBillets ||| mServed ||| mBadLines ||| mNet ||| mAve) s (State.aveRto s a) := by
  unfold State.aveRto
  (try dsimp only)
  repeat' (first
    | with_reducible exact Touches.refl _ _
    | ((with_reducible apply Touches.stepBy 0x80 (touches_State.reach _ _)); · decide)
    | ((with_reducible apply Touches.stepBy 0x30000019ee42 (touches_State.aveResend _ _ _)); · decide)
    | ((with_reducible apply Touches.stepBy 0x300000000042 (touches_State.aveSendClose _ _)); · decide)
    | ((with_reducible apply Touches.stepBy 0x300000000042 (touches_State.aveSendOpen _ _)); · decide)
    | ((with_reducible apply Touches.stepBy 0x20000011ee42 (touches_State.aveFail _ _ _)); · decide)
    | ((with_reducible apply Touches.stepBy 0x20000000e842 (touches_State.aveClosed _ _)); · decide)
    | ((with_reducible refine Touches.foldl ?_ ?_))
    | ((intro t b); try dsimp only)
    | split
    | with_reducible refine Touches.ofSnd (by assumption) ?_
    | with_reducible refine Touches.ofFst (by assumption) ?_)

theorem touches_State.aveAckTimer (s : State) (a : Nat) :
    Touches (mRegs ||| mOuts ||| mTime ||| mNet ||| mAve) s (State.aveAckTimer s a) := by
  unfold State.aveAckTimer
  (try dsimp only)
  repeat' (first
    | with_reducible exact Touches.refl _ _
    | ((with_reducible apply Touches.stepBy 0x80 (touches_State.reach _ _)); · decide)
    | ((with_reducible apply Touches.stepBy 0x300000000042 (touches_State.aveAck _ _)); · decide)
    | split
    | with_reducible refine Touches.ofSnd (by assumption) ?_
    | with_reducible refine Touches.ofFst (by assumption) ?_)

theorem touches_State.aveIdleAck (s : State) (a : Nat) :
    Touches (mRegs ||| mOuts ||| mTime ||| mNet ||| mAve) s (State.aveIdleAck s a) := by
  unfold State.aveIdleAck
  (try dsimp only)
  repeat' (first
    | with_reducible exact Touches.refl _ _
    | ((with_reducible apply Touches.stepBy 0x80 (touches_State.reach _ _)); · decide)
    | ((with_reducible apply Touches.stepBy 0x300000000042 (touches_State.aveAck _ _)); · decide)
    | split)

theorem touches_State.aveDead (s : State) (a : Nat) :
    Touches (mEvent ||| mTime ||| mFreeCtr ||| mStore ||| mCtxs ||| mBillets ||| mBadLines ||| mAve) s (State.aveDead s a) := by
  unfold State.aveDead
  (try dsimp only)
  repeat' (first
    | with_reducible exact Touches.refl _ _
    | ((with_reducible apply Touches.stepBy 0x80 (touches_State.reach _ _)); · decide)
    | ((with_reducible apply Touches.stepBy 0x20000011ee42 (touches_State.aveFail _ _ _)); · decide)
    | split)

theorem touches_State.aveQuarEnd (s : State) (a : Nat) :
    Touches (mRegs ||| mTime ||| mAve) s (State.aveQuarEnd s a) := by
  unfold State.aveQuarEnd
  (try dsimp only)
  repeat' (first
    | with_reducible exact Touches.refl _ _
    | ((with_reducible apply Touches.stepBy 0x80 (touches_State.reach _ _)); · decide)
    | ((with_reducible apply Touches.stepBy 0x2 (touches_State.setAveState _ _ _)); · decide)
    | ((with_reducible apply Touches.stepBy 0x200000000000 (touches_State.updAve _ _ _)); · decide)
    | split)

theorem touches_State.wrAveSnap (a : Nat) (v : Word) (s : State) :
    Touches mRegs s (State.wrAveSnap a v s) := by
  unfold State.wrAveSnap
  (try dsimp only)
  repeat' (first
    | with_reducible exact Touches.refl _ _
    | ((with_reducible apply Touches.stepBy 0x2 (touches_State.addMod_hi _ _ _ _ ?hi)); (case hi => first | decide | (simp only [rAVE_OFS0, rAVE_OFS1, rAVE_OFS2, rAVE_SNAP]; omega) | (split <;> decide) | (split <;> simp only [rAVE_OFS0, rAVE_OFS1, rAVE_OFS2, rAVE_SNAP] <;> omega)); (· decide))
    | ((with_reducible apply Touches.stepBy 0x2 (touches_State.wr_hi _ _ _ ?hi)); (case hi => first | decide | (simp only [rAVE_OFS0, rAVE_OFS1, rAVE_OFS2, rAVE_SNAP]; omega) | (split <;> decide) | (split <;> simp only [rAVE_OFS0, rAVE_OFS1, rAVE_OFS2, rAVE_SNAP] <;> omega)); (· decide))
    | split)

theorem touches_State.wrAveClosed (a r : Nat) (v : Word) (s : State) :
    Touches (mRegs ||| mGlb) s (State.wrAveClosed a r v s) := by
  unfold State.wrAveClosed
  (try dsimp only)
  repeat' (first
    | with_reducible exact Touches.refl _ _
    | ((with_reducible apply Touches.stepBy 0x2 (touches_State.wrCodes_hi _ _ _ _ ?hi)); (case hi => first | decide); (· decide))
    | ((with_reducible apply Touches.stepBy 0x80000000000002 (touches_State.wrCodes _ _ _ _)); · decide)
    | split)

theorem touches_State.wrAveParam (a : Nat) (v : Word) (s : State) :
    Touches mRegs s (State.wrAveParam a v s) := by
  unfold State.wrAveParam
  (try dsimp only)
  repeat' (first
    | with_reducible exact Touches.refl _ _
    | ((with_reducible apply Touches.stepBy 0x2 (touches_State.wrCodes_hi _ _ _ _ ?hi)); (case hi => first | decide | (simp only [rAVE_PARAM]; omega) | (split <;> decide) | (split <;> simp only [rAVE_PARAM] <;> omega)); (· decide)))

theorem touches_State.wrAveGlobal (v : Word) (s : State) :
    Touches mRegs s (State.wrAveGlobal v s) := by
  unfold State.wrAveGlobal
  (try dsimp only)
  repeat' (first
    | with_reducible exact Touches.refl _ _
    | ((with_reducible apply Touches.stepBy 0x2 (touches_State.wrCodes_hi _ _ _ _ ?hi)); (case hi => first | decide | (simp only [rAVE_GLOBAL]; omega) | (split <;> decide) | (split <;> simp only [rAVE_GLOBAL] <;> omega)); (· decide))
    | split)

/-! ### Machine/Hif.lean -/

theorem touches_State.updHif (s : State) (f : Hif → Hif) :
    Touches mHif s (State.updHif s f) := by
  constructor <;> first | exact fun h => absurd h (by decide) | exact fun _ => rfl | exact fun _ a _ => State.rd_congr (by rfl) a | exact fun h => h.of_eq rfl rfl rfl rfl rfl | exact FusesOnlyBurn.of_eq rfl rfl rfl rfl rfl

theorem touches_State.cxlRead (s : State) (hpa : Nat) :
    Touches mEvent s (State.cxlRead s hpa) := by
  unfold State.cxlRead
  (try dsimp only)
  repeat' (first
    | with_reducible exact Touches.refl _ _
    | ((with_reducible apply Touches.stepBy 0x6842 (touches_State.srExit _)); · decide)
    | ((with_reducible apply Touches.stepBy 0x6842 (touches_State.raiseLim _ _ _ _ _ _ _)); · decide)
    | ((with_reducible apply Touches.stepBy 0x40 (touches_State.send _ _)); · decide)
    | ((with_reducible apply Touches.stepBy 0x2 (touches_State.addSat_hi _ _ _ _ ?hi)); (case hi => first | decide | (simp only [rGLB_HIF_ERR]; omega) | (split <;> decide) | (split <;> simp only [rGLB_HIF_ERR] <;> omega)); (· decide))
    | split
    | with_reducible refine Touches.ofSnd (by assumption) ?_
    | with_reducible refine Touches.ofFst (by assumption) ?_)

theorem touches_State.cxlWrite (s : State) :
    Touches mEvent s (State.cxlWrite s) := by
  unfold State.cxlWrite
  (try dsimp only)
  repeat' (first
    | with_reducible exact Touches.refl _ _
    | ((with_reducible apply Touches.stepBy 0x6842 (touches_State.raiseLim _ _ _ _ _ _ _)); · decide)
    | ((with_reducible apply Touches.stepBy 0x40 (touches_State.send _ _)); · decide)
    | ((with_reducible apply Touches.stepBy 0x2 (touches_State.addSat_hi _ _ _ _ ?hi)); (case hi => first | decide | (simp only [rGLB_HIF_ERR]; omega) | (split <;> decide) | (split <;> simp only [rGLB_HIF_ERR] <;> omega)); (· decide))
    | split)

theorem touches_State.hdmCommit (s : State) (one : Bool) (base size skip ways : Nat) (lock : Bool) :
    Touches mEvent s (State.hdmCommit s one base size skip ways lock) := by
  unfold State.hdmCommit
  (try dsimp only)
  repeat' (first
    | with_reducible exact Touches.refl _ _
    | ((with_reducible apply Touches.stepBy 0x6842 (touches_State.raise _ _ _ _ _)); · decide)
    | ((with_reducible apply Touches.stepBy 0x4000 (touches_State.updHif _ _)); · decide)
    | split)

theorem touches_State.snoop (s : State) :
    Touches mOuts s (State.snoop s) := by
  unfold State.snoop
  (try dsimp only)
  repeat' (first
    | with_reducible exact Touches.refl _ _
    | ((with_reducible apply Touches.stepBy 0x40 (touches_State.send _ _)); · decide))

theorem touches_State.sendPending (s : State) :
    Touches (mOuts ||| mHif) s (State.sendPending s) := by
  unfold State.sendPending
  (try dsimp only)
  repeat' (first
    | with_reducible exact Touches.refl _ _
    | ((with_reducible apply Touches.stepBy 0x4040 (touches_State.signal _ _)); · decide)
    | ((with_reducible refine Touches.foldl ?_ ?_))
    | ((with_reducible refine Touches.foldlSnd ?_ ?_))
    | ((with_reducible refine Touches.foldlFst ?_ ?_))
    | ((intro t b); try dsimp only)
    | split)

theorem touches_State.unmask (s : State) (u : Unmask) :
    Touches mEvent s (State.unmask s u) := by
  unfold State.unmask
  (try dsimp only)
  repeat' (first
    | with_reducible exact Touches.refl _ _
    | ((with_reducible apply Touches.stepBy 0x6842 (touches_State.lostRecord _)); · decide)
    | ((with_reducible apply Touches.stepBy 0x4040 (touches_State.signal _ _)); · decide)
    | ((with_reducible apply Touches.stepBy 0x4000 (touches_State.setVec _ _ _)); · decide)
    | ((with_reducible apply Touches.stepBy 0x4040 (touches_State.sendPending _)); · decide)
    | ((with_reducible apply Touches.stepBy 0x4000 (touches_State.updHif _ _)); · decide)
    | split
    | with_reducible refine Touches.ofSnd (by assumption) ?_
    | with_reducible refine Touches.ofFst (by assumption) ?_)

theorem touches_State.moderationEnd (s : State) (v : Nat) :
    Touches (mOuts ||| mTime ||| mHif) s (State.moderationEnd s v) := by
  unfold State.moderationEnd
  (try dsimp only)
  repeat' (first
    | with_reducible exact Touches.refl _ _
    | ((with_reducible apply Touches.stepBy 0x4040 (touches_State.signal _ _)); · decide)
    | ((with_reducible apply Touches.stepBy 0x80 (touches_State.reach _ _)); · decide)
    | split
    | with_reducible refine Touches.ofSnd (by assumption) ?_
    | with_reducible refine Touches.ofFst (by assumption) ?_)

theorem touches_State.linkRetrain (s : State) (width rate : Nat) (cxl : Bool) :
    Touches (mEvent ||| mGlb) s (State.linkRetrain s width rate cxl) := by
  unfold State.linkRetrain
  (try dsimp only)
  repeat' (first
    | with_reducible exact Touches.refl _ _
    | ((with_reducible apply Touches.stepBy 0x6842 (touches_State.lostRecord _)); · decide)
    | ((with_reducible apply Touches.stepBy 0x6842 (touches_State.raise _ _ _ _ _)); · decide)
    | ((with_reducible apply Touches.stepBy 0x2 (touches_State.addSat_hi _ _ _ _ ?hi)); (case hi => first | decide | (simp only [rGLB_HIF_LINK, rGLB_STATUS]; omega) | (split <;> decide) | (split <;> simp only [rGLB_HIF_LINK, rGLB_STATUS] <;> omega)); (· decide))
    | ((with_reducible apply Touches.stepBy 0x80000000000002 (touches_State.addSat _ _ _ _)); · decide)
    | ((with_reducible apply Touches.stepBy 0x2 (touches_State.setFlds_hi _ _ _ ?hi)); (case hi => first | decide | (simp only [rGLB_HIF_LINK, rGLB_STATUS]; omega) | (split <;> decide) | (split <;> simp only [rGLB_HIF_LINK, rGLB_STATUS] <;> omega)); (· decide))
    | ((with_reducible apply Touches.stepBy 0x80000000000002 (touches_State.setFlds _ _ _)); · decide)
    | ((with_reducible apply Touches.stepBy 0x2 (touches_State.setFld_hi _ _ _ _ ?hi)); (case hi => first | decide | (simp only [rGLB_HIF_LINK, rGLB_STATUS]; omega) | (split <;> decide) | (split <;> simp only [rGLB_HIF_LINK, rGLB_STATUS] <;> omega)); (· decide))
    | ((with_reducible apply Touches.stepBy 0x80000000000002 (touches_State.setFld _ _ _ _)); · decide)
    | ((with_reducible apply Touches.stepBy 0x4040 (touches_State.sendPending _)); · decide)
    | ((with_reducible apply Touches.stepBy 0x4000 (touches_State.updHif _ _)); · decide)
    | ((with_reducible apply Touches.stepBy 0x6842 (touches_State.admRetest _)); · decide)
    | split
    | (with_reducible constructor <;> first | exact fun h => absurd h (by decide) | exact fun _ => rfl | exact fun _ a _ => State.rd_congr (by rfl) a | exact fun h => h.of_eq rfl rfl rfl rfl rfl | exact FusesOnlyBurn.of_eq rfl rfl rfl rfl rfl))

theorem touches_State.fnReset (s : State) :
    Touches (mEvent ||| mCtxs ||| mBillets ||| mPorts ||| mDma) s (State.fnReset s) := by
  unfold State.fnReset
  (try dsimp only)
  repeat' (first
    | with_reducible exact Touches.refl _ _
    | ((with_reducible apply Touches.stepBy 0x2 (touches_State.setFld_hi _ _ _ _ ?hi)); (case hi => first | decide | (simp only [rEVT_CTRL]; omega) | (split <;> decide) | (split <;> simp only [rEVT_CTRL] <;> omega)); (· decide))
    | ((with_reducible apply Touches.stepBy 0x4000 (touches_State.updHif _ _)); · decide)
    | ((with_reducible apply Touches.stepBy 0x400000003e842 (touches_State.dmaHaltAll _)); · decide))

theorem touches_State.linkDown (s : State) :
    Touches (mEvent ||| mCtxs ||| mBillets ||| mPorts ||| mDma) s (State.linkDown s) := by
  unfold State.linkDown
  (try dsimp only)
  repeat' (first
    | with_reducible exact Touches.refl _ _
    | ((with_reducible apply Touches.stepBy 0x2 (touches_State.addSat_hi _ _ _ _ ?hi)); (case hi => first | decide | (simp only [rGLB_HIF_LINK, rGLB_HIF_RESET]; omega) | (split <;> decide) | (split <;> simp only [rGLB_HIF_LINK, rGLB_HIF_RESET] <;> omega)); (· decide))
    | ((with_reducible apply Touches.stepBy 0x2 (touches_State.setFld_hi _ _ _ _ ?hi)); (case hi => first | decide | (simp only [rGLB_HIF_LINK, rGLB_HIF_RESET]; omega) | (split <;> decide) | (split <;> simp only [rGLB_HIF_LINK, rGLB_HIF_RESET] <;> omega)); (· decide))
    | ((with_reducible apply Touches.stepBy 0x400000003e842 (touches_State.fnReset _)); · decide)
    | ((with_reducible apply Touches.stepBy 0x4000 (touches_State.updHif _ _)); · decide)
    | split)

theorem touches_State.flr (s : State) :
    Touches (mEvent ||| mCtxs ||| mBillets ||| mPorts ||| mDma) s (State.flr s) := by
  unfold State.flr
  (try dsimp only)
  repeat' (first
    | with_reducible exact Touches.refl _ _
    | ((with_reducible apply Touches.stepBy 0x6842 (touches_State.raise _ _ _ _ _)); · decide)
    | ((with_reducible apply Touches.stepBy 0x2 (touches_State.addSat_hi _ _ _ _ ?hi)); (case hi => first | decide | (simp only [rGLB_HIF_RESET]; omega) | (split <;> decide) | (split <;> simp only [rGLB_HIF_RESET] <;> omega)); (· decide))
    | ((with_reducible apply Touches.stepBy 0x2 (touches_State.setFld_hi _ _ _ _ ?hi)); (case hi => first | decide | (simp only [rGLB_HIF_RESET]; omega) | (split <;> decide) | (split <;> simp only [rGLB_HIF_RESET] <;> omega)); (· decide))
    | ((with_reducible apply Touches.stepBy 0x400000003e842 (touches_State.fnReset _)); · decide))

theorem touches_State.zcEnd (s : State) (x : Nat) :
    Touches (mRegs ||| mCtxs ||| mBillets) s (State.zcEnd s x) := by
  unfold State.zcEnd
  (try dsimp only)
  repeat' (first
    | with_reducible exact Touches.refl _ _
    | ((with_reducible apply Touches.stepBy 0x18002 (touches_State.finishTo _ _ _ _)); · decide)
    | ((with_reducible apply Touches.stepBy 0x8000 (touches_State.updCtx _ _ _)); · decide)
    | ((with_reducible refine Touches.foldl ?_ ?_))
    | ((intro t b); try dsimp only)
    | split
    | with_reducible refine Touches.ofSnd (by assumption) ?_
    | with_reducible refine Touches.ofFst (by assumption) ?_)

theorem touches_State.cxlReset (s : State) (memClr : Bool) :
    Touches (mEvent ||| mAct ||| mStore ||| mCtxs ||| mBillets ||| mPorts ||| mBadLines ||| mPlan ||| mCnv ||| mCal ||| mDdc ||| mXfm ||| mTq ||| mBus ||| mDecs ||| mNet ||| mAve ||| mMem ||| mDma ||| mRst ||| mGlb) s (State.cxlReset s memClr) := by
  unfold State.cxlReset
  (try dsimp only)
  repeat' (first
    | with_reducible exact Touches.refl _ _
    | ((with_reducible apply Touches.stepBy 0x18002 (touches_State.settleBillet _ _)); · decide)
    | ((with_reducible apply Touches.stepBy 0x10000 (touches_State.setBillet _ _ _)); · decide)
    | ((with_reducible apply Touches.stepBy 0x6842 (touches_State.cxlResetDone _)); · decide)
    | ((with_reducible apply Touches.stepBy 0x8830a43a41e846 (touches_State.dpOrder _ _)); · decide)
    | ((with_reducible apply Touches.stepBy 0x2 (touches_State.addMod_hi _ _ _ _ ?hi)); (case hi => first | decide | (simp only [rGLB_HIF_BIAS, rGLB_HIF_RESET]; omega) | (split <;> decide) | (split <;> simp only [rGLB_HIF_BIAS, rGLB_HIF_RESET] <;> omega)); (· decide))
    | ((with_reducible apply Touches.stepBy 0x80000000000002 (touches_State.addMod _ _ _ _)); · decide)
    | ((with_reducible apply Touches.stepBy 0x2 (touches_State.setFld_hi _ _ _ _ ?hi)); (case hi => first | decide | (simp only [rGLB_HIF_BIAS, rGLB_HIF_RESET]; omega) | (split <;> decide) | (split <;> simp only [rGLB_HIF_BIAS, rGLB_HIF_RESET] <;> omega)); (· decide))
    | ((with_reducible apply Touches.stepBy 0x80000000000002 (touches_State.setFld _ _ _ _)); · decide)
    | ((with_reducible apply Touches.stepBy 0x8000000000000 (touches_State.onRst _ _)); · decide)
    | ((with_reducible apply Touches.stepBy 0x2000000000000 (touches_State.onMem _ _)); · decide)
    | ((with_reducible apply Touches.stepBy 0x100000 (touches_State.onBadLines _ _)); · decide)
    | ((with_reducible apply Touches.stepBy 0x400 (touches_State.storeClear _)); · decide)
    | ((with_reducible apply Touches.stepBy 0x18002 (touches_State.zcEnd _ _)); · decide)
    | ((with_reducible apply Touches.stepBy 0x4000 (touches_State.updHif _ _)); · decide)
    | ((with_reducible apply Touches.stepBy 0x400000003e842 (touches_State.dmaHaltAll _)); · decide)
    | ((with_reducible refine Touches.foldl ?_ ?_))
    | ((with_reducible refine Touches.foldlFst ?_ ?_))
    | ((intro t b); try dsimp only)
    | split)

theorem touches_State.busMasterOff (s : State) :
    Touches mHif s (State.busMasterOff s) := by
  unfold State.busMasterOff
  (try dsimp only)
  repeat' (first
    | with_reducible exact Touches.refl _ _
    | ((with_reducible apply Touches.stepBy 0x4000 (touches_State.updHif _ _)); · decide))

theorem touches_State.requestFail (s : State) (r : Requester) (timeout : Bool) :
    Touches (mEvent ||| mCtxs ||| mBillets ||| mPorts ||| mPlan ||| mXfm ||| mDma ||| mCmp) s (State.requestFail s r timeout) := by
  unfold State.requestFail
  (try dsimp only)
  repeat' (first
    | with_reducible exact Touches.refl _ _
    | ((with_reducible apply Touches.stepBy 0x20006842 (touches_State.tabLoadEnd _ _ _)); · decide)
    | ((with_reducible apply Touches.stepBy 0x406842 (touches_State.planReject _ _)); · decide)
    | ((with_reducible apply Touches.stepBy 0x6842 (touches_State.raiseLim _ _ _ _ _ _ _)); · decide)
    | ((with_reducible apply Touches.stepBy 0x40 (touches_State.send _ _)); · decide)
    | ((with_reducible apply Touches.stepBy 0x2 (touches_State.addSat_hi _ _ _ _ ?hi)); (case hi => first | decide | (simp only [rGLB_HIF_CTO]; omega) | (split <;> decide) | (split <;> simp only [rGLB_HIF_CTO] <;> omega)); (· decide))
    | ((with_reducible apply Touches.stepBy 0x400000003e842 (touches_State.dmaReqFail _ _ _)); · decide)
    | ((with_reducible apply Touches.stepBy 0x6842 (touches_State.hostFail _ _)); · decide)
    | ((with_reducible apply Touches.stepBy 0x20000000006842 (touches_State.jobAbort _ _ _)); · decide)
    | split
    | with_reducible refine Touches.ofSnd (by assumption) ?_
    | with_reducible refine Touches.ofFst (by assumption) ?_)

theorem touches_State.dbDiscard (s : State) :
    Touches mEvent s (State.dbDiscard s) := by
  unfold State.dbDiscard
  (try dsimp only)
  repeat' (first
    | with_reducible exact Touches.refl _ _
    | ((with_reducible apply Touches.stepBy 0x6842 (touches_State.raiseLim _ _ _ _ _ _ _)); · decide)
    | ((with_reducible apply Touches.stepBy 0x2 (touches_State.addSat_hi _ _ _ _ ?hi)); (case hi => first | decide | (simp only [rGLB_HIF_ACCESS]; omega) | (split <;> decide) | (split <;> simp only [rGLB_HIF_ACCESS] <;> omega)); (· decide)))

theorem touches_State.dbRelease (s : State) (x n : Nat) :
    Touches (mEvent ||| mCtxs ||| mBillets) s (State.dbRelease s x n) := by
  unfold State.dbRelease
  (try dsimp only)
  repeat' (first
    | with_reducible exact Touches.refl _ _
    | ((with_reducible apply Touches.stepBy 0x1e842 (touches_State.zcRelease _ _ _)); · decide)
    | ((with_reducible apply Touches.stepBy 0x6842 (touches_State.dbDiscard _)); · decide)
    | split)

theorem touches_State.dbFlush (s : State) (x : Nat) (go : Bool) :
    Touches (mEvent ||| mFreeCtr ||| mStore ||| mCtxs ||| mBillets ||| mBadLines) s (State.dbFlush s x go) := by
  unfold State.dbFlush
  (try dsimp only)
  repeat' (first
    | with_reducible exact Touches.refl _ _
    | ((with_reducible apply Touches.stepBy 0x11ee42 (touches_State.flushCtx _ _)); · decide)
    | ((with_reducible apply Touches.stepBy 0x6842 (touches_State.dbDiscard _)); · decide)
    | split)

theorem touches_State.bar4Write (s : State) (a : Nat) (v : Word) :
    Touches (mEvent ||| mFreeCtr ||| mStore ||| mCtxs ||| mBillets ||| mBadLines) s (State.bar4Write s a v) := by
  unfold State.bar4Write
  (try dsimp only)
  repeat' (first
    | with_reducible exact Touches.refl _ _
    | ((with_reducible apply Touches.stepBy 0x11ee42 (touches_State.dbFlush _ _ _)); · decide)
    | ((with_reducible apply Touches.stepBy 0x1e842 (touches_State.dbRelease _ _ _)); · decide)
    | ((with_reducible apply Touches.stepBy 0x6842 (touches_State.dbDiscard _)); · decide)
    | split
    | with_reducible refine Touches.ofSnd (by assumption) ?_
    | with_reducible refine Touches.ofFst (by assumption) ?_)

theorem touches_State.bar2Write (s : State) (a : Nat) (v : Word) :
    Touches (mOuts ||| mHif) s (State.bar2Write s a v) := by
  unfold State.bar2Write
  (try dsimp only)
  repeat' (first
    | with_reducible exact Touches.refl _ _
    | ((with_reducible apply Touches.stepBy 0x4040 (touches_State.signal _ _)); · decide)
    | ((with_reducible apply Touches.stepBy 0x4000 (touches_State.setVec _ _ _)); · decide)
    | split)

theorem touches_State.doe {m : Nat} (hm : mOuts &&& m = mOuts) (s : State) (len : Nat) (busy : Bool) (h : State → State)
    (k : ∀ t, Touches m t (h t)) : Touches m s (State.doe s len busy h) := by
  unfold State.doe
  split
  · exact (touches_State.send s _).mono hm
  · exact k s

theorem touches_State.spdm (s : State) (a : DoeAnswer) :
    Touches (mRegs ||| mOuts) s (State.spdm s a) := by
  unfold State.spdm
  (try dsimp only)
  repeat' (first
    | with_reducible exact Touches.refl _ _
    | ((with_reducible apply Touches.stepBy 0x40 (touches_State.send _ _)); · decide)
    | ((with_reducible apply Touches.stepBy 0x2 (touches_State.addMod_hi _ _ _ _ ?hi)); (case hi => first | decide | (simp only [rSEC_SPDM]; omega) | (split <;> decide) | (split <;> simp only [rSEC_SPDM] <;> omega)); (· decide))
    | ((with_reducible apply touches_State.doe ?_ _ _ _ _ ?_); (· decide); intro t; try dsimp only)
    | ((intro t b); try dsimp only))

theorem touches_State.spdmError (s : State) :
    Touches mEvent s (State.spdmError s) := by
  unfold State.spdmError
  (try dsimp only)
  repeat' (first
    | with_reducible exact Touches.refl _ _
    | ((with_reducible apply Touches.stepBy 0x6842 (touches_State.raiseLim _ _ _ _ _ _ _)); · decide)
    | ((with_reducible apply Touches.stepBy 0x2 (touches_State.addSat_hi _ _ _ _ ?hi)); (case hi => first | decide | (simp only [rSEC_SPDM]; omega) | (split <;> decide) | (split <;> simp only [rSEC_SPDM] <;> omega)); (· decide))
    | ((with_reducible apply Touches.stepBy 0x42 (touches_State.spdm _ _)); · decide))

theorem touches_State.measure (s : State) (index v : Nat) :
    Touches (mEvent ||| mStk) s (State.measure s index v) := by
  unfold State.measure
  (try dsimp only)
  repeat' (first
    | with_reducible exact Touches.refl _ _
    | ((with_reducible apply Touches.stepBy 0x6842 (touches_State.raise _ _ _ _ _)); · decide)
    | ((with_reducible apply Touches.stepBy 0x2 (touches_State.addMod_hi _ _ _ _ ?hi)); (case hi => first | decide | (simp only [rSEC_MEAS]; omega) | (split <;> decide) | (split <;> simp only [rSEC_MEAS] <;> omega)); (· decide))
    | ((with_reducible apply Touches.stepBy 0x2 (touches_State.setFld_hi _ _ _ _ ?hi)); (case hi => first | decide | (simp only [rSEC_MEAS]; omega) | (split <;> decide) | (split <;> simp only [rSEC_MEAS] <;> omega)); (· decide))
    | ((with_reducible apply Touches.stepBy 0x10000000000000 (touches_State.onStk _ _ ?fz)); (case fz => first | exact FusesOnlyBurn.of_eq rfl rfl rfl rfl rfl | (constructor <;> first | exact Nat.le_refl _ | (dsimp only; omega) | exact fun _ h => ⟨h, rfl⟩ | exact id) | (constructor <;> simp_all)); (· decide)))

/-! ### Machine/Stk.lean -/

theorem touches_State.updStk (s : State) (f : Stk → Stk) (k : FusesOnlyBurn s.stk (f s.stk)) : Touches mStk s (State.updStk s f) := by
  constructor <;> first | exact fun h => absurd h (by decide) | exact fun _ => rfl | exact fun _ _ _ => rfl | exact fun h => h.of_eq rfl rfl rfl rfl rfl | exact k

theorem touches_State.thmPin (s : State) :
    Touches mEvent s (State.thmPin s) := by
  unfold State.thmPin
  (try dsimp only)
  repeat' (first
    | with_reducible exact Touches.refl _ _
    | ((with_reducible apply Touches.stepBy 0x6842 (touches_State.raiseLim _ _ _ _ _ _ _)); · decide)
    | ((with_reducible apply Touches.stepBy 0x2 (touches_State.addSat_hi _ _ _ _ ?hi)); (case hi => first | decide | (simp only [rTHM_STATUS]; omega) | (split <;> decide) | (split <;> simp only [rTHM_STATUS] <;> omega)); (· decide))
    | ((with_reducible apply Touches.stepBy 0x2 (touches_State.setFlds_hi _ _ _ ?hi)); (case hi => first | decide | (simp only [rTHM_STATUS]; omega) | (split <;> decide) | (split <;> simp only [rTHM_STATUS] <;> omega)); (· decide))
    | ((with_reducible apply Touches.stepBy 0x2 (touches_State.setFld_hi _ _ _ _ ?hi)); (case hi => first | decide | (simp only [rTHM_STATUS]; omega) | (split <;> decide) | (split <;> simp only [rTHM_STATUS] <;> omega)); (· decide))
    | split)

theorem touches_State.wrStkCmd (v : Word) (s : State) :
    Touches (mRegs ||| mStk) s (State.wrStkCmd v s) := by
  unfold State.wrStkCmd
  (try dsimp only)
  repeat' (first
    | with_reducible exact Touches.refl _ _
    | ((with_reducible apply Touches.stepBy 0x10000000000000 (touches_State.updStk _ _ ?fz)); (case fz => first | exact FusesOnlyBurn.of_eq rfl rfl rfl rfl rfl | (constructor <;> first | exact Nat.le_refl _ | (dsimp only; omega) | exact fun _ h => ⟨h, rfl⟩ | exact id) | (constructor <;> simp_all)); (· decide))
    | ((with_reducible apply Touches.stepBy 0x2 (touches_State.addSat_hi _ _ _ _ ?hi)); (case hi => first | decide | (simp only [rSTK_ARG, rSTK_QUEUE, rSTK_RESULT]; omega) | (split <;> decide) | (split <;> simp only [rSTK_ARG, rSTK_QUEUE, rSTK_RESULT] <;> omega)); (· decide))
    | ((with_reducible apply Touches.stepBy 0x2 (touches_State.addMod_hi _ _ _ _ ?hi)); (case hi => first | decide | (simp only [rSTK_ARG, rSTK_QUEUE, rSTK_RESULT]; omega) | (split <;> decide) | (split <;> simp only [rSTK_ARG, rSTK_QUEUE, rSTK_RESULT] <;> omega)); (· decide))
    | ((with_reducible apply Touches.stepBy 0x2 (touches_State.wr_hi _ _ _ ?hi)); (case hi => first | decide | (simp only [rSTK_ARG, rSTK_QUEUE, rSTK_RESULT]; omega) | (split <;> decide) | (split <;> simp only [rSTK_ARG, rSTK_QUEUE, rSTK_RESULT] <;> omega)); (· decide))
    | split)

theorem touches_State.safePoint (s : State) :
    Touches (mRegs ||| mFreeCtr) s (State.safePoint s) := by
  unfold State.safePoint
  (try dsimp only)
  repeat' (first
    | with_reducible exact Touches.refl _ _
    | ((with_reducible apply Touches.stepBy 0x200 (touches_State.fresh _)); · decide)
    | ((with_reducible apply Touches.stepBy 0x2 (touches_State.setFld_hi _ _ _ _ ?hi)); (case hi => first | decide | (simp only [rSTK_STATUS]; omega) | (split <;> decide) | (split <;> simp only [rSTK_STATUS] <;> omega)); (· decide)))

theorem touches_State.stkEnd (s : State) (t result reason detail : Nat) :
    Touches (mEvent ||| mFreeCtr ||| mStk) s (State.stkEnd s t result reason detail) := by
  unfold State.stkEnd
  (try dsimp only)
  repeat' (first
    | with_reducible exact Touches.refl _ _
    | ((with_reducible apply Touches.stepBy 0x202 (touches_State.safePoint _)); · decide)
    | ((with_reducible apply Touches.stepBy 0x10000000000000 (touches_State.updStk _ _ ?fz)); (case fz => first | exact FusesOnlyBurn.of_eq rfl rfl rfl rfl rfl | (constructor <;> first | exact Nat.le_refl _ | (dsimp only; omega) | exact fun _ h => ⟨h, rfl⟩ | exact id) | (constructor <;> simp_all)); (· decide))
    | ((with_reducible apply Touches.stepBy 0x6842 (touches_State.raise _ _ _ _ _)); · decide)
    | ((with_reducible apply Touches.stepBy 0x2 (touches_State.setFlds_hi _ _ _ ?hi)); (case hi => first | decide | (simp only [rSTK_QUEUE, rSTK_RESULT]; omega) | (split <;> decide) | (split <;> simp only [rSTK_QUEUE, rSTK_RESULT] <;> omega)); (· decide))
    | ((with_reducible apply Touches.stepBy 0x2 (touches_State.wr_hi _ _ _ ?hi)); (case hi => first | decide | (simp only [rSTK_QUEUE, rSTK_RESULT]; omega) | (split <;> decide) | (split <;> simp only [rSTK_QUEUE, rSTK_RESULT] <;> omega)); (· decide))
    | split)

theorem touches_State.stkDone (s : State) (c : StkCmd) (detail : Nat) :
    Touches (mEvent ||| mFreeCtr ||| mStk) s (State.stkDone s c detail) := by
  unfold State.stkDone
  (try dsimp only)
  repeat' (first
    | with_reducible exact Touches.refl _ _
    | ((with_reducible apply Touches.stepBy 0x10000000006a42 (touches_State.stkEnd _ _ _ _ _)); · decide))

theorem touches_State.stkFailed (s : State) (c : StkCmd) (reason detail : Nat) :
    Touches (mEvent ||| mFreeCtr ||| mStk) s (State.stkFailed s c reason detail) := by
  unfold State.stkFailed
  (try dsimp only)
  repeat' (first
    | with_reducible exact Touches.refl _ _
    | ((with_reducible apply Touches.stepBy 0x10000000006a42 (touches_State.stkEnd _ _ _ _ _)); · decide))

theorem touches_State.stkRefused (s : State) (c : StkCmd) (reason : Nat) :
    Touches (mEvent ||| mFreeCtr ||| mStk) s (State.stkRefused s c reason) := by
  unfold State.stkRefused
  (try dsimp only)
  repeat' (first
    | with_reducible exact Touches.refl _ _
    | ((with_reducible apply Touches.stepBy 0x10000000006a42 (touches_State.stkEnd _ _ _ _ _)); · decide))

theorem touches_State.stkRunning (s : State) (c : StkCmd) :
    Touches (mRegs ||| mStk) s (State.stkRunning s c) := by
  unfold State.stkRunning
  (try dsimp only)
  repeat' (first
    | with_reducible exact Touches.refl _ _
    | ((with_reducible apply Touches.stepBy 0x10000000000000 (touches_State.updStk _ _ ?fz)); (case fz => first | exact FusesOnlyBurn.of_eq rfl rfl rfl rfl rfl | (constructor <;> first | exact Nat.le_refl _ | (dsimp only; omega) | exact fun _ h => ⟨h, rfl⟩ | exact id) | (constructor <;> simp_all)); (· decide))
    | ((with_reducible apply Touches.stepBy 0x2 (touches_State.setFld_hi _ _ _ _ ?hi)); (case hi => first | decide | (simp only [rSTK_RESULT]; omega) | (split <;> decide) | (split <;> simp only [rSTK_RESULT] <;> omega)); (· decide))
    | split)

theorem touches_State.stkRun {m : Nat} (s : State) (code : Nat) (f : StkCmd → State) (k : ∀ c, Touches m s (f c)) :
    Touches m s (State.stkRun s code f) := by
  unfold State.stkRun
  split
  · split
    · exact k _
    · exact Touches.refl _ _
  · exact Touches.refl _ _

theorem touches_State.wrStkCancel (v : Word) (s : State) :
    Touches (mEvent ||| mFreeCtr ||| mStk) s (State.wrStkCancel v s) := by
  unfold State.wrStkCancel
  (try dsimp only)
  repeat' (first
    | with_reducible exact Touches.refl _ _
    | ((with_reducible apply Touches.stepBy 0x10000000006a42 (touches_State.stkEnd _ _ _ _ _)); · decide)
    | ((with_reducible apply Touches.stepBy 0x2 (touches_State.wrCodes_hi _ _ _ _ ?hi)); (case hi => first | decide | (simp only [rSTK_CANCEL]; omega) | (split <;> decide) | (split <;> simp only [rSTK_CANCEL] <;> omega)); (· decide))
    | split)

theorem touches_State.stkNop (s : State) :
    Touches (mEvent ||| mFreeCtr ||| mStk) s (State.stkNop s) := by
  unfold State.stkNop
  (try dsimp only)
  repeat' (first
    | with_reducible exact Touches.refl _ _
    | ((with_reducible apply touches_State.stkRun _ _ _ ?_); intro t; try dsimp only)
    | ((with_reducible apply Touches.stepBy 0x10000000006a42 (touches_State.stkDone _ _ _)); · decide)
    | ((intro t b); try dsimp only))

theorem touches_State.stkFlashRead (s : State) :
    Touches (mEvent ||| mFreeCtr ||| mStk) s (State.stkFlashRead s) := by
  unfold State.stkFlashRead
  (try dsimp only)
  repeat' (first
    | with_reducible exact Touches.refl _ _
    | ((with_reducible apply touches_State.stkRun _ _ _ ?_); intro t; try dsimp only)
    | ((with_reducible apply Touches.stepBy 0x10000000006a42 (touches_State.stkRefused _ _ _)); · decide)
    | ((with_reducible apply Touches.stepBy 0x10000000006a42 (touches_State.stkFailed _ _ _ _)); · decide)
    | ((with_reducible apply Touches.stepBy 0x10000000006a42 (touches_State.stkDone _ _ _)); · decide)
    | ((with_reducible apply Touches.stepBy 0x800 (touches_State.hostWrite _ _ _)); · decide)
    | ((intro t b); try dsimp only)
    | split)

theorem touches_State.storeResume (s : State) :
    Touches (mEvent ||| mFlash ||| mCal) s (State.storeResume s) := by
  unfold State.storeResume
  (try dsimp only)
  repeat' (first
    | with_reducible exact Touches.refl _ _
    | ((with_reducible apply Touches.stepBy 0x8007842 (touches_State.storeBegin _)); · decide)
    | split)

theorem touches_State.stkFlashUpdate (s : State) (img : HostRead) (ok : Bool) :
    Touches (mEvent ||| mFreeCtr ||| mFlash ||| mCal ||| mStk) s (State.stkFlashUpdate s img ok) := by
  unfold State.stkFlashUpdate
  (try dsimp only)
  repeat' (first
    | with_reducible exact Touches.refl _ _
    | ((with_reducible apply Touches.stepBy 0x8007842 (touches_State.storeResume _)); · decide)
    | ((with_reducible apply touches_State.stkRun _ _ _ ?_); intro t; try dsimp only)
    | ((with_reducible apply Touches.stepBy 0x10000000000002 (touches_State.stkRunning _ _)); · decide)
    | ((with_reducible apply Touches.stepBy 0x10000000006a42 (touches_State.stkRefused _ _ _)); · decide)
    | ((with_reducible apply Touches.stepBy 0x10000000006a42 (touches_State.stkFailed _ _ _ _)); · decide)
    | ((with_reducible apply Touches.stepBy 0x10000000006a42 (touches_State.stkDone _ _ _)); · decide)
    | ((with_reducible apply Touches.stepBy 0x1000 (touches_State.flashErase _ _ _)); · decide)
    | ((with_reducible apply Touches.stepBy 0x1000 (touches_State.flashWrite _ _ _)); · decide)
    | ((intro t b); try dsimp only)
    | split)

theorem touches_State.stkCalStore (s : State) :
    Touches (mEvent ||| mFreeCtr ||| mFlash ||| mCal ||| mStk) s (State.stkCalStore s) := by
  unfold State.stkCalStore
  (try dsimp only)
  repeat' (first
    | with_reducible exact Touches.refl _ _
    | ((with_reducible apply touches_State.stkRun _ _ _ ?_); intro t; try dsimp only)
    | ((with_reducible apply Touches.stepBy 0x10000000000002 (touches_State.stkRunning _ _)); · decide)
    | ((with_reducible apply Touches.stepBy 0x10000000006a42 (touches_State.stkRefused _ _ _)); · decide)
    | ((with_reducible apply Touches.stepBy 0x8007842 (touches_State.storeAsk _)); · decide)
    | ((intro t b); try dsimp only)
    | split)

theorem touches_State.calStoreEnd (s : State) (ok : Bool) :
    Touches (mEvent ||| mFreeCtr ||| mFlash ||| mCal ||| mStk) s (State.calStoreEnd s ok) := by
  unfold State.calStoreEnd
  (try dsimp only)
  repeat' (first
    | with_reducible exact Touches.refl _ _
    | ((with_reducible apply Touches.stepBy 0x10000000006a42 (touches_State.stkFailed _ _ _ _)); · decide)
    | ((with_reducible apply Touches.stepBy 0x10000000006a42 (touches_State.stkDone _ _ _)); · decide)
    | ((with_reducible apply Touches.stepBy 0x10000000006842 (touches_State.measure _ _ _)); · decide)
    | ((with_reducible apply Touches.stepBy 0x7842 (touches_State.storeEnd _ _)); · decide)
    | ((with_reducible apply Touches.stepBy 0x8000000 (touches_State.storeCapture _ _)); · decide)
    | ((with_reducible refine Touches.foldl ?_ ?_))
    | ((intro t b); try dsimp only)
    | split
    | with_reducible refine Touches.ofSnd (by assumption) ?_
    | with_reducible refine Touches.ofFst (by assumption) ?_)

theorem touches_State.measureFuses (s : State) :
    Touches (mEvent ||| mStk) s (State.measureFuses s) := by
  unfold State.measureFuses
  (try dsimp only)
  repeat' (first
    | with_reducible exact Touches.refl _ _
    | ((with_reducible apply Touches.stepBy 0x10000000006842 (touches_State.measure _ _ _)); · decide))

theorem touches_State.fuseRegs (s : State) :
    Touches mRegs s (State.fuseRegs s) := by
  unfold State.fuseRegs
  (try dsimp only)
  repeat' (first
    | with_reducible exact Touches.refl _ _
    | ((with_reducible apply Touches.stepBy 0x2 (touches_State.setFlds_hi _ _ _ ?hi)); (case hi => first | decide | (simp only [rSEC_PLANKEY_HASH, rSEC_STATUS, rSEC_SVN]; omega) | (split <;> decide) | (split <;> simp only [rSEC_PLANKEY_HASH, rSEC_STATUS, rSEC_SVN] <;> omega)); (· decide))
    | ((with_reducible apply Touches.stepBy 0x2 (touches_State.wr_hi _ _ _ ?hi)); (case hi => first | decide | (simp only [rSEC_PLANKEY_HASH, rSEC_STATUS, rSEC_SVN]; omega) | (split <;> decide) | (split <;> simp only [rSEC_PLANKEY_HASH, rSEC_STATUS, rSEC_SVN] <;> omega)); (· decide))
    | ((with_reducible refine Touches.foldl ?_ ?_))
    | ((intro t b); try dsimp only)
    | split)

theorem touches_State.stkKeyProvision (s : State) (data : HostRead) (ok : Bool) :
    Touches (mEvent ||| mFreeCtr ||| mStk) s (State.stkKeyProvision s data ok) := by
  unfold State.stkKeyProvision
  (try dsimp only)
  repeat' (first
    | with_reducible exact Touches.refl _ _
    | ((with_reducible apply Touches.stepBy 0x2 (touches_State.fuseRegs _)); · decide)
    | ((with_reducible apply touches_State.stkRun _ _ _ ?_); intro t; try dsimp only)
    | ((with_reducible apply Touches.stepBy 0x10000000006a42 (touches_State.stkRefused _ _ _)); · decide)
    | ((with_reducible apply Touches.stepBy 0x10000000006a42 (touches_State.stkFailed _ _ _ _)); · decide)
    | ((with_reducible apply Touches.stepBy 0x10000000006a42 (touches_State.stkDone _ _ _)); · decide)
    | ((with_reducible apply Touches.stepBy 0x10000000000000 (touches_State.updStk _ _ ?fz)); (case fz => first | exact FusesOnlyBurn.of_eq rfl rfl rfl rfl rfl | (constructor <;> first | exact Nat.le_refl _ | (dsimp only; omega) | exact fun _ h => ⟨h, rfl⟩ | exact id) | (constructor <;> simp_all)); (· decide))
    | ((intro t b); try dsimp only)
    | split)

theorem touches_State.stkKeyLock (s : State) (ok : Bool) :
    Touches (mEvent ||| mFreeCtr ||| mStk) s (State.stkKeyLock s ok) := by
  unfold State.stkKeyLock
  (try dsimp only)
  repeat' (first
    | with_reducible exact Touches.refl _ _
    | ((with_reducible apply Touches.stepBy 0x2 (touches_State.fuseRegs _)); · decide)
    | ((with_reducible apply Touches.stepBy 0x10000000006842 (touches_State.measureFuses _)); · decide)
    | ((with_reducible apply touches_State.stkRun _ _ _ ?_); intro t; try dsimp only)
    | ((with_reducible apply Touches.stepBy 0x10000000006a42 (touches_State.stkRefused _ _ _)); · decide)
    | ((with_reducible apply Touches.stepBy 0x10000000006a42 (touches_State.stkFailed _ _ _ _)); · decide)
    | ((with_reducible apply Touches.stepBy 0x10000000006a42 (touches_State.stkDone _ _ _)); · decide)
    | ((with_reducible apply Touches.stepBy 0x10000000000000 (touches_State.updStk _ _ ?fz)); (case fz => first | exact FusesOnlyBurn.of_eq rfl rfl rfl rfl rfl | (constructor <;> first | exact Nat.le_refl _ | (dsimp only; omega) | exact fun _ h => ⟨h, rfl⟩ | exact id) | (constructor <;> simp_all)); (· decide))
    | ((intro t b); try dsimp only)
    | split
    | with_reducible refine Touches.ofSnd (by assumption) ?_
    | with_reducible refine Touches.ofFst (by assumption) ?_)

theorem touches_State.stkSvnCommit (s : State) (ok : Bool) :
    Touches (mEvent ||| mFreeCtr ||| mStk) s (State.stkSvnCommit s ok) := by
  unfold State.stkSvnCommit
  (try dsimp only)
  repeat' (first
    | with_reducible exact Touches.refl _ _
    | ((with_reducible apply Touches.stepBy 0x2 (touches_State.fuseRegs _)); · decide)
    | ((with_reducible apply Touches.stepBy 0x10000000006842 (touches_State.measureFuses _)); · decide)
    | ((with_reducible apply touches_State.stkRun _ _ _ ?_); intro t; try dsimp only)
    | ((with_reducible apply Touches.stepBy 0x10000000006a42 (touches_State.stkRefused _ _ _)); · decide)
    | ((with_reducible apply Touches.stepBy 0x10000000006a42 (touches_State.stkFailed _ _ _ _)); · decide)
    | ((with_reducible apply Touches.stepBy 0x10000000006a42 (touches_State.stkDone _ _ _)); · decide)
    | ((with_reducible apply Touches.stepBy 0x10000000000000 (touches_State.updStk _ _ ?fz)); (case fz => first | exact FusesOnlyBurn.of_eq rfl rfl rfl rfl rfl | (constructor <;> first | exact Nat.le_refl _ | (dsimp only; omega) | exact fun _ h => ⟨h, rfl⟩ | exact id) | (constructor <;> simp_all)); (· decide))
    | ((intro t b); try dsimp only)
    | split)

theorem touches_State.stkSecureEnable (s : State) (ok : Bool) :
    Touches (mEvent ||| mFreeCtr ||| mStk) s (State.stkSecureEnable s ok) := by
  unfold State.stkSecureEnable
  (try dsimp only)
  repeat' (first
    | with_reducible exact Touches.refl _ _
    | ((with_reducible apply Touches.stepBy 0x2 (touches_State.fuseRegs _)); · decide)
    | ((with_reducible apply Touches.stepBy 0x10000000006842 (touches_State.measureFuses _)); · decide)
    | ((with_reducible apply touches_State.stkRun _ _ _ ?_); intro t; try dsimp only)
    | ((with_reducible apply Touches.stepBy 0x10000000006a42 (touches_State.stkRefused _ _ _)); · decide)
    | ((with_reducible apply Touches.stepBy 0x10000000006a42 (touches_State.stkFailed _ _ _ _)); · decide)
    | ((with_reducible apply Touches.stepBy 0x10000000006a42 (touches_State.stkDone _ _ _)); · decide)
    | ((with_reducible apply Touches.stepBy 0x10000000000000 (touches_State.updStk _ _ ?fz)); (case fz => first | exact FusesOnlyBurn.of_eq rfl rfl rfl rfl rfl | (constructor <;> first | exact Nat.le_refl _ | (dsimp only; omega) | exact fun _ h => ⟨h, rfl⟩ | exact id) | (constructor <;> simp_all)); (· decide))
    | ((intro t b); try dsimp only)
    | split)

theorem touches_State.bootTo (s : State) (n : Nat) :
    Touches mStk s (State.bootTo s n) := by
  unfold State.bootTo
  (try dsimp only)
  repeat' (first
    | with_reducible exact Touches.refl _ _
    | ((with_reducible apply Touches.stepBy 0x10000000000000 (touches_State.updStk _ _ ?fz)); (case fz => first | exact FusesOnlyBurn.of_eq rfl rfl rfl rfl rfl | (constructor <;> first | exact Nat.le_refl _ | (dsimp only; omega) | exact fun _ h => ⟨h, rfl⟩ | exact id) | (constructor <;> simp_all)); (· decide)))

theorem touches_State.bootStop (s : State) (cause : Nat) :
    Touches (mRegs ||| mStk ||| mGlb) s (State.bootStop s cause) := by
  unfold State.bootStop
  (try dsimp only)
  repeat' (first
    | with_reducible exact Touches.refl _ _
    | ((with_reducible apply Touches.stepBy 0x10000000000000 (touches_State.bootTo _ _)); · decide)
    | ((with_reducible apply Touches.stepBy 0x80000000000002 (touches_State.haltWith _ _)); · decide))

theorem touches_State.fallback (s : State) :
    Touches mEvent s (State.fallback s) := by
  unfold State.fallback
  (try dsimp only)
  repeat' (first
    | with_reducible exact Touches.refl _ _
    | ((with_reducible apply Touches.stepBy 0x6842 (touches_State.raise _ _ _ _ _)); · decide)
    | ((with_reducible apply Touches.stepBy 0x2 (touches_State.setFld_hi _ _ _ _ ?hi)); (case hi => first | decide | (simp only [rSEC_STATUS]; omega) | (split <;> decide) | (split <;> simp only [rSEC_STATUS] <;> omega)); (· decide)))

theorem touches_State.bootRef (s : State) (e : BootEnd) :
    Touches (mEvent ||| mStk ||| mGlb) s (State.bootRef s e) := by
  unfold State.bootRef
  (try dsimp only)
  repeat' (first
    | with_reducible exact Touches.refl _ _
    | ((with_reducible apply Touches.stepBy 0x90000000000002 (touches_State.bootStop _ _)); · decide)
    | ((with_reducible apply Touches.stepBy 0x10000000000000 (touches_State.bootTo _ _)); · decide)
    | ((with_reducible apply Touches.stepBy 0x6842 (touches_State.thmPin _)); · decide)
    | ((with_reducible apply Touches.stepBy 0x2 (touches_State.setFlds_hi _ _ _ ?hi)); (case hi => first | decide | (simp only [rCLK_REF, rCLK_STATUS, rTHM_LIMIT, rTHM_STATUS, rTHM_TEMP]; omega) | (split <;> decide) | (split <;> simp only [rCLK_REF, rCLK_STATUS, rTHM_LIMIT, rTHM_STATUS, rTHM_TEMP] <;> omega)); (· decide))
    | ((with_reducible apply Touches.stepBy 0x80000000000002 (touches_State.setFlds _ _ _)); · decide)
    | ((with_reducible apply Touches.stepBy 0x2 (touches_State.setFld_hi _ _ _ _ ?hi)); (case hi => first | decide | (simp only [rCLK_REF, rCLK_STATUS, rTHM_LIMIT, rTHM_STATUS, rTHM_TEMP]; omega) | (split <;> decide) | (split <;> simp only [rCLK_REF, rCLK_STATUS, rTHM_LIMIT, rTHM_STATUS, rTHM_TEMP] <;> omega)); (· decide))
    | ((with_reducible apply Touches.stepBy 0x80000000000002 (touches_State.setFld _ _ _ _)); · decide)
    | split
    | with_reducible refine Touches.ofSnd (by assumption) ?_
    | with_reducible refine Touches.ofFst (by assumption) ?_)

theorem touches_State.bootKindling (s : State) (e : BootEnd) :
    Touches (mEvent ||| mStk ||| mGlb) s (State.bootKindling s e) := by
  unfold State.bootKindling
  (try dsimp only)
  repeat' (first
    | with_reducible exact Touches.refl _ _
    | ((with_reducible apply Touches.stepBy 0x6842 (touches_State.fallback _)); · decide)
    | ((with_reducible apply Touches.stepBy 0x90000000000002 (touches_State.bootStop _ _)); · decide)
    | ((with_reducible apply Touches.stepBy 0x10000000000000 (touches_State.bootTo _ _)); · decide)
    | ((with_reducible apply Touches.stepBy 0x2 (touches_State.setFld_hi _ _ _ _ ?hi)); (case hi => first | decide | (simp only [rCLK_STATUS, rSEC_REV, rSEC_STATUS, rSEC_SVN, rSTK_STATUS]; omega) | (split <;> decide) | (split <;> simp only [rCLK_STATUS, rSEC_REV, rSEC_STATUS, rSEC_SVN, rSTK_STATUS] <;> omega)); (· decide))
    | ((with_reducible apply Touches.stepBy 0x80000000000002 (touches_State.setFld _ _ _ _)); · decide)
    | ((with_reducible apply Touches.stepBy 0x10000000000000 (touches_State.onStk _ _ ?fz)); (case fz => first | exact FusesOnlyBurn.of_eq rfl rfl rfl rfl rfl | (constructor <;> first | exact Nat.le_refl _ | (dsimp only; omega) | exact fun _ h => ⟨h, rfl⟩ | exact id) | (constructor <;> simp_all)); (· decide))
    | split
    | with_reducible refine Touches.ofSnd (by assumption) ?_
    | with_reducible refine Touches.ofFst (by assumption) ?_)

theorem touches_State.bootLock (s : State) (e : BootEnd) :
    Touches (mRegs ||| mClk ||| mStk ||| mGlb) s (State.bootLock s e) := by
  unfold State.bootLock
  (try dsimp only)
  repeat' (first
    | with_reducible exact Touches.refl _ _
    | ((with_reducible apply Touches.stepBy 0x90000000000002 (touches_State.bootStop _ _)); · decide)
    | ((with_reducible apply Touches.stepBy 0x10000000000000 (touches_State.bootTo _ _)); · decide)
    | ((with_reducible apply Touches.stepBy 0x2 (touches_State.setFlds_hi _ _ _ ?hi)); (case hi => first | decide | (simp only [rCLK_MPLL, rCLK_REF, rCLK_STATUS, rGLB_STATUS]; omega) | (split <;> decide) | (split <;> simp only [rCLK_MPLL, rCLK_REF, rCLK_STATUS, rGLB_STATUS] <;> omega)); (· decide))
    | ((with_reducible apply Touches.stepBy 0x80000000000002 (touches_State.setFlds _ _ _)); · decide)
    | ((with_reducible apply Touches.stepBy 0x2 (touches_State.setFld_hi _ _ _ _ ?hi)); (case hi => first | decide | (simp only [rCLK_MPLL, rCLK_REF, rCLK_STATUS, rGLB_STATUS]; omega) | (split <;> decide) | (split <;> simp only [rCLK_MPLL, rCLK_REF, rCLK_STATUS, rGLB_STATUS] <;> omega)); (· decide))
    | ((with_reducible apply Touches.stepBy 0x80000000000002 (touches_State.setFld _ _ _ _)); · decide)
    | ((with_reducible apply Touches.stepBy 0x200000 (touches_State.updClk _ _)); · decide)
    | split
    | with_reducible refine Touches.ofSnd (by assumption) ?_
    | with_reducible refine Touches.ofFst (by assumption) ?_
    | (with_reducible constructor <;> first | exact fun h => absurd h (by decide) | exact fun _ => rfl | exact fun _ a _ => State.rd_congr (by rfl) a | exact fun h => h.of_eq rfl rfl rfl rfl rfl | exact FusesOnlyBurn.of_eq rfl rfl rfl rfl rfl))

theorem touches_State.formMeas (s : State) (i v : Nat) :
    Touches mStk s (State.formMeas s i v) := by
  unfold State.formMeas
  (try dsimp only)
  repeat' (first
    | with_reducible exact Touches.refl _ _
    | ((with_reducible apply Touches.stepBy 0x10000000000000 (touches_State.onStk _ _ ?fz)); (case fz => first | exact FusesOnlyBurn.of_eq rfl rfl rfl rfl rfl | (constructor <;> first | exact Nat.le_refl _ | (dsimp only; omega) | exact fun _ h => ⟨h, rfl⟩ | exact id) | (constructor <;> simp_all)); (· decide)))

theorem touches_State.patchRejects (s : State) (code n : Nat) :
    Touches mEvent s (State.patchRejects s code n) := by
  unfold State.patchRejects
  (try dsimp only)
  repeat' (first
    | with_reducible exact Touches.refl _ _
    | ((with_reducible apply Touches.stepBy 0x6842 (touches_State.raise _ _ _ _ _)); · decide)
    | ((with_reducible apply Touches.stepBy 0x2 (touches_State.setFld_hi _ _ _ _ ?hi)); (case hi => first | decide | (simp only [rSEC_STATUS]; omega) | (split <;> decide) | (split <;> simp only [rSEC_STATUS] <;> omega)); (· decide))
    | ((with_reducible refine Touches.foldl ?_ ?_))
    | ((intro t b); try dsimp only)
    | split)

theorem touches_State.patchLoad (s : State) (b back : Bool) :
    Touches (mEvent ||| mStk) s (State.patchLoad s b back) := by
  unfold State.patchLoad
  (try dsimp only)
  repeat' (first
    | with_reducible exact Touches.refl _ _
    | ((with_reducible apply Touches.stepBy 0x10000000000000 (touches_State.formMeas _ _ _)); · decide)
    | ((with_reducible apply Touches.stepBy 0x6842 (touches_State.fallback _)); · decide)
    | ((with_reducible apply Touches.stepBy 0x2 (touches_State.setFld_hi _ _ _ _ ?hi)); (case hi => first | decide | (simp only [rSEC_REV, rSEC_STATUS, rSEC_SVN]; omega) | (split <;> decide) | (split <;> simp only [rSEC_REV, rSEC_STATUS, rSEC_SVN] <;> omega)); (· decide))
    | split)

theorem touches_State.bootPatch (s : State) (e : BootEnd) :
    Touches (mEvent ||| mStk ||| mGlb) s (State.bootPatch s e) := by
  unfold State.bootPatch
  (try dsimp only)
  repeat' (first
    | with_reducible exact Touches.refl _ _
    | ((with_reducible apply Touches.stepBy 0x10000000006842 (touches_State.patchLoad _ _ _)); · decide)
    | ((with_reducible apply Touches.stepBy 0x6842 (touches_State.patchRejects _ _ _)); · decide)
    | ((with_reducible apply Touches.stepBy 0x10000000000000 (touches_State.formMeas _ _ _)); · decide)
    | ((with_reducible apply Touches.stepBy 0x10000000000000 (touches_State.bootTo _ _)); · decide)
    | ((with_reducible apply Touches.stepBy 0x6842 (touches_State.raise _ _ _ _ _)); · decide)
    | ((with_reducible apply Touches.stepBy 0x2 (touches_State.setFld_hi _ _ _ _ ?hi)); (case hi => first | decide | (simp only [rGLB_STATUS]; omega) | (split <;> decide) | (split <;> simp only [rGLB_STATUS] <;> omega)); (· decide))
    | ((with_reducible apply Touches.stepBy 0x80000000000002 (touches_State.setFld _ _ _ _)); · decide)
    | split
    | with_reducible refine Touches.ofSnd (by assumption) ?_
    | with_reducible refine Touches.ofFst (by assumption) ?_)

theorem touches_State.bootTrain (s : State) (e : BootEnd) :
    Touches (mEvent ||| mStk ||| mGlb) s (State.bootTrain s e) := by
  unfold State.bootTrain
  (try dsimp only)
  repeat' (first
    | with_reducible exact Touches.refl _ _
    | ((with_reducible apply Touches.stepBy 0x90000000000002 (touches_State.bootStop _ _)); · decide)
    | ((with_reducible apply Touches.stepBy 0x10000000000000 (touches_State.bootTo _ _)); · decide)
    | ((with_reducible apply Touches.stepBy 0x6842 (touches_State.raise _ _ _ _ _)); · decide)
    | ((with_reducible apply Touches.stepBy 0x2 (touches_State.setFld_hi _ _ _ _ ?hi)); (case hi => first | decide | (simp only [rMEM_CH_STATUS]; omega) | (split <;> decide) | (split <;> simp only [rMEM_CH_STATUS] <;> omega)); (· decide))
    | ((with_reducible apply Touches.stepBy 0x80000000000002 (touches_State.setFld _ _ _ _)); · decide)
    | ((with_reducible refine Touches.foldl ?_ ?_))
    | ((intro t b); try dsimp only)
    | split)

theorem touches_State.bootReady (s : State) (ms : Nat) :
    Touches (mEvent ||| mCtxs ||| mBillets ||| mCnv ||| mStk ||| mGlb) s (State.bootReady s ms) := by
  unfold State.bootReady
  (try dsimp only)
  repeat' (first
    | with_reducible exact Touches.refl _ _
    | ((with_reducible apply Touches.stepBy 0x10000000000000 (touches_State.formMeas _ _ _)); · decide)
    | ((with_reducible apply Touches.stepBy 0x10000000000000 (touches_State.bootTo _ _)); · decide)
    | ((with_reducible apply Touches.stepBy 0x6842 (touches_State.raise _ _ _ _ _)); · decide)
    | ((with_reducible apply Touches.stepBy 0x2 (touches_State.setFlds_hi _ _ _ ?hi)); (case hi => first | decide | (simp only [rCAL_STORE, rCNV_BG, rGLB_STATUS, rSTK_STATUS]; omega) | (split <;> decide) | (split <;> simp only [rCAL_STORE, rCNV_BG, rGLB_STATUS, rSTK_STATUS] <;> omega)); (· decide))
    | ((with_reducible apply Touches.stepBy 0x80000000000002 (touches_State.setFlds _ _ _)); · decide)
    | ((with_reducible apply Touches.stepBy 0x2 (touches_State.setFld_hi _ _ _ _ ?hi)); (case hi => first | decide | (simp only [rCAL_STORE, rCNV_BG, rGLB_STATUS, rSTK_STATUS]; omega) | (split <;> decide) | (split <;> simp only [rCAL_STORE, rCNV_BG, rGLB_STATUS, rSTK_STATUS] <;> omega)); (· decide))
    | ((with_reducible apply Touches.stepBy 0x80000000000002 (touches_State.setFld _ _ _ _)); · decide)
    | ((with_reducible apply Touches.stepBy 0x10000000006842 (touches_State.measure _ _ _)); · decide)
    | ((with_reducible apply Touches.stepBy 0x2018002 (touches_State.bgStart _ _)); · decide)
    | ((with_reducible apply Touches.stepBy 0x6842 (touches_State.setHold _ _ _ _)); · decide)
    | ((with_reducible refine Touches.foldl ?_ ?_))
    | ((intro t b); try dsimp only)
    | split)

theorem touches_State.bootStep (s : State) (e : BootEnd) :
    Touches (mEvent ||| mStore ||| mCtxs ||| mBillets ||| mBadLines ||| mClk ||| mCnv ||| mStk ||| mGlb) s (State.bootStep s e) := by
  unfold State.bootStep
  (try dsimp only)
  repeat' (first
    | with_reducible exact Touches.refl _ _
    | ((with_reducible apply Touches.stepBy 0x9000000201e842 (touches_State.bootReady _ _)); · decide)
    | ((with_reducible apply Touches.stepBy 0x90000000006842 (touches_State.bootTrain _ _)); · decide)
    | ((with_reducible apply Touches.stepBy 0x90000000006842 (touches_State.bootPatch _ _)); · decide)
    | ((with_reducible apply Touches.stepBy 0x90000000200002 (touches_State.bootLock _ _)); · decide)
    | ((with_reducible apply Touches.stepBy 0x90000000006842 (touches_State.bootKindling _ _)); · decide)
    | ((with_reducible apply Touches.stepBy 0x90000000006842 (touches_State.bootRef _ _)); · decide)
    | ((with_reducible apply Touches.stepBy 0x10000000000000 (touches_State.bootTo _ _)); · decide)
    | ((with_reducible apply Touches.stepBy 0x10000000000000 (touches_State.updStk _ _ ?fz)); (case fz => first | exact FusesOnlyBurn.of_eq rfl rfl rfl rfl rfl | (constructor <;> first | exact Nat.le_refl _ | (dsimp only; omega) | exact fun _ h => ⟨h, rfl⟩ | exact id) | (constructor <;> simp_all)); (· decide))
    | ((with_reducible apply Touches.stepBy 0x2 (touches_State.setFld_hi _ _ _ _ ?hi)); (case hi => first | decide | (simp only [rGLB_STATUS]; omega) | (split <;> decide) | (split <;> simp only [rGLB_STATUS] <;> omega)); (· decide))
    | ((with_reducible apply Touches.stepBy 0x80000000000002 (touches_State.setFld _ _ _ _)); · decide)
    | ((with_reducible apply Touches.stepBy 0x100000 (touches_State.onBadLines _ _)); · decide)
    | ((with_reducible apply Touches.stepBy 0x400 (touches_State.storeClear _)); · decide)
    | ((with_reducible apply Touches.stepBy 0x2006842 (touches_State.calLoad _)); · decide)
    | split
    | with_reducible refine Touches.ofSnd (by assumption) ?_
    | with_reducible refine Touches.ofFst (by assumption) ?_
    | (with_reducible constructor <;> first | exact fun h => absurd h (by decide) | exact fun _ => rfl | exact fun _ a _ => State.rd_congr (by rfl) a | exact fun h => h.of_eq rfl rfl rfl rfl rfl | exact FusesOnlyBurn.of_eq rfl rfl rfl rfl rfl))

/-! ### Machine/Net.lean -/

theorem touches_State.exqTxDrop (s : State) (i : Nat) :
    Touches mRegs s (State.exqTxDrop s i) := by
  unfold State.exqTxDrop
  (try dsimp only)
  repeat' (first
    | with_reducible exact Touches.refl _ _
    | ((with_reducible apply Touches.stepBy 0x2 (touches_State.setFld_hi _ _ _ _ ?hi)); (case hi => first | decide | (simp only [rNET_EXQ_TX_IDX]; omega) | (split <;> decide) | (split <;> simp only [rNET_EXQ_TX_IDX] <;> omega)); (· decide)))

theorem touches_State.netDown (s : State) (i : Nat) :
    Touches (mEvent ||| mNet) s (State.netDown s i) := by
  unfold State.netDown
  (try dsimp only)
  repeat' (first
    | with_reducible exact Touches.refl _ _
    | ((with_reducible apply Touches.stepBy 0x6842 (touches_State.raise _ _ _ _ _)); · decide)
    | ((with_reducible apply Touches.stepBy 0x2 (touches_State.addSat_hi _ _ _ _ ?hi)); (case hi => first | decide | (simp only [rNET_SUB_STATUS]; omega) | (split <;> decide) | (split <;> simp only [rNET_SUB_STATUS] <;> omega)); (· decide))
    | ((with_reducible apply Touches.stepBy 0x2 (touches_State.setFlds_hi _ _ _ ?hi)); (case hi => first | decide | (simp only [rNET_SUB_STATUS]; omega) | (split <;> decide) | (split <;> simp only [rNET_SUB_STATUS] <;> omega)); (· decide))
    | ((with_reducible apply Touches.stepBy 0x100000000000 (touches_State.updNet _ _ _)); · decide)
    | ((with_reducible apply Touches.stepBy 0x2 (touches_State.exqTxDrop _ _)); · decide)
    | split)

theorem touches_State.netUp (s : State) (i : Nat) :
    Touches (mEvent ||| mAve) s (State.netUp s i) := by
  unfold State.netUp
  (try dsimp only)
  repeat' (first
    | with_reducible exact Touches.refl _ _
    | ((with_reducible apply Touches.stepBy 0x6842 (touches_State.raise _ _ _ _ _)); · decide)
    | ((with_reducible apply Touches.stepBy 0x2 (touches_State.setFlds_hi _ _ _ ?hi)); (case hi => first | decide | (simp only [rNET_SUB_STATUS]; omega) | (split <;> decide) | (split <;> simp only [rNET_SUB_STATUS] <;> omega)); (· decide))
    | ((with_reducible apply Touches.stepBy 0x200000000000 (touches_State.updAve _ _ _)); · decide)
    | ((with_reducible refine Touches.foldl ?_ ?_))
    | ((intro t b); try dsimp only)
    | split)

theorem touches_State.wrPortCfg (p : Nat) (v : Word) (s : State) :
    Touches (mEvent ||| mFreeCtr ||| mStore ||| mCtxs ||| mBillets ||| mBadLines ||| mNet ||| mAve) s (State.wrPortCfg p v s) := by
  unfold State.wrPortCfg
  (try dsimp only)
  repeat' (first
    | with_reducible exact Touches.refl _ _
    | ((with_reducible apply Touches.stepBy 0x2 (touches_State.wrCodes_hi _ _ _ _ ?hi)); (case hi => first | decide | (simp only [rNET_PORT_CFG]; omega) | (split <;> decide) | (split <;> simp only [rNET_PORT_CFG] <;> omega)); (· decide))
    | ((with_reducible apply Touches.stepBy 0x100000006842 (touches_State.netDown _ _)); · decide)
    | ((with_reducible apply Touches.stepBy 0x2 (touches_State.aveRefuse _ _ _)); · decide)
    | ((with_reducible apply Touches.stepBy 0x20000011ee42 (touches_State.aveFail _ _ _)); · decide)
    | ((with_reducible apply Touches.stepBy 0x6842 (touches_State.admRetest _)); · decide)
    | ((with_reducible refine Touches.foldl ?_ ?_))
    | ((intro t b); try dsimp only)
    | split)

theorem touches_State.pauseEnd (s : State) (i : Nat) :
    Touches (mRegs ||| mOuts ||| mNet) s (State.pauseEnd s i) := by
  unfold State.pauseEnd
  (try dsimp only)
  repeat' (first
    | with_reducible exact Touches.refl _ _
    | ((with_reducible apply Touches.stepBy 0x2 (touches_State.addSat_hi _ _ _ _ ?hi)); (case hi => first | decide | (simp only [rNET_SUB_STATUS]; omega) | (split <;> decide) | (split <;> simp only [rNET_SUB_STATUS] <;> omega)); (· decide))
    | ((with_reducible apply Touches.stepBy 0x100000000042 (touches_State.netSend _ _ _)); · decide)
    | ((with_reducible apply Touches.stepBy 0x100000000000 (touches_State.updNet _ _ _)); · decide)
    | ((with_reducible refine Touches.foldl ?_ ?_))
    | ((intro t b); try dsimp only)
    | split
    | with_reducible refine Touches.ofSnd (by assumption) ?_
    | with_reducible refine Touches.ofFst (by assumption) ?_)

theorem touches_State.pauseFor (s : State) (i q : Nat) :
    Touches (mRegs ||| mOuts ||| mNet) s (State.pauseFor s i q) := by
  unfold State.pauseFor
  (try dsimp only)
  repeat' (first
    | with_reducible exact Touches.refl _ _
    | ((with_reducible apply Touches.stepBy 0x100000000000 (touches_State.updNet _ _ _)); · decide)
    | ((with_reducible apply Touches.stepBy 0x100000000042 (touches_State.pauseEnd _ _)); · decide)
    | split)

theorem touches_State.pauseRx (s : State) (i q : Nat) (pfc : Option (List (Nat × Nat))) :
    Touches (mRegs ||| mOuts ||| mNet) s (State.pauseRx s i q pfc) := by
  unfold State.pauseRx
  (try dsimp only)
  repeat' (first
    | with_reducible exact Touches.refl _ _
    | ((with_reducible apply Touches.stepBy 0x100000000042 (touches_State.pauseFor _ _ _)); · decide)
    | split
    | with_reducible refine Touches.ofSnd (by assumption) ?_
    | with_reducible refine Touches.ofFst (by assumption) ?_)

theorem touches_State.pauseExpire (s : State) (i : Nat) :
    Touches (mRegs ||| mOuts ||| mTime ||| mNet) s (State.pauseExpire s i) := by
  unfold State.pauseExpire
  (try dsimp only)
  repeat' (first
    | with_reducible exact Touches.refl _ _
    | ((with_reducible apply Touches.stepBy 0x80 (touches_State.reach _ _)); · decide)
    | ((with_reducible apply Touches.stepBy 0x100000000042 (touches_State.pauseEnd _ _)); · decide)
    | split
    | with_reducible refine Touches.ofSnd (by assumption) ?_
    | with_reducible refine Touches.ofFst (by assumption) ?_)

theorem touches_State.exqPut (s : State) (i : Nat) (f : List Byte) (sumOk ptp : Bool) (fine : Nat) :
    Touches mEvent s (State.exqPut s i f sumOk ptp fine) := by
  unfold State.exqPut
  (try dsimp only)
  repeat' (first
    | with_reducible exact Touches.refl _ _
    | ((with_reducible apply Touches.stepBy 0x6842 (touches_State.raiseLim _ _ _ _ _ _ _)); · decide)
    | ((with_reducible apply Touches.stepBy 0x800 (touches_State.hostWrite _ _ _)); · decide)
    | ((with_reducible apply Touches.stepBy 0x2 (touches_State.addSat_hi _ _ _ _ ?hi)); (case hi => first | decide | (simp only [rNET_EXQ_RX, rNET_EXQ_RX_IDX, rNET_SUB_CNT1]; omega) | (split <;> decide) | (split <;> simp only [rNET_EXQ_RX, rNET_EXQ_RX_IDX, rNET_SUB_CNT1] <;> omega)); (· decide))
    | ((with_reducible apply Touches.stepBy 0x2 (touches_State.addMod_hi _ _ _ _ ?hi)); (case hi => first | decide | (simp only [rNET_EXQ_RX, rNET_EXQ_RX_IDX, rNET_SUB_CNT1]; omega) | (split <;> decide) | (split <;> simp only [rNET_EXQ_RX, rNET_EXQ_RX_IDX, rNET_SUB_CNT1] <;> omega)); (· decide))
    | ((with_reducible apply Touches.stepBy 0x2 (touches_State.wr_hi _ _ _ ?hi)); (case hi => first | decide | (simp only [rNET_EXQ_RX, rNET_EXQ_RX_IDX, rNET_SUB_CNT1]; omega) | (split <;> decide) | (split <;> simp only [rNET_EXQ_RX, rNET_EXQ_RX_IDX, rNET_SUB_CNT1] <;> omega)); (· decide))
    | split)

theorem touches_State.netSort (s : State) (i : Nat) (f : List Byte) (u : Option Udp) (sumOk : Bool) (fine : Nat) :
    Touches (mEvent ||| mFreeCtr ||| mStore ||| mCtxs ||| mBillets ||| mPorts ||| mServed ||| mBadLines ||| mTq ||| mNet ||| mAve ||| mSlots) s (State.netSort s i f u sumOk fine) := by
  unfold State.netSort
  (try dsimp only)
  repeat' (first
    | with_reducible exact Touches.refl _ _
    | ((with_reducible apply Touches.stepBy 0x2 (touches_State.addSat_hi _ _ _ _ ?hi)); (case hi => first | decide | (simp only [rAVE_GLOBAL, rAVE_UNATTR, rTBS_SERVO]; omega) | (split <;> decide) | (split <;> simp only [rAVE_GLOBAL, rAVE_UNATTR, rTBS_SERVO] <;> omega)); (· decide))
    | ((with_reducible apply Touches.stepBy 0x6842 (touches_State.exqPut _ _ _ _ _ _)); · decide)
    | ((with_reducible apply Touches.stepBy 0x7004001bee42 (touches_State.aveRx _ _ _)); · decide)
    | split
    | with_reducible refine Touches.ofSnd (by assumption) ?_
    | with_reducible refine Touches.ofFst (by assumption) ?_)

theorem touches_State.netRx (s : State) (i : Nat) (x : NetFrame) :
    Touches (mEvent ||| mFreeCtr ||| mStore ||| mCtxs ||| mBillets ||| mPorts ||| mServed ||| mBadLines ||| mTq ||| mNet ||| mAve ||| mSlots) s (State.netRx s i x) := by
  unfold State.netRx
  (try dsimp only)
  repeat' (first
    | with_reducible exact Touches.refl _ _
    | ((with_reducible apply Touches.stepBy 0x6842 (touches_State.raiseLim _ _ _ _ _ _ _)); · decide)
    | ((with_reducible apply Touches.stepBy 0x2 (touches_State.addSat_hi _ _ _ _ ?hi)); (case hi => first | decide | (simp only [rNET_PORT_FEC, rNET_SUB_CFG, rNET_SUB_CNT0, rNET_SUB_CNT1, rNET_SUB_MAC]; omega) | (split <;> decide) | (split <;> simp only [rNET_PORT_FEC, rNET_SUB_CFG, rNET_SUB_CNT0, rNET_SUB_CNT1, rNET_SUB_MAC] <;> omega)); (· decide))
    | ((with_reducible apply Touches.stepBy 0x2 (touches_State.addMod_hi _ _ _ _ ?hi)); (case hi => first | decide | (simp only [rNET_PORT_FEC, rNET_SUB_CFG, rNET_SUB_CNT0, rNET_SUB_CNT1, rNET_SUB_MAC]; omega) | (split <;> decide) | (split <;> simp only [rNET_PORT_FEC, rNET_SUB_CFG, rNET_SUB_CNT0, rNET_SUB_CNT1, rNET_SUB_MAC] <;> omega)); (· decide))
    | ((with_reducible apply Touches.stepBy 0x7004001bee42 (touches_State.netSort _ _ _ _ _ _)); · decide)
    | ((with_reducible apply Touches.stepBy 0x100000000042 (touches_State.pauseRx _ _ _ _)); · decide)
    | split)

theorem touches_State.wrExqRxIdx (i : Nat) (v : Word) (s : State) :
    Touches mRegs s (State.wrExqRxIdx i v s) := by
  unfold State.wrExqRxIdx
  (try dsimp only)
  repeat' (first
    | with_reducible exact Touches.refl _ _
    | ((with_reducible apply Touches.stepBy 0x2 (touches_State.addMod_hi _ _ _ _ ?hi)); (case hi => first | decide | (simp only [rNET_EXQ_RX_IDX]; omega) | (split <;> decide) | (split <;> simp only [rNET_EXQ_RX_IDX] <;> omega)); (· decide))
    | split)

theorem touches_State.wrExqTxIdx (i : Nat) (v : Word) (s : State) :
    Touches mRegs s (State.wrExqTxIdx i v s) := by
  unfold State.wrExqTxIdx
  (try dsimp only)
  repeat' (first
    | with_reducible exact Touches.refl _ _
    | ((with_reducible apply Touches.stepBy 0x2 (touches_State.wrCodes_hi _ _ _ _ ?hi)); (case hi => first | decide | (simp only [rNET_EXQ_TX_IDX]; omega) | (split <;> decide) | (split <;> simp only [rNET_EXQ_TX_IDX] <;> omega)); (· decide))
    | ((with_reducible apply Touches.stepBy 0x2 (touches_State.exqTxDrop _ _)); · decide)
    | split)

theorem touches_State.wrExqRing (r : Nat) (v : Word) (s : State) :
    Touches (mRegs ||| mGlb) s (State.wrExqRing r v s) := by
  unfold State.wrExqRing
  (try dsimp only)
  repeat' (first
    | with_reducible exact Touches.refl _ _
    | ((with_reducible apply Touches.stepBy 0x2 (touches_State.wrCodes_hi _ _ _ _ ?hi)); (case hi => first | decide); (· decide))
    | ((with_reducible apply Touches.stepBy 0x80000000000002 (touches_State.wrCodes _ _ _ _)); · decide)
    | split)

theorem touches_State.wrSubCfg (i : Nat) (v : Word) (s : State) :
    Touches mRegs s (State.wrSubCfg i v s) := by
  unfold State.wrSubCfg
  (try dsimp only)
  repeat' (first
    | with_reducible exact Touches.refl _ _
    | ((with_reducible apply Touches.stepBy 0x2 (touches_State.wrCodes_hi _ _ _ _ ?hi)); (case hi => first | decide | (simp only [rNET_SUB_CFG]; omega) | (split <;> decide) | (split <;> simp only [rNET_SUB_CFG] <;> omega)); (· decide)))

theorem touches_State.exqSend (s : State) (i : Nat) (desc data : HostRead) (fine : Nat) :
    Touches (mRegs ||| mOuts ||| mHostMem ||| mNet) s (State.exqSend s i desc data fine) := by
  unfold State.exqSend
  (try dsimp only)
  repeat' (first
    | with_reducible exact Touches.refl _ _
    | ((with_reducible apply Touches.stepBy 0x800 (touches_State.hostWrite _ _ _)); · decide)
    | ((with_reducible apply Touches.stepBy 0x2 (touches_State.addSat_hi _ _ _ _ ?hi)); (case hi => first | decide | (simp only [rNET_EXQ_TX, rNET_EXQ_TX_IDX, rNET_SUB_CNT1]; omega) | (split <;> decide) | (split <;> simp only [rNET_EXQ_TX, rNET_EXQ_TX_IDX, rNET_SUB_CNT1] <;> omega)); (· decide))
    | ((with_reducible apply Touches.stepBy 0x2 (touches_State.addMod_hi _ _ _ _ ?hi)); (case hi => first | decide | (simp only [rNET_EXQ_TX, rNET_EXQ_TX_IDX, rNET_SUB_CNT1]; omega) | (split <;> decide) | (split <;> simp only [rNET_EXQ_TX, rNET_EXQ_TX_IDX, rNET_SUB_CNT1] <;> omega)); (· decide))
    | ((with_reducible apply Touches.stepBy 0x100000000042 (touches_State.netSend _ _ _)); · decide)
    | split)

/-! ### Machine/Dis.lean -/

theorem touches_State.updDis (s : State) (n : Nat) (f : Dis → Dis) :
    Touches mDis s (State.updDis s n f) := by
  constructor <;> first | exact fun h => absurd h (by decide) | exact fun _ => rfl | exact fun _ a _ => State.rd_congr (by rfl) a | exact fun h => h.of_eq rfl rfl rfl rfl rfl | exact FusesOnlyBurn.of_eq rfl rfl rfl rfl rfl

theorem touches_State.updLayer (s : State) (n l : Nat) (f : DisLayer → DisLayer) :
    Touches mLayers s (State.updLayer s n l f) := by
  constructor <;> first | exact fun h => absurd h (by decide) | exact fun _ => rfl | exact fun _ a _ => State.rd_congr (by rfl) a | exact fun h => h.of_eq rfl rfl rfl rfl rfl | exact FusesOnlyBurn.of_eq rfl rfl rfl rfl rfl

theorem touches_State.setDisState (s : State) (n v : Nat) :
    Touches mRegs s (State.setDisState s n v) := by
  unfold State.setDisState
  (try dsimp only)
  repeat' (first
    | with_reducible exact Touches.refl _ _
    | ((with_reducible apply Touches.stepBy 0x2 (touches_State.setFld_hi _ _ _ _ ?hi)); (case hi => first | decide | (simp only [rDIS_CTRL]; omega) | (split <;> decide) | (split <;> simp only [rDIS_CTRL] <;> omega)); (· decide)))

theorem touches_State.linkTrained (s : State) (n : Nat) (choice : Option (Nat × Nat)) (ok : Bool) :
    Touches (mEvent ||| mDis) s (State.linkTrained s n choice ok) := by
  unfold State.linkTrained
  (try dsimp only)
  repeat' (first
    | with_reducible exact Touches.refl _ _
    | ((with_reducible apply Touches.stepBy 0x6842 (touches_State.raise _ _ _ _ _)); · decide)
    | ((with_reducible apply Touches.stepBy 0x2 (touches_State.addSat_hi _ _ _ _ ?hi)); (case hi => first | decide | (simp only [rDIS_LINK]; omega) | (split <;> decide) | (split <;> simp only [rDIS_LINK] <;> omega)); (· decide))
    | ((with_reducible apply Touches.stepBy 0x2 (touches_State.setFlds_hi _ _ _ ?hi)); (case hi => first | decide | (simp only [rDIS_LINK]; omega) | (split <;> decide) | (split <;> simp only [rDIS_LINK] <;> omega)); (· decide))
    | ((with_reducible apply Touches.stepBy 0x2 (touches_State.setDisState _ _ _)); · decide)
    | ((with_reducible apply Touches.stepBy 0x800000000000 (touches_State.updDis _ _ _)); · decide)
    | split
    | with_reducible refine Touches.ofSnd (by assumption) ?_
    | with_reducible refine Touches.ofFst (by assumption) ?_)

theorem touches_State.hpd (s : State) (n : Nat) (sink : Option (Nat × Nat)) (ok : Bool) :
    Touches (mEvent ||| mDis) s (State.hpd s n sink ok) := by
  unfold State.hpd
  (try dsimp only)
  repeat' (first
    | with_reducible exact Touches.refl _ _
    | ((with_reducible apply Touches.stepBy 0x6842 (touches_State.raise _ _ _ _ _)); · decide)
    | ((with_reducible apply Touches.stepBy 0x2 (touches_State.setFlds_hi _ _ _ ?hi)); (case hi => first | decide | (simp only [rCLK_PIX, rDIS_CTRL, rDIS_LINK]; omega) | (split <;> decide) | (split <;> simp only [rCLK_PIX, rDIS_CTRL, rDIS_LINK] <;> omega)); (· decide))
    | ((with_reducible apply Touches.stepBy 0x2 (touches_State.setFld_hi _ _ _ _ ?hi)); (case hi => first | decide | (simp only [rCLK_PIX, rDIS_CTRL, rDIS_LINK]; omega) | (split <;> decide) | (split <;> simp only [rCLK_PIX, rDIS_CTRL, rDIS_LINK] <;> omega)); (· decide))
    | ((with_reducible apply Touches.stepBy 0x800000006842 (touches_State.linkTrained _ _ _ _)); · decide)
    | ((with_reducible apply Touches.stepBy 0x2 (touches_State.setDisState _ _ _)); · decide)
    | ((with_reducible apply Touches.stepBy 0x800000000000 (touches_State.updDis _ _ _)); · decide)
    | split
    | with_reducible refine Touches.ofSnd (by assumption) ?_
    | with_reducible refine Touches.ofFst (by assumption) ?_)

theorem touches_State.wrDisCtrl (n : Nat) (v : Word) (s : State) :
    Touches mRegs s (State.wrDisCtrl n v s) := by
  unfold State.wrDisCtrl
  (try dsimp only)
  repeat' (first
    | with_reducible exact Touches.refl _ _
    | ((with_reducible apply Touches.stepBy 0x2 (touches_State.wrCodes_hi _ _ _ _ ?hi)); (case hi => first | decide | (simp only [rDIS_CTRL]; omega) | (split <;> decide) | (split <;> simp only [rDIS_CTRL] <;> omega)); (· decide))
    | ((with_reducible apply Touches.stepBy 0x2 (touches_State.setFld_hi _ _ _ _ ?hi)); (case hi => first | decide | (simp only [rDIS_CTRL]; omega) | (split <;> decide) | (split <;> simp only [rDIS_CTRL] <;> omega)); (· decide))
    | split)

theorem touches_State.disCommit (s : State) (n : Nat) :
    Touches (mEvent ||| mAct ||| mDis) s (State.disCommit s n) := by
  unfold State.disCommit
  (try dsimp only)
  repeat' (first
    | with_reducible exact Touches.refl _ _
    | ((with_reducible apply Touches.stepBy 0x6842 (touches_State.raise _ _ _ _ _)); · decide)
    | ((with_reducible apply Touches.stepBy 0x4 (touches_State.commitReg _ _)); · decide)
    | ((with_reducible apply Touches.stepBy 0x2 (touches_State.addSat_hi _ _ _ _ ?hi)); (case hi => first | decide | (simp only [rCLK_PIX, rDIS_CTRL, rDIS_HTIM, rDIS_LAYER, rDIS_LINK, rDIS_RECT, rDIS_STAT, rDIS_VTIM]; omega) | (split <;> decide) | (split <;> simp only [rCLK_PIX, rDIS_CTRL, rDIS_HTIM, rDIS_LAYER, rDIS_LINK, rDIS_RECT, rDIS_STAT, rDIS_VTIM] <;> omega)); (· decide))
    | ((with_reducible apply Touches.stepBy 0x2 (touches_State.setFlds_hi _ _ _ ?hi)); (case hi => first | decide | (simp only [rCLK_PIX, rDIS_CTRL, rDIS_HTIM, rDIS_LAYER, rDIS_LINK, rDIS_RECT, rDIS_STAT, rDIS_VTIM]; omega) | (split <;> decide) | (split <;> simp only [rCLK_PIX, rDIS_CTRL, rDIS_HTIM, rDIS_LAYER, rDIS_LINK, rDIS_RECT, rDIS_STAT, rDIS_VTIM] <;> omega)); (· decide))
    | ((with_reducible apply Touches.stepBy 0x2 (touches_State.setDisState _ _ _)); · decide)
    | ((with_reducible apply Touches.stepBy 0x800000000000 (touches_State.updDis _ _ _)); · decide)
    | ((with_reducible apply Touches.stepBy 0x6842 (touches_State.admRetest _)); · decide)
    | ((with_reducible refine Touches.foldl ?_ ?_))
    | ((intro t b); try dsimp only)
    | split)

theorem touches_State.pixStable (s : State) (n : Nat) (ok : Bool) :
    Touches (mEvent ||| mDis) s (State.pixStable s n ok) := by
  unfold State.pixStable
  (try dsimp only)
  repeat' (first
    | with_reducible exact Touches.refl _ _
    | ((with_reducible apply Touches.stepBy 0x800000006842 (touches_State.linkTrained _ _ _ _)); · decide)
    | ((with_reducible apply Touches.stepBy 0x800000000000 (touches_State.updDis _ _ _)); · decide)
    | split)

theorem touches_State.layerHold (s : State) (n l : Nat) :
    Touches (mRegs ||| mCtxs ||| mBillets) s (State.layerHold s n l) := by
  unfold State.layerHold
  (try dsimp only)
  repeat' (first
    | with_reducible exact Touches.refl _ _
    | ((with_reducible apply Touches.stepBy 0x18002 (touches_State.finishTo _ _ _ _)); · decide)
    | ((with_reducible refine Touches.foldl ?_ ?_))
    | ((with_reducible refine Touches.foldlSnd ?_ ?_))
    | ((intro t b); try dsimp only)
    | split
    | with_reducible refine Touches.ofSnd (by assumption) ?_
    | with_reducible refine Touches.ofFst (by assumption) ?_)

theorem touches_State.layerDrop (s : State) (n l : Nat) :
    Touches mEvent s (State.layerDrop s n l) := by
  unfold State.layerDrop
  (try dsimp only)
  repeat' (first
    | with_reducible exact Touches.refl _ _
    | ((with_reducible apply Touches.stepBy 0x6842 (touches_State.raiseLim _ _ _ _ _ _ _)); · decide)
    | ((with_reducible apply Touches.stepBy 0x2 (touches_State.addSat_hi _ _ _ _ ?hi)); (case hi => first | decide | (simp only [rDIS_LSTAT]; omega) | (split <;> decide) | (split <;> simp only [rDIS_LSTAT] <;> omega)); (· decide)))

theorem touches_State.asmDrop (s : State) (n : Nat) :
    Touches (mEvent ||| mLayers) s (State.asmDrop s n) := by
  unfold State.asmDrop
  (try dsimp only)
  repeat' (first
    | with_reducible exact Touches.refl _ _
    | ((with_reducible apply Touches.stepBy 0x6842 (touches_State.layerDrop _ _ _)); · decide)
    | ((with_reducible apply Touches.stepBy 0x1000000000000 (touches_State.updLayer _ _ _ _)); · decide)
    | split
    | with_reducible refine Touches.ofSnd (by assumption) ?_
    | with_reducible refine Touches.ofFst (by assumption) ?_)

theorem touches_State.layerTake (s : State) (n l : Nat) :
    Touches (mEvent ||| mCtxs ||| mBillets ||| mLayers) s (State.layerTake s n l) := by
  unfold State.layerTake
  (try dsimp only)
  repeat' (first
    | with_reducible exact Touches.refl _ _
    | ((with_reducible apply Touches.stepBy 0x8000 (touches_State.deliveredTo _ _ _ _)); · decide)
    | ((with_reducible apply Touches.stepBy 0x8000 (touches_State.beginRec _ _ _ _)); · decide)
    | ((with_reducible apply Touches.stepBy 0x1000000006842 (touches_State.asmDrop _ _)); · decide)
    | ((with_reducible apply Touches.stepBy 0x6842 (touches_State.layerDrop _ _ _)); · decide)
    | ((with_reducible apply Touches.stepBy 0x18002 (touches_State.layerHold _ _ _)); · decide)
    | ((with_reducible apply Touches.stepBy 0x1000000000000 (touches_State.updLayer _ _ _ _)); · decide)
    | split
    | with_reducible refine Touches.ofSnd (by assumption) ?_
    | with_reducible refine Touches.ofFst (by assumption) ?_)

theorem touches_State.layerLatch (s : State) (n l : Nat) :
    Touches (mRegs ||| mLayers) s (State.layerLatch s n l) := by
  unfold State.layerLatch
  (try dsimp only)
  repeat' (first
    | with_reducible exact Touches.refl _ _
    | ((with_reducible apply Touches.stepBy 0x2 (touches_State.addMod_hi _ _ _ _ ?hi)); (case hi => first | decide | (simp only [rDIS_LSTAT]; omega) | (split <;> decide) | (split <;> simp only [rDIS_LSTAT] <;> omega)); (· decide))
    | ((with_reducible apply Touches.stepBy 0x1000000000000 (touches_State.updLayer _ _ _ _)); · decide)
    | split
    | with_reducible refine Touches.ofSnd (by assumption) ?_
    | with_reducible refine Touches.ofFst (by assumption) ?_)

theorem touches_State.layerOld (s : State) (n l : Nat) :
    Touches mLayers s (State.layerOld s n l) := by
  unfold State.layerOld
  (try dsimp only)
  repeat' (first
    | with_reducible exact Touches.refl _ _
    | ((with_reducible apply Touches.stepBy 0x1000000000000 (touches_State.updLayer _ _ _ _)); · decide))

theorem touches_State.frameStart (s : State) (n : Nat) :
    Touches (mEvent ||| mAct ||| mCtxs ||| mBillets ||| mDis ||| mLayers) s (State.frameStart s n) := by
  unfold State.frameStart
  (try dsimp only)
  repeat' (first
    | with_reducible exact Touches.refl _ _
    | ((with_reducible apply Touches.stepBy 0x1000000000000 (touches_State.layerOld _ _ _)); · decide)
    | ((with_reducible apply Touches.stepBy 0x1000000000002 (touches_State.layerLatch _ _ _)); · decide)
    | ((with_reducible apply Touches.stepBy 0x18002 (touches_State.layerHold _ _ _)); · decide)
    | ((with_reducible apply Touches.stepBy 0x800000006846 (touches_State.disCommit _ _)); · decide)
    | ((with_reducible apply Touches.stepBy 0x2 (touches_State.setDisState _ _ _)); · decide)
    | ((with_reducible apply Touches.stepBy 0x800000000000 (touches_State.updDis _ _ _)); · decide)
    | split)

theorem touches_State.scanLine (s : State) (n y den ovl : Nat) :
    Touches mEvent s (State.scanLine s n y den ovl) := by
  unfold State.scanLine
  (try dsimp only)
  repeat' (first
    | with_reducible exact Touches.refl _ _
    | ((with_reducible apply Touches.stepBy 0x6842 (touches_State.raiseLim _ _ _ _ _ _ _)); · decide)
    | ((with_reducible apply Touches.stepBy 0x40 (touches_State.send _ _)); · decide)
    | ((with_reducible apply Touches.stepBy 0x2 (touches_State.addSat_hi _ _ _ _ ?hi)); (case hi => first | decide | (simp only [rDIS_CTRL, rDIS_HTIM, rDIS_RECT, rDIS_STAT, rDIS_VTIM]; omega) | (split <;> decide) | (split <;> simp only [rDIS_CTRL, rDIS_HTIM, rDIS_RECT, rDIS_STAT, rDIS_VTIM] <;> omega)); (· decide))
    | split
    | with_reducible refine Touches.ofSnd (by assumption) ?_
    | with_reducible refine Touches.ofFst (by assumption) ?_)

theorem touches_State.wrDisAux (n : Nat) (v : Word) (reply : AuxReply) (s : State) :
    Touches (mRegs ||| mOuts) s (State.wrDisAux n v reply s) := by
  unfold State.wrDisAux
  (try dsimp only)
  repeat' (first
    | with_reducible exact Touches.refl _ _
    | ((with_reducible apply Touches.stepBy 0x40 (touches_State.send _ _)); · decide)
    | ((with_reducible apply Touches.stepBy 0x2 (touches_State.wrCodes_hi _ _ _ _ ?hi)); (case hi => first | decide | (simp only [rDIS_AUX, rDIS_AUX_DATA]; omega) | (split <;> decide) | (split <;> simp only [rDIS_AUX, rDIS_AUX_DATA] <;> omega)); (· decide))
    | ((with_reducible apply Touches.stepBy 0x2 (touches_State.setFld_hi _ _ _ _ ?hi)); (case hi => first | decide | (simp only [rDIS_AUX, rDIS_AUX_DATA]; omega) | (split <;> decide) | (split <;> simp only [rDIS_AUX, rDIS_AUX_DATA] <;> omega)); (· decide))
    | ((with_reducible apply Touches.stepBy 0x2 (touches_State.wr_hi _ _ _ ?hi)); (case hi => first | decide | (simp only [rDIS_AUX, rDIS_AUX_DATA]; omega) | (split <;> decide) | (split <;> simp only [rDIS_AUX, rDIS_AUX_DATA] <;> omega)); (· decide))
    | split
    | with_reducible refine Touches.ofSnd (by assumption) ?_
    | with_reducible refine Touches.ofFst (by assumption) ?_)

theorem touches_State.wrDisPal (n b i : Nat) (v : Word) (s : State) :
    Touches mRegs s (State.wrDisPal n b i v s) := by
  unfold State.wrDisPal
  (try dsimp only)
  repeat' (first
    | with_reducible exact Touches.refl _ _
    | ((with_reducible apply Touches.stepBy 0x2 (touches_State.wrCodes_hi _ _ _ _ ?hi)); (case hi => first | decide | (simp only [rDIS_LAYER, rDIS_PAL, rDIS_STAT]; omega) | (split <;> decide) | (split <;> simp only [rDIS_LAYER, rDIS_PAL, rDIS_STAT] <;> omega)); (· decide))
    | ((with_reducible apply Touches.stepBy 0x2 (touches_State.addSat_hi _ _ _ _ ?hi)); (case hi => first | decide | (simp only [rDIS_LAYER, rDIS_PAL, rDIS_STAT]; omega) | (split <;> decide) | (split <;> simp only [rDIS_LAYER, rDIS_PAL, rDIS_STAT] <;> omega)); (· decide))
    | split)

theorem touches_State.wrDisLink (n : Nat) (v : Word) (s : State) :
    Touches mRegs s (State.wrDisLink n v s) := by
  unfold State.wrDisLink
  (try dsimp only)
  repeat' (first
    | with_reducible exact Touches.refl _ _
    | ((with_reducible apply Touches.stepBy 0x2 (touches_State.wrCodes_hi _ _ _ _ ?hi)); (case hi => first | decide | (simp only [rDIS_LINK]; omega) | (split <;> decide) | (split <;> simp only [rDIS_LINK] <;> omega)); (· decide)))

/-! ### Machine/Pkg.lean -/

theorem touches_State.updPkg (s : State) (f : Pkg → Pkg) :
    Touches mPkg s (State.updPkg s f) := by
  constructor <;> first | exact fun h => absurd h (by decide) | exact fun _ => rfl | exact fun _ a _ => State.rd_congr (by rfl) a | exact fun h => h.of_eq rfl rfl rfl rfl rfl | exact FusesOnlyBurn.of_eq rfl rfl rfl rfl rfl

theorem touches_State.railLow (s : State) (r mv : Nat) :
    Touches mEvent s (State.railLow s r mv) := by
  unfold State.railLow
  (try dsimp only)
  repeat' (first
    | with_reducible exact Touches.refl _ _
    | ((with_reducible apply Touches.stepBy 0x6842 (touches_State.raiseLim _ _ _ _ _ _ _)); · decide)
    | ((with_reducible apply Touches.stepBy 0x2 (touches_State.setFlds_hi _ _ _ ?hi)); (case hi => first | decide | (simp only [rPWR_RAIL]; omega) | (split <;> decide) | (split <;> simp only [rPWR_RAIL] <;> omega)); (· decide))
    | split)

theorem touches_State.railHigh (s : State) (r mv : Nat) :
    Touches mEvent s (State.railHigh s r mv) := by
  unfold State.railHigh
  (try dsimp only)
  repeat' (first
    | with_reducible exact Touches.refl _ _
    | ((with_reducible apply Touches.stepBy 0x6842 (touches_State.raiseLim _ _ _ _ _ _ _)); · decide)
    | ((with_reducible apply Touches.stepBy 0x2 (touches_State.setFlds_hi _ _ _ ?hi)); (case hi => first | decide | (simp only [rPWR_RAIL]; omega) | (split <;> decide) | (split <;> simp only [rPWR_RAIL] <;> omega)); (· decide))
    | split)

theorem touches_State.thermalStop (s : State) (k : Nat) :
    Touches (mEvent ||| mCnv ||| mNet ||| mGlb) s (State.thermalStop s k) := by
  unfold State.thermalStop
  (try dsimp only)
  repeat' (first
    | with_reducible exact Touches.refl _ _
    | ((with_reducible apply Touches.stepBy 0x6842 (touches_State.thmPin _)); · decide)
    | ((with_reducible apply Touches.stepBy 0x80000000000002 (touches_State.haltWith _ _)); · decide)
    | ((with_reducible apply Touches.stepBy 0x6842 (touches_State.raiseLim _ _ _ _ _ _ _)); · decide)
    | ((with_reducible apply Touches.stepBy 0x6842 (touches_State.raise _ _ _ _ _)); · decide)
    | ((with_reducible apply Touches.stepBy 0x2 (touches_State.setFlds_hi _ _ _ ?hi)); (case hi => first | decide | (simp only [rDIS_LINK, rPWR_CTRL, rTHM_STATUS]; omega) | (split <;> decide) | (split <;> simp only [rDIS_LINK, rPWR_CTRL, rTHM_STATUS] <;> omega)); (· decide))
    | ((with_reducible apply Touches.stepBy 0x80000000000002 (touches_State.setFlds _ _ _)); · decide)
    | ((with_reducible apply Touches.stepBy 0x2 (touches_State.setFld_hi _ _ _ _ ?hi)); (case hi => first | decide | (simp only [rDIS_LINK, rPWR_CTRL, rTHM_STATUS]; omega) | (split <;> decide) | (split <;> simp only [rDIS_LINK, rPWR_CTRL, rTHM_STATUS] <;> omega)); (· decide))
    | ((with_reducible apply Touches.stepBy 0x80000000000002 (touches_State.setFld _ _ _ _)); · decide)
    | ((with_reducible apply Touches.stepBy 0x100000006842 (touches_State.netDown _ _)); · decide)
    | ((with_reducible apply Touches.stepBy 0x2 (touches_State.setDisState _ _ _)); · decide)
    | ((with_reducible apply Touches.stepBy 0x2000000 (touches_State.updCore _ _ _)); · decide)
    | ((with_reducible refine Touches.foldl ?_ ?_))
    | ((intro t b); try dsimp only)
    | split)

theorem touches_State.sensor (s : State) (k : Nat) (temp : Int) :
    Touches mEvent s (State.sensor s k temp) := by
  unfold State.sensor
  (try dsimp only)
  repeat' (first
    | with_reducible exact Touches.refl _ _
    | ((with_reducible apply Touches.stepBy 0x6842 (touches_State.raiseLim _ _ _ _ _ _ _)); · decide)
    | ((with_reducible apply Touches.stepBy 0x2 (touches_State.setFlds_hi _ _ _ ?hi)); (case hi => first | decide | (simp only [rTHM_LIMIT, rTHM_TEMP]; omega) | (split <;> decide) | (split <;> simp only [rTHM_LIMIT, rTHM_TEMP] <;> omega)); (· decide))
    | ((with_reducible apply Touches.stepBy 0x6842 (touches_State.calDueTemp _ _)); · decide)
    | split)

theorem touches_State.thmSense (s : State) (temps : List Int) :
    Touches mEvent s (State.thmSense s temps) := by
  unfold State.thmSense
  (try dsimp only)
  repeat' (first
    | with_reducible exact Touches.refl _ _
    | ((with_reducible apply Touches.stepBy 0x6842 (touches_State.sensor _ _ _)); · decide)
    | ((with_reducible refine Touches.foldl ?_ ?_))
    | ((with_reducible refine Touches.foldlSnd ?_ ?_))
    | ((with_reducible refine Touches.foldlFst ?_ ?_))
    | ((intro t b); try dsimp only)
    | split)

theorem touches_State.railSense (s : State) (rails : List (Nat × Nat)) :
    Touches mRegs s (State.railSense s rails) := by
  unfold State.railSense
  (try dsimp only)
  repeat' (first
    | with_reducible exact Touches.refl _ _
    | ((with_reducible apply Touches.stepBy 0x2 (touches_State.setFlds_hi _ _ _ ?hi)); (case hi => first | decide | (simp only [rPWR_RAIL, rPWR_TOTAL]; omega) | (split <;> decide) | (split <;> simp only [rPWR_RAIL, rPWR_TOTAL] <;> omega)); (· decide))
    | ((with_reducible refine Touches.foldl ?_ ?_))
    | ((with_reducible refine Touches.foldlSnd ?_ ?_))
    | ((with_reducible refine Touches.foldlFst ?_ ?_))
    | ((intro t b); try dsimp only)
    | split)

theorem touches_State.thmCrit (s : State) (crit : List Nat) :
    Touches (mEvent ||| mCnv ||| mNet ||| mPkg ||| mGlb) s (State.thmCrit s crit) := by
  unfold State.thmCrit
  (try dsimp only)
  repeat' (first
    | with_reducible exact Touches.refl _ _
    | ((with_reducible apply Touches.stepBy 0x6842 (touches_State.thmPin _)); · decide)
    | ((with_reducible apply Touches.stepBy 0x80100002006842 (touches_State.thermalStop _ _)); · decide)
    | ((with_reducible apply Touches.stepBy 0x40000000000000 (touches_State.updPkg _ _)); · decide)
    | split
    | with_reducible refine Touches.ofSnd (by assumption) ?_
    | with_reducible refine Touches.ofFst (by assumption) ?_)

theorem touches_State.thmUpdate (s : State) (temps : List Int) (rails : List (Nat × Nat)) :
    Touches (mEvent ||| mCnv ||| mNet ||| mPkg ||| mGlb) s (State.thmUpdate s temps rails) := by
  unfold State.thmUpdate
  (try dsimp only)
  repeat' (first
    | with_reducible exact Touches.refl _ _
    | ((with_reducible apply Touches.stepBy 0xc0100002006842 (touches_State.thmCrit _ _)); · decide)
    | ((with_reducible apply Touches.stepBy 0x2 (touches_State.railSense _ _)); · decide)
    | ((with_reducible apply Touches.stepBy 0x6842 (touches_State.thmSense _ _)); · decide))

theorem touches_State.wrThmLimit (v : Word) (s : State) :
    Touches mEvent s (State.wrThmLimit v s) := by
  unfold State.wrThmLimit
  (try dsimp only)
  repeat' (first
    | with_reducible exact Touches.refl _ _
    | ((with_reducible apply Touches.stepBy 0x6842 (touches_State.thmPin _)); · decide)
    | ((with_reducible apply Touches.stepBy 0x2 (touches_State.wrCodes_hi _ _ _ _ ?hi)); (case hi => first | decide | (simp only [rTHM_LIMIT]; omega) | (split <;> decide) | (split <;> simp only [rTHM_LIMIT] <;> omega)); (· decide)))

theorem touches_State.wrPwrCtrl (v : Word) (s : State) :
    Touches mEvent s (State.wrPwrCtrl v s) := by
  unfold State.wrPwrCtrl
  (try dsimp only)
  repeat' (first
    | with_reducible exact Touches.refl _ _
    | ((with_reducible apply Touches.stepBy 0x6842 (touches_State.srExit _)); · decide)
    | ((with_reducible apply Touches.stepBy 0x2 (touches_State.addSat_hi _ _ _ _ ?hi)); (case hi => first | decide | (simp only [rCNV_BG, rPWR_CTRL]; omega) | (split <;> decide) | (split <;> simp only [rCNV_BG, rPWR_CTRL] <;> omega)); (· decide))
    | ((with_reducible apply Touches.stepBy 0x2 (touches_State.setFld_hi _ _ _ _ ?hi)); (case hi => first | decide | (simp only [rCNV_BG, rPWR_CTRL]; omega) | (split <;> decide) | (split <;> simp only [rCNV_BG, rPWR_CTRL] <;> omega)); (· decide))
    | split)

theorem touches_State.srEnter (s : State) :
    Touches mEvent s (State.srEnter s) := by
  unfold State.srEnter
  (try dsimp only)
  repeat' (first
    | with_reducible exact Touches.refl _ _
    | ((with_reducible apply Touches.stepBy 0x6842 (touches_State.raise _ _ _ _ _)); · decide)
    | ((with_reducible apply Touches.stepBy 0x2 (touches_State.setFld_hi _ _ _ _ ?hi)); (case hi => first | decide | (simp only [rGLB_STATUS, rMEM_MAP, rPWR_CTRL]; omega) | (split <;> decide) | (split <;> simp only [rGLB_STATUS, rMEM_MAP, rPWR_CTRL] <;> omega)); (· decide))
    | split)

theorem touches_State.resetCore (s : State) : Touches 0xffffffffffe59e s (State.resetCore s) := by
  unfold State.resetCore
  dsimp only
  constructor <;> first | exact fun h => absurd h (by decide) | exact fun _ => rfl | exact fun _ _ _ => rfl | exact FusesOnlyBurn.of_eq rfl rfl rfl rfl rfl | skip
  exact fun h => ⟨⟨rfl, h.memories.hostMem, h.memories.flash⟩, regsOk_nil, regsOk_nil⟩

theorem touches_State.deviceReset (s : State) :
    Touches 0xffffffffffe59e s (State.deviceReset s) := by
  unfold State.deviceReset
  (try dsimp only)
  repeat' (first
    | with_reducible exact Touches.refl _ _
    | ((with_reducible apply Touches.stepBy 0x2 (touches_State.fuseRegs _)); · decide)
    | ((with_reducible apply Touches.stepBy 0xffffffffffe59e (touches_State.resetCore _)); · decide)
    | ((with_reducible apply Touches.stepBy 0x2 (touches_State.setFld_hi _ _ _ _ ?hi)); (case hi => first | decide | (simp only [rGLB_STATUS, rSEC_STATUS]; omega) | (split <;> decide) | (split <;> simp only [rGLB_STATUS, rSEC_STATUS] <;> omega)); (· decide))
    | ((with_reducible apply Touches.stepBy 0x80000000000002 (touches_State.setFld _ _ _ _)); · decide))

theorem touches_State.resetAssert (s : State) (p : ResetPin) :
    Touches 0xffffffffffe59e s (State.resetAssert s p) := by
  unfold State.resetAssert
  (try dsimp only)
  repeat' (first
    | with_reducible exact Touches.refl _ _
    | ((with_reducible apply Touches.stepBy 0xffffffffffe59e (touches_State.deviceReset _)); · decide)
    | ((with_reducible apply Touches.stepBy 0x40000000000000 (touches_State.updPkg _ _)); · decide)
    | split
    | with_reducible refine Touches.ofSnd (by assumption) ?_
    | with_reducible refine Touches.ofFst (by assumption) ?_)

theorem touches_State.bootBegin (s : State) :
    Touches (mRegs ||| mStk ||| mGlb) s (State.bootBegin s) := by
  unfold State.bootBegin
  (try dsimp only)
  repeat' (first
    | with_reducible exact Touches.refl _ _
    | ((with_reducible apply Touches.stepBy 0x10000000000000 (touches_State.bootTo _ _)); · decide)
    | ((with_reducible apply Touches.stepBy 0x2 (touches_State.setFld_hi _ _ _ _ ?hi)); (case hi => first | decide | (simp only [rGLB_STATUS, rMGT_SMB, rSEC_STATUS]; omega) | (split <;> decide) | (split <;> simp only [rGLB_STATUS, rMGT_SMB, rSEC_STATUS] <;> omega)); (· decide))
    | ((with_reducible apply Touches.stepBy 0x80000000000002 (touches_State.setFld _ _ _ _)); · decide)
    | split)

theorem touches_State.resetRelease (s : State) (p : ResetPin) (bootsel smbAddr : Nat) :
    Touches (mRegs ||| mStk ||| mPkg ||| mGlb) s (State.resetRelease s p bootsel smbAddr) := by
  unfold State.resetRelease
  (try dsimp only)
  repeat' (first
    | with_reducible exact Touches.refl _ _
    | ((with_reducible apply Touches.stepBy 0x90000000000002 (touches_State.bootBegin _)); · decide)
    | ((with_reducible apply Touches.stepBy 0x40000000000000 (touches_State.updPkg _ _)); · decide)
    | split
    | with_reducible refine Touches.ofSnd (by assumption) ?_
    | with_reducible refine Touches.ofFst (by assumption) ?_)

theorem touches_State.railRecovered (s : State) (r : Nat) (within : Bool) :
    Touches (mRegs ||| mStk ||| mPkg ||| mGlb) s (State.railRecovered s r within) := by
  unfold State.railRecovered
  (try dsimp only)
  repeat' (first
    | with_reducible exact Touches.refl _ _
    | ((with_reducible apply Touches.stepBy 0x90000000000002 (touches_State.bootBegin _)); · decide)
    | ((with_reducible apply Touches.stepBy 0x40000000000000 (touches_State.updPkg _ _)); · decide)
    | ((with_reducible apply Touches.stepBy 0x2 (touches_State.setFlds_hi _ _ _ ?hi)); (case hi => first | decide | (simp only [rPWR_RAIL]; omega) | (split <;> decide) | (split <;> simp only [rPWR_RAIL] <;> omega)); (· decide))
    | ((with_reducible apply Touches.stepBy 0x80000000000002 (touches_State.setFlds _ _ _)); · decide)
    | split)

theorem touches_State.tapIr (s : State) (code : Nat) :
    Touches mPkg s (State.tapIr s code) := by
  unfold State.tapIr
  (try dsimp only)
  repeat' (first
    | with_reducible exact Touches.refl _ _
    | ((with_reducible apply Touches.stepBy 0x40000000000000 (touches_State.updPkg _ _)); · decide))

theorem touches_State.tapTake (s : State) :
    Touches mPkg s (State.tapTake s) := by
  unfold State.tapTake
  (try dsimp only)
  repeat' (first
    | with_reducible exact Touches.refl _ _
    | ((with_reducible apply Touches.stepBy 0x40000000000000 (touches_State.updPkg _ _)); · decide))

theorem touches_State.tapCells (s : State) (bits : List Bool) :
    Touches mPkg s (State.tapCells s bits) := by
  unfold State.tapCells
  (try dsimp only)
  repeat' (first
    | with_reducible exact Touches.refl _ _
    | ((with_reducible apply Touches.stepBy 0x40000000000000 (touches_State.updPkg _ _)); · decide))

/-! ### Machine/StoreCmds.lean -/

theorem touches_execRecordArrival (p : Fin 16) (s : State) :
    TouchesRes (mEvent ||| mFreeCtr ||| mStore ||| mCtxs ||| mBillets ||| mPorts ||| mBadLines) s (execRecordArrival p s) := by
  unfold execRecordArrival
  (try dsimp only)
  repeat' (first
    | refine Touches.res ?_
    | with_reducible exact Touches.refl _ _
    | ((with_reducible apply Touches.stepBy 0x13ee42 (touches_State.arrive _ _)); · decide))

theorem touches_execPolicingCreditResume (x : Fin 4096) (s : State) :
    TouchesRes (mEvent ||| mFreeCtr ||| mStore ||| mCtxs ||| mBillets ||| mPorts ||| mBadLines) s (execPolicingCreditResume x s) := by
  unfold execPolicingCreditResume
  (try dsimp only)
  repeat' (first
    | refine Touches.res ?_
    | with_reducible exact Touches.refl _ _
    | ((with_reducible apply Touches.stepBy 0x13ee42 (touches_State.retryCtx _ _ _)); · decide))

theorem touches_execOverflowStallResume (x : Fin 4096) (s : State) :
    TouchesRes (mEvent ||| mFreeCtr ||| mStore ||| mCtxs ||| mBillets ||| mPorts ||| mBadLines) s (execOverflowStallResume x s) := by
  unfold execOverflowStallResume
  (try dsimp only)
  repeat' (first
    | refine Touches.res ?_
    | with_reducible exact Touches.refl _ _
    | ((with_reducible apply Touches.stepBy 0x13ee42 (touches_State.retryCtx _ _ _)); · decide))

theorem touches_execFaultRecordDeferred (x : Fin 4096) (s : State) :
    TouchesRes (mEvent ||| mFreeCtr ||| mStore ||| mCtxs ||| mBillets ||| mBadLines) s (execFaultRecordDeferred x s) := by
  unfold execFaultRecordDeferred
  (try dsimp only)
  repeat' (first
    | refine Touches.res ?_
    | with_reducible exact Touches.refl _ _
    | ((with_reducible apply Touches.stepBy 0x11ee42 (touches_State.putHeld  _ _ _)); · decide)
    | ((with_reducible apply Touches.stepBy 0x8000 (touches_State.closeIfDrained _ _)); · decide))

theorem touches_execStoTake (s : State) :
    TouchesRes (mEvent ||| mStaged ||| mFreeCtr ||| mStore ||| mCtxs ||| mBillets ||| mBadLines) s (execStoTake s) := by
  unfold execStoTake
  (try dsimp only)
  repeat' (first
    | refine Touches.res ?_
    | with_reducible exact Touches.refl _ _
    | ((with_reducible apply Touches.stepBy 0x11ee42 (touches_State.wrStoCmd _ _)); · decide)
    | ((with_reducible apply touches_State.write64 ?_ _ _ _ _ ?_); (· decide); intro t; try dsimp only)
    | ((intro t b); try dsimp only))

theorem touches_execStoFree (s : State) :
    TouchesRes (mEvent ||| mStaged ||| mFreeCtr ||| mStore ||| mCtxs ||| mBillets ||| mBadLines) s (execStoFree s) := by
  unfold execStoFree
  (try dsimp only)
  repeat' (first
    | refine Touches.res ?_
    | with_reducible exact Touches.refl _ _
    | ((with_reducible apply Touches.stepBy 0x11ee42 (touches_State.wrStoCmd _ _)); · decide)
    | ((with_reducible apply touches_State.write64 ?_ _ _ _ _ ?_); (· decide); intro t; try dsimp only)
    | ((intro t b); try dsimp only))

theorem touches_execStoFlush (s : State) :
    TouchesRes (mEvent ||| mStaged ||| mFreeCtr ||| mStore ||| mCtxs ||| mBillets ||| mBadLines) s (execStoFlush s) := by
  unfold execStoFlush
  (try dsimp only)
  repeat' (first
    | refine Touches.res ?_
    | with_reducible exact Touches.refl _ _
    | ((with_reducible apply Touches.stepBy 0x11ee42 (touches_State.wrStoCmd _ _)); · decide)
    | ((with_reducible apply touches_State.write64 ?_ _ _ _ _ ?_); (· decide); intro t; try dsimp only)
    | ((intro t b); try dsimp only))

theorem touches_execStoDiscard (s : State) :
    TouchesRes (mEvent ||| mStaged ||| mFreeCtr ||| mStore ||| mCtxs ||| mBillets ||| mBadLines) s (execStoDiscard s) := by
  unfold execStoDiscard
  (try dsimp only)
  repeat' (first
    | refine Touches.res ?_
    | with_reducible exact Touches.refl _ _
    | ((with_reducible apply Touches.stepBy 0x11ee42 (touches_State.wrStoCmd _ _)); · decide)
    | ((with_reducible apply touches_State.write64 ?_ _ _ _ _ ?_); (· decide); intro t; try dsimp only)
    | ((intro t b); try dsimp only))

theorem touches_execStoQuery (s : State) :
    TouchesRes (mEvent ||| mStaged ||| mFreeCtr ||| mStore ||| mCtxs ||| mBillets ||| mBadLines) s (execStoQuery s) := by
  unfold execStoQuery
  (try dsimp only)
  repeat' (first
    | refine Touches.res ?_
    | with_reducible exact Touches.refl _ _
    | ((with_reducible apply Touches.stepBy 0x11ee42 (touches_State.wrStoCmd _ _)); · decide)
    | ((with_reducible apply touches_State.write64 ?_ _ _ _ _ ?_); (· decide); intro t; try dsimp only)
    | ((intro t b); try dsimp only))

theorem touches_execStoCsnap (v : Word) (s : State) :
    TouchesRes (mRegs ||| mStaged) s (execStoCsnap v s) := by
  unfold execStoCsnap
  (try dsimp only)
  repeat' (first
    | refine Touches.res ?_
    | with_reducible exact Touches.refl _ _
    | ((with_reducible apply Touches.stepBy 0x2 (touches_State.wrStoCsnap _ _)); · decide)
    | ((with_reducible apply touches_State.write64 ?_ _ _ _ _ ?_); (· decide); intro t; try dsimp only)
    | ((intro t b); try dsimp only))

theorem touches_execBiasSwitchDone (b : Fin 1835008) (s : State) :
    TouchesRes (mEvent ||| mCtxs ||| mBillets) s (execBiasSwitchDone b s) := by
  unfold execBiasSwitchDone
  (try dsimp only)
  repeat' (first
    | refine Touches.res ?_
    | with_reducible exact Touches.refl _ _
    | ((with_reducible apply Touches.stepBy 0x1e842 (touches_State.biasDone _ _)); · decide))

theorem touches_execZcFlushTimer (x : Fin 4096) (s : State) :
    TouchesRes (mEvent ||| mTime ||| mFreeCtr ||| mStore ||| mCtxs ||| mBillets ||| mBadLines) s (execZcFlushTimer x s) := by
  unfold execZcFlushTimer
  (try dsimp only)
  repeat' (first
    | refine Touches.res ?_
    | with_reducible exact Touches.refl _ _
    | ((with_reducible apply Touches.stepBy 0x11eec2 (touches_State.zcFlush _ _)); · decide))

theorem touches_execAdmOpen (s : State) :
    TouchesRes (mEvent ||| mStaged ||| mFreeCtr ||| mStore ||| mCtxs ||| mBillets ||| mBadLines) s (execAdmOpen s) := by
  unfold execAdmOpen
  (try dsimp only)
  repeat' (first
    | refine Touches.res ?_
    | with_reducible exact Touches.refl _ _
    | ((with_reducible apply touches_State.write64 ?_ _ _ _ _ ?_); (· decide); intro t; try dsimp only)
    | ((with_reducible apply Touches.stepBy 0x11ee42 (touches_State.wrAdmCmd _ _)); · decide)
    | ((intro t b); try dsimp only))

theorem touches_execAdmClose (s : State) :
    TouchesRes (mEvent ||| mStaged ||| mFreeCtr ||| mStore ||| mCtxs ||| mBillets ||| mBadLines) s (execAdmClose s) := by
  unfold execAdmClose
  (try dsimp only)
  repeat' (first
    | refine Touches.res ?_
    | with_reducible exact Touches.refl _ _
    | ((with_reducible apply touches_State.write64 ?_ _ _ _ _ ?_); (· decide); intro t; try dsimp only)
    | ((with_reducible apply Touches.stepBy 0x11ee42 (touches_State.wrAdmCmd _ _)); · decide)
    | ((intro t b); try dsimp only))

theorem touches_execAdmTest (s : State) :
    TouchesRes (mEvent ||| mStaged ||| mFreeCtr ||| mStore ||| mCtxs ||| mBillets ||| mBadLines) s (execAdmTest s) := by
  unfold execAdmTest
  (try dsimp only)
  repeat' (first
    | refine Touches.res ?_
    | with_reducible exact Touches.refl _ _
    | ((with_reducible apply touches_State.write64 ?_ _ _ _ _ ?_); (· decide); intro t; try dsimp only)
    | ((with_reducible apply Touches.stepBy 0x11ee42 (touches_State.wrAdmCmd _ _)); · decide)
    | ((intro t b); try dsimp only))

theorem touches_execAdmSnap (v : Word) (s : State) :
    TouchesRes (mRegs ||| mStaged) s (execAdmSnap v s) := by
  unfold execAdmSnap
  (try dsimp only)
  repeat' (first
    | refine Touches.res ?_
    | with_reducible exact Touches.refl _ _
    | ((with_reducible apply touches_State.write64 ?_ _ _ _ _ ?_); (· decide); intro t; try dsimp only)
    | ((with_reducible apply Touches.stepBy 0x2 (touches_State.wrAdmSnap _ _)); · decide)
    | ((intro t b); try dsimp only))

theorem touches_execDeadlineMiss (x : Fin 4096) (d : Fin 4) (s : State) :
    TouchesRes (mEvent ||| mTime ||| mFreeCtr ||| mStore ||| mCtxs ||| mBillets ||| mPorts ||| mAside ||| mBadLines ||| mTdc ||| mDdc ||| mXfm ||| mStreams ||| mDet ||| mDen ||| mAu ||| mCmp) s (execDeadlineMiss x d s) := by
  unfold execDeadlineMiss
  (try dsimp only)
  repeat' (first
    | refine Touches.res ?_
    | with_reducible exact Touches.refl _ _
    | ((with_reducible apply Touches.stepBy 0x2001037117eec2 (touches_State.deadlineMiss _ _ _)); · decide))

/-! ### Machine/RegWrite.lean -/

theorem touches_State.structWr (s : State) :
    Touches mRegs s (State.structWr s) := by
  unfold State.structWr
  (try dsimp only)
  repeat' (first
    | with_reducible exact Touches.refl _ _
    | ((with_reducible apply Touches.stepBy 0x2 (touches_State.addSat_hi _ _ _ _ ?hi)); (case hi => first | decide | (simp only [rPLAN_STATUS]; omega) | (split <;> decide) | (split <;> simp only [rPLAN_STATUS] <;> omega)); (· decide)))

theorem touches_State.wrStruct (s : State) :
    Touches mRegs s (State.wrStruct s) := by
  unfold State.wrStruct
  (try dsimp only)
  repeat' (first
    | with_reducible exact Touches.refl _ _
    | ((with_reducible apply Touches.stepBy 0x2 (touches_State.structWr _)); · decide)
    | split)

theorem touches_State.wrDevid (v : Word) (s : State) :
    Touches (mRegs ||| mGlb) s (State.wrDevid v s) := by
  unfold State.wrDevid
  (try dsimp only)
  repeat' (first
    | with_reducible exact Touches.refl _ _
    | ((with_reducible apply Touches.stepBy 0x2 (touches_State.wrCodes_hi _ _ _ _ ?hi)); (case hi => first | decide | (simp only [rGLB_DEVID]; omega) | (split <;> decide) | (split <;> simp only [rGLB_DEVID] <;> omega)); (· decide))
    | ((with_reducible apply Touches.stepBy 0x80000000000002 (touches_State.wrCodes _ _ _ _)); · decide)
    | split)

theorem touches_State.wrClkRef (v : Word) (s : State) :
    Touches mRegs s (State.wrClkRef v s) := by
  unfold State.wrClkRef
  (try dsimp only)
  repeat' (first
    | with_reducible exact Touches.refl _ _
    | ((with_reducible apply Touches.stepBy 0x2 (touches_State.wrCodes_hi _ _ _ _ ?hi)); (case hi => first | decide | (simp only [rCLK_REF]; omega) | (split <;> decide) | (split <;> simp only [rCLK_REF] <;> omega)); (· decide))
    | split)

theorem touches_State.wrTdcCh (c : Nat) (v : Word) (s : State) :
    Touches mRegs s (State.wrTdcCh c v s) := by
  unfold State.wrTdcCh
  (try dsimp only)
  repeat' (first
    | with_reducible exact Touches.refl _ _
    | ((with_reducible apply Touches.stepBy 0x2 (touches_State.wrStruct _)); · decide)
    | ((with_reducible apply Touches.stepBy 0x2 (touches_State.wrCodes_hi _ _ _ _ ?hi)); (case hi => first | decide | (simp only [rTDC_CH]; omega) | (split <;> decide) | (split <;> simp only [rTDC_CH] <;> omega)); (· decide)))

theorem touches_State.wrFreqSnap (v : Word) (s : State) :
    Touches mRegs s (State.wrFreqSnap v s) := by
  unfold State.wrFreqSnap
  (try dsimp only)
  repeat' (first
    | with_reducible exact Touches.refl _ _
    | ((with_reducible apply Touches.stepBy 0x2 (touches_State.freqSnap _)); · decide)
    | split)

theorem touches_State.wrHistSnap (v : Word) (s : State) :
    Touches mRegs s (State.wrHistSnap v s) := by
  unfold State.wrHistSnap
  (try dsimp only)
  repeat' (first
    | with_reducible exact Touches.refl _ _
    | ((with_reducible apply Touches.stepBy 0x2 (touches_State.calHistSnap _)); · decide)
    | split)

theorem touches_State.wrMgtSmb (p : Path) (v : Word) (s : State) :
    Touches mRegs s (State.wrMgtSmb p v s) := by
  unfold State.wrMgtSmb
  (try dsimp only)
  repeat' (first
    | with_reducible exact Touches.refl _ _
    | ((with_reducible apply Touches.stepBy 0x2 (touches_State.wrCodes_hi _ _ _ _ ?hi)); (case hi => first | decide | (simp only [rMGT_SMB]; omega) | (split <;> decide) | (split <;> simp only [rMGT_SMB] <;> omega)); (· decide))
    | split)

theorem touches_State.regAve (p : Path) (id : RegId) (ix : List Nat) (a : Nat) (env : Env) (v : Word) (s : State) :
    Touches (mEvent ||| mAct ||| mFreeCtr ||| mStore ||| mCtxs ||| mBillets ||| mPorts ||| mAside ||| mBadLines ||| mPlan ||| mTdc ||| mCnv ||| mCal ||| mDdc ||| mXfm ||| mStreams ||| mDet ||| mDen ||| mTq ||| mBus ||| mDecs ||| mAu ||| mNet ||| mAve ||| mRst ||| mStk ||| mCmp ||| mGlb) s (State.regAve p id ix a env v s) := by
  unfold State.regAve
  dsimp only
  split
  · exact (touches_State.wrAveClosed _ _ _ _).mono (by decide)
  · exact (touches_State.wrAveClosed _ _ _ _).mono (by decide)
  · exact (touches_State.wrAveClosed _ _ _ _).mono (by decide)
  · exact (touches_State.wrAveClosed _ _ _ _).mono (by decide)
  · exact (touches_State.wrAveParam _ _ _).mono (by decide)
  · exact (touches_State.wrAveCmd _ _ _).mono (by decide)
  · exact (touches_State.wrAveSnap _ _ _).mono (by decide)
  · exact (touches_State.wrAveGlobal _ _).mono (by decide)
  · exact (touches_State.wrTrigSend _ _).mono (by decide)
  · exact (touches_State.wrDisCtrl _ _ _).mono (by decide)
  · exact (touches_State.wrDisLink _ _ _).mono (by decide)
  · exact (touches_State.wrDisAux _ _ _ _).mono (by decide)
  · exact (touches_State.wrDisPal _ _ _ _ _).mono (by decide)
  · exact (touches_State.wrStkCmd _ _).mono (by decide)
  · exact (touches_State.wrStkCancel _ _).mono (by decide)
  · exact (touches_State.wrEvtCtrl _ _).mono (by decide)
  · exact (touches_State.wrEvtRing _ _).mono (by decide)
  · exact (touches_State.wrRingIdx _ _).mono (by decide)
  · exact (touches_State.wrSwtest _ _).mono (by decide)
  · exact (touches_State.wrEvtInj _ _).mono (by decide)
  · exact (touches_State.wrPwrCtrl _ _).mono (by decide)
  · exact (touches_State.wrThmLimit _ _).mono (by decide)
  · exact (touches_State.wrMgtSmb _ _ _).mono (by decide)
  · exact (touches_State.wrCodes _ _ _ _).mono (by decide)

theorem touches_State.regSto (p : Path) (id : RegId) (ix : List Nat) (a : Nat) (env : Env) (v : Word) (s : State) :
    Touches (mEvent ||| mAct ||| mFreeCtr ||| mStore ||| mCtxs ||| mBillets ||| mPorts ||| mAside ||| mBadLines ||| mPlan ||| mTdc ||| mCnv ||| mCal ||| mDdc ||| mXfm ||| mStreams ||| mDet ||| mDen ||| mTq ||| mBus ||| mDecs ||| mAu ||| mNet ||| mAve ||| mDma ||| mRst ||| mStk ||| mCmp ||| mGlb) s (State.regSto p id ix a env v s) := by
  unfold State.regSto
  dsimp only
  split
  · exact (touches_State.wrStoCmd _ _).mono (by decide)
  · exact (touches_State.wrStoCsnap _ _).mono (by decide)
  · exact (touches_State.wrAdmCmd _ _).mono (by decide)
  · exact (touches_State.wrAdmSnap _ _).mono (by decide)
  · exact (touches_State.wrMemMap _ _).mono (by decide)
  · exact (touches_State.wrMemSched _ _).mono (by decide)
  · exact (touches_State.wrMemUeSnap _ _).mono (by decide)
  · exact (touches_State.wrStruct _).mono (by decide)
  · exact (touches_State.wrCmpStream _ _ _).mono (by decide)
  · exact (touches_State.wrCmpJobCtrl _ _ _ _).mono (by decide)
  · split
    · exact Touches.refl _ _
    · exact (touches_State.wrCodes _ _ _ _).mono (by decide)
  · exact (touches_State.wrDmaCfg _ _ _).mono (by decide)
  · exact (touches_State.wrDmaCtrl _ _ _).mono (by decide)
  · exact (touches_State.wrDmaLimit _ _ _).mono (by decide)
  · exact (touches_State.wrPortCfg _ _ _).mono (by decide)
  · exact (touches_State.wrSubCfg _ _ _).mono (by decide)
  · exact (touches_State.wrExqRing _ _ _).mono (by decide)
  · exact (touches_State.wrExqRxIdx _ _ _).mono (by decide)
  · exact (touches_State.wrExqRing _ _ _).mono (by decide)
  · exact (touches_State.wrExqTxIdx _ _ _).mono (by decide)
  · exact (touches_State.regAve _ _ _ _ _ _ _).mono (by decide)

theorem touches_State.regTrg (p : Path) (id : RegId) (ix : List Nat) (a : Nat) (env : Env) (v : Word) (s : State) :
    Touches (mEvent ||| mAct ||| mFreeCtr ||| mStore ||| mCtxs ||| mBillets ||| mPorts ||| mAside ||| mBadLines ||| mPlan ||| mTdc ||| mCnv ||| mCal ||| mDdc ||| mXfm ||| mStreams ||| mDet ||| mDen ||| mTq ||| mBus ||| mDecs ||| mAu ||| mTurf ||| mNet ||| mAve ||| mDma ||| mRst ||| mStk ||| mCmp ||| mGlb) s (State.regTrg p id ix a env v s) := by
  unfold State.regTrg
  dsimp only
  split
  · exact (touches_State.wrTrgSw _ _).mono (by decide)
  · exact (touches_State.wrTbus _ _ _).mono (by decide)
  · exact (touches_State.wrTmrCfg _ _ _).mono (by decide)
  · exact (touches_State.wrLtCfg _ _ _).mono (by decide)
  · exact (touches_State.wrTqCfg _ _ _).mono (by decide)
  · exact (touches_State.wrTqChain _ _ _).mono (by decide)
  · exact (touches_State.wrTqAuto _ _ _).mono (by decide)
  · exact (touches_State.wrTqSnap _ _ _).mono (by decide)
  · exact (touches_State.wrFmCfg _ _ _).mono (by decide)
  · exact (touches_State.wrStruct _).mono (by decide)
  · exact (touches_State.wrAcqCtrl _ _ _).mono (by decide)
  · exact (touches_State.wrAcqLen _ _ _).mono (by decide)
  · exact (touches_State.wrAcqSeg _ _ _).mono (by decide)
  · exact (touches_State.wrAcqLog _ _ _).mono (by decide)
  · exact (touches_State.wrAcqCmd _ _ _).mono (by decide)
  · exact (touches_State.wrAcqSnap _ _ _).mono (by decide)
  · exact (touches_State.wrRmuSig _ _ _).mono (by decide)
  · exact (touches_State.wrRmuLevel _ _ _).mono (by decide)
  · exact (touches_State.wrTcCtrl _ _ _).mono (by decide)
  · exact (touches_State.wrTcSin _ _ _).mono (by decide)
  · exact (touches_State.wrMbin _ _ _ _).mono (by decide)
  · exact (touches_State.wrMbinCtrl _ _ _).mono (by decide)
  · exact (touches_State.wrMboutCtrl _ _ _).mono (by decide)
  · exact (touches_State.wrStruct _).mono (by decide)
  · exact (touches_State.wrStruct _).mono (by decide)
  · exact (touches_State.regSto _ _ _ _ _ _ _).mono (by decide)

theorem touches_State.regStream (p : Path) (id : RegId) (ix : List Nat) (a : Nat) (env : Env) (v : Word) (s : State) :
    Touches (mEvent ||| mAct ||| mFreeCtr ||| mStore ||| mCtxs ||| mBillets ||| mPorts ||| mAside ||| mBadLines ||| mPlan ||| mTdc ||| mCnv ||| mCal ||| mDdc ||| mXfm ||| mStreams ||| mDet ||| mDen ||| mTq ||| mBus ||| mDecs ||| mAu ||| mTurf ||| mNet ||| mAve ||| mDma ||| mRst ||| mStk ||| mCmp ||| mGlb) s (State.regStream p id ix a env v s) := by
  unfold State.regStream
  dsimp only
  split
  · exact (touches_State.wrPlanCmd _ _).mono (by decide)
  · exact (touches_State.wrPcommit _ _).mono (by decide)
  · exact (touches_State.wrStruct _).mono (by decide)
  · exact (touches_State.wrDdcFtw _ _ _).mono (by decide)
  · exact (touches_State.wrDdcCtrl _ _ _).mono (by decide)
  · exact (touches_State.wrDdcSwap _ _ _).mono (by decide)
  · exact (touches_State.wrDdcStage _ _ _ _).mono (by decide)
  · exact (touches_State.wrDdcCoef0 _ _ _ _ _).mono (by decide)
  · exact (touches_State.wrDdcCoefR _ _ _ _ _ _).mono (by decide)
  · exact (touches_State.wrStruct _).mono (by decide)
  · exact (touches_State.wrStruct _).mono (by decide)
  · exact (touches_State.wrXfmCtrl _ _ _).mono (by decide)
  · exact (touches_State.wrTabCtrl _ _ _).mono (by decide)
  · exact (touches_State.wrStruct _).mono (by decide)
  · exact (touches_State.wrDetCtrl _ _ _).mono (by decide)
  · exact (touches_State.wrDetInt _ _ _).mono (by decide)
  · exact (touches_State.wrDetAlign _ _ _).mono (by decide)
  · exact (touches_State.wrStruct _).mono (by decide)
  · exact (touches_State.wrDenCtrl _ _ _).mono (by decide)
  · exact (touches_State.wrDenInt _ _ _).mono (by decide)
  · exact (touches_State.wrDenAlign _ _ _).mono (by decide)
  · exact (touches_State.regTrg _ _ _ _ _ _ _).mono (by decide)

theorem touches_State.regEffect (p : Path) (r : RegRow) (ix : List Nat) (a : Nat) (env : Env) (v0 : Word) (s : State) :
    Touches 0xbc35a77ff7ffc6 s (State.regEffect p r ix a env v0 s) := by
  unfold State.regEffect
  dsimp only
  split
  · exact (touches_State.wrDevid _ _).mono (by decide)
  · exact (touches_State.wrGlbCtrl _ _).mono (by decide)
  · exact (touches_State.wrClkRef _ _).mono (by decide)
  · exact (touches_State.wrClkCmd _ _).mono (by decide)
  · exact (touches_State.wrClkSync _ _).mono (by decide)
  · exact (touches_State.wrClkOut _ _ _).mono (by decide)
  · exact (touches_State.wrAtt _ _ _).mono (by decide)
  · exact (touches_State.wrChcorr _ _ _).mono (by decide)
  · exact (touches_State.wrBg _ _ _).mono (by decide)
  · exact (touches_State.wrAttcal _ _ _ _).mono (by decide)
  · exact (touches_State.wrSlice _ _ _ _).mono (by decide)
  · exact (touches_State.wrMonCfg _ _ _).mono (by decide)
  · exact (touches_State.wrMonStatus _ _ _).mono (by decide)
  · exact (touches_State.wrPgCfg _ _ _).mono (by decide)
  · exact (touches_State.wrPgStatus _ _ _).mono (by decide)
  · exact (touches_State.wrAdj _ _ _).mono (by decide)
  · exact (touches_State.wrSlew _ _ _).mono (by decide)
  · exact (touches_State.wrStep _ _).mono (by decide)
  · exact (touches_State.wrServo _ _).mono (by decide)
  · exact (touches_State.wrTdcCh _ _ _).mono (by decide)
  · exact (touches_State.wrTdcCtrl _ _).mono (by decide)
  · exact (touches_State.wrFreqCfg _ _).mono (by decide)
  · exact (touches_State.wrFreqSnap _ _).mono (by decide)
  · exact (touches_State.wrCalRun _ _).mono (by decide)
  · exact (touches_State.wrHistSnap _ _).mono (by decide)
  · exact (touches_State.wrCalFlat _ _ _ _).mono (by decide)
  · exact (touches_State.regStream _ _ _ _ _ _ _).mono (by decide)

theorem touches_State.hostWr {m : Nat} (hm : mStaged &&& m = mStaged) (s : State) (id : RegId) (i a : Nat)
    (h : Word → State → State) (v : Word) (k : ∀ v t, Touches m t (h v t)) : Touches m s (State.hostWr s id i a h v) := by
  unfold State.hostWr
  exact touches_State.write64 hm _ _ _ _ fun t => k _ t

theorem touches_State.rsvd (s : State) (write : Bool) :
    Touches mEvent s (State.rsvd s write) := by
  unfold State.rsvd
  (try dsimp only)
  repeat' (first
    | with_reducible exact Touches.refl _ _
    | ((with_reducible apply Touches.stepBy 0x6842 (touches_State.raiseLim _ _ _ _ _ _ _)); · decide)
    | ((with_reducible apply Touches.stepBy 0x2 (touches_State.addSat_hi _ _ _ _ ?hi)); (case hi => first | decide | (simp only [rGLB_HIF_ACCESS]; omega) | (split <;> decide) | (split <;> simp only [rGLB_HIF_ACCESS] <;> omega)); (· decide))
    | split)

theorem touches_State.write0 (p : Path) (a : Nat) (env : Env) (v : Word) (s : State) :
    Touches 0xbc35a77ff7ffd6 s (State.write0 p a env v s) := by
  unfold State.write0
  (try dsimp only)
  repeat' (first
    | with_reducible exact Touches.refl _ _
    | ((with_reducible apply Touches.stepBy 0x40000000000 (touches_State.wrDm _ _ _ _)); · decide)
    | ((with_reducible apply Touches.stepBy 0x40000000002 (touches_State.wrPm _ _ _ _)); · decide)
    | ((with_reducible apply Touches.stepBy 0x6842 (touches_State.rsvd _ _)); · decide)
    | ((with_reducible apply Touches.stepBy 0xbc35a77ff7ffc6 (touches_State.regEffect _ _ _ _ _ _ _)); · decide)
    | ((with_reducible apply touches_State.write64 ?_ _ _ _ _ ?_); (· decide); intro t; try dsimp only)
    | ((intro t b); try dsimp only)
    | split
    | with_reducible refine Touches.ofSnd (by assumption) ?_
    | with_reducible refine Touches.ofFst (by assumption) ?_)

theorem touches_State.read0 (a : Nat) (s : State) :
    Touches (mEvent ||| mReadData) s (State.read0 a s) := by
  unfold State.read0
  (try dsimp only)
  repeat' (first
    | with_reducible exact Touches.refl _ _
    | ((with_reducible apply Touches.stepBy 0x6842 (touches_State.rsvd _ _)); · decide)
    | ((with_reducible apply Touches.stepBy 0x20 (touches_State.onReadData _ _)); · decide)
    | split)

theorem touches_State.readLow (p : Path) (a : Nat) (s : State) :
    Touches (mEvent ||| mSnap ||| mReadData) s (State.readLow p a s) := by
  unfold State.readLow
  (try dsimp only)
  repeat' (first
    | with_reducible exact Touches.refl _ _
    | ((with_reducible apply Touches.stepBy 0x6842 (touches_State.rsvd _ _)); · decide)
    | ((with_reducible apply Touches.stepBy 0x20 (touches_State.onReadData _ _)); · decide)
    | ((with_reducible apply Touches.stepBy 0x8 (touches_State.onSnap _ _)); · decide)
    | split
    | with_reducible refine Touches.ofSnd (by assumption) ?_
    | with_reducible refine Touches.ofFst (by assumption) ?_)

theorem touches_State.readHigh (p : Path) (a : Nat) (s : State) :
    Touches (mEvent ||| mReadData) s (State.readHigh p a s) := by
  unfold State.readHigh
  (try dsimp only)
  repeat' (first
    | with_reducible exact Touches.refl _ _
    | ((with_reducible apply Touches.stepBy 0x6842 (touches_State.rsvd _ _)); · decide)
    | ((with_reducible apply Touches.stepBy 0x20 (touches_State.onReadData _ _)); · decide)
    | split
    | with_reducible refine Touches.ofSnd (by assumption) ?_
    | with_reducible refine Touches.ofFst (by assumption) ?_)

theorem touches_State.writeLow (p : Path) (a : Nat) (env : Env) (v : BitVec 32) (s : State) :
    Touches 0xbc35a77ff7ffd6 s (State.writeLow p a env v s) := by
  unfold State.writeLow
  (try dsimp only)
  repeat' (first
    | with_reducible exact Touches.refl _ _
    | ((with_reducible apply Touches.stepBy 0x40000000000 (touches_State.wrDm _ _ _ _)); · decide)
    | ((with_reducible apply Touches.stepBy 0x40000000002 (touches_State.wrPm _ _ _ _)); · decide)
    | ((with_reducible apply Touches.stepBy 0x6842 (touches_State.rsvd _ _)); · decide)
    | ((with_reducible apply Touches.stepBy 0xbc35a77ff7ffc6 (touches_State.regEffect _ _ _ _ _ _ _)); · decide)
    | ((with_reducible apply Touches.stepBy 0x10 (touches_State.onStaged _ _)); · decide)
    | split
    | with_reducible refine Touches.ofSnd (by assumption) ?_
    | with_reducible refine Touches.ofFst (by assumption) ?_)

theorem touches_State.writeHigh (p : Path) (a : Nat) (env : Env) (v : BitVec 32) (s : State) :
    Touches 0xbc35a77ff7ffd6 s (State.writeHigh p a env v s) := by
  unfold State.writeHigh
  (try dsimp only)
  repeat' (first
    | with_reducible exact Touches.refl _ _
    | ((with_reducible apply Touches.stepBy 0x40000000000 (touches_State.wrDm _ _ _ _)); · decide)
    | ((with_reducible apply Touches.stepBy 0x40000000002 (touches_State.wrPm _ _ _ _)); · decide)
    | ((with_reducible apply Touches.stepBy 0x6842 (touches_State.rsvd _ _)); · decide)
    | ((with_reducible apply Touches.stepBy 0xbc35a77ff7ffc6 (touches_State.regEffect _ _ _ _ _ _ _)); · decide)
    | ((with_reducible apply Touches.stepBy 0x10 (touches_State.dropStaged _ _ _)); · decide)
    | split
    | with_reducible refine Touches.ofSnd (by assumption) ?_
    | with_reducible refine Touches.ofFst (by assumption) ?_)

theorem touches_State.smbDiscard (s : State) :
    Touches (mEvent ||| mPkg) s (State.smbDiscard s) := by
  unfold State.smbDiscard
  (try dsimp only)
  repeat' (first
    | with_reducible exact Touches.refl _ _
    | ((with_reducible apply Touches.stepBy 0x40000000000000 (touches_State.updPkg _ _)); · decide)
    | ((with_reducible apply Touches.stepBy 0x6842 (touches_State.raiseLim _ _ _ _ _ _ _)); · decide)
    | ((with_reducible apply Touches.stepBy 0x2 (touches_State.addSat_hi _ _ _ _ ?hi)); (case hi => first | decide | (simp only [rMGT_SMB]; omega) | (split <;> decide) | (split <;> simp only [rMGT_SMB] <;> omega)); (· decide)))

theorem touches_State.pathWrite {m : Nat} (hm : (mEvent ||| mPkg) &&& m = (mEvent ||| mPkg)) (p : Path) (a : Nat) (h : State → State) (s : State)
    (k : ∀ t, Touches m t (h t)) : Touches m s (State.pathWrite p a h s) := by
  unfold State.pathWrite
  split
  · exact (touches_State.smbDiscard s).mono hm
  · exact k s

theorem touches_State.bar4Write64 (s : State) (a : Nat) (v : Word) :
    Touches (mEvent ||| mFreeCtr ||| mStore ||| mCtxs ||| mBillets ||| mBadLines) s (State.bar4Write64 s a v) := by
  unfold State.bar4Write64
  (try dsimp only)
  repeat' (first
    | with_reducible exact Touches.refl _ _
    | ((with_reducible apply Touches.stepBy 0x11ee42 (touches_State.bar4Write _ _ _)); · decide)
    | ((with_reducible apply Touches.stepBy 0x6842 (touches_State.dbDiscard _)); · decide)
    | split)

theorem touches_State.barWrite (s : State) (p : Path) (bar : Bar) (a : Nat) (v : Word) (env : Env) :
    Touches 0xfc35a77ff7ffd6 s (State.barWrite s p bar a v env) := by
  unfold State.barWrite
  (try dsimp only)
  repeat' (first
    | with_reducible exact Touches.refl _ _
    | ((with_reducible apply Touches.stepBy 0x11ee42 (touches_State.bar4Write64 _ _ _)); · decide)
    | ((with_reducible apply touches_State.pathWrite ?_ _ _ _ _ ?_); (· decide); intro t; try dsimp only)
    | ((with_reducible apply Touches.stepBy 0xbc35a77ff7ffd6 (touches_State.write0 _ _ _ _ _)); · decide)
    | ((with_reducible apply Touches.stepBy 0x6842 (touches_State.rsvd _ _)); · decide)
    | ((with_reducible apply Touches.stepBy 0x4040 (touches_State.bar2Write _ _ _)); · decide)
    | ((intro t b); try dsimp only)
    | split
    | with_reducible refine Touches.ofSnd (by assumption) ?_
    | with_reducible refine Touches.ofFst (by assumption) ?_)

theorem touches_State.halfRead (s : State) (p : Path) (bar : Bar) (a : Nat) (high : Bool) :
    Touches (mEvent ||| mSnap ||| mReadData) s (State.halfRead s p bar a high) := by
  unfold State.halfRead
  (try dsimp only)
  repeat' (first
    | with_reducible exact Touches.refl _ _
    | ((with_reducible apply Touches.stepBy 0x6862 (touches_State.readHigh _ _ _)); · decide)
    | ((with_reducible apply Touches.stepBy 0x686a (touches_State.readLow _ _ _)); · decide)
    | ((with_reducible apply Touches.stepBy 0x20 (touches_State.onReadData _ _)); · decide)
    | split
    | with_reducible refine Touches.ofSnd (by assumption) ?_
    | with_reducible refine Touches.ofFst (by assumption) ?_)

theorem touches_State.halfWrite (s : State) (p : Path) (bar : Bar) (a : Nat) (high : Bool) (v : BitVec 32) (env : Env) :
    Touches 0xfc35a77ff7ffd6 s (State.halfWrite s p bar a high v env) := by
  unfold State.halfWrite
  (try dsimp only)
  repeat' (first
    | with_reducible exact Touches.refl _ _
    | ((with_reducible apply touches_State.pathWrite ?_ _ _ _ _ ?_); (· decide); intro t; try dsimp only)
    | ((with_reducible apply Touches.stepBy 0xbc35a77ff7ffd6 (touches_State.writeHigh _ _ _ _ _)); · decide)
    | ((with_reducible apply Touches.stepBy 0xbc35a77ff7ffd6 (touches_State.writeLow _ _ _ _ _)); · decide)
    | ((with_reducible apply Touches.stepBy 0x4040 (touches_State.bar2Write _ _ _)); · decide)
    | ((with_reducible apply Touches.stepBy 0x6842 (touches_State.dbDiscard _)); · decide)
    | ((intro t b); try dsimp only)
    | split
    | with_reducible refine Touches.ofSnd (by assumption) ?_
    | with_reducible refine Touches.ofFst (by assumption) ?_)

theorem touches_State.anyRead (s : State) (p : Path) (bar : Bar) (a : Nat) (sz : AccSize) :
    Touches (mEvent ||| mSnap ||| mReadData) s (State.anyRead s p bar a sz) := by
  unfold State.anyRead
  (try dsimp only)
  repeat' (first
    | with_reducible exact Touches.refl _ _
    | ((with_reducible apply Touches.stepBy 0x686a (touches_State.halfRead _ _ _ _ _)); · decide)
    | ((with_reducible apply Touches.stepBy 0x6862 (touches_State.read0 _ _)); · decide)
    | ((with_reducible apply Touches.stepBy 0x6842 (touches_State.rsvd _ _)); · decide)
    | ((with_reducible apply Touches.stepBy 0x20 (touches_State.onReadData _ _)); · decide)
    | split
    | with_reducible refine Touches.ofSnd (by assumption) ?_
    | with_reducible refine Touches.ofFst (by assumption) ?_)

theorem touches_State.anyDrop (s : State) (p : Path) (bar : Bar) (a : Nat) (sz : AccSize) :
    Touches (mEvent ||| mPkg) s (State.anyDrop s p bar a sz) := by
  unfold State.anyDrop
  (try dsimp only)
  repeat' (first
    | with_reducible exact Touches.refl _ _
    | ((with_reducible apply touches_State.pathWrite ?_ _ _ _ _ ?_); (· decide); intro t; try dsimp only)
    | ((with_reducible apply Touches.stepBy 0x6842 (touches_State.rsvd _ _)); · decide)
    | ((with_reducible apply Touches.stepBy 0x6842 (touches_State.dbDiscard _)); · decide)
    | ((intro t b); try dsimp only)
    | split
    | with_reducible refine Touches.ofSnd (by assumption) ?_
    | with_reducible refine Touches.ofFst (by assumption) ?_)

/-! ### Machine/PlanCommit.lean -/

theorem touches_State.unitClear (s : State) (sq : Nat) :
    Touches (mEvent ||| mFreeCtr ||| mStore ||| mCtxs ||| mBillets ||| mPorts ||| mAside ||| mBadLines ||| mDdc ||| mXfm ||| mFrames ||| mDet ||| mDen ||| mLt ||| mFm ||| mAu ||| mReplay ||| mCmp) s (State.unitClear s sq) := by
  unfold State.unitClear
  (try dsimp only)
  repeat' (first
    | with_reducible exact Touches.refl _ _
    | ((with_reducible apply Touches.stepBy 0x2001033017ee42 (touches_State.unitOrigin _ _ _)); · decide)
    | ((with_reducible apply Touches.stepBy 0x2001033017ee42 (touches_State.unitDiscard _ _)); · decide)
    | ((with_reducible apply Touches.stepBy 0x20000000000 (touches_State.onReplay _ _)); · decide)
    | ((with_reducible apply Touches.stepBy 0x1000000000 (touches_State.onFm _ _)); · decide)
    | ((with_reducible apply Touches.stepBy 0x800000000 (touches_State.onLt _ _)); · decide)
    | ((with_reducible apply Touches.stepBy 0x80000000 (touches_State.onFrames _ _)); · decide)
    | ((with_reducible apply Touches.stepBy 0x8000 (touches_State.loseFrom _ _ _)); · decide)
    | ((with_reducible apply Touches.stepBy 0x10000008000 (touches_State.auLogDrop _ _)); · decide)
    | ((with_reducible refine Touches.foldl ?_ ?_))
    | ((intro t b); try dsimp only)
    | split)

theorem touches_State.oldEpoch (s : State) (x ep : Nat) :
    Touches mPorts s (State.oldEpoch s x ep) := by
  unfold State.oldEpoch
  (try dsimp only)
  repeat' (first
    | with_reducible exact Touches.refl _ _
    | ((with_reducible apply Touches.stepBy 0x20000 (touches_State.onPorts _ _)); · decide)
    | split
    | (with_reducible constructor <;> first | exact fun h => absurd h (by decide) | exact fun _ => rfl | exact fun _ a _ => State.rd_congr (by rfl) a | exact fun h => h.of_eq rfl rfl rfl rfl rfl | exact FusesOnlyBurn.of_eq rfl rfl rfl rfl rfl))

theorem touches_State.gapCtx (s : State) (x plat : Nat) (e : List Word) :
    Touches (mRegs ||| mCtxs ||| mBillets ||| mPorts ||| mTdc ||| mStreams) s (State.gapCtx s x plat e) := by
  unfold State.gapCtx
  (try dsimp only)
  repeat' (first
    | with_reducible exact Touches.refl _ _
    | ((with_reducible apply Touches.stepBy 0x18002 (touches_State.settle _ _)); · decide)
    | ((with_reducible apply Touches.stepBy 0x8000 (touches_State.updCtx _ _ _)); · decide)
    | ((with_reducible apply Touches.stepBy 0x20000 (touches_State.oldEpoch _ _ _)); · decide)
    | ((with_reducible apply Touches.stepBy 0x1008000 (touches_State.stampsDrop _ _)); · decide)
    | ((with_reducible apply Touches.stepBy 0x40008000 (touches_State.streamDrop _ _)); · decide)
    | ((with_reducible apply Touches.stepBy 0x2 (touches_State.setFld_hi _ _ _ _ ?hi)); (case hi => first | decide | (simp only [rADM_CTX]; omega) | (split <;> decide) | (split <;> simp only [rADM_CTX] <;> omega)); (· decide)))

theorem touches_State.showPlan (s : State) (p : Option PlanImg) :
    Touches (mEvent ||| mAct ||| mFreeCtr ||| mStore ||| mCtxs ||| mBillets ||| mBadLines ||| mTurf ||| mClusters ||| mCmp ||| mGlb) s (State.showPlan s p) := by
  unfold State.showPlan
  (try dsimp only)
  repeat' (first
    | with_reducible exact Touches.refl _ _
    | ((with_reducible apply Touches.stepBy 0x2 (touches_State.xfmPlan _ _)); · decide)
    | ((with_reducible apply Touches.stepBy 0xc000011ee42 (touches_State.turfPlan _ _)); · decide)
    | ((with_reducible apply Touches.stepBy 0x80000000000006 (touches_State.trgPlan _ _)); · decide)
    | ((with_reducible apply Touches.stepBy 0x2 (touches_State.setFlds_hi _ _ _ ?hi)); (case hi => first | decide | (simp only [rCNV_MODE, rGRID_SQ, rTDC_CH]; omega) | (split <;> decide) | (split <;> simp only [rCNV_MODE, rGRID_SQ, rTDC_CH] <;> omega)); (· decide))
    | ((with_reducible apply Touches.stepBy 0x80000000000002 (touches_State.setFlds _ _ _)); · decide)
    | ((with_reducible apply Touches.stepBy 0x2 (touches_State.detPlan _ _)); · decide)
    | ((with_reducible apply Touches.stepBy 0x2 (touches_State.ddcPlan _ _)); · decide)
    | ((with_reducible apply Touches.stepBy 0x20000000006842 (touches_State.cmpPlan _ _)); · decide)
    | ((with_reducible apply Touches.stepBy 0x2 (touches_State.acqPlan _ _)); · decide)
    | ((with_reducible refine Touches.foldl ?_ ?_))
    | ((intro t b); try dsimp only)
    | split
    | with_reducible refine Touches.ofSnd (by assumption) ?_
    | with_reducible refine Touches.ofFst (by assumption) ?_)

theorem touches_State.auAside (s : State) (kept : Nat → Bool) :
    Touches (mEvent ||| mCtxs ||| mBillets ||| mAside ||| mAu) s (State.auAside s kept) := by
  unfold State.auAside
  (try dsimp only)
  repeat' (first
    | with_reducible exact Touches.refl _ _
    | ((with_reducible apply Touches.stepBy 0x6842 (touches_State.extentLow _ _)); · decide)
    | ((with_reducible apply Touches.stepBy 0x40000 (touches_State.onAside _ _)); · decide)
    | ((with_reducible apply Touches.stepBy 0x10000058002 (touches_State.auIdle _ _)); · decide)
    | ((with_reducible apply Touches.stepBy 0x10000018002 (touches_State.auRelease _ _)); · decide)
    | ((with_reducible apply Touches.stepBy 0x10000000000 (touches_State.updAu _ _ _)); · decide)
    | ((with_reducible refine Touches.foldl ?_ ?_))
    | ((intro t b); try dsimp only)
    | split)

theorem touches_State.writeParams (s : State) (p : PlanImg) (kept : Nat → Bool) :
    Touches 0xbc35f77ff7ffc6 s (State.writeParams s p kept) := by
  unfold State.writeParams
  (try dsimp only)
  repeat' (first
    | with_reducible exact Touches.refl _ _
    | ((with_reducible apply Touches.stepBy 0x30f400006842 (touches_State.trgCommitted _ _)); · decide)
    | ((with_reducible apply Touches.stepBy 0xbc35a77ff7ffc6 (touches_State.regEffect _ _ _ _ _ _ _)); · decide)
    | ((with_reducible apply Touches.stepBy 0x4 (touches_State.commitReg _ _)); · decide)
    | ((with_reducible refine Touches.foldl ?_ ?_))
    | ((with_reducible refine Touches.foldlSnd ?_ ?_))
    | ((with_reducible refine Touches.foldlFst ?_ ?_))
    | ((intro t b); try dsimp only)
    | split
    | with_reducible refine Touches.ofSnd (by assumption) ?_
    | with_reducible refine Touches.ofFst (by assumption) ?_)

theorem touches_State.planDone (s : State) (sha detail : Nat) :
    Touches (mEvent ||| mStk) s (State.planDone s sha detail) := by
  unfold State.planDone
  (try dsimp only)
  repeat' (first
    | with_reducible exact Touches.refl _ _
    | ((with_reducible apply Touches.stepBy 0x2 (touches_State.trgRelat _)); · decide)
    | ((with_reducible apply Touches.stepBy 0x2 (touches_State.planStatus _ _ _ _)); · decide)
    | ((with_reducible apply Touches.stepBy 0x6842 (touches_State.raise _ _ _ _ _)); · decide)
    | ((with_reducible apply Touches.stepBy 0x10000000006842 (touches_State.measure _ _ _)); · decide)
    | ((with_reducible apply Touches.stepBy 0x6842 (touches_State.admRetest _)); · decide))

theorem touches_State.planActivate (s : State) (new : PlanImg) :
    Touches 0xbc3ffffff7ffc6 s (State.planActivate s new) := by
  unfold State.planActivate
  (try dsimp only)
  repeat' (first
    | with_reducible exact Touches.refl _ _
    | ((with_reducible apply Touches.stepBy 0x11ee42 (touches_State.drainCtx _ _)); · decide)
    | ((with_reducible apply Touches.stepBy 0x10000000006842 (touches_State.planDone _ _ _)); · decide)
    | ((with_reducible apply Touches.stepBy 0xbc35f77ff7ffc6 (touches_State.writeParams _ _ _)); · decide)
    | ((with_reducible apply Touches.stepBy 0x1000005e842 (touches_State.auAside _ _)); · decide)
    | ((with_reducible apply Touches.stepBy 0xa00c000011ee46 (touches_State.showPlan _ _)); · decide)
    | ((with_reducible apply Touches.stepBy 0x41038002 (touches_State.gapCtx _ _ _ _)); · decide)
    | ((with_reducible apply Touches.stepBy 0x20031bb017ee42 (touches_State.unitClear _ _)); · decide)
    | ((with_reducible apply Touches.stepBy 0x400002 (touches_State.setSlot _ _ _ _)); · decide)
    | ((with_reducible apply Touches.stepBy 0x2001033017ee42 (touches_State.unitOrigin _ _ _)); · decide)
    | ((with_reducible apply Touches.stepBy 0x1008000 (touches_State.stampsDrop _ _)); · decide)
    | ((with_reducible apply Touches.stepBy 0x40008000 (touches_State.streamDrop _ _)); · decide)
    | ((with_reducible apply Touches.stepBy 0x80 (touches_State.reach _ _)); · decide)
    | ((with_reducible apply Touches.stepBy 0x2 (touches_State.addMod_hi _ _ _ _ ?hi)); (case hi => first | decide | (simp only [rCNV_MODE, rGLB_STATUS, rPLAN_STATUS, rPLAN_TIME]; omega) | (split <;> decide) | (split <;> simp only [rCNV_MODE, rGLB_STATUS, rPLAN_STATUS, rPLAN_TIME] <;> omega)); (· decide))
    | ((with_reducible apply Touches.stepBy 0x80000000000002 (touches_State.addMod _ _ _ _)); · decide)
    | ((with_reducible apply Touches.stepBy 0x2 (touches_State.setFld_hi _ _ _ _ ?hi)); (case hi => first | decide | (simp only [rCNV_MODE, rGLB_STATUS, rPLAN_STATUS, rPLAN_TIME]; omega) | (split <;> decide) | (split <;> simp only [rCNV_MODE, rGLB_STATUS, rPLAN_STATUS, rPLAN_TIME] <;> omega)); (· decide))
    | ((with_reducible apply Touches.stepBy 0x80000000000002 (touches_State.setFld _ _ _ _)); · decide)
    | ((with_reducible apply Touches.stepBy 0x2018002 (touches_State.bgPlanTouch _ _)); · decide)
    | ((with_reducible apply Touches.stepBy 0x2000000 (touches_State.newGeff _ _)); · decide)
    | ((with_reducible apply Touches.stepBy 0x13ee42 (touches_State.drainPorts _)); · decide)
    | ((with_reducible apply Touches.stepBy 0xa01e846 (touches_State.calAbortIf _ _)); · decide)
    | ((with_reducible apply Touches.stepBy 0xe842 (touches_State.takeIn _ _ _ _ _)); · decide)
    | ((with_reducible refine Touches.foldl ?_ ?_))
    | ((intro t b); try dsimp only)
    | split)

theorem touches_State.planCommit (s : State) :
    Touches 0xbc3ffffff7ffc6 s (State.planCommit s) := by
  unfold State.planCommit
  (try dsimp only)
  repeat' (first
    | with_reducible exact Touches.refl _ _
    | ((with_reducible apply Touches.stepBy 0xbc3ffffff7ffc6 (touches_State.planActivate _ _)); · decide)
    | split
    | with_reducible refine Touches.ofSnd (by assumption) ?_
    | with_reducible refine Touches.ofFst (by assumption) ?_)

theorem touches_State.planStopCommit (s : State) :
    Touches (mEvent ||| mAct ||| mTime ||| mFreeCtr ||| mStore ||| mCtxs ||| mBillets ||| mPorts ||| mAside ||| mBadLines ||| mPlan ||| mTdc ||| mDdc ||| mXfm ||| mStreams ||| mFrames ||| mDet ||| mDen ||| mLt ||| mFm ||| mAu ||| mReplay ||| mTurf ||| mClusters ||| mStk ||| mCmp ||| mGlb) s (State.planStopCommit s) := by
  unfold State.planStopCommit
  (try dsimp only)
  repeat' (first
    | with_reducible exact Touches.refl _ _
    | ((with_reducible apply Touches.stepBy 0x11ee42 (touches_State.drainCtx _ _)); · decide)
    | ((with_reducible apply Touches.stepBy 0x10000000006842 (touches_State.planDone _ _ _)); · decide)
    | ((with_reducible apply Touches.stepBy 0x1000005e842 (touches_State.auAside _ _)); · decide)
    | ((with_reducible apply Touches.stepBy 0xa00c000011ee46 (touches_State.showPlan _ _)); · decide)
    | ((with_reducible apply Touches.stepBy 0x20031bb017ee42 (touches_State.unitClear _ _)); · decide)
    | ((with_reducible apply Touches.stepBy 0x400002 (touches_State.setSlot _ _ _ _)); · decide)
    | ((with_reducible apply Touches.stepBy 0x1008000 (touches_State.stampsDrop _ _)); · decide)
    | ((with_reducible apply Touches.stepBy 0x40008000 (touches_State.streamDrop _ _)); · decide)
    | ((with_reducible apply Touches.stepBy 0x80 (touches_State.reach _ _)); · decide)
    | ((with_reducible apply Touches.stepBy 0x2 (touches_State.setFld_hi _ _ _ _ ?hi)); (case hi => first | decide | (simp only [rGLB_STATUS, rPLAN_TIME]; omega) | (split <;> decide) | (split <;> simp only [rGLB_STATUS, rPLAN_TIME] <;> omega)); (· decide))
    | ((with_reducible apply Touches.stepBy 0x80000000000002 (touches_State.setFld _ _ _ _)); · decide)
    | ((with_reducible apply Touches.stepBy 0x13ee42 (touches_State.drainPorts _)); · decide)
    | ((with_reducible refine Touches.foldl ?_ ?_))
    | ((intro t b); try dsimp only)
    | split
    | with_reducible refine Touches.ofSnd (by assumption) ?_
    | with_reducible refine Touches.ofFst (by assumption) ?_)

theorem touches_State.paramCommit (s : State) :
    Touches 0xbc3ffffff7ffc6 s (State.paramCommit s) := by
  unfold State.paramCommit
  (try dsimp only)
  repeat' (first
    | with_reducible exact Touches.refl _ _
    | ((with_reducible apply Touches.stepBy 0x20000004 (touches_State.xfmParamCommit _)); · decide)
    | ((with_reducible apply Touches.stepBy 0x30f400006846 (touches_State.trgParamCommit _)); · decide)
    | ((with_reducible apply Touches.stepBy 0xbc3ffffff7ffc6 (touches_State.planCommit _)); · decide)
    | ((with_reducible apply Touches.stepBy 0x6842 (touches_State.raise _ _ _ _ _)); · decide)
    | ((with_reducible apply Touches.stepBy 0x80 (touches_State.reach _ _)); · decide)
    | ((with_reducible apply Touches.stepBy 0x2 (touches_State.addMod_hi _ _ _ _ ?hi)); (case hi => first | decide | (simp only [rPLAN_PCOMMIT, rPLAN_PC_TIME, rPLAN_TIME]; omega) | (split <;> decide) | (split <;> simp only [rPLAN_PCOMMIT, rPLAN_PC_TIME, rPLAN_TIME] <;> omega)); (· decide))
    | ((with_reducible apply Touches.stepBy 0x80000000000002 (touches_State.addMod _ _ _ _)); · decide)
    | ((with_reducible apply Touches.stepBy 0x2 (touches_State.setFld_hi _ _ _ _ ?hi)); (case hi => first | decide | (simp only [rPLAN_PCOMMIT, rPLAN_PC_TIME, rPLAN_TIME]; omega) | (split <;> decide) | (split <;> simp only [rPLAN_PCOMMIT, rPLAN_PC_TIME, rPLAN_TIME] <;> omega)); (· decide))
    | ((with_reducible apply Touches.stepBy 0x80000000000002 (touches_State.setFld _ _ _ _)); · decide)
    | ((with_reducible apply Touches.stepBy 0x300000004 (touches_State.detParamCommit _)); · decide)
    | ((with_reducible apply Touches.stepBy 0x10000006 (touches_State.ddcParamCommit _)); · decide)
    | ((with_reducible apply Touches.stepBy 0x6 (touches_State.cmpParamCommit _)); · decide)
    | ((with_reducible apply Touches.stepBy 0x10000006846 (touches_State.acqParamCommit _)); · decide)
    | split)

theorem touches_State.dpActivate (s : State) :
    Touches (mEvent ||| mFreeCtr ||| mStore ||| mCtxs ||| mBillets ||| mPorts ||| mAside ||| mBadLines ||| mDdc ||| mXfm ||| mFrames ||| mDet ||| mDen ||| mLt ||| mFm ||| mDecs ||| mAu ||| mReplay ||| mCmp ||| mGlb) s (State.dpActivate s) := by
  unfold State.dpActivate
  (try dsimp only)
  repeat' (first
    | with_reducible exact Touches.refl _ _
    | ((with_reducible apply Touches.stepBy 0x2 (touches_State.trgRelat _)); · decide)
    | ((with_reducible apply Touches.stepBy 0x80000000006842 (touches_State.dpFail _)); · decide)
    | ((with_reducible apply Touches.stepBy 0x6842 (touches_State.cxlResetDone _)); · decide)
    | ((with_reducible apply Touches.stepBy 0x2001033017ee42 (touches_State.unitOrigin _ _ _)); · decide)
    | ((with_reducible apply Touches.stepBy 0x6842 (touches_State.raise _ _ _ _ _)); · decide)
    | ((with_reducible apply Touches.stepBy 0x2 (touches_State.setFld_hi _ _ _ _ ?hi)); (case hi => first | decide | (simp only [rEVT_RESTART, rGLB_STATUS, rSTK_STATUS]; omega) | (split <;> decide) | (split <;> simp only [rEVT_RESTART, rGLB_STATUS, rSTK_STATUS] <;> omega)); (· decide))
    | ((with_reducible apply Touches.stepBy 0x80000000000002 (touches_State.setFld _ _ _ _)); · decide)
    | ((with_reducible apply Touches.stepBy 0x20000000000 (touches_State.onReplay _ _)); · decide)
    | ((with_reducible apply Touches.stepBy 0x8000000000 (touches_State.onDecs _ _)); · decide)
    | ((with_reducible apply Touches.stepBy 0x1000000000 (touches_State.onFm _ _)); · decide)
    | ((with_reducible apply Touches.stepBy 0x800000000 (touches_State.onLt _ _)); · decide)
    | ((with_reducible apply Touches.stepBy 0x80000000 (touches_State.onFrames _ _)); · decide)
    | ((with_reducible refine Touches.foldl ?_ ?_))
    | ((intro t b); try dsimp only)
    | split)

end Sys2Proof.Machine
end

