-- ==== Sys2Proof/Laws/TouchesCmds.lean ====
section
/-! SUPPORT. What the operations of the commands can touch. -/

set_option Elab.async false

namespace Sys2Proof.Machine

/-! ### Machine/Beat.lean -/

theorem touches_State.streamClose (s : State) (x p : Nat) (wait : Bool) :
    Touches (mPorts ||| mStreams) s (State.streamClose s x p wait) := by
  unfold State.streamClose
  (try dsimp only)
  repeat' (first
    | with_reducible exact Touches.refl _ _
    | ((with_reducible apply Touches.stepBy 0x40000000 (touches_State.onStreams _ _)); · decide)
    | ((with_reducible apply Touches.stepBy 0x20000 (touches_State.toPort _ _ _)); · decide)
    | ((with_reducible refine Touches.foldl ?_ ?_))
    | ((intro t b); try dsimp only)
    | split
    | with_reducible refine Touches.ofSnd (by assumption) ?_
    | with_reducible refine Touches.ofFst (by assumption) ?_)

theorem touches_State.streamPut (s : State) (x p : Nat) (wait : Bool) (y : Smp) :
    Touches (mCtxs ||| mPorts ||| mStreams) s (State.streamPut s x p wait y) := by
  unfold State.streamPut
  (try dsimp only)
  repeat' (first
    | with_reducible exact Touches.refl _ _
    | ((with_reducible apply Touches.stepBy 0x8000 (touches_State.flagCtx _ _ _)); · decide)
    | ((with_reducible apply Touches.stepBy 0x8000 (touches_State.loseItems _ _ _)); · decide)
    | ((with_reducible apply Touches.stepBy 0x40000000 (touches_State.onStreams _ _)); · decide)
    | ((with_reducible apply Touches.stepBy 0x40020000 (touches_State.streamClose _ _ _ _)); · decide)
    | split
    | with_reducible refine Touches.ofSnd (by assumption) ?_
    | with_reducible refine Touches.ofFst (by assumption) ?_)

theorem touches_State.portBeat (s : State) (r : Route) (d : Nat) (xs : List Smp) :
    Touches (mEvent ||| mCtxs ||| mPorts ||| mStreams) s (State.portBeat s r d xs) := by
  unfold State.portBeat
  (try dsimp only)
  repeat' (first
    | with_reducible exact Touches.refl _ _
    | ((with_reducible apply Touches.stepBy 0x8000 (touches_State.flagCtx _ _ _)); · decide)
    | ((with_reducible apply Touches.stepBy 0xe842 (touches_State.dropBeats _ _ _ _ _)); · decide)
    | ((with_reducible apply Touches.stepBy 0x40028000 (touches_State.streamPut _ _ _ _ _)); · decide)
    | ((with_reducible refine Touches.foldl ?_ ?_))
    | ((intro t b); try dsimp only)
    | split
    | with_reducible refine Touches.ofSnd (by assumption) ?_
    | with_reducible refine Touches.ofFst (by assumption) ?_)

theorem touches_State.feed (x0 : Nat) (s : State) (x2 : Nat) (x3 : List Smp) :
    Touches (mEvent ||| mFreeCtr ||| mStore ||| mCtxs ||| mBillets ||| mPorts ||| mAside ||| mBadLines ||| mDdc ||| mXfm ||| mStreams ||| mLt ||| mAu ||| mCmp) s (State.feed x0 s x2 x3) := by
  induction x0 generalizing s x2 x3 with
  | zero => unfold State.feed; exact Touches.refl _ _
  | succ x0 ih =>
    unfold State.feed
    (try dsimp only)
    repeat' (first
      | with_reducible exact Touches.refl _ _
      | ((with_reducible apply Touches.stepBy 0x2001087017ee42 (ih _ _ _)); · decide)
      | ((with_reducible apply Touches.stepBy 0x20000000 (touches_State.xfmTake _ _ _)); · decide)
      | ((with_reducible apply Touches.stepBy 0x800000000 (touches_State.ltTake _ _ _)); · decide)
      | ((with_reducible apply Touches.stepBy 0x10006a42 (touches_State.ddcTake _ _ _)); · decide)
      | ((with_reducible apply Touches.stepBy 0x20000000000000 (touches_State.cmpTake _ _ _)); · decide)
      | ((with_reducible apply Touches.stepBy 0x4002e842 (touches_State.portBeat _ _ _ _)); · decide)
      | ((with_reducible apply Touches.stepBy 0x1000017ee42 (touches_State.auTake _ _ _)); · decide)
      | ((with_reducible refine Touches.foldl ?_ ?_))
      | ((intro t b); try dsimp only)
      | split
      | with_reducible refine Touches.ofSnd (by assumption) ?_
      | with_reducible refine Touches.ofFst (by assumption) ?_
      | split)

theorem touches_State.coreSamples (s : State) (n ofs fl : Nat) (raw : List (BitVec 12)) :
    Touches (mEvent ||| mCnv) s (State.coreSamples s n ofs fl raw).2 := by
  unfold State.coreSamples
  (try dsimp only)
  repeat' (first
    | with_reducible exact Touches.refl _ _
    | ((with_reducible apply Touches.stepBy 0x2006842 (touches_State.coreBeat _ _ _)); · decide)
    | split
    | with_reducible refine Touches.ofSnd (by assumption) ?_
    | with_reducible refine Touches.ofFst (by assumption) ?_)

theorem touches_State.pairBeat (s : State) (k : Nat) (a b : List (BitVec 12)) :
    Touches (mEvent ||| mFreeCtr ||| mStore ||| mCtxs ||| mBillets ||| mPorts ||| mAside ||| mBadLines ||| mCnv ||| mDdc ||| mXfm ||| mStreams ||| mLt ||| mAu ||| mCmp) s (State.pairBeat s k a b) := by
  unfold State.pairBeat
  (try dsimp only)
  repeat' (first
    | with_reducible exact Touches.refl _ _
    | ((with_reducible apply Touches.stepBy 0x2006842 (touches_State.coreSamples _ _ _ _ _)); · decide)
    | ((with_reducible apply Touches.stepBy 0x2001087017ee42 (touches_State.feed  _ _ _ _)); · decide)
    | split
    | with_reducible refine Touches.ofSnd (by assumption) ?_
    | with_reducible refine Touches.ofFst (by assumption) ?_)

theorem touches_State.beat (s : State) (c0 c1 c2 c3 : List (BitVec 12)) :
    Touches (mEvent ||| mTime ||| mFrac ||| mFreeCtr ||| mStore ||| mCtxs ||| mBillets ||| mPorts ||| mAside ||| mBadLines ||| mClk ||| mTbs ||| mTdc ||| mCnv ||| mDdc ||| mXfm ||| mStreams ||| mLt ||| mAu ||| mCmp) s (State.beat s c0 c1 c2 c3) := by
  unfold State.beat
  (try dsimp only)
  repeat' (first
    | with_reducible exact Touches.refl _ _
    | ((with_reducible apply Touches.stepBy 0x102e842 (touches_State.tdcBeat _)); · decide)
    | ((with_reducible apply Touches.stepBy 0x800182 (touches_State.dclkEdge _)); · decide)
    | ((with_reducible apply Touches.stepBy 0x200000 (touches_State.clkOutBeat _)); · decide)
    | ((with_reducible apply Touches.stepBy 0x2001087217ee42 (touches_State.pairBeat _ _ _ _)); · decide)
    | split)

theorem touches_State.replayTo (s : State) (rt : Route) (d : Nat) (r : RRec) :
    Touches (mEvent ||| mFreeCtr ||| mStore ||| mCtxs ||| mBillets ||| mPorts ||| mAside ||| mBadLines ||| mXfm ||| mLt ||| mAu ||| mReplay ||| mCmp) s (State.replayTo s rt d r) := by
  unfold State.replayTo
  (try dsimp only)
  repeat' (first
    | with_reducible exact Touches.refl _ _
    | ((with_reducible apply Touches.stepBy 0x20000000 (touches_State.xfmTake _ _ _)); · decide)
    | ((with_reducible apply Touches.stepBy 0x800000000 (touches_State.ltTake _ _ _)); · decide)
    | ((with_reducible apply Touches.stepBy 0x8000 (touches_State.loseItems _ _ _)); · decide)
    | ((with_reducible apply Touches.stepBy 0x200 (touches_State.fresh _)); · decide)
    | ((with_reducible apply Touches.stepBy 0x20000000000 (touches_State.onReplay _ _)); · decide)
    | ((with_reducible apply Touches.stepBy 0x2e842 (touches_State.sendPort _ _ _ _)); · decide)
    | ((with_reducible apply Touches.stepBy 0x20000000000000 (touches_State.cmpTake _ _ _)); · decide)
    | ((with_reducible apply Touches.stepBy 0x1000017ee42 (touches_State.auTake _ _ _)); · decide)
    | split
    | with_reducible refine Touches.ofSnd (by assumption) ?_
    | with_reducible refine Touches.ofFst (by assumption) ?_
    | (with_reducible constructor <;> first | exact fun h => absurd h (by decide) | exact fun _ => rfl | exact fun _ a _ => State.rd_congr (by rfl) a | exact fun h => h.of_eq rfl rfl rfl rfl rfl | exact FusesOnlyBurn.of_eq rfl rfl rfl rfl rfl))

theorem touches_State.replayRoute (s : State) (rt : Route) (rr : RRec) (len : Nat) :
    Touches (mEvent ||| mFreeCtr ||| mStore ||| mCtxs ||| mBillets ||| mPorts ||| mAside ||| mBadLines ||| mXfm ||| mLt ||| mAu ||| mReplay ||| mCmp) s (State.replayRoute s rt rr len) := by
  unfold State.replayRoute
  (try dsimp only)
  repeat' (first
    | with_reducible exact Touches.refl _ _
    | ((with_reducible apply Touches.stepBy 0x6842 (touches_State.raiseLim _ _ _ _ _ _ _)); · decide)
    | ((with_reducible apply Touches.stepBy 0x2 (touches_State.addSat_hi _ _ _ _ ?hi)); (case hi => first | decide | (simp only [rGRID_SQ]; omega) | (split <;> decide) | (split <;> simp only [rGRID_SQ] <;> omega)); (· decide))
    | ((with_reducible apply Touches.stepBy 0x8000 (touches_State.loseFrom _ _ _)); · decide)
    | ((with_reducible apply Touches.stepBy 0x2003082017ee42 (touches_State.replayTo _ _ _ _)); · decide)
    | ((with_reducible refine Touches.foldl ?_ ?_))
    | ((intro t b); try dsimp only)
    | split)

theorem touches_State.replaySend (s : State) (p : Nat) :
    Touches (mEvent ||| mFreeCtr ||| mStore ||| mCtxs ||| mBillets ||| mPorts ||| mAside ||| mServed ||| mBadLines ||| mXfm ||| mLt ||| mAu ||| mReplay ||| mCmp) s (State.replaySend s p) := by
  unfold State.replaySend
  (try dsimp only)
  repeat' (first
    | with_reducible exact Touches.refl _ _
    | ((with_reducible apply Touches.stepBy 0x18002 (touches_State.finishTo _ _ _ _)); · decide)
    | ((with_reducible apply Touches.stepBy 0x8000 (touches_State.deliveredTo _ _ _ _)); · decide)
    | ((with_reducible apply Touches.stepBy 0x8000 (touches_State.beginRec _ _ _ _)); · decide)
    | ((with_reducible apply Touches.stepBy 0x80000 (touches_State.hadTurn _ _ _ _ _ _)); · decide)
    | ((with_reducible apply Touches.stepBy 0x2003082017ee42 (touches_State.replayRoute _ _ _ _)); · decide)
    | ((with_reducible refine Touches.foldl ?_ ?_))
    | ((intro t b); try dsimp only)
    | split
    | with_reducible refine Touches.ofSnd (by assumption) ?_
    | with_reducible refine Touches.ofFst (by assumption) ?_)

theorem touches_State.cmpDecodeFeed (s : State) (u : Nat) :
    Touches (mEvent ||| mFreeCtr ||| mStore ||| mCtxs ||| mBillets ||| mPorts ||| mAside ||| mBadLines ||| mDdc ||| mXfm ||| mStreams ||| mLt ||| mAu ||| mReplay ||| mCmp) s (State.cmpDecodeFeed s u) := by
  unfold State.cmpDecodeFeed
  (try dsimp only)
  repeat' (first
    | with_reducible exact Touches.refl _ _
    | ((with_reducible apply Touches.stepBy 0x2000000ea42 (touches_State.cmpDecode _ _)); · decide)
    | ((with_reducible apply Touches.stepBy 0x2001087017ee42 (touches_State.feed  _ _ _ _)); · decide)
    | split
    | with_reducible refine Touches.ofSnd (by assumption) ?_
    | with_reducible refine Touches.ofFst (by assumption) ?_)

/-! ### Machine/CalCmds.lean -/

theorem touches_execCalGo (v : Word) (s : State) :
    TouchesRes (mEvent ||| mAct ||| mStaged ||| mFlash ||| mCtxs ||| mBillets ||| mCnv ||| mCal) s (execCalGo v s) := by
  unfold execCalGo
  (try dsimp only)
  repeat' (first
    | refine Touches.res ?_
    | with_reducible exact Touches.refl _ _
    | ((with_reducible apply touches_State.hostWr ?_ _ _ _ _ _ _ ?_); (· decide); intro v t; try dsimp only)
    | ((with_reducible apply Touches.stepBy 0xa01f846 (touches_State.wrCalRun _ _)); · decide)
    | ((intro t b); try dsimp only))

theorem touches_execCalAbort (v : Word) (s : State) :
    TouchesRes (mEvent ||| mAct ||| mStaged ||| mFlash ||| mCtxs ||| mBillets ||| mCnv ||| mCal) s (execCalAbort v s) := by
  unfold execCalAbort
  (try dsimp only)
  repeat' (first
    | refine Touches.res ?_
    | with_reducible exact Touches.refl _ _
    | ((with_reducible apply touches_State.hostWr ?_ _ _ _ _ _ _ ?_); (· decide); intro v t; try dsimp only)
    | ((with_reducible apply Touches.stepBy 0xa01f846 (touches_State.wrCalRun _ _)); · decide)
    | ((intro t b); try dsimp only))

theorem touches_execCalStoreStart (v : Word) (s : State) :
    TouchesRes (mEvent ||| mAct ||| mStaged ||| mFlash ||| mCtxs ||| mBillets ||| mCnv ||| mCal) s (execCalStoreStart v s) := by
  unfold execCalStoreStart
  (try dsimp only)
  repeat' (first
    | refine Touches.res ?_
    | with_reducible exact Touches.refl _ _
    | ((with_reducible apply touches_State.hostWr ?_ _ _ _ _ _ _ ?_); (· decide); intro v t; try dsimp only)
    | ((with_reducible apply Touches.stepBy 0xa01f846 (touches_State.wrCalRun _ _)); · decide)
    | ((intro t b); try dsimp only))

theorem touches_execCalPhaseEnd (m : CalMeas) (s : State) :
    TouchesRes (mEvent ||| mAct ||| mFlash ||| mCtxs ||| mBillets ||| mCnv ||| mCal) s (execCalPhaseEnd m s) := by
  unfold execCalPhaseEnd
  (try dsimp only)
  repeat' (first
    | refine Touches.res ?_
    | with_reducible exact Touches.refl _ _
    | ((with_reducible apply touches_State.live _ _ ?_); intro t; try dsimp only)
    | ((with_reducible apply Touches.stepBy 0xa01f846 (touches_State.calPhaseEnd _ _)); · decide)
    | ((intro t b); try dsimp only))

theorem touches_execCalAgeDue (n : Fin 4) (s : State) :
    TouchesRes (mEvent ||| mTime) s (execCalAgeDue n s) := by
  unfold execCalAgeDue
  (try dsimp only)
  repeat' (first
    | refine Touches.res ?_
    | with_reducible exact Touches.refl _ _
    | ((with_reducible apply touches_State.live _ _ ?_); intro t; try dsimp only)
    | ((with_reducible apply Touches.stepBy 0x68c2 (touches_State.calDueAge _ _)); · decide)
    | ((intro t b); try dsimp only))

theorem touches_execCalAutoStart (s : State) :
    TouchesRes (mEvent ||| mCal) s (execCalAutoStart s) := by
  unfold execCalAutoStart
  (try dsimp only)
  repeat' (first
    | refine Touches.res ?_
    | with_reducible exact Touches.refl _ _
    | ((with_reducible apply touches_State.live _ _ ?_); intro t; try dsimp only)
    | ((with_reducible apply Touches.stepBy 0x8006842 (touches_State.calAuto _)); · decide)
    | ((intro t b); try dsimp only))

theorem touches_execCalRetryExpiry (n : Fin 4) (s : State) :
    TouchesRes (mTime ||| mCal) s (execCalRetryExpiry n s) := by
  unfold execCalRetryExpiry
  (try dsimp only)
  repeat' (first
    | refine Touches.res ?_
    | with_reducible exact Touches.refl _ _
    | ((with_reducible apply touches_State.live _ _ ?_); intro t; try dsimp only)
    | ((with_reducible apply Touches.stepBy 0x8000080 (touches_State.calRetryEnd _ _)); · decide)
    | ((intro t b); try dsimp only))

theorem touches_execStoreWriteEnd (ok : Bool) (s : State) :
    TouchesRes (mEvent ||| mFreeCtr ||| mFlash ||| mCal ||| mStk) s (execStoreWriteEnd ok s) := by
  unfold execStoreWriteEnd
  (try dsimp only)
  repeat' (first
    | refine Touches.res ?_
    | with_reducible exact Touches.refl _ _
    | ((with_reducible apply Touches.stepBy 0x10000008007a42 (touches_State.calStoreEnd _ _)); · decide)
    | ((with_reducible apply touches_State.live _ _ ?_); intro t; try dsimp only)
    | ((intro t b); try dsimp only))

/-! ### Machine/ClkCmds.lean -/

theorem touches_execRefLoss (integ : Int) (s : State) :
    TouchesRes (mEvent ||| mClk ||| mGlb) s (execRefLoss integ s) := by
  unfold execRefLoss
  (try dsimp only)
  repeat' (first
    | refine Touches.res ?_
    | with_reducible exact Touches.refl _ _
    | ((with_reducible apply touches_State.live _ _ ?_); intro t; try dsimp only)
    | ((with_reducible apply Touches.stepBy 0x80000000206842 (touches_State.refLoss _ _)); · decide)
    | ((intro t b); try dsimp only))

theorem touches_execRefRestored (s : State) :
    TouchesRes mEvent s (execRefRestored s) := by
  unfold execRefRestored
  (try dsimp only)
  repeat' (first
    | refine Touches.res ?_
    | with_reducible exact Touches.refl _ _
    | ((with_reducible apply touches_State.live _ _ ?_); intro t; try dsimp only)
    | ((with_reducible apply Touches.stepBy 0x6842 (touches_State.refRestored _)); · decide)
    | ((intro t b); try dsimp only))

theorem touches_execMpllLockDeclared (s : State) :
    TouchesRes (mEvent ||| mClk ||| mTdc ||| mAu ||| mGlb) s (execMpllLockDeclared s) := by
  unfold execMpllLockDeclared
  (try dsimp only)
  repeat' (first
    | refine Touches.res ?_
    | with_reducible exact Touches.refl _ _
    | ((with_reducible apply touches_State.live _ _ ?_); intro t; try dsimp only)
    | ((with_reducible apply Touches.stepBy 0x80010001206842 (touches_State.mpllLocked _)); · decide)
    | ((intro t b); try dsimp only))

theorem touches_execMpllLol (integ : Int) (s : State) :
    TouchesRes (mEvent ||| mClk ||| mGlb) s (execMpllLol integ s) := by
  unfold execMpllLol
  (try dsimp only)
  repeat' (first
    | refine Touches.res ?_
    | with_reducible exact Touches.refl _ _
    | ((with_reducible apply touches_State.live _ _ ?_); intro t; try dsimp only)
    | ((with_reducible apply Touches.stepBy 0x80000000206842 (touches_State.mpllLol _ _)); · decide)
    | ((intro t b); try dsimp only))

theorem touches_execMpllFreqGate (err : Int) (s : State) :
    TouchesRes mClk s (execMpllFreqGate err s) := by
  unfold execMpllFreqGate
  (try dsimp only)
  repeat' (first
    | refine Touches.res ?_
    | with_reducible exact Touches.refl _ _
    | ((with_reducible apply touches_State.live _ _ ?_); intro t; try dsimp only)
    | ((with_reducible apply Touches.stepBy 0x200000 (touches_State.freqGate _ _)); · decide)
    | ((intro t b); try dsimp only))

theorem touches_execHoldoverUpdate (meas : Nat) (s : State) :
    TouchesRes (mEvent ||| mFreeCtr ||| mClk) s (execHoldoverUpdate meas s) := by
  unfold execHoldoverUpdate
  (try dsimp only)
  repeat' (first
    | refine Touches.res ?_
    | with_reducible exact Touches.refl _ _
    | ((with_reducible apply touches_State.live _ _ ?_); intro t; try dsimp only)
    | ((with_reducible apply Touches.stepBy 0x206a42 (touches_State.holdoverUpdate _ _)); · decide)
    | ((intro t b); try dsimp only))

theorem touches_execLpllHoldover (s : State) :
    TouchesRes (mEvent ||| mGlb) s (execLpllHoldover s) := by
  unfold execLpllHoldover
  (try dsimp only)
  repeat' (first
    | refine Touches.res ?_
    | with_reducible exact Touches.refl _ _
    | ((with_reducible apply touches_State.live _ _ ?_); intro t; try dsimp only)
    | ((with_reducible apply Touches.stepBy 0x80000000006842 (touches_State.lpllHoldover _)); · decide)
    | ((intro t b); try dsimp only))

theorem touches_execLpllRelocked (s : State) :
    TouchesRes (mEvent ||| mGlb) s (execLpllRelocked s) := by
  unfold execLpllRelocked
  (try dsimp only)
  repeat' (first
    | refine Touches.res ?_
    | with_reducible exact Touches.refl _ _
    | ((with_reducible apply touches_State.live _ _ ?_); intro t; try dsimp only)
    | ((with_reducible apply Touches.stepBy 0x80000000006842 (touches_State.lpllRelocked _)); · decide)
    | ((intro t b); try dsimp only))

theorem touches_execRetune (v : Word) (s : State) :
    TouchesRes (mEvent ||| mAct ||| mStaged ||| mCtxs ||| mBillets ||| mClk ||| mTbs ||| mCnv ||| mPg ||| mCal ||| mGlb) s (execRetune v s) := by
  unfold execRetune
  (try dsimp only)
  repeat' (first
    | refine Touches.res ?_
    | with_reducible exact Touches.refl _ _
    | ((with_reducible apply touches_State.hostWr ?_ _ _ _ _ _ _ ?_); (· decide); intro v t; try dsimp only)
    | ((with_reducible apply Touches.stepBy 0x8000000ea1e846 (touches_State.wrClkCmd _ _)); · decide)
    | ((intro t b); try dsimp only))

theorem touches_execRetuneSettleDone (fs : Nat) (s : State) :
    TouchesRes (mEvent ||| mTime ||| mFrac ||| mFreeCtr ||| mStore ||| mCtxs ||| mBillets ||| mPorts ||| mAside ||| mBadLines ||| mClk ||| mTbs ||| mTdc ||| mCnv ||| mPg ||| mDdc ||| mXfm ||| mStreams ||| mDet ||| mDen ||| mTq ||| mBus ||| mDecs ||| mAu ||| mNet ||| mAve ||| mCmp ||| mGlb) s (execRetuneSettleDone fs s) := by
  unfold execRetuneSettleDone
  (try dsimp only)
  repeat' (first
    | refine Touches.res ?_
    | with_reducible exact Touches.refl _ _
    | ((with_reducible apply touches_State.live _ _ ?_); intro t; try dsimp only)
    | ((with_reducible apply Touches.stepBy 0xa031a777b7efc2 (touches_State.settleDone _ _)); · decide)
    | ((intro t b); try dsimp only))

theorem touches_execRetuneTimeout (s : State) :
    TouchesRes (mEvent ||| mClk) s (execRetuneTimeout s) := by
  unfold execRetuneTimeout
  (try dsimp only)
  repeat' (first
    | refine Touches.res ?_
    | with_reducible exact Touches.refl _ _
    | ((with_reducible apply touches_State.live _ _ ?_); intro t; try dsimp only)
    | ((with_reducible apply Touches.stepBy 0x206842 (touches_State.retuneTimeout _)); · decide)
    | ((intro t b); try dsimp only))

theorem touches_execHeldRetry (s : State) :
    TouchesRes mClk s (execHeldRetry s) := by
  unfold execHeldRetry
  (try dsimp only)
  repeat' (first
    | refine Touches.res ?_
    | with_reducible exact Touches.refl _ _
    | ((with_reducible apply touches_State.live _ _ ?_); intro t; try dsimp only)
    | ((with_reducible apply Touches.stepBy 0x200000 (touches_State.heldRetry _)); · decide)
    | ((intro t b); try dsimp only))

theorem touches_execSyncArm (v : Word) (s : State) :
    TouchesRes (mRegs ||| mStaged) s (execSyncArm v s) := by
  unfold execSyncArm
  (try dsimp only)
  repeat' (first
    | refine Touches.res ?_
    | with_reducible exact Touches.refl _ _
    | ((with_reducible apply touches_State.hostWr ?_ _ _ _ _ _ _ ?_); (· decide); intro v t; try dsimp only)
    | ((with_reducible apply Touches.stepBy 0x2 (touches_State.wrClkSync _ _)); · decide)
    | ((intro t b); try dsimp only))

theorem touches_execSyncinEdge (same : Bool) (s : State) :
    TouchesRes (mEvent ||| mClk) s (execSyncinEdge same s) := by
  unfold execSyncinEdge
  (try dsimp only)
  repeat' (first
    | refine Touches.res ?_
    | with_reducible exact Touches.refl _ _
    | ((with_reducible apply touches_State.live _ _ ?_); intro t; try dsimp only)
    | ((with_reducible apply Touches.stepBy 0x206842 (touches_State.syncinEdge _ _)); · decide)
    | ((intro t b); try dsimp only))

/-! ### Machine/CnvCmds.lean -/

theorem touches_execAttGo (n : Fin 4) (v : Word) (s : State) :
    TouchesRes (mRegs ||| mStaged) s (execAttGo n v s) := by
  unfold execAttGo
  (try dsimp only)
  repeat' (first
    | refine Touches.res ?_
    | with_reducible exact Touches.refl _ _
    | ((with_reducible apply touches_State.hostWr ?_ _ _ _ _ _ _ ?_); (· decide); intro v t; try dsimp only)
    | ((with_reducible apply Touches.stepBy 0x2 (touches_State.wrAtt _ _ _)); · decide)
    | ((intro t b); try dsimp only))

theorem touches_execAttApply (n : Fin 4) (s : State) :
    TouchesRes (mRegs ||| mAct ||| mTime ||| mCnv ||| mCal) s (execAttApply n s) := by
  unfold execAttApply
  (try dsimp only)
  repeat' (first
    | refine Touches.res ?_
    | with_reducible exact Touches.refl _ _
    | ((with_reducible apply touches_State.live _ _ ?_); intro t; try dsimp only)
    | ((with_reducible apply touches_State.clocked _ _ ?_); intro t; try dsimp only)
    | ((with_reducible apply Touches.stepBy 0xa000086 (touches_State.attApply _ _)); · decide)
    | ((intro t b); try dsimp only))

theorem touches_execChcorrWrite (n : Fin 4) (v : Word) (s : State) :
    TouchesRes (mRegs ||| mStaged ||| mCnv) s (execChcorrWrite n v s) := by
  unfold execChcorrWrite
  (try dsimp only)
  repeat' (first
    | refine Touches.res ?_
    | with_reducible exact Touches.refl _ _
    | ((with_reducible apply touches_State.hostWr ?_ _ _ _ _ _ _ ?_); (· decide); intro v t; try dsimp only)
    | ((with_reducible apply Touches.stepBy 0x2000002 (touches_State.wrChcorr _ _ _)); · decide)
    | ((intro t b); try dsimp only))

theorem touches_execSliceWrite (n : Fin 4) (k : Fin 17) (v : Word) (s : State) :
    TouchesRes (mRegs ||| mStaged) s (execSliceWrite n k v s) := by
  unfold execSliceWrite
  (try dsimp only)
  repeat' (first
    | refine Touches.res ?_
    | with_reducible exact Touches.refl _ _
    | ((with_reducible apply touches_State.hostWr ?_ _ _ _ _ _ _ ?_); (· decide); intro v t; try dsimp only)
    | ((with_reducible apply Touches.stepBy 0x2 (touches_State.wrSlice _ _ _ _)); · decide)
    | ((intro t b); try dsimp only))

theorem touches_execBgEnWrite (n : Fin 4) (v : Word) (s : State) :
    TouchesRes (mEvent ||| mStaged ||| mCtxs ||| mBillets ||| mCnv ||| mCal) s (execBgEnWrite n v s) := by
  unfold execBgEnWrite
  (try dsimp only)
  repeat' (first
    | refine Touches.res ?_
    | with_reducible exact Touches.refl _ _
    | ((with_reducible apply touches_State.hostWr ?_ _ _ _ _ _ _ ?_); (· decide); intro v t; try dsimp only)
    | ((with_reducible apply Touches.stepBy 0xa01e842 (touches_State.wrBg _ _ _)); · decide)
    | ((intro t b); try dsimp only))

theorem touches_execBgSettleEnd (n : Fin 4) (s : State) :
    TouchesRes (mRegs ||| mCtxs ||| mBillets ||| mCnv) s (execBgSettleEnd n s) := by
  unfold execBgSettleEnd
  (try dsimp only)
  repeat' (first
    | refine Touches.res ?_
    | with_reducible exact Touches.refl _ _
    | ((with_reducible apply touches_State.live _ _ ?_); intro t; try dsimp only)
    | ((with_reducible apply Touches.stepBy 0x2018002 (touches_State.bgSettleEnd _ _)); · decide)
    | ((intro t b); try dsimp only))

theorem touches_execBgShadowEnd (n : Fin 4) (w : BgShadow) (s : State) :
    TouchesRes (mEvent ||| mFreeCtr ||| mCtxs ||| mBillets ||| mCnv ||| mCal) s (execBgShadowEnd n w s) := by
  unfold execBgShadowEnd
  (try dsimp only)
  repeat' (first
    | refine Touches.res ?_
    | with_reducible exact Touches.refl _ _
    | ((with_reducible apply touches_State.live _ _ ?_); intro t; try dsimp only)
    | ((with_reducible apply Touches.stepBy 0x2006a42 (touches_State.bgShadowEnd _ _ _ _)); · decide)
    | ((with_reducible apply Touches.stepBy 0x8018002 (touches_State.storeStep _ _ _)); · decide)
    | ((intro t b); try dsimp only))

theorem touches_execBgWindowEnd (n : Fin 4) (w : BgWindow) (s : State) :
    TouchesRes (mEvent ||| mFreeCtr ||| mCtxs ||| mBillets ||| mCnv ||| mCal) s (execBgWindowEnd n w s) := by
  unfold execBgWindowEnd
  (try dsimp only)
  repeat' (first
    | refine Touches.res ?_
    | with_reducible exact Touches.refl _ _
    | ((with_reducible apply touches_State.live _ _ ?_); intro t; try dsimp only)
    | ((with_reducible apply Touches.stepBy 0x2006a42 (touches_State.bgWindowEnd _ _ _)); · decide)
    | ((with_reducible apply Touches.stepBy 0x8018002 (touches_State.storeStep _ _ _)); · decide)
    | ((intro t b); try dsimp only))

theorem touches_execBgIntervalEnd (n : Fin 4) (s : State) :
    TouchesRes (mEvent ||| mCtxs ||| mBillets ||| mCnv ||| mCal) s (execBgIntervalEnd n s) := by
  unfold execBgIntervalEnd
  (try dsimp only)
  repeat' (first
    | refine Touches.res ?_
    | with_reducible exact Touches.refl _ _
    | ((with_reducible apply touches_State.live _ _ ?_); intro t; try dsimp only)
    | ((with_reducible apply Touches.stepBy 0x201e842 (touches_State.bgIntervalEnd _ _)); · decide)
    | ((with_reducible apply Touches.stepBy 0x8018002 (touches_State.storeStep _ _ _)); · decide)
    | ((intro t b); try dsimp only))

/-! ### Machine/DdcCmds.lean -/

theorem touches_execDdcSwapGo (u : Fin 20) (v : Word) (s : State) :
    TouchesRes (mEvent ||| mStaged ||| mDdc) s (execDdcSwapGo u v s) := by
  unfold execDdcSwapGo
  (try dsimp only)
  repeat' (first
    | refine Touches.res ?_
    | with_reducible exact Touches.refl _ _
    | ((with_reducible apply touches_State.hostWr ?_ _ _ _ _ _ _ ?_); (· decide); intro v t; try dsimp only)
    | ((with_reducible apply Touches.stepBy 0x10006842 (touches_State.wrDdcSwap _ _ _)); · decide)
    | ((intro t b); try dsimp only))

theorem touches_execDdcSwapCancel (u : Fin 20) (v : Word) (s : State) :
    TouchesRes (mEvent ||| mStaged ||| mDdc) s (execDdcSwapCancel u v s) := by
  unfold execDdcSwapCancel
  (try dsimp only)
  repeat' (first
    | refine Touches.res ?_
    | with_reducible exact Touches.refl _ _
    | ((with_reducible apply touches_State.hostWr ?_ _ _ _ _ _ _ ?_); (· decide); intro v t; try dsimp only)
    | ((with_reducible apply Touches.stepBy 0x10006842 (touches_State.wrDdcSwap _ _ _)); · decide)
    | ((intro t b); try dsimp only))

theorem touches_execDdcSwapCommit (u : Fin 20) (s : State) :
    TouchesRes (mTime ||| mDdc) s (execDdcSwapCommit u s) := by
  unfold execDdcSwapCommit
  (try dsimp only)
  repeat' (first
    | refine Touches.res ?_
    | with_reducible exact Touches.refl _ _
    | ((with_reducible apply touches_State.live _ _ ?_); intro t; try dsimp only)
    | ((with_reducible apply touches_State.clocked _ _ ?_); intro t; try dsimp only)
    | ((with_reducible apply Touches.stepBy 0x10000080 (touches_State.ddcSwapCommit _ _)); · decide)
    | ((intro t b); try dsimp only))

theorem touches_execDdcSwapDone (u : Fin 20) (s : State) :
    TouchesRes (mEvent ||| mDdc) s (execDdcSwapDone u s) := by
  unfold execDdcSwapDone
  (try dsimp only)
  repeat' (first
    | refine Touches.res ?_
    | with_reducible exact Touches.refl _ _
    | ((with_reducible apply touches_State.live _ _ ?_); intro t; try dsimp only)
    | ((with_reducible apply touches_State.clocked _ _ ?_); intro t; try dsimp only)
    | ((with_reducible apply Touches.stepBy 0x10006842 (touches_State.ddcSwapDone _ _)); · decide)
    | ((intro t b); try dsimp only))

theorem touches_execDdcCoefWrite (u : Fin 20) (k : Fin 12) (b : Fin 2) (r : Fin 9) (v : Word) (s : State) :
    TouchesRes (mEvent ||| mStaged) s (execDdcCoefWrite u k b r v s) := by
  unfold execDdcCoefWrite
  (try dsimp only)
  repeat' (first
    | refine Touches.res ?_
    | with_reducible exact Touches.refl _ _
    | ((with_reducible apply touches_State.hostWr ?_ _ _ _ _ _ _ ?_); (· decide); intro v t; try dsimp only)
    | ((with_reducible apply Touches.stepBy 0x6842 (touches_State.wrDdcCoefR _ _ _ _ _ _)); · decide)
    | ((with_reducible apply Touches.stepBy 0x6842 (touches_State.wrDdcCoef0 _ _ _ _ _)); · decide)
    | ((intro t b); try dsimp only)
    | split)

theorem touches_execDdcNcoRstArm (u : Fin 20) (v : Word) (s : State) :
    TouchesRes (mRegs ||| mStaged) s (execDdcNcoRstArm u v s) := by
  unfold execDdcNcoRstArm
  (try dsimp only)
  repeat' (first
    | refine Touches.res ?_
    | with_reducible exact Touches.refl _ _
    | ((with_reducible apply touches_State.hostWr ?_ _ _ _ _ _ _ ?_); (· decide); intro v t; try dsimp only)
    | ((with_reducible apply Touches.stepBy 0x2 (touches_State.wrDdcCtrl _ _ _)); · decide)
    | ((intro t b); try dsimp only))

theorem touches_execTabLoad (n : Fin 4) (v : Word) (s : State) :
    TouchesRes (mEvent ||| mStaged ||| mXfm) s (execTabLoad n v s) := by
  unfold execTabLoad
  (try dsimp only)
  repeat' (first
    | refine Touches.res ?_
    | with_reducible exact Touches.refl _ _
    | ((with_reducible apply Touches.stepBy 0x20006842 (touches_State.wrTabCtrl _ _ _)); · decide)
    | ((with_reducible apply touches_State.hostWr ?_ _ _ _ _ _ _ ?_); (· decide); intro v t; try dsimp only)
    | ((intro t b); try dsimp only))

theorem touches_execTabLoadEnd (n : Fin 4) (ws : Option (List (BitVec 32))) (s : State) :
    TouchesRes (mEvent ||| mXfm) s (execTabLoadEnd n ws s) := by
  unfold execTabLoadEnd
  (try dsimp only)
  repeat' (first
    | refine Touches.res ?_
    | with_reducible exact Touches.refl _ _
    | ((with_reducible apply Touches.stepBy 0x20006842 (touches_State.tabLoadEnd _ _ _)); · decide)
    | ((with_reducible apply touches_State.live _ _ ?_); intro t; try dsimp only)
    | ((intro t b); try dsimp only))

theorem touches_execTabSwapGo (n : Fin 4) (v : Word) (s : State) :
    TouchesRes (mEvent ||| mStaged ||| mXfm) s (execTabSwapGo n v s) := by
  unfold execTabSwapGo
  (try dsimp only)
  repeat' (first
    | refine Touches.res ?_
    | with_reducible exact Touches.refl _ _
    | ((with_reducible apply Touches.stepBy 0x20006842 (touches_State.wrTabCtrl _ _ _)); · decide)
    | ((with_reducible apply touches_State.hostWr ?_ _ _ _ _ _ _ ?_); (· decide); intro v t; try dsimp only)
    | ((intro t b); try dsimp only))

theorem touches_execTabSwapCancel (n : Fin 4) (v : Word) (s : State) :
    TouchesRes (mEvent ||| mStaged ||| mXfm) s (execTabSwapCancel n v s) := by
  unfold execTabSwapCancel
  (try dsimp only)
  repeat' (first
    | refine Touches.res ?_
    | with_reducible exact Touches.refl _ _
    | ((with_reducible apply Touches.stepBy 0x20006842 (touches_State.wrTabCtrl _ _ _)); · decide)
    | ((with_reducible apply touches_State.hostWr ?_ _ _ _ _ _ _ ?_); (· decide); intro v t; try dsimp only)
    | ((intro t b); try dsimp only))

theorem touches_execTabSwapCommit (n : Fin 4) (s : State) :
    TouchesRes (mEvent ||| mXfm) s (execTabSwapCommit n s) := by
  unfold execTabSwapCommit
  (try dsimp only)
  repeat' (first
    | refine Touches.res ?_
    | with_reducible exact Touches.refl _ _
    | ((with_reducible apply Touches.stepBy 0x20006842 (touches_State.tabSwapCommit _ _)); · decide)
    | ((with_reducible apply touches_State.live _ _ ?_); intro t; try dsimp only)
    | ((with_reducible apply touches_State.clocked _ _ ?_); intro t; try dsimp only)
    | ((intro t b); try dsimp only))

theorem touches_execXfmCtrlWrite (n : Fin 4) (v : Word) (s : State) :
    TouchesRes (mRegs ||| mStaged) s (execXfmCtrlWrite n v s) := by
  unfold execXfmCtrlWrite
  (try dsimp only)
  repeat' (first
    | refine Touches.res ?_
    | with_reducible exact Touches.refl _ _
    | ((with_reducible apply Touches.stepBy 0x2 (touches_State.wrXfmCtrl _ _ _)); · decide)
    | ((with_reducible apply touches_State.hostWr ?_ _ _ _ _ _ _ ?_); (· decide); intro v t; try dsimp only)
    | ((intro t b); try dsimp only))

theorem touches_execXfmFrame (n : Fin 4) (s : State) :
    TouchesRes (mEvent ||| mFreeCtr ||| mCtxs ||| mPorts ||| mXfm ||| mFrames) s (execXfmFrame n s) := by
  unfold execXfmFrame
  (try dsimp only)
  repeat' (first
    | refine Touches.res ?_
    | with_reducible exact Touches.refl _ _
    | ((with_reducible apply Touches.stepBy 0xa002ea42 (touches_State.xfmFrame _ _)); · decide)
    | ((with_reducible apply touches_State.live _ _ ?_); intro t; try dsimp only)
    | ((with_reducible apply touches_State.clocked _ _ ?_); intro t; try dsimp only)
    | ((intro t b); try dsimp only))

theorem touches_execDetFrame (n : Fin 4) (s : State) :
    TouchesRes (mEvent ||| mFreeCtr ||| mCtxs ||| mPorts ||| mFrames ||| mDet) s (execDetFrame n s) := by
  unfold execDetFrame
  (try dsimp only)
  repeat' (first
    | refine Touches.res ?_
    | with_reducible exact Touches.refl _ _
    | ((with_reducible apply touches_State.live _ _ ?_); intro t; try dsimp only)
    | ((with_reducible apply touches_State.clocked _ _ ?_); intro t; try dsimp only)
    | ((with_reducible apply Touches.stepBy 0x18002ea42 (touches_State.detFrame _ _)); · decide)
    | ((intro t b); try dsimp only))

theorem touches_execDetReadoutDone (n : Fin 4) (s : State) :
    TouchesRes mDet s (execDetReadoutDone n s) := by
  unfold execDetReadoutDone
  (try dsimp only)
  repeat' (first
    | refine Touches.res ?_
    | with_reducible exact Touches.refl _ _
    | ((with_reducible apply touches_State.live _ _ ?_); intro t; try dsimp only)
    | ((with_reducible apply touches_State.clocked _ _ ?_); intro t; try dsimp only)
    | ((with_reducible apply Touches.stepBy 0x100000000 (touches_State.detReadoutDone _ _)); · decide)
    | ((intro t b); try dsimp only))

theorem touches_execDetWrite (n : Fin 4) (reg : Fin 3) (v : Word) (s : State) :
    TouchesRes (mEvent ||| mStaged) s (execDetWrite n reg v s) := by
  unfold execDetWrite
  (try dsimp only)
  repeat' (first
    | refine Touches.res ?_
    | with_reducible exact Touches.refl _ _
    | ((with_reducible apply touches_State.hostWr ?_ _ _ _ _ _ _ ?_); (· decide); intro v t; try dsimp only)
    | ((with_reducible apply Touches.stepBy 0x2 (touches_State.wrDetAlign _ _ _)); · decide)
    | ((with_reducible apply Touches.stepBy 0x6842 (touches_State.wrDetInt _ _ _)); · decide)
    | ((with_reducible apply Touches.stepBy 0x6842 (touches_State.wrDetCtrl _ _ _)); · decide)
    | ((intro t b); try dsimp only)
    | split
    | with_reducible refine Touches.ofSnd (by assumption) ?_
    | with_reducible refine Touches.ofFst (by assumption) ?_)

theorem touches_execDenFrame (n : Fin 4) (s : State) :
    TouchesRes (mEvent ||| mFreeCtr ||| mCtxs ||| mPorts ||| mFrames ||| mDen) s (execDenFrame n s) := by
  unfold execDenFrame
  (try dsimp only)
  repeat' (first
    | refine Touches.res ?_
    | with_reducible exact Touches.refl _ _
    | ((with_reducible apply touches_State.live _ _ ?_); intro t; try dsimp only)
    | ((with_reducible apply touches_State.clocked _ _ ?_); intro t; try dsimp only)
    | ((with_reducible apply Touches.stepBy 0x28002ea42 (touches_State.denFrame _ _)); · decide)
    | ((intro t b); try dsimp only))

theorem touches_execDenReadoutDone (n : Fin 4) (s : State) :
    TouchesRes mDen s (execDenReadoutDone n s) := by
  unfold execDenReadoutDone
  (try dsimp only)
  repeat' (first
    | refine Touches.res ?_
    | with_reducible exact Touches.refl _ _
    | ((with_reducible apply touches_State.live _ _ ?_); intro t; try dsimp only)
    | ((with_reducible apply touches_State.clocked _ _ ?_); intro t; try dsimp only)
    | ((with_reducible apply Touches.stepBy 0x200000000 (touches_State.denReadoutDone _ _)); · decide)
    | ((intro t b); try dsimp only))

theorem touches_execDenWrite (n : Fin 4) (reg : Fin 3) (v : Word) (s : State) :
    TouchesRes (mEvent ||| mStaged) s (execDenWrite n reg v s) := by
  unfold execDenWrite
  (try dsimp only)
  repeat' (first
    | refine Touches.res ?_
    | with_reducible exact Touches.refl _ _
    | ((with_reducible apply touches_State.hostWr ?_ _ _ _ _ _ _ ?_); (· decide); intro v t; try dsimp only)
    | ((with_reducible apply Touches.stepBy 0x2 (touches_State.wrDenAlign _ _ _)); · decide)
    | ((with_reducible apply Touches.stepBy 0x6842 (touches_State.wrDenInt _ _ _)); · decide)
    | ((with_reducible apply Touches.stepBy 0x6842 (touches_State.wrDenCtrl _ _ _)); · decide)
    | ((intro t b); try dsimp only)
    | split
    | with_reducible refine Touches.ofSnd (by assumption) ?_
    | with_reducible refine Touches.ofFst (by assumption) ?_)

/-! ### Machine/DisCmds.lean -/

theorem touches_execDisHpd (n : Fin 2) (sink : Option (Nat × Nat)) (ok : Bool) (s : State) :
    TouchesRes (mEvent ||| mDis) s (execDisHpd n sink ok s) := by
  unfold execDisHpd
  (try dsimp only)
  repeat' (first
    | refine Touches.res ?_
    | with_reducible exact Touches.refl _ _
    | ((with_reducible apply touches_State.live _ _ ?_); intro t; try dsimp only)
    | ((with_reducible apply Touches.stepBy 0x800000006842 (touches_State.hpd _ _ _ _)); · decide)
    | ((intro t b); try dsimp only))

theorem touches_execDisCommit (n : Fin 2) (v : Word) (s : State) :
    TouchesRes (mRegs ||| mStaged) s (execDisCommit n v s) := by
  unfold execDisCommit
  (try dsimp only)
  repeat' (first
    | refine Touches.res ?_
    | with_reducible exact Touches.refl _ _
    | ((with_reducible apply touches_State.hostWr ?_ _ _ _ _ _ _ ?_); (· decide); intro v t; try dsimp only)
    | ((with_reducible apply Touches.stepBy 0x2 (touches_State.wrDisCtrl _ _ _)); · decide)
    | ((intro t b); try dsimp only))

theorem touches_execDisFrameStart (n : Fin 2) (s : State) :
    TouchesRes (mEvent ||| mAct ||| mCtxs ||| mBillets ||| mDis ||| mLayers) s (execDisFrameStart n s) := by
  unfold execDisFrameStart
  (try dsimp only)
  repeat' (first
    | refine Touches.res ?_
    | with_reducible exact Touches.refl _ _
    | ((with_reducible apply touches_State.live _ _ ?_); intro t; try dsimp only)
    | ((with_reducible apply Touches.stepBy 0x180000001e846 (touches_State.frameStart _ _)); · decide)
    | ((intro t b); try dsimp only))

theorem touches_execDisClockStable (n : Fin 2) (ok : Bool) (s : State) :
    TouchesRes (mEvent ||| mDis) s (execDisClockStable n ok s) := by
  unfold execDisClockStable
  (try dsimp only)
  repeat' (first
    | refine Touches.res ?_
    | with_reducible exact Touches.refl _ _
    | ((with_reducible apply touches_State.live _ _ ?_); intro t; try dsimp only)
    | ((with_reducible apply Touches.stepBy 0x800000006842 (touches_State.pixStable _ _ _)); · decide)
    | ((intro t b); try dsimp only))

theorem touches_execDisLayerRecord (n l : Fin 2) (s : State) :
    TouchesRes (mEvent ||| mCtxs ||| mBillets ||| mLayers) s (execDisLayerRecord n l s) := by
  unfold execDisLayerRecord
  (try dsimp only)
  repeat' (first
    | refine Touches.res ?_
    | with_reducible exact Touches.refl _ _
    | ((with_reducible apply touches_State.live _ _ ?_); intro t; try dsimp only)
    | ((with_reducible apply Touches.stepBy 0x100000001e842 (touches_State.layerTake _ _ _)); · decide)
    | ((intro t b); try dsimp only))

theorem touches_execDisAuxGo (n : Fin 2) (v : Word) (reply : AuxReply) (s : State) :
    TouchesRes (mRegs ||| mStaged ||| mOuts) s (execDisAuxGo n v reply s) := by
  unfold execDisAuxGo
  (try dsimp only)
  repeat' (first
    | refine Touches.res ?_
    | with_reducible exact Touches.refl _ _
    | ((with_reducible apply touches_State.hostWr ?_ _ _ _ _ _ _ ?_); (· decide); intro v t; try dsimp only)
    | ((with_reducible apply Touches.stepBy 0x42 (touches_State.wrDisAux _ _ _ _)); · decide)
    | ((intro t b); try dsimp only))

theorem touches_execDisPalWrite (n b : Fin 2) (i : Fin 1024) (v : Word) (s : State) :
    TouchesRes (mRegs ||| mStaged) s (execDisPalWrite n b i v s) := by
  unfold execDisPalWrite
  (try dsimp only)
  repeat' (first
    | refine Touches.res ?_
    | with_reducible exact Touches.refl _ _
    | ((with_reducible apply touches_State.hostWr ?_ _ _ _ _ _ _ ?_); (· decide); intro v t; try dsimp only)
    | ((with_reducible apply Touches.stepBy 0x2 (touches_State.wrDisPal _ _ _ _ _)); · decide)
    | ((intro t b); try dsimp only))

theorem touches_execScanoutLine (n : Fin 2) (y den ovl : Fin 65536) (s : State) :
    TouchesRes mEvent s (execScanoutLine n y den ovl s) := by
  unfold execScanoutLine
  (try dsimp only)
  repeat' (first
    | refine Touches.res ?_
    | with_reducible exact Touches.refl _ _
    | ((with_reducible apply touches_State.live _ _ ?_); intro t; try dsimp only)
    | ((with_reducible apply Touches.stepBy 0x6842 (touches_State.scanLine _ _ _ _ _)); · decide)
    | ((intro t b); try dsimp only))

/-! ### Machine/DmaCmds.lean -/

theorem touches_execDmaStart (c : Fin 128) (v : Word) (s : State) :
    TouchesRes (mEvent ||| mStaged ||| mCtxs ||| mBillets ||| mPorts ||| mDma) s (execDmaStart c v s) := by
  unfold execDmaStart
  (try dsimp only)
  repeat' (first
    | refine Touches.res ?_
    | with_reducible exact Touches.refl _ _
    | ((with_reducible apply touches_State.hostWr ?_ _ _ _ _ _ _ ?_); (· decide); intro v t; try dsimp only)
    | ((with_reducible apply Touches.stepBy 0x400000003e842 (touches_State.wrDmaCtrl _ _ _)); · decide)
    | ((intro t b); try dsimp only))

theorem touches_execDmaAbort (c : Fin 128) (v : Word) (s : State) :
    TouchesRes (mEvent ||| mStaged ||| mCtxs ||| mBillets ||| mPorts ||| mDma) s (execDmaAbort c v s) := by
  unfold execDmaAbort
  (try dsimp only)
  repeat' (first
    | refine Touches.res ?_
    | with_reducible exact Touches.refl _ _
    | ((with_reducible apply touches_State.hostWr ?_ _ _ _ _ _ _ ?_); (· decide); intro v t; try dsimp only)
    | ((with_reducible apply Touches.stepBy 0x400000003e842 (touches_State.wrDmaCtrl _ _ _)); · decide)
    | ((intro t b); try dsimp only))

theorem touches_execDmaGiveBind (c : Fin 128) (v : Word) (s : State) :
    TouchesRes (mRegs ||| mStaged) s (execDmaGiveBind c v s) := by
  unfold execDmaGiveBind
  (try dsimp only)
  repeat' (first
    | refine Touches.res ?_
    | with_reducible exact Touches.refl _ _
    | ((with_reducible apply touches_State.hostWr ?_ _ _ _ _ _ _ ?_); (· decide); intro v t; try dsimp only)
    | ((with_reducible apply Touches.stepBy 0x2 (touches_State.wrDmaCfg _ _ _)); · decide)
    | ((intro t b); try dsimp only))

theorem touches_execDmaDescFetch (c : Fin 128) (desc list : HostRead) (s : State) :
    TouchesRes (mEvent ||| mCtxs ||| mBillets ||| mPorts ||| mDma) s (execDmaDescFetch c desc list s) := by
  unfold execDmaDescFetch
  (try dsimp only)
  repeat' (first
    | refine Touches.res ?_
    | with_reducible exact Touches.refl _ _
    | ((with_reducible apply touches_State.live _ _ ?_); intro t; try dsimp only)
    | ((with_reducible apply Touches.stepBy 0x400000003e842 (touches_State.dmaFetch _ _ _ _)); · decide)
    | ((intro t b); try dsimp only))

theorem touches_execDmaNop (c : Fin 128) (s : State) :
    TouchesRes (mEvent ||| mCtxs ||| mBillets ||| mPorts ||| mDma) s (execDmaNop c s) := by
  unfold execDmaNop
  (try dsimp only)
  repeat' (first
    | refine Touches.res ?_
    | with_reducible exact Touches.refl _ _
    | ((with_reducible apply touches_State.live _ _ ?_); intro t; try dsimp only)
    | ((with_reducible apply Touches.stepBy 0x400000003e842 (touches_State.dmaNop _ _)); · decide)
    | ((intro t b); try dsimp only))

theorem touches_execCtxTake (c : Fin 128) (s : State) :
    TouchesRes (mRegs ||| mHostMem ||| mCtxs ||| mBillets ||| mDma) s (execCtxTake c s) := by
  unfold execCtxTake
  (try dsimp only)
  repeat' (first
    | refine Touches.res ?_
    | with_reducible exact Touches.refl _ _
    | ((with_reducible apply touches_State.live _ _ ?_); intro t; try dsimp only)
    | ((with_reducible apply Touches.stepBy 0x4000000018802 (touches_State.ctxTake _ _)); · decide)
    | ((intro t b); try dsimp only))

theorem touches_execCtxGive (c : Fin 128) (data : HostRead) (s : State) :
    TouchesRes (mEvent ||| mFreeCtr ||| mStore ||| mCtxs ||| mBillets ||| mPorts ||| mBadLines ||| mDma) s (execCtxGive c data s) := by
  unfold execCtxGive
  (try dsimp only)
  repeat' (first
    | refine Touches.res ?_
    | with_reducible exact Touches.refl _ _
    | ((with_reducible apply touches_State.live _ _ ?_); intro t; try dsimp only)
    | ((with_reducible apply Touches.stepBy 0x400000013ee42 (touches_State.ctxGive _ _ _)); · decide)
    | ((intro t b); try dsimp only))

theorem touches_execStoreRead (c : Fin 128) (s : State) :
    TouchesRes (mEvent ||| mCtxs ||| mBillets ||| mPorts ||| mDma) s (execStoreRead c s) := by
  unfold execStoreRead
  (try dsimp only)
  repeat' (first
    | refine Touches.res ?_
    | with_reducible exact Touches.refl _ _
    | ((with_reducible apply touches_State.live _ _ ?_); intro t; try dsimp only)
    | ((with_reducible apply Touches.stepBy 0x400000003e842 (touches_State.storeRead _ _)); · decide)
    | ((intro t b); try dsimp only))

theorem touches_execRefTake (c : Fin 128) (s : State) :
    TouchesRes (mEvent ||| mCtxs ||| mBillets ||| mPorts ||| mDma) s (execRefTake c s) := by
  unfold execRefTake
  (try dsimp only)
  repeat' (first
    | refine Touches.res ?_
    | with_reducible exact Touches.refl _ _
    | ((with_reducible apply touches_State.live _ _ ?_); intro t; try dsimp only)
    | ((with_reducible apply Touches.stepBy 0x400000003e842 (touches_State.refTake _ _)); · decide)
    | ((intro t b); try dsimp only))

theorem touches_execRefGive (c : Fin 128) (s : State) :
    TouchesRes (mEvent ||| mCtxs ||| mBillets ||| mPorts ||| mDma) s (execRefGive c s) := by
  unfold execRefGive
  (try dsimp only)
  repeat' (first
    | refine Touches.res ?_
    | with_reducible exact Touches.refl _ _
    | ((with_reducible apply touches_State.live _ _ ?_); intro t; try dsimp only)
    | ((with_reducible apply Touches.stepBy 0x400000003e842 (touches_State.refGive _ _)); · decide)
    | ((intro t b); try dsimp only))

theorem touches_execDmaRecordAvailable (c : Fin 128) (s : State) :
    TouchesRes (mRegs ||| mHostMem ||| mCtxs ||| mBillets ||| mDma) s (execDmaRecordAvailable c s) := by
  unfold execDmaRecordAvailable
  (try dsimp only)
  repeat' (first
    | refine Touches.res ?_
    | with_reducible exact Touches.refl _ _
    | ((with_reducible apply touches_State.live _ _ ?_); intro t; try dsimp only)
    | ((with_reducible apply Touches.stepBy 0x4000000018802 (touches_State.recordAvailable _ _)); · decide)
    | ((intro t b); try dsimp only))

theorem touches_execDmaIdleTimeout (c : Fin 128) (s : State) :
    TouchesRes mDma s (execDmaIdleTimeout c s) := by
  unfold execDmaIdleTimeout
  (try dsimp only)
  repeat' (first
    | refine Touches.res ?_
    | with_reducible exact Touches.refl _ _
    | ((with_reducible apply touches_State.live _ _ ?_); intro t; try dsimp only)
    | ((with_reducible apply Touches.stepBy 0x4000000000000 (touches_State.dmaIdle _ _)); · decide)
    | ((intro t b); try dsimp only))

theorem touches_execDmaDataCompletion (c : Fin 128) (s : State) :
    TouchesRes (mEvent ||| mFreeCtr ||| mStore ||| mCtxs ||| mBillets ||| mPorts ||| mBadLines ||| mDma) s (execDmaDataCompletion c s) := by
  unfold execDmaDataCompletion
  (try dsimp only)
  repeat' (first
    | refine Touches.res ?_
    | with_reducible exact Touches.refl _ _
    | ((with_reducible apply touches_State.live _ _ ?_); intro t; try dsimp only)
    | ((with_reducible apply Touches.stepBy 0x400000013ee42 (touches_State.dmaCommit _ _)); · decide)
    | ((intro t b); try dsimp only))

/-! ### Machine/GlbCmds.lean -/

theorem touches_execRegisterWrite (p : Path) (bar : Bar) (a : Fin (2 ^ 26)) (v : Word) (env : Env) (s : State) :
    TouchesRes 0xfc35a77ff7ffd6 s (execRegisterWrite p bar a v env s) := by
  unfold execRegisterWrite
  (try dsimp only)
  repeat' (first
    | refine Touches.res ?_
    | with_reducible exact Touches.refl _ _
    | ((with_reducible apply Touches.stepBy 0xfc35a77ff7ffd6 (touches_State.barWrite _ _ _ _ _ _)); · decide))

theorem touches_execLowHalfRead (p : Path) (bar : Bar) (n : Fin (2 ^ 23)) (s : State) :
    TouchesRes (mEvent ||| mSnap ||| mReadData) s (execLowHalfRead p bar n s) := by
  unfold execLowHalfRead
  (try dsimp only)
  repeat' (first
    | refine Touches.res ?_
    | with_reducible exact Touches.refl _ _
    | ((with_reducible apply Touches.stepBy 0x686a (touches_State.halfRead _ _ _ _ _)); · decide))

theorem touches_execHighHalfRead (p : Path) (bar : Bar) (n : Fin (2 ^ 23)) (s : State) :
    TouchesRes (mEvent ||| mSnap ||| mReadData) s (execHighHalfRead p bar n s) := by
  unfold execHighHalfRead
  (try dsimp only)
  repeat' (first
    | refine Touches.res ?_
    | with_reducible exact Touches.refl _ _
    | ((with_reducible apply Touches.stepBy 0x686a (touches_State.halfRead _ _ _ _ _)); · decide))

theorem touches_execLowHalfWrite (p : Path) (bar : Bar) (n : Fin (2 ^ 23)) (v : BitVec 32) (env : Env) (s : State) :
    TouchesRes 0xfc35a77ff7ffd6 s (execLowHalfWrite p bar n v env s) := by
  unfold execLowHalfWrite
  (try dsimp only)
  repeat' (first
    | refine Touches.res ?_
    | with_reducible exact Touches.refl _ _
    | ((with_reducible apply Touches.stepBy 0xfc35a77ff7ffd6 (touches_State.halfWrite _ _ _ _ _ _ _)); · decide))

theorem touches_execHighHalfWrite (p : Path) (bar : Bar) (n : Fin (2 ^ 23)) (v : BitVec 32) (env : Env) (s : State) :
    TouchesRes 0xfc35a77ff7ffd6 s (execHighHalfWrite p bar n v env s) := by
  unfold execHighHalfWrite
  (try dsimp only)
  repeat' (first
    | refine Touches.res ?_
    | with_reducible exact Touches.refl _ _
    | ((with_reducible apply Touches.stepBy 0xfc35a77ff7ffd6 (touches_State.halfWrite _ _ _ _ _ _ _)); · decide))

theorem touches_execReservedAddressAccess (p : Path) (bar : Bar) (a : Fin (2 ^ 26)) (sz : AccSize) (write : Bool) (s : State) :
    TouchesRes (mEvent ||| mSnap ||| mReadData ||| mPkg) s (execReservedAddressAccess p bar a sz write s) := by
  unfold execReservedAddressAccess
  (try dsimp only)
  repeat' (first
    | refine Touches.res ?_
    | with_reducible exact Touches.refl _ _
    | ((with_reducible apply Touches.stepBy 0x40000000006842 (touches_State.anyDrop _ _ _ _ _)); · decide)
    | ((with_reducible apply Touches.stepBy 0x686a (touches_State.anyRead _ _ _ _ _)); · decide)
    | split)

theorem touches_execDevidWrite (v : Word) (s : State) :
    TouchesRes (mRegs ||| mStaged ||| mGlb) s (execDevidWrite v s) := by
  unfold execDevidWrite
  (try dsimp only)
  repeat' (first
    | refine Touches.res ?_
    | with_reducible exact Touches.refl _ _
    | ((with_reducible apply touches_State.hostWr ?_ _ _ _ _ _ _ ?_); (· decide); intro v t; try dsimp only)
    | ((with_reducible apply Touches.stepBy 0x80000000000002 (touches_State.wrDevid _ _)); · decide)
    | ((intro t b); try dsimp only))

theorem touches_execDevidLock (v : Word) (s : State) :
    TouchesRes (mRegs ||| mStaged ||| mGlb) s (execDevidLock v s) := by
  unfold execDevidLock
  (try dsimp only)
  repeat' (first
    | refine Touches.res ?_
    | with_reducible exact Touches.refl _ _
    | ((with_reducible apply touches_State.hostWr ?_ _ _ _ _ _ _ ?_); (· decide); intro v t; try dsimp only)
    | ((with_reducible apply Touches.stepBy 0x80000000000002 (touches_State.wrDevid _ _)); · decide)
    | ((intro t b); try dsimp only))

theorem touches_execDpRestart (v : Word) (s : State) :
    TouchesRes (mEvent ||| mAct ||| mStaged ||| mCtxs ||| mBillets ||| mPlan ||| mCnv ||| mCal ||| mDdc ||| mXfm ||| mTq ||| mBus ||| mDecs ||| mNet ||| mAve ||| mRst ||| mGlb) s (execDpRestart v s) := by
  unfold execDpRestart
  (try dsimp only)
  repeat' (first
    | refine Touches.res ?_
    | with_reducible exact Touches.refl _ _
    | ((with_reducible apply Touches.stepBy 0x8830a43a41e846 (touches_State.wrGlbCtrl _ _)); · decide)
    | ((with_reducible apply touches_State.hostWr ?_ _ _ _ _ _ _ ?_); (· decide); intro v t; try dsimp only)
    | ((intro t b); try dsimp only))

theorem touches_execRestartFaultRecords (s : State) :
    TouchesRes (mEvent ||| mTime ||| mFreeCtr ||| mStore ||| mCtxs ||| mBillets ||| mPorts ||| mAside ||| mBadLines ||| mTdc ||| mDdc ||| mXfm ||| mStreams ||| mDet ||| mDen ||| mAu ||| mRst ||| mCmp) s (execRestartFaultRecords s) := by
  unfold execRestartFaultRecords
  (try dsimp only)
  repeat' (first
    | refine Touches.res ?_
    | with_reducible exact Touches.refl _ _
    | ((with_reducible apply Touches.stepBy 0x2801037117eec2 (touches_State.dpFaults _)); · decide))

theorem touches_execRestartUnitReset (s : State) :
    TouchesRes (mEvent ||| mTime ||| mFreeCtr ||| mStore ||| mCtxs ||| mBillets ||| mPorts ||| mBadLines ||| mTurf ||| mDma ||| mRst ||| mCmp) s (execRestartUnitReset s) := by
  unfold execRestartUnitReset
  (try dsimp only)
  repeat' (first
    | refine Touches.res ?_
    | with_reducible exact Touches.refl _ _
    | ((with_reducible apply Touches.stepBy 0x2c04000013eec2 (touches_State.dpReset _)); · decide))

theorem touches_execRestartTrainingEnd (ok : Bool) (s : State) :
    TouchesRes (mEvent ||| mBadLines ||| mMem ||| mRst ||| mGlb) s (execRestartTrainingEnd ok s) := by
  unfold execRestartTrainingEnd
  (try dsimp only)
  repeat' (first
    | refine Touches.res ?_
    | with_reducible exact Touches.refl _ _
    | ((with_reducible apply Touches.stepBy 0x8a000000106842 (touches_State.dpTrained _ _)); · decide))

theorem touches_execRestartActivate (s : State) :
    TouchesRes (mEvent ||| mFreeCtr ||| mStore ||| mCtxs ||| mBillets ||| mPorts ||| mAside ||| mBadLines ||| mDdc ||| mXfm ||| mFrames ||| mDet ||| mDen ||| mLt ||| mFm ||| mDecs ||| mAu ||| mReplay ||| mCmp ||| mGlb) s (execRestartActivate s) := by
  unfold execRestartActivate
  (try dsimp only)
  repeat' (first
    | refine Touches.res ?_
    | with_reducible exact Touches.refl _ _
    | ((with_reducible apply Touches.stepBy 0xa0039bb017ee42 (touches_State.dpActivate _)); · decide))

theorem touches_execRestartTimeout (s : State) :
    TouchesRes (mEvent ||| mTime ||| mGlb) s (execRestartTimeout s) := by
  unfold execRestartTimeout
  (try dsimp only)
  repeat' (first
    | refine Touches.res ?_
    | with_reducible exact Touches.refl _ _
    | ((with_reducible apply Touches.stepBy 0x800000000068c2 (touches_State.dpTimeout _)); · decide))

/-! ### Machine/HifCmds.lean -/

theorem touches_execCxlMemRead (n : Fin (2 ^ 46)) (s : State) :
    TouchesRes mEvent s (execCxlMemRead n s) := by
  unfold execCxlMemRead
  (try dsimp only)
  repeat' (first
    | refine Touches.res ?_
    | with_reducible exact Touches.refl _ _
    | ((with_reducible apply touches_State.live _ _ ?_); intro t; try dsimp only)
    | ((with_reducible apply Touches.stepBy 0x6842 (touches_State.cxlRead _ _)); · decide)
    | ((intro t b); try dsimp only))

theorem touches_execCxlMemWrite (s : State) :
    TouchesRes mEvent s (execCxlMemWrite s) := by
  unfold execCxlMemWrite
  (try dsimp only)
  repeat' (first
    | refine Touches.res ?_
    | with_reducible exact Touches.refl _ _
    | ((with_reducible apply touches_State.live _ _ ?_); intro t; try dsimp only)
    | ((with_reducible apply Touches.stepBy 0x6842 (touches_State.cxlWrite _)); · decide)
    | ((intro t b); try dsimp only))

theorem touches_execHdmCommit (one : Bool) (base size skip ways : Nat) (lock : Bool) (s : State) :
    TouchesRes mEvent s (execHdmCommit one base size skip ways lock s) := by
  unfold execHdmCommit
  (try dsimp only)
  repeat' (first
    | refine Touches.res ?_
    | with_reducible exact Touches.refl _ _
    | ((with_reducible apply touches_State.live _ _ ?_); intro t; try dsimp only)
    | ((with_reducible apply Touches.stepBy 0x6842 (touches_State.hdmCommit _ _ _ _ _ _ _)); · decide)
    | ((intro t b); try dsimp only))

theorem touches_execHostSnoop (s : State) :
    TouchesRes mOuts s (execHostSnoop s) := by
  unfold execHostSnoop
  (try dsimp only)
  repeat' (first
    | refine Touches.res ?_
    | with_reducible exact Touches.refl _ _
    | ((with_reducible apply touches_State.live _ _ ?_); intro t; try dsimp only)
    | ((with_reducible apply Touches.stepBy 0x40 (touches_State.snoop _)); · decide)
    | ((intro t b); try dsimp only))

theorem touches_execLinkRetrain (width rate : Nat) (cxl : Bool) (s : State) :
    TouchesRes (mEvent ||| mGlb) s (execLinkRetrain width rate cxl s) := by
  unfold execLinkRetrain
  (try dsimp only)
  repeat' (first
    | refine Touches.res ?_
    | with_reducible exact Touches.refl _ _
    | ((with_reducible apply touches_State.live _ _ ?_); intro t; try dsimp only)
    | ((with_reducible apply Touches.stepBy 0x80000000006842 (touches_State.linkRetrain _ _ _ _)); · decide)
    | ((intro t b); try dsimp only))

theorem touches_execLinkDown (s : State) :
    TouchesRes (mEvent ||| mCtxs ||| mBillets ||| mPorts ||| mDma) s (execLinkDown s) := by
  unfold execLinkDown
  (try dsimp only)
  repeat' (first
    | refine Touches.res ?_
    | with_reducible exact Touches.refl _ _
    | ((with_reducible apply touches_State.live _ _ ?_); intro t; try dsimp only)
    | ((with_reducible apply Touches.stepBy 0x400000003e842 (touches_State.linkDown _)); · decide)
    | ((intro t b); try dsimp only))

theorem touches_execCxlReset (memClr : Bool) (s : State) :
    TouchesRes (mEvent ||| mAct ||| mStore ||| mCtxs ||| mBillets ||| mPorts ||| mBadLines ||| mPlan ||| mCnv ||| mCal ||| mDdc ||| mXfm ||| mTq ||| mBus ||| mDecs ||| mNet ||| mAve ||| mMem ||| mDma ||| mRst ||| mGlb) s (execCxlReset memClr s) := by
  unfold execCxlReset
  (try dsimp only)
  repeat' (first
    | refine Touches.res ?_
    | with_reducible exact Touches.refl _ _
    | ((with_reducible apply touches_State.live _ _ ?_); intro t; try dsimp only)
    | ((with_reducible apply Touches.stepBy 0x8e30a43a53ec46 (touches_State.cxlReset _ _)); · decide)
    | ((intro t b); try dsimp only))

theorem touches_execFlr (s : State) :
    TouchesRes (mEvent ||| mCtxs ||| mBillets ||| mPorts ||| mDma) s (execFlr s) := by
  unfold execFlr
  (try dsimp only)
  repeat' (first
    | refine Touches.res ?_
    | with_reducible exact Touches.refl _ _
    | ((with_reducible apply touches_State.live _ _ ?_); intro t; try dsimp only)
    | ((with_reducible apply Touches.stepBy 0x400000003e842 (touches_State.flr _)); · decide)
    | ((intro t b); try dsimp only))

theorem touches_execBusMasterDisable (s : State) :
    TouchesRes mHif s (execBusMasterDisable s) := by
  unfold execBusMasterDisable
  (try dsimp only)
  repeat' (first
    | refine Touches.res ?_
    | with_reducible exact Touches.refl _ _
    | ((with_reducible apply touches_State.live _ _ ?_); intro t; try dsimp only)
    | ((with_reducible apply Touches.stepBy 0x4000 (touches_State.busMasterOff _)); · decide)
    | ((intro t b); try dsimp only))

theorem touches_execCompletionTimeout (r : Requester) (s : State) :
    TouchesRes (mEvent ||| mCtxs ||| mBillets ||| mPorts ||| mPlan ||| mXfm ||| mDma ||| mCmp) s (execCompletionTimeout r s) := by
  unfold execCompletionTimeout
  (try dsimp only)
  repeat' (first
    | refine Touches.res ?_
    | with_reducible exact Touches.refl _ _
    | ((with_reducible apply touches_State.live _ _ ?_); intro t; try dsimp only)
    | ((with_reducible apply Touches.stepBy 0x2400002043e842 (touches_State.requestFail _ _ _)); · decide)
    | ((intro t b); try dsimp only))

theorem touches_execPoisonedCompletion (r : Requester) (s : State) :
    TouchesRes (mEvent ||| mCtxs ||| mBillets ||| mPorts ||| mPlan ||| mXfm ||| mDma ||| mCmp) s (execPoisonedCompletion r s) := by
  unfold execPoisonedCompletion
  (try dsimp only)
  repeat' (first
    | refine Touches.res ?_
    | with_reducible exact Touches.refl _ _
    | ((with_reducible apply touches_State.live _ _ ?_); intro t; try dsimp only)
    | ((with_reducible apply Touches.stepBy 0x2400002043e842 (touches_State.requestFail _ _ _)); · decide)
    | ((intro t b); try dsimp only))

theorem touches_execMsixUnmask (u : Unmask) (s : State) :
    TouchesRes mEvent s (execMsixUnmask u s) := by
  unfold execMsixUnmask
  (try dsimp only)
  repeat' (first
    | refine Touches.res ?_
    | with_reducible exact Touches.refl _ _
    | ((with_reducible apply touches_State.live _ _ ?_); intro t; try dsimp only)
    | ((with_reducible apply Touches.stepBy 0x6842 (touches_State.unmask _ _)); · decide)
    | ((intro t b); try dsimp only))

theorem touches_execMsixModerationEnd (v : Fin 2048) (s : State) :
    TouchesRes (mOuts ||| mTime ||| mHif) s (execMsixModerationEnd v s) := by
  unfold execMsixModerationEnd
  (try dsimp only)
  repeat' (first
    | refine Touches.res ?_
    | with_reducible exact Touches.refl _ _
    | ((with_reducible apply touches_State.live _ _ ?_); intro t; try dsimp only)
    | ((with_reducible apply Touches.stepBy 0x40c0 (touches_State.moderationEnd _ _)); · decide)
    | ((intro t b); try dsimp only))

theorem touches_State.spdmNote (s : State) (bs : List Byte) :
    Touches (mRegs ||| mOuts ||| mStk) s (State.spdmNote s bs) := by
  unfold State.spdmNote
  (try dsimp only)
  repeat' (first
    | with_reducible exact Touches.refl _ _
    | ((with_reducible apply Touches.stepBy 0x10000000000000 (touches_State.updStk _ _ ?fz)); (case fz => first | exact FusesOnlyBurn.of_eq rfl rfl rfl rfl rfl | (constructor <;> first | exact Nat.le_refl _ | (dsimp only; omega) | exact fun _ h => ⟨h, rfl⟩ | exact id) | (constructor <;> simp_all)); (· decide))
    | ((with_reducible apply Touches.stepBy 0x42 (touches_State.spdm _ _)); · decide))

theorem touches_execDoeDiscovery (req : List Byte) (busy : Bool) (s : State) :
    TouchesRes mOuts s (execDoeDiscovery req busy s) := by
  unfold execDoeDiscovery
  (try dsimp only)
  repeat' (first
    | refine Touches.res ?_
    | with_reducible exact Touches.refl _ _
    | ((with_reducible apply Touches.stepBy 0x40 (touches_State.send _ _)); · decide)
    | ((with_reducible apply touches_State.live _ _ ?_); intro t; try dsimp only)
    | ((with_reducible apply touches_State.doe ?_ _ _ _ _ ?_); (· decide); intro t; try dsimp only)
    | ((intro t b); try dsimp only))

theorem touches_execCdatTableAccess (req : List Byte) (busy : Bool) (s : State) :
    TouchesRes mOuts s (execCdatTableAccess req busy s) := by
  unfold execCdatTableAccess
  (try dsimp only)
  repeat' (first
    | refine Touches.res ?_
    | with_reducible exact Touches.refl _ _
    | ((with_reducible apply Touches.stepBy 0x40 (touches_State.send _ _)); · decide)
    | ((with_reducible apply touches_State.live _ _ ?_); intro t; try dsimp only)
    | ((with_reducible apply touches_State.doe ?_ _ _ _ _ ?_); (· decide); intro t; try dsimp only)
    | ((intro t b); try dsimp only))

theorem touches_execGetVersion (req : List Byte) (busy : Bool) (s : State) :
    TouchesRes (mRegs ||| mOuts ||| mStk) s (execGetVersion req busy s) := by
  unfold execGetVersion
  (try dsimp only)
  repeat' (first
    | refine Touches.res ?_
    | with_reducible exact Touches.refl _ _
    | ((with_reducible apply Touches.stepBy 0x10000000000000 (touches_State.updStk _ _ ?fz)); (case fz => first | exact FusesOnlyBurn.of_eq rfl rfl rfl rfl rfl | (constructor <;> first | exact Nat.le_refl _ | (dsimp only; omega) | exact fun _ h => ⟨h, rfl⟩ | exact id) | (constructor <;> simp_all)); (· decide))
    | ((with_reducible apply touches_State.live _ _ ?_); intro t; try dsimp only)
    | ((with_reducible apply Touches.stepBy 0x10000000000042 (touches_State.spdmNote _ _)); · decide)
    | ((with_reducible apply Touches.stepBy 0x42 (touches_State.spdm _ _)); · decide)
    | ((with_reducible apply touches_State.doe ?_ _ _ _ _ ?_); (· decide); intro t; try dsimp only)
    | ((intro t b); try dsimp only))

theorem touches_execGetCapabilities (req : List Byte) (busy : Bool) (s : State) :
    TouchesRes (mRegs ||| mOuts ||| mStk) s (execGetCapabilities req busy s) := by
  unfold execGetCapabilities
  (try dsimp only)
  repeat' (first
    | refine Touches.res ?_
    | with_reducible exact Touches.refl _ _
    | ((with_reducible apply touches_State.live _ _ ?_); intro t; try dsimp only)
    | ((with_reducible apply Touches.stepBy 0x10000000000042 (touches_State.spdmNote _ _)); · decide)
    | ((with_reducible apply Touches.stepBy 0x42 (touches_State.spdm _ _)); · decide)
    | ((with_reducible apply touches_State.doe ?_ _ _ _ _ ?_); (· decide); intro t; try dsimp only)
    | ((intro t b); try dsimp only))

theorem touches_execNegotiateAlgorithms (req : List Byte) (busy : Bool) (s : State) :
    TouchesRes (mRegs ||| mOuts ||| mStk) s (execNegotiateAlgorithms req busy s) := by
  unfold execNegotiateAlgorithms
  (try dsimp only)
  repeat' (first
    | refine Touches.res ?_
    | with_reducible exact Touches.refl _ _
    | ((with_reducible apply touches_State.live _ _ ?_); intro t; try dsimp only)
    | ((with_reducible apply Touches.stepBy 0x10000000000042 (touches_State.spdmNote _ _)); · decide)
    | ((with_reducible apply Touches.stepBy 0x42 (touches_State.spdm _ _)); · decide)
    | ((with_reducible apply touches_State.doe ?_ _ _ _ _ ?_); (· decide); intro t; try dsimp only)
    | ((intro t b); try dsimp only))

theorem touches_execGetDigests (req : List Byte) (busy : Bool) (s : State) :
    TouchesRes (mRegs ||| mOuts ||| mStk) s (execGetDigests req busy s) := by
  unfold execGetDigests
  (try dsimp only)
  repeat' (first
    | refine Touches.res ?_
    | with_reducible exact Touches.refl _ _
    | ((with_reducible apply touches_State.live _ _ ?_); intro t; try dsimp only)
    | ((with_reducible apply Touches.stepBy 0x10000000000042 (touches_State.spdmNote _ _)); · decide)
    | ((with_reducible apply Touches.stepBy 0x42 (touches_State.spdm _ _)); · decide)
    | ((with_reducible apply touches_State.doe ?_ _ _ _ _ ?_); (· decide); intro t; try dsimp only)
    | ((intro t b); try dsimp only))

theorem touches_execGetCertificate (req : List Byte) (busy : Bool) (off len : Fin 65536) (s : State) :
    TouchesRes (mRegs ||| mOuts ||| mStk) s (execGetCertificate req busy off len s) := by
  unfold execGetCertificate
  (try dsimp only)
  repeat' (first
    | refine Touches.res ?_
    | with_reducible exact Touches.refl _ _
    | ((with_reducible apply touches_State.live _ _ ?_); intro t; try dsimp only)
    | ((with_reducible apply Touches.stepBy 0x10000000000042 (touches_State.spdmNote _ _)); · decide)
    | ((with_reducible apply Touches.stepBy 0x42 (touches_State.spdm _ _)); · decide)
    | ((with_reducible apply touches_State.doe ?_ _ _ _ _ ?_); (· decide); intro t; try dsimp only)
    | ((intro t b); try dsimp only))

theorem touches_execChallenge (req : List Byte) (busy : Bool) (s : State) :
    TouchesRes (mRegs ||| mOuts ||| mFreeCtr ||| mStk) s (execChallenge req busy s) := by
  unfold execChallenge
  (try dsimp only)
  repeat' (first
    | refine Touches.res ?_
    | with_reducible exact Touches.refl _ _
    | ((with_reducible apply touches_State.live _ _ ?_); intro t; try dsimp only)
    | ((with_reducible apply Touches.stepBy 0x200 (touches_State.fresh _)); · decide)
    | ((with_reducible apply Touches.stepBy 0x10000000000042 (touches_State.spdmNote _ _)); · decide)
    | ((with_reducible apply Touches.stepBy 0x42 (touches_State.spdm _ _)); · decide)
    | ((with_reducible apply touches_State.doe ?_ _ _ _ _ ?_); (· decide); intro t; try dsimp only)
    | ((intro t b); try dsimp only)
    | split
    | with_reducible refine Touches.ofSnd (by assumption) ?_
    | with_reducible refine Touches.ofFst (by assumption) ?_)

theorem touches_execGetMeasurements (req : List Byte) (busy : Bool) (index : Fin 256) (signed : Bool) (s : State) :
    TouchesRes (mRegs ||| mOuts ||| mFreeCtr ||| mStk) s (execGetMeasurements req busy index signed s) := by
  unfold execGetMeasurements
  (try dsimp only)
  repeat' (first
    | refine Touches.res ?_
    | with_reducible exact Touches.refl _ _
    | ((with_reducible apply touches_State.live _ _ ?_); intro t; try dsimp only)
    | ((with_reducible apply Touches.stepBy 0x200 (touches_State.fresh _)); · decide)
    | ((with_reducible apply Touches.stepBy 0x10000000000042 (touches_State.spdmNote _ _)); · decide)
    | ((with_reducible apply Touches.stepBy 0x42 (touches_State.spdm _ _)); · decide)
    | ((with_reducible apply touches_State.doe ?_ _ _ _ _ ?_); (· decide); intro t; try dsimp only)
    | ((intro t b); try dsimp only)
    | split
    | with_reducible refine Touches.ofSnd (by assumption) ?_
    | with_reducible refine Touches.ofFst (by assumption) ?_)

theorem touches_execSpdmUnsupportedRequest (req : List Byte) (busy : Bool) (s : State) :
    TouchesRes (mEvent ||| mStk) s (execSpdmUnsupportedRequest req busy s) := by
  unfold execSpdmUnsupportedRequest
  (try dsimp only)
  repeat' (first
    | refine Touches.res ?_
    | with_reducible exact Touches.refl _ _
    | ((with_reducible apply touches_State.live _ _ ?_); intro t; try dsimp only)
    | ((with_reducible apply Touches.stepBy 0x10000000000042 (touches_State.spdmNote _ _)); · decide)
    | ((with_reducible apply Touches.stepBy 0x6842 (touches_State.spdmError _)); · decide)
    | ((with_reducible apply touches_State.doe ?_ _ _ _ _ ?_); (· decide); intro t; try dsimp only)
    | ((intro t b); try dsimp only))

/-! ### Machine/MemCmds.lean -/

theorem touches_execStreetBeat (c0 c1 c2 c3 : List (BitVec 12)) (s : State) :
    TouchesRes (mEvent ||| mTime ||| mFrac ||| mFreeCtr ||| mStore ||| mCtxs ||| mBillets ||| mPorts ||| mAside ||| mBadLines ||| mClk ||| mTbs ||| mTdc ||| mCnv ||| mDdc ||| mXfm ||| mStreams ||| mLt ||| mAu ||| mCmp) s (execStreetBeat c0 c1 c2 c3 s) := by
  unfold execStreetBeat
  (try dsimp only)
  repeat' (first
    | refine Touches.res ?_
    | with_reducible exact Touches.refl _ _
    | ((with_reducible apply Touches.stepBy 0x20010873b7efc2 (touches_State.beat _ _ _ _ _)); · decide))

theorem touches_execReplaySend (p : Fin 16) (s : State) :
    TouchesRes (mEvent ||| mFreeCtr ||| mStore ||| mCtxs ||| mBillets ||| mPorts ||| mAside ||| mServed ||| mBadLines ||| mXfm ||| mLt ||| mAu ||| mReplay ||| mCmp) s (execReplaySend p s) := by
  unfold execReplaySend
  (try dsimp only)
  repeat' (first
    | refine Touches.res ?_
    | with_reducible exact Touches.refl _ _
    | ((with_reducible apply touches_State.live _ _ ?_); intro t; try dsimp only)
    | ((with_reducible apply touches_State.clocked _ _ ?_); intro t; try dsimp only)
    | ((with_reducible apply Touches.stepBy 0x200308201fee42 (touches_State.replaySend _ _)); · decide)
    | ((intro t b); try dsimp only))

theorem touches_execZcRelease (x : Fin 4096) (v : Word) (s : State) :
    TouchesRes (mEvent ||| mFreeCtr ||| mStore ||| mCtxs ||| mBillets ||| mBadLines) s (execZcRelease x v s) := by
  unfold execZcRelease
  (try dsimp only)
  repeat' (first
    | refine Touches.res ?_
    | with_reducible exact Touches.refl _ _
    | ((with_reducible apply Touches.stepBy 0x11ee42 (touches_State.bar4Write64 _ _ _)); · decide))

theorem touches_execCtxFlush (x : Fin 4096) (v : Word) (s : State) :
    TouchesRes (mEvent ||| mFreeCtr ||| mStore ||| mCtxs ||| mBillets ||| mBadLines) s (execCtxFlush x v s) := by
  unfold execCtxFlush
  (try dsimp only)
  repeat' (first
    | refine Touches.res ?_
    | with_reducible exact Touches.refl _ _
    | ((with_reducible apply Touches.stepBy 0x11ee42 (touches_State.bar4Write64 _ _ _)); · decide))

theorem touches_execMemMapWrite (v : Word) (s : State) :
    TouchesRes (mEvent ||| mStaged) s (execMemMapWrite v s) := by
  unfold execMemMapWrite
  (try dsimp only)
  repeat' (first
    | refine Touches.res ?_
    | with_reducible exact Touches.refl _ _
    | ((with_reducible apply touches_State.hostWr ?_ _ _ _ _ _ _ ?_); (· decide); intro v t; try dsimp only)
    | ((with_reducible apply Touches.stepBy 0x6842 (touches_State.wrMemMap _ _)); · decide)
    | ((intro t b); try dsimp only))

theorem touches_execMapInitDone (s : State) :
    TouchesRes (mRegs ||| mStore ||| mBadLines ||| mMem) s (execMapInitDone s) := by
  unfold execMapInitDone
  (try dsimp only)
  repeat' (first
    | refine Touches.res ?_
    | with_reducible exact Touches.refl _ _
    | ((with_reducible apply touches_State.live _ _ ?_); intro t; try dsimp only)
    | ((with_reducible apply Touches.stepBy 0x2000000100402 (touches_State.mapInitDone _)); · decide)
    | ((intro t b); try dsimp only))

theorem touches_execMemSchedWrite (v : Word) (s : State) :
    TouchesRes (mRegs ||| mStaged) s (execMemSchedWrite v s) := by
  unfold execMemSchedWrite
  (try dsimp only)
  repeat' (first
    | refine Touches.res ?_
    | with_reducible exact Touches.refl _ _
    | ((with_reducible apply touches_State.hostWr ?_ _ _ _ _ _ _ ?_); (· decide); intro v t; try dsimp only)
    | ((with_reducible apply Touches.stepBy 0x2 (touches_State.wrMemSched _ _)); · decide)
    | ((intro t b); try dsimp only))

theorem touches_execMemGranule (ch : Fin 32) (waiting : List Granule) (err : EccErr) (s : State) :
    TouchesRes (mEvent ||| mFreeCtr ||| mBadLines ||| mMem) s (execMemGranule ch waiting err s) := by
  unfold execMemGranule
  (try dsimp only)
  repeat' (first
    | refine Touches.res ?_
    | with_reducible exact Touches.refl _ _
    | ((with_reducible apply touches_State.live _ _ ?_); intro t; try dsimp only)
    | ((with_reducible apply Touches.stepBy 0x2000000106a42 (touches_State.channelIssue _ _ _ _)); · decide)
    | ((intro t b); try dsimp only))

theorem touches_execMr4Poll (d : Fin 16) (code : Fin 8) (s : State) :
    TouchesRes mEvent s (execMr4Poll d code s) := by
  unfold execMr4Poll
  (try dsimp only)
  repeat' (first
    | refine Touches.res ?_
    | with_reducible exact Touches.refl _ _
    | ((with_reducible apply Touches.stepBy 0x6842 (touches_State.thmPin _)); · decide)
    | ((with_reducible apply touches_State.live _ _ ?_); intro t; try dsimp only)
    | ((with_reducible apply Touches.stepBy 0x6842 (touches_State.mr4Poll _ _ _)); · decide)
    | ((intro t b); try dsimp only))

theorem touches_execRefreshDue (ch : Fin 32) (wait : Bool) (s : State) :
    TouchesRes (mEvent ||| mMem) s (execRefreshDue ch wait s) := by
  unfold execRefreshDue
  (try dsimp only)
  repeat' (first
    | refine Touches.res ?_
    | with_reducible exact Touches.refl _ _
    | ((with_reducible apply touches_State.live _ _ ?_); intro t; try dsimp only)
    | ((with_reducible apply Touches.stepBy 0x2000000006842 (touches_State.refreshDue _ _ _)); · decide)
    | ((intro t b); try dsimp only))

theorem touches_execRetrain (ch : Fin 32) (ok : Bool) (s : State) :
    TouchesRes (mEvent ||| mAct ||| mCtxs ||| mBillets ||| mPlan ||| mCnv ||| mCal ||| mDdc ||| mXfm ||| mTq ||| mBus ||| mDecs ||| mNet ||| mAve ||| mMem ||| mRst ||| mGlb) s (execRetrain ch ok s) := by
  unfold execRetrain
  (try dsimp only)
  repeat' (first
    | refine Touches.res ?_
    | with_reducible exact Touches.refl _ _
    | ((with_reducible apply Touches.stepBy 0x8a30a43a41e846 (touches_State.retrainCh _ _ _)); · decide)
    | ((with_reducible apply touches_State.live _ _ ?_); intro t; try dsimp only)
    | ((intro t b); try dsimp only))

theorem touches_execScrubRead (err : EccErr) (s : State) :
    TouchesRes (mEvent ||| mStore ||| mBadLines ||| mMem) s (execScrubRead err s) := by
  unfold execScrubRead
  (try dsimp only)
  repeat' (first
    | refine Touches.res ?_
    | with_reducible exact Touches.refl _ _
    | ((with_reducible apply touches_State.live _ _ ?_); intro t; try dsimp only)
    | ((with_reducible apply Touches.stepBy 0x2000000106c42 (touches_State.scrubRead _ _)); · decide)
    | ((intro t b); try dsimp only))

theorem touches_execMemUeSnap (v : Word) (s : State) :
    TouchesRes (mRegs ||| mStaged) s (execMemUeSnap v s) := by
  unfold execMemUeSnap
  (try dsimp only)
  repeat' (first
    | refine Touches.res ?_
    | with_reducible exact Touches.refl _ _
    | ((with_reducible apply touches_State.hostWr ?_ _ _ _ _ _ _ ?_); (· decide); intro v t; try dsimp only)
    | ((with_reducible apply Touches.stepBy 0x2 (touches_State.wrMemUeSnap _ _)); · decide)
    | ((intro t b); try dsimp only))

theorem touches_execCmpFlush (u : Fin 8) (v : Word) (s : State) :
    TouchesRes (mEvent ||| mStaged ||| mFreeCtr ||| mCtxs ||| mPorts ||| mCmp) s (execCmpFlush u v s) := by
  unfold execCmpFlush
  (try dsimp only)
  repeat' (first
    | refine Touches.res ?_
    | with_reducible exact Touches.refl _ _
    | ((with_reducible apply touches_State.hostWr ?_ _ _ _ _ _ _ ?_); (· decide); intro v t; try dsimp only)
    | ((with_reducible apply Touches.stepBy 0x2000000002ea42 (touches_State.wrCmpStream _ _ _)); · decide)
    | ((intro t b); try dsimp only))

theorem touches_execCmpStreamBlock (u : Fin 8) (s : State) :
    TouchesRes (mEvent ||| mFreeCtr ||| mCtxs ||| mPorts ||| mCmp) s (execCmpStreamBlock u s) := by
  unfold execCmpStreamBlock
  (try dsimp only)
  repeat' (first
    | refine Touches.res ?_
    | with_reducible exact Touches.refl _ _
    | ((with_reducible apply touches_State.live _ _ ?_); intro t; try dsimp only)
    | ((with_reducible apply touches_State.clocked _ _ ?_); intro t; try dsimp only)
    | ((with_reducible apply Touches.stepBy 0x2000000002ea42 (touches_State.cmpStep _ _)); · decide)
    | ((intro t b); try dsimp only))

theorem touches_execCmpDecodeRecord (u : Fin 8) (s : State) :
    TouchesRes (mEvent ||| mFreeCtr ||| mStore ||| mCtxs ||| mBillets ||| mPorts ||| mAside ||| mBadLines ||| mDdc ||| mXfm ||| mStreams ||| mLt ||| mAu ||| mReplay ||| mCmp) s (execCmpDecodeRecord u s) := by
  unfold execCmpDecodeRecord
  (try dsimp only)
  repeat' (first
    | refine Touches.res ?_
    | with_reducible exact Touches.refl _ _
    | ((with_reducible apply touches_State.live _ _ ?_); intro t; try dsimp only)
    | ((with_reducible apply touches_State.clocked _ _ ?_); intro t; try dsimp only)
    | ((with_reducible apply Touches.stepBy 0x2003087017ee42 (touches_State.cmpDecodeFeed _ _)); · decide)
    | ((intro t b); try dsimp only))

theorem touches_execCmpJobGo (u : Fin 8) (v : Word) (pre : Option (List Byte)) (s : State) :
    TouchesRes (mEvent ||| mStaged ||| mCmp) s (execCmpJobGo u v pre s) := by
  unfold execCmpJobGo
  (try dsimp only)
  repeat' (first
    | refine Touches.res ?_
    | with_reducible exact Touches.refl _ _
    | ((with_reducible apply touches_State.hostWr ?_ _ _ _ _ _ _ ?_); (· decide); intro v t; try dsimp only)
    | ((with_reducible apply Touches.stepBy 0x20000000006842 (touches_State.wrCmpJobCtrl _ _ _ _)); · decide)
    | ((intro t b); try dsimp only))

theorem touches_execCmpJobBlock (u : Fin 8) (data : Option (List Byte)) (s : State) :
    TouchesRes (mEvent ||| mFreeCtr ||| mCmp) s (execCmpJobBlock u data s) := by
  unfold execCmpJobBlock
  (try dsimp only)
  repeat' (first
    | refine Touches.res ?_
    | with_reducible exact Touches.refl _ _
    | ((with_reducible apply touches_State.live _ _ ?_); intro t; try dsimp only)
    | ((with_reducible apply Touches.stepBy 0x20000000006a42 (touches_State.jobBlock _ _ _)); · decide)
    | ((intro t b); try dsimp only))

theorem touches_execCmpJobResume (u : Fin 8) (v : Word) (s : State) :
    TouchesRes (mEvent ||| mStaged ||| mCmp) s (execCmpJobResume u v s) := by
  unfold execCmpJobResume
  (try dsimp only)
  repeat' (first
    | refine Touches.res ?_
    | with_reducible exact Touches.refl _ _
    | ((with_reducible apply touches_State.hostWr ?_ _ _ _ _ _ _ ?_); (· decide); intro v t; try dsimp only)
    | ((with_reducible apply Touches.stepBy 0x20000000006842 (touches_State.wrCmpJobCtrl _ _ _ _)); · decide)
    | ((intro t b); try dsimp only))

theorem touches_execCmpJobAbort (u : Fin 8) (v : Word) (s : State) :
    TouchesRes (mEvent ||| mStaged ||| mCmp) s (execCmpJobAbort u v s) := by
  unfold execCmpJobAbort
  (try dsimp only)
  repeat' (first
    | refine Touches.res ?_
    | with_reducible exact Touches.refl _ _
    | ((with_reducible apply touches_State.hostWr ?_ _ _ _ _ _ _ ?_); (· decide); intro v t; try dsimp only)
    | ((with_reducible apply Touches.stepBy 0x20000000006842 (touches_State.wrCmpJobCtrl _ _ _ _)); · decide)
    | ((intro t b); try dsimp only))

theorem touches_execCmpJobDone (u : Fin 8) (s : State) :
    TouchesRes (mEvent ||| mCmp) s (execCmpJobDone u s) := by
  unfold execCmpJobDone
  (try dsimp only)
  repeat' (first
    | refine Touches.res ?_
    | with_reducible exact Touches.refl _ _
    | ((with_reducible apply touches_State.live _ _ ?_); intro t; try dsimp only)
    | ((with_reducible apply Touches.stepBy 0x20000000006842 (touches_State.jobDone _ _)); · decide)
    | ((intro t b); try dsimp only))

/-! ### Machine/MonCmds.lean -/

theorem touches_State.monRise {m : Nat} (hm : (mRegs ||| mTq) &&& m = (mRegs ||| mTq)) (s : State) (i : Nat) (h : State → State)
    (k : ∀ t, Touches m t (h t)) : Touches m s (State.monRise s i h) := by
  unfold State.monRise
  dsimp only
  split
  · exact (k s).trans ((touches_State.trgMon _ i).mono hm)
  · exact k s

theorem touches_State.pgEdgeTrg (s : State) (g : Nat) :
    Touches (mRegs ||| mTime ||| mPg ||| mTq) s (State.pgEdgeTrg s g) := by
  unfold State.pgEdgeTrg
  (try dsimp only)
  repeat' (first
    | with_reducible exact Touches.refl _ _
    | ((with_reducible apply Touches.stepBy 0x400000002 (touches_State.trgPg _ _ _)); · decide)
    | ((with_reducible apply Touches.stepBy 0x4000082 (touches_State.pgEdge _ _)); · decide)
    | split)

theorem touches_execMonitorTrip (m : Fin 12) (v : Int) (s : State) :
    TouchesRes (mEvent ||| mPg ||| mTq) s (execMonitorTrip m v s) := by
  unfold execMonitorTrip
  (try dsimp only)
  repeat' (first
    | refine Touches.res ?_
    | with_reducible exact Touches.refl _ _
    | ((with_reducible apply touches_State.live _ _ ?_); intro t; try dsimp only)
    | ((with_reducible apply Touches.stepBy 0x4006842 (touches_State.monTrip _ _ _)); · decide)
    | ((with_reducible apply touches_State.monRise ?_ _ _ _ ?_); (· decide); intro t; try dsimp only)
    | ((intro t b); try dsimp only))

theorem touches_execMonSample (m : Fin 12) (v : Int) (s : State) :
    TouchesRes (mEvent ||| mPg ||| mTq) s (execMonSample m v s) := by
  unfold execMonSample
  (try dsimp only)
  repeat' (first
    | refine Touches.res ?_
    | with_reducible exact Touches.refl _ _
    | ((with_reducible apply touches_State.live _ _ ?_); intro t; try dsimp only)
    | ((with_reducible apply Touches.stepBy 0x4006842 (touches_State.monSample _ _ _)); · decide)
    | ((with_reducible apply touches_State.monRise ?_ _ _ _ ?_); (· decide); intro t; try dsimp only)
    | ((intro t b); try dsimp only))

theorem touches_execMonPeriodClear (m : Fin 12) (s : State) :
    TouchesRes (mRegs ||| mCnv) s (execMonPeriodClear m s) := by
  unfold execMonPeriodClear
  (try dsimp only)
  repeat' (first
    | refine Touches.res ?_
    | with_reducible exact Touches.refl _ _
    | ((with_reducible apply touches_State.live _ _ ?_); intro t; try dsimp only)
    | ((with_reducible apply Touches.stepBy 0x2000002 (touches_State.monPeriod _ _)); · decide)
    | ((intro t b); try dsimp only))

theorem touches_execMonLatchClear (m : Fin 12) (v : Word) (s : State) :
    TouchesRes (mRegs ||| mStaged ||| mCnv) s (execMonLatchClear m v s) := by
  unfold execMonLatchClear
  (try dsimp only)
  repeat' (first
    | refine Touches.res ?_
    | with_reducible exact Touches.refl _ _
    | ((with_reducible apply touches_State.hostWr ?_ _ _ _ _ _ _ ?_); (· decide); intro v t; try dsimp only)
    | ((with_reducible apply Touches.stepBy 0x2000002 (touches_State.wrMonStatus _ _ _)); · decide)
    | ((intro t b); try dsimp only))

theorem touches_execMonCfgWrite (m : Fin 12) (v : Word) (s : State) :
    TouchesRes (mRegs ||| mStaged ||| mCnv) s (execMonCfgWrite m v s) := by
  unfold execMonCfgWrite
  (try dsimp only)
  repeat' (first
    | refine Touches.res ?_
    | with_reducible exact Touches.refl _ _
    | ((with_reducible apply touches_State.hostWr ?_ _ _ _ _ _ _ ?_); (· decide); intro v t; try dsimp only)
    | ((with_reducible apply Touches.stepBy 0x2000002 (touches_State.wrMonCfg _ _ _)); · decide)
    | ((intro t b); try dsimp only))

theorem touches_execPgSwTrip (g : Fin 8) (v : Word) (s : State) :
    TouchesRes (mEvent ||| mStaged ||| mPg) s (execPgSwTrip g v s) := by
  unfold execPgSwTrip
  (try dsimp only)
  repeat' (first
    | refine Touches.res ?_
    | with_reducible exact Touches.refl _ _
    | ((with_reducible apply touches_State.hostWr ?_ _ _ _ _ _ _ ?_); (· decide); intro v t; try dsimp only)
    | ((with_reducible apply Touches.stepBy 0x4006842 (touches_State.wrPgCfg _ _ _)); · decide)
    | ((intro t b); try dsimp only))

theorem touches_execPgTripClear (g : Fin 8) (v : Word) (s : State) :
    TouchesRes (mRegs ||| mStaged) s (execPgTripClear g v s) := by
  unfold execPgTripClear
  (try dsimp only)
  repeat' (first
    | refine Touches.res ?_
    | with_reducible exact Touches.refl _ _
    | ((with_reducible apply touches_State.hostWr ?_ _ _ _ _ _ _ ?_); (· decide); intro v t; try dsimp only)
    | ((with_reducible apply Touches.stepBy 0x2 (touches_State.wrPgStatus _ _ _)); · decide)
    | ((intro t b); try dsimp only))

theorem touches_execPgSafeWrite (g : Fin 8) (v : Word) (s : State) :
    TouchesRes (mEvent ||| mStaged ||| mPg) s (execPgSafeWrite g v s) := by
  unfold execPgSafeWrite
  (try dsimp only)
  repeat' (first
    | refine Touches.res ?_
    | with_reducible exact Touches.refl _ _
    | ((with_reducible apply touches_State.hostWr ?_ _ _ _ _ _ _ ?_); (· decide); intro v t; try dsimp only)
    | ((with_reducible apply Touches.stepBy 0x4006842 (touches_State.wrPgCfg _ _ _)); · decide)
    | ((intro t b); try dsimp only))

theorem touches_execPgArm (g : Fin 8) (v : Word) (s : State) :
    TouchesRes (mEvent ||| mStaged ||| mPg) s (execPgArm g v s) := by
  unfold execPgArm
  (try dsimp only)
  repeat' (first
    | refine Touches.res ?_
    | with_reducible exact Touches.refl _ _
    | ((with_reducible apply touches_State.hostWr ?_ _ _ _ _ _ _ ?_); (· decide); intro v t; try dsimp only)
    | ((with_reducible apply Touches.stepBy 0x4006842 (touches_State.wrPgCfg _ _ _)); · decide)
    | ((intro t b); try dsimp only))

theorem touches_execPgScheduleCommit (g : Fin 8) (s : State) :
    TouchesRes (mEvent ||| mAct ||| mTime ||| mPg) s (execPgScheduleCommit g s) := by
  unfold execPgScheduleCommit
  (try dsimp only)
  repeat' (first
    | refine Touches.res ?_
    | with_reducible exact Touches.refl _ _
    | ((with_reducible apply touches_State.live _ _ ?_); intro t; try dsimp only)
    | ((with_reducible apply touches_State.clocked _ _ ?_); intro t; try dsimp only)
    | ((with_reducible apply Touches.stepBy 0x40068c6 (touches_State.pgCommit _ _)); · decide)
    | ((intro t b); try dsimp only))

theorem touches_execPgEdge (g : Fin 8) (s : State) :
    TouchesRes (mRegs ||| mTime ||| mPg ||| mTq) s (execPgEdge g s) := by
  unfold execPgEdge
  (try dsimp only)
  repeat' (first
    | refine Touches.res ?_
    | with_reducible exact Touches.refl _ _
    | ((with_reducible apply touches_State.live _ _ ?_); intro t; try dsimp only)
    | ((with_reducible apply Touches.stepBy 0x404000082 (touches_State.pgEdgeTrg _ _)); · decide)
    | ((intro t b); try dsimp only))

/-! ### Machine/NetCmds.lean -/

theorem touches_execNetPortCfgWrite (p : Fin 4) (v : Word) (s : State) :
    TouchesRes (mEvent ||| mStaged ||| mFreeCtr ||| mStore ||| mCtxs ||| mBillets ||| mBadLines ||| mNet ||| mAve) s (execNetPortCfgWrite p v s) := by
  unfold execNetPortCfgWrite
  (try dsimp only)
  repeat' (first
    | refine Touches.res ?_
    | with_reducible exact Touches.refl _ _
    | ((with_reducible apply touches_State.hostWr ?_ _ _ _ _ _ _ ?_); (· decide); intro v t; try dsimp only)
    | ((with_reducible apply Touches.stepBy 0x30000011ee42 (touches_State.wrPortCfg _ _ _)); · decide)
    | ((intro t b); try dsimp only))

theorem touches_execNetLinkUp (i : Fin 16) (s : State) :
    TouchesRes (mEvent ||| mAve) s (execNetLinkUp i s) := by
  unfold execNetLinkUp
  (try dsimp only)
  repeat' (first
    | refine Touches.res ?_
    | with_reducible exact Touches.refl _ _
    | ((with_reducible apply touches_State.live _ _ ?_); intro t; try dsimp only)
    | ((with_reducible apply Touches.stepBy 0x200000006842 (touches_State.netUp _ _)); · decide)
    | ((intro t b); try dsimp only))

theorem touches_execNetLinkLoss (i : Fin 16) (s : State) :
    TouchesRes (mEvent ||| mNet) s (execNetLinkLoss i s) := by
  unfold execNetLinkLoss
  (try dsimp only)
  repeat' (first
    | refine Touches.res ?_
    | with_reducible exact Touches.refl _ _
    | ((with_reducible apply touches_State.live _ _ ?_); intro t; try dsimp only)
    | ((with_reducible apply Touches.stepBy 0x100000006842 (touches_State.netDown _ _)); · decide)
    | ((intro t b); try dsimp only))

theorem touches_execNetFrameRx (i : Fin 16) (f : NetFrame) (s : State) :
    TouchesRes (mEvent ||| mFreeCtr ||| mStore ||| mCtxs ||| mBillets ||| mPorts ||| mServed ||| mBadLines ||| mTq ||| mNet ||| mAve ||| mSlots) s (execNetFrameRx i f s) := by
  unfold execNetFrameRx
  (try dsimp only)
  repeat' (first
    | refine Touches.res ?_
    | with_reducible exact Touches.refl _ _
    | ((with_reducible apply touches_State.live _ _ ?_); intro t; try dsimp only)
    | ((with_reducible apply Touches.stepBy 0x7004001bee42 (touches_State.netRx _ _ _)); · decide)
    | ((intro t b); try dsimp only))

theorem touches_execPauseFrameRx (i : Fin 16) (q : Fin 65536) (pfc : Option (List (Fin 8 × Fin 65536))) (s : State) :
    TouchesRes (mRegs ||| mOuts ||| mNet) s (execPauseFrameRx i q pfc s) := by
  unfold execPauseFrameRx
  (try dsimp only)
  repeat' (first
    | refine Touches.res ?_
    | with_reducible exact Touches.refl _ _
    | ((with_reducible apply touches_State.live _ _ ?_); intro t; try dsimp only)
    | ((with_reducible apply Touches.stepBy 0x100000000042 (touches_State.pauseRx _ _ _ _)); · decide)
    | ((intro t b); try dsimp only))

theorem touches_execPauseExpiry (i : Fin 16) (s : State) :
    TouchesRes (mRegs ||| mOuts ||| mTime ||| mNet) s (execPauseExpiry i s) := by
  unfold execPauseExpiry
  (try dsimp only)
  repeat' (first
    | refine Touches.res ?_
    | with_reducible exact Touches.refl _ _
    | ((with_reducible apply touches_State.live _ _ ?_); intro t; try dsimp only)
    | ((with_reducible apply Touches.stepBy 0x1000000000c2 (touches_State.pauseExpire _ _)); · decide)
    | ((intro t b); try dsimp only))

theorem touches_execExqRxRelease (i : Fin 16) (v : Word) (s : State) :
    TouchesRes (mRegs ||| mStaged) s (execExqRxRelease i v s) := by
  unfold execExqRxRelease
  (try dsimp only)
  repeat' (first
    | refine Touches.res ?_
    | with_reducible exact Touches.refl _ _
    | ((with_reducible apply touches_State.hostWr ?_ _ _ _ _ _ _ ?_); (· decide); intro v t; try dsimp only)
    | ((with_reducible apply Touches.stepBy 0x2 (touches_State.wrExqRxIdx _ _ _)); · decide)
    | ((intro t b); try dsimp only))

theorem touches_execExqTxTail (i : Fin 16) (v : Word) (s : State) :
    TouchesRes (mRegs ||| mStaged) s (execExqTxTail i v s) := by
  unfold execExqTxTail
  (try dsimp only)
  repeat' (first
    | refine Touches.res ?_
    | with_reducible exact Touches.refl _ _
    | ((with_reducible apply touches_State.hostWr ?_ _ _ _ _ _ _ ?_); (· decide); intro v t; try dsimp only)
    | ((with_reducible apply Touches.stepBy 0x2 (touches_State.wrExqTxIdx _ _ _)); · decide)
    | ((intro t b); try dsimp only))

theorem touches_execExqTxSend (i : Fin 16) (desc data : HostRead) (fine : Fin 512) (s : State) :
    TouchesRes (mRegs ||| mOuts ||| mHostMem ||| mNet) s (execExqTxSend i desc data fine s) := by
  unfold execExqTxSend
  (try dsimp only)
  repeat' (first
    | refine Touches.res ?_
    | with_reducible exact Touches.refl _ _
    | ((with_reducible apply touches_State.live _ _ ?_); intro t; try dsimp only)
    | ((with_reducible apply Touches.stepBy 0x100000000842 (touches_State.exqSend _ _ _ _ _)); · decide)
    | ((intro t b); try dsimp only))

theorem touches_execAveCmdOpen (a : Fin 4096) (v : Word) (s : State) :
    TouchesRes (mRegs ||| mStaged ||| mOuts ||| mFreeCtr ||| mCtxs ||| mBillets ||| mNet ||| mAve) s (execAveCmdOpen a v s) := by
  unfold execAveCmdOpen
  (try dsimp only)
  repeat' (first
    | refine Touches.res ?_
    | with_reducible exact Touches.refl _ _
    | ((with_reducible apply touches_State.hostWr ?_ _ _ _ _ _ _ ?_); (· decide); intro v t; try dsimp only)
    | ((with_reducible apply Touches.stepBy 0x300000018242 (touches_State.wrAveCmd _ _ _)); · decide)
    | ((intro t b); try dsimp only))

theorem touches_execAveCmdClose (a : Fin 4096) (v : Word) (s : State) :
    TouchesRes (mRegs ||| mStaged ||| mOuts ||| mFreeCtr ||| mCtxs ||| mBillets ||| mNet ||| mAve) s (execAveCmdClose a v s) := by
  unfold execAveCmdClose
  (try dsimp only)
  repeat' (first
    | refine Touches.res ?_
    | with_reducible exact Touches.refl _ _
    | ((with_reducible apply touches_State.hostWr ?_ _ _ _ _ _ _ ?_); (· decide); intro v t; try dsimp only)
    | ((with_reducible apply Touches.stepBy 0x300000018242 (touches_State.wrAveCmd _ _ _)); · decide)
    | ((intro t b); try dsimp only))

theorem touches_execAveCmdReset (a : Fin 4096) (v : Word) (s : State) :
    TouchesRes (mRegs ||| mStaged ||| mOuts ||| mFreeCtr ||| mCtxs ||| mBillets ||| mNet ||| mAve) s (execAveCmdReset a v s) := by
  unfold execAveCmdReset
  (try dsimp only)
  repeat' (first
    | refine Touches.res ?_
    | with_reducible exact Touches.refl _ _
    | ((with_reducible apply touches_State.hostWr ?_ _ _ _ _ _ _ ?_); (· decide); intro v t; try dsimp only)
    | ((with_reducible apply Touches.stepBy 0x300000018242 (touches_State.wrAveCmd _ _ _)); · decide)
    | ((intro t b); try dsimp only))

theorem touches_execAveCmdSkip (a : Fin 4096) (v : Word) (s : State) :
    TouchesRes (mRegs ||| mStaged ||| mOuts ||| mFreeCtr ||| mCtxs ||| mBillets ||| mNet ||| mAve) s (execAveCmdSkip a v s) := by
  unfold execAveCmdSkip
  (try dsimp only)
  repeat' (first
    | refine Touches.res ?_
    | with_reducible exact Touches.refl _ _
    | ((with_reducible apply touches_State.hostWr ?_ _ _ _ _ _ _ ?_); (· decide); intro v t; try dsimp only)
    | ((with_reducible apply Touches.stepBy 0x300000018242 (touches_State.wrAveCmd _ _ _)); · decide)
    | ((intro t b); try dsimp only))

theorem touches_State.packetIn (s : State) (i : Nat) (ty : Nat) (p : AvePkt) :
    Touches (mEvent ||| mFreeCtr ||| mStore ||| mCtxs ||| mBillets ||| mPorts ||| mServed ||| mBadLines ||| mTq ||| mNet ||| mAve ||| mSlots) s (State.packetIn s i ty p) := by
  unfold State.packetIn
  (try dsimp only)
  repeat' (first
    | with_reducible exact Touches.refl _ _
    | ((with_reducible apply Touches.stepBy 0x7004001bee42 (touches_State.aveRx _ _ _)); · decide)
    | split)

theorem touches_execOpen (i : Fin 16) (p : AvePkt) (s : State) :
    TouchesRes (mEvent ||| mFreeCtr ||| mStore ||| mCtxs ||| mBillets ||| mPorts ||| mServed ||| mBadLines ||| mTq ||| mNet ||| mAve ||| mSlots) s (execOpen i p s) := by
  unfold execOpen
  (try dsimp only)
  repeat' (first
    | refine Touches.res ?_
    | with_reducible exact Touches.refl _ _
    | ((with_reducible apply touches_State.live _ _ ?_); intro t; try dsimp only)
    | ((with_reducible apply Touches.stepBy 0x7004001bee42 (touches_State.packetIn _ _ _ _)); · decide)
    | ((intro t b); try dsimp only))

theorem touches_execOpenAck (i : Fin 16) (p : AvePkt) (s : State) :
    TouchesRes (mEvent ||| mFreeCtr ||| mStore ||| mCtxs ||| mBillets ||| mPorts ||| mServed ||| mBadLines ||| mTq ||| mNet ||| mAve ||| mSlots) s (execOpenAck i p s) := by
  unfold execOpenAck
  (try dsimp only)
  repeat' (first
    | refine Touches.res ?_
    | with_reducible exact Touches.refl _ _
    | ((with_reducible apply touches_State.live _ _ ?_); intro t; try dsimp only)
    | ((with_reducible apply Touches.stepBy 0x7004001bee42 (touches_State.packetIn _ _ _ _)); · decide)
    | ((intro t b); try dsimp only))

theorem touches_execData (i : Fin 16) (p : AvePkt) (s : State) :
    TouchesRes (mEvent ||| mFreeCtr ||| mStore ||| mCtxs ||| mBillets ||| mPorts ||| mServed ||| mBadLines ||| mTq ||| mNet ||| mAve ||| mSlots) s (execData i p s) := by
  unfold execData
  (try dsimp only)
  repeat' (first
    | refine Touches.res ?_
    | with_reducible exact Touches.refl _ _
    | ((with_reducible apply touches_State.live _ _ ?_); intro t; try dsimp only)
    | ((with_reducible apply Touches.stepBy 0x7004001bee42 (touches_State.packetIn _ _ _ _)); · decide)
    | ((intro t b); try dsimp only))

theorem touches_execAck (i : Fin 16) (p : AvePkt) (s : State) :
    TouchesRes (mEvent ||| mFreeCtr ||| mStore ||| mCtxs ||| mBillets ||| mPorts ||| mServed ||| mBadLines ||| mTq ||| mNet ||| mAve ||| mSlots) s (execAck i p s) := by
  unfold execAck
  (try dsimp only)
  repeat' (first
    | refine Touches.res ?_
    | with_reducible exact Touches.refl _ _
    | ((with_reducible apply touches_State.live _ _ ?_); intro t; try dsimp only)
    | ((with_reducible apply Touches.stepBy 0x7004001bee42 (touches_State.packetIn _ _ _ _)); · decide)
    | ((intro t b); try dsimp only))

theorem touches_execNak (i : Fin 16) (p : AvePkt) (s : State) :
    TouchesRes (mEvent ||| mFreeCtr ||| mStore ||| mCtxs ||| mBillets ||| mPorts ||| mServed ||| mBadLines ||| mTq ||| mNet ||| mAve ||| mSlots) s (execNak i p s) := by
  unfold execNak
  (try dsimp only)
  repeat' (first
    | refine Touches.res ?_
    | with_reducible exact Touches.refl _ _
    | ((with_reducible apply touches_State.live _ _ ?_); intro t; try dsimp only)
    | ((with_reducible apply Touches.stepBy 0x7004001bee42 (touches_State.packetIn _ _ _ _)); · decide)
    | ((intro t b); try dsimp only))

theorem touches_execClose (i : Fin 16) (p : AvePkt) (s : State) :
    TouchesRes (mEvent ||| mFreeCtr ||| mStore ||| mCtxs ||| mBillets ||| mPorts ||| mServed ||| mBadLines ||| mTq ||| mNet ||| mAve ||| mSlots) s (execClose i p s) := by
  unfold execClose
  (try dsimp only)
  repeat' (first
    | refine Touches.res ?_
    | with_reducible exact Touches.refl _ _
    | ((with_reducible apply touches_State.live _ _ ?_); intro t; try dsimp only)
    | ((with_reducible apply Touches.stepBy 0x7004001bee42 (touches_State.packetIn _ _ _ _)); · decide)
    | ((intro t b); try dsimp only))

theorem touches_execCloseAck (i : Fin 16) (p : AvePkt) (s : State) :
    TouchesRes (mEvent ||| mFreeCtr ||| mStore ||| mCtxs ||| mBillets ||| mPorts ||| mServed ||| mBadLines ||| mTq ||| mNet ||| mAve ||| mSlots) s (execCloseAck i p s) := by
  unfold execCloseAck
  (try dsimp only)
  repeat' (first
    | refine Touches.res ?_
    | with_reducible exact Touches.refl _ _
    | ((with_reducible apply touches_State.live _ _ ?_); intro t; try dsimp only)
    | ((with_reducible apply Touches.stepBy 0x7004001bee42 (touches_State.packetIn _ _ _ _)); · decide)
    | ((intro t b); try dsimp only))

theorem touches_execTrigger (i : Fin 16) (p : AvePkt) (s : State) :
    TouchesRes (mEvent ||| mFreeCtr ||| mStore ||| mCtxs ||| mBillets ||| mPorts ||| mServed ||| mBadLines ||| mTq ||| mNet ||| mAve ||| mSlots) s (execTrigger i p s) := by
  unfold execTrigger
  (try dsimp only)
  repeat' (first
    | refine Touches.res ?_
    | with_reducible exact Touches.refl _ _
    | ((with_reducible apply touches_State.live _ _ ?_); intro t; try dsimp only)
    | ((with_reducible apply Touches.stepBy 0x7004001bee42 (touches_State.packetIn _ _ _ _)); · decide)
    | ((intro t b); try dsimp only))

theorem touches_execTrigAck (i : Fin 16) (p : AvePkt) (s : State) :
    TouchesRes (mEvent ||| mFreeCtr ||| mStore ||| mCtxs ||| mBillets ||| mPorts ||| mServed ||| mBadLines ||| mTq ||| mNet ||| mAve ||| mSlots) s (execTrigAck i p s) := by
  unfold execTrigAck
  (try dsimp only)
  repeat' (first
    | refine Touches.res ?_
    | with_reducible exact Touches.refl _ _
    | ((with_reducible apply touches_State.live _ _ ?_); intro t; try dsimp only)
    | ((with_reducible apply Touches.stepBy 0x7004001bee42 (touches_State.packetIn _ _ _ _)); · decide)
    | ((intro t b); try dsimp only))

theorem touches_execAveDataSend (i : Fin 16) (s : State) :
    TouchesRes (mRegs ||| mOuts ||| mCtxs ||| mServed ||| mNet ||| mAve) s (execAveDataSend i s) := by
  unfold execAveDataSend
  (try dsimp only)
  repeat' (first
    | refine Touches.res ?_
    | with_reducible exact Touches.refl _ _
    | ((with_reducible apply touches_State.live _ _ ?_); intro t; try dsimp only)
    | ((with_reducible apply Touches.stepBy 0x300000088042 (touches_State.aveServe _ _)); · decide)
    | ((intro t b); try dsimp only))

theorem touches_execAveRtoExpiry (a : Fin 4096) (s : State) :
    TouchesRes (mEvent ||| mTime ||| mFreeCtr ||| mStore ||| mCtxs ||| mBillets ||| mServed ||| mBadLines ||| mNet ||| mAve) s (execAveRtoExpiry a s) := by
  unfold execAveRtoExpiry
  (try dsimp only)
  repeat' (first
    | refine Touches.res ?_
    | with_reducible exact Touches.refl _ _
    | ((with_reducible apply touches_State.live _ _ ?_); intro t; try dsimp only)
    | ((with_reducible apply Touches.stepBy 0x30000019eec2 (touches_State.aveRto _ _)); · decide)
    | ((intro t b); try dsimp only))

theorem touches_execAveAckTimer (a : Fin 4096) (s : State) :
    TouchesRes (mRegs ||| mOuts ||| mTime ||| mNet ||| mAve) s (execAveAckTimer a s) := by
  unfold execAveAckTimer
  (try dsimp only)
  repeat' (first
    | refine Touches.res ?_
    | with_reducible exact Touches.refl _ _
    | ((with_reducible apply touches_State.live _ _ ?_); intro t; try dsimp only)
    | ((with_reducible apply Touches.stepBy 0x3000000000c2 (touches_State.aveAckTimer _ _)); · decide)
    | ((intro t b); try dsimp only))

theorem touches_execAveIdleAck (a : Fin 4096) (s : State) :
    TouchesRes (mRegs ||| mOuts ||| mTime ||| mNet ||| mAve) s (execAveIdleAck a s) := by
  unfold execAveIdleAck
  (try dsimp only)
  repeat' (first
    | refine Touches.res ?_
    | with_reducible exact Touches.refl _ _
    | ((with_reducible apply touches_State.live _ _ ?_); intro t; try dsimp only)
    | ((with_reducible apply Touches.stepBy 0x3000000000c2 (touches_State.aveIdleAck _ _)); · decide)
    | ((intro t b); try dsimp only))

theorem touches_execAveDeadExpiry (a : Fin 4096) (s : State) :
    TouchesRes (mEvent ||| mTime ||| mFreeCtr ||| mStore ||| mCtxs ||| mBillets ||| mBadLines ||| mAve) s (execAveDeadExpiry a s) := by
  unfold execAveDeadExpiry
  (try dsimp only)
  repeat' (first
    | refine Touches.res ?_
    | with_reducible exact Touches.refl _ _
    | ((with_reducible apply touches_State.live _ _ ?_); intro t; try dsimp only)
    | ((with_reducible apply Touches.stepBy 0x20000011eec2 (touches_State.aveDead _ _)); · decide)
    | ((intro t b); try dsimp only))

theorem touches_execAveQuarantineEnd (a : Fin 4096) (s : State) :
    TouchesRes (mRegs ||| mTime ||| mAve) s (execAveQuarantineEnd a s) := by
  unfold execAveQuarantineEnd
  (try dsimp only)
  repeat' (first
    | refine Touches.res ?_
    | with_reducible exact Touches.refl _ _
    | ((with_reducible apply touches_State.live _ _ ?_); intro t; try dsimp only)
    | ((with_reducible apply Touches.stepBy 0x200000000082 (touches_State.aveQuarEnd _ _)); · decide)
    | ((intro t b); try dsimp only))

theorem touches_execAveSnap (a : Fin 4096) (v : Word) (s : State) :
    TouchesRes (mRegs ||| mStaged) s (execAveSnap a v s) := by
  unfold execAveSnap
  (try dsimp only)
  repeat' (first
    | refine Touches.res ?_
    | with_reducible exact Touches.refl _ _
    | ((with_reducible apply touches_State.hostWr ?_ _ _ _ _ _ _ ?_); (· decide); intro v t; try dsimp only)
    | ((with_reducible apply Touches.stepBy 0x2 (touches_State.wrAveSnap _ _ _)); · decide)
    | ((intro t b); try dsimp only))

theorem touches_execTrigSendGo (v : Word) (s : State) :
    TouchesRes (mRegs ||| mStaged ||| mOuts ||| mNet ||| mAve) s (execTrigSendGo v s) := by
  unfold execTrigSendGo
  (try dsimp only)
  repeat' (first
    | refine Touches.res ?_
    | with_reducible exact Touches.refl _ _
    | ((with_reducible apply touches_State.hostWr ?_ _ _ _ _ _ _ ?_); (· decide); intro v t; try dsimp only)
    | ((with_reducible apply Touches.stepBy 0x300000000042 (touches_State.wrTrigSend _ _)); · decide)
    | ((intro t b); try dsimp only))

theorem touches_execTrigResend (a : Fin 4096) (s : State) :
    TouchesRes (mRegs ||| mOuts ||| mTime ||| mNet ||| mAve) s (execTrigResend a s) := by
  unfold execTrigResend
  (try dsimp only)
  repeat' (first
    | refine Touches.res ?_
    | with_reducible exact Touches.refl _ _
    | ((with_reducible apply touches_State.live _ _ ?_); intro t; try dsimp only)
    | ((with_reducible apply Touches.stepBy 0x3000000000c2 (touches_State.trigResend _ _)); · decide)
    | ((intro t b); try dsimp only))

theorem touches_execTrigMessageRelease (k : Fin 4) (s : State) :
    TouchesRes (mRegs ||| mTime ||| mTq ||| mSlots) s (execTrigMessageRelease k s) := by
  unfold execTrigMessageRelease
  (try dsimp only)
  repeat' (first
    | refine Touches.res ?_
    | with_reducible exact Touches.refl _ _
    | ((with_reducible apply touches_State.live _ _ ?_); intro t; try dsimp only)
    | ((with_reducible apply Touches.stepBy 0x400400000082 (touches_State.slotDue _ _)); · decide)
    | ((intro t b); try dsimp only))

/-! ### Machine/PkgCmds.lean -/

theorem touches_execRailLow (r : Fin 11) (mv : Fin 65536) (s : State) :
    TouchesRes mEvent s (execRailLow r mv s) := by
  unfold execRailLow
  (try dsimp only)
  repeat' (first
    | refine Touches.res ?_
    | with_reducible exact Touches.refl _ _
    | ((with_reducible apply Touches.stepBy 0x6842 (touches_State.railLow _ _ _)); · decide)
    | ((with_reducible apply touches_State.live _ _ ?_); intro t; try dsimp only)
    | ((intro t b); try dsimp only))

theorem touches_execRailHigh (r : Fin 11) (mv : Fin 65536) (s : State) :
    TouchesRes mEvent s (execRailHigh r mv s) := by
  unfold execRailHigh
  (try dsimp only)
  repeat' (first
    | refine Touches.res ?_
    | with_reducible exact Touches.refl _ _
    | ((with_reducible apply Touches.stepBy 0x6842 (touches_State.railHigh _ _ _)); · decide)
    | ((with_reducible apply touches_State.live _ _ ?_); intro t; try dsimp only)
    | ((intro t b); try dsimp only))

theorem touches_execRailRecovered (r : Fin 11) (within : Bool) (s : State) :
    TouchesRes (mRegs ||| mStk ||| mPkg ||| mGlb) s (execRailRecovered r within s) := by
  unfold execRailRecovered
  (try dsimp only)
  repeat' (first
    | refine Touches.res ?_
    | with_reducible exact Touches.refl _ _
    | ((with_reducible apply Touches.stepBy 0xd0000000000002 (touches_State.railRecovered _ _ _)); · decide))

theorem touches_execThmSensorUpdate (temps : List Int) (rails : List (Nat × Nat)) (s : State) :
    TouchesRes (mEvent ||| mCnv ||| mNet ||| mPkg ||| mGlb) s (execThmSensorUpdate temps rails s) := by
  unfold execThmSensorUpdate
  (try dsimp only)
  repeat' (first
    | refine Touches.res ?_
    | with_reducible exact Touches.refl _ _
    | ((with_reducible apply Touches.stepBy 0xc0100002006842 (touches_State.thmUpdate _ _ _)); · decide)
    | ((with_reducible apply touches_State.live _ _ ?_); intro t; try dsimp only)
    | ((intro t b); try dsimp only))

theorem touches_execCnvStbyWrite (v : Word) (s : State) :
    TouchesRes (mEvent ||| mStaged) s (execCnvStbyWrite v s) := by
  unfold execCnvStbyWrite
  (try dsimp only)
  repeat' (first
    | refine Touches.res ?_
    | with_reducible exact Touches.refl _ _
    | ((with_reducible apply touches_State.hostWr ?_ _ _ _ _ _ _ ?_); (· decide); intro v t; try dsimp only)
    | ((with_reducible apply Touches.stepBy 0x6842 (touches_State.wrPwrCtrl _ _)); · decide)
    | ((intro t b); try dsimp only))

theorem touches_execSrEnWrite (v : Word) (s : State) :
    TouchesRes (mEvent ||| mStaged) s (execSrEnWrite v s) := by
  unfold execSrEnWrite
  (try dsimp only)
  repeat' (first
    | refine Touches.res ?_
    | with_reducible exact Touches.refl _ _
    | ((with_reducible apply touches_State.hostWr ?_ _ _ _ _ _ _ ?_); (· decide); intro v t; try dsimp only)
    | ((with_reducible apply Touches.stepBy 0x6842 (touches_State.wrPwrCtrl _ _)); · decide)
    | ((intro t b); try dsimp only))

theorem touches_execSelfRefreshEntry (s : State) :
    TouchesRes mEvent s (execSelfRefreshEntry s) := by
  unfold execSelfRefreshEntry
  (try dsimp only)
  repeat' (first
    | refine Touches.res ?_
    | with_reducible exact Touches.refl _ _
    | ((with_reducible apply Touches.stepBy 0x6842 (touches_State.srEnter _)); · decide)
    | ((with_reducible apply touches_State.live _ _ ?_); intro t; try dsimp only)
    | ((intro t b); try dsimp only))

theorem touches_State.smbCmd {m : Nat} (hm : (mEvent ||| mPkg) &&& m = (mEvent ||| mPkg)) (s : State) (wrongPec : Bool) (len n : Nat) (h : State → State)
    (k : ∀ t, Touches m t (h t)) : Touches m s (State.smbCmd s wrongPec len n h) := by
  unfold State.smbCmd
  split
  · exact Touches.refl _ _
  · dsimp only
    split
    · refine Touches.mono (m := (mEvent ||| mPkg)) ?_ hm
      refine Touches.stepBy mPkg (touches_State.updPkg _ _) (by decide) ?_
      refine Touches.stepBy mEvent (touches_State.raiseLim _ _ _ _ _ _ _) (by decide) ?_
      exact (touches_State.addSat_hi _ _ _ _ (by decide)).mono (by decide)
    · exact (((touches_State.updPkg s _).mono (m' := (mEvent ||| mPkg)) (by decide)).mono hm).trans (k _)

theorem touches_execSmbSetOffset (bytes : List Byte) (wrongPec : Bool) (s : State) :
    TouchesRes (mEvent ||| mPkg) s (execSmbSetOffset bytes wrongPec s) := by
  unfold execSmbSetOffset
  (try dsimp only)
  repeat' (first
    | refine Touches.res ?_
    | with_reducible exact Touches.refl _ _
    | ((with_reducible apply touches_State.smbCmd ?_ _ _ _ _ _ ?_); (· decide); intro t; try dsimp only)
    | ((with_reducible apply Touches.stepBy 0x40000000000000 (touches_State.updPkg _ _)); · decide)
    | ((intro t b); try dsimp only)
    | split)

theorem touches_execSmbRead (s : State) :
    TouchesRes (mEvent ||| mSnap ||| mReadData ||| mPkg) s (execSmbRead s) := by
  unfold execSmbRead
  (try dsimp only)
  repeat' (first
    | refine Touches.res ?_
    | with_reducible exact Touches.refl _ _
    | ((with_reducible apply Touches.stepBy 0x686a (touches_State.halfRead _ _ _ _ _)); · decide)
    | ((with_reducible apply touches_State.smbCmd ?_ _ _ _ _ _ ?_); (· decide); intro t; try dsimp only)
    | ((with_reducible apply Touches.stepBy 0x40000000000000 (touches_State.updPkg _ _)); · decide)
    | ((with_reducible apply Touches.stepBy 0x40 (touches_State.send _ _)); · decide)
    | ((intro t b); try dsimp only))

theorem touches_execSmbWrite (bytes : List Byte) (wrongPec : Bool) (env : Env) (s : State) :
    TouchesRes 0xfc35a77ff7ffd6 s (execSmbWrite bytes wrongPec env s) := by
  unfold execSmbWrite
  (try dsimp only)
  repeat' (first
    | refine Touches.res ?_
    | with_reducible exact Touches.refl _ _
    | ((with_reducible apply Touches.stepBy 0xfc35a77ff7ffd6 (touches_State.halfWrite _ _ _ _ _ _ _)); · decide)
    | ((with_reducible apply touches_State.smbCmd ?_ _ _ _ _ _ ?_); (· decide); intro t; try dsimp only)
    | ((with_reducible apply Touches.stepBy 0x40000000000000 (touches_State.updPkg _ _)); · decide)
    | ((intro t b); try dsimp only))

theorem touches_execSmbStatus (s : State) :
    TouchesRes mOuts s (execSmbStatus s) := by
  unfold execSmbStatus
  (try dsimp only)
  repeat' (first
    | refine Touches.res ?_
    | with_reducible exact Touches.refl _ _
    | ((with_reducible apply Touches.stepBy 0x40 (touches_State.send _ _)); · decide)
    | split)

theorem touches_execMgtSmbLock (v : Word) (s : State) :
    TouchesRes (mRegs ||| mStaged) s (execMgtSmbLock v s) := by
  unfold execMgtSmbLock
  (try dsimp only)
  repeat' (first
    | refine Touches.res ?_
    | with_reducible exact Touches.refl _ _
    | ((with_reducible apply touches_State.hostWr ?_ _ _ _ _ _ _ ?_); (· decide); intro v t; try dsimp only)
    | ((with_reducible apply Touches.stepBy 0x2 (touches_State.wrMgtSmb _ _ _)); · decide)
    | ((intro t b); try dsimp only))

theorem touches_execIdcode (s : State) :
    TouchesRes (mOuts ||| mPkg) s (execIdcode s) := by
  unfold execIdcode
  (try dsimp only)
  repeat' (first
    | refine Touches.res ?_
    | with_reducible exact Touches.refl _ _
    | ((with_reducible apply Touches.stepBy 0x40000000000000 (touches_State.tapIr _ _)); · decide)
    | ((with_reducible apply Touches.stepBy 0x40 (touches_State.send _ _)); · decide))

theorem touches_execSamplePreload (capture : Bool) (bits : List Bool) (s : State) :
    TouchesRes (mOuts ||| mPkg) s (execSamplePreload capture bits s) := by
  unfold execSamplePreload
  (try dsimp only)
  repeat' (first
    | refine Touches.res ?_
    | with_reducible exact Touches.refl _ _
    | ((with_reducible apply Touches.stepBy 0x40000000000000 (touches_State.tapCells _ _)); · decide)
    | ((with_reducible apply Touches.stepBy 0x40000000000000 (touches_State.tapIr _ _)); · decide)
    | ((with_reducible apply Touches.stepBy 0x40 (touches_State.send _ _)); · decide)
    | split)

theorem touches_execExtest (s : State) :
    TouchesRes (mOuts ||| mPkg) s (execExtest s) := by
  unfold execExtest
  (try dsimp only)
  repeat' (first
    | refine Touches.res ?_
    | with_reducible exact Touches.refl _ _
    | ((with_reducible apply Touches.stepBy 0x40000000000000 (touches_State.tapTake _)); · decide)
    | ((with_reducible apply Touches.stepBy 0x40000000000000 (touches_State.tapIr _ _)); · decide)
    | ((with_reducible apply Touches.stepBy 0x40 (touches_State.send _ _)); · decide))

theorem touches_execClamp (s : State) :
    TouchesRes (mOuts ||| mPkg) s (execClamp s) := by
  unfold execClamp
  (try dsimp only)
  repeat' (first
    | refine Touches.res ?_
    | with_reducible exact Touches.refl _ _
    | ((with_reducible apply Touches.stepBy 0x40000000000000 (touches_State.tapTake _)); · decide)
    | ((with_reducible apply Touches.stepBy 0x40000000000000 (touches_State.tapIr _ _)); · decide)
    | ((with_reducible apply Touches.stepBy 0x40 (touches_State.send _ _)); · decide))

theorem touches_execHighz (s : State) :
    TouchesRes (mOuts ||| mPkg) s (execHighz s) := by
  unfold execHighz
  (try dsimp only)
  repeat' (first
    | refine Touches.res ?_
    | with_reducible exact Touches.refl _ _
    | ((with_reducible apply Touches.stepBy 0x40000000000000 (touches_State.tapTake _)); · decide)
    | ((with_reducible apply Touches.stepBy 0x40000000000000 (touches_State.tapIr _ _)); · decide)
    | ((with_reducible apply Touches.stepBy 0x40 (touches_State.send _ _)); · decide))

theorem touches_execExtestPulse (s : State) :
    TouchesRes (mOuts ||| mPkg) s (execExtestPulse s) := by
  unfold execExtestPulse
  (try dsimp only)
  repeat' (first
    | refine Touches.res ?_
    | with_reducible exact Touches.refl _ _
    | ((with_reducible apply Touches.stepBy 0x40000000000000 (touches_State.tapTake _)); · decide)
    | ((with_reducible apply Touches.stepBy 0x40000000000000 (touches_State.tapIr _ _)); · decide)
    | ((with_reducible apply Touches.stepBy 0x40 (touches_State.send _ _)); · decide))

theorem touches_execExtestTrain (s : State) :
    TouchesRes (mOuts ||| mPkg) s (execExtestTrain s) := by
  unfold execExtestTrain
  (try dsimp only)
  repeat' (first
    | refine Touches.res ?_
    | with_reducible exact Touches.refl _ _
    | ((with_reducible apply Touches.stepBy 0x40000000000000 (touches_State.tapTake _)); · decide)
    | ((with_reducible apply Touches.stepBy 0x40000000000000 (touches_State.tapIr _ _)); · decide)
    | ((with_reducible apply Touches.stepBy 0x40 (touches_State.send _ _)); · decide))

theorem touches_execBypass (s : State) :
    TouchesRes mPkg s (execBypass s) := by
  unfold execBypass
  (try dsimp only)
  repeat' (first
    | refine Touches.res ?_
    | with_reducible exact Touches.refl _ _
    | ((with_reducible apply Touches.stepBy 0x40000000000000 (touches_State.tapIr _ _)); · decide))

theorem touches_execTapReset (s : State) :
    TouchesRes mPkg s (execTapReset s) := by
  unfold execTapReset
  (try dsimp only)
  repeat' (first
    | refine Touches.res ?_
    | with_reducible exact Touches.refl _ _
    | ((with_reducible apply Touches.stepBy 0x40000000000000 (touches_State.tapIr _ _)); · decide))

/-! ### Machine/PlanCmds.lean -/

theorem touches_execPlanLoad (v : Word) (s : State) :
    TouchesRes (mEvent ||| mStaged ||| mPlan) s (execPlanLoad v s) := by
  unfold execPlanLoad
  (try dsimp only)
  repeat' (first
    | refine Touches.res ?_
    | with_reducible exact Touches.refl _ _
    | ((with_reducible apply touches_State.hostWr ?_ _ _ _ _ _ _ ?_); (· decide); intro v t; try dsimp only)
    | ((with_reducible apply Touches.stepBy 0x406842 (touches_State.wrPlanCmd _ _)); · decide)
    | ((intro t b); try dsimp only))

theorem touches_execPlanFetchDone (img : HostRead) (s : State) :
    TouchesRes (mEvent ||| mPlan) s (execPlanFetchDone img s) := by
  unfold execPlanFetchDone
  (try dsimp only)
  repeat' (first
    | refine Touches.res ?_
    | with_reducible exact Touches.refl _ _
    | ((with_reducible apply Touches.stepBy 0x406842 (touches_State.planFetchDone _ _)); · decide)
    | ((with_reducible apply touches_State.live _ _ ?_); intro t; try dsimp only)
    | ((intro t b); try dsimp only))

theorem touches_execPlanActivate (v : Word) (s : State) :
    TouchesRes (mEvent ||| mStaged ||| mPlan) s (execPlanActivate v s) := by
  unfold execPlanActivate
  (try dsimp only)
  repeat' (first
    | refine Touches.res ?_
    | with_reducible exact Touches.refl _ _
    | ((with_reducible apply touches_State.hostWr ?_ _ _ _ _ _ _ ?_); (· decide); intro v t; try dsimp only)
    | ((with_reducible apply Touches.stepBy 0x406842 (touches_State.wrPlanCmd _ _)); · decide)
    | ((intro t b); try dsimp only))

theorem touches_execPlanAbort (v : Word) (s : State) :
    TouchesRes (mEvent ||| mStaged ||| mPlan) s (execPlanAbort v s) := by
  unfold execPlanAbort
  (try dsimp only)
  repeat' (first
    | refine Touches.res ?_
    | with_reducible exact Touches.refl _ _
    | ((with_reducible apply touches_State.hostWr ?_ _ _ _ _ _ _ ?_); (· decide); intro v t; try dsimp only)
    | ((with_reducible apply Touches.stepBy 0x406842 (touches_State.wrPlanCmd _ _)); · decide)
    | ((intro t b); try dsimp only))

theorem touches_execPlanDiscard (v : Word) (s : State) :
    TouchesRes (mEvent ||| mStaged ||| mPlan) s (execPlanDiscard v s) := by
  unfold execPlanDiscard
  (try dsimp only)
  repeat' (first
    | refine Touches.res ?_
    | with_reducible exact Touches.refl _ _
    | ((with_reducible apply touches_State.hostWr ?_ _ _ _ _ _ _ ?_); (· decide); intro v t; try dsimp only)
    | ((with_reducible apply Touches.stepBy 0x406842 (touches_State.wrPlanCmd _ _)); · decide)
    | ((intro t b); try dsimp only))

theorem touches_execPlanStop (v : Word) (s : State) :
    TouchesRes (mEvent ||| mStaged ||| mPlan) s (execPlanStop v s) := by
  unfold execPlanStop
  (try dsimp only)
  repeat' (first
    | refine Touches.res ?_
    | with_reducible exact Touches.refl _ _
    | ((with_reducible apply touches_State.hostWr ?_ _ _ _ _ _ _ ?_); (· decide); intro v t; try dsimp only)
    | ((with_reducible apply Touches.stepBy 0x406842 (touches_State.wrPlanCmd _ _)); · decide)
    | ((intro t b); try dsimp only))

theorem touches_execPlanCommit (s : State) :
    TouchesRes 0xbc3ffffff7ffc6 s (execPlanCommit s) := by
  unfold execPlanCommit
  (try dsimp only)
  repeat' (first
    | refine Touches.res ?_
    | with_reducible exact Touches.refl _ _
    | ((with_reducible apply Touches.stepBy 0xbc3ffffff7ffc6 (touches_State.planCommit _)); · decide)
    | ((with_reducible apply touches_State.live _ _ ?_); intro t; try dsimp only)
    | ((with_reducible apply touches_State.clocked _ _ ?_); intro t; try dsimp only)
    | ((intro t b); try dsimp only))

theorem touches_execPlanStopCommit (s : State) :
    TouchesRes (mEvent ||| mAct ||| mTime ||| mFreeCtr ||| mStore ||| mCtxs ||| mBillets ||| mPorts ||| mAside ||| mBadLines ||| mPlan ||| mTdc ||| mDdc ||| mXfm ||| mStreams ||| mFrames ||| mDet ||| mDen ||| mLt ||| mFm ||| mAu ||| mReplay ||| mTurf ||| mClusters ||| mStk ||| mCmp ||| mGlb) s (execPlanStopCommit s) := by
  unfold execPlanStopCommit
  (try dsimp only)
  repeat' (first
    | refine Touches.res ?_
    | with_reducible exact Touches.refl _ _
    | ((with_reducible apply Touches.stepBy 0xb00f1bf157eec6 (touches_State.planStopCommit _)); · decide)
    | ((with_reducible apply touches_State.live _ _ ?_); intro t; try dsimp only)
    | ((with_reducible apply touches_State.clocked _ _ ?_); intro t; try dsimp only)
    | ((intro t b); try dsimp only))

theorem touches_execPcommitGo (v : Word) (s : State) :
    TouchesRes (mEvent ||| mAct ||| mStaged) s (execPcommitGo v s) := by
  unfold execPcommitGo
  (try dsimp only)
  repeat' (first
    | refine Touches.res ?_
    | with_reducible exact Touches.refl _ _
    | ((with_reducible apply touches_State.hostWr ?_ _ _ _ _ _ _ ?_); (· decide); intro v t; try dsimp only)
    | ((with_reducible apply Touches.stepBy 0x6846 (touches_State.wrPcommit _ _)); · decide)
    | ((intro t b); try dsimp only))

theorem touches_execParamCommit (s : State) :
    TouchesRes 0xbc3ffffff7ffc6 s (execParamCommit s) := by
  unfold execParamCommit
  (try dsimp only)
  repeat' (first
    | refine Touches.res ?_
    | with_reducible exact Touches.refl _ _
    | ((with_reducible apply Touches.stepBy 0xbc3ffffff7ffc6 (touches_State.paramCommit _)); · decide)
    | ((with_reducible apply touches_State.live _ _ ?_); intro t; try dsimp only)
    | ((with_reducible apply touches_State.clocked _ _ ?_); intro t; try dsimp only)
    | ((intro t b); try dsimp only))

/-! ### Machine/StkCmds.lean -/

theorem touches_execStkCmdQueue (v : Word) (s : State) :
    TouchesRes (mRegs ||| mStaged ||| mStk) s (execStkCmdQueue v s) := by
  unfold execStkCmdQueue
  (try dsimp only)
  repeat' (first
    | refine Touches.res ?_
    | with_reducible exact Touches.refl _ _
    | ((with_reducible apply Touches.stepBy 0x10000000000002 (touches_State.wrStkCmd _ _)); · decide)
    | ((with_reducible apply touches_State.hostWr ?_ _ _ _ _ _ _ ?_); (· decide); intro v t; try dsimp only)
    | ((intro t b); try dsimp only))

theorem touches_execStkNop (s : State) :
    TouchesRes (mEvent ||| mFreeCtr ||| mStk) s (execStkNop s) := by
  unfold execStkNop
  (try dsimp only)
  repeat' (first
    | refine Touches.res ?_
    | with_reducible exact Touches.refl _ _
    | ((with_reducible apply Touches.stepBy 0x10000000006a42 (touches_State.stkNop _)); · decide)
    | ((with_reducible apply touches_State.live _ _ ?_); intro t; try dsimp only)
    | ((intro t b); try dsimp only))

theorem touches_execFlashRead (s : State) :
    TouchesRes (mEvent ||| mFreeCtr ||| mStk) s (execFlashRead s) := by
  unfold execFlashRead
  (try dsimp only)
  repeat' (first
    | refine Touches.res ?_
    | with_reducible exact Touches.refl _ _
    | ((with_reducible apply Touches.stepBy 0x10000000006a42 (touches_State.stkFlashRead _)); · decide)
    | ((with_reducible apply touches_State.live _ _ ?_); intro t; try dsimp only)
    | ((intro t b); try dsimp only))

theorem touches_execFlashUpdate (img : HostRead) (ok : Bool) (s : State) :
    TouchesRes (mEvent ||| mFreeCtr ||| mFlash ||| mCal ||| mStk) s (execFlashUpdate img ok s) := by
  unfold execFlashUpdate
  (try dsimp only)
  repeat' (first
    | refine Touches.res ?_
    | with_reducible exact Touches.refl _ _
    | ((with_reducible apply Touches.stepBy 0x10000008007a42 (touches_State.stkFlashUpdate _ _ _)); · decide)
    | ((with_reducible apply touches_State.live _ _ ?_); intro t; try dsimp only)
    | ((intro t b); try dsimp only))

theorem touches_execCalStore (s : State) :
    TouchesRes (mEvent ||| mFreeCtr ||| mFlash ||| mCal ||| mStk) s (execCalStore s) := by
  unfold execCalStore
  (try dsimp only)
  repeat' (first
    | refine Touches.res ?_
    | with_reducible exact Touches.refl _ _
    | ((with_reducible apply Touches.stepBy 0x10000008007a42 (touches_State.stkCalStore _)); · decide)
    | ((with_reducible apply touches_State.live _ _ ?_); intro t; try dsimp only)
    | ((intro t b); try dsimp only))

theorem touches_execKeyProvision (data : HostRead) (ok : Bool) (s : State) :
    TouchesRes (mEvent ||| mFreeCtr ||| mStk) s (execKeyProvision data ok s) := by
  unfold execKeyProvision
  (try dsimp only)
  repeat' (first
    | refine Touches.res ?_
    | with_reducible exact Touches.refl _ _
    | ((with_reducible apply Touches.stepBy 0x10000000006a42 (touches_State.stkKeyProvision _ _ _)); · decide)
    | ((with_reducible apply touches_State.live _ _ ?_); intro t; try dsimp only)
    | ((intro t b); try dsimp only))

theorem touches_execKeyLock (ok : Bool) (s : State) :
    TouchesRes (mEvent ||| mFreeCtr ||| mStk) s (execKeyLock ok s) := by
  unfold execKeyLock
  (try dsimp only)
  repeat' (first
    | refine Touches.res ?_
    | with_reducible exact Touches.refl _ _
    | ((with_reducible apply Touches.stepBy 0x10000000006a42 (touches_State.stkKeyLock _ _)); · decide)
    | ((with_reducible apply touches_State.live _ _ ?_); intro t; try dsimp only)
    | ((intro t b); try dsimp only))

theorem touches_execSvnCommit (ok : Bool) (s : State) :
    TouchesRes (mEvent ||| mFreeCtr ||| mStk) s (execSvnCommit ok s) := by
  unfold execSvnCommit
  (try dsimp only)
  repeat' (first
    | refine Touches.res ?_
    | with_reducible exact Touches.refl _ _
    | ((with_reducible apply Touches.stepBy 0x10000000006a42 (touches_State.stkSvnCommit _ _)); · decide)
    | ((with_reducible apply touches_State.live _ _ ?_); intro t; try dsimp only)
    | ((intro t b); try dsimp only))

theorem touches_execSecureEnable (ok : Bool) (s : State) :
    TouchesRes (mEvent ||| mFreeCtr ||| mStk) s (execSecureEnable ok s) := by
  unfold execSecureEnable
  (try dsimp only)
  repeat' (first
    | refine Touches.res ?_
    | with_reducible exact Touches.refl _ _
    | ((with_reducible apply Touches.stepBy 0x10000000006a42 (touches_State.stkSecureEnable _ _)); · decide)
    | ((with_reducible apply touches_State.live _ _ ?_); intro t; try dsimp only)
    | ((intro t b); try dsimp only))

theorem touches_execStkCancel (v : Word) (s : State) :
    TouchesRes (mEvent ||| mStaged ||| mFreeCtr ||| mStk) s (execStkCancel v s) := by
  unfold execStkCancel
  (try dsimp only)
  repeat' (first
    | refine Touches.res ?_
    | with_reducible exact Touches.refl _ _
    | ((with_reducible apply Touches.stepBy 0x10000000006a42 (touches_State.wrStkCancel _ _)); · decide)
    | ((with_reducible apply touches_State.hostWr ?_ _ _ _ _ _ _ ?_); (· decide); intro v t; try dsimp only)
    | ((intro t b); try dsimp only))

theorem touches_execStkCsEccError (bad patch : Bool) (s : State) :
    TouchesRes (mEvent ||| mAct ||| mCtxs ||| mBillets ||| mPlan ||| mCnv ||| mCal ||| mDdc ||| mXfm ||| mTq ||| mBus ||| mDecs ||| mNet ||| mAve ||| mRst ||| mGlb) s (execStkCsEccError bad patch s) := by
  unfold execStkCsEccError
  (try dsimp only)
  repeat' (first
    | refine Touches.res ?_
    | with_reducible exact Touches.refl _ _
    | ((with_reducible apply touches_State.live _ _ ?_); intro t; try dsimp only)
    | ((with_reducible apply Touches.stepBy 0x8830a43a41e846 (touches_State.csError _ _ _)); · decide)
    | ((intro t b); try dsimp only))

theorem touches_execStkWatchdog (s : State) :
    TouchesRes (mEvent ||| mAct ||| mCtxs ||| mBillets ||| mPlan ||| mCnv ||| mCal ||| mDdc ||| mXfm ||| mTq ||| mBus ||| mDecs ||| mNet ||| mAve ||| mRst ||| mGlb) s (execStkWatchdog s) := by
  unfold execStkWatchdog
  (try dsimp only)
  repeat' (first
    | refine Touches.res ?_
    | with_reducible exact Touches.refl _ _
    | ((with_reducible apply Touches.stepBy 0x8830a43a41e846 (touches_State.watchdog _)); · decide)
    | ((with_reducible apply touches_State.live _ _ ?_); intro t; try dsimp only)
    | ((intro t b); try dsimp only))

theorem touches_execPorstAssert (p : ResetPin) (s : State) :
    TouchesRes 0xffffffffffe59e s (execPorstAssert p s) := by
  unfold execPorstAssert
  (try dsimp only)
  repeat' (first
    | refine Touches.res ?_
    | with_reducible exact Touches.refl _ _
    | ((with_reducible apply Touches.stepBy 0xffffffffffe59e (touches_State.resetAssert _ _)); · decide))

theorem touches_execPorstRelease (p : ResetPin) (bootsel : Fin 4) (smbAddr : Fin 8) (s : State) :
    TouchesRes (mRegs ||| mStk ||| mPkg ||| mGlb) s (execPorstRelease p bootsel smbAddr s) := by
  unfold execPorstRelease
  (try dsimp only)
  repeat' (first
    | refine Touches.res ?_
    | with_reducible exact Touches.refl _ _
    | ((with_reducible apply Touches.stepBy 0xd0000000000002 (touches_State.resetRelease _ _ _ _)); · decide))

theorem touches_execBootStepEnd (e : BootEnd) (s : State) :
    TouchesRes (mEvent ||| mStore ||| mCtxs ||| mBillets ||| mBadLines ||| mClk ||| mCnv ||| mStk ||| mGlb) s (execBootStepEnd e s) := by
  unfold execBootStepEnd
  (try dsimp only)
  repeat' (first
    | refine Touches.res ?_
    | with_reducible exact Touches.refl _ _
    | ((with_reducible apply Touches.stepBy 0x9000000231ec42 (touches_State.bootStep _ _)); · decide))

theorem touches_execEvtRelease (v : Word) (s : State) :
    TouchesRes (mEvent ||| mStaged) s (execEvtRelease v s) := by
  unfold execEvtRelease
  (try dsimp only)
  repeat' (first
    | refine Touches.res ?_
    | with_reducible exact Touches.refl _ _
    | ((with_reducible apply touches_State.hostWr ?_ _ _ _ _ _ _ ?_); (· decide); intro v t; try dsimp only)
    | ((with_reducible apply Touches.stepBy 0x6842 (touches_State.wrRingIdx _ _)); · decide)
    | ((intro t b); try dsimp only))

theorem touches_execRingEnWrite (v : Word) (s : State) :
    TouchesRes (mEvent ||| mStaged) s (execRingEnWrite v s) := by
  unfold execRingEnWrite
  (try dsimp only)
  repeat' (first
    | refine Touches.res ?_
    | with_reducible exact Touches.refl _ _
    | ((with_reducible apply touches_State.hostWr ?_ _ _ _ _ _ _ ?_); (· decide); intro v t; try dsimp only)
    | ((with_reducible apply Touches.stepBy 0x6842 (touches_State.wrEvtCtrl _ _)); · decide)
    | ((intro t b); try dsimp only))

theorem touches_execEvtSwtest (v : Word) (s : State) :
    TouchesRes (mEvent ||| mStaged) s (execEvtSwtest v s) := by
  unfold execEvtSwtest
  (try dsimp only)
  repeat' (first
    | refine Touches.res ?_
    | with_reducible exact Touches.refl _ _
    | ((with_reducible apply touches_State.hostWr ?_ _ _ _ _ _ _ ?_); (· decide); intro v t; try dsimp only)
    | ((with_reducible apply Touches.stepBy 0x6842 (touches_State.wrSwtest _ _)); · decide)
    | ((intro t b); try dsimp only))

theorem touches_execInjectEvent (v : Word) (s : State) :
    TouchesRes (mEvent ||| mAct ||| mStaged ||| mFreeCtr ||| mStore ||| mCtxs ||| mBillets ||| mPorts ||| mAside ||| mBadLines ||| mPlan ||| mTdc ||| mCnv ||| mCal ||| mDdc ||| mXfm ||| mStreams ||| mDet ||| mDen ||| mTq ||| mBus ||| mDecs ||| mAu ||| mNet ||| mAve ||| mRst ||| mCmp ||| mGlb) s (execInjectEvent v s) := by
  unfold execInjectEvent
  (try dsimp only)
  repeat' (first
    | refine Touches.res ?_
    | with_reducible exact Touches.refl _ _
    | ((with_reducible apply touches_State.hostWr ?_ _ _ _ _ _ _ ?_); (· decide); intro v t; try dsimp only)
    | ((with_reducible apply Touches.stepBy 0xa831a77b57ee46 (touches_State.wrEvtInj _ _)); · decide)
    | ((intro t b); try dsimp only))

theorem touches_execInjectContext (v : Word) (s : State) :
    TouchesRes (mEvent ||| mAct ||| mStaged ||| mFreeCtr ||| mStore ||| mCtxs ||| mBillets ||| mPorts ||| mAside ||| mBadLines ||| mPlan ||| mTdc ||| mCnv ||| mCal ||| mDdc ||| mXfm ||| mStreams ||| mDet ||| mDen ||| mTq ||| mBus ||| mDecs ||| mAu ||| mNet ||| mAve ||| mRst ||| mCmp ||| mGlb) s (execInjectContext v s) := by
  unfold execInjectContext
  (try dsimp only)
  repeat' (first
    | refine Touches.res ?_
    | with_reducible exact Touches.refl _ _
    | ((with_reducible apply touches_State.hostWr ?_ _ _ _ _ _ _ ?_); (· decide); intro v t; try dsimp only)
    | ((with_reducible apply Touches.stepBy 0xa831a77b57ee46 (touches_State.wrEvtInj _ _)); · decide)
    | ((intro t b); try dsimp only))

theorem touches_execInjectMemCe (v : Word) (s : State) :
    TouchesRes (mEvent ||| mAct ||| mStaged ||| mFreeCtr ||| mStore ||| mCtxs ||| mBillets ||| mPorts ||| mAside ||| mBadLines ||| mPlan ||| mTdc ||| mCnv ||| mCal ||| mDdc ||| mXfm ||| mStreams ||| mDet ||| mDen ||| mTq ||| mBus ||| mDecs ||| mAu ||| mNet ||| mAve ||| mRst ||| mCmp ||| mGlb) s (execInjectMemCe v s) := by
  unfold execInjectMemCe
  (try dsimp only)
  repeat' (first
    | refine Touches.res ?_
    | with_reducible exact Touches.refl _ _
    | ((with_reducible apply touches_State.hostWr ?_ _ _ _ _ _ _ ?_); (· decide); intro v t; try dsimp only)
    | ((with_reducible apply Touches.stepBy 0xa831a77b57ee46 (touches_State.wrEvtInj _ _)); · decide)
    | ((intro t b); try dsimp only))

theorem touches_execInjectMemUe (v : Word) (s : State) :
    TouchesRes (mEvent ||| mAct ||| mStaged ||| mFreeCtr ||| mStore ||| mCtxs ||| mBillets ||| mPorts ||| mAside ||| mBadLines ||| mPlan ||| mTdc ||| mCnv ||| mCal ||| mDdc ||| mXfm ||| mStreams ||| mDet ||| mDen ||| mTq ||| mBus ||| mDecs ||| mAu ||| mNet ||| mAve ||| mRst ||| mCmp ||| mGlb) s (execInjectMemUe v s) := by
  unfold execInjectMemUe
  (try dsimp only)
  repeat' (first
    | refine Touches.res ?_
    | with_reducible exact Touches.refl _ _
    | ((with_reducible apply touches_State.hostWr ?_ _ _ _ _ _ _ ?_); (· decide); intro v t; try dsimp only)
    | ((with_reducible apply Touches.stepBy 0xa831a77b57ee46 (touches_State.wrEvtInj _ _)); · decide)
    | ((intro t b); try dsimp only))

theorem touches_execInjectRestart (v : Word) (s : State) :
    TouchesRes (mEvent ||| mAct ||| mStaged ||| mFreeCtr ||| mStore ||| mCtxs ||| mBillets ||| mPorts ||| mAside ||| mBadLines ||| mPlan ||| mTdc ||| mCnv ||| mCal ||| mDdc ||| mXfm ||| mStreams ||| mDet ||| mDen ||| mTq ||| mBus ||| mDecs ||| mAu ||| mNet ||| mAve ||| mRst ||| mCmp ||| mGlb) s (execInjectRestart v s) := by
  unfold execInjectRestart
  (try dsimp only)
  repeat' (first
    | refine Touches.res ?_
    | with_reducible exact Touches.refl _ _
    | ((with_reducible apply touches_State.hostWr ?_ _ _ _ _ _ _ ?_); (· decide); intro v t; try dsimp only)
    | ((with_reducible apply Touches.stepBy 0xa831a77b57ee46 (touches_State.wrEvtInj _ _)); · decide)
    | ((intro t b); try dsimp only))

theorem touches_execInjectLock (v : Word) (s : State) :
    TouchesRes (mEvent ||| mAct ||| mStaged ||| mFreeCtr ||| mStore ||| mCtxs ||| mBillets ||| mPorts ||| mAside ||| mBadLines ||| mPlan ||| mTdc ||| mCnv ||| mCal ||| mDdc ||| mXfm ||| mStreams ||| mDet ||| mDen ||| mTq ||| mBus ||| mDecs ||| mAu ||| mNet ||| mAve ||| mRst ||| mCmp ||| mGlb) s (execInjectLock v s) := by
  unfold execInjectLock
  (try dsimp only)
  repeat' (first
    | refine Touches.res ?_
    | with_reducible exact Touches.refl _ _
    | ((with_reducible apply touches_State.hostWr ?_ _ _ _ _ _ _ ?_); (· decide); intro v t; try dsimp only)
    | ((with_reducible apply Touches.stepBy 0xa831a77b57ee46 (touches_State.wrEvtInj _ _)); · decide)
    | ((intro t b); try dsimp only))

/-! ### Machine/TbsCmds.lean -/

theorem touches_execTbsAdjWrite (v : Word) (s : State) :
    TouchesRes (mRegs ||| mStaged ||| mTbs) s (execTbsAdjWrite v s) := by
  unfold execTbsAdjWrite
  (try dsimp only)
  repeat' (first
    | refine Touches.res ?_
    | with_reducible exact Touches.refl _ _
    | ((with_reducible apply Touches.stepBy 0x800002 (touches_State.wrAdj _ _ _)); · decide)
    | ((with_reducible apply touches_State.hostWr ?_ _ _ _ _ _ _ ?_); (· decide); intro v t; try dsimp only)
    | ((intro t b); try dsimp only))

theorem touches_execTbsSlewWrite (v : Word) (s : State) :
    TouchesRes (mRegs ||| mStaged ||| mTbs) s (execTbsSlewWrite v s) := by
  unfold execTbsSlewWrite
  (try dsimp only)
  repeat' (first
    | refine Touches.res ?_
    | with_reducible exact Touches.refl _ _
    | ((with_reducible apply Touches.stepBy 0x800002 (touches_State.wrSlew _ _ _)); · decide)
    | ((with_reducible apply touches_State.hostWr ?_ _ _ _ _ _ _ ?_); (· decide); intro v t; try dsimp only)
    | ((intro t b); try dsimp only))

theorem touches_execTbsStepWrite (v : Word) (s : State) :
    TouchesRes (mEvent ||| mStaged ||| mTime ||| mFrac ||| mTbs ||| mTdc ||| mCnv ||| mPg) s (execTbsStepWrite v s) := by
  unfold execTbsStepWrite
  (try dsimp only)
  repeat' (first
    | refine Touches.res ?_
    | with_reducible exact Touches.refl _ _
    | ((with_reducible apply Touches.stepBy 0x78069c2 (touches_State.wrStep _ _)); · decide)
    | ((with_reducible apply touches_State.hostWr ?_ _ _ _ _ _ _ ?_); (· decide); intro v t; try dsimp only)
    | ((intro t b); try dsimp only))

theorem touches_execServoSourceWrite (v : Word) (s : State) :
    TouchesRes (mEvent ||| mStaged ||| mTbs ||| mTdc ||| mAu) s (execServoSourceWrite v s) := by
  unfold execServoSourceWrite
  (try dsimp only)
  repeat' (first
    | refine Touches.res ?_
    | with_reducible exact Touches.refl _ _
    | ((with_reducible apply Touches.stepBy 0x10001806842 (touches_State.wrServo _ _)); · decide)
    | ((with_reducible apply touches_State.hostWr ?_ _ _ _ _ _ _ ?_); (· decide); intro v t; try dsimp only)
    | ((intro t b); try dsimp only))

theorem touches_execHostLockWrite (v : Word) (s : State) :
    TouchesRes (mEvent ||| mStaged ||| mTbs ||| mTdc ||| mAu) s (execHostLockWrite v s) := by
  unfold execHostLockWrite
  (try dsimp only)
  repeat' (first
    | refine Touches.res ?_
    | with_reducible exact Touches.refl _ _
    | ((with_reducible apply Touches.stepBy 0x10001806842 (touches_State.wrServo _ _)); · decide)
    | ((with_reducible apply touches_State.hostWr ?_ _ _ _ _ _ _ ?_); (· decide); intro v t; try dsimp only)
    | ((intro t b); try dsimp only))

theorem touches_execPtpUpdate (offPs : Int) (step : Bool) (s : State) :
    TouchesRes (mEvent ||| mTime ||| mFrac ||| mFreeCtr ||| mTbs ||| mTdc ||| mCnv ||| mPg ||| mAu) s (execPtpUpdate offPs step s) := by
  unfold execPtpUpdate
  (try dsimp only)
  repeat' (first
    | refine Touches.res ?_
    | with_reducible exact Touches.refl _ _
    | ((with_reducible apply Touches.stepBy 0x10007806bc2 (touches_State.ptpUpdate _ _ _)); · decide)
    | ((with_reducible apply touches_State.live _ _ ?_); intro t; try dsimp only)
    | ((intro t b); try dsimp only))

theorem touches_execServoMissTimeout (s : State) :
    TouchesRes (mEvent ||| mTime ||| mTbs) s (execServoMissTimeout s) := by
  unfold execServoMissTimeout
  (try dsimp only)
  repeat' (first
    | refine Touches.res ?_
    | with_reducible exact Touches.refl _ _
    | ((with_reducible apply Touches.stepBy 0x8068c2 (touches_State.servoMiss _)); · decide)
    | ((with_reducible apply touches_State.live _ _ ?_); intro t; try dsimp only)
    | ((with_reducible apply touches_State.clocked _ _ ?_); intro t; try dsimp only)
    | ((intro t b); try dsimp only))

theorem touches_execHostTimeout (s : State) :
    TouchesRes (mEvent ||| mTime ||| mTbs) s (execHostTimeout s) := by
  unfold execHostTimeout
  (try dsimp only)
  repeat' (first
    | refine Touches.res ?_
    | with_reducible exact Touches.refl _ _
    | ((with_reducible apply Touches.stepBy 0x8068c2 (touches_State.servoHostTimeout _)); · decide)
    | ((with_reducible apply touches_State.live _ _ ?_); intro t; try dsimp only)
    | ((with_reducible apply touches_State.clocked _ _ ?_); intro t; try dsimp only)
    | ((intro t b); try dsimp only))

theorem touches_State.edgeIn (s : State) (c t : Nat) (rising : Bool) :
    Touches (mEvent ||| mTime ||| mFrac ||| mFreeCtr ||| mCtxs ||| mTbs ||| mTdc ||| mCnv ||| mPg ||| mTq ||| mAu) s (State.edgeIn s c t rising) := by
  unfold State.edgeIn
  (try dsimp only)
  repeat' (first
    | with_reducible exact Touches.refl _ _
    | ((with_reducible apply Touches.stepBy 0x400000002 (touches_State.trgTdc _ _ _ _ _)); · decide)
    | ((with_reducible apply Touches.stepBy 0x1000780ebc2 (touches_State.tdcEdge _ _ _ _)); · decide)
    | split
    | with_reducible refine Touches.ofSnd (by assumption) ?_
    | with_reducible refine Touches.ofFst (by assumption) ?_)

theorem touches_execTdcEdge (c : Fin 12) (t : Nat) (rising : Bool) (s : State) :
    TouchesRes (mEvent ||| mTime ||| mFrac ||| mFreeCtr ||| mCtxs ||| mTbs ||| mTdc ||| mCnv ||| mPg ||| mTq ||| mAu) s (execTdcEdge c t rising s) := by
  unfold execTdcEdge
  (try dsimp only)
  repeat' (first
    | refine Touches.res ?_
    | with_reducible exact Touches.refl _ _
    | ((with_reducible apply Touches.stepBy 0x1040780ebc2 (touches_State.edgeIn _ _ _ _)); · decide)
    | ((with_reducible apply touches_State.live _ _ ?_); intro t; try dsimp only)
    | ((intro t b); try dsimp only)
    | split)

theorem touches_execStampsFlush (c : Fin 12) (s : State) :
    TouchesRes (mEvent ||| mTime ||| mCtxs ||| mPorts ||| mTdc) s (execStampsFlush c s) := by
  unfold execStampsFlush
  (try dsimp only)
  repeat' (first
    | refine Touches.res ?_
    | with_reducible exact Touches.refl _ _
    | ((with_reducible apply Touches.stepBy 0x102e8c2 (touches_State.tdcFlush _ _)); · decide)
    | ((with_reducible apply touches_State.live _ _ ?_); intro t; try dsimp only)
    | ((with_reducible apply touches_State.clocked _ _ ?_); intro t; try dsimp only)
    | ((intro t b); try dsimp only))

theorem touches_execVernierRemeasure (a b : Nat) (s : State) :
    TouchesRes mTdc s (execVernierRemeasure a b s) := by
  unfold execVernierRemeasure
  (try dsimp only)
  repeat' (first
    | refine Touches.res ?_
    | with_reducible exact Touches.refl _ _
    | ((with_reducible apply touches_State.live _ _ ?_); intro t; try dsimp only)
    | ((with_reducible apply Touches.stepBy 0x1000000 (touches_State.onTdc _ _)); · decide)
    | ((intro t b); try dsimp only))

theorem touches_execFreqEnWrite (v : Word) (s : State) :
    TouchesRes (mRegs ||| mStaged ||| mTdc) s (execFreqEnWrite v s) := by
  unfold execFreqEnWrite
  (try dsimp only)
  repeat' (first
    | refine Touches.res ?_
    | with_reducible exact Touches.refl _ _
    | ((with_reducible apply Touches.stepBy 0x1000002 (touches_State.wrFreqCfg _ _)); · decide)
    | ((with_reducible apply touches_State.hostWr ?_ _ _ _ _ _ _ ?_); (· decide); intro v t; try dsimp only)
    | ((intro t b); try dsimp only))

theorem touches_execFreqGateOpen (s : State) :
    TouchesRes mTime s (execFreqGateOpen s) := by
  unfold execFreqGateOpen
  (try dsimp only)
  repeat' (first
    | refine Touches.res ?_
    | with_reducible exact Touches.refl _ _
    | ((with_reducible apply touches_State.live _ _ ?_); intro t; try dsimp only)
    | ((with_reducible apply Touches.stepBy 0x80 (touches_State.reach _ _)); · decide)
    | ((intro t b); try dsimp only)
    | split)

theorem touches_execFreqGateEnd (s : State) :
    TouchesRes (mEvent ||| mTime ||| mFreeCtr ||| mCtxs ||| mPorts ||| mTdc) s (execFreqGateEnd s) := by
  unfold execFreqGateEnd
  (try dsimp only)
  repeat' (first
    | refine Touches.res ?_
    | with_reducible exact Touches.refl _ _
    | ((with_reducible apply Touches.stepBy 0x102eac2 (touches_State.freqGateEnd _)); · decide)
    | ((with_reducible apply touches_State.live _ _ ?_); intro t; try dsimp only)
    | ((with_reducible apply touches_State.clocked _ _ ?_); intro t; try dsimp only)
    | ((intro t b); try dsimp only))

theorem touches_execTdcFreqSnap (v : Word) (s : State) :
    TouchesRes (mRegs ||| mStaged) s (execTdcFreqSnap v s) := by
  unfold execTdcFreqSnap
  (try dsimp only)
  repeat' (first
    | refine Touches.res ?_
    | with_reducible exact Touches.refl _ _
    | ((with_reducible apply touches_State.hostWr ?_ _ _ _ _ _ _ ?_); (· decide); intro v t; try dsimp only)
    | ((with_reducible apply Touches.stepBy 0x2 (touches_State.wrFreqSnap _ _)); · decide)
    | ((intro t b); try dsimp only))

/-! ### Machine/TrgCmds.lean -/

theorem touches_execTbusEvent (l : Fin 8) (t : Nat) (s : State) :
    TouchesRes (mRegs ||| mTime ||| mTq ||| mBus) s (execTbusEvent l t s) := by
  unfold execTbusEvent
  (try dsimp only)
  repeat' (first
    | refine Touches.res ?_
    | with_reducible exact Touches.refl _ _
    | ((with_reducible apply Touches.stepBy 0x2400000082 (touches_State.busEvent _ _ _)); · decide)
    | ((with_reducible apply touches_State.live _ _ ?_); intro t; try dsimp only)
    | ((with_reducible apply touches_State.clocked _ _ ?_); intro t; try dsimp only)
    | ((intro t b); try dsimp only))

theorem touches_execTbusPulseEnd (l : Fin 8) (s : State) :
    TouchesRes (mTime ||| mBus) s (execTbusPulseEnd l s) := by
  unfold execTbusPulseEnd
  (try dsimp only)
  repeat' (first
    | refine Touches.res ?_
    | with_reducible exact Touches.refl _ _
    | ((with_reducible apply Touches.stepBy 0x2000000080 (touches_State.busPulseEnd _ _)); · decide)
    | ((with_reducible apply touches_State.live _ _ ?_); intro t; try dsimp only)
    | ((with_reducible apply touches_State.clocked _ _ ?_); intro t; try dsimp only)
    | ((intro t b); try dsimp only))

theorem touches_execTbusLineHigh (l : Fin 8) (s : State) :
    TouchesRes mBus s (execTbusLineHigh l s) := by
  unfold execTbusLineHigh
  (try dsimp only)
  repeat' (first
    | refine Touches.res ?_
    | with_reducible exact Touches.refl _ _
    | ((with_reducible apply Touches.stepBy 0x2000000000 (touches_State.busHigh _ _)); · decide)
    | ((with_reducible apply touches_State.live _ _ ?_); intro t; try dsimp only)
    | ((with_reducible apply touches_State.clocked _ _ ?_); intro t; try dsimp only)
    | ((intro t b); try dsimp only))

theorem touches_execLtCrossing (i : Fin 8) (s : State) :
    TouchesRes (mEvent ||| mFreeCtr ||| mTq ||| mLt) s (execLtCrossing i s) := by
  unfold execLtCrossing
  (try dsimp only)
  repeat' (first
    | refine Touches.res ?_
    | with_reducible exact Touches.refl _ _
    | ((with_reducible apply Touches.stepBy 0xc00006a42 (touches_State.ltCrossing _ _)); · decide)
    | ((with_reducible apply touches_State.live _ _ ?_); intro t; try dsimp only)
    | ((with_reducible apply touches_State.clocked _ _ ?_); intro t; try dsimp only)
    | ((intro t b); try dsimp only))

theorem touches_execFmFrame (u : Fin 4) (s : State) :
    TouchesRes (mRegs ||| mFreeCtr ||| mFrames ||| mTq ||| mFm) s (execFmFrame u s) := by
  unfold execFmFrame
  (try dsimp only)
  repeat' (first
    | refine Touches.res ?_
    | with_reducible exact Touches.refl _ _
    | ((with_reducible apply Touches.stepBy 0x1480000202 (touches_State.fmFrame _ _)); · decide)
    | ((with_reducible apply touches_State.live _ _ ?_); intro t; try dsimp only)
    | ((with_reducible apply touches_State.clocked _ _ ?_); intro t; try dsimp only)
    | ((intro t b); try dsimp only))

theorem touches_execTrgTimerEvent (n : Fin 4) (s : State) :
    TouchesRes (mRegs ||| mTime ||| mTq ||| mTmr) s (execTrgTimerEvent n s) := by
  unfold execTrgTimerEvent
  (try dsimp only)
  repeat' (first
    | refine Touches.res ?_
    | with_reducible exact Touches.refl _ _
    | ((with_reducible apply Touches.stepBy 0x4400000082 (touches_State.trgTimer _ _)); · decide)
    | ((with_reducible apply touches_State.live _ _ ?_); intro t; try dsimp only)
    | ((with_reducible apply touches_State.clocked _ _ ?_); intro t; try dsimp only)
    | ((intro t b); try dsimp only))

theorem touches_execTrgSwFire (v : Word) (s : State) :
    TouchesRes (mRegs ||| mStaged ||| mTq) s (execTrgSwFire v s) := by
  unfold execTrgSwFire
  (try dsimp only)
  repeat' (first
    | refine Touches.res ?_
    | with_reducible exact Touches.refl _ _
    | ((with_reducible apply Touches.stepBy 0x400000002 (touches_State.wrTrgSw _ _)); · decide)
    | ((with_reducible apply touches_State.hostWr ?_ _ _ _ _ _ _ ?_); (· decide); intro v t; try dsimp only)
    | ((intro t b); try dsimp only))

theorem touches_execTqEventArrival (q : Fin 16) (s : State) :
    TouchesRes (mEvent ||| mTq ||| mBus ||| mDecs ||| mNet ||| mAve) s (execTqEventArrival q s) := by
  unfold execTqEventArrival
  (try dsimp only)
  repeat' (first
    | refine Touches.res ?_
    | with_reducible exact Touches.refl _ _
    | ((with_reducible apply Touches.stepBy 0x30a400006842 (touches_State.tqArrive _ _)); · decide)
    | ((with_reducible apply touches_State.live _ _ ?_); intro t; try dsimp only)
    | ((with_reducible apply touches_State.clocked _ _ ?_); intro t; try dsimp only)
    | ((intro t b); try dsimp only))

theorem touches_execTqHorizon (q : Fin 16) (s : State) :
    TouchesRes (mEvent ||| mTime ||| mTq ||| mBus ||| mDecs ||| mNet ||| mAve) s (execTqHorizon q s) := by
  unfold execTqHorizon
  (try dsimp only)
  repeat' (first
    | refine Touches.res ?_
    | with_reducible exact Touches.refl _ _
    | ((with_reducible apply Touches.stepBy 0x30a4000068c2 (touches_State.tqHorizon _ _)); · decide)
    | ((with_reducible apply touches_State.live _ _ ?_); intro t; try dsimp only)
    | ((with_reducible apply touches_State.clocked _ _ ?_); intro t; try dsimp only)
    | ((intro t b); try dsimp only))

theorem touches_execTqAutoTimeout (q : Fin 16) (s : State) :
    TouchesRes (mEvent ||| mTime ||| mFreeCtr ||| mTq ||| mBus ||| mDecs ||| mNet ||| mAve) s (execTqAutoTimeout q s) := by
  unfold execTqAutoTimeout
  (try dsimp only)
  repeat' (first
    | refine Touches.res ?_
    | with_reducible exact Touches.refl _ _
    | ((with_reducible apply Touches.stepBy 0x30a400006ac2 (touches_State.tqAuto _ _)); · decide)
    | ((with_reducible apply touches_State.live _ _ ?_); intro t; try dsimp only)
    | ((with_reducible apply touches_State.clocked _ _ ?_); intro t; try dsimp only)
    | ((intro t b); try dsimp only))

theorem touches_execTqFreeRunDecision (q : Fin 16) (s : State) :
    TouchesRes (mEvent ||| mTime ||| mFreeCtr ||| mTq ||| mBus ||| mDecs ||| mNet ||| mAve) s (execTqFreeRunDecision q s) := by
  unfold execTqFreeRunDecision
  (try dsimp only)
  repeat' (first
    | refine Touches.res ?_
    | with_reducible exact Touches.refl _ _
    | ((with_reducible apply Touches.stepBy 0x30a400006ac2 (touches_State.tqFree _ _)); · decide)
    | ((with_reducible apply touches_State.live _ _ ?_); intro t; try dsimp only)
    | ((with_reducible apply touches_State.clocked _ _ ?_); intro t; try dsimp only)
    | ((intro t b); try dsimp only))

theorem touches_execTqArm (q : Fin 16) (v : Word) (s : State) :
    TouchesRes (mRegs ||| mStaged ||| mTq) s (execTqArm q v s) := by
  unfold execTqArm
  (try dsimp only)
  repeat' (first
    | refine Touches.res ?_
    | with_reducible exact Touches.refl _ _
    | ((with_reducible apply Touches.stepBy 0x400000002 (touches_State.wrTqCfg _ _ _)); · decide)
    | ((with_reducible apply touches_State.hostWr ?_ _ _ _ _ _ _ ?_); (· decide); intro v t; try dsimp only)
    | ((intro t b); try dsimp only))

theorem touches_execTqDisarm (q : Fin 16) (v : Word) (s : State) :
    TouchesRes (mRegs ||| mStaged ||| mTq) s (execTqDisarm q v s) := by
  unfold execTqDisarm
  (try dsimp only)
  repeat' (first
    | refine Touches.res ?_
    | with_reducible exact Touches.refl _ _
    | ((with_reducible apply Touches.stepBy 0x400000002 (touches_State.wrTqCfg _ _ _)); · decide)
    | ((with_reducible apply touches_State.hostWr ?_ _ _ _ _ _ _ ?_); (· decide); intro v t; try dsimp only)
    | ((intro t b); try dsimp only))

theorem touches_execTrgTqSnap (q : Fin 16) (v : Word) (s : State) :
    TouchesRes (mRegs ||| mStaged) s (execTrgTqSnap q v s) := by
  unfold execTrgTqSnap
  (try dsimp only)
  repeat' (first
    | refine Touches.res ?_
    | with_reducible exact Touches.refl _ _
    | ((with_reducible apply Touches.stepBy 0x2 (touches_State.wrTqSnap _ _ _)); · decide)
    | ((with_reducible apply touches_State.hostWr ?_ _ _ _ _ _ _ ?_); (· decide); intro v t; try dsimp only)
    | ((intro t b); try dsimp only))

theorem touches_execAcqArm (n : Fin 8) (v : Word) (s : State) :
    TouchesRes (mEvent ||| mStaged ||| mFreeCtr ||| mStore ||| mCtxs ||| mBillets ||| mPorts ||| mAside ||| mBadLines ||| mAu) s (execAcqArm n v s) := by
  unfold execAcqArm
  (try dsimp only)
  repeat' (first
    | refine Touches.res ?_
    | with_reducible exact Touches.refl _ _
    | ((with_reducible apply touches_State.hostWr ?_ _ _ _ _ _ _ ?_); (· decide); intro v t; try dsimp only)
    | ((with_reducible apply Touches.stepBy 0x1000017ee42 (touches_State.wrAcqCmd _ _ _)); · decide)
    | ((intro t b); try dsimp only))

theorem touches_execAcqStop (n : Fin 8) (v : Word) (s : State) :
    TouchesRes (mEvent ||| mStaged ||| mFreeCtr ||| mStore ||| mCtxs ||| mBillets ||| mPorts ||| mAside ||| mBadLines ||| mAu) s (execAcqStop n v s) := by
  unfold execAcqStop
  (try dsimp only)
  repeat' (first
    | refine Touches.res ?_
    | with_reducible exact Touches.refl _ _
    | ((with_reducible apply touches_State.hostWr ?_ _ _ _ _ _ _ ?_); (· decide); intro v t; try dsimp only)
    | ((with_reducible apply Touches.stepBy 0x1000017ee42 (touches_State.wrAcqCmd _ _ _)); · decide)
    | ((intro t b); try dsimp only))

theorem touches_execAcqDecision (n : Fin 8) (s : State) :
    TouchesRes (mEvent ||| mTime ||| mFreeCtr ||| mStore ||| mCtxs ||| mBillets ||| mPorts ||| mAside ||| mBadLines ||| mDecs ||| mAu) s (execAcqDecision n s) := by
  unfold execAcqDecision
  (try dsimp only)
  repeat' (first
    | refine Touches.res ?_
    | with_reducible exact Touches.refl _ _
    | ((with_reducible apply touches_State.live _ _ ?_); intro t; try dsimp only)
    | ((with_reducible apply touches_State.clocked _ _ ?_); intro t; try dsimp only)
    | ((with_reducible apply Touches.stepBy 0x1800017eec2 (touches_State.auDecision _ _)); · decide)
    | ((intro t b); try dsimp only))

theorem touches_execAcqPreFilled (n : Fin 8) (s : State) :
    TouchesRes mRegs s (execAcqPreFilled n s) := by
  unfold execAcqPreFilled
  (try dsimp only)
  repeat' (first
    | refine Touches.res ?_
    | with_reducible exact Touches.refl _ _
    | ((with_reducible apply touches_State.live _ _ ?_); intro t; try dsimp only)
    | ((with_reducible apply touches_State.clocked _ _ ?_); intro t; try dsimp only)
    | ((with_reducible apply Touches.stepBy 0x2 (touches_State.auPreFilled _ _)); · decide)
    | ((intro t b); try dsimp only))

theorem touches_execAcqRecordClose (n : Fin 8) (s : State) :
    TouchesRes (mEvent ||| mFreeCtr ||| mStore ||| mCtxs ||| mBillets ||| mPorts ||| mAside ||| mBadLines ||| mAu) s (execAcqRecordClose n s) := by
  unfold execAcqRecordClose
  (try dsimp only)
  repeat' (first
    | refine Touches.res ?_
    | with_reducible exact Touches.refl _ _
    | ((with_reducible apply touches_State.live _ _ ?_); intro t; try dsimp only)
    | ((with_reducible apply touches_State.clocked _ _ ?_); intro t; try dsimp only)
    | ((with_reducible apply Touches.stepBy 0x1000017ee42 (touches_State.auRecordClose _ _)); · decide)
    | ((intro t b); try dsimp only))

theorem touches_execAcqHoldoffEnd (n : Fin 8) (s : State) :
    TouchesRes (mEvent ||| mTime) s (execAcqHoldoffEnd n s) := by
  unfold execAcqHoldoffEnd
  (try dsimp only)
  repeat' (first
    | refine Touches.res ?_
    | with_reducible exact Touches.refl _ _
    | ((with_reducible apply touches_State.live _ _ ?_); intro t; try dsimp only)
    | ((with_reducible apply touches_State.clocked _ _ ?_); intro t; try dsimp only)
    | ((with_reducible apply Touches.stepBy 0x68c2 (touches_State.auHoldoffEnd _ _)); · decide)
    | ((intro t b); try dsimp only))

theorem touches_execAcqLogFlush (n : Fin 8) (s : State) :
    TouchesRes (mEvent ||| mTime ||| mCtxs ||| mPorts ||| mAu) s (execAcqLogFlush n s) := by
  unfold execAcqLogFlush
  (try dsimp only)
  repeat' (first
    | refine Touches.res ?_
    | with_reducible exact Touches.refl _ _
    | ((with_reducible apply touches_State.live _ _ ?_); intro t; try dsimp only)
    | ((with_reducible apply touches_State.clocked _ _ ?_); intro t; try dsimp only)
    | ((with_reducible apply Touches.stepBy 0x1000002e8c2 (touches_State.logFlush _ _)); · decide)
    | ((intro t b); try dsimp only))

theorem touches_execAcqExtentRefill (n : Fin 8) (s : State) :
    TouchesRes (mEvent ||| mAside ||| mAu) s (execAcqExtentRefill n s) := by
  unfold execAcqExtentRefill
  (try dsimp only)
  repeat' (first
    | refine Touches.res ?_
    | with_reducible exact Touches.refl _ _
    | ((with_reducible apply touches_State.live _ _ ?_); intro t; try dsimp only)
    | ((with_reducible apply Touches.stepBy 0x10000046842 (touches_State.auRefill _ _)); · decide)
    | ((intro t b); try dsimp only))

theorem touches_execAcqSnap (n : Fin 8) (v : Word) (s : State) :
    TouchesRes (mRegs ||| mStaged) s (execAcqSnap n v s) := by
  unfold execAcqSnap
  (try dsimp only)
  repeat' (first
    | refine Touches.res ?_
    | with_reducible exact Touches.refl _ _
    | ((with_reducible apply touches_State.hostWr ?_ _ _ _ _ _ _ ?_); (· decide); intro v t; try dsimp only)
    | ((with_reducible apply Touches.stepBy 0x2 (touches_State.wrAcqSnap _ _ _)); · decide)
    | ((intro t b); try dsimp only))

theorem touches_execRmuRecord (s : State) :
    TouchesRes (mEvent ||| mFreeCtr ||| mCtxs ||| mPorts ||| mReplay) s (execRmuRecord s) := by
  unfold execRmuRecord
  (try dsimp only)
  repeat' (first
    | refine Touches.res ?_
    | with_reducible exact Touches.refl _ _
    | ((with_reducible apply touches_State.live _ _ ?_); intro t; try dsimp only)
    | ((with_reducible apply touches_State.clocked _ _ ?_); intro t; try dsimp only)
    | ((with_reducible apply Touches.stepBy 0x2000002ea42 (touches_State.rmuRecord _)); · decide)
    | ((intro t b); try dsimp only))

theorem touches_execRmuLevelWrite (l : Fin 9) (v : Word) (s : State) :
    TouchesRes (mEvent ||| mStaged) s (execRmuLevelWrite l v s) := by
  unfold execRmuLevelWrite
  (try dsimp only)
  repeat' (first
    | refine Touches.res ?_
    | with_reducible exact Touches.refl _ _
    | ((with_reducible apply touches_State.hostWr ?_ _ _ _ _ _ _ ?_); (· decide); intro v t; try dsimp only)
    | ((with_reducible apply Touches.stepBy 0x6842 (touches_State.wrRmuLevel _ _ _)); · decide)
    | ((intro t b); try dsimp only))

/-! ### Machine/TurfTick.lean -/

theorem touches_turfMove (c : Fin 32) (w : Nat) {f : State → Res} (h : turfMove c w = some f) (s : State) :
    TouchesRes (mEvent ||| mFreeCtr ||| mStore ||| mCtxs ||| mBillets ||| mBadLines ||| mTurf) s (f s) := by
  unfold turfMove at h
  dsimp only at h
  split at h
  all_goals repeat' (first
    | (cases h; done)
    | ((cases h); first
      | with_reducible exact (touches_execTNop _ _).mono (by decide)
      | with_reducible exact (touches_execTLdi _ _ _ _).mono (by decide)
      | with_reducible exact (touches_execTLd _ _ _ _ _).mono (by decide)
      | with_reducible exact (touches_execTSt _ _ _ _ _).mono (by decide)
      | with_reducible exact (touches_execTMov _ _ _ _).mono (by decide)
      | with_reducible exact (touches_execTMovcFromCr _ _ _ _).mono (by decide)
      | with_reducible exact (touches_execTMovcToCr _ _ _ _).mono (by decide)
      | with_reducible exact (touches_execTLdc _ _ _ _).mono (by decide)
      | with_reducible exact (touches_execTAdd _ _ _ _ _).mono (by decide)
      | with_reducible exact (touches_execTSub _ _ _ _ _).mono (by decide)
      | with_reducible exact (touches_execTAnd _ _ _ _ _).mono (by decide)
      | with_reducible exact (touches_execTOr _ _ _ _ _).mono (by decide)
      | with_reducible exact (touches_execTXor _ _ _ _ _).mono (by decide)
      | with_reducible exact (touches_execTAddi _ _ _ _).mono (by decide)
      | with_reducible exact (touches_execTAsh _ _ _ _ _).mono (by decide)
      | with_reducible exact (touches_execTAshi _ _ _ _ _).mono (by decide)
      | with_reducible exact (touches_execTCmp _ _ _ _).mono (by decide)
      | with_reducible exact (touches_execTAbs _ _ _ _).mono (by decide)
      | with_reducible exact (touches_execTMovm _ _ _ _ _ _).mono (by decide))
    | split at h
    | (obtain ⟨_, _, h⟩ := Option.bind_eq_some_iff.1 h))

theorem touches_turfAcc (c : Fin 32) (w : Nat) {f : State → Res} (h : turfAcc c w = some f) (s : State) :
    TouchesRes (mEvent ||| mFreeCtr ||| mStore ||| mCtxs ||| mBillets ||| mBadLines ||| mTurf) s (f s) := by
  unfold turfAcc at h
  dsimp only at h
  split at h
  all_goals repeat' (first
    | (cases h; done)
    | ((cases h); first
      | with_reducible exact (touches_execTMpy _ _ _ _ _).mono (by decide)
      | with_reducible exact (touches_execTMac _ _ _ _ _).mono (by decide)
      | with_reducible exact (touches_execTMsu _ _ _ _ _).mono (by decide)
      | with_reducible exact (touches_execTMacm _ _ _ _ _ _ _).mono (by decide)
      | with_reducible exact (touches_execTFtap _ _ _ _ _ _ _).mono (by decide)
      | with_reducible exact (touches_execTAdda _ _ _ _ _).mono (by decide)
      | with_reducible exact (touches_execTClra _ _ _).mono (by decide)
      | with_reducible exact (touches_execTAcp _ _ _).mono (by decide)
      | with_reducible exact (touches_execTExt _ _ _ _ _).mono (by decide)
      | with_reducible exact (touches_execTSha _ _ _ _).mono (by decide)
      | with_reducible exact (touches_execTExpd _ _ _ _).mono (by decide)
      | with_reducible exact (touches_execTExpa _ _ _ _).mono (by decide)
      | with_reducible exact (touches_execTBexp _ _ _ _ _).mono (by decide)
      | with_reducible exact (touches_execTBscl _ _ _ _ _).mono (by decide))
    | split at h
    | (obtain ⟨_, _, h⟩ := Option.bind_eq_some_iff.1 h))

theorem touches_turfMb (c : Fin 32) (w : Nat) {f : State → Res} (h : turfMb c w = some f) (s : State) :
    TouchesRes (mEvent ||| mFreeCtr ||| mStore ||| mCtxs ||| mBillets ||| mBadLines ||| mTurf) s (f s) := by
  unfold turfMb at h
  dsimp only at h
  split at h
  all_goals repeat' (first
    | (cases h; done)
    | ((cases h); first
      | with_reducible exact (touches_execTMbr _ _ _ _).mono (by decide)
      | with_reducible exact (touches_execTMbw _ _ _ _).mono (by decide)
      | with_reducible exact (touches_execTMback _ _).mono (by decide)
      | with_reducible exact (touches_execTMbpost _ _).mono (by decide))
    | split at h
    | (obtain ⟨_, _, h⟩ := Option.bind_eq_some_iff.1 h))

theorem touches_turfFlow (c : Fin 32) (w : Nat) {f : State → Res} (h : turfFlow c w = some f) (s : State) :
    TouchesRes (mEvent ||| mFreeCtr ||| mStore ||| mCtxs ||| mBillets ||| mBadLines ||| mTurf) s (f s) := by
  unfold turfFlow at h
  dsimp only at h
  split at h
  all_goals repeat' (first
    | exact touches_turfMb _ _ h s
    | (cases h; done)
    | ((cases h); first
      | with_reducible exact (touches_execTB _ _ _ _).mono (by decide)
      | with_reducible exact (touches_execTCall _ _ _).mono (by decide)
      | with_reducible exact (touches_execTRet _ _).mono (by decide)
      | with_reducible exact (touches_execTReti _ _).mono (by decide)
      | with_reducible exact (touches_execTRpt _ _ _).mono (by decide)
      | with_reducible exact (touches_execTRptd _ _ _).mono (by decide)
      | with_reducible exact (touches_execTLoop _ _ _ _).mono (by decide)
      | with_reducible exact (touches_execTLoopd _ _ _ _).mono (by decide)
      | with_reducible exact (touches_execTHalt _ _).mono (by decide)
      | with_reducible exact (touches_execTIdle _ _).mono (by decide)
      | with_reducible exact (touches_execTGetr _ _ _).mono (by decide)
      | with_reducible exact (touches_execTRelr _ _).mono (by decide)
      | with_reducible exact (touches_execTSend _ _ _ _).mono (by decide)
      | with_reducible exact (touches_execTSwait _ _).mono (by decide)
      | with_reducible exact touches_turfMb _ _ (by assumption) s)
    | split at h
    | (obtain ⟨_, _, h⟩ := Option.bind_eq_some_iff.1 h))

theorem touches_turfDecode (c : Fin 32) (w : Nat) {f : State → Res} (h : turfDecode c w = some f) (s : State) :
    TouchesRes (mEvent ||| mFreeCtr ||| mStore ||| mCtxs ||| mBillets ||| mBadLines ||| mTurf) s (f s) := by
  unfold turfDecode at h
  split at h
  · exact touches_turfMove c w h s
  · split at h
    · exact touches_turfAcc c w h s
    · exact touches_turfFlow c w h s

theorem touches_Res.stateOr {m : Nat} {s : State} {r : Res} (h : TouchesRes m s r) : Touches m s (Res.stateOr s r) := by
  obtain ⟨t, e, k⟩ := h
  rw [e]
  exact k

theorem touches_State.tcTick (s : State) (c : Fin 32) : Touches (mEvent ||| mFreeCtr ||| mStore ||| mCtxs ||| mBillets ||| mBadLines ||| mTurf) s (State.tcTick s c) := by
  unfold State.tcTick
  dsimp only
  split
  · exact (touches_State.tcInterrupt _ _).mono (by decide)
  · split
    · split
      · next e => exact touches_Res.stateOr (touches_turfDecode _ _ e s)
      · exact (touches_State.tcFault _ _ _).mono (by decide)
    · exact (touches_State.tcCycle _ _ _).mono (by decide)

theorem touches_State.turfTick (s : State) :
    Touches (mEvent ||| mFreeCtr ||| mStore ||| mCtxs ||| mBillets ||| mBadLines ||| mTurf) s (State.turfTick s) := by
  unfold State.turfTick
  (try dsimp only)
  repeat' (first
    | with_reducible exact Touches.refl _ _
    | ((with_reducible apply Touches.stepBy 0x4000011ee42 (touches_State.tcTick _ _)); · decide)
    | ((with_reducible refine Touches.foldl ?_ ?_))
    | ((intro t b); try dsimp only)
    | split)

end Sys2Proof.Machine
end

