-- ==== Sys2Proof/Laws/Exec.lean ====
section
/-! SUPPORT. What a command can touch at most, and that every command goes on: these are to be cited in place of unfolding a meaning. -/

set_option Elab.async false

namespace Sys2Proof.Machine

/-- Every command answers a next state, keeps the tables canonical, and burns fuses only. -/
theorem exec_goesOn (c : Instr) (s : State) : ∃ m, TouchesRes m s (exec c s) := by
  cases c with
  | registerWrite p bar a v env => exact ⟨_, touches_execRegisterWrite p bar a v env s⟩
  | lowHalfRead p bar n => exact ⟨_, touches_execLowHalfRead p bar n s⟩
  | highHalfRead p bar n => exact ⟨_, touches_execHighHalfRead p bar n s⟩
  | lowHalfWrite p bar n v env => exact ⟨_, touches_execLowHalfWrite p bar n v env s⟩
  | highHalfWrite p bar n v env => exact ⟨_, touches_execHighHalfWrite p bar n v env s⟩
  | reservedAddressAccess p bar a sz write => exact ⟨_, touches_execReservedAddressAccess p bar a sz write s⟩
  | devidWrite v => exact ⟨_, touches_execDevidWrite v s⟩
  | devidLock v => exact ⟨_, touches_execDevidLock v s⟩
  | dpRestart v => exact ⟨_, touches_execDpRestart v s⟩
  | restartFaultRecords => exact ⟨_, touches_execRestartFaultRecords s⟩
  | restartUnitReset => exact ⟨_, touches_execRestartUnitReset s⟩
  | restartTrainingEnd ok => exact ⟨_, touches_execRestartTrainingEnd ok s⟩
  | restartActivate => exact ⟨_, touches_execRestartActivate s⟩
  | restartTimeout => exact ⟨_, touches_execRestartTimeout s⟩
  | refLoss integ => exact ⟨_, touches_execRefLoss integ s⟩
  | refRestored => exact ⟨_, touches_execRefRestored s⟩
  | mpllLockDeclared => exact ⟨_, touches_execMpllLockDeclared s⟩
  | mpllLol integ => exact ⟨_, touches_execMpllLol integ s⟩
  | mpllFreqGate err => exact ⟨_, touches_execMpllFreqGate err s⟩
  | holdoverUpdate meas => exact ⟨_, touches_execHoldoverUpdate meas s⟩
  | lpllHoldover => exact ⟨_, touches_execLpllHoldover s⟩
  | lpllRelocked => exact ⟨_, touches_execLpllRelocked s⟩
  | retune v => exact ⟨_, touches_execRetune v s⟩
  | retuneSettleDone fs => exact ⟨_, touches_execRetuneSettleDone fs s⟩
  | retuneTimeout => exact ⟨_, touches_execRetuneTimeout s⟩
  | heldRetry => exact ⟨_, touches_execHeldRetry s⟩
  | syncArm v => exact ⟨_, touches_execSyncArm v s⟩
  | syncinEdge same => exact ⟨_, touches_execSyncinEdge same s⟩
  | attGo n v => exact ⟨_, touches_execAttGo n v s⟩
  | attApply n => exact ⟨_, touches_execAttApply n s⟩
  | chcorrWrite n v => exact ⟨_, touches_execChcorrWrite n v s⟩
  | sliceWrite n k v => exact ⟨_, touches_execSliceWrite n k v s⟩
  | bgEnWrite n v => exact ⟨_, touches_execBgEnWrite n v s⟩
  | bgSettleEnd n => exact ⟨_, touches_execBgSettleEnd n s⟩
  | bgShadowEnd n w => exact ⟨_, touches_execBgShadowEnd n w s⟩
  | bgWindowEnd n w => exact ⟨_, touches_execBgWindowEnd n w s⟩
  | bgIntervalEnd n => exact ⟨_, touches_execBgIntervalEnd n s⟩
  | monitorTrip m v => exact ⟨_, touches_execMonitorTrip m v s⟩
  | monSample m v => exact ⟨_, touches_execMonSample m v s⟩
  | monPeriodClear m => exact ⟨_, touches_execMonPeriodClear m s⟩
  | monLatchClear m v => exact ⟨_, touches_execMonLatchClear m v s⟩
  | monCfgWrite m v => exact ⟨_, touches_execMonCfgWrite m v s⟩
  | pgSwTrip g v => exact ⟨_, touches_execPgSwTrip g v s⟩
  | pgTripClear g v => exact ⟨_, touches_execPgTripClear g v s⟩
  | pgSafeWrite g v => exact ⟨_, touches_execPgSafeWrite g v s⟩
  | pgArm g v => exact ⟨_, touches_execPgArm g v s⟩
  | pgScheduleCommit g => exact ⟨_, touches_execPgScheduleCommit g s⟩
  | pgEdge g => exact ⟨_, touches_execPgEdge g s⟩
  | tbsAdjWrite v => exact ⟨_, touches_execTbsAdjWrite v s⟩
  | tbsSlewWrite v => exact ⟨_, touches_execTbsSlewWrite v s⟩
  | tbsStepWrite v => exact ⟨_, touches_execTbsStepWrite v s⟩
  | servoSourceWrite v => exact ⟨_, touches_execServoSourceWrite v s⟩
  | hostLockWrite v => exact ⟨_, touches_execHostLockWrite v s⟩
  | ptpUpdate offPs step => exact ⟨_, touches_execPtpUpdate offPs step s⟩
  | servoMissTimeout => exact ⟨_, touches_execServoMissTimeout s⟩
  | hostTimeout => exact ⟨_, touches_execHostTimeout s⟩
  | tdcEdge c t rising => exact ⟨_, touches_execTdcEdge c t rising s⟩
  | stampsFlush c => exact ⟨_, touches_execStampsFlush c s⟩
  | vernierRemeasure a b => exact ⟨_, touches_execVernierRemeasure a b s⟩
  | freqEnWrite v => exact ⟨_, touches_execFreqEnWrite v s⟩
  | freqGateOpen => exact ⟨_, touches_execFreqGateOpen s⟩
  | freqGateEnd => exact ⟨_, touches_execFreqGateEnd s⟩
  | tdcFreqSnap v => exact ⟨_, touches_execTdcFreqSnap v s⟩
  | calGo v => exact ⟨_, touches_execCalGo v s⟩
  | calAbort v => exact ⟨_, touches_execCalAbort v s⟩
  | calStoreStart v => exact ⟨_, touches_execCalStoreStart v s⟩
  | calPhaseEnd m => exact ⟨_, touches_execCalPhaseEnd m s⟩
  | calAgeDue n => exact ⟨_, touches_execCalAgeDue n s⟩
  | calAutoStart => exact ⟨_, touches_execCalAutoStart s⟩
  | calRetryExpiry n => exact ⟨_, touches_execCalRetryExpiry n s⟩
  | storeWriteEnd ok => exact ⟨_, touches_execStoreWriteEnd ok s⟩
  | planLoad v => exact ⟨_, touches_execPlanLoad v s⟩
  | planFetchDone img => exact ⟨_, touches_execPlanFetchDone img s⟩
  | planActivate v => exact ⟨_, touches_execPlanActivate v s⟩
  | planAbort v => exact ⟨_, touches_execPlanAbort v s⟩
  | planDiscard v => exact ⟨_, touches_execPlanDiscard v s⟩
  | planStop v => exact ⟨_, touches_execPlanStop v s⟩
  | planCommit => exact ⟨_, touches_execPlanCommit s⟩
  | planStopCommit => exact ⟨_, touches_execPlanStopCommit s⟩
  | pcommitGo v => exact ⟨_, touches_execPcommitGo v s⟩
  | paramCommit => exact ⟨_, touches_execParamCommit s⟩
  | ddcSwapGo u v => exact ⟨_, touches_execDdcSwapGo u v s⟩
  | ddcSwapCancel u v => exact ⟨_, touches_execDdcSwapCancel u v s⟩
  | ddcSwapCommit u => exact ⟨_, touches_execDdcSwapCommit u s⟩
  | ddcSwapDone u => exact ⟨_, touches_execDdcSwapDone u s⟩
  | ddcCoefWrite u k b r v => exact ⟨_, touches_execDdcCoefWrite u k b r v s⟩
  | ddcNcoRstArm u v => exact ⟨_, touches_execDdcNcoRstArm u v s⟩
  | tabLoad n v => exact ⟨_, touches_execTabLoad n v s⟩
  | tabLoadEnd n ws => exact ⟨_, touches_execTabLoadEnd n ws s⟩
  | tabSwapGo n v => exact ⟨_, touches_execTabSwapGo n v s⟩
  | tabSwapCancel n v => exact ⟨_, touches_execTabSwapCancel n v s⟩
  | tabSwapCommit n => exact ⟨_, touches_execTabSwapCommit n s⟩
  | xfmCtrlWrite n v => exact ⟨_, touches_execXfmCtrlWrite n v s⟩
  | xfmFrame n => exact ⟨_, touches_execXfmFrame n s⟩
  | detFrame n => exact ⟨_, touches_execDetFrame n s⟩
  | detReadoutDone n => exact ⟨_, touches_execDetReadoutDone n s⟩
  | detWrite n reg v => exact ⟨_, touches_execDetWrite n reg v s⟩
  | denFrame n => exact ⟨_, touches_execDenFrame n s⟩
  | denReadoutDone n => exact ⟨_, touches_execDenReadoutDone n s⟩
  | denWrite n reg v => exact ⟨_, touches_execDenWrite n reg v s⟩
  | tbusEvent l t => exact ⟨_, touches_execTbusEvent l t s⟩
  | tbusPulseEnd l => exact ⟨_, touches_execTbusPulseEnd l s⟩
  | ltCrossing ix => exact ⟨_, touches_execLtCrossing ix s⟩
  | fmFrame u => exact ⟨_, touches_execFmFrame u s⟩
  | trgTimerEvent n => exact ⟨_, touches_execTrgTimerEvent n s⟩
  | trgSwFire v => exact ⟨_, touches_execTrgSwFire v s⟩
  | tqEventArrival q => exact ⟨_, touches_execTqEventArrival q s⟩
  | tqHorizon q => exact ⟨_, touches_execTqHorizon q s⟩
  | tqAutoTimeout q => exact ⟨_, touches_execTqAutoTimeout q s⟩
  | tqFreeRunDecision q => exact ⟨_, touches_execTqFreeRunDecision q s⟩
  | tqArm q v => exact ⟨_, touches_execTqArm q v s⟩
  | tqDisarm q v => exact ⟨_, touches_execTqDisarm q v s⟩
  | trgTqSnap q v => exact ⟨_, touches_execTrgTqSnap q v s⟩
  | acqArm n v => exact ⟨_, touches_execAcqArm n v s⟩
  | acqStop n v => exact ⟨_, touches_execAcqStop n v s⟩
  | acqDecision n => exact ⟨_, touches_execAcqDecision n s⟩
  | acqPreFilled n => exact ⟨_, touches_execAcqPreFilled n s⟩
  | acqRecordClose n => exact ⟨_, touches_execAcqRecordClose n s⟩
  | acqHoldoffEnd n => exact ⟨_, touches_execAcqHoldoffEnd n s⟩
  | acqLogFlush n => exact ⟨_, touches_execAcqLogFlush n s⟩
  | acqExtentRefill n => exact ⟨_, touches_execAcqExtentRefill n s⟩
  | acqSnap n v => exact ⟨_, touches_execAcqSnap n v s⟩
  | rmuRecord => exact ⟨_, touches_execRmuRecord s⟩
  | rmuLevelWrite l v => exact ⟨_, touches_execRmuLevelWrite l v s⟩
  | tcRun c v => exact ⟨_, touches_execTcRun c v s⟩
  | tcAbort c v => exact ⟨_, touches_execTcAbort c v s⟩
  | tcPmWrite c a v => exact ⟨_, touches_execTcPmWrite c a v s⟩
  | tcDmWrite c a v => exact ⟨_, touches_execTcDmWrite c a v s⟩
  | tcSinWrite c v => exact ⟨_, touches_execTcSinWrite c v s⟩
  | tcMbinWrite c k v => exact ⟨_, touches_execTcMbinWrite c k v s⟩
  | tcMbinPost c v => exact ⟨_, touches_execTcMbinPost c v s⟩
  | tcMboutAck c v => exact ⟨_, touches_execTcMboutAck c v s⟩
  | tcRecordArrival k ix => exact ⟨_, touches_execTcRecordArrival k ix s⟩
  | tcClusterReadout k => exact ⟨_, touches_execTcClusterReadout k s⟩
  | tcTimerExpiry c => exact ⟨_, touches_execTcTimerExpiry c s⟩
  | tcWatchdog c => exact ⟨_, touches_execTcWatchdog c s⟩
  | tcInterrupt c => exact ⟨_, touches_execTcInterrupt c s⟩
  | tNop c => exact ⟨_, touches_execTNop c s⟩
  | tLdi c d imm => exact ⟨_, touches_execTLdi c d imm s⟩
  | tLd c d p am => exact ⟨_, touches_execTLd c d p am s⟩
  | tSt c d p am => exact ⟨_, touches_execTSt c d p am s⟩
  | tMov c d a => exact ⟨_, touches_execTMov c d a s⟩
  | tMovcFromCr c d r => exact ⟨_, touches_execTMovcFromCr c d r s⟩
  | tMovcToCr c r d => exact ⟨_, touches_execTMovcToCr c r d s⟩
  | tLdc c r imm => exact ⟨_, touches_execTLdc c r imm s⟩
  | tAdd c d a b => exact ⟨_, touches_execTAdd c d a b s⟩
  | tSub c d a b => exact ⟨_, touches_execTSub c d a b s⟩
  | tAnd c d a b => exact ⟨_, touches_execTAnd c d a b s⟩
  | tOr c d a b => exact ⟨_, touches_execTOr c d a b s⟩
  | tXor c d a b => exact ⟨_, touches_execTXor c d a b s⟩
  | tAddi c d imm => exact ⟨_, touches_execTAddi c d imm s⟩
  | tAsh c d a b => exact ⟨_, touches_execTAsh c d a b s⟩
  | tAshi c d a n => exact ⟨_, touches_execTAshi c d a n s⟩
  | tCmp c a b => exact ⟨_, touches_execTCmp c a b s⟩
  | tAbs c d a => exact ⟨_, touches_execTAbs c d a s⟩
  | tMovm c px amx py amy => exact ⟨_, touches_execTMovm c px amx py amy s⟩
  | tMpy c a dx dy => exact ⟨_, touches_execTMpy c a dx dy s⟩
  | tMac c a dx dy => exact ⟨_, touches_execTMac c a dx dy s⟩
  | tMsu c a dx dy => exact ⟨_, touches_execTMsu c a dx dy s⟩
  | tMacm c a px amx py amy => exact ⟨_, touches_execTMacm c a px amx py amy s⟩
  | tFtap c a px amx py amy => exact ⟨_, touches_execTFtap c a px amx py amy s⟩
  | tAdda c a dx sh => exact ⟨_, touches_execTAdda c a dx sh s⟩
  | tClra c a => exact ⟨_, touches_execTClra c a s⟩
  | tAcp c a => exact ⟨_, touches_execTAcp c a s⟩
  | tExt c d a n => exact ⟨_, touches_execTExt c d a n s⟩
  | tSha c a n => exact ⟨_, touches_execTSha c a n s⟩
  | tExpd c d a => exact ⟨_, touches_execTExpd c d a s⟩
  | tExpa c d a => exact ⟨_, touches_execTExpa c d a s⟩
  | tBexp c d p am => exact ⟨_, touches_execTBexp c d p am s⟩
  | tBscl c p am d => exact ⟨_, touches_execTBscl c p am d s⟩
  | tB c cond t => exact ⟨_, touches_execTB c cond t s⟩
  | tCall c t => exact ⟨_, touches_execTCall c t s⟩
  | tRet c => exact ⟨_, touches_execTRet c s⟩
  | tReti c => exact ⟨_, touches_execTReti c s⟩
  | tRpt c n1 => exact ⟨_, touches_execTRpt c n1 s⟩
  | tRptd c a => exact ⟨_, touches_execTRptd c a s⟩
  | tLoop c n t => exact ⟨_, touches_execTLoop c n t s⟩
  | tLoopd c a t => exact ⟨_, touches_execTLoopd c a t s⟩
  | tHalt c => exact ⟨_, touches_execTHalt c s⟩
  | tIdle c => exact ⟨_, touches_execTIdle c s⟩
  | tGetr c p => exact ⟨_, touches_execTGetr c p s⟩
  | tRelr c => exact ⟨_, touches_execTRelr c s⟩
  | tSend c p r => exact ⟨_, touches_execTSend c p r s⟩
  | tSwait c => exact ⟨_, touches_execTSwait c s⟩
  | tMbr c d w => exact ⟨_, touches_execTMbr c d w s⟩
  | tMbw c w d => exact ⟨_, touches_execTMbw c w d s⟩
  | tMback c => exact ⟨_, touches_execTMback c s⟩
  | tMbpost c => exact ⟨_, touches_execTMbpost c s⟩
  | recordArrival p => exact ⟨_, touches_execRecordArrival p s⟩
  | policingCreditResume x => exact ⟨_, touches_execPolicingCreditResume x s⟩
  | overflowStallResume x => exact ⟨_, touches_execOverflowStallResume x s⟩
  | faultRecordDeferred x => exact ⟨_, touches_execFaultRecordDeferred x s⟩
  | replaySend p => exact ⟨_, touches_execReplaySend p s⟩
  | stoTake => exact ⟨_, touches_execStoTake s⟩
  | stoFree => exact ⟨_, touches_execStoFree s⟩
  | stoFlush => exact ⟨_, touches_execStoFlush s⟩
  | stoDiscard => exact ⟨_, touches_execStoDiscard s⟩
  | stoQuery => exact ⟨_, touches_execStoQuery s⟩
  | stoCsnap v => exact ⟨_, touches_execStoCsnap v s⟩
  | biasSwitchDone b => exact ⟨_, touches_execBiasSwitchDone b s⟩
  | zcFlushTimer x => exact ⟨_, touches_execZcFlushTimer x s⟩
  | zcRelease x v => exact ⟨_, touches_execZcRelease x v s⟩
  | ctxFlush x v => exact ⟨_, touches_execCtxFlush x v s⟩
  | admOpen => exact ⟨_, touches_execAdmOpen s⟩
  | admClose => exact ⟨_, touches_execAdmClose s⟩
  | admTest => exact ⟨_, touches_execAdmTest s⟩
  | admSnap v => exact ⟨_, touches_execAdmSnap v s⟩
  | deadlineMiss x d => exact ⟨_, touches_execDeadlineMiss x d s⟩
  | memMapWrite v => exact ⟨_, touches_execMemMapWrite v s⟩
  | mapInitDone => exact ⟨_, touches_execMapInitDone s⟩
  | memSchedWrite v => exact ⟨_, touches_execMemSchedWrite v s⟩
  | memGranule ch waiting err => exact ⟨_, touches_execMemGranule ch waiting err s⟩
  | mr4Poll d code => exact ⟨_, touches_execMr4Poll d code s⟩
  | refreshDue ch wait => exact ⟨_, touches_execRefreshDue ch wait s⟩
  | retrain ch ok => exact ⟨_, touches_execRetrain ch ok s⟩
  | scrubRead err => exact ⟨_, touches_execScrubRead err s⟩
  | memUeSnap v => exact ⟨_, touches_execMemUeSnap v s⟩
  | cmpFlush u v => exact ⟨_, touches_execCmpFlush u v s⟩
  | cmpStreamBlock u => exact ⟨_, touches_execCmpStreamBlock u s⟩
  | cmpDecodeRecord u => exact ⟨_, touches_execCmpDecodeRecord u s⟩
  | cmpJobGo u v pre => exact ⟨_, touches_execCmpJobGo u v pre s⟩
  | cmpJobBlock u data => exact ⟨_, touches_execCmpJobBlock u data s⟩
  | cmpJobResume u v => exact ⟨_, touches_execCmpJobResume u v s⟩
  | cmpJobAbort u v => exact ⟨_, touches_execCmpJobAbort u v s⟩
  | cmpJobDone u => exact ⟨_, touches_execCmpJobDone u s⟩
  | cxlMemRead n => exact ⟨_, touches_execCxlMemRead n s⟩
  | cxlMemWrite => exact ⟨_, touches_execCxlMemWrite s⟩
  | hdmCommit one base size skip ways lock => exact ⟨_, touches_execHdmCommit one base size skip ways lock s⟩
  | hostSnoop => exact ⟨_, touches_execHostSnoop s⟩
  | linkRetrain width rate cxl => exact ⟨_, touches_execLinkRetrain width rate cxl s⟩
  | linkDown => exact ⟨_, touches_execLinkDown s⟩
  | cxlReset memClr => exact ⟨_, touches_execCxlReset memClr s⟩
  | flr => exact ⟨_, touches_execFlr s⟩
  | busMasterDisable => exact ⟨_, touches_execBusMasterDisable s⟩
  | completionTimeout r => exact ⟨_, touches_execCompletionTimeout r s⟩
  | poisonedCompletion r => exact ⟨_, touches_execPoisonedCompletion r s⟩
  | msixUnmask u => exact ⟨_, touches_execMsixUnmask u s⟩
  | msixModerationEnd v => exact ⟨_, touches_execMsixModerationEnd v s⟩
  | doeDiscovery req busy => exact ⟨_, touches_execDoeDiscovery req busy s⟩
  | cdatTableAccess req busy => exact ⟨_, touches_execCdatTableAccess req busy s⟩
  | getVersion req busy => exact ⟨_, touches_execGetVersion req busy s⟩
  | getCapabilities req busy => exact ⟨_, touches_execGetCapabilities req busy s⟩
  | negotiateAlgorithms req busy => exact ⟨_, touches_execNegotiateAlgorithms req busy s⟩
  | getDigests req busy => exact ⟨_, touches_execGetDigests req busy s⟩
  | getCertificate req busy off len => exact ⟨_, touches_execGetCertificate req busy off len s⟩
  | challenge req busy => exact ⟨_, touches_execChallenge req busy s⟩
  | getMeasurements req busy index signed => exact ⟨_, touches_execGetMeasurements req busy index signed s⟩
  | spdmUnsupportedRequest req busy => exact ⟨_, touches_execSpdmUnsupportedRequest req busy s⟩
  | dmaStart c v => exact ⟨_, touches_execDmaStart c v s⟩
  | dmaAbort c v => exact ⟨_, touches_execDmaAbort c v s⟩
  | dmaGiveBind c v => exact ⟨_, touches_execDmaGiveBind c v s⟩
  | dmaDescFetch c desc list => exact ⟨_, touches_execDmaDescFetch c desc list s⟩
  | dmaNop c => exact ⟨_, touches_execDmaNop c s⟩
  | ctxTake c => exact ⟨_, touches_execCtxTake c s⟩
  | ctxGive c data => exact ⟨_, touches_execCtxGive c data s⟩
  | storeRead c => exact ⟨_, touches_execStoreRead c s⟩
  | refTake c => exact ⟨_, touches_execRefTake c s⟩
  | refGive c => exact ⟨_, touches_execRefGive c s⟩
  | dmaRecordAvailable c => exact ⟨_, touches_execDmaRecordAvailable c s⟩
  | dmaIdleTimeout c => exact ⟨_, touches_execDmaIdleTimeout c s⟩
  | dmaDataCompletion c => exact ⟨_, touches_execDmaDataCompletion c s⟩
  | netPortCfgWrite p v => exact ⟨_, touches_execNetPortCfgWrite p v s⟩
  | netLinkUp ix => exact ⟨_, touches_execNetLinkUp ix s⟩
  | netLinkLoss ix => exact ⟨_, touches_execNetLinkLoss ix s⟩
  | netFrameRx ix f => exact ⟨_, touches_execNetFrameRx ix f s⟩
  | pauseFrameRx ix q pfc => exact ⟨_, touches_execPauseFrameRx ix q pfc s⟩
  | pauseExpiry ix => exact ⟨_, touches_execPauseExpiry ix s⟩
  | exqRxRelease ix v => exact ⟨_, touches_execExqRxRelease ix v s⟩
  | exqTxTail ix v => exact ⟨_, touches_execExqTxTail ix v s⟩
  | exqTxSend ix desc data fine => exact ⟨_, touches_execExqTxSend ix desc data fine s⟩
  | aveCmdOpen a v => exact ⟨_, touches_execAveCmdOpen a v s⟩
  | aveCmdClose a v => exact ⟨_, touches_execAveCmdClose a v s⟩
  | aveCmdReset a v => exact ⟨_, touches_execAveCmdReset a v s⟩
  | aveCmdSkip a v => exact ⟨_, touches_execAveCmdSkip a v s⟩
  | pktOpen ix p => exact ⟨_, touches_execOpen ix p s⟩
  | pktOpenAck ix p => exact ⟨_, touches_execOpenAck ix p s⟩
  | pktData ix p => exact ⟨_, touches_execData ix p s⟩
  | pktAck ix p => exact ⟨_, touches_execAck ix p s⟩
  | pktNak ix p => exact ⟨_, touches_execNak ix p s⟩
  | pktClose ix p => exact ⟨_, touches_execClose ix p s⟩
  | pktCloseAck ix p => exact ⟨_, touches_execCloseAck ix p s⟩
  | pktTrigger ix p => exact ⟨_, touches_execTrigger ix p s⟩
  | pktTrigAck ix p => exact ⟨_, touches_execTrigAck ix p s⟩
  | aveDataSend ix => exact ⟨_, touches_execAveDataSend ix s⟩
  | aveRtoExpiry a => exact ⟨_, touches_execAveRtoExpiry a s⟩
  | aveAckTimer a => exact ⟨_, touches_execAveAckTimer a s⟩
  | aveIdleAck a => exact ⟨_, touches_execAveIdleAck a s⟩
  | aveDeadExpiry a => exact ⟨_, touches_execAveDeadExpiry a s⟩
  | aveQuarantineEnd a => exact ⟨_, touches_execAveQuarantineEnd a s⟩
  | aveSnap a v => exact ⟨_, touches_execAveSnap a v s⟩
  | trigSendGo v => exact ⟨_, touches_execTrigSendGo v s⟩
  | trigResend a => exact ⟨_, touches_execTrigResend a s⟩
  | trigMessageRelease k => exact ⟨_, touches_execTrigMessageRelease k s⟩
  | disHpd n sink ok => exact ⟨_, touches_execDisHpd n sink ok s⟩
  | disCommit n v => exact ⟨_, touches_execDisCommit n v s⟩
  | disFrameStart n => exact ⟨_, touches_execDisFrameStart n s⟩
  | disClockStable n ok => exact ⟨_, touches_execDisClockStable n ok s⟩
  | disLayerRecord n l => exact ⟨_, touches_execDisLayerRecord n l s⟩
  | disAuxGo n v reply => exact ⟨_, touches_execDisAuxGo n v reply s⟩
  | disPalWrite n b ix v => exact ⟨_, touches_execDisPalWrite n b ix v s⟩
  | stkCmdQueue v => exact ⟨_, touches_execStkCmdQueue v s⟩
  | stkNop => exact ⟨_, touches_execStkNop s⟩
  | flashRead => exact ⟨_, touches_execFlashRead s⟩
  | flashUpdate img ok => exact ⟨_, touches_execFlashUpdate img ok s⟩
  | calStore => exact ⟨_, touches_execCalStore s⟩
  | keyProvision data ok => exact ⟨_, touches_execKeyProvision data ok s⟩
  | keyLock ok => exact ⟨_, touches_execKeyLock ok s⟩
  | svnCommit ok => exact ⟨_, touches_execSvnCommit ok s⟩
  | secureEnable ok => exact ⟨_, touches_execSecureEnable ok s⟩
  | stkCancel v => exact ⟨_, touches_execStkCancel v s⟩
  | stkCsEccError bad patch => exact ⟨_, touches_execStkCsEccError bad patch s⟩
  | stkWatchdog => exact ⟨_, touches_execStkWatchdog s⟩
  | porstAssert p => exact ⟨_, touches_execPorstAssert p s⟩
  | porstRelease p bootsel smbAddr => exact ⟨_, touches_execPorstRelease p bootsel smbAddr s⟩
  | bootStepEnd e => exact ⟨_, touches_execBootStepEnd e s⟩
  | evtRelease v => exact ⟨_, touches_execEvtRelease v s⟩
  | ringEnWrite v => exact ⟨_, touches_execRingEnWrite v s⟩
  | evtSwtest v => exact ⟨_, touches_execEvtSwtest v s⟩
  | injectEvent v => exact ⟨_, touches_execInjectEvent v s⟩
  | injectContext v => exact ⟨_, touches_execInjectContext v s⟩
  | injectMemCe v => exact ⟨_, touches_execInjectMemCe v s⟩
  | injectMemUe v => exact ⟨_, touches_execInjectMemUe v s⟩
  | injectRestart v => exact ⟨_, touches_execInjectRestart v s⟩
  | injectLock v => exact ⟨_, touches_execInjectLock v s⟩
  | railLow r mv => exact ⟨_, touches_execRailLow r mv s⟩
  | thmSensorUpdate temps rails => exact ⟨_, touches_execThmSensorUpdate temps rails s⟩
  | cnvStbyWrite v => exact ⟨_, touches_execCnvStbyWrite v s⟩
  | srEnWrite v => exact ⟨_, touches_execSrEnWrite v s⟩
  | selfRefreshEntry => exact ⟨_, touches_execSelfRefreshEntry s⟩
  | smbSetOffset bytes wrongPec => exact ⟨_, touches_execSmbSetOffset bytes wrongPec s⟩
  | smbRead => exact ⟨_, touches_execSmbRead s⟩
  | smbWrite bytes wrongPec env => exact ⟨_, touches_execSmbWrite bytes wrongPec env s⟩
  | smbStatus => exact ⟨_, touches_execSmbStatus s⟩
  | mgtSmbLock v => exact ⟨_, touches_execMgtSmbLock v s⟩
  | idcode => exact ⟨_, touches_execIdcode s⟩
  | samplePreload capture bits => exact ⟨_, touches_execSamplePreload capture bits s⟩
  | extest => exact ⟨_, touches_execExtest s⟩
  | clamp => exact ⟨_, touches_execClamp s⟩
  | highz => exact ⟨_, touches_execHighz s⟩
  | extestPulse => exact ⟨_, touches_execExtestPulse s⟩
  | extestTrain => exact ⟨_, touches_execExtestTrain s⟩
  | bypass => exact ⟨_, touches_execBypass s⟩
  | streetBeat c0 c1 c2 c3 => exact ⟨_, touches_execStreetBeat c0 c1 c2 c3 s⟩
  | scanoutLine n y den ovl => exact ⟨_, touches_execScanoutLine n y den ovl s⟩
  | railHigh r mv => exact ⟨_, touches_execRailHigh r mv s⟩
  | railRecovered r within => exact ⟨_, touches_execRailRecovered r within s⟩
  | tbusLineHigh l => exact ⟨_, touches_execTbusLineHigh l s⟩
  | tapReset => exact ⟨_, touches_execTapReset s⟩

/-- No command touches the queue. -/
theorem exec_pending (c : Instr) {s t : State} (h : exec c s = .next t) : t.pending = s.pending := by
  cases c with
  | registerWrite p bar a v env => exact ((touches_execRegisterWrite p bar a v env s).touches h).pending (by decide)
  | lowHalfRead p bar n => exact ((touches_execLowHalfRead p bar n s).touches h).pending (by decide)
  | highHalfRead p bar n => exact ((touches_execHighHalfRead p bar n s).touches h).pending (by decide)
  | lowHalfWrite p bar n v env => exact ((touches_execLowHalfWrite p bar n v env s).touches h).pending (by decide)
  | highHalfWrite p bar n v env => exact ((touches_execHighHalfWrite p bar n v env s).touches h).pending (by decide)
  | reservedAddressAccess p bar a sz write => exact ((touches_execReservedAddressAccess p bar a sz write s).touches h).pending (by decide)
  | devidWrite v => exact ((touches_execDevidWrite v s).touches h).pending (by decide)
  | devidLock v => exact ((touches_execDevidLock v s).touches h).pending (by decide)
  | dpRestart v => exact ((touches_execDpRestart v s).touches h).pending (by decide)
  | restartFaultRecords => exact ((touches_execRestartFaultRecords s).touches h).pending (by decide)
  | restartUnitReset => exact ((touches_execRestartUnitReset s).touches h).pending (by decide)
  | restartTrainingEnd ok => exact ((touches_execRestartTrainingEnd ok s).touches h).pending (by decide)
  | restartActivate => exact ((touches_execRestartActivate s).touches h).pending (by decide)
  | restartTimeout => exact ((touches_execRestartTimeout s).touches h).pending (by decide)
  | refLoss integ => exact ((touches_execRefLoss integ s).touches h).pending (by decide)
  | refRestored => exact ((touches_execRefRestored s).touches h).pending (by decide)
  | mpllLockDeclared => exact ((touches_execMpllLockDeclared s).touches h).pending (by decide)
  | mpllLol integ => exact ((touches_execMpllLol integ s).touches h).pending (by decide)
  | mpllFreqGate err => exact ((touches_execMpllFreqGate err s).touches h).pending (by decide)
  | holdoverUpdate meas => exact ((touches_execHoldoverUpdate meas s).touches h).pending (by decide)
  | lpllHoldover => exact ((touches_execLpllHoldover s).touches h).pending (by decide)
  | lpllRelocked => exact ((touches_execLpllRelocked s).touches h).pending (by decide)
  | retune v => exact ((touches_execRetune v s).touches h).pending (by decide)
  | retuneSettleDone fs => exact ((touches_execRetuneSettleDone fs s).touches h).pending (by decide)
  | retuneTimeout => exact ((touches_execRetuneTimeout s).touches h).pending (by decide)
  | heldRetry => exact ((touches_execHeldRetry s).touches h).pending (by decide)
  | syncArm v => exact ((touches_execSyncArm v s).touches h).pending (by decide)
  | syncinEdge same => exact ((touches_execSyncinEdge same s).touches h).pending (by decide)
  | attGo n v => exact ((touches_execAttGo n v s).touches h).pending (by decide)
  | attApply n => exact ((touches_execAttApply n s).touches h).pending (by decide)
  | chcorrWrite n v => exact ((touches_execChcorrWrite n v s).touches h).pending (by decide)
  | sliceWrite n k v => exact ((touches_execSliceWrite n k v s).touches h).pending (by decide)
  | bgEnWrite n v => exact ((touches_execBgEnWrite n v s).touches h).pending (by decide)
  | bgSettleEnd n => exact ((touches_execBgSettleEnd n s).touches h).pending (by decide)
  | bgShadowEnd n w => exact ((touches_execBgShadowEnd n w s).touches h).pending (by decide)
  | bgWindowEnd n w => exact ((touches_execBgWindowEnd n w s).touches h).pending (by decide)
  | bgIntervalEnd n => exact ((touches_execBgIntervalEnd n s).touches h).pending (by decide)
  | monitorTrip m v => exact ((touches_execMonitorTrip m v s).touches h).pending (by decide)
  | monSample m v => exact ((touches_execMonSample m v s).touches h).pending (by decide)
  | monPeriodClear m => exact ((touches_execMonPeriodClear m s).touches h).pending (by decide)
  | monLatchClear m v => exact ((touches_execMonLatchClear m v s).touches h).pending (by decide)
  | monCfgWrite m v => exact ((touches_execMonCfgWrite m v s).touches h).pending (by decide)
  | pgSwTrip g v => exact ((touches_execPgSwTrip g v s).touches h).pending (by decide)
  | pgTripClear g v => exact ((touches_execPgTripClear g v s).touches h).pending (by decide)
  | pgSafeWrite g v => exact ((touches_execPgSafeWrite g v s).touches h).pending (by decide)
  | pgArm g v => exact ((touches_execPgArm g v s).touches h).pending (by decide)
  | pgScheduleCommit g => exact ((touches_execPgScheduleCommit g s).touches h).pending (by decide)
  | pgEdge g => exact ((touches_execPgEdge g s).touches h).pending (by decide)
  | tbsAdjWrite v => exact ((touches_execTbsAdjWrite v s).touches h).pending (by decide)
  | tbsSlewWrite v => exact ((touches_execTbsSlewWrite v s).touches h).pending (by decide)
  | tbsStepWrite v => exact ((touches_execTbsStepWrite v s).touches h).pending (by decide)
  | servoSourceWrite v => exact ((touches_execServoSourceWrite v s).touches h).pending (by decide)
  | hostLockWrite v => exact ((touches_execHostLockWrite v s).touches h).pending (by decide)
  | ptpUpdate offPs step => exact ((touches_execPtpUpdate offPs step s).touches h).pending (by decide)
  | servoMissTimeout => exact ((touches_execServoMissTimeout s).touches h).pending (by decide)
  | hostTimeout => exact ((touches_execHostTimeout s).touches h).pending (by decide)
  | tdcEdge c t rising => exact ((touches_execTdcEdge c t rising s).touches h).pending (by decide)
  | stampsFlush c => exact ((touches_execStampsFlush c s).touches h).pending (by decide)
  | vernierRemeasure a b => exact ((touches_execVernierRemeasure a b s).touches h).pending (by decide)
  | freqEnWrite v => exact ((touches_execFreqEnWrite v s).touches h).pending (by decide)
  | freqGateOpen => exact ((touches_execFreqGateOpen s).touches h).pending (by decide)
  | freqGateEnd => exact ((touches_execFreqGateEnd s).touches h).pending (by decide)
  | tdcFreqSnap v => exact ((touches_execTdcFreqSnap v s).touches h).pending (by decide)
  | calGo v => exact ((touches_execCalGo v s).touches h).pending (by decide)
  | calAbort v => exact ((touches_execCalAbort v s).touches h).pending (by decide)
  | calStoreStart v => exact ((touches_execCalStoreStart v s).touches h).pending (by decide)
  | calPhaseEnd m => exact ((touches_execCalPhaseEnd m s).touches h).pending (by decide)
  | calAgeDue n => exact ((touches_execCalAgeDue n s).touches h).pending (by decide)
  | calAutoStart => exact ((touches_execCalAutoStart s).touches h).pending (by decide)
  | calRetryExpiry n => exact ((touches_execCalRetryExpiry n s).touches h).pending (by decide)
  | storeWriteEnd ok => exact ((touches_execStoreWriteEnd ok s).touches h).pending (by decide)
  | planLoad v => exact ((touches_execPlanLoad v s).touches h).pending (by decide)
  | planFetchDone img => exact ((touches_execPlanFetchDone img s).touches h).pending (by decide)
  | planActivate v => exact ((touches_execPlanActivate v s).touches h).pending (by decide)
  | planAbort v => exact ((touches_execPlanAbort v s).touches h).pending (by decide)
  | planDiscard v => exact ((touches_execPlanDiscard v s).touches h).pending (by decide)
  | planStop v => exact ((touches_execPlanStop v s).touches h).pending (by decide)
  | planCommit => exact ((touches_execPlanCommit s).touches h).pending (by decide)
  | planStopCommit => exact ((touches_execPlanStopCommit s).touches h).pending (by decide)
  | pcommitGo v => exact ((touches_execPcommitGo v s).touches h).pending (by decide)
  | paramCommit => exact ((touches_execParamCommit s).touches h).pending (by decide)
  | ddcSwapGo u v => exact ((touches_execDdcSwapGo u v s).touches h).pending (by decide)
  | ddcSwapCancel u v => exact ((touches_execDdcSwapCancel u v s).touches h).pending (by decide)
  | ddcSwapCommit u => exact ((touches_execDdcSwapCommit u s).touches h).pending (by decide)
  | ddcSwapDone u => exact ((touches_execDdcSwapDone u s).touches h).pending (by decide)
  | ddcCoefWrite u k b r v => exact ((touches_execDdcCoefWrite u k b r v s).touches h).pending (by decide)
  | ddcNcoRstArm u v => exact ((touches_execDdcNcoRstArm u v s).touches h).pending (by decide)
  | tabLoad n v => exact ((touches_execTabLoad n v s).touches h).pending (by decide)
  | tabLoadEnd n ws => exact ((touches_execTabLoadEnd n ws s).touches h).pending (by decide)
  | tabSwapGo n v => exact ((touches_execTabSwapGo n v s).touches h).pending (by decide)
  | tabSwapCancel n v => exact ((touches_execTabSwapCancel n v s).touches h).pending (by decide)
  | tabSwapCommit n => exact ((touches_execTabSwapCommit n s).touches h).pending (by decide)
  | xfmCtrlWrite n v => exact ((touches_execXfmCtrlWrite n v s).touches h).pending (by decide)
  | xfmFrame n => exact ((touches_execXfmFrame n s).touches h).pending (by decide)
  | detFrame n => exact ((touches_execDetFrame n s).touches h).pending (by decide)
  | detReadoutDone n => exact ((touches_execDetReadoutDone n s).touches h).pending (by decide)
  | detWrite n reg v => exact ((touches_execDetWrite n reg v s).touches h).pending (by decide)
  | denFrame n => exact ((touches_execDenFrame n s).touches h).pending (by decide)
  | denReadoutDone n => exact ((touches_execDenReadoutDone n s).touches h).pending (by decide)
  | denWrite n reg v => exact ((touches_execDenWrite n reg v s).touches h).pending (by decide)
  | tbusEvent l t => exact ((touches_execTbusEvent l t s).touches h).pending (by decide)
  | tbusPulseEnd l => exact ((touches_execTbusPulseEnd l s).touches h).pending (by decide)
  | ltCrossing ix => exact ((touches_execLtCrossing ix s).touches h).pending (by decide)
  | fmFrame u => exact ((touches_execFmFrame u s).touches h).pending (by decide)
  | trgTimerEvent n => exact ((touches_execTrgTimerEvent n s).touches h).pending (by decide)
  | trgSwFire v => exact ((touches_execTrgSwFire v s).touches h).pending (by decide)
  | tqEventArrival q => exact ((touches_execTqEventArrival q s).touches h).pending (by decide)
  | tqHorizon q => exact ((touches_execTqHorizon q s).touches h).pending (by decide)
  | tqAutoTimeout q => exact ((touches_execTqAutoTimeout q s).touches h).pending (by decide)
  | tqFreeRunDecision q => exact ((touches_execTqFreeRunDecision q s).touches h).pending (by decide)
  | tqArm q v => exact ((touches_execTqArm q v s).touches h).pending (by decide)
  | tqDisarm q v => exact ((touches_execTqDisarm q v s).touches h).pending (by decide)
  | trgTqSnap q v => exact ((touches_execTrgTqSnap q v s).touches h).pending (by decide)
  | acqArm n v => exact ((touches_execAcqArm n v s).touches h).pending (by decide)
  | acqStop n v => exact ((touches_execAcqStop n v s).touches h).pending (by decide)
  | acqDecision n => exact ((touches_execAcqDecision n s).touches h).pending (by decide)
  | acqPreFilled n => exact ((touches_execAcqPreFilled n s).touches h).pending (by decide)
  | acqRecordClose n => exact ((touches_execAcqRecordClose n s).touches h).pending (by decide)
  | acqHoldoffEnd n => exact ((touches_execAcqHoldoffEnd n s).touches h).pending (by decide)
  | acqLogFlush n => exact ((touches_execAcqLogFlush n s).touches h).pending (by decide)
  | acqExtentRefill n => exact ((touches_execAcqExtentRefill n s).touches h).pending (by decide)
  | acqSnap n v => exact ((touches_execAcqSnap n v s).touches h).pending (by decide)
  | rmuRecord => exact ((touches_execRmuRecord s).touches h).pending (by decide)
  | rmuLevelWrite l v => exact ((touches_execRmuLevelWrite l v s).touches h).pending (by decide)
  | tcRun c v => exact ((touches_execTcRun c v s).touches h).pending (by decide)
  | tcAbort c v => exact ((touches_execTcAbort c v s).touches h).pending (by decide)
  | tcPmWrite c a v => exact ((touches_execTcPmWrite c a v s).touches h).pending (by decide)
  | tcDmWrite c a v => exact ((touches_execTcDmWrite c a v s).touches h).pending (by decide)
  | tcSinWrite c v => exact ((touches_execTcSinWrite c v s).touches h).pending (by decide)
  | tcMbinWrite c k v => exact ((touches_execTcMbinWrite c k v s).touches h).pending (by decide)
  | tcMbinPost c v => exact ((touches_execTcMbinPost c v s).touches h).pending (by decide)
  | tcMboutAck c v => exact ((touches_execTcMboutAck c v s).touches h).pending (by decide)
  | tcRecordArrival k ix => exact ((touches_execTcRecordArrival k ix s).touches h).pending (by decide)
  | tcClusterReadout k => exact ((touches_execTcClusterReadout k s).touches h).pending (by decide)
  | tcTimerExpiry c => exact ((touches_execTcTimerExpiry c s).touches h).pending (by decide)
  | tcWatchdog c => exact ((touches_execTcWatchdog c s).touches h).pending (by decide)
  | tcInterrupt c => exact ((touches_execTcInterrupt c s).touches h).pending (by decide)
  | tNop c => exact ((touches_execTNop c s).touches h).pending (by decide)
  | tLdi c d imm => exact ((touches_execTLdi c d imm s).touches h).pending (by decide)
  | tLd c d p am => exact ((touches_execTLd c d p am s).touches h).pending (by decide)
  | tSt c d p am => exact ((touches_execTSt c d p am s).touches h).pending (by decide)
  | tMov c d a => exact ((touches_execTMov c d a s).touches h).pending (by decide)
  | tMovcFromCr c d r => exact ((touches_execTMovcFromCr c d r s).touches h).pending (by decide)
  | tMovcToCr c r d => exact ((touches_execTMovcToCr c r d s).touches h).pending (by decide)
  | tLdc c r imm => exact ((touches_execTLdc c r imm s).touches h).pending (by decide)
  | tAdd c d a b => exact ((touches_execTAdd c d a b s).touches h).pending (by decide)
  | tSub c d a b => exact ((touches_execTSub c d a b s).touches h).pending (by decide)
  | tAnd c d a b => exact ((touches_execTAnd c d a b s).touches h).pending (by decide)
  | tOr c d a b => exact ((touches_execTOr c d a b s).touches h).pending (by decide)
  | tXor c d a b => exact ((touches_execTXor c d a b s).touches h).pending (by decide)
  | tAddi c d imm => exact ((touches_execTAddi c d imm s).touches h).pending (by decide)
  | tAsh c d a b => exact ((touches_execTAsh c d a b s).touches h).pending (by decide)
  | tAshi c d a n => exact ((touches_execTAshi c d a n s).touches h).pending (by decide)
  | tCmp c a b => exact ((touches_execTCmp c a b s).touches h).pending (by decide)
  | tAbs c d a => exact ((touches_execTAbs c d a s).touches h).pending (by decide)
  | tMovm c px amx py amy => exact ((touches_execTMovm c px amx py amy s).touches h).pending (by decide)
  | tMpy c a dx dy => exact ((touches_execTMpy c a dx dy s).touches h).pending (by decide)
  | tMac c a dx dy => exact ((touches_execTMac c a dx dy s).touches h).pending (by decide)
  | tMsu c a dx dy => exact ((touches_execTMsu c a dx dy s).touches h).pending (by decide)
  | tMacm c a px amx py amy => exact ((touches_execTMacm c a px amx py amy s).touches h).pending (by decide)
  | tFtap c a px amx py amy => exact ((touches_execTFtap c a px amx py amy s).touches h).pending (by decide)
  | tAdda c a dx sh => exact ((touches_execTAdda c a dx sh s).touches h).pending (by decide)
  | tClra c a => exact ((touches_execTClra c a s).touches h).pending (by decide)
  | tAcp c a => exact ((touches_execTAcp c a s).touches h).pending (by decide)
  | tExt c d a n => exact ((touches_execTExt c d a n s).touches h).pending (by decide)
  | tSha c a n => exact ((touches_execTSha c a n s).touches h).pending (by decide)
  | tExpd c d a => exact ((touches_execTExpd c d a s).touches h).pending (by decide)
  | tExpa c d a => exact ((touches_execTExpa c d a s).touches h).pending (by decide)
  | tBexp c d p am => exact ((touches_execTBexp c d p am s).touches h).pending (by decide)
  | tBscl c p am d => exact ((touches_execTBscl c p am d s).touches h).pending (by decide)
  | tB c cond t => exact ((touches_execTB c cond t s).touches h).pending (by decide)
  | tCall c t => exact ((touches_execTCall c t s).touches h).pending (by decide)
  | tRet c => exact ((touches_execTRet c s).touches h).pending (by decide)
  | tReti c => exact ((touches_execTReti c s).touches h).pending (by decide)
  | tRpt c n1 => exact ((touches_execTRpt c n1 s).touches h).pending (by decide)
  | tRptd c a => exact ((touches_execTRptd c a s).touches h).pending (by decide)
  | tLoop c n t => exact ((touches_execTLoop c n t s).touches h).pending (by decide)
  | tLoopd c a t => exact ((touches_execTLoopd c a t s).touches h).pending (by decide)
  | tHalt c => exact ((touches_execTHalt c s).touches h).pending (by decide)
  | tIdle c => exact ((touches_execTIdle c s).touches h).pending (by decide)
  | tGetr c p => exact ((touches_execTGetr c p s).touches h).pending (by decide)
  | tRelr c => exact ((touches_execTRelr c s).touches h).pending (by decide)
  | tSend c p r => exact ((touches_execTSend c p r s).touches h).pending (by decide)
  | tSwait c => exact ((touches_execTSwait c s).touches h).pending (by decide)
  | tMbr c d w => exact ((touches_execTMbr c d w s).touches h).pending (by decide)
  | tMbw c w d => exact ((touches_execTMbw c w d s).touches h).pending (by decide)
  | tMback c => exact ((touches_execTMback c s).touches h).pending (by decide)
  | tMbpost c => exact ((touches_execTMbpost c s).touches h).pending (by decide)
  | recordArrival p => exact ((touches_execRecordArrival p s).touches h).pending (by decide)
  | policingCreditResume x => exact ((touches_execPolicingCreditResume x s).touches h).pending (by decide)
  | overflowStallResume x => exact ((touches_execOverflowStallResume x s).touches h).pending (by decide)
  | faultRecordDeferred x => exact ((touches_execFaultRecordDeferred x s).touches h).pending (by decide)
  | replaySend p => exact ((touches_execReplaySend p s).touches h).pending (by decide)
  | stoTake => exact ((touches_execStoTake s).touches h).pending (by decide)
  | stoFree => exact ((touches_execStoFree s).touches h).pending (by decide)
  | stoFlush => exact ((touches_execStoFlush s).touches h).pending (by decide)
  | stoDiscard => exact ((touches_execStoDiscard s).touches h).pending (by decide)
  | stoQuery => exact ((touches_execStoQuery s).touches h).pending (by decide)
  | stoCsnap v => exact ((touches_execStoCsnap v s).touches h).pending (by decide)
  | biasSwitchDone b => exact ((touches_execBiasSwitchDone b s).touches h).pending (by decide)
  | zcFlushTimer x => exact ((touches_execZcFlushTimer x s).touches h).pending (by decide)
  | zcRelease x v => exact ((touches_execZcRelease x v s).touches h).pending (by decide)
  | ctxFlush x v => exact ((touches_execCtxFlush x v s).touches h).pending (by decide)
  | admOpen => exact ((touches_execAdmOpen s).touches h).pending (by decide)
  | admClose => exact ((touches_execAdmClose s).touches h).pending (by decide)
  | admTest => exact ((touches_execAdmTest s).touches h).pending (by decide)
  | admSnap v => exact ((touches_execAdmSnap v s).touches h).pending (by decide)
  | deadlineMiss x d => exact ((touches_execDeadlineMiss x d s).touches h).pending (by decide)
  | memMapWrite v => exact ((touches_execMemMapWrite v s).touches h).pending (by decide)
  | mapInitDone => exact ((touches_execMapInitDone s).touches h).pending (by decide)
  | memSchedWrite v => exact ((touches_execMemSchedWrite v s).touches h).pending (by decide)
  | memGranule ch waiting err => exact ((touches_execMemGranule ch waiting err s).touches h).pending (by decide)
  | mr4Poll d code => exact ((touches_execMr4Poll d code s).touches h).pending (by decide)
  | refreshDue ch wait => exact ((touches_execRefreshDue ch wait s).touches h).pending (by decide)
  | retrain ch ok => exact ((touches_execRetrain ch ok s).touches h).pending (by decide)
  | scrubRead err => exact ((touches_execScrubRead err s).touches h).pending (by decide)
  | memUeSnap v => exact ((touches_execMemUeSnap v s).touches h).pending (by decide)
  | cmpFlush u v => exact ((touches_execCmpFlush u v s).touches h).pending (by decide)
  | cmpStreamBlock u => exact ((touches_execCmpStreamBlock u s).touches h).pending (by decide)
  | cmpDecodeRecord u => exact ((touches_execCmpDecodeRecord u s).touches h).pending (by decide)
  | cmpJobGo u v pre => exact ((touches_execCmpJobGo u v pre s).touches h).pending (by decide)
  | cmpJobBlock u data => exact ((touches_execCmpJobBlock u data s).touches h).pending (by decide)
  | cmpJobResume u v => exact ((touches_execCmpJobResume u v s).touches h).pending (by decide)
  | cmpJobAbort u v => exact ((touches_execCmpJobAbort u v s).touches h).pending (by decide)
  | cmpJobDone u => exact ((touches_execCmpJobDone u s).touches h).pending (by decide)
  | cxlMemRead n => exact ((touches_execCxlMemRead n s).touches h).pending (by decide)
  | cxlMemWrite => exact ((touches_execCxlMemWrite s).touches h).pending (by decide)
  | hdmCommit one base size skip ways lock => exact ((touches_execHdmCommit one base size skip ways lock s).touches h).pending (by decide)
  | hostSnoop => exact ((touches_execHostSnoop s).touches h).pending (by decide)
  | linkRetrain width rate cxl => exact ((touches_execLinkRetrain width rate cxl s).touches h).pending (by decide)
  | linkDown => exact ((touches_execLinkDown s).touches h).pending (by decide)
  | cxlReset memClr => exact ((touches_execCxlReset memClr s).touches h).pending (by decide)
  | flr => exact ((touches_execFlr s).touches h).pending (by decide)
  | busMasterDisable => exact ((touches_execBusMasterDisable s).touches h).pending (by decide)
  | completionTimeout r => exact ((touches_execCompletionTimeout r s).touches h).pending (by decide)
  | poisonedCompletion r => exact ((touches_execPoisonedCompletion r s).touches h).pending (by decide)
  | msixUnmask u => exact ((touches_execMsixUnmask u s).touches h).pending (by decide)
  | msixModerationEnd v => exact ((touches_execMsixModerationEnd v s).touches h).pending (by decide)
  | doeDiscovery req busy => exact ((touches_execDoeDiscovery req busy s).touches h).pending (by decide)
  | cdatTableAccess req busy => exact ((touches_execCdatTableAccess req busy s).touches h).pending (by decide)
  | getVersion req busy => exact ((touches_execGetVersion req busy s).touches h).pending (by decide)
  | getCapabilities req busy => exact ((touches_execGetCapabilities req busy s).touches h).pending (by decide)
  | negotiateAlgorithms req busy => exact ((touches_execNegotiateAlgorithms req busy s).touches h).pending (by decide)
  | getDigests req busy => exact ((touches_execGetDigests req busy s).touches h).pending (by decide)
  | getCertificate req busy off len => exact ((touches_execGetCertificate req busy off len s).touches h).pending (by decide)
  | challenge req busy => exact ((touches_execChallenge req busy s).touches h).pending (by decide)
  | getMeasurements req busy index signed => exact ((touches_execGetMeasurements req busy index signed s).touches h).pending (by decide)
  | spdmUnsupportedRequest req busy => exact ((touches_execSpdmUnsupportedRequest req busy s).touches h).pending (by decide)
  | dmaStart c v => exact ((touches_execDmaStart c v s).touches h).pending (by decide)
  | dmaAbort c v => exact ((touches_execDmaAbort c v s).touches h).pending (by decide)
  | dmaGiveBind c v => exact ((touches_execDmaGiveBind c v s).touches h).pending (by decide)
  | dmaDescFetch c desc list => exact ((touches_execDmaDescFetch c desc list s).touches h).pending (by decide)
  | dmaNop c => exact ((touches_execDmaNop c s).touches h).pending (by decide)
  | ctxTake c => exact ((touches_execCtxTake c s).touches h).pending (by decide)
  | ctxGive c data => exact ((touches_execCtxGive c data s).touches h).pending (by decide)
  | storeRead c => exact ((touches_execStoreRead c s).touches h).pending (by decide)
  | refTake c => exact ((touches_execRefTake c s).touches h).pending (by decide)
  | refGive c => exact ((touches_execRefGive c s).touches h).pending (by decide)
  | dmaRecordAvailable c => exact ((touches_execDmaRecordAvailable c s).touches h).pending (by decide)
  | dmaIdleTimeout c => exact ((touches_execDmaIdleTimeout c s).touches h).pending (by decide)
  | dmaDataCompletion c => exact ((touches_execDmaDataCompletion c s).touches h).pending (by decide)
  | netPortCfgWrite p v => exact ((touches_execNetPortCfgWrite p v s).touches h).pending (by decide)
  | netLinkUp ix => exact ((touches_execNetLinkUp ix s).touches h).pending (by decide)
  | netLinkLoss ix => exact ((touches_execNetLinkLoss ix s).touches h).pending (by decide)
  | netFrameRx ix f => exact ((touches_execNetFrameRx ix f s).touches h).pending (by decide)
  | pauseFrameRx ix q pfc => exact ((touches_execPauseFrameRx ix q pfc s).touches h).pending (by decide)
  | pauseExpiry ix => exact ((touches_execPauseExpiry ix s).touches h).pending (by decide)
  | exqRxRelease ix v => exact ((touches_execExqRxRelease ix v s).touches h).pending (by decide)
  | exqTxTail ix v => exact ((touches_execExqTxTail ix v s).touches h).pending (by decide)
  | exqTxSend ix desc data fine => exact ((touches_execExqTxSend ix desc data fine s).touches h).pending (by decide)
  | aveCmdOpen a v => exact ((touches_execAveCmdOpen a v s).touches h).pending (by decide)
  | aveCmdClose a v => exact ((touches_execAveCmdClose a v s).touches h).pending (by decide)
  | aveCmdReset a v => exact ((touches_execAveCmdReset a v s).touches h).pending (by decide)
  | aveCmdSkip a v => exact ((touches_execAveCmdSkip a v s).touches h).pending (by decide)
  | pktOpen ix p => exact ((touches_execOpen ix p s).touches h).pending (by decide)
  | pktOpenAck ix p => exact ((touches_execOpenAck ix p s).touches h).pending (by decide)
  | pktData ix p => exact ((touches_execData ix p s).touches h).pending (by decide)
  | pktAck ix p => exact ((touches_execAck ix p s).touches h).pending (by decide)
  | pktNak ix p => exact ((touches_execNak ix p s).touches h).pending (by decide)
  | pktClose ix p => exact ((touches_execClose ix p s).touches h).pending (by decide)
  | pktCloseAck ix p => exact ((touches_execCloseAck ix p s).touches h).pending (by decide)
  | pktTrigger ix p => exact ((touches_execTrigger ix p s).touches h).pending (by decide)
  | pktTrigAck ix p => exact ((touches_execTrigAck ix p s).touches h).pending (by decide)
  | aveDataSend ix => exact ((touches_execAveDataSend ix s).touches h).pending (by decide)
  | aveRtoExpiry a => exact ((touches_execAveRtoExpiry a s).touches h).pending (by decide)
  | aveAckTimer a => exact ((touches_execAveAckTimer a s).touches h).pending (by decide)
  | aveIdleAck a => exact ((touches_execAveIdleAck a s).touches h).pending (by decide)
  | aveDeadExpiry a => exact ((touches_execAveDeadExpiry a s).touches h).pending (by decide)
  | aveQuarantineEnd a => exact ((touches_execAveQuarantineEnd a s).touches h).pending (by decide)
  | aveSnap a v => exact ((touches_execAveSnap a v s).touches h).pending (by decide)
  | trigSendGo v => exact ((touches_execTrigSendGo v s).touches h).pending (by decide)
  | trigResend a => exact ((touches_execTrigResend a s).touches h).pending (by decide)
  | trigMessageRelease k => exact ((touches_execTrigMessageRelease k s).touches h).pending (by decide)
  | disHpd n sink ok => exact ((touches_execDisHpd n sink ok s).touches h).pending (by decide)
  | disCommit n v => exact ((touches_execDisCommit n v s).touches h).pending (by decide)
  | disFrameStart n => exact ((touches_execDisFrameStart n s).touches h).pending (by decide)
  | disClockStable n ok => exact ((touches_execDisClockStable n ok s).touches h).pending (by decide)
  | disLayerRecord n l => exact ((touches_execDisLayerRecord n l s).touches h).pending (by decide)
  | disAuxGo n v reply => exact ((touches_execDisAuxGo n v reply s).touches h).pending (by decide)
  | disPalWrite n b ix v => exact ((touches_execDisPalWrite n b ix v s).touches h).pending (by decide)
  | stkCmdQueue v => exact ((touches_execStkCmdQueue v s).touches h).pending (by decide)
  | stkNop => exact ((touches_execStkNop s).touches h).pending (by decide)
  | flashRead => exact ((touches_execFlashRead s).touches h).pending (by decide)
  | flashUpdate img ok => exact ((touches_execFlashUpdate img ok s).touches h).pending (by decide)
  | calStore => exact ((touches_execCalStore s).touches h).pending (by decide)
  | keyProvision data ok => exact ((touches_execKeyProvision data ok s).touches h).pending (by decide)
  | keyLock ok => exact ((touches_execKeyLock ok s).touches h).pending (by decide)
  | svnCommit ok => exact ((touches_execSvnCommit ok s).touches h).pending (by decide)
  | secureEnable ok => exact ((touches_execSecureEnable ok s).touches h).pending (by decide)
  | stkCancel v => exact ((touches_execStkCancel v s).touches h).pending (by decide)
  | stkCsEccError bad patch => exact ((touches_execStkCsEccError bad patch s).touches h).pending (by decide)
  | stkWatchdog => exact ((touches_execStkWatchdog s).touches h).pending (by decide)
  | porstAssert p => exact ((touches_execPorstAssert p s).touches h).pending (by decide)
  | porstRelease p bootsel smbAddr => exact ((touches_execPorstRelease p bootsel smbAddr s).touches h).pending (by decide)
  | bootStepEnd e => exact ((touches_execBootStepEnd e s).touches h).pending (by decide)
  | evtRelease v => exact ((touches_execEvtRelease v s).touches h).pending (by decide)
  | ringEnWrite v => exact ((touches_execRingEnWrite v s).touches h).pending (by decide)
  | evtSwtest v => exact ((touches_execEvtSwtest v s).touches h).pending (by decide)
  | injectEvent v => exact ((touches_execInjectEvent v s).touches h).pending (by decide)
  | injectContext v => exact ((touches_execInjectContext v s).touches h).pending (by decide)
  | injectMemCe v => exact ((touches_execInjectMemCe v s).touches h).pending (by decide)
  | injectMemUe v => exact ((touches_execInjectMemUe v s).touches h).pending (by decide)
  | injectRestart v => exact ((touches_execInjectRestart v s).touches h).pending (by decide)
  | injectLock v => exact ((touches_execInjectLock v s).touches h).pending (by decide)
  | railLow r mv => exact ((touches_execRailLow r mv s).touches h).pending (by decide)
  | thmSensorUpdate temps rails => exact ((touches_execThmSensorUpdate temps rails s).touches h).pending (by decide)
  | cnvStbyWrite v => exact ((touches_execCnvStbyWrite v s).touches h).pending (by decide)
  | srEnWrite v => exact ((touches_execSrEnWrite v s).touches h).pending (by decide)
  | selfRefreshEntry => exact ((touches_execSelfRefreshEntry s).touches h).pending (by decide)
  | smbSetOffset bytes wrongPec => exact ((touches_execSmbSetOffset bytes wrongPec s).touches h).pending (by decide)
  | smbRead => exact ((touches_execSmbRead s).touches h).pending (by decide)
  | smbWrite bytes wrongPec env => exact ((touches_execSmbWrite bytes wrongPec env s).touches h).pending (by decide)
  | smbStatus => exact ((touches_execSmbStatus s).touches h).pending (by decide)
  | mgtSmbLock v => exact ((touches_execMgtSmbLock v s).touches h).pending (by decide)
  | idcode => exact ((touches_execIdcode s).touches h).pending (by decide)
  | samplePreload capture bits => exact ((touches_execSamplePreload capture bits s).touches h).pending (by decide)
  | extest => exact ((touches_execExtest s).touches h).pending (by decide)
  | clamp => exact ((touches_execClamp s).touches h).pending (by decide)
  | highz => exact ((touches_execHighz s).touches h).pending (by decide)
  | extestPulse => exact ((touches_execExtestPulse s).touches h).pending (by decide)
  | extestTrain => exact ((touches_execExtestTrain s).touches h).pending (by decide)
  | bypass => exact ((touches_execBypass s).touches h).pending (by decide)
  | streetBeat c0 c1 c2 c3 => exact ((touches_execStreetBeat c0 c1 c2 c3 s).touches h).pending (by decide)
  | scanoutLine n y den ovl => exact ((touches_execScanoutLine n y den ovl s).touches h).pending (by decide)
  | railHigh r mv => exact ((touches_execRailHigh r mv s).touches h).pending (by decide)
  | railRecovered r within => exact ((touches_execRailRecovered r within s).touches h).pending (by decide)
  | tbusLineHigh l => exact ((touches_execTbusLineHigh l s).touches h).pending (by decide)
  | tapReset => exact ((touches_execTapReset s).touches h).pending (by decide)

/-- The commands that may change `flash`. -/
def mayFlash : Instr → Bool
  | .registerWrite .. => true
  | .lowHalfWrite .. => true
  | .highHalfWrite .. => true
  | .calGo .. => true
  | .calAbort .. => true
  | .calStoreStart .. => true
  | .calPhaseEnd .. => true
  | .storeWriteEnd .. => true
  | .planCommit => true
  | .paramCommit => true
  | .flashUpdate .. => true
  | .calStore => true
  | .smbWrite .. => true
  | _ => false

/-- The commands outside `mayFlash` leave the flash alone. -/
theorem exec_flash (c : Instr) {s t : State} (h : exec c s = .next t) (hk : mayFlash c = false) : t.flash = s.flash := by
  cases c with
  | registerWrite p bar a v env => cases hk
  | lowHalfRead p bar n => exact ((touches_execLowHalfRead p bar n s).touches h).flash (by decide)
  | highHalfRead p bar n => exact ((touches_execHighHalfRead p bar n s).touches h).flash (by decide)
  | lowHalfWrite p bar n v env => cases hk
  | highHalfWrite p bar n v env => cases hk
  | reservedAddressAccess p bar a sz write => exact ((touches_execReservedAddressAccess p bar a sz write s).touches h).flash (by decide)
  | devidWrite v => exact ((touches_execDevidWrite v s).touches h).flash (by decide)
  | devidLock v => exact ((touches_execDevidLock v s).touches h).flash (by decide)
  | dpRestart v => exact ((touches_execDpRestart v s).touches h).flash (by decide)
  | restartFaultRecords => exact ((touches_execRestartFaultRecords s).touches h).flash (by decide)
  | restartUnitReset => exact ((touches_execRestartUnitReset s).touches h).flash (by decide)
  | restartTrainingEnd ok => exact ((touches_execRestartTrainingEnd ok s).touches h).flash (by decide)
  | restartActivate => exact ((touches_execRestartActivate s).touches h).flash (by decide)
  | restartTimeout => exact ((touches_execRestartTimeout s).touches h).flash (by decide)
  | refLoss integ => exact ((touches_execRefLoss integ s).touches h).flash (by decide)
  | refRestored => exact ((touches_execRefRestored s).touches h).flash (by decide)
  | mpllLockDeclared => exact ((touches_execMpllLockDeclared s).touches h).flash (by decide)
  | mpllLol integ => exact ((touches_execMpllLol integ s).touches h).flash (by decide)
  | mpllFreqGate err => exact ((touches_execMpllFreqGate err s).touches h).flash (by decide)
  | holdoverUpdate meas => exact ((touches_execHoldoverUpdate meas s).touches h).flash (by decide)
  | lpllHoldover => exact ((touches_execLpllHoldover s).touches h).flash (by decide)
  | lpllRelocked => exact ((touches_execLpllRelocked s).touches h).flash (by decide)
  | retune v => exact ((touches_execRetune v s).touches h).flash (by decide)
  | retuneSettleDone fs => exact ((touches_execRetuneSettleDone fs s).touches h).flash (by decide)
  | retuneTimeout => exact ((touches_execRetuneTimeout s).touches h).flash (by decide)
  | heldRetry => exact ((touches_execHeldRetry s).touches h).flash (by decide)
  | syncArm v => exact ((touches_execSyncArm v s).touches h).flash (by decide)
  | syncinEdge same => exact ((touches_execSyncinEdge same s).touches h).flash (by decide)
  | attGo n v => exact ((touches_execAttGo n v s).touches h).flash (by decide)
  | attApply n => exact ((touches_execAttApply n s).touches h).flash (by decide)
  | chcorrWrite n v => exact ((touches_execChcorrWrite n v s).touches h).flash (by decide)
  | sliceWrite n k v => exact ((touches_execSliceWrite n k v s).touches h).flash (by decide)
  | bgEnWrite n v => exact ((touches_execBgEnWrite n v s).touches h).flash (by decide)
  | bgSettleEnd n => exact ((touches_execBgSettleEnd n s).touches h).flash (by decide)
  | bgShadowEnd n w => exact ((touches_execBgShadowEnd n w s).touches h).flash (by decide)
  | bgWindowEnd n w => exact ((touches_execBgWindowEnd n w s).touches h).flash (by decide)
  | bgIntervalEnd n => exact ((touches_execBgIntervalEnd n s).touches h).flash (by decide)
  | monitorTrip m v => exact ((touches_execMonitorTrip m v s).touches h).flash (by decide)
  | monSample m v => exact ((touches_execMonSample m v s).touches h).flash (by decide)
  | monPeriodClear m => exact ((touches_execMonPeriodClear m s).touches h).flash (by decide)
  | monLatchClear m v => exact ((touches_execMonLatchClear m v s).touches h).flash (by decide)
  | monCfgWrite m v => exact ((touches_execMonCfgWrite m v s).touches h).flash (by decide)
  | pgSwTrip g v => exact ((touches_execPgSwTrip g v s).touches h).flash (by decide)
  | pgTripClear g v => exact ((touches_execPgTripClear g v s).touches h).flash (by decide)
  | pgSafeWrite g v => exact ((touches_execPgSafeWrite g v s).touches h).flash (by decide)
  | pgArm g v => exact ((touches_execPgArm g v s).touches h).flash (by decide)
  | pgScheduleCommit g => exact ((touches_execPgScheduleCommit g s).touches h).flash (by decide)
  | pgEdge g => exact ((touches_execPgEdge g s).touches h).flash (by decide)
  | tbsAdjWrite v => exact ((touches_execTbsAdjWrite v s).touches h).flash (by decide)
  | tbsSlewWrite v => exact ((touches_execTbsSlewWrite v s).touches h).flash (by decide)
  | tbsStepWrite v => exact ((touches_execTbsStepWrite v s).touches h).flash (by decide)
  | servoSourceWrite v => exact ((touches_execServoSourceWrite v s).touches h).flash (by decide)
  | hostLockWrite v => exact ((touches_execHostLockWrite v s).touches h).flash (by decide)
  | ptpUpdate offPs step => exact ((touches_execPtpUpdate offPs step s).touches h).flash (by decide)
  | servoMissTimeout => exact ((touches_execServoMissTimeout s).touches h).flash (by decide)
  | hostTimeout => exact ((touches_execHostTimeout s).touches h).flash (by decide)
  | tdcEdge c t rising => exact ((touches_execTdcEdge c t rising s).touches h).flash (by decide)
  | stampsFlush c => exact ((touches_execStampsFlush c s).touches h).flash (by decide)
  | vernierRemeasure a b => exact ((touches_execVernierRemeasure a b s).touches h).flash (by decide)
  | freqEnWrite v => exact ((touches_execFreqEnWrite v s).touches h).flash (by decide)
  | freqGateOpen => exact ((touches_execFreqGateOpen s).touches h).flash (by decide)
  | freqGateEnd => exact ((touches_execFreqGateEnd s).touches h).flash (by decide)
  | tdcFreqSnap v => exact ((touches_execTdcFreqSnap v s).touches h).flash (by decide)
  | calGo v => cases hk
  | calAbort v => cases hk
  | calStoreStart v => cases hk
  | calPhaseEnd m => cases hk
  | calAgeDue n => exact ((touches_execCalAgeDue n s).touches h).flash (by decide)
  | calAutoStart => exact ((touches_execCalAutoStart s).touches h).flash (by decide)
  | calRetryExpiry n => exact ((touches_execCalRetryExpiry n s).touches h).flash (by decide)
  | storeWriteEnd ok => cases hk
  | planLoad v => exact ((touches_execPlanLoad v s).touches h).flash (by decide)
  | planFetchDone img => exact ((touches_execPlanFetchDone img s).touches h).flash (by decide)
  | planActivate v => exact ((touches_execPlanActivate v s).touches h).flash (by decide)
  | planAbort v => exact ((touches_execPlanAbort v s).touches h).flash (by decide)
  | planDiscard v => exact ((touches_execPlanDiscard v s).touches h).flash (by decide)
  | planStop v => exact ((touches_execPlanStop v s).touches h).flash (by decide)
  | planCommit => cases hk
  | planStopCommit => exact ((touches_execPlanStopCommit s).touches h).flash (by decide)
  | pcommitGo v => exact ((touches_execPcommitGo v s).touches h).flash (by decide)
  | paramCommit => cases hk
  | ddcSwapGo u v => exact ((touches_execDdcSwapGo u v s).touches h).flash (by decide)
  | ddcSwapCancel u v => exact ((touches_execDdcSwapCancel u v s).touches h).flash (by decide)
  | ddcSwapCommit u => exact ((touches_execDdcSwapCommit u s).touches h).flash (by decide)
  | ddcSwapDone u => exact ((touches_execDdcSwapDone u s).touches h).flash (by decide)
  | ddcCoefWrite u k b r v => exact ((touches_execDdcCoefWrite u k b r v s).touches h).flash (by decide)
  | ddcNcoRstArm u v => exact ((touches_execDdcNcoRstArm u v s).touches h).flash (by decide)
  | tabLoad n v => exact ((touches_execTabLoad n v s).touches h).flash (by decide)
  | tabLoadEnd n ws => exact ((touches_execTabLoadEnd n ws s).touches h).flash (by decide)
  | tabSwapGo n v => exact ((touches_execTabSwapGo n v s).touches h).flash (by decide)
  | tabSwapCancel n v => exact ((touches_execTabSwapCancel n v s).touches h).flash (by decide)
  | tabSwapCommit n => exact ((touches_execTabSwapCommit n s).touches h).flash (by decide)
  | xfmCtrlWrite n v => exact ((touches_execXfmCtrlWrite n v s).touches h).flash (by decide)
  | xfmFrame n => exact ((touches_execXfmFrame n s).touches h).flash (by decide)
  | detFrame n => exact ((touches_execDetFrame n s).touches h).flash (by decide)
  | detReadoutDone n => exact ((touches_execDetReadoutDone n s).touches h).flash (by decide)
  | detWrite n reg v => exact ((touches_execDetWrite n reg v s).touches h).flash (by decide)
  | denFrame n => exact ((touches_execDenFrame n s).touches h).flash (by decide)
  | denReadoutDone n => exact ((touches_execDenReadoutDone n s).touches h).flash (by decide)
  | denWrite n reg v => exact ((touches_execDenWrite n reg v s).touches h).flash (by decide)
  | tbusEvent l t => exact ((touches_execTbusEvent l t s).touches h).flash (by decide)
  | tbusPulseEnd l => exact ((touches_execTbusPulseEnd l s).touches h).flash (by decide)
  | ltCrossing ix => exact ((touches_execLtCrossing ix s).touches h).flash (by decide)
  | fmFrame u => exact ((touches_execFmFrame u s).touches h).flash (by decide)
  | trgTimerEvent n => exact ((touches_execTrgTimerEvent n s).touches h).flash (by decide)
  | trgSwFire v => exact ((touches_execTrgSwFire v s).touches h).flash (by decide)
  | tqEventArrival q => exact ((touches_execTqEventArrival q s).touches h).flash (by decide)
  | tqHorizon q => exact ((touches_execTqHorizon q s).touches h).flash (by decide)
  | tqAutoTimeout q => exact ((touches_execTqAutoTimeout q s).touches h).flash (by decide)
  | tqFreeRunDecision q => exact ((touches_execTqFreeRunDecision q s).touches h).flash (by decide)
  | tqArm q v => exact ((touches_execTqArm q v s).touches h).flash (by decide)
  | tqDisarm q v => exact ((touches_execTqDisarm q v s).touches h).flash (by decide)
  | trgTqSnap q v => exact ((touches_execTrgTqSnap q v s).touches h).flash (by decide)
  | acqArm n v => exact ((touches_execAcqArm n v s).touches h).flash (by decide)
  | acqStop n v => exact ((touches_execAcqStop n v s).touches h).flash (by decide)
  | acqDecision n => exact ((touches_execAcqDecision n s).touches h).flash (by decide)
  | acqPreFilled n => exact ((touches_execAcqPreFilled n s).touches h).flash (by decide)
  | acqRecordClose n => exact ((touches_execAcqRecordClose n s).touches h).flash (by decide)
  | acqHoldoffEnd n => exact ((touches_execAcqHoldoffEnd n s).touches h).flash (by decide)
  | acqLogFlush n => exact ((touches_execAcqLogFlush n s).touches h).flash (by decide)
  | acqExtentRefill n => exact ((touches_execAcqExtentRefill n s).touches h).flash (by decide)
  | acqSnap n v => exact ((touches_execAcqSnap n v s).touches h).flash (by decide)
  | rmuRecord => exact ((touches_execRmuRecord s).touches h).flash (by decide)
  | rmuLevelWrite l v => exact ((touches_execRmuLevelWrite l v s).touches h).flash (by decide)
  | tcRun c v => exact ((touches_execTcRun c v s).touches h).flash (by decide)
  | tcAbort c v => exact ((touches_execTcAbort c v s).touches h).flash (by decide)
  | tcPmWrite c a v => exact ((touches_execTcPmWrite c a v s).touches h).flash (by decide)
  | tcDmWrite c a v => exact ((touches_execTcDmWrite c a v s).touches h).flash (by decide)
  | tcSinWrite c v => exact ((touches_execTcSinWrite c v s).touches h).flash (by decide)
  | tcMbinWrite c k v => exact ((touches_execTcMbinWrite c k v s).touches h).flash (by decide)
  | tcMbinPost c v => exact ((touches_execTcMbinPost c v s).touches h).flash (by decide)
  | tcMboutAck c v => exact ((touches_execTcMboutAck c v s).touches h).flash (by decide)
  | tcRecordArrival k ix => exact ((touches_execTcRecordArrival k ix s).touches h).flash (by decide)
  | tcClusterReadout k => exact ((touches_execTcClusterReadout k s).touches h).flash (by decide)
  | tcTimerExpiry c => exact ((touches_execTcTimerExpiry c s).touches h).flash (by decide)
  | tcWatchdog c => exact ((touches_execTcWatchdog c s).touches h).flash (by decide)
  | tcInterrupt c => exact ((touches_execTcInterrupt c s).touches h).flash (by decide)
  | tNop c => exact ((touches_execTNop c s).touches h).flash (by decide)
  | tLdi c d imm => exact ((touches_execTLdi c d imm s).touches h).flash (by decide)
  | tLd c d p am => exact ((touches_execTLd c d p am s).touches h).flash (by decide)
  | tSt c d p am => exact ((touches_execTSt c d p am s).touches h).flash (by decide)
  | tMov c d a => exact ((touches_execTMov c d a s).touches h).flash (by decide)
  | tMovcFromCr c d r => exact ((touches_execTMovcFromCr c d r s).touches h).flash (by decide)
  | tMovcToCr c r d => exact ((touches_execTMovcToCr c r d s).touches h).flash (by decide)
  | tLdc c r imm => exact ((touches_execTLdc c r imm s).touches h).flash (by decide)
  | tAdd c d a b => exact ((touches_execTAdd c d a b s).touches h).flash (by decide)
  | tSub c d a b => exact ((touches_execTSub c d a b s).touches h).flash (by decide)
  | tAnd c d a b => exact ((touches_execTAnd c d a b s).touches h).flash (by decide)
  | tOr c d a b => exact ((touches_execTOr c d a b s).touches h).flash (by decide)
  | tXor c d a b => exact ((touches_execTXor c d a b s).touches h).flash (by decide)
  | tAddi c d imm => exact ((touches_execTAddi c d imm s).touches h).flash (by decide)
  | tAsh c d a b => exact ((touches_execTAsh c d a b s).touches h).flash (by decide)
  | tAshi c d a n => exact ((touches_execTAshi c d a n s).touches h).flash (by decide)
  | tCmp c a b => exact ((touches_execTCmp c a b s).touches h).flash (by decide)
  | tAbs c d a => exact ((touches_execTAbs c d a s).touches h).flash (by decide)
  | tMovm c px amx py amy => exact ((touches_execTMovm c px amx py amy s).touches h).flash (by decide)
  | tMpy c a dx dy => exact ((touches_execTMpy c a dx dy s).touches h).flash (by decide)
  | tMac c a dx dy => exact ((touches_execTMac c a dx dy s).touches h).flash (by decide)
  | tMsu c a dx dy => exact ((touches_execTMsu c a dx dy s).touches h).flash (by decide)
  | tMacm c a px amx py amy => exact ((touches_execTMacm c a px amx py amy s).touches h).flash (by decide)
  | tFtap c a px amx py amy => exact ((touches_execTFtap c a px amx py amy s).touches h).flash (by decide)
  | tAdda c a dx sh => exact ((touches_execTAdda c a dx sh s).touches h).flash (by decide)
  | tClra c a => exact ((touches_execTClra c a s).touches h).flash (by decide)
  | tAcp c a => exact ((touches_execTAcp c a s).touches h).flash (by decide)
  | tExt c d a n => exact ((touches_execTExt c d a n s).touches h).flash (by decide)
  | tSha c a n => exact ((touches_execTSha c a n s).touches h).flash (by decide)
  | tExpd c d a => exact ((touches_execTExpd c d a s).touches h).flash (by decide)
  | tExpa c d a => exact ((touches_execTExpa c d a s).touches h).flash (by decide)
  | tBexp c d p am => exact ((touches_execTBexp c d p am s).touches h).flash (by decide)
  | tBscl c p am d => exact ((touches_execTBscl c p am d s).touches h).flash (by decide)
  | tB c cond t => exact ((touches_execTB c cond t s).touches h).flash (by decide)
  | tCall c t => exact ((touches_execTCall c t s).touches h).flash (by decide)
  | tRet c => exact ((touches_execTRet c s).touches h).flash (by decide)
  | tReti c => exact ((touches_execTReti c s).touches h).flash (by decide)
  | tRpt c n1 => exact ((touches_execTRpt c n1 s).touches h).flash (by decide)
  | tRptd c a => exact ((touches_execTRptd c a s).touches h).flash (by decide)
  | tLoop c n t => exact ((touches_execTLoop c n t s).touches h).flash (by decide)
  | tLoopd c a t => exact ((touches_execTLoopd c a t s).touches h).flash (by decide)
  | tHalt c => exact ((touches_execTHalt c s).touches h).flash (by decide)
  | tIdle c => exact ((touches_execTIdle c s).touches h).flash (by decide)
  | tGetr c p => exact ((touches_execTGetr c p s).touches h).flash (by decide)
  | tRelr c => exact ((touches_execTRelr c s).touches h).flash (by decide)
  | tSend c p r => exact ((touches_execTSend c p r s).touches h).flash (by decide)
  | tSwait c => exact ((touches_execTSwait c s).touches h).flash (by decide)
  | tMbr c d w => exact ((touches_execTMbr c d w s).touches h).flash (by decide)
  | tMbw c w d => exact ((touches_execTMbw c w d s).touches h).flash (by decide)
  | tMback c => exact ((touches_execTMback c s).touches h).flash (by decide)
  | tMbpost c => exact ((touches_execTMbpost c s).touches h).flash (by decide)
  | recordArrival p => exact ((touches_execRecordArrival p s).touches h).flash (by decide)
  | policingCreditResume x => exact ((touches_execPolicingCreditResume x s).touches h).flash (by decide)
  | overflowStallResume x => exact ((touches_execOverflowStallResume x s).touches h).flash (by decide)
  | faultRecordDeferred x => exact ((touches_execFaultRecordDeferred x s).touches h).flash (by decide)
  | replaySend p => exact ((touches_execReplaySend p s).touches h).flash (by decide)
  | stoTake => exact ((touches_execStoTake s).touches h).flash (by decide)
  | stoFree => exact ((touches_execStoFree s).touches h).flash (by decide)
  | stoFlush => exact ((touches_execStoFlush s).touches h).flash (by decide)
  | stoDiscard => exact ((touches_execStoDiscard s).touches h).flash (by decide)
  | stoQuery => exact ((touches_execStoQuery s).touches h).flash (by decide)
  | stoCsnap v => exact ((touches_execStoCsnap v s).touches h).flash (by decide)
  | biasSwitchDone b => exact ((touches_execBiasSwitchDone b s).touches h).flash (by decide)
  | zcFlushTimer x => exact ((touches_execZcFlushTimer x s).touches h).flash (by decide)
  | zcRelease x v => exact ((touches_execZcRelease x v s).touches h).flash (by decide)
  | ctxFlush x v => exact ((touches_execCtxFlush x v s).touches h).flash (by decide)
  | admOpen => exact ((touches_execAdmOpen s).touches h).flash (by decide)
  | admClose => exact ((touches_execAdmClose s).touches h).flash (by decide)
  | admTest => exact ((touches_execAdmTest s).touches h).flash (by decide)
  | admSnap v => exact ((touches_execAdmSnap v s).touches h).flash (by decide)
  | deadlineMiss x d => exact ((touches_execDeadlineMiss x d s).touches h).flash (by decide)
  | memMapWrite v => exact ((touches_execMemMapWrite v s).touches h).flash (by decide)
  | mapInitDone => exact ((touches_execMapInitDone s).touches h).flash (by decide)
  | memSchedWrite v => exact ((touches_execMemSchedWrite v s).touches h).flash (by decide)
  | memGranule ch waiting err => exact ((touches_execMemGranule ch waiting err s).touches h).flash (by decide)
  | mr4Poll d code => exact ((touches_execMr4Poll d code s).touches h).flash (by decide)
  | refreshDue ch wait => exact ((touches_execRefreshDue ch wait s).touches h).flash (by decide)
  | retrain ch ok => exact ((touches_execRetrain ch ok s).touches h).flash (by decide)
  | scrubRead err => exact ((touches_execScrubRead err s).touches h).flash (by decide)
  | memUeSnap v => exact ((touches_execMemUeSnap v s).touches h).flash (by decide)
  | cmpFlush u v => exact ((touches_execCmpFlush u v s).touches h).flash (by decide)
  | cmpStreamBlock u => exact ((touches_execCmpStreamBlock u s).touches h).flash (by decide)
  | cmpDecodeRecord u => exact ((touches_execCmpDecodeRecord u s).touches h).flash (by decide)
  | cmpJobGo u v pre => exact ((touches_execCmpJobGo u v pre s).touches h).flash (by decide)
  | cmpJobBlock u data => exact ((touches_execCmpJobBlock u data s).touches h).flash (by decide)
  | cmpJobResume u v => exact ((touches_execCmpJobResume u v s).touches h).flash (by decide)
  | cmpJobAbort u v => exact ((touches_execCmpJobAbort u v s).touches h).flash (by decide)
  | cmpJobDone u => exact ((touches_execCmpJobDone u s).touches h).flash (by decide)
  | cxlMemRead n => exact ((touches_execCxlMemRead n s).touches h).flash (by decide)
  | cxlMemWrite => exact ((touches_execCxlMemWrite s).touches h).flash (by decide)
  | hdmCommit one base size skip ways lock => exact ((touches_execHdmCommit one base size skip ways lock s).touches h).flash (by decide)
  | hostSnoop => exact ((touches_execHostSnoop s).touches h).flash (by decide)
  | linkRetrain width rate cxl => exact ((touches_execLinkRetrain width rate cxl s).touches h).flash (by decide)
  | linkDown => exact ((touches_execLinkDown s).touches h).flash (by decide)
  | cxlReset memClr => exact ((touches_execCxlReset memClr s).touches h).flash (by decide)
  | flr => exact ((touches_execFlr s).touches h).flash (by decide)
  | busMasterDisable => exact ((touches_execBusMasterDisable s).touches h).flash (by decide)
  | completionTimeout r => exact ((touches_execCompletionTimeout r s).touches h).flash (by decide)
  | poisonedCompletion r => exact ((touches_execPoisonedCompletion r s).touches h).flash (by decide)
  | msixUnmask u => exact ((touches_execMsixUnmask u s).touches h).flash (by decide)
  | msixModerationEnd v => exact ((touches_execMsixModerationEnd v s).touches h).flash (by decide)
  | doeDiscovery req busy => exact ((touches_execDoeDiscovery req busy s).touches h).flash (by decide)
  | cdatTableAccess req busy => exact ((touches_execCdatTableAccess req busy s).touches h).flash (by decide)
  | getVersion req busy => exact ((touches_execGetVersion req busy s).touches h).flash (by decide)
  | getCapabilities req busy => exact ((touches_execGetCapabilities req busy s).touches h).flash (by decide)
  | negotiateAlgorithms req busy => exact ((touches_execNegotiateAlgorithms req busy s).touches h).flash (by decide)
  | getDigests req busy => exact ((touches_execGetDigests req busy s).touches h).flash (by decide)
  | getCertificate req busy off len => exact ((touches_execGetCertificate req busy off len s).touches h).flash (by decide)
  | challenge req busy => exact ((touches_execChallenge req busy s).touches h).flash (by decide)
  | getMeasurements req busy index signed => exact ((touches_execGetMeasurements req busy index signed s).touches h).flash (by decide)
  | spdmUnsupportedRequest req busy => exact ((touches_execSpdmUnsupportedRequest req busy s).touches h).flash (by decide)
  | dmaStart c v => exact ((touches_execDmaStart c v s).touches h).flash (by decide)
  | dmaAbort c v => exact ((touches_execDmaAbort c v s).touches h).flash (by decide)
  | dmaGiveBind c v => exact ((touches_execDmaGiveBind c v s).touches h).flash (by decide)
  | dmaDescFetch c desc list => exact ((touches_execDmaDescFetch c desc list s).touches h).flash (by decide)
  | dmaNop c => exact ((touches_execDmaNop c s).touches h).flash (by decide)
  | ctxTake c => exact ((touches_execCtxTake c s).touches h).flash (by decide)
  | ctxGive c data => exact ((touches_execCtxGive c data s).touches h).flash (by decide)
  | storeRead c => exact ((touches_execStoreRead c s).touches h).flash (by decide)
  | refTake c => exact ((touches_execRefTake c s).touches h).flash (by decide)
  | refGive c => exact ((touches_execRefGive c s).touches h).flash (by decide)
  | dmaRecordAvailable c => exact ((touches_execDmaRecordAvailable c s).touches h).flash (by decide)
  | dmaIdleTimeout c => exact ((touches_execDmaIdleTimeout c s).touches h).flash (by decide)
  | dmaDataCompletion c => exact ((touches_execDmaDataCompletion c s).touches h).flash (by decide)
  | netPortCfgWrite p v => exact ((touches_execNetPortCfgWrite p v s).touches h).flash (by decide)
  | netLinkUp ix => exact ((touches_execNetLinkUp ix s).touches h).flash (by decide)
  | netLinkLoss ix => exact ((touches_execNetLinkLoss ix s).touches h).flash (by decide)
  | netFrameRx ix f => exact ((touches_execNetFrameRx ix f s).touches h).flash (by decide)
  | pauseFrameRx ix q pfc => exact ((touches_execPauseFrameRx ix q pfc s).touches h).flash (by decide)
  | pauseExpiry ix => exact ((touches_execPauseExpiry ix s).touches h).flash (by decide)
  | exqRxRelease ix v => exact ((touches_execExqRxRelease ix v s).touches h).flash (by decide)
  | exqTxTail ix v => exact ((touches_execExqTxTail ix v s).touches h).flash (by decide)
  | exqTxSend ix desc data fine => exact ((touches_execExqTxSend ix desc data fine s).touches h).flash (by decide)
  | aveCmdOpen a v => exact ((touches_execAveCmdOpen a v s).touches h).flash (by decide)
  | aveCmdClose a v => exact ((touches_execAveCmdClose a v s).touches h).flash (by decide)
  | aveCmdReset a v => exact ((touches_execAveCmdReset a v s).touches h).flash (by decide)
  | aveCmdSkip a v => exact ((touches_execAveCmdSkip a v s).touches h).flash (by decide)
  | pktOpen ix p => exact ((touches_execOpen ix p s).touches h).flash (by decide)
  | pktOpenAck ix p => exact ((touches_execOpenAck ix p s).touches h).flash (by decide)
  | pktData ix p => exact ((touches_execData ix p s).touches h).flash (by decide)
  | pktAck ix p => exact ((touches_execAck ix p s).touches h).flash (by decide)
  | pktNak ix p => exact ((touches_execNak ix p s).touches h).flash (by decide)
  | pktClose ix p => exact ((touches_execClose ix p s).touches h).flash (by decide)
  | pktCloseAck ix p => exact ((touches_execCloseAck ix p s).touches h).flash (by decide)
  | pktTrigger ix p => exact ((touches_execTrigger ix p s).touches h).flash (by decide)
  | pktTrigAck ix p => exact ((touches_execTrigAck ix p s).touches h).flash (by decide)
  | aveDataSend ix => exact ((touches_execAveDataSend ix s).touches h).flash (by decide)
  | aveRtoExpiry a => exact ((touches_execAveRtoExpiry a s).touches h).flash (by decide)
  | aveAckTimer a => exact ((touches_execAveAckTimer a s).touches h).flash (by decide)
  | aveIdleAck a => exact ((touches_execAveIdleAck a s).touches h).flash (by decide)
  | aveDeadExpiry a => exact ((touches_execAveDeadExpiry a s).touches h).flash (by decide)
  | aveQuarantineEnd a => exact ((touches_execAveQuarantineEnd a s).touches h).flash (by decide)
  | aveSnap a v => exact ((touches_execAveSnap a v s).touches h).flash (by decide)
  | trigSendGo v => exact ((touches_execTrigSendGo v s).touches h).flash (by decide)
  | trigResend a => exact ((touches_execTrigResend a s).touches h).flash (by decide)
  | trigMessageRelease k => exact ((touches_execTrigMessageRelease k s).touches h).flash (by decide)
  | disHpd n sink ok => exact ((touches_execDisHpd n sink ok s).touches h).flash (by decide)
  | disCommit n v => exact ((touches_execDisCommit n v s).touches h).flash (by decide)
  | disFrameStart n => exact ((touches_execDisFrameStart n s).touches h).flash (by decide)
  | disClockStable n ok => exact ((touches_execDisClockStable n ok s).touches h).flash (by decide)
  | disLayerRecord n l => exact ((touches_execDisLayerRecord n l s).touches h).flash (by decide)
  | disAuxGo n v reply => exact ((touches_execDisAuxGo n v reply s).touches h).flash (by decide)
  | disPalWrite n b ix v => exact ((touches_execDisPalWrite n b ix v s).touches h).flash (by decide)
  | stkCmdQueue v => exact ((touches_execStkCmdQueue v s).touches h).flash (by decide)
  | stkNop => exact ((touches_execStkNop s).touches h).flash (by decide)
  | flashRead => exact ((touches_execFlashRead s).touches h).flash (by decide)
  | flashUpdate img ok => cases hk
  | calStore => cases hk
  | keyProvision data ok => exact ((touches_execKeyProvision data ok s).touches h).flash (by decide)
  | keyLock ok => exact ((touches_execKeyLock ok s).touches h).flash (by decide)
  | svnCommit ok => exact ((touches_execSvnCommit ok s).touches h).flash (by decide)
  | secureEnable ok => exact ((touches_execSecureEnable ok s).touches h).flash (by decide)
  | stkCancel v => exact ((touches_execStkCancel v s).touches h).flash (by decide)
  | stkCsEccError bad patch => exact ((touches_execStkCsEccError bad patch s).touches h).flash (by decide)
  | stkWatchdog => exact ((touches_execStkWatchdog s).touches h).flash (by decide)
  | porstAssert p => exact ((touches_execPorstAssert p s).touches h).flash (by decide)
  | porstRelease p bootsel smbAddr => exact ((touches_execPorstRelease p bootsel smbAddr s).touches h).flash (by decide)
  | bootStepEnd e => exact ((touches_execBootStepEnd e s).touches h).flash (by decide)
  | evtRelease v => exact ((touches_execEvtRelease v s).touches h).flash (by decide)
  | ringEnWrite v => exact ((touches_execRingEnWrite v s).touches h).flash (by decide)
  | evtSwtest v => exact ((touches_execEvtSwtest v s).touches h).flash (by decide)
  | injectEvent v => exact ((touches_execInjectEvent v s).touches h).flash (by decide)
  | injectContext v => exact ((touches_execInjectContext v s).touches h).flash (by decide)
  | injectMemCe v => exact ((touches_execInjectMemCe v s).touches h).flash (by decide)
  | injectMemUe v => exact ((touches_execInjectMemUe v s).touches h).flash (by decide)
  | injectRestart v => exact ((touches_execInjectRestart v s).touches h).flash (by decide)
  | injectLock v => exact ((touches_execInjectLock v s).touches h).flash (by decide)
  | railLow r mv => exact ((touches_execRailLow r mv s).touches h).flash (by decide)
  | thmSensorUpdate temps rails => exact ((touches_execThmSensorUpdate temps rails s).touches h).flash (by decide)
  | cnvStbyWrite v => exact ((touches_execCnvStbyWrite v s).touches h).flash (by decide)
  | srEnWrite v => exact ((touches_execSrEnWrite v s).touches h).flash (by decide)
  | selfRefreshEntry => exact ((touches_execSelfRefreshEntry s).touches h).flash (by decide)
  | smbSetOffset bytes wrongPec => exact ((touches_execSmbSetOffset bytes wrongPec s).touches h).flash (by decide)
  | smbRead => exact ((touches_execSmbRead s).touches h).flash (by decide)
  | smbWrite bytes wrongPec env => cases hk
  | smbStatus => exact ((touches_execSmbStatus s).touches h).flash (by decide)
  | mgtSmbLock v => exact ((touches_execMgtSmbLock v s).touches h).flash (by decide)
  | idcode => exact ((touches_execIdcode s).touches h).flash (by decide)
  | samplePreload capture bits => exact ((touches_execSamplePreload capture bits s).touches h).flash (by decide)
  | extest => exact ((touches_execExtest s).touches h).flash (by decide)
  | clamp => exact ((touches_execClamp s).touches h).flash (by decide)
  | highz => exact ((touches_execHighz s).touches h).flash (by decide)
  | extestPulse => exact ((touches_execExtestPulse s).touches h).flash (by decide)
  | extestTrain => exact ((touches_execExtestTrain s).touches h).flash (by decide)
  | bypass => exact ((touches_execBypass s).touches h).flash (by decide)
  | streetBeat c0 c1 c2 c3 => exact ((touches_execStreetBeat c0 c1 c2 c3 s).touches h).flash (by decide)
  | scanoutLine n y den ovl => exact ((touches_execScanoutLine n y den ovl s).touches h).flash (by decide)
  | railHigh r mv => exact ((touches_execRailHigh r mv s).touches h).flash (by decide)
  | railRecovered r within => exact ((touches_execRailRecovered r within s).touches h).flash (by decide)
  | tbusLineHigh l => exact ((touches_execTbusLineHigh l s).touches h).flash (by decide)
  | tapReset => exact ((touches_execTapReset s).touches h).flash (by decide)

/-- The commands that may change `stk`. -/
def mayStk : Instr → Bool
  | .registerWrite .. => true
  | .lowHalfWrite .. => true
  | .highHalfWrite .. => true
  | .storeWriteEnd .. => true
  | .planCommit => true
  | .planStopCommit => true
  | .paramCommit => true
  | .getVersion .. => true
  | .getCapabilities .. => true
  | .negotiateAlgorithms .. => true
  | .getDigests .. => true
  | .getCertificate .. => true
  | .challenge .. => true
  | .getMeasurements .. => true
  | .spdmUnsupportedRequest .. => true
  | .stkCmdQueue .. => true
  | .stkNop => true
  | .flashRead => true
  | .flashUpdate .. => true
  | .calStore => true
  | .keyProvision .. => true
  | .keyLock .. => true
  | .svnCommit .. => true
  | .secureEnable .. => true
  | .stkCancel .. => true
  | .porstAssert .. => true
  | .porstRelease .. => true
  | .bootStepEnd .. => true
  | .smbWrite .. => true
  | .railRecovered .. => true
  | _ => false

/-- The commands outside `mayStk` leave the Stoker, the fuses and the measurements alone. -/
theorem exec_stk (c : Instr) {s t : State} (h : exec c s = .next t) (hk : mayStk c = false) : t.stk = s.stk := by
  cases c with
  | registerWrite p bar a v env => cases hk
  | lowHalfRead p bar n => exact ((touches_execLowHalfRead p bar n s).touches h).stk (by decide)
  | highHalfRead p bar n => exact ((touches_execHighHalfRead p bar n s).touches h).stk (by decide)
  | lowHalfWrite p bar n v env => cases hk
  | highHalfWrite p bar n v env => cases hk
  | reservedAddressAccess p bar a sz write => exact ((touches_execReservedAddressAccess p bar a sz write s).touches h).stk (by decide)
  | devidWrite v => exact ((touches_execDevidWrite v s).touches h).stk (by decide)
  | devidLock v => exact ((touches_execDevidLock v s).touches h).stk (by decide)
  | dpRestart v => exact ((touches_execDpRestart v s).touches h).stk (by decide)
  | restartFaultRecords => exact ((touches_execRestartFaultRecords s).touches h).stk (by decide)
  | restartUnitReset => exact ((touches_execRestartUnitReset s).touches h).stk (by decide)
  | restartTrainingEnd ok => exact ((touches_execRestartTrainingEnd ok s).touches h).stk (by decide)
  | restartActivate => exact ((touches_execRestartActivate s).touches h).stk (by decide)
  | restartTimeout => exact ((touches_execRestartTimeout s).touches h).stk (by decide)
  | refLoss integ => exact ((touches_execRefLoss integ s).touches h).stk (by decide)
  | refRestored => exact ((touches_execRefRestored s).touches h).stk (by decide)
  | mpllLockDeclared => exact ((touches_execMpllLockDeclared s).touches h).stk (by decide)
  | mpllLol integ => exact ((touches_execMpllLol integ s).touches h).stk (by decide)
  | mpllFreqGate err => exact ((touches_execMpllFreqGate err s).touches h).stk (by decide)
  | holdoverUpdate meas => exact ((touches_execHoldoverUpdate meas s).touches h).stk (by decide)
  | lpllHoldover => exact ((touches_execLpllHoldover s).touches h).stk (by decide)
  | lpllRelocked => exact ((touches_execLpllRelocked s).touches h).stk (by decide)
  | retune v => exact ((touches_execRetune v s).touches h).stk (by decide)
  | retuneSettleDone fs => exact ((touches_execRetuneSettleDone fs s).touches h).stk (by decide)
  | retuneTimeout => exact ((touches_execRetuneTimeout s).touches h).stk (by decide)
  | heldRetry => exact ((touches_execHeldRetry s).touches h).stk (by decide)
  | syncArm v => exact ((touches_execSyncArm v s).touches h).stk (by decide)
  | syncinEdge same => exact ((touches_execSyncinEdge same s).touches h).stk (by decide)
  | attGo n v => exact ((touches_execAttGo n v s).touches h).stk (by decide)
  | attApply n => exact ((touches_execAttApply n s).touches h).stk (by decide)
  | chcorrWrite n v => exact ((touches_execChcorrWrite n v s).touches h).stk (by decide)
  | sliceWrite n k v => exact ((touches_execSliceWrite n k v s).touches h).stk (by decide)
  | bgEnWrite n v => exact ((touches_execBgEnWrite n v s).touches h).stk (by decide)
  | bgSettleEnd n => exact ((touches_execBgSettleEnd n s).touches h).stk (by decide)
  | bgShadowEnd n w => exact ((touches_execBgShadowEnd n w s).touches h).stk (by decide)
  | bgWindowEnd n w => exact ((touches_execBgWindowEnd n w s).touches h).stk (by decide)
  | bgIntervalEnd n => exact ((touches_execBgIntervalEnd n s).touches h).stk (by decide)
  | monitorTrip m v => exact ((touches_execMonitorTrip m v s).touches h).stk (by decide)
  | monSample m v => exact ((touches_execMonSample m v s).touches h).stk (by decide)
  | monPeriodClear m => exact ((touches_execMonPeriodClear m s).touches h).stk (by decide)
  | monLatchClear m v => exact ((touches_execMonLatchClear m v s).touches h).stk (by decide)
  | monCfgWrite m v => exact ((touches_execMonCfgWrite m v s).touches h).stk (by decide)
  | pgSwTrip g v => exact ((touches_execPgSwTrip g v s).touches h).stk (by decide)
  | pgTripClear g v => exact ((touches_execPgTripClear g v s).touches h).stk (by decide)
  | pgSafeWrite g v => exact ((touches_execPgSafeWrite g v s).touches h).stk (by decide)
  | pgArm g v => exact ((touches_execPgArm g v s).touches h).stk (by decide)
  | pgScheduleCommit g => exact ((touches_execPgScheduleCommit g s).touches h).stk (by decide)
  | pgEdge g => exact ((touches_execPgEdge g s).touches h).stk (by decide)
  | tbsAdjWrite v => exact ((touches_execTbsAdjWrite v s).touches h).stk (by decide)
  | tbsSlewWrite v => exact ((touches_execTbsSlewWrite v s).touches h).stk (by decide)
  | tbsStepWrite v => exact ((touches_execTbsStepWrite v s).touches h).stk (by decide)
  | servoSourceWrite v => exact ((touches_execServoSourceWrite v s).touches h).stk (by decide)
  | hostLockWrite v => exact ((touches_execHostLockWrite v s).touches h).stk (by decide)
  | ptpUpdate offPs step => exact ((touches_execPtpUpdate offPs step s).touches h).stk (by decide)
  | servoMissTimeout => exact ((touches_execServoMissTimeout s).touches h).stk (by decide)
  | hostTimeout => exact ((touches_execHostTimeout s).touches h).stk (by decide)
  | tdcEdge c t rising => exact ((touches_execTdcEdge c t rising s).touches h).stk (by decide)
  | stampsFlush c => exact ((touches_execStampsFlush c s).touches h).stk (by decide)
  | vernierRemeasure a b => exact ((touches_execVernierRemeasure a b s).touches h).stk (by decide)
  | freqEnWrite v => exact ((touches_execFreqEnWrite v s).touches h).stk (by decide)
  | freqGateOpen => exact ((touches_execFreqGateOpen s).touches h).stk (by decide)
  | freqGateEnd => exact ((touches_execFreqGateEnd s).touches h).stk (by decide)
  | tdcFreqSnap v => exact ((touches_execTdcFreqSnap v s).touches h).stk (by decide)
  | calGo v => exact ((touches_execCalGo v s).touches h).stk (by decide)
  | calAbort v => exact ((touches_execCalAbort v s).touches h).stk (by decide)
  | calStoreStart v => exact ((touches_execCalStoreStart v s).touches h).stk (by decide)
  | calPhaseEnd m => exact ((touches_execCalPhaseEnd m s).touches h).stk (by decide)
  | calAgeDue n => exact ((touches_execCalAgeDue n s).touches h).stk (by decide)
  | calAutoStart => exact ((touches_execCalAutoStart s).touches h).stk (by decide)
  | calRetryExpiry n => exact ((touches_execCalRetryExpiry n s).touches h).stk (by decide)
  | storeWriteEnd ok => cases hk
  | planLoad v => exact ((touches_execPlanLoad v s).touches h).stk (by decide)
  | planFetchDone img => exact ((touches_execPlanFetchDone img s).touches h).stk (by decide)
  | planActivate v => exact ((touches_execPlanActivate v s).touches h).stk (by decide)
  | planAbort v => exact ((touches_execPlanAbort v s).touches h).stk (by decide)
  | planDiscard v => exact ((touches_execPlanDiscard v s).touches h).stk (by decide)
  | planStop v => exact ((touches_execPlanStop v s).touches h).stk (by decide)
  | planCommit => cases hk
  | planStopCommit => cases hk
  | pcommitGo v => exact ((touches_execPcommitGo v s).touches h).stk (by decide)
  | paramCommit => cases hk
  | ddcSwapGo u v => exact ((touches_execDdcSwapGo u v s).touches h).stk (by decide)
  | ddcSwapCancel u v => exact ((touches_execDdcSwapCancel u v s).touches h).stk (by decide)
  | ddcSwapCommit u => exact ((touches_execDdcSwapCommit u s).touches h).stk (by decide)
  | ddcSwapDone u => exact ((touches_execDdcSwapDone u s).touches h).stk (by decide)
  | ddcCoefWrite u k b r v => exact ((touches_execDdcCoefWrite u k b r v s).touches h).stk (by decide)
  | ddcNcoRstArm u v => exact ((touches_execDdcNcoRstArm u v s).touches h).stk (by decide)
  | tabLoad n v => exact ((touches_execTabLoad n v s).touches h).stk (by decide)
  | tabLoadEnd n ws => exact ((touches_execTabLoadEnd n ws s).touches h).stk (by decide)
  | tabSwapGo n v => exact ((touches_execTabSwapGo n v s).touches h).stk (by decide)
  | tabSwapCancel n v => exact ((touches_execTabSwapCancel n v s).touches h).stk (by decide)
  | tabSwapCommit n => exact ((touches_execTabSwapCommit n s).touches h).stk (by decide)
  | xfmCtrlWrite n v => exact ((touches_execXfmCtrlWrite n v s).touches h).stk (by decide)
  | xfmFrame n => exact ((touches_execXfmFrame n s).touches h).stk (by decide)
  | detFrame n => exact ((touches_execDetFrame n s).touches h).stk (by decide)
  | detReadoutDone n => exact ((touches_execDetReadoutDone n s).touches h).stk (by decide)
  | detWrite n reg v => exact ((touches_execDetWrite n reg v s).touches h).stk (by decide)
  | denFrame n => exact ((touches_execDenFrame n s).touches h).stk (by decide)
  | denReadoutDone n => exact ((touches_execDenReadoutDone n s).touches h).stk (by decide)
  | denWrite n reg v => exact ((touches_execDenWrite n reg v s).touches h).stk (by decide)
  | tbusEvent l t => exact ((touches_execTbusEvent l t s).touches h).stk (by decide)
  | tbusPulseEnd l => exact ((touches_execTbusPulseEnd l s).touches h).stk (by decide)
  | ltCrossing ix => exact ((touches_execLtCrossing ix s).touches h).stk (by decide)
  | fmFrame u => exact ((touches_execFmFrame u s).touches h).stk (by decide)
  | trgTimerEvent n => exact ((touches_execTrgTimerEvent n s).touches h).stk (by decide)
  | trgSwFire v => exact ((touches_execTrgSwFire v s).touches h).stk (by decide)
  | tqEventArrival q => exact ((touches_execTqEventArrival q s).touches h).stk (by decide)
  | tqHorizon q => exact ((touches_execTqHorizon q s).touches h).stk (by decide)
  | tqAutoTimeout q => exact ((touches_execTqAutoTimeout q s).touches h).stk (by decide)
  | tqFreeRunDecision q => exact ((touches_execTqFreeRunDecision q s).touches h).stk (by decide)
  | tqArm q v => exact ((touches_execTqArm q v s).touches h).stk (by decide)
  | tqDisarm q v => exact ((touches_execTqDisarm q v s).touches h).stk (by decide)
  | trgTqSnap q v => exact ((touches_execTrgTqSnap q v s).touches h).stk (by decide)
  | acqArm n v => exact ((touches_execAcqArm n v s).touches h).stk (by decide)
  | acqStop n v => exact ((touches_execAcqStop n v s).touches h).stk (by decide)
  | acqDecision n => exact ((touches_execAcqDecision n s).touches h).stk (by decide)
  | acqPreFilled n => exact ((touches_execAcqPreFilled n s).touches h).stk (by decide)
  | acqRecordClose n => exact ((touches_execAcqRecordClose n s).touches h).stk (by decide)
  | acqHoldoffEnd n => exact ((touches_execAcqHoldoffEnd n s).touches h).stk (by decide)
  | acqLogFlush n => exact ((touches_execAcqLogFlush n s).touches h).stk (by decide)
  | acqExtentRefill n => exact ((touches_execAcqExtentRefill n s).touches h).stk (by decide)
  | acqSnap n v => exact ((touches_execAcqSnap n v s).touches h).stk (by decide)
  | rmuRecord => exact ((touches_execRmuRecord s).touches h).stk (by decide)
  | rmuLevelWrite l v => exact ((touches_execRmuLevelWrite l v s).touches h).stk (by decide)
  | tcRun c v => exact ((touches_execTcRun c v s).touches h).stk (by decide)
  | tcAbort c v => exact ((touches_execTcAbort c v s).touches h).stk (by decide)
  | tcPmWrite c a v => exact ((touches_execTcPmWrite c a v s).touches h).stk (by decide)
  | tcDmWrite c a v => exact ((touches_execTcDmWrite c a v s).touches h).stk (by decide)
  | tcSinWrite c v => exact ((touches_execTcSinWrite c v s).touches h).stk (by decide)
  | tcMbinWrite c k v => exact ((touches_execTcMbinWrite c k v s).touches h).stk (by decide)
  | tcMbinPost c v => exact ((touches_execTcMbinPost c v s).touches h).stk (by decide)
  | tcMboutAck c v => exact ((touches_execTcMboutAck c v s).touches h).stk (by decide)
  | tcRecordArrival k ix => exact ((touches_execTcRecordArrival k ix s).touches h).stk (by decide)
  | tcClusterReadout k => exact ((touches_execTcClusterReadout k s).touches h).stk (by decide)
  | tcTimerExpiry c => exact ((touches_execTcTimerExpiry c s).touches h).stk (by decide)
  | tcWatchdog c => exact ((touches_execTcWatchdog c s).touches h).stk (by decide)
  | tcInterrupt c => exact ((touches_execTcInterrupt c s).touches h).stk (by decide)
  | tNop c => exact ((touches_execTNop c s).touches h).stk (by decide)
  | tLdi c d imm => exact ((touches_execTLdi c d imm s).touches h).stk (by decide)
  | tLd c d p am => exact ((touches_execTLd c d p am s).touches h).stk (by decide)
  | tSt c d p am => exact ((touches_execTSt c d p am s).touches h).stk (by decide)
  | tMov c d a => exact ((touches_execTMov c d a s).touches h).stk (by decide)
  | tMovcFromCr c d r => exact ((touches_execTMovcFromCr c d r s).touches h).stk (by decide)
  | tMovcToCr c r d => exact ((touches_execTMovcToCr c r d s).touches h).stk (by decide)
  | tLdc c r imm => exact ((touches_execTLdc c r imm s).touches h).stk (by decide)
  | tAdd c d a b => exact ((touches_execTAdd c d a b s).touches h).stk (by decide)
  | tSub c d a b => exact ((touches_execTSub c d a b s).touches h).stk (by decide)
  | tAnd c d a b => exact ((touches_execTAnd c d a b s).touches h).stk (by decide)
  | tOr c d a b => exact ((touches_execTOr c d a b s).touches h).stk (by decide)
  | tXor c d a b => exact ((touches_execTXor c d a b s).touches h).stk (by decide)
  | tAddi c d imm => exact ((touches_execTAddi c d imm s).touches h).stk (by decide)
  | tAsh c d a b => exact ((touches_execTAsh c d a b s).touches h).stk (by decide)
  | tAshi c d a n => exact ((touches_execTAshi c d a n s).touches h).stk (by decide)
  | tCmp c a b => exact ((touches_execTCmp c a b s).touches h).stk (by decide)
  | tAbs c d a => exact ((touches_execTAbs c d a s).touches h).stk (by decide)
  | tMovm c px amx py amy => exact ((touches_execTMovm c px amx py amy s).touches h).stk (by decide)
  | tMpy c a dx dy => exact ((touches_execTMpy c a dx dy s).touches h).stk (by decide)
  | tMac c a dx dy => exact ((touches_execTMac c a dx dy s).touches h).stk (by decide)
  | tMsu c a dx dy => exact ((touches_execTMsu c a dx dy s).touches h).stk (by decide)
  | tMacm c a px amx py amy => exact ((touches_execTMacm c a px amx py amy s).touches h).stk (by decide)
  | tFtap c a px amx py amy => exact ((touches_execTFtap c a px amx py amy s).touches h).stk (by decide)
  | tAdda c a dx sh => exact ((touches_execTAdda c a dx sh s).touches h).stk (by decide)
  | tClra c a => exact ((touches_execTClra c a s).touches h).stk (by decide)
  | tAcp c a => exact ((touches_execTAcp c a s).touches h).stk (by decide)
  | tExt c d a n => exact ((touches_execTExt c d a n s).touches h).stk (by decide)
  | tSha c a n => exact ((touches_execTSha c a n s).touches h).stk (by decide)
  | tExpd c d a => exact ((touches_execTExpd c d a s).touches h).stk (by decide)
  | tExpa c d a => exact ((touches_execTExpa c d a s).touches h).stk (by decide)
  | tBexp c d p am => exact ((touches_execTBexp c d p am s).touches h).stk (by decide)
  | tBscl c p am d => exact ((touches_execTBscl c p am d s).touches h).stk (by decide)
  | tB c cond t => exact ((touches_execTB c cond t s).touches h).stk (by decide)
  | tCall c t => exact ((touches_execTCall c t s).touches h).stk (by decide)
  | tRet c => exact ((touches_execTRet c s).touches h).stk (by decide)
  | tReti c => exact ((touches_execTReti c s).touches h).stk (by decide)
  | tRpt c n1 => exact ((touches_execTRpt c n1 s).touches h).stk (by decide)
  | tRptd c a => exact ((touches_execTRptd c a s).touches h).stk (by decide)
  | tLoop c n t => exact ((touches_execTLoop c n t s).touches h).stk (by decide)
  | tLoopd c a t => exact ((touches_execTLoopd c a t s).touches h).stk (by decide)
  | tHalt c => exact ((touches_execTHalt c s).touches h).stk (by decide)
  | tIdle c => exact ((touches_execTIdle c s).touches h).stk (by decide)
  | tGetr c p => exact ((touches_execTGetr c p s).touches h).stk (by decide)
  | tRelr c => exact ((touches_execTRelr c s).touches h).stk (by decide)
  | tSend c p r => exact ((touches_execTSend c p r s).touches h).stk (by decide)
  | tSwait c => exact ((touches_execTSwait c s).touches h).stk (by decide)
  | tMbr c d w => exact ((touches_execTMbr c d w s).touches h).stk (by decide)
  | tMbw c w d => exact ((touches_execTMbw c w d s).touches h).stk (by decide)
  | tMback c => exact ((touches_execTMback c s).touches h).stk (by decide)
  | tMbpost c => exact ((touches_execTMbpost c s).touches h).stk (by decide)
  | recordArrival p => exact ((touches_execRecordArrival p s).touches h).stk (by decide)
  | policingCreditResume x => exact ((touches_execPolicingCreditResume x s).touches h).stk (by decide)
  | overflowStallResume x => exact ((touches_execOverflowStallResume x s).touches h).stk (by decide)
  | faultRecordDeferred x => exact ((touches_execFaultRecordDeferred x s).touches h).stk (by decide)
  | replaySend p => exact ((touches_execReplaySend p s).touches h).stk (by decide)
  | stoTake => exact ((touches_execStoTake s).touches h).stk (by decide)
  | stoFree => exact ((touches_execStoFree s).touches h).stk (by decide)
  | stoFlush => exact ((touches_execStoFlush s).touches h).stk (by decide)
  | stoDiscard => exact ((touches_execStoDiscard s).touches h).stk (by decide)
  | stoQuery => exact ((touches_execStoQuery s).touches h).stk (by decide)
  | stoCsnap v => exact ((touches_execStoCsnap v s).touches h).stk (by decide)
  | biasSwitchDone b => exact ((touches_execBiasSwitchDone b s).touches h).stk (by decide)
  | zcFlushTimer x => exact ((touches_execZcFlushTimer x s).touches h).stk (by decide)
  | zcRelease x v => exact ((touches_execZcRelease x v s).touches h).stk (by decide)
  | ctxFlush x v => exact ((touches_execCtxFlush x v s).touches h).stk (by decide)
  | admOpen => exact ((touches_execAdmOpen s).touches h).stk (by decide)
  | admClose => exact ((touches_execAdmClose s).touches h).stk (by decide)
  | admTest => exact ((touches_execAdmTest s).touches h).stk (by decide)
  | admSnap v => exact ((touches_execAdmSnap v s).touches h).stk (by decide)
  | deadlineMiss x d => exact ((touches_execDeadlineMiss x d s).touches h).stk (by decide)
  | memMapWrite v => exact ((touches_execMemMapWrite v s).touches h).stk (by decide)
  | mapInitDone => exact ((touches_execMapInitDone s).touches h).stk (by decide)
  | memSchedWrite v => exact ((touches_execMemSchedWrite v s).touches h).stk (by decide)
  | memGranule ch waiting err => exact ((touches_execMemGranule ch waiting err s).touches h).stk (by decide)
  | mr4Poll d code => exact ((touches_execMr4Poll d code s).touches h).stk (by decide)
  | refreshDue ch wait => exact ((touches_execRefreshDue ch wait s).touches h).stk (by decide)
  | retrain ch ok => exact ((touches_execRetrain ch ok s).touches h).stk (by decide)
  | scrubRead err => exact ((touches_execScrubRead err s).touches h).stk (by decide)
  | memUeSnap v => exact ((touches_execMemUeSnap v s).touches h).stk (by decide)
  | cmpFlush u v => exact ((touches_execCmpFlush u v s).touches h).stk (by decide)
  | cmpStreamBlock u => exact ((touches_execCmpStreamBlock u s).touches h).stk (by decide)
  | cmpDecodeRecord u => exact ((touches_execCmpDecodeRecord u s).touches h).stk (by decide)
  | cmpJobGo u v pre => exact ((touches_execCmpJobGo u v pre s).touches h).stk (by decide)
  | cmpJobBlock u data => exact ((touches_execCmpJobBlock u data s).touches h).stk (by decide)
  | cmpJobResume u v => exact ((touches_execCmpJobResume u v s).touches h).stk (by decide)
  | cmpJobAbort u v => exact ((touches_execCmpJobAbort u v s).touches h).stk (by decide)
  | cmpJobDone u => exact ((touches_execCmpJobDone u s).touches h).stk (by decide)
  | cxlMemRead n => exact ((touches_execCxlMemRead n s).touches h).stk (by decide)
  | cxlMemWrite => exact ((touches_execCxlMemWrite s).touches h).stk (by decide)
  | hdmCommit one base size skip ways lock => exact ((touches_execHdmCommit one base size skip ways lock s).touches h).stk (by decide)
  | hostSnoop => exact ((touches_execHostSnoop s).touches h).stk (by decide)
  | linkRetrain width rate cxl => exact ((touches_execLinkRetrain width rate cxl s).touches h).stk (by decide)
  | linkDown => exact ((touches_execLinkDown s).touches h).stk (by decide)
  | cxlReset memClr => exact ((touches_execCxlReset memClr s).touches h).stk (by decide)
  | flr => exact ((touches_execFlr s).touches h).stk (by decide)
  | busMasterDisable => exact ((touches_execBusMasterDisable s).touches h).stk (by decide)
  | completionTimeout r => exact ((touches_execCompletionTimeout r s).touches h).stk (by decide)
  | poisonedCompletion r => exact ((touches_execPoisonedCompletion r s).touches h).stk (by decide)
  | msixUnmask u => exact ((touches_execMsixUnmask u s).touches h).stk (by decide)
  | msixModerationEnd v => exact ((touches_execMsixModerationEnd v s).touches h).stk (by decide)
  | doeDiscovery req busy => exact ((touches_execDoeDiscovery req busy s).touches h).stk (by decide)
  | cdatTableAccess req busy => exact ((touches_execCdatTableAccess req busy s).touches h).stk (by decide)
  | getVersion req busy => cases hk
  | getCapabilities req busy => cases hk
  | negotiateAlgorithms req busy => cases hk
  | getDigests req busy => cases hk
  | getCertificate req busy off len => cases hk
  | challenge req busy => cases hk
  | getMeasurements req busy index signed => cases hk
  | spdmUnsupportedRequest req busy => cases hk
  | dmaStart c v => exact ((touches_execDmaStart c v s).touches h).stk (by decide)
  | dmaAbort c v => exact ((touches_execDmaAbort c v s).touches h).stk (by decide)
  | dmaGiveBind c v => exact ((touches_execDmaGiveBind c v s).touches h).stk (by decide)
  | dmaDescFetch c desc list => exact ((touches_execDmaDescFetch c desc list s).touches h).stk (by decide)
  | dmaNop c => exact ((touches_execDmaNop c s).touches h).stk (by decide)
  | ctxTake c => exact ((touches_execCtxTake c s).touches h).stk (by decide)
  | ctxGive c data => exact ((touches_execCtxGive c data s).touches h).stk (by decide)
  | storeRead c => exact ((touches_execStoreRead c s).touches h).stk (by decide)
  | refTake c => exact ((touches_execRefTake c s).touches h).stk (by decide)
  | refGive c => exact ((touches_execRefGive c s).touches h).stk (by decide)
  | dmaRecordAvailable c => exact ((touches_execDmaRecordAvailable c s).touches h).stk (by decide)
  | dmaIdleTimeout c => exact ((touches_execDmaIdleTimeout c s).touches h).stk (by decide)
  | dmaDataCompletion c => exact ((touches_execDmaDataCompletion c s).touches h).stk (by decide)
  | netPortCfgWrite p v => exact ((touches_execNetPortCfgWrite p v s).touches h).stk (by decide)
  | netLinkUp ix => exact ((touches_execNetLinkUp ix s).touches h).stk (by decide)
  | netLinkLoss ix => exact ((touches_execNetLinkLoss ix s).touches h).stk (by decide)
  | netFrameRx ix f => exact ((touches_execNetFrameRx ix f s).touches h).stk (by decide)
  | pauseFrameRx ix q pfc => exact ((touches_execPauseFrameRx ix q pfc s).touches h).stk (by decide)
  | pauseExpiry ix => exact ((touches_execPauseExpiry ix s).touches h).stk (by decide)
  | exqRxRelease ix v => exact ((touches_execExqRxRelease ix v s).touches h).stk (by decide)
  | exqTxTail ix v => exact ((touches_execExqTxTail ix v s).touches h).stk (by decide)
  | exqTxSend ix desc data fine => exact ((touches_execExqTxSend ix desc data fine s).touches h).stk (by decide)
  | aveCmdOpen a v => exact ((touches_execAveCmdOpen a v s).touches h).stk (by decide)
  | aveCmdClose a v => exact ((touches_execAveCmdClose a v s).touches h).stk (by decide)
  | aveCmdReset a v => exact ((touches_execAveCmdReset a v s).touches h).stk (by decide)
  | aveCmdSkip a v => exact ((touches_execAveCmdSkip a v s).touches h).stk (by decide)
  | pktOpen ix p => exact ((touches_execOpen ix p s).touches h).stk (by decide)
  | pktOpenAck ix p => exact ((touches_execOpenAck ix p s).touches h).stk (by decide)
  | pktData ix p => exact ((touches_execData ix p s).touches h).stk (by decide)
  | pktAck ix p => exact ((touches_execAck ix p s).touches h).stk (by decide)
  | pktNak ix p => exact ((touches_execNak ix p s).touches h).stk (by decide)
  | pktClose ix p => exact ((touches_execClose ix p s).touches h).stk (by decide)
  | pktCloseAck ix p => exact ((touches_execCloseAck ix p s).touches h).stk (by decide)
  | pktTrigger ix p => exact ((touches_execTrigger ix p s).touches h).stk (by decide)
  | pktTrigAck ix p => exact ((touches_execTrigAck ix p s).touches h).stk (by decide)
  | aveDataSend ix => exact ((touches_execAveDataSend ix s).touches h).stk (by decide)
  | aveRtoExpiry a => exact ((touches_execAveRtoExpiry a s).touches h).stk (by decide)
  | aveAckTimer a => exact ((touches_execAveAckTimer a s).touches h).stk (by decide)
  | aveIdleAck a => exact ((touches_execAveIdleAck a s).touches h).stk (by decide)
  | aveDeadExpiry a => exact ((touches_execAveDeadExpiry a s).touches h).stk (by decide)
  | aveQuarantineEnd a => exact ((touches_execAveQuarantineEnd a s).touches h).stk (by decide)
  | aveSnap a v => exact ((touches_execAveSnap a v s).touches h).stk (by decide)
  | trigSendGo v => exact ((touches_execTrigSendGo v s).touches h).stk (by decide)
  | trigResend a => exact ((touches_execTrigResend a s).touches h).stk (by decide)
  | trigMessageRelease k => exact ((touches_execTrigMessageRelease k s).touches h).stk (by decide)
  | disHpd n sink ok => exact ((touches_execDisHpd n sink ok s).touches h).stk (by decide)
  | disCommit n v => exact ((touches_execDisCommit n v s).touches h).stk (by decide)
  | disFrameStart n => exact ((touches_execDisFrameStart n s).touches h).stk (by decide)
  | disClockStable n ok => exact ((touches_execDisClockStable n ok s).touches h).stk (by decide)
  | disLayerRecord n l => exact ((touches_execDisLayerRecord n l s).touches h).stk (by decide)
  | disAuxGo n v reply => exact ((touches_execDisAuxGo n v reply s).touches h).stk (by decide)
  | disPalWrite n b ix v => exact ((touches_execDisPalWrite n b ix v s).touches h).stk (by decide)
  | stkCmdQueue v => cases hk
  | stkNop => cases hk
  | flashRead => cases hk
  | flashUpdate img ok => cases hk
  | calStore => cases hk
  | keyProvision data ok => cases hk
  | keyLock ok => cases hk
  | svnCommit ok => cases hk
  | secureEnable ok => cases hk
  | stkCancel v => cases hk
  | stkCsEccError bad patch => exact ((touches_execStkCsEccError bad patch s).touches h).stk (by decide)
  | stkWatchdog => exact ((touches_execStkWatchdog s).touches h).stk (by decide)
  | porstAssert p => cases hk
  | porstRelease p bootsel smbAddr => cases hk
  | bootStepEnd e => cases hk
  | evtRelease v => exact ((touches_execEvtRelease v s).touches h).stk (by decide)
  | ringEnWrite v => exact ((touches_execRingEnWrite v s).touches h).stk (by decide)
  | evtSwtest v => exact ((touches_execEvtSwtest v s).touches h).stk (by decide)
  | injectEvent v => exact ((touches_execInjectEvent v s).touches h).stk (by decide)
  | injectContext v => exact ((touches_execInjectContext v s).touches h).stk (by decide)
  | injectMemCe v => exact ((touches_execInjectMemCe v s).touches h).stk (by decide)
  | injectMemUe v => exact ((touches_execInjectMemUe v s).touches h).stk (by decide)
  | injectRestart v => exact ((touches_execInjectRestart v s).touches h).stk (by decide)
  | injectLock v => exact ((touches_execInjectLock v s).touches h).stk (by decide)
  | railLow r mv => exact ((touches_execRailLow r mv s).touches h).stk (by decide)
  | thmSensorUpdate temps rails => exact ((touches_execThmSensorUpdate temps rails s).touches h).stk (by decide)
  | cnvStbyWrite v => exact ((touches_execCnvStbyWrite v s).touches h).stk (by decide)
  | srEnWrite v => exact ((touches_execSrEnWrite v s).touches h).stk (by decide)
  | selfRefreshEntry => exact ((touches_execSelfRefreshEntry s).touches h).stk (by decide)
  | smbSetOffset bytes wrongPec => exact ((touches_execSmbSetOffset bytes wrongPec s).touches h).stk (by decide)
  | smbRead => exact ((touches_execSmbRead s).touches h).stk (by decide)
  | smbWrite bytes wrongPec env => cases hk
  | smbStatus => exact ((touches_execSmbStatus s).touches h).stk (by decide)
  | mgtSmbLock v => exact ((touches_execMgtSmbLock v s).touches h).stk (by decide)
  | idcode => exact ((touches_execIdcode s).touches h).stk (by decide)
  | samplePreload capture bits => exact ((touches_execSamplePreload capture bits s).touches h).stk (by decide)
  | extest => exact ((touches_execExtest s).touches h).stk (by decide)
  | clamp => exact ((touches_execClamp s).touches h).stk (by decide)
  | highz => exact ((touches_execHighz s).touches h).stk (by decide)
  | extestPulse => exact ((touches_execExtestPulse s).touches h).stk (by decide)
  | extestTrain => exact ((touches_execExtestTrain s).touches h).stk (by decide)
  | bypass => exact ((touches_execBypass s).touches h).stk (by decide)
  | streetBeat c0 c1 c2 c3 => exact ((touches_execStreetBeat c0 c1 c2 c3 s).touches h).stk (by decide)
  | scanoutLine n y den ovl => exact ((touches_execScanoutLine n y den ovl s).touches h).stk (by decide)
  | railHigh r mv => exact ((touches_execRailHigh r mv s).touches h).stk (by decide)
  | railRecovered r within => cases hk
  | tbusLineHigh l => exact ((touches_execTbusLineHigh l s).touches h).stk (by decide)
  | tapReset => exact ((touches_execTapReset s).touches h).stk (by decide)

/-- The commands that may change `plan`. -/
def mayPlan : Instr → Bool
  | .registerWrite .. => true
  | .lowHalfWrite .. => true
  | .highHalfWrite .. => true
  | .dpRestart .. => true
  | .planLoad .. => true
  | .planFetchDone .. => true
  | .planActivate .. => true
  | .planAbort .. => true
  | .planDiscard .. => true
  | .planStop .. => true
  | .planCommit => true
  | .planStopCommit => true
  | .paramCommit => true
  | .retrain .. => true
  | .cxlReset .. => true
  | .completionTimeout .. => true
  | .poisonedCompletion .. => true
  | .stkCsEccError .. => true
  | .stkWatchdog => true
  | .porstAssert .. => true
  | .injectEvent .. => true
  | .injectContext .. => true
  | .injectMemCe .. => true
  | .injectMemUe .. => true
  | .injectRestart .. => true
  | .injectLock .. => true
  | .smbWrite .. => true
  | _ => false

/-- The commands outside `mayPlan` leave the plans alone. -/
theorem exec_plan (c : Instr) {s t : State} (h : exec c s = .next t) (hk : mayPlan c = false) : t.plan = s.plan := by
  cases c with
  | registerWrite p bar a v env => cases hk
  | lowHalfRead p bar n => exact ((touches_execLowHalfRead p bar n s).touches h).plan (by decide)
  | highHalfRead p bar n => exact ((touches_execHighHalfRead p bar n s).touches h).plan (by decide)
  | lowHalfWrite p bar n v env => cases hk
  | highHalfWrite p bar n v env => cases hk
  | reservedAddressAccess p bar a sz write => exact ((touches_execReservedAddressAccess p bar a sz write s).touches h).plan (by decide)
  | devidWrite v => exact ((touches_execDevidWrite v s).touches h).plan (by decide)
  | devidLock v => exact ((touches_execDevidLock v s).touches h).plan (by decide)
  | dpRestart v => cases hk
  | restartFaultRecords => exact ((touches_execRestartFaultRecords s).touches h).plan (by decide)
  | restartUnitReset => exact ((touches_execRestartUnitReset s).touches h).plan (by decide)
  | restartTrainingEnd ok => exact ((touches_execRestartTrainingEnd ok s).touches h).plan (by decide)
  | restartActivate => exact ((touches_execRestartActivate s).touches h).plan (by decide)
  | restartTimeout => exact ((touches_execRestartTimeout s).touches h).plan (by decide)
  | refLoss integ => exact ((touches_execRefLoss integ s).touches h).plan (by decide)
  | refRestored => exact ((touches_execRefRestored s).touches h).plan (by decide)
  | mpllLockDeclared => exact ((touches_execMpllLockDeclared s).touches h).plan (by decide)
  | mpllLol integ => exact ((touches_execMpllLol integ s).touches h).plan (by decide)
  | mpllFreqGate err => exact ((touches_execMpllFreqGate err s).touches h).plan (by decide)
  | holdoverUpdate meas => exact ((touches_execHoldoverUpdate meas s).touches h).plan (by decide)
  | lpllHoldover => exact ((touches_execLpllHoldover s).touches h).plan (by decide)
  | lpllRelocked => exact ((touches_execLpllRelocked s).touches h).plan (by decide)
  | retune v => exact ((touches_execRetune v s).touches h).plan (by decide)
  | retuneSettleDone fs => exact ((touches_execRetuneSettleDone fs s).touches h).plan (by decide)
  | retuneTimeout => exact ((touches_execRetuneTimeout s).touches h).plan (by decide)
  | heldRetry => exact ((touches_execHeldRetry s).touches h).plan (by decide)
  | syncArm v => exact ((touches_execSyncArm v s).touches h).plan (by decide)
  | syncinEdge same => exact ((touches_execSyncinEdge same s).touches h).plan (by decide)
  | attGo n v => exact ((touches_execAttGo n v s).touches h).plan (by decide)
  | attApply n => exact ((touches_execAttApply n s).touches h).plan (by decide)
  | chcorrWrite n v => exact ((touches_execChcorrWrite n v s).touches h).plan (by decide)
  | sliceWrite n k v => exact ((touches_execSliceWrite n k v s).touches h).plan (by decide)
  | bgEnWrite n v => exact ((touches_execBgEnWrite n v s).touches h).plan (by decide)
  | bgSettleEnd n => exact ((touches_execBgSettleEnd n s).touches h).plan (by decide)
  | bgShadowEnd n w => exact ((touches_execBgShadowEnd n w s).touches h).plan (by decide)
  | bgWindowEnd n w => exact ((touches_execBgWindowEnd n w s).touches h).plan (by decide)
  | bgIntervalEnd n => exact ((touches_execBgIntervalEnd n s).touches h).plan (by decide)
  | monitorTrip m v => exact ((touches_execMonitorTrip m v s).touches h).plan (by decide)
  | monSample m v => exact ((touches_execMonSample m v s).touches h).plan (by decide)
  | monPeriodClear m => exact ((touches_execMonPeriodClear m s).touches h).plan (by decide)
  | monLatchClear m v => exact ((touches_execMonLatchClear m v s).touches h).plan (by decide)
  | monCfgWrite m v => exact ((touches_execMonCfgWrite m v s).touches h).plan (by decide)
  | pgSwTrip g v => exact ((touches_execPgSwTrip g v s).touches h).plan (by decide)
  | pgTripClear g v => exact ((touches_execPgTripClear g v s).touches h).plan (by decide)
  | pgSafeWrite g v => exact ((touches_execPgSafeWrite g v s).touches h).plan (by decide)
  | pgArm g v => exact ((touches_execPgArm g v s).touches h).plan (by decide)
  | pgScheduleCommit g => exact ((touches_execPgScheduleCommit g s).touches h).plan (by decide)
  | pgEdge g => exact ((touches_execPgEdge g s).touches h).plan (by decide)
  | tbsAdjWrite v => exact ((touches_execTbsAdjWrite v s).touches h).plan (by decide)
  | tbsSlewWrite v => exact ((touches_execTbsSlewWrite v s).touches h).plan (by decide)
  | tbsStepWrite v => exact ((touches_execTbsStepWrite v s).touches h).plan (by decide)
  | servoSourceWrite v => exact ((touches_execServoSourceWrite v s).touches h).plan (by decide)
  | hostLockWrite v => exact ((touches_execHostLockWrite v s).touches h).plan (by decide)
  | ptpUpdate offPs step => exact ((touches_execPtpUpdate offPs step s).touches h).plan (by decide)
  | servoMissTimeout => exact ((touches_execServoMissTimeout s).touches h).plan (by decide)
  | hostTimeout => exact ((touches_execHostTimeout s).touches h).plan (by decide)
  | tdcEdge c t rising => exact ((touches_execTdcEdge c t rising s).touches h).plan (by decide)
  | stampsFlush c => exact ((touches_execStampsFlush c s).touches h).plan (by decide)
  | vernierRemeasure a b => exact ((touches_execVernierRemeasure a b s).touches h).plan (by decide)
  | freqEnWrite v => exact ((touches_execFreqEnWrite v s).touches h).plan (by decide)
  | freqGateOpen => exact ((touches_execFreqGateOpen s).touches h).plan (by decide)
  | freqGateEnd => exact ((touches_execFreqGateEnd s).touches h).plan (by decide)
  | tdcFreqSnap v => exact ((touches_execTdcFreqSnap v s).touches h).plan (by decide)
  | calGo v => exact ((touches_execCalGo v s).touches h).plan (by decide)
  | calAbort v => exact ((touches_execCalAbort v s).touches h).plan (by decide)
  | calStoreStart v => exact ((touches_execCalStoreStart v s).touches h).plan (by decide)
  | calPhaseEnd m => exact ((touches_execCalPhaseEnd m s).touches h).plan (by decide)
  | calAgeDue n => exact ((touches_execCalAgeDue n s).touches h).plan (by decide)
  | calAutoStart => exact ((touches_execCalAutoStart s).touches h).plan (by decide)
  | calRetryExpiry n => exact ((touches_execCalRetryExpiry n s).touches h).plan (by decide)
  | storeWriteEnd ok => exact ((touches_execStoreWriteEnd ok s).touches h).plan (by decide)
  | planLoad v => cases hk
  | planFetchDone img => cases hk
  | planActivate v => cases hk
  | planAbort v => cases hk
  | planDiscard v => cases hk
  | planStop v => cases hk
  | planCommit => cases hk
  | planStopCommit => cases hk
  | pcommitGo v => exact ((touches_execPcommitGo v s).touches h).plan (by decide)
  | paramCommit => cases hk
  | ddcSwapGo u v => exact ((touches_execDdcSwapGo u v s).touches h).plan (by decide)
  | ddcSwapCancel u v => exact ((touches_execDdcSwapCancel u v s).touches h).plan (by decide)
  | ddcSwapCommit u => exact ((touches_execDdcSwapCommit u s).touches h).plan (by decide)
  | ddcSwapDone u => exact ((touches_execDdcSwapDone u s).touches h).plan (by decide)
  | ddcCoefWrite u k b r v => exact ((touches_execDdcCoefWrite u k b r v s).touches h).plan (by decide)
  | ddcNcoRstArm u v => exact ((touches_execDdcNcoRstArm u v s).touches h).plan (by decide)
  | tabLoad n v => exact ((touches_execTabLoad n v s).touches h).plan (by decide)
  | tabLoadEnd n ws => exact ((touches_execTabLoadEnd n ws s).touches h).plan (by decide)
  | tabSwapGo n v => exact ((touches_execTabSwapGo n v s).touches h).plan (by decide)
  | tabSwapCancel n v => exact ((touches_execTabSwapCancel n v s).touches h).plan (by decide)
  | tabSwapCommit n => exact ((touches_execTabSwapCommit n s).touches h).plan (by decide)
  | xfmCtrlWrite n v => exact ((touches_execXfmCtrlWrite n v s).touches h).plan (by decide)
  | xfmFrame n => exact ((touches_execXfmFrame n s).touches h).plan (by decide)
  | detFrame n => exact ((touches_execDetFrame n s).touches h).plan (by decide)
  | detReadoutDone n => exact ((touches_execDetReadoutDone n s).touches h).plan (by decide)
  | detWrite n reg v => exact ((touches_execDetWrite n reg v s).touches h).plan (by decide)
  | denFrame n => exact ((touches_execDenFrame n s).touches h).plan (by decide)
  | denReadoutDone n => exact ((touches_execDenReadoutDone n s).touches h).plan (by decide)
  | denWrite n reg v => exact ((touches_execDenWrite n reg v s).touches h).plan (by decide)
  | tbusEvent l t => exact ((touches_execTbusEvent l t s).touches h).plan (by decide)
  | tbusPulseEnd l => exact ((touches_execTbusPulseEnd l s).touches h).plan (by decide)
  | ltCrossing ix => exact ((touches_execLtCrossing ix s).touches h).plan (by decide)
  | fmFrame u => exact ((touches_execFmFrame u s).touches h).plan (by decide)
  | trgTimerEvent n => exact ((touches_execTrgTimerEvent n s).touches h).plan (by decide)
  | trgSwFire v => exact ((touches_execTrgSwFire v s).touches h).plan (by decide)
  | tqEventArrival q => exact ((touches_execTqEventArrival q s).touches h).plan (by decide)
  | tqHorizon q => exact ((touches_execTqHorizon q s).touches h).plan (by decide)
  | tqAutoTimeout q => exact ((touches_execTqAutoTimeout q s).touches h).plan (by decide)
  | tqFreeRunDecision q => exact ((touches_execTqFreeRunDecision q s).touches h).plan (by decide)
  | tqArm q v => exact ((touches_execTqArm q v s).touches h).plan (by decide)
  | tqDisarm q v => exact ((touches_execTqDisarm q v s).touches h).plan (by decide)
  | trgTqSnap q v => exact ((touches_execTrgTqSnap q v s).touches h).plan (by decide)
  | acqArm n v => exact ((touches_execAcqArm n v s).touches h).plan (by decide)
  | acqStop n v => exact ((touches_execAcqStop n v s).touches h).plan (by decide)
  | acqDecision n => exact ((touches_execAcqDecision n s).touches h).plan (by decide)
  | acqPreFilled n => exact ((touches_execAcqPreFilled n s).touches h).plan (by decide)
  | acqRecordClose n => exact ((touches_execAcqRecordClose n s).touches h).plan (by decide)
  | acqHoldoffEnd n => exact ((touches_execAcqHoldoffEnd n s).touches h).plan (by decide)
  | acqLogFlush n => exact ((touches_execAcqLogFlush n s).touches h).plan (by decide)
  | acqExtentRefill n => exact ((touches_execAcqExtentRefill n s).touches h).plan (by decide)
  | acqSnap n v => exact ((touches_execAcqSnap n v s).touches h).plan (by decide)
  | rmuRecord => exact ((touches_execRmuRecord s).touches h).plan (by decide)
  | rmuLevelWrite l v => exact ((touches_execRmuLevelWrite l v s).touches h).plan (by decide)
  | tcRun c v => exact ((touches_execTcRun c v s).touches h).plan (by decide)
  | tcAbort c v => exact ((touches_execTcAbort c v s).touches h).plan (by decide)
  | tcPmWrite c a v => exact ((touches_execTcPmWrite c a v s).touches h).plan (by decide)
  | tcDmWrite c a v => exact ((touches_execTcDmWrite c a v s).touches h).plan (by decide)
  | tcSinWrite c v => exact ((touches_execTcSinWrite c v s).touches h).plan (by decide)
  | tcMbinWrite c k v => exact ((touches_execTcMbinWrite c k v s).touches h).plan (by decide)
  | tcMbinPost c v => exact ((touches_execTcMbinPost c v s).touches h).plan (by decide)
  | tcMboutAck c v => exact ((touches_execTcMboutAck c v s).touches h).plan (by decide)
  | tcRecordArrival k ix => exact ((touches_execTcRecordArrival k ix s).touches h).plan (by decide)
  | tcClusterReadout k => exact ((touches_execTcClusterReadout k s).touches h).plan (by decide)
  | tcTimerExpiry c => exact ((touches_execTcTimerExpiry c s).touches h).plan (by decide)
  | tcWatchdog c => exact ((touches_execTcWatchdog c s).touches h).plan (by decide)
  | tcInterrupt c => exact ((touches_execTcInterrupt c s).touches h).plan (by decide)
  | tNop c => exact ((touches_execTNop c s).touches h).plan (by decide)
  | tLdi c d imm => exact ((touches_execTLdi c d imm s).touches h).plan (by decide)
  | tLd c d p am => exact ((touches_execTLd c d p am s).touches h).plan (by decide)
  | tSt c d p am => exact ((touches_execTSt c d p am s).touches h).plan (by decide)
  | tMov c d a => exact ((touches_execTMov c d a s).touches h).plan (by decide)
  | tMovcFromCr c d r => exact ((touches_execTMovcFromCr c d r s).touches h).plan (by decide)
  | tMovcToCr c r d => exact ((touches_execTMovcToCr c r d s).touches h).plan (by decide)
  | tLdc c r imm => exact ((touches_execTLdc c r imm s).touches h).plan (by decide)
  | tAdd c d a b => exact ((touches_execTAdd c d a b s).touches h).plan (by decide)
  | tSub c d a b => exact ((touches_execTSub c d a b s).touches h).plan (by decide)
  | tAnd c d a b => exact ((touches_execTAnd c d a b s).touches h).plan (by decide)
  | tOr c d a b => exact ((touches_execTOr c d a b s).touches h).plan (by decide)
  | tXor c d a b => exact ((touches_execTXor c d a b s).touches h).plan (by decide)
  | tAddi c d imm => exact ((touches_execTAddi c d imm s).touches h).plan (by decide)
  | tAsh c d a b => exact ((touches_execTAsh c d a b s).touches h).plan (by decide)
  | tAshi c d a n => exact ((touches_execTAshi c d a n s).touches h).plan (by decide)
  | tCmp c a b => exact ((touches_execTCmp c a b s).touches h).plan (by decide)
  | tAbs c d a => exact ((touches_execTAbs c d a s).touches h).plan (by decide)
  | tMovm c px amx py amy => exact ((touches_execTMovm c px amx py amy s).touches h).plan (by decide)
  | tMpy c a dx dy => exact ((touches_execTMpy c a dx dy s).touches h).plan (by decide)
  | tMac c a dx dy => exact ((touches_execTMac c a dx dy s).touches h).plan (by decide)
  | tMsu c a dx dy => exact ((touches_execTMsu c a dx dy s).touches h).plan (by decide)
  | tMacm c a px amx py amy => exact ((touches_execTMacm c a px amx py amy s).touches h).plan (by decide)
  | tFtap c a px amx py amy => exact ((touches_execTFtap c a px amx py amy s).touches h).plan (by decide)
  | tAdda c a dx sh => exact ((touches_execTAdda c a dx sh s).touches h).plan (by decide)
  | tClra c a => exact ((touches_execTClra c a s).touches h).plan (by decide)
  | tAcp c a => exact ((touches_execTAcp c a s).touches h).plan (by decide)
  | tExt c d a n => exact ((touches_execTExt c d a n s).touches h).plan (by decide)
  | tSha c a n => exact ((touches_execTSha c a n s).touches h).plan (by decide)
  | tExpd c d a => exact ((touches_execTExpd c d a s).touches h).plan (by decide)
  | tExpa c d a => exact ((touches_execTExpa c d a s).touches h).plan (by decide)
  | tBexp c d p am => exact ((touches_execTBexp c d p am s).touches h).plan (by decide)
  | tBscl c p am d => exact ((touches_execTBscl c p am d s).touches h).plan (by decide)
  | tB c cond t => exact ((touches_execTB c cond t s).touches h).plan (by decide)
  | tCall c t => exact ((touches_execTCall c t s).touches h).plan (by decide)
  | tRet c => exact ((touches_execTRet c s).touches h).plan (by decide)
  | tReti c => exact ((touches_execTReti c s).touches h).plan (by decide)
  | tRpt c n1 => exact ((touches_execTRpt c n1 s).touches h).plan (by decide)
  | tRptd c a => exact ((touches_execTRptd c a s).touches h).plan (by decide)
  | tLoop c n t => exact ((touches_execTLoop c n t s).touches h).plan (by decide)
  | tLoopd c a t => exact ((touches_execTLoopd c a t s).touches h).plan (by decide)
  | tHalt c => exact ((touches_execTHalt c s).touches h).plan (by decide)
  | tIdle c => exact ((touches_execTIdle c s).touches h).plan (by decide)
  | tGetr c p => exact ((touches_execTGetr c p s).touches h).plan (by decide)
  | tRelr c => exact ((touches_execTRelr c s).touches h).plan (by decide)
  | tSend c p r => exact ((touches_execTSend c p r s).touches h).plan (by decide)
  | tSwait c => exact ((touches_execTSwait c s).touches h).plan (by decide)
  | tMbr c d w => exact ((touches_execTMbr c d w s).touches h).plan (by decide)
  | tMbw c w d => exact ((touches_execTMbw c w d s).touches h).plan (by decide)
  | tMback c => exact ((touches_execTMback c s).touches h).plan (by decide)
  | tMbpost c => exact ((touches_execTMbpost c s).touches h).plan (by decide)
  | recordArrival p => exact ((touches_execRecordArrival p s).touches h).plan (by decide)
  | policingCreditResume x => exact ((touches_execPolicingCreditResume x s).touches h).plan (by decide)
  | overflowStallResume x => exact ((touches_execOverflowStallResume x s).touches h).plan (by decide)
  | faultRecordDeferred x => exact ((touches_execFaultRecordDeferred x s).touches h).plan (by decide)
  | replaySend p => exact ((touches_execReplaySend p s).touches h).plan (by decide)
  | stoTake => exact ((touches_execStoTake s).touches h).plan (by decide)
  | stoFree => exact ((touches_execStoFree s).touches h).plan (by decide)
  | stoFlush => exact ((touches_execStoFlush s).touches h).plan (by decide)
  | stoDiscard => exact ((touches_execStoDiscard s).touches h).plan (by decide)
  | stoQuery => exact ((touches_execStoQuery s).touches h).plan (by decide)
  | stoCsnap v => exact ((touches_execStoCsnap v s).touches h).plan (by decide)
  | biasSwitchDone b => exact ((touches_execBiasSwitchDone b s).touches h).plan (by decide)
  | zcFlushTimer x => exact ((touches_execZcFlushTimer x s).touches h).plan (by decide)
  | zcRelease x v => exact ((touches_execZcRelease x v s).touches h).plan (by decide)
  | ctxFlush x v => exact ((touches_execCtxFlush x v s).touches h).plan (by decide)
  | admOpen => exact ((touches_execAdmOpen s).touches h).plan (by decide)
  | admClose => exact ((touches_execAdmClose s).touches h).plan (by decide)
  | admTest => exact ((touches_execAdmTest s).touches h).plan (by decide)
  | admSnap v => exact ((touches_execAdmSnap v s).touches h).plan (by decide)
  | deadlineMiss x d => exact ((touches_execDeadlineMiss x d s).touches h).plan (by decide)
  | memMapWrite v => exact ((touches_execMemMapWrite v s).touches h).plan (by decide)
  | mapInitDone => exact ((touches_execMapInitDone s).touches h).plan (by decide)
  | memSchedWrite v => exact ((touches_execMemSchedWrite v s).touches h).plan (by decide)
  | memGranule ch waiting err => exact ((touches_execMemGranule ch waiting err s).touches h).plan (by decide)
  | mr4Poll d code => exact ((touches_execMr4Poll d code s).touches h).plan (by decide)
  | refreshDue ch wait => exact ((touches_execRefreshDue ch wait s).touches h).plan (by decide)
  | retrain ch ok => cases hk
  | scrubRead err => exact ((touches_execScrubRead err s).touches h).plan (by decide)
  | memUeSnap v => exact ((touches_execMemUeSnap v s).touches h).plan (by decide)
  | cmpFlush u v => exact ((touches_execCmpFlush u v s).touches h).plan (by decide)
  | cmpStreamBlock u => exact ((touches_execCmpStreamBlock u s).touches h).plan (by decide)
  | cmpDecodeRecord u => exact ((touches_execCmpDecodeRecord u s).touches h).plan (by decide)
  | cmpJobGo u v pre => exact ((touches_execCmpJobGo u v pre s).touches h).plan (by decide)
  | cmpJobBlock u data => exact ((touches_execCmpJobBlock u data s).touches h).plan (by decide)
  | cmpJobResume u v => exact ((touches_execCmpJobResume u v s).touches h).plan (by decide)
  | cmpJobAbort u v => exact ((touches_execCmpJobAbort u v s).touches h).plan (by decide)
  | cmpJobDone u => exact ((touches_execCmpJobDone u s).touches h).plan (by decide)
  | cxlMemRead n => exact ((touches_execCxlMemRead n s).touches h).plan (by decide)
  | cxlMemWrite => exact ((touches_execCxlMemWrite s).touches h).plan (by decide)
  | hdmCommit one base size skip ways lock => exact ((touches_execHdmCommit one base size skip ways lock s).touches h).plan (by decide)
  | hostSnoop => exact ((touches_execHostSnoop s).touches h).plan (by decide)
  | linkRetrain width rate cxl => exact ((touches_execLinkRetrain width rate cxl s).touches h).plan (by decide)
  | linkDown => exact ((touches_execLinkDown s).touches h).plan (by decide)
  | cxlReset memClr => cases hk
  | flr => exact ((touches_execFlr s).touches h).plan (by decide)
  | busMasterDisable => exact ((touches_execBusMasterDisable s).touches h).plan (by decide)
  | completionTimeout r => cases hk
  | poisonedCompletion r => cases hk
  | msixUnmask u => exact ((touches_execMsixUnmask u s).touches h).plan (by decide)
  | msixModerationEnd v => exact ((touches_execMsixModerationEnd v s).touches h).plan (by decide)
  | doeDiscovery req busy => exact ((touches_execDoeDiscovery req busy s).touches h).plan (by decide)
  | cdatTableAccess req busy => exact ((touches_execCdatTableAccess req busy s).touches h).plan (by decide)
  | getVersion req busy => exact ((touches_execGetVersion req busy s).touches h).plan (by decide)
  | getCapabilities req busy => exact ((touches_execGetCapabilities req busy s).touches h).plan (by decide)
  | negotiateAlgorithms req busy => exact ((touches_execNegotiateAlgorithms req busy s).touches h).plan (by decide)
  | getDigests req busy => exact ((touches_execGetDigests req busy s).touches h).plan (by decide)
  | getCertificate req busy off len => exact ((touches_execGetCertificate req busy off len s).touches h).plan (by decide)
  | challenge req busy => exact ((touches_execChallenge req busy s).touches h).plan (by decide)
  | getMeasurements req busy index signed => exact ((touches_execGetMeasurements req busy index signed s).touches h).plan (by decide)
  | spdmUnsupportedRequest req busy => exact ((touches_execSpdmUnsupportedRequest req busy s).touches h).plan (by decide)
  | dmaStart c v => exact ((touches_execDmaStart c v s).touches h).plan (by decide)
  | dmaAbort c v => exact ((touches_execDmaAbort c v s).touches h).plan (by decide)
  | dmaGiveBind c v => exact ((touches_execDmaGiveBind c v s).touches h).plan (by decide)
  | dmaDescFetch c desc list => exact ((touches_execDmaDescFetch c desc list s).touches h).plan (by decide)
  | dmaNop c => exact ((touches_execDmaNop c s).touches h).plan (by decide)
  | ctxTake c => exact ((touches_execCtxTake c s).touches h).plan (by decide)
  | ctxGive c data => exact ((touches_execCtxGive c data s).touches h).plan (by decide)
  | storeRead c => exact ((touches_execStoreRead c s).touches h).plan (by decide)
  | refTake c => exact ((touches_execRefTake c s).touches h).plan (by decide)
  | refGive c => exact ((touches_execRefGive c s).touches h).plan (by decide)
  | dmaRecordAvailable c => exact ((touches_execDmaRecordAvailable c s).touches h).plan (by decide)
  | dmaIdleTimeout c => exact ((touches_execDmaIdleTimeout c s).touches h).plan (by decide)
  | dmaDataCompletion c => exact ((touches_execDmaDataCompletion c s).touches h).plan (by decide)
  | netPortCfgWrite p v => exact ((touches_execNetPortCfgWrite p v s).touches h).plan (by decide)
  | netLinkUp ix => exact ((touches_execNetLinkUp ix s).touches h).plan (by decide)
  | netLinkLoss ix => exact ((touches_execNetLinkLoss ix s).touches h).plan (by decide)
  | netFrameRx ix f => exact ((touches_execNetFrameRx ix f s).touches h).plan (by decide)
  | pauseFrameRx ix q pfc => exact ((touches_execPauseFrameRx ix q pfc s).touches h).plan (by decide)
  | pauseExpiry ix => exact ((touches_execPauseExpiry ix s).touches h).plan (by decide)
  | exqRxRelease ix v => exact ((touches_execExqRxRelease ix v s).touches h).plan (by decide)
  | exqTxTail ix v => exact ((touches_execExqTxTail ix v s).touches h).plan (by decide)
  | exqTxSend ix desc data fine => exact ((touches_execExqTxSend ix desc data fine s).touches h).plan (by decide)
  | aveCmdOpen a v => exact ((touches_execAveCmdOpen a v s).touches h).plan (by decide)
  | aveCmdClose a v => exact ((touches_execAveCmdClose a v s).touches h).plan (by decide)
  | aveCmdReset a v => exact ((touches_execAveCmdReset a v s).touches h).plan (by decide)
  | aveCmdSkip a v => exact ((touches_execAveCmdSkip a v s).touches h).plan (by decide)
  | pktOpen ix p => exact ((touches_execOpen ix p s).touches h).plan (by decide)
  | pktOpenAck ix p => exact ((touches_execOpenAck ix p s).touches h).plan (by decide)
  | pktData ix p => exact ((touches_execData ix p s).touches h).plan (by decide)
  | pktAck ix p => exact ((touches_execAck ix p s).touches h).plan (by decide)
  | pktNak ix p => exact ((touches_execNak ix p s).touches h).plan (by decide)
  | pktClose ix p => exact ((touches_execClose ix p s).touches h).plan (by decide)
  | pktCloseAck ix p => exact ((touches_execCloseAck ix p s).touches h).plan (by decide)
  | pktTrigger ix p => exact ((touches_execTrigger ix p s).touches h).plan (by decide)
  | pktTrigAck ix p => exact ((touches_execTrigAck ix p s).touches h).plan (by decide)
  | aveDataSend ix => exact ((touches_execAveDataSend ix s).touches h).plan (by decide)
  | aveRtoExpiry a => exact ((touches_execAveRtoExpiry a s).touches h).plan (by decide)
  | aveAckTimer a => exact ((touches_execAveAckTimer a s).touches h).plan (by decide)
  | aveIdleAck a => exact ((touches_execAveIdleAck a s).touches h).plan (by decide)
  | aveDeadExpiry a => exact ((touches_execAveDeadExpiry a s).touches h).plan (by decide)
  | aveQuarantineEnd a => exact ((touches_execAveQuarantineEnd a s).touches h).plan (by decide)
  | aveSnap a v => exact ((touches_execAveSnap a v s).touches h).plan (by decide)
  | trigSendGo v => exact ((touches_execTrigSendGo v s).touches h).plan (by decide)
  | trigResend a => exact ((touches_execTrigResend a s).touches h).plan (by decide)
  | trigMessageRelease k => exact ((touches_execTrigMessageRelease k s).touches h).plan (by decide)
  | disHpd n sink ok => exact ((touches_execDisHpd n sink ok s).touches h).plan (by decide)
  | disCommit n v => exact ((touches_execDisCommit n v s).touches h).plan (by decide)
  | disFrameStart n => exact ((touches_execDisFrameStart n s).touches h).plan (by decide)
  | disClockStable n ok => exact ((touches_execDisClockStable n ok s).touches h).plan (by decide)
  | disLayerRecord n l => exact ((touches_execDisLayerRecord n l s).touches h).plan (by decide)
  | disAuxGo n v reply => exact ((touches_execDisAuxGo n v reply s).touches h).plan (by decide)
  | disPalWrite n b ix v => exact ((touches_execDisPalWrite n b ix v s).touches h).plan (by decide)
  | stkCmdQueue v => exact ((touches_execStkCmdQueue v s).touches h).plan (by decide)
  | stkNop => exact ((touches_execStkNop s).touches h).plan (by decide)
  | flashRead => exact ((touches_execFlashRead s).touches h).plan (by decide)
  | flashUpdate img ok => exact ((touches_execFlashUpdate img ok s).touches h).plan (by decide)
  | calStore => exact ((touches_execCalStore s).touches h).plan (by decide)
  | keyProvision data ok => exact ((touches_execKeyProvision data ok s).touches h).plan (by decide)
  | keyLock ok => exact ((touches_execKeyLock ok s).touches h).plan (by decide)
  | svnCommit ok => exact ((touches_execSvnCommit ok s).touches h).plan (by decide)
  | secureEnable ok => exact ((touches_execSecureEnable ok s).touches h).plan (by decide)
  | stkCancel v => exact ((touches_execStkCancel v s).touches h).plan (by decide)
  | stkCsEccError bad patch => cases hk
  | stkWatchdog => cases hk
  | porstAssert p => cases hk
  | porstRelease p bootsel smbAddr => exact ((touches_execPorstRelease p bootsel smbAddr s).touches h).plan (by decide)
  | bootStepEnd e => exact ((touches_execBootStepEnd e s).touches h).plan (by decide)
  | evtRelease v => exact ((touches_execEvtRelease v s).touches h).plan (by decide)
  | ringEnWrite v => exact ((touches_execRingEnWrite v s).touches h).plan (by decide)
  | evtSwtest v => exact ((touches_execEvtSwtest v s).touches h).plan (by decide)
  | injectEvent v => cases hk
  | injectContext v => cases hk
  | injectMemCe v => cases hk
  | injectMemUe v => cases hk
  | injectRestart v => cases hk
  | injectLock v => cases hk
  | railLow r mv => exact ((touches_execRailLow r mv s).touches h).plan (by decide)
  | thmSensorUpdate temps rails => exact ((touches_execThmSensorUpdate temps rails s).touches h).plan (by decide)
  | cnvStbyWrite v => exact ((touches_execCnvStbyWrite v s).touches h).plan (by decide)
  | srEnWrite v => exact ((touches_execSrEnWrite v s).touches h).plan (by decide)
  | selfRefreshEntry => exact ((touches_execSelfRefreshEntry s).touches h).plan (by decide)
  | smbSetOffset bytes wrongPec => exact ((touches_execSmbSetOffset bytes wrongPec s).touches h).plan (by decide)
  | smbRead => exact ((touches_execSmbRead s).touches h).plan (by decide)
  | smbWrite bytes wrongPec env => cases hk
  | smbStatus => exact ((touches_execSmbStatus s).touches h).plan (by decide)
  | mgtSmbLock v => exact ((touches_execMgtSmbLock v s).touches h).plan (by decide)
  | idcode => exact ((touches_execIdcode s).touches h).plan (by decide)
  | samplePreload capture bits => exact ((touches_execSamplePreload capture bits s).touches h).plan (by decide)
  | extest => exact ((touches_execExtest s).touches h).plan (by decide)
  | clamp => exact ((touches_execClamp s).touches h).plan (by decide)
  | highz => exact ((touches_execHighz s).touches h).plan (by decide)
  | extestPulse => exact ((touches_execExtestPulse s).touches h).plan (by decide)
  | extestTrain => exact ((touches_execExtestTrain s).touches h).plan (by decide)
  | bypass => exact ((touches_execBypass s).touches h).plan (by decide)
  | streetBeat c0 c1 c2 c3 => exact ((touches_execStreetBeat c0 c1 c2 c3 s).touches h).plan (by decide)
  | scanoutLine n y den ovl => exact ((touches_execScanoutLine n y den ovl s).touches h).plan (by decide)
  | railHigh r mv => exact ((touches_execRailHigh r mv s).touches h).plan (by decide)
  | railRecovered r within => exact ((touches_execRailRecovered r within s).touches h).plan (by decide)
  | tbusLineHigh l => exact ((touches_execTbusLineHigh l s).touches h).plan (by decide)
  | tapReset => exact ((touches_execTapReset s).touches h).plan (by decide)

/-- The commands that may change `dis`. -/
def mayDis : Instr → Bool
  | .disHpd .. => true
  | .disFrameStart .. => true
  | .disClockStable .. => true
  | .porstAssert .. => true
  | _ => false

/-- The commands outside `mayDis` leave the displays alone. -/
theorem exec_dis (c : Instr) {s t : State} (h : exec c s = .next t) (hk : mayDis c = false) : t.dis = s.dis := by
  cases c with
  | registerWrite p bar a v env => exact ((touches_execRegisterWrite p bar a v env s).touches h).dis (by decide)
  | lowHalfRead p bar n => exact ((touches_execLowHalfRead p bar n s).touches h).dis (by decide)
  | highHalfRead p bar n => exact ((touches_execHighHalfRead p bar n s).touches h).dis (by decide)
  | lowHalfWrite p bar n v env => exact ((touches_execLowHalfWrite p bar n v env s).touches h).dis (by decide)
  | highHalfWrite p bar n v env => exact ((touches_execHighHalfWrite p bar n v env s).touches h).dis (by decide)
  | reservedAddressAccess p bar a sz write => exact ((touches_execReservedAddressAccess p bar a sz write s).touches h).dis (by decide)
  | devidWrite v => exact ((touches_execDevidWrite v s).touches h).dis (by decide)
  | devidLock v => exact ((touches_execDevidLock v s).touches h).dis (by decide)
  | dpRestart v => exact ((touches_execDpRestart v s).touches h).dis (by decide)
  | restartFaultRecords => exact ((touches_execRestartFaultRecords s).touches h).dis (by decide)
  | restartUnitReset => exact ((touches_execRestartUnitReset s).touches h).dis (by decide)
  | restartTrainingEnd ok => exact ((touches_execRestartTrainingEnd ok s).touches h).dis (by decide)
  | restartActivate => exact ((touches_execRestartActivate s).touches h).dis (by decide)
  | restartTimeout => exact ((touches_execRestartTimeout s).touches h).dis (by decide)
  | refLoss integ => exact ((touches_execRefLoss integ s).touches h).dis (by decide)
  | refRestored => exact ((touches_execRefRestored s).touches h).dis (by decide)
  | mpllLockDeclared => exact ((touches_execMpllLockDeclared s).touches h).dis (by decide)
  | mpllLol integ => exact ((touches_execMpllLol integ s).touches h).dis (by decide)
  | mpllFreqGate err => exact ((touches_execMpllFreqGate err s).touches h).dis (by decide)
  | holdoverUpdate meas => exact ((touches_execHoldoverUpdate meas s).touches h).dis (by decide)
  | lpllHoldover => exact ((touches_execLpllHoldover s).touches h).dis (by decide)
  | lpllRelocked => exact ((touches_execLpllRelocked s).touches h).dis (by decide)
  | retune v => exact ((touches_execRetune v s).touches h).dis (by decide)
  | retuneSettleDone fs => exact ((touches_execRetuneSettleDone fs s).touches h).dis (by decide)
  | retuneTimeout => exact ((touches_execRetuneTimeout s).touches h).dis (by decide)
  | heldRetry => exact ((touches_execHeldRetry s).touches h).dis (by decide)
  | syncArm v => exact ((touches_execSyncArm v s).touches h).dis (by decide)
  | syncinEdge same => exact ((touches_execSyncinEdge same s).touches h).dis (by decide)
  | attGo n v => exact ((touches_execAttGo n v s).touches h).dis (by decide)
  | attApply n => exact ((touches_execAttApply n s).touches h).dis (by decide)
  | chcorrWrite n v => exact ((touches_execChcorrWrite n v s).touches h).dis (by decide)
  | sliceWrite n k v => exact ((touches_execSliceWrite n k v s).touches h).dis (by decide)
  | bgEnWrite n v => exact ((touches_execBgEnWrite n v s).touches h).dis (by decide)
  | bgSettleEnd n => exact ((touches_execBgSettleEnd n s).touches h).dis (by decide)
  | bgShadowEnd n w => exact ((touches_execBgShadowEnd n w s).touches h).dis (by decide)
  | bgWindowEnd n w => exact ((touches_execBgWindowEnd n w s).touches h).dis (by decide)
  | bgIntervalEnd n => exact ((touches_execBgIntervalEnd n s).touches h).dis (by decide)
  | monitorTrip m v => exact ((touches_execMonitorTrip m v s).touches h).dis (by decide)
  | monSample m v => exact ((touches_execMonSample m v s).touches h).dis (by decide)
  | monPeriodClear m => exact ((touches_execMonPeriodClear m s).touches h).dis (by decide)
  | monLatchClear m v => exact ((touches_execMonLatchClear m v s).touches h).dis (by decide)
  | monCfgWrite m v => exact ((touches_execMonCfgWrite m v s).touches h).dis (by decide)
  | pgSwTrip g v => exact ((touches_execPgSwTrip g v s).touches h).dis (by decide)
  | pgTripClear g v => exact ((touches_execPgTripClear g v s).touches h).dis (by decide)
  | pgSafeWrite g v => exact ((touches_execPgSafeWrite g v s).touches h).dis (by decide)
  | pgArm g v => exact ((touches_execPgArm g v s).touches h).dis (by decide)
  | pgScheduleCommit g => exact ((touches_execPgScheduleCommit g s).touches h).dis (by decide)
  | pgEdge g => exact ((touches_execPgEdge g s).touches h).dis (by decide)
  | tbsAdjWrite v => exact ((touches_execTbsAdjWrite v s).touches h).dis (by decide)
  | tbsSlewWrite v => exact ((touches_execTbsSlewWrite v s).touches h).dis (by decide)
  | tbsStepWrite v => exact ((touches_execTbsStepWrite v s).touches h).dis (by decide)
  | servoSourceWrite v => exact ((touches_execServoSourceWrite v s).touches h).dis (by decide)
  | hostLockWrite v => exact ((touches_execHostLockWrite v s).touches h).dis (by decide)
  | ptpUpdate offPs step => exact ((touches_execPtpUpdate offPs step s).touches h).dis (by decide)
  | servoMissTimeout => exact ((touches_execServoMissTimeout s).touches h).dis (by decide)
  | hostTimeout => exact ((touches_execHostTimeout s).touches h).dis (by decide)
  | tdcEdge c t rising => exact ((touches_execTdcEdge c t rising s).touches h).dis (by decide)
  | stampsFlush c => exact ((touches_execStampsFlush c s).touches h).dis (by decide)
  | vernierRemeasure a b => exact ((touches_execVernierRemeasure a b s).touches h).dis (by decide)
  | freqEnWrite v => exact ((touches_execFreqEnWrite v s).touches h).dis (by decide)
  | freqGateOpen => exact ((touches_execFreqGateOpen s).touches h).dis (by decide)
  | freqGateEnd => exact ((touches_execFreqGateEnd s).touches h).dis (by decide)
  | tdcFreqSnap v => exact ((touches_execTdcFreqSnap v s).touches h).dis (by decide)
  | calGo v => exact ((touches_execCalGo v s).touches h).dis (by decide)
  | calAbort v => exact ((touches_execCalAbort v s).touches h).dis (by decide)
  | calStoreStart v => exact ((touches_execCalStoreStart v s).touches h).dis (by decide)
  | calPhaseEnd m => exact ((touches_execCalPhaseEnd m s).touches h).dis (by decide)
  | calAgeDue n => exact ((touches_execCalAgeDue n s).touches h).dis (by decide)
  | calAutoStart => exact ((touches_execCalAutoStart s).touches h).dis (by decide)
  | calRetryExpiry n => exact ((touches_execCalRetryExpiry n s).touches h).dis (by decide)
  | storeWriteEnd ok => exact ((touches_execStoreWriteEnd ok s).touches h).dis (by decide)
  | planLoad v => exact ((touches_execPlanLoad v s).touches h).dis (by decide)
  | planFetchDone img => exact ((touches_execPlanFetchDone img s).touches h).dis (by decide)
  | planActivate v => exact ((touches_execPlanActivate v s).touches h).dis (by decide)
  | planAbort v => exact ((touches_execPlanAbort v s).touches h).dis (by decide)
  | planDiscard v => exact ((touches_execPlanDiscard v s).touches h).dis (by decide)
  | planStop v => exact ((touches_execPlanStop v s).touches h).dis (by decide)
  | planCommit => exact ((touches_execPlanCommit s).touches h).dis (by decide)
  | planStopCommit => exact ((touches_execPlanStopCommit s).touches h).dis (by decide)
  | pcommitGo v => exact ((touches_execPcommitGo v s).touches h).dis (by decide)
  | paramCommit => exact ((touches_execParamCommit s).touches h).dis (by decide)
  | ddcSwapGo u v => exact ((touches_execDdcSwapGo u v s).touches h).dis (by decide)
  | ddcSwapCancel u v => exact ((touches_execDdcSwapCancel u v s).touches h).dis (by decide)
  | ddcSwapCommit u => exact ((touches_execDdcSwapCommit u s).touches h).dis (by decide)
  | ddcSwapDone u => exact ((touches_execDdcSwapDone u s).touches h).dis (by decide)
  | ddcCoefWrite u k b r v => exact ((touches_execDdcCoefWrite u k b r v s).touches h).dis (by decide)
  | ddcNcoRstArm u v => exact ((touches_execDdcNcoRstArm u v s).touches h).dis (by decide)
  | tabLoad n v => exact ((touches_execTabLoad n v s).touches h).dis (by decide)
  | tabLoadEnd n ws => exact ((touches_execTabLoadEnd n ws s).touches h).dis (by decide)
  | tabSwapGo n v => exact ((touches_execTabSwapGo n v s).touches h).dis (by decide)
  | tabSwapCancel n v => exact ((touches_execTabSwapCancel n v s).touches h).dis (by decide)
  | tabSwapCommit n => exact ((touches_execTabSwapCommit n s).touches h).dis (by decide)
  | xfmCtrlWrite n v => exact ((touches_execXfmCtrlWrite n v s).touches h).dis (by decide)
  | xfmFrame n => exact ((touches_execXfmFrame n s).touches h).dis (by decide)
  | detFrame n => exact ((touches_execDetFrame n s).touches h).dis (by decide)
  | detReadoutDone n => exact ((touches_execDetReadoutDone n s).touches h).dis (by decide)
  | detWrite n reg v => exact ((touches_execDetWrite n reg v s).touches h).dis (by decide)
  | denFrame n => exact ((touches_execDenFrame n s).touches h).dis (by decide)
  | denReadoutDone n => exact ((touches_execDenReadoutDone n s).touches h).dis (by decide)
  | denWrite n reg v => exact ((touches_execDenWrite n reg v s).touches h).dis (by decide)
  | tbusEvent l t => exact ((touches_execTbusEvent l t s).touches h).dis (by decide)
  | tbusPulseEnd l => exact ((touches_execTbusPulseEnd l s).touches h).dis (by decide)
  | ltCrossing ix => exact ((touches_execLtCrossing ix s).touches h).dis (by decide)
  | fmFrame u => exact ((touches_execFmFrame u s).touches h).dis (by decide)
  | trgTimerEvent n => exact ((touches_execTrgTimerEvent n s).touches h).dis (by decide)
  | trgSwFire v => exact ((touches_execTrgSwFire v s).touches h).dis (by decide)
  | tqEventArrival q => exact ((touches_execTqEventArrival q s).touches h).dis (by decide)
  | tqHorizon q => exact ((touches_execTqHorizon q s).touches h).dis (by decide)
  | tqAutoTimeout q => exact ((touches_execTqAutoTimeout q s).touches h).dis (by decide)
  | tqFreeRunDecision q => exact ((touches_execTqFreeRunDecision q s).touches h).dis (by decide)
  | tqArm q v => exact ((touches_execTqArm q v s).touches h).dis (by decide)
  | tqDisarm q v => exact ((touches_execTqDisarm q v s).touches h).dis (by decide)
  | trgTqSnap q v => exact ((touches_execTrgTqSnap q v s).touches h).dis (by decide)
  | acqArm n v => exact ((touches_execAcqArm n v s).touches h).dis (by decide)
  | acqStop n v => exact ((touches_execAcqStop n v s).touches h).dis (by decide)
  | acqDecision n => exact ((touches_execAcqDecision n s).touches h).dis (by decide)
  | acqPreFilled n => exact ((touches_execAcqPreFilled n s).touches h).dis (by decide)
  | acqRecordClose n => exact ((touches_execAcqRecordClose n s).touches h).dis (by decide)
  | acqHoldoffEnd n => exact ((touches_execAcqHoldoffEnd n s).touches h).dis (by decide)
  | acqLogFlush n => exact ((touches_execAcqLogFlush n s).touches h).dis (by decide)
  | acqExtentRefill n => exact ((touches_execAcqExtentRefill n s).touches h).dis (by decide)
  | acqSnap n v => exact ((touches_execAcqSnap n v s).touches h).dis (by decide)
  | rmuRecord => exact ((touches_execRmuRecord s).touches h).dis (by decide)
  | rmuLevelWrite l v => exact ((touches_execRmuLevelWrite l v s).touches h).dis (by decide)
  | tcRun c v => exact ((touches_execTcRun c v s).touches h).dis (by decide)
  | tcAbort c v => exact ((touches_execTcAbort c v s).touches h).dis (by decide)
  | tcPmWrite c a v => exact ((touches_execTcPmWrite c a v s).touches h).dis (by decide)
  | tcDmWrite c a v => exact ((touches_execTcDmWrite c a v s).touches h).dis (by decide)
  | tcSinWrite c v => exact ((touches_execTcSinWrite c v s).touches h).dis (by decide)
  | tcMbinWrite c k v => exact ((touches_execTcMbinWrite c k v s).touches h).dis (by decide)
  | tcMbinPost c v => exact ((touches_execTcMbinPost c v s).touches h).dis (by decide)
  | tcMboutAck c v => exact ((touches_execTcMboutAck c v s).touches h).dis (by decide)
  | tcRecordArrival k ix => exact ((touches_execTcRecordArrival k ix s).touches h).dis (by decide)
  | tcClusterReadout k => exact ((touches_execTcClusterReadout k s).touches h).dis (by decide)
  | tcTimerExpiry c => exact ((touches_execTcTimerExpiry c s).touches h).dis (by decide)
  | tcWatchdog c => exact ((touches_execTcWatchdog c s).touches h).dis (by decide)
  | tcInterrupt c => exact ((touches_execTcInterrupt c s).touches h).dis (by decide)
  | tNop c => exact ((touches_execTNop c s).touches h).dis (by decide)
  | tLdi c d imm => exact ((touches_execTLdi c d imm s).touches h).dis (by decide)
  | tLd c d p am => exact ((touches_execTLd c d p am s).touches h).dis (by decide)
  | tSt c d p am => exact ((touches_execTSt c d p am s).touches h).dis (by decide)
  | tMov c d a => exact ((touches_execTMov c d a s).touches h).dis (by decide)
  | tMovcFromCr c d r => exact ((touches_execTMovcFromCr c d r s).touches h).dis (by decide)
  | tMovcToCr c r d => exact ((touches_execTMovcToCr c r d s).touches h).dis (by decide)
  | tLdc c r imm => exact ((touches_execTLdc c r imm s).touches h).dis (by decide)
  | tAdd c d a b => exact ((touches_execTAdd c d a b s).touches h).dis (by decide)
  | tSub c d a b => exact ((touches_execTSub c d a b s).touches h).dis (by decide)
  | tAnd c d a b => exact ((touches_execTAnd c d a b s).touches h).dis (by decide)
  | tOr c d a b => exact ((touches_execTOr c d a b s).touches h).dis (by decide)
  | tXor c d a b => exact ((touches_execTXor c d a b s).touches h).dis (by decide)
  | tAddi c d imm => exact ((touches_execTAddi c d imm s).touches h).dis (by decide)
  | tAsh c d a b => exact ((touches_execTAsh c d a b s).touches h).dis (by decide)
  | tAshi c d a n => exact ((touches_execTAshi c d a n s).touches h).dis (by decide)
  | tCmp c a b => exact ((touches_execTCmp c a b s).touches h).dis (by decide)
  | tAbs c d a => exact ((touches_execTAbs c d a s).touches h).dis (by decide)
  | tMovm c px amx py amy => exact ((touches_execTMovm c px amx py amy s).touches h).dis (by decide)
  | tMpy c a dx dy => exact ((touches_execTMpy c a dx dy s).touches h).dis (by decide)
  | tMac c a dx dy => exact ((touches_execTMac c a dx dy s).touches h).dis (by decide)
  | tMsu c a dx dy => exact ((touches_execTMsu c a dx dy s).touches h).dis (by decide)
  | tMacm c a px amx py amy => exact ((touches_execTMacm c a px amx py amy s).touches h).dis (by decide)
  | tFtap c a px amx py amy => exact ((touches_execTFtap c a px amx py amy s).touches h).dis (by decide)
  | tAdda c a dx sh => exact ((touches_execTAdda c a dx sh s).touches h).dis (by decide)
  | tClra c a => exact ((touches_execTClra c a s).touches h).dis (by decide)
  | tAcp c a => exact ((touches_execTAcp c a s).touches h).dis (by decide)
  | tExt c d a n => exact ((touches_execTExt c d a n s).touches h).dis (by decide)
  | tSha c a n => exact ((touches_execTSha c a n s).touches h).dis (by decide)
  | tExpd c d a => exact ((touches_execTExpd c d a s).touches h).dis (by decide)
  | tExpa c d a => exact ((touches_execTExpa c d a s).touches h).dis (by decide)
  | tBexp c d p am => exact ((touches_execTBexp c d p am s).touches h).dis (by decide)
  | tBscl c p am d => exact ((touches_execTBscl c p am d s).touches h).dis (by decide)
  | tB c cond t => exact ((touches_execTB c cond t s).touches h).dis (by decide)
  | tCall c t => exact ((touches_execTCall c t s).touches h).dis (by decide)
  | tRet c => exact ((touches_execTRet c s).touches h).dis (by decide)
  | tReti c => exact ((touches_execTReti c s).touches h).dis (by decide)
  | tRpt c n1 => exact ((touches_execTRpt c n1 s).touches h).dis (by decide)
  | tRptd c a => exact ((touches_execTRptd c a s).touches h).dis (by decide)
  | tLoop c n t => exact ((touches_execTLoop c n t s).touches h).dis (by decide)
  | tLoopd c a t => exact ((touches_execTLoopd c a t s).touches h).dis (by decide)
  | tHalt c => exact ((touches_execTHalt c s).touches h).dis (by decide)
  | tIdle c => exact ((touches_execTIdle c s).touches h).dis (by decide)
  | tGetr c p => exact ((touches_execTGetr c p s).touches h).dis (by decide)
  | tRelr c => exact ((touches_execTRelr c s).touches h).dis (by decide)
  | tSend c p r => exact ((touches_execTSend c p r s).touches h).dis (by decide)
  | tSwait c => exact ((touches_execTSwait c s).touches h).dis (by decide)
  | tMbr c d w => exact ((touches_execTMbr c d w s).touches h).dis (by decide)
  | tMbw c w d => exact ((touches_execTMbw c w d s).touches h).dis (by decide)
  | tMback c => exact ((touches_execTMback c s).touches h).dis (by decide)
  | tMbpost c => exact ((touches_execTMbpost c s).touches h).dis (by decide)
  | recordArrival p => exact ((touches_execRecordArrival p s).touches h).dis (by decide)
  | policingCreditResume x => exact ((touches_execPolicingCreditResume x s).touches h).dis (by decide)
  | overflowStallResume x => exact ((touches_execOverflowStallResume x s).touches h).dis (by decide)
  | faultRecordDeferred x => exact ((touches_execFaultRecordDeferred x s).touches h).dis (by decide)
  | replaySend p => exact ((touches_execReplaySend p s).touches h).dis (by decide)
  | stoTake => exact ((touches_execStoTake s).touches h).dis (by decide)
  | stoFree => exact ((touches_execStoFree s).touches h).dis (by decide)
  | stoFlush => exact ((touches_execStoFlush s).touches h).dis (by decide)
  | stoDiscard => exact ((touches_execStoDiscard s).touches h).dis (by decide)
  | stoQuery => exact ((touches_execStoQuery s).touches h).dis (by decide)
  | stoCsnap v => exact ((touches_execStoCsnap v s).touches h).dis (by decide)
  | biasSwitchDone b => exact ((touches_execBiasSwitchDone b s).touches h).dis (by decide)
  | zcFlushTimer x => exact ((touches_execZcFlushTimer x s).touches h).dis (by decide)
  | zcRelease x v => exact ((touches_execZcRelease x v s).touches h).dis (by decide)
  | ctxFlush x v => exact ((touches_execCtxFlush x v s).touches h).dis (by decide)
  | admOpen => exact ((touches_execAdmOpen s).touches h).dis (by decide)
  | admClose => exact ((touches_execAdmClose s).touches h).dis (by decide)
  | admTest => exact ((touches_execAdmTest s).touches h).dis (by decide)
  | admSnap v => exact ((touches_execAdmSnap v s).touches h).dis (by decide)
  | deadlineMiss x d => exact ((touches_execDeadlineMiss x d s).touches h).dis (by decide)
  | memMapWrite v => exact ((touches_execMemMapWrite v s).touches h).dis (by decide)
  | mapInitDone => exact ((touches_execMapInitDone s).touches h).dis (by decide)
  | memSchedWrite v => exact ((touches_execMemSchedWrite v s).touches h).dis (by decide)
  | memGranule ch waiting err => exact ((touches_execMemGranule ch waiting err s).touches h).dis (by decide)
  | mr4Poll d code => exact ((touches_execMr4Poll d code s).touches h).dis (by decide)
  | refreshDue ch wait => exact ((touches_execRefreshDue ch wait s).touches h).dis (by decide)
  | retrain ch ok => exact ((touches_execRetrain ch ok s).touches h).dis (by decide)
  | scrubRead err => exact ((touches_execScrubRead err s).touches h).dis (by decide)
  | memUeSnap v => exact ((touches_execMemUeSnap v s).touches h).dis (by decide)
  | cmpFlush u v => exact ((touches_execCmpFlush u v s).touches h).dis (by decide)
  | cmpStreamBlock u => exact ((touches_execCmpStreamBlock u s).touches h).dis (by decide)
  | cmpDecodeRecord u => exact ((touches_execCmpDecodeRecord u s).touches h).dis (by decide)
  | cmpJobGo u v pre => exact ((touches_execCmpJobGo u v pre s).touches h).dis (by decide)
  | cmpJobBlock u data => exact ((touches_execCmpJobBlock u data s).touches h).dis (by decide)
  | cmpJobResume u v => exact ((touches_execCmpJobResume u v s).touches h).dis (by decide)
  | cmpJobAbort u v => exact ((touches_execCmpJobAbort u v s).touches h).dis (by decide)
  | cmpJobDone u => exact ((touches_execCmpJobDone u s).touches h).dis (by decide)
  | cxlMemRead n => exact ((touches_execCxlMemRead n s).touches h).dis (by decide)
  | cxlMemWrite => exact ((touches_execCxlMemWrite s).touches h).dis (by decide)
  | hdmCommit one base size skip ways lock => exact ((touches_execHdmCommit one base size skip ways lock s).touches h).dis (by decide)
  | hostSnoop => exact ((touches_execHostSnoop s).touches h).dis (by decide)
  | linkRetrain width rate cxl => exact ((touches_execLinkRetrain width rate cxl s).touches h).dis (by decide)
  | linkDown => exact ((touches_execLinkDown s).touches h).dis (by decide)
  | cxlReset memClr => exact ((touches_execCxlReset memClr s).touches h).dis (by decide)
  | flr => exact ((touches_execFlr s).touches h).dis (by decide)
  | busMasterDisable => exact ((touches_execBusMasterDisable s).touches h).dis (by decide)
  | completionTimeout r => exact ((touches_execCompletionTimeout r s).touches h).dis (by decide)
  | poisonedCompletion r => exact ((touches_execPoisonedCompletion r s).touches h).dis (by decide)
  | msixUnmask u => exact ((touches_execMsixUnmask u s).touches h).dis (by decide)
  | msixModerationEnd v => exact ((touches_execMsixModerationEnd v s).touches h).dis (by decide)
  | doeDiscovery req busy => exact ((touches_execDoeDiscovery req busy s).touches h).dis (by decide)
  | cdatTableAccess req busy => exact ((touches_execCdatTableAccess req busy s).touches h).dis (by decide)
  | getVersion req busy => exact ((touches_execGetVersion req busy s).touches h).dis (by decide)
  | getCapabilities req busy => exact ((touches_execGetCapabilities req busy s).touches h).dis (by decide)
  | negotiateAlgorithms req busy => exact ((touches_execNegotiateAlgorithms req busy s).touches h).dis (by decide)
  | getDigests req busy => exact ((touches_execGetDigests req busy s).touches h).dis (by decide)
  | getCertificate req busy off len => exact ((touches_execGetCertificate req busy off len s).touches h).dis (by decide)
  | challenge req busy => exact ((touches_execChallenge req busy s).touches h).dis (by decide)
  | getMeasurements req busy index signed => exact ((touches_execGetMeasurements req busy index signed s).touches h).dis (by decide)
  | spdmUnsupportedRequest req busy => exact ((touches_execSpdmUnsupportedRequest req busy s).touches h).dis (by decide)
  | dmaStart c v => exact ((touches_execDmaStart c v s).touches h).dis (by decide)
  | dmaAbort c v => exact ((touches_execDmaAbort c v s).touches h).dis (by decide)
  | dmaGiveBind c v => exact ((touches_execDmaGiveBind c v s).touches h).dis (by decide)
  | dmaDescFetch c desc list => exact ((touches_execDmaDescFetch c desc list s).touches h).dis (by decide)
  | dmaNop c => exact ((touches_execDmaNop c s).touches h).dis (by decide)
  | ctxTake c => exact ((touches_execCtxTake c s).touches h).dis (by decide)
  | ctxGive c data => exact ((touches_execCtxGive c data s).touches h).dis (by decide)
  | storeRead c => exact ((touches_execStoreRead c s).touches h).dis (by decide)
  | refTake c => exact ((touches_execRefTake c s).touches h).dis (by decide)
  | refGive c => exact ((touches_execRefGive c s).touches h).dis (by decide)
  | dmaRecordAvailable c => exact ((touches_execDmaRecordAvailable c s).touches h).dis (by decide)
  | dmaIdleTimeout c => exact ((touches_execDmaIdleTimeout c s).touches h).dis (by decide)
  | dmaDataCompletion c => exact ((touches_execDmaDataCompletion c s).touches h).dis (by decide)
  | netPortCfgWrite p v => exact ((touches_execNetPortCfgWrite p v s).touches h).dis (by decide)
  | netLinkUp ix => exact ((touches_execNetLinkUp ix s).touches h).dis (by decide)
  | netLinkLoss ix => exact ((touches_execNetLinkLoss ix s).touches h).dis (by decide)
  | netFrameRx ix f => exact ((touches_execNetFrameRx ix f s).touches h).dis (by decide)
  | pauseFrameRx ix q pfc => exact ((touches_execPauseFrameRx ix q pfc s).touches h).dis (by decide)
  | pauseExpiry ix => exact ((touches_execPauseExpiry ix s).touches h).dis (by decide)
  | exqRxRelease ix v => exact ((touches_execExqRxRelease ix v s).touches h).dis (by decide)
  | exqTxTail ix v => exact ((touches_execExqTxTail ix v s).touches h).dis (by decide)
  | exqTxSend ix desc data fine => exact ((touches_execExqTxSend ix desc data fine s).touches h).dis (by decide)
  | aveCmdOpen a v => exact ((touches_execAveCmdOpen a v s).touches h).dis (by decide)
  | aveCmdClose a v => exact ((touches_execAveCmdClose a v s).touches h).dis (by decide)
  | aveCmdReset a v => exact ((touches_execAveCmdReset a v s).touches h).dis (by decide)
  | aveCmdSkip a v => exact ((touches_execAveCmdSkip a v s).touches h).dis (by decide)
  | pktOpen ix p => exact ((touches_execOpen ix p s).touches h).dis (by decide)
  | pktOpenAck ix p => exact ((touches_execOpenAck ix p s).touches h).dis (by decide)
  | pktData ix p => exact ((touches_execData ix p s).touches h).dis (by decide)
  | pktAck ix p => exact ((touches_execAck ix p s).touches h).dis (by decide)
  | pktNak ix p => exact ((touches_execNak ix p s).touches h).dis (by decide)
  | pktClose ix p => exact ((touches_execClose ix p s).touches h).dis (by decide)
  | pktCloseAck ix p => exact ((touches_execCloseAck ix p s).touches h).dis (by decide)
  | pktTrigger ix p => exact ((touches_execTrigger ix p s).touches h).dis (by decide)
  | pktTrigAck ix p => exact ((touches_execTrigAck ix p s).touches h).dis (by decide)
  | aveDataSend ix => exact ((touches_execAveDataSend ix s).touches h).dis (by decide)
  | aveRtoExpiry a => exact ((touches_execAveRtoExpiry a s).touches h).dis (by decide)
  | aveAckTimer a => exact ((touches_execAveAckTimer a s).touches h).dis (by decide)
  | aveIdleAck a => exact ((touches_execAveIdleAck a s).touches h).dis (by decide)
  | aveDeadExpiry a => exact ((touches_execAveDeadExpiry a s).touches h).dis (by decide)
  | aveQuarantineEnd a => exact ((touches_execAveQuarantineEnd a s).touches h).dis (by decide)
  | aveSnap a v => exact ((touches_execAveSnap a v s).touches h).dis (by decide)
  | trigSendGo v => exact ((touches_execTrigSendGo v s).touches h).dis (by decide)
  | trigResend a => exact ((touches_execTrigResend a s).touches h).dis (by decide)
  | trigMessageRelease k => exact ((touches_execTrigMessageRelease k s).touches h).dis (by decide)
  | disHpd n sink ok => cases hk
  | disCommit n v => exact ((touches_execDisCommit n v s).touches h).dis (by decide)
  | disFrameStart n => cases hk
  | disClockStable n ok => cases hk
  | disLayerRecord n l => exact ((touches_execDisLayerRecord n l s).touches h).dis (by decide)
  | disAuxGo n v reply => exact ((touches_execDisAuxGo n v reply s).touches h).dis (by decide)
  | disPalWrite n b ix v => exact ((touches_execDisPalWrite n b ix v s).touches h).dis (by decide)
  | stkCmdQueue v => exact ((touches_execStkCmdQueue v s).touches h).dis (by decide)
  | stkNop => exact ((touches_execStkNop s).touches h).dis (by decide)
  | flashRead => exact ((touches_execFlashRead s).touches h).dis (by decide)
  | flashUpdate img ok => exact ((touches_execFlashUpdate img ok s).touches h).dis (by decide)
  | calStore => exact ((touches_execCalStore s).touches h).dis (by decide)
  | keyProvision data ok => exact ((touches_execKeyProvision data ok s).touches h).dis (by decide)
  | keyLock ok => exact ((touches_execKeyLock ok s).touches h).dis (by decide)
  | svnCommit ok => exact ((touches_execSvnCommit ok s).touches h).dis (by decide)
  | secureEnable ok => exact ((touches_execSecureEnable ok s).touches h).dis (by decide)
  | stkCancel v => exact ((touches_execStkCancel v s).touches h).dis (by decide)
  | stkCsEccError bad patch => exact ((touches_execStkCsEccError bad patch s).touches h).dis (by decide)
  | stkWatchdog => exact ((touches_execStkWatchdog s).touches h).dis (by decide)
  | porstAssert p => cases hk
  | porstRelease p bootsel smbAddr => exact ((touches_execPorstRelease p bootsel smbAddr s).touches h).dis (by decide)
  | bootStepEnd e => exact ((touches_execBootStepEnd e s).touches h).dis (by decide)
  | evtRelease v => exact ((touches_execEvtRelease v s).touches h).dis (by decide)
  | ringEnWrite v => exact ((touches_execRingEnWrite v s).touches h).dis (by decide)
  | evtSwtest v => exact ((touches_execEvtSwtest v s).touches h).dis (by decide)
  | injectEvent v => exact ((touches_execInjectEvent v s).touches h).dis (by decide)
  | injectContext v => exact ((touches_execInjectContext v s).touches h).dis (by decide)
  | injectMemCe v => exact ((touches_execInjectMemCe v s).touches h).dis (by decide)
  | injectMemUe v => exact ((touches_execInjectMemUe v s).touches h).dis (by decide)
  | injectRestart v => exact ((touches_execInjectRestart v s).touches h).dis (by decide)
  | injectLock v => exact ((touches_execInjectLock v s).touches h).dis (by decide)
  | railLow r mv => exact ((touches_execRailLow r mv s).touches h).dis (by decide)
  | thmSensorUpdate temps rails => exact ((touches_execThmSensorUpdate temps rails s).touches h).dis (by decide)
  | cnvStbyWrite v => exact ((touches_execCnvStbyWrite v s).touches h).dis (by decide)
  | srEnWrite v => exact ((touches_execSrEnWrite v s).touches h).dis (by decide)
  | selfRefreshEntry => exact ((touches_execSelfRefreshEntry s).touches h).dis (by decide)
  | smbSetOffset bytes wrongPec => exact ((touches_execSmbSetOffset bytes wrongPec s).touches h).dis (by decide)
  | smbRead => exact ((touches_execSmbRead s).touches h).dis (by decide)
  | smbWrite bytes wrongPec env => exact ((touches_execSmbWrite bytes wrongPec env s).touches h).dis (by decide)
  | smbStatus => exact ((touches_execSmbStatus s).touches h).dis (by decide)
  | mgtSmbLock v => exact ((touches_execMgtSmbLock v s).touches h).dis (by decide)
  | idcode => exact ((touches_execIdcode s).touches h).dis (by decide)
  | samplePreload capture bits => exact ((touches_execSamplePreload capture bits s).touches h).dis (by decide)
  | extest => exact ((touches_execExtest s).touches h).dis (by decide)
  | clamp => exact ((touches_execClamp s).touches h).dis (by decide)
  | highz => exact ((touches_execHighz s).touches h).dis (by decide)
  | extestPulse => exact ((touches_execExtestPulse s).touches h).dis (by decide)
  | extestTrain => exact ((touches_execExtestTrain s).touches h).dis (by decide)
  | bypass => exact ((touches_execBypass s).touches h).dis (by decide)
  | streetBeat c0 c1 c2 c3 => exact ((touches_execStreetBeat c0 c1 c2 c3 s).touches h).dis (by decide)
  | scanoutLine n y den ovl => exact ((touches_execScanoutLine n y den ovl s).touches h).dis (by decide)
  | railHigh r mv => exact ((touches_execRailHigh r mv s).touches h).dis (by decide)
  | railRecovered r within => exact ((touches_execRailRecovered r within s).touches h).dis (by decide)
  | tbusLineHigh l => exact ((touches_execTbusLineHigh l s).touches h).dis (by decide)
  | tapReset => exact ((touches_execTapReset s).touches h).dis (by decide)

/-- The commands that may change `glb`. -/
def mayGlb : Instr → Bool
  | .registerWrite .. => true
  | .lowHalfWrite .. => true
  | .highHalfWrite .. => true
  | .devidWrite .. => true
  | .devidLock .. => true
  | .dpRestart .. => true
  | .restartTrainingEnd .. => true
  | .restartActivate => true
  | .restartTimeout => true
  | .refLoss .. => true
  | .mpllLockDeclared => true
  | .mpllLol .. => true
  | .lpllHoldover => true
  | .lpllRelocked => true
  | .retune .. => true
  | .retuneSettleDone .. => true
  | .planCommit => true
  | .planStopCommit => true
  | .paramCommit => true
  | .retrain .. => true
  | .linkRetrain .. => true
  | .cxlReset .. => true
  | .stkCsEccError .. => true
  | .stkWatchdog => true
  | .porstAssert .. => true
  | .porstRelease .. => true
  | .bootStepEnd .. => true
  | .injectEvent .. => true
  | .injectContext .. => true
  | .injectMemCe .. => true
  | .injectMemUe .. => true
  | .injectRestart .. => true
  | .injectLock .. => true
  | .thmSensorUpdate .. => true
  | .smbWrite .. => true
  | .railRecovered .. => true
  | _ => false

/-- The commands outside `mayGlb` leave the registers that say what state the device is in alone. -/
theorem exec_glb (c : Instr) {s t : State} (h : exec c s = .next t) (hk : mayGlb c = false) : ∀ a < 0x1000, t.rd a = s.rd a := by
  cases c with
  | registerWrite p bar a v env => cases hk
  | lowHalfRead p bar n => exact ((touches_execLowHalfRead p bar n s).touches h).glb (by decide)
  | highHalfRead p bar n => exact ((touches_execHighHalfRead p bar n s).touches h).glb (by decide)
  | lowHalfWrite p bar n v env => cases hk
  | highHalfWrite p bar n v env => cases hk
  | reservedAddressAccess p bar a sz write => exact ((touches_execReservedAddressAccess p bar a sz write s).touches h).glb (by decide)
  | devidWrite v => cases hk
  | devidLock v => cases hk
  | dpRestart v => cases hk
  | restartFaultRecords => exact ((touches_execRestartFaultRecords s).touches h).glb (by decide)
  | restartUnitReset => exact ((touches_execRestartUnitReset s).touches h).glb (by decide)
  | restartTrainingEnd ok => cases hk
  | restartActivate => cases hk
  | restartTimeout => cases hk
  | refLoss integ => cases hk
  | refRestored => exact ((touches_execRefRestored s).touches h).glb (by decide)
  | mpllLockDeclared => cases hk
  | mpllLol integ => cases hk
  | mpllFreqGate err => exact ((touches_execMpllFreqGate err s).touches h).glb (by decide)
  | holdoverUpdate meas => exact ((touches_execHoldoverUpdate meas s).touches h).glb (by decide)
  | lpllHoldover => cases hk
  | lpllRelocked => cases hk
  | retune v => cases hk
  | retuneSettleDone fs => cases hk
  | retuneTimeout => exact ((touches_execRetuneTimeout s).touches h).glb (by decide)
  | heldRetry => exact ((touches_execHeldRetry s).touches h).glb (by decide)
  | syncArm v => exact ((touches_execSyncArm v s).touches h).glb (by decide)
  | syncinEdge same => exact ((touches_execSyncinEdge same s).touches h).glb (by decide)
  | attGo n v => exact ((touches_execAttGo n v s).touches h).glb (by decide)
  | attApply n => exact ((touches_execAttApply n s).touches h).glb (by decide)
  | chcorrWrite n v => exact ((touches_execChcorrWrite n v s).touches h).glb (by decide)
  | sliceWrite n k v => exact ((touches_execSliceWrite n k v s).touches h).glb (by decide)
  | bgEnWrite n v => exact ((touches_execBgEnWrite n v s).touches h).glb (by decide)
  | bgSettleEnd n => exact ((touches_execBgSettleEnd n s).touches h).glb (by decide)
  | bgShadowEnd n w => exact ((touches_execBgShadowEnd n w s).touches h).glb (by decide)
  | bgWindowEnd n w => exact ((touches_execBgWindowEnd n w s).touches h).glb (by decide)
  | bgIntervalEnd n => exact ((touches_execBgIntervalEnd n s).touches h).glb (by decide)
  | monitorTrip m v => exact ((touches_execMonitorTrip m v s).touches h).glb (by decide)
  | monSample m v => exact ((touches_execMonSample m v s).touches h).glb (by decide)
  | monPeriodClear m => exact ((touches_execMonPeriodClear m s).touches h).glb (by decide)
  | monLatchClear m v => exact ((touches_execMonLatchClear m v s).touches h).glb (by decide)
  | monCfgWrite m v => exact ((touches_execMonCfgWrite m v s).touches h).glb (by decide)
  | pgSwTrip g v => exact ((touches_execPgSwTrip g v s).touches h).glb (by decide)
  | pgTripClear g v => exact ((touches_execPgTripClear g v s).touches h).glb (by decide)
  | pgSafeWrite g v => exact ((touches_execPgSafeWrite g v s).touches h).glb (by decide)
  | pgArm g v => exact ((touches_execPgArm g v s).touches h).glb (by decide)
  | pgScheduleCommit g => exact ((touches_execPgScheduleCommit g s).touches h).glb (by decide)
  | pgEdge g => exact ((touches_execPgEdge g s).touches h).glb (by decide)
  | tbsAdjWrite v => exact ((touches_execTbsAdjWrite v s).touches h).glb (by decide)
  | tbsSlewWrite v => exact ((touches_execTbsSlewWrite v s).touches h).glb (by decide)
  | tbsStepWrite v => exact ((touches_execTbsStepWrite v s).touches h).glb (by decide)
  | servoSourceWrite v => exact ((touches_execServoSourceWrite v s).touches h).glb (by decide)
  | hostLockWrite v => exact ((touches_execHostLockWrite v s).touches h).glb (by decide)
  | ptpUpdate offPs step => exact ((touches_execPtpUpdate offPs step s).touches h).glb (by decide)
  | servoMissTimeout => exact ((touches_execServoMissTimeout s).touches h).glb (by decide)
  | hostTimeout => exact ((touches_execHostTimeout s).touches h).glb (by decide)
  | tdcEdge c t rising => exact ((touches_execTdcEdge c t rising s).touches h).glb (by decide)
  | stampsFlush c => exact ((touches_execStampsFlush c s).touches h).glb (by decide)
  | vernierRemeasure a b => exact ((touches_execVernierRemeasure a b s).touches h).glb (by decide)
  | freqEnWrite v => exact ((touches_execFreqEnWrite v s).touches h).glb (by decide)
  | freqGateOpen => exact ((touches_execFreqGateOpen s).touches h).glb (by decide)
  | freqGateEnd => exact ((touches_execFreqGateEnd s).touches h).glb (by decide)
  | tdcFreqSnap v => exact ((touches_execTdcFreqSnap v s).touches h).glb (by decide)
  | calGo v => exact ((touches_execCalGo v s).touches h).glb (by decide)
  | calAbort v => exact ((touches_execCalAbort v s).touches h).glb (by decide)
  | calStoreStart v => exact ((touches_execCalStoreStart v s).touches h).glb (by decide)
  | calPhaseEnd m => exact ((touches_execCalPhaseEnd m s).touches h).glb (by decide)
  | calAgeDue n => exact ((touches_execCalAgeDue n s).touches h).glb (by decide)
  | calAutoStart => exact ((touches_execCalAutoStart s).touches h).glb (by decide)
  | calRetryExpiry n => exact ((touches_execCalRetryExpiry n s).touches h).glb (by decide)
  | storeWriteEnd ok => exact ((touches_execStoreWriteEnd ok s).touches h).glb (by decide)
  | planLoad v => exact ((touches_execPlanLoad v s).touches h).glb (by decide)
  | planFetchDone img => exact ((touches_execPlanFetchDone img s).touches h).glb (by decide)
  | planActivate v => exact ((touches_execPlanActivate v s).touches h).glb (by decide)
  | planAbort v => exact ((touches_execPlanAbort v s).touches h).glb (by decide)
  | planDiscard v => exact ((touches_execPlanDiscard v s).touches h).glb (by decide)
  | planStop v => exact ((touches_execPlanStop v s).touches h).glb (by decide)
  | planCommit => cases hk
  | planStopCommit => cases hk
  | pcommitGo v => exact ((touches_execPcommitGo v s).touches h).glb (by decide)
  | paramCommit => cases hk
  | ddcSwapGo u v => exact ((touches_execDdcSwapGo u v s).touches h).glb (by decide)
  | ddcSwapCancel u v => exact ((touches_execDdcSwapCancel u v s).touches h).glb (by decide)
  | ddcSwapCommit u => exact ((touches_execDdcSwapCommit u s).touches h).glb (by decide)
  | ddcSwapDone u => exact ((touches_execDdcSwapDone u s).touches h).glb (by decide)
  | ddcCoefWrite u k b r v => exact ((touches_execDdcCoefWrite u k b r v s).touches h).glb (by decide)
  | ddcNcoRstArm u v => exact ((touches_execDdcNcoRstArm u v s).touches h).glb (by decide)
  | tabLoad n v => exact ((touches_execTabLoad n v s).touches h).glb (by decide)
  | tabLoadEnd n ws => exact ((touches_execTabLoadEnd n ws s).touches h).glb (by decide)
  | tabSwapGo n v => exact ((touches_execTabSwapGo n v s).touches h).glb (by decide)
  | tabSwapCancel n v => exact ((touches_execTabSwapCancel n v s).touches h).glb (by decide)
  | tabSwapCommit n => exact ((touches_execTabSwapCommit n s).touches h).glb (by decide)
  | xfmCtrlWrite n v => exact ((touches_execXfmCtrlWrite n v s).touches h).glb (by decide)
  | xfmFrame n => exact ((touches_execXfmFrame n s).touches h).glb (by decide)
  | detFrame n => exact ((touches_execDetFrame n s).touches h).glb (by decide)
  | detReadoutDone n => exact ((touches_execDetReadoutDone n s).touches h).glb (by decide)
  | detWrite n reg v => exact ((touches_execDetWrite n reg v s).touches h).glb (by decide)
  | denFrame n => exact ((touches_execDenFrame n s).touches h).glb (by decide)
  | denReadoutDone n => exact ((touches_execDenReadoutDone n s).touches h).glb (by decide)
  | denWrite n reg v => exact ((touches_execDenWrite n reg v s).touches h).glb (by decide)
  | tbusEvent l t => exact ((touches_execTbusEvent l t s).touches h).glb (by decide)
  | tbusPulseEnd l => exact ((touches_execTbusPulseEnd l s).touches h).glb (by decide)
  | ltCrossing ix => exact ((touches_execLtCrossing ix s).touches h).glb (by decide)
  | fmFrame u => exact ((touches_execFmFrame u s).touches h).glb (by decide)
  | trgTimerEvent n => exact ((touches_execTrgTimerEvent n s).touches h).glb (by decide)
  | trgSwFire v => exact ((touches_execTrgSwFire v s).touches h).glb (by decide)
  | tqEventArrival q => exact ((touches_execTqEventArrival q s).touches h).glb (by decide)
  | tqHorizon q => exact ((touches_execTqHorizon q s).touches h).glb (by decide)
  | tqAutoTimeout q => exact ((touches_execTqAutoTimeout q s).touches h).glb (by decide)
  | tqFreeRunDecision q => exact ((touches_execTqFreeRunDecision q s).touches h).glb (by decide)
  | tqArm q v => exact ((touches_execTqArm q v s).touches h).glb (by decide)
  | tqDisarm q v => exact ((touches_execTqDisarm q v s).touches h).glb (by decide)
  | trgTqSnap q v => exact ((touches_execTrgTqSnap q v s).touches h).glb (by decide)
  | acqArm n v => exact ((touches_execAcqArm n v s).touches h).glb (by decide)
  | acqStop n v => exact ((touches_execAcqStop n v s).touches h).glb (by decide)
  | acqDecision n => exact ((touches_execAcqDecision n s).touches h).glb (by decide)
  | acqPreFilled n => exact ((touches_execAcqPreFilled n s).touches h).glb (by decide)
  | acqRecordClose n => exact ((touches_execAcqRecordClose n s).touches h).glb (by decide)
  | acqHoldoffEnd n => exact ((touches_execAcqHoldoffEnd n s).touches h).glb (by decide)
  | acqLogFlush n => exact ((touches_execAcqLogFlush n s).touches h).glb (by decide)
  | acqExtentRefill n => exact ((touches_execAcqExtentRefill n s).touches h).glb (by decide)
  | acqSnap n v => exact ((touches_execAcqSnap n v s).touches h).glb (by decide)
  | rmuRecord => exact ((touches_execRmuRecord s).touches h).glb (by decide)
  | rmuLevelWrite l v => exact ((touches_execRmuLevelWrite l v s).touches h).glb (by decide)
  | tcRun c v => exact ((touches_execTcRun c v s).touches h).glb (by decide)
  | tcAbort c v => exact ((touches_execTcAbort c v s).touches h).glb (by decide)
  | tcPmWrite c a v => exact ((touches_execTcPmWrite c a v s).touches h).glb (by decide)
  | tcDmWrite c a v => exact ((touches_execTcDmWrite c a v s).touches h).glb (by decide)
  | tcSinWrite c v => exact ((touches_execTcSinWrite c v s).touches h).glb (by decide)
  | tcMbinWrite c k v => exact ((touches_execTcMbinWrite c k v s).touches h).glb (by decide)
  | tcMbinPost c v => exact ((touches_execTcMbinPost c v s).touches h).glb (by decide)
  | tcMboutAck c v => exact ((touches_execTcMboutAck c v s).touches h).glb (by decide)
  | tcRecordArrival k ix => exact ((touches_execTcRecordArrival k ix s).touches h).glb (by decide)
  | tcClusterReadout k => exact ((touches_execTcClusterReadout k s).touches h).glb (by decide)
  | tcTimerExpiry c => exact ((touches_execTcTimerExpiry c s).touches h).glb (by decide)
  | tcWatchdog c => exact ((touches_execTcWatchdog c s).touches h).glb (by decide)
  | tcInterrupt c => exact ((touches_execTcInterrupt c s).touches h).glb (by decide)
  | tNop c => exact ((touches_execTNop c s).touches h).glb (by decide)
  | tLdi c d imm => exact ((touches_execTLdi c d imm s).touches h).glb (by decide)
  | tLd c d p am => exact ((touches_execTLd c d p am s).touches h).glb (by decide)
  | tSt c d p am => exact ((touches_execTSt c d p am s).touches h).glb (by decide)
  | tMov c d a => exact ((touches_execTMov c d a s).touches h).glb (by decide)
  | tMovcFromCr c d r => exact ((touches_execTMovcFromCr c d r s).touches h).glb (by decide)
  | tMovcToCr c r d => exact ((touches_execTMovcToCr c r d s).touches h).glb (by decide)
  | tLdc c r imm => exact ((touches_execTLdc c r imm s).touches h).glb (by decide)
  | tAdd c d a b => exact ((touches_execTAdd c d a b s).touches h).glb (by decide)
  | tSub c d a b => exact ((touches_execTSub c d a b s).touches h).glb (by decide)
  | tAnd c d a b => exact ((touches_execTAnd c d a b s).touches h).glb (by decide)
  | tOr c d a b => exact ((touches_execTOr c d a b s).touches h).glb (by decide)
  | tXor c d a b => exact ((touches_execTXor c d a b s).touches h).glb (by decide)
  | tAddi c d imm => exact ((touches_execTAddi c d imm s).touches h).glb (by decide)
  | tAsh c d a b => exact ((touches_execTAsh c d a b s).touches h).glb (by decide)
  | tAshi c d a n => exact ((touches_execTAshi c d a n s).touches h).glb (by decide)
  | tCmp c a b => exact ((touches_execTCmp c a b s).touches h).glb (by decide)
  | tAbs c d a => exact ((touches_execTAbs c d a s).touches h).glb (by decide)
  | tMovm c px amx py amy => exact ((touches_execTMovm c px amx py amy s).touches h).glb (by decide)
  | tMpy c a dx dy => exact ((touches_execTMpy c a dx dy s).touches h).glb (by decide)
  | tMac c a dx dy => exact ((touches_execTMac c a dx dy s).touches h).glb (by decide)
  | tMsu c a dx dy => exact ((touches_execTMsu c a dx dy s).touches h).glb (by decide)
  | tMacm c a px amx py amy => exact ((touches_execTMacm c a px amx py amy s).touches h).glb (by decide)
  | tFtap c a px amx py amy => exact ((touches_execTFtap c a px amx py amy s).touches h).glb (by decide)
  | tAdda c a dx sh => exact ((touches_execTAdda c a dx sh s).touches h).glb (by decide)
  | tClra c a => exact ((touches_execTClra c a s).touches h).glb (by decide)
  | tAcp c a => exact ((touches_execTAcp c a s).touches h).glb (by decide)
  | tExt c d a n => exact ((touches_execTExt c d a n s).touches h).glb (by decide)
  | tSha c a n => exact ((touches_execTSha c a n s).touches h).glb (by decide)
  | tExpd c d a => exact ((touches_execTExpd c d a s).touches h).glb (by decide)
  | tExpa c d a => exact ((touches_execTExpa c d a s).touches h).glb (by decide)
  | tBexp c d p am => exact ((touches_execTBexp c d p am s).touches h).glb (by decide)
  | tBscl c p am d => exact ((touches_execTBscl c p am d s).touches h).glb (by decide)
  | tB c cond t => exact ((touches_execTB c cond t s).touches h).glb (by decide)
  | tCall c t => exact ((touches_execTCall c t s).touches h).glb (by decide)
  | tRet c => exact ((touches_execTRet c s).touches h).glb (by decide)
  | tReti c => exact ((touches_execTReti c s).touches h).glb (by decide)
  | tRpt c n1 => exact ((touches_execTRpt c n1 s).touches h).glb (by decide)
  | tRptd c a => exact ((touches_execTRptd c a s).touches h).glb (by decide)
  | tLoop c n t => exact ((touches_execTLoop c n t s).touches h).glb (by decide)
  | tLoopd c a t => exact ((touches_execTLoopd c a t s).touches h).glb (by decide)
  | tHalt c => exact ((touches_execTHalt c s).touches h).glb (by decide)
  | tIdle c => exact ((touches_execTIdle c s).touches h).glb (by decide)
  | tGetr c p => exact ((touches_execTGetr c p s).touches h).glb (by decide)
  | tRelr c => exact ((touches_execTRelr c s).touches h).glb (by decide)
  | tSend c p r => exact ((touches_execTSend c p r s).touches h).glb (by decide)
  | tSwait c => exact ((touches_execTSwait c s).touches h).glb (by decide)
  | tMbr c d w => exact ((touches_execTMbr c d w s).touches h).glb (by decide)
  | tMbw c w d => exact ((touches_execTMbw c w d s).touches h).glb (by decide)
  | tMback c => exact ((touches_execTMback c s).touches h).glb (by decide)
  | tMbpost c => exact ((touches_execTMbpost c s).touches h).glb (by decide)
  | recordArrival p => exact ((touches_execRecordArrival p s).touches h).glb (by decide)
  | policingCreditResume x => exact ((touches_execPolicingCreditResume x s).touches h).glb (by decide)
  | overflowStallResume x => exact ((touches_execOverflowStallResume x s).touches h).glb (by decide)
  | faultRecordDeferred x => exact ((touches_execFaultRecordDeferred x s).touches h).glb (by decide)
  | replaySend p => exact ((touches_execReplaySend p s).touches h).glb (by decide)
  | stoTake => exact ((touches_execStoTake s).touches h).glb (by decide)
  | stoFree => exact ((touches_execStoFree s).touches h).glb (by decide)
  | stoFlush => exact ((touches_execStoFlush s).touches h).glb (by decide)
  | stoDiscard => exact ((touches_execStoDiscard s).touches h).glb (by decide)
  | stoQuery => exact ((touches_execStoQuery s).touches h).glb (by decide)
  | stoCsnap v => exact ((touches_execStoCsnap v s).touches h).glb (by decide)
  | biasSwitchDone b => exact ((touches_execBiasSwitchDone b s).touches h).glb (by decide)
  | zcFlushTimer x => exact ((touches_execZcFlushTimer x s).touches h).glb (by decide)
  | zcRelease x v => exact ((touches_execZcRelease x v s).touches h).glb (by decide)
  | ctxFlush x v => exact ((touches_execCtxFlush x v s).touches h).glb (by decide)
  | admOpen => exact ((touches_execAdmOpen s).touches h).glb (by decide)
  | admClose => exact ((touches_execAdmClose s).touches h).glb (by decide)
  | admTest => exact ((touches_execAdmTest s).touches h).glb (by decide)
  | admSnap v => exact ((touches_execAdmSnap v s).touches h).glb (by decide)
  | deadlineMiss x d => exact ((touches_execDeadlineMiss x d s).touches h).glb (by decide)
  | memMapWrite v => exact ((touches_execMemMapWrite v s).touches h).glb (by decide)
  | mapInitDone => exact ((touches_execMapInitDone s).touches h).glb (by decide)
  | memSchedWrite v => exact ((touches_execMemSchedWrite v s).touches h).glb (by decide)
  | memGranule ch waiting err => exact ((touches_execMemGranule ch waiting err s).touches h).glb (by decide)
  | mr4Poll d code => exact ((touches_execMr4Poll d code s).touches h).glb (by decide)
  | refreshDue ch wait => exact ((touches_execRefreshDue ch wait s).touches h).glb (by decide)
  | retrain ch ok => cases hk
  | scrubRead err => exact ((touches_execScrubRead err s).touches h).glb (by decide)
  | memUeSnap v => exact ((touches_execMemUeSnap v s).touches h).glb (by decide)
  | cmpFlush u v => exact ((touches_execCmpFlush u v s).touches h).glb (by decide)
  | cmpStreamBlock u => exact ((touches_execCmpStreamBlock u s).touches h).glb (by decide)
  | cmpDecodeRecord u => exact ((touches_execCmpDecodeRecord u s).touches h).glb (by decide)
  | cmpJobGo u v pre => exact ((touches_execCmpJobGo u v pre s).touches h).glb (by decide)
  | cmpJobBlock u data => exact ((touches_execCmpJobBlock u data s).touches h).glb (by decide)
  | cmpJobResume u v => exact ((touches_execCmpJobResume u v s).touches h).glb (by decide)
  | cmpJobAbort u v => exact ((touches_execCmpJobAbort u v s).touches h).glb (by decide)
  | cmpJobDone u => exact ((touches_execCmpJobDone u s).touches h).glb (by decide)
  | cxlMemRead n => exact ((touches_execCxlMemRead n s).touches h).glb (by decide)
  | cxlMemWrite => exact ((touches_execCxlMemWrite s).touches h).glb (by decide)
  | hdmCommit one base size skip ways lock => exact ((touches_execHdmCommit one base size skip ways lock s).touches h).glb (by decide)
  | hostSnoop => exact ((touches_execHostSnoop s).touches h).glb (by decide)
  | linkRetrain width rate cxl => cases hk
  | linkDown => exact ((touches_execLinkDown s).touches h).glb (by decide)
  | cxlReset memClr => cases hk
  | flr => exact ((touches_execFlr s).touches h).glb (by decide)
  | busMasterDisable => exact ((touches_execBusMasterDisable s).touches h).glb (by decide)
  | completionTimeout r => exact ((touches_execCompletionTimeout r s).touches h).glb (by decide)
  | poisonedCompletion r => exact ((touches_execPoisonedCompletion r s).touches h).glb (by decide)
  | msixUnmask u => exact ((touches_execMsixUnmask u s).touches h).glb (by decide)
  | msixModerationEnd v => exact ((touches_execMsixModerationEnd v s).touches h).glb (by decide)
  | doeDiscovery req busy => exact ((touches_execDoeDiscovery req busy s).touches h).glb (by decide)
  | cdatTableAccess req busy => exact ((touches_execCdatTableAccess req busy s).touches h).glb (by decide)
  | getVersion req busy => exact ((touches_execGetVersion req busy s).touches h).glb (by decide)
  | getCapabilities req busy => exact ((touches_execGetCapabilities req busy s).touches h).glb (by decide)
  | negotiateAlgorithms req busy => exact ((touches_execNegotiateAlgorithms req busy s).touches h).glb (by decide)
  | getDigests req busy => exact ((touches_execGetDigests req busy s).touches h).glb (by decide)
  | getCertificate req busy off len => exact ((touches_execGetCertificate req busy off len s).touches h).glb (by decide)
  | challenge req busy => exact ((touches_execChallenge req busy s).touches h).glb (by decide)
  | getMeasurements req busy index signed => exact ((touches_execGetMeasurements req busy index signed s).touches h).glb (by decide)
  | spdmUnsupportedRequest req busy => exact ((touches_execSpdmUnsupportedRequest req busy s).touches h).glb (by decide)
  | dmaStart c v => exact ((touches_execDmaStart c v s).touches h).glb (by decide)
  | dmaAbort c v => exact ((touches_execDmaAbort c v s).touches h).glb (by decide)
  | dmaGiveBind c v => exact ((touches_execDmaGiveBind c v s).touches h).glb (by decide)
  | dmaDescFetch c desc list => exact ((touches_execDmaDescFetch c desc list s).touches h).glb (by decide)
  | dmaNop c => exact ((touches_execDmaNop c s).touches h).glb (by decide)
  | ctxTake c => exact ((touches_execCtxTake c s).touches h).glb (by decide)
  | ctxGive c data => exact ((touches_execCtxGive c data s).touches h).glb (by decide)
  | storeRead c => exact ((touches_execStoreRead c s).touches h).glb (by decide)
  | refTake c => exact ((touches_execRefTake c s).touches h).glb (by decide)
  | refGive c => exact ((touches_execRefGive c s).touches h).glb (by decide)
  | dmaRecordAvailable c => exact ((touches_execDmaRecordAvailable c s).touches h).glb (by decide)
  | dmaIdleTimeout c => exact ((touches_execDmaIdleTimeout c s).touches h).glb (by decide)
  | dmaDataCompletion c => exact ((touches_execDmaDataCompletion c s).touches h).glb (by decide)
  | netPortCfgWrite p v => exact ((touches_execNetPortCfgWrite p v s).touches h).glb (by decide)
  | netLinkUp ix => exact ((touches_execNetLinkUp ix s).touches h).glb (by decide)
  | netLinkLoss ix => exact ((touches_execNetLinkLoss ix s).touches h).glb (by decide)
  | netFrameRx ix f => exact ((touches_execNetFrameRx ix f s).touches h).glb (by decide)
  | pauseFrameRx ix q pfc => exact ((touches_execPauseFrameRx ix q pfc s).touches h).glb (by decide)
  | pauseExpiry ix => exact ((touches_execPauseExpiry ix s).touches h).glb (by decide)
  | exqRxRelease ix v => exact ((touches_execExqRxRelease ix v s).touches h).glb (by decide)
  | exqTxTail ix v => exact ((touches_execExqTxTail ix v s).touches h).glb (by decide)
  | exqTxSend ix desc data fine => exact ((touches_execExqTxSend ix desc data fine s).touches h).glb (by decide)
  | aveCmdOpen a v => exact ((touches_execAveCmdOpen a v s).touches h).glb (by decide)
  | aveCmdClose a v => exact ((touches_execAveCmdClose a v s).touches h).glb (by decide)
  | aveCmdReset a v => exact ((touches_execAveCmdReset a v s).touches h).glb (by decide)
  | aveCmdSkip a v => exact ((touches_execAveCmdSkip a v s).touches h).glb (by decide)
  | pktOpen ix p => exact ((touches_execOpen ix p s).touches h).glb (by decide)
  | pktOpenAck ix p => exact ((touches_execOpenAck ix p s).touches h).glb (by decide)
  | pktData ix p => exact ((touches_execData ix p s).touches h).glb (by decide)
  | pktAck ix p => exact ((touches_execAck ix p s).touches h).glb (by decide)
  | pktNak ix p => exact ((touches_execNak ix p s).touches h).glb (by decide)
  | pktClose ix p => exact ((touches_execClose ix p s).touches h).glb (by decide)
  | pktCloseAck ix p => exact ((touches_execCloseAck ix p s).touches h).glb (by decide)
  | pktTrigger ix p => exact ((touches_execTrigger ix p s).touches h).glb (by decide)
  | pktTrigAck ix p => exact ((touches_execTrigAck ix p s).touches h).glb (by decide)
  | aveDataSend ix => exact ((touches_execAveDataSend ix s).touches h).glb (by decide)
  | aveRtoExpiry a => exact ((touches_execAveRtoExpiry a s).touches h).glb (by decide)
  | aveAckTimer a => exact ((touches_execAveAckTimer a s).touches h).glb (by decide)
  | aveIdleAck a => exact ((touches_execAveIdleAck a s).touches h).glb (by decide)
  | aveDeadExpiry a => exact ((touches_execAveDeadExpiry a s).touches h).glb (by decide)
  | aveQuarantineEnd a => exact ((touches_execAveQuarantineEnd a s).touches h).glb (by decide)
  | aveSnap a v => exact ((touches_execAveSnap a v s).touches h).glb (by decide)
  | trigSendGo v => exact ((touches_execTrigSendGo v s).touches h).glb (by decide)
  | trigResend a => exact ((touches_execTrigResend a s).touches h).glb (by decide)
  | trigMessageRelease k => exact ((touches_execTrigMessageRelease k s).touches h).glb (by decide)
  | disHpd n sink ok => exact ((touches_execDisHpd n sink ok s).touches h).glb (by decide)
  | disCommit n v => exact ((touches_execDisCommit n v s).touches h).glb (by decide)
  | disFrameStart n => exact ((touches_execDisFrameStart n s).touches h).glb (by decide)
  | disClockStable n ok => exact ((touches_execDisClockStable n ok s).touches h).glb (by decide)
  | disLayerRecord n l => exact ((touches_execDisLayerRecord n l s).touches h).glb (by decide)
  | disAuxGo n v reply => exact ((touches_execDisAuxGo n v reply s).touches h).glb (by decide)
  | disPalWrite n b ix v => exact ((touches_execDisPalWrite n b ix v s).touches h).glb (by decide)
  | stkCmdQueue v => exact ((touches_execStkCmdQueue v s).touches h).glb (by decide)
  | stkNop => exact ((touches_execStkNop s).touches h).glb (by decide)
  | flashRead => exact ((touches_execFlashRead s).touches h).glb (by decide)
  | flashUpdate img ok => exact ((touches_execFlashUpdate img ok s).touches h).glb (by decide)
  | calStore => exact ((touches_execCalStore s).touches h).glb (by decide)
  | keyProvision data ok => exact ((touches_execKeyProvision data ok s).touches h).glb (by decide)
  | keyLock ok => exact ((touches_execKeyLock ok s).touches h).glb (by decide)
  | svnCommit ok => exact ((touches_execSvnCommit ok s).touches h).glb (by decide)
  | secureEnable ok => exact ((touches_execSecureEnable ok s).touches h).glb (by decide)
  | stkCancel v => exact ((touches_execStkCancel v s).touches h).glb (by decide)
  | stkCsEccError bad patch => cases hk
  | stkWatchdog => cases hk
  | porstAssert p => cases hk
  | porstRelease p bootsel smbAddr => cases hk
  | bootStepEnd e => cases hk
  | evtRelease v => exact ((touches_execEvtRelease v s).touches h).glb (by decide)
  | ringEnWrite v => exact ((touches_execRingEnWrite v s).touches h).glb (by decide)
  | evtSwtest v => exact ((touches_execEvtSwtest v s).touches h).glb (by decide)
  | injectEvent v => cases hk
  | injectContext v => cases hk
  | injectMemCe v => cases hk
  | injectMemUe v => cases hk
  | injectRestart v => cases hk
  | injectLock v => cases hk
  | railLow r mv => exact ((touches_execRailLow r mv s).touches h).glb (by decide)
  | thmSensorUpdate temps rails => cases hk
  | cnvStbyWrite v => exact ((touches_execCnvStbyWrite v s).touches h).glb (by decide)
  | srEnWrite v => exact ((touches_execSrEnWrite v s).touches h).glb (by decide)
  | selfRefreshEntry => exact ((touches_execSelfRefreshEntry s).touches h).glb (by decide)
  | smbSetOffset bytes wrongPec => exact ((touches_execSmbSetOffset bytes wrongPec s).touches h).glb (by decide)
  | smbRead => exact ((touches_execSmbRead s).touches h).glb (by decide)
  | smbWrite bytes wrongPec env => cases hk
  | smbStatus => exact ((touches_execSmbStatus s).touches h).glb (by decide)
  | mgtSmbLock v => exact ((touches_execMgtSmbLock v s).touches h).glb (by decide)
  | idcode => exact ((touches_execIdcode s).touches h).glb (by decide)
  | samplePreload capture bits => exact ((touches_execSamplePreload capture bits s).touches h).glb (by decide)
  | extest => exact ((touches_execExtest s).touches h).glb (by decide)
  | clamp => exact ((touches_execClamp s).touches h).glb (by decide)
  | highz => exact ((touches_execHighz s).touches h).glb (by decide)
  | extestPulse => exact ((touches_execExtestPulse s).touches h).glb (by decide)
  | extestTrain => exact ((touches_execExtestTrain s).touches h).glb (by decide)
  | bypass => exact ((touches_execBypass s).touches h).glb (by decide)
  | streetBeat c0 c1 c2 c3 => exact ((touches_execStreetBeat c0 c1 c2 c3 s).touches h).glb (by decide)
  | scanoutLine n y den ovl => exact ((touches_execScanoutLine n y den ovl s).touches h).glb (by decide)
  | railHigh r mv => exact ((touches_execRailHigh r mv s).touches h).glb (by decide)
  | railRecovered r within => cases hk
  | tbusLineHigh l => exact ((touches_execTbusLineHigh l s).touches h).glb (by decide)
  | tapReset => exact ((touches_execTapReset s).touches h).glb (by decide)

end Sys2Proof.Machine
end

