-- ==== Sys2Proof/Laws/Host.lean ====
section
/-! SUPPORT. Laws of register accesses by the host. -/

set_option Elab.async false

namespace Sys2Proof.Machine

/-- A 64-bit host write to a register whose window responds has the effect its chapter gives, on the state without a staged low half. -/
theorem State.hostWr_open {s : State} {a : Nat} (h : s.windowOpen a = true) (id : RegId) (i : Nat) (f : Word → State → State) (v : Word) :
    s.hostWr id i a f v = f (inRange id i (s.rd a) v) (s.dropStaged .host a) := by
  simp [State.hostWr, State.write64, h]

/-- A host write in READY. -/
theorem State.hostWr_ready {s : State} (h : s.ready = true) (id : RegId) (i a : Nat) (f : Word → State → State) (v : Word) :
    s.hostWr id i a f v = f (inRange id i (s.rd a) v) (s.dropStaged .host a) :=
  State.hostWr_open (State.windowOpen_ready h a) id i f v

/-! ### Writes by access codes (R5, Table 0-1) -/

theorem codeWrite_bit (r : RegRow) (old v : Word) (i : Nat) (h : i < 64) :
    (codeWrite r old v).getLsbD i =
      ((old.getLsbD i && !(r.rw ||| r.rwc ||| r.rwl).testBit i || v.getLsbD i && (r.rw ||| r.rwc ||| r.rwl).testBit i
        || v.getLsbD i && r.w1s.testBit i) && !(v.getLsbD i && r.w1c.testBit i)) := by
  have e : ∀ n : Nat, (BitVec.ofNat 64 n).getLsbD i = n.testBit i := fun n => by rw [BitVec.getLsbD_ofNat]; simp [h]
  simp only [codeWrite, BitVec.getLsbD_and, BitVec.getLsbD_or, BitVec.getLsbD_not, e, h, decide_true, Bool.true_and]

theorem fget_congr {w x : Word} {f : Fld} (h : ∀ i, i < f.w → w.getLsbD (f.lo + i) = x.getLsbD (f.lo + i)) : fget w f = fget x f := by
  have e : ∀ y : Word, fget y f = (y.toNat >>> f.lo) % 2 ^ f.w := fun y => by rw [fget, Nat.shiftRight_eq_div_pow]
  rw [e, e]
  apply Nat.eq_of_testBit_eq
  intro i
  simp only [Nat.testBit_mod_two_pow, Nat.testBit_shiftRight]
  by_cases hi : i < f.w
  · simpa [hi, BitVec.getLsbD] using h i hi
  · simp [hi]

end Sys2Proof.Machine

namespace Sys2Proof

/-- Does `f` lie in the bits `m`? -/
def Fld.inside (f : Fld) (m : Nat) : Bool := (List.range f.w).all fun i => m.testBit (f.lo + i)

/-- Does `f` lie outside the bits `m`? -/
def Fld.outside (f : Fld) (m : Nat) : Bool := (List.range f.w).all fun i => !m.testBit (f.lo + i)

end Sys2Proof

namespace Sys2Proof.Machine

/-- A field that software writes reads as written. -/
theorem fget_codeWrite_rw (r : RegRow) (old v : Word) (f : Fld) (h : f.lo + f.w ≤ 64)
    (a : f.inside (r.rw ||| r.rwc ||| r.rwl) = true) (b : f.outside r.w1c = true) : fget (codeWrite r old v) f = fget v f := by
  apply fget_congr
  intro i hi
  have a' := (List.all_eq_true.mp a) i (List.mem_range.mpr hi)
  have b' := (List.all_eq_true.mp b) i (List.mem_range.mpr hi)
  rw [codeWrite_bit r old v _ (by omega)]
  simp only [Bool.not_eq_true'] at b'
  rw [a', b']
  cases old.getLsbD (f.lo + i) <;> cases v.getLsbD (f.lo + i) <;> cases r.w1s.testBit (f.lo + i) <;> rfl

/-- A field that no write changes reads as before. -/
theorem fget_codeWrite_ro (r : RegRow) (old v : Word) (f : Fld) (h : f.lo + f.w ≤ 64)
    (a : f.outside (r.rw ||| r.rwc ||| r.rwl) = true) (b : f.outside r.w1c = true) (c : f.outside r.w1s = true) :
    fget (codeWrite r old v) f = fget old f := by
  apply fget_congr
  intro i hi
  have a' := (List.all_eq_true.mp a) i (List.mem_range.mpr hi)
  have b' := (List.all_eq_true.mp b) i (List.mem_range.mpr hi)
  have c' := (List.all_eq_true.mp c) i (List.mem_range.mpr hi)
  rw [codeWrite_bit r old v _ (by omega)]
  simp only [Bool.not_eq_true'] at a' b' c'
  simp [a', b', c']

/-- A one-bit field as a bit. -/
theorem fget_one (w : Word) (f : Fld) (h : f.w = 1) : fget w f = (w.getLsbD f.lo).toNat := by
  rw [fget, h, BitVec.getLsbD, Nat.testBit_eq_decide_div_mod_eq]
  have := Nat.mod_two_eq_zero_or_one (w.toNat / 2 ^ f.lo)
  rcases this with e | e <;> simp [e]

/-- A bit that is set by writing 1. -/
theorem fget_codeWrite_w1s (r : RegRow) (old v : Word) (f : Fld) (hw : f.w = 1) (h : f.lo < 64) (a : r.w1s.testBit f.lo = true)
    (b : r.w1c.testBit f.lo = false) (c : (r.rw ||| r.rwc ||| r.rwl).testBit f.lo = false) (hv : fget v f = 1) :
    fget (codeWrite r old v) f = 1 := by
  have hv' : v.getLsbD f.lo = true := by
    rw [fget_one v f hw] at hv
    cases e : v.getLsbD f.lo <;> simp [e] at hv ⊢
  rw [fget_one _ f hw, codeWrite_bit r old v _ h, a, b, c, hv']
  simp

/-- A bit that is cleared by writing 1. -/
theorem fget_codeWrite_w1c (r : RegRow) (old v : Word) (f : Fld) (hw : f.w = 1) (h : f.lo < 64) (b : r.w1c.testBit f.lo = true)
    (hv : fget v f = 1) : fget (codeWrite r old v) f = 0 := by
  have hv' : v.getLsbD f.lo = true := by
    rw [fget_one v f hw] at hv
    cases e : v.getLsbD f.lo <;> simp [e] at hv ⊢
  rw [fget_one _ f hw, codeWrite_bit r old v _ h, b, hv']
  simp

/-- A register after a write by its codes that takes no strobe back. -/
theorem State.rd_wrCodes (s : State) {a : Nat} {r : RegRow} {ix : List Nat} (h : findReg a = some (r, ix)) (v : Word) (b : Nat) :
    (s.wrCodes a v []).rd b = if b = a then codeWrite r (s.rd a) v else s.rd b := by
  unfold State.wrCodes
  rw [h]
  exact State.rd_wr s a b _

theorem State.regs_wrCodes_kept (s : State) (a : Nat) (v : Word) (l : List Fld) {b : Nat} (h : b ≠ a) :
    (s.wrCodes a v l).rd b = s.rd b := by
  unfold State.wrCodes
  split
  · rfl
  · exact State.rd_wr_ne s _ h

end Sys2Proof.Machine

namespace Sys2Proof

open Sys2Proof.Machine

theorem regsKept.wrCodes {l srcs : List Nat} {s t : State} {a : Nat} (v : Word) (e : List Fld) (m : a ∈ l) (h : regsKept l srcs s t) :
    regsKept l srcs s (t.wrCodes a v e) :=
  fun b hb hs => (State.regs_wrCodes_kept t a v e fun (x : b = a) => hb (x.symm ▸ m)).trans (h b hb hs)

end Sys2Proof
end

