-- ==== Sys2Proof/Tests/Slice0.lean ====
section
/-! SUPPORT. The model's own tests: ill-formed commands, the spec's worked examples, and for every obligation with hypotheses a state and
operands that meet them. -/

set_option Elab.async false

open Sys2Proof Sys2Proof.Machine
namespace Sys2Proof.Tests

/-- A device in READY after reset, with nothing set up. -/
def rdy : State := ({ State.reset with pkg := { State.reset.pkg with porst := false } } : State).setFld rGLB_STATUS fGLB_STATUS_STATE 3
def pkt0 : AvePkt := ⟨0, false, 0, 0, 0, 0, 0, 0, []⟩
def env0 : Env := ⟨.timeout, none⟩
def rec0 : CordRec := ⟨0, 0, 1, 0, 64, 0, 0, [], [], []⟩
def frame0 : NetFrame := ⟨List.replicate 60 0, false, 0, 0, 0⟩
def rrec0 : RRec := ⟨0, [], 1, 0, 0, 0, 0, 0, []⟩
def route0 : Route := ⟨0, 0, false, [], 0, none, 0, 0⟩
def plan0 : PlanImg := ⟨0, 0, 0, 0, 0, 0, [], [], [], []⟩
def codec0 : Codec := ⟨0, true, 0, 0, false, 0, false, []⟩
def job0 : CmpJob := ⟨codec0, false, 0, 64, 0, 64, [], 0⟩
def frm0 : Machine.Frm := ⟨0, 0, 0, 0, false, 0, [], 0, 4, 0, 0, none⟩
def aurec0 : AuRec := ⟨0, 0, 0, 1, 0, 1, 0, 0, 0, 0, [], false, []⟩
def row0 : RegRow := ⟨.GLB_ID, 0, [], 0, 0, 0, 0, 0, 0, 0, 0⟩
def smp0 : Smp := ⟨0, 0, 0, true, 0, 0⟩
def ev0 : TrgEv := ⟨0, 0, 0, false, false, 0⟩
def dec0 : Dec := ⟨0, false, []⟩
/-- The device while its dividers are held. -/
def heldRdy : State := rdy.updClk fun z => { z with stage := .toOld }
/-- The device with its upstream link up and Bus Master Enable set. -/
def busRdy : State := (rdy.updHif fun z => { z with bme := true }).setFld rGLB_HIF_LINK fGLB_HIF_LINK_WIDTH 3
/-- A device in READY whose active plan has the given routes. -/
def routed (rs : List Route) : State := rdy.setSlot 0 3 (some { plan0 with routes := rs })
/-- The smallest plan image: an unsigned one with an empty mode and an empty route section. -/
def image0 : List Byte :=
  [72, 75, 80, 76, 1, 0, 0, 0, 116, 0, 0, 0, 32, 64] ++ List.replicate 14 0 ++ [2] ++ List.replicate 35 0 ++
  [1, 0, 0, 0, 96, 0, 0, 0, 16] ++ List.replicate 7 0 ++ [3, 0, 0, 0, 112] ++ List.replicate 27 0 ++ [236, 237, 152, 136]
/-- A device in READY with core 31 running. -/
def turf31 (f : Core → Core) : State := rdy.updTcore 31 fun z => f { z with st := .running }
/-- An open context: words 0, 1 and 4 of its entry. -/
def octx (w0 w1 w4 : Word) : Ctx :=
  { ctx0 with st := .opened, entry := [w0, w1, 0, 0, w4, 0, 0, 0], dests := List.replicate 4 dest0 }
/-- The 64 bytes of a descriptor with the given words 0, 2, 3 and 4, and channel state with that descriptor read at address `a`. -/
def descBytes (w0 w2 w3 w4 : Nat) : List Byte :=
  leBytes 8 w0 ++ leBytes 8 0 ++ leBytes 8 w2 ++ leBytes 8 w3 ++ leBytes 8 w4 ++ List.replicate 24 0
def dmaOf (a : Nat) (bs : List Byte) : Dma :=
  { dma0 with phase := .ready, addr := a, words := descWords (bs.take 64),
              segs := [(fget ((descWords (bs.take 64)).getD 2 0) ⟨0, 64⟩, fget ((descWords (bs.take 64)).getD 3 0) ⟨0, 32⟩)] }
/-- A packet of TYPE `ty` from avenue 0 to avenue 0, and a device whose avenue 0 is in state `st` on sub-port 15, which is up. -/
def avePkt (ty : Nat) (body : List Byte) : AvePkt :=
  ⟨0, false, 0, 0, BitVec.ofNat 64 (0x141 + ty * 2 ^ 12), 0, BitVec.ofNat 64 body.length, 0, body⟩
def aveRdy (st : Nat) : State :=
  (((rdy.setFld (rNET_SUB_STATUS 15) fNET_SUB_STATUS_LINK 1).setFld (rAVE_CFG 0) fAVE_CFG_SUB 15).setFld (rAVE_CFG 0) fAVE_CFG_PARTNER_PORT 0).setFld
    (rAVE_STATUS 0) fAVE_STATUS_STATE st

/-! ### Ill-formed commands, one for each check -/

theorem test_refuses_misaligned : Instr.bad (.registerWrite .host .bar0 1 0 env0) = some .misaligned := by decide +kernel
theorem test_refuses_outsideBar : Instr.bad (.registerWrite .host .bar2 0x10000 0 env0) = some .outsideBar := by decide +kernel
theorem test_refuses_wrongPath : Instr.bad (.lowHalfRead .stoker .bar4 0) = some .wrongPath := by decide +kernel
theorem test_refuses_smbusWidth : Instr.bad (.registerWrite .smbus .bar0 8 0 env0) = some .smbusWidth := by decide +kernel
theorem test_refuses_codes : Instr.bad (.streetBeat [] [] [] []) = some .codes := by decide +kernel
theorem test_refuses_codes_shadow : Instr.bad (.bgShadowEnd 0 ⟨[1], []⟩) = some .codes := by decide +kernel
theorem test_refuses_codes_window : Instr.bad (.bgWindowEnd 0 ⟨[0], []⟩) = some .codes := by decide +kernel
theorem test_refuses_measure : Instr.bad (.calPhaseEnd ⟨0, 0, 0, 0, []⟩) = some .measure := by decide +kernel
theorem test_refuses_sensors : Instr.bad (.thmSensorUpdate [] []) = some .sensors := by decide +kernel
theorem test_refuses_cells : Instr.bad (.samplePreload true []) = some .cells := by decide +kernel
theorem test_refuses_requester : Instr.bad (.completionTimeout (.dma 128)) = some .requester := by decide +kernel
theorem test_refuses_link : Instr.bad (.linkRetrain 4 0 false) = some .link := by decide +kernel
theorem test_refuses_sink : Instr.bad (.disHpd 0 (some (3, 0)) true) = some .sink := by decide +kernel
theorem test_refuses_frame : Instr.bad (.netFrameRx 0 ⟨[], false, 0, 0, 0⟩) = some .frame := by decide +kernel
theorem test_accepts_write : Instr.bad (.registerWrite .host .bar0 8 0 env0) = none := by decide +kernel

/-! ### Reset, the queue and the table's words -/

theorem test_reset_in_reset : State.reset.glb = 0 ∧ State.reset.time = 0 ∧ State.reset.pending = [] := by decide +kernel
theorem test_table_words_spell_none : decodeTableWord 64 5 = none := rfl

/-! ### The spec's worked examples -/

/-- The example of 00_scope.md: a high-half read gives the half that the low-half read captured. -/
theorem test_half_read_is_one_value :
    (((((rdy.wr rGLB_SCRATCH 0x1FFFFFFF0).halfRead .host .bar0 0x28 false).wr rGLB_SCRATCH 0x200000000).halfRead .host .bar0 0x28 true).readData)
      = 1 := by decide +kernel
/-- The example of 02_data_products.md: neither spectrum record has a tail fill. -/
theorem test_no_tail_fill : tailFill 262176 = [] ∧ tailFill 8224 = [] := by decide +kernel
/-- The example of 04_converters.md: slice 7 of CNV0 and a raw code of 1,000. -/
theorem test_slice_correction : correct 1000 160 0x819A (-16) 0x7D71 = (990, false, false) := by decide +kernel
/-- The example of 06_timebase_and_time_inputs.md, with four stamps: a period of 125 ticks at 1.25 GHz is 10 MHz. -/
theorem test_frequency_of_a_maser :
    freqResult [0, 64000, 128000, 192000] false 800000 true 0 = (4, true, false, false, 0x7D00000000, 0x9184E72A000, 0) := by decide +kernel
/-- The example of 14_turf_cores.md: `add` right after `ld` takes the old value of d3. -/
theorem test_load_is_late :
    (match exec (.tLd 0 3 0 1) (rdy.updTcore 0 fun z => { z with st := .running, d := SMap.set 0 [] 3 1, dm := SMap.set 0 [] 0 7 }) with
      | .next s => (match exec (.tAdd 0 4 3 3) s with
        | .next t => ((t.tcore 0).mature.dReg 3, (t.tcore 0).mature.dReg 4)
        | _ => (0, 0))
      | _ => (0, 0)) = (7, 2) := by decide +kernel
/-- The example of 17_memory_controller.md: where byte 5,000 of billet 700,001 lies under the reset map. -/
theorem test_place_of_a_byte : State.reset.place379 (700001 * 16384 + 5000) = ⟨19, 0, 25000, 10, 200000⟩ := by decide +kernel

/-! ### A plan image that loads -/

/-- A device that reads a plan image of 116 bytes. -/
def loading : State := (busRdy.setFld rPLAN_STATUS fPLAN_STATUS_STATE 1).setFld rPLAN_LEN fPLAN_LEN_LEN 116

/-- The CRC register runs on over a list in pieces. -/
theorem crcRun_append (c : BitVec 32) (a b : List Byte) : crcRun c (a ++ b) = crcRun (crcRun c a) b := by
  induction a generalizing c with
  | nil => rfl
  | cons x t ih => exact ih _

/-- The CRC of the smallest plan image. -/
theorem image0_crc : crc32c (image0.take 112) = 0x8898edec := by
  have e : image0.take 112 = image0.take 28 ++ ((image0.drop 28).take 28 ++ ((image0.drop 56).take 28 ++ (image0.drop 84).take 28)) := by
    decide +kernel
  rw [crc32c, e, crcRun_append, show crcRun 0xFFFFFFFF#32 (image0.take 28) = 0x89df1a04#32 from by decide +kernel,
    crcRun_append, show crcRun 0x89df1a04#32 ((image0.drop 28).take 28) = 0xd40e6da4#32 from by decide +kernel,
    crcRun_append, show crcRun 0xd40e6da4#32 ((image0.drop 56).take 28) = 0x4cd7383d#32 from by decide +kernel,
    show crcRun 0x4cd7383d#32 ((image0.drop 84).take 28) = 0x77671213#32 from by decide +kernel]
  decide

/-- Its header passes the checks of Table 8-5. -/
theorem image0_head : loading.planHead image0 image0.length = none := by
  have hp : crcPlace image0 (leAt image0 8 4) = 112 := by decide +kernel
  simp only [State.planHead, hp, image0_crc]
  decide +kernel

/-- It loads. -/
theorem image0_loads : ∃ (img : HostRead) (p : PlanImg) (s : State), s.glb ≠ 0 ∧ s.planState = 1 ∧ s.busOk = true ∧ img.fail = none ∧
    img.bytes.length = s.fld rPLAN_LEN fPLAN_LEN_LEN ∧ s.planHead img.bytes img.bytes.length = none ∧ s.planBody img.bytes = Except.ok p ∧
    s.planTest p = none :=
  ⟨⟨image0, none⟩, ⟨Config.sha384 image0, 0, 0, 0x8898edec, 0, 0, [], [], [], []⟩, loading, by decide +kernel, by decide +kernel, by decide +kernel,
    rfl, by decide +kernel, image0_head, rfl, by decide +kernel⟩

/-! ### The hypotheses of the obligations are met -/

theorem test_witness_StepRunsFront :
    ∃ (s : State), s.pending = [] :=
  ⟨rdy, by decide +kernel⟩

theorem test_witness_FlashFrame :
    ∃ t, exec Instr.bypass rdy = Host.Outcome.next t :=
  ⟨_, rfl⟩

theorem test_witness_StokerFrame :
    ∃ t, exec Instr.bypass rdy = Host.Outcome.next t :=
  ⟨_, rfl⟩

theorem test_witness_DisplayFrame :
    ∃ t, exec Instr.bypass rdy = Host.Outcome.next t :=
  ⟨_, rfl⟩

theorem test_witness_HalfReadsUseTheLatch :
    ∃ (n : Fin (2 ^ 23)) (s : State) (r : RegRow) (ix : List Nat), s.awake = true ∧ s.windowOpen (8 * n.val) = true ∧ place0 (8 * n.val) =
      Place0.reg r ix :=
  ⟨(5 : Fin (2 ^ 23)), rdy, (⟨.GLB_SCRATCH, 0x28, [], 0xffffffffffffffff, 0xffffffffffffffff, 0x0, 0x0, 0x0, 0x0, 0x0, 0x0⟩ : RegRow), ([] :
    List Nat), by decide +kernel⟩

theorem test_witness_HalfWritesCommitTogether :
    (∃ (p : Path) (n : Fin (2 ^ 23)) (s : State) (r : RegRow) (ix : List Nat), s.awake = true ∧ s.windowOpen (8 * n.val) = true ∧ place0 (8 *
      n.val) = Place0.reg r ix ∧ s.smbBlocked p (8 * n.val) = false) ∧
    (∃ (p : Path) (n : Fin (2 ^ 23)) (s : State) (r : RegRow) (ix : List Nat), s.awake = true ∧ s.windowOpen (8 * n.val) = true ∧ place0 (8 *
      n.val) = Place0.reg r ix ∧ s.smbBlocked p (8 * n.val) = false ∧ 8 * n.val < 2 ^ 26) :=
  ⟨⟨Path.host, (5 : Fin (2 ^ 23)), rdy, (⟨.GLB_SCRATCH, 0x28, [], 0xffffffffffffffff, 0xffffffffffffffff, 0x0, 0x0, 0x0, 0x0, 0x0, 0x0⟩ :
      RegRow), ([] : List Nat), by decide +kernel⟩,
   ⟨Path.host, (5 : Fin (2 ^ 23)), rdy, (⟨.GLB_SCRATCH, 0x28, [], 0xffffffffffffffff, 0xffffffffffffffff, 0x0, 0x0, 0x0, 0x0, 0x0, 0x0⟩ :
      RegRow), ([] : List Nat), by decide +kernel⟩⟩

theorem test_witness_ScratchHoldsWhatIsWritten :
    ∃ (p : Path) (s : State), s.awake = true ∧ s.smbBlocked p rGLB_SCRATCH = false :=
  ⟨Path.host, rdy, by decide +kernel⟩

theorem test_witness_ReservedAccessCounts :
    (∃ (p : Path) (a : Fin (2 ^ 26)) (sz : AccSize) (s : State), s.awake = true ∧ (misaligned (a.val) sz || reserved0 a.val) = true ∧
      s.smbBlocked p a.val = false) ∧
    (∃ (a : Fin (2 ^ 26)) (sz : AccSize) (s : State), s.awake = true ∧ (misaligned (a.val) sz || reserved0 a.val) = false ∧ narrow sz = true) :=
  ⟨⟨Path.host, (1 : Fin (2 ^ 26)), AccSize.b64, rdy, by decide +kernel⟩,
   ⟨(0 : Fin (2 ^ 26)), AccSize.b16, rdy, by decide +kernel⟩⟩

theorem test_witness_DeviceStateFrame :
    ∃ t, exec Instr.bypass rdy = Host.Outcome.next t :=
  ⟨_, rfl⟩

theorem test_witness_DevidLocks :
    (∃ (s : State), s.awake = true ∧ s.flag rGLB_DEVID fGLB_DEVID_LOCK = false ∧ s.planActive = false) ∧
    (∃ (s : State), s.awake = true ∧ s.flag rGLB_DEVID fGLB_DEVID_LOCK = true) :=
  ⟨⟨rdy, by decide +kernel⟩,
   ⟨rdy |>.setFld rGLB_DEVID fGLB_DEVID_LOCK 1, by decide +kernel⟩⟩

theorem test_witness_DatapathRestart :
    (∃ (s : State), s.ready = true) ∧
    (∃ (s : State), s.glb = 4 ∧ s.rst.phase = 0) ∧
    (∃ (s : State), s.glb = 4 ∧ s.rst.phase = 1) ∧
    (∃ (s : State), s.glb = 4 ∧ s.rst.phase = 2 ∧ s.rst.failed ≠ []) ∧
    (∃ (s : State), s.glb = 4 ∧ s.rst.phase = 2 ∧ s.rst.failed = [] ∧ s.rst.fourth = false) :=
  ⟨⟨rdy, by decide +kernel⟩,
   ⟨rdy |>.setFld rGLB_STATUS fGLB_STATUS_STATE 4, by decide +kernel⟩,
   ⟨rdy |>.setFld rGLB_STATUS fGLB_STATUS_STATE 4 |>.onRst (fun z => { z with phase := 1 }), by decide +kernel⟩,
   ⟨rdy |>.setFld rGLB_STATUS fGLB_STATUS_STATE 4 |>.onRst (fun z => { z with phase := 2, failed := [3] }), by decide +kernel⟩,
   ⟨rdy |>.setFld rGLB_STATUS fGLB_STATUS_STATE 4 |>.onRst (fun z => { z with phase := 2 }), by decide +kernel⟩⟩

theorem test_witness_HoldoverEntryAndExit :
    (∃ (s : State), s.glb ≠ 0 ∧ s.refOk = true ∧ s.mpll ≠ 2) ∧
    (∃ (s : State), s.glb ≠ 0 ∧ s.refOk = true ∧ s.mpll = 2) ∧
    (∃ (s : State), s.glb ≠ 0 ∧ s.refOk = false) ∧
    (∃ (s : State), s.glb ≠ 0 ∧ s.refOk = true ∧ s.clk.stage = Retune.idle ∧ s.mpll = 3) ∧
    (∃ (s : State), s.glb ≠ 0 ∧ s.mpll = 2 ∧ s.clk.gateBad = false ∧ s.refOk = true) :=
  ⟨⟨rdy |>.setFld rCLK_STATUS fCLK_STATUS_REF_OK 1, by decide +kernel⟩,
   ⟨rdy |>.setFld rCLK_STATUS fCLK_STATUS_REF_OK 1 |>.setFld rCLK_STATUS fCLK_STATUS_MPLL_STATE 2, by decide +kernel⟩,
   ⟨rdy, by decide +kernel⟩,
   ⟨rdy |>.setFld rCLK_STATUS fCLK_STATUS_REF_OK 1 |>.setFld rCLK_STATUS fCLK_STATUS_MPLL_STATE 3, by decide +kernel⟩,
   ⟨rdy |>.setFld rCLK_STATUS fCLK_STATUS_MPLL_STATE 2 |>.setFld rCLK_STATUS fCLK_STATUS_REF_OK 1, by decide +kernel⟩⟩

theorem test_witness_RelockAndSync :
    (∃ (s : State), s.ready = true ∧ s.mpll = 2 ∧ s.wordOk s.mpllWord = true) ∧
    (∃ (s : State), s.ready = true ∧ s.mpll ≠ 2) ∧
    (∃ (s : State), s.ready = true ∧ s.mpll = 2 ∧ s.wordOk s.mpllWord = false) ∧
    (∃ (s : State), s.glb ≠ 0 ∧ s.clk.stage = Retune.settleNew) ∧
    (∃ (s : State), s.glb ≠ 0 ∧ s.clk.stage = Retune.toNew) ∧
    (∃ (s : State), s.glb ≠ 0 ∧ s.clk.stage = Retune.toOld) ∧
    (∃ (s : State), s.glb ≠ 0 ∧ s.clk.stage = Retune.held ∧ s.refOk = true) ∧
    (∃ (s : State), s.ready = true ∧ s.planActive = false ∧ s.fld rCLK_MPLL fCLK_MPLL_FRAC = 0) ∧
    (∃ (s : State), s.glb ≠ 0 ∧ s.flag rCLK_SYNC fCLK_SYNC_ARM = true ∧ s.mpll = 2) ∧
    (∃ (s : State), s.glb ≠ 0 ∧ s.flag rCLK_STATUS fCLK_STATUS_LPLL_HOLD = false) ∧
    (∃ (s : State), s.glb ≠ 0 ∧ s.flag rCLK_STATUS fCLK_STATUS_LPLL_HOLD = true) ∧
    (∃ (s : State), s.glb ≠ 0 ∧ s.mpll = 3) :=
  ⟨⟨rdy |>.setFld rCLK_STATUS fCLK_STATUS_MPLL_STATE 2, by decide +kernel⟩,
   ⟨rdy, by decide +kernel⟩,
   ⟨rdy |>.setFld rCLK_STATUS fCLK_STATUS_MPLL_STATE 2 |>.setFld rCLK_MPLL fCLK_MPLL_N 1, by decide +kernel⟩,
   ⟨rdy |>.updClk (fun z => { z with stage := Retune.settleNew }), by decide +kernel⟩,
   ⟨rdy |>.updClk (fun z => { z with stage := Retune.toNew }), by decide +kernel⟩,
   ⟨rdy |>.updClk (fun z => { z with stage := Retune.toOld }), by decide +kernel⟩,
   ⟨rdy |>.updClk (fun z => { z with stage := Retune.held }) |>.setFld rCLK_STATUS fCLK_STATUS_REF_OK 1, by decide +kernel⟩,
   ⟨rdy, by decide +kernel⟩,
   ⟨rdy |>.setFld rCLK_SYNC fCLK_SYNC_ARM 1 |>.setFld rCLK_STATUS fCLK_STATUS_MPLL_STATE 2, by decide +kernel⟩,
   ⟨rdy, by decide +kernel⟩,
   ⟨rdy |>.setFld rCLK_STATUS fCLK_STATUS_LPLL_HOLD 1, by decide +kernel⟩,
   ⟨rdy |>.setFld rCLK_STATUS fCLK_STATUS_MPLL_STATE 3, by decide +kernel⟩⟩

theorem test_witness_AttenuatorAndChannelCorrection :
    (∃ (s : State), s.ready = true) ∧
    (∃ (s : State), s.glb ≠ 0 ∧ s.held = true) ∧
    (∃ (n : Fin 4) (s : State), s.glb ≠ 0 ∧ s.held = false ∧ s.flag (rCNV_ATT n.val) fCNV_ATT_GO = true ∧ (s.fld rCAL_STATUS fCAL_STATUS_STATE ≠
      1 ∨ s.cal.input ≠ n.val)) :=
  ⟨⟨rdy, by decide +kernel⟩,
   ⟨heldRdy |>.setFld (rCNV_ATT 3) fCNV_ATT_GO 1, by decide +kernel⟩,
   ⟨(3 : Fin 4), rdy |>.setFld (rCNV_ATT ↑(3 : Fin 4)) fCNV_ATT_GO 1, by decide +kernel⟩⟩

theorem test_witness_BackgroundCalibration :
    (∃ (n : Fin 4) (s : State), s.ready = true ∧ s.flag (rCNV_BG n.val) fCNV_BG_EN = false ∧ (s.core n.val).phase = BgPhase.off) ∧
    (∃ (n : Fin 4) (s : State), s.ready = true ∧ (s.flag (rCNV_BG n.val) fCNV_BG_EN = true ∨ (s.core n.val).phase ≠ BgPhase.off)) ∧
    (∃ (n : Fin 4) (v : Word) (s : State), s.ready = true ∧ (s.core n.val).phase = BgPhase.off ∧ (s.core n.val).frozen = false ∧ fget v
      fCNV_BG_EN = 1 ∧ s.calRunOn n.val = false ∧ s.flag rPWR_CTRL fPWR_CTRL_CNV_STBY = false) ∧
    (∃ (n : Fin 4) (s : State), s.ready = true ∧ (s.core n.val).phase ≠ BgPhase.off ∧ s.calRunOn n.val = false) ∧
    (∃ (n : Fin 4) (s : State), s.glb ≠ 0 ∧ s.clk.stage = Retune.idle ∧ (s.core n.val).phase = BgPhase.settle) ∧
    (∃ (n : Fin 4) (f : List (BitVec 12)) (a : List (BitVec 12)) (j : Nat) (kf : Nat) (ka : Nat) (s : State), s.glb ≠ 0 ∧ s.clk.stage =
      Retune.idle ∧ (s.core n.val).phase = BgPhase.shadow ∧ s.fld (rCNV_BG_STATUS n.val) fCNV_BG_STATUS_POS = j ∧ s.fld (rCNV_BG_STATUS n.val)
      fCNV_BG_STATUS_FREE = kf ∧ s.sliceAt (n.val) j = ka ∧ (s.core n.val).remove ≠ some ka ∧ shadowOk (s.fld (rCNV_BG n.val) fCNV_BG_HO_TOL)
      (List.map (fun x => (s.sliceVal (n.val) kf x.toInt).fst) f)     (List.map (fun x => (s.sliceVal (n.val) ka x.toInt).fst) a) =   true) ∧
    (∃ (n : Fin 4) (f : List (BitVec 12)) (a : List (BitVec 12)) (kf : Nat) (ka : Nat) (s : State), s.glb ≠ 0 ∧ s.clk.stage = Retune.idle ∧
      (s.core n.val).phase = BgPhase.shadow ∧ s.fld (rCNV_BG_STATUS n.val) fCNV_BG_STATUS_FREE = kf ∧ s.sliceAt (n.val) (s.fld (rCNV_BG_STATUS
      n.val) fCNV_BG_STATUS_POS) = ka ∧ shadowOk (s.fld (rCNV_BG n.val) fCNV_BG_HO_TOL) (List.map (fun x => (s.sliceVal (n.val) kf x.toInt).fst)
      f)     (List.map (fun x => (s.sliceVal (n.val) ka x.toInt).fst) a) =   false ∧ SMap.get 0 (s.core n.val).rejects kf < 2 ∧ SMap.get 0
      (s.core n.val).rejects ka < 2) ∧
    (∃ (n : Fin 4) (s : State), s.glb ≠ 0 ∧ s.clk.stage = Retune.idle ∧ (s.core n.val).phase = BgPhase.window) ∧
    (∃ (n : Fin 4) (s : State), s.glb ≠ 0 ∧ s.clk.stage = Retune.idle ∧ (s.core n.val).phase = BgPhase.interval ∧ (s.core n.val).frozen = false
      ∧ s.flag rPWR_CTRL fPWR_CTRL_CNV_STBY = false ∧ s.cal.await.contains n.val = false ∧ s.flag (rCNV_BG n.val) fCNV_BG_EN = true) ∧
    (∃ (n : Fin 4) (s : State), s.glb ≠ 0 ∧ s.clk.stage = Retune.idle ∧ (s.core n.val).phase = BgPhase.interval ∧ s.cal.await.contains n.val =
      false ∧ s.flag (rCNV_BG n.val) fCNV_BG_EN = false) ∧
    (∃ (why : Nat), why < 8) :=
  ⟨⟨(3 : Fin 4), rdy, by decide +kernel⟩,
   ⟨(3 : Fin 4), rdy |>.setFld (rCNV_BG 3) fCNV_BG_EN 1, by decide +kernel⟩,
   ⟨(3 : Fin 4), (fset (0 : Word) fCNV_BG_EN 1), rdy, by decide +kernel⟩,
   ⟨(3 : Fin 4), rdy |>.updCore 3 (fun z => { z with phase := BgPhase.window }), by decide +kernel⟩,
   ⟨(3 : Fin 4), rdy |>.updCore ↑(3 : Fin 4) (fun z => { z with phase := BgPhase.settle }), by decide +kernel⟩,
   ⟨(3 : Fin 4), ([] : List (BitVec 12)), ([] : List (BitVec 12)), 0, ((rdy |>.updCore ↑(3 : Fin 4) (fun z =>
      { z with phase := BgPhase.shadow })).fld (rCNV_BG_STATUS ↑(3 : Fin 4)) fCNV_BG_STATUS_FREE), 0, rdy |>.updCore ↑(3 : Fin 4) (fun z =>
      { z with phase := BgPhase.shadow }), by decide +kernel⟩,
   ⟨(3 : Fin 4), ([1000] : List (BitVec 12)), ([0] : List (BitVec 12)), ((rdy |>.updCore ↑(3 : Fin 4) (fun z =>
      { z with phase := BgPhase.shadow })).fld (rCNV_BG_STATUS ↑(3 : Fin 4)) fCNV_BG_STATUS_FREE), 0, rdy |>.updCore ↑(3 : Fin 4) (fun z =>
      { z with phase := BgPhase.shadow }), by decide +kernel⟩,
   ⟨(3 : Fin 4), rdy |>.updCore ↑(3 : Fin 4) (fun z => { z with phase := BgPhase.window }), by decide +kernel⟩,
   ⟨(3 : Fin 4), rdy |>.updCore ↑(3 : Fin 4) (fun z => { z with phase := BgPhase.interval }) |>.setFld (rCNV_BG ↑(3 : Fin 4)) fCNV_BG_EN 1,
      by decide +kernel⟩,
   ⟨(3 : Fin 4), rdy |>.updCore ↑(3 : Fin 4) (fun z => { z with phase := BgPhase.interval }), by decide +kernel⟩,
   ⟨0, by decide +kernel⟩⟩

theorem test_witness_MonitorsLatchAndClear :
    (∃ (m : Fin 12) (v : Int) (s : State) (c : Instr), s.glb ≠ 0 ∧ s.flag (rMON_CFG m.val) fMON_CFG_EN = true ∧ s.monCond (m.val) v = true ∧
      s.flag (rMON_STATUS m.val) fMON_STATUS_LATCHED = false ∧ (c = Instr.monitorTrip m v ∧ s.fld (rMON_CFG m.val) fMON_CFG_SPEED ≠ 3 ∨   c =
      Instr.monSample m v ∧ s.fld (rMON_CFG m.val) fMON_CFG_SPEED = 3)) ∧
    (∃ (m : Fin 12) (v : Int) (s : State) (c : Instr), s.glb ≠ 0 ∧ s.flag (rMON_CFG m.val) fMON_CFG_EN = true ∧ (s.monCond (m.val) v = false ∨
      s.flag (rMON_STATUS m.val) fMON_STATUS_LATCHED = true) ∧ (c = Instr.monitorTrip m v ∧ s.fld (rMON_CFG m.val) fMON_CFG_SPEED ≠ 3 ∨   c =
      Instr.monSample m v ∧ s.fld (rMON_CFG m.val) fMON_CFG_SPEED = 3)) ∧
    (∃ (m : Fin 12) (v : Int) (s : State) (c : Instr), s.glb ≠ 0 ∧ (c = Instr.monitorTrip m v ∧ (s.flag (rMON_CFG m.val) fMON_CFG_EN = false ∨
      s.fld (rMON_CFG m.val) fMON_CFG_SPEED = 3) ∨   c = Instr.monSample m v ∧ (s.flag (rMON_CFG m.val) fMON_CFG_EN = false ∨ s.fld (rMON_CFG
      m.val) fMON_CFG_SPEED ≠ 3))) ∧
    (∃ (m : Fin 12) (s : State), s.glb ≠ 0 ∧ s.flag (rMON_CFG m.val) fMON_CFG_CLR_MODE = true) ∧
    (∃ (m : Fin 12) (s : State), s.glb ≠ 0 ∧ s.flag (rMON_CFG m.val) fMON_CFG_CLR_MODE = false) ∧
    (∃ (v : Word) (s : State), s.ready = true ∧ fget v fMON_CFG_EN = 0) :=
  ⟨⟨(11 : Fin 12), 5000, rdy |>.setFld (rMON_CFG 11) fMON_CFG_EN 1, (Instr.monitorTrip 11 5000), by decide +kernel, by decide +kernel,
      by decide +kernel, by decide +kernel, .inl ⟨rfl, by decide +kernel⟩⟩,
   ⟨(11 : Fin 12), 0, rdy |>.setFld (rMON_CFG ↑(11 : Fin 12)) fMON_CFG_EN 1, (Instr.monitorTrip 11 0), by decide +kernel, by decide +kernel,
      by decide +kernel, .inl ⟨rfl, by decide +kernel⟩⟩,
   ⟨(11 : Fin 12), 0, rdy, (Instr.monitorTrip 11 0), by decide +kernel, .inl ⟨rfl, by decide +kernel⟩⟩,
   ⟨(11 : Fin 12), rdy |>.setFld (rMON_CFG ↑(11 : Fin 12)) fMON_CFG_CLR_MODE 1, by decide +kernel⟩,
   ⟨(11 : Fin 12), rdy, by decide +kernel⟩,
   ⟨(0 : Word), rdy, by decide +kernel⟩⟩

theorem test_witness_GeneratorsTripAndRun :
    (∃ (g : Fin 8) (s : State), s.ready = true ∧ s.flag (rPG_STATUS g.val) fPG_STATUS_TRIPPED = false) ∧
    (∃ (g : Fin 8) (s : State), s.ready = true ∧ s.pgMonitors g.val = false) ∧
    (∃ (g : Fin 8) (v : Word) (s : State), s.ready = true ∧ s.pgMonitors g.val = true ∧ fget v fPG_STATUS_LATE = 0) ∧
    (∃ (g : Fin 8) (s : State), s.glb ≠ 0 ∧ s.held = false ∧ s.flag (rPG_CFG g.val) fPG_CFG_ARM = true) ∧
    (∃ (g : Fin 8) (s : State), s.glb ≠ 0 ∧ (s.held = true ∨ s.flag (rPG_CFG g.val) fPG_CFG_ARM = false)) ∧
    (∃ (g : Fin 8) (s : State), s.glb ≠ 0 ∧ s.held = false ∧ s.flag (rPG_STATUS g.val) fPG_STATUS_RUNNING = true ∧ (s.pgen g.val).hi = true) ∧
    (∃ (g : Fin 8) (s : State), s.glb ≠ 0 ∧ s.held = false ∧ s.flag (rPG_STATUS g.val) fPG_STATUS_RUNNING = true ∧ (s.pgen g.val).hi = false ∧
      s.flag (rPG_STATUS g.val) fPG_STATUS_TRIPPED = false) :=
  ⟨⟨(7 : Fin 8), rdy, by decide +kernel⟩,
   ⟨(7 : Fin 8), rdy, by decide +kernel⟩,
   ⟨(7 : Fin 8), (0 : Word), rdy |>.setFld (rPG_CFG 7) fPG_CFG_TRIP_MASK 1 |>.setFld (rMON_STATUS 0) fMON_STATUS_LATCHED 1, by decide +kernel⟩,
   ⟨(7 : Fin 8), rdy |>.setFld (rPG_CFG ↑(7 : Fin 8)) fPG_CFG_ARM 1, by decide +kernel⟩,
   ⟨(7 : Fin 8), heldRdy, by decide +kernel⟩,
   ⟨(7 : Fin 8), rdy |>.setFld (rPG_STATUS 7) fPG_STATUS_RUNNING 1 |>.updPg 7 (fun z => { z with hi := true }), by decide +kernel⟩,
   ⟨(7 : Fin 8), rdy |>.setFld (rPG_STATUS ↑(7 : Fin 8)) fPG_STATUS_RUNNING 1, by decide +kernel⟩⟩

theorem test_witness_TimeIsSteered :
    (∃ (v : Word) (s : State), s.ready = true ∧ s.stokerSteers = false ∧ s.servoSrc ≠ 4 ∧ (fgetS v fTBS_ADJ_ADJ).natAbs ≤ 219902325) ∧
    (∃ (v : Word) (s : State), s.ready = true ∧ (s.stokerSteers = true ∨ 219902325 < (fgetS v fTBS_ADJ_ADJ).natAbs)) ∧
    (∃ (v : Word) (s : State), s.ready = true ∧ s.stokerSteers = false ∧ s.servoSrc ≠ 4 ∧ fget v fTBS_SLEW_KEEP = 1) ∧
    (∃ (v : Word) (s : State), s.ready = true ∧ s.stokerSteers = false ∧ s.servoSrc ≠ 4 ∧ fget v fTBS_SLEW_KEEP = 0) ∧
    (∃ (s : State), s.ready = true ∧ s.stokerSteers = true) ∧
    (∃ (s : State), s.ready = true ∧ s.held = true) ∧
    (∃ (v : Word) (s : State), s.ready = true ∧ s.held = false ∧ s.planActive = false ∧ 0 ≤ ↑s.time40 + BitVec.toInt v * 2 ^ 31) ∧
    (∃ (v : Word) (s : State), s.ready = true ∧ s.held = false ∧ (s.planActive = true ∨ ↑s.time40 + BitVec.toInt v * 2 ^ 31 < 0)) ∧
    (∃ (s : State), (s.held = true ∨ s.glb = 0)) ∧
    (∃ (s : State), s.held = false ∧ s.glb ≠ 0 ∧ (s.cnvRuns = false ∨ ∀ (n : Nat), n < 4 → s.routesFrom n = []) ∧ (∀ (c : Nat), c < 12 →
      (s.tdcCh c).queue = [])) :=
  ⟨⟨(0 : Word), rdy, by decide +kernel⟩,
   ⟨(fset (0 : Word) fTBS_ADJ_ADJ 219902326), rdy, by decide +kernel⟩,
   ⟨(fset (0 : Word) fTBS_SLEW_KEEP 1), rdy, by decide +kernel⟩,
   ⟨(0 : Word), rdy, by decide +kernel⟩,
   ⟨rdy |>.setFld rTBS_SERVO fTBS_SERVO_SOURCE 1, by decide +kernel⟩,
   ⟨heldRdy, by decide +kernel⟩,
   ⟨(0 : Word), rdy, by decide +kernel⟩,
   ⟨(0 : Word), rdy |>.setFld rGLB_STATUS fGLB_STATUS_PLAN_ACTIVE 1, by decide +kernel⟩,
   ⟨heldRdy, by decide +kernel⟩,
   ⟨rdy, by decide +kernel⟩⟩

theorem test_witness_ServoStates :
    (∃ (v : Word) (s : State), s.ready = true ∧ fget v fTBS_SERVO_SOURCE = 0) ∧
    (∃ (v : Word) (s : State), s.ready = true ∧ s.servo = 0 ∧ 1 ≤ fget v fTBS_SERVO_SOURCE ∧ fget v fTBS_SERVO_SOURCE ≤ 4) ∧
    (∃ (v : Word) (s : State), s.ready = true ∧ s.servo = 1 ∧ fget v fTBS_SERVO_SOURCE = 4 ∧ fget v fTBS_SERVO_HOST_LOCK = 1) ∧
    (∃ (v : Word) (s : State), s.ready = true ∧ s.servo = 2 ∧ fget v fTBS_SERVO_SOURCE = 4 ∧ fget v fTBS_SERVO_HOST_LOCK = 0) ∧
    (∃ (s : State), s.glb ≠ 0 ∧ s.held = false ∧ s.servo = 2 ∧ s.stokerSteers = true) ∧
    (∃ (s : State), s.glb ≠ 0 ∧ (s.held = true ∨ s.servo ≠ 2 ∨ s.stokerSteers = false)) ∧
    (∃ (s : State), s.glb ≠ 0 ∧ (s.held = true ∨ s.servo ≠ 2 ∨ s.servoSrc ≠ 4)) ∧
    (∃ (s : State), s.glb ≠ 0 ∧ s.held = false ∧ s.servo = 2 ∧ s.servoSrc = 4) ∧
    (∃ (s : State), s.glb ≠ 0 ∧ s.servoSrc = 2) ∧
    (∃ (s : State), s.glb ≠ 0 ∧ s.servoSrc ≠ 2 ∧ s.servoSrc ≠ 3) :=
  ⟨⟨(0 : Word), rdy, by decide +kernel⟩,
   ⟨(fset (0 : Word) fTBS_SERVO_SOURCE 1), rdy, by decide +kernel⟩,
   ⟨(fset (fset (0 : Word) fTBS_SERVO_SOURCE 4) fTBS_SERVO_HOST_LOCK 1), rdy |>.setFld rTBS_STATUS fTBS_STATUS_STATE 1, by decide +kernel⟩,
   ⟨(fset (0 : Word) fTBS_SERVO_SOURCE 4), rdy |>.setFld rTBS_STATUS fTBS_STATUS_STATE 2, by decide +kernel⟩,
   ⟨rdy |>.setFld rTBS_STATUS fTBS_STATUS_STATE 2 |>.setFld rTBS_SERVO fTBS_SERVO_SOURCE 1, by decide +kernel⟩,
   ⟨rdy, by decide +kernel⟩,
   ⟨rdy, by decide +kernel⟩,
   ⟨rdy |>.setFld rTBS_STATUS fTBS_STATUS_STATE 2 |>.setFld rTBS_SERVO fTBS_SERVO_SOURCE 4, by decide +kernel⟩,
   ⟨rdy |>.setFld rTBS_SERVO fTBS_SERVO_SOURCE 2, by decide +kernel⟩,
   ⟨rdy, by decide +kernel⟩⟩

theorem test_witness_EdgesAreStamped :
    (∃ (c : Fin 12) (r : Bool) (s : State), s.glb ≠ 0 ∧ s.flag rTHM_STATUS fTHM_STATUS_STOPPED = false ∧ (s.fld (rTDC_CH c.val) fTDC_CH_SLOPE =
      0 ∧ r = false ∨   s.fld (rTDC_CH c.val) fTDC_CH_SLOPE = 1 ∧ r = true ∨ s.tdcStamps c.val = false)) ∧
    (∃ (c : Fin 12) (t : Nat) (r : Bool) (s : State), s.glb ≠ 0 ∧ s.flag rTHM_STATUS fTHM_STATUS_STOPPED = false ∧ s.tdcStamps c.val = true ∧
      (¬(s.fld (rTDC_CH c.val) fTDC_CH_SLOPE = 0 ∧ r = false)) ∧ (¬(s.fld (rTDC_CH c.val) fTDC_CH_SLOPE = 1 ∧ r = true)) ∧ (s.held = true ∨ ∃ l,
      (s.tdcCh c.val).last = some l ∧ (↑t - l) * ↑s.tickFs < 2000000 * 512)) ∧
    (∃ (c : Fin 12) (t : Nat) (r : Bool) (s : State), s.glb ≠ 0 ∧ s.flag rTHM_STATUS fTHM_STATUS_STOPPED = false ∧ s.tdcStamps c.val = true ∧
      (¬(s.fld (rTDC_CH c.val) fTDC_CH_SLOPE = 0 ∧ r = false)) ∧ (¬(s.fld (rTDC_CH c.val) fTDC_CH_SLOPE = 1 ∧ r = true)) ∧ s.held = false ∧ (∀
      (l : Int), (s.tdcCh c.val).last = some l → 2000000 * 512 ≤ (↑t - l) * ↑s.tickFs)) ∧
    (∃ (c : Fin 12) (s : State), s.glb ≠ 0 ∧ (s.held = true ∨ (s.tdcCh c.val).queue = [] ∧ (s.tdcCh c.val).open_ = [])) ∧
    (∃ (c : Fin 12) (s : State), s.glb ≠ 0 ∧ s.held = false ∧ (s.tdcCh c.val).queue = [] ∧ (s.tdcCh c.val).open_ ≠ []) ∧
    (∃ (s : State), s.glb ≠ 0) :=
  ⟨⟨(11 : Fin 12), false, rdy, by decide +kernel⟩,
   ⟨(11 : Fin 12), 0, true, heldRdy |>.setFld (rTDC_CH 11) fTDC_CH_EN 1, by decide +kernel⟩,
   ⟨(11 : Fin 12), 0, true, rdy, by decide +kernel⟩,
   ⟨(11 : Fin 12), rdy, by decide +kernel⟩,
   ⟨(11 : Fin 12), rdy |>.updTdc 11 (fun z => { z with open_ := [0] }), by decide +kernel⟩,
   ⟨rdy, by decide +kernel⟩⟩

theorem test_witness_FrequencyGates :
    (∃ (s : State), s.ready = true ∧ s.flag rTDC_FREQ_CFG fTDC_FREQ_CFG_EN = false) ∧
    (∃ (s : State), s.ready = true ∧ s.flag rTDC_FREQ_CFG fTDC_FREQ_CFG_EN = true) ∧
    (∃ (s : State), s.glb ≠ 0 ∧ s.held = false ∧ s.flag rTDC_FREQ_CFG fTDC_FREQ_CFG_EN = true) ∧
    (∃ (s : State), s.glb ≠ 0 ∧ (s.held = true ∨ s.flag rTDC_FREQ_CFG fTDC_FREQ_CFG_EN = false)) :=
  ⟨⟨rdy, by decide +kernel⟩,
   ⟨rdy |>.setFld rTDC_FREQ_CFG fTDC_FREQ_CFG_EN 1, by decide +kernel⟩,
   ⟨rdy |>.setFld rTDC_FREQ_CFG fTDC_FREQ_CFG_EN 1, by decide +kernel⟩,
   ⟨heldRdy, by decide +kernel⟩⟩

theorem test_witness_CalibrationRuns :
    (∃ (v : Word) (n : Fin 4) (s : State), s.ready = true ∧ fget v fCAL_RUN_ABORT = 0 ∧ fget v fCAL_RUN_STORE = 0 ∧ fget v fCAL_RUN_INPUT =
      n.val ∧ s.calBar (n.val) (fget v fCAL_RUN_TYPE) (s.fld rCAL_REF fCAL_REF_POINT) = 0) ∧
    (∃ (v : Word) (s : State), s.ready = true ∧ fget v fCAL_RUN_ABORT = 0 ∧ fget v fCAL_RUN_STORE = 0 ∧ s.calBar (fget v fCAL_RUN_INPUT) (fget v
      fCAL_RUN_TYPE) (s.fld rCAL_REF fCAL_REF_POINT) ≠ 0) ∧
    (∃ (v : Word) (n : Fin 4) (s : State), s.ready = true ∧ fget v fCAL_RUN_GO = 0 ∧ fget v fCAL_RUN_STORE = 0 ∧ s.calState = 1 ∧ s.cal.input =
      n.val ∧ s.cal.attcal.length = 32) ∧
    (∃ (v : Word) (s : State), s.ready = true ∧ fget v fCAL_RUN_GO = 0 ∧ fget v fCAL_RUN_STORE = 0 ∧ s.calState ≠ 1) ∧
    (∃ (s : State), s.glb ≠ 0 ∧ s.calState = 1 ∧ s.fld rCAL_STATUS fCAL_STATUS_PHASE = 1) ∧
    (∃ (s : State), s.glb ≠ 0 ∧ s.calState = 1 ∧ s.fld rCAL_STATUS fCAL_STATUS_PHASE = 0 ∧ (∀ (c : Nat), c ∈ s.inputCores s.cal.input → (s.core
      c).phase = BgPhase.off)) ∧
    (∃ (m : CalMeas) (n : Fin 4) (s : State), s.glb ≠ 0 ∧ s.calState = 1 ∧ s.fld rCAL_STATUS fCAL_STATUS_PHASE = 2 ∧ s.cal.input = n.val ∧
      s.calCheck m ≠ 0) ∧
    (∃ (n : Fin 4) (s : State), s.glb ≠ 0 ∧ s.calState = 1 ∧ s.fld rCAL_STATUS fCAL_STATUS_PHASE = 8 ∧ s.cal.input = n.val ∧ s.cal.persist =
      false) ∧
    (∃ (m : CalMeas) (s : State), s.glb ≠ 0 ∧ s.calState = 1 ∧ s.fld rCAL_STATUS fCAL_STATUS_PHASE = 5 ∧ s.calClipped = false ∧ (s.cal.as_ ++
      m.amps).length < 31) ∧
    (∃ (s : State), s.glb ≠ 0 ∧ s.calState ≠ 1) ∧
    (∃ (n : Fin 4) (s : State), s.ready = true ∧ s.calRunOn n.val = true) :=
  ⟨⟨(fset (0 : Word) fCAL_RUN_INPUT 3), (3 : Fin 4), rdy, by decide +kernel⟩,
   ⟨(0 : Word), rdy |>.setFld rCAL_STATUS fCAL_STATUS_STATE 1, by decide +kernel⟩,
   ⟨(0 : Word), (3 : Fin 4), rdy |>.setFld rCAL_STATUS fCAL_STATUS_STATE 1 |>.onCal (fun z =>
      { z with input := 3, attcal := List.replicate 32 0 }), by decide +kernel⟩,
   ⟨(0 : Word), rdy, by decide +kernel⟩,
   ⟨rdy |>.setFld rCAL_STATUS fCAL_STATUS_STATE 1 |>.setFld rCAL_STATUS fCAL_STATUS_PHASE 1, by decide +kernel⟩,
   ⟨rdy |>.setFld rCAL_STATUS fCAL_STATUS_STATE 1, by decide +kernel⟩,
   ⟨(⟨0, 0, 0, 1, []⟩ : CalMeas), (3 : Fin 4), rdy |>.setFld rCAL_STATUS fCAL_STATUS_STATE 1 |>.setFld rCAL_STATUS fCAL_STATUS_PHASE 2 |>.onCal
      (fun z => { z with input := ↑(3 : Fin 4) }), by decide +kernel⟩,
   ⟨(3 : Fin 4), rdy |>.setFld rCAL_STATUS fCAL_STATUS_STATE 1 |>.setFld rCAL_STATUS fCAL_STATUS_PHASE 8 |>.onCal (fun z =>
      { z with input := ↑(3 : Fin 4) }), by decide +kernel⟩,
   ⟨(⟨0, 0, 0, 1, []⟩ : CalMeas), rdy |>.setFld rCAL_STATUS fCAL_STATUS_STATE 1 |>.setFld rCAL_STATUS fCAL_STATUS_PHASE 1 |>.setFld rCAL_STATUS
      fCAL_STATUS_PHASE 5, by decide +kernel⟩,
   ⟨rdy, by decide +kernel⟩,
   ⟨(3 : Fin 4), rdy |>.setFld rCAL_STATUS fCAL_STATUS_STATE 1 |>.onCal (fun z => { z with input := 3 }), by decide +kernel⟩⟩

theorem test_witness_CalibrationStore :
    (∃ (n : Fin 4) (s : State), s.glb ≠ 0 ∧ s.fld rCAL_POLICY fCAL_POLICY_MAX_AGE ≠ 0 ∧ s.fld rCAL_STATUS fCAL_STATUS_DUE / 2 ^ n.val % 2 = 0) ∧
    (∃ (s : State), s.glb ≠ 0 ∧ s.fld rCAL_POLICY fCAL_POLICY_MAX_AGE = 0) ∧
    (∃ (n : Fin 4) (s : State), s.glb ≠ 0 ∧ s.flag rCAL_POLICY fCAL_POLICY_AUTO = true ∧ s.calState = 0 ∧ List.find? (fun m => s.fld rCAL_STATUS
      fCAL_STATUS_DUE / 2 ^ m % 2 == 1 && s.calEligible m) (upTo 4) = some n.val ∧ s.calBar (n.val) 0 4 = 0) ∧
    (∃ (s : State), s.glb ≠ 0 ∧ (s.flag rCAL_POLICY fCAL_POLICY_AUTO = false ∨ s.calState ≠ 0)) ∧
    (∃ (n : Fin 4) (s : State), s.glb ≠ 0 ∧ SMap.get none s.cal.retry n.val = none) ∧
    (∃ (n : Fin 4) (s : State) (t : Nat), s.glb ≠ 0 ∧ SMap.get none s.cal.retry n.val = some t) ∧
    (∃ (v : Word) (s : State), s.ready = true ∧ fget v fCAL_RUN_GO = 0 ∧ fget v fCAL_RUN_ABORT = 0 ∧ s.calState = 0 ∧ s.fld rCAL_STORE
      fCAL_STORE_SEQ < 200000 ∧ s.flashBusy = false) ∧
    (∃ (v : Word) (s : State), s.ready = true ∧ fget v fCAL_RUN_GO = 0 ∧ fget v fCAL_RUN_ABORT = 0 ∧ (s.calState ≠ 0 ∨ 200000 ≤ s.fld rCAL_STORE
      fCAL_STORE_SEQ)) ∧
    (∃ (s : State), s.glb ≠ 0 ∧ s.calState = 2 ∧ s.cal.image ≠ [] ∧ s.cal.await = [] ∧ s.stk.queue = []) ∧
    (∃ (s : State), s.glb ≠ 0 ∧ (s.calState ≠ 2 ∧ s.cal.await = [] ∨ s.cal.await ≠ [] ∧ ∀ (n : Nat), n ∈ s.cal.await → (s.core n).phase ≠
      BgPhase.off)) ∧
    (∃ (n : Fin 4) (s : State), s.glb ≠ 0 ∧ s.clk.stage = Retune.idle ∧ (s.core n.val).phase = BgPhase.interval ∧ (s.core n.val).frozen = false
      ∧ s.flag rPWR_CTRL fPWR_CTRL_CNV_STBY = false ∧ n.val ∈ s.cal.await) :=
  ⟨⟨(3 : Fin 4), rdy |>.setFld rCAL_POLICY fCAL_POLICY_MAX_AGE 1, by decide +kernel⟩,
   ⟨rdy, by decide +kernel⟩,
   ⟨(3 : Fin 4), rdy |>.setFld rCAL_POLICY fCAL_POLICY_AUTO 1 |>.setFld rCAL_STATUS fCAL_STATUS_DUE 8, by decide +kernel⟩,
   ⟨rdy, by decide +kernel⟩,
   ⟨(3 : Fin 4), rdy |>.setFld rCAL_POLICY fCAL_POLICY_AUTO 1, by decide +kernel⟩,
   ⟨(3 : Fin 4), rdy |>.setFld rCAL_POLICY fCAL_POLICY_AUTO 1 |>.onCal (fun z => { z with retry := SMap.set none z.retry 3 (some 0) }), 0,
      by decide +kernel⟩,
   ⟨(0 : Word), rdy, by decide +kernel⟩,
   ⟨(0 : Word), rdy |>.setFld rCAL_STATUS fCAL_STATUS_STATE 1, by decide +kernel⟩,
   ⟨rdy |>.setFld rCAL_STATUS fCAL_STATUS_STATE 2 |>.onCal (fun z => { z with image := [0] }), by decide +kernel⟩,
   ⟨rdy, by decide +kernel⟩,
   ⟨(3 : Fin 4), rdy |>.onCal (fun z => { z with await := [3], image := [0] }) |>.updCore 3 (fun z => { z with phase := BgPhase.interval }),
      by decide +kernel⟩⟩

theorem test_witness_PlanCommands :
    (∃ (p : PlanImg) (w : Nat) (s : State), s.ready = true ∧ s.flag rMEM_MAP fMEM_MAP_MAP_BUSY = false ∧ s.planState = 0 ∧ s.selfRefresh = false
      ∧ s.stagedPlan = some p ∧ s.frootOff p.froot = false ∧ s.planWhen = some w ∧ s.planTest p = none) ∧
    (∃ (w : Nat) (s : State), s.ready = true ∧ s.flag rMEM_MAP fMEM_MAP_MAP_BUSY = false ∧ s.planState = 0 ∧ s.activePlan ≠ none ∧ s.planWhen =
      some w) ∧
    (∃ (s : State), s.ready = true ∧ s.flag rMEM_MAP fMEM_MAP_MAP_BUSY = false ∧ s.planState ≠ 2 ∧ s.slotState s.idleSlot = 2) ∧
    (∃ (s : State), s.ready = true ∧ s.flag rMEM_MAP fMEM_MAP_MAP_BUSY = false ∧ s.planState ≠ 2 ∧ s.slotState s.idleSlot ≠ 2) ∧
    (∃ (v : Word) (s : State) (c : Instr), s.ready = true ∧ s.flag rMEM_MAP fMEM_MAP_MAP_BUSY = false ∧ (s.planState ≠ 0 ∧ c = Instr.planLoad v
      ∨   s.planState ≠ 0 ∧ c = Instr.planStop v ∨ s.planState = 2 ∧ c = Instr.planDiscard v)) ∧
    (∃ (s : State), s.ready = true ∧ s.flag rMEM_MAP fMEM_MAP_MAP_BUSY = false ∧ (s.planState = 2 ∨ s.planState = 3)) ∧
    (∃ (s : State), s.ready = true ∧ s.flag rMEM_MAP fMEM_MAP_MAP_BUSY = false ∧ s.planState < 2) ∧
    (∃ (v : Word) (s : State) (c : Instr), s.ready = true ∧ s.flag rMEM_MAP fMEM_MAP_MAP_BUSY = true ∧ c ∈ [Instr.planLoad v, Instr.planActivate
      v, Instr.planAbort v, Instr.planDiscard v, Instr.planStop v]) :=
  ⟨⟨plan0, 125000, rdy |>.setSlot 0 2 (some plan0), by decide +kernel⟩,
   ⟨125000, rdy |>.setSlot 0 3 (some plan0), by decide +kernel⟩,
   ⟨rdy |>.setSlot 0 2 (some plan0), by decide +kernel⟩,
   ⟨rdy, by decide +kernel⟩,
   ⟨(0 : Word), rdy |>.setFld rPLAN_STATUS fPLAN_STATUS_STATE 1, (Instr.planLoad (0 : Word)), by decide +kernel, by decide +kernel, .inl
      ⟨by decide +kernel, rfl⟩⟩,
   ⟨rdy |>.setFld rPLAN_STATUS fPLAN_STATUS_STATE 2, by decide +kernel⟩,
   ⟨rdy, by decide +kernel⟩,
   ⟨(0 : Word), rdy |>.setFld rMEM_MAP fMEM_MAP_MAP_BUSY 1, (Instr.planLoad (0 : Word)), by decide +kernel, by decide +kernel, by simp⟩⟩

theorem test_witness_PlanCommits :
    (∃ (s : State), s.glb ≠ 0 ∧ s.planState = 1 ∧ s.busOk = false) ∧
    (∃ (img : HostRead) (o : Nat) (s : State), s.glb ≠ 0 ∧ s.planState = 1 ∧ s.busOk = true ∧ img.fail = some (o, false) ∧ o < s.fld rPLAN_LEN
      fPLAN_LEN_LEN) ∧
    (∃ (img : HostRead) (p : PlanImg) (s : State), s.glb ≠ 0 ∧ s.planState = 1 ∧ s.busOk = true ∧ img.fail = none ∧ img.bytes.length = s.fld
      rPLAN_LEN fPLAN_LEN_LEN ∧ s.planHead img.bytes img.bytes.length = none ∧ s.planBody img.bytes = Except.ok p ∧ s.planTest p = none) ∧
    (∃ (s : State), s.glb ≠ 0 ∧ s.planState ≠ 1) ∧
    (∃ (p : PlanImg) (s : State), s.glb ≠ 0 ∧ s.held = false ∧ s.planState = 2 ∧ s.stagedPlan = some p ∧ p.params = []) ∧
    (∃ (s : State), s.glb ≠ 0 ∧ (s.held = true ∨ s.planState ≠ 2)) ∧
    (∃ (p : PlanImg) (s : State), s.glb ≠ 0 ∧ s.held = false ∧ s.planState = 3 ∧ s.activePlan = some p) ∧
    (∃ (s : State), s.glb ≠ 0 ∧ (s.held = true ∨ s.planState ≠ 3)) ∧
    (∃ (s : State), s.ready = true ∧ s.flag rPLAN_PCOMMIT fPLAN_PCOMMIT_GO = false) ∧
    (∃ (s : State), s.glb ≠ 0 ∧ s.held = false ∧ s.flag rPLAN_PCOMMIT fPLAN_PCOMMIT_GO = true ∧ s.planState ≠ 2) ∧
    (∃ (s : State), s.glb ≠ 0 ∧ (s.held = true ∨ s.flag rPLAN_PCOMMIT fPLAN_PCOMMIT_GO = false)) :=
  ⟨⟨rdy |>.setFld rPLAN_STATUS fPLAN_STATUS_STATE 1, by decide +kernel⟩,
   ⟨(⟨[], some (0, false)⟩ : HostRead), 0, busRdy |>.setFld rPLAN_STATUS fPLAN_STATUS_STATE 1 |>.setFld rPLAN_LEN fPLAN_LEN_LEN 256,
      by decide +kernel⟩,
   image0_loads,
   ⟨rdy, by decide +kernel⟩,
   ⟨plan0, rdy |>.setFld rPLAN_STATUS fPLAN_STATUS_STATE 2 |>.setSlot 0 2 (some plan0), by decide +kernel⟩,
   ⟨rdy, by decide +kernel⟩,
   ⟨plan0, rdy |>.setFld rPLAN_STATUS fPLAN_STATUS_STATE 3 |>.setSlot 0 3 (some plan0), by decide +kernel⟩,
   ⟨rdy, by decide +kernel⟩,
   ⟨rdy, by decide +kernel⟩,
   ⟨rdy |>.setFld rPLAN_PCOMMIT fPLAN_PCOMMIT_GO 1, by decide +kernel⟩,
   ⟨rdy, by decide +kernel⟩⟩

theorem test_witness_DownconversionSwaps :
    (∃ (u : Fin 20) (v : Word) (s : State), s.ready = true ∧ fget v fDDC_SWAP_CANCEL = 0 ∧ (s.ddcU u.val).swap = none ∧ s.ddcUsed u.val = true ∧
      0 < fget v fDDC_SWAP_MASK ∧ (u.val < 4 → fget v fDDC_SWAP_MASK < 2) ∧ fget v fDDC_SWAP_MASK < 2 ^ s.ddcStages u.val ∧ ((s.ddcU
      u.val).stg.getD (lowBit (fget v fDDC_SWAP_MASK)) ddcStg0).m = 0) ∧
    (∃ (u : Fin 20) (v : Word) (s : State), s.ready = true ∧ fget v fDDC_SWAP_CANCEL = 0 ∧ (s.ddcU u.val).swap ≠ none) ∧
    (∃ (u : Fin 20) (v : Word) (s : State), s.ready = true ∧ fget v fDDC_SWAP_CANCEL = 0 ∧ (s.ddcU u.val).swap = none ∧ s.ddcUsed u.val = false
      ∧ 0 < fget v fDDC_SWAP_MASK ∧ (u.val < 4 → fget v fDDC_SWAP_MASK < 2)) ∧
    (∃ (u : Fin 20) (v : Word) (w : DdcSwap) (s : State), s.ready = true ∧ fget v fDDC_SWAP_GO = 0 ∧ (s.ddcU u.val).swap = some w ∧ w.done =
      false) ∧
    (∃ (u : Fin 20) (at_ : Nat) (mask : Nat) (s : State), s.glb ≠ 0 ∧ s.held = false ∧ (s.ddcU u.val).swap = some
      { at_ := some at_, mask := mask, done := false }) ∧
    (∃ (u : Fin 20) (at_ : Nat) (mask : Nat) (s : State), s.glb ≠ 0 ∧ s.held = false ∧ (s.ddcU u.val).swap = some
      { at_ := some at_, mask := mask, done := true }) ∧
    (∃ (u : Fin 20) (s : State), s.glb ≠ 0 ∧ (s.held = true ∨ (s.ddcU u.val).swap = none)) ∧
    (∃ (u : Fin 20) (k : Fin 12) (b : Fin 2) (v : Word) (s : State), s.ready = true ∧ s.ddcBankFree u.val k.val b.val = true ∧ 2 ≤ fget v
      fDDC_COEF0_K ∧ fget v fDDC_COEF0_K ≤ 16) ∧
    (∃ (u : Fin 20) (k : Fin 12) (b : Fin 2) (s : State) (r : Fin 9), s.ready = true ∧ s.ddcBankFree u.val k.val b.val = true ∧ r ≠ 0) ∧
    (∃ (u : Fin 20) (k : Fin 12) (b : Fin 2) (s : State), s.ready = true ∧ s.ddcBankFree u.val k.val b.val = false) :=
  ⟨⟨(19 : Fin 20), (fset (0 : Word) fDDC_SWAP_MASK 1), rdy |>.setFld (rDDC_CFG 19) fDDC_CFG_USED 1 |>.setFld (rDDC_CFG 19) fDDC_CFG_STAGES 4,
      by decide +kernel⟩,
   ⟨(19 : Fin 20), (0 : Word), rdy |>.updDdc 19 (fun z => { z with swap := some ⟨none, 1, false⟩ }), by decide +kernel⟩,
   ⟨(19 : Fin 20), (fset (0 : Word) fDDC_SWAP_MASK 1), rdy, by decide +kernel⟩,
   ⟨(19 : Fin 20), (0 : Word), (⟨none, 0, false⟩ : DdcSwap), rdy |>.updDdc ↑(19 : Fin 20) (fun z =>
      { z with swap := some (⟨none, 0, false⟩ : DdcSwap) }), by decide +kernel⟩,
   ⟨(19 : Fin 20), 0, 0, rdy |>.updDdc ↑(19 : Fin 20) (fun z => { z with swap := some { at_ := some 0, mask := 0, done := false } }),
      by decide +kernel⟩,
   ⟨(19 : Fin 20), 0, 0, rdy |>.updDdc ↑(19 : Fin 20) (fun z => { z with swap := some { at_ := some 0, mask := 0, done := true } }),
      by decide +kernel⟩,
   ⟨(19 : Fin 20), rdy, by decide +kernel⟩,
   ⟨(19 : Fin 20), (11 : Fin 12), (1 : Fin 2), (fset (0 : Word) fDDC_COEF0_K 2), rdy, by decide +kernel⟩,
   ⟨(19 : Fin 20), (11 : Fin 12), (1 : Fin 2), rdy, (8 : Fin 9), by decide +kernel⟩,
   ⟨(19 : Fin 20), (11 : Fin 12), (0 : Fin 2), rdy, by decide +kernel⟩⟩

theorem test_witness_TransformTablesAndFrames :
    (∃ (n : Fin 4) (v : Word) (s : State), s.ready = true ∧ fget v fXFM_TAB_CTRL_CANCEL = 0 ∧ fget v fXFM_TAB_CTRL_GO = 0 ∧ (s.xfmU n.val).load
      = none ∧ (s.xfmU n.val).swap = none ∧ 32 ≤ fget v fXFM_TAB_CTRL_LEN ∧ fget v fXFM_TAB_CTRL_LEN ≤ 524288 ∧ fget v fXFM_TAB_CTRL_LEN = 2 ^
      (fget v fXFM_TAB_CTRL_LEN).log2) ∧
    (∃ (n : Fin 4) (v : Word) (s : State), s.ready = true ∧ fget v fXFM_TAB_CTRL_CANCEL = 0 ∧ fget v fXFM_TAB_CTRL_GO = 0 ∧ ((s.xfmU n.val).load
      ≠ none ∨ (s.xfmU n.val).swap ≠ none ∨ fget v fXFM_TAB_CTRL_LEN < 32)) ∧
    (∃ (n : Fin 4) (ws : List (BitVec 32)) (s : State), s.glb ≠ 0 ∧ (s.xfmU n.val).load = some ws.length ∧ s.xfmGang n.val = false ∧ (∀ (w :
      BitVec 32), w ∈ ws → w.toNat < 2 ^ 18)) ∧
    (∃ (n : Fin 4) (len : Nat) (s : State), s.glb ≠ 0 ∧ (s.xfmU n.val).load = some len ∧ s.xfmGang n.val = false) ∧
    (∃ (n : Fin 4) (v : Word) (s : State), s.ready = true ∧ fget v fXFM_TAB_CTRL_CANCEL = 0 ∧ fget v fXFM_TAB_CTRL_LOAD = 0 ∧ (s.xfmU
      n.val).load = none ∧ (s.xfmU n.val).swap = none ∧ (s.xfmU n.val).bank (1 - s.xfmActive n.val) ≠ []) ∧
    (∃ (n : Fin 4) (v : Word) (s : State), s.ready = true ∧ fget v fXFM_TAB_CTRL_LOAD = 0 ∧ fget v fXFM_TAB_CTRL_GO = 0 ∧ (s.xfmU n.val).swap ≠
      none) ∧
    (∃ (n : Fin 4) (at_ : Nat) (t0 : Nat) (s : State), s.glb ≠ 0 ∧ s.held = false ∧ (s.xfmU n.val).swap = some (some at_) ∧ List.find? (fun t =>
      decide (at_ ≤ t))     (List.filterMap (fun i => Option.map (fun x => x.t) (s.xfmU n.val).buf[i * s.xfmHop n.val]?) (upTo (s.xfmStarted
      n.val))) =   some t0) ∧
    (∃ (n : Fin 4) (s : State), s.glb ≠ 0 ∧ (s.held = true ∨ (s.xfmU n.val).swap = none ∨ (s.xfmU n.val).buf = [])) ∧
    (∃ (n : Fin 4) (v : Word) (s : State), s.ready = true ∧ fget v fXFM_CTRL_WSEL < 5 ∧ (∀ (k : Nat), k < 9 → fget v fXFM_CTRL_SCHED / 4 ^ k % 4
      ≠ 3) ∧ (s.xfmPcode n.val = 0 ∨ fget v fXFM_CTRL_WSEL = 4)) ∧
    (∃ (n : Fin 4) (v : Word) (s : State), s.ready = true ∧ (5 ≤ fget v fXFM_CTRL_WSEL ∨   (∃ k, k < 9 ∧ fget v fXFM_CTRL_SCHED / 4 ^ k % 4 = 3)
      ∨ s.xfmPcode n.val ≠ 0 ∧ fget v fXFM_CTRL_WSEL ≠ 4)) ∧
    (∃ (n : Fin 4) (s : State), s.glb ≠ 0 ∧ s.held = false ∧ s.flag (rXFM_CFG n.val) fXFM_CFG_USED = true ∧ 2 ^ (s.xfmLog2n n.val + s.xfmPcode
      n.val) ≤ (s.xfmU n.val).buf.length) ∧
    (∃ (n : Fin 4) (s : State), s.glb ≠ 0 ∧ (s.held = true ∨   s.flag (rXFM_CFG n.val) fXFM_CFG_USED = false ∨ (s.xfmU n.val).buf.length < 2 ^
      (s.xfmLog2n n.val + s.xfmPcode n.val))) :=
  ⟨⟨(3 : Fin 4), (fset (0 : Word) fXFM_TAB_CTRL_LEN 65536), rdy, by decide +kernel⟩,
   ⟨(3 : Fin 4), (0 : Word), rdy, by decide +kernel⟩,
   ⟨(3 : Fin 4), ([] : List (BitVec 32)), rdy |>.updXfm 3 (fun z => { z with load := some 0 }), by decide +kernel, by decide +kernel,
      by decide +kernel, by simp⟩,
   ⟨(3 : Fin 4), 0, rdy |>.updXfm ↑(3 : Fin 4) (fun z => { z with load := some 0 }), by decide +kernel⟩,
   ⟨(3 : Fin 4), (0 : Word), rdy |>.updXfm 3 (fun z => { z with bankB := [1], bankA := [1] }), by decide +kernel⟩,
   ⟨(3 : Fin 4), (0 : Word), rdy |>.updXfm 3 (fun z => { z with swap := some none }), by decide +kernel⟩,
   ⟨(3 : Fin 4), 0, 0, rdy |>.setFld (rXFM_CFG 3) fXFM_CFG_USED 1 |>.setFld (rXFM_CFG 3) fXFM_CFG_LOG2N 5 |>.updXfm 3 (fun z =>
      { z with swap := some (some 0), buf := [smp0] }), by decide +kernel⟩,
   ⟨(3 : Fin 4), rdy, by decide +kernel⟩,
   ⟨(3 : Fin 4), (0 : Word), rdy, by decide +kernel⟩,
   ⟨(3 : Fin 4), (fset (0 : Word) fXFM_CTRL_WSEL 5), rdy, by decide +kernel⟩,
   ⟨(3 : Fin 4), rdy |>.setFld (rXFM_CFG 3) fXFM_CFG_USED 1 |>.setFld (rXFM_CFG 3) fXFM_CFG_LOG2N 5 |>.updXfm 3 (fun z =>
      { z with buf := List.replicate 32 smp0 }), by decide +kernel⟩,
   ⟨(3 : Fin 4), rdy, by decide +kernel⟩⟩

theorem test_witness_DetectorsAndDensity :
    (∃ (s : State), s.ready = true) ∧
    (∃ (n : Fin 4) (s : State), s.glb ≠ 0 ∧ (s.held = true ∨ SMap.get [] s.frames (detSquare n.val) = [])) ∧
    (∃ (n : Fin 4) (s : State), s.glb ≠ 0 ∧ (s.held = true ∨ SMap.get [] s.frames (denSquare n.val) = [])) ∧
    (∃ (n : Fin 4) (f : Machine.Frm) (rest : List Machine.Frm) (s : State), s.glb ≠ 0 ∧ s.held = false ∧ SMap.get [] s.frames (detSquare n.val) = f :: rest ∧
      s.flag (rDET_CFG n.val) fDET_CFG_GANG = false ∧ s.flag (rDET_CFG n.val) fDET_CFG_PARTNER = false ∧ (s.detU n.val).iv.cfgs = [] ∧ (s.detU
      n.val).iv.on = true ∧ f.era = (s.detU n.val).iv.era ∧ fget (s.actv (rDET_CTRL n.val)) fDET_CTRL_INT_MODE = 1 ∧ intvIndex true (fget
      (s.actv (rDET_INT n.val)) fDET_INT_VALUE) (BitVec.toNat (s.actv (rDET_ALIGN n.val))) (s.detU n.val).iv.base     f.f f.t ≤   (s.detU
      n.val).iv.idx) ∧
    (∃ (n : Fin 4) (f : Machine.Frm) (rest : List Machine.Frm) (s : State), s.glb ≠ 0 ∧ s.held = false ∧ SMap.get [] s.frames (denSquare n.val) = f :: rest ∧
      s.flag (rDEN_CFG n.val) fDEN_CFG_GANG = false ∧ s.flag (rDEN_CFG n.val) fDEN_CFG_PARTNER = false ∧ (s.denU n.val).iv.cfgs = [] ∧ (s.denU
      n.val).iv.on = true ∧ f.era = (s.denU n.val).iv.era ∧ fget (s.actv (rDEN_CTRL n.val)) fDEN_CTRL_INT_MODE = 1 ∧ intvIndex true (fget
      (s.actv (rDEN_INT n.val)) fDEN_INT_VALUE) (BitVec.toNat (s.actv (rDEN_ALIGN n.val))) (s.denU n.val).iv.base     f.f f.t ≤   (s.denU
      n.val).iv.idx) ∧
    (∃ (s : State), s.glb ≠ 0 ∧ s.held = true) :=
  ⟨⟨rdy, by decide +kernel⟩,
   ⟨(3 : Fin 4), rdy, by decide +kernel⟩,
   ⟨(3 : Fin 4), rdy, by decide +kernel⟩,
   ⟨(3 : Fin 4), frm0, ([] : List Machine.Frm), rdy |>.onFrames (fun z => SMap.set [] z 31 [frm0]) |>.updDet 3 (fun z =>
      { z with iv := { z.iv with on := true } }) |>.setAct (rDET_CTRL 3) (fset 0 fDET_CTRL_INT_MODE 1), by decide +kernel⟩,
   ⟨(3 : Fin 4), frm0, ([] : List Machine.Frm), rdy |>.onFrames (fun z => SMap.set [] z 35 [frm0]) |>.updDen 3 (fun z =>
      { z with iv := { z.iv with on := true } }) |>.setAct (rDEN_CTRL 3) (fset 0 fDEN_CTRL_INT_MODE 1), by decide +kernel⟩,
   ⟨heldRdy, by decide +kernel⟩⟩

theorem test_witness_TriggerSources :
    (∃ (l : Fin 8) (s : State), s.glb ≠ 0 ∧ s.held = false ∧ (s.busL l.val).low = false) ∧
    (∃ (l : Fin 8) (s : State), s.glb ≠ 0 ∧ (s.held = true ∨ (s.busL l.val).low = true)) ∧
    (∃ (l : Fin 8) (b : Nat) (e : Nat) (rest : List (Nat × Nat)) (s : State), s.glb ≠ 0 ∧ s.held = false ∧ (s.busL l.val).drv = (b, e) :: rest)
      ∧
    (∃ (l : Fin 8) (s : State), s.glb ≠ 0 ∧ (s.held = true ∨ (s.busL l.val).drv = [])) ∧
    (∃ (n : Fin 4) (s : State), s.glb ≠ 0 ∧ s.held = false ∧ fget (s.actv (rTRG_TMR_CFG n.val)) fTRG_TMR_CFG_EN = 1) ∧
    (∃ (n : Fin 4) (s : State), s.glb ≠ 0 ∧ (s.held = true ∨ fget (s.actv (rTRG_TMR_CFG n.val)) fTRG_TMR_CFG_EN = 0)) ∧
    (∃ (s : State), s.ready = true) ∧
    (∃ (i : Fin 8) (x : Smp) (p : Nat × Option Int) (s : State), s.glb ≠ 0 ∧ s.held = false ∧ (s.ltU i.val).queue = [x] ∧ x.ok = true ∧ (s.ltU
      i.val).prev = some p ∧ (s.ltU i.val).armR = true ∧ (s.ltU i.val).pendR = none ∧ (s.ltU i.val).pendF = none ∧ (s.ltU i.val).last ≠ some
      (timeOf x.t) ∧ fget (s.actv (rTRG_LT_CFG i.val)) fTRG_LT_CFG_COND = 0 ∧ fget (s.actv (rTRG_LT_CFG i.val)) fTRG_LT_CFG_MIN_WIDTH = 0 ∧
      fgetS (s.actv (rTRG_LT_LEVEL i.val)) fTRG_LT_LEVEL_LEVEL ≤ ltValue (fget (s.actv (rTRG_LT_CFG i.val)) fTRG_LT_CFG_SIGNAL) x) ∧
    (∃ (i : Fin 8) (s : State), s.glb ≠ 0 ∧ (s.held = true ∨ (s.ltU i.val).queue = [])) ∧
    (∃ (u : Fin 4) (f : Machine.Frm) (rest : List Machine.Frm) (s : State), s.glb ≠ 0 ∧ s.held = false ∧ s.used (44 + u.val) = true ∧ SMap.get [] s.frames (44 +
      u.val) = f :: rest ∧ f.lost = false ∧ fget (s.actv (rTRG_FM_CFG u.val)) fTRG_FM_CFG_EN = 1 ∧ fget (s.actv (rTRG_FM_CFG u.val))
      fTRG_FM_CFG_COND = 0) ∧
    (∃ (u : Fin 4) (s : State), s.glb ≠ 0 ∧ s.held = false ∧ SMap.get [] s.frames (44 + u.val) ≠ [] ∧ (s.used (44 + u.val) = false ∨ fget
      (s.actv (rTRG_FM_CFG u.val)) fTRG_FM_CFG_EN = 0)) ∧
    (∃ (u : Fin 4) (s : State), s.glb ≠ 0 ∧ (s.held = true ∨ SMap.get [] s.frames (44 + u.val) = [])) :=
  ⟨⟨(7 : Fin 8), rdy, by decide +kernel⟩,
   ⟨(7 : Fin 8), heldRdy, by decide +kernel⟩,
   ⟨(7 : Fin 8), 0, 5, ([] : List (Nat × Nat)), rdy |>.updBus 7 (fun z => { z with drv := [(0, 5)] }), by decide +kernel⟩,
   ⟨(7 : Fin 8), rdy, by decide +kernel⟩,
   ⟨(3 : Fin 4), rdy |>.setAct (rTRG_TMR_CFG 3) (fset 0 fTRG_TMR_CFG_EN 1), by decide +kernel⟩,
   ⟨(3 : Fin 4), rdy, by decide +kernel⟩,
   ⟨rdy, by decide +kernel⟩,
   ⟨(7 : Fin 8), smp0, ((0, some 0) : Nat × Option Int), rdy |>.updLt 7 (fun z =>
      { z with queue := [smp0], armR := true, prev := some (0, some 0) }), by decide +kernel⟩,
   ⟨(7 : Fin 8), rdy, by decide +kernel⟩,
   ⟨(3 : Fin 4), frm0, ([] : List Machine.Frm), rdy |>.setSlot 0 3 (some { plan0 with units := [⟨47, []⟩] }) |>.onFrames (fun z => SMap.set [] z 47
      [frm0]) |>.setAct (rTRG_FM_CFG 3) (fset 0 fTRG_FM_CFG_EN 1), by decide +kernel⟩,
   ⟨(3 : Fin 4), rdy |>.onFrames (fun z => SMap.set [] z 47 [frm0]), by decide +kernel⟩,
   ⟨(3 : Fin 4), rdy, by decide +kernel⟩⟩

theorem test_witness_Qualifiers :
    (∃ (q : Fin 16) (s : State), s.glb ≠ 0 ∧ (s.held = true ∨ (s.tqU q.val).inbox = [])) ∧
    (∃ (q : Fin 16) (e : TrgEv) (rest : List TrgEv) (s : State), s.glb ≠ 0 ∧ s.held = false ∧ (s.tqU q.val).inbox = e :: rest ∧ (s.armed q.val =
      false ∨ s.tqMode q.val = 3)) ∧
    (∃ (q : Fin 16) (e : TrgEv) (rest : List TrgEv) (s : State), s.glb ≠ 0 ∧ s.held = false ∧ (s.tqU q.val).inbox = e :: rest ∧ s.armed q.val =
      true ∧ s.tqMode q.val ≠ 3 ∧ s.now16 ≤ e.t + tick16 (s.effLag q.val) ∧ (s.tqU q.val).held.length + (s.tqU q.val).memo.length < 64) ∧
    (∃ (q : Fin 16) (e : TrgEv) (rest : List TrgEv) (s : State), s.glb ≠ 0 ∧ s.held = false ∧ (s.tqU q.val).inbox = e :: rest ∧ s.armed q.val =
      true ∧ s.tqMode q.val ≠ 3 ∧ s.now16 ≤ e.t + tick16 (s.effLag q.val) ∧ 64 ≤ (s.tqU q.val).held.length + (s.tqU q.val).memo.length) ∧
    (∃ (q : Fin 16) (s : State), s.glb ≠ 0 ∧ (s.held = true ∨ s.armed q.val = false ∨ (s.tqU q.val).held = [] ∧ (s.tqU q.val).memo = [])) ∧
    (∃ (q : Fin 16) (e : TrgEv) (rest : List TrgEv) (s : State), s.glb ≠ 0 ∧ s.held = false ∧ s.armed q.val = true ∧ (s.tqU q.val).old = [] ∧
      (s.tqU q.val).held = e :: rest ∧ fget (cfgW (s.tqNow q.val)) fTRG_TQ_CFG_FUNC = 0 ∧ fget (cfgW (s.tqNow q.val)) fTRG_TQ_CFG_COUNT_N ≤ 1 ∧
      inSetA (s.tqNow q.val) e.src = true ∧ (s.tqU q.val).prev = none) ∧
    (∃ (q : Fin 16) (s : State), s.glb ≠ 0 ∧ s.held = false ∧ s.armed q.val = true ∧ s.tqMode q.val = 1 ∧ (∀ (e : TrgEv), e ∈ (s.tqU q.val).held
      → (s.tqU q.val).base + tick16 (fget (autoW (s.tqNow q.val)) fTRG_TQ_AUTO_TIMEOUT) < e.t)) ∧
    (∃ (q : Fin 16) (s : State), s.glb ≠ 0 ∧ (s.held = true ∨ s.armed q.val = false ∨ s.tqMode q.val ≠ 1)) ∧
    (∃ (q : Fin 16) (s : State), s.glb ≠ 0 ∧ s.held = false ∧ s.armed q.val = true ∧ s.tqMode q.val = 3) ∧
    (∃ (q : Fin 16) (s : State), s.glb ≠ 0 ∧ (s.held = true ∨ s.armed q.val = false ∨ s.tqMode q.val ≠ 3)) ∧
    (∃ (v : Word) (s : State), s.ready = true ∧ fget v fTRG_TQ_CFG_COUNT_N ≠ 0 ∧ fget v fTRG_TQ_CFG_MODE % 2 = 0 ∧ fget v fTRG_TQ_CFG_ARM = 0)
      :=
  ⟨⟨(15 : Fin 16), rdy, by decide +kernel⟩,
   ⟨(15 : Fin 16), (⟨0, 0, 0, false, false, 0⟩ : TrgEv), ([] : List TrgEv), rdy |>.updTq ↑(15 : Fin 16) (fun z =>
      { z with inbox := (⟨0, 0, 0, false, false, 0⟩ : TrgEv) :: ([] : List TrgEv) }), by decide +kernel⟩,
   ⟨(15 : Fin 16), (⟨0, 0, 0, false, false, 0⟩ : TrgEv), ([] : List TrgEv), rdy |>.updTq ↑(15 : Fin 16) (fun z =>
      { z with inbox := (⟨0, 0, 0, false, false, 0⟩ : TrgEv) :: ([] : List TrgEv) }) |>.setFld (rTRG_TQ_CFG (15 : Fin 16)) fTRG_TQ_CFG_STATE 1,
      by decide +kernel⟩,
   ⟨(15 : Fin 16), (⟨0, 0, 0, false, false, 0⟩ : TrgEv), ([] : List TrgEv), rdy |>.updTq 15 (fun z =>
      { z with inbox := [ev0], held := List.replicate 64 ev0 }) |>.setFld (rTRG_TQ_CFG 15) fTRG_TQ_CFG_STATE 1, by decide +kernel⟩,
   ⟨(15 : Fin 16), rdy, by decide +kernel⟩,
   ⟨(15 : Fin 16), (⟨0, 0, 0, false, false, 0⟩ : TrgEv), ([] : List TrgEv), rdy |>.setFld (rTRG_TQ_CFG 15) fTRG_TQ_CFG_STATE 1 |>.updTq 15 (fun
      z => { z with held := [ev0] }) |>.setAct (rTRG_TQ_SETA 15) 1, by decide +kernel⟩,
   ⟨(15 : Fin 16), rdy |>.setFld (rTRG_TQ_CFG 15) fTRG_TQ_CFG_STATE 1 |>.setAct (rTRG_TQ_CFG 15) (fset 0 fTRG_TQ_CFG_MODE 1),
      by decide +kernel⟩,
   ⟨(15 : Fin 16), rdy, by decide +kernel⟩,
   ⟨(15 : Fin 16), rdy |>.setFld (rTRG_TQ_CFG 15) fTRG_TQ_CFG_STATE 1 |>.setAct (rTRG_TQ_CFG 15) (fset 0 fTRG_TQ_CFG_MODE 3),
      by decide +kernel⟩,
   ⟨(15 : Fin 16), rdy, by decide +kernel⟩,
   ⟨(fset (0 : Word) fTRG_TQ_CFG_COUNT_N 1), rdy, by decide +kernel⟩⟩

theorem test_witness_AcquisitionRuns :
    (∃ (n : Fin 8) (v : Word) (s : State), s.ready = true ∧ fget v fACQ_CMD_STOP = 0 ∧ (s.auState n.val = 0 ∨ s.auState n.val = 5)) ∧
    (∃ (n : Fin 8) (v : Word) (s : State), s.ready = true ∧ fget v fACQ_CMD_STOP = 0 ∧ s.auState n.val ≠ 0 ∧ s.auState n.val ≠ 5) ∧
    (∃ (n : Fin 8) (v : Word) (s : State), s.ready = true ∧ fget v fACQ_CMD_ARM = 0 ∧ (s.auU n.val).rec_ = none) ∧
    (∃ (n : Fin 8) (v : Word) (r : AuRec) (s : State), s.ready = true ∧ fget v fACQ_CMD_ARM = 0 ∧ (s.auU n.val).rec_ = some r) ∧
    (∃ (n : Fin 8) (s : State), s.glb ≠ 0 ∧ (s.held = true ∨ SMap.get [] s.decs n.val = [])) ∧
    (∃ (n : Fin 8) (d : Dec) (rest : List Dec) (s : State), s.glb ≠ 0 ∧ s.held = false ∧ (s.auU n.val).rec_ = none ∧ s.auState n.val ≠ 4 ∧
      SMap.get [] s.decs n.val = d :: rest ∧ (s.auState n.val = 0 ∨ d.t < (s.auU n.val).since)) ∧
    (∃ (n : Fin 8) (d : Dec) (rest : List Dec) (t0 : Nat) (pre : Nat) (s : State), s.glb ≠ 0 ∧ s.held = false ∧ (s.auU n.val).rec_ = none ∧
      s.auState n.val ≠ 4 ∧ SMap.get [] s.decs n.val = d :: rest ∧ s.auState n.val ≠ 0 ∧ (s.auU n.val).since ≤ d.t ∧ s.auJudge (n.val) d.t =
      Judged.accept t0 pre ∧ (((s.auU n.val).span t0 (t0 + s.auPost n.val)).all fun x => x.ok) = true ∧ s.flag (rACQ_CFG n.val) fACQ_CFG_LOG_EN
      = false) ∧
    (∃ (n : Fin 8) (d : Dec) (rest : List Dec) (s : State), s.glb ≠ 0 ∧ s.held = false ∧ (s.auU n.val).rec_ = none ∧ s.auState n.val ≠ 4 ∧
      SMap.get [] s.decs n.val = d :: rest ∧ s.auState n.val ≠ 0 ∧ (s.auU n.val).since ≤ d.t ∧ s.auJudge (n.val) d.t = Judged.missed ∧ s.flag
      (rACQ_CFG n.val) fACQ_CFG_LOG_EN = false) ∧
    (∃ (n : Fin 8) (s : State), s.glb ≠ 0 ∧ s.held = false ∧ s.auState n.val = 1 ∧ s.auPre n.val ≤ (s.auU n.val).n - (s.auU n.val).start) ∧
    (∃ (n : Fin 8) (s : State), s.glb ≠ 0 ∧ (s.held = true ∨ s.auState n.val ≠ 1 ∨ (s.auU n.val).n - (s.auU n.val).start < s.auPre n.val)) ∧
    (∃ (n : Fin 8) (r : AuRec) (s : State), s.glb ≠ 0 ∧ s.held = false ∧ (s.auU n.val).rec_ = some r ∧ r.t0 + r.post ≤ (s.auU n.val).n) ∧
    (∃ (n : Fin 8) (s : State), s.glb ≠ 0 ∧ (s.held = true ∨ ∀ (r : AuRec), (s.auU n.val).rec_ = some r → (s.auU n.val).n < r.t0 + r.post)) ∧
    (∃ (n : Fin 8) (l : AuLast) (s : State), s.glb ≠ 0 ∧ s.held = false ∧ s.auState n.val = 4 ∧ (s.auU n.val).last = some l) ∧
    (∃ (n : Fin 8) (s : State), s.glb ≠ 0 ∧ (s.held = true ∨ s.auState n.val ≠ 4)) :=
  ⟨⟨(7 : Fin 8), (0 : Word), rdy, by decide +kernel⟩,
   ⟨(7 : Fin 8), (0 : Word), rdy |>.setFld (rACQ_CMD ↑(7 : Fin 8)) fACQ_CMD_STATE 1, by decide +kernel⟩,
   ⟨(7 : Fin 8), (0 : Word), rdy, by decide +kernel⟩,
   ⟨(7 : Fin 8), (0 : Word), aurec0, rdy |>.updAu ↑(7 : Fin 8) (fun z => { z with rec_ := some aurec0 }), by decide +kernel⟩,
   ⟨(7 : Fin 8), rdy, by decide +kernel⟩,
   ⟨(7 : Fin 8), (⟨0, false, []⟩ : Dec), ([] : List Dec), rdy |>.onDecs (fun z => SMap.set [] z 7 [dec0]), by decide +kernel⟩,
   ⟨(7 : Fin 8), (⟨0, false, []⟩ : Dec), ([] : List Dec), 0, 0, rdy |>.onDecs (fun z => SMap.set [] z 7 [dec0]) |>.setFld (rACQ_CMD 7)
      fACQ_CMD_STATE 1, by decide +kernel⟩,
   ⟨(7 : Fin 8), (⟨0, false, []⟩ : Dec), ([] : List Dec), rdy |>.onDecs (fun z => SMap.set [] z 7 [dec0]) |>.updAu 7 (fun z =>
      { z with refill := true }) |>.setFld (rACQ_CMD 7) fACQ_CMD_STATE 1, by decide +kernel⟩,
   ⟨(7 : Fin 8), rdy |>.setFld (rACQ_CMD 7) fACQ_CMD_STATE 1 |>.updAu 7 (fun z => { z with n := 2 ^ 30 }) , by decide +kernel⟩,
   ⟨(7 : Fin 8), rdy, by decide +kernel⟩,
   ⟨(7 : Fin 8), aurec0, rdy |>.updAu 7 (fun z => { z with n := 1000, rec_ := some aurec0 }) , by decide +kernel⟩,
   ⟨(7 : Fin 8), rdy, by decide +kernel⟩,
   ⟨(7 : Fin 8), (⟨0, 0, 0, 0⟩ : AuLast), rdy |>.setFld (rACQ_CMD 7) fACQ_CMD_STATE 4 |>.updAu 7 (fun z => { z with last := some ⟨0, 0, 0, 0⟩ })
      , by decide +kernel⟩,
   ⟨(7 : Fin 8), rdy, by decide +kernel⟩⟩

theorem test_witness_AcquisitionService :
    (∃ (n : Fin 8) (s : State), s.glb ≠ 0 ∧ s.held = false ∧ (s.auU n.val).log ≠ []) ∧
    (∃ (n : Fin 8) (s : State), s.glb ≠ 0 ∧ (s.held = true ∨ (s.auU n.val).log = [])) ∧
    (∃ (n : Fin 8) (s : State), s.glb ≠ 0 ∧ (s.auU n.val).refill = true ∧ s.fld (rACQ_CFG n.val) fACQ_CFG_RING_BILLETS + 2 - SMap.get 0 s.aside
      n.val ≤ s.extFree) ∧
    (∃ (n : Fin 8) (s : State), s.glb ≠ 0 ∧ ((s.auU n.val).refill = false ∨ s.extFree < s.fld (rACQ_CFG n.val) fACQ_CFG_RING_BILLETS + 2 -
      SMap.get 0 s.aside n.val)) ∧
    (∃ (s : State), s.ready = true) ∧
    (∃ (r : RRec) (rest : List RRec) (s : State), s.glb ≠ 0 ∧ s.held = false ∧ s.hoGap = false ∧ SMap.get [] s.replay 56 = r :: rest) ∧
    (∃ (s : State), s.glb ≠ 0 ∧ (s.held = true ∨ SMap.get [] s.replay 56 = [])) ∧
    (∃ (s : State), s.ready = true) :=
  ⟨⟨(7 : Fin 8), rdy |>.updAu 7 (fun z => { z with log := [[]] }), by decide +kernel⟩,
   ⟨(7 : Fin 8), rdy, by decide +kernel⟩,
   ⟨(7 : Fin 8), rdy |>.updAu ↑(7 : Fin 8) (fun z => { z with refill := true }), by decide +kernel⟩,
   ⟨(7 : Fin 8), rdy, by decide +kernel⟩,
   ⟨rdy, by decide +kernel⟩,
   ⟨rrec0, ([] : List RRec), rdy |>.onReplay (fun z => SMap.set [] z 56 [rrec0]), by decide +kernel⟩,
   ⟨rdy, by decide +kernel⟩,
   ⟨rdy, by decide +kernel⟩⟩

theorem test_witness_TurfMovesAndAlu :
    (∃ (c : Fin 32) (s : State), turfReady (c.val) s) ∧
    (∃ (c : Fin 32) (s : State), turfReady (c.val) s) ∧
    (∃ (c : Fin 32) (s : State), turfReady (c.val) s) ∧
    (∃ (c : Fin 32) (s : State), turfReady (c.val) s) ∧
    (∃ (c : Fin 32) (s : State), turfReady (c.val) s) ∧
    (∃ (c : Fin 32) (s : State), turfReady (c.val) s) ∧
    (∃ (c : Fin 32) (s : State), turfReady (c.val) s) ∧
    (∃ (i : Nat), i ≠ 2 ∧ i ≠ 3 ∧ i ≠ 4) ∧
    (∃ (i : Nat), i ≠ 1) ∧
    (∃ (v : Int) (n : Int) (k : Nat), -2 ^ 15 ≤ v ∧ v < 2 ^ 15 ∧ n = ↑k ∧ k < 16) ∧
    (∃ (v : Int) (n : Int), -2 ^ 15 ≤ v ∧ v < 2 ^ 15 ∧ 16 ≤ n) ∧
    (∃ (v : Int) (n : Int), -2 ^ 15 ≤ v ∧ v < 2 ^ 15 ∧ n ≤ -16) ∧
    (∃ (x : Core) (v : Int) (n : Int) (k : Nat), -2 ^ 15 ≤ v ∧ v < 2 ^ 15 ∧ n = -↑k ∧ 1 ≤ k ∧ k ≤ 16 ∧ x.rndMode = 0) ∧
    (∃ (x : Core) (v : Int) (n : Int) (k : Nat), -2 ^ 15 ≤ v ∧ v < 2 ^ 15 ∧ n = -↑k ∧ 1 ≤ k ∧ k ≤ 16 ∧ (x.rndMode = 1 ∨ x.rndMode = 3)) ∧
    (∃ (c : Fin 32) (d : Fin 16) (a : Fin 16) (b : Fin 16) (p : Fin 8) (q : Fin 8) (am : Fin 4) (an : Fin 4) (r : Fin 64) (imm : BitVec 16) (n :
      BitVec 5) (s : State) (i : Instr), (s.tcore c.val).st ≠ CoreSt.running ∧ i ∈   [Instr.tNop c, Instr.tLdi c d imm, Instr.tLd c d p am,
      Instr.tSt c d p am, Instr.tMov c d a, Instr.tMovcFromCr c d r,     Instr.tMovcToCr c r d, Instr.tLdc c r imm, Instr.tAdd c d a b,
      Instr.tSub c d a b, Instr.tAnd c d a b,     Instr.tOr c d a b, Instr.tXor c d a b, Instr.tAddi c d imm, Instr.tAsh c d a b, Instr.tAshi c
      d a n,     Instr.tCmp c a b, Instr.tAbs c d a, Instr.tMovm c p am q an]) :=
  ⟨⟨(31 : Fin 32), rdy |>.updTcore (↑(31 : Fin 32)) (fun z => { z with st := .running }), by unfold turfReady; decide +kernel⟩,
   ⟨(31 : Fin 32), rdy |>.updTcore (↑(31 : Fin 32)) (fun z => { z with st := .running }), by unfold turfReady; decide +kernel⟩,
   ⟨(31 : Fin 32), rdy |>.updTcore (↑(31 : Fin 32)) (fun z => { z with st := .running }), by unfold turfReady; decide +kernel⟩,
   ⟨(31 : Fin 32), rdy |>.updTcore (↑(31 : Fin 32)) (fun z => { z with st := .running }), by unfold turfReady; decide +kernel⟩,
   ⟨(31 : Fin 32), rdy |>.updTcore (↑(31 : Fin 32)) (fun z => { z with st := .running }), by unfold turfReady; decide +kernel⟩,
   ⟨(31 : Fin 32), rdy |>.updTcore (↑(31 : Fin 32)) (fun z => { z with st := .running }), by unfold turfReady; decide +kernel⟩,
   ⟨(31 : Fin 32), rdy |>.updTcore (↑(31 : Fin 32)) (fun z => { z with st := .running }), by unfold turfReady; decide +kernel⟩,
   ⟨0, by decide +kernel⟩,
   ⟨0, by decide +kernel⟩,
   ⟨0, 0, 0, by decide +kernel⟩,
   ⟨-1, 16, by decide +kernel⟩,
   ⟨-1, -16, by decide +kernel⟩,
   ⟨core0, -32768, -16, 16, by decide +kernel⟩,
   ⟨(core0.setCr 33 0xC00), 32767, -1, 1, by decide +kernel⟩,
   ⟨(31 : Fin 32), (15 : Fin 16), (15 : Fin 16), (15 : Fin 16), (7 : Fin 8), (7 : Fin 8), (3 : Fin 4), (3 : Fin 4), (63 : Fin 64), (0 : BitVec
      16), (0 : BitVec 5), rdy, (Instr.tNop 31), by decide +kernel, by simp⟩⟩

theorem test_witness_TurfAccumulators :
    (∃ (c : Fin 32) (s : State), turfReady (c.val) s) ∧
    (∃ (c : Fin 32) (s : State), turfReady (c.val) s) ∧
    (∃ (c : Fin 32) (s : State), turfReady (c.val) s) ∧
    (∃ (c : Fin 32) (s : State), turfReady (c.val) s) ∧
    (∃ (c : Fin 32) (n : BitVec 6) (s : State), turfReady (c.val) s ∧ 0 ≤ n.toInt) ∧
    (∃ (c : Fin 32) (n : BitVec 6) (s : State), turfReady (c.val) s ∧ n.toInt < 0) ∧
    (∃ (c : Fin 32) (s : State), turfReady (c.val) s) ∧
    (∃ (c : Fin 32) (s : State), turfReady (c.val) s) ∧
    (∃ (v : Int), -2 ^ 39 ≤ v ∧ v < 2 ^ 39) ∧
    (∃ (x : Core) (v : Int), 2 ^ 39 ≤ v ∧ x.srBit 9 = true) ∧
    (∃ (x : Core) (v : Int), v < -2 ^ 39 ∧ x.srBit 9 = true) ∧
    (∃ (x : Core) (v : Int), (v < -2 ^ 39 ∨ 2 ^ 39 ≤ v) ∧ x.srBit 9 = false) ∧
    (∃ (i : Nat), i ≠ 0) ∧
    (∃ (c : Fin 32) (d : Fin 16) (e : Fin 16) (a : Fin 2) (p : Fin 8) (q : Fin 8) (am : Fin 4) (an : Fin 4) (sh : Fin 25) (n : BitVec 6) (s :
      State) (i : Instr), (s.tcore c.val).st ≠ CoreSt.running ∧ i ∈   [Instr.tMpy c a d e, Instr.tMac c a d e, Instr.tMsu c a d e, Instr.tMacm c
      a p am q an, Instr.tFtap c a p am q an,     Instr.tAdda c a d sh, Instr.tClra c a, Instr.tAcp c a, Instr.tExt c d a sh, Instr.tSha c a n,
      Instr.tExpd c d e,     Instr.tExpa c d a, Instr.tBexp c d p am, Instr.tBscl c p am d]) :=
  ⟨⟨(31 : Fin 32), rdy |>.updTcore (↑(31 : Fin 32)) (fun z => { z with st := .running }), by unfold turfReady; decide +kernel⟩,
   ⟨(31 : Fin 32), rdy |>.updTcore (↑(31 : Fin 32)) (fun z => { z with st := .running }), by unfold turfReady; decide +kernel⟩,
   ⟨(31 : Fin 32), rdy |>.updTcore (↑(31 : Fin 32)) (fun z => { z with st := .running }), by unfold turfReady; decide +kernel⟩,
   ⟨(31 : Fin 32), rdy |>.updTcore (↑(31 : Fin 32)) (fun z => { z with st := .running }), by unfold turfReady; decide +kernel⟩,
   ⟨(31 : Fin 32), (0 : BitVec 6), rdy |>.updTcore (↑(31 : Fin 32)) (fun z => { z with st := .running }), by unfold turfReady; decide +kernel,
      by decide +kernel⟩,
   ⟨(31 : Fin 32), (0x20 : BitVec 6), turf31 id, by unfold turfReady; decide +kernel, by decide +kernel⟩,
   ⟨(31 : Fin 32), rdy |>.updTcore (↑(31 : Fin 32)) (fun z => { z with st := .running }), by unfold turfReady; decide +kernel⟩,
   ⟨(31 : Fin 32), rdy |>.updTcore (↑(31 : Fin 32)) (fun z => { z with st := .running }), by unfold turfReady; decide +kernel⟩,
   ⟨0, by decide +kernel⟩,
   ⟨(core0.setCr 33 0x200), 2 ^ 39, by decide +kernel⟩,
   ⟨(core0.setCr 33 0x200), -2 ^ 39 - 1, by decide +kernel⟩,
   ⟨core0, 2 ^ 39, by decide +kernel⟩,
   ⟨1, by decide +kernel⟩,
   ⟨(31 : Fin 32), (15 : Fin 16), (15 : Fin 16), (1 : Fin 2), (7 : Fin 8), (7 : Fin 8), (3 : Fin 4), (3 : Fin 4), (24 : Fin 25), (0 : BitVec 6),
      rdy, (Instr.tClra 31 1), by decide +kernel, by simp⟩⟩

theorem test_witness_TurfControlFlow :
    (∃ (c : Fin 32) (k : Fin 16) (s : State), turfReady (c.val) s ∧ k.val ≤ 10) ∧
    (∃ (c : Fin 32) (k : Fin 16) (s : State), turfReady (c.val) s ∧ 10 < k.val ∧ (∀ (q : TSend), q ∈ (s.tcore c.val).sendQ → ((s.clOut
      (tcCluster c.val) q.r).bind fun x => x.ctx) = none)) ∧
    (∃ (x : Core) (t : Nat), (∀ (l : Nat × Nat × Nat), l ∈ x.loops → l.fst ≤ t ∧ t ≤ l.snd.fst)) ∧
    (∃ (x : Core) (t : Nat) (a : List (Nat × Nat × Nat)) (b : List (Nat × Nat × Nat)) (l : Nat × Nat × Nat), x.loops = a ++ l :: b ∧ ¬l ∈ a ∧ (t
      < l.fst ∨ l.snd.fst < t) ∧ (∀ (m : Nat × Nat × Nat), m ∈ b → m.fst ≤ t ∧ t ≤ m.snd.fst)) ∧
    (∃ (c : Fin 32) (s : State), turfReady (c.val) s ∧ (s.tcore c.val).calls.length < 8) ∧
    (∃ (c : Fin 32) (s : State), turfReady (c.val) s ∧ 8 ≤ (s.tcore c.val).calls.length ∧ (s.tcore c.val).sendQ = []) ∧
    (∃ (c : Fin 32) (a : Nat) (rest : List Nat) (s : State), turfReady (c.val) s ∧ (s.tcore c.val).calls = a :: rest) ∧
    (∃ (c : Fin 32) (s : State), turfReady (c.val) s ∧ (s.tcore c.val).calls = [] ∧ (s.tcore c.val).sendQ = []) ∧
    (∃ (c : Fin 32) (s : State), turfReady (c.val) s) ∧
    (∃ (c : Fin 32) (a : Fin 16) (s : State), turfReady (c.val) s ∧ (s.tcore c.val).mature.dReg a.val ≤ 1024 ∧ (s.tcore c.val).pc < 2047) ∧
    (∃ (c : Fin 32) (a : Fin 16) (s : State), turfReady (c.val) s ∧ 1024 < (s.tcore c.val).mature.dReg a.val ∧ (s.tcore c.val).sendQ = []) ∧
    (∃ (c : Fin 32) (t : Fin 2048) (s : State), turfReady (c.val) s ∧ (s.tcore c.val).pc < t.val ∧ (s.tcore c.val).loops.length < 4) ∧
    (∃ (c : Fin 32) (t : Fin 2048) (s : State), turfReady (c.val) s ∧ (s.tcore c.val).pc < t.val ∧ (s.tcore c.val).loops.length < 4) ∧
    (∃ (c : Fin 32) (t : Fin 2048) (s : State), turfReady (c.val) s ∧ (s.tcore c.val).sendQ = [] ∧ t.val ≤ (s.tcore c.val).pc) ∧
    (∃ (c : Fin 32) (t : Fin 2048) (s : State), turfReady (c.val) s ∧ (s.tcore c.val).sendQ = [] ∧ (s.tcore c.val).pc < t.val ∧ 4 ≤ (s.tcore
      c.val).loops.length) ∧
    (∃ (c : Fin 32) (n : Nat) (d : Option Nat) (ie : Bool) (s : State), (s.tcore c.val).st = CoreSt.running ∧ (s.tcore c.val).rpt = none ∧
      (s.tcore c.val).br = some { n := n, dst := d, ie := ie } ∧ s.fld (rTC_TIMER c.val) fTC_TIMER_EN = 0 ∧ s.fld (rTC_LIMIT c.val)
      fTC_LIMIT_CYCLES = 0 ∧ 1 < n) ∧
    (∃ (c : Fin 32) (n : Nat) (d : Option Nat) (ie : Bool) (s : State) (a : Nat), (s.tcore c.val).st = CoreSt.running ∧ (s.tcore c.val).rpt =
      none ∧ (s.tcore c.val).br = some { n := n, dst := d, ie := ie } ∧ s.fld (rTC_TIMER c.val) fTC_TIMER_EN = 0 ∧ s.fld (rTC_LIMIT c.val)
      fTC_LIMIT_CYCLES = 0 ∧ n = 1 ∧ d = some a) ∧
    (∃ (c : Fin 32) (n : Nat) (d : Option Nat) (ie : Bool) (s : State), (s.tcore c.val).st = CoreSt.running ∧ (s.tcore c.val).rpt = none ∧
      (s.tcore c.val).br = some { n := n, dst := d, ie := ie } ∧ s.fld (rTC_TIMER c.val) fTC_TIMER_EN = 0 ∧ s.fld (rTC_LIMIT c.val)
      fTC_LIMIT_CYCLES = 0 ∧ (s.tcore c.val).sendQ = []) ∧
    (∃ (c : Fin 32) (n : Nat) (s : State), (s.tcore c.val).st = CoreSt.running ∧ (s.tcore c.val).rpt = some n ∧ (s.tcore c.val).br = none ∧ (∀
      (l : Nat × Nat × Nat), l ∈ (s.tcore c.val).loops → (s.tcore c.val).pc ≠ l.snd.fst ∧ (s.tcore c.val).pc + 1 ≠ l.snd.fst) ∧ s.fld (rTC_TIMER
      c.val) fTC_TIMER_EN = 0 ∧ s.fld (rTC_LIMIT c.val) fTC_LIMIT_CYCLES = 0 ∧ 1 < n) ∧
    (∃ (c : Fin 32) (n : Nat) (s : State), (s.tcore c.val).st = CoreSt.running ∧ (s.tcore c.val).rpt = some n ∧ (s.tcore c.val).br = none ∧ (∀
      (l : Nat × Nat × Nat), l ∈ (s.tcore c.val).loops → (s.tcore c.val).pc ≠ l.snd.fst ∧ (s.tcore c.val).pc + 1 ≠ l.snd.fst) ∧ s.fld (rTC_TIMER
      c.val) fTC_TIMER_EN = 0 ∧ s.fld (rTC_LIMIT c.val) fTC_LIMIT_CYCLES = 0 ∧ n = 1) ∧
    (∃ (c : Fin 32) (n : Nat) (s : State), (s.tcore c.val).st = CoreSt.running ∧ (s.tcore c.val).rpt = some n ∧ (s.tcore c.val).br = none ∧ (∀
      (l : Nat × Nat × Nat), l ∈ (s.tcore c.val).loops → (s.tcore c.val).pc ≠ l.snd.fst ∧ (s.tcore c.val).pc + 1 ≠ l.snd.fst) ∧ s.fld (rTC_TIMER
      c.val) fTC_TIMER_EN = 0 ∧ s.fld (rTC_LIMIT c.val) fTC_LIMIT_CYCLES = 0 ∧ (s.tcore c.val).sendQ = []) ∧
    (∃ (c : Fin 32) (st : Nat) (en : Nat) (sv : Nat) (rest : List (Nat × Nat × Nat)) (s : State), (s.tcore c.val).st = CoreSt.running ∧ (s.tcore
      c.val).rpt = none ∧ (s.tcore c.val).br = none ∧ (s.tcore c.val).loops = (st, en, sv) :: rest ∧ (s.tcore c.val).pc = en ∧ st ≤ en ∧ (∀ (l :
      Nat × Nat × Nat), l ∈ rest → en ≠ l.snd.fst) ∧ s.fld (rTC_TIMER c.val) fTC_TIMER_EN = 0 ∧ s.fld (rTC_LIMIT c.val) fTC_LIMIT_CYCLES = 0 ∧ 1
      < (s.tcore c.val).mature.lc) ∧
    (∃ (c : Fin 32) (st : Nat) (en : Nat) (sv : Nat) (rest : List (Nat × Nat × Nat)) (s : State), (s.tcore c.val).st = CoreSt.running ∧ (s.tcore
      c.val).rpt = none ∧ (s.tcore c.val).br = none ∧ (s.tcore c.val).loops = (st, en, sv) :: rest ∧ (s.tcore c.val).pc = en ∧ st ≤ en ∧ (∀ (l :
      Nat × Nat × Nat), l ∈ rest → en ≠ l.snd.fst) ∧ s.fld (rTC_TIMER c.val) fTC_TIMER_EN = 0 ∧ s.fld (rTC_LIMIT c.val) fTC_LIMIT_CYCLES = 0 ∧
      (s.tcore c.val).mature.lc ≤ 1) ∧
    (∃ (c : Fin 32) (st : Nat) (en : Nat) (sv : Nat) (rest : List (Nat × Nat × Nat)) (s : State), (s.tcore c.val).st = CoreSt.running ∧ (s.tcore
      c.val).rpt = none ∧ (s.tcore c.val).br = none ∧ (s.tcore c.val).loops = (st, en, sv) :: rest ∧ (s.tcore c.val).pc = en ∧ st ≤ en ∧ (∀ (l :
      Nat × Nat × Nat), l ∈ rest → en ≠ l.snd.fst) ∧ s.fld (rTC_TIMER c.val) fTC_TIMER_EN = 0 ∧ s.fld (rTC_LIMIT c.val) fTC_LIMIT_CYCLES = 0 ∧
      (s.tcore c.val).sendQ = []) ∧
    (∃ (c : Fin 32) (k : Fin 16) (t : Fin 2048) (n1 : Fin 1024) (n : Fin 32768) (s : State) (i : Instr), (s.tcore c.val).st ≠ CoreSt.running ∧ i
      ∈   [Instr.tB c k t, Instr.tCall c t, Instr.tRet c, Instr.tReti c, Instr.tRpt c n1, Instr.tRptd c k, Instr.tLoop c n t,     Instr.tLoopd c
      k t, Instr.tHalt c, Instr.tIdle c]) :=
  ⟨⟨(31 : Fin 32), (10 : Fin 16), turf31 id, by unfold turfReady; decide +kernel, by decide +kernel⟩,
   ⟨(31 : Fin 32), (15 : Fin 16), rdy |>.updTcore (↑(31 : Fin 32)) (fun z => { z with st := .running }), by unfold turfReady; decide +kernel,
      by decide +kernel⟩,
   ⟨core0, 0, by decide +kernel⟩,
   ⟨{ core0 with loops := [(3, 4, 5)] }, 0, ([] : List (Nat × Nat × Nat)), ([] : List (Nat × Nat × Nat)), ((3, 4, 5) : Nat × Nat × Nat),
      by decide +kernel⟩,
   ⟨(31 : Fin 32), rdy |>.updTcore (↑(31 : Fin 32)) (fun z => { z with st := .running }), by unfold turfReady; decide +kernel,
      by decide +kernel⟩,
   ⟨(31 : Fin 32), turf31 fun z => { z with calls := List.replicate 8 0 }, by unfold turfReady; decide +kernel, by decide +kernel⟩,
   ⟨(31 : Fin 32), 0, ([] : List Nat), rdy |>.updTcore (↑(31 : Fin 32)) (fun z => { z with st := .running }) |>.updTcore ↑(31 : Fin 32) (fun z
      => { z with calls := 0 :: ([] : List Nat) }), by unfold turfReady; decide +kernel, by decide +kernel⟩,
   ⟨(31 : Fin 32), rdy |>.updTcore (↑(31 : Fin 32)) (fun z => { z with st := .running }), by unfold turfReady; decide +kernel,
      by decide +kernel⟩,
   ⟨(31 : Fin 32), rdy |>.updTcore (↑(31 : Fin 32)) (fun z => { z with st := .running }), by unfold turfReady; decide +kernel⟩,
   ⟨(31 : Fin 32), (15 : Fin 16), rdy |>.updTcore (↑(31 : Fin 32)) (fun z => { z with st := .running }), by unfold turfReady; decide +kernel,
      by decide +kernel⟩,
   ⟨(31 : Fin 32), (15 : Fin 16), turf31 fun z => { z with d := SMap.set 0 [] 15 1025 }, by unfold turfReady; decide +kernel,
      by decide +kernel⟩,
   ⟨(31 : Fin 32), (2047 : Fin 2048), rdy |>.updTcore (↑(31 : Fin 32)) (fun z => { z with st := .running }),
      by unfold turfReady; decide +kernel, by decide +kernel⟩,
   ⟨(31 : Fin 32), (2047 : Fin 2048), rdy |>.updTcore (↑(31 : Fin 32)) (fun z => { z with st := .running }),
      by unfold turfReady; decide +kernel, by decide +kernel⟩,
   ⟨(31 : Fin 32), (0 : Fin 2048), turf31 id, by unfold turfReady; decide +kernel, by decide +kernel⟩,
   ⟨(31 : Fin 32), (2047 : Fin 2048), turf31 fun z => { z with loops := List.replicate 4 (0, 2000, 2) }, by unfold turfReady; decide +kernel,
      by decide +kernel⟩,
   ⟨(31 : Fin 32), 2, (some 5 : Option Nat), false, turf31 fun z => { z with br := some ⟨2, some 5, false⟩ }, by decide +kernel⟩,
   ⟨(31 : Fin 32), (1), (some 0), false, rdy |>.updTcore ↑(31 : Fin 32) (fun z => { z with st := CoreSt.running }) |>.updTcore ↑(31 : Fin 32)
      (fun z => { z with br := some { n := (1), dst := (some 0), ie := false } }), 0, by decide +kernel⟩,
   ⟨(31 : Fin 32), 0, (none : Option Nat), false, rdy |>.updTcore ↑(31 : Fin 32) (fun z => { z with st := CoreSt.running }) |>.updTcore ↑(31 :
      Fin 32) (fun z => { z with br := some { n := 0, dst := (none : Option Nat), ie := false } }), by decide +kernel⟩,
   ⟨(31 : Fin 32), 2, turf31 fun z => { z with rpt := some 2 }, by decide +kernel⟩,
   ⟨(31 : Fin 32), (1), rdy |>.updTcore ↑(31 : Fin 32) (fun z => { z with st := CoreSt.running }) |>.updTcore ↑(31 : Fin 32) (fun z =>
      { z with rpt := some (1) }), by decide +kernel⟩,
   ⟨(31 : Fin 32), 0, rdy |>.updTcore ↑(31 : Fin 32) (fun z => { z with st := CoreSt.running }) |>.updTcore ↑(31 : Fin 32) (fun z =>
      { z with rpt := some 0 }), by decide +kernel⟩,
   ⟨(31 : Fin 32), 3, 7, 0, ([] : List (Nat × Nat × Nat)), turf31 fun z => { z.setCr 32 2 with loops := [(3, 7, 0)], pc := 7 },
      by decide +kernel⟩,
   ⟨(31 : Fin 32), 0, 0, 0, ([] : List (Nat × Nat × Nat)), rdy |>.updTcore ↑(31 : Fin 32) (fun z => { z with st := CoreSt.running }) |>.updTcore
      ↑(31 : Fin 32) (fun z => { z with loops := (0, 0, 0) :: ([] : List (Nat × Nat × Nat)) }), by decide +kernel⟩,
   ⟨(31 : Fin 32), 0, 0, 0, ([] : List (Nat × Nat × Nat)), rdy |>.updTcore ↑(31 : Fin 32) (fun z => { z with st := CoreSt.running }) |>.updTcore
      ↑(31 : Fin 32) (fun z => { z with loops := (0, 0, 0) :: ([] : List (Nat × Nat × Nat)) }), by decide +kernel⟩,
   ⟨(31 : Fin 32), (15 : Fin 16), (2047 : Fin 2048), (1023 : Fin 1024), (32767 : Fin 32768), rdy, (Instr.tHalt 31), by decide +kernel, by simp⟩⟩

theorem test_witness_TurfLatencies :
    (∃ (c : Fin 32) (s : State), turfReady (c.val) s ∧ (s.tcore c.val).late = [] ∧ (s.tcore c.val).loops = []) ∧
    (∃ (c : Fin 32) (s : State), turfReady (c.val) s ∧ (s.tcore c.val).late = [] ∧ (s.tcore c.val).loops = []) ∧
    (∃ (c : Fin 32) (s : State), turfReady (c.val) s ∧ (s.tcore c.val).late = [] ∧ (s.tcore c.val).loops = []) :=
  ⟨⟨(31 : Fin 32), rdy |>.updTcore (↑(31 : Fin 32)) (fun z => { z with st := .running }), by unfold turfReady; decide +kernel,
      by decide +kernel⟩,
   ⟨(31 : Fin 32), rdy |>.updTcore (↑(31 : Fin 32)) (fun z => { z with st := .running }), by unfold turfReady; decide +kernel,
      by decide +kernel⟩,
   ⟨(31 : Fin 32), rdy |>.updTcore (↑(31 : Fin 32)) (fun z => { z with st := .running }), by unfold turfReady; decide +kernel,
      by decide +kernel⟩⟩

theorem test_witness_TurfRecordsAndMailbox :
    (∃ (c : Fin 32) (a : List TRec) (b : List TRec) (r : TRec) (s : State), turfReady (c.val) s ∧ (s.tcore c.val).ring = a ++ r :: b ∧ (∀ (q :
      TRec), q ∈ a → q.ret = true) ∧ r.ret = false) ∧
    (∃ (c : Fin 32) (s : State), turfReady (c.val) s ∧ (∀ (q : TRec), q ∈ (s.tcore c.val).ring → q.ret = true)) ∧
    (∃ (c : Fin 32) (r : TRec) (rest : List TRec) (s : State), turfReady (c.val) s ∧ (s.tcore c.val).ring = r :: rest ∧ r.ret = true) ∧
    (∃ (c : Fin 32) (s : State), turfReady (c.val) s ∧ (∀ (r : TRec), r ∈ (s.tcore c.val).ring.head? → r.ret = false)) ∧
    (∃ (c : Fin 32) (p : Fin 8) (r : Fin 4) (len : Nat) (s : State), turfReady (c.val) s ∧ s.clOut (tcCluster c.val) r.val ≠ none ∧ (have x :=
      (s.tcore c.val).mature; len = 32 + x.dmWord (stepPtr (x.p p.val) (x.b p.val) (x.l p.val) 12) + x.dmWord (stepPtr (x.p p.val) (x.b p.val)
      (x.l p.val) 13) * 2 ^ 16) ∧ len % 64 = 0 ∧ len ≤ 16384 ∧ (s.tcore c.val).sendQ.length < 4) ∧
    (∃ (c : Fin 32) (p : Fin 8) (r : Fin 4) (len : Nat) (s : State), turfReady (c.val) s ∧ s.clOut (tcCluster c.val) r.val ≠ none ∧ (have x :=
      (s.tcore c.val).mature; len = 32 + x.dmWord (stepPtr (x.p p.val) (x.b p.val) (x.l p.val) 12) + x.dmWord (stepPtr (x.p p.val) (x.b p.val)
      (x.l p.val) 13) * 2 ^ 16) ∧ len % 64 = 0 ∧ len ≤ 16384 ∧ 4 ≤ (s.tcore c.val).sendQ.length) ∧
    (∃ (c : Fin 32) (p : Fin 8) (r : Fin 4) (len : Nat) (s : State), turfReady (c.val) s ∧ s.clOut (tcCluster c.val) r.val ≠ none ∧ (have x :=
      (s.tcore c.val).mature; len = 32 + x.dmWord (stepPtr (x.p p.val) (x.b p.val) (x.l p.val) 12) + x.dmWord (stepPtr (x.p p.val) (x.b p.val)
      (x.l p.val) 13) * 2 ^ 16) ∧ (len % 64 ≠ 0 ∨ 16384 < len) ∧ (s.tcore c.val).sendQ = []) ∧
    (∃ (c : Fin 32) (r : Fin 4) (s : State), turfReady (c.val) s ∧ s.clOut (tcCluster c.val) r.val = none ∧ (s.tcore c.val).sendQ = []) ∧
    (∃ (c : Fin 32) (s : State), turfReady (c.val) s ∧ (s.tcore c.val).sendQ ≠ []) ∧
    (∃ (c : Fin 32) (s : State), turfReady (c.val) s) ∧
    (∃ (c : Fin 32) (s : State), turfReady (c.val) s ∧ s.flag (rTC_MBOUT_CTRL c.val) fTC_MBOUT_CTRL_FULL = false) ∧
    (∃ (c : Fin 32) (s : State), turfReady (c.val) s ∧ s.flag (rTC_MBOUT_CTRL c.val) fTC_MBOUT_CTRL_FULL = true) ∧
    (∃ (c : Fin 32) (p : Fin 8) (r : Fin 4) (d : Fin 16) (w : Fin 16) (s : State) (i : Instr), (s.tcore c.val).st ≠ CoreSt.running ∧ i ∈
      [Instr.tGetr c p, Instr.tRelr c, Instr.tSend c p r, Instr.tSwait c, Instr.tMbr c d w, Instr.tMbw c w d,     Instr.tMback c, Instr.tMbpost
      c]) :=
  ⟨⟨(31 : Fin 32), ([] : List TRec), ([] : List TRec), (⟨0, 2, false⟩ : TRec), rdy |>.updTcore (↑(31 : Fin 32)) (fun z =>
      { z with st := .running }) |>.updTcore ↑(31 : Fin 32) (fun z =>
      { z with ring := ([] : List TRec) ++ (⟨0, 2, false⟩ : TRec) :: ([] : List TRec) }), by unfold turfReady; decide +kernel,
      by decide +kernel⟩,
   ⟨(31 : Fin 32), rdy |>.updTcore (↑(31 : Fin 32)) (fun z => { z with st := .running }), by unfold turfReady; decide +kernel,
      by decide +kernel⟩,
   ⟨(31 : Fin 32), { (⟨0, 2, false⟩ : TRec) with ret := true }, ([] : List TRec), rdy |>.updTcore (↑(31 : Fin 32)) (fun z =>
      { z with st := .running }) |>.updTcore ↑(31 : Fin 32) (fun z =>
      { z with ring := ({ (⟨0, 2, false⟩ : TRec) with ret := true }) :: ([] : List TRec) }), by unfold turfReady; decide +kernel,
      by decide +kernel⟩,
   ⟨(31 : Fin 32), rdy |>.updTcore (↑(31 : Fin 32)) (fun z => { z with st := .running }), by unfold turfReady; decide +kernel,
      by decide +kernel⟩,
   ⟨(31 : Fin 32), (7 : Fin 8), (0 : Fin 4), 64, (routed [{ route0 with src := clSquare 3, dsts := [70] }]).updTcore 31 fun z =>
      { z with st := .running, dm := SMap.set 0 [] 12 32 }, by unfold turfReady; decide +kernel, by decide +kernel⟩,
   ⟨(31 : Fin 32), (7 : Fin 8), (0 : Fin 4), 64, (routed [{ route0 with src := clSquare 3, dsts := [70] }]).updTcore 31 fun z =>
      { z with st := .running, dm := SMap.set 0 [] 12 32, sendQ := List.replicate 4 ⟨0, 0, 0, 0, 64⟩ }, by unfold turfReady; decide +kernel,
      by decide +kernel⟩,
   ⟨(31 : Fin 32), (7 : Fin 8), (0 : Fin 4), 32, (routed [{ route0 with src := clSquare 3, dsts := [70] }]).updTcore 31 fun z =>
      { z with st := .running, dm := SMap.set 0 [] 13 0 }, by unfold turfReady; decide +kernel, by decide +kernel⟩,
   ⟨(31 : Fin 32), (3 : Fin 4), rdy |>.updTcore (↑(31 : Fin 32)) (fun z => { z with st := .running }), by unfold turfReady; decide +kernel,
      by decide +kernel⟩,
   ⟨(31 : Fin 32), turf31 fun z => { z with sendQ := [⟨0, 0, 0, 0, 64⟩] }, by unfold turfReady; decide +kernel, by decide +kernel⟩,
   ⟨(31 : Fin 32), rdy |>.updTcore (↑(31 : Fin 32)) (fun z => { z with st := .running }), by unfold turfReady; decide +kernel⟩,
   ⟨(31 : Fin 32), rdy |>.updTcore (↑(31 : Fin 32)) (fun z => { z with st := .running }), by unfold turfReady; decide +kernel,
      by decide +kernel⟩,
   ⟨(31 : Fin 32), rdy |>.updTcore (↑(31 : Fin 32)) (fun z => { z with st := .running }) |>.setFld (rTC_MBOUT_CTRL ↑(31 : Fin 32))
      fTC_MBOUT_CTRL_FULL 1, by unfold turfReady; decide +kernel, by decide +kernel⟩,
   ⟨(31 : Fin 32), (7 : Fin 8), (3 : Fin 4), (15 : Fin 16), (15 : Fin 16), rdy, (Instr.tSwait 31), by decide +kernel, by simp⟩⟩

theorem test_witness_TurfRuns :
    (∃ (c : Fin 32) (v : Word) (s : State), s.ready = true ∧ (s.tcore c.val).st ≠ CoreSt.halted ∧ fget v fTC_CTRL_ABORT = 0) ∧
    (∃ (c : Fin 32) (v : Word) (s : State), s.ready = true ∧ (s.tcore c.val).st ≠ CoreSt.halted ∧ fget v fTC_CTRL_RUN = 0 ∧ (∀ (q : TSend), q ∈
      (s.tcore c.val).sendQ → ((s.clOut (tcCluster c.val) q.r).bind fun x => x.ctx) = none)) ∧
    (∃ (c : Fin 32) (v : Word) (s : State), s.ready = true ∧ (s.tcore c.val).st = CoreSt.halted ∧ fget v fTC_CTRL_RUN = 0) ∧
    (∃ (s : State), s.ready = true) ∧
    (∃ (s : State), s.ready = true) ∧
    (∃ (c : Fin 32) (v : Word) (s : State), s.ready = true ∧ (s.tcore c.val).ring = [] ∧ (fget v fTC_SIN_LEN = 0 ∨ 64 ≤ fget v fTC_SIN_LEN ∧
      fget v fTC_SIN_LEN ≤ 8192 ∧ fget v fTC_SIN_LEN % 32 = 0) ∧ fget v fTC_SIN_BASE % 32 = 0 ∧ fget v fTC_SIN_BASE + fget v fTC_SIN_LEN ≤ 8192)
      ∧
    (∃ (c : Fin 32) (s : State), s.ready = true ∧ (s.tcore c.val).ring ≠ []) ∧
    (∃ (c : Fin 32) (s : State), s.ready = true ∧ s.flag (rTC_MBIN_CTRL c.val) fTC_MBIN_CTRL_FULL = false) ∧
    (∃ (c : Fin 32) (s : State), s.ready = true ∧ s.flag (rTC_MBIN_CTRL c.val) fTC_MBIN_CTRL_FULL = true) ∧
    (∃ (c : Fin 32) (s : State), s.flag (rTC_TIMER c.val) fTC_TIMER_EN = true) ∧
    (∃ (c : Fin 32) (s : State), s.flag (rTC_TIMER c.val) fTC_TIMER_EN = false) ∧
    (∃ (c : Fin 32) (s : State), (s.tcore c.val).st ≠ CoreSt.halted ∧ s.fld (rTC_LIMIT c.val) fTC_LIMIT_CYCLES ≠ 0 ∧ (s.tcore c.val).sendQ = [])
      ∧
    (∃ (c : Fin 32) (s : State), ((s.tcore c.val).st = CoreSt.halted ∨ s.fld (rTC_LIMIT c.val) fTC_LIMIT_CYCLES = 0)) ∧
    (∃ (c : Fin 32) (i : Nat) (s : State), (s.tcore c.val).irqReady = true ∧ (s.tcore c.val).calls.length < 8 ∧ i < 4 ∧ (s.tcore c.val).pending
      / 2 ^ i % 2 = 1 ∧ (∀ (j : Nat), j < i → (s.tcore c.val).pending / 2 ^ j % 2 = 0) ∧ s.fld (rTC_TIMER c.val) fTC_TIMER_EN = 0 ∧ s.fld
      (rTC_LIMIT c.val) fTC_LIMIT_CYCLES = 0) ∧
    (∃ (c : Fin 32) (s : State), (s.tcore c.val).irqReady = false) ∧
    (∃ (c : Fin 32) (s : State), (s.tcore c.val).irqReady = true ∧ 8 ≤ (s.tcore c.val).calls.length ∧ (s.tcore c.val).sendQ = []) :=
  ⟨⟨(31 : Fin 32), (0 : Word), turf31 id, by decide +kernel⟩,
   ⟨(31 : Fin 32), (0 : Word), turf31 id, by decide +kernel⟩,
   ⟨(31 : Fin 32), (0 : Word), rdy, by decide +kernel⟩,
   ⟨rdy, by decide +kernel⟩,
   ⟨rdy, by decide +kernel⟩,
   ⟨(31 : Fin 32), (0 : Word), rdy, by decide +kernel⟩,
   ⟨(31 : Fin 32), turf31 fun z => { z with ring := [⟨0, 2, false⟩] }, by decide +kernel⟩,
   ⟨(31 : Fin 32), rdy, by decide +kernel⟩,
   ⟨(31 : Fin 32), rdy |>.setFld (rTC_MBIN_CTRL ↑(31 : Fin 32)) fTC_MBIN_CTRL_FULL 1, by decide +kernel⟩,
   ⟨(31 : Fin 32), rdy |>.setFld (rTC_TIMER ↑(31 : Fin 32)) fTC_TIMER_EN 1, by decide +kernel⟩,
   ⟨(31 : Fin 32), rdy, by decide +kernel⟩,
   ⟨(31 : Fin 32), turf31 id |>.setFld (rTC_LIMIT 31) fTC_LIMIT_CYCLES 1, by decide +kernel⟩,
   ⟨(31 : Fin 32), rdy, by decide +kernel⟩,
   ⟨(31 : Fin 32), 2, turf31 fun z => ((z.setCr 33 0x1000).setCr 34 0xF).setCr 35 0x4, by decide +kernel⟩,
   ⟨(31 : Fin 32), rdy, by decide +kernel⟩,
   ⟨(31 : Fin 32), turf31 fun z => { ((z.setCr 33 0x1000).setCr 34 0xF).setCr 35 0x4 with calls := List.replicate 8 0 }, by decide +kernel⟩⟩

theorem test_witness_TurfClusters :
    (∃ (k : Fin 4) (i : Fin 8) (j : Fin 8) (rt : Route) (r : RRec) (s : State), s.clIn k.val i.val = some rt ∧ List.find? (fun x => x.route ==
      rt.num) (SMap.get [] s.replay (clSquare k.val)) = some r ∧ fget (s.rd (rTCL_IN k.val i.val)) fTCL_IN_CORES = 2 ^ j.val ∧ s.ringLen (8 *
      k.val + j.val) ≠ 0 ∧ ((r.hdr ++ r.bytes).length + 1) / 2 + (s.tcore (8 * k.val + j.val)).fill ≤ s.ringLen (8 * k.val + j.val) ∧ s.fld
      (rTC_SIN (8 * k.val + j.val)) fTC_SIN_BASE + s.ringLen (8 * k.val + j.val) ≤ 8192 ∧ (s.tcore (8 * k.val + j.val)).wait = none ∧ s.held =
      false) ∧
    (∃ (k : Fin 4) (i : Fin 8) (j : Fin 8) (rt : Route) (r : RRec) (s : State), s.clIn k.val i.val = some rt ∧ List.find? (fun x => x.route ==
      rt.num) (SMap.get [] s.replay (clSquare k.val)) = some r ∧ fget (s.rd (rTCL_IN k.val i.val)) fTCL_IN_CORES = 2 ^ j.val ∧ s.ringLen (8 *
      k.val + j.val) ≠ 0 ∧ s.ringLen (8 * k.val + j.val) < ((r.hdr ++ r.bytes).length + 1) / 2 ∧ s.held = false) ∧
    (∃ (k : Fin 4) (i : Fin 8) (j : Fin 8) (rt : Route) (r : RRec) (s : State), s.clIn k.val i.val = some rt ∧ List.find? (fun x => x.route ==
      rt.num) (SMap.get [] s.replay (clSquare k.val)) = some r ∧ fget (s.rd (rTCL_IN k.val i.val)) fTCL_IN_CORES = 2 ^ j.val ∧ ((r.hdr ++
      r.bytes).length + 1) / 2 ≤ s.ringLen (8 * k.val + j.val) ∧ s.ringLen (8 * k.val + j.val) < ((r.hdr ++ r.bytes).length + 1) / 2 + (s.tcore
      (8 * k.val + j.val)).fill) ∧
    (∃ (k : Fin 4) (i : Fin 8) (s : State), (s.held = true ∨ s.clIn k.val i.val = none ∨ SMap.get [] s.replay (clSquare k.val) = [])) ∧
    (∃ (k : Fin 4) (j : Fin 8) (q : TSend) (rest : List TSend) (rt : Route) (p : Nat) (s : State), (s.cluster k.val).out = j.val ∧ (s.tcore (8 *
      k.val + j.val)).sendQ = q :: rest ∧ s.clOut (k.val) q.r = some rt ∧ rt.dsts = [70 + p] ∧ p < 16 ∧ (s.tcore (8 * k.val + j.val)).wait =
      none ∧ s.held = false ∧ s.hoGap = false ∧ s.noCredit rt (70 + p) = false) ∧
    (∃ (k : Fin 4) (j : Fin 8) (q : TSend) (rest : List TSend) (rt : Route) (s : State), (∀ (i : Nat), i < 8 → i ≠ j.val → (s.tcore (8 * k.val +
      i)).sendQ = []) ∧ (s.tcore (8 * k.val + j.val)).sendQ = q :: rest ∧ s.clOut (k.val) q.r = some rt ∧ rt.wait = true ∧ (∃ d, d ∈ rt.dsts ∧
      s.noCredit rt d = true)) ∧
    (∃ (k : Fin 4) (s : State), (s.held = true ∨ ∀ (j : Nat), j < 8 → (s.tcore (8 * k.val + j)).sendQ = [])) :=
  ⟨⟨(3 : Fin 4), (0 : Fin 8), (7 : Fin 8), { route0 with dsts := [clSquare 3] }, { rrec0 with bytes := List.replicate 4 0 }, (routed
      [{ route0 with dsts := [clSquare 3] }]).onReplay (fun z => SMap.set [] z (clSquare 3) [{ rrec0 with bytes := List.replicate 4 0 }])
      |>.setFld (rTCL_IN 3 0) fTCL_IN_CORES 128 |>.setFld (rTC_SIN 31) fTC_SIN_LEN 2, by decide +kernel⟩,
   ⟨(3 : Fin 4), (0 : Fin 8), (7 : Fin 8), { route0 with dsts := [clSquare 3] }, { rrec0 with bytes := List.replicate 4 0 }, (routed
      [{ route0 with dsts := [clSquare 3] }]).onReplay (fun z => SMap.set [] z (clSquare 3) [{ rrec0 with bytes := List.replicate 4 0 }])
      |>.setFld (rTCL_IN 3 0) fTCL_IN_CORES 128 |>.setFld (rTC_SIN 31) fTC_SIN_LEN 1, by decide +kernel⟩,
   ⟨(3 : Fin 4), (0 : Fin 8), (7 : Fin 8), { route0 with dsts := [clSquare 3] }, { rrec0 with bytes := List.replicate 4 0 }, (routed
      [{ route0 with dsts := [clSquare 3] }]).onReplay (fun z => SMap.set [] z (clSquare 3) [{ rrec0 with bytes := List.replicate 4 0 }])
      |>.setFld (rTCL_IN 3 0) fTCL_IN_CORES 128 |>.setFld (rTC_SIN 31) fTC_SIN_LEN 2 |>.updTcore 31 (fun z =>
      { z with ring := [⟨0, 1, false⟩] }), by decide +kernel⟩,
   ⟨(3 : Fin 4), (7 : Fin 8), rdy, by decide +kernel⟩,
   ⟨(3 : Fin 4), (7 : Fin 8), (⟨0, 0, 0, 0, 2⟩ : TSend), ([] : List TSend), { route0 with src := clSquare 3, dsts := [70] }, 0, routed
      [{ route0 with src := clSquare 3, dsts := [70] }] |>.updTcore 31 (fun z => { z with sendQ := [⟨0, 0, 0, 0, 2⟩] }) |>.updCluster 3 (fun z
      => { z with out := 7 }), by decide +kernel⟩,
   ⟨(3 : Fin 4), (7 : Fin 8), (⟨0, 0, 0, 0, 2⟩ : TSend), ([] : List TSend),
      { route0 with src := clSquare 3, dsts := [70], wait := true, ctx := some 9 }, routed
      [{ route0 with src := clSquare 3, dsts := [70], wait := true, ctx := some 9 }] |>.updTcore 31 (fun z =>
      { z with sendQ := [⟨0, 0, 0, 0, 2⟩] }) |>.updCtx 9 (fun z => { z with waiting := some (0, 1) }) |>.onPorts (fun z => SMap.set ⟨[]⟩ z 0
      ⟨[{ prod0 with ctx := 9, pre := List.replicate 256 0 }]⟩), by decide +kernel⟩,
   ⟨(3 : Fin 4), rdy, by decide +kernel⟩⟩

theorem test_witness_RecordsReachTheStore :
    (∃ (p : Fin 16) (s : State), (∀ (r : Machine.Prod), r ∈ (s.port p.val).inbox → (s.ctx r.ctx).waiting ≠ none)) ∧
    (∃ (p : Fin 16) (r : Machine.Prod) (rest : List Machine.Prod) (s : State), (s.port p.val).inbox = r :: rest ∧ (s.ctx r.ctx).waiting = none ∧
      (s.ctx r.ctx).st = CtxSt.closed ∧ r.ring = []) ∧
    (∃ (p : Fin 16) (r : Machine.Prod) (rest : List Machine.Prod) (s : State), (s.port p.val).inbox = r :: rest ∧ (s.ctx r.ctx).waiting = none ∧
      (s.ctx r.ctx).st = CtxSt.draining ∧ r.ring = []) ∧
    (∃ (p : Fin 16) (r : Machine.Prod) (rest : List Machine.Prod) (b : Nat) (off : Nat) (d : Nat) (c : Ctx) (s : State), (s.port p.val).inbox =
      r :: rest ∧ s.ctx r.ctx = c ∧ c.waiting = none ∧ c.st = CtxSt.opened ∧ r.epoch = none ∧ 0 < s.extFree ∧ (r.policed = true ∨ c.rate = 0) ∧
      c.faults = [] ∧ c.tail = some (b, off) ∧ off + r.size ≤ 16384 ∧ r.ring = [] ∧ r.typ ≠ tyFault ∧ r.typ ≠ tyPad ∧ (∀ (q : CordRec), q ∈
      c.recs → q.pos + q.len ≤ c.wpos) ∧ d < 4 ∧ d ∈ c.destList ∧ (c.dest d).fin ≤ c.wpos) ∧
    (∃ (p : Fin 16) (r : Machine.Prod) (rest : List Machine.Prod) (c : Ctx) (s : State), (s.port p.val).inbox = r :: rest ∧ s.ctx r.ctx = c ∧
      c.waiting = none ∧ c.st = CtxSt.opened ∧ r.ring = [] ∧ r.policed = false ∧ c.rate ≠ 0 ∧ s.tokensNow c < r.size * 65536 ∧ r.ctx < 4096 ∧
      r.canWait = true ∧ r.size ≤ 64 * c.burst) ∧
    (∃ (p : Fin 16) (r : Machine.Prod) (rest : List Machine.Prod) (c : Ctx) (s : State), (s.port p.val).inbox = r :: rest ∧ s.ctx r.ctx = c ∧
      c.waiting = none ∧ c.st = CtxSt.opened ∧ r.ring = [] ∧ r.policed = false ∧ c.rate ≠ 0 ∧ s.tokensNow c < r.size * 65536 ∧ r.ctx < 4096 ∧
      (r.canWait = false ∨ 64 * c.burst < r.size)) ∧
    (∃ (p : Fin 16) (r : Machine.Prod) (rest : List Machine.Prod) (c : Ctx) (s : State), (s.port p.val).inbox = r :: rest ∧ s.ctx r.ctx = c ∧
      c.waiting = none ∧ c.st = CtxSt.opened ∧ (r.policed = true ∨ c.rate = 0) ∧ r.ring = [] ∧ (c.faults ≠ [] ∨ s.roomFor c r.size s.extFree =
      false) ∧ c.policy = 0) ∧
    (∃ (p : Fin 16) (r : Machine.Prod) (rest : List Machine.Prod) (c : Ctx) (s : State), (s.port p.val).inbox = r :: rest ∧ s.ctx r.ctx = c ∧
      c.waiting = none ∧ c.st = CtxSt.opened ∧ (r.policed = true ∨ c.rate = 0) ∧ r.ring = [] ∧ (c.faults ≠ [] ∨ s.roomFor c r.size s.extFree =
      false) ∧ (c.policy = 1 ∨ c.policy = 2 ∧ c.recs = [])) ∧
    (∃ (x : Fin 4096) (p : Nat) (t0 : Nat) (r : Machine.Prod) (b : Nat) (off : Nat) (s : State), s.ports = [(p, { inbox := [r] })] ∧ r.ctx =
      x.val ∧ (s.ctx x.val).waiting = some (t0, 1) ∧ (s.ctx x.val).st = CtxSt.opened ∧ 0 < s.extFree ∧ r.policed = false ∧ (s.ctx x.val).rate ≠
      0 ∧ r.size * 65536 ≤ s.tokensNow (s.ctx x.val) ∧ (s.ctx x.val).faults = [] ∧ (s.ctx x.val).tail = some (b, off) ∧ off + r.size ≤ 16384 ∧
      r.ring = []) ∧
    (∃ (x : Fin 4096) (p : Nat) (t0 : Nat) (r : Machine.Prod) (b : Nat) (off : Nat) (s : State), s.ports = [(p, { inbox := [r] })] ∧ r.ctx =
      x.val ∧ (s.ctx x.val).waiting = some (t0, 2) ∧ (s.ctx x.val).st = CtxSt.opened ∧ 0 < s.extFree ∧ r.policed = true ∧ (s.ctx x.val).faults =
      [] ∧ (s.ctx x.val).tail = some (b, off) ∧ off + r.size ≤ 16384 ∧ r.ring = []) ∧
    (∃ (x : Fin 4096) (s : State), (∀ (t0 : Nat), (s.ctx x.val).waiting ≠ some (t0, 1))) ∧
    (∃ (x : Fin 4096) (s : State), (∀ (t0 : Nat), (s.ctx x.val).waiting ≠ some (t0, 2))) ∧
    (∃ (x : Fin 4096) (s : State), (s.ctx x.val).faults = [] ∧ (s.ctx x.val).st ≠ CtxSt.draining) ∧
    (∃ (x : Fin 4096) (f : FaultRec) (b : Nat) (off : Nat) (s : State), (s.ctx x.val).faults = [f] ∧ (s.ctx x.val).st = CtxSt.opened ∧ (s.ctx
      x.val).tail = some (b, off) ∧ off + 64 ≤ 16384 ∧ 0 < s.extFree) :=
  ⟨⟨(15 : Fin 16), rdy, by decide +kernel⟩,
   ⟨(15 : Fin 16), prod0, ([] : List Machine.Prod), rdy |>.onPorts (fun z => SMap.set ⟨[]⟩ z 15 ⟨[prod0]⟩), by decide +kernel⟩,
   ⟨(15 : Fin 16), prod0, ([] : List Machine.Prod), rdy |>.onPorts (fun z => SMap.set ⟨[]⟩ z 15 ⟨[prod0]⟩) |>.updCtx 0 (fun z =>
      { z with st := .draining }), by decide +kernel⟩,
   ⟨(15 : Fin 16), prod0, ([] : List Machine.Prod), 3, 16320, 0, { octx 0 0 5 with tail := some (3, 16320) }, rdy |>.onPorts (fun z => SMap.set
      ⟨[]⟩ z 15 ⟨[prod0]⟩) |>.setCtx 0 ({ octx 0 0 5 with tail := some (3, 16320) }), by decide +kernel⟩,
   ⟨(15 : Fin 16), { prod0 with canWait := true }, ([] : List Machine.Prod), octx 0 0x100000001 5, rdy |>.onPorts (fun z => SMap.set ⟨[]⟩ z 15
      ⟨[{ prod0 with canWait := true }]⟩) |>.setCtx 0 (octx 0 0x100000001 5), by decide +kernel⟩,
   ⟨(15 : Fin 16), prod0, ([] : List Machine.Prod), octx 0 0x100000001 5, rdy |>.onPorts (fun z => SMap.set ⟨[]⟩ z 15 ⟨[prod0]⟩) |>.setCtx 0
      (octx 0 0x100000001 5), by decide +kernel⟩,
   ⟨(15 : Fin 16), prod0, ([] : List Machine.Prod), { octx 0 0 5 with faults := [⟨0, 0, 0, 0, 0, 0, none⟩] }, rdy |>.onPorts (fun z => SMap.set
      ⟨[]⟩ z 15 ⟨[prod0]⟩) |>.setCtx 0 ({ octx 0 0 5 with faults := [⟨0, 0, 0, 0, 0, 0, none⟩] }), by decide +kernel⟩,
   ⟨(15 : Fin 16), prod0, ([] : List Machine.Prod), { octx 0x40000 0 5 with faults := [⟨0, 0, 0, 0, 0, 0, none⟩] }, rdy |>.onPorts (fun z =>
      SMap.set ⟨[]⟩ z 15 ⟨[prod0]⟩) |>.setCtx 0 ({ octx 0x40000 0 5 with faults := [⟨0, 0, 0, 0, 0, 0, none⟩] }), by decide +kernel⟩,
   ⟨(4095 : Fin 4096), 0, 0, { prod0 with ctx := 4095 }, 3, 16320, { rdy with ports := [(0, ⟨[{ prod0 with ctx := 4095 }]⟩)] } |>.setCtx 4095
      { octx 0 0x100000001 5 with waiting := some (0, 1), tokens := 64 * 65536, tail := some (3, 16320) }, by decide +kernel⟩,
   ⟨(4095 : Fin 4096), 0, 0, { prod0 with ctx := 4095, policed := true }, 3, 16320,
      { rdy with ports := [(0, ⟨[{ prod0 with ctx := 4095, policed := true }]⟩)] } |>.setCtx 4095
      { octx 0 0x100000001 5 with waiting := some (0, 2), tokens := 64 * 65536, tail := some (3, 16320) }, by decide +kernel⟩,
   ⟨(4095 : Fin 4096), rdy, (fun _ h => by rw [show (rdy.ctx (4095 : Fin 4096).val).waiting = none from by decide +kernel] at h; cases h)⟩,
   ⟨(4095 : Fin 4096), rdy, (fun _ h => by rw [show (rdy.ctx (4095 : Fin 4096).val).waiting = none from by decide +kernel] at h; cases h)⟩,
   ⟨(4095 : Fin 4096), rdy, by decide +kernel⟩,
   ⟨(4095 : Fin 4096), (⟨0, 0, 0, 0, 0, 0, none⟩ : FaultRec), 0, 0, rdy |>.updCtx ↑(4095 : Fin 4096) (fun z =>
      { z with faults := [(⟨0, 0, 0, 0, 0, 0, none⟩ : FaultRec)] }) |>.updCtx ↑(4095 : Fin 4096) (fun z => { z with st := CtxSt.opened })
      |>.updCtx ↑(4095 : Fin 4096) (fun z => { z with tail := some (0, 0) }), by decide +kernel⟩⟩

theorem test_witness_WoodyardCommands :
    (∃ (s : State) (i : Instr), s.ready = true ∧ s.flag rMEM_MAP fMEM_MAP_MAP_BUSY = true ∧ i ∈ [Instr.stoTake, Instr.stoFree, Instr.stoFlush,
      Instr.stoDiscard, Instr.stoQuery]) ∧
    (∃ (x : Nat) (b : Nat) (s : State), s.ready = true ∧ s.flag rMEM_MAP fMEM_MAP_MAP_BUSY = false ∧ s.selfRefresh = false ∧ s.fld rSTO_CMD_ARG
      fSTO_CMD_ARG_CONTEXT = x ∧ s.fld rSTO_CMD_ARG fSTO_CMD_ARG_BILLET = b ∧ b < nBillets ∧ (s.billet b).used = true ∧ (s.billet b).owner = x ∧
      ((s.ctx x).exts.any fun e => e.billet == b) = true ∧ (s.billet b).writer = false ∧ s.refOf b < 255 ∧ (s.billet b).swref < 15) ∧
    (∃ (x : Nat) (b : Nat) (s : State), s.ready = true ∧ s.flag rMEM_MAP fMEM_MAP_MAP_BUSY = false ∧ s.selfRefresh = false ∧ s.fld rSTO_CMD_ARG
      fSTO_CMD_ARG_CONTEXT = x ∧ s.fld rSTO_CMD_ARG fSTO_CMD_ARG_BILLET = b ∧ b < nBillets ∧ (s.billet b).used = false) ∧
    (∃ (x : Nat) (b : Nat) (s : State), s.ready = true ∧ s.flag rMEM_MAP fMEM_MAP_MAP_BUSY = false ∧ s.selfRefresh = false ∧ s.fld rSTO_CMD_ARG
      fSTO_CMD_ARG_CONTEXT = x ∧ s.fld rSTO_CMD_ARG fSTO_CMD_ARG_BILLET = b ∧ b < nBillets ∧ (s.billet b).used = true ∧ (s.billet b).owner ≠ x)
      ∧
    (∃ (x : Nat) (b : Nat) (s : State), s.ready = true ∧ s.flag rMEM_MAP fMEM_MAP_MAP_BUSY = false ∧ s.selfRefresh = false ∧ s.fld rSTO_CMD_ARG
      fSTO_CMD_ARG_CONTEXT = x ∧ s.fld rSTO_CMD_ARG fSTO_CMD_ARG_BILLET = b ∧ b < nBillets ∧ 2 ≤ (s.billet b).swref ∧ (s.billet b).used = true ∧
      (s.billet b).hbias = false ∧ (s.billet b).switch = none) ∧
    (∃ (x : Nat) (b : Nat) (s : State), s.ready = true ∧ s.flag rMEM_MAP fMEM_MAP_MAP_BUSY = false ∧ s.selfRefresh = false ∧ s.fld rSTO_CMD_ARG
      fSTO_CMD_ARG_CONTEXT = x ∧ s.fld rSTO_CMD_ARG fSTO_CMD_ARG_BILLET = b ∧ b < nBillets ∧ (s.billet b).swref = 1 ∧ (s.billet b).used = true ∧
      (s.billet b).hbias = false ∧ (s.billet b).switch = none ∧ (s.billet b).writer = false ∧ s.closing b = false ∧ s.holders b = []) ∧
    (∃ (x : Nat) (b : Nat) (s : State), s.ready = true ∧ s.flag rMEM_MAP fMEM_MAP_MAP_BUSY = false ∧ s.selfRefresh = false ∧ s.fld rSTO_CMD_ARG
      fSTO_CMD_ARG_CONTEXT = x ∧ s.fld rSTO_CMD_ARG fSTO_CMD_ARG_BILLET = b ∧ b < nBillets ∧ (s.billet b).swref = 0) ∧
    (∃ (x : Nat) (b : Nat) (s : State) (i : Instr), s.ready = true ∧ s.flag rMEM_MAP fMEM_MAP_MAP_BUSY = false ∧ s.selfRefresh = false ∧ s.fld
      rSTO_CMD_ARG fSTO_CMD_ARG_CONTEXT = x ∧ s.fld rSTO_CMD_ARG fSTO_CMD_ARG_BILLET = b ∧ nBillets ≤ b ∧ i ∈ [Instr.stoTake, Instr.stoFree,
      Instr.stoQuery]) ∧
    (∃ (x : Nat) (b : Nat) (s : State), s.ready = true ∧ s.flag rMEM_MAP fMEM_MAP_MAP_BUSY = false ∧ s.selfRefresh = false ∧ s.fld rSTO_CMD_ARG
      fSTO_CMD_ARG_CONTEXT = x ∧ s.fld rSTO_CMD_ARG fSTO_CMD_ARG_BILLET = b ∧ (s.ctx x).st = CtxSt.opened ∧ (s.ctx x).tail = none) ∧
    (∃ (x : Nat) (b : Nat) (s : State), s.ready = true ∧ s.flag rMEM_MAP fMEM_MAP_MAP_BUSY = false ∧ s.selfRefresh = false ∧ s.fld rSTO_CMD_ARG
      fSTO_CMD_ARG_CONTEXT = x ∧ s.fld rSTO_CMD_ARG fSTO_CMD_ARG_BILLET = b ∧ (s.ctx x).st ≠ CtxSt.opened) ∧
    (∃ (x : Nat) (b : Nat) (s : State) (k : Nat) (off : Nat), s.ready = true ∧ s.flag rMEM_MAP fMEM_MAP_MAP_BUSY = false ∧ s.selfRefresh = false
      ∧ s.fld rSTO_CMD_ARG fSTO_CMD_ARG_CONTEXT = x ∧ s.fld rSTO_CMD_ARG fSTO_CMD_ARG_BILLET = b ∧ (s.ctx x).st = CtxSt.opened ∧ (s.ctx x).tail
      = some (k, off) ∧ off % 64 = 0 ∧ off < 16384) ∧
    (∃ (x : Nat) (b : Nat) (s : State), s.ready = true ∧ s.flag rMEM_MAP fMEM_MAP_MAP_BUSY = false ∧ s.selfRefresh = false ∧ s.fld rSTO_CMD_ARG
      fSTO_CMD_ARG_CONTEXT = x ∧ s.fld rSTO_CMD_ARG fSTO_CMD_ARG_BILLET = b ∧ (s.ctx x).st = CtxSt.draining ∧ (s.ctx x).dests.length = 4 +
      (s.ctx x).olds.length ∧ (∀ (o : OldDest), o ∈ (s.ctx x).olds → o.upto ≤ (s.ctx x).wpos)) ∧
    (∃ (v : Word) (x : Nat) (s : State), s.ready = true ∧ fget v fSTO_CSNAP_CONTEXT = x) ∧
    (∃ (b : Fin 1835008) (s : State), (s.billet b.val).switch = none) ∧
    (∃ (b : Fin 1835008) (s : State), (s.billet b.val).switch = some true) ∧
    (∃ (b : Fin 1835008) (s : State), (s.billet b.val).switch = some false ∧ (s.billet b.val).used = true ∧ (s.billet b.val).swref = 0 ∧
      (s.billet b.val).writer = false ∧ s.closing b.val = false ∧ s.holders b.val = []) ∧
    (∃ (x : Fin 4096) (s : State), ((s.ctx x.val).tail = none ∨ (s.ctx x.val).st ≠ CtxSt.opened)) ∧
    (∃ (x : Fin 4096) (s : State) (k : Nat) (off : Nat) (d : Nat), (s.ctx x.val).tail = some (k, off) ∧ (s.ctx x.val).st = CtxSt.opened ∧ off %
      64 = 0 ∧ off < 16384 ∧ d ∈ (s.ctx x.val).destList ∧ (s.ctx x.val).destType d = 2) ∧
    (∃ (x : Fin 4096) (s : State), s.awake = true ∧ (s.ctx x.val).st = CtxSt.closed) ∧
    (∃ (x : Fin 4096) (v : Word) (s : State), s.awake = true ∧ (s.ctx x.val).st = CtxSt.opened ∧ BitVec.toNat v % 65536 = 0) ∧
    (∃ (x : Fin 4096) (v : Word) (s : State) (d : Nat), s.awake = true ∧ (s.ctx x.val).st = CtxSt.opened ∧ 0 < BitVec.toNat v % 65536 ∧
      BitVec.toNat v % 65536 ≤ (s.ctx x.val).zcPub - (s.ctx x.val).zcRel ∧ List.find? (fun d => (s.ctx x.val).destType d == 2) (s.ctx
      x.val).destList = some d) ∧
    (∃ (x : Fin 4096) (v : Word) (s : State), s.awake = true ∧ (s.ctx x.val).st = CtxSt.opened ∧ (s.ctx x.val).zcPub - (s.ctx x.val).zcRel <
      BitVec.toNat v % 65536) ∧
    (∃ (x : Fin 4096) (s : State), s.awake = true ∧ ((s.ctx x.val).st = CtxSt.opened ∧ (s.ctx x.val).tail = none ∨ (s.ctx x.val).st =
      CtxSt.draining)) ∧
    (∃ (x : Fin 4096) (s : State) (k : Nat) (off : Nat), s.awake = true ∧ (s.ctx x.val).st = CtxSt.opened ∧ (s.ctx x.val).tail = some (k, off) ∧
      off % 64 = 0 ∧ off < 16384) ∧
    (∃ (p : Fin 16) (s : State), s.glb ≠ 0 ∧ (s.held = true ∨ s.serveNext 5 p.val = none)) ∧
    (∃ (p : Fin 16) (s : State) (x : Nat) (d : Nat) (r : CordRec), s.glb ≠ 0 ∧ s.held = false ∧ s.serveNext 5 p.val = some (x, d, r) ∧ r.typ =
      tyPad) ∧
    (∃ (p : Fin 16) (s : State) (x : Nat) (d : Nat) (r : CordRec), s.glb ≠ 0 ∧ s.held = false ∧ s.serveNext 5 p.val = some (x, d, r) ∧ r.typ ≠
      tyPad ∧ s.routesFrom (70 + p.val) = []) ∧
    (∃ (p : Fin 16) (s : State) (x : Nat) (d : Nat) (r : CordRec), s.glb ≠ 0 ∧ s.held = false ∧ s.serveNext 5 p.val = some (x, d, r) ∧ r.typ ≠
      tyPad ∧ (∀ (rt : Route), rt ∈ s.routesFrom (70 + p.val) → rt.wait = true → ∀ (q : Nat), q ∈ rt.dsts → s.branchBusy rt q = false)) ∧
    (∃ (p : Fin 16) (s : State) (x : Nat) (d : Nat) (r : CordRec) (rt : Route) (q : Nat), s.glb ≠ 0 ∧ s.serveNext 5 p.val = some (x, d, r) ∧
      r.typ ≠ tyPad ∧ rt ∈ s.routesFrom (70 + p.val) ∧ rt.wait = true ∧ q ∈ rt.dsts ∧ s.branchBusy rt q = true) :=
  ⟨⟨rdy |>.setFld rMEM_MAP fMEM_MAP_MAP_BUSY 1, (Instr.stoTake), by decide +kernel, by decide +kernel, by simp⟩,
   ⟨9, 5, rdy |>.setFld rSTO_CMD_ARG fSTO_CMD_ARG_CONTEXT 9 |>.setFld rSTO_CMD_ARG fSTO_CMD_ARG_BILLET 5 |>.setBillet 5
      { billet0 with used := true, owner := 9 } |>.setCtx 9 { octx 0 0 5 with exts := [⟨0, 5, 0, 64⟩] }, by decide +kernel⟩,
   ⟨0, 0, rdy, by decide +kernel⟩,
   ⟨9, 5, rdy |>.setFld rSTO_CMD_ARG fSTO_CMD_ARG_CONTEXT 9 |>.setFld rSTO_CMD_ARG fSTO_CMD_ARG_BILLET 5 |>.setBillet 5
      { billet0 with used := true, owner := 8 }, by decide +kernel⟩,
   ⟨9, 5, rdy |>.setFld rSTO_CMD_ARG fSTO_CMD_ARG_CONTEXT 9 |>.setFld rSTO_CMD_ARG fSTO_CMD_ARG_BILLET 5 |>.setBillet 5
      { billet0 with used := true, owner := 9, swref := 2 }, by decide +kernel⟩,
   ⟨9, 5, rdy |>.setFld rSTO_CMD_ARG fSTO_CMD_ARG_CONTEXT 9 |>.setFld rSTO_CMD_ARG fSTO_CMD_ARG_BILLET 5 |>.setBillet 5
      { billet0 with used := true, owner := 9, swref := 1 }, by decide +kernel⟩,
   ⟨0, 0, rdy, by decide +kernel⟩,
   ⟨9, nBillets, rdy |>.setFld rSTO_CMD_ARG fSTO_CMD_ARG_CONTEXT 9 |>.setFld rSTO_CMD_ARG fSTO_CMD_ARG_BILLET nBillets, Instr.stoTake,
      by decide +kernel, by decide +kernel, by decide +kernel, by decide +kernel, by decide +kernel, by decide +kernel, by simp⟩,
   ⟨0, 0, rdy |>.updCtx 0 (fun z => { z with st := CtxSt.opened }), by decide +kernel⟩,
   ⟨0, 0, rdy, by decide +kernel⟩,
   ⟨0, 0, rdy |>.updCtx 0 (fun z => { z with st := CtxSt.opened }) |>.updCtx 0 (fun z => { z with tail := some (0, 0) }), 0, 0,
      by decide +kernel⟩,
   ⟨9, 5, rdy |>.setFld rSTO_CMD_ARG fSTO_CMD_ARG_CONTEXT 9 |>.setFld rSTO_CMD_ARG fSTO_CMD_ARG_BILLET 5 |>.setCtx 9
      { octx 0 0 5 with st := .draining }, by decide +kernel⟩,
   ⟨(0 : Word), 0, rdy, by decide +kernel⟩,
   ⟨(1835007 : Fin 1835008), rdy, by decide +kernel⟩,
   ⟨(1835007 : Fin 1835008), rdy |>.setBillet 1835007 { billet0 with switch := some true }, by decide +kernel⟩,
   ⟨(1835007 : Fin 1835008), rdy |>.setBillet 1835007 { billet0 with used := true, switch := some false }, by decide +kernel⟩,
   ⟨(4095 : Fin 4096), rdy, by decide +kernel⟩,
   ⟨(4095 : Fin 4096), rdy |>.setCtx 4095 { octx 0 0 2 with tail := some (3, 16320) }, 3, 16320, 0, by decide +kernel⟩,
   ⟨(4095 : Fin 4096), rdy, by decide +kernel⟩,
   ⟨(4095 : Fin 4096), (0 : Word), rdy |>.updCtx ↑(4095 : Fin 4096) (fun z => { z with st := CtxSt.opened }), by decide +kernel⟩,
   ⟨(4095 : Fin 4096), (1 : Word), rdy |>.setCtx 4095 { octx 0 0 2 with zcPub := 1 }, 0, by decide +kernel⟩,
   ⟨(4095 : Fin 4096), (1 : Word), rdy |>.setCtx 4095 (octx 0 0 2), by decide +kernel⟩,
   ⟨(4095 : Fin 4096), rdy |>.setCtx 4095 (octx 0 0 2), by decide +kernel⟩,
   ⟨(4095 : Fin 4096), rdy |>.updCtx ↑(4095 : Fin 4096) (fun z => { z with st := CtxSt.opened }) |>.updCtx ↑(4095 : Fin 4096) (fun z =>
      { z with tail := some (0, 0) }), 0, 0, by decide +kernel⟩,
   ⟨(15 : Fin 16), rdy, by decide +kernel⟩,
   ⟨(15 : Fin 16), rdy |>.setCtx 9 { octx 0 0 125 with recs := [{ rec0 with typ := tyPad }], wpos := 64 }, 9, 0, { rec0 with typ := tyPad },
      by decide +kernel⟩,
   ⟨(15 : Fin 16), rdy |>.setCtx 9 { octx 0 0 125 with recs := [rec0], wpos := 64 }, 9, 0, rec0, by decide +kernel⟩,
   ⟨(15 : Fin 16), routed [{ route0 with src := 85, wait := true, dsts := [70] }] |>.setCtx 9 { octx 0 0 125 with recs := [rec0], wpos := 64 },
      9, 0, rec0, by decide +kernel⟩,
   ⟨(15 : Fin 16), (rdy.setSlot 0 3 (some
      { plan0 with routes := [{ route0 with src := 85, wait := true, dsts := [56] }], units := [⟨56, []⟩] })).onReplay (fun z => SMap.set [] z
      56 [rrec0]) |>.setCtx 9 { octx 0 0 125 with recs := [rec0], wpos := 64 }, 9, 0, rec0,
      { route0 with src := 85, wait := true, dsts := [56] }, 56, by decide +kernel⟩⟩

theorem test_witness_AdmissionAndDeadlines :
    (∃ (s : State) (i : Instr), s.ready = true ∧ s.flag rMEM_MAP fMEM_MAP_MAP_BUSY = true ∧ i ∈ [Instr.admOpen, Instr.admClose, Instr.admTest])
      ∧
    (∃ (e : List Word) (x : Nat) (s : State) (i : Instr), s.ready = true ∧ s.flag rMEM_MAP fMEM_MAP_MAP_BUSY = false ∧ s.selfRefresh = false ∧ e
      = List.map (fun i => s.rd (rADM_ENTRY i)) (upTo 8) ∧ x = entryFld e 0 { lo := 0, w := 12 } ∧ (entryValid e (s.flag rGLB_STATUS
      fGLB_STATUS_CXL_MODE) = false ∨ contractOk e = false) ∧ i ∈ [Instr.admOpen, Instr.admTest]) ∧
    (∃ (e : List Word) (x : Nat) (s : State) (i : Instr), s.ready = true ∧ s.flag rMEM_MAP fMEM_MAP_MAP_BUSY = false ∧ s.selfRefresh = false ∧ e
      = List.map (fun i => s.rd (rADM_ENTRY i)) (upTo 8) ∧ x = entryFld e 0 { lo := 0, w := 12 } ∧ entryValid e (s.flag rGLB_STATUS
      fGLB_STATUS_CXL_MODE) = true ∧ contractOk e = true ∧ (∀ (c : Nat × Ctx),   c ∈ s.ctxs →     c.snd.st = CtxSt.opened → c.fst ≠ x → ∀ (ch :
      Nat), ch ∈ entryChannels c.snd.entry → ¬ch ∈ entryChannels e) ∧ (s.ctx x).st ≠ CtxSt.closed ∧ i ∈ [Instr.admOpen, Instr.admTest]) ∧
    (∃ (e : List Word) (x : Nat) (s : State), s.ready = true ∧ s.flag rMEM_MAP fMEM_MAP_MAP_BUSY = false ∧ s.selfRefresh = false ∧ e = List.map
      (fun i => s.rd (rADM_ENTRY i)) (upTo 8) ∧ x = entryFld e 0 { lo := 0, w := 12 } ∧ entryValid e (s.flag rGLB_STATUS fGLB_STATUS_CXL_MODE) =
      true ∧ contractOk e = true ∧ (∀ (c : Nat × Ctx),   c ∈ s.ctxs →     c.snd.st = CtxSt.opened → c.fst ≠ x → ∀ (ch : Nat), ch ∈ entryChannels
      c.snd.entry → ¬ch ∈ entryChannels e) ∧ (s.ctx x).st = CtxSt.closed ∧ s.flag rADM_STATUS fADM_STATUS_OVERCOMMIT = true) ∧
    (∃ (e : List Word) (x : Nat) (s : State), s.ready = true ∧ s.flag rMEM_MAP fMEM_MAP_MAP_BUSY = false ∧ s.selfRefresh = false ∧ e = List.map
      (fun i => s.rd (rADM_ENTRY i)) (upTo 8) ∧ x = entryFld e 0 { lo := 0, w := 12 } ∧ entryValid e (s.flag rGLB_STATUS fGLB_STATUS_CXL_MODE) =
      true ∧ contractOk e = true ∧ (∀ (c : Nat × Ctx),   c ∈ s.ctxs →     c.snd.st = CtxSt.opened → c.fst ≠ x → ∀ (ch : Nat), ch ∈ entryChannels
      c.snd.entry → ¬ch ∈ entryChannels e) ∧ (s.ctx x).st = CtxSt.closed ∧ s.flag rADM_STATUS fADM_STATUS_OVERCOMMIT = false ∧ s.fld
      rPLAN_STATUS fPLAN_STATUS_STATE ≠ 2 ∧ s.admTest (s.admitted ++ [{ x := x, e := e, p := 0 }]) (List.map (fun x => x.x) s.admitted) = none)
      ∧
    (∃ (e : List Word) (x : Nat) (s : State) (f : AdmFail) (i : Instr), s.ready = true ∧ s.flag rMEM_MAP fMEM_MAP_MAP_BUSY = false ∧
      s.selfRefresh = false ∧ e = List.map (fun i => s.rd (rADM_ENTRY i)) (upTo 8) ∧ x = entryFld e 0 { lo := 0, w := 12 } ∧ entryValid e
      (s.flag rGLB_STATUS fGLB_STATUS_CXL_MODE) = true ∧ contractOk e = true ∧ (∀ (c : Nat × Ctx),   c ∈ s.ctxs →     c.snd.st = CtxSt.opened →
      c.fst ≠ x → ∀ (ch : Nat), ch ∈ entryChannels c.snd.entry → ¬ch ∈ entryChannels e) ∧ (s.ctx x).st = CtxSt.closed ∧ s.flag rADM_STATUS
      fADM_STATUS_OVERCOMMIT = false ∧ s.fld rPLAN_STATUS fPLAN_STATUS_STATE ≠ 2 ∧ s.admTest (s.admitted ++ [{ x := x, e := e, p := 0 }])
      (List.map (fun x => x.x) s.admitted) = some f ∧ i ∈ [Instr.admOpen, Instr.admTest]) ∧
    (∃ (x : Nat) (s : State), s.ready = true ∧ s.flag rMEM_MAP fMEM_MAP_MAP_BUSY = false ∧ s.fld rADM_ARG fADM_ARG_CONTEXT = x ∧ (s.ctx x).st =
      CtxSt.opened ∧ (s.ctx x).runtime = true) ∧
    (∃ (x : Nat) (s : State), s.ready = true ∧ s.flag rMEM_MAP fMEM_MAP_MAP_BUSY = false ∧ s.fld rADM_ARG fADM_ARG_CONTEXT = x ∧ (s.ctx x).st ≠
      CtxSt.opened) ∧
    (∃ (x : Nat) (s : State), s.ready = true ∧ s.flag rMEM_MAP fMEM_MAP_MAP_BUSY = false ∧ s.fld rADM_ARG fADM_ARG_CONTEXT = x ∧ (s.ctx x).st =
      CtxSt.opened ∧ (s.ctx x).runtime = false) ∧
    (∃ (s : State), s.ready = true) ∧
    (∃ (x : Fin 4096) (d : Fin 4) (s : State), ((s.ctx x.val).st = CtxSt.closed ∨ (s.ctx x.val).nextDue d.val = none)) ∧
    (∃ (x : Fin 4096) (d : Fin 4) (r : CordRec) (n : Nat) (s : State), (s.ctx x.val).st ≠ CtxSt.closed ∧ (s.ctx x.val).nextDue d.val = some (r,
      n) ∧ ((s.ctx x.val).miss = 0 ∨ r.typ = tyFault)) ∧
    (∃ (x : Fin 4096) (d : Fin 4) (r : CordRec) (n : Nat) (s : State), (s.ctx x.val).st ≠ CtxSt.closed ∧ (s.ctx x.val).nextDue d.val = some (r,
      n) ∧ (s.ctx x.val).miss = 1 ∧ r.typ ≠ tyFault ∧ (s.ctx x.val).destType d.val ≠ 2 ∧ (s.ctx x.val).destType d.val ≠ 4 ∧ ((s.ctx x.val).dest
      d.val).begun ≤ r.pos) :=
  ⟨⟨rdy |>.setFld rMEM_MAP fMEM_MAP_MAP_BUSY 1, (Instr.admOpen), by decide +kernel, by decide +kernel, by simp⟩,
   ⟨[0, 0, 0, 0, 0, 0, 0, 0], 0, rdy, Instr.admOpen, by decide +kernel, by decide +kernel, by decide +kernel, by decide +kernel,
      by decide +kernel, by decide +kernel, by simp⟩,
   ⟨[0x21009, 0, 0, 0x200000002, 0, 0, 0, 0], 9, rdy |>.wr (rADM_ENTRY 0) 0x21009 |>.wr (rADM_ENTRY 1) 0 |>.wr (rADM_ENTRY 2) 0 |>.wr
      (rADM_ENTRY 3) 0x200000002 |>.setCtx 9 (octx 0 0 0), Instr.admOpen, by decide +kernel, by decide +kernel, by decide +kernel,
      by decide +kernel, by decide +kernel, by decide +kernel, by decide +kernel, by decide +kernel, by decide +kernel, by simp⟩,
   ⟨[0x21009, 0, 0, 0x200000002, 0, 0, 0, 0], 9, rdy |>.wr (rADM_ENTRY 0) 0x21009 |>.wr (rADM_ENTRY 1) 0 |>.wr (rADM_ENTRY 2) 0 |>.wr
      (rADM_ENTRY 3) 0x200000002 |>.setFld rADM_STATUS fADM_STATUS_OVERCOMMIT 1, by decide +kernel⟩,
   ⟨[0x21009, 0, 0, 0x200000002, 0, 0, 0, 0], 9, rdy |>.wr (rADM_ENTRY 0) 0x21009 |>.wr (rADM_ENTRY 1) 0 |>.wr (rADM_ENTRY 2) 0 |>.wr
      (rADM_ENTRY 3) 0x200000002, by decide +kernel⟩,
   ⟨[0x1009, 8388607, 1, 0x200000002, 0, 0, 0, 0], 9, rdy |>.wr (rADM_ENTRY 0) 0x1009 |>.wr (rADM_ENTRY 1) 8388607 |>.wr (rADM_ENTRY 2) 1 |>.wr
      (rADM_ENTRY 3) 0x200000002, (((rdy |>.wr (rADM_ENTRY 0) 0x1009 |>.wr (rADM_ENTRY 1) 8388607 |>.wr (rADM_ENTRY 2) 1 |>.wr (rADM_ENTRY 3)
      0x200000002).admTest ((rdy |>.wr (rADM_ENTRY 0) 0x1009 |>.wr (rADM_ENTRY 1) 8388607 |>.wr (rADM_ENTRY 2) 1 |>.wr (rADM_ENTRY 3)
      0x200000002).admitted ++ [⟨9, ([0x1009, 8388607, 1, 0x200000002, 0, 0, 0, 0]), 0⟩]) ((rdy |>.wr (rADM_ENTRY 0) 0x1009 |>.wr (rADM_ENTRY 1)
      8388607 |>.wr (rADM_ENTRY 2) 1 |>.wr (rADM_ENTRY 3) 0x200000002).admitted.map (·.x))).getD (0, 0, 0)), Instr.admOpen, by decide +kernel,
      by decide +kernel, by decide +kernel, by decide +kernel, by decide +kernel, by decide +kernel, by decide +kernel, by decide +kernel,
      by decide +kernel, by decide +kernel, by decide +kernel, by decide +kernel, by simp⟩,
   ⟨0, rdy |>.updCtx 0 (fun z => { z with st := CtxSt.opened }) |>.updCtx 0 (fun z => { z with runtime := true }), by decide +kernel⟩,
   ⟨0, rdy, by decide +kernel⟩,
   ⟨0, rdy |>.updCtx 0 (fun z => { z with st := CtxSt.opened }), by decide +kernel⟩,
   ⟨rdy, by decide +kernel⟩,
   ⟨(4095 : Fin 4096), (3 : Fin 4), rdy, by decide +kernel⟩,
   ⟨(9 : Fin 4096), (0 : Fin 4), { rec0 with due := [some 77] }, 77, rdy |>.setCtx 9
      { octx 0 0 1 with recs := [{ rec0 with due := [some 77] }], wpos := 64 }, by decide +kernel⟩,
   ⟨(9 : Fin 4096), (0 : Fin 4), { rec0 with due := [some 77] }, 77, rdy |>.setCtx 9
      { octx 0x100000 0 1 with recs := [{ rec0 with due := [some 77] }], wpos := 64 }, by decide +kernel⟩⟩

theorem test_witness_MemoryController :
    (∃ (s : State), s.ready = true ∧ s.selfRefresh = false ∧ s.freeBillets ≠ nBillets) ∧
    (∃ (v : Word) (s : State), s.ready = true ∧ s.selfRefresh = false ∧ s.freeBillets = nBillets ∧ 6 ≤ fget v fMEM_MAP_GRAIN_LOG2 ∧ fget v
      fMEM_MAP_GRAIN_LOG2 ≤ 14) ∧
    (∃ (v : Word) (s : State), s.ready = true ∧ s.selfRefresh = false ∧ s.freeBillets = nBillets ∧ (fget v fMEM_MAP_GRAIN_LOG2 < 6 ∨ 14 < fget v
      fMEM_MAP_GRAIN_LOG2)) ∧
    (∃ (s : State), s.glb ≠ 0 ∧ s.flag rMEM_MAP fMEM_MAP_MAP_BUSY = false) ∧
    (∃ (s : State), s.glb ≠ 0 ∧ s.flag rMEM_MAP fMEM_MAP_MAP_BUSY = true) ∧
    (∃ (v : Word) (s : State), s.ready = true ∧ fget v fMEM_SCHED_WR_HIGH ≤ 56 ∧ fget v fMEM_SCHED_WR_LOW < fget v fMEM_SCHED_WR_HIGH ∧ fget v
      fMEM_SCHED_AGE_US ≠ 0) ∧
    (∃ (v : Word) (s : State), s.ready = true ∧ (56 < fget v fMEM_SCHED_WR_HIGH ∨ fget v fMEM_SCHED_WR_HIGH ≤ fget v fMEM_SCHED_WR_LOW ∨ fget v
      fMEM_SCHED_AGE_US = 0)) ∧
    (∃ (ch : Fin 32) (gs : List Granule) (s : State), (s.glb = 0 ∨ ∀ (g : Granule), g ∈ gs → (s.place379 (64 * ↑g.line)).ch ≠ ch.val)) ∧
    (∃ (ch : Fin 32) (g : Granule) (p : MemPlace) (s : State), s.glb ≠ 0 ∧ s.fld (rMEM_CH_STATUS ch.val) fMEM_CH_STATUS_POSTPONED = 0 ∧ p =
      s.place379 (64 * ↑g.line) ∧ p.ch = ch.val ∧ g.write = true) ∧
    (∃ (ch : Fin 32) (g : Granule) (p : MemPlace) (s : State), s.glb ≠ 0 ∧ s.fld (rMEM_CH_STATUS ch.val) fMEM_CH_STATUS_POSTPONED = 0 ∧ p =
      s.place379 (64 * ↑g.line) ∧ p.ch = ch.val ∧ g.write = false ∧ g.more = 0 ∧ s.lineErr ↑g.line % 4 = 0) ∧
    (∃ (ch : Fin 32) (g : Granule) (p : MemPlace) (s : State), s.glb ≠ 0 ∧ s.fld (rMEM_CH_STATUS ch.val) fMEM_CH_STATUS_POSTPONED = 0 ∧ p =
      s.place379 (64 * ↑g.line) ∧ p.ch = ch.val ∧ g.write = false ∧ g.more = 0 ∧ s.lineErr ↑g.line / 2 % 2 = 0) ∧
    (∃ (ch : Fin 32) (g : Granule) (h : Granule) (p : MemPlace) (q : MemPlace) (s : State) (l : List Granule), s.glb ≠ 0 ∧ s.fld (rMEM_CH_STATUS
      ch.val) fMEM_CH_STATUS_POSTPONED = 0 ∧ p = s.place379 (64 * ↑g.line) ∧ q = s.place379 (64 * ↑h.line) ∧ p.ch = ch.val ∧ q.ch = ch.val ∧
      g.write = false ∧ h.write = false ∧ s.rowOpen g = false ∧ s.rowOpen h = false ∧ (s.promoted g = false ∧ s.promoted h = false ∧ (g.cls <
      h.cls ∨ g.cls = h.cls ∧ g.cls < 2 ∧ g.due < h.due) ∨   s.promoted g = true ∧ (s.promoted h = false ∨ g.since < h.since)) ∧ l ∈ [[g, h],
      [h, g]]) ∧
    (∃ (s : State), s.glb ≠ 0) ∧
    (∃ (s : State), s.glb ≠ 0 ∧ s.selfRefresh = true) ∧
    (∃ (ch : Fin 32) (s : State) (w : Bool), s.glb ≠ 0 ∧ s.selfRefresh = false ∧ (s.dieHot ch.val = true ∨   w = false ∧     (s.fld
      (rMEM_CH_STATUS ch.val) fMEM_CH_STATUS_POSTPONED = 0 ∨       s.fld (rMEM_CH_STATUS ch.val) fMEM_CH_STATUS_POSTPONED < s.fld rMEM_REFRESH
      fMEM_REFRESH_POSTPONE_MAX))) ∧
    (∃ (ch : Fin 32) (s : State), s.glb ≠ 0 ∧ s.selfRefresh = false ∧ s.dieHot ch.val = false ∧ s.fld (rMEM_CH_STATUS ch.val)
      fMEM_CH_STATUS_POSTPONED < s.fld rMEM_REFRESH fMEM_REFRESH_POSTPONE_MAX) ∧
    (∃ (ch : Fin 32) (s : State) (w : Bool), s.glb ≠ 0 ∧ s.selfRefresh = false ∧ s.dieHot ch.val = false ∧ (w = true ∨ s.fld (rMEM_CH_STATUS
      ch.val) fMEM_CH_STATUS_POSTPONED ≠ 0) ∧ s.fld rMEM_REFRESH fMEM_REFRESH_POSTPONE_MAX ≤ s.fld (rMEM_CH_STATUS ch.val)
      fMEM_CH_STATUS_POSTPONED) ∧
    (∃ (ch : Fin 32) (s : State), s.glb ≠ 0 ∧ s.selfRefresh = false ∧ s.fld (rMEM_CH_STATUS ch.val) fMEM_CH_STATUS_POSTPONED = 0 ∧ s.flag
      (rMEM_CH_STATUS ch.val) fMEM_CH_STATUS_FAILED = false ∧ SMap.get 0 s.mem.fails ch.val < 2) ∧
    (∃ (ch : Fin 32) (s : State), s.glb ≠ 0 ∧ s.selfRefresh = false ∧ s.fld (rMEM_CH_STATUS ch.val) fMEM_CH_STATUS_POSTPONED = 0 ∧ s.flag
      (rMEM_CH_STATUS ch.val) fMEM_CH_STATUS_FAILED = false ∧ 2 ≤ SMap.get 0 s.mem.fails ch.val) ∧
    (∃ (ch : Fin 32) (s : State), s.glb ≠ 0 ∧ (s.selfRefresh = true ∨   s.fld (rMEM_CH_STATUS ch.val) fMEM_CH_STATUS_POSTPONED ≠ 0 ∨ s.flag
      (rMEM_CH_STATUS ch.val) fMEM_CH_STATUS_FAILED = true)) ∧
    (∃ (s : State), s.glb ≠ 0 ∧ (s.flag rMEM_SCRUB fMEM_SCRUB_EN = false ∨ s.selfRefresh = true)) ∧
    (∃ (s : State), s.glb ≠ 0 ∧ s.flag rMEM_SCRUB fMEM_SCRUB_EN = true ∧ s.selfRefresh = false ∧ s.lineErr s.mem.scrub % 4 = 0 ∧ s.mem.scrub + 1
      < 469762048) ∧
    (∃ (s : State), s.glb ≠ 0 ∧ s.flag rMEM_SCRUB fMEM_SCRUB_EN = true ∧ s.selfRefresh = false ∧ s.lineErr s.mem.scrub % 4 = 0 ∧ s.mem.scrub + 1
      = 469762048) ∧
    (∃ (s : State), s.glb ≠ 0 ∧ s.flag rMEM_SCRUB fMEM_SCRUB_EN = true ∧ s.selfRefresh = false ∧ s.mem.scrub + 1 < 469762048 ∧ (s.billet (64 *
      s.mem.scrub / 16384)).used = false) :=
  ⟨⟨rdy |>.setBillet 5 { billet0 with used := true } |>.setCtx 9 { octx 0 0 5 with held := 1 }, by decide +kernel⟩,
   ⟨(fset (0 : Word) fMEM_MAP_GRAIN_LOG2 14), rdy, by decide +kernel⟩,
   ⟨(0 : Word), rdy, by decide +kernel⟩,
   ⟨rdy, by decide +kernel⟩,
   ⟨rdy |>.setFld rMEM_MAP fMEM_MAP_MAP_BUSY 1, by decide +kernel⟩,
   ⟨(fset (fset (fset (0 : Word) fMEM_SCHED_AGE_US 1) fMEM_SCHED_WR_HIGH 56) fMEM_SCHED_WR_LOW 55), rdy, by decide +kernel⟩,
   ⟨(0 : Word), rdy, by decide +kernel⟩,
   ⟨(31 : Fin 32), ([] : List Granule), rdy, by decide +kernel⟩,
   ⟨(0 : Fin 32), (⟨0, 0, true, 9, 0, 5, 0⟩ : Granule), (⟨0, 0, 0, 0, 0⟩ : MemPlace), rdy, by decide +kernel⟩,
   ⟨(0 : Fin 32), (⟨0, 0, false, 9, 0, 5, 0⟩ : Granule), (⟨0, 0, 0, 0, 0⟩ : MemPlace), rdy, by decide +kernel⟩,
   ⟨(0 : Fin 32), (⟨0, 0, false, 9, 0, 5, 0⟩ : Granule), (⟨0, 0, 0, 0, 0⟩ : MemPlace), rdy, by decide +kernel⟩,
   ⟨(0 : Fin 32), (⟨0, 0, false, 9, 0, 5, 0⟩ : Granule), (⟨0, 0, false, 9, 1, 5, 0⟩ : Granule), (⟨0, 0, 0, 0, 0⟩ : MemPlace), (⟨0, 0, 0, 0, 0⟩ :
      MemPlace), rdy, [(⟨0, 0, false, 9, 1, 5, 0⟩ : Granule), (⟨0, 0, false, 9, 0, 5, 0⟩ : Granule)], by decide +kernel⟩,
   ⟨rdy, by decide +kernel⟩,
   ⟨rdy |>.setFld rPWR_CTRL fPWR_CTRL_SR 1, by decide +kernel⟩,
   ⟨(31 : Fin 32), rdy, false, by decide +kernel⟩,
   ⟨(31 : Fin 32), rdy, by decide +kernel⟩,
   ⟨(31 : Fin 32), rdy |>.setFld (rMEM_CH_STATUS 31) fMEM_CH_STATUS_POSTPONED 8, true, by decide +kernel⟩,
   ⟨(31 : Fin 32), rdy, by decide +kernel⟩,
   ⟨(31 : Fin 32), rdy |>.onMem (fun z => { z with fails := SMap.set 0 [] 31 2 }), by decide +kernel⟩,
   ⟨(31 : Fin 32), rdy |>.setFld rPWR_CTRL fPWR_CTRL_SR 1, by decide +kernel⟩,
   ⟨rdy |>.setFld rMEM_SCRUB fMEM_SCRUB_EN 0, by decide +kernel⟩,
   ⟨rdy, by decide +kernel⟩,
   ⟨rdy |>.setFld rMEM_SCRUB fMEM_SCRUB_EN 1 |>.onMem (fun z => { z with scrub := 469762047 }), by decide +kernel⟩,
   ⟨rdy, by decide +kernel⟩⟩

theorem test_witness_CodecUnits :
    (∃ (u : Fin 8) (v : Word) (s : State), s.ready = true ∧ (¬fget v fCMP_STREAM_M ∈ [4, 6, 8, 10] ∨ fget v fCMP_STREAM_PRED = 3 ∨ s.mBreaks
      (u.val) (fget v fCMP_STREAM_M) = true)) ∧
    (∃ (u : Fin 8) (v : Word) (s : State), s.ready = true ∧ fget v fCMP_STREAM_M ∈ [4, 6, 8, 10] ∧ fget v fCMP_STREAM_PRED ≠ 3 ∧ s.mBreaks
      (u.val) (fget v fCMP_STREAM_M) = false ∧ s.cmpEncodes u.val = false) ∧
    (∃ (u : Fin 8) (v : Word) (s : State), s.ready = true ∧ fget v fCMP_STREAM_M ∈ [4, 6, 8, 10] ∧ fget v fCMP_STREAM_PRED ≠ 3 ∧ s.mBreaks
      (u.val) (fget v fCMP_STREAM_M) = false ∧ s.cmpEncodes u.val = true ∧ (s.cmpU u.val).queue = []) ∧
    (∃ (u : Fin 8) (s : State), (s.glb = 0 ∨ s.held = true ∨ (s.cmpU u.val).queue = [])) ∧
    (∃ (u : Fin 8) (n : Nat) (fmt : Nat) (s : State), s.glb ≠ 0 ∧ s.held = false ∧ (s.cmpU u.val).rec_ = none ∧ n = s.blockSamples (u.val) fmt ∧
      n ≤ (s.cmpU u.val).queue.length ∧ (∀ (x : Smp), x ∈ List.take n (s.cmpU u.val).queue → x.ok = true ∧ x.fmt = fmt) ∧ 1 < s.recBlocks
      (u.val) (s.streamCodec (u.val) fmt)) ∧
    (∃ (u : Fin 8) (s : State), (s.glb = 0 ∨ s.held = true ∨ s.stalls (cmpSquare u.val) = true ∨ SMap.get [] s.replay (cmpSquare u.val) = [])) ∧
    (∃ (u : Fin 8) (r : RRec) (rest : List RRec) (s : State), s.glb ≠ 0 ∧ s.held = false ∧ s.stalls (cmpSquare u.val) = false ∧ SMap.get []
      s.replay (cmpSquare u.val) = r :: rest ∧ s.flag (rCMP_CFG u.val) fCMP_CFG_USED = true ∧ s.flag (rCMP_CFG u.val) fCMP_CFG_DIR = true ∧
      r.typ ≠ 4) ∧
    (∃ (u : Fin 8) (r : RRec) (rest : List RRec) (c : Codec) (n : Nat) (coded : Nat) (bad : Bool) (s : State), s.glb ≠ 0 ∧ s.held = false ∧
      s.stalls (cmpSquare u.val) = false ∧ SMap.get [] s.replay (cmpSquare u.val) = r :: rest ∧ s.flag (rCMP_CFG u.val) fCMP_CFG_USED = true ∧
      s.flag (rCMP_CFG u.val) fCMP_CFG_DIR = true ∧ r.typ = 4 ∧ readPreamble (s.fromCnv r.ctx) (List.take 32 r.bytes) = (c, n, coded, bad)) ∧
    (∃ (u : Fin 8) (v : Word) (s : State), s.ready = true ∧ fget v fCMP_JOB_CTRL_ABORT = 0 ∧ fget v fCMP_JOB_CTRL_RESUME = 0 ∧ (s.jobState u.val
      ≠ 0 ∨ s.flag (rCMP_CFG u.val) fCMP_CFG_USED = true)) ∧
    (∃ (u : Fin 8) (v : Word) (s : State), s.ready = true ∧ fget v fCMP_JOB_CTRL_ABORT = 0 ∧ fget v fCMP_JOB_CTRL_RESUME = 0 ∧ s.jobState u.val
      = 0 ∧ s.flag (rCMP_CFG u.val) fCMP_CFG_USED = false ∧ s.flag (rCMP_JOB_MODE u.val) fCMP_JOB_MODE_DIR = false ∧ s.flag (rCMP_JOB_MODE
      u.val) fCMP_JOB_MODE_MODE = false ∧ (s.jobCodec u.val).fmt ≠ 3 ∧ (s.jobCodec u.val).pred ≠ 3 ∧ (s.jobCodec u.val).m ∈ [4, 6, 8, 10] ∧
      s.fld (rCMP_JOB_LEN u.val) fCMP_JOB_LEN_DST_LEN % 64 = 0 ∧ s.fld (rCMP_JOB_LEN u.val) fCMP_JOB_LEN_SRC_LEN % compBytes (s.jobCodec
      u.val).fmt = 0 ∧ 32 +     ceilDiv (s.fld (rCMP_JOB_LEN u.val) fCMP_JOB_LEN_SRC_LEN / compBytes (s.jobCodec u.val).fmt) 64 *       (1 + 8 *
      (s.jobCodec u.val).m) ≤   s.fld (rCMP_JOB_LEN u.val) fCMP_JOB_LEN_DST_LEN ∧ s.busOk = true) ∧
    (∃ (u : Fin 8) (s : State), s.glb ≠ 0 ∧ (s.cmpU u.val).job = none) ∧
    (∃ (u : Fin 8) (j : CmpJob) (s : State), s.glb ≠ 0 ∧ (s.cmpU u.val).job = some j ∧ j.dec = false ∧ s.jobState u.val = 1 ∧ s.fld
      (rCMP_JOB_COUNT u.val) fCMP_JOB_COUNT_IN_DONE < j.srcLen) ∧
    (∃ (u : Fin 8) (j : CmpJob) (inn : Nat) (out : Nat) (n : Nat) (len : Nat) (s : State), s.glb ≠ 0 ∧ (s.cmpU u.val).job = some j ∧ j.dec =
      false ∧ s.jobState u.val = 1 ∧ s.busOk = true ∧ j.cfg.less = false ∧ inn = s.fld (rCMP_JOB_COUNT u.val) fCMP_JOB_COUNT_IN_DONE ∧ out =
      s.fld (rCMP_JOB_COUNT u.val) fCMP_JOB_COUNT_OUT_DONE ∧ inn < j.srcLen ∧ n = min (j.srcLen - inn) (64 * compBytes j.cfg.fmt) ∧ len =
      j.pre.length + 1 + 8 * j.cfg.m ∧ out + len ≤ j.dstLen) ∧
    (∃ (u : Fin 8) (j : CmpJob) (inn : Nat) (out : Nat) (n : Nat) (len : Nat) (s : State), s.glb ≠ 0 ∧ (s.cmpU u.val).job = some j ∧ j.dec =
      false ∧ s.jobState u.val = 1 ∧ s.busOk = true ∧ j.cfg.less = false ∧ inn = s.fld (rCMP_JOB_COUNT u.val) fCMP_JOB_COUNT_IN_DONE ∧ out =
      s.fld (rCMP_JOB_COUNT u.val) fCMP_JOB_COUNT_OUT_DONE ∧ inn < j.srcLen ∧ n = min (j.srcLen - inn) (64 * compBytes j.cfg.fmt) ∧ len =
      j.pre.length + 1 + 8 * j.cfg.m ∧ j.dstLen < out + len) ∧
    (∃ (u : Fin 8) (v : Word) (s : State) (j : CmpJob), s.ready = true ∧ fget v fCMP_JOB_CTRL_ABORT = 0 ∧ fget v fCMP_JOB_CTRL_GO = 0 ∧ (s.cmpU
      u.val).job = some j ∧ s.jobState u.val = 2) ∧
    (∃ (u : Fin 8) (v : Word) (s : State), s.ready = true ∧ fget v fCMP_JOB_CTRL_ABORT = 0 ∧ fget v fCMP_JOB_CTRL_GO = 0 ∧ ((s.cmpU u.val).job =
      none ∨ s.jobState u.val ≠ 2)) ∧
    (∃ (u : Fin 8) (v : Word) (s : State), s.ready = true ∧ fget v fCMP_JOB_CTRL_RESUME = 0 ∧ fget v fCMP_JOB_CTRL_GO = 0 ∧ s.jobState u.val =
      0) ∧
    (∃ (u : Fin 8) (v : Word) (s : State), s.ready = true ∧ fget v fCMP_JOB_CTRL_RESUME = 0 ∧ fget v fCMP_JOB_CTRL_GO = 0 ∧ s.jobState u.val ≠
      0) ∧
    (∃ (u : Fin 8) (s : State), s.glb ≠ 0 ∧ ((s.cmpU u.val).job = none ∨ s.jobState u.val ≠ 1)) ∧
    (∃ (u : Fin 8) (s : State) (j : CmpJob), s.glb ≠ 0 ∧ (s.cmpU u.val).job = some j ∧ s.jobState u.val = 1 ∧ (j.dec = true → j.left = 0) ∧
      (j.dec = false → s.fld (rCMP_JOB_COUNT u.val) fCMP_JOB_COUNT_IN_DONE = j.srcLen)) :=
  ⟨⟨(7 : Fin 8), (0 : Word), rdy, by decide +kernel⟩,
   ⟨(7 : Fin 8), (fset (0 : Word) fCMP_STREAM_M 10), rdy, by decide +kernel⟩,
   ⟨(7 : Fin 8), (fset (0 : Word) fCMP_STREAM_M 4), rdy |>.setFld (rCMP_CFG 7) fCMP_CFG_USED 1, by decide +kernel⟩,
   ⟨(7 : Fin 8), rdy, by decide +kernel⟩,
   ⟨(7 : Fin 8), ((rdy |>.setFld (rCMP_CFG 7) fCMP_CFG_USED 1 |>.updCmp 7 (fun z => { z with queue := List.replicate 600 smp0 })).blockSamples 7
      0), 0, rdy |>.setFld (rCMP_CFG 7) fCMP_CFG_USED 1 |>.updCmp 7 (fun z => { z with queue := List.replicate 600 smp0 }), by decide +kernel⟩,
   ⟨(7 : Fin 8), rdy, by decide +kernel⟩,
   ⟨(7 : Fin 8), rrec0, ([] : List RRec), rdy |>.setFld (rCMP_CFG 7) fCMP_CFG_USED 1 |>.setFld (rCMP_CFG 7) fCMP_CFG_DIR 1 |>.onReplay (fun z =>
      SMap.set [] z (cmpSquare 7) [rrec0]), by decide +kernel⟩,
   ⟨(7 : Fin 8), { rrec0 with typ := 4, bytes := List.replicate 32 0 }, ([] : List RRec), ((readPreamble ((rdy |>.setFld (rCMP_CFG 7)
      fCMP_CFG_USED 1 |>.setFld (rCMP_CFG 7) fCMP_CFG_DIR 1 |>.onReplay (fun z => SMap.set [] z (cmpSquare 7)
      [{ rrec0 with typ := 4, bytes := List.replicate 32 0 }])).fromCnv 0) (List.replicate 32 0)).1), ((readPreamble ((rdy |>.setFld (rCMP_CFG
      7) fCMP_CFG_USED 1 |>.setFld (rCMP_CFG 7) fCMP_CFG_DIR 1 |>.onReplay (fun z => SMap.set [] z (cmpSquare 7)
      [{ rrec0 with typ := 4, bytes := List.replicate 32 0 }])).fromCnv 0) (List.replicate 32 0)).2.1), ((readPreamble ((rdy |>.setFld (rCMP_CFG
      7) fCMP_CFG_USED 1 |>.setFld (rCMP_CFG 7) fCMP_CFG_DIR 1 |>.onReplay (fun z => SMap.set [] z (cmpSquare 7)
      [{ rrec0 with typ := 4, bytes := List.replicate 32 0 }])).fromCnv 0) (List.replicate 32 0)).2.2.1), ((readPreamble ((rdy |>.setFld
      (rCMP_CFG 7) fCMP_CFG_USED 1 |>.setFld (rCMP_CFG 7) fCMP_CFG_DIR 1 |>.onReplay (fun z => SMap.set [] z (cmpSquare 7)
      [{ rrec0 with typ := 4, bytes := List.replicate 32 0 }])).fromCnv 0) (List.replicate 32 0)).2.2.2), rdy |>.setFld (rCMP_CFG 7)
      fCMP_CFG_USED 1 |>.setFld (rCMP_CFG 7) fCMP_CFG_DIR 1 |>.onReplay (fun z => SMap.set [] z (cmpSquare 7)
      [{ rrec0 with typ := 4, bytes := List.replicate 32 0 }]), by decide +kernel⟩,
   ⟨(7 : Fin 8), (0 : Word), rdy |>.setFld (rCMP_JOB_STATUS 7) fCMP_JOB_STATUS_STATE 1, by decide +kernel⟩,
   ⟨(7 : Fin 8), (0 : Word), busRdy |>.setFld (rCMP_JOB_MODE 7) fCMP_JOB_MODE_M 10 |>.setFld (rCMP_JOB_LEN 7) fCMP_JOB_LEN_DST_LEN 64,
      by decide +kernel⟩,
   ⟨(7 : Fin 8), rdy, by decide +kernel⟩,
   ⟨(7 : Fin 8), job0, rdy |>.updCmp ↑(7 : Fin 8) (fun z => { z with job := some job0 }) |>.setFld (rCMP_JOB_STATUS (7 : Fin 8))
      fCMP_JOB_STATUS_STATE 1, by decide +kernel⟩,
   ⟨(7 : Fin 8), { job0 with cfg := { codec0 with less := false, m := 4 }, dstLen := 33 }, 0, 0, (min 64 (64 * compBytes 0)), 33, busRdy
      |>.updCmp 7 (fun z => { z with job := some { job0 with cfg := { codec0 with less := false, m := 4 }, dstLen := 33 } }) |>.setFld
      (rCMP_JOB_STATUS 7) fCMP_JOB_STATUS_STATE 1, by decide +kernel⟩,
   ⟨(7 : Fin 8), { job0 with cfg := { codec0 with less := false, m := 4 }, dstLen := 32 }, 0, 0, (min 64 (64 * compBytes 0)), 33, busRdy
      |>.updCmp 7 (fun z => { z with job := some { job0 with cfg := { codec0 with less := false, m := 4 }, dstLen := 32 } }) |>.setFld
      (rCMP_JOB_STATUS 7) fCMP_JOB_STATUS_STATE 1, by decide +kernel⟩,
   ⟨(7 : Fin 8), (0 : Word), rdy |>.updCmp ↑(7 : Fin 8) (fun z => { z with job := some job0 }) |>.setFld (rCMP_JOB_STATUS (7 : Fin 8))
      fCMP_JOB_STATUS_STATE 2, job0, by decide +kernel⟩,
   ⟨(7 : Fin 8), (0 : Word), rdy, by decide +kernel⟩,
   ⟨(7 : Fin 8), (0 : Word), rdy, by decide +kernel⟩,
   ⟨(7 : Fin 8), (0 : Word), rdy |>.setFld (rCMP_JOB_STATUS ↑(7 : Fin 8)) fCMP_JOB_STATUS_STATE 1, by decide +kernel⟩,
   ⟨(7 : Fin 8), rdy, by decide +kernel⟩,
   ⟨(7 : Fin 8), busRdy |>.updCmp 7 (fun z => { z with job := some { job0 with srcLen := 0 } }) |>.setFld (rCMP_JOB_STATUS 7)
      fCMP_JOB_STATUS_STATE 1, { job0 with srcLen := 0 }, by decide +kernel⟩⟩

theorem test_witness_LinkAndMemoryWindow :
    (∃ (s : State), s.glb ≠ 0 ∧ s.cxlMode = false) ∧
    (∃ (n : Fin (2 ^ 46)) (s : State), s.glb ≠ 0 ∧ s.cxlMode = true ∧ s.hif.hdm0.dpa (64 * n.val) = none ∧ s.hif.hdm1.dpa (64 * n.val) = none) ∧
    (∃ (n : Fin (2 ^ 46)) (s : State) (o : Nat), s.glb ≠ 0 ∧ s.cxlMode = true ∧ s.selfRefresh = false ∧ s.hif.hdm0.dpa (64 * n.val) = some o ∧
      (s.billet (o / 16384)).hbias = true) ∧
    (∃ (n : Fin (2 ^ 46)) (s : State) (o : Nat), s.glb ≠ 0 ∧ s.cxlMode = true ∧ s.selfRefresh = false ∧ s.hif.hdm0.dpa (64 * n.val) = some o ∧
      (s.billet (o / 16384)).hbias = false) ∧
    (∃ (s : State), s.glb ≠ 0 ∧ s.hif.hdm0.locked = true) ∧
    (∃ (s : State), s.glb ≠ 0 ∧ s.hif.hdm1.locked = true) ∧
    (∃ (size : Nat) (skip : Nat) (ways : Nat) (s : State), s.glb ≠ 0 ∧ s.hif.hdm0.locked = false ∧ s.hif.hdm1.committed = false ∧ ways = 1 ∧ 0 <
      size ∧ size % 2 ^ 28 = 0 ∧ skip + size ≤ 30064771072) ∧
    (∃ (size : Nat) (skip : Nat) (ways : Nat) (s : State), s.glb ≠ 0 ∧ s.hif.hdm1.locked = false ∧ s.hif.hdm0.committed = true ∧ ways = 1 ∧ 0 <
      size ∧ size % 2 ^ 28 = 0 ∧ skip + size ≤ 30064771072 ∧ (skip + size ≤ s.hif.hdm0.skip ∨ s.hif.hdm0.skip + s.hif.hdm0.size ≤ skip)) ∧
    (∃ (size : Nat) (skip : Nat) (ways : Nat) (s : State), s.glb ≠ 0 ∧ s.hif.hdm0.locked = false ∧ (ways ≠ 1 ∨ size = 0 ∨ size % 2 ^ 28 ≠ 0 ∨
      30064771072 < skip + size)) ∧
    (∃ (s : State), s.glb ≠ 0) ∧
    (∃ (s : State), s.glb ≠ 0 ∧ s.fld rGLB_HIF_LINK fGLB_HIF_LINK_WIDTH = 0) ∧
    (∃ (s : State), s.glb ≠ 0 ∧ s.fld rGLB_HIF_LINK fGLB_HIF_LINK_WIDTH ≠ 0 ∧ s.dma = []) ∧
    (∃ (s : State), s.glb ≠ 0) :=
  ⟨⟨rdy, by decide +kernel⟩,
   ⟨(0 : Fin (2 ^ 46)), rdy |>.setFld rGLB_STATUS fGLB_STATUS_CXL_MODE 1, by decide +kernel⟩,
   ⟨(4194303 : Fin (2 ^ 46)), rdy |>.setFld rGLB_STATUS fGLB_STATUS_CXL_MODE 1 |>.updHif (fun z =>
      { z with hdm0 := ⟨0, 2 ^ 28, 0, true, false, false⟩ }) |>.setBillet 16383 { billet0 with hbias := true }, 268435392, by decide +kernel⟩,
   ⟨(4194303 : Fin (2 ^ 46)), rdy |>.setFld rGLB_STATUS fGLB_STATUS_CXL_MODE 1 |>.updHif (fun z =>
      { z with hdm0 := ⟨0, 2 ^ 28, 0, true, false, false⟩ }), 268435392, by decide +kernel⟩,
   ⟨rdy |>.updHif (fun z => { z with hdm0 := ⟨0, 2 ^ 28, 0, true, false, true⟩ }), by decide +kernel⟩,
   ⟨rdy |>.updHif (fun z => { z with hdm1 := ⟨0, 2 ^ 28, 0, true, false, true⟩ }), by decide +kernel⟩,
   ⟨30064771072, 0, 1, rdy, by decide +kernel⟩,
   ⟨2 ^ 28, 0, 1, rdy |>.updHif (fun z => { z with hdm0 := ⟨0, 2 ^ 28, 2 ^ 28, true, false, false⟩ }), by decide +kernel⟩,
   ⟨0, 0, 0, rdy, by decide +kernel⟩,
   ⟨rdy, by decide +kernel⟩,
   ⟨rdy, by decide +kernel⟩,
   ⟨rdy |>.setFld rGLB_HIF_LINK fGLB_HIF_LINK_WIDTH 1, by decide +kernel⟩,
   ⟨rdy, by decide +kernel⟩⟩

theorem test_witness_FailuresMessagesAndDoe :
    (∃ (s : State), s.glb ≠ 0) ∧
    (∃ (u : Fin 8) (j : CmpJob) (s : State), s.glb ≠ 0 ∧ s.jobState u.val ≠ 0 ∧ (s.cmpU u.val).job = some j) ∧
    (∃ (s : State), s.glb ≠ 0 ∧ s.planState = 1) ∧
    (∃ (n : Fin 4) (len : Nat) (s : State), s.glb ≠ 0 ∧ (s.xfmU n.val).load = some len) ∧
    (∃ (c : Fin 128) (a : Nat) (f : Bool) (s : State), s.glb ≠ 0 ∧ (s.dmaCh c.val).phase = DmaPhase.fetch a false f) ∧
    (∃ (v : Fin 2048) (s : State), s.glb ≠ 0 ∧ (s.vec v.val).pend = true ∧ s.hif.fnMasked = false ∧ s.busOk = true ∧ s.moderated v.val = false)
      ∧
    (∃ (v : Fin 2048) (s : State), s.glb ≠ 0 ∧ (s.vec v.val).pend = false) ∧
    (∃ (s : State), s.glb ≠ 0 ∧ s.hif.vecs = [] ∧ s.evt.lostSince = 0) ∧
    (∃ (v : Fin 2048) (s : State), s.glb ≠ 0 ∧ (s.vec v.val).last = none) ∧
    (∃ (v : Fin 2048) (s : State) (t0 : Nat), s.glb ≠ 0 ∧ (s.vec v.val).last = some t0 ∧ (s.vec v.val).pend = true ∧ (s.vec v.val).masked =
      false ∧ s.hif.fnMasked = false ∧ s.busOk = true ∧ s.held = false) ∧
    (∃ (req : List Byte) (busy : Bool) (sg : Bool) (off : Fin 65536) (len : Fin 65536) (ix : Fin 256) (s : State) (i : Instr), s.glb ≠ 0 ∧ (4096
      < req.length ∨ busy = true) ∧ i ∈   [Instr.doeDiscovery req busy, Instr.cdatTableAccess req busy, Instr.getVersion req busy,
      Instr.getCapabilities req busy, Instr.negotiateAlgorithms req busy, Instr.getDigests req busy,     Instr.getCertificate req busy off len,
      Instr.challenge req busy, Instr.getMeasurements req busy ix sg,     Instr.spdmUnsupportedRequest req busy]) ∧
    (∃ (req : List Byte) (s : State), s.glb ≠ 0 ∧ req.length ≤ 4096) :=
  ⟨⟨rdy, by decide +kernel⟩,
   ⟨(7 : Fin 8), job0, rdy |>.setFld (rCMP_JOB_STATUS ↑(7 : Fin 8)) fCMP_JOB_STATUS_STATE 1 |>.updCmp ↑(7 : Fin 8) (fun z =>
      { z with job := some job0 }), by decide +kernel⟩,
   ⟨rdy |>.setFld rPLAN_STATUS fPLAN_STATUS_STATE 1, by decide +kernel⟩,
   ⟨(3 : Fin 4), 0, rdy |>.updXfm ↑(3 : Fin 4) (fun z => { z with load := some 0 }), by decide +kernel⟩,
   ⟨(127 : Fin 128), 0, false, rdy |>.updDma ↑(127 : Fin 128) (fun z => { z with phase := DmaPhase.fetch 0 false false }), by decide +kernel⟩,
   ⟨(2047 : Fin 2048), busRdy |>.setVec 2047 ⟨false, true, none, 0, 0⟩, by decide +kernel⟩,
   ⟨(2047 : Fin 2048), rdy, by decide +kernel⟩,
   ⟨rdy, by decide +kernel⟩,
   ⟨(2047 : Fin 2048), rdy, by decide +kernel⟩,
   ⟨(2047 : Fin 2048), busRdy |>.setVec 2047 ⟨false, true, some 5, 0, 0⟩, 5, by decide +kernel⟩,
   ⟨([] : List Byte), true, false, (65535 : Fin 65536), (65535 : Fin 65536), (255 : Fin 256), rdy, (Instr.doeDiscovery [] true),
      by decide +kernel, by decide +kernel, by simp⟩,
   ⟨([] : List Byte), rdy, by decide +kernel⟩⟩

theorem test_witness_DmaChannels :
    (∃ (c : Fin 128) (v : Word) (s : State), s.ready = true ∧ fget v fDMA_CTRL_ABORT = 0 ∧ s.selfRefresh = false ∧ (s.dmaState c.val = 0 ∨
      s.dmaState c.val = 3)) ∧
    (∃ (c : Fin 128) (v : Word) (s : State), s.ready = true ∧ fget v fDMA_CTRL_ABORT = 0 ∧ s.selfRefresh = false ∧ (s.dmaState c.val = 1 ∨
      s.dmaState c.val = 2)) ∧
    (∃ (c : Fin 128) (v : Word) (s : State), s.ready = true ∧ fget v fDMA_CTRL_START = 0 ∧ (s.dmaState c.val = 0 ∨ s.dmaState c.val = 3)) ∧
    (∃ (c : Fin 128) (v : Word) (s : State), s.ready = true ∧ fget v fDMA_CTRL_START = 0 ∧ (s.dmaState c.val = 1 ∨ s.dmaState c.val = 2) ∧
      (s.dmaCh c.val).phase ≠ DmaPhase.none ∧ (s.dmaCh c.val).refs = [] ∧ (s.dmaCh c.val).op ≠ 1 ∧ (s.dmaCh c.val).crec = false) ∧
    (∃ (c : Fin 128) (v : Word) (s : State), s.ready = true ∧ (s.dmaState c.val = 0 ∨ s.dmaState c.val = 3) ∧ (s.ctx (fget v
      fDMA_CFG_GIVE_CTX)).st = CtxSt.opened ∧ (s.ctx (fget v fDMA_CFG_GIVE_CTX)).runtime = true ∧ (∀ (k : Nat),   k < 128 →     k ≠ c.val →
       s.flag (rDMA_CFG k) fDMA_CFG_GIVE_VALID = false ∨ s.fld (rDMA_CFG k) fDMA_CFG_GIVE_CTX ≠ fget v fDMA_CFG_GIVE_CTX)) ∧
    (∃ (c : Fin 128) (v : Word) (s : State), s.ready = true ∧ fget v fDMA_CFG_GIVE_VALID = 1 ∧ s.flag (rDMA_CFG c.val) fDMA_CFG_GIVE_VALID =
      false ∧ (s.dmaState c.val = 1 ∨   s.dmaState c.val = 2 ∨     (s.ctx (fget v fDMA_CFG_GIVE_CTX)).st ≠ CtxSt.opened ∨       (s.ctx (fget v
      fDMA_CFG_GIVE_CTX)).runtime = false ∨         ∃ k,           k ≠ c ∧             s.flag (rDMA_CFG ↑k) fDMA_CFG_GIVE_VALID = true ∧
            s.fld (rDMA_CFG ↑k) fDMA_CFG_GIVE_CTX = fget v fDMA_CFG_GIVE_CTX)) ∧
    (∃ (c : Fin 128) (s : State), s.glb ≠ 0 ∧ (∀ (a : Nat) (b f : Bool), (s.dmaCh c.val).phase ≠ DmaPhase.fetch a b f)) ∧
    (∃ (c : Fin 128) (s : State) (a : Nat) (b : Bool) (f : Bool), s.glb ≠ 0 ∧ (s.dmaCh c.val).phase = DmaPhase.fetch a b f ∧ (s.fld (rDMA_LIMIT
      c.val) fDMA_LIMIT_LIMIT = s.fld (rDMA_LIMIT c.val) fDMA_LIMIT_COUNT ∨   f = false ∧ a / 64 = s.fld (rDMA_HEAD c.val) fDMA_HEAD_ADDR ∧ b =
      s.flag (rDMA_HEAD c.val) fDMA_HEAD_STORE)) ∧
    (∃ (c : Fin 128) (desc : HostRead) (s : State) (a : Nat) (at_ : Nat) (timeout : Bool), s.glb ≠ 0 ∧ (s.dmaCh c.val).phase = DmaPhase.fetch a
      false true ∧ s.fld (rDMA_LIMIT c.val) fDMA_LIMIT_LIMIT ≠ s.fld (rDMA_LIMIT c.val) fDMA_LIMIT_COUNT ∧ s.busOk = true ∧ desc.fail = some
      (at_, timeout)) ∧
    (∃ (c : Fin 128) (desc : HostRead) (s : State) (a : Nat) (d : Dma), s.glb ≠ 0 ∧ (s.dmaCh c.val).phase = DmaPhase.fetch a false true ∧ s.fld
      (rDMA_LIMIT c.val) fDMA_LIMIT_LIMIT ≠ s.fld (rDMA_LIMIT c.val) fDMA_LIMIT_COUNT ∧ s.busOk = true ∧ desc.fail = none ∧ (d =   have __src :=
      dma0;
      { phase := DmaPhase.ready, addr := a, words := descWords (List.take 64 desc.bytes),     segs :=       [(fget ((descWords (List.take 64 desc.bytes)).getD 2 0) { lo := 0, w := 64 },           fget ((descWords (List.take 64 desc.bytes)).getD 3 0) { lo := 0, w := 32 })],     bytes := __src.bytes, recs := __src.recs, upTo_ := __src.upTo_, gap := __src.gap, refs := __src.refs })
      ∧ d.sg = false ∧ s.descCheck (c.val) d = none) ∧
    (∃ (c : Fin 128) (desc : HostRead) (s : State) (a : Nat) (d : Dma) (e : Nat), s.glb ≠ 0 ∧ (s.dmaCh c.val).phase = DmaPhase.fetch a false
      true ∧ s.fld (rDMA_LIMIT c.val) fDMA_LIMIT_LIMIT ≠ s.fld (rDMA_LIMIT c.val) fDMA_LIMIT_COUNT ∧ s.busOk = true ∧ desc.fail = none ∧ (d =
      have __src := dma0;
      { phase := DmaPhase.ready, addr := a, words := descWords (List.take 64 desc.bytes),     segs :=       [(fget ((descWords (List.take 64 desc.bytes)).getD 2 0) { lo := 0, w := 64 },           fget ((descWords (List.take 64 desc.bytes)).getD 3 0) { lo := 0, w := 32 })],     bytes := __src.bytes, recs := __src.recs, upTo_ := __src.upTo_, gap := __src.gap, refs := __src.refs })
      ∧ d.sg = false ∧ s.descCheck (c.val) d = some e ∧ d.crec = false) ∧
    (∃ (c : Fin 128) (desc : HostRead) (s : State) (a : Nat) (d : Dma), s.glb ≠ 0 ∧ (s.dmaCh c.val).phase = DmaPhase.fetch a false true ∧ s.fld
      (rDMA_LIMIT c.val) fDMA_LIMIT_LIMIT ≠ s.fld (rDMA_LIMIT c.val) fDMA_LIMIT_COUNT ∧ s.busOk = true ∧ desc.fail = none ∧ (d =   have __src :=
      dma0;
      { phase := DmaPhase.ready, addr := a, words := descWords (List.take 64 desc.bytes),     segs :=       [(fget ((descWords (List.take 64 desc.bytes)).getD 2 0) { lo := 0, w := 64 },           fget ((descWords (List.take 64 desc.bytes)).getD 3 0) { lo := 0, w := 32 })],     bytes := __src.bytes, recs := __src.recs, upTo_ := __src.upTo_, gap := __src.gap, refs := __src.refs })
      ∧ d.sg = false ∧ 5 < d.op) ∧
    (∃ (c : Fin 128) (desc : HostRead) (s : State) (a : Nat) (d : Dma), s.glb ≠ 0 ∧ (s.dmaCh c.val).phase = DmaPhase.fetch a false true ∧ s.fld
      (rDMA_LIMIT c.val) fDMA_LIMIT_LIMIT ≠ s.fld (rDMA_LIMIT c.val) fDMA_LIMIT_COUNT ∧ s.busOk = true ∧ desc.fail = none ∧ (d =   have __src :=
      dma0;
      { phase := DmaPhase.ready, addr := a, words := descWords (List.take 64 desc.bytes),     segs :=       [(fget ((descWords (List.take 64 desc.bytes)).getD 2 0) { lo := 0, w := 64 },           fget ((descWords (List.take 64 desc.bytes)).getD 3 0) { lo := 0, w := 32 })],     bytes := __src.bytes, recs := __src.recs, upTo_ := __src.upTo_, gap := __src.gap, refs := __src.refs })
      ∧ d.sg = false ∧ d.w 0 { lo := 7, w := 25 } = 0 ∧ d.w 1 { lo := 2, w := 4 } = 0 ∧ d.w 3 { lo := 45, w := 19 } = 0 ∧ d.words.getD 6 0 = 0 ∧
      d.words.getD 7 0 = 0 ∧ d.crec = false ∧ d.op ≤ 5 ∧ (d.host % 64 ≠ 0 ∨ d.len % 64 ≠ 0)) ∧
    (∃ (c : Fin 128) (desc : HostRead) (s : State) (a : Nat) (d : Dma), s.glb ≠ 0 ∧ (s.dmaCh c.val).phase = DmaPhase.fetch a false true ∧ s.fld
      (rDMA_LIMIT c.val) fDMA_LIMIT_LIMIT ≠ s.fld (rDMA_LIMIT c.val) fDMA_LIMIT_COUNT ∧ s.busOk = true ∧ desc.fail = none ∧ (d =   have __src :=
      dma0;
      { phase := DmaPhase.ready, addr := a, words := descWords (List.take 64 desc.bytes),     segs :=       [(fget ((descWords (List.take 64 desc.bytes)).getD 2 0) { lo := 0, w := 64 },           fget ((descWords (List.take 64 desc.bytes)).getD 3 0) { lo := 0, w := 32 })],     bytes := __src.bytes, recs := __src.recs, upTo_ := __src.upTo_, gap := __src.gap, refs := __src.refs })
      ∧ d.sg = false ∧ d.w 0 { lo := 7, w := 25 } = 0 ∧ d.w 1 { lo := 2, w := 4 } = 0 ∧ d.w 3 { lo := 45, w := 19 } = 0 ∧ d.words.getD 6 0 = 0 ∧
      d.words.getD 7 0 = 0 ∧ d.crec = false ∧ (d.op = 0 ∨ d.op = 4 ∨ d.op = 5) ∧ d.host % 64 = 0 ∧ d.len % 64 = 0) ∧
    (∃ (c : Fin 128) (desc : HostRead) (s : State) (a : Nat) (d : Dma), s.glb ≠ 0 ∧ (s.dmaCh c.val).phase = DmaPhase.fetch a false true ∧ s.fld
      (rDMA_LIMIT c.val) fDMA_LIMIT_LIMIT ≠ s.fld (rDMA_LIMIT c.val) fDMA_LIMIT_COUNT ∧ s.busOk = true ∧ desc.fail = none ∧ (d =   have __src :=
      dma0;
      { phase := DmaPhase.ready, addr := a, words := descWords (List.take 64 desc.bytes),     segs :=       [(fget ((descWords (List.take 64 desc.bytes)).getD 2 0) { lo := 0, w := 64 },           fget ((descWords (List.take 64 desc.bytes)).getD 3 0) { lo := 0, w := 32 })],     bytes := __src.bytes, recs := __src.recs, upTo_ := __src.upTo_, gap := __src.gap, refs := __src.refs })
      ∧ d.sg = false ∧ d.w 0 { lo := 7, w := 25 } = 0 ∧ d.w 1 { lo := 2, w := 4 } = 0 ∧ d.w 3 { lo := 45, w := 19 } = 0 ∧ d.words.getD 6 0 = 0 ∧
      d.words.getD 7 0 = 0 ∧ d.crec = false ∧ 1 ≤ d.op ∧ d.op ≤ 3 ∧ d.host % 64 = 0 ∧ d.len % 64 = 0 ∧ (d.op = 3 → d.storeOff % 64 = 0) ∧ d.len
      = 0) ∧
    (∃ (c : Fin 128) (desc : HostRead) (s : State) (a : Nat) (d : Dma), s.glb ≠ 0 ∧ (s.dmaCh c.val).phase = DmaPhase.fetch a false true ∧ s.fld
      (rDMA_LIMIT c.val) fDMA_LIMIT_LIMIT ≠ s.fld (rDMA_LIMIT c.val) fDMA_LIMIT_COUNT ∧ s.busOk = true ∧ desc.fail = none ∧ (d =   have __src :=
      dma0;
      { phase := DmaPhase.ready, addr := a, words := descWords (List.take 64 desc.bytes),     segs :=       [(fget ((descWords (List.take 64 desc.bytes)).getD 2 0) { lo := 0, w := 64 },           fget ((descWords (List.take 64 desc.bytes)).getD 3 0) { lo := 0, w := 32 })],     bytes := __src.bytes, recs := __src.recs, upTo_ := __src.upTo_, gap := __src.gap, refs := __src.refs })
      ∧ d.sg = false ∧ d.w 0 { lo := 7, w := 25 } = 0 ∧ d.w 1 { lo := 2, w := 4 } = 0 ∧ d.w 3 { lo := 45, w := 19 } = 0 ∧ d.words.getD 6 0 = 0 ∧
      d.words.getD 7 0 = 0 ∧ d.crec = false ∧ 1 ≤ d.op ∧ d.op ≤ 3 ∧ d.host % 64 = 0 ∧ d.len % 64 = 0 ∧ (d.op = 3 → d.storeOff % 64 = 0) ∧ 0 <
      d.len ∧ d.op = 1 ∧ s.takeCtx c.val = none) ∧
    (∃ (c : Fin 128) (desc : HostRead) (s : State) (a : Nat) (d : Dma), s.glb ≠ 0 ∧ (s.dmaCh c.val).phase = DmaPhase.fetch a false true ∧ s.fld
      (rDMA_LIMIT c.val) fDMA_LIMIT_LIMIT ≠ s.fld (rDMA_LIMIT c.val) fDMA_LIMIT_COUNT ∧ s.busOk = true ∧ desc.fail = none ∧ (d =   have __src :=
      dma0;
      { phase := DmaPhase.ready, addr := a, words := descWords (List.take 64 desc.bytes),     segs :=       [(fget ((descWords (List.take 64 desc.bytes)).getD 2 0) { lo := 0, w := 64 },           fget ((descWords (List.take 64 desc.bytes)).getD 3 0) { lo := 0, w := 32 })],     bytes := __src.bytes, recs := __src.recs, upTo_ := __src.upTo_, gap := __src.gap, refs := __src.refs })
      ∧ d.sg = false ∧ d.w 0 { lo := 7, w := 25 } = 0 ∧ d.w 1 { lo := 2, w := 4 } = 0 ∧ d.w 3 { lo := 45, w := 19 } = 0 ∧ d.words.getD 6 0 = 0 ∧
      d.words.getD 7 0 = 0 ∧ d.crec = false ∧ 1 ≤ d.op ∧ d.op ≤ 3 ∧ d.host % 64 = 0 ∧ d.len % 64 = 0 ∧ (d.op = 3 → d.storeOff % 64 = 0) ∧ 0 <
      d.len ∧ d.op = 2 ∧ s.flag (rDMA_CFG c.val) fDMA_CFG_GIVE_VALID = false) ∧
    (∃ (c : Fin 128) (desc : HostRead) (s : State) (a : Nat) (d : Dma), s.glb ≠ 0 ∧ (s.dmaCh c.val).phase = DmaPhase.fetch a false true ∧ s.fld
      (rDMA_LIMIT c.val) fDMA_LIMIT_LIMIT ≠ s.fld (rDMA_LIMIT c.val) fDMA_LIMIT_COUNT ∧ s.busOk = true ∧ desc.fail = none ∧ (d =   have __src :=
      dma0;
      { phase := DmaPhase.ready, addr := a, words := descWords (List.take 64 desc.bytes),     segs :=       [(fget ((descWords (List.take 64 desc.bytes)).getD 2 0) { lo := 0, w := 64 },           fget ((descWords (List.take 64 desc.bytes)).getD 3 0) { lo := 0, w := 32 })],     bytes := __src.bytes, recs := __src.recs, upTo_ := __src.upTo_, gap := __src.gap, refs := __src.refs })
      ∧ d.sg = false ∧ d.w 0 { lo := 7, w := 25 } = 0 ∧ d.w 1 { lo := 2, w := 4 } = 0 ∧ d.w 3 { lo := 45, w := 19 } = 0 ∧ d.words.getD 6 0 = 0 ∧
      d.words.getD 7 0 = 0 ∧ d.crec = false ∧ 1 ≤ d.op ∧ d.op ≤ 3 ∧ d.host % 64 = 0 ∧ d.len % 64 = 0 ∧ (d.op = 3 → d.storeOff % 64 = 0) ∧ 0 <
      d.len ∧ d.op = 3 ∧ (∃ b, b ∈ billetsOver d.storeOff d.len ∧ (s.billet b).swref = 0)) ∧
    (∃ (c : Fin 128) (s : State), s.glb ≠ 0 ∧ ((s.dmaCh c.val).phase ≠ DmaPhase.ready ∨ (s.dmaCh c.val).op ≠ 0)) ∧
    (∃ (c : Fin 128) (s : State), s.glb ≠ 0 ∧ (s.dmaCh c.val).phase = DmaPhase.ready ∧ (s.dmaCh c.val).op = 0 ∧ (s.dmaCh c.val).crec = false ∧
      (s.dmaCh c.val).refs = []) :=
  ⟨⟨(127 : Fin 128), (0 : Word), rdy, by decide +kernel⟩,
   ⟨(127 : Fin 128), (0 : Word), rdy |>.setDmaState 127 1, by decide +kernel⟩,
   ⟨(127 : Fin 128), (0 : Word), rdy, by decide +kernel⟩,
   ⟨(127 : Fin 128), (0 : Word), rdy |>.setDmaState 127 1 |>.updDma 127 (fun z => { z with phase := .ready }), by decide +kernel⟩,
   ⟨(127 : Fin 128), (0 : Word), rdy |>.updCtx (fget (0 : Word) fDMA_CFG_GIVE_CTX) (fun z => { z with st := CtxSt.opened }) |>.updCtx (fget (0 :
      Word) fDMA_CFG_GIVE_CTX) (fun z => { z with runtime := true }), by decide +kernel⟩,
   ⟨(127 : Fin 128), (fset (0 : Word) fDMA_CFG_GIVE_VALID 1), rdy, by decide +kernel⟩,
   ⟨(127 : Fin 128), rdy, by decide +kernel, (fun _ _ _ h =>
      by rw [show (rdy.dmaCh (127 : Fin 128).val).phase = .none from by decide +kernel] at h; cases h)⟩,
   ⟨(127 : Fin 128), rdy |>.updDma ↑(127 : Fin 128) (fun z => { z with phase := DmaPhase.fetch 0 false false }), 0, false, false,
      by decide +kernel⟩,
   ⟨(127 : Fin 128), { (⟨[], none⟩ : HostRead) with fail := some (0, false) }, rdy |>.updDma ↑(127 : Fin 128) (fun z =>
      { z with phase := DmaPhase.fetch 0 false true }) |>.updHif (fun z => { z with bme := true }) |>.setFld rGLB_HIF_LINK fGLB_HIF_LINK_WIDTH
      3, 0, 0, false, by decide +kernel⟩,
   ⟨(127 : Fin 128), (⟨descBytes 0 0 0 0, none⟩ : HostRead), busRdy |>.setDmaState 127 1 |>.updDma 127 (fun z =>
      { z with phase := .fetch 64 false true }), 64, (dmaOf 64 (descBytes 0 0 0 0)), by decide +kernel⟩,
   ⟨(127 : Fin 128), (⟨descBytes 6 0 0 0, none⟩ : HostRead), busRdy |>.setDmaState 127 1 |>.updDma 127 (fun z =>
      { z with phase := .fetch 64 false true }), 64, (dmaOf 64 (descBytes 6 0 0 0)), 17, by decide +kernel⟩,
   ⟨(127 : Fin 128), (⟨descBytes 15 0 0 0, none⟩ : HostRead), busRdy |>.setDmaState 127 1 |>.updDma 127 (fun z =>
      { z with phase := .fetch 64 false true }), 64, (dmaOf 64 (descBytes 15 0 0 0)), by decide +kernel⟩,
   ⟨(127 : Fin 128), (⟨descBytes 0 8 0 0, none⟩ : HostRead), busRdy |>.setDmaState 127 1 |>.updDma 127 (fun z =>
      { z with phase := .fetch 64 false true }), 64, (dmaOf 64 (descBytes 0 8 0 0)), by decide +kernel⟩,
   ⟨(127 : Fin 128), (⟨descBytes 5 64 64 0, none⟩ : HostRead), busRdy |>.setDmaState 127 1 |>.updDma 127 (fun z =>
      { z with phase := .fetch 64 false true }), 64, (dmaOf 64 (descBytes 5 64 64 0)), by decide +kernel⟩,
   ⟨(127 : Fin 128), (⟨descBytes 3 64 0 64, none⟩ : HostRead), busRdy |>.setDmaState 127 1 |>.updDma 127 (fun z =>
      { z with phase := .fetch 64 false true }), 64, (dmaOf 64 (descBytes 3 64 0 64)), by decide +kernel⟩,
   ⟨(127 : Fin 128), (⟨descBytes 1 64 64 0, none⟩ : HostRead), busRdy |>.setDmaState 127 1 |>.updDma 127 (fun z =>
      { z with phase := .fetch 64 false true }), 64, (dmaOf 64 (descBytes 1 64 64 0)), by decide +kernel⟩,
   ⟨(127 : Fin 128), (⟨descBytes 2 64 64 0, none⟩ : HostRead), busRdy |>.setDmaState 127 1 |>.updDma 127 (fun z =>
      { z with phase := .fetch 64 false true }), 64, (dmaOf 64 (descBytes 2 64 64 0)), by decide +kernel⟩,
   ⟨(127 : Fin 128), (⟨descBytes 3 64 64 0, none⟩ : HostRead), busRdy |>.setDmaState 127 1 |>.updDma 127 (fun z =>
      { z with phase := .fetch 64 false true }), 64, (dmaOf 64 (descBytes 3 64 64 0)), by decide +kernel⟩,
   ⟨(127 : Fin 128), rdy, by decide +kernel⟩,
   ⟨(127 : Fin 128), rdy |>.updDma ↑(127 : Fin 128) (fun z => { z with phase := DmaPhase.ready }), by decide +kernel⟩⟩

theorem test_witness_DmaOperations :
    (∃ (c : Fin 128) (data : HostRead) (s : State) (i : Instr), s.glb ≠ 0 ∧ (s.dmaCh c.val).phase ≠ DmaPhase.ready ∧ i ∈ [Instr.ctxTake c,
      Instr.ctxGive c data, Instr.storeRead c, Instr.refTake c, Instr.refGive c]) ∧
    (∃ (c : Fin 128) (data : HostRead) (s : State) (i : Instr), s.dmaTurn c.val = false ∧ i ∈ [Instr.ctxTake c, Instr.ctxGive c data,
      Instr.storeRead c, Instr.dmaRecordAvailable c]) ∧
    (∃ (c : Fin 128) (x : Nat) (k : Nat) (a : Nat) (n : Nat) (s : State) (i : Instr), s.glb ≠ 0 ∧ s.dmaTurn c.val = true ∧ s.takeCtx c.val =
      some (x, k) ∧ (s.dmaCh c.val).op = 1 ∧ (s.dmaCh c.val).recs = 0 ∧ (s.dmaCh c.val).bytes = 0 ∧ (s.dmaCh c.val).segs = [(a, n)] ∧ (s.dmaCh
      c.val).len = n ∧ (i = Instr.ctxTake c ∧ (s.dmaCh c.val).phase = DmaPhase.ready ∨   i = Instr.dmaRecordAvailable c ∧ (s.dmaCh c.val).phase
      = DmaPhase.moving) ∧ (s.ctx x).nextRec k = none) ∧
    (∃ (c : Fin 128) (x : Nat) (k : Nat) (a : Nat) (n : Nat) (s : State) (i : Instr) (r : CordRec), s.glb ≠ 0 ∧ s.dmaTurn c.val = true ∧
      s.takeCtx c.val = some (x, k) ∧ (s.dmaCh c.val).op = 1 ∧ (s.dmaCh c.val).recs = 0 ∧ (s.dmaCh c.val).bytes = 0 ∧ (s.dmaCh c.val).segs =
      [(a, n)] ∧ (s.dmaCh c.val).len = n ∧ (i = Instr.ctxTake c ∧ (s.dmaCh c.val).phase = DmaPhase.ready ∨   i = Instr.dmaRecordAvailable c ∧
      (s.dmaCh c.val).phase = DmaPhase.moving) ∧ (s.ctx x).nextRec k = some r ∧ r.typ ≠ tyPad ∧ n < r.len) ∧
    (∃ (c : Fin 128) (x : Nat) (k : Nat) (a : Nat) (n : Nat) (s : State) (i : Instr) (r : CordRec), s.glb ≠ 0 ∧ s.dmaTurn c.val = true ∧
      s.takeCtx c.val = some (x, k) ∧ (s.dmaCh c.val).op = 1 ∧ (s.dmaCh c.val).recs = 0 ∧ (s.dmaCh c.val).bytes = 0 ∧ (s.dmaCh c.val).segs =
      [(a, n)] ∧ (s.dmaCh c.val).len = n ∧ (i = Instr.ctxTake c ∧ (s.dmaCh c.val).phase = DmaPhase.ready ∨   i = Instr.dmaRecordAvailable c ∧
      (s.dmaCh c.val).phase = DmaPhase.moving) ∧ s.ctxs.sorted = true ∧ k < (s.ctx x).dests.length ∧ (s.ctx x).recs = [r] ∧ (s.ctx x).nextRec k
      = some r ∧ r.typ ≠ tyPad ∧ r.len ≤ n ∧ 0 < r.len ∧ s.busOk = true) ∧
    (∃ (c : Fin 128) (s : State), s.glb ≠ 0 ∧ (s.dmaCh c.val).phase ≠ DmaPhase.moving) ∧
    (∃ (c : Fin 128) (s : State), s.glb ≠ 0 ∧ (s.dmaCh c.val).phase = DmaPhase.moving ∧ (s.dmaCh c.val).op = 1 ∧ (s.dmaCh c.val).recs ≠ 0 ∧ (∀
      (x k : Nat), s.takeCtx c.val = some (x, k) → (s.ctx x).nextRec k = none)) ∧
    (∃ (c : Fin 128) (x : Nat) (s : State), s.glb ≠ 0 ∧ s.dmaTurn c.val = true ∧ (s.dmaCh c.val).phase = DmaPhase.ready ∧ (s.dmaCh c.val).op = 2
      ∧ (s.dmaCh c.val).recs = 0 ∧ (s.dmaCh c.val).bytes = 0 ∧ s.fld (rDMA_CFG c.val) fDMA_CFG_GIVE_CTX = x ∧ s.busOk = false) ∧
    (∃ (c : Fin 128) (data : HostRead) (x : Nat) (s : State) (timeout : Bool), s.glb ≠ 0 ∧ s.dmaTurn c.val = true ∧ (s.dmaCh c.val).phase =
      DmaPhase.ready ∧ (s.dmaCh c.val).op = 2 ∧ (s.dmaCh c.val).recs = 0 ∧ (s.dmaCh c.val).bytes = 0 ∧ s.fld (rDMA_CFG c.val) fDMA_CFG_GIVE_CTX
      = x ∧ s.busOk = true ∧ data.fail = some (0, timeout) ∧ 0 < (s.dmaCh c.val).len) ∧
    (∃ (c : Fin 128) (data : HostRead) (x : Nat) (s : State), s.glb ≠ 0 ∧ s.dmaTurn c.val = true ∧ (s.dmaCh c.val).phase = DmaPhase.ready ∧
      (s.dmaCh c.val).op = 2 ∧ (s.dmaCh c.val).recs = 0 ∧ (s.dmaCh c.val).bytes = 0 ∧ s.fld (rDMA_CFG c.val) fDMA_CFG_GIVE_CTX = x ∧ s.busOk =
      true ∧ data.fail = none ∧ data.bytes.length = (s.dmaCh c.val).len ∧ 32 ≤ data.bytes.length ∧ (leNat (List.take 1 data.bytes) = tyPad ∨
      leNat (List.take 1 data.bytes) = tyFault ∨     (32 + leNat (List.take 8 (List.drop 24 data.bytes)) % 2 ^ 32) % 64 ≠ 0 ∨       4096 < 32 +
      leNat (List.take 8 (List.drop 24 data.bytes)) % 2 ^ 32)) ∧
    (∃ (c : Fin 128) (data : HostRead) (x : Nat) (s : State) (r : Machine.Prod) (b : Nat) (off : Nat), s.glb ≠ 0 ∧ s.dmaTurn c.val = true ∧
      (s.dmaCh c.val).phase = DmaPhase.ready ∧ (s.dmaCh c.val).op = 2 ∧ (s.dmaCh c.val).recs = 0 ∧ (s.dmaCh c.val).bytes = 0 ∧ s.fld (rDMA_CFG
      c.val) fDMA_CFG_GIVE_CTX = x ∧ s.busOk = true ∧ data.fail = none ∧ data.bytes.length = (s.dmaCh c.val).len ∧ giveRecs x data.bytes.length
      data.bytes.length (data.bytes.length / 64 + 1) 0 data.bytes = ([r], false) ∧ 0 < s.extFree ∧ (s.ctx x).st = CtxSt.opened ∧ (s.ctx x).rate
      = 0 ∧ (s.ctx x).faults = [] ∧ (s.ctx x).tail = some (b, off) ∧ off + r.size ≤ 16384) ∧
    (∃ (c : Fin 128) (b : Nat) (a : Nat) (s : State), s.glb ≠ 0 ∧ s.dmaTurn c.val = true ∧ (s.dmaCh c.val).phase = DmaPhase.ready ∧ (s.dmaCh
      c.val).op = 3 ∧ (s.dmaCh c.val).crec = false ∧ (s.dmaCh c.val).recs = 0 ∧ (s.dmaCh c.val).bytes = 0 ∧ (s.dmaCh c.val).segs = [(a, (s.dmaCh
      c.val).len)] ∧ 0 < (s.dmaCh c.val).len ∧ billetsOver (s.dmaCh c.val).storeOff (s.dmaCh c.val).len = [b] ∧ (s.swTake (s.billet b).owner
      b).fst = 0 ∧ s.busOk = true ∧ s.badFrom (s.dmaCh c.val).storeOff (s.dmaCh c.val).len = none) ∧
    (∃ (c : Fin 128) (b : Nat) (a : Nat) (s : State) (n : Nat), s.glb ≠ 0 ∧ s.dmaTurn c.val = true ∧ (s.dmaCh c.val).phase = DmaPhase.ready ∧
      (s.dmaCh c.val).op = 3 ∧ (s.dmaCh c.val).crec = false ∧ (s.dmaCh c.val).recs = 0 ∧ (s.dmaCh c.val).bytes = 0 ∧ (s.dmaCh c.val).segs = [(a,
      (s.dmaCh c.val).len)] ∧ 0 < (s.dmaCh c.val).len ∧ billetsOver (s.dmaCh c.val).storeOff (s.dmaCh c.val).len = [b] ∧ (s.swTake (s.billet
      b).owner b).fst = 0 ∧ s.busOk = true ∧ (s.badLines ≠ [] ∨ s.mem.lost ≠ []) ∧ s.badFrom (s.dmaCh c.val).storeOff (s.dmaCh c.val).len = some
      n) ∧
    (∃ (c : Fin 128) (b : Nat) (a : Nat) (s : State), s.glb ≠ 0 ∧ s.dmaTurn c.val = true ∧ (s.dmaCh c.val).phase = DmaPhase.ready ∧ (s.dmaCh
      c.val).op = 3 ∧ (s.dmaCh c.val).crec = false ∧ (s.dmaCh c.val).recs = 0 ∧ (s.dmaCh c.val).bytes = 0 ∧ (s.dmaCh c.val).segs = [(a, (s.dmaCh
      c.val).len)] ∧ 0 < (s.dmaCh c.val).len ∧ billetsOver (s.dmaCh c.val).storeOff (s.dmaCh c.val).len = [b] ∧ (s.swTake (s.billet b).owner
      b).fst ≠ 0) ∧
    (∃ (c : Fin 128) (s : State), s.glb ≠ 0 ∧ (s.dmaCh c.val).phase = DmaPhase.ready ∧ (s.dmaCh c.val).crec = false ∧ (s.dmaCh c.val).refs = []
      ∧ (s.dmaCh c.val).irq = false ∧ (s.dmaCh c.val).w 1 { lo := 0, w := 1 } = 0 ∧ (s.dmaCh c.val).op = 4 ∧ (s.swTake (s.dmaCh c.val).refCtx
      (s.dmaCh c.val).billet).fst = 0) ∧
    (∃ (c : Fin 128) (s : State), s.glb ≠ 0 ∧ (s.dmaCh c.val).phase = DmaPhase.ready ∧ (s.dmaCh c.val).crec = false ∧ (s.dmaCh c.val).refs = []
      ∧ (s.dmaCh c.val).irq = false ∧ (s.dmaCh c.val).w 1 { lo := 0, w := 1 } = 0 ∧ (s.dmaCh c.val).op = 4 ∧ (s.swTake (s.dmaCh c.val).refCtx
      (s.dmaCh c.val).billet).fst ≠ 0) ∧
    (∃ (c : Fin 128) (s : State), s.glb ≠ 0 ∧ (s.dmaCh c.val).phase = DmaPhase.ready ∧ (s.dmaCh c.val).crec = false ∧ (s.dmaCh c.val).refs = []
      ∧ (s.dmaCh c.val).irq = false ∧ (s.dmaCh c.val).w 1 { lo := 0, w := 1 } = 0 ∧ (s.dmaCh c.val).op = 5 ∧ (s.dmaCh c.val).billet < nBillets ∧
      2 ≤ (s.billet (s.dmaCh c.val).billet).swref ∧ (s.billet (s.dmaCh c.val).billet).used = true ∧ (s.billet (s.dmaCh c.val).billet).hbias =
      false ∧ (s.billet (s.dmaCh c.val).billet).switch = none) ∧
    (∃ (c : Fin 128) (s : State), s.glb ≠ 0 ∧ (s.dmaCh c.val).phase = DmaPhase.ready ∧ (s.dmaCh c.val).crec = false ∧ (s.dmaCh c.val).refs = []
      ∧ (s.dmaCh c.val).irq = false ∧ (s.dmaCh c.val).w 1 { lo := 0, w := 1 } = 0 ∧ (s.dmaCh c.val).op = 5 ∧ (s.billet (s.dmaCh
      c.val).billet).swref = 0) ∧
    (∃ (c : Fin 128) (s : State), s.glb ≠ 0 ∧ (∀ (a b d : Nat), (s.dmaCh c.val).phase ≠ DmaPhase.moved a b d)) ∧
    (∃ (c : Fin 128) (s : State) (st : Nat) (beat : Nat), s.glb ≠ 0 ∧ (s.dmaCh c.val).phase = DmaPhase.moved st beat 0 ∧ (s.port (dmaBox
      c.val)).inbox = [] ∧ (s.dmaCh c.val).refs = [] ∧ (s.dmaCh c.val).op ≠ 1 ∧ (s.dmaCh c.val).crec = false ∧ (s.dmaCh c.val).w 1
      { lo := 0, w := 1 } = 0 ∧ st = 0 ∧ (s.dmaCh c.val).irq = false) ∧
    (∃ (c : Fin 128) (s : State) (st : Nat) (beat : Nat), s.glb ≠ 0 ∧ (s.dmaCh c.val).phase = DmaPhase.moved st beat 0 ∧ (s.port (dmaBox
      c.val)).inbox = [] ∧ (s.dmaCh c.val).refs = [] ∧ (s.dmaCh c.val).op ≠ 1 ∧ (s.dmaCh c.val).crec = false ∧ (s.dmaCh c.val).w 1
      { lo := 0, w := 1 } = 0 ∧ 16 ≤ st ∧ st < 256) :=
  ⟨⟨(127 : Fin 128), (⟨[], none⟩ : HostRead), rdy, (Instr.ctxTake 127), by decide +kernel, by decide +kernel, by simp⟩,
   ⟨(127 : Fin 128), (⟨[], none⟩ : HostRead), busRdy |>.setDma 127 (dmaOf 64 (descBytes 2 64 64 0)) |>.setDma 0 (dmaOf 64 (descBytes 2 64 64 0))
      |>.setFld (rDMA_CFG 127) fDMA_CFG_PRIORITY 3, (Instr.ctxTake 127), by decide +kernel, by simp⟩,
   ⟨(127 : Fin 128), 9, 0, 64, 64, busRdy |>.setDma 127 (dmaOf 64 (descBytes 1 64 64 0)) |>.setCtx 9
      { octx 0 0 1017 with recs := [], wpos := 64 }, (Instr.ctxTake 127), by decide +kernel, by decide +kernel, by decide +kernel,
      by decide +kernel, by decide +kernel, by decide +kernel, by decide +kernel, by decide +kernel, .inl ⟨rfl, by decide +kernel⟩,
      by decide +kernel⟩,
   ⟨(127 : Fin 128), 9, 0, 64, 64, busRdy |>.setDma 127 (dmaOf 64 (descBytes 1 64 64 0)) |>.setCtx 9
      { octx 0 0 1017 with recs := [{ rec0 with len := 128 }], wpos := 64 }, (Instr.ctxTake 127), { rec0 with len := 128 }, by decide +kernel,
      by decide +kernel, by decide +kernel, by decide +kernel, by decide +kernel, by decide +kernel, by decide +kernel, by decide +kernel, .inl
      ⟨rfl, by decide +kernel⟩, by decide +kernel⟩,
   ⟨(127 : Fin 128), 9, 0, 64, 64, busRdy |>.setDma 127 (dmaOf 64 (descBytes 1 64 64 0)) |>.setCtx 9
      { octx 0 0 1017 with recs := [rec0], wpos := 64 }, (Instr.ctxTake 127), rec0, by decide +kernel, by decide +kernel, by decide +kernel,
      by decide +kernel, by decide +kernel, by decide +kernel, by decide +kernel, by decide +kernel, .inl ⟨rfl, by decide +kernel⟩,
      by decide +kernel⟩,
   ⟨(127 : Fin 128), rdy, by decide +kernel⟩,
   ⟨(127 : Fin 128), busRdy |>.setDma 127 (dmaOf 64 (descBytes 1 64 64 0)) |>.updDma 127 (fun z => { z with phase := .moving, recs := 1 }),
      by decide +kernel, by decide +kernel, by decide +kernel, by decide +kernel, (fun _ _ h =>
      by rw [show (busRdy |>.setDma 127 (dmaOf 64 (descBytes 1 64 64 0)) |>.updDma 127 (fun z => { z with phase := .moving, recs := 1 })).takeCtx (127 : Fin 128).val = none from by decide +kernel] at h; cases h)⟩,
   ⟨(127 : Fin 128), 9, rdy |>.setDma 127 (dmaOf 64 (descBytes 2 64 64 0)) |>.setFld (rDMA_CFG 127) fDMA_CFG_GIVE_CTX 9, by decide +kernel⟩,
   ⟨(127 : Fin 128), (⟨[], some (0, false)⟩ : HostRead), 9, busRdy |>.setDma 127 (dmaOf 64 (descBytes 2 64 64 0)) |>.setFld (rDMA_CFG 127)
      fDMA_CFG_GIVE_CTX 9, false, by decide +kernel⟩,
   ⟨(127 : Fin 128), (⟨List.replicate 64 0, none⟩ : HostRead), 9, busRdy |>.setDma 127 (dmaOf 64 (descBytes 2 64 64 0)) |>.setFld (rDMA_CFG 127)
      fDMA_CFG_GIVE_CTX 9, by decide +kernel⟩,
   ⟨(127 : Fin 128), (⟨([1] ++ List.replicate 23 0 ++ [32] ++ List.replicate 39 0), none⟩ : HostRead), 9, busRdy |>.setDma 127 (dmaOf 64
      (descBytes 2 64 64 0)) |>.setFld (rDMA_CFG 127) fDMA_CFG_GIVE_CTX 9 |>.setCtx 9 { octx 0 0 5 with tail := some (3, 16320) }, ((giveRecs 9
      64 64 2 0 ([1] ++ List.replicate 23 0 ++ [32] ++ List.replicate 39 0)).1.headD prod0), 3, 16320, by decide +kernel⟩,
   ⟨(127 : Fin 128), 0, 64, busRdy |>.setDma 127 (dmaOf 64 (descBytes 3 64 64 0)) |>.setBillet 0
      { billet0 with used := true, owner := 9, swref := 1 } |>.setCtx 9 { octx 0 0 5 with exts := [⟨0, 0, 0, 64⟩] }, by decide +kernel⟩,
   ⟨(127 : Fin 128), 0, 64, busRdy |>.setDma 127 (dmaOf 64 (descBytes 3 64 64 0)) |>.setBillet 0
      { billet0 with used := true, owner := 9, swref := 1 } |>.setCtx 9 { octx 0 0 5 with exts := [⟨0, 0, 0, 64⟩] } |>.onBadLines (fun z =>
      SMap.set 0 z 0 2), 0, by decide +kernel⟩,
   ⟨(127 : Fin 128), 0, 64, busRdy |>.setDma 127 (dmaOf 64 (descBytes 3 64 64 0)), by decide +kernel⟩,
   ⟨(127 : Fin 128), busRdy |>.setDma 127 (dmaOf 64 (descBytes 4 0 0 (5 + 9 * 2 ^ 32))) |>.setBillet 5
      { billet0 with used := true, owner := 9, swref := 2 } |>.setCtx 9 { octx 0 0 5 with exts := [⟨0, 5, 0, 64⟩] }, by decide +kernel⟩,
   ⟨(127 : Fin 128), busRdy |>.setDma 127 (dmaOf 64 (descBytes 4 0 0 (5 + 9 * 2 ^ 32))), by decide +kernel⟩,
   ⟨(127 : Fin 128), busRdy |>.setDma 127 (dmaOf 64 (descBytes 5 0 0 (5 + 9 * 2 ^ 32))) |>.setBillet 5
      { billet0 with used := true, owner := 9, swref := 2 } |>.setCtx 9 { octx 0 0 5 with exts := [⟨0, 5, 0, 64⟩] }, by decide +kernel⟩,
   ⟨(127 : Fin 128), busRdy |>.setDma 127 (dmaOf 64 (descBytes 5 0 0 (5 + 9 * 2 ^ 32))), by decide +kernel⟩,
   ⟨(127 : Fin 128), rdy, by decide +kernel, (fun _ _ _ h =>
      by rw [show (rdy.dmaCh (127 : Fin 128).val).phase = .none from by decide +kernel] at h; cases h)⟩,
   ⟨(127 : Fin 128), rdy |>.updDma ↑(127 : Fin 128) (fun z => { z with phase := DmaPhase.moved 0 0 0 }), 0, 0, by decide +kernel⟩,
   ⟨(127 : Fin 128), busRdy |>.setDma 127 (dmaOf 64 (descBytes 5 0 0 0)) |>.updDma 127 (fun z => { z with phase := .moved 16 5 0 }), 16, 5,
      by decide +kernel⟩⟩

theorem test_witness_NetworkPorts :
    (∃ (v : Word) (s : State), s.ready = true ∧ 5 < fget v fNET_PORT_CFG_MODE) ∧
    (∃ (v : Word) (s : State), s.ready = true ∧ fget v fNET_PORT_CFG_MODE ≤ 5 ∧ s.avesUp = []) ∧
    (∃ (i : Fin 16) (s : State), s.glb ≠ 0 ∧ (s.linkUp i.val = true ∨ s.subExists i.val = false)) ∧
    (∃ (i : Fin 16) (s : State) (l : List Nat), s.glb ≠ 0 ∧ s.linkUp i.val = false ∧ s.subExists i.val = true ∧ List.filter (fun a => s.aveSub a
      == i.val) s.avesUp = l ∧ l.length ≤ 1) ∧
    (∃ (i : Fin 16) (s : State), s.glb ≠ 0 ∧ s.linkUp i.val = false) ∧
    (∃ (i : Fin 16) (x : NetFrame) (s : State), s.glb ≠ 0 ∧ s.linkUp i.val = true ∧ (x.badFcs = true ∨ 0 < x.uncorr)) ∧
    (∃ (i : Fin 16) (x : NetFrame) (s : State) (d : Nat), s.glb ≠ 0 ∧ s.linkUp i.val = true ∧ x.badFcs = false ∧ x.uncorr = 0 ∧ x.bytes.length +
      4 ≤ s.fld (rNET_SUB_CFG i.val) fNET_SUB_CFG_MAX_FRAME ∧ beNat (at_ x.bytes 12 2) ≠ 34824 ∧ beNat (at_ x.bytes 0 6) = d ∧ d ≠ s.fld
      (rNET_SUB_MAC i.val) fNET_SUB_MAC_MAC ∧ d ≠ 2 ^ 48 - 1 ∧ (s.flag (rNET_SUB_CFG i.val) fNET_SUB_CFG_MCAST = false ∨ d / 2 ^ 40 % 2 = 0)) ∧
    (∃ (i : Fin 16) (x : NetFrame) (s : State) (d : Nat) (u : Udp), s.glb ≠ 0 ∧ s.linkUp i.val = true ∧ x.badFcs = false ∧ x.uncorr = 0 ∧
      x.bytes.length + 4 ≤ s.fld (rNET_SUB_CFG i.val) fNET_SUB_CFG_MAX_FRAME ∧ beNat (at_ x.bytes 12 2) ≠ 34824 ∧ beNat (at_ x.bytes 0 6) = d ∧
      d = s.fld (rNET_SUB_MAC i.val) fNET_SUB_MAC_MAC ∧ udpOf x.bytes = some u ∧ beNat (at_ x.bytes (u.o + 6) 2) ≠ 0 ∧ udpSum x.bytes u ≠ 65535)
      ∧
    (∃ (i : Fin 16) (x : NetFrame) (s : State) (d : Nat) (lg : Nat) (wr : Nat) (slot : Nat), s.glb ≠ 0 ∧ s.linkUp i.val = true ∧ x.badFcs =
      false ∧ x.uncorr = 0 ∧ x.bytes.length + 4 ≤ s.fld (rNET_SUB_CFG i.val) fNET_SUB_CFG_MAX_FRAME ∧ beNat (at_ x.bytes 12 2) ≠ 34824 ∧ beNat
      (at_ x.bytes 0 6) = d ∧ d = s.fld (rNET_SUB_MAC i.val) fNET_SUB_MAC_MAC ∧ beNat (at_ x.bytes 12 2) ≠ 2048 ∧ beNat (at_ x.bytes 12 2) ≠
      34525 ∧ beNat (at_ x.bytes 12 2) ≠ 35063 ∧ s.fld (rNET_EXQ_RX i.val) fNET_EXQ_RX_LOG2 = lg ∧ s.fld (rNET_EXQ_RX_IDX i.val)
      fNET_EXQ_RX_IDX_WRITTEN = wr ∧ s.fld (rNET_EXQ_RX i.val) fNET_EXQ_RX_ADDR * 64 + wr % 2 ^ lg * 9280 = slot ∧ lg ≠ 0 ∧ (wr + 65536 - s.fld
      (rNET_EXQ_RX_IDX i.val) fNET_EXQ_RX_IDX_RELEASED) % 65536 < 2 ^ lg ∧ s.busOk = true) ∧
    (∃ (i : Fin 16) (x : NetFrame) (s : State) (d : Nat) (lg : Nat) (wr : Nat) (slot : Nat), s.glb ≠ 0 ∧ s.linkUp i.val = true ∧ x.badFcs =
      false ∧ x.uncorr = 0 ∧ x.bytes.length + 4 ≤ s.fld (rNET_SUB_CFG i.val) fNET_SUB_CFG_MAX_FRAME ∧ beNat (at_ x.bytes 12 2) ≠ 34824 ∧ beNat
      (at_ x.bytes 0 6) = d ∧ d = s.fld (rNET_SUB_MAC i.val) fNET_SUB_MAC_MAC ∧ beNat (at_ x.bytes 12 2) ≠ 2048 ∧ beNat (at_ x.bytes 12 2) ≠
      34525 ∧ beNat (at_ x.bytes 12 2) ≠ 35063 ∧ s.fld (rNET_EXQ_RX i.val) fNET_EXQ_RX_LOG2 = lg ∧ s.fld (rNET_EXQ_RX_IDX i.val)
      fNET_EXQ_RX_IDX_WRITTEN = wr ∧ s.fld (rNET_EXQ_RX i.val) fNET_EXQ_RX_ADDR * 64 + wr % 2 ^ lg * 9280 = slot ∧ (lg = 0 ∨ 2 ^ lg ≤ (wr +
      65536 - s.fld (rNET_EXQ_RX_IDX i.val) fNET_EXQ_RX_IDX_RELEASED) % 65536 ∨ s.busOk = false)) ∧
    (∃ (i : Fin 16) (s : State), s.glb ≠ 0 ∧ (s.flag (rNET_SUB_CFG i.val) fNET_SUB_CFG_PAUSE_RX = false ∨ s.linkUp i.val = false)) ∧
    (∃ (i : Fin 16) (q : Fin 65536) (s : State), s.glb ≠ 0 ∧ s.flag (rNET_SUB_CFG i.val) fNET_SUB_CFG_PAUSE_RX = true ∧ s.linkUp i.val = true ∧
      0 < q.val) ∧
    (∃ (i : Fin 16) (s : State) (l : List (Fin 8 × Fin 65536)), s.glb ≠ 0 ∧ (s.flag (rNET_SUB_CFG i.val) fNET_SUB_CFG_PFC_RX = false ∨   ∀ (e :
      Fin 8 × Fin 65536), e ∈ l → ↑e.fst ≠ s.fld (rNET_SUB_CFG i.val) fNET_SUB_CFG_PFC_PRIO)) ∧
    (∃ (i : Fin 16) (q : Fin 65536) (s : State) (pr : Fin 8), s.glb ≠ 0 ∧ s.flag (rNET_SUB_CFG i.val) fNET_SUB_CFG_PFC_RX = true ∧ s.linkUp
      i.val = true ∧ 0 < q.val ∧ s.fld (rNET_SUB_CFG i.val) fNET_SUB_CFG_PFC_PRIO = pr.val) ∧
    (∃ (i : Fin 16) (s : State) (t0 : Nat) (t1 : Nat), s.glb ≠ 0 ∧ (s.netS i.val).pause = some (t0, t1) ∧ s.linkUp i.val = true ∧ s.held =
      false) ∧
    (∃ (i : Fin 16) (v : Word) (used : Nat) (s : State), s.ready = true ∧ (s.fld (rNET_EXQ_RX_IDX i.val) fNET_EXQ_RX_IDX_WRITTEN + 65536 - s.fld
      (rNET_EXQ_RX_IDX i.val) fNET_EXQ_RX_IDX_RELEASED) %     65536 =   used ∧ fget v fNET_EXQ_RX_IDX_RELEASE ≤ used) ∧
    (∃ (i : Fin 16) (v : Word) (used : Nat) (s : State), s.ready = true ∧ (s.fld (rNET_EXQ_RX_IDX i.val) fNET_EXQ_RX_IDX_WRITTEN + 65536 - s.fld
      (rNET_EXQ_RX_IDX i.val) fNET_EXQ_RX_IDX_RELEASED) %     65536 =   used ∧ used < fget v fNET_EXQ_RX_IDX_RELEASE) ∧
    (∃ (i : Fin 16) (desc : HostRead) (dn : Nat) (lg : Nat) (w1 : Nat) (a : Nat) (s : State), s.glb ≠ 0 ∧ s.fld (rNET_EXQ_TX_IDX i.val)
      fNET_EXQ_TX_IDX_DONE_IDX = dn ∧ s.fld (rNET_EXQ_TX i.val) fNET_EXQ_TX_LOG2 = lg ∧ leNat (at_ desc.bytes 8 8) = w1 ∧ s.fld (rNET_EXQ_TX
      i.val) fNET_EXQ_TX_ADDR * 64 + dn % 2 ^ lg * 64 = a ∧ (lg = 0 ∨   dn = s.fld (rNET_EXQ_TX_IDX i.val) fNET_EXQ_TX_IDX_TAIL ∨     s.linkUp
      i.val = false ∨       (s.netS i.val).pause ≠ none ∨ s.busOk = false ∨ Option.any (fun e => decide (e.snd.fst < 4)) (s.aveFirst i.val) =
      true)) ∧
    (∃ (i : Fin 16) (desc : HostRead) (data : HostRead) (dn : Nat) (lg : Nat) (w1 : Nat) (a : Nat) (s : State), s.glb ≠ 0 ∧ s.fld
      (rNET_EXQ_TX_IDX i.val) fNET_EXQ_TX_IDX_DONE_IDX = dn ∧ s.fld (rNET_EXQ_TX i.val) fNET_EXQ_TX_LOG2 = lg ∧ leNat (at_ desc.bytes 8 8) = w1
      ∧ s.fld (rNET_EXQ_TX i.val) fNET_EXQ_TX_ADDR * 64 + dn % 2 ^ lg * 64 = a ∧ lg ≠ 0 ∧ dn ≠ s.fld (rNET_EXQ_TX_IDX i.val)
      fNET_EXQ_TX_IDX_TAIL ∧ s.linkUp i.val = true ∧ (s.netS i.val).pause = none ∧ s.busOk = true ∧ Option.any (fun e => decide (e.snd.fst < 4))
      (s.aveFirst i.val) = false ∧ desc.fail = none ∧ data.fail = none ∧ 60 ≤ w1 % 2 ^ 14 ∧ w1 % 2 ^ 14 ≤ 9212 ∧ w1 / 2 ^ 16 % 2 = 0 ∧ w1 / 2 ^
      18 % 2 = 0 ∧ data.bytes.length = w1 % 2 ^ 14) ∧
    (∃ (i : Fin 16) (desc : HostRead) (data : HostRead) (dn : Nat) (lg : Nat) (w1 : Nat) (a : Nat) (s : State), s.glb ≠ 0 ∧ s.fld
      (rNET_EXQ_TX_IDX i.val) fNET_EXQ_TX_IDX_DONE_IDX = dn ∧ s.fld (rNET_EXQ_TX i.val) fNET_EXQ_TX_LOG2 = lg ∧ leNat (at_ desc.bytes 8 8) = w1
      ∧ s.fld (rNET_EXQ_TX i.val) fNET_EXQ_TX_ADDR * 64 + dn % 2 ^ lg * 64 = a ∧ lg ≠ 0 ∧ dn ≠ s.fld (rNET_EXQ_TX_IDX i.val)
      fNET_EXQ_TX_IDX_TAIL ∧ s.linkUp i.val = true ∧ (s.netS i.val).pause = none ∧ s.busOk = true ∧ Option.any (fun e => decide (e.snd.fst < 4))
      (s.aveFirst i.val) = false ∧ (desc.fail ≠ none ∨ data.fail ≠ none ∨ w1 % 2 ^ 14 < 60 ∨ 9212 < w1 % 2 ^ 14)) :=
  ⟨⟨(fset (0 : Word) fNET_PORT_CFG_MODE 6), rdy, by decide +kernel⟩,
   ⟨(0 : Word), rdy, by decide +kernel⟩,
   ⟨(15 : Fin 16), rdy, by decide +kernel⟩,
   ⟨(15 : Fin 16), rdy |>.setFld (rNET_PORT_CFG 3) fNET_PORT_CFG_MODE 3, ([] : List Nat), by decide +kernel⟩,
   ⟨(15 : Fin 16), rdy, by decide +kernel⟩,
   ⟨(15 : Fin 16), { frame0 with badFcs := true }, rdy |>.setFld (rNET_SUB_STATUS 15) fNET_SUB_STATUS_LINK 1, by decide +kernel⟩,
   ⟨(15 : Fin 16), { frame0 with bytes := 2 :: List.replicate 59 0 }, rdy |>.setFld (rNET_SUB_STATUS 15) fNET_SUB_STATUS_LINK 1, (2 * 2 ^ 40),
      by decide +kernel⟩,
   ⟨(15 : Fin 16),
      { frame0 with bytes := List.replicate 12 0 ++ [8, 0, 0x45] ++ List.replicate 8 0 ++ [17] ++ List.replicate 15 0 ++ [26, 0, 1] ++ List.replicate 18 0 },
      rdy |>.setFld (rNET_SUB_STATUS 15) fNET_SUB_STATUS_LINK 1, 0, (⟨false, 0, 0, 34, 26⟩ : Udp), by decide +kernel⟩,
   ⟨(15 : Fin 16), frame0, busRdy |>.setFld (rNET_SUB_STATUS 15) fNET_SUB_STATUS_LINK 1 |>.setFld (rNET_EXQ_RX 15) fNET_EXQ_RX_LOG2 4, 0, 4, 0,
      0, by decide +kernel⟩,
   ⟨(15 : Fin 16), frame0, rdy |>.setFld (rNET_SUB_STATUS (15 : Fin 16)) fNET_SUB_STATUS_LINK 1, 0, 0, 0, 0, by decide +kernel⟩,
   ⟨(15 : Fin 16), rdy, by decide +kernel⟩,
   ⟨(15 : Fin 16), (65535 : Fin 65536), rdy |>.setFld (rNET_SUB_CFG ↑(15 : Fin 16)) fNET_SUB_CFG_PAUSE_RX 1 |>.setFld (rNET_SUB_STATUS (15 : Fin
      16)) fNET_SUB_STATUS_LINK 1, by decide +kernel⟩,
   ⟨(15 : Fin 16), rdy, ([] : List (Fin 8 × Fin 65536)), by decide +kernel⟩,
   ⟨(15 : Fin 16), (65535 : Fin 65536), rdy |>.setFld (rNET_SUB_STATUS 15) fNET_SUB_STATUS_LINK 1 |>.setFld (rNET_SUB_CFG 15)
      fNET_SUB_CFG_PFC_RX 1 |>.setFld (rNET_SUB_CFG 15) fNET_SUB_CFG_PFC_PRIO 7, (7 : Fin 8), by decide +kernel⟩,
   ⟨(15 : Fin 16), rdy |>.updNet ↑(15 : Fin 16) (fun z => { z with pause := some (0, 0) }) |>.setFld (rNET_SUB_STATUS (15 : Fin 16))
      fNET_SUB_STATUS_LINK 1, 0, 0, by decide +kernel⟩,
   ⟨(15 : Fin 16), (0 : Word), 0, rdy, by decide +kernel⟩,
   ⟨(15 : Fin 16), (fset (0 : Word) fNET_EXQ_RX_IDX_RELEASE 1), 0, rdy, by decide +kernel⟩,
   ⟨(15 : Fin 16), (⟨[], none⟩ : HostRead), 0, 0, 0, 0, rdy, by decide +kernel⟩,
   ⟨(15 : Fin 16), (⟨leBytes 8 0 ++ leBytes 8 60, none⟩ : HostRead), (⟨List.replicate 60 0, none⟩ : HostRead), 0, 4, 60, 0, busRdy |>.setFld
      (rNET_SUB_STATUS 15) fNET_SUB_STATUS_LINK 1 |>.setFld (rNET_EXQ_TX 15) fNET_EXQ_TX_LOG2 4 |>.setFld (rNET_EXQ_TX_IDX 15)
      fNET_EXQ_TX_IDX_TAIL 1, by decide +kernel⟩,
   ⟨(15 : Fin 16), (⟨leBytes 8 0 ++ leBytes 8 60, some (0, true)⟩ : HostRead), (⟨List.replicate 60 0, none⟩ : HostRead), 0, 4, 60, 0, busRdy
      |>.setFld (rNET_SUB_STATUS 15) fNET_SUB_STATUS_LINK 1 |>.setFld (rNET_EXQ_TX 15) fNET_EXQ_TX_LOG2 4 |>.setFld (rNET_EXQ_TX_IDX 15)
      fNET_EXQ_TX_IDX_TAIL 1, by decide +kernel⟩⟩

theorem test_witness_AvenueStates :
    (∃ (a : Fin 4096) (x : Nat) (s : State), s.ready = true ∧ s.aveCtx a.val = x ∧ s.aveState a.val ≠ 0) ∧
    (∃ (a : Fin 4096) (x : Nat) (s : State), s.ready = true ∧ s.aveCtx a.val = x ∧ s.aveState a.val = 0 ∧ s.aveBound a.val = false) ∧
    (∃ (a : Fin 4096) (x : Nat) (s : State), s.ready = true ∧ s.aveCtx a.val = x ∧ s.aveState a.val = 0 ∧ s.aveBound a.val = true ∧
      s.aveAddressed a.val = false) ∧
    (∃ (a : Fin 4096) (x : Nat) (s : State), s.ready = true ∧ s.aveCtx a.val = x ∧ s.aveState a.val = 0 ∧ s.aveBound a.val = true ∧
      s.aveAddressed a.val = true ∧ s.subExists (s.aveSub a.val) = false) ∧
    (∃ (a : Fin 4096) (x : Nat) (s : State), s.ready = true ∧ s.aveCtx a.val = x ∧ s.aveState a.val = 0 ∧ s.aveBound a.val = true ∧
      s.aveAddressed a.val = true ∧ s.subExists (s.aveSub a.val) = true ∧ s.flag (rAVE_CFG a.val) fAVE_CFG_ROLE = true) ∧
    (∃ (a : Fin 4096) (x : Nat) (s : State), s.ready = true ∧ s.aveCtx a.val = x ∧ s.aveState a.val = 0 ∧ s.aveBound a.val = true ∧
      s.aveAddressed a.val = true ∧ s.subExists (s.aveSub a.val) = true ∧ s.flag (rAVE_CFG a.val) fAVE_CFG_ROLE = false ∧ aveCanSend (a.val) s)
      ∧
    (∃ (a : Fin 4096) (x : Nat) (s : State), s.ready = true ∧ s.aveCtx a.val = x ∧ s.aveState a.val = 3 ∧ (s.aveU a.val).part = [] ∧ aveCanSend
      (a.val) s) ∧
    (∃ (a : Fin 4096) (x : Nat) (s : State), s.ready = true ∧ s.aveCtx a.val = x ∧ s.aveState a.val ≠ 5) ∧
    (∃ (a : Fin 4096) (x : Nat) (s : State), s.ready = true ∧ s.aveCtx a.val = x ∧ s.aveState a.val = 5) ∧
    (∃ (a : Fin 4096) (x : Nat) (s : State), s.ready = true ∧ s.aveCtx a.val = x ∧ s.aveState a.val ≠ 3 ∧ (s.ctx x).findDest 3 a.val = none) ∧
    (∃ (a : Fin 4096) (x : Nat) (s : State) (d : Nat) (n : Nat), s.ready = true ∧ s.aveCtx a.val = x ∧ s.aveState a.val ≠ 3 ∧ (s.ctx x).findDest
      3 a.val = some d ∧ d < (s.ctx x).dests.length ∧ (s.ctx x).st = CtxSt.opened ∧ (s.ctx x).itemsFrom d ((s.ctx x).dest d).fin = n ∧ 0 < n) ∧
    (∃ (i : Fin 16) (s : State) (e : (Fin 16 → AvePkt → Instr) × Nat), s.glb ≠ 0 ∧ e ∈   [(Instr.pktOpen, 1), (Instr.pktOpenAck, 2),
      (Instr.pktData, 3), (Instr.pktAck, 4), (Instr.pktNak, 5),     (Instr.pktClose, 6), (Instr.pktCloseAck, 7), (Instr.pktTrigger, 8),
      (Instr.pktTrigAck, 9)] ∧ s.linkUp i.val = false) ∧
    (∃ (i : Fin 16) (p : AvePkt) (s : State) (e : (Fin 16 → AvePkt → Instr) × Nat) (q : AvePkt) (a : Nat), s.glb ≠ 0 ∧ e ∈   [(Instr.pktOpen,
      1), (Instr.pktOpenAck, 2), (Instr.pktData, 3), (Instr.pktAck, 4), (Instr.pktNak, 5),     (Instr.pktClose, 6), (Instr.pktCloseAck, 7),
      (Instr.pktTrigger, 8), (Instr.pktTrigAck, 9)] ∧ s.linkUp i.val = true ∧ q =
      { smac := p.smac, v6 := p.v6, sip := p.sip, sport := p.sport, w0 := fset p.w0 { lo := 12, w := 4 } e.snd, w1 := p.w1,     w2 := p.w2, w3 := p.w3, body := p.body }
      ∧ fget q.w0 { lo := 44, w := 12 } = a ∧ pktHeaderOk q = false ∧ s.aveMatches a q = false) ∧
    (∃ (i : Fin 16) (p : AvePkt) (s : State) (e : (Fin 16 → AvePkt → Instr) × Nat) (q : AvePkt) (a : Nat), s.glb ≠ 0 ∧ e ∈   [(Instr.pktOpen,
      1), (Instr.pktOpenAck, 2), (Instr.pktData, 3), (Instr.pktAck, 4), (Instr.pktNak, 5),     (Instr.pktClose, 6), (Instr.pktCloseAck, 7),
      (Instr.pktTrigger, 8), (Instr.pktTrigAck, 9)] ∧ s.linkUp i.val = true ∧ q =
      { smac := p.smac, v6 := p.v6, sip := p.sip, sport := p.sport, w0 := fset p.w0 { lo := 12, w := 4 } e.snd, w1 := p.w1,     w2 := p.w2, w3 := p.w3, body := p.body }
      ∧ fget q.w0 { lo := 44, w := 12 } = a ∧ pktHeaderOk q = false ∧ s.aveMatches a q = true ∧ s.aveState a ≠ 6) ∧
    (∃ (i : Fin 16) (p : AvePkt) (s : State) (e : (Fin 16 → AvePkt → Instr) × Nat) (q : AvePkt) (a : Nat), s.glb ≠ 0 ∧ e ∈   [(Instr.pktOpen,
      1), (Instr.pktOpenAck, 2), (Instr.pktData, 3), (Instr.pktAck, 4), (Instr.pktNak, 5),     (Instr.pktClose, 6), (Instr.pktCloseAck, 7),
      (Instr.pktTrigger, 8), (Instr.pktTrigAck, 9)] ∧ s.linkUp i.val = true ∧ q =
      { smac := p.smac, v6 := p.v6, sip := p.sip, sport := p.sport, w0 := fset p.w0 { lo := 12, w := 4 } e.snd, w1 := p.w1,     w2 := p.w2, w3 := p.w3, body := p.body }
      ∧ fget q.w0 { lo := 44, w := 12 } = a ∧ pktHeaderOk q = true ∧ s.aveMatches a q = false) ∧
    (∃ (i : Fin 16) (p : AvePkt) (s : State) (e : (Fin 16 → AvePkt → Instr) × Nat) (q : AvePkt) (a : Nat), s.glb ≠ 0 ∧ e ∈   [(Instr.pktOpen,
      1), (Instr.pktOpenAck, 2), (Instr.pktData, 3), (Instr.pktAck, 4), (Instr.pktNak, 5),     (Instr.pktClose, 6), (Instr.pktCloseAck, 7),
      (Instr.pktTrigger, 8), (Instr.pktTrigAck, 9)] ∧ s.linkUp i.val = true ∧ q =
      { smac := p.smac, v6 := p.v6, sip := p.sip, sport := p.sport, w0 := fset p.w0 { lo := 12, w := 4 } e.snd, w1 := p.w1,     w2 := p.w2, w3 := p.w3, body := p.body }
      ∧ fget q.w0 { lo := 44, w := 12 } = a ∧ s.aveMatches a q = true ∧ s.aveState a = 6) ∧
    (∃ (i : Fin 16) (p : AvePkt) (s : State) (e : (Fin 16 → AvePkt → Instr) × Nat) (q : AvePkt) (a : Nat), s.glb ≠ 0 ∧ e ∈   [(Instr.pktOpen,
      1), (Instr.pktOpenAck, 2), (Instr.pktData, 3), (Instr.pktAck, 4), (Instr.pktNak, 5),     (Instr.pktClose, 6), (Instr.pktCloseAck, 7),
      (Instr.pktTrigger, 8), (Instr.pktTrigAck, 9)] ∧ s.linkUp i.val = true ∧ q =
      { smac := p.smac, v6 := p.v6, sip := p.sip, sport := p.sport, w0 := fset p.w0 { lo := 12, w := 4 } e.snd, w1 := p.w1,     w2 := p.w2, w3 := p.w3, body := p.body }
      ∧ fget q.w0 { lo := 44, w := 12 } = a ∧ pktHeaderOk q = true ∧ s.aveMatches a q = true ∧ s.aveState a ≠ 6 ∧ e.snd ≠ 1 ∧ fget q.w2
      { lo := 32, w := 32 } ≠ (s.aveU a).own) ∧
    (∃ (i : Fin 16) (p : AvePkt) (s : State) (e : (Fin 16 → AvePkt → Instr) × Nat) (q : AvePkt) (a : Nat), s.glb ≠ 0 ∧ e ∈   [(Instr.pktOpen,
      1), (Instr.pktOpenAck, 2), (Instr.pktData, 3), (Instr.pktAck, 4), (Instr.pktNak, 5),     (Instr.pktClose, 6), (Instr.pktCloseAck, 7),
      (Instr.pktTrigger, 8), (Instr.pktTrigAck, 9)] ∧ aveTakes (i.val) e.snd a p q s ∧ (e.snd = 1 ∧ s.aveState a ≠ 2 ∧ s.aveState a ≠ 3 ∨
      e.snd = 2 ∧ s.aveState a ≠ 1 ∧ s.aveState a ≠ 3 ∨     e.snd = 3 ∧ (s.aveState a ≠ 3 ∨ s.aveIn a = false) ∨       e.snd = 4 ∧ (s.aveState a
      ≠ 3 ∨ s.aveIn a = true) ∨         e.snd = 6 ∧ s.aveState a ≠ 3 ∨ e.snd = 7 ∧ s.aveState a ≠ 4 ∨ (e.snd = 8 ∨ e.snd = 9) ∧ s.aveState a ≠
      3) ∧ (s.aveU a).viols.length < s.avePar a fAVE_PARAM_VIOL_MAX) ∧
    (∃ (i : Fin 16) (p : AvePkt) (s : State) (e : (Fin 16 → AvePkt → Instr) × Nat) (q : AvePkt) (a : Nat), s.glb ≠ 0 ∧ e ∈   [(Instr.pktOpen,
      1), (Instr.pktOpenAck, 2), (Instr.pktData, 3), (Instr.pktAck, 4), (Instr.pktNak, 5),     (Instr.pktClose, 6), (Instr.pktCloseAck, 7),
      (Instr.pktTrigger, 8), (Instr.pktTrigAck, 9)] ∧ aveTakes (i.val) e.snd a p q s ∧ (e.snd = 1 ∧ s.aveState a ≠ 2 ∧ s.aveState a ≠ 3 ∨
      e.snd = 2 ∧ s.aveState a ≠ 1 ∧ s.aveState a ≠ 3 ∨     e.snd = 3 ∧ (s.aveState a ≠ 3 ∨ s.aveIn a = false) ∨       e.snd = 4 ∧ (s.aveState a
      ≠ 3 ∨ s.aveIn a = true) ∨         e.snd = 6 ∧ s.aveState a ≠ 3 ∨ e.snd = 7 ∧ s.aveState a ≠ 4 ∨ (e.snd = 8 ∨ e.snd = 9) ∧ s.aveState a ≠
      3) ∧ s.avePar a fAVE_PARAM_VIOL_MAX ≤ (s.aveU a).viols.length ∧ (∀ (v : Nat), v ∈ (s.aveU a).viols → s.time < v + s.usTicks 1000000)) ∧
    (∃ (i : Fin 16) (a : Nat) (p : AvePkt) (q : AvePkt) (s : State), aveTakes (i.val) 1 a p q s ∧ s.aveState a = 2 ∧ pktSends q = s.aveIn a ∧
      aveCanSend a s ∧ (∀ (d : Nat),   s.aveIn a = false →     (s.ctx (s.aveCtx a)).findDest 3 a = some d →       ∀ (r : CordRec),         r ∈
      (s.ctx (s.aveCtx a)).recs →           ((s.ctx (s.aveCtx a)).dest d).fin ≤ r.pos ∨ r.pos + r.len ≤ ((s.ctx (s.aveCtx a)).dest d).fin)) ∧
    (∃ (i : Fin 16) (a : Nat) (p : AvePkt) (q : AvePkt) (s : State), aveTakes (i.val) 2 a p q s ∧ s.aveState a = 1 ∧ pktSends q = s.aveIn a ∧ (∀
      (d : Nat),   s.aveIn a = false →     (s.ctx (s.aveCtx a)).findDest 3 a = some d →       ∀ (r : CordRec),         r ∈ (s.ctx (s.aveCtx
      a)).recs →           ((s.ctx (s.aveCtx a)).dest d).fin ≤ r.pos ∨ r.pos + r.len ≤ ((s.ctx (s.aveCtx a)).dest d).fin)) ∧
    (∃ (i : Fin 16) (a : Nat) (p : AvePkt) (q : AvePkt) (s : State), aveTakes (i.val) 2 a p q s ∧ s.aveState a = 3 ∧ pktNonce q = (s.aveU
      a).peer) ∧
    (∃ (i : Fin 16) (a : Nat) (p : AvePkt) (q : AvePkt) (s : State), aveTakes (i.val) 5 a p q s) ∧
    (∃ (i : Fin 16) (a : Nat) (p : AvePkt) (q : AvePkt) (s : State), aveTakes (i.val) 6 a p q s ∧ s.aveState a = 3 ∧ (s.aveU a).part = [] ∧
      aveCanSend a s) ∧
    (∃ (i : Fin 16) (a : Nat) (p : AvePkt) (q : AvePkt) (s : State), aveTakes (i.val) 7 a p q s ∧ s.aveState a = 4 ∧ (s.aveU a).part = []) ∧
    (∃ (a : Fin 4096) (s : State), s.glb ≠ 0 ∧ s.linkUp (s.aveSub a.val) = false) ∧
    (∃ (a : Fin 4096) (s : State), s.glb ≠ 0 ∧ s.aveState a.val ≠ 1 ∧ s.aveState a.val ≠ 3 ∧ s.aveState a.val ≠ 4) ∧
    (∃ (a : Fin 4096) (now : Nat) (s : State), s.glb ≠ 0 ∧ max s.time ((s.aveU a.val).at_ + s.usTicks (s.avePar (a.val) fAVE_PARAM_RTO_US)) =
      now ∧ s.held = false ∧ aveCanSend (a.val) s ∧ s.aveState a.val = 1 ∧ (s.aveU a.val).tries < s.avePar (a.val) fAVE_PARAM_RETRY_MAX) ∧
    (∃ (a : Fin 4096) (now : Nat) (s : State), s.glb ≠ 0 ∧ max s.time ((s.aveU a.val).at_ + s.usTicks (s.avePar (a.val) fAVE_PARAM_RTO_US)) =
      now ∧ s.held = false ∧ aveCanSend (a.val) s ∧ s.aveState a.val = 1 ∧ s.avePar (a.val) fAVE_PARAM_RETRY_MAX ≤ (s.aveU a.val).tries ∧
      s.aveIn a.val = true ∧ (s.aveU a.val).part = []) ∧
    (∃ (a : Fin 4096) (now : Nat) (s : State), s.glb ≠ 0 ∧ max s.time ((s.aveU a.val).at_ + s.usTicks (s.avePar (a.val) fAVE_PARAM_RTO_US)) =
      now ∧ s.held = false ∧ aveCanSend (a.val) s ∧ s.aveState a.val = 4 ∧ (s.aveU a.val).tries < s.avePar (a.val) fAVE_PARAM_RETRY_MAX) ∧
    (∃ (a : Fin 4096) (now : Nat) (s : State), s.glb ≠ 0 ∧ max s.time ((s.aveU a.val).at_ + s.usTicks (s.avePar (a.val) fAVE_PARAM_RTO_US)) =
      now ∧ s.held = false ∧ aveCanSend (a.val) s ∧ s.aveState a.val = 4 ∧ s.avePar (a.val) fAVE_PARAM_RETRY_MAX ≤ (s.aveU a.val).tries ∧
      (s.aveU a.val).part = []) ∧
    (∃ (a : Fin 4096) (s : State), s.glb ≠ 0 ∧ s.aveState a.val = 3 ∧ List.filter (fun r => !r.sacked && !r.again) (s.aveU a.val).ranges = []) ∧
    (∃ (a : Fin 4096) (s : State) (g : AveRange), s.glb ≠ 0 ∧ s.aveState a.val = 3 ∧ s.aveIn a.val = false ∧ (s.aveU a.val).ranges = [g] ∧
      g.sacked = false ∧ g.again = false ∧ g.tries ≤ s.avePar (a.val) fAVE_PARAM_RETRY_MAX ∧ s.held = false ∧ aveCanSend (a.val) s ∧ List.filter
      (fun b => s.aveSub b == s.aveSub a.val) s.avesUp = [a.val] ∧ s.aveRank (s.aveSub a.val) a.val = none ∧ s.exqWaits (s.aveSub a.val) =
      false) ∧
    (∃ (a : Fin 4096) (s : State) (g : AveRange), s.glb ≠ 0 ∧ s.aveState a.val = 3 ∧ s.aveIn a.val = false ∧ (s.aveU a.val).ranges = [g] ∧
      g.sacked = false ∧ g.again = false ∧ g.tries ≤ s.avePar (a.val) fAVE_PARAM_RETRY_MAX ∧ s.held = false ∧ aveCanSend (a.val) s ∧ List.filter
      (fun b => s.aveSub b == s.aveSub a.val) s.avesUp = [a.val] ∧ s.aveRank (s.aveSub a.val) a.val ≠ none) ∧
    (∃ (a : Fin 4096) (s : State), s.glb ≠ 0 ∧ s.aveState a.val = 3 ∧ s.linkUp (s.aveSub a.val) = true ∧ s.aveIn a.val = true ∧ (s.aveU
      a.val).part = [] ∧ s.held = false) ∧
    (∃ (a : Fin 4096) (s : State), s.glb ≠ 0 ∧ s.aveState a.val ≠ 6) ∧
    (∃ (a : Fin 4096) (s : State) (n : Nat), s.glb ≠ 0 ∧ s.aveState a.val = 6 ∧ (s.aveU a.val).prev < 8 ∧ s.held = false ∧ max s.time ((s.aveU
      a.val).quar + s.usTicks 1000000) = n) :=
  ⟨⟨(4095 : Fin 4096), 0, rdy |>.setFld (rAVE_STATUS ↑(4095 : Fin 4096)) fAVE_STATUS_STATE 1, by decide +kernel⟩,
   ⟨(4095 : Fin 4096), 0, rdy, by decide +kernel⟩,
   ⟨(4095 : Fin 4096), 9, rdy |>.setFld (rAVE_CFG 4095) fAVE_CFG_CONTEXT 9 |>.setCtx 9 (octx 0 0 32763), by decide +kernel⟩,
   ⟨(4095 : Fin 4096), 9, rdy |>.setFld (rAVE_CFG 4095) fAVE_CFG_CONTEXT 9 |>.setCtx 9 (octx 0 0 32763) |>.wr (rAVE_IP0 4095) 1 |>.setFld
      (rAVE_MAC 4095) fAVE_MAC_MAC 1 |>.setFld (rNET_SUB_IPV4 0) fNET_SUB_IPV4_ADDR 1, by decide +kernel⟩,
   ⟨(4095 : Fin 4096), 9, rdy |>.setFld (rAVE_CFG 4095) fAVE_CFG_CONTEXT 9 |>.setCtx 9 (octx 0 0 32763) |>.wr (rAVE_IP0 4095) 1 |>.setFld
      (rAVE_MAC 4095) fAVE_MAC_MAC 1 |>.setFld (rNET_SUB_IPV4 0) fNET_SUB_IPV4_ADDR 1 |>.setFld (rNET_PORT_CFG 0) fNET_PORT_CFG_MODE 1 |>.setFld
      (rAVE_CFG 4095) fAVE_CFG_ROLE 1, by decide +kernel⟩,
   ⟨(4095 : Fin 4096), 9, rdy |>.setFld (rAVE_CFG 4095) fAVE_CFG_CONTEXT 9 |>.setCtx 9 (octx 0 0 32763) |>.wr (rAVE_IP0 4095) 1 |>.setFld
      (rAVE_MAC 4095) fAVE_MAC_MAC 1 |>.setFld (rNET_SUB_IPV4 0) fNET_SUB_IPV4_ADDR 1 |>.setFld (rNET_PORT_CFG 0) fNET_PORT_CFG_MODE 1 |>.setFld
      (rNET_SUB_STATUS 0) fNET_SUB_STATUS_LINK 1, by decide +kernel, by decide +kernel, by decide +kernel, by decide +kernel, by decide +kernel,
      by decide +kernel, by decide +kernel, by unfold aveCanSend; decide +kernel⟩,
   ⟨(4095 : Fin 4096), 0, rdy |>.setFld (rAVE_STATUS (4095 : Fin 4096)) fAVE_STATUS_STATE 3 |>.setFld (rNET_SUB_STATUS 0) fNET_SUB_STATUS_LINK
      1, by decide +kernel, by decide +kernel, by decide +kernel, by decide +kernel, by unfold aveCanSend; decide +kernel⟩,
   ⟨(4095 : Fin 4096), 0, rdy, by decide +kernel⟩,
   ⟨(4095 : Fin 4096), 0, rdy |>.setFld (rAVE_STATUS (4095 : Fin 4096)) fAVE_STATUS_STATE 5, by decide +kernel⟩,
   ⟨(4095 : Fin 4096), 0, rdy, by decide +kernel⟩,
   ⟨(4095 : Fin 4096), 9, rdy |>.setFld (rAVE_CFG 4095) fAVE_CFG_CONTEXT 9 |>.setCtx 9
      { octx 0 0 32763 with recs := [{ rec0 with items := 5 }], wpos := 64 }, 0, 5, by decide +kernel⟩,
   ⟨(15 : Fin 16), rdy, (Instr.pktNak, 5), by decide +kernel, by simp, by decide +kernel⟩,
   ⟨(15 : Fin 16), ({ avePkt 5 (List.replicate 32 0) with w0 := 0x5000 }), aveRdy 0, (Instr.pktNak, 5),
      ({ avePkt 5 (List.replicate 32 0) with w0 := 0x5000 }), 0, by decide +kernel, by simp, by decide +kernel⟩,
   ⟨(15 : Fin 16), ({ avePkt 5 (List.replicate 32 0) with w0 := 0x5000 }), aveRdy 3, (Instr.pktNak, 5),
      ({ avePkt 5 (List.replicate 32 0) with w0 := 0x5000 }), 0, by decide +kernel, by simp, by decide +kernel⟩,
   ⟨(15 : Fin 16), (avePkt 5 (List.replicate 32 0)), aveRdy 0, (Instr.pktNak, 5), (avePkt 5 (List.replicate 32 0)), 0, by decide +kernel, by
      simp, by decide +kernel⟩,
   ⟨(15 : Fin 16), (avePkt 5 (List.replicate 32 0)), aveRdy 6, (Instr.pktNak, 5), (avePkt 5 (List.replicate 32 0)), 0, by decide +kernel, by
      simp, by decide +kernel⟩,
   ⟨(15 : Fin 16), (avePkt 5 (List.replicate 32 0)), aveRdy 3 |>.updAve 0 (fun z => { z with own := 7 }), (Instr.pktNak, 5), (avePkt 5
      (List.replicate 32 0)), 0, by decide +kernel, by simp, by decide +kernel⟩,
   ⟨(15 : Fin 16), (avePkt 1 (List.replicate 32 0)), aveRdy 1, (Instr.pktOpen, 1), (avePkt 1 (List.replicate 32 0)), 0, by decide +kernel, by
      simp, by unfold aveTakes; decide +kernel, by decide +kernel⟩,
   ⟨(15 : Fin 16), (avePkt 1 (List.replicate 32 0)), aveRdy 1 |>.updAve 0 (fun z => { z with viols := List.replicate 255 0 }), (Instr.pktOpen,
      1), (avePkt 1 (List.replicate 32 0)), 0, by decide +kernel, by simp, by unfold aveTakes; decide +kernel, by decide +kernel⟩,
   ⟨(15 : Fin 16), 0, (avePkt 1 (List.replicate 32 0)), (avePkt 1 (List.replicate 32 0)), aveRdy 2, by unfold aveTakes; decide +kernel,
      by decide +kernel, by decide +kernel, by unfold aveCanSend; decide +kernel, (fun _ _ _ r h =>
      by rw [show ((aveRdy 2).ctx ((aveRdy 2).aveCtx 0)).recs = [] from by decide +kernel] at h; cases h)⟩,
   ⟨(15 : Fin 16), 0, (avePkt 2 (List.replicate 32 0)), (avePkt 2 (List.replicate 32 0)), aveRdy 1, by unfold aveTakes; decide +kernel,
      by decide +kernel, by decide +kernel, (fun _ _ _ r h =>
      by rw [show ((aveRdy 1).ctx ((aveRdy 1).aveCtx 0)).recs = [] from by decide +kernel] at h; cases h)⟩,
   ⟨(15 : Fin 16), 0, (avePkt 2 (List.replicate 32 0)), (avePkt 2 (List.replicate 32 0)), aveRdy 3, by unfold aveTakes; decide +kernel,
      by decide +kernel⟩,
   ⟨(15 : Fin 16), 0, (avePkt 5 (List.replicate 32 0)), (avePkt 5 (List.replicate 32 0)), aveRdy 3, by unfold aveTakes; decide +kernel⟩,
   ⟨(15 : Fin 16), 0, (avePkt 6 []), (avePkt 6 []), aveRdy 3, by unfold aveTakes; decide +kernel, by decide +kernel, by decide +kernel,
      by unfold aveCanSend; decide +kernel⟩,
   ⟨(15 : Fin 16), 0, (avePkt 7 []), (avePkt 7 []), aveRdy 4, by unfold aveTakes; decide +kernel, by decide +kernel⟩,
   ⟨(4095 : Fin 4096), rdy, by decide +kernel⟩,
   ⟨(4095 : Fin 4096), rdy, by decide +kernel⟩,
   ⟨(4095 : Fin 4096), (max (rdy |>.setFld (rNET_SUB_STATUS 0) fNET_SUB_STATUS_LINK 1 |>.setFld (rAVE_STATUS (4095 : Fin 4096))
      fAVE_STATUS_STATE 1).time (((rdy |>.setFld (rNET_SUB_STATUS 0) fNET_SUB_STATUS_LINK 1 |>.setFld (rAVE_STATUS (4095 : Fin 4096))
      fAVE_STATUS_STATE 1).aveU ↑(4095 : Fin 4096)).at_ + (rdy |>.setFld (rNET_SUB_STATUS 0) fNET_SUB_STATUS_LINK 1 |>.setFld (rAVE_STATUS (4095
      : Fin 4096)) fAVE_STATUS_STATE 1).usTicks ((rdy |>.setFld (rNET_SUB_STATUS 0) fNET_SUB_STATUS_LINK 1 |>.setFld (rAVE_STATUS (4095 : Fin
      4096)) fAVE_STATUS_STATE 1).avePar (↑(4095 : Fin 4096)) fAVE_PARAM_RTO_US))), rdy |>.setFld (rNET_SUB_STATUS 0) fNET_SUB_STATUS_LINK 1
      |>.setFld (rAVE_STATUS (4095 : Fin 4096)) fAVE_STATUS_STATE 1, by decide +kernel, by decide +kernel, by decide +kernel,
      by unfold aveCanSend; decide +kernel, by decide +kernel⟩,
   ⟨(4095 : Fin 4096), (max (rdy |>.setFld (rNET_SUB_STATUS 0) fNET_SUB_STATUS_LINK 1 |>.setFld (rAVE_STATUS 4095) fAVE_STATUS_STATE 1 |>.updAve
      4095 (fun z => { z with tries := 255 }) |>.setFld (rAVE_CFG 4095) fAVE_CFG_DIR 1).time (((rdy |>.setFld (rNET_SUB_STATUS 0)
      fNET_SUB_STATUS_LINK 1 |>.setFld (rAVE_STATUS 4095) fAVE_STATUS_STATE 1 |>.updAve 4095 (fun z => { z with tries := 255 }) |>.setFld
      (rAVE_CFG 4095) fAVE_CFG_DIR 1).aveU 4095).at_ + (rdy |>.setFld (rNET_SUB_STATUS 0) fNET_SUB_STATUS_LINK 1 |>.setFld (rAVE_STATUS 4095)
      fAVE_STATUS_STATE 1 |>.updAve 4095 (fun z => { z with tries := 255 }) |>.setFld (rAVE_CFG 4095) fAVE_CFG_DIR 1).usTicks ((rdy |>.setFld
      (rNET_SUB_STATUS 0) fNET_SUB_STATUS_LINK 1 |>.setFld (rAVE_STATUS 4095) fAVE_STATUS_STATE 1 |>.updAve 4095 (fun z =>
      { z with tries := 255 }) |>.setFld (rAVE_CFG 4095) fAVE_CFG_DIR 1).avePar 4095 fAVE_PARAM_RTO_US))), rdy |>.setFld (rNET_SUB_STATUS 0)
      fNET_SUB_STATUS_LINK 1 |>.setFld (rAVE_STATUS 4095) fAVE_STATUS_STATE 1 |>.updAve 4095 (fun z => { z with tries := 255 }) |>.setFld
      (rAVE_CFG 4095) fAVE_CFG_DIR 1, by decide +kernel, by decide +kernel, by decide +kernel, by unfold aveCanSend; decide +kernel,
      by decide +kernel⟩,
   ⟨(4095 : Fin 4096), (max (rdy |>.setFld (rNET_SUB_STATUS 0) fNET_SUB_STATUS_LINK 1 |>.setFld (rAVE_STATUS (4095 : Fin 4096))
      fAVE_STATUS_STATE 4).time (((rdy |>.setFld (rNET_SUB_STATUS 0) fNET_SUB_STATUS_LINK 1 |>.setFld (rAVE_STATUS (4095 : Fin 4096))
      fAVE_STATUS_STATE 4).aveU ↑(4095 : Fin 4096)).at_ + (rdy |>.setFld (rNET_SUB_STATUS 0) fNET_SUB_STATUS_LINK 1 |>.setFld (rAVE_STATUS (4095
      : Fin 4096)) fAVE_STATUS_STATE 4).usTicks ((rdy |>.setFld (rNET_SUB_STATUS 0) fNET_SUB_STATUS_LINK 1 |>.setFld (rAVE_STATUS (4095 : Fin
      4096)) fAVE_STATUS_STATE 4).avePar (↑(4095 : Fin 4096)) fAVE_PARAM_RTO_US))), rdy |>.setFld (rNET_SUB_STATUS 0) fNET_SUB_STATUS_LINK 1
      |>.setFld (rAVE_STATUS (4095 : Fin 4096)) fAVE_STATUS_STATE 4, by decide +kernel, by decide +kernel, by decide +kernel,
      by unfold aveCanSend; decide +kernel, by decide +kernel⟩,
   ⟨(4095 : Fin 4096), (max (rdy |>.setFld (rNET_SUB_STATUS 0) fNET_SUB_STATUS_LINK 1 |>.setFld (rAVE_STATUS 4095) fAVE_STATUS_STATE 4 |>.updAve
      4095 (fun z => { z with tries := 255 })).time (((rdy |>.setFld (rNET_SUB_STATUS 0) fNET_SUB_STATUS_LINK 1 |>.setFld (rAVE_STATUS 4095)
      fAVE_STATUS_STATE 4 |>.updAve 4095 (fun z => { z with tries := 255 })).aveU 4095).at_ + (rdy |>.setFld (rNET_SUB_STATUS 0)
      fNET_SUB_STATUS_LINK 1 |>.setFld (rAVE_STATUS 4095) fAVE_STATUS_STATE 4 |>.updAve 4095 (fun z => { z with tries := 255 })).usTicks ((rdy
      |>.setFld (rNET_SUB_STATUS 0) fNET_SUB_STATUS_LINK 1 |>.setFld (rAVE_STATUS 4095) fAVE_STATUS_STATE 4 |>.updAve 4095 (fun z =>
      { z with tries := 255 })).avePar 4095 fAVE_PARAM_RTO_US))), rdy |>.setFld (rNET_SUB_STATUS 0) fNET_SUB_STATUS_LINK 1 |>.setFld
      (rAVE_STATUS 4095) fAVE_STATUS_STATE 4 |>.updAve 4095 (fun z => { z with tries := 255 }), by decide +kernel, by decide +kernel,
      by decide +kernel, by unfold aveCanSend; decide +kernel, by decide +kernel⟩,
   ⟨(4095 : Fin 4096), rdy |>.setFld (rAVE_STATUS (4095 : Fin 4096)) fAVE_STATUS_STATE 3, by decide +kernel⟩,
   ⟨(4095 : Fin 4096), rdy |>.setFld (rAVE_STATUS (4095 : Fin 4096)) fAVE_STATUS_STATE 3 |>.updAve ↑(4095 : Fin 4096) (fun z =>
      { z with ranges := [(⟨0, 0, 0, 1, 0, false, false⟩ : AveRange)] }) |>.setFld (rNET_SUB_STATUS 0) fNET_SUB_STATUS_LINK 1, (⟨0, 0, 0, 1, 0,
      false, false⟩ : AveRange), by decide +kernel, by decide +kernel, by decide +kernel, by decide +kernel, by decide +kernel,
      by decide +kernel, by decide +kernel, by decide +kernel, by unfold aveCanSend; decide +kernel, by decide +kernel⟩,
   ⟨(0 : Fin 4096), aveRdy 3 |>.setCtx 0 { octx 0x20000 0 3 with recs := [rec0], wpos := 64 } |>.updAve 0 (fun z =>
      { z with limit := 64, ranges := [(⟨0, 0, 0, 1, 0, false, false⟩ : AveRange)] }), (⟨0, 0, 0, 1, 0, false, false⟩ : AveRange),
      by decide +kernel, by decide +kernel, by decide +kernel, by decide +kernel, by decide +kernel, by decide +kernel, by decide +kernel,
      by decide +kernel, by unfold aveCanSend; decide +kernel, by decide +kernel⟩,
   ⟨(4095 : Fin 4096), rdy |>.setFld (rNET_SUB_STATUS 0) fNET_SUB_STATUS_LINK 1 |>.setFld (rAVE_STATUS 4095) fAVE_STATUS_STATE 3 |>.setFld
      (rAVE_CFG 4095) fAVE_CFG_DIR 1, by decide +kernel⟩,
   ⟨(4095 : Fin 4096), rdy, by decide +kernel⟩,
   ⟨(4095 : Fin 4096), rdy |>.setFld (rAVE_STATUS (4095 : Fin 4096)) fAVE_STATUS_STATE 6, (max (rdy |>.setFld (rAVE_STATUS (4095 : Fin 4096))
      fAVE_STATUS_STATE 6).time (((rdy |>.setFld (rAVE_STATUS (4095 : Fin 4096)) fAVE_STATUS_STATE 6).aveU ↑(4095 : Fin 4096)).quar + (rdy
      |>.setFld (rAVE_STATUS (4095 : Fin 4096)) fAVE_STATUS_STATE 6).usTicks 1000000)), by decide +kernel⟩⟩

theorem test_witness_AvenueTransfers :
    (∃ (i : Fin 16) (s : State), s.glb ≠ 0 ∧ (s.linkUp i.val = false ∨ (s.netS i.val).pause ≠ none ∨ List.filter (fun a => s.aveSub a == i.val)
      s.avesUp = [])) ∧
    (∃ (i : Fin 16) (s : State) (e : Nat × Nat × Nat × Nat), s.glb ≠ 0 ∧ s.aveFirst i.val = some e ∧ 5 ≤ e.snd.fst ∧ s.exqWaits i.val = true) ∧
    (∃ (i : Fin 16) (s : State) (a : Nat) (g : AveRange) (r : Nat × Nat × Nat), s.glb ≠ 0 ∧ s.linkUp i.val = true ∧ (s.netS i.val).pause = none
      ∧ aveCanSend a s ∧ s.aveFirst i.val = some (a, r) ∧ r.fst % 2 = 1 ∧ (r.fst < 5 ∨ s.exqWaits i.val = false) ∧ s.aveAgain a = some g) ∧
    (∃ (i : Fin 16) (s : State) (a : Nat) (x : Nat) (d : Nat) (r : CordRec), s.glb ≠ 0 ∧ s.linkUp i.val = true ∧ (s.netS i.val).pause = none ∧
      List.filter (fun a => s.aveSub a == i.val) s.avesUp = [a] ∧ s.aveIn a = false ∧ s.aveState a = 3 ∧ s.aveCtx a = x ∧ (s.ctx x).findDest 3 a
      = some d ∧ d < (s.ctx x).dests.length ∧ (s.aveU a).recs = [] ∧ (s.ctx x).recs = [r] ∧ (s.ctx x).nextRec d = some r ∧ 0 < r.len ∧ r.len %
      64 = 0 ∧ r.len ≤ s.aveMax (i.val) (s.aveV6 a) ∧ r.len ≤ (s.aveU a).limit - (s.aveU a).next ∧ r.pos + r.len ≤ s.availEnd x ∧ ((s.ctx x).cls
      < 3 ∨ s.exqWaits i.val = false)) ∧
    (∃ (i : Fin 16) (a : Nat) (lo : Nat) (hi : Nat) (p : AvePkt) (q : AvePkt) (s : State), aveTakes (i.val) 3 a p q s ∧ s.aveState a = 3 ∧
      s.aveIn a = true ∧ BitVec.toNat q.w1 = lo ∧ lo + q.body.length = hi ∧ (BitVec.toNat q.w3 = 0 ∨ s.time ≤ BitVec.toNat q.w3) ∧ (s.aveU
      a).limit < hi ∧ (s.aveU a).viols.length < s.avePar a fAVE_PARAM_VIOL_MAX) ∧
    (∃ (i : Fin 16) (a : Nat) (lo : Nat) (hi : Nat) (p : AvePkt) (q : AvePkt) (s : State), aveTakes (i.val) 3 a p q s ∧ s.aveState a = 3 ∧
      s.aveIn a = true ∧ BitVec.toNat q.w1 = lo ∧ lo + q.body.length = hi ∧ (BitVec.toNat q.w3 = 0 ∨ s.time ≤ BitVec.toNat q.w3) ∧ hi ≤ (s.aveU
      a).limit ∧ hi ≤ (s.aveU a).next) ∧
    (∃ (i : Fin 16) (a : Nat) (lo : Nat) (hi : Nat) (p : AvePkt) (q : AvePkt) (s : State), aveTakes (i.val) 3 a p q s ∧ s.aveState a = 3 ∧
      s.aveIn a = true ∧ BitVec.toNat q.w1 = lo ∧ lo + q.body.length = hi ∧ (BitVec.toNat q.w3 = 0 ∨ s.time ≤ BitVec.toNat q.w3) ∧ hi ≤ (s.aveU
      a).limit ∧ (s.aveU a).next < lo ∧ (s.aveU a).ahead = [] ∧ s.poolUsed (s.aveSub a / 4) + q.body.length ≤ 8388608) ∧
    (∃ (i : Fin 16) (a : Nat) (lo : Nat) (hi : Nat) (p : AvePkt) (q : AvePkt) (s : State), aveTakes (i.val) 3 a p q s ∧ s.aveState a = 3 ∧
      s.aveIn a = true ∧ BitVec.toNat q.w1 = lo ∧ lo + q.body.length = hi ∧ (BitVec.toNat q.w3 = 0 ∨ s.time ≤ BitVec.toNat q.w3) ∧ hi ≤ (s.aveU
      a).limit ∧ lo = (s.aveU a).next ∧ (s.aveU a).ahead = [] ∧ wholeRecs (s.aveCtx a) (((s.aveU a).part ++ q.body).length / 32 + 1) ((s.aveU
      a).part ++ q.body) =   ([], (s.aveU a).part ++ q.body, false)) ∧
    (∃ (i : Fin 16) (a : Nat) (lo : Nat) (hi : Nat) (p : AvePkt) (q : AvePkt) (s : State) (r : Machine.Prod) (left : List Byte) (x : Nat) (b :
      Nat) (off : Nat), aveTakes (i.val) 3 a p q s ∧ s.aveState a = 3 ∧ s.aveIn a = true ∧ BitVec.toNat q.w1 = lo ∧ lo + q.body.length = hi ∧
      (BitVec.toNat q.w3 = 0 ∨ s.time ≤ BitVec.toNat q.w3) ∧ hi ≤ (s.aveU a).limit ∧ lo = (s.aveU a).next ∧ (s.aveU a).ahead = [] ∧ wholeRecs x
      (((s.aveU a).part ++ q.body).length / 32 + 1) ((s.aveU a).part ++ q.body) = ([r], left, false) ∧ r.typ ≠ tyFault ∧ s.aveCtx a = x ∧
      (s.port (aveBox a)).inbox = [] ∧ (s.ctx x).waiting = none ∧ (s.ctx x).st = CtxSt.opened ∧ (s.ctx x).rate = 0 ∧ 0 < s.extFree ∧ (s.ctx
      x).faults = [] ∧ (s.ctx x).tail = some (b, off) ∧ off + r.size ≤ 16384) ∧
    (∃ (i : Fin 16) (a : Nat) (o : Nat) (p : AvePkt) (q : AvePkt) (s : State), aveTakes (i.val) 4 a p q s ∧ s.aveState a = 3 ∧ s.aveIn a = false
      ∧ BitVec.toNat q.w1 = o ∧ (s.aveU a).next < o ∧ (s.aveU a).viols.length < s.avePar a fAVE_PARAM_VIOL_MAX) ∧
    (∃ (i : Fin 16) (a : Nat) (x : Nat) (d : Nat) (o : Nat) (p : AvePkt) (q : AvePkt) (s : State), aveTakes (i.val) 4 a p q s ∧ s.aveState a = 3
      ∧ s.aveIn a = false ∧ BitVec.toNat q.w1 = o ∧ o ≤ (s.aveU a).next ∧ fget q.w2 { lo := 16, w := 16 } = 0 ∧ (s.aveU a).limit ≤ BitVec.toNat
      q.w3 ∧ (∀ (r : AveRange), r ∈ (s.aveU a).ranges → r.reports < 3) ∧ s.aveCtx a = x ∧ (s.ctx x).findDest 3 a = some d ∧ d < (s.ctx
      x).dests.length ∧ (s.ctx x).st = CtxSt.opened) ∧
    (∃ (a : Fin 4096) (s : State), s.glb ≠ 0 ∧ ((s.aveU a.val).ackAt = none ∨ s.aveState a.val ≠ 3 ∨ s.aveIn a.val = false)) ∧
    (∃ (a : Fin 4096) (s : State), s.glb ≠ 0 ∧ ((s.aveU a.val).ackAt ≠ none ∨ s.aveState a.val ≠ 3 ∨ s.aveIn a.val = false)) ∧
    (∃ (a : Fin 4096) (s : State) (t0 : Nat), s.glb ≠ 0 ∧ s.aveState a.val = 3 ∧ s.aveIn a.val = true ∧ aveCanSend (a.val) s ∧ (s.aveU
      a.val).ahead = [] ∧ s.held = false ∧ (s.aveU a.val).ackAt = some t0) ∧
    (∃ (a : Fin 4096) (s : State), s.glb ≠ 0 ∧ s.aveState a.val = 3 ∧ s.aveIn a.val = true ∧ aveCanSend (a.val) s ∧ (s.aveU a.val).ahead = [] ∧
      s.held = false ∧ (s.aveU a.val).ackAt = none) ∧
    (∃ (s : State), s.ready = true) ∧
    (∃ (i : Fin 16) (a : Nat) (k : Nat) (n : Nat) (p : AvePkt) (q : AvePkt) (s : State), aveTakes (i.val) 8 a p q s ∧ s.aveState a = 3 ∧ fget
      q.w0 { lo := 62, w := 2 } = k ∧ BitVec.toNat q.w3 * 65536 + fget q.w2 { lo := 16, w := 16 } = n ∧ (s.flag (rAVE_CFG a) fAVE_CFG_TRIG_EN =
      false ∨ s.flag (rAVE_TRIG k) fAVE_TRIG_EN = false) ∧ (s.aveU a).viols.length < s.avePar a fAVE_PARAM_VIOL_MAX) ∧
    (∃ (i : Fin 16) (a : Nat) (k : Nat) (n : Nat) (p : AvePkt) (q : AvePkt) (s : State), aveTakes (i.val) 8 a p q s ∧ s.aveState a = 3 ∧ fget
      q.w0 { lo := 62, w := 2 } = k ∧ BitVec.toNat q.w3 * 65536 + fget q.w2 { lo := 16, w := 16 } = n ∧ s.flag (rAVE_CFG a) fAVE_CFG_TRIG_EN =
      true ∧ s.flag (rAVE_TRIG k) fAVE_TRIG_EN = true ∧ aveCanSend a s ∧ s.time ≤ BitVec.toNat q.w3 ∧ BitVec.toNat q.w3 ≤ s.time + s.fld
      (rAVE_TRIG k) fAVE_TRIG_HORIZON ∧ (s.aveU a).seen.contains (fget q.w1 { lo := 0, w := 16 }) = true) ∧
    (∃ (i : Fin 16) (a : Nat) (k : Nat) (n : Nat) (p : AvePkt) (q : AvePkt) (s : State), aveTakes (i.val) 8 a p q s ∧ s.aveState a = 3 ∧ fget
      q.w0 { lo := 62, w := 2 } = k ∧ BitVec.toNat q.w3 * 65536 + fget q.w2 { lo := 16, w := 16 } = n ∧ s.flag (rAVE_CFG a) fAVE_CFG_TRIG_EN =
      true ∧ s.flag (rAVE_TRIG k) fAVE_TRIG_EN = true ∧ aveCanSend a s ∧ s.time ≤ BitVec.toNat q.w3 ∧ BitVec.toNat q.w3 ≤ s.time + s.fld
      (rAVE_TRIG k) fAVE_TRIG_HORIZON ∧ (s.aveU a).seen.contains (fget q.w1 { lo := 0, w := 16 }) = false ∧ (s.slotU k).times.length < 16) ∧
    (∃ (i : Fin 16) (a : Nat) (k : Nat) (n : Nat) (p : AvePkt) (q : AvePkt) (s : State), aveTakes (i.val) 8 a p q s ∧ s.aveState a = 3 ∧ fget
      q.w0 { lo := 62, w := 2 } = k ∧ BitVec.toNat q.w3 * 65536 + fget q.w2 { lo := 16, w := 16 } = n ∧ s.flag (rAVE_CFG a) fAVE_CFG_TRIG_EN =
      true ∧ s.flag (rAVE_TRIG k) fAVE_TRIG_EN = true ∧ aveCanSend a s ∧ s.time ≤ BitVec.toNat q.w3 ∧ BitVec.toNat q.w3 ≤ s.time + s.fld
      (rAVE_TRIG k) fAVE_TRIG_HORIZON ∧ (s.aveU a).seen.contains (fget q.w1 { lo := 0, w := 16 }) = false ∧ 16 ≤ (s.slotU k).times.length) ∧
    (∃ (i : Fin 16) (a : Nat) (p : AvePkt) (q : AvePkt) (s : State), aveTakes (i.val) 9 a p q s ∧ s.aveState a = 3) ∧
    (∃ (v : Word) (a : Nat) (s : State), s.ready = true ∧ fget v fAVE_TRIG_SEND_AVENUE = a ∧ (s.aveState a ≠ 3 ∨ 16 ≤ (s.aveU a).trigs.length))
      ∧
    (∃ (v : Word) (a : Nat) (s : State) (m : AveTrig), s.ready = true ∧ fget v fAVE_TRIG_SEND_AVENUE = a ∧ s.aveState a = 3 ∧ (s.aveU
      a).trigs.length < 16 ∧ aveCanSend a s ∧ m =
      { seq := (s.aveU a).tseq, slot := fget v fAVE_TRIG_SEND_SLOT,     t := BitVec.toNat (s.rd rAVE_TRIG_SEND_TIME) * 65536 + fget v fAVE_TRIG_SEND_FRAC, at_ := s.time, tries := 1 })
      ∧
    (∃ (a : Fin 4096) (s : State), s.glb ≠ 0 ∧ ((s.aveU a.val).trigs = [] ∨ s.aveState a.val ≠ 3 ∨ s.linkUp (s.aveSub a.val) = false)) ∧
    (∃ (a : Fin 4096) (m : AveTrig) (now : Nat) (s : State), s.glb ≠ 0 ∧ (s.aveU a.val).trigs = [m] ∧ s.aveState a.val = 3 ∧ max s.time (m.at_ +
      s.usTicks (s.avePar (a.val) fAVE_PARAM_RTO_US)) = now ∧ s.held = false ∧ s.linkUp (s.aveSub a.val) = true ∧ (m.t ≤ now * 65536 ∨ s.avePar
      (a.val) fAVE_PARAM_RETRY_MAX < m.tries)) ∧
    (∃ (a : Fin 4096) (m : AveTrig) (now : Nat) (s : State), s.glb ≠ 0 ∧ (s.aveU a.val).trigs = [m] ∧ s.aveState a.val = 3 ∧ max s.time (m.at_ +
      s.usTicks (s.avePar (a.val) fAVE_PARAM_RTO_US)) = now ∧ s.held = false ∧ s.linkUp (s.aveSub a.val) = true ∧ now * 65536 < m.t ∧ m.tries ≤
      s.avePar (a.val) fAVE_PARAM_RETRY_MAX ∧ (s.netS (s.aveSub a.val)).pause = none) ∧
    (∃ (k : Fin 4) (s : State), s.glb ≠ 0 ∧ (s.slotU k.val).times = []) ∧
    (∃ (k : Fin 4) (s : State) (n : Nat), s.glb ≠ 0 ∧ (s.slotU k.val).times = [n] ∧ s.held = false) :=
  ⟨⟨(15 : Fin 16), rdy, by decide +kernel⟩,
   ⟨(15 : Fin 16), aveRdy 3 |>.setCtx 0 { octx 0x30000 0 3 with recs := [rec0], wpos := 64 } |>.updAve 0 (fun z => { z with limit := 64 })
      |>.setFld (rNET_EXQ_TX 15) fNET_EXQ_TX_LOG2 4 |>.setFld (rNET_EXQ_TX_IDX 15) fNET_EXQ_TX_IDX_TAIL 1 |>.updHif (fun z =>
      { z with bme := true }) |>.setFld rGLB_HIF_LINK fGLB_HIF_LINK_WIDTH 3, (((aveRdy 3 |>.setCtx 0
      { octx 0x30000 0 3 with recs := [rec0], wpos := 64 } |>.updAve 0 (fun z => { z with limit := 64 }) |>.setFld (rNET_EXQ_TX 15)
      fNET_EXQ_TX_LOG2 4 |>.setFld (rNET_EXQ_TX_IDX 15) fNET_EXQ_TX_IDX_TAIL 1 |>.updHif (fun z => { z with bme := true }) |>.setFld
      rGLB_HIF_LINK fGLB_HIF_LINK_WIDTH 3).aveFirst 15).getD (0, 0, 0, 0)), by decide +kernel⟩,
   ⟨(15 : Fin 16), aveRdy 3 |>.setCtx 0 { octx 0x20000 0 3 with recs := [rec0], wpos := 64 } |>.updAve 0 (fun z =>
      { z with ranges := [(⟨0, 0, 0, 1, 0, false, true⟩ : AveRange)] }), 0, (⟨0, 0, 0, 1, 0, false, true⟩ : AveRange), (5, 0, 0),
      by decide +kernel, by decide +kernel, by decide +kernel, by unfold aveCanSend; decide +kernel, by decide +kernel⟩,
   ⟨(15 : Fin 16), aveRdy 3 |>.setCtx 0 { octx 0x20000 0 3 with recs := [rec0], wpos := 64 } |>.updAve 0 (fun z => { z with limit := 64 }), 0,
      0, 0, rec0, by decide +kernel⟩,
   ⟨(15 : Fin 16), 0, 0, 64, (avePkt 3 (List.replicate 64 0)), (avePkt 3 (List.replicate 64 0)), aveRdy 3 |>.setFld (rAVE_CFG 0) fAVE_CFG_DIR 1,
      by unfold aveTakes; decide +kernel, by decide +kernel⟩,
   ⟨(15 : Fin 16), 0, 0, 64, (avePkt 3 (List.replicate 64 0)), (avePkt 3 (List.replicate 64 0)), aveRdy 3 |>.setFld (rAVE_CFG 0) fAVE_CFG_DIR 1
      |>.updAve 0 (fun z => { z with limit := 64, next := 64 }), by unfold aveTakes; decide +kernel, by decide +kernel⟩,
   ⟨(15 : Fin 16), 0, 64, 128, ({ avePkt 3 (List.replicate 64 0) with w1 := 64 }), ({ avePkt 3 (List.replicate 64 0) with w1 := 64 }), aveRdy 3
      |>.setFld (rAVE_CFG 0) fAVE_CFG_DIR 1 |>.updAve 0 (fun z => { z with limit := 128 }), by unfold aveTakes; decide +kernel,
      by decide +kernel⟩,
   ⟨(15 : Fin 16), 0, 0, 64, (avePkt 3 ([1, 1] ++ List.replicate 22 0 ++ [96] ++ List.replicate 39 0)), (avePkt 3 ([1, 1] ++ List.replicate 22 0
      ++ [96] ++ List.replicate 39 0)), aveRdy 3 |>.setFld (rAVE_CFG 0) fAVE_CFG_DIR 1 |>.updAve 0 (fun z => { z with limit := 64 }),
      by unfold aveTakes; decide +kernel, by decide +kernel⟩,
   ⟨(15 : Fin 16), 0, 0, 64, (avePkt 3 ([1, 1] ++ List.replicate 22 0 ++ [32] ++ List.replicate 39 0)), (avePkt 3 ([1, 1] ++ List.replicate 22 0
      ++ [32] ++ List.replicate 39 0)), aveRdy 3 |>.setFld (rAVE_CFG 0) fAVE_CFG_DIR 1 |>.updAve 0 (fun z => { z with limit := 64 }) |>.setCtx 0
      { octx 0 0 0 with tail := some (3, 16320) }, ((wholeRecs 0 3 ([1, 1] ++ List.replicate 22 0 ++ [32] ++ List.replicate 39 0)).1.headD
      prod0), ([] : List Byte), 0, 3, 16320, by unfold aveTakes; decide +kernel, by decide +kernel⟩,
   ⟨(15 : Fin 16), 0, 64, ({ avePkt 4 [] with w1 := 64 }), ({ avePkt 4 [] with w1 := 64 }), aveRdy 3, by unfold aveTakes; decide +kernel,
      by decide +kernel⟩,
   ⟨(15 : Fin 16), 0, 0, 0, 0, (avePkt 4 []), (avePkt 4 []), aveRdy 3 |>.setCtx 0 { octx 0 0 3 with recs := [rec0], wpos := 64 },
      by unfold aveTakes; decide +kernel, by decide +kernel⟩,
   ⟨(4095 : Fin 4096), rdy, by decide +kernel⟩,
   ⟨(4095 : Fin 4096), rdy, by decide +kernel⟩,
   ⟨(4095 : Fin 4096), rdy |>.setFld (rAVE_STATUS (4095 : Fin 4096)) fAVE_STATUS_STATE 3 |>.setFld (rAVE_CFG (4095 : Fin 4096)) fAVE_CFG_DIR 1
      |>.setFld (rNET_SUB_STATUS 0) fNET_SUB_STATUS_LINK 1 |>.updAve ↑(4095 : Fin 4096) (fun z => { z with ackAt := some 0 }), 0,
      by decide +kernel, by decide +kernel, by decide +kernel, by unfold aveCanSend; decide +kernel, by decide +kernel⟩,
   ⟨(4095 : Fin 4096), rdy |>.setFld (rAVE_STATUS (4095 : Fin 4096)) fAVE_STATUS_STATE 3 |>.setFld (rAVE_CFG (4095 : Fin 4096)) fAVE_CFG_DIR 1
      |>.setFld (rNET_SUB_STATUS 0) fNET_SUB_STATUS_LINK 1, by decide +kernel, by decide +kernel, by decide +kernel,
      by unfold aveCanSend; decide +kernel, by decide +kernel⟩,
   ⟨rdy, by decide +kernel⟩,
   ⟨(15 : Fin 16), 0, 3, 0, ({ avePkt 8 [] with w0 := 0xC000000000008141 }), ({ avePkt 8 [] with w0 := 0xC000000000008141 }), aveRdy 3,
      by unfold aveTakes; decide +kernel, by decide +kernel⟩,
   ⟨(15 : Fin 16), 0, 3, 0, ({ avePkt 8 [] with w0 := 0xC000000000008141 }), ({ avePkt 8 [] with w0 := 0xC000000000008141 }), aveRdy 3 |>.setFld
      (rAVE_CFG 0) fAVE_CFG_TRIG_EN 1 |>.setFld (rAVE_TRIG 3) fAVE_TRIG_EN 1 |>.updAve 0 (fun z => { z with seen := [0] }),
      by unfold aveTakes; decide +kernel, by decide +kernel, by decide +kernel, by decide +kernel, by decide +kernel, by decide +kernel,
      by unfold aveCanSend; decide +kernel, by decide +kernel⟩,
   ⟨(15 : Fin 16), 0, 3, 0, ({ avePkt 8 [] with w0 := 0xC000000000008141 }), ({ avePkt 8 [] with w0 := 0xC000000000008141 }), aveRdy 3 |>.setFld
      (rAVE_CFG 0) fAVE_CFG_TRIG_EN 1 |>.setFld (rAVE_TRIG 3) fAVE_TRIG_EN 1, by unfold aveTakes; decide +kernel, by decide +kernel,
      by decide +kernel, by decide +kernel, by decide +kernel, by decide +kernel, by unfold aveCanSend; decide +kernel, by decide +kernel⟩,
   ⟨(15 : Fin 16), 0, 3, 0, ({ avePkt 8 [] with w0 := 0xC000000000008141 }), ({ avePkt 8 [] with w0 := 0xC000000000008141 }), aveRdy 3 |>.setFld
      (rAVE_CFG 0) fAVE_CFG_TRIG_EN 1 |>.setFld (rAVE_TRIG 3) fAVE_TRIG_EN 1 |>.updSlot 3 (fun z => { z with times := List.replicate 16 0 }),
      by unfold aveTakes; decide +kernel, by decide +kernel, by decide +kernel, by decide +kernel, by decide +kernel, by decide +kernel,
      by unfold aveCanSend; decide +kernel, by decide +kernel⟩,
   ⟨(15 : Fin 16), 0, (avePkt 9 []), (avePkt 9 []), aveRdy 3, by unfold aveTakes; decide +kernel, by decide +kernel⟩,
   ⟨(0 : Word), 0, rdy, by decide +kernel⟩,
   ⟨(0 : Word), 0, rdy |>.setFld (rAVE_STATUS 0) fAVE_STATUS_STATE 3 |>.setFld (rNET_SUB_STATUS 0) fNET_SUB_STATUS_LINK 1, (⟨0, 0, 0, 0, 1⟩ :
      AveTrig), by decide +kernel, by decide +kernel, by decide +kernel, by decide +kernel, by unfold aveCanSend; decide +kernel,
      by decide +kernel⟩,
   ⟨(4095 : Fin 4096), rdy, by decide +kernel⟩,
   ⟨(4095 : Fin 4096), (⟨0, 0, 0, 0, 1⟩ : AveTrig), (max (rdy |>.updAve 4095 (fun z => { z with trigs := [⟨0, 0, 0, 0, 1⟩] }) |>.setFld
      (rAVE_STATUS 4095) fAVE_STATUS_STATE 3 |>.setFld (rNET_SUB_STATUS 0) fNET_SUB_STATUS_LINK 1).time (0 + (rdy |>.updAve 4095 (fun z =>
      { z with trigs := [⟨0, 0, 0, 0, 1⟩] }) |>.setFld (rAVE_STATUS 4095) fAVE_STATUS_STATE 3 |>.setFld (rNET_SUB_STATUS 0) fNET_SUB_STATUS_LINK
      1).usTicks ((rdy |>.updAve 4095 (fun z => { z with trigs := [⟨0, 0, 0, 0, 1⟩] }) |>.setFld (rAVE_STATUS 4095) fAVE_STATUS_STATE 3
      |>.setFld (rNET_SUB_STATUS 0) fNET_SUB_STATUS_LINK 1).avePar 4095 fAVE_PARAM_RTO_US))), rdy |>.updAve 4095 (fun z =>
      { z with trigs := [⟨0, 0, 0, 0, 1⟩] }) |>.setFld (rAVE_STATUS 4095) fAVE_STATUS_STATE 3 |>.setFld (rNET_SUB_STATUS 0) fNET_SUB_STATUS_LINK
      1, by decide +kernel⟩,
   ⟨(4095 : Fin 4096), (⟨0, 0, 2 ^ 60, 0, 1⟩ : AveTrig), (max (rdy |>.updAve 4095 (fun z => { z with trigs := [⟨0, 0, 2 ^ 60, 0, 1⟩] })
      |>.setFld (rAVE_STATUS 4095) fAVE_STATUS_STATE 3 |>.setFld (rNET_SUB_STATUS 0) fNET_SUB_STATUS_LINK 1).time (0 + (rdy |>.updAve 4095 (fun
      z => { z with trigs := [⟨0, 0, 2 ^ 60, 0, 1⟩] }) |>.setFld (rAVE_STATUS 4095) fAVE_STATUS_STATE 3 |>.setFld (rNET_SUB_STATUS 0)
      fNET_SUB_STATUS_LINK 1).usTicks ((rdy |>.updAve 4095 (fun z => { z with trigs := [⟨0, 0, 2 ^ 60, 0, 1⟩] }) |>.setFld (rAVE_STATUS 4095)
      fAVE_STATUS_STATE 3 |>.setFld (rNET_SUB_STATUS 0) fNET_SUB_STATUS_LINK 1).avePar 4095 fAVE_PARAM_RTO_US))), rdy |>.updAve 4095 (fun z =>
      { z with trigs := [⟨0, 0, 2 ^ 60, 0, 1⟩] }) |>.setFld (rAVE_STATUS 4095) fAVE_STATUS_STATE 3 |>.setFld (rNET_SUB_STATUS 0)
      fNET_SUB_STATUS_LINK 1, by decide +kernel⟩,
   ⟨(3 : Fin 4), rdy, by decide +kernel⟩,
   ⟨(3 : Fin 4), rdy |>.updSlot 3 (fun z => { z with times := [5] }), 5, by decide +kernel⟩⟩

theorem test_witness_DisplayOutputs :
    (∃ (n : Fin 2) (ok : Bool) (k : Nat × Nat) (s : State) (l : Nat) (r : Nat), s.glb ≠ 0 ∧ ok = true ∧ s.chooseLink (n.val) (s.actv (rCLK_PIX
      n.val)) k = some (l, r)) ∧
    (∃ (n : Fin 2) (ok : Bool) (k : Nat × Nat) (s : State), s.glb ≠ 0 ∧ (ok = false ∨ s.chooseLink (n.val) (s.actv (rCLK_PIX n.val)) k = none))
      ∧
    (∃ (n : Fin 2) (s : State), s.glb ≠ 0 ∧ s.layerCtx (n.val) 0 = none ∧ s.layerCtx (n.val) 1 = none ∧ (s.disU n.val).gap = 1) ∧
    (∃ (n : Fin 2) (s : State), s.glb ≠ 0 ∧ s.layerCtx (n.val) 0 = none ∧ s.layerCtx (n.val) 1 = none ∧ (s.disU n.val).gap = 2 ∧ s.flag
      (rDIS_CTRL n.val) fDIS_CTRL_COMMIT = false) ∧
    (∃ (n : Fin 2) (s : State), s.glb ≠ 0 ∧ s.layerCtx (n.val) 0 = none ∧ s.layerCtx (n.val) 1 = none ∧ (s.disU n.val).gap = 3 ∧ s.flag
      (rDIS_CTRL n.val) fDIS_CTRL_COMMIT = false ∧ s.afld (rDIS_CTRL n.val) fDIS_CTRL_DEN_EN = 0 ∧ s.afld (rDIS_CTRL n.val) fDIS_CTRL_OVL_EN =
      0) ∧
    (∃ (n : Fin 2) (s : State), s.glb ≠ 0 ∧ s.layerCtx (n.val) 0 = none ∧ s.layerCtx (n.val) 1 = none ∧ (s.disU n.val).gap = 0 ∧ s.flag
      (rDIS_CTRL n.val) fDIS_CTRL_COMMIT = true ∧ s.disCheck n.val ≠ 0 ∧ s.afld (rDIS_CTRL n.val) fDIS_CTRL_DEN_EN = 0 ∧ s.afld (rDIS_CTRL
      n.val) fDIS_CTRL_OVL_EN = 0) ∧
    (∃ (n : Fin 2) (s : State), s.glb ≠ 0 ∧ s.layerCtx (n.val) 0 = none ∧ s.layerCtx (n.val) 1 = none ∧ (s.disU n.val).gap = 0 ∧ s.flag
      (rDIS_CTRL n.val) fDIS_CTRL_COMMIT = true ∧ s.disCheck n.val = 0 ∧ s.flag (rDIS_CTRL n.val) fDIS_CTRL_EN = true ∧ s.flag (rDIS_LINK n.val)
      fDIS_LINK_TRAINED = true ∧ s.actv (rCLK_PIX n.val) = s.rd (rCLK_PIX n.val) ∧ s.fld (rDIS_CTRL n.val) fDIS_CTRL_DEN_EN = 0 ∧ s.fld
      (rDIS_CTRL n.val) fDIS_CTRL_OVL_EN = 0) ∧
    (∃ (n : Fin 2) (s : State) (l : Fin 2) (f : DisFrame), s.glb ≠ 0 ∧ s.layerCtx (n.val) 0 = none ∧ s.layerCtx (n.val) 1 = none ∧ (s.disU
      n.val).gap = 0 ∧ s.flag (rDIS_CTRL n.val) fDIS_CTRL_COMMIT = false ∧ s.afld (rDIS_CTRL n.val) (if l = 0 then fDIS_CTRL_DEN_EN else
      fDIS_CTRL_OVL_EN) = 1 ∧ s.afld (rDIS_CTRL n.val) (if l = 0 then fDIS_CTRL_OVL_EN else fDIS_CTRL_DEN_EN) = 0 ∧ (s.layerU n.val
      l.val).ready.getLast? = some f) ∧
    (∃ (n : Fin 2) (s : State), s.glb ≠ 0 ∧ (s.disU n.val).gap ≠ 1) ∧
    (∃ (n : Fin 2) (s : State), s.glb ≠ 0 ∧ (s.disU n.val).gap = 1 ∧ (s.disU n.val).link = none) ∧
    (∃ (n : Fin 2) (ok : Bool) (s : State) (l : Nat) (r : Nat), s.glb ≠ 0 ∧ (s.disU n.val).gap = 1 ∧ (s.disU n.val).link = some (l, r) ∧ l < 4 ∧
      r < 4 ∧ ok = true) ∧
    (∃ (n : Fin 2) (l : Fin 2) (s : State), s.glb ≠ 0 ∧ s.layerCtx n.val l.val = none) ∧
    (∃ (n : Fin 2) (l : Fin 2) (s : State) (x : Nat) (d : Nat), s.glb ≠ 0 ∧ s.layerCtx n.val l.val = some (x, d) ∧ (s.ctx x).nextRec d = none) ∧
    (∃ (n : Fin 2) (l : Fin 2) (s : State) (x : Nat) (d : Nat) (r : CordRec), s.glb ≠ 0 ∧ l = 0 ∧ s.layerCtx (n.val) 0 = some (x, d) ∧ (s.ctx
      x).nextRec d = some r ∧ r.typ = 32) ∧
    (∃ (n : Fin 2) (l : Fin 2) (s : State) (x : Nat) (d : Nat) (r : CordRec), s.glb ≠ 0 ∧ l = 0 ∧ s.layerCtx (n.val) 0 = some (x, d) ∧ (s.ctx
      x).nextRec d = some r ∧ r.typ ≠ 32 ∧ r.typ ≠ tyPad) ∧
    (∃ (n : Fin 2) (v : Word) (w : Word) (buf : List Byte) (s : State) (e : AuxReply × Nat), s.ready = true ∧ fset v fDIS_AUX_GO 1 = w ∧ leBytes
      8 (BitVec.toNat (s.rd (rDIS_AUX_DATA (n.val) 0))) ++ leBytes 8 (BitVec.toNat (s.rd (rDIS_AUX_DATA (n.val) 1))) = buf ∧ e ∈
      [(AuxReply.nack, 3), (AuxReply.defer, 4), (AuxReply.timeout, 5)]) ∧
    (∃ (n : Fin 2) (v : Word) (w : Word) (buf : List Byte) (s : State) (bs : List Byte), s.ready = true ∧ fset v fDIS_AUX_GO 1 = w ∧ leBytes 8
      (BitVec.toNat (s.rd (rDIS_AUX_DATA (n.val) 0))) ++ leBytes 8 (BitVec.toNat (s.rd (rDIS_AUX_DATA (n.val) 1))) = buf ∧ fget v fDIS_AUX_CMD %
      2 = 1 ∧ bs.length = fget v fDIS_AUX_LEN + 1) ∧
    (∃ (n : Fin 2) (b : Fin 2) (s : State), s.ready = true ∧ s.afld (rDIS_LAYER n.val) fDIS_LAYER_PAL_SEL = b.val) ∧
    (∃ (n : Fin 2) (b : Fin 2) (s : State), s.ready = true ∧ s.afld (rDIS_LAYER n.val) fDIS_LAYER_PAL_SEL ≠ b.val) ∧
    (∃ (n : Fin 2) (y : Fin 65536) (hact : Nat) (s : State), s.glb ≠ 0 ∧ s.afld (rDIS_HTIM n.val) fDIS_HTIM_HACT = hact ∧ (s.afld (rDIS_VTIM
      n.val) fDIS_VTIM_VACT ≤ y.val ∨ s.disState n.val ≠ 1 ∧ (s.disU n.val).gap ≠ 3)) ∧
    (∃ (n : Fin 2) (y : Fin 65536) (hact : Nat) (s : State), s.glb ≠ 0 ∧ s.afld (rDIS_HTIM n.val) fDIS_HTIM_HACT = hact ∧ y.val < s.afld
      (rDIS_VTIM n.val) fDIS_VTIM_VACT ∧ (s.disU n.val).gap = 3) ∧
    (∃ (n : Fin 2) (y : Fin 65536) (hact : Nat) (s : State), s.glb ≠ 0 ∧ s.afld (rDIS_HTIM n.val) fDIS_HTIM_HACT = hact ∧ y.val < s.afld
      (rDIS_VTIM n.val) fDIS_VTIM_VACT ∧ (s.disU n.val).gap ≠ 3 ∧ s.disState n.val = 1 ∧ s.afld (rDIS_CTRL n.val) fDIS_CTRL_DEN_EN = 0 ∧ s.afld
      (rDIS_CTRL n.val) fDIS_CTRL_OVL_EN = 0) ∧
    (∃ (n : Fin 2) (y : Fin 65536) (ovl : Fin 65536) (hact : Nat) (s : State) (f : DisFrame), s.glb ≠ 0 ∧ s.afld (rDIS_HTIM n.val)
      fDIS_HTIM_HACT = hact ∧ y.val < s.afld (rDIS_VTIM n.val) fDIS_VTIM_VACT ∧ (s.disU n.val).gap ≠ 3 ∧ s.disState n.val = 1 ∧ s.afld
      (rDIS_CTRL n.val) fDIS_CTRL_DEN_EN = 0 ∧ s.afld (rDIS_CTRL n.val) fDIS_CTRL_OVL_EN = 1 ∧ (s.layerU (n.val) 1).shown = some f ∧ s.afld
      (rDIS_RECT (n.val) 1) fDIS_RECT_Y ≤ y.val ∧ y.val < s.afld (rDIS_RECT (n.val) 1) fDIS_RECT_Y + s.afld (rDIS_RECT (n.val) 1) fDIS_RECT_H ∧
      ovl.val < s.afld (rDIS_RECT (n.val) 1) fDIS_RECT_X + s.afld (rDIS_RECT (n.val) 1) fDIS_RECT_W) :=
  ⟨⟨(1 : Fin 2), true, ((3, 3) : Nat × Nat), rdy, ((rdy.chooseLink 1 (rdy.actv (rCLK_PIX 1)) (3, 3)).getD (9, 9)).1, ((rdy.chooseLink 1
      (rdy.actv (rCLK_PIX 1)) (3, 3)).getD (9, 9)).2, by decide +kernel⟩,
   ⟨(1 : Fin 2), false, ((0, 0) : Nat × Nat), rdy, by decide +kernel⟩,
   ⟨(1 : Fin 2), rdy |>.updDis ↑(1 : Fin 2) (fun z => { z with gap := 1 }), by decide +kernel⟩,
   ⟨(1 : Fin 2), rdy |>.updDis ↑(1 : Fin 2) (fun z => { z with gap := 2 }), by decide +kernel⟩,
   ⟨(1 : Fin 2), rdy |>.updDis ↑(1 : Fin 2) (fun z => { z with gap := 3 }), by decide +kernel⟩,
   ⟨(1 : Fin 2), rdy |>.setFld (rDIS_CTRL 1) fDIS_CTRL_COMMIT 1 |>.setFld (rDIS_HTIM 1) fDIS_HTIM_HACT 0, by decide +kernel⟩,
   ⟨(1 : Fin 2), rdy |>.setFld (rDIS_CTRL 1) fDIS_CTRL_COMMIT 1 |>.setFld (rDIS_CTRL 1) fDIS_CTRL_EN 1 |>.setFld (rDIS_LINK 1) fDIS_LINK_TRAINED
      1 |>.setFld (rCLK_PIX 1) fCLK_PIX_EN 1 |>.setAct (rCLK_PIX 1) (fset (resetWord (rCLK_PIX 1)) fCLK_PIX_EN 1), by decide +kernel⟩,
   ⟨(1 : Fin 2), rdy |>.setAct (rDIS_CTRL 1) (fset 0 fDIS_CTRL_OVL_EN 1) |>.updLayer 1 1 (fun z => { z with ready := [⟨0, 0, 0, []⟩] }), (1 :
      Fin 2), (⟨0, 0, 0, []⟩ : DisFrame), by decide +kernel⟩,
   ⟨(1 : Fin 2), rdy, by decide +kernel⟩,
   ⟨(1 : Fin 2), rdy |>.updDis ↑(1 : Fin 2) (fun z => { z with gap := 1 }), by decide +kernel⟩,
   ⟨(1 : Fin 2), (true), rdy |>.updDis ↑(1 : Fin 2) (fun z => { z with gap := 1 }) |>.updDis ↑(1 : Fin 2) (fun z =>
      { z with link := some (0, 0) }), 0, 0, by decide +kernel⟩,
   ⟨(1 : Fin 2), (1 : Fin 2), rdy, by decide +kernel⟩,
   ⟨(1 : Fin 2), (1 : Fin 2), rdy |>.setCtx 9 { octx 0 0 28 with recs := [], wpos := 64 }, 9, 0, by decide +kernel⟩,
   ⟨(1 : Fin 2), (0 : Fin 2), rdy |>.setCtx 9 { octx 0 0 20 with recs := [{ rec0 with typ := 32 }], wpos := 64 }, 9, 0, { rec0 with typ := 32 },
      by decide +kernel⟩,
   ⟨(1 : Fin 2), (0 : Fin 2), rdy |>.setCtx 9 { octx 0 0 20 with recs := [rec0], wpos := 64 }, 9, 0, rec0, by decide +kernel⟩,
   ⟨(1 : Fin 2), (0 : Word), (fset (0 : Word) fDIS_AUX_GO 1), (leBytes 8 (rdy.rd (rDIS_AUX_DATA 1 0)).toNat ++ leBytes 8 (rdy.rd (rDIS_AUX_DATA
      1 1)).toNat), rdy, (AuxReply.nack, 3), by decide +kernel, by decide +kernel, by decide +kernel, by simp⟩,
   ⟨(1 : Fin 2), (fset (0 : Word) fDIS_AUX_CMD 1), (fset (fset (0 : Word) fDIS_AUX_CMD 1) fDIS_AUX_GO 1), (leBytes 8 (rdy.rd (rDIS_AUX_DATA 1
      0)).toNat ++ leBytes 8 (rdy.rd (rDIS_AUX_DATA 1 1)).toNat), rdy, ([5] : List Byte), by decide +kernel⟩,
   ⟨(1 : Fin 2), (1 : Fin 2), rdy |>.setAct (rDIS_LAYER 1) (fset 0 fDIS_LAYER_PAL_SEL 1), by decide +kernel⟩,
   ⟨(1 : Fin 2), (1 : Fin 2), rdy, by decide +kernel⟩,
   ⟨(1 : Fin 2), (65535 : Fin 65536), (rdy.afld (rDIS_HTIM ↑(1 : Fin 2)) fDIS_HTIM_HACT), rdy, by decide +kernel⟩,
   ⟨(1 : Fin 2), (0 : Fin 65536), ((rdy |>.updDis 1 (fun z => { z with gap := 3 })).afld (rDIS_HTIM 1) fDIS_HTIM_HACT), rdy |>.updDis 1 (fun z
      => { z with gap := 3 }), by decide +kernel⟩,
   ⟨(1 : Fin 2), (0 : Fin 65536), ((rdy |>.setFld (rDIS_CTRL 1) fDIS_CTRL_STATE 1).afld (rDIS_HTIM 1) fDIS_HTIM_HACT), rdy |>.setFld (rDIS_CTRL
      1) fDIS_CTRL_STATE 1, by decide +kernel⟩,
   ⟨(1 : Fin 2), (0 : Fin 65536), (0 : Fin 65536), ((rdy |>.setFld (rDIS_CTRL 1) fDIS_CTRL_STATE 1 |>.setAct (rDIS_CTRL 1) (fset 0
      fDIS_CTRL_OVL_EN 1) |>.updLayer 1 1 (fun z => { z with shown := some ⟨0, 0, 0, []⟩ }) |>.setAct (rDIS_RECT 1 1) (fset (fset 0 fDIS_RECT_H
      1) fDIS_RECT_W 1)).afld (rDIS_HTIM 1) fDIS_HTIM_HACT), rdy |>.setFld (rDIS_CTRL 1) fDIS_CTRL_STATE 1 |>.setAct (rDIS_CTRL 1) (fset 0
      fDIS_CTRL_OVL_EN 1) |>.updLayer 1 1 (fun z => { z with shown := some ⟨0, 0, 0, []⟩ }) |>.setAct (rDIS_RECT 1 1) (fset (fset 0 fDIS_RECT_H
      1) fDIS_RECT_W 1), (⟨0, 0, 0, []⟩ : DisFrame), by decide +kernel⟩⟩

theorem test_witness_StokerCommands :
    (∃ (v : Word) (c : Nat) (s : State), s.windowOpen rSTK_CMD = true ∧ fget v fSTK_CMD_CMD = c ∧ (c = 0 ∨ 8 < c ∨ 16 ≤ s.stk.queue.length ∨
      s.bootHalt = true ∧ c ≠ 3)) ∧
    (∃ (v : Word) (c : Nat) (s : State) (k : Nat), s.windowOpen rSTK_CMD = true ∧ fget v fSTK_CMD_CMD = c ∧ 1 ≤ c ∧ c ≤ 8 ∧ s.stk.queue.length <
      16 ∧ (s.bootHalt = false ∨ c = 3) ∧ s.fld rSTK_QUEUE fSTK_QUEUE_NEXT_TICKET = k) ∧
    (∃ (v : Word) (k : Nat) (s : State), s.windowOpen rSTK_CANCEL = true ∧ fget v fSTK_CANCEL_TICKET = k ∧ (∀ (c : StkCmd), c ∈ s.stk.queue →
      c.ticket ≠ k ∨ c.run = true)) ∧
    (∃ (v : Word) (k : Nat) (s : State) (c : StkCmd), s.windowOpen rSTK_CANCEL = true ∧ fget v fSTK_CANCEL_TICKET = k ∧ c ∈ s.stk.queue ∧
      c.ticket = k ∧ c.run = false) ∧
    (∃ (img : HostRead) (data : HostRead) (ok : Bool) (s : State) (e : Instr × Nat), s.glb ≠ 0 ∧ e ∈   [(Instr.stkNop, 1), (Instr.flashRead, 2),
      (Instr.flashUpdate img ok, 3), (Instr.calStore, 4),     (Instr.keyProvision data ok, 5), (Instr.keyLock ok, 6), (Instr.svnCommit ok, 7),
      (Instr.secureEnable ok, 8)] ∧ (s.stkServes = false ∨ ∀ (c : StkCmd), s.stk.queue.head? = some c → c.code ≠ e.snd)) ∧
    (∃ (c : StkCmd) (rest : List StkCmd) (l : List Nat) (s : State), s.glb ≠ 0 ∧ s.stk.queue = c :: rest ∧ s.stkServes = true ∧ [rSTK_QUEUE,
      rSTK_RESULT (c.ticket % 16), rSTK_STATUS] = l ∧ c.code = 1) ∧
    (∃ (c : StkCmd) (rest : List StkCmd) (l : List Nat) (s : State), s.glb ≠ 0 ∧ s.stk.queue = c :: rest ∧ s.stkServes = true ∧ [rSTK_QUEUE,
      rSTK_RESULT (c.ticket % 16), rSTK_STATUS] = l ∧ c.code = 2 ∧ s.storing = true) ∧
    (∃ (c : StkCmd) (rest : List StkCmd) (l : List Nat) (s : State), s.glb ≠ 0 ∧ s.stk.queue = c :: rest ∧ s.stkServes = true ∧ [rSTK_QUEUE,
      rSTK_RESULT (c.ticket % 16), rSTK_STATUS] = l ∧ c.code = 2 ∧ s.storing = false ∧ (c.arg 0 % 64 ≠ 0 ∨ c.arg 1 % 64 ≠ 0 ∨ c.arg 2 % 64 ≠ 0 ∨
      2 ^ 24 < c.arg 0 + c.arg 2)) ∧
    (∃ (c : StkCmd) (rest : List StkCmd) (l : List Nat) (s : State), s.glb ≠ 0 ∧ s.stk.queue = c :: rest ∧ s.stkServes = true ∧ [rSTK_QUEUE,
      rSTK_RESULT (c.ticket % 16), rSTK_STATUS] = l ∧ c.code = 2 ∧ s.storing = false ∧ c.arg 0 % 64 = 0 ∧ c.arg 1 % 64 = 0 ∧ c.arg 2 % 64 = 0 ∧
      c.arg 0 + c.arg 2 ≤ 2 ^ 24 ∧ s.busOk = false) ∧
    (∃ (c : StkCmd) (rest : List StkCmd) (l : List Nat) (s : State), s.glb ≠ 0 ∧ s.stk.queue = c :: rest ∧ s.stkServes = true ∧ [rSTK_QUEUE,
      rSTK_RESULT (c.ticket % 16), rSTK_STATUS] = l ∧ c.code = 2 ∧ s.storing = false ∧ c.arg 0 % 64 = 0 ∧ c.arg 1 % 64 = 0 ∧ c.arg 2 % 64 = 0 ∧
      c.arg 0 + c.arg 2 ≤ 2 ^ 24 ∧ s.busOk = true ∧ s.flag rEVT_CTRL fEVT_CTRL_RING_EN = false) ∧
    (∃ (c : StkCmd) (rest : List StkCmd) (l : List Nat) (s : State), s.glb ≠ 0 ∧ s.stk.queue = c :: rest ∧ s.stkServes = true ∧ [rSTK_QUEUE,
      rSTK_RESULT (c.ticket % 16), rSTK_STATUS] = l ∧ c.code = 4 ∧ c.run = false ∧ s.storing = false ∧ s.calState ≠ 0) ∧
    (∃ (c : StkCmd) (rest : List StkCmd) (l : List Nat) (s : State), s.glb ≠ 0 ∧ s.stk.queue = c :: rest ∧ s.stkServes = true ∧ [rSTK_QUEUE,
      rSTK_RESULT (c.ticket % 16), rSTK_STATUS] = l ∧ c.code = 4 ∧ c.run = false ∧ s.storing = false ∧ s.calState = 0 ∧ s.fld rCAL_STORE
      fCAL_STORE_SEQ < 200000 ∧ s.flashBusy = false) ∧
    (∃ (c : StkCmd) (rest : List StkCmd) (kind : Nat) (n : Nat) (a : Nat) (l : List Nat) (s : State), s.glb ≠ 0 ∧ s.stk.queue = c :: rest ∧
      s.stkServes = true ∧ c.code = 3 ∧ s.storing = false ∧ c.arg 0 = kind ∧ c.arg 2 = n ∧ slotAt kind (s.updateSlot kind) = a ∧ [rSTK_QUEUE,
      rSTK_RESULT (c.ticket % 16), rSTK_STATUS] = l ∧ c.run = false ∧ (1 < kind ∨ slotSize kind < n ∨ s.bootHalt = true ∧ kind ≠ 0)) ∧
    (∃ (c : StkCmd) (rest : List StkCmd) (img : HostRead) (kind : Nat) (n : Nat) (a : Nat) (l : List Nat) (s : State), s.glb ≠ 0 ∧ s.stk.queue =
      c :: rest ∧ s.stkServes = true ∧ c.code = 3 ∧ s.storing = false ∧ c.arg 0 = kind ∧ c.arg 2 = n ∧ slotAt kind (s.updateSlot kind) = a ∧
      [rSTK_QUEUE, rSTK_RESULT (c.ticket % 16), rSTK_STATUS] = l ∧ c.run = false ∧ kind ≤ 1 ∧ n ≤ slotSize kind ∧ (s.bootHalt = false ∨ kind =
      0) ∧ (img.fail ≠ none ∨ s.busOk = false)) ∧
    (∃ (c : StkCmd) (rest : List StkCmd) (img : HostRead) (kind : Nat) (n : Nat) (a : Nat) (l : List Nat) (s : State) (code : Nat) (old : Nat ×
      Nat), s.glb ≠ 0 ∧ s.stk.queue = c :: rest ∧ s.stkServes = true ∧ c.code = 3 ∧ s.storing = false ∧ c.arg 0 = kind ∧ c.arg 2 = n ∧ slotAt
      kind (s.updateSlot kind) = a ∧ [rSTK_QUEUE, rSTK_RESULT (c.ticket % 16), rSTK_STATUS] = l ∧ c.run = false ∧ kind ≤ 1 ∧ n ≤ slotSize kind ∧
      (s.bootHalt = false ∨ kind = 0) ∧ img.fail = none ∧ s.busOk = true ∧ img.bytes.length = n ∧ (s.containerCode kind n (List.take 64
      img.bytes) fun k => List.take k img.bytes) = code ∧ (s.fld rSEC_SVN (if kind = 0 then fSEC_SVN_K_SVN else fSEC_SVN_P_SVN),     s.fld
      rSEC_REV (if kind = 0 then fSEC_REV_K_REV else fSEC_REV_P_REV)) =   old) ∧
    (∃ (c : StkCmd) (rest : List StkCmd) (ok : Bool) (kind : Nat) (n : Nat) (a : Nat) (l : List Nat) (s : State), s.glb ≠ 0 ∧ s.stk.queue = c ::
      rest ∧ s.stkServes = true ∧ c.code = 3 ∧ s.storing = false ∧ c.arg 0 = kind ∧ c.arg 2 = n ∧ slotAt kind (s.updateSlot kind) = a ∧
      [rSTK_QUEUE, rSTK_RESULT (c.ticket % 16), rSTK_STATUS] = l ∧ c.run = true ∧ ok = true) ∧
    (∃ (c : StkCmd) (rest : List StkCmd) (ok : Bool) (kind : Nat) (n : Nat) (a : Nat) (l : List Nat) (s : State), s.glb ≠ 0 ∧ s.stk.queue = c ::
      rest ∧ s.stkServes = true ∧ c.code = 3 ∧ s.storing = false ∧ c.arg 0 = kind ∧ c.arg 2 = n ∧ slotAt kind (s.updateSlot kind) = a ∧
      [rSTK_QUEUE, rSTK_RESULT (c.ticket % 16), rSTK_STATUS] = l ∧ c.run = true ∧ ok = false) ∧
    (∃ (c : StkCmd) (rest : List StkCmd) (l : List Nat) (s : State), s.glb ≠ 0 ∧ s.stk.queue = c :: rest ∧ s.stkServes = true ∧ [rSTK_QUEUE,
      rSTK_RESULT (c.ticket % 16), rSTK_STATUS] = l ∧ c.code = 5 ∧ s.storing = false ∧ s.stk.keyHash ≠ none) ∧
    (∃ (c : StkCmd) (rest : List StkCmd) (data : HostRead) (ok : Bool) (l : List Nat) (s : State), s.glb ≠ 0 ∧ s.stk.queue = c :: rest ∧
      s.stkServes = true ∧ [rSTK_QUEUE, rSTK_RESULT (c.ticket % 16), rSTK_STATUS] = l ∧ c.code = 5 ∧ s.storing = false ∧ s.stk.keyHash = none ∧
      data.fail = none ∧ s.busOk = true ∧ ok = true) ∧
    (∃ (c : StkCmd) (rest : List StkCmd) (data : HostRead) (ok : Bool) (l : List Nat) (s : State), s.glb ≠ 0 ∧ s.stk.queue = c :: rest ∧
      s.stkServes = true ∧ [rSTK_QUEUE, rSTK_RESULT (c.ticket % 16), rSTK_STATUS] = l ∧ c.code = 5 ∧ s.storing = false ∧ s.stk.keyHash = none ∧
      data.fail = none ∧ s.busOk = true ∧ ok = false) ∧
    (∃ (c : StkCmd) (rest : List StkCmd) (l : List Nat) (s : State), s.glb ≠ 0 ∧ s.stk.queue = c :: rest ∧ s.stkServes = true ∧ [rSTK_QUEUE,
      rSTK_RESULT (c.ticket % 16), rSTK_STATUS] = l ∧ c.code = 6 ∧ s.stk.key = none) ∧
    (∃ (c : StkCmd) (rest : List StkCmd) (l : List Nat) (s : State) (k : Nat), s.glb ≠ 0 ∧ s.stk.queue = c :: rest ∧ s.stkServes = true ∧
      [rSTK_QUEUE, rSTK_RESULT (c.ticket % 16), rSTK_STATUS] = l ∧ c.code = 6 ∧ s.stk.key = some k ∧ s.stk.keyHash ≠ none) ∧
    (∃ (c : StkCmd) (rest : List StkCmd) (ok : Bool) (l : List Nat) (s : State) (k : Nat), s.glb ≠ 0 ∧ s.stk.queue = c :: rest ∧ s.stkServes =
      true ∧ [rSTK_QUEUE, rSTK_RESULT (c.ticket % 16), rSTK_STATUS] = l ∧ c.code = 6 ∧ s.stk.key = some k ∧ s.stk.keyHash = none ∧ ok = false) ∧
    (∃ (c : StkCmd) (rest : List StkCmd) (ok : Bool) (l : List Nat) (s : State) (k : Nat), s.glb ≠ 0 ∧ s.stk.queue = c :: rest ∧ s.stkServes =
      true ∧ [rSTK_QUEUE, rSTK_RESULT (c.ticket % 16), rSTK_STATUS] = l ∧ c.code = 6 ∧ s.stk.key = some k ∧ s.stk.keyHash = none ∧ ok = true) ∧
    (∃ (c : StkCmd) (rest : List StkCmd) (l : List Nat) (s : State), s.glb ≠ 0 ∧ s.stk.queue = c :: rest ∧ s.stkServes = true ∧ [rSTK_QUEUE,
      rSTK_RESULT (c.ticket % 16), rSTK_STATUS] = l ∧ c.code = 7 ∧ 1 < c.arg 0) ∧
    (∃ (c : StkCmd) (rest : List StkCmd) (l : List Nat) (s : State) (svn : Nat), s.glb ≠ 0 ∧ s.stk.queue = c :: rest ∧ s.stkServes = true ∧
      [rSTK_QUEUE, rSTK_RESULT (c.ticket % 16), rSTK_STATUS] = l ∧ c.code = 7 ∧ c.arg 0 = 0 ∧ s.fld rSEC_SVN fSEC_SVN_K_SVN = svn ∧ svn ≤
      s.stk.kFloor) ∧
    (∃ (c : StkCmd) (rest : List StkCmd) (ok : Bool) (l : List Nat) (s : State) (svn : Nat), s.glb ≠ 0 ∧ s.stk.queue = c :: rest ∧ s.stkServes =
      true ∧ [rSTK_QUEUE, rSTK_RESULT (c.ticket % 16), rSTK_STATUS] = l ∧ c.code = 7 ∧ c.arg 0 = 0 ∧ s.fld rSEC_SVN fSEC_SVN_K_SVN = svn ∧
      s.stk.kFloor < svn ∧ ok = false) ∧
    (∃ (c : StkCmd) (rest : List StkCmd) (ok : Bool) (l : List Nat) (s : State) (svn : Nat), s.glb ≠ 0 ∧ s.stk.queue = c :: rest ∧ s.stkServes =
      true ∧ [rSTK_QUEUE, rSTK_RESULT (c.ticket % 16), rSTK_STATUS] = l ∧ c.code = 7 ∧ c.arg 0 = 0 ∧ s.fld rSEC_SVN fSEC_SVN_K_SVN = svn ∧
      s.stk.kFloor < svn ∧ ok = true) ∧
    (∃ (c : StkCmd) (rest : List StkCmd) (l : List Nat) (s : State), s.glb ≠ 0 ∧ s.stk.queue = c :: rest ∧ s.stkServes = true ∧ [rSTK_QUEUE,
      rSTK_RESULT (c.ticket % 16), rSTK_STATUS] = l ∧ c.code = 8 ∧ s.stk.keyHash = none) ∧
    (∃ (c : StkCmd) (rest : List StkCmd) (l : List Nat) (s : State), s.glb ≠ 0 ∧ s.stk.queue = c :: rest ∧ s.stkServes = true ∧ [rSTK_QUEUE,
      rSTK_RESULT (c.ticket % 16), rSTK_STATUS] = l ∧ c.code = 8 ∧ s.stk.keyHash ≠ none ∧ s.stk.armed = true) ∧
    (∃ (c : StkCmd) (rest : List StkCmd) (ok : Bool) (l : List Nat) (s : State), s.glb ≠ 0 ∧ s.stk.queue = c :: rest ∧ s.stkServes = true ∧
      [rSTK_QUEUE, rSTK_RESULT (c.ticket % 16), rSTK_STATUS] = l ∧ c.code = 8 ∧ s.stk.keyHash ≠ none ∧ s.stk.armed = false ∧ ok = false) ∧
    (∃ (c : StkCmd) (rest : List StkCmd) (ok : Bool) (l : List Nat) (s : State), s.glb ≠ 0 ∧ s.stk.queue = c :: rest ∧ s.stkServes = true ∧
      [rSTK_QUEUE, rSTK_RESULT (c.ticket % 16), rSTK_STATUS] = l ∧ c.code = 8 ∧ s.stk.keyHash ≠ none ∧ s.stk.armed = false ∧ ok = true) :=
  ⟨⟨(0 : Word), 0, rdy, by decide +kernel⟩,
   ⟨(fset (0 : Word) fSTK_CMD_CMD 8), 8, rdy, (rdy.fld rSTK_QUEUE fSTK_QUEUE_NEXT_TICKET), by decide +kernel⟩,
   ⟨(0 : Word), 0, rdy, by decide +kernel⟩,
   ⟨(fset (0 : Word) fSTK_CANCEL_TICKET 7), 7, rdy |>.setFld rSTK_STATUS fSTK_STATUS_STATE 2 |>.updStk (fun z =>
      { z with queue := [⟨7, 1, [], false⟩] }), (⟨7, 1, [], false⟩ : StkCmd), by decide +kernel⟩,
   ⟨(⟨[], none⟩ : HostRead), (⟨[], none⟩ : HostRead), false, rdy, (Instr.stkNop, 1), by decide +kernel, by simp, by decide +kernel⟩,
   ⟨(⟨7, 1, [], false⟩ : StkCmd), ([] : List StkCmd), ([rSTK_QUEUE, rSTK_RESULT ((⟨7, 1, [], false⟩ : StkCmd).ticket % 16), rSTK_STATUS]), rdy
      |>.updStk (fun z => { z with queue := (⟨7, 1, [], false⟩ : StkCmd) :: ([] : List StkCmd) }) |>.setFld rSTK_STATUS fSTK_STATUS_STATE 2,
      by decide +kernel⟩,
   ⟨{ (⟨7, 1, [], false⟩ : StkCmd) with code := 2 }, ([] : List StkCmd), ([rSTK_QUEUE, rSTK_RESULT
      (({ (⟨7, 1, [], false⟩ : StkCmd) with code := 2 }).ticket % 16), rSTK_STATUS]), rdy |>.updStk (fun z =>
      { z with queue := ({ (⟨7, 1, [], false⟩ : StkCmd) with code := 2 }) :: ([] : List StkCmd) }) |>.setFld rSTK_STATUS fSTK_STATUS_STATE 2
      |>.setFld rCAL_STATUS fCAL_STATUS_STATE 2, by decide +kernel⟩,
   ⟨(⟨7, 2, [1], false⟩ : StkCmd), ([] : List StkCmd), [rSTK_QUEUE, rSTK_RESULT 7, rSTK_STATUS], rdy |>.setFld rSTK_STATUS fSTK_STATUS_STATE 2
      |>.updStk (fun z => { z with queue := [⟨7, 2, [1], false⟩] }), by decide +kernel⟩,
   ⟨{ (⟨7, 1, [], false⟩ : StkCmd) with code := 2 }, ([] : List StkCmd), ([rSTK_QUEUE, rSTK_RESULT
      (({ (⟨7, 1, [], false⟩ : StkCmd) with code := 2 }).ticket % 16), rSTK_STATUS]), rdy |>.updStk (fun z =>
      { z with queue := ({ (⟨7, 1, [], false⟩ : StkCmd) with code := 2 }) :: ([] : List StkCmd) }) |>.setFld rSTK_STATUS fSTK_STATUS_STATE 2,
      by decide +kernel⟩,
   ⟨{ (⟨7, 1, [], false⟩ : StkCmd) with code := 2 }, ([] : List StkCmd), ([rSTK_QUEUE, rSTK_RESULT
      (({ (⟨7, 1, [], false⟩ : StkCmd) with code := 2 }).ticket % 16), rSTK_STATUS]), rdy |>.updStk (fun z =>
      { z with queue := ({ (⟨7, 1, [], false⟩ : StkCmd) with code := 2 }) :: ([] : List StkCmd) }) |>.setFld rSTK_STATUS fSTK_STATUS_STATE 2
      |>.updHif (fun z => { z with bme := true }) |>.setFld rGLB_HIF_LINK fGLB_HIF_LINK_WIDTH 3, by decide +kernel⟩,
   ⟨{ (⟨7, 1, [], false⟩ : StkCmd) with code := 4 }, ([] : List StkCmd), ([rSTK_QUEUE, rSTK_RESULT
      (({ (⟨7, 1, [], false⟩ : StkCmd) with code := 4 }).ticket % 16), rSTK_STATUS]), rdy |>.updStk (fun z =>
      { z with queue := ({ (⟨7, 1, [], false⟩ : StkCmd) with code := 4 }) :: ([] : List StkCmd) }) |>.setFld rSTK_STATUS fSTK_STATUS_STATE 2
      |>.setFld rCAL_STATUS fCAL_STATUS_STATE 1, by decide +kernel⟩,
   ⟨{ (⟨7, 1, [], false⟩ : StkCmd) with code := 4 }, ([] : List StkCmd), ([rSTK_QUEUE, rSTK_RESULT
      (({ (⟨7, 1, [], false⟩ : StkCmd) with code := 4 }).ticket % 16), rSTK_STATUS]), rdy |>.updStk (fun z =>
      { z with queue := ({ (⟨7, 1, [], false⟩ : StkCmd) with code := 4 }) :: ([] : List StkCmd) }) |>.setFld rSTK_STATUS fSTK_STATUS_STATE 2,
      by decide +kernel⟩,
   ⟨(⟨7, 3, [2], false⟩ : StkCmd), ([] : List StkCmd), 2, 0, (slotAt 2 ((rdy |>.setFld rSTK_STATUS fSTK_STATUS_STATE 2 |>.updStk (fun z =>
      { z with queue := [⟨7, 3, [2], false⟩] })).updateSlot 2)), [rSTK_QUEUE, rSTK_RESULT 7, rSTK_STATUS], rdy |>.setFld rSTK_STATUS
      fSTK_STATUS_STATE 2 |>.updStk (fun z => { z with queue := [⟨7, 3, [2], false⟩] }), by decide +kernel⟩,
   ⟨{ (⟨7, 1, [], false⟩ : StkCmd) with code := 3 }, ([] : List StkCmd), (⟨[], none⟩ : HostRead), 0, 0, (slotAt 0 ((rdy |>.updStk (fun z =>
      { z with queue := ({ (⟨7, 1, [], false⟩ : StkCmd) with code := 3 }) :: ([] : List StkCmd) }) |>.setFld rSTK_STATUS fSTK_STATUS_STATE
      2).updateSlot 0)), ([rSTK_QUEUE, rSTK_RESULT (({ (⟨7, 1, [], false⟩ : StkCmd) with code := 3 }).ticket % 16), rSTK_STATUS]), rdy |>.updStk
      (fun z => { z with queue := ({ (⟨7, 1, [], false⟩ : StkCmd) with code := 3 }) :: ([] : List StkCmd) }) |>.setFld rSTK_STATUS
      fSTK_STATUS_STATE 2, by decide +kernel⟩,
   ⟨{ (⟨7, 1, [], false⟩ : StkCmd) with code := 3 }, ([] : List StkCmd), (⟨[], none⟩ : HostRead), 0, 0, (slotAt 0 ((rdy |>.updStk (fun z =>
      { z with queue := ({ (⟨7, 1, [], false⟩ : StkCmd) with code := 3 }) :: ([] : List StkCmd) }) |>.setFld rSTK_STATUS fSTK_STATUS_STATE 2
      |>.updHif (fun z => { z with bme := true }) |>.setFld rGLB_HIF_LINK fGLB_HIF_LINK_WIDTH 3).updateSlot 0)), ([rSTK_QUEUE, rSTK_RESULT
      (({ (⟨7, 1, [], false⟩ : StkCmd) with code := 3 }).ticket % 16), rSTK_STATUS]), rdy |>.updStk (fun z =>
      { z with queue := ({ (⟨7, 1, [], false⟩ : StkCmd) with code := 3 }) :: ([] : List StkCmd) }) |>.setFld rSTK_STATUS fSTK_STATUS_STATE 2
      |>.updHif (fun z => { z with bme := true }) |>.setFld rGLB_HIF_LINK fGLB_HIF_LINK_WIDTH 3, (((rdy |>.updStk (fun z =>
      { z with queue := ({ (⟨7, 1, [], false⟩ : StkCmd) with code := 3 }) :: ([] : List StkCmd) }) |>.setFld rSTK_STATUS fSTK_STATUS_STATE 2
      |>.updHif (fun z => { z with bme := true }) |>.setFld rGLB_HIF_LINK fGLB_HIF_LINK_WIDTH 3).containerCode 0 0 (List.take 64 (⟨[], none⟩ :
      HostRead).bytes) fun k => List.take k (⟨[], none⟩ : HostRead).bytes)), ((0, 0) : Nat × Nat), by decide +kernel⟩,
   ⟨{ { (⟨7, 1, [], false⟩ : StkCmd) with code := 3 } with run := true }, ([] : List StkCmd), (true), 0, 0, (slotAt 0 ((rdy |>.updStk (fun z =>
      { z with queue := ({ { (⟨7, 1, [], false⟩ : StkCmd) with code := 3 } with run := true }) :: ([] : List StkCmd) }) |>.setFld rSTK_STATUS
      fSTK_STATUS_STATE 2).updateSlot 0)), ([rSTK_QUEUE, rSTK_RESULT
      (({ { (⟨7, 1, [], false⟩ : StkCmd) with code := 3 } with run := true }).ticket % 16), rSTK_STATUS]), rdy |>.updStk (fun z =>
      { z with queue := ({ { (⟨7, 1, [], false⟩ : StkCmd) with code := 3 } with run := true }) :: ([] : List StkCmd) }) |>.setFld rSTK_STATUS
      fSTK_STATUS_STATE 2, by decide +kernel⟩,
   ⟨{ { (⟨7, 1, [], false⟩ : StkCmd) with code := 3 } with run := true }, ([] : List StkCmd), false, 0, 0, (slotAt 0 ((rdy |>.updStk (fun z =>
      { z with queue := ({ { (⟨7, 1, [], false⟩ : StkCmd) with code := 3 } with run := true }) :: ([] : List StkCmd) }) |>.setFld rSTK_STATUS
      fSTK_STATUS_STATE 2).updateSlot 0)), ([rSTK_QUEUE, rSTK_RESULT
      (({ { (⟨7, 1, [], false⟩ : StkCmd) with code := 3 } with run := true }).ticket % 16), rSTK_STATUS]), rdy |>.updStk (fun z =>
      { z with queue := ({ { (⟨7, 1, [], false⟩ : StkCmd) with code := 3 } with run := true }) :: ([] : List StkCmd) }) |>.setFld rSTK_STATUS
      fSTK_STATUS_STATE 2, by decide +kernel⟩,
   ⟨(⟨7, 5, [], false⟩ : StkCmd), ([] : List StkCmd), [rSTK_QUEUE, rSTK_RESULT 7, rSTK_STATUS], rdy |>.setFld rSTK_STATUS fSTK_STATUS_STATE 2
      |>.updStk (fun z => { z with queue := [⟨7, 5, [], false⟩], keyHash := some 5 }), by decide +kernel⟩,
   ⟨{ (⟨7, 1, [], false⟩ : StkCmd) with code := 5 }, ([] : List StkCmd), (⟨[], none⟩ : HostRead), (true), ([rSTK_QUEUE, rSTK_RESULT
      (({ (⟨7, 1, [], false⟩ : StkCmd) with code := 5 }).ticket % 16), rSTK_STATUS]), rdy |>.updStk (fun z =>
      { z with queue := ({ (⟨7, 1, [], false⟩ : StkCmd) with code := 5 }) :: ([] : List StkCmd) }) |>.setFld rSTK_STATUS fSTK_STATUS_STATE 2
      |>.updHif (fun z => { z with bme := true }) |>.setFld rGLB_HIF_LINK fGLB_HIF_LINK_WIDTH 3, by decide +kernel⟩,
   ⟨{ (⟨7, 1, [], false⟩ : StkCmd) with code := 5 }, ([] : List StkCmd), (⟨[], none⟩ : HostRead), false, ([rSTK_QUEUE, rSTK_RESULT
      (({ (⟨7, 1, [], false⟩ : StkCmd) with code := 5 }).ticket % 16), rSTK_STATUS]), rdy |>.updStk (fun z =>
      { z with queue := ({ (⟨7, 1, [], false⟩ : StkCmd) with code := 5 }) :: ([] : List StkCmd) }) |>.setFld rSTK_STATUS fSTK_STATUS_STATE 2
      |>.updHif (fun z => { z with bme := true }) |>.setFld rGLB_HIF_LINK fGLB_HIF_LINK_WIDTH 3, by decide +kernel⟩,
   ⟨{ (⟨7, 1, [], false⟩ : StkCmd) with code := 6 }, ([] : List StkCmd), ([rSTK_QUEUE, rSTK_RESULT
      (({ (⟨7, 1, [], false⟩ : StkCmd) with code := 6 }).ticket % 16), rSTK_STATUS]), rdy |>.updStk (fun z =>
      { z with queue := ({ (⟨7, 1, [], false⟩ : StkCmd) with code := 6 }) :: ([] : List StkCmd) }) |>.setFld rSTK_STATUS fSTK_STATUS_STATE 2,
      by decide +kernel⟩,
   ⟨(⟨7, 6, [], false⟩ : StkCmd), ([] : List StkCmd), [rSTK_QUEUE, rSTK_RESULT 7, rSTK_STATUS], rdy |>.setFld rSTK_STATUS fSTK_STATUS_STATE 2
      |>.updStk (fun z => { z with queue := [⟨7, 6, [], false⟩], keyHash := some 5, key := some 0 }), 0, by decide +kernel⟩,
   ⟨{ (⟨7, 1, [], false⟩ : StkCmd) with code := 6 }, ([] : List StkCmd), false, ([rSTK_QUEUE, rSTK_RESULT
      (({ (⟨7, 1, [], false⟩ : StkCmd) with code := 6 }).ticket % 16), rSTK_STATUS]), rdy |>.updStk (fun z =>
      { z with queue := ({ (⟨7, 1, [], false⟩ : StkCmd) with code := 6 }) :: ([] : List StkCmd) }) |>.setFld rSTK_STATUS fSTK_STATUS_STATE 2
      |>.updStk (fun z => { z with key := some 0 }), 0, by decide +kernel⟩,
   ⟨{ (⟨7, 1, [], false⟩ : StkCmd) with code := 6 }, ([] : List StkCmd), (true), ([rSTK_QUEUE, rSTK_RESULT
      (({ (⟨7, 1, [], false⟩ : StkCmd) with code := 6 }).ticket % 16), rSTK_STATUS]), rdy |>.updStk (fun z =>
      { z with queue := ({ (⟨7, 1, [], false⟩ : StkCmd) with code := 6 }) :: ([] : List StkCmd) }) |>.setFld rSTK_STATUS fSTK_STATUS_STATE 2
      |>.updStk (fun z => { z with key := some 0 }), 0, by decide +kernel⟩,
   ⟨(⟨7, 7, [2], false⟩ : StkCmd), ([] : List StkCmd), [rSTK_QUEUE, rSTK_RESULT 7, rSTK_STATUS], rdy |>.setFld rSTK_STATUS fSTK_STATUS_STATE 2
      |>.updStk (fun z => { z with queue := [⟨7, 7, [2], false⟩] }), by decide +kernel⟩,
   ⟨{ (⟨7, 1, [], false⟩ : StkCmd) with code := 7 }, ([] : List StkCmd), ([rSTK_QUEUE, rSTK_RESULT
      (({ (⟨7, 1, [], false⟩ : StkCmd) with code := 7 }).ticket % 16), rSTK_STATUS]), rdy |>.updStk (fun z =>
      { z with queue := ({ (⟨7, 1, [], false⟩ : StkCmd) with code := 7 }) :: ([] : List StkCmd) }) |>.setFld rSTK_STATUS fSTK_STATUS_STATE 2, 0,
      by decide +kernel⟩,
   ⟨(⟨7, 7, [0], false⟩ : StkCmd), ([] : List StkCmd), false, [rSTK_QUEUE, rSTK_RESULT 7, rSTK_STATUS], rdy |>.setFld rSTK_STATUS
      fSTK_STATUS_STATE 2 |>.updStk (fun z => { z with queue := [⟨7, 7, [0], false⟩] }) |>.setFld rSEC_SVN fSEC_SVN_K_SVN 1, 1,
      by decide +kernel⟩,
   ⟨(⟨7, 7, [0], false⟩ : StkCmd), ([] : List StkCmd), true, [rSTK_QUEUE, rSTK_RESULT 7, rSTK_STATUS], rdy |>.setFld rSTK_STATUS
      fSTK_STATUS_STATE 2 |>.updStk (fun z => { z with queue := [⟨7, 7, [0], false⟩] }) |>.setFld rSEC_SVN fSEC_SVN_K_SVN 1, 1,
      by decide +kernel⟩,
   ⟨{ (⟨7, 1, [], false⟩ : StkCmd) with code := 8 }, ([] : List StkCmd), ([rSTK_QUEUE, rSTK_RESULT
      (({ (⟨7, 1, [], false⟩ : StkCmd) with code := 8 }).ticket % 16), rSTK_STATUS]), rdy |>.updStk (fun z =>
      { z with queue := ({ (⟨7, 1, [], false⟩ : StkCmd) with code := 8 }) :: ([] : List StkCmd) }) |>.setFld rSTK_STATUS fSTK_STATUS_STATE 2,
      by decide +kernel⟩,
   ⟨(⟨7, 8, [], false⟩ : StkCmd), ([] : List StkCmd), [rSTK_QUEUE, rSTK_RESULT 7, rSTK_STATUS], rdy |>.setFld rSTK_STATUS fSTK_STATUS_STATE 2
      |>.updStk (fun z => { z with queue := [⟨7, 8, [], false⟩], keyHash := some 5, armed := true }), by decide +kernel⟩,
   ⟨(⟨7, 8, [], false⟩ : StkCmd), ([] : List StkCmd), false, [rSTK_QUEUE, rSTK_RESULT 7, rSTK_STATUS], rdy |>.setFld rSTK_STATUS
      fSTK_STATUS_STATE 2 |>.updStk (fun z => { z with queue := [⟨7, 8, [], false⟩], keyHash := some 5 }), by decide +kernel⟩,
   ⟨(⟨7, 8, [], false⟩ : StkCmd), ([] : List StkCmd), true, [rSTK_QUEUE, rSTK_RESULT 7, rSTK_STATUS], rdy |>.setFld rSTK_STATUS
      fSTK_STATUS_STATE 2 |>.updStk (fun z => { z with queue := [⟨7, 8, [], false⟩], keyHash := some 5 }), by decide +kernel⟩⟩

theorem test_witness_ResetAndBoot :
    (∃ (s : State), (s.pkg.perst = true ∨ s.pkg.rail = true ∨ s.glb ≠ 0)) ∧
    (∃ (s : State), (s.pkg.porst = true ∨ s.pkg.rail = true ∨ s.glb ≠ 0)) ∧
    (∃ (s : State), s.pkg.perst = false ∧ s.pkg.rail = false ∧ s.glb = 0) ∧
    (∃ (s : State), (s.stk.step = 0 ∨ 8 < s.stk.step)) ∧
    (∃ (s : State), s.stk.step = 1 ∧ (∀ (k : Nat), k < 8 → s.fldS (rTHM_TEMP k) fTHM_TEMP_TEMP < ↑(s.fld rTHM_LIMIT fTHM_LIMIT_CRIT))) ∧
    (∃ (s : State), s.stk.step = 1 ∧ (∃ k : Fin 8, ↑(s.fld rTHM_LIMIT fTHM_LIMIT_CRIT) ≤ s.fldS (rTHM_TEMP ↑k) fTHM_TEMP_TEMP)) ∧
    (∃ (e : BootEnd) (s : State), s.stk.step = 2 ∧ (∀ (b : Bool), s.slotCode 0 b (if b = true then e.readB else e.readA) ≠ 0)) ∧
    (∃ (s : State) (b : Bool), s.stk.step = 2 ∧ s.fld rSEC_STATUS fSEC_STATUS_BOOTSEL ≠ 3 ∧ (s.slotOrder 0).head? = some b) ∧
    (∃ (e : BootEnd) (s : State), s.stk.step = 3 ∧ e.ok = false) ∧
    (∃ (e : BootEnd) (s : State), s.stk.step = 3 ∧ e.ok = true) ∧
    (∃ (e : BootEnd) (s : State), s.stk.step = 4 ∧ (∀ (b : Bool), s.slotCode 1 b (if b = true then e.readB else e.readA) ≠ 0)) ∧
    (∃ (s : State) (b : Bool), s.stk.step = 4 ∧ (s.slotOrder 1).head? = some b) ∧
    (∃ (e : BootEnd) (s : State), s.stk.step = 5 ∧ e.failed = []) ∧
    (∃ (e : BootEnd) (s : State), s.stk.step = 5 ∧ e.failed ≠ []) ∧
    (∃ (s : State), s.stk.step = 6) ∧
    (∃ (s : State), s.stk.step = 7) ∧
    (∃ (s : State), s.stk.step = 8) ∧
    (∃ (patch : Bool) (s : State) (e : Instr × Nat × Nat), s.glb ≠ 0 ∧ e ∈ [(Instr.stkCsEccError true patch, 981, 2), (Instr.stkWatchdog, 982,
      3)] ∧ s.glb ≠ 3) ∧
    (∃ (patch : Bool) (s : State) (e : Instr × Nat × Nat), s.glb ≠ 0 ∧ e ∈ [(Instr.stkCsEccError true patch, 981, 2), (Instr.stkWatchdog, 982,
      3)] ∧ s.glb = 3 ∧ s.flag rEVT_CTRL fEVT_CTRL_AUTO_RESTART = false) ∧
    (∃ (patch : Bool) (s : State) (e : Instr × Nat × Nat), s.glb ≠ 0 ∧ e ∈ [(Instr.stkCsEccError true patch, 981, 2), (Instr.stkWatchdog, 982,
      3)] ∧ s.glb = 3 ∧ s.flag rEVT_CTRL fEVT_CTRL_AUTO_RESTART = true) :=
  ⟨⟨rdy, by decide +kernel⟩,
   ⟨rdy, by decide +kernel⟩,
   ⟨rdy |>.setFld rGLB_STATUS fGLB_STATUS_STATE 0, by decide +kernel⟩,
   ⟨rdy, by decide +kernel⟩,
   ⟨rdy |>.updStk (fun z => { z with step := 1 }), by decide +kernel⟩,
   ⟨rdy |>.updStk (fun z => { z with step := 1 }) |>.setFld (rTHM_TEMP 0) fTHM_TEMP_TEMP 32767, by decide +kernel⟩,
   ⟨(⟨40, 0, true, true, true, true, []⟩ : BootEnd), rdy |>.updStk (fun z => { z with step := 2 }), by decide +kernel⟩,
   ⟨rdy |>.updStk (fun z => { z with step := 2 }), false, by decide +kernel⟩,
   ⟨{ (⟨40, 0, true, true, true, true, []⟩ : BootEnd) with ok := false }, rdy |>.updStk (fun z => { z with step := 3 }), by decide +kernel⟩,
   ⟨(⟨40, 0, true, true, true, true, []⟩ : BootEnd), rdy |>.updStk (fun z => { z with step := 3 }), by decide +kernel⟩,
   ⟨(⟨40, 0, true, true, true, true, []⟩ : BootEnd), rdy |>.updStk (fun z => { z with step := 4 }), by decide +kernel⟩,
   ⟨rdy |>.updStk (fun z => { z with step := 4 }), false, by decide +kernel⟩,
   ⟨(⟨40, 0, true, true, true, true, []⟩ : BootEnd), rdy |>.updStk (fun z => { z with step := 5 }), by decide +kernel⟩,
   ⟨(⟨40, 0, true, true, true, true, [31]⟩ : BootEnd), rdy |>.updStk (fun z => { z with step := 5 }), by decide +kernel⟩,
   ⟨rdy |>.updStk (fun z => { z with step := 6 }), by decide +kernel⟩,
   ⟨rdy |>.updStk (fun z => { z with step := 7 }), by decide +kernel⟩,
   ⟨rdy |>.updStk (fun z => { z with step := 8 }), by decide +kernel⟩,
   ⟨false, rdy |>.setFld rGLB_STATUS fGLB_STATUS_STATE 4, (Instr.stkWatchdog, 982, 3), by decide +kernel, by simp, by decide +kernel⟩,
   ⟨false, rdy |>.setFld rEVT_CTRL fEVT_CTRL_AUTO_RESTART 0, (Instr.stkWatchdog, 982, 3), by decide +kernel, by simp, by decide +kernel⟩,
   ⟨false, rdy |>.setFld rEVT_CTRL fEVT_CTRL_AUTO_RESTART 1, (Instr.stkWatchdog, 982, 3), by decide +kernel, by simp, by decide +kernel⟩⟩

theorem test_witness_EventControlsAndInjection :
    (∃ (v : Word) (n : Nat) (s : State), s.windowOpen rEVT_RING_IDX = true ∧ fget v fEVT_RING_IDX_RELEASE = n ∧ (n = 0 ∨ s.evt.written <
      s.evt.released + n)) ∧
    (∃ (v : Word) (n : Nat) (s : State), s.windowOpen rEVT_RING_IDX = true ∧ fget v fEVT_RING_IDX_RELEASE = n ∧ 0 < n ∧ s.evt.released + n ≤
      s.evt.written) ∧
    (∃ (s : State), s.windowOpen rEVT_CTRL = true) ∧
    (∃ (s : State), s.windowOpen rEVT_SWTEST = true) ∧
    (∃ (v : Word) (s : State) (i : Instr), s.windowOpen rEVT_INJ = true ∧ s.flag rEVT_INJ fEVT_INJ_LOCK = true ∧ i ∈ [Instr.injectEvent v,
      Instr.injectContext v, Instr.injectMemCe v, Instr.injectMemUe v, Instr.injectRestart v]) ∧
    (∃ (arg : Nat) (s : State), s.windowOpen rEVT_INJ = true ∧ s.flag rEVT_INJ fEVT_INJ_LOCK = false ∧ BitVec.toNat (s.rd rEVT_INJ_ARG) = arg ∧
      (s.ctx (arg % 4096)).st ≠ CtxSt.opened) ∧
    (∃ (arg : Nat) (s : State), s.windowOpen rEVT_INJ = true ∧ s.flag rEVT_INJ fEVT_INJ_LOCK = false ∧ BitVec.toNat (s.rd rEVT_INJ_ARG) = arg ∧
      (s.ctx (arg % 4096)).st = CtxSt.opened ∧ s.glb = 3) ∧
    (∃ (v : Word) (arg : Nat) (s : State) (e : Instr × Nat), s.windowOpen rEVT_INJ = true ∧ s.flag rEVT_INJ fEVT_INJ_LOCK = false ∧ BitVec.toNat
      (s.rd rEVT_INJ_ARG) = arg ∧ e ∈ [(Instr.injectMemCe v, 4), (Instr.injectMemUe v, 8)] ∧ (arg % 64 ≠ 0 ∨ 30064771072 ≤ arg)) ∧
    (∃ (v : Word) (arg : Nat) (s : State) (e : Instr × Nat), s.windowOpen rEVT_INJ = true ∧ s.flag rEVT_INJ fEVT_INJ_LOCK = false ∧ BitVec.toNat
      (s.rd rEVT_INJ_ARG) = arg ∧ e ∈ [(Instr.injectMemCe v, 4), (Instr.injectMemUe v, 8)] ∧ arg % 64 = 0 ∧ arg < 30064771072) ∧
    (∃ (arg : Nat) (s : State), s.windowOpen rEVT_INJ = true ∧ s.flag rEVT_INJ fEVT_INJ_LOCK = false ∧ BitVec.toNat (s.rd rEVT_INJ_ARG) = arg ∧
      s.dpAllowed = true) ∧
    (∃ (arg : Nat) (s : State), s.windowOpen rEVT_INJ = true ∧ s.flag rEVT_INJ fEVT_INJ_LOCK = false ∧ BitVec.toNat (s.rd rEVT_INJ_ARG) = arg ∧
      s.dpAllowed = false) ∧
    (∃ (v : Word) (s : State), s.windowOpen rEVT_INJ = true ∧ fget v fEVT_INJ_GO = 0) :=
  ⟨⟨(0 : Word), 0, rdy, by decide +kernel⟩,
   ⟨(fset (0 : Word) fEVT_RING_IDX_RELEASE 1), 1, rdy |>.onEvt (fun z => { z with written := 1 }), by decide +kernel⟩,
   ⟨rdy, by decide +kernel⟩,
   ⟨rdy, by decide +kernel⟩,
   ⟨(0 : Word), rdy |>.setFld rEVT_INJ fEVT_INJ_LOCK 1, (Instr.injectEvent 0), by decide +kernel, by decide +kernel, by simp⟩,
   ⟨0, rdy, by decide +kernel⟩,
   ⟨0, rdy |>.updCtx (0 % 4096) (fun z => { z with st := CtxSt.opened }), by decide +kernel⟩,
   ⟨(0 : Word), 1, rdy |>.setFld rEVT_INJ fEVT_INJ_LOCK 0 |>.wr rEVT_INJ_ARG 1, (Instr.injectMemCe 0, 4), by decide +kernel, by decide +kernel,
      by decide +kernel, by simp, by decide +kernel⟩,
   ⟨(0 : Word), 0, rdy |>.setFld rEVT_INJ fEVT_INJ_LOCK 0, (Instr.injectMemUe 0, 8), by decide +kernel, by decide +kernel, by decide +kernel, by
      simp, by decide +kernel⟩,
   ⟨0, rdy, by decide +kernel⟩,
   ⟨0, rdy |>.setFld rEVT_INJ fEVT_INJ_LOCK 0 |>.setFld rGLB_STATUS fGLB_STATUS_STATE 4, by decide +kernel⟩,
   ⟨(0 : Word), rdy, by decide +kernel⟩⟩

theorem test_witness_PackageCommands :
    (∃ (r : Fin 11) (mv : Fin 65536) (s : State) (e : Instr × Fld × Nat), s.glb ≠ 0 ∧ e ∈ [(Instr.railLow r mv, fPWR_RAIL_LOW, 16),
      (Instr.railHigh r mv, fPWR_RAIL_HIGH, 17)] ∧ s.flag (rPWR_RAIL r.val) e.snd.fst = true) ∧
    (∃ (r : Fin 11) (mv : Fin 65536) (s : State) (e : Instr × Fld × Nat), s.glb ≠ 0 ∧ e ∈ [(Instr.railLow r mv, fPWR_RAIL_LOW, 16),
      (Instr.railHigh r mv, fPWR_RAIL_HIGH, 17)] ∧ s.flag (rPWR_RAIL r.val) e.snd.fst = false) ∧
    (∃ (s : State), s.pkg.rail = false) ∧
    (∃ (s : State), s.pkg.rail = true ∧ s.pkg.porst = false ∧ s.pkg.perst = false ∧ s.glb = 0) ∧
    (∃ (s : State), s.pkg.rail = true ∧ (s.pkg.porst = true ∨ s.pkg.perst = true)) ∧
    (∃ (temps : List Int) (rails : List (Nat × Nat)) (s : State), s.glb ≠ 0 ∧ temps.length = 8 ∧ rails.length = 11 ∧ (∀ (x : Int), x ∈ temps →
      -32768 ≤ x ∧ x < 32768) ∧ (∀ (x : Int), x ∈ temps → x < ↑(s.fld rTHM_LIMIT fTHM_LIMIT_CRIT))) ∧
    (∃ (temps : List Int) (rails : List (Nat × Nat)) (s : State) (k : Fin 8), s.glb ≠ 0 ∧ temps.length = 8 ∧ rails.length = 11 ∧ (∀ (x : Int), x
      ∈ temps → -32768 ≤ x ∧ x < 32768) ∧ s.pkg.crit = [k.val] ∧ s.flag rTHM_STATUS fTHM_STATUS_STOPPED = false ∧ ↑(s.fld rTHM_LIMIT
      fTHM_LIMIT_CRIT) ≤ temps.getD (k.val) 0) ∧
    (∃ (v : Word) (en : Bool) (s : State) (i : Instr), s.windowOpen rPWR_CTRL = true ∧ ((!s.planActive && (upTo 4).all fun n => !s.flag (rCNV_BG
      n) fCNV_BG_EN) && s.calState == 0) = en ∧ i ∈ [Instr.cnvStbyWrite v, Instr.srEnWrite v] ∧ (s.selfRefresh = false ∨ s.flag rTHM_STATUS
      fTHM_STATUS_STOPPED = true)) ∧
    (∃ (v : Word) (en : Bool) (s : State) (i : Instr), s.windowOpen rPWR_CTRL = true ∧ ((!s.planActive && (upTo 4).all fun n => !s.flag (rCNV_BG
      n) fCNV_BG_EN) && s.calState == 0) = en ∧ i ∈ [Instr.cnvStbyWrite v, Instr.srEnWrite v] ∧ s.selfRefresh = true ∧ s.flag rTHM_STATUS
      fTHM_STATUS_STOPPED = false) ∧
    (∃ (s : State), s.glb ≠ 0 ∧ (s.flag rPWR_CTRL fPWR_CTRL_SR_EN = false ∨   s.selfRefresh = true ∨ s.planActive = true ∨ s.dmaActive ≠ 0 ∨
      s.flag rGLB_STATUS fGLB_STATUS_STORE_READY = false)) ∧
    (∃ (s : State), s.glb ≠ 0 ∧ s.flag rPWR_CTRL fPWR_CTRL_SR_EN = true ∧ s.selfRefresh = false ∧ s.planActive = false ∧ s.dmaActive = 0 ∧
      s.flag rGLB_STATUS fGLB_STATUS_STORE_READY = true ∧ s.flag rMEM_MAP fMEM_MAP_MAP_BUSY = false ∧ s.freeBillets = 1835008 ∧ (∀ (c : Nat ×
      Ctx), c ∈ s.ctxs → c.snd.st = CtxSt.closed)) ∧
    (∃ (bytes : List Byte) (bad : Bool) (env : Env) (s : State) (i : Instr), s.awake = false ∧ i ∈ [Instr.smbSetOffset bytes bad, Instr.smbRead,
      Instr.smbWrite bytes bad env, Instr.smbStatus]) ∧
    (∃ (bytes : List Byte) (bad : Bool) (env : Env) (s : State) (i : Instr), s.awake = true ∧ ((bad && s.flag rMGT_SMB fMGT_SMB_PEC_EN) = true ∨
      bytes.length ≠ 4) ∧ i ∈ [Instr.smbSetOffset bytes bad, Instr.smbWrite bytes bad env]) ∧
    (∃ (bytes : List Byte) (bad : Bool) (s : State), s.awake = true ∧ (bad && s.flag rMGT_SMB fMGT_SMB_PEC_EN) = false ∧ bytes.length = 4 ∧
      leNat bytes % 4 = 0 ∧ leNat bytes < 2 ^ 26) ∧
    (∃ (bytes : List Byte) (bad : Bool) (s : State), s.awake = true ∧ (bad && s.flag rMGT_SMB fMGT_SMB_PEC_EN) = false ∧ bytes.length = 4 ∧
      (leNat bytes % 4 ≠ 0 ∨ 2 ^ 26 ≤ leNat bytes)) ∧
    (∃ (bytes : List Byte) (bad : Bool) (s : State) (n : Fin (2 ^ 23)), s.awake = true ∧ (bad && s.flag rMGT_SMB fMGT_SMB_PEC_EN) = false ∧
      bytes.length = 4 ∧ s.pkg.ptr = 8 * n.val) ∧
    (∃ (bytes : List Byte) (bad : Bool) (s : State) (n : Fin (2 ^ 23)), s.awake = true ∧ (bad && s.flag rMGT_SMB fMGT_SMB_PEC_EN) = false ∧
      bytes.length = 4 ∧ s.pkg.ptr = 8 * n.val + 4) ∧
    (∃ (s : State), s.windowOpen rMGT_SMB = true) ∧
    (∃ (bits : List Bool), bits.length = 1042) ∧
    (∃ (e : Instr × Nat), e ∈ [(Instr.extest, 3), (Instr.clamp, 4), (Instr.extestPulse, 6), (Instr.extestTrain, 7)]) :=
  ⟨⟨(10 : Fin 11), (65535 : Fin 65536), rdy |>.setFld (rPWR_RAIL 10) fPWR_RAIL_LOW 1, (Instr.railLow 10 65535, fPWR_RAIL_LOW, 16),
      by decide +kernel, by simp, by decide +kernel⟩,
   ⟨(10 : Fin 11), (65535 : Fin 65536), rdy, (Instr.railLow 10 65535, fPWR_RAIL_LOW, 16), by decide +kernel, by simp, by decide +kernel⟩,
   ⟨rdy, by decide +kernel⟩,
   ⟨rdy |>.updPkg (fun z => { z with rail := true }) |>.setFld rGLB_STATUS fGLB_STATUS_STATE 0, by decide +kernel⟩,
   ⟨rdy |>.updPkg (fun z => { z with rail := true, porst := true }), by decide +kernel⟩,
   ⟨(List.replicate 8 0), (List.replicate 11 (0, 0)), rdy, by decide +kernel⟩,
   ⟨(List.replicate 8 32767), (List.replicate 11 (0, 0)), rdy |>.updPkg (fun z => { z with crit := [7] }), (7 : Fin 8), by decide +kernel⟩,
   ⟨(0 : Word), true, rdy, (Instr.cnvStbyWrite 0), by decide +kernel, by decide +kernel, by simp, by decide +kernel⟩,
   ⟨(0 : Word), true, rdy |>.setFld rPWR_CTRL fPWR_CTRL_SR 1, (Instr.cnvStbyWrite 0), by decide +kernel, by decide +kernel, by simp,
      by decide +kernel⟩,
   ⟨rdy, by decide +kernel⟩,
   ⟨rdy |>.setFld rPWR_CTRL fPWR_CTRL_SR_EN 1 |>.setFld rGLB_STATUS fGLB_STATUS_STORE_READY 1, by decide +kernel⟩,
   ⟨([] : List Byte), false, env0, State.reset, Instr.smbRead, by decide +kernel, by simp⟩,
   ⟨([] : List Byte), false, env0, rdy, (Instr.smbSetOffset [] false), by decide +kernel, by decide +kernel, by simp⟩,
   ⟨(List.replicate 4 0), false, rdy, by decide +kernel⟩,
   ⟨([1, 0, 0, 0] : List Byte), false, rdy, by decide +kernel⟩,
   ⟨(List.replicate 4 0), false, rdy, (0 : Fin (2 ^ 23)), by decide +kernel⟩,
   ⟨(List.replicate 4 0), false, rdy |>.updPkg (fun z => { z with ptr := 8 * ↑(0 : Fin (2 ^ 23)) + 4 }), (0 : Fin (2 ^ 23)), by decide +kernel⟩,
   ⟨rdy, by decide +kernel⟩,
   ⟨(List.replicate 1042 false), by decide +kernel⟩,
   ⟨((Instr.extest, 3)), by simp⟩⟩

end Sys2Proof.Tests
end

section
/-! SUPPORT. The accesses of BAR0 on registers whose window responds (R6 to R8), and the obligations on 32-bit halves. -/

namespace Sys2Proof.Machine

/-! ### A reachable device hands an access of BAR0 to the register map -/

variable {s : State} {p : Path} {a : Nat}

theorem State.halfRead_bar0_low (h : s.awake = true) : s.halfRead p .bar0 a false = s.readLow p a := by
  simp [State.halfRead, h]

theorem State.halfRead_bar0_high (h : s.awake = true) : s.halfRead p .bar0 a true = s.readHigh p a := by
  simp [State.halfRead, h]

/-- A write that the SMBus lock lets through (R562). -/
theorem State.pathWrite_unblocked (h : s.smbBlocked p a = false) (f : State → State) : s.pathWrite p a f = f s := by
  simp [State.pathWrite, h]

theorem State.halfWrite_bar0_low (h : s.awake = true) (hb : s.smbBlocked p a = false) (v : BitVec 32) (env : Env) :
    s.halfWrite p .bar0 a false v env = s.writeLow p a env v := by
  simp [State.halfWrite, h, State.pathWrite_unblocked hb]

theorem State.halfWrite_bar0_high (h : s.awake = true) (hb : s.smbBlocked p a = false) (v : BitVec 32) (env : Env) :
    s.halfWrite p .bar0 a true v env = s.writeHigh p a env v := by
  simp [State.halfWrite, h, State.pathWrite_unblocked hb]

/-- An aligned 64-bit write (R3). -/
theorem State.barWrite_bar0 (h : s.awake = true) (hb : s.smbBlocked p a = false) (ha : a % 8 = 0) (v : Word) (env : Env) :
    s.barWrite p .bar0 a v env = s.write0 p a env v := by
  simp [State.barWrite, h, State.pathWrite_unblocked hb, ha]

/-! ### A register whose window responds -/

variable {r : RegRow} {ix : List Nat}

/-- The low half is answered, and all 64 bits go into the path's latch (R6). -/
theorem State.readLow_reg (hr : place0 a = .reg r ix) (hw : s.windowOpen a = true) :
    s.readLow p a = (s.onSnap fun _ => SMap.set none s.snap (pathKey p a) (some (s.view0 a))).onReadData
      fun _ => BitVec.ofNat 64 ((s.view0 a).toNat % 2 ^ 32) := by
  simp [State.readLow, hr, hw]

/-- The latch answers, not the live register (R7). -/
theorem State.readHigh_reg (hr : place0 a = .reg r ix) (hw : s.windowOpen a = true) :
    s.readHigh p a = s.onReadData fun _ =>
      BitVec.ofNat 64 (((SMap.get none s.snap (pathKey p a)).getD (State.reset.regView r ix a)).toNat / 2 ^ 32) := by
  simp [State.readHigh, hr, hw]

/-- Staged, but for a register whose high half is all reserved (R8). -/
theorem State.writeLow_reg (hr : place0 a = .reg r ix) (hw : s.windowOpen a = true) (env : Env) (v : BitVec 32) :
    s.writeLow p a env v =
      if r.lowOnly then s.regEffect p r ix a env (BitVec.ofNat 64 v.toNat)
      else s.onStaged fun _ => SMap.set none s.staged (pathKey p a) (some (BitVec.ofNat 64 v.toNat)) := by
  simp [State.writeLow, hr, hw]

/-- With a staged low half both halves take effect in one write (R8). -/
theorem State.writeHigh_reg_staged (hr : place0 a = .reg r ix) (hw : s.windowOpen a = true) {low : Word}
    (hs : SMap.get none s.staged (pathKey p a) = some low) (env : Env) (v : BitVec 32) :
    s.writeHigh p a env v =
      (s.dropStaged p a).regEffect p r ix a env (BitVec.ofNat 64 (v.toNat * 2 ^ 32 + low.toNat % 2 ^ 32)) := by
  simp [State.writeHigh, hr, hw, hs]

theorem State.writeHigh_reg_unstaged (hr : place0 a = .reg r ix) (hw : s.windowOpen a = true)
    (hs : SMap.get none s.staged (pathKey p a) = none) (env : Env) (v : BitVec 32) : s.writeHigh p a env v = s := by
  simp [State.writeHigh, hr, hw, hs]

/-- A 64-bit write drops what is staged (R8). -/
theorem State.write0_reg (hr : place0 a = .reg r ix) (hw : s.windowOpen a = true) (env : Env) (v : Word) :
    s.write0 p a env v = (s.dropStaged p a).regEffect p r ix a env v := by
  simp [State.write0, State.write64, hr, hw]

end Sys2Proof.Machine

namespace Sys2Proof

open Sys2Proof.Machine

/-! ### The commands -/

section

variable {s : State} {p : Path} {n : Fin (2 ^ 23)}

theorem exec_lowHalfRead_bar0 (h : s.awake = true) : exec (.lowHalfRead p .bar0 n) s = .next (s.readLow p (8 * n)) :=
  congrArg Host.Outcome.next (State.halfRead_bar0_low h)

theorem exec_highHalfRead_bar0 (h : s.awake = true) : exec (.highHalfRead p .bar0 n) s = .next (s.readHigh p (8 * n)) :=
  congrArg Host.Outcome.next (State.halfRead_bar0_high h)

theorem exec_lowHalfWrite_bar0 (h : s.awake = true) (hb : s.smbBlocked p (8 * n) = false) (v : BitVec 32) (env : Env) :
    exec (.lowHalfWrite p .bar0 n v env) s = .next (s.writeLow p (8 * n) env v) :=
  congrArg Host.Outcome.next (State.halfWrite_bar0_low h hb v env)

theorem exec_highHalfWrite_bar0 (h : s.awake = true) (hb : s.smbBlocked p (8 * n) = false) (v : BitVec 32) (env : Env) :
    exec (.highHalfWrite p .bar0 n v env) s = .next (s.writeHigh p (8 * n) env v) :=
  congrArg Host.Outcome.next (State.halfWrite_bar0_high h hb v env)

theorem exec_registerWrite_bar0 {a : Fin (2 ^ 26)} (h : s.awake = true) (hb : s.smbBlocked p a = false) (ha : a.val % 8 = 0)
    (v : Word) (env : Env) : exec (.registerWrite p .bar0 a v env) s = .next (s.write0 p a env v) :=
  congrArg Host.Outcome.next (State.barWrite_bar0 h hb ha v env)

end

/-- Settles O9: a low half goes by `State.readLow_reg`, a high half by `State.readHigh_reg`. -/
theorem halfReadsUseTheLatch : Obligations.HalfReadsUseTheLatch := by
  intro p n s r ix awake hw hr
  constructor
  · rw [exec_lowHalfRead_bar0 awake, State.readLow_reg hr hw]
    rfl
  · rw [exec_highHalfRead_bar0 awake, State.readHigh_reg hr hw]
    rfl

/-- Settles O10, a clause per kind of write; the high half by whether its path has a low half staged. -/
theorem halfWritesCommitTogether : Obligations.HalfWritesCommitTogether := by
  intro p n s r ix env awake hw hr hb
  refine ⟨fun v => ?low, fun v => ?high, fun v h => ?full⟩
  case low =>
    rw [exec_lowHalfWrite_bar0 awake hb, State.writeLow_reg hr hw]
    rfl
  case high =>
    rw [exec_highHalfWrite_bar0 awake hb]
    cases hs : SMap.get none s.staged (pathKey p (8 * n)) with
    | none => rw [State.writeHigh_reg_unstaged hr hw hs]
    | some low => rw [State.writeHigh_reg_staged hr hw hs]
  case full =>
    rw [exec_registerWrite_bar0 awake hb (Nat.mul_mod_right 8 n), State.write0_reg hr hw]

end Sys2Proof
end

section
/-! SUPPORT. What a register field reads after an update, and changes that stay within given components and registers: the rules by which
the effect of a command is read off the operations it is made of. -/

set_option Elab.async false

namespace Sys2Proof.Machine

variable {s : State}

/-! ### Fields of a register after an update -/

@[simp] theorem fget_fset_self (w : Word) (f : Fld) (v : Nat) (h : f.lo + f.w ≤ 64) : fget (fset w f v) f = v % 2 ^ f.w :=
  fget_fset_same w f v h

@[simp] theorem fget_fset_apart (w : Word) (f g : Fld) (v : Nat) (hd : f.lo + f.w ≤ 64 ∧ (g.lo + g.w ≤ f.lo ∨ f.lo + f.w ≤ g.lo)) :
    fget (fset w f v) g = fget w g := fget_fset_ne w f g v hd.1 hd.2

@[simp] theorem State.fld_wr_other (s : State) {a b : Nat} (v : Word) (g : Fld) (h : b ≠ a) : (s.wr a v).fld b g = s.fld b g := by
  rw [State.fld, State.rd_wr_ne s v h, State.fld]

@[simp] theorem State.fld_wr_self (s : State) (a : Nat) (v : Word) (g : Fld) : (s.wr a v).fld a g = fget v g := by
  rw [State.fld, State.rd_wr_same]

@[simp] theorem State.fld_setFld_self (s : State) (a : Nat) (f : Fld) (v : Nat) (h : f.lo + f.w ≤ 64) :
    (s.setFld a f v).fld a f = v % 2 ^ f.w := State.fld_setFld_same s a f v h

@[simp] theorem State.fld_setFld_other (s : State) {a b : Nat} (f g : Fld) (v : Nat) (h : b ≠ a) :
    (s.setFld a f v).fld b g = s.fld b g := State.fld_setFld_reg s f g v h

@[simp] theorem State.fld_setFld_apart (s : State) (a b : Nat) (f g : Fld) (v : Nat)
    (hd : f.lo + f.w ≤ 64 ∧ (g.lo + g.w ≤ f.lo ∨ f.lo + f.w ≤ g.lo)) : (s.setFld a f v).fld b g = s.fld b g :=
  State.fld_setFld_fld s a b f g v hd.1 hd.2

@[simp] theorem State.rd_setFld_other (s : State) {a b : Nat} (f : Fld) (v : Nat) (h : b ≠ a) : (s.setFld a f v).rd b = s.rd b :=
  State.rd_setFld_ne s f v h

@[simp] theorem State.rd_wr_other (s : State) {a b : Nat} (v : Word) (h : b ≠ a) : (s.wr a v).rd b = s.rd b :=
  State.rd_wr_ne s v h

@[simp] theorem State.rd_setFlds_other (s : State) {a b : Nat} (l : List (Fld × Nat)) (h : b ≠ a) : (s.setFlds a l).rd b = s.rd b :=
  State.rd_setFlds_ne s l h

theorem State.fld_setFlds_other (s : State) {a b : Nat} (l : List (Fld × Nat)) (g : Fld) (h : b ≠ a) :
    (s.setFlds a l).fld b g = s.fld b g := State.fld_setFlds_reg s l g h

/-- Several fields are put one after the other. -/
@[simp] theorem State.fld_setFlds_cons (s : State) (a b : Nat) (f : Fld) (v : Nat) (l : List (Fld × Nat)) (g : Fld) :
    (s.setFlds a ((f, v) :: l)).fld b g = ((s.setFld a f v).setFlds a l).fld b g := by
  rw [State.fld, State.rd_setFlds, State.fld, State.rd_setFlds, State.rd_setFld, State.rd_setFld, if_pos rfl]
  split <;> rfl

@[simp] theorem State.fld_setFlds_nil (s : State) (a b : Nat) (g : Fld) : (s.setFlds a []).fld b g = s.fld b g := by
  rw [State.fld, State.rd_setFlds, State.fld]
  split
  · next e => rw [e, fsets]
  · rfl

@[simp] theorem fsets_nil (w : Word) : fsets w [] = w := rfl

@[simp] theorem fsets_cons (w : Word) (f : Fld) (v : Nat) (l : List (Fld × Nat)) : fsets w ((f, v) :: l) = fsets (fset w f v) l := rfl

@[simp] theorem State.fld_addSat_self (s : State) (a : Nat) (f : Fld) (n : Nat) (h : f.lo + f.w ≤ 64) :
    (s.addSat a f n).fld a f = satN f.w (s.fld a f + n) := State.fld_addSat_same s a f n h

@[simp] theorem State.fld_addSat_other (s : State) {a b : Nat} (f g : Fld) (n : Nat) (h : b ≠ a) : (s.addSat a f n).fld b g = s.fld b g :=
  State.fld_setFld_reg s f g _ h

@[simp] theorem State.fld_addSat_apart (s : State) (a b : Nat) (f g : Fld) (n : Nat)
    (hd : f.lo + f.w ≤ 64 ∧ (g.lo + g.w ≤ f.lo ∨ f.lo + f.w ≤ g.lo)) : (s.addSat a f n).fld b g = s.fld b g :=
  State.fld_setFld_fld s a b f g _ hd.1 hd.2

@[simp] theorem State.rd_addSat_other (s : State) {a b : Nat} (f : Fld) (n : Nat) (h : b ≠ a) : (s.addSat a f n).rd b = s.rd b :=
  State.rd_setFld_ne s f _ h

@[simp] theorem State.fld_addMod_self (s : State) (a : Nat) (f : Fld) (n : Nat) (h : f.lo + f.w ≤ 64) :
    (s.addMod a f n).fld a f = (s.fld a f + n) % 2 ^ f.w := State.fld_addMod_same s a f n h

@[simp] theorem State.fld_addMod_other (s : State) {a b : Nat} (f g : Fld) (n : Nat) (h : b ≠ a) : (s.addMod a f n).fld b g = s.fld b g :=
  State.fld_setFld_reg s f g _ h

@[simp] theorem State.fld_addMod_apart (s : State) (a b : Nat) (f g : Fld) (n : Nat)
    (hd : f.lo + f.w ≤ 64 ∧ (g.lo + g.w ≤ f.lo ∨ f.lo + f.w ≤ g.lo)) : (s.addMod a f n).fld b g = s.fld b g :=
  State.fld_setFld_fld s a b f g _ hd.1 hd.2

@[simp] theorem State.rd_addMod_other (s : State) {a b : Nat} (f : Fld) (n : Nat) (h : b ≠ a) : (s.addMod a f n).rd b = s.rd b :=
  State.rd_setFld_ne s f _ h

@[simp] theorem State.fld_wrCodes_other (s : State) {a b : Nat} (v : Word) (l : List Fld) (g : Fld) (h : b ≠ a) :
    (s.wrCodes a v l).fld b g = s.fld b g := by
  rw [State.fld, State.regs_wrCodes_kept s a v l h, State.fld]

@[simp] theorem State.rd_wrCodes_other (s : State) {a b : Nat} (v : Word) (l : List Fld) (h : b ≠ a) :
    (s.wrCodes a v l).rd b = s.rd b := State.regs_wrCodes_kept s a v l h

@[simp] theorem State.fld_raise_other (s : State) (src : Nat) (obj : Option Nat) (code detail a : Nat) (f : Fld)
    (h : a < 0x10000 ∨ 0x12000 + 8 * src < a) : (s.raise src obj code detail).fld a f = s.fld a f :=
  State.fld_raise s src obj code detail a f h

@[simp] theorem State.rd_raise_other (s : State) (src : Nat) (obj : Option Nat) (code detail a : Nat)
    (h : a < 0x10000 ∨ 0x12000 + 8 * src < a) : (s.raise src obj code detail).rd a = s.rd a :=
  State.rd_raise s src obj code detail a h

@[simp] theorem State.fld_raiseLim_other (s : State) (us src : Nat) (obj : Option Nat) (code detail key a : Nat) (f : Fld)
    (h : a < 0x10000 ∨ 0x12000 + 8 * src < a) : (s.raiseLim us src obj code detail key).fld a f = s.fld a f :=
  State.fld_raiseLim s us src obj code detail key a f h

/-! ### What each update of one component leaves in it -/

@[simp] theorem State.onRegs_regs (s : State) (f : SMap Word → SMap Word) : (s.onRegs f).regs = f s.regs := rfl
@[simp] theorem State.onSnap_snap (s : State) (f : SMap (Option Word) → SMap (Option Word)) : (s.onSnap f).snap = f s.snap := rfl
@[simp] theorem State.onStaged_staged (s : State) (f : SMap (Option Word) → SMap (Option Word)) : (s.onStaged f).staged = f s.staged := rfl
@[simp] theorem State.onReadData_readData (s : State) (f : Word → Word) : (s.onReadData f).readData = f s.readData := rfl
@[simp] theorem State.onTime_time (s : State) (f : Nat → Nat) : (s.onTime f).time = f s.time := rfl
@[simp] theorem State.onFrac_frac (s : State) (f : Nat → Nat) : (s.onFrac f).frac = f s.frac := rfl
@[simp] theorem State.onFreeCtr_freeCtr (s : State) (f : Nat → Nat) : (s.onFreeCtr f).freeCtr = f s.freeCtr := rfl
@[simp] theorem State.onEvt_evt (s : State) (f : Evt → Evt) : (s.onEvt f).evt = f s.evt := rfl
@[simp] theorem State.onPorts_ports (s : State) (f : SMap Port → SMap Port) : (s.onPorts f).ports = f s.ports := rfl
@[simp] theorem State.onAside_aside (s : State) (f : SMap Nat → SMap Nat) : (s.onAside f).aside = f s.aside := rfl
@[simp] theorem State.onBadLines_badLines (s : State) (f : SMap Nat → SMap Nat) : (s.onBadLines f).badLines = f s.badLines := rfl
@[simp] theorem State.onPlan_plan (s : State) (f : PlanSt → PlanSt) : (s.onPlan f).plan = f s.plan := rfl
@[simp] theorem State.onTbs_tbs (s : State) (f : Tbs → Tbs) : (s.onTbs f).tbs = f s.tbs := rfl
@[simp] theorem State.onTdc_tdc (s : State) (f : Tdc → Tdc) : (s.onTdc f).tdc = f s.tdc := rfl
@[simp] theorem State.onCal_cal (s : State) (f : Cal → Cal) : (s.onCal f).cal = f s.cal := rfl
@[simp] theorem State.onStreams_streams (s : State) (f : SMap (List Smp) → SMap (List Smp)) : (s.onStreams f).streams = f s.streams := rfl
@[simp] theorem State.onFrames_frames (s : State) (f : SMap (List Frm) → SMap (List Frm)) : (s.onFrames f).frames = f s.frames := rfl
@[simp] theorem State.onLt_lt (s : State) (f : SMap Lt → SMap Lt) : (s.onLt f).lt = f s.lt := rfl
@[simp] theorem State.onFm_fm (s : State) (f : SMap Fm → SMap Fm) : (s.onFm f).fm = f s.fm := rfl
@[simp] theorem State.onBus_bus (s : State) (f : SMap Bus → SMap Bus) : (s.onBus f).bus = f s.bus := rfl
@[simp] theorem State.onTmr_tmr (s : State) (f : SMap Nat → SMap Nat) : (s.onTmr f).tmr = f s.tmr := rfl
@[simp] theorem State.onDecs_decs (s : State) (f : SMap (List Dec) → SMap (List Dec)) : (s.onDecs f).decs = f s.decs := rfl
@[simp] theorem State.onReplay_replay (s : State) (f : SMap (List RRec) → SMap (List RRec)) : (s.onReplay f).replay = f s.replay := rfl
@[simp] theorem State.onSlots_slots (s : State) (f : SMap TrigSlot → SMap TrigSlot) : (s.onSlots f).slots = f s.slots := rfl
@[simp] theorem State.onMem_mem (s : State) (f : Mem → Mem) : (s.onMem f).mem = f s.mem := rfl
@[simp] theorem State.onRst_rst (s : State) (f : Rst → Rst) : (s.onRst f).rst = f s.rst := rfl
@[simp] theorem State.onStk_stk (s : State) (f : Stk → Stk) : (s.onStk f).stk = f s.stk := rfl
@[simp] theorem State.setVec_hif (s : State) (v : Nat) (x : Vec) : (s.setVec v x).hif = { s.hif with vecs := SMap.set vec0 s.hif.vecs v x } := rfl
@[simp] theorem State.setCtx_ctxs (s : State) (x : Nat) (c : Ctx) : (s.setCtx x c).ctxs = SMap.set ctx0 s.ctxs x c := rfl
@[simp] theorem State.setBillet_billets (s : State) (b : Nat) (x : Billet) : (s.setBillet b x).billets = SMap.set billet0 s.billets b x := rfl
@[simp] theorem State.updCore_cnv (s : State) (n : Nat) (f : Cnv → Cnv) : (s.updCore n f).cnv = SMap.upd cnv0 s.cnv n f := rfl
@[simp] theorem State.onPg_pg (s : State) (f : SMap Pg → SMap Pg) : (s.onPg f).pg = f s.pg := rfl
@[simp] theorem State.onCnv_cnv (s : State) (f : SMap Cnv → SMap Cnv) : (s.onCnv f).cnv = f s.cnv := rfl
@[simp] theorem State.onAu_au (s : State) (f : SMap Au → SMap Au) : (s.onAu f).au = f s.au := rfl
@[simp] theorem State.updPg_pg (s : State) (g : Nat) (f : Pg → Pg) : (s.updPg g f).pg = SMap.upd pg0 s.pg g f := rfl
@[simp] theorem State.updDdc_ddc (s : State) (u : Nat) (f : Ddc → Ddc) : (s.updDdc u f).ddc = SMap.upd ddc0 s.ddc u f := rfl
@[simp] theorem State.updXfm_xfm (s : State) (n : Nat) (f : Xfm → Xfm) : (s.updXfm n f).xfm = SMap.upd xfm0 s.xfm n f := rfl
@[simp] theorem State.updDet_det (s : State) (n : Nat) (f : Det → Det) : (s.updDet n f).det = SMap.upd det0 s.det n f := rfl
@[simp] theorem State.updDen_den (s : State) (n : Nat) (f : Den → Den) : (s.updDen n f).den = SMap.upd den0 s.den n f := rfl
@[simp] theorem State.updNet_net (s : State) (i : Nat) (f : NetSub → NetSub) : (s.updNet i f).net = SMap.upd net0 s.net i f := rfl
@[simp] theorem State.updAve_ave (s : State) (a : Nat) (f : Ave → Ave) : (s.updAve a f).ave = SMap.upd ave0 s.ave a f := rfl
@[simp] theorem State.updTq_tq (s : State) (q : Nat) (f : Tq → Tq) : (s.updTq q f).tq = SMap.upd tq0 s.tq q f := rfl
@[simp] theorem State.updLt_lt (s : State) (i : Nat) (f : Lt → Lt) : (s.updLt i f).lt = SMap.upd lt0 s.lt i f := rfl
@[simp] theorem State.updFm_fm (s : State) (u : Nat) (f : Fm → Fm) : (s.updFm u f).fm = SMap.upd fm0 s.fm u f := rfl
@[simp] theorem State.updAu_au (s : State) (n : Nat) (f : Au → Au) : (s.updAu n f).au = SMap.upd au0 s.au n f := rfl
@[simp] theorem State.updCmp_cmp (s : State) (u : Nat) (f : Cmp → Cmp) : (s.updCmp u f).cmp = SMap.upd cmp0 s.cmp u f := rfl
@[simp] theorem State.setTcore_turf (s : State) (c : Nat) (x : Core) : (s.setTcore c x).turf = SMap.set core0 s.turf c x := rfl
@[simp] theorem State.updCluster_clusters (s : State) (k : Nat) (f : Cluster → Cluster) : (s.updCluster k f).clusters = SMap.upd ⟨[], 0⟩ s.clusters k f := rfl
@[simp] theorem State.setLineErr_badLines (s : State) (line v : Nat) : (s.setLineErr line v).badLines = SMap.set 0 s.badLines line v := rfl
@[simp] theorem State.setDma_dma (s : State) (c : Nat) (d : Dma) : (s.setDma c d).dma = SMap.set dma0 s.dma c d := rfl
@[simp] theorem State.updTdc_tdc (s : State) (c : Nat) (f : TdcCh → TdcCh) : (s.updTdc c f).tdc = { s.tdc with chs := SMap.upd tdcCh0 s.tdc.chs c f } := rfl
@[simp] theorem State.updClk_clk (s : State) (f : Clk → Clk) : (s.updClk f).clk = f s.clk := rfl
@[simp] theorem State.updDis_dis (s : State) (n : Nat) (f : Dis → Dis) : (s.updDis n f).dis = SMap.upd dis0 s.dis n f := rfl
@[simp] theorem State.updLayer_layers (s : State) (n l : Nat) (f : DisLayer → DisLayer) : (s.updLayer n l f).layers = SMap.upd layer0 s.layers (2 * n + l) f := rfl
@[simp] theorem State.updHif_hif (s : State) (f : Hif → Hif) : (s.updHif f).hif = f s.hif := rfl
@[simp] theorem State.updStk_stk (s : State) (f : Stk → Stk) : (s.updStk f).stk = f s.stk := rfl
@[simp] theorem State.updPkg_pkg (s : State) (f : Pkg → Pkg) : (s.updPkg f).pkg = f s.pkg := rfl

@[simp] theorem SMap.get_upd_other {α : Type} [DecidableEq α] (d d' : α) (m : SMap α) {k j : Nat} (f : α → α) (h : j ≠ k) :
    SMap.get d' (SMap.upd d m k f) j = SMap.get d' m j := SMap.get_upd_ne d d' m f h

@[simp] theorem SMap.get_set_other {α : Type} [DecidableEq α] (d d' : α) (m : SMap α) {k j : Nat} (v : α) (h : j ≠ k) :
    SMap.get d' (SMap.set d m k v) j = SMap.get d' m j := SMap.get_set_ne d d' m v h

/-- Device time reaches a moment while the dividers run. -/
@[simp] theorem State.reach_time_running {s : State} (h : s.held = false) (t : Nat) : (s.reach t).time = max s.time t := by
  rw [State.reach, h]
  rfl

theorem State.reach_of_held {s : State} (h : s.held = true) (t : Nat) : s.reach t = s := by
  rw [State.reach, if_pos h]

/-- Device time does not fall as it reaches a moment. -/
theorem State.time_le_reach (s : State) (t : Nat) : s.time ≤ (s.reach t).time := by
  unfold State.reach
  split
  · exact Nat.le_refl _
  · exact Nat.le_max_left _ _

/-! ### What an event leaves alone -/


@[simp] theorem State.raise_pending (s : State) (src : Nat) (obj : Option Nat) (code detail : Nat) : (s.raise src obj code detail).pending = s.pending :=
  (touches_State.raise s src obj code detail).pending (by decide)
@[simp] theorem State.raise_act (s : State) (src : Nat) (obj : Option Nat) (code detail : Nat) : (s.raise src obj code detail).act = s.act :=
  (touches_State.raise s src obj code detail).act (by decide)
@[simp] theorem State.raise_snap (s : State) (src : Nat) (obj : Option Nat) (code detail : Nat) : (s.raise src obj code detail).snap = s.snap :=
  (touches_State.raise s src obj code detail).snap (by decide)
@[simp] theorem State.raise_staged (s : State) (src : Nat) (obj : Option Nat) (code detail : Nat) : (s.raise src obj code detail).staged = s.staged :=
  (touches_State.raise s src obj code detail).staged (by decide)
@[simp] theorem State.raise_readData (s : State) (src : Nat) (obj : Option Nat) (code detail : Nat) : (s.raise src obj code detail).readData = s.readData :=
  (touches_State.raise s src obj code detail).readData (by decide)
@[simp] theorem State.raise_time (s : State) (src : Nat) (obj : Option Nat) (code detail : Nat) : (s.raise src obj code detail).time = s.time :=
  (touches_State.raise s src obj code detail).time (by decide)
@[simp] theorem State.raise_frac (s : State) (src : Nat) (obj : Option Nat) (code detail : Nat) : (s.raise src obj code detail).frac = s.frac :=
  (touches_State.raise s src obj code detail).frac (by decide)
@[simp] theorem State.raise_freeCtr (s : State) (src : Nat) (obj : Option Nat) (code detail : Nat) : (s.raise src obj code detail).freeCtr = s.freeCtr :=
  (touches_State.raise s src obj code detail).freeCtr (by decide)
@[simp] theorem State.raise_store (s : State) (src : Nat) (obj : Option Nat) (code detail : Nat) : (s.raise src obj code detail).store = s.store :=
  (touches_State.raise s src obj code detail).store (by decide)
@[simp] theorem State.raise_flash (s : State) (src : Nat) (obj : Option Nat) (code detail : Nat) : (s.raise src obj code detail).flash = s.flash :=
  (touches_State.raise s src obj code detail).flash (by decide)
@[simp] theorem State.raise_ctxs (s : State) (src : Nat) (obj : Option Nat) (code detail : Nat) : (s.raise src obj code detail).ctxs = s.ctxs :=
  (touches_State.raise s src obj code detail).ctxs (by decide)
@[simp] theorem State.raise_billets (s : State) (src : Nat) (obj : Option Nat) (code detail : Nat) : (s.raise src obj code detail).billets = s.billets :=
  (touches_State.raise s src obj code detail).billets (by decide)
@[simp] theorem State.raise_ports (s : State) (src : Nat) (obj : Option Nat) (code detail : Nat) : (s.raise src obj code detail).ports = s.ports :=
  (touches_State.raise s src obj code detail).ports (by decide)
@[simp] theorem State.raise_aside (s : State) (src : Nat) (obj : Option Nat) (code detail : Nat) : (s.raise src obj code detail).aside = s.aside :=
  (touches_State.raise s src obj code detail).aside (by decide)
@[simp] theorem State.raise_served (s : State) (src : Nat) (obj : Option Nat) (code detail : Nat) : (s.raise src obj code detail).served = s.served :=
  (touches_State.raise s src obj code detail).served (by decide)
@[simp] theorem State.raise_badLines (s : State) (src : Nat) (obj : Option Nat) (code detail : Nat) : (s.raise src obj code detail).badLines = s.badLines :=
  (touches_State.raise s src obj code detail).badLines (by decide)
@[simp] theorem State.raise_clk (s : State) (src : Nat) (obj : Option Nat) (code detail : Nat) : (s.raise src obj code detail).clk = s.clk :=
  (touches_State.raise s src obj code detail).clk (by decide)
@[simp] theorem State.raise_plan (s : State) (src : Nat) (obj : Option Nat) (code detail : Nat) : (s.raise src obj code detail).plan = s.plan :=
  (touches_State.raise s src obj code detail).plan (by decide)
@[simp] theorem State.raise_tbs (s : State) (src : Nat) (obj : Option Nat) (code detail : Nat) : (s.raise src obj code detail).tbs = s.tbs :=
  (touches_State.raise s src obj code detail).tbs (by decide)
@[simp] theorem State.raise_tdc (s : State) (src : Nat) (obj : Option Nat) (code detail : Nat) : (s.raise src obj code detail).tdc = s.tdc :=
  (touches_State.raise s src obj code detail).tdc (by decide)
@[simp] theorem State.raise_cnv (s : State) (src : Nat) (obj : Option Nat) (code detail : Nat) : (s.raise src obj code detail).cnv = s.cnv :=
  (touches_State.raise s src obj code detail).cnv (by decide)
@[simp] theorem State.raise_pg (s : State) (src : Nat) (obj : Option Nat) (code detail : Nat) : (s.raise src obj code detail).pg = s.pg :=
  (touches_State.raise s src obj code detail).pg (by decide)
@[simp] theorem State.raise_cal (s : State) (src : Nat) (obj : Option Nat) (code detail : Nat) : (s.raise src obj code detail).cal = s.cal :=
  (touches_State.raise s src obj code detail).cal (by decide)
@[simp] theorem State.raise_ddc (s : State) (src : Nat) (obj : Option Nat) (code detail : Nat) : (s.raise src obj code detail).ddc = s.ddc :=
  (touches_State.raise s src obj code detail).ddc (by decide)
@[simp] theorem State.raise_xfm (s : State) (src : Nat) (obj : Option Nat) (code detail : Nat) : (s.raise src obj code detail).xfm = s.xfm :=
  (touches_State.raise s src obj code detail).xfm (by decide)
@[simp] theorem State.raise_streams (s : State) (src : Nat) (obj : Option Nat) (code detail : Nat) : (s.raise src obj code detail).streams = s.streams :=
  (touches_State.raise s src obj code detail).streams (by decide)
@[simp] theorem State.raise_frames (s : State) (src : Nat) (obj : Option Nat) (code detail : Nat) : (s.raise src obj code detail).frames = s.frames :=
  (touches_State.raise s src obj code detail).frames (by decide)
@[simp] theorem State.raise_det (s : State) (src : Nat) (obj : Option Nat) (code detail : Nat) : (s.raise src obj code detail).det = s.det :=
  (touches_State.raise s src obj code detail).det (by decide)
@[simp] theorem State.raise_den (s : State) (src : Nat) (obj : Option Nat) (code detail : Nat) : (s.raise src obj code detail).den = s.den :=
  (touches_State.raise s src obj code detail).den (by decide)
@[simp] theorem State.raise_tq (s : State) (src : Nat) (obj : Option Nat) (code detail : Nat) : (s.raise src obj code detail).tq = s.tq :=
  (touches_State.raise s src obj code detail).tq (by decide)
@[simp] theorem State.raise_lt (s : State) (src : Nat) (obj : Option Nat) (code detail : Nat) : (s.raise src obj code detail).lt = s.lt :=
  (touches_State.raise s src obj code detail).lt (by decide)
@[simp] theorem State.raise_fm (s : State) (src : Nat) (obj : Option Nat) (code detail : Nat) : (s.raise src obj code detail).fm = s.fm :=
  (touches_State.raise s src obj code detail).fm (by decide)
@[simp] theorem State.raise_bus (s : State) (src : Nat) (obj : Option Nat) (code detail : Nat) : (s.raise src obj code detail).bus = s.bus :=
  (touches_State.raise s src obj code detail).bus (by decide)
@[simp] theorem State.raise_tmr (s : State) (src : Nat) (obj : Option Nat) (code detail : Nat) : (s.raise src obj code detail).tmr = s.tmr :=
  (touches_State.raise s src obj code detail).tmr (by decide)
@[simp] theorem State.raise_decs (s : State) (src : Nat) (obj : Option Nat) (code detail : Nat) : (s.raise src obj code detail).decs = s.decs :=
  (touches_State.raise s src obj code detail).decs (by decide)
@[simp] theorem State.raise_au (s : State) (src : Nat) (obj : Option Nat) (code detail : Nat) : (s.raise src obj code detail).au = s.au :=
  (touches_State.raise s src obj code detail).au (by decide)
@[simp] theorem State.raise_replay (s : State) (src : Nat) (obj : Option Nat) (code detail : Nat) : (s.raise src obj code detail).replay = s.replay :=
  (touches_State.raise s src obj code detail).replay (by decide)
@[simp] theorem State.raise_turf (s : State) (src : Nat) (obj : Option Nat) (code detail : Nat) : (s.raise src obj code detail).turf = s.turf :=
  (touches_State.raise s src obj code detail).turf (by decide)
@[simp] theorem State.raise_clusters (s : State) (src : Nat) (obj : Option Nat) (code detail : Nat) : (s.raise src obj code detail).clusters = s.clusters :=
  (touches_State.raise s src obj code detail).clusters (by decide)
@[simp] theorem State.raise_net (s : State) (src : Nat) (obj : Option Nat) (code detail : Nat) : (s.raise src obj code detail).net = s.net :=
  (touches_State.raise s src obj code detail).net (by decide)
@[simp] theorem State.raise_ave (s : State) (src : Nat) (obj : Option Nat) (code detail : Nat) : (s.raise src obj code detail).ave = s.ave :=
  (touches_State.raise s src obj code detail).ave (by decide)
@[simp] theorem State.raise_slots (s : State) (src : Nat) (obj : Option Nat) (code detail : Nat) : (s.raise src obj code detail).slots = s.slots :=
  (touches_State.raise s src obj code detail).slots (by decide)
@[simp] theorem State.raise_dis (s : State) (src : Nat) (obj : Option Nat) (code detail : Nat) : (s.raise src obj code detail).dis = s.dis :=
  (touches_State.raise s src obj code detail).dis (by decide)
@[simp] theorem State.raise_layers (s : State) (src : Nat) (obj : Option Nat) (code detail : Nat) : (s.raise src obj code detail).layers = s.layers :=
  (touches_State.raise s src obj code detail).layers (by decide)
@[simp] theorem State.raise_mem (s : State) (src : Nat) (obj : Option Nat) (code detail : Nat) : (s.raise src obj code detail).mem = s.mem :=
  (touches_State.raise s src obj code detail).mem (by decide)
@[simp] theorem State.raise_dma (s : State) (src : Nat) (obj : Option Nat) (code detail : Nat) : (s.raise src obj code detail).dma = s.dma :=
  (touches_State.raise s src obj code detail).dma (by decide)
@[simp] theorem State.raise_rst (s : State) (src : Nat) (obj : Option Nat) (code detail : Nat) : (s.raise src obj code detail).rst = s.rst :=
  (touches_State.raise s src obj code detail).rst (by decide)
@[simp] theorem State.raise_stk (s : State) (src : Nat) (obj : Option Nat) (code detail : Nat) : (s.raise src obj code detail).stk = s.stk :=
  (touches_State.raise s src obj code detail).stk (by decide)
@[simp] theorem State.raise_cmp (s : State) (src : Nat) (obj : Option Nat) (code detail : Nat) : (s.raise src obj code detail).cmp = s.cmp :=
  (touches_State.raise s src obj code detail).cmp (by decide)
@[simp] theorem State.raise_pkg (s : State) (src : Nat) (obj : Option Nat) (code detail : Nat) : (s.raise src obj code detail).pkg = s.pkg :=
  (touches_State.raise s src obj code detail).pkg (by decide)
@[simp] theorem State.raiseLim_pending (s : State) (us src : Nat) (obj : Option Nat) (code detail key : Nat) :
    (s.raiseLim us src obj code detail key).pending = s.pending := (touches_State.raiseLim s us src obj code detail key).pending (by decide)
@[simp] theorem State.raiseLim_act (s : State) (us src : Nat) (obj : Option Nat) (code detail key : Nat) :
    (s.raiseLim us src obj code detail key).act = s.act := (touches_State.raiseLim s us src obj code detail key).act (by decide)
@[simp] theorem State.raiseLim_snap (s : State) (us src : Nat) (obj : Option Nat) (code detail key : Nat) :
    (s.raiseLim us src obj code detail key).snap = s.snap := (touches_State.raiseLim s us src obj code detail key).snap (by decide)
@[simp] theorem State.raiseLim_staged (s : State) (us src : Nat) (obj : Option Nat) (code detail key : Nat) :
    (s.raiseLim us src obj code detail key).staged = s.staged := (touches_State.raiseLim s us src obj code detail key).staged (by decide)
@[simp] theorem State.raiseLim_readData (s : State) (us src : Nat) (obj : Option Nat) (code detail key : Nat) :
    (s.raiseLim us src obj code detail key).readData = s.readData := (touches_State.raiseLim s us src obj code detail key).readData (by decide)
@[simp] theorem State.raiseLim_time (s : State) (us src : Nat) (obj : Option Nat) (code detail key : Nat) :
    (s.raiseLim us src obj code detail key).time = s.time := (touches_State.raiseLim s us src obj code detail key).time (by decide)
@[simp] theorem State.raiseLim_frac (s : State) (us src : Nat) (obj : Option Nat) (code detail key : Nat) :
    (s.raiseLim us src obj code detail key).frac = s.frac := (touches_State.raiseLim s us src obj code detail key).frac (by decide)
@[simp] theorem State.raiseLim_freeCtr (s : State) (us src : Nat) (obj : Option Nat) (code detail key : Nat) :
    (s.raiseLim us src obj code detail key).freeCtr = s.freeCtr := (touches_State.raiseLim s us src obj code detail key).freeCtr (by decide)
@[simp] theorem State.raiseLim_store (s : State) (us src : Nat) (obj : Option Nat) (code detail key : Nat) :
    (s.raiseLim us src obj code detail key).store = s.store := (touches_State.raiseLim s us src obj code detail key).store (by decide)
@[simp] theorem State.raiseLim_flash (s : State) (us src : Nat) (obj : Option Nat) (code detail key : Nat) :
    (s.raiseLim us src obj code detail key).flash = s.flash := (touches_State.raiseLim s us src obj code detail key).flash (by decide)
@[simp] theorem State.raiseLim_ctxs (s : State) (us src : Nat) (obj : Option Nat) (code detail key : Nat) :
    (s.raiseLim us src obj code detail key).ctxs = s.ctxs := (touches_State.raiseLim s us src obj code detail key).ctxs (by decide)
@[simp] theorem State.raiseLim_billets (s : State) (us src : Nat) (obj : Option Nat) (code detail key : Nat) :
    (s.raiseLim us src obj code detail key).billets = s.billets := (touches_State.raiseLim s us src obj code detail key).billets (by decide)
@[simp] theorem State.raiseLim_ports (s : State) (us src : Nat) (obj : Option Nat) (code detail key : Nat) :
    (s.raiseLim us src obj code detail key).ports = s.ports := (touches_State.raiseLim s us src obj code detail key).ports (by decide)
@[simp] theorem State.raiseLim_aside (s : State) (us src : Nat) (obj : Option Nat) (code detail key : Nat) :
    (s.raiseLim us src obj code detail key).aside = s.aside := (touches_State.raiseLim s us src obj code detail key).aside (by decide)
@[simp] theorem State.raiseLim_served (s : State) (us src : Nat) (obj : Option Nat) (code detail key : Nat) :
    (s.raiseLim us src obj code detail key).served = s.served := (touches_State.raiseLim s us src obj code detail key).served (by decide)
@[simp] theorem State.raiseLim_badLines (s : State) (us src : Nat) (obj : Option Nat) (code detail key : Nat) :
    (s.raiseLim us src obj code detail key).badLines = s.badLines := (touches_State.raiseLim s us src obj code detail key).badLines (by decide)
@[simp] theorem State.raiseLim_clk (s : State) (us src : Nat) (obj : Option Nat) (code detail key : Nat) :
    (s.raiseLim us src obj code detail key).clk = s.clk := (touches_State.raiseLim s us src obj code detail key).clk (by decide)
@[simp] theorem State.raiseLim_plan (s : State) (us src : Nat) (obj : Option Nat) (code detail key : Nat) :
    (s.raiseLim us src obj code detail key).plan = s.plan := (touches_State.raiseLim s us src obj code detail key).plan (by decide)
@[simp] theorem State.raiseLim_tbs (s : State) (us src : Nat) (obj : Option Nat) (code detail key : Nat) :
    (s.raiseLim us src obj code detail key).tbs = s.tbs := (touches_State.raiseLim s us src obj code detail key).tbs (by decide)
@[simp] theorem State.raiseLim_tdc (s : State) (us src : Nat) (obj : Option Nat) (code detail key : Nat) :
    (s.raiseLim us src obj code detail key).tdc = s.tdc := (touches_State.raiseLim s us src obj code detail key).tdc (by decide)
@[simp] theorem State.raiseLim_cnv (s : State) (us src : Nat) (obj : Option Nat) (code detail key : Nat) :
    (s.raiseLim us src obj code detail key).cnv = s.cnv := (touches_State.raiseLim s us src obj code detail key).cnv (by decide)
@[simp] theorem State.raiseLim_pg (s : State) (us src : Nat) (obj : Option Nat) (code detail key : Nat) :
    (s.raiseLim us src obj code detail key).pg = s.pg := (touches_State.raiseLim s us src obj code detail key).pg (by decide)
@[simp] theorem State.raiseLim_cal (s : State) (us src : Nat) (obj : Option Nat) (code detail key : Nat) :
    (s.raiseLim us src obj code detail key).cal = s.cal := (touches_State.raiseLim s us src obj code detail key).cal (by decide)
@[simp] theorem State.raiseLim_ddc (s : State) (us src : Nat) (obj : Option Nat) (code detail key : Nat) :
    (s.raiseLim us src obj code detail key).ddc = s.ddc := (touches_State.raiseLim s us src obj code detail key).ddc (by decide)
@[simp] theorem State.raiseLim_xfm (s : State) (us src : Nat) (obj : Option Nat) (code detail key : Nat) :
    (s.raiseLim us src obj code detail key).xfm = s.xfm := (touches_State.raiseLim s us src obj code detail key).xfm (by decide)
@[simp] theorem State.raiseLim_streams (s : State) (us src : Nat) (obj : Option Nat) (code detail key : Nat) :
    (s.raiseLim us src obj code detail key).streams = s.streams := (touches_State.raiseLim s us src obj code detail key).streams (by decide)
@[simp] theorem State.raiseLim_frames (s : State) (us src : Nat) (obj : Option Nat) (code detail key : Nat) :
    (s.raiseLim us src obj code detail key).frames = s.frames := (touches_State.raiseLim s us src obj code detail key).frames (by decide)
@[simp] theorem State.raiseLim_det (s : State) (us src : Nat) (obj : Option Nat) (code detail key : Nat) :
    (s.raiseLim us src obj code detail key).det = s.det := (touches_State.raiseLim s us src obj code detail key).det (by decide)
@[simp] theorem State.raiseLim_den (s : State) (us src : Nat) (obj : Option Nat) (code detail key : Nat) :
    (s.raiseLim us src obj code detail key).den = s.den := (touches_State.raiseLim s us src obj code detail key).den (by decide)
@[simp] theorem State.raiseLim_tq (s : State) (us src : Nat) (obj : Option Nat) (code detail key : Nat) :
    (s.raiseLim us src obj code detail key).tq = s.tq := (touches_State.raiseLim s us src obj code detail key).tq (by decide)
@[simp] theorem State.raiseLim_lt (s : State) (us src : Nat) (obj : Option Nat) (code detail key : Nat) :
    (s.raiseLim us src obj code detail key).lt = s.lt := (touches_State.raiseLim s us src obj code detail key).lt (by decide)
@[simp] theorem State.raiseLim_fm (s : State) (us src : Nat) (obj : Option Nat) (code detail key : Nat) :
    (s.raiseLim us src obj code detail key).fm = s.fm := (touches_State.raiseLim s us src obj code detail key).fm (by decide)
@[simp] theorem State.raiseLim_bus (s : State) (us src : Nat) (obj : Option Nat) (code detail key : Nat) :
    (s.raiseLim us src obj code detail key).bus = s.bus := (touches_State.raiseLim s us src obj code detail key).bus (by decide)
@[simp] theorem State.raiseLim_tmr (s : State) (us src : Nat) (obj : Option Nat) (code detail key : Nat) :
    (s.raiseLim us src obj code detail key).tmr = s.tmr := (touches_State.raiseLim s us src obj code detail key).tmr (by decide)
@[simp] theorem State.raiseLim_decs (s : State) (us src : Nat) (obj : Option Nat) (code detail key : Nat) :
    (s.raiseLim us src obj code detail key).decs = s.decs := (touches_State.raiseLim s us src obj code detail key).decs (by decide)
@[simp] theorem State.raiseLim_au (s : State) (us src : Nat) (obj : Option Nat) (code detail key : Nat) :
    (s.raiseLim us src obj code detail key).au = s.au := (touches_State.raiseLim s us src obj code detail key).au (by decide)
@[simp] theorem State.raiseLim_replay (s : State) (us src : Nat) (obj : Option Nat) (code detail key : Nat) :
    (s.raiseLim us src obj code detail key).replay = s.replay := (touches_State.raiseLim s us src obj code detail key).replay (by decide)
@[simp] theorem State.raiseLim_turf (s : State) (us src : Nat) (obj : Option Nat) (code detail key : Nat) :
    (s.raiseLim us src obj code detail key).turf = s.turf := (touches_State.raiseLim s us src obj code detail key).turf (by decide)
@[simp] theorem State.raiseLim_clusters (s : State) (us src : Nat) (obj : Option Nat) (code detail key : Nat) :
    (s.raiseLim us src obj code detail key).clusters = s.clusters := (touches_State.raiseLim s us src obj code detail key).clusters (by decide)
@[simp] theorem State.raiseLim_net (s : State) (us src : Nat) (obj : Option Nat) (code detail key : Nat) :
    (s.raiseLim us src obj code detail key).net = s.net := (touches_State.raiseLim s us src obj code detail key).net (by decide)
@[simp] theorem State.raiseLim_ave (s : State) (us src : Nat) (obj : Option Nat) (code detail key : Nat) :
    (s.raiseLim us src obj code detail key).ave = s.ave := (touches_State.raiseLim s us src obj code detail key).ave (by decide)
@[simp] theorem State.raiseLim_slots (s : State) (us src : Nat) (obj : Option Nat) (code detail key : Nat) :
    (s.raiseLim us src obj code detail key).slots = s.slots := (touches_State.raiseLim s us src obj code detail key).slots (by decide)
@[simp] theorem State.raiseLim_dis (s : State) (us src : Nat) (obj : Option Nat) (code detail key : Nat) :
    (s.raiseLim us src obj code detail key).dis = s.dis := (touches_State.raiseLim s us src obj code detail key).dis (by decide)
@[simp] theorem State.raiseLim_layers (s : State) (us src : Nat) (obj : Option Nat) (code detail key : Nat) :
    (s.raiseLim us src obj code detail key).layers = s.layers := (touches_State.raiseLim s us src obj code detail key).layers (by decide)
@[simp] theorem State.raiseLim_mem (s : State) (us src : Nat) (obj : Option Nat) (code detail key : Nat) :
    (s.raiseLim us src obj code detail key).mem = s.mem := (touches_State.raiseLim s us src obj code detail key).mem (by decide)
@[simp] theorem State.raiseLim_dma (s : State) (us src : Nat) (obj : Option Nat) (code detail key : Nat) :
    (s.raiseLim us src obj code detail key).dma = s.dma := (touches_State.raiseLim s us src obj code detail key).dma (by decide)
@[simp] theorem State.raiseLim_rst (s : State) (us src : Nat) (obj : Option Nat) (code detail key : Nat) :
    (s.raiseLim us src obj code detail key).rst = s.rst := (touches_State.raiseLim s us src obj code detail key).rst (by decide)
@[simp] theorem State.raiseLim_stk (s : State) (us src : Nat) (obj : Option Nat) (code detail key : Nat) :
    (s.raiseLim us src obj code detail key).stk = s.stk := (touches_State.raiseLim s us src obj code detail key).stk (by decide)
@[simp] theorem State.raiseLim_cmp (s : State) (us src : Nat) (obj : Option Nat) (code detail key : Nat) :
    (s.raiseLim us src obj code detail key).cmp = s.cmp := (touches_State.raiseLim s us src obj code detail key).cmp (by decide)
@[simp] theorem State.raiseLim_pkg (s : State) (us src : Nat) (obj : Option Nat) (code detail key : Nat) :
    (s.raiseLim us src obj code detail key).pkg = s.pkg := (touches_State.raiseLim s us src obj code detail key).pkg (by decide)

/-- A field of `n` bits holds less than `2 ^ n`. -/
theorem fget_lt (w : Word) (f : Fld) : fget w f < 2 ^ f.w := Nat.mod_lt _ (Nat.two_pow_pos _)

theorem State.fld_lt (s : State) (a : Nat) (f : Fld) : s.fld a f < 2 ^ f.w := fget_lt _ f

@[simp] theorem fget_mod (w : Word) (f : Fld) : fget w f % 2 ^ f.w = fget w f := Nat.mod_eq_of_lt (fget_lt w f)

@[simp] theorem State.fld_mod (s : State) (a : Nat) (f : Fld) : s.fld a f % 2 ^ f.w = s.fld a f := fget_mod _ f

/-- A one-bit field that reads 1. -/
theorem State.flag_iff (s : State) (a : Nat) (f : Fld) : s.flag a f = true ↔ s.fld a f ≠ 0 := by simp [State.flag]

theorem State.flag_false_iff (s : State) (a : Nat) (f : Fld) : s.flag a f = false ↔ s.fld a f = 0 := by simp [State.flag]

theorem State.ready_iff (s : State) : s.ready = true ↔ s.glb = 3 := by simp [State.ready]

theorem State.glb_ne_zero_of_ready (h : s.ready = true) : s.glb ≠ 0 := by
  rw [State.ready_iff] at h
  rw [h]
  decide

theorem State.awake_of_ready (h : s.ready = true) : s.awake = true := by
  rw [State.ready_iff] at h
  simp [State.awake, h]

end Sys2Proof.Machine

namespace Sys2Proof

open Sys2Proof.Machine

/-! ### Changes confined to components and registers -/

section

variable {m l srcs : _} {s t u : State}

theorem onlyIn.refl (m : Nat) (l srcs : List Nat) (s : State) : onlyIn m l srcs s s := ⟨Touches.refl m s, regsKept.refl l srcs s⟩

theorem onlyIn.trans (h : onlyIn m l srcs s t) (k : onlyIn m l srcs t u) : onlyIn m l srcs s u :=
  ⟨h.1.trans k.1, h.2.trans k.2⟩

theorem regsKept.mono {l' srcs' : List Nat} (h : regsKept l srcs s t) (hl : l ⊆ l') (hs : srcs ⊆ srcs') : regsKept l' srcs' s t :=
  fun a ha hn => h a (fun x => ha (hl x)) fun src x => hn src (hs x)

/-- A change within fewer components, registers and events. -/
theorem onlyIn.mono {m' : Nat} {l' srcs' : List Nat} (h : onlyIn m l srcs s t) (hm : m &&& m' = m := by decide)
    (hl : l ⊆ l' := by simp) (hs : srcs ⊆ srcs' := by simp) : onlyIn m' l' srcs' s t :=
  ⟨h.1.mono hm, h.2.mono hl hs⟩

/-- A change followed by one that is known to stay within less. -/
theorem onlyIn.andThen {m' : Nat} {l' srcs' : List Nat} (h : onlyIn m l srcs s t) (k : onlyIn m' l' srcs' t u)
    (hm : m' &&& m = m' := by decide) (hl : l' ⊆ l := by simp) (hs : srcs' ⊆ srcs := by simp) : onlyIn m l srcs s u :=
  h.trans (k.mono hm hl hs)

/-- Either of two changes. -/
theorem onlyIn.ite {c : Prop} [Decidable c] (h : onlyIn m l srcs s t) (k : onlyIn m l srcs s u) :
    onlyIn m l srcs s (if c then t else u) := by
  split
  · exact h
  · exact k

/-- A change followed by one of other components than the registers. -/
theorem onlyIn.other {m' : Nat} (h : onlyIn m l srcs s t) (k : Touches m' t u) (hm : m' &&& m = m' := by decide)
    (e : u.regs = t.regs := by rfl) : onlyIn m l srcs s u :=
  ⟨h.1.trans (k.mono hm), regsKept.of_regs e h.2⟩

/-- Registers that lie above the GLB window's first 4 KiB leave it alone. -/
theorem onlyIn.of_hi (h : onlyIn (m ||| mGlb) l srcs s t) (hl : ∀ a ∈ l, 0x1000 ≤ a) : onlyIn m l srcs s t := by
  refine ⟨?_, h.2⟩
  have hg : ∀ a < 0x1000, t.rd a = s.rd a := fun a ha => h.2 a (fun x => absurd (hl a x) (by omega)) fun src _ x => by
    simp only [evtRegs, rEVT_SRC, rEVT_STAT, rEVT_SEQ, rEVT_RING_IDX, List.mem_cons, List.not_mem_nil, or_false] at x
    omega
  have hb : ∀ i, i ≠ 55 → m.testBit i = false → (m ||| mGlb).testBit i = false := fun i hi hm => by
    rw [Nat.testBit_or, hm, Nat.testBit_two_pow_of_ne (Ne.symm hi), Bool.false_or]
  obtain ⟨k, -⟩ := h
  constructor
  case glb => exact fun _ => hg
  case tables => exact k.tables
  case fuses => exact k.fuses
  case pending => exact fun x => k.pending (hb 0 (by decide) x)
  case regs => exact fun x => k.regs (hb 1 (by decide) x)
  case act => exact fun x => k.act (hb 2 (by decide) x)
  case snap => exact fun x => k.snap (hb 3 (by decide) x)
  case staged => exact fun x => k.staged (hb 4 (by decide) x)
  case readData => exact fun x => k.readData (hb 5 (by decide) x)
  case outs => exact fun x => k.outs (hb 6 (by decide) x)
  case time => exact fun x => k.time (hb 7 (by decide) x)
  case frac => exact fun x => k.frac (hb 8 (by decide) x)
  case freeCtr => exact fun x => k.freeCtr (hb 9 (by decide) x)
  case store => exact fun x => k.store (hb 10 (by decide) x)
  case hostMem => exact fun x => k.hostMem (hb 11 (by decide) x)
  case flash => exact fun x => k.flash (hb 12 (by decide) x)
  case evt => exact fun x => k.evt (hb 13 (by decide) x)
  case hif => exact fun x => k.hif (hb 14 (by decide) x)
  case ctxs => exact fun x => k.ctxs (hb 15 (by decide) x)
  case billets => exact fun x => k.billets (hb 16 (by decide) x)
  case ports => exact fun x => k.ports (hb 17 (by decide) x)
  case aside => exact fun x => k.aside (hb 18 (by decide) x)
  case served => exact fun x => k.served (hb 19 (by decide) x)
  case badLines => exact fun x => k.badLines (hb 20 (by decide) x)
  case clk => exact fun x => k.clk (hb 21 (by decide) x)
  case plan => exact fun x => k.plan (hb 22 (by decide) x)
  case tbs => exact fun x => k.tbs (hb 23 (by decide) x)
  case tdc => exact fun x => k.tdc (hb 24 (by decide) x)
  case cnv => exact fun x => k.cnv (hb 25 (by decide) x)
  case pg => exact fun x => k.pg (hb 26 (by decide) x)
  case cal => exact fun x => k.cal (hb 27 (by decide) x)
  case ddc => exact fun x => k.ddc (hb 28 (by decide) x)
  case xfm => exact fun x => k.xfm (hb 29 (by decide) x)
  case streams => exact fun x => k.streams (hb 30 (by decide) x)
  case frames => exact fun x => k.frames (hb 31 (by decide) x)
  case det => exact fun x => k.det (hb 32 (by decide) x)
  case den => exact fun x => k.den (hb 33 (by decide) x)
  case tq => exact fun x => k.tq (hb 34 (by decide) x)
  case lt => exact fun x => k.lt (hb 35 (by decide) x)
  case fm => exact fun x => k.fm (hb 36 (by decide) x)
  case bus => exact fun x => k.bus (hb 37 (by decide) x)
  case tmr => exact fun x => k.tmr (hb 38 (by decide) x)
  case decs => exact fun x => k.decs (hb 39 (by decide) x)
  case au => exact fun x => k.au (hb 40 (by decide) x)
  case replay => exact fun x => k.replay (hb 41 (by decide) x)
  case turf => exact fun x => k.turf (hb 42 (by decide) x)
  case clusters => exact fun x => k.clusters (hb 43 (by decide) x)
  case net => exact fun x => k.net (hb 44 (by decide) x)
  case ave => exact fun x => k.ave (hb 45 (by decide) x)
  case slots => exact fun x => k.slots (hb 46 (by decide) x)
  case dis => exact fun x => k.dis (hb 47 (by decide) x)
  case layers => exact fun x => k.layers (hb 48 (by decide) x)
  case mem => exact fun x => k.mem (hb 49 (by decide) x)
  case dma => exact fun x => k.dma (hb 50 (by decide) x)
  case rst => exact fun x => k.rst (hb 51 (by decide) x)
  case stk => exact fun x => k.stk (hb 52 (by decide) x)
  case cmp => exact fun x => k.cmp (hb 53 (by decide) x)
  case pkg => exact fun x => k.pkg (hb 54 (by decide) x)

/-! A change followed by a register write, for components that hold the registers and the GLB window's first 4 KiB. -/

theorem onlyIn.wr {a : Nat} {v : Word} (h : onlyIn m l srcs s t) (ha : a ∈ l := by simp)
    (hm : (mRegs ||| mGlb) &&& m = mRegs ||| mGlb := by decide) : onlyIn m l srcs s (t.wr a v) :=
  ⟨h.1.trans ((touches_State.wr t a v).mono hm), regsKept.wr v ha h.2⟩

theorem onlyIn.setFld {a : Nat} {f : Fld} {v : Nat} (h : onlyIn m l srcs s t) (ha : a ∈ l := by simp)
    (hm : (mRegs ||| mGlb) &&& m = mRegs ||| mGlb := by decide) : onlyIn m l srcs s (t.setFld a f v) := h.wr ha hm

theorem onlyIn.setFlds {a : Nat} {e : List (Fld × Nat)} (h : onlyIn m l srcs s t) (ha : a ∈ l := by simp)
    (hm : (mRegs ||| mGlb) &&& m = mRegs ||| mGlb := by decide) : onlyIn m l srcs s (t.setFlds a e) := h.wr ha hm

theorem onlyIn.addSat {a : Nat} {f : Fld} {n : Nat} (h : onlyIn m l srcs s t) (ha : a ∈ l := by simp)
    (hm : (mRegs ||| mGlb) &&& m = mRegs ||| mGlb := by decide) : onlyIn m l srcs s (t.addSat a f n) := h.wr ha hm

theorem onlyIn.addMod {a : Nat} {f : Fld} {n : Nat} (h : onlyIn m l srcs s t) (ha : a ∈ l := by simp)
    (hm : (mRegs ||| mGlb) &&& m = mRegs ||| mGlb := by decide) : onlyIn m l srcs s (t.addMod a f n) := h.wr ha hm

theorem onlyIn.wrCodes {a : Nat} {v : Word} {e : List Fld} (h : onlyIn m l srcs s t) (ha : a ∈ l := by simp)
    (hm : (mRegs ||| mGlb) &&& m = mRegs ||| mGlb := by decide) : onlyIn m l srcs s (t.wrCodes a v e) :=
  ⟨h.1.trans ((touches_State.wrCodes t a v e).mono hm), regsKept.wrCodes v e ha h.2⟩

theorem onlyIn.raise {src : Nat} {obj : Option Nat} {code detail : Nat} (h : onlyIn m l srcs s t) (hs : src ∈ srcs := by simp)
    (hm : mEvent &&& m = mEvent := by decide) : onlyIn m l srcs s (t.raise src obj code detail) :=
  ⟨h.1.trans ((touches_State.raise t src obj code detail).mono hm), regsKept.raise obj code detail hs h.2⟩

theorem onlyIn.raiseLim {us src : Nat} {obj : Option Nat} {code detail key : Nat} (h : onlyIn m l srcs s t) (hs : src ∈ srcs := by simp)
    (hm : mEvent &&& m = mEvent := by decide) : onlyIn m l srcs s (t.raiseLim us src obj code detail key) :=
  ⟨h.1.trans ((touches_State.raiseLim t us src obj code detail key).mono hm), regsKept.raiseLim us obj code detail key hs h.2⟩

theorem onlyIn.dropStaged {p : Path} {a : Nat} (h : onlyIn m l srcs s t) (hm : mStaged &&& m = mStaged := by decide) :
    onlyIn m l srcs s (t.dropStaged p a) := h.other (touches_State.dropStaged t p a) hm

end

/-! ### Chains of operations -/

/-- One more operation after the others. -/
theorem Touches.andThen {m m' : Nat} {s t u : State} (g : Touches m s t) (k : Touches m' t u) (h : m' &&& m = m' := by decide) :
    Touches m s u := g.trans (k.mono h)

/-- The same operation on each element of a list. -/
theorem Touches.overList {β : Type} {m m' : Nat} {s u : State} {g : State → β → State} {l : List β} (k : Touches m s u)
    (h : ∀ t b, Touches m' t (g t b)) (hm : m' &&& m = m' := by decide) : Touches m s (l.foldl g u) :=
  Touches.foldl (fun t b => (h t b).mono hm) k

/-- STATE is left alone with the GLB window. -/
theorem Touches.glbState {m : Nat} {s t : State} (k : Touches m s t) (h : m.testBit 55 = false := by decide) : t.glb = s.glb :=
  congrArg (fun w => fget w fGLB_STATUS_STATE) (k.glb h rGLB_STATUS (by decide))

/-! ### How a command that is known to act answers -/

theorem completes_of_eq {c : Instr} {s t : State} {P : State → Prop} (e : exec c s = .next t) (h : P t) : completes c s P := ⟨t, e, h⟩

end Sys2Proof
end

section
/-! SUPPORT. What every step keeps, and what each group of commands may change: the frame obligations, from what each command touches. -/

set_option Elab.async false

namespace Sys2Proof

open Sys2Proof.Machine

/-- Every command answers a next state that some set of components confines. -/
theorem exec_next (c : Instr) (s : State) : ∃ t, exec c s = .next t ∧ ∃ m, Touches m s t := by
  obtain ⟨m, t, h, k⟩ := exec_goesOn c s
  exact ⟨t, h, m, k⟩

/-- Whatever a step does, some set of components confines it (the queue among them). -/
theorem step_touches {s t : State} (h : step s = .next t) :
    ∃ m, Touches m { s with pending := s.pending.tail } t := by
  unfold step at h
  split at h
  · next e =>
    cases h
    exact ⟨_, by rw [show s.pending.tail = s.pending by rw [e]; rfl]; exact touches_State.turfTick s⟩
  · next c rest e =>
    obtain ⟨m, u, hu, k⟩ := exec_goesOn c { s with pending := rest }
    rw [hu] at h
    cases h
    exact ⟨m, by rw [e]; exact k⟩

/-- Settles O1: both by the definition of `step`. -/
theorem stepRunsFront : Obligations.StepRunsFront := by
  refine ⟨fun c s rest => rfl, fun s h => ?_⟩
  unfold step
  rw [h]

/-- Settles O4: every table is empty. -/
theorem resetTablesOk : Obligations.ResetTablesOk := ⟨⟨rfl, rfl, rfl⟩, regsOk_nil, regsOk_nil⟩

/-- Settles O3: each command keeps the tables' form (`step_touches`), and the queue is no part of it. -/
theorem stepKeepsTables : Obligations.StepKeepsTables := by
  intro s t hs h
  obtain ⟨m, k⟩ := step_touches h
  exact k.tables (hs.of_eq rfl rfl rfl rfl rfl)

/-- Settles O5: each command burns fuses only (`step_touches`). -/
theorem stepBurnsFusesOnly : Obligations.StepBurnsFusesOnly := by
  intro s t h
  obtain ⟨m, k⟩ := step_touches h
  exact k.fuses

/-- Settles O2, by `exec_goesOn` and `exec_pending`. -/
theorem everyCommandGoesOn : Obligations.EveryCommandGoesOn := by
  intro c s
  obtain ⟨m, t, h, -⟩ := exec_goesOn c s
  exact ⟨t, h, exec_pending c h⟩

/-- Settles O6: the commands it allows are those of `mayFlash`. -/
theorem flashFrame : Obligations.FlashFrame := by
  intro c s t h hc a
  have hk : mayFlash c = false := by
    cases c <;> first | rfl | exact hc.elim
  rw [exec_flash c h hk]

/-- Settles O7: the commands it allows are those of `mayStk`. -/
theorem stokerFrame : Obligations.StokerFrame := by
  intro c s t h hc
  have hk : mayStk c = false := by
    cases c <;> first | rfl | exact hc.elim
  exact exec_stk c h hk

/-- Settles O8: the commands it allows are those of `mayDis`. -/
theorem displayFrame : Obligations.DisplayFrame := by
  intro c s t h hc
  have hk : mayDis c = false := by
    cases c <;> first | rfl | exact hc.elim
  exact exec_dis c h hk

/-- Settles O13: the commands it allows are those of `mayGlb`. -/
theorem deviceStateFrame : Obligations.DeviceStateFrame := by
  intro c s t h hc
  have hk : mayGlb c = false := by
    cases c <;> first | rfl | exact hc.elim
  exact exec_glb c h hk

end Sys2Proof
end

section
/-! SUPPORT. The registers of chapters 0 and 1: scratch, reserved addresses, the device ID, and datapath restarts. -/

set_option Elab.async false

namespace Sys2Proof.Machine

/-- A register all of whose bits software writes takes the value written. -/
theorem codeWrite_allRw {r : RegRow} (h : r.rw = 2 ^ 64 - 1) (hs : r.w1c = 0) (old v : Word) : codeWrite r old v = v := by
  apply BitVec.eq_of_getLsbD_eq
  intro i hi
  have e : (2 ^ 64 - 1).testBit i = true := by rw [Nat.testBit_two_pow_sub_one, decide_eq_true hi]
  rw [codeWrite_bit r old v i hi, h, hs, Nat.testBit_or, Nat.testBit_or, e]
  cases v.getLsbD i <;> simp

/-- The windows that respond in every state, in a device that can be reached. -/
theorem State.windowOpen_awake {s : State} (h : s.awake = true) (a : Nat) (ha : alwaysWindow a = true := by decide) :
    s.windowOpen a = true := by
  rw [State.windowOpen, ha, h]
  rfl

end Sys2Proof.Machine

namespace Sys2Proof

open Sys2Proof.Machine

/-! ### Scratch (R24) -/

/-- The row of GLB_SCRATCH. -/
theorem place0_scratch : ∃ r : RegRow, place0 rGLB_SCRATCH = .reg r [] ∧ findReg rGLB_SCRATCH = some (r, []) ∧ r.id = .GLB_SCRATCH ∧
    r.rw = 2 ^ 64 - 1 ∧ r.w1c = 0 :=
  ⟨⟨.GLB_SCRATCH, 0x28, [], 0xffffffffffffffff, 0xffffffffffffffff, 0x0, 0x0, 0x0, 0x0, 0x0, 0x0⟩, by decide +kernel⟩

/-- Settles O11: the row of the register says that software writes all of it, and no chapter gives it another rule. -/
theorem scratchHoldsWhatIsWritten : Obligations.ScratchHoldsWhatIsWritten := by
  intro p v env s awake hb
  obtain ⟨r, hplace, hfind, hid, hrw, hw1c⟩ := place0_scratch
  have hread : ∀ a, ((s.dropStaged p rGLB_SCRATCH).wr rGLB_SCRATCH v).rd a = if a = rGLB_SCRATCH then v else s.rd a := fun a => by
    rw [State.rd_wr]
    rfl
  refine ⟨?write, hread, ?view⟩
  case write =>
    rw [exec_registerWrite_bar0 awake hb (by decide), State.write0_reg hplace (State.windowOpen_awake awake _)]
    simp only [State.regEffect, State.regStream, State.regTrg, State.regSto, State.regAve, hid, inRange, regRanges, List.foldl_nil,
      State.wrCodes, hfind, codeWrite_allRw hrw hw1c]
  case view =>
    have hawake : ((s.dropStaged p rGLB_SCRATCH).wr rGLB_SCRATCH v).awake = true := by
      simpa (disch := decide) [State.awake, State.glb] using awake
    simp [State.view0, State.windowOpen_awake hawake rGLB_SCRATCH, hplace, State.regView, hid]

/-! ### Reserved and misaligned accesses (R427) -/

/-- What counting a reserved access does: one more in the counter, which saturates, and nothing else but its event. -/
theorem rsvd_counts {s : State} (awake : s.awake = true) (w : Bool) (f : Fld)
    (hf : f = if w then fGLB_HIF_ACCESS_RSVD_WR else fGLB_HIF_ACCESS_RSVD_RD) :
    (s.rsvd w).fld rGLB_HIF_ACCESS f = satN 16 (s.fld rGLB_HIF_ACCESS f + 1) ∧ regsKept [rGLB_HIF_ACCESS] [997] s (s.rsvd w) := by
  have hr : s.rsvd w = (s.addSat rGLB_HIF_ACCESS f 1).raiseLim 1000000 997 := by
    simp [State.rsvd, awake, hf]
  rw [hr]
  constructor
  · cases w <;> subst hf <;> simp (disch := decide) <;> rfl
  · exact regsKept.raiseLim _ _ _ _ _ (by simp) (regsKept.addSat _ _ (by simp) (regsKept.refl _ _ _))

/-- Settles O12: a read and a write are counted by `State.rsvd`; a narrow read goes past it. -/
theorem reservedAccessCounts : Obligations.ReservedAccessCounts := by
  intro p a sz s awake
  refine ⟨fun h => ?read, fun h hb => ?write, fun h hn => ?narrow⟩
  case read =>
    have e : exec (.reservedAddressAccess p .bar0 a sz false) s = .next ((s.rsvd false).onReadData fun _ => 0) := by
      refine congrArg Host.Outcome.next ?_
      simp only [State.anyRead, awake, Bool.not_true, Bool.false_eq_true, if_false, h, if_true]
    obtain ⟨hcount, hkept⟩ := rsvd_counts awake false _ rfl
    exact ⟨_, e, rfl, hcount, regsKept.of_regs rfl hkept⟩
  case write =>
    have e : exec (.reservedAddressAccess p .bar0 a sz true) s = .next (s.rsvd true) := by
      refine congrArg Host.Outcome.next ?_
      simp only [if_true, State.anyDrop, awake, Bool.not_true, Bool.false_eq_true, if_false, h, State.pathWrite, hb]
    exact ⟨_, e, rsvd_counts awake true _ rfl⟩
  case narrow =>
    refine congrArg Host.Outcome.next ?_
    simp only [State.anyRead, awake, Bool.not_true, Bool.false_eq_true, if_false, h, hn, if_true]
    rfl

/-! ### The device ID (R5, R24) -/

/-- The row of GLB_DEVID. -/
theorem findReg_devid : ∃ r : RegRow, findReg rGLB_DEVID = some (r, []) ∧ fGLB_DEVID_DEVID.inside (r.rw ||| r.rwc ||| r.rwl) = true ∧
    fGLB_DEVID_DEVID.outside r.w1c = true ∧ r.w1s.testBit 63 = true ∧ r.w1c = 0 ∧ (r.rw ||| r.rwc ||| r.rwl).testBit 63 = false :=
  ⟨⟨.GLB_DEVID, 0x10, [], 0x800000000000ffff, 0x0, 0x0, 0x0, 0x8000000000000000, 0x0, 0xffff, 0x0⟩, by decide +kernel⟩

/-- What a write of GLB_DEVID by its codes leaves: DEVID as written, and LOCK set where it was or where the write sets it. -/
theorem devid_wrCodes (s : State) (v : Word) :
    (s.wrCodes rGLB_DEVID v []).fld rGLB_DEVID fGLB_DEVID_DEVID = fget v fGLB_DEVID_DEVID ∧
    (s.wrCodes rGLB_DEVID v []).flag rGLB_DEVID fGLB_DEVID_LOCK = (s.flag rGLB_DEVID fGLB_DEVID_LOCK || fget v fGLB_DEVID_LOCK != 0) := by
  obtain ⟨r, hfind, hin, hout, hs, hc, hw⟩ := findReg_devid
  have hrd : (s.wrCodes rGLB_DEVID v []).rd rGLB_DEVID = codeWrite r (s.rd rGLB_DEVID) v := by
    rw [State.rd_wrCodes s hfind, if_pos rfl]
  constructor
  · rw [State.fld, hrd, fget_codeWrite_rw r _ v _ (by decide) hin hout]
  · rw [State.flag, State.flag, State.fld, State.fld, hrd, fget_one _ _ rfl, fget_one _ _ rfl, fget_one _ _ rfl,
      codeWrite_bit r _ v _ (by decide), hs, hw, hc]
    cases (s.rd rGLB_DEVID).getLsbD fGLB_DEVID_LOCK.lo <;> cases v.getLsbD fGLB_DEVID_LOCK.lo <;> rfl

/-- A write of GLB_DEVID changes that register and the staging of its path, and nothing else. -/
theorem onlyIn_wrDevid (s : State) (v : Word) :
    onlyIn (mRegs ||| mGlb ||| mStaged) [rGLB_DEVID] [] s (State.wrDevid v (s.dropStaged .host rGLB_DEVID)) := by
  unfold State.wrDevid
  exact .wrCodes (.dropStaged (.refl _ _ _ _))

/-- A host write of GLB_DEVID while the device can be reached. -/
theorem hostWr_devid {s : State} (awake : s.awake = true) (v : Word) :
    s.hostWr .GLB_DEVID 0 rGLB_DEVID State.wrDevid v = State.wrDevid v (s.dropStaged .host rGLB_DEVID) := by
  rw [State.hostWr_open (State.windowOpen_awake awake _)]
  rfl

/-- Settles O14, a clause per command and lock; what the write leaves is `devid_wrCodes`. -/
theorem devidLocks : Obligations.DevidLocks := by
  refine ⟨fun v s awake hl hp => ?free, fun v s awake hl => ?locked, fun v s awake hl hp => ?lock⟩
  case free =>
    have e : State.wrDevid v (s.dropStaged .host rGLB_DEVID) = (s.dropStaged .host rGLB_DEVID).wrCodes rGLB_DEVID v [] := by
      simp [State.wrDevid, State.flag, State.planActive] at hl hp ⊢
      simp [hl, hp]
    obtain ⟨hd, hk⟩ := devid_wrCodes (s.dropStaged .host rGLB_DEVID) v
    refine ⟨_, congrArg Host.Outcome.next (hostWr_devid awake v), ?_, ?_, onlyIn_wrDevid s v⟩
    · rw [e, hd]
    · rw [e, hk, show (s.dropStaged .host rGLB_DEVID).flag rGLB_DEVID fGLB_DEVID_LOCK = false from hl, Bool.false_or]
  case locked =>
    have e : State.wrDevid v (s.dropStaged .host rGLB_DEVID) = (s.dropStaged .host rGLB_DEVID).wrCodes rGLB_DEVID
        (fset v fGLB_DEVID_DEVID (s.fld rGLB_DEVID fGLB_DEVID_DEVID)) [] := by
      rw [State.wrDevid, show (s.dropStaged .host rGLB_DEVID).flag rGLB_DEVID fGLB_DEVID_LOCK = true from hl]
      rfl
    obtain ⟨hd, hk⟩ := devid_wrCodes (s.dropStaged .host rGLB_DEVID) (fset v fGLB_DEVID_DEVID (s.fld rGLB_DEVID fGLB_DEVID_DEVID))
    refine ⟨_, congrArg Host.Outcome.next (hostWr_devid awake v), ?_, ?_, onlyIn_wrDevid s v⟩
    · rw [e, hd, fget_fset_self _ _ _ (by decide), State.fld_mod]
    · rw [e, hk, show (s.dropStaged .host rGLB_DEVID).flag rGLB_DEVID fGLB_DEVID_LOCK = true from hl, Bool.true_or]
  case lock =>
    have e : State.wrDevid (fset v fGLB_DEVID_LOCK 1) (s.dropStaged .host rGLB_DEVID) =
        (s.dropStaged .host rGLB_DEVID).wrCodes rGLB_DEVID (fset v fGLB_DEVID_LOCK 1) [] := by
      simp [State.wrDevid, State.flag, State.planActive] at hl hp ⊢
      simp [hl, hp]
    obtain ⟨hd, hk⟩ := devid_wrCodes (s.dropStaged .host rGLB_DEVID) (fset v fGLB_DEVID_LOCK 1)
    refine ⟨_, congrArg Host.Outcome.next (hostWr_devid awake _), ?_, ?_, onlyIn_wrDevid s _⟩
    · rw [e, hd, fget_fset_apart _ _ _ _ (by decide)]
    · rw [e, hk, fget_fset_self _ _ _ (by decide)]
      simp

end Sys2Proof
end

section
/-! SUPPORT. Datapath restarts, from their beginning to READY or HALTED (R25, R534 to R538). -/

set_option Elab.async false

namespace Sys2Proof

open Sys2Proof.Machine

/-! ### What the steps of a restart leave in `rst` and in STATE -/

/-- A restart begins: STATE is 4 and `rst` holds its cause, its time and what it is to serve. -/
theorem dpBegin_rst_glb (s : State) (cause : Nat) (auto : Bool) (failed : List Nat) (patch : Bool) :
    (s.dpBegin cause auto failed patch).glb = 4 ∧
    ∀ autos, autos = (s.rst.autos.filter fun x => s.time < x + s.secTicks 60) ++ (if auto then [s.time] else []) →
      (s.dpBegin cause auto failed patch).rst = ⟨cause, s.time, 0, autos, failed, auto && 4 ≤ autos.length, patch, false⟩ := by
  unfold State.dpBegin
  dsimp only
  generalize hb : ((((s.setFlds rGLB_STATUS [(fGLB_STATUS_STATE, 4), (fGLB_STATUS_HALT_CAUSE, 0)]).setFld rEVT_RESTART
    fEVT_RESTART_LAST_CAUSE cause).addSat rEVT_RESTART fEVT_RESTART_COUNT 1).onRst _) = b
  have k : Touches (mEvent ||| mAct ||| mCtxs ||| mBillets ||| mPlan ||| mCnv ||| mCal ||| mDdc ||| mXfm ||| mTq ||| mBus ||| mDecs |||
      mNet ||| mAve) b
      ((upTo 4).foldl (fun t n => t.xfmCancel n 3) ((upTo 20).foldl (fun t u => t.ddcCancel u 3) (b.planRestart.calAbortIf 10))).trgRestart :=
    .andThen (.overList (.overList (.andThen (.andThen (.refl _ _) (touches_State.planRestart _)) (touches_State.calAbortIf _ _))
      fun t u => touches_State.ddcCancel t u 3) fun t n => touches_State.xfmCancel t n 3) (touches_State.trgRestart _)
  constructor
  · rw [k.glbState, ← hb]
    simp (disch := decide) [State.glb]
  · rintro autos rfl
    rw [k.rst (by decide), ← hb]
    cases auto <;> simp

/-- A restart that fails is HALTED with RESTART_FAIL. -/
theorem dpFail_halts (s : State) : s.dpFail.glb = 5 ∧ s.dpFail.fld rGLB_STATUS fGLB_STATUS_HALT_CAUSE = 4 ∧ s.dpFail.rst = s.rst ∧
    s.dpFail.time = s.time :=
  have k := touches_State.dpFail s
  ⟨by simp (disch := decide) [State.dpFail, State.glb, State.haltWith], by simp (disch := decide) [State.dpFail, State.haltWith],
    k.rst (by decide), k.time (by decide)⟩

theorem dpFaults_rst {s : State} (hg : s.glb = 4) (hp : s.rst.phase = 0) : s.dpFaults.rst = { s.rst with phase := 1 } := by
  unfold State.dpFaults
  rw [if_neg (by simp [hg, hp])]
  dsimp only
  generalize hx : List.map _ (List.filter _ _) = xs
  rw [(touches_State.faultsEvent _ _ _).rst (by decide)]
  refine congrArg (fun r : Rst => { r with phase := 1 }) (Touches.rst (m := mEvent ||| mTime ||| mFreeCtr ||| mStore ||| mCtxs ||| mBillets |||
    mPorts ||| mAside ||| mBadLines ||| mTdc ||| mDdc ||| mXfm ||| mStreams ||| mDet ||| mDen ||| mAu ||| mCmp) ?_ (by decide))
  refine .overList (m' := mEvent ||| mFreeCtr ||| mStore ||| mCtxs ||| mBillets ||| mBadLines ||| mTdc ||| mStreams) (.overList (.andThen
    (.overList (.andThen (.refl _ _) (touches_State.dpAt _ _)) touches_State.auAnchor) (touches_State.drainPorts _)) touches_State.unitDiscard)
    fun t x => ?_
  exact .andThen (.andThen (.andThen (.andThen (.refl _ _) (touches_State.streamDrop _ _)) (touches_State.stampsDrop _ _))
    (touches_State.fault _ _ _ _ _ _ _)) (touches_State.updCtx _ _ _)

theorem dpReset_rst {s : State} (hg : s.glb = 4) (hp : s.rst.phase = 1) : s.dpReset.rst = { s.rst with phase := 2 } := by
  unfold State.dpReset
  rw [if_neg (by simp [hg, hp])]
  refine congrArg (fun r : Rst => { r with phase := 2 }) (Touches.rst (m := mEvent ||| mTime ||| mFreeCtr ||| mStore ||| mCtxs ||| mBillets |||
    mPorts ||| mBadLines ||| mTurf ||| mDma ||| mCmp ||| mGlb) ?_ (by decide))
  refine .andThen (.overList (.andThen ?_ (touches_State.tcStop _ _ _)) fun t u => touches_State.jobAbort t u 4) (touches_State.dmaHaltAll _)
  have k : Touches (mEvent ||| mTime ||| mGlb) s ((s.dpAt 2).setFld rSTK_STATUS fSTK_STATUS_STATE 2) :=
    .andThen (.andThen (.refl _ _) (touches_State.dpAt _ _)) (touches_State.setFld _ _ _ _)
  split
  · exact .andThen (.andThen (.andThen (.refl _ _) k) (touches_State.setFld _ _ _ _)) (touches_State.raise _ _ _ _ _)
  · exact .andThen (.refl _ _) k

theorem dpTrained_ok {s : State} (hg : s.glb = 4) (hp : s.rst.phase = 2) (hf : s.rst.failed ≠ []) :
    (s.dpTrained true).rst = { s.rst with failed := [] } ∧ (s.dpTrained true).glb = 4 := by
  unfold State.dpTrained
  rw [if_neg (by simp [hg, hp, hf]), if_neg (by decide)]
  dsimp only
  have k : Touches (mRegs ||| mBadLines ||| mMem) s (s.rst.failed.eraseDups.foldl (fun t ch => t.chTrained ch) s) :=
    .overList (.refl _ _) touches_State.chTrained
  exact ⟨congrArg (fun r : Rst => { r with failed := [] }) (k.rst (by decide)), k.glbState.trans hg⟩

theorem dpTrained_failed {s : State} (hg : s.glb = 4) (hp : s.rst.phase = 2) (hf : s.rst.failed ≠ []) : s.dpTrained false = s.dpFail := by
  unfold State.dpTrained
  rw [if_neg (by simp [hg, hp, hf]), if_pos (by decide)]

/-- What follows the step to READY: events, the times of decisions, and the end of a CXL Reset. -/
theorem touches_afterReady (w : State) :
    Touches mEvent w (if ((w.raise 3).trgRelat).rst.cxl then ((w.raise 3).trgRelat).cxlResetDone else (w.raise 3).trgRelat) := by
  have k : Touches mEvent w (w.raise 3).trgRelat := .andThen (touches_State.raise _ _ _ _ _) (touches_State.trgRelat _)
  split
  · exact .andThen k (touches_State.cxlResetDone _)
  · exact k

/-- The units of the plan take new origins with nothing on its way: that leaves frames and replayed records as they are. -/
theorem touches_newOrigins (s : State) (l : List Nat) : Touches (mEvent ||| mFreeCtr ||| mStore ||| mCtxs ||| mBillets ||| mPorts ||| mAside |||
    mBadLines ||| mDdc ||| mXfm ||| mDet ||| mDen ||| mAu ||| mCmp) s (l.foldl (State.unitOrigin 3) s) :=
  .overList (.refl _ _) (touches_State.unitOrigin 3)

/-- The end of a restart that succeeds: READY, and nothing left on its way. -/
theorem dpActivate_ready {s : State} (hg : s.glb = 4) (hp : s.rst.phase = 2) (hf : s.rst.failed = []) (h4 : s.rst.fourth = false) :
    s.dpActivate.glb = 3 ∧ s.dpActivate.frames = [] ∧ s.dpActivate.replay = [] ∧ s.dpActivate.lt = [] ∧ s.dpActivate.fm = [] := by
  unfold State.dpActivate
  rw [if_neg (by simp [hg, hp, hf]), if_neg (by simp [h4])]
  dsimp only
  generalize (((State.activePlan _).map _).getD []) = l
  have ku := touches_newOrigins (((s.onFrames fun _ => []).onReplay fun _ => []).onDecs fun _ => []) l
  generalize List.foldl (State.unitOrigin 3) _ _ = u at ku ⊢
  have hfr : u.frames = [] := ku.frames (by decide)
  have hre : u.replay = [] := ku.replay (by decide)
  generalize hw : (State.setFld _ rEVT_RESTART fEVT_RESTART_LAST_MS _) = w
  have kw := touches_afterReady w
  rw [kw.glbState, kw.frames (by decide), kw.replay (by decide), kw.lt (by decide), kw.fm (by decide), ← hw]
  simp (disch := decide) [State.glb, hfr, hre]

/-- A write of DP_RESTART in READY begins a restart for cause SOFTWARE. -/
theorem wrGlbCtrl_ready {s : State} (h : s.ready = true) {v : Word} (hv : fget v fGLB_CTRL_DP_RESTART = 1) :
    s.wrGlbCtrl v = s.dpBegin dpSoftware false [] false := by
  simp [State.wrGlbCtrl, State.dpAllowed, h, hv]

/-- Settles O15, a clause per step of the restart. -/
theorem datapathRestart : Obligations.DatapathRestart := by
  refine ⟨fun v s h => ?begin, fun s hg hp => ?faults, fun s hg hp => ?reset, fun s hg hp hf => ?trained, fun s hg hp hf => ?failed,
    fun s hg => ?timeout, fun s hg hp hf h4 => ?activate⟩
  case begin =>
    have e : exec (.dpRestart v) s = .next ((s.dropStaged .host rGLB_CTRL).dpBegin dpSoftware false [] false) := by
      refine congrArg Host.Outcome.next ?_
      rw [State.hostWr_ready h]
      exact wrGlbCtrl_ready (s := s.dropStaged .host rGLB_CTRL) h (fget_fset_self _ _ _ (by decide))
    obtain ⟨hglb, hrst⟩ := dpBegin_rst_glb (s.dropStaged .host rGLB_CTRL) dpSoftware false [] false
    exact ⟨_, e, hglb, (hrst _ rfl).trans (by simp; rfl)⟩
  case faults => exact ⟨_, rfl, dpFaults_rst hg hp, (touches_State.dpFaults s).glbState.trans hg⟩
  case reset => exact ⟨_, rfl, dpReset_rst hg hp, (touches_State.dpReset s).glbState.trans hg⟩
  case trained => exact ⟨_, rfl, dpTrained_ok hg hp hf⟩
  case failed =>
    obtain ⟨hglb, hcause, hrst, -⟩ := dpFail_halts s
    exact ⟨_, congrArg Host.Outcome.next (dpTrained_failed hg hp hf), hglb, hcause, hrst⟩
  case timeout =>
    obtain ⟨hglb, hcause, hrst, htime⟩ := dpFail_halts (s.dpAt 250)
    have e : exec .restartTimeout s = .next (s.dpAt 250).dpFail := congrArg Host.Outcome.next (if_neg (by simp [hg]))
    exact ⟨_, e, hglb, hcause, hrst.trans ((touches_State.dpAt s 250).rst (by decide)), htime ▸ State.time_le_reach s _⟩
  case activate =>
    obtain ⟨hglb, hfr, hre, hlt, hfm⟩ := dpActivate_ready hg hp hf h4
    exact ⟨_, rfl, hglb, hfr, hre, hlt, hfm, (touches_State.dpActivate s).rst (by decide)⟩

end Sys2Proof
end

section
/-! SUPPORT. Clock synthesis: holdover, re-lock, SYNCIN and the link synthesizer (R43 to R58). -/

set_option Elab.async false

namespace Sys2Proof

open Sys2Proof.Machine

/-- What reaches the device outside reset answers with its effect. -/
theorem next_live {s t : State} {f : State → State} (h : s.glb ≠ 0) (e : f s = t) : (.next (s.live f) : Res) = .next t :=
  congrArg Host.Outcome.next ((State.live_up h f).trans e)

/-- A host write in READY answers with the effect its chapter gives. -/
theorem next_hostWr {s t : State} {id : RegId} {i a : Nat} {f : Word → State → State} {v : Word} (h : s.ready = true)
    (e : f (inRange id i (s.rd a) v) (s.dropStaged .host a) = t) : (.next (s.hostWr id i a f v) : Res) = .next t :=
  congrArg Host.Outcome.next ((State.hostWr_ready h id i a f v).trans e)

/-! ### Holdover (R43, R47, R48, R50) -/

/-- The MPLL enters holdover: what its registers say, and that nothing else changes. -/
theorem enterHoldover_effect (s : State) (i : Int) :
    (s.enterHoldover i).mpll = 3 ∧ (s.enterHoldover i).refOk = s.refOk ∧
    (s.enterHoldover i).flag rCLK_STATUS fCLK_STATUS_SYNCED = false ∧
    (s.enterHoldover i).flag rGLB_STATUS fGLB_STATUS_HOLDOVER = true ∧
    (s.enterHoldover i).flag rGLB_STATUS fGLB_STATUS_MPLL_LOCK = false ∧
    (s.enterHoldover i).clk.frozen = s.clk.gate.getD i ∧
    onlyIn (mEvent ||| mClk ||| mGlb) [rCLK_STATUS, rGLB_STATUS, rCLK_HO_ERR] [32] s (s.enterHoldover i) := by
  refine ⟨?_, ?_, ?_, ?_, ?_, ?_, ?only⟩
  case only =>
    unfold State.enterHoldover
    exact .raise (.other (.wr (.setFlds (.addSat (.setFlds (.refl _ _ _ _))))) (touches_State.updClk _ _))
  all_goals simp (disch := decide) [State.enterHoldover, State.mpll, State.refOk, State.flag]

/-- The loss of a good reference, up to what it does in LOCKED. -/
theorem refLoss_eq {s : State} (hr : s.refOk = true) (i : Int) (b : State)
    (hb : b = ((s.setFld rCLK_STATUS fCLK_STATUS_REF_OK 0).updClk fun c => { c with gateBad := true, refMs := false }).raise 33) :
    s.refLoss i = if s.mpll = 2 then b.enterHoldover i else b := by
  have hm : b.mpll = s.mpll := by
    rw [hb]
    simp (disch := decide) [State.mpll]
  simp only [State.refLoss, hr, Bool.not_true, Bool.false_eq_true, if_false]
  rw [← hb, hm]

/-- The lock that ends a holdover, before its event. -/
def holdoverLocked (s : State) : State :=
  ((s.flagOpen.setFlds rCLK_STATUS [(fCLK_STATUS_MPLL_STATE, 2), (fCLK_STATUS_HO_GAP, 0)]).setFlds rGLB_STATUS
    [(fGLB_STATUS_HOLDOVER, 0), (fGLB_STATUS_MPLL_LOCK, 1)]).updClk fun c => { c with gate := none, gateBad := false }

theorem mpllLocked_holdover {s : State} (hr : s.refOk = true) (hst : s.clk.stage = .idle) (hm : s.mpll = 3) :
    s.mpllLocked = (holdoverLocked s).raise 36 := by
  simp [State.mpllLocked, hr, hst, hm, holdoverLocked]

/-- Marking what is open writes no register. -/
theorem flagOpen_regs (s : State) : s.flagOpen.regs = s.regs := (touches_State.flagOpen s).regs (by decide)

/-- Settles O16, a clause per command; what holdover does is `enterHoldover_effect`. -/
theorem holdoverEntryAndExit : Obligations.HoldoverEntryAndExit := by
  refine ⟨fun i s hg hr hm => ?loss, fun i s hg hr hm => ?lossLocked, fun s hg hr => ?restored, fun i s hg hm => ?lol,
    fun s hg hr hst hm => ?lock, fun e s hg hm hb hr => ?gate⟩
  case loss => exact next_live hg ((refLoss_eq hr i _ rfl).trans (if_neg hm))
  case lossLocked =>
    have e := refLoss_eq hr i _ rfl
    rw [if_pos hm] at e
    generalize hb : (State.raise _ 33) = b at e
    obtain ⟨hmpll, href, -, hho, hlock, -, honly⟩ := enterHoldover_effect b i
    have kb : onlyIn (mEvent ||| mClk ||| mGlb) [rCLK_STATUS, rGLB_STATUS, rCLK_HO_ERR] [32, 33] s b := by
      rw [← hb]
      exact .raise (.other (.setFld (.refl _ _ _ _)) (touches_State.updClk _ _))
    refine ⟨_, next_live hg e, ?_, hmpll, hho, hlock, kb.andThen honly⟩
    rw [href, ← hb]
    simp (disch := decide) [State.refOk, State.flag]
  case restored =>
    refine next_live hg ?_
    simp [State.refRestored, hr]
  case lol =>
    obtain ⟨hmpll, -, hsync, hho, -, hfrozen, honly⟩ := enterHoldover_effect s i
    exact ⟨_, next_live hg (if_pos hm), hmpll, hsync, hho, hfrozen, honly⟩
  case lock =>
    refine ⟨_, next_live hg (mpllLocked_holdover hr hst hm), ?_, ?_, ?_, ?_, ?only⟩
    case only => exact .raise (.other (.setFlds (.setFlds (.other (.refl _ _ _ _) (touches_State.flagOpen _) (e := flagOpen_regs s))))
      (touches_State.updClk _ _))
    all_goals simp (disch := decide) [holdoverLocked, State.mpll, State.flag]
  case gate =>
    refine next_live hg ?_
    simp [State.freqGate, hm, hb, hr, State.updClk]

end Sys2Proof
end

section
/-! SUPPORT. Clock synthesis: re-lock, SYNCIN and the link synthesizer (R48, R52 to R58). -/

set_option Elab.async false

namespace Sys2Proof

open Sys2Proof.Machine

/-- A write of CLK_CMD with RETUNE in READY. -/
theorem exec_retune {s : State} (h : s.ready = true) (v : Word) : exec (.retune v) s = .next (s.dropStaged .host rCLK_CMD).retune :=
  next_hostWr h (if_pos (fget_fset_self _ _ _ (by decide)))

theorem retune_badState {s : State} (hm : s.mpll ≠ 2) : s.retune = s.setFld rCLK_CMD fCLK_CMD_RESULT 4 :=
  if_pos (bne_iff_ne.mpr hm)

theorem retune_badWord {s : State} (hm : s.mpll = 2) (hw : s.wordOk s.mpllWord = false) :
    s.retune = s.setFld rCLK_CMD fCLK_CMD_RESULT 3 := by
  rw [State.retune, if_neg (fun e => bne_iff_ne.mp e hm), if_pos (by rw [hw]; rfl)]
  rfl

/-- A re-lock that is taken up: what it leaves of the clock machinery. -/
theorem retune_clk {s : State} (hm : s.mpll = 2) (hw : s.wordOk s.mpllWord = true) :
    s.retune.clk = { s.clk with prev := s.clk.word, target := s.mpllWord, stage := .toNew,
                                outs := s.clk.outs.map fun o => { o with phase := max o.phase o.high } } := by
  simp only [State.retune, hm, hw, bne_self_eq_false, Bool.false_eq_true, if_false, Bool.not_true]
  rw [(touches_State.servoDividerHold _).clk (by decide), State.outsLow, State.updClk_clk, (touches_State.pgHold _).clk (by decide),
    (touches_State.bgRelockStart _).clk (by decide), (touches_State.calAbortIf _ _).clk (by decide),
    (touches_State.planAbort _ _).clk (by decide)]
  simp [State.clkResult]

/-- What follows the release of the dividers leaves the clock machinery alone. -/
theorem settleDone_clk (s : State) (fs : Nat) (h : s.clk.stage = .settleNew) :
    (s.settleDone fs).clk.stage = .idle ∧ (s.settleDone fs).clk.word = s.clk.target ∧ (s.settleDone fs).clk.gate = none := by
  unfold State.settleDone
  dsimp only
  split
  case h_1 _ =>
    generalize ha : State.outsZero _ = a
    have hclk : a.clk.stage = .idle ∧ a.clk.word = s.clk.target ∧ a.clk.gate = none := by
      rw [← ha, State.outsZero, State.updClk_clk, (touches_State.dividerRelease _ _).clk (by decide)]
      simp
    generalize hb : State.drainPorts _ = b
    have kb : Touches (mEvent ||| mFreeCtr ||| mStore ||| mCtxs ||| mBillets ||| mPorts ||| mAside ||| mBadLines ||| mCnv ||| mPg ||| mDdc |||
        mXfm ||| mDet ||| mDen ||| mTq ||| mBus ||| mDecs ||| mAu ||| mNet ||| mAve ||| mCmp) a b := by
      rw [← hb]
      exact .andThen (.overList (.andThen (.andThen (.andThen (.refl _ _) (touches_State.pgRelease _)) (touches_State.bgRelockEnd _))
        (touches_State.trgRestart _)) (touches_State.unitOrigin 4)) (touches_State.drainPorts _)
    generalize hc : List.foldl _ b _ = c
    have kc : c.clk = b.clk := by
      rw [← hc]
      exact (Touches.overList (m := mEvent ||| mFreeCtr ||| mStore ||| mCtxs ||| mBillets ||| mPorts ||| mAside ||| mBadLines ||| mTdc |||
        mDdc ||| mXfm ||| mStreams ||| mDet ||| mDen ||| mAu ||| mCmp) (.refl _ b) fun t x => touches_State.recoverPath t x 3 36 2 0 none).clk
        (by decide)
    rw [(touches_State.admRetest _).clk (by decide)]
    split
    · rw [State.raise_clk, kc, kb.clk (by decide)]
      exact hclk
    · rw [(touches_State.faultsEvent _ _ _).clk (by decide), kc, kb.clk (by decide)]
      exact hclk
  all_goals simp_all

/-- ARM of CLK_SYNC with no plan and no fraction. -/
theorem exec_syncArm {s : State} (h : s.ready = true) (hp : s.planActive = false) (hf : s.fld rCLK_MPLL fCLK_MPLL_FRAC = 0) (v : Word) :
    exec (.syncArm v) s = .next (((s.dropStaged .host rCLK_SYNC).wrCodes rCLK_SYNC (fset v fCLK_SYNC_ARM 1) [fCLK_SYNC_ARM]).setFld
      rCLK_SYNC fCLK_SYNC_ARM 1) := by
  refine next_hostWr h ?_
  have hr : inRange .CLK_SYNC 0 (s.rd rCLK_SYNC) (fset v fCLK_SYNC_ARM 1) = fset v fCLK_SYNC_ARM 1 := rfl
  unfold State.wrClkSync
  rw [hr]
  have ha : fget (fset v fCLK_SYNC_ARM 1) fCLK_SYNC_ARM = 1 := fget_fset_self _ _ _ (by decide)
  rw [if_neg (fun e => absurd (ha.symm.trans e) (by decide)), if_neg]
  simp only [State.planActive, State.flag, State.fld_dropStaged] at hp ⊢
  simp [hp, hf]

/-- A millisecond of holdover counts, estimates the error, and raises 35 where the gap begins. -/
theorem holdoverUpdate_eq {s : State} (hm : s.mpll = 3) (ppb : Nat) : ∃ (err : Nat) (gap ring : Bool), s.holdoverUpdate ppb =
    if ring then ((((((s.addSat rCLK_HO_ERR fCLK_HO_ERR_ELAPSED 1).onFreeCtr fun _ => s.freeCtr + 1).setFld rCLK_HO_ERR fCLK_HO_ERR_PPB
        (satN 32 err)).updClk fun c => { c with refMs := s.refOk }).setFld rCLK_STATUS fCLK_STATUS_HO_GAP (b2n gap)).raise 35)
      else (((((s.addSat rCLK_HO_ERR fCLK_HO_ERR_ELAPSED 1).onFreeCtr fun _ => s.freeCtr + 1).setFld rCLK_HO_ERR fCLK_HO_ERR_PPB
        (satN 32 err)).updClk fun c => { c with refMs := s.refOk }).setFld rCLK_STATUS fCLK_STATUS_HO_GAP (b2n gap)) := by
  simp only [State.holdoverUpdate, hm, bne_self_eq_false, Bool.false_eq_true, if_false, State.fresh]
  exact ⟨_, _, _, rfl⟩

/-- A millisecond of holdover: the count, and that nothing else changes. -/
theorem holdoverUpdate_effect {s : State} (hm : s.mpll = 3) (ppb : Nat) :
    (s.holdoverUpdate ppb).fld rCLK_HO_ERR fCLK_HO_ERR_ELAPSED = satN 32 (s.fld rCLK_HO_ERR fCLK_HO_ERR_ELAPSED + 1) ∧
    onlyIn (mEvent ||| mFreeCtr ||| mClk) [rCLK_STATUS, rCLK_HO_ERR] [35] s (s.holdoverUpdate ppb) := by
  obtain ⟨err, gap, ring, e⟩ := holdoverUpdate_eq hm ppb
  rw [e]
  constructor
  · split
    · simp (disch := decide)
    · simp (disch := decide)
  · refine .of_hi (.ite (.raise ?_) ?_) (by decide)
    all_goals
      exact .setFld (.other (.setFld (.other (.addSat (.refl _ _ _ _)) (touches_State.onFreeCtr _ _))) (touches_State.updClk _ _))

/-- Settles O17, a clause per command and stage. -/
theorem relockAndSync : Obligations.RelockAndSync := by
  refine ⟨fun v s h hm hw => ?taken, fun v s h hm => ?badState, fun v s h hm hw => ?badWord, fun fs s hg hst => ?settled,
    fun s hg hst => ?toOld, fun s hg hst => ?held, fun s hg hst hr => ?retry, fun v s h hp hf => ?arm, fun same s hg ha hm => ?edge,
    fun s hg hh => ?lpllHold, fun s hg hh => ?lpllLock, fun ppb s hg hm => ?millisecond⟩
  case taken =>
    exact ⟨_, exec_retune h v, retune_clk (s := s.dropStaged .host rCLK_CMD) hm hw, (touches_execRetune v s).touches (exec_retune h v)⟩
  case badState => exact (exec_retune h v).trans (congrArg _ (retune_badState (s := s.dropStaged .host rCLK_CMD) hm))
  case badWord => exact (exec_retune h v).trans (congrArg _ (retune_badWord (s := s.dropStaged .host rCLK_CMD) hm hw))
  case settled => exact ⟨_, congrArg Host.Outcome.next (State.live_up hg _), settleDone_clk s fs hst⟩
  case toOld => exact next_live hg (by simp [State.retuneTimeout, hst, State.clkResult])
  case held => exact next_live hg (by simp [State.retuneTimeout, hst, State.clkResult])
  case retry => exact next_live hg (by simp [State.heldRetry, hst, hr, State.updClk])
  case arm =>
    refine ⟨_, exec_syncArm h hp hf v, ?_, .of_hi (.setFld (.wrCodes (.dropStaged (.refl _ _ _ _)))) (by decide)⟩
    simp (disch := decide) [State.flag]
  case edge =>
    refine ⟨_, next_live (t := (((s.setFld rCLK_SYNC fCLK_SYNC_ARM 0).setFld rCLK_STATUS fCLK_STATUS_SYNCED 1).outsZero).raise 40) hg
      (by simp [State.syncinEdge, ha, hm]), ?_, ?_,
      .of_hi (.raise (.other (.setFld (.setFld (.refl _ _ _ _))) (touches_State.outsZero _))) (by decide)⟩
    · simp (disch := decide) [State.flag, State.outsZero]
    · simp (disch := decide) [State.flag, State.outsZero]
  case lpllHold =>
    refine ⟨_, next_live hg (if_neg (by simp [hh])), ?_, ?_, ?_, .raise (.setFld (.setFlds (.refl _ _ _ _)))⟩
    all_goals simp (disch := decide) [State.flag]
  case lpllLock =>
    refine ⟨_, next_live hg (if_pos hh), ?_, ?_, ?_, .raise (.setFld (.setFlds (.refl _ _ _ _)))⟩
    all_goals simp (disch := decide) [State.flag]
  case millisecond => exact ⟨_, congrArg Host.Outcome.next (State.live_up hg _), holdoverUpdate_effect hm ppb⟩

end Sys2Proof
end

section
/-! SUPPORT. What a register write by access codes leaves in each field (R5, Table 0-1), and the values in force behind shadowed
registers. -/

set_option Elab.async false

namespace Sys2Proof

/-- Do the fields `f` and `g` share no bit of a word? -/
def Fld.apart (f g : Fld) : Bool := decide (f.lo + f.w ≤ 64 ∧ (g.lo + g.w ≤ f.lo ∨ f.lo + f.w ≤ g.lo))

end Sys2Proof

namespace Sys2Proof.Machine

/-- Does software write the field `f` of the register at `a`? -/
def rwField (a : Nat) (f : Fld) : Bool :=
  match findReg a with
  | some (r, _) => decide (f.lo + f.w ≤ 64) && f.inside (r.rw ||| r.rwc ||| r.rwl) && f.outside r.w1c
  | none => false

/-- Does a write leave the field `f` of the register at `a` alone? -/
def roField (a : Nat) (f : Fld) : Bool :=
  match findReg a with
  | some (r, _) => decide (f.lo + f.w ≤ 64) && f.outside (r.rw ||| r.rwc ||| r.rwl) && f.outside r.w1c && f.outside r.w1s
  | none => false

/-- Is the field `f` of the register at `a` one bit that a 1 sets? -/
def w1sField (a : Nat) (f : Fld) : Bool :=
  match findReg a with
  | some (r, _) => decide (f.w = 1) && decide (f.lo < 64) && r.w1s.testBit f.lo && !r.w1c.testBit f.lo &&
      !(r.rw ||| r.rwc ||| r.rwl).testBit f.lo
  | none => false

/-- Is the field `f` of the register at `a` one bit that a 1 clears, and nothing sets? -/
def w1cField (a : Nat) (f : Fld) : Bool :=
  match findReg a with
  | some (r, _) => decide (f.w = 1) && decide (f.lo < 64) && r.w1c.testBit f.lo && !r.w1s.testBit f.lo &&
      !(r.rw ||| r.rwc ||| r.rwl).testBit f.lo
  | none => false

theorem fget_strobes_apart (old : Word) (g : Fld) (l : List Fld) (h : l.all (·.apart g) = true) (w : Word) :
    fget (l.foldl (fun w f => fset w f (fget old f)) w) g = fget w g := by
  induction l generalizing w with
  | nil => rfl
  | cons f l ih =>
    rw [List.all_cons, Bool.and_eq_true] at h
    rw [List.foldl_cons, ih h.2, fget_fset_apart _ _ _ _ (of_decide_eq_true h.1)]

/-- A register after a write by its codes, its strobes taken back out. -/
theorem State.fld_wrCodes (s : State) {a : Nat} {r : RegRow} {ix : List Nat} (h : findReg a = some (r, ix)) (v : Word) (l : List Fld) (f : Fld)
    (hl : l.all (·.apart f) = true) : (s.wrCodes a v l).fld a f = fget (codeWrite r (s.rd a) v) f := by
  unfold State.wrCodes
  rw [h]
  simp only [State.fld_wr_self]
  exact fget_strobes_apart _ f l hl _

theorem State.fld_wrCodes_rw (s : State) {a : Nat} {f : Fld} (h : rwField a f = true) (v : Word) (l : List Fld)
    (hl : l.all (·.apart f) = true := by decide) : (s.wrCodes a v l).fld a f = fget v f := by
  unfold rwField at h
  split at h
  · next r ix e =>
    simp only [Bool.and_eq_true, decide_eq_true_eq] at h
    obtain ⟨⟨h64, hin⟩, hout⟩ := h
    rw [State.fld_wrCodes s e v l f hl, fget_codeWrite_rw r _ v f h64 hin hout]
  · cases h

theorem State.fld_wrCodes_ro (s : State) {a : Nat} {f : Fld} (h : roField a f = true) (v : Word) (l : List Fld)
    (hl : l.all (·.apart f) = true := by decide) : (s.wrCodes a v l).fld a f = s.fld a f := by
  unfold roField at h
  split at h
  · next r ix e =>
    simp only [Bool.and_eq_true, decide_eq_true_eq] at h
    obtain ⟨⟨⟨h64, hput⟩, hc⟩, hs⟩ := h
    rw [State.fld_wrCodes s e v l f hl, fget_codeWrite_ro r _ v f h64 hput hc hs]
    rfl
  · cases h

theorem State.fld_wrCodes_w1s (s : State) {a : Nat} {f : Fld} (h : w1sField a f = true) (v : Word) (l : List Fld) (hv : fget v f = 1)
    (hl : l.all (·.apart f) = true := by decide) : (s.wrCodes a v l).fld a f = 1 := by
  unfold w1sField at h
  split at h
  · next r ix e =>
    simp only [Bool.and_eq_true, decide_eq_true_eq, Bool.not_eq_true'] at h
    obtain ⟨⟨⟨⟨hw, h64⟩, hs⟩, hc⟩, hput⟩ := h
    rw [State.fld_wrCodes s e v l f hl, fget_codeWrite_w1s r _ v f hw h64 hs hc hput hv]
  · cases h

/-- A 1 written clears the bit. -/
theorem State.fld_wrCodes_w1c (s : State) {a : Nat} {f : Fld} (h : w1cField a f = true) (v : Word) (l : List Fld) (hv : fget v f = 1)
    (hl : l.all (·.apart f) = true := by decide) : (s.wrCodes a v l).fld a f = 0 := by
  unfold w1cField at h
  split at h
  · next r ix e =>
    simp only [Bool.and_eq_true, decide_eq_true_eq, Bool.not_eq_true'] at h
    obtain ⟨⟨⟨⟨hw, h64⟩, hc⟩, -⟩, -⟩ := h
    rw [State.fld_wrCodes s e v l f hl, fget_codeWrite_w1c r _ v f hw h64 hc hv]
  · cases h

/-- A 0 written to a bit that a 1 sets leaves it. -/
theorem State.fld_wrCodes_w1s_zero (s : State) {a : Nat} {f : Fld} (h : w1sField a f = true) (v : Word) (l : List Fld) (hv : fget v f = 0)
    (hl : l.all (·.apart f) = true := by decide) : (s.wrCodes a v l).fld a f = s.fld a f := by
  unfold w1sField at h
  split at h
  · next r ix e =>
    simp only [Bool.and_eq_true, decide_eq_true_eq, Bool.not_eq_true'] at h
    obtain ⟨⟨⟨⟨hw, h64⟩, hs⟩, hc⟩, hput⟩ := h
    rw [State.fld_wrCodes s e v l f hl, State.fld, fget_one _ f hw, fget_one _ f hw, codeWrite_bit r _ v _ h64, hput, hc, hs]
    rw [fget_one _ f hw] at hv
    cases e : v.getLsbD f.lo <;> simp [e] at hv ⊢
  · cases h

/-- A 0 written to a bit that a 1 clears leaves it. -/
theorem State.fld_wrCodes_w1c_zero (s : State) {a : Nat} {f : Fld} (h : w1cField a f = true) (v : Word) (l : List Fld) (hv : fget v f = 0)
    (hl : l.all (·.apart f) = true := by decide) : (s.wrCodes a v l).fld a f = s.fld a f := by
  unfold w1cField at h
  split at h
  · next r ix e =>
    simp only [Bool.and_eq_true, decide_eq_true_eq, Bool.not_eq_true'] at h
    obtain ⟨⟨⟨⟨hw, h64⟩, hc⟩, hs⟩, hput⟩ := h
    rw [State.fld_wrCodes s e v l f hl, State.fld, fget_one _ f hw, fget_one _ f hw, codeWrite_bit r _ v _ h64, hput, hc, hs]
    rw [fget_one _ f hw] at hv
    cases e : v.getLsbD f.lo <;> simp [e] at hv ⊢
  · cases h

/-- A strobe that is taken leaves the field as it was. -/
theorem State.fld_wrCodes_strobe (s : State) {a : Nat} {f : Fld} (h : f.lo + f.w ≤ 64) (v : Word) (l m : List Fld)
    (hm : m.all (·.apart f) = true := by decide) : (s.wrCodes a v (l ++ f :: m)).fld a f = s.fld a f := by
  unfold State.wrCodes
  split
  · rfl
  · rw [State.fld_wr_self, List.foldl_append, List.foldl_cons, fget_strobes_apart _ f m hm, fget_fset_self _ _ _ h, fget_mod]
    rfl

/-! ### Values in force -/

@[simp] theorem State.actv_commitReg_same (s : State) (a : Nat) : (s.commitReg a).actv a = s.rd a := SMap.get_set_same _ _ _ _

@[simp] theorem State.actv_commitReg_other (s : State) {a b : Nat} (h : b ≠ a) : (s.commitReg a).actv b = s.actv b :=
  SMap.get_set_other _ _ _ _ h

/-! ### Signed fields -/

theorem fgetS_congr {w x : Word} {f g : Fld} (h : fget w f = fget x g) (hw : f.w = g.w) : fgetS w f = fgetS x g := by
  rw [fgetS, fgetS, h, hw]

/-- A field that holds a number in two's complement reads as that number. -/
theorem fgetS_of_ofSigned {w : Word} {f : Fld} {v : Int} (h : fget w f = ofSigned f.w v % 2 ^ f.w) (hw : 0 < f.w)
    (lo : -2 ^ (f.w - 1) ≤ v) (hi : v < 2 ^ (f.w - 1)) : fgetS w f = v := by
  obtain ⟨k, hk⟩ : ∃ k, f.w = k + 1 := ⟨f.w - 1, by omega⟩
  have hp : (2 : Int) ^ (k + 1) = 2 * 2 ^ k := by ring
  have hpn : (2 : Nat) ^ (k + 1) = 2 * 2 ^ k := by ring
  have hc : ((2 ^ k : Nat) : Int) = 2 ^ k := by norm_num
  have hpos : 0 < (2 : Nat) ^ k := Nat.two_pow_pos k
  rw [fgetS, h, hk]
  simp only [hk, Nat.add_sub_cancel] at lo hi ⊢
  rw [ofSigned, hp, hpn]
  rw [← hc] at lo hi ⊢
  generalize 2 ^ k = m at *
  have hm : (v % (2 * (m : Int))).toNat = if 0 ≤ v then v.toNat else (v + 2 * m).toNat := by
    split
    · next h0 => rw [Int.emod_eq_of_lt h0 (by omega)]
    · next h0 => rw [← Int.add_emod_right, Int.emod_eq_of_lt (by omega) (by omega)]
  rw [hm]
  split
  · next h0 =>
    rw [Nat.mod_eq_of_lt (by omega)]
    split <;> omega
  · next h0 =>
    rw [Nat.mod_eq_of_lt (by omega)]
    split <;> omega

/-! ### The dividers -/

theorem State.clocked_running {s : State} (h : s.held = false) (f : State → State) : s.clocked f = f s := by
  rw [State.clocked, h]
  rfl

theorem State.clocked_held {s : State} (h : s.held = true) (f : State → State) : s.clocked f = s := if_pos h

end Sys2Proof.Machine

namespace Sys2Proof

open Sys2Proof.Machine

/-- A value in force is one of `act`. -/
theorem Touches.actv {m : Nat} {s t : State} (k : Touches m s t) (h : m.testBit 2 = false := by decide) (a : Nat) : t.actv a = s.actv a :=
  congrArg (fun m => SMap.get (resetWord a) m a) (k.act h)

end Sys2Proof
end

section
/-! SUPPORT. The attenuators and the channel correction (R66 to R69, R80). -/

set_option Elab.async false

namespace Sys2Proof

open Sys2Proof.Machine

theorem att_fields (n : Fin 4) : w1sField (rCNV_ATT n) fCNV_ATT_GO = true ∧ rwField (rCNV_ATT n) fCNV_ATT_STEP = true ∧
    rwField (rCNV_CHCORR n) fCNV_CHCORR_GAIN = true ∧ rwField (rCNV_CHCORR n) fCNV_CHCORR_OFFSET = true := by
  revert n
  decide +kernel

/-- The windows behind a changed attenuator begin afresh: no gain changes. -/
theorem attRestart_geff (s : State) (n m : Nat) : ((s.attRestart n).core m).geff = (s.core m).geff := by
  have step : ∀ (t : State) (k : Nat), ((t.windowRestart k).core m).geff = (t.core m).geff := by
    intro t k
    unfold State.windowRestart
    split
    · by_cases hm : m = k
      · subst hm
        simp [State.core]
      · simp [State.core, hm]
    · rfl
  unfold State.attRestart
  split
  · rfl
  · split
    · rw [step, step]
    · exact step s n

theorem onlyIn_windowRestart (s : State) (n : Nat) (h : n < 5) : onlyIn (mRegs ||| mCnv) [rCNV_BG_COUNT n] [] s (s.windowRestart n) := by
  refine .of_hi ?_ (by simp [rCNV_BG_COUNT]; omega)
  unfold State.windowRestart
  exact .ite (.addSat (.other (.refl _ _ _ _) (touches_State.updCore _ _ _))) (.refl _ _ _ _)

theorem onlyIn_attRestart (s : State) (n : Nat) (h : n < 4) :
    onlyIn (mRegs ||| mCnv) [rCNV_BG_COUNT n, rCNV_BG_COUNT (n + 1)] [] s (s.attRestart n) := by
  unfold State.attRestart
  have k := (onlyIn.refl (mRegs ||| mCnv) [rCNV_BG_COUNT n, rCNV_BG_COUNT (n + 1)] [] s).andThen (onlyIn_windowRestart s n (by omega))
  exact .ite (.refl _ _ _ _) (.ite (k.andThen (onlyIn_windowRestart _ (n + 1) (by omega))) k)

/-- The requested step of input `n` in force, with GO cleared and LATE set. -/
def attTaken (s : State) (n : Nat) : State :=
  ((s.reach (s.rd (rCNV_ATT_TIME n)).toNat).commitReg (rCNV_ATT n)).setFlds (rCNV_ATT n) [(fCNV_ATT_GO, 0),
    (fCNV_ATT_LATE, b2n ((s.rd (rCNV_ATT_TIME n)).toNat != 0 && decide ((s.rd (rCNV_ATT_TIME n)).toNat < s.time)))]

/-- The attenuator step of an input that no calibration run drives. -/
theorem attApply_eq {s : State} {n : Nat} (hgo : s.flag (rCNV_ATT n) fCNV_ATT_GO = true)
    (hrun : s.fld rCAL_STATUS fCAL_STATUS_STATE ≠ 1 ∨ s.cal.input ≠ n) :
    s.attApply n = ((attTaken s n).newGeff n).attRestart n := by
  have hr : (decide (s.fld rCAL_STATUS fCAL_STATUS_STATE = 1) && decide (s.cal.input = n)) = false := by
    rcases hrun with hrun | hrun <;> simp [hrun]
  simp [State.attApply, attTaken, hgo, hr]

theorem newGeff_fld (s : State) (n a : Nat) (f : Fld) : (s.newGeff n).fld a f = s.fld a f := rfl

theorem attTaken_attStep (s : State) (n : Nat) : (attTaken s n).attStep n = s.fld (rCNV_ATT n) fCNV_ATT_STEP := by
  have hr : (s.reach (s.rd (rCNV_ATT_TIME n)).toNat).rd (rCNV_ATT n) = s.rd (rCNV_ATT n) :=
    State.rd_congr ((touches_State.reach _ _).regs (by decide)) _
  simp only [State.attStep, State.afld, attTaken, State.actv_setFlds, State.actv_commitReg_same, hr, State.fld]

theorem onlyIn_attTaken (s : State) (n : Nat) :
    onlyIn (mRegs ||| mAct ||| mTime ||| mCnv ||| mGlb) [rCNV_ATT n, rCNV_BG_COUNT n, rCNV_BG_COUNT (n + 1)] [] s (attTaken s n) :=
  .setFlds (.other (.other (.refl _ _ _ _) (touches_State.reach _ _) (e := (touches_State.reach _ _).regs (by decide)))
    (touches_State.commitReg _ _))

theorem attTaken_time (s : State) (n : Nat) : (attTaken s n).time = (s.reach (s.rd (rCNV_ATT_TIME n)).toNat).time := by
  rw [attTaken, State.setFlds_time, (touches_State.commitReg _ _).time (by decide)]

theorem attTaken_flags (s : State) (n : Nat) : (attTaken s n).flag (rCNV_ATT n) fCNV_ATT_GO = false ∧
    (attTaken s n).flag (rCNV_ATT n) fCNV_ATT_LATE = decide ((s.rd (rCNV_ATT_TIME n)).toNat ≠ 0 ∧ (s.rd (rCNV_ATT_TIME n)).toNat < s.time) := by
  generalize hT : (s.rd (rCNV_ATT_TIME n)).toNat = T
  simp (disch := decide) only [attTaken, State.flag, State.fld_setFlds_cons, State.fld_setFlds_nil, State.fld_setFld_self,
    State.fld_setFld_apart, hT]
  constructor
  · decide
  · by_cases h0 : T = 0 <;> by_cases hl : T < s.time <;> simp [b2n, h0, hl]

/-- The gain of the step taken, whose correction stands in registers that the step leaves. -/
theorem attTaken_geffAt (s : State) (n : Fin 4) (st : Nat) (h : st < 32) : (attTaken s n).geffAt n st = s.geffAt n st := by
  unfold State.geffAt State.fld
  rw [(onlyIn_attTaken s n).2 (rCNV_CHCORR n) (by simp [rCNV_ATT, rCNV_BG_COUNT, rCNV_CHCORR]; omega) (by simp),
    (onlyIn_attTaken s n).2 (rCNV_ATTCAL n st) (by simp [rCNV_ATT, rCNV_BG_COUNT, rCNV_ATTCAL]; omega) (by simp)]

/-- The step asked for is applied: the flags, the step and the gain in force, the time, and that nothing else changes. -/
theorem attApply_effect {n : Fin 4} {s : State} (hg : s.glb ≠ 0) (hh : s.held = false) (hgo : s.flag (rCNV_ATT n) fCNV_ATT_GO = true)
    (hrun : s.fld rCAL_STATUS fCAL_STATUS_STATE ≠ 1 ∨ s.cal.input ≠ n) :
    completes (.attApply n) s fun t => t.flag (rCNV_ATT n) fCNV_ATT_GO = false ∧
      t.flag (rCNV_ATT n) fCNV_ATT_LATE = (decide ((s.rd (rCNV_ATT_TIME n)).toNat ≠ 0 ∧ (s.rd (rCNV_ATT_TIME n)).toNat < s.time)) ∧
      t.attStep n = s.fld (rCNV_ATT n) fCNV_ATT_STEP ∧ (t.core n).geff = s.geffAt n (s.fld (rCNV_ATT n) fCNV_ATT_STEP) ∧
      t.time = max s.time (s.rd (rCNV_ATT_TIME n)).toNat ∧ t.cal = s.cal ∧
      onlyIn (mRegs ||| mAct ||| mTime ||| mCnv) [rCNV_ATT n, rCNV_BG_COUNT n, rCNV_BG_COUNT (n + 1)] [] s t := by
  have hk := touches_State.attRestart ((attTaken s n).newGeff n) n
  have ho := onlyIn_attRestart ((attTaken s n).newGeff n) n n.isLt
  have hfld : ∀ f, (((attTaken s n).newGeff n).attRestart n).fld (rCNV_ATT n) f = (attTaken s n).fld (rCNV_ATT n) f := fun f =>
    (congrArg (fun w => fget w f) (ho.2 _ (by simp [rCNV_ATT, rCNV_BG_COUNT]; omega) (by simp))).trans (newGeff_fld _ n _ f)
  refine completes_of_eq (next_live hg ((State.clocked_running hh _).trans (attApply_eq hgo hrun))) ⟨?_, ?_, ?_, ?_, ?_, ?_, ?_⟩
  · rw [State.flag, hfld]
    exact (attTaken_flags s n).1
  · rw [State.flag, hfld]
    exact (attTaken_flags s n).2
  · exact (congrArg (fun w => fget w fCNV_ATT_STEP) ((hk.actv (by decide) _).trans ((touches_State.newGeff _ _).actv (by decide) _))).trans
      (attTaken_attStep s n)
  · rw [attRestart_geff]
    simp only [State.newGeff, State.core, State.updCore_cnv, SMap.get_upd_same, attTaken_attStep]
    exact attTaken_geffAt s n _ (State.fld_lt _ _ _)
  · rw [hk.time (by decide), (touches_State.newGeff _ _).time (by decide), attTaken_time]
    exact State.reach_time_running hh _
  · rw [hk.cal (by decide), (touches_State.newGeff _ _).cal (by decide), (onlyIn_attTaken s n).1.cal (by decide)]
  · exact .andThen (.of_hi (.other (onlyIn_attTaken s n) (touches_State.newGeff _ _)) (by simp [rCNV_ATT, rCNV_BG_COUNT]; omega)) ho

/-- Settles O18, a clause per command. -/
theorem attenuatorAndChannelCorrection : Obligations.AttenuatorAndChannelCorrection := by
  refine ⟨fun n v s h => ?go, fun n s hg hh => next_live hg (State.clocked_held hh _), fun n s hg hh hgo hrun => attApply_effect hg hh hgo hrun, fun n v s h => ?chcorr⟩
  case go =>
    obtain ⟨hgo, hstep, -, -⟩ := att_fields n
    refine ⟨_, next_hostWr (t := (s.dropStaged .host (rCNV_ATT n)).wrCodes (rCNV_ATT n) (fset v fCNV_ATT_GO 1) []) h rfl, ?_, ?_, ?_,
      .of_hi (.wrCodes (.dropStaged (.refl _ _ _ _))) (by simp [rCNV_ATT]; omega)⟩
    · rw [State.flag, State.fld_wrCodes_w1s _ hgo _ _ (fget_fset_self _ _ _ (by decide))]
      rfl
    · rw [State.fld_wrCodes_rw _ hstep _ []]
      exact fget_fset_apart _ _ _ _ (by decide)
    · exact congrArg (fun w => fget w fCNV_ATT_STEP) ((touches_State.wrCodes _ _ _ _).actv (by decide) _)
  case chcorr =>
    obtain ⟨-, -, hgain, hoff⟩ := att_fields n
    refine ⟨_, next_hostWr (t := ((s.dropStaged .host (rCNV_CHCORR n)).wrCodes (rCNV_CHCORR n) v []).newGeff n) h rfl, ?_, ?_, ?_, ?_⟩
    · exact State.fld_wrCodes_rw _ hgain _ _
    · exact State.fld_wrCodes_rw _ hoff _ _
    · have ha : ((s.dropStaged .host (rCNV_CHCORR n)).wrCodes (rCNV_CHCORR n) v []).attStep n = s.attStep n :=
        congrArg (fun w => fget w fCNV_ATT_STEP) ((touches_State.wrCodes _ _ _ _).actv (by decide) _)
      simp only [State.core, State.newGeff, State.updCore_cnv, SMap.get_upd_same, ha]
      rfl
    · exact .of_hi (.other (.wrCodes (.dropStaged (.refl _ _ _ _))) (touches_State.newGeff _ _)) (by simp [rCNV_CHCORR]; omega)

end Sys2Proof
end

section
/-! SUPPORT. Background calibration (R82 to R88). -/

set_option Elab.async false

namespace Sys2Proof

open Sys2Proof.Machine

theorem bg_fields (n : Fin 4) : rwField (rCNV_BG n) fCNV_BG_EN = true := by
  revert n
  decide +kernel

/-- A range check of another field leaves a field alone. -/
theorem fget_keepRange_apart (old v : Word) (f g : Fld) (lo hi : Nat) (h : f.apart g = true) :
    fget (keepRange old f lo hi v) g = fget v g := by
  unfold keepRange
  split
  · exact fget_fset_apart _ _ _ _ (of_decide_eq_true h)
  · rfl

theorem bgEn_inRange (m : Nat) (old v : Word) : fget (inRange .CNV_BG m old v) fCNV_BG_EN = fget v fCNV_BG_EN := by
  simp only [inRange, regRanges, List.foldl_cons, List.foldl_nil]
  rw [fget_keepRange_apart _ _ _ _ _ _ (by decide), fget_keepRange_apart _ _ _ _ _ _ (by decide),
    fget_keepRange_apart _ _ _ _ _ _ (by decide), fget_keepRange_apart _ _ _ _ _ _ (by decide)]

/-- No step of the core ends with a command that leaves it within one. -/
theorem storeStep_within {s t : State} {n : Nat} (h : (t.core n).phase ≠ .off) (hs : (s.core n).phase ≠ .interval) : s.storeStep t n = t := by
  simp [State.storeStep, h, hs]

/-- No store write waits for the core. -/
theorem storeStep_noWait {s t : State} {n : Nat} (h : t.cal.await.contains n = false) : s.storeStep t n = t := by
  unfold State.storeStep
  split
  · simp only [State.storeCapture, h, Bool.false_eq_true, if_false]
  · rfl

/-! ### HOLD and REASON (R83) -/

/-- What HOLD and REASON take, before their event. -/
def holdSet (s : State) (n : Nat) (hold : Bool) (why : Nat) : State :=
  s.setFlds (rCNV_BG_STATUS n) [(fCNV_BG_STATUS_HOLD, b2n hold), (fCNV_BG_STATUS_REASON, if hold then why else 0)]

/-- HOLD changes without an event, or with that of its rise or of its fall. -/
theorem setHold_cases (s : State) (n : Nat) (hold : Bool) (why : Nat) :
    s.setHold n hold why = holdSet s n hold why ∨ (hold = true ∧ s.setHold n hold why = (holdSet s n hold why).raise (68 + n)) ∨
    (hold = false ∧ s.setHold n hold why = (holdSet s n hold why).raise (72 + n)) := by
  cases hold <;> cases h : s.flag (rCNV_BG_STATUS n) fCNV_BG_STATUS_HOLD <;> simp [State.setHold, holdSet, h]

theorem setHold_fld (s : State) (n : Nat) (hold : Bool) (why a : Nat) (f : Fld) (h : a < 0x10000 ∨ 0x12000 + 8 * (72 + n) < a) :
    (s.setHold n hold why).fld a f = (holdSet s n hold why).fld a f := by
  obtain e | ⟨-, e⟩ | ⟨-, e⟩ := setHold_cases s n hold why
  · rw [e]
  · rw [e, State.fld_raise_other _ _ _ _ _ _ _ (by omega)]
  · rw [e, State.fld_raise_other _ _ _ _ _ _ _ h]

@[simp] theorem setHold_core (s : State) (n : Nat) (hold : Bool) (why m : Nat) : (s.setHold n hold why).core m = s.core m :=
  congrArg (fun c => SMap.get cnv0 c m) ((touches_State.setHold s n hold why).cnv (by decide))

/-- HOLD and REASON as set, and the other fields of the register as they were. -/
theorem setHold_status (s : State) (n : Nat) (hold : Bool) {why : Nat} (hw : why < 8) :
    (s.setHold n hold why).flag (rCNV_BG_STATUS n) fCNV_BG_STATUS_HOLD = hold ∧
    (s.setHold n hold why).fld (rCNV_BG_STATUS n) fCNV_BG_STATUS_REASON = (if hold then why else 0) ∧
    ∀ f : Fld, 4 ≤ f.lo → (s.setHold n hold why).fld (rCNV_BG_STATUS n) f = s.fld (rCNV_BG_STATUS n) f := by
  have hr : rCNV_BG_STATUS n < 0x10000 ∨ 0x12000 + 8 * (72 + n) < rCNV_BG_STATUS n := by simp only [rCNV_BG_STATUS]; omega
  refine ⟨?_, ?_, fun f hf => ?_⟩
  · rw [State.flag, setHold_fld _ _ _ _ _ _ hr]
    cases hold <;> simp (disch := decide) [holdSet, b2n]
  · rw [setHold_fld _ _ _ _ _ _ hr]
    cases hold <;> simp (disch := decide) [holdSet]
    omega
  · rw [setHold_fld _ _ _ _ _ _ hr]
    rw [holdSet, State.fld_setFlds_cons, State.fld_setFlds_cons, State.fld_setFlds_nil,
      State.fld_setFld_apart _ _ _ fCNV_BG_STATUS_REASON f _ ⟨by decide, .inr hf⟩,
      State.fld_setFld_apart _ _ _ fCNV_BG_STATUS_HOLD f _ ⟨by decide, .inr (Nat.le_trans (by decide) hf)⟩]

theorem onlyIn_holdEnds (s : State) (n : Nat) (why : Nat) : onlyIn mEvent [rCNV_BG_STATUS n] [72 + n] s (s.setHold n false why) := by
  refine .of_hi ?_ (by simp [rCNV_BG_STATUS]; omega)
  obtain e | ⟨h, -⟩ | ⟨-, e⟩ := setHold_cases s n false why
  · rw [e]
    exact .setFlds (.refl _ _ _ _)
  · cases h
  · rw [e]
    exact .raise (.setFlds (.refl _ _ _ _))

/-! ### Retirement (R86) -/

theorem bgFreeze_effect (s : State) (n : Nat) : ((s.bgFreeze n).core n).phase = .off ∧
    (s.bgFreeze n).fld (rCNV_BG_STATUS n) fCNV_BG_STATUS_FAILED = s.fld (rCNV_BG_STATUS n) fCNV_BG_STATUS_FAILED := by
  constructor
  · rw [State.bgFreeze, setHold_core]
    simp [State.core]
  · exact (setHold_status _ n true (by decide)).2.2 _ (by decide)

/-- The free slice is retired: FAILED marks it, and the core's steps end. -/
theorem retireFree {s : State} {n k : Nat} (hk : s.fld (rCNV_BG_STATUS n) fCNV_BG_STATUS_FREE = k) (h17 : k < 17) :
    (s.retireSlice n k).fld (rCNV_BG_STATUS n) fCNV_BG_STATUS_FAILED = s.fld (rCNV_BG_STATUS n) fCNV_BG_STATUS_FAILED ||| 2 ^ k ∧
    ((s.retireSlice n k).core n).phase = .off := by
  have hlt : s.fld (rCNV_BG_STATUS n) fCNV_BG_STATUS_FAILED ||| 2 ^ k < 2 ^ 17 :=
    Nat.or_lt_two_pow (s.fld_lt _ _) (Nat.pow_lt_pow_right (by decide) h17)
  generalize hb : ((s.setFld (rCNV_BG_STATUS n) fCNV_BG_STATUS_FAILED (s.fld (rCNV_BG_STATUS n) fCNV_BG_STATUS_FAILED ||| 2 ^ k)).raise
    (80 + n)).updCore n (fun c => { c with rejects := [] }) = b
  have hf : b.fld (rCNV_BG_STATUS n) fCNV_BG_STATUS_FAILED = s.fld (rCNV_BG_STATUS n) fCNV_BG_STATUS_FAILED ||| 2 ^ k := by
    rw [← hb]
    simp (disch := first | decide | (simp only [rCNV_BG_STATUS]; omega))
    exact hlt
  obtain ⟨hph, hfa⟩ := bgFreeze_effect b n
  have hcore : ((b.bgFreeze n).raise (84 + n)).core n = (b.bgFreeze n).core n := by simp [State.core]
  have hfr : ((b.bgFreeze n).raise (84 + n)).fld (rCNV_BG_STATUS n) fCNV_BG_STATUS_FAILED =
      (b.bgFreeze n).fld (rCNV_BG_STATUS n) fCNV_BG_STATUS_FAILED := State.fld_raise_other _ _ _ _ _ _ _ (by simp only [rCNV_BG_STATUS]; omega)
  simp only [State.retireSlice, hb, hk, if_true]
  split
  · exact ⟨hfr.trans (hfa.trans hf), hcore ▸ hph⟩
  · exact ⟨hfa.trans hf, hph⟩

/-! ### Corrections (R82 step 5) -/

/-- A quarter of an error, rounded down or up. -/
theorem quarter_cases (s : State) (num : Int) (den : Nat) :
    (s.quarter num den).1 = num / (4 * den) ∨ (s.quarter num den).1 = num / (4 * den) + 1 ∧ num % (4 * den) ≠ 0 := by
  simp only [State.quarter, State.fresh]
  split
  · exact .inl rfl
  · next h =>
    cases Config.roundUp s.freeCtr
    · exact .inl (by simp [b2n])
    · exact .inr ⟨by simp [b2n], h⟩

/-- A quarter in integers of a quotient. -/
theorem quarter_bounds (s : State) (num : Int) {den : Nat} (h : 0 < den) :
    4 * (s.quarter num den).1 - 4 ≤ num / den ∧ num / den ≤ 4 * (s.quarter num den).1 + 3 := by
  have hq : num / (4 * (den : Int)) = num / den / 4 := by
    rw [Int.ediv_ediv_of_nonneg (by omega : (0 : Int) ≤ den), mul_comm]
  obtain e | ⟨e, -⟩ := quarter_cases s num den
  · rw [e, hq]
    omega
  · rw [e, hq]
    omega

/-- A quarter in integers of an integer. -/
theorem quarter_one_bounds (s : State) (num : Int) : 4 * (s.quarter num 1).1 - 3 ≤ num ∧ num ≤ 4 * (s.quarter num 1).1 + 3 := by
  obtain e | ⟨e, h⟩ := quarter_cases s num 1
  · rw [e]
    omega
  · rw [e]
    omega

/-- Rounding takes a free value, and changes no more than their count. -/
theorem quarter_snd {s t : State} {num e : Int} {den : Nat} (h : (e, t) = s.quarter num den) :
    (∀ a f, t.fld a f = s.fld a f) ∧ Touches mFreeCtr s t ∧ t.regs = s.regs := by
  have ht : t = (s.quarter num den).2 := congrArg Prod.snd h
  have k : Touches mFreeCtr s t := ht ▸ touches_State.quarter s num den
  exact ⟨fun a f => congrArg (fun w => fget w f) (State.rd_congr (k.regs (by decide)) a), k, k.regs (by decide)⟩

/-- The free slice's corrections within their bounds. -/
def corrOk (o g k : Int) : Prop := o.natAbs ≤ 16384 ∧ 24576 ≤ g ∧ g ≤ 40960 ∧ -128 < k ∧ k < 127

/-- The corrections `o`, `g`, `k` of slice `f` of core `n` written, and the position moved on. -/
def corrected (s : State) (n f : Nat) (o g k : Int) (retry : Bool) (steps : Nat) : State :=
  let s5 := s.setFlds (rCNV_SLICE n f) [(fCNV_SLICE_OFFSET, ofSigned 16 o), (fCNV_SLICE_GAIN, g.toNat), (fCNV_SLICE_SKEW, ofSigned 8 k)]
  let s6 := if retry then s5
    else s5.setFld (rCNV_BG_STATUS n) fCNV_BG_STATUS_POS ((s.fld (rCNV_BG_STATUS n) fCNV_BG_STATUS_POS + 1) % 16)
  let s7 := s6.updCore n fun c => { c with phase := .interval, steps := steps % 17 }
  if steps = 17 then s7.addMod (rCNV_BG_STATUS n) fCNV_BG_STATUS_ROTATIONS 1 else s7

theorem corrected_effect (s : State) (n f : Nat) {o g k : Int} (h : corrOk o g k) (retry : Bool) (steps : Nat) :
    (corrected s n f o g k retry steps).flag (rCNV_BG_STATUS n) fCNV_BG_STATUS_HOLD = s.flag (rCNV_BG_STATUS n) fCNV_BG_STATUS_HOLD ∧
    ((corrected s n f o g k retry steps).core n).phase = .interval ∧
    (corrected s n f o g k retry steps).fldS (rCNV_SLICE n f) fCNV_SLICE_OFFSET = o ∧
    ((corrected s n f o g k retry steps).fld (rCNV_SLICE n f) fCNV_SLICE_GAIN : Int) = g ∧
    (corrected s n f o g k retry steps).fldS (rCNV_SLICE n f) fCNV_SLICE_SKEW = k ∧
    (corrected s n f o g k retry steps).fld (rCNV_BG_STATUS n) fCNV_BG_STATUS_POS =
      (if retry then s.fld (rCNV_BG_STATUS n) fCNV_BG_STATUS_POS else (s.fld (rCNV_BG_STATUS n) fCNV_BG_STATUS_POS + 1) % 16) := by
  have hr : rCNV_BG_STATUS n ≠ rCNV_SLICE n f := by simp only [rCNV_BG_STATUS, rCNV_SLICE]; omega
  have hr' : rCNV_SLICE n f ≠ rCNV_BG_STATUS n := hr.symm
  obtain ⟨ho, hg1, hg2, hk1, hk2⟩ := h
  have hpos : (s.fld (rCNV_BG_STATUS n) fCNV_BG_STATUS_POS + 1) % 16 < 16 := Nat.mod_lt _ (by decide)
  generalize hc : corrected s n f o g k retry steps = c
  have hslice : c.rd (rCNV_SLICE n f) = fsets (s.rd (rCNV_SLICE n f))
      [(fCNV_SLICE_OFFSET, ofSigned 16 o), (fCNV_SLICE_GAIN, g.toNat), (fCNV_SLICE_SKEW, ofSigned 8 k)] := by
    rw [← hc]
    unfold corrected
    dsimp only
    split <;> cases retry <;> simp [hr, hr', State.rd_setFlds]
  have hstat : ∀ h : Fld, fCNV_BG_STATUS_ROTATIONS.apart h = true → c.fld (rCNV_BG_STATUS n) h =
      if retry then s.fld (rCNV_BG_STATUS n) h else (s.setFld (rCNV_BG_STATUS n) fCNV_BG_STATUS_POS
        ((s.fld (rCNV_BG_STATUS n) fCNV_BG_STATUS_POS + 1) % 16)).fld (rCNV_BG_STATUS n) h := by
    intro h hh
    have hrot : ∀ t : State, (t.addMod (rCNV_BG_STATUS n) fCNV_BG_STATUS_ROTATIONS 1).fld (rCNV_BG_STATUS n) h = t.fld (rCNV_BG_STATUS n) h :=
      fun t => State.fld_addMod_apart _ _ _ _ _ _ (of_decide_eq_true hh)
    rw [← hc]
    unfold corrected
    dsimp only
    split
    · rw [hrot]
      cases retry <;> simp [State.fld, State.rd_setFld, hr]
    · cases retry <;> simp [State.fld, State.rd_setFld, hr]
  refine ⟨?_, ?_, ?_, ?_, ?_, ?_⟩
  · rw [State.flag, hstat _ (by decide)]
    cases retry <;> simp (disch := decide) [State.flag]
  · rw [← hc]
    unfold corrected
    dsimp only
    split <;> simp [State.core]
  · refine fgetS_of_ofSigned ?_ (by decide) (by simp; omega) (by simp; omega)
    rw [hslice]
    simp (disch := decide)
  · rw [State.fld, hslice]
    simp (disch := decide)
    omega
  · refine fgetS_of_ofSigned ?_ (by decide) (by simp; omega) (by simp; omega)
    rw [hslice]
    simp (disch := decide)
  · rw [hstat _ (by decide)]
    cases retry <;> simp (disch := decide)

theorem onlyIn_corrected (s : State) (n f : Nat) (o g k : Int) (retry : Bool) (steps : Nat) :
    onlyIn (mEvent ||| mFreeCtr ||| mCnv) [rCNV_SLICE n f, rCNV_BG_STATUS n] [72 + n] s (corrected s n f o g k retry steps) := by
  refine .of_hi ?_ (by simp [rCNV_SLICE, rCNV_BG_STATUS]; omega)
  unfold corrected
  have h6 : onlyIn (mEvent ||| mFreeCtr ||| mCnv ||| mGlb) [rCNV_SLICE n f, rCNV_BG_STATUS n] [72 + n] s (if retry then
      s.setFlds (rCNV_SLICE n f) [(fCNV_SLICE_OFFSET, ofSigned 16 o), (fCNV_SLICE_GAIN, g.toNat), (fCNV_SLICE_SKEW, ofSigned 8 k)]
    else (s.setFlds (rCNV_SLICE n f) [(fCNV_SLICE_OFFSET, ofSigned 16 o), (fCNV_SLICE_GAIN, g.toNat),
      (fCNV_SLICE_SKEW, ofSigned 8 k)]).setFld (rCNV_BG_STATUS n) fCNV_BG_STATUS_POS ((s.fld (rCNV_BG_STATUS n) fCNV_BG_STATUS_POS + 1) % 16)) :=
    .ite (.setFlds (.refl _ _ _ _)) (.setFld (.setFlds (.refl _ _ _ _)))
  have h7 := h6.other (touches_State.updCore _ n fun c => { c with phase := .interval, steps := steps % 17 })
  exact .ite (.addMod h7) h7

/-- An estimation window that meets no hold condition: the corrections are taken, or the free slice is retired. -/
theorem bgWindowEnd_taken {s : State} {n : Nat} {w : BgWindow} (hst : s.clk.stage = .idle) (hph : (s.core n).phase = .window)
    (hr : s.bgReason n w = 0) {f : Nat} (hf : s.fld (rCNV_BG_STATUS n) fCNV_BG_STATUS_FREE = f) {s1 s2 s3 : State} {eo eg es : Int}
    (h1 : (eo, s1) = s.quarter (64 * ((s.bgSums n w).sF * (s.bgSums n w).nA - (s.bgSums n w).sA * (s.bgSums n w).nF))
      (max 1 ((s.bgSums n w).nF * (s.bgSums n w).nA)))
    (h2 : (eg, s2) = s1.quarter (Config.gainError (s.bgSums n w).qF (s.bgSums n w).nF (s.bgSums n w).qA (s.bgSums n w).nA) 1)
    (h3 : (es, s3) = s2.quarter (Config.skewError (s.bgSums n w).cLo (s.bgSums n w).cHi) 1) :
    (corrOk (s.fldS (rCNV_SLICE n f) fCNV_SLICE_OFFSET + eo) (s.fld (rCNV_SLICE n f) fCNV_SLICE_GAIN + eg)
        (s.fldS (rCNV_SLICE n f) fCNV_SLICE_SKEW + es) →
      s.bgWindowEnd n w = corrected (s3.setHold n false 0) n f (s.fldS (rCNV_SLICE n f) fCNV_SLICE_OFFSET + eo)
        (s.fld (rCNV_SLICE n f) fCNV_SLICE_GAIN + eg) (s.fldS (rCNV_SLICE n f) fCNV_SLICE_SKEW + es) (s.core n).retry
        (if (s.core n).retry then (s.core n).steps else (s.core n).steps + 1)) ∧
    (¬ corrOk (s.fldS (rCNV_SLICE n f) fCNV_SLICE_OFFSET + eo) (s.fld (rCNV_SLICE n f) fCNV_SLICE_GAIN + eg)
        (s.fldS (rCNV_SLICE n f) fCNV_SLICE_SKEW + es) →
      s.bgWindowEnd n w = ((s3.setHold n false 0).updCore n fun c => { c with phase := .interval }).retireSlice n f) := by
  have hw : ¬ (s.bgReason n w != 0) = true := by simp [hr]
  have hg : (decide ((s.core n).phase = .window) && decide (s.clk.stage = .idle)) = true := by simp [hst, hph]
  rw [State.bgWindowEnd, if_pos hg, if_neg hw, hf]
  simp only [← h1, ← h2, ← h3]
  constructor
  · intro hok
    obtain ⟨ho, hg1, hg2, hk1, hk2⟩ := hok
    rw [if_pos (by simp only [Bool.and_eq_true, decide_eq_true_eq]; exact ⟨⟨⟨⟨ho, hg1⟩, hg2⟩, hk1⟩, hk2⟩)]
    have hpos : (s3.setHold n false 0).fld (rCNV_BG_STATUS n) fCNV_BG_STATUS_POS = s.fld (rCNV_BG_STATUS n) fCNV_BG_STATUS_POS := by
      rw [(setHold_status s3 n false (by decide)).2.2 _ (by decide), (quarter_snd h3).1, (quarter_snd h2).1, (quarter_snd h1).1]
    unfold corrected
    rw [hpos]
  · intro hno
    rw [if_neg (by simp only [Bool.and_eq_true, decide_eq_true_eq]; exact fun ⟨⟨⟨⟨ho, hg1⟩, hg2⟩, hk1⟩, hk2⟩ => hno ⟨ho, hg1, hg2, hk1, hk2⟩)]

/-- Corrections within their bounds: what the registers and the core say, and that nothing else changes. -/
theorem bgWindowEnd_corrected {s s3 : State} {n : Fin 4} {f : Fin 17} {o g k : Int} (k3 : Touches mFreeCtr s s3) (e3 : s3.regs = s.regs)
    (hok : corrOk o g k) (steps : Nat) (t : State) (ht : t = corrected (s3.setHold n false 0) n f o g k (s.core n).retry steps) :
    t.flag (rCNV_BG_STATUS n) fCNV_BG_STATUS_HOLD = false ∧ (t.core n).phase = .interval ∧
    t.fldS (rCNV_SLICE n f) fCNV_SLICE_OFFSET = o ∧ (t.fld (rCNV_SLICE n f) fCNV_SLICE_GAIN : Int) = g ∧
    t.fldS (rCNV_SLICE n f) fCNV_SLICE_SKEW = k ∧
    t.fld (rCNV_BG_STATUS n) fCNV_BG_STATUS_POS = (if (s.core n).retry then s.fld (rCNV_BG_STATUS n) fCNV_BG_STATUS_POS
      else (s.fld (rCNV_BG_STATUS n) fCNV_BG_STATUS_POS + 1) % 16) ∧
    onlyIn (mEvent ||| mFreeCtr ||| mCnv) [rCNV_SLICE n f, rCNV_BG_STATUS n] [72 + n.val] s t := by
  obtain ⟨hhold, -, hother⟩ := setHold_status s3 n false (why := 0) (by decide)
  have hpos : (s3.setHold n false 0).fld (rCNV_BG_STATUS n) fCNV_BG_STATUS_POS = s.fld (rCNV_BG_STATUS n) fCNV_BG_STATUS_POS :=
    (hother _ (by decide)).trans (congrArg (fun w => fget w fCNV_BG_STATUS_POS) (State.rd_congr e3 _))
  obtain ⟨c1, c2, c3, c4, c5, c6⟩ := corrected_effect (s3.setHold n false 0) n f hok (s.core n).retry steps
  rw [ht]
  refine ⟨c1.trans hhold, c2, c3, c4, c5, hpos ▸ c6, ?_⟩
  exact .andThen (.andThen (.other (.refl _ _ _ _) k3 (e := e3)) (onlyIn_holdEnds s3 n 0)) (onlyIn_corrected _ n f o g k _ _)

/-- The end of a step changes no more than the image of a store write. -/
theorem touches_storeStep (s t : State) (n : Nat) : Touches mCal t (s.storeStep t n) := by
  unfold State.storeStep
  split
  · exact touches_State.storeCapture _ _
  · exact Touches.refl _ _

/-- A correction out of its bounds: the free slice is marked FAILED and the core's steps end. -/
theorem bgWindowEnd_retired {s s3 : State} {n : Fin 4} {f : Fin 17} (hf : s.fld (rCNV_BG_STATUS n) fCNV_BG_STATUS_FREE = f)
    (e3 : s3.regs = s.regs) (t : State)
    (ht : t = s.storeStep (((s3.setHold n false 0).updCore n fun c => { c with phase := .interval }).retireSlice n f) n) :
    s.fld (rCNV_BG_STATUS n) fCNV_BG_STATUS_FAILED ||| 2 ^ f.val = t.fld (rCNV_BG_STATUS n) fCNV_BG_STATUS_FAILED ∧
    (t.core n).phase = .off := by
  generalize hu : (s3.setHold n false 0).updCore n (fun c => { c with phase := .interval }) = u at ht
  have hfld : ∀ g : Fld, 4 ≤ g.lo → u.fld (rCNV_BG_STATUS n) g = s.fld (rCNV_BG_STATUS n) g := fun g hg => by
    rw [← hu]
    exact ((setHold_status s3 n false (why := 0) (by decide)).2.2 g hg).trans (congrArg (fun w => fget w g) (State.rd_congr e3 _))
  obtain ⟨hfa, hph⟩ := retireFree ((hfld _ (by decide)).trans hf) f.isLt
  have k := touches_storeStep s (u.retireSlice n f) n
  rw [ht]
  constructor
  · rw [State.fld_congr (k.regs (by decide)), hfa, hfld _ (by decide)]
  · exact (congrArg (fun c => (SMap.get cnv0 c n).phase) (k.cnv (by decide))).trans hph

/-! ### The writes of CNV_SLICE and CNV_BG (R87) -/

theorem wrSlice_idle {s : State} {n : Nat} (he : s.flag (rCNV_BG n) fCNV_BG_EN = false) (hp : (s.core n).phase = .off) (k : Nat) (v : Word) :
    State.wrSlice n k v s = s.wrCodes (rCNV_SLICE n k) v [] := if_pos (by simp [he, hp])

theorem wrSlice_busy {s : State} {n : Nat} (h : s.flag (rCNV_BG n) fCNV_BG_EN = true ∨ (s.core n).phase ≠ .off) (k : Nat) (v : Word) :
    State.wrSlice n k v s = s := by
  refine if_neg ?_
  rcases h with h | h <;> simp [h]

theorem wrCodes_core (s : State) (a : Nat) (v : Word) (l : List Fld) (n : Nat) : (s.wrCodes a v l).core n = s.core n :=
  congrArg (fun c => SMap.get cnv0 c n) ((touches_State.wrCodes s a v l).cnv (by decide))

/-- EN set while no step runs starts one. -/
theorem wrBg_starts {s : State} {n : Fin 4} {v : Word} (hp : (s.core n).phase = .off) (hz : (s.core n).frozen = false)
    (hv : fget v fCNV_BG_EN = 1) (hc : s.calRunOn n = false) (hs : s.flag rPWR_CTRL fPWR_CTRL_CNV_STBY = false) :
    State.wrBg n v s = (s.wrCodes (rCNV_BG n) v []).updCore n fun c => { c with phase := .settle, clipWin := false } := by
  have he : (s.wrCodes (rCNV_BG n) v []).flag (rCNV_BG n) fCNV_BG_EN = true := by
    rw [State.flag, State.fld_wrCodes_rw _ (bg_fields n) _ [], hv]
    rfl
  have hs' : (s.wrCodes (rCNV_BG n) v []).flag rPWR_CTRL fPWR_CTRL_CNV_STBY = false := by
    rw [State.flag, State.fld_wrCodes_other _ _ _ _ (by simp only [rPWR_CTRL, rCNV_BG]; omega)]
    exact hs
  simp [State.wrBg, hc, wrCodes_core, hp, hz, he, State.bgStart, hs']

/-- A step under way goes on. -/
theorem wrBg_running {s : State} {n : Nat} (hp : (s.core n).phase ≠ .off) (hc : s.calRunOn n = false) (v : Word) :
    State.wrBg n v s = s.wrCodes (rCNV_BG n) v [] := by
  simp [State.wrBg, hc, wrCodes_core, hp]

/-- Settles O19, a clause per command and outcome. -/
theorem backgroundCalibration : Obligations.BackgroundCalibration := by
  refine ⟨fun n k v s h he hp => ?sliceOk, fun n k v s h he => ?sliceBusy, fun n v s h hp hz hv hc hs => ?start, fun n v s h hp hc => ?running,
    fun n s hg hst hp => ?settle, fun n f a j kf ka s hg hst hp hj hkf hka hrem hok => ?handover,
    fun n f a kf ka s hg hst hp hkf hka hno h2 h2' => ?reject, fun n w s hg hst hp => ?window, fun n s hg hst hp hz hs ha he => ?next,
    fun n s hg hst hp ha he => ?stop, fun n why s hw => ?hold⟩
  case sliceOk => exact next_hostWr h (wrSlice_idle (s := s.dropStaged .host (rCNV_SLICE n k)) he hp k v)
  case sliceBusy => exact next_hostWr h (wrSlice_busy (s := s.dropStaged .host (rCNV_SLICE n k)) he k v)
  case start => exact next_hostWr h (wrBg_starts (s := s.dropStaged .host (rCNV_BG n)) hp hz ((bgEn_inRange n _ v).trans hv) hc hs)
  case running => exact next_hostWr h (wrBg_running (s := s.dropStaged .host (rCNV_BG n)) hp hc _)
  case settle => exact next_live hg (if_pos (by simp [hst, hp]))
  case handover =>
    refine next_live hg ?_
    have e : s.bgShadowEnd n f a = s.handover n j kf ka := by
      simp only [State.bgShadowEnd, hp, hst, decide_true, Bool.and_self, if_true, hj, hkf, hka, hok]
    rw [e, State.handover, if_neg hrem]
    exact storeStep_within (by simp [State.core]) (by simp [hp])
  case reject =>
    refine next_live hg ?_
    have e : s.bgShadowEnd n f a = s.handoverReject n kf ka := by
      simp only [State.bgShadowEnd, hp, hst, decide_true, Bool.and_self, if_true, hkf, hka, hno, Bool.false_eq_true, if_false]
    have hf3 : ¬ 3 ≤ SMap.get 0 (s.core n).rejects kf + 1 := by omega
    have ha3 : ¬ 3 ≤ SMap.get 0 (s.core n).rejects ka + 1 := by omega
    rw [e]
    simp only [State.handoverReject, State.fresh, hf3, ha3, decide_false, Bool.false_and, Bool.false_eq_true, if_false, List.foldl_nil]
    exact storeStep_within (by simp [State.core]) (by simp [hp])
  case window =>
    refine ⟨_, next_live hg rfl, fun hr => ?held, fun hr f hf => ?taken⟩
    case held =>
      have e : s.bgWindowEnd n w = ((s.addSat (rCNV_BG_COUNT n) fCNV_BG_COUNT_HOLD_WINDOWS 1).setHold n true (s.bgReason n w)).updCore n
          fun c => { c with phase := .interval } := by
        rw [State.bgWindowEnd, if_pos (by simp [hst, hp]), if_pos (by simp [hr])]
      rw [e]
      exact storeStep_within (by simp [State.core]) (by simp [hp])
    case taken =>
      generalize h1 : s.quarter (64 * ((s.bgSums n w).sF * (s.bgSums n w).nA - (s.bgSums n w).sA * (s.bgSums n w).nF))
        (max 1 ((s.bgSums n w).nF * (s.bgSums n w).nA)) = q1
      obtain ⟨eo, s1⟩ := q1
      generalize h2 : s1.quarter (Config.gainError (s.bgSums n w).qF (s.bgSums n w).nF (s.bgSums n w).qA (s.bgSums n w).nA) 1 = q2
      obtain ⟨eg, s2⟩ := q2
      generalize h3 : s2.quarter (Config.skewError (s.bgSums n w).cLo (s.bgSums n w).cHi) 1 = q3
      obtain ⟨es, s3⟩ := q3
      obtain ⟨hin, hout⟩ := bgWindowEnd_taken hst hp hr hf h1.symm h2.symm h3.symm
      obtain ⟨-, k1, e1⟩ := quarter_snd h1.symm
      obtain ⟨-, k2, e2⟩ := quarter_snd h2.symm
      obtain ⟨-, k3, e3⟩ := quarter_snd h3.symm
      have b1 := quarter_bounds s (64 * ((s.bgSums n w).sF * (s.bgSums n w).nA - (s.bgSums n w).sA * (s.bgSums n w).nF))
        (den := max 1 ((s.bgSums n w).nF * (s.bgSums n w).nA)) (by omega)
      have b2 := quarter_one_bounds s1 (Config.gainError (s.bgSums n w).qF (s.bgSums n w).nF (s.bgSums n w).qA (s.bgSums n w).nA)
      have b3 := quarter_one_bounds s2 (Config.skewError (s.bgSums n w).cLo (s.bgSums n w).cHi)
      rw [h1] at b1
      rw [h2] at b2
      rw [h3] at b3
      refine ⟨eo, eg, es, b1, b2, b3, ?_⟩
      split
      · next hok =>
        rw [hin hok]
        refine bgWindowEnd_corrected ((k1.trans k2).trans k3) (e3.trans (e2.trans e1)) hok _ _ (storeStep_within ?_ ?_)
        · rw [(corrected_effect _ n f hok _ _).2.1]
          decide
        · simp [hp]
      · next hno =>
        rw [hout hno]
        exact bgWindowEnd_retired hf (e3.trans (e2.trans e1)) _ rfl
  case next =>
    refine next_live hg ?_
    have e : s.bgIntervalEnd n = s.updCore n fun c => { c with phase := .settle, clipWin := false } := by
      simp [State.bgIntervalEnd, hp, hst, he, State.bgStart, hz, hs]
    rw [e]
    exact storeStep_noWait ha
  case stop =>
    refine next_live hg ?_
    have e : s.bgIntervalEnd n = (s.updCore n fun c => { c with phase := .off }).setHold n true 4 := by
      simp [State.bgIntervalEnd, hp, hst, he]
    rw [e]
    refine storeStep_noWait ?_
    rw [(touches_State.setHold _ _ _ _).cal (by decide)]
    exact ha
  case hold =>
    obtain ⟨hhold, hwhy, -⟩ := setHold_status s n true hw
    exact ⟨hhold, hwhy⟩

end Sys2Proof
end

section
/-! SUPPORT. Changes that leave a range of registers alone; window monitors (R97 to R103). -/

set_option Elab.async false

namespace Sys2Proof

open Sys2Proof.Machine

/-! ### Ranges of registers left alone -/

/-- The registers from `lo` up to `hi` read in `t` as in `s`. -/
def keeps (lo hi : Nat) (s t : State) : Prop := ∀ a, lo ≤ a → a < hi → t.rd a = s.rd a

section

variable {lo hi : Nat} {s t u : State}

theorem keeps.refl (lo hi : Nat) (s : State) : keeps lo hi s s := fun _ _ _ => rfl

theorem keeps.trans (h : keeps lo hi s t) (k : keeps lo hi t u) : keeps lo hi s u := fun a h1 h2 => (k a h1 h2).trans (h a h1 h2)

theorem keeps.mono {lo' hi' : Nat} (h : keeps lo hi s t) (hl : lo ≤ lo' := by decide) (hh : hi' ≤ hi := by decide) : keeps lo' hi' s t :=
  fun a h1 h2 => h a (Nat.le_trans hl h1) (Nat.lt_of_lt_of_le h2 hh)

theorem keeps.fld (h : keeps lo hi s t) (a : Nat) (f : Fld) (ha : lo ≤ a ∧ a < hi) : t.fld a f = s.fld a f :=
  congrArg (fun w => fget w f) (h a ha.1 ha.2)

theorem keeps.flag (h : keeps lo hi s t) (a : Nat) (f : Fld) (ha : lo ≤ a ∧ a < hi) : t.flag a f = s.flag a f := by
  rw [State.flag, State.flag, h.fld a f ha]

/-- A change of other components than the registers. -/
theorem keeps.other {m : Nat} (h : keeps lo hi s t) (k : Touches m t u) (hm : m.testBit 1 = false := by decide) : keeps lo hi s u :=
  fun a h1 h2 => (State.rd_congr (k.regs hm) a).trans (h a h1 h2)

theorem keeps.ite {c : Prop} [Decidable c] (h : keeps lo hi s t) (k : keeps lo hi s u) : keeps lo hi s (if c then t else u) := by
  split
  · exact h
  · exact k

theorem keeps.overList {β : Type} {g : State → β → State} {l : List β} (h : keeps lo hi s t) (k : ∀ v, ∀ b ∈ l, keeps lo hi v (g v b)) :
    keeps lo hi s (l.foldl g t) := by
  induction l generalizing t with
  | nil => exact h
  | cons b l ih => exact ih (h.trans (k t b (by simp))) fun v c hc => k v c (List.mem_cons_of_mem b hc)

theorem keeps.wr (h : keeps lo hi s t) {a : Nat} (v : Word) (ha : a < lo ∨ hi ≤ a) : keeps lo hi s (t.wr a v) :=
  fun b h1 h2 => (State.rd_wr_other t v (by omega)).trans (h b h1 h2)

theorem keeps.setFld (h : keeps lo hi s t) {a : Nat} {f : Fld} {v : Nat} (ha : a < lo ∨ hi ≤ a) : keeps lo hi s (t.setFld a f v) := h.wr _ ha

theorem keeps.setFlds (h : keeps lo hi s t) {a : Nat} {l : List (Fld × Nat)} (ha : a < lo ∨ hi ≤ a) : keeps lo hi s (t.setFlds a l) :=
  h.wr _ ha

theorem keeps.addSat (h : keeps lo hi s t) {a : Nat} {f : Fld} {n : Nat} (ha : a < lo ∨ hi ≤ a) : keeps lo hi s (t.addSat a f n) := h.wr _ ha

theorem keeps.addMod (h : keeps lo hi s t) {a : Nat} {f : Fld} {n : Nat} (ha : a < lo ∨ hi ≤ a) : keeps lo hi s (t.addMod a f n) := h.wr _ ha

theorem keeps.wrCodes (h : keeps lo hi s t) {a : Nat} {v : Word} {l : List Fld} (ha : a < lo ∨ hi ≤ a) : keeps lo hi s (t.wrCodes a v l) :=
  fun b h1 h2 => (State.rd_wrCodes_other t v l (by omega)).trans (h b h1 h2)

theorem keeps.raiseWith (h : keeps lo hi s t) {src : Nat} {obj : Option Nat} {code detail : Nat} {inj : Bool} {lim key : Nat}
    (hs : hi ≤ 0x10000 ∨ 0x12000 + 8 * src < lo ∨ (0x10028 ≤ lo ∧ hi ≤ 0x12000)) :
    keeps lo hi s (t.raiseWith src obj code detail inj lim key) := fun b h1 h2 => by
  refine ((evtOnly.raiseWith t src obj code detail inj lim key).2 b fun hb => ?_).trans (h b h1 h2)
  simp only [evtRegs, List.mem_cons, List.not_mem_nil, or_false, rEVT_SRC, rEVT_STAT, rEVT_SEQ, rEVT_RING_IDX] at hb
  omega

theorem keeps.raise (h : keeps lo hi s t) {src : Nat} {obj : Option Nat} {code detail : Nat}
    (hs : hi ≤ 0x10000 ∨ 0x12000 + 8 * src < lo ∨ (0x10028 ≤ lo ∧ hi ≤ 0x12000)) : keeps lo hi s (t.raise src obj code detail) :=
  h.raiseWith hs

theorem keeps.raiseLim (h : keeps lo hi s t) {us src : Nat} {obj : Option Nat} {code detail key : Nat}
    (hs : hi ≤ 0x10000 ∨ 0x12000 + 8 * src < lo ∨ (0x10028 ≤ lo ∧ hi ≤ 0x12000)) :
    keeps lo hi s (t.raiseLim us src obj code detail key) := h.raiseWith hs

/-- What only given registers and events change leaves a range alone that holds none of them. -/
theorem onlyIn.keeps {m : Nat} {l srcs : List Nat} (h : onlyIn m l srcs s t) (hl : ∀ a ∈ l, a < lo ∨ hi ≤ a)
    (hs : ∀ src ∈ srcs, hi ≤ 0x10000 ∨ 0x12000 + 8 * src < lo ∨ (0x10028 ≤ lo ∧ hi ≤ 0x12000)) : keeps lo hi s t :=
  fun a h1 h2 => h.2 a (fun x => by have := hl a x; omega) fun src hm x => by
    have := hs src hm
    simp only [evtRegs, rEVT_SRC, rEVT_STAT, rEVT_SEQ, rEVT_RING_IDX, List.mem_cons, List.not_mem_nil, or_false] at x
    omega

end

/-! ### Events of the trigger fabric -/

/-- An event of a trigger source changes no register below the trigger window but those of its count. -/
theorem keeps_trgIssue (s : State) (e : TrgEv) : keeps 0 0xe0000 s (s.trgIssue e) := by
  unfold State.trgIssue
  refine .overList (.ite (.addMod (.refl _ _ _) (by simp only [rTRG_SRC]; omega)) (.refl _ _ _)) fun t q _ => .ite ?_ (.refl _ _ _)
  exact .other (.refl _ _ _) (touches_State.updTq _ _ _)

/-- The trip matrix writes registers of the generators and of events only. -/
theorem keeps_pgTrip (s : State) {g : Nat} (h : g < 8) : keeps 0x60000 0x68000 s (s.pgTrip g) := by
  unfold State.pgTrip State.pgShow
  have k : keeps 0x60000 0x68000 s (s.setFld (rPG_STATUS g) fPG_STATUS_TRIPPED 1) := .setFld (.refl _ _ _) (by simp only [rPG_STATUS]; omega)
  exact .ite (.raise (.setFld (.other k (touches_State.updPg _ _ _)) (by simp only [rPG_STATUS]; omega)) (by omega))
    (.setFld (.refl _ _ _) (by simp only [rPG_STATUS]; omega))

theorem keeps_tripMatrix (s : State) : keeps 0x60000 0x68000 s s.tripMatrix := by
  unfold State.tripMatrix
  exact .overList (.refl _ _ _) fun t g hg => keeps_pgTrip t (List.mem_range.mp hg)

/-! ### Window monitors -/

theorem mon_fields (m : Fin 12) : rwField (rMON_CFG m) fMON_CFG_EN = true := by
  revert m
  decide +kernel

/-- The latch of a monitor rises, before the event of its source. -/
theorem monSee_latches {s : State} {m : Fin 12} {v : Int} (hc : s.monCond m v = true)
    (hl : s.flag (rMON_STATUS m) fMON_STATUS_LATCHED = false) :
    (s.monSee m v).flag (rMON_STATUS m) fMON_STATUS_LIVE = true ∧ (s.monSee m v).flag (rMON_STATUS m) fMON_STATUS_LATCHED = true ∧
    (s.monSee m v).fld (rMON_STATUS m) fMON_STATUS_TRIPS = satN fMON_STATUS_TRIPS.w (s.fld (rMON_STATUS m) fMON_STATUS_TRIPS + 1) := by
  generalize hb : ((s.setFld (rMON_STATUS m) fMON_STATUS_LIVE 1).setFld (rMON_STATUS m) fMON_STATUS_LATCHED 1).addSat (rMON_STATUS m)
    fMON_STATUS_TRIPS 1 = b
  have e : s.monSee m v = b.tripMatrix.raiseLim 1000 (128 + m) := by
    simp only [State.monSee, hc, hl, Bool.not_false, Bool.and_self, if_true, ← hb, b2n]
  have k : keeps 0x60000 0x68000 b (s.monSee m v) := by
    rw [e]
    exact .raiseLim (keeps_tripMatrix b) (by omega)
  have ha : 0x60000 ≤ rMON_STATUS m ∧ rMON_STATUS m < 0x68000 := by simp only [rMON_STATUS]; omega
  rw [k.flag _ _ ha, k.flag _ _ ha, k.fld _ _ ha, ← hb]
  simp (disch := decide) [State.flag]

/-- LIVE follows the condition where nothing latches. -/
theorem monSee_follows {s : State} {m : Nat} {v : Int} (h : s.monCond m v = false ∨ s.flag (rMON_STATUS m) fMON_STATUS_LATCHED = true) :
    s.monSee m v = s.setFld (rMON_STATUS m) fMON_STATUS_LIVE (b2n (s.monCond m v)) := by
  refine if_neg ?_
  rcases h with h | h <;> simp [h]

/-- Which of the two observations a monitor takes: its answer is what `monSee` leaves, and the event of its source where it latches. -/
theorem monCommand {s : State} {m : Fin 12} {v : Int} (hg : s.glb ≠ 0) (hen : s.flag (rMON_CFG m) fMON_CFG_EN = true) {c : Instr}
    (hc : (c = .monitorTrip m v ∧ s.fld (rMON_CFG m) fMON_CFG_SPEED ≠ 3) ∨ (c = .monSample m v ∧ s.fld (rMON_CFG m) fMON_CFG_SPEED = 3)) :
    exec c s = .next (s.monRise m fun u => u.monSee m v) := by
  rcases hc with ⟨rfl, hs⟩ | ⟨rfl, hs⟩
  · refine next_live hg ?_
    have e : s.monTrip m v = s.monSee m v := if_pos (by simp [hen, hs])
    simp only [State.monRise, e]
  · refine next_live hg ?_
    have e : s.monSample m v = s.monSee m v := if_pos (by simp [hen, hs])
    simp only [State.monRise, e]

theorem monRise_none {s t : State} {m : Nat} {f : State → State} (e : f s = t)
    (h : t.flag (rMON_STATUS m) fMON_STATUS_LATCHED = s.flag (rMON_STATUS m) fMON_STATUS_LATCHED) : s.monRise m f = t := by
  unfold State.monRise
  rw [e]
  exact if_neg (by simp [h])

/-- A latch cleared, and nothing else. -/
theorem monClear_effect (s : State) (m : Fin 12) : (s.monClear m).flag (rMON_STATUS m) fMON_STATUS_LATCHED = false ∧
    (s.monClear m).fld (rMON_STATUS m) fMON_STATUS_TRIPS = s.fld (rMON_STATUS m) fMON_STATUS_TRIPS ∧
    onlyIn (mRegs ||| mCnv) [rMON_STATUS m] [] s (s.monClear m) := by
  unfold State.monClear
  split
  · next hl =>
    dsimp only
    generalize hb : (if m.val < 4 then s.updCore m fun c => { c with clrAt := some (s.now16 : Int) } else s) = b
    have hr : b.regs = s.regs := by
      rw [← hb]
      split <;> rfl
    have k : onlyIn (mRegs ||| mCnv ||| mGlb) [rMON_STATUS m] [] s b := by
      rw [← hb]
      exact .ite (.other (.refl _ _ _ _) (touches_State.updCore _ _ _)) (.refl _ _ _ _)
    refine ⟨?_, ?_, .of_hi (.setFld k) (by simp [rMON_STATUS]; omega)⟩
    · simp (disch := decide) [State.flag]
    · rw [State.fld_setFld_apart _ _ _ _ _ _ (by decide), State.fld_congr hr]
  · next hl => exact ⟨by simpa using hl, rfl, .refl _ _ _ _⟩

theorem monEn_inRange (m : Nat) (old v : Word) : fget (inRange .MON_CFG m old v) fMON_CFG_EN = fget v fMON_CFG_EN := by
  simp only [inRange, regRanges, List.foldl_cons, List.foldl_nil]
  rw [fget_keepRange_apart _ _ _ _ _ _ (by decide), fget_keepRange_apart _ _ _ _ _ _ (by decide),
    fget_keepRange_apart _ _ _ _ _ _ (by decide), fget_keepRange_apart _ _ _ _ _ _ (by decide)]

/-- A write that leaves EN 0 clears the latch and LIVE. -/
theorem wrMonCfg_disables (s : State) (m : Fin 12) {v : Word} (hv : fget v fMON_CFG_EN = 0) :
    (State.wrMonCfg m v s).flag (rMON_CFG m) fMON_CFG_EN = false ∧ (State.wrMonCfg m v s).flag (rMON_STATUS m) fMON_STATUS_LATCHED = false ∧
    (State.wrMonCfg m v s).flag (rMON_STATUS m) fMON_STATUS_LIVE = false ∧
    onlyIn (mRegs ||| mCnv) [rMON_CFG m, rMON_STATUS m] [] s (State.wrMonCfg m v s) := by
  have hne : rMON_CFG m ≠ rMON_STATUS m := by simp only [rMON_CFG, rMON_STATUS]; omega
  have hen : (s.wrCodes (rMON_CFG m) v []).flag (rMON_CFG m) fMON_CFG_EN = false := by
    rw [State.flag, State.fld_wrCodes_rw _ (mon_fields m) _ [], hv]
    rfl
  obtain ⟨hl, -, hk⟩ := monClear_effect (s.wrCodes (rMON_CFG m) v []) m
  have e : State.wrMonCfg m v s = ((s.wrCodes (rMON_CFG m) v []).monClear m).setFld (rMON_STATUS m) fMON_STATUS_LIVE 0 :=
    if_neg (by simp [hen])
  rw [e]
  refine ⟨?_, ?_, ?_, .of_hi (.setFld (.andThen (.wrCodes (.refl _ _ _ _)) hk)) (by simp [rMON_CFG, rMON_STATUS]; omega)⟩
  · rw [State.flag, State.fld_setFld_other _ _ _ _ hne, State.fld, hk.2 _ (by simp [hne]) (by simp)]
    exact hen
  · rw [State.flag, State.fld_setFld_apart _ _ _ _ _ _ (by decide)]
    exact hl
  · rw [State.flag, State.fld_setFld_self _ _ _ _ (by decide)]
    rfl

/-- Settles O20, a clause per command and outcome. -/
theorem monitorsLatchAndClear : Obligations.MonitorsLatchAndClear := by
  refine ⟨fun m v s hg hen hc hl c hcmd => ?latch, fun m v s hg hen h c hcmd => ?follow, fun m v s hg c hcmd => ?blind, fun m s hg hm => ?period,
    fun m s hg hm => next_live hg (if_neg (by simp [hm])), fun m v s h => ?clear, fun m v s h hv => ?cfg⟩
  case latch =>
    obtain ⟨hlive, hlatched, htrips⟩ := monSee_latches hc hl
    have e : s.monRise m (fun u => u.monSee m v) = (s.monSee m v).trgMon m := if_pos (by simp [hlatched, hl])
    have k := (keeps_trgIssue (s.monSee m v) ⟨tick16 (((s.monSee m v).time * (s.monSee m v).tickFs - (s.monSee m v).monResponse m) /
      (s.monSee m v).tickFs), 24 + m, 4, false, false, 0⟩)
    have ha : 0 ≤ rMON_STATUS m ∧ rMON_STATUS m < 0xe0000 := by simp only [rMON_STATUS]; omega
    refine ⟨_, (monCommand hg hen hcmd).trans (congrArg _ e), (k.flag _ _ ha).trans hlive, (k.flag _ _ ha).trans hlatched,
      (k.fld _ _ ha).trans htrips, ?_⟩
    have hx := (monCommand hg hen hcmd).trans (congrArg _ e)
    rcases hcmd with ⟨rfl, -⟩ | ⟨rfl, -⟩
    · exact (touches_execMonitorTrip m v s).touches hx
    · exact (touches_execMonSample m v s).touches hx
  case follow =>
    refine (monCommand hg hen hcmd).trans (congrArg _ (monRise_none (monSee_follows h) ?_))
    simp (disch := decide) [State.flag]
  case blind =>
    rcases hcmd with ⟨rfl, h⟩ | ⟨rfl, h⟩
    · exact next_live hg (monRise_none (if_neg (by rcases h with h | h <;> simp [h])) rfl)
    · exact next_live hg (monRise_none (if_neg (by rcases h with h | h <;> simp [h])) rfl)
  case period =>
    obtain ⟨hl, -, hk⟩ := monClear_effect s m
    exact ⟨_, next_live hg (if_pos hm), hl, hk⟩
  case clear =>
    obtain ⟨hl, ht, hk⟩ := monClear_effect (s.dropStaged .host (rMON_STATUS m)) m
    exact ⟨_, next_hostWr h (if_pos (fget_fset_self _ _ _ (by decide))), hl, ht, .andThen (.of_hi (.dropStaged (.refl _ _ _ _)) (by simp [rMON_STATUS]; omega)) hk⟩
  case cfg =>
    obtain ⟨hen, hl, hlive, hk⟩ := wrMonCfg_disables (s.dropStaged .host (rMON_CFG m)) m ((monEn_inRange m (s.rd (rMON_CFG m)) v).trans hv)
    exact ⟨_, next_hostWr h rfl, hen, hl, hlive, .andThen (.of_hi (.dropStaged (.refl _ _ _ _)) (by simp [rMON_CFG, rMON_STATUS]; omega)) hk⟩

end Sys2Proof
end

section
/-! SUPPORT. Pulse generators (R104 to R111). -/

set_option Elab.async false

namespace Sys2Proof

open Sys2Proof.Machine

theorem pg_fields (g : Fin 8) : w1sField (rPG_CFG g) fPG_CFG_SW_TRIP = true ∧ w1sField (rPG_CFG g) fPG_CFG_ARM = true ∧
    rwField (rPG_CFG g) fPG_CFG_SAFE = true := by
  revert g
  decide +kernel

theorem pg_apart (g : Nat) : rPG_STATUS g ≠ rPG_CFG g := by simp only [rPG_STATUS, rPG_CFG]; omega

theorem pgCfg_inRange (m : Nat) (old v : Word) (f : Fld) (h : fPG_CFG_MODE.apart f = true) : fget (inRange .PG_CFG m old v) f = fget v f := by
  simp only [inRange, regRanges, List.foldl_cons, List.foldl_nil]
  exact fget_keepRange_apart _ _ _ _ _ _ h

/-- What is driven shows in LEVEL, and nowhere else. -/
theorem pgShow_fld (s : State) (g a : Nat) {f : Fld} (h : a ≠ rPG_STATUS g ∨ fPG_STATUS_LEVEL.apart f = true) : (s.pgShow g).fld a f = s.fld a f := by
  unfold State.pgShow
  by_cases ha : a = rPG_STATUS g
  · rw [ha, State.fld_setFld_apart _ _ _ _ _ _ (of_decide_eq_true (h.resolve_left (absurd ha)))]
  · rw [State.fld_setFld_other _ _ _ _ ha]

theorem pgTrip_cases (s : State) (g : Nat) : s.pgTrip g = s.pgShow g ∨
    s.pgTrip g = (((s.setFld (rPG_STATUS g) fPG_STATUS_TRIPPED 1).updPg g fun x => { x with mute := true }).pgShow g).raise (140 + g) := by
  unfold State.pgTrip
  split
  · exact .inr rfl
  · exact .inl rfl

/-- The trip matrix of a generator leaves its configuration alone. -/
theorem pgTrip_cfg (s : State) (g : Nat) (f : Fld) : (s.pgTrip g).fld (rPG_CFG g) f = s.fld (rPG_CFG g) f := by
  obtain e | e := pgTrip_cases s g
  · rw [e, pgShow_fld _ _ _ (.inl (pg_apart g).symm)]
  · rw [e, State.fld_raise_other _ _ _ _ _ _ _ (by simp only [rPG_CFG]; omega), pgShow_fld _ _ _ (.inl (pg_apart g).symm)]
    exact State.fld_setFld_other s _ _ _ (pg_apart g).symm

theorem onlyIn_pgTrip (s : State) (g : Nat) : onlyIn (mEvent ||| mPg) [rPG_STATUS g] [140 + g] s (s.pgTrip g) := by
  refine .of_hi ?_ (by simp [rPG_STATUS]; omega)
  obtain e | e := pgTrip_cases s g
  · rw [e, State.pgShow]
    exact .setFld (.refl _ _ _ _)
  · rw [e, State.pgShow]
    exact .raise (.setFld (.other (.setFld (.refl _ _ _ _)) (touches_State.updPg _ _ _)))

/-- A generator that is not tripped trips on SW_TRIP, and drives SAFE once it has been committed. -/
theorem pgTrip_trips {s : State} {g : Nat} (hsw : s.flag (rPG_CFG g) fPG_CFG_SW_TRIP = true) (ht : s.flag (rPG_STATUS g) fPG_STATUS_TRIPPED = false) :
    (s.pgTrip g).flag (rPG_STATUS g) fPG_STATUS_TRIPPED = true ∧
    (s.pgTrip g).fld (rPG_STATUS g) fPG_STATUS_LEVEL = if (s.pgen g).ever then s.fld (rPG_CFG g) fPG_CFG_SAFE else 0 := by
  generalize hb : (s.setFld (rPG_STATUS g) fPG_STATUS_TRIPPED 1).updPg g (fun x => { x with mute := true }) = b
  have e : s.pgTrip g = (b.pgShow g).raise (140 + g) := by
    rw [← hb]
    exact if_pos (by simp [hsw, ht])
  have hr : ∀ f, (s.pgTrip g).fld (rPG_STATUS g) f = (b.pgShow g).fld (rPG_STATUS g) f := fun f => by
    rw [e, State.fld_raise_other _ _ _ _ _ _ _ (by simp only [rPG_STATUS]; omega)]
  have htrip : b.flag (rPG_STATUS g) fPG_STATUS_TRIPPED = true := by
    rw [← hb]
    simp (disch := decide) [State.flag]
  have hsafe : b.fld (rPG_CFG g) fPG_CFG_SAFE = s.fld (rPG_CFG g) fPG_CFG_SAFE := by
    rw [← hb]
    exact State.fld_setFld_other s _ _ _ (pg_apart g).symm
  have hever : (b.pgen g).ever = (s.pgen g).ever := by
    rw [← hb]
    simp [State.pgen]
  have hlt := s.fld_lt (rPG_CFG g) fPG_CFG_SAFE
  constructor
  · rw [State.flag, hr, pgShow_fld _ _ _ (.inr (by decide))]
    exact htrip
  · rw [hr, State.pgShow, State.fld_setFld_self _ _ _ _ (by decide), State.pgBall, htrip, hever, hsafe]
    cases (s.pgen g).ever
    · rfl
    · exact Nat.mod_eq_of_lt hlt

/-- A write of PG_CFG changes that register and what the trip matrix does. -/
theorem onlyIn_wrPgCfg (s : State) (g : Nat) (v : Word) :
    onlyIn (mEvent ||| mStaged ||| mPg) [rPG_CFG g, rPG_STATUS g] [140 + g] s (State.wrPgCfg g v (s.dropStaged .host (rPG_CFG g))) :=
  .andThen (.of_hi (.wrCodes (.dropStaged (.refl _ _ _ _))) (by simp [rPG_CFG, rPG_STATUS]; omega)) (onlyIn_pgTrip _ g)

theorem wrPgCfg_mode (s : State) (g : Nat) (v : Word) : (State.wrPgCfg g v s).pgMode g = s.pgMode g :=
  congrArg (fun w => fget w fPG_CFG_MODE) (((touches_State.pgTrip _ g).actv (by decide) _).trans ((touches_State.wrCodes _ _ _ _).actv (by decide) _))

/-! ### The clear of a trip (R106) -/

/-- TRIPPED and SW_TRIP clear where no selected monitor holds its latch. -/
theorem wrPgStatus_clears {s : State} {g : Nat} {v : Word} (hv : fget v fPG_STATUS_TRIPPED = 1) (hm : s.pgMonitors g = false) (hg : g < 8) :
    (State.wrPgStatus g v s).flag (rPG_STATUS g) fPG_STATUS_TRIPPED = false ∧ (State.wrPgStatus g v s).flag (rPG_CFG g) fPG_CFG_SW_TRIP = false ∧
    onlyIn mRegs [rPG_CFG g, rPG_STATUS g] [] s (State.wrPgStatus g v s) := by
  generalize hb : (if fget v fPG_STATUS_LATE = 1 then s.setFld (rPG_STATUS g) fPG_STATUS_LATE 0 else s) = b
  have hk : onlyIn (mRegs ||| mGlb) [rPG_CFG g, rPG_STATUS g] [] s b := by
    rw [← hb]
    exact .ite (.setFld (.refl _ _ _ _)) (.refl _ _ _ _)
  have hm' : b.pgMonitors g = false := by
    rw [← hm]
    unfold State.pgMonitors
    have h1 : b.fld (rPG_CFG g) fPG_CFG_TRIP_MASK = s.fld (rPG_CFG g) fPG_CFG_TRIP_MASK := by
      rw [← hb]
      split
      · exact State.fld_setFld_other _ _ _ _ (pg_apart g).symm
      · rfl
    have h2 : keeps 0x60000 0x68000 s b := by
      rw [← hb]
      exact .ite (.setFld (.refl _ _ _) (by simp only [rPG_STATUS]; omega)) (.refl _ _ _)
    rw [Bool.eq_iff_iff, List.any_eq_true, List.any_eq_true, h1]
    refine exists_congr fun m => and_congr_right fun hm => ?_
    have := List.mem_range.mp hm
    rw [h2.flag _ _ (by simp only [rMON_STATUS]; omega)]
  have e : State.wrPgStatus g v s = ((b.setFld (rPG_STATUS g) fPG_STATUS_TRIPPED 0).setFld (rPG_CFG g) fPG_CFG_SW_TRIP 0).pgShow g := by
    rw [← hb] at hm' ⊢
    exact if_pos (by rw [hm', hv]; rfl)
  rw [e]
  refine ⟨?_, ?_, ?_⟩
  · rw [State.flag, pgShow_fld _ _ _ (.inr (by decide)), State.fld_setFld_other _ _ _ _ (pg_apart g), State.fld_setFld_self _ _ _ _ (by decide)]
    rfl
  · rw [State.flag, pgShow_fld _ _ _ (.inl (pg_apart g).symm), State.fld_setFld_self _ _ _ _ (by decide)]
    rfl
  · exact .of_hi (.setFld (.setFld (.setFld hk))) (by simp [rPG_CFG, rPG_STATUS]; omega)

/-! ### Commits (R108) -/

/-- The values behind the shadowed registers once a commit has taken them, ARM cleared. -/
theorem pgTake_effect (s : State) (g : Nat) : (s.pgTake g).flag (rPG_CFG g) fPG_CFG_ARM = false ∧ (s.pgTake g).actv (rPG_CFG g) = s.rd (rPG_CFG g) ∧
    (s.pgTake g).actv (rPG_TIMING g) = s.rd (rPG_TIMING g) ∧ (s.pgTake g).actv (rPG_START g) = s.rd (rPG_START g) ∧
    onlyIn (mRegs ||| mAct ||| mGlb) [rPG_CFG g, rPG_STATUS g] [] s (s.pgTake g) := by
  have h1 : rPG_CFG g ≠ rPG_TIMING g ∧ rPG_CFG g ≠ rPG_START g ∧ rPG_TIMING g ≠ rPG_START g := by
    simp only [rPG_CFG, rPG_TIMING, rPG_START]
    omega
  obtain ⟨ht, hst, hts⟩ := h1
  unfold State.pgTake
  refine ⟨?_, ?_, ?_, ?_, ?_⟩
  · simp (disch := decide) [State.flag]
  · rw [State.actv_setFld, State.actv_commitReg_other _ hst, State.actv_commitReg_other _ ht, State.actv_commitReg_same]
  · rw [State.actv_setFld, State.actv_commitReg_other _ hts, State.actv_commitReg_same]
    rfl
  · rw [State.actv_setFld, State.actv_commitReg_same]
    rfl
  · exact .setFld (.other (.other (.other (.refl _ _ _ _) (touches_State.commitReg _ _)) (touches_State.commitReg _ _)) (touches_State.commitReg _ _))

/-- A schedule that begins: RUNNING in PERIODIC and SINGLE only. -/
theorem pgBegin_effect (s : State) (g : Nat) :
    (s.pgBegin g).flag (rPG_STATUS g) fPG_STATUS_RUNNING = decide (s.pgMode g = 2 ∨ s.pgMode g = 3) ∧ ((s.pgBegin g).pgen g).ever = true ∧
    (∀ f, (s.pgBegin g).fld (rPG_CFG g) f = s.fld (rPG_CFG g) f) ∧ (∀ a, (s.pgBegin g).actv a = s.actv a) ∧
    onlyIn (mRegs ||| mPg ||| mGlb) [rPG_CFG g, rPG_STATUS g] [] s (s.pgBegin g) := by
  refine ⟨?_, ?_, fun f => ?_, fun a => rfl, ?_⟩
  · rw [State.flag, State.pgBegin, pgShow_fld _ _ _ (.inr (by decide)), State.fld_setFld_self _ _ _ _ (by decide)]
    by_cases h2 : s.pgMode g = 2 <;> by_cases h3 : s.pgMode g = 3 <;> simp [h2, h3, b2n]
  · simp [State.pgBegin, State.pgShow, State.pgen]
  · rw [State.pgBegin, pgShow_fld _ _ _ (.inl (pg_apart g).symm), State.fld_setFld_other _ _ _ _ (pg_apart g).symm]
    rfl
  · exact .setFld (.setFld (.other (.refl _ _ _ _) (touches_State.updPg _ _ _)))

/-- What a commit leaves in force, apart from the mode's registers RUNNING and LEVEL. -/
def committed (s : State) (g : Nat) (t : State) : Prop :=
  t.flag (rPG_CFG g) fPG_CFG_ARM = false ∧ t.actv (rPG_CFG g) = s.rd (rPG_CFG g) ∧ t.actv (rPG_TIMING g) = s.rd (rPG_TIMING g) ∧
  t.actv (rPG_START g) = s.rd (rPG_START g) ∧ t.flag (rPG_STATUS g) fPG_STATUS_RUNNING = decide (t.pgMode g = 2 ∨ t.pgMode g = 3) ∧
  (t.pgen g).ever = true ∧ onlyIn (mEvent ||| mAct ||| mTime ||| mPg) [rPG_CFG g, rPG_STATUS g] [148 + g] s t

theorem committed_begin (s : State) (g T : Nat) : committed s g (((s.reach T).pgTake g).pgBegin g) := by
  have hreg : ∀ a, (s.reach T).rd a = s.rd a := State.rd_congr ((touches_State.reach s T).regs (by decide))
  obtain ⟨harm, hc, ht, hs, hk⟩ := pgTake_effect (s.reach T) g
  obtain ⟨hrun, hever, hcfg, hact, hk'⟩ := pgBegin_effect ((s.reach T).pgTake g) g
  refine ⟨?_, (hact _).trans (hc.trans (hreg _)), (hact _).trans (ht.trans (hreg _)), (hact _).trans (hs.trans (hreg _)), ?_, hever, ?_⟩
  · rw [State.flag, hcfg]
    exact harm
  · rw [hrun, State.pgMode, State.pgMode, State.afld, State.afld, hact]
  · exact .of_hi (.andThen (.andThen (.other (.refl _ _ _ _) (touches_State.reach s T) (e := (touches_State.reach s T).regs (by decide))) hk) hk')
      (by simp [rPG_CFG, rPG_STATUS]; omega)

/-- LATE and its event leave what a commit has taken. -/
theorem committed_late {s t : State} {g : Nat} (h : committed s g t) : committed s g ((t.setFld (rPG_STATUS g) fPG_STATUS_LATE 1).raise (148 + g)) := by
  obtain ⟨harm, hc, ht, hs, hrun, hever, hk⟩ := h
  have k := touches_State.raise (t.setFld (rPG_STATUS g) fPG_STATUS_LATE 1) (148 + g) none 0 0
  have hact : ∀ a, ((t.setFld (rPG_STATUS g) fPG_STATUS_LATE 1).raise (148 + g)).actv a = t.actv a := fun a => k.actv (by decide) a
  refine ⟨?_, (hact _).trans hc, (hact _).trans ht, (hact _).trans hs, ?_, ?_, ?_⟩
  · rw [State.flag, State.fld_raise_other _ _ _ _ _ _ _ (by simp only [rPG_CFG]; omega), State.fld_setFld_other _ _ _ _ (pg_apart g).symm]
    exact harm
  · rw [State.flag, State.fld_raise_other _ _ _ _ _ _ _ (by simp only [rPG_STATUS]; omega), State.fld_setFld_apart _ _ _ _ _ _ (by decide),
      State.pgMode, State.afld, hact]
    exact hrun
  · rw [← hever]
    exact congrArg (fun p => (SMap.get pg0 p g).ever) (k.pg (by decide))
  · exact .trans hk (.of_hi (.raise (.setFld (.refl _ _ _ _))) (by simp [rPG_CFG, rPG_STATUS]; omega))

theorem reach_self (s : State) : s.reach s.time = s := by
  unfold State.reach
  split
  · rfl
  · simp

/-- An armed commit, on each of its ways. -/
theorem pgCommit_committed {s : State} {g : Nat} (ha : s.flag (rPG_CFG g) fPG_CFG_ARM = true) : committed s g (s.pgCommit g) := by
  have now := committed_begin s g s.time
  rw [reach_self] at now
  simp only [State.pgCommit, ha, if_true]
  split
  · exact committed_begin s g _
  · split
    · split
      · exact committed_begin s g _
      · exact committed_late now
    · exact now

/-! ### Edges (R105, R107, R110) -/

/-- The pulse of a period has ended, at `T` at the earliest. -/
def pulseEnded (s : State) (g T : Nat) : State :=
  (s.reach T).updPg g fun x => { x with hi := false, k := x.k + 1, last := some ((s.reach T).time : Int) }

/-- The pulse of a period has begun, at `T` at the earliest. -/
def pulseBegun (s : State) (g T : Nat) : State :=
  (s.reach T).updPg g fun x => { x with hi := true, mute := false, last := some ((s.reach T).time : Int) }

theorem pgEdge_idle {s : State} {g : Nat} (hh : s.held = false) (hrun : s.flag (rPG_STATUS g) fPG_STATUS_RUNNING = true)
    (hhi : (s.pgen g).hi = true) {T : Nat} (hT : T = s.pgStart g + (s.pgen g).k * s.pgPeriod g + s.pgWidth g) :
    s.pgEdge g = (if s.pgMode g = 3 then (pulseEnded s g T).setFld (rPG_STATUS g) fPG_STATUS_RUNNING 0 else pulseEnded s g T).pgShow g := by
  simp only [State.pgEdge, hrun, hh, hhi, Bool.not_false, Bool.and_self, if_true, pulseEnded, hT]

theorem pgEdge_active {s : State} {g : Nat} (hh : s.held = false) (hrun : s.flag (rPG_STATUS g) fPG_STATUS_RUNNING = true)
    (hhi : (s.pgen g).hi = false) (ht : s.flag (rPG_STATUS g) fPG_STATUS_TRIPPED = false) {T : Nat}
    (hT : T = s.pgStart g + (s.pgen g).k * s.pgPeriod g) :
    s.pgEdge g = ((pulseBegun s g T).addMod (rPG_STATUS g) fPG_STATUS_PULSES 1).pgShow g := by
  simp only [State.pgEdge, hrun, hh, hhi, ht, Bool.not_false, Bool.and_self, if_true, Bool.false_eq_true, if_false, pulseBegun, hT]

theorem pulse_regs (s : State) (g T : Nat) : (pulseEnded s g T).regs = s.regs ∧ (pulseBegun s g T).regs = s.regs :=
  have h := (touches_State.reach s T).regs (by decide)
  ⟨h, h⟩

theorem pulse_pgen (s : State) (g T : Nat) : ((pulseEnded s g T).pgen g).hi = false ∧ ((pulseEnded s g T).pgen g).k = (s.pgen g).k + 1 ∧
    ((pulseBegun s g T).pgen g).hi = true ∧ ((pulseBegun s g T).pgen g).mute = false := by
  have h : (s.reach T).pg = s.pg := (touches_State.reach s T).pg (by decide)
  simp [pulseEnded, pulseBegun, State.pgen, h]

theorem pulse_time {s : State} (hh : s.held = false) (g T : Nat) : (pulseEnded s g T).time = max s.time T ∧
    (pulseBegun s g T).time = max s.time T := ⟨State.reach_time_running hh T, State.reach_time_running hh T⟩

/-- An idle edge: the pulse ends, and with it in SINGLE the schedule. -/
theorem pgEdge_idle_effect {s : State} {g : Nat} (hh : s.held = false) (hrun : s.flag (rPG_STATUS g) fPG_STATUS_RUNNING = true)
    (hhi : (s.pgen g).hi = true) : ((s.pgEdge g).pgen g).hi = false ∧ ((s.pgEdge g).pgen g).k = (s.pgen g).k + 1 ∧
    (s.pgEdge g).time = max s.time (s.pgStart g + (s.pgen g).k * s.pgPeriod g + s.pgWidth g) ∧
    (s.pgEdge g).flag (rPG_STATUS g) fPG_STATUS_RUNNING = decide (s.pgMode g ≠ 3) ∧ onlyIn (mRegs ||| mTime ||| mPg) [rPG_STATUS g] [] s (s.pgEdge g) := by
  rw [pgEdge_idle hh hrun hhi rfl]
  generalize s.pgStart g + (s.pgen g).k * s.pgPeriod g + s.pgWidth g = T
  obtain ⟨hhi', hk, -, -⟩ := pulse_pgen s g T
  have ht := (pulse_time hh g T).1
  have ko : onlyIn (mRegs ||| mTime ||| mPg ||| mGlb) [rPG_STATUS g] [] s (pulseEnded s g T) :=
    .other (.other (.refl _ _ _ _) (touches_State.reach s T) (e := (touches_State.reach s T).regs (by decide))) (touches_State.updPg _ _ _)
  have hr : (pulseEnded s g T).flag (rPG_STATUS g) fPG_STATUS_RUNNING = true := by
    rw [State.flag, State.fld_congr (pulse_regs s g T).1]
    exact hrun
  generalize pulseEnded s g T = p at *
  refine ⟨?_, ?_, ?_, ?_, ?_⟩
  · split <;> exact hhi'
  · split <;> exact hk
  · split <;> exact ht
  · rw [State.flag, pgShow_fld _ _ _ (.inr (by decide))]
    split
    · next h3 => simp (disch := decide) [h3]
    · next h3 =>
      rw [decide_eq_true h3]
      exact hr
  · refine .of_hi ?_ (by simp [rPG_STATUS]; omega)
    exact .setFld (.ite (.setFld ko) ko)

/-- An active edge of a generator that is not tripped: a pulse begins and is counted. -/
theorem pgEdge_active_effect {s : State} {g : Nat} (hh : s.held = false) (hrun : s.flag (rPG_STATUS g) fPG_STATUS_RUNNING = true)
    (hhi : (s.pgen g).hi = false) (htr : s.flag (rPG_STATUS g) fPG_STATUS_TRIPPED = false) : ((s.pgEdge g).pgen g).hi = true ∧
    ((s.pgEdge g).pgen g).mute = false ∧ (s.pgEdge g).time = max s.time (s.pgStart g + (s.pgen g).k * s.pgPeriod g) ∧
    (s.pgEdge g).fld (rPG_STATUS g) fPG_STATUS_PULSES = (s.fld (rPG_STATUS g) fPG_STATUS_PULSES + 1) % 2 ^ fPG_STATUS_PULSES.w := by
  rw [pgEdge_active hh hrun hhi htr rfl]
  generalize s.pgStart g + (s.pgen g).k * s.pgPeriod g = T
  obtain ⟨-, -, hhi', hmute⟩ := pulse_pgen s g T
  have ht := (pulse_time hh g T).2
  have hc : (pulseBegun s g T).fld (rPG_STATUS g) fPG_STATUS_PULSES = s.fld (rPG_STATUS g) fPG_STATUS_PULSES :=
    State.fld_congr (pulse_regs s g T).2 _ _
  generalize pulseBegun s g T = p at *
  refine ⟨by simpa [State.pgShow, State.pgen] using hhi', by simpa [State.pgShow, State.pgen] using hmute, by simpa [State.pgShow] using ht, ?_⟩
  rw [pgShow_fld _ _ _ (.inr (by decide)), State.fld_addMod_self _ _ _ _ (by decide), hc]

/-- Settles O21, a clause per command and outcome. -/
theorem generatorsTripAndRun : Obligations.GeneratorsTripAndRun := by
  refine ⟨fun g v s h ht => ?swTrip, fun g v s h hm => ?clear, fun g v s h hm hl => ?kept, fun g v s h => ?safe, fun g v s h => ?arm,
    fun g s hg hh ha => ?commit, fun g s hg h => ?noCommit, fun g s hg hh hrun hhi => ?idle, fun g s hg hh hrun hhi ht => ?active⟩
  case swTrip =>
    obtain ⟨hsw, -, hsafe⟩ := pg_fields g
    have hv := fun f => pgCfg_inRange g (s.rd (rPG_CFG g)) (fset v fPG_CFG_SW_TRIP 1) f
    have hset : ((s.dropStaged .host (rPG_CFG g)).wrCodes (rPG_CFG g) (inRange .PG_CFG g (s.rd (rPG_CFG g)) (fset v fPG_CFG_SW_TRIP 1)) []).flag
        (rPG_CFG g) fPG_CFG_SW_TRIP = true := by
      rw [State.flag, State.fld_wrCodes_w1s _ hsw _ [] ((hv _ (by decide)).trans (fget_fset_self _ _ _ (by decide)))]
      rfl
    obtain ⟨htr, hlevel⟩ := pgTrip_trips hset (by
      rw [State.flag, State.fld_wrCodes_other _ _ _ _ (pg_apart g)]
      exact ht)
    refine ⟨_, next_hostWr h rfl, htr, ?_, hlevel.trans ?_, onlyIn_wrPgCfg s g _⟩
    · rw [State.flag, State.wrPgCfg, pgTrip_cfg]
      exact hset
    · rw [State.fld_wrCodes_rw _ hsafe _ [], hv _ (by decide), fget_fset_apart _ _ _ _ (by decide)]
      exact congrArg (fun p => if (SMap.get pg0 p g).ever then _ else _) ((touches_State.wrCodes _ _ _ _).pg (by decide))
  case clear =>
    obtain ⟨ht, hsw, hk⟩ := wrPgStatus_clears (s := s.dropStaged .host (rPG_STATUS g)) (v := fset v fPG_STATUS_TRIPPED 1)
      (fget_fset_self _ _ _ (by decide)) hm g.isLt
    exact ⟨_, next_hostWr h rfl, ht, hsw, .andThen (.of_hi (.dropStaged (.refl _ _ _ _)) (by simp [rPG_CFG, rPG_STATUS]; omega)) hk⟩
  case kept =>
    have hlate : ¬ fget (fset v fPG_STATUS_TRIPPED 1) fPG_STATUS_LATE = 1 := by
      rw [fget_fset_apart _ _ _ _ (by decide), hl]
      decide
    refine next_hostWr h ?_
    have hr : inRange .PG_STATUS g (s.rd (rPG_STATUS g)) (fset v fPG_STATUS_TRIPPED 1) = fset v fPG_STATUS_TRIPPED 1 := rfl
    have hm' : (s.dropStaged .host (rPG_STATUS g)).pgMonitors g = true := hm
    simp only [hr, State.wrPgStatus, if_neg hlate, hm', Bool.not_true, Bool.and_false, Bool.false_eq_true, if_false]
  case safe =>
    obtain ⟨-, -, hsafe⟩ := pg_fields g
    refine ⟨_, next_hostWr h rfl, ?_, wrPgCfg_mode _ g _, onlyIn_wrPgCfg s g _⟩
    rw [State.wrPgCfg, pgTrip_cfg, State.fld_wrCodes_rw _ hsafe _ [], pgCfg_inRange _ _ _ _ (by decide)]
  case arm =>
    obtain ⟨-, harm, -⟩ := pg_fields g
    refine ⟨_, next_hostWr h rfl, ?_, wrPgCfg_mode _ g _, onlyIn_wrPgCfg s g _⟩
    rw [State.flag, State.wrPgCfg, pgTrip_cfg, State.fld_wrCodes_w1s _ harm _ [] ((pgCfg_inRange _ _ _ _ (by decide)).trans (fget_fset_self _ _ _ (by decide)))]
    rfl
  case commit => exact ⟨_, next_live hg (State.clocked_running hh _), pgCommit_committed ha⟩
  case noCommit =>
    refine next_live hg ?_
    cases hh : s.held
    · exact (State.clocked_running hh _).trans (if_neg (by rcases h with h | h <;> simp_all))
    · exact State.clocked_held hh _
  case idle =>
    have e : s.pgEdgeTrg g = s.pgEdge g := if_neg (by simp [hhi])
    exact ⟨_, next_live hg e, pgEdge_idle_effect hh hrun hhi⟩
  case active =>
    have e : s.pgEdgeTrg g = (s.pgEdge g).trgPg g (s.pgStart g + (s.pgen g).k * s.pgPeriod g) := if_pos (by simp [hrun, hh, hhi, ht])
    obtain ⟨h1, h2, h3, h4⟩ := pgEdge_active_effect hh hrun hhi ht
    have k := touches_State.trgPg (s.pgEdge g) g (s.pgStart g + (s.pgen g).k * s.pgPeriod g)
    have hpg := congrArg (fun p => SMap.get pg0 p g) (k.pg (by decide))
    have hx := next_live (f := fun t => t.pgEdgeTrg g) hg e
    refine ⟨_, hx, (congrArg Pg.hi hpg).trans h1, (congrArg Pg.mute hpg).trans h2, (k.time (by decide)).trans h3, ?_,
      (touches_execPgEdge g s).touches hx⟩
    exact ((keeps_trgIssue _ _).fld _ _ (by simp only [rPG_STATUS]; omega)).trans h4

end Sys2Proof
end

section
/-! SUPPORT. Device time: rate, slew, step and the DCLK beat (R113 to R116). -/

set_option Elab.async false

namespace Sys2Proof

open Sys2Proof.Machine

/-! ### Writes of software while it steers (R114, R115) -/

theorem hostSteer_notHost {s : State} (h : s.servoSrc ≠ 4) : s.hostSteer = s := if_neg h

theorem wrAdj_taken {s : State} {v : Word} (hs : s.stokerSteers = false) (h4 : s.servoSrc ≠ 4) (hv : (fgetS v fTBS_ADJ_ADJ).natAbs ≤ 219902325) :
    State.wrAdj .host v s = s.setFld rTBS_ADJ fTBS_ADJ_ADJ (fget v fTBS_ADJ_ADJ) := by
  have hr : (decide (fgetS v fTBS_ADJ_ADJ < -adjMax) || decide (adjMax < fgetS v fTBS_ADJ_ADJ)) = false := by
    simp only [adjMax, Bool.or_eq_false_iff, decide_eq_false_iff_not]
    omega
  have h4' : (s.setFld rTBS_ADJ fTBS_ADJ_ADJ (fget v fTBS_ADJ_ADJ)).servoSrc ≠ 4 := by
    rwa [State.servoSrc, State.fld_setFld_other _ _ _ _ (by decide)]
  simp only [State.wrAdj, hs, Bool.false_and, Bool.false_eq_true, if_false, hr, reduceCtorEq, hostSteer_notHost h4']

theorem wrAdj_dropped {s : State} {v : Word} (h : s.stokerSteers = true ∨ 219902325 < (fgetS v fTBS_ADJ_ADJ).natAbs) : State.wrAdj .host v s = s := by
  simp only [State.wrAdj]
  rcases h with h | h
  · rw [if_pos (by simp [h])]
  · have hr : (decide (fgetS v fTBS_ADJ_ADJ < -adjMax) || decide (adjMax < fgetS v fTBS_ADJ_ADJ)) = true := by
      simp only [adjMax, Bool.or_eq_true, decide_eq_true_eq]
      omega
    rw [if_pos hr]
    split <;> rfl

theorem wrSlew_dropped {s : State} (h : s.stokerSteers = true) (v : Word) : State.wrSlew .host v s = s := if_pos (by simp [h])

theorem wrSlew_keep {s : State} {v : Word} (hs : s.stokerSteers = false) (h4 : s.servoSrc ≠ 4) (hk : fget v fTBS_SLEW_KEEP = 1) :
    State.wrSlew .host v s = s.setFld rTBS_SLEW fTBS_SLEW_RATE_MAX (fget v fTBS_SLEW_RATE_MAX) := by
  have h4' : (s.setFld rTBS_SLEW fTBS_SLEW_RATE_MAX (fget v fTBS_SLEW_RATE_MAX)).servoSrc ≠ 4 := by
    rwa [State.servoSrc, State.fld_setFld_other _ _ _ _ (by decide)]
  simp only [State.wrSlew, hs, hk, Bool.false_and, Bool.false_eq_true, if_false, if_true, reduceCtorEq, hostSteer_notHost h4']

theorem wrSlew_starts {s : State} {v : Word} (hs : s.stokerSteers = false) (h4 : s.servoSrc ≠ 4) (hk : fget v fTBS_SLEW_KEEP = 0) :
    State.wrSlew .host v s = ((s.setFld rTBS_SLEW fTBS_SLEW_RATE_MAX (fget v fTBS_SLEW_RATE_MAX)).onTbs
      fun z => { z with slew := fgetS v fTBS_SLEW_OFFSET * 2 ^ 31 }).showSlew := by
  have h4' : (((s.setFld rTBS_SLEW fTBS_SLEW_RATE_MAX (fget v fTBS_SLEW_RATE_MAX)).onTbs
      fun z => { z with slew := fgetS v fTBS_SLEW_OFFSET * 2 ^ 31 }).showSlew).servoSrc ≠ 4 := by
    rw [State.servoSrc, State.showSlew, State.fld_setFld_other _ _ _ _ (by decide)]
    rwa [State.fld_onTbs, State.fld_setFld_other _ _ _ _ (by decide)]
  have hk' : ¬ (0 : Nat) = 1 := by decide
  simp only [State.wrSlew, hs, hk, hk', Bool.false_and, Bool.false_eq_true, if_false, reduceCtorEq, hostSteer_notHost h4']

theorem fgetS_range (w : Word) {f : Fld} (hw : 0 < f.w) : -2 ^ (f.w - 1) ≤ fgetS w f ∧ fgetS w f < 2 ^ (f.w - 1) := by
  obtain ⟨k, hk⟩ : ∃ k, f.w = k + 1 := ⟨f.w - 1, by omega⟩
  have hlt := fget_lt w f
  have hpn : (2 : Nat) ^ (k + 1) = 2 * 2 ^ k := by ring
  have hp : (2 : Int) ^ (k + 1) = 2 * 2 ^ k := by ring
  have hc : ((2 ^ k : Nat) : Int) = 2 ^ k := by norm_num
  rw [fgetS]
  rw [hk, hpn] at hlt
  simp only [hk, Nat.add_sub_cancel, hp, ← hc]
  split <;> omega

/-- A new correction: the part not yet applied, and what reads of it. -/
theorem wrSlew_starts_effect (s : State) (v : Word) (t : State) (ht : t = ((s.setFld rTBS_SLEW fTBS_SLEW_RATE_MAX (fget v fTBS_SLEW_RATE_MAX)).onTbs
      fun z => { z with slew := fgetS v fTBS_SLEW_OFFSET * 2 ^ 31 }).showSlew) :
    t.tbs = { s.tbs with slew := fgetS v fTBS_SLEW_OFFSET * 2 ^ 31 } ∧ t.fldS rTBS_SLEW fTBS_SLEW_OFFSET = fgetS v fTBS_SLEW_OFFSET ∧
    t.fld rTBS_SLEW fTBS_SLEW_RATE_MAX = fget v fTBS_SLEW_RATE_MAX := by
  have hlt := fget_lt v fTBS_SLEW_RATE_MAX
  obtain ⟨hlo, hhi⟩ := fgetS_range v (f := fTBS_SLEW_OFFSET) (by decide)
  subst ht
  refine ⟨by simp [State.showSlew], ?_, ?_⟩
  · refine fgetS_of_ofSigned ?_ (by decide) hlo hhi
    have hd : (fgetS v fTBS_SLEW_OFFSET * 2 ^ 31).tdiv (2 ^ 31) = fgetS v fTBS_SLEW_OFFSET := Int.mul_tdiv_cancel _ (by decide)
    rw [State.showSlew, State.onTbs_tbs]
    dsimp only
    rw [hd]
    exact State.fld_setFld_self _ _ _ _ (by decide)
  · rw [State.showSlew, State.fld_setFld_apart _ _ _ _ _ _ (by decide), State.fld_onTbs, State.fld_setFld_self _ _ _ _ (by decide)]
    exact Nat.mod_eq_of_lt hlt

/-! ### Steps (R116) -/

theorem wrStep_refused {s : State} {v : Word} (hh : s.held = false) (h : s.planActive = true ∨ (s.time40 : Int) + v.toInt * 2 ^ 31 < 0) :
    s.wrStep v = (s.setFld rTBS_STATUS fTBS_STATUS_STEP_REFUSED 1).raise 45 := by
  rw [State.wrStep, hh, if_neg (by decide), State.stepTime]
  exact if_pos (by simpa using h)

/-- A step that is taken moves device time and the marks. -/
theorem wrStep_taken {s : State} {v : Word} (hh : s.held = false) (hp : s.planActive = false) (ht : 0 ≤ (s.time40 : Int) + v.toInt * 2 ^ 31) :
    s.wrStep v = ((s.setTime40 ((s.time40 : Int) + v.toInt * 2 ^ 31).toNat).stepMarks v.toInt).raise 44 := by
  rw [State.wrStep, hh, if_neg (by decide), State.stepTime]
  exact if_neg (by simpa [hp] using ht)

/-- Device time as set, with its fraction. -/
theorem setTime40_eq (s : State) (n : Nat) : s.setTime40 n = { s with time := n / 2 ^ 40, frac := n % 2 ^ 40 } := rfl

theorem setTime40_time40 (s : State) (n : Nat) : (s.setTime40 n).time40 = n := by
  rw [State.time40, setTime40_eq]
  exact Nat.div_add_mod' n (2 ^ 40)

/-! ### The DCLK edge (R113, R115) -/

/-- The rate and the slew term together stay within 200 ppm. -/
theorem slewTerm_bound (s : State) : -219902325 ≤ s.fldS rTBS_ADJ fTBS_ADJ_ADJ + s.slewTerm := by
  unfold State.slewTerm
  simp only [adjMax]
  omega

theorem dclkEdge_effect (s : State) :
    (s.dclkEdge.time40 : Int) = s.time40 + 2 ^ 40 + s.fldS rTBS_ADJ fTBS_ADJ_ADJ + s.slewTerm ∧ s.dclkEdge.tbs.slew = s.tbs.slew - s.slewTerm ∧
    onlyIn (mRegs ||| mTime ||| mFrac ||| mTbs) [rTBS_SLEW] [] s s.dclkEdge := by
  have hb := slewTerm_bound s
  have hnn : (((s.time40 : Int) + 2 ^ 40 + s.fldS rTBS_ADJ fTBS_ADJ_ADJ + s.slewTerm).toNat : Int) =
      s.time40 + 2 ^ 40 + s.fldS rTBS_ADJ fTBS_ADJ_ADJ + s.slewTerm := Int.toNat_of_nonneg (by omega)
  have k : onlyIn (mRegs ||| mTime ||| mFrac ||| mTbs ||| mGlb) [rTBS_SLEW] [] s
      (s.setTime40 ((s.time40 : Int) + 2 ^ 40 + s.fldS rTBS_ADJ fTBS_ADJ_ADJ + s.slewTerm).toNat) :=
    .other (.refl _ _ _ _) (touches_State.setTime40 _ _)
  have ht := setTime40_time40 s ((s.time40 : Int) + 2 ^ 40 + s.fldS rTBS_ADJ fTBS_ADJ_ADJ + s.slewTerm).toNat
  have hs : (s.setTime40 ((s.time40 : Int) + 2 ^ 40 + s.fldS rTBS_ADJ fTBS_ADJ_ADJ + s.slewTerm).toNat).tbs = s.tbs :=
    (touches_State.setTime40 _ _).tbs (by decide)
  unfold State.dclkEdge
  dsimp only
  generalize s.setTime40 _ = b at *
  split
  · next h0 => exact ⟨by rw [ht, hnn], by rw [hs, h0, Int.sub_zero], .of_hi k (by decide)⟩
  · refine ⟨?_, ?_, .of_hi (.setFld (.other k (touches_State.onTbs _ _))) (by decide)⟩
    · rw [← hnn, ← ht, State.showSlew, State.time40, State.time40]
      simp
    · simp [State.showSlew, hs]

/-! ### The beat (R154) -/

/-- Samples from a square without routes go nowhere. -/
theorem feed_noRoutes {s : State} {sq : Nat} (h : s.routesFrom sq = []) (k : Nat) (xs : List Smp) : State.feed k s sq xs = s := by
  cases k with
  | zero => rfl
  | succ k =>
    rw [State.feed, h]
    split <;> rfl

/-- What a beat of the converters may change where it reaches nothing: their clips and events. -/
def quietBeat (s t : State) : Prop := Touches (mEvent ||| mCnv) s t ∧ keeps 0x30000 0x50000 s t ∧ keeps 0x60000 0x400000 s t

theorem quietBeat.trans {s t u : State} (h : quietBeat s t) (k : quietBeat t u) : quietBeat s u :=
  ⟨h.1.trans k.1, h.2.1.trans k.2.1, h.2.2.trans k.2.2⟩

theorem quietBeat.routes {s t : State} (h : quietBeat s t) (sq : Nat) : t.routesFrom sq = s.routesFrom sq := by
  obtain ⟨k, -, kp⟩ := h
  have hp : t.plan = s.plan := k.plan (by decide)
  have h0 := kp.fld rPLAN_SLOT_STATE fPLAN_SLOT_STATE_SLOT0 (by decide)
  have h1 := kp.fld rPLAN_SLOT_STATE fPLAN_SLOT_STATE_SLOT1 (by decide)
  simp only [State.routesFrom, State.routes, State.activePlan, hp, h0, h1]

theorem keeps_coreBeat {lo hi : Nat} (h : 0x20000 ≤ lo) (h' : hi ≤ 0x50000 ∨ 0x60000 ≤ lo) (s : State) {n : Nat} (hn : n < 4) (raw : List Int) :
    keeps lo hi s (s.coreBeat n raw).2 := by
  unfold State.coreBeat
  dsimp only
  generalize List.length _ = rc
  generalize List.length _ = sc
  have k : keeps lo hi s ((s.addSat (rCNV_CLIP n) fCNV_CLIP_RAW rc).addSat (rCNV_CLIP n) fCNV_CLIP_SAT sc) :=
    .addSat (.addSat (.refl _ _ _) (by simp only [rCNV_CLIP]; omega)) (by simp only [rCNV_CLIP]; omega)
  have k2 := keeps.ite (c := rc = 0) k (.other k (touches_State.clipMark _ n))
  exact .ite k2 (.raiseLim k2 (by omega))

theorem quiet_coreSamples (s : State) {n : Nat} (hn : n < 4) (ofs fl : Nat) (raw : List (BitVec 12)) :
    quietBeat s (s.coreSamples n ofs fl raw).2 :=
  ⟨touches_State.coreSamples s n ofs fl raw, keeps_coreBeat (by decide) (by decide) s hn _, keeps_coreBeat (by decide) (by decide) s hn _⟩

/-- A pair of cores without routes delivers nothing. -/
theorem quiet_pairBeat {s : State} {k : Nat} (hk : k < 2) (h : ∀ n < 4, s.routesFrom n = []) (a b : List (BitVec 12)) :
    quietBeat s (s.pairBeat k a b) := by
  have q1 := quiet_coreSamples s (n := 2 * k) (by omega) 0 (s.liveFlags (2 * k)) a
  unfold State.pairBeat
  dsimp only
  split
  · have q2 := q1.trans (quiet_coreSamples (s.coreSamples (2 * k) 0 (s.liveFlags (2 * k)) a).2 (n := 2 * k + 1) (by omega) 2048 (s.liveFlags (2 * k)) b)
    rw [feed_noRoutes ((q2.routes _).trans (h _ (by omega)))]
    exact q2
  · have q2 := q1.trans (quiet_coreSamples (s.coreSamples (2 * k) 0 (s.liveFlags (2 * k)) a).2 (n := 2 * k + 1) (by omega) 0
      (s.liveFlags (2 * k + 1)) b)
    rw [feed_noRoutes ((q2.routes _).trans (h _ (by omega))), feed_noRoutes ((q2.routes _).trans (h _ (by omega)))]
    exact q2

/-- Empty queues of stamps have nothing to drain. -/
theorem tdcBeat_empty {s : State} (h : ∀ c < 12, (s.tdcCh c).queue = []) : s.tdcBeat = s := by
  have hn : (upTo 12).find? (fun c => !(s.tdcCh c).queue.isEmpty) = none := by
    refine List.find?_eq_none.mpr fun c hc => ?_
    rw [h c (List.mem_range.mp hc)]
    decide
  rw [State.tdcBeat, hn]

/-- What a beat leaves, from the state its converters leave. -/
theorem beat_edge {s t : State} (hq : quietBeat s t) (hc : ∀ c < 12, (s.tdcCh c).queue = []) :
    let u := (if t.ready then t.tdcBeat else t).clkOutBeat
    (u.dclkEdge.time40 : Int) = s.time40 + 2 ^ 40 + s.fldS rTBS_ADJ fTBS_ADJ_ADJ + s.slewTerm ∧ u.dclkEdge.tbs.slew = s.tbs.slew - s.slewTerm := by
  intro u
  have hqueue : ∀ c < 12, (t.tdcCh c).queue = [] := fun c h =>
    (congrArg (fun z => (SMap.get tdcCh0 (Tdc.chs z) c).queue) (hq.1.tdc (by decide))).trans (hc c h)
  have hu : u = t.clkOutBeat := by
    show (if t.ready then t.tdcBeat else t).clkOutBeat = _
    rw [tdcBeat_empty hqueue, ite_self]
  have k := touches_State.clkOutBeat t
  have kt : Touches (mEvent ||| mCnv ||| mClk) s u := hu ▸ .andThen (.andThen (.refl _ _) hq.1) k
  have hr : ∀ a, 0x30000 ≤ a → a < 0x50000 → u.rd a = s.rd a := fun a h1 h2 => by
    rw [hu, State.rd_congr (k.regs (by decide))]
    exact hq.2.1 a h1 h2
  have hadj : u.fldS rTBS_ADJ fTBS_ADJ_ADJ = s.fldS rTBS_ADJ fTBS_ADJ_ADJ := congrArg (fun w => fgetS w _) (hr _ (by decide) (by decide))
  have hrate : u.fld rTBS_SLEW fTBS_SLEW_RATE_MAX = s.fld rTBS_SLEW fTBS_SLEW_RATE_MAX :=
    congrArg (fun w => fget w _) (hr _ (by decide) (by decide))
  have htbs : u.tbs = s.tbs := kt.tbs (by decide)
  have hterm : u.slewTerm = s.slewTerm := by simp only [State.slewTerm, htbs, hadj, hrate]
  have htime : u.time40 = s.time40 := by simp only [State.time40, kt.time (by decide), kt.frac (by decide)]
  obtain ⟨h1, h2, -⟩ := dclkEdge_effect u
  rw [h1, h2, hterm, hadj, htime, htbs]
  exact ⟨rfl, rfl⟩

/-- Settles O22, a clause per command and outcome. -/
theorem timeIsSteered : Obligations.TimeIsSteered := by
  refine ⟨fun v s h hs h4 hv => next_hostWr h (wrAdj_taken (s := s.dropStaged .host rTBS_ADJ) hs h4 hv),
    fun v s h hd => next_hostWr h (wrAdj_dropped (s := s.dropStaged .host rTBS_ADJ) hd),
    fun v s h hs h4 hk => next_hostWr h (wrSlew_keep (s := s.dropStaged .host rTBS_SLEW) hs h4 hk),
    fun v s h hs h4 hk => ?slew, fun v s h hs => next_hostWr h (wrSlew_dropped (s := s.dropStaged .host rTBS_SLEW) hs v),
    fun v s h hh => next_hostWr h (if_pos hh), fun v s h hh hp ht => ?step,
    fun v s h hh hr => next_hostWr h (wrStep_refused (s := s.dropStaged .host rTBS_STEP) hh hr),
    fun c0 c1 c2 c3 s => ⟨fun hh => ?still, fun hh hg hr hc => ?beat⟩⟩
  case slew =>
    obtain ⟨htbs, hoff, hrate⟩ := wrSlew_starts_effect (s.dropStaged .host rTBS_SLEW) v _ rfl
    refine ⟨_, next_hostWr h (wrSlew_starts (s := s.dropStaged .host rTBS_SLEW) hs h4 hk), htbs, hoff, hrate, .of_hi ?_ (by decide)⟩
    exact .setFld (.other (.setFld (.dropStaged (.refl _ _ _ _))) (touches_State.onTbs _ _))
  case step =>
    refine next_hostWr h ((wrStep_taken (s := s.dropStaged .host rTBS_STEP) hh hp ht).trans ?_)
    rw [setTime40_eq]
    rfl
  case still =>
    refine congrArg Host.Outcome.next (if_pos ?_)
    rcases hh with hh | hh <;> simp [hh]
  case beat =>
    generalize hb : (if s.cnvRuns then (s.pairBeat 0 c0 c1).pairBeat 1 c2 c3 else s) = b
    have hq : quietBeat s b := by
      rw [← hb]
      split
      · next hrun =>
        have hroutes := hr.resolve_left (by simp [hrun])
        have q := quiet_pairBeat (by decide : 0 < 2) hroutes c0 c1
        exact q.trans (quiet_pairBeat (by decide : 1 < 2) (fun n hn => (q.routes n).trans (hroutes n hn)) c2 c3)
      · exact ⟨.refl _ _, .refl _ _ _, .refl _ _ _⟩
    have e : s.beat c0 c1 c2 c3 = (if b.ready then b.tdcBeat else b).clkOutBeat.dclkEdge := by
      rw [State.beat, if_neg (by simp [hh, hg]), ← hb]
    obtain ⟨htime, hslew⟩ := beat_edge hq hc
    refine ⟨_, congrArg Host.Outcome.next e, htime, hslew, fun hoff => ?_⟩
    rw [hoff, if_neg (by decide)] at hb
    subst hb
    rw [tdcBeat_empty hc, ite_self]
    exact .andThen (.other (.refl _ _ _ _) (touches_State.clkOutBeat s) (e := (touches_State.clkOutBeat s).regs (by decide)))
      (dclkEdge_effect _).2.2

end Sys2Proof
end

section
/-! SUPPORT. The servo of device time (R119 to R121), and records that leave a unit (R157, R158). -/

set_option Elab.async false

namespace Sys2Proof

open Sys2Proof.Machine

/-! ### Folds within given components and registers -/

theorem onlyIn.overList {β : Type} {m : Nat} {lr srcs : List Nat} {s t : State} {g : State → β → State} {l : List β} (h : onlyIn m lr srcs s t)
    (k : ∀ v, ∀ b ∈ l, onlyIn m lr srcs v (g v b)) : onlyIn m lr srcs s (l.foldl g t) := by
  induction l generalizing t with
  | nil => exact h
  | cons b l ih => exact ih (h.trans (k t b (by simp))) fun v c hc => k v c (List.mem_cons_of_mem b hc)

/-! ### Records that leave a unit -/

theorem mem_dropRegs {d : Nat} (h : d < 96) : rGRID_SQ d ∈ dropRegs := List.mem_map_of_mem (List.mem_range.mpr h)

theorem dropRegs_range {a : Nat} (h : a ∈ dropRegs) : 0x300000 ≤ a ∧ a < 0x300300 := by
  obtain ⟨d, hd, rfl⟩ := List.mem_map.mp h
  have := List.mem_range.mp hd
  simp only [rGRID_SQ]
  omega

theorem dropRegs_hi : ∀ a ∈ dropRegs, 0x1000 ≤ a := fun a h => by have := dropRegs_range h; omega

/-- A record on a branch reaches the inbox of its port, or is counted lost. -/
theorem onlyIn_sendPort (s : State) (rt : Route) {d : Nat} (hd : isPort d = true) (r : Prod) :
    onlyIn (mEvent ||| mCtxs ||| mPorts) dropRegs [13] s (s.sendPort rt d r) := by
  have hm : d < 96 := by
    simp only [isPort, Bool.and_eq_true, decide_eq_true_eq] at hd
    omega
  refine .of_hi ?_ dropRegs_hi
  unfold State.sendPort State.dropBeats
  refine .ite (.other (.raiseLim (.other (.addSat (.refl _ _ _ _) (ha := mem_dropRegs hm)) (touches_State.loseItems _ _ _)))
    (touches_State.flagCtx _ _ _) (e := (touches_State.flagCtx _ _ _).regs (by decide))) (.other (.refl _ _ _ _) (touches_State.toPort _ _ _))

theorem onlyIn_emitRec (s : State) (sq : Nat) (r : Prod) : onlyIn (mEvent ||| mCtxs ||| mPorts) dropRegs [13] s (s.emitRec sq r) := by
  unfold State.emitRec
  exact .overList (.refl _ _ _ _) fun t rt _ => .overList (.refl _ _ _ _) fun u d hd => onlyIn_sendPort u rt (List.mem_filter.mp hd).2 _

/-! ### The servo's transitions (Table 6-1) -/

theorem tbsServo_fields : rwField rTBS_SERVO fTBS_SERVO_SOURCE = true := by decide +kernel

theorem fget_keepRange_in {old v : Word} {f : Fld} {lo hi : Nat} (h1 : lo ≤ fget v f) (h2 : fget v f ≤ hi) : keepRange old f lo hi v = v :=
  if_neg (by simp; omega)

theorem tbsServo_source (m : Nat) (old : Word) {v : Word} (h : fget v fTBS_SERVO_SOURCE ≤ 4) :
    fget (inRange .TBS_SERVO m old v) fTBS_SERVO_SOURCE = fget v fTBS_SERVO_SOURCE := by
  simp only [inRange, regRanges, List.foldl_cons, List.foldl_nil]
  generalize hw : keepRange old fTBS_SERVO_PPS_CH 0 11 _ = w
  have hs : fget w fTBS_SERVO_SOURCE = fget v fTBS_SERVO_SOURCE := by
    rw [← hw, fget_keepRange_apart _ _ _ _ _ _ (by decide), fget_keepRange_apart _ _ _ _ _ _ (by decide),
      fget_keepRange_apart _ _ _ _ _ _ (by decide), fget_keepRange_apart _ _ _ _ _ _ (by decide),
      fget_keepRange_apart _ _ _ _ _ _ (by decide), fget_keepRange_apart _ _ _ _ _ _ (by decide)]
  rw [fget_keepRange_in (Nat.zero_le _) (hs.trans_le h), hs]

theorem tbsServo_hostLock (m : Nat) (old v : Word) : fget (inRange .TBS_SERVO m old v) fTBS_SERVO_HOST_LOCK = fget v fTBS_SERVO_HOST_LOCK := by
  simp only [inRange, regRanges, List.foldl_cons, List.foldl_nil]
  rw [fget_keepRange_apart _ _ _ _ _ _ (by decide), fget_keepRange_apart _ _ _ _ _ _ (by decide), fget_keepRange_apart _ _ _ _ _ _ (by decide),
    fget_keepRange_apart _ _ _ _ _ _ (by decide), fget_keepRange_apart _ _ _ _ _ _ (by decide), fget_keepRange_apart _ _ _ _ _ _ (by decide),
    fget_keepRange_apart _ _ _ _ _ _ (by decide)]

/-- What a transition of the servo leaves: its new state, and the phase error, the last update and the other components as they were. -/
def servoMoves (s t : State) (st : Nat) : Prop :=
  t.servo = st ∧ t.fld rTBS_STATUS fTBS_STATUS_PHASE_ERR = s.fld rTBS_STATUS fTBS_STATUS_PHASE_ERR ∧ t.tbs.lastUpd = s.tbs.lastUpd ∧
  t.time = s.time

theorem servoHold_moves (s : State) : servoMoves s s.servoHold 3 ∧
    s.servoHold.fld rTBS_STATUS fTBS_STATUS_LOL_COUNT = satN 16 (s.fld rTBS_STATUS fTBS_STATUS_LOL_COUNT + 1) ∧
    onlyIn (mEvent ||| mTbs) [rTBS_STATUS] [43] s s.servoHold := by
  refine ⟨⟨?_, ?_, ?_, ?_⟩, ?_, .of_hi (.raise (.other (.addSat (.setFld (.refl _ _ _ _))) (touches_State.onTbs _ _))) (by decide)⟩
  all_goals simp (disch := decide) [State.servoHold, State.servo]

theorem servoAcquire_moves (s : State) : servoMoves s s.servoAcquire 1 ∧ s.servoAcquire.tbs.run = 0 ∧
    onlyIn (mRegs ||| mTbs) [rTBS_STATUS] [] s s.servoAcquire := by
  unfold State.servoAcquire
  refine ⟨⟨?_, ?_, ?_, ?_⟩, ?_, .of_hi (.other (.setFld (.refl _ _ _ _)) (touches_State.onTbs _ _)) (by decide)⟩
  all_goals simp (disch := decide) [State.servo]

theorem servoLock_moves (s : State) : servoMoves s s.servoLock 2 ∧ s.servoLock.tbs.lockAt = s.time ∧
    onlyIn (mEvent ||| mTbs ||| mTdc ||| mAu) [rTBS_STATUS] [42] s s.servoLock := by
  have k := touches_State.flagOpen s
  have hb : s.flagOpen.tbs = s.tbs := k.tbs (by decide)
  have ht : s.flagOpen.time = s.time := k.time (by decide)
  have hr := fun a f => State.fld_congr (flagOpen_regs s) a f
  refine ⟨⟨?_, ?_, ?_, ?_⟩, ?_, .of_hi (.raise (.other (.setFld (.other (.refl _ _ _ _) k (e := flagOpen_regs s))) (touches_State.onTbs _ _)))
    (by decide)⟩
  all_goals simp (disch := decide) [State.servoLock, State.servo, hb, ht, hr]

/-! ### Writes of TBS_SERVO (R120) -/

/-- What follows a write of TBS_SERVO by its codes. -/
theorem servo_written (s : State) (v : Word) : (s.wrCodes rTBS_SERVO v []).servoSrc = fget v fTBS_SERVO_SOURCE ∧
    (s.wrCodes rTBS_SERVO v []).servo = s.servo :=
  ⟨State.fld_wrCodes_rw _ tbsServo_fields _ [], State.fld_wrCodes_other _ _ _ _ (by decide)⟩

theorem wrServo_off {s : State} {v : Word} (hv : fget v fTBS_SERVO_SOURCE = 0) : (State.wrServo v s).servoSrc = 0 ∧ (State.wrServo v s).servo = 0 ∧
    onlyIn (mRegs ||| mTdc ||| mAu) [rTBS_SERVO, rTBS_STATUS] [] s (State.wrServo v s) := by
  obtain ⟨hsrc, hst⟩ := servo_written s v
  generalize hb : s.wrCodes rTBS_SERVO v [] = b at hsrc hst
  have kb : onlyIn (mRegs ||| mTdc ||| mAu ||| mGlb) [rTBS_SERVO, rTBS_STATUS] [] s b := hb ▸ .wrCodes (.refl _ _ _ _)
  rw [hv] at hsrc
  simp only [State.wrServo, hb, hsrc, if_true]
  by_cases h0 : s.servo = 0
  · rw [if_pos h0]
    exact ⟨hsrc, hst.trans h0, .of_hi kb (by decide)⟩
  · rw [if_neg h0]
    have hc : ∀ c : State, c.regs = b.regs → onlyIn (mRegs ||| mTdc ||| mAu ||| mGlb) [rTBS_SERVO, rTBS_STATUS] [] s c →
        (c.setFld rTBS_STATUS fTBS_STATUS_STATE 0).servoSrc = 0 ∧ (c.setFld rTBS_STATUS fTBS_STATUS_STATE 0).servo = 0 ∧
        onlyIn (mRegs ||| mTdc ||| mAu) [rTBS_SERVO, rTBS_STATUS] [] s (c.setFld rTBS_STATUS fTBS_STATUS_STATE 0) := fun c hr kc => by
      refine ⟨?_, State.fld_setFld_self _ _ _ _ (by decide), .of_hi (.setFld kc) (by decide)⟩
      rw [State.servoSrc, State.fld_setFld_other _ _ _ _ (by decide), State.fld_congr hr]
      exact hsrc
    split
    · exact hc b rfl kb
    · exact hc _ (flagOpen_regs b) (.other kb (touches_State.flagOpen b) (e := flagOpen_regs b))

theorem wrServo_begins {s : State} {v : Word} (h0 : s.servo = 0) (hv : fget v fTBS_SERVO_SOURCE ≠ 0) :
    State.wrServo v s = (s.wrCodes rTBS_SERVO v []).servoAcquire := by
  simp only [State.wrServo, (servo_written s v).1, hv, h0, if_false, if_true]

theorem wrServo_locks {s : State} {v : Word} (h1 : s.servo = 1) (hv : fget v fTBS_SERVO_SOURCE = 4) (hl : fget v fTBS_SERVO_HOST_LOCK = 1) :
    State.wrServo v s = (s.wrCodes rTBS_SERVO v []).servoLock := by
  simp [State.wrServo, (servo_written s v).1, hv, h1, hl]

theorem wrServo_falls {s : State} {v : Word} (h2 : s.servo = 2) (hv : fget v fTBS_SERVO_SOURCE = 4) (hl : fget v fTBS_SERVO_HOST_LOCK = 0) :
    State.wrServo v s = (s.wrCodes rTBS_SERVO v []).servoHold := by
  simp [State.wrServo, (servo_written s v).1, hv, h2, hl]

/-! ### Updates of the phase (R119, R121) -/

/-- What an update leaves of the base it starts from. -/
def servoKeeps (s t : State) : Prop := t.fld rTBS_STATUS fTBS_STATUS_PHASE_ERR = s.fld rTBS_STATUS fTBS_STATUS_PHASE_ERR ∧
  t.tbs.lastUpd = s.tbs.lastUpd ∧ onlyIn (mEvent ||| mTbs ||| mTdc ||| mAu) [rTBS_STATUS] [42, 43] s t

theorem servoKeeps_run (s : State) (n : Nat) : servoKeeps s (s.onTbs fun z => { z with run := n }) :=
  ⟨rfl, rfl, .other (.refl _ _ _ _) (touches_State.onTbs _ _)⟩

theorem servoKeeps_moves {s t : State} {n : Nat} {m : Nat} {srcs : List Nat} (h : servoMoves s t n) (k : onlyIn m [rTBS_STATUS] srcs s t)
    (hm : m &&& (mEvent ||| mTbs ||| mTdc ||| mAu) = m := by decide) (hs : srcs ⊆ [42, 43] := by simp) : servoKeeps s t :=
  ⟨h.2.1, h.2.2.1, k.mono hm (by simp) hs⟩

theorem servoKeeps.trans {s t u : State} (h : servoKeeps s t) (k : servoKeeps t u) : servoKeeps s u :=
  ⟨k.1.trans h.1, k.2.1.trans h.2.1, h.2.2.trans k.2.2⟩

/-- An update records the phase error and its time; the transitions that follow keep both. -/
theorem servoUpdate_keeps (s : State) (e : Int) : servoKeeps
    ((s.setFld rTBS_STATUS fTBS_STATUS_PHASE_ERR (ofSigned 32 (satS 32 e))).onTbs fun z => { z with lastUpd := s.time }) (s.servoUpdate e) := by
  generalize hb : ((s.setFld rTBS_STATUS fTBS_STATUS_PHASE_ERR (ofSigned 32 (satS 32 e))).onTbs fun z => { z with lastUpd := s.time }) = b
  have hb' : ((s.setFld rTBS_STATUS fTBS_STATUS_PHASE_ERR (ofSigned 32 (satS 32 e))).onTbs fun z =>
    { z with lastUpd := (s.setFld rTBS_STATUS fTBS_STATUS_PHASE_ERR (ofSigned 32 (satS 32 e))).time }) = b := by
    rw [State.setFld_time]
    exact hb
  unfold State.servoUpdate
  simp only [hb']
  split
  · exact servoKeeps_moves (servoAcquire_moves b).1 (servoAcquire_moves b).2.2
  · split
    · have hr := servoKeeps_run b (b.tbs.run + 1)
      split
      · obtain ⟨h, -, k⟩ := servoLock_moves (b.onTbs fun z => { z with run := b.tbs.run + 1 })
        exact hr.trans (servoKeeps_moves h k)
      · exact hr
    · exact servoKeeps_run b 0
  · split
    · exact servoKeeps_moves (servoHold_moves b).1 (servoHold_moves b).2.2
    · exact ⟨rfl, rfl, .refl _ _ _ _⟩
  · exact ⟨rfl, rfl, .refl _ _ _ _⟩

theorem satS_range (e : Int) : -2 ^ 31 ≤ satS 32 e ∧ satS 32 e < 2 ^ 31 := by
  unfold satS
  split
  · exact ⟨le_refl _, by decide⟩
  · split
    · exact ⟨by decide, by decide⟩
    · exact ⟨by omega, by omega⟩

/-- The value the Stoker's loop writes to ADJ keeps the range of R114. -/
theorem servoSteer_effect (s : State) : (fgetS (s.servoSteer.rd rTBS_ADJ) fTBS_ADJ_ADJ).natAbs ≤ 219902325 ∧ s.servoSteer.tbs = s.tbs ∧
    s.servoSteer.time = s.time ∧ onlyIn (mRegs ||| mFreeCtr) [rTBS_ADJ] [] s s.servoSteer := by
  simp only [State.servoSteer, State.fresh, adjMax]
  generalize Config.servoAdj s.freeCtr = a
  refine ⟨?_, by simp, by simp, .of_hi (.setFld (.other (.refl _ _ _ _) (touches_State.onFreeCtr _ _))) (by decide)⟩
  generalize hx : max (-219902325) (min 219902325 a) = x
  have h1 : -219902325 ≤ x ∧ x ≤ 219902325 := by omega
  have h2 : fgetS (((s.onFreeCtr fun _ => s.freeCtr + 1).setFld rTBS_ADJ fTBS_ADJ_ADJ (ofSigned 32 x)).rd rTBS_ADJ) fTBS_ADJ_ADJ = x := by
    refine fgetS_of_ofSigned ?_ (by decide) ?_ ?_
    · exact State.fld_setFld_self _ _ _ _ (by decide)
    · exact le_trans (by decide) h1.1
    · exact lt_of_le_of_lt h1.2 (by decide)
  rw [h2]
  omega

/-- Settles O23, a clause per command and outcome. -/
theorem servoStates : Obligations.ServoStates := by
  refine ⟨fun v s h hv => ?off, fun v s h h0 h1 h4 => ?begins, fun v s h h1 h4 hl => ?locks, fun v s h h2 h4 hl => ?falls,
    fun s hg hh h2 hs => ?miss, fun s hg h => ?noMiss, fun s hg h => ?noHost, fun s hg hh h2 h4 => ?host, fun off s hg h2 => ?ptp,
    fun off step s hg h2 h3 => next_live hg (if_neg (by simp [h2, h3]))⟩
  case off =>
    obtain ⟨hsrc, hst, k⟩ := wrServo_off (s := s.dropStaged .host rTBS_SERVO) ((tbsServo_source 0 (s.rd rTBS_SERVO) (by omega)).trans hv)
    exact ⟨_, next_hostWr h rfl, hsrc, hst, .andThen (.of_hi (.dropStaged (.refl _ _ _ _)) (by decide)) k⟩
  case begins =>
    have hv := tbsServo_source 0 (s.rd rTBS_SERVO) h4
    generalize hw : inRange .TBS_SERVO 0 (s.rd rTBS_SERVO) v = w at hv
    obtain ⟨hm, hrun, k⟩ := servoAcquire_moves ((s.dropStaged .host rTBS_SERVO).wrCodes rTBS_SERVO w [])
    refine ⟨_, next_hostWr h ((congrArg (fun x => State.wrServo x _) hw).trans
      (wrServo_begins (s := s.dropStaged .host rTBS_SERVO) h0 (by omega))), ?_, hm.1, hrun,
      .andThen (.of_hi (.wrCodes (.dropStaged (.refl _ _ _ _))) (by decide)) k⟩
    rw [State.servoSrc, State.fld, k.2 _ (by decide) (by simp)]
    exact (servo_written _ w).1.trans hv
  case locks =>
    have hv := tbsServo_source 0 (s.rd rTBS_SERVO) (v := v) (by omega)
    have hl' := tbsServo_hostLock 0 (s.rd rTBS_SERVO) v
    generalize hw : inRange .TBS_SERVO 0 (s.rd rTBS_SERVO) v = w at hv hl'
    obtain ⟨hm, hat, k⟩ := servoLock_moves ((s.dropStaged .host rTBS_SERVO).wrCodes rTBS_SERVO w [])
    refine ⟨_, next_hostWr h ((congrArg (fun x => State.wrServo x _) hw).trans
      (wrServo_locks (s := s.dropStaged .host rTBS_SERVO) h1 (hv.trans h4) (hl'.trans hl))), hm.1,
      hat.trans ((touches_State.wrCodes _ _ _ _).time (by decide)), .andThen (.of_hi (.wrCodes (.dropStaged (.refl _ _ _ _))) (by decide)) k⟩
  case falls =>
    have hv := tbsServo_source 0 (s.rd rTBS_SERVO) (v := v) (by omega)
    have hl' := tbsServo_hostLock 0 (s.rd rTBS_SERVO) v
    generalize hw : inRange .TBS_SERVO 0 (s.rd rTBS_SERVO) v = w at hv hl'
    obtain ⟨hm, hlol, k⟩ := servoHold_moves ((s.dropStaged .host rTBS_SERVO).wrCodes rTBS_SERVO w [])
    refine ⟨_, next_hostWr h ((congrArg (fun x => State.wrServo x _) hw).trans
      (wrServo_falls (s := s.dropStaged .host rTBS_SERVO) h2 (hv.trans h4) (hl'.trans hl))), hm.1, hlol.trans ?_,
      .andThen (.of_hi (.wrCodes (.dropStaged (.refl _ _ _ _))) (by decide)) k⟩
    rw [State.fld_wrCodes_other _ _ _ _ (by decide), State.fld_dropStaged]
  case miss =>
    have e : s.servoMiss = (s.reach (s.tbs.lastUpd + s.secTicks (s.fld rTBS_SERVO fTBS_SERVO_MISS))).servoHold := if_pos (by simp [h2, hs])
    obtain ⟨hm, -, k⟩ := servoHold_moves (s.reach (s.tbs.lastUpd + s.secTicks (s.fld rTBS_SERVO fTBS_SERVO_MISS)))
    exact ⟨_, next_live hg ((State.clocked_running hh _).trans e), hm.1, hm.2.2.2.trans (State.reach_time_running hh _),
      .andThen (.other (.refl _ _ _ _) (touches_State.reach _ _) (e := (touches_State.reach _ _).regs (by decide))) k⟩
  case noMiss =>
    refine next_live hg ?_
    cases hh : s.held
    · exact (State.clocked_running hh _).trans (if_neg (by rcases h with h | h | h <;> simp_all))
    · exact State.clocked_held hh _
  case noHost =>
    refine next_live hg ?_
    cases hh : s.held
    · exact (State.clocked_running hh _).trans (if_neg (by rcases h with h | h | h <;> simp_all))
    · exact State.clocked_held hh _
  case host =>
    generalize hT : max s.tbs.lastUpd s.tbs.lockAt + s.secTicks (s.fld rTBS_SERVO fTBS_SERVO_HOST_TIMEOUT) = T
    have e : s.servoHostTimeout = ((s.reach T).raise 46).servoHold := hT ▸ if_pos (by simp [h2, h4])
    obtain ⟨hm, -, k⟩ := servoHold_moves ((s.reach T).raise 46)
    refine ⟨_, next_live hg ((State.clocked_running hh _).trans e), hm.1, hm.2.2.2.trans ((State.raise_time _ _ _ _ _).trans
      (State.reach_time_running hh _)), ?_⟩
    exact .andThen (.raise (.other (.refl _ _ _ _) (touches_State.reach _ _) (e := (touches_State.reach _ _).regs (by decide)))) k
  case ptp =>
    have e : s.ptpUpdate off false = s.servoSteer.servoUpdate off := by
      simp [State.ptpUpdate, State.servoJump, h2]
    obtain ⟨hadj, htbs, htime, ks⟩ := servoSteer_effect s
    obtain ⟨hpe, hupd, k⟩ := servoUpdate_keeps s.servoSteer off
    obtain ⟨hlo, hhi⟩ := satS_range off
    refine ⟨_, next_live hg e, ?_, ?_, ?_, ?_⟩
    · refine fgetS_of_ofSigned (hpe.trans ?_) (by decide) hlo hhi
      rw [State.fld_onTbs, State.fld_setFld_self _ _ _ _ (by decide)]
    · rw [hupd, State.onTbs_tbs, htime]
    · rw [k.2 _ (by decide) (by decide), State.rd_onTbs, State.rd_setFld_other _ _ _ (by decide)]
      exact hadj
    · refine .andThen (.of_hi (.other (.setFld (.andThen (.refl _ _ _ _) ks)) (touches_State.onTbs _ _)) (by decide)) k

end Sys2Proof
end

section
/-! SUPPORT. The time inputs: stamping, flushes and frequency by regression (R122 to R134). -/

set_option Elab.async false

namespace Sys2Proof

open Sys2Proof.Machine

/-! ### Edges (R122 to R125) -/

theorem reach_fld (s : State) (t a : Nat) (f : Fld) : (s.reach t).fld a f = s.fld a f :=
  State.fld_congr ((touches_State.reach s t).regs (by decide)) a f

theorem reach_tdcCh (s : State) (t c : Nat) : (s.reach t).tdcCh c = s.tdcCh c :=
  congrArg (fun z => SMap.get tdcCh0 (Tdc.chs z) c) ((touches_State.reach s t).tdc (by decide))

theorem reach_held (s : State) (t : Nat) : (s.reach t).held = s.held :=
  congrArg (fun z => Clk.stage z != .idle) ((touches_State.reach s t).clk (by decide))

theorem reach_stamps (s : State) (t c : Nat) : (s.reach t).tdcStamps c = s.tdcStamps c := by
  rw [State.tdcStamps, State.flag, reach_fld]
  rfl

theorem reach_tickFs (s : State) (t : Nat) : (s.reach t).tickFs = s.tickFs := reach_fld s t _ _

/-- An edge outside a thermal stop. -/
theorem exec_tdcEdge {s u : State} {c : Fin 12} {t : Nat} {r : Bool} (hg : s.glb ≠ 0) (hs : s.flag rTHM_STATUS fTHM_STATUS_STOPPED = false)
    (e : s.edgeIn c t r = u) : exec (.tdcEdge c t r) s = .next u := next_live hg ((if_neg (by simp [hs])).trans e)

/-- An edge that the channel does not select, or of a channel that does not stamp. -/
theorem tdcEdge_none {s : State} {c t : Nat} {r : Bool} (h : (s.fld (rTDC_CH c) fTDC_CH_SLOPE = 0 ∧ r = false) ∨
    (s.fld (rTDC_CH c) fTDC_CH_SLOPE = 1 ∧ r = true) ∨ s.tdcStamps c = false) : s.tdcEdge c t r = (s.reach (t / 512), .none) := by
  unfold State.tdcEdge
  refine if_pos ?_
  rw [reach_fld, reach_stamps]
  rcases h with ⟨h, rfl⟩ | ⟨h, rfl⟩ | h <;> simp [h]

/-- An edge that the channel selects. -/
theorem tdcEdge_selected {s : State} {c : Nat} {r : Bool} (hst : s.tdcStamps c = true) (h0 : ¬ (s.fld (rTDC_CH c) fTDC_CH_SLOPE = 0 ∧ r = false))
    (h1 : ¬ (s.fld (rTDC_CH c) fTDC_CH_SLOPE = 1 ∧ r = true)) (t : Nat) :
    ((decide ((s.reach (t / 512)).fld (rTDC_CH c) fTDC_CH_SLOPE = 0) && !r) || (decide ((s.reach (t / 512)).fld (rTDC_CH c) fTDC_CH_SLOPE = 1) && r) ||
      !(s.reach (t / 512)).tdcStamps c) = false := by
  rw [reach_fld, reach_stamps, hst]
  cases r <;> simp_all

/-- An edge within the dead time, or while the dividers are held. -/
theorem tdcEdge_lost {s : State} {c t : Nat} {r : Bool} (hst : s.tdcStamps c = true) (h0 : ¬ (s.fld (rTDC_CH c) fTDC_CH_SLOPE = 0 ∧ r = false))
    (h1 : ¬ (s.fld (rTDC_CH c) fTDC_CH_SLOPE = 1 ∧ r = true))
    (h : s.held = true ∨ ∃ l, (s.tdcCh c).last = some l ∧ ((t : Int) - l) * s.tickFs < 2000000 * 512) :
    s.tdcEdge c t r = ((s.reach (t / 512)).tdcLose c, .lost) := by
  unfold State.tdcEdge
  refine (if_neg (by rw [tdcEdge_selected hst h0 h1 t]; decide)).trans (if_pos ?_)
  rw [reach_held, reach_tdcCh, reach_tickFs]
  rcases h with h | ⟨l, h, hd⟩
  · rw [h, Bool.true_or]
  · rw [h]
    simp only [Bool.or_eq_true, decide_eq_true_eq]
    exact .inr hd

theorem tdcLose_effect (s : State) (c : Fin 12) : (s.tdcLose c).fld (rTDC_CH_STAT c) fTDC_CH_STAT_LOST =
      satN fTDC_CH_STAT_LOST.w (s.fld (rTDC_CH_STAT c) fTDC_CH_STAT_LOST + 1) ∧
    (s.tdcLose c).tdcCh c = { s.tdcCh c with loss := true } ∧ (s.tdcLose c).time = s.time ∧
    onlyIn (mEvent ||| mTdc) [rTDC_CH_STAT c] [160 + c.val] s (s.tdcLose c) := by
  unfold State.tdcLose
  refine ⟨?_, ?_, ?_, .of_hi (.raiseLim (.addSat (.other (.refl _ _ _ _) (touches_State.updTdc _ _ _)))) (by simp [rTDC_CH_STAT]; omega)⟩
  · rw [State.fld_raiseLim_other _ _ _ _ _ _ _ _ _ (by simp only [rTDC_CH_STAT]; omega), State.fld_addSat_self _ _ _ _ (by decide)]
    rfl
  · simp [State.tdcCh]
  · simp

/-- What a stamped edge of channel `c` leaves before it is passed on: the channel's time, and its count. -/
def stamped (s : State) (c t : Nat) (era : Bool) : State :=
  (((s.reach (t / 512)).updTdc c fun y => { y with last := some (t : Int), era := era }).addMod (rTDC_CH_COUNT c) fTDC_CH_COUNT_STAMPS 1)

/-- The stamp passed on: to the regression and the queue where EN is 1. -/
def stampPassed (s : State) (c u : Nat) (loss : Bool) (w : Word) : State :=
  if s.flag (rTDC_CH c) fTDC_CH_EN then (s.freqTake c u loss).tdcEnqueue c w else s.updTdc c fun y => { y with loss := false }

/-- An edge that is stamped. -/
theorem tdcEdge_stamped {s : State} {c t : Nat} {r : Bool} (hst : s.tdcStamps c = true) (h0 : ¬ (s.fld (rTDC_CH c) fTDC_CH_SLOPE = 0 ∧ r = false))
    (h1 : ¬ (s.fld (rTDC_CH c) fTDC_CH_SLOPE = 1 ∧ r = true)) (hh : s.held = false)
    (hd : ∀ l, (s.tdcCh c).last = some l → 2000000 * 512 ≤ ((t : Int) - l) * s.tickFs) : ∃ (era loss : Bool) (u : Nat) (w : Word),
    s.tdcEdge c t r = (if (stampPassed (stamped s c t era) c u loss w).flag (rTDC_CH c) fTDC_CH_EN
      then (stampPassed (stamped s c t era) c u loss w).ppsUpdate c u else stampPassed (stamped s c t era) c u loss w, .stamped u loss w) := by
  unfold State.tdcEdge
  refine ⟨_, _, _, _, (if_neg (by rw [tdcEdge_selected hst h0 h1 t]; decide)).trans (if_neg ?_)⟩
  rw [reach_held, reach_tdcCh, reach_tickFs, hh, Bool.false_or]
  cases hl : (s.tdcCh c).last with
  | none => simp
  | some l =>
    have := hd l hl
    simp only [decide_eq_true_eq]
    omega

/-- What changes no register but QDROP's, and neither the channel's time nor device time. -/
def passes (c : Nat) (s t : State) : Prop :=
  (∀ lo hi, 0x20000 ≤ lo → rTDC_CH_STAT c < lo ∨ hi ≤ rTDC_CH_STAT c → keeps lo hi s t) ∧ (t.tdcCh c).last = (s.tdcCh c).last ∧ t.time = s.time

theorem passes.trans {c : Nat} {s t u : State} (h : passes c s t) (k : passes c t u) : passes c s u :=
  ⟨fun lo hi h1 h2 => (h.1 lo hi h1 h2).trans (k.1 lo hi h1 h2), k.2.1.trans h.2.1, k.2.2.trans h.2.2⟩

theorem passes_updTdc (c : Nat) (s : State) {f : TdcCh → TdcCh} (h : ∀ x, (f x).last = x.last) : passes c s (s.updTdc c f) :=
  ⟨fun _ _ _ _ => .other (.refl _ _ _) (touches_State.updTdc _ _ _), by simp [State.tdcCh, h], rfl⟩

theorem passes_other {m c : Nat} {s t : State} (k : Touches m s t) (h1 : m.testBit 1 = false := by decide) (h24 : m.testBit 24 = false := by decide)
    (h7 : m.testBit 7 = false := by decide) : passes c s t :=
  ⟨fun _ _ _ _ => .other (.refl _ _ _) k h1, congrArg (fun z => (SMap.get tdcCh0 (Tdc.chs z) c).last) (k.tdc h24), k.time h7⟩

theorem passes_freqTake (c : Nat) (s : State) (d u : Nat) (loss : Bool) : passes c s (s.freqTake d u loss) := by
  have k : ∀ f : Tdc → Tdc, (∀ z, (f z).chs = z.chs) → passes c s (s.onTdc f) := fun f h =>
    ⟨fun _ _ _ _ => .other (.refl _ _ _) (touches_State.onTdc _ _), by simp [State.tdcCh, h], rfl⟩
  unfold State.freqTake
  dsimp only
  split
  · split
    · exact k _ fun _ => rfl
    · exact k _ fun _ => rfl
  · exact passes_other (Touches.refl 0 s)

theorem passes_tdcEnqueue (s : State) {c : Nat} (hc : c < 12) (w : Word) : passes c s (s.tdcEnqueue c w) := by
  have hq : ∀ t : State, passes c t ((t.addSat (rTDC_CH_STAT c) fTDC_CH_STAT_QDROP 1).raiseLim 1000 (172 + c)) := fun t => by
    have k : Touches (mEvent ||| mGlb) t ((t.addSat (rTDC_CH_STAT c) fTDC_CH_STAT_QDROP 1).raiseLim 1000 (172 + c)) :=
      .andThen (.andThen (.refl _ _) (touches_State.addSat _ _ _ _)) (touches_State.raiseLim _ _ _ _ _ _ _)
    refine ⟨fun lo hi h1 h2 => .raiseLim (.addSat (.refl _ _ _) h2) (by omega), ?_, k.time (by decide)⟩
    exact congrArg (fun z => (SMap.get tdcCh0 (Tdc.chs z) c).last) (k.tdc (by decide))
  have hl : ∀ (t : State) (x n : Nat), passes c t (t.loseItems x n) := fun t x n => passes_other (touches_State.loseItems t x n)
  unfold State.tdcEnqueue
  split
  · exact passes_updTdc c s fun _ => rfl
  · split
    · have k1 : passes c s (s.updTdc c fun y => { y with loss := true }) := passes_updTdc c s fun _ => rfl
      exact (k1.trans (hq _)).trans (hl _ _ _)
    · split
      · have k1 : passes c s (s.updTdc c fun y => { y with loss := false }) := passes_updTdc c s fun _ => rfl
        exact k1.trans (hl _ _ _)
      · exact passes_updTdc c s fun _ => rfl

theorem passes_stampPassed (s : State) {c : Nat} (hc : c < 12) (u : Nat) (loss : Bool) (w : Word) : passes c s (stampPassed s c u loss w) := by
  unfold stampPassed
  split
  · exact (passes_freqTake c s c u loss).trans (passes_tdcEnqueue _ hc w)
  · exact passes_updTdc c s fun _ => rfl

/-- What the servo does on its 1PPS writes no register of the time inputs. -/
theorem keeps_ppsUpdate (s : State) (c u : Nat) : keeps 0x70000 0x71000 s (s.ppsUpdate c u) := by
  have hstep : ∀ (t : State) (v : Word), keeps 0x70000 0x71000 t (t.wrStep v) := fun t v => by
    unfold State.wrStep State.stepTime
    exact .ite (.other (.refl _ _ _) (touches_State.onTbs _ _)) (.ite (.raise (.setFld (.refl _ _ _) (by decide)) (by decide))
      (.raise (.other (.other (.refl _ _ _) (touches_State.setTime40 _ _)) (touches_State.stepMarks _ _)) (by decide)))
  have hjump : ∀ (t : State) (e : Int) (j : Bool), keeps 0x70000 0x71000 t (t.servoJump e j) := fun t e j => by
    unfold State.servoJump
    exact .ite (.ite (.setFld (.other (.refl _ _ _) (touches_State.onTbs _ _)) (by decide)) (hstep t _)) (.refl _ _ _)
  have hsteer : ∀ t : State, keeps 0x70000 0x71000 t t.servoSteer := fun t => (servoSteer_effect t).2.2.2.keeps (by decide) (by simp)
  have hupd : ∀ (t : State) (e : Int), keeps 0x70000 0x71000 t (t.servoUpdate e) := fun t e =>
    .trans (.other (.setFld (.refl _ _ _) (by decide)) (touches_State.onTbs _ _)) ((servoUpdate_keeps t e).2.2.keeps (by decide) (by decide))
  unfold State.ppsUpdate
  dsimp only
  refine .ite ?_ (.refl _ _ _)
  exact .trans (.trans (.trans (.other (.refl _ _ _) (touches_State.onFreeCtr _ _)) (hjump _ _ _)) (hsteer _)) (hupd _ _)

theorem ppsUpdate_other {s : State} {c : Nat} (h : s.servoSrc = 1 ∨ s.servoSrc = 3 → s.fld rTBS_SERVO fTBS_SERVO_PPS_CH ≠ c) (u : Nat) :
    s.ppsUpdate c u = s := by
  refine if_neg ?_
  simp only [Bool.and_eq_true, Bool.or_eq_true, decide_eq_true_eq]
  exact fun ⟨h1, h2⟩ => h h1 h2

theorem stamped_effect {s : State} (hh : s.held = false) (c t : Nat) (era : Bool) :
    (stamped s c t era).fld (rTDC_CH_COUNT c) fTDC_CH_COUNT_STAMPS = (s.fld (rTDC_CH_COUNT c) fTDC_CH_COUNT_STAMPS + 1) % 2 ^ fTDC_CH_COUNT_STAMPS.w ∧
    ((stamped s c t era).tdcCh c).last = some (t : Int) ∧ (stamped s c t era).time = max s.time (t / 512) ∧
    keeps 0x30000 0x31000 s (stamped s c t era) := by
  unfold stamped
  refine ⟨?_, ?_, ?_, .addMod (.other (.other (.refl _ _ _) (touches_State.reach _ _)) (touches_State.updTdc _ _ _))
    (by simp only [rTDC_CH_COUNT]; omega)⟩
  · rw [State.fld_addMod_self _ _ _ _ (by decide)]
    exact congrArg (fun n => (n + 1) % 2 ^ fTDC_CH_COUNT_STAMPS.w) (reach_fld s _ _ _)
  · simp [State.tdcCh]
  · rw [State.addMod_time]
    exact State.reach_time_running hh _


/-- What a stamped edge of channel `c` at `t` leaves: its count; and, unless it is the servo's 1PPS, its time and device time. -/
theorem edgeIn_stamped {s : State} {c : Fin 12} {t : Nat} {r : Bool} (hst : s.tdcStamps c = true)
    (h0 : ¬ (s.fld (rTDC_CH c) fTDC_CH_SLOPE = 0 ∧ r = false)) (h1 : ¬ (s.fld (rTDC_CH c) fTDC_CH_SLOPE = 1 ∧ r = true)) (hh : s.held = false)
    (hd : ∀ l, (s.tdcCh c).last = some l → 2000000 * 512 ≤ ((t : Int) - l) * s.tickFs) :
    (s.edgeIn c t r).fld (rTDC_CH_COUNT c) fTDC_CH_COUNT_STAMPS = (s.fld (rTDC_CH_COUNT c) fTDC_CH_COUNT_STAMPS + 1) % 2 ^ fTDC_CH_COUNT_STAMPS.w ∧
    ((s.servoSrc = 1 ∨ s.servoSrc = 3 → s.fld rTBS_SERVO fTBS_SERVO_PPS_CH ≠ c) → ((s.edgeIn c t r).tdcCh c).last = some (t : Int) ∧
      (s.edgeIn c t r).time = max s.time (t / 512)) := by
  obtain ⟨era, loss, u, w, e⟩ := tdcEdge_stamped hst h0 h1 hh hd
  obtain ⟨hcount, hlast, htime, ks⟩ := stamped_effect hh c t era
  have hp := passes_stampPassed (stamped s c t era) c.isLt u loss w
  generalize stamped s c t era = a at *
  generalize hb : stampPassed a c u loss w = b at *
  generalize hx : (if b.flag (rTDC_CH c) fTDC_CH_EN then b.ppsUpdate c u else b) = x at e
  have kx : keeps 0x70000 0x71000 b x := hx ▸ .ite (keeps_ppsUpdate b c u) (.refl _ _ _)
  have hedge : s.edgeIn c t r = if 8 ≤ c.val || x.flag (rTDC_CH c) fTDC_CH_EN then x.trgTdc c u loss w else x := by
    rw [State.edgeIn, e]
  have hin : 0x70000 ≤ rTDC_CH_COUNT c ∧ rTDC_CH_COUNT c < 0x71000 := by simp only [rTDC_CH_COUNT]; omega
  have ke : keeps 0 0xe0000 x (s.edgeIn c t r) := hedge ▸ .ite (keeps_trgIssue _ _) (.refl _ _ _)
  have kt : Touches (mRegs ||| mTq) x (s.edgeIn c t r) := by
    rw [hedge]
    split
    · exact touches_State.trgTdc _ _ _ _ _
    · exact .refl _ _
  constructor
  · rw [ke.fld _ _ (by omega), kx.fld _ _ hin, (hp.1 (rTDC_CH_COUNT c) (rTDC_CH_COUNT c + 1) (by omega) (by simp only [rTDC_CH_COUNT, rTDC_CH_STAT]; omega)).fld
      _ _ (by omega), hcount]
  · intro hpps
    have ksb := (ks.trans (hp.1 0x30000 0x31000 (by decide) (by simp only [rTDC_CH_STAT]; omega)))
    have hxb : x = b := by
      rw [← hx]
      have hsrc := ksb.fld rTBS_SERVO fTBS_SERVO_SOURCE (by decide)
      have hch := ksb.fld rTBS_SERVO fTBS_SERVO_PPS_CH (by decide)
      rw [ppsUpdate_other (by rw [State.servoSrc, hsrc, hch]; exact hpps), ite_self]
    subst hxb
    exact ⟨(congrArg (fun z => (SMap.get tdcCh0 (Tdc.chs z) c).last) (kt.tdc (by decide))).trans (hp.2.1.trans hlast),
      (kt.time (by decide)).trans (hp.2.2.trans htime)⟩

/-! ### Flushes (R127) -/

theorem tdcFlush_closes {s : State} {c : Nat} (hq : (s.tdcCh c).queue = []) (ho : (s.tdcCh c).open_ ≠ []) :
    s.tdcFlush c = (s.reach ((s.tdcCh c).openAt + s.usTicks (s.fld rTDC_CTRL fTDC_CTRL_FLUSH_US))).tdcClose c := by
  have he : (s.tdcCh c).open_.isEmpty = false := by simpa using ho
  simp only [State.tdcFlush, he, hq, Bool.false_and, Bool.false_eq_true, if_false, List.length_nil, State.tdcDrain]

theorem tdcClose_effect {s : State} {c : Nat} (ho : (s.tdcCh c).open_ ≠ []) : ((s.tdcClose c).tdcCh c).open_ = [] ∧
    ((s.tdcClose c).tdcCh c).queue = (s.tdcCh c).queue ∧ (s.tdcClose c).time = s.time ∧
    onlyIn (mEvent ||| mCtxs ||| mPorts ||| mTdc) dropRegs [13] s (s.tdcClose c) := by
  obtain ⟨w, l, hl⟩ : ∃ w l, (s.tdcCh c).open_ = w :: l := List.exists_cons_of_ne_nil ho
  obtain ⟨r, e⟩ : ∃ r, s.tdcClose c = (s.updTdc c fun x => { x with open_ := [], fl := 0 }).emitRec 69 r := by
    simp only [State.tdcClose, hl]
    exact ⟨_, rfl⟩
  rw [e]
  have k := onlyIn_emitRec (s.updTdc c fun x => { x with open_ := [], fl := 0 }) 69 r
  have ht := congrArg (fun z => SMap.get tdcCh0 (Tdc.chs z) c) (k.1.tdc (by decide))
  refine ⟨(congrArg TdcCh.open_ ht).trans ?_, (congrArg TdcCh.queue ht).trans ?_, k.1.time (by decide), ?_⟩
  · simp
  · simp [State.tdcCh]
  · exact .andThen (.other (.refl _ _ _ _) (touches_State.updTdc _ _ _)) k

/-- Settles O24, a clause per command and outcome. -/
theorem edgesAreStamped : Obligations.EdgesAreStamped := by
  refine ⟨fun c t r s hg hs h => ?none, fun c t r s hg hs hst h0 h1 h => ?lost, fun c t r s hg hs hst h0 h1 hh hd => ?stamp,
    fun c s hg h => ?noFlush, fun c s hg hh hq ho => ?flush, fun a b s hg => next_live hg rfl⟩
  case none =>
    refine exec_tdcEdge hg hs ?_
    rw [State.edgeIn, tdcEdge_none h]
  case lost =>
    obtain ⟨hl, hch, ht, k⟩ := tdcLose_effect (s.reach (t / 512)) c
    refine ⟨_, exec_tdcEdge hg hs (u := (s.reach (t / 512)).tdcLose c) ?_, hl.trans ?_, hch.trans ?_, ht, ?_⟩
    · rw [State.edgeIn, tdcEdge_lost hst h0 h1 h]
    · rw [reach_fld]
    · rw [reach_tdcCh]
    · exact .andThen (.other (.refl _ _ _ _) (touches_State.reach _ _) (e := (touches_State.reach _ _).regs (by decide))) k
  case stamp =>
    obtain ⟨hcount, hlast⟩ := edgeIn_stamped hst h0 h1 hh hd
    have hx := exec_tdcEdge (u := s.edgeIn c t r) hg hs rfl
    exact ⟨_, hx, hcount, hlast, (touches_execTdcEdge c t r s).touches hx⟩
  case noFlush =>
    refine next_live hg ?_
    cases hh : s.held
    · exact (State.clocked_running hh _).trans (if_pos (by rcases h with h | ⟨h, h'⟩ <;> simp_all))
    · exact State.clocked_held hh _
  case flush =>
    generalize hT : (s.tdcCh c).openAt + s.usTicks (s.fld rTDC_CTRL fTDC_CTRL_FLUSH_US) = T
    have ho' : ((s.reach T).tdcCh c).open_ ≠ [] := by rwa [reach_tdcCh]
    obtain ⟨h1, h2, h3, k⟩ := tdcClose_effect ho'
    refine ⟨_, next_live hg ((State.clocked_running hh _).trans ((tdcFlush_closes hq ho).trans (by rw [hT]))), h1, h2.trans ?_,
      h3.trans (State.reach_time_running hh _), ?_⟩
    · rw [reach_tdcCh, hq]
    · exact .andThen (.other (.refl _ _ _ _) (touches_State.reach _ _) (e := (touches_State.reach _ _).regs (by decide))) k

end Sys2Proof
end

section
/-! SUPPORT. Frequency by regression (R132 to R134). -/

set_option Elab.async false

namespace Sys2Proof

open Sys2Proof.Machine

theorem freqCfg_en : rwField rTDC_FREQ_CFG fTDC_FREQ_CFG_EN = true := by decide +kernel

theorem freqEn_inRange (m : Nat) (old v : Word) : fget (inRange .TDC_FREQ_CFG m old v) fTDC_FREQ_CFG_EN = fget v fTDC_FREQ_CFG_EN := by
  simp only [inRange, regRanges, List.foldl_cons, List.foldl_nil]
  rw [fget_keepRange_apart _ _ _ _ _ _ (by decide), fget_keepRange_apart _ _ _ _ _ _ (by decide)]

/-- EN set from 0 begins the first gate; EN set again leaves the gate under way. -/
theorem wrFreqCfg_effect (s : State) {v : Word} (hv : fget v fTDC_FREQ_CFG_EN = 1) :
    (State.wrFreqCfg v s).flag rTDC_FREQ_CFG fTDC_FREQ_CFG_EN = true ∧
    (State.wrFreqCfg v s).tdc = (if s.flag rTDC_FREQ_CFG fTDC_FREQ_CFG_EN then s.tdc else { s.tdc with
      base := if (s.rd rTDC_FREQ_START).toNat < s.time then s.time + 1 else (s.rd rTDC_FREQ_START).toNat,
      idx := 0, stamps := [], loss := false, ahead := [], fl := 0 }) ∧
    onlyIn (mRegs ||| (if s.flag rTDC_FREQ_CFG fTDC_FREQ_CFG_EN then 0 else mTdc)) [rTDC_FREQ_CFG] [] s (State.wrFreqCfg v s) := by
  have hen : (s.wrCodes rTDC_FREQ_CFG v []).flag rTDC_FREQ_CFG fTDC_FREQ_CFG_EN = true := by
    rw [State.flag, State.fld_wrCodes_rw _ freqCfg_en _ [], hv]
    rfl
  have k := touches_State.wrCodes s rTDC_FREQ_CFG v []
  have ht : (s.wrCodes rTDC_FREQ_CFG v []).time = s.time := k.time (by decide)
  have htdc : (s.wrCodes rTDC_FREQ_CFG v []).tdc = s.tdc := k.tdc (by decide)
  have hst : (s.wrCodes rTDC_FREQ_CFG v []).rd rTDC_FREQ_START = s.rd rTDC_FREQ_START := State.rd_wrCodes_other _ _ _ (by decide)
  cases hwas : s.flag rTDC_FREQ_CFG fTDC_FREQ_CFG_EN
  · simp only [State.wrFreqCfg, hwas, hen, Bool.not_false, Bool.and_self, if_true, ht, hst, Bool.false_eq_true, if_false]
    exact ⟨hen, by rw [State.onTdc_tdc, htdc], .of_hi (.other (.wrCodes (.refl _ _ _ _)) (touches_State.onTdc _ _)) (by decide)⟩
  · simp only [State.wrFreqCfg, hwas, Bool.not_true, Bool.false_and, Bool.false_eq_true, if_false, if_true]
    exact ⟨hen, htdc, .of_hi (.wrCodes (.refl _ _ _ _)) (by decide)⟩

/-- The flags of a result say whether it is valid, whether stamps were lost, and whether they are too few. -/
theorem freqResult_flags (ts : List Nat) (loss : Bool) (tick : Nat) (up : Bool) (open0 : Nat) :
    (freqResult ts loss tick up open0).1 = ts.length ∧ (freqResult ts loss tick up open0).2.1 = decide (3 ≤ ts.length ∧ loss = false) ∧
    (freqResult ts loss tick up open0).2.2.1 = loss ∧ (freqResult ts loss tick up open0).2.2.2.1 = decide (ts.length < 3) := by
  unfold freqResult
  dsimp only
  split
  · next h =>
    simp only [Bool.or_eq_true, decide_eq_true_eq] at h
    refine ⟨rfl, ?_, rfl, rfl⟩
    rcases h with h | h
    · simp; omega
    · simp [h]
  · next h =>
    simp only [Bool.or_eq_true, decide_eq_true_eq, not_or, Bool.not_eq_true] at h
    refine ⟨rfl, ?_, h.2.symm, ?_⟩
    · simp [h.2]; omega
    · simp; omega

/-- The registers of the result and its count. -/
def resRegs : List Nat := [rTDC_FREQ_RES0, rTDC_FREQ_RES1, rTDC_FREQ_RES2, rTDC_FREQ_RES3, rTDC_FREQ_SNAP]

/-- The registers of a result with `n` stamps, written before its event. -/
def resultSet (s : State) (n ch : Nat) (valid loss few : Bool) (p f r : Nat) : State :=
  (((((s.setFlds rTDC_FREQ_RES0 [(fTDC_FREQ_RES0_N, n), (fTDC_FREQ_RES0_CHANNEL, ch), (fTDC_FREQ_RES0_VALID, b2n valid),
    (fTDC_FREQ_RES0_LOSS, b2n loss), (fTDC_FREQ_RES0_FEW, b2n few)]).wr rTDC_FREQ_RES1 (BitVec.ofNat 64 p)).wr rTDC_FREQ_RES2
    (BitVec.ofNat 64 f)).setFld rTDC_FREQ_RES3 fTDC_FREQ_RES3_RESID r).addMod rTDC_FREQ_SNAP fTDC_FREQ_SNAP_SEQ 1)

theorem freqCapture_eq (s : State) : ∃ (n ch : Nat) (valid loss few : Bool) (p f r : Nat), n = s.tdc.stamps.length ∧
    valid = decide (3 ≤ s.tdc.stamps.length ∧ s.tdc.loss = false) ∧ loss = s.tdc.loss ∧ few = decide (s.tdc.stamps.length < 3) ∧
    s.freqCapture = (resultSet (s.onFreeCtr fun _ => s.freeCtr + 1) n ch valid loss few p f r).raise (if valid then 184 else 185) := by
  obtain ⟨h1, h2, h3, h4⟩ := freqResult_flags s.tdc.stamps s.tdc.loss (s.onFreeCtr fun _ => s.freeCtr + 1).tickFs (Config.roundUp s.freeCtr)
    (Config.freqOfZero s.freeCtr)
  simp only [State.freqCapture, State.fresh]
  exact ⟨_, _, _, _, _, _, _, _, h1, h2, h3, h4, rfl⟩

/-- What a captured result leaves in its first register. -/
theorem freqCapture_effect (s : State) : s.freqCapture.fld rTDC_FREQ_RES0 fTDC_FREQ_RES0_N = s.tdc.stamps.length % 2 ^ fTDC_FREQ_RES0_N.w ∧
    s.freqCapture.flag rTDC_FREQ_RES0 fTDC_FREQ_RES0_VALID = decide (3 ≤ s.tdc.stamps.length ∧ s.tdc.loss = false) ∧
    s.freqCapture.flag rTDC_FREQ_RES0 fTDC_FREQ_RES0_LOSS = s.tdc.loss ∧
    s.freqCapture.flag rTDC_FREQ_RES0 fTDC_FREQ_RES0_FEW = decide (s.tdc.stamps.length < 3) ∧
    onlyIn (mEvent ||| mFreeCtr ||| mGlb) resRegs [184, 185] s s.freqCapture := by
  have hb : ∀ b : Bool, (b2n b % 2 != 0) = b := by decide
  obtain ⟨n, ch, valid, loss, few, p, f, r, hn, hv, hl, hf, e⟩ := freqCapture_eq s
  rw [e, ← hf, ← hv, ← hl, ← hn]
  have hr : ∀ (g : Fld) (x : State), (x.raise (if valid then 184 else 185)).fld rTDC_FREQ_RES0 g = x.fld rTDC_FREQ_RES0 g := fun g x => by
    split <;> exact State.fld_raise_other _ _ _ _ _ _ _ (by decide)
  refine ⟨?_, ?_, ?_, ?_, ?_⟩
  · rw [hr]
    simp (disch := decide) [resultSet]
  · rw [State.flag, hr]
    simp (disch := decide) [resultSet, hb]
  · rw [State.flag, hr]
    simp (disch := decide) [resultSet, hb]
  · rw [State.flag, hr]
    simp (disch := decide) [resultSet, hb]
  · refine .raise ?_ (hs := by split <;> simp)
    exact .addMod (.setFld (.wr (.wr (.setFlds (.other (.refl _ _ _ _) (touches_State.onFreeCtr _ _)) (by simp [resRegs])) (by simp [resRegs]))
      (by simp [resRegs])) (by simp [resRegs])) (by simp [resRegs])

/-- The record of a gate leaves the unit, or is lost. -/
theorem onlyIn_freqRecord (s : State) (t : Nat) : onlyIn (mEvent ||| mCtxs ||| mPorts) dropRegs [13] s (s.freqRecord t) := by
  unfold State.freqRecord
  split
  · exact .refl _ _ _ _
  · exact .ite (.other (.refl _ _ _ _) (touches_State.loseItems _ _ _)) (onlyIn_emitRec _ _ _)

/-- The regression unit as the next gate takes it over, up to `e`. -/
def nextGate (y : Tdc) (e : Nat) (z : Tdc) : Tdc :=
  { z with stamps := (y.ahead.filter fun x => x.1 < e).map (·.1), loss := (y.ahead.filter fun x => x.1 < e).any (·.2),
           ahead := y.ahead.filter fun x => e ≤ x.1, fl := 0, idx := y.idx + 1 }

theorem freqGateEnd_eq {s : State} (hen : s.flag rTDC_FREQ_CFG fTDC_FREQ_CFG_EN = true) {s1 s2 : State}
    (h1 : s1 = ((s.reach s.gateSpan.2).freqCapture).freqRecord s.gateSpan.1)
    (h2 : s2 = s1.onTdc fun z => nextGate s1.tdc ((s.gateSpan.2 + s1.fld rTDC_FREQ_CFG fTDC_FREQ_CFG_GATE) * 512) z) :
    s.freqGateEnd = if s2.flag rTDC_FREQ_CFG fTDC_FREQ_CFG_REPEAT then s2 else s2.setFld rTDC_FREQ_CFG fTDC_FREQ_CFG_EN 0 := by
  subst h2 h1
  simp only [State.freqGateEnd, nextGate, hen, if_true]
  rfl

/-- The registers that a gate's end may change. -/
def gateRegs : List Nat := [rTDC_FREQ_CFG, rTDC_FREQ_RES0, rTDC_FREQ_RES1, rTDC_FREQ_RES2, rTDC_FREQ_RES3, rTDC_FREQ_SNAP] ++ dropRegs

theorem gateRegs_hi : ∀ a ∈ gateRegs, 0x1000 ≤ a := fun a h => by
  obtain h | h := List.mem_append.mp h
  · revert a
    decide
  · exact dropRegs_hi a h

/-- A gate's end up to its record: the result, and that nothing else of the unit changes. -/
theorem gateResult_effect {s : State} (hh : s.held = false) {s1 : State} (h1 : s1 = ((s.reach s.gateSpan.2).freqCapture).freqRecord s.gateSpan.1) :
    s1.fld rTDC_FREQ_RES0 fTDC_FREQ_RES0_N = s.tdc.stamps.length % 2 ^ fTDC_FREQ_RES0_N.w ∧
    s1.flag rTDC_FREQ_RES0 fTDC_FREQ_RES0_VALID = decide (3 ≤ s.tdc.stamps.length ∧ s.tdc.loss = false) ∧
    s1.flag rTDC_FREQ_RES0 fTDC_FREQ_RES0_LOSS = s.tdc.loss ∧ s1.flag rTDC_FREQ_RES0 fTDC_FREQ_RES0_FEW = decide (s.tdc.stamps.length < 3) ∧
    s1.tdc = s.tdc ∧ s1.time = max s.time s.gateSpan.2 ∧ s1.rd rTDC_FREQ_CFG = s.rd rTDC_FREQ_CFG ∧
    onlyIn (mEvent ||| mTime ||| mFreeCtr ||| mCtxs ||| mPorts ||| mTdc ||| mGlb) gateRegs [184, 185, 13] s s1 := by
  subst h1
  have kr := touches_State.reach s s.gateSpan.2
  have htdc : (s.reach s.gateSpan.2).tdc = s.tdc := kr.tdc (by decide)
  obtain ⟨c1, c2, c3, c4, kc⟩ := freqCapture_effect (s.reach s.gateSpan.2)
  rw [htdc] at c1 c2 c3 c4
  have kf := onlyIn_freqRecord ((s.reach s.gateSpan.2).freqCapture) s.gateSpan.1
  have kk : keeps 0x70000 0x71000 ((s.reach s.gateSpan.2).freqCapture) (((s.reach s.gateSpan.2).freqCapture).freqRecord s.gateSpan.1) :=
    kf.keeps (fun a h => by have := dropRegs_range h; omega) (by simp)
  refine ⟨(kk.fld _ _ (by decide)).trans c1, (kk.flag _ _ (by decide)).trans c2, (kk.flag _ _ (by decide)).trans c3,
    (kk.flag _ _ (by decide)).trans c4, ?_, ?_, ?_, ?_⟩
  · rw [kf.1.tdc (by decide), kc.1.tdc (by decide), htdc]
  · rw [kf.1.time (by decide), kc.1.time (by decide)]
    exact State.reach_time_running hh _
  · rw [kk _ (by decide) (by decide), kc.2 _ (by decide) (by decide)]
    exact State.rd_congr (kr.regs (by decide)) _
  · refine .andThen (.andThen (.other (.refl _ _ _ _) kr (e := kr.regs (by decide))) kc (hl := ?_)) kf (hl := ?_)
    · exact fun a h => List.mem_append_left _ (List.mem_cons_of_mem _ h)
    · exact fun a h => List.mem_append_right _ h

/-- Settles O25, a clause per command and outcome. -/
theorem frequencyGates : Obligations.FrequencyGates := by
  refine ⟨fun v s h he => ?open1, fun v s h he => ?open2, fun s hg he => next_live hg (if_pos he), fun s hg hh he => ?ends,
    fun s hg h => ?none, fun v s h => ?snap⟩
  case open1 =>
    obtain ⟨h1, h2, h3⟩ := wrFreqCfg_effect (s.dropStaged .host rTDC_FREQ_CFG) ((freqEn_inRange 0 (s.rd rTDC_FREQ_CFG) (fset v fTDC_FREQ_CFG_EN 1)).trans
      (fget_fset_self _ _ _ (by decide)))
    have he' : (s.dropStaged .host rTDC_FREQ_CFG).flag rTDC_FREQ_CFG fTDC_FREQ_CFG_EN = false := he
    rw [he'] at h2 h3
    simp only [Bool.false_eq_true, if_false, State.dropStaged_time, State.dropStaged_tdc, State.rd_dropStaged] at h2
    exact ⟨_, next_hostWr h rfl, h1, h2, .andThen (.of_hi (.dropStaged (.refl _ _ _ _)) (by decide)) h3⟩
  case open2 =>
    obtain ⟨h1, -, h3⟩ := wrFreqCfg_effect (s.dropStaged .host rTDC_FREQ_CFG) ((freqEn_inRange 0 (s.rd rTDC_FREQ_CFG) (fset v fTDC_FREQ_CFG_EN 1)).trans
      (fget_fset_self _ _ _ (by decide)))
    have he' : (s.dropStaged .host rTDC_FREQ_CFG).flag rTDC_FREQ_CFG fTDC_FREQ_CFG_EN = true := he
    rw [he'] at h3
    exact ⟨_, next_hostWr h rfl, h1, .andThen (.of_hi (.dropStaged (.refl _ _ _ _)) (by decide)) h3⟩
  case ends =>
    have e := freqGateEnd_eq he rfl rfl
    obtain ⟨c1, c2, c3, c4, htdc, htime, hcfg, k⟩ := gateResult_effect hh rfl
    generalize ((s.reach s.gateSpan.2).freqCapture).freqRecord s.gateSpan.1 = s1 at *
    have hcfgf : ∀ f, s1.fld rTDC_FREQ_CFG f = s.fld rTDC_FREQ_CFG f := fun f => congrArg (fun w => fget w f) hcfg
    generalize hu : (s1.onTdc fun z => nextGate s1.tdc ((s.gateSpan.2 + s1.fld rTDC_FREQ_CFG fTDC_FREQ_CFG_GATE) * 512) z) = u at e
    have hures : ∀ a f, u.fld a f = s1.fld a f := fun a f => by rw [← hu, State.fld_onTdc]
    have hut : u.time = s1.time := by rw [← hu, State.onTdc_time]
    have hud : u.tdc = nextGate s.tdc ((s.gateSpan.2 + s.fld rTDC_FREQ_CFG fTDC_FREQ_CFG_GATE) * 512) s.tdc := by
      rw [← hu, State.onTdc_tdc, htdc, hcfgf]
    have ku : onlyIn (mEvent ||| mTime ||| mFreeCtr ||| mCtxs ||| mPorts ||| mTdc ||| mGlb) gateRegs [184, 185, 13] s u := by
      rw [← hu]
      exact k.other (touches_State.onTdc _ _) (e := State.onTdc_regs _ _)
    have hrep : u.flag rTDC_FREQ_CFG fTDC_FREQ_CFG_REPEAT = s.flag rTDC_FREQ_CFG fTDC_FREQ_CFG_REPEAT := by
      rw [State.flag, hures, hcfgf]
      rfl
    have hen : u.flag rTDC_FREQ_CFG fTDC_FREQ_CFG_EN = true := by
      rw [State.flag, hures, hcfgf]
      exact he
    rw [State.flag, ← hures] at c2 c3 c4
    rw [← hures] at c1
    refine ⟨_, next_live hg ((State.clocked_running hh _).trans e), ?_⟩
    rw [hrep]
    cases s.flag rTDC_FREQ_CFG fTDC_FREQ_CFG_REPEAT
    · rw [if_neg (by decide)]
      refine ⟨?_, ?_, ?_, ?_, ?_, ?_, ?_, .of_hi (.setFld ku) gateRegs_hi⟩
      · rw [State.fld_setFld_other _ _ _ _ (by decide)]
        exact c1
      · rw [State.flag, State.fld_setFld_other _ _ _ _ (by decide)]
        exact c2
      · rw [State.flag, State.fld_setFld_other _ _ _ _ (by decide)]
        exact c3
      · rw [State.flag, State.fld_setFld_other _ _ _ _ (by decide)]
        exact c4
      · rw [State.setFld_tdc]
        exact hud
      · rw [State.flag, State.fld_setFld_self _ _ _ _ (by decide)]
        rfl
      · rw [State.setFld_time, hut, htime]
    · rw [if_pos rfl]
      exact ⟨c1, c2, c3, c4, hud, hen, hut.trans htime, .of_hi ku gateRegs_hi⟩
  case none =>
    refine next_live hg ?_
    cases hh : s.held
    · exact (State.clocked_running hh _).trans (if_neg (by rcases h with h | h <;> simp_all))
    · exact State.clocked_held hh _
  case snap => exact next_hostWr h (if_pos (fget_fset_self _ _ _ (by decide)))

end Sys2Proof
end

section
/-! SUPPORT. Calibration runs (R136 to R146). -/

set_option Elab.async false

namespace Sys2Proof

open Sys2Proof.Machine

/-! ### Registers written over a list -/

/-- A register that no write of a list names reads as before. -/
theorem rd_overList {β : Type} {g : State → β → State} {a : Nat} (l : List β) (s : State) (h : ∀ t, ∀ b ∈ l, (g t b).rd a = t.rd a) :
    (l.foldl g s).rd a = s.rd a := by
  induction l generalizing s with
  | nil => rfl
  | cons b l ih => exact (ih _ fun t c hc => h t c (List.mem_cons_of_mem b hc)).trans (h s b (by simp))

/-- A field that a list of writes sets to one value holds it. -/
theorem fld_overList_setFld {at_ : Nat → Nat} {f : Fld} {v : Nat} (hf : f.lo + f.w ≤ 64) {l : List Nat} {k : Nat} (hk : k ∈ l) (s : State) :
    (l.foldl (fun t b => t.setFld (at_ b) f v) s).fld (at_ k) f = v % 2 ^ f.w := by
  have keep : ∀ (l : List Nat) (s : State), s.fld (at_ k) f = v % 2 ^ f.w →
      (l.foldl (fun t b => t.setFld (at_ b) f v) s).fld (at_ k) f = v % 2 ^ f.w := by
    intro l
    induction l with
    | nil => exact fun s h => h
    | cons b l ih =>
      refine fun s h => ih _ ?_
      by_cases e : at_ k = at_ b
      · rw [e, State.fld_setFld_self _ _ _ _ hf]
      · rw [State.fld_setFld_other _ _ _ _ e, h]
  induction l generalizing s with
  | nil => cases hk
  | cons b l ih =>
    rcases List.mem_cons.mp hk with rfl | h
    · exact keep l _ (State.fld_setFld_self _ _ _ _ hf)
    · exact ih h _

/-- Words written over a list of registers, each register once. -/
theorem rd_overZip_wr {at_ : Nat → Nat} (hinj : ∀ i j, at_ i = at_ j → i = j) {l : List Nat} {vs : List Word} (hl : l.Nodup) {k : Nat} {v : Word}
    (hk : (k, v) ∈ l.zip vs) (s : State) : ((l.zip vs).foldl (fun t e => t.wr (at_ e.1) e.2) s).rd (at_ k) = v := by
  induction l generalizing vs s with
  | nil => cases hk
  | cons i l ih =>
    cases vs with
    | nil => cases hk
    | cons w vs =>
      obtain ⟨hi, hl⟩ := List.nodup_cons.mp hl
      rcases List.mem_cons.mp hk with h | h
      · obtain ⟨rfl, rfl⟩ := Prod.mk.injEq .. ▸ h
        have off : ∀ t : State, ∀ b ∈ l.zip vs, (t.wr (at_ b.1) b.2).rd (at_ k) = t.rd (at_ k) := fun t b hb =>
          State.rd_wr_other _ _ fun e => hi (hinj k b.1 e ▸ (List.of_mem_zip hb).1)
        exact (rd_overList _ _ off).trans ((State.rd_wr ..).trans (if_pos rfl))
      · exact ih hl h _

/-- The place of a value in the numbered list of 32. -/
theorem mem_zip_upTo {vs : List Word} {k n : Nat} (hk : k < n) (hl : vs.length = n) : (k, vs.getD k 0) ∈ (upTo n).zip vs := by
  have h : k < ((upTo n).zip vs).length := by simp [upTo, hl, hk]
  rw [List.getD_eq_getElem _ _ (hl.symm ▸ hk)]
  simpa [upTo, List.getElem_zip] using List.getElem_mem h

/-! ### The cores and registers of a run -/

theorem mem_inputCores {s : State} {n c : Nat} (h : c ∈ s.inputCores n) : c = n ∨ c = n + 1 := by
  unfold State.inputCores at h
  split at h <;> simp at h <;> omega

theorem paired_congr {s t : State} (h : t.rd rCNV_MODE = s.rd rCNV_MODE) (n : Nat) : t.paired n = s.paired n := by
  simp only [State.paired, State.flag, State.fld, h]

theorem inputCores_congr {s t : State} (h : t.rd rCNV_MODE = s.rd rCNV_MODE) (n : Nat) : t.inputCores n = s.inputCores n := by
  simp only [State.inputCores, paired_congr h]

/-- The registers that every end of a run writes: those of the run and EN of the cores. -/
def endRegs (s : State) (n : Nat) : List Nat := [rCAL_RUN, rCAL_STATUS] ++ (s.inputCores n).map rCNV_BG

/-- The registers that a run forces: those, and ATTCAL of the input. -/
def runRegs (s : State) (n : Nat) : List Nat := endRegs s n ++ (upTo 32).map (rCNV_ATTCAL n)

theorem runRegs_hi {s : State} {n a : Nat} (h : a ∈ runRegs s n) : 0x40000 ≤ a := by
  simp only [runRegs, endRegs, List.mem_append, List.mem_map, List.mem_cons, List.not_mem_nil, or_false] at h
  rcases h with ((rfl | rfl) | ⟨c, -, rfl⟩) | ⟨k, -, rfl⟩
  · decide
  · decide
  · exact Nat.le_trans (by decide) (Nat.le_add_right 0x50018 _)
  · exact Nat.le_trans (by decide) (Nat.le_trans (Nat.le_add_right 0x50200 _) (Nat.le_add_right _ _))

theorem runRegs_glb {s : State} {n : Nat} : ∀ a ∈ runRegs s n, 0x1000 ≤ a := fun _ h => Nat.le_trans (by decide) (runRegs_hi h)

theorem bg_mem_runRegs {s : State} {n c : Nat} (h : c ∈ s.inputCores n) : rCNV_BG c ∈ runRegs s n := by
  simp only [runRegs, endRegs, List.mem_append]
  exact .inl (.inr (List.mem_map_of_mem h))

theorem attcal_mem_runRegs {s : State} {n k : Nat} (h : k ∈ upTo 32) : rCNV_ATTCAL n k ∈ runRegs s n := by
  simp only [runRegs, endRegs, List.mem_append]
  exact .inr (List.mem_map_of_mem h)

theorem runRegs_congr {s t : State} (h : t.rd rCNV_MODE = s.rd rCNV_MODE) (n : Nat) : runRegs t n = runRegs s n := by
  simp only [runRegs, endRegs, inputCores_congr h]

theorem attcal_inj (n : Nat) : ∀ i j, rCNV_ATTCAL n i = rCNV_ATTCAL n j → i = j := fun i j h => by
  simp only [rCNV_ATTCAL] at h
  omega

/-! ### GO (R138, R139) -/

/-- An accepted GO: what the run keeps, and the registers as it forces them. -/
theorem calBegin_effect (s : State) {n : Nat} (hn : n < 4) (typ : Nat) (p a : Bool) {t : State} (e : s.calBegin n typ p a = t) :
    t.calState = 1 ∧ t.fld rCAL_STATUS fCAL_STATUS_PHASE = 0 ∧ t.cal.input = n ∧ t.cal.typ = typ ∧ t.cal.step = s.attStep n ∧
    t.cal.auto = a ∧ t.cal.attcal = (upTo 32).map (fun k => s.rd (rCNV_ATTCAL n k)) ∧
    (∀ k < 32, t.fld (rCNV_ATTCAL n k) fCNV_ATTCAL_GAIN = 0x8000) ∧ (∀ c ∈ s.inputCores n, t.flag (rCNV_BG c) fCNV_BG_EN = false) ∧
    onlyIn (mRegs ||| mCal) (runRegs s n) [] s t := by
  simp only [State.calBegin] at e
  generalize hs1 : s.onCal (fun z => { z with
    input := n, typ := typ, persist := p, auto := a, step := s.attStep n,
    attcal := (upTo 32).map fun k => s.rd (rCNV_ATTCAL n k),
    en := (s.inputCores n).map fun c => s.fld (rCNV_BG c) fCNV_BG_EN }) = s1 at e
  generalize hs2 : (s.inputCores n).foldl (fun t c => t.setFld (rCNV_BG c) fCNV_BG_EN 0) s1 = s2 at e
  have k2 : onlyIn (mRegs ||| mGlb) (runRegs s n) [] s1 s2 :=
    hs2 ▸ .overList (.refl _ _ _ _) fun t c hc => .setFld (.refl _ _ _ _) (ha := bg_mem_runRegs hc)
  have b2 : ∀ c ∈ s.inputCores n, s2.fld (rCNV_BG c) fCNV_BG_EN = 0 := fun c hc =>
    hs2 ▸ (fld_overList_setFld (at_ := fun c => rCNV_BG c) (by decide) hc s1).trans (by decide)
  generalize hs3 : (upTo 32).foldl (fun t k => t.setFld (rCNV_ATTCAL n k) fCNV_ATTCAL_GAIN 0x8000) s2 = s3 at e
  have k3 : onlyIn (mRegs ||| mGlb) (runRegs s n) [] s1 s3 :=
    hs3 ▸ .overList k2 fun t c hc => .setFld (.refl _ _ _ _) (ha := attcal_mem_runRegs hc)
  have b3 : ∀ c ∈ s.inputCores n, s3.fld (rCNV_BG c) fCNV_BG_EN = 0 := fun c hc => by
    refine Eq.trans (congrArg (fun w => fget w _) ?_) (b2 c hc)
    rw [← hs3]
    refine rd_overList _ _ fun t k hk => State.rd_setFld_other _ _ _ ?_
    have := mem_inputCores hc
    have := List.mem_range.mp hk
    simp only [rCNV_BG, rCNV_ATTCAL]
    omega
  have a3 : ∀ k < 32, s3.fld (rCNV_ATTCAL n k) fCNV_ATTCAL_GAIN = 0x8000 := fun k hk =>
    hs3 ▸ (fld_overList_setFld (at_ := fun k => rCNV_ATTCAL n k) (by decide) (List.mem_range.mpr hk) s2).trans (by decide)
  have hcal : t.cal = s1.cal := by
    rw [← e, State.setFld_cal, State.setFlds_cal]
    exact k3.1.cal (by decide)
  have hbg : ∀ i, rCNV_BG i ≠ rCAL_RUN ∧ rCNV_BG i ≠ rCAL_STATUS := fun i => by simp only [rCNV_BG, rCAL_RUN, rCAL_STATUS]; omega
  have hatt : ∀ k, rCNV_ATTCAL n k ≠ rCAL_RUN ∧ rCNV_ATTCAL n k ≠ rCAL_STATUS := fun k => by simp only [rCNV_ATTCAL, rCAL_RUN, rCAL_STATUS]; omega
  have k0 : onlyIn (mRegs ||| mCal ||| mGlb) (runRegs s n) [] s s1 :=
    hs1 ▸ .other (.refl _ _ _ _) (touches_State.onCal _ _) (e := State.onCal_regs _ _)
  refine ⟨?_, ?_, ?_, ?_, ?_, ?_, ?_, fun k hk => ?_, fun c hc => ?_, .of_hi ?_ runRegs_glb⟩
  · rw [← e]
    simp (disch := decide) [State.calState]
  · rw [← e]
    simp (disch := decide)
  · rw [hcal, ← hs1, State.onCal_cal]
  · rw [hcal, ← hs1, State.onCal_cal]
  · rw [hcal, ← hs1, State.onCal_cal]
  · rw [hcal, ← hs1, State.onCal_cal]
  · rw [hcal, ← hs1, State.onCal_cal]
  · rw [← e, State.fld_setFld_other _ _ _ _ (hatt k).1, State.fld_setFlds_other _ _ _ (hatt k).2, a3 k hk]
  · rw [← e, State.flag, State.fld_setFld_other _ _ _ _ (hbg c).1, State.fld_setFlds_other _ _ _ (hbg c).2, b3 c hc]
    rfl
  · rw [← e]
    exact .setFld (.setFlds (.andThen k0 k3) (ha := by simp [runRegs, endRegs])) (ha := by simp [runRegs, endRegs])

/-! ### The ends of a run (R139, R140) -/

theorem bg_mem_endRegs {s : State} {n c : Nat} (h : c ∈ s.inputCores n) : rCNV_BG c ∈ endRegs s n := List.mem_append_right _ (List.mem_map_of_mem h)

theorem endRegs_sub (s : State) (n : Nat) : endRegs s n ⊆ runRegs s n := List.subset_append_left _ _

theorem attcal_not_mem_endRegs {s : State} {n k : Nat} (hk : k < 32) : rCNV_ATTCAL n k ∉ endRegs s n := fun h => by
  simp only [endRegs, List.mem_append, List.mem_map, List.mem_cons, List.not_mem_nil, or_false] at h
  rcases h with (e | e) | ⟨c, hc, e⟩
  · simp only [rCNV_ATTCAL, rCAL_RUN] at e
    omega
  · simp only [rCNV_ATTCAL, rCAL_STATUS] at e
    omega
  · have := mem_inputCores hc
    simp only [rCNV_ATTCAL, rCNV_BG] at e
    omega

theorem bgStart_regs (s : State) (c : Nat) : (s.bgStart c).regs = s.regs := by
  unfold State.bgStart
  split
  · rfl
  · exact State.updCore_regs _ _ _

theorem calDrive_regs (s : State) (n st : Nat) : (s.calDrive n st).regs = s.regs := by
  rw [State.calDrive, State.newGeff, State.updCore_regs, State.setAct]

/-- The attenuator at the step it is driven to. -/
theorem attStep_calDrive (s : State) (n st : Nat) : (s.calDrive n st).attStep n = st % 32 := by
  rw [State.attStep, State.afld, State.calDrive, State.newGeff, State.actv_updCore, State.actv, State.setAct, SMap.get_set_same]
  exact fget_fset_self _ _ _ (by decide)

theorem onlyIn_bgStart (l : List Nat) (s : State) (c : Nat) : onlyIn (mRegs ||| mAct ||| mCnv ||| mCal ||| mGlb) l [] s (s.bgStart c) := by
  unfold State.bgStart
  exact .ite (.refl _ _ _ _) (.other (.refl _ _ _ _) (touches_State.updCore _ _ _) (e := State.updCore_regs _ _ _))

/-- What every end of a run does: EN and STEP come back, and the run is over. -/
theorem calRestore_effect {s : State} {n : Nat} (hn : s.cal.input = n) {t : State} (e : s.calRestore = t) :
    t.calState = 0 ∧ t.flag rCAL_RUN fCAL_RUN_GO = false ∧ t.attStep n = s.cal.step % 32 ∧
    t.fld rCAL_STATUS fCAL_STATUS_DUE = s.fld rCAL_STATUS fCAL_STATUS_DUE ∧
    onlyIn (mRegs ||| mAct ||| mCnv ||| mCal ||| mGlb) (endRegs s n) [] s t := by
  simp only [State.calRestore, hn] at e
  generalize hs1 : ((s.inputCores n).zip s.cal.en).foldl (fun t e => t.setFld (rCNV_BG e.1) fCNV_BG_EN e.2) s = s1 at e
  have k1 : onlyIn (mRegs ||| mAct ||| mCnv ||| mCal ||| mGlb) (endRegs s n) [] s s1 :=
    hs1 ▸ .overList (.refl _ _ _ _) fun t e he => .setFld (.refl _ _ _ _) (ha := bg_mem_endRegs (List.of_mem_zip he).1)
  generalize hs2 : (s.inputCores n).foldl (fun t c =>
    if t.flag (rCNV_BG c) fCNV_BG_EN && (t.core c).phase = .off then t.bgStart c else t) s1 = s2 at e
  have k2 : onlyIn (mRegs ||| mAct ||| mCnv ||| mCal ||| mGlb) (endRegs s n) [] s s2 :=
    hs2 ▸ .overList k1 fun t c _ => .ite (onlyIn_bgStart _ _ _) (.refl _ _ _ _)
  generalize hs3 : s2.calDrive n s.cal.step = s3 at e
  have k3 : onlyIn (mRegs ||| mAct ||| mCnv ||| mCal ||| mGlb) (endRegs s n) [] s s3 :=
    hs3 ▸ .other k2 (touches_State.calDrive _ _ _) (e := calDrive_regs _ _ _)
  have d3 : s3.fld rCAL_STATUS fCAL_STATUS_DUE = s.fld rCAL_STATUS fCAL_STATUS_DUE := by
    rw [← hs3, State.fld_congr (calDrive_regs _ _ _), ← hs2]
    refine congrArg (fun w => fget w _) ((rd_overList _ _ fun t c _ => ?_).trans ?_)
    · split
      · exact State.rd_congr (bgStart_regs t c) _
      · rfl
    · rw [← hs1]
      exact rd_overList _ _ fun t e _ => State.rd_setFld_other _ _ _ (by simp only [rCNV_BG, rCAL_STATUS]; omega)
  refine ⟨?_, ?_, ?_, ?_, ?_⟩
  · rw [← e]
    simp (disch := decide) [State.calState]
  · rw [← e]
    simp (disch := decide) [State.flag]
  · rw [← e, State.attStep, State.afld, State.actv_setFlds, State.actv_setFld, State.actv_onCal, ← hs3]
    exact attStep_calDrive _ _ _
  · rw [← e]
    simp (disch := decide) [State.fld_onCal]
    exact d3
  · rw [← e]
    exact .setFlds (.setFld (.other k3 (touches_State.onCal _ _) (e := State.onCal_regs _ _)) (ha := by simp [endRegs])) (ha := by simp [endRegs])

/-- An abort: the reason, and the input as it was before GO. -/
theorem calAbort_effect {s : State} {n : Nat} (hn : s.cal.input = n) {r : Nat} (hr : r < 256) {t : State} (e : s.calAbort r = t) :
    t.calState = 0 ∧ t.fld rCAL_STATUS fCAL_STATUS_RESULT = 2 ∧ t.fld rCAL_STATUS fCAL_STATUS_REASON = r ∧
    t.flag rCAL_RUN fCAL_RUN_GO = false ∧ (s.cal.attcal.length = 32 → ∀ k < 32, t.rd (rCNV_ATTCAL n k) = s.cal.attcal.getD k 0) ∧
    t.attStep n = s.cal.step % 32 ∧
    onlyIn (mEvent ||| mAct ||| mCnv ||| mCal ||| mGlb) (runRegs s n) [97] s t := by
  simp only [State.calAbort, hn] at e
  generalize hs1 : ((upTo 32).zip s.cal.attcal).foldl (fun t e => t.wr (rCNV_ATTCAL n e.1) e.2) s = s1 at e
  have k1 : onlyIn (mRegs ||| mGlb) (runRegs s n) [] s s1 :=
    hs1 ▸ .overList (.refl _ _ _ _) fun t e he => .wr (.refl _ _ _ _) (ha := attcal_mem_runRegs (List.of_mem_zip he).1)
  have c1 : s1.cal = s.cal := k1.1.cal (by decide)
  have m1 : s1.rd rCNV_MODE = s.rd rCNV_MODE := by
    rw [← hs1]
    refine rd_overList _ _ fun t e he => State.rd_wr_other _ _ ?_
    have := List.mem_range.mp (List.of_mem_zip he).1
    simp only [rCNV_ATTCAL, rCNV_MODE]
    omega
  generalize hs2 : s1.calRestore = s2 at e
  obtain ⟨h0, hgo, hst, -, k2⟩ := calRestore_effect ((congrArg Cal.input c1).trans hn) hs2
  have k2' := k2.mono (m' := mEvent ||| mAct ||| mCnv ||| mCal ||| mGlb) (l' := runRegs s n) (srcs' := [97]) (by decide)
    (runRegs_congr m1 n ▸ endRegs_sub s1 n) (by simp)
  generalize hs3 : s2.setFlds rCAL_STATUS [(fCAL_STATUS_RESULT, 2), (fCAL_STATUS_REASON, r)] = s3 at e
  have k3 : onlyIn (mEvent ||| mAct ||| mCnv ||| mCal ||| mGlb) (runRegs s n) [97] s1 s3 := hs3 ▸ .setFlds k2' (ha := by simp [runRegs, endRegs])
  have kt : onlyIn (mEvent ||| mAct ||| mCnv ||| mCal ||| mGlb) (runRegs s n) [97] s t := by
    refine .trans (k1.mono (by decide) (fun _ h => h) (by simp)) ?_
    rw [← e]
    exact .raise (.ite (.other k3 (touches_State.onCal _ _) (e := State.onCal_regs _ _)) k3)
  have hf : ∀ a f, a < 0x10000 ∨ 0x12000 + 8 * 97 < a → t.fld a f = s3.fld a f := fun a f ha => by
    rw [← e, State.fld_raise_other _ _ _ _ _ _ _ ha]
    split
    · rw [State.fld_onCal]
    · rfl
  have hact : t.act = s2.act := by
    rw [← e, State.raise_act]
    split
    · rw [State.onCal_act, ← hs3, State.setFlds_act]
    · rw [← hs3, State.setFlds_act]
  refine ⟨?_, ?_, ?_, ?_, fun hl k hk => ?_, ?_, kt⟩
  · rw [State.calState, hf _ _ (by decide), ← hs3]
    simp (disch := decide)
    exact h0
  · rw [hf _ _ (by decide), ← hs3]
    simp (disch := decide)
  · rw [hf _ _ (by decide), ← hs3]
    simp (disch := decide)
    exact hr
  · rw [State.flag, hf _ _ (by decide), ← hs3, State.fld_setFlds_other _ _ _ (by decide)]
    exact hgo
  · have hn97 : rCNV_ATTCAL n k ∉ evtRegs 97 := by
      simp only [evtRegs, rEVT_SRC, rEVT_STAT, rEVT_SEQ, rEVT_RING_IDX, List.mem_cons, List.not_mem_nil, or_false, rCNV_ATTCAL]
      omega
    calc t.rd (rCNV_ATTCAL n k) = s3.rd (rCNV_ATTCAL n k) := by
          rw [← e, State.rd_raise_other _ _ _ _ _ _ (.inr (by simp only [rCNV_ATTCAL]; omega))]
          split
          · rw [State.rd_onCal]
          · rfl
      _ = s2.rd (rCNV_ATTCAL n k) := by
          rw [← hs3, State.rd_setFlds_other _ _ (by simp only [rCNV_ATTCAL, rCAL_STATUS]; omega)]
      _ = s1.rd (rCNV_ATTCAL n k) := k2.2 _ (attcal_not_mem_endRegs hk) (by simp)
      _ = s.cal.attcal.getD k 0 := hs1 ▸ rd_overZip_wr (attcal_inj n) List.nodup_range (mem_zip_upTo hk hl) s
  · rw [State.attStep, State.afld, State.actv, hact, ← c1]
    exact hst

/-! ### COMMIT (R143, R144) -/

/-- A commit before its end: the results, HIST and DUE written. -/
def calResults (s : State) : State :=
  let n := s.cal.input
  let p := (100 - s.fldS rCAL_REF fCAL_REF_LEVEL).toNat
  let point := if s.cal.auto then 4 else s.fld rCAL_REF fCAL_REF_POINT
  let s0 := ((upTo 32).zip s.cal.attcal).foldl (fun t e => t.wr (rCNV_ATTCAL n e.1) e.2) s
  if s.cal.typ = 0 then
    let t := s0.setFlds (rCNV_CHCORR n) [(fCNV_CHCORR_OFFSET, ofSigned 16 (divRound s.cal.offNum s.cal.offDen)),
      (fCNV_CHCORR_GAIN, calGain (s.fld (rCNV_CHCORR n) fCNV_CHCORR_GAIN) p s.cal.a0)]
    let t1 := (s.cal.as_.zipIdx).foldl (fun t e =>
      t.setFld (rCNV_ATTCAL n (e.2 + 1)) fCNV_ATTCAL_GAIN (calAtt s.cal.a0 e.1 (e.2 + 1))) t
    (t1.setFld (rCNV_ATTCAL n 0) fCNV_ATTCAL_GAIN 0x8000).setFlds (rCAL_FLAT n 4) [(fCAL_FLAT_VALUE, 0), (fCAL_FLAT_VALID, 1)]
  else s0.setFlds (rCAL_FLAT n point) [(fCAL_FLAT_VALUE, ofSigned 16 (calFlat s.cal.a0 p - 2 ^ 17)), (fCAL_FLAT_VALID, 1)]

/-- The history of the input and its DUE, once the results are written. -/
def calLogged (n : Nat) (s : State) : State :=
  let s2 := s.setFlds (rCAL_HIST0 n) [(fCAL_HIST0_COUNT, s.fld (rCAL_HIST0 n) fCAL_HIST0_COUNT + 1),
    (fCAL_HIST0_LAST_TEMP, s.fld (rTHM_TEMP n) fTHM_TEMP_TEMP)]
  let s3 := (s2.wr (rCAL_HIST1 n) (BitVec.ofNat 64 s2.time)).addMod rCAL_HIST_SNAP fCAL_HIST_SNAP_SEQ 1
  let due := s3.fld rCAL_STATUS fCAL_STATUS_DUE
  s3.setFld rCAL_STATUS fCAL_STATUS_DUE (if due / 2 ^ n % 2 = 1 then due - 2 ^ n else due)

theorem calCommit_eq {s : State} (h : s.cal.persist = false) : s.calCommit =
    (((calLogged s.cal.input (calResults s)).calRestore).setFlds rCAL_STATUS [(fCAL_STATUS_RESULT, 1), (fCAL_STATUS_REASON, 0)]).raise 96 := by
  simp only [State.calCommit, h, Bool.false_eq_true, if_false, calLogged, calResults]

theorem touches_calResults (s : State) : Touches mRegs s (calResults s) := by
  have k0 : Touches mRegs s (((upTo 32).zip s.cal.attcal).foldl (fun t e => t.wr (rCNV_ATTCAL s.cal.input e.1) e.2) s) :=
    .overList (.refl _ _) fun t e => touches_State.wr_hi _ _ _ (by simp only [rCNV_ATTCAL]; omega)
  unfold calResults
  dsimp only
  split
  · refine .andThen (.andThen (.overList (.andThen k0 (touches_State.setFlds_hi _ _ _ ?_)) fun t e => touches_State.setFld_hi _ _ _ _ ?_)
      (touches_State.setFld_hi _ _ _ _ ?_)) (touches_State.setFlds_hi _ _ _ ?_)
    · simp only [rCNV_CHCORR]
      omega
    · simp only [rCNV_ATTCAL]
      omega
    · simp only [rCNV_ATTCAL]
      omega
    · simp only [rCAL_FLAT]
      omega
  · exact k0.andThen (touches_State.setFlds_hi _ _ _ (by simp only [rCAL_FLAT]; omega))

/-- The results lie above the registers of runs and of the history. -/
theorem keeps_calResults (s : State) : keeps 0 0x40200 s (calResults s) := by
  have k0 : keeps 0 0x40200 s (((upTo 32).zip s.cal.attcal).foldl (fun t e => t.wr (rCNV_ATTCAL s.cal.input e.1) e.2) s) :=
    .overList (.refl _ _ _) fun t e _ => .wr (.refl _ _ _) _ (by simp only [rCNV_ATTCAL]; omega)
  unfold calResults
  dsimp only
  split
  · refine .setFlds (.setFld (.overList (.setFlds k0 ?_) fun t e _ => .setFld (.refl _ _ _) ?_) ?_) ?_
    · simp only [rCNV_CHCORR]
      omega
    · simp only [rCNV_ATTCAL]
      omega
    · simp only [rCNV_ATTCAL]
      omega
    · simp only [rCAL_FLAT]
      omega
  · exact .setFlds k0 (by simp only [rCAL_FLAT]; omega)

/-- A bit taken out of four. -/
theorem bit_cleared (d : Nat) (hd : d < 16) (n : Fin 4) : (if d / 2 ^ n.val % 2 = 1 then d - 2 ^ n.val else d) % 2 ^ 4 / 2 ^ n.val % 2 = 0 := by
  have : ∀ d : Fin 16, ∀ n : Fin 4, (if d.val / 2 ^ n.val % 2 = 1 then d.val - 2 ^ n.val else d) % 2 ^ 4 / 2 ^ n.val % 2 = 0 := by decide
  exact this ⟨d, hd⟩ n

theorem calLogged_effect (s : State) (n : Fin 4) {t : State} (e : calLogged n s = t) :
    t.fld (rCAL_HIST0 n) fCAL_HIST0_COUNT = (s.fld (rCAL_HIST0 n) fCAL_HIST0_COUNT + 1) % 2 ^ 32 ∧
    t.rd (rCAL_HIST1 n) = BitVec.ofNat 64 s.time ∧ t.fld rCAL_STATUS fCAL_STATUS_DUE / 2 ^ n.val % 2 = 0 ∧ Touches mRegs s t := by
  simp only [calLogged, State.setFlds_time] at e
  have h0 : rCAL_HIST0 n ≠ rCAL_STATUS ∧ rCAL_HIST0 n ≠ rCAL_HIST_SNAP ∧ rCAL_HIST0 n ≠ rCAL_HIST1 n := by
    simp only [rCAL_HIST0, rCAL_STATUS, rCAL_HIST_SNAP, rCAL_HIST1]
    omega
  have h1 : rCAL_HIST1 n ≠ rCAL_STATUS ∧ rCAL_HIST1 n ≠ rCAL_HIST_SNAP := by
    simp only [rCAL_STATUS, rCAL_HIST_SNAP, rCAL_HIST1]
    omega
  refine ⟨?_, ?_, ?_, ?_⟩
  · rw [← e, State.fld_setFld_other _ _ _ _ h0.1, State.fld_addMod_other _ _ _ _ h0.2.1, State.fld_wr_other _ _ _ h0.2.2]
    simp (disch := decide)
  · rw [← e, State.rd_setFld_other _ _ _ h1.1, State.rd_addMod_other _ _ _ h1.2, State.rd_wr_same]
  · rw [← e, State.fld_setFld_self _ _ _ _ (by decide)]
    exact bit_cleared _ (State.fld_lt _ _ _) n
  · rw [← e]
    exact .andThen (.andThen (.andThen (touches_State.setFlds_hi _ _ _ (by simp only [rCAL_HIST0]; omega))
      (touches_State.wr_hi _ _ _ (by simp only [rCAL_HIST1]; omega))) (touches_State.addMod_hi _ _ _ _ (by decide)))
      (touches_State.setFld_hi _ _ _ _ (by decide))

/-! ### Writes of CAL_RUN (R138, R142) -/

/-- The fields of a write of CAL_RUN. -/
def calFields (v : Word) (s : State) : State :=
  s.setFlds rCAL_RUN [(fCAL_RUN_PERSIST, fget v fCAL_RUN_PERSIST), (fCAL_RUN_TYPE, fget v fCAL_RUN_TYPE), (fCAL_RUN_INPUT, fget v fCAL_RUN_INPUT)]

/-- The fields of a write of CAL_RUN by the host. -/
def calWritten (v : Word) (s : State) : State := calFields v (s.dropStaged .host rCAL_RUN)

theorem calWritten_rd (v : Word) (s : State) {a : Nat} (h : a ≠ rCAL_RUN) : (calWritten v s).rd a = s.rd a := by
  rw [calWritten, calFields, State.rd_setFlds_other _ _ h, State.rd_dropStaged]

theorem calWritten_fld (v : Word) (s : State) {a : Nat} (f : Fld) (h : a ≠ rCAL_RUN) : (calWritten v s).fld a f = s.fld a f :=
  congrArg (fun w => fget w f) (calWritten_rd v s h)

theorem calWritten_cal (v : Word) (s : State) : (calWritten v s).cal = s.cal := by
  rw [calWritten, calFields, State.setFlds_cal, State.dropStaged_cal]

theorem calWritten_inputCores (v : Word) (s : State) (n : Nat) : (calWritten v s).inputCores n = s.inputCores n :=
  inputCores_congr (calWritten_rd v s (by decide)) n

theorem calWritten_runRegs (v : Word) (s : State) (n : Nat) : runRegs (calWritten v s) n = runRegs s n :=
  runRegs_congr (calWritten_rd v s (by decide)) n

theorem calWritten_fields (v : Word) (s : State) : (calWritten v s).fld rCAL_RUN fCAL_RUN_INPUT = fget v fCAL_RUN_INPUT ∧
    (calWritten v s).fld rCAL_RUN fCAL_RUN_TYPE = fget v fCAL_RUN_TYPE := by
  have hi : fget v fCAL_RUN_INPUT % 2 ^ 2 = fget v fCAL_RUN_INPUT := fget_mod v fCAL_RUN_INPUT
  have ht : fget v fCAL_RUN_TYPE % 2 ^ 2 = fget v fCAL_RUN_TYPE := fget_mod v fCAL_RUN_TYPE
  have li : fget v fCAL_RUN_INPUT < 4 := fget_lt v fCAL_RUN_INPUT
  have lt : fget v fCAL_RUN_TYPE < 4 := fget_lt v fCAL_RUN_TYPE
  simp (disch := decide) [calWritten, calFields, hi, ht, li, lt]

theorem calWritten_calBar (v : Word) (s : State) (n typ p : Nat) : (calWritten v s).calBar n typ p = s.calBar n typ p := by
  simp (disch := decide) only [State.calBar, State.calState, State.inputUsed, State.govern, State.paired, State.flag, State.fld, State.fldS,
    State.ready, State.glb, calWritten_rd]
  rfl

theorem onlyIn_calWritten (v : Word) (s : State) {l : List Nat} (h : rCAL_RUN ∈ l) : onlyIn (mRegs ||| mStaged ||| mGlb) l [] s (calWritten v s) := by
  unfold calWritten calFields
  exact .setFlds (.dropStaged (.refl _ _ _ _)) (ha := h)

/-- A host write of CAL_RUN in READY with at most one of its bits. -/
theorem calRun_go {v : Word} {s : State} (ha : fget v fCAL_RUN_ABORT = 0) (hs : fget v fCAL_RUN_STORE = 0) :
    (s.dropStaged .host rCAL_RUN).wrCalRun (fset v fCAL_RUN_GO 1) = (calWritten v s).calGo := by
  simp (disch := decide) [State.wrCalRun, calWritten, calFields, ha, hs]

theorem calRun_abort {v : Word} {s : State} (hg : fget v fCAL_RUN_GO = 0) (hs : fget v fCAL_RUN_STORE = 0) :
    (s.dropStaged .host rCAL_RUN).wrCalRun (fset v fCAL_RUN_ABORT 1) = (calWritten v s).calAbortIf 1 := by
  simp (disch := decide) [State.wrCalRun, calWritten, calFields, hg, hs]

theorem calRun_store {v : Word} {s : State} (hg : fget v fCAL_RUN_GO = 0) (ha : fget v fCAL_RUN_ABORT = 0) :
    (s.dropStaged .host rCAL_RUN).wrCalRun (fset v fCAL_RUN_STORE 1) = (calWritten v s).storeAsk := by
  simp (disch := decide) [State.wrCalRun, calWritten, calFields, hg, ha]

theorem calGo_eq (v : Word) (s : State) : (calWritten v s).calGo =
    if s.calBar (fget v fCAL_RUN_INPUT) (fget v fCAL_RUN_TYPE) (s.fld rCAL_REF fCAL_REF_POINT) != 0 then
      (calWritten v s).calRefuse (s.calBar (fget v fCAL_RUN_INPUT) (fget v fCAL_RUN_TYPE) (s.fld rCAL_REF fCAL_REF_POINT))
    else (calWritten v s).calBegin (fget v fCAL_RUN_INPUT) (fget v fCAL_RUN_TYPE) ((calWritten v s).flag rCAL_RUN fCAL_RUN_PERSIST) false := by
  obtain ⟨hi, ht⟩ := calWritten_fields v s
  simp only [State.calGo, hi, ht, calWritten_calBar, calWritten_fld v s fCAL_REF_POINT (show rCAL_REF ≠ rCAL_RUN by decide)]

/-! ### Phases (R139, R141) -/

theorem calPhaseEnd_switched {s : State} (h : s.calState = 1) (m : CalMeas) (hp : s.fld rCAL_STATUS fCAL_STATUS_PHASE = 1) :
    s.calPhaseEnd m = s.calPhase 2 := by
  rw [State.calPhaseEnd, if_neg (by simp [h])]
  simp only [hp]

theorem calPhaseEnd_waited {s : State} (h : s.calState = 1) (m : CalMeas) (hp : s.fld rCAL_STATUS fCAL_STATUS_PHASE = 0)
    (hc : ∀ c ∈ s.inputCores s.cal.input, (s.core c).phase = .off) :
    s.calPhaseEnd m = (s.onCal fun z => { z with badTo := SMap.set 0 s.cal.badTo s.cal.input 1 }).calPhase 1 := by
  rw [State.calPhaseEnd, if_neg (by simp [h])]
  simp only [hp]
  exact if_pos (by simpa using hc)

theorem calPhaseEnd_stepped {s : State} (h : s.calState = 1) (m : CalMeas) (hp : s.fld rCAL_STATUS fCAL_STATUS_PHASE = 5)
    (hc : s.calClipped = false) (hl : (s.cal.as_ ++ m.amps).length < 31) : s.calPhaseEnd m =
      (s.onCal fun z => { z with as_ := s.cal.as_ ++ m.amps }).calDrive s.cal.input ((s.cal.as_ ++ m.amps).length + 1) := by
  rw [State.calPhaseEnd, if_neg (by simp [h])]
  simp only [hp, hc, Bool.false_eq_true, if_false, List.take_of_length_le (Nat.le_of_lt hl), hl, if_true]

theorem calPhaseEnd_commits {s : State} (h : s.calState = 1) (m : CalMeas) (hp : s.fld rCAL_STATUS fCAL_STATUS_PHASE = 8) :
    s.calPhaseEnd m = s.calCommit := by
  rw [State.calPhaseEnd, if_neg (by simp [h])]
  simp only [hp]

/-- CHECK with its measurement entered. -/
def checked (m : CalMeas) (s : State) : State := (s.calMeas m).onCal fun _ => { s.cal with check := m.level }

theorem checked_cal (m : CalMeas) (s : State) : (checked m s).cal = { s.cal with check := m.level } := State.onCal_cal _ _

theorem checked_rd (m : CalMeas) (s : State) {a : Nat} (h : a ≠ rCAL_MEAS) : (checked m s).rd a = s.rd a := by
  rw [checked, State.rd_onCal, State.calMeas, State.rd_setFlds_other _ _ h]

theorem calPhaseEnd_check {s : State} (h : s.calState = 1) (m : CalMeas) (hp : s.fld rCAL_STATUS fCAL_STATUS_PHASE = 2) (hc : s.calCheck m ≠ 0) :
    s.calPhaseEnd m = (checked m s).calAbort (s.calCheck m) := by
  have e : (checked m s).calCheck m = s.calCheck m := by
    simp only [State.calCheck, State.fldS, checked_rd m s (show rCAL_REF ≠ rCAL_MEAS by decide)]
    rfl
  unfold State.calPhaseEnd
  rw [if_neg (by simp [h])]
  simp only [hp]
  change (if (checked m s).calCheck m != 0 then (checked m s).calAbort ((checked m s).calCheck m) else _) = _
  rw [e, if_pos (by simpa using hc)]

theorem calCheck_lt (s : State) (m : CalMeas) : s.calCheck m < 256 := by
  unfold State.calCheck
  split
  · decide
  · split
    · decide
    · split <;> decide

/-- A commit without PERSIST: the history, DUE, and the end of the run. -/
theorem calCommit_effect {s : State} {n : Fin 4} (hn : s.cal.input = n) (hp : s.cal.persist = false) {t : State} (e : s.calCommit = t) :
    t.calState = 0 ∧ t.fld rCAL_STATUS fCAL_STATUS_RESULT = 1 ∧
    t.fld (rCAL_HIST0 n) fCAL_HIST0_COUNT = (s.fld (rCAL_HIST0 n) fCAL_HIST0_COUNT + 1) % 2 ^ 32 ∧
    t.rd (rCAL_HIST1 n) = BitVec.ofNat 64 s.time ∧ t.fld rCAL_STATUS fCAL_STATUS_DUE / 2 ^ n.val % 2 = 0 ∧
    Touches (mEvent ||| mAct ||| mCtxs ||| mBillets ||| mCnv ||| mCal) s t := by
  rw [calCommit_eq hp, hn] at e
  have kr := keeps_calResults s
  have tr := touches_calResults s
  generalize calResults s = r at e kr tr
  generalize hl : calLogged n r = w at e
  obtain ⟨h0, h1, hd, tl⟩ := calLogged_effect r n hl
  generalize hw : w.calRestore = u at e
  have cw : w.cal = s.cal := (tl.cal (by decide)).trans (tr.cal (by decide))
  obtain ⟨u0, -, -, ud, ku⟩ := calRestore_effect ((congrArg Cal.input cw).trans hn) hw
  have hrd : ∀ a, a < 0x10000 ∨ 0x12000 + 8 * 96 < a → a ∉ endRegs w n → t.rd a = w.rd a := fun a h hm => by
    have : a ≠ rCAL_STATUS := fun e => hm (by simp [endRegs, e])
    rw [← e, State.rd_raise_other _ _ _ _ _ _ h, State.rd_setFlds_other _ _ this]
    exact ku.2 a hm (by simp)
  have hh0 : rCAL_HIST0 n ∉ endRegs w n := fun hm => by
    simp only [endRegs, List.mem_append, List.mem_map, List.mem_cons, List.not_mem_nil, or_false] at hm
    rcases hm with (e | e) | ⟨c, -, e⟩ <;> simp only [rCAL_HIST0, rCAL_RUN, rCAL_STATUS, rCNV_BG] at e <;> omega
  have hh1 : rCAL_HIST1 n ∉ endRegs w n := fun hm => by
    simp only [endRegs, List.mem_append, List.mem_map, List.mem_cons, List.not_mem_nil, or_false] at hm
    rcases hm with (e | e) | ⟨c, -, e⟩ <;> simp only [rCAL_HIST1, rCAL_RUN, rCAL_STATUS, rCNV_BG] at e <;> omega
  refine ⟨?_, ?_, ?_, ?_, ?_, ?_⟩
  · rw [← e]
    simp (disch := decide) [State.calState]
    exact u0
  · rw [← e]
    simp (disch := decide)
  · rw [State.fld, hrd _ (.inr (by simp only [rCAL_HIST0]; omega)) hh0]
    exact h0.trans (by rw [kr.fld _ _ (by simp only [rCAL_HIST0]; omega)])
  · rw [hrd _ (.inr (by simp only [rCAL_HIST1]; omega)) hh1, h1, tr.time (by decide)]
  · have : t.fld rCAL_STATUS fCAL_STATUS_DUE = w.fld rCAL_STATUS fCAL_STATUS_DUE := by
      rw [← e]
      simp (disch := decide)
      exact ud
    rw [this]
    exact hd
  · rw [← e]
    have tu := touches_State.calRestore w
    rw [hw] at tu
    exact .andThen (.andThen (.andThen (.andThen (tr.mono (by decide)) tl) tu) (touches_State.setFlds_hi _ _ _ (by decide))) (touches_State.raise _ _ _ _ _)

/-- A write of CNV_BG during a run leaves EN at 0. -/
theorem wrBg_run {s : State} {n : Nat} (h : s.calRunOn n = true) (v : Word) {t : State} (e : State.wrBg n v s = t) :
    t.flag (rCNV_BG n) fCNV_BG_EN = false ∧ t.core n = s.core n ∧ onlyIn (mRegs ||| mCal ||| mGlb) [rCNV_BG n] [] s t := by
  simp only [State.wrBg, h, if_true] at e
  subst e
  refine ⟨?_, ?_, .other (.setFld (.wrCodes (.refl _ _ _ _))) (touches_State.onCal _ _) (e := State.onCal_regs _ _)⟩
  · rw [State.flag, State.fld_onCal, State.fld_setFld_self _ _ _ _ (by decide)]
    rfl
  · rw [State.core, State.onCal_cnv, State.setFld_cnv, ← State.core, wrCodes_core]

/-- Settles O26, a clause per command and outcome. -/
theorem calibrationRuns : Obligations.CalibrationRuns := by
  refine ⟨fun v n s h ha hs hn hb => ?go, fun v s h ha hs hb => ?refused, fun v n s h hg hs h1 hn hl => ?abort, fun v s h hg hs h1 => ?none,
    fun m s hg h1 hp => next_live hg (calPhaseEnd_switched h1 m hp), fun m s hg h1 hp hc => next_live hg (calPhaseEnd_waited h1 m hp hc),
    fun m n s hg h1 hp hn hc => ?check, fun m n s hg h1 hp hn hper => ?commit,
    fun m s hg h1 hp hc hl => next_live hg (calPhaseEnd_stepped h1 m hp hc hl),
    fun m s hg h1 => next_live hg (if_pos (by simpa using h1)), fun n v s h hr => ?bg⟩
  case go =>
    refine ⟨_, next_hostWr h ((calRun_go ha hs).trans (calGo_eq v s)), ?_⟩
    rw [hn, hb, if_neg (by decide)]
    obtain ⟨c1, c2, c3, c4, c5, c6, c7, c8, c9, k⟩ := calBegin_effect (calWritten v s) n.isLt (fget v fCAL_RUN_TYPE)
      ((calWritten v s).flag rCAL_RUN fCAL_RUN_PERSIST) false rfl
    rw [calWritten_inputCores] at c9
    rw [calWritten_runRegs] at k
    refine ⟨c1, c2, c3, c4, ?_, c6, c7.trans (List.map_congr_left fun k _ => calWritten_rd v s ?_), c8, c9, ?_⟩
    · rw [c5, State.attStep, State.attStep, calWritten, calFields, State.afld, State.actv_setFlds, State.actv_dropStaged]
      rfl
    · simp only [rCNV_ATTCAL, rCAL_RUN]
      omega
    · have kw := onlyIn_calWritten v s (l := runRegs s n) (by simp [runRegs, endRegs])
      exact .of_hi (.andThen (kw.mono (m' := mRegs ||| mStaged ||| mCal ||| mGlb) (by decide) (fun _ h => h) (fun _ h => h)) k (by decide)
        (fun _ h => h) (fun _ h => h)) runRegs_glb
  case refused =>
    refine next_hostWr h ((calRun_go ha hs).trans ((calGo_eq v s).trans (if_pos (by simpa using hb))))
  case abort =>
    have c1 : (calWritten v s).calState = 1 := (calWritten_fld v s _ (by decide)).trans h1
    refine ⟨_, next_hostWr h ((calRun_abort hg hs).trans (if_pos c1)), ?_⟩
    obtain ⟨a1, a2, a3, a4, a5, a6, k⟩ := calAbort_effect (s := calWritten v s) (n := n) (by rw [calWritten_cal, hn]) (r := 1) (by decide) rfl
    rw [calWritten_cal] at a5 a6
    rw [calWritten_runRegs] at k
    exact ⟨a1, a2, a3, a4, a5 hl, a6, ((onlyIn_calWritten v s (by simp [runRegs, endRegs])).mono (srcs' := [97])
      (m' := mEvent ||| mStaged ||| mAct ||| mCnv ||| mCal ||| mGlb) (by decide) (fun _ h => h) (by simp)).andThen k (by decide)
      (fun _ h => h) (fun _ h => h) |>.2⟩
  case none =>
    exact next_hostWr h ((calRun_abort hg hs).trans (if_neg (by rw [State.calState, calWritten_fld v s _ (by decide)]; exact h1)))
  case check =>
    refine ⟨_, next_live hg (calPhaseEnd_check h1 m hp hc), ?_⟩
    obtain ⟨a1, a2, a3, -, -, -, k⟩ := calAbort_effect (s := checked m s) (n := n) (by rw [checked_cal, hn]) (calCheck_lt s m) rfl
    refine ⟨a1, a2, a3, fun a hm hs => (k.2 a ?_ hs).trans (checked_rd m s ?_)⟩
    · rw [runRegs_congr (checked_rd m s (by decide))]
      exact fun h => hm (by simp only [runRegs, endRegs, List.mem_append, List.mem_cons] at h ⊢; tauto)
    · exact fun h => hm (by simp [h])
  case commit => exact ⟨_, next_live hg (calPhaseEnd_commits h1 m hp), calCommit_effect hn hper rfl⟩
  case bg =>
    obtain ⟨h1, h2, k⟩ := wrBg_run (s := s.dropStaged .host (rCNV_BG n)) hr (inRange .CNV_BG n (s.rd (rCNV_BG n)) v) rfl
    have kd : onlyIn (mRegs ||| mStaged ||| mCal ||| mGlb) [rCNV_BG n] [] s (s.dropStaged .host (rCNV_BG n)) := .dropStaged (.refl _ _ _ _)
    exact ⟨_, next_hostWr h rfl, h1, h2, .of_hi (kd.andThen k) (by simp only [List.mem_singleton, rCNV_BG]; omega)⟩

end Sys2Proof
end

section
/-! SUPPORT. The end of a background step while a store write waits for it (R83, R148). -/

set_option Elab.async false

namespace Sys2Proof

open Sys2Proof.Machine

/-- A device in READY whose core 3 stands in the idle time of its background step, with EN 0 and HOLD 0, while a store write waits for it. -/
def waitingStore : State :=
  (((({ State.reset with pkg := { State.reset.pkg with porst := false } } : State).setFld rGLB_STATUS fGLB_STATUS_STATE 3).setFld
    (rCNV_BG_STATUS 3) fCNV_BG_STATUS_HOLD 0).onCal fun z => { z with await := [3], image := [0] }).updCore 3
    fun z => { z with phase := BgPhase.interval }

/-- The step's end sets HOLD, and counts that event in its source's register. -/
theorem waitingStore_counts : (waitingStore.storeStep (waitingStore.bgIntervalEnd 3) 3).rd (rEVT_SRC 71) ≠ waitingStore.rd (rEVT_SRC 71) := by
  decide +kernel

/-- Refutes O27: where EN reads 0 the end of the idle time sets HOLD with REASON 4, and a HOLD that was 0 raises its event (R83), here source
71; the last clause allows no register of events to change. -/
theorem not_calibrationStore : ¬ Obligations.CalibrationStore := by
  intro h
  obtain ⟨-, -, -, -, -, -, -, -, -, -, h⟩ := h
  obtain ⟨t, e, -, -, -, hk⟩ := h 3 waitingStore (by decide +kernel) (by decide +kernel) (by decide +kernel) (by decide +kernel) (by decide +kernel)
    (by decide +kernel)
  have e' : exec (.bgIntervalEnd 3) waitingStore = .next (waitingStore.storeStep (waitingStore.bgIntervalEnd 3) 3) :=
    next_live (by decide +kernel) rfl
  obtain rfl : waitingStore.storeStep (waitingStore.bgIntervalEnd 3) 3 = t := Host.Outcome.next.inj (e'.symm.trans e)
  exact waitingStore_counts (hk (rEVT_SRC 71) (by decide) (by simp))

end Sys2Proof
end

section
/-! SUPPORT. The commands of PLAN_CMD up to the commit point (R162 to R173). -/

set_option Elab.async false

namespace Sys2Proof

open Sys2Proof.Machine

/-- What a command of PLAN_CMD does, by its code (R162). -/
def planRun (c : Nat) (s : State) : State :=
  match c with
  | 1 => s.planLoad
  | 2 => s.srExit.planSchedule false
  | 3 => s.planAbort 48
  | 4 => s.planDiscard
  | _ => s.planSchedule true

/-- A command of PLAN_CMD by the host in READY with no map being cleared, by its code. -/
theorem planCmd {s t : State} {v : Word} {c : Nat} (h : s.ready = true) (hb : s.flag rMEM_MAP fMEM_MAP_MAP_BUSY = false) (hc : 0 < c ∧ c < 6)
    (e : planRun c (s.dropStaged .host rPLAN_CMD) = t) :
    (.next (s.hostWr .PLAN_CMD 0 rPLAN_CMD State.wrPlanCmd (fset v fPLAN_CMD_CMD c)) : Res) = .next t := by
  refine next_hostWr h (.trans ?_ e)
  have hv : fget (fset v fPLAN_CMD_CMD c) fPLAN_CMD_CMD = c := (fget_fset_self _ _ _ (by decide)).trans (Nat.mod_eq_of_lt (by simp; omega))
  change State.wrPlanCmd (fset v fPLAN_CMD_CMD c) _ = _
  unfold State.wrPlanCmd
  rw [hv, if_neg (by simp; omega), if_neg (by rw [State.flag, State.fld_dropStaged]; simpa [State.flag] using hb)]
  rfl

/-- While a map is being cleared every command of PLAN_CMD is refused. -/
theorem planCmd_busy {s : State} {v : Word} {c : Nat} (h : s.ready = true) (hb : s.flag rMEM_MAP fMEM_MAP_MAP_BUSY = true) (hc : 0 < c ∧ c < 6) :
    (.next (s.hostWr .PLAN_CMD 0 rPLAN_CMD State.wrPlanCmd (fset v fPLAN_CMD_CMD c)) : Res) = .next ((s.dropStaged .host rPLAN_CMD).planRefuse 17) := by
  refine next_hostWr h ?_
  have hv : fget (fset v fPLAN_CMD_CMD c) fPLAN_CMD_CMD = c := (fget_fset_self _ _ _ (by decide)).trans (Nat.mod_eq_of_lt (by simp; omega))
  change State.wrPlanCmd (fset v fPLAN_CMD_CMD c) _ = _
  unfold State.wrPlanCmd
  rw [hv, if_neg (by simp; omega), if_pos (by rw [State.flag, State.fld_dropStaged]; exact hb)]

theorem idleSlot_dropStaged (s : State) (p : Path) (a : Nat) : (s.dropStaged p a).idleSlot = s.idleSlot := by
  simp only [State.idleSlot, State.slotState, State.fld_dropStaged]
  rfl

theorem planState_dropStaged (s : State) (p : Path) (a : Nat) : (s.dropStaged p a).planState = s.planState := State.fld_dropStaged ..

/-- Staged halves of registers play no part in the admission test of a plan. -/
theorem planTest_dropStaged (s : State) (p : Path) (a : Nat) (q : PlanImg) : (s.dropStaged p a).planTest q = s.planTest q := rfl

/-- The schedule of an activation. -/
theorem planSchedule_activates {s : State} {p : PlanImg} {w : Nat} (h0 : s.planState = 0) (hp : s.stagedPlan = some p) (hr : s.ready = true)
    (hf : s.frootOff p.froot = false) (hw : s.planWhen = some w) (ht : s.planTest p = none) : s.planSchedule false =
      ((s.wr rPLAN_TIME (BitVec.ofNat 64 w)).setFlds rPLAN_STATUS [(fPLAN_STATUS_STATE, 2), (fPLAN_STATUS_RESULT, 0), (fPLAN_STATUS_REASON, 0)]).setFld
        rPWR_CTRL fPWR_CTRL_CNV_STBY 0 := by
  unfold State.planSchedule
  simp only [h0, hp, hr, hf, hw, ht, Bool.false_eq_true, if_false, Bool.not_true]
  rfl

theorem planSchedule_stops {s : State} {w : Nat} (h0 : s.planState = 0) (ha : s.activePlan ≠ none) (hr : s.ready = true) (hw : s.planWhen = some w) :
    s.planSchedule true =
      (s.wr rPLAN_TIME (BitVec.ofNat 64 w)).setFlds rPLAN_STATUS [(fPLAN_STATUS_STATE, 3), (fPLAN_STATUS_RESULT, 0), (fPLAN_STATUS_REASON, 0)] := by
  have hn : s.activePlan.isNone = false := by simpa [Option.isSome_iff_ne_none] using ha
  unfold State.planSchedule
  simp only [h0, hn, hr, hw, Bool.false_eq_true, if_false, Bool.not_true, if_true]
  rfl

/-- Settles O28, a clause per command and outcome. -/
theorem planCommands : Obligations.PlanCommands := by
  refine ⟨fun v s h hb h0 => ?load, fun v p w s h hb h0 hsr hp hf hw ht => ?activate, fun v w s h hb h0 ha hw => ?stop,
    fun v s h hb h2 hs => ?discard, fun v s h hb h2 hs => ?keep, fun v s h hb c hc => ?busy, fun v s h hb h2 => ?abort,
    fun v s h hb h2 => ?none, fun v s h hb c hc => ?clearing⟩
  case load =>
    refine planCmd h hb (c := 1) (by decide) ((if_neg (by simpa [planState_dropStaged] using h0)).trans ?_)
    rw [idleSlot_dropStaged]
  case activate =>
    have hx : (s.dropStaged .host rPLAN_CMD).srExit = s.dropStaged .host rPLAN_CMD := if_neg (by
      rw [State.selfRefresh, State.flag, State.fld_dropStaged]
      simp [show s.fld rPWR_CTRL fPWR_CTRL_SR = 0 by simpa [State.selfRefresh, State.flag] using hsr])
    have e := planSchedule_activates (s := s.dropStaged .host rPLAN_CMD) h0 hp h hf hw ht
    generalize hd : s.dropStaged .host rPLAN_CMD = d at e hx
    refine ⟨_, planCmd h hb (c := 2) (by decide) (hd ▸ (congrArg (State.planSchedule · false) hx).trans e), ?_, ?_, ?_, ?_, ?_, ?_⟩
    · simp (disch := decide) [State.planState]
    · simp (disch := decide)
    · simp (disch := decide)
    · simp (disch := decide) [State.flag]
    · simp
    · exact .of_hi (.setFld (.setFlds (.wr (.dropStaged (.refl _ _ _ _))))) (by decide)
  case stop => exact planCmd h hb (c := 5) (by decide) (planSchedule_stops (s := s.dropStaged .host rPLAN_CMD) h0 ha h hw)
  case discard =>
    refine planCmd h hb (c := 4) (by decide) ((if_neg h2).trans ((if_pos ?_).trans ?_))
    · rw [idleSlot_dropStaged]
      exact hs
    · rw [idleSlot_dropStaged]
  case keep =>
    refine planCmd h hb (c := 4) (by decide) ((if_neg h2).trans (if_neg ?_))
    rw [idleSlot_dropStaged]
    exact hs
  case busy =>
    rcases hc with ⟨h0, rfl⟩ | ⟨h0, rfl⟩ | ⟨h0, rfl⟩
    · exact planCmd h hb (c := 1) (by decide) (if_pos (by simpa [planState_dropStaged] using h0))
    · exact planCmd h hb (c := 5) (by decide) (if_pos (by simpa [planState_dropStaged] using h0))
    · exact planCmd h hb (c := 4) (by decide) (if_pos h0)
  case abort => exact planCmd h hb (c := 3) (by decide) (if_pos (by rcases h2 with h2 | h2 <;> simp [State.planState] at h2 ⊢ <;> simp [h2]))
  case none => exact planCmd h hb (c := 3) (by decide) (if_neg (by simp [State.planState] at h2 ⊢; omega))
  case clearing =>
    simp only [List.mem_cons, List.not_mem_nil, or_false] at hc
    rcases hc with rfl | rfl | rfl | rfl | rfl
    · exact planCmd_busy h hb (c := 1) (by decide)
    · exact planCmd_busy h hb (c := 2) (by decide)
    · exact planCmd_busy h hb (c := 3) (by decide)
    · exact planCmd_busy h hb (c := 4) (by decide)
    · exact planCmd_busy h hb (c := 5) (by decide)

end Sys2Proof
end

section
/-! SUPPORT. What the trigger fabric leaves alone, and the commit points of plans and parameters (R163 to R176, R259 to R273). -/

set_option Elab.async false

namespace Sys2Proof

open Sys2Proof.Machine

/-! ### Registers between the trigger windows and the network

A qualifier's decision writes in the windows of triggers, of the network and of events, and in no register from 0x100000 up to 0x900000; of the
windows of events it writes the ring's registers and the sources'. -/

theorem keeps.ofGlb {m : Nat} {s t u : State} (h : keeps 0 0x1000 s t) (k : Touches m t u) (hm : m.testBit 55 = false := by decide) :
    keeps 0 0x1000 s u := fun a h1 h2 => (k.glb hm a h2).trans (h a h1 h2)

section
variable {lo hi : Nat} (hr : (0x10028 ≤ lo ∧ hi ≤ 0x12000) ∨ (0x100000 ≤ lo ∧ hi ≤ 0x900000))
include hr

theorem keepsHigh_trgIssue (s : State) (e : TrgEv) : keeps lo hi s (s.trgIssue e) := by
  unfold State.trgIssue
  refine .overList ?_ fun t q _ => .ite (.other (.refl _ _ _) (touches_State.updTq _ _ _)) (.refl _ _ _)
  split
  · exact .addMod (.refl _ _ _) (by simp only [rTRG_SRC]; omega)
  · exact .refl _ _ _

theorem keepsHigh_netSend (s : State) (i : Nat) (o : Out) : keeps lo hi s (s.netSend i o) := by
  unfold State.netSend
  refine .ite (.refl _ _ _) (.ite (.other (.refl _ _ _) (touches_State.updNet _ _ _)) ?_)
  exact .addMod (.other (.refl _ _ _) (touches_State.send _ _)) (by simp only [rNET_SUB_CNT0]; omega)

theorem keepsHigh_aveTrigger (s : State) (a k t : Nat) : keeps lo hi s (s.aveTrigger a k t) := by
  unfold State.aveTrigger State.aveTrigPkt State.aveSend State.udpSend
  exact .ite (.addSat (.refl _ _ _) (by simp only [rAVE_GLOBAL]; omega)) ((keeps.other (.refl _ _ _) (touches_State.updAve _ _ _)).trans (keepsHigh_netSend hr _ _ _))

theorem keepsHigh_trigForward (s : State) (q t : Nat) : keeps lo hi s (s.trigForward q t) := by
  unfold State.trigForward
  exact .overList (.refl _ _ _) fun u f _ => .ite (keepsHigh_aveTrigger hr _ _ _ _) (.refl _ _ _)

/-- The registers and the state of a qualifier that show a decision (R271, R272). -/
def tqShown (s : State) (q pl : Nat) (forced : Bool) (ws : List Nat) : State :=
  ((((((s.wr (rTRG_TQ_LAST_TIME q) (BitVec.ofNat 64 (ws.getD 0 0))).wr (rTRG_TQ_LAST_INFO q) (BitVec.ofNat 64 (ws.getD 1 0))).addMod (rTRG_TQ_SNAP q)
    fTRG_TQ_SNAP_SEQ 1).addMod (rTRG_TQ_COUNT q) fTRG_TQ_COUNT_FIRED 1).addMod (rTRG_TQ_COUNT q) fTRG_TQ_COUNT_FORCED (b2n forced)).updTq q
      fun x => { x with loss := false, prev := some pl, base := max x.base pl })

/-- A decision goes to the acquisition units that its qualifier drives. -/
def decsTo (q : Nat) (d : Dec) (s : State) : State :=
  (upTo 8).foldl (fun t n => if t.afld (rACQ_CTRL n) fACQ_CTRL_QUAL = q then t.onDecs fun _ => SMap.upd [] t.decs n (· ++ [d]) else t) s

omit hr in
theorem tqDecide_eq (s : State) (q mode pl : Nat) (e : TrgEv) (forced free : Bool) : s.tqDecide q mode pl e forced free =
    (let ws := logWords q pl e forced free (s.tqU q).loss s.time
    let s5 := (((decsTo q ⟨pl, forced, ws⟩ ((tqShown s q pl forced ws).raiseLim 1000 (320 + q))).busDrive q).trigForward q pl).trgIssue
      ⟨pl, 64 + q, e.prec, (s.tqU q).loss, false, 0⟩
    if mode = 2 then s5.tqDisarm q else s5) := rfl

theorem keepsHigh_tqShown (s : State) {q : Nat} (hq : q < 16) (pl : Nat) (forced : Bool) (ws : List Nat) :
    keeps lo hi s (tqShown s q pl forced ws) := by
  refine .other (.addMod (.addMod (.addMod (.wr (.wr (.refl _ _ _) _ ?_) _ ?_) ?_) ?_) ?_) (touches_State.updTq _ _ _)
  · simp only [rTRG_TQ_LAST_TIME]
    omega
  · simp only [rTRG_TQ_LAST_INFO]
    omega
  · simp only [rTRG_TQ_SNAP]
    omega
  · simp only [rTRG_TQ_COUNT]
    omega
  · simp only [rTRG_TQ_COUNT]
    omega

omit hr in
theorem touches_decsTo (q : Nat) (d : Dec) (s : State) : Touches mDecs s (decsTo q d s) := by
  unfold decsTo
  refine .overList (m' := mDecs) (.refl _ _) fun t n => ?_
  split
  · exact touches_State.onDecs _ _
  · exact .refl _ _

theorem keepsHigh_busDrive (s : State) (q : Nat) : keeps lo hi s (s.busDrive q) := .other (.refl _ _ _) (touches_State.busDrive _ _)

theorem keepsHigh_tqDisarm (s : State) {q : Nat} (hq : q < 16) : keeps lo hi s (s.tqDisarm q) :=
  .other (.setFld (.refl _ _ _) (by simp only [rTRG_TQ_CFG]; omega)) (touches_State.updTq _ _ _)

theorem keepsHigh_tqDecide (s : State) {q : Nat} (hq : q < 16) (mode pl : Nat) (e : TrgEv) (forced free : Bool) :
    keeps lo hi s (s.tqDecide q mode pl e forced free) := by
  rw [tqDecide_eq]
  dsimp only
  generalize logWords q pl e forced free (s.tqU q).loss s.time = ws
  have k3 : keeps lo hi s ((tqShown s q pl forced ws).raiseLim 1000 (320 + q)) := .raiseLim (keepsHigh_tqShown hr s hq _ _ _) (by omega)
  have k5 := (((k3.other (touches_decsTo q ⟨pl, forced, ws⟩ _)).trans (keepsHigh_busDrive hr _ q)).trans (keepsHigh_trigForward hr _ q pl)).trans
    (keepsHigh_trgIssue hr _ ⟨pl, 64 + q, e.prec, (s.tqU q).loss, false, 0⟩)
  exact .ite (k5.trans (keepsHigh_tqDisarm hr _ hq)) k5

theorem keepsHigh_updTq (s : State) (q : Nat) (f : Tq → Tq) : keeps lo hi s (s.updTq q f) := .other (.refl _ _ _) (touches_State.updTq _ _ _)

theorem keepsHigh_tqQualify (s : State) {q : Nat} (hq : q < 16) (c : List Word) (pl : Nat) (e : TrgEv) :
    keeps lo hi s (s.tqQualify q c pl e) := by
  unfold State.tqQualify
  refine .ite (.addSat (.refl _ _ _) (by simp only [rTRG_TQ_STAT]; omega)) (.ite (keepsHigh_updTq hr _ _ _) ?_)
  exact (keepsHigh_updTq hr _ _ _).trans (keepsHigh_tqDecide hr _ hq _ _ _ _ _)

theorem keepsHigh_tqJudge (s : State) {q : Nat} (hq : q < 16) (e : TrgEv) : keeps lo hi s (s.tqJudge q e) := by
  unfold State.tqJudge
  dsimp only
  split
  · exact .ite (keepsHigh_tqQualify hr _ hq _ _ _) (.refl _ _ _)
  · refine .ite ?_ (.refl _ _ _)
    split
    · exact (keepsHigh_updTq hr _ _ _).trans (keepsHigh_tqQualify hr _ hq _ _ _)
    · exact keepsHigh_updTq hr _ _ _
  · have k : ∀ u : State, keeps lo hi s u → ∀ c : Bool, ∀ f, keeps lo hi s (if c then u.updTq q f else u) :=
      fun u h c f => .ite (h.trans (keepsHigh_updTq hr _ _ _)) h
    refine k _ ?_ _ _
    split
    · exact .ite ((keepsHigh_updTq hr _ _ _).trans (keepsHigh_tqQualify hr _ hq _ _ _)) (.refl _ _ _)
    · exact .refl _ _ _
  · have k : ∀ u : State, keeps lo hi s u → ∀ c : Bool, ∀ f, keeps lo hi s (if c then u.updTq q f else u) :=
      fun u h c f => .ite (h.trans (keepsHigh_updTq hr _ _ _)) h
    exact k _ (.ite ((keepsHigh_updTq hr _ _ _).trans (keepsHigh_updTq hr _ _ _)) (.refl _ _ _)) _ _

theorem keepsHigh_tqFlush (s : State) {q : Nat} (hq : q < 16) : keeps lo hi s (s.tqFlush q) := by
  unfold State.tqFlush
  refine (keeps.overList (.refl _ _ _) fun t e _ => ?_).trans (keepsHigh_updTq hr _ _ _)
  exact .ite ((keepsHigh_updTq hr _ _ _).trans (keepsHigh_tqJudge hr _ hq _)) (.refl _ _ _)

theorem keepsHigh_tqRelease (s : State) {q : Nat} (hq : q < 16) (c : List Word) : keeps lo hi s (s.tqRelease q c) := by
  unfold State.tqRelease State.tqTimers
  exact (((keepsHigh_updTq hr _ _ _).trans (keepsHigh_tqFlush hr _ hq)).trans (keepsHigh_updTq hr _ _ _)).trans (keepsHigh_updTq hr _ _ _)

theorem keepsHigh_trgRelat (s : State) : keeps lo hi s s.trgRelat := by
  unfold State.trgRelat
  refine .overList (.overList (.refl _ _ _) fun t k hk => .setFld (.refl _ _ _) ?_) fun t q hq => .setFld (.refl _ _ _) ?_
  · have := List.mem_range.mp hk
    simp only [rTRG_SRC]
    omega
  · have := List.mem_range.mp hq
    simp only [rTRG_TQ_EFF]
    omega

theorem keepsHigh_trgCommitted (s s1 : State) : keeps lo hi s1 (s.trgCommitted s1) := by
  unfold State.trgCommitted
  refine (keeps.overList (.overList (.overList (.refl _ _ _) fun t q hq => ?_) fun t k _ => ?_) fun t u _ => ?_).trans (keepsHigh_trgRelat hr _)
  · exact .ite (.refl _ _ _) (keepsHigh_tqRelease hr _ (List.mem_range.mp hq) _)
  · exact .ite (.refl _ _ _) (.other (.refl _ _ _) (touches_State.onTmr _ _))
  · exact .ite (.other (.refl _ _ _) (touches_State.updFm _ _ _)) (.refl _ _ _)

end

/-! ### The end of an activation or a STOP (R168, R172) -/

theorem keeps_admCapture (s : State) : keeps 0x380000 0x380100 s s.admCapture := by
  unfold State.admCapture
  refine .overList (.wr (.wr (.addMod (.refl _ _ _) (by decide)) _ (by decide)) _ (by decide)) fun t r _ => .wr (.refl _ _ _) _ ?_
  simp only [rADM_RES]
  omega

theorem keeps_admNote (s : State) (o : Option AdmFail) : keeps 0x380000 0x380100 s (s.admNote o) := by
  unfold State.admNote
  cases o with
  | none => exact (keeps.setFld (.refl _ _ _) (by decide)).trans (keeps_admCapture _)
  | some f =>
    have k : keeps 0x380000 0x380100 s (s.setFlds rADM_STATUS [(fADM_STATUS_REASON, f.1), (fADM_STATUS_RESOURCE, f.2.1), (fADM_STATUS_CONTEXT, f.2.2)]) :=
      .setFlds (.refl _ _ _) (by decide)
    exact .ite (k.trans (keeps_admCapture _)) ((keeps.raise (k.setFld (by decide)) (by decide)).trans (keeps_admCapture _))

theorem keeps_admRetest (s : State) : keeps 0x380000 0x380100 s s.admRetest := by
  unfold State.admRetest
  exact (keeps.setFld (.refl _ _ _) (by decide)).trans (keeps_admNote _ _)

theorem keeps.regs {lo hi : Nat} {s t u : State} (h : keeps lo hi s t) (e : u.regs = t.regs) : keeps lo hi s u :=
  fun a h1 h2 => (State.rd_congr e a).trans (h a h1 h2)

theorem keeps_measure (s : State) (i v : Nat) : keeps 0x380000 0x380100 s (s.measure i v) := by
  unfold State.measure
  exact .raise (.setFld (.regs (.addMod (.refl _ _ _) (by decide)) (State.onStk_regs _ _)) (by decide)) (by decide)

/-- The end of an activation or a STOP: DONE in PLAN_STATUS. -/
theorem planDone_status (s : State) (sha detail : Nat) : (s.planDone sha detail).planState = 0 ∧
    (s.planDone sha detail).fld rPLAN_STATUS fPLAN_STATUS_RESULT = 1 := by
  have k : keeps 0x380000 0x380100 (s.planStatus 0 1 0) (s.planDone sha detail) := by
    unfold State.planDone
    exact (((keeps.raise (.refl _ _ _) (by decide)).trans (keeps_measure _ _ _)).trans (keeps_admRetest _)).trans (keepsHigh_trgRelat (by decide) _)
  rw [State.planState, k.fld _ _ (by decide), k.fld _ _ (by decide), State.planStatus]
  simp (disch := decide)

/-! ### What a plan shows (R175, R178) -/

theorem keeps_trgPlan (s : State) (p : Option PlanImg) : keeps 0 0x1000 s (s.trgPlan p) := by
  unfold State.trgPlan
  refine .overList (.overList (.refl _ _ _) fun t i _ => ?_) fun t u _ => ?_
  · exact .other (.setFlds (.refl _ _ _) (by simp only [rTRG_LT_CFG]; omega)) (touches_State.setAct _ _ _)
  · exact .other (.setFlds (.refl _ _ _) (by simp only [rTRG_FM_CFG]; omega)) (touches_State.setAct _ _ _)

/-- Showing a plan changes no global register. -/
theorem keeps_showPlan (s : State) (p : Option PlanImg) : keeps 0 0x1000 s (s.showPlan p) := by
  unfold State.showPlan
  refine .ofGlb (.ofGlb (.ofGlb (keeps.trans ?_ (keeps_trgPlan _ _)) (touches_State.acqPlan _ _)) (touches_State.turfPlan _ _)) (touches_State.cmpPlan _ _)
  refine .ofGlb (.ofGlb (.ofGlb (.overList ?_ fun t c _ => .setFlds (.refl _ _ _) ?_) (touches_State.ddcPlan _ _)) (touches_State.xfmPlan _ _))
    (touches_State.detPlan _ _)
  · have k : ∀ g : Nat → List (Fld × Nat), keeps 0 0x1000 s ((upTo 96).foldl (fun t sq => t.setFlds (rGRID_SQ sq) (g sq)) s) :=
      fun g => .overList (.refl _ _ _) fun t sq _ => .setFlds (.refl _ _ _) (by simp only [rGRID_SQ]; omega)
    cases p with
    | none => exact k _
    | some q => exact (k _).setFlds (by decide)
  · simp only [rTDC_CH]
    omega

end Sys2Proof
end

section
/-! SUPPORT. The commits of a plan, of a STOP and of parameters (R163 to R176). -/

set_option Elab.async false

namespace Sys2Proof

open Sys2Proof.Machine

/-! ### Slots -/

/-- The place of a plan in the slots. -/
def slotsWith (k : Nat) (p : Option PlanImg) (x : PlanSt) : PlanSt := if k = 0 then { x with slot0 := p } else { x with slot1 := p }

theorem setSlot_plan (s : State) (k st : Nat) (p : Option PlanImg) : (s.setSlot k st p).plan = slotsWith k p s.plan := by
  unfold State.setSlot
  dsimp only
  rw [State.onPlan_plan, State.wr_plan, State.setFld_plan, slotsWith]

theorem slotsWith_holds (k : Nat) (p : Option PlanImg) (x : PlanSt) : (slotsWith k p x).slot0 = p ∨ (slotsWith k p x).slot1 = p := by
  unfold slotsWith
  split
  · exact .inl rfl
  · exact .inr rfl

/-! ### An activation, part by part (R168 to R170) -/

/-- What an activation lets go before the plan changes. -/
def planLeave (old new : PlanImg) (s0 : State) : State :=
  let s1 := (((old.units.map (·.square)).filter fun sq => !keptUnit old new sq).foldl State.unitClear s0).drainPorts
  let s2 := (pairCores old new).foldl (fun (t : State) n => if t.cal.input = n then t.calAbortIf 9 else t) s1
  (old.ctxNums.filter fun x => (new.entryOf x).isNone).foldl (fun (t : State) x => ((t.streamDrop x).stampsDrop x).drainCtx x) s2

/-- The plan takes its slot. -/
def planEnter (new : PlanImg) (s3 : State) : State :=
  ((s3.setSlot (1 - s3.idleSlot) 0 none).setSlot s3.idleSlot 3 (some new)).setFld rGLB_STATUS fGLB_STATUS_PLAN_ACTIVE 1

/-- A context of the plan goes on, begins a new epoch or is taken in. -/
def planCtx (old new : PlanImg) (t : State) (e : List Word) : State :=
  let x := entryFld e 0 ⟨0, 12⟩
  let plat := t.ctxLatency new x
  if keptCtx old new x then t
  else if (old.entryOf x).isSome && (t.ctx x).st = .opened then t.gapCtx x plat e
  else t.takeIn x e false plat

/-- Units and contexts begin under the plan. -/
def planBegin (old new : PlanImg) (s4 : State) : State :=
  let s5 := (s4.showPlan (some new)).auAside (keptUnit old new)
  let s6 := (pairCores old new).foldl (fun (t : State) n => (t.newGeff n).bgPlanTouch n) s5
  let s7 := new.ctxs.foldl (planCtx old new) s6
  let s8 := ((new.units.map (·.square)).filter fun sq => !keptUnit old new sq).foldl (State.unitOrigin 2) s7
  s8.trgCommitted s8

/-- The plan that was active, or none with the converter mode as it stands. -/
def planBefore (s s0 : State) : PlanImg :=
  s0.activePlan.getD ⟨0, 0, 0, 0, s.fld rCNV_MODE fCNV_MODE_PAIR01, s.fld rCNV_MODE fCNV_MODE_PAIR23, [], [], [], []⟩

theorem writeParams_none (s : State) {p : PlanImg} (h : p.params = []) (kept : Nat → Bool) : s.writeParams p kept = s.trgCommitted s := by
  simp only [State.writeParams, h, List.foldl_nil]

theorem planActivate_eq (s : State) {new : PlanImg} (h : new.params = []) : ∃ old, s.planActivate new =
    ((planBegin old new (planEnter new (planLeave old new (s.reach (s.rd rPLAN_TIME).toNat).drainPorts))).addMod rPLAN_STATUS
      fPLAN_STATUS_ACTIVATIONS 1).planDone new.sha new.planId := by
  refine ⟨planBefore s (s.reach (s.rd rPLAN_TIME).toNat).drainPorts, ?_⟩
  simp only [State.planActivate, writeParams_none _ h]
  rfl

/-- Everything but the registers' file of plans and time. -/
def mPlanRest : Nat :=
  mEvent ||| mAct ||| mFreeCtr ||| mStore ||| mCtxs ||| mBillets ||| mPorts ||| mAside ||| mBadLines ||| mDdc ||| mXfm ||| mFrames ||| mDet |||
  mDen ||| mLt ||| mFm ||| mAu ||| mReplay ||| mCmp ||| mCnv ||| mCal ||| mStreams ||| mTdc ||| mTurf ||| mClusters ||| mTq ||| mBus ||| mTmr |||
  mDecs ||| mNet ||| mAve ||| mStk ||| mGlb

theorem touches_planLeave (old new : PlanImg) (s : State) : Touches mPlanRest s (planLeave old new s) := by
  have k1 : Touches mPlanRest s ((((old.units.map (·.square)).filter fun sq => !keptUnit old new sq).foldl State.unitClear s).drainPorts) :=
    .andThen (.overList (.refl _ _) touches_State.unitClear) (touches_State.drainPorts _)
  refine .overList (m' := mPlanRest) (.overList (m' := mPlanRest) k1 fun t n => ?_) fun t x => ?_
  · split
    · exact (touches_State.calAbortIf _ _).mono (by decide)
    · exact .refl _ _
  · exact .andThen (.andThen ((touches_State.streamDrop _ _).mono (by decide)) (touches_State.stampsDrop _ _)) (touches_State.drainCtx _ _)

theorem touches_planCtx (old new : PlanImg) (t : State) (e : List Word) :
    Touches (mEvent ||| mCtxs ||| mBillets ||| mPorts ||| mTdc ||| mStreams) t (planCtx old new t e) := by
  unfold planCtx
  dsimp only
  split
  · exact .refl _ _
  · split
    · exact (touches_State.gapCtx _ _ _ _).mono (by decide)
    · exact (touches_State.takeIn _ _ _ _ _).mono (by decide)

theorem planBegin_effect (old new : PlanImg) (s : State) : Touches mPlanRest s (planBegin old new s) ∧ keeps 0 0x1000 s (planBegin old new s) := by
  unfold planBegin
  dsimp only
  generalize h5 : (s.showPlan (some new)).auAside (keptUnit old new) = s5
  have t5 : Touches mPlanRest s s5 := h5 ▸ .andThen ((touches_State.showPlan _ _).mono (by decide)) (touches_State.auAside _ _)
  have k5 : keeps 0 0x1000 s s5 := h5 ▸ .ofGlb (keeps_showPlan _ _) (touches_State.auAside _ _)
  have t8 : Touches (mEvent ||| mFreeCtr ||| mStore ||| mCtxs ||| mBillets ||| mPorts ||| mAside ||| mBadLines ||| mDdc ||| mXfm ||| mDet ||| mDen |||
      mAu ||| mCmp ||| mCnv ||| mTdc ||| mStreams) s5 (((new.units.map (·.square)).filter fun sq => !keptUnit old new sq).foldl (State.unitOrigin 2)
      (new.ctxs.foldl (planCtx old new) ((pairCores old new).foldl (fun (t : State) n => (t.newGeff n).bgPlanTouch n) s5))) :=
    .overList (.overList (.overList (m' := mRegs ||| mCtxs ||| mBillets ||| mCnv) (.refl _ _)
      fun t n => .andThen ((touches_State.newGeff _ _).mono (by decide)) (touches_State.bgPlanTouch _ _)) (touches_planCtx old new)) (touches_State.unitOrigin 2)
  exact ⟨(t5.andThen t8).andThen (touches_State.trgCommitted _ _), (k5.ofGlb t8).ofGlb (touches_State.trgCommitted _ _)⟩

theorem planEnter_effect (new : PlanImg) (s : State) : ((planEnter new s).plan.slot0 = some new ∨ (planEnter new s).plan.slot1 = some new) ∧
    (planEnter new s).planActive = true ∧ (planEnter new s).time = s.time := by
  unfold planEnter
  refine ⟨?_, ?_, ?_⟩
  · rw [State.setFld_plan, setSlot_plan]
    exact slotsWith_holds _ _ _
  · rw [State.planActive, State.flag, State.fld_setFld_self _ _ _ _ (by decide)]
    rfl
  · rw [State.setFld_time]
    exact ((touches_State.setSlot _ _ _ _).time (by decide)).trans ((touches_State.setSlot _ _ _ _).time (by decide))

theorem planActive_congr {s t : State} (k : keeps 0 0x1000 s t) : t.planActive = s.planActive := k.flag _ _ (by decide)

/-- The end of a commit: DONE, with the plan, PLAN_ACTIVE and time as before it. -/
theorem planEnd_effect (s : State) (sha detail : Nat) {t : State} (e : (s.addMod rPLAN_STATUS fPLAN_STATUS_ACTIVATIONS 1).planDone sha detail = t) :
    t.planState = 0 ∧ t.fld rPLAN_STATUS fPLAN_STATUS_RESULT = 1 ∧ t.plan = s.plan ∧ t.planActive = s.planActive ∧ t.time = s.time := by
  have k : keeps 0 0x1000 s t := e ▸ .ofGlb (.addMod (.refl _ _ _) (by decide)) (touches_State.planDone _ _ _)
  have tt : Touches (mEvent ||| mStk) s t := e ▸ .andThen ((touches_State.addMod_hi _ _ _ _ (by decide)).mono (by decide)) (touches_State.planDone _ _ _)
  exact ⟨e ▸ (planDone_status _ _ _).1, e ▸ (planDone_status _ _ _).2, tt.plan (by decide), planActive_congr k, tt.time (by decide)⟩

theorem planCommit_effect {s : State} {p : PlanImg} (hh : s.held = false) (h2 : s.planState = 2) (hp : s.stagedPlan = some p) (hq : p.params = [])
    {t : State} (e : s.planCommit = t) : t.planState = 0 ∧ t.fld rPLAN_STATUS fPLAN_STATUS_RESULT = 1 ∧
    (t.plan.slot0 = some p ∨ t.plan.slot1 = some p) ∧ t.planActive = true ∧ (s.rd rPLAN_TIME).toNat ≤ t.time := by
  have e1 : s.planCommit = s.planActivate p := by
    unfold State.planCommit
    rw [if_neg (by simp [h2])]
    simp only [hp]
  obtain ⟨old, e2⟩ := planActivate_eq s hq
  obtain ⟨c1, c2, c3, c4, c5⟩ := planEnd_effect _ _ _ ((e2.symm.trans e1.symm).trans e)
  generalize hs : planLeave old p (s.reach (s.rd rPLAN_TIME).toNat).drainPorts = s3 at c3 c4 c5
  obtain ⟨n1, n2, n3⟩ := planEnter_effect p s3
  obtain ⟨tb, kb⟩ := planBegin_effect old p (planEnter p s3)
  have ht : s3.time = max s.time (s.rd rPLAN_TIME).toNat := by
    rw [← hs, (touches_planLeave _ _ _).time (by decide), (touches_State.drainPorts _).time (by decide), State.reach_time_running hh]
  refine ⟨c1, c2, ?_, ?_, ?_⟩
  · rw [c3, tb.plan (by decide)]
    exact n1
  · rw [c4, planActive_congr kb]
    exact n2
  · rw [c5, tb.time (by decide), n3, ht]
    exact Nat.le_max_right _ _

/-! ### A STOP (R172) -/

/-- What a STOP lets go. -/
def stopLeave (old : PlanImg) (s0 : State) : State :=
  old.ctxNums.foldl (fun (t : State) x => ((t.streamDrop x).stampsDrop x).drainCtx x)
    ((old.units.map (·.square)).foldl State.unitClear s0).drainPorts

theorem touches_stopLeave (old : PlanImg) (s : State) : Touches mPlanRest s (stopLeave old s) :=
  .overList (m' := mPlanRest) (.andThen (.overList (.refl _ _) touches_State.unitClear) (touches_State.drainPorts _)) fun t x =>
    .andThen (.andThen ((touches_State.streamDrop _ _).mono (by decide)) (touches_State.stampsDrop _ _)) (touches_State.drainCtx _ _)

/-- The plan leaves its slot. -/
def stopSlot (s2 : State) : State := (s2.setSlot (1 - s2.idleSlot) 0 none).setFld rGLB_STATUS fGLB_STATUS_PLAN_ACTIVE 0

theorem stopSlot_effect (s : State) : ((stopSlot s).plan.slot0 = none ∨ (stopSlot s).plan.slot1 = none) ∧ (stopSlot s).planActive = false ∧
    (stopSlot s).time = s.time := by
  unfold stopSlot
  refine ⟨?_, ?_, ?_⟩
  · rw [State.setFld_plan, setSlot_plan]
    exact slotsWith_holds _ _ _
  · rw [State.planActive, State.flag, State.fld_setFld_self _ _ _ _ (by decide)]
    rfl
  · rw [State.setFld_time]
    exact (touches_State.setSlot _ _ _ _).time (by decide)

theorem planStopCommit_effect {s : State} {p : PlanImg} (hh : s.held = false) (h3 : s.planState = 3) (hp : s.activePlan = some p)
    {t : State} (e : s.planStopCommit = t) : t.planState = 0 ∧ t.fld rPLAN_STATUS fPLAN_STATUS_RESULT = 1 ∧
    (t.plan.slot0 = none ∨ t.plan.slot1 = none) ∧ t.planActive = false ∧ (s.rd rPLAN_TIME).toNat ≤ t.time := by
  have e1 : s.planStopCommit = (((stopSlot (stopLeave p (s.reach (s.rd rPLAN_TIME).toNat).drainPorts)).showPlan none).auAside fun _ => false).planDone
      (Config.sha384 []) p.planId := by
    unfold State.planStopCommit
    rw [if_neg (by simp [h3])]
    simp only [hp]
    rfl
  generalize hs : stopLeave p (s.reach (s.rd rPLAN_TIME).toNat).drainPorts = s3 at e1
  obtain ⟨n1, n2, n3⟩ := stopSlot_effect s3
  have ht : s3.time = max s.time (s.rd rPLAN_TIME).toNat := by
    rw [← hs, (touches_stopLeave _ _).time (by decide), (touches_State.drainPorts _).time (by decide), State.reach_time_running hh]
  have tt : Touches mPlanRest (stopSlot s3) t := by
    rw [← e, e1]
    exact .andThen (.andThen ((touches_State.showPlan _ _).mono (by decide)) (touches_State.auAside _ _)) (touches_State.planDone _ _ _)
  have kt : keeps 0 0x1000 (stopSlot s3) t := by
    rw [← e, e1]
    exact .ofGlb (.ofGlb (keeps_showPlan _ _) (touches_State.auAside _ _)) (touches_State.planDone _ _ _)
  refine ⟨?_, ?_, ?_, ?_, ?_⟩
  · rw [← e, e1]
    exact (planDone_status _ _ _).1
  · rw [← e, e1]
    exact (planDone_status _ _ _).2
  · rw [tt.plan (by decide)]
    exact n1
  · rw [planActive_congr kt]
    exact n2
  · rw [tt.time (by decide), n3, ht]
    exact Nat.le_max_right _ _

/-! ### A parameter commit (R176) -/

theorem keeps_commitReg {lo hi : Nat} {s t : State} (h : keeps lo hi s t) (a : Nat) : keeps lo hi s (t.commitReg a) :=
  .other h (touches_State.commitReg _ _)

theorem keeps_ddcParamCommit (s : State) : keeps 0x380000 0x380100 s s.ddcParamCommit := by
  unfold State.ddcParamCommit
  refine .overList (.refl _ _ _) fun t u hu => ?_
  have hb := List.mem_range.mp hu
  have k1 : ∀ v, keeps 0x380000 0x380100 t v → keeps 0x380000 0x380100 t (if v.flag (rDDC_NCO_CTRL u) fDDC_NCO_CTRL_RST_ARM then
      (v.updDdc u fun d => { d with acc := 0 }).setFld (rDDC_NCO_CTRL u) fDDC_NCO_CTRL_RST_ARM 0 else v) :=
    fun v h => .ite (.setFld (.other h (touches_State.updDdc _ _ _)) (by simp only [rDDC_NCO_CTRL]; omega)) h
  have k2 : ∀ f, keeps 0x380000 0x380100 t ((upTo 12).foldl (fun v k => v.commitReg (rDDC_STAGE u k))
      (((t.commitReg (rDDC_NCO_FTW u)).commitReg (rDDC_NCO_CTRL u)).updDdc u f)) := fun f =>
    .overList (.other (keeps_commitReg (keeps_commitReg (.refl _ _ _) _) _) (touches_State.updDdc _ _ _)) fun v k _ => keeps_commitReg (.refl _ _ _) _
  dsimp only
  split
  · exact .other (k1 _ (k2 _)) (touches_State.updDdc _ _ _)
  · exact k1 _ (k2 _)

theorem keeps_acqParamCommit (s : State) : keeps 0x380000 0x380100 s s.acqParamCommit := by
  unfold State.acqParamCommit State.auDiscard
  refine .overList (.overList (.refl _ _ _) fun t n _ => ?_) fun t l _ => keeps_commitReg (keeps_commitReg (keeps_commitReg (.refl _ _ _) _) _) _
  have k := keeps_commitReg (keeps_commitReg (keeps.refl 0x380000 0x380100 t) (rACQ_SEG n)) (rACQ_LOG n)
  exact .ite (keeps_commitReg (keeps_commitReg k _) _) (.raise (.other k (touches_State.updAu _ _ _)) (by decide))

theorem keeps_cmpParamCommit (s : State) : keeps 0x380000 0x380100 s s.cmpParamCommit := by
  unfold State.cmpParamCommit State.cmpCommit
  refine .overList (.refl _ _ _) fun t u _ => .overList (keeps_commitReg (.refl _ _ _) _) fun v k _ => ?_
  exact .ite (.refl _ _ _) (.ite (.addSat (.refl _ _ _) (by simp only [rCMP_STAT]; omega)) (keeps_commitReg (keeps_commitReg (.refl _ _ _) _) _))

theorem keeps_trgCommitRegs (s : State) : keeps 0x380000 0x380100 s s.trgCommitRegs := by
  unfold State.trgCommitRegs
  refine .overList (.overList (.overList (.overList (.refl _ _ _) ?_) ?_) ?_) ?_
  · exact fun t k _ => keeps_commitReg (keeps_commitReg (.refl _ _ _) _) _
  · exact fun t k _ => keeps_commitReg (keeps_commitReg (.refl _ _ _) _) _
  · exact fun t u _ => .overList (keeps_commitReg (.refl _ _ _) _) fun t k _ => keeps_commitReg (.refl _ _ _) _
  · exact fun t q _ => .overList (.refl _ _ _) fun t a _ => keeps_commitReg (.refl _ _ _) _

theorem keeps_trgParamCommit (s : State) : keeps 0x380000 0x380100 s s.trgParamCommit := by
  unfold State.trgParamCommit
  exact (keeps_trgCommitRegs s).trans (keepsHigh_trgCommitted (by decide) s _)

/-- What a parameter commit does in the units. -/
def unitsCommit (s : State) : State :=
  (((((s.ddcParamCommit).xfmParamCommit).detParamCommit).cmpParamCommit).trgParamCommit).acqParamCommit

theorem unitsCommit_effect (s : State) : keeps 0x380000 0x380100 s (unitsCommit s) ∧ (unitsCommit s).plan = s.plan ∧ (unitsCommit s).time = s.time := by
  have k : keeps 0x380000 0x380100 s (unitsCommit s) :=
    ((((keeps_ddcParamCommit s).other (touches_State.xfmParamCommit _)).other (touches_State.detParamCommit _)).trans
      (keeps_cmpParamCommit _)).trans (keeps_trgParamCommit _) |>.trans (keeps_acqParamCommit _)
  have t : Touches mPlanRest s (unitsCommit s) :=
    .andThen (.andThen (.andThen (.andThen (.andThen ((touches_State.ddcParamCommit s).mono (by decide)) (touches_State.xfmParamCommit _))
      (touches_State.detParamCommit _)) (touches_State.cmpParamCommit _)) (touches_State.trgParamCommit _)) (touches_State.acqParamCommit _)
  exact ⟨k, t.plan (by decide), t.time (by decide)⟩

/-- A commit is counted, and one whose time has passed is marked late. -/
def pcCounted (late : Bool) (s : State) : State :=
  let s2 := (s.setFld rPLAN_PCOMMIT fPLAN_PCOMMIT_GO 0).addMod rPLAN_PCOMMIT fPLAN_PCOMMIT_COUNT 1
  if late then (s2.setFld rPLAN_PCOMMIT fPLAN_PCOMMIT_LATE 1).raise 12 else s2

theorem pcCounted_effect (late : Bool) (s : State) : (pcCounted late s).flag rPLAN_PCOMMIT fPLAN_PCOMMIT_GO = false ∧
    (pcCounted late s).fld rPLAN_PCOMMIT fPLAN_PCOMMIT_COUNT = (s.fld rPLAN_PCOMMIT fPLAN_PCOMMIT_COUNT + 1) % 2 ^ 32 ∧
    (pcCounted late s).plan = s.plan ∧ (pcCounted late s).time = s.time := by
  cases late <;> simp (disch := decide) [pcCounted, State.flag]

theorem paramCommit_effect {s : State} (hh : s.held = false) (hg : s.flag rPLAN_PCOMMIT fPLAN_PCOMMIT_GO = true) (h2 : s.planState ≠ 2) {t : State}
    (e : s.paramCommit = t) : t.flag rPLAN_PCOMMIT fPLAN_PCOMMIT_GO = false ∧
    t.fld rPLAN_PCOMMIT fPLAN_PCOMMIT_COUNT = (s.fld rPLAN_PCOMMIT fPLAN_PCOMMIT_COUNT + 1) % 2 ^ 32 ∧
    (s.actv rPLAN_PC_TIME).toNat ≤ t.time ∧ t.plan = s.plan := by
  generalize hr : s.reach (s.actv rPLAN_PC_TIME).toNat = s0
  have hf : ∀ a f, s0.fld a f = s.fld a f := fun a f => by rw [← hr, reach_fld]
  have hc : s0.planCommit = s0 := if_pos (by
    rw [State.planState, hf]
    simpa [State.planState] using h2)
  have e1 : s.paramCommit = unitsCommit (pcCounted ((s.actv rPLAN_PC_TIME).toNat != 0 && (s.actv rPLAN_PC_TIME).toNat < s.time) s0) := by
    unfold State.paramCommit
    rw [if_neg (by simp [hg])]
    simp only [hr, hc, ite_self]
    rfl
  obtain ⟨k, hp, ht⟩ := unitsCommit_effect (pcCounted ((s.actv rPLAN_PC_TIME).toNat != 0 && (s.actv rPLAN_PC_TIME).toNat < s.time) s0)
  obtain ⟨c1, c2, c3, c4⟩ := pcCounted_effect ((s.actv rPLAN_PC_TIME).toNat != 0 && (s.actv rPLAN_PC_TIME).toNat < s.time) s0
  rw [← e, e1]
  refine ⟨?_, ?_, ?_, ?_⟩
  · rw [k.flag _ _ (by decide)]
    exact c1
  · rw [k.fld _ _ (by decide), c2, hf]
  · rw [ht, c4, ← hr, State.reach_time_running hh]
    exact Nat.le_max_right _ _
  · rw [hp, c3, ← hr]
    exact (touches_State.reach s _).plan (by decide)

/-! ### Fetches (R163, R165) -/

theorem planReject_status (s : State) (r d : Nat) (hr : r < 256) : (s.planReject (r, d)).planState = 0 ∧
    (s.planReject (r, d)).fld rPLAN_STATUS fPLAN_STATUS_RESULT = 2 ∧ (s.planReject (r, d)).fld rPLAN_STATUS fPLAN_STATUS_REASON = r := by
  simp (disch := decide) [State.planState, State.planReject, State.planStatus]
  exact hr

/-- GO of a parameter commit. -/
theorem wrPcommit_effect {s : State} (hg : s.flag rPLAN_PCOMMIT fPLAN_PCOMMIT_GO = false) {v : Word} (hv : fget v fPLAN_PCOMMIT_GO = 1) {t : State}
    (e : State.wrPcommit v s = t) : t.flag rPLAN_PCOMMIT fPLAN_PCOMMIT_GO = true ∧
    ((s.rd rPLAN_PC_TIME).toNat ≠ 0 ∧ (s.rd rPLAN_PC_TIME).toNat ≤ s.time → t.flag rPLAN_PCOMMIT fPLAN_PCOMMIT_LATE = true) ∧
    t.fld rPLAN_PCOMMIT fPLAN_PCOMMIT_COUNT = s.fld rPLAN_PCOMMIT fPLAN_PCOMMIT_COUNT ∧
    onlyIn (mEvent ||| mAct ||| mGlb) [rPLAN_PCOMMIT] [12] s t := by
  have hro : roField rPLAN_PCOMMIT fPLAN_PCOMMIT_COUNT = true := by decide +kernel
  generalize hw : (s.wrCodes rPLAN_PCOMMIT v [fPLAN_PCOMMIT_GO]).setFld rPLAN_PCOMMIT fPLAN_PCOMMIT_GO 1 = s2
  have kw : onlyIn (mEvent ||| mAct ||| mGlb) [rPLAN_PCOMMIT] [12] s s2 := hw ▸ .setFld (.wrCodes (.refl _ _ _ _))
  have hc : s2.fld rPLAN_PCOMMIT fPLAN_PCOMMIT_COUNT = s.fld rPLAN_PCOMMIT fPLAN_PCOMMIT_COUNT := by
    rw [← hw, State.fld_setFld_apart _ _ _ _ _ _ (by decide), State.fld_wrCodes_ro _ hro _ [fPLAN_PCOMMIT_GO]]
  have hgo : s2.fld rPLAN_PCOMMIT fPLAN_PCOMMIT_GO = 1 := by
    rw [← hw, State.fld_setFld_self _ _ _ _ (by decide)]
    rfl
  simp only [State.wrPcommit, hv, hg, hw, Nat.one_ne_zero, decide_false, Bool.false_eq_true, Bool.or_self, if_false] at e
  split at e
  · subst e
    refine ⟨?_, fun _ => ?_, ?_, .raise (.setFld (.other kw (touches_State.setAct _ _ _) (e := State.setAct_regs _ _ _)))⟩
    · rw [State.flag, State.fld_raise_other _ _ _ _ _ _ _ (by decide), State.fld_setFld_apart _ _ _ _ _ _ (by decide), State.fld_setAct, hgo]
      rfl
    · rw [State.flag, State.fld_raise_other _ _ _ _ _ _ _ (by decide), State.fld_setFld_self _ _ _ _ (by decide)]
      rfl
    · rw [State.fld_raise_other _ _ _ _ _ _ _ (by decide), State.fld_setFld_apart _ _ _ _ _ _ (by decide), State.fld_setAct, hc]
  · next hn =>
    subst e
    refine ⟨?_, fun h => absurd h (by simpa using hn), ?_, .other kw (touches_State.setAct _ _ _) (e := State.setAct_regs _ _ _)⟩
    · rw [State.flag, State.fld_setAct, hgo]
      rfl
    · rw [State.fld_setAct, hc]

/-- Settles O29, a clause per command and outcome. -/
theorem planCommits : Obligations.PlanCommits := by
  refine ⟨fun img s hg h1 hb => ?bus, fun img o s hg h1 hb hf ho => ?failed, fun img p s hg h1 hb hf hl hh hbd ht => ?staged,
    fun img s hg h1 => next_live hg (if_pos (by simpa using h1)), fun p s hg hh h2 hp hq => ?commit, fun s hg h => ?commitNone,
    fun p s hg hh h3 hp => ?stop, fun s hg h => ?stopNone, fun v s h hgo => ?go, fun s hg hh hgo h2 => ?param, fun s hg h => ?paramNone⟩
  case bus => exact next_live hg ((if_neg (by simp [h1])).trans (if_pos (by simp [hb])))
  case failed =>
    have e : s.planFetchDone img = (s.hostFail false).planReject (1, o) := by
      unfold State.planFetchDone
      rw [if_neg (by simp [h1]), if_neg (by simp [hb])]
      simp only [hf, ho, if_true]
    obtain ⟨c1, c2, c3⟩ := planReject_status (s.hostFail false) 1 o (by decide)
    exact ⟨_, next_live hg e, c1, c2, c3, .andThen ((touches_State.hostFail _ _).mono (by decide)) (touches_State.planReject _ _)⟩
  case staged =>
    refine next_live hg ?_
    unfold State.planFetchDone
    rw [if_neg (by simp [h1]), if_neg (by simp [hb])]
    simp only [hf, ← hl, List.take_length, Nat.sub_self, List.replicate_zero, List.append_nil, hh, hbd, ht]
    rfl
  case commit => exact ⟨_, next_live hg (State.clocked_running hh _), planCommit_effect hh h2 hp hq rfl⟩
  case commitNone =>
    refine next_live hg ?_
    cases hh : s.held
    · exact (State.clocked_running hh _).trans (if_pos (by simpa [hh] using h))
    · exact State.clocked_held hh _
  case stop => exact ⟨_, next_live hg (State.clocked_running hh _), planStopCommit_effect hh h3 hp rfl⟩
  case stopNone =>
    refine next_live hg ?_
    cases hh : s.held
    · exact (State.clocked_running hh _).trans (if_pos (by simpa [hh] using h))
    · exact State.clocked_held hh _
  case go =>
    obtain ⟨c1, c2, c3, k⟩ := wrPcommit_effect (s := s.dropStaged .host rPLAN_PCOMMIT) hgo
      (show fget (inRange .PLAN_PCOMMIT 0 (s.rd rPLAN_PCOMMIT) (fset v fPLAN_PCOMMIT_GO 1)) fPLAN_PCOMMIT_GO = 1 from fget_fset_self _ _ _ (by decide)) rfl
    refine ⟨_, next_hostWr h rfl, c1, c2, c3, ?_⟩
    have kd : onlyIn (mEvent ||| mAct ||| mStaged ||| mGlb) [rPLAN_PCOMMIT] [12] s (s.dropStaged .host rPLAN_PCOMMIT) := .dropStaged (.refl _ _ _ _)
    exact .of_hi (kd.andThen k) (by decide)
  case param => exact ⟨_, next_live hg (State.clocked_running hh _), paramCommit_effect hh hgo h2 rfl⟩
  case paramNone =>
    refine next_live hg ?_
    cases hh : s.held
    · exact (State.clocked_running hh _).trans (if_pos (by simpa [hh] using h))
    · exact State.clocked_held hh _

end Sys2Proof
end

section
/-! SUPPORT. Swaps of coefficient banks in downconversion (R189 to R196). -/

set_option Elab.async false

namespace Sys2Proof

open Sys2Proof.Machine

/-! ### The end of a swap (R193) -/

/-- One-bit fields flipped over a list of registers, each register once. -/
theorem fld_overFlips {at_ : Nat → Nat} (hinj : ∀ i j, at_ i = at_ j → i = j) {f : Fld} (hf : f.lo + f.w ≤ 64) (h1 : f.w = 1) (c : Nat → Prop)
    [DecidablePred c] {l : List Nat} (hl : l.Nodup) {k : Nat} (hk : k ∈ l) (s : State) :
    (l.foldl (fun t b => if c b then t.setFld (at_ b) f (1 - t.fld (at_ b) f) else t) s).fld (at_ k) f =
      if c k then 1 - s.fld (at_ k) f else s.fld (at_ k) f := by
  induction l generalizing s with
  | nil => cases hk
  | cons b l ih =>
    obtain ⟨hb, hl⟩ := List.nodup_cons.mp hl
    have step : ∀ t : State, ∀ j, j ≠ k → (if c j then t.setFld (at_ j) f (1 - t.fld (at_ j) f) else t).rd (at_ k) = t.rd (at_ k) := fun t j hj => by
      split
      · exact State.rd_setFld_other _ _ _ fun e => hj (hinj _ _ e).symm
      · rfl
    rw [List.foldl_cons]
    rcases List.mem_cons.mp hk with rfl | h
    · refine (congrArg (fun w => fget w f) (rd_overList _ _ fun t j hj => step t j fun e => hb (e ▸ hj))).trans ?_
      by_cases hc : c k
      · rw [if_pos hc, if_pos hc]
        refine (State.fld_setFld_self _ _ _ _ hf).trans (Nat.mod_eq_of_lt ?_)
        rw [h1]
        omega
      · rw [if_neg hc, if_neg hc]
        rfl
    · have e : (if c b then s.setFld (at_ b) f (1 - s.fld (at_ b) f) else s).fld (at_ k) f = s.fld (at_ k) f :=
        congrArg (fun w => fget w f) (step s b fun e => hb (e ▸ h))
      rw [ih hl h, e]

/-- The registers that the end of a swap writes. -/
def swapRegs (u : Nat) : List Nat := [rDDC_SWAP u, rDDC_STAT u] ++ (upTo 12).map (rDDC_STAGE u)

theorem swapRegs_hi (u : Nat) : ∀ a ∈ swapRegs u, 0x1000 ≤ a := fun a h => by
  simp only [swapRegs, List.mem_append, List.mem_map, List.mem_cons, List.not_mem_nil, or_false] at h
  rcases h with (rfl | rfl) | ⟨k, -, rfl⟩
  · exact Nat.le_trans (by decide) (Nat.le_add_right 0x80018 _)
  · exact Nat.le_trans (by decide) (Nat.le_add_right 0x80030 _)
  · exact Nat.le_trans (by decide) (Nat.le_trans (Nat.le_add_right 0x80040 _) (Nat.le_add_right _ _))

theorem onlyIn_ddcFlip (s : State) (u mask : Nat) : onlyIn (mEvent ||| mDdc ||| mGlb) (swapRegs u) [212] s (s.ddcFlip u mask) := by
  unfold State.ddcFlip
  refine .overList (.refl _ _ _ _) fun t k hk => .ite (.setFld (.refl _ _ _ _) (ha := ?_)) (.refl _ _ _ _)
  exact List.mem_append_right _ (List.mem_map_of_mem hk)

/-- The end of a swap. -/
theorem ddcSwapEnd_effect (s : State) (u mask : Nat) {t : State} (e : s.ddcSwapEnd u mask = t) :
    t.ddcU u = { s.ddcU u with swap := none } ∧ t.flag (rDDC_SWAP u) fDDC_SWAP_GO = false ∧
    t.fld (rDDC_SWAP u) fDDC_SWAP_RESULT = 2 ∧ t.fld (rDDC_SWAP u) fDDC_SWAP_CAUSE = 0 ∧
    t.fld (rDDC_STAT u) fDDC_STAT_SWAPS = (s.fld (rDDC_STAT u) fDDC_STAT_SWAPS + 1) % 2 ^ 16 ∧
    (∀ k < 12, t.fld (rDDC_STAGE u k) fDDC_STAGE_ACTIVE =
      if mask / 2 ^ k % 2 = 1 then 1 - s.fld (rDDC_STAGE u k) fDDC_STAGE_ACTIVE else s.fld (rDDC_STAGE u k) fDDC_STAGE_ACTIVE) ∧
    onlyIn (mEvent ||| mDdc ||| mGlb) (swapRegs u) [212] s t := by
  unfold State.ddcSwapEnd at e
  have kf := onlyIn_ddcFlip s u mask
  have hst : ∀ k < 12, (s.ddcFlip u mask).fld (rDDC_STAGE u k) fDDC_STAGE_ACTIVE = _ := fun k hk =>
    fld_overFlips (at_ := fun k => rDDC_STAGE u k) (fun i j h => by simp only [rDDC_STAGE] at h; omega) (by decide) rfl
      (fun k => mask / 2 ^ k % 2 = 1) List.nodup_range (List.mem_range.mpr hk) s
  have hstat : (s.ddcFlip u mask).fld (rDDC_STAT u) fDDC_STAT_SWAPS = s.fld (rDDC_STAT u) fDDC_STAT_SWAPS := by
    refine congrArg (fun w => fget w _) (rd_overList _ _ fun t k _ => ?_)
    split
    · exact State.rd_setFld_other _ _ _ (by simp only [rDDC_STAGE, rDDC_STAT]; omega)
    · rfl
  have hddc : (s.ddcFlip u mask).ddc = s.ddc := by
    unfold State.ddcFlip
    refine Touches.ddc (m := mRegs ||| mGlb) (.overList (m' := mRegs ||| mGlb) (.refl _ _) fun t k => ?_) (by decide)
    split
    · exact touches_State.setFld _ _ _ _
    · exact .refl _ _
  generalize s.ddcFlip u mask = b at e kf hst hstat hddc
  have hne : rDDC_SWAP u ≠ rDDC_STAT u := by simp only [rDDC_SWAP, rDDC_STAT]; omega
  have hsw : ∀ f, t.fld (rDDC_SWAP u) f = (b.setFlds (rDDC_SWAP u) [(fDDC_SWAP_GO, 0), (fDDC_SWAP_RESULT, 2), (fDDC_SWAP_CAUSE, 0)]).fld
      (rDDC_SWAP u) f := fun f => by
    rw [← e, State.fld_raise_other _ _ _ _ _ _ _ (by simp only [rDDC_SWAP]; omega), State.fld_addMod_other _ _ _ _ hne]
    simp only [State.fld_setFlds_cons, State.fld_setFlds_nil, State.setFlds]
    rfl
  refine ⟨?_, ?_, ?_, ?_, ?_, fun k hk => ?_, ?_⟩
  · rw [← e]
    simp [State.ddcU, hddc]
  · rw [State.flag, hsw]
    simp (disch := decide)
  · rw [hsw]
    simp (disch := decide)
  · rw [hsw]
    simp (disch := decide)
  · rw [← e, State.fld_raise_other _ _ _ _ _ _ _ (by simp only [rDDC_STAT]; omega), State.fld_addMod_self _ _ _ _ (by decide),
      State.fld_setFlds_other _ _ _ hne.symm, State.fld_updDdc, hstat]
  · rw [← e, State.fld_raise_other _ _ _ _ _ _ _ (by simp only [rDDC_STAGE]; omega),
      State.fld_addMod_other _ _ _ _ (by simp only [rDDC_STAGE, rDDC_STAT]; omega),
      State.fld_setFlds_other _ _ _ (by simp only [rDDC_STAGE, rDDC_SWAP]; omega), State.fld_updDdc]
    exact hst k hk
  · rw [← e]
    exact .raise (.addMod (.setFlds (.other kf (touches_State.updDdc _ _ _) (e := State.updDdc_regs _ _ _)) (ha := by simp [swapRegs])) (ha := by simp [swapRegs]))

/-! ### Requests (R191, R192, R194) -/

theorem swap_fields (u : Fin 20) : rwField (rDDC_SWAP u) fDDC_SWAP_MASK = true ∧ rwField (rDDC_SWAP u) fDDC_SWAP_SYNC = true := by
  revert u
  decide +kernel

theorem nco_fields (u : Fin 20) : w1sField (rDDC_NCO_CTRL u) fDDC_NCO_CTRL_RST_ARM = true ∧ rwField (rDDC_NCO_CTRL u) fDDC_NCO_CTRL_INVERT = true := by
  revert u
  decide +kernel

/-- The fields of a write of DDC_SWAP, its strobes not yet taken. -/
def swapFields (u : Nat) (v : Word) (s : State) : State := s.wrCodes (rDDC_SWAP u) v [fDDC_SWAP_GO, fDDC_SWAP_CANCEL]

theorem swapFields_ddcU (u : Nat) (v : Word) (s : State) (n : Nat) : (swapFields u v s).ddcU n = s.ddcU n := by
  unfold swapFields
  rw [State.ddcU, (touches_State.wrCodes _ _ _ _).ddc (by decide), State.ddcU]

theorem wrDdcSwap_go {u : Nat} {v : Word} {s : State} (hg : fget v fDDC_SWAP_GO = 1) (hc : fget v fDDC_SWAP_CANCEL = 0) :
    State.wrDdcSwap u v s = (swapFields u v s).ddcSwapGo u := by
  simp only [State.wrDdcSwap, hg, hc, if_true, Nat.zero_ne_one, if_false, swapFields]

theorem wrDdcSwap_cancel {u : Nat} {v : Word} {s : State} (hg : fget v fDDC_SWAP_GO = 0) (hc : fget v fDDC_SWAP_CANCEL = 1) :
    State.wrDdcSwap u v s = (swapFields u v s).ddcCancel u 1 := by
  simp only [State.wrDdcSwap, hg, hc, if_true, Nat.zero_ne_one, if_false, swapFields]

theorem onlyIn_swapFields {m : Nat} (hm : (mRegs ||| mGlb) &&& m = mRegs ||| mGlb) {l srcs : List Nat} {u : Nat} (h : rDDC_SWAP u ∈ l) (v : Word) (s : State) :
    onlyIn m l srcs s (swapFields u v s) :=
  .mono (l := l) (srcs := srcs) (m := mRegs ||| mGlb) (.wrCodes (.refl _ _ _ _) (ha := h)) hm (fun _ h => h) (fun _ h => h)

theorem bit_of_flag (s : State) (a : Nat) (f : Fld) (h : f.w = 1) : s.flag a f = (s.fld a f == 1) := by
  have := s.fld_lt a f
  rw [h] at this
  have : s.fld a f = 0 ∨ s.fld a f = 1 := by omega
  rcases this with h | h <;> rw [State.flag, h] <;> rfl

/-- A request in a used unit whose outputs have not begun leaves the swap pending. -/
theorem ddcSwapGo_waits {s : State} {u : Nat} {mask : Nat} (hm : s.fld (rDDC_SWAP u) fDDC_SWAP_MASK = mask) (hn : (s.ddcU u).swap = none)
    (hu : s.ddcUsed u = true) (h0 : 0 < mask) (h2 : u < 4 → mask < 2) (hs : mask < 2 ^ s.ddcStages u)
    (hz : ((s.ddcU u).stg.getD (lowBit mask) ddcStg0).m = 0) : s.ddcSwapGo u =
      (s.setFlds (rDDC_SWAP u) [(fDDC_SWAP_GO, 1), (fDDC_SWAP_RESULT, 1), (fDDC_SWAP_CAUSE, 0)]).updDdc u fun d =>
        { d with swap := some ⟨swapAt s (s.flag (rDDC_SWAP u) fDDC_SWAP_SYNC) (s.rd (rDDC_SWAP_TIME u)).toNat, mask, false⟩ } := by
  have hbad : (decide (mask = 0) || (decide (u < 4) && decide (2 ≤ mask)) || (true && decide (2 ^ s.ddcStages u ≤ mask))) = false := by
    simp only [Bool.or_eq_false_iff, Bool.and_eq_false_iff, decide_eq_false_iff_not]
    omega
  unfold State.ddcSwapGo
  simp only [hm, hn, hbad, hu, hz, Option.isSome_none, Bool.false_eq_true, if_false, Bool.not_true, bne_self_eq_false, Bool.false_and]
  generalize swapAt s _ _ = o
  cases o <;> rfl

theorem ddcSwapGo_unused {s : State} {u : Nat} {mask : Nat} (hm : s.fld (rDDC_SWAP u) fDDC_SWAP_MASK = mask) (hn : (s.ddcU u).swap = none)
    (hu : s.ddcUsed u = false) (h0 : 0 < mask) (h2 : u < 4 → mask < 2) : s.ddcSwapGo u = s.ddcSwapEnd u mask := by
  have hbad : (decide (mask = 0) || (decide (u < 4) && decide (2 ≤ mask))) = false := by
    simp only [Bool.or_eq_false_iff, Bool.and_eq_false_iff, decide_eq_false_iff_not]
    omega
  unfold State.ddcSwapGo
  simp only [hm, hn, hbad, hu, Option.isSome_none, Bool.false_eq_true, if_false, Bool.not_false, Bool.false_and, Bool.or_self, if_true]

theorem ddcSwapGo_busy {s : State} {u : Nat} (hn : (s.ddcU u).swap ≠ none) :
    s.ddcSwapGo u = s.setFlds (rDDC_SWAP u) [(fDDC_SWAP_RESULT, 4), (fDDC_SWAP_CAUSE, 5)] := by
  unfold State.ddcSwapGo
  exact if_pos (Option.isSome_iff_ne_none.mpr hn)

theorem ddcCancel_pending {s : State} {u : Nat} {w : DdcSwap} (h : (s.ddcU u).swap = some w) (hd : w.done = false) (cause : Nat) : s.ddcCancel u cause =
    ((s.updDdc u fun d => { d with swap := none }).setFlds (rDDC_SWAP u) [(fDDC_SWAP_GO, 0), (fDDC_SWAP_RESULT, 3), (fDDC_SWAP_CAUSE, cause)]).raise 213 := by
  obtain ⟨a, m, d⟩ := w
  subst hd
  unfold State.ddcCancel
  simp only [h]

theorem ddcU_updDdc (s : State) (u : Nat) (f : Ddc → Ddc) : (s.updDdc u f).ddcU u = f (s.ddcU u) := by
  rw [State.ddcU, State.updDdc_ddc, SMap.get_upd_same]
  rfl

/-- The end of a swap at its time: DDC_SWAP_AT, then the end. -/
theorem ddcSwapDone_effect {s : State} {u at_ mask : Nat} (h : (s.ddcU u).swap = some ⟨some at_, mask, true⟩) {t : State} (e : s.ddcSwapDone u = t) :
    t.ddcU u = { s.ddcU u with swap := none } ∧ t.flag (rDDC_SWAP u) fDDC_SWAP_GO = false ∧
    t.fld (rDDC_SWAP u) fDDC_SWAP_RESULT = 2 ∧ t.fld (rDDC_SWAP u) fDDC_SWAP_CAUSE = 0 ∧
    t.fld (rDDC_STAT u) fDDC_STAT_SWAPS = (s.fld (rDDC_STAT u) fDDC_STAT_SWAPS + 1) % 2 ^ 16 ∧
    (∀ k < 12, t.fld (rDDC_STAGE u k) fDDC_STAGE_ACTIVE =
      if mask / 2 ^ k % 2 = 1 then 1 - s.fld (rDDC_STAGE u k) fDDC_STAGE_ACTIVE else s.fld (rDDC_STAGE u k) fDDC_STAGE_ACTIVE) ∧
    onlyIn (mEvent ||| mDdc) ([rDDC_SWAP u, rDDC_SWAP_AT u, rDDC_STAT u] ++ (upTo 12).map (rDDC_STAGE u)) [212] s t := by
  have e1 : ∃ n, s.ddcSwapDone u = (s.setFld (rDDC_SWAP_AT u) fDDC_SWAP_AT_TIME n).ddcSwapEnd u mask := by
    unfold State.ddcSwapDone
    simp only [h]
    exact ⟨_, rfl⟩
  obtain ⟨n, e1⟩ := e1
  obtain ⟨c1, c2, c3, c4, c5, c6, k⟩ := ddcSwapEnd_effect _ u mask (e1.symm.trans e)
  refine ⟨?_, c2, c3, c4, ?_, fun k hk => ?_, ?_⟩
  · rw [c1, State.ddcU, State.setFld_ddc, ← State.ddcU]
  · rw [c5, State.fld_setFld_other _ _ _ _ (by simp only [rDDC_STAT, rDDC_SWAP_AT]; omega)]
  · rw [c6 k hk, State.fld_setFld_other _ _ _ _ (by simp only [rDDC_STAGE, rDDC_SWAP_AT]; omega)]
  · have k0 : onlyIn (mEvent ||| mDdc ||| mGlb) ([rDDC_SWAP u, rDDC_SWAP_AT u, rDDC_STAT u] ++ (upTo 12).map (rDDC_STAGE u)) [212] s
        (s.setFld (rDDC_SWAP_AT u) fDDC_SWAP_AT_TIME n) := .setFld (.refl _ _ _ _)
    refine .of_hi (k0.andThen k (by decide) (fun a ha => ?_) (fun _ h => h)) fun a ha => ?_
    · simp only [swapRegs, List.mem_append, List.mem_cons] at ha ⊢
      tauto
    · by_cases hat : a = rDDC_SWAP_AT u
      · rw [hat]
        simp only [rDDC_SWAP_AT]
        omega
      · refine swapRegs_hi u a ?_
        simp only [swapRegs, List.mem_append, List.mem_cons] at ha ⊢
        tauto

/-- Settles O30, a clause per command and outcome. -/
theorem downconversionSwaps : Obligations.DownconversionSwaps := by
  refine ⟨fun u v s h hc hn hu h0 h2 hs hz => ?waits, fun u v s h hc hn => ?busy, fun u v s h hc hn hu h0 h2 => ?unused,
    fun u v w s h hg hw hd => ?cancel, fun u at_ mask s hg hh hw => ?commit,
    fun u at_ mask s hg hh hw => ⟨_, next_live hg (State.clocked_running hh _), ddcSwapDone_effect hw rfl⟩,
    fun u s hg hn => ?none, fun u k b v s h hb => ⟨fun h2 h16 => ?coef0, fun r hr => ?coefR⟩, fun u k b r v s h hb => ?discarded, fun u v s h => ?arm⟩
  case waits =>
    generalize hd : s.dropStaged .host (rDDC_SWAP u) = d
    have hv := wrDdcSwap_go (u := u) (s := d) (v := fset v fDDC_SWAP_GO 1) (fget_fset_self _ _ _ (by decide))
      ((fget_fset_apart _ _ _ _ (by decide)).trans hc)
    generalize hw : swapFields u (fset v fDDC_SWAP_GO 1) d = w at hv
    have kd : onlyIn (mRegs ||| mStaged ||| mDdc ||| mGlb) [rDDC_SWAP u] [] s d := hd ▸ .dropStaged (.refl _ _ _ _)
    have kw : onlyIn (mRegs ||| mStaged ||| mDdc ||| mGlb) [rDDC_SWAP u] [] s w := hw ▸ kd.trans (onlyIn_swapFields (by decide) (u := u) (by simp) _ _)
    have hdd : w.ddcU u = s.ddcU u := by rw [← hw, swapFields_ddcU, ← hd, State.ddcU, State.dropStaged_ddc, State.ddcU]
    have hm : w.fld (rDDC_SWAP u) fDDC_SWAP_MASK = fget v fDDC_SWAP_MASK := by
      rw [← hw]
      exact (State.fld_wrCodes_rw _ (swap_fields u).1 _ [fDDC_SWAP_GO, fDDC_SWAP_CANCEL]).trans (fget_fset_apart _ _ _ _ (by decide))
    have hy : w.flag (rDDC_SWAP u) fDDC_SWAP_SYNC = (fget v fDDC_SWAP_SYNC == 1) := by
      rw [bit_of_flag _ _ _ rfl, ← hw]
      exact congrArg (· == 1) ((State.fld_wrCodes_rw _ (swap_fields u).2 _ [fDDC_SWAP_GO, fDDC_SWAP_CANCEL]).trans (fget_fset_apart _ _ _ _ (by decide)))
    have hrd : ∀ a, a ≠ rDDC_SWAP u → w.rd a = s.rd a := fun a ha => kw.2 a (by simpa using ha) (by simp)
    have hcfg : ∀ f, w.fld (rDDC_CFG u) f = s.fld (rDDC_CFG u) f := fun f =>
      congrArg (fun x => fget x f) (hrd _ (by simp only [rDDC_CFG, rDDC_SWAP]; omega))
    have htime : w.time = s.time := kw.1.time (by decide)
    have e := ddcSwapGo_waits hm (by rw [hdd]; exact hn) (by rw [State.ddcUsed, State.flag, hcfg]; exact hu) h0 h2
      (by rw [State.ddcStages, hcfg]; exact hs) (by rw [hdd]; exact hz)
    have hat : swapAt w (w.flag (rDDC_SWAP u) fDDC_SWAP_SYNC) (w.rd (rDDC_SWAP_TIME u)).toNat =
        swapAt s (fget v fDDC_SWAP_SYNC == 1) (s.rd (rDDC_SWAP_TIME u)).toNat := by
      rw [hy, hrd _ (by simp only [rDDC_SWAP_TIME, rDDC_SWAP]; omega)]
      simp only [swapAt, htime]
    rw [hat] at e
    refine ⟨_, next_hostWr h (hd ▸ hv.trans e), ?_, ?_, ?_, ?_⟩
    · rw [State.flag, State.fld_updDdc]
      simp (disch := decide)
    · rw [State.fld_updDdc]
      simp (disch := decide)
    · rw [ddcU_updDdc, State.ddcU, State.setFlds_ddc, ← State.ddcU, hdd]
    · exact .of_hi (.other (.setFlds kw) (touches_State.updDdc _ _ _) (e := State.updDdc_regs _ _ _)) (by simp only [List.mem_singleton, rDDC_SWAP]; omega)
  case busy =>
    generalize hd : s.dropStaged .host (rDDC_SWAP u) = d
    have hv := wrDdcSwap_go (u := u) (s := d) (v := fset v fDDC_SWAP_GO 1) (fget_fset_self _ _ _ (by decide))
      ((fget_fset_apart _ _ _ _ (by decide)).trans hc)
    have kd : onlyIn (mRegs ||| mStaged ||| mGlb) [rDDC_SWAP u] [] s d := hd ▸ .dropStaged (.refl _ _ _ _)
    have hdd : (swapFields u (fset v fDDC_SWAP_GO 1) d).ddcU u = s.ddcU u := by
      rw [swapFields_ddcU, ← hd, State.ddcU, State.dropStaged_ddc, State.ddcU]
    have kw := kd.trans (onlyIn_swapFields (by decide) (u := u) (by simp) (fset v fDDC_SWAP_GO 1) d)
    generalize swapFields u (fset v fDDC_SWAP_GO 1) d = w at hv hdd kw
    have kt : onlyIn (mRegs ||| mStaged ||| mGlb) [rDDC_SWAP u] [] s (w.setFlds (rDDC_SWAP u) [(fDDC_SWAP_RESULT, 4), (fDDC_SWAP_CAUSE, 5)]) := .setFlds kw
    refine ⟨_, next_hostWr h (hd ▸ hv.trans (ddcSwapGo_busy (by rw [hdd]; exact hn))), ?_, ?_, kt.1.ddc (by decide),
      .of_hi kt (by simp only [List.mem_singleton, rDDC_SWAP]; omega)⟩
    · simp (disch := decide)
    · simp (disch := decide)
  case unused =>
    generalize hd : s.dropStaged .host (rDDC_SWAP u) = d
    have hv := wrDdcSwap_go (u := u) (s := d) (v := fset v fDDC_SWAP_GO 1) (fget_fset_self _ _ _ (by decide))
      ((fget_fset_apart _ _ _ _ (by decide)).trans hc)
    have kd : onlyIn (mEvent ||| mStaged ||| mDdc ||| mGlb) (swapRegs u) [212] s d := hd ▸ .dropStaged (.refl _ _ _ _)
    have hdd : (swapFields u (fset v fDDC_SWAP_GO 1) d).ddcU u = s.ddcU u := by
      rw [swapFields_ddcU, ← hd, State.ddcU, State.dropStaged_ddc, State.ddcU]
    have hm : (swapFields u (fset v fDDC_SWAP_GO 1) d).fld (rDDC_SWAP u) fDDC_SWAP_MASK = fget v fDDC_SWAP_MASK :=
      (State.fld_wrCodes_rw _ (swap_fields u).1 _ [fDDC_SWAP_GO, fDDC_SWAP_CANCEL]).trans (fget_fset_apart _ _ _ _ (by decide))
    have hrd : ∀ a f, a ≠ rDDC_SWAP u → (swapFields u (fset v fDDC_SWAP_GO 1) d).fld a f = s.fld a f := fun a f ha => by
      rw [swapFields, State.fld_wrCodes_other _ _ _ _ ha, ← hd, State.fld_dropStaged]
    have kw := kd.trans (onlyIn_swapFields (by decide) (u := u) (l := swapRegs u) (by simp [swapRegs]) (fset v fDDC_SWAP_GO 1) d)
    generalize swapFields u (fset v fDDC_SWAP_GO 1) d = w at hv hdd hm hrd kw
    have e := ddcSwapGo_unused hm (by rw [hdd]; exact hn)
      (by rw [State.ddcUsed, State.flag, hrd _ _ (by simp only [rDDC_CFG, rDDC_SWAP]; omega)]; exact hu) h0 h2
    obtain ⟨-, c2, c3, -, -, c6, k⟩ := ddcSwapEnd_effect w u (fget v fDDC_SWAP_MASK) rfl
    refine ⟨_, next_hostWr h (hd ▸ hv.trans e), c2, c3, fun k hk => ?_, .of_hi (kw.andThen k (by decide) (fun _ h => h) (fun _ h => h)) (swapRegs_hi u)⟩
    rw [c6 k hk, hrd _ _ (by simp only [rDDC_STAGE, rDDC_SWAP]; omega)]
  case cancel =>
    generalize hdr : s.dropStaged .host (rDDC_SWAP u) = d
    have hv := wrDdcSwap_cancel (u := u) (s := d) (v := fset v fDDC_SWAP_CANCEL 1) ((fget_fset_apart _ _ _ _ (by decide)).trans hg)
      (fget_fset_self _ _ _ (by decide))
    have kd : onlyIn (mEvent ||| mStaged ||| mDdc ||| mGlb) [rDDC_SWAP u] [213] s d := hdr ▸ .dropStaged (.refl _ _ _ _)
    have hdd : (swapFields u (fset v fDDC_SWAP_CANCEL 1) d).ddcU u = s.ddcU u := by
      rw [swapFields_ddcU, ← hdr, State.ddcU, State.dropStaged_ddc, State.ddcU]
    have kw := kd.trans (onlyIn_swapFields (by decide) (u := u) (l := [rDDC_SWAP u]) (by simp) (fset v fDDC_SWAP_CANCEL 1) d)
    generalize swapFields u (fset v fDDC_SWAP_CANCEL 1) d = x at hv hdd kw
    have hr : rDDC_SWAP u < 0x10000 ∨ 0x12000 + 8 * 213 < rDDC_SWAP u := by simp only [rDDC_SWAP]; omega
    refine ⟨_, next_hostWr h (hdr ▸ hv.trans (ddcCancel_pending (by rw [hdd]; exact hw) hd 1)), ?_, ?_, ?_, ?_, ?_⟩
    · rw [← hdd]
      simp [State.ddcU]
    · rw [State.flag, State.fld_raise_other _ _ _ _ _ _ _ hr]
      simp (disch := decide)
    · rw [State.fld_raise_other _ _ _ _ _ _ _ hr]
      simp (disch := decide)
    · rw [State.fld_raise_other _ _ _ _ _ _ _ hr]
      simp (disch := decide)
    · exact .of_hi (.raise (.setFlds (.other kw (touches_State.updDdc _ _ _) (e := State.updDdc_regs _ _ _))))
        (by simp only [List.mem_singleton, rDDC_SWAP]; omega)
  case commit =>
    refine next_live hg ((State.clocked_running hh _).trans ?_)
    unfold State.ddcSwapCommit
    simp only [hw]
  case none =>
    cases hh : s.held
    · have hw : (s.ddcU u).swap = none := by simpa [hh] using hn
      constructor
      · refine next_live hg ((State.clocked_running hh _).trans ?_)
        unfold State.ddcSwapCommit
        simp only [hw]
      · refine next_live hg ((State.clocked_running hh _).trans ?_)
        unfold State.ddcSwapDone
        simp only [hw]
    · exact ⟨next_live hg (State.clocked_held hh _), next_live hg (State.clocked_held hh _)⟩
  case coef0 => exact next_hostWr h (if_pos (by simp [show (s.dropStaged .host (rDDC_COEF0 u k b)).ddcBankFree u k b = true from hb]; exact ⟨h2, h16⟩))
  case coefR =>
    refine (congrArg Host.Outcome.next (if_neg hr)).trans (next_hostWr h (if_pos ?_))
    exact hb
  case discarded =>
    by_cases hr : r = 0
    · rw [if_pos hr]
      refine (congrArg Host.Outcome.next (if_pos hr)).trans (next_hostWr h (if_neg ?_))
      simp [show (s.dropStaged .host (rDDC_COEF0 u k b)).ddcBankFree u k b = false from hb]
    · rw [if_neg hr]
      refine (congrArg Host.Outcome.next (if_neg hr)).trans (next_hostWr h (if_neg ?_))
      simp [show (s.dropStaged .host (rDDC_COEFR u k b (r - 1))).ddcBankFree u k b = false from hb]
  case arm =>
    have kd : onlyIn (mRegs ||| mStaged ||| mGlb) [rDDC_NCO_CTRL u] [] s (s.dropStaged .host (rDDC_NCO_CTRL u)) := .dropStaged (.refl _ _ _ _)
    refine ⟨_, next_hostWr h rfl, fun h4 => ?_, fun h4 => ?_, ?_, ?_, .of_hi (.wrCodes kd) (by simp only [List.mem_singleton, rDDC_NCO_CTRL]; omega)⟩
    · rw [State.wrDdcCtrl, State.flag, State.fld_wrCodes_w1s _ (nco_fields u).1 _ [] ?_]
      · rfl
      · rw [if_neg (by omega)]
        exact fget_fset_self _ _ _ (by decide)
    · rw [State.wrDdcCtrl, State.flag, State.fld_wrCodes_w1s_zero _ (nco_fields u).1 _ [] ?_, State.fld_dropStaged]
      · rfl
      · rw [if_pos h4]
        simp (disch := decide)
    · rw [State.wrDdcCtrl, State.fld_wrCodes_rw _ (nco_fields u).2 _ []]
      have hi : ∀ w : Word, fget (if u.val < 4 then fsets w [(fDDC_NCO_CTRL_RST_ARM, 0), (fDDC_NCO_CTRL_POFF, 0)] else w) fDDC_NCO_CTRL_INVERT =
          fget w fDDC_NCO_CTRL_INVERT := fun w => by
        split
        · simp (disch := decide)
        · rfl
      exact (hi _).trans (fget_fset_apart _ _ _ _ (by decide))
    · rw [(touches_State.wrDdcCtrl _ _ _).actv (by decide), State.actv_dropStaged]

end Sys2Proof
end

section
/-! SUPPORT. Tables, swaps and frames of the transform pipelines (R204 to R228). -/

set_option Elab.async false

namespace Sys2Proof

open Sys2Proof.Machine

theorem xfmU_updXfm (s : State) (n : Nat) (f : Xfm → Xfm) : (s.updXfm n f).xfmU n = f (s.xfmU n) := by
  rw [State.xfmU, State.updXfm_xfm, SMap.get_upd_same]
  rfl

/-- A pipeline is one of `xfm`. -/
theorem Touches.xfmU {m : Nat} {s t : State} (k : Touches m s t) (h : m.testBit 29 = false := by decide) (n : Nat) : t.xfmU n = s.xfmU n :=
  congrArg (fun x => SMap.get xfm0 x n) (k.xfm h)

/-! ### Writes of XFM_TAB_CTRL -/

/-- XFM_TAB_CTRL[n] written, its strobes not yet acted on. -/
def tabFields (n : Nat) (v : Word) (s : State) : State :=
  s.wrCodes (rXFM_TAB_CTRL n) v [fXFM_TAB_CTRL_LOAD, fXFM_TAB_CTRL_GO, fXFM_TAB_CTRL_CANCEL]

theorem tabFields_len (n : Fin 4) : rwField (rXFM_TAB_CTRL n) fXFM_TAB_CTRL_LEN = true := by
  revert n
  decide +kernel

theorem fld_tabFields_len (n : Fin 4) (v : Word) (s : State) :
    (tabFields n v s).fld (rXFM_TAB_CTRL n) fXFM_TAB_CTRL_LEN = fget v fXFM_TAB_CTRL_LEN :=
  State.fld_wrCodes_rw _ (tabFields_len n) _ [fXFM_TAB_CTRL_LOAD, fXFM_TAB_CTRL_GO, fXFM_TAB_CTRL_CANCEL]

theorem tabFields_xfmU (n : Nat) (v : Word) (s : State) (m : Nat) : (tabFields n v s).xfmU m = s.xfmU m :=
  (touches_State.wrCodes _ _ _ _).xfmU (by decide) m

theorem wrTabCtrl_load {n : Nat} {v : Word} {s : State} (hl : fget v fXFM_TAB_CTRL_LOAD = 1) (hg : fget v fXFM_TAB_CTRL_GO = 0)
    (hc : fget v fXFM_TAB_CTRL_CANCEL = 0) : State.wrTabCtrl n v s = (tabFields n v s).tabLoad n := by
  simp only [State.wrTabCtrl, hl, hg, hc, if_true, Nat.zero_ne_one, if_false, tabFields]

theorem wrTabCtrl_go {n : Nat} {v : Word} {s : State} (hl : fget v fXFM_TAB_CTRL_LOAD = 0) (hg : fget v fXFM_TAB_CTRL_GO = 1)
    (hc : fget v fXFM_TAB_CTRL_CANCEL = 0) : State.wrTabCtrl n v s = (tabFields n v s).tabSwapGo n := by
  simp only [State.wrTabCtrl, hl, hg, hc, if_true, Nat.zero_ne_one, if_false, tabFields]

theorem wrTabCtrl_cancel {n : Nat} {v : Word} {s : State} (hl : fget v fXFM_TAB_CTRL_LOAD = 0) (hg : fget v fXFM_TAB_CTRL_GO = 0)
    (hc : fget v fXFM_TAB_CTRL_CANCEL = 1) : State.wrTabCtrl n v s = (tabFields n v s).xfmCancel n 1 := by
  simp only [State.wrTabCtrl, hl, hg, hc, if_true, Nat.zero_ne_one, if_false, tabFields]

/-- A write of XFM_TAB_CTRL[n] up to what its strobes do: it takes LEN, leaves every pipeline alone, and changes no other register. -/
theorem tabWritten {m : Nat} (hm : (mRegs ||| mStaged ||| mGlb) &&& m = mRegs ||| mStaged ||| mGlb) {l srcs : List Nat} {n : Fin 4} (hl : rXFM_TAB_CTRL n ∈ l) (v : Word)
    (s : State) {w : State} (e : tabFields n v (s.dropStaged .host (rXFM_TAB_CTRL n)) = w) :
    onlyIn m l srcs s w ∧ w.xfmU n = s.xfmU n ∧ w.fld (rXFM_TAB_CTRL n) fXFM_TAB_CTRL_LEN = fget v fXFM_TAB_CTRL_LEN ∧
      (∀ a, a ≠ rXFM_TAB_CTRL n → w.rd a = s.rd a) ∧ w.time = s.time := by
  subst e
  have kd : onlyIn (mRegs ||| mStaged ||| mGlb) [rXFM_TAB_CTRL n] [] s (tabFields n v (s.dropStaged .host (rXFM_TAB_CTRL n))) :=
    .wrCodes (.dropStaged (.refl _ _ _ _))
  exact ⟨kd.mono hm (by simpa using hl) (by simp), (tabFields_xfmU _ _ _ _).trans (congrArg (SMap.get xfm0 · n.val) (State.dropStaged_xfm _ _ _)),
    fld_tabFields_len _ _ _, fun a ha => kd.2 a (by simpa using ha) (by simp), kd.1.time (by decide)⟩

/-! ### Loads of tables (R215) -/

theorem tabLoad_taken {s : State} {n len : Nat} (hl : s.fld (rXFM_TAB_CTRL n) fXFM_TAB_CTRL_LEN = len) (h : (s.xfmU n).load = none) (hw : (s.xfmU n).swap = none)
    (h32 : 32 ≤ len) (hm : len ≤ 524288) (hp : len = 2 ^ len.log2) : s.tabLoad n =
      ((s.updXfm n fun x => { x with load := some len }).setFld (rXFM_TAB_CTRL n) fXFM_TAB_CTRL_LOAD 1).setFlds (rXFM_TAB_STATUS n)
        [(fXFM_TAB_STATUS_LOAD_RESULT, 1), (fXFM_TAB_STATUS_LOAD_REASON, 0)] := by
  have hok : (decide (32 ≤ len) && decide (len ≤ 524288) && len == 2 ^ len.log2) = true := by
    rw [← hp]
    simp [h32, hm]
  unfold State.tabLoad
  simp only [hl, h, hw, hok, Option.isSome_none, Bool.or_self, Bool.false_eq_true, Bool.not_true, if_false]

/-- A refused load names its reason and raises 265. -/
theorem tabLoad_refused {s : State} {n len : Nat} (hl : s.fld (rXFM_TAB_CTRL n) fXFM_TAB_CTRL_LEN = len)
    (h : (s.xfmU n).load ≠ none ∨ (s.xfmU n).swap ≠ none ∨ len < 32) : s.tabLoad n =
      (s.setFlds (rXFM_TAB_STATUS n) [(fXFM_TAB_STATUS_LOAD_RESULT, 4),
        (fXFM_TAB_STATUS_LOAD_REASON, if (s.xfmU n).load ≠ none ∨ (s.xfmU n).swap ≠ none then 4 else 2)]).raise 265 := by
  unfold State.tabLoad
  by_cases hb : (s.xfmU n).load ≠ none ∨ (s.xfmU n).swap ≠ none
  · have hb' : ((s.xfmU n).load.isSome || (s.xfmU n).swap.isSome) = true := by simpa [Option.isSome_iff_ne_none] using hb
    simp only [hb', hb, if_true]
  · have hb' : ((s.xfmU n).load.isSome || (s.xfmU n).swap.isSome) = false := by simpa using hb
    have hlen : len < 32 := (h.imp_right (Or.resolve_left · fun e => hb (.inr e))).resolve_left fun e => hb (.inl e)
    have hlow : (decide (32 ≤ len) && decide (len ≤ 524288) && len == 2 ^ len.log2) = false := by
      simp [show ¬ 32 ≤ len by omega]
    simp only [hl, hb', hb, hlow, Bool.false_eq_true, if_false, Bool.not_false, if_true]

/-- The registers a load's end can change. -/
def tabRegs (n : Nat) : List Nat := [rXFM_TAB_CTRL n, rXFM_TAB_STATUS n, rXFM_TAB_LEN n, rXFM_TAB_CRC n]

theorem tabRegs_hi (n a : Nat) (h : a ∈ tabRegs n) : 0x1000 ≤ a := by
  simp only [tabRegs, List.mem_cons, List.not_mem_nil, or_false, rXFM_TAB_CTRL, rXFM_TAB_STATUS, rXFM_TAB_LEN, rXFM_TAB_CRC] at h
  omega

/-- A bank filled: the pipeline's bank holds the words, the load it was under stays what it is. -/
theorem tabFill_effect (s : State) (n b : Nat) (ws : Option (List Nat)) (src : Nat) :
    (((s.tabFill n b ws).xfmU n).bank b = (ws.getD []).map (toSigned 18)) ∧ ((s.tabFill n b ws).xfmU n).load = (s.xfmU n).load ∧
      onlyIn (mEvent ||| mXfm ||| mGlb) (tabRegs n) [src] s (s.tabFill n b ws) := by
  have k : ∀ f, onlyIn (mEvent ||| mXfm ||| mGlb) (tabRegs n) [src] s (s.updXfm n f) := fun f =>
    .other (.refl _ _ _ _) (touches_State.updXfm _ _ _) (e := State.updXfm_regs _ _ _)
  have hl : rXFM_TAB_LEN n ∈ tabRegs n := by simp [tabRegs]
  have hc : rXFM_TAB_CRC n ∈ tabRegs n := by simp [tabRegs]
  unfold State.tabFill
  by_cases hb : b = 0
  · simp only [hb, if_true]
    refine ⟨?_, ?_, .setFld (.setFld (k _) (ha := hl)) (ha := hc)⟩ <;>
      rw [State.xfmU, State.setFld_xfm, State.setFld_xfm, ← State.xfmU, xfmU_updXfm]
    rfl
  · simp only [hb, if_false]
    refine ⟨?_, ?_, .setFld (.setFld (k _) (ha := hl)) (ha := hc)⟩ <;>
      rw [State.xfmU, State.setFld_xfm, State.setFld_xfm, ← State.xfmU, xfmU_updXfm]
    rw [Xfm.bank, if_neg hb]

/-- The load of pipeline `n` no longer under way. -/
def tabIdle (s : State) (n : Nat) : State :=
  (s.updXfm n fun x => { x with load := none }).setFld (rXFM_TAB_CTRL n) fXFM_TAB_CTRL_LOAD 0

theorem tabIdle_load (s : State) (n : Nat) : ((tabIdle s n).xfmU n).load = none := by
  rw [tabIdle, State.xfmU, State.setFld_xfm, ← State.xfmU, xfmU_updXfm]

theorem tabLoadEnd_failed {s : State} {n len : Nat} (h : (s.xfmU n).load = some len) (hg : s.xfmGang n = false) : s.tabLoadEnd n none =
    (((tabIdle s n).tabFill n (1 - s.xfmActive n) none).setFlds (rXFM_TAB_STATUS n)
      [(fXFM_TAB_STATUS_LOAD_RESULT, 3), (fXFM_TAB_STATUS_LOAD_REASON, 1)]).raise 265 := by
  unfold State.tabLoadEnd
  simp only [h, hg, Bool.false_eq_true, if_false, tabIdle]

theorem tabLoadEnd_words {s : State} {n : Nat} {ws : List (BitVec 32)} (h : (s.xfmU n).load = some ws.length) (hg : s.xfmGang n = false)
    (hw : ∀ w ∈ ws, w.toNat < 2 ^ 18) : s.tabLoadEnd n (some (ws.map BitVec.toNat)) =
      (((tabIdle s n).tabFill n (1 - s.xfmActive n) (some (ws.map BitVec.toNat))).setFlds (rXFM_TAB_STATUS n)
        [(fXFM_TAB_STATUS_LOAD_RESULT, 2), (fXFM_TAB_STATUS_LOAD_REASON, 0)]).raise 264 := by
  have hl : (((ws.map BitVec.toNat) ++ List.replicate (ws.length - (ws.map BitVec.toNat).length) 0).take ws.length).map (· % 2 ^ 32) = ws.map BitVec.toNat := by
    rw [List.length_map, Nat.sub_self, List.replicate_zero, List.append_nil, List.take_of_length_le (by simp), List.map_map]
    exact List.map_congr_left fun w _ => Nat.mod_eq_of_lt w.isLt
  have ha : ((ws.map BitVec.toNat).any fun w => decide (2 ^ 18 ≤ w)) = false := by
    rw [List.any_eq_false]
    intro x hx
    obtain ⟨w, hw', rfl⟩ := List.mem_map.mp hx
    simpa using hw w hw'
  unfold State.tabLoadEnd
  simp only [h, hg, hl, ha, Bool.false_eq_true, if_false, tabIdle]

/-- What the end of a load leaves: a bank with the words of the table, LOAD_RESULT and LOAD_REASON. -/
theorem tabEnd_effect {s : State} {n b : Nat} {ws : Option (List Nat)} {r why src : Nat} (hr : r < 8) (hw : why < 16) {t : State}
    (hs : src = 264 ∨ src = 265) (e : (((tabIdle s n).tabFill n b ws).setFlds (rXFM_TAB_STATUS n)
      [(fXFM_TAB_STATUS_LOAD_RESULT, r), (fXFM_TAB_STATUS_LOAD_REASON, why)]).raise src = t) :
    (t.xfmU n).load = none ∧ (t.xfmU n).bank b = (ws.getD []).map (toSigned 18) ∧
      t.fld (rXFM_TAB_STATUS n) fXFM_TAB_STATUS_LOAD_RESULT = r ∧ t.fld (rXFM_TAB_STATUS n) fXFM_TAB_STATUS_LOAD_REASON = why ∧
      onlyIn (mEvent ||| mXfm) (tabRegs n) [src] s t := by
  obtain ⟨hb, hld, k⟩ := tabFill_effect (tabIdle s n) n b ws src
  have ki : onlyIn (mEvent ||| mXfm ||| mGlb) (tabRegs n) [src] s (tabIdle s n) :=
    .setFld (.other (.refl _ _ _ _) (touches_State.updXfm _ _ _) (e := State.updXfm_regs _ _ _)) (ha := by simp [tabRegs])
  rw [tabIdle_load] at hld
  generalize (tabIdle s n).tabFill n b ws = u at *
  subst e
  have hx : ∀ l, ((u.setFlds (rXFM_TAB_STATUS n) l).raise src).xfmU n = u.xfmU n := fun l => by
    rw [State.xfmU, State.raise_xfm, State.setFlds_xfm, ← State.xfmU]
  have hrg : rXFM_TAB_STATUS n < 0x10000 ∨ 0x12000 + 8 * src < rXFM_TAB_STATUS n := by
    simp only [rXFM_TAB_STATUS]
    omega
  refine ⟨by rw [hx, hld], by rw [hx, hb], ?_, ?_, .of_hi (.raise (.setFlds (ki.trans k) (ha := by simp [tabRegs]))) (tabRegs_hi n)⟩
  · rw [State.fld_raise_other _ _ _ _ _ _ _ hrg]
    simp (disch := decide)
    exact hr
  · rw [State.fld_raise_other _ _ _ _ _ _ _ hrg]
    simp (disch := decide)
    exact hw

/-! ### Swaps of tables (R216, R217) -/

/-- The registers a swap's end can change, XFM_TAB_AT apart. -/
def tabSwapRegs (n : Nat) : List Nat := [rXFM_TAB_CTRL n, rXFM_TAB_STATUS n]

theorem xfmActive_lt (s : State) (n : Nat) : s.xfmActive n < 2 := s.fld_lt _ _

/-- The end of a swap, DONE at instant `at_`. -/
theorem xfmSwapEnd_effect (s : State) (n at_ : Nat) {t : State} (e : s.xfmSwapEnd n at_ = t) :
    t.xfmU n = { s.xfmU n with swap := none, bankAt := at_ } ∧ t.xfmActive n = 1 - s.xfmActive n ∧
      t.flag (rXFM_TAB_CTRL n) fXFM_TAB_CTRL_GO = false ∧ t.fld (rXFM_TAB_STATUS n) fXFM_TAB_STATUS_SWAP_RESULT = 2 ∧
      t.fld (rXFM_TAB_STATUS n) fXFM_TAB_STATUS_SWAPS = (s.fld (rXFM_TAB_STATUS n) fXFM_TAB_STATUS_SWAPS + 1) % 2 ^ 16 ∧
      (∀ a ∉ tabSwapRegs n, (a < 0x10000 ∨ 0x12000 + 8 * 266 < a) → t.rd a = s.rd a) ∧
      onlyIn (mEvent ||| mXfm ||| mGlb) (tabSwapRegs n) [266] s t := by
  subst e
  have hs : rXFM_TAB_STATUS n < 0x10000 ∨ 0x12000 + 8 * 266 < rXFM_TAB_STATUS n := by simp only [rXFM_TAB_STATUS]; omega
  have hc : rXFM_TAB_CTRL n < 0x10000 ∨ 0x12000 + 8 * 266 < rXFM_TAB_CTRL n := by simp only [rXFM_TAB_CTRL]; omega
  have hcs : rXFM_TAB_CTRL n ≠ rXFM_TAB_STATUS n := by simp only [rXFM_TAB_CTRL, rXFM_TAB_STATUS]; omega
  have hsc : rXFM_TAB_STATUS n ≠ rXFM_TAB_CTRL n := hcs.symm
  have ha := xfmActive_lt s n
  unfold State.xfmSwapEnd
  refine ⟨?_, ?_, ?_, ?_, ?_, fun a ha hr => ?_, ?_⟩
  · rw [(touches_State.raise _ _ _ _ _).xfmU (by decide), (touches_State.addMod _ _ _ _).xfmU (by decide), (touches_State.setFlds _ _ _).xfmU (by decide),
      (touches_State.setFld _ _ _ _).xfmU (by decide), xfmU_updXfm]
  · rw [State.xfmActive, State.fld_raise_other _ _ _ _ _ _ _ hs]
    simp (disch := decide)
  · rw [State.flag, State.fld_raise_other _ _ _ _ _ _ _ hc, State.fld_addMod_other _ _ _ _ hcs, State.fld_setFlds_other _ _ _ hcs]
    simp (disch := decide)
  · rw [State.fld_raise_other _ _ _ _ _ _ _ hs]
    simp (disch := decide)
  · rw [State.fld_raise_other _ _ _ _ _ _ _ hs]
    simp (disch := decide)
  · simp only [tabSwapRegs, List.mem_cons, List.not_mem_nil, or_false, not_or] at ha
    rw [State.rd_raise_other _ _ _ _ _ _ hr, State.rd_addMod_other _ _ _ ha.2, State.rd_setFlds_other _ _ ha.2, State.rd_setFld_other _ _ _ ha.1,
      State.rd_updXfm]
  · exact .raise (.addMod (.setFlds (.setFld (.other (.refl _ _ _ _) (touches_State.updXfm _ _ _) (e := State.updXfm_regs _ _ _))
      (ha := by simp [tabSwapRegs])) (ha := by simp [tabSwapRegs])) (ha := by simp [tabSwapRegs]))

theorem tabSwapGo_unused {s : State} {n : Nat} (hl : (s.xfmU n).load = none) (hw : (s.xfmU n).swap = none)
    (hb : (s.xfmU n).bank (1 - s.xfmActive n) ≠ []) (hu : s.flag (rXFM_CFG n) fXFM_CFG_USED = false) : s.tabSwapGo n = s.xfmSwapEnd n 0 := by
  unfold State.tabSwapGo
  simp only [hl, hw, hu, Option.isSome_none, Bool.or_self, Bool.false_eq_true, if_false, Bool.not_false, if_true, List.isEmpty_iff, hb]

/-- A swap of pipeline `n` pending for `o`. -/
def tabPending (s : State) (n : Nat) (o : Option Nat) : State :=
  ((s.updXfm n fun x => { x with swap := some o }).setFld (rXFM_TAB_CTRL n) fXFM_TAB_CTRL_GO 1).setFlds (rXFM_TAB_STATUS n)
    [(fXFM_TAB_STATUS_SWAP_RESULT, 1), (fXFM_TAB_STATUS_SWAP_CAUSE, 0)]

theorem tabSwapGo_used {s : State} {n : Nat} (hl : (s.xfmU n).load = none) (hw : (s.xfmU n).swap = none)
    (hb : (s.xfmU n).bank (1 - s.xfmActive n) ≠ []) (hu : s.flag (rXFM_CFG n) fXFM_CFG_USED = true) :
    ∃ o late, s.tabSwapGo n = if late = true then ((tabPending s n o).setFld (rXFM_TAB_CTRL n) fXFM_TAB_CTRL_LATE 1).raise 268 else tabPending s n o := by
  unfold State.tabSwapGo
  simp only [hl, hw, hu, Option.isSome_none, Bool.or_self, Bool.false_eq_true, if_false, Bool.not_true, List.isEmpty_iff, hb]
  exact ⟨_, _, rfl⟩

/-- What a request that waits leaves, marked late or not. -/
theorem tabPending_effect (s : State) (n : Nat) (o : Option Nat) (late : Bool) {t : State}
    (e : (if late = true then ((tabPending s n o).setFld (rXFM_TAB_CTRL n) fXFM_TAB_CTRL_LATE 1).raise 268 else tabPending s n o) = t) :
    (t.xfmU n).swap = some o ∧ t.xfmActive n = s.xfmActive n ∧ t.flag (rXFM_TAB_CTRL n) fXFM_TAB_CTRL_GO = true ∧
      t.fld (rXFM_TAB_STATUS n) fXFM_TAB_STATUS_SWAP_RESULT = 1 ∧ onlyIn (mEvent ||| mXfm ||| mGlb) (tabSwapRegs n) [266, 268] s t := by
  have hcs : rXFM_TAB_CTRL n ≠ rXFM_TAB_STATUS n := by simp only [rXFM_TAB_CTRL, rXFM_TAB_STATUS]; omega
  have hu : ((tabPending s n o).xfmU n).swap = some o := by
    rw [tabPending, (touches_State.setFlds _ _ _).xfmU (by decide), (touches_State.setFld _ _ _ _).xfmU (by decide), xfmU_updXfm]
  have ha : (tabPending s n o).xfmActive n = s.xfmActive n := by
    rw [tabPending, State.xfmActive, State.xfmActive, State.fld_setFlds_cons, State.fld_setFlds_cons, State.fld_setFlds_nil,
      State.fld_setFld_apart _ _ _ _ _ _ (by decide), State.fld_setFld_apart _ _ _ _ _ _ (by decide), State.fld_setFld_other _ _ _ _ hcs.symm,
      State.fld_updXfm]
  have hg : (tabPending s n o).flag (rXFM_TAB_CTRL n) fXFM_TAB_CTRL_GO = true := by
    rw [tabPending, State.flag, State.fld_setFlds_other _ _ _ hcs]
    simp (disch := decide)
  have hr : (tabPending s n o).fld (rXFM_TAB_STATUS n) fXFM_TAB_STATUS_SWAP_RESULT = 1 := by
    rw [tabPending]
    simp (disch := decide)
  have k : onlyIn (mEvent ||| mXfm ||| mGlb) (tabSwapRegs n) [266, 268] s (tabPending s n o) :=
    .setFlds (.setFld (.other (.refl _ _ _ _) (touches_State.updXfm _ _ _) (e := State.updXfm_regs _ _ _)) (ha := by simp [tabSwapRegs]))
      (ha := by simp [tabSwapRegs])
  generalize tabPending s n o = u at *
  subst e
  have hs : rXFM_TAB_STATUS n < 0x10000 ∨ 0x12000 + 8 * 268 < rXFM_TAB_STATUS n := by simp only [rXFM_TAB_STATUS]; omega
  have hc : rXFM_TAB_CTRL n < 0x10000 ∨ 0x12000 + 8 * 268 < rXFM_TAB_CTRL n := by simp only [rXFM_TAB_CTRL]; omega
  cases late
  · rw [if_neg (by decide)]
    exact ⟨hu, ha, hg, hr, k⟩
  · rw [if_pos rfl]
    refine ⟨?_, ?_, ?_, ?_, .raise (.setFld k (ha := by simp [tabSwapRegs]))⟩
    · rw [(touches_State.raise _ _ _ _ _).xfmU (by decide), (touches_State.setFld _ _ _ _).xfmU (by decide), hu]
    · rw [State.xfmActive, State.fld_raise_other _ _ _ _ _ _ _ hs, State.fld_setFld_other _ _ _ _ hcs.symm, ← State.xfmActive, ha]
    · rw [State.flag, State.fld_raise_other _ _ _ _ _ _ _ hc, State.fld_setFld_apart _ _ _ _ _ _ (by decide)]
      exact hg
    · rw [State.fld_raise_other _ _ _ _ _ _ _ hs, State.fld_setFld_other _ _ _ _ hcs.symm, hr]

theorem xfmCancel_pending {s : State} {n : Nat} (h : (s.xfmU n).swap ≠ none) (cause : Nat) : s.xfmCancel n cause =
    (((s.updXfm n fun x => { x with swap := none }).setFld (rXFM_TAB_CTRL n) fXFM_TAB_CTRL_GO 0).setFlds (rXFM_TAB_STATUS n)
      [(fXFM_TAB_STATUS_SWAP_RESULT, 3), (fXFM_TAB_STATUS_SWAP_CAUSE, cause)]).raise 267 := by
  obtain ⟨w, hw⟩ := Option.ne_none_iff_exists'.mp h
  unfold State.xfmCancel
  simp only [hw]

/-- A swap that waits comes with the first frame begun at or after its instant. -/
theorem tabSwapCommit_at {s : State} {n at_ t0 : Nat} (h : (s.xfmU n).swap = some (some at_))
    (hf : ((upTo (s.xfmStarted n)).filterMap fun i => ((s.xfmU n).buf[i * s.xfmHop n]?).map (·.t)).find? (fun t => at_ ≤ t) = some t0) :
    s.tabSwapCommit n = (s.setFld (rXFM_TAB_AT n) fXFM_TAB_AT_TIME (timeOf t0)).xfmSwapEnd n t0 := by
  unfold State.tabSwapCommit
  simp only [h, hf]

theorem tabSwapCommit_none {s : State} {n : Nat} (h : (s.xfmU n).swap = none ∨ (s.xfmU n).buf = []) : s.tabSwapCommit n = s := by
  have hp : 0 < s.xfmHop n := Nat.two_pow_pos _
  unfold State.tabSwapCommit
  rcases hw : (s.xfmU n).swap with - | - | at_
  · rfl
  · rfl
  · have hb : (s.xfmU n).buf = [] := h.resolve_left (by simp [hw])
    have hz : s.xfmStarted n = 0 := by
      rw [State.xfmStarted, hb, List.length_nil, ceilDiv, Nat.zero_add, Nat.div_eq_of_lt (by omega), ite_self]
    simp only [hz]
    rfl

/-! ### Frames (R205) -/

/-- What the end of a frame leaves of its pipeline. -/
def frameDone (s u : State) (n : Nat) : Prop :=
  (u.xfmU n).f = (s.xfmU n).f + 1 ∧ (u.xfmU n).last = (s.xfmU n).buf.head?.map (·.t) ∧ (u.xfmU n).buf = (s.xfmU n).buf.drop (s.xfmHop n) ∧
    (u.xfmU n).bankA = (s.xfmU n).bankA ∧ (u.xfmU n).bankB = (s.xfmU n).bankB

theorem frameDone.of_eq {s u v : State} {n : Nat} (h : frameDone s u n) (e : v.xfmU n = u.xfmU n) : frameDone s v n := by
  rw [frameDone, e]
  exact h

theorem xfmSwapSee_xfmU (s : State) (n t : Nat) :
    (s.xfmSwapSee n t).xfmU n = s.xfmU n ∨ ∃ w, (s.xfmSwapSee n t).xfmU n = { s.xfmU n with swap := none, bankAt := w } := by
  unfold State.xfmSwapSee
  rcases (s.xfmU n).swap with - | - | at_
  · exact .inl rfl
  · exact .inl rfl
  · dsimp only
    by_cases h : at_ ≤ t
    · rw [if_pos h]
      refine .inr ⟨t, (xfmSwapEnd_effect _ n t rfl).1.trans ?_⟩
      rw [(touches_State.setFld _ _ _ _).xfmU (by decide)]
    · rw [if_neg h]
      exact .inl rfl

theorem frameDone_next {s : State} {n : Nat} {x : Smp} {l : List Smp} (h : (s.xfmU n).buf = x :: l) : frameDone s (s.xfmNext n x.t) n := by
  rw [frameDone, State.xfmNext, xfmU_updXfm, h]
  exact ⟨rfl, rfl, rfl, rfl, rfl⟩

theorem frameDone_see {s u : State} {n : Nat} (h : frameDone s u n) (t : Nat) : frameDone s (u.xfmSwapSee n t) n := by
  rcases xfmSwapSee_xfmU u n t with e | ⟨w, e⟩
  · exact h.of_eq e
  · rw [frameDone, e]
    exact h

/-- A frame whose samples have all arrived is done with, lost or delivered. -/
theorem xfmFrame_done {s : State} {n : Nat} (hu : s.flag (rXFM_CFG n) fXFM_CFG_USED = true)
    (hl : 2 ^ (s.xfmLog2n n + s.xfmPcode n) ≤ (s.xfmU n).buf.length) : frameDone s (s.xfmFrame n) n := by
  have hp : 0 < 2 ^ (s.xfmLog2n n + s.xfmPcode n) := Nat.two_pow_pos _
  obtain ⟨x, l, hb⟩ : ∃ x l, (s.xfmU n).buf = x :: l := List.exists_cons_of_ne_nil fun e => by simp [e] at hl
  have hx : ((((s.xfmU n).buf.take (2 ^ (s.xfmLog2n n + s.xfmPcode n))).head?).map (·.t)).getD 0 = x.t := by
    obtain ⟨k, hk⟩ := Nat.exists_eq_succ_of_ne_zero hp.ne'
    rw [hb, hk]
    rfl
  have hlt : ¬ (s.xfmU n).buf.length < 2 ^ (s.xfmLog2n n + s.xfmPcode n) := by omega
  have hn := frameDone_next hb
  have lose : ∀ {u : State} (_ : frameDone s u n) f k, frameDone s (u.loseFrames n f k) n := fun h f k =>
    h.of_eq ((touches_State.loseFrames _ _ _ _).xfmU (by decide) n)
  have limit : ∀ {u : State} (_ : frameDone s u n) p src, frameDone s (u.raiseLim p src) n := fun h p src =>
    h.of_eq ((touches_State.raiseLim _ _ _ _ _ _ _).xfmU (by decide) n)
  have deliver : ∀ {u : State} (_ : frameDone s u n) f, frameDone s (u.deliver n f) n := fun h f =>
    h.of_eq ((touches_State.deliver _ _ _).xfmU (by decide) n)
  unfold State.xfmFrame
  simp only [hu, hlt, hx, Bool.not_true, Bool.false_or, decide_false, Bool.false_eq_true, if_false]
  split
  · exact deliver (lose hn _ _) _
  · generalize Xfm.bank _ _ = bank
    split
    · exact deliver (limit (lose (frameDone_see hn _) _ _) _ _) _
    · exact (frameDone_see hn _).of_eq ((touches_State.xfmRun _ _ _ _ _ _).xfmU (by decide) n)

theorem xfmFrame_waits {s : State} {n : Nat}
    (h : s.flag (rXFM_CFG n) fXFM_CFG_USED = false ∨ (s.xfmU n).buf.length < 2 ^ (s.xfmLog2n n + s.xfmPcode n)) : s.xfmFrame n = s := by
  unfold State.xfmFrame
  refine if_pos ?_
  rcases h with h | h <;> simp [h]

theorem tabSwapRegs_hi (n a : Nat) (h : a ∈ tabSwapRegs n) : 0x1000 ≤ a := by
  simp only [tabSwapRegs, List.mem_cons, List.not_mem_nil, or_false, rXFM_TAB_CTRL, rXFM_TAB_STATUS] at h
  omega

theorem illegalSched (v : Word) :
    ((upTo 9).any fun k => fget v fXFM_CTRL_SCHED / 4 ^ k % 4 == 3) = true ↔ ∃ k < 9, fget v fXFM_CTRL_SCHED / 4 ^ k % 4 = 3 := by
  simp [upTo]

theorem wrXfmCtrl_eq (n : Nat) (v : Word) (s : State) : State.wrXfmCtrl n v s =
    if 5 ≤ fget v fXFM_CTRL_WSEL ∨ (∃ k < 9, fget v fXFM_CTRL_SCHED / 4 ^ k % 4 = 3) ∨ (s.xfmPcode n ≠ 0 ∧ fget v fXFM_CTRL_WSEL ≠ 4) then
      s.addSat (rXFM_COUNT n) fXFM_COUNT_WR_DISC 1
    else s.wrCodes (rXFM_CTRL n) v [] := by
  unfold State.wrXfmCtrl
  refine if_congr ?_ rfl rfl
  rw [Bool.or_eq_true, Bool.or_eq_true, illegalSched, decide_eq_true_iff, Bool.and_eq_true, bne_iff_ne, bne_iff_ne, or_assoc]

/-- Settles O31, a clause per command and outcome. -/
theorem transformTablesAndFrames : Obligations.TransformTablesAndFrames := by
  refine ⟨fun n v s h hc hg hl hw h32 hm hp => ?loaded, fun n v s h hc hg hb => ?refused,
    fun n ws s hg hl hG hws => ⟨_, next_live hg (tabLoadEnd_words hl hG hws), ?_⟩,
    fun n len s hg hl hG => ⟨_, next_live hg (tabLoadEnd_failed hl hG), ?_⟩, fun n v s h hc hl hld hw hb => ?go, fun n v s h hl hg hw => ?cancel,
    fun n at_ t0 s hg hh hw hf => ⟨_, next_live hg ((State.clocked_running hh _).trans (tabSwapCommit_at hw hf)), ?commit⟩,
    fun n s hg hn => ?none, fun n v s h h5 hs hp => ?legal, fun n v s h hb => ?illegal,
    fun n s hg hh hu hl => ⟨_, next_live hg (State.clocked_running hh _), ?frame⟩, fun n s hg hn => ?waits⟩
  case loaded =>
    have hv := wrTabCtrl_load (n := n) (v := fset v fXFM_TAB_CTRL_LOAD 1) (s := s.dropStaged .host (rXFM_TAB_CTRL n)) (fget_fset_self _ _ _ (by decide))
      ((fget_fset_apart _ _ _ _ (by decide)).trans hg) ((fget_fset_apart _ _ _ _ (by decide)).trans hc)
    obtain ⟨w, ew⟩ : ∃ w, tabFields n (fset v fXFM_TAB_CTRL_LOAD 1) (s.dropStaged .host (rXFM_TAB_CTRL n)) = w := ⟨_, rfl⟩
    obtain ⟨kw, hx, hlen, -, -⟩ := tabWritten (m := mRegs ||| mStaged ||| mXfm ||| mGlb) (by decide) (l := [rXFM_TAB_CTRL n, rXFM_TAB_STATUS n]) (srcs := []) (by simp) _ s ew
    rw [fget_fset_apart _ _ _ _ (by decide)] at hlen
    rw [ew, tabLoad_taken hlen (by rw [hx]; exact hl) (by rw [hx]; exact hw) h32 hm hp] at hv
    have hcs : rXFM_TAB_CTRL n ≠ rXFM_TAB_STATUS n := by simp only [rXFM_TAB_CTRL, rXFM_TAB_STATUS]; omega
    refine ⟨_, next_hostWr h hv, ?_, ?_, ?_, ?_⟩
    · rw [(touches_State.setFlds _ _ _).xfmU (by decide), (touches_State.setFld _ _ _ _).xfmU (by decide), xfmU_updXfm, hx]
    · rw [State.flag, State.fld_setFlds_other _ _ _ hcs]
      simp (disch := decide)
    · simp (disch := decide)
    · exact .of_hi (.setFlds (.setFld (.other kw (touches_State.updXfm _ _ _) (e := State.updXfm_regs _ _ _)))) (tabSwapRegs_hi n)
  case refused =>
    have hv := wrTabCtrl_load (n := n) (v := fset v fXFM_TAB_CTRL_LOAD 1) (s := s.dropStaged .host (rXFM_TAB_CTRL n)) (fget_fset_self _ _ _ (by decide))
      ((fget_fset_apart _ _ _ _ (by decide)).trans hg) ((fget_fset_apart _ _ _ _ (by decide)).trans hc)
    obtain ⟨w, ew⟩ : ∃ w, tabFields n (fset v fXFM_TAB_CTRL_LOAD 1) (s.dropStaged .host (rXFM_TAB_CTRL n)) = w := ⟨_, rfl⟩
    obtain ⟨kw, hx, hlen, -, -⟩ := tabWritten (m := mEvent ||| mStaged ||| mGlb) (by decide) (l := [rXFM_TAB_CTRL n, rXFM_TAB_STATUS n]) (srcs := [265]) (by simp) _ s ew
    rw [fget_fset_apart _ _ _ _ (by decide)] at hlen
    rw [ew, tabLoad_refused hlen (by rw [hx]; exact hb), hx] at hv
    have hr : rXFM_TAB_STATUS n < 0x10000 ∨ 0x12000 + 8 * 265 < rXFM_TAB_STATUS n := by simp only [rXFM_TAB_STATUS]; omega
    refine ⟨_, next_hostWr h hv, ?_, ?_, .of_hi (.raise (.setFlds kw)) (tabSwapRegs_hi n)⟩
    · rw [State.fld_raise_other _ _ _ _ _ _ _ hr]
      simp (disch := decide)
    · rw [State.fld_raise_other _ _ _ _ _ _ _ hr, State.fld_setFlds_cons, State.fld_setFlds_cons, State.fld_setFlds_nil,
        State.fld_setFld_self _ _ _ _ (by decide)]
      split <;> rfl
  case go =>
    have hv := wrTabCtrl_go (n := n) (v := fset v fXFM_TAB_CTRL_GO 1) (s := s.dropStaged .host (rXFM_TAB_CTRL n)) ((fget_fset_apart _ _ _ _ (by decide)).trans hl)
      (fget_fset_self _ _ _ (by decide)) ((fget_fset_apart _ _ _ _ (by decide)).trans hc)
    obtain ⟨w, ew⟩ : ∃ w, tabFields n (fset v fXFM_TAB_CTRL_GO 1) (s.dropStaged .host (rXFM_TAB_CTRL n)) = w := ⟨_, rfl⟩
    obtain ⟨kw, hx, -, hrd, -⟩ := tabWritten (m := mEvent ||| mStaged ||| mXfm ||| mGlb) (by decide) (l := tabSwapRegs n) (srcs := [266, 268]) (by simp [tabSwapRegs]) _ s ew
    rw [ew] at hv
    have hu : w.flag (rXFM_CFG n) fXFM_CFG_USED = s.flag (rXFM_CFG n) fXFM_CFG_USED :=
      congrArg (fun x => fget x fXFM_CFG_USED != 0) (hrd _ (by simp only [rXFM_CFG, rXFM_TAB_CTRL]; omega))
    have ha : w.xfmActive n = s.xfmActive n :=
      congrArg (fun x => fget x fXFM_TAB_STATUS_ACTIVE) (hrd _ (by simp only [rXFM_TAB_STATUS, rXFM_TAB_CTRL]; omega))
    have hld' : (w.xfmU n).load = none := by rw [hx]; exact hld
    have hw' : (w.xfmU n).swap = none := by rw [hx]; exact hw
    have hb' : (w.xfmU n).bank (1 - w.xfmActive n) ≠ [] := by rw [hx, ha]; exact hb
    rw [← ha, ← hu]
    cases hcfg : w.flag (rXFM_CFG n) fXFM_CFG_USED
    · obtain ⟨c1, c2, c3, c4, -, -, k⟩ := xfmSwapEnd_effect w n 0 rfl
      refine ⟨_, next_hostWr h (hv.trans (tabSwapGo_unused hld' hw' hb' hcfg)), nofun, fun _ => ⟨?_, c2, c3, c4⟩,
        .of_hi (kw.andThen k (by decide) (fun _ h => h) (by decide)) (tabSwapRegs_hi n)⟩
      rw [c1]
    · obtain ⟨o, late, e⟩ := tabSwapGo_used hld' hw' hb' hcfg
      obtain ⟨c1, c2, c3, c4, k⟩ := tabPending_effect w n o late e.symm
      exact ⟨_, next_hostWr h hv, fun _ => ⟨by rw [c1]; simp, c2, c3, c4⟩, nofun,
        .of_hi (kw.andThen k (by decide) (fun _ h => h) (fun _ h => h)) (tabSwapRegs_hi n)⟩
  case cancel =>
    have hv := wrTabCtrl_cancel (n := n) (v := fset v fXFM_TAB_CTRL_CANCEL 1) (s := s.dropStaged .host (rXFM_TAB_CTRL n)) ((fget_fset_apart _ _ _ _ (by decide)).trans hl)
      ((fget_fset_apart _ _ _ _ (by decide)).trans hg) (fget_fset_self _ _ _ (by decide))
    obtain ⟨w, ew⟩ : ∃ w, tabFields n (fset v fXFM_TAB_CTRL_CANCEL 1) (s.dropStaged .host (rXFM_TAB_CTRL n)) = w := ⟨_, rfl⟩
    obtain ⟨kw, hx, -, -, -⟩ := tabWritten (m := mEvent ||| mStaged ||| mXfm ||| mGlb) (by decide) (l := [rXFM_TAB_CTRL n, rXFM_TAB_STATUS n]) (srcs := [267]) (by simp) _ s ew
    rw [ew, xfmCancel_pending (by rw [hx]; exact hw)] at hv
    have hcs : rXFM_TAB_CTRL n ≠ rXFM_TAB_STATUS n := by simp only [rXFM_TAB_CTRL, rXFM_TAB_STATUS]; omega
    have hr : rXFM_TAB_STATUS n < 0x10000 ∨ 0x12000 + 8 * 267 < rXFM_TAB_STATUS n := by simp only [rXFM_TAB_STATUS]; omega
    have hr' : rXFM_TAB_CTRL n < 0x10000 ∨ 0x12000 + 8 * 267 < rXFM_TAB_CTRL n := by simp only [rXFM_TAB_CTRL]; omega
    refine ⟨_, next_hostWr h hv, ?_, ?_, ?_, ?_, ?_⟩
    · rw [(touches_State.raise _ _ _ _ _).xfmU (by decide), (touches_State.setFlds _ _ _).xfmU (by decide), (touches_State.setFld _ _ _ _).xfmU (by decide), xfmU_updXfm, hx]
    · rw [State.flag, State.fld_raise_other _ _ _ _ _ _ _ hr', State.fld_setFlds_other _ _ _ hcs]
      simp (disch := decide)
    · rw [State.fld_raise_other _ _ _ _ _ _ _ hr]
      simp (disch := decide)
    · rw [State.fld_raise_other _ _ _ _ _ _ _ hr]
      simp (disch := decide)
    · exact .of_hi (.raise (.setFlds (.setFld (.other kw (touches_State.updXfm _ _ _) (e := State.updXfm_regs _ _ _))))) (tabSwapRegs_hi n)
  case commit =>
    obtain ⟨c1, c2, -, c4, c5, c6, k⟩ := xfmSwapEnd_effect (s.setFld (rXFM_TAB_AT n) fXFM_TAB_AT_TIME (timeOf t0)) n t0 rfl
    have hsa : rXFM_TAB_STATUS n ≠ rXFM_TAB_AT n := by simp only [rXFM_TAB_STATUS, rXFM_TAB_AT]; omega
    refine ⟨?_, ?_, c4, ?_, ?_, ?_⟩
    · rw [c1, (touches_State.setFld _ _ _ _).xfmU (by decide)]
    · rw [c2, State.xfmActive, State.fld_setFld_other _ _ _ _ hsa, ← State.xfmActive]
    · rw [c5, State.fld_setFld_other _ _ _ _ hsa]
    · rw [State.fld, c6 _ (by simp [tabSwapRegs]) (by simp only [rXFM_TAB_AT]; omega), ← State.fld]
      exact State.fld_setFld_self _ _ _ _ (by decide)
    · have k0 : onlyIn (mEvent ||| mXfm ||| mGlb) [rXFM_TAB_CTRL n, rXFM_TAB_STATUS n, rXFM_TAB_AT n] [266] s
          (s.setFld (rXFM_TAB_AT n) fXFM_TAB_AT_TIME (timeOf t0)) := .setFld (.refl _ _ _ _)
      refine .of_hi (k0.andThen k (by decide) (fun a ha => ?_) (fun _ h => h)) fun a ha => ?_
      · simp only [tabSwapRegs, List.mem_cons] at ha ⊢
        tauto
      · simp only [List.mem_cons, List.not_mem_nil, or_false, rXFM_TAB_CTRL, rXFM_TAB_STATUS, rXFM_TAB_AT] at ha
        omega
  case none =>
    cases hh : s.held
    · exact next_live hg ((State.clocked_running hh _).trans (tabSwapCommit_none (by simpa [hh] using hn)))
    · exact next_live hg (State.clocked_held hh _)
  case legal =>
    refine next_hostWr h ((wrXfmCtrl_eq n v _).trans (if_neg ?_))
    rw [State.xfmPcode, State.fld_dropStaged, ← State.xfmPcode]
    rintro (e | ⟨k, hk, e⟩ | ⟨e, e'⟩)
    · exact absurd h5 (by omega)
    · exact hs k hk e
    · exact hp.elim e e'
  case illegal =>
    refine next_hostWr h ((wrXfmCtrl_eq n v _).trans (if_pos ?_))
    rw [State.xfmPcode, State.fld_dropStaged, ← State.xfmPcode]
    exact hb
  case frame =>
    obtain ⟨c1, c2, c3, c4, c5⟩ := xfmFrame_done hu hl
    exact ⟨c1, c2, c3, c4, c5, touches_State.xfmFrame s n⟩
  case waits =>
    cases hh : s.held
    · exact next_live hg ((State.clocked_running hh _).trans (xfmFrame_waits (by simpa [hh] using hn)))
    · exact next_live hg (State.clocked_held hh _)
  · obtain ⟨c1, c2, c3, -, k⟩ := tabEnd_effect (s := s) (n := n) (b := 1 - s.xfmActive n) (ws := some (ws.map BitVec.toNat)) (r := 2) (why := 0) (src := 264)
      (by decide) (by decide) (.inl rfl) rfl
    exact ⟨c1, c2.trans (List.map_map ..), c3, k⟩
  · obtain ⟨c1, c2, c3, c4, k⟩ := tabEnd_effect (s := s) (n := n) (b := 1 - s.xfmActive n) (ws := none) (r := 3) (why := 1) (src := 265)
      (by decide) (by decide) (.inr rfl) rfl
    exact ⟨c1, c2, c3, c4, k⟩

end Sys2Proof
end

section
/-! SUPPORT. Frames at detector units and density accumulators inside a running interval (R237 to R250). -/

set_option Elab.async false

namespace Sys2Proof

open Sys2Proof.Machine

theorem detU_updDet (s : State) (n : Nat) (f : Det → Det) : (s.updDet n f).detU n = f (s.detU n) := by
  rw [State.detU, State.updDet_det, SMap.get_upd_same]
  rfl

theorem denU_updDen (s : State) (n : Nat) (f : Den → Den) : (s.updDen n f).denU n = f (s.denU n) := by
  rw [State.denU, State.updDen_den, SMap.get_upd_same]
  rfl

/-- A detector unit is one of `det`. -/
theorem Touches.detU {m : Nat} {s t : State} (k : Touches m s t) (h : m.testBit 32 = false := by decide) (n : Nat) : t.detU n = s.detU n :=
  congrArg (fun x => SMap.get det0 x n) (k.det h)

/-- A density accumulator is one of `den`. -/
theorem Touches.denU {m : Nat} {s t : State} (k : Touches m s t) (h : m.testBit 33 = false := by decide) (n : Nat) : t.denU n = s.denU n :=
  congrArg (fun x => SMap.get den0 x n) (k.den h)

/-! ### Writes of INT -/

theorem wrCodes_congr {s d : State} (e : d.regs = s.regs) (a : Nat) (v : Word) (l : List Fld) : (d.wrCodes a v l).rd a = (s.wrCodes a v l).rd a := by
  unfold State.wrCodes
  cases findReg a with
  | none => exact State.rd_congr e a
  | some r => simp only [State.rd_wr_same, State.rd_congr e]

theorem activePlan_congr {s d : State} (e : d.regs = s.regs) (ep : d.plan = s.plan) : d.activePlan = s.activePlan := by
  simp only [State.activePlan, State.fld_congr e, ep]

theorem detLegal_congr {s d : State} (e : d.regs = s.regs) (ep : d.plan = s.plan) (n : Nat) (c i : Word) : d.detLegal n c i = s.detLegal n c i := by
  simp only [State.detLegal, activePlan_congr e ep, State.flag, State.fld_congr e]

theorem denLegal_congr {s d : State} (e : d.regs = s.regs) (ep : d.plan = s.plan) (n : Nat) (c i : Word) : d.denLegal n c i = s.denLegal n c i := by
  simp only [State.denLegal, activePlan_congr e ep, State.flag, State.fld_congr e, State.rd_congr e]

theorem wrDetInt_staged (s : State) (n : Nat) (v : Word) : State.wrDetInt n v (s.dropStaged .host (rDET_INT n)) =
    if s.detLegal n (s.rd (rDET_CTRL n)) ((s.wrCodes (rDET_INT n) v []).rd (rDET_INT n)) = true then (s.dropStaged .host (rDET_INT n)).wrCodes (rDET_INT n) v []
    else ((s.dropStaged .host (rDET_INT n)).addSat (rDET_COUNT n) fDET_COUNT_WR_DISC 1).raise 284 := by
  have e := s.dropStaged_regs .host (rDET_INT n)
  have ep := s.dropStaged_plan .host (rDET_INT n)
  generalize s.dropStaged .host (rDET_INT n) = d at e ep ⊢
  unfold State.wrDetInt State.detDiscardWr
  simp only [detLegal_congr e ep, wrCodes_congr e, State.rd_congr e]

theorem wrDenInt_staged (s : State) (n : Nat) (v : Word) : State.wrDenInt n v (s.dropStaged .host (rDEN_INT n)) =
    if s.denLegal n (s.rd (rDEN_CTRL n)) ((s.wrCodes (rDEN_INT n) v []).rd (rDEN_INT n)) = true then (s.dropStaged .host (rDEN_INT n)).wrCodes (rDEN_INT n) v []
    else ((s.dropStaged .host (rDEN_INT n)).addSat (rDEN_COUNT n) fDEN_COUNT_WR_DISC 1).raise 285 := by
  have e := s.dropStaged_regs .host (rDEN_INT n)
  have ep := s.dropStaged_plan .host (rDEN_INT n)
  generalize s.dropStaged .host (rDEN_INT n) = d at e ep ⊢
  unfold State.wrDenInt State.denDiscardWr
  simp only [denLegal_congr e ep, wrCodes_congr e, State.rd_congr e]

/-! ### The next frame -/

theorem nextFrame_alone {s : State} {sq : Nat} {cfg : Nat} {g p : Fld} (hg : s.flag cfg g = false) (hp : s.flag cfg p = false) :
    s.nextFrame sq (s.gangOther cfg g p sq) = (SMap.get [] s.frames sq).head? := by
  rw [State.gangOther, hg, hp]
  simp only [Bool.false_eq_true, if_false, State.nextFrame, State.framesAt, Option.bind_none]
  cases (SMap.get [] s.frames sq).head? <;> rfl

theorem nextFrame_empty {s : State} {sq : Nat} (o : Option Nat) (h : SMap.get [] s.frames sq = []) : s.nextFrame sq o = none := by
  simp only [State.nextFrame, State.framesAt, h, List.head?_nil]

theorem cutAt_nil {iv : Intv} (h : iv.cfgs = []) (t : Nat) : iv.cutAt t = none := by
  rw [Intv.cutAt, h]
  rfl

theorem cfgAt_nil {iv : Intv} (h : iv.cfgs = []) (now : Word × Word × Word) (t : Nat) : iv.cfgAt now t = now := by
  rw [Intv.cfgAt, h]
  rfl

theorem passed_nil {iv : Intv} (h : iv.cfgs = []) (t : Nat) : iv.passed t = iv := by
  rw [Intv.passed, cutAt_nil h]

/-! ### Detector units -/

/-- The interval comes to a frame of its own era, with no boundary before it: nothing of it changes. -/
theorem detCut_quiet {s : State} {n : Nat} {f : Machine.Frm} (hc : (s.detU n).iv.cfgs = []) (he : f.era = (s.detU n).iv.era) :
    (s.detCut n f).detU n = s.detU n ∧ onlyIn (mDet ||| mGlb) [] [] s (s.detCut n f) := by
  have e : ∃ g, s.detCut n f = s.updDet n g ∧ g (s.detU n) = s.detU n := by
    unfold State.detCut
    simp only [cutAt_nil hc, he, Option.isSome_none, bne_self_eq_false, Bool.false_and, Bool.or_self, Bool.false_eq_true, if_false, if_true]
    refine ⟨_, rfl, ?_⟩
    rw [passed_nil hc]
  obtain ⟨g, e, hg⟩ := e
  rw [e, detU_updDet, hg]
  exact ⟨rfl, .other (.refl _ _ _ _) (touches_State.updDet _ _ _) (e := State.updDet_regs _ _ _)⟩

/-- A frame inside the running interval, which it neither starts nor ends, is taken by it. -/
theorem detStep_inside {s : State} {n : Nat} {f : Machine.Frm} (hc : (s.detU n).iv.cfgs = []) (ho : (s.detU n).iv.on = true) (he : f.era = (s.detU n).iv.era)
    (hm : fget (s.actv (rDET_CTRL n)) fDET_CTRL_INT_MODE = 1)
    (hj : intvIndex true (fget (s.actv (rDET_INT n)) fDET_INT_VALUE) (s.actv (rDET_ALIGN n)).toNat (s.detU n).iv.base f.f f.t ≤ (s.detU n).iv.idx) :
    s.detStep n n f = (s.detCut n f).detAdd n n (s.actv (rDET_CTRL n)) f := by
  have ha : ∀ a, (s.detCut n f).actv a = s.actv a := fun a => (detCut_quiet hc he).2.1.actv (by decide) a
  have hu := (detCut_quiet hc he).1
  unfold State.detStep
  simp only [hu, cfgAt_nil hc, State.detNow, hm, beq_self_eq_true, Bool.not_true, Bool.false_and]
  generalize s.detCut n f = u at *
  have hr : ∀ mode j, j ≤ (s.detU n).iv.idx → u.detRoll n mode j = u := fun mode j h => by
    unfold State.detRoll
    simp only [hu, ho, Bool.true_and, decide_eq_true_eq]
    exact if_neg (by omega)
  have hop : ∀ ctrl j start, u.detOpen n ctrl j start = u := fun ctrl j start => by
    unfold State.detOpen
    exact if_pos (by rw [hu, ho])
  rw [hr _ _ hj, hop]
  rfl

/-- The masks of what a detector unit changes with a frame. -/
abbrev mDetFrame : Nat := mEvent ||| mFreeCtr ||| mFrames ||| mDet ||| mGlb

/-- A lost frame counts in LOST and in the interval's losses. -/
theorem detAdd_lost (s : State) (n : Fin 4) (ctrl : Word) {f : Machine.Frm} (hl : f.lost = true) {t : State} (e : s.detAdd n n ctrl f = t) :
    (t.detU n).iv.lost = (s.detU n).iv.lost + 1 ∧ (t.detU n).off = (s.detU n).off ∧ (t.detU n).on = (s.detU n).on ∧
      t.fld (rDET_STAT n) fDET_STAT_LOST = satN fDET_STAT_LOST.w (s.fld (rDET_STAT n) fDET_STAT_LOST + 1) ∧
      t.frames = s.frames ∧ onlyIn mDetFrame [rDET_STAT n] [272 + n.val] s t := by
  subst e
  have hr : rDET_STAT n < 0x10000 ∨ 0x12000 + 8 * (272 + n.val) < rDET_STAT n := by simp only [rDET_STAT]; omega
  unfold State.detAdd
  simp only [hl, if_true]
  have hu : ∀ g, (s.updDet n g).detU n = g (s.detU n) := fun g => detU_updDet _ _ _
  refine ⟨?_, ?_, ?_, ?_, ?_, .other (.raiseLim (.addSat (.other (.refl _ _ _ _) (touches_State.updDet _ _ _) (e := State.updDet_regs _ _ _))))
    (touches_State.updDet _ _ _) (e := State.updDet_regs _ _ _)⟩
  · rw [detU_updDet, (touches_State.raiseLim _ _ _ _ _ _ _).detU (by decide), (touches_State.addSat _ _ _ _).detU (by decide), hu]
  · rw [detU_updDet, (touches_State.raiseLim _ _ _ _ _ _ _).detU (by decide), (touches_State.addSat _ _ _ _).detU (by decide), hu]
  · rw [detU_updDet, (touches_State.raiseLim _ _ _ _ _ _ _).detU (by decide), (touches_State.addSat _ _ _ _).detU (by decide), hu]
  · rw [State.fld_updDet, State.fld_raiseLim_other _ _ _ _ _ _ _ _ _ hr, State.fld_addSat_self _ _ _ _ (by decide), State.fld_updDet]
  · rw [(touches_State.updDet _ _ _).frames (by decide), (touches_State.raiseLim _ _ _ _ _ _ _).frames (by decide),
      (touches_State.addSat _ _ _ _).frames (by decide), (touches_State.updDet _ _ _).frames (by decide)]

theorem onlyIn_fresh {m : Nat} {l srcs : List Nat} (hm : mFreeCtr &&& m = mFreeCtr) (s : State) : onlyIn m l srcs s s.fresh.2 :=
  .other (m := m) (.refl _ _ _ _) (touches_State.onFreeCtr _ _) hm (e := State.onFreeCtr_regs _ _)

/-- A frame accumulated without switching is one more of the accumulation of all frames. -/
theorem detAccum_plain {s : State} {n : Nat} (hs : s.flag (rDET_CFG n) fDET_CFG_SWITCHED = false) (ctrl : Word) (f : Machine.Frm) :
    ∃ g : Det → Det, s.detAccum n n ctrl f = s.fresh.2.updDet n g ∧ ∀ d, (g d).off.n = d.off.n + 1 ∧ (g d).on = d.on ∧ (g d).iv = d.iv := by
  have hs' : s.fresh.2.flag (rDET_CFG n) fDET_CFG_SWITCHED = false := hs
  unfold State.detAccum
  simp only [hs, Bool.false_eq_true, if_false]
  exact ⟨_, rfl, fun d => ⟨rfl, rfl, rfl⟩⟩

/-- Accumulating a frame changes the unit and, of the registers, SW_DISCARD. -/
theorem detAccum_frame (s : State) (n : Nat) (ctrl : Word) (f : Machine.Frm) :
    (s.detAccum n n ctrl f).frames = s.frames ∧ onlyIn mDetFrame [rDET_STAT n] [272 + n] s (s.detAccum n n ctrl f) := by
  have hf : onlyIn mDetFrame [rDET_STAT n] [272 + n] s s.fresh.2 := onlyIn_fresh (by decide) s
  have hfr : s.fresh.2.frames = s.frames := (touches_State.onFreeCtr s _).frames (by decide)
  have hu : ∀ g, (s.fresh.2.updDet n g).frames = s.frames ∧ onlyIn mDetFrame [rDET_STAT n] [272 + n] s (s.fresh.2.updDet n g) := fun g =>
    ⟨((touches_State.updDet _ _ _).frames (by decide)).trans hfr, .other hf (touches_State.updDet _ _ _) (e := State.updDet_regs _ _ _)⟩
  unfold State.detAccum
  dsimp only
  generalize s.fresh.2 = w at hf hfr hu ⊢
  split
  · generalize switchState _ _ = o
    rcases o with - | - | -
    · exact ⟨((touches_State.addSat _ _ _ _).frames (by decide)).trans hfr, .addSat hf⟩
    · exact hu _
    · exact hu _
  · exact hu _

/-- Any other frame is one more of an accumulation: without switching, of the one of all frames. -/
theorem detAdd_kept (s : State) (n : Fin 4) (ctrl : Word) {f : Machine.Frm} (hl : f.lost = false) {t : State} (e : s.detAdd n n ctrl f = t) :
    (s.flag (rDET_CFG n) fDET_CFG_SWITCHED = false →
      (t.detU n).off.n = (s.detU n).off.n + 1 ∧ (t.detU n).on = (s.detU n).on ∧ (t.detU n).iv.lost = (s.detU n).iv.lost) ∧
    t.frames = s.frames ∧ onlyIn mDetFrame [rDET_STAT n] [272 + n.val] s t := by
  subst e
  unfold State.detAdd
  simp only [hl, Bool.false_eq_true, if_false]
  have hu : ∀ g, (s.updDet n g).detU n = g (s.detU n) := fun g => detU_updDet _ _ _
  refine ⟨fun hs => ?_, ?_, ?_⟩
  · obtain ⟨g, e, hg⟩ := detAccum_plain (s := s.updDet n fun d => { d with iv := { d.iv with fl := d.iv.fl ||| f.fl % 65536 } }) (n := n)
      (by rw [State.flag, State.fld_updDet]; exact hs) ctrl f
    have hd : ∀ v : State, v.fresh.2.detU n = v.detU n := fun v => (touches_State.onFreeCtr v _).detU (by decide) _
    rw [e, detU_updDet, hd, hu]
    obtain ⟨h1, h2, h3⟩ := hg { s.detU n with iv := { (s.detU n).iv with fl := (s.detU n).iv.fl ||| f.fl % 65536 } }
    exact ⟨h1, h2, by rw [h3]⟩
  · rw [(detAccum_frame _ _ _ _).1, (touches_State.updDet _ _ _).frames (by decide)]
  · exact .andThen (.other (.refl _ _ _ _) (touches_State.updDet _ _ _) (e := State.updDet_regs _ _ _)) (detAccum_frame _ _ _ _).2

/-! ### Density accumulators -/

theorem denCut_quiet {s : State} {n : Nat} {f : Machine.Frm} (hc : (s.denU n).iv.cfgs = []) (he : f.era = (s.denU n).iv.era) :
    (s.denCut n f).denU n = s.denU n ∧ onlyIn (mDen ||| mGlb) [] [] s (s.denCut n f) := by
  have e : ∃ g, s.denCut n f = s.updDen n g ∧ g (s.denU n) = s.denU n := by
    unfold State.denCut
    simp only [cutAt_nil hc, he, Option.isSome_none, bne_self_eq_false, Bool.false_and, Bool.or_self, Bool.false_eq_true, if_false, if_true]
    refine ⟨_, rfl, ?_⟩
    rw [passed_nil hc]
  obtain ⟨g, e, hg⟩ := e
  rw [e, denU_updDen, hg]
  exact ⟨rfl, .other (.refl _ _ _ _) (touches_State.updDen _ _ _) (e := State.updDen_regs _ _ _)⟩

/-- A frame or trace inside the running interval, which it neither starts nor ends, is taken by it. -/
theorem denStep_inside {s : State} {n : Nat} {f : Machine.Frm} (hc : (s.denU n).iv.cfgs = []) (ho : (s.denU n).iv.on = true) (he : f.era = (s.denU n).iv.era)
    (hm : fget (s.actv (rDEN_CTRL n)) fDEN_CTRL_INT_MODE = 1)
    (hj : intvIndex true (fget (s.actv (rDEN_INT n)) fDEN_INT_VALUE) (s.actv (rDEN_ALIGN n)).toNat (s.denU n).iv.base f.f f.t ≤ (s.denU n).iv.idx) :
    s.denStep n n f = (s.denCut n f).denAdd n n (s.actv (rDEN_CTRL n)) f := by
  have hu := (denCut_quiet hc he).1
  unfold State.denStep
  simp only [hu, cfgAt_nil hc, State.denNow, hm, beq_self_eq_true, Bool.not_true, Bool.false_and]
  generalize s.denCut n f = u at *
  have hr : ∀ ctrl j, j ≤ (s.denU n).iv.idx → u.denRoll n ctrl j = u := fun ctrl j h => by
    unfold State.denRoll
    simp only [hu, ho, Bool.true_and, decide_eq_true_eq]
    exact if_neg (by omega)
  have hop : ∀ ctrl j start, u.denOpen n ctrl j start = u := fun ctrl j start => by
    unfold State.denOpen
    exact if_pos (by rw [hu, ho])
  rw [hr _ _ hj, hop]
  rfl

/-- The mask of what a density accumulator changes with a frame. -/
abbrev mDenFrame : Nat := mEvent ||| mFreeCtr ||| mFrames ||| mDen ||| mGlb

/-- The registers a frame can change at density accumulator `n`. -/
def denRegs (n : Nat) : List Nat := [rDEN_STAT n, rDEN_LOST n, rDEN_COUNT n]

theorem denRegs_hi (n a : Nat) (h : a ∈ denRegs n) : 0x1000 ≤ a := by
  simp only [denRegs, List.mem_cons, List.not_mem_nil, or_false, rDEN_STAT, rDEN_LOST, rDEN_COUNT] at h
  omega

theorem denAdd_lost (s : State) (n : Fin 4) (ctrl : Word) {f : Machine.Frm} (hl : f.lost = true) {t : State} (e : s.denAdd n n ctrl f = t) :
    (t.denU n).iv.lost = (s.denU n).iv.lost + 1 ∧ (t.denU n).n = (s.denU n).n ∧ (t.denU n).cells = (s.denU n).cells ∧
      t.frames = s.frames ∧ onlyIn mDenFrame (denRegs n) [276 + n.val, 280 + n.val] s t := by
  subst e
  unfold State.denAdd
  simp only [hl, if_true]
  have hu : ∀ g, (s.updDen n g).denU n = g (s.denU n) := fun g => denU_updDen _ _ _
  refine ⟨?_, ?_, ?_, ?_, .other (.raiseLim (.addSat (.other (.refl _ _ _ _) (touches_State.updDen _ _ _) (e := State.updDen_regs _ _ _)) (ha := by simp [denRegs])))
    (touches_State.updDen _ _ _) (e := State.updDen_regs _ _ _)⟩
  · rw [denU_updDen, (touches_State.raiseLim _ _ _ _ _ _ _).denU (by decide), (touches_State.addSat _ _ _ _).denU (by decide), hu]
  · rw [denU_updDen, (touches_State.raiseLim _ _ _ _ _ _ _).denU (by decide), (touches_State.addSat _ _ _ _).denU (by decide), hu]
  · rw [denU_updDen, (touches_State.raiseLim _ _ _ _ _ _ _).denU (by decide), (touches_State.addSat _ _ _ _).denU (by decide), hu]
  · rw [(touches_State.updDen _ _ _).frames (by decide), (touches_State.raiseLim _ _ _ _ _ _ _).frames (by decide),
      (touches_State.addSat _ _ _ _).frames (by decide), (touches_State.updDen _ _ _).frames (by decide)]

/-- A part of taking a frame in: cells and counts change, and neither the number of the interval's frames nor the frames that wait. -/
def scoring (n : Nat) (s t : State) : Prop :=
  (t.denU n).n = (s.denU n).n ∧ t.frames = s.frames ∧ onlyIn mDenFrame (denRegs n) [276 + n, 280 + n] s t

theorem scoring.refl (n : Nat) (s : State) : scoring n s s := ⟨rfl, rfl, .refl _ _ _ _⟩

theorem scoring.trans {n : Nat} {s t u : State} (h : scoring n s t) (k : scoring n t u) : scoring n s u :=
  ⟨k.1.trans h.1, k.2.1.trans h.2.1, h.2.2.trans k.2.2⟩

theorem scoring.addSat {n : Nat} {s t : State} (h : scoring n s t) {a : Nat} (ha : a ∈ denRegs n) (f : Fld) (k : Nat) : scoring n s (t.addSat a f k) :=
  h.trans ⟨congrArg Den.n ((touches_State.addSat t a f k).denU (by decide) n), (touches_State.addSat t a f k).frames (by decide), .addSat (.refl _ _ _ _) (ha := ha)⟩

theorem scoring.raiseLim {n : Nat} {s t : State} (h : scoring n s t) (us : Nat) : scoring n s (t.raiseLim us (280 + n)) :=
  h.trans ⟨congrArg Den.n ((touches_State.raiseLim t us (280 + n) _ _ _ _).denU (by decide) n), (touches_State.raiseLim t us (280 + n) _ _ _ _).frames (by decide),
    .raiseLim (.refl _ _ _ _)⟩

theorem scoring.ite {n : Nat} {s t u : State} {c : Prop} [Decidable c] (h : scoring n s t) (k : scoring n s u) : scoring n s (if c then t else u) := by
  split
  · exact h
  · exact k

theorem scoring.over {β : Type} {n : Nat} {g : State → β → State} (k : ∀ v b, scoring n v (g v b)) (l : List β) (s : State) : scoring n s (l.foldl g s) := by
  induction l generalizing s with
  | nil => exact .refl n s
  | cons b l ih => exact (k s b).trans (ih _)

theorem scoring.counts {n : Nat} {s t : State} {c : Prop} [Decidable c] (h : scoring n s t) {a : Nat} (ha : a ∈ denRegs n) (f : Fld) :
    scoring n s (if c then t.addSat a f 1 else t) := .ite (h.addSat ha _ _) h

theorem scoring.saturates {n : Nat} {s t : State} {c : Prop} [Decidable c] (h : scoring n s t) (ha : rDEN_COUNT n ∈ denRegs n) :
    scoring n s (if c then (t.addSat (rDEN_COUNT n) fDEN_COUNT_SAT 1).raiseLim 1000 (280 + n) else t) := .ite ((h.addSat ha _ _).raiseLim _) h

/-- A score in outline: the bank changes, then what lies over, what lies under and what saturates counts. -/
def scored (s : State) (m : Nat) (g : Den → Den) (high under : Prop) [Decidable high] [Decidable under] (sat : Bool) : State :=
  let s1 := s.updDen m g
  let s2 := if high then s1.addSat (rDEN_STAT m) fDEN_STAT_OVER 1 else s1
  let s3 := if under then s2.addSat (rDEN_STAT m) fDEN_STAT_UNDER 1 else s2
  if sat then (s3.addSat (rDEN_COUNT m) fDEN_COUNT_SAT 1).raiseLim 1000 (280 + m) else s3

theorem denScore_scored (s : State) (n : Nat) (ctrl : Word) (c : Nat) (p : Nat × Nat) :
    ∃ (g : Den → Den) (high under : Prop) (_ : Decidable high) (_ : Decidable under) (sat : Bool),
      (∀ d, (g d).n = d.n) ∧ s.denScore n n ctrl c p = scored s n g high under sat := by
  unfold State.denScore
  refine ⟨_, _, _, _, _, _, ?_, rfl⟩
  exact fun _ => rfl

theorem scoring_denScore (s : State) (n : Nat) (ctrl : Word) (c : Nat) (p : Nat × Nat) : scoring n s (s.denScore n n ctrl c p) := by
  obtain ⟨g, high, under, hd1, hd2, sat, hg, e⟩ := denScore_scored s n ctrl c p
  have hu : scoring n s (s.updDen n g) :=
    ⟨by rw [denU_updDen, hg], (touches_State.updDen _ _ _).frames (by decide), .other (.refl _ _ _ _) (touches_State.updDen _ _ _) (e := State.updDen_regs _ _ _)⟩
  rw [e]
  exact .saturates (.counts (.counts hu (by simp [denRegs]) _) (by simp [denRegs]) _) (by simp [denRegs])

/-- A frame or trace that is scored is one more of the interval, which it now reaches to its end. -/
theorem denAccum_effect (s : State) (n : Nat) (ctrl : Word) (f : Machine.Frm) {t : State} (e : s.denAccum n n ctrl f = t) :
    (t.denU n).n = (s.denU n).n + 1 ∧ (t.denU n).tend = f.tend ∧ t.frames = s.frames ∧ onlyIn mDenFrame (denRegs n) [276 + n, 280 + n] s t := by
  subst e
  have hf : scoring n s s.fresh.2 :=
    ⟨congrArg Den.n ((touches_State.onFreeCtr s _).denU (by decide) n), (touches_State.onFreeCtr s _).frames (by decide), onlyIn_fresh (by decide) s⟩
  unfold State.denAccum
  dsimp only
  generalize s.fresh.2 = w at hf
  generalize hv : List.foldl _ w (upTo (s.denC n)) = v
  have k : scoring n s v := by
    refine hf.trans (hv ▸ .over (fun v i => ?_) _ _)
    exact .ite (scoring_denScore _ _ _ _ _) (.over (fun v p => scoring_denScore _ _ _ _ _) _ _)
  obtain ⟨h1, h2, h3⟩ := k
  refine ⟨?_, ?_, ((touches_State.updDen _ _ _).frames (by decide)).trans h2, .other h3 (touches_State.updDen _ _ _) (e := State.updDen_regs _ _ _)⟩
  · rw [denU_updDen, ← h1]
  · rw [denU_updDen]

theorem denAdd_kept (s : State) (n : Fin 4) (ctrl : Word) {f : Machine.Frm} (hl : f.lost = false) {t : State} (e : s.denAdd n n ctrl f = t) :
    (t.denU n).n = (s.denU n).n + 1 ∧ (t.denU n).tend = f.tend ∧ t.frames = s.frames ∧
      onlyIn mDenFrame (denRegs n) [276 + n.val, 280 + n.val] s t := by
  subst e
  unfold State.denAdd
  simp only [hl, Bool.false_eq_true, if_false]
  obtain ⟨h1, h2, h3, k⟩ := denAccum_effect (s.updDen n fun d => { d with iv := { d.iv with fl := d.iv.fl ||| f.fl % 65536 } }) n ctrl f rfl
  refine ⟨?_, h2, h3.trans ((touches_State.updDen _ _ _).frames (by decide)),
    .andThen (.other (.refl _ _ _ _) (touches_State.updDen _ _ _) (e := State.updDen_regs _ _ _)) k⟩
  rw [h1, denU_updDen]

/-! ### Frames and readouts -/

theorem popFrame_frames (s : State) (sq : Nat) : (s.popFrame sq).frames = SMap.upd [] s.frames sq (·.drop 1) := rfl

theorem onlyIn_popFrame {m : Nat} {l srcs : List Nat} (hm : mFrames &&& m = mFrames) (s : State) (sq : Nat) : onlyIn m l srcs s (s.popFrame sq) :=
  .other (.refl _ _ _ _) (touches_State.popFrame s sq) hm

/-- Settles O32, a clause per command and outcome. -/
theorem detectorsAndDensity : Obligations.DetectorsAndDensity := by
  refine ⟨fun n v s h => ⟨next_hostWr h rfl, next_hostWr h rfl⟩, fun n v s h => next_hostWr h (wrDetInt_staged s n v),
    fun n v s h => next_hostWr h (wrDenInt_staged s n v), fun n s hg hn => ?detNone, fun n s hg hn => ?denNone,
    fun n f rest s hg hh hf hG hP hc ho he hm hj => ?det, fun n f rest s hg hh hf hG hP hc ho he hm hj => ?den,
    fun n s hg hh => ⟨next_live hg (State.clocked_held hh _), next_live hg (State.clocked_held hh _)⟩,
    fun n s hg hh => ⟨next_live hg (State.clocked_running hh _), next_live hg (State.clocked_running hh _)⟩⟩
  case detNone =>
    cases hh : s.held
    · refine next_live hg ((State.clocked_running hh _).trans ?_)
      unfold State.detFrame
      simp only [nextFrame_empty _ (show SMap.get [] s.frames (detSquare n) = [] by simpa [hh] using hn)]
    · exact next_live hg (State.clocked_held hh _)
  case denNone =>
    cases hh : s.held
    · refine next_live hg ((State.clocked_running hh _).trans ?_)
      unfold State.denFrame
      simp only [nextFrame_empty _ (show SMap.get [] s.frames (denSquare n) = [] by simpa [hh] using hn)]
    · exact next_live hg (State.clocked_held hh _)
  case det =>
    have e : s.detFrame n = (s.popFrame (detSquare n)).detStep n n f := by
      unfold State.detFrame
      simp only [nextFrame_alone hG hP, hf, List.head?_cons, State.detLead, hP, Bool.false_eq_true, if_false]
    have kp := onlyIn_popFrame (m := mDetFrame) (l := [rDET_STAT n]) (srcs := [272 + n.val]) (by decide) s (detSquare n)
    have hd : (s.popFrame (detSquare n)).detU n = s.detU n := (touches_State.popFrame _ _).detU (by decide) n
    have hfr := popFrame_frames s (detSquare n)
    have hr : ∀ a, (s.popFrame (detSquare n)).rd a = s.rd a := State.rd_congr rfl
    have ha : ∀ a, (s.popFrame (detSquare n)).actv a = s.actv a := (touches_State.popFrame s _).actv (by decide)
    generalize s.popFrame (detSquare n) = p at *
    rw [detStep_inside (hd ▸ hc) (hd ▸ ho) (hd ▸ he) ((ha _).symm ▸ hm) (by rw [ha, ha, hd]; exact hj)] at e
    have hcut := detCut_quiet (s := p) (n := n) (f := f) (hd ▸ hc) (hd ▸ he)
    have hcf : (p.detCut n f).frames = p.frames := hcut.2.1.frames (by decide)
    have hcr : ∀ a, (p.detCut n f).rd a = s.rd a := fun a => (hcut.2.2 a (by simp) (by simp)).trans (hr a)
    have kc : onlyIn mDetFrame [rDET_STAT n] [272 + n.val] s (p.detCut n f) := kp.andThen hcut.2 (by decide) (by simp) (by simp)
    have hcd := hcut.1.trans hd
    have hst : ∀ a x, (p.detCut n f).fld a x = s.fld a x := fun a x => congrArg (fun w => fget w x) (hcr a)
    generalize p.detCut n f = w at e hcf kc hcd hst
    refine ⟨_, next_live hg ((State.clocked_running hh _).trans e), ?_⟩
    cases hl : f.lost
    · obtain ⟨c, h4, k⟩ := detAdd_kept w n (p.actv (rDET_CTRL n)) hl rfl
      rw [hcd] at c
      refine ⟨(h4.trans hcf).trans hfr, nofun, fun _ hs => c (by rw [State.flag, hst]; exact hs), .of_hi (kc.trans k) (by simp only [List.mem_singleton, rDET_STAT]; omega)⟩
    · obtain ⟨h1, h2, h3, h5, h4, k⟩ := detAdd_lost w n (p.actv (rDET_CTRL n)) hl rfl
      rw [hcd] at h1 h2 h3
      rw [hst] at h5
      exact ⟨(h4.trans hcf).trans hfr, fun _ => ⟨h1, h2, h3, h5⟩, nofun, .of_hi (kc.trans k) (by simp only [List.mem_singleton, rDET_STAT]; omega)⟩
  case den =>
    have e : s.denFrame n = (s.popFrame (denSquare n)).denStep n n f := by
      unfold State.denFrame
      simp only [nextFrame_alone hG hP, hf, List.head?_cons, State.denLead, hP, Bool.false_eq_true, if_false]
    have kp := onlyIn_popFrame (m := mDenFrame) (l := denRegs n) (srcs := [276 + n.val, 280 + n.val]) (by decide) s (denSquare n)
    have hd : (s.popFrame (denSquare n)).denU n = s.denU n := (touches_State.popFrame _ _).denU (by decide) n
    have hfr := popFrame_frames s (denSquare n)
    have ha : ∀ a, (s.popFrame (denSquare n)).actv a = s.actv a := (touches_State.popFrame s _).actv (by decide)
    generalize s.popFrame (denSquare n) = p at *
    rw [denStep_inside (hd ▸ hc) (hd ▸ ho) (hd ▸ he) ((ha _).symm ▸ hm) (by rw [ha, ha, hd]; exact hj)] at e
    have hcut := denCut_quiet (s := p) (n := n) (f := f) (hd ▸ hc) (hd ▸ he)
    have hcf : (p.denCut n f).frames = p.frames := hcut.2.1.frames (by decide)
    have kc : onlyIn mDenFrame (denRegs n) [276 + n.val, 280 + n.val] s (p.denCut n f) := kp.andThen hcut.2 (by decide) (by simp) (by simp)
    have hcd := hcut.1.trans hd
    generalize p.denCut n f = w at e hcf kc hcd
    refine ⟨_, next_live hg ((State.clocked_running hh _).trans e), ?_⟩
    cases hl : f.lost
    · obtain ⟨h1, h2, h4, k⟩ := denAdd_kept w n (p.actv (rDEN_CTRL n)) hl rfl
      rw [hcd] at h1
      exact ⟨(h4.trans hcf).trans hfr, nofun, fun _ => ⟨h1, h2⟩, .of_hi (kc.trans k) (denRegs_hi n)⟩
    · obtain ⟨h1, h2, h3, h4, k⟩ := denAdd_lost w n (p.actv (rDEN_CTRL n)) hl rfl
      rw [hcd] at h1 h2 h3
      exact ⟨(h4.trans hcf).trans hfr, fun _ => ⟨h1, h2, h3⟩, nofun, .of_hi (kc.trans k) (denRegs_hi n)⟩

end Sys2Proof
end

section
/-! SUPPORT. Trigger sources issue events (R256 to R266). -/

set_option Elab.async false

namespace Sys2Proof

open Sys2Proof.Machine

theorem tqU_updTq (s : State) (q : Nat) (f : Tq → Tq) : (s.updTq q f).tqU q = f (s.tqU q) := by
  rw [State.tqU, State.updTq_tq, SMap.get_upd_same]
  rfl

theorem tqU_updTq_other (s : State) {q p : Nat} (h : p ≠ q) (f : Tq → Tq) : (s.updTq q f).tqU p = s.tqU p := by
  rw [State.tqU, State.updTq_tq, SMap.get_upd_other]
  · rfl
  · exact h

/-- A qualifier is one of `tq`. -/
theorem Touches.tqU {m : Nat} {s t : State} (k : Touches m s t) (h : m.testBit 34 = false := by decide) (n : Nat) : t.tqU n = s.tqU n :=
  congrArg (fun x => SMap.get tq0 x n) (k.tq h)

/-- The values of a qualifier are values in force. -/
theorem Touches.tqNow {m : Nat} {s t : State} (k : Touches m s t) (h : m.testBit 2 = false := by decide) (q : Nat) : t.tqNow q = s.tqNow q := by
  simp only [State.tqNow, k.actv h]

/-- Does qualifier `q` select source `src`, in SET_A or in SET_B? -/
def selects (s : State) (q src : Nat) : Bool := inSetA (s.tqNow q) src || inSetB (s.tqNow q) src

theorem Touches.selects {m : Nat} {s t : State} (k : Touches m s t) (h : m.testBit 2 = false := by decide) (q src : Nat) : selects t q src = selects s q src := by
  rw [Sys2Proof.selects, k.tqNow h, Sys2Proof.selects]

/-- The message of an event goes to qualifier `q` if that selects its source. -/
def issueOne (e : TrgEv) (s : State) (q : Nat) : State := if selects s q e.src = true then s.updTq q fun x => { x with inbox := x.inbox ++ [e] } else s

theorem touches_issueOne (e : TrgEv) (s : State) (q : Nat) : Touches mTq s (issueOne e s q) := by
  unfold issueOne
  split
  · exact touches_State.updTq _ _ _
  · exact .refl _ _

theorem issueOne_inbox (e : TrgEv) (s : State) (p q : Nat) :
    ((issueOne e s p).tqU q).inbox = if q = p ∧ selects s q e.src = true then (s.tqU q).inbox ++ [e] else (s.tqU q).inbox := by
  unfold issueOne
  by_cases h : q = p
  · subst h
    simp only [true_and]
    split
    · rw [tqU_updTq]
    · rfl
  · simp only [h, false_and, if_false]
    split
    · rw [tqU_updTq_other _ h]
    · rfl

/-- The message of an event goes to the qualifiers of a list. -/
def issueTo (e : TrgEv) (l : List Nat) (s : State) : State := l.foldl (issueOne e) s

theorem touches_issueTo (e : TrgEv) (l : List Nat) (s : State) : Touches mTq s (issueTo e l s) :=
  .overList (m' := mTq) (.refl _ _) fun t q => touches_issueOne e t q

/-- Each qualifier of the list that selects the source takes the message, and no other does. -/
theorem issueTo_inbox (e : TrgEv) {l : List Nat} (hl : l.Nodup) (s : State) (q : Nat) :
    ((issueTo e l s).tqU q).inbox = if q ∈ l ∧ selects s q e.src = true then (s.tqU q).inbox ++ [e] else (s.tqU q).inbox := by
  induction l generalizing s with
  | nil => simp [issueTo]
  | cons p l ih =>
    obtain ⟨hp, hl⟩ := List.nodup_cons.mp hl
    rw [issueTo, List.foldl_cons, ← issueTo, ih hl, (touches_issueOne e s p).selects (by decide), issueOne_inbox]
    by_cases h : q = p
    · subst h
      simp [hp]
    · simp [h]

/-- An event of source `e.src` is counted by it, and joins the inbox of every qualifier that selects the source, and no other. -/
theorem trgIssue_effect (s : State) {e : TrgEv} (he : e.src < 64) {t : State} (eq : s.trgIssue e = t) :
    t.fld (rTRG_SRC e.src) fTRG_SRC_EVENTS = (s.fld (rTRG_SRC e.src) fTRG_SRC_EVENTS + 1) % 2 ^ 32 ∧
    (∀ q < 16, (t.tqU q).inbox = if selects s q e.src = true then (s.tqU q).inbox ++ [e] else (s.tqU q).inbox) ∧
    onlyIn (mRegs ||| mTq) [rTRG_SRC e.src] [] s t := by
  have k : onlyIn (mRegs ||| mTq ||| mGlb) [rTRG_SRC e.src] [] s (s.addMod (rTRG_SRC e.src) fTRG_SRC_EVENTS 1) := .addMod (.refl _ _ _ _)
  have e1 : s.trgIssue e = issueTo e (upTo 16) (s.addMod (rTRG_SRC e.src) fTRG_SRC_EVENTS 1) := by
    unfold State.trgIssue
    rw [if_pos he]
    rfl
  have kt := touches_issueTo e (upTo 16) (s.addMod (rTRG_SRC e.src) fTRG_SRC_EVENTS 1)
  subst eq
  rw [e1]
  refine ⟨?_, fun q hq => ?_, ?_⟩
  · rw [State.fld_congr (kt.regs (by decide))]
    exact State.fld_addMod_self _ _ _ _ (by decide)
  · rw [issueTo_inbox e (l := upTo 16) List.nodup_range, (touches_State.addMod _ _ _ _).selects (by decide), (touches_State.addMod _ _ _ _).tqU (by decide)]
    exact if_congr (by simp [upTo, hq]) rfl rfl
  · exact .of_hi (.other k kt (e := kt.regs (by decide))) (by simp only [List.mem_singleton, rTRG_SRC]; omega)

/-! ### The trigger bus (R260, R261) -/

theorem busL_updBus (s : State) (l : Nat) (f : Bus → Bus) : (s.updBus l f).busL l = f (s.busL l) := by
  rw [State.busL, State.updBus, State.onBus_bus, SMap.get_upd_same]
  rfl

/-- A line is one of `bus`. -/
theorem Touches.busL {m : Nat} {s t : State} (k : Touches m s t) (h : m.testBit 37 = false := by decide) (l : Nat) : t.busL l = s.busL l :=
  congrArg (fun x => SMap.get bus0 x l) (k.bus h)

theorem onlyIn_reach {m : Nat} {l srcs : List Nat} (hm : mTime &&& m = mTime) (s : State) (t : Nat) : onlyIn m l srcs s (s.reach t) :=
  .other (.refl _ _ _ _) (touches_State.reach s t) hm (e := (touches_State.reach s t).regs (by decide))

theorem onlyIn_updBus {m : Nat} {l srcs : List Nat} (hm : mBus &&& m = mBus) (s : State) (n : Nat) (f : Bus → Bus) : onlyIn m l srcs s (s.updBus n f) :=
  .other (.refl _ _ _ _) (touches_State.updBus s n f) hm (e := (touches_State.updBus s n f).regs (by decide))

theorem busEvent_low {s : State} {l : Nat} (h : (s.busL l).low = true) (t : Nat) : s.busEvent l t = s := by
  unfold State.busEvent
  exact if_pos h

/-- A line that was not low issues an event placed three samples back. -/
theorem busEvent_high {s : State} {l : Nat} (h : (s.busL l).low = false) (t : Nat) :
    ∃ f : Bus → Bus, (∀ b, (f b).low = true) ∧ s.busEvent l t = ((s.reach (t + 3)).updBus l f).trgIssue ⟨tick16 (t - 3), 4 + l, 4, false, false, 0⟩ := by
  unfold State.busEvent
  simp only [h, Bool.false_eq_true, if_false]
  exact ⟨_, fun b => rfl, rfl⟩

theorem busPulseEnd_cons {s : State} {l b e : Nat} {rest : List (Nat × Nat)} (h : (s.busL l).drv = (b, e) :: rest) :
    s.busPulseEnd l = (s.reach e).updBus l fun b => { b with drv := rest, low := b.low && b.ext } := by
  unfold State.busPulseEnd
  simp only [h]

theorem busPulseEnd_nil {s : State} {l : Nat} (h : (s.busL l).drv = []) : s.busPulseEnd l = s := by
  unfold State.busPulseEnd
  simp only [h]

/-! ### Timers and software sources (R257) -/

theorem trgTimer_on {s : State} {n : Nat} (h : fget (s.actv (rTRG_TMR_CFG n)) fTRG_TMR_CFG_EN = 1) {k at_ : Nat} (hk : SMap.get 0 s.tmr n = k)
    (ha : (s.actv (rTRG_TMR_START n)).toNat + k * fget (s.actv (rTRG_TMR_CFG n)) fTRG_TMR_CFG_PERIOD = at_) :
    s.trgTimer n = ((s.reach at_).onTmr fun _ => SMap.set 0 s.tmr n (k + 1)).trgIssue ⟨tick16 at_, 56 + n, 0, false, false, 0⟩ := by
  subst hk ha
  unfold State.trgTimer
  exact if_pos h

theorem trgTimer_off {s : State} {n : Nat} (h : fget (s.actv (rTRG_TMR_CFG n)) fTRG_TMR_CFG_EN = 0) : s.trgTimer n = s := by
  unfold State.trgTimer
  exact if_neg (by omega)

/-- The event of software source `60 + i` at the present time. -/
def swEvent (s : State) (i : Nat) : TrgEv := ⟨tick16 s.time, 60 + i, 4, false, false, 0⟩

/-- Bit `i` of a write of TRG_SW. -/
def swBit (v : Word) (s : State) (i : Nat) : State := if v.toNat / 2 ^ i % 2 = 1 then s.trgIssue (swEvent s i) else s

theorem wrTrgSw_eq (v : Word) (s : State) : State.wrTrgSw v s = (upTo 4).foldl (swBit v) s := rfl

/-- A bit of a write of TRG_SW issues an event of its source, and nothing of any other. -/
theorem swBit_effect (v : Word) (s : State) {i : Nat} (hi : i < 4) {t : State} (e : swBit v s i = t) :
    t.fld (rTRG_SRC (60 + i)) fTRG_SRC_EVENTS = (s.fld (rTRG_SRC (60 + i)) fTRG_SRC_EVENTS + v.toNat / 2 ^ i % 2) % 2 ^ 32 ∧
    (∀ q < 16, (t.tqU q).inbox = (s.tqU q).inbox ++ if (v.toNat / 2 ^ i % 2 == 1 && selects s q (60 + i)) = true then [swEvent s i] else []) ∧
    onlyIn (mRegs ||| mTq) [rTRG_SRC (60 + i)] [] s t := by
  subst e
  unfold swBit
  by_cases h : v.toNat / 2 ^ i % 2 = 1
  · obtain ⟨h1, h2, k⟩ := trgIssue_effect s (e := swEvent s i) (show 60 + i < 64 by omega) rfl
    rw [if_pos h]
    refine ⟨h1.trans (by rw [h]; rfl), fun q hq => ?_, k⟩
    rw [h2 q hq, h]
    cases hs : selects s q (60 + i)
    · rw [if_neg (by exact fun e => by simp [swEvent, hs] at e)]
      simp
    · rw [if_pos (by exact hs)]
      simp
  · have h0 : v.toNat / 2 ^ i % 2 = 0 := by omega
    rw [if_neg h]
    refine ⟨?_, fun q hq => by simp [h0], .refl _ _ _ _⟩
    rw [h0, Nat.add_zero]
    exact (Nat.mod_eq_of_lt (s.fld_lt _ _)).symm

/-- The bits of a write of TRG_SW over a list: each issues an event of its own source, at the present time. -/
theorem swBits_effect (v : Word) {l : List Nat} (hl : l.Nodup) (hi : ∀ i ∈ l, i < 4) (s : State) {t : State} (e : l.foldl (swBit v) s = t) :
    (∀ i ∈ l, t.fld (rTRG_SRC (60 + i)) fTRG_SRC_EVENTS = (s.fld (rTRG_SRC (60 + i)) fTRG_SRC_EVENTS + v.toNat / 2 ^ i % 2) % 2 ^ 32) ∧
    (∀ q < 16, (t.tqU q).inbox = (s.tqU q).inbox ++ (l.filter fun i => v.toNat / 2 ^ i % 2 == 1 && selects s q (60 + i)).map (swEvent s)) ∧
    onlyIn (mRegs ||| mTq) (l.map fun i => rTRG_SRC (60 + i)) [] s t := by
  induction l generalizing s with
  | nil => subst e; exact ⟨fun i h => (List.not_mem_nil h).elim, fun q _ => by simp, .refl _ _ _ _⟩
  | cons a l ih =>
    obtain ⟨ha, hl⟩ := List.nodup_cons.mp hl
    obtain ⟨h1, h2, k1⟩ := swBit_effect v s (hi a (by simp)) rfl
    obtain ⟨g1, g2, k2⟩ := ih hl (fun i h => hi i (by simp [h])) (swBit v s a) e
    have hs : ∀ q k, selects (swBit v s a) q k = selects s q k := k1.1.selects (by decide)
    have he : swEvent (swBit v s a) = swEvent s := funext fun i => by rw [swEvent, k1.1.time (by decide), swEvent]
    generalize swBit v s a = w at *
    have apart : ∀ i, i ≠ a → ∀ u, onlyIn (mRegs ||| mTq) [rTRG_SRC (60 + a)] [] s u → u.fld (rTRG_SRC (60 + i)) fTRG_SRC_EVENTS = s.fld (rTRG_SRC (60 + i)) fTRG_SRC_EVENTS :=
      fun i hne u k => congrArg (fun x => fget x fTRG_SRC_EVENTS) (k.2 _ (by simp only [List.mem_singleton, rTRG_SRC]; omega) (by simp))
    refine ⟨fun i hmem => ?_, fun q hq => ?_, ?_⟩
    · by_cases hia : i = a
      · subst hia
        refine (congrArg (fun x => fget x fTRG_SRC_EVENTS) (k2.2 _ ?_ (by simp))).trans h1
        intro hm
        obtain ⟨j, hj, e⟩ := List.mem_map.mp hm
        simp only [rTRG_SRC] at e
        exact ha (by rwa [show i = j by omega])
      · rw [g1 i ((List.mem_cons.mp hmem).resolve_left hia), apart i hia _ k1]
    · rw [g2 q hq, h2 q hq, he, List.filter_cons]
      simp only [hs, List.append_assoc]
      split <;> rfl
    · exact (k1.mono (by decide) (by simp) (by simp)).trans (k2.mono (by decide) (fun a h => List.mem_cons_of_mem _ h) (by simp))

/-! ### Level triggers (R262 to R264) -/

theorem ltU_updLt (s : State) (i : Nat) (f : Lt → Lt) : (s.updLt i f).ltU i = f (s.ltU i) := by
  rw [State.ltU, State.updLt_lt, SMap.get_upd_same]
  rfl

/-- A level trigger is one of `lt`. -/
theorem Touches.ltU {m : Nat} {s t : State} (k : Touches m s t) (h : m.testBit 35 = false := by decide) (i : Nat) : t.ltU i = s.ltU i :=
  congrArg (fun x => SMap.get lt0 x i) (k.lt h)

theorem onlyIn_updLt {m : Nat} {l srcs : List Nat} (hm : mLt &&& m = mLt) (s : State) (n : Nat) (f : Lt → Lt) : onlyIn m l srcs s (s.updLt n f) :=
  .other (.refl _ _ _ _) (touches_State.updLt s n f) hm (e := State.updLt_regs _ _ _)

theorem touches_fresh (s : State) : Touches mFreeCtr s s.fresh.2 := touches_State.onFreeCtr s _

/-- An armed direction without MIN_WIDTH issues its event at a sample at or beyond the level. -/
theorem dirStep_fires {beyond back : Int → Bool} {v : Int} (h : beyond v = true) (e : TrgEv) :
    dirStep beyond back 0 true none v (some e) = (back v, none, some e) := by
  simp only [dirStep, h, Bool.and_self, if_true, Bool.false_or]

theorem dirStep_idle (beyond back : Int → Bool) (minw : Nat) (arm : Bool) (v : Int) : dirStep beyond back minw arm none v none = (arm || back v, none, none) := rfl

/-- What a level trigger's event leaves: the DCLK it came in, one more of TRIGGERS, and the event issued. -/
def ltFired (s : State) (i cyc : Nat) (e : TrgEv) : State :=
  ((s.updLt i fun x => { x with last := some cyc, loss := false }).addMod (rTRG_LT_STAT i) fTRG_LT_STAT_TRIGGERS 1).trgIssue { e with loss := (s.ltU i).loss }

theorem ltIssue_first {s : State} {i cyc : Nat} (h : (s.ltU i).last ≠ some cyc) (e : TrgEv) : s.ltIssue i cyc e = (ltFired s i cyc e, true) := by
  unfold State.ltIssue ltFired
  exact if_neg h

theorem ltSample_fires {s : State} {i : Nat} {x : Smp} {p : Nat × Option Int} (hok : x.ok = true) (hp : (s.ltU i).prev = some p)
    (ha : (s.ltU i).armR = true) (hr : (s.ltU i).pendR = none) (hf : (s.ltU i).pendF = none) (hl : (s.ltU i).last ≠ some (timeOf x.t))
    (hc : fget (s.actv (rTRG_LT_CFG i)) fTRG_LT_CFG_COND = 0) (hw : fget (s.actv (rTRG_LT_CFG i)) fTRG_LT_CFG_MIN_WIDTH = 0)
    (hv : fgetS (s.actv (rTRG_LT_LEVEL i)) fTRG_LT_LEVEL_LEVEL ≤ ltValue (fget (s.actv (rTRG_LT_CFG i)) fTRG_LT_CFG_SIGNAL) x) :
    ∃ (g : Lt → Lt) (e : TrgEv), (∀ l, (g l).queue = l.queue) ∧ e.src = 12 + i ∧
      s.ltSample i x = (ltFired (s.fresh.2.updLt i g) i (timeOf x.t) e, true) := by
  have hd : ∀ back e, dirStep (fun v => decide (fgetS (s.actv (rTRG_LT_LEVEL i)) fTRG_LT_LEVEL_LEVEL ≤ v)) back 0 true none
      (ltValue (fget (s.actv (rTRG_LT_CFG i)) fTRG_LT_CFG_SIGNAL) x) (some e) = (back _, none, some e) := fun back e =>
    dirStep_fires (decide_eq_true hv) e
  have hi : ∀ (g : Lt → Lt) e, (∀ l, (g l).last = l.last) → (s.fresh.2.updLt i g).ltIssue i (timeOf x.t) e = (ltFired (s.fresh.2.updLt i g) i (timeOf x.t) e, true) :=
    fun g e hg => ltIssue_first (by rw [ltU_updLt, hg, (touches_fresh s).ltU (by decide)]; exact hl) e
  unfold State.ltSample
  simp only [hok, hp, ha, hr, hf, hc, hw, Option.map_some, Bool.not_true, Bool.false_eq_true, if_false, Nat.zero_ne_one, if_true, hd, dirStep_idle]
  refine ⟨_, _, ?_, ?_, congrArg (fun r : State × Bool => (r.1, false || r.2)) (hi _ _ ?_)⟩
  · exact fun _ => rfl
  · rfl
  · exact fun _ => rfl

theorem ltCrossing_one {s : State} {i : Nat} {x : Smp} (hq : (s.ltU i).queue = [x]) {t : State}
    (h : (s.updLt i fun l => { l with queue := [] }).ltSample i x = (t, true)) : s.ltCrossing i = t := by
  have e : (s.ltU i).queue.length = 1 := by rw [hq]; rfl
  rw [State.ltCrossing, e, State.ltRun]
  simp only [hq, h, if_true]

theorem ltCrossing_empty {s : State} {i : Nat} (hq : (s.ltU i).queue = []) : s.ltCrossing i = s := by
  rw [State.ltCrossing, hq]
  rfl

/-- A level trigger's event shows in its counter, in its source's, and in the DCLK it keeps. -/
theorem ltFired_effect (s : State) (i : Fin 8) (cyc : Nat) {e : TrgEv} (he : e.src = 12 + i) {t : State} (eq : ltFired s i cyc e = t) :
    (t.ltU i).last = some cyc ∧ (t.ltU i).queue = (s.ltU i).queue ∧
      t.fld (rTRG_LT_STAT i) fTRG_LT_STAT_TRIGGERS = (s.fld (rTRG_LT_STAT i) fTRG_LT_STAT_TRIGGERS + 1) % 2 ^ fTRG_LT_STAT_TRIGGERS.w ∧
      t.fld (rTRG_SRC (12 + i)) fTRG_SRC_EVENTS = (s.fld (rTRG_SRC (12 + i)) fTRG_SRC_EVENTS + 1) % 2 ^ 32 ∧
      onlyIn (mRegs ||| mTq ||| mLt ||| mGlb) [rTRG_LT_STAT i, rTRG_SRC (12 + i)] [] s t := by
  have kw : onlyIn (mRegs ||| mTq ||| mLt ||| mGlb) [rTRG_LT_STAT i, rTRG_SRC (12 + i)] []
      s ((s.updLt i fun x => { x with last := some cyc, loss := false }).addMod (rTRG_LT_STAT i) fTRG_LT_STAT_TRIGGERS 1) :=
    .addMod (onlyIn_updLt (by decide) _ _ _)
  have hu : ((s.updLt i fun x => { x with last := some cyc, loss := false }).addMod (rTRG_LT_STAT i) fTRG_LT_STAT_TRIGGERS 1).ltU i =
      { s.ltU i with last := some cyc, loss := false } := by
    rw [(touches_State.addMod _ _ _ _).ltU (by decide), ltU_updLt]
  have hc : ((s.updLt i fun x => { x with last := some cyc, loss := false }).addMod (rTRG_LT_STAT i) fTRG_LT_STAT_TRIGGERS 1).fld (rTRG_LT_STAT i) fTRG_LT_STAT_TRIGGERS =
      (s.fld (rTRG_LT_STAT i) fTRG_LT_STAT_TRIGGERS + 1) % 2 ^ fTRG_LT_STAT_TRIGGERS.w := State.fld_addMod_self _ _ _ _ (by decide)
  have ho : ((s.updLt i fun x => { x with last := some cyc, loss := false }).addMod (rTRG_LT_STAT i) fTRG_LT_STAT_TRIGGERS 1).fld (rTRG_SRC (12 + i)) fTRG_SRC_EVENTS =
      s.fld (rTRG_SRC (12 + i)) fTRG_SRC_EVENTS := State.fld_addMod_other _ _ _ _ (by simp only [rTRG_SRC, rTRG_LT_STAT]; omega)
  unfold ltFired at eq
  generalize (s.updLt i fun x => { x with last := some cyc, loss := false }).addMod (rTRG_LT_STAT i) fTRG_LT_STAT_TRIGGERS 1 = w at *
  have hes : ({ e with loss := (s.ltU i).loss } : TrgEv).src = 12 + i := he
  generalize ({ e with loss := (s.ltU i).loss } : TrgEv) = e' at hes eq
  obtain ⟨h1, -, k⟩ := trgIssue_effect w (e := e') (by omega) eq
  rw [hes] at h1 k
  have hlt : t.ltU i = w.ltU i := k.1.ltU (by decide) i
  refine ⟨by rw [hlt, hu], by rw [hlt, hu], ?_, h1.trans (by rw [ho]), kw.andThen k (by decide) (by simp) (by simp)⟩
  rw [State.fld, k.2 _ (by simp only [List.mem_singleton, rTRG_SRC, rTRG_LT_STAT]; omega) (by simp), ← State.fld, hc]

/-! ### Mask units (R265, R266) -/

/-- A mask unit is one of `fm`. -/
theorem Touches.fmU {m : Nat} {s t : State} (k : Touches m s t) (h : m.testBit 36 = false := by decide) (i : Nat) : t.fmU i = s.fmU i :=
  congrArg (fun x => SMap.get fm0 x i) (k.fm h)

theorem fmFrame_idle {s : State} {u : Nat} (hf : SMap.get [] s.frames (44 + u) ≠ [])
    (h : s.used (44 + u) = false ∨ fget (s.actv (rTRG_FM_CFG u)) fTRG_FM_CFG_EN = 0) : s.fmFrame u = s.popFrame (44 + u) := by
  obtain ⟨f, rest, hf⟩ := List.exists_cons_of_ne_nil hf
  have hu : (s.popFrame (44 + u)).used (44 + u) = s.used (44 + u) := rfl
  unfold State.fmFrame
  simp only [State.framesAt, hf, hu]
  refine if_pos ?_
  rcases h with h | h <;> simp [h]

theorem fmFrame_empty {s : State} {u : Nat} (hf : SMap.get [] s.frames (44 + u) = []) : s.fmFrame u = s := by
  unfold State.fmFrame
  simp only [State.framesAt, hf]

/-- A frame tested: what the unit keeps of it, and QUALIFIED. -/
def fmTested (s : State) (u : Nat) (now : Bool) (era : Nat) : State :=
  ((s.fresh.2).addMod (rTRG_FM_STAT u) fTRG_FM_STAT_QUALIFIED (b2n now)).updFm u fun m => { m with was := now, era := era }

/-- A mask unit's event. -/
def fmFired (s : State) (u : Nat) (e : TrgEv) : State :=
  ((s.updFm u fun m => { m with loss := false }).addMod (rTRG_FM_STAT u) fTRG_FM_STAT_TRIGGERS 1).trgIssue e

/-- A frame tested under COND 0 issues an event where enough bins violate the mask. -/
theorem fmFrame_tests {s : State} {u : Nat} {f : Machine.Frm} {rest : List Machine.Frm} (hu : s.used (44 + u) = true)
    (hf : SMap.get [] s.frames (44 + u) = f :: rest) (hl : f.lost = false) (he : fget (s.actv (rTRG_FM_CFG u)) fTRG_FM_CFG_EN = 1)
    (hc : fget (s.actv (rTRG_FM_CFG u)) fTRG_FM_CFG_COND = 0) {now : Bool}
    (hn : decide (fget (s.actv (rTRG_FM_CFG u)) fTRG_FM_CFG_MIN_BINS ≤ (s.fmViolations u f).1.length) = now) :
    ∃ e : TrgEv, e.src = 20 + u ∧ s.fmFrame u =
      if now = true then fmFired (fmTested (s.popFrame (44 + u)) u now f.era) u e else fmTested (s.popFrame (44 + u)) u now f.era := by
  have hu' : (s.popFrame (44 + u)).used (44 + u) = true := hu
  have hv : ((s.popFrame (44 + u)).fmViolations u f).1 = (s.fmViolations u f).1 := rfl
  have hs : ((s.popFrame (44 + u)).fmViolations u f).2 = (s.popFrame (44 + u)).fresh.2 := rfl
  unfold State.fmFrame
  simp only [State.framesAt, hf, he, hu', hl, hc, hv, hs, Nat.one_ne_zero, Bool.not_true, Bool.or_self, decide_false, Bool.false_eq_true, if_false, hn]
  exact ⟨_, rfl, rfl⟩

theorem onlyIn_updFm {m : Nat} {l srcs : List Nat} (hm : mFm &&& m = mFm) (s : State) (n : Nat) (f : Fm → Fm) : onlyIn m l srcs s (s.updFm n f) :=
  .other (.refl _ _ _ _) (touches_State.updFm s n f) hm (e := State.updFm_regs _ _ _)

theorem fmTested_effect (s : State) (u : Nat) (now : Bool) (era : Nat) {t : State} (e : fmTested s u now era = t) :
    t.fld (rTRG_FM_STAT u) fTRG_FM_STAT_TRIGGERS = s.fld (rTRG_FM_STAT u) fTRG_FM_STAT_TRIGGERS ∧ t.tq = s.tq ∧ t.frames = s.frames ∧
      onlyIn (mRegs ||| mFreeCtr ||| mFm ||| mGlb) [rTRG_FM_STAT u] [] s t := by
  subst e
  have k : onlyIn (mRegs ||| mFreeCtr ||| mFm ||| mGlb) [rTRG_FM_STAT u] [] s (fmTested s u now era) :=
    .trans (.addMod (onlyIn_fresh (by decide) s)) (onlyIn_updFm (by decide) _ _ _)
  refine ⟨?_, k.1.tq (by decide), k.1.frames (by decide), k⟩
  rw [fmTested, State.fld_congr (State.updFm_regs _ _ _), State.fld_addMod_apart _ _ _ _ _ _ (by decide)]
  rfl

theorem fmFired_effect (s : State) (u : Fin 4) {e : TrgEv} (he : e.src = 20 + u) {t : State} (eq : fmFired s u e = t) :
    t.fld (rTRG_FM_STAT u) fTRG_FM_STAT_TRIGGERS = (s.fld (rTRG_FM_STAT u) fTRG_FM_STAT_TRIGGERS + 1) % 2 ^ fTRG_FM_STAT_TRIGGERS.w ∧
      t.fld (rTRG_SRC (20 + u)) fTRG_SRC_EVENTS = (s.fld (rTRG_SRC (20 + u)) fTRG_SRC_EVENTS + 1) % 2 ^ 32 ∧
      onlyIn (mRegs ||| mTq ||| mFm ||| mGlb) [rTRG_FM_STAT u, rTRG_SRC (20 + u)] [] s t := by
  have kw : onlyIn (mRegs ||| mTq ||| mFm ||| mGlb) [rTRG_FM_STAT u, rTRG_SRC (20 + u)] []
      s ((s.updFm u fun m => { m with loss := false }).addMod (rTRG_FM_STAT u) fTRG_FM_STAT_TRIGGERS 1) := .addMod (onlyIn_updFm (by decide) _ _ _)
  have hc : ((s.updFm u fun m => { m with loss := false }).addMod (rTRG_FM_STAT u) fTRG_FM_STAT_TRIGGERS 1).fld (rTRG_FM_STAT u) fTRG_FM_STAT_TRIGGERS =
      (s.fld (rTRG_FM_STAT u) fTRG_FM_STAT_TRIGGERS + 1) % 2 ^ fTRG_FM_STAT_TRIGGERS.w := State.fld_addMod_self _ _ _ _ (by decide)
  have ho : ((s.updFm u fun m => { m with loss := false }).addMod (rTRG_FM_STAT u) fTRG_FM_STAT_TRIGGERS 1).fld (rTRG_SRC (20 + u)) fTRG_SRC_EVENTS =
      s.fld (rTRG_SRC (20 + u)) fTRG_SRC_EVENTS := State.fld_addMod_other _ _ _ _ (by simp only [rTRG_SRC, rTRG_FM_STAT]; omega)
  unfold fmFired at eq
  generalize (s.updFm u fun m => { m with loss := false }).addMod (rTRG_FM_STAT u) fTRG_FM_STAT_TRIGGERS 1 = w at *
  obtain ⟨h1, -, k⟩ := trgIssue_effect w (e := e) (by omega) eq
  rw [he] at h1 k
  refine ⟨?_, h1.trans (by rw [ho]), kw.andThen k (by decide) (by simp) (by simp)⟩
  rw [State.fld, k.2 _ (by simp only [List.mem_singleton, rTRG_SRC, rTRG_FM_STAT]; omega) (by simp), ← State.fld, hc]

/-- Settles O33, a clause per command and outcome. -/
theorem triggerSources : Obligations.TriggerSources := by
  refine ⟨fun l t s hg hh hl => ?busEvent, fun l t s hg hn => ?busLow, fun l b e rest s hg hh hd => ?pulse, fun l s hg hn => ?noPulse,
    fun l s hg hh => ⟨_, next_live hg (State.clocked_running hh _), ?high⟩, fun n s hg hh he => ?timer, fun n s hg hn => ?timerOff, fun v s h => ?software,
    fun i x p s hg hh hq hok hp ha hr hf hl hc hw hv => ?level, fun i s hg hn => ?levelIdle, fun u f rest s hg hh hu hf hl he hc => ?mask,
    fun u s hg hh hf hn => next_live hg ((State.clocked_running hh _).trans (fmFrame_idle hf hn)), fun u s hg hn => ?maskIdle⟩
  case busEvent =>
    obtain ⟨f, hf, e⟩ := busEvent_high hl t
    have k : onlyIn (mRegs ||| mTime ||| mTq ||| mBus) [rTRG_SRC (4 + l)] [] s ((s.reach (t + 3)).updBus l f) :=
      (onlyIn_reach (by decide) s _).trans (onlyIn_updBus (by decide) _ _ _)
    have hb : (((s.reach (t + 3)).updBus l f).busL l).low = true := by rw [busL_updBus, hf]
    have ht : ((s.reach (t + 3)).updBus l f).time = max s.time (t + 3) := State.reach_time_running hh _
    have hs : ∀ q k, selects ((s.reach (t + 3)).updBus l f) q k = selects s q k := k.1.selects (by decide)
    have hx : ∀ q, ((s.reach (t + 3)).updBus l f).tqU q = s.tqU q := fun q =>
      ((touches_State.updBus _ _ _).tqU (by decide) q).trans ((touches_State.reach _ _).tqU (by decide) q)
    have hr : ∀ a, ((s.reach (t + 3)).updBus l f).rd a = s.rd a := State.rd_congr (State.reach_regs ..)
    generalize (s.reach (t + 3)).updBus l f = w at *
    obtain ⟨h1, h2, kt⟩ := trgIssue_effect w (e := ⟨tick16 (t - 3), 4 + l, 4, false, false, 0⟩) (by simp only; omega) rfl
    refine ⟨_, next_live hg ((State.clocked_running hh _).trans e), ?_, (kt.1.time (by decide)).trans ht, ?_, fun q hq => ?_,
      k.andThen kt (by decide) (fun _ h => h) (fun _ h => h)⟩
    · rw [kt.1.busL (by decide), hb]
    · refine h1.trans ?_
      rw [State.fld, hr, ← State.fld]
    · rw [h2 q hq, hs, hx]
      rfl
  case busLow =>
    cases hh : s.held
    · exact next_live hg ((State.clocked_running hh _).trans (busEvent_low (by simpa [hh] using hn) t))
    · exact next_live hg (State.clocked_held hh _)
  case pulse =>
    have k : onlyIn (mTime ||| mBus) [] [] s ((s.reach e).updBus l fun b => { b with drv := rest, low := b.low && b.ext }) :=
      (onlyIn_reach (by decide) s _).trans (onlyIn_updBus (by decide) _ _ _)
    have hb := busL_updBus (s.reach e) l fun b => { b with drv := rest, low := b.low && b.ext }
    rw [(touches_State.reach s e).busL (by decide)] at hb
    refine ⟨_, next_live hg ((State.clocked_running hh _).trans (busPulseEnd_cons hd)), ?_, ?_, State.reach_time_running hh _, fun h0 => ?_, k⟩
    · rw [hb]
    · rw [hb]
    · subst h0
      rw [State.busIsHigh, State.busDriven, hb]
      exact Bool.and_true _
  case noPulse =>
    cases hh : s.held
    · exact next_live hg ((State.clocked_running hh _).trans (busPulseEnd_nil (by simpa [hh] using hn)))
    · exact next_live hg (State.clocked_held hh _)
  case high =>
    have hb := busL_updBus s l fun b => { b with ext := false, low := b.low && s.busDriven l }
    refine ⟨by rw [State.busHigh, hb], by rw [State.busHigh, hb], ?_, onlyIn_updBus (by decide) _ _ _⟩
    rw [State.busHigh, State.busIsHigh, hb]
    refine (Bool.true_and _).trans (congrArg (fun b : Bool => !b) ?_)
    have e := congrArg (fun b : Bus => b.drv.any fun p => decide (p.1 ≤ s.time) && decide (s.time < p.2)) hb
    exact e
  case timer =>
    have e := trgTimer_on he rfl rfl
    generalize ha : (s.actv (rTRG_TMR_START n)).toNat + SMap.get 0 s.tmr n * fget (s.actv (rTRG_TMR_CFG n)) fTRG_TMR_CFG_PERIOD = at_ at e ⊢
    have kt : Touches (mTime ||| mTmr) s ((s.reach at_).onTmr fun _ => SMap.set 0 s.tmr n (SMap.get 0 s.tmr n + 1)) :=
      ((touches_State.reach s at_).mono (by decide)).andThen (touches_State.onTmr _ _)
    have hreg : ((s.reach at_).onTmr fun _ => SMap.set 0 s.tmr n (SMap.get 0 s.tmr n + 1)).regs = s.regs := State.reach_regs ..
    have ht : ((s.reach at_).onTmr fun _ => SMap.set 0 s.tmr n (SMap.get 0 s.tmr n + 1)).time = max s.time at_ := State.reach_time_running hh _
    have hm : ((s.reach at_).onTmr fun _ => SMap.set 0 s.tmr n (SMap.get 0 s.tmr n + 1)).tmr = SMap.set 0 s.tmr n (SMap.get 0 s.tmr n + 1) := rfl
    generalize (s.reach at_).onTmr _ = w at *
    obtain ⟨h1, h2, k⟩ := trgIssue_effect w (e := ⟨tick16 at_, 56 + n, 0, false, false, 0⟩) (by simp only; omega) rfl
    have kw : onlyIn (mRegs ||| mTime ||| mTq ||| mTmr) [rTRG_SRC (56 + n)] [] s w := .other (.refl _ _ _ _) kt (e := hreg)
    refine ⟨_, next_live hg ((State.clocked_running hh _).trans e), (k.1.time (by decide)).trans ht, ?_, ?_, fun q hq => ?_,
      kw.andThen k (by decide) (fun _ h => h) (fun _ h => h)⟩
    · rw [k.1.tmr (by decide), hm, SMap.get_set_same]
    · exact h1.trans (by rw [State.fld_congr hreg])
    · rw [h2 q hq, kt.selects (by decide), kt.tqU (by decide)]
      show _ = _ + b2n (selects s q (56 + n))
      cases selects s q (56 + n) <;> simp [b2n]
  case timerOff =>
    cases hh : s.held
    · exact next_live hg ((State.clocked_running hh _).trans (trgTimer_off (by simpa [hh] using hn)))
    · exact next_live hg (State.clocked_held hh _)
  case software =>
    have kd : Touches mStaged s (s.dropStaged .host rTRG_SW) := touches_State.dropStaged _ _ _
    have hreg : (s.dropStaged .host rTRG_SW).regs = s.regs := State.dropStaged_regs ..
    obtain ⟨w, hw⟩ : ∃ w, s.dropStaged .host rTRG_SW = w := ⟨_, rfl⟩
    obtain ⟨h1, h2, k⟩ := swBits_effect v (l := upTo 4) List.nodup_range (fun i h => List.mem_range.mp h) w rfl
    rw [hw] at kd hreg
    refine ⟨_, next_hostWr h (hw ▸ wrTrgSw_eq _ _), fun i hi => ?_, fun q hq => ?_, .andThen (.other (.refl _ _ _ _) kd (e := hreg)) k (by decide) (fun _ h => h) (fun _ h => h)⟩
    · rw [← State.fld_congr hreg]
      exact h1 i (List.mem_range.mpr hi)
    · have hs : ∀ q k, selects w q k = selects s q k := kd.selects (by decide)
      have := h2 q hq
      simp only [hs, kd.tqU (by decide)] at this
      refine this.trans ?_
      have he : swEvent w = fun i => ⟨tick16 s.time, 60 + i, 4, false, false, 0⟩ := funext fun i => by rw [swEvent, kd.time (by decide)]
      rw [he]
      rfl
  case level =>
    have hu := ltU_updLt s i fun l => { l with queue := [] }
    have hact : ∀ a, (s.updLt i fun l => { l with queue := [] }).actv a = s.actv a := (touches_State.updLt _ _ _).actv (by decide)
    have kq : onlyIn (mRegs ||| mFreeCtr ||| mTq ||| mLt ||| mGlb) [rTRG_LT_STAT i, rTRG_SRC (12 + i)] [] s (s.updLt i fun l => { l with queue := [] }) :=
      onlyIn_updLt (by decide) _ _ _
    have hfl : ∀ a f, (s.updLt i fun l => { l with queue := [] }).fld a f = s.fld a f := State.fld_congr (State.updLt_regs _ _ _)
    have hone := fun t => ltCrossing_one (s := s) (i := i) hq (t := t)
    generalize (s.updLt i fun l => { l with queue := [] }) = d at *
    obtain ⟨g, e, hgq, hes, hS⟩ := ltSample_fires (s := d) (i := i) (x := x) (p := p) hok (by rw [hu]; exact hp) (by rw [hu]; exact ha) (by rw [hu]; exact hr)
      (by rw [hu]; exact hf) (by rw [hu]; exact hl) (by rw [hact]; exact hc) (by rw [hact]; exact hw) (by rw [hact, hact]; exact hv)
    have kf : onlyIn (mRegs ||| mFreeCtr ||| mTq ||| mLt ||| mGlb) [rTRG_LT_STAT i, rTRG_SRC (12 + i)] [] d (d.fresh.2.updLt i g) :=
      (onlyIn_fresh (by decide) d).trans (onlyIn_updLt (by decide) _ _ _)
    have hq' : ((d.fresh.2.updLt i g).ltU i).queue = [] := by
      rw [ltU_updLt, hgq, (touches_fresh d).ltU (by decide), hu]
    have hfl' : ∀ a f, (d.fresh.2.updLt i g).fld a f = s.fld a f := fun a f => (State.fld_congr (State.updLt_regs _ _ _) a f).trans (hfl a f)
    generalize d.fresh.2.updLt i g = w at *
    obtain ⟨h1, h2, h3, h4, k⟩ := ltFired_effect w i (timeOf x.t) hes rfl
    rw [hfl'] at h3 h4
    refine ⟨_, next_live hg ((State.clocked_running hh _).trans (hone _ hS)), h2.trans hq', h1, h3, h4,
      .of_hi ((kq.trans kf).andThen k (by decide) (fun _ h => h) (fun _ h => h)) ?_⟩
    intro a ha
    simp only [List.mem_cons, List.not_mem_nil, or_false, rTRG_LT_STAT, rTRG_SRC] at ha
    omega
  case levelIdle =>
    cases hh : s.held
    · exact next_live hg ((State.clocked_running hh _).trans (ltCrossing_empty (by simpa [hh] using hn)))
    · exact next_live hg (State.clocked_held hh _)
  case mask =>
    obtain ⟨e, hes, hfm⟩ := fmFrame_tests hu hf hl he hc rfl
    have kp := onlyIn_popFrame (m := mRegs ||| mFreeCtr ||| mFrames ||| mTq ||| mFm ||| mGlb) (l := [rTRG_FM_STAT u, rTRG_SRC (20 + u)]) (srcs := []) (by decide) s (44 + u)
    have hpf := popFrame_frames s (44 + u)
    have hpr : ∀ a f, (s.popFrame (44 + u)).fld a f = s.fld a f := State.fld_congr rfl
    have hpt : (s.popFrame (44 + u)).tq = s.tq := rfl
    generalize s.popFrame (44 + u) = p at *
    obtain ⟨t1, t2, t3, kt⟩ := fmTested_effect p u (decide (fget (s.actv (rTRG_FM_CFG u)) fTRG_FM_CFG_MIN_BINS ≤ (s.fmViolations u f).1.length)) f.era rfl
    have hts : (fmTested p u (decide (fget (s.actv (rTRG_FM_CFG u)) fTRG_FM_CFG_MIN_BINS ≤ (s.fmViolations u f).1.length)) f.era).fld (rTRG_SRC (20 + u)) fTRG_SRC_EVENTS =
        p.fld (rTRG_SRC (20 + u)) fTRG_SRC_EVENTS :=
      congrArg (fun x => fget x fTRG_SRC_EVENTS) (kt.2 _ (by simp only [List.mem_singleton, rTRG_SRC, rTRG_FM_STAT]; omega) (by simp))
    generalize fmTested p u _ f.era = w at *
    rw [hpr] at t1 hts
    have kw : onlyIn (mRegs ||| mFreeCtr ||| mFrames ||| mTq ||| mFm ||| mGlb) [rTRG_FM_STAT u, rTRG_SRC (20 + u)] [] s w :=
      kp.andThen kt (by decide) (by simp) (by simp)
    have hhi : ∀ a ∈ [rTRG_FM_STAT u, rTRG_SRC (20 + u)], 0x1000 ≤ a := fun a ha => by
      simp only [List.mem_cons, List.not_mem_nil, or_false, rTRG_FM_STAT, rTRG_SRC] at ha
      omega
    by_cases hn : fget (s.actv (rTRG_FM_CFG u)) fTRG_FM_CFG_MIN_BINS ≤ (s.fmViolations u f).1.length
    · rw [if_pos (decide_eq_true hn)] at hfm
      obtain ⟨h1, h2, k⟩ := fmFired_effect w u hes rfl
      rw [t1] at h1
      rw [hts] at h2
      exact ⟨_, next_live hg ((State.clocked_running hh _).trans hfm), ((k.1.frames (by decide)).trans t3).trans hpf, fun _ => ⟨h1, h2⟩, fun h => absurd hn (by omega),
        .of_hi (kw.andThen k (by decide) (fun _ h => h) (fun _ h => h)) hhi⟩
    · rw [if_neg (by simpa using hn)] at hfm
      exact ⟨_, next_live hg ((State.clocked_running hh _).trans hfm), t3.trans hpf, fun h => absurd h hn, fun _ => ⟨t1, t2.trans hpt⟩, .of_hi kw hhi⟩
  case maskIdle =>
    cases hh : s.held
    · exact next_live hg ((State.clocked_running hh _).trans (fmFrame_empty (by simpa [hh] using hn)))
    · exact next_live hg (State.clocked_held hh _)

end Sys2Proof
end

section
/-! SUPPORT. Qualifiers hold, judge and decide (R268 to R273). -/

set_option Elab.async false

namespace Sys2Proof

open Sys2Proof.Machine

/-! ### What a decision changes of its qualifier -/

theorem issueOne_held (e : TrgEv) (s : State) (p q : Nat) : ((issueOne e s p).tqU q).held = (s.tqU q).held := by
  unfold issueOne
  split
  · by_cases h : q = p
    · subst h
      rw [tqU_updTq]
    · rw [tqU_updTq_other _ h]
  · rfl

theorem issueTo_held (e : TrgEv) (l : List Nat) (s : State) (q : Nat) : ((issueTo e l s).tqU q).held = (s.tqU q).held := by
  induction l generalizing s with
  | nil => rfl
  | cons p l ih => exact (ih _).trans (issueOne_held e s p q)

/-- The event of a qualifier's decision is counted in no register. -/
theorem trgIssue_chain (s : State) {e : TrgEv} (he : 64 ≤ e.src) : s.trgIssue e = issueTo e (upTo 16) s := by
  unfold State.trgIssue
  rw [if_neg (by omega)]
  rfl

theorem keepsTq_netSend (s : State) (i : Nat) (o : Out) : keeps 0xe2000 0xe4000 s (s.netSend i o) := by
  unfold State.netSend
  refine .ite (.refl _ _ _) (.ite (.other (.refl _ _ _) (touches_State.updNet _ _ _)) ?_)
  exact .addMod (.other (.refl _ _ _) (touches_State.send _ _)) (by simp only [rNET_SUB_CNT0]; omega)

theorem keepsTq_trigForward (s : State) (q t : Nat) : keeps 0xe2000 0xe4000 s (s.trigForward q t) := by
  have one : ∀ (u : State) a k t, keeps 0xe2000 0xe4000 u (u.aveTrigger a k t) := fun u a k t => by
    unfold State.aveTrigger State.aveTrigPkt State.aveSend State.udpSend
    exact .ite (.addSat (.refl _ _ _) (by decide)) ((keeps.other (.refl _ _ _) (touches_State.updAve _ _ _)).trans (keepsTq_netSend _ _ _))
  unfold State.trigForward
  exact .overList (.refl _ _ _) fun u f _ => .ite (one _ _ _ _) (.refl _ _ _)

/-- What follows a decision once its qualifier shows it: the event, the acquisition units, the bus lines, the avenues and the qualifiers it is
sent to. -/
def tqSent (s : State) (q pl : Nat) (forced : Bool) (ws : List Nat) (e : TrgEv) : State :=
  (((decsTo q ⟨pl, forced, ws⟩ (s.raiseLim 1000 (320 + q))).busDrive q).trigForward q pl).trgIssue e

theorem tqSent_effect (s : State) {q : Nat} (hq : q < 16) (pl : Nat) (forced : Bool) (ws : List Nat) {e : TrgEv} (he : 64 ≤ e.src) {t : State}
    (eq : tqSent s q pl forced ws e = t) : keeps 0xe2000 0xe4000 s t ∧ (∀ p, (t.tqU p).held = (s.tqU p).held) ∧ t.time = s.time := by
  have k1 : Touches mEvent s (s.raiseLim 1000 (320 + q)) := touches_State.raiseLim _ _ _ _ _ _ _
  have r1 : keeps 0xe2000 0xe4000 s (s.raiseLim 1000 (320 + q)) := .raiseLim (.refl _ _ _) (by omega)
  generalize h1 : s.raiseLim 1000 (320 + q) = a at *
  have k2 := touches_decsTo q ⟨pl, forced, ws⟩ a
  have r2 : keeps 0xe2000 0xe4000 a (decsTo q ⟨pl, forced, ws⟩ a) := .other (.refl _ _ _) k2
  generalize h2 : decsTo q ⟨pl, forced, ws⟩ a = b at *
  have k3 := touches_State.busDrive b q
  have r3 : keeps 0xe2000 0xe4000 b (b.busDrive q) := .other (.refl _ _ _) k3
  generalize h3 : b.busDrive q = c at *
  have k4 := touches_State.trigForward c q pl
  have r4 := keepsTq_trigForward c q pl
  generalize h4 : c.trigForward q pl = d at *
  have e5 : t = issueTo e (upTo 16) d := by rw [← eq, tqSent, h1, h2, h3, h4, trgIssue_chain _ he]
  have k5 := touches_issueTo e (upTo 16) d
  have r5 : keeps 0xe2000 0xe4000 d (issueTo e (upTo 16) d) := .other (.refl _ _ _) k5
  subst e5
  refine ⟨(((r1.trans r2).trans r3).trans r4).trans r5, fun p => ?_, ?_⟩
  · rw [issueTo_held, k4.tqU (by decide), k3.tqU (by decide), k2.tqU (by decide), k1.tqU (by decide)]
  · rw [k5.time (by decide), k4.time (by decide), k3.time (by decide), k2.time (by decide), k1.time (by decide)]

/-- What a decision shows in the registers of its qualifier. -/
theorem tqShown_effect (s : State) (q pl : Nat) (forced : Bool) (ws : List Nat) {t : State} (e : tqShown s q pl forced ws = t) :
    t.fld (rTRG_TQ_COUNT q) fTRG_TQ_COUNT_FIRED = (s.fld (rTRG_TQ_COUNT q) fTRG_TQ_COUNT_FIRED + 1) % 2 ^ fTRG_TQ_COUNT_FIRED.w ∧
    t.fld (rTRG_TQ_COUNT q) fTRG_TQ_COUNT_FORCED = (s.fld (rTRG_TQ_COUNT q) fTRG_TQ_COUNT_FORCED + b2n forced) % 2 ^ fTRG_TQ_COUNT_FORCED.w ∧
    t.rd (rTRG_TQ_LAST_TIME q) = BitVec.ofNat 64 (ws.getD 0 0) ∧
    t.fld (rTRG_TQ_SNAP q) fTRG_TQ_SNAP_SEQ = (s.fld (rTRG_TQ_SNAP q) fTRG_TQ_SNAP_SEQ + 1) % 2 ^ 32 ∧
    t.armed q = s.armed q ∧ (t.tqU q).held = (s.tqU q).held ∧ t.time = s.time := by
  subst e
  have hl : ∀ i, rTRG_TQ_LAST_TIME i = 0xe2048 + 0x100 * i := fun _ => rfl
  have hi : ∀ i, rTRG_TQ_LAST_INFO i = 0xe2050 + 0x100 * i := fun _ => rfl
  have hs : ∀ i, rTRG_TQ_SNAP i = 0xe2040 + 0x100 * i := fun _ => rfl
  have hc : ∀ i, rTRG_TQ_COUNT i = 0xe2038 + 0x100 * i := fun _ => rfl
  have hg : ∀ i, rTRG_TQ_CFG i = 0xe2000 + 0x100 * i := fun _ => rfl
  have n1 : rTRG_TQ_COUNT q ≠ rTRG_TQ_SNAP q := by rw [hc, hs]; omega
  have n2 : rTRG_TQ_COUNT q ≠ rTRG_TQ_LAST_INFO q := by rw [hc, hi]; omega
  have n3 : rTRG_TQ_COUNT q ≠ rTRG_TQ_LAST_TIME q := by rw [hc, hl]; omega
  have n4 : rTRG_TQ_SNAP q ≠ rTRG_TQ_COUNT q := n1.symm
  have n5 : rTRG_TQ_SNAP q ≠ rTRG_TQ_LAST_INFO q := by rw [hs, hi]; omega
  have n6 : rTRG_TQ_SNAP q ≠ rTRG_TQ_LAST_TIME q := by rw [hs, hl]; omega
  have n7 : rTRG_TQ_LAST_TIME q ≠ rTRG_TQ_COUNT q := n3.symm
  have n8 : rTRG_TQ_LAST_TIME q ≠ rTRG_TQ_SNAP q := n6.symm
  have n9 : rTRG_TQ_LAST_TIME q ≠ rTRG_TQ_LAST_INFO q := by rw [hl, hi]; omega
  have g1 : rTRG_TQ_CFG q ≠ rTRG_TQ_COUNT q := by rw [hc, hg]; omega
  have g2 : rTRG_TQ_CFG q ≠ rTRG_TQ_SNAP q := by rw [hs, hg]; omega
  have g3 : rTRG_TQ_CFG q ≠ rTRG_TQ_LAST_INFO q := by rw [hi, hg]; omega
  have g4 : rTRG_TQ_CFG q ≠ rTRG_TQ_LAST_TIME q := by rw [hl, hg]; omega
  unfold tqShown
  refine ⟨?_, ?_, ?_, ?_, ?_, ?_, ?_⟩
  · rw [State.fld_congr (State.updTq_regs _ _ _), State.fld_addMod_apart _ _ _ _ _ _ (by decide), State.fld_addMod_self _ _ _ _ (by decide),
      State.fld_addMod_other _ _ _ _ n1, State.fld_wr_other _ _ _ n2, State.fld_wr_other _ _ _ n3]
  · rw [State.fld_congr (State.updTq_regs _ _ _), State.fld_addMod_self _ _ _ _ (by decide), State.fld_addMod_apart _ _ _ _ _ _ (by decide),
      State.fld_addMod_other _ _ _ _ n1, State.fld_wr_other _ _ _ n2, State.fld_wr_other _ _ _ n3]
  · rw [State.rd_congr (State.updTq_regs _ _ _), State.rd_addMod_other _ _ _ n7, State.rd_addMod_other _ _ _ n7, State.rd_addMod_other _ _ _ n8,
      State.rd_wr_other _ _ n9, State.rd_wr_same]
  · rw [State.fld_congr (State.updTq_regs _ _ _), State.fld_addMod_other _ _ _ _ n4, State.fld_addMod_other _ _ _ _ n4, State.fld_addMod_self _ _ _ _ (by decide),
      State.fld_wr_other _ _ _ n5, State.fld_wr_other _ _ _ n6]
  · rw [State.armed, State.flag, State.fld_congr (State.updTq_regs _ _ _), State.fld_addMod_other _ _ _ _ g1, State.fld_addMod_other _ _ _ _ g1, State.fld_addMod_other _ _ _ _ g2,
      State.fld_wr_other _ _ _ g3, State.fld_wr_other _ _ _ g4]
    rfl
  · rw [tqU_updTq]
    simp only
    rw [(touches_State.addMod _ _ _ _).tqU (by decide), (touches_State.addMod _ _ _ _).tqU (by decide), (touches_State.addMod _ _ _ _).tqU (by decide),
      (touches_State.wr _ _ _).tqU (by decide), (touches_State.wr _ _ _).tqU (by decide)]
  · rw [(touches_State.updTq _ _ _).time (by decide), (touches_State.addMod _ _ _ _).time (by decide), (touches_State.addMod _ _ _ _).time (by decide),
      (touches_State.addMod _ _ _ _).time (by decide), (touches_State.wr _ _ _).time (by decide), (touches_State.wr _ _ _).time (by decide)]

theorem tqDisarm_effect (s : State) (q : Nat) {t : State} (e : s.tqDisarm q = t) :
    t.armed q = false ∧ t.tqU q = { s.tqU q with held := [], memo := [], bs := [] } ∧ t.time = s.time ∧
      onlyIn (mRegs ||| mTq ||| mGlb) [rTRG_TQ_CFG q] [] s t := by
  subst e
  have hreg : (s.tqDisarm q).regs = (s.setFld (rTRG_TQ_CFG q) fTRG_TQ_CFG_STATE 0).regs := State.updTq_regs _ _ _
  refine ⟨?_, ?_, (touches_State.tqDisarm _ _).time (by decide), .other (.setFld (.refl _ _ _ _)) (touches_State.updTq _ _ _) (e := State.updTq_regs _ _ _)⟩
  · rw [State.armed, State.flag, State.fld_congr hreg, State.fld_setFld_self _ _ _ _ (by decide)]
    rfl
  · rw [State.tqDisarm, tqU_updTq, (touches_State.setFld _ _ _ _).tqU (by decide)]

/-- What a decision leaves of its qualifier: it is counted and shown, and SINGLE (MODE 2) disarms. -/
theorem tqDecide_effect (s : State) {q : Nat} (hq : q < 16) (mode pl : Nat) (e : TrgEv) (forced free : Bool) {t : State}
    (eq : s.tqDecide q mode pl e forced free = t) :
    t.fld (rTRG_TQ_COUNT q) fTRG_TQ_COUNT_FIRED = (s.fld (rTRG_TQ_COUNT q) fTRG_TQ_COUNT_FIRED + 1) % 2 ^ fTRG_TQ_COUNT_FIRED.w ∧
    t.fld (rTRG_TQ_COUNT q) fTRG_TQ_COUNT_FORCED = (s.fld (rTRG_TQ_COUNT q) fTRG_TQ_COUNT_FORCED + b2n forced) % 2 ^ fTRG_TQ_COUNT_FORCED.w ∧
    t.rd (rTRG_TQ_LAST_TIME q) = BitVec.ofNat 64 (timeOf pl) ∧
    t.fld (rTRG_TQ_SNAP q) fTRG_TQ_SNAP_SEQ = (s.fld (rTRG_TQ_SNAP q) fTRG_TQ_SNAP_SEQ + 1) % 2 ^ 32 ∧
    t.armed q = (decide (mode ≠ 2) && s.armed q) ∧ (mode ≠ 2 → (t.tqU q).held = (s.tqU q).held) ∧ t.time = s.time := by
  rw [tqDecide_eq] at eq
  dsimp only at eq
  have hw : (logWords q pl e forced free (s.tqU q).loss s.time).getD 0 0 = timeOf pl := rfl
  generalize logWords q pl e forced free (s.tqU q).loss s.time = ws at eq hw
  obtain ⟨h1, h2, h3, h4, h5, h6, h7⟩ := tqShown_effect s q pl forced ws rfl
  rw [hw] at h3
  obtain ⟨k, g1, g2⟩ := tqSent_effect (tqShown s q pl forced ws) hq pl forced ws (e := ⟨pl, 64 + q, e.prec, (s.tqU q).loss, false, 0⟩)
    (Nat.le_add_right 64 q) rfl
  rw [← tqSent] at eq
  generalize tqShown s q pl forced ws = a at *
  generalize tqSent a q pl forced ws ⟨pl, 64 + q, e.prec, (s.tqU q).loss, false, 0⟩ = b at *
  have r1 : ∀ f, b.fld (rTRG_TQ_COUNT q) f = a.fld (rTRG_TQ_COUNT q) f := fun f => k.fld _ f (by simp only [rTRG_TQ_COUNT]; omega)
  have r2 : b.rd (rTRG_TQ_LAST_TIME q) = a.rd (rTRG_TQ_LAST_TIME q) := k _ (by simp only [rTRG_TQ_LAST_TIME]; omega) (by simp only [rTRG_TQ_LAST_TIME]; omega)
  have r3 : ∀ f, b.fld (rTRG_TQ_SNAP q) f = a.fld (rTRG_TQ_SNAP q) f := fun f => k.fld _ f (by simp only [rTRG_TQ_SNAP]; omega)
  have r4 : b.armed q = a.armed q := k.flag _ _ (by simp only [rTRG_TQ_CFG]; omega)
  by_cases hm : mode = 2
  · rw [if_pos hm] at eq
    obtain ⟨d1, -, d3, d4⟩ := tqDisarm_effect b q eq
    have hd : ∀ x, x ≠ rTRG_TQ_CFG q → t.rd x = b.rd x := fun x hx => d4.2 x (by simpa using hx) (by simp)
    refine ⟨?_, ?_, ?_, ?_, ?_, fun h => absurd hm h, by rw [d3, g2, h7]⟩
    · rw [State.fld, hd _ (by simp only [rTRG_TQ_COUNT, rTRG_TQ_CFG]; omega), ← State.fld, r1, h1]
    · rw [State.fld, hd _ (by simp only [rTRG_TQ_COUNT, rTRG_TQ_CFG]; omega), ← State.fld, r1, h2]
    · rw [hd _ (by simp only [rTRG_TQ_LAST_TIME, rTRG_TQ_CFG]; omega), r2, h3]
    · rw [State.fld, hd _ (by simp only [rTRG_TQ_SNAP, rTRG_TQ_CFG]; omega), ← State.fld, r3, h4]
    · rw [d1, hm]
      rfl
  · rw [if_neg hm] at eq
    subst eq
    refine ⟨by rw [r1, h1], by rw [r1, h2], by rw [r2, h3], by rw [r3, h4], ?_, fun _ => (g1 q).trans h6, by rw [g2, h7]⟩
    rw [r4, h5]
    simp [hm]

/-! ### Arrivals (R268) -/

theorem tqArrive_empty {s : State} {q : Nat} (h : (s.tqU q).inbox = []) : s.tqArrive q = s := by
  unfold State.tqArrive
  simp only [h]

theorem tqArrive_ignored {s : State} {q : Nat} {e : TrgEv} {rest : List TrgEv} (h : (s.tqU q).inbox = e :: rest) (hi : s.armed q = false ∨ s.tqMode q = 3) :
    s.tqArrive q = s.updTq q fun x => { x with inbox := rest } := by
  unfold State.tqArrive
  simp only [h]
  refine if_pos ?_
  rcases hi with h | h <;> simp [h]

/-- The event taken from the inbox, with the loss it tells of. -/
def tqTaken (s : State) (q : Nat) (e : TrgEv) (rest : List TrgEv) : State :=
  if e.loss then (s.updTq q fun x => { x with inbox := rest }).updTq q fun x => { x with loss := true } else s.updTq q fun x => { x with inbox := rest }

theorem tqTaken_tqU (s : State) (q : Nat) (e : TrgEv) (rest : List TrgEv) :
    (tqTaken s q e rest).tqU q = { s.tqU q with inbox := rest, loss := (s.tqU q).loss || e.loss } := by
  unfold tqTaken
  cases e.loss
  · rw [if_neg (by decide), tqU_updTq, Bool.or_false]
  · rw [if_pos rfl, tqU_updTq, tqU_updTq, Bool.or_true]

theorem touches_tqTaken (s : State) (q : Nat) (e : TrgEv) (rest : List TrgEv) : Touches mTq s (tqTaken s q e rest) := by
  unfold tqTaken
  split
  · exact (touches_State.updTq _ _ _).andThen (touches_State.updTq _ _ _)
  · exact touches_State.updTq _ _ _

/-- An event at an armed qualifier, before its horizon: it is held where there is room, and dropped where there is none. -/
theorem tqArrive_taken {s : State} {q : Nat} {e : TrgEv} {rest : List TrgEv} (h : (s.tqU q).inbox = e :: rest) (ha : s.armed q = true) (hm : s.tqMode q ≠ 3)
    (ht : s.now16 ≤ e.t + tick16 (s.effLag q)) : s.tqArrive q =
      if 64 ≤ (s.tqU q).held.length + (s.tqU q).memo.length then
        (((tqTaken s q e rest).addSat (rTRG_TQ_STAT q) fTRG_TQ_STAT_Q_DROP 1).updTq q fun x => { x with loss := true }).raise 337
      else (tqTaken s q e rest).updTq q fun x => { x with held := evInsert e x.held } := by
  have hu := tqTaken_tqU s q e rest
  unfold State.tqArrive
  simp only [h, ha, hm, Bool.not_true, Bool.false_or, decide_false, Bool.false_eq_true, if_false, if_neg (Nat.not_lt.mpr ht)]
  rw [← tqTaken, hu]

/-! ### Horizons (R268, R269) -/

theorem tqValues_now {s : State} {q : Nat} (h : (s.tqU q).old = []) (t : Nat) : s.tqValues q t = (s.tqNow q, 0, none) := by
  unfold State.tqValues
  simp only [h]
  rfl

theorem tqHorizon_disarmed {s : State} {q : Nat} (h : s.armed q = false) : s.tqHorizon q = s := by
  unfold State.tqHorizon
  exact if_pos (by rw [h]; rfl)

theorem tqHorizon_empty {s : State} {q : Nat} (hh : (s.tqU q).held = []) (hm : (s.tqU q).memo = []) : s.tqHorizon q = s := by
  have hw : s.tqWaits q = none := by
    unfold State.tqWaits
    rw [hm]
    rfl
  unfold State.tqHorizon
  simp only [hh, hw, List.head?_nil, ite_self]

/-- A qualifier that is not SEQ_NOT waits for no window. -/
theorem tqWaits_none {s : State} {q : Nat} (ho : (s.tqU q).old = []) (hf : fget (cfgW (s.tqNow q)) fTRG_TQ_CFG_FUNC = 0) : s.tqWaits q = none := by
  unfold State.tqWaits
  rw [List.findSome?_eq_none_iff]
  intro e _
  simp only [tqValues_now ho, hf]
  rfl

/-- The state in which a qualifier judges its first held event: device time has reached its horizon. -/
def tqReached (s : State) (q : Nat) (e : TrgEv) : State := (s.reach (timeOf e.t + s.effLag q)).updTq q fun y => { y with held := y.held.drop 1 }

theorem tqHorizon_judges {s : State} {q : Nat} {e : TrgEv} {rest : List TrgEv} (ha : s.armed q = true) (hh : (s.tqU q).held = e :: rest) (hw : s.tqWaits q = none) :
    s.tqHorizon q = (tqReached s q e).tqJudge q e := by
  unfold State.tqHorizon
  simp only [ha, hh, hw, List.head?_cons, Bool.not_true, Bool.false_eq_true, if_false, tqReached]

/-- A qualifier that decides on each A (FUNC 0, no count, nothing to hold it off) decides. -/
theorem tqJudge_fires {s : State} {q : Nat} {e : TrgEv} (ho : (s.tqU q).old = []) (hf : fget (cfgW (s.tqNow q)) fTRG_TQ_CFG_FUNC = 0)
    (hc : fget (cfgW (s.tqNow q)) fTRG_TQ_CFG_COUNT_N ≤ 1) (hA : inSetA (s.tqNow q) e.src = true) (hp : (s.tqU q).prev = none) :
    s.tqJudge q e = (s.updTq q fun x => { x with count := 0 }).tqDecide q (s.tqMode q) e.t e false false := by
  have e1 : s.tqJudge q e = s.tqQualify q (s.tqNow q) e.t e := by
    unfold State.tqJudge
    simp only [tqValues_now ho, hf, hA, if_true]
  rw [e1]
  unfold State.tqQualify
  simp only [hp, Bool.false_eq_true, if_false, if_neg (show ¬ (s.tqU q).count + 1 < fget (cfgW (s.tqNow q)) fTRG_TQ_CFG_COUNT_N by omega)]
  rfl

/-! ### AUTO and FREE_RUN (R271) -/

/-- The placement of the decision that AUTO forces. -/
def autoAt (s : State) (q : Nat) : Nat := (s.tqU q).base + tick16 (fget (autoW (s.tqNow q)) fTRG_TQ_AUTO_TIMEOUT)

theorem tqAuto_forces {s : State} {q : Nat} (ha : s.armed q = true) (hm : s.tqMode q = 1) (h : ∀ e ∈ (s.tqU q).held, autoAt s q < e.t) :
    ∃ n e, s.tqAuto q = (s.fresh.2.reach n).tqDecide q 1 (autoAt s q) e true false := by
  have hd : ((s.tqU q).held.any fun e => decide (e.t ≤ autoAt s q)) = false := by
    rw [List.any_eq_false]
    exact fun e he => by simpa using h e he
  unfold State.tqAuto
  simp only [ha, hm, beq_self_eq_true, decide_true, Bool.and_self, if_true]
  rw [← autoAt, hd, if_neg (by decide)]
  exact ⟨_, _, rfl⟩

theorem tqAuto_idle {s : State} {q : Nat} (h : s.armed q = false ∨ s.tqMode q ≠ 1) : s.tqAuto q = s := by
  unfold State.tqAuto
  refine if_neg ?_
  rcases h with h | h <;> simp [h]

theorem tqFree_decides {s : State} {q : Nat} (ha : s.armed q = true) (hm : s.tqMode q = 3) :
    ∃ n t e, s.tqFree q = ((s.fresh.2.reach n).tqDecide q 3 t e false true).updTq q fun y => { y with k := (s.tqU q).k + 1, base := (s.tqU q).base } := by
  unfold State.tqFree
  rw [if_pos (by simp [ha, hm])]
  exact ⟨_, _, _, rfl⟩

theorem tqFree_idle {s : State} {q : Nat} (h : s.armed q = false ∨ s.tqMode q ≠ 3) : s.tqFree q = s := by
  unfold State.tqFree
  refine if_neg ?_
  rcases h with h | h <;> simp [h]

/-! ### Arming (R271) -/

theorem timeoutOk_even {m : Nat} (h : m % 2 = 0) (t : Nat) : timeoutOk m t = true := by
  have h1 : (m == 1) = false := by simpa using (show m ≠ 1 by omega)
  have h3 : (m == 3) = false := by simpa using (show m ≠ 3 by omega)
  rw [timeoutOk, h1, h3]
  rfl

/-- TRG_TQ_CFG[q] written, ARM and DISARM not yet acted on. -/
def tqFields (q : Nat) (v : Word) (s : State) : State := s.wrCodes (rTRG_TQ_CFG q) v [fTRG_TQ_CFG_ARM, fTRG_TQ_CFG_DISARM]

theorem tqState_field (q : Fin 16) : roField (rTRG_TQ_CFG q) fTRG_TQ_CFG_STATE = true := by
  revert q
  decide +kernel

theorem tqFields_armed (q : Fin 16) (v : Word) (s : State) : (tqFields q v s).armed q = s.armed q := by
  rw [State.armed, State.flag, tqFields, State.fld_wrCodes_ro _ (tqState_field q) _ [fTRG_TQ_CFG_ARM, fTRG_TQ_CFG_DISARM]]
  rfl

theorem wrTqCfg_legal {q : Nat} {v : Word} {s : State} (hn : fget v fTRG_TQ_CFG_COUNT_N ≠ 0) (hm : fget v fTRG_TQ_CFG_MODE % 2 = 0) :
    State.wrTqCfg q v s = if fget v fTRG_TQ_CFG_ARM = 1 then (tqFields q v s).tqArm q
      else if fget v fTRG_TQ_CFG_DISARM = 1 then (tqFields q v s).tqDisarm q else tqFields q v s := by
  unfold State.wrTqCfg
  refine if_neg ?_
  simp [hn, timeoutOk_even hm]

/-- Settles O34, a clause per command and outcome. -/
theorem qualifiers : Obligations.Qualifiers := by
  refine ⟨fun q s hg hn => ?none, fun q e rest s hg hh hb hi => next_live hg ((State.clocked_running hh _).trans (tqArrive_ignored hb hi)),
    fun q e rest s hg hh hb ha hm ht hr => ?held, fun q e rest s hg hh hb ha hm ht hr => ?dropped, fun q s hg hn => ?noHorizon,
    fun q e rest s hg hh ha ho hb hf hc hA hp => ?fires, fun q s hg hh ha hm hb => ?auto, fun q s hg hn => ?noAuto,
    fun q s hg hh ha hm => ?free, fun q s hg hn => ?noFree, fun q v s h hn hm => ?arm, fun q v s h hn hm h0 => ?disarm, fun q v s h => ?snap⟩
  case none =>
    cases hh : s.held
    · exact next_live hg ((State.clocked_running hh _).trans (tqArrive_empty (by simpa [hh] using hn)))
    · exact next_live hg (State.clocked_held hh _)
  case held =>
    have e1 := tqArrive_taken hb ha hm ht
    rw [if_neg (by omega)] at e1
    refine ⟨_, next_live hg ((State.clocked_running hh _).trans e1), ?_, (touches_tqTaken _ _ _ _).andThen (touches_State.updTq _ _ _)⟩
    rw [tqU_updTq, tqTaken_tqU]
  case dropped =>
    have e1 := tqArrive_taken hb ha hm ht
    rw [if_pos hr] at e1
    have hr : rTRG_TQ_STAT q < 0x10000 ∨ 0x12000 + 8 * 337 < rTRG_TQ_STAT q := by simp only [rTRG_TQ_STAT]; omega
    have k : Touches mTq s (tqTaken s q e rest) := touches_tqTaken _ _ _ _
    have hu := tqTaken_tqU s q e rest
    generalize tqTaken s q e rest = w at *
    refine ⟨_, next_live hg ((State.clocked_running hh _).trans e1), ?_, ?_,
      .of_hi (.raise (.other (.addSat (.other (.refl _ _ _ _) k (e := k.regs (by decide)))) (touches_State.updTq _ _ _) (e := State.updTq_regs _ _ _)))
        (by simp only [List.mem_singleton, rTRG_TQ_STAT]; omega)⟩
    · rw [(touches_State.raise _ _ _ _ _).tqU (by decide), tqU_updTq, (touches_State.addSat _ _ _ _).tqU (by decide), hu]
    · rw [State.fld_raise_other _ _ _ _ _ _ _ hr, State.fld_congr (State.updTq_regs _ _ _), State.fld_addSat_self _ _ _ _ (by decide), State.fld_congr (k.regs (by decide))]
  case noHorizon =>
    cases hh : s.held
    · rw [hh] at hn
      refine next_live hg ((State.clocked_running hh _).trans ?_)
      rcases hn with h | h | ⟨h1, h2⟩
      · exact absurd h (by decide)
      · exact tqHorizon_disarmed h
      · exact tqHorizon_empty h1 h2
    · exact next_live hg (State.clocked_held hh _)
  case fires =>
    have e1 := tqHorizon_judges ha hb (tqWaits_none ho hf)
    have kr : Touches (mTime ||| mTq) s (tqReached s q e) := ((touches_State.reach _ _).mono (by decide)).andThen (touches_State.updTq _ _ _)
    have hreg : (tqReached s q e).regs = s.regs := (State.updTq_regs _ _ _).trans (State.reach_regs ..)
    have hu : (tqReached s q e).tqU q = { s.tqU q with held := rest } := by
      rw [tqReached, tqU_updTq, (touches_State.reach _ _).tqU (by decide), hb]
      rfl
    have ht : (tqReached s q e).time = max s.time (timeOf e.t + s.effLag q) := State.reach_time_running hh _
    generalize tqReached s q e = w at *
    have hnow : w.tqNow q = s.tqNow q := kr.tqNow (by decide) q
    have hmode : w.tqMode q = s.tqMode q := by rw [State.tqMode, hnow, ← State.tqMode]
    rw [tqJudge_fires (by rw [hu]; exact ho) (by rw [hnow]; exact hf) (by rw [hnow]; exact hc) (by rw [hnow]; exact hA) (by rw [hu]; exact hp), hmode] at e1
    have hreg2 : (w.updTq q fun x => { x with count := 0 }).regs = s.regs := (State.updTq_regs _ _ _).trans hreg
    have hu2 : ((w.updTq q fun x => { x with count := 0 }).tqU q).held = rest := by rw [tqU_updTq, hu]
    have ht2 : (w.updTq q fun x => { x with count := 0 }).time = w.time := (touches_State.updTq _ _ _).time (by decide)
    generalize (w.updTq q fun x => { x with count := 0 }) = a at *
    obtain ⟨h1, -, h3, h4, h5, h6, h7⟩ := tqDecide_effect a q.isLt (s.tqMode q) e.t e false false rfl
    rw [State.fld_congr hreg2] at h1 h4
    refine ⟨_, next_live hg ((State.clocked_running hh _).trans e1), h1, h3, h4, fun h => (h6 h).trans hu2, ?_, by rw [h7, ht2, ht]⟩
    rw [h5, State.armed, State.flag, State.fld_congr hreg2, ← State.flag, ← State.armed, ha, Bool.and_true]
  case auto =>
    obtain ⟨n, e, e1⟩ := tqAuto_forces ha hm hb
    have hreg : (s.fresh.2.reach n).regs = s.regs := (State.reach_regs ..).trans ((touches_fresh s).regs (by decide))
    generalize s.fresh.2.reach n = w at *
    obtain ⟨h1, h2, h3, -, -, -, -⟩ := tqDecide_effect w q.isLt 1 (autoAt s q) e true false rfl
    rw [State.fld_congr hreg] at h1 h2
    exact ⟨_, next_live hg ((State.clocked_running hh _).trans e1), h1, h2, h3⟩
  case noAuto =>
    cases hh : s.held
    · exact next_live hg ((State.clocked_running hh _).trans (tqAuto_idle (by simpa [hh] using hn)))
    · exact next_live hg (State.clocked_held hh _)
  case free =>
    obtain ⟨n, t, e, e1⟩ := tqFree_decides ha hm
    have hreg : (s.fresh.2.reach n).regs = s.regs := (State.reach_regs ..).trans ((touches_fresh s).regs (by decide))
    generalize s.fresh.2.reach n = w at *
    obtain ⟨h1, h2, -, -, -, -, -⟩ := tqDecide_effect w q.isLt 3 t e false true rfl
    rw [State.fld_congr hreg] at h1 h2
    generalize w.tqDecide q 3 t e false true = d at *
    refine ⟨_, next_live hg ((State.clocked_running hh _).trans e1), by rw [tqU_updTq], by rw [tqU_updTq], (State.fld_congr (State.updTq_regs _ _ _) _ _).trans h1,
      (State.fld_congr (State.updTq_regs _ _ _) _ _).trans (h2.trans ?_)⟩
    exact Nat.mod_eq_of_lt (s.fld_lt _ _)
  case noFree =>
    cases hh : s.held
    · exact next_live hg ((State.clocked_running hh _).trans (tqFree_idle (by simpa [hh] using hn)))
    · exact next_live hg (State.clocked_held hh _)
  case arm =>
    have hv := wrTqCfg_legal (q := q) (v := fset v fTRG_TQ_CFG_ARM 1) (s := s.dropStaged .host (rTRG_TQ_CFG q))
      (by rw [fget_fset_apart _ _ _ _ (by decide)]; exact hn) (by rw [fget_fset_apart _ _ _ _ (by decide)]; exact hm)
    rw [if_pos (show fget (fset v fTRG_TQ_CFG_ARM 1) fTRG_TQ_CFG_ARM = 1 from fget_fset_self _ _ _ (by decide))] at hv
    have ka : (tqFields q (fset v fTRG_TQ_CFG_ARM 1) (s.dropStaged .host (rTRG_TQ_CFG q))).armed q = s.armed q :=
      (tqFields_armed q _ _).trans (congrArg (· != 0) (State.fld_congr (State.dropStaged_regs ..) _ _))
    have kd : onlyIn (mRegs ||| mStaged ||| mTq ||| mGlb) [rTRG_TQ_CFG q] [] s (tqFields q (fset v fTRG_TQ_CFG_ARM 1) (s.dropStaged .host (rTRG_TQ_CFG q))) :=
      .wrCodes (.dropStaged (.refl _ _ _ _))
    have hu : (tqFields q (fset v fTRG_TQ_CFG_ARM 1) (s.dropStaged .host (rTRG_TQ_CFG q))).tqU q = s.tqU q :=
      ((touches_State.wrCodes _ _ _ _).tqU (by decide) _).trans ((touches_State.dropStaged _ _ _).tqU (by decide) _)
    have hhi : ∀ a ∈ [rTRG_TQ_CFG q], 0x1000 ≤ a := by simp only [List.mem_singleton, rTRG_TQ_CFG]; omega
    generalize tqFields q (fset v fTRG_TQ_CFG_ARM 1) (s.dropStaged .host (rTRG_TQ_CFG q)) = w at *
    have hnow : w.tqNow q = s.tqNow q := kd.1.tqNow (by decide) q
    cases ha : s.armed q
    · have e1 : w.tqArm q = (w.setFld (rTRG_TQ_CFG q) fTRG_TQ_CFG_STATE 1).updTq q fun x => { x with base := tick16 w.time, k := 0 } := by
        unfold State.tqArm
        exact if_neg (by rw [ka, ha]; decide)
      refine ⟨_, next_hostWr h (hv.trans e1), ?_, fun _ => ?_, nofun, ?_,
        .of_hi (.other (.setFld kd) (touches_State.updTq _ _ _) (e := State.updTq_regs _ _ _)) hhi⟩
      · rw [State.armed, State.flag, State.fld_congr (State.updTq_regs _ _ _), State.fld_setFld_self _ _ _ _ (by decide)]
        rfl
      · rw [tqU_updTq, (touches_State.setFld _ _ _ _).tqU (by decide), hu, kd.1.time (by decide)]
      · rw [(touches_State.updTq _ _ _).tqNow (by decide), (touches_State.setFld _ _ _ _).tqNow (by decide), hnow]
    · have e1 : w.tqArm q = w := by
        unfold State.tqArm
        exact if_pos (by rw [ka, ha])
      exact ⟨_, next_hostWr h (hv.trans e1), ka.trans ha, nofun, fun _ => hu, hnow, .of_hi kd hhi⟩
  case disarm =>
    have hv := wrTqCfg_legal (q := q) (v := fset v fTRG_TQ_CFG_DISARM 1) (s := s.dropStaged .host (rTRG_TQ_CFG q))
      (by rw [fget_fset_apart _ _ _ _ (by decide)]; exact hn) (by rw [fget_fset_apart _ _ _ _ (by decide)]; exact hm)
    rw [if_neg (by rw [fget_fset_apart _ _ _ _ (by decide), h0]; decide),
      if_pos (show fget (fset v fTRG_TQ_CFG_DISARM 1) fTRG_TQ_CFG_DISARM = 1 from fget_fset_self _ _ _ (by decide))] at hv
    have kd : onlyIn (mRegs ||| mStaged ||| mTq ||| mGlb) [rTRG_TQ_CFG q] [] s (tqFields q (fset v fTRG_TQ_CFG_DISARM 1) (s.dropStaged .host (rTRG_TQ_CFG q))) :=
      .wrCodes (.dropStaged (.refl _ _ _ _))
    have hu : (tqFields q (fset v fTRG_TQ_CFG_DISARM 1) (s.dropStaged .host (rTRG_TQ_CFG q))).tqU q = s.tqU q :=
      ((touches_State.wrCodes _ _ _ _).tqU (by decide) _).trans ((touches_State.dropStaged _ _ _).tqU (by decide) _)
    generalize tqFields q (fset v fTRG_TQ_CFG_DISARM 1) (s.dropStaged .host (rTRG_TQ_CFG q)) = w at *
    obtain ⟨h1, h2, -, k⟩ := tqDisarm_effect w q rfl
    exact ⟨_, next_hostWr h hv, h1, h2.trans (by rw [hu]),
      .of_hi (kd.andThen k (by decide) (fun _ h => h) (fun _ h => h)) (by simp only [List.mem_singleton, rTRG_TQ_CFG]; omega)⟩
  case snap => exact next_hostWr h (if_pos (fget_fset_self _ _ _ (by decide)))

end Sys2Proof
end

section
/-! SUPPORT. Acquisition runs: arming, decisions, records and holdoff (R280 to R289). -/

set_option Elab.async false

namespace Sys2Proof

open Sys2Proof.Machine

theorem auU_updAu (s : State) (n : Nat) (f : Au → Au) : (s.updAu n f).auU n = f (s.auU n) := by
  rw [State.auU, State.updAu_au, SMap.get_upd_same]
  rfl

/-- An acquisition unit is one of `au`. -/
theorem Touches.auU {m : Nat} {s t : State} (k : Touches m s t) (h : m.testBit 40 = false := by decide) (n : Nat) : t.auU n = s.auU n :=
  congrArg (fun x => SMap.get au0 x n) (k.au h)

theorem onlyIn_updAu {m : Nat} {l srcs : List Nat} (hm : mAu &&& m = mAu) (s : State) (n : Nat) (f : Au → Au) : onlyIn m l srcs s (s.updAu n f) :=
  .other (.refl _ _ _ _) (touches_State.updAu s n f) hm (e := State.updAu_regs _ _ _)

theorem auState_setAuState (s : State) (n : Nat) {st : Nat} (h : st < 8) : (s.setAuState n st).auState n = st := by
  rw [State.setAuState, State.auState, State.fld_setFld_self _ _ _ _ (by decide)]
  exact Nat.mod_eq_of_lt h

/-! ### Writes of ACQ_CMD (R287, R288) -/

theorem wrAcqCmd_arm {n : Nat} {v : Word} {s : State} (ha : fget v fACQ_CMD_ARM = 1) (hs : fget v fACQ_CMD_STOP = 0) : State.wrAcqCmd n v s = s.auArm n := by
  unfold State.wrAcqCmd
  simp only [ha, hs, Nat.zero_ne_one, if_false, if_true]

theorem wrAcqCmd_stop {n : Nat} {v : Word} {s : State} (ha : fget v fACQ_CMD_ARM = 0) (hs : fget v fACQ_CMD_STOP = 1) : State.wrAcqCmd n v s = s.auStop n := by
  unfold State.wrAcqCmd
  simp only [ha, hs, Nat.zero_ne_one, if_false, if_true]

/-- An emptied ring begins anew; the counts of the unit stay. -/
theorem ringEmpty_auU (s : State) (n : Nat) :
    ((s.ringEmpty n).auU n).ring = [] ∧ ((s.ringEmpty n).auU n).n = 0 ∧ ((s.ringEmpty n).auU n).records = (s.auU n).records := by
  have e : ∃ g : Au → Au, (∀ a, (g a).ring = [] ∧ (g a).n = 0 ∧ (g a).records = a.records) ∧
      s.ringEmpty n = ((s.auU n).slots.filter (·.linked)).foldl (fun t x => t.ringLeave x.billet) (s.updAu n g) := by
    unfold State.ringEmpty
    refine ⟨_, ?_, rfl⟩
    exact fun a => ⟨rfl, rfl, rfl⟩
  obtain ⟨g, hg, e⟩ := e
  have k : Touches (mRegs ||| mCtxs ||| mBillets) (s.updAu n g) (s.ringEmpty n) := by
    rw [e]
    exact .overList (.refl _ _) fun t x => touches_State.ringLeave _ _
  rw [k.auU (by decide), auU_updAu]
  exact hg _

theorem auArm_begins {s : State} {n : Nat} (h : s.auState n = 0 ∨ s.auState n = 5) {t : State} (e : s.auArm n = t) :
    t.auState n = 1 ∧ t.fld (rACQ_CMD n) fACQ_CMD_SEG = 0 ∧ (t.auU n).ring = [] ∧ (t.auU n).n = 0 ∧
      (t.auU n).armAt = tick16 s.time ∧ (t.auU n).records = (s.auU n).records := by
  have hc : (decide (s.auState n = 0) || decide (s.auState n = 5)) = true := by
    rcases h with h | h <;> simp [h]
  have e1 : ∃ g : Au → Au, (∀ a, (g a).ring = a.ring ∧ (g a).n = a.n ∧ (g a).armAt = tick16 s.time ∧ (g a).records = a.records) ∧
      s.auArm n = ((s.ringEmpty n).updAu n g).setFlds (rACQ_CMD n) [(fACQ_CMD_SEG, 0), (fACQ_CMD_STATE, 1)] := by
    unfold State.auArm
    simp only [hc, if_true]
    refine ⟨_, ?_, rfl⟩
    exact fun a => ⟨rfl, rfl, rfl, rfl⟩
  obtain ⟨g, hg, e1⟩ := e1
  obtain ⟨h1, h2, h3⟩ := ringEmpty_auU s n
  have hu : ((s.ringEmpty n).updAu n g).auU n = g ((s.ringEmpty n).auU n) := auU_updAu _ _ _
  generalize (s.ringEmpty n).auU n = a at h1 h2 h3 hu
  obtain ⟨g1, g2, g3, g4⟩ := hg a
  rw [e1] at e
  subst e
  have ht := (touches_State.setFlds ((s.ringEmpty n).updAu n g) (rACQ_CMD n) [(fACQ_CMD_SEG, 0), (fACQ_CMD_STATE, 1)]).auU (by decide) n
  rw [hu] at ht
  rw [ht]
  refine ⟨?_, ?_, g1.trans h1, g2.trans h2, g3, g4.trans h3⟩
  · rw [State.auState]
    simp (disch := decide)
  · simp (disch := decide)

theorem auArm_else {s : State} {n : Nat} (h0 : s.auState n ≠ 0) (h5 : s.auState n ≠ 5) : s.auArm n = s := by
  unfold State.auArm
  simp [h0, h5]

/-! ### A record closes (R281) -/

/-- A closed record leaves its unit: it is sent, SEG counts it, HOLDOFF runs and the counters are captured. -/
def auLeft (s : State) (n : Nat) (p : Prod) : State :=
  (((s.auEmit n none p).addMod (rACQ_CMD n) fACQ_CMD_SEG 1).setAuState n 4).acqSnap n

theorem auClose_left {s : State} {n : Nat} {r : AuRec} (h : (s.auU n).rec_ = some r) (e : Nat) (trunc gap : Bool) (lost : Nat) :
    ∃ (g : Au → Au) (f : SMap Nat → SMap Nat) (p : Prod),
      (∀ a, (g a).rec_ = none ∧ (g a).records = a.records + 1 ∧ (g a).trunc = satN 32 (a.trunc + b2n trunc) ∧
        (g a).refill = (a.refill || s.fld (rACQ_CFG n) fACQ_CFG_RED == 0)) ∧
      s.auClose n e trunc gap lost 0 =
        auLeft (if s.afld (rACQ_CTRL n) fACQ_CTRL_RMU_EN = 1 then
            (if s.fld (rACQ_CFG n) fACQ_CFG_RED = 0 then (s.fresh.2.updAu n g).onAside f else s.fresh.2.updAu n g).addMod (rRMU_CFG n) fRMU_CFG_RECORDS 1
          else if s.fld (rACQ_CFG n) fACQ_CFG_RED = 0 then (s.fresh.2.updAu n g).onAside f else s.fresh.2.updAu n g) n p := by
  unfold State.auClose auLeft
  simp only [h, if_true, decide_eq_true_eq]
  refine ⟨_, _, _, ?_, rfl⟩
  exact fun a => ⟨rfl, rfl, rfl, rfl⟩

theorem onlyIn_auEmit (s : State) (n : Nat) (x : Option Nat) (r : Prod) : onlyIn (mEvent ||| mCtxs ||| mPorts) dropRegs [13] s (s.auEmit n x r) := by
  unfold State.auEmit
  exact .overList (.refl _ _ _ _) fun t rt _ => .overList (.refl _ _ _ _) fun u d hd => onlyIn_sendPort u rt (List.mem_filter.mp hd).2 _

theorem keepsAcq_auEmit (s : State) (n : Nat) (x : Option Nat) (r : Prod) : keeps 0xf0000 0xf8000 s (s.auEmit n x r) :=
  (onlyIn_auEmit s n x r).keeps (fun a ha => by have := dropRegs_range ha; omega) (by decide)

/-- What a record that leaves changes of its unit's registers. -/
theorem auLeft_effect (s : State) {n : Nat} (hn : n < 8) (p : Prod) {t : State} (e : auLeft s n p = t) :
    t.auState n = 4 ∧ t.auU n = s.auU n ∧ t.fld (rACQ_CMD n) fACQ_CMD_SEG = (s.fld (rACQ_CMD n) fACQ_CMD_SEG + 1) % 2 ^ 16 := by
  have ku := touches_State.auEmit s n none p
  have kr : ∀ f, (s.auEmit n none p).fld (rACQ_CMD n) f = s.fld (rACQ_CMD n) f := fun f =>
    (keepsAcq_auEmit s n none p).fld _ f (by simp only [rACQ_CMD]; omega)
  unfold auLeft at e
  generalize s.auEmit n none p = w at *
  have hx : w.auU n = s.auU n := ku.auU (by decide) n
  have n1 : rACQ_CMD n ≠ rACQ_SNAP n := by simp only [rACQ_CMD, rACQ_SNAP]; omega
  have n2 : rACQ_CMD n ≠ rACQ_COUNT0 n := by simp only [rACQ_CMD, rACQ_COUNT0]; omega
  have n3 : rACQ_CMD n ≠ rACQ_COUNT1 n := by simp only [rACQ_CMD, rACQ_COUNT1]; omega
  have n4 : rACQ_CMD n ≠ rACQ_COUNT2 n := by simp only [rACQ_CMD, rACQ_COUNT2]; omega
  have snap : ∀ (v : State) f, (v.acqSnap n).fld (rACQ_CMD n) f = v.fld (rACQ_CMD n) f := fun v f => by
    rw [State.acqSnap, State.fld_setFlds_other _ _ _ n4, State.fld_setFlds_other _ _ _ n3, State.fld_wr_other _ _ _ n2, State.fld_addMod_other _ _ _ _ n1]
  subst e
  refine ⟨?_, ?_, ?_⟩
  · rw [State.auState, snap]
    exact auState_setAuState _ n (by decide)
  · rw [(touches_State.acqSnap _ _).auU (by decide), (touches_State.setAuState _ _ _).auU (by decide), (touches_State.addMod _ _ _ _).auU (by decide), hx]
  · rw [snap, State.setAuState, State.fld_setFld_apart _ _ _ _ _ _ (by decide), State.fld_addMod_self _ _ _ _ (by decide), kr]

/-- A record that closes, with no loss to count: the unit holds off, and counts it. -/
theorem auClose_effect {s : State} {n : Nat} (hn : n < 8) {r : AuRec} (h : (s.auU n).rec_ = some r) (e : Nat) (trunc gap : Bool) (lost : Nat) {t : State}
    (eq : s.auClose n e trunc gap lost 0 = t) :
    t.auState n = 4 ∧ (t.auU n).rec_ = none ∧ (t.auU n).records = (s.auU n).records + 1 ∧ (t.auU n).trunc = satN 32 ((s.auU n).trunc + b2n trunc) ∧
      (t.auU n).refill = ((s.auU n).refill || s.fld (rACQ_CFG n) fACQ_CFG_RED == 0) ∧
      t.fld (rACQ_CMD n) fACQ_CMD_SEG = (s.fld (rACQ_CMD n) fACQ_CMD_SEG + 1) % 2 ^ 16 := by
  obtain ⟨g, f, p, hg, e1⟩ := auClose_left h e trunc gap lost
  rw [e1] at eq
  have hu : (s.fresh.2.updAu n g).auU n = g (s.auU n) := by rw [auU_updAu, (touches_fresh s).auU (by decide)]
  have hr : keeps 0xf0000 0xf8000 s (s.fresh.2.updAu n g) := .other (.other (.refl _ _ _) (touches_fresh s)) (touches_State.updAu _ _ _)
  generalize s.fresh.2.updAu n g = a at *
  have h3 : ∀ b, (if s.fld (rACQ_CFG n) fACQ_CFG_RED = 0 then a.onAside f else a) = b → b.auU n = a.auU n ∧ keeps 0xf0000 0xf8000 a b := fun b hb => by
    subst hb
    split
    · exact ⟨(touches_State.onAside _ _).auU (by decide) n, .other (.refl _ _ _) (touches_State.onAside _ _)⟩
    · exact ⟨rfl, .refl _ _ _⟩
  generalize (if s.fld (rACQ_CFG n) fACQ_CFG_RED = 0 then a.onAside f else a) = b at *
  obtain ⟨hb, kb⟩ := h3 b rfl
  have h4 : ∀ c, (if s.afld (rACQ_CTRL n) fACQ_CTRL_RMU_EN = 1 then b.addMod (rRMU_CFG n) fRMU_CFG_RECORDS 1 else b) = c → c.auU n = b.auU n ∧ keeps 0xf0000 0xf8000 b c :=
    fun c hc => by
      subst hc
      split
      · exact ⟨(touches_State.addMod _ _ _ _).auU (by decide) n, .addMod (.refl _ _ _) (by simp only [rRMU_CFG]; omega)⟩
      · exact ⟨rfl, .refl _ _ _⟩
  generalize (if s.afld (rACQ_CTRL n) fACQ_CTRL_RMU_EN = 1 then b.addMod (rRMU_CFG n) fRMU_CFG_RECORDS 1 else b) = c at *
  obtain ⟨hc, kc⟩ := h4 c rfl
  obtain ⟨t1, t2, t3⟩ := auLeft_effect c hn p eq
  obtain ⟨g1, g2, g3, g4⟩ := hg (s.auU n)
  rw [hc, hb, hu] at t2
  rw [t2]
  refine ⟨t1, g1, g2, g3, g4, t3.trans ?_⟩
  rw [((hr.trans kb).trans kc).fld _ _ (by simp only [rACQ_CMD]; omega)]

theorem auCut_closes {s : State} {n : Nat} {r : AuRec} (h : (s.auU n).rec_ = some r) :
    ∃ e, s.auCut n false true = s.auClose n e (decide ((s.auU n).n < r.t0 + r.post) || r.at_ == s.time) false 0 0 := by
  unfold State.auCut
  simp only [h, Bool.true_and]
  by_cases h1 : r.t0 + r.post ≤ (s.auU n).n
  · cases h2 : r.at_ == s.time
    · rw [if_pos (by simp [h1]), decide_eq_false (Nat.not_lt.mpr h1)]
      exact ⟨_, rfl⟩
    · rw [if_neg (by simp), Bool.or_true]
      exact ⟨_, rfl⟩
  · rw [if_neg (by simp [h1]), decide_eq_true (by omega), Bool.true_or]
    exact ⟨_, rfl⟩

theorem auCut_none {s : State} {n : Nat} (h : (s.auU n).rec_ = none) (gap now : Bool) : s.auCut n gap now = s := by
  unfold State.auCut
  simp only [h]

theorem auRecordClose_due {s : State} {n : Nat} {r : AuRec} (h : (s.auU n).rec_ = some r) (hd : r.t0 + r.post ≤ (s.auU n).n) :
    s.auRecordClose n = s.auClose n (r.t0 + r.post) false false 0 0 := by
  unfold State.auRecordClose
  simp only [h]
  exact if_pos hd

theorem auRecordClose_waits {s : State} {n : Nat} (h : ∀ r, (s.auU n).rec_ = some r → (s.auU n).n < r.t0 + r.post) : s.auRecordClose n = s := by
  unfold State.auRecordClose
  cases hr : (s.auU n).rec_ with
  | none => rfl
  | some r => exact if_neg (Nat.not_le.mpr (h r hr))

/-! ### Decisions (R286) -/

theorem auDecision_none {s : State} {n : Nat} (h : SMap.get [] s.decs n = []) : s.auDecision n = s := by
  unfold State.auDecision
  simp only [h]

theorem auCatchUp_idle {s : State} {n : Nat} (hr : (s.auU n).rec_ = none) (h4 : s.auState n ≠ 4) (t : Nat) : s.auCatchUp n t = s := by
  unfold State.auCatchUp
  rw [auRecordClose_waits fun r e => by rw [hr] at e; cases e]
  exact if_neg (by simp [h4])

/-- The decision at the head of a unit's list is taken. -/
def decTaken (s : State) (n : Nat) (rest : List Dec) : State := s.onDecs fun _ => SMap.set [] s.decs n rest

theorem decTaken_decs (s : State) (n : Nat) (rest : List Dec) : SMap.get [] (decTaken s n rest).decs n = rest := by
  rw [decTaken, State.onDecs_decs, SMap.get_set_same]

theorem touches_decTaken (s : State) (n : Nat) (rest : List Dec) : Touches mDecs s (decTaken s n rest) := touches_State.onDecs _ _

theorem auDecision_ignored {s : State} {n : Nat} {d : Dec} {rest : List Dec} (hr : (s.auU n).rec_ = none) (h4 : s.auState n ≠ 4)
    (hd : SMap.get [] s.decs n = d :: rest) (h : s.auState n = 0 ∨ d.t < (s.auU n).since) : s.auDecision n = decTaken s n rest := by
  have h0 : (decide ((decTaken s n rest).auState n = 0) || decide (d.t < ((decTaken s n rest).auU n).since)) = true := by
    have e1 : (decTaken s n rest).auState n = s.auState n := rfl
    have e2 : (decTaken s n rest).auU n = s.auU n := rfl
    rw [e1, e2]
    simpa using h
  unfold State.auDecision
  simp only [hd, auCatchUp_idle hr h4, hr, Option.isSome_none, Bool.false_and, Bool.false_eq_true, if_false]
  exact if_pos h0

/-- What is lost of a decision that a unit misses. -/
def decMissed (s : State) (n : Nat) : State := (s.updAu n fun a => { a with missed := satN 32 (a.missed + 1) }).raiseLim 1000 (352 + n)

theorem auDecision_judged {s : State} {n : Nat} {d : Dec} {rest : List Dec} (hr : (s.auU n).rec_ = none) (h4 : s.auState n ≠ 4)
    (hd : SMap.get [] s.decs n = d :: rest) (h0 : s.auState n ≠ 0) (hs : (s.auU n).since ≤ d.t) :
    (s.auJudge n d.t = .missed → s.auDecision n = (decMissed (decTaken s n rest) n).logPut n d.words true) ∧
    (∀ t0 pre, s.auJudge n d.t = .accept t0 pre → ∃ r : AuRec, r.t0 = t0 ∧ r.first = t0 - pre ∧ r.post = s.auPost n ∧ r.place = d.t ∧
      s.auDecision n = ((((decTaken s n rest).updAu n fun a => { a with rec_ := some r }).setAuState n 3).logPut n d.words false).auSeen n) := by
  have e1 : (decTaken s n rest).auState n = s.auState n := rfl
  have e2 : (decTaken s n rest).auU n = s.auU n := rfl
  have e3 : (decTaken s n rest).auJudge n d.t = s.auJudge n d.t := rfl
  have hn : ¬ (decide ((decTaken s n rest).auState n = 0) || decide (d.t < ((decTaken s n rest).auU n).since)) = true := by
    rw [e1, e2]
    simp [h0, Nat.not_lt.mpr hs]
  unfold State.auDecision
  simp only [hd, auCatchUp_idle hr h4, hr, Option.isSome_none, Bool.false_and, Bool.false_eq_true, if_false]
  rw [← decTaken, if_neg hn, e3]
  refine ⟨fun hj => ?_, fun t0 pre hj => ?_⟩
  · rw [hj]
    rfl
  · rw [hj]
    exact ⟨_, rfl, rfl, rfl, rfl, rfl⟩

theorem logPut_off {s : State} {n : Nat} (h : s.flag (rACQ_CFG n) fACQ_CFG_LOG_EN = false) (ws : List Nat) (missed : Bool) : s.logPut n ws missed = s := by
  unfold State.logPut
  exact if_neg (by rw [h]; decide)

theorem auSeen_whole {s : State} {n : Nat} {r : AuRec} (hr : (s.auU n).rec_ = some r) (h : ((s.auU n).span r.t0 (r.t0 + r.post)).all (·.ok) = true) : s.auSeen n = s := by
  unfold State.auSeen
  simp only [hr]
  exact if_pos h

/-! ### Filling and holdoff (R284) -/

theorem auPreFilled_fills {s : State} {n : Nat} (h1 : s.auState n = 1) (h : s.auPre n ≤ (s.auU n).n - (s.auU n).start) : s.auPreFilled n = s.setAuState n 2 := by
  unfold State.auPreFilled
  exact if_pos (by simp [h1, h])

theorem auPreFilled_waits {s : State} {n : Nat} (h : s.auState n ≠ 1 ∨ (s.auU n).n - (s.auU n).start < s.auPre n) : s.auPreFilled n = s := by
  unfold State.auPreFilled
  refine if_neg ?_
  rw [Bool.and_eq_true, decide_eq_true_iff, decide_eq_true_iff]
  omega

theorem auHoldoffEnd_ends {s : State} {n : Nat} {l : AuLast} (h4 : s.auState n = 4) (hl : (s.auU n).last = some l) :
    s.auHoldoffEnd n = if l.mode = 1 ∨ (l.mode = 2 ∧ l.nseg ≤ s.fld (rACQ_CMD n) fACQ_CMD_SEG) then
      ((s.reach (ceilDiv l.t 65536 + l.hold)).setAuState n 5).raise (360 + n) else (s.reach (ceilDiv l.t 65536 + l.hold)).setAuState n 1 := by
  unfold State.auHoldoffEnd
  rw [if_pos h4, hl]
  have hd : (s.reach (ceilDiv l.t 65536 + l.hold)).auRunDone n = true ↔ l.mode = 1 ∨ (l.mode = 2 ∧ l.nseg ≤ s.fld (rACQ_CMD n) fACQ_CMD_SEG) := by
    rw [State.auRunDone, (touches_State.reach _ _).auU (by decide), hl, reach_fld]
    simp
  exact if_congr hd rfl rfl

theorem auHoldoffEnd_idle {s : State} {n : Nat} (h4 : s.auState n ≠ 4) : s.auHoldoffEnd n = s := by
  unfold State.auHoldoffEnd
  exact if_neg h4

/-- Settles O35, a clause per command and outcome. -/
theorem acquisitionRuns : Obligations.AcquisitionRuns := by
  refine ⟨fun n v s h hs hst => ?arm, fun n v s h hs h0 h5 => ?armElse, fun n v s h ha hr => ?stop, fun n v r s h ha hr => ?stopRecord,
    fun n s hg hn => ?noDecision, fun n d rest s hg hh hr h4 hd hi => next_live hg ((State.clocked_running hh _).trans (auDecision_ignored hr h4 hd hi)),
    fun n d rest t0 pre s hg hh hr h4 hd h0 hs hj hall hlog => ?accepted, fun n d rest s hg hh hr h4 hd h0 hs hj hlog => ?missed,
    fun n s hg hh h1 hp => next_live hg ((State.clocked_running hh _).trans (auPreFilled_fills h1 hp)), fun n s hg hn => ?noFill,
    fun n r s hg hh hr hd => ?closes, fun n s hg hn => ?noClose,
    fun n l s hg hh h4 hl => next_live hg ((State.clocked_running hh _).trans (auHoldoffEnd_ends h4 hl)), fun n s hg hn => ?noHoldoff⟩
  case arm =>
    have hv := wrAcqCmd_arm (n := n) (v := fset v fACQ_CMD_ARM 1) (s := s.dropStaged .host (rACQ_CMD n)) (fget_fset_self _ _ _ (by decide))
      ((fget_fset_apart _ _ _ _ (by decide)).trans hs)
    have kd := touches_State.dropStaged s .host (rACQ_CMD n)
    have hst' : (s.dropStaged .host (rACQ_CMD n)).auState n = s.auState n := rfl
    generalize hd : s.dropStaged .host (rACQ_CMD n) = d at *
    obtain ⟨c1, c2, c3, c4, c5, c6⟩ := auArm_begins (s := d) (n := n) (by rw [hst']; exact hst) rfl
    rw [kd.time (by decide)] at c5
    rw [kd.auU (by decide)] at c6
    exact ⟨_, next_hostWr h (hd ▸ hv), c1, c2, c3, c4, c5, c6, (kd.mono (by decide)).andThen (touches_State.auArm _ _) (by decide)⟩
  case armElse =>
    exact next_hostWr h ((wrAcqCmd_arm (fget_fset_self _ _ _ (by decide)) ((fget_fset_apart _ _ _ _ (by decide)).trans hs)).trans (auArm_else h0 h5))
  case stop =>
    refine next_hostWr h ((wrAcqCmd_stop ((fget_fset_apart _ _ _ _ (by decide)).trans ha) (fget_fset_self _ _ _ (by decide))).trans ?_)
    unfold State.auStop
    rw [auCut_none (s := s.dropStaged .host (rACQ_CMD n)) hr]
    rfl
  case stopRecord =>
    have hv := wrAcqCmd_stop (n := n) (v := fset v fACQ_CMD_STOP 1) (s := s.dropStaged .host (rACQ_CMD n)) ((fget_fset_apart _ _ _ _ (by decide)).trans ha)
      (fget_fset_self _ _ _ (by decide))
    have kd := touches_State.dropStaged s .host (rACQ_CMD n)
    generalize hd : s.dropStaged .host (rACQ_CMD n) = d at *
    have hu : d.auU n = s.auU n := kd.auU (by decide) n
    have ht : d.time = s.time := kd.time (by decide)
    have hr' : (d.auU n).rec_ = some r := by rw [hu]; exact hr
    obtain ⟨e, he⟩ := auCut_closes hr'
    rw [hu, ht] at he
    generalize (decide ((s.auU n).n < r.t0 + r.post) || r.at_ == s.time) = b at he ⊢
    obtain ⟨-, c2, c3, c4, -, -⟩ := auClose_effect n.isLt hr' e b false 0 rfl
    rw [hu] at c3
    rw [hu] at c4
    have e1 : d.auStop n = (d.auClose n e b false 0 0).setAuState n 0 := by
      unfold State.auStop
      rw [he]
    generalize d.auClose n e b false 0 0 = w at *
    have hw : (w.setAuState n 0).auU n = w.auU n := (touches_State.setAuState _ _ _).auU (by decide) n
    exact ⟨_, next_hostWr h (hd ▸ hv.trans e1), auState_setAuState _ _ (by decide), by rw [hw, c2], by rw [hw, c3], by rw [hw, c4]⟩
  case noDecision =>
    cases hh : s.held
    · exact next_live hg ((State.clocked_running hh _).trans (auDecision_none (by simpa [hh] using hn)))
    · exact next_live hg (State.clocked_held hh _)
  case accepted =>
    obtain ⟨r, r1, r2, r3, r4, e⟩ := (auDecision_judged hr h4 hd h0 hs).2 t0 pre hj
    have kd := touches_decTaken s n rest
    have hds := decTaken_decs s n rest
    generalize decTaken s n rest = d at *
    have hu : ((d.updAu n fun a => { a with rec_ := some r }).setAuState n 3).auU n = { s.auU n with rec_ := some r } := by
      rw [(touches_State.setAuState _ _ _).auU (by decide), auU_updAu, kd.auU (by decide)]
    have kw : onlyIn (mRegs ||| mDecs ||| mAu ||| mGlb) [rACQ_CMD n] [] s ((d.updAu n fun a => { a with rec_ := some r }).setAuState n 3) :=
      .setFld (.other (.other (.refl _ _ _ _) kd (e := kd.regs (by decide))) (touches_State.updAu _ _ _) (e := State.updAu_regs _ _ _))
    have hst := auState_setAuState (d.updAu n fun a => { a with rec_ := some r }) n (st := 3) (by decide)
    have hdw : ((d.updAu n fun a => { a with rec_ := some r }).setAuState n 3).decs = d.decs := rfl
    generalize (d.updAu n fun a => { a with rec_ := some r }).setAuState n 3 = w at *
    have hL : w.flag (rACQ_CFG n) fACQ_CFG_LOG_EN = false := by
      rw [← hlog]
      exact congrArg (fun x => fget x fACQ_CFG_LOG_EN != 0) (kw.2 _ (by simp only [List.mem_singleton, rACQ_CFG, rACQ_CMD]; omega) (by simp))
    have hrw : (w.auU n).rec_ = some r := by rw [hu]
    rw [logPut_off hL, auSeen_whole hrw (by rw [hu, r1, r3]; exact hall)] at e
    exact ⟨_, next_live hg ((State.clocked_running hh _).trans e), hst, by rw [hdw, hds], ⟨r, hrw, r1, r2, r3, r4⟩,
      .of_hi kw (by simp only [List.mem_singleton, rACQ_CMD]; omega)⟩
  case missed =>
    have e := (auDecision_judged hr h4 hd h0 hs).1 hj
    have kd := touches_decTaken s n rest
    have hds := decTaken_decs s n rest
    generalize decTaken s n rest = d at *
    have kw : onlyIn (mEvent ||| mDecs ||| mAu ||| mGlb) [] [352 + n.val] s (decMissed d n) :=
      .raiseLim (.other (.other (.refl _ _ _ _) kd (e := kd.regs (by decide))) (touches_State.updAu _ _ _) (e := State.updAu_regs _ _ _))
    have hu : (decMissed d n).auU n = { s.auU n with missed := satN 32 ((s.auU n).missed + 1) } := by
      rw [decMissed, (touches_State.raiseLim _ _ _ _ _ _ _).auU (by decide), auU_updAu, kd.auU (by decide)]
    have hdw : (decMissed d n).decs = d.decs := by
      rw [decMissed, (touches_State.raiseLim _ _ _ _ _ _ _).decs (by decide), (touches_State.updAu _ _ _).decs (by decide)]
    generalize decMissed d n = w at *
    have hL : w.flag (rACQ_CFG n) fACQ_CFG_LOG_EN = false := by
      rw [← hlog]
      refine (kw.keeps (lo := 0xf0000) (hi := 0xf8000) (by simp) fun src h => ?_).flag _ _ (by simp only [rACQ_CFG]; omega)
      rw [List.mem_singleton.mp h]
      omega
    rw [logPut_off hL] at e
    exact ⟨_, next_live hg ((State.clocked_running hh _).trans e), hu, by rw [hdw, hds], .of_hi kw (by simp)⟩
  case noFill =>
    cases hh : s.held
    · exact next_live hg ((State.clocked_running hh _).trans (auPreFilled_waits (by simpa [hh] using hn)))
    · exact next_live hg (State.clocked_held hh _)
  case closes =>
    obtain ⟨c1, c2, c3, -, c5, c6⟩ := auClose_effect n.isLt hr (r.t0 + r.post) false false 0 rfl
    exact ⟨_, next_live hg ((State.clocked_running hh _).trans (auRecordClose_due hr hd)), c1, c2, c3, c6, c5⟩
  case noClose =>
    cases hh : s.held
    · exact next_live hg ((State.clocked_running hh _).trans (auRecordClose_waits (by simpa [hh] using hn)))
    · exact next_live hg (State.clocked_held hh _)
  case noHoldoff =>
    cases hh : s.held
    · exact next_live hg ((State.clocked_running hh _).trans (auHoldoffEnd_idle (by simpa [hh] using hn)))
    · exact next_live hg (State.clocked_held hh _)

end Sys2Proof
end

section
/-! SUPPORT. Service of the acquisition units: log, extents, counters and measurement (R295 to R302, R339). -/

set_option Elab.async false

namespace Sys2Proof

open Sys2Proof.Machine

/-! ### The log (R295) -/

theorem logFlush_empty {s : State} {n : Nat} (h : (s.auU n).log = []) : s.logFlush n = s := by
  unfold State.logFlush
  exact if_pos (by rw [h]; rfl)

theorem logFlush_closes {s : State} {n : Nat} (h : (s.auU n).log ≠ []) :
    s.logFlush n = (s.reach ((s.auU n).logAt + s.usTicks (s.afld (rACQ_LOG n) fACQ_LOG_FLUSH_US))).logClose n := by
  unfold State.logFlush
  exact if_neg (by simpa using h)

/-- A log with entries leaves and is empty. -/
theorem logClose_effect {s : State} {n : Nat} (h : (s.auU n).log ≠ []) {t : State} (e : s.logClose n = t) :
    t.auU n = { s.auU n with log := [], logFl := 0 } ∧ t.time = s.time ∧ onlyIn (mEvent ||| mCtxs ||| mPorts ||| mAu) dropRegs [13] s t := by
  obtain ⟨w, l, h⟩ := List.exists_cons_of_ne_nil h
  have e1 : ∃ x p, s.logClose n = (s.auEmit n x p).updAu n fun a => { a with log := [], logFl := 0 } := by
    unfold State.logClose
    simp only [h]
    exact ⟨_, _, rfl⟩
  obtain ⟨x, p, e1⟩ := e1
  rw [e1] at e
  have k := onlyIn_auEmit s n x p
  generalize s.auEmit n x p = v at *
  subst e
  refine ⟨?_, (touches_State.updAu _ _ _).time (by decide) |>.trans (k.1.time (by decide)), ?_⟩
  · rw [auU_updAu, k.1.auU (by decide)]
  · exact (k.mono (by decide) (fun _ h => h) (fun _ h => h)).trans (onlyIn_updAu (by decide) _ _ _)

/-! ### The extent set-aside (R339) -/

theorem onlyIn_extentLow (s0 s : State) : onlyIn mEvent [] [646] s (s0.extentLow s) := by
  refine .of_hi ?_ (by simp)
  unfold State.extentLow
  exact .ite (.raise (.refl _ _ _ _)) (.refl _ _ _ _)

/-- The set-aside of unit `n` topped up. -/
def asideFilled (s : State) (n : Nat) : State :=
  (s.onAside fun _ => SMap.set 0 s.aside n (max (s.fld (rACQ_CFG n) fACQ_CFG_RING_BILLETS + 2) (SMap.get 0 s.aside n))).updAu n fun a =>
    { a with refill := false }

theorem auRefill_fills {s : State} {n : Nat} (hr : (s.auU n).refill = true)
    (hx : s.fld (rACQ_CFG n) fACQ_CFG_RING_BILLETS + 2 - SMap.get 0 s.aside n ≤ s.extFree) : s.auRefill n = s.extentLow (asideFilled s n) := by
  unfold State.auRefill
  exact if_pos (by rw [hr, Bool.true_and]; exact decide_eq_true hx)

theorem auRefill_waits {s : State} {n : Nat}
    (h : (s.auU n).refill = false ∨ s.extFree < s.fld (rACQ_CFG n) fACQ_CFG_RING_BILLETS + 2 - SMap.get 0 s.aside n) : s.auRefill n = s := by
  unfold State.auRefill
  refine if_neg ?_
  rw [Bool.and_eq_true, decide_eq_true_iff]
  rintro ⟨h1, h2⟩
  rcases h with h | h
  · exact absurd (h.symm.trans h1) (by decide)
  · omega

/-! ### The counters (R301) -/

/-- The snapshot captures the counters of the unit as they are. -/
theorem acqSnap_effect (s : State) (n : Nat) {t : State} (e : s.acqSnap n = t) :
    t.fld (rACQ_SNAP n) fACQ_SNAP_SEQ = (s.fld (rACQ_SNAP n) fACQ_SNAP_SEQ + 1) % 2 ^ 32 ∧ t.rd (rACQ_COUNT0 n) = BitVec.ofNat 64 (s.auU n).records ∧
      t.fld (rACQ_COUNT1 n) fACQ_COUNT1_MISSED = (s.auU n).missed % 2 ^ 32 ∧ t.fld (rACQ_COUNT1 n) fACQ_COUNT1_EARLY = (s.auU n).early % 2 ^ 32 ∧
      t.fld (rACQ_COUNT2 n) fACQ_COUNT2_TRUNC = (s.auU n).trunc % 2 ^ 32 ∧ t.au = s.au ∧
      onlyIn (mRegs ||| mGlb) [rACQ_SNAP n, rACQ_COUNT0 n, rACQ_COUNT1 n, rACQ_COUNT2 n] [] s t := by
  subst e
  have n1 : rACQ_SNAP n ≠ rACQ_COUNT0 n := by simp only [rACQ_SNAP, rACQ_COUNT0]; omega
  have n2 : rACQ_SNAP n ≠ rACQ_COUNT1 n := by simp only [rACQ_SNAP, rACQ_COUNT1]; omega
  have n3 : rACQ_SNAP n ≠ rACQ_COUNT2 n := by simp only [rACQ_SNAP, rACQ_COUNT2]; omega
  have n4 : rACQ_COUNT0 n ≠ rACQ_COUNT1 n := by simp only [rACQ_COUNT0, rACQ_COUNT1]; omega
  have n5 : rACQ_COUNT0 n ≠ rACQ_COUNT2 n := by simp only [rACQ_COUNT0, rACQ_COUNT2]; omega
  have n6 : rACQ_COUNT1 n ≠ rACQ_COUNT2 n := by simp only [rACQ_COUNT1, rACQ_COUNT2]; omega
  refine ⟨?_, ?_, ?_, ?_, ?_, (touches_State.acqSnap _ _).au (by decide), .setFlds (.setFlds (.wr (.addMod (.refl _ _ _ _))))⟩ <;> unfold State.acqSnap
  · rw [State.fld_setFlds_other _ _ _ n3, State.fld_setFlds_other _ _ _ n2, State.fld_wr_other _ _ _ n1, State.fld_addMod_self _ _ _ _ (by decide)]
  · rw [State.rd_setFlds_other _ _ n5, State.rd_setFlds_other _ _ n4, State.rd_wr_same]
  · rw [State.fld_setFlds_other _ _ _ n6]
    simp (disch := decide)
  · rw [State.fld_setFlds_other _ _ _ n6]
    simp (disch := decide)
  · simp (disch := decide)

/-! ### The RMU square (R296) -/

theorem nextReplay_cons {s : State} {sq : Nat} {r : RRec} {rest : List RRec} (h : SMap.get [] s.replay sq = r :: rest) :
    s.nextReplay sq = some (r, s.onReplay fun _ => SMap.set [] s.replay sq rest) := by
  unfold State.nextReplay
  simp only [h]

theorem rmuRecord_none {s : State} (h : SMap.get [] s.replay 56 = []) : s.rmuRecord = s := by
  unfold State.rmuRecord State.nextReplay
  simp only [h]

/-- The next record on the RMU's street passes, or is measured and counted. -/
theorem rmuRecord_takes {s : State} {r : RRec} {rest : List RRec} (h : SMap.get [] s.replay 56 = r :: rest) (hg : s.hoGap = false) :
    ∃ p, s.rmuRecord = if r.typ = 0x30 then (((s.onReplay fun _ => SMap.set [] s.replay 56 rest).fresh.2).addMod (rRMU_CFG 8) fRMU_CFG_RECORDS 1).emitRec 56 p
      else (s.onReplay fun _ => SMap.set [] s.replay 56 rest).emitRec 56 r.again := by
  unfold State.rmuRecord
  simp only [nextReplay_cons h, hg, Bool.false_eq_true, if_false]
  by_cases ht : r.typ = 0x30
  · rw [if_neg (by simp [ht])]
    simp only [ht, if_true]
    exact ⟨_, rfl⟩
  · rw [if_pos (by simpa using ht)]
    exact ⟨prod0, (if_neg ht).symm⟩

/-- Settles O36, a clause per command and outcome. -/
theorem acquisitionService : Obligations.AcquisitionService := by
  refine ⟨fun n s hg hh hl => ?log, fun n s hg hn => ?noLog, fun n s hg hr hx => ⟨_, next_live hg (auRefill_fills hr hx), ?refill⟩,
    fun n s hg hn => next_live hg (auRefill_waits hn), fun n v s h => ?snap, fun r rest s hg hh hgap hr => ?record, fun s hg hn => ?noRecord, fun l v s h => ?level⟩
  case log =>
    have kr := touches_State.reach s ((s.auU n).logAt + s.usTicks (s.afld (rACQ_LOG n) fACQ_LOG_FLUSH_US))
    have ht := State.reach_time_running hh ((s.auU n).logAt + s.usTicks (s.afld (rACQ_LOG n) fACQ_LOG_FLUSH_US))
    have ko : onlyIn (mEvent ||| mTime ||| mCtxs ||| mPorts ||| mAu) dropRegs [13] s (s.reach ((s.auU n).logAt + s.usTicks (s.afld (rACQ_LOG n) fACQ_LOG_FLUSH_US))) :=
      onlyIn_reach (by decide) s _
    have e := logFlush_closes hl
    generalize s.reach ((s.auU n).logAt + s.usTicks (s.afld (rACQ_LOG n) fACQ_LOG_FLUSH_US)) = w at *
    have hu : w.auU n = s.auU n := kr.auU (by decide) n
    obtain ⟨h1, h2, k⟩ := logClose_effect (s := w) (n := n) (by rw [hu]; exact hl) rfl
    rw [hu] at h1
    exact ⟨_, next_live hg ((State.clocked_running hh _).trans e), h1, h2.trans ht, ko.andThen k (by decide) (fun _ h => h) (fun _ h => h)⟩
  case noLog =>
    cases hh : s.held
    · exact next_live hg ((State.clocked_running hh _).trans (logFlush_empty (by simpa [hh] using hn)))
    · exact next_live hg (State.clocked_held hh _)
  case refill =>
    have k := onlyIn_extentLow s (asideFilled s n)
    have ka : onlyIn (mEvent ||| mAside ||| mAu) [] [646] s (asideFilled s n) :=
      .trans (.other (.refl _ _ _ _) (touches_State.onAside _ _) (e := State.onAside_regs _ _)) (onlyIn_updAu (by decide) _ _ _)
    have hr : ((asideFilled s n).auU n).refill = false := by rw [asideFilled, auU_updAu]
    have ha : (asideFilled s n).aside = SMap.set 0 s.aside n (max (s.fld (rACQ_CFG n) fACQ_CFG_RING_BILLETS + 2) (SMap.get 0 s.aside n)) := rfl
    generalize asideFilled s n = w at *
    exact ⟨by rw [k.1.auU (by decide), hr], by rw [k.1.aside (by decide), ha, SMap.get_set_same], ka.andThen k (by decide) (fun _ h => h) (fun _ h => h)⟩
  case snap =>
    have hv : State.wrAcqSnap n (fset v fACQ_SNAP_SNAP 1) (s.dropStaged .host (rACQ_SNAP n)) = (s.dropStaged .host (rACQ_SNAP n)).acqSnap n :=
      if_pos (fget_fset_self _ _ _ (by decide))
    have kd : onlyIn (mRegs ||| mStaged ||| mGlb) [rACQ_SNAP n, rACQ_COUNT0 n, rACQ_COUNT1 n, rACQ_COUNT2 n] [] s (s.dropStaged .host (rACQ_SNAP n)) :=
      .dropStaged (.refl _ _ _ _)
    have hfl : ∀ f, (s.dropStaged .host (rACQ_SNAP n)).fld (rACQ_SNAP n) f = s.fld (rACQ_SNAP n) f := State.fld_congr (State.dropStaged_regs ..) _
    have hau : (s.dropStaged .host (rACQ_SNAP n)).au = s.au := State.dropStaged_au ..
    generalize hd : s.dropStaged .host (rACQ_SNAP n) = d at *
    have hu : d.auU n = s.auU n := kd.1.auU (by decide) n
    obtain ⟨c1, c2, c3, c4, c5, c6, k⟩ := acqSnap_effect d n rfl
    rw [hfl] at c1
    rw [hu] at c2 c3 c4 c5
    refine ⟨_, next_hostWr h (hd ▸ hv), ?_⟩
    rw [hd]
    refine ⟨c1, c2, c3, c4, c5, c6.trans hau, .of_hi (kd.andThen k (by decide) (fun _ h => h) (fun _ h => h)) fun a ha => ?_⟩
    simp only [List.mem_cons, List.not_mem_nil, or_false, rACQ_SNAP, rACQ_COUNT0, rACQ_COUNT1, rACQ_COUNT2] at ha
    omega
  case record =>
    obtain ⟨p, e⟩ := rmuRecord_takes hr hgap
    have hrep : SMap.get [] (s.onReplay fun _ => SMap.set [] s.replay 56 rest).replay 56 = rest := by
      rw [State.onReplay_replay, SMap.get_set_same]
    have kp : onlyIn (mEvent ||| mFreeCtr ||| mCtxs ||| mPorts ||| mReplay ||| mGlb) (rRMU_CFG 8 :: dropRegs) [13] s (s.onReplay fun _ => SMap.set [] s.replay 56 rest) :=
      .other (.refl _ _ _ _) (touches_State.onReplay _ _) (e := State.onReplay_regs _ _)
    have hfl : ∀ f, (s.onReplay fun _ => SMap.set [] s.replay 56 rest).fld (rRMU_CFG 8) f = s.fld (rRMU_CFG 8) f := State.fld_congr (State.onReplay_regs _ _) _
    generalize (s.onReplay fun _ => SMap.set [] s.replay 56 rest) = d at *
    have hhi : ∀ a ∈ rRMU_CFG 8 :: dropRegs, 0x1000 ≤ a := fun a ha => by
      rcases List.mem_cons.mp ha with rfl | ha
      · decide
      · exact dropRegs_hi a ha
    have sent : ∀ (w : State) q, onlyIn (mEvent ||| mFreeCtr ||| mCtxs ||| mPorts ||| mReplay ||| mGlb) (rRMU_CFG 8 :: dropRegs) [13] s w →
        onlyIn (mEvent ||| mFreeCtr ||| mCtxs ||| mPorts ||| mReplay) (rRMU_CFG 8 :: dropRegs) [13] s (w.emitRec 56 q) ∧
        (w.emitRec 56 q).replay = w.replay ∧ (w.emitRec 56 q).fld (rRMU_CFG 8) fRMU_CFG_RECORDS = w.fld (rRMU_CFG 8) fRMU_CFG_RECORDS := fun w q kw => by
      have k := onlyIn_emitRec w 56 q
      refine ⟨.of_hi (kw.andThen k (by decide) (fun a ha => List.mem_cons_of_mem _ ha) (fun _ h => h)) hhi, k.1.replay (by decide), ?_⟩
      refine (k.keeps (lo := 0x100000) (hi := 0x100200) (fun a ha => ?_) (by decide)).fld _ _ (by decide)
      have := dropRegs_range ha
      omega
    refine ⟨_, next_live hg ((State.clocked_running hh _).trans e), ?_⟩
    by_cases ht : r.typ = 0x30
    · rw [if_pos ht]
      have kf : onlyIn (mEvent ||| mFreeCtr ||| mCtxs ||| mPorts ||| mReplay ||| mGlb) (rRMU_CFG 8 :: dropRegs) [13] s (d.fresh.2.addMod (rRMU_CFG 8) fRMU_CFG_RECORDS 1) :=
        .addMod (kp.trans (onlyIn_fresh (by decide) d)) (ha := List.mem_cons_self)
      have h1 : (d.fresh.2.addMod (rRMU_CFG 8) fRMU_CFG_RECORDS 1).fld (rRMU_CFG 8) fRMU_CFG_RECORDS = (s.fld (rRMU_CFG 8) fRMU_CFG_RECORDS + 1) % 2 ^ 32 := by
        rw [State.fld_addMod_self _ _ _ _ (by decide), State.fld_congr ((touches_fresh d).regs (by decide)), hfl]
      have h2 : (d.fresh.2.addMod (rRMU_CFG 8) fRMU_CFG_RECORDS 1).replay = d.replay := by
        rw [(touches_State.addMod _ _ _ _).replay (by decide), (touches_fresh d).replay (by decide)]
      generalize d.fresh.2.addMod (rRMU_CFG 8) fRMU_CFG_RECORDS 1 = w at *
      obtain ⟨k, s1, s2⟩ := sent w p kf
      exact ⟨by rw [s1, h2, hrep], by rw [s2, h1, ht]; rfl, k⟩
    · rw [if_neg ht]
      obtain ⟨k, s1, s2⟩ := sent d r.again kp
      refine ⟨by rw [s1, hrep], ?_, k⟩
      rw [s2, hfl, show (r.typ == 0x30) = false by simpa using ht]
      exact (Nat.mod_eq_of_lt (s.fld_lt _ _)).symm
  case noRecord =>
    cases hh : s.held
    · exact next_live hg ((State.clocked_running hh _).trans (rmuRecord_none (by simpa [hh] using hn)))
    · exact next_live hg (State.clocked_held hh _)
  case level =>
    refine next_hostWr h ?_
    unfold State.wrRmuLevel
    exact if_congr (by rw [Bool.and_eq_true, decide_eq_true_iff, decide_eq_true_iff]; rfl) rfl rfl

end Sys2Proof
end

section
/-! SUPPORT. A Turf core: what its registers read after a write, how late writes lie, and how it issues an instruction (R319 to R325). -/

set_option Elab.async false

namespace Sys2Proof

open Sys2Proof.Machine

/-! ### One core among the others -/

@[simp] theorem tcore_setTcore_same (s : State) (c : Nat) (x : Core) : (s.setTcore c x).tcore c = x :=
  SMap.get_set_same core0 s.turf c x

@[simp] theorem tcore_setTcore_other (s : State) {c k : Nat} (x : Core) (h : k ≠ c) : (s.setTcore c x).tcore k = s.tcore k :=
  SMap.get_set_ne core0 core0 s.turf x h

@[simp] theorem tcore_updTcore_same (s : State) (c : Nat) (f : Core → Core) : (s.updTcore c f).tcore c = f (s.tcore c) :=
  tcore_setTcore_same _ _ _

@[simp] theorem tcore_updTcore_other (s : State) {c k : Nat} (f : Core → Core) (h : k ≠ c) : (s.updTcore c f).tcore k = s.tcore k :=
  tcore_setTcore_other _ _ h

theorem Touches.tcore {m : Nat} {s t : State} (k : Touches m s t) (h : m.testBit 42 = false := by decide) (c : Nat) : t.tcore c = s.tcore c :=
  congrArg (fun x => SMap.get core0 x c) (k.turf h)

theorem onlyCore_setTcore (s : State) (c : Nat) (x : Core) : onlyCore c s (s.setTcore c x) :=
  ⟨touches_State.setTcore s c x, fun _ h => tcore_setTcore_other s x h⟩

theorem onlyCore.trans {c : Nat} {s t u : State} (a : onlyCore c s t) (b : onlyCore c t u) : onlyCore c s u :=
  ⟨a.1.trans b.1, fun k h => (b.2 k h).trans (a.2 k h)⟩

/-! ### Late writes -/

@[simp] theorem lateTo_append (t : LateTo) (a b : List Late) : lateTo t (a ++ b) = lateTo t a ++ lateTo t b := by
  simp [lateTo]

@[simp] theorem lateTo_nil (t : LateTo) : lateTo t [] = [] := rfl

@[simp] theorem lateTo_singleton (t : LateTo) (e : Late) : lateTo t [e] = if e.dst = t then [(e.n, e.v)] else [] := by
  unfold lateTo
  by_cases h : e.dst = t <;> simp [h]

theorem lateTo_drop (t q : LateTo) (l : List Late) : lateTo t (l.filter fun e => e.dst != q) = if t = q then [] else lateTo t l := by
  unfold lateTo
  rw [List.filter_filter]
  split
  case isTrue h => simp [h]
  case isFalse h =>
    congr 1
    refine List.filter_congr fun e _ => ?_
    by_cases he : e.dst = t
    · subst he
      simp [h]
    · simp [he]

/-- A younger write of sr leaves every late write where it goes and what it brings. -/
theorem lateTo_dropSr (t : LateTo) (x : Core) (m : Nat) : lateTo t (x.dropSr m).late = lateTo t x.late := by
  unfold lateTo Core.dropSr
  induction x.late with
  | nil => rfl
  | cons e l ih =>
    simp only [List.map_cons, List.filter_cons] at ih ⊢
    by_cases h : e.dst = .cr 33 <;> simp only [h, ↓reduceIte] <;> split <;> simp [ih]

/-! ### What the registers read after a write -/

section
variable (x : Core) (i j v n : Nat) (m a : Nat) (z : Int) (t q : LateTo)

@[simp] theorem dReg_setD : (x.setD i v).dReg j = if j = i then v % 2 ^ 16 else x.dReg j := SMap.get_set ..
@[simp] theorem crReg_setD : (x.setD i v).crReg j = x.crReg j := rfl
@[simp] theorem accReg_setD : (x.setD i v).accReg j = x.accReg j := rfl
@[simp] theorem lateTo_setD : lateTo t (x.setD i v).late = if t = .d i then [] else lateTo t x.late := lateTo_drop ..

@[simp] theorem dReg_setCr : (x.setCr i v).dReg j = x.dReg j := rfl
@[simp] theorem crReg_setCr : (x.setCr i v).crReg j = if j = i then v &&& crMask i else x.crReg j := SMap.get_set ..
@[simp] theorem accReg_setCr : (x.setCr i v).accReg j = x.accReg j := rfl
@[simp] theorem lateTo_setCr : lateTo t (x.setCr i v).late = if t = .cr i then [] else lateTo t x.late := lateTo_drop ..

@[simp] theorem dReg_setSr : (x.setSr m v).dReg j = x.dReg j := rfl
theorem crReg_setSr : (x.setSr m v).crReg j = if j = 33 then x.sr - (x.sr &&& m) + (v &&& m) else x.crReg j := SMap.get_set ..
@[simp] theorem sr_setSr : (x.setSr m v).sr = x.sr - (x.sr &&& m) + (v &&& m) := SMap.get_set_same ..
@[simp] theorem crReg_setSr_other (h : j ≠ 33) : (x.setSr m v).crReg j = x.crReg j := (crReg_setSr ..).trans (if_neg h)
@[simp] theorem accReg_setSr : (x.setSr m v).accReg j = x.accReg j := rfl
@[simp] theorem lateTo_setSr : lateTo t (x.setSr m v).late = lateTo t x.late := lateTo_dropSr ..

@[simp] theorem dReg_setAcc : (x.setAcc a z).dReg j = x.dReg j := rfl
@[simp] theorem crReg_setAcc : (x.setAcc a z).crReg j = x.crReg j := rfl
@[simp] theorem accReg_setAcc : (x.setAcc a z).accReg j = if j = a then z else x.accReg j := SMap.get_set ..
@[simp] theorem late_setAcc : (x.setAcc a z).late = x.late := rfl

@[simp] theorem dReg_later : (x.later n q v).dReg j = x.dReg j := rfl
@[simp] theorem crReg_later : (x.later n q v).crReg j = x.crReg j := rfl
@[simp] theorem accReg_later : (x.later n q v).accReg j = x.accReg j := rfl
@[simp] theorem late_later : (x.later n q v).late = x.late ++ [⟨n, q, v, 0xFFFF⟩] := rfl

@[simp] theorem sr_setD : (x.setD i v).sr = x.sr := rfl
@[simp] theorem sr_setAcc : (x.setAcc a z).sr = x.sr := rfl
@[simp] theorem sr_later : (x.later n q v).sr = x.sr := rfl
theorem sr_setCr (h : i ≠ 33) : (x.setCr i v).sr = x.sr := (crReg_setCr ..).trans (if_neg fun e => h e.symm)

end

/-! ### What no write of a register touches -/

/-- What of a core is neither a register, an accumulator, a flag nor a late write. -/
def Machine.Core.frame (x : Core) : Core := { x with d := [], cr := [], acc := [], accL := [], vL := false, late := [] }

@[simp] theorem frame_setD (x : Core) (i v : Nat) : (x.setD i v).frame = x.frame := rfl
@[simp] theorem frame_setCr (x : Core) (i v : Nat) : (x.setCr i v).frame = x.frame := rfl
@[simp] theorem frame_setSr (x : Core) (m v : Nat) : (x.setSr m v).frame = x.frame := rfl
@[simp] theorem frame_setAcc (x : Core) (a : Nat) (v : Int) : (x.setAcc a v).frame = x.frame := rfl
@[simp] theorem frame_later (x : Core) (n : Nat) (t : LateTo) (v : Nat) : (x.later n t v).frame = x.frame := rfl

/-- What of a core no late write reaches: all but the registers, DM, V as B sees it and the late writes. -/
def Machine.Core.still (x : Core) : Core := { x with dm := [], d := [], cr := [], vL := false, late := [] }

theorem still_applyLate (x : Core) (e : Late) : (x.applyLate e).still = x.still := by
  unfold Core.applyLate
  split
  · rfl
  · rfl
  · split
    · rfl
    · split <;> rfl

theorem late_applyLate (x : Core) (e : Late) : (x.applyLate e).late = x.late := by
  unfold Core.applyLate
  split
  · rfl
  · rfl
  · split
    · rfl
    · split <;> rfl

theorem still_applyAll (l : List Late) (x : Core) : (l.foldl Core.applyLate x).still = x.still := by
  induction l generalizing x with
  | nil => rfl
  | cons e l ih => exact (ih _).trans (still_applyLate x e)

theorem late_applyAll (l : List Late) (x : Core) : (l.foldl Core.applyLate x).late = x.late := by
  induction l generalizing x with
  | nil => rfl
  | cons e l ih => exact (ih _).trans (late_applyLate x e)

theorem still_mature (x : Core) : x.mature.still = x.still := still_applyAll _ _

theorem still_retire (x : Core) : x.retire.still = x.still := still_applyAll _ _

theorem late_retire (x : Core) : x.retire.late = [] := late_applyAll _ _

section
variable (x : Core)

@[simp] theorem mature_st : x.mature.st = x.st := (congrArg Core.st (still_mature x) :)
@[simp] theorem mature_acc : x.mature.acc = x.acc := (congrArg Core.acc (still_mature x) :)
@[simp] theorem mature_accL : x.mature.accL = x.accL := (congrArg Core.accL (still_mature x) :)
@[simp] theorem mature_shadow : x.mature.shadow = x.shadow := (congrArg Core.shadow (still_mature x) :)
@[simp] theorem mature_pc : x.mature.pc = x.pc := (congrArg Core.pc (still_mature x) :)
@[simp] theorem mature_br : x.mature.br = x.br := (congrArg Core.br (still_mature x) :)
@[simp] theorem mature_rpt : x.mature.rpt = x.rpt := (congrArg Core.rpt (still_mature x) :)
@[simp] theorem mature_calls : x.mature.calls = x.calls := (congrArg Core.calls (still_mature x) :)
@[simp] theorem mature_loops : x.mature.loops = x.loops := (congrArg Core.loops (still_mature x) :)
@[simp] theorem mature_ring : x.mature.ring = x.ring := (congrArg Core.ring (still_mature x) :)
@[simp] theorem mature_loss : x.mature.loss = x.loss := (congrArg Core.loss (still_mature x) :)
@[simp] theorem mature_sendQ : x.mature.sendQ = x.sendQ := (congrArg Core.sendQ (still_mature x) :)
@[simp] theorem mature_cycles : x.mature.cycles = x.cycles := (congrArg Core.cycles (still_mature x) :)

@[simp] theorem retire_acc : x.retire.acc = x.acc := (congrArg Core.acc (still_retire x) :)
@[simp] theorem retire_pc : x.retire.pc = x.pc := (congrArg Core.pc (still_retire x) :)
@[simp] theorem retire_st : x.retire.st = x.st := (congrArg Core.st (still_retire x) :)
@[simp] theorem retire_ring : x.retire.ring = x.ring := (congrArg Core.ring (still_retire x) :)
@[simp] theorem retire_sendQ : x.retire.sendQ = x.sendQ := (congrArg Core.sendQ (still_retire x) :)
@[simp] theorem retire_cycles : x.retire.cycles = x.cycles := (congrArg Core.cycles (still_retire x) :)

end

/-- With nothing late a core sees at its next issue what it saw before. -/
theorem mature_of_none {x : Core} (h : x.late = []) : x.mature = x := by
  cases x
  cases h
  rfl

/-! ### Cycles -/

/-- `n` cycles of core `x` pass, with neither timer nor watchdog running. -/
def Machine.Core.ticked (x : Core) (n : Nat) : Core := { x with cycles := if x.st = .halted then x.cycles else (x.cycles + n) % 2 ^ 64, timer := 0 }

theorem ticked_live {x : Core} (n : Nat) (h : x.st ≠ .halted) :
    x.ticked n = { x with cycles := (x.cycles + n) % 2 ^ 64, timer := 0 } := by
  unfold Core.ticked
  rw [if_neg h]

theorem tickTimer_off {x : Core} {cfg : Word} (n : Nat) (h : fget cfg fTC_TIMER_EN = 0) : x.tickTimer cfg n = { x with timer := 0 } :=
  if_pos h

theorem tcCycle_ticks {s : State} {c : Nat} (n : Nat) (ht : s.fld (rTC_TIMER c) fTC_TIMER_EN = 0)
    (hl : s.fld (rTC_LIMIT c) fTC_LIMIT_CYCLES = 0) : s.tcCycle c n = s.setTcore c ((s.tcore c).ticked n) := by
  unfold State.tcCycle
  simp only [hl, bne_self_eq_false, Bool.and_false, Bool.false_and, Bool.false_eq_true, ↓reduceIte]
  rw [tickTimer_off n ht]
  unfold Core.ticked
  split <;> rfl

/-- Core `c` is replaced by `x`, and `n` cycles pass. -/
theorem setTcore_ticks {s : State} {c : Nat} (x : Core) (n : Nat) (ht : s.fld (rTC_TIMER c) fTC_TIMER_EN = 0)
    (hl : s.fld (rTC_LIMIT c) fTC_LIMIT_CYCLES = 0) :
    onlyCore c s ((s.setTcore c x).tcCycle c n) ∧ ((s.setTcore c x).tcCycle c n).tcore c = x.ticked n := by
  have e := tcCycle_ticks (s := s.setTcore c x) n ht hl
  rw [e, tcore_setTcore_same]
  exact ⟨(onlyCore_setTcore _ _ _).trans (onlyCore_setTcore _ _ _), tcore_setTcore_same _ _ _⟩

/-! ### Issuing -/

/-- Core `c` issues an instruction of placement `k` where it may stand, with neither timer nor watchdog running. -/
def turfOpen (c : Nat) (k : Place) (s : State) : Prop :=
  (s.tcore c).st = .running ∧ (s.tcore c).mature.placeOk k = true ∧ s.fld (rTC_TIMER c) fTC_TIMER_EN = 0 ∧
    s.fld (rTC_LIMIT c) fTC_LIMIT_CYCLES = 0

theorem placeOk_of_free {x : Core} (k : Place) (hb : x.br = none) (hr : x.rpt = none)
    (hl : ∀ l ∈ x.loops, x.pc ≠ l.2.1 ∧ x.pc + 1 ≠ l.2.1) : x.placeOk k = true := by
  have h : x.tailSlot = false := by
    unfold Core.tailSlot
    rw [hb, Option.isSome_none, Bool.false_or, List.any_eq_false]
    intro l hm
    simp [(hl l hm).1, (hl l hm).2]
  unfold Core.placeOk
  simp [hr, h]

theorem turfReady.opened {c : Nat} {s : State} (h : turfReady c s) (k : Place) : turfOpen c k s := by
  obtain ⟨hs, hb, hr, hl, ht, hw⟩ := h
  exact ⟨hs, placeOk_of_free k (by simpa using hb) (by simpa using hr) (by simpa using hl), ht, hw⟩

/-- Core `x` as an instruction sees it that it issues. -/
def Machine.Core.issuing (x : Core) : Core := { x with after := false }

/-- What the instruction after the one core `x` issues sees of the accumulators and V, where it lags. -/
def Machine.Core.lagging (x y : Core) : Core := { y with accL := x.acc, vL := x.srBit 0 }

theorem issue_idle {s : State} {c : Nat} (k : Place) (f : Core → Issue) (h : (s.tcore c).st ≠ .running) : s.issue c k f = s := by
  unfold State.issue
  exact if_pos (by simpa using h)

theorem issue_misplaced {s : State} {c : Nat} {k : Place} (f : Core → Issue) (h : (s.tcore c).st = .running)
    (hp : (s.tcore c).mature.placeOk k = false) : s.issue c k f = s.tcFault c 2 := by
  unfold State.issue
  simp only [h, bne_self_eq_false, Bool.false_eq_true, ↓reduceIte, hp, Bool.not_false]

section
variable {s : State} {c : Nat} {k : Place} {f : Core → Issue}

/-- What core `c` does with what the instruction it issues says. -/
theorem issue_opened (h : turfOpen c k s) {r : Issue} (e : f (s.tcore c).mature.issuing = r) :
    s.issue c k f = s.issue c k fun _ => r := by
  obtain ⟨hs, hp, -, -⟩ := h
  unfold State.issue
  simp only [hs, bne_self_eq_false, Bool.false_eq_true, ↓reduceIte, hp, Bool.not_true]
  rw [← e]
  rfl

theorem issue_next (h : turfOpen c k s) {y : Core} (e : f (s.tcore c).mature.issuing = .next y) :
    onlyCore c s (s.issue c k f) ∧
      (s.issue c k f).tcore c = (Core.advance (s.tcore c).mature ((s.tcore c).mature.lagging y)).ticked 1 := by
  rw [issue_opened h e]
  obtain ⟨hs, hp, ht, hl⟩ := h
  have e1 : (s.issue c k fun _ => .next y) =
      (s.setTcore c (Core.advance (s.tcore c).mature ((s.tcore c).mature.lagging y))).tcCycle c 1 := by
    unfold State.issue
    simp only [hs, bne_self_eq_false, Bool.false_eq_true, ↓reduceIte, hp, Bool.not_true]
    rfl
  rw [e1]
  exact setTcore_ticks _ 1 ht hl

theorem issue_nextWith (h : turfOpen c k s) {y : Core} {t : State} (e : f (s.tcore c).mature.issuing = .nextWith y t)
    (ht : t.fld (rTC_TIMER c) fTC_TIMER_EN = 0) (hl : t.fld (rTC_LIMIT c) fTC_LIMIT_CYCLES = 0) :
    onlyCore c t (s.issue c k f) ∧
      (s.issue c k f).tcore c = (Core.advance (s.tcore c).mature ((s.tcore c).mature.lagging y)).ticked 1 := by
  rw [issue_opened h e]
  obtain ⟨hs, hp, -, -⟩ := h
  have e1 : (s.issue c k fun _ => .nextWith y t) =
      (t.setTcore c (Core.advance (s.tcore c).mature ((s.tcore c).mature.lagging y))).tcCycle c 1 := by
    unfold State.issue
    simp only [hs, bne_self_eq_false, Bool.false_eq_true, ↓reduceIte, hp, Bool.not_true]
    rfl
  rw [e1]
  exact setTcore_ticks _ 1 ht hl

theorem issue_wait (h : turfOpen c k s) {y : Core} {w : CWait} (e : f (s.tcore c).mature.issuing = .wait y w) :
    onlyCore c s (s.issue c k f) ∧
      (s.issue c k f).tcore c = Core.ticked { (s.tcore c).mature.lagging y with st := .stalled, wait := some w } 1 := by
  rw [issue_opened h e]
  obtain ⟨hs, hp, ht, hl⟩ := h
  have e1 : (s.issue c k fun _ => .wait y w) =
      (s.setTcore c { (s.tcore c).mature.lagging y with st := .stalled, wait := some w }).tcCycle c 1 := by
    unfold State.issue
    simp only [hs, bne_self_eq_false, Bool.false_eq_true, ↓reduceIte, hp, Bool.not_true]
    rfl
  rw [e1]
  exact setTcore_ticks _ 1 ht hl

theorem issue_sleep (h : turfOpen c k s) {y : Core} (e : f (s.tcore c).mature.issuing = .sleep y) :
    onlyCore c s (s.issue c k f) ∧
      (s.issue c k f).tcore c = ({ (s.tcore c).mature.lagging y with st := .idle }).wakeIdle.ticked 1 := by
  rw [issue_opened h e]
  obtain ⟨hs, hp, ht, hl⟩ := h
  have e1 : (s.issue c k fun _ => .sleep y) =
      (s.setTcore c ({ (s.tcore c).mature.lagging y with st := .idle }).wakeIdle).tcCycle c 1 := by
    unfold State.issue
    simp only [hs, bne_self_eq_false, Bool.false_eq_true, ↓reduceIte, hp, Bool.not_true]
    rfl
  rw [e1]
  exact setTcore_ticks _ 1 ht hl

end

/-! ### pc moves on -/

theorem loopNext_straight {x : Core} (n : Nat) (h : ∀ l ∈ x.loops, x.pc ≠ l.2.1) : x.loopNext n = { x with pc := (x.pc + 1) % 2048 } := by
  cases n with
  | zero => rfl
  | succ n =>
    unfold Core.loopNext
    split
    next st en saved rest hl => exact if_neg (h _ (hl ▸ List.mem_cons_self ..))
    next => rfl

theorem advance_straight {x y : Core} (hr : x.rpt = none) (hb : x.br = none) (h : ∀ l ∈ y.loops, y.pc ≠ l.2.1) :
    Core.advance x y = { y with pc := (y.pc + 1) % 2048 } := by
  unfold Core.advance
  rw [hr]
  unfold Core.slotNext
  rw [hb]
  exact loopNext_straight 4 h

/-- Core `x` after an instruction with effect `y` that changes neither where the run stands nor a loop that ends there. -/
def Machine.Core.moved (x y : Core) : Core :=
  { y with accL := x.acc, vL := x.srBit 0, pc := (y.pc + 1) % 2048, cycles := (y.cycles + 1) % 2 ^ 64, timer := 0 }

theorem issue_moves {s : State} {c : Nat} {k : Place} {f : Core → Issue} (h : turfReady c s) {y : Core}
    (e : f (s.tcore c).mature.issuing = .next y) (hs : y.st = .running) (hl : ∀ l ∈ y.loops, y.pc ≠ l.2.1) :
    onlyCore c s (s.issue c k f) ∧ (s.issue c k f).tcore c = (s.tcore c).mature.moved y := by
  obtain ⟨only, e1⟩ := issue_next (h.opened k) e
  refine ⟨only, e1.trans ?_⟩
  obtain ⟨-, hb, hr, -, -, -⟩ := h
  rw [advance_straight (y := (s.tcore c).mature.lagging y) (by simpa using hr) (by simpa using hb) hl]
  exact ticked_live 1 (show y.st ≠ .halted by rw [hs]; decide)

end Sys2Proof

end

section
/-! SUPPORT. The plain instructions of a Turf core: data movement, ALU and accumulators (R319 to R321, R330, Tables 14-5 and 14-8). -/

set_option Elab.async false

namespace Sys2Proof

open Sys2Proof.Machine

/-! ### One plain instruction -/

/-- The effect of a plain instruction takes a core from `x` to `y`: it has written at most the registers `W`, the accumulators `as` and sr, and
leaves behind the late writes `nl`. -/
def plainEffect (W : List LateTo) (as : List Nat) (nl : List Late) (x y : Core) : Prop :=
  (∀ i, LateTo.d i ∉ W → y.dReg i = x.dReg i) ∧ (∀ i, i ≠ 33 → LateTo.cr i ∉ W → y.crReg i = x.crReg i) ∧
    (∀ a, a ∉ as → y.accReg a = x.accReg a) ∧ (∀ t, lateTo t y.late = lateTo t ((if t ∈ W then [] else x.late) ++ nl)) ∧ y.frame = x.frame

theorem coreStep_moved {W : List LateTo} {as : List Nat} {nl : List Late} {x y : Core} (h : plainEffect W as nl x.issuing y) :
    coreStep W as nl x (x.moved y) := by
  obtain ⟨hd, hc, ha, hl, hf⟩ := h
  have hpc : y.pc = x.pc := (congrArg Core.pc hf :)
  have hcy : y.cycles = x.cycles := (congrArg Core.cycles hf :)
  have haf : y.after = false := (congrArg Core.after hf :)
  refine ⟨hd, hc, ha, hl, congrArg (fun n => (n + 1) % 2048) hpc, congrArg (fun n => (n + 1) % 2 ^ 64) hcy, haf, rfl, rfl, rfl, ?_⟩
  exact (congrArg (fun z : Core => (z.st, z.pm, z.dm, z.shadow, z.br, z.rpt, z.calls, z.loops, z.wait, z.ring, z.wptr, z.loss, z.gap, z.sendQ))
    hf :)

/-- An instruction with a plain effect completes on a core that has nothing in its way. -/
theorem turfRuns_next {i : Instr} {c : Nat} {s : State} {k : Place} {W : List LateTo} {as : List Nat} {nl : Core → List Late} {sr : Core → Nat}
    {P : Core → Core → Prop} {f : Core → Core} (h : turfReady c s) (he : exec i s = .next (s.issue c k fun x => .next (f x)))
    (hf : ∀ x, plainEffect W as (nl x) x (f x)) (hsr : ∀ x, (f x).sr = sr x) (hP : ∀ x, P x (f x))
    (hnl : ∀ x, nl x.issuing = nl x := by exact fun _ => rfl) (hsi : ∀ x, sr x.issuing = sr x := by exact fun _ => rfl)
    (hPm : ∀ x y, P (Core.issuing x) y → P x (Core.moved x y) := by exact fun _ _ h => h) : turfRuns i c s W as nl sr P := by
  have hx := hf (s.tcore c).mature.issuing
  rw [hnl] at hx
  have hst : (f (s.tcore c).mature.issuing).st = .running := (congrArg Core.st hx.2.2.2.2 :).trans ((mature_st _).trans h.1)
  have hpc : (f (s.tcore c).mature.issuing).pc = (s.tcore c).pc := (congrArg Core.pc hx.2.2.2.2 :).trans (mature_pc _)
  have hlo : (f (s.tcore c).mature.issuing).loops = (s.tcore c).loops := (congrArg Core.loops hx.2.2.2.2 :).trans (mature_loops _)
  obtain ⟨only, e⟩ := issue_moves (k := k) (f := fun x => .next (f x)) h rfl hst
    (fun l hl => by rw [hpc]; exact (h.2.2.2.1 l (hlo ▸ hl)).1)
  refine ⟨_, he, only, ?_⟩
  rw [e]
  exact ⟨coreStep_moved hx, (hsr _).trans (hsi _), hPm _ _ (hP _)⟩

theorem turfRuns_plain {i : Instr} {c : Nat} {s : State} {W : List LateTo} {as : List Nat} {nl : Core → List Late} {sr : Core → Nat}
    {P : Core → Core → Prop} {f : Core → Core} (h : turfReady c s) (he : exec i s = .next (s.issuePlain c f))
    (hf : ∀ x, plainEffect W as (nl x) x (f x)) (hsr : ∀ x, (f x).sr = sr x) (hP : ∀ x, P x (f x))
    (hnl : ∀ x, nl x.issuing = nl x := by exact fun _ => rfl) (hsi : ∀ x, sr x.issuing = sr x := by exact fun _ => rfl)
    (hPm : ∀ x y, P (Core.issuing x) y → P x (Core.moved x y) := by exact fun _ _ h => h) : turfRuns i c s W as nl sr P :=
  turfRuns_next (k := .plain) h he hf hsr hP hnl hsi hPm

/-! ### Arithmetic of the registers -/

theorem toNat_mod16 (v : BitVec 16) : v.toNat % 2 ^ 16 = v.toNat := Nat.mod_eq_of_lt v.isLt

theorem ofSigned_lt (n : Nat) (v : Int) : ofSigned n v < 2 ^ n := by
  have h0 := Int.emod_nonneg v (show (2 : Int) ^ n ≠ 0 by positivity)
  have h1 := Int.emod_lt_of_pos v (show (0 : Int) < 2 ^ n by positivity)
  unfold ofSigned
  zify
  rw [Int.toNat_of_nonneg h0]
  exact h1

@[simp] theorem ofSigned_mod (v : Int) : ofSigned 16 v % 2 ^ 16 = ofSigned 16 v := Nat.mod_eq_of_lt (ofSigned_lt 16 v)

/-- A signed number that fits survives the way into a register and back. -/
theorem toSigned_ofSigned {v : Int} (h0 : -(2 ^ 15) ≤ v) (h1 : v < 2 ^ 15) : toSigned 16 (ofSigned 16 v) = v := by
  unfold toSigned ofSigned
  split <;> omega

theorem toSigned_range (v : Nat) : -(2 ^ 15) ≤ toSigned 16 v ∧ toSigned 16 v < 2 ^ 15 := by
  unfold toSigned
  split <;> omega

theorem stepPtr_lt (p b l : Nat) (st : Int) : stepPtr p b l st < 8192 := by
  unfold stepPtr
  dsimp only
  split
  · omega
  · exact Nat.mod_lt _ (by decide)

/-- A pointer keeps what its address update gives. -/
theorem stepPtr_masked (p b l : Nat) (st : Int) (k : Fin 8) : stepPtr p b l st &&& crMask k = stepPtr p b l st := by
  have hk : crMask k = 2 ^ 13 - 1 := if_pos (by omega)
  rw [hk, Nat.and_two_pow_sub_one_eq_mod]
  exact Nat.mod_eq_of_lt (stepPtr_lt _ _ _ _)

theorem p_modify (x : Core) (k : Fin 8) (am : Nat) : (x.modify k am).p k = stepPtr (x.p k) (x.b k) (x.l k) (x.step k am) := by
  unfold Core.modify Core.p
  rw [crReg_setCr, if_pos rfl, stepPtr_masked]

/-! ### Flags (Table 14-5) -/

/-- The bits of `s`, with those of `m` replaced by those of `v`, as sr takes them. -/
def mergeBits (s m v : Nat) : Nat := s - (s &&& m) + (v &&& m)

theorem mergeBits_parts (s m v : Nat) :
    mergeBits s m v % 2 = (if m % 2 = 1 then v % 2 else s % 2) ∧ mergeBits s m v / 2 = mergeBits (s / 2) (m / 2) (v / 2) := by
  have hs : s &&& m ≤ s := Nat.and_le_left
  have hs' : s / 2 &&& m / 2 ≤ s / 2 := Nat.and_le_left
  have d1 : (s &&& m) / 2 = s / 2 &&& m / 2 := Nat.and_div_two
  have d2 : (v &&& m) / 2 = v / 2 &&& m / 2 := Nat.and_div_two
  have b1 : (s &&& m) % 2 = 1 ↔ s % 2 = 1 ∧ m % 2 = 1 := Nat.and_mod_two_eq_one
  have b2 : (v &&& m) % 2 = 1 ↔ v % 2 = 1 ∧ m % 2 = 1 := Nat.and_mod_two_eq_one
  unfold mergeBits
  rw [← d1, ← d2] at *
  generalize s &&& m = a at *
  generalize v &&& m = b at *
  by_cases h : m % 2 = 1
  · simp only [h, and_true, ↓reduceIte] at *
    omega
  · simp only [h, and_false, iff_false, ↓reduceIte] at *
    omega

/-- A merged number bit by bit. -/
theorem testBit_mergeBits (s m v i : Nat) : (mergeBits s m v).testBit i = if m.testBit i then v.testBit i else s.testBit i := by
  induction i generalizing s m v with
  | zero =>
    simp only [Nat.testBit_zero, (mergeBits_parts s m v).1, decide_eq_true_eq]
    split <;> rfl
  | succ i ih =>
    simp only [Nat.testBit_succ, (mergeBits_parts s m v).2]
    exact ih _ _ _

theorem srBit_testBit (x : Core) (i : Nat) : x.srBit i = x.sr.testBit i := by
  unfold Core.srBit
  rw [Nat.testBit_eq_decide_div_mod_eq]
  exact beq_eq_decide _ _

/-- A write of the bits `m` of sr sets those and leaves every other. -/
theorem srBit_setSr (x : Core) (m v i : Nat) : (x.setSr m v).srBit i = if m.testBit i then v.testBit i else x.srBit i := by
  rw [srBit_testBit, srBit_testBit, sr_setSr]
  exact testBit_mergeBits _ _ _ _

/-- A mask of five bits holds no bit but those it has below the fifth. -/
theorem testBit_mask {m i : Nat} (hm : m < 2 ^ 5) (h : ∀ j < 5, m.testBit j = true → i ≠ j) : m.testBit i = false := by
  by_cases hi : i < 5
  · by_contra hb
    exact h i hi (by simpa using hb) rfl
  · exact Nat.testBit_lt_two_pow (hm.trans_le (Nat.pow_le_pow_right (by decide) (by omega)))

theorem testBit_four_eight (a b : Bool) : (4 * b2n a + 8 * b2n b).testBit 2 = a ∧ (4 * b2n a + 8 * b2n b).testBit 3 = b := by
  cases a <;> cases b <;> decide

theorem testBit_four_eight_sixteen (a b c : Bool) : (4 * b2n a + 8 * b2n b + 16 * b2n c).testBit 2 = a ∧
    (4 * b2n a + 8 * b2n b + 16 * b2n c).testBit 3 = b ∧ (4 * b2n a + 8 * b2n b + 16 * b2n c).testBit 4 = c := by
  cases a <;> cases b <;> cases c <;> decide

theorem srBit_flagsZN (x : Core) (v : Nat) :
    (x.flagsZN v).srBit 2 = (v % 2 ^ 16 == 0) ∧ (x.flagsZN v).srBit 3 = (v / 2 ^ 15 % 2 == 1) ∧
      ∀ i, i ≠ 2 → i ≠ 3 → (x.flagsZN v).srBit i = x.srBit i := by
  unfold Core.flagsZN
  simp only [srBit_setSr]
  obtain ⟨hz, hn⟩ := testBit_four_eight (v % 2 ^ 16 == 0) (v / 2 ^ 15 % 2 == 1)
  refine ⟨(if_pos (by decide)).trans hz, (if_pos (by decide)).trans hn, fun i h2 h3 => if_neg ?_⟩
  rw [testBit_mask (by decide) (by
    intro j hj hm
    interval_cases j <;> simp_all [Nat.testBit])]
  decide

theorem srBit_flagsZNC (x : Core) (v : Nat) (c : Bool) :
    (x.flagsZNC v c).srBit 2 = (v % 2 ^ 16 == 0) ∧ (x.flagsZNC v c).srBit 3 = (v / 2 ^ 15 % 2 == 1) ∧ (x.flagsZNC v c).srBit 4 = c ∧
      ∀ i, i ≠ 2 → i ≠ 3 → i ≠ 4 → (x.flagsZNC v c).srBit i = x.srBit i := by
  unfold Core.flagsZNC
  simp only [srBit_setSr]
  obtain ⟨hz, hn, hc⟩ := testBit_four_eight_sixteen (v % 2 ^ 16 == 0) (v / 2 ^ 15 % 2 == 1) c
  refine ⟨(if_pos (by decide)).trans hz, (if_pos (by decide)).trans hn, (if_pos (by decide)).trans hc, fun i h2 h3 h4 => if_neg ?_⟩
  rw [testBit_mask (by decide) (by
    intro j hj hm
    interval_cases j <;> simp_all [Nat.testBit])]
  decide

/-- A sticky bit sets, and no other changes. -/
theorem srBit_stick (x : Core) (k : Nat) (c : Bool) :
    (x.stick (2 ^ k) c).srBit k = (c || x.srBit k) ∧ ∀ i, i ≠ k → (x.stick (2 ^ k) c).srBit i = x.srBit i := by
  unfold Core.stick
  cases c
  case false => exact ⟨rfl, fun _ _ => rfl⟩
  case true =>
    simp only [↓reduceIte, srBit_setSr, Nat.testBit_two_pow, decide_true, Bool.true_or, true_and]
    exact fun i h => if_neg (by simpa using fun e => h e.symm)

theorem sr_flagsZN (x : Core) (v : Nat) :
    (x.flagsZN v).sr = mergeBits x.sr (srZ + srN) (srZ * b2n (v % 2 ^ 16 == 0) + srN * b2n (v / 2 ^ 15 % 2 == 1)) := sr_setSr ..

theorem sr_flagsZNC (x : Core) (v : Nat) (c : Bool) : (x.flagsZNC v c).sr =
    mergeBits x.sr (srZ + srN + srC) (srZ * b2n (v % 2 ^ 16 == 0) + srN * b2n (v / 2 ^ 15 % 2 == 1) + srC * b2n c) := sr_setSr ..

theorem sr_stick (x : Core) (m : Nat) (c : Bool) : (x.stick m c).sr = if c then mergeBits x.sr m m else x.sr := by
  cases c
  · rfl
  · exact sr_setSr ..

theorem sr_issuing_stick (x : Core) (m : Nat) (c : Bool) : (x.issuing.stick m c).sr = (x.stick m c).sr := by
  rw [sr_stick, sr_stick]
  rfl

theorem sr_issuing_stick_flagsZN (x : Core) (m : Nat) (c : Bool) (v : Nat) :
    ((x.issuing.stick m c).flagsZN v).sr = ((x.stick m c).flagsZN v).sr := by
  rw [sr_flagsZN, sr_flagsZN, sr_issuing_stick]

theorem flags_mod16 (v : Nat) : (v % 2 ^ 16) % 2 ^ 16 = v % 2 ^ 16 ∧ v % 2 ^ 16 / 2 ^ 15 % 2 = v / 2 ^ 15 % 2 := by
  omega

/-! ### Building an effect -/

section
variable {W : List LateTo} {as : List Nat} {nl : List Late} {x y : Core}

theorem plainEffect.refl (x : Core) : plainEffect [] as [] x x :=
  ⟨fun _ _ => rfl, fun _ _ _ => rfl, fun _ _ => rfl, fun t => by simp, rfl⟩

theorem plainEffect.setD {i : Nat} (v : Nat) (h : plainEffect W as nl x y) (hn : ∀ e ∈ nl, e.dst ≠ .d i := by simp) :
    plainEffect (.d i :: W) as nl x (y.setD i v) := by
  obtain ⟨hd, hc, ha, hl, hf⟩ := h
  refine ⟨fun j hj => ?_, fun j h3 hj => hc j h3 fun hm => hj (List.mem_cons_of_mem _ hm), ha, fun t => ?_, hf⟩
  · have hji : j ≠ i := fun e => hj (e ▸ List.mem_cons_self ..)
    rw [dReg_setD, if_neg hji]
    exact hd j fun hm => hj (List.mem_cons_of_mem _ hm)
  · rw [lateTo_setD, hl]
    by_cases ht : t = .d i
    · simp only [ht, ↓reduceIte, List.mem_cons, true_or, List.nil_append]
      unfold lateTo
      rw [List.filter_eq_nil_iff.mpr fun e he => by simpa using hn e he]
      rfl
    · simp [ht]

theorem plainEffect.setCr {i : Nat} (v : Nat) (h : plainEffect W as nl x y) (hn : ∀ e ∈ nl, e.dst ≠ .cr i := by simp) :
    plainEffect (.cr i :: W) as nl x (y.setCr i v) := by
  obtain ⟨hd, hc, ha, hl, hf⟩ := h
  refine ⟨fun j hj => hd j fun hm => hj (List.mem_cons_of_mem _ hm), fun j h3 hj => ?_, ha, fun t => ?_, hf⟩
  · have hji : j ≠ i := fun e => hj (e ▸ List.mem_cons_self ..)
    rw [crReg_setCr, if_neg hji]
    exact hc j h3 fun hm => hj (List.mem_cons_of_mem _ hm)
  · rw [lateTo_setCr, hl]
    by_cases ht : t = .cr i
    · simp only [ht, ↓reduceIte, List.mem_cons, true_or, List.nil_append]
      unfold lateTo
      rw [List.filter_eq_nil_iff.mpr fun e he => by simpa using hn e he]
      rfl
    · simp [ht]

theorem plainEffect.modify {k : Nat} (am : Nat) (h : plainEffect W as nl x y) (hn : ∀ e ∈ nl, e.dst ≠ .cr k := by simp) :
    plainEffect (.cr k :: W) as nl x (y.modify k am) := h.setCr _ hn

theorem plainEffect.setSr (m v : Nat) (h : plainEffect W as nl x y) : plainEffect W as nl x (y.setSr m v) := by
  obtain ⟨hd, hc, ha, hl, hf⟩ := h
  exact ⟨hd, fun j h3 hj => (crReg_setSr_other _ _ _ _ h3).trans (hc j h3 hj), ha, fun t => (lateTo_setSr ..).trans (hl t), hf⟩

theorem plainEffect.flagsZN (v : Nat) (h : plainEffect W as nl x y) : plainEffect W as nl x (y.flagsZN v) := h.setSr _ _

theorem plainEffect.flagsZNC (v : Nat) (c : Bool) (h : plainEffect W as nl x y) : plainEffect W as nl x (y.flagsZNC v c) := h.setSr _ _

theorem plainEffect.stick (b : Nat) (c : Bool) (h : plainEffect W as nl x y) : plainEffect W as nl x (y.stick b c) := by
  cases c
  · exact h
  · exact h.setSr _ _

theorem plainEffect.putSat {i : Nat} (r : Int × Bool) (h : plainEffect W as nl x y) (hn : ∀ e ∈ nl, e.dst ≠ .d i := by simp) :
    plainEffect (.d i :: W) as nl x (y.putSat i r) := ((h.setD _ hn).stick _ _).flagsZN _

theorem plainEffect.setAcc {a : Nat} (v : Int) (h : plainEffect W as nl x y) (ha : a ∈ as := by simp) :
    plainEffect W as nl x (y.setAcc a v) := by
  obtain ⟨hd, hc, hacc, hl, hf⟩ := h
  refine ⟨hd, hc, fun b hb => ?_, hl, hf⟩
  rw [accReg_setAcc, if_neg fun e : b = a => hb (e ▸ ha)]
  exact hacc b hb

theorem plainEffect.accPut {a : Nat} (v : Int) (h : plainEffect W as nl x y) (ha : a ∈ as := by simp) :
    plainEffect W as nl x (y.accPut a v) := (h.setAcc _ ha).stick _ _

theorem plainEffect.later (n : Nat) (t : LateTo) (v : Nat) (h : plainEffect W as nl x y) :
    plainEffect W as (nl ++ [⟨n, t, v, 0xFFFF⟩]) x (y.later n t v) := by
  obtain ⟨hd, hc, ha, hl, hf⟩ := h
  refine ⟨hd, hc, ha, fun q => ?_, hf⟩
  rw [late_later, lateTo_append, hl, ← List.append_assoc, lateTo_append q (_ ++ nl)]

theorem plainEffect.storeDm (w v : Nat) (h : plainEffect W as nl x y) :
    plainEffect W as (nl ++ [⟨2, .dm (w % 8192), v % 2 ^ 16, 0xFFFF⟩]) x (y.storeDm w v) := h.later _ _ _

theorem plainEffect.loadD (i v : Nat) (h : plainEffect W as nl x y) :
    plainEffect W as (nl ++ [⟨2, .d i, v % 2 ^ 16, 0xFFFF⟩]) x (y.loadD i v) := h.later _ _ _

/-- The order in which the written registers are named does not matter. -/
theorem plainEffect.swap {p q : LateTo} (h : plainEffect [p, q] as nl x y) : plainEffect [q, p] as nl x y := by
  have hm : ∀ t, t ∈ [q, p] ↔ t ∈ [p, q] := fun t => by simp [or_comm]
  simpa only [plainEffect, hm] using h

end

/-! ### What results read -/

@[simp] theorem dReg_flagsZN (x : Core) (v i : Nat) : (x.flagsZN v).dReg i = x.dReg i := rfl
@[simp] theorem dReg_flagsZNC (x : Core) (v : Nat) (c : Bool) (i : Nat) : (x.flagsZNC v c).dReg i = x.dReg i := rfl
@[simp] theorem dReg_modify (x : Core) (k am i : Nat) : (x.modify k am).dReg i = x.dReg i := rfl
@[simp] theorem accReg_modify (x : Core) (k am a : Nat) : (x.modify k am).accReg a = x.accReg a := rfl

@[simp] theorem dReg_stick (x : Core) (m : Nat) (c : Bool) (i : Nat) : (x.stick m c).dReg i = x.dReg i := by
  cases c <;> rfl

@[simp] theorem accReg_stick (x : Core) (m : Nat) (c : Bool) (a : Nat) : (x.stick m c).accReg a = x.accReg a := by
  cases c <;> rfl

theorem sr_modify (x : Core) (k : Fin 8) (am : Nat) : (x.modify k am).sr = x.sr := sr_setCr _ _ _ (by omega)

theorem dReg_putSat (x : Core) (i : Nat) (r : Int × Bool) : (x.putSat i r).dReg i = ofSigned 16 r.1 := by
  unfold Core.putSat
  rw [dReg_flagsZN, dReg_stick, dReg_setD, if_pos rfl, ofSigned_mod]

theorem sr_putSat (x : Core) (i : Nat) (r : Int × Bool) : (x.putSat i r).sr = ((x.stick srS r.2).flagsZN (ofSigned 16 r.1)).sr := by
  unfold Core.putSat
  simp only [sr_flagsZN, sr_stick, sr_setD]

theorem accReg_accPut (x : Core) (a : Nat) (v : Int) : (x.accPut a v).accReg a = (x.accw v).1 :=
  (accReg_stick ..).trans ((accReg_setAcc ..).trans (if_pos rfl))

theorem sr_accPut (x : Core) (a : Nat) (v : Int) : (x.accPut a v).sr = (x.stick srV (x.accw v).2).sr :=
  (sr_stick ..).trans ((congrArg (fun n => if (x.accw v).2 then mergeBits n srV srV else n) (sr_setAcc ..)).trans (sr_stick ..).symm)

theorem sr_flagsZNC_mod (x : Core) (i v v' : Nat) (c : Bool) (h : v' = v % 2 ^ 16) :
    ((x.setD i v').flagsZNC v' c).sr = (x.flagsZNC v c).sr := by
  subst h
  simp only [sr_flagsZNC, sr_setD, flags_mod16]

theorem sr_flagsZNC_mod16 (x : Core) (v : Nat) (c : Bool) : (x.flagsZNC (v % 2 ^ 16) c).sr = (x.flagsZNC v c).sr := by
  simp only [sr_flagsZNC, flags_mod16]

theorem sr_flagsZN_setD (x : Core) (i v w : Nat) : ((x.setD i w).flagsZN v).sr = (x.flagsZN v).sr := by
  simp only [sr_flagsZN, sr_setD]

/-! ### Pointers (R320) -/

/-- The pointer `k` of core `x` one address update on. -/
def nextPtr (x : Core) (k am : Nat) : Nat := stepPtr (x.p k) (x.b k) (x.l k) (x.step k am)

theorem step_congr {x y : Core} {k : Nat} (h : y.crReg (8 + k) = x.crReg (8 + k)) (am : Nat) : y.step k am = x.step k am := by
  unfold Core.step Core.n
  rw [h]

section
variable {as : List Nat} {nl : List Late} {x y : Core}

/-- An address update after an effect that writes no control register but sr. -/
theorem p_modify_after (h : plainEffect [] as nl x y) (k : Fin 8) (am : Nat) : (y.modify k am).p k = nextPtr x k am := by
  have hc : ∀ i, i ≠ 33 → y.crReg i = x.crReg i := fun i hi => h.2.1 i hi (List.not_mem_nil)
  rw [p_modify, step_congr (hc _ (by omega))]
  unfold Core.p Core.b Core.l
  rw [hc _ (by omega), hc _ (by omega), hc _ (by omega)]
  rfl

/-- Two address updates after one another: of one pointer the second goes on from the first. -/
theorem p_modify_modify (h : plainEffect [] as nl x y) (px py : Fin 8) (am an : Nat) :
    ((y.modify px am).modify py an).p py = stepPtr (if px = py then nextPtr x px am else x.p py) (x.b py) (x.l py) (x.step py an) ∧
      (px ≠ py → ((y.modify px am).modify py an).p px = nextPtr x px am) := by
  have hc : ∀ i, i ≠ 33 → y.crReg i = x.crReg i := fun i hi => h.2.1 i hi (List.not_mem_nil)
  have hm : ∀ i, i ≠ 33 → i ≠ px.val → (y.modify px am).crReg i = x.crReg i := fun i hi hp =>
    (crReg_setCr ..).trans ((if_neg hp).trans (hc i hi))
  constructor
  · rw [p_modify, step_congr (hm _ (by omega) (by omega))]
    have hb : (y.modify px am).b py = x.b py := hm _ (by omega) (by omega)
    have hl : (y.modify px am).l py = x.l py := hm _ (by omega) (by omega)
    rw [hb, hl]
    split
    case isTrue e => rw [← e, p_modify_after h]
    case isFalse e => rw [show (y.modify px am).p py = x.p py from hm _ (by omega) (by omega)]
  · intro e
    refine ((crReg_setCr ..).trans (if_neg ?_)).trans (p_modify_after h px am)
    omega

end

/-! ### Shifts and clamps -/

theorem sat16_abs (x : Core) (a : Nat) : sat16 (if x.dInt a < 0 then -x.dInt a else x.dInt a) =
    (((min (x.dInt a).natAbs 0x7FFF : Nat) : Int), x.dReg a % 2 ^ 16 == 0x8000) := by
  unfold sat16 satS Core.dInt toSigned
  refine Prod.ext ?_ (Bool.eq_iff_iff.mpr ?_)
  · dsimp only
    split_ifs <;> omega
  · simp only [bne_iff_ne, ne_eq, beq_iff_eq]
    split_ifs <;> omega

theorem ofSigned_natCast {n : Nat} (h : n < 2 ^ 16) : ofSigned 16 (n : Int) = n := by
  unfold ofSigned
  omega

theorem crValue_mod (x : Core) (r : Nat) : x.crValue r % 2 ^ 16 =
    if 8 ≤ r ∧ r < 16 then ofSigned 16 (toSigned 13 (x.crReg r)) else if r < 36 then x.crReg r % 2 ^ 16 else Config.crOpen r % 2 ^ 16 := by
  unfold Core.crValue
  by_cases h : 8 ≤ r ∧ r < 16
  · rw [if_pos (by simpa using h), if_pos h, ofSigned_mod]
    unfold Core.n
    rw [show 8 + (r - 8) = r by omega]
  · rw [if_neg (by simpa using h), if_neg h]
    split
    · rfl
    · exact Nat.mod_mod ..

end Sys2Proof

end

section
/-! SUPPORT. The data movement and ALU instructions of a Turf core (chapter 14, Table 14-8). -/

set_option Elab.async false

namespace Sys2Proof

open Sys2Proof.Machine

/-! ### The arithmetic shift (R330) -/

theorem ash_up (x : Core) (v : Int) {k : Nat} (h : k < 16) : x.ash v k = (satS 16 (v * 2 ^ k), satS 16 (v * 2 ^ k) != v * 2 ^ k) := by
  unfold Core.ash
  have hk : (if (k : Int) < -16 then -16 else if 15 < (k : Int) then 15 else (k : Int)) = k := by
    split_ifs <;> omega
  simp only [hk, Int.toNat_natCast, if_pos (Int.natCast_nonneg k)]
  rfl

theorem ash_down (x : Core) (v : Int) {k : Nat} (h0 : 1 ≤ k) (h1 : k ≤ 16) : x.ash v (-k) = (rndBy x.rndMode v k, false) := by
  unfold Core.ash
  have hk : (if (-k : Int) < -16 then -16 else if 15 < (-k : Int) then 15 else (-k : Int)) = -k := by
    split_ifs <;> omega
  have hn : ¬ (0 : Int) ≤ -k := by omega
  simp only [hk, if_neg hn, Int.neg_neg, Int.toNat_natCast]

theorem ash_above (x : Core) (v : Int) {n : Int} (h : 16 ≤ n) : x.ash v n = x.ash v 15 := by
  unfold Core.ash
  have hk : (if n < -16 then (-16 : Int) else if 15 < n then 15 else n) = 15 := by
    split_ifs <;> omega
  simp only [hk]
  rfl

theorem ash_below (x : Core) (v : Int) {n : Int} (h : n ≤ -16) : x.ash v n = x.ash v (-16) := by
  unfold Core.ash
  have hk : (if n < -16 then (-16 : Int) else if 15 < n then 15 else n) = -16 := by
    split_ifs <;> omega
  simp only [hk]
  rfl

theorem rndBy_floor (v : Int) {k : Nat} (h : 1 ≤ k) : rndBy 0 v k = v / 2 ^ k := by
  unfold rndBy
  rw [if_neg (by omega), if_pos rfl]

theorem rndBy_halfUp (v : Int) {m k : Nat} (hm : m = 1 ∨ m = 3) (h : 1 ≤ k) : rndBy m v k = (v + 2 ^ (k - 1)) / 2 ^ k := by
  unfold rndBy rndHalfUp
  rw [if_neg (by omega), if_neg (by omega), if_neg (by omega), if_neg (by omega)]

theorem ash_spec (x : Core) (v n : Int) :
    (∀ k : Nat, n = k → k < 16 → x.ash v n = (satS 16 (v * 2 ^ k), satS 16 (v * 2 ^ k) != v * 2 ^ k)) ∧
    (16 ≤ n → x.ash v n = x.ash v 15) ∧ (n ≤ -16 → x.ash v n = x.ash v (-16)) ∧
    (∀ k : Nat, n = -k → 1 ≤ k → k ≤ 16 → x.rndMode = 0 → x.ash v n = (v / 2 ^ k, false)) ∧
    (∀ k : Nat, n = -k → 1 ≤ k → k ≤ 16 → (x.rndMode = 1 ∨ x.rndMode = 3) → x.ash v n = ((v + 2 ^ (k - 1)) / 2 ^ k, false)) := by
  refine ⟨fun k e h => e ▸ ash_up x v h, ash_above x v, ash_below x v, fun k e h0 h1 hm => ?_, fun k e h0 h1 hm => ?_⟩
  · rw [e, ash_down x v h0 h1, hm, rndBy_floor v h0]
  · rw [e, ash_down x v h0 h1, rndBy_halfUp v hm h0]

/-! ### The flags -/

theorem flags_spec (x : Core) (v : Nat) (c : Bool) :
    ((x.flagsZNC v c).srBit 2 = (v % 2 ^ 16 == 0)) ∧ ((x.flagsZNC v c).srBit 3 = (v / 2 ^ 15 % 2 == 1)) ∧ ((x.flagsZNC v c).srBit 4 = c) ∧
    (∀ i, i ≠ 2 → i ≠ 3 → i ≠ 4 → (x.flagsZNC v c).srBit i = x.srBit i) ∧
    ((x.flagsZN v).srBit 2 = (v % 2 ^ 16 == 0)) ∧ ((x.flagsZN v).srBit 3 = (v / 2 ^ 15 % 2 == 1)) ∧
    (∀ i, i ≠ 2 → i ≠ 3 → (x.flagsZN v).srBit i = x.srBit i) ∧
    (x.stick srS c).srBit 1 = (c || x.srBit 1) ∧ (∀ i, i ≠ 1 → (x.stick srS c).srBit i = x.srBit i) := by
  obtain ⟨a2, a3, a4, ar⟩ := srBit_flagsZNC x v c
  obtain ⟨b2, b3, br⟩ := srBit_flagsZN x v
  obtain ⟨cs, cr⟩ := srBit_stick x 1 c
  exact ⟨a2, a3, a4, ar, b2, b3, br, cs, cr⟩

/-! ### The instructions -/

theorem plainEffect_loadCr (x : Core) (r v : Nat) :
    plainEffect [] [] (if r < 36 then [⟨3, .cr r, v, 0xFFFF⟩] else []) x (x.loadCr r v) := by
  unfold Core.loadCr
  split
  · exact (plainEffect.refl x).later _ _ _
  · exact .refl x

theorem crReg_loadCr (x : Core) (r v i : Nat) : (x.loadCr r v).crReg i = x.crReg i := by
  unfold Core.loadCr
  split <;> rfl

/-- An ADD, SUB, AND, OR or XOR leaves its result and the flags of it. -/
theorem plainEffect_result (x : Core) (d v : Nat) : plainEffect [.d d] [] [] x ((x.setD d v).flagsZN v) :=
  ((plainEffect.refl x).setD v).flagsZN v

theorem plainEffect_sum (x : Core) (d v : Nat) (c : Bool) : plainEffect [.d d] [] [] x ((x.setD d v).flagsZNC v c) :=
  ((plainEffect.refl x).setD v).flagsZNC v c

theorem dReg_result (x : Core) (d v : Nat) : ((x.setD d v).flagsZN v).dReg d = v % 2 ^ 16 :=
  (dReg_setD ..).trans (if_pos rfl)

theorem dReg_sum (x : Core) (d v : Nat) (c : Bool) : ((x.setD d (v % 2 ^ 16)).flagsZNC (v % 2 ^ 16) c).dReg d = v % 2 ^ 16 :=
  (dReg_setD ..).trans ((if_pos rfl).trans (Nat.mod_mod ..))

/-- A core that is not RUNNING issues no plain instruction. -/
theorem issuePlain_idle {s : State} {c : Nat} (h : (s.tcore c).st ≠ .running) (f : Core → Core) : s.issuePlain c f = s :=
  issue_idle .plain _ h

/-- Settles O37: each plain instruction is a few register writes, and what its result reads follows from the last of them. -/
theorem turfMovesAndAlu : Obligations.TurfMovesAndAlu := by
  unfold Obligations.TurfMovesAndAlu
  refine ⟨?_, ?_, ?_, ?_, ?_, ?_, ?_, ?_, ?_, ?_, ?_, ?_, ?_, ?_, ?_, ?_, ?_, ?_, ?_, flags_spec, fun x v n _ _ => ash_spec x v n, ?_⟩
  · intro c s h
    exact turfRuns_plain h rfl .refl (fun _ => rfl) fun _ => trivial
  · intro c d imm s h
    exact turfRuns_plain h rfl (fun x => (plainEffect.refl x).setD _) (fun _ => rfl) fun x =>
      (dReg_setD ..).trans ((if_pos rfl).trans (toNat_mod16 imm))
  · intro c d p am s h
    refine turfRuns_plain h rfl (fun x => ((plainEffect.refl x).loadD _ _).modify _) (fun x => sr_modify _ p am) fun x => ⟨rfl, ?_⟩
    exact p_modify_after (as := []) ((plainEffect.refl x).loadD _ _) p am
  · intro c d p am s h
    refine turfRuns_plain h rfl (fun x => ((plainEffect.refl x).storeDm _ _).modify _) (fun x => sr_modify _ p am) fun x => ?_
    exact p_modify_after (as := []) ((plainEffect.refl x).storeDm _ _) p am
  · intro c d a s h
    exact turfRuns_plain h rfl (fun x => (plainEffect.refl x).setD _) (fun _ => rfl) fun x => (dReg_setD ..).trans (if_pos rfl)
  · intro c d r s h
    exact turfRuns_plain h rfl (fun x => (plainEffect.refl x).setD _) (fun _ => rfl) fun x =>
      (dReg_setD ..).trans ((if_pos rfl).trans (crValue_mod x r))
  · intro c r d s h
    exact turfRuns_plain h rfl (fun x => plainEffect_loadCr x r _) (fun x => crReg_loadCr x r _ 33) fun x => crReg_loadCr x r _ r
  · intro c r imm s h
    exact turfRuns_plain h rfl (fun x => plainEffect_loadCr x r _) (fun x => crReg_loadCr x r _ 33) fun x => crReg_loadCr x r _ r
  · intro c d a b s h
    exact turfRuns_plain h rfl (fun x => plainEffect_sum x d _ _) (fun x => sr_flagsZNC_mod x d _ _ _ rfl) fun x => dReg_sum x d _ _
  · intro c d a b s h
    exact turfRuns_plain h rfl (fun x => plainEffect_sum x d _ _) (fun x => sr_flagsZNC_mod x d _ _ _ rfl) fun x => dReg_sum x d _ _
  · intro c d a b s h
    exact turfRuns_plain h rfl (fun x => plainEffect_result x d _) (fun x => sr_flagsZN_setD x d _ _) fun x => dReg_result x d _
  · intro c d a b s h
    exact turfRuns_plain h rfl (fun x => plainEffect_result x d _) (fun x => sr_flagsZN_setD x d _ _) fun x => dReg_result x d _
  · intro c d a b s h
    exact turfRuns_plain h rfl (fun x => plainEffect_result x d _) (fun x => sr_flagsZN_setD x d _ _) fun x => dReg_result x d _
  · intro c d imm s h
    exact turfRuns_plain h rfl (fun x => plainEffect_sum x d _ _) (fun x => sr_flagsZNC_mod x d _ _ _ rfl) fun x => dReg_sum x d _ _
  · intro c d a b s h
    exact turfRuns_plain h rfl (fun x => (plainEffect.refl x).putSat _) (fun x => sr_putSat x d _) (fun x => dReg_putSat x d _)
      (hsi := fun x => sr_issuing_stick_flagsZN x _ _ _)
  · intro c d a n s h
    exact turfRuns_plain h rfl (fun x => (plainEffect.refl x).putSat _) (fun x => sr_putSat x d _) (fun x => dReg_putSat x d _)
      (hsi := fun x => sr_issuing_stick_flagsZN x _ _ _)
  · intro c a b s h
    exact turfRuns_plain h rfl (fun x => (plainEffect.refl x).flagsZNC _ _) (fun x => sr_flagsZNC_mod16 x _ _) fun _ => trivial
  · intro c d a s h
    refine turfRuns_plain h rfl (fun x => (plainEffect.refl x).putSat _) (fun x => ?_) (fun x => ?_)
      (hsi := fun x => sr_issuing_stick_flagsZN x _ _ _)
    · rw [sr_putSat, sat16_abs, ofSigned_natCast (by omega)]
    · rw [dReg_putSat, sat16_abs, ofSigned_natCast (by omega)]
  · intro c px amx py amy s h
    exact turfRuns_plain h rfl (fun x => ((((plainEffect.refl x).storeDm _ _).modify _).modify _).swap)
      (fun x => (sr_modify _ py amy).trans (sr_modify _ px amx)) fun x =>
        p_modify_modify (as := []) ((plainEffect.refl x).storeDm _ _) px py amx amy
  · intro c d a b p q am an r imm n s h i hi
    have hp : ∀ f, Host.Outcome.next (s.issuePlain c f) = (Host.Outcome.next s : Host.Outcome State Fault Refusal) := fun f =>
      congrArg _ (issuePlain_idle h f)
    simp only [List.mem_cons, List.not_mem_nil, or_false] at hi
    rcases hi with rfl | rfl | rfl | rfl | rfl | rfl | rfl | rfl | rfl | rfl | rfl | rfl | rfl | rfl | rfl | rfl | rfl | rfl | rfl <;>
      exact hp _

end Sys2Proof

end

section
/-! SUPPORT. The multiply-accumulate and accumulator instructions of a Turf core (chapter 14, R330). -/

set_option Elab.async false

namespace Sys2Proof

open Sys2Proof.Machine

/-! ### Accumulators -/

theorem toSigned_range40 (v : Nat) : -(2 ^ 39) ≤ toSigned 40 v ∧ toSigned 40 v < 2 ^ 39 := by
  unfold toSigned
  split <;> omega

theorem toSigned_ofSigned_mod (v : Int) : (toSigned 40 (ofSigned 40 v) - v) % 2 ^ 40 = 0 := by
  unfold toSigned ofSigned
  split <;> omega

theorem accw_fits (x : Core) {v : Int} (h0 : -(2 ^ 39) ≤ v) (h1 : v < 2 ^ 39) : x.accw v = (v, false) := by
  unfold Core.accw
  exact if_neg (by omega)

theorem accw_overflow (x : Core) {v : Int} (h : v < -(2 ^ 39) ∨ 2 ^ 39 ≤ v) :
    x.accw v = (if x.srBit 9 then satS 40 v else toSigned 40 (ofSigned 40 v), true) := by
  unfold Core.accw
  exact if_pos h

theorem accw_spec (x : Core) (v : Int) :
    (-(2 ^ 39) ≤ v → v < 2 ^ 39 → x.accw v = (v, false)) ∧
    (2 ^ 39 ≤ v → x.srBit 9 = true → x.accw v = (2 ^ 39 - 1, true)) ∧
    (v < -(2 ^ 39) → x.srBit 9 = true → x.accw v = (-(2 ^ 39), true)) ∧
    ((v < -(2 ^ 39) ∨ 2 ^ 39 ≤ v) → x.srBit 9 = false →
      (x.accw v).2 = true ∧ ((x.accw v).1 - v) % 2 ^ 40 = 0 ∧ -(2 ^ 39) ≤ (x.accw v).1 ∧ (x.accw v).1 < 2 ^ 39) ∧
    (∀ c : Bool, (x.stick srV c).srBit 0 = (c || x.srBit 0) ∧ ∀ i, i ≠ 0 → (x.stick srV c).srBit i = x.srBit i) := by
  refine ⟨accw_fits x, fun h hb => ?_, fun h hb => ?_, fun h hb => ?_, fun c => srBit_stick x 0 c⟩
  · rw [accw_overflow x (.inr h), if_pos hb]
    unfold satS
    rw [if_neg (by omega), if_pos (by omega)]
  · rw [accw_overflow x (.inl h), if_pos hb]
    unfold satS
    rw [if_pos (by omega)]
  · rw [accw_overflow x h, hb]
    exact ⟨rfl, toSigned_ofSigned_mod v, toSigned_range40 _⟩

theorem plainEffect_accPut (x : Core) (a : Nat) (v : Int) : plainEffect [] [a] [] x (x.accPut a v) :=
  (plainEffect.refl x).accPut v

theorem plainEffect_setAcc (x : Core) (a : Nat) (v : Int) : plainEffect [] [a] [] x (x.setAcc a v) :=
  (plainEffect.refl x).setAcc v

theorem accReg_setAcc_same (x : Core) (a : Nat) (v : Int) : (x.setAcc a v).accReg a = v :=
  (accReg_setAcc ..).trans (if_pos rfl)

/-! ### Redundant sign bits -/

theorem sameBits_le (neg : Bool) (v i : Nat) : sameBits neg v i ≤ i := by
  induction i with
  | zero => exact Nat.le_refl _
  | succ i ih =>
    unfold sameBits
    split <;> omega

theorem rsb16_le (v : Nat) : rsb16 v ≤ 15 := sameBits_le ..

theorem rsb40_le (v : Int) : rsb40 v ≤ 39 := sameBits_le ..

/-! ### Instructions that also move pointers -/

theorem sr_modify_modify (y : Core) (px py : Fin 8) (am an : Nat) : ((y.modify px am).modify py an).sr = y.sr :=
  (sr_modify _ py an).trans (sr_modify _ px am)

theorem accReg_modify_modify (y : Core) (px py am an a : Nat) : ((y.modify px am).modify py an).accReg a = y.accReg a := rfl

theorem tMacm_runs (c : Fin 32) (a : Fin 2) (px : Fin 8) (amx : Fin 4) (py : Fin 8) (amy : Fin 4) (s : State) (h : turfReady c s) :
    turfRuns (.tMacm c a px amx py amy) c s [.cr px, .cr py] [a] (fun _ => [])
      (fun x => (x.stick srV (x.accw (x.accReg a + x.prod (x.dmInt (x.p px)) (x.dmInt (x.p py)))).2).sr) fun x y =>
        y.accReg a = (x.accw (x.accReg a + x.prod (x.dmInt (x.p px)) (x.dmInt (x.p py)))).1 ∧
        y.p py = stepPtr (if px = py then stepPtr (x.p px) (x.b px) (x.l px) (x.step px amx) else x.p py) (x.b py) (x.l py) (x.step py amy) ∧
        (px ≠ py → y.p px = stepPtr (x.p px) (x.b px) (x.l px) (x.step px amx)) :=
  turfRuns_plain h rfl (fun x => (((plainEffect_accPut x a _).modify _).modify _).swap)
    (fun x => (sr_modify_modify _ px py amx amy).trans (sr_accPut x a _))
    (fun x => ⟨(accReg_modify_modify _ px py amx amy a).trans (accReg_accPut x a _), p_modify_modify (plainEffect_accPut x a _) px py amx amy⟩)
    (hsi := fun x => sr_issuing_stick x _ _)

/-- What FTAP leaves before it updates its pointers. -/
def ftapped (x : Core) (a px py : Nat) : Core :=
  (x.accPut a (x.accReg a + x.prod (x.dmInt (x.p px)) (x.dmInt (x.p py)))).storeDm (x.p px + 1) (x.dmWord (x.p px))

theorem plainEffect_ftapped (x : Core) (a px py : Nat) :
    plainEffect [] [a] [⟨2, .dm ((x.p px + 1) % 8192), x.dmWord (x.p px) % 2 ^ 16, 0xFFFF⟩] x (ftapped x a px py) :=
  (plainEffect_accPut x a _).storeDm _ _

theorem sr_ftapped (x : Core) (a px py : Nat) : (ftapped x a px py).sr =
    (x.stick srV (x.accw (x.accReg a + x.prod (x.dmInt (x.p px)) (x.dmInt (x.p py)))).2).sr := sr_accPut x a _

theorem accReg_ftapped (x : Core) (a px py : Nat) : (ftapped x a px py).accReg a =
    (x.accw (x.accReg a + x.prod (x.dmInt (x.p px)) (x.dmInt (x.p py)))).1 := accReg_accPut x a _

theorem tFtap_runs (c : Fin 32) (a : Fin 2) (px : Fin 8) (amx : Fin 4) (py : Fin 8) (amy : Fin 4) (s : State) (h : turfReady c s) :
    turfRuns (.tFtap c a px amx py amy) c s [.cr px, .cr py] [a]
      (fun x => [⟨2, .dm ((x.p px + 1) % 8192), x.dmWord (x.p px) % 2 ^ 16, 0xFFFF⟩])
      (fun x => (x.stick srV (x.accw (x.accReg a + x.prod (x.dmInt (x.p px)) (x.dmInt (x.p py)))).2).sr) fun x y =>
        y.accReg a = (x.accw (x.accReg a + x.prod (x.dmInt (x.p px)) (x.dmInt (x.p py)))).1 ∧
        y.p py = stepPtr (if px = py then stepPtr (x.p px) (x.b px) (x.l px) (x.step px amx) else x.p py) (x.b py) (x.l py) (x.step py amy) ∧
        (px ≠ py → y.p px = stepPtr (x.p px) (x.b px) (x.l px) (x.step px amx)) :=
  turfRuns_plain (f := fun x => ((ftapped x a px py).modify px amx).modify py amy) h rfl
    (fun x => (((plainEffect_ftapped x a px py).modify _).modify _).swap)
    (fun x => (sr_modify_modify _ px py amx amy).trans (sr_ftapped x a px py))
    (fun x => ⟨(accReg_modify_modify _ px py amx amy a).trans (accReg_ftapped x a px py), p_modify_modify (plainEffect_ftapped x a px py) px py amx amy⟩)
    (hsi := fun x => sr_issuing_stick x _ _)

theorem tBexp_runs (c : Fin 32) (d : Fin 16) (p : Fin 8) (am : Fin 4) (s : State) (h : turfReady c s) :
    turfRuns (.tBexp c d p am) c s [.d d, .cr p] [] (fun _ => []) (·.sr) fun x y =>
      toSigned 16 (y.dReg d) = min (x.dInt d) (rsb16 (x.dmWord (x.p p))) ∧
      y.p p = stepPtr (x.p p) (x.b p) (x.l p) (x.step p am) := by
  refine turfRuns_plain h rfl (fun x => (((plainEffect.refl x).setD _).modify _).swap) (fun x => sr_modify _ p am) fun x => ⟨?_, ?_⟩
  · have hr := rsb16_le (x.dmWord (x.p p))
    have hd := toSigned_range (x.dReg d)
    have hm : x.dInt d = toSigned 16 (x.dReg d) := rfl
    rw [dReg_modify, dReg_setD, if_pos rfl, ofSigned_mod, toSigned_ofSigned (by omega) (by omega)]
  · exact (p_modify _ p am).trans rfl

theorem tBscl_runs (c : Fin 32) (p : Fin 8) (am : Fin 4) (d : Fin 16) (s : State) (h : turfReady c s) :
    turfRuns (.tBscl c p am d) c s [.cr p] []
      (fun x => [⟨2, .dm (x.p p % 8192), ofSigned 16 (x.ash (x.dmInt (x.p p)) (x.dInt d)).1, 0xFFFF⟩])
      (fun x => (x.stick srS (x.ash (x.dmInt (x.p p)) (x.dInt d)).2).sr) fun x y =>
        y.p p = stepPtr (x.p p) (x.b p) (x.l p) (x.step p am) := by
  refine turfRuns_plain h rfl (fun x => ?_) (fun x => ?_) (fun x => ?_) (hsi := fun x => sr_issuing_stick x _ _)
  · have k := ((plainEffect.refl (as := []) x).storeDm (x.p p) (ofSigned 16 (x.ash (x.dmInt (x.p p)) (x.dInt d)).1)).stick srS
      (x.ash (x.dmInt (x.p p)) (x.dInt d)).2
    rw [ofSigned_mod] at k
    exact k.modify am
  · refine (sr_modify _ p am).trans ?_
    rw [sr_stick, sr_stick]
    rfl
  · exact p_modify_after (((plainEffect.refl (as := []) x).storeDm _ _).stick _ _) p am

/-- Settles O38: each accumulator instruction is a few register writes, and what its result reads follows from the last of them. -/
theorem turfAccumulators : Obligations.TurfAccumulators := by
  unfold Obligations.TurfAccumulators
  refine ⟨?_, ?_, ?_, ?_, ?_, ?_, ?_, ?_, ?_, ?_, ?_, ?_, ?_, ?_, ?_, accw_spec, ?_⟩
  · intro c a dx dy s h
    exact turfRuns_plain h rfl (fun x => plainEffect_setAcc x a _) (fun _ => rfl) fun x => accReg_setAcc_same x a _
  · intro c a dx dy s h
    exact turfRuns_plain h rfl (fun x => plainEffect_accPut x a _) (fun x => sr_accPut x a _) (fun x => accReg_accPut x a _)
      (hsi := fun x => sr_issuing_stick x _ _)
  · intro c a dx dy s h
    exact turfRuns_plain h rfl (fun x => plainEffect_accPut x a _) (fun x => sr_accPut x a _) (fun x => accReg_accPut x a _)
      (hsi := fun x => sr_issuing_stick x _ _)
  · exact tMacm_runs
  · exact tFtap_runs
  · intro c a dx sh s h
    exact turfRuns_plain h rfl (fun x => plainEffect_accPut x a _) (fun x => sr_accPut x a _) (fun x => accReg_accPut x a _)
      (hsi := fun x => sr_issuing_stick x _ _)
  · intro c a s h
    exact turfRuns_plain h rfl (fun x => plainEffect_setAcc x a _) (fun _ => rfl) fun x => accReg_setAcc_same x a _
  · intro c a s h
    exact turfRuns_plain h rfl (fun x => plainEffect_setAcc x a _) (fun _ => rfl) fun x => accReg_setAcc_same x a _
  · intro c d a n s h
    exact turfRuns_plain h rfl (fun x => (plainEffect.refl x).putSat _) (fun x => sr_putSat x d _) (fun x => dReg_putSat x d _)
      (hsi := fun x => sr_issuing_stick_flagsZN x _ _ _)
  · intro c a n s h hn
    refine turfRuns_plain h (congrArg (fun f => Host.Outcome.next (s.issuePlain c f)) (funext fun x => if_pos hn))
      (fun x => plainEffect_accPut x a _) (fun x => sr_accPut x a _) (fun x => accReg_accPut x a _)
      (hsi := fun x => sr_issuing_stick x _ _)
  · intro c a n s h hn
    refine turfRuns_plain h (congrArg (fun f => Host.Outcome.next (s.issuePlain c f)) (funext fun x => if_neg (by omega)))
      (fun x => plainEffect_setAcc x a _) (fun _ => rfl) fun x => accReg_setAcc_same x a _
  · intro c d a s h
    refine turfRuns_plain h rfl (fun x => (plainEffect.refl x).setD _) (fun _ => rfl) fun x =>
      (dReg_setD ..).trans ((if_pos rfl).trans (Nat.mod_eq_of_lt ?_))
    exact (rsb16_le _).trans_lt (by decide)
  · intro c d a s h
    refine turfRuns_plain h rfl (fun x => (plainEffect.refl x).setD _) (fun _ => rfl) fun x => ?_
    have hr := rsb40_le (x.accLag a)
    rw [dReg_setD, if_pos rfl, ofSigned_mod, toSigned_ofSigned (by omega) (by omega)]
  · exact tBexp_runs
  · exact tBscl_runs
  · intro c d e a p q am an sh n s h i hi
    have hp : ∀ f, Host.Outcome.next (s.issuePlain c f) = (Host.Outcome.next s : Host.Outcome State Fault Refusal) := fun f =>
      congrArg _ (issuePlain_idle h f)
    simp only [List.mem_cons, List.not_mem_nil, or_false] at hi
    rcases hi with rfl | rfl | rfl | rfl | rfl | rfl | rfl | rfl | rfl | rfl | rfl | rfl | rfl | rfl <;> exact hp _

end Sys2Proof

end

section
/-! SUPPORT. How the run of a Turf core ends: DONE, aborted, or with a fault (R317, R533). -/

set_option Elab.async false

namespace Sys2Proof

open Sys2Proof.Machine

/-! ### The end of a run -/

/-- Core `x` when its run has ended. -/
def ended (x : Core) : Core := { x with st := .halted, wait := none, br := none, rpt := none, after := false }

/-- Core `x` when its run has been aborted: what was issued has retired, and the queued records are gone. -/
def aborted (x : Core) : Core := ended { x.retire with sendQ := [] }

theorem onlyIn_setTcore {m : Nat} {l srcs : List Nat} (hm : mTurf &&& m = mTurf) (s : State) (c : Nat) (x : Core) :
    onlyIn m l srcs s (s.setTcore c x) := .other (.refl _ _ _ _) (touches_State.setTcore s c x) hm (e := State.setTcore_regs _ _ _)

theorem onlyIn_updTcore {m : Nat} {l srcs : List Nat} (hm : mTurf &&& m = mTurf) (s : State) (c : Nat) (f : Core → Core) :
    onlyIn m l srcs s (s.updTcore c f) := onlyIn_setTcore hm s c _

theorem tcEnd_effect (s : State) (c result cause : Nat) {t : State} (e : s.tcEnd c result cause = t) :
    t.tcore c = ended (s.tcore c) ∧ (∀ k, k ≠ c → t.tcore k = s.tcore k) ∧
      t.fld (rTC_STATUS c) fTC_STATUS_RESULT = result % 2 ^ 2 ∧ t.fld (rTC_STATUS c) fTC_STATUS_CAUSE = cause % 2 ^ 4 ∧
      t.fld (rTC_STATUS c) fTC_STATUS_RUNS = (s.fld (rTC_STATUS c) fTC_STATUS_RUNS + 1) % 2 ^ 16 ∧
      t.fld (rTC_STATUS c) fTC_STATUS_FAULT_PC = s.fld (rTC_STATUS c) fTC_STATUS_FAULT_PC ∧
      onlyIn (mRegs ||| mTurf) [rTC_STATUS c] [] s t := by
  obtain ⟨w, ew⟩ : ∃ w, s.setFlds (rTC_STATUS c) [(fTC_STATUS_RESULT, result), (fTC_STATUS_CAUSE, cause),
      (fTC_STATUS_RUNS, s.fld (rTC_STATUS c) fTC_STATUS_RUNS + 1)] = w := ⟨_, rfl⟩
  have et : t = w.setTcore c (ended (w.tcore c)) := by
    rw [← e, ← ew]
    rfl
  have kw : onlyIn (mRegs ||| mTurf) [rTC_STATUS c] [] s w := by
    rw [← ew]
    refine .of_hi (.setFlds (.refl _ _ _ _)) ?_
    simp only [List.mem_singleton, rTC_STATUS]
    omega
  have hc : ∀ k, w.tcore k = s.tcore k := fun k => by
    rw [← ew]
    exact (touches_State.setFlds s _ _).tcore (by decide) k
  refine ⟨?_, fun k hk => ?_, ?_, ?_, ?_, ?_, et ▸ kw.trans (onlyIn_setTcore (by decide) _ _ _)⟩
  · rw [et, tcore_setTcore_same, hc]
  · rw [et, tcore_setTcore_other _ _ hk, hc]
  all_goals
    rw [et, State.fld_setTcore, ← ew]
    simp (disch := decide)

/-! ### Aborts and faults -/

theorem clOut_congr {s t : State} (hp : t.plan = s.plan) (hr : t.rd rPLAN_SLOT_STATE = s.rd rPLAN_SLOT_STATE) (k r : Nat) :
    t.clOut k r = s.clOut k r := by
  have hf : ∀ f, t.fld rPLAN_SLOT_STATE f = s.fld rPLAN_SLOT_STATE f := fun f => congrArg (fun w => fget w f) hr
  have ha : t.activePlan = s.activePlan := by
    unfold State.activePlan
    rw [hp, hf, hf]
  unfold State.clOut State.routesFrom State.routes
  rw [ha]

/-- A run whose queued records are of no context is aborted. -/
theorem tcAbort_effect {s : State} {c cause : Nat} (hc : c < 32) (hs : (s.tcore c).st ≠ .halted)
    (hq : ∀ q ∈ (s.tcore c).sendQ, (s.clOut (tcCluster c) q.r).bind (·.ctx) = none) {t : State} (e : s.tcAbort c cause = t) :
    t.tcore c = aborted (s.tcore c) ∧ (∀ k, k ≠ c → t.tcore k = s.tcore k) ∧
      t.fld (rTC_STATUS c) fTC_STATUS_RESULT = 2 ∧ t.fld (rTC_STATUS c) fTC_STATUS_CAUSE = cause % 2 ^ 4 ∧
      t.fld (rTC_STATUS c) fTC_STATUS_RUNS = (s.fld (rTC_STATUS c) fTC_STATUS_RUNS + 1) % 2 ^ 16 ∧
      t.fld (rTC_STATUS c) fTC_STATUS_FAULT_PC = s.fld (rTC_STATUS c) fTC_STATUS_FAULT_PC ∧
      t.fld (rTC_SOUT_STAT c) fTC_SOUT_STAT_DISCARDED =
        satN 16 (s.fld (rTC_SOUT_STAT c) fTC_SOUT_STAT_DISCARDED + (s.tcore c).sendQ.length) ∧
      onlyIn (mEvent ||| mTurf) [rTC_STATUS c, rTC_SOUT_STAT c] [385 + 4 * c] s t := by
  have hlost : ((upTo 4).filterMap fun r =>
      match (s.clOut (tcCluster c) r).bind (·.ctx) with
      | some y => if ((s.tcore c).sendQ.filter fun q => q.r == r).length = 0 then none
          else some (y, ((s.tcore c).sendQ.filter fun q => q.r == r).length)
      | none => none) = [] := by
    refine List.filterMap_eq_nil_iff.mpr fun r _ => ?_
    split
    case h_2 => rfl
    case h_1 y hy =>
      refine if_pos (List.length_eq_zero_iff.mpr (List.filter_eq_nil_iff.mpr fun q hm hr => ?_))
      have := hq q hm
      rw [eq_of_beq hr, hy] at this
      cases this
  obtain ⟨u, eu⟩ : ∃ u, s.addSat (rTC_SOUT_STAT c) fTC_SOUT_STAT_DISCARDED (s.tcore c).sendQ.length = u := ⟨_, rfl⟩
  obtain ⟨w, ew⟩ : ∃ w, (u.updTcore c fun y => { y.retire with sendQ := [] }).tcEnd c 2 cause = w := ⟨_, rfl⟩
  have et : t = w.raise (385 + 4 * c) := by
    rw [← e, ← ew, ← eu]
    unfold State.tcAbort
    simp only [if_neg hs]
    exact congrArg (State.tcFaults _ c cause) hlost
  have hu : ∀ k, u.tcore k = s.tcore k := fun k => by
    rw [← eu]
    exact (touches_State.addSat s _ _ _).tcore (by decide) k
  obtain ⟨tc, tk, tr, tca, tru, tf, tt⟩ := tcEnd_effect _ _ _ _ ew
  have hfld : ∀ f, t.fld (rTC_STATUS c) f = w.fld (rTC_STATUS c) f := fun f => by
    rw [et]
    exact State.fld_raise_other _ _ _ _ _ _ _ (by simp only [rTC_STATUS]; omega)
  have hfu : ∀ f, u.fld (rTC_STATUS c) f = s.fld (rTC_STATUS c) f := fun f => by
    rw [← eu]
    exact State.fld_addSat_other _ _ _ _ (by simp only [rTC_STATUS, rTC_SOUT_STAT]; omega)
  have htc : ∀ k, t.tcore k = w.tcore k := fun k => by
    rw [et]
    exact (touches_State.raise w _ _ _ _).tcore (by decide) k
  refine ⟨?_, fun k hk => ?_, ?_, ?_, ?_, ?_, ?_, ?_⟩
  · rw [htc, tc, tcore_updTcore_same, hu]
    rfl
  · rw [htc, tk k hk, tcore_updTcore_other _ _ hk, hu]
  · exact (hfld _).trans tr
  · exact (hfld _).trans tca
  · rw [hfld, tru, ← hfu]
    rfl
  · rw [hfld, tf, ← hfu]
    rfl
  · have h1 : rTC_SOUT_STAT c ≠ rTC_STATUS c := by simp only [rTC_STATUS, rTC_SOUT_STAT]; omega
    have h2 : w.rd (rTC_SOUT_STAT c) = u.rd (rTC_SOUT_STAT c) :=
      tt.2 _ (by simpa using h1) (by simp)
    rw [et, State.fld_raise_other _ _ _ _ _ _ _ (by simp only [rTC_SOUT_STAT]; omega)]
    refine (congrArg (fun x => fget x fTC_SOUT_STAT_DISCARDED) h2).trans ?_
    rw [← eu]
    exact State.fld_addSat_self _ _ _ _ (by decide)
  · have k1 : onlyIn (mEvent ||| mTurf) [rTC_STATUS c, rTC_SOUT_STAT c] [385 + 4 * c] s u := by
      rw [← eu]
      refine .of_hi (.addSat (.refl _ _ _ _)) ?_
      simp only [List.mem_cons, List.not_mem_nil, or_false, rTC_STATUS, rTC_SOUT_STAT]
      omega
    rw [et]
    exact .raise ((k1.trans (onlyIn_updTcore (by decide) _ _ _)).trans (tt.mono (by decide) (by simp) (by simp)))

/-- A run faults with none of its records of a context. -/
theorem tcFault_effect {s : State} {c cause : Nat} (hc : c < 32) (hs : (s.tcore c).st ≠ .halted)
    (hq : ∀ q ∈ (s.tcore c).sendQ, (s.clOut (tcCluster c) q.r).bind (·.ctx) = none) {t : State} (e : s.tcFault c cause = t) :
    (t.tcore c).st = .halted ∧ (t.tcore c).sendQ = [] ∧ t.fld (rTC_STATUS c) fTC_STATUS_RESULT = 2 ∧
      t.fld (rTC_STATUS c) fTC_STATUS_CAUSE = cause % 2 ^ 4 ∧ t.fld (rTC_STATUS c) fTC_STATUS_FAULT_PC = (s.tcore c).pc % 2048 ∧
      t.fld (rTC_STATUS c) fTC_STATUS_RUNS = (s.fld (rTC_STATUS c) fTC_STATUS_RUNS + 1) % 2 ^ 16 ∧
      t.fld (rTC_SOUT_STAT c) fTC_SOUT_STAT_DISCARDED =
        satN 16 (s.fld (rTC_SOUT_STAT c) fTC_SOUT_STAT_DISCARDED + (s.tcore c).sendQ.length) ∧
      (∀ k, k ≠ c → t.tcore k = s.tcore k) ∧ onlyIn (mEvent ||| mTurf) [rTC_STATUS c, rTC_SOUT_STAT c] [385 + 4 * c] s t := by
  obtain ⟨u, eu⟩ : ∃ u, (s.updTcore c Core.retire).setFld (rTC_STATUS c) fTC_STATUS_FAULT_PC (s.tcore c).pc = u := ⟨_, rfl⟩
  have et : u.tcAbort c cause = t := by
    rw [← e, ← eu]
    rfl
  have ku : onlyIn (mEvent ||| mTurf) [rTC_STATUS c, rTC_SOUT_STAT c] [385 + 4 * c] s u := by
    rw [← eu]
    refine .of_hi (.setFld ((onlyIn_updTcore (by decide) _ _ _))) ?_
    simp only [List.mem_cons, List.not_mem_nil, or_false, rTC_STATUS, rTC_SOUT_STAT]
    omega
  have huc : u.tcore c = (s.tcore c).retire := by
    rw [← eu, (touches_State.setFld _ _ _ _).tcore (by decide), tcore_updTcore_same]
  have huk : ∀ k, k ≠ c → u.tcore k = s.tcore k := fun k hk => by
    rw [← eu, (touches_State.setFld _ _ _ _).tcore (by decide), tcore_updTcore_other _ _ hk]
  have hcl : ∀ k r, u.clOut k r = s.clOut k r := clOut_congr (ku.1.plan (by decide)) (ku.2 _
    (by simp only [List.mem_cons, List.not_mem_nil, or_false, rTC_STATUS, rTC_SOUT_STAT, rPLAN_SLOT_STATE]; omega)
    (by simp only [List.mem_singleton, evtRegs, List.mem_cons, List.not_mem_nil, or_false, rEVT_SRC, rEVT_STAT, rEVT_SEQ, rEVT_RING_IDX,
      rPLAN_SLOT_STATE]; omega))
  obtain ⟨tc, tk, tr, tca, tru, tf, td, tt⟩ := tcAbort_effect (cause := cause) hc (by rw [huc, retire_st]; exact hs)
    (by
      rw [huc, retire_sendQ]
      intro q hm
      rw [hcl]
      exact hq q hm) et
  refine ⟨?_, ?_, tr, tca, ?_, ?_, ?_, fun k hk => (tk k hk).trans (huk k hk), ku.trans tt⟩
  · rw [tc]
    rfl
  · rw [tc]
    rfl
  · rw [tf, ← eu]
    exact State.fld_setFld_self _ _ _ _ (by decide)
  · rw [tru, ← eu]
    simp (disch := decide) [State.updTcore]
  · rw [td, huc, retire_sendQ, ← eu, State.fld_setFld_other _ _ _ _ (by simp only [rTC_STATUS, rTC_SOUT_STAT]; omega)]
    rfl

end Sys2Proof

end

section
/-! SUPPORT. The control flow of a Turf core: branches, calls, repeats, loops and the ends of a run (R322 to R325, R329). -/

set_option Elab.async false

namespace Sys2Proof

open Sys2Proof.Machine

/-! ### An instruction that flows on, and one that faults -/

theorem completes_moves {i : Instr} {c : Nat} {s : State} {k : Place} {f : Core → Issue} {P : State → Prop} (h : turfReady c s)
    (he : exec i s = .next (s.issue c k f)) {y : Core} (ey : f (s.tcore c).mature.issuing = .next y) (hs : y.st = .running)
    (hl : ∀ l ∈ y.loops, y.pc ≠ l.2.1) (hP : ∀ t, onlyCore c s t → t.tcore c = (s.tcore c).mature.moved y → P t) : completes i s P := by
  obtain ⟨only, e⟩ := issue_moves h ey hs hl
  exact ⟨_, he, hP _ only e⟩

theorem turfFlows_next {i : Instr} {c : Nat} {s : State} {k : Place} {f : Core → Issue} {g : Core → Core} (h : turfReady c s)
    (he : exec i s = .next (s.issue c k f)) {y : Core} (ey : f (s.tcore c).mature.issuing = .next y) (hs : y.st = (s.tcore c).st)
    (hl : ∀ l ∈ y.loops, y.pc ≠ l.2.1) (hg : (s.tcore c).mature.moved y = g (s.tcore c).mature) : turfFlows i c s g :=
  completes_moves h he ey (hs.trans h.1) hl fun _ only e => ⟨only, e.trans hg⟩

/-- A core with nothing in its way ends no loop where it stands. -/
theorem turfReady.straight {c : Nat} {s : State} (h : turfReady c s) : ∀ l ∈ (s.tcore c).mature.loops, (s.tcore c).mature.pc ≠ l.2.1 := by
  rw [mature_loops, mature_pc]
  exact fun l hl => (h.2.2.2.1 l hl).1

theorem turfFaults_tcFault {i : Instr} {c : Nat} {s u : State} {e : Nat} (hc : c < 32) (he : exec i s = .next (u.tcFault c e))
    (hu : u = s ∨ u = s.setTcore c (s.tcore c).mature) (hs : (s.tcore c).st ≠ .halted)
    (hq : ∀ q ∈ (s.tcore c).sendQ, (s.clOut (tcCluster c) q.r).bind (·.ctx) = none) (h16 : e < 16) : turfFaults i c s e := by
  have hst : (u.tcore c).st = (s.tcore c).st ∧ (u.tcore c).sendQ = (s.tcore c).sendQ ∧ (u.tcore c).pc = (s.tcore c).pc := by
    rcases hu with rfl | rfl
    · exact ⟨rfl, rfl, rfl⟩
    · rw [tcore_setTcore_same]
      exact ⟨mature_st _, mature_sendQ _, mature_pc _⟩
  have hk : ∀ k, k ≠ c → u.tcore k = s.tcore k := by
    rcases hu with rfl | rfl
    · exact fun _ _ => rfl
    · exact fun k hk => tcore_setTcore_other s _ hk
  have hr : u.regs = s.regs ∧ u.plan = s.plan := by
    rcases hu with rfl | rfl
    · exact ⟨rfl, rfl⟩
    · exact ⟨State.setTcore_regs .., State.setTcore_plan ..⟩
  have ku : onlyIn (mEvent ||| mTurf) [rTC_STATUS c, rTC_SOUT_STAT c] [385 + 4 * c] s u := by
    rcases hu with rfl | rfl
    · exact .refl _ _ _ _
    · exact onlyIn_setTcore (by decide) _ _ _
  obtain ⟨t1, t2, t3, t4, t5, t6, t7, t8, t9⟩ := tcFault_effect (s := u) (cause := e) hc (by rw [hst.1]; exact hs)
    (by
      rw [hst.2.1]
      intro q hm
      rw [clOut_congr hr.2 (State.rd_congr hr.1 _)]
      exact hq q hm) rfl
  refine ⟨_, he, t1, t2, t3, t4.trans (Nat.mod_eq_of_lt h16), t5.trans (by rw [hst.2.2]), t6.trans (by rw [State.fld_congr hr.1]),
    t7.trans (by rw [State.fld_congr hr.1, hst.2.1]), fun k h => (t8 k h).trans (hk k h), ku.trans t9⟩

theorem issue_fault {s : State} {c : Nat} {k : Place} {f : Core → Issue} (h : turfOpen c k s) {e : Nat}
    (ef : f (s.tcore c).mature.issuing = .fault e) : s.issue c k f = (s.setTcore c (s.tcore c).mature).tcFault c e := by
  rw [issue_opened h ef]
  obtain ⟨hs, hp, -, -⟩ := h
  unfold State.issue
  simp only [hs, bne_self_eq_false, Bool.false_eq_true, ↓reduceIte, hp, Bool.not_true]

theorem not_halted_of_running {st : CoreSt} (h : st = .running) : st ≠ .halted := by
  rw [h]
  decide

theorem turfFaults_issue {i : Instr} {c : Nat} {s : State} {k : Place} {f : Core → Issue} (hc : c < 32) (h : turfOpen c k s)
    (he : exec i s = .next (s.issue c k f)) {e : Nat} (ef : f (s.tcore c).mature.issuing = .fault e) (h16 : e < 16)
    (hq : ∀ q ∈ (s.tcore c).sendQ, (s.clOut (tcCluster c) q.r).bind (·.ctx) = none) : turfFaults i c s e :=
  turfFaults_tcFault hc (he.trans (congrArg _ (issue_fault h ef))) (.inr rfl) (not_halted_of_running h.1) hq h16

/-- An instruction that stands where its placement forbids it faults. -/
theorem turfFaults_misplaced {i : Instr} {c : Nat} {s : State} {k : Place} {f : Core → Issue} (hc : c < 32) (hs : (s.tcore c).st = .running)
    (hp : (s.tcore c).mature.placeOk k = false) (he : exec i s = .next (s.issue c k f)) (hq : (s.tcore c).sendQ = []) : turfFaults i c s 2 :=
  turfFaults_tcFault hc (he.trans (congrArg _ (issue_misplaced f hs hp))) (.inl rfl) (not_halted_of_running hs) (by simp [hq]) (by decide)

/-! ### Branches and loops (R324) -/

/-- The active loops whose body the address `t` lies outside. -/
def outerLoops (l : List (Nat × Nat × Nat)) (t : Nat) : List (Nat × Nat × Nat) := l.filter fun m => t < m.1 || m.2.1 < t

theorem outerLoops_nil {l : List (Nat × Nat × Nat)} {t : Nat} (h : ∀ m ∈ l, m.1 ≤ t ∧ t ≤ m.2.1) : outerLoops l t = [] := by
  refine List.filter_eq_nil_iff.mpr fun m hm => ?_
  have := h m hm
  simp only [Bool.or_eq_true, decide_eq_true_eq]
  omega

theorem leaveLoops_none {x : Core} {t : Nat} (h : (outerLoops x.loops t).getLast? = none) : x.leaveLoops t = x := by
  unfold outerLoops at h
  unfold Core.leaveLoops
  simp only [h]

theorem leaveLoops_last {x : Core} {t : Nat} {l : Nat × Nat × Nat} (h : (outerLoops x.loops t).getLast? = some l) :
    x.leaveLoops t = { x with loops := x.loops.drop ((x.loops.takeWhile fun m => m != l).length + 1) }.setCr 32 l.2.2 := by
  unfold outerLoops at h
  unfold Core.leaveLoops
  simp only [h]

/-- A branch takes no loop, or some from the front, off the loop stack, whatever else the core holds. -/
theorem leaveLoops_form (x : Core) (t : Nat) : (∀ y : Core, y.loops = x.loops → y.leaveLoops t = y) ∨
    ∃ n v, ∀ y : Core, y.loops = x.loops → y.leaveLoops t = { y with loops := x.loops.drop n }.setCr 32 v := by
  cases h : (outerLoops x.loops t).getLast? with
  | none => exact .inl fun y hy => leaveLoops_none (by rw [hy, h])
  | some l =>
    refine .inr ⟨(x.loops.takeWhile fun m => m != l).length + 1, l.2.2, fun y hy => ?_⟩
    rw [leaveLoops_last (by rw [hy, h]), hy]

theorem leaveLoops_inside (x : Core) (t : Nat) (h : ∀ l ∈ x.loops, l.1 ≤ t ∧ t ≤ l.2.1) : x.leaveLoops t = x :=
  leaveLoops_none (by rw [outerLoops_nil h]; rfl)

/-- A branch out of loop `l`, and of none outside it, leaves the loops outside it, with their count. -/
theorem leaveLoops_outside (x : Core) (t : Nat) (a b : List (Nat × Nat × Nat)) (l : Nat × Nat × Nat) (hx : x.loops = a ++ l :: b) (ha : l ∉ a)
    (hl : t < l.1 ∨ l.2.1 < t) (hb : ∀ m ∈ b, m.1 ≤ t ∧ t ≤ m.2.1) :
    (x.leaveLoops t).loops = b ∧ (x.leaveLoops t).lc = l.2.2 % 2 ^ 16 := by
  have hf : outerLoops x.loops t = outerLoops a t ++ [l] := by
    have hbn := outerLoops_nil hb
    unfold outerLoops at *
    rw [hx, List.filter_append, List.filter_cons, hbn, if_pos (by simpa using hl)]
  have ht : x.loops.takeWhile (fun m => m != l) = a := by
    rw [hx, List.takeWhile_append_of_pos (fun m hm => by simpa using fun e : m = l => ha (e ▸ hm))]
    simp
  rw [leaveLoops_last (l := l) (by rw [hf, List.getLast?_append]; rfl), ht]
  constructor
  · show x.loops.drop (a.length + 1) = b
    rw [hx]
    simp
  · unfold Core.lc
    rw [crReg_setCr, if_pos rfl]
    exact Nat.and_two_pow_sub_one_eq_mod _ 16

theorem cond_spec (x : Core) : x.cond 0 = true ∧ x.cond 1 = x.srBit 2 ∧ x.cond 2 = !x.srBit 2 ∧ x.cond 3 = x.srBit 3 ∧ x.cond 4 = !x.srBit 3 ∧
    x.cond 5 = (!x.srBit 3 && !x.srBit 2) ∧ x.cond 6 = (x.srBit 3 || x.srBit 2) ∧ x.cond 7 = x.srBit 4 ∧ x.cond 8 = !x.srBit 4 ∧
    x.cond 9 = x.vL ∧ x.cond 10 = !x.vL := ⟨rfl, rfl, rfl, rfl, rfl, rfl, rfl, rfl, rfl, rfl, rfl⟩

theorem srBit_setCr (x : Core) {i : Nat} (v j : Nat) (h : i ≠ 33) : (x.setCr i v).srBit j = x.srBit j := by
  unfold Core.srBit
  rw [sr_setCr _ _ _ h]

/-- A branch that is taken. -/
theorem tB_taken {c : Fin 32} {k : Fin 16} {t : Fin 2048} {s : State} (h : turfReady c s) (hk : k.val ≤ 10)
    (hc : (s.tcore c).mature.cond k = true) :
    turfFlows (.tB c k t) c s fun x => { turfNext (x.leaveLoops t) with br := some ⟨2, some t, false⟩ } := by
  have ef : ∀ x : Core, x.cond k = true → (if 10 < k.val then Issue.fault 2
      else if x.cond k then .next { x.leaveLoops t with br := some ⟨2, some t, false⟩ }
      else .next { x with br := some ⟨2, none, false⟩ }) = .next { x.leaveLoops t with br := some ⟨2, some t, false⟩ } := fun x hx => by
    rw [if_neg (by omega), if_pos hx]
  have hc' : (s.tcore c).mature.issuing.cond k = true := hc
  rcases leaveLoops_form (s.tcore c).mature t with hn | ⟨n, v, hn⟩
  · have e1 := hn (s.tcore c).mature.issuing rfl
    refine turfFlows_next h rfl (ef _ hc') ?_ ?_ ?_
    · rw [e1]
      exact mature_st _
    · rw [e1]
      exact h.straight
    · rw [e1, hn _ rfl]
      rfl
  · have e1 := hn (s.tcore c).mature.issuing rfl
    refine turfFlows_next h rfl (ef _ hc') ?_ ?_ ?_
    · rw [e1]
      exact mature_st _
    · rw [e1]
      exact fun l hl => h.straight l (List.mem_of_mem_drop hl)
    · rw [e1, hn _ rfl]
      unfold turfNext
      rw [srBit_setCr _ _ _ (by decide)]
      rfl

theorem tB_flows (c : Fin 32) (k : Fin 16) (t : Fin 2048) (s : State) (h : turfReady c s) (hk : k.val ≤ 10) :
    turfFlows (.tB c k t) c s fun x => if x.cond k then { turfNext (x.leaveLoops t) with br := some ⟨2, some t, false⟩ }
      else { turfNext x with br := some ⟨2, none, false⟩ } := by
  cases hc : (s.tcore c).mature.cond k
  case true =>
    obtain ⟨u, eu, only, e⟩ := tB_taken h hk hc (t := t)
    exact ⟨u, eu, only, e.trans (if_pos hc).symm⟩
  case false =>
    have hc' : ¬ (s.tcore c).mature.issuing.cond k = true := by simpa using (show (s.tcore c).mature.issuing.cond k = false from hc)
    refine turfFlows_next (y := { (s.tcore c).mature.issuing with br := some ⟨2, none, false⟩ }) h rfl ?_ (mature_st _) h.straight ?_
    · show (if 10 < k.val then Issue.fault 2 else _) = _
      rw [if_neg (by omega), if_neg hc']
    · rw [if_neg (by simpa using hc)]
      rfl

end Sys2Proof

end

section
/-! SUPPORT. Calls, repeats, loops and the ends of a run of a Turf core (R317, R322 to R325, R327). -/

set_option Elab.async false

namespace Sys2Proof

open Sys2Proof.Machine

/-! ### Calls and returns (R322, R327) -/

theorem tCall_flows (c : Fin 32) (t : Fin 2048) (s : State) (h : turfReady c s) (hl : (s.tcore c).calls.length < 8) :
    turfFlows (.tCall c t) c s fun x => { turfNext x with calls := (x.pc + 3) % 2048 :: x.calls, br := some ⟨2, some t, false⟩ } := by
  have hm : ¬ 8 ≤ (s.tcore c).mature.issuing.calls.length := by
    rw [show (s.tcore c).mature.issuing.calls = (s.tcore c).calls from mature_calls _]
    omega
  exact turfFlows_next h rfl (if_neg hm) (mature_st _) h.straight rfl

theorem tCall_faults (c : Fin 32) (t : Fin 2048) (s : State) (h : turfReady c s) (hl : 8 ≤ (s.tcore c).calls.length)
    (hq : (s.tcore c).sendQ = []) : turfFaults (.tCall c t) c s 3 := by
  have hm : 8 ≤ (s.tcore c).mature.issuing.calls.length := by
    rw [show (s.tcore c).mature.issuing.calls = (s.tcore c).calls from mature_calls _]
    exact hl
  exact turfFaults_issue c.isLt (h.opened .other) rfl (if_pos hm) (by decide) (by simp [hq])

theorem tRet_flows (c : Fin 32) (a : Nat) (rest : List Nat) (s : State) (h : turfReady c s) (hc : (s.tcore c).calls = a :: rest) :
    turfFlows (.tRet c) c s fun x => { turfNext x with calls := rest, br := some ⟨2, some a, false⟩ } := by
  have hm : (s.tcore c).mature.issuing.calls = a :: rest := (mature_calls _).trans hc
  refine turfFlows_next (y := { (s.tcore c).mature.issuing with calls := rest, br := some ⟨2, some a, false⟩ }) h rfl ?_ (mature_st _)
    h.straight rfl
  simp only [hm]

theorem b2n_bit (w : Nat) : b2n (w % 2 == 1) = w % 2 := by
  unfold b2n
  split
  case isTrue hw => exact (eq_of_beq hw).symm
  case isFalse hw =>
    have : ¬ w % 2 = 1 := by simpa using hw
    omega

/-- sr as RETI restores it from the shadow: all but IE. -/
theorem restored_bit (w : Nat) {i : Nat} (h : i < 12) :
    (w - b2n (w / 2 ^ 12 % 2 == 1) * 2 ^ 12).testBit i = (w / 2 ^ i % 2 == 1) := by
  rw [Nat.testBit_eq_decide_div_mod_eq, b2n_bit, beq_eq_decide, decide_eq_decide]
  interval_cases i <;> omega

theorem restored_ie (w : Nat) : (w - b2n (w / 2 ^ 12 % 2 == 1) * 2 ^ 12).testBit 12 = false := by
  rw [Nat.testBit_eq_decide_div_mod_eq, decide_eq_false_iff_not, b2n_bit]
  omega

theorem testBit_srMask (i : Nat) : (0x1F3F).testBit i = decide (i ∈ [0, 1, 2, 3, 4, 5, 8, 9, 10, 11, 12]) := by
  by_cases h : i < 13
  · interval_cases i <;> decide
  · rw [Nat.testBit_lt_two_pow ((by decide : 0x1F3F < 2 ^ 13).trans_le (Nat.pow_le_pow_right (by decide) (by omega)))]
    simp only [List.mem_cons, List.not_mem_nil, or_false]
    symm
    rw [decide_eq_false_iff_not]
    omega

/-- What RETI leaves in sr. -/
theorem srBit_restored (x : Core) (w i : Nat) : (x.setSr 0x1F3F (w - b2n (w / 2 ^ 12 % 2 == 1) * 2 ^ 12)).srBit i =
    if i ∈ [0, 1, 2, 3, 4, 5, 8, 9, 10, 11] then w / 2 ^ i % 2 == 1 else i != 12 && x.srBit i := by
  rw [srBit_setSr, testBit_srMask]
  by_cases hi : i ∈ [0, 1, 2, 3, 4, 5, 8, 9, 10, 11]
  · have hlt : i < 12 := by
      simp only [List.mem_cons, List.not_mem_nil, or_false] at hi
      omega
    rw [if_pos hi, if_pos (by simp only [List.mem_cons, List.not_mem_nil, or_false, decide_eq_true_eq] at hi ⊢; omega), restored_bit w hlt]
  · rw [if_neg hi]
    by_cases h12 : i = 12
    · subst h12
      rw [if_pos (by decide), restored_ie]
      rfl
    · rw [if_neg (by simp only [List.mem_cons, List.not_mem_nil, or_false, decide_eq_true_eq] at hi ⊢; omega)]
      simp [h12]

theorem tReti_runs (c : Fin 32) (a : Nat) (rest : List Nat) (s : State) (h : turfReady c s) (hc : (s.tcore c).calls = a :: rest) :
    completes (.tReti c) s fun t => onlyCore c s t ∧ (t.tcore c).calls = rest ∧ (t.tcore c).pc = ((s.tcore c).pc + 1) % 2048 ∧
      (t.tcore c).br = some ⟨2, some a, (s.tcore c).shadow / 2 ^ 12 % 2 == 1⟩ ∧
      ∀ i, (t.tcore c).srBit i = if i ∈ [0, 1, 2, 3, 4, 5, 8, 9, 10, 11] then (s.tcore c).shadow / 2 ^ i % 2 == 1
        else i != 12 && (s.tcore c).mature.srBit i := by
  have hm : (s.tcore c).mature.issuing.calls = a :: rest := (mature_calls _).trans hc
  have hsh : (s.tcore c).mature.issuing.shadow = (s.tcore c).shadow := mature_shadow _
  obtain ⟨y, ey⟩ : ∃ y, y = ({ (s.tcore c).mature.issuing with
      calls := rest, br := some ⟨2, some a, (s.tcore c).shadow / 2 ^ 12 % 2 == 1⟩ }).setSr 0x1F3F
        ((s.tcore c).shadow - b2n ((s.tcore c).shadow / 2 ^ 12 % 2 == 1) * 2 ^ 12) := ⟨_, rfl⟩
  have hf : y.st = .running ∧ y.loops = (s.tcore c).mature.loops ∧ y.pc = (s.tcore c).pc ∧ y.calls = rest ∧
      y.br = some ⟨2, some a, (s.tcore c).shadow / 2 ^ 12 % 2 == 1⟩ := by
    rw [ey]
    exact ⟨(mature_st _).trans h.1, rfl, mature_pc _, rfl, rfl⟩
  obtain ⟨h1, h2, h3, h4, h5⟩ := hf
  refine completes_moves (y := y) h rfl (by simp only [hm, hsh, ey]) h1 (by rw [h2, h3, ← mature_pc]; exact h.straight) fun t only e => ?_
  rw [e]
  refine ⟨only, h4, congrArg (fun n => (n + 1) % 2048) h3, h5, fun i => ?_⟩
  rw [show ((s.tcore c).mature.moved y).srBit i = y.srBit i from rfl, ey, srBit_restored]
  rfl

theorem ret_faults (c : Fin 32) (s : State) (h : turfReady c s) (hc : (s.tcore c).calls = []) (hq : (s.tcore c).sendQ = []) :
    turfFaults (.tRet c) c s 3 ∧ turfFaults (.tReti c) c s 3 := by
  have hm : (s.tcore c).mature.issuing.calls = [] := (mature_calls _).trans hc
  exact ⟨turfFaults_issue c.isLt (h.opened .other) rfl (by simp only [hm]) (by decide) (by simp [hq]),
    turfFaults_issue c.isLt (h.opened .other) rfl (by simp only [hm]) (by decide) (by simp [hq])⟩

/-! ### Repeats (R323) -/

theorem tRpt_flows (c : Fin 32) (n1 : Fin 1024) (s : State) (h : turfReady c s) :
    turfFlows (.tRpt c n1) c s fun x => { turfNext x with rpt := some (n1 + 1) } := by
  refine turfFlows_next (y := { (s.tcore c).mature.issuing with rpt := some (n1 + 1) }) h rfl ?_ (mature_st _) h.straight rfl
  exact congrArg Issue.next (if_neg (Nat.succ_ne_zero _))

theorem tRptd_flows (c : Fin 32) (a : Fin 16) (s : State) (h : turfReady c s) (hd : (s.tcore c).mature.dReg a ≤ 1024)
    (hpc : (s.tcore c).pc < 2047) :
    turfFlows (.tRptd c a) c s fun x => if x.dReg a = 0 then { turfNext x with pc := (x.pc + 2) % 2048, after := true }
      else { turfNext x with rpt := some (x.dReg a) } := by
  have hm : ¬ 1024 < (s.tcore c).mature.issuing.dReg a := by
    show ¬ 1024 < (s.tcore c).mature.dReg a
    omega
  have hp : (s.tcore c).mature.pc = (s.tcore c).pc := mature_pc _
  by_cases h0 : (s.tcore c).mature.dReg a = 0
  · refine turfFlows_next (y := { (s.tcore c).mature.issuing with pc := ((s.tcore c).mature.pc + 1) % 2048, after := true }) h rfl
      ((if_neg hm).trans (congrArg Issue.next (if_pos h0))) (mature_st _) ?_ ?_
    · intro l hl
      have := (h.2.2.2.1 l ((mature_loops (s.tcore c)) ▸ hl)).2
      show ((s.tcore c).mature.pc + 1) % 2048 ≠ l.2.1
      omega
    · rw [if_pos h0]
      have e2 : (((s.tcore c).mature.pc + 1) % 2048 + 1) % 2048 = ((s.tcore c).mature.pc + 2) % 2048 := by omega
      rw [← e2]
      rfl
  · refine turfFlows_next (y := { (s.tcore c).mature.issuing with rpt := some ((s.tcore c).mature.dReg a) }) h rfl
      ((if_neg hm).trans (congrArg Issue.next (if_neg h0))) (mature_st _) h.straight ?_
    rw [if_neg h0]
    rfl

theorem tRptd_faults (c : Fin 32) (a : Fin 16) (s : State) (h : turfReady c s) (hd : 1024 < (s.tcore c).mature.dReg a)
    (hq : (s.tcore c).sendQ = []) : turfFaults (.tRptd c a) c s 5 :=
  turfFaults_issue c.isLt (h.opened .other) rfl (if_pos hd) (by decide) (by simp [hq])

/-! ### Loops (R324, R325) -/

section
variable {i : Instr} {c : Fin 32} {n : Core → Nat} {t : Nat} {s : State}

/-- A loop that starts, or is skipped for a count of 0. -/
theorem loop_runs (h : turfReady c s) (he : exec i s = .next (s.issue c .other fun x => x.startLoop (n x) t))
    (hn : n (s.tcore c).mature.issuing = n (s.tcore c).mature) (ht : (s.tcore c).pc < t) (hl : (s.tcore c).loops.length < 4) :
    completes i s fun u => onlyCore c s u ∧
      (0 < n (s.tcore c).mature → (u.tcore c).loops = ((s.tcore c).pc + 1, t, (s.tcore c).mature.lc) :: (s.tcore c).loops ∧
        (u.tcore c).lc = n (s.tcore c).mature % 2 ^ 16 ∧ (u.tcore c).pc = ((s.tcore c).pc + 1) % 2048) ∧
      (n (s.tcore c).mature = 0 → (∀ l ∈ (s.tcore c).loops, t ≠ l.2.1) → (u.tcore c).loops = (s.tcore c).loops ∧
        (u.tcore c).pc = (t + 1) % 2048) := by
  have h1 : ¬ t ≤ (s.tcore c).mature.issuing.pc := by
    rw [show (s.tcore c).mature.issuing.pc = _ from mature_pc _]
    omega
  have h2 : ¬ 4 ≤ (s.tcore c).mature.issuing.loops.length := by
    rw [show (s.tcore c).mature.issuing.loops = _ from mature_loops _]
    omega
  have hlo : (s.tcore c).mature.loops = (s.tcore c).loops := mature_loops _
  have hpc : (s.tcore c).mature.pc = (s.tcore c).pc := mature_pc _
  refine ⟨_, he, ?_⟩
  by_cases h0 : n (s.tcore c).mature = 0
  · have ey : (s.tcore c).mature.issuing.startLoop (n (s.tcore c).mature.issuing) t =
        .next { (s.tcore c).mature.issuing with pc := t } := by
      unfold Core.startLoop
      rw [if_neg h1, if_neg h2, if_pos (hn.trans h0)]
    have only := (issue_next (f := fun x => x.startLoop (n x) t) (h.opened .other) ey).1
    refine ⟨only, fun hp => absurd h0 (by omega), fun _ hout => ?_⟩
    obtain ⟨-, e⟩ := issue_moves (k := .other) (f := fun x => x.startLoop (n x) t) h ey ((mature_st _).trans h.1) (by
      show ∀ l ∈ (s.tcore c).mature.loops, t ≠ l.2.1
      rw [hlo]
      exact hout)
    rw [e]
    exact ⟨hlo, rfl⟩
  · have ey : (s.tcore c).mature.issuing.startLoop (n (s.tcore c).mature.issuing) t =
        .next ({ (s.tcore c).mature.issuing with
          loops := ((s.tcore c).mature.pc + 1, t, (s.tcore c).mature.lc) :: (s.tcore c).mature.loops }.setCr 32 (n (s.tcore c).mature)) := by
      unfold Core.startLoop
      rw [if_neg h1, if_neg h2, if_neg (by rw [hn]; exact h0), hn]
      rfl
    obtain ⟨only, e⟩ := issue_moves (k := .other) (f := fun x => x.startLoop (n x) t) h ey ((mature_st _).trans h.1) (by
      intro l hl
      rcases List.mem_cons.mp (show l ∈ ((s.tcore c).mature.pc + 1, t, (s.tcore c).mature.lc) :: (s.tcore c).mature.loops from hl) with
        rfl | hl
      · show (s.tcore c).mature.pc ≠ t
        omega
      · exact h.straight l hl)
    refine ⟨only, fun _ => ?_, fun hz => absurd hz h0⟩
    rw [e]
    refine ⟨?_, ?_, congrArg (fun n => (n + 1) % 2048) hpc⟩
    · show ((s.tcore c).mature.pc + 1, t, (s.tcore c).mature.lc) :: (s.tcore c).mature.loops = _
      rw [hpc, hlo]
    · refine (crReg_setCr ..).trans ((if_pos rfl).trans ?_)
      exact Nat.and_two_pow_sub_one_eq_mod _ 16

theorem loop_faults (h : turfReady c s) (he : exec i s = .next (s.issue c .other fun x => x.startLoop (n x) t))
    (hq : (s.tcore c).sendQ = []) :
    (t ≤ (s.tcore c).pc → turfFaults i c s 2) ∧
      ((s.tcore c).pc < t → 4 ≤ (s.tcore c).loops.length → turfFaults i c s 4) := by
  have hp : (s.tcore c).mature.issuing.pc = (s.tcore c).pc := mature_pc _
  have hl : (s.tcore c).mature.issuing.loops = (s.tcore c).loops := mature_loops _
  constructor
  · intro h1
    exact turfFaults_issue c.isLt (h.opened .other) he (if_pos (by rw [hp]; exact h1)) (by decide) (by simp [hq])
  · intro h1 h2
    exact turfFaults_issue c.isLt (h.opened .other) he ((if_neg (by rw [hp]; omega)).trans (if_pos (by rw [hl]; exact h2))) (by decide)
      (by simp [hq])

end

/-! ### HALT and IDLE (R317, R327) -/

theorem issue_halt {s : State} {c : Nat} {k : Place} {f : Core → Issue} (h : turfOpen c k s) {y : Core}
    (e : f (s.tcore c).mature.issuing = .halt y) : s.issue c k f =
      ((s.setTcore c { ((s.tcore c).mature.lagging y).retire with cycles := ((s.tcore c).cycles + 1) % 2 ^ 64 }).tcEnd c 1 0).raise
        (384 + 4 * c) := by
  rw [issue_opened h e]
  obtain ⟨hs, hp, -, -⟩ := h
  unfold State.issue
  simp only [hs, bne_self_eq_false, Bool.false_eq_true, ↓reduceIte, hp, Bool.not_true]
  rfl

/-- What late writes reach depends on nothing else of a core. -/
theorem applyLate_congr {x y : Core} (e : Late) (hd : x.d = y.d) (hm : x.dm = y.dm) (hc : x.cr = y.cr) :
    (x.applyLate e).d = (y.applyLate e).d ∧ (x.applyLate e).dm = (y.applyLate e).dm ∧ (x.applyLate e).cr = (y.applyLate e).cr := by
  have hr : ∀ i, x.crReg i = y.crReg i := fun i => by
    unfold Core.crReg
    rw [hc]
  unfold Core.applyLate Core.ipr Core.sr
  split
  · exact ⟨by simp only [hd], hm, hc⟩
  · exact ⟨hd, by simp only [hm], hc⟩
  · split
    · exact ⟨hd, hm, by simp only [hc, hr]⟩
    · split
      · exact ⟨hd, hm, by simp only [hc, hr]⟩
      · exact ⟨hd, hm, by simp only [hc]⟩

theorem applyAll_congr (l : List Late) {x y : Core} (hd : x.d = y.d) (hm : x.dm = y.dm) (hc : x.cr = y.cr) :
    (l.foldl Core.applyLate x).d = (l.foldl Core.applyLate y).d ∧ (l.foldl Core.applyLate x).dm = (l.foldl Core.applyLate y).dm := by
  induction l generalizing x y with
  | nil => exact ⟨hd, hm⟩
  | cons e l ih =>
    obtain ⟨h1, h2, h3⟩ := applyLate_congr e hd hm hc
    exact ih h1 h2 h3

theorem tHalt_ends (c : Fin 32) (s : State) (h : turfReady c s) :
    completes (.tHalt c) s fun t => (t.tcore c).st = .halted ∧ (t.tcore c).d = (s.tcore c).mature.retire.d ∧
      (t.tcore c).dm = (s.tcore c).mature.retire.dm ∧ (t.tcore c).late = [] ∧ (t.tcore c).sendQ = (s.tcore c).sendQ ∧
      (t.tcore c).ring = (s.tcore c).ring ∧ (t.tcore c).cycles = ((s.tcore c).cycles + 1) % 2 ^ 64 ∧
      t.fld (rTC_STATUS c) fTC_STATUS_RESULT = 1 ∧ t.fld (rTC_STATUS c) fTC_STATUS_CAUSE = 0 ∧
      t.fld (rTC_STATUS c) fTC_STATUS_RUNS = (s.fld (rTC_STATUS c) fTC_STATUS_RUNS + 1) % 2 ^ 16 ∧
      (∀ k, k ≠ c.val → t.tcore k = s.tcore k) ∧ onlyIn (mEvent ||| mTurf) [rTC_STATUS c] [384 + 4 * c] s t := by
  refine ⟨_, congrArg Host.Outcome.next (issue_halt (h.opened .other) rfl), ?_⟩
  obtain ⟨x, ex⟩ : ∃ x, (s.tcore c).mature.lagging (s.tcore c).mature.issuing = x := ⟨_, rfl⟩
  have hx := applyAll_congr x.late (x := { x with late := [] }) (y := { (s.tcore c).mature with late := [] }) (by rw [← ex]; rfl)
    (by rw [← ex]; rfl) (by rw [← ex]; rfl)
  have hlate : x.late = (s.tcore c).mature.late := by rw [← ex]; rfl
  have hring : x.ring = (s.tcore c).ring := by rw [← ex]; exact mature_ring _
  have hsend : x.sendQ = (s.tcore c).sendQ := by rw [← ex]; exact mature_sendQ _
  rw [ex]
  obtain ⟨w, ew⟩ : ∃ w, (s.setTcore c { x.retire with cycles := ((s.tcore c).cycles + 1) % 2 ^ 64 }).tcEnd c 1 0 = w := ⟨_, rfl⟩
  obtain ⟨tc, tk, tr, tca, tru, -, tt⟩ := tcEnd_effect _ _ _ _ ew
  rw [ew]
  rw [tcore_setTcore_same] at tc
  have hc := fun k => (touches_State.raise w (384 + 4 * c) none 0 0).tcore (by decide) k
  have hfld : ∀ f, (w.raise (384 + 4 * c)).fld (rTC_STATUS c) f = w.fld (rTC_STATUS c) f := fun f =>
    State.fld_raise_other _ _ _ _ _ _ _ (by simp only [rTC_STATUS]; omega)
  rw [hc, tc]
  refine ⟨rfl, hx.1.trans (by rw [hlate]; rfl), hx.2.trans (by rw [hlate]; rfl), late_retire _, (retire_sendQ _).trans hsend,
    (retire_ring _).trans hring, rfl, (hfld _).trans tr, (hfld _).trans tca, (hfld _).trans tru, fun k hk => ?_, ?_⟩
  · rw [hc, tk k hk, tcore_setTcore_other _ _ hk]
  · exact .raise ((onlyIn_setTcore (by decide) _ _ _).trans (tt.mono (by decide) (by simp) (by simp)))

theorem tIdle_sleeps (c : Fin 32) (s : State) (h : turfReady c s) :
    completes (.tIdle c) s fun t => onlyCore c s t ∧ (t.tcore c).late = (s.tcore c).mature.late ∧
      (t.tcore c).cycles = ((s.tcore c).cycles + 1) % 2 ^ 64 ∧
      ((s.tcore c).mature.pending = 0 → (t.tcore c).st = .idle ∧ (t.tcore c).pc = (s.tcore c).pc) ∧
      ((s.tcore c).mature.pending ≠ 0 → (t.tcore c).st = .running ∧ (t.tcore c).pc = ((s.tcore c).pc + 1) % 2048) := by
  obtain ⟨only, e⟩ := issue_sleep (f := fun x => .sleep x) (h.opened .other) rfl
  refine ⟨_, rfl, only, ?_⟩
  rw [e]
  obtain ⟨x, ex⟩ : ∃ x, x = { (s.tcore c).mature.lagging (s.tcore c).mature.issuing with st := .idle } := ⟨_, rfl⟩
  rw [← ex]
  have hst : x.st = .idle := by rw [ex]
  have hlate : x.late = (s.tcore c).mature.late := by rw [ex]; rfl
  have hcy : x.cycles = (s.tcore c).cycles := by rw [ex]; exact mature_cycles _
  have hpc : x.pc = (s.tcore c).pc := by rw [ex]; exact mature_pc _
  have hpe : x.pending = (s.tcore c).mature.pending := by rw [ex]; rfl
  have hb : x.br = none := by rw [ex]; exact (mature_br _).trans h.2.1
  have hr : x.rpt = none := by rw [ex]; exact (mature_rpt _).trans h.2.2.1
  have hl : ∀ l ∈ x.loops, x.pc ≠ l.2.1 := by rw [ex]; exact h.straight
  by_cases hp : x.pending = 0
  · have hw : x.wakeIdle = x := if_neg (by simp [hp])
    rw [hw, ticked_live 1 (by rw [hst]; decide)]
    exact ⟨hlate, congrArg (fun n => (n + 1) % 2 ^ 64) hcy, fun _ => ⟨hst, hpc⟩, fun hn => absurd (hpe ▸ hp) hn⟩
  · have hw : x.wakeIdle = { x with st := .running, pc := (x.pc + 1) % 2048 } :=
      (if_pos (by simp [hst, hp])).trans (advance_straight (y := { x with st := .running }) hr hb hl)
    rw [hw, ticked_live 1 (show CoreSt.running ≠ .halted by decide)]
    exact ⟨hlate, congrArg (fun n => (n + 1) % 2 ^ 64) hcy, fun hn => absurd (hpe.trans hn) hp,
      fun _ => ⟨rfl, congrArg (fun n => (n + 1) % 2048) hpc⟩⟩

end Sys2Proof

end

section
/-! SUPPORT. Delay slots, repeated instructions and the ends of loop bodies (R322 to R325). -/

set_option Elab.async false

namespace Sys2Proof

open Sys2Proof.Machine

/-! ### How pc moves on -/

theorem advance_slot {x y : Core} {n : Nat} {d : Option Nat} {ie : Bool} (hr : x.rpt = none) (hb : x.br = some ⟨n, d, ie⟩) (h : 1 < n) :
    Core.advance x y = { y with pc := (y.pc + 1) % 2048, br := some ⟨n - 1, d, ie⟩ } := by
  unfold Core.advance
  rw [hr]
  unfold Core.slotNext
  rw [hb]
  exact if_neg (by simpa using h)

/-- Core `y` at the target `a` of a branch, with IE if it comes back with it. -/
def branched (y : Core) (a : Nat) (ie : Bool) : Core :=
  if ie then ({ y with pc := a, br := none }).setSr srIe srIe else { y with pc := a, br := none }

theorem advance_target {x y : Core} {a : Nat} {ie : Bool} (hr : x.rpt = none) (hb : x.br = some ⟨1, some a, ie⟩) :
    Core.advance x y = branched y a ie := by
  unfold Core.advance
  rw [hr]
  unfold Core.slotNext
  rw [hb]
  rfl

theorem advance_repeat {x y : Core} {n : Nat} (hr : x.rpt = some n) (h : 1 < n) : Core.advance x y = { y with rpt := some (n - 1) } := by
  unfold Core.advance
  rw [hr]
  exact if_pos h

theorem advance_repeated {x y : Core} (hr : x.rpt = some 1) (hb : x.br = none) (h : ∀ l ∈ y.loops, y.pc ≠ l.2.1) :
    Core.advance x y = { y with rpt := none, after := true, pc := (y.pc + 1) % 2048 } := by
  unfold Core.advance
  rw [hr]
  unfold Core.slotNext
  rw [hb]
  exact loopNext_straight 4 (x := { y with rpt := none, after := true }) h

/-- At the end of its body a loop with turns left goes back to its start. -/
theorem advance_turn {x y : Core} {st en sv : Nat} {rest : List (Nat × Nat × Nat)} (hr : x.rpt = none) (hb : x.br = none)
    (hl : y.loops = (st, en, sv) :: rest) (hp : y.pc = en) (hn : 1 < y.lc) :
    Core.advance x y = { y.setCr 32 (y.lc - 1) with pc := st } := by
  unfold Core.advance
  rw [hr]
  unfold Core.slotNext
  rw [hb]
  unfold Core.loopNext
  simp only [hl]
  rw [if_pos hp, if_neg (by omega)]

/-- At the end of its body a loop without turns left is left. -/
theorem advance_leave {x y : Core} {st en sv : Nat} {rest : List (Nat × Nat × Nat)} (hr : x.rpt = none) (hb : x.br = none)
    (hl : y.loops = (st, en, sv) :: rest) (hp : y.pc = en) (hn : y.lc ≤ 1) (ho : ∀ l ∈ rest, en ≠ l.2.1) :
    Core.advance x y = { ({ y with loops := rest }.setCr 32 sv) with pc := (en + 1) % 2048 } := by
  unfold Core.advance
  rw [hr]
  unfold Core.slotNext
  rw [hb]
  unfold Core.loopNext
  simp only [hl]
  refine ((if_pos hp).trans (if_pos hn)).trans ((loopNext_straight 3 fun l hm => ?_).trans ?_)
  · show y.pc ≠ l.2.1
    rw [hp]
    exact ho l hm
  · rw [← hp]
    rfl

theorem placeOk_plain (x : Core) : x.placeOk .plain = true := by
  unfold Core.placeOk
  simp

/-! ### NOP in a delay slot, under a repeat, and at the end of a loop -/

section
variable {c : Fin 32} {s : State}

/-- NOP only moves its core on. -/
theorem tNop_moves {P : State → Prop} (hs : (s.tcore c).st = .running) (ht : s.fld (rTC_TIMER c) fTC_TIMER_EN = 0)
    (hl : s.fld (rTC_LIMIT c) fTC_LIMIT_CYCLES = 0)
    (hP : ∀ t, onlyCore c s t → t.tcore c =
      (Core.advance (s.tcore c).mature ((s.tcore c).mature.lagging (s.tcore c).mature.issuing)).ticked 1 → P t) : completes (.tNop c) s P := by
  obtain ⟨only, e⟩ := issue_next (k := .plain) (f := fun x => .next x) ⟨hs, placeOk_plain _, ht, hl⟩ rfl
  exact ⟨_, rfl, hP _ only e⟩

theorem srBit_branched (y : Core) (a : Nat) (ie : Bool) : (branched y a ie).srBit 12 = (ie || y.srBit 12) := by
  unfold branched
  cases ie
  case false => rfl
  case true =>
    rw [if_pos rfl, srBit_setSr]
    rfl

theorem branched_fields (y : Core) (a : Nat) (ie : Bool) :
    (branched y a ie).pc = a ∧ (branched y a ie).br = none ∧ (branched y a ie).st = y.st := by
  unfold branched
  cases ie <;> exact ⟨rfl, rfl, rfl⟩

theorem slot_steps (n : Nat) (d : Option Nat) (ie : Bool) (hs : (s.tcore c).st = .running) (hr : (s.tcore c).rpt = none)
    (hb : (s.tcore c).br = some ⟨n, d, ie⟩) (ht : s.fld (rTC_TIMER c) fTC_TIMER_EN = 0) (hl : s.fld (rTC_LIMIT c) fTC_LIMIT_CYCLES = 0) :
    (1 < n → turfFlows (.tNop c) c s fun x => { turfNext x with br := some ⟨n - 1, d, ie⟩ }) ∧
    (∀ a, n = 1 → d = some a → completes (.tNop c) s fun t => onlyCore c s t ∧ (t.tcore c).pc = a ∧ (t.tcore c).br = none ∧
      (t.tcore c).srBit 12 = (ie || (s.tcore c).mature.srBit 12)) ∧
    ((s.tcore c).sendQ = [] → turfFaults (.tHalt c) c s 2) := by
  have hr' : (s.tcore c).mature.rpt = none := (mature_rpt _).trans hr
  have hb' : (s.tcore c).mature.br = some ⟨n, d, ie⟩ := (mature_br _).trans hb
  have hst : (s.tcore c).mature.st ≠ .halted := not_halted_of_running ((mature_st _).trans hs)
  refine ⟨fun h => tNop_moves hs ht hl fun t only e => ⟨only, ?_⟩, fun a h1 hd => tNop_moves hs ht hl fun t only e => ⟨only, ?_⟩, fun hq => ?_⟩
  · rw [e, advance_slot hr' hb' h]
    exact ticked_live 1 hst
  · subst h1 hd
    obtain ⟨hpc, hbr, hs'⟩ := branched_fields ((s.tcore c).mature.lagging (s.tcore c).mature.issuing) a ie
    rw [e, advance_target hr' hb', ticked_live 1 (by rw [hs']; exact hst)]
    exact ⟨hpc, hbr, srBit_branched _ _ _⟩
  · refine turfFaults_misplaced c.isLt hs ?_ rfl hq
    unfold Core.placeOk Core.tailSlot
    rw [hb', Option.isSome_some, Bool.true_or]
    simp

theorem repeat_steps (n : Nat) (hs : (s.tcore c).st = .running) (hr : (s.tcore c).rpt = some n) (hb : (s.tcore c).br = none)
    (hlo : ∀ l ∈ (s.tcore c).loops, (s.tcore c).pc ≠ l.2.1 ∧ (s.tcore c).pc + 1 ≠ l.2.1)
    (ht : s.fld (rTC_TIMER c) fTC_TIMER_EN = 0) (hl : s.fld (rTC_LIMIT c) fTC_LIMIT_CYCLES = 0) :
    (1 < n → turfFlows (.tNop c) c s fun x => { turfNext x with pc := x.pc, rpt := some (n - 1) }) ∧
    (n = 1 → turfFlows (.tNop c) c s fun x => { turfNext x with rpt := none, after := true }) ∧
    ((s.tcore c).sendQ = [] → turfFaults (.tRelr c) c s 2) := by
  have hr' : (s.tcore c).mature.rpt = some n := (mature_rpt _).trans hr
  have hst : (s.tcore c).mature.st ≠ .halted := not_halted_of_running ((mature_st _).trans hs)
  refine ⟨fun h => tNop_moves hs ht hl fun t only e => ⟨only, ?_⟩, fun h1 => tNop_moves hs ht hl fun t only e => ⟨only, ?_⟩, fun hq => ?_⟩
  · rw [e, advance_repeat hr' h]
    exact ticked_live 1 hst
  · subst h1
    rw [e, advance_repeated hr' ((mature_br _).trans hb) (by
      show ∀ l ∈ (s.tcore c).mature.loops, (s.tcore c).mature.pc ≠ l.2.1
      rw [mature_loops, mature_pc]
      exact fun l hm => (hlo l hm).1)]
    exact ticked_live 1 hst
  · refine turfFaults_misplaced c.isLt hs ?_ rfl hq
    unfold Core.placeOk
    rw [hr', Option.isNone_some]
    rfl

theorem loopEnd_steps (st en sv : Nat) (rest : List (Nat × Nat × Nat)) (hs : (s.tcore c).st = .running) (hr : (s.tcore c).rpt = none)
    (hb : (s.tcore c).br = none) (hlo : (s.tcore c).loops = (st, en, sv) :: rest) (hp : (s.tcore c).pc = en) (hle : st ≤ en)
    (ho : ∀ l ∈ rest, en ≠ l.2.1) (ht : s.fld (rTC_TIMER c) fTC_TIMER_EN = 0) (hl : s.fld (rTC_LIMIT c) fTC_LIMIT_CYCLES = 0) :
    (1 < (s.tcore c).mature.lc → completes (.tNop c) s fun t => onlyCore c s t ∧ (t.tcore c).pc = st ∧
      (t.tcore c).lc = ((s.tcore c).mature.lc - 1) % 2 ^ 16 ∧ (t.tcore c).loops = (s.tcore c).loops) ∧
    ((s.tcore c).mature.lc ≤ 1 → completes (.tNop c) s fun t => onlyCore c s t ∧ (t.tcore c).pc = (en + 1) % 2048 ∧
      (t.tcore c).lc = sv % 2 ^ 16 ∧ (t.tcore c).loops = rest) ∧
    ((s.tcore c).sendQ = [] → turfFaults (.tHalt c) c s 2) := by
  have hr' : (s.tcore c).mature.rpt = none := (mature_rpt _).trans hr
  have hb' : (s.tcore c).mature.br = none := (mature_br _).trans hb
  have hlo' : (s.tcore c).mature.loops = (st, en, sv) :: rest := (mature_loops _).trans hlo
  have hp' : (s.tcore c).mature.pc = en := (mature_pc _).trans hp
  have hlc : ∀ (x : Core) (v : Nat), (x.setCr 32 v).lc = v % 2 ^ 16 := fun x v =>
    (crReg_setCr ..).trans ((if_pos rfl).trans (Nat.and_two_pow_sub_one_eq_mod _ 16))
  refine ⟨fun h => tNop_moves hs ht hl fun t only e => ⟨only, ?_⟩, fun h => tNop_moves hs ht hl fun t only e => ⟨only, ?_⟩, fun hq => ?_⟩
  · rw [e, advance_turn (y := (s.tcore c).mature.lagging (s.tcore c).mature.issuing) hr' hb' hlo' hp' h]
    exact ⟨rfl, hlc _ _, mature_loops _⟩
  · rw [e, advance_leave (y := (s.tcore c).mature.lagging (s.tcore c).mature.issuing) hr' hb' hlo' hp' h ho]
    exact ⟨rfl, hlc _ _, rfl⟩
  · refine turfFaults_misplaced c.isLt hs ?_ rfl hq
    unfold Core.placeOk Core.tailSlot
    rw [hlo', hp']
    simp [hle]

end

/-- Settles O39: what an issued instruction does to pc and to the branch, repeat and loops under way is read off the one step that moves the
core on. -/
theorem turfControlFlow : Obligations.TurfControlFlow := by
  unfold Obligations.TurfControlFlow
  refine ⟨tB_flows, fun c k t s h hk hq => turfFaults_issue c.isLt (h.opened .other) rfl (if_pos hk) (by decide) hq, cond_spec, leaveLoops_inside,
    leaveLoops_outside, tCall_flows, tCall_faults, fun c a rest s h hc => ⟨tRet_flows c a rest s h hc, tReti_runs c a rest s h hc⟩, ret_faults,
    tRpt_flows, tRptd_flows, tRptd_faults, ?_, ?_, ?_, tHalt_ends, tIdle_sleeps, fun _ n d ie _ => slot_steps n d ie, fun _ n _ => repeat_steps n,
    fun _ st en sv rest _ => loopEnd_steps st en sv rest, ?_⟩
  · intro c n t s h ht hl
    obtain ⟨u, eu, only, hrun, hskip⟩ := loop_runs (i := .tLoop c n t) (n := fun _ => n) h rfl rfl ht hl
    refine ⟨u, eu, only, fun hp => ?_, fun h0 => hskip (by exact_mod_cast h0)⟩
    obtain ⟨h1, h2, h3⟩ := hrun hp
    exact ⟨h1, h2.trans (Nat.mod_eq_of_lt (by omega)), h3⟩
  · intro c a t s h ht hl
    exact loop_runs (i := .tLoopd c a t) (n := fun x => x.dReg a) h rfl rfl ht hl
  · intro c n a t s h hq
    obtain ⟨a2, a4⟩ := loop_faults (n := fun _ => n) (t := t) (i := .tLoop c n t) h rfl hq
    obtain ⟨b2, b4⟩ := loop_faults (n := fun x => x.dReg a) (t := t) (i := .tLoopd c a t) h rfl hq
    exact ⟨fun hp => ⟨a2 hp, b2 hp⟩, fun hp hl => ⟨a4 hp hl, b4 hp hl⟩⟩
  · intro c k t n1 n s h i hi
    have hp : ∀ f, Host.Outcome.next (s.issue c .other f) = (Host.Outcome.next s : Host.Outcome State Fault Refusal) := fun f =>
      congrArg _ (issue_idle .other f h)
    simp only [List.mem_cons, List.not_mem_nil, or_false] at hi
    rcases hi with rfl | rfl | rfl | rfl | rfl | rfl | rfl | rfl | rfl | rfl <;> exact hp _

end Sys2Proof

end

section
/-! SUPPORT. When a written value is first seen (R321, Table 14-6). -/

set_option Elab.async false

namespace Sys2Proof

open Sys2Proof.Machine

/-! ### Late writes come nearer -/

theorem mature_waiting {x : Core} {n v m : Nat} {q : LateTo} (h : x.late = [⟨n + 2, q, v, m⟩]) :
    x.mature = { x with late := [⟨n + 1, q, v, m⟩] } := by
  unfold Core.mature
  simp [h]

theorem mature_due {x : Core} {v m : Nat} {q : LateTo} (h : x.late = [⟨1, q, v, m⟩]) :
    x.mature = Core.applyLate { x with late := [] } ⟨1, q, v, m⟩ := by
  unfold Core.mature
  simp [h]

/-! ### A plain instruction and the next -/

/-- A core that is free of branches, repeats and loops stays so over a plain instruction. -/
theorem plain_again {c : Nat} {s : State} {f : Core → Core} (h : turfReady c s) (hl : (s.tcore c).loops = [])
    (hf : ∀ x, (f x).frame = x.frame) :
    (s.issuePlain c f).tcore c = (s.tcore c).mature.moved (f (s.tcore c).mature.issuing) ∧ turfReady c (s.issuePlain c f) ∧
      ((s.issuePlain c f).tcore c).loops = [] := by
  have hx := hf (s.tcore c).mature.issuing
  have hst : (f (s.tcore c).mature.issuing).st = .running := (congrArg Core.st hx :).trans ((mature_st _).trans h.1)
  have hlo : (f (s.tcore c).mature.issuing).loops = [] := (congrArg Core.loops hx :).trans ((mature_loops _).trans hl)
  have hbr : (f (s.tcore c).mature.issuing).br = none := (congrArg Core.br hx :).trans ((mature_br _).trans h.2.1)
  have hrp : (f (s.tcore c).mature.issuing).rpt = none := (congrArg Core.rpt hx :).trans ((mature_rpt _).trans h.2.2.1)
  obtain ⟨only, e⟩ := issue_moves (k := .plain) (f := fun x => .next (f x)) h rfl hst (by simp [hlo])
  have e' : (s.issuePlain c f).tcore c = (s.tcore c).mature.moved (f (s.tcore c).mature.issuing) := e
  have hr : (s.issuePlain c f).regs = s.regs := only.1.regs (by decide)
  refine ⟨e', ⟨?_, ?_, ?_, ?_, ?_, ?_⟩, ?_⟩
  · rw [e']
    exact hst
  · rw [e']
    exact hbr
  · rw [e']
    exact hrp
  · rw [e', show ((s.tcore c).mature.moved (f (s.tcore c).mature.issuing)).loops = [] from hlo]
    simp
  · rw [State.fld_congr hr]
    exact h.2.2.2.2.1
  · rw [State.fld_congr hr]
    exact h.2.2.2.2.2
  · rw [e']
    exact hlo

/-- The next core after `x` with NOP. -/
def nopped (x : Core) : Core := x.mature.moved x.mature.issuing

theorem nop_again {c : Nat} {s : State} (h : turfReady c s) (hl : (s.tcore c).loops = []) :
    (s.issuePlain c fun x => x).tcore c = nopped (s.tcore c) ∧ turfReady c (s.issuePlain c fun x => x) ∧
      ((s.issuePlain c fun x => x).tcore c).loops = [] := plain_again h hl fun _ => rfl

/-- What waits in a core after NOP. -/
theorem late_nopped {x : Core} {n v m : Nat} {q : LateTo} (h : x.late = [⟨n + 2, q, v, m⟩]) : (nopped x).late = [⟨n + 1, q, v, m⟩] := by
  unfold nopped
  rw [mature_waiting h]
  rfl

/-- The late write of an instruction that also updates a pointer. -/
theorem late_modified {x : Core} (h : x.late = []) (n v : Nat) {q : LateTo} {k : Nat} (am : Nat) (hq : q ≠ .cr k) :
    (x.moved ((x.issuing.later n q v).modify k am)).late = [⟨n, q, v, 0xFFFF⟩] := by
  have e : (x.moved ((x.issuing.later n q v).modify k am)).late =
      (x.late ++ [(⟨n, q, v, 0xFFFF⟩ : Late)]).filter fun e => e.dst != LateTo.cr k := rfl
  rw [e, h]
  simp [hq]

theorem mature_due_d {x : Core} {i v m : Nat} (h : x.late = [⟨1, .d i, v, m⟩]) : x.mature.dReg i = v := by
  rw [mature_due h]
  exact SMap.get_set_same ..

theorem mature_due_dm {x : Core} {w v m : Nat} (h : x.late = [⟨1, .dm w, v, m⟩]) (j : Nat) :
    x.mature.dmWord j = if j % 8192 = w then v else x.dmWord j := by
  rw [mature_due h]
  exact SMap.get_set ..

theorem mature_due_p {x : Core} {k v m : Nat} (hk : k < 8) (h : x.late = [⟨1, .cr k, v, m⟩]) : x.mature.p k = v % 8192 := by
  have e : Core.applyLate { x with late := [] } ⟨1, .cr k, v, m⟩ = { x with late := [], cr := SMap.set 0 x.cr k (v &&& crMask k) } := by
    unfold Core.applyLate
    simp only
    rw [if_neg (by omega), if_neg (by omega)]
  have hm : crMask k = 2 ^ 13 - 1 := if_pos (by omega)
  rw [mature_due h, e, hm, Nat.and_two_pow_sub_one_eq_mod]
  exact SMap.get_set_same ..

section
variable {y : Core} {v m : Nat}

theorem seen_d {i : Nat} (h : y.late = [⟨2, .d i, v, m⟩]) : y.mature.dReg i = y.dReg i ∧ (nopped y).mature.dReg i = v := by
  refine ⟨?_, mature_due_d (late_nopped h)⟩
  rw [mature_waiting h]
  rfl

theorem seen_dm {w : Nat} (h : y.late = [⟨2, .dm w, v, m⟩]) (j : Nat) :
    y.mature.dmWord j = y.dmWord j ∧ (nopped y).mature.dmWord j = if j % 8192 = w then v else y.dmWord j := by
  have h1 : y.mature.dmWord j = y.dmWord j := by
    rw [mature_waiting h]
    rfl
  refine ⟨h1, (mature_due_dm (late_nopped h) j).trans ?_⟩
  rw [show (nopped y).dmWord j = y.mature.dmWord j from rfl, h1]

theorem seen_p {k : Nat} (hk : k < 8) (h : y.late = [⟨3, .cr k, v, m⟩]) :
    y.mature.p k = y.p k ∧ (nopped y).mature.p k = y.p k ∧ (nopped (nopped y)).mature.p k = v % 8192 := by
  have h1 : y.mature.p k = y.p k := by
    rw [mature_waiting h]
    rfl
  refine ⟨h1, ?_, mature_due_p hk (late_nopped (late_nopped h))⟩
  rw [mature_waiting (late_nopped h)]
  exact h1

theorem seen_acc (a : Nat) : y.mature.accLag a = y.accLag a ∧ (nopped y).mature.accLag a = y.accReg a := by
  unfold Core.accLag Core.accReg
  rw [mature_accL, mature_accL]
  exact ⟨rfl, congrArg (fun z => SMap.get 0 z a) (mature_acc y)⟩

end

/-- A pointer's address mode moves the pointer alone. -/
theorem frame_modify (x : Core) (i am : Nat) : (x.modify i am).frame = x.frame := rfl

/-- Before a late write with a pointer update takes effect, data memory and the d registers are as they were. -/
theorem moved_later_modify (x : Core) (n : Nat) (q : LateTo) (v k am : Nat) :
    (x.moved ((x.issuing.later n q v).modify k am)).dm = x.dm ∧ (x.moved ((x.issuing.later n q v).modify k am)).d = x.d := ⟨rfl, rfl⟩

/-- LD is seen by the second instruction after it, not by the first. -/
theorem load_seen (c : Fin 32) (d : Fin 16) (p : Fin 8) (am : Fin 4) (s : State) (h : turfReady c s) (hn : (s.tcore c).late = [])
    (hl : (s.tcore c).loops = []) : ∃ t u, exec (.tLd c d p am) s = .next t ∧ exec (.tNop c) t = .next u ∧
      (t.tcore c).mature.dReg d = (s.tcore c).dReg d ∧
      (u.tcore c).mature.dReg d = (s.tcore c).dmWord ((s.tcore c).p p) % 2 ^ 16 := by
  obtain ⟨e1, h1, l1⟩ := plain_again (f := fun x => (x.loadD d (x.dmWord (x.p p))).modify p am) h hl
    fun x => (frame_modify _ _ _).trans (frame_later x _ _ _)
  obtain ⟨e2, -, -⟩ := nop_again h1 l1
  rw [mature_of_none hn] at e1
  refine ⟨_, _, rfl, rfl, ?_⟩
  obtain ⟨s1, s2⟩ := seen_d (late_modified hn 2 ((s.tcore c).dmWord ((s.tcore c).p p) % 2 ^ 16) (q := .d d) (k := p) am (by simp))
  have kept := (moved_later_modify (s.tcore c) 2 (.d d) ((s.tcore c).dmWord ((s.tcore c).p p) % 2 ^ 16) p am).2
  rw [e2, e1]
  exact ⟨s1.trans (congrArg (fun z => SMap.get 0 z d) kept), s2⟩

/-- ST reaches DM for the second instruction after it, not for the first. -/
theorem store_seen (c : Fin 32) (d : Fin 16) (p : Fin 8) (am : Fin 4) (s : State) (h : turfReady c s) (hn : (s.tcore c).late = [])
    (hl : (s.tcore c).loops = []) : ∃ t u, exec (.tSt c d p am) s = .next t ∧ exec (.tNop c) t = .next u ∧
      (∀ w, (t.tcore c).mature.dmWord w = (s.tcore c).dmWord w) ∧
      (∀ w, w % 8192 ≠ (s.tcore c).p p % 8192 → (u.tcore c).mature.dmWord w = (s.tcore c).dmWord w) ∧
      (u.tcore c).mature.dmWord ((s.tcore c).p p) = (s.tcore c).dReg d % 2 ^ 16 := by
  obtain ⟨e1, h1, l1⟩ := plain_again (f := fun x => (x.storeDm (x.p p) (x.dReg d)).modify p am) h hl
    fun x => (frame_modify _ _ _).trans (frame_later x _ _ _)
  obtain ⟨e2, -, -⟩ := nop_again h1 l1
  rw [mature_of_none hn] at e1
  refine ⟨_, _, rfl, rfl, ?_⟩
  have seen := seen_dm (late_modified hn 2 ((s.tcore c).dReg d % 2 ^ 16) (q := .dm ((s.tcore c).p p % 8192)) (k := p) am (by simp))
  rw [e2, e1]
  have kept := (moved_later_modify (s.tcore c) 2 (.dm ((s.tcore c).p p % 8192)) ((s.tcore c).dReg d % 2 ^ 16) p am).1
  have hw (w : Nat) := congrArg (fun z => SMap.get 0 z (w % 8192)) kept
  exact ⟨fun w => (seen w).1.trans (hw w), fun w hn => ((seen w).2.trans (if_neg hn)).trans (hw w), (seen _).2.trans (if_pos rfl)⟩

/-- LDC reaches a pointer for the third instruction after it, not for the second. -/
theorem loadPointer_seen (c : Fin 32) (p : Fin 8) (imm : BitVec 16) (s : State) (h : turfReady c s) (hn : (s.tcore c).late = [])
    (hl : (s.tcore c).loops = []) :
    ∃ t u v, exec (.tLdc c ⟨p, by omega⟩ imm) s = .next t ∧ exec (.tNop c) t = .next u ∧ exec (.tNop c) u = .next v ∧
      (t.tcore c).mature.p p = (s.tcore c).p p ∧ (u.tcore c).mature.p p = (s.tcore c).p p ∧
      (v.tcore c).mature.p p = imm.toNat % 8192 := by
  obtain ⟨e1, h1, l1⟩ := plain_again (f := fun x => x.loadCr p imm.toNat) h hl fun x => by
    unfold Core.loadCr
    rw [if_pos (by omega)]
    exact frame_later x _ _ _
  obtain ⟨e2, h2, l2⟩ := nop_again h1 l1
  obtain ⟨e3, -, -⟩ := nop_again h2 l2
  rw [mature_of_none hn] at e1
  have hlate : ((s.tcore c).moved ((s.tcore c).issuing.loadCr p imm.toNat)).late = [⟨3, .cr p, imm.toNat, 0xFFFF⟩] := by
    unfold Core.loadCr
    rw [if_pos (by omega)]
    exact congrArg (· ++ [(⟨3, .cr p, imm.toNat, 0xFFFF⟩ : Late)]) hn
  have hpt : ((s.tcore c).moved ((s.tcore c).issuing.loadCr p imm.toNat)).p p = (s.tcore c).p p := crReg_loadCr _ _ _ _
  obtain ⟨s1, s2, s3⟩ := seen_p p.isLt hlate
  refine ⟨_, _, _, rfl, rfl, rfl, ?_⟩
  rw [e3, e2, e1]
  exact ⟨s1.trans hpt, s2.trans hpt, s3⟩

/-- A product is read lagging by the second instruction after MPY, not by the first. -/
theorem product_seen (c : Fin 32) (a : Fin 2) (x y : Fin 16) (s : State) (h : turfReady c s) (hn : (s.tcore c).late = [])
    (hl : (s.tcore c).loops = []) : ∃ t u, exec (.tMpy c a x y) s = .next t ∧ exec (.tNop c) t = .next u ∧
      (t.tcore c).mature.accLag a = (s.tcore c).accReg a ∧
      (u.tcore c).mature.accLag a = (s.tcore c).prod ((s.tcore c).dInt x) ((s.tcore c).dInt y) ∧
      (t.tcore c).accReg a = (u.tcore c).mature.accLag a := by
  obtain ⟨e1, h1, l1⟩ := plain_again (f := fun z => z.setAcc a (z.prod (z.dInt x) (z.dInt y))) h hl fun z => frame_setAcc z _ _
  obtain ⟨e2, -, -⟩ := nop_again h1 l1
  rw [mature_of_none hn] at e1
  refine ⟨_, _, rfl, rfl, ?_⟩
  obtain ⟨s1, s2⟩ := seen_acc (y := (s.tcore c).moved ((s.tcore c).issuing.setAcc a ((s.tcore c).prod ((s.tcore c).dInt x) ((s.tcore c).dInt y)))) a
  have hacc := accReg_setAcc_same (s.tcore c) a ((s.tcore c).prod ((s.tcore c).dInt x) ((s.tcore c).dInt y))
  rw [e2, e1]
  exact ⟨s1, s2.trans hacc, s2.symm⟩

/-- Settles O40: each late write is followed through the issues it waits. -/
theorem turfLatencies : Obligations.TurfLatencies :=
  ⟨load_seen, store_seen, loadPointer_seen, product_seen⟩

end Sys2Proof

end

section
/-! SUPPORT. Records, sends and mailbox words of a Turf core (R309, R311, R312, R315, R330). -/

set_option Elab.async false

namespace Sys2Proof

open Sys2Proof.Machine

/-! ### An instruction that stalls -/

theorem turfFlows_wait {i : Instr} {c : Nat} {s : State} {f : Core → Issue} {w : CWait} (h : turfReady c s)
    (he : exec i s = .next (s.issue c .other f)) (ef : f (s.tcore c).mature.issuing = .wait (s.tcore c).mature.issuing w) :
    turfFlows i c s (turfStall w) := by
  obtain ⟨only, e⟩ := issue_wait (h.opened .other) ef
  refine ⟨_, he, only, e.trans ((ticked_live 1 ?_).trans rfl)⟩
  show CoreSt.stalled ≠ .halted
  decide

/-- An instruction that changes nothing of its core and moves on. -/
theorem turfFlows_pass {i : Instr} {c : Nat} {s : State} {k : Place} {f : Core → Issue} (h : turfReady c s)
    (he : exec i s = .next (s.issue c k f)) (ef : f (s.tcore c).mature.issuing = .next (s.tcore c).mature.issuing) :
    turfFlows i c s turfNext := turfFlows_next h he ef (mature_st _) h.straight rfl

/-! ### GETR and RELR (R311, R330) -/

/-- Core `x` with record `r` of its ring returned. -/
def gotRec (x : Core) (ring : List TRec) (r : TRec) (sin : Word) (p : Nat) : Core :=
  ((({ x with ring := ring }.setCr p r.at_).setCr (16 + p) (fget sin fTC_SIN_BASE)).setCr (24 + p) (fget sin fTC_SIN_LEN))

theorem takeRec_none {x : Core} {sin : Word} {p : Nat} (h : ∀ q ∈ x.ring, q.ret = true) : x.takeRec sin p = none := by
  have hf : x.ring.find? (fun r => !r.ret) = none := List.find?_eq_none.mpr fun q hq => by simp [h q hq]
  unfold Core.takeRec
  rw [hf]

theorem takeRec_some {x : Core} {a b : List TRec} {r : TRec} (sin : Word) (p : Nat) (hx : x.ring = a ++ r :: b)
    (ha : ∀ q ∈ a, q.ret = true) (hr : r.ret = false) : x.takeRec sin p =
      some (if x.loss then { gotRec x (a ++ { r with ret := true } :: b) r sin p with loss := false }.setSr srLoss srLoss
        else gotRec x (a ++ { r with ret := true } :: b) r sin p) := by
  have hf : x.ring.find? (fun r => !r.ret) = some r := by
    rw [hx, List.find?_append, List.find?_eq_none.mpr fun q hq => by simp [ha q hq]]
    simp [hr]
  have ht : x.ring.takeWhile (·.ret) = a := by
    rw [hx, List.takeWhile_append_of_pos ha]
    simp [hr]
  have hd : x.ring.dropWhile (·.ret) = r :: b := by
    rw [hx, List.dropWhile_append_of_pos ha]
    simp [hr]
  unfold Core.takeRec
  rw [hf]
  simp only [ht, hd]
  rfl

@[simp] theorem d_setCr (x : Core) (i v : Nat) : (x.setCr i v).d = x.d := rfl

@[simp] theorem acc_setCr (x : Core) (i v : Nat) : (x.setCr i v).acc = x.acc := rfl

theorem gotRec_keeps (x : Core) (ring : List TRec) (r : TRec) (sin : Word) (p : Nat) :
    (gotRec x ring r sin p).frame = { x.frame with ring := ring } ∧ (gotRec x ring r sin p).d = x.d ∧ (gotRec x ring r sin p).acc = x.acc := by
  unfold gotRec
  simp only [frame_setCr, d_setCr, acc_setCr, and_self, and_true]
  rfl

theorem gotRec_reads (x : Core) (ring : List TRec) (r : TRec) (sin : Word) {p : Nat} (hp : p < 8) :
    (gotRec x ring r sin p).p p = r.at_ % 8192 ∧ (gotRec x ring r sin p).b p = fget sin fTC_SIN_BASE ∧
      (gotRec x ring r sin p).l p = fget sin fTC_SIN_LEN ∧ (gotRec x ring r sin p).sr = x.sr := by
  have m1 : ∀ i, i < 24 → ∀ v, v &&& crMask i = v % 2 ^ 13 := fun i hi v => by
    rw [show crMask i = 2 ^ 13 - 1 from if_pos hi, Nat.and_two_pow_sub_one_eq_mod]
  have m2 : ∀ v, v &&& crMask (24 + p) = v % 2 ^ 14 := fun v => by
    rw [show crMask (24 + p) = 2 ^ 14 - 1 from (if_neg (by omega)).trans (if_pos (by omega)), Nat.and_two_pow_sub_one_eq_mod]
  unfold gotRec Core.p Core.b Core.l Core.sr
  simp only [crReg_setCr]
  refine ⟨?_, ?_, ?_, ?_⟩
  · rw [if_neg (by omega), if_neg (by omega), if_pos trivial, m1 _ (by omega)]
    rfl
  · rw [if_neg (by omega), if_pos trivial, m1 _ (by omega)]
    exact Nat.mod_eq_of_lt (fget_lt _ _)
  · rw [if_pos trivial, m2]
    exact Nat.mod_eq_of_lt (fget_lt _ _)
  · rw [if_neg (by omega), if_neg (by omega), if_neg (by omega)]
    rfl

theorem tGetr_gets (c : Fin 32) (p : Fin 8) (a b : List TRec) (r : TRec) (s : State) (h : turfReady c s) (hx : (s.tcore c).ring = a ++ r :: b)
    (ha : ∀ q ∈ a, q.ret = true) (hr : r.ret = false) :
    completes (.tGetr c p) s fun t => onlyCore c s t ∧ (t.tcore c).ring = a ++ { r with ret := true } :: b ∧
      (t.tcore c).p p = r.at_ % 8192 ∧ (t.tcore c).b p = s.fld (rTC_SIN c) fTC_SIN_BASE ∧ (t.tcore c).l p = s.fld (rTC_SIN c) fTC_SIN_LEN ∧
      (t.tcore c).srBit 5 = ((s.tcore c).loss || (s.tcore c).mature.srBit 5) ∧ (t.tcore c).loss = false ∧
      (t.tcore c).pc = ((s.tcore c).pc + 1) % 2048 ∧ (t.tcore c).d = (s.tcore c).mature.d ∧ (t.tcore c).acc = (s.tcore c).acc := by
  have hm : (s.tcore c).mature.issuing.ring = a ++ r :: b := (mature_ring _).trans hx
  have hlo : (s.tcore c).mature.issuing.loss = (s.tcore c).loss := mature_loss _
  have et := takeRec_some (s.rd (rTC_SIN c)) p hm ha hr
  obtain ⟨g1, g2, g3, g4⟩ := gotRec_reads (s.tcore c).mature.issuing (a ++ { r with ret := true } :: b) r (s.rd (rTC_SIN c)) p.isLt
  obtain ⟨g, eg⟩ : ∃ g, gotRec (s.tcore c).mature.issuing (a ++ { r with ret := true } :: b) r (s.rd (rTC_SIN c)) p = g := ⟨_, rfl⟩
  obtain ⟨kf, hd, k7⟩ := gotRec_keeps (s.tcore c).mature.issuing (a ++ { r with ret := true } :: b) r (s.rd (rTC_SIN c)) p
  rw [eg] at kf hd k7
  have hri : g.ring = a ++ { r with ret := true } :: b := (congrArg Core.ring kf :)
  have hlp : g.loops = (s.tcore c).mature.loops := (congrArg Core.loops kf :)
  have hst : g.st = .running := (congrArg Core.st kf :).trans ((mature_st (s.tcore c)).trans h.1)
  have hgl : g.loss = (s.tcore c).loss := (congrArg Core.loss kf :).trans hlo
  have k4 : g.pc = (s.tcore c).mature.pc := (congrArg Core.pc kf :)
  have hpc : g.pc = (s.tcore c).pc := k4.trans (mature_pc (s.tcore c))
  have hac : g.acc = (s.tcore c).acc := k7.trans (mature_acc (s.tcore c))
  have hstr : ∀ l ∈ g.loops, g.pc ≠ l.2.1 := by
    rw [hlp, k4]
    exact h.straight
  have hsr : g.srBit 5 = (s.tcore c).mature.srBit 5 := by
    unfold Core.srBit
    rw [← eg, g4]
    rfl
  rw [eg] at et g1 g2 g3
  rw [hlo] at et
  cases hl : (s.tcore c).loss
  case false =>
    rw [hl, if_neg (by decide)] at et
    refine completes_moves h rfl (y := g) (by simp only [et]) hst hstr fun t only e => ⟨only, ?_⟩
    rw [e]
    exact ⟨hri, g1, g2, g3, hsr, hgl.trans hl, congrArg (fun n => (n + 1) % 2048) hpc, hd, hac⟩
  case true =>
    rw [hl, if_pos rfl] at et
    refine completes_moves h rfl (y := { g with loss := false }.setSr srLoss srLoss) (by simp only [et]) hst hstr fun t only e => ⟨only, ?_⟩
    have hcr : ∀ i, i ≠ 33 → ({ g with loss := false }.setSr srLoss srLoss).crReg i = g.crReg i := fun i hi => crReg_setSr_other _ _ _ _ hi
    rw [e]
    refine ⟨hri, (hcr _ (by omega)).trans g1, (hcr _ (by omega)).trans g2, (hcr _ (by omega)).trans g3, ?_, rfl,
      congrArg (fun n => (n + 1) % 2048) hpc, hd, hac⟩
    exact srBit_setSr _ srLoss srLoss 5

theorem tGetr_stalls (c : Fin 32) (p : Fin 8) (s : State) (h : turfReady c s) (hr : ∀ q ∈ (s.tcore c).ring, q.ret = true) :
    turfFlows (.tGetr c p) c s (turfStall (.getr p)) := by
  have et := takeRec_none (x := (s.tcore c).mature.issuing) (sin := s.rd (rTC_SIN c)) (p := p)
    (by rw [show (s.tcore c).mature.issuing.ring = _ from mature_ring _]; exact hr)
  exact turfFlows_wait h rfl (by simp only [et])

theorem tRelr_frees (c : Fin 32) (r : TRec) (rest : List TRec) (s : State) (h : turfReady c s) (hx : (s.tcore c).ring = r :: rest)
    (hr : r.ret = true) : turfFlows (.tRelr c) c s fun x => { turfNext x with ring := rest } := by
  have hm : (s.tcore c).mature.issuing.ring = r :: rest := (mature_ring _).trans hx
  refine turfFlows_next (y := { (s.tcore c).mature.issuing with ring := rest }) h rfl ?_ (mature_st _) h.straight rfl
  simp only [hm, hr, ↓reduceIte]

theorem tRelr_passes (c : Fin 32) (s : State) (h : turfReady c s) (hr : ∀ r ∈ (s.tcore c).ring.head?, r.ret = false) :
    turfFlows (.tRelr c) c s turfNext := by
  have hm : (s.tcore c).mature.issuing.ring = (s.tcore c).ring := mature_ring _
  refine turfFlows_pass h rfl ?_
  cases hx : (s.tcore c).ring with
  | nil =>
    rw [hx] at hm
    simp only [hm]
  | cons r rest =>
    have hf : r.ret = false := hr r (by rw [hx]; rfl)
    rw [hx] at hm
    simp only [hm, hf, Bool.false_eq_true, ↓reduceIte]

/-! ### SEND and SWAIT (R312, R330) -/

/-- The length that SEND reads in the header at pointer `p`. -/
def sendLen (x : Core) (p : Nat) : Nat :=
  32 + x.dmWord (stepPtr (x.p p) (x.b p) (x.l p) 12) + x.dmWord (stepPtr (x.p p) (x.b p) (x.l p) 13) * 2 ^ 16

theorem tSend_sends (c : Fin 32) (p : Fin 8) (r : Fin 4) (s : State) (h : turfReady c s) (hr : s.clOut (tcCluster c) r ≠ none) {len : Nat}
    (hlen : len = sendLen (s.tcore c).mature p) :
    (len % 64 = 0 → len ≤ 16384 → (s.tcore c).sendQ.length < 4 →
      turfFlows (.tSend c p r) c s fun x => { turfNext x with sendQ := x.sendQ ++ [⟨x.p p, x.b p, x.l p, r, len⟩] }) ∧
    (len % 64 = 0 → len ≤ 16384 → 4 ≤ (s.tcore c).sendQ.length →
      turfFlows (.tSend c p r) c s fun x => turfStall (.send ⟨x.p p, x.b p, x.l p, r, len⟩) x) ∧
    ((len % 64 ≠ 0 ∨ 16384 < len) → (s.tcore c).sendQ = [] → turfFaults (.tSend c p r) c s 6) := by
  subst hlen
  have hn : ¬ (s.clOut (tcCluster c) r).isNone = true := by simpa using hr
  have hq : (s.tcore c).mature.issuing.sendQ = (s.tcore c).sendQ := mature_sendQ _
  obtain ⟨x, ex⟩ : ∃ x, x = (s.tcore c).mature.issuing := ⟨_, rfl⟩
  have hs : sendLen (s.tcore c).mature p = sendLen x p := by
    rw [ex]
    rfl
  refine ⟨fun h1 h2 h3 => ?_, fun h1 h2 h3 => ?_, fun h1 h2 => ?_⟩
  · have hb : ¬ (sendLen (s.tcore c).mature p % 64 ≠ 0 ∨ 16384 < sendLen (s.tcore c).mature p) := by omega
    have h4 : (s.tcore c).mature.issuing.sendQ.length < 4 := by rw [hq]; exact h3
    exact turfFlows_next h rfl ((if_neg hn).trans ((if_neg hb).trans (if_pos h4))) (mature_st _) h.straight rfl
  · have hb : ¬ (sendLen (s.tcore c).mature p % 64 ≠ 0 ∨ 16384 < sendLen (s.tcore c).mature p) := by omega
    have h4 : ¬ (s.tcore c).mature.issuing.sendQ.length < 4 := by rw [hq]; omega
    exact turfFlows_wait h rfl ((if_neg hn).trans ((if_neg hb).trans (if_neg h4)))
  · exact turfFaults_issue c.isLt (h.opened .other) rfl ((if_neg hn).trans (if_pos h1)) (by decide) (by simp [h2])

theorem tSend_noRoute (c : Fin 32) (p : Fin 8) (r : Fin 4) (s : State) (h : turfReady c s) (hr : s.clOut (tcCluster c) r = none)
    (hq : (s.tcore c).sendQ = []) : turfFaults (.tSend c p r) c s 7 :=
  turfFaults_issue c.isLt (h.opened .other) rfl (if_pos (by simp [hr])) (by decide) (by simp [hq])

theorem tSwait_waits (c : Fin 32) (s : State) (h : turfReady c s) :
    ((s.tcore c).sendQ = [] → turfFlows (.tSwait c) c s turfNext) ∧
    ((s.tcore c).sendQ ≠ [] → turfFlows (.tSwait c) c s (turfStall .swait)) := by
  have hq : (s.tcore c).mature.issuing.sendQ = (s.tcore c).sendQ := mature_sendQ _
  exact ⟨fun h0 => turfFlows_pass h rfl (if_pos (by simp [hq, h0])), fun h0 => turfFlows_wait h rfl (if_neg (by simp [hq, h0]))⟩

/-! ### Mailbox words (R315) -/

/-- An instruction that moves on with nothing changed in its core, but with the machine left as `u`. -/
theorem issue_passesWith {i : Instr} {c : Nat} {s u : State} {f : Core → Issue} (h : turfReady c s) (he : exec i s = .next (s.issue c .other f))
    (ef : f (s.tcore c).mature.issuing = .nextWith (s.tcore c).mature.issuing u)
    (ht : u.fld (rTC_TIMER c) fTC_TIMER_EN = s.fld (rTC_TIMER c) fTC_TIMER_EN)
    (hl : u.fld (rTC_LIMIT c) fTC_LIMIT_CYCLES = s.fld (rTC_LIMIT c) fTC_LIMIT_CYCLES) :
    ∃ t, exec i s = .next t ∧ onlyCore c u t ∧ t.tcore c = turfNext (s.tcore c).mature := by
  have hst : (s.tcore c).mature.issuing.st ≠ .halted := not_halted_of_running ((mature_st _).trans h.1)
  obtain ⟨hs, hb, hr, hlo, hti, hli⟩ := id h
  obtain ⟨only, e⟩ := issue_nextWith (h.opened .other) ef (ht.trans hti) (hl.trans hli)
  refine ⟨_, he, only, e.trans ?_⟩
  rw [advance_straight (y := (s.tcore c).mature.lagging (s.tcore c).mature.issuing) ((mature_rpt _).trans hr) ((mature_br _).trans hb) h.straight]
  exact ticked_live 1 hst

/-- An instruction that changes one of its core's mailbox registers and moves on. -/
theorem mailbox_writes {i : Instr} {c : Fin 32} {s u : State} {f : Core → Issue} {m a : Nat} {srcs : List Nat} {P : State → Prop}
    (h : turfReady c s) (he : exec i s = .next (s.issue c .other f))
    (ef : f (s.tcore c).mature.issuing = .nextWith (s.tcore c).mature.issuing u) (hm : mTurf &&& m = mTurf)
    (ku : onlyIn m [a] srcs s u) (kc : ∀ k, u.tcore k = s.tcore k) (ha : a ≠ rTC_TIMER c ∧ a ≠ rTC_LIMIT c) (hs : ∀ src ∈ srcs, src < 1024)
    (hP : ∀ t, t.regs = u.regs → t.tcore c = turfNext (s.tcore c).mature → (∀ k, k ≠ c.val → t.tcore k = s.tcore k) →
      onlyIn m [a] srcs s t → P t) : completes i s P := by
  have hk : ∀ r f, a ≠ r → 0x200000 ≤ r → u.fld r f = s.fld r f := fun r f h1 h2 =>
    congrArg (fun w => fget w f) (ku.2 r (by simpa using fun e => h1 e.symm) fun src hm => by
      have := hs src hm
      simp only [evtRegs, List.mem_cons, List.not_mem_nil, or_false, rEVT_SRC, rEVT_STAT, rEVT_SEQ, rEVT_RING_IDX]
      omega)
  obtain ⟨t, et, only, e⟩ := issue_passesWith h he ef (hk _ _ ha.1 (by simp only [rTC_TIMER]; omega))
    (hk _ _ ha.2 (by simp only [rTC_LIMIT]; omega))
  have hr : t.regs = u.regs := only.1.regs (by decide)
  exact ⟨t, et, hP t hr e (fun k hk => (only.2 k hk).trans (kc k)) (ku.other only.1 hm (e := hr))⟩

theorem tMbw_writes (c : Fin 32) (w d : Fin 16) (s : State) (h : turfReady c s) :
    completes (.tMbw c w d) s fun t =>
      (t.rd (rTC_MBOUT c (w.val / 4))).toNat / 2 ^ (16 * (w.val % 4)) % 2 ^ 16 = (s.tcore c).mature.dReg d % 2 ^ 16 ∧
      (∀ j < 4, j ≠ w.val % 4 → (t.rd (rTC_MBOUT c (w.val / 4))).toNat / 2 ^ (16 * j) % 2 ^ 16 =
        (s.rd (rTC_MBOUT c (w.val / 4))).toNat / 2 ^ (16 * j) % 2 ^ 16) ∧
      t.tcore c = turfNext (s.tcore c).mature ∧ (∀ k, k ≠ c.val → t.tcore k = s.tcore k) ∧
      onlyIn (mRegs ||| mTurf) [rTC_MBOUT c (w.val / 4)] [] s t := by
  refine mailbox_writes (a := rTC_MBOUT c (w.val / 4)) (srcs := []) (m := mRegs ||| mTurf) h rfl rfl (by decide) ?_ (fun k => ?_) ?_ (by simp) ?_
  · refine .of_hi (.setFld (.refl _ _ _ _)) ?_
    simp only [List.mem_singleton, rTC_MBOUT]
    omega
  · exact (touches_State.setFld s _ _ _).tcore (by decide) k
  · simp only [rTC_MBOUT, rTC_TIMER, rTC_LIMIT]
    omega
  · intro t hr hc hk ko
    have hrd : t.rd (rTC_MBOUT c (w.val / 4)) = fset (s.rd (rTC_MBOUT c (w.val / 4))) ⟨16 * (w.val % 4), 16⟩ ((s.tcore c).mature.dReg d) := by
      rw [State.rd_congr hr]
      exact State.rd_wr_same ..
    refine ⟨?_, fun j hj hne => ?_, hc, hk, ko⟩
    · rw [hrd]
      exact fget_fset_self _ ⟨16 * (w.val % 4), 16⟩ _ (by show 16 * (w.val % 4) + 16 ≤ 64; omega)
    · rw [hrd]
      refine fget_fset_apart _ ⟨16 * (w.val % 4), 16⟩ ⟨16 * j, 16⟩ _ ⟨?_, ?_⟩
      · show 16 * (w.val % 4) + 16 ≤ 64
        omega
      · show 16 * j + 16 ≤ 16 * (w.val % 4) ∨ 16 * (w.val % 4) + 16 ≤ 16 * j
        omega

theorem tMback_frees (c : Fin 32) (s : State) (h : turfReady c s) :
    completes (.tMback c) s fun t => t.fld (rTC_MBIN_CTRL c) fTC_MBIN_CTRL_FULL = 0 ∧
      t.fld (rTC_MBIN_CTRL c) fTC_MBIN_CTRL_OVERRUN = s.fld (rTC_MBIN_CTRL c) fTC_MBIN_CTRL_OVERRUN ∧
      t.tcore c = turfNext (s.tcore c).mature ∧ (∀ k, k ≠ c.val → t.tcore k = s.tcore k) ∧
      onlyIn (mRegs ||| mTurf) [rTC_MBIN_CTRL c] [] s t := by
  refine mailbox_writes (a := rTC_MBIN_CTRL c) (srcs := []) (m := mRegs ||| mTurf) h rfl rfl (by decide) ?_ (fun k => ?_) ?_ (by simp) ?_
  · refine .of_hi (.setFld (.refl _ _ _ _)) ?_
    simp only [List.mem_singleton, rTC_MBIN_CTRL]
    omega
  · exact (touches_State.setFld s _ _ _).tcore (by decide) k
  · simp only [rTC_MBIN_CTRL, rTC_TIMER, rTC_LIMIT]
    omega
  · intro t hr hc hk ko
    refine ⟨?_, ?_, hc, hk, ko⟩
    · rw [State.fld_congr hr]
      exact State.fld_setFld_self _ _ _ _ (by decide)
    · rw [State.fld_congr hr]
      exact State.fld_setFld_apart _ _ _ _ _ _ (by decide)

theorem tMbpost_posts (c : Fin 32) (s : State) (h : turfReady c s) (hf : s.flag (rTC_MBOUT_CTRL c) fTC_MBOUT_CTRL_FULL = false) :
    completes (.tMbpost c) s fun t => t.flag (rTC_MBOUT_CTRL c) fTC_MBOUT_CTRL_FULL = true ∧
      t.tcore c = turfNext (s.tcore c).mature ∧ (∀ k, k ≠ c.val → t.tcore k = s.tcore k) ∧
      onlyIn (mEvent ||| mTurf) [rTC_MBOUT_CTRL c] [386 + 4 * c] s t := by
  refine mailbox_writes (a := rTC_MBOUT_CTRL c) (srcs := [386 + 4 * c.val]) (m := mEvent ||| mTurf) h rfl (if_neg (by simp [hf])) (by decide) ?_
    (fun k => ?_) ?_ (by simp only [List.mem_singleton]; omega) ?_
  · refine .of_hi (.raise (.setFld (.refl _ _ _ _))) ?_
    simp only [List.mem_singleton, rTC_MBOUT_CTRL]
    omega
  · exact ((touches_State.raise _ _ _ _ _).tcore (by decide) k).trans ((touches_State.setFld s _ _ _).tcore (by decide) k)
  · simp only [rTC_MBOUT_CTRL, rTC_TIMER, rTC_LIMIT]
    omega
  · intro t hr hc hk ko
    refine ⟨?_, hc, hk, ko⟩
    unfold State.flag
    rw [State.fld_congr hr]
    unfold State.mbPost
    rw [State.fld_raise_other _ _ _ _ _ _ _ (by simp only [rTC_MBOUT_CTRL]; omega), State.fld_setFld_self _ _ _ _ (by decide)]
    rfl

/-- Settles O41: an instruction that waits leaves its core stalled, one that goes on leaves it one instruction on. -/
theorem turfRecordsAndMailbox : Obligations.TurfRecordsAndMailbox := by
  unfold Obligations.TurfRecordsAndMailbox
  refine ⟨tGetr_gets, tGetr_stalls, tRelr_frees, tRelr_passes, fun c p r len s h hr hlen => tSend_sends c p r s h hr hlen, tSend_noRoute,
    tSwait_waits, ?_, tMbw_writes, tMback_frees, tMbpost_posts, ?_, ?_⟩
  · intro c d w s h
    refine turfRuns_next h rfl (fun x => ?_) (fun _ => rfl) fun _ => rfl
    have k := (plainEffect.refl (as := []) x).loadD d (fget (s.rd (rTC_MBIN c (w.val / 4))) ⟨16 * (w.val % 4), 16⟩)
    rw [Nat.mod_eq_of_lt (fget_lt _ ⟨16 * (w.val % 4), 16⟩)] at k
    exact k
  · intro c s h hf
    exact turfFlows_wait h rfl (if_pos hf)
  · intro c p r d w s h i hi
    have hp : ∀ k f, Host.Outcome.next (s.issue c k f) = (Host.Outcome.next s : Host.Outcome State Fault Refusal) := fun k f =>
      congrArg _ (issue_idle k f h)
    simp only [List.mem_cons, List.not_mem_nil, or_false] at hi
    rcases hi with rfl | rfl | rfl | rfl | rfl | rfl | rfl | rfl <;> exact hp _ _

end Sys2Proof

end

section
/-! SUPPORT. The host's commands to a Turf core, its timer, watchdog and interrupts (R306, R307, R309, R315 to R317, R326 to R328). -/

set_option Elab.async false

namespace Sys2Proof

open Sys2Proof.Machine

/-! ### 64-bit host writes in READY -/

theorem next_write64 {s t : State} {a : Nat} {f : State → State} (h : s.ready = true) (e : f (s.dropStaged .host a) = t) :
    (.next (s.write64 .host a f) : Res) = .next t := by
  unfold State.write64
  rw [if_pos (State.windowOpen_ready h a), e]

/-- What a write leaves as it was before it drops what the path had staged. -/
theorem dropStaged_same (s : State) (p : Path) (a : Nat) :
    (s.dropStaged p a).regs = s.regs ∧ (s.dropStaged p a).plan = s.plan ∧ (s.dropStaged p a).turf = s.turf :=
  ⟨State.dropStaged_regs .., State.dropStaged_plan .., State.dropStaged_turf ..⟩

/-! ### What moving on keeps -/

/-- What of a core moving on does not touch, but for control registers other than the loop count and sr. -/
def Machine.Core.rest (x : Core) : Core :=
  { x with pc := 0, br := none, rpt := none, after := false, loops := [], cr := [], late := [] }

/-- Moving on touches pc, the branch, repeat and loops under way, the loop count and sr. -/
def movedOn (x y : Core) : Prop := y.rest = x.rest ∧ ∀ i, i ≠ 32 → i ≠ 33 → y.crReg i = x.crReg i

theorem movedOn.setCr {x y : Core} {v : Nat} (h : movedOn x y) : movedOn x (y.setCr 32 v) :=
  ⟨h.1, fun i h2 h3 => ((crReg_setCr ..).trans (if_neg h2)).trans (h.2 i h2 h3)⟩

theorem movedOn.setSr {x y : Core} {m v : Nat} (h : movedOn x y) : movedOn x (y.setSr m v) :=
  ⟨h.1, fun i h2 h3 => (crReg_setSr_other _ _ _ _ h3).trans (h.2 i h2 h3)⟩

theorem movedOn_loopNext (n : Nat) {x y : Core} (h : movedOn x y) : movedOn x (y.loopNext n) := by
  induction n generalizing y with
  | zero => exact h
  | succ n ih =>
    unfold Core.loopNext
    split
    case h_1 st en saved rest hl =>
      split
      · split
        · exact ih (movedOn.setCr (y := { y with loops := rest }) h)
        · exact movedOn.setCr (v := y.lc - 1) h
      · exact h
    case h_2 => exact h

theorem movedOn_slotNext (b : Option Br) {x y : Core} (h : movedOn x y) : movedOn x (y.slotNext b) := by
  unfold Core.slotNext
  split
  case h_1 => exact movedOn_loopNext 4 h
  case h_2 q =>
    have k : ∀ z : Core, movedOn x z → movedOn x (if q.ie = true then z.setSr srIe srIe else z) := fun z hz => by
      split
      · exact hz.setSr
      · exact hz
    split
    · split
      · exact k _ h
      · exact k _ (movedOn_loopNext 4 (y := { y with br := none }) h)
    · exact h

theorem movedOn_advance (x0 y : Core) : movedOn y (Core.advance x0 y) := by
  have h : movedOn y y := ⟨rfl, fun _ _ _ => rfl⟩
  unfold Core.advance
  split
  case h_1 n _ =>
    split
    · exact h
    · exact movedOn_slotNext _ (y := { y with rpt := none, after := true }) h
  case h_2 => exact movedOn_slotNext _ h

/-! ### Interrupt bits (R326) -/

/-- A bit of ipr sets, and a core that waits for it goes on. -/
theorem pend_effect (x : Core) (i : Nat) : (x.pend i).ipr = x.ipr ||| 2 ^ i ∧ (x.pend i).timer = x.timer ∧ (x.pend i).d = x.d ∧
    (x.pend i).acc = x.acc ∧ (x.st ≠ .idle → x.pend i = { x with cr := SMap.set 0 x.cr 35 (x.ipr ||| 2 ^ i) }) := by
  obtain ⟨y, ey⟩ : ∃ y, y = { x with cr := SMap.set 0 x.cr 35 (x.ipr ||| 2 ^ i) } := ⟨_, rfl⟩
  have hy : y.ipr = x.ipr ||| 2 ^ i ∧ y.timer = x.timer ∧ y.d = x.d ∧ y.acc = x.acc ∧ y.st = x.st := by
    rw [ey]
    exact ⟨SMap.get_set_same .., rfl, rfl, rfl, rfl⟩
  have ep : x.pend i = y.wakeIdle := by
    rw [ey]
    rfl
  obtain ⟨h1, h2, h3, h4, h5⟩ := hy
  rw [ep]
  by_cases hw : (decide (y.st = .idle) && y.pending != 0) = true
  · have ew : y.wakeIdle = Core.advance y { y with st := .running } := if_pos hw
    obtain ⟨k1, k2⟩ := movedOn_advance y { y with st := .running }
    rw [ew]
    refine ⟨(k2 35 (by decide) (by decide)).trans h1, (congrArg Core.timer k1 :).trans h2, (congrArg Core.d k1 :).trans h3,
      (congrArg Core.acc k1 :).trans h4, fun hn => ?_⟩
    rw [Bool.and_eq_true, decide_eq_true_eq, h5] at hw
    exact absurd hw.1 hn
  · have ew : y.wakeIdle = y := if_neg hw
    rw [ew]
    exact ⟨h1, h2, h3, h4, fun _ => ey⟩

theorem or_two_pow_bit (a i : Nat) : (a ||| 2 ^ i) / 2 ^ i % 2 = 1 := by
  have h : (a ||| 2 ^ i).testBit i = true := by simp
  rw [Nat.testBit_eq_decide_div_mod_eq] at h
  exact of_decide_eq_true h

/-! ### Starting and stopping a run (R316, R317) -/

/-- The writes of TC_CTRL before RUN and ABORT take effect. -/
theorem entry_held {s d : State} (c : Nat) (v : Nat) (e : s.setFld (rTC_CTRL c) fTC_CTRL_ENTRY v = d) :
    (∀ k, d.tcore k = s.tcore k) ∧ d.plan = s.plan ∧ (∀ a, a ≠ rTC_CTRL c → d.rd a = s.rd a) ∧ d.fld (rTC_CTRL c) fTC_CTRL_ENTRY = v % 2 ^ 11 ∧
      onlyIn mRegs [rTC_CTRL c] [] s d := by
  subst e
  refine ⟨(touches_State.setFld s _ _ _).tcore (by decide), State.setFld_plan .., fun a ha => State.rd_setFld_other _ _ _ ha,
    State.fld_setFld_self _ _ _ _ (by decide), .of_hi (.setFld (.refl _ _ _ _)) ?_⟩
  simp only [List.mem_singleton, rTC_CTRL]
  omega

/-- Core `x` as a run starts at `pc`. -/
def started (x : Core) (pc : Nat) : Core :=
  ((({ x with
      st := .running
      late := []
      pc := pc
      br := none
      rpt := none
      after := false
      calls := []
      loops := []
      wait := none
      vL := false
      accL := x.acc
      cycles := 0
      ring := x.ring.map fun r => { r with ret := false } } : Core).setCr 33 0).setCr 34 0).setCr 35 0

theorem started_keeps (x : Core) (pc : Nat) : (started x pc).frame =
    { x.frame with
      st := .running
      pc := pc
      br := none
      rpt := none
      after := false
      calls := []
      loops := []
      wait := none
      cycles := 0
      ring := x.ring.map fun r => { r with ret := false } } ∧ (started x pc).d = x.d ∧ (started x pc).acc = x.acc := by
  unfold started
  simp only [frame_setCr, d_setCr, acc_setCr, and_self, and_true]
  rfl

theorem started_cr (x : Core) (pc i : Nat) :
    (started x pc).crReg i = if i = 33 ∨ i = 34 ∨ i = 35 then 0 else x.crReg i := by
  unfold started
  simp only [crReg_setCr, Nat.zero_and]
  by_cases h5 : i = 35
  · rw [if_pos h5, if_pos (by omega)]
  · rw [if_neg h5]
    by_cases h4 : i = 34
    · rw [if_pos h4, if_pos (by omega)]
    · rw [if_neg h4]
      by_cases h3 : i = 33
      · rw [if_pos h3, if_pos (by omega)]
      · rw [if_neg h3, if_neg (by omega)]
        rfl

theorem tcRun_starts {d : State} {c : Nat} (hc : c < 32) (h : (d.tcore c).st = .halted) {t : State} (e : d.tcRun c = t) :
    t.tcore c = started (d.tcore c) (d.fld (rTC_CTRL c) fTC_CTRL_ENTRY) ∧ (∀ k, k ≠ c → t.tcore k = d.tcore k) ∧
      t.fld (rTC_STATUS c) fTC_STATUS_RESULT = 0 ∧ t.fld (rTC_STATUS c) fTC_STATUS_CAUSE = 0 ∧
      onlyIn (mRegs ||| mTurf) [rTC_STATUS c] [] d t := by
  obtain ⟨w, ew⟩ : ∃ w, d.setFlds (rTC_STATUS c) [(fTC_STATUS_RESULT, 0), (fTC_STATUS_CAUSE, 0)] = w := ⟨_, rfl⟩
  have et : t = w.setTcore c (started (d.tcore c) (d.fld (rTC_CTRL c) fTC_CTRL_ENTRY)) := by
    rw [← e, ← ew]
    unfold State.tcRun
    simp only [h, bne_self_eq_false, Bool.false_eq_true, ↓reduceIte]
    rfl
  have kw : onlyIn (mRegs ||| mTurf) [rTC_STATUS c] [] d w := by
    rw [← ew]
    refine .of_hi (.setFlds (.refl _ _ _ _)) ?_
    simp only [List.mem_singleton, rTC_STATUS]
    omega
  refine ⟨?_, fun k hk => ?_, ?_, ?_, et ▸ kw.trans (onlyIn_setTcore (by decide) _ _ _)⟩
  · rw [et, tcore_setTcore_same]
  · rw [et, tcore_setTcore_other _ _ hk, ← ew]
    exact (touches_State.setFlds d _ _).tcore (by decide) k
  all_goals
    rw [et, State.fld_setTcore, ← ew]
    simp (disch := decide)

end Sys2Proof

end

section
/-! SUPPORT. What the host's commands to a Turf core leave, clause by clause (R306, R307, R309, R315 to R317, R326 to R328). -/

set_option Elab.async false

namespace Sys2Proof

open Sys2Proof.Machine

/-! ### TC_CTRL (R316, R317) -/

theorem wrTcCtrl_run (s : State) (c : Nat) (v : Word) (f : Fld) (hf : f = fTC_CTRL_ENTRY ∨ f = fTC_CTRL_ABORT) :
    fget (fset v fTC_CTRL_RUN 1) f = fget v f ∧ fget (fset v fTC_CTRL_RUN 1) fTC_CTRL_RUN = 1 := by
  rcases hf with rfl | rfl
  · exact ⟨fget_fset_apart _ _ _ _ (by decide), fget_fset_self _ _ _ (by decide)⟩
  · exact ⟨fget_fset_apart _ _ _ _ (by decide), fget_fset_self _ _ _ (by decide)⟩

theorem tcRun_runs (c : Fin 32) (v : Word) (s : State) (h : s.ready = true) (hh : (s.tcore c).st = .halted) :
    completes (.tcRun c v) s fun t =>
      (t.tcore c).st = .running ∧ (t.tcore c).pc = fget v fTC_CTRL_ENTRY ∧ (t.tcore c).calls = [] ∧ (t.tcore c).loops = [] ∧
      (t.tcore c).sr = 0 ∧ (t.tcore c).ier = 0 ∧ (t.tcore c).ipr = 0 ∧ (t.tcore c).cycles = 0 ∧
      (∀ i < 33, (t.tcore c).crReg i = (s.tcore c).crReg i) ∧
      ((t.tcore c).pm, (t.tcore c).dm, (t.tcore c).d, (t.tcore c).acc, (t.tcore c).sendQ) =
        ((s.tcore c).pm, (s.tcore c).dm, (s.tcore c).d, (s.tcore c).acc, (s.tcore c).sendQ) ∧
      (t.tcore c).ring = (s.tcore c).ring.map (fun r => { r with ret := false }) ∧
      t.fld (rTC_STATUS c) fTC_STATUS_RESULT = 0 ∧ t.fld (rTC_STATUS c) fTC_STATUS_CAUSE = 0 ∧
      (∀ k, k ≠ c.val → t.tcore k = s.tcore k) ∧ onlyIn (mRegs ||| mStaged ||| mTurf) [rTC_CTRL c, rTC_STATUS c] [] s t := by
  obtain ⟨-, -, hturf⟩ := dropStaged_same s .host (rTC_CTRL c)
  have hd : ∀ k, (s.dropStaged .host (rTC_CTRL c)).tcore k = s.tcore k := fun k => congrArg (fun m => SMap.get core0 m k) hturf
  obtain ⟨u, eu⟩ : ∃ u, (s.dropStaged .host (rTC_CTRL c)).setFld (rTC_CTRL c) fTC_CTRL_ENTRY (fget v fTC_CTRL_ENTRY) = u := ⟨_, rfl⟩
  obtain ⟨uc, -, -, ue, uo⟩ := entry_held c _ eu
  have huc : ∀ k, u.tcore k = s.tcore k := fun k => (uc k).trans (hd k)
  have hhu : (u.tcore c).st = .halted := by rw [huc]; exact hh
  have e : State.wrTcCtrl c (fset v fTC_CTRL_RUN 1) (s.dropStaged .host (rTC_CTRL c)) = u.tcRun c := by
    unfold State.wrTcCtrl
    rw [(wrTcCtrl_run s c v _ (.inl rfl)).1, (wrTcCtrl_run s c v _ (.inr rfl)).1, (wrTcCtrl_run s c v _ (.inl rfl)).2, eu]
    have ha : u.tcAbort c 1 = u := if_pos hhu
    simp only [ha, ite_self, ↓reduceIte]
  obtain ⟨tc, tk, tr, tca, tt⟩ := tcRun_starts c.isLt hhu (rfl : u.tcRun c = u.tcRun c)
  rw [huc, ue, fget_mod] at tc
  obtain ⟨kf, kd, ka⟩ := started_keeps (s.tcore c) (fget v fTC_CTRL_ENTRY)
  have kc := started_cr (s.tcore c) (fget v fTC_CTRL_ENTRY)
  rw [← tc] at kf kd ka kc
  refine ⟨_, next_write64 h e, (congrArg Core.st kf :), (congrArg Core.pc kf :), (congrArg Core.calls kf :), (congrArg Core.loops kf :), ?_, ?_, ?_,
    (congrArg Core.cycles kf :), fun i hi => ?_, ?_, (congrArg Core.ring kf :), tr, tca, fun k hk => (tk k hk).trans (huc k), ?_⟩
  · exact (kc 33).trans (if_pos (by omega))
  · exact (kc 34).trans (if_pos (by omega))
  · exact (kc 35).trans (if_pos (by omega))
  · exact (kc i).trans (if_neg (by omega))
  · rw [kd, ka]
    exact (congrArg (fun z : Core => (z.pm, z.dm, (s.tcore c).d, (s.tcore c).acc, z.sendQ)) kf :)
  · exact ((onlyIn.refl _ _ _ s).dropStaged.trans (uo.mono (by decide) (by simp) (by simp))).trans (tt.mono (by decide) (by simp) (by simp))

theorem tcRun_discarded (c : Fin 32) (v : Word) (s : State) (h : s.ready = true) (hh : (s.tcore c).st ≠ .halted) (hv : fget v fTC_CTRL_ABORT = 0) :
    completes (.tcRun c v) s fun t =>
      t.fld (rTC_STAT c) fTC_STAT_CMD_DISC = satN 16 (s.fld (rTC_STAT c) fTC_STAT_CMD_DISC + 1) ∧ t.turf = s.turf ∧
      onlyIn (mRegs ||| mStaged) [rTC_CTRL c, rTC_STAT c] [] s t := by
  obtain ⟨hregs, -, hturf⟩ := dropStaged_same s .host (rTC_CTRL c)
  have hd : ∀ k, (s.dropStaged .host (rTC_CTRL c)).tcore k = s.tcore k := fun k => congrArg (fun m => SMap.get core0 m k) hturf
  obtain ⟨u, eu⟩ : ∃ u, (s.dropStaged .host (rTC_CTRL c)).setFld (rTC_CTRL c) fTC_CTRL_ENTRY (fget v fTC_CTRL_ENTRY) = u := ⟨_, rfl⟩
  obtain ⟨uc, -, ur, ue, uo⟩ := entry_held c _ eu
  have huc : ∀ k, u.tcore k = s.tcore k := fun k => (uc k).trans (hd k)
  have e : State.wrTcCtrl c (fset v fTC_CTRL_RUN 1) (s.dropStaged .host (rTC_CTRL c)) = u.addSat (rTC_STAT c) fTC_STAT_CMD_DISC 1 := by
    unfold State.wrTcCtrl
    rw [(wrTcCtrl_run s c v _ (.inl rfl)).1, (wrTcCtrl_run s c v _ (.inr rfl)).1, (wrTcCtrl_run s c v _ (.inl rfl)).2, eu, hv]
    simp only [↓reduceIte, OfNat.zero_ne_ofNat, zero_ne_one]
    exact if_pos (by rw [huc]; simpa using hh)
  refine ⟨_, next_write64 h e, ?_, ?_, ?_⟩
  · rw [State.fld_addSat_self _ _ _ _ (by decide)]
    have er : u.fld (rTC_STAT c) fTC_STAT_CMD_DISC = s.fld (rTC_STAT c) fTC_STAT_CMD_DISC :=
      congrArg (fun w => fget w fTC_STAT_CMD_DISC) ((ur _ (by simp only [rTC_STAT, rTC_CTRL]; omega)).trans (State.rd_congr hregs _))
    rw [er]
  · exact ((touches_State.addSat u _ _ _).turf (by decide)).trans ((uo.1.turf (by decide)).trans hturf)
  · refine ((onlyIn.refl _ _ _ s).dropStaged.trans (uo.mono (by decide) (by simp) (by simp))).trans (.of_hi (.addSat (.refl _ _ _ _)) ?_)
    simp only [List.mem_cons, List.not_mem_nil, or_false, rTC_CTRL, rTC_STAT]
    omega

theorem wrTcCtrl_abort (v : Word) (f : Fld) (hf : f = fTC_CTRL_ENTRY ∨ f = fTC_CTRL_RUN) :
    fget (fset v fTC_CTRL_ABORT 1) f = fget v f ∧ fget (fset v fTC_CTRL_ABORT 1) fTC_CTRL_ABORT = 1 := by
  rcases hf with rfl | rfl
  · exact ⟨fget_fset_apart _ _ _ _ (by decide), fget_fset_self _ _ _ (by decide)⟩
  · exact ⟨fget_fset_apart _ _ _ _ (by decide), fget_fset_self _ _ _ (by decide)⟩

/-- A write of TC_CTRL with ABORT and without RUN. -/
theorem wrTcCtrl_aborts (d : State) (c : Nat) (v : Word) (hv : fget v fTC_CTRL_RUN = 0) :
    State.wrTcCtrl c (fset v fTC_CTRL_ABORT 1) d = (d.setFld (rTC_CTRL c) fTC_CTRL_ENTRY (fget v fTC_CTRL_ENTRY)).tcAbort c 1 := by
  unfold State.wrTcCtrl
  rw [(wrTcCtrl_abort v _ (.inl rfl)).1, (wrTcCtrl_abort v _ (.inl rfl)).2, (wrTcCtrl_abort v _ (.inr rfl)).1, hv]
  rw [if_neg (by decide), if_pos rfl]

theorem tcAbort_aborts (c : Fin 32) (v : Word) (s : State) (h : s.ready = true) (hh : (s.tcore c).st ≠ .halted) (hv : fget v fTC_CTRL_RUN = 0)
    (hq : ∀ q ∈ (s.tcore c).sendQ, (s.clOut (tcCluster c) q.r).bind (·.ctx) = none) :
    completes (.tcAbort c v) s fun t => (t.tcore c).st = .halted ∧ (t.tcore c).sendQ = [] ∧ (t.tcore c).late = [] ∧
      t.fld (rTC_STATUS c) fTC_STATUS_RESULT = 2 ∧ t.fld (rTC_STATUS c) fTC_STATUS_CAUSE = 1 ∧
      t.fld (rTC_STATUS c) fTC_STATUS_RUNS = (s.fld (rTC_STATUS c) fTC_STATUS_RUNS + 1) % 2 ^ 16 ∧
      t.fld (rTC_SOUT_STAT c) fTC_SOUT_STAT_DISCARDED =
        satN 16 (s.fld (rTC_SOUT_STAT c) fTC_SOUT_STAT_DISCARDED + (s.tcore c).sendQ.length) ∧
      onlyIn (mEvent ||| mStaged ||| mTurf) [rTC_CTRL c, rTC_STATUS c, rTC_SOUT_STAT c] [385 + 4 * c] s t := by
  obtain ⟨hregs, hplan, hturf⟩ := dropStaged_same s .host (rTC_CTRL c)
  have hd : ∀ k, (s.dropStaged .host (rTC_CTRL c)).tcore k = s.tcore k := fun k => congrArg (fun m => SMap.get core0 m k) hturf
  obtain ⟨u, eu⟩ : ∃ u, (s.dropStaged .host (rTC_CTRL c)).setFld (rTC_CTRL c) fTC_CTRL_ENTRY (fget v fTC_CTRL_ENTRY) = u := ⟨_, rfl⟩
  obtain ⟨uc, up, ur, ue, uo⟩ := entry_held c _ eu
  have huc : ∀ k, u.tcore k = s.tcore k := fun k => (uc k).trans (hd k)
  have hrd : ∀ a, a ≠ rTC_CTRL c → u.rd a = s.rd a := fun a ha => (ur a ha).trans (State.rd_congr hregs a)
  have hfl : ∀ a f, a ≠ rTC_CTRL c → u.fld a f = s.fld a f := fun a f ha => congrArg (fun w => fget w f) (hrd a ha)
  have e := wrTcCtrl_aborts (s.dropStaged .host (rTC_CTRL c)) c v hv
  rw [eu] at e
  obtain ⟨tc, -, tr, tca, tru, -, td, tt⟩ := tcAbort_effect (s := u) (cause := 1) c.isLt (by rw [huc]; exact hh)
    (by
      rw [huc]
      intro q hm
      rw [clOut_congr (up.trans hplan) (hrd _ (by simp only [rPLAN_SLOT_STATE, rTC_CTRL]; omega))]
      exact hq q hm) rfl
  refine ⟨_, next_write64 h e, ?_, ?_, ?_, tr, tca, ?_, ?_, ?_⟩
  · rw [tc]
    rfl
  · rw [tc]
    rfl
  · rw [tc]
    exact late_retire _
  · rw [tru, hfl _ _ (by simp only [rTC_STATUS, rTC_CTRL]; omega)]
  · rw [td, huc, hfl _ _ (by simp only [rTC_SOUT_STAT, rTC_CTRL]; omega)]
  · exact ((onlyIn.refl _ _ _ s).dropStaged.trans (uo.mono (by decide) (by simp) (by simp))).trans (tt.mono (by decide) (by simp) (by simp))

theorem tcAbort_halted (c : Fin 32) (v : Word) (s : State) (h : s.ready = true) (hh : (s.tcore c).st = .halted) (hv : fget v fTC_CTRL_RUN = 0) :
    exec (.tcAbort c v) s =
      .next ((s.dropStaged .host (rTC_CTRL c)).setFld (rTC_CTRL c) fTC_CTRL_ENTRY (fget v fTC_CTRL_ENTRY)) := by
  obtain ⟨-, -, hturf⟩ := dropStaged_same s .host (rTC_CTRL c)
  refine next_write64 h ((wrTcCtrl_aborts _ c v hv).trans (if_pos ?_))
  rw [(touches_State.setFld _ _ _ _).tcore (by decide)]
  exact (congrArg (fun m => (SMap.get core0 m c.val).st) hturf).trans hh

/-! ### The memories and the ring (R306, R307, R309) -/

theorem tcPmWrite_writes (c : Fin 32) (a : Fin 2048) (v : BitVec 32) (s : State) (h : s.ready = true) :
    completes (.tcPmWrite c a v) s fun t =>
      ((s.tcore c).st = .halted → t.tcore c = { s.tcore c with pm := SMap.set 0 (s.tcore c).pm a v.toNat } ∧ onlyCore c s t) ∧
      ((s.tcore c).st ≠ .halted → t.fld (rTC_STAT c) fTC_STAT_PM_DISC = satN 16 (s.fld (rTC_STAT c) fTC_STAT_PM_DISC + 1) ∧
        onlyIn mRegs [rTC_STAT c] [] s t) := by
  refine ⟨_, congrArg Host.Outcome.next (if_pos (State.windowOpen_ready h _)), fun hh => ?_, fun hh => ?_⟩
  · have e : s.wrPm c a [v.toNat] = s.setTcore c { s.tcore c with pm := SMap.set 0 (s.tcore c).pm a v.toNat } := by
      unfold State.wrPm
      rw [if_neg (by simp [hh])]
      have hm : v.toNat % 2 ^ 32 = v.toNat := Nat.mod_eq_of_lt v.isLt
      show s.setTcore c { s.tcore c with pm := SMap.set 0 (s.tcore c).pm (a + 0) (v.toNat % 2 ^ 32) } = _
      rw [hm]
      rfl
    rw [e]
    exact ⟨tcore_setTcore_same _ _ _, onlyCore_setTcore _ _ _⟩
  · have e : s.wrPm c a [v.toNat] = s.addSat (rTC_STAT c) fTC_STAT_PM_DISC 1 := if_pos (by simpa using hh)
    rw [e]
    refine ⟨State.fld_addSat_self _ _ _ _ (by decide), .of_hi (.addSat (.refl _ _ _ _)) ?_⟩
    simp only [List.mem_singleton, rTC_STAT]
    omega

theorem tcDmWrite_writes (c : Fin 32) (a : Fin 4096) (v : BitVec 32) (s : State) (h : s.ready = true) :
    completes (.tcDmWrite c a v) s fun t => onlyCore c s t ∧ (t.tcore c).dmWord (2 * a) = v.toNat % 2 ^ 16 ∧
      (t.tcore c).dmWord (2 * a + 1) = v.toNat / 2 ^ 16 ∧
      (∀ w < 8192, w ≠ 2 * a.val → w ≠ 2 * a.val + 1 → (t.tcore c).dmWord w = (s.tcore c).dmWord w) ∧
      { t.tcore c with dm := (s.tcore c).dm } = s.tcore c := by
  refine ⟨_, congrArg Host.Outcome.next (if_pos (State.windowOpen_ready h _)), ?_⟩
  have e : s.wrDm c (2 * a) [v.toNat % 2 ^ 16, v.toNat / 2 ^ 16] = s.setTcore c { s.tcore c with
      dm := SMap.set 0 (SMap.set 0 (s.tcore c).dm (2 * a) (v.toNat % 2 ^ 16)) (2 * a + 1) (v.toNat / 2 ^ 16) } := by
    have h1 : v.toNat % 2 ^ 16 % 2 ^ 16 = v.toNat % 2 ^ 16 := Nat.mod_mod ..
    have h2 : v.toNat / 2 ^ 16 % 2 ^ 16 = v.toNat / 2 ^ 16 := Nat.mod_eq_of_lt (by have := v.isLt; omega)
    show s.setTcore c { s.tcore c with
      dm := SMap.set 0 (SMap.set 0 (s.tcore c).dm (2 * a + 0) (v.toNat % 2 ^ 16 % 2 ^ 16)) (2 * a + 1) (v.toNat / 2 ^ 16 % 2 ^ 16) } = _
    rw [h1, h2]
    rfl
  have hw : ∀ w, w < 8192 → w % 8192 = w := fun w hw => Nat.mod_eq_of_lt hw
  rw [e]
  dsimp only
  rw [tcore_setTcore_same]
  refine ⟨onlyCore_setTcore _ _ _, ?_, ?_, fun w h1 h2 h3 => ?_, rfl⟩
  · unfold Core.dmWord
    rw [hw _ (by omega), SMap.get_set_other _ _ _ _ (by omega), SMap.get_set_same]
  · unfold Core.dmWord
    rw [hw _ (by omega), SMap.get_set_same]
  · unfold Core.dmWord
    rw [hw _ h1, SMap.get_set_other _ _ _ _ h3, SMap.get_set_other _ _ _ _ h2]

theorem tcSinWrite_writes (c : Fin 32) (v : Word) (s : State) (h : s.ready = true) :
    ((s.tcore c).ring = [] →
      (fget v fTC_SIN_LEN = 0 ∨ 64 ≤ fget v fTC_SIN_LEN ∧ fget v fTC_SIN_LEN ≤ 8192 ∧ fget v fTC_SIN_LEN % 32 = 0) →
      fget v fTC_SIN_BASE % 32 = 0 → fget v fTC_SIN_BASE + fget v fTC_SIN_LEN ≤ 8192 →
      completes (.tcSinWrite c v) s fun t => t.fld (rTC_SIN c) fTC_SIN_LEN = fget v fTC_SIN_LEN ∧
        t.fld (rTC_SIN c) fTC_SIN_BASE = fget v fTC_SIN_BASE ∧ t.tcore c = { s.tcore c with wptr := fget v fTC_SIN_BASE } ∧
        onlyIn (mRegs ||| mStaged ||| mTurf) [rTC_SIN c] [] s t) ∧
    ((s.tcore c).ring ≠ [] →
      exec (.tcSinWrite c v) s = .next ((s.dropStaged .host (rTC_SIN c)).addSat (rTC_STAT c) fTC_STAT_CFG_DISC 1)) := by
  obtain ⟨-, -, hturf⟩ := dropStaged_same s .host (rTC_SIN c)
  obtain ⟨d, ed⟩ : ∃ d, s.dropStaged .host (rTC_SIN c) = d := ⟨_, rfl⟩
  have kd : onlyIn (mRegs ||| mStaged ||| mTurf) [rTC_SIN c] [] s d := ed ▸ (onlyIn.refl _ _ _ s).dropStaged
  rw [ed] at hturf
  have hd : d.tcore c = s.tcore c := congrArg (fun m => SMap.get core0 m c.val) hturf
  rw [ed]
  constructor
  · intro hr hl hb hs
    obtain ⟨u, eu⟩ : ∃ u, d.setFlds (rTC_SIN c) [(fTC_SIN_LEN, fget v fTC_SIN_LEN), (fTC_SIN_BASE, fget v fTC_SIN_BASE)] = u := ⟨_, rfl⟩
    have e : State.wrTcSin c v d = u.updTcore c fun x => { x with wptr := fget v fTC_SIN_BASE } := by
      unfold State.wrTcSin
      simp only [eu]
      refine if_neg ?_
      rw [hd, hr]
      simp only [List.isEmpty_nil, Bool.not_true, Bool.false_or, Bool.or_eq_true, Bool.not_eq_true', bne_iff_ne, decide_eq_true_eq]
      rcases hl with h0 | ⟨h1, h2, h3⟩
      · simp [h0, hb]
        omega
      · simp [h1, h2, h3, hb]
        omega
    have hu : u.tcore c = s.tcore c := by
      rw [← eu, (touches_State.setFlds d _ _).tcore (by decide), hd]
    refine ⟨_, next_write64 h (ed.symm ▸ e), ?_, ?_, ?_, ?_⟩
    · rw [State.updTcore, State.fld_setTcore, ← eu]
      simp (disch := decide)
      exact fget_lt _ _
    · rw [State.updTcore, State.fld_setTcore, ← eu]
      simp (disch := decide)
      exact fget_lt _ _
    · rw [tcore_updTcore_same, hu]
    · refine kd.trans (.trans ?_ (onlyIn_updTcore (by decide) _ _ _))
      rw [← eu]
      refine .of_hi (.setFlds (.refl _ _ _ _)) ?_
      simp only [List.mem_singleton, rTC_SIN]
      omega
  · intro hr
    refine next_write64 h (ed.symm ▸ ?_)
    refine if_pos ?_
    rw [hd]
    simp [hr]

end Sys2Proof

end

section
/-! SUPPORT. Mailbox, timer, watchdog and interrupts of a Turf core (R315, R317, R326 to R328). -/

set_option Elab.async false

namespace Sys2Proof

open Sys2Proof.Machine

/-! ### The mailbox (R315) -/

theorem tcMbinWrite_writes (c : Fin 32) (k : Fin 4) (v : Word) (s : State) (h : s.ready = true) :
    (s.flag (rTC_MBIN_CTRL c) fTC_MBIN_CTRL_FULL = false →
      exec (.tcMbinWrite c k v) s = .next ((s.dropStaged .host (rTC_MBIN c k)).wr (rTC_MBIN c k) v)) ∧
    (s.flag (rTC_MBIN_CTRL c) fTC_MBIN_CTRL_FULL = true →
      exec (.tcMbinWrite c k v) s = .next ((s.dropStaged .host (rTC_MBIN c k)).setFld (rTC_MBIN_CTRL c) fTC_MBIN_CTRL_OVERRUN 1)) := by
  obtain ⟨hregs, -, -⟩ := dropStaged_same s .host (rTC_MBIN c k)
  have hf : (s.dropStaged .host (rTC_MBIN c k)).flag (rTC_MBIN_CTRL c) fTC_MBIN_CTRL_FULL =
      s.flag (rTC_MBIN_CTRL c) fTC_MBIN_CTRL_FULL := by
    unfold State.flag
    rw [State.fld_congr hregs]
  exact ⟨fun h0 => next_write64 h (if_neg (by rw [hf, h0]; decide)), fun h1 => next_write64 h (if_pos (by rw [hf, h1]))⟩

theorem tcMbinPost_posts (c : Fin 32) (v : Word) (s : State) (h : s.ready = true) :
    completes (.tcMbinPost c v) s fun t => t.flag (rTC_MBIN_CTRL c) fTC_MBIN_CTRL_FULL = true ∧
      t.flag (rTC_MBIN_CTRL c) fTC_MBIN_CTRL_OVERRUN = (s.flag (rTC_MBIN_CTRL c) fTC_MBIN_CTRL_FULL ||
        (s.flag (rTC_MBIN_CTRL c) fTC_MBIN_CTRL_OVERRUN && fget v fTC_MBIN_CTRL_OVERRUN == 0)) ∧
      (s.flag (rTC_MBIN_CTRL c) fTC_MBIN_CTRL_FULL = false → (t.tcore c).ipr % 2 = 1) ∧
      (s.flag (rTC_MBIN_CTRL c) fTC_MBIN_CTRL_FULL = true → t.turf = s.turf) ∧
      onlyIn (mRegs ||| mStaged ||| mTurf) [rTC_MBIN_CTRL c] [] s t := by
  obtain ⟨hregs, -, hturf⟩ := dropStaged_same s .host (rTC_MBIN_CTRL c)
  obtain ⟨d, ed⟩ : ∃ d, s.dropStaged .host (rTC_MBIN_CTRL c) = d := ⟨_, rfl⟩
  have kd : onlyIn (mRegs ||| mStaged ||| mTurf) [rTC_MBIN_CTRL c] [] s d := ed ▸ (onlyIn.refl _ _ _ s).dropStaged
  rw [ed] at hregs hturf
  have hov : fget (fset v fTC_MBIN_CTRL_POST 1) fTC_MBIN_CTRL_OVERRUN = fget v fTC_MBIN_CTRL_OVERRUN := fget_fset_apart _ _ _ _ (by decide)
  have hpo : fget (fset v fTC_MBIN_CTRL_POST 1) fTC_MBIN_CTRL_POST = 1 := fget_fset_self _ _ _ (by decide)
  obtain ⟨u, eu⟩ : ∃ u, (if fget v fTC_MBIN_CTRL_OVERRUN = 1 then d.setFld (rTC_MBIN_CTRL c) fTC_MBIN_CTRL_OVERRUN 0 else d) = u := ⟨_, rfl⟩
  have e : State.wrMbinCtrl c (fset v fTC_MBIN_CTRL_POST 1) d =
      if u.flag (rTC_MBIN_CTRL c) fTC_MBIN_CTRL_FULL then u.setFld (rTC_MBIN_CTRL c) fTC_MBIN_CTRL_OVERRUN 1
        else (u.setFld (rTC_MBIN_CTRL c) fTC_MBIN_CTRL_FULL 1).updTcore c fun x => x.pend 0 := by
    unfold State.wrMbinCtrl
    rw [hov, hpo, eu]
    exact if_neg (by decide)
  have ku : onlyIn (mRegs ||| mStaged ||| mTurf) [rTC_MBIN_CTRL c] [] s u := by
    rw [← eu]
    refine kd.trans (.of_hi (.ite (.setFld (.refl _ _ _ _)) (.refl _ _ _ _)) ?_)
    simp only [List.mem_singleton, rTC_MBIN_CTRL]
    omega
  have hut : u.turf = s.turf := by
    rw [← eu]
    split
    · exact ((touches_State.setFld d _ _ _).turf (by decide)).trans hturf
    · exact hturf
  have hfu : u.flag (rTC_MBIN_CTRL c) fTC_MBIN_CTRL_FULL = s.flag (rTC_MBIN_CTRL c) fTC_MBIN_CTRL_FULL := by
    unfold State.flag
    rw [← eu, ← State.fld_congr hregs]
    split
    · rw [State.fld_setFld_apart _ _ _ _ _ _ (by decide)]
    · rfl
  have hou : u.flag (rTC_MBIN_CTRL c) fTC_MBIN_CTRL_OVERRUN =
      (s.flag (rTC_MBIN_CTRL c) fTC_MBIN_CTRL_OVERRUN && fget v fTC_MBIN_CTRL_OVERRUN == 0) := by
    have hv : fget v fTC_MBIN_CTRL_OVERRUN < 2 := fget_lt _ _
    unfold State.flag
    rw [← eu, ← State.fld_congr hregs]
    split
    case isTrue h1 =>
      rw [State.fld_setFld_self _ _ _ _ (by decide), h1]
      simp
    case isFalse h1 =>
      have h0 : fget v fTC_MBIN_CTRL_OVERRUN = 0 := by omega
      rw [h0]
      simp
  refine ⟨_, next_write64 h (ed.symm ▸ e), ?_⟩
  dsimp only
  have hi : ∀ a ∈ [rTC_MBIN_CTRL c], 0x1000 ≤ a := by
    simp only [List.mem_singleton, rTC_MBIN_CTRL]
    omega
  cases hF : s.flag (rTC_MBIN_CTRL c) fTC_MBIN_CTRL_FULL
  case true =>
    rw [if_pos (hfu.trans hF)]
    refine ⟨?_, ?_, fun h0 => (Bool.noConfusion h0), fun _ => ?_, ?_⟩
    · unfold State.flag
      rw [State.fld_setFld_apart _ _ _ _ _ _ (by decide)]
      exact hfu.trans hF
    · unfold State.flag
      rw [State.fld_setFld_self _ _ _ _ (by decide)]
      rfl
    · exact ((touches_State.setFld u _ _ _).turf (by decide)).trans hut
    · exact ku.trans (.of_hi (.setFld (.refl _ _ _ _)) hi)
  case false =>
    rw [if_neg (by rw [hfu, hF]; decide)]
    refine ⟨?_, ?_, fun _ => ?_, fun h0 => (Bool.noConfusion h0), ?_⟩
    · unfold State.flag State.updTcore
      rw [State.fld_setTcore, State.fld_setFld_self _ _ _ _ (by decide)]
      rfl
    · unfold State.updTcore
      have hs : ∀ w : State, w.flag (rTC_MBIN_CTRL c) fTC_MBIN_CTRL_OVERRUN = u.flag (rTC_MBIN_CTRL c) fTC_MBIN_CTRL_OVERRUN →
          w.flag (rTC_MBIN_CTRL c) fTC_MBIN_CTRL_OVERRUN = (false ||
            (s.flag (rTC_MBIN_CTRL c) fTC_MBIN_CTRL_OVERRUN && fget v fTC_MBIN_CTRL_OVERRUN == 0)) := fun w hw => by
        rw [hw, hou, Bool.false_or]
      refine hs _ ?_
      unfold State.flag
      rw [State.fld_setTcore, State.fld_setFld_apart _ _ _ _ _ _ (by decide)]
    · rw [tcore_updTcore_same, (pend_effect _ _).1]
      simpa using or_two_pow_bit ((u.setFld (rTC_MBIN_CTRL c) fTC_MBIN_CTRL_FULL 1).tcore c).ipr 0
    · exact ku.trans ((onlyIn.of_hi (.setFld (.refl _ _ _ _)) hi).trans (onlyIn_updTcore (by decide) _ _ _))

/-- A wait for anything but the outbound mailbox ends without it. -/
theorem tcWake_quiet {s : State} {c : Nat} (h : (s.tcore c).wait ≠ some .mbpost) : onlyCore c s (s.tcWake c) := by
  have hr : onlyCore c s s := ⟨.refl _ _, fun _ _ => rfl⟩
  have hu : ∀ x y, onlyCore c s (s.unstall c x y) := fun x y => onlyCore_setTcore s c _
  unfold State.tcWake
  dsimp only
  split
  · split
    · exact hu _ _
    · exact hr
  · split
    · exact hu _ _
    · exact hr
  · split
    · exact hu _ _
    · exact hr
  · rename_i hw
    exact absurd hw h
  · exact hr

theorem tcMboutAck_acks (c : Fin 32) (v : Word) (s : State) (h : s.ready = true) :
    completes (.tcMboutAck c v) s fun t =>
      ((s.tcore c).wait ≠ some .mbpost → t.flag (rTC_MBOUT_CTRL c) fTC_MBOUT_CTRL_FULL = false) ∧
      ((s.tcore c).wait = some .mbpost → t.flag (rTC_MBOUT_CTRL c) fTC_MBOUT_CTRL_FULL = true ∧ (t.tcore c).st = .running) ∧
      onlyIn (mEvent ||| mStaged ||| mTurf) [rTC_MBOUT_CTRL c] [386 + 4 * c] s t := by
  obtain ⟨-, -, hturf⟩ := dropStaged_same s .host (rTC_MBOUT_CTRL c)
  obtain ⟨d, ed⟩ : ∃ d, s.dropStaged .host (rTC_MBOUT_CTRL c) = d := ⟨_, rfl⟩
  have kd : onlyIn (mEvent ||| mStaged ||| mTurf) [rTC_MBOUT_CTRL c] [386 + 4 * c] s d := ed ▸ (onlyIn.refl _ _ _ s).dropStaged
  rw [ed] at hturf
  obtain ⟨u, eu⟩ : ∃ u, d.setFld (rTC_MBOUT_CTRL c) fTC_MBOUT_CTRL_FULL 0 = u := ⟨_, rfl⟩
  have hi : ∀ a ∈ [rTC_MBOUT_CTRL c], 0x1000 ≤ a := by
    simp only [List.mem_singleton, rTC_MBOUT_CTRL]
    omega
  have ku : onlyIn (mEvent ||| mStaged ||| mTurf) [rTC_MBOUT_CTRL c] [386 + 4 * c] s u :=
    kd.trans (eu ▸ .of_hi (.setFld (.refl _ _ _ _)) hi)
  have huc : u.tcore c = s.tcore c := by
    rw [← eu, (touches_State.setFld d _ _ _).tcore (by decide)]
    exact congrArg (fun m => SMap.get core0 m c.val) hturf
  have hfu : u.flag (rTC_MBOUT_CTRL c) fTC_MBOUT_CTRL_FULL = false := by
    unfold State.flag
    rw [← eu, State.fld_setFld_self _ _ _ _ (by decide)]
    rfl
  have e : State.wrMboutCtrl c (fset v fTC_MBOUT_CTRL_ACK 1) d = u.tcWake c := by
    rw [← eu]
    exact if_pos (fget_fset_self _ _ _ (by decide))
  refine ⟨_, next_write64 h (ed.symm ▸ e), ?_⟩
  dsimp only
  by_cases hw : (s.tcore c).wait = some .mbpost
  · have ew : u.tcWake c = (u.unstall c (u.tcore c) (u.tcore c)).mbPost c := by
      unfold State.tcWake
      simp only [huc, hw, hfu, Bool.false_eq_true, ↓reduceIte]
    obtain ⟨w, eww⟩ : ∃ w, u.unstall c (u.tcore c) (u.tcore c) = w := ⟨_, rfl⟩
    have hst : (w.tcore c).st = .running := by
      rw [← eww]
      unfold State.unstall
      rw [tcore_setTcore_same]
      exact (congrArg Core.st (movedOn_advance (u.tcore c) { u.tcore c with st := .running, wait := none }).1 :)
    have kw : onlyIn (mEvent ||| mStaged ||| mTurf) [rTC_MBOUT_CTRL c] [386 + 4 * c] u w :=
      eww ▸ onlyIn_setTcore (by decide) u c _
    rw [ew, eww]
    unfold State.mbPost
    refine ⟨fun hn => absurd hw hn, fun _ => ⟨?_, ?_⟩, ?_⟩
    · unfold State.flag
      rw [State.fld_raise_other _ _ _ _ _ _ _ (by simp only [rTC_MBOUT_CTRL]; omega), State.fld_setFld_self _ _ _ _ (by decide)]
      rfl
    · rw [(touches_State.raise _ _ _ _ _).tcore (by decide), (touches_State.setFld w _ _ _).tcore (by decide)]
      exact hst
    · exact .raise ((ku.trans kw).trans (.of_hi (.setFld (.refl _ _ _ _)) hi))
  · have q := tcWake_quiet (s := u) (c := c) (by rw [huc]; exact hw)
    have hr : (u.tcWake c).regs = u.regs := q.1.regs (by decide)
    refine ⟨fun _ => ?_, fun hn => absurd hn hw, ku.other q.1 (by decide) (e := hr)⟩
    unfold State.flag
    rw [State.fld_congr hr]
    exact hfu

/-! ### Timer and watchdog (R317, R326) -/

theorem tcTimerExpiry_pends (c : Fin 32) (s : State) (h : s.flag (rTC_TIMER c) fTC_TIMER_EN = true) :
    completes (.tcTimerExpiry c) s fun t => onlyCore c s t ∧ (t.tcore c).ipr / 4 % 2 = 1 ∧ (t.tcore c).timer = 0 ∧
      (t.tcore c).d = (s.tcore c).d ∧ (t.tcore c).acc = (s.tcore c).acc ∧ ((s.tcore c).st ≠ .idle → (t.tcore c).pc = (s.tcore c).pc) := by
  refine ⟨_, congrArg Host.Outcome.next (if_pos h), onlyCore_setTcore _ _ _, ?_⟩
  rw [tcore_updTcore_same]
  obtain ⟨h1, h2, h3, h4, h5⟩ := pend_effect { s.tcore c with timer := 0 } 2
  refine ⟨?_, h2, h3, h4, fun hn => (congrArg Core.pc (h5 hn) :)⟩
  rw [h1]
  exact or_two_pow_bit _ 2

theorem tcWatchdog_aborts (c : Fin 32) (s : State) (h : (s.tcore c).st ≠ .halted) (hl : s.fld (rTC_LIMIT c) fTC_LIMIT_CYCLES ≠ 0)
    (hq : (s.tcore c).sendQ = []) :
    completes (.tcWatchdog c) s fun t => (t.tcore c).st = .halted ∧ s.fld (rTC_LIMIT c) fTC_LIMIT_CYCLES ≤ (t.tcore c).cycles ∧
      t.fld (rTC_STATUS c) fTC_STATUS_RESULT = 2 ∧ t.fld (rTC_STATUS c) fTC_STATUS_CAUSE = 8 ∧
      onlyIn (mEvent ||| mTurf) [rTC_STATUS c, rTC_SOUT_STAT c] [385 + 4 * c] s t := by
  obtain ⟨u, eu⟩ : ∃ u, s.setTcore c { s.tcore c with cycles := max (s.tcore c).cycles (s.fld (rTC_LIMIT c) fTC_LIMIT_CYCLES) } = u := ⟨_, rfl⟩
  have hu : u.tcore c = { s.tcore c with cycles := max (s.tcore c).cycles (s.fld (rTC_LIMIT c) fTC_LIMIT_CYCLES) } := by
    rw [← eu]
    exact tcore_setTcore_same ..
  obtain ⟨tc, -, tr, tca, -, -, -, tt⟩ := tcAbort_effect (s := u) (cause := 8) c.isLt (by rw [hu]; exact h)
    (by
      rw [hu]
      simp [hq]) rfl
  refine ⟨_, congrArg Host.Outcome.next ((if_neg (by simp [h, hl])).trans (congrArg (fun w : State => w.tcAbort c 8) eu)), ?_, ?_, tr, tca,
    (eu ▸ onlyIn_setTcore (by decide) s c _ : onlyIn _ _ _ s u).trans tt⟩
  · rw [tc]
    rfl
  · have hc : (aborted (u.tcore c)).cycles = (u.tcore c).cycles := retire_cycles _
    rw [tc, hc, hu]
    exact le_max_right _ _

theorem tcWatchdog_idle (c : Fin 32) (s : State) (h : (s.tcore c).st = .halted ∨ s.fld (rTC_LIMIT c) fTC_LIMIT_CYCLES = 0) :
    exec (.tcWatchdog c) s = .next s := congrArg Host.Outcome.next (if_pos (by simpa using h))

/-! ### Interrupts (R327, R328) -/

/-- Core `x` when it takes interrupt `i`. -/
def interrupted (x : Core) (i : Nat) : Core :=
  { x with
    calls := x.pc :: x.calls
    shadow := x.sr
    st := .running
    wait := none
    after := false
    pc := 8 * (i + 1)
    cr := SMap.set 0 x.cr 35 (x.ipr - (x.ipr &&& 2 ^ i)) }.setSr srIe 0

theorem interrupted_reads (x : Core) (i : Nat) : (interrupted x i).srBit 12 = false ∧ (∀ j, j ≠ 12 → (interrupted x i).srBit j = x.srBit j) ∧
    (interrupted x i).ipr = x.ipr - (x.ipr &&& 2 ^ i) := by
  obtain ⟨y, ey⟩ : ∃ y, y = { x with
    calls := x.pc :: x.calls
    shadow := x.sr
    st := .running
    wait := none
    after := false
    pc := 8 * (i + 1)
    cr := SMap.set 0 x.cr 35 (x.ipr - (x.ipr &&& 2 ^ i)) } := ⟨_, rfl⟩
  have e : interrupted x i = y.setSr srIe 0 := by
    rw [ey]
    rfl
  have hsr : y.sr = x.sr := by
    rw [ey]
    exact SMap.get_set_other _ _ _ _ (by decide)
  have hip : y.ipr = x.ipr - (x.ipr &&& 2 ^ i) := by
    rw [ey]
    exact SMap.get_set_same ..
  have hm : srIe = 2 ^ 12 := rfl
  rw [e]
  refine ⟨?_, fun j hj => ?_, (crReg_setSr_other _ _ _ _ (by decide)).trans hip⟩
  · rw [srBit_setSr]
    rfl
  · rw [srBit_setSr, hm, Nat.testBit_two_pow, if_neg (by simpa using fun e => hj e.symm), srBit_testBit, srBit_testBit, hsr]

theorem irq_lowest {x : Core} {i : Nat} (hi : i < 4) (h : x.pending / 2 ^ i % 2 = 1) (hl : ∀ j < i, x.pending / 2 ^ j % 2 = 0) : x.irq = i := by
  have hf : (upTo 4).find? (fun j => x.pending / 2 ^ j % 2 == 1) = some i := by
    rw [List.find?_eq_some_iff_append]
    refine ⟨by simpa using h, upTo i, (upTo 4).drop (i + 1), ?_, fun j hj => ?_⟩
    · interval_cases i <;> rfl
    · have hji : j < i := List.mem_range.mp hj
      simp [hl j hji]
  unfold Core.irq
  rw [hf]
  rfl

theorem and_two_pow_of_bit {a b i : Nat} (h : (a &&& b) / 2 ^ i % 2 = 1) : b &&& 2 ^ i = 2 ^ i := by
  have hb : (a &&& b).testBit i = true := by
    rw [Nat.testBit_eq_decide_div_mod_eq]
    exact decide_eq_true h
  rw [Nat.testBit_and, Bool.and_eq_true] at hb
  rw [Nat.and_two_pow, hb.2]
  simp

theorem irqReady_live {x : Core} (h : x.irqReady = true) : x.st ≠ .halted := by
  unfold Core.irqReady at h
  intro e
  rw [e] at h
  cases h

theorem tcInterrupt_taken (c : Fin 32) (i : Nat) (s : State) (h : (s.tcore c).irqReady = true) (hc : (s.tcore c).calls.length < 8) (hi : i < 4)
    (hp : (s.tcore c).pending / 2 ^ i % 2 = 1) (hl : ∀ j < i, (s.tcore c).pending / 2 ^ j % 2 = 0)
    (ht : s.fld (rTC_TIMER c) fTC_TIMER_EN = 0) (hw : s.fld (rTC_LIMIT c) fTC_LIMIT_CYCLES = 0) :
    completes (.tcInterrupt c) s fun t => onlyCore c s t ∧ (t.tcore c).st = .running ∧ (t.tcore c).wait = none ∧
      (t.tcore c).pc = 8 * (i + 1) ∧ (t.tcore c).calls = (s.tcore c).pc :: (s.tcore c).calls ∧ (t.tcore c).shadow = (s.tcore c).sr ∧
      (t.tcore c).srBit 12 = false ∧ (∀ j, j ≠ 12 → (t.tcore c).srBit j = (s.tcore c).srBit j) ∧
      (t.tcore c).ipr = (s.tcore c).ipr - 2 ^ i ∧ (t.tcore c).cycles = ((s.tcore c).cycles + 3) % 2 ^ 64 ∧
      (t.tcore c).d = (s.tcore c).d ∧ (t.tcore c).acc = (s.tcore c).acc ∧ (t.tcore c).dm = (s.tcore c).dm := by
  have e : s.tcInterrupt c = (s.setTcore c (interrupted (s.tcore c) i)).tcCycle c 3 := by
    unfold State.tcInterrupt
    simp only [h, Bool.not_true, Bool.false_eq_true, ↓reduceIte, irq_lowest hi hp hl]
    exact if_neg (by omega)
  obtain ⟨only, et⟩ := setTcore_ticks (interrupted (s.tcore c) i) 3 ht hw
  rw [ticked_live 3 (show CoreSt.running ≠ .halted by decide)] at et
  obtain ⟨r1, r2, r3⟩ := interrupted_reads (s.tcore c) i
  refine ⟨_, congrArg Host.Outcome.next e, only, ?_⟩
  rw [et]
  refine ⟨rfl, rfl, rfl, rfl, rfl, r1, r2, r3.trans ?_, rfl, rfl, rfl, rfl⟩
  rw [and_two_pow_of_bit hp]

/-- Settles O42: each command of the host, the timer, the watchdog and an interrupt changes its core as one of the steps above says. -/
theorem turfRuns_hold : Obligations.TurfRuns := by
  unfold Obligations.TurfRuns
  refine ⟨tcRun_runs, tcRun_discarded, tcAbort_aborts, tcAbort_halted, tcPmWrite_writes, tcDmWrite_writes, tcSinWrite_writes, tcMbinWrite_writes,
    tcMbinPost_posts, tcMboutAck_acks, tcTimerExpiry_pends, ?_, tcWatchdog_aborts, tcWatchdog_idle, tcInterrupt_taken, ?_, ?_⟩
  · intro c s h
    exact congrArg Host.Outcome.next (if_neg (by rw [h]; decide))
  · intro c s h
    exact congrArg Host.Outcome.next (if_pos (by rw [h]; rfl))
  · intro c s h hc hq
    refine turfFaults_tcFault c.isLt (congrArg Host.Outcome.next (?_ : s.tcInterrupt c = s.tcFault c 3)) (.inl rfl) (irqReady_live h)
      (by simp [hq]) (by decide)
    unfold State.tcInterrupt
    simp only [h, Bool.not_true, Bool.false_eq_true, ↓reduceIte]
    exact if_pos hc

end Sys2Proof

end

section
/-! SUPPORT. The clusters' statement fails where a record holds no word: it needs no room, so a ring that is overfull takes it all the same. -/

set_option Elab.async false

namespace Sys2Proof

open Sys2Proof.Machine

/-- Route 0 from store port 0 into the square of cluster 0. -/
def emptyRoute : Route := ⟨0, 70, true, [57], 0, none, 0, 0⟩

/-- A record of no bytes on that route. -/
def emptyRec : RRec := ⟨0, [], 1, 0, 0, 0, 0, 0, []⟩

/-- A device in READY whose core 0 has a ring of 64 words with 100 words unreleased, and for which an empty record waits. -/
def overfullRing : State :=
  ((((((({ State.reset with pkg := { State.reset.pkg with porst := false } } : State).setFld rGLB_STATUS fGLB_STATUS_STATE 3).onPlan
    fun _ => ⟨some ⟨0, 0, 0, 0, 0, 0, [], [emptyRoute], [], []⟩, none⟩).setFld rPLAN_SLOT_STATE fPLAN_SLOT_STATE_SLOT0 3).onReplay
    fun _ => SMap.set [] [] 57 [emptyRec]).setFld (rTCL_IN 0 0) fTCL_IN_CORES 1).setFld (rTC_SIN 0) fTC_SIN_LEN 64).updTcore 0
    fun x => { x with ring := [⟨0, 100, false⟩] }

/-- The empty record joins the ring. -/
theorem overfullRing_grows : ((overfullRing.tcArrival 0 0).tcore 0).ring ≠ (overfullRing.tcore 0).ring := by
  decide +kernel

/-- Refutes O43: a record of no words is taken into a ring without room, since it needs none; the clause on records that wait says that nothing
happens. -/
theorem not_turfClusters : ¬ Obligations.TurfClusters := by
  intro h
  obtain ⟨-, -, h, -⟩ := h
  have e := h 0 0 0 emptyRoute emptyRec overfullRing (by decide +kernel) (by decide +kernel) (by decide +kernel) (by decide +kernel)
    (by decide +kernel)
  have e' : exec (.tcRecordArrival 0 0) overfullRing = .next (overfullRing.tcArrival 0 0) :=
    congrArg Host.Outcome.next (State.clocked_running (by decide +kernel) _)
  exact overfullRing_grows (congrArg (fun s : State => (s.tcore 0).ring) (Host.Outcome.next.inj (e'.symm.trans e)))

end Sys2Proof

end

section
/-! SUPPORT. OPEN of a context whose reservation takes the pool below its warning level (R344, Table 15-7). -/

set_option Elab.async false

namespace Sys2Proof

open Sys2Proof.Machine

/-- A device in READY with every billet free and POOL_WARN at that number, and in ADM_ENTRY a BEST_EFFORT entry of context 0 that reserves 2
billets. -/
def openAtWarn : State :=
  (((((({ State.reset with pkg := { State.reset.pkg with porst := false } } : State).setFld rGLB_STATUS fGLB_STATUS_STATE 3).setFld
    rSTO_RSV fSTO_RSV_POOL_WARN 1835008).wr (rADM_ENTRY 0) 0x21000).wr (rADM_ENTRY 3) 0x200000002))

/-- The entry of `openAtWarn`. -/
def openAtWarnEntry : List Word := [0x21000, 0, 0, 0x200000002, 0, 0, 0, 0]

/-- OPEN raises STO_POOL_LOW (640), and counts it in that source's register. -/
theorem openAtWarn_counts : ((openAtWarn.dropStaged .host rADM_CMD).wrAdmCmd 1).rd (rEVT_SRC 640) ≠ openAtWarn.rd (rEVT_SRC 640) := by
  decide +kernel

/-- Refutes O46: an OPEN whose RESERVE takes POOL_FREE below POOL_WARN raises event 640 (Table 15-7) as well as 656; the clause on OPEN allows
the registers of 656 alone to change. -/
theorem not_admissionAndDeadlines : ¬ Obligations.AdmissionAndDeadlines := by
  intro h
  obtain ⟨-, h, -⟩ := h
  have hr : openAtWarn.ready = true := by decide +kernel
  obtain ⟨-, h⟩ := h openAtWarnEntry 0 openAtWarn hr (by decide +kernel) (by decide +kernel) (by decide +kernel) (by decide +kernel)
  obtain ⟨-, -, h⟩ := h (by decide +kernel) (by decide +kernel) (by decide +kernel)
  obtain ⟨⟨⟨t, e, -, -, -, -, -, -, -, -, -, -, hk⟩, -⟩, -⟩ := h (by decide +kernel) (by decide +kernel) (by decide +kernel) |>.imp
    (fun h => h (by decide +kernel)) id
  have e' : exec .admOpen openAtWarn = .next ((openAtWarn.dropStaged .host rADM_CMD).wrAdmCmd 1) := next_write64 hr rfl
  obtain rfl : (openAtWarn.dropStaged .host rADM_CMD).wrAdmCmd 1 = t := Host.Outcome.next.inj (e'.symm.trans e)
  exact openAtWarn_counts (hk (rEVT_SRC 640) (by decide) (by decide))

end Sys2Proof

end

section
/-! SUPPORT. What the discarding of partial state and the recovery of a context leave alone: the controls of the event window, and every OPEN
context (R169, R531). -/

set_option Elab.async false

namespace Sys2Proof

open Sys2Proof.Machine

/-! ### States in which what is open stays open -/

theorem ctx_setCtx_same (s : State) (x : Nat) (c : Ctx) : (s.setCtx x c).ctx x = c := SMap.get_set_same ..

theorem ctx_setCtx_other (s : State) (c : Ctx) {x y : Nat} (h : y ≠ x) : (s.setCtx x c).ctx y = s.ctx y := SMap.get_set_other _ _ _ _ h

theorem ctx_updCtx_same (s : State) (x : Nat) (f : Ctx → Ctx) : (s.updCtx x f).ctx x = f (s.ctx x) := ctx_setCtx_same ..

theorem ctx_updCtx_other (s : State) (f : Ctx → Ctx) {x y : Nat} (h : y ≠ x) : (s.updCtx x f).ctx y = s.ctx y := ctx_setCtx_other _ _ h

/-- `t` has the controls of the event window as in `s`, and every context OPEN that is so in `s`. -/
def steady (s t : State) : Prop := keeps 0x10028 0x12000 s t ∧ ∀ x, (s.ctx x).st = .opened → (t.ctx x).st = .opened

section
variable {s t u : State}

theorem steady.refl (s : State) : steady s s := ⟨.refl _ _ _, fun _ h => h⟩

theorem steady.trans (h : steady s t) (k : steady t u) : steady s u := ⟨h.1.trans k.1, fun x hx => k.2 x (h.2 x hx)⟩

theorem steady.regs (h : steady s t) (k : keeps 0x10028 0x12000 t u) {m : Nat} (e : Touches m t u) (hm : m.testBit 15 = false := by decide) :
    steady s u := ⟨h.1.trans k, fun x hx => by rw [State.ctx, e.ctxs hm]; exact h.2 x hx⟩

theorem steady.other (h : steady s t) {m : Nat} (k : Touches m t u) (hm : m.testBit 15 = false := by decide) (hr : m.testBit 1 = false := by decide) :
    steady s u := h.regs (.other (.refl _ _ _) k hr) k hm

theorem steady.wr (h : steady s t) {a : Nat} (v : Word) (ha : a < 0x10028 ∨ 0x12000 ≤ a) : steady s (t.wr a v) :=
  h.regs (.wr (.refl _ _ _) v ha) (touches_State.wr t a v)

theorem steady.addSat (h : steady s t) {a : Nat} {f : Fld} {n : Nat} (ha : a < 0x10028 ∨ 0x12000 ≤ a) : steady s (t.addSat a f n) := h.wr _ ha

theorem steady.addMod (h : steady s t) {a : Nat} {f : Fld} {n : Nat} (ha : a < 0x10028 ∨ 0x12000 ≤ a) : steady s (t.addMod a f n) := h.wr _ ha

theorem steady.setFld (h : steady s t) {a : Nat} {f : Fld} {v : Nat} (ha : a < 0x10028 ∨ 0x12000 ≤ a) : steady s (t.setFld a f v) := h.wr _ ha

theorem steady.setFlds (h : steady s t) {a : Nat} {l : List (Fld × Nat)} (ha : a < 0x10028 ∨ 0x12000 ≤ a) : steady s (t.setFlds a l) := h.wr _ ha

theorem steady.raise (h : steady s t) {src : Nat} {obj : Option Nat} {code detail : Nat} : steady s (t.raise src obj code detail) :=
  h.regs (.raise (.refl _ _ _) (by omega)) (touches_State.raise t src obj code detail)

theorem steady.raiseLim (h : steady s t) {us src : Nat} {obj : Option Nat} {code detail key : Nat} :
    steady s (t.raiseLim us src obj code detail key) :=
  h.regs (.raiseLim (.refl _ _ _) (by omega)) (touches_State.raiseLim t us src obj code detail key)

theorem steady.setCtx (h : steady s t) {x : Nat} {c : Ctx} (hc : (t.ctx x).st = .opened → c.st = .opened) : steady s (t.setCtx x c) :=
  ⟨.other h.1 (touches_State.setCtx t x c), fun y hy => by
    by_cases e : y = x
    · rw [e, ctx_setCtx_same]
      exact hc (e ▸ h.2 y hy)
    · rw [ctx_setCtx_other t c e]
      exact h.2 y hy⟩

theorem steady.updCtx (h : steady s t) {x : Nat} {f : Ctx → Ctx} (hf : ∀ c, (f c).st = c.st := by intro c; rfl) : steady s (t.updCtx x f) :=
  h.setCtx fun e => (hf _).trans e

theorem steady.ite {c : Prop} [Decidable c] (h : steady s t) (k : steady s u) : steady s (if c then t else u) := by
  split
  · exact h
  · exact k

theorem steady.overList {β : Type} {g : State → β → State} {l : List β} (h : steady s t) (k : ∀ v b, steady v (g v b)) :
    steady s (l.foldl g t) := by
  induction l generalizing t with
  | nil => exact h
  | cons b l ih => exact ih (h.trans (k t b))

end

/-! ### Losses -/

theorem steady_loseItems (s : State) (x n : Nat) : steady s (s.loseItems x n) := (steady.refl s).updCtx

theorem steady_flagCtx (s : State) (x fl : Nat) : steady s (s.flagCtx x fl) := .ite ((steady.refl s).updCtx) (.refl s)

theorem steady_loseDirect (s : State) (sq n : Nat) : steady s (s.loseDirect sq n) := by
  unfold State.loseDirect
  refine .ite (.refl s) (.overList (.refl s) fun t r => ?_)
  split
  · exact .ite (steady_loseItems _ _ _) (.refl _)
  · exact .refl _

theorem steady_streamDrop (s : State) (x : Nat) : steady s (s.streamDrop x) :=
  .ite (.refl s) ((steady_loseItems s x _).other (touches_State.onStreams _ _))

theorem steady_stampsDrop (s : State) (x : Nat) : steady s (s.stampsDrop x) :=
  .overList (.refl s) fun t _ => .ite ((steady_loseItems t x _).other (touches_State.updTdc _ _ _)) (.refl t)

theorem steady_detDiscard (s : State) (n : Nat) : steady s (s.detDiscard n) := by
  have k (t : State) (n sq : Nat) : steady t (t.detEmpty n sq) := (steady_loseDirect t sq _).other (touches_State.updDet _ _ _)
  exact .ite ((k s _ _).trans (k _ _ _)) (k s _ _)

theorem steady_denDiscard (s : State) (n : Nat) : steady s (s.denDiscard n) := by
  have k (t : State) (n sq : Nat) : steady t (t.denEmpty n sq) := (steady_loseDirect t sq _).other (touches_State.updDen _ _ _)
  exact .ite ((k s _ _).trans (k _ _ _)) (k s _ _)

/-! ### Billets and records in the store -/

theorem steady_freeBillet (s : State) (b : Nat) : steady s (s.freeBillet b) :=
  .addMod (((steady.refl s).other (touches_State.setBillet _ _ _)).updCtx) (by decide)

theorem steady_settleBillet (s : State) (b : Nat) : steady s (s.settleBillet b) :=
  .ite (.refl s) (.ite (.refl s) (.ite ((steady.refl s).other (touches_State.setBillet _ _ _)) (.ite (steady_freeBillet s b) (.refl s))))

theorem steady_closeIfDrained (s : State) (x : Nat) : steady s (s.closeIfDrained x) := by
  unfold State.closeIfDrained
  dsimp only
  split
  · next h => exact (steady.refl s).setCtx fun e => by simp [e] at h
  · exact .refl s

/-- What a settlement makes of a context: its destinations pass what they need not deliver, and records that none still needs leave. -/
def Machine.Ctx.settled (c : Ctx) : Ctx :=
  let c1 := c.destList.foldl (fun (c : Ctx) d =>
    let q := c.skipPast d c.recs.length (c.dest d).fin
    c.updDest d fun t => { t with fin := q, begun := max t.begun q, doneTo := max t.doneTo q }) c
  { c1 with recs := c1.recs.filter fun r => c1.destList.any fun d => (c1.dest d).fin < min (r.pos + r.len) (c1.destEnd d) }

theorem settle_eq (s : State) (x : Nat) : s.settle x =
    (((((s.updCtx x Ctx.settled).ctx x).exts.map (·.billet)).eraseDups.foldl State.settleBillet (s.updCtx x Ctx.settled)).closeIfDrained x) := rfl

/-- A settlement leaves a context all but its records and its destinations. -/
theorem settled_eq (c : Ctx) : ∃ rs ds, c.settled = { c with recs := rs, dests := ds } := by
  have k (l : List Nat) : ∀ b : Ctx, (∃ ds, b = { c with dests := ds }) → ∃ ds, l.foldl (fun (c : Ctx) d =>
      let q := c.skipPast d c.recs.length (c.dest d).fin
      c.updDest d fun t => { t with fin := q, begun := max t.begun q, doneTo := max t.doneTo q }) b = { c with dests := ds } := by
    induction l with
    | nil => exact fun b h => h
    | cons d l ih =>
      rintro b ⟨ds, rfl⟩
      exact ih _ ⟨_, rfl⟩
  obtain ⟨ds, e⟩ := k c.destList c ⟨c.dests, rfl⟩
  unfold Machine.Ctx.settled
  rw [e]
  exact ⟨_, _, rfl⟩

theorem steady_settle (s : State) (x : Nat) : steady s (s.settle x) := by
  rw [settle_eq]
  have k (c : Ctx) : c.settled.st = c.st := by
    obtain ⟨rs, ds, e⟩ := settled_eq c
    rw [e]
  exact (steady.overList ((steady.refl s).updCtx k) steady_settleBillet).trans (steady_closeIfDrained _ x)

/-- More bytes of a context's stream: only its extents and the position they end at. -/
theorem addBytes_eq (c : Ctx) (b off n : Nat) : ∃ es, c.addBytes b off n = { c with exts := es, wpos := c.wpos + n } := by
  unfold Ctx.addBytes
  split
  · split
    · exact ⟨_, rfl⟩
    · exact ⟨_, rfl⟩
  · exact ⟨_, rfl⟩

theorem addBytes_st (c : Ctx) (b off n : Nat) : (c.addBytes b off n).st = c.st := by
  obtain ⟨es, e⟩ := addBytes_eq c b off n
  rw [e]

theorem steady_leaveTail (s : State) (x : Nat) : steady s (s.leaveTail x) := by
  unfold State.leaveTail
  split
  · exact .refl s
  · exact ((steady.refl s).other (touches_State.setBillet _ _ _)).updCtx

theorem steady_poolLow (s0 s : State) : steady s (State.poolLow s0 s) := .ite (.raise (.refl s)) (.refl s)

theorem steady_extentLow (s0 s : State) : steady s (State.extentLow s0 s) := .ite (.raise (.refl s)) (.refl s)

theorem steady_takeBillet (s : State) (x : Nat) (ring : Bool) : steady s (s.takeBillet x ring).2 :=
  ((((steady.refl s).other (touches_State.fresh s)).other (touches_State.setBillet _ _ _)).updCtx).trans (steady_poolLow _ _)

/-- Context `x` with `n` more bytes in billet `b` from `off` on, its tail. -/
def Machine.Ctx.grown (c : Ctx) (b off n : Nat) : Ctx := { (c.addBytes b off n) with tail := some (b, off + n) }

theorem steady_grown {s t : State} (h : steady s t) (x b off n : Nat) : steady s (t.updCtx x fun c => c.grown b off n) :=
  h.updCtx fun _ => addBytes_st _ _ _ _

/-- The tail billet that bytes go to, taken first where there is none. -/
def Machine.State.tailFor (s : State) (x : Nat) : Nat × Nat × State :=
  match (s.ctx x).tail with
  | some (b, off) => (b, off, s)
  | none => ((s.takeBillet x false).1, 0, (s.takeBillet x false).2)

theorem steady_tailFor (s : State) (x : Nat) : steady s (s.tailFor x).2.2 := by
  unfold State.tailFor
  split
  · exact .refl s
  · exact steady_takeBillet s x false

/-- The bytes that still fit the tail, written there; a full billet is left. -/
def Machine.State.fillTail (s : State) (x : Nat) (bs : List Byte) : State :=
  let r := s.tailFor x
  let now := bs.take (billetBytes - r.2.1)
  let s2 := (r.2.2.storeWrite (r.1 * billetBytes + r.2.1) now).updCtx x fun c => c.grown r.1 r.2.1 now.length
  if r.2.1 + now.length = billetBytes then s2.leaveTail x else s2

theorem appendTail_succ (n : Nat) (s : State) (x : Nat) (bs : List Byte) : State.appendTail (n + 1) s x bs =
    if bs.isEmpty then s else State.appendTail n (s.fillTail x bs) x (bs.drop (billetBytes - (s.tailFor x).2.1)) := by
  rw [State.appendTail]
  refine if_congr Iff.rfl rfl ?_
  unfold State.fillTail State.tailFor
  cases h : (s.ctx x).tail with
  | none => rfl
  | some p => rfl

theorem steady_fillTail (s : State) (x : Nat) (bs : List Byte) : steady s (s.fillTail x bs) := by
  have k := steady_grown ((steady_tailFor s x).other (touches_State.storeWrite _ ((s.tailFor x).1 * billetBytes + (s.tailFor x).2.1)
    (bs.take (billetBytes - (s.tailFor x).2.1)))) x (s.tailFor x).1 (s.tailFor x).2.1 (bs.take (billetBytes - (s.tailFor x).2.1)).length
  exact .ite (k.trans (steady_leaveTail _ x)) k

theorem steady_appendTail (n : Nat) (s : State) (x : Nat) (bs : List Byte) : steady s (State.appendTail n s x bs) := by
  induction n generalizing s bs with
  | zero => exact .refl s
  | succ n ih =>
    rw [appendTail_succ]
    exact .ite (.refl s) ((steady_fillTail s x bs).trans (ih _ _))

theorem steady_append (s : State) (x : Nat) (bs : List Byte) : steady s (s.append x bs) := steady_appendTail _ _ _ _

theorem steady_writeRecord (s : State) (x typ devid epoch seq time fine flags items : Nat) (pre : List Byte) (ring : List Ext) (post : List Byte) :
    steady s (s.writeRecord x typ devid epoch seq time fine flags items pre ring post) := by
  unfold State.writeRecord
  exact (((steady_append s x _).overList (fun t e => (steady.refl t).updCtx)).trans (steady_append _ x _)).updCtx

theorem steady_publish (s : State) (x d : Nat) (e : Ext) : steady s (s.publish x d e) :=
  ((steady.refl s).other (touches_State.hostWrite _ _ _)).setCtx fun h => h

theorem steady_zcAdvance (n : Nat) (s : State) (x : Nat) : steady s (State.zcAdvance n s x) := by
  induction n generalizing s with
  | zero => exact .refl s
  | succ n ih =>
    unfold State.zcAdvance
    dsimp only
    split
    · exact .refl s
    · refine .ite (.ite (.refl s) ((steady.raise (.refl s)).updCtx)) ?_
      split
      · exact .refl s
      · exact .ite (.refl s) (.ite ((steady_publish s x _ _).trans (ih _)) ((steady.refl s).other (touches_State.setBillet _ _ _)))

theorem steady_zcRun (s : State) (x : Nat) : steady s (s.zcRun x) := steady_zcAdvance _ _ _

theorem steady_afterWrite {r s t : State} (h : steady r s) (x : Nat) : steady r (State.afterWrite t s x) :=
  ((h.trans (steady_extentLow _ _)).trans (steady_settle _ x)).trans (steady_zcRun _ x)

theorem steady_pad (s : State) (x : Nat) : steady s (s.pad x) := by
  unfold State.pad
  dsimp only
  split
  · exact .refl s
  · exact .ite (.refl s) (steady_afterWrite (steady_writeRecord ..) x)

theorem steady_flushCtx (s : State) (x : Nat) : steady s (s.flushCtx x) := by
  unfold State.flushCtx
  split
  · exact .refl s
  · exact (((steady_pad s x).trans (steady_leaveTail _ x)).trans (steady_settle _ x)).trans (steady_zcRun _ x)

theorem steady_raiseReq (s : State) (x : Nat) (e : Option EvReq) : steady s (s.raiseReq x e) := by
  cases e with
  | none => exact .refl s
  | some e => exact .ite (.refl s) (.raiseLim (.refl s))

theorem steady_putFault (s : State) (x : Nat) (f : FaultRec) : steady s (s.putFault x f) := by
  unfold State.putFault
  have k (t : State) : steady t (if (t.ctx x).st = .draining then t.flushCtx x else t) := .ite (steady_flushCtx t x) (.refl t)
  exact ((steady_afterWrite ((steady_writeRecord ..).updCtx) x).trans (k _)).trans (steady_raiseReq _ x _)

theorem steady_fault (s : State) (x code source detail more : Nat) (ev : Option EvReq) : steady s (s.fault x code source detail more ev) := by
  unfold State.fault
  have k : steady s (s.setCtx x { (s.ctx x) with lostSince := 0, flags := (s.ctx x).flags - (s.ctx x).flags % 2 }) :=
    (steady.refl s).setCtx fun h => h
  exact .ite (.refl s) (.ite (k.trans (steady_putFault _ x _)) (k.updCtx))

/-! ### Records of acquisition units -/

theorem steady_sendPort (s : State) (rt : Route) (d : Nat) (r : Prod) : steady s (s.sendPort rt d r) := by
  unfold State.sendPort State.dropBeats
  refine .ite ((steady.raiseLim ((steady.addSat (.refl s) (by simp only [rGRID_SQ]; omega)).trans (steady_loseItems _ _ _))).trans
    (steady_flagCtx _ _ _)) ((steady.refl s).other (touches_State.toPort _ _ _))

theorem steady_auEmit (s : State) (n : Nat) (x : Option Nat) (r : Prod) : steady s (s.auEmit n x r) :=
  .overList (.refl s) fun t rt => .overList (.refl t) fun t d => steady_sendPort t rt d _

theorem steady_acqSnap (s : State) (n : Nat) : steady s (s.acqSnap n) := by
  have h (i : Nat) : rACQ_SNAP i < 0x10028 ∨ 0x12000 ≤ rACQ_SNAP i := by simp only [rACQ_SNAP]; omega
  have h0 (i : Nat) : rACQ_COUNT0 i < 0x10028 ∨ 0x12000 ≤ rACQ_COUNT0 i := by simp only [rACQ_COUNT0]; omega
  have h1 (i : Nat) : rACQ_COUNT1 i < 0x10028 ∨ 0x12000 ≤ rACQ_COUNT1 i := by simp only [rACQ_COUNT1]; omega
  have h2 (i : Nat) : rACQ_COUNT2 i < 0x10028 ∨ 0x12000 ≤ rACQ_COUNT2 i := by simp only [rACQ_COUNT2]; omega
  exact .setFlds (.setFlds (.wr (.addMod (.refl s) (h n)) _ (h0 n)) (h1 n)) (h2 n)

theorem acqCmd_high (n : Nat) : rACQ_CMD n < 0x10028 ∨ 0x12000 ≤ rACQ_CMD n := by
  simp only [rACQ_CMD]
  omega

theorem steady_auLeft (s : State) (n : Nat) (p : Prod) : steady s (auLeft s n p) :=
  (steady.setFld (.addMod (steady_auEmit s n none p) (acqCmd_high n)) (acqCmd_high n)).trans (steady_acqSnap _ n)

theorem steady_auClose (s : State) (n e : Nat) (trunc gap : Bool) (lost : Nat) : steady s (s.auClose n e trunc gap lost 0) := by
  cases h : (s.auU n).rec_ with
  | none =>
    unfold State.auClose
    simp only [h]
    exact .refl s
  | some r =>
    obtain ⟨g, f, p, -, e1⟩ := auClose_left h e trunc gap lost
    rw [e1]
    have k2 : steady s (s.fresh.2.updAu n g) := ((steady.refl s).other (touches_State.fresh s)).other (touches_State.updAu _ _ _)
    have k3 := steady.ite (c := s.fld (rACQ_CFG n) fACQ_CFG_RED = 0) (k2.other (touches_State.onAside _ f)) k2
    exact (steady.ite (k3.addMod (by simp only [rRMU_CFG]; omega)) k3).trans (steady_auLeft _ n p)

theorem steady_ringEmpty (s : State) (n : Nat) : steady s (s.ringEmpty n) :=
  .overList ((steady.refl s).other (touches_State.updAu _ _ _)) fun t x =>
    ((steady.refl t).other (touches_State.setBillet _ _ _)).trans (steady_settleBillet _ _)

theorem steady_auAnchor (s : State) (n : Nat) : steady s (s.auAnchor n) := by
  have k : steady s (s.auCut n true false) := by
    unfold State.auCut
    dsimp only
    split
    · exact .ite (steady_auClose ..) (steady_auClose ..)
    · exact .refl s
  have k1 := k.trans (steady_ringEmpty _ n)
  exact .ite k1 (k1.setFld (acqCmd_high n))

/-! ### Recovery -/

theorem steady_unitDiscard (s : State) (sq : Nat) : steady s (s.unitDiscard sq) := by
  unfold State.unitDiscard
  refine .ite (.refl s) (.ite ((steady.refl s).other (touches_State.updDdc _ _ _)) (.ite ((steady.refl s).other (touches_State.updXfm _ _ _))
    (.ite (steady_detDiscard s _) (.ite (steady_denDiscard s _) (.ite (steady_auAnchor s _) (.ite ?_ (.refl s)))))))
  exact (steady_loseDirect s sq _).other (touches_State.updCmp _ _ _)

theorem steady_discardPath (s : State) (x : Nat) : steady s (s.discardPath x) :=
  ((steady.overList (.refl s) steady_unitDiscard).trans (steady_streamDrop _ x)).trans (steady_stampsDrop _ x)

/-- An OPEN context recovers in READY: a new epoch pends, and what is open stays so. -/
theorem recoverPath_opened {s : State} {x : Nat} (h : (s.ctx x).st = .opened) (hg : s.glb ≠ 4) (code source detail more : Nat) (ev : Option EvReq) :
    ((s.recoverPath x code source detail more ev).ctx x).epochPend = true ∧ ((s.recoverPath x code source detail more ev).ctx x).recovering = true ∧
      steady s (s.recoverPath x code source detail more ev) := by
  have e : s.recoverPath x code source detail more ev = ((s.discardPath x).fault x code source detail more ev).updCtx x fun c =>
      { c with epochPend := true, recovering := true, flags := c.flags ||| flRestart ||| flGap } := by
    have h' := (steady_discardPath s x).2 x h
    have hg' : (s.discardPath x).glb ≠ 4 := by rwa [(touches_State.discardPath s x).glbState]
    unfold State.recoverPath
    rw [if_pos (by simp [h, hg])]
    unfold State.recover
    rw [if_neg (by simp [h']), if_neg hg', if_neg (by simp [h'])]
  rw [e]
  exact ⟨by rw [ctx_updCtx_same], by rw [ctx_updCtx_same], ((steady_discardPath s x).trans (steady_fault _ x _ _ _ _ _)).updCtx⟩

end Sys2Proof

end

section
/-! SUPPORT. The event controller: what raising an event leaves, the ring's controls, and error injection (R522 to R529, R540). -/

set_option Elab.async false

namespace Sys2Proof

open Sys2Proof.Machine

/-! ### What raising an event changes -/

theorem keeps_ringPut (s : State) (hi src : Nat) (obj : Option Nat) (code detail : Nat) (inj : Bool) :
    keeps 0x10028 hi s (s.ringPut src obj code detail inj) := by
  unfold State.ringPut
  refine .ite (.ite (.setFld (.other (.other (.other (.addMod (.refl _ _ _) (.inl (by decide))) (touches_State.onEvt _ _))
    (touches_State.hostWrite _ _ _)) (touches_State.onEvt _ _)) (.inl (by decide))) ?_) (.refl _ _ _)
  exact .other (.addSat (.other (.addMod (.refl _ _ _) (.inl (by decide))) (touches_State.onEvt _ _)) (.inl (by decide))) (touches_State.onEvt _ _)

/-- What a source's register holds after an occurrence: STATUS and COUNT alone have changed (R523). -/
theorem rd_raiseWith_src (s : State) (src : Nat) (obj : Option Nat) (code detail : Nat) (inj : Bool) (lim key : Nat) :
    (s.raiseWith src obj code detail inj lim key).rd (rEVT_SRC src) =
      (s.setFlds (rEVT_SRC src) [(fEVT_SRC_STATUS, 1), (fEVT_SRC_COUNT, s.fld (rEVT_SRC src) fEVT_SRC_COUNT + 1)]).rd (rEVT_SRC src) := by
  unfold State.raiseWith
  dsimp only
  generalize s.setFlds (rEVT_SRC src) _ = t
  have k : keeps 0x10028 (rEVT_SRC src + 1) t ((t.addMod rEVT_STAT fEVT_STAT_RAISED 1).onEvt fun z =>
      { z with occ := SMap.upd 0 (t.addMod rEVT_STAT fEVT_STAT_RAISED 1).evt.occ src (· + 1) }) :=
    .other (.addMod (.refl _ _ _) (.inl (by decide))) (touches_State.onEvt _ _)
  generalize State.onEvt _ _ = u at k ⊢
  suffices h : keeps 0x10028 (rEVT_SRC src + 1) t _ from h (rEVT_SRC src) (by simp only [rEVT_SRC]; omega) (by omega)
  have k3 (l : Nat) (v : SMap Nat) : keeps 0x10028 (rEVT_SRC src + 1) t (if l = 0 then u else u.onEvt fun z => { z with last := v }) :=
    .ite k (k.other (touches_State.onEvt _ _))
  exact .ite (.ite k (((k3 _ _).trans (keeps_ringPut _ _ _ _ _ _ _)).other (touches_State.signal _ _))) k

theorem fld_raiseWith_count (s : State) (src : Nat) (obj : Option Nat) (code detail : Nat) (inj : Bool) (lim key : Nat) :
    (s.raiseWith src obj code detail inj lim key).fld (rEVT_SRC src) fEVT_SRC_COUNT = (s.fld (rEVT_SRC src) fEVT_SRC_COUNT + 1) % 2 ^ 32 := by
  rw [State.fld, rd_raiseWith_src, ← State.fld]
  simp (disch := decide)

theorem flag_raiseWith_status (s : State) (src : Nat) (obj : Option Nat) (code detail : Nat) (inj : Bool) (lim key : Nat) :
    (s.raiseWith src obj code detail inj lim key).flag (rEVT_SRC src) fEVT_SRC_STATUS = true := by
  rw [State.flag, State.fld, rd_raiseWith_src, ← State.fld]
  simp (disch := decide)

/-- An occurrence of one source leaves the register of another as it is. -/
theorem rd_raiseWith_src_other (s : State) {src a : Nat} (h : a ≠ src) (obj : Option Nat) (code detail : Nat) (inj : Bool) (lim key : Nat) :
    (s.raiseWith src obj code detail inj lim key).rd (rEVT_SRC a) = s.rd (rEVT_SRC a) := by
  apply (evtOnly.raiseWith s src obj code detail inj lim key).2
  simp only [evtRegs, rEVT_SRC, rEVT_STAT, rEVT_SEQ, rEVT_RING_IDX, List.mem_cons, List.not_mem_nil, or_false]
  omega

/-! ### The ring's controls -/

/-- What an occurrence leaves of the ring's RELEASE side: records are given back by software alone. -/
def sameReleased (s t : State) : Prop :=
  t.evt.released = s.evt.released ∧ t.fld rEVT_RING_IDX fEVT_RING_IDX_RELEASED = s.fld rEVT_RING_IDX fEVT_RING_IDX_RELEASED

section
variable {s t u : State}

theorem sameReleased.trans (h : sameReleased s t) (k : sameReleased t u) : sameReleased s u := ⟨k.1.trans h.1, k.2.trans h.2⟩

theorem sameReleased.onEvt (h : sameReleased s t) {f : Evt → Evt} (hf : ∀ z, (f z).released = z.released := by intro z; rfl) :
    sameReleased s (t.onEvt f) := ⟨(hf _).trans h.1, h.2⟩

theorem sameReleased.other (h : sameReleased s t) {m : Nat} (k : Touches m t u) (he : m.testBit 13 = false := by decide)
    (hr : m.testBit 1 = false := by decide) : sameReleased s u := ⟨by rw [k.evt he]; exact h.1, by rw [State.fld_congr (k.regs hr)]; exact h.2⟩

theorem sameReleased.wr (h : sameReleased s t) {a : Nat} (v : Word) (ha : a ≠ rEVT_RING_IDX) : sameReleased s (t.wr a v) :=
  ⟨h.1, by rw [State.fld_wr_other _ _ _ (Ne.symm ha)]; exact h.2⟩

theorem sameReleased.addMod (h : sameReleased s t) {a : Nat} {f : Fld} {n : Nat} (ha : a ≠ rEVT_RING_IDX) : sameReleased s (t.addMod a f n) :=
  h.wr _ ha

theorem sameReleased.addSat (h : sameReleased s t) {a : Nat} {f : Fld} {n : Nat} (ha : a ≠ rEVT_RING_IDX) : sameReleased s (t.addSat a f n) :=
  h.wr _ ha

theorem sameReleased.ite {c : Prop} [Decidable c] (h : sameReleased s t) (k : sameReleased s u) : sameReleased s (if c then t else u) := by
  split
  · exact h
  · exact k

theorem sameReleased.written (h : sameReleased s t) (v : Nat) : sameReleased s (t.setFld rEVT_RING_IDX fEVT_RING_IDX_WRITTEN v) :=
  ⟨(congrArg Evt.released ((touches_State.setFld t _ _ v).evt (by decide))).trans h.1, (State.fld_setFld_apart _ _ _ _ _ _ (by decide)).trans h.2⟩

theorem sameReleased_ringPut (h : sameReleased s t) (src : Nat) (obj : Option Nat) (code detail : Nat) (inj : Bool) :
    sameReleased s (t.ringPut src obj code detail inj) := by
  unfold State.ringPut
  dsimp only
  have k : sameReleased s (t.addMod rEVT_SEQ fEVT_SEQ_NEXT 1) := h.addMod (by decide)
  generalize t.addMod rEVT_SEQ fEVT_SEQ_NEXT 1 = u at k ⊢
  have k2 : sameReleased s (u.onEvt fun z => { z with occ := SMap.set 0 u.evt.occ src 0 }) := k.onEvt
  generalize (u.onEvt fun z => { z with occ := SMap.set 0 u.evt.occ src 0 }) = w at k2 ⊢
  refine .ite (.ite (.written ?_ _) ((k2.addSat (by decide)).onEvt)) h
  exact (k2.other (touches_State.hostWrite _ _ _)).onEvt

theorem sameReleased_raiseWith (s : State) (src : Nat) (obj : Option Nat) (code detail : Nat) (inj : Bool) (lim key : Nat) :
    sameReleased s (s.raiseWith src obj code detail inj lim key) := by
  unfold State.raiseWith
  dsimp only
  have n : rEVT_SRC src ≠ rEVT_RING_IDX := by simp only [rEVT_SRC, rEVT_RING_IDX]; omega
  have k : sameReleased s (((s.setFlds (rEVT_SRC src) [(fEVT_SRC_STATUS, 1), (fEVT_SRC_COUNT, s.fld (rEVT_SRC src) fEVT_SRC_COUNT + 1)]).addMod
      rEVT_STAT fEVT_STAT_RAISED 1).onEvt fun z => { z with occ := SMap.upd 0 ((s.setFlds (rEVT_SRC src) [(fEVT_SRC_STATUS, 1),
        (fEVT_SRC_COUNT, s.fld (rEVT_SRC src) fEVT_SRC_COUNT + 1)]).addMod rEVT_STAT fEVT_STAT_RAISED 1).evt.occ src (· + 1) }) :=
    (sameReleased.wr (sameReleased.wr ⟨rfl, rfl⟩ _ n) _ (by decide)).onEvt
  generalize State.onEvt _ _ = u at k ⊢
  have k3 (l : Nat) (v : SMap Nat) : sameReleased s (if l = 0 then u else u.onEvt fun z => { z with last := v }) := .ite k k.onEvt
  exact .ite (.ite k ((sameReleased_ringPut (k3 _ _) _ _ _ _ _).other (touches_State.signal _ _))) k

theorem sameReleased_lostRecord (s : State) : sameReleased s s.lostRecord := by
  unfold State.lostRecord
  exact .ite ((sameReleased_raiseWith s 1 none 0 _ false 0 0).onEvt) ⟨rfl, rfl⟩

end

theorem onlyIn_lostRecord {m : Nat} {l srcs : List Nat} {s t : State} (h : onlyIn m l srcs s t) (hs : 1 ∈ srcs := by simp)
    (hm : mEvent &&& m = mEvent := by decide) (he : mEvt &&& m = mEvt := by decide) : onlyIn m l srcs s t.lostRecord := by
  unfold State.lostRecord
  exact .ite (.other (.raise h hs hm) (touches_State.onEvt _ _) he (State.onEvt_regs _ _)) h

/-- A host write to a register whose values have no range of their own. -/
theorem next_hostWr_open {s t : State} {a : Nat} {id : RegId} {i : Nat} {f : Word → State → State} {v : Word} (h : s.windowOpen a = true)
    (hv : inRange id i (s.rd a) v = v) (e : f v (s.dropStaged .host a) = t) : (.next (s.hostWr id i a f v) : Res) = .next t := by
  rw [State.hostWr_open h, hv, e]

theorem release_refused {s : State} {v : Word} (h : s.windowOpen rEVT_RING_IDX = true) (hn : fget v fEVT_RING_IDX_RELEASE = 0 ∨
    s.evt.written < s.evt.released + fget v fEVT_RING_IDX_RELEASE) : exec (.evtRelease v) s = .next (s.dropStaged .host rEVT_RING_IDX) := by
  refine next_hostWr_open h rfl (if_pos ?_)
  rw [(touches_State.dropStaged s _ _).evt (by decide)]
  simpa using hn

theorem release_taken {s : State} {v : Word} (h : s.windowOpen rEVT_RING_IDX = true) (h0 : 0 < fget v fEVT_RING_IDX_RELEASE)
    (hn : s.evt.released + fget v fEVT_RING_IDX_RELEASE ≤ s.evt.written) :
    completes (.evtRelease v) s fun t => t.evt.released = s.evt.released + fget v fEVT_RING_IDX_RELEASE ∧
      t.fld rEVT_RING_IDX fEVT_RING_IDX_RELEASED = (s.evt.released + fget v fEVT_RING_IDX_RELEASE) % 2 ^ 16 ∧
      onlyIn (mEvent ||| mStaged) [rEVT_RING_IDX] [1] s t := by
  have hs : (s.dropStaged .host rEVT_RING_IDX).evt = s.evt := (touches_State.dropStaged s _ _).evt (by decide)
  have e : exec (.evtRelease v) s = .next ((((s.dropStaged .host rEVT_RING_IDX).onEvt fun z =>
      { z with released := s.evt.released + fget v fEVT_RING_IDX_RELEASE }).setFld rEVT_RING_IDX fEVT_RING_IDX_RELEASED
        (s.evt.released + fget v fEVT_RING_IDX_RELEASE)).lostRecord) := by
    refine next_hostWr_open h rfl ?_
    unfold State.wrRingIdx
    rw [hs]
    exact if_neg (by simp; omega)
  generalize hw : ((s.dropStaged .host rEVT_RING_IDX).onEvt fun z =>
      { z with released := s.evt.released + fget v fEVT_RING_IDX_RELEASE }).setFld rEVT_RING_IDX fEVT_RING_IDX_RELEASED _ = w at e
  obtain ⟨h1, h2⟩ := sameReleased_lostRecord w
  have k : onlyIn (mEvent ||| mStaged) [rEVT_RING_IDX] [1] s w :=
    hw ▸ .of_hi (.setFld (.other (.dropStaged (.refl _ _ _ _)) (touches_State.onEvt _ _) (by decide) (State.onEvt_regs _ _))) (by decide)
  refine ⟨_, e, h1.trans ?_, h2.trans ?_, onlyIn_lostRecord k⟩
  · rw [← hw, (touches_State.setFld _ _ _ _).evt (by decide)]
    rfl
  · rw [← hw, State.fld_setFld_self _ _ _ _ (by decide)]

theorem evtCtrl_written {s : State} (v : Word) (h : s.windowOpen rEVT_CTRL = true) : completes (.ringEnWrite v) s fun t =>
      t.fld rEVT_CTRL fEVT_CTRL_RING_EN = fget v fEVT_CTRL_RING_EN ∧
      t.fld rEVT_CTRL fEVT_CTRL_AUTO_RESTART = fget v fEVT_CTRL_AUTO_RESTART ∧
      t.fld rEVT_CTRL fEVT_CTRL_MOD_US = fget v fEVT_CTRL_MOD_US ∧
      t.fld rEVT_CTRL fEVT_CTRL_WD_US =
        (if fget v fEVT_CTRL_WD_US < 10 then s.fld rEVT_CTRL fEVT_CTRL_WD_US else fget v fEVT_CTRL_WD_US) ∧
      onlyIn (mEvent ||| mStaged) [rEVT_CTRL] [1] s t := by
  refine ⟨_, next_hostWr_open h rfl rfl, ?_⟩
  unfold State.wrEvtCtrl
  have hw : keepRange ((s.dropStaged .host rEVT_CTRL).rd rEVT_CTRL) fEVT_CTRL_WD_US 10 65535 v =
      if fget v fEVT_CTRL_WD_US < 10 then fset v fEVT_CTRL_WD_US (s.fld rEVT_CTRL fEVT_CTRL_WD_US) else v := by
    have hlt : fget v fEVT_CTRL_WD_US < 2 ^ 16 := fget_lt v fEVT_CTRL_WD_US
    unfold keepRange
    rw [show (s.dropStaged .host rEVT_CTRL).rd rEVT_CTRL = s.rd rEVT_CTRL from rfl]
    refine if_congr ?_ rfl rfl
    simp
    omega
  rw [hw]
  generalize hx : (if fget v fEVT_CTRL_WD_US < 10 then fset v fEVT_CTRL_WD_US (s.fld rEVT_CTRL fEVT_CTRL_WD_US) else v) = x
  have k : onlyIn (mEvent ||| mStaged) [rEVT_CTRL] [1] s ((s.dropStaged .host rEVT_CTRL).wrCodes rEVT_CTRL x []) :=
    .of_hi (.wrCodes (.dropStaged (.refl _ _ _ _))) (by decide)
  have kf (f : Fld) (hf : rwField rEVT_CTRL f = true) : ((s.dropStaged .host rEVT_CTRL).wrCodes rEVT_CTRL x []).lostRecord.fld rEVT_CTRL f = fget x f := by
    rw [State.fld, (onlyIn_lostRecord (.refl (mEvent ||| mStaged) [] [1] _)).2 rEVT_CTRL (by simp) (by decide), ← State.fld,
      State.fld_wrCodes_rw _ hf _ _ rfl]
  have kx (f : Fld) (hf : f.lo + f.w ≤ 16 ∨ 32 ≤ f.lo) : fget x f = fget v f := by
    rw [← hx]
    split
    · exact fget_fset_apart _ _ _ _ ⟨by decide, hf⟩
    · rfl
  refine ⟨(kf _ (by decide)).trans (kx _ (by decide)), (kf _ (by decide)).trans (kx _ (by decide)), (kf _ (by decide)).trans (kx _ (by decide)),
    (kf _ (by decide)).trans ?_, onlyIn_lostRecord k⟩
  rw [← hx]
  split
  · rw [fget_fset_self _ _ _ (by decide), State.fld_mod]
  · rfl

/-! ### Test events -/

theorem fld_of_rd {s t : State} {a : Nat} {f : Fld} (h : t.rd a = s.rd a) : t.fld a f = s.fld a f := congrArg (fget · f) h

theorem flag_of_rd {s t : State} {a : Nat} {f : Fld} (h : t.rd a = s.rd a) : t.flag a f = s.flag a f := by
  rw [State.flag, State.flag, fld_of_rd h]

/-- The test sources of a list raised one after another: each of them counts once. -/
theorem swtest_raises (p : Nat → Bool) (l : List Nat) (hl : l.Nodup) (s : State) (i : Nat) :
    (i ∉ l → (l.foldl (fun t i => if p i then t.raise (1008 + i) else t) s).rd (rEVT_SRC (1008 + i)) = s.rd (rEVT_SRC (1008 + i))) ∧
    (i ∈ l → (l.foldl (fun t i => if p i then t.raise (1008 + i) else t) s).fld (rEVT_SRC (1008 + i)) fEVT_SRC_COUNT =
        (s.fld (rEVT_SRC (1008 + i)) fEVT_SRC_COUNT + b2n (p i)) % 2 ^ 32 ∧
      (p i = true → (l.foldl (fun t i => if p i then t.raise (1008 + i) else t) s).flag (rEVT_SRC (1008 + i)) fEVT_SRC_STATUS = true)) := by
  induction l generalizing s with
  | nil => simp
  | cons b l ih =>
    obtain ⟨hb, hl⟩ := List.nodup_cons.mp hl
    obtain ⟨h1, h2⟩ := ih hl (if p b then s.raise (1008 + b) else s)
    have other (h : i ≠ b) : (if p b then s.raise (1008 + b) else s).rd (rEVT_SRC (1008 + i)) = s.rd (rEVT_SRC (1008 + i)) := by
      split
      · exact rd_raiseWith_src_other s (by omega) _ _ _ _ _ _
      · rfl
    rw [List.foldl_cons]
    constructor
    · intro h
      obtain ⟨hi, hm⟩ := not_or.mp (mt List.mem_cons.mpr h)
      exact (h1 hm).trans (other hi)
    · intro h
      by_cases e : i = b
      · subst e
        rw [fld_of_rd (h1 hb), flag_of_rd (h1 hb)]
        cases hp : p i
        · exact ⟨(State.fld_mod s _ _).symm, fun h => absurd h (by decide)⟩
        · rw [if_pos rfl, State.raise]
          exact ⟨fld_raiseWith_count .., fun _ => flag_raiseWith_status ..⟩
      · obtain ⟨c, f⟩ := h2 ((List.mem_cons.mp h).resolve_left e)
        exact ⟨by rw [c, State.fld, other e, ← State.fld], f⟩

theorem swtest_fires {s : State} (v : Word) (h : s.windowOpen rEVT_SWTEST = true) : completes (.evtSwtest v) s fun t =>
      (∀ i < 16, t.fld (rEVT_SRC (1008 + i)) fEVT_SRC_COUNT =
        (s.fld (rEVT_SRC (1008 + i)) fEVT_SRC_COUNT + b2n (v.getLsbD i)) % 2 ^ 32) ∧
      (∀ i < 16, v.getLsbD i = true → t.flag (rEVT_SRC (1008 + i)) fEVT_SRC_STATUS = true) ∧
      onlyIn (mEvent ||| mStaged) [] ((upTo 16).map fun i => 1008 + i) s t := by
  refine ⟨_, next_hostWr_open h rfl rfl, fun i hi => ?_, fun i hi => ?_, ?_⟩
  · exact ((swtest_raises (fun i => v.getLsbD i) (upTo 16) List.nodup_range _ i).2 (List.mem_range.mpr hi)).1
  · exact ((swtest_raises (fun i => v.getLsbD i) (upTo 16) List.nodup_range _ i).2 (List.mem_range.mpr hi)).2
  · exact .overList (.dropStaged (.refl _ _ _ _)) fun t i hi => .ite (.raise (.refl _ _ _ _) (List.mem_map_of_mem hi)) (.refl _ _ _ _)

end Sys2Proof

end

section
/-! SUPPORT. Error injection, and the restart that an injection begins (R540, R534). -/

set_option Elab.async false

namespace Sys2Proof

open Sys2Proof.Machine

/-! ### The write of EVT_INJ -/

/-- EVT_INJ as an access by codes leaves it, before what GO and LOCK ask for. -/
def injWritten (w : Word) (s : State) : State := (s.dropStaged .host rEVT_INJ).wrCodes rEVT_INJ w [fEVT_INJ_GO, fEVT_INJ_LOCK]

/-- The lock that a write of EVT_INJ asks for. -/
def injLocked (w : Word) (t : State) : State := if fget w fEVT_INJ_LOCK = 1 then t.setFld rEVT_INJ fEVT_INJ_LOCK 1 else t

theorem injWritten_lock (w : Word) (s : State) : (injWritten w s).fld rEVT_INJ fEVT_INJ_LOCK = s.fld rEVT_INJ fEVT_INJ_LOCK := by
  obtain ⟨⟨r, ix⟩, e⟩ := Option.isSome_iff_exists.mp (show (findReg rEVT_INJ).isSome = true by decide)
  unfold injWritten State.wrCodes
  rw [e]
  exact (State.fld_wr_self _ _ _ _).trans ((fget_fset_self _ _ _ (by decide)).trans (fget_mod _ _))

theorem injWritten_result (w : Word) (s : State) : (injWritten w s).fld rEVT_INJ fEVT_INJ_RESULT = s.fld rEVT_INJ fEVT_INJ_RESULT :=
  State.fld_wrCodes_ro _ (by decide) _ _

theorem injWritten_type (w : Word) (s : State) : (injWritten w s).fld rEVT_INJ fEVT_INJ_TYPE = fget w fEVT_INJ_TYPE :=
  State.fld_wrCodes_rw _ (by decide) _ _

theorem injWritten_rd (w : Word) (s : State) {a : Nat} (h : a ≠ rEVT_INJ) : (injWritten w s).rd a = s.rd a :=
  State.rd_wrCodes_other _ _ _ h

theorem touches_injWritten (w : Word) (s : State) : Touches (mRegs ||| mStaged) s (injWritten w s) := by
  refine (onlyIn.of_hi (m := mRegs ||| mStaged) (l := [rEVT_INJ]) (srcs := []) ?_ (by decide)).1
  exact .wrCodes (.dropStaged (.refl _ _ _ _))

theorem onlyIn_injWritten (w : Word) (s : State) {m : Nat} {srcs : List Nat} (hm : (mRegs ||| mStaged) &&& m = mRegs ||| mStaged := by decide) :
    onlyIn m [rEVT_INJ] srcs s (injWritten w s) :=
  ⟨(touches_injWritten w s).mono hm, fun _ ha _ => injWritten_rd w s fun e => ha (e ▸ List.mem_singleton_self _)⟩

theorem injLocked_rd (w : Word) (t : State) {a : Nat} (h : a ≠ rEVT_INJ) : (injLocked w t).rd a = t.rd a := by
  unfold injLocked
  split
  · exact State.rd_setFld_other _ _ _ h
  · rfl

theorem injLocked_fld (w : Word) (t : State) (f : Fld) (h : f.lo + f.w ≤ 62) : (injLocked w t).fld rEVT_INJ f = t.fld rEVT_INJ f := by
  unfold injLocked
  split
  · exact State.fld_setFld_apart _ _ _ _ _ _ ⟨by decide, .inl h⟩
  · rfl

theorem touches_injLocked (w : Word) (t : State) : Touches mRegs t (injLocked w t) := by
  unfold injLocked
  split
  · exact touches_State.setFld_hi _ _ _ _ (by decide)
  · exact .refl _ _

theorem injLocked_flag (w : Word) (t : State) (h : t.flag rEVT_INJ fEVT_INJ_LOCK = true) : (injLocked w t).flag rEVT_INJ fEVT_INJ_LOCK = true := by
  unfold injLocked
  split
  · rw [State.flag, State.fld_setFld_self _ _ _ _ (by decide)]
    rfl
  · exact h

theorem onlyIn_injLocked {m : Nat} {l srcs : List Nat} {s t : State} (h : onlyIn m l srcs s t) (w : Word) (hl : rEVT_INJ ∈ l := by simp)
    (hm : mRegs &&& m = mRegs := by decide) : onlyIn m l srcs s (injLocked w t) :=
  h.trans ⟨(touches_injLocked w t).mono hm, fun _ ha _ => injLocked_rd w t fun e => ha (e ▸ hl)⟩

theorem injWord_go (v : Word) (ty : Nat) : fget (injWord v ty) fEVT_INJ_GO = 1 := by
  rw [injWord, fsets, fsets, fsets, fget_fset_apart _ _ _ _ (by decide), fget_fset_self _ _ _ (by decide)]
  rfl

theorem injWord_type (v : Word) {ty : Nat} (h : ty < 8) : fget (injWord v ty) fEVT_INJ_TYPE = ty := by
  rw [injWord, fsets, fsets, fsets, fget_fset_self _ _ _ (by decide)]
  exact Nat.mod_eq_of_lt h

theorem inject_eq_event {s : State} (h : s.fld rEVT_INJ fEVT_INJ_TYPE = 1) :
    s.inject = (s.injDone.raiseWith ((s.rd rEVT_INJ_ARG).toNat % 1024) none 0 0 true 0 0).raise 6 := by
  unfold State.inject
  simp only [h]

section
variable {s : State} (h : s.windowOpen rEVT_INJ = true)
include h

/-- An injection while LOCK is 0. -/
theorem next_inject (hl : s.flag rEVT_INJ fEVT_INJ_LOCK = false) (v : Word) (ty : Nat) :
    (.next (s.hostWr .EVT_INJ 0 rEVT_INJ State.wrEvtInj (injWord v ty)) : Res) =
      .next (injLocked (injWord v ty) (injWritten (injWord v ty) s).inject) := by
  refine next_hostWr_open h rfl ?_
  unfold State.wrEvtInj injLocked
  rw [show (s.dropStaged .host rEVT_INJ).flag rEVT_INJ fEVT_INJ_LOCK = false from hl, injWord_go]
  simp only [injWritten, one_ne_zero, Bool.false_eq_true, if_false]

/-- An injection while LOCK is 1 is refused. -/
theorem inject_locked (hl : s.flag rEVT_INJ fEVT_INJ_LOCK = true) (v : Word) (ty : Nat) :
    ∃ t, (.next (s.hostWr .EVT_INJ 0 rEVT_INJ State.wrEvtInj (injWord v ty)) : Res) = .next t ∧ t.fld rEVT_INJ fEVT_INJ_RESULT = 2 ∧
      t.flag rEVT_INJ fEVT_INJ_LOCK = true ∧ onlyIn (mRegs ||| mStaged) [rEVT_INJ] [] s t := by
  have e : (.next (s.hostWr .EVT_INJ 0 rEVT_INJ State.wrEvtInj (injWord v ty)) : Res) =
      .next (injLocked (injWord v ty) (injWritten (injWord v ty) s).injRefuse) := by
    refine next_hostWr_open h rfl ?_
    unfold State.wrEvtInj injLocked
    rw [show (s.dropStaged .host rEVT_INJ).flag rEVT_INJ fEVT_INJ_LOCK = true from hl, injWord_go]
    simp only [injWritten, one_ne_zero, if_false, if_true]
  refine ⟨_, e, ?_, injLocked_flag _ _ ?_, onlyIn_injLocked ?_ _⟩
  · rw [injLocked_fld _ _ _ (by decide), State.injRefuse, State.fld_setFld_self _ _ _ _ (by decide)]
    rfl
  · rw [State.injRefuse, State.flag, State.fld_setFld_apart _ _ _ _ _ _ (by decide), injWritten_lock]
    exact hl
  · exact .of_hi (.setFld (onlyIn_injWritten _ s)) (by decide)

theorem inject_event (hl : s.flag rEVT_INJ fEVT_INJ_LOCK = false) (v : Word) {arg : Nat} (ha : (s.rd rEVT_INJ_ARG).toNat = arg) :
    completes (.injectEvent v) s fun t => t.fld rEVT_INJ fEVT_INJ_RESULT = 1 ∧
      t.flag (rEVT_SRC (arg % 1024)) fEVT_SRC_STATUS = true ∧ t.flag (rEVT_SRC 6) fEVT_SRC_STATUS = true ∧
      (arg % 1024 ≠ 6 → t.fld (rEVT_SRC (arg % 1024)) fEVT_SRC_COUNT = (s.fld (rEVT_SRC (arg % 1024)) fEVT_SRC_COUNT + 1) % 2 ^ 32) ∧
      onlyIn (mEvent ||| mStaged) [rEVT_INJ] [arg % 1024, 6] s t := by
  have e : (injWritten (injWord v 1) s).inject = ((injWritten (injWord v 1) s).injDone.raiseWith (arg % 1024) none 0 0 true 0 0).raise 6 := by
    rw [inject_eq_event ((injWritten_type _ _).trans (injWord_type v (by decide))), injWritten_rd _ _ (by decide), ha]
  refine ⟨_, next_inject h hl v 1, ?_⟩
  rw [e]
  have k0 : onlyIn (mEvent ||| mStaged) [rEVT_INJ] [] s (injWritten (injWord v 1) s).injDone := .of_hi (.setFld (onlyIn_injWritten _ s)) (by decide)
  generalize hu : (injWritten (injWord v 1) s).injDone = u at k0 ⊢
  have hres : u.fld rEVT_INJ fEVT_INJ_RESULT = 1 := by rw [← hu, State.injDone, State.fld_setFld_self _ _ _ _ (by decide)]; rfl
  have hsrc (i : Nat) : u.fld (rEVT_SRC i) fEVT_SRC_COUNT = s.fld (rEVT_SRC i) fEVT_SRC_COUNT :=
    fld_of_rd (k0.2 _ (by simp only [rEVT_SRC, rEVT_INJ, List.mem_singleton]; omega) (by simp))
  have n (i : Nat) : rEVT_SRC i ≠ rEVT_INJ := by simp only [rEVT_SRC, rEVT_INJ]; omega
  have k : keeps 0x10028 0x12000 u ((u.raiseWith (arg % 1024) none 0 0 true 0 0).raise 6) := .raise (.raiseWith (.refl _ _ _) (by omega)) (by omega)
  refine ⟨?_, ?_, ?_, fun hne => ?_, ?_⟩
  · rw [injLocked_fld _ _ _ (by decide), k.fld _ _ (by decide), hres]
  · rw [flag_of_rd (injLocked_rd _ _ (n _))]
    by_cases h6 : arg % 1024 = 6
    · rw [h6, State.raise]
      exact flag_raiseWith_status ..
    · rw [State.raise, flag_of_rd (rd_raiseWith_src_other _ h6 _ _ _ _ _ _)]
      exact flag_raiseWith_status ..
  · rw [flag_of_rd (injLocked_rd _ _ (n _)), State.raise]
    exact flag_raiseWith_status ..
  · rw [fld_of_rd (injLocked_rd _ _ (n _)), State.raise, fld_of_rd (rd_raiseWith_src_other _ hne _ _ _ _ _ _), fld_raiseWith_count, hsrc]
  · have k1 : onlyIn (mEvent ||| mStaged) [rEVT_INJ] [arg % 1024, 6] u (u.raiseWith (arg % 1024) none 0 0 true 0 0) :=
      ⟨(touches_State.raiseWith ..).mono (by decide), fun a _ hs => (evtOnly.raiseWith ..).2 a (hs _ (by simp))⟩
    exact onlyIn_injLocked (.raise ((k0.mono (by decide) (fun _ h => h) (by simp)).trans k1)) _

theorem inject_refused (hl : s.flag rEVT_INJ fEVT_INJ_LOCK = false) (v : Word) (ty : Nat)
    (e : (injWritten (injWord v ty) s).inject = (injWritten (injWord v ty) s).injRefuse) :
    ∃ t, (.next (s.hostWr .EVT_INJ 0 rEVT_INJ State.wrEvtInj (injWord v ty)) : Res) = .next t ∧ t.fld rEVT_INJ fEVT_INJ_RESULT = 2 ∧
      t.ctxs = s.ctxs ∧ onlyIn (mRegs ||| mStaged) [rEVT_INJ] [] s t := by
  have k : onlyIn (mRegs ||| mStaged) [rEVT_INJ] [] s (injLocked (injWord v ty) (injWritten (injWord v ty) s).injRefuse) :=
    onlyIn_injLocked (.of_hi (.setFld (onlyIn_injWritten _ s)) (by decide)) _
  refine ⟨_, next_inject h hl v ty, ?_⟩
  rw [e]
  refine ⟨?_, k.1.ctxs (by decide), k⟩
  rw [injLocked_fld _ _ _ (by decide), State.injRefuse, State.fld_setFld_self _ _ _ _ (by decide)]
  rfl

theorem inject_context (hl : s.flag rEVT_INJ fEVT_INJ_LOCK = false) (v : Word) {arg : Nat} (ha : (s.rd rEVT_INJ_ARG).toNat = arg)
    (ho : (s.ctx (arg % 4096)).st = .opened) (hg : s.glb = 3) :
    completes (.injectContext v) s fun t => (t.ctx (arg % 4096)).epochPend = true ∧ (t.ctx (arg % 4096)).recovering = true ∧
      t.fld rEVT_INJ fEVT_INJ_RESULT = 1 := by
  have ku : Touches (mRegs ||| mStaged) s (injWritten (injWord v 2) s).injDone :=
    (touches_injWritten _ s).trans ((touches_State.setFld_hi _ _ _ _ (by decide)).mono (by decide))
  have hc (x : Nat) : (injWritten (injWord v 2) s).injDone.ctx x = s.ctx x := congrArg (SMap.get ctx0 · x) (ku.ctxs (by decide))
  have e : (injWritten (injWord v 2) s).inject =
      (injWritten (injWord v 2) s).injDone.recoverPath (arg % 4096) 6 6 0 0 (some ⟨6, none, 0, 6, 0, false⟩) := by
    unfold State.inject
    rw [injWritten_type, injWord_type v (by decide), injWritten_rd _ _ (by decide), ha]
    refine if_pos ?_
    rw [State.ctx, (touches_injWritten _ s).ctxs (by decide)]
    exact ho
  refine ⟨_, next_inject h hl v 2, ?_⟩
  rw [e]
  obtain ⟨h1, h2, h3⟩ := recoverPath_opened ((congrArg Ctx.st (hc _)).trans ho) (show (injWritten (injWord v 2) s).injDone.glb ≠ 4 by
    rw [ku.glbState, hg]; decide) 6 6 0 0 (some ⟨6, none, 0, 6, 0, false⟩)
  have kx (t : State) (x : Nat) : (injLocked (injWord v 2) t).ctx x = t.ctx x := congrArg (SMap.get ctx0 · x) ((touches_injLocked _ t).ctxs (by decide))
  rw [kx]
  refine ⟨h1, h2, ?_⟩
  rw [injLocked_fld _ _ _ (by decide), h3.1.fld _ _ (by decide), State.injDone, State.fld_setFld_self _ _ _ _ (by decide)]
  rfl

/-- A memory error asked for at a line of the store (TYPE 3 or 4): its bit joins what the line holds. -/
theorem inject_line (hl : s.flag rEVT_INJ fEVT_INJ_LOCK = false) (v : Word) {arg ty bit : Nat} (ht : ty < 8) (ha : (s.rd rEVT_INJ_ARG).toNat = arg)
    (h0 : arg % 64 = 0) (hm : arg < 30064771072)
    (e : (injWritten (injWord v ty) s).inject = (((injWritten (injWord v ty) s).onBadLines fun _ =>
      SMap.upd 0 (injWritten (injWord v ty) s).badLines (arg / 64) fun e => e ||| bit).injDone).raise 6) :
    ∃ t, (.next (s.hostWr .EVT_INJ 0 rEVT_INJ State.wrEvtInj (injWord v ty)) : Res) = .next t ∧ t.fld rEVT_INJ fEVT_INJ_RESULT = 1 ∧
          SMap.get 0 t.badLines (arg / 64) = SMap.get 0 s.badLines (arg / 64) ||| bit ∧
          (∀ l, l ≠ arg / 64 → SMap.get 0 t.badLines l = SMap.get 0 s.badLines l) ∧ t.store = s.store ∧
          onlyIn (mEvent ||| mBadLines ||| mStaged) [rEVT_INJ] [6] s t := by
  refine ⟨_, next_inject h hl v ty, ?_⟩
  rw [e]
  have hb := (touches_injWritten (injWord v ty) s).badLines (by decide)
  have hs := (touches_injWritten (injWord v ty) s).store (by decide)
  have k0 := onlyIn_injWritten (m := mEvent ||| mBadLines ||| mStaged ||| mGlb) (srcs := [6]) (injWord v ty) s
  generalize injWritten (injWord v ty) s = u at *
  have k : onlyIn (mEvent ||| mBadLines ||| mStaged) [rEVT_INJ] [6] s (((u.onBadLines fun _ =>
      SMap.upd 0 u.badLines (arg / 64) fun e => e ||| bit).injDone).raise 6) :=
    .raise (.of_hi (.setFld (.other k0 (touches_State.onBadLines _ _) (by decide) (State.onBadLines_regs _ _))) (by decide))
  have hbad : (injLocked (injWord v ty) (((u.onBadLines fun _ => SMap.upd 0 u.badLines (arg / 64) fun e => e ||| bit).injDone).raise 6)).badLines =
      SMap.upd 0 s.badLines (arg / 64) fun e => e ||| bit := by
    rw [(touches_injLocked _ _).badLines (by decide), (touches_State.raise _ _ _ _ _).badLines (by decide), State.injDone,
      (touches_State.setFld _ _ _ _).badLines (by decide), State.onBadLines_badLines, hb]
  refine ⟨?_, ?_, fun l hne => ?_, ?_, onlyIn_injLocked k _⟩
  · rw [injLocked_fld _ _ _ (by decide), (keeps.raise (lo := 0x10028) (hi := 0x12000) (.refl _ _ _) (by omega)).fld _ _ (by decide), State.injDone,
      State.fld_setFld_self _ _ _ _ (by decide)]
    rfl
  · rw [hbad, SMap.get_upd_same]
  · rw [hbad, SMap.get_upd_other _ _ _ _ hne]
  · rw [(touches_injLocked _ _).store (by decide), (touches_State.raise _ _ _ _ _).store (by decide), State.injDone,
      (touches_State.setFld _ _ _ _).store (by decide), (touches_State.onBadLines _ _).store (by decide), hs]

end

end Sys2Proof

end

section
/-! SUPPORT. The restart that an injection begins, and the event controller's statement (R534, R540). -/

set_option Elab.async false

namespace Sys2Proof

open Sys2Proof.Machine

/-! ### What the beginning of a restart leaves of EVT_RESTART -/

theorem keeps_planRestart (s : State) : keeps 0x10028 0x12000 s s.planRestart := by
  unfold State.planRestart State.planAbort State.planStatus State.setSlot
  refine .ite (.raise (.setFlds (.other (.wr (.setFld (.refl _ _ _) (by decide)) _ (by simp only [rPLAN_SLOT]; omega)) (touches_State.onPlan _ _))
    (by decide)) (by decide)) (.ite (.raise (.setFlds (.refl _ _ _) (by decide)) (by decide)) (.refl _ _ _))

theorem keeps_calAbortIf (s : State) {r : Nat} (hr : r < 256) : keeps 0x10028 0x12000 s (s.calAbortIf r) := by
  obtain ⟨-, -, -, -, -, -, k⟩ := calAbort_effect (s := s) rfl hr rfl
  exact .ite (k.keeps (fun a ha => .inr (Nat.le_trans (by decide) (runRegs_hi ha))) (by decide)) (.refl _ _ _)

theorem keeps_ddcCancel (s : State) (u cause : Nat) : keeps 0x10028 0x12000 s (s.ddcCancel u cause) := by
  unfold State.ddcCancel
  split
  · exact .raise (.setFlds (.other (.refl _ _ _) (touches_State.updDdc _ _ _)) (by simp only [rDDC_SWAP]; omega)) (by decide)
  · exact .refl _ _ _

theorem keeps_xfmCancel (s : State) (n cause : Nat) : keeps 0x10028 0x12000 s (s.xfmCancel n cause) := by
  unfold State.xfmCancel
  split
  · exact .raise (.setFlds (.setFld (.other (.refl _ _ _) (touches_State.updXfm _ _ _)) (by simp only [rXFM_TAB_CTRL]; omega))
      (by simp only [rXFM_TAB_STATUS]; omega)) (by decide)
  · exact .refl _ _ _

theorem keeps_trgRestart (s : State) : keeps 0x10028 0x12000 s s.trgRestart := by
  unfold State.trgRestart State.tqTimers
  exact .overList (.refl _ _ _) fun t q hq => (keepsHigh_tqFlush (.inl (by decide)) t (List.mem_range.mp hq)).trans
    (keepsHigh_updTq (.inl (by decide)) _ _ _)

/-- A restart counts itself in EVT_RESTART, and says what began it. -/
theorem dpBegin_evtRestart (s : State) {cause : Nat} (hc : cause < 256) (auto : Bool) (failed : List Nat) (patch : Bool) :
    (s.dpBegin cause auto failed patch).fld rEVT_RESTART fEVT_RESTART_LAST_CAUSE = cause ∧
    (s.dpBegin cause auto failed patch).fld rEVT_RESTART fEVT_RESTART_COUNT = satN 16 (s.fld rEVT_RESTART fEVT_RESTART_COUNT + 1) := by
  unfold State.dpBegin
  dsimp only
  generalize hb : ((((s.setFlds rGLB_STATUS [(fGLB_STATUS_STATE, 4), (fGLB_STATUS_HALT_CAUSE, 0)]).setFld rEVT_RESTART
    fEVT_RESTART_LAST_CAUSE cause).addSat rEVT_RESTART fEVT_RESTART_COUNT 1).onRst _) = b
  have k : keeps 0x10028 0x12000 b
      ((upTo 4).foldl (fun t n => t.xfmCancel n 3) ((upTo 20).foldl (fun t u => t.ddcCancel u 3) (b.planRestart.calAbortIf 10))).trgRestart :=
    (keeps.overList (.overList ((keeps_planRestart b).trans (keeps_calAbortIf _ (by decide))) fun t u _ => keeps_ddcCancel t u 3)
      fun t n _ => keeps_xfmCancel t n 3).trans (keeps_trgRestart _)
  rw [k.fld _ _ (by decide), k.fld _ _ (by decide), ← hb]
  simp (disch := decide) [Nat.mod_eq_of_lt hc]

theorem inject_eq_restart {s : State} (h : s.fld rEVT_INJ fEVT_INJ_TYPE = 5) :
    (s.dpAllowed = true → s.inject = (s.injDone.raise 6).dpBegin dpInjected false [] false) ∧ (s.dpAllowed = false → s.inject = s.injRefuse) := by
  unfold State.inject
  simp only [h]
  exact ⟨fun hd => if_pos hd, fun hd => if_neg (by simp [hd])⟩

theorem inject_eq_closed {s : State} (h : s.fld rEVT_INJ fEVT_INJ_TYPE = 2)
    (hc : (s.ctx ((s.rd rEVT_INJ_ARG).toNat % 4096)).st ≠ .opened) : s.inject = s.injRefuse := by
  unfold State.inject
  simp only [h]
  exact if_neg hc

section
variable {s : State} (h : s.windowOpen rEVT_INJ = true)
include h

theorem inject_restart (hl : s.flag rEVT_INJ fEVT_INJ_LOCK = false) (v : Word) (hd : s.dpAllowed = true) :
    completes (.injectRestart v) s fun t => t.glb = 4 ∧ t.fld rEVT_RESTART fEVT_RESTART_LAST_CAUSE = 6 ∧
        t.fld rEVT_RESTART fEVT_RESTART_COUNT = satN 16 (s.fld rEVT_RESTART fEVT_RESTART_COUNT + 1) ∧
        t.rst.cause = 6 ∧ t.rst.t0 = s.time ∧ t.rst.phase = 0 ∧ t.time = s.time ∧ t.store = s.store := by
  have ku := touches_injWritten (injWord v 5) s
  have ht : (injWritten (injWord v 5) s).fld rEVT_INJ fEVT_INJ_TYPE = 5 := (injWritten_type _ _).trans (injWord_type v (by decide))
  have hc : (injWritten (injWord v 5) s).fld rEVT_RESTART fEVT_RESTART_COUNT = s.fld rEVT_RESTART fEVT_RESTART_COUNT :=
    fld_of_rd (injWritten_rd _ _ (by decide))
  have hr (a : Nat) (ha : a ≠ rEVT_INJ) (f : Fld) : (injWritten (injWord v 5) s).fld a f = s.fld a f := fld_of_rd (injWritten_rd _ _ ha)
  have e := next_inject h hl v 5
  generalize injWritten (injWord v 5) s = u at *
  have hd' : u.dpAllowed = true := by
    unfold State.dpAllowed State.ready State.glb at hd ⊢
    rw [hr _ (by decide), hr _ (by decide)]
    exact hd
  have ei := (inject_eq_restart ht).1 hd'
  have kb : Touches mEvent u (u.injDone.raise 6) :=
    ((touches_State.injDone u).mono (by decide)).trans (touches_State.raise _ _ _ _ _)
  have cb : (u.injDone.raise 6).fld rEVT_RESTART fEVT_RESTART_COUNT = s.fld rEVT_RESTART fEVT_RESTART_COUNT := by
    rw [(keeps.raise (lo := 0x10028) (hi := 0x12000) (.refl _ _ _) (by omega)).fld _ _ (by decide), State.injDone,
      State.fld_setFld_other _ _ _ _ (by decide), hc]
  refine ⟨_, e, ?_⟩
  rw [ei]
  generalize u.injDone.raise 6 = b at kb cb
  have kl := touches_injLocked (injWord v 5) (b.dpBegin dpInjected false [] false)
  have kd := touches_State.dpBegin b dpInjected false [] false
  obtain ⟨g1, g2⟩ := dpBegin_rst_glb b dpInjected false [] false
  obtain ⟨r1, r2⟩ := dpBegin_evtRestart b (cause := dpInjected) (by decide) false [] false
  have tb : b.time = s.time := (kb.time (by decide)).trans (ku.time (by decide))
  have rst := (kl.rst (by decide)).trans (g2 _ rfl)
  refine ⟨kl.glbState.trans g1, ?_, ?_, by rw [rst], by rw [rst, tb], by rw [rst], ?_, ?_⟩
  · rw [fld_of_rd (injLocked_rd _ _ (by decide)), r1]
  · rw [fld_of_rd (injLocked_rd _ _ (by decide)), r2, cb]
  · rw [kl.time (by decide), kd.time (by decide), tb]
  · rw [kl.store (by decide), kd.store (by decide), kb.store (by decide), ku.store (by decide)]

theorem inject_lock {v : Word} (hg : fget v fEVT_INJ_GO = 0) : completes (.injectLock v) s fun t => t.flag rEVT_INJ fEVT_INJ_LOCK = true ∧
      t.fld rEVT_INJ fEVT_INJ_RESULT = s.fld rEVT_INJ fEVT_INJ_RESULT ∧ t.fld rEVT_INJ fEVT_INJ_TYPE = fget v fEVT_INJ_TYPE ∧
      onlyIn (mRegs ||| mStaged) [rEVT_INJ] [] s t := by
  have hg' : fget (fset v fEVT_INJ_LOCK 1) fEVT_INJ_GO = 0 := (fget_fset_apart _ _ _ _ (by decide)).trans hg
  have hl : fget (fset v fEVT_INJ_LOCK 1) fEVT_INJ_LOCK = 1 := fget_fset_self _ _ _ (by decide)
  have e : exec (.injectLock v) s = .next ((injWritten (fset v fEVT_INJ_LOCK 1) s).setFld rEVT_INJ fEVT_INJ_LOCK 1) := by
    refine next_hostWr_open h rfl ?_
    unfold State.wrEvtInj
    rw [hg', hl]
    rfl
  refine ⟨_, e, ?_, ?_, ?_, .of_hi (.setFld (onlyIn_injWritten _ s)) (by decide)⟩
  · rw [State.flag, State.fld_setFld_self _ _ _ _ (by decide)]
    rfl
  · rw [State.fld_setFld_apart _ _ _ _ _ _ (by decide), injWritten_result]
  · rw [State.fld_setFld_apart _ _ _ _ _ _ (by decide), injWritten_type, fget_fset_apart _ _ _ _ (by decide)]

/-- Which injections of a memory error are refused: those of no line of the store. -/
theorem inject_flip {v : Word} {ty bit arg : Nat} (ht : ty = 3 ∧ bit = 4 ∨ ty = 4 ∧ bit = 8) (ha : (s.rd rEVT_INJ_ARG).toNat = arg) :
    (arg % 64 ≠ 0 ∨ 30064771072 ≤ arg → (injWritten (injWord v ty) s).inject = (injWritten (injWord v ty) s).injRefuse) ∧
    (arg % 64 = 0 → arg < 30064771072 → (injWritten (injWord v ty) s).inject = (((injWritten (injWord v ty) s).onBadLines fun _ =>
      SMap.upd 0 (injWritten (injWord v ty) s).badLines (arg / 64) fun e => e ||| bit).injDone).raise 6) := by
  have hty : (injWritten (injWord v ty) s).fld rEVT_INJ fEVT_INJ_TYPE = ty := (injWritten_type _ _).trans (injWord_type v (by omega))
  have harg : ((injWritten (injWord v ty) s).rd rEVT_INJ_ARG).toNat = arg := by rw [injWritten_rd _ _ (by decide), ha]
  generalize injWritten (injWord v ty) s = u at *
  unfold State.inject
  obtain ⟨rfl, rfl⟩ | ⟨rfl, rfl⟩ := ht
  · simp only [hty, harg]
    exact ⟨fun h => if_pos (by simpa [storeBytes] using h), fun h1 h2 => if_neg (by simp [storeBytes, h1]; omega)⟩
  · simp only [hty, harg]
    exact ⟨fun h => if_pos (by simpa [storeBytes] using h), fun h1 h2 => if_neg (by simp [storeBytes, h1]; omega)⟩

end

/-- Settles O59, a clause per register of the event controller and per injection. -/
theorem eventControlsAndInjection : Obligations.EventControlsAndInjection := by
  refine ⟨fun v n s h hn => ?release, fun v s h => evtCtrl_written v h, fun v s h => swtest_fires v h, fun v s h hl => ?locked,
    fun v arg s h hl ha => ⟨inject_event h hl v ha, fun hc => ?closed, fun ho hg => inject_context h hl v ha ho hg, ?lines,
      fun hd => inject_restart h hl v hd, fun hd => ?halted⟩, fun v s h hg => inject_lock h hg⟩
  case release =>
    subst hn
    exact ⟨fun h' => release_refused h h', fun h0 hle => release_taken h h0 hle⟩
  case locked =>
    intro i hi
    simp only [List.mem_cons, List.not_mem_nil, or_false] at hi
    obtain rfl | rfl | rfl | rfl | rfl := hi
    · exact inject_locked h hl v 1
    · exact inject_locked h hl v 2
    · exact inject_locked h hl v 3
    · exact inject_locked h hl v 4
    · exact inject_locked h hl v 5
  case closed =>
    refine inject_refused h hl v 2 ?_
    have hc' : ((injWritten (injWord v 2) s).ctx (arg % 4096)).st ≠ .opened := by
      rw [State.ctx, (touches_injWritten _ s).ctxs (by decide)]
      exact hc
    exact inject_eq_closed ((injWritten_type _ _).trans (injWord_type v (by decide))) (by rw [injWritten_rd _ _ (by decide), ha]; exact hc')
  case lines =>
    intro e he
    simp only [List.mem_cons, List.not_mem_nil, or_false] at he
    obtain rfl | rfl := he
    · obtain ⟨no, yes⟩ := inject_flip h (v := v) (.inl ⟨rfl, rfl⟩) ha
      exact ⟨fun h' => have ⟨t, e, r, _, k⟩ := inject_refused h hl v 3 (no h'); ⟨t, e, r, k⟩, fun h0 hm => inject_line h hl v (by decide) ha h0 hm (yes h0 hm)⟩
    · obtain ⟨no, yes⟩ := inject_flip h (v := v) (.inr ⟨rfl, rfl⟩) ha
      exact ⟨fun h' => have ⟨t, e, r, _, k⟩ := inject_refused h hl v 4 (no h'); ⟨t, e, r, k⟩, fun h0 hm => inject_line h hl v (by decide) ha h0 hm (yes h0 hm)⟩
  case halted =>
    have hd' : (injWritten (injWord v 5) s).dpAllowed = false := by
      unfold State.dpAllowed State.ready State.glb at hd ⊢
      rw [fld_of_rd (injWritten_rd _ _ (by decide)), fld_of_rd (injWritten_rd _ _ (by decide))]
      exact hd
    obtain ⟨t, e, r, -, k⟩ := inject_refused h hl v 5 ((inject_eq_restart ((injWritten_type _ _).trans (injWord_type v (by decide)))).2 hd')
    exact ⟨t, e, r, k⟩

end Sys2Proof

end

section
/-! SUPPORT. Rails, temperatures and the thermal stop (R545, R558 to R560). -/

set_option Elab.async false

namespace Sys2Proof

open Sys2Proof.Machine

/-! ### Rails -/

theorem exec_railLow (r : Fin 11) (mv : Fin 65536) {s : State} (hg : s.glb ≠ 0) : exec (.railLow r mv) s = .next (s.railLow r mv) :=
  next_live hg rfl

theorem exec_railHigh (r : Fin 11) (mv : Fin 65536) {s : State} (hg : s.glb ≠ 0) : exec (.railHigh r mv) s = .next (s.railHigh r mv) :=
  next_live hg rfl

/-- A rail outside its tolerance, marked and measured, with its event. -/
def railOut (s : State) (r mv : Nat) (f : Fld) (src : Nat) : State :=
  (s.setFlds (rPWR_RAIL r) [(f, 1), (fPWR_RAIL_MV, mv)]).raiseLim 1000000 src (some r) 0 0 r

theorem railOut_effect (s : State) {r mv : Nat} {f : Fld} (hf : f = fPWR_RAIL_LOW ∨ f = fPWR_RAIL_HIGH) {src : Nat} (hs : src < 1024)
    (hmv : mv < 65536) : (railOut s r mv f src).flag (rPWR_RAIL r) f = true ∧ (railOut s r mv f src).fld (rPWR_RAIL r) fPWR_RAIL_MV = mv ∧
      onlyIn mEvent [rPWR_RAIL r] [src] s (railOut s r mv f src) := by
  have h (g : Fld) : (railOut s r mv f src).fld (rPWR_RAIL r) g = (s.setFlds (rPWR_RAIL r) [(f, 1), (fPWR_RAIL_MV, mv)]).fld (rPWR_RAIL r) g :=
    State.fld_raiseLim_other _ 1000000 src (some r) 0 0 r (rPWR_RAIL r) g (by simp only [rPWR_RAIL]; omega)
  refine ⟨?_, ?_, .of_hi (.raiseLim (.setFlds (.refl _ _ _ _))) ?_⟩
  · rw [State.flag, h]
    obtain rfl | rfl := hf
    · simp (disch := decide)
    · simp (disch := decide)
  · rw [h]
    obtain rfl | rfl := hf
    · simp (disch := decide) [Nat.mod_eq_of_lt hmv]
    · simp (disch := decide) [Nat.mod_eq_of_lt hmv]
  · simp only [List.mem_singleton, rPWR_RAIL]
    omega

/-- What a rail's command does, by the mark it already has. -/
theorem rail_clause {e : Instr × Fld × Nat} {r : Fin 11} {mv : Fin 65536} {s : State} (hf : e.2.1 = fPWR_RAIL_LOW ∨ e.2.1 = fPWR_RAIL_HIGH)
    (hs : e.2.2 < 1024) (he : exec e.1 s = .next (if s.flag (rPWR_RAIL r) e.2.1 then s.setFlds (rPWR_RAIL r) [(e.2.1, 1), (fPWR_RAIL_MV, mv)]
      else railOut s r mv e.2.1 e.2.2)) :
    (s.flag (rPWR_RAIL r) e.2.1 = true → exec e.1 s = .next (s.setFlds (rPWR_RAIL r) [(e.2.1, 1), (fPWR_RAIL_MV, mv)])) ∧
      (s.flag (rPWR_RAIL r) e.2.1 = false →
        completes e.1 s fun t => t.flag (rPWR_RAIL r) e.2.1 = true ∧ t.fld (rPWR_RAIL r) fPWR_RAIL_MV = mv ∧
          onlyIn mEvent [rPWR_RAIL r] [e.2.2] s t) := by
  constructor
  · intro h
    rwa [if_pos h] at he
  · intro h
    rw [if_neg (by simp [h])] at he
    exact ⟨_, he, railOut_effect s hf hs mv.isLt⟩

theorem rail_recovered_bit (r : Fin 11) (s : State) (w : Bool) :
    (if w then s.setFlds (rPWR_RAIL r) [(fPWR_RAIL_LOW, 0), (fPWR_RAIL_HIGH, 0)] else s).pkg = s.pkg ∧
    (if w then s.setFlds (rPWR_RAIL r) [(fPWR_RAIL_LOW, 0), (fPWR_RAIL_HIGH, 0)] else s).stk = s.stk ∧
    onlyIn (mRegs ||| mPkg) [rPWR_RAIL r] [] s (if w then s.setFlds (rPWR_RAIL r) [(fPWR_RAIL_LOW, 0), (fPWR_RAIL_HIGH, 0)] else s) := by
  cases w
  · exact ⟨rfl, rfl, .refl _ _ _ _⟩
  · exact ⟨(touches_State.setFlds _ _ _).pkg (by decide), (touches_State.setFlds _ _ _).stk (by decide), .of_hi (.setFlds (.refl _ _ _ _))
      (by simp only [List.mem_singleton, rPWR_RAIL]; omega)⟩

theorem railRecovered_ends (r : Fin 11) (s : State) (w : Bool) (hr : s.pkg.rail = true) (h1 : s.pkg.porst = false) (h2 : s.pkg.perst = false)
    (hg : s.glb = 0) : completes (.railRecovered r w) s fun t => t.glb = 1 ∧ t.stk = { s.stk with step := 1 } ∧ t.pkg = { s.pkg with rail := false } ∧
        onlyIn (mRegs ||| mStk ||| mPkg ||| mGlb) [rPWR_RAIL r, rGLB_STATUS, rSEC_STATUS, rMGT_SMB] [] s t := by
  obtain ⟨hp, hs, k⟩ := rail_recovered_bit r s w
  refine ⟨_, rfl, ?_⟩
  unfold State.railRecovered
  dsimp only
  generalize (if w then s.setFlds (rPWR_RAIL r) [(fPWR_RAIL_LOW, 0), (fPWR_RAIL_HIGH, 0)] else s) = u at *
  have hgu : u.glb = 0 := (k.1.glbState).trans hg
  rw [if_pos (by rw [hp, hr])]
  have k' : onlyIn (mRegs ||| mStk ||| mPkg ||| mGlb) [rPWR_RAIL r, rGLB_STATUS, rSEC_STATUS, rMGT_SMB] [] s (u.updPkg fun k => { k with rail := false }) :=
    .other (k.mono (by decide) (by simp) (by simp)) (touches_State.updPkg _ _) (by decide) (State.updPkg_regs _ _)
  have hpk : (u.updPkg fun k => { k with rail := false }).pkg = { s.pkg with rail := false } := congrArg (fun p : Pkg => { p with rail := false }) hp
  have hst : (u.updPkg fun k => { k with rail := false }).stk = s.stk := hs
  have hgv : (u.updPkg fun k => { k with rail := false }).glb = 0 := hgu
  generalize (u.updPkg fun k => { k with rail := false }) = v at *
  unfold State.bootBegin
  rw [if_neg (by simp [hgv, hpk, h1, h2])]
  refine ⟨?_, ?_, ?_, .other (.setFld (.setFld (.setFld k'))) (touches_State.bootTo _ _) (by decide) ?_⟩
  · rw [(touches_State.bootTo _ _).glbState, State.glb]
    simp (disch := decide)
  · rw [State.bootTo, State.updStk_stk, (touches_State.setFld _ _ _ _).stk (by decide), (touches_State.setFld _ _ _ _).stk (by decide),
      (touches_State.setFld _ _ _ _).stk (by decide), hst]
  · rw [(touches_State.bootTo _ _).pkg (by decide), (touches_State.setFld _ _ _ _).pkg (by decide), (touches_State.setFld _ _ _ _).pkg (by decide),
      (touches_State.setFld _ _ _ _).pkg (by decide), hpk]
  · exact (touches_State.bootTo _ _).regs (by decide)

theorem railRecovered_held (r : Fin 11) (s : State) (w : Bool) (hr : s.pkg.rail = true) (hp : s.pkg.porst = true ∨ s.pkg.perst = true) :
    completes (.railRecovered r w) s fun t => t.pkg = { s.pkg with rail := false } ∧ t.stk = s.stk ∧
        onlyIn (mRegs ||| mPkg) [rPWR_RAIL r] [] s t := by
  obtain ⟨hpk, hs, k⟩ := rail_recovered_bit r s w
  refine ⟨_, rfl, ?_⟩
  unfold State.railRecovered
  dsimp only
  generalize (if w then s.setFlds (rPWR_RAIL r) [(fPWR_RAIL_LOW, 0), (fPWR_RAIL_HIGH, 0)] else s) = u at *
  rw [if_pos (by rw [hpk, hr])]
  unfold State.bootBegin
  rw [if_pos (by
    rw [State.updPkg, hpk]
    obtain h | h := hp <;> simp [h])]
  exact ⟨congrArg (fun p : Pkg => { p with rail := false }) hpk, hs, .other k (touches_State.updPkg _ _) (by decide) (State.updPkg_regs _ _)⟩

/-! ### Sensors -/

theorem keeps_calDueTemp (s : State) (n : Nat) (hn : n < 4) : keeps 0xe00000 0xf00000 s (s.calDueTemp n) := by
  unfold State.calDueTemp State.calDueRise
  exact .ite (.ite (.refl _ _ _) (.raise (.setFld (.refl _ _ _) (by decide)) (by omega))) (.refl _ _ _)

/-- A sensor's register takes its reading and the largest; of the package's registers no other changes. -/
theorem keeps_sensor (s : State) (k : Nat) (temp : Int) : keeps 0xe00000 0xf00000 (s.setFlds (rTHM_TEMP k) [(fTHM_TEMP_TEMP, ofSigned 16 temp),
    (fTHM_TEMP_MAX, ofSigned 16 (max temp (s.fldS (rTHM_TEMP k) fTHM_TEMP_MAX)))]) (s.sensor k temp) := by
  unfold State.sensor
  dsimp only
  generalize s.setFlds (rTHM_TEMP k) _ = u
  have h2 (c : Bool) : keeps 0xe00000 0xf00000 u (if c then u.raiseLim 1000000 18 (some k) 0 0 k else u) := .ite (.raiseLim (.refl _ _ _) (by decide)) (.refl _ _ _)
  have h3 (c : Bool) : keeps 0xe00000 0xf00000 u (if temp < -880 then (if c then u.raiseLim 1000000 18 (some k) 0 0 k else u).raiseLim 1000000 21 (some k) 0 0 k
      else if c then u.raiseLim 1000000 18 (some k) 0 0 k else u) := .ite ((h2 c).raiseLim (by decide)) (h2 c)
  split
  · next h => exact (h3 _).trans (keeps_calDueTemp _ k h)
  · exact h3 _

theorem fldS_range (s : State) (a : Nat) (f : Fld) (hf : f.w = 16) : -32768 ≤ s.fldS a f ∧ s.fldS a f < 32768 := by
  have h : fget (s.rd a) f < 2 ^ f.w := fget_lt _ _
  unfold State.fldS fgetS
  rw [hf] at h ⊢
  split
  · omega
  · omega

theorem sensor_effect (s : State) {k : Nat} (hk : k < 8) {temp : Int} (ht : -32768 ≤ temp ∧ temp < 32768) :
    (s.sensor k temp).fldS (rTHM_TEMP k) fTHM_TEMP_TEMP = temp ∧
    (s.sensor k temp).fldS (rTHM_TEMP k) fTHM_TEMP_MAX = max temp (s.fldS (rTHM_TEMP k) fTHM_TEMP_MAX) := by
  have hm := fldS_range s (rTHM_TEMP k) fTHM_TEMP_MAX rfl
  have hr (f : Fld) := (keeps_sensor s k temp).fld (rTHM_TEMP k) f (by simp only [rTHM_TEMP]; omega)
  have hmax : -32768 ≤ max temp (s.fldS (rTHM_TEMP k) fTHM_TEMP_MAX) ∧ max temp (s.fldS (rTHM_TEMP k) fTHM_TEMP_MAX) < 32768 := by omega
  generalize max temp (s.fldS (rTHM_TEMP k) fTHM_TEMP_MAX) = m at *
  exact ⟨fgetS_of_ofSigned ((hr _).trans (by simp (disch := decide))) (by decide) ht.1 ht.2,
    fgetS_of_ofSigned ((hr _).trans (by simp (disch := decide))) (by decide) hmax.1 hmax.2⟩

/-- What a list of readings leaves, sensor after sensor from `n` on. -/
theorem sense_list (l : List Int) (n : Nat) (s : State) (hn : n + l.length ≤ 8) (hl : ∀ x ∈ l, -32768 ≤ x ∧ x < 32768) :
    (∀ a, 0xe00000 ≤ a → a < 0xf00000 → (∀ k < l.length, a ≠ rTHM_TEMP (n + k)) →
      ((l.zipIdx n).foldl (fun (t : State) (e : Int × Nat) => t.sensor e.2 e.1) s).rd a = s.rd a) ∧
    ∀ k < l.length, ((l.zipIdx n).foldl (fun (t : State) (e : Int × Nat) => t.sensor e.2 e.1) s).fldS (rTHM_TEMP (n + k)) fTHM_TEMP_TEMP = l.getD k 0 ∧
      ((l.zipIdx n).foldl (fun (t : State) (e : Int × Nat) => t.sensor e.2 e.1) s).fldS (rTHM_TEMP (n + k)) fTHM_TEMP_MAX =
        max (l.getD k 0) (s.fldS (rTHM_TEMP (n + k)) fTHM_TEMP_MAX) := by
  induction l generalizing n s with
  | nil => exact ⟨fun _ _ _ _ => rfl, fun k hk => absurd hk (Nat.not_lt_zero k)⟩
  | cons x l ih =>
    rw [List.length_cons] at hn
    obtain ⟨other, each⟩ := ih (n + 1) (s.sensor n x) (by omega) fun y hy => hl y (List.mem_cons_of_mem x hy)
    have one (a : Nat) (h1 : 0xe00000 ≤ a) (h2 : a < 0xf00000) (h3 : a ≠ rTHM_TEMP n) : (s.sensor n x).rd a = s.rd a :=
      (keeps_sensor s n x a h1 h2).trans (State.rd_setFlds_other _ _ h3)
    rw [List.zipIdx_cons, List.foldl_cons, List.length_cons]
    refine ⟨fun a h1 h2 h3 => ?_, fun k hk => ?_⟩
    · rw [other a h1 h2 fun k hk e => h3 (k + 1) (by omega) (by rw [e]; congr 1; omega)]
      exact one a h1 h2 (h3 0 (by omega))
    · cases k with
      | zero =>
        have e : ∀ f, ((l.zipIdx (n + 1)).foldl (fun (t : State) (e : Int × Nat) => t.sensor e.2 e.1) (s.sensor n x)).fldS (rTHM_TEMP n) f =
            (s.sensor n x).fldS (rTHM_TEMP n) f := fun f => congrArg (fgetS · f) (other _ (by simp only [rTHM_TEMP]; omega)
              (by simp only [rTHM_TEMP]; omega) fun k _ => by simp only [rTHM_TEMP]; omega)
        obtain ⟨h1, h2⟩ := sensor_effect s (k := n) (by omega) (hl x (List.mem_cons_self ..))
        exact ⟨(e _).trans h1, (e _).trans h2⟩
      | succ k =>
        obtain ⟨h1, h2⟩ := each k (by omega)
        rw [show n + (k + 1) = n + 1 + k by omega, List.getD_cons_succ]
        refine ⟨h1, h2.trans (congrArg (max _) (congrArg (fgetS · _) (one _ ?_ ?_ ?_)))⟩
        · simp only [rTHM_TEMP]
          omega
        · simp only [rTHM_TEMP]
          omega
        · simp only [rTHM_TEMP]
          omega

theorem rails_list (l : List (Nat × Nat)) (n : Nat) (s : State) :
    (∀ a, (∀ k < l.length, a ≠ rPWR_RAIL (n + k)) → ((l.zipIdx n).foldl (fun (t : State) (e : (Nat × Nat) × Nat) =>
      t.setFlds (rPWR_RAIL e.2) [(fPWR_RAIL_MV, e.1.1), (fPWR_RAIL_CURRENT, e.1.2)]) s).rd a = s.rd a) ∧
    ∀ k < l.length, ((l.zipIdx n).foldl (fun (t : State) (e : (Nat × Nat) × Nat) =>
        t.setFlds (rPWR_RAIL e.2) [(fPWR_RAIL_MV, e.1.1), (fPWR_RAIL_CURRENT, e.1.2)]) s).fld (rPWR_RAIL (n + k)) fPWR_RAIL_MV = (l.getD k (0, 0)).1 % 2 ^ 16 ∧
      ((l.zipIdx n).foldl (fun (t : State) (e : (Nat × Nat) × Nat) =>
        t.setFlds (rPWR_RAIL e.2) [(fPWR_RAIL_MV, e.1.1), (fPWR_RAIL_CURRENT, e.1.2)]) s).fld (rPWR_RAIL (n + k)) fPWR_RAIL_CURRENT =
          (l.getD k (0, 0)).2 % 2 ^ 16 := by
  induction l generalizing n s with
  | nil => exact ⟨fun _ _ => rfl, fun k hk => absurd hk (Nat.not_lt_zero k)⟩
  | cons x l ih =>
    obtain ⟨other, each⟩ := ih (n + 1) (s.setFlds (rPWR_RAIL n) [(fPWR_RAIL_MV, x.1), (fPWR_RAIL_CURRENT, x.2)])
    rw [List.zipIdx_cons, List.foldl_cons, List.length_cons]
    refine ⟨fun a h3 => ?_, fun k hk => ?_⟩
    · rw [other a fun k hk e => h3 (k + 1) (by omega) (by rw [e]; congr 1; omega)]
      exact State.rd_setFlds_other _ _ (h3 0 (by omega))
    · cases k with
      | zero =>
        have e := other (rPWR_RAIL n) fun k _ => by simp only [rPWR_RAIL]; omega
        have m : (s.setFlds (rPWR_RAIL n) [(fPWR_RAIL_MV, x.1), (fPWR_RAIL_CURRENT, x.2)]).fld (rPWR_RAIL n) fPWR_RAIL_MV = x.1 % 2 ^ 16 := by
          simp (disch := decide)
        have c : (s.setFlds (rPWR_RAIL n) [(fPWR_RAIL_MV, x.1), (fPWR_RAIL_CURRENT, x.2)]).fld (rPWR_RAIL n) fPWR_RAIL_CURRENT = x.2 % 2 ^ 16 := by
          simp (disch := decide)
        exact ⟨(fld_of_rd e).trans m, (fld_of_rd e).trans c⟩
      | succ k =>
        obtain ⟨h1, h2⟩ := each k (by omega)
        rw [show n + (k + 1) = n + 1 + k by omega, List.getD_cons_succ]
        exact ⟨h1, h2⟩

/-! ### An update of the sensors (R558, R560) -/

/-- The state after the readings have been taken in, before CRIT is looked at. -/
def sensedAt (s : State) (temps : List Int) (rails : List (Nat × Nat)) : State := (s.thmSense temps).railSense rails

theorem touches_sensedAt (s : State) (temps : List Int) (rails : List (Nat × Nat)) : Touches mEvent s (sensedAt s temps rails) :=
  (touches_State.thmSense s temps).trans ((touches_State.railSense _ rails).mono (by decide))

section
variable {temps : List Int} {rails : List (Nat × Nat)} (s : State)

theorem sensedAt_thm (ht : temps.length = 8) (hr : rails.length = 11) (hx : ∀ x ∈ temps, -32768 ≤ x ∧ x < 32768) :
    (∀ k < 8, (sensedAt s temps rails).fldS (rTHM_TEMP k) fTHM_TEMP_TEMP = temps.getD k 0 ∧
      (sensedAt s temps rails).fldS (rTHM_TEMP k) fTHM_TEMP_MAX = max (temps.getD k 0) (s.fldS (rTHM_TEMP k) fTHM_TEMP_MAX)) ∧
    (sensedAt s temps rails).rd rTHM_LIMIT = s.rd rTHM_LIMIT ∧ (sensedAt s temps rails).rd rTHM_STATUS = s.rd rTHM_STATUS := by
  obtain ⟨other, each⟩ := sense_list temps 0 s (by omega) hx
  have e1 : s.thmSense temps = (temps.zipIdx 0).foldl (fun (t : State) (e : Int × Nat) => t.sensor e.2 e.1) s := by
    rw [State.thmSense, List.take_of_length_le (by simp [ht])]
  have k (a : Nat) (ha : 0xe10000 ≤ a) : (sensedAt s temps rails).rd a = (s.thmSense temps).rd a := by
    unfold sensedAt State.railSense
    rw [State.rd_setFlds_other _ _ (by simp only [rPWR_TOTAL]; omega), List.take_of_length_le (by simp [hr])]
    exact (rails_list rails 0 _).1 a fun k hk => by simp only [rPWR_RAIL]; omega
  refine ⟨fun k' hk => ?_, ?_, ?_⟩
  · obtain ⟨h1, h2⟩ := each k' (by omega)
    rw [Nat.zero_add, ← e1] at h1 h2
    have e := k (rTHM_TEMP k') (by simp only [rTHM_TEMP]; omega)
    exact ⟨(congrArg (fgetS · _) e).trans h1, (congrArg (fgetS · _) e).trans h2⟩
  · rw [k _ (by decide), e1]
    exact other _ (by decide) (by decide) fun k hk => by simp only [rTHM_TEMP, rTHM_LIMIT]; omega
  · rw [k _ (by decide), e1]
    exact other _ (by decide) (by decide) fun k hk => by simp only [rTHM_TEMP, rTHM_STATUS]; omega

theorem sensedAt_rails (hr : rails.length = 11) :
    (∀ k < 11, (sensedAt s temps rails).fld (rPWR_RAIL k) fPWR_RAIL_MV = (rails.getD k (0, 0)).1 % 2 ^ 16 ∧
      (sensedAt s temps rails).fld (rPWR_RAIL k) fPWR_RAIL_CURRENT = (rails.getD k (0, 0)).2 % 2 ^ 16) ∧
    (sensedAt s temps rails).fld rPWR_TOTAL fPWR_TOTAL_MW = rails.foldl (fun n e => n + e.1 * e.2) 0 / 1000 % 2 ^ 32 := by
  unfold sensedAt State.railSense
  dsimp only
  rw [List.take_of_length_le (by simp [hr]), List.take_of_length_le (by omega)]
  obtain ⟨-, each⟩ := rails_list rails 0 (s.thmSense temps)
  generalize List.foldl _ (s.thmSense temps) _ = u at each ⊢
  refine ⟨fun k hk => ?_, ?_⟩
  · obtain ⟨h1, h2⟩ := each k (by omega)
    rw [Nat.zero_add] at h1 h2
    have n : rPWR_RAIL k ≠ rPWR_TOTAL := by simp only [rPWR_RAIL, rPWR_TOTAL]; omega
    exact ⟨(State.fld_setFlds_other _ _ _ n).trans h1, (State.fld_setFlds_other _ _ _ n).trans h2⟩
  · simp (disch := decide)

theorem mem_critSensors (ht : temps.length = 8) (hr : rails.length = 11) (hx : ∀ x ∈ temps, -32768 ≤ x ∧ x < 32768) (k : Nat) :
    k ∈ (sensedAt s temps rails).critSensors ↔ k < 8 ∧ (s.fld rTHM_LIMIT fTHM_LIMIT_CRIT : Int) ≤ temps.getD k 0 := by
  obtain ⟨each, hl, -⟩ := sensedAt_thm s ht hr hx
  unfold State.critSensors
  rw [fld_of_rd hl]
  simp only [List.mem_filter, decide_eq_true_eq]
  rw [show k ∈ upTo 8 ↔ k < 8 from List.mem_range]
  exact and_congr_right fun hk => by rw [(each k hk).1]

end

theorem onlyIn_thmPin (s : State) : onlyIn mEvent [rTHM_STATUS] [19] s s.thmPin := by
  unfold State.thmPin
  have k : onlyIn mEvent [rTHM_STATUS] [19] s (s.setFlds rTHM_STATUS [(fTHM_STATUS_ALERT, b2n s.thmAlert), (fTHM_STATUS_MEM_HOT, b2n s.memHot)]) :=
    .of_hi (.setFlds (.refl _ _ _ _)) (by decide)
  exact .ite (.ite (.raiseLim (.of_hi (.setFld (k.mono (by decide) (fun _ h => h) (fun _ h => h))) (by decide))) k)
    (.ite (.of_hi (.addSat (.setFld (k.mono (by decide) (fun _ h => h) (fun _ h => h)))) (by decide)) k)

end Sys2Proof

end

section
/-! SUPPORT. The thermal stop, standby and self-refresh, the SMBus target and the test access port (R555 to R563). -/

set_option Elab.async false

namespace Sys2Proof

open Sys2Proof.Machine

/-! ### What an update of the sensors does -/

theorem thmCrit_none {s : State} {crit : List Nat} (h : (crit.find? fun k => s.pkg.crit.contains k) = none) :
    s.thmCrit crit = (s.updPkg fun p => { p with crit := crit }).thmPin := by
  unfold State.thmCrit
  simp only [h]

theorem thmCrit_some {s : State} {crit : List Nat} {k : Nat} (h : (crit.find? fun k => s.pkg.crit.contains k) = some k)
    (hs : s.flag rTHM_STATUS fTHM_STATUS_STOPPED = false) : s.thmCrit crit = (s.updPkg fun p => { p with crit := crit }).thermalStop k := by
  unfold State.thmCrit
  simp only [h]
  exact if_neg (by rw [flag_of_rd (State.rd_congr (State.updPkg_regs s _) _), hs]; decide)

theorem thmUpdate_eq (s : State) (temps : List Int) (rails : List (Nat × Nat)) :
    s.thmUpdate temps rails = (sensedAt s temps rails).thmCrit (sensedAt s temps rails).critSensors := rfl

section
variable {temps : List Int} {rails : List (Nat × Nat)} {s : State}

theorem thmUpdate_cool (hg : s.glb ≠ 0) (ht : temps.length = 8) (hr : rails.length = 11) (hx : ∀ x ∈ temps, -32768 ≤ x ∧ x < 32768)
    (hc : ∀ x ∈ temps, x < s.fld rTHM_LIMIT fTHM_LIMIT_CRIT) :
    completes (.thmSensorUpdate temps rails) s fun t =>
        (∀ k < 8, t.fldS (rTHM_TEMP k) fTHM_TEMP_TEMP = temps.getD k 0 ∧
          t.fldS (rTHM_TEMP k) fTHM_TEMP_MAX = max (temps.getD k 0) (s.fldS (rTHM_TEMP k) fTHM_TEMP_MAX)) ∧
        (∀ k < 11, t.fld (rPWR_RAIL k) fPWR_RAIL_MV = (rails.getD k (0, 0)).1 % 2 ^ 16 ∧
          t.fld (rPWR_RAIL k) fPWR_RAIL_CURRENT = (rails.getD k (0, 0)).2 % 2 ^ 16) ∧
        t.fld rPWR_TOTAL fPWR_TOTAL_MW = rails.foldl (fun n e => n + e.1 * e.2) 0 / 1000 % 2 ^ 32 ∧
        t.pkg = { s.pkg with crit := [] } ∧ t.glb = s.glb := by
  have hn : (sensedAt s temps rails).critSensors = [] := by
    refine List.eq_nil_iff_forall_not_mem.mpr fun k hk => ?_
    obtain ⟨h8, h⟩ := (mem_critSensors s ht hr hx k).mp hk
    rw [List.getD_eq_getElem _ _ (by omega)] at h
    have := hc _ (List.getElem_mem (show k < temps.length by omega))
    omega
  have e : exec (.thmSensorUpdate temps rails) s = .next ((sensedAt s temps rails).updPkg fun p => { p with crit := [] }).thmPin := by
    refine next_live hg ?_
    rw [thmUpdate_eq, hn, thmCrit_none rfl]
  obtain ⟨each, -, -⟩ := sensedAt_thm s ht hr hx
  obtain ⟨rail, total⟩ := sensedAt_rails (temps := temps) s hr
  have ks := touches_sensedAt s temps rails
  refine ⟨_, e, ?_⟩
  generalize sensedAt s temps rails = u at *
  have kp := onlyIn_thmPin (u.updPkg fun p => { p with crit := [] })
  have rd (a : Nat) (h1 : a ≠ rTHM_STATUS) (h2 : 0xe00000 ≤ a) : (u.updPkg fun p => { p with crit := [] }).thmPin.rd a = u.rd a :=
    (kp.2 a (by simpa using h1) fun src hs h => by
      obtain rfl := List.mem_singleton.mp hs
      simp only [evtRegs, rEVT_SRC, rEVT_STAT, rEVT_SEQ, rEVT_RING_IDX, List.mem_cons, List.not_mem_nil, or_false] at h
      omega).trans (State.rd_congr (State.updPkg_regs u _) a)
  refine ⟨fun k hk => ?_, fun k hk => ?_, ?_, ?_, ?_⟩
  · have e := rd (rTHM_TEMP k) (by simp only [rTHM_TEMP, rTHM_STATUS]; omega) (by simp only [rTHM_TEMP]; omega)
    exact ⟨(congrArg (fgetS · _) e).trans (each k hk).1, (congrArg (fgetS · _) e).trans (each k hk).2⟩
  · have e := rd (rPWR_RAIL k) (by simp only [rPWR_RAIL, rTHM_STATUS]; omega) (by simp only [rPWR_RAIL]; omega)
    exact ⟨(fld_of_rd e).trans (rail k hk).1, (fld_of_rd e).trans (rail k hk).2⟩
  · exact (fld_of_rd (rd _ (by decide) (by decide))).trans total
  · rw [kp.1.pkg (by decide), State.updPkg_pkg, ks.pkg (by decide)]
  · rw [kp.1.glbState, (touches_State.updPkg u _).glbState, ks.glbState]

/-- THERM_ALERT# follows its conditions, and STOPPED stays as it is. -/
theorem fld_thmPin_stopped (s : State) : s.thmPin.fld rTHM_STATUS fTHM_STATUS_STOPPED = s.fld rTHM_STATUS fTHM_STATUS_STOPPED := by
  have h1 : (s.setFlds rTHM_STATUS [(fTHM_STATUS_ALERT, b2n s.thmAlert), (fTHM_STATUS_MEM_HOT, b2n s.memHot)]).fld rTHM_STATUS fTHM_STATUS_STOPPED =
      s.fld rTHM_STATUS fTHM_STATUS_STOPPED := by
    simp (disch := decide)
  unfold State.thmPin
  dsimp only
  generalize s.setFlds rTHM_STATUS _ = w at h1 ⊢
  have h2 (n : Nat) : (w.setFld rTHM_STATUS fTHM_STATUS_PIN n).fld rTHM_STATUS fTHM_STATUS_STOPPED = s.fld rTHM_STATUS fTHM_STATUS_STOPPED :=
    (State.fld_setFld_apart _ _ _ _ _ _ (by decide)).trans h1
  split
  · split
    · rw [State.fld_raiseLim_other _ _ _ _ _ _ _ _ _ (by decide)]
      exact h2 0
    · exact h1
  · split
    · rw [State.fld_addSat_apart _ _ _ _ _ _ (by decide)]
      exact h2 1
    · exact h1

theorem flag_thmPin_stopped (s : State) : s.thmPin.flag rTHM_STATUS fTHM_STATUS_STOPPED = s.flag rTHM_STATUS fTHM_STATUS_STOPPED := by
  rw [State.flag, State.flag, fld_thmPin_stopped]

theorem thermalStop_halts (s : State) (k : Nat) : (s.thermalStop k).glb = 5 ∧ (s.thermalStop k).fld rGLB_STATUS fGLB_STATUS_HALT_CAUSE = 3 ∧
    (s.thermalStop k).flag rTHM_STATUS fTHM_STATUS_STOPPED = true := by
  unfold State.thermalStop
  dsimp only
  generalize (if (State.selfRefresh _) = true then _ else _ : State) = u
  have h5 : ((u.setFld rTHM_STATUS fTHM_STATUS_STOPPED 1).haltWith 3).glb = 5 := by
    rw [State.glb, State.haltWith]
    simp (disch := decide)
  have hc : ((u.setFld rTHM_STATUS fTHM_STATUS_STOPPED 1).haltWith 3).fld rGLB_STATUS fGLB_STATUS_HALT_CAUSE = 3 := by
    rw [State.haltWith]
    simp (disch := decide)
  have hs : ((u.setFld rTHM_STATUS fTHM_STATUS_STOPPED 1).haltWith 3).flag rTHM_STATUS fTHM_STATUS_STOPPED = true := by
    rw [State.flag, State.haltWith]
    simp (disch := decide)
  generalize (u.setFld rTHM_STATUS fTHM_STATUS_STOPPED 1).haltWith 3 = v at *
  have kp := onlyIn_thmPin v
  exact ⟨kp.1.glbState.trans h5, (fld_of_rd (kp.1.glb (by decide) _ (by decide))).trans hc, (flag_thmPin_stopped v).trans hs⟩

theorem thmUpdate_stops (hg : s.glb ≠ 0) (ht : temps.length = 8) (hr : rails.length = 11) (hx : ∀ x ∈ temps, -32768 ≤ x ∧ x < 32768) {k : Fin 8}
    (hk : s.pkg.crit = [k.val]) (hs : s.flag rTHM_STATUS fTHM_STATUS_STOPPED = false) (hc : (s.fld rTHM_LIMIT fTHM_LIMIT_CRIT : Int) ≤ temps.getD k 0) :
    completes (.thmSensorUpdate temps rails) s fun t => t.glb = 5 ∧ t.fld rGLB_STATUS fGLB_STATUS_HALT_CAUSE = 3 ∧
        t.flag rTHM_STATUS fTHM_STATUS_STOPPED = true := by
  obtain ⟨-, -, hst⟩ := sensedAt_thm (rails := rails) s ht hr hx
  have hm := (mem_critSensors (rails := rails) s ht hr hx k).mpr ⟨k.isLt, hc⟩
  have hp : (sensedAt s temps rails).pkg = s.pkg := (touches_sensedAt s temps rails).pkg (by decide)
  have hf : ((sensedAt s temps rails).critSensors.find? fun j => (sensedAt s temps rails).pkg.crit.contains j) = some k.val := by
    rw [hp, hk]
    obtain ⟨j, hj⟩ := Option.isSome_iff_exists.mp (List.find?_isSome.mpr ⟨k.val, hm, (by simp : [k.val].contains k.val = true)⟩)
    have := List.find?_some hj
    rw [hj]
    simpa using this
  refine ⟨_, next_live hg rfl, ?_⟩
  rw [thmUpdate_eq, thmCrit_some hf ((flag_of_rd hst).trans hs)]
  exact thermalStop_halts _ k

end

end Sys2Proof

end

section
/-! SUPPORT. Standby and self-refresh, the SMBus target and the test access port (R555, R556, R561 to R563). -/

set_option Elab.async false

namespace Sys2Proof

open Sys2Proof.Machine

/-! ### PWR_CTRL (R555) -/

/-- Nothing forbids converter standby. -/
def standbyAllowed (s : State) : Bool := !s.planActive && ((upTo 4).all fun n => !s.flag (rCNV_BG n) fCNV_BG_EN) && s.calState == 0

/-- The write of PWR_CTRL after the store has left self-refresh. -/
def pwrWritten (ask : Nat) (en : Bool) (t : State) : State :=
  if ask = 0 then t.setFld rPWR_CTRL fPWR_CTRL_CNV_STBY 0
  else if en then t.setFld rPWR_CTRL fPWR_CTRL_CNV_STBY 1 else t.addSat rPWR_CTRL fPWR_CTRL_STBY_DISC 1

theorem wrPwrCtrl_eq (v : Word) (s : State) : s.wrPwrCtrl v =
    pwrWritten (fget v fPWR_CTRL_CNV_STBY) (standbyAllowed s) (s.srExit.setFld rPWR_CTRL fPWR_CTRL_SR_EN (fget v fPWR_CTRL_SR_EN)) := rfl

theorem next_pwrCtrl {s : State} (h : s.windowOpen rPWR_CTRL = true) (v : Word) : ∀ i ∈ [Instr.cnvStbyWrite v, .srEnWrite v],
    exec i s = .next ((s.dropStaged .host rPWR_CTRL).wrPwrCtrl v) := by
  intro i hi
  simp only [List.mem_cons, List.not_mem_nil, or_false] at hi
  obtain rfl | rfl := hi
  · exact next_hostWr_open h rfl rfl
  · exact next_hostWr_open h rfl rfl

theorem onlyIn_pwrWritten {m : Nat} {srcs : List Nat} {s t : State} (h : onlyIn (m ||| mGlb) [rPWR_CTRL] srcs s t) (ask : Nat) (en : Bool)
    (hm : (mRegs ||| mGlb) &&& (m ||| mGlb) = mRegs ||| mGlb := by decide) : onlyIn (m ||| mGlb) [rPWR_CTRL] srcs s (pwrWritten ask en t) :=
  .ite (.setFld h (hm := hm)) (.ite (.setFld h (hm := hm)) (.addSat h (hm := hm)))

/-- The bits of PWR_CTRL after the write of its CNV_STBY. -/
theorem pwrWritten_fields (t : State) {ask : Nat} (ha : ask < 2) (en : Bool) :
    (pwrWritten ask en t).selfRefresh = t.selfRefresh ∧ (pwrWritten ask en t).fld rPWR_CTRL fPWR_CTRL_SR_EN = t.fld rPWR_CTRL fPWR_CTRL_SR_EN ∧
    (pwrWritten ask en t).flag rPWR_CTRL fPWR_CTRL_CNV_STBY =
      (if ask = 0 then false else if en then true else t.flag rPWR_CTRL fPWR_CTRL_CNV_STBY) ∧
    (pwrWritten ask en t).fld rPWR_CTRL fPWR_CTRL_STBY_DISC =
      satN 16 (t.fld rPWR_CTRL fPWR_CTRL_STBY_DISC + if ask = 1 ∧ en = false then 1 else 0) := by
  have hlt : satN 16 (t.fld rPWR_CTRL fPWR_CTRL_STBY_DISC) = t.fld rPWR_CTRL fPWR_CTRL_STBY_DISC := if_pos (State.fld_lt _ _ _)
  obtain rfl | rfl : ask = 0 ∨ ask = 1 := by omega
  · refine ⟨?_, ?_, ?_, ?_⟩
    all_goals simp (disch := decide) [pwrWritten, State.selfRefresh, State.flag, hlt]
  · cases en
    · refine ⟨?_, ?_, ?_, ?_⟩
      all_goals simp (disch := decide) [pwrWritten, State.selfRefresh, State.flag]
    · refine ⟨?_, ?_, ?_, ?_⟩
      all_goals simp (disch := decide) [pwrWritten, State.selfRefresh, State.flag, hlt]

theorem standbyAllowed_dropStaged (s : State) (p : Path) (a : Nat) : standbyAllowed (s.dropStaged p a) = standbyAllowed s := rfl

theorem pwrCtrl_stays {s : State} (v : Word) {en : Bool} (he : standbyAllowed s = en)
    (hs : s.selfRefresh = false ∨ s.flag rTHM_STATUS fTHM_STATUS_STOPPED = true) {t : State} (e : (s.dropStaged .host rPWR_CTRL).wrPwrCtrl v = t) :
    t.selfRefresh = s.selfRefresh ∧ t.fld rPWR_CTRL fPWR_CTRL_SR_EN = fget v fPWR_CTRL_SR_EN ∧
          (fget v fPWR_CTRL_CNV_STBY = 0 → t.flag rPWR_CTRL fPWR_CTRL_CNV_STBY = false) ∧
          (fget v fPWR_CTRL_CNV_STBY = 1 → en = true → t.flag rPWR_CTRL fPWR_CTRL_CNV_STBY = true) ∧
          (fget v fPWR_CTRL_CNV_STBY = 1 → en = false → t.flag rPWR_CTRL fPWR_CTRL_CNV_STBY = s.flag rPWR_CTRL fPWR_CTRL_CNV_STBY) ∧
          t.fld rPWR_CTRL fPWR_CTRL_STBY_DISC =
            satN 16 (s.fld rPWR_CTRL fPWR_CTRL_STBY_DISC + if fget v fPWR_CTRL_CNV_STBY = 1 ∧ en = false then 1 else 0) ∧
          onlyIn (mRegs ||| mStaged) [rPWR_CTRL] [] s t := by
  have hx : (s.dropStaged .host rPWR_CTRL).srExit = s.dropStaged .host rPWR_CTRL := if_neg (by
    show ¬ (s.selfRefresh && !s.flag rTHM_STATUS fTHM_STATUS_STOPPED) = true
    obtain h | h := hs <;> simp [h])
  rw [wrPwrCtrl_eq, standbyAllowed_dropStaged, he, hx] at e
  have k : onlyIn (mRegs ||| mStaged ||| mGlb) [rPWR_CTRL] [] s ((s.dropStaged .host rPWR_CTRL).setFld rPWR_CTRL fPWR_CTRL_SR_EN (fget v fPWR_CTRL_SR_EN)) :=
    .setFld (.dropStaged (.refl _ _ _ _))
  have hw : fget v fPWR_CTRL_CNV_STBY < 2 := fget_lt v fPWR_CTRL_CNV_STBY
  obtain ⟨h1, h2, h3, h4⟩ := pwrWritten_fields ((s.dropStaged .host rPWR_CTRL).setFld rPWR_CTRL fPWR_CTRL_SR_EN (fget v fPWR_CTRL_SR_EN)) hw en
  rw [e] at h1 h2 h3 h4
  have a (f : Fld) (hf : f.lo + f.w ≤ 1 ∨ 2 ≤ f.lo) : ((s.dropStaged .host rPWR_CTRL).setFld rPWR_CTRL fPWR_CTRL_SR_EN (fget v fPWR_CTRL_SR_EN)).fld
      rPWR_CTRL f = s.fld rPWR_CTRL f := State.fld_setFld_apart _ _ _ _ _ _ ⟨by decide, hf⟩
  refine ⟨h1.trans ?_, h2.trans ?_, fun h => ?_, fun h hn => ?_, fun h hn => ?_, h4.trans ?_, .of_hi (e ▸ onlyIn_pwrWritten k _ _) (by decide)⟩
  · rw [State.selfRefresh, State.flag, a _ (by decide)]
    rfl
  · rw [State.fld_setFld_self _ _ _ _ (by decide), fget_mod]
  · rw [h3, if_pos h]
  · rw [h3, if_neg (by omega), if_pos hn]
  · rw [h3, if_neg (by omega), if_neg (by simp [hn]), State.flag, a _ (by decide)]
    rfl
  · rw [a _ (by decide)]

theorem pwrCtrl_leaves {s : State} (v : Word) (hs : s.selfRefresh = true) (hn : s.flag rTHM_STATUS fTHM_STATUS_STOPPED = false) {t : State}
    (e : (s.dropStaged .host rPWR_CTRL).wrPwrCtrl v = t) :
    t.selfRefresh = false ∧ t.fld rPWR_CTRL fPWR_CTRL_SR_EN = fget v fPWR_CTRL_SR_EN ∧ onlyIn (mEvent ||| mStaged) [rPWR_CTRL] [23] s t := by
  have hx : (s.dropStaged .host rPWR_CTRL).srExit = ((s.dropStaged .host rPWR_CTRL).setFld rPWR_CTRL fPWR_CTRL_SR 0).raise 23 := if_pos (by
    show (s.selfRefresh && !s.flag rTHM_STATUS fTHM_STATUS_STOPPED) = true
    simp [hs, hn])
  rw [wrPwrCtrl_eq, hx] at e
  have k0 : onlyIn (mEvent ||| mStaged) [rPWR_CTRL] [23] s (((s.dropStaged .host rPWR_CTRL).setFld rPWR_CTRL fPWR_CTRL_SR 0).raise 23) :=
    .raise (.of_hi (.setFld (.dropStaged (.refl _ _ _ _))) (by decide))
  have h0 : (((s.dropStaged .host rPWR_CTRL).setFld rPWR_CTRL fPWR_CTRL_SR 0).raise 23).fld rPWR_CTRL fPWR_CTRL_SR = 0 := by
    rw [State.fld_raise_other _ _ _ _ _ _ _ (by decide), State.fld_setFld_self _ _ _ _ (by decide)]
    rfl
  generalize ((s.dropStaged .host rPWR_CTRL).setFld rPWR_CTRL fPWR_CTRL_SR 0).raise 23 = u at *
  have k : onlyIn (mEvent ||| mStaged ||| mGlb) [rPWR_CTRL] [23] s (u.setFld rPWR_CTRL fPWR_CTRL_SR_EN (fget v fPWR_CTRL_SR_EN)) :=
    .setFld (k0.mono (by decide) (fun _ h => h) (fun _ h => h))
  obtain ⟨h1, h2, -, -⟩ := pwrWritten_fields (u.setFld rPWR_CTRL fPWR_CTRL_SR_EN (fget v fPWR_CTRL_SR_EN)) (fget_lt v fPWR_CTRL_CNV_STBY)
    (standbyAllowed (s.dropStaged .host rPWR_CTRL))
  rw [e] at h1 h2
  refine ⟨h1.trans ?_, h2.trans ?_, .of_hi (e ▸ onlyIn_pwrWritten k _ _) (by decide)⟩
  · rw [State.selfRefresh, State.flag, State.fld_setFld_apart _ _ _ _ _ _ (by decide), h0]
    rfl
  · rw [State.fld_setFld_self _ _ _ _ (by decide), fget_mod]

/-! ### Self-refresh (R556) -/

theorem selfRefreshEntry_stays {s : State} (hg : s.glb ≠ 0) (h : s.flag rPWR_CTRL fPWR_CTRL_SR_EN = false ∨ s.selfRefresh = true ∨
    s.planActive = true ∨ s.dmaActive ≠ 0 ∨ s.flag rGLB_STATUS fGLB_STATUS_STORE_READY = false) : exec .selfRefreshEntry s = .next s := by
  refine next_live hg (if_neg ?_)
  obtain h | h | h | h | h := h <;> simp [h]

theorem selfRefreshEntry_enters {s : State} (hg : s.glb ≠ 0) (h1 : s.flag rPWR_CTRL fPWR_CTRL_SR_EN = true) (h2 : s.selfRefresh = false)
    (h3 : s.planActive = false) (h4 : s.dmaActive = 0) (h5 : s.flag rGLB_STATUS fGLB_STATUS_STORE_READY = true)
    (h6 : s.flag rMEM_MAP fMEM_MAP_MAP_BUSY = false) (h7 : s.freeBillets = 1835008) (h8 : ∀ c ∈ s.ctxs, c.2.st = .closed) :
    completes .selfRefreshEntry s fun t => t.selfRefresh = true ∧ onlyIn mEvent [rPWR_CTRL] [22] s t := by
  have hc : (s.ctxs.all fun c => c.2.st == .closed) = true := List.all_eq_true.mpr fun c hc => by simp [h8 c hc]
  refine ⟨_, next_live hg (if_pos ?_), ?_, .raise (.of_hi (.setFld (.refl _ _ _ _)) (by decide))⟩
  · simp [h1, h2, h3, h4, h5, h6, h7, hc]
  · rw [State.selfRefresh, State.flag, State.fld_raise_other _ _ _ _ _ _ _ (by decide), State.fld_setFld_self _ _ _ _ (by decide)]
    rfl

/-! ### The SMBus target (R561, R562) -/

theorem smbCmd_asleep {s : State} (h : s.awake = false) (bad : Bool) (len n : Nat) (f : State → State) : s.smbCmd bad len n f = s := by
  rw [State.smbCmd, h]
  rfl

theorem smbCmd_taken {s : State} (h : s.awake = true) {bad : Bool} (hb : (bad && s.flag rMGT_SMB fMGT_SMB_PEC_EN) = false) (n : Nat) (f : State → State) :
    s.smbCmd bad n n f = f (s.updPkg fun p => { p with smbPec := false }) := by
  rw [State.smbCmd, h, hb]
  simp

theorem smbCmd_refused {s : State} (h : s.awake = true) {bad : Bool} {len n : Nat} (hb : (bad && s.flag rMGT_SMB fMGT_SMB_PEC_EN) = true ∨ len ≠ n)
    (f : State → State) {t : State} (e : s.smbCmd bad len n f = t) :
    t.fld rMGT_SMB fMGT_SMB_PEC_ERR = satN 16 (s.fld rMGT_SMB fMGT_SMB_PEC_ERR + 1) ∧
          t.pkg = { s.pkg with smbPec := s.pkg.smbPec || (bad && s.flag rMGT_SMB fMGT_SMB_PEC_EN) } ∧
          onlyIn (mEvent ||| mPkg) [rMGT_SMB] [24] s t := by
  rw [State.smbCmd, if_neg (by simp [h]), if_pos (by obtain hb | hb := hb <;> simp [hb])] at e
  subst e
  refine ⟨?_, ?_, .other (.raiseLim (.of_hi (.addSat (.refl _ _ _ _)) (by decide))) (touches_State.updPkg _ _) (by decide) (State.updPkg_regs _ _)⟩
  · rw [State.fld_congr (State.updPkg_regs _ _), State.fld_raiseLim_other _ _ _ _ _ _ _ _ _ (by decide), State.fld_addSat_self _ _ _ _ (by decide)]
  · rw [State.updPkg_pkg, (touches_State.raiseLim _ _ _ _ _ _ _).pkg (by decide), (touches_State.addSat _ _ _ _).pkg (by decide)]

theorem setOffset_exec {s : State} (h : s.awake = true) {bytes : List Byte} {bad : Bool} (hb : (bad && s.flag rMGT_SMB fMGT_SMB_PEC_EN) = false)
    (hl : bytes.length = 4) :
    (leNat bytes % 4 = 0 → leNat bytes < 2 ^ 26 →
        exec (.smbSetOffset bytes bad) s = .next (s.updPkg fun p => { p with ptr := leNat bytes, smbPec := false })) ∧
    (leNat bytes % 4 ≠ 0 ∨ 2 ^ 26 ≤ leNat bytes →
        exec (.smbSetOffset bytes bad) s = .next (s.updPkg fun p => { p with smbPec := false })) := by
  have e (f : State → State) : s.smbCmd bad bytes.length 4 f = f (s.updPkg fun p => { p with smbPec := false }) := by
    rw [hl]
    exact smbCmd_taken h hb 4 f
  refine ⟨fun h4 h26 => congrArg Host.Outcome.next ((e _).trans ?_), fun hn => congrArg Host.Outcome.next ((e _).trans ?_)⟩
  · exact if_pos (by simp [h4]; omega)
  · exact if_neg (by simp; omega)

/-- A 32-bit access of the target at its pointer: the word it lies in, the half of it, and the pointer's next place. -/
theorem smb_place (n : Fin (2 ^ 23)) : (8 * n.val - 8 * n.val % 8 = 8 * n.val ∧ (8 * n.val % 8 == 4) = false ∧ (8 * n.val + 4) % 2 ^ 26 = 8 * n.val + 4) ∧
    (8 * n.val + 4 - (8 * n.val + 4) % 8 = 8 * n.val ∧ ((8 * n.val + 4) % 8 == 4) = true ∧ (8 * n.val + 4 + 4) % 2 ^ 26 = (8 * n.val + 8) % 2 ^ 26) := by
  have := n.isLt
  refine ⟨⟨by omega, ?_, by omega⟩, by omega, ?_, rfl⟩
  · rw [beq_eq_false_iff_ne]
    omega
  · rw [beq_iff_eq]
    omega

theorem smbWrite_exec {s : State} (h : s.awake = true) {bytes : List Byte} {bad : Bool} (hb : (bad && s.flag rMGT_SMB fMGT_SMB_PEC_EN) = false)
    (hl : bytes.length = 4) (env : Env) : exec (.smbWrite bytes bad env) s =
      .next (((s.updPkg fun p => { p with smbPec := false }).halfWrite .smbus .bar0 (s.pkg.ptr - s.pkg.ptr % 8) (s.pkg.ptr % 8 == 4)
        (BitVec.ofNat 32 (leNat bytes)) env).updPkg fun p =>
          { p with ptr := (s.pkg.ptr + 4) % 2 ^ 26, smbDisc := s.smbBlocked .smbus (s.pkg.ptr - s.pkg.ptr % 8) }) := by
  refine congrArg Host.Outcome.next ?_
  rw [hl]
  exact smbCmd_taken h hb 4 _

theorem smbRead_exec {s : State} (h : s.awake = true) : exec .smbRead s =
      .next ((((s.updPkg fun p => { p with smbPec := false }).halfRead .smbus .bar0 (s.pkg.ptr - s.pkg.ptr % 8) (s.pkg.ptr % 8 == 4)).updPkg fun p =>
          { p with ptr := (s.pkg.ptr + 4) % 2 ^ 26 }).send
        (.smb (((s.updPkg fun p => { p with smbPec := false }).halfRead .smbus .bar0 (s.pkg.ptr - s.pkg.ptr % 8) (s.pkg.ptr % 8 == 4)).readData.toNat
          % 2 ^ 32))) :=
  congrArg Host.Outcome.next (smbCmd_taken h rfl 4 _)

/-- The target while the device can be reached. -/
theorem smb_awake (bytes : List Byte) (bad : Bool) (env : Env) {s : State} (h : s.awake = true) :
    ((bad && s.flag rMGT_SMB fMGT_SMB_PEC_EN) = true ∨ bytes.length ≠ 4 →
      ∀ i ∈ [Instr.smbSetOffset bytes bad, .smbWrite bytes bad env],
        completes i s fun t => t.fld rMGT_SMB fMGT_SMB_PEC_ERR = satN 16 (s.fld rMGT_SMB fMGT_SMB_PEC_ERR + 1) ∧
          t.pkg = { s.pkg with smbPec := s.pkg.smbPec || (bad && s.flag rMGT_SMB fMGT_SMB_PEC_EN) } ∧
          onlyIn (mEvent ||| mPkg) [rMGT_SMB] [24] s t) ∧
    ((bad && s.flag rMGT_SMB fMGT_SMB_PEC_EN) = false → bytes.length = 4 → ∀ n : Fin (2 ^ 23),
        (s.pkg.ptr = 8 * n → ∃ u, exec (.lowHalfWrite .smbus .bar0 n (BitVec.ofNat 32 (leNat bytes)) env)
            (s.updPkg fun p => { p with smbPec := false }) = .next u ∧
          exec (.smbWrite bytes bad env) s =
            .next (u.updPkg fun p => { p with ptr := 8 * n + 4, smbDisc := s.smbBlocked .smbus (8 * n) })) ∧
        (s.pkg.ptr = 8 * n + 4 → ∃ u, exec (.highHalfWrite .smbus .bar0 n (BitVec.ofNat 32 (leNat bytes)) env)
            (s.updPkg fun p => { p with smbPec := false }) = .next u ∧
          exec (.smbWrite bytes bad env) s =
            .next (u.updPkg fun p => { p with ptr := (8 * n + 8) % 2 ^ 26, smbDisc := s.smbBlocked .smbus (8 * n) }))) ∧
    (∀ n : Fin (2 ^ 23),
      (s.pkg.ptr = 8 * n → ∃ u, exec (.lowHalfRead .smbus .bar0 n) (s.updPkg fun p => { p with smbPec := false }) = .next u ∧
        exec .smbRead s = .next ((u.updPkg fun p => { p with ptr := 8 * n + 4 }).send (.smb (u.readData.toNat % 2 ^ 32)))) ∧
      (s.pkg.ptr = 8 * n + 4 → ∃ u, exec (.highHalfRead .smbus .bar0 n) (s.updPkg fun p => { p with smbPec := false }) = .next u ∧
        exec .smbRead s = .next ((u.updPkg fun p => { p with ptr := (8 * n + 8) % 2 ^ 26 }).send (.smb (u.readData.toNat % 2 ^ 32))))) := by
  refine ⟨fun hb i hi => ?_, fun hb hl n => ⟨fun hp => ?_, fun hp => ?_⟩, fun n => ⟨fun hp => ?_, fun hp => ?_⟩⟩
  · simp only [List.mem_cons, List.not_mem_nil, or_false] at hi
    obtain rfl | rfl := hi
    · exact ⟨_, rfl, smbCmd_refused h hb _ rfl⟩
    · exact ⟨_, rfl, smbCmd_refused h hb _ rfl⟩
  · obtain ⟨⟨e1, e2, e3⟩, -⟩ := smb_place n
    refine ⟨_, rfl, ?_⟩
    rw [smbWrite_exec h hb hl env, hp, e1, e2, e3]
  · obtain ⟨-, e1, e2, e3⟩ := smb_place n
    refine ⟨_, rfl, ?_⟩
    rw [smbWrite_exec h hb hl env, hp, e1, e2, e3]
  · obtain ⟨⟨e1, e2, e3⟩, -⟩ := smb_place n
    refine ⟨_, rfl, ?_⟩
    rw [smbRead_exec h, hp, e1, e2, e3]
  · obtain ⟨-, e1, e2, e3⟩ := smb_place n
    refine ⟨_, rfl, ?_⟩
    rw [smbRead_exec h, hp, e1, e2, e3]

theorem mgtSmbLock_exec {s : State} (h : s.windowOpen rMGT_SMB = true) (v : Word) :
    completes (.mgtSmbLock v) s fun t => t.flag rMGT_SMB fMGT_SMB_LOCK = true ∧
      t.fld rMGT_SMB fMGT_SMB_PEC_EN = fget v fMGT_SMB_PEC_EN ∧ onlyIn (mRegs ||| mStaged) [rMGT_SMB] [] s t := by
  have e : exec (.mgtSmbLock v) s = .next ((s.dropStaged .host rMGT_SMB).wrCodes rMGT_SMB (fset v fMGT_SMB_LOCK 1) []) :=
    next_hostWr_open h rfl (if_neg (by decide))
  refine ⟨_, e, ?_, ?_, .of_hi (.wrCodes (.dropStaged (.refl _ _ _ _))) (by decide)⟩
  · rw [State.flag, State.fld_wrCodes_w1s _ (by decide) _ _ (fget_fset_self _ _ _ (by decide))]
    rfl
  · exact (State.fld_wrCodes_rw _ (by decide) _ _).trans (fget_fset_apart _ _ _ _ (by decide))

/-! ### The test access port (R563) -/

theorem tapCells_full {bits : List Bool} (h : bits.length = 1042) : (bits ++ List.replicate 1042 false).take 1042 = bits := by
  rw [← h, List.take_left]

theorem jtag_execs (bits : List Bool) (s : State) :
    exec .idcode s = .next ((s.updPkg fun p => { p with ir := 1 }).send (.tdo s.idBits)) ∧
    exec .tapReset s = .next (s.updPkg fun p => { p with ir := 1 }) ∧
    exec .bypass s = .next (s.updPkg fun p => { p with ir := 0xFF }) ∧
    (bits.length = 1042 →
      exec (.samplePreload false bits) s = .next (s.updPkg fun p => { p with ir := 2, cells := bits }) ∧
      exec (.samplePreload true bits) s = .next ((s.updPkg fun p => { p with ir := 2, cells := bits }).send (.tdo bits))) ∧
    (∀ e ∈ [(Instr.extest, 3), (.clamp, 4), (.extestPulse, 6), (.extestTrain, 7)],
      exec e.1 s = .next ((s.updPkg fun p => { p with ir := e.2, taken := true }).send (.balls s.pkg.cells))) ∧
    exec .highz s = .next ((s.updPkg fun p => { p with ir := 5, taken := true }).send .float) := by
  refine ⟨rfl, rfl, rfl, fun h => ?_, fun e he => ?_, rfl⟩
  · have e : (s.tapIr 2).tapCells bits = s.updPkg fun p => { p with ir := 2, cells := bits } := by
      rw [State.tapCells, tapCells_full h]
      rfl
    constructor
    · exact congrArg Host.Outcome.next e
    · refine congrArg Host.Outcome.next ?_
      dsimp only
      rw [e]
      rfl
  · simp only [List.mem_cons, List.not_mem_nil, or_false] at he
    obtain rfl | rfl | rfl | rfl := he
    · rfl
    · rfl
    · rfl
    · rfl

/-- Settles O60, a clause per command of the package, the SMBus target and the test access port. -/
theorem packageCommands : Obligations.PackageCommands := by
  refine ⟨fun r mv s hg => ?rails, fun r s => ⟨fun hr => ?held, fun w hr h1 h2 hg => railRecovered_ends r s w hr h1 h2 hg,
      fun w hr hp => railRecovered_held r s w hr hp⟩,
    fun temps rails s hg ht hr hx => ⟨fun hc => thmUpdate_cool hg ht hr hx hc, fun k hk hs hc => thmUpdate_stops hg ht hr hx hk hs hc⟩,
    fun v en s h he i hi => ?power,
    fun s hg => ⟨fun h => selfRefreshEntry_stays hg h, fun h1 h2 h3 h4 h5 h6 h7 h8 => selfRefreshEntry_enters hg h1 h2 h3 h4 h5 h6 h7 h8⟩,
    fun bytes bad env s h => ?asleep, fun bytes bad env s h => ?awake, fun v s h => mgtSmbLock_exec h v, jtag_execs⟩
  case rails =>
    intro e he
    simp only [List.mem_cons, List.not_mem_nil, or_false] at he
    obtain rfl | rfl := he
    · exact rail_clause (.inl rfl) (show 16 < 1024 by decide) (exec_railLow r mv hg)
    · exact rail_clause (.inr rfl) (show 17 < 1024 by decide) (exec_railHigh r mv hg)
  case held =>
    constructor
    · exact congrArg Host.Outcome.next (if_neg (by simp [hr]))
    · refine congrArg Host.Outcome.next (if_neg ?_)
      rw [if_pos rfl, (touches_State.setFlds _ _ _).pkg (by decide), hr]
      decide
  case power =>
    rw [completes, completes]
    have e := next_pwrCtrl h v i hi
    exact ⟨fun hs => ⟨_, e, pwrCtrl_stays v he hs rfl⟩, fun hs hn => ⟨_, e, pwrCtrl_leaves v hs hn rfl⟩⟩
  case asleep =>
    intro i hi
    simp only [List.mem_cons, List.not_mem_nil, or_false] at hi
    obtain rfl | rfl | rfl | rfl := hi
    · exact congrArg Host.Outcome.next (smbCmd_asleep h _ _ _ _)
    · exact congrArg Host.Outcome.next (smbCmd_asleep h _ _ _ _)
    · exact congrArg Host.Outcome.next (smbCmd_asleep h _ _ _ _)
    · exact congrArg Host.Outcome.next (if_neg (by simp [h]))
  case awake =>
    obtain ⟨refused, write, read⟩ := smb_awake bytes bad env h
    refine ⟨refused, fun hb hl => ?_, read, congrArg Host.Outcome.next (if_pos h)⟩
    obtain ⟨taken, kept⟩ := setOffset_exec h hb hl
    exact ⟨taken, kept, write hb hl⟩

end Sys2Proof

end

section
/-! SUPPORT. Device reset, the pins, and the steps of boot (R509 to R511, R545, R547). -/

set_option Elab.async false

namespace Sys2Proof

open Sys2Proof.Machine

/-! ### Device reset -/

/-- The registers that show fuses, keys and how secure the device is. -/
abbrev fusedRegs : List Nat := [rGLB_STATUS, rSEC_STATUS, rSEC_SVN] ++ (upTo 6).map rSEC_PLANKEY_HASH

theorem onlyIn_deviceReset (s : State) : onlyIn (mRegs ||| mGlb) fusedRegs [] s.resetCore s.deviceReset := by
  unfold State.deviceReset State.fuseRegs
  refine .setFld (.setFld (.overList (.setFlds (.setFlds (.refl _ _ _ _))) fun t k hk => .wr (.refl _ _ _ _) (ha := ?_)))
  exact List.mem_append_right _ (List.mem_map_of_mem hk)

theorem deviceReset_glb (s : State) : s.deviceReset.glb = 0 ∧ s.deviceReset.flag rGLB_STATUS fGLB_STATUS_SECURE = s.stk.armed := by
  have kf : onlyIn (mRegs ||| mGlb) ([rSEC_STATUS, rSEC_SVN] ++ (upTo 6).map rSEC_PLANKEY_HASH) [] s.resetCore s.resetCore.fuseRegs := by
    unfold State.fuseRegs
    refine .overList (.setFlds (.setFlds (.refl _ _ _ _))) fun t k hk => .wr (.refl _ _ _ _) (ha := ?_)
    exact List.mem_append_right _ (List.mem_map_of_mem hk)
  have h0 : s.resetCore.fuseRegs.fld rGLB_STATUS fGLB_STATUS_STATE = 0 := by
    refine (fld_of_rd (kf.2 rGLB_STATUS (by decide) (by simp))).trans ?_
    exact (State.fld_congr (s := State.reset) (t := s.resetCore) rfl _ _).trans (by decide +kernel)
  unfold State.deviceReset
  constructor
  · rw [State.glb, State.fld_setFld_apart _ _ _ _ _ _ (by decide), State.fld_setFld_other _ _ _ _ (by decide), h0]
  · rw [State.flag, State.fld_setFld_self _ _ _ _ (by decide)]
    cases s.stk.armed <;> rfl

/-- A pin holds the device in reset. -/
def pinHeld (p : ResetPin) (k : Pkg) : Pkg :=
  match p with
  | .porst => { k with porst := true }
  | .perst => { k with perst := true }
  | .rail => { k with rail := true }

theorem resetAssert_eq (p : ResetPin) (s : State) : s.resetAssert p = s.deviceReset.updPkg (pinHeld p) := by
  cases p
  · rfl
  · rfl
  · rfl

theorem pinHeld_pins (p : ResetPin) (k : Pkg) : (pinHeld p k).porst = (k.porst || p == .porst) ∧ (pinHeld p k).perst = (k.perst || p == .perst) ∧
    (pinHeld p k).rail = (k.rail || p == .rail) := by
  cases p
  · exact ⟨(Bool.or_true _).symm, (Bool.or_false _).symm, (Bool.or_false _).symm⟩
  · exact ⟨(Bool.or_false _).symm, (Bool.or_true _).symm, (Bool.or_false _).symm⟩
  · exact ⟨(Bool.or_false _).symm, (Bool.or_false _).symm, (Bool.or_true _).symm⟩

/-- What a device reset keeps, and what it empties. -/
theorem resetCore_parts (s : State) : s.resetCore.store = [] ∧ s.resetCore.ctxs = [] ∧ s.resetCore.billets = [] ∧ s.resetCore.time = 0 ∧
    s.resetCore.stk = { State.reset.stk with key := s.stk.key, keyHash := s.stk.keyHash, armed := s.stk.armed, kFloor := s.stk.kFloor, pFloor := s.stk.pFloor } ∧
    s.resetCore.hostMem = s.hostMem ∧ s.resetCore.flash = s.flash ∧ s.resetCore.pending = s.pending ∧ s.resetCore.outs = s.outs ∧
    s.resetCore.regs = State.reset.regs ∧ s.resetCore.pkg.porst = s.pkg.porst ∧ s.resetCore.pkg.perst = s.pkg.perst ∧
    s.resetCore.pkg.rail = s.pkg.rail := ⟨rfl, rfl, rfl, rfl, rfl, rfl, rfl, rfl, rfl, rfl, rfl, rfl, rfl⟩

theorem reset_asserted (p : ResetPin) (s : State) :
    completes (.porstAssert p) s fun t => t.glb = 0 ∧ t.store = [] ∧ t.ctxs = [] ∧ t.billets = [] ∧ t.time = 0 ∧ t.stk.queue = [] ∧
      t.hostMem = s.hostMem ∧ t.flash = s.flash ∧ t.pending = s.pending ∧ t.outs = s.outs ∧ t.stk.key = s.stk.key ∧
      t.stk.keyHash = s.stk.keyHash ∧ t.stk.armed = s.stk.armed ∧ t.stk.kFloor = s.stk.kFloor ∧ t.stk.pFloor = s.stk.pFloor ∧
      t.flag rGLB_STATUS fGLB_STATUS_SECURE = s.stk.armed ∧
      t.pkg.porst = (s.pkg.porst || p == .porst) ∧ t.pkg.perst = (s.pkg.perst || p == .perst) ∧ t.pkg.rail = (s.pkg.rail || p == .rail) ∧
      (∀ a, a ∉ fusedRegs → t.rd a = State.reset.rd a) := by
  have e : exec (.porstAssert p) s = .next (s.deviceReset.updPkg (pinHeld p)) := congrArg Host.Outcome.next (resetAssert_eq p s)
  obtain ⟨hg, hsec⟩ := deviceReset_glb s
  obtain ⟨k, kr⟩ := onlyIn_deviceReset s
  obtain ⟨c1, c2, c3, c4, c5, c6, c7, c8, c9, c10, p1, p2, p3⟩ := resetCore_parts s
  refine ⟨_, e, ?_⟩
  have ku := touches_State.updPkg s.deviceReset (pinHeld p)
  have hu := State.updPkg_pkg s.deviceReset (pinHeld p)
  have hf := State.updPkg_regs s.deviceReset (pinHeld p)
  generalize s.deviceReset.updPkg (pinHeld p) = t at *
  have hp : t.pkg = pinHeld p s.resetCore.pkg := by rw [hu, k.pkg (by decide)]
  have hstk : t.stk = s.resetCore.stk := (ku.stk (by decide)).trans (k.stk (by decide))
  obtain ⟨q1, q2, q3⟩ := pinHeld_pins p s.resetCore.pkg
  refine ⟨ku.glbState.trans hg, ?_, ?_, ?_, ?_, ?_, ?_, ?_, ?_, ?_, ?_, ?_, ?_, ?_, ?_, ?_, ?_, ?_, ?_, fun a ha => ?_⟩
  · rw [ku.store (by decide), k.store (by decide), c1]
  · rw [ku.ctxs (by decide), k.ctxs (by decide), c2]
  · rw [ku.billets (by decide), k.billets (by decide), c3]
  · rw [ku.time (by decide), k.time (by decide), c4]
  · rw [hstk, c5]
    rfl
  · rw [ku.hostMem (by decide), k.hostMem (by decide), c6]
  · rw [ku.flash (by decide), k.flash (by decide), c7]
  · rw [ku.pending (by decide), k.pending (by decide), c8]
  · rw [ku.outs (by decide), k.outs (by decide), c9]
  · rw [hstk, c5]
  · rw [hstk, c5]
  · rw [hstk, c5]
  · rw [hstk, c5]
  · rw [hstk, c5]
  · rw [flag_of_rd (State.rd_congr hf _), hsec]
  · rw [hp, q1, p1]
  · rw [hp, q2, p2]
  · rw [hp, q3, p3]
  · rw [State.rd_congr hf, kr a ha (by simp), State.rd_congr c10]

/-! ### The pins' release -/

theorem bootBegin_held {s : State} (h : s.pkg.porst = true ∨ s.pkg.perst = true ∨ s.pkg.rail = true ∨ s.glb ≠ 0) : s.bootBegin = s :=
  if_pos (by obtain h | h | h | h := h <;> simp [h])

theorem bootBegin_begins {s : State} (h1 : s.pkg.porst = false) (h2 : s.pkg.perst = false) (h3 : s.pkg.rail = false) (hg : s.glb = 0)
    {t : State} (e : s.bootBegin = t) : t.glb = 1 ∧ t.fld rSEC_STATUS fSEC_STATUS_BOOTSEL = s.pkg.bootsel % 4 ∧
      t.fld rMGT_SMB fMGT_SMB_ADDR = (0x58 + s.pkg.smbAddr) % 128 ∧ t.stk = { s.stk with step := 1 } ∧ t.pkg = s.pkg ∧
      onlyIn (mRegs ||| mStk ||| mGlb) [rGLB_STATUS, rSEC_STATUS, rMGT_SMB] [] s t := by
  unfold State.bootBegin at e
  rw [if_neg (by simp [h1, h2, h3, hg])] at e
  subst e
  refine ⟨?_, ?_, ?_, ?_, ?_, .other (.setFld (.setFld (.setFld (.refl _ _ _ _)))) (touches_State.bootTo _ _) (by decide)
    ((touches_State.bootTo _ _).regs (by decide))⟩
  · rw [(touches_State.bootTo _ _).glbState, State.glb]
    simp (disch := decide)
  · rw [State.fld_congr ((touches_State.bootTo _ _).regs (by decide))]
    simp (disch := decide)
  · rw [State.fld_congr ((touches_State.bootTo _ _).regs (by decide))]
    simp (disch := decide)
  · rw [State.bootTo, State.updStk_stk, (touches_State.setFld _ _ _ _).stk (by decide), (touches_State.setFld _ _ _ _).stk (by decide),
      (touches_State.setFld _ _ _ _).stk (by decide)]
  · rw [(touches_State.bootTo _ _).pkg (by decide), (touches_State.setFld _ _ _ _).pkg (by decide), (touches_State.setFld _ _ _ _).pkg (by decide),
      (touches_State.setFld _ _ _ _).pkg (by decide)]

theorem porst_released (b : Fin 4) (m : Fin 8) {s : State} (h1 : s.pkg.perst = false) (h2 : s.pkg.rail = false) (hg : s.glb = 0) :
    completes (.porstRelease .porst b m) s fun t => t.glb = 1 ∧ t.fld rSEC_STATUS fSEC_STATUS_BOOTSEL = b ∧
        t.fld rMGT_SMB fMGT_SMB_ADDR = 0x58 + m ∧ t.stk = { s.stk with step := 1 } ∧
        t.pkg = { s.pkg with porst := false, bootsel := b, smbAddr := m } ∧
        onlyIn (mRegs ||| mStk ||| mPkg ||| mGlb) [rGLB_STATUS, rSEC_STATUS, rMGT_SMB] [] s t := by
  have ku := touches_State.updPkg s fun k => { k with porst := false, bootsel := b.val % 4, smbAddr := m.val % 8 }
  have hu := State.updPkg_pkg s fun k => { k with porst := false, bootsel := b.val % 4, smbAddr := m.val % 8 }
  have hr := State.updPkg_regs s fun k => { k with porst := false, bootsel := b.val % 4, smbAddr := m.val % 8 }
  have e : exec (.porstRelease .porst b m) s = .next (s.updPkg fun k => { k with porst := false, bootsel := b.val % 4, smbAddr := m.val % 8 }).bootBegin := rfl
  refine ⟨_, e, ?_⟩
  generalize (s.updPkg fun k => { k with porst := false, bootsel := b.val % 4, smbAddr := m.val % 8 }) = u at *
  have hb := b.isLt
  have hm := m.isLt
  obtain ⟨g1, g2, g3, g4, g5, g6⟩ := bootBegin_begins (s := u) (by rw [hu]) (by rw [hu]; exact h1) (by rw [hu]; exact h2) (ku.glbState.trans hg) rfl
  refine ⟨g1, ?_, ?_, ?_, ?_, ?_⟩
  · rw [g2, hu]
    show b.val % 4 % 4 = b
    omega
  · rw [g3, hu]
    show (0x58 + m.val % 8) % 128 = 0x58 + m
    omega
  · rw [g4, ku.stk (by decide)]
  · rw [g5, hu, Nat.mod_eq_of_lt hb, Nat.mod_eq_of_lt hm]
  · exact .trans (.other (.refl _ _ _ _) ku (by decide) hr) (g6.mono (by decide) (fun _ h => h) (fun _ h => h))

end Sys2Proof

end

section
/-! SUPPORT. The steps of boot up to the training of the memory (R511, R45, R388). -/

set_option Elab.async false

namespace Sys2Proof

open Sys2Proof.Machine

/-- The time of boot, noted at the end of a step. -/
def bootTimed (s : State) (n : Nat) : State := s.updStk fun k => { k with ms := n }

theorem touches_bootTimed (s : State) (n : Nat) : Touches mStk s (bootTimed s n) :=
  touches_State.updStk _ _ (FusesOnlyBurn.of_eq rfl rfl rfl rfl rfl)

theorem bootTimed_rd (s : State) (n a : Nat) : (bootTimed s n).rd a = s.rd a := State.rd_congr (State.updStk_regs _ _) a

theorem bootTimed_slotCode (s : State) (n kind : Nat) (b ok : Bool) : (bootTimed s n).slotCode kind b ok = s.slotCode kind b ok := rfl

theorem bootTimed_slotHdr (s : State) (n kind : Nat) (b : Bool) : (bootTimed s n).slotHdr kind b = s.slotHdr kind b := rfl

theorem bootTimed_slotOrder (s : State) (n kind : Nat) : (bootTimed s n).slotOrder kind = s.slotOrder kind := rfl

theorem onlyIn_bootTimed {m : Nat} {l srcs : List Nat} (s : State) (n : Nat) (hm : mStk &&& m = mStk := by decide) : onlyIn m l srcs s (bootTimed s n) :=
  .other (.refl _ _ _ _) (touches_bootTimed s n) hm (State.updStk_regs _ _)

/-! ### How a step ends -/

theorem onlyIn_bootTo {m : Nat} {l srcs : List Nat} {s t : State} (h : onlyIn m l srcs s t) (n : Nat) (hm : mStk &&& m = mStk := by decide) :
    onlyIn m l srcs s (t.bootTo n) := .other h (touches_State.bootTo _ _) hm (State.updStk_regs _ _)

theorem bootTo_step (s : State) (n : Nat) : (s.bootTo n).stk.step = n := congrArg Stk.step (State.updStk_stk _ _)

theorem bootTo_rd (s : State) (n a : Nat) : (s.bootTo n).rd a = s.rd a := State.rd_congr (State.updStk_regs _ _) a

theorem bootStop_ends (s : State) {cause : Nat} (hc : cause < 8) : (s.bootStop cause).stk.step = 0 ∧ (s.bootStop cause).glb = 5 ∧
    (s.bootStop cause).fld rGLB_STATUS fGLB_STATUS_HALT_CAUSE = cause ∧ ∀ a, a ≠ rGLB_STATUS → (s.bootStop cause).rd a = s.rd a := by
  unfold State.bootStop State.haltWith
  refine ⟨?_, ?_, ?_, fun a ha => ?_⟩
  · rw [(touches_State.setFlds _ _ _).stk (by decide), bootTo_step]
  · rw [State.glb]
    simp (disch := decide)
  · simp (disch := decide)
    omega
  · rw [State.rd_setFlds_other _ _ ha, bootTo_rd]

theorem onlyIn_bootStop {m : Nat} {l srcs : List Nat} {s t : State} (h : onlyIn m l srcs s t) (cause : Nat) (hl : rGLB_STATUS ∈ l := by simp)
    (hm : (mRegs ||| mGlb) &&& m = mRegs ||| mGlb := by decide) (hk : mStk &&& m = mStk := by decide) : onlyIn m l srcs s (t.bootStop cause) :=
  .setFlds (onlyIn_bootTo h 0 hk) (ha := hl) (hm := hm)

/-! ### Step 1 -/

theorem bootRef_cool {s : State} (e : BootEnd) (hc : ∀ k < 8, s.fldS (rTHM_TEMP k) fTHM_TEMP_TEMP < s.fld rTHM_LIMIT fTHM_LIMIT_CRIT) {t : State}
    (eq : s.bootRef e = t) : t.stk.step = 2 ∧ t.glb = s.glb ∧ t.fld rCLK_REF fCLK_REF_FREQ = e.freq ∧
        t.flag rCLK_REF fCLK_REF_DETECT_ERR = !e.match_ ∧ t.flag rCLK_STATUS fCLK_STATUS_REF_OK = e.match_ ∧
        onlyIn (mRegs ||| mStk) [rCLK_REF, rCLK_STATUS] [] s t := by
  unfold State.bootRef at eq
  rw [if_neg (by
    rw [List.any_eq_true]
    rintro ⟨k, hk, h⟩
    have := hc k (List.mem_range.mp hk)
    simp only [decide_eq_true_eq] at h
    omega)] at eq
  subst eq
  have hf := e.freq.isLt
  have k : onlyIn (mRegs ||| mStk) [rCLK_REF, rCLK_STATUS] [] s (((s.setFlds rCLK_REF [(fCLK_REF_FREQ, e.freq.val), (fCLK_REF_DETECT_ERR, b2n !e.match_)]).setFld
      rCLK_STATUS fCLK_STATUS_REF_OK (b2n e.match_)).bootTo 2) := .of_hi (onlyIn_bootTo (.setFld (.setFlds (.refl _ _ _ _))) 2) (by decide)
  refine ⟨bootTo_step _ _, k.1.glbState, ?_, ?_, ?_, k⟩
  · rw [fld_of_rd (bootTo_rd _ _ _)]
    simp (disch := decide)
    omega
  · rw [flag_of_rd (bootTo_rd _ _ _), State.flag]
    simp (disch := decide)
    cases e.match_ <;> rfl
  · rw [flag_of_rd (bootTo_rd _ _ _), State.flag]
    simp (disch := decide)
    cases e.match_ <;> rfl

theorem bootRef_hot {s : State} (e : BootEnd) {k : Fin 8} (hc : (s.fld rTHM_LIMIT fTHM_LIMIT_CRIT : Int) ≤ s.fldS (rTHM_TEMP k) fTHM_TEMP_TEMP)
    {t : State} (eq : s.bootRef e = t) : t.stk.step = 0 ∧ t.glb = 5 ∧ t.fld rGLB_STATUS fGLB_STATUS_HALT_CAUSE = 3 ∧
        t.flag rTHM_STATUS fTHM_STATUS_STOPPED = true := by
  unfold State.bootRef at eq
  have hot : ((upTo 8).any fun k => decide ((s.fld rTHM_LIMIT fTHM_LIMIT_CRIT : Int) ≤ s.fldS (rTHM_TEMP k) fTHM_TEMP_TEMP)) = true :=
    List.any_eq_true.mpr ⟨k.val, List.mem_range.mpr k.isLt, decide_eq_true hc⟩
  rw [if_pos hot] at eq
  subst eq
  obtain ⟨h1, h2, h3, h4⟩ := bootStop_ends ((((s.setFlds rCLK_REF [(fCLK_REF_FREQ, e.freq.val), (fCLK_REF_DETECT_ERR, b2n !e.match_)]).setFld
      rCLK_STATUS fCLK_STATUS_REF_OK (b2n e.match_)).setFld rTHM_STATUS fTHM_STATUS_STOPPED 1).thmPin) (cause := 3) (by decide)
  refine ⟨h1, h2, h3, ?_⟩
  rw [flag_of_rd (h4 _ (by decide)), flag_thmPin_stopped, State.flag, State.fld_setFld_self _ _ _ _ (by decide)]
  rfl

/-! ### Step 2 -/

theorem trySlots_none {s : State} {kind : Nat} {rd : Bool → Bool} (h : ∀ b, s.slotCode kind b (rd b) ≠ 0) (l : List Bool) (code : Nat) :
    (s.trySlots kind rd l code).1 = none := by
  induction l generalizing code with
  | nil => rfl
  | cons b l ih =>
    unfold State.trySlots
    split
    · next e => exact absurd e (h b)
    · exact ih _

theorem trySlots_first {s : State} {kind : Nat} {rd : Bool → Bool} {l : List Bool} {b : Bool} (hl : l.head? = some b)
    (h : s.slotCode kind b (rd b) = 0) (code : Nat) : s.trySlots kind rd l code = (some b, code) := by
  obtain ⟨l, rfl⟩ : ∃ l', l = b :: l' := by
    cases l with
    | nil => cases hl
    | cons a l => exact ⟨l, by rw [Option.some.inj hl]⟩
  unfold State.trySlots
  simp only [h]

theorem bootKindling_none {s : State} (e : BootEnd) (h : ∀ b, s.slotCode 0 b (if b then e.readB else e.readA) ≠ 0) {t : State}
    (eq : s.bootKindling e = t) : t.stk.step = 0 ∧ t.glb = 5 ∧ t.fld rGLB_STATUS fGLB_STATUS_HALT_CAUSE = 1 ∧
        onlyIn (mRegs ||| mStk ||| mGlb) [rSEC_STATUS, rGLB_STATUS] [] s t := by
  obtain ⟨code, hc⟩ : ∃ code, s.trySlots 0 (fun b => if b then e.readB else e.readA) (s.slotOrder 0) 0 = (none, code) :=
    ⟨_, Prod.ext (trySlots_none h _ _) rfl⟩
  unfold State.bootKindling at eq
  simp only [hc] at eq
  subst eq
  obtain ⟨h1, h2, h3, -⟩ := bootStop_ends (s.setFld rSEC_STATUS fSEC_STATUS_KIND_REASON code) (cause := 1) (by decide)
  exact ⟨h1, h2, h3, onlyIn_bootStop (.setFld (.refl _ _ _ _)) 1⟩

theorem bootKindling_first {s : State} (e : BootEnd) {b : Bool} (hb : s.fld rSEC_STATUS fSEC_STATUS_BOOTSEL ≠ 3) (ho : (s.slotOrder 0).head? = some b)
    (h : s.slotCode 0 b (if b then e.readB else e.readA) = 0) {t : State} (eq : s.bootKindling e = t) :
    t.stk.step = 3 ∧ t.glb = s.glb ∧ t.flag rSEC_STATUS fSEC_STATUS_KSLOT = b ∧
        t.fld rSEC_SVN fSEC_SVN_K_SVN = hdrAt (s.slotHdr 0 b) 16 4 % 2 ^ 16 ∧ t.fld rSTK_STATUS fSTK_STATUS_STATE = 1 ∧
        t.fld rCLK_STATUS fCLK_STATUS_MPLL_STATE = 1 ∧
        SMap.get 0 t.stk.meas 2 = Config.sha384 (s.flash.read 0xFF (slotAt 0 b) (hdrAt (s.slotHdr 0 b) 8 4)) ∧
        onlyIn (mRegs ||| mStk) [rSEC_STATUS, rSEC_SVN, rSEC_REV, rSTK_STATUS, rCLK_STATUS] [] s t := by
  unfold State.bootKindling at eq
  simp only [trySlots_first (rd := fun b => if b then e.readB else e.readA) ho h, if_neg hb, if_pos ho] at eq
  subst eq
  have k : onlyIn (mRegs ||| mStk) [rSEC_STATUS, rSEC_SVN, rSEC_REV, rSTK_STATUS, rCLK_STATUS] [] s (((((((s.setFld rSEC_STATUS
      fSEC_STATUS_KIND_REASON 0).setFld rSEC_STATUS fSEC_STATUS_KSLOT (b2n b)).setFld rSEC_SVN fSEC_SVN_K_SVN (hdrAt (s.slotHdr 0 b) 16 4)).setFld
      rSEC_REV fSEC_REV_K_REV (hdrAt (s.slotHdr 0 b) 20 4)).setFld rSTK_STATUS fSTK_STATUS_STATE 1).onStk fun z =>
        { z with meas := SMap.set 0 z.meas 2 (Config.sha384 (s.flash.read 0xFF (slotAt 0 b) (hdrAt (s.slotHdr 0 b) 8 4))) }).setFld
      rCLK_STATUS fCLK_STATUS_MPLL_STATE 1 |>.bootTo 3) :=
    .of_hi (onlyIn_bootTo (.setFld (.other (.setFld (.setFld (.setFld (.setFld (.setFld (.refl _ _ _ _))))))
      (touches_State.onStk _ _ (FusesOnlyBurn.of_eq rfl rfl rfl rfl rfl)) (by decide) (State.onStk_regs _ _))) 3) (by decide)
  refine ⟨bootTo_step _ _, k.1.glbState, ?_, ?_, ?_, ?_, ?_, k⟩
  · rw [flag_of_rd (bootTo_rd _ _ _), State.flag]
    simp (disch := decide)
    cases b <;> rfl
  · rw [fld_of_rd (bootTo_rd _ _ _)]
    simp (disch := decide)
  · rw [fld_of_rd (bootTo_rd _ _ _)]
    simp (disch := decide)
  · rw [fld_of_rd (bootTo_rd _ _ _)]
    simp (disch := decide)
  · rw [State.bootTo, State.updStk_stk, (touches_State.setFld _ _ _ _).stk (by decide)]
    exact SMap.get_set_same ..

/-! ### Step 3 -/

/-- The multiplier of the MPLL that gives 20 GHz with each reference (R45). -/
def bootMult (freq : Nat) : Nat :=
  match freq with
  | 0 => 2000
  | 1 => 200
  | _ => 128

theorem bootMult_lt (freq : Nat) : bootMult freq < 4096 := by
  unfold bootMult
  split <;> decide

/-- Both synthesizers locked with the multiplier `n`. -/
def bootLocked (s : State) (n : Nat) : State :=
  (((((s.setFld rCLK_REF fCLK_REF_LOCK 1).setFlds rCLK_MPLL [(fCLK_MPLL_N, n), (fCLK_MPLL_FRAC, 0)]).setFlds rCLK_STATUS
    [(fCLK_STATUS_MPLL_STATE, 2), (fCLK_STATUS_LPLL_LOCK, 1), (fCLK_STATUS_CCLK_FALLBACK, 0), (fCLK_STATUS_FALLBACK_RING, 0)]).setFlds rGLB_STATUS
      [(fGLB_STATUS_MPLL_LOCK, 1), (fGLB_STATUS_LPLL_LOCK, 1)]).updClk fun c => { c with word := n * 2 ^ 32, prev := n * 2 ^ 32, target := n * 2 ^ 32 }).bootTo 4

theorem bootLock_eq {s : State} {e : BootEnd} (h : e.ok = true) : s.bootLock e = bootLocked s (bootMult (s.fld rCLK_REF fCLK_REF_FREQ)) := by
  unfold State.bootLock
  rw [if_neg (by simp [h])]
  rfl

theorem bootLocked_effect (s : State) {n : Nat} (hn : n < 4096) {t : State} (eq : bootLocked s n = t) :
    t.stk.step = 4 ∧ t.glb = s.glb ∧ t.fld rCLK_STATUS fCLK_STATUS_MPLL_STATE = 2 ∧
        t.flag rCLK_STATUS fCLK_STATUS_LPLL_LOCK = true ∧ t.flag rGLB_STATUS fGLB_STATUS_MPLL_LOCK = true ∧
        t.flag rGLB_STATUS fGLB_STATUS_LPLL_LOCK = true ∧ t.flag rCLK_REF fCLK_REF_LOCK = true ∧ t.fld rCLK_MPLL fCLK_MPLL_N = n ∧
        onlyIn (mRegs ||| mClk ||| mStk ||| mGlb) [rCLK_REF, rCLK_MPLL, rCLK_STATUS, rGLB_STATUS] [] s t := by
  subst eq
  unfold bootLocked
  refine ⟨bootTo_step _ _, ?_, ?_, ?_, ?_, ?_, ?_, ?_,
    onlyIn_bootTo (.other (.setFlds (.setFlds (.setFlds (.setFld (.refl _ _ _ _))))) (touches_State.updClk _ _) (by decide) (State.updClk_regs _ _)) 4⟩
  · rw [State.glb, fld_of_rd (bootTo_rd _ _ _), State.fld_congr (State.updClk_regs _ _), State.glb]
    simp (disch := decide)
  · rw [fld_of_rd (bootTo_rd _ _ _), State.fld_congr (State.updClk_regs _ _)]
    simp (disch := decide)
  · rw [flag_of_rd (bootTo_rd _ _ _), State.flag, State.fld_congr (State.updClk_regs _ _)]
    simp (disch := decide)
  · rw [flag_of_rd (bootTo_rd _ _ _), State.flag, State.fld_congr (State.updClk_regs _ _)]
    simp (disch := decide)
  · rw [flag_of_rd (bootTo_rd _ _ _), State.flag, State.fld_congr (State.updClk_regs _ _)]
    simp (disch := decide)
  · rw [flag_of_rd (bootTo_rd _ _ _), State.flag, State.fld_congr (State.updClk_regs _ _)]
    simp (disch := decide)
  · rw [fld_of_rd (bootTo_rd _ _ _), State.fld_congr (State.updClk_regs _ _)]
    simp (disch := decide) [Nat.mod_eq_of_lt hn]

/-! ### Step 4 -/

theorem onlyIn_patchRejects {s : State} (code n : Nat) : onlyIn (mEvent ||| mStk ||| mGlb) [rSEC_STATUS, rGLB_STATUS] [978, 979] s (s.patchRejects code n) :=
  .overList (.setFld (.refl _ _ _ _)) fun t _ _ => .raise (.refl _ _ _ _)

/-- Step 4 ends in step 5 with STATE MEMORY_TRAINING, whatever has been loaded. -/
theorem bootPatch_ends (s : State) (e : BootEnd) : (s.bootPatch e).stk.step = 5 ∧ (s.bootPatch e).glb = 2 := by
  unfold State.bootPatch
  dsimp only
  refine ⟨bootTo_step _ _, ?_⟩
  rw [State.glb, fld_of_rd (bootTo_rd _ _ _), State.fld_setFld_self _ _ _ _ (by decide)]
  rfl

theorem bootPatch_none {s : State} (e : BootEnd) (h : ∀ b, s.slotCode 1 b (if b then e.readB else e.readA) ≠ 0) :
    onlyIn (mEvent ||| mStk ||| mGlb) [rSEC_STATUS, rGLB_STATUS] [978, 979] s (s.bootPatch e) := by
  obtain ⟨code, hc⟩ : ∃ code, s.trySlots 1 (fun b => if b then e.readB else e.readA) (s.slotOrder 1) 0 = (none, code) :=
    ⟨_, Prod.ext (trySlots_none h _ _) rfl⟩
  unfold State.bootPatch
  simp only [hc]
  refine onlyIn_bootTo (.setFld (.raise (.other (onlyIn_patchRejects _ _) (touches_State.formMeas _ _ _) (by decide) ?_))) 5
  exact State.onStk_regs _ _

/-- The patch of slot `b` loaded, with no other rejected before. -/
def patchIn (s : State) (b : Bool) : State :=
  (((((s.setFld rSEC_STATUS fSEC_STATUS_PATCH_REASON 0).setFld rSEC_STATUS fSEC_STATUS_PSLOT (if b then 2 else 1)).setFld rSEC_SVN fSEC_SVN_P_SVN
    (hdrAt (s.slotHdr 1 b) 16 4)).setFld rSEC_REV fSEC_REV_P_REV (hdrAt (s.slotHdr 1 b) 20 4)).formMeas 3
      (Config.sha384 (s.flash.read 0xFF (slotAt 1 b) (hdrAt (s.slotHdr 1 b) 8 4)))).setFld rGLB_STATUS fGLB_STATUS_STATE 2 |>.bootTo 5

theorem bootPatch_eq {s : State} (e : BootEnd) {b : Bool} (ho : (s.slotOrder 1).head? = some b)
    (h : s.slotCode 1 b (if b then e.readB else e.readA) = 0) : s.bootPatch e = patchIn s b := by
  have load (u : State) (hf : u.flash = s.flash) : u.patchLoad b false = (((u.setFld rSEC_STATUS fSEC_STATUS_PSLOT (if b then 2 else 1)).setFld rSEC_SVN
      fSEC_SVN_P_SVN (hdrAt (s.slotHdr 1 b) 16 4)).setFld rSEC_REV fSEC_REV_P_REV (hdrAt (s.slotHdr 1 b) 20 4)).formMeas 3
        (Config.sha384 (s.flash.read 0xFF (slotAt 1 b) (hdrAt (s.slotHdr 1 b) 8 4))) := by
    unfold State.patchLoad State.slotHdr
    rw [hf]
    exact if_neg (by decide)
  unfold State.bootPatch patchIn
  simp only [trySlots_first (rd := fun b => if b then e.readB else e.readA) ho h, if_pos ho]
  rw [show ((0 : Nat) != 0) = false from rfl, load _ ((touches_State.patchRejects s 0 0).flash (by decide)), State.patchRejects, List.range_zero, List.foldl_nil]

theorem patchIn_effect (s : State) (b : Bool) : (patchIn s b).fld rSEC_STATUS fSEC_STATUS_PSLOT = (if b then 2 else 1) ∧
        (patchIn s b).fld rSEC_SVN fSEC_SVN_P_SVN = hdrAt (s.slotHdr 1 b) 16 4 % 2 ^ 16 ∧
        SMap.get 0 (patchIn s b).stk.meas 3 = Config.sha384 (s.flash.read 0xFF (slotAt 1 b) (hdrAt (s.slotHdr 1 b) 8 4)) ∧
        onlyIn (mRegs ||| mStk ||| mGlb) [rSEC_STATUS, rSEC_SVN, rSEC_REV, rGLB_STATUS] [] s (patchIn s b) := by
  unfold patchIn
  refine ⟨?_, ?_, ?_, onlyIn_bootTo (.setFld (.other (.setFld (.setFld (.setFld (.setFld (.refl _ _ _ _))))) (touches_State.formMeas _ _ _) (by decide)
    (State.onStk_regs _ _))) 5⟩
  · rw [fld_of_rd (bootTo_rd _ _ _), State.formMeas]
    cases b
    · simp (disch := decide)
    · simp (disch := decide)
  · rw [fld_of_rd (bootTo_rd _ _ _), State.formMeas]
    simp (disch := decide)
  · rw [State.bootTo, State.updStk_stk, (touches_State.setFld _ _ _ _).stk (by decide)]
    exact SMap.get_set_same ..

/-! ### Step 5 -/

/-- What training writes for the channels of a list. -/
theorem trained_list (bad : List Nat) (l : List Nat) (hl : ∀ ch ∈ l, ch < 32) (hn : l.Nodup) (s : State) (ch : Nat) (hc : ch < 32) :
    (ch ∉ l → (l.foldl (fun (t : State) ch => t.setFld (rMEM_CH_STATUS ch) (if bad.contains ch then fMEM_CH_STATUS_FAILED else fMEM_CH_STATUS_TRAINED) 1) s).rd
      (rMEM_CH_STATUS ch) = s.rd (rMEM_CH_STATUS ch)) ∧
    (ch ∈ l → (l.foldl (fun (t : State) ch => t.setFld (rMEM_CH_STATUS ch) (if bad.contains ch then fMEM_CH_STATUS_FAILED else fMEM_CH_STATUS_TRAINED) 1) s).flag
      (rMEM_CH_STATUS ch) (if bad.contains ch then fMEM_CH_STATUS_FAILED else fMEM_CH_STATUS_TRAINED) = true) := by
  induction l generalizing s with
  | nil => simp
  | cons a l ih =>
    obtain ⟨ha, hn⟩ := List.nodup_cons.mp hn
    obtain ⟨h1, h2⟩ := ih (fun c h => hl c (List.mem_cons_of_mem a h)) hn
      (s.setFld (rMEM_CH_STATUS a) (if bad.contains a then fMEM_CH_STATUS_FAILED else fMEM_CH_STATUS_TRAINED) 1)
    rw [List.foldl_cons]
    refine ⟨fun h => ?_, fun h => ?_⟩
    · obtain ⟨hne, hm⟩ := not_or.mp (mt List.mem_cons.mpr h)
      exact (h1 hm).trans (State.rd_setFld_other _ _ _ (by simp only [rMEM_CH_STATUS]; omega))
    · by_cases e : ch = a
      · subst e
        rw [flag_of_rd (h1 ha), State.flag, State.fld_setFld_self _ _ _ _ (by split <;> decide)]
        split <;> rfl
      · exact h2 ((List.mem_cons.mp h).resolve_left e)

theorem onlyIn_trained (s : State) (bad : List Nat) : onlyIn (mRegs ||| mStk) ((upTo 32).map rMEM_CH_STATUS) [] s
    ((upTo 32).foldl (fun (t : State) ch => t.setFld (rMEM_CH_STATUS ch) (if bad.contains ch then fMEM_CH_STATUS_FAILED else fMEM_CH_STATUS_TRAINED) 1) s) := by
  refine .of_hi (.overList (.refl _ _ _ _) fun t ch hc => .setFld (.refl _ _ _ _) (ha := List.mem_map_of_mem hc)) fun a ha => ?_
  obtain ⟨ch, -, rfl⟩ := List.mem_map.mp ha
  simp only [rMEM_CH_STATUS]
  omega

theorem bootTrain_good (s : State) {e : BootEnd} (h : e.failed = []) {t : State} (eq : s.bootTrain e = t) :
    t.stk.step = 6 ∧ t.glb = s.glb ∧ (∀ ch < 32, t.flag (rMEM_CH_STATUS ch) fMEM_CH_STATUS_TRAINED = true) ∧
          onlyIn (mRegs ||| mStk) ((upTo 32).map rMEM_CH_STATUS) [] s t := by
  unfold State.bootTrain at eq
  rw [h] at eq
  have k := onlyIn_bootTo (onlyIn_trained s []) 6
  obtain rfl : ((upTo 32).foldl (fun (t : State) ch => t.setFld (rMEM_CH_STATUS ch) (if ([] : List Nat).contains ch then fMEM_CH_STATUS_FAILED
    else fMEM_CH_STATUS_TRAINED) 1) s).bootTo 6 = t := eq
  refine ⟨bootTo_step _ _, k.1.glbState, fun ch hc => ?_, k⟩
  rw [flag_of_rd (bootTo_rd _ _ _)]
  exact (trained_list [] (upTo 32) (fun c h => List.mem_range.mp h) List.nodup_range s ch hc).2 (List.mem_range.mpr hc)

theorem bootTrain_bad (s : State) {e : BootEnd} (h : e.failed ≠ []) {t : State} (eq : s.bootTrain e = t) :
    t.stk.step = 0 ∧ t.glb = 5 ∧ t.fld rGLB_STATUS fGLB_STATUS_HALT_CAUSE = 2 ∧
          (∀ ch ∈ e.failed, t.flag (rMEM_CH_STATUS ch) fMEM_CH_STATUS_FAILED = true) := by
  unfold State.bootTrain at eq
  dsimp only at eq
  rw [if_neg (by simpa using h)] at eq
  subst eq
  obtain ⟨h1, h2, h3, h4⟩ := bootStop_ends (((upTo 32).foldl (fun (t : State) ch => t.setFld (rMEM_CH_STATUS ch)
    (if (e.failed.map fun ch => ch.val).contains ch then fMEM_CH_STATUS_FAILED else fMEM_CH_STATUS_TRAINED) 1) s).raise 709) (cause := 2) (by decide)
  refine ⟨h1, h2, h3, fun ch hc => ?_⟩
  rw [flag_of_rd (h4 _ (by simp only [rMEM_CH_STATUS, rGLB_STATUS]; omega)), flag_of_rd (State.rd_raise_other _ _ _ _ _ _
    (by simp only [rMEM_CH_STATUS]; omega))]
  have hb : (e.failed.map fun ch => ch.val).contains ch.val = true :=
    List.contains_iff_mem.mpr (List.mem_map_of_mem hc)
  have := (trained_list (e.failed.map fun ch => ch.val) (upTo 32) (fun c h => List.mem_range.mp h) List.nodup_range s ch ch.isLt).2
    (List.mem_range.mpr ch.isLt)
  rwa [if_pos hb] at this

end Sys2Proof

end

section
/-! SUPPORT. The last steps of boot, and what stops the Stoker (R511, R88, R535, R537). -/

set_option Elab.async false

namespace Sys2Proof

open Sys2Proof.Machine

/-! ### Steps 6 to 8 -/

theorem bootStore_cleared (s : State) {t : State} (eq : ((s.storeClear.onBadLines fun _ => []).setFld rGLB_STATUS fGLB_STATUS_STORE_READY 1).bootTo 7 = t) :
    t.stk.step = 7 ∧ (∀ a, t.store.byte 0 a = 0) ∧ t.badLines = [] ∧ t.flag rGLB_STATUS fGLB_STATUS_STORE_READY = true ∧ t.glb = s.glb := by
  subst eq
  refine ⟨bootTo_step _ _, fun a => ?_, ?_, ?_, ?_⟩
  · rw [(touches_State.bootTo _ _).store (by decide), (touches_State.setFld _ _ _ _).store (by decide), (touches_State.onBadLines _ _).store (by decide)]
    rfl
  · rw [(touches_State.bootTo _ _).badLines (by decide), (touches_State.setFld _ _ _ _).badLines (by decide)]
    rfl
  · rw [flag_of_rd (bootTo_rd _ _ _), State.flag, State.fld_setFld_self _ _ _ _ (by decide)]
    rfl
  · rw [State.glb, fld_of_rd (bootTo_rd _ _ _), State.fld_setFld_apart _ _ _ _ _ _ (by decide)]
    rfl

theorem onlyIn_measure (s : State) (i v : Nat) : onlyIn (mEvent ||| mStk) [rSEC_MEAS] [984] s (s.measure i v) := by
  unfold State.measure
  have k1 : onlyIn (mEvent ||| mStk) [rSEC_MEAS] [984] s (s.addMod rSEC_MEAS fSEC_MEAS_GEN 1) := .of_hi (.addMod (.refl _ _ _ _)) (by decide)
  generalize s.addMod rSEC_MEAS fSEC_MEAS_GEN 1 = u at *
  have k2 : onlyIn (mEvent ||| mStk) [rSEC_MEAS] [984] s (u.onStk fun k => { k with meas := SMap.set 0 k.meas i v }) :=
    .other k1 (touches_State.onStk _ _ (FusesOnlyBurn.of_eq rfl rfl rfl rfl rfl)) (by decide) (State.onStk_regs _ _)
  generalize u.onStk _ = w at *
  exact .raise (.of_hi (.setFld (k2.mono (by decide) (fun _ h => h) (fun _ h => h))) (by decide))

theorem measure_meas (s : State) (i v : Nat) : (s.measure i v).stk.meas = SMap.set 0 s.stk.meas i v := by
  rw [State.measure, (touches_State.raise _ _ _ _ _).stk (by decide), (touches_State.setFld _ _ _ _).stk (by decide), State.onStk_stk,
    (touches_State.addMod _ _ _ _).stk (by decide)]

theorem measured_list (l : List Nat) (hl : 1 ∉ l) (s : State) :
    SMap.get 0 (l.foldl (fun (t : State) i => t.measure i (SMap.get 0 t.stk.meas i)) s).stk.meas 1 = SMap.get 0 s.stk.meas 1 := by
  induction l generalizing s with
  | nil => rfl
  | cons i l ih =>
    rw [List.mem_cons, not_or] at hl
    rw [List.foldl_cons, ih hl.2, measure_meas, SMap.get_set_other _ _ _ _ hl.1]

/-- Background calibration of core `n` is turned on. -/
def bgOn (t : State) (n : Nat) : State :=
  let t1 := t.setFld (rCNV_BG n) fCNV_BG_EN 1
  if (t1.core n).frozen then t1.setHold n true 5 else t1.bgStart n

theorem onlyIn_bgOn (t : State) (n : Nat) : onlyIn (mEvent ||| mCtxs ||| mBillets ||| mCnv) [rCNV_BG n, rCNV_BG_STATUS n] [68 + n, 72 + n] t (bgOn t n) := by
  have k1 : onlyIn (mEvent ||| mCtxs ||| mBillets ||| mCnv) [rCNV_BG n, rCNV_BG_STATUS n] [68 + n, 72 + n] t (t.setFld (rCNV_BG n) fCNV_BG_EN 1) :=
    .of_hi (.setFld (.refl _ _ _ _)) (by simp only [List.mem_cons, List.not_mem_nil, or_false, rCNV_BG, rCNV_BG_STATUS]; omega)
  unfold bgOn
  dsimp only
  refine .ite ?_ (.other k1 (touches_State.bgStart _ _) (by decide) (bgStart_regs _ _))
  unfold State.setHold
  have k2 : onlyIn (mEvent ||| mCtxs ||| mBillets ||| mCnv) [rCNV_BG n, rCNV_BG_STATUS n] [68 + n, 72 + n] t ((t.setFld (rCNV_BG n) fCNV_BG_EN 1).setFlds (rCNV_BG_STATUS n)
      [(fCNV_BG_STATUS_HOLD, b2n true), (fCNV_BG_STATUS_REASON, if true then 5 else 0)]) :=
    .of_hi (.setFlds (k1.mono (by decide) (fun _ h => h) (fun _ h => h))) (by
      simp only [List.mem_cons, List.not_mem_nil, or_false, rCNV_BG, rCNV_BG_STATUS]; omega)
  exact .ite (.raise k2) (.ite (.raise k2) k2)

theorem bgOn_en (t : State) (n : Nat) : (bgOn t n).flag (rCNV_BG n) fCNV_BG_EN = true := by
  have h1 : (t.setFld (rCNV_BG n) fCNV_BG_EN 1).flag (rCNV_BG n) fCNV_BG_EN = true := by
    rw [State.flag, State.fld_setFld_self _ _ _ _ (by decide)]
    rfl
  unfold bgOn
  dsimp only
  generalize t.setFld (rCNV_BG n) fCNV_BG_EN 1 = u at *
  have h2 : (u.setFlds (rCNV_BG_STATUS n) [(fCNV_BG_STATUS_HOLD, b2n true), (fCNV_BG_STATUS_REASON, if true then 5 else 0)]).flag (rCNV_BG n) fCNV_BG_EN = true := by
    rw [flag_of_rd (State.rd_setFlds_other _ _ (by simp only [rCNV_BG, rCNV_BG_STATUS]; omega)), h1]
  split
  · unfold State.setHold
    dsimp only
    split
    · rw [flag_of_rd (State.rd_raise_other _ _ _ _ _ _ (by simp only [rCNV_BG]; omega)), h2]
    · split
      · rw [flag_of_rd (State.rd_raise_other _ _ _ _ _ _ (by simp only [rCNV_BG]; omega)), h2]
      · exact h2
  · rw [flag_of_rd (State.rd_congr (bgStart_regs _ _) _), h1]

theorem bgOn_list (l : List Nat) (hn : l.Nodup) (hl : ∀ b ∈ l, b < 4) (s : State) (n : Nat) :
    (n ∉ l → (l.foldl bgOn s).rd (rCNV_BG n) = s.rd (rCNV_BG n)) ∧ (n ∈ l → (l.foldl bgOn s).flag (rCNV_BG n) fCNV_BG_EN = true) := by
  induction l generalizing s with
  | nil => simp
  | cons b l ih =>
    obtain ⟨hb, hn⟩ := List.nodup_cons.mp hn
    have hb4 := hl b List.mem_cons_self
    obtain ⟨h1, h2⟩ := ih hn (fun c hc => hl c (List.mem_cons_of_mem _ hc)) (bgOn s b)
    rw [List.foldl_cons]
    constructor
    · intro h
      obtain ⟨hne, hm⟩ := not_or.mp (mt List.mem_cons.mpr h)
      refine (h1 hm).trans ((onlyIn_bgOn s b).2 _ ?_ ?_)
      · simp only [List.mem_cons, List.not_mem_nil, or_false, rCNV_BG, rCNV_BG_STATUS]
        omega
      · intro src _
        simp only [evtRegs, List.mem_cons, List.not_mem_nil, or_false, rEVT_SRC, rEVT_STAT, rEVT_SEQ, rEVT_RING_IDX, rCNV_BG] at *
        omega
    · intro h
      by_cases e : n = b
      · subst e
        rw [flag_of_rd (h1 hb), bgOn_en]
      · exact h2 ((List.mem_cons.mp h).resolve_left e)

/-- Boot's last step with the measurements `s3` formed. -/
theorem bootReady_last {s s3 : State} (ms : Nat) (h1 : SMap.get 0 s3.stk.meas 1 = Config.bootRomHash) (hf : s3.flash = s.flash) {t : State}
    (eq : ((((((upTo 4).foldl bgOn s3).setFlds rGLB_STATUS [(fGLB_STATUS_STATE, 3), (fGLB_STATUS_BOOT_MS, satN 16 ms)]).setFld rSTK_STATUS
      fSTK_STATUS_STATE 2).bootTo 0).raise 0) = t) : t.stk.step = 0 ∧ t.ready = true ∧
      t.fld rGLB_STATUS fGLB_STATUS_BOOT_MS = satN 16 ms ∧ t.fld rSTK_STATUS fSTK_STATUS_STATE = 2 ∧
      (∀ n < 4, t.flag (rCNV_BG n) fCNV_BG_EN = true) ∧ SMap.get 0 t.stk.meas 1 = Config.bootRomHash ∧ t.flash = s.flash := by
  subst eq
  have hms : satN 16 ms < 2 ^ 16 := by
    unfold satN
    split
    · assumption
    · decide
  have kb : Touches (mEvent ||| mCtxs ||| mBillets ||| mCnv) s3 ((upTo 4).foldl bgOn s3) := .overList (.refl _ _) fun t n => (onlyIn_bgOn t n).1
  have hb (n : Nat) (hn : n < 4) := (bgOn_list (upTo 4) List.nodup_range (fun b hb => List.mem_range.mp hb) s3 n).2 (List.mem_range.mpr hn)
  generalize (upTo 4).foldl bgOn s3 = u at *
  have rd (a : Nat) (ha : a < 0x10000 ∨ 0x12000 < a) : (((((u.setFlds rGLB_STATUS [(fGLB_STATUS_STATE, 3), (fGLB_STATUS_BOOT_MS, satN 16 ms)]).setFld
      rSTK_STATUS fSTK_STATUS_STATE 2).bootTo 0).raise 0)).rd a = ((u.setFlds rGLB_STATUS [(fGLB_STATUS_STATE, 3), (fGLB_STATUS_BOOT_MS, satN 16 ms)]).setFld
      rSTK_STATUS fSTK_STATUS_STATE 2).rd a := (State.rd_raise_other _ _ _ _ _ _ (by omega)).trans (bootTo_rd _ _ _)
  refine ⟨?_, ?_, ?_, ?_, fun n hn => ?_, ?_, ?_⟩
  · rw [(touches_State.raise _ _ _ _ _).stk (by decide), bootTo_step]
  · rw [State.ready, State.glb, fld_of_rd (rd _ (by decide))]
    simp (disch := decide)
  · rw [fld_of_rd (rd _ (by decide))]
    simpa (disch := decide) [Nat.mod_eq_of_lt hms] using hms
  · rw [fld_of_rd (rd _ (by decide))]
    simp (disch := decide)
  · rw [flag_of_rd (rd _ (by simp only [rCNV_BG]; omega)), flag_of_rd (State.rd_setFld_other _ _ _ (by simp only [rCNV_BG, rSTK_STATUS]; omega)),
      flag_of_rd (State.rd_setFlds_other _ _ (by simp only [rCNV_BG, rGLB_STATUS]; omega))]
    exact hb n hn
  · rw [(touches_State.raise _ _ _ _ _).stk (by decide), State.bootTo, State.updStk_stk, (touches_State.setFld _ _ _ _).stk (by decide),
      (touches_State.setFlds _ _ _).stk (by decide), kb.stk (by decide)]
    exact h1
  · rw [(touches_State.raise _ _ _ _ _).flash (by decide), (touches_State.bootTo _ _).flash (by decide), (touches_State.setFld _ _ _ _).flash (by decide),
      (touches_State.setFlds _ _ _).flash (by decide), kb.flash (by decide), hf]

theorem bootReady_ends (s : State) (ms : Nat) {t : State} (eq : s.bootReady ms = t) : t.stk.step = 0 ∧ t.ready = true ∧
      t.fld rGLB_STATUS fGLB_STATUS_BOOT_MS = satN 16 ms ∧ t.fld rSTK_STATUS fSTK_STATUS_STATE = 2 ∧
      (∀ n < 4, t.flag (rCNV_BG n) fCNV_BG_EN = true) ∧ SMap.get 0 t.stk.meas 1 = Config.bootRomHash ∧ t.flash = s.flash := by
  unfold State.bootReady at eq
  dsimp only at eq
  generalize h1 : (s.formMeas 1 Config.bootRomHash).formMeas 4 (Config.sha384 []) = s1 at eq
  have m1 : SMap.get 0 s1.stk.meas 1 = Config.bootRomHash := by
    rw [← h1]
    exact (SMap.get_set_other _ _ _ _ (by decide)).trans (SMap.get_set_same ..)
  have f1 : s1.flash = s.flash := by rw [← h1]; rfl
  generalize h2 : (s1.formMeas 5 _).formMeas 6 _ = s2 at eq
  have m2 : SMap.get 0 s2.stk.meas 1 = Config.bootRomHash := by
    rw [← h2]
    exact (SMap.get_set_other _ _ _ _ (by decide)).trans ((SMap.get_set_other _ _ _ _ (by decide)).trans m1)
  have f2 : s2.flash = s.flash := by rw [← h2]; exact f1
  have m3 := (measured_list [2, 3, 5, 6] (by decide) s2).trans m2
  have k3 : Touches (mEvent ||| mStk) s2 ([2, 3, 5, 6].foldl (fun (t : State) i => t.measure i (SMap.get 0 t.stk.meas i)) s2) :=
    .overList (.refl _ _) fun t i => touches_State.measure _ _ _
  exact bootReady_last ms m3 ((k3.flash (by decide)).trans f2) eq

end Sys2Proof

end

section
/-! SUPPORT. What stops the Stoker, and O58 (R500, R510, R534, R535). -/

set_option Elab.async false

namespace Sys2Proof

open Sys2Proof.Machine

/-! ### An automatic cause after the Stoker has stopped -/

theorem dpAuto_not_ready {s : State} (hg : s.glb ≠ 3) (cause : Nat) (patch : Bool) :
    (s.dpAuto cause [] patch).glb = s.glb ∧ onlyIn (mEvent ||| mRst) [] [] s (s.dpAuto cause [] patch) := by
  have hr : s.ready = false := by rw [State.ready, beq_eq_false_iff_ne]; exact hg
  unfold State.dpAuto
  have k : onlyIn (mEvent ||| mRst) [] [] s (s.onRst fun z => { z with failed := s.rst.failed ++ [] }) :=
    .other (.refl _ _ _ _) (touches_State.onRst _ _) (by decide) (State.onRst_regs _ _)
  split
  · exact ⟨k.1.glbState, k⟩
  · rw [if_pos (by rw [hr]; rfl)]
    exact ⟨rfl, .refl _ _ _ _⟩

theorem dpAuto_halts {s : State} (hg : s.glb = 3) (ha : s.flag rEVT_CTRL fEVT_CTRL_AUTO_RESTART = false) (cause : Nat) (patch : Bool) :
    (s.dpAuto cause [] patch).glb = 5 ∧ (s.dpAuto cause [] patch).fld rGLB_STATUS fGLB_STATUS_HALT_CAUSE = 5 ∧
      onlyIn (mEvent ||| mRst ||| mGlb) [rGLB_STATUS] [] s (s.dpAuto cause [] patch) := by
  have hr : s.ready = true := by rw [State.ready, hg]; rfl
  have k : onlyIn (mEvent ||| mRst ||| mGlb) [rGLB_STATUS] [] s (s.haltWith 5) := .setFlds (.refl _ _ _ _)
  unfold State.dpAuto
  rw [if_neg (by omega), if_neg (by simp [hr]), if_neg (by simp [ha])]
  refine ⟨?_, ?_, .other k (touches_State.onRst _ _) (by decide) (State.onRst_regs _ _)⟩
  · rw [State.glb, State.fld_congr (State.onRst_regs _ _), State.haltWith]
    simp (disch := decide)
  · rw [State.fld_congr (State.onRst_regs _ _), State.haltWith]
    simp (disch := decide)

theorem dpAuto_restarts {s : State} (hg : s.glb = 3) (ha : s.flag rEVT_CTRL fEVT_CTRL_AUTO_RESTART = true) {cause : Nat} (hc : cause < 256)
    (patch : Bool) {t : State} (e : s.dpAuto cause [] patch = t) : t.glb = 4 ∧ t.fld rEVT_RESTART fEVT_RESTART_LAST_CAUSE = cause ∧
      t.fld rEVT_RESTART fEVT_RESTART_COUNT = satN 16 (s.fld rEVT_RESTART fEVT_RESTART_COUNT + 1) ∧
      t.rst.cause = cause ∧ t.rst.t0 = s.time ∧ t.rst.phase = 0 ∧ t.time = s.time ∧ t.store = s.store := by
  have k : Touches _ s t := e ▸ touches_State.dpAuto s cause [] patch
  have hr : s.ready = true := by rw [State.ready, hg]; rfl
  unfold State.dpAuto at e
  rw [if_neg (by omega), if_neg (by simp [hr]), if_pos ha] at e
  obtain ⟨h1, h2⟩ := dpBegin_rst_glb s cause true [] patch
  obtain ⟨h3, h4⟩ := dpBegin_evtRestart s hc true [] patch
  rw [e] at h1 h2 h3 h4
  have hr := h2 _ rfl
  exact ⟨h1, h3, h4, by rw [hr], by rw [hr], by rw [hr], k.time (by decide), k.store (by decide)⟩

/-- What an event that stops the Stoker does, once the state `u` shows it. -/
theorem stoker_stops {i : Instr} {s u : State} {src cause : Nat} {patch : Bool} (e : exec i s = .next (u.dpAuto cause [] patch))
    (k : onlyIn mEvent [rSTK_STATUS] [src] s u) (hc : cause < 256) (hs : src = 981 ∨ src = 982) :
    (s.glb ≠ 3 → completes i s fun t => t.glb = s.glb ∧ onlyIn (mEvent ||| mRst) [rSTK_STATUS] [src] s t) ∧
    (s.glb = 3 → s.flag rEVT_CTRL fEVT_CTRL_AUTO_RESTART = false →
        completes i s fun t => t.glb = 5 ∧ t.fld rGLB_STATUS fGLB_STATUS_HALT_CAUSE = 5 ∧
          onlyIn (mEvent ||| mRst ||| mGlb) [rSTK_STATUS, rGLB_STATUS] [src] s t) ∧
    (s.glb = 3 → s.flag rEVT_CTRL fEVT_CTRL_AUTO_RESTART = true →
        completes i s fun t => t.glb = 4 ∧ t.fld rEVT_RESTART fEVT_RESTART_LAST_CAUSE = cause ∧
          t.fld rEVT_RESTART fEVT_RESTART_COUNT = satN 16 (s.fld rEVT_RESTART fEVT_RESTART_COUNT + 1) ∧
          t.rst.cause = cause ∧ t.rst.t0 = s.time ∧ t.rst.phase = 0 ∧ t.time = s.time ∧ t.store = s.store) := by
  have hg : u.glb = s.glb := k.1.glbState
  have kept (a : Nat) (ha : a ≠ rSTK_STATUS ∧ ∀ src ∈ [981, 982], a ∉ evtRegs src) : u.rd a = s.rd a :=
    k.2 a (fun h => ha.1 (List.mem_singleton.mp h)) fun x hx => by
      obtain rfl := List.mem_singleton.mp hx
      obtain rfl | rfl := hs
      · exact ha.2 _ List.mem_cons_self
      · exact ha.2 _ (List.mem_cons_of_mem _ List.mem_cons_self)
  have hctrl := flag_of_rd (f := fEVT_CTRL_AUTO_RESTART) (kept rEVT_CTRL (by decide))
  refine ⟨fun h => ⟨_, e, ?_⟩, fun h ha => ⟨_, e, ?_⟩, fun h ha => ⟨_, e, ?_⟩⟩
  · obtain ⟨h1, h2⟩ := dpAuto_not_ready (s := u) (by rwa [hg]) cause patch
    exact ⟨h1.trans hg, (k.mono (by decide) (fun _ h => h) (fun _ h => h)).trans (h2.mono (by decide) (by simp) (by simp))⟩
  · obtain ⟨h1, h2, h3⟩ := dpAuto_halts (hg.trans h) (hctrl.trans ha) cause patch
    exact ⟨h1, h2, (k.mono (by decide) (by simp) (fun _ h => h)).trans (h3.mono (by decide) (by simp) (by simp))⟩
  · obtain ⟨h1, h2, h3, h4, h5, h6, h7, h8⟩ := dpAuto_restarts (hg.trans h) (hctrl.trans ha) hc patch rfl
    refine ⟨h1, h2, ?_, h4, ?_, h6, ?_, ?_⟩
    · rw [h3, fld_of_rd (kept rEVT_RESTART (by decide))]
    · rw [h5, k.1.time (by decide)]
    · rw [h7, k.1.time (by decide)]
    · rw [h8, k.1.store (by decide)]

/-! ### The steps of boot, one by one -/

theorem bootStep_idle {s : State} (e : BootEnd) (h : s.stk.step = 0 ∨ 8 < s.stk.step) : s.bootStep e = s := by
  unfold State.bootStep
  obtain h | h := h
  · rw [h]
    rfl
  · obtain ⟨n, hn⟩ := Nat.exists_eq_add_of_le' h
    rw [hn]
    rfl

theorem bootTimed_fld (s : State) (n a : Nat) (f : Fld) : (bootTimed s n).fld a f = s.fld a f := fld_of_rd (bootTimed_rd s n a)

theorem bootTimed_fldS (s : State) (n a : Nat) (f : Fld) : (bootTimed s n).fldS a f = s.fldS a f := by
  unfold State.fldS
  rw [bootTimed_rd]

theorem boot_step {s : State} {e : BootEnd} {u : State} (hu : s.bootStep e = u) {P : State → Prop} (h : P u) : completes (.bootStepEnd e) s P :=
  ⟨u, congrArg Host.Outcome.next hu, h⟩

theorem bootSteps_first (e : BootEnd) (s : State) :
    (s.stk.step = 0 ∨ 8 < s.stk.step → exec (.bootStepEnd e) s = .next s) ∧
    (s.stk.step = 1 → (∀ k < 8, s.fldS (rTHM_TEMP k) fTHM_TEMP_TEMP < s.fld rTHM_LIMIT fTHM_LIMIT_CRIT) →
      completes (.bootStepEnd e) s fun t => t.stk.step = 2 ∧ t.glb = s.glb ∧ t.fld rCLK_REF fCLK_REF_FREQ = e.freq ∧
        t.flag rCLK_REF fCLK_REF_DETECT_ERR = !e.match_ ∧ t.flag rCLK_STATUS fCLK_STATUS_REF_OK = e.match_ ∧
        onlyIn (mRegs ||| mStk) [rCLK_REF, rCLK_STATUS] [] s t) ∧
    (s.stk.step = 1 → (∃ k : Fin 8, (s.fld rTHM_LIMIT fTHM_LIMIT_CRIT : Int) ≤ s.fldS (rTHM_TEMP k) fTHM_TEMP_TEMP) →
      completes (.bootStepEnd e) s fun t => t.stk.step = 0 ∧ t.glb = 5 ∧ t.fld rGLB_STATUS fGLB_STATUS_HALT_CAUSE = 3 ∧
        t.flag rTHM_STATUS fTHM_STATUS_STOPPED = true) ∧
    (s.stk.step = 2 → (∀ b, s.slotCode 0 b (if b then e.readB else e.readA) ≠ 0) →
      completes (.bootStepEnd e) s fun t => t.stk.step = 0 ∧ t.glb = 5 ∧ t.fld rGLB_STATUS fGLB_STATUS_HALT_CAUSE = 1 ∧
        onlyIn (mRegs ||| mStk ||| mGlb) [rSEC_STATUS, rGLB_STATUS] [] s t) ∧
    (∀ b, s.stk.step = 2 → s.fld rSEC_STATUS fSEC_STATUS_BOOTSEL ≠ 3 → (s.slotOrder 0).head? = some b →
      completes (.bootStepEnd e) s fun t => s.slotCode 0 b (if b then e.readB else e.readA) = 0 →
        t.stk.step = 3 ∧ t.glb = s.glb ∧ t.flag rSEC_STATUS fSEC_STATUS_KSLOT = b ∧
        t.fld rSEC_SVN fSEC_SVN_K_SVN = hdrAt (s.slotHdr 0 b) 16 4 % 2 ^ 16 ∧ t.fld rSTK_STATUS fSTK_STATUS_STATE = 1 ∧
        t.fld rCLK_STATUS fCLK_STATUS_MPLL_STATE = 1 ∧
        SMap.get 0 t.stk.meas 2 = Config.sha384 (s.flash.read 0xFF (slotAt 0 b) (hdrAt (s.slotHdr 0 b) 8 4)) ∧
        onlyIn (mRegs ||| mStk) [rSEC_STATUS, rSEC_SVN, rSEC_REV, rSTK_STATUS, rCLK_STATUS] [] s t) := by
  have hglb : (bootTimed s e.ms).glb = s.glb := bootTimed_fld s _ _ _
  have step1 (h : s.stk.step = 1) : s.bootStep e = (bootTimed s e.ms).bootRef e := by
    unfold State.bootStep
    rw [h]
    rfl
  have step2 (h : s.stk.step = 2) : s.bootStep e = (bootTimed s e.ms).bootKindling e := by
    unfold State.bootStep
    rw [h]
    rfl
  refine ⟨fun h => congrArg Host.Outcome.next (bootStep_idle e h), fun h hc => boot_step (step1 h) ?_, fun h hc => boot_step (step1 h) ?_,
    fun h hc => boot_step (step2 h) ?_, fun b h hb ho => boot_step (step2 h) fun hc => ?_⟩
  · obtain ⟨h1, h2, h3, h4, h5, h6⟩ := bootRef_cool e (s := bootTimed s e.ms) (fun k hk => by
      rw [bootTimed_fldS, bootTimed_fld]; exact hc k hk) rfl
    exact ⟨h1, h2.trans hglb, h3, h4, h5, (onlyIn_bootTimed s _).trans h6⟩
  · obtain ⟨k, hk⟩ := hc
    exact bootRef_hot e (s := bootTimed s e.ms) (k := k) (by rwa [bootTimed_fldS, bootTimed_fld]) rfl
  · obtain ⟨h1, h2, h3, h4⟩ := bootKindling_none e (s := bootTimed s e.ms) hc rfl
    exact ⟨h1, h2, h3, (onlyIn_bootTimed s _).trans h4⟩
  · obtain ⟨h1, h2, h3, h4, h5, h6, h7, h8⟩ := bootKindling_first e (s := bootTimed s e.ms) (b := b) (by rwa [bootTimed_fld]) ho hc rfl
    exact ⟨h1, h2.trans hglb, h3, h4, h5, h6, h7, (onlyIn_bootTimed s _).trans h8⟩

theorem bootLock_steps {s : State} (e : BootEnd) (h : s.stk.step = 3) :
    (e.ok = false → completes (.bootStepEnd e) s fun t => t.stk.step = 0 ∧ t.glb = 5 ∧ t.fld rGLB_STATUS fGLB_STATUS_HALT_CAUSE = 1) ∧
    (e.ok = true → completes (.bootStepEnd e) s fun t => t.stk.step = 4 ∧ t.glb = s.glb ∧ t.fld rCLK_STATUS fCLK_STATUS_MPLL_STATE = 2 ∧
        t.flag rCLK_STATUS fCLK_STATUS_LPLL_LOCK = true ∧ t.flag rGLB_STATUS fGLB_STATUS_MPLL_LOCK = true ∧
        t.flag rGLB_STATUS fGLB_STATUS_LPLL_LOCK = true ∧ t.flag rCLK_REF fCLK_REF_LOCK = true ∧
        t.fld rCLK_MPLL fCLK_MPLL_N = bootMult (s.fld rCLK_REF fCLK_REF_FREQ) ∧
        onlyIn (mRegs ||| mClk ||| mStk ||| mGlb) [rCLK_REF, rCLK_MPLL, rCLK_STATUS, rGLB_STATUS] [] s t) := by
  have step3 : s.bootStep e = (bootTimed s e.ms).bootLock e := by
    unfold State.bootStep
    rw [h]
    rfl
  refine ⟨fun ho => boot_step step3 ?_, fun ho => boot_step step3 ?_⟩
  · obtain ⟨h1, h2, h3, -⟩ := bootStop_ends (bootTimed s e.ms) (cause := 1) (by decide)
    unfold State.bootLock
    rw [if_pos (by simp [ho])]
    exact ⟨h1, h2, h3⟩
  · rw [bootLock_eq ho, bootTimed_fld]
    obtain ⟨h1, h2, h3, h4, h5, h6, h7, h8, h9⟩ := bootLocked_effect (bootTimed s e.ms) (bootMult_lt (s.fld rCLK_REF fCLK_REF_FREQ)) rfl
    exact ⟨h1, h2.trans (bootTimed_fld s _ _ _), h3, h4, h5, h6, h7, h8, (onlyIn_bootTimed s _).trans h9⟩

theorem bootPatch_steps (e : BootEnd) (s : State) :
    (s.stk.step = 4 → (∀ b, s.slotCode 1 b (if b then e.readB else e.readA) ≠ 0) →
      completes (.bootStepEnd e) s fun t => t.stk.step = 5 ∧ t.glb = 2 ∧
        onlyIn (mEvent ||| mStk ||| mGlb) [rSEC_STATUS, rGLB_STATUS] [978, 979] s t) ∧
    (∀ b, s.stk.step = 4 → (s.slotOrder 1).head? = some b →
      completes (.bootStepEnd e) s fun t => t.stk.step = 5 ∧ t.glb = 2 ∧ (s.slotCode 1 b (if b then e.readB else e.readA) = 0 →
        t.fld rSEC_STATUS fSEC_STATUS_PSLOT = (if b then 2 else 1) ∧
        t.fld rSEC_SVN fSEC_SVN_P_SVN = hdrAt (s.slotHdr 1 b) 16 4 % 2 ^ 16 ∧
        SMap.get 0 t.stk.meas 3 = Config.sha384 (s.flash.read 0xFF (slotAt 1 b) (hdrAt (s.slotHdr 1 b) 8 4)) ∧
        onlyIn (mRegs ||| mStk ||| mGlb) [rSEC_STATUS, rSEC_SVN, rSEC_REV, rGLB_STATUS] [] s t)) := by
  have step4 (h : s.stk.step = 4) : s.bootStep e = (bootTimed s e.ms).bootPatch e := by
    unfold State.bootStep
    rw [h]
    rfl
  obtain ⟨h1, h2⟩ := bootPatch_ends (bootTimed s e.ms) e
  refine ⟨fun h hc => boot_step (step4 h) ⟨h1, h2, ?_⟩, fun b h ho => boot_step (step4 h) ⟨h1, h2, fun hc => ?_⟩⟩
  · exact (onlyIn_bootTimed s _).trans (bootPatch_none (s := bootTimed s e.ms) e hc)
  · rw [bootPatch_eq (s := bootTimed s e.ms) e ho hc]
    obtain ⟨p1, p2, p3, p4⟩ := patchIn_effect (bootTimed s e.ms) b
    exact ⟨p1, p2, p3, (onlyIn_bootTimed s _).trans p4⟩

theorem bootTrain_steps {s : State} (e : BootEnd) (h : s.stk.step = 5) :
    (e.failed = [] → completes (.bootStepEnd e) s fun t => t.stk.step = 6 ∧ t.glb = s.glb ∧
      (∀ ch < 32, t.flag (rMEM_CH_STATUS ch) fMEM_CH_STATUS_TRAINED = true) ∧ onlyIn (mRegs ||| mStk) ((upTo 32).map rMEM_CH_STATUS) [] s t) ∧
    (e.failed ≠ [] → completes (.bootStepEnd e) s fun t => t.stk.step = 0 ∧ t.glb = 5 ∧ t.fld rGLB_STATUS fGLB_STATUS_HALT_CAUSE = 2 ∧
      (∀ ch ∈ e.failed, t.flag (rMEM_CH_STATUS ch) fMEM_CH_STATUS_FAILED = true)) := by
  have step5 : s.bootStep e = (bootTimed s e.ms).bootTrain e := by
    unfold State.bootStep
    rw [h]
    rfl
  refine ⟨fun hf => boot_step step5 ?_, fun hf => boot_step step5 (bootTrain_bad _ hf rfl)⟩
  obtain ⟨h1, h2, h3, h4⟩ := bootTrain_good (bootTimed s e.ms) hf rfl
  exact ⟨h1, h2.trans (bootTimed_fld s _ _ _), h3, (onlyIn_bootTimed s _).trans h4⟩

theorem bootStep_six {s : State} (e : BootEnd) (h : s.stk.step = 6) :
    s.bootStep e = (((bootTimed s e.ms).storeClear.onBadLines fun _ => []).setFld rGLB_STATUS fGLB_STATUS_STORE_READY 1).bootTo 7 := by
  unfold State.bootStep
  simp only [h]
  rfl

theorem bootStep_seven {s : State} (e : BootEnd) (h : s.stk.step = 7) : s.bootStep e = (bootTimed s e.ms).calLoad.bootTo 8 := by
  unfold State.bootStep
  simp only [h]
  rfl

theorem bootStep_eight {s : State} (e : BootEnd) (h : s.stk.step = 8) : s.bootStep e = (bootTimed s e.ms).bootReady e.ms := by
  unfold State.bootStep
  simp only [h]
  rfl

theorem bootSteps_last (e : BootEnd) (s : State) :
    (s.stk.step = 6 → completes (.bootStepEnd e) s fun t => t.stk.step = 7 ∧ (∀ a, t.store.byte 0 a = 0) ∧ t.badLines = [] ∧
      t.flag rGLB_STATUS fGLB_STATUS_STORE_READY = true ∧ t.glb = s.glb) ∧
    (s.stk.step = 7 → completes (.bootStepEnd e) s fun t => t.stk.step = 8 ∧ t.flash = s.flash) ∧
    (s.stk.step = 8 → completes (.bootStepEnd e) s fun t => t.stk.step = 0 ∧ t.ready = true ∧
      t.fld rGLB_STATUS fGLB_STATUS_BOOT_MS = satN 16 e.ms ∧ t.fld rSTK_STATUS fSTK_STATUS_STATE = 2 ∧
      (∀ n < 4, t.flag (rCNV_BG n) fCNV_BG_EN = true) ∧ SMap.get 0 t.stk.meas 1 = Config.bootRomHash ∧ t.flash = s.flash) := by
  have hflash : (bootTimed s e.ms).flash = s.flash := (touches_bootTimed s _).flash (by decide)
  refine ⟨fun h => boot_step (bootStep_six e h) ?_, fun h => boot_step (bootStep_seven e h) ⟨bootTo_step _ _, ?_⟩, fun h => boot_step (bootStep_eight e h) ?_⟩
  · obtain ⟨h1, h2, h3, h4, h5⟩ := bootStore_cleared (bootTimed s e.ms) rfl
    exact ⟨h1, h2, h3, h4, h5.trans (bootTimed_fld s _ _ _)⟩
  · rw [(touches_State.bootTo _ _).flash (by decide), (touches_State.calLoad _).flash (by decide), hflash]
  · obtain ⟨h1, h2, h3, h4, h5, h6, h7⟩ := bootReady_ends (bootTimed s e.ms) e.ms rfl
    exact ⟨h1, h2, h3, h4, h5, h6, h7.trans hflash⟩

/-! ### The pins that release nothing yet -/

theorem porst_held (b : Fin 4) (m : Fin 8) {s : State} (h : s.pkg.perst = true ∨ s.pkg.rail = true ∨ s.glb ≠ 0) :
    exec (.porstRelease .porst b m) s = .next (s.updPkg fun k => { k with porst := false, bootsel := b, smbAddr := m }) := by
  have hu := State.updPkg_pkg s fun k => { k with porst := false, bootsel := b.val % 4, smbAddr := m.val % 8 }
  have hg : (s.updPkg fun k => { k with porst := false, bootsel := b.val % 4, smbAddr := m.val % 8 }).glb = s.glb :=
    State.fld_congr (State.updPkg_regs _ _) _ _
  have hb := bootBegin_held (s := s.updPkg fun k => { k with porst := false, bootsel := b.val % 4, smbAddr := m.val % 8 }) (by
    rw [hu, hg]
    exact .inr h)
  refine congrArg Host.Outcome.next (hb.trans ?_)
  rw [Nat.mod_eq_of_lt b.isLt, Nat.mod_eq_of_lt m.isLt]

theorem perst_held (b : Fin 4) (m : Fin 8) {s : State} (h : s.pkg.porst = true ∨ s.pkg.rail = true ∨ s.glb ≠ 0) :
    exec (.porstRelease .perst b m) s = .next (s.updPkg fun k => { k with perst := false }) := by
  have hu := State.updPkg_pkg s fun k => { k with perst := false }
  have hg : (s.updPkg fun k => { k with perst := false }).glb = s.glb := State.fld_congr (State.updPkg_regs _ _) _ _
  refine congrArg Host.Outcome.next (bootBegin_held ?_)
  rw [hu, hg]
  obtain h | h := h
  · exact .inl h
  · exact .inr (.inr h)

/-! ### Errors of the control store, and the watchdog -/

theorem stoker_errors (patch : Bool) {s : State} (hs : s.glb ≠ 0) : ∀ e ∈ [(Instr.stkCsEccError true patch, 981, 2), (.stkWatchdog, 982, 3)],
      (s.glb ≠ 3 → completes e.1 s fun t => t.glb = s.glb ∧ onlyIn (mEvent ||| mRst) [rSTK_STATUS] [e.2.1] s t) ∧
      (s.glb = 3 → s.flag rEVT_CTRL fEVT_CTRL_AUTO_RESTART = false →
        completes e.1 s fun t => t.glb = 5 ∧ t.fld rGLB_STATUS fGLB_STATUS_HALT_CAUSE = 5 ∧
          onlyIn (mEvent ||| mRst ||| mGlb) [rSTK_STATUS, rGLB_STATUS] [e.2.1] s t) ∧
      (s.glb = 3 → s.flag rEVT_CTRL fEVT_CTRL_AUTO_RESTART = true →
        completes e.1 s fun t => t.glb = 4 ∧ t.fld rEVT_RESTART fEVT_RESTART_LAST_CAUSE = e.2.2 ∧
          t.fld rEVT_RESTART fEVT_RESTART_COUNT = satN 16 (s.fld rEVT_RESTART fEVT_RESTART_COUNT + 1) ∧
          t.rst.cause = e.2.2 ∧ t.rst.t0 = s.time ∧ t.rst.phase = 0 ∧ t.time = s.time ∧ t.store = s.store) := by
  intro e he
  obtain rfl | h := List.mem_cons.mp he
  · exact stoker_stops (u := (s.setFld rSTK_STATUS fSTK_STATUS_STATE 3).raise 981) (next_live hs (if_pos rfl))
      (.raise (.of_hi (.setFld (.refl _ _ _ _)) (by decide))) (show 2 < 256 by decide) (.inl rfl)
  · obtain rfl := List.mem_singleton.mp h
    exact stoker_stops (u := s.raise 982) (next_live hs rfl) (.raise (.refl _ _ _ _)) (show 3 < 256 by decide) (.inr rfl)

/-- Settles O58, pin by pin, boot step by boot step, and for each of the events that stop the Stoker. -/
theorem resetAndBoot : Obligations.ResetAndBoot := by
  unfold Obligations.ResetAndBoot
  refine ⟨reset_asserted, fun b m s => ⟨rfl, porst_held b m, perst_held b m, fun _ h2 h3 => ?_⟩, fun e s => ?_, fun patch s hs =>
    ⟨next_live hs (if_neg (by decide)), stoker_errors patch hs⟩⟩
  · exact porst_released b m ‹_› h2 h3
  · obtain ⟨b0, b1, b1', b2, b2'⟩ := bootSteps_first e s
    obtain ⟨b4, b4'⟩ := bootPatch_steps e s
    exact ⟨b0, b1, b1', b2, b2', bootLock_steps e, b4, b4', bootTrain_steps e, bootSteps_last e s⟩

end Sys2Proof

end

section
/-! SUPPORT. Failed requests and interrupt messages (R428, R433, R434, R529). -/

set_option Elab.async false

namespace Sys2Proof

open Sys2Proof.Machine

/-! ### A failed request is counted and reported -/

theorem onlyIn.send {m : Nat} {l srcs : List Nat} {s t : State} (h : onlyIn m l srcs s t) (o : Out) (hm : mOuts &&& m = mOuts := by decide) :
    onlyIn m l srcs s (t.send o) := .other h (touches_State.send _ _) hm (State.send_regs _ _)

theorem hostFail_timeout (s : State) : onlyIn mEvent [rGLB_HIF_CTO] [993] s (s.hostFail true) ∧
    (s.hostFail true).fld rGLB_HIF_CTO fGLB_HIF_CTO_CTO_IO = satN 32 (s.fld rGLB_HIF_CTO fGLB_HIF_CTO_CTO_IO + 1) := by
  unfold State.hostFail
  rw [if_pos rfl]
  refine ⟨.send (.raiseLim (.of_hi (.addSat (.refl _ _ _ _)) (by decide))) _, ?_⟩
  rw [State.fld_congr (State.send_regs _ _)]
  simp (disch := decide)

theorem hostFail_poison (s : State) : onlyIn mEvent [rGLB_HIF_ERR] [994] s (s.hostFail false) ∧
    (s.hostFail false).fld rGLB_HIF_ERR fGLB_HIF_ERR_POISON_RX = satN 16 (s.fld rGLB_HIF_ERR fGLB_HIF_ERR_POISON_RX + 1) := by
  unfold State.hostFail
  rw [if_neg (by decide)]
  refine ⟨.send (.raiseLim (.of_hi (.addSat (.refl _ _ _ _)) (by decide))) _, ?_⟩
  rw [State.fld_congr (State.send_regs _ _)]
  simp (disch := decide)

/-- The register that counts failed requests of a kind, and the event of the kind. -/
abbrev failReg (timeout : Bool) : Nat := if timeout then rGLB_HIF_CTO else rGLB_HIF_ERR
abbrev failSrc (timeout : Bool) : Nat := if timeout then 993 else 994

theorem onlyIn_hostFail (s : State) (timeout : Bool) : onlyIn mEvent [failReg timeout] [failSrc timeout] s (s.hostFail timeout) := by
  cases timeout
  · exact (hostFail_poison s).1
  · exact (hostFail_timeout s).1

/-- A register that is neither named nor one of the event controller's keeps its value. -/
theorem onlyIn.rd_apart {m : Nat} {l srcs : List Nat} {s t : State} (h : onlyIn m l srcs s t) {a : Nat} (ha : a ∉ l)
    (hr : a < 0x10000 ∨ 0x20000 ≤ a) (hs : ∀ src ∈ srcs, src < 1024) : t.rd a = s.rd a := by
  refine h.2 a ha fun src hsrc => ?_
  have := hs src hsrc
  simp only [evtRegs, List.mem_cons, List.not_mem_nil, or_false, rEVT_SRC, rEVT_STAT, rEVT_SEQ, rEVT_RING_IDX]
  omega

theorem failReg_lt (timeout : Bool) : failReg timeout < 0x10000 := by cases timeout <;> decide

theorem failSrc_lt (timeout : Bool) : ∀ src ∈ [failSrc timeout], src < 1024 := by cases timeout <;> decide

/-- A register far from the host interface and the event controller keeps its value when a request fails. -/
theorem hostFail_rd (s : State) (timeout : Bool) {a : Nat} (ha : 0x20000 ≤ a) : (s.hostFail timeout).rd a = s.rd a := by
  have := failReg_lt timeout
  exact (onlyIn_hostFail s timeout).rd_apart (by simp only [List.mem_singleton]; omega) (.inr ha) (failSrc_lt timeout)

/-! ### Codec jobs -/

theorem jobAbort_effect {s : State} {u cause : Nat} (hu : u < 8) (hj : s.jobState u ≠ 0) (hc : cause < 16) {t : State} (e : s.jobAbort u cause = t) :
    t.jobState u = 0 ∧ t.fld (rCMP_JOB_STATUS u) fCMP_JOB_STATUS_CAUSE = cause ∧ (t.cmpU u).job = none ∧
      onlyIn (mEvent ||| mCmp) [rCMP_JOB_STATUS u] [744 + u] s t := by
  unfold State.jobAbort at e
  rw [if_neg hj] at e
  subst e
  have k : onlyIn (mEvent ||| mCmp) [rCMP_JOB_STATUS u] [744 + u] s
      ((s.setFlds (rCMP_JOB_STATUS u) [(fCMP_JOB_STATUS_STATE, 0), (fCMP_JOB_STATUS_RESULT, 2), (fCMP_JOB_STATUS_CAUSE, cause)]).updCmp u
        fun x => { x with job := none }) :=
    .of_hi (.other (.setFlds (.refl _ _ _ _)) (touches_State.updCmp _ _ _) (by decide) (State.updCmp_regs _ _ _)) (by
      simp only [List.mem_singleton, rCMP_JOB_STATUS]; omega)
  have rd : ∀ f, (((s.setFlds (rCMP_JOB_STATUS u) [(fCMP_JOB_STATUS_STATE, 0), (fCMP_JOB_STATUS_RESULT, 2), (fCMP_JOB_STATUS_CAUSE, cause)]).updCmp u
        fun x => { x with job := none }).raise (744 + u)).fld (rCMP_JOB_STATUS u) f =
      (s.setFlds (rCMP_JOB_STATUS u) [(fCMP_JOB_STATUS_STATE, 0), (fCMP_JOB_STATUS_RESULT, 2), (fCMP_JOB_STATUS_CAUSE, cause)]).fld (rCMP_JOB_STATUS u) f :=
    fun f => (fld_of_rd (State.rd_raise_other _ _ _ _ _ _ (by simp only [rCMP_JOB_STATUS]; omega))).trans (State.fld_congr (State.updCmp_regs _ _ _) _ _)
  have idle : ∀ w : State, ((w.updCmp u fun x => { x with job := none }).cmpU u).job = none := fun w => by
    rw [State.cmpU, State.updCmp, SMap.get_upd_same]
  refine ⟨?_, ?_, ?_, .raise k⟩
  · rw [State.jobState, rd]
    simp (disch := decide)
  · rw [rd]
    simp (disch := decide)
    omega
  · rw [State.cmpU, (touches_State.raise _ _ _ _ _).cmp (by decide)]
    exact idle _

theorem codec_fails {s : State} (hg : s.glb ≠ 0) {u : Fin 8} (hj : s.jobState u ≠ 0) (timeout : Bool) {i : Instr}
    (hi : exec i s = .next (s.live fun t => t.requestFail (.codec u) timeout)) :
    ∃ t, exec i s = .next t ∧ t.jobState u = 0 ∧ t.fld (rCMP_JOB_STATUS u) fCMP_JOB_STATUS_CAUSE = 2 ∧ (t.cmpU u).job = none ∧
      (∀ f, t.fld (failReg timeout) f = (s.hostFail timeout).fld (failReg timeout) f) ∧
      onlyIn (mEvent ||| mCmp) [failReg timeout, rCMP_JOB_STATUS u] [failSrc timeout, 744 + u] s t := by
  have hj' : (s.hostFail timeout).jobState u ≠ 0 := by
    rwa [State.jobState, fld_of_rd (hostFail_rd s timeout (by simp only [rCMP_JOB_STATUS]; omega))]
  obtain ⟨h1, h2, h3, h4⟩ := jobAbort_effect u.isLt hj' (cause := 2) (by decide) rfl
  refine ⟨_, hi.trans (next_live hg rfl), h1, h2, h3, fun f => ?_,
    ((onlyIn_hostFail s timeout).mono (by decide) (by simp) (by simp)).trans (h4.mono (by decide) (by simp) (by simp))⟩
  have := failReg_lt timeout
  exact fld_of_rd (h4.rd_apart (by simp only [List.mem_singleton, rCMP_JOB_STATUS]; omega) (.inl this) (by
    simp only [List.mem_singleton]; omega))

/-! ### Plan loads and table loads -/

theorem plan_fails {s : State} (o : Nat) (hg : s.glb ≠ 0) (hp : s.planState = 1) :
    completes (.completionTimeout (.plan o)) s fun t => t.planState = 0 ∧ t.fld rPLAN_STATUS fPLAN_STATUS_RESULT = 2 ∧
      t.fld rPLAN_STATUS fPLAN_STATUS_REASON = 1 ∧ t.fld rGLB_HIF_CTO fGLB_HIF_CTO_CTO_IO = satN 32 (s.fld rGLB_HIF_CTO fGLB_HIF_CTO_CTO_IO + 1) := by
  obtain ⟨h1, h2, h3⟩ := planReject_status (s.hostFail true) 1 o (by decide)
  have e : s.requestFail (.plan o) true = (s.hostFail true).planReject (1, o) := if_pos hp
  refine ⟨_, next_live hg e, h1, h2, h3, (?_ : _ = (s.hostFail true).fld rGLB_HIF_CTO fGLB_HIF_CTO_CTO_IO).trans (hostFail_timeout s).2⟩
  generalize s.hostFail true = u
  simp (disch := decide) [State.planReject, State.planStatus, State.setSlot]
  have apart : rGLB_HIF_CTO ≠ rPLAN_SLOT u.idleSlot := by
    simp only [rPLAN_SLOT, rGLB_HIF_CTO]
    omega
  rw [fld_of_rd (State.rd_wr_other _ _ apart), fld_of_rd (State.rd_setFld_other _ _ _ (by decide))]

theorem tabFill_load (s : State) (m n b : Nat) (ws : Option (List Nat)) : ((s.tabFill n b ws).xfmU m).load = (s.xfmU m).load := by
  have upd (f : Xfm → Xfm) (hf : ∀ x, (f x).load = x.load) : ((s.updXfm n f).xfmU m).load = (s.xfmU m).load := by
    by_cases h : m = n
    · subst h
      rw [xfmU_updXfm, hf]
    · exact congrArg Xfm.load (SMap.get_upd_other _ _ _ _ h)
  unfold State.tabFill
  dsimp only
  split
  · rw [(touches_State.setFld _ _ _ _).xfmU (by decide), (touches_State.setFld _ _ _ _).xfmU (by decide)]
    exact upd _ fun _ => rfl
  · rw [(touches_State.setFld _ _ _ _).xfmU (by decide), (touches_State.setFld _ _ _ _).xfmU (by decide)]
    exact upd _ fun _ => rfl

/-- Filling a bank writes none of the control and status registers of the loads. -/
theorem tabFill_rd (s : State) (n b : Nat) (ws : Option (List Nat)) {a : Nat} (ha : ∀ k, a ≠ rXFM_TAB_LEN k ∧ a ≠ rXFM_TAB_CRC k) :
    (s.tabFill n b ws).rd a = s.rd a := by
  unfold State.tabFill
  dsimp only
  split
  · rw [State.rd_setFld_other _ _ _ (ha n).2, State.rd_setFld_other _ _ _ (ha n).1, State.rd_congr (State.updXfm_regs _ _ _)]
  · rw [State.rd_setFld_other _ _ _ (ha n).2, State.rd_setFld_other _ _ _ (ha n).1, State.rd_congr (State.updXfm_regs _ _ _)]

/-- The banks that a failed load leaves empty: that of the pipeline, and of its partner in a gang. -/
def tabEmptied (s : State) (gang : Bool) (n b : Nat) : State :=
  if gang then (s.tabFill n b none).tabFill (n + 1) b none else s.tabFill n b none

theorem tabEmptied_keeps (s : State) (gang : Bool) (n b : Nat) : ((tabEmptied s gang n b).xfmU n).load = (s.xfmU n).load ∧
    (tabEmptied s gang n b).rd (rXFM_TAB_CTRL n) = s.rd (rXFM_TAB_CTRL n) := by
  have ha : ∀ k, rXFM_TAB_CTRL n ≠ rXFM_TAB_LEN k ∧ rXFM_TAB_CTRL n ≠ rXFM_TAB_CRC k := fun k => by
    simp only [rXFM_TAB_CTRL, rXFM_TAB_LEN, rXFM_TAB_CRC]
    omega
  unfold tabEmptied
  split
  · exact ⟨(tabFill_load _ _ _ _ _).trans (tabFill_load _ _ _ _ _), (tabFill_rd _ _ _ _ ha).trans (tabFill_rd _ _ _ _ ha)⟩
  · exact ⟨tabFill_load _ _ _ _ _, tabFill_rd _ _ _ _ ha⟩

theorem tabLoadEnd_none {s : State} {n len : Nat} (h : (s.xfmU n).load = some len) :
    ∃ b, s.tabLoadEnd n none = ((tabEmptied (tabIdle s n) (s.xfmGang n) n b).setFlds (rXFM_TAB_STATUS n)
      [(fXFM_TAB_STATUS_LOAD_RESULT, 3), (fXFM_TAB_STATUS_LOAD_REASON, 1)]).raise 265 := by
  refine ⟨1 - s.xfmActive n, ?_⟩
  unfold State.tabLoadEnd
  simp only [h]
  rfl

theorem table_fails {s : State} (n : Fin 4) {len : Nat} (hg : s.glb ≠ 0) (h : (s.xfmU n).load = some len) :
    completes (.poisonedCompletion (.table n)) s fun t => (t.xfmU n).load = none ∧
      t.fld (rXFM_TAB_STATUS n) fXFM_TAB_STATUS_LOAD_RESULT = 3 ∧ t.fld (rXFM_TAB_STATUS n) fXFM_TAB_STATUS_LOAD_REASON = 1 ∧
      t.flag (rXFM_TAB_CTRL n) fXFM_TAB_CTRL_LOAD = false := by
  have h' : ((s.hostFail false).xfmU n).load = some len := by rwa [(touches_State.hostFail _ _).xfmU (by decide)]
  obtain ⟨b, e⟩ := tabLoadEnd_none h'
  obtain ⟨k1, k2⟩ := tabEmptied_keeps (tabIdle (s.hostFail false) n) ((s.hostFail false).xfmGang n) n b
  generalize tabEmptied (tabIdle (s.hostFail false) n) ((s.hostFail false).xfmGang n) n b = u at e k1 k2
  refine ⟨_, next_live hg e, ?_, ?_, ?_, ?_⟩
  · rw [(touches_State.raise _ _ _ _ _).xfmU (by decide), (touches_State.setFlds _ _ _).xfmU (by decide), k1, tabIdle_load]
  · rw [fld_of_rd (State.rd_raise_other _ _ _ _ _ _ (by simp only [rXFM_TAB_STATUS]; omega))]
    simp (disch := decide)
  · rw [fld_of_rd (State.rd_raise_other _ _ _ _ _ _ (by simp only [rXFM_TAB_STATUS]; omega))]
    simp (disch := decide)
  · rw [flag_of_rd (State.rd_raise_other _ _ _ _ _ _ (by simp only [rXFM_TAB_CTRL]; omega)), flag_of_rd (State.rd_setFlds_other _ _ (by
      simp only [rXFM_TAB_CTRL, rXFM_TAB_STATUS]; omega)), flag_of_rd k2, tabIdle, State.flag, State.fld_setFld_self _ _ _ _ (by decide)]
    rfl

end Sys2Proof

end

section
/-! SUPPORT. How a DMA channel ends what it does (R445 to R452). -/

set_option Elab.async false

namespace Sys2Proof

open Sys2Proof.Machine

theorem dmaCh_setDma_same (s : State) (c : Nat) (d : Dma) : (s.setDma c d).dmaCh c = d := by
  rw [State.dmaCh, State.setDma_dma, SMap.get_set_same]

theorem dmaCh_setDma_other (s : State) {c k : Nat} (d : Dma) (h : k ≠ c) : (s.setDma c d).dmaCh k = s.dmaCh k := by
  rw [State.dmaCh, State.setDma_dma, SMap.get_set_other _ _ _ _ h, State.dmaCh]

theorem Touches.dmaCh {m : Nat} {s t : State} (k : Touches m s t) (h : m.testBit 50 = false := by decide) (c : Nat) : t.dmaCh c = s.dmaCh c := by
  rw [State.dmaCh, k.dma h, State.dmaCh]

/-- The channel is set, shows its state and raises its event: how every end but a DONE ends. -/
def dmaLeft (s : State) (c stop status tag : Nat) : State := ((s.setDma c dma0).setDmaState c stop).dmaEvent c status tag

theorem dmaLeft_effect (s : State) {c stop : Nat} (hc : c < 128) (hs : stop < 8) (status tag : Nat) {t : State} (e : dmaLeft s c stop status tag = t) :
    t.dmaState c = stop ∧ t.dmaCh c = dma0 ∧ (∀ k, k ≠ c → t.dmaCh k = s.dmaCh k) ∧
      (∀ a, 0x800000 ≤ a → a ≠ rDMA_STATUS c → t.rd a = s.rd a) ∧
      (∀ f : Fld, 3 ≤ f.lo → t.fld (rDMA_STATUS c) f = s.fld (rDMA_STATUS c) f) ∧
      onlyIn (mEvent ||| mDma) [rDMA_STATUS c] [768 + c] s t := by
  subst e
  have k : onlyIn (mEvent ||| mDma) [rDMA_STATUS c] [768 + c] s ((s.setDma c dma0).setDmaState c stop) :=
    .of_hi (.setFld (.other (.refl _ _ _ _) (touches_State.setDma _ _ _) (by decide) (State.setDma_regs _ _ _))) (by
      simp only [List.mem_singleton, rDMA_STATUS]; omega)
  have rd (a : Nat) (ha : 0x800000 ≤ a) : (dmaLeft s c stop status tag).rd a = ((s.setDma c dma0).setDmaState c stop).rd a :=
    State.rd_raise_other _ _ _ _ _ _ (by omega)
  have hst : 0x800000 ≤ rDMA_STATUS c := by simp only [rDMA_STATUS]; omega
  have ch (k : Nat) : (dmaLeft s c stop status tag).dmaCh k = (s.setDma c dma0).dmaCh k := by
    rw [dmaLeft, State.dmaEvent, (touches_State.raise _ _ _ _ _).dmaCh (by decide), State.setDmaState, (touches_State.setFld _ _ _ _).dmaCh (by decide)]
  refine ⟨?_, (ch c).trans (dmaCh_setDma_same _ _ _), fun k hk => (ch k).trans (dmaCh_setDma_other _ _ hk), fun a ha hn => ?_, fun f hf => ?_, .raise k⟩
  · rw [State.dmaState, fld_of_rd (rd _ hst), State.setDmaState, State.fld_setFld_self _ _ _ _ (by decide)]
    exact Nat.mod_eq_of_lt hs
  · rw [rd a ha, State.setDmaState, State.rd_setFld_other _ _ _ hn, State.rd_congr (State.setDma_regs _ _ _)]
  · rw [fld_of_rd (rd _ hst), State.setDmaState, State.fld_setFld_apart _ _ _ fDMA_STATUS_STATE f _ ⟨by decide, .inr hf⟩, State.fld_congr (State.setDma_regs _ _ _)]

/-! ### A fetch that reads no descriptor -/

theorem dmaNoRead_effect (s : State) {c status : Nat} (hc : c < 128) (hs : status < 256) (addr : Nat) (store : Bool) {t : State}
    (e : s.dmaNoRead c status addr store = t) : t.dmaState c = 3 ∧ t.dmaCh c = dma0 ∧ t.fld (rDMA_STATUS c) fDMA_STATUS_LAST = status ∧
      t.fld (rDMA_ERR c) fDMA_ERR_ADDR = addr / 64 % 2 ^ 58 ∧ t.flag (rDMA_ERR c) fDMA_ERR_STORE = store ∧
      onlyIn (mEvent ||| mDma) [rDMA_STATUS c, rDMA_ERR c, rDMA_ERR_INFO c] [768 + c] s t := by
  unfold State.dmaNoRead at e
  dsimp only at e
  have k1 : onlyIn (mEvent ||| mDma) [rDMA_STATUS c, rDMA_ERR c, rDMA_ERR_INFO c] [768 + c] s ((s.wr (rDMA_ERR c) (fsets 0 [(fDMA_ERR_ADDR, addr / 64),
      (fDMA_ERR_STORE, b2n store)])).wr (rDMA_ERR_INFO c) (fsets 0 [(fDMA_ERR_INFO_BEAT, noBeat), (fDMA_ERR_INFO_BYTES, 0)])) :=
    .of_hi (.wr (.wr (.refl _ _ _ _))) (by
      simp only [List.mem_cons, List.not_mem_nil, or_false, rDMA_STATUS, rDMA_ERR, rDMA_ERR_INFO]; omega)
  have r1 : ((s.wr (rDMA_ERR c) (fsets 0 [(fDMA_ERR_ADDR, addr / 64), (fDMA_ERR_STORE, b2n store)])).wr (rDMA_ERR_INFO c)
      (fsets 0 [(fDMA_ERR_INFO_BEAT, noBeat), (fDMA_ERR_INFO_BYTES, 0)])).rd (rDMA_ERR c) =
        fsets 0 [(fDMA_ERR_ADDR, addr / 64), (fDMA_ERR_STORE, b2n store)] := by
    rw [State.rd_wr_other _ _ (by simp only [rDMA_ERR, rDMA_ERR_INFO]; omega), State.rd_wr_same]
  generalize (s.wr (rDMA_ERR c) _).wr (rDMA_ERR_INFO c) _ = u at *
  have k2 : onlyIn (mEvent ||| mDma) [rDMA_STATUS c, rDMA_ERR c, rDMA_ERR_INFO c] [768 + c] s
      ((if status = dsLoop then u else u.addMod (rDMA_STATUS c) fDMA_STATUS_DESCS 1).setFld (rDMA_STATUS c) fDMA_STATUS_LAST status) :=
    .of_hi (.setFld (.ite (k1.mono (by decide) (fun _ h => h) (fun _ h => h)) (.addMod (k1.mono (by decide) (fun _ h => h) (fun _ h => h))))) (by
      simp only [List.mem_cons, List.not_mem_nil, or_false, rDMA_STATUS, rDMA_ERR, rDMA_ERR_INFO]; omega)
  have r2 : ((if status = dsLoop then u else u.addMod (rDMA_STATUS c) fDMA_STATUS_DESCS 1).setFld (rDMA_STATUS c) fDMA_STATUS_LAST status).rd
      (rDMA_ERR c) = u.rd (rDMA_ERR c) := by
    have hne : rDMA_ERR c ≠ rDMA_STATUS c := by simp only [rDMA_ERR, rDMA_STATUS]; omega
    rw [State.rd_setFld_other _ _ _ hne]
    split
    · rfl
    · exact State.rd_setFld_other _ _ _ hne
  have l2 := State.fld_setFld_self (if status = dsLoop then u else u.addMod (rDMA_STATUS c) fDMA_STATUS_DESCS 1) (rDMA_STATUS c) fDMA_STATUS_LAST status
    (by decide)
  generalize (if status = dsLoop then u else u.addMod (rDMA_STATUS c) fDMA_STATUS_DESCS 1).setFld (rDMA_STATUS c) fDMA_STATUS_LAST status = w at *
  obtain ⟨h1, h2, -, h4, h5, h6⟩ := dmaLeft_effect w hc (stop := 3) (by decide) status 0 e
  have r3 : t.rd (rDMA_ERR c) = fsets 0 [(fDMA_ERR_ADDR, addr / 64), (fDMA_ERR_STORE, b2n store)] :=
    (h4 _ (by simp only [rDMA_ERR]; omega) (by simp only [rDMA_ERR, rDMA_STATUS]; omega)).trans (r2.trans r1)
  refine ⟨h1, h2, ?_, ?_, ?_, k2.trans (h6.mono (by decide) (by simp) (by simp))⟩
  · rw [h5 _ (by decide), l2]
    exact Nat.mod_eq_of_lt hs
  · rw [State.fld, r3]
    simp (disch := decide)
  · rw [State.flag, State.fld, r3]
    simp (disch := decide)
    cases store <;> rfl

/-! ### The end of a descriptor -/

/-- The descriptor of channel `c` counted with its status and its bytes, and its inbox empty. -/
def dmaBooked (s : State) (c status bytes : Nat) : State :=
  (((s.addMod (rDMA_STATUS c) fDMA_STATUS_DESCS 1).setFld (rDMA_STATUS c) fDMA_STATUS_LAST status).addMod (rDMA_BYTES c) fDMA_BYTES_BYTES bytes).onPorts
    fun ps => SMap.set ⟨[]⟩ ps (dmaBox c) ⟨[]⟩

theorem dmaBooked_effect (s : State) (c : Nat) {status : Nat} (hs : status < 256) (bytes : Nat) {t : State} (e : dmaBooked s c status bytes = t) :
    t.fld (rDMA_STATUS c) fDMA_STATUS_DESCS = (s.fld (rDMA_STATUS c) fDMA_STATUS_DESCS + 1) % 2 ^ 32 ∧
      t.fld (rDMA_STATUS c) fDMA_STATUS_LAST = status ∧ t.dmaState c = s.dmaState c ∧
      t.fld (rDMA_BYTES c) fDMA_BYTES_BYTES = (s.fld (rDMA_BYTES c) fDMA_BYTES_BYTES + bytes) % 2 ^ 64 ∧
      onlyIn (mRegs ||| mPorts ||| mDma) [rDMA_STATUS c, rDMA_BYTES c] [] s t := by
  subst e
  have hne : rDMA_STATUS c ≠ rDMA_BYTES c := by simp only [rDMA_BYTES, rDMA_STATUS]; omega
  have k : onlyIn (mRegs ||| mPorts ||| mDma) [rDMA_STATUS c, rDMA_BYTES c] [] s
      (((s.addMod (rDMA_STATUS c) fDMA_STATUS_DESCS 1).setFld (rDMA_STATUS c) fDMA_STATUS_LAST status).addMod (rDMA_BYTES c) fDMA_BYTES_BYTES bytes) :=
    .of_hi (.addMod (.setFld (.addMod (.refl _ _ _ _)))) (by simp only [List.mem_cons, List.not_mem_nil, or_false, rDMA_STATUS, rDMA_BYTES]; omega)
  unfold dmaBooked
  refine ⟨?_, ?_, ?_, ?_, .other k (touches_State.onPorts _ _) (by decide) (State.onPorts_regs _ _)⟩
  · rw [State.fld_congr (State.onPorts_regs _ _), State.fld_addMod_other _ _ _ _ hne, State.fld_setFld_apart _ _ _ _ _ _ (by decide),
      State.fld_addMod_self _ _ _ _ (by decide)]
  · rw [State.fld_congr (State.onPorts_regs _ _), State.fld_addMod_other _ _ _ _ hne, State.fld_setFld_self _ _ _ _ (by decide)]
    exact Nat.mod_eq_of_lt hs
  · rw [State.dmaState, State.fld_congr (State.onPorts_regs _ _), State.fld_addMod_other _ _ _ _ hne, State.fld_setFld_apart _ _ _ _ _ _ (by decide),
      State.fld_addMod_apart _ _ _ _ _ _ (by decide), State.dmaState]
  · rw [State.fld_congr (State.onPorts_regs _ _), State.fld_addMod_self _ _ _ _ (by decide), fld_of_rd (State.rd_setFld_other _ _ _ hne.symm),
      State.fld_addMod_other _ _ _ _ hne.symm]

/-- A descriptor with no references, no completion record and nothing taken ends as it is booked. -/
theorem dmaEnd_plain {s : State} {c : Nat} {d : Dma} (hd : s.dmaCh c = d) (hr : d.refs = []) (hc : d.crec = false) {status : Nat}
    (ho : d.op ≠ 1 ∨ (status ≠ 0 ∧ d.recs = 0)) (failAt detail stop : Nat) : s.dmaEnd c status failAt detail stop =
    if status = dsDone then
      if d.w 1 ⟨0, 1⟩ = 1 then
        (if d.irq then (dmaBooked s c status d.bytes).dmaEvent c status d.tag else dmaBooked s c status d.bytes).setDma c
          { dma0 with phase := .fetch (d.w 1 ⟨6, 58⟩ * 64) (d.w 1 ⟨1, 1⟩ == 1) false }
      else ((if d.irq then (dmaBooked s c status d.bytes).dmaEvent c status d.tag else dmaBooked s c status d.bytes).setDma c dma0).setDmaState c 0
    else if status = dsAborted then dmaLeft (dmaBooked s c status d.bytes) c stop status d.tag
    else dmaLeft (((dmaBooked s c status d.bytes).wr (rDMA_ERR c) (fsets 0 [(fDMA_ERR_ADDR, d.addr / 64), (fDMA_ERR_STORE, d.addr)])).wr (rDMA_ERR_INFO c)
      (fsets 0 [(fDMA_ERR_INFO_BEAT, failAt), (fDMA_ERR_INFO_BYTES, d.bytes)])) c 3 status d.tag := by
  have hu : s.untake c = s := by
    unfold State.untake
    rw [hd]
    refine if_pos ?_
    obtain h | h := ho
    · simp [h]
    · simp [h.2]
  unfold State.dmaEnd
  dsimp only
  rw [hd, hu, hr, hc]
  by_cases h1 : d.op = 1
  · have h0 : status ≠ dsDone := (ho.resolve_left fun k => k h1).1
    simp only [if_neg h0]
    rfl
  · simp only [if_neg h1, ite_self]
    rfl

section
variable {s : State} {c : Nat} (hcc : c < 128) {d : Dma} (hd : s.dmaCh c = d) (hr : d.refs = []) (hc : d.crec = false)

include hcc hd hr hc

theorem dmaEnd_done (ho : d.op ≠ 1) (failAt detail stop : Nat) {t : State} (e : s.dmaEnd c 0 failAt detail stop = t) :
    t.fld (rDMA_STATUS c) fDMA_STATUS_DESCS = (s.fld (rDMA_STATUS c) fDMA_STATUS_DESCS + 1) % 2 ^ 32 ∧ t.fld (rDMA_STATUS c) fDMA_STATUS_LAST = 0 ∧
      t.fld (rDMA_BYTES c) fDMA_BYTES_BYTES = (s.fld (rDMA_BYTES c) fDMA_BYTES_BYTES + d.bytes) % 2 ^ 64 ∧
      (d.w 1 ⟨0, 1⟩ = 0 → t.dmaCh c = dma0 ∧ t.dmaState c = 0) ∧
      (d.w 1 ⟨0, 1⟩ = 1 → t.dmaState c = s.dmaState c ∧
        t.dmaCh c = { dma0 with phase := .fetch (d.w 1 ⟨6, 58⟩ * 64) (d.w 1 ⟨1, 1⟩ == 1) false }) ∧
      (d.irq = false → onlyIn (mRegs ||| mPorts ||| mDma) [rDMA_STATUS c, rDMA_BYTES c] [] s t) ∧
      onlyIn (mEvent ||| mPorts ||| mDma) [rDMA_STATUS c, rDMA_BYTES c] [768 + c] s t := by
  have hst : 0x800000 ≤ rDMA_STATUS c ∧ 0x800000 ≤ rDMA_BYTES c ∧ rDMA_BYTES c ≠ rDMA_STATUS c := by simp only [rDMA_STATUS, rDMA_BYTES]; omega
  rw [dmaEnd_plain hd hr hc (.inl ho), if_pos rfl] at e
  obtain ⟨b1, b2, b3, b4, b5⟩ := dmaBooked_effect s c (status := 0) (by decide) d.bytes rfl
  generalize dmaBooked s c 0 d.bytes = u at *
  obtain ⟨w, hw⟩ : ∃ w, w = if d.irq then u.dmaEvent c 0 d.tag else u := ⟨_, rfl⟩
  have wrd (a : Nat) (ha : 0x800000 ≤ a) : w.rd a = u.rd a := by
    rw [hw]
    split
    · exact State.rd_raise_other _ _ _ _ _ _ (by omega)
    · rfl
  have wk : onlyIn (mEvent ||| mPorts ||| mDma) [rDMA_STATUS c, rDMA_BYTES c] [768 + c] s w := by
    have b5 := b5.mono (m' := mEvent ||| mPorts ||| mDma) (srcs' := [768 + c]) (by decide) (fun _ h => h) (by simp)
    rw [hw]
    exact .ite (.raise b5) b5
  have wi (hi : d.irq = false) : onlyIn (mRegs ||| mPorts ||| mDma) [rDMA_STATUS c, rDMA_BYTES c] [] s w := by
    rw [hw, hi]
    exact b5
  rw [← hw] at e
  have hl : ∀ a ∈ [rDMA_STATUS c, rDMA_BYTES c], 0x1000 ≤ a := by
    simp only [List.mem_cons, List.not_mem_nil, or_false, rDMA_STATUS, rDMA_BYTES]
    omega
  by_cases hn : d.w 1 ⟨0, 1⟩ = 1
  · rw [if_pos hn] at e
    subst e
    have hrd (a : Nat) : (w.setDma c { dma0 with phase := .fetch (d.w 1 ⟨6, 58⟩ * 64) (d.w 1 ⟨1, 1⟩ == 1) false }).rd a = w.rd a :=
      State.rd_congr (State.setDma_regs _ _ _) a
    refine ⟨?_, ?_, ?_, fun h => by rw [h] at hn; exact absurd hn (by decide), fun _ => ⟨?_, dmaCh_setDma_same _ _ _⟩, fun hi => ?_, ?_⟩
    · rw [fld_of_rd (hrd _), fld_of_rd (wrd _ hst.1), b1]
    · rw [fld_of_rd (hrd _), fld_of_rd (wrd _ hst.1), b2]
    · rw [fld_of_rd (hrd _), fld_of_rd (wrd _ hst.2.1), b4]
    · rw [State.dmaState, fld_of_rd (hrd _), fld_of_rd (wrd _ hst.1), ← State.dmaState, b3]
    · exact .other (wi hi) (touches_State.setDma _ _ _) (by decide) (State.setDma_regs _ _ _)
    · exact .other wk (touches_State.setDma _ _ _) (by decide) (State.setDma_regs _ _ _)
  · rw [if_neg hn] at e
    subst e
    have hch : ((w.setDma c dma0).setDmaState c 0).dmaCh c = dma0 := by
      rw [State.setDmaState, (touches_State.setFld _ _ _ _).dmaCh (by decide), dmaCh_setDma_same]
    have hf (f : Fld) (hf : 3 ≤ f.lo) : ((w.setDma c dma0).setDmaState c 0).fld (rDMA_STATUS c) f = u.fld (rDMA_STATUS c) f := by
      rw [State.setDmaState, State.fld_setFld_apart _ _ _ fDMA_STATUS_STATE f _ ⟨by decide, .inr hf⟩, State.fld_congr (State.setDma_regs _ _ _),
        fld_of_rd (wrd _ hst.1)]
    refine ⟨(hf _ (by decide)).trans b1, (hf _ (by decide)).trans b2, ?_, fun _ => ⟨hch, ?_⟩, fun h => absurd h hn, fun hi => ?_, ?_⟩
    · rw [State.setDmaState, fld_of_rd (State.rd_setFld_other _ _ _ hst.2.2), State.fld_congr (State.setDma_regs _ _ _), fld_of_rd (wrd _ hst.2.1), b4]
    · rw [State.dmaState, State.setDmaState, State.fld_setFld_self _ _ _ _ (by decide)]
      rfl
    · exact .of_hi (.setFld ((onlyIn.other (wi hi) (touches_State.setDma _ _ _) (by decide) (State.setDma_regs _ _ _)).mono (by decide) (fun _ h => h)
        (fun _ h => h))) hl
    · exact .of_hi (.setFld ((onlyIn.other wk (touches_State.setDma _ _ _) (by decide) (State.setDma_regs _ _ _)).mono (by decide) (fun _ h => h)
        (fun _ h => h))) hl

theorem dmaEnd_aborted (ho : d.op ≠ 1 ∨ d.recs = 0) (failAt detail : Nat) {stop : Nat} (hstop : stop < 8) {t : State}
    (e : s.dmaEnd c dsAborted failAt detail stop = t) : t.dmaState c = stop ∧ t.dmaCh c = dma0 ∧ t.fld (rDMA_STATUS c) fDMA_STATUS_LAST = 1 ∧
      (∀ k, k ≠ c → t.dmaCh k = s.dmaCh k) ∧ onlyIn (mEvent ||| mPorts ||| mDma) [rDMA_STATUS c, rDMA_BYTES c] [768 + c] s t := by
  rw [dmaEnd_plain hd hr hc (ho.imp_right fun h => ⟨by decide, h⟩), if_neg (by decide), if_pos rfl] at e
  obtain ⟨b1, b2, b3, b4, b5⟩ := dmaBooked_effect s c (status := dsAborted) (by decide) d.bytes rfl
  have bk : ∀ k, (dmaBooked s c dsAborted d.bytes).dmaCh k = s.dmaCh k := fun k => by
    rw [dmaBooked, (touches_State.onPorts _ _).dmaCh (by decide), (touches_State.addMod _ _ _ _).dmaCh (by decide),
      (touches_State.setFld _ _ _ _).dmaCh (by decide), (touches_State.addMod _ _ _ _).dmaCh (by decide)]
  generalize dmaBooked s c dsAborted d.bytes = u at *
  obtain ⟨h1, h2, h3, -, h5, h6⟩ := dmaLeft_effect u hcc hstop dsAborted d.tag e
  exact ⟨h1, h2, (h5 _ (by decide)).trans b2, fun k hk => (h3 k hk).trans (bk k),
    (b5.mono (by decide) (fun _ h => h) (by simp)).trans (h6.mono (by decide) (by simp) (fun _ h => h))⟩

theorem dmaEnd_error (ho : d.op ≠ 1 ∨ d.recs = 0) {status : Nat} (hs : 2 ≤ status ∧ status < 256) (failAt detail stop : Nat) {t : State}
    (e : s.dmaEnd c status failAt detail stop = t) : t.dmaState c = 3 ∧ t.dmaCh c = dma0 ∧ t.fld (rDMA_STATUS c) fDMA_STATUS_LAST = status ∧
      t.fld (rDMA_ERR c) fDMA_ERR_ADDR = d.addr / 64 % 2 ^ 58 ∧ t.fld (rDMA_ERR_INFO c) fDMA_ERR_INFO_BEAT = failAt % 2 ^ 32 ∧
      t.fld (rDMA_ERR_INFO c) fDMA_ERR_INFO_BYTES = d.bytes % 2 ^ 32 ∧
      onlyIn (mEvent ||| mPorts ||| mDma) [rDMA_STATUS c, rDMA_BYTES c, rDMA_ERR c, rDMA_ERR_INFO c] [768 + c] s t := by
  have h0 : status ≠ dsDone := by simp only [dsDone]; omega
  have h1 : status ≠ dsAborted := by simp only [dsAborted]; omega
  rw [dmaEnd_plain hd hr hc (ho.imp_right fun h => ⟨h0, h⟩), if_neg h0, if_neg h1] at e
  obtain ⟨-, b2, -, -, b5⟩ := dmaBooked_effect s c hs.2 d.bytes rfl
  have b5 := b5.mono (m' := mEvent ||| mPorts ||| mDma) (l' := [rDMA_STATUS c, rDMA_BYTES c, rDMA_ERR c, rDMA_ERR_INFO c]) (srcs' := [768 + c]) (by decide)
    (by simp) (by simp)
  generalize dmaBooked s c status d.bytes = u at *
  have hne : rDMA_ERR c ≠ rDMA_ERR_INFO c ∧ rDMA_STATUS c ≠ rDMA_ERR_INFO c ∧ rDMA_STATUS c ≠ rDMA_ERR c ∧ 0x800000 ≤ rDMA_ERR c ∧
      0x800000 ≤ rDMA_ERR_INFO c := by simp only [rDMA_STATUS, rDMA_ERR, rDMA_ERR_INFO]; omega
  have k : onlyIn (mEvent ||| mPorts ||| mDma) [rDMA_STATUS c, rDMA_BYTES c, rDMA_ERR c, rDMA_ERR_INFO c] [768 + c] s
      ((u.wr (rDMA_ERR c) (fsets 0 [(fDMA_ERR_ADDR, d.addr / 64), (fDMA_ERR_STORE, d.addr)])).wr (rDMA_ERR_INFO c)
        (fsets 0 [(fDMA_ERR_INFO_BEAT, failAt), (fDMA_ERR_INFO_BYTES, d.bytes)])) :=
    .of_hi (.wr (.wr (b5.mono (by decide) (fun _ h => h) (fun _ h => h)))) (by
      simp only [List.mem_cons, List.not_mem_nil, or_false, rDMA_STATUS, rDMA_BYTES, rDMA_ERR, rDMA_ERR_INFO]; omega)
  have r1 := State.rd_wr_same (u.wr (rDMA_ERR c) (fsets 0 [(fDMA_ERR_ADDR, d.addr / 64), (fDMA_ERR_STORE, d.addr)])) (rDMA_ERR_INFO c)
    (fsets 0 [(fDMA_ERR_INFO_BEAT, failAt), (fDMA_ERR_INFO_BYTES, d.bytes)])
  have r2 := (State.rd_wr_other (u.wr (rDMA_ERR c) (fsets 0 [(fDMA_ERR_ADDR, d.addr / 64), (fDMA_ERR_STORE, d.addr)]))
    (fsets 0 [(fDMA_ERR_INFO_BEAT, failAt), (fDMA_ERR_INFO_BYTES, d.bytes)]) hne.1).trans (State.rd_wr_same u (rDMA_ERR c) _)
  have r3 := (State.rd_wr_other (u.wr (rDMA_ERR c) (fsets 0 [(fDMA_ERR_ADDR, d.addr / 64), (fDMA_ERR_STORE, d.addr)]))
    (fsets 0 [(fDMA_ERR_INFO_BEAT, failAt), (fDMA_ERR_INFO_BYTES, d.bytes)]) hne.2.1).trans (State.rd_wr_other u _ hne.2.2.1)
  generalize (u.wr (rDMA_ERR c) _).wr (rDMA_ERR_INFO c) _ = w at *
  obtain ⟨g1, g2, -, g4, g5, g6⟩ := dmaLeft_effect w hcc (stop := 3) (by decide) status d.tag e
  have e1 := (g4 _ hne.2.2.2.1 hne.2.2.1.symm).trans r2
  have e2 := (g4 _ hne.2.2.2.2 hne.2.1.symm).trans r1
  refine ⟨g1, g2, ?_, ?_, ?_, ?_, k.trans (g6.mono (by decide) (by simp) (fun _ h => h))⟩
  · rw [g5 _ (by decide), fld_of_rd r3, b2]
  · rw [State.fld, e1]
    simp (disch := decide)
  · rw [State.fld, e2]
    simp (disch := decide)
  · rw [State.fld, e2]
    simp (disch := decide)

end

end Sys2Proof

end

section
/-! SUPPORT. Failed descriptor fetches, interrupt messages and the DOE mailbox, and O50 (R428 to R430, R433, R434, R517, R518). -/

set_option Elab.async false

namespace Sys2Proof

open Sys2Proof.Machine

/-! ### A channel that fetches a descriptor -/

theorem dma_fails {s : State} (c : Fin 128) {a : Nat} {f : Bool} (hg : s.glb ≠ 0) (hp : (s.dmaCh c).phase = .fetch a false f) :
    (completes (.completionTimeout (.dma c)) s fun t => t.dmaState c = 3 ∧ t.dmaCh c = dma0 ∧ t.fld (rDMA_STATUS c) fDMA_STATUS_LAST = 19 ∧
      onlyIn (mEvent ||| mDma) [rGLB_HIF_CTO, rDMA_STATUS c, rDMA_ERR c, rDMA_ERR_INFO c] [993, 768 + c] s t) ∧
    completes (.poisonedCompletion (.dma c)) s fun t => t.dmaState c = 3 ∧ t.dmaCh c = dma0 ∧ t.fld (rDMA_STATUS c) fDMA_STATUS_LAST = 20 ∧
      onlyIn (mEvent ||| mDma) [rGLB_HIF_ERR, rDMA_STATUS c, rDMA_ERR c, rDMA_ERR_INFO c] [994, 768 + c] s t := by
  have e (timeout : Bool) : s.requestFail (.dma c) timeout = (s.hostFail timeout).dmaNoRead c (if timeout then dsFetchTimeout else dsFetchErr) a false := by
    have hp' : ((s.hostFail timeout).dmaCh c).phase = .fetch a false f := by rw [(touches_State.hostFail _ _).dmaCh (by decide), hp]
    unfold State.requestFail State.dmaReqFail
    simp only [hp', Bool.false_eq_true, if_false]
  have e1 := e true
  have e2 := e false
  rw [if_pos rfl] at e1
  rw [if_neg (by decide)] at e2
  have k1 := (hostFail_timeout s).1
  have k2 := (hostFail_poison s).1
  generalize s.hostFail true = u at e1 k1
  generalize s.hostFail false = w at e2 k2
  constructor
  · obtain ⟨h1, h2, h3, -, -, h6⟩ := dmaNoRead_effect u c.isLt (status := dsFetchTimeout) (by decide) a false rfl
    exact ⟨_, next_live hg e1, h1, h2, h3, (k1.mono (by decide) (by simp) (by simp)).trans (h6.mono (by decide) (by simp) (by simp))⟩
  · obtain ⟨h1, h2, h3, -, -, h6⟩ := dmaNoRead_effect w c.isLt (status := dsFetchErr) (by decide) a false rfl
    exact ⟨_, next_live hg e2, h1, h2, h3, (k2.mono (by decide) (by simp) (by simp)).trans (h6.mono (by decide) (by simp) (by simp))⟩

/-! ### Interrupt messages -/

theorem vec_setVec_same (s : State) (v : Nat) (x : Vec) : (s.setVec v x).vec v = x := SMap.get_set_same ..

theorem vec_setVec_other (s : State) {v k : Nat} (x : Vec) (h : k ≠ v) : (s.setVec v x).vec k = s.vec k := SMap.get_set_other _ _ _ _ h

/-- A message that nothing holds back is sent. -/
theorem signal_sends {s : State} {v : Nat} (hm : (s.vec v).masked = false) (hf : s.hif.fnMasked = false) (hb : s.busOk = true)
    (hmod : s.moderated v = false) : s.signal v = (s.setVec v { s.vec v with pend := false, last := some s.time }).send (.msix v) := by
  unfold State.signal
  exact if_neg (by simp [hm, hf, hb, hmod])

theorem unmask_vector {s : State} (v : Fin 2048) (hg : s.glb ≠ 0) :
    ((s.vec v).pend = true → s.hif.fnMasked = false → s.busOk = true → s.moderated v = false →
      completes (.msixUnmask (.vector v)) s fun t => t.outs = s.outs ++ [.msix v] ∧ (t.vec v).masked = false ∧ (t.vec v).pend = false ∧
        (t.vec v).last = some s.time ∧ (∀ k : Nat, k ≠ v → t.vec k = s.vec k) ∧ Touches (mOuts ||| mHif) s t) ∧
    ((s.vec v).pend = false → exec (.msixUnmask (.vector v)) s = .next (s.setVec v { s.vec v with masked := false })) := by
  have hv := vec_setVec_same s v { s.vec v with masked := false }
  constructor
  · intro hp hf hb hmod
    have hmod' : (s.setVec v { s.vec v with masked := false }).moderated v = false := by
      unfold State.moderated at hmod ⊢
      rw [hv]
      exact hmod
    have e : s.unmask (.vector v) = ((s.setVec v { s.vec v with masked := false }).setVec v
        { s.vec v with masked := false, pend := false, last := some s.time }).send (.msix v) := by
      refine (if_pos ?_).trans ((signal_sends (s := s.setVec v { s.vec v with masked := false }) ?_ hf hb hmod').trans ?_)
      · rw [hv]
        exact hp
      · rw [hv]
      · rw [hv]
        rfl
    have hw := vec_setVec_same (s.setVec v { s.vec v with masked := false }) v { s.vec v with masked := false, pend := false, last := some s.time }
    refine ⟨_, next_live hg e, rfl, ?_, ?_, ?_, fun k hk => ?_, ?_⟩
    · exact congrArg Vec.masked hw
    · exact congrArg Vec.pend hw
    · exact congrArg Vec.last hw
    · exact (vec_setVec_other _ _ hk).trans (vec_setVec_other _ _ hk)
    · exact .andThen (((touches_State.setVec _ _ _).mono (by decide)).andThen (touches_State.setVec _ _ _)) (touches_State.send _ _)
  · intro hp
    refine next_live hg (if_neg ?_)
    rw [hv, hp]
    decide

theorem unmask_all {s : State} (hg : s.glb ≠ 0) (hv : s.hif.vecs = []) :
    exec (.msixUnmask .function) s = .next (s.updHif fun h => { h with fnMasked := false }) ∧
    (s.evt.lostSince = 0 → exec (.msixUnmask .busMaster) s = .next (s.updHif fun h => { h with bme := true })) := by
  refine ⟨next_live hg ?_, fun hl => next_live hg ?_⟩
  · unfold State.unmask State.sendPending
    exact congrArg (List.foldl _ _) hv
  · have e : (s.updHif fun h => { h with bme := true }).lostRecord = s.updHif fun h => { h with bme := true } := by
      unfold State.lostRecord
      refine if_neg ?_
      rw [(touches_State.updHif _ _).evt (by decide), hl]
      simp
    unfold State.unmask State.sendPending
    simp only [e]
    exact congrArg (List.foldl _ _) hv

theorem moderation_ends {s : State} (v : Fin 2048) (hg : s.glb ≠ 0) :
    ((s.vec v).last = none → exec (.msixModerationEnd v) s = .next s) ∧
    (∀ t0, (s.vec v).last = some t0 → (s.vec v).pend = true → (s.vec v).masked = false → s.hif.fnMasked = false → s.busOk = true →
      s.held = false → completes (.msixModerationEnd v) s fun t => t.time = max s.time (t0 + s.usTicks (s.fld rEVT_CTRL fEVT_CTRL_MOD_US)) ∧
        t.outs = s.outs ++ [.msix v] ∧ (t.vec v).pend = false ∧ Touches (mOuts ||| mTime ||| mHif) s t) := by
  refine ⟨fun h => next_live hg ?_, fun t0 h hp hm hf hb hh => ?_⟩
  · unfold State.moderationEnd
    rw [h]
  · obtain ⟨w, hw⟩ : ∃ w, w = s.reach (t0 + s.usTicks (s.fld rEVT_CTRL fEVT_CTRL_MOD_US)) := ⟨_, rfl⟩
    have ht : w.time = max s.time (t0 + s.usTicks (s.fld rEVT_CTRL fEVT_CTRL_MOD_US)) := hw ▸ State.reach_time_running hh _
    have k : Touches mTime s w := hw ▸ touches_State.reach _ _
    have hr := k.regs (by decide)
    have hh := k.hif (by decide)
    have hvec : w.vec v = s.vec v := by rw [State.vec, hh, State.vec]
    have hmod : w.moderated v = false := by
      unfold State.moderated
      rw [hvec, h]
      simp only [ht, State.fld_congr hr, State.usTicks, State.tickFs]
      simp
    have e : s.moderationEnd v = (w.setVec v { w.vec v with pend := false, last := some w.time }).send (.msix v) := by
      unfold State.moderationEnd
      rw [h]
      dsimp only
      rw [← hw, hvec, if_pos hp, signal_sends (by rw [hvec, hm]) (by rw [hh, hf]) (by rw [State.busOk, hh, State.fld_congr hr]; exact hb) hmod, hvec]
    refine ⟨_, next_live hg e, ht, ?_, congrArg Vec.pend (vec_setVec_same w v _), ?_⟩
    · exact congrArg (· ++ [Out.msix v]) (k.outs (by decide))
    · exact .andThen ((k.mono (by decide)).andThen (touches_State.setVec _ _ _)) (touches_State.send _ _)

/-! ### The DOE mailbox -/

theorem doe_refused {s : State} {len : Nat} {busy : Bool} (h : 4096 < len ∨ busy = true) (f : State → State) : s.doe len busy f = s.send (.doe .error) :=
  if_pos (by obtain h | h := h <;> simp [h])

theorem doe_taken {len : Nat} (h : len ≤ 4096) (s : State) (f : State → State) : s.doe len false f = f s := if_neg (by simp; omega)

theorem doe_errors (req : List Byte) (busy sg : Bool) (off len : Fin 65536) (ix : Fin 256) {s : State} (hg : s.glb ≠ 0)
    (h : 4096 < req.length ∨ busy = true) : ∀ i ∈ [Instr.doeDiscovery req busy, .cdatTableAccess req busy, .getVersion req busy, .getCapabilities req busy,
        .negotiateAlgorithms req busy, .getDigests req busy, .getCertificate req busy off len, .challenge req busy,
        .getMeasurements req busy ix sg, .spdmUnsupportedRequest req busy], exec i s = .next (s.send (.doe .error)) := by
  intro i hi
  simp only [List.mem_cons, List.not_mem_nil, or_false] at hi
  obtain rfl | rfl | rfl | rfl | rfl | rfl | rfl | rfl | rfl | rfl := hi <;> exact next_live hg (doe_refused h _)

theorem spdm_effect (u : State) (a : DoeAnswer) : (u.spdm a).outs = u.outs ++ [.doe a] ∧ (u.spdm a).stk = u.stk ∧
    (u.spdm a).fld rSEC_SPDM fSEC_SPDM_REQUESTS = (u.fld rSEC_SPDM fSEC_SPDM_REQUESTS + 1) % 2 ^ 32 ∧
    onlyIn (mRegs ||| mOuts) [rSEC_SPDM] [] u (u.spdm a) := by
  unfold State.spdm
  have k : onlyIn (mRegs ||| mOuts) [rSEC_SPDM] [] u (u.addMod rSEC_SPDM fSEC_SPDM_REQUESTS 1) := .of_hi (.addMod (.refl _ _ _ _)) (by decide)
  have hf := State.fld_addMod_self u rSEC_SPDM fSEC_SPDM_REQUESTS 1 (by decide)
  have ho : (u.addMod rSEC_SPDM fSEC_SPDM_REQUESTS 1).outs = u.outs := (touches_State.addMod _ _ _ _).outs (by decide)
  have hk : (u.addMod rSEC_SPDM fSEC_SPDM_REQUESTS 1).stk = u.stk := (touches_State.addMod _ _ _ _).stk (by decide)
  generalize u.addMod rSEC_SPDM fSEC_SPDM_REQUESTS 1 = w at *
  refine ⟨?_, ?_, ?_, .send k _⟩
  · rw [State.send, ho]
  · rw [State.send_stk, hk]
  · rw [State.fld_congr (State.send_regs _ _), hf]

/-- An SPDM request whose own work leaves registers and messages alone is answered and counted. -/
theorem spdm_answers {i : Instr} {s u : State} {a : DoeAnswer} (e : exec i s = .next (u.spdm a)) {m m' : Nat} (k : Touches m s u)
    (hm : m &&& m' = m := by decide) (hm' : (mRegs ||| mOuts) &&& m' = mRegs ||| mOuts := by decide)
    (h1 : m.testBit 1 = false := by decide) (h6 : m.testBit 6 = false := by decide) :
    completes i s fun t => t.outs = s.outs ++ [.doe a] ∧ t.stk = u.stk ∧
      t.fld rSEC_SPDM fSEC_SPDM_REQUESTS = (s.fld rSEC_SPDM fSEC_SPDM_REQUESTS + 1) % 2 ^ 32 ∧ onlyIn m' [rSEC_SPDM] [] s t := by
  obtain ⟨e1, e2, e3, e4⟩ := spdm_effect u a
  have hr := k.regs h1
  refine ⟨_, e, ?_, e2, ?_, (onlyIn.other (.refl _ _ _ _) k hm hr).trans (e4.mono hm' (fun _ h => h) (fun _ h => h))⟩
  · rw [e1, k.outs h6]
  · rw [e3, State.fld_congr hr]

theorem touches_spdmNote (s : State) (bs : List Byte) : Touches mStk s (s.spdmNote bs) :=
  touches_State.updStk _ _ (FusesOnlyBurn.of_eq rfl rfl rfl rfl rfl)

theorem completes.imp {i : Instr} {s : State} {P Q : State → Prop} (h : completes i s P) (f : ∀ t, P t → Q t) : completes i s Q := by
  obtain ⟨t, e, ht⟩ := h
  exact ⟨t, e, f t ht⟩

/-- The state after an SPDM session begins with a request. -/
theorem getVersion_answer {req : List Byte} {s : State} (hg : s.glb ≠ 0) (hl : req.length ≤ 4096) :
    completes (.getVersion req false) s fun t => t.outs = s.outs ++ [.doe (.spdmVersion 1 2)] ∧ t.stk = { s.stk with spdm := req } ∧
      t.fld rSEC_SPDM fSEC_SPDM_REQUESTS = (s.fld rSEC_SPDM fSEC_SPDM_REQUESTS + 1) % 2 ^ 32 ∧
      onlyIn (mRegs ||| mOuts ||| mStk) [rSEC_SPDM] [] s t := by
  have k : Touches mStk s ((s.updStk fun k => { k with spdm := [] }).spdmNote req) :=
    (touches_State.updStk _ _ (FusesOnlyBurn.of_eq rfl rfl rfl rfl rfl)).andThen (touches_spdmNote _ _)
  have e : exec (.getVersion req false) s = .next (((s.updStk fun k => { k with spdm := [] }).spdmNote req).spdm (.spdmVersion 1 2)) :=
    next_live hg (doe_taken hl _ _)
  exact spdm_answers e k

theorem getCapabilities_answer {req : List Byte} {s : State} (hg : s.glb ≠ 0) (hl : req.length ≤ 4096) :
    completes (.getCapabilities req false) s fun t => t.outs = s.outs ++ [.doe (.spdmCapabilities ["CERT", "CHAL", "MEAS_SIG"])] ∧
      t.stk = { s.stk with spdm := s.stk.spdm ++ req } ∧ onlyIn (mRegs ||| mOuts ||| mStk) [rSEC_SPDM] [] s t := by
  have e : exec (.getCapabilities req false) s = .next ((s.spdmNote req).spdm (.spdmCapabilities ["CERT", "CHAL", "MEAS_SIG"])) :=
    next_live hg (doe_taken hl _ _)
  exact (spdm_answers e (touches_spdmNote _ _)).imp fun _ ⟨h1, h2, _, h4⟩ => ⟨h1, h2, h4⟩

/-- A request that notes its bytes `bs` and gives the answer `a`. -/
theorem noted_answer {i : Instr} {s : State} {bs : List Byte} {a : DoeAnswer} (e : exec i s = .next ((s.spdmNote bs).spdm a)) :
    completes i s fun t => t.outs = s.outs ++ [.doe a] ∧ onlyIn (mRegs ||| mOuts ||| mStk) [rSEC_SPDM] [] s t :=
  (spdm_answers e (touches_spdmNote _ _)).imp fun _ ⟨h1, _, _, h4⟩ => ⟨h1, h4⟩

/-- A request whose answer is signed. -/
theorem signed_answer {i : Instr} {s : State} {bs : List Byte} {a : DoeAnswer} (e : exec i s = .next ((s.spdmNote bs).fresh.2.spdm a)) :
    completes i s fun t => t.outs = s.outs ++ [.doe a] ∧ onlyIn (mRegs ||| mOuts ||| mFreeCtr ||| mStk) [rSEC_SPDM] [] s t :=
  (spdm_answers e (m := mFreeCtr ||| mStk) (((touches_spdmNote s bs).mono (by decide)).andThen (touches_State.fresh _))).imp
    fun _ ⟨h1, _, _, h4⟩ => ⟨h1, h4⟩

theorem getMeasurements_answer {req : List Byte} (ix : Fin 256) (sg : Bool) {s : State} (hg : s.glb ≠ 0) (hl : req.length ≤ 4096) :
    completes (.getMeasurements req false ix sg) s fun t =>
      (∃ sig, t.outs = s.outs ++ [.doe (.spdmMeasurements (((upTo 6).map fun i => (i + 1, SMap.get 0 s.stk.meas (i + 1))).filter
        fun b => ix.val == 255 || b.1 == ix.val) sig)] ∧ (sig = none ↔ sg = false)) ∧
      onlyIn (mRegs ||| mOuts ||| mFreeCtr ||| mStk) [rSEC_SPDM] [] s t := by
  cases sg with
  | false =>
    have e : exec (.getMeasurements req false ix false) s = .next ((s.spdmNote (req ++ measBytes (s.measBlocks ix))).spdm
        (.spdmMeasurements (s.measBlocks ix) none)) := next_live hg (doe_taken hl _ _)
    exact (noted_answer e).imp fun t ⟨h1, h2⟩ =>
      ⟨⟨none, h1, by simp⟩, h2.mono (by decide) (fun _ h => h) (fun _ h => h)⟩
  | true =>
    have e : exec (.getMeasurements req false ix true) s = .next ((s.spdmNote (req ++ measBytes (s.measBlocks ix))).fresh.2.spdm
        (.spdmMeasurements (s.measBlocks ix) (some (Config.idSign s.freeCtr (s.stk.spdm ++ (req ++ measBytes (s.measBlocks ix))))))) :=
      next_live hg (doe_taken hl _ _)
    exact (signed_answer e).imp fun t ⟨h1, h2⟩ => ⟨⟨some _, h1, by simp⟩, h2⟩

theorem spdmUnsupported_answer {req : List Byte} {s : State} (hg : s.glb ≠ 0) (hl : req.length ≤ 4096) :
    completes (.spdmUnsupportedRequest req false) s fun t => t.outs.getLast? = some (.doe .spdmUnsupported) ∧
      t.fld rSEC_SPDM fSEC_SPDM_ERRORS = satN 16 (s.fld rSEC_SPDM fSEC_SPDM_ERRORS + 1) ∧
      t.fld rSEC_SPDM fSEC_SPDM_REQUESTS = (s.fld rSEC_SPDM fSEC_SPDM_REQUESTS + 1) % 2 ^ 32 ∧
      onlyIn (mEvent ||| mStk) [rSEC_SPDM] [985] s t := by
  have e : exec (.spdmUnsupportedRequest req false) s =
      .next ((((s.spdmNote req).addSat rSEC_SPDM fSEC_SPDM_ERRORS 1).raiseLim 1000000 985).spdm .spdmUnsupported) := next_live hg (doe_taken hl _ _)
  have hr : (s.spdmNote req).regs = s.regs := (touches_spdmNote s req).regs (by decide)
  have k1 : onlyIn (mEvent ||| mStk) [rSEC_SPDM] [985] s (s.spdmNote req) := .other (.refl _ _ _ _) (touches_spdmNote _ _) (by decide) hr
  generalize s.spdmNote req = u at *
  have k2 : onlyIn (mEvent ||| mStk) [rSEC_SPDM] [985] s ((u.addSat rSEC_SPDM fSEC_SPDM_ERRORS 1).raiseLim 1000000 985) :=
    .raiseLim (.of_hi (.addSat (k1.mono (by decide) (fun _ h => h) (fun _ h => h))) (by decide))
  have f1 : ((u.addSat rSEC_SPDM fSEC_SPDM_ERRORS 1).raiseLim 1000000 985).fld rSEC_SPDM fSEC_SPDM_ERRORS = satN 16 (s.fld rSEC_SPDM fSEC_SPDM_ERRORS + 1) := by
    rw [← State.fld_congr hr]
    simp (disch := decide)
  have f2 : ((u.addSat rSEC_SPDM fSEC_SPDM_ERRORS 1).raiseLim 1000000 985).fld rSEC_SPDM fSEC_SPDM_REQUESTS = s.fld rSEC_SPDM fSEC_SPDM_REQUESTS := by
    rw [← State.fld_congr hr]
    simp (disch := decide)
  generalize (u.addSat rSEC_SPDM fSEC_SPDM_ERRORS 1).raiseLim 1000000 985 = w at *
  obtain ⟨e1, e2, e3, e4⟩ := spdm_effect w .spdmUnsupported
  refine ⟨_, e, ?_, ?_, ?_, k2.trans (e4.mono (by decide) (fun _ h => h) (by simp))⟩
  · rw [e1, List.getLast?_concat]
  · rw [State.spdm, State.fld_congr (State.send_regs _ _), State.fld_addMod_apart _ _ _ _ _ _ (by decide), f1]
  · rw [e3, f2]

theorem bias_fails {s : State} (b : Nat) (hg : s.glb ≠ 0) :
    exec (.completionTimeout (.bias b)) s = .next ((s.addSat rGLB_HIF_CTO fGLB_HIF_CTO_CTO_CACHE 1).raiseLim 1000 993 |>.send (.aer true)) ∧
    exec (.poisonedCompletion (.bias b)) s = .next ((s.addSat rGLB_HIF_ERR fGLB_HIF_ERR_POISON_RX 1).raiseLim 1000 994 |>.send (.aer false)) := by
  refine ⟨next_live hg ?_, next_live hg ?_⟩
  · unfold State.requestFail
    exact if_pos rfl
  · unfold State.requestFail State.hostFail
    dsimp only
    rw [if_neg (by decide), if_neg (by decide)]

theorem negotiateAlgorithms_answer {req : List Byte} {s : State} (hg : s.glb ≠ 0) (hl : req.length ≤ 4096) :
    completes (.negotiateAlgorithms req false) s fun t => t.outs = s.outs ++ [.doe (.spdmAlgorithms ["ECDSA P-384", "SHA-384"])] ∧
      onlyIn (mRegs ||| mOuts ||| mStk) [rSEC_SPDM] [] s t := by
  have e : exec (.negotiateAlgorithms req false) s = .next ((s.spdmNote req).spdm (.spdmAlgorithms ["ECDSA P-384", "SHA-384"])) :=
    next_live hg (doe_taken hl _ _)
  exact noted_answer e

theorem getDigests_answer {req : List Byte} {s : State} (hg : s.glb ≠ 0) (hl : req.length ≤ 4096) :
    completes (.getDigests req false) s fun t => t.outs = s.outs ++ [.doe (.spdmDigests [Config.sha384 Config.certChain])] ∧
      onlyIn (mRegs ||| mOuts ||| mStk) [rSEC_SPDM] [] s t := by
  have e : exec (.getDigests req false) s = .next ((s.spdmNote (req ++ certDigests.flatMap (leBytes 48))).spdm (.spdmDigests certDigests)) :=
    next_live hg (doe_taken hl _ _)
  exact noted_answer e

theorem getCertificate_answer {req : List Byte} (off len : Fin 65536) {s : State} (hg : s.glb ≠ 0) (hl : req.length ≤ 4096) :
    completes (.getCertificate req false off len) s fun t => t.outs = s.outs ++ [.doe (.spdmCertificate ((Config.certChain.drop off).take len))] ∧
      onlyIn (mRegs ||| mOuts ||| mStk) [rSEC_SPDM] [] s t := by
  have e : exec (.getCertificate req false off len) s = .next ((s.spdmNote (req ++ (Config.certChain.drop off).take len)).spdm
      (.spdmCertificate ((Config.certChain.drop off).take len))) := next_live hg (doe_taken hl _ _)
  exact noted_answer e

theorem challenge_answer {req : List Byte} {s : State} (hg : s.glb ≠ 0) (hl : req.length ≤ 4096) :
    completes (.challenge req false) s fun t => t.outs = s.outs ++ [.doe (.spdmChallenge (Config.idSign s.freeCtr (s.stk.spdm ++ req)))] ∧
      onlyIn (mRegs ||| mOuts ||| mFreeCtr ||| mStk) [rSEC_SPDM] [] s t := by
  have e : exec (.challenge req false) s = .next ((s.spdmNote req).fresh.2.spdm (.spdmChallenge (Config.idSign s.freeCtr (s.stk.spdm ++ req)))) :=
    next_live hg (doe_taken hl _ _)
  exact signed_answer e

/-- Settles O50, requester by requester and message by message. -/
theorem failuresMessagesAndDoe : Obligations.FailuresMessagesAndDoe := by
  unfold Obligations.FailuresMessagesAndDoe
  refine ⟨fun b s hg => bias_fails b hg, fun u j s hg hj _ => ⟨?timeout, ?poison⟩, fun o s hg hp => plan_fails o hg hp,
    fun n len s hg h => table_fails n hg h, fun c a f s hg hp => dma_fails c hg hp, fun v s hg => unmask_vector v hg, fun s hg hv => unmask_all hg hv,
    fun v s hg => moderation_ends v hg, fun req busy sg off len ix s hg h => doe_errors req busy sg off len ix hg h,
    fun req s hg hl => ⟨next_live hg (doe_taken hl _ _), next_live hg (doe_taken hl _ _)⟩, fun req off len ix sg s hg hl =>
    ⟨getVersion_answer hg hl, getCapabilities_answer hg hl, negotiateAlgorithms_answer hg hl, getDigests_answer hg hl, getCertificate_answer off len hg hl,
      challenge_answer hg hl, getMeasurements_answer ix sg hg hl, spdmUnsupported_answer hg hl⟩⟩
  case timeout =>
    obtain ⟨t, e, h1, h2, h3, h4, h5⟩ := codec_fails hg hj true (i := .completionTimeout (.codec u)) rfl
    exact ⟨t, e, h1, h2, h3, (h4 _).trans (hostFail_timeout s).2, h5⟩
  case poison =>
    obtain ⟨t, e, h1, h2, h3, h4, h5⟩ := codec_fails hg hj false (i := .poisonedCompletion (.codec u)) rfl
    exact ⟨t, e, h1, h2, h3, (h4 _).trans (hostFail_poison s).2, h5⟩

end Sys2Proof

end

section
/-! SUPPORT. The Stoker's queue: how a command is taken and how it ends (R502 to R504). -/

set_option Elab.async false

namespace Sys2Proof

open Sys2Proof.Machine

/-! ### The end of a command -/

/-- The registers that the end of a command with ticket `k` writes. -/
abbrev stkRegs (k : Nat) : List Nat := [rSTK_QUEUE, rSTK_RESULT (k % 16), rSTK_STATUS]

theorem stkRegs_hi (k : Nat) : ∀ a ∈ stkRegs k, 0x1000 ≤ a := by
  simp only [stkRegs, List.mem_cons, List.not_mem_nil, or_false, rSTK_QUEUE, rSTK_RESULT, rSTK_STATUS]
  omega

theorem safePoint_effect (s : State) {t : State} (e : s.safePoint = t) :
    s.fld rSTK_STATUS fSTK_STATUS_MAX_SPAN ≤ t.fld rSTK_STATUS fSTK_STATUS_MAX_SPAN ∧
      t.fld rSTK_STATUS fSTK_STATUS_MAX_SPAN ≤ max (s.fld rSTK_STATUS fSTK_STATUS_MAX_SPAN) 2048 ∧
      onlyIn (mRegs ||| mFreeCtr) [rSTK_STATUS] [] s t := by
  subst e
  have hf : s.fresh.2.regs = s.regs := (touches_State.fresh s).regs (by decide)
  have k : onlyIn (mRegs ||| mFreeCtr ||| mGlb) [rSTK_STATUS] [] s s.fresh.2 := .other (.refl _ _ _ _) (touches_State.fresh s) (by decide) hf
  have h1 := State.fld_lt s rSTK_STATUS fSTK_STATUS_MAX_SPAN
  have h2 : Config.stkSpan s.fresh.1 % 2049 < 2049 := Nat.mod_lt _ (by decide)
  unfold State.safePoint
  rw [State.fld_setFld_self _ _ _ _ (by decide)]
  generalize Config.stkSpan s.fresh.1 % 2049 = n at *
  generalize s.fld rSTK_STATUS fSTK_STATUS_MAX_SPAN = x at *
  have h3 : max x n < 2 ^ 16 := by
    have : x < 2 ^ 16 := h1
    omega
  rw [show max x n % 2 ^ fSTK_STATUS_MAX_SPAN.w = max x n from Nat.mod_eq_of_lt h3]
  exact ⟨by omega, by omega, .of_hi (.setFld k) (by decide)⟩

/-- The state `t` after a command's end in the state `u`. -/
theorem stkEnd_effect (u : State) (c : StkCmd) (result reason detail : Nat) {t : State} (e : u.stkEnd c.ticket result reason detail = t) :
    stkEnds c result reason detail u t ∧ t.stk = { u.stk with queue := u.stk.queue.filter fun e => e.ticket != c.ticket } ∧
      onlyIn (mEvent ||| mFreeCtr ||| mStk) (stkRegs c.ticket) [if result = 3 then 976 else 977] u t := by
  unfold State.stkEnd at e
  dsimp only at e
  obtain ⟨p1, p2, p3⟩ := safePoint_effect u rfl
  have p4 : u.safePoint.stk = u.stk := p3.1.stk (by decide)
  have k1 : onlyIn (mEvent ||| mFreeCtr ||| mStk ||| mGlb) (stkRegs c.ticket) [if result = 3 then 976 else 977] u u.safePoint :=
    p3.mono (by decide) (by simp [stkRegs]) (by simp)
  have hq : u.safePoint.rd rSTK_QUEUE = u.rd rSTK_QUEUE := p3.rd_apart (by decide) (.inr (by decide)) (by simp)
  generalize u.safePoint = v at *
  have k2 : onlyIn (mEvent ||| mFreeCtr ||| mStk ||| mGlb) (stkRegs c.ticket) [if result = 3 then 976 else 977] u
      (v.updStk fun k => { k with queue := k.queue.filter fun c_1 => c_1.ticket != c.ticket }) :=
    .other k1 (touches_State.updStk _ _ (FusesOnlyBurn.of_eq rfl rfl rfl rfl rfl)) (by decide) (State.updStk_regs _ _)
  have s2 : (v.updStk fun k => { k with queue := k.queue.filter fun c_1 => c_1.ticket != c.ticket }).stk =
      { u.stk with queue := u.stk.queue.filter fun e => e.ticket != c.ticket } := by rw [State.updStk_stk, p4]
  have r2 : ∀ a, (v.updStk fun k => { k with queue := k.queue.filter fun c_1 => c_1.ticket != c.ticket }).rd a = v.rd a :=
    State.rd_congr (State.updStk_regs _ _)
  generalize v.updStk _ = w at *
  have k3 : onlyIn (mEvent ||| mFreeCtr ||| mStk) (stkRegs c.ticket) [if result = 3 then 976 else 977] u
      ((w.wr (rSTK_RESULT (c.ticket % 16)) (fsets 0 [(fSTK_RESULT_TICKET, c.ticket), (fSTK_RESULT_RESULT, result), (fSTK_RESULT_REASON, reason),
        (fSTK_RESULT_DETAIL, detail)])).setFlds rSTK_QUEUE [(fSTK_QUEUE_DONE_TICKET, c.ticket), (fSTK_QUEUE_DEPTH, u.fld rSTK_QUEUE fSTK_QUEUE_DEPTH - 1)]) :=
    .of_hi (.setFlds (.wr k2 (by simp [stkRegs])) (by simp [stkRegs])) (stkRegs_hi _)
  have hne : rSTK_RESULT (c.ticket % 16) ≠ rSTK_QUEUE ∧ rSTK_RESULT (c.ticket % 16) ≠ rSTK_STATUS ∧ 0x20000 ≤ rSTK_RESULT (c.ticket % 16) := by
    simp only [rSTK_RESULT, rSTK_QUEUE, rSTK_STATUS]
    omega
  have s3 := ((touches_State.setFlds (w.wr (rSTK_RESULT (c.ticket % 16)) (fsets 0 [(fSTK_RESULT_TICKET, c.ticket), (fSTK_RESULT_RESULT, result),
    (fSTK_RESULT_REASON, reason), (fSTK_RESULT_DETAIL, detail)])) rSTK_QUEUE [(fSTK_QUEUE_DONE_TICKET, c.ticket), (fSTK_QUEUE_DEPTH,
      u.fld rSTK_QUEUE fSTK_QUEUE_DEPTH - 1)]).stk (by decide)).trans (((touches_State.wr w _ _).stk (by decide)).trans s2)
  have r3 := (State.rd_setFlds_other (w.wr (rSTK_RESULT (c.ticket % 16)) (fsets 0 [(fSTK_RESULT_TICKET, c.ticket), (fSTK_RESULT_RESULT, result),
    (fSTK_RESULT_REASON, reason), (fSTK_RESULT_DETAIL, detail)])) [(fSTK_QUEUE_DONE_TICKET, c.ticket), (fSTK_QUEUE_DEPTH,
      u.fld rSTK_QUEUE fSTK_QUEUE_DEPTH - 1)] hne.1).trans (State.rd_wr_same _ _ _)
  have f3 : ((w.wr (rSTK_RESULT (c.ticket % 16)) (fsets 0 [(fSTK_RESULT_TICKET, c.ticket), (fSTK_RESULT_RESULT, result), (fSTK_RESULT_REASON, reason),
        (fSTK_RESULT_DETAIL, detail)])).setFlds rSTK_QUEUE [(fSTK_QUEUE_DONE_TICKET, c.ticket), (fSTK_QUEUE_DEPTH, u.fld rSTK_QUEUE fSTK_QUEUE_DEPTH - 1)]).fld
      rSTK_QUEUE fSTK_QUEUE_DONE_TICKET = c.ticket % 2 ^ 16 := by simp (disch := decide)
  have hd := State.fld_lt u rSTK_QUEUE fSTK_QUEUE_DEPTH
  have d3 : ((w.wr (rSTK_RESULT (c.ticket % 16)) (fsets 0 [(fSTK_RESULT_TICKET, c.ticket), (fSTK_RESULT_RESULT, result), (fSTK_RESULT_REASON, reason),
        (fSTK_RESULT_DETAIL, detail)])).setFlds rSTK_QUEUE [(fSTK_QUEUE_DONE_TICKET, c.ticket), (fSTK_QUEUE_DEPTH, u.fld rSTK_QUEUE fSTK_QUEUE_DEPTH - 1)]).fld
      rSTK_QUEUE fSTK_QUEUE_DEPTH = u.fld rSTK_QUEUE fSTK_QUEUE_DEPTH - 1 := by
    simp (disch := decide)
    have : u.fld rSTK_QUEUE fSTK_QUEUE_DEPTH < 32 := hd
    omega
  have m3 : ((w.wr (rSTK_RESULT (c.ticket % 16)) (fsets 0 [(fSTK_RESULT_TICKET, c.ticket), (fSTK_RESULT_RESULT, result), (fSTK_RESULT_REASON, reason),
        (fSTK_RESULT_DETAIL, detail)])).setFlds rSTK_QUEUE [(fSTK_QUEUE_DONE_TICKET, c.ticket), (fSTK_QUEUE_DEPTH, u.fld rSTK_QUEUE fSTK_QUEUE_DEPTH - 1)]).rd
      rSTK_STATUS = v.rd rSTK_STATUS := by
    rw [State.rd_setFlds_other _ _ (by decide), State.rd_wr_other _ _ hne.2.1.symm, r2]
  generalize (w.wr _ _).setFlds _ _ = x at *
  subst e
  have rd (a : Nat) (ha : 0x20000 ≤ a) : (x.raise (if result = 3 then 976 else 977)).rd a = x.rd a :=
    State.rd_raise_other _ _ _ _ _ _ (by split <;> omega)
  have hk : (x.raise (if result = 3 then 976 else 977)).stk = { u.stk with queue := u.stk.queue.filter fun e => e.ticket != c.ticket } :=
    ((touches_State.raise _ _ _ _ _).stk (by decide)).trans s3
  refine ⟨⟨by rw [hk], ?_, ?_, ?_, ?_, ?_⟩, hk, .raise k3⟩
  · rw [rd _ hne.2.2, r3]
  · rw [fld_of_rd (rd _ (by decide)), f3]
  · rw [fld_of_rd (rd _ (by decide)), d3]
  · rw [fld_of_rd (rd _ (by decide)), fld_of_rd m3]
    exact p1
  · rw [fld_of_rd (rd _ (by decide)), fld_of_rd m3]
    exact p2

/-- What a command's end needs to know of the state before the command. -/
theorem stkEnds_of {c : StkCmd} {result reason detail : Nat} {s u t : State} (h : stkEnds c result reason detail u t) (hq : u.stk.queue = s.stk.queue)
    (h1 : u.rd rSTK_QUEUE = s.rd rSTK_QUEUE) (h2 : u.rd rSTK_STATUS = s.rd rSTK_STATUS) : stkEnds c result reason detail s t := by
  unfold stkEnds at h ⊢
  rwa [hq, fld_of_rd h1, fld_of_rd h2] at h

end Sys2Proof

end

section
/-! SUPPORT. The Stoker's queue and the commands that touch no fuse (R502 to R508). -/

set_option Elab.async false

namespace Sys2Proof

open Sys2Proof.Machine

/-! ### A write of STK_CMD and of STK_CANCEL -/

theorem dropStaged_rd (s : State) (p : Path) (a b : Nat) : (s.dropStaged p a).rd b = s.rd b := State.rd_congr (dropStaged_same s p a).1 b

theorem stkCmd_refused {v : Word} {s : State} (h : s.windowOpen rSTK_CMD = true)
    (hc : fget v fSTK_CMD_CMD = 0 ∨ 8 < fget v fSTK_CMD_CMD ∨ 16 ≤ s.stk.queue.length ∨ (s.bootHalt = true ∧ fget v fSTK_CMD_CMD ≠ 3)) :
    exec (.stkCmdQueue v) s = .next ((s.dropStaged .host rSTK_CMD).addSat rSTK_QUEUE fSTK_QUEUE_REFUSED 1) := by
  refine next_hostWr_open h rfl ?_
  unfold State.wrStkCmd
  have hb : (s.dropStaged .host rSTK_CMD).bootHalt = s.bootHalt := by
    unfold State.bootHalt State.glb
    rw [fld_of_rd (dropStaged_rd _ _ _ _), fld_of_rd (dropStaged_rd _ _ _ _)]
  rw [hb, (touches_State.dropStaged s _ _).stk (by decide)]
  refine if_pos ?_
  obtain h | h | h | h := hc
  · simp [h]
  · simp [h]
  · simp [h]
  · simp [h.1, h.2]

theorem stkCmd_queued {v : Word} {c k : Nat} {s : State} (h : s.windowOpen rSTK_CMD = true) (hv : fget v fSTK_CMD_CMD = c) (h1 : 1 ≤ c) (h8 : c ≤ 8)
    (hl : s.stk.queue.length < 16) (hb : s.bootHalt = false ∨ c = 3) (hk : s.fld rSTK_QUEUE fSTK_QUEUE_NEXT_TICKET = k) :
    completes (.stkCmdQueue v) s fun t =>
        t.stk = { s.stk with queue := s.stk.queue ++ [⟨k, c, (upTo 4).map fun i => s.rd (rSTK_ARG i), false⟩] } ∧
        t.fld rSTK_QUEUE fSTK_QUEUE_NEXT_TICKET = (k + 1) % 2 ^ 16 ∧ t.fld (rSTK_RESULT (k % 16)) fSTK_RESULT_TICKET = k ∧
        t.fld (rSTK_RESULT (k % 16)) fSTK_RESULT_RESULT = 1 ∧
        onlyIn (mRegs ||| mStaged ||| mStk) [rSTK_QUEUE, rSTK_RESULT (k % 16)] [] s t := by
  have hrd (a : Nat) : (s.dropStaged .host rSTK_CMD).rd a = s.rd a := dropStaged_rd _ _ _ _
  have hstk : (s.dropStaged .host rSTK_CMD).stk = s.stk := (touches_State.dropStaged s _ _).stk (by decide)
  have hk16 : k < 2 ^ 16 := hk ▸ State.fld_lt s rSTK_QUEUE fSTK_QUEUE_NEXT_TICKET
  have hbh : (s.dropStaged .host rSTK_CMD).bootHalt = s.bootHalt := by
    unfold State.bootHalt State.glb
    rw [fld_of_rd (hrd _), fld_of_rd (hrd _)]
  have e : exec (.stkCmdQueue v) s = .next (((((s.dropStaged .host rSTK_CMD).updStk fun q => { q with queue := q.queue ++ [⟨k, c, (upTo 4).map fun i =>
      s.rd (rSTK_ARG i), false⟩] }).addMod rSTK_QUEUE fSTK_QUEUE_NEXT_TICKET 1).addMod rSTK_QUEUE fSTK_QUEUE_DEPTH 1).wr (rSTK_RESULT (k % 16))
        (fsets 0 [(fSTK_RESULT_TICKET, k), (fSTK_RESULT_RESULT, 1)])) := by
    refine next_hostWr_open h rfl ?_
    unfold State.wrStkCmd
    simp only [hv, hstk, fld_of_rd (hrd _), hk, hrd, hbh]
    refine if_neg ?_
    simp only [Bool.or_eq_true, Bool.and_eq_true, decide_eq_true_eq, bne_iff_ne, ne_eq, not_or, not_and, Decidable.not_not]
    refine ⟨⟨⟨by omega, by omega⟩, by omega⟩, fun hh => ?_⟩
    rw [hh] at hb
    simpa using hb
  have k1 : onlyIn (mRegs ||| mStaged ||| mStk ||| mGlb) [rSTK_QUEUE, rSTK_RESULT (k % 16)] [] s ((s.dropStaged .host rSTK_CMD).updStk fun q =>
      { q with queue := q.queue ++ [⟨k, c, (upTo 4).map fun i => s.rd (rSTK_ARG i), false⟩] }) :=
    .other (.dropStaged (.refl _ _ _ _)) (touches_State.updStk _ _ (FusesOnlyBurn.of_eq rfl rfl rfl rfl rfl)) (by decide) (State.updStk_regs _ _)
  have s1 : ((s.dropStaged .host rSTK_CMD).updStk fun q => { q with queue := q.queue ++ [⟨k, c, (upTo 4).map fun i => s.rd (rSTK_ARG i), false⟩] }).stk =
      { s.stk with queue := s.stk.queue ++ [⟨k, c, (upTo 4).map fun i => s.rd (rSTK_ARG i), false⟩] } := by rw [State.updStk_stk, hstk]
  have f1 : ((s.dropStaged .host rSTK_CMD).updStk fun q => { q with queue := q.queue ++ [⟨k, c, (upTo 4).map fun i => s.rd (rSTK_ARG i), false⟩] }).fld
      rSTK_QUEUE fSTK_QUEUE_NEXT_TICKET = k := by rw [State.fld_congr (State.updStk_regs _ _), fld_of_rd (hrd _), hk]
  generalize (s.dropStaged .host rSTK_CMD).updStk _ = u at *
  have hne : rSTK_QUEUE ≠ rSTK_RESULT (k % 16) := by simp only [rSTK_QUEUE, rSTK_RESULT]; omega
  refine ⟨_, e, ?_, ?_, ?_, ?_, ?_⟩
  · rw [(touches_State.wr _ _ _).stk (by decide), (touches_State.addMod _ _ _ _).stk (by decide), (touches_State.addMod _ _ _ _).stk (by decide), s1]
  · rw [fld_of_rd (State.rd_wr_other _ _ hne), State.fld_addMod_apart _ _ _ _ _ _ (by decide), State.fld_addMod_self _ _ _ _ (by decide), f1]
  · rw [State.fld, State.rd_wr_same]
    simp (disch := decide)
    omega
  · rw [State.fld, State.rd_wr_same]
    simp (disch := decide)
  · exact .of_hi (.wr (.addMod (.addMod k1))) (by
      simp only [List.mem_cons, List.not_mem_nil, or_false, rSTK_QUEUE, rSTK_RESULT]; omega)

/-- What STK_CANCEL holds after a write. -/
def cancelWritten (v : Word) (s : State) : State := (s.dropStaged .host rSTK_CANCEL).wrCodes rSTK_CANCEL (fset v fSTK_CANCEL_GO 1) [fSTK_CANCEL_GO]

theorem cancelWritten_stk (v : Word) (s : State) : (cancelWritten v s).stk = s.stk :=
  ((touches_State.wrCodes _ _ _ _).stk (by decide)).trans ((touches_State.dropStaged _ _ _).stk (by decide))

theorem onlyIn_cancelWritten (v : Word) (s : State) : onlyIn (mRegs ||| mStaged) [rSTK_CANCEL] [] s (cancelWritten v s) :=
  .of_hi (.wrCodes (.dropStaged (.refl _ _ _ _))) (by decide)

theorem stkCancel_eq {v : Word} {s : State} (h : s.windowOpen rSTK_CANCEL = true) : exec (.stkCancel v) s =
    .next (if s.stk.queue.any (fun c => c.ticket == fget v fSTK_CANCEL_TICKET && !c.run) then
      (cancelWritten v s).stkEnd (fget v fSTK_CANCEL_TICKET) 6 0 0 else cancelWritten v s) := by
  have h1 : fget (fset v fSTK_CANCEL_GO 1) fSTK_CANCEL_GO = 1 := fget_fset_self _ _ _ (by decide)
  have h2 : fget (fset v fSTK_CANCEL_GO 1) fSTK_CANCEL_TICKET = fget v fSTK_CANCEL_TICKET := fget_fset_apart _ _ _ _ (by decide)
  refine next_hostWr_open h rfl ?_
  unfold State.wrStkCancel
  rw [h1, h2]
  have hs := cancelWritten_stk v s
  unfold cancelWritten at hs ⊢
  dsimp only
  rw [hs, decide_eq_true (rfl : 1 = 1), Bool.true_and]

theorem stkCancel_nothing {v : Word} {s : State} (h : s.windowOpen rSTK_CANCEL = true)
    (hq : ∀ c ∈ s.stk.queue, c.ticket ≠ fget v fSTK_CANCEL_TICKET ∨ c.run = true) :
    completes (.stkCancel v) s fun t => t.stk = s.stk ∧ onlyIn (mRegs ||| mStaged) [rSTK_CANCEL] [] s t := by
  refine ⟨_, (stkCancel_eq h).trans (congrArg _ (if_neg ?_)), cancelWritten_stk v s, onlyIn_cancelWritten v s⟩
  simp only [List.any_eq_true, Bool.and_eq_true, beq_iff_eq, Bool.not_eq_true', not_exists, not_and]
  intro c hc ht hr
  have := hq c hc
  simp [ht, hr] at this

theorem stkCancel_waiting {v : Word} {k : Nat} {s : State} (h : s.windowOpen rSTK_CANCEL = true) (hv : fget v fSTK_CANCEL_TICKET = k) {c : StkCmd}
    (hc : c ∈ s.stk.queue) (ht : c.ticket = k) (hr : c.run = false) :
    completes (.stkCancel v) s fun t => stkEnds c 6 0 0 s t ∧
        onlyIn (mEvent ||| mStaged ||| mFreeCtr ||| mStk) [rSTK_CANCEL, rSTK_QUEUE, rSTK_RESULT (k % 16), rSTK_STATUS] [977] s t := by
  have hany : s.stk.queue.any (fun c => c.ticket == fget v fSTK_CANCEL_TICKET && !c.run) = true :=
    List.any_eq_true.mpr ⟨c, hc, by simp [hv, ht, hr]⟩
  have e : exec (.stkCancel v) s = .next ((cancelWritten v s).stkEnd c.ticket 6 0 0) := by
    rw [stkCancel_eq h, if_pos hany, hv, ht]
  have kw := onlyIn_cancelWritten v s
  obtain ⟨h1, -, h3⟩ := stkEnd_effect (cancelWritten v s) c 6 0 0 rfl
  refine ⟨_, e, stkEnds_of h1 (by rw [cancelWritten_stk]) (kw.2 _ (by decide) (by simp)) (kw.2 _ (by decide) (by simp)), ?_⟩
  rw [ht, if_neg (by decide)] at h3
  have hl : [rSTK_CANCEL] ⊆ rSTK_CANCEL :: stkRegs k := List.cons_subset_cons _ (List.nil_subset _)
  have k1 : onlyIn (mEvent ||| mStaged ||| mFreeCtr ||| mStk) (rSTK_CANCEL :: stkRegs k) [977] s (cancelWritten v s) :=
    kw.mono (by decide) hl (List.nil_subset _)
  have k2 : onlyIn (mEvent ||| mStaged ||| mFreeCtr ||| mStk) (rSTK_CANCEL :: stkRegs k) [977] (cancelWritten v s)
      ((cancelWritten v s).stkEnd c.ticket 6 0 0) := by
    rw [ht]
    exact h3.mono (by decide) (List.subset_cons_self _ _) (List.Subset.refl _)
  exact k1.trans k2

/-! ### The head of the queue -/

theorem stkRun_other {s : State} {code : Nat} (h : s.stkServes = false ∨ (∀ c, s.stk.queue.head? = some c → c.code ≠ code)) (f : StkCmd → State) :
    s.stkRun code f = s := by
  unfold State.stkRun
  split
  · next c rest hq =>
    refine if_neg ?_
    rw [hq] at h
    obtain h | h := h
    · simp [h]
    · simp [h c rfl]
  · rfl

theorem stk_idle (img data : HostRead) (ok : Bool) {s : State} (hg : s.glb ≠ 0) :
    ∀ e ∈ [(Instr.stkNop, 1), (.flashRead, 2), (.flashUpdate img ok, 3), (.calStore, 4), (.keyProvision data ok, 5), (.keyLock ok, 6),
        (.svnCommit ok, 7), (.secureEnable ok, 8)],
      (s.stkServes = false ∨ (∀ c, s.stk.queue.head? = some c → c.code ≠ e.2)) → exec e.1 s = .next s := by
  intro e he h
  simp only [List.mem_cons, List.not_mem_nil, or_false] at he
  obtain rfl | rfl | rfl | rfl | rfl | rfl | rfl | rfl := he <;> exact next_live hg (stkRun_other h _)

section
variable {c : StkCmd} {rest : List StkCmd} {s : State} (hq : s.stk.queue = c :: rest) (hs : s.stkServes = true)

include hq hs

theorem stkRun_head {code : Nat} (hc : c.code = code) (f : StkCmd → State) : s.stkRun code f = f c := by
  unfold State.stkRun
  rw [hq]
  exact if_pos (by simp [hc, hs])

end

/-- A command that ends at once with its result. -/
theorem stk_ends {i : Instr} {s : State} {c : StkCmd} {result reason detail : Nat} (e : exec i s = .next (s.stkEnd c.ticket result reason detail)) :
    completes i s fun t => stkEnds c result reason detail s t ∧
      t.stk = { s.stk with queue := s.stk.queue.filter fun e => e.ticket != c.ticket } ∧
      onlyIn (mEvent ||| mFreeCtr ||| mStk) (stkRegs c.ticket) [if result = 3 then 976 else 977] s t :=
  ⟨_, e, stkEnd_effect s c result reason detail rfl⟩

end Sys2Proof

end

section
/-! SUPPORT. The Stoker's NOP, FLASH_READ, FLASH_UPDATE and CAL_STORE (R148, R503, R505, R508). -/

set_option Elab.async false

namespace Sys2Proof

open Sys2Proof.Machine

/-! ### Host memory when the event ring is off -/

theorem setFlds_addMod_hostMem (s : State) (a b : Nat) (l : List (Fld × Nat)) (f : Fld) (n : Nat) : ((s.setFlds a l).addMod b f n).hostMem = s.hostMem :=
  ((touches_State.addMod _ _ _ _).hostMem (by decide)).trans ((touches_State.setFlds _ _ _).hostMem (by decide))

theorem setFlds_addMod_rd (s : State) {a b x : Nat} (l : List (Fld × Nat)) (f : Fld) (n : Nat) (ha : x ≠ a) (hb : x ≠ b) :
    ((s.setFlds a l).addMod b f n).rd x = s.rd x := by
  rw [State.addMod, State.rd_setFld_other _ _ _ hb, State.rd_setFlds_other _ _ ha]

theorem onEvt_ring (s : State) (f : Evt → Evt) : (s.onEvt f).hostMem = s.hostMem ∧ (s.onEvt f).flag rEVT_CTRL fEVT_CTRL_RING_EN = s.flag rEVT_CTRL fEVT_CTRL_RING_EN :=
  ⟨(touches_State.onEvt _ _).hostMem (by decide), flag_of_rd (State.rd_congr (State.onEvt_regs _ _) _)⟩

theorem ringPut_off {s : State} (h : s.flag rEVT_CTRL fEVT_CTRL_RING_EN = false) (src : Nat) (obj : Option Nat) (code detail : Nat) (inj : Bool) :
    s.ringPut src obj code detail inj = s := by
  unfold State.ringPut
  rw [h]
  rfl

theorem raise_hostMem {s : State} (h : s.flag rEVT_CTRL fEVT_CTRL_RING_EN = false) (src : Nat) {t : State} (e : s.raise src = t) :
    t.hostMem = s.hostMem := by
  have a1 : rEVT_CTRL ≠ rEVT_SRC src := by simp only [rEVT_CTRL, rEVT_SRC]; omega
  have h1 := setFlds_addMod_hostMem s (rEVT_SRC src) rEVT_STAT [(fEVT_SRC_STATUS, 1), (fEVT_SRC_COUNT, s.fld (rEVT_SRC src) fEVT_SRC_COUNT + 1)]
    fEVT_STAT_RAISED 1
  have h2 := setFlds_addMod_rd s [(fEVT_SRC_STATUS, 1), (fEVT_SRC_COUNT, s.fld (rEVT_SRC src) fEVT_SRC_COUNT + 1)] fEVT_STAT_RAISED 1 a1
    (b := rEVT_STAT) (by decide)
  unfold State.raise State.raiseWith at e
  dsimp only at e
  generalize (s.setFlds (rEVT_SRC src) _).addMod _ _ _ = u at *
  obtain ⟨o1, o2⟩ := onEvt_ring u fun z => { z with occ := SMap.upd 0 u.evt.occ src (· + 1) }
  generalize u.onEvt _ = w at *
  have w2 : w.flag rEVT_CTRL fEVT_CTRL_RING_EN = false := o2.trans ((flag_of_rd h2).trans h)
  have w1 := o1.trans h1
  rw [if_pos rfl, ringPut_off w2] at e
  split at e
  · split at e
    · exact e ▸ w1
    · exact e ▸ ((touches_State.signal _ _).hostMem (by decide)).trans w1
  · exact e ▸ w1

theorem wr_setFlds_ring (s : State) {a b : Nat} (v : Word) (l : List (Fld × Nat)) (ha : rEVT_CTRL ≠ a) (hb : rEVT_CTRL ≠ b) :
    ((s.wr a v).setFlds b l).hostMem = s.hostMem ∧ ((s.wr a v).setFlds b l).rd rEVT_CTRL = s.rd rEVT_CTRL :=
  ⟨((touches_State.setFlds _ _ _).hostMem (by decide)).trans ((touches_State.wr _ _ _).hostMem (by decide)),
    (State.rd_setFlds_other _ _ hb).trans (State.rd_wr_other _ _ ha)⟩

theorem stkEnd_hostMem {s : State} (h : s.flag rEVT_CTRL fEVT_CTRL_RING_EN = false) {k result reason detail : Nat} {t : State}
    (e : s.stkEnd k result reason detail = t) : t.hostMem = s.hostMem := by
  unfold State.stkEnd at e
  dsimp only at e
  have p3 := (safePoint_effect s rfl).2.2
  have h1 : s.safePoint.hostMem = s.hostMem := p3.1.hostMem (by decide)
  have h2 : s.safePoint.rd rEVT_CTRL = s.rd rEVT_CTRL := p3.2 _ (by decide) (by simp)
  generalize s.safePoint = u at *
  have h3 : (u.updStk fun q => { q with queue := q.queue.filter fun c => c.ticket != k }).hostMem = s.hostMem :=
    ((touches_State.updStk _ _ (FusesOnlyBurn.of_eq rfl rfl rfl rfl rfl)).hostMem (by decide)).trans h1
  have h4 : (u.updStk fun q => { q with queue := q.queue.filter fun c => c.ticket != k }).rd rEVT_CTRL = s.rd rEVT_CTRL :=
    (State.rd_congr (State.updStk_regs _ _) _).trans h2
  generalize u.updStk _ = w at *
  have a1 : rEVT_CTRL ≠ rSTK_RESULT (k % 16) := by simp only [rEVT_CTRL, rSTK_RESULT]; omega
  obtain ⟨g1, g2⟩ := wr_setFlds_ring w (fsets 0 [(fSTK_RESULT_TICKET, k), (fSTK_RESULT_RESULT, result), (fSTK_RESULT_REASON, reason), (fSTK_RESULT_DETAIL, detail)])
    [(fSTK_QUEUE_DONE_TICKET, k), (fSTK_QUEUE_DEPTH, s.fld rSTK_QUEUE fSTK_QUEUE_DEPTH - 1)] a1 (b := rSTK_QUEUE) (by decide)
  generalize (w.wr _ _).setFlds _ _ = x at *
  exact (raise_hostMem (((flag_of_rd g2).trans (flag_of_rd h4)).trans h) _ e).trans (g1.trans h3)

/-! ### Commands at the head -/

theorem stk_done {i : Instr} {s : State} {c : StkCmd} {detail : Nat} (e : exec i s = .next (s.stkDone c detail)) :
    completes i s fun t => stkEnds c 3 0 detail s t ∧ onlyIn (mEvent ||| mFreeCtr ||| mStk) (stkRegs c.ticket) [976] s t :=
  (stk_ends e).imp fun _ ⟨h1, _, h3⟩ => ⟨h1, by rwa [if_pos rfl] at h3⟩

theorem stk_not_done {i : Instr} {s : State} {c : StkCmd} {result reason detail : Nat} (e : exec i s = .next (s.stkEnd c.ticket result reason detail))
    (h : result ≠ 3) : completes i s fun t => stkEnds c result reason detail s t ∧
      t.stk = { s.stk with queue := s.stk.queue.filter fun e => e.ticket != c.ticket } ∧
      onlyIn (mEvent ||| mFreeCtr ||| mStk) (stkRegs c.ticket) [977] s t :=
  (stk_ends e).imp fun _ ⟨h1, h2, h3⟩ => ⟨h1, h2, by rwa [if_neg h] at h3⟩

section
variable {c : StkCmd} {rest : List StkCmd} {s : State} (hg : s.glb ≠ 0) (hq : s.stk.queue = c :: rest) (hs : s.stkServes = true)

include hg hq hs

/-- A command at the head is answered as its function says. -/
theorem head_runs {code : Nat} (hc : c.code = code) {g : State → State} {f : StkCmd → State} (hgf : g s = s.stkRun code f) {t : State} (ht : f c = t) :
    (.next (s.live g) : Res) = .next t :=
  next_live hg (hgf.trans ((stkRun_head hq hs hc f).trans ht))

theorem nop_ends (hc : c.code = 1) : completes .stkNop s fun t => stkEnds c 3 0 0 s t ∧
    onlyIn (mEvent ||| mFreeCtr ||| mStk) (stkRegs c.ticket) [976] s t :=
  stk_done (head_runs hg hq hs hc rfl rfl)

theorem flashRead_waits (hc : c.code = 2) (hst : s.storing = true) : exec .flashRead s = .next s := head_runs hg hq hs hc rfl (if_pos hst)

theorem flashRead_refused (hc : c.code = 2) (hst : s.storing = false)
    (hb : c.arg 0 % 64 ≠ 0 ∨ c.arg 1 % 64 ≠ 0 ∨ c.arg 2 % 64 ≠ 0 ∨ 2 ^ 24 < c.arg 0 + c.arg 2) :
    completes .flashRead s fun t => stkEnds c 5 1 0 s t ∧ onlyIn (mEvent ||| mFreeCtr ||| mStk) (stkRegs c.ticket) [977] s t := by
  have e : exec .flashRead s = .next (s.stkEnd c.ticket 5 1 0) := by
    refine head_runs hg hq hs hc rfl ((if_neg (by simp [hst])).trans (if_pos ?_))
    simp only [Bool.or_eq_true, bne_iff_ne, ne_eq, decide_eq_true_eq]
    omega
  exact (stk_not_done e (by decide)).imp fun _ ⟨h1, _, h3⟩ => ⟨h1, h3⟩

section
variable (h0 : c.arg 0 % 64 = 0) (h1 : c.arg 1 % 64 = 0) (h2 : c.arg 2 % 64 = 0) (hm : c.arg 0 + c.arg 2 ≤ 2 ^ 24)

include h0 h1 h2 hm

theorem flashRead_failed (hc : c.code = 2) (hst : s.storing = false) (hb : s.busOk = false) :
    completes .flashRead s fun t => stkEnds c 4 6 0 s t ∧ onlyIn (mEvent ||| mFreeCtr ||| mStk) (stkRegs c.ticket) [977] s t := by
  have e : exec .flashRead s = .next (s.stkEnd c.ticket 4 6 0) :=
    head_runs hg hq hs hc rfl ((if_neg (by simp [hst])).trans ((if_neg (by simp [h0, h1, h2]; omega)).trans (if_pos (by simp [hb]))))
  exact (stk_not_done e (by decide)).imp fun _ ⟨h1, _, h3⟩ => ⟨h1, h3⟩

theorem flashRead_done (hc : c.code = 2) (hst : s.storing = false) (hb : s.busOk = true) (hr : s.flag rEVT_CTRL fEVT_CTRL_RING_EN = false) :
    completes .flashRead s fun t => stkEnds c 3 0 (c.arg 2) s t ∧
      t.hostMem = s.hostMem.write 0 (c.arg 1) (s.flash.read 0xFF (c.arg 0) (c.arg 2)) ∧
      onlyIn (mEvent ||| mFreeCtr ||| mStk) (stkRegs c.ticket) [976] s t := by
  have e : exec .flashRead s = .next ((s.hostWrite (c.arg 1) (s.flash.read 0xFF (c.arg 0) (c.arg 2))).stkEnd c.ticket 3 0 (c.arg 2)) :=
    head_runs hg hq hs hc rfl ((if_neg (by simp [hst])).trans ((if_neg (by simp [h0, h1, h2]; omega)).trans (if_neg (by simp [hb]))))
  have k : Touches mHostMem s (s.hostWrite (c.arg 1) (s.flash.read 0xFF (c.arg 0) (c.arg 2))) := touches_State.hostWrite _ _ _
  have hh : (s.hostWrite (c.arg 1) (s.flash.read 0xFF (c.arg 0) (c.arg 2))).hostMem = s.hostMem.write 0 (c.arg 1) (s.flash.read 0xFF (c.arg 0) (c.arg 2)) :=
    rfl
  generalize s.hostWrite _ _ = u at *
  have hrd := State.rd_congr (k.regs (by decide))
  obtain ⟨g1, -, g3⟩ := stkEnd_effect u c 3 0 (c.arg 2) rfl
  refine ⟨_, e, stkEnds_of g1 (by rw [k.stk (by decide)]) (hrd _) (hrd _), (stkEnd_hostMem ((flag_of_rd (hrd _)).trans hr) rfl).trans hh, ?_⟩
  rw [if_pos rfl] at g3
  exact (onlyIn.other (.refl _ _ _ _) k (by decide) (k.regs (by decide))).trans g3

end

end

/-! ### Bytes of an erased flash -/

theorem get_filter_range {α : Type} (d : α) (m : SMap α) (a b x : Nat) :
    SMap.get d (m.filter fun e => decide (e.1 < a) || decide (b ≤ e.1)) x = if x < a ∨ b ≤ x then SMap.get d m x else d := by
  induction m with
  | nil => simp [SMap.get]
  | cons e m ih =>
    obtain ⟨k, v⟩ := e
    rw [List.filter_cons]
    by_cases hk : k < a ∨ b ≤ k
    · rw [if_pos (by simpa using hk), SMap.get, SMap.get, ih]
      by_cases h : k = x
      · subst h
        rw [if_pos rfl, if_pos rfl, if_pos hk]
      · rw [if_neg h, if_neg h]
    · rw [if_neg (by simpa using hk), ih, SMap.get]
      by_cases h : k = x
      · subst h
        rw [if_neg hk, if_neg hk]
      · rw [if_neg h]

theorem flashErase_byte (s : State) (a n x : Nat) : (s.flashErase a n).flash.byte 0xFF x = if x < a ∨ a + n ≤ x then s.flash.byte 0xFF x else 0xFF :=
  get_filter_range _ s.flash a (a + n) x

/-! ### CAL_STORE -/

/-- A store write begun. -/
def storeBegun (s : State) : State :=
  (((s.onCal fun z => { z with
    target := s.calTarget
    image := s.calImage (s.fld rCAL_STORE fCAL_STORE_SEQ + 1)
    await := (upTo 4).filter fun n => (s.core n).phase != .off }).flashErase (calCopyAt s.calTarget) 4096).setFld rCAL_STORE
      (if s.calTarget = 0 then fCAL_STORE_A_VALID else fCAL_STORE_B_VALID) 0).setFld rCAL_STATUS fCAL_STATUS_STATE 2

theorem storeAsk_begins {s : State} (h : s.calState = 0) (hs : s.fld rCAL_STORE fCAL_STORE_SEQ < 200000) (hf : s.flashBusy = false) :
    s.storeAsk = storeBegun s := by
  unfold State.storeAsk State.storeBegin
  rw [if_neg (by simp [h]), if_neg (by omega)]
  dsimp only
  rw [if_neg (by omega), if_neg (by simp [hf])]
  rfl

theorem storeBegun_effect (s : State) {t : State} (e : storeBegun s = t) : t.storing = true ∧ t.cal.target = s.calTarget ∧
    t.cal.image = s.calImage (s.fld rCAL_STORE fCAL_STORE_SEQ + 1) ∧ t.cal.await = (upTo 4).filter (fun n => (s.core n).phase != .off) ∧
    (∀ a, t.flash.byte 0xFF a = if a < calCopyAt s.calTarget ∨ calCopyAt s.calTarget + 4096 ≤ a then s.flash.byte 0xFF a else 0xFF) ∧
    onlyIn (mRegs ||| mFlash ||| mCal) [rCAL_STORE, rCAL_STATUS] [] s t := by
  unfold storeBegun at e
  obtain ⟨u, hu⟩ : ∃ u, u = s.onCal fun z => { z with
    target := s.calTarget
    image := s.calImage (s.fld rCAL_STORE fCAL_STORE_SEQ + 1)
    await := (upTo 4).filter fun n => (s.core n).phase != .off } := ⟨_, rfl⟩
  rw [← hu] at e
  have k1 : Touches mCal s u := hu ▸ touches_State.onCal _ _
  have hc : u.cal = { s.cal with
      target := s.calTarget
      image := s.calImage (s.fld rCAL_STORE fCAL_STORE_SEQ + 1)
      await := (upTo 4).filter fun n => (s.core n).phase != .off } := by
    rw [hu]
    rfl
  have k2 : Touches mFlash u (u.flashErase (calCopyAt s.calTarget) 4096) := touches_State.flashErase _ _ _
  have hb := flashErase_byte u (calCopyAt s.calTarget) 4096
  generalize u.flashErase _ _ = w at *
  have k3 : onlyIn (mRegs ||| mFlash ||| mCal ||| mGlb) [rCAL_STORE, rCAL_STATUS] [] s w :=
    .other (.other (.refl _ _ _ _) k1 (by decide) (k1.regs (by decide))) k2 (by decide) (k2.regs (by decide))
  have hcal : t.cal = u.cal := by
    rw [← e, (touches_State.setFld _ _ _ _).cal (by decide), (touches_State.setFld _ _ _ _).cal (by decide), k2.cal (by decide)]
  have hfl : t.flash = w.flash := by
    rw [← e, (touches_State.setFld _ _ _ _).flash (by decide), (touches_State.setFld _ _ _ _).flash (by decide)]
  refine ⟨?_, by rw [hcal, hc], by rw [hcal, hc], by rw [hcal, hc], fun a => ?_, ?_⟩
  · rw [State.storing, State.calState, ← e, State.fld_setFld_self _ _ _ _ (by decide)]
    rfl
  · rw [hfl, hb, k1.flash (by decide)]
  · rw [← e]
    exact .of_hi (.setFld (.setFld k3)) (by decide)

end Sys2Proof

end

section
/-! SUPPORT. The Stoker's CAL_STORE and FLASH_UPDATE (R148, R505, R508). -/

set_option Elab.async false

namespace Sys2Proof

open Sys2Proof.Machine

/-- A command that goes on past this step. -/
theorem stkRunning_effect (s : State) (c : StkCmd) {t : State} (e : s.stkRunning c = t) :
    t.fld (rSTK_RESULT (c.ticket % 16)) fSTK_RESULT_RESULT = 2 ∧ onlyIn (mRegs ||| mStk) [rSTK_RESULT (c.ticket % 16)] [] s t := by
  subst e
  unfold State.stkRunning
  refine ⟨?_, .of_hi (.setFld (.other (.refl _ _ _ _) (touches_State.updStk _ _ (FusesOnlyBurn.of_eq rfl rfl rfl rfl rfl)) (by decide)
    (State.updStk_regs _ _))) (by simp only [List.mem_singleton, rSTK_RESULT]; omega)⟩
  rw [State.fld_setFld_self _ _ _ _ (by decide)]
  rfl

section
variable {c : StkCmd} {rest : List StkCmd} {s : State} (hg : s.glb ≠ 0) (hq : s.stk.queue = c :: rest) (hs : s.stkServes = true)

include hg hq hs

theorem calStore_refused (hc : c.code = 4) (hr : c.run = false) (hst : s.storing = false) (hcal : s.calState ≠ 0) :
    completes .calStore s fun t => stkEnds c 5 2 0 s t ∧ onlyIn (mEvent ||| mFreeCtr ||| mStk) (stkRegs c.ticket) [977] s t := by
  have e : exec .calStore s = .next (s.stkEnd c.ticket 5 2 0) :=
    head_runs hg hq hs hc rfl ((if_neg (by simp [hst, hr])).trans (if_pos (by simp [hcal])))
  exact (stk_not_done e (by decide)).imp fun _ ⟨h1, _, h3⟩ => ⟨h1, h3⟩

theorem calStore_begins (hc : c.code = 4) (hr : c.run = false) (hst : s.storing = false) (hcal : s.calState = 0)
    (hseq : s.fld rCAL_STORE fCAL_STORE_SEQ < 200000) (hf : s.flashBusy = false) :
    completes .calStore s fun t => t.storing = true ∧ t.fld (rSTK_RESULT (c.ticket % 16)) fSTK_RESULT_RESULT = 2 ∧
          t.cal.target = s.calTarget ∧ t.cal.image = s.calImage (s.fld rCAL_STORE fCAL_STORE_SEQ + 1) ∧
          t.cal.await = (upTo 4).filter (fun n => (s.core n).phase != .off) ∧
          (∀ a, calCopyAt s.calTarget ≤ a → a < calCopyAt s.calTarget + 4096 → t.flash.byte 0xFF a = 0xFF) ∧
          (∀ a, a < calCopyAt s.calTarget ∨ calCopyAt s.calTarget + 4096 ≤ a → t.flash.byte 0xFF a = s.flash.byte 0xFF a) ∧
          onlyIn (mRegs ||| mFlash ||| mCal ||| mStk) [rSTK_RESULT (c.ticket % 16), rCAL_STORE, rCAL_STATUS] [] s t := by
  obtain ⟨b1, b2, b3, b4, b5, b6⟩ := storeBegun_effect s rfl
  have e : exec .calStore s = .next ((storeBegun s).stkRunning c) := by
    refine head_runs hg hq hs hc rfl ((if_neg (by simp [hst, hr])).trans ((if_neg (by simp [hcal])).trans ?_))
    rw [storeAsk_begins hcal hseq hf]
    exact if_pos b1
  generalize storeBegun s = u at *
  obtain ⟨r1, r2⟩ := stkRunning_effect u c rfl
  generalize u.stkRunning c = t at *
  have hcal : t.cal = u.cal := r2.1.cal (by decide)
  have hfl : t.flash = u.flash := r2.1.flash (by decide)
  refine ⟨t, e, ?_, r1, by rw [hcal, b2], by rw [hcal, b3], by rw [hcal, b4], fun a h1 h2 => ?_, fun a h => ?_, ?_⟩
  · have hrd := r2.rd_apart (a := rCAL_STATUS) (by simp only [List.mem_singleton, rSTK_RESULT, rCAL_STATUS]; omega) (.inr (by decide)) (by simp)
    unfold State.storing State.calState at b1 ⊢
    rw [fld_of_rd hrd, b1]
  · rw [hfl, b5, if_neg (by omega)]
  · rw [hfl, b5, if_pos h]
  · exact (b6.mono (by decide) (List.subset_cons_self _ _) (fun _ h => h)).trans
      (r2.mono (by decide) (List.cons_subset_cons _ (List.nil_subset _)) (fun _ h => h))

end

/-! ### FLASH_UPDATE -/

theorem imageBody_length (bs : List Byte) (n : Nat) : (imageBody bs n).length = 4 + (min n bs.length - 4) := by
  rw [imageBody, List.length_append, List.length_replicate, List.length_drop, List.length_take]

theorem imageBody_head (bs : List Byte) (n : Nat) {i : Nat} (h : i < 4) : (imageBody bs n).getD i 0xFF = 0xFF := by
  unfold imageBody
  rw [List.getD_append _ _ _ _ (by simpa using h), List.getD_replicate _ h]

theorem imageBody_tail {bs : List Byte} {n i : Nat} (h4 : 4 ≤ i) (hi : i < n) (hl : bs.length = n) : (imageBody bs n).getD i 0xFF = bs.getD i 0 := by
  unfold imageBody
  rw [List.getD_append_right _ _ _ _ (by simpa using h4), List.take_of_length_le (by omega), List.length_replicate]
  rw [List.getD_eq_getElem _ _ (by rw [List.length_drop]; omega), List.getD_eq_getElem _ _ (by omega), List.getElem_drop]
  congr 1
  omega

/-- The four bytes read where an image of `bs` has been programmed without MAGIC, and the bytes around it. -/
theorem programmed_bytes (s : State) (a size : Nat) {bs : List Byte} {n : Nat} (hl : bs.length = n) (hn : n ≤ size) (h4 : 4 ≤ size) {t : State}
    (e : (s.flashErase a size).flashWrite a (imageBody bs n) = t) :
    t.flash.read 0xFF a 4 = List.replicate 4 0xFF ∧ (∀ k, 4 ≤ k → k < n → t.flash.byte 0xFF (a + k) = bs.getD k 0) ∧
      (∀ k, k < a ∨ a + size ≤ k → t.flash.byte 0xFF k = s.flash.byte 0xFF k) ∧ Touches mFlash s t := by
  have hw : t.flash = (s.flashErase a size).flash.write 0xFF a (imageBody bs n) := by
    rw [← e]
    rfl
  have hlen := imageBody_length bs n
  have hin (k : Nat) (hk : k < 4 + (min n bs.length - 4)) : t.flash.byte 0xFF (a + k) = (imageBody bs n).getD k 0xFF := by
    rw [hw]
    exact Memory.byte_write_in _ _ _ _ _ (by omega)
  refine ⟨?_, fun k h1 h2 => ?_, fun k hk => ?_, e ▸ (touches_State.flashErase _ _ _).andThen (touches_State.flashWrite _ _ _)⟩
  · have b (i : Nat) (h : i < 4) : t.flash.byte 0xFF (a + i) = 0xFF := (hin i (by omega)).trans (imageBody_head bs n h)
    have b0 := b 0 (by decide)
    have b1 := b 1 (by decide)
    have b2 := b 2 (by decide)
    have b3 := b 3 (by decide)
    simp only [Memory.read, Nat.add_assoc, Nat.add_zero] at b0 b1 b2 b3 ⊢
    rw [b0, b1, b2, b3]
    rfl
  · rw [hin k (by omega), imageBody_tail h1 h2 hl]
  · rw [hw]
    refine (Memory.byte_write_out _ _ _ _ _ (by omega)).trans ?_
    rw [flashErase_byte, if_pos hk]

theorem stkFlashUpdate_exec (img : HostRead) (ok : Bool) (s : State) : exec (.flashUpdate img ok) s = .next (s.live fun t => t.stkFlashUpdate img ok) := rfl

section
variable {c : StkCmd} {rest : List StkCmd} {s : State} (hg : s.glb ≠ 0) (hq : s.stk.queue = c :: rest) (hs : s.stkServes = true) (hc : c.code = 3)
  (hst : s.storing = false) (img : HostRead) (ok : Bool)

include hg hq hs hc hst

section
variable (hr : c.run = false)

include hr

theorem flashUpdate_refused (h : 1 < c.arg 0 ∨ slotSize (c.arg 0) < c.arg 2 ∨ s.bootHalt = true ∧ c.arg 0 ≠ 0) :
    completes (.flashUpdate img ok) s fun t => stkEnds c 5 1 0 s t ∧ onlyIn (mEvent ||| mFreeCtr ||| mStk) (stkRegs c.ticket) [977] s t := by
  have e : exec (.flashUpdate img ok) s = .next (s.stkEnd c.ticket 5 1 0) :=
    head_runs (code := 3) hg hq hs hc rfl ((if_neg (by simp [hr])).trans ((if_neg (by simp [hst])).trans (if_pos (by
      simp only [Bool.or_eq_true, Bool.and_eq_true, bne_iff_ne, ne_eq, decide_eq_true_eq]
      tauto))))
  exact (stk_not_done e (by decide)).imp fun _ ⟨h1, _, h3⟩ => ⟨h1, h3⟩

variable (h1 : c.arg 0 ≤ 1) (h2 : c.arg 2 ≤ slotSize (c.arg 0)) (hb : s.bootHalt = false ∨ c.arg 0 = 0)

include h1 h2 hb

theorem flashUpdate_legal : ¬(decide (1 < c.arg 0) || decide (slotSize (c.arg 0) < c.arg 2) || (s.bootHalt && c.arg 0 != 0)) = true := by
  simp only [Bool.or_eq_true, Bool.and_eq_true, bne_iff_ne, ne_eq, decide_eq_true_eq]
  obtain hb | hb := hb
  · simp [hb]
    omega
  · simp [hb] at h2 ⊢
    exact h2

theorem flashUpdate_unread (h : img.fail ≠ none ∨ s.busOk = false) :
    completes (.flashUpdate img ok) s fun t => stkEnds c 4 6 0 s t ∧ onlyIn (mEvent ||| mFreeCtr ||| mStk) (stkRegs c.ticket) [977] s t := by
  have e : exec (.flashUpdate img ok) s = .next (s.stkEnd c.ticket 4 6 0) :=
    head_runs (code := 3) hg hq hs hc rfl ((if_neg (by simp [hr])).trans ((if_neg (by simp [hst])).trans ((if_neg
      (flashUpdate_legal hg hq hs hc hst hr h1 h2 hb)).trans (if_pos (by
        obtain h | h := h
        · simp [Option.isSome_iff_ne_none, h]
        · simp [h])))))
  exact (stk_not_done e (by decide)).imp fun _ ⟨h1, _, h3⟩ => ⟨h1, h3⟩

/-- What FLASH_UPDATE makes of an image that has been read whole. -/
theorem flashUpdate_read (hf : img.fail = none) (hbus : s.busOk = true) (hlen : img.bytes.length = c.arg 2) {t : State}
    (e : (if s.containerCode (c.arg 0) (c.arg 2) (img.bytes.take 64) (fun k => img.bytes.take k) ≠ 0 then
        s.stkEnd c.ticket 4 7 (s.containerCode (c.arg 0) (c.arg 2) (img.bytes.take 64) fun k => img.bytes.take k)
      else if verLess (s.fld rSEC_SVN (if c.arg 0 = 0 then fSEC_SVN_K_SVN else fSEC_SVN_P_SVN),
          s.fld rSEC_REV (if c.arg 0 = 0 then fSEC_REV_K_REV else fSEC_REV_P_REV)) (verOf img.bytes) = false then s.stkEnd c.ticket 5 4 0
      else ((s.flashErase (slotAt (c.arg 0) (s.updateSlot (c.arg 0))) (slotSize (c.arg 0))).flashWrite (slotAt (c.arg 0) (s.updateSlot (c.arg 0)))
        (imageBody img.bytes (c.arg 2))).stkRunning c) = t) : exec (.flashUpdate img ok) s = .next t := by
  have hbs : (img.bytes ++ List.replicate (c.arg 2 - img.bytes.length) 0).take (c.arg 2) = img.bytes := by
    rw [hlen, Nat.sub_self, List.replicate_zero, List.append_nil, List.take_of_length_le (Nat.le_of_eq hlen)]
  refine head_runs (code := 3) hg hq hs hc rfl ((if_neg (by simp [hr])).trans ((if_neg (by simp [hst])).trans ((if_neg
    (flashUpdate_legal hg hq hs hc hst hr h1 h2 hb)).trans ((if_neg (by simp [hf, hbus])).trans ?_))))
  rw [hbs, ← e]
  simp only [bne_iff_ne, Bool.not_eq_true']
  rfl

theorem flashUpdate_checked {code : Nat} {old : Nat × Nat} (hf : img.fail = none) (hbus : s.busOk = true) (hlen : img.bytes.length = c.arg 2)
    (hcode : s.containerCode (c.arg 0) (c.arg 2) (img.bytes.take 64) (fun k => img.bytes.take k) = code)
    (hold : (s.fld rSEC_SVN (if c.arg 0 = 0 then fSEC_SVN_K_SVN else fSEC_SVN_P_SVN),
      s.fld rSEC_REV (if c.arg 0 = 0 then fSEC_REV_K_REV else fSEC_REV_P_REV)) = old) :
    completes (.flashUpdate img ok) s fun t =>
      if code ≠ 0 then stkEnds c 4 7 code s t ∧ onlyIn (mEvent ||| mFreeCtr ||| mStk) (stkRegs c.ticket) [977] s t
      else if verLess old (verOf img.bytes) = false then stkEnds c 5 4 0 s t ∧ onlyIn (mEvent ||| mFreeCtr ||| mStk) (stkRegs c.ticket) [977] s t
      else t.flash.read 0xFF (slotAt (c.arg 0) (s.updateSlot (c.arg 0))) 4 = List.replicate 4 0xFF ∧
        (∀ k, 4 ≤ k → k < c.arg 2 → t.flash.byte 0xFF (slotAt (c.arg 0) (s.updateSlot (c.arg 0)) + k) = img.bytes.getD k 0) ∧
        (∀ k, k < slotAt (c.arg 0) (s.updateSlot (c.arg 0)) ∨ slotAt (c.arg 0) (s.updateSlot (c.arg 0)) + slotSize (c.arg 0) ≤ k →
          t.flash.byte 0xFF k = s.flash.byte 0xFF k) ∧
        t.fld (rSTK_RESULT (c.ticket % 16)) fSTK_RESULT_RESULT = 2 ∧
        onlyIn (mRegs ||| mFlash ||| mStk) [rSTK_RESULT (c.ticket % 16)] [] s t := by
  by_cases h0 : code ≠ 0
  · have e : exec (.flashUpdate img ok) s = .next (s.stkEnd c.ticket 4 7 code) :=
      flashUpdate_read hg hq hs hc hst img ok hr h1 h2 hb hf hbus hlen (by rw [hcode, if_pos h0])
    refine (stk_not_done e (by decide)).imp fun _ ⟨g1, _, g3⟩ => ?_
    rw [if_pos h0]
    exact ⟨g1, g3⟩
  · by_cases hv : verLess old (verOf img.bytes) = false
    · have e : exec (.flashUpdate img ok) s = .next (s.stkEnd c.ticket 5 4 0) :=
        flashUpdate_read hg hq hs hc hst img ok hr h1 h2 hb hf hbus hlen (by rw [hcode, hold, if_neg h0, if_pos hv])
      refine (stk_not_done e (by decide)).imp fun _ ⟨g1, _, g3⟩ => ?_
      rw [if_neg h0, if_pos hv]
      exact ⟨g1, g3⟩
    · have e : exec (.flashUpdate img ok) s = .next (((s.flashErase (slotAt (c.arg 0) (s.updateSlot (c.arg 0))) (slotSize (c.arg 0))).flashWrite
          (slotAt (c.arg 0) (s.updateSlot (c.arg 0))) (imageBody img.bytes (c.arg 2))).stkRunning c) :=
        flashUpdate_read hg hq hs hc hst img ok hr h1 h2 hb hf hbus hlen (by rw [hcode, hold, if_neg h0, if_neg hv])
      have h4 : 4 ≤ slotSize (c.arg 0) := by
        unfold slotSize
        split <;> decide
      obtain ⟨p1, p2, p3, p4⟩ := programmed_bytes s (slotAt (c.arg 0) (s.updateSlot (c.arg 0))) (slotSize (c.arg 0)) hlen h2 h4 rfl
      generalize (s.flashErase _ _).flashWrite _ _ = u at *
      obtain ⟨r1, r2⟩ := stkRunning_effect u c rfl
      refine ⟨_, e, ?_⟩
      dsimp only
      rw [if_neg h0, if_neg hv, r2.1.flash (by decide)]
      exact ⟨p1, p2, p3, r1, (onlyIn.other (.refl _ _ _ _) p4 (by decide) (p4.regs (by decide))).trans (r2.mono (by decide) (fun _ h => h) (fun _ h => h))⟩

end

/-- No store write waits behind a flash command, so the command's end starts none. -/
theorem storeResume_idle {t : State} (h : t.rd rCAL_STATUS = s.rd rCAL_STATUS) : t.storeResume = t := by
  unfold State.storeResume
  refine if_neg ?_
  have : t.storing = s.storing := by
    unfold State.storing State.calState
    rw [fld_of_rd h]
  simp [this, hst]

theorem stkRegs_calStatus {k : Nat} {t u : State} {n : Nat} (hn : n = 976 ∨ n = 977) (h : onlyIn (mEvent ||| mFreeCtr ||| mStk) (stkRegs k) [n] t u) :
    u.rd rCAL_STATUS = t.rd rCAL_STATUS :=
  h.rd_apart (by simp only [stkRegs, List.mem_cons, List.not_mem_nil, or_false, rSTK_RESULT, rSTK_QUEUE, rSTK_STATUS, rCAL_STATUS]; omega) (.inr (by decide))
    (by simp only [List.mem_singleton]; omega)

theorem flashUpdate_verified (hr : c.run = true) :
    completes (.flashUpdate img true) s fun t => stkEnds c 3 0 (c.arg 2) s t ∧
      t.flash.read 0xFF (slotAt (c.arg 0) (s.updateSlot (c.arg 0))) 4 = leBytes 4 (if c.arg 0 = 0 then 0x4E4B4B48 else 0x54504B48) ∧
      (∀ k, k < slotAt (c.arg 0) (s.updateSlot (c.arg 0)) ∨ slotAt (c.arg 0) (s.updateSlot (c.arg 0)) + 4 ≤ k →
        t.flash.byte 0xFF k = s.flash.byte 0xFF k) ∧ onlyIn (mEvent ||| mFreeCtr ||| mFlash ||| mStk) (stkRegs c.ticket) [976] s t := by
  obtain ⟨u, hu⟩ : ∃ u, u = s.flashWrite (slotAt (c.arg 0) (s.updateSlot (c.arg 0))) (leBytes 4 (if c.arg 0 = 0 then 0x4E4B4B48 else 0x54504B48)) := ⟨_, rfl⟩
  have k : Touches mFlash s u := hu ▸ touches_State.flashWrite _ _ _
  have hw : u.flash = s.flash.write 0xFF (slotAt (c.arg 0) (s.updateSlot (c.arg 0))) (leBytes 4 (if c.arg 0 = 0 then 0x4E4B4B48 else 0x54504B48)) := by
    rw [hu]
    rfl
  have hrd := State.rd_congr (k.regs (by decide))
  obtain ⟨g1, -, g3⟩ := stkEnd_effect u c 3 0 (c.arg 2) rfl
  rw [if_pos rfl] at g3
  have hcal := (stkRegs_calStatus hg hq hs hc hst (.inl rfl) g3).trans (hrd _)
  have e : exec (.flashUpdate img true) s = .next (u.stkEnd c.ticket 3 0 (c.arg 2)) := by
    refine head_runs (code := 3) hg hq hs hc rfl ((if_pos hr).trans ?_)
    dsimp only
    rw [if_pos rfl, ← hu]
    exact storeResume_idle hg hq hs hc hst hcal
  have hfl : (u.stkEnd c.ticket 3 0 (c.arg 2)).flash = u.flash := g3.1.flash (by decide)
  refine ⟨_, e, stkEnds_of g1 (by rw [k.stk (by decide)]) (hrd _) (hrd _), ?_, fun x hx => ?_, ?_⟩
  · rw [hfl, hw]
    exact Memory.read_write 0xFF (leBytes 4 (if c.arg 0 = 0 then 0x4E4B4B48 else 0x54504B48)) _ _
  · rw [hfl, hw]
    exact Memory.byte_write_out _ _ _ _ _ hx
  · exact (onlyIn.other (.refl _ _ _ _) k (by decide) (k.regs (by decide))).trans (g3.mono (by decide) (fun _ h => h) (fun _ h => h))

theorem flashUpdate_unverified (hr : c.run = true) :
    completes (.flashUpdate img false) s fun t => stkEnds c 4 8 0 s t ∧ onlyIn (mEvent ||| mFreeCtr ||| mStk) (stkRegs c.ticket) [977] s t := by
  obtain ⟨-, -, g3⟩ := stkEnd_effect s c 4 8 0 rfl
  rw [if_neg (by decide)] at g3
  have hcal := stkRegs_calStatus hg hq hs hc hst (.inr rfl) g3
  have e : exec (.flashUpdate img false) s = .next (s.stkEnd c.ticket 4 8 0) := by
    refine head_runs (code := 3) hg hq hs hc rfl ((if_pos hr).trans ?_)
    dsimp only
    rw [if_neg (by decide)]
    exact storeResume_idle hg hq hs hc hst hcal
  exact (stk_not_done e (by decide)).imp fun _ ⟨h1, _, h3⟩ => ⟨h1, h3⟩

end

end Sys2Proof

end

section
/-! SUPPORT. The Stoker's keys and fuses, and O57 (R502 to R515). -/

set_option Elab.async false

namespace Sys2Proof

open Sys2Proof.Machine

/-! ### The registers of the fuses, and measurement 6 -/

abbrev keyRegs : List Nat := (upTo 6).map rSEC_PLANKEY_HASH

theorem keyRegs_range : ∀ a ∈ keyRegs, 0xd00050 ≤ a ∧ a < 0xd00080 := by
  intro a ha
  obtain ⟨k, hk, rfl⟩ := List.mem_map.mp ha
  have := List.mem_range.mp hk
  simp only [rSEC_PLANKEY_HASH]
  omega

theorem fuseRegs_effect (s : State) {t : State} (e : s.fuseRegs = t) : t.flag rSEC_STATUS fSEC_STATUS_KEY_LOCKED = s.stk.keyHash.isSome ∧
    t.flag rSEC_STATUS fSEC_STATUS_KEY_PROV = s.stk.key.isSome ∧ t.flag rSEC_STATUS fSEC_STATUS_SECURE_ARMED = s.stk.armed ∧
    onlyIn mRegs ([rSEC_STATUS, rSEC_SVN] ++ keyRegs) [] s t := by
  unfold State.fuseRegs at e
  dsimp only at e
  have hst : rSEC_STATUS ∈ [rSEC_STATUS, rSEC_SVN] ++ keyRegs := List.mem_cons_self
  have hsv : rSEC_SVN ∈ [rSEC_STATUS, rSEC_SVN] ++ keyRegs := List.mem_cons_of_mem _ List.mem_cons_self
  have k1 : onlyIn (mRegs ||| mGlb) ([rSEC_STATUS, rSEC_SVN] ++ keyRegs) [] s (s.setFlds rSEC_STATUS [(fSEC_STATUS_KEY_LOCKED, b2n s.stk.keyHash.isSome),
      (fSEC_STATUS_KEY_PROV, b2n s.stk.key.isSome), (fSEC_STATUS_SECURE_ARMED, b2n s.stk.armed)]) := .setFlds (.refl _ _ _ _) hst
  have f1 : (s.setFlds rSEC_STATUS [(fSEC_STATUS_KEY_LOCKED, b2n s.stk.keyHash.isSome), (fSEC_STATUS_KEY_PROV, b2n s.stk.key.isSome),
      (fSEC_STATUS_SECURE_ARMED, b2n s.stk.armed)]).flag rSEC_STATUS fSEC_STATUS_KEY_LOCKED = s.stk.keyHash.isSome := by
    simp (disch := decide) [State.flag]
    cases s.stk.keyHash.isSome <;> rfl
  have f2 : (s.setFlds rSEC_STATUS [(fSEC_STATUS_KEY_LOCKED, b2n s.stk.keyHash.isSome), (fSEC_STATUS_KEY_PROV, b2n s.stk.key.isSome),
      (fSEC_STATUS_SECURE_ARMED, b2n s.stk.armed)]).flag rSEC_STATUS fSEC_STATUS_KEY_PROV = s.stk.key.isSome := by
    simp (disch := decide) [State.flag]
    cases s.stk.key.isSome <;> rfl
  have f3 : (s.setFlds rSEC_STATUS [(fSEC_STATUS_KEY_LOCKED, b2n s.stk.keyHash.isSome), (fSEC_STATUS_KEY_PROV, b2n s.stk.key.isSome),
      (fSEC_STATUS_SECURE_ARMED, b2n s.stk.armed)]).flag rSEC_STATUS fSEC_STATUS_SECURE_ARMED = s.stk.armed := by
    simp (disch := decide) [State.flag]
    cases s.stk.armed <;> rfl
  generalize s.setFlds rSEC_STATUS _ = u at *
  have r2 : (u.setFlds rSEC_SVN [(fSEC_SVN_K_FLOOR, s.stk.kFloor), (fSEC_SVN_P_FLOOR, s.stk.pFloor)]).rd rSEC_STATUS = u.rd rSEC_STATUS :=
    State.rd_setFlds_other _ _ (by decide)
  have k2 : onlyIn (mRegs ||| mGlb) ([rSEC_STATUS, rSEC_SVN] ++ keyRegs) [] s
      (u.setFlds rSEC_SVN [(fSEC_SVN_K_FLOOR, s.stk.kFloor), (fSEC_SVN_P_FLOOR, s.stk.pFloor)]) := .setFlds k1 hsv
  generalize u.setFlds rSEC_SVN _ = w at *
  have k3 : onlyIn (mRegs ||| mGlb) keyRegs [] w t := by
    rw [← e]
    exact .overList (.refl _ _ _ _) fun t k hk => .wr (.refl _ _ _ _) (ha := List.mem_map_of_mem hk)
  have r3 : t.rd rSEC_STATUS = u.rd rSEC_STATUS := (k3.2 _ (fun h => by
    have := keyRegs_range _ h
    simp only [rSEC_STATUS] at this
    omega) (by simp)).trans r2
  refine ⟨(flag_of_rd r3).trans f1, (flag_of_rd r3).trans f2, (flag_of_rd r3).trans f3, .of_hi (k2.trans (k3.mono (by decide)
    (List.subset_append_right _ _) (fun _ h => h))) fun a ha => ?_⟩
  obtain h | h := List.mem_append.mp ha
  · simp only [List.mem_cons, List.not_mem_nil, or_false, rSEC_STATUS, rSEC_SVN] at h
    omega
  · have := keyRegs_range a h
    omega

theorem measure_stk (s : State) (i v : Nat) : (s.measure i v).stk = { s.stk with meas := SMap.set 0 s.stk.meas i v } := by
  rw [State.measure, (touches_State.raise _ _ _ _ _).stk (by decide), (touches_State.setFld _ _ _ _).stk (by decide), State.onStk_stk,
    (touches_State.addMod _ _ _ _).stk (by decide)]

/-! ### A command that changes the Stoker's keys or fuses, and ends DONE -/

/-- The registers that show the fuses. -/
abbrev fuseShown : List Nat := [rSEC_STATUS, rSEC_SVN] ++ keyRegs

theorem fuseShown_apart : rSTK_QUEUE ∉ fuseShown ∧ rSTK_STATUS ∉ fuseShown := by
  constructor <;> intro h <;> obtain h | h := List.mem_append.mp h
  · revert h; decide
  · exact absurd (keyRegs_range _ h).1 (by decide)
  · revert h; decide
  · exact absurd (keyRegs_range _ h).1 (by decide)

theorem provision_ends {i : Instr} {s : State} {c : StkCmd} {f : Stk → Stk} {detail : Nat}
    (e : exec i s = .next ((s.updStk f).fuseRegs.stkDone c detail)) (hb : FusesOnlyBurn s.stk (f s.stk)) (hf : (f s.stk).queue = s.stk.queue) :
    completes i s fun t => stkEnds c 3 0 detail s t ∧ t.stk = { f s.stk with queue := s.stk.queue.filter fun e => e.ticket != c.ticket } ∧
      t.flag rSEC_STATUS fSEC_STATUS_KEY_PROV = (f s.stk).key.isSome ∧
      onlyIn (mEvent ||| mFreeCtr ||| mStk) (stkRegs c.ticket ++ [rSEC_STATUS, rSEC_SVN] ++ keyRegs) [976] s t := by
  have k1 : onlyIn mStk [] [] s (s.updStk f) := .other (.refl _ _ _ _) (touches_State.updStk _ _ hb) (by decide) (State.updStk_regs _ _)
  have s1 : (s.updStk f).stk = f s.stk := State.updStk_stk _ _
  generalize s.updStk f = u at *
  obtain ⟨-, g2, -, g4⟩ := fuseRegs_effect u rfl
  have s2 : u.fuseRegs.stk = f s.stk := (g4.1.stk (by decide)).trans s1
  have hrd (a : Nat) (ha : a ∉ fuseShown) : u.fuseRegs.rd a = s.rd a := (g4.2 a ha (by simp)).trans (k1.2 a (by simp) (by simp))
  rw [s1] at g2
  generalize u.fuseRegs = w at *
  obtain ⟨h1, h2, h3⟩ := stkEnd_effect w c 3 0 detail rfl
  rw [if_pos rfl] at h3
  have hl : fuseShown ⊆ stkRegs c.ticket ++ [rSEC_STATUS, rSEC_SVN] ++ keyRegs := by
    rw [List.append_assoc]
    exact List.subset_append_right _ _
  have hl' : stkRegs c.ticket ⊆ stkRegs c.ticket ++ [rSEC_STATUS, rSEC_SVN] ++ keyRegs := by
    rw [List.append_assoc]
    exact List.subset_append_left _ _
  refine ⟨_, e, stkEnds_of h1 (by rw [s2, hf]) (hrd _ fuseShown_apart.1) (hrd _ fuseShown_apart.2), ?_, ?_, ?_⟩
  · rw [State.stkDone, h2, s2, hf]
  · refine (flag_of_rd (h3.rd_apart ?_ (.inr (by decide)) (by simp))).trans g2
    simp only [stkRegs, List.mem_cons, List.not_mem_nil, or_false, rSTK_RESULT, rSTK_QUEUE, rSTK_STATUS, rSEC_STATUS]
    omega
  · exact ((k1.mono (by decide) (List.nil_subset _) (List.nil_subset _)).trans (g4.mono (by decide) hl (List.nil_subset _))).trans
      (h3.mono (by decide) hl' (List.Subset.refl _))

theorem fused_ends {i : Instr} {s : State} {c : StkCmd} {f : Stk → Stk}
    (e : exec i s = .next ((s.updStk f).fuseRegs.measureFuses.stkDone c 0)) (hb : FusesOnlyBurn s.stk (f s.stk)) (hf : (f s.stk).queue = s.stk.queue) :
    completes i s fun t => stkEnds c 3 0 0 s t ∧
      (∃ m, t.stk = { f s.stk with queue := s.stk.queue.filter fun e => e.ticket != c.ticket, meas := m }) ∧
      t.flag rSEC_STATUS fSEC_STATUS_KEY_LOCKED = (f s.stk).keyHash.isSome ∧ t.flag rSEC_STATUS fSEC_STATUS_SECURE_ARMED = (f s.stk).armed ∧
      t.flag rGLB_STATUS fGLB_STATUS_SECURE = s.flag rGLB_STATUS fGLB_STATUS_SECURE ∧
      onlyIn (mEvent ||| mFreeCtr ||| mStk) (stkRegs c.ticket ++ [rSEC_STATUS, rSEC_SVN, rSEC_MEAS] ++ keyRegs) [984, 976] s t := by
  have k1 : onlyIn mStk [] [] s (s.updStk f) := .other (.refl _ _ _ _) (touches_State.updStk _ _ hb) (by decide) (State.updStk_regs _ _)
  have s1 : (s.updStk f).stk = f s.stk := State.updStk_stk _ _
  generalize s.updStk f = u at *
  obtain ⟨g1, -, g3, g4⟩ := fuseRegs_effect u rfl
  have s2 : u.fuseRegs.stk = f s.stk := (g4.1.stk (by decide)).trans s1
  have hrd (a : Nat) (ha : a ∉ fuseShown) : u.fuseRegs.rd a = s.rd a := (g4.2 a ha (by simp)).trans (k1.2 a (by simp) (by simp))
  rw [s1] at g1 g3
  generalize u.fuseRegs = w at *
  have km : onlyIn (mEvent ||| mStk) [rSEC_MEAS] [984] w w.measureFuses := onlyIn_measure _ _ _
  have sm : ∃ m, w.measureFuses.stk = { f s.stk with meas := m } := ⟨_, (measure_stk _ _ _).trans (by rw [s2])⟩
  generalize w.measureFuses = x at *
  obtain ⟨m, sm⟩ := sm
  obtain ⟨h1, h2, h3⟩ := stkEnd_effect x c 3 0 0 rfl
  rw [if_pos rfl] at h3
  have mrd (a : Nat) (ha : a ≠ rSEC_MEAS) (hr : 0x20000 ≤ a) : x.rd a = w.rd a := km.rd_apart (by simpa using ha) (.inr hr) (by simp)
  have hst : (x.stkEnd c.ticket 3 0 0).rd rSEC_STATUS = w.rd rSEC_STATUS := by
    refine (h3.rd_apart ?_ (.inr (by decide)) (by simp)).trans (mrd _ (by decide) (by decide))
    simp only [stkRegs, List.mem_cons, List.not_mem_nil, or_false, rSTK_RESULT, rSTK_QUEUE, rSTK_STATUS, rSEC_STATUS]
    omega
  have hl : fuseShown ⊆ stkRegs c.ticket ++ [rSEC_STATUS, rSEC_SVN, rSEC_MEAS] ++ keyRegs := by
    intro a ha
    simp only [fuseShown, List.mem_append, List.mem_cons, List.not_mem_nil, or_false] at ha ⊢
    tauto
  have hm : [rSEC_MEAS] ⊆ stkRegs c.ticket ++ [rSEC_STATUS, rSEC_SVN, rSEC_MEAS] ++ keyRegs := by
    intro a ha
    simp only [List.mem_append, List.mem_cons, List.not_mem_nil, or_false] at ha ⊢
    tauto
  have hl' : stkRegs c.ticket ⊆ stkRegs c.ticket ++ [rSEC_STATUS, rSEC_SVN, rSEC_MEAS] ++ keyRegs := by
    rw [List.append_assoc]
    exact List.subset_append_left _ _
  have kt : onlyIn (mEvent ||| mFreeCtr ||| mStk) (stkRegs c.ticket ++ [rSEC_STATUS, rSEC_SVN, rSEC_MEAS] ++ keyRegs) [984, 976] s (x.stkEnd c.ticket 3 0 0) :=
    (((k1.mono (by decide) (List.nil_subset _) (List.nil_subset _)).trans (g4.mono (by decide) hl (List.nil_subset _))).trans
      (km.mono (by decide) hm (by simp))).trans (h3.mono (by decide) hl' (by simp))
  refine ⟨_, e, stkEnds_of h1 (by rw [sm]; exact hf) ((mrd _ (by decide) (by decide)).trans (hrd _ fuseShown_apart.1))
    ((mrd _ (by decide) (by decide)).trans (hrd _ fuseShown_apart.2)), ⟨m, ?_⟩, (flag_of_rd hst).trans g1, (flag_of_rd hst).trans g3, ?_, kt⟩
  · rw [State.stkDone, h2, sm]
    dsimp only
    rw [hf]
  · exact flag_of_rd (kt.1.glb (by decide) rGLB_STATUS (by decide))

/-! ### The commands -/

section
variable {c : StkCmd} {rest : List StkCmd} {s : State} (hg : s.glb ≠ 0) (hq : s.stk.queue = c :: rest) (hs : s.stkServes = true)

include hg hq hs

/-- A command that is not taken ends with its reason, and leaves the keys and the fuses as they are. -/
theorem head_fails {i : Instr} {code : Nat} (hc : c.code = code) {g : State → State} {f : StkCmd → State} (hi : exec i s = .next (s.live g))
    (hgf : g s = s.stkRun code f) {result reason : Nat} (ht : f c = s.stkEnd c.ticket result reason 0) (hr : result ≠ 3) :
    completes i s fun t => stkEnds c result reason 0 s t ∧ t.stk = { s.stk with queue := s.stk.queue.filter fun e => e.ticket != c.ticket } ∧
      onlyIn (mEvent ||| mFreeCtr ||| mStk) (stkRegs c.ticket) [977] s t :=
  stk_not_done (hi.trans (head_runs hg hq hs hc hgf ht)) hr

/-- A command that finds its work done ends DONE, and leaves the keys and the fuses as they are. -/
theorem head_done {i : Instr} {code : Nat} (hc : c.code = code) {g : State → State} {f : StkCmd → State} (hi : exec i s = .next (s.live g))
    (hgf : g s = s.stkRun code f) (ht : f c = s.stkEnd c.ticket 3 0 0) :
    completes i s fun t => stkEnds c 3 0 0 s t ∧ t.stk = { s.stk with queue := s.stk.queue.filter fun e => e.ticket != c.ticket } ∧
      onlyIn (mEvent ||| mFreeCtr ||| mStk) (stkRegs c.ticket) [976] s t :=
  (stk_ends (hi.trans (head_runs hg hq hs hc hgf ht))).imp fun _ ⟨h1, h2, h3⟩ => ⟨h1, h2, by rwa [if_pos rfl] at h3⟩

theorem keyProvision_all (data : HostRead) (ok : Bool) (hc : c.code = 5) (hst : s.storing = false) :
    (s.stk.keyHash ≠ none → completes (.keyProvision data ok) s fun t => stkEnds c 5 3 0 s t ∧ t.stk.key = s.stk.key ∧
      onlyIn (mEvent ||| mFreeCtr ||| mStk) (stkRegs c.ticket) [977] s t) ∧
    (s.stk.keyHash = none → data.fail = none → s.busOk = true → ok = true →
      completes (.keyProvision data ok) s fun t => stkEnds c 3 0 96 s t ∧ t.stk.key = some (leNat (data.bytes.take 96)) ∧
        t.flag rSEC_STATUS fSEC_STATUS_KEY_PROV = true ∧ t.stk.keyHash = none ∧
        onlyIn (mEvent ||| mFreeCtr ||| mStk) (stkRegs c.ticket ++ [rSEC_STATUS, rSEC_SVN] ++ keyRegs) [976] s t) ∧
    (s.stk.keyHash = none → data.fail = none → s.busOk = true → ok = false →
      completes (.keyProvision data ok) s fun t => stkEnds c 4 8 0 s t ∧ t.stk.key = s.stk.key ∧
        onlyIn (mEvent ||| mFreeCtr ||| mStk) (stkRegs c.ticket) [977] s t) := by
  refine ⟨fun h => ?_, fun h hf hb ho => ?_, fun h hf hb ho => ?_⟩
  · refine (head_fails hg hq hs hc (i := .keyProvision data ok) rfl rfl (result := 5) (reason := 3) ((if_neg (by simp [hst])).trans
      (if_pos (Option.isSome_iff_ne_none.mpr h))) (by decide)).imp fun t ⟨h1, h2, h3⟩ => ⟨h1, by rw [h2], h3⟩
  · have e : exec (.keyProvision data ok) s = .next ((s.updStk fun k => { k with key := some (leNat (data.bytes.take 96)) }).fuseRegs.stkDone c 96) :=
      head_runs (code := 5) hg hq hs hc rfl ((if_neg (by simp [hst])).trans ((if_neg (by simp [h])).trans ((if_neg (by simp [hf, hb])).trans
        (if_neg (by simp [ho])))))
    refine (provision_ends e ⟨Nat.le_refl _, Nat.le_refl _, fun k hk => ?_, fun h => h⟩ rfl).imp fun t ⟨h1, h2, h3, h4⟩ => ⟨h1, by rw [h2], h3, by rw [h2]; exact h, h4⟩
    rw [h] at hk
    cases hk
  · refine (head_fails hg hq hs hc (i := .keyProvision data ok) rfl rfl (result := 4) (reason := 8) ((if_neg (by simp [hst])).trans
      ((if_neg (by simp [h])).trans ((if_neg (by simp [hf, hb])).trans (if_pos (by simp [ho]))))) (by decide)).imp
        fun t ⟨h1, h2, h3⟩ => ⟨h1, by rw [h2], h3⟩

theorem keyLock_runs (ok : Bool) (hc : c.code = 6) {t : State} (h : (match s.stk.key with
      | none => s.stkRefused c 5
      | some k =>
        if s.stk.keyHash.isSome then s.stkDone c 0
        else if !ok then s.stkFailed c 9 0
        else (((s.updStk fun q => { q with keyHash := some (Config.sha384 (keyBytes k)) }).fuseRegs).measureFuses).stkDone c 0) = t) :
    exec (.keyLock ok) s = .next t :=
  head_runs (code := 6) hg hq hs hc rfl h

theorem keyLock_all (ok : Bool) (hc : c.code = 6) :
    (s.stk.key = none → completes (.keyLock ok) s fun t => stkEnds c 5 5 0 s t ∧ onlyIn (mEvent ||| mFreeCtr ||| mStk) (stkRegs c.ticket) [977] s t) ∧
    (∀ k, s.stk.key = some k → s.stk.keyHash ≠ none → completes (.keyLock ok) s fun t => stkEnds c 3 0 0 s t ∧ t.stk.keyHash = s.stk.keyHash ∧
      onlyIn (mEvent ||| mFreeCtr ||| mStk) (stkRegs c.ticket) [976] s t) ∧
    (∀ k, s.stk.key = some k → s.stk.keyHash = none → ok = false → completes (.keyLock ok) s fun t => stkEnds c 4 9 0 s t ∧ t.stk.keyHash = none ∧
      onlyIn (mEvent ||| mFreeCtr ||| mStk) (stkRegs c.ticket) [977] s t) ∧
    (∀ k, s.stk.key = some k → s.stk.keyHash = none → ok = true →
      completes (.keyLock ok) s fun t => stkEnds c 3 0 0 s t ∧ t.stk.keyHash = some (Config.sha384 (keyBytes k)) ∧ t.stk.key = some k ∧
        t.flag rSEC_STATUS fSEC_STATUS_KEY_LOCKED = true ∧
        onlyIn (mEvent ||| mFreeCtr ||| mStk) (stkRegs c.ticket ++ [rSEC_STATUS, rSEC_SVN, rSEC_MEAS] ++ keyRegs) [984, 976] s t) := by
  refine ⟨fun h => ?_, fun k h hh => ?_, fun k h hh ho => ?_, fun k h hh ho => ?_⟩
  · have e : exec (.keyLock ok) s = .next (s.stkEnd c.ticket 5 5 0) := keyLock_runs hg hq hs ok hc (by rw [h]; rfl)
    exact (stk_not_done e (by decide)).imp fun t ⟨h1, _, h3⟩ => ⟨h1, h3⟩
  · have e : exec (.keyLock ok) s = .next (s.stkEnd c.ticket 3 0 0) := keyLock_runs hg hq hs ok hc (by
      rw [h]
      exact if_pos (Option.isSome_iff_ne_none.mpr hh))
    exact (stk_ends e).imp fun t ⟨h1, h2, h3⟩ => ⟨h1, by rw [h2], by rwa [if_pos rfl] at h3⟩
  · have e : exec (.keyLock ok) s = .next (s.stkEnd c.ticket 4 9 0) := keyLock_runs hg hq hs ok hc (by
      rw [h]
      exact (if_neg (by simp [hh])).trans (if_pos (by simp [ho])))
    exact (stk_not_done e (by decide)).imp fun t ⟨h1, h2, h3⟩ => ⟨h1, by rw [h2]; exact hh, h3⟩
  · have e : exec (.keyLock ok) s = .next ((s.updStk fun q => { q with keyHash := some (Config.sha384 (keyBytes k)) }).fuseRegs.measureFuses.stkDone c 0) :=
      keyLock_runs hg hq hs ok hc (by
        rw [h]
        exact (if_neg (by simp [hh])).trans (if_neg (by simp [ho])))
    refine (fused_ends e ⟨Nat.le_refl _, Nat.le_refl _, fun q hk => ?_, fun h => h⟩ rfl).imp fun t ⟨h1, ⟨m, h2⟩, h3, _, _, h6⟩ =>
      ⟨h1, by rw [h2], by rw [h2]; exact h, h3, h6⟩
    rw [hh] at hk
    cases hk

theorem svnCommit_all (ok : Bool) (hc : c.code = 7) :
    (1 < c.arg 0 → completes (.svnCommit ok) s fun t => stkEnds c 5 1 0 s t ∧ onlyIn (mEvent ||| mFreeCtr ||| mStk) (stkRegs c.ticket) [977] s t) ∧
    (∀ svn, c.arg 0 = 0 → s.fld rSEC_SVN fSEC_SVN_K_SVN = svn →
      (svn ≤ s.stk.kFloor → completes (.svnCommit ok) s fun t => stkEnds c 3 0 0 s t ∧ t.stk.kFloor = s.stk.kFloor ∧
        onlyIn (mEvent ||| mFreeCtr ||| mStk) (stkRegs c.ticket) [976] s t) ∧
      (s.stk.kFloor < svn → ok = false → completes (.svnCommit ok) s fun t => stkEnds c 4 9 0 s t ∧ t.stk.kFloor = s.stk.kFloor ∧
        onlyIn (mEvent ||| mFreeCtr ||| mStk) (stkRegs c.ticket) [977] s t) ∧
      (s.stk.kFloor < svn → ok = true → completes (.svnCommit ok) s fun t => stkEnds c 3 0 0 s t ∧ t.stk.kFloor = svn ∧ t.stk.pFloor = s.stk.pFloor ∧
        onlyIn (mEvent ||| mFreeCtr ||| mStk) (stkRegs c.ticket ++ [rSEC_STATUS, rSEC_SVN, rSEC_MEAS] ++ keyRegs) [984, 976] s t)) := by
  refine ⟨fun h => ?_, fun svn h0 hv => ?_⟩
  · exact (head_fails hg hq hs hc (i := .svnCommit ok) rfl rfl (result := 5) (reason := 1) (if_pos h) (by decide)).imp fun t ⟨h1, _, h3⟩ => ⟨h1, h3⟩
  · have hn : ¬1 < c.arg 0 := by omega
    have run {t : State} (h : (if s.fld rSEC_SVN (if c.arg 0 = 0 then fSEC_SVN_K_SVN else fSEC_SVN_P_SVN) ≤ (if c.arg 0 = 0 then s.stk.kFloor else s.stk.pFloor)
        then s.stkDone c 0
        else if !ok then s.stkFailed c 9 0
        else ((s.updStk fun k => if c.arg 0 = 0 then { k with kFloor := s.fld rSEC_SVN (if c.arg 0 = 0 then fSEC_SVN_K_SVN else fSEC_SVN_P_SVN) }
          else { k with pFloor := s.fld rSEC_SVN (if c.arg 0 = 0 then fSEC_SVN_K_SVN else fSEC_SVN_P_SVN) }).fuseRegs.measureFuses).stkDone c 0) = t) :
        exec (.svnCommit ok) s = .next t := head_runs (code := 7) hg hq hs hc rfl ((if_neg hn).trans h)
    simp only [if_pos h0, hv] at run
    refine ⟨fun h => ?_, fun h ho => ?_, fun h ho => ?_⟩
    · have e : exec (.svnCommit ok) s = .next (s.stkEnd c.ticket 3 0 0) := run (if_pos h)
      exact (stk_ends e).imp fun t ⟨h1, h2, h3⟩ => ⟨h1, by rw [h2], by rwa [if_pos rfl] at h3⟩
    · have e : exec (.svnCommit ok) s = .next (s.stkEnd c.ticket 4 9 0) := run ((if_neg (by omega)).trans (if_pos (by simp [ho])))
      exact (stk_not_done e (by decide)).imp fun t ⟨h1, h2, h3⟩ => ⟨h1, by rw [h2], h3⟩
    · have e : exec (.svnCommit ok) s = .next ((s.updStk fun k => { k with kFloor := svn }).fuseRegs.measureFuses.stkDone c 0) :=
        run ((if_neg (by omega)).trans (if_neg (by simp [ho])))
      exact (fused_ends e ⟨Nat.le_of_lt h, Nat.le_refl _, fun q hk => ⟨hk, rfl⟩, fun h => h⟩ rfl).imp fun t ⟨h1, ⟨m, h2⟩, _, _, _, h6⟩ =>
        ⟨h1, by rw [h2], by rw [h2], h6⟩

theorem secureEnable_all (ok : Bool) (hc : c.code = 8) :
    (s.stk.keyHash = none → completes (.secureEnable ok) s fun t => stkEnds c 5 5 0 s t ∧
      onlyIn (mEvent ||| mFreeCtr ||| mStk) (stkRegs c.ticket) [977] s t) ∧
    (s.stk.keyHash ≠ none → s.stk.armed = true → completes (.secureEnable ok) s fun t => stkEnds c 3 0 0 s t ∧
      onlyIn (mEvent ||| mFreeCtr ||| mStk) (stkRegs c.ticket) [976] s t) ∧
    (s.stk.keyHash ≠ none → s.stk.armed = false → ok = false → completes (.secureEnable ok) s fun t => stkEnds c 4 9 0 s t ∧ t.stk.armed = false ∧
      onlyIn (mEvent ||| mFreeCtr ||| mStk) (stkRegs c.ticket) [977] s t) ∧
    (s.stk.keyHash ≠ none → s.stk.armed = false → ok = true → completes (.secureEnable ok) s fun t => stkEnds c 3 0 0 s t ∧ t.stk.armed = true ∧
      t.flag rSEC_STATUS fSEC_STATUS_SECURE_ARMED = true ∧ t.flag rGLB_STATUS fGLB_STATUS_SECURE = s.flag rGLB_STATUS fGLB_STATUS_SECURE ∧
      onlyIn (mEvent ||| mFreeCtr ||| mStk) (stkRegs c.ticket ++ [rSEC_STATUS, rSEC_SVN, rSEC_MEAS] ++ keyRegs) [984, 976] s t) := by
  refine ⟨fun h => ?_, fun h ha => ?_, fun h ha ho => ?_, fun h ha ho => ?_⟩
  · exact (head_fails hg hq hs hc (i := .secureEnable ok) rfl rfl (result := 5) (reason := 5) (if_pos (by simp [h])) (by decide)).imp
      fun t ⟨h1, _, h3⟩ => ⟨h1, h3⟩
  · exact (head_done hg hq hs hc (i := .secureEnable ok) rfl rfl ((if_neg (by simpa using h)).trans (if_pos ha))).imp fun t ⟨h1, _, h3⟩ => ⟨h1, h3⟩
  · exact (head_fails hg hq hs hc (i := .secureEnable ok) rfl rfl (result := 4) (reason := 9) ((if_neg (by simpa using h)).trans
      ((if_neg (by simp [ha])).trans (if_pos (by simp [ho])))) (by decide)).imp fun t ⟨h1, h2, h3⟩ => ⟨h1, by rw [h2]; exact ha, h3⟩
  · have e : exec (.secureEnable ok) s = .next ((s.updStk fun k => { k with armed := true }).fuseRegs.measureFuses.stkDone c 0) :=
      head_runs (code := 8) hg hq hs hc rfl ((if_neg (by simpa using h)).trans ((if_neg (by simp [ha])).trans (if_neg (by simp [ho]))))
    exact (fused_ends e ⟨Nat.le_refl _, Nat.le_refl _, fun q hk => ⟨hk, rfl⟩, fun _ => rfl⟩ rfl).imp fun t ⟨h1, ⟨m, h2⟩, _, h4, h5, h6⟩ =>
      ⟨h1, by rw [h2], h4, h5, h6⟩

end

/-- Settles O57, by the queue and then command by command. -/
theorem stokerCommands : Obligations.StokerCommands := by
  unfold Obligations.StokerCommands
  refine ⟨fun v c s h hv => ⟨fun hc => stkCmd_refused h (hv ▸ hc), fun k h1 h8 hl hb hk => stkCmd_queued h hv h1 h8 hl hb hk⟩,
    fun v k s h hv => ⟨fun hq => stkCancel_nothing h (hv ▸ hq), fun c hc ht hr => stkCancel_waiting h hv hc ht hr⟩,
    fun img data ok s hg => stk_idle img data ok hg, ?plain, ?update, ?fuses⟩
  case plain =>
    rintro c rest l s hg hq hs rfl
    exact ⟨nop_ends hg hq hs, flashRead_waits hg hq hs, fun hc hst => ⟨flashRead_refused hg hq hs hc hst, fun h0 h1 h2 hm =>
      ⟨flashRead_failed hg hq hs h0 h1 h2 hm hc hst, flashRead_done hg hq hs h0 h1 h2 hm hc hst⟩⟩,
      fun hc hr hst => ⟨calStore_refused hg hq hs hc hr hst, calStore_begins hg hq hs hc hr hst⟩⟩
  case update =>
    rintro c rest img ok kind n a l s hg hq hs hc hst rfl rfl rfl rfl
    refine ⟨fun hr => ⟨flashUpdate_refused hg hq hs hc hst img ok hr, fun h1 h2 hb => ⟨flashUpdate_unread hg hq hs hc hst img ok hr h1 h2 hb,
      fun code old hf hbus hlen hcode hold => flashUpdate_checked hg hq hs hc hst img ok hr h1 h2 hb hf hbus hlen hcode hold⟩⟩, fun hr => ⟨?_, ?_⟩⟩
    · rintro rfl
      exact flashUpdate_verified hg hq hs hc hst img hr
    · rintro rfl
      exact flashUpdate_unverified hg hq hs hc hst img hr
  case fuses =>
    rintro c rest data ok l s hg hq hs rfl
    exact ⟨keyProvision_all hg hq hs data ok, keyLock_all hg hq hs ok, svnCommit_all hg hq hs ok, secureEnable_all hg hq hs ok⟩

end Sys2Proof

end

section
/-! SUPPORT. DMA channels, and O51 (R439 to R449). -/

set_option Elab.async false

namespace Sys2Proof

open Sys2Proof.Machine

/-! ### START, ABORT and the binding -/

theorem dmaState_drop (s : State) (c a : Nat) : (s.dropStaged .host a).dmaState c = s.dmaState c := fld_of_rd (dropStaged_rd s _ a _)

theorem flag_of_bit {s : State} {a : Nat} {f : Fld} (hw : f.w = 1) : (fget (s.rd a) f == 1) = s.flag a f := by
  have h := fget_lt (s.rd a) f
  rw [hw] at h
  unfold State.flag State.fld
  generalize fget (s.rd a) f = n at *
  obtain rfl | rfl : n = 0 ∨ n = 1 := by omega
  · rfl
  · rfl

theorem dmaStart_runs {c : Fin 128} {v : Word} {s : State} (hr : s.ready = true) (hv : fget v fDMA_CTRL_ABORT = 0) {t : State}
    (e : (s.dropStaged .host (rDMA_CTRL c)).dmaStart c = t) : exec (.dmaStart c v) s = .next t := by
  have h1 : fget (fset v fDMA_CTRL_START 1) fDMA_CTRL_ABORT = 0 := by rw [fget_fset_apart _ _ _ _ (by decide), hv]
  have h2 : fget (fset v fDMA_CTRL_START 1) fDMA_CTRL_START = 1 := fget_fset_self _ _ _ (by decide)
  refine next_hostWr hr (?_ : State.wrDmaCtrl c (fset v fDMA_CTRL_START 1) (s.dropStaged .host (rDMA_CTRL c)) = t)
  unfold State.wrDmaCtrl
  rw [h1, h2]
  exact e

theorem dmaAbort_runs {c : Fin 128} {v : Word} {s : State} (hr : s.ready = true) (hv : fget v fDMA_CTRL_START = 0) {t : State}
    (e : (if s.dmaState c = 1 ∨ s.dmaState c = 2 then (s.dropStaged .host (rDMA_CTRL c)).dmaKill c 0 else s.dropStaged .host (rDMA_CTRL c)) = t) :
    exec (.dmaAbort c v) s = .next t := by
  have h1 : fget (fset v fDMA_CTRL_ABORT 1) fDMA_CTRL_START = 0 := by rw [fget_fset_apart _ _ _ _ (by decide), hv]
  have h2 : fget (fset v fDMA_CTRL_ABORT 1) fDMA_CTRL_ABORT = 1 := fget_fset_self _ _ _ (by decide)
  refine next_hostWr hr (?_ : State.wrDmaCtrl c (fset v fDMA_CTRL_ABORT 1) (s.dropStaged .host (rDMA_CTRL c)) = t)
  unfold State.wrDmaCtrl
  rw [h1, h2, if_neg (by decide), dmaState_drop, ← e]
  simp

theorem srExit_off {s : State} (h : s.selfRefresh = false) : s.srExit = s := by
  unfold State.srExit
  rw [h]
  rfl

theorem dmaStart_idle {c : Fin 128} {v : Word} {s : State} (hr : s.ready = true) (hv : fget v fDMA_CTRL_ABORT = 0) (hsr : s.selfRefresh = false)
    (hst : s.dmaState c = 0 ∨ s.dmaState c = 3) :
    exec (.dmaStart c v) s = .next ((((s.dropStaged .host (rDMA_CTRL c)).setFld (rDMA_LIMIT c) fDMA_LIMIT_COUNT 0).setDma c { dma0 with
        phase := .fetch (s.fld (rDMA_HEAD c) fDMA_HEAD_ADDR * 64) (s.flag (rDMA_HEAD c) fDMA_HEAD_STORE) true }).setDmaState c 1) := by
  refine dmaStart_runs hr hv ?_
  have h1 : (s.dropStaged .host (rDMA_CTRL c)).selfRefresh = false := (flag_of_rd (dropStaged_rd _ _ _ _)).trans hsr
  unfold State.dmaStart
  rw [srExit_off h1]
  dsimp only
  rw [dmaState_drop, dropStaged_rd, flag_of_bit rfl]
  exact if_pos (by simpa using hst)

theorem dmaStart_busy {c : Fin 128} {v : Word} {s : State} (hr : s.ready = true) (hv : fget v fDMA_CTRL_ABORT = 0) (hsr : s.selfRefresh = false)
    (hst : s.dmaState c = 1 ∨ s.dmaState c = 2) :
    exec (.dmaStart c v) s = .next ((s.dropStaged .host (rDMA_CTRL c)).addSat (rDMA_STATUS c) fDMA_STATUS_CFG_DISC 1) := by
  refine dmaStart_runs hr hv ?_
  have h1 : (s.dropStaged .host (rDMA_CTRL c)).selfRefresh = false := (flag_of_rd (dropStaged_rd _ _ _ _)).trans hsr
  unfold State.dmaStart
  rw [srExit_off h1]
  dsimp only
  rw [dmaState_drop]
  refine if_neg ?_
  obtain h | h := hst <;> simp [h]

/-- ABORT of a channel that holds no record of a cord. -/
theorem dmaKill_effect {s : State} {c : Nat} (hc : c < 128) (hp : (s.dmaCh c).phase ≠ .none) (hrefs : (s.dmaCh c).refs = []) (hop : (s.dmaCh c).op ≠ 1)
    (hcr : (s.dmaCh c).crec = false) {t : State} (e : s.dmaKill c 0 = t) : t.dmaState c = 0 ∧ t.dmaCh c = dma0 ∧
      t.fld (rDMA_STATUS c) fDMA_STATUS_LAST = 1 ∧ (∀ k, k ≠ c → t.dmaCh k = s.dmaCh k) ∧
      onlyIn (mEvent ||| mPorts ||| mDma) [rDMA_STATUS c, rDMA_BYTES c] [768 + c] s t := by
  have ends (h : s.dmaEnd c dsAborted noBeat 0 0 = t) := dmaEnd_aborted hc rfl hrefs hcr (.inl hop) noBeat 0 (stop := 0) (by decide) h
  unfold State.dmaKill at e
  cases h : (s.dmaCh c).phase with
  | none => exact absurd h hp
  | ready => simp only [h] at e; exact ends e
  | moving => simp only [h] at e; exact ends e
  | moved a b d => simp only [h] at e; exact ends e
  | fetch a b f =>
    simp only [h] at e
    have k1 : onlyIn (mEvent ||| mPorts ||| mDma) [rDMA_STATUS c, rDMA_BYTES c] [768 + c] s ((s.addMod (rDMA_STATUS c) fDMA_STATUS_DESCS 1).setFld
        (rDMA_STATUS c) fDMA_STATUS_LAST dsAborted) :=
      .of_hi (.setFld (.addMod (.refl _ _ _ _))) (by simp only [List.mem_cons, List.not_mem_nil, or_false, rDMA_STATUS, rDMA_BYTES]; omega)
    have f1 := State.fld_setFld_self (s.addMod (rDMA_STATUS c) fDMA_STATUS_DESCS 1) (rDMA_STATUS c) fDMA_STATUS_LAST dsAborted (by decide)
    have c1 (k : Nat) : ((s.addMod (rDMA_STATUS c) fDMA_STATUS_DESCS 1).setFld (rDMA_STATUS c) fDMA_STATUS_LAST dsAborted).dmaCh k = s.dmaCh k := by
      rw [(touches_State.setFld _ _ _ _).dmaCh (by decide), (touches_State.addMod _ _ _ _).dmaCh (by decide)]
    generalize (s.addMod _ _ _).setFld (rDMA_STATUS c) _ _ = u at *
    obtain ⟨h1, h2, h3, -, h5, h6⟩ := dmaLeft_effect u hc (stop := 0) (by decide) dsAborted 0 e
    exact ⟨h1, h2, (h5 _ (by decide)).trans f1, fun k hk => (h3 k hk).trans (c1 k), k1.trans (h6.mono (by decide) (by simp) (fun _ h => h))⟩

theorem dmaAbort_effect {c : Fin 128} {v : Word} {s : State} (hr : s.ready = true) (hv : fget v fDMA_CTRL_START = 0)
    (hst : s.dmaState c = 1 ∨ s.dmaState c = 2) (hp : (s.dmaCh c).phase ≠ .none) (hrefs : (s.dmaCh c).refs = []) (hop : (s.dmaCh c).op ≠ 1)
    (hcr : (s.dmaCh c).crec = false) :
    completes (.dmaAbort c v) s fun t => t.dmaState c = 0 ∧ t.dmaCh c = dma0 ∧ t.fld (rDMA_STATUS c) fDMA_STATUS_LAST = 1 ∧
        (∀ k : Nat, k ≠ c → t.dmaCh k = s.dmaCh k) ∧
        onlyIn (mEvent ||| mStaged ||| mPorts ||| mDma) [rDMA_STATUS c, rDMA_BYTES c] [768 + c] s t := by
  have hd (k : Nat) : (s.dropStaged .host (rDMA_CTRL c)).dmaCh k = s.dmaCh k := (touches_State.dropStaged _ _ _).dmaCh (by decide) k
  have kd : onlyIn (mEvent ||| mStaged ||| mPorts ||| mDma) [rDMA_STATUS c, rDMA_BYTES c] [768 + c.val] s (s.dropStaged .host (rDMA_CTRL c)) :=
    .dropStaged (.refl _ _ _ _)
  have e := dmaAbort_runs (c := c) hr hv (if_pos hst)
  generalize s.dropStaged .host (rDMA_CTRL c) = u at *
  obtain ⟨h1, h2, h3, h4, h5⟩ := dmaKill_effect (s := u) c.isLt (by rwa [hd]) (by rwa [hd]) (by rwa [hd]) (by rwa [hd]) rfl
  exact ⟨_, e, h1, h2, h3, fun k hk => (h4 k hk).trans (hd k), kd.trans (h5.mono (by decide) (fun _ h => h) (fun _ h => h))⟩

/-! A write of DMA_CFG, with what it asks for. -/

theorem dmaGiveBind_eq (c : Fin 128) (v : Word) {s : State} (hr : s.ready = true) : exec (.dmaGiveBind c v) s = .next
    (if (fget v fDMA_CFG_GIVE_VALID == s.fld (rDMA_CFG c) fDMA_CFG_GIVE_VALID && fget v fDMA_CFG_GIVE_CTX == s.fld (rDMA_CFG c) fDMA_CFG_GIVE_CTX)
        || ((s.dmaState c == 0 || s.dmaState c == 3) && (fget v fDMA_CFG_GIVE_VALID == 0 || ((s.ctx (fget v fDMA_CFG_GIVE_CTX)).st == .opened
          && (s.ctx (fget v fDMA_CFG_GIVE_CTX)).runtime && !((upTo 128).any fun k => k != c && s.flag (rDMA_CFG k) fDMA_CFG_GIVE_VALID
            && s.fld (rDMA_CFG k) fDMA_CFG_GIVE_CTX == fget v fDMA_CFG_GIVE_CTX))))
      then (s.dropStaged .host (rDMA_CFG c)).wrCodes (rDMA_CFG c) (keepRange (s.rd (rDMA_CFG c)) fDMA_CFG_IDLE_US 1 255 v) []
      else (s.dropStaged .host (rDMA_CFG c)).addSat (rDMA_STATUS c) fDMA_STATUS_CFG_DISC 1) := by
  refine next_hostWr hr (?_ : State.wrDmaCfg c v (s.dropStaged .host (rDMA_CFG c)) = _)
  have hrd (a : Nat) := dropStaged_rd s .host (rDMA_CFG c) a
  have hctx (x : Nat) : (s.dropStaged .host (rDMA_CFG c)).ctx x = s.ctx x := by
    rw [State.ctx, (touches_State.dropStaged _ _ _).ctxs (by decide), State.ctx]
  unfold State.wrDmaCfg
  simp only [fget_keepRange_apart _ _ _ _ _ _ (show fDMA_CFG_IDLE_US.apart fDMA_CFG_GIVE_VALID = true by decide),
    fget_keepRange_apart _ _ _ _ _ _ (show fDMA_CFG_IDLE_US.apart fDMA_CFG_GIVE_CTX = true by decide), hrd, hctx, fld_of_rd (hrd _), flag_of_rd (hrd _),
    dmaState_drop]

theorem dmaGiveBind_taken {c : Fin 128} {v : Word} {s : State} (hr : s.ready = true) (hst : s.dmaState c = 0 ∨ s.dmaState c = 3)
    (ho : (s.ctx (fget v fDMA_CFG_GIVE_CTX)).st = .opened) (hrt : (s.ctx (fget v fDMA_CFG_GIVE_CTX)).runtime = true)
    (hother : ∀ k < 128, k ≠ c.val → s.flag (rDMA_CFG k) fDMA_CFG_GIVE_VALID = false ∨ s.fld (rDMA_CFG k) fDMA_CFG_GIVE_CTX ≠ fget v fDMA_CFG_GIVE_CTX) :
    exec (.dmaGiveBind c v) s = .next ((s.dropStaged .host (rDMA_CFG c)).wrCodes (rDMA_CFG c)
        (keepRange (s.rd (rDMA_CFG c)) fDMA_CFG_IDLE_US 1 255 v) []) := by
  have hany : ((upTo 128).any fun k => k != c && s.flag (rDMA_CFG k) fDMA_CFG_GIVE_VALID
      && s.fld (rDMA_CFG k) fDMA_CFG_GIVE_CTX == fget v fDMA_CFG_GIVE_CTX) = false := by
    rw [List.any_eq_false]
    intro k hk
    simp only [Bool.and_eq_true, bne_iff_ne, beq_iff_eq, not_and]
    intro ⟨hne, hf⟩ hx
    obtain h | h := hother k (List.mem_range.mp hk) hne
    · rw [h] at hf
      cases hf
    · exact h hx
  rw [dmaGiveBind_eq c v hr, hany, ho, hrt, if_pos]
  simp only [Bool.or_eq_true, Bool.and_eq_true, beq_iff_eq]
  exact .inr ⟨hst, .inr (by decide)⟩

theorem dmaGiveBind_discarded {c : Fin 128} {v : Word} {s : State} (hr : s.ready = true) (hv : fget v fDMA_CFG_GIVE_VALID = 1)
    (hf : s.flag (rDMA_CFG c) fDMA_CFG_GIVE_VALID = false)
    (h : s.dmaState c = 1 ∨ s.dmaState c = 2 ∨ (s.ctx (fget v fDMA_CFG_GIVE_CTX)).st ≠ .opened ∨
        (s.ctx (fget v fDMA_CFG_GIVE_CTX)).runtime = false ∨
        ∃ k : Fin 128, k ≠ c ∧ s.flag (rDMA_CFG k) fDMA_CFG_GIVE_VALID = true ∧
          s.fld (rDMA_CFG k) fDMA_CFG_GIVE_CTX = fget v fDMA_CFG_GIVE_CTX) :
    exec (.dmaGiveBind c v) s = .next ((s.dropStaged .host (rDMA_CFG c)).addSat (rDMA_STATUS c) fDMA_STATUS_CFG_DISC 1) := by
  rw [dmaGiveBind_eq c v hr, if_neg]
  rw [(State.flag_false_iff _ _ _).mp hf, hv]
  simp only [Bool.or_eq_true, Bool.and_eq_true, beq_iff_eq, not_or, not_and, Bool.not_eq_true', Bool.not_eq_false]
  refine ⟨fun h => absurd h (by decide), fun hst => ⟨by decide, fun ⟨ho, hrt⟩ => ?_⟩⟩
  obtain h | h | h | h | ⟨k, hk, hkf, hkx⟩ := h
  · omega
  · omega
  · exact absurd ho h
  · rw [h] at hrt
    cases hrt
  · exact List.any_eq_true.mpr ⟨k, List.mem_range.mpr k.isLt, by
      simp only [hkf, hkx, beq_self_eq_true, Bool.and_true, bne_iff_ne, ne_eq]
      exact fun e => hk (Fin.ext e)⟩

end Sys2Proof

end

section
/-! SUPPORT. The fetch of a descriptor and its checks, NOP, and O51 (R440, R441, R447, R448). -/

set_option Elab.async false

namespace Sys2Proof

open Sys2Proof.Machine

/-! ### The checks of a descriptor -/

theorem descCheck_range {s : State} {c : Nat} {d : Dma} {e : Nat} (h : s.descCheck c d = some e) : 2 ≤ e ∧ e < 256 := by
  unfold State.descCheck at h
  dsimp only at h
  split_ifs at h <;> cases h <;> decide

/-- A check looks at the cords, the billets' references and the channel's binding only. -/
theorem descCheck_congr {s t : State} (c : Nat) (d : Dma) (hx : t.ctxs = s.ctxs) (hb : t.billets = s.billets)
    (hr : t.rd (rDMA_CFG c) = s.rd (rDMA_CFG c)) : t.descCheck c d = s.descCheck c d := by
  unfold State.descCheck State.takeCtx State.billet
  rw [hx, hb, flag_of_rd hr]

section
variable {s : State} {c : Nat} {d : Dma}

theorem descCheck_bad_op (h : 5 < d.op) : s.descCheck c d = some 17 := if_pos (by simp [h])

variable (r1 : d.w 0 ⟨7, 25⟩ = 0) (r2 : d.w 1 ⟨2, 4⟩ = 0) (r3 : d.w 3 ⟨45, 19⟩ = 0) (r4 : d.words.getD 6 0 = 0) (r5 : d.words.getD 7 0 = 0)
  (hcr : d.crec = false) (hop : d.op ≤ 5)

include r1 r2 r3 r4 r5 hop

theorem descCheck_legal_op : ¬(decide (5 < d.op) || (d.w 0 ⟨7, 25⟩ != 0 || d.w 1 ⟨2, 4⟩ != 0 || d.w 3 ⟨45, 19⟩ != 0 || d.words.getD 6 0 != 0
    || d.words.getD 7 0 != 0)) = true := by
  rw [r1, r2, r3, r4, r5]
  simp
  omega

theorem descCheck_unaligned (h : d.host % 64 ≠ 0 ∨ d.len % 64 ≠ 0) : s.descCheck c d = some 16 := by
  refine (if_neg (descCheck_legal_op r1 r2 r3 r4 r5 hop)).trans (if_pos ?_)
  obtain h | h := h <;> simp [h]

include hcr

theorem descCheck_no_data (h : d.op = 0 ∨ d.op = 4 ∨ d.op = 5) (h1 : d.host % 64 = 0) (h2 : d.len % 64 = 0) : s.descCheck c d = none := by
  refine (if_neg (descCheck_legal_op r1 r2 r3 r4 r5 hop)).trans ((if_neg ?_).trans ((if_neg ?_).trans ((if_neg ?_).trans ((if_neg ?_).trans (if_neg ?_)))))
  · obtain h | h | h := h <;> simp [h, h1, h2, hcr]
  · obtain h | h | h := h <;> simp [h]
  · obtain h | h | h := h <;> simp [h]
  · obtain h | h | h := h <;> simp [h]
  · obtain h | h | h := h <;> simp [h]

variable (h0 : 1 ≤ d.op) (h3 : d.op ≤ 3) (hh : d.host % 64 = 0) (hl : d.len % 64 = 0) (ho : d.op = 3 → d.storeOff % 64 = 0)
  (hsg : d.sg = false) (hsegs : d.segs = [(d.host, d.len)])

include h0 h3 hh hl ho hsg hsegs

theorem descCheck_aligned : s.descCheck c d = if (d.len == 0) = true then some dsBad
    else if d.op = 1 && (s.takeCtx c).isNone then some dsNotBound
    else if d.op = 2 && !s.flag (rDMA_CFG c) fDMA_CFG_GIVE_VALID then some dsNotBound
    else if d.op = 3 && (billetsOver d.storeOff d.len).any (fun b => (s.billet b).swref == 0) then some dsNoRef
    else none := by
  refine (if_neg (descCheck_legal_op r1 r2 r3 r4 r5 hop)).trans ((if_neg ?_).trans ?_)
  · rw [hsegs, hcr]
    simp only [List.any_cons, List.any_nil, hh, hl]
    by_cases h : d.op = 3
    · simp [h, ho h]
    · simp [h]
  · rw [hsg]
    simp [h0, h3]

theorem descCheck_data : (d.len = 0 → s.descCheck c d = some 17) ∧
    (0 < d.len → d.op = 1 → s.takeCtx c = none → s.descCheck c d = some 23) ∧
    (0 < d.len → d.op = 2 → s.flag (rDMA_CFG c) fDMA_CFG_GIVE_VALID = false → s.descCheck c d = some 23) ∧
    (0 < d.len → d.op = 3 → (∃ b ∈ billetsOver d.storeOff d.len, (s.billet b).swref = 0) → s.descCheck c d = some 26) := by
  rw [descCheck_aligned (s := s) (c := c) r1 r2 r3 r4 r5 hcr hop h0 h3 hh hl ho hsg hsegs]
  refine ⟨fun h => if_pos (by simp [h]), fun hn h ht => (if_neg (by simp; omega)).trans (if_pos (by simp [h, ht])),
    fun hn h hf => (if_neg (by simp; omega)).trans ((if_neg (by simp [h])).trans (if_pos (by simp [h, hf]))),
    fun hn h ⟨b, hb, hz⟩ => (if_neg (by simp; omega)).trans ((if_neg (by simp [h])).trans ((if_neg (by simp [h])).trans (if_pos ?_)))⟩
  rw [h]
  simp only [decide_true, Bool.true_and]
  exact List.any_eq_true.mpr ⟨b, hb, by simp [hz]⟩

end

/-! ### The fetch -/

theorem dmaFetch_idle {s : State} {c : Nat} (h : ∀ a b f, (s.dmaCh c).phase ≠ .fetch a b f) (desc list : HostRead) : s.dmaFetch c desc list = s := by
  unfold State.dmaFetch
  split
  · next a b f hp => exact absurd hp (h a b f)
  · rfl

theorem dmaFetch_loops {s : State} {c a : Nat} {b f : Bool} (hp : (s.dmaCh c).phase = .fetch a b f) (h : s.fld (rDMA_LIMIT c) fDMA_LIMIT_LIMIT =
      s.fld (rDMA_LIMIT c) fDMA_LIMIT_COUNT ∨ f = false ∧ a / 64 = s.fld (rDMA_HEAD c) fDMA_HEAD_ADDR ∧ b = s.flag (rDMA_HEAD c) fDMA_HEAD_STORE)
    (desc list : HostRead) : s.dmaFetch c desc list = s.dmaNoRead c dsLoop a b := by
  unfold State.dmaFetch
  simp only [hp]
  refine if_pos ?_
  obtain h | ⟨rfl, h1, h2⟩ := h
  · unfold State.fld at h
    simp [h]
  · have hs : b2n b = fget (s.rd (rDMA_HEAD c)) fDMA_HEAD_STORE := by
      have hb := flag_of_bit (s := s) (a := rDMA_HEAD c) (f := fDMA_HEAD_STORE) rfl
      have hlt := fget_lt (s.rd (rDMA_HEAD c)) fDMA_HEAD_STORE
      rw [h2, ← hb]
      generalize fget (s.rd (rDMA_HEAD c)) fDMA_HEAD_STORE = n at *
      obtain rfl | rfl : n = 0 ∨ n = 1 := by
        have : n < 2 := hlt
        omega
      · rfl
      · rfl
    unfold State.fld at h1
    simp [h1, hs]

/-- The fetch of a chain's first descriptor from host memory, with requests possible and the count below its limit. -/
theorem dmaFetch_host {s : State} {c a : Nat} (hp : (s.dmaCh c).phase = .fetch a false true)
    (hl : s.fld (rDMA_LIMIT c) fDMA_LIMIT_LIMIT ≠ s.fld (rDMA_LIMIT c) fDMA_LIMIT_COUNT) (hb : s.busOk = true) (desc list : HostRead) :
    (∀ at_ timeout, desc.fail = some (at_, timeout) → s.dmaFetch c desc list =
      ((s.addMod (rDMA_LIMIT c) fDMA_LIMIT_COUNT 1).hostFail timeout).dmaNoRead c (if timeout then dsFetchTimeout else dsFetchErr) a false) ∧
    (∀ d, desc.fail = none → d = { dma0 with
        phase := .ready, addr := a, words := descWords (desc.bytes.take 64)
        segs := [(fget ((descWords (desc.bytes.take 64)).getD 2 0) ⟨0, 64⟩, fget ((descWords (desc.bytes.take 64)).getD 3 0) ⟨0, 32⟩)] } →
      d.sg = false → s.dmaFetch c desc list = match (s.addMod (rDMA_LIMIT c) fDMA_LIMIT_COUNT 1).descCheck c d with
        | some e => ((s.addMod (rDMA_LIMIT c) fDMA_LIMIT_COUNT 1).setDma c d).dmaEnd c e noBeat 0 3
        | none => (s.addMod (rDMA_LIMIT c) fDMA_LIMIT_COUNT 1).setDma c d) := by
  have hlim : ¬(fget (s.rd (rDMA_LIMIT c)) fDMA_LIMIT_LIMIT == fget (s.rd (rDMA_LIMIT c)) fDMA_LIMIT_COUNT) = true := by simpa [State.fld] using hl
  refine ⟨fun at_ timeout hf => ?_, fun d hf hd hsg => ?_⟩
  · unfold State.dmaFetch
    simp only [hp, hf, hb]
    refine (if_neg (by simpa using hlim)).trans ((if_neg (by simp)).trans ((if_neg (by simp)).trans ((if_pos (by simp)).trans ?_)))
    cases timeout <;> rfl
  · unfold State.dmaFetch
    simp only [hp, hf, hb]
    refine (if_neg (by simpa using hlim)).trans ((if_neg (by simp)).trans ((if_neg (by simp)).trans ((if_neg (by simp)).trans ?_)))
    have hsg' : ({ dma0 with phase := .ready, addr := a + b2n false, words := descWords (desc.bytes.take 64) } : Dma).sg = false := by
      rw [← hsg, hd]
      rfl
    simp only [Bool.false_eq_true, if_false, hsg', Bool.false_and]
    rw [hd]
    rfl

theorem onlyIn_counted {l srcs : List Nat} (s : State) (c : Nat) (hl : rDMA_LIMIT c ∈ l) (hs : ∀ a ∈ l, 0x1000 ≤ a) :
    onlyIn (mEvent ||| mPorts ||| mDma) l srcs s (s.addMod (rDMA_LIMIT c) fDMA_LIMIT_COUNT 1) := .of_hi (.addMod (.refl _ _ _ _) hl) hs

theorem fetch_fails {s : State} {c : Fin 128} (hg : s.glb ≠ 0) (desc list : HostRead) {a at_ : Nat} {timeout : Bool} (hp : (s.dmaCh c).phase = .fetch a false true)
    (hl : s.fld (rDMA_LIMIT c) fDMA_LIMIT_LIMIT ≠ s.fld (rDMA_LIMIT c) fDMA_LIMIT_COUNT) (hb : s.busOk = true) (hf : desc.fail = some (at_, timeout)) :
    completes (.dmaDescFetch c desc list) s fun t => t.dmaState c = 3 ∧ t.dmaCh c = dma0 ∧
        t.fld (rDMA_STATUS c) fDMA_STATUS_LAST = (if timeout then 19 else 20) ∧
        onlyIn (mEvent ||| mDma) [rGLB_HIF_CTO, rGLB_HIF_ERR, rDMA_LIMIT c, rDMA_STATUS c, rDMA_ERR c, rDMA_ERR_INFO c] [993, 994, 768 + c] s t := by
  have e := (dmaFetch_host hp hl hb desc list).1 at_ timeout hf
  have k1 : onlyIn (mEvent ||| mDma) [rDMA_LIMIT c] [] s (s.addMod (rDMA_LIMIT c) fDMA_LIMIT_COUNT 1) :=
    .of_hi (.addMod (.refl _ _ _ _)) (by simp only [List.mem_singleton, rDMA_LIMIT]; omega)
  generalize s.addMod _ _ _ = u at *
  have k2 := onlyIn_hostFail u timeout
  generalize u.hostFail timeout = w at *
  have hst : (if timeout then dsFetchTimeout else dsFetchErr) < 256 := by cases timeout <;> decide
  obtain ⟨h1, h2, h3, -, -, h6⟩ := dmaNoRead_effect w c.isLt hst a false rfl
  refine ⟨_, next_live hg e, h1, h2, h3, ((k1.mono (by decide) (by simp) (by simp)).trans (k2.mono (by decide) ?_ ?_)).trans
    (h6.mono (by decide) (by simp) (by simp))⟩
  · cases timeout <;> simp
  · cases timeout <;> simp

theorem fetch_checked {s : State} {c : Fin 128} (hg : s.glb ≠ 0) (desc list : HostRead) {a : Nat} {d : Dma} (hp : (s.dmaCh c).phase = .fetch a false true)
    (hl : s.fld (rDMA_LIMIT c) fDMA_LIMIT_LIMIT ≠ s.fld (rDMA_LIMIT c) fDMA_LIMIT_COUNT) (hb : s.busOk = true) (hf : desc.fail = none)
    (hd : d = { dma0 with
        phase := .ready, addr := a, words := descWords (desc.bytes.take 64)
        segs := [(fget ((descWords (desc.bytes.take 64)).getD 2 0) ⟨0, 64⟩, fget ((descWords (desc.bytes.take 64)).getD 3 0) ⟨0, 32⟩)] })
    (hsg : d.sg = false) :
    (s.descCheck c d = none → exec (.dmaDescFetch c desc list) s = .next ((s.addMod (rDMA_LIMIT c) fDMA_LIMIT_COUNT 1).setDma c d)) ∧
    (∀ e, s.descCheck c d = some e → d.crec = false →
      completes (.dmaDescFetch c desc list) s fun t => t.dmaState c = 3 ∧ t.dmaCh c = dma0 ∧ t.fld (rDMA_STATUS c) fDMA_STATUS_LAST = e ∧
          t.fld (rDMA_LIMIT c) fDMA_LIMIT_COUNT = (s.fld (rDMA_LIMIT c) fDMA_LIMIT_COUNT + 1) % 2 ^ 32 ∧
          t.fld (rDMA_ERR c) fDMA_ERR_ADDR = a / 64 % 2 ^ 58 ∧ t.fld (rDMA_ERR_INFO c) fDMA_ERR_INFO_BEAT = 2 ^ 32 - 1 ∧
          t.fld (rDMA_ERR_INFO c) fDMA_ERR_INFO_BYTES = 0 ∧
          onlyIn (mEvent ||| mPorts ||| mDma) [rDMA_LIMIT c, rDMA_STATUS c, rDMA_BYTES c, rDMA_ERR c, rDMA_ERR_INFO c] [768 + c] s t) := by
  have ef := (dmaFetch_host hp hl hb desc list).2 d hf hd hsg
  have hne : rDMA_CFG c ≠ rDMA_LIMIT c := by simp only [rDMA_CFG, rDMA_LIMIT]; omega
  have hchk := descCheck_congr (s := s) (t := s.addMod (rDMA_LIMIT c) fDMA_LIMIT_COUNT 1) c d ((touches_State.addMod _ _ _ _).ctxs (by decide))
    ((touches_State.addMod _ _ _ _).billets (by decide)) (State.rd_setFld_other _ _ _ hne)
  rw [hchk] at ef
  have hn := State.fld_addMod_self s (rDMA_LIMIT c) fDMA_LIMIT_COUNT 1 (by decide)
  have k1 := onlyIn_counted (l := [rDMA_LIMIT c, rDMA_STATUS c, rDMA_BYTES c, rDMA_ERR c, rDMA_ERR_INFO c]) (srcs := [768 + c.val]) s c (by simp) (by
    simp only [List.mem_cons, List.not_mem_nil, or_false, rDMA_LIMIT, rDMA_STATUS, rDMA_BYTES, rDMA_ERR, rDMA_ERR_INFO]; omega)
  generalize s.addMod (rDMA_LIMIT c) _ _ = u at *
  refine ⟨fun h => next_live hg (by rw [ef, h]), fun e h hcr => ?_⟩
  rw [h] at ef
  have kd : Touches mDma u (u.setDma c d) := touches_State.setDma _ _ _
  have hch := dmaCh_setDma_same u c d
  generalize u.setDma c d = w at *
  have hrefs : d.refs = [] := by rw [hd]; rfl
  have hrecs : d.recs = 0 := by rw [hd]; rfl
  have haddr : d.addr = a := by rw [hd]
  have hbytes : d.bytes = 0 := by rw [hd]; rfl
  obtain ⟨h1, h2, h3, h4, h5, h6, h7⟩ := dmaEnd_error c.isLt hch hrefs hcr (.inr hrecs) (descCheck_range h) noBeat 0 3 rfl
  refine ⟨_, next_live hg ef, h1, h2, h3, ?_, by rw [h4, haddr], h5, by rw [h6, hbytes]; rfl,
    (k1.trans (.other (.refl _ _ _ _) kd (by decide) (kd.regs (by decide)))).trans (h7.mono (by decide) (List.subset_cons_self _ _) (List.Subset.refl _))⟩
  rw [fld_of_rd (h7.rd_apart (by simp only [List.mem_cons, List.not_mem_nil, or_false, rDMA_LIMIT, rDMA_STATUS, rDMA_BYTES, rDMA_ERR, rDMA_ERR_INFO]; omega)
    (.inr (by simp only [rDMA_LIMIT]; omega)) (by simp only [List.mem_singleton]; omega)), State.fld_congr (kd.regs (by decide)), hn]

/-! ### NOP -/

theorem nop_effect {s : State} {c : Fin 128} (hg : s.glb ≠ 0) (hp : (s.dmaCh c).phase = .ready) (ho : (s.dmaCh c).op = 0) (hcr : (s.dmaCh c).crec = false)
    (hrefs : (s.dmaCh c).refs = []) : completes (.dmaNop c) s fun t =>
        t.fld (rDMA_STATUS c) fDMA_STATUS_DESCS = (s.fld (rDMA_STATUS c) fDMA_STATUS_DESCS + 1) % 2 ^ 32 ∧
        t.fld (rDMA_STATUS c) fDMA_STATUS_LAST = 0 ∧
        ((s.dmaCh c).w 1 ⟨0, 1⟩ = 0 → t.dmaCh c = dma0 ∧ t.dmaState c = 0) ∧
        ((s.dmaCh c).w 1 ⟨0, 1⟩ = 1 → t.dmaState c = s.dmaState c ∧
          t.dmaCh c = { dma0 with phase := .fetch ((s.dmaCh c).w 1 ⟨6, 58⟩ * 64) ((s.dmaCh c).w 1 ⟨1, 1⟩ == 1) false }) ∧
        ((s.dmaCh c).irq = false → t.evt = s.evt ∧ t.outs = s.outs ∧ t.hostMem = s.hostMem) ∧
        onlyIn (mEvent ||| mPorts ||| mDma) [rDMA_STATUS c, rDMA_BYTES c] [768 + c] s t := by
  obtain ⟨h1, h2, -, h4, h5, h6, h7⟩ := dmaEnd_done c.isLt rfl hrefs hcr (by omega) noBeat 0 3 rfl
  have e : s.dmaNop c = s.dmaEnd c dsDone noBeat 0 3 := if_pos (by simp [State.dmaReady, hp, ho])
  exact ⟨_, next_live hg e, h1, h2, h4, h5, fun hi => ⟨(h6 hi).1.evt (by decide), (h6 hi).1.outs (by decide), (h6 hi).1.hostMem (by decide)⟩, h7⟩

/-- Settles O51, by the host's writes, the fetch and NOP. -/
theorem dmaChannels : Obligations.DmaChannels := by
  unfold Obligations.DmaChannels
  refine ⟨fun c v s hr hv hsr => ⟨dmaStart_idle hr hv hsr, dmaStart_busy hr hv hsr⟩,
    fun c v s hr hv => ⟨fun hst => dmaAbort_runs hr hv (if_neg (by omega)), fun hst hp hrefs hop hcr => dmaAbort_effect hr hv hst hp hrefs hop hcr⟩,
    fun c v s hr => ⟨dmaGiveBind_taken hr, dmaGiveBind_discarded hr⟩, fun c desc list s hg => ⟨?idle, ?loops, ?fails, ?checked⟩,
    fun c s hg => ⟨?nothing, nop_effect hg⟩⟩
  case idle => exact fun h => next_live hg (dmaFetch_idle h desc list)
  case loops =>
    intro a b f hp h
    exact completes_of_eq (next_live hg (dmaFetch_loops hp h desc list)) (dmaNoRead_effect s c.isLt (by decide) a b rfl)
  case fails => exact fun a at_ timeout hp hl hb hf => fetch_fails hg desc list hp hl hb hf
  case checked =>
    intro a d hp hl hb hf hd hsg
    obtain ⟨h1, h2⟩ := fetch_checked hg desc list hp hl hb hf hd hsg
    refine ⟨h1, h2, descCheck_bad_op, fun r1 r2 r3 r4 r5 hcr => ⟨fun hop h => descCheck_unaligned r1 r2 r3 r4 r5 hop h,
      fun h hh hlen => descCheck_no_data r1 r2 r3 r4 r5 hcr (by omega) h hh hlen, fun h0 h3 hh hlen ho =>
      descCheck_data r1 r2 r3 r4 r5 hcr (by omega) h0 h3 hh hlen ho hsg ?_⟩⟩
    rw [hd]
    rfl
  case nothing =>
    intro h
    refine next_live hg (if_neg ?_)
    simp only [State.dmaReady, Bool.and_eq_true, beq_iff_eq, not_and]
    exact fun hp => h.resolve_left fun k => k hp

end Sys2Proof

end

section
/-! SUPPORT. Network ports: which avenues are up, the link of a sub-port and NET_PORT_CFG (R457, R460). -/

set_option Elab.async false

namespace Sys2Proof.Machine

/-! ### The avenues that are up are read off the STATUS registers of the avenues -/

variable {α β : Type}

theorem SMap.filterMap_del (g : Nat × α → Option β) (m : SMap α) (k : Nat) (h : ∀ v, g (k, v) = none) :
    (m.del k).filterMap g = m.filterMap g := by
  induction m with
  | nil => rfl
  | cons e t ih =>
    obtain ⟨k', v⟩ := e
    by_cases hk : k' = k
    · subst hk
      simp [SMap.del, ih, h]
    · simp [SMap.del, hk, List.filterMap_cons, ih]

theorem SMap.filterMap_ins (g : Nat × α → Option β) (m : SMap α) (k : Nat) (v : α) (h : g (k, v) = none) :
    (m.ins k v).filterMap g = m.filterMap g := by
  induction m with
  | nil => simp [SMap.ins, h]
  | cons e t ih =>
    obtain ⟨k', v'⟩ := e
    rw [SMap.ins]
    split
    · simp [List.filterMap_cons, h]
    · simp [List.filterMap_cons, ih]

theorem SMap.filterMap_set [DecidableEq α] (g : Nat × α → Option β) (d : α) (m : SMap α) (k : Nat) (v : α) (h : ∀ v, g (k, v) = none) :
    (SMap.set d m k v).filterMap g = m.filterMap g := by
  rw [SMap.set]
  split
  · exact SMap.filterMap_del g m k h
  · rw [SMap.filterMap_ins g _ k v (h v), SMap.filterMap_del g m k h]

/-- The avenues that are up by a table of registers. -/
def avesIn (m : SMap Word) : List Nat :=
  m.filterMap fun e =>
    if rAVE_STATUS 0 ≤ e.1 && e.1 < 0xA80000 && (e.1 - rAVE_STATUS 0) % 0x80 == 0 && fget e.2 fAVE_STATUS_STATE != 0 then
      some ((e.1 - rAVE_STATUS 0) / 0x80)
    else none

theorem avesUp_eq (s : State) : s.avesUp = avesIn s.regs := rfl

/-- Is `a` the address of some AVE_STATUS register? -/
def aveStatusAt (a : Nat) : Bool := rAVE_STATUS 0 ≤ a && a < 0xA80000 && (a - rAVE_STATUS 0) % 0x80 == 0

theorem avesIn_set (d : Word) (m : SMap Word) {a : Nat} (v : Word) (h : aveStatusAt a = false) : avesIn (SMap.set d m a v) = avesIn m := by
  refine SMap.filterMap_set _ _ _ _ _ fun w => if_neg ?_
  unfold aveStatusAt at h
  rw [h, Bool.false_and]
  exact Bool.false_ne_true

theorem avesUp_wr (s : State) {a : Nat} (v : Word) (h : aveStatusAt a = false) : (s.wr a v).avesUp = s.avesUp := by
  rw [avesUp_eq, avesUp_eq]
  exact avesIn_set _ _ v h

theorem avesUp_setFld (s : State) {a : Nat} (f : Fld) (n : Nat) (h : aveStatusAt a = false) : (s.setFld a f n).avesUp = s.avesUp := avesUp_wr s _ h
theorem avesUp_setFlds (s : State) {a : Nat} (l : List (Fld × Nat)) (h : aveStatusAt a = false) : (s.setFlds a l).avesUp = s.avesUp := avesUp_wr s _ h
theorem avesUp_addSat (s : State) {a : Nat} (f : Fld) (n : Nat) (h : aveStatusAt a = false) : (s.addSat a f n).avesUp = s.avesUp := avesUp_wr s _ h
theorem avesUp_addMod (s : State) {a : Nat} (f : Fld) (n : Nat) (h : aveStatusAt a = false) : (s.addMod a f n).avesUp = s.avesUp := avesUp_wr s _ h

theorem avesUp_wrCodes (s : State) {a : Nat} (v : Word) (l : List Fld) (h : aveStatusAt a = false) : (s.wrCodes a v l).avesUp = s.avesUp := by
  unfold State.wrCodes
  split
  · rfl
  · exact avesUp_wr s _ h

theorem avesUp_of_regs {s t : State} (h : t.regs = s.regs) : t.avesUp = s.avesUp := by rw [avesUp_eq, avesUp_eq, h]

theorem avesUp_signal (s : State) (v : Nat) : (s.signal v).avesUp = s.avesUp := avesUp_of_regs ((touches_State.signal s v).regs (by decide))

theorem avesUp_onEvt (s : State) (f : Evt → Evt) : (s.onEvt f).avesUp = s.avesUp := avesUp_of_regs (State.onEvt_regs s f)
theorem avesUp_hostWrite (s : State) (a : Nat) (bs : List Byte) : (s.hostWrite a bs).avesUp = s.avesUp := avesUp_of_regs (State.hostWrite_regs s a bs)

theorem avesUp_ringPut (s : State) (src : Nat) (obj : Option Nat) (code detail : Nat) (inj : Bool) :
    (s.ringPut src obj code detail inj).avesUp = s.avesUp := by
  unfold State.ringPut
  split
  · dsimp only
    split
    · rw [avesUp_setFld _ _ _ (by decide), avesUp_onEvt, avesUp_hostWrite, avesUp_onEvt, avesUp_addMod s _ _ (by decide)]
    · rw [avesUp_onEvt, avesUp_addSat _ _ _ (by decide), avesUp_onEvt, avesUp_addMod s _ _ (by decide)]
  · rfl

theorem aveStatusAt_evtSrc {src : Nat} (h : src < 1024) : aveStatusAt (rEVT_SRC src) = false := by
  have : ¬ rAVE_STATUS 0 ≤ rEVT_SRC src := by simp only [rAVE_STATUS, rEVT_SRC]; omega
  simp [aveStatusAt, this]

theorem avesUp_raiseWith (s : State) {src : Nat} (obj : Option Nat) (code detail : Nat) (inj : Bool) (lim key : Nat) (h : src < 1024) :
    (s.raiseWith src obj code detail inj lim key).avesUp = s.avesUp := by
  unfold State.raiseWith
  dsimp only
  have e0 := (avesUp_addMod (s.setFlds (rEVT_SRC src) [(fEVT_SRC_STATUS, 1), (fEVT_SRC_COUNT, s.fld (rEVT_SRC src) fEVT_SRC_COUNT + 1)])
    fEVT_STAT_RAISED 1 (a := rEVT_STAT) (by decide)).trans (avesUp_setFlds s _ (aveStatusAt_evtSrc h))
  generalize ((s.setFlds (rEVT_SRC src) _).addMod rEVT_STAT _ _) = u at *
  rw [← e0]
  split
  · split
    · exact avesUp_onEvt u _
    · rw [avesUp_signal, avesUp_ringPut]
      split
      · exact avesUp_onEvt u _
      · rw [avesUp_onEvt, avesUp_onEvt]
  · exact avesUp_onEvt u _

theorem avesUp_raise (s : State) {src : Nat} (obj : Option Nat) (code detail : Nat) (h : src < 1024) :
    (s.raise src obj code detail).avesUp = s.avesUp := avesUp_raiseWith s obj code detail false 0 0 h

theorem avesUp_raiseLim (s : State) (us : Nat) {src : Nat} (obj : Option Nat) (code detail key : Nat) (h : src < 1024) :
    (s.raiseLim us src obj code detail key).avesUp = s.avesUp := avesUp_raiseWith s obj code detail false us key h

end Sys2Proof.Machine

namespace Sys2Proof

open Sys2Proof.Machine

/-! ### The link (R457, R460) -/

theorem netS_updNet_same (s : State) (i : Nat) (f : NetSub → NetSub) : (s.updNet i f).netS i = f (s.netS i) :=
  SMap.get_upd_same _ _ _ _

theorem netS_updNet_other (s : State) {i k : Nat} (f : NetSub → NetSub) (h : k ≠ i) : (s.updNet i f).netS k = s.netS k :=
  SMap.get_upd_other _ _ _ _ h

theorem netS_of_net {s t : State} (h : t.net = s.net) (i : Nat) : t.netS i = s.netS i := congrArg (fun m => SMap.get net0 m i) h

theorem linkUp_of_rd {s t : State} {i : Nat} (h : t.rd (rNET_SUB_STATUS i) = s.rd (rNET_SUB_STATUS i)) : t.linkUp i = s.linkUp i := flag_of_rd h

/-- What a sub-port is left with when it loses LINK. -/
def netDropped (s : State) (i : Nat) : State :=
  (((s.setFlds (rNET_SUB_STATUS i) [(fNET_SUB_STATUS_LINK, 0), (fNET_SUB_STATUS_SPEED, 0)]).addSat (rNET_SUB_STATUS i) fNET_SUB_STATUS_DOWNS 1).updNet
    i fun n => { n with pause := none, down := s.time, queue := [] })

theorem netDown_eq {s : State} {i : Nat} (h : s.linkUp i = true) : s.netDown i = ((netDropped s i).exqTxDrop i).raise (896 + i) (some i) :=
  if_pos h

theorem netDown_off {s : State} {i : Nat} (h : s.linkUp i = false) : s.netDown i = s := if_neg (by rw [h]; decide)

theorem netStatus_ne_txIdx (i k : Nat) (h : i < 16) (hk : k < 16) : rNET_SUB_STATUS k ≠ rNET_EXQ_TX_IDX i := by
  simp only [rNET_SUB_STATUS, rNET_EXQ_TX_IDX]; omega

/-- The counters of a sub-port lie above the events. -/
theorem netReg_range {i : Nat} {a : Nat} (ha : 0x900000 ≤ a) (h : i < 16) : a < 0x10000 ∨ 0x12000 + 8 * (896 + i) < a := by omega

/-- The addresses of the network ports are below those of the avenues. -/
theorem aveStatusAt_below {a : Nat} (h : a < 0xA00000) : aveStatusAt a = false := by
  have : ¬ rAVE_STATUS 0 ≤ a := by simp only [rAVE_STATUS]; omega
  simp [aveStatusAt, this]

theorem netStatus_below {i : Nat} (h : i < 16) : rNET_SUB_STATUS i < 0xA00000 := by simp only [rNET_SUB_STATUS]; omega

theorem netDropped_effect {s : State} {i : Nat} (hi : i < 16) {u : State} (e : netDropped s i = u) :
    onlyIn (mEvent ||| mNet ||| mGlb) [rNET_SUB_STATUS i, rNET_EXQ_TX_IDX i] [896 + i] s u ∧
      u.netS i = { s.netS i with pause := none, down := s.time, queue := [] } ∧ (∀ k : Nat, k ≠ i → u.netS k = s.netS k) ∧
      u.fld (rNET_SUB_STATUS i) fNET_SUB_STATUS_LINK = 0 ∧ u.fld (rNET_SUB_STATUS i) fNET_SUB_STATUS_SPEED = 0 ∧
      u.fld (rNET_SUB_STATUS i) fNET_SUB_STATUS_DOWNS = satN 16 (s.fld (rNET_SUB_STATUS i) fNET_SUB_STATUS_DOWNS + 1) ∧
      u.fld (rNET_EXQ_TX_IDX i) fNET_EXQ_TX_IDX_TAIL = s.fld (rNET_EXQ_TX_IDX i) fNET_EXQ_TX_IDX_TAIL ∧ u.avesUp = s.avesUp := by
  have hne := netStatus_ne_txIdx i i hi hi
  have hst := aveStatusAt_below (netStatus_below hi)
  unfold netDropped at e
  have k1 : onlyIn (mEvent ||| mNet ||| mGlb) [rNET_SUB_STATUS i, rNET_EXQ_TX_IDX i] [896 + i] s ((s.setFlds (rNET_SUB_STATUS i)
      [(fNET_SUB_STATUS_LINK, 0), (fNET_SUB_STATUS_SPEED, 0)]).addSat (rNET_SUB_STATUS i) fNET_SUB_STATUS_DOWNS 1) :=
    .addSat (.setFlds (.refl _ _ _ _))
  have av := (avesUp_addSat (s.setFlds (rNET_SUB_STATUS i) [(fNET_SUB_STATUS_LINK, 0), (fNET_SUB_STATUS_SPEED, 0)]) fNET_SUB_STATUS_DOWNS 1 hst).trans
    (avesUp_setFlds s _ hst)
  have hl : ((s.setFlds (rNET_SUB_STATUS i) [(fNET_SUB_STATUS_LINK, 0), (fNET_SUB_STATUS_SPEED, 0)]).addSat (rNET_SUB_STATUS i)
      fNET_SUB_STATUS_DOWNS 1).fld (rNET_SUB_STATUS i) fNET_SUB_STATUS_LINK = 0 := by simp (disch := decide)
  have hs : ((s.setFlds (rNET_SUB_STATUS i) [(fNET_SUB_STATUS_LINK, 0), (fNET_SUB_STATUS_SPEED, 0)]).addSat (rNET_SUB_STATUS i)
      fNET_SUB_STATUS_DOWNS 1).fld (rNET_SUB_STATUS i) fNET_SUB_STATUS_SPEED = 0 := by simp (disch := decide)
  have hd : ((s.setFlds (rNET_SUB_STATUS i) [(fNET_SUB_STATUS_LINK, 0), (fNET_SUB_STATUS_SPEED, 0)]).addSat (rNET_SUB_STATUS i)
      fNET_SUB_STATUS_DOWNS 1).fld (rNET_SUB_STATUS i) fNET_SUB_STATUS_DOWNS = satN 16 (s.fld (rNET_SUB_STATUS i) fNET_SUB_STATUS_DOWNS + 1) := by
    simp (disch := decide)
  have ht := (State.fld_addSat_other (s.setFlds (rNET_SUB_STATUS i) [(fNET_SUB_STATUS_LINK, 0), (fNET_SUB_STATUS_SPEED, 0)]) fNET_SUB_STATUS_DOWNS
    fNET_EXQ_TX_IDX_TAIL 1 hne.symm).trans (State.fld_setFlds_other s _ fNET_EXQ_TX_IDX_TAIL hne.symm)
  have hn : ((s.setFlds (rNET_SUB_STATUS i) [(fNET_SUB_STATUS_LINK, 0), (fNET_SUB_STATUS_SPEED, 0)]).addSat (rNET_SUB_STATUS i)
      fNET_SUB_STATUS_DOWNS 1).net = s.net := by simp only [State.addSat_net, State.setFlds_net]
  generalize (s.setFlds _ _).addSat _ _ _ = w at *
  have hreg : u.regs = w.regs := by
    rw [← e]
    exact State.updNet_regs _ _ _
  have hf (a : Nat) (f : Fld) : u.fld a f = w.fld a f := State.fld_congr hreg a f
  refine ⟨?_, ?_, fun k hk => ?_, (hf _ _).trans hl, (hf _ _).trans hs, (hf _ _).trans hd, (hf _ _).trans ht, ?_⟩
  · rw [← e]
    exact k1.other (touches_State.updNet w i _) (by decide) (State.updNet_regs _ _ _)
  · rw [← e, netS_updNet_same, netS_of_net hn]
  · rw [← e, netS_updNet_other _ _ hk, netS_of_net hn]
  · rw [← av, ← e]
    exact avesUp_of_regs (State.updNet_regs _ _ _)

/-- A sub-port with LINK loses it. -/
theorem netDown_effect {s : State} {i : Nat} (hi : i < 16) (h : s.linkUp i = true) {t : State} (e : s.netDown i = t) :
    t.linkUp i = false ∧ t.fld (rNET_SUB_STATUS i) fNET_SUB_STATUS_SPEED = 0 ∧
      t.fld (rNET_SUB_STATUS i) fNET_SUB_STATUS_DOWNS = satN 16 (s.fld (rNET_SUB_STATUS i) fNET_SUB_STATUS_DOWNS + 1) ∧
      t.netS i = { s.netS i with pause := none, down := s.time, queue := [] } ∧ (∀ k : Nat, k ≠ i → t.netS k = s.netS k) ∧
      t.fld (rNET_EXQ_TX_IDX i) fNET_EXQ_TX_IDX_DONE_IDX = s.fld (rNET_EXQ_TX_IDX i) fNET_EXQ_TX_IDX_TAIL ∧
      onlyIn (mEvent ||| mNet) [rNET_SUB_STATUS i, rNET_EXQ_TX_IDX i] [896 + i] s t ∧ t.avesUp = s.avesUp := by
  rw [netDown_eq h] at e
  have hne := netStatus_ne_txIdx i i hi hi
  obtain ⟨k1, n1, n2, hl, hs, hd, ht, av⟩ := netDropped_effect (s := s) hi rfl
  generalize netDropped s i = u at *
  unfold State.exqTxDrop at e
  have r1 : rNET_SUB_STATUS i < 0x10000 ∨ 0x12000 + 8 * (896 + i) < rNET_SUB_STATUS i := netReg_range (by simp only [rNET_SUB_STATUS]; omega) hi
  have r2 : rNET_EXQ_TX_IDX i < 0x10000 ∨ 0x12000 + 8 * (896 + i) < rNET_EXQ_TX_IDX i := netReg_range (by simp only [rNET_EXQ_TX_IDX]; omega) hi
  have hta : aveStatusAt (rNET_EXQ_TX_IDX i) = false := aveStatusAt_below (by simp only [rNET_EXQ_TX_IDX]; omega)
  have fs (f : Fld) : t.fld (rNET_SUB_STATUS i) f = u.fld (rNET_SUB_STATUS i) f := by
    rw [← e, State.fld_raise_other _ _ _ _ _ _ _ r1, State.fld_setFld_other _ _ _ _ hne]
  have tn : t.net = u.net := by
    rw [← e]
    exact (touches_State.raise _ _ _ _ _).net (by decide)
  refine ⟨(State.flag_false_iff _ _ _).mpr ((fs _).trans hl), (fs _).trans hs, (fs _).trans hd, (netS_of_net tn _).trans n1,
    fun k hk => (netS_of_net tn k).trans (n2 k hk), ?_, ?_, ?_⟩
  · rw [← e, State.fld_raise_other _ _ _ _ _ _ _ r2, State.fld_setFld_self _ _ _ _ (by decide), ← ht]
    exact State.fld_mod u _ fNET_EXQ_TX_IDX_TAIL
  · rw [← e]
    exact .of_hi (.raise (.setFld k1)) (by simp only [List.mem_cons, List.not_mem_nil, or_false, rNET_SUB_STATUS, rNET_EXQ_TX_IDX]; omega)
  · rw [← e, avesUp_raise _ _ _ _ (by omega), avesUp_setFld _ _ _ hta, av]

end Sys2Proof

end

section
/-! SUPPORT. A write of NET_PORT_CFG, and the lock of a sub-port (R457, R460, R471). -/

set_option Elab.async false

namespace Sys2Proof

open Sys2Proof.Machine

/-! ### NET_PORT_CFG (R457) -/

theorem netKeeps_admCapture (s : State) : keeps 0x900000 0xE00000 s s.admCapture := by
  unfold State.admCapture
  refine .overList (.wr (.wr (.addMod (.refl _ _ _) (by decide)) _ (by decide)) _ (by decide)) fun t r hr => .wr (.refl _ _ _) _ ?_
  have := List.mem_range.mp hr
  simp only [rADM_RES]
  omega

theorem netKeeps_admNote (s : State) (o : Option AdmFail) : keeps 0x900000 0xE00000 s (s.admNote o) := by
  unfold State.admNote
  cases o with
  | none => exact (keeps.setFld (.refl _ _ _) (by decide)).trans (netKeeps_admCapture _)
  | some f =>
    have k : keeps 0x900000 0xE00000 s (s.setFlds rADM_STATUS [(fADM_STATUS_REASON, f.1), (fADM_STATUS_RESOURCE, f.2.1), (fADM_STATUS_CONTEXT, f.2.2)]) :=
      .setFlds (.refl _ _ _) (by decide)
    exact .ite (k.trans (netKeeps_admCapture _)) ((keeps.raise (k.setFld (by decide)) (by decide)).trans (netKeeps_admCapture _))

/-- A new test of the admitted set shows in the registers of admission only. -/
theorem netKeeps_admRetest (s : State) : keeps 0x900000 0xE00000 s s.admRetest := by
  unfold State.admRetest
  exact (keeps.setFld (.refl _ _ _) (by decide)).trans (netKeeps_admNote _ _)

/-- A sub-port that is brought down, with LINK or without. -/
theorem netDown_any (s : State) {i : Nat} (hi : i < 16) : (s.netDown i).linkUp i = false ∧ (∀ k : Nat, k ≠ i → (s.netDown i).netS k = s.netS k) ∧
    (s.netDown i).avesUp = s.avesUp ∧ ∀ k < 16, s.linkUp k = false → (s.netDown i).linkUp k = false := by
  cases h : s.linkUp i with
  | false =>
    rw [netDown_off h]
    exact ⟨h, fun _ _ => rfl, rfl, fun _ _ h => h⟩
  | true =>
    obtain ⟨h1, -, -, -, h5, -, h7, h8⟩ := netDown_effect hi h rfl
    refine ⟨h1, h5, h8, fun k hk hf => ?_⟩
    obtain rfl | hne := eq_or_ne k i
    · exact h1
    · rw [linkUp_of_rd (h7.rd_apart ?_ (.inr ?_) (by simp; omega)), hf]
      · simp only [List.mem_cons, List.not_mem_nil, or_false, rNET_SUB_STATUS, rNET_EXQ_TX_IDX]
        omega
      · simp only [rNET_SUB_STATUS]
        omega

/-- Several sub-ports are brought down. -/
theorem netDown_list (l : List Nat) (s : State) (hl : ∀ i ∈ l, i < 16) : (∀ i < 16, i ∈ l ∨ s.linkUp i = false →
    (l.foldl (fun (t : State) i => t.netDown i) s).linkUp i = false) ∧
    (∀ k, k ∉ l → (l.foldl (fun (t : State) i => t.netDown i) s).netS k = s.netS k) ∧
    (l.foldl (fun (t : State) i => t.netDown i) s).avesUp = s.avesUp := by
  induction l generalizing s with
  | nil => exact ⟨fun i _ h => h.elim (fun h => absurd h (by simp)) id, fun _ _ => rfl, rfl⟩
  | cons i l ih =>
    obtain ⟨d1, d2, d3, d4⟩ := netDown_any s (hl i (by simp))
    obtain ⟨h1, h2, h3⟩ := ih (s.netDown i) fun k hk => hl k (by simp [hk])
    refine ⟨fun k hk hc => h1 k hk ?_, fun k hk => ?_, h3.trans d3⟩
    · obtain hc | hc := hc
      · obtain rfl | hc := List.mem_cons.mp hc
        · exact .inr d1
        · exact .inl hc
      · exact .inr (d4 k hk hc)
    · rw [List.mem_cons, not_or] at hk
      exact (h2 k hk.2).trans (d2 k hk.1)

theorem portMode_rw : ∀ p : Fin 4, rwField (rNET_PORT_CFG p) fNET_PORT_CFG_MODE = true := by decide

/-- A legal MODE with no avenue up. -/
theorem wrPortCfg_legal {p : Fin 4} {v : Word} {s : State} (hv : fget v fNET_PORT_CFG_MODE ≤ 5) (ha : s.avesUp = []) {t : State}
    (e : State.wrPortCfg p v s = t) : t.fld (rNET_PORT_CFG p) fNET_PORT_CFG_MODE = fget v fNET_PORT_CFG_MODE ∧
        (∀ k < 4, t.linkUp (4 * p + k) = false) ∧ (∀ i, i / 4 ≠ p.val → t.netS i = s.netS i) ∧ Touches (mEvent ||| mNet) s t := by
  have hrw := portMode_rw p
  have hp := p.isLt
  unfold State.wrPortCfg at e
  rw [if_neg (by omega)] at e
  dsimp only at e
  have hfold : (upTo 4).foldl (fun (t : State) k => t.netDown (4 * p + k)) s =
      ((upTo 4).map fun k => 4 * p.val + k).foldl (fun (t : State) i => t.netDown i) s := List.foldl_map.symm
  have tn : Touches (mEvent ||| mNet) s (((upTo 4).map fun k => 4 * p.val + k).foldl (fun (t : State) i => t.netDown i) s) :=
    .overList (.refl _ _) fun t i => touches_State.netDown t i
  obtain ⟨h1, h2, h3⟩ := netDown_list ((upTo 4).map fun k => 4 * p.val + k) s fun i hi => by
    obtain ⟨k, hk, rfl⟩ := List.mem_map.mp hi
    have := List.mem_range.mp hk
    omega
  rw [hfold] at e
  generalize ((upTo 4).map fun k => 4 * p.val + k).foldl (fun (t : State) i => t.netDown i) s = u at *
  have hm := State.fld_wrCodes_rw u hrw v []
  have ha2 : (u.wrCodes (rNET_PORT_CFG p) v []).avesUp = [] :=
    (avesUp_wrCodes u v [] (aveStatusAt_below (by simp only [rNET_PORT_CFG]; omega))).trans (h3.trans ha)
  have hl (k : Nat) (hk : k < 4) : (u.wrCodes (rNET_PORT_CFG p) v []).linkUp (4 * p + k) = false := by
    rw [linkUp_of_rd (State.rd_wrCodes_other u v [] (by simp only [rNET_PORT_CFG, rNET_SUB_STATUS]; omega))]
    exact h1 _ (by omega) (.inl (List.mem_map.mpr ⟨k, List.mem_range.mpr hk, rfl⟩))
  have hn : (u.wrCodes (rNET_PORT_CFG p) v []).net = u.net := (touches_State.wrCodes _ _ _ _).net (by decide)
  have tw : Touches (mEvent ||| mNet) s (u.wrCodes (rNET_PORT_CFG p) v []) := tn.trans ((touches_State.wrCodes_hi u (rNET_PORT_CFG p) v []
    (by simp only [rNET_PORT_CFG]; omega)).mono (by decide))
  generalize u.wrCodes (rNET_PORT_CFG p) v [] = w at *
  rw [ha2, List.filter_nil, List.foldl_nil] at e
  have ka := netKeeps_admRetest w
  rw [e] at ka
  have ta := touches_State.admRetest w
  rw [e] at ta
  refine ⟨(ka.fld _ _ ?_).trans hm, fun k hk => ?_, fun i hi => ?_, tw.trans (ta.mono (by decide))⟩
  · simp only [rNET_PORT_CFG]
    omega
  · rw [linkUp_of_rd (ka _ (by simp only [rNET_SUB_STATUS]; omega) (by simp only [rNET_SUB_STATUS]; omega)), hl k hk]
  · rw [netS_of_net (ta.net (by decide)), netS_of_net hn, h2 i]
    intro hmem
    obtain ⟨k, hk, rfl⟩ := List.mem_map.mp hmem
    have := List.mem_range.mp hk
    omega

theorem netPortCfgWrite_runs {p : Fin 4} {v : Word} {s t : State} (hr : s.ready = true)
    (e : State.wrPortCfg p v (s.dropStaged .host (rNET_PORT_CFG p)) = t) : exec (.netPortCfgWrite p v) s = .next t := next_hostWr hr e

/-- NET_PORT_CFG_WRITE of a legal MODE with no avenue up. -/
theorem netPortCfgWrite_effect {p : Fin 4} {v : Word} {s : State} (hr : s.ready = true) (hv : fget v fNET_PORT_CFG_MODE ≤ 5) (ha : s.avesUp = []) :
    completes (.netPortCfgWrite p v) s fun t => t.fld (rNET_PORT_CFG p) fNET_PORT_CFG_MODE = fget v fNET_PORT_CFG_MODE ∧
        (∀ k < 4, t.linkUp (4 * p + k) = false) ∧ (∀ i, i / 4 ≠ p.val → t.netS i = s.netS i) ∧
        Touches (mEvent ||| mStaged ||| mNet) s t := by
  have e := netPortCfgWrite_runs (p := p) (v := v) hr rfl
  have td := touches_State.dropStaged s .host (rNET_PORT_CFG p)
  have hd : (s.dropStaged .host (rNET_PORT_CFG p)).avesUp = [] := (avesUp_of_regs (td.regs (by decide))).trans ha
  generalize s.dropStaged .host (rNET_PORT_CFG p) = u at *
  obtain ⟨h1, h2, h3, h4⟩ := wrPortCfg_legal hv hd rfl
  exact ⟨_, e, h1, h2, fun i hi => (h3 i hi).trans (netS_of_net (td.net (by decide)) i), (td.mono (by decide)).trans (h4.mono (by decide))⟩

/-! ### LINK comes (R457, R471) -/

theorem aveU_updAve_same (s : State) (a : Nat) (f : Ave → Ave) : (s.updAve a f).aveU a = f (s.aveU a) := SMap.get_upd_same _ _ _ _

theorem aveU_updAve_other (s : State) {a b : Nat} (f : Ave → Ave) (h : b ≠ a) : (s.updAve a f).aveU b = s.aveU b :=
  SMap.get_upd_other _ _ _ _ h

theorem aveU_of_ave {s t : State} (h : t.ave = s.ave) (a : Nat) : t.aveU a = s.aveU a := congrArg (fun m => SMap.get ave0 m a) h

/-- One change of each avenue in a list of at most one. -/
theorem aveU_foldl (s : State) (l : List Nat) (hl : l.length ≤ 1) (f : Ave → Ave) (a : Nat) :
    (l.foldl (fun (t : State) b => t.updAve b f) s).aveU a = if a ∈ l then f (s.aveU a) else s.aveU a := by
  match l, hl with
  | [], _ => simp
  | [b], _ =>
    rw [List.foldl_cons, List.foldl_nil]
    obtain rfl | h := eq_or_ne a b
    · rw [aveU_updAve_same, if_pos (by simp)]
    · rw [aveU_updAve_other _ _ h, if_neg (by simpa using h)]

theorem netUp_off {s : State} {i : Nat} (h : s.linkUp i = true ∨ s.subExists i = false) : s.netUp i = s := by
  refine if_pos ?_
  obtain h | h := h
  · rw [h, Bool.true_or]
  · rw [h]
    simp

theorem netUp_effect {s : State} {i : Nat} (hi : i < 16) (h : s.linkUp i = false) (hx : s.subExists i = true) {l : List Nat}
    (hl : (s.avesUp.filter fun a => s.aveSub a == i) = l) (hlen : l.length ≤ 1) {t : State} (e : s.netUp i = t) :
    t.linkUp i = true ∧ t.fld (rNET_SUB_STATUS i) fNET_SUB_STATUS_SPEED = s.subSpeed i ∧
        (∀ a, t.aveU a = if a ∈ l then (s.aveU a).shift (s.time - (s.netS i).down) else s.aveU a) ∧
        onlyIn (mEvent ||| mAve) [rNET_SUB_STATUS i] [896 + i] s t := by
  unfold State.netUp at e
  rw [if_neg (by rw [h, hx]; decide)] at e
  dsimp only at e
  have k1 : onlyIn (mEvent ||| mAve ||| mGlb) [rNET_SUB_STATUS i] [896 + i] s
      (s.setFlds (rNET_SUB_STATUS i) [(fNET_SUB_STATUS_LINK, 1), (fNET_SUB_STATUS_SPEED, s.subSpeed i)]) := .setFlds (.refl _ _ _ _)
  have f1 : (s.setFlds (rNET_SUB_STATUS i) [(fNET_SUB_STATUS_LINK, 1), (fNET_SUB_STATUS_SPEED, s.subSpeed i)]).fld (rNET_SUB_STATUS i)
      fNET_SUB_STATUS_LINK = 1 := by simp (disch := decide)
  have f2 : (s.setFlds (rNET_SUB_STATUS i) [(fNET_SUB_STATUS_LINK, 1), (fNET_SUB_STATUS_SPEED, s.subSpeed i)]).fld (rNET_SUB_STATUS i)
      fNET_SUB_STATUS_SPEED = s.subSpeed i % 2 ^ 2 := by simp (disch := decide)
  have hf : ((s.setFlds (rNET_SUB_STATUS i) [(fNET_SUB_STATUS_LINK, 1), (fNET_SUB_STATUS_SPEED, s.subSpeed i)]).avesUp.filter fun a =>
      (s.setFlds (rNET_SUB_STATUS i) [(fNET_SUB_STATUS_LINK, 1), (fNET_SUB_STATUS_SPEED, s.subSpeed i)]).aveSub a == i) = l := by
    rw [avesUp_setFlds _ _ (aveStatusAt_below (netStatus_below hi)), ← hl]
    congr 1
    funext a
    rw [State.aveSub, State.fld_setFlds_other s _ fAVE_CFG_SUB (by simp only [rAVE_CFG, rNET_SUB_STATUS]; omega), State.aveSub]
  have ha : (s.setFlds (rNET_SUB_STATUS i) [(fNET_SUB_STATUS_LINK, 1), (fNET_SUB_STATUS_SPEED, s.subSpeed i)]).ave = s.ave := State.setFlds_ave _ _ _
  rw [hf] at e
  generalize s.setFlds (rNET_SUB_STATUS i) _ = u at *
  have hs : s.subSpeed i < 2 ^ 2 := by
    unfold State.subSpeed
    split <;> decide
  have fu (a : Nat) := aveU_foldl u l hlen (fun v => v.shift (s.time - (s.netS i).down)) a
  have k2 : onlyIn (mEvent ||| mAve ||| mGlb) [rNET_SUB_STATUS i] [896 + i] s
      (l.foldl (fun (t : State) a => t.updAve a fun v => v.shift (s.time - (s.netS i).down)) u) :=
    .overList k1 fun t a _ => .other (.refl _ _ _ _) (touches_State.updAve _ _ _) (by decide) (State.updAve_regs _ _ _)
  have hr : (l.foldl (fun (t : State) a => t.updAve a fun v => v.shift (s.time - (s.netS i).down)) u).rd (rNET_SUB_STATUS i) =
      u.rd (rNET_SUB_STATUS i) := rd_overList _ _ fun t a _ => State.rd_congr (State.updAve_regs _ _ _) _
  generalize l.foldl _ u = w at *
  have r1 : rNET_SUB_STATUS i < 0x10000 ∨ 0x12000 + 8 * (896 + i) < rNET_SUB_STATUS i := netReg_range (by simp only [rNET_SUB_STATUS]; omega) hi
  have ht (f : Fld) : t.fld (rNET_SUB_STATUS i) f = u.fld (rNET_SUB_STATUS i) f := by
    rw [← e, State.fld_raise_other _ _ _ _ _ _ _ r1, fld_of_rd hr]
  refine ⟨(State.flag_iff _ _ _).mpr (by rw [ht, f1]; decide), ?_, fun a => ?_, ?_⟩
  · rw [ht, f2, Nat.mod_eq_of_lt hs]
  · rw [← e, aveU_of_ave ((touches_State.raise _ _ _ _ _).ave (by decide)), fu, aveU_of_ave ha]
  · rw [← e]
    exact .of_hi (.raise k2) (by simp only [List.mem_cons, List.not_mem_nil, or_false, rNET_SUB_STATUS]; omega)

end Sys2Proof

end

section
/-! SUPPORT. Received frames: counters, filters and the exception receive ring (R458, R462 to R464). -/

set_option Elab.async false

namespace Sys2Proof.Machine

/-! ### Byte memories: what a write of several parts leaves to read -/

theorem leBytes_length (n v : Nat) : (leBytes n v).length = n := by
  induction n generalizing v with
  | zero => rfl
  | succ n ih => simp [leBytes, ih]

theorem Memory.write_append (d : Byte) (xs ys : List Byte) (m : Memory) (a : Nat) :
    Memory.write d m a (xs ++ ys) = Memory.write d (Memory.write d m a xs) (a + xs.length) ys := by
  induction xs generalizing m a with
  | nil => rfl
  | cons x xs ih => simp only [List.cons_append, Memory.write, ih, List.length_cons, Nat.add_assoc, Nat.add_comm 1]

theorem Memory.read_congr (d : Byte) {m m' : Memory} {a n : Nat} (h : ∀ x, a ≤ x → x < a + n → Memory.byte d m x = Memory.byte d m' x) :
    Memory.read d m a n = Memory.read d m' a n := by
  induction n generalizing a with
  | zero => rfl
  | succ n ih =>
    rw [Memory.read, Memory.read, h a (by omega) (by omega), ih fun x h1 h2 => h x (by omega) (by omega)]

theorem Memory.read_write_out (d : Byte) (bs : List Byte) (m : Memory) {a b n : Nat} (h : b + n ≤ a ∨ a + bs.length ≤ b) :
    Memory.read d (Memory.write d m a bs) b n = Memory.read d m b n :=
  Memory.read_congr d fun x h1 h2 => Memory.byte_write_out d bs m a x (by omega)

/-- The first bytes of a write that goes on. -/
theorem Memory.read_write_left (d : Byte) (xs ys : List Byte) (m : Memory) (a : Nat) :
    Memory.read d (Memory.write d m a (xs ++ ys)) a xs.length = xs := by
  rw [Memory.write_append, Memory.read_write_out d ys _ (.inl (Nat.le_refl _)), Memory.read_write]

/-- The bytes in the middle of a write. -/
theorem Memory.read_write_mid (d : Byte) (xs ys zs : List Byte) (m : Memory) (a : Nat) :
    Memory.read d (Memory.write d m a (xs ++ (ys ++ zs))) (a + xs.length) ys.length = ys := by
  rw [Memory.write_append, Memory.read_write_left]

end Sys2Proof.Machine

namespace Sys2Proof

open Sys2Proof.Machine

/-! ### The exception receive ring (R463, Table 21-2) -/

/-- A record of the exception receive ring that nothing marks: header, stamps and the frame. -/
def exqRecord (i : Nat) (f : List Byte) (wr lg time fine : Nat) : List Byte :=
  leBytes 8 (f.length % 2 ^ 14 + i * 2 ^ 18 + (1 - wr / 2 ^ lg % 2) * 2 ^ 63) ++ (leBytes 8 time ++ (leBytes 8 fine ++ leBytes 40 0))

theorem exqRecord_length (i : Nat) (f : List Byte) (wr lg time fine : Nat) : (exqRecord i f wr lg time fine).length = 64 := by
  simp only [exqRecord, List.length_append, leBytes_length]

section

variable {s t : State} {i lg wr slot fine : Nat} {f : List Byte}

theorem exqPut_taken (h1 : s.fld (rNET_EXQ_RX i) fNET_EXQ_RX_LOG2 = lg) (h2 : s.fld (rNET_EXQ_RX_IDX i) fNET_EXQ_RX_IDX_WRITTEN = wr)
    (h3 : s.fld (rNET_EXQ_RX i) fNET_EXQ_RX_ADDR * 64 + wr % 2 ^ lg * 9280 = slot) (hlg : lg ≠ 0)
    (hu : (wr + 65536 - s.fld (rNET_EXQ_RX_IDX i) fNET_EXQ_RX_IDX_RELEASED) % 65536 < 2 ^ lg) (hb : s.busOk = true) :
    s.exqPut i f false false fine = ((s.hostWrite (slot + 64) f).hostWrite slot (exqRecord i f wr lg s.time fine)).addMod (rNET_EXQ_RX_IDX i)
      fNET_EXQ_RX_IDX_WRITTEN 1 := by
  unfold State.exqPut exqRecord
  dsimp only
  rw [show fget (s.rd (rNET_EXQ_RX i)) fNET_EXQ_RX_LOG2 = lg from h1, show fget (s.rd (rNET_EXQ_RX i)) fNET_EXQ_RX_ADDR =
    s.fld (rNET_EXQ_RX i) fNET_EXQ_RX_ADDR from rfl, h2, h3, if_neg]
  · simp only [b2n, Bool.false_eq_true, if_false, Nat.zero_mul, Nat.add_zero, List.append_assoc]
  · rw [hb]
    simp only [Bool.or_eq_true, decide_eq_true_eq, Bool.not_true, Bool.false_eq_true, or_false, not_or]
    omega

theorem exqPut_dropped (h1 : s.fld (rNET_EXQ_RX i) fNET_EXQ_RX_LOG2 = lg) (h2 : s.fld (rNET_EXQ_RX_IDX i) fNET_EXQ_RX_IDX_WRITTEN = wr)
    (h : lg = 0 ∨ 2 ^ lg ≤ (wr + 65536 - s.fld (rNET_EXQ_RX_IDX i) fNET_EXQ_RX_IDX_RELEASED) % 65536 ∨ s.busOk = false) :
    s.exqPut i f false false fine = (s.addSat (rNET_SUB_CNT1 i) fNET_SUB_CNT1_EXQ_DROP 1).raiseLim 1000 916 (some i) 0 0 i := by
  unfold State.exqPut
  dsimp only
  rw [show fget (s.rd (rNET_EXQ_RX i)) fNET_EXQ_RX_LOG2 = lg from h1, h2, if_pos]
  simpa [or_assoc] using h

/-- The bytes of a record and its frame in host memory, and no other byte. -/
theorem exqWritten_memory (m : Memory) (slot i wr lg time fine : Nat) (f : List Byte) {m' : Memory}
    (e : (m.write 0 (slot + 64) f).write 0 slot (exqRecord i f wr lg time fine) = m') :
    m'.read 0 (slot + 64) f.length = f ∧ m'.read 0 slot 8 = leBytes 8 (f.length % 2 ^ 14 + i * 2 ^ 18 + (1 - wr / 2 ^ lg % 2) * 2 ^ 63) ∧
      m'.read 0 (slot + 8) 8 = leBytes 8 time ∧ ∀ a, a < slot ∨ slot + 64 + f.length ≤ a → m'.byte 0 a = m.byte 0 a := by
  have hl := exqRecord_length i f wr lg time fine
  refine ⟨?_, ?_, ?_, fun a ha => ?_⟩
  · rw [← e, Memory.read_write_out 0 _ _ (.inr (by omega)), Memory.read_write]
  · have k := Memory.read_write_left 0 (leBytes 8 (f.length % 2 ^ 14 + i * 2 ^ 18 + (1 - wr / 2 ^ lg % 2) * 2 ^ 63))
      (leBytes 8 time ++ (leBytes 8 fine ++ leBytes 40 0)) (m.write 0 (slot + 64) f) slot
    rw [leBytes_length] at k
    rw [← e, exqRecord, k]
  · have k := Memory.read_write_mid 0 (leBytes 8 (f.length % 2 ^ 14 + i * 2 ^ 18 + (1 - wr / 2 ^ lg % 2) * 2 ^ 63)) (leBytes 8 time)
      (leBytes 8 fine ++ leBytes 40 0) (m.write 0 (slot + 64) f) slot
    rw [leBytes_length, leBytes_length] at k
    rw [← e, exqRecord, k]
  · rw [← e, Memory.byte_write_out 0 _ _ _ _ (by omega), Memory.byte_write_out 0 _ _ _ _ (by omega)]

end

/-! ### A frame before it is sorted (R458, R462) -/

/-- The FEC counters of the port of sub-port `i` take in what a frame shows. -/
def fecCounted (s : State) (i : Nat) (x : NetFrame) : State :=
  if x.uncorr = 0 then s.addMod (rNET_PORT_FEC (i / 4)) fNET_PORT_FEC_FEC_CORR x.corr
  else ((s.addMod (rNET_PORT_FEC (i / 4)) fNET_PORT_FEC_FEC_CORR x.corr).addSat (rNET_PORT_FEC (i / 4)) fNET_PORT_FEC_FEC_UNCORR
    x.uncorr).raiseLim 1000000 (912 + i / 4) (some (i / 4))

theorem satN_of_lt {n v : Nat} (h : v < 2 ^ n) : satN n v = v := if_pos h

theorem fecCounted_effect {s : State} {i : Nat} (hi : i < 16) (x : NetFrame) {u : State} (e : fecCounted s i x = u) :
    u.fld (rNET_PORT_FEC (i / 4)) fNET_PORT_FEC_FEC_CORR = (s.fld (rNET_PORT_FEC (i / 4)) fNET_PORT_FEC_FEC_CORR + x.corr) % 2 ^ 32 ∧
        u.fld (rNET_PORT_FEC (i / 4)) fNET_PORT_FEC_FEC_UNCORR = satN 32 (s.fld (rNET_PORT_FEC (i / 4)) fNET_PORT_FEC_FEC_UNCORR + x.uncorr) ∧
        onlyIn mEvent [rNET_PORT_FEC (i / 4)] [912 + i / 4] s u ∧ (x.uncorr = 0 → onlyIn mRegs [rNET_PORT_FEC (i / 4)] [] s u) := by
  have hr : ∀ a ∈ [rNET_PORT_FEC (i / 4)], 0x1000 ≤ a := by
    simp only [List.mem_cons, List.not_mem_nil, or_false, rNET_PORT_FEC]
    omega
  have c := State.fld_addMod_self s (rNET_PORT_FEC (i / 4)) fNET_PORT_FEC_FEC_CORR x.corr (by decide)
  have d := State.fld_addMod_apart s (rNET_PORT_FEC (i / 4)) (rNET_PORT_FEC (i / 4)) fNET_PORT_FEC_FEC_CORR fNET_PORT_FEC_FEC_UNCORR x.corr (by decide)
  have k : onlyIn (mRegs ||| mGlb) [rNET_PORT_FEC (i / 4)] [] s (s.addMod (rNET_PORT_FEC (i / 4)) fNET_PORT_FEC_FEC_CORR x.corr) :=
    .addMod (.refl _ _ _ _)
  unfold fecCounted at e
  generalize s.addMod (rNET_PORT_FEC (i / 4)) fNET_PORT_FEC_FEC_CORR x.corr = w at *
  obtain h | h := eq_or_ne x.uncorr 0
  · rw [if_pos h] at e
    subst e
    refine ⟨c, ?_, .of_hi (k.mono (by decide) (List.Subset.refl _) (List.nil_subset _)) hr, fun _ => .of_hi k hr⟩
    rw [d, h, Nat.add_zero, satN_of_lt (State.fld_lt s _ fNET_PORT_FEC_FEC_UNCORR)]
  · rw [if_neg h] at e
    have r1 : rNET_PORT_FEC (i / 4) < 0x10000 ∨ 0x12000 + 8 * (912 + i / 4) < rNET_PORT_FEC (i / 4) := by simp only [rNET_PORT_FEC]; omega
    refine ⟨?_, ?_, ?_, fun h0 => absurd h0 h⟩
    · rw [← e, State.fld_raiseLim_other _ _ _ _ _ _ _ _ _ r1, State.fld_addSat_apart _ _ _ _ _ _ (by decide), c]
    · rw [← e, State.fld_raiseLim_other _ _ _ _ _ _ _ _ _ r1, State.fld_addSat_self _ _ _ _ (by decide), d]
    · have k2 : onlyIn (mEvent ||| mGlb) [rNET_PORT_FEC (i / 4)] [912 + i / 4] s w :=
        k.mono (by decide) (List.Subset.refl _) (List.nil_subset _)
      rw [← e]
      exact .of_hi (.raiseLim (.addSat k2)) hr

end Sys2Proof

end

section
/-! SUPPORT. What a received frame does (R458 to R464). -/

set_option Elab.async false

namespace Sys2Proof

open Sys2Proof.Machine

/-! ### Where a frame goes -/

section

variable {s t : State} {i : Nat} {x : NetFrame}

theorem netRx_off (h : s.linkUp i = false) : s.netRx i x = s := if_pos (by rw [h]; rfl)

theorem netRx_bad (h : s.linkUp i = true) (hb : x.badFcs = true ∨ 0 < x.uncorr) :
    s.netRx i x = (fecCounted s i x).addSat (rNET_SUB_CNT1 i) fNET_SUB_CNT1_RX_ERR 1 := by
  unfold State.netRx
  rw [if_neg (by rw [h]; decide)]
  refine if_pos ?_
  obtain hb | hb := hb
  · rw [hb]
    rfl
  · rw [show (x.uncorr != 0) = true from bne_iff_ne.mpr (by omega), Bool.or_true, Bool.true_or]

/-- Does sub-port `i` take frames for this destination (R458)? -/
def takesMac (s : State) (i d : Nat) : Bool :=
  d == s.fld (rNET_SUB_MAC i) fNET_SUB_MAC_MAC || d == 2 ^ 48 - 1 || (s.flag (rNET_SUB_CFG i) fNET_SUB_CFG_MCAST && d / 2 ^ 40 % 2 == 1)

/-- The checksum of a frame's datagram, where it carries one. -/
def sumGood (f : List Byte) : Option Bool :=
  (udpOf f).bind fun d => if beNat (at_ f (d.o + 6) 2) = 0 then none else some (udpSum f d == 0xFFFF)

theorem netRx_good (h : s.linkUp i = true) (h1 : x.badFcs = false) (h2 : x.uncorr = 0)
    (h3 : x.bytes.length + 4 ≤ s.fld (rNET_SUB_CFG i) fNET_SUB_CFG_MAX_FRAME) (h4 : beNat (at_ x.bytes 12 2) ≠ 0x8808) :
    s.netRx i x = if !takesMac s i (beNat (at_ x.bytes 0 6)) then fecCounted s i x
      else if sumGood x.bytes = some false then (fecCounted s i x).addSat (rNET_SUB_CNT1 i) fNET_SUB_CNT1_CSUM_ERR 1
      else ((fecCounted s i x).addMod (rNET_SUB_CNT0 i) fNET_SUB_CNT0_RX_FRAMES 1).netSort i x.bytes (udpOf x.bytes) (sumGood x.bytes == some true)
        x.fine.val := by
  unfold State.netRx
  rw [if_neg (by rw [h]; decide)]
  refine (if_neg ?_).trans ((if_neg h4).trans rfl)
  rw [h1, h2]
  simp only [Bool.false_or, bne_self_eq_false, decide_eq_true_eq]
  omega

end

/-! ### What it leaves behind -/

section

variable {s : State} {i : Fin 16} {x : NetFrame}

theorem netFrameRx_runs (hg : s.glb ≠ 0) {t : State} (e : s.netRx i x = t) : exec (.netFrameRx i x) s = .next t := next_live hg e

theorem netCnt_ne (i : Nat) : rNET_SUB_CNT0 i ≠ rNET_SUB_CNT1 i ∧ rNET_SUB_CNT0 i ≠ rNET_EXQ_RX_IDX i ∧ rNET_SUB_CNT1 i ≠ rNET_EXQ_RX_IDX i := by
  simp only [rNET_SUB_CNT0, rNET_SUB_CNT1, rNET_EXQ_RX_IDX]
  omega

theorem netFrameRx_bad (hg : s.glb ≠ 0) (h : s.linkUp i = true) (hb : x.badFcs = true ∨ 0 < x.uncorr) :
    completes (.netFrameRx i x) s fun t =>
        t.fld (rNET_SUB_CNT1 i) fNET_SUB_CNT1_RX_ERR = satN 16 (s.fld (rNET_SUB_CNT1 i) fNET_SUB_CNT1_RX_ERR + 1) ∧
        t.fld (rNET_PORT_FEC (i / 4)) fNET_PORT_FEC_FEC_CORR = (s.fld (rNET_PORT_FEC (i / 4)) fNET_PORT_FEC_FEC_CORR + x.corr) % 2 ^ 32 ∧
        t.fld (rNET_PORT_FEC (i / 4)) fNET_PORT_FEC_FEC_UNCORR = satN 32 (s.fld (rNET_PORT_FEC (i / 4)) fNET_PORT_FEC_FEC_UNCORR + x.uncorr) ∧
        onlyIn mEvent [rNET_PORT_FEC (i / 4), rNET_SUB_CNT1 i] [912 + i / 4] s t := by
  have hi := i.isLt
  have e := netFrameRx_runs hg (netRx_bad h hb)
  have hne : rNET_PORT_FEC (i / 4) ≠ rNET_SUB_CNT1 i := by simp only [rNET_PORT_FEC, rNET_SUB_CNT1]; omega
  have hr : ∀ a ∈ [rNET_PORT_FEC (i.val / 4), rNET_SUB_CNT1 i], 0x1000 ≤ a := by
    simp only [List.mem_cons, List.not_mem_nil, or_false, rNET_PORT_FEC, rNET_SUB_CNT1]
    omega
  obtain ⟨c1, c2, c3, -⟩ := fecCounted_effect hi x (s := s) rfl
  generalize fecCounted s i x = u at *
  have r1 : u.rd (rNET_SUB_CNT1 i) = s.rd (rNET_SUB_CNT1 i) := c3.rd_apart (by simpa using hne.symm)
    (.inr (by simp only [rNET_SUB_CNT1]; omega)) (by simp; omega)
  have k : onlyIn (mEvent ||| mGlb) [rNET_PORT_FEC (i.val / 4), rNET_SUB_CNT1 i] [912 + i.val / 4] s u :=
    c3.mono (by decide) (List.cons_subset_cons _ (List.nil_subset _)) (List.Subset.refl _)
  refine ⟨_, e, ?_, ?_, ?_, .of_hi (.addSat k) hr⟩
  · rw [State.fld_addSat_self _ _ _ _ (by decide), fld_of_rd r1]
  · rw [State.fld_addSat_other _ _ _ _ hne, c1]
  · rw [State.fld_addSat_other _ _ _ _ hne, c2]

theorem netFrameRx_otherMac (hg : s.glb ≠ 0) (h : s.linkUp i = true) (h1 : x.badFcs = false) (h2 : x.uncorr = 0)
    (h3 : x.bytes.length + 4 ≤ s.fld (rNET_SUB_CFG i) fNET_SUB_CFG_MAX_FRAME) (h4 : beNat (at_ x.bytes 12 2) ≠ 0x8808)
    (hm : takesMac s i (beNat (at_ x.bytes 0 6)) = false) :
    completes (.netFrameRx i x) s fun t => onlyIn mRegs [rNET_PORT_FEC (i / 4)] [] s t := by
  have e := netFrameRx_runs hg ((netRx_good h h1 h2 h3 h4).trans (if_pos (by rw [hm]; rfl)))
  obtain ⟨-, -, -, c4⟩ := fecCounted_effect i.isLt x (s := s) rfl
  exact ⟨_, e, c4 h2⟩

theorem netFrameRx_badSum (hg : s.glb ≠ 0) (h : s.linkUp i = true) (h1 : x.badFcs = false) (h2 : x.uncorr = 0)
    (h3 : x.bytes.length + 4 ≤ s.fld (rNET_SUB_CFG i) fNET_SUB_CFG_MAX_FRAME) (h4 : beNat (at_ x.bytes 12 2) ≠ 0x8808)
    (hm : takesMac s i (beNat (at_ x.bytes 0 6)) = true) (hs : sumGood x.bytes = some false) :
    completes (.netFrameRx i x) s fun t =>
          t.fld (rNET_SUB_CNT1 i) fNET_SUB_CNT1_CSUM_ERR = satN 16 (s.fld (rNET_SUB_CNT1 i) fNET_SUB_CNT1_CSUM_ERR + 1) ∧
          onlyIn mRegs [rNET_PORT_FEC (i / 4), rNET_SUB_CNT1 i] [] s t := by
  have hi := i.isLt
  have e := netFrameRx_runs hg ((netRx_good h h1 h2 h3 h4).trans ((if_neg (by rw [hm]; decide)).trans (if_pos hs)))
  obtain ⟨-, -, -, c4⟩ := fecCounted_effect hi x (s := s) rfl
  have c4 := c4 h2
  generalize fecCounted s i x = u at *
  have r1 : u.rd (rNET_SUB_CNT1 i) = s.rd (rNET_SUB_CNT1 i) := c4.rd_apart
    (by simp only [List.mem_cons, List.not_mem_nil, or_false, rNET_SUB_CNT1, rNET_PORT_FEC]; omega)
    (.inr (by simp only [rNET_SUB_CNT1]; omega)) (by simp)
  have k : onlyIn (mRegs ||| mGlb) [rNET_PORT_FEC (i.val / 4), rNET_SUB_CNT1 i] [] s u :=
    c4.mono (by decide) (List.cons_subset_cons _ (List.nil_subset _)) (List.Subset.refl _)
  refine ⟨_, e, ?_, .of_hi (.addSat k) ?_⟩
  · rw [State.fld_addSat_self _ _ _ _ (by decide), fld_of_rd r1]
  · simp only [List.mem_cons, List.not_mem_nil, or_false, rNET_PORT_FEC, rNET_SUB_CNT1]
    omega

/-- A frame that is no datagram and no PTP frame goes to the exception ring. -/
theorem netSort_other {s : State} {i : Nat} {f : List Byte} (h1 : beNat (at_ f 12 2) ≠ 0x0800) (h2 : beNat (at_ f 12 2) ≠ 0x86DD)
    (h3 : beNat (at_ f 12 2) ≠ 0x88F7) (fine : Nat) :
    udpOf f = none ∧ sumGood f = none ∧ s.netSort i f none false fine = s.exqPut i f false false fine := by
  have hu : udpOf f = none := (if_neg h1).trans (if_neg h2)
  refine ⟨hu, ?_, ?_⟩
  · rw [sumGood, hu]
    rfl
  · have hp : ptpOf f none = (false, false) := if_neg h3
    unfold State.netSort
    rw [hp]
    rfl

/-- The frame counted, before it goes to the exception ring. -/
theorem netFrameRx_queued (hg : s.glb ≠ 0) (h : s.linkUp i = true) (h1 : x.badFcs = false) (h2 : x.uncorr = 0)
    (h3 : x.bytes.length + 4 ≤ s.fld (rNET_SUB_CFG i) fNET_SUB_CFG_MAX_FRAME) (h4 : beNat (at_ x.bytes 12 2) ≠ 0x8808)
    (hm : takesMac s i (beNat (at_ x.bytes 0 6)) = true) (h5 : beNat (at_ x.bytes 12 2) ≠ 0x0800) (h6 : beNat (at_ x.bytes 12 2) ≠ 0x86DD)
    (h7 : beNat (at_ x.bytes 12 2) ≠ 0x88F7) : ∃ u, exec (.netFrameRx i x) s = .next (u.exqPut i x.bytes false false x.fine) ∧
      onlyIn mRegs [rNET_PORT_FEC (i / 4), rNET_SUB_CNT0 i] [] s u ∧
      u.fld (rNET_SUB_CNT0 i) fNET_SUB_CNT0_RX_FRAMES = (s.fld (rNET_SUB_CNT0 i) fNET_SUB_CNT0_RX_FRAMES + 1) % 2 ^ 32 := by
  have hi := i.isLt
  obtain ⟨q1, q2, q3⟩ := netSort_other (s := (fecCounted s i x).addMod (rNET_SUB_CNT0 i) fNET_SUB_CNT0_RX_FRAMES 1) (i := i) h5 h6 h7 x.fine
  have e := netFrameRx_runs hg ((netRx_good h h1 h2 h3 h4).trans ((if_neg (by rw [hm]; decide)).trans
    (if_neg (by rw [q2]; decide))))
  rw [q1, q2, show ((none : Option Bool) == some true) = false from rfl, q3] at e
  obtain ⟨-, -, -, c4⟩ := fecCounted_effect hi x (s := s) rfl
  have c4 := c4 h2
  generalize fecCounted s i x = u at *
  have r1 : u.rd (rNET_SUB_CNT0 i) = s.rd (rNET_SUB_CNT0 i) := c4.rd_apart
    (by simp only [List.mem_cons, List.not_mem_nil, or_false, rNET_SUB_CNT0, rNET_PORT_FEC]; omega)
    (.inr (by simp only [rNET_SUB_CNT0]; omega)) (by simp)
  have k : onlyIn (mRegs ||| mGlb) [rNET_PORT_FEC (i.val / 4), rNET_SUB_CNT0 i] [] s u :=
    c4.mono (by decide) (List.cons_subset_cons _ (List.nil_subset _)) (List.Subset.refl _)
  refine ⟨_, e, .of_hi (.addMod k) ?_, ?_⟩
  · simp only [List.mem_cons, List.not_mem_nil, or_false, rNET_PORT_FEC, rNET_SUB_CNT0]
    omega
  · rw [State.fld_addMod_self _ _ _ _ (by decide), fld_of_rd r1]

end

end Sys2Proof

end

section
/-! SUPPORT. The exception rings, pauses and sending (R459, R460, R463 to R465). -/

set_option Elab.async false

namespace Sys2Proof

open Sys2Proof.Machine

/-! ### The exception receive ring -/

section

variable {s u : State} {i : Fin 16} {f : List Byte} {lg wr slot fine : Nat}

theorem netRing_kept (h : onlyIn mRegs [rNET_PORT_FEC (i.val / 4), rNET_SUB_CNT0 i] [] s u) {a : Nat}
    (ha : a = rNET_EXQ_RX i ∨ a = rNET_EXQ_RX_IDX i ∨ a = rNET_SUB_CNT1 i ∨ a = rGLB_HIF_LINK) : u.rd a = s.rd a := by
  have hi := i.isLt
  refine h.rd_apart ?_ ?_ (by simp)
  · simp only [List.mem_cons, List.not_mem_nil, or_false, rNET_PORT_FEC, rNET_SUB_CNT0, rNET_EXQ_RX, rNET_EXQ_RX_IDX, rNET_SUB_CNT1, rGLB_HIF_LINK] at *
    omega
  · simp only [rNET_EXQ_RX, rNET_EXQ_RX_IDX, rNET_SUB_CNT1, rGLB_HIF_LINK] at *
    omega

theorem exqBus_kept (h : onlyIn mRegs [rNET_PORT_FEC (i.val / 4), rNET_SUB_CNT0 i] [] s u) : u.busOk = s.busOk := by
  rw [State.busOk, State.busOk, h.1.hif (by decide), fld_of_rd (netRing_kept h (.inr (.inr (.inr rfl))))]

theorem exqPut_stored (k : onlyIn mRegs [rNET_PORT_FEC (i.val / 4), rNET_SUB_CNT0 i] [] s u) (h1 : s.fld (rNET_EXQ_RX i) fNET_EXQ_RX_LOG2 = lg)
    (h2 : s.fld (rNET_EXQ_RX_IDX i) fNET_EXQ_RX_IDX_WRITTEN = wr)
    (h3 : s.fld (rNET_EXQ_RX i) fNET_EXQ_RX_ADDR * 64 + wr % 2 ^ lg * 9280 = slot) (hlg : lg ≠ 0)
    (hu : (wr + 65536 - s.fld (rNET_EXQ_RX_IDX i) fNET_EXQ_RX_IDX_RELEASED) % 65536 < 2 ^ lg) (hb : s.busOk = true) {t : State}
    (e : u.exqPut i f false false fine = t) :
    t.rd (rNET_SUB_CNT0 i) = u.rd (rNET_SUB_CNT0 i) ∧
      t.fld (rNET_EXQ_RX_IDX i) fNET_EXQ_RX_IDX_WRITTEN = (wr + 1) % 65536 ∧ t.hostMem.read 0 (slot + 64) f.length = f ∧
            t.hostMem.read 0 slot 8 = leBytes 8 (f.length % 2 ^ 14 + i * 2 ^ 18 + (1 - wr / 2 ^ lg % 2) * 2 ^ 63) ∧
            t.hostMem.read 0 (slot + 8) 8 = leBytes 8 s.time ∧
            (∀ a, a < slot ∨ slot + 64 + f.length ≤ a → t.hostMem.byte 0 a = s.hostMem.byte 0 a) ∧
            onlyIn (mRegs ||| mHostMem) [rNET_PORT_FEC (i / 4), rNET_SUB_CNT0 i, rNET_EXQ_RX_IDX i] [] s t := by
  have hi := i.isLt
  have hx := netRing_kept k (.inl rfl)
  have hx2 := netRing_kept k (.inr (.inl rfl))
  have hw : u.fld (rNET_EXQ_RX_IDX i) fNET_EXQ_RX_IDX_WRITTEN = wr := (fld_of_rd hx2).trans h2
  have ht : u.time = s.time := k.1.time (by decide)
  have hm : u.hostMem = s.hostMem := k.1.hostMem (by decide)
  rw [exqPut_taken (s := u) (lg := lg) (wr := wr) (slot := slot) ((fld_of_rd hx).trans h1) hw (by rw [fld_of_rd hx]; exact h3) hlg
    (by rw [fld_of_rd hx2]; exact hu) (by rw [exqBus_kept k]; exact hb), ht] at e
  have hr : ∀ a ∈ [rNET_PORT_FEC (i.val / 4), rNET_SUB_CNT0 i, rNET_EXQ_RX_IDX i], 0x1000 ≤ a := by
    simp only [List.mem_cons, List.not_mem_nil, or_false, rNET_PORT_FEC, rNET_SUB_CNT0, rNET_EXQ_RX_IDX]
    omega
  have k1 : onlyIn (mRegs ||| mHostMem ||| mGlb) [rNET_PORT_FEC (i.val / 4), rNET_SUB_CNT0 i, rNET_EXQ_RX_IDX i] [] s
      ((u.hostWrite (slot + 64) f).hostWrite slot (exqRecord i f wr lg s.time fine)) :=
    (((k.mono (m' := mRegs ||| mHostMem ||| mGlb) (by decide) (by simp) (List.Subset.refl _)).other (touches_State.hostWrite u (slot + 64) f)
      (by decide) (State.hostWrite_regs _ _ _)).other (touches_State.hostWrite _ slot _) (by decide) (State.hostWrite_regs _ _ _))
  have hv : ((u.hostWrite (slot + 64) f).hostWrite slot (exqRecord i f wr lg s.time fine)).regs = u.regs := by
    rw [State.hostWrite_regs, State.hostWrite_regs]
  have hmem : (s.hostMem.write 0 (slot + 64) f).write 0 slot (exqRecord i f wr lg s.time fine) =
      ((u.hostWrite (slot + 64) f).hostWrite slot (exqRecord i f wr lg s.time fine)).hostMem := by
    unfold State.hostWrite
    dsimp only
    rw [hm]
  obtain ⟨m1, m2, m3, m4⟩ := exqWritten_memory s.hostMem slot i wr lg s.time fine f hmem
  generalize (u.hostWrite (slot + 64) f).hostWrite slot (exqRecord i f wr lg s.time fine) = w at *
  have hmt : t.hostMem = w.hostMem := by
    rw [← e]
    exact State.addMod_hostMem _ _ _ _
  refine ⟨?_, ?_, by rw [hmt, m1], by rw [hmt, m2], by rw [hmt, m3], fun a ha => by rw [hmt, m4 a ha], ?_⟩
  · rw [← e, State.rd_addMod_other _ _ _ (netCnt_ne i).2.1, State.rd_congr hv]
  · rw [← e, State.fld_addMod_self _ _ _ _ (by decide), State.fld_congr hv, hw]
    rfl
  · rw [← e]
    exact .of_hi (.addMod k1) hr

theorem exqPut_lost (k : onlyIn mRegs [rNET_PORT_FEC (i.val / 4), rNET_SUB_CNT0 i] [] s u) (h1 : s.fld (rNET_EXQ_RX i) fNET_EXQ_RX_LOG2 = lg)
    (h2 : s.fld (rNET_EXQ_RX_IDX i) fNET_EXQ_RX_IDX_WRITTEN = wr)
    (h : lg = 0 ∨ 2 ^ lg ≤ (wr + 65536 - s.fld (rNET_EXQ_RX_IDX i) fNET_EXQ_RX_IDX_RELEASED) % 65536 ∨ s.busOk = false) {t : State}
    (e : u.exqPut i f false false fine = t) :
    t.fld (rNET_SUB_CNT1 i) fNET_SUB_CNT1_EXQ_DROP = satN 16 (s.fld (rNET_SUB_CNT1 i) fNET_SUB_CNT1_EXQ_DROP + 1) ∧
            onlyIn mEvent [rNET_PORT_FEC (i / 4), rNET_SUB_CNT0 i, rNET_SUB_CNT1 i] [916] s t := by
  have hi := i.isLt
  have hx := netRing_kept k (.inl rfl)
  have hx2 := netRing_kept k (.inr (.inl rfl))
  rw [exqPut_dropped (s := u) (lg := lg) (wr := wr) ((fld_of_rd hx).trans h1) ((fld_of_rd hx2).trans h2)
    (by rw [fld_of_rd hx2, exqBus_kept k]; exact h)] at e
  have k1 : onlyIn (mEvent ||| mGlb) [rNET_PORT_FEC (i.val / 4), rNET_SUB_CNT0 i, rNET_SUB_CNT1 i] [916] s u :=
    k.mono (by decide) (by simp) (List.nil_subset _)
  refine ⟨?_, ?_⟩
  · rw [← e, State.fld_raiseLim_other _ _ _ _ _ _ _ _ _ (.inr (by simp only [rNET_SUB_CNT1]; omega)), State.fld_addSat_self _ _ _ _ (by decide),
      fld_of_rd (netRing_kept k (.inr (.inr (.inl rfl))))]
  · rw [← e]
    refine .of_hi (.raiseLim (.addSat k1)) ?_
    simp only [List.mem_cons, List.not_mem_nil, or_false, rNET_PORT_FEC, rNET_SUB_CNT0, rNET_SUB_CNT1]
    omega

theorem exqRxRelease_eq (i : Fin 16) (v : Word) {s : State} (hr : s.ready = true) {used : Nat}
    (hu : (s.fld (rNET_EXQ_RX_IDX i) fNET_EXQ_RX_IDX_WRITTEN + 65536 - s.fld (rNET_EXQ_RX_IDX i) fNET_EXQ_RX_IDX_RELEASED) % 65536 = used) :
    exec (.exqRxRelease i v) s = .next (if used < fget v fNET_EXQ_RX_IDX_RELEASE then s.dropStaged .host (rNET_EXQ_RX_IDX i)
      else (s.dropStaged .host (rNET_EXQ_RX_IDX i)).addMod (rNET_EXQ_RX_IDX i) fNET_EXQ_RX_IDX_RELEASED (fget v fNET_EXQ_RX_IDX_RELEASE)) := by
  refine next_hostWr hr (?_ : State.wrExqRxIdx i v (s.dropStaged .host (rNET_EXQ_RX_IDX i)) = _)
  unfold State.wrExqRxIdx
  dsimp only
  rw [fld_of_rd (dropStaged_rd _ _ _ _), fld_of_rd (dropStaged_rd _ _ _ _), hu]

theorem txTail_rw : ∀ i : Fin 16, rwField (rNET_EXQ_TX_IDX i) fNET_EXQ_TX_IDX_TAIL = true ∧
    roField (rNET_EXQ_TX_IDX i) fNET_EXQ_TX_IDX_DONE_IDX = true := by decide

/-- EXQ_TX_TAIL: the producer index, and without LINK nothing left to send. -/
theorem exqTxTail_effect (i : Fin 16) (v : Word) {s : State} (hr : s.ready = true) :
    completes (.exqTxTail i v) s fun t => t.fld (rNET_EXQ_TX_IDX i) fNET_EXQ_TX_IDX_TAIL = fget v fNET_EXQ_TX_IDX_TAIL ∧
      t.fld (rNET_EXQ_TX_IDX i) fNET_EXQ_TX_IDX_DONE_IDX =
        (if s.linkUp i then s.fld (rNET_EXQ_TX_IDX i) fNET_EXQ_TX_IDX_DONE_IDX else fget v fNET_EXQ_TX_IDX_TAIL) ∧
      onlyIn (mRegs ||| mStaged) [rNET_EXQ_TX_IDX i] [] s t := by
  have hi := i.isLt
  obtain ⟨hw, ho⟩ := txTail_rw i
  have e : exec (.exqTxTail i v) s = .next (State.wrExqTxIdx i v (s.dropStaged .host (rNET_EXQ_TX_IDX i))) := next_hostWr hr rfl
  have kd : onlyIn (mRegs ||| mStaged ||| mGlb) [rNET_EXQ_TX_IDX i] [] s (s.dropStaged .host (rNET_EXQ_TX_IDX i)) := .dropStaged (.refl _ _ _ _)
  have hd (a : Nat) := dropStaged_rd s .host (rNET_EXQ_TX_IDX i) a
  generalize s.dropStaged .host (rNET_EXQ_TX_IDX i) = u at *
  have f1 := State.fld_wrCodes_rw u hw v []
  have f2 := State.fld_wrCodes_ro u ho v []
  have f3 : (u.wrCodes (rNET_EXQ_TX_IDX i) v []).linkUp i = s.linkUp i :=
    (linkUp_of_rd (State.rd_wrCodes_other u v [] (by simp only [rNET_SUB_STATUS, rNET_EXQ_TX_IDX]; omega))).trans (linkUp_of_rd (hd _))
  have k1 : onlyIn (mRegs ||| mStaged ||| mGlb) [rNET_EXQ_TX_IDX i] [] s (u.wrCodes (rNET_EXQ_TX_IDX i) v []) := .wrCodes kd
  refine ⟨_, e, ?_⟩
  unfold State.wrExqTxIdx
  dsimp only
  generalize u.wrCodes (rNET_EXQ_TX_IDX i) v [] = w at *
  have hr : ∀ a ∈ [rNET_EXQ_TX_IDX i.val], 0x1000 ≤ a := by
    simp only [List.mem_cons, List.not_mem_nil, or_false, rNET_EXQ_TX_IDX]
    omega
  rw [f3]
  cases s.linkUp i with
  | true => exact ⟨f1, f2.trans (fld_of_rd (hd _)), .of_hi k1 hr⟩
  | false =>
    refine ⟨(State.fld_setFld_apart _ _ _ _ _ _ (by decide)).trans f1, (State.fld_setFld_self _ _ _ _ (by decide)).trans ?_, .of_hi (.setFld k1) hr⟩
    rw [f1]
    exact fget_mod v fNET_EXQ_TX_IDX_TAIL

end

/-! ### Sending and pauses (R459, R460) -/

section

variable {s : State} {i : Nat}

theorem netSend_out (h : s.linkUp i = true) (hp : (s.netS i).pause = none) (o : Out) :
    s.netSend i o = (s.send o).addMod (rNET_SUB_CNT0 i) fNET_SUB_CNT0_TX_FRAMES 1 :=
  (if_neg (by rw [h]; decide)).trans (if_neg (by rw [hp]; decide))

theorem netSend_effect (h : s.linkUp i = true) (hp : (s.netS i).pause = none) (o : Out) {t : State} (e : s.netSend i o = t) :
    t.outs = s.outs ++ [o] ∧ t.net = s.net ∧
      t.fld (rNET_SUB_CNT0 i) fNET_SUB_CNT0_TX_FRAMES = (s.fld (rNET_SUB_CNT0 i) fNET_SUB_CNT0_TX_FRAMES + 1) % 2 ^ 32 ∧
      onlyIn (mRegs ||| mOuts ||| mGlb) [rNET_SUB_CNT0 i] [] s t := by
  rw [netSend_out h hp] at e
  have k : onlyIn (mRegs ||| mOuts ||| mGlb) [rNET_SUB_CNT0 i] [] s (s.send o) := .other (.refl _ _ _ _) (touches_State.send _ _) (by decide) (State.send_regs _ _)
  refine ⟨?_, ?_, ?_, ?_⟩
  · rw [← e, State.addMod_outs]
    rfl
  · rw [← e, State.addMod_net, State.send_net]
  · rw [← e, State.fld_addMod_self _ _ _ _ (by decide), State.fld_congr (State.send_regs _ _)]
  · rw [← e]
    exact .addMod k

theorem netSend_list (l : List Out) (s : State) (h : s.linkUp i = true) (hp : (s.netS i).pause = none) {t : State}
    (e : l.foldl (fun (t : State) o => t.netSend i o) s = t) :
    t.outs = s.outs ++ l ∧ t.net = s.net ∧ onlyIn (mRegs ||| mOuts ||| mGlb) [rNET_SUB_CNT0 i] [] s t := by
  induction l generalizing s with
  | nil =>
    subst e
    exact ⟨(List.append_nil _).symm, rfl, .refl _ _ _ _⟩
  | cons o l ih =>
    obtain ⟨a1, a2, -, a4⟩ := netSend_effect h hp o (rfl : s.netSend i o = _)
    rw [List.foldl_cons] at e
    generalize s.netSend i o = u at *
    have hl : u.linkUp i = true := (linkUp_of_rd (a4.rd_apart (by simp only [List.mem_cons, List.not_mem_nil, or_false, rNET_SUB_STATUS, rNET_SUB_CNT0]; omega)
      (.inr (by simp only [rNET_SUB_STATUS]; omega)) (by simp))).trans h
    obtain ⟨b1, b2, b3⟩ := ih u hl (by rw [netS_of_net a2]; exact hp) e
    exact ⟨by rw [b1, a1, List.append_assoc]; rfl, b2.trans a2, a4.trans b3⟩

end

end Sys2Proof

end

section
/-! SUPPORT. Pauses, the exception transmit ring, and O53 (R459, R463, R465). -/

set_option Elab.async false

namespace Sys2Proof

open Sys2Proof.Machine

/-! ### Pauses -/

theorem pauseRx_plain {s : State} {i q : Nat} (h : s.flag (rNET_SUB_CFG i) fNET_SUB_CFG_PAUSE_RX = true) : s.pauseRx i q none = s.pauseFor i q := if_pos h

theorem pauseRx_ignored {s : State} {i q : Nat} (h : s.flag (rNET_SUB_CFG i) fNET_SUB_CFG_PAUSE_RX = false ∨ s.linkUp i = false)
    (hq : s.linkUp i = false → s.pauseFor i q = s) : s.pauseRx i q none = s := by
  cases hf : s.flag (rNET_SUB_CFG i) fNET_SUB_CFG_PAUSE_RX with
  | false => exact if_neg (by rw [hf]; decide)
  | true =>
    rw [pauseRx_plain hf]
    exact hq (h.resolve_left (by rw [hf]; decide))

theorem pauseFor_off {s : State} {i : Nat} (h : s.linkUp i = false) (q : Nat) : s.pauseFor i q = s := if_pos (by rw [h]; rfl)

theorem pauseFor_begins {s : State} {i q : Nat} (h : s.linkUp i = true) (hq : 0 < q) :
    s.pauseFor i q = s.updNet i fun n => { n with pause := some ((n.pause.map (·.1)).getD s.time, s.time + s.quanta i q) } :=
  (if_neg (by rw [h]; decide)).trans (if_neg (by omega))

/-- Which of the priorities of a PFC frame holds sub-port `i`. -/
theorem pauseRx_pfc {s : State} {i q : Nat} {l : List (Nat × Nat)} (h : s.flag (rNET_SUB_CFG i) fNET_SUB_CFG_PFC_RX = true) :
    s.pauseRx i q (some l) = match l.find? fun e => e.1 == s.fld (rNET_SUB_CFG i) fNET_SUB_CFG_PFC_PRIO with
      | some e => s.pauseFor i e.2
      | none => s := if_pos h

theorem pauseRx_noPrio {s : State} {i q : Nat} {l : List (Fin 8 × Fin 65536)} (h : s.flag (rNET_SUB_CFG i) fNET_SUB_CFG_PFC_RX = false ∨
      (∀ e ∈ l, e.1.val ≠ s.fld (rNET_SUB_CFG i) fNET_SUB_CFG_PFC_PRIO)) : s.pauseRx i q (some (l.map fun e => (e.1.val, e.2.val))) = s := by
  cases hf : s.flag (rNET_SUB_CFG i) fNET_SUB_CFG_PFC_RX with
  | false => exact if_neg (by rw [hf]; decide)
  | true =>
    have hn : (l.map fun e => (e.1.val, e.2.val)).find? (fun e => e.1 == s.fld (rNET_SUB_CFG i) fNET_SUB_CFG_PFC_PRIO) = none := by
      rw [List.find?_eq_none]
      intro e he
      obtain ⟨e', he', rfl⟩ := List.mem_map.mp he
      simpa using h.resolve_left (by rw [hf]; decide) e' he'
    rw [pauseRx_pfc hf, hn]

theorem pauseFrameRx_runs {s t : State} {i : Fin 16} {q : Fin 65536} {p : Option (List (Fin 8 × Fin 65536))} (hg : s.glb ≠ 0)
    (e : s.pauseRx i q (p.map fun l => l.map fun e => (e.1.val, e.2.val)) = t) : exec (.pauseFrameRx i q p) s = .next t := next_live hg e

theorem pauseFrameRx_clauses (i : Fin 16) (q : Fin 65536) (s : State) (hg : s.glb ≠ 0) :
    (s.flag (rNET_SUB_CFG i) fNET_SUB_CFG_PAUSE_RX = false ∨ s.linkUp i = false → exec (.pauseFrameRx i q none) s = .next s) ∧
    (s.flag (rNET_SUB_CFG i) fNET_SUB_CFG_PAUSE_RX = true → s.linkUp i = true → 0 < q.val →
      exec (.pauseFrameRx i q none) s =
        .next (s.updNet i fun n => { n with pause := some ((n.pause.map (·.1)).getD s.time, s.time + s.quanta i q) })) ∧
    (∀ l : List (Fin 8 × Fin 65536), s.flag (rNET_SUB_CFG i) fNET_SUB_CFG_PFC_RX = false ∨
      (∀ e ∈ l, e.1.val ≠ s.fld (rNET_SUB_CFG i) fNET_SUB_CFG_PFC_PRIO) → exec (.pauseFrameRx i q (some l)) s = .next s) ∧
    (∀ pr : Fin 8, s.flag (rNET_SUB_CFG i) fNET_SUB_CFG_PFC_RX = true → s.linkUp i = true → 0 < q.val →
      s.fld (rNET_SUB_CFG i) fNET_SUB_CFG_PFC_PRIO = pr →
      exec (.pauseFrameRx i 0 (some [(pr, q)])) s =
        .next (s.updNet i fun n => { n with pause := some ((n.pause.map (·.1)).getD s.time, s.time + s.quanta i q) })) := by
  refine ⟨fun h => pauseFrameRx_runs hg (pauseRx_ignored h fun hl => pauseFor_off hl _),
    fun hf hl hq => pauseFrameRx_runs hg ((pauseRx_plain hf).trans (pauseFor_begins hl hq)), fun l h => pauseFrameRx_runs hg (pauseRx_noPrio h),
    fun pr hf hl hq hp => ?_⟩
  have hfind : List.find? (fun e : Nat × Nat => e.1 == s.fld (rNET_SUB_CFG i) fNET_SUB_CFG_PFC_PRIO) [(pr.val, q.val)] = some (pr.val, q.val) := by
    rw [hp]
    exact List.find?_cons_of_pos (by simp)
  refine pauseFrameRx_runs (p := some [(pr, q)]) hg ((pauseRx_pfc hf).trans ?_)
  dsimp only
  rw [List.map_cons, List.map_nil, hfind]
  exact pauseFor_begins hl hq

theorem pauseExpiry_none {s : State} {i : Fin 16} (hg : s.glb ≠ 0) (h : (s.netS i).pause = none) : exec (.pauseExpiry i) s = .next s := by
  refine next_live hg ?_
  unfold State.pauseExpire
  rw [h]

/-- The end of a pause: what waited is sent. -/
theorem pauseEnd_effect {s : State} {i t0 t1 : Nat} (hi : i < 16) (h : (s.netS i).pause = some (t0, t1)) (hl : s.linkUp i = true) {t : State}
    (e : s.pauseEnd i = t) : t.netS i = { s.netS i with pause := none, queue := [] } ∧ t.outs = s.outs ++ (s.netS i).queue ∧
        t.fld (rNET_SUB_STATUS i) fNET_SUB_STATUS_PAUSED_US =
          satN 32 (s.fld (rNET_SUB_STATUS i) fNET_SUB_STATUS_PAUSED_US + s.ticksUs (s.time - t0)) ∧
        onlyIn (mRegs ||| mOuts ||| mNet) [rNET_SUB_STATUS i, rNET_SUB_CNT0 i] [] s t := by
  have hne : rNET_SUB_STATUS i ≠ rNET_SUB_CNT0 i := by simp only [rNET_SUB_STATUS, rNET_SUB_CNT0]; omega
  unfold State.pauseEnd at e
  rw [h] at e
  dsimp only at e
  have k1 : onlyIn (mRegs ||| mOuts ||| mNet ||| mGlb) [rNET_SUB_STATUS i, rNET_SUB_CNT0 i] [] s
      (s.addSat (rNET_SUB_STATUS i) fNET_SUB_STATUS_PAUSED_US (s.ticksUs (s.time - t0))) := .addSat (.refl _ _ _ _)
  have f1 := State.fld_addSat_self s (rNET_SUB_STATUS i) fNET_SUB_STATUS_PAUSED_US (s.ticksUs (s.time - t0)) (by decide)
  have f2 := State.fld_addSat_apart s (rNET_SUB_STATUS i) (rNET_SUB_STATUS i) fNET_SUB_STATUS_PAUSED_US fNET_SUB_STATUS_LINK
    (s.ticksUs (s.time - t0)) (by decide)
  have n1 : (s.addSat (rNET_SUB_STATUS i) fNET_SUB_STATUS_PAUSED_US (s.ticksUs (s.time - t0))).net = s.net := State.addSat_net _ _ _ _
  have o1 : (s.addSat (rNET_SUB_STATUS i) fNET_SUB_STATUS_PAUSED_US (s.ticksUs (s.time - t0))).outs = s.outs := State.addSat_outs _ _ _ _
  generalize s.addSat (rNET_SUB_STATUS i) _ _ = u at *
  have k2 := k1.other (touches_State.updNet u i fun n => { n with pause := none, queue := [] }) (by decide) (State.updNet_regs _ _ _)
  have n2 := netS_updNet_same u i fun n => { n with pause := none, queue := [] }
  have o2 : (u.updNet i fun n => { n with pause := none, queue := [] }).outs = u.outs := State.updNet_outs _ _ _
  have r2 : (u.updNet i fun n => { n with pause := none, queue := [] }).regs = u.regs := State.updNet_regs _ _ _
  rw [netS_of_net n1] at n2
  generalize u.updNet i _ = w at *
  have hlw : w.linkUp i = true := by
    rw [State.linkUp, State.flag_iff, State.fld_congr r2, f2]
    exact (State.flag_iff _ _ _).mp hl
  obtain ⟨a1, a2, a3⟩ := netSend_list _ w hlw (by rw [n2]) e
  have rs : t.rd (rNET_SUB_STATUS i) = w.rd (rNET_SUB_STATUS i) := a3.rd_apart (by simpa using hne) (.inr (by simp only [rNET_SUB_STATUS]; omega)) (by simp)
  refine ⟨(netS_of_net a2 i).trans n2, ?_, ?_, .of_hi (k2.trans (a3.mono (by decide) (by simp) (fun _ h => h))) ?_⟩
  · rw [a1, o2, o1]
  · rw [fld_of_rd rs, State.fld_congr r2, f1]
  · simp only [List.mem_cons, List.not_mem_nil, or_false, rNET_SUB_STATUS, rNET_SUB_CNT0]
    omega

theorem pauseExpiry_effect {s : State} {i : Fin 16} {t0 t1 : Nat} (hg : s.glb ≠ 0) (h : (s.netS i).pause = some (t0, t1)) (hl : s.linkUp i = true)
    (hh : s.held = false) : completes (.pauseExpiry i) s fun t => t.time = max s.time t1 ∧ t.netS i = { s.netS i with pause := none, queue := [] } ∧
        t.outs = s.outs ++ (s.netS i).queue ∧
        t.fld (rNET_SUB_STATUS i) fNET_SUB_STATUS_PAUSED_US =
          satN 32 (s.fld (rNET_SUB_STATUS i) fNET_SUB_STATUS_PAUSED_US + s.ticksUs (max s.time t1 - t0)) ∧
        onlyIn (mRegs ||| mOuts ||| mTime ||| mNet) [rNET_SUB_STATUS i, rNET_SUB_CNT0 i] [] s t := by
  have tr := touches_State.reach s t1
  have e : exec (.pauseExpiry i) s = .next ((s.reach t1).pauseEnd i) := next_live hg (by unfold State.pauseExpire; rw [h])
  have ht := State.reach_time_running hh t1
  have hk (x : Nat) : (s.reach t1).ticksUs x = s.ticksUs x := by rw [State.ticksUs, reach_tickFs, State.ticksUs]
  generalize s.reach t1 = u at *
  have hn := netS_of_net (tr.net (by decide)) (i : Nat)
  have hreg := tr.regs (by decide)
  obtain ⟨h1, h2, h3, h4⟩ := pauseEnd_effect i.isLt (by rw [hn]; exact h) ((linkUp_of_rd (State.rd_congr hreg _)).trans hl) (rfl : u.pauseEnd i = _)
  refine ⟨_, e, (h4.1.time (by decide)).trans ht, by rw [h1, hn], by rw [h2, hn, tr.outs (by decide)], ?_, ?_⟩
  · rw [h3, State.fld_congr hreg, hk, ht]
  · have k : onlyIn (mRegs ||| mOuts ||| mTime ||| mNet) [rNET_SUB_STATUS i.val, rNET_SUB_CNT0 i] [] s u := .other (.refl _ _ _ _) tr (by decide) hreg
    exact k.trans (h4.mono (by decide) (fun _ h => h) (fun _ h => h))

/-! ### The exception transmit ring (R463, R465) -/

section

variable {s : State} {i : Fin 16} {desc data : HostRead} {fine : Fin 512} {dn lg w1 a : Nat}

theorem exqTxSend_runs {t : State} (hg : s.glb ≠ 0) (e : s.exqSend i desc data fine = t) : exec (.exqTxSend i desc data fine) s = .next t :=
  next_live hg e

/-- When there is a descriptor that may be sent now. -/
theorem exqWaits_iff (h1 : s.fld (rNET_EXQ_TX_IDX i) fNET_EXQ_TX_IDX_DONE_IDX = dn) (h2 : s.fld (rNET_EXQ_TX i) fNET_EXQ_TX_LOG2 = lg) :
    s.exqWaits i = true ↔ lg ≠ 0 ∧ s.linkUp i = true ∧ (s.netS i).pause = none ∧ s.busOk = true ∧
      dn ≠ s.fld (rNET_EXQ_TX_IDX i) fNET_EXQ_TX_IDX_TAIL := by
  unfold State.exqWaits
  rw [h1, show fget (s.rd (rNET_EXQ_TX i)) fNET_EXQ_TX_LOG2 = lg from h2]
  simp [and_assoc]

theorem exqTxSend_waits (hg : s.glb ≠ 0) (h1 : s.fld (rNET_EXQ_TX_IDX i) fNET_EXQ_TX_IDX_DONE_IDX = dn)
    (h2 : s.fld (rNET_EXQ_TX i) fNET_EXQ_TX_LOG2 = lg)
    (h : lg = 0 ∨ dn = s.fld (rNET_EXQ_TX_IDX i) fNET_EXQ_TX_IDX_TAIL ∨ s.linkUp i = false ∨ (s.netS i).pause ≠ none ∨ s.busOk = false ∨
        ((s.aveFirst i).any fun e => e.2.1 < 4) = true) : exec (.exqTxSend i desc data fine) s = .next s := by
  refine exqTxSend_runs hg (if_pos ?_)
  rw [Bool.or_eq_true, Bool.not_eq_true', ← Bool.not_eq_true, exqWaits_iff h1 h2]
  simp only [← or_assoc] at h ⊢
  refine h.imp (fun h hw => ?_) id
  obtain ⟨w1, w2, w3, w4, w5⟩ := hw
  simp_all

/-- What a descriptor that is done is marked with. -/
def exqMark (w1 tm fn : Nat) : List Byte := leBytes 8 (w1 % 2 ^ 63 + 2 ^ 63) ++ leBytes 8 tm ++ leBytes 8 fn

theorem exqSend_bad (h1 : s.fld (rNET_EXQ_TX_IDX i) fNET_EXQ_TX_IDX_DONE_IDX = dn)
    (h2 : s.fld (rNET_EXQ_TX i) fNET_EXQ_TX_LOG2 = lg) (h3 : leNat (at_ desc.bytes 8 8) = w1)
    (h4 : s.fld (rNET_EXQ_TX i) fNET_EXQ_TX_ADDR * 64 + dn % 2 ^ lg * 64 = a)
    (hw : s.exqWaits i = true) (ha : ((s.aveFirst i).any fun e => e.2.1 < 4) = false)
    (hb : desc.fail ≠ none ∨ data.fail ≠ none ∨ w1 % 2 ^ 14 < 60 ∨ 9212 < w1 % 2 ^ 14) :
    s.exqSend i desc data fine = ((s.addSat (rNET_SUB_CNT1 i) fNET_SUB_CNT1_TX_BAD 1).hostWrite (a + 8) (exqMark w1 0 0)).addMod (rNET_EXQ_TX_IDX i)
      fNET_EXQ_TX_IDX_DONE_IDX 1 := by
  unfold State.exqSend exqMark
  dsimp only
  rw [if_neg (by rw [hw, ha]; decide), h1, h3, show fget (s.rd (rNET_EXQ_TX i)) fNET_EXQ_TX_LOG2 = lg from h2,
    show fget (s.rd (rNET_EXQ_TX i)) fNET_EXQ_TX_ADDR = s.fld (rNET_EXQ_TX i) fNET_EXQ_TX_ADDR from rfl, h4]
  refine if_pos ?_
  simp only [Bool.or_eq_true, Option.isSome_iff_ne_none, decide_eq_true_eq, or_assoc]
  exact hb

theorem exqSend_good (h1 : s.fld (rNET_EXQ_TX_IDX i) fNET_EXQ_TX_IDX_DONE_IDX = dn)
    (h2 : s.fld (rNET_EXQ_TX i) fNET_EXQ_TX_LOG2 = lg) (h3 : leNat (at_ desc.bytes 8 8) = w1)
    (h4 : s.fld (rNET_EXQ_TX i) fNET_EXQ_TX_ADDR * 64 + dn % 2 ^ lg * 64 = a)
    (hw : s.exqWaits i = true) (ha : ((s.aveFirst i).any fun e => e.2.1 < 4) = false)
    (hd : desc.fail = none) (hx : data.fail = none) (hlo : 60 ≤ w1 % 2 ^ 14) (hhi : w1 % 2 ^ 14 ≤ 9212) (hsum : w1 / 2 ^ 16 % 2 = 0)
    (hone : w1 / 2 ^ 18 % 2 = 0) (hlen : data.bytes.length = w1 % 2 ^ 14) :
    s.exqSend i desc data fine = ((s.netSend i (.frame i data.bytes)).hostWrite (a + 8) (leBytes 8 (w1 % 2 ^ 63 + 2 ^ 63) ++
      (if w1 / 2 ^ 17 % 2 = 1 then leBytes 8 s.time ++ leBytes 8 fine else leBytes 16 0))).addMod (rNET_EXQ_TX_IDX i)
      fNET_EXQ_TX_IDX_DONE_IDX 1 := by
  unfold State.exqSend
  dsimp only
  rw [if_neg (by rw [hw, ha]; decide), h1, h3, show fget (s.rd (rNET_EXQ_TX i)) fNET_EXQ_TX_LOG2 = lg from h2,
    show fget (s.rd (rNET_EXQ_TX i)) fNET_EXQ_TX_ADDR = s.fld (rNET_EXQ_TX i) fNET_EXQ_TX_ADDR from rfl, h4, if_neg, hsum, hone, hlen, Nat.sub_self,
    List.replicate_zero, List.append_nil, List.take_of_length_le (by omega), if_neg (by decide), if_neg (by decide)]
  · by_cases h17 : w1 / 2 ^ 17 % 2 = 1
    · simp only [h17, decide_true, Bool.and_true, if_true, List.append_assoc]
    · simp only [h17, decide_false, Bool.false_and, Bool.false_eq_true, if_false, List.append_assoc]
      rfl
  · simp only [Bool.or_eq_true, decide_eq_true_eq, not_or, hd, hx, Option.isSome_none, Bool.false_eq_true, not_false_eq_true, true_and]
    omega

/-- A descriptor is done: the host sees it and the index moves on. -/
theorem exqDone_effect {s u t : State} {i : Fin 16} {a : Nat} {bs : List Byte}
    (h : u.rd (rNET_EXQ_TX_IDX i) = s.rd (rNET_EXQ_TX_IDX i)) (e : (u.hostWrite a bs).addMod (rNET_EXQ_TX_IDX i) fNET_EXQ_TX_IDX_DONE_IDX 1 = t) :
    t.outs = u.outs ∧ t.hostMem = u.hostMem.write 0 a bs ∧
      t.fld (rNET_EXQ_TX_IDX i) fNET_EXQ_TX_IDX_DONE_IDX = (s.fld (rNET_EXQ_TX_IDX i) fNET_EXQ_TX_IDX_DONE_IDX + 1) % 65536 ∧
      (∀ b, b ≠ rNET_EXQ_TX_IDX i → t.rd b = u.rd b) ∧ onlyIn (mRegs ||| mHostMem ||| mGlb) [rNET_EXQ_TX_IDX i] [] u t := by
  have k : onlyIn (mRegs ||| mHostMem ||| mGlb) [rNET_EXQ_TX_IDX i] [] u (u.hostWrite a bs) :=
    .other (.refl _ _ _ _) (touches_State.hostWrite _ _ _) (by decide) (State.hostWrite_regs _ _ _)
  refine ⟨?_, ?_, ?_, fun b hb => ?_, ?_⟩
  · rw [← e, State.addMod_outs, State.hostWrite_outs]
  · rw [← e, State.addMod_hostMem]
    rfl
  · rw [← e, State.fld_addMod_self _ _ _ _ (by decide), State.fld_congr (State.hostWrite_regs _ _ _), fld_of_rd h]
    rfl
  · rw [← e, State.rd_addMod_other _ _ _ hb, State.rd_congr (State.hostWrite_regs _ _ _)]
  · rw [← e]
    exact .addMod k

end

end Sys2Proof

end

section
/-! O53: the network ports (R454 to R465). -/

set_option Elab.async false

namespace Sys2Proof

open Sys2Proof.Machine

section

variable {s : State} {i : Fin 16} {desc data : HostRead} {fine : Fin 512} {dn lg w1 a : Nat}

theorem exqRegs_below (i : Fin 16) (r : Nat) (hr : r = rNET_SUB_CNT0 i ∨ r = rNET_SUB_CNT1 i) : ∀ b ∈ [r, rNET_EXQ_TX_IDX i.val], 0x1000 ≤ b := by
  simp only [List.mem_cons, List.not_mem_nil, or_false, rNET_SUB_CNT0, rNET_SUB_CNT1, rNET_EXQ_TX_IDX] at *
  omega

theorem exqTxSend_bad (hg : s.glb ≠ 0) (h1 : s.fld (rNET_EXQ_TX_IDX i) fNET_EXQ_TX_IDX_DONE_IDX = dn)
    (h2 : s.fld (rNET_EXQ_TX i) fNET_EXQ_TX_LOG2 = lg) (h3 : leNat (at_ desc.bytes 8 8) = w1)
    (h4 : s.fld (rNET_EXQ_TX i) fNET_EXQ_TX_ADDR * 64 + dn % 2 ^ lg * 64 = a)
    (hw : s.exqWaits i = true) (ha : ((s.aveFirst i).any fun e => e.2.1 < 4) = false)
    (hb : desc.fail ≠ none ∨ data.fail ≠ none ∨ w1 % 2 ^ 14 < 60 ∨ 9212 < w1 % 2 ^ 14) :
    completes (.exqTxSend i desc data fine) s fun t => t.outs = s.outs ∧
          t.fld (rNET_EXQ_TX_IDX i) fNET_EXQ_TX_IDX_DONE_IDX = (dn + 1) % 65536 ∧
          t.fld (rNET_SUB_CNT1 i) fNET_SUB_CNT1_TX_BAD = satN 16 (s.fld (rNET_SUB_CNT1 i) fNET_SUB_CNT1_TX_BAD + 1) ∧
          onlyIn (mRegs ||| mHostMem) [rNET_SUB_CNT1 i, rNET_EXQ_TX_IDX i] [] s t := by
  have hne : rNET_SUB_CNT1 i ≠ rNET_EXQ_TX_IDX i := by simp only [rNET_SUB_CNT1, rNET_EXQ_TX_IDX]; omega
  have e := exqTxSend_runs (desc := desc) (data := data) (fine := fine) hg (exqSend_bad h1 h2 h3 h4 hw ha hb)
  have k : onlyIn (mRegs ||| mHostMem ||| mGlb) [rNET_SUB_CNT1 i.val, rNET_EXQ_TX_IDX i] [] s (s.addSat (rNET_SUB_CNT1 i) fNET_SUB_CNT1_TX_BAD 1) :=
    .addSat (.refl _ _ _ _)
  have c := State.fld_addSat_self s (rNET_SUB_CNT1 i) fNET_SUB_CNT1_TX_BAD 1 (by decide)
  have r := State.rd_addSat_other s fNET_SUB_CNT1_TX_BAD 1 hne.symm
  have o : (s.addSat (rNET_SUB_CNT1 i) fNET_SUB_CNT1_TX_BAD 1).outs = s.outs := State.addSat_outs _ _ _ _
  generalize s.addSat (rNET_SUB_CNT1 i) _ _ = u at *
  obtain ⟨d1, -, d3, d4, d5⟩ := exqDone_effect r rfl
  refine ⟨_, e, d1.trans o, ?_, ?_, .of_hi (k.trans (d5.mono (by decide) (by simp) (fun _ h => h))) (exqRegs_below i _ (.inr rfl))⟩
  · rw [d3, h1]
  · rw [fld_of_rd (d4 _ hne), c]

theorem exqTxSend_good (hg : s.glb ≠ 0) (h1 : s.fld (rNET_EXQ_TX_IDX i) fNET_EXQ_TX_IDX_DONE_IDX = dn)
    (h2 : s.fld (rNET_EXQ_TX i) fNET_EXQ_TX_LOG2 = lg) (h3 : leNat (at_ desc.bytes 8 8) = w1)
    (h4 : s.fld (rNET_EXQ_TX i) fNET_EXQ_TX_ADDR * 64 + dn % 2 ^ lg * 64 = a)
    (hw : s.exqWaits i = true) (ha : ((s.aveFirst i).any fun e => e.2.1 < 4) = false)
    (hd : desc.fail = none) (hx : data.fail = none) (hlo : 60 ≤ w1 % 2 ^ 14) (hhi : w1 % 2 ^ 14 ≤ 9212) (hsum : w1 / 2 ^ 16 % 2 = 0)
    (hone : w1 / 2 ^ 18 % 2 = 0) (hlen : data.bytes.length = w1 % 2 ^ 14) :
    completes (.exqTxSend i desc data fine) s fun t => t.outs = s.outs ++ [.frame i data.bytes] ∧
          t.fld (rNET_EXQ_TX_IDX i) fNET_EXQ_TX_IDX_DONE_IDX = (dn + 1) % 65536 ∧
          t.fld (rNET_SUB_CNT0 i) fNET_SUB_CNT0_TX_FRAMES = (s.fld (rNET_SUB_CNT0 i) fNET_SUB_CNT0_TX_FRAMES + 1) % 2 ^ 32 ∧
          t.hostMem = s.hostMem.write 0 (a + 8) (leBytes 8 (w1 % 2 ^ 63 + 2 ^ 63) ++ (if w1 / 2 ^ 17 % 2 = 1 then leBytes 8 s.time ++
            leBytes 8 fine else leBytes 16 0)) ∧
          onlyIn (mRegs ||| mOuts ||| mHostMem) [rNET_SUB_CNT0 i, rNET_EXQ_TX_IDX i] [] s t := by
  have hne : rNET_SUB_CNT0 i ≠ rNET_EXQ_TX_IDX i := by simp only [rNET_SUB_CNT0, rNET_EXQ_TX_IDX]; omega
  have e := exqTxSend_runs (desc := desc) (data := data) (fine := fine) hg (exqSend_good h1 h2 h3 h4 hw ha hd hx hlo hhi hsum hone hlen)
  obtain ⟨-, hl, hp, -, -⟩ := (exqWaits_iff h1 h2).mp hw
  obtain ⟨n1, -, n3, n4⟩ := netSend_effect hl hp (.frame i data.bytes) (rfl : s.netSend i _ = _)
  generalize s.netSend i (.frame i data.bytes) = u at *
  have r : u.rd (rNET_EXQ_TX_IDX i) = s.rd (rNET_EXQ_TX_IDX i) := n4.rd_apart (by simpa using hne.symm)
    (.inr (by simp only [rNET_EXQ_TX_IDX]; omega)) (by simp)
  obtain ⟨d1, d2, d3, d4, d5⟩ := exqDone_effect r rfl
  refine ⟨_, e, d1.trans n1, ?_, ?_, ?_, .of_hi ?_ (exqRegs_below i _ (.inl rfl))⟩
  · rw [d3, h1]
  · rw [fld_of_rd (d4 _ hne), n3]
  · rw [d2, n4.1.hostMem (by decide)]
  · exact (n4.mono (by decide) (by simp) (fun _ h => h)).trans (d5.mono (by decide) (by simp) (fun _ h => h))

end

/-- The clauses of frames that nothing but their bytes decides on. -/
theorem netFrameRx_clauses (i : Fin 16) (x : NetFrame) (s : State) (hg : s.glb ≠ 0) (d : Nat) (hl : s.linkUp i = true) (h1 : x.badFcs = false)
    (h2 : x.uncorr = 0) (h3 : x.bytes.length + 4 ≤ s.fld (rNET_SUB_CFG i) fNET_SUB_CFG_MAX_FRAME) (h4 : beNat (at_ x.bytes 12 2) ≠ 0x8808)
    (hd : beNat (at_ x.bytes 0 6) = d) :
      (d ≠ s.fld (rNET_SUB_MAC i) fNET_SUB_MAC_MAC → d ≠ 2 ^ 48 - 1 →
        s.flag (rNET_SUB_CFG i) fNET_SUB_CFG_MCAST = false ∨ d / 2 ^ 40 % 2 = 0 →
        completes (.netFrameRx i x) s fun t => onlyIn mRegs [rNET_PORT_FEC (i / 4)] [] s t) ∧
      (∀ u, d = s.fld (rNET_SUB_MAC i) fNET_SUB_MAC_MAC → udpOf x.bytes = some u → beNat (at_ x.bytes (u.o + 6) 2) ≠ 0 →
        udpSum x.bytes u ≠ 0xFFFF →
        completes (.netFrameRx i x) s fun t =>
          t.fld (rNET_SUB_CNT1 i) fNET_SUB_CNT1_CSUM_ERR = satN 16 (s.fld (rNET_SUB_CNT1 i) fNET_SUB_CNT1_CSUM_ERR + 1) ∧
          onlyIn mRegs [rNET_PORT_FEC (i / 4), rNET_SUB_CNT1 i] [] s t) ∧
      (∀ lg wr slot, d = s.fld (rNET_SUB_MAC i) fNET_SUB_MAC_MAC → beNat (at_ x.bytes 12 2) ≠ 0x0800 → beNat (at_ x.bytes 12 2) ≠ 0x86DD →
        beNat (at_ x.bytes 12 2) ≠ 0x88F7 → s.fld (rNET_EXQ_RX i) fNET_EXQ_RX_LOG2 = lg →
        s.fld (rNET_EXQ_RX_IDX i) fNET_EXQ_RX_IDX_WRITTEN = wr → s.fld (rNET_EXQ_RX i) fNET_EXQ_RX_ADDR * 64 + wr % 2 ^ lg * 9280 = slot →
        (lg ≠ 0 → (wr + 65536 - s.fld (rNET_EXQ_RX_IDX i) fNET_EXQ_RX_IDX_RELEASED) % 65536 < 2 ^ lg → s.busOk = true →
          completes (.netFrameRx i x) s fun t =>
            t.fld (rNET_SUB_CNT0 i) fNET_SUB_CNT0_RX_FRAMES = (s.fld (rNET_SUB_CNT0 i) fNET_SUB_CNT0_RX_FRAMES + 1) % 2 ^ 32 ∧
            t.fld (rNET_EXQ_RX_IDX i) fNET_EXQ_RX_IDX_WRITTEN = (wr + 1) % 65536 ∧ t.hostMem.read 0 (slot + 64) x.bytes.length = x.bytes ∧
            t.hostMem.read 0 slot 8 = leBytes 8 (x.bytes.length % 2 ^ 14 + i * 2 ^ 18 + (1 - wr / 2 ^ lg % 2) * 2 ^ 63) ∧
            t.hostMem.read 0 (slot + 8) 8 = leBytes 8 s.time ∧
            (∀ a, a < slot ∨ slot + 64 + x.bytes.length ≤ a → t.hostMem.byte 0 a = s.hostMem.byte 0 a) ∧
            onlyIn (mRegs ||| mHostMem) [rNET_PORT_FEC (i / 4), rNET_SUB_CNT0 i, rNET_EXQ_RX_IDX i] [] s t) ∧
        (lg = 0 ∨ 2 ^ lg ≤ (wr + 65536 - s.fld (rNET_EXQ_RX_IDX i) fNET_EXQ_RX_IDX_RELEASED) % 65536 ∨ s.busOk = false →
          completes (.netFrameRx i x) s fun t =>
            t.fld (rNET_SUB_CNT1 i) fNET_SUB_CNT1_EXQ_DROP = satN 16 (s.fld (rNET_SUB_CNT1 i) fNET_SUB_CNT1_EXQ_DROP + 1) ∧
            onlyIn mEvent [rNET_PORT_FEC (i / 4), rNET_SUB_CNT0 i, rNET_SUB_CNT1 i] [916] s t)) := by
  have own (h : d = s.fld (rNET_SUB_MAC i) fNET_SUB_MAC_MAC) : takesMac s i (beNat (at_ x.bytes 0 6)) = true := by
    rw [takesMac, hd, h, beq_self_eq_true, Bool.true_or, Bool.true_or]
  refine ⟨fun hm hbc hmc => netFrameRx_otherMac hg hl h1 h2 h3 h4 ?_, fun u hm hu hc hs => netFrameRx_badSum hg hl h1 h2 h3 h4 (own hm) ?_,
    fun lg wr slot hm h5 h6 h7 q1 q2 q3 => ?_⟩
  · rw [takesMac, hd, beq_false_of_ne hm, beq_false_of_ne hbc]
    obtain hmc | hmc := hmc
    · rw [hmc]
      rfl
    · rw [hmc, Bool.and_comm]
      rfl
  · rw [sumGood, hu]
    exact (if_neg hc).trans (by rw [beq_false_of_ne hs])
  · obtain ⟨u, e, k, c⟩ := netFrameRx_queued hg hl h1 h2 h3 h4 (own hm) h5 h6 h7
    refine ⟨fun hlg hu hb => ?_, fun h => ⟨_, e, exqPut_lost k q1 q2 h rfl⟩⟩
    obtain ⟨r0, r⟩ := exqPut_stored k q1 q2 q3 hlg hu hb rfl
    exact ⟨_, e, (fld_of_rd r0).trans c, r⟩

/-- Settles O53, clause by clause: NET_PORT_CFG, the link of a sub-port, received frames, pauses and the exception rings. -/
theorem networkPorts : Obligations.NetworkPorts := by
  unfold Obligations.NetworkPorts
  refine ⟨fun p v s hr => ⟨fun hv => netPortCfgWrite_runs hr (if_pos hv), fun hv ha => netPortCfgWrite_effect hr hv ha⟩,
    fun i s hg => ⟨fun h => next_live hg (netUp_off h), fun l h hx hl hlen => ⟨_, next_live hg rfl, netUp_effect i.isLt h hx hl hlen rfl⟩⟩,
    fun i s hg => ⟨fun h => next_live hg (netDown_off h), fun h => ?_⟩,
    fun i x s hg => ⟨fun h => netFrameRx_runs hg (netRx_off h), netFrameRx_bad hg, fun d hl h1 h2 h3 h4 hd =>
      netFrameRx_clauses i x s hg d hl h1 h2 h3 h4 hd⟩,
    fun i q s hg => pauseFrameRx_clauses i q s hg,
    fun i s hg => ⟨pauseExpiry_none hg, fun t0 t1 h hl hh => pauseExpiry_effect hg h hl hh⟩,
    fun i v used s hr hu => ⟨fun h => ?_, fun h => ?_⟩,
    fun i v s hr => exqTxTail_effect i v hr,
    fun i desc data fine dn lg w1 a s hg h1 h2 h3 h4 => ⟨exqTxSend_waits hg h1 h2, fun q1 q2 q3 q4 q5 ha => ?_⟩⟩
  · obtain ⟨d1, d2, d3, d4, d5, d6, d7, -⟩ := netDown_effect i.isLt h (rfl : s.netDown i = _)
    exact ⟨_, next_live hg rfl, d1, d2, d3, d4, d5, d6, d7⟩
  · rw [exqRxRelease_eq i v hr hu, if_neg (by omega)]
  · rw [exqRxRelease_eq i v hr hu, if_pos h]
  · have hw : s.exqWaits i = true := (exqWaits_iff h1 h2).mpr ⟨q1, q3, q4, q5, q2⟩
    exact ⟨fun hd hx hlo hhi hsum hone hlen => exqTxSend_good hg h1 h2 h3 h4 hw ha hd hx hlo hhi hsum hone hlen,
      fun hb => exqTxSend_bad hg h1 h2 h3 h4 hw ha hb⟩

end Sys2Proof

end

section
/-! SUPPORT. Display outputs: their units and their link (R486), and what a settlement of a cord leaves alone. -/

set_option Elab.async false

namespace Sys2Proof

open Sys2Proof.Machine

/-! ### Settling a cord counts what it frees and changes no other register -/

theorem updCtx_regs (s : State) (x : Nat) (f : Ctx → Ctx) : (s.updCtx x f).regs = s.regs := (touches_State.updCtx s x f).regs (by decide)

theorem onlyIn_freeBillet (s : State) (b : Nat) : onlyIn (mRegs ||| mCtxs ||| mBillets) [rSTO_CNT0] [] s (s.freeBillet b) := by
  unfold State.freeBillet
  refine .of_hi (.addMod ?_) (by decide)
  exact .other (.other (.refl _ _ _ _) (touches_State.setBillet _ _ _) (by decide) (State.setBillet_regs _ _ _)) (touches_State.updCtx _ _ _) (by decide)
    (updCtx_regs _ _ _)

theorem onlyIn_settleBillet (s : State) (b : Nat) : onlyIn (mRegs ||| mCtxs ||| mBillets) [rSTO_CNT0] [] s (s.settleBillet b) := by
  unfold State.settleBillet
  dsimp only
  exact .ite (.refl _ _ _ _) (.ite (.refl _ _ _ _) (.ite (.other (.refl _ _ _ _) (touches_State.setBillet _ _ _) (by decide) (State.setBillet_regs _ _ _))
    (.ite (onlyIn_freeBillet s b) (.refl _ _ _ _))))

theorem onlyIn_closeIfDrained (s : State) (x : Nat) : onlyIn (mRegs ||| mCtxs ||| mBillets) [rSTO_CNT0] [] s (s.closeIfDrained x) := by
  unfold State.closeIfDrained
  dsimp only
  exact .ite (.other (.refl _ _ _ _) (touches_State.setCtx _ _ _) (by decide) (State.setCtx_regs _ _ _)) (.refl _ _ _ _)

theorem onlyIn_settle (s : State) (x : Nat) : onlyIn (mRegs ||| mCtxs ||| mBillets) [rSTO_CNT0] [] s (s.settle x) := by
  rw [settle_eq]
  have k : onlyIn (mRegs ||| mCtxs ||| mBillets) [rSTO_CNT0] [] s (s.updCtx x Machine.Ctx.settled) :=
    .other (.refl _ _ _ _) (touches_State.updCtx _ _ _) (by decide) (updCtx_regs _ _ _)
  exact (onlyIn.overList k fun t b _ => onlyIn_settleBillet t b).trans (onlyIn_closeIfDrained _ x)

theorem onlyIn_finishTo (s : State) (x d p : Nat) : onlyIn (mRegs ||| mCtxs ||| mBillets) [rSTO_CNT0] [] s (s.finishTo x d p) := by
  unfold State.finishTo
  exact onlyIn.trans (.other (.refl _ _ _ _) (touches_State.updCtx _ _ _) (by decide) (updCtx_regs _ _ _)) (onlyIn_settle _ x)

theorem onlyIn_beginRec (s : State) (x d : Nat) (r : CordRec) : onlyIn (mRegs ||| mCtxs ||| mBillets) [rSTO_CNT0] [] s (s.beginRec x d r) :=
  .other (.refl _ _ _ _) (touches_State.beginRec _ _ _ _) (by decide) ((touches_State.beginRec _ _ _ _).regs (by decide))

theorem onlyIn_deliveredTo (s : State) (x d p : Nat) : onlyIn (mRegs ||| mCtxs ||| mBillets) [rSTO_CNT0] [] s (s.deliveredTo x d p) :=
  .other (.refl _ _ _ _) (touches_State.deliveredTo _ _ _ _) (by decide) ((touches_State.deliveredTo _ _ _ _).regs (by decide))

/-! ### Events add to what the device sends -/

theorem signal_outs (s : State) (v : Nat) : ∃ l, (s.signal v).outs = s.outs ++ l := by
  unfold State.signal
  dsimp only
  split
  · exact ⟨[], (State.setVec_outs _ _ _).trans (List.append_nil _).symm⟩
  · exact ⟨[.msix v], congrArg (· ++ [Out.msix v]) (State.setVec_outs _ _ _)⟩

theorem raiseWith_outs {s t : State} {src : Nat} {obj : Option Nat} {code detail : Nat} {inj : Bool} {lim key : Nat}
    (e : s.raiseWith src obj code detail inj lim key = t) : ∃ l, t.outs = s.outs ++ l := by
  unfold State.raiseWith at e
  dsimp only at e
  have e0 : ((s.setFlds (rEVT_SRC src) [(fEVT_SRC_STATUS, 1), (fEVT_SRC_COUNT, s.fld (rEVT_SRC src) fEVT_SRC_COUNT + 1)]).addMod
      rEVT_STAT fEVT_STAT_RAISED 1).outs = s.outs := by rw [State.addMod_outs, State.setFlds_outs]
  generalize (s.setFlds (rEVT_SRC src) _).addMod rEVT_STAT _ _ = u at *
  have e1 : (u.onEvt fun z => { z with occ := SMap.upd 0 u.evt.occ src (· + 1) }).outs = u.outs := State.onEvt_outs _ _
  generalize u.onEvt _ = w at *
  have he : t = w ∨ ∃ (z : State) (v : Nat), z.outs = w.outs ∧ (z.ringPut src obj code detail inj).signal v = t := by
    split at e
    · split at e
      · exact .inl e.symm
      · refine .inr ⟨_, _, ?_, e⟩
        split
        · rfl
        · exact State.onEvt_outs _ _
    · exact .inl e.symm
  obtain rfl | ⟨z, v, hz, rfl⟩ := he
  · exact ⟨[], by rw [e1, e0, List.append_nil]⟩
  · obtain ⟨l, hl⟩ := signal_outs (z.ringPut src obj code detail inj) v
    exact ⟨l, by rw [hl, (touches_State.ringPut _ _ _ _ _ _).outs (by decide), hz, e1, e0]⟩

theorem raiseLim_outs (s : State) (us src : Nat) (obj : Option Nat) (code detail key : Nat) :
    ∃ l, (s.raiseLim us src obj code detail key).outs = s.outs ++ l := raiseWith_outs rfl

/-! ### Displays, their layers and their link -/

theorem disU_updDis_same (s : State) (n : Nat) (f : Dis → Dis) : (s.updDis n f).disU n = f (s.disU n) := SMap.get_upd_same _ _ _ _

theorem disU_of_dis {s t : State} (h : t.dis = s.dis) (n : Nat) : t.disU n = s.disU n := congrArg (fun m => SMap.get dis0 m n) h

theorem layerU_updLayer_same (s : State) (n l : Nat) (f : DisLayer → DisLayer) : (s.updLayer n l f).layerU n l = f (s.layerU n l) :=
  SMap.get_upd_same _ _ _ _

theorem layerU_updLayer_other (s : State) {n l m k : Nat} (f : DisLayer → DisLayer) (h : 2 * m + k ≠ 2 * n + l) :
    (s.updLayer n l f).layerU m k = s.layerU m k := SMap.get_upd_other _ _ _ _ h

theorem layerU_of_layers {s t : State} (h : t.layers = s.layers) (n l : Nat) : t.layerU n l = s.layerU n l :=
  congrArg (fun m => SMap.get layer0 m (2 * n + l)) h

theorem layerCtx_of_ctxs {s t : State} (h : t.ctxs = s.ctxs) (n l : Nat) : t.layerCtx n l = s.layerCtx n l := by
  rw [State.layerCtx, h, State.layerCtx]

theorem disRegs_range {n : Nat} (h : n < 2) : (rDIS_LINK n < 0x10000 ∨ 0x12000 + 8 * (960 + n) < rDIS_LINK n) ∧
    (rDIS_CTRL n < 0x10000 ∨ 0x12000 + 8 * (960 + n) < rDIS_CTRL n) ∧ (rDIS_LINK n < 0x10000 ∨ 0x12000 + 8 * (962 + n) < rDIS_LINK n) ∧
    (rDIS_CTRL n < 0x10000 ∨ 0x12000 + 8 * (962 + n) < rDIS_CTRL n) ∧ rDIS_CTRL n ≠ rDIS_LINK n := by
  simp only [rDIS_LINK, rDIS_CTRL]
  omega

theorem disHi {n : Nat} : ∀ a ∈ [rDIS_LINK n, rDIS_CTRL n], 0x1000 ≤ a := by
  simp only [List.mem_cons, List.not_mem_nil, or_false, rDIS_LINK, rDIS_CTRL]
  omega

/-- The choice of R486 rests on what software allows in DIS_LINK. -/
theorem chooseLink_of {s t : State} {n : Nat} (h1 : t.fld (rDIS_LINK n) fDIS_LINK_MAX_LANES = s.fld (rDIS_LINK n) fDIS_LINK_MAX_LANES)
    (h2 : t.fld (rDIS_LINK n) fDIS_LINK_MAX_RATE = s.fld (rDIS_LINK n) fDIS_LINK_MAX_RATE) (pix : Word) (k : Nat × Nat) :
    t.chooseLink n pix k = s.chooseLink n pix k := by
  unfold State.chooseLink
  rw [h1, h2]

theorem chooseLink_lt {s : State} {n : Nat} {pix : Word} {k : Nat × Nat} {l r : Nat} (h : s.chooseLink n pix k = some (l, r)) : l < 4 ∧ r < 4 := by
  unfold State.chooseLink at h
  obtain ⟨r', hr, e⟩ := Option.map_eq_some_iff.mp h
  obtain ⟨rfl, rfl⟩ := Prod.mk.inj e
  have h1 := s.fld_lt (rDIS_LINK n) fDIS_LINK_MAX_LANES
  exact ⟨Nat.lt_of_le_of_lt (Nat.min_le_left _ _) h1, List.mem_range.mp (List.mem_of_find?_eq_some hr)⟩

/-- A training that succeeds. -/
theorem linkTrained_ok {s : State} {n l r : Nat} (hl : l < 4) (hr : r < 4) {t : State} (e : s.linkTrained n (some (l, r)) true = t) :
    t.fld (rDIS_LINK n) fDIS_LINK_TRAINED = 1 ∧ t.fld (rDIS_LINK n) fDIS_LINK_LANES = l ∧ t.fld (rDIS_LINK n) fDIS_LINK_RATE = r ∧
      t.fld (rDIS_LINK n) fDIS_LINK_RETRAINS = satN 16 (s.fld (rDIS_LINK n) fDIS_LINK_RETRAINS + 1) ∧
      t.fld (rDIS_LINK n) fDIS_LINK_HPD = s.fld (rDIS_LINK n) fDIS_LINK_HPD ∧ (∀ a, a ≠ rDIS_LINK n → t.rd a = s.rd a) ∧ t.dis = s.dis ∧
      onlyIn (mRegs ||| mGlb) [rDIS_LINK n] [] s t := by
  subst e
  unfold State.linkTrained
  dsimp only
  refine ⟨?_, ?_, ?_, ?_, ?_, fun a ha => ?_, ?_, .addSat (.setFlds (.refl _ _ _ _))⟩
  · simp (disch := decide)
  · simp (disch := decide)
    exact hl
  · simp (disch := decide)
    exact hr
  · simp (disch := decide)
  · simp (disch := decide)
  · rw [State.rd_addSat_other _ _ _ ha, State.rd_setFlds_other _ _ ha]
  · rw [State.addSat_dis, State.setFlds_dis]

/-- A training that fails, or that has no rate to try. -/
theorem linkTrained_failed {s : State} {n : Nat} (hn : n < 2) {c : Option (Nat × Nat)} {ok : Bool} (h : ok = false ∨ c = none) {t : State}
    (e : s.linkTrained n c ok = t) :
    t.fld (rDIS_LINK n) fDIS_LINK_TRAINED = 0 ∧ t.fld (rDIS_LINK n) fDIS_LINK_LANES = 0 ∧
      t.fld (rDIS_LINK n) fDIS_LINK_LINK_FAIL = satN 16 (s.fld (rDIS_LINK n) fDIS_LINK_LINK_FAIL + 1) ∧ t.disState n = 3 ∧
      onlyIn (mEvent ||| mDis ||| mGlb) [rDIS_LINK n, rDIS_CTRL n] [962 + n] s t := by
  obtain ⟨-, -, r1, r2, hne⟩ := disRegs_range hn
  have e : ((((s.setFlds (rDIS_LINK n) [(fDIS_LINK_TRAINED, 0), (fDIS_LINK_LANES, 0)]).addSat (rDIS_LINK n) fDIS_LINK_LINK_FAIL 1).setDisState n 3).updDis
      n fun d => { d with gap := 0 }).raise (962 + n) (some n) = t := by
    rw [← e]
    unfold State.linkTrained
    obtain rfl | rfl := h
    · cases c with
      | none => rfl
      | some p => rfl
    · rfl
  have k : onlyIn (mEvent ||| mDis ||| mGlb) [rDIS_LINK n, rDIS_CTRL n] [962 + n] s (((s.setFlds (rDIS_LINK n) [(fDIS_LINK_TRAINED, 0),
      (fDIS_LINK_LANES, 0)]).addSat (rDIS_LINK n) fDIS_LINK_LINK_FAIL 1).setDisState n 3) := .setFld (.addSat (.setFlds (.refl _ _ _ _)))
  have f1 : (((s.setFlds (rDIS_LINK n) [(fDIS_LINK_TRAINED, 0), (fDIS_LINK_LANES, 0)]).addSat (rDIS_LINK n) fDIS_LINK_LINK_FAIL 1).setDisState
      n 3).fld (rDIS_LINK n) fDIS_LINK_TRAINED = 0 := by simp (disch := decide) [State.setDisState]
  have f2 : (((s.setFlds (rDIS_LINK n) [(fDIS_LINK_TRAINED, 0), (fDIS_LINK_LANES, 0)]).addSat (rDIS_LINK n) fDIS_LINK_LINK_FAIL 1).setDisState
      n 3).fld (rDIS_LINK n) fDIS_LINK_LANES = 0 := by simp (disch := decide) [State.setDisState]
  have f3 : (((s.setFlds (rDIS_LINK n) [(fDIS_LINK_TRAINED, 0), (fDIS_LINK_LANES, 0)]).addSat (rDIS_LINK n) fDIS_LINK_LINK_FAIL 1).setDisState
      n 3).fld (rDIS_LINK n) fDIS_LINK_LINK_FAIL = satN 16 (s.fld (rDIS_LINK n) fDIS_LINK_LINK_FAIL + 1) := by
    simp (disch := decide) [State.setDisState]
  have f4 : (((s.setFlds (rDIS_LINK n) [(fDIS_LINK_TRAINED, 0), (fDIS_LINK_LANES, 0)]).addSat (rDIS_LINK n) fDIS_LINK_LINK_FAIL 1).setDisState
      n 3).fld (rDIS_CTRL n) fDIS_CTRL_STATE = 3 := by simp (disch := decide) [State.setDisState]
  generalize ((s.setFlds _ _).addSat _ _ _).setDisState n 3 = u at *
  have hf (a : Nat) (f : Fld) (ha : a < 0x10000 ∨ 0x12000 + 8 * (962 + n) < a) : t.fld a f = u.fld a f := by
    rw [← e, State.fld_raise_other _ _ _ _ _ _ _ ha, State.fld_congr (State.updDis_regs _ _ _)]
  refine ⟨(hf _ _ r1).trans f1, (hf _ _ r1).trans f2, (hf _ _ r1).trans f3, (hf _ _ r2).trans f4, ?_⟩
  rw [← e]
  exact .raise (.other k (touches_State.updDis _ _ _) (by decide) (State.updDis_regs _ _ _))

end Sys2Proof

end

section
/-! SUPPORT. Hot plug, the commit's write, a stable pixel clock, AUX and the palette (R486, R488, R489, R496). -/

set_option Elab.async false

namespace Sys2Proof

open Sys2Proof.Machine

/-! ### Hot plug (R486) -/

/-- HPD, the sink and the event of a change. -/
theorem hpd_begun {s : State} {n : Nat} (hn : n < 2) (sink : Option (Nat × Nat)) {u : State}
    (e : (if s.flag (rDIS_LINK n) fDIS_LINK_HPD == sink.isSome then
        (s.setFld (rDIS_LINK n) fDIS_LINK_HPD (b2n sink.isSome)).updDis n fun d => { d with sink := sink }
      else ((s.setFld (rDIS_LINK n) fDIS_LINK_HPD (b2n sink.isSome)).updDis n fun d => { d with sink := sink }).raise (960 + n) (some n)) = u) :
    onlyIn (mEvent ||| mDis ||| mGlb) [rDIS_LINK n, rDIS_CTRL n] [960 + n] s u ∧ u.disU n = { s.disU n with sink := sink } ∧
      u.fld (rDIS_LINK n) fDIS_LINK_HPD = b2n sink.isSome ∧
      (∀ f : Fld, (f.lo + f.w ≤ 12 ∨ 13 ≤ f.lo) → u.fld (rDIS_LINK n) f = s.fld (rDIS_LINK n) f) ∧ u.rd (rDIS_CTRL n) = s.rd (rDIS_CTRL n) ∧
      u.act = s.act := by
  obtain ⟨r1, r2, -, -, hne⟩ := disRegs_range hn
  have k1 : onlyIn (mEvent ||| mDis ||| mGlb) [rDIS_LINK n, rDIS_CTRL n] [960 + n] s (s.setFld (rDIS_LINK n) fDIS_LINK_HPD (b2n sink.isSome)) :=
    .setFld (.refl _ _ _ _)
  have f1 := State.fld_setFld_self s (rDIS_LINK n) fDIS_LINK_HPD (b2n sink.isSome) (by decide)
  have f2 (f : Fld) (hf : f.lo + f.w ≤ 12 ∨ 13 ≤ f.lo) := State.fld_setFld_apart s (rDIS_LINK n) (rDIS_LINK n) fDIS_LINK_HPD f (b2n sink.isSome)
    ⟨by decide, hf⟩
  have f3 := State.rd_setFld_other s fDIS_LINK_HPD (b2n sink.isSome) hne
  have a1 : (s.setFld (rDIS_LINK n) fDIS_LINK_HPD (b2n sink.isSome)).act = s.act := State.setFld_act _ _ _ _
  have d1 : (s.setFld (rDIS_LINK n) fDIS_LINK_HPD (b2n sink.isSome)).dis = s.dis := State.setFld_dis _ _ _ _
  generalize s.setFld (rDIS_LINK n) _ _ = w at *
  have k2 := k1.other (touches_State.updDis w n fun d => { d with sink := sink }) (by decide) (State.updDis_regs _ _ _)
  have d2 := disU_updDis_same w n fun d => { d with sink := sink }
  rw [disU_of_dis d1] at d2
  have r := State.updDis_regs w n fun d => { d with sink := sink }
  have a2 : (w.updDis n fun d => { d with sink := sink }).act = w.act := State.updDis_act _ _ _
  have hb : b2n sink.isSome % 2 ^ fDIS_LINK_HPD.w = b2n sink.isSome := by cases sink <;> rfl
  rw [hb] at f1
  generalize w.updDis n _ = z at *
  have zf (a : Nat) (f : Fld) : z.fld a f = w.fld a f := State.fld_congr r a f
  split at e
  · subst e
    exact ⟨k2, d2, (zf _ _).trans f1, fun f hf => (zf _ _).trans (f2 f hf), (State.rd_congr r _).trans f3, a2.trans a1⟩
  · have t := touches_State.raise z (960 + n) (some n) 0 0
    rw [e] at t
    have uf (f : Fld) : u.fld (rDIS_LINK n) f = z.fld (rDIS_LINK n) f := by
      rw [← e]
      exact State.fld_raise_other _ _ _ _ _ _ _ r1
    refine ⟨?_, (disU_of_dis (t.dis (by decide)) n).trans d2, ?_, fun f hf => ?_, ?_, (t.act (by decide)).trans (a2.trans a1)⟩
    · rw [← e]
      exact .raise k2
    · rw [uf, zf, f1]
    · rw [uf, zf, f2 f hf]
    · rw [← e, State.rd_raise_other _ _ _ _ _ _ r2, State.rd_congr r, f3]

theorem hpd_fall {s t : State} {n : Nat} (hn : n < 2) {ok : Bool} (e : s.hpd n none ok = t) :
    t.flag (rDIS_LINK n) fDIS_LINK_HPD = false ∧ t.flag (rDIS_LINK n) fDIS_LINK_TRAINED = false ∧
      t.fld (rDIS_LINK n) fDIS_LINK_LANES = 0 ∧ t.disState n = (if s.afld (rDIS_CTRL n) fDIS_CTRL_EN = 1 then 3 else 0) ∧
      t.disU n = { s.disU n with sink := none, gap := 0 } ∧ onlyIn (mEvent ||| mDis) [rDIS_LINK n, rDIS_CTRL n] [960 + n] s t := by
  obtain ⟨-, -, -, -, hne⟩ := disRegs_range hn
  unfold State.hpd at e
  dsimp only at e
  obtain ⟨k1, d1, f1, -, -, -⟩ := hpd_begun hn none (rfl : _ = (if s.flag (rDIS_LINK n) fDIS_LINK_HPD == Option.isSome (none : Option (Nat × Nat)) then
        (s.setFld (rDIS_LINK n) fDIS_LINK_HPD (b2n (Option.isSome (none : Option (Nat × Nat))))).updDis n fun d => { d with sink := none }
      else ((s.setFld (rDIS_LINK n) fDIS_LINK_HPD (b2n (Option.isSome (none : Option (Nat × Nat))))).updDis n fun d => { d with sink := none }).raise
        (960 + n) (some n)))
  generalize (if s.flag (rDIS_LINK n) fDIS_LINK_HPD == Option.isSome none then _ else _) = u at *
  have k2 : onlyIn (mEvent ||| mDis ||| mGlb) [rDIS_LINK n, rDIS_CTRL n] [960 + n] s
      (u.setFlds (rDIS_LINK n) [(fDIS_LINK_TRAINED, 0), (fDIS_LINK_LANES, 0)]) := .setFlds k1
  have g1 : (u.setFlds (rDIS_LINK n) [(fDIS_LINK_TRAINED, 0), (fDIS_LINK_LANES, 0)]).fld (rDIS_LINK n) fDIS_LINK_HPD = 0 := by
    simp (disch := decide) [f1, b2n]
  have g2 : (u.setFlds (rDIS_LINK n) [(fDIS_LINK_TRAINED, 0), (fDIS_LINK_LANES, 0)]).fld (rDIS_LINK n) fDIS_LINK_TRAINED = 0 := by simp (disch := decide)
  have g3 : (u.setFlds (rDIS_LINK n) [(fDIS_LINK_TRAINED, 0), (fDIS_LINK_LANES, 0)]).fld (rDIS_LINK n) fDIS_LINK_LANES = 0 := by simp (disch := decide)
  have d2 : (u.setFlds (rDIS_LINK n) [(fDIS_LINK_TRAINED, 0), (fDIS_LINK_LANES, 0)]).dis = u.dis := State.setFlds_dis _ _ _
  generalize u.setFlds (rDIS_LINK n) _ = w at *
  have k3 := k2.other (touches_State.updDis w n fun d => { d with gap := 0 }) (by decide) (State.updDis_regs _ _ _)
  have d3 := disU_updDis_same w n fun d => { d with gap := 0 }
  rw [disU_of_dis d2, d1] at d3
  have r := State.updDis_regs w n fun d => { d with gap := 0 }
  generalize w.updDis n _ = z at *
  unfold State.setDisState at e
  have zf (f : Fld) : t.fld (rDIS_LINK n) f = w.fld (rDIS_LINK n) f := by
    rw [← e, State.fld_setFld_other _ _ _ _ hne.symm, State.fld_congr r]
  refine ⟨(State.flag_false_iff _ _ _).mpr ((zf _).trans g1), (State.flag_false_iff _ _ _).mpr ((zf _).trans g2), (zf _).trans g3, ?_, ?_, ?_⟩
  · rw [← e, State.disState, State.fld_setFld_self _ _ _ _ (by decide)]
    simp only [decide_eq_true_eq]
    split <;> rfl
  · rw [← d3, ← e]
    exact disU_of_dis (State.setFld_dis _ _ _ _) n
  · rw [← e]
    exact .of_hi (.setFld k3) disHi

/-- HPD rises: the link trains, and STATE follows where no new clock is awaited. -/
theorem hpd_rise {s t : State} {n : Nat} (hn : n < 2) {k : Nat × Nat} {ok : Bool} (e : s.hpd n (some k) ok = t) :
    ∃ u, onlyIn (mEvent ||| mDis ||| mGlb) [rDIS_LINK n, rDIS_CTRL n] [960 + n] s u ∧
      u.fld (rDIS_LINK n) fDIS_LINK_HPD = 1 ∧ (∀ f : Fld, (f.lo + f.w ≤ 12 ∨ 13 ≤ f.lo) → u.fld (rDIS_LINK n) f = s.fld (rDIS_LINK n) f) ∧
      u.rd (rDIS_CTRL n) = s.rd (rDIS_CTRL n) ∧
      (if (u.linkTrained n (s.chooseLink n (s.actv (rCLK_PIX n)) k) ok).flag (rDIS_LINK n) fDIS_LINK_TRAINED &&
          (u.linkTrained n (s.chooseLink n (s.actv (rCLK_PIX n)) k) ok).disState n != 2 then
        (u.linkTrained n (s.chooseLink n (s.actv (rCLK_PIX n)) k) ok).setDisState n (if s.afld (rDIS_CTRL n) fDIS_CTRL_EN = 1 then 1 else 0)
      else u.linkTrained n (s.chooseLink n (s.actv (rCLK_PIX n)) k) ok) = t := by
  unfold State.hpd at e
  dsimp only at e
  obtain ⟨k1, -, f1, f2, f3, -⟩ := hpd_begun hn (some k) (rfl : _ = (if s.flag (rDIS_LINK n) fDIS_LINK_HPD == Option.isSome (some k) then
        (s.setFld (rDIS_LINK n) fDIS_LINK_HPD (b2n (Option.isSome (some k)))).updDis n fun d => { d with sink := some k }
      else ((s.setFld (rDIS_LINK n) fDIS_LINK_HPD (b2n (Option.isSome (some k)))).updDis n fun d => { d with sink := some k }).raise
        (960 + n) (some n)))
  generalize (if s.flag (rDIS_LINK n) fDIS_LINK_HPD == Option.isSome (some k) then _ else _) = u at *
  have hc := chooseLink_of (f2 fDIS_LINK_MAX_LANES (.inl (by decide))) (f2 fDIS_LINK_MAX_RATE (.inl (by decide))) (s.actv (rCLK_PIX n)) k
  refine ⟨u, k1, f1, f2, f3, ?_⟩
  rw [hc] at e
  simpa only [decide_eq_true_eq] using e

theorem disHpd_trained {n : Fin 2} {k : Nat × Nat} {s : State} {l r : Nat} (hg : s.glb ≠ 0) (hc : s.chooseLink n (s.actv (rCLK_PIX n)) k = some (l, r)) :
      completes (.disHpd n (some k) true) s fun t => t.flag (rDIS_LINK n) fDIS_LINK_HPD = true ∧ t.flag (rDIS_LINK n) fDIS_LINK_TRAINED = true ∧
        t.fld (rDIS_LINK n) fDIS_LINK_LANES = l ∧ t.fld (rDIS_LINK n) fDIS_LINK_RATE = r ∧
        t.fld (rDIS_LINK n) fDIS_LINK_RETRAINS = satN 16 (s.fld (rDIS_LINK n) fDIS_LINK_RETRAINS + 1) ∧
        (s.disState n ≠ 2 → t.disState n = s.afld (rDIS_CTRL n) fDIS_CTRL_EN) ∧ (s.disState n = 2 → t.disState n = 2) ∧
        onlyIn (mEvent ||| mDis) [rDIS_LINK n, rDIS_CTRL n] [960 + n] s t := by
  obtain ⟨-, -, -, -, hne⟩ := disRegs_range n.isLt
  obtain ⟨hl, hr⟩ := chooseLink_lt hc
  obtain ⟨u, k1, f1, f2, f3, e⟩ := hpd_rise n.isLt (rfl : s.hpd n (some k) true = _)
  refine ⟨_, next_live hg rfl, ?_⟩
  generalize s.hpd n (some k) true = t at *
  rw [hc] at e
  obtain ⟨g1, g2, g3, g4, g5, g6, -, g8⟩ := linkTrained_ok hl hr (rfl : u.linkTrained n (some (l, r)) true = _)
  generalize u.linkTrained n (some (l, r)) true = w at *
  have ws : w.disState n = s.disState n := (fld_of_rd (g6 _ hne)).trans (fld_of_rd f3)
  have k2 : onlyIn (mEvent ||| mDis ||| mGlb) [rDIS_LINK n.val, rDIS_CTRL n] [960 + n.val] s w :=
    k1.trans (g8.mono (by decide) (by simp) (List.nil_subset _))
  have hen : (if s.afld (rDIS_CTRL n) fDIS_CTRL_EN = 1 then 1 else 0) = s.afld (rDIS_CTRL n) fDIS_CTRL_EN := by
    have h := fget_lt (s.actv (rDIS_CTRL n)) fDIS_CTRL_EN
    change s.afld (rDIS_CTRL n) fDIS_CTRL_EN < 2 at h
    split <;> omega
  rw [(State.flag_iff _ _ _).mpr (by rw [g1]; decide), ws, Bool.true_and, hen] at e
  have tl (f : Fld) : t.fld (rDIS_LINK n) f = w.fld (rDIS_LINK n) f := by
    rw [← e]
    split
    · exact State.fld_setFld_other _ _ _ _ hne.symm
    · rfl
  refine ⟨(State.flag_iff _ _ _).mpr ?_, (State.flag_iff _ _ _).mpr ?_, (tl _).trans g2, (tl _).trans g3, ?_, fun h => ?_, fun h => ?_, ?_⟩
  · rw [tl, g5, f1]
    decide
  · rw [tl, g1]
    decide
  · rw [tl, g4, f2 _ (.inr (by decide))]
  · rw [← e, if_pos (by simpa using h), State.disState, State.setDisState, State.fld_setFld_self _ _ _ _ (by decide)]
    have h := fget_lt (s.actv (rDIS_CTRL n)) fDIS_CTRL_EN
    change s.afld (rDIS_CTRL n) fDIS_CTRL_EN < 2 at h
    exact Nat.mod_eq_of_lt (Nat.lt_trans h (by decide))
  · rw [← e, if_neg (by simp [h]), ws, h]
  · rw [← e]
    exact .of_hi (.ite (.setFld k2) k2) disHi

theorem disHpd_failed {n : Fin 2} {k : Nat × Nat} {ok : Bool} {s : State} (hg : s.glb ≠ 0)
    (h : ok = false ∨ s.chooseLink n (s.actv (rCLK_PIX n)) k = none) :
      completes (.disHpd n (some k) ok) s fun t => t.flag (rDIS_LINK n) fDIS_LINK_TRAINED = false ∧ t.fld (rDIS_LINK n) fDIS_LINK_LANES = 0 ∧
        t.fld (rDIS_LINK n) fDIS_LINK_LINK_FAIL = satN 16 (s.fld (rDIS_LINK n) fDIS_LINK_LINK_FAIL + 1) ∧ t.disState n = 3 ∧
        onlyIn (mEvent ||| mDis) [rDIS_LINK n, rDIS_CTRL n] [960 + n, 962 + n] s t := by
  obtain ⟨u, k1, f1, f2, f3, e⟩ := hpd_rise n.isLt (rfl : s.hpd n (some k) ok = _)
  refine ⟨_, next_live hg rfl, ?_⟩
  generalize s.hpd n (some k) ok = t at *
  obtain ⟨g1, g2, g3, g4, g5⟩ := linkTrained_failed n.isLt h (rfl : u.linkTrained n (s.chooseLink n (s.actv (rCLK_PIX n)) k) ok = _)
  generalize u.linkTrained n (s.chooseLink n (s.actv (rCLK_PIX n)) k) ok = w at *
  have g0 : w.flag (rDIS_LINK n) fDIS_LINK_TRAINED = false := (State.flag_false_iff _ _ _).mpr g1
  rw [g0, Bool.false_and, if_neg (by decide)] at e
  subst e
  refine ⟨g0, g2, g3.trans ?_, g4, .of_hi ((k1.mono (by decide) (fun _ h => h) (List.cons_subset_cons _ (List.nil_subset _))).trans
    (g5.mono (by decide) (fun _ h => h) (List.subset_cons_self _ _))) disHi⟩
  rw [f2 _ (.inr (by decide))]

/-! ### The commit is asked for, and a pixel clock that is stable (R488, R489) -/

theorem disCtrl_codes : ∀ n : Fin 2, rwField (rDIS_CTRL n) fDIS_CTRL_EN = true ∧ rwField (rDIS_CTRL n) fDIS_CTRL_BG = true ∧
    w1sField (rDIS_CTRL n) fDIS_CTRL_COMMIT = true ∧ roField (rDIS_CTRL n) fDIS_CTRL_STATE = true := by decide

theorem disCommit_asked {n : Fin 2} {v : Word} {s : State} (hr : s.ready = true) :
    completes (.disCommit n v) s fun t => t.flag (rDIS_CTRL n) fDIS_CTRL_COMMIT = true ∧ t.fld (rDIS_CTRL n) fDIS_CTRL_RESULT = 1 ∧
      t.fld (rDIS_CTRL n) fDIS_CTRL_EN = fget v fDIS_CTRL_EN ∧ t.fld (rDIS_CTRL n) fDIS_CTRL_BG = fget v fDIS_CTRL_BG ∧
      t.disState n = s.disState n ∧ onlyIn (mRegs ||| mStaged) [rDIS_CTRL n] [] s t := by
  obtain ⟨c1, c2, c3, c4⟩ := disCtrl_codes n
  have hv : fget (fset v fDIS_CTRL_COMMIT 1) fDIS_CTRL_COMMIT = 1 := fget_fset_self _ _ _ (by decide)
  have e : exec (.disCommit n v) s = .next (((s.dropStaged .host (rDIS_CTRL n)).wrCodes (rDIS_CTRL n) (fset v fDIS_CTRL_COMMIT 1) []).setFld
      (rDIS_CTRL n) fDIS_CTRL_RESULT 1) := next_hostWr hr (if_pos hv)
  have k1 : onlyIn (mRegs ||| mStaged ||| mGlb) [rDIS_CTRL n.val] [] s (s.dropStaged .host (rDIS_CTRL n)) := .dropStaged (.refl _ _ _ _)
  have hd := dropStaged_rd s .host (rDIS_CTRL n)
  generalize s.dropStaged .host (rDIS_CTRL n) = u at *
  have f1 := State.fld_wrCodes_w1s u c3 (fset v fDIS_CTRL_COMMIT 1) [] hv
  have f2 := State.fld_wrCodes_rw u c1 (fset v fDIS_CTRL_COMMIT 1) []
  have f3 := State.fld_wrCodes_rw u c2 (fset v fDIS_CTRL_COMMIT 1) []
  have f4 := State.fld_wrCodes_ro u c4 (fset v fDIS_CTRL_COMMIT 1) []
  have k2 : onlyIn (mRegs ||| mStaged ||| mGlb) [rDIS_CTRL n.val] [] s (u.wrCodes (rDIS_CTRL n) (fset v fDIS_CTRL_COMMIT 1) []) := .wrCodes k1
  generalize u.wrCodes (rDIS_CTRL n) (fset v fDIS_CTRL_COMMIT 1) [] = w at *
  refine ⟨_, e, (State.flag_iff _ _ _).mpr ?_, State.fld_setFld_self _ _ _ _ (by decide), ?_, ?_, ?_, .of_hi (.setFld k2) ?_⟩
  · rw [State.fld_setFld_apart _ _ _ _ _ _ (by decide), f1]
    decide
  · rw [State.fld_setFld_apart _ _ _ _ _ _ (by decide), f2, fget_fset_apart _ _ _ _ (by decide)]
  · rw [State.fld_setFld_apart _ _ _ _ _ _ (by decide), f3, fget_fset_apart _ _ _ _ (by decide)]
  · rw [State.disState, State.fld_setFld_apart _ _ _ _ _ _ (by decide), f4, fld_of_rd (hd _), State.disState]
  · simp only [List.mem_cons, List.not_mem_nil, or_false, rDIS_CTRL]
    omega

theorem pixStable_links {n : Fin 2} {s : State} {l r : Nat} (hg : s.glb ≠ 0) (h1 : (s.disU n).gap = 1) (h2 : (s.disU n).link = some (l, r)) (hl : l < 4)
    (hr : r < 4) : completes (.disClockStable n true) s fun t => t.disU n = { s.disU n with gap := 2, link := none } ∧
        t.flag (rDIS_LINK n) fDIS_LINK_TRAINED = true ∧ t.fld (rDIS_LINK n) fDIS_LINK_LANES = l ∧ t.fld (rDIS_LINK n) fDIS_LINK_RATE = r ∧
        onlyIn (mRegs ||| mDis) [rDIS_LINK n] [] s t := by
  have e : exec (.disClockStable n true) s = .next ((s.updDis n fun d => { d with gap := 2, link := none }).linkTrained n (some (l, r)) true) := by
    refine next_live hg ((if_pos h1).trans ?_)
    rw [h2]
    rfl
  have k1 : onlyIn (mRegs ||| mDis ||| mGlb) [rDIS_LINK n.val] [] s (s.updDis n fun d => { d with gap := 2, link := none }) :=
    .other (.refl _ _ _ _) (touches_State.updDis _ _ _) (by decide) (State.updDis_regs _ _ _)
  have d1 := disU_updDis_same s n fun d => { d with gap := 2, link := none }
  generalize s.updDis n _ = u at *
  obtain ⟨g1, g2, g3, -, -, -, g7, g8⟩ := linkTrained_ok hl hr (rfl : u.linkTrained n (some (l, r)) true = _)
  refine ⟨_, e, (disU_of_dis g7 n).trans d1, (State.flag_iff _ _ _).mpr (by rw [g1]; decide), g2, g3, .of_hi (k1.trans (g8.mono (by decide)
    (fun _ h => h) (fun _ h => h))) ?_⟩
  simp only [List.mem_cons, List.not_mem_nil, or_false, rDIS_LINK]
  omega

end Sys2Proof

end

section
/-! SUPPORT. AUX requests and the palette (R486, R496). -/

set_option Elab.async false

namespace Sys2Proof.Machine

theorem leNat_lt (l : List Byte) : leNat l < 256 ^ l.length := by
  induction l with
  | nil => decide
  | cons b l ih =>
    have := b.isLt
    rw [leNat, List.length_cons, Nat.pow_succ]
    omega

theorem leBytes_leNat (l : List Byte) : leBytes l.length (leNat l) = l := by
  induction l with
  | nil => rfl
  | cons b l ih =>
    have hb := b.isLt
    rw [List.length_cons, leBytes, leNat, show (b.toNat + 256 * leNat l) / 256 = leNat l by omega, ih]
    congr 1
    exact BitVec.eq_of_toNat_eq (by rw [BitVec.toNat_ofNat]; omega)

/-- Eight bytes held in a word. -/
theorem leBytes_word {l : List Byte} (h : l.length = 8) : leBytes 8 (BitVec.ofNat 64 (leNat l)).toNat = l := by
  have hlt := leNat_lt l
  rw [h] at hlt
  rw [BitVec.toNat_ofNat, Nat.mod_eq_of_lt (Nat.lt_of_lt_of_eq hlt (by decide)), ← h, leBytes_leNat]

end Sys2Proof.Machine

namespace Sys2Proof

open Sys2Proof.Machine

/-! ### AUX (R486) -/

theorem auxCodes : ∀ n : Fin 2, rwField (rDIS_AUX n) fDIS_AUX_LEN = true := by decide

section

variable {n : Fin 2} {v w : Word} {buf : List Byte} {s : State}

/-- The request leaves; `u` is the device with the reply still to come. -/
theorem disAuxGo_sent (hr : s.ready = true) (hw : fset v fDIS_AUX_GO 1 = w)
    (hb : leBytes 8 (s.rd (rDIS_AUX_DATA n 0)).toNat ++ leBytes 8 (s.rd (rDIS_AUX_DATA n 1)).toNat = buf) : ∃ u : State,
    u.outs = s.outs ++ [.aux n w (if fget v fDIS_AUX_CMD % 2 = 1 then [] else buf.take (fget v fDIS_AUX_LEN + 1))] ∧
    onlyIn (mRegs ||| mStaged ||| mOuts ||| mGlb) [rDIS_AUX n] [] s u ∧ ∀ reply t,
      (match reply with
    | .ack bs =>
      let got := bs.take (fget v fDIS_AUX_LEN + 1)
      let all := if fget v fDIS_AUX_CMD % 2 = 1 then got ++ buf.drop got.length else buf
      ((u.wr (rDIS_AUX_DATA n 0) (BitVec.ofNat 64 (leNat (all.take 8)))).wr (rDIS_AUX_DATA n 1)
        (BitVec.ofNat 64 (leNat ((all.drop 8).take 8)))).setFld (rDIS_AUX n) fDIS_AUX_RESULT 2
    | .nack => u.setFld (rDIS_AUX n) fDIS_AUX_RESULT 3
    | .defer => u.setFld (rDIS_AUX n) fDIS_AUX_RESULT 4
    | .timeout => u.setFld (rDIS_AUX n) fDIS_AUX_RESULT 5) = t → exec (.disAuxGo n v reply) s = .next t := by
  have hgo : fget w fDIS_AUX_GO = 1 := by rw [← hw]; exact fget_fset_self _ _ _ (by decide)
  have hcmd : fget w fDIS_AUX_CMD = fget v fDIS_AUX_CMD := by rw [← hw]; exact fget_fset_apart _ _ _ _ (by decide)
  have hlen : fget w fDIS_AUX_LEN = fget v fDIS_AUX_LEN := by rw [← hw]; exact fget_fset_apart _ _ _ _ (by decide)
  have run (reply : AuxReply) (t : State) (e : (s.dropStaged .host (rDIS_AUX n)).wrDisAux n w reply = t) : exec (.disAuxGo n v reply) s = .next t :=
    next_hostWr hr (by
      rw [hw]
      exact e)
  have k1 : onlyIn (mRegs ||| mStaged ||| mOuts ||| mGlb) [rDIS_AUX n.val] [] s (s.dropStaged .host (rDIS_AUX n)) := .dropStaged (.refl _ _ _ _)
  have o1 : (s.dropStaged .host (rDIS_AUX n)).outs = s.outs := (touches_State.dropStaged _ _ _).outs (by decide)
  have hd := dropStaged_rd s .host (rDIS_AUX n)
  generalize s.dropStaged .host (rDIS_AUX n) = a at *
  unfold State.wrDisAux at run
  dsimp only at run
  have k2 : onlyIn (mRegs ||| mStaged ||| mOuts ||| mGlb) [rDIS_AUX n.val] [] s (a.wrCodes (rDIS_AUX n) w [fDIS_AUX_GO]) := .wrCodes k1
  have o2 : (a.wrCodes (rDIS_AUX n) w [fDIS_AUX_GO]).outs = a.outs := (touches_State.wrCodes _ _ _ _).outs (by decide)
  have r0 : (a.wrCodes (rDIS_AUX n) w [fDIS_AUX_GO]).rd (rDIS_AUX_DATA n 0) = s.rd (rDIS_AUX_DATA n 0) :=
    (State.rd_wrCodes_other _ _ _ (by simp only [rDIS_AUX, rDIS_AUX_DATA]; omega)).trans (hd _)
  have r1 : (a.wrCodes (rDIS_AUX n) w [fDIS_AUX_GO]).rd (rDIS_AUX_DATA n 1) = s.rd (rDIS_AUX_DATA n 1) :=
    (State.rd_wrCodes_other _ _ _ (by simp only [rDIS_AUX, rDIS_AUX_DATA]; omega)).trans (hd _)
  generalize a.wrCodes (rDIS_AUX n) w [fDIS_AUX_GO] = b at *
  rw [hgo, hcmd, hlen, r0, r1, hb] at run
  refine ⟨b.send (.aux n w (if fget v fDIS_AUX_CMD % 2 = 1 then [] else buf.take (fget v fDIS_AUX_LEN + 1))), ?_, ?_, fun reply t e => run reply t
    ((if_neg (by decide)).trans ?_)⟩
  · rw [State.send, o2, o1]
  · exact .other k2 (touches_State.send _ _) (by decide) (State.send_regs _ _)
  · refine Eq.trans ?_ e
    cases reply <;> rfl

/-- The request ends without an acknowledgement. -/
theorem disAuxGo_ends (hr : s.ready = true) (hw : fset v fDIS_AUX_GO 1 = w)
    (hb : leBytes 8 (s.rd (rDIS_AUX_DATA n 0)).toNat ++ leBytes 8 (s.rd (rDIS_AUX_DATA n 1)).toNat = buf) :
    ∀ e ∈ [(AuxReply.nack, 3), (.defer, 4), (.timeout, 5)],
      completes (.disAuxGo n v e.1) s fun t => t.fld (rDIS_AUX n) fDIS_AUX_RESULT = e.2 ∧
        t.outs = s.outs ++ [.aux n w (if fget v fDIS_AUX_CMD % 2 = 1 then [] else buf.take (fget v fDIS_AUX_LEN + 1))] ∧
        onlyIn (mRegs ||| mStaged ||| mOuts) [rDIS_AUX n] [] s t := by
  obtain ⟨u, o, k, run⟩ := disAuxGo_sent hr hw hb
  have ends (r : Nat) (h : r % 2 ^ fDIS_AUX_RESULT.w = r) : (u.setFld (rDIS_AUX n) fDIS_AUX_RESULT r).fld (rDIS_AUX n) fDIS_AUX_RESULT = r ∧
      (u.setFld (rDIS_AUX n) fDIS_AUX_RESULT r).outs = s.outs ++ [.aux n w (if fget v fDIS_AUX_CMD % 2 = 1 then [] else
        buf.take (fget v fDIS_AUX_LEN + 1))] ∧
      onlyIn (mRegs ||| mStaged ||| mOuts) [rDIS_AUX n.val] [] s (u.setFld (rDIS_AUX n) fDIS_AUX_RESULT r) :=
    ⟨(State.fld_setFld_self _ _ _ _ (by decide)).trans h, (State.setFld_outs _ _ _ _).trans o, .of_hi (.setFld k) (by
      simp only [List.mem_cons, List.not_mem_nil, or_false, rDIS_AUX]
      omega)⟩
  simp only [List.forall_mem_cons, List.not_mem_nil, false_implies, implies_true, and_true]
  exact ⟨⟨_, run _ _ rfl, ends 3 rfl⟩, ⟨_, run _ _ rfl, ends 4 rfl⟩, ⟨_, run _ _ rfl, ends 5 rfl⟩⟩

/-- A read that is acknowledged. -/
theorem disAuxGo_reads (hr : s.ready = true) (hw : fset v fDIS_AUX_GO 1 = w)
    (hb : leBytes 8 (s.rd (rDIS_AUX_DATA n 0)).toNat ++ leBytes 8 (s.rd (rDIS_AUX_DATA n 1)).toNat = buf) {bs : List Byte}
    (hc : fget v fDIS_AUX_CMD % 2 = 1) (hl : bs.length = fget v fDIS_AUX_LEN + 1) :
      completes (.disAuxGo n v (.ack bs)) s fun t => t.fld (rDIS_AUX n) fDIS_AUX_RESULT = 2 ∧ t.outs = s.outs ++ [.aux n w []] ∧
        leBytes 8 (t.rd (rDIS_AUX_DATA n 0)).toNat ++ leBytes 8 (t.rd (rDIS_AUX_DATA n 1)).toNat = bs ++ buf.drop bs.length ∧
        onlyIn (mRegs ||| mStaged ||| mOuts) [rDIS_AUX n, rDIS_AUX_DATA n 0, rDIS_AUX_DATA n 1] [] s t := by
  obtain ⟨u, o, k, run⟩ := disAuxGo_sent hr hw hb
  have hlen : (bs ++ buf.drop bs.length).length = 16 := by
    have h16 := fget_lt v fDIS_AUX_LEN
    change fget v fDIS_AUX_LEN < 16 at h16
    rw [List.length_append, List.length_drop, ← hb, List.length_append, leBytes_length, leBytes_length]
    omega
  have e := run (.ack bs) _ rfl
  dsimp only at e
  rw [if_pos hc, List.take_of_length_le (Nat.le_of_eq hl)] at e
  rw [if_pos hc] at o
  generalize bs ++ buf.drop bs.length = all at *
  have ne1 : rDIS_AUX_DATA n 0 ≠ rDIS_AUX n := by simp only [rDIS_AUX, rDIS_AUX_DATA]; omega
  have ne2 : rDIS_AUX_DATA n 1 ≠ rDIS_AUX n := by simp only [rDIS_AUX, rDIS_AUX_DATA]; omega
  have ne3 : rDIS_AUX_DATA n 0 ≠ rDIS_AUX_DATA n 1 := by simp only [rDIS_AUX_DATA]; omega
  have k0 : onlyIn (mRegs ||| mStaged ||| mOuts ||| mGlb) [rDIS_AUX n.val, rDIS_AUX_DATA n 0, rDIS_AUX_DATA n 1] [] s u :=
    k.mono (by decide) (List.cons_subset_cons _ (List.nil_subset _)) (List.Subset.refl _)
  refine ⟨_, e, State.fld_setFld_self _ _ _ _ (by decide), ?_, ?_, .of_hi (.setFld (.wr (.wr k0))) ?_⟩
  · rw [State.setFld_outs, State.wr_outs, State.wr_outs, o]
  · rw [State.rd_setFld_other _ _ _ ne1, State.rd_setFld_other _ _ _ ne2, State.rd_wr_other _ _ ne3, State.rd_wr_same, State.rd_wr_same,
      leBytes_word (by rw [List.length_take]; omega), leBytes_word (by rw [List.length_take, List.length_drop]; omega),
      List.take_of_length_le (l := all.drop 8) (by rw [List.length_drop]; omega), List.take_append_drop]
  · simp only [List.mem_cons, List.not_mem_nil, or_false, rDIS_AUX, rDIS_AUX_DATA]
    omega

end

/-! ### The palette (R496) -/

theorem disPalWrite_clauses (n b : Fin 2) (i : Fin 1024) (v : Word) (s : State) (hr : s.ready = true) :
    (s.afld (rDIS_LAYER n) fDIS_LAYER_PAL_SEL = b →
      exec (.disPalWrite n b i v) s = .next ((s.dropStaged .host (rDIS_PAL n b i)).addSat (rDIS_STAT n) fDIS_STAT_PAL_DISC 1)) ∧
    (s.afld (rDIS_LAYER n) fDIS_LAYER_PAL_SEL ≠ b →
      exec (.disPalWrite n b i v) s = .next ((s.dropStaged .host (rDIS_PAL n b i)).wrCodes (rDIS_PAL n b i) v [])) :=
  ⟨fun h => next_hostWr hr (if_pos h), fun h => next_hostWr hr (if_neg h)⟩

end Sys2Proof

end

section
/-! SUPPORT. A frame of a display begins (R488, R489, R494). -/

set_option Elab.async false

namespace Sys2Proof

open Sys2Proof.Machine

/-! ### Layers at a frame start -/

theorem layerHold_none {s : State} {n l : Nat} (h : s.layerCtx n l = none) : s.layerHold n l = s := by
  unfold State.layerHold
  rw [h]

/-- The frames that a swap has ended are let go. -/
def layersAged (s : State) (n : Nat) : State := (s.layerOld n 0).layerOld n 1

theorem layersAged_regs (s : State) (n : Nat) : (layersAged s n).regs = s.regs := by
  unfold layersAged State.layerOld
  rw [State.updLayer_regs, State.updLayer_regs]

theorem touches_layersAged (s : State) (n : Nat) : Touches mLayers s (layersAged s n) :=
  (touches_State.layerOld s n 0).trans (touches_State.layerOld _ n 1)

theorem layersAged_layerU (s : State) (n l : Nat) (hl : l < 2) : (layersAged s n).layerU n l = { s.layerU n l with old := none } := by
  unfold layersAged State.layerOld
  obtain rfl | rfl : l = 0 ∨ l = 1 := by omega
  · rw [layerU_updLayer_other _ _ (by omega), layerU_updLayer_same]
  · rw [layerU_updLayer_same, layerU_updLayer_other _ _ (by omega)]

/-- What the gap brings at a frame start. -/
def gapGoesOn (s : State) (n : Nat) : State :=
  if (s.disU n).gap = 2 then s.updDis n fun d => { d with gap := 3 }
  else if (s.disU n).gap = 3 then (s.updDis n fun d => { d with gap := 0 }).setDisState n 1 else s

/-- The commit that is pending takes place. -/
def commitDue (s : State) (n : Nat) : State := if s.flag (rDIS_CTRL n) fDIS_CTRL_COMMIT then s.disCommit n else s

/-- Enabled layers latch. -/
def layersLatched (s : State) (n : Nat) : State :=
  if (s.disU n).gap != 0 then s
  else
    let s5 := if fget (s.actv (rDIS_CTRL n)) fDIS_CTRL_DEN_EN = 1 then s.layerLatch n 0 else s
    if fget (s.actv (rDIS_CTRL n)) fDIS_CTRL_OVL_EN = 1 then s5.layerLatch n 1 else s5

theorem frameStart_eq {s u v w t : State} {n : Nat} (hgap : (s.disU n).gap ≠ 1) (h0 : s.layerCtx n 0 = none) (h1 : s.layerCtx n 1 = none)
    (e1 : gapGoesOn s n = u) (e2 : layersAged u n = v) (e3 : commitDue v n = w) (e4 : layersLatched w n = t) (hc : t.ctxs = s.ctxs) :
    s.frameStart n = t := by
  have h : s.frameStart n = ((layersLatched (commitDue (layersAged (gapGoesOn s n) n) n) n).layerHold n 0).layerHold n 1 := if_neg hgap
  have hc0 : t.layerHold n 0 = t := layerHold_none (by rw [layerCtx_of_ctxs hc, h0])
  have hc1 : t.layerHold n 1 = t := layerHold_none (by rw [layerCtx_of_ctxs hc, h1])
  rw [h, e1, e2, e3, e4, hc0, hc1]

theorem layersLatched_off {s : State} {n : Nat} (h : s.afld (rDIS_CTRL n) fDIS_CTRL_DEN_EN = 0) (k : s.afld (rDIS_CTRL n) fDIS_CTRL_OVL_EN = 0) :
    layersLatched s n = s := by
  unfold layersLatched
  rw [show fget (s.actv (rDIS_CTRL n)) fDIS_CTRL_DEN_EN = 0 from h, show fget (s.actv (rDIS_CTRL n)) fDIS_CTRL_OVL_EN = 0 from k]
  exact ite_self s

theorem afld_of_act {s t : State} (h : t.act = s.act) (a : Nat) (f : Fld) : t.afld a f = s.afld a f :=
  congrArg (fun m => fget (SMap.get (resetWord a) m a) f) h

theorem actv_of_act {s t : State} (h : t.act = s.act) (a : Nat) : t.actv a = s.actv a := congrArg (fun m => SMap.get (resetWord a) m a) h

section

variable {n : Fin 2} {s : State}

theorem disFrameStart_runs {t : State} (hg : s.glb ≠ 0) (e : s.frameStart n = t) : exec (.disFrameStart n) s = .next t := next_live hg e

theorem frameStart_clock (hg : s.glb ≠ 0) (h : (s.disU n).gap = 1) : exec (.disFrameStart n) s = .next s := disFrameStart_runs hg (if_pos h)

/-- The black frame begins. -/
theorem frameStart_black (hg : s.glb ≠ 0) (h0 : s.layerCtx n 0 = none) (h1 : s.layerCtx n 1 = none) (h : (s.disU n).gap = 2)
    (hc : s.flag (rDIS_CTRL n) fDIS_CTRL_COMMIT = false) :
      completes (.disFrameStart n) s fun t => t.disU n = { s.disU n with gap := 3 } ∧ t.disState n = s.disState n ∧
        onlyIn (mRegs ||| mDis ||| mLayers) [] [] s t := by
  have e1 : gapGoesOn s n = s.updDis n fun d => { d with gap := 3 } := if_pos h
  have r1 := State.updDis_regs s n fun d => { d with gap := 3 }
  have d1 := disU_updDis_same s n fun d => { d with gap := 3 }
  have t1 := touches_State.updDis s n fun d => { d with gap := 3 }
  generalize s.updDis n _ = u at *
  have t2 := touches_layersAged u n
  have r2 := (layersAged_regs u n).trans r1
  generalize hv : layersAged u n = v at *
  have dv : v.disU n = { s.disU n with gap := 3 } := (disU_of_dis (t2.dis (by decide)) n).trans d1
  have e3 : commitDue v n = v := if_neg (by rw [flag_of_rd (State.rd_congr r2 _), hc]; decide)
  have e4 : layersLatched v n = v := if_pos (by rw [dv]; rfl)
  refine ⟨v, disFrameStart_runs hg (frameStart_eq (by omega) h0 h1 e1 hv e3 e4 ((t2.ctxs (by decide)).trans (t1.ctxs (by decide)))), dv,
    State.fld_congr r2 _ _, ?_⟩
  exact .other (.refl _ _ _ _) ((t1.mono (m' := mDis ||| mLayers) (by decide)).trans (t2.mono (by decide))) (by decide) r2

/-- The gap ends. -/
theorem frameStart_active (hg : s.glb ≠ 0) (h0 : s.layerCtx n 0 = none) (h1 : s.layerCtx n 1 = none) (h : (s.disU n).gap = 3)
    (hc : s.flag (rDIS_CTRL n) fDIS_CTRL_COMMIT = false) (hd : s.afld (rDIS_CTRL n) fDIS_CTRL_DEN_EN = 0)
    (ho : s.afld (rDIS_CTRL n) fDIS_CTRL_OVL_EN = 0) :
      completes (.disFrameStart n) s fun t => t.disU n = { s.disU n with gap := 0 } ∧ t.disState n = 1 ∧
        onlyIn (mRegs ||| mDis ||| mLayers) [rDIS_CTRL n] [] s t := by
  have e1 : gapGoesOn s n = (s.updDis n fun d => { d with gap := 0 }).setDisState n 1 := (if_neg (by omega)).trans (if_pos h)
  have r1 := State.updDis_regs s n fun d => { d with gap := 0 }
  have d1 := disU_updDis_same s n fun d => { d with gap := 0 }
  have t1 := touches_State.updDis s n fun d => { d with gap := 0 }
  generalize s.updDis n _ = a at *
  unfold State.setDisState at e1
  have f1 := State.fld_setFld_self a (rDIS_CTRL n) fDIS_CTRL_STATE 1 (by decide)
  have f2 := State.fld_setFld_apart a (rDIS_CTRL n) (rDIS_CTRL n) fDIS_CTRL_STATE fDIS_CTRL_COMMIT 1 (by decide)
  have d2 := disU_of_dis (State.setFld_dis a (rDIS_CTRL n) fDIS_CTRL_STATE 1) n
  have c2 := State.setFld_ctxs a (rDIS_CTRL n) fDIS_CTRL_STATE 1
  have a2 := State.setFld_act a (rDIS_CTRL n) fDIS_CTRL_STATE 1
  have k2 : onlyIn (mRegs ||| mDis ||| mLayers ||| mGlb) [rDIS_CTRL n.val] [] s (a.setFld (rDIS_CTRL n) fDIS_CTRL_STATE 1) :=
    .setFld (.other (.refl _ _ _ _) t1 (by decide) r1)
  generalize a.setFld (rDIS_CTRL n) fDIS_CTRL_STATE 1 = u at *
  have t2 := touches_layersAged u n
  have r2 := layersAged_regs u n
  generalize hv : layersAged u n = v at *
  have dv : v.disU n = { s.disU n with gap := 0 } := (disU_of_dis (t2.dis (by decide)) n).trans (d2.trans d1)
  have hact : v.act = s.act := (t2.act (by decide)).trans (a2.trans (t1.act (by decide)))
  have e3 : commitDue v n = v := if_neg (by
    rw [flag_of_rd (State.rd_congr r2 _), State.flag, f2, State.fld_congr r1, ← State.flag, hc]
    decide)
  have e4 : layersLatched v n = v := layersLatched_off (by rw [afld_of_act hact, hd]) (by rw [afld_of_act hact, ho])
  refine ⟨v, disFrameStart_runs hg (frameStart_eq (by omega) h0 h1 e1 hv e3 e4 ((t2.ctxs (by decide)).trans (c2.trans (t1.ctxs (by decide))))), dv,
    (State.fld_congr r2 _ _).trans f1, .of_hi (.other k2 t2 (by decide) r2) ?_⟩
  simp only [List.mem_cons, List.not_mem_nil, or_false, rDIS_CTRL]
  omega

/-! ### A frame start with no gap -/

/-- The check of a commit rests on registers and on the sink. -/
theorem disCheck_of {s t : State} (h : t.regs = s.regs) (k : t.dis = s.dis) (n : Nat) : t.disCheck n = s.disCheck n := by
  have hc (p : Word) (x : Nat × Nat) : t.chooseLink n p x = s.chooseLink n p x := chooseLink_of (State.fld_congr h _ _) (State.fld_congr h _ _) p x
  unfold State.disCheck
  simp only [State.rd_congr h, State.flag, State.fld_congr h, disU_of_dis k, hc]

theorem disCheck_le (s : State) (n : Nat) : s.disCheck n < 5 := by
  unfold State.disCheck
  dsimp only
  split
  · decide
  · split
    · decide
    · split
      · decide
      · split <;> decide

theorem gap_zero (h : (s.disU n).gap = 0) : gapGoesOn s n = s := (if_neg (by omega)).trans (if_neg (by omega))

/-- A commit that fails leaves everything in force. -/
theorem frameStart_rejects (hg : s.glb ≠ 0) (h0 : s.layerCtx n 0 = none) (h1 : s.layerCtx n 1 = none) (h : (s.disU n).gap = 0)
    (hc : s.flag (rDIS_CTRL n) fDIS_CTRL_COMMIT = true) (hk : s.disCheck n ≠ 0) (hd : s.afld (rDIS_CTRL n) fDIS_CTRL_DEN_EN = 0)
    (ho : s.afld (rDIS_CTRL n) fDIS_CTRL_OVL_EN = 0) :
      completes (.disFrameStart n) s fun t => t.flag (rDIS_CTRL n) fDIS_CTRL_COMMIT = false ∧ t.fld (rDIS_CTRL n) fDIS_CTRL_RESULT = 3 ∧
        t.fld (rDIS_CTRL n) fDIS_CTRL_REASON = s.disCheck n ∧ t.disState n = s.disState n ∧
        onlyIn (mEvent ||| mLayers) [rDIS_CTRL n] [968 + n] s t := by
  have hlt := disCheck_le s n
  have t2 := touches_layersAged s n
  have r2 := layersAged_regs s n
  generalize hv : layersAged s n = v at *
  have k2 := disCheck_of r2 (t2.dis (by decide)) n
  have e3 : commitDue v n = (v.setFlds (rDIS_CTRL n) [(fDIS_CTRL_COMMIT, 0), (fDIS_CTRL_RESULT, 3), (fDIS_CTRL_REASON, s.disCheck n)]).raise
      (968 + n) (some n) (s.disCheck n) := (if_pos ((flag_of_rd (State.rd_congr r2 _)).trans hc)).trans ((if_pos (by rw [k2]; simpa using hk)).trans
        (by rw [k2]))
  have f1 : (v.setFlds (rDIS_CTRL n) [(fDIS_CTRL_COMMIT, 0), (fDIS_CTRL_RESULT, 3), (fDIS_CTRL_REASON, s.disCheck n)]).fld (rDIS_CTRL n)
      fDIS_CTRL_COMMIT = 0 := by simp (disch := decide)
  have f2 : (v.setFlds (rDIS_CTRL n) [(fDIS_CTRL_COMMIT, 0), (fDIS_CTRL_RESULT, 3), (fDIS_CTRL_REASON, s.disCheck n)]).fld (rDIS_CTRL n)
      fDIS_CTRL_RESULT = 3 := by simp (disch := decide)
  have f3 : (v.setFlds (rDIS_CTRL n) [(fDIS_CTRL_COMMIT, 0), (fDIS_CTRL_RESULT, 3), (fDIS_CTRL_REASON, s.disCheck n)]).fld (rDIS_CTRL n)
      fDIS_CTRL_REASON = s.disCheck n % 2 ^ 4 := by simp (disch := decide)
  have f4 : (v.setFlds (rDIS_CTRL n) [(fDIS_CTRL_COMMIT, 0), (fDIS_CTRL_RESULT, 3), (fDIS_CTRL_REASON, s.disCheck n)]).fld (rDIS_CTRL n)
      fDIS_CTRL_STATE = v.fld (rDIS_CTRL n) fDIS_CTRL_STATE := by simp (disch := decide)
  have k3 : onlyIn (mEvent ||| mLayers ||| mGlb) [rDIS_CTRL n.val] [968 + n.val] s
      (v.setFlds (rDIS_CTRL n) [(fDIS_CTRL_COMMIT, 0), (fDIS_CTRL_RESULT, 3), (fDIS_CTRL_REASON, s.disCheck n)]) :=
    .setFlds (.other (.refl _ _ _ _) t2 (by decide) r2)
  have c3 := State.setFlds_ctxs v (rDIS_CTRL n) [(fDIS_CTRL_COMMIT, 0), (fDIS_CTRL_RESULT, 3), (fDIS_CTRL_REASON, s.disCheck n)]
  have a3 := State.setFlds_act v (rDIS_CTRL n) [(fDIS_CTRL_COMMIT, 0), (fDIS_CTRL_RESULT, 3), (fDIS_CTRL_REASON, s.disCheck n)]
  generalize v.setFlds (rDIS_CTRL n) _ = u at *
  have r : rDIS_CTRL n < 0x10000 ∨ 0x12000 + 8 * (968 + n.val) < rDIS_CTRL n := by simp only [rDIS_CTRL]; omega
  have tf (f : Fld) := State.fld_raise_other u (968 + n) (some n) (s.disCheck n) 0 (rDIS_CTRL n) f r
  have k4 : onlyIn (mEvent ||| mLayers ||| mGlb) [rDIS_CTRL n.val] [968 + n.val] s (u.raise (968 + n) (some n) (s.disCheck n)) := .raise k3
  have t4 := touches_State.raise u (968 + n) (some n.val) (s.disCheck n) 0
  generalize u.raise (968 + n) (some n.val) (s.disCheck n) = w at *
  have hact : w.act = s.act := (t4.act (by decide)).trans (a3.trans (t2.act (by decide)))
  have e4 : layersLatched w n = w := layersLatched_off (by rw [afld_of_act hact, hd]) (by rw [afld_of_act hact, ho])
  refine ⟨w, disFrameStart_runs hg (frameStart_eq (by omega) h0 h1 (gap_zero h) hv e3 e4 ((t4.ctxs (by decide)).trans (c3.trans (t2.ctxs (by decide))))),
    (State.flag_false_iff _ _ _).mpr ((tf _).trans f1), (tf _).trans f2, ?_, ?_, .of_hi k4 ?_⟩
  · rw [tf, f3, Nat.mod_eq_of_lt (by omega)]
  · rw [State.disState, tf, f4, State.fld_congr r2, State.disState]
  · simp only [List.mem_cons, List.not_mem_nil, or_false, rDIS_CTRL]
    omega

end

end Sys2Proof

end

section
/-! SUPPORT. A commit that takes force, and layers that latch (R488, R489, R494). -/

set_option Elab.async false

namespace Sys2Proof

open Sys2Proof.Machine

/-! ### The shadows come into force -/

/-- The registers whose shadows a commit takes into force. -/
def disShadows (n : Nat) : List Nat := [rDIS_CTRL n, rDIS_HTIM n, rDIS_VTIM n, rDIS_LAYER n, rDIS_RECT n 0, rDIS_RECT n 1, rCLK_PIX n]

theorem actv_commitReg_same (s : State) (a : Nat) : (s.commitReg a).actv a = s.rd a := SMap.get_set_same _ _ _ _

theorem actv_commitReg_other (s : State) {a b : Nat} (h : b ≠ a) : (s.commitReg a).actv b = s.actv b := SMap.get_set_other _ _ _ _ h

theorem commitReg_list (l : List Nat) (s : State) {t : State} (e : l.foldl (fun (t : State) r => t.commitReg r) s = t) :
    Touches mAct s t ∧ t.regs = s.regs ∧ ∀ a, t.actv a = if a ∈ l then s.rd a else s.actv a := by
  induction l generalizing s with
  | nil =>
    subst e
    exact ⟨.refl _ _, rfl, fun a => by simp⟩
  | cons r l ih =>
    rw [List.foldl_cons] at e
    obtain ⟨h1, h2, h3⟩ := ih (s.commitReg r) e
    have r1 := State.commitReg_regs s r
    refine ⟨(touches_State.commitReg s r).trans h1, h2.trans r1, fun a => ?_⟩
    rw [h3, State.rd_congr r1]
    by_cases hl : a ∈ l
    · rw [if_pos hl, if_pos (List.mem_cons_of_mem _ hl)]
    · rw [if_neg hl]
      obtain rfl | hne := eq_or_ne a r
      · rw [if_pos (by simp), actv_commitReg_same]
      · rw [if_neg (by simp [hne, hl]), actv_commitReg_other _ hne]

theorem disCommit_taken {v : State} {n : Nat} (hn : n < 2) (hk : v.disCheck n = 0) (hen : v.flag (rDIS_CTRL n) fDIS_CTRL_EN = true)
    (htr : v.flag (rDIS_LINK n) fDIS_LINK_TRAINED = true) (hpix : v.actv (rCLK_PIX n) = v.rd (rCLK_PIX n)) (hgap : (v.disU n).gap = 0) {w : State}
    (e : v.disCommit n = w) : w.fld (rDIS_CTRL n) fDIS_CTRL_COMMIT = 0 ∧ w.fld (rDIS_CTRL n) fDIS_CTRL_RESULT = 2 ∧
        w.fld (rDIS_CTRL n) fDIS_CTRL_REASON = 0 ∧ w.disState n = 1 ∧ w.afld (rDIS_CTRL n) fDIS_CTRL_EN = 1 ∧
        (∀ f ∈ [fDIS_CTRL_BG, fDIS_CTRL_DEN_EN, fDIS_CTRL_OVL_EN], w.afld (rDIS_CTRL n) f = v.fld (rDIS_CTRL n) f) ∧
        (∀ a ∈ [rDIS_HTIM n, rDIS_VTIM n, rDIS_LAYER n, rDIS_RECT n 0, rDIS_RECT n 1, rCLK_PIX n], w.actv a = v.rd a) ∧
        (∀ a, a ∉ disShadows n → w.actv a = v.actv a) ∧ Touches (mEvent ||| mAct) v w := by
  unfold State.disCommit at e
  dsimp only at e
  rw [if_neg (by simp [hk]), hpix] at e
  have hen1 : v.fld (rDIS_CTRL n) fDIS_CTRL_EN = 1 := by
    have h1 := (State.flag_iff _ _ _).mp hen
    have h2 := v.fld_lt (rDIS_CTRL n) fDIS_CTRL_EN
    change v.fld (rDIS_CTRL n) fDIS_CTRL_EN < 2 at h2
    omega
  have hx := touches_State.setFlds_hi v (rDIS_CTRL n) [(fDIS_CTRL_COMMIT, 0), (fDIS_CTRL_RESULT, 2), (fDIS_CTRL_REASON, 0)]
    (by simp only [rDIS_CTRL]; omega)
  have f1 : (v.setFlds (rDIS_CTRL n) [(fDIS_CTRL_COMMIT, 0), (fDIS_CTRL_RESULT, 2), (fDIS_CTRL_REASON, 0)]).fld (rDIS_CTRL n) fDIS_CTRL_COMMIT = 0 := by
    simp (disch := decide)
  have f2 : (v.setFlds (rDIS_CTRL n) [(fDIS_CTRL_COMMIT, 0), (fDIS_CTRL_RESULT, 2), (fDIS_CTRL_REASON, 0)]).fld (rDIS_CTRL n) fDIS_CTRL_RESULT = 2 := by
    simp (disch := decide)
  have f3 : (v.setFlds (rDIS_CTRL n) [(fDIS_CTRL_COMMIT, 0), (fDIS_CTRL_RESULT, 2), (fDIS_CTRL_REASON, 0)]).fld (rDIS_CTRL n) fDIS_CTRL_REASON = 0 := by
    simp (disch := decide)
  have f4 (f : Fld) (hf : f.lo + f.w ≤ 34 ∨ 40 ≤ f.lo) (hf2 : f.lo + f.w ≤ 63) :
      (v.setFlds (rDIS_CTRL n) [(fDIS_CTRL_COMMIT, 0), (fDIS_CTRL_RESULT, 2), (fDIS_CTRL_REASON, 0)]).fld (rDIS_CTRL n) f = v.fld (rDIS_CTRL n) f := by
    rw [State.fld_setFlds_cons, State.fld_setFlds_cons, State.fld_setFlds_cons, State.fld_setFlds_nil, State.fld_setFld_apart _ _ _ _ _ _
      ⟨by decide, by simp only [fDIS_CTRL_REASON]; omega⟩, State.fld_setFld_apart _ _ _ _ _ _ ⟨by decide, by simp only [fDIS_CTRL_RESULT]; omega⟩,
      State.fld_setFld_apart _ _ _ _ _ _ ⟨by decide, by simp only [fDIS_CTRL_COMMIT]; omega⟩]
  have f5 (a : Nat) (ha : a ≠ rDIS_CTRL n) := State.rd_setFlds_other v [(fDIS_CTRL_COMMIT, 0), (fDIS_CTRL_RESULT, 2), (fDIS_CTRL_REASON, 0)] ha
  generalize v.setFlds (rDIS_CTRL n) _ = x at *
  obtain ⟨c1, c2, c3⟩ := commitReg_list (disShadows n) x rfl
  have hdef : [rDIS_CTRL n, rDIS_HTIM n, rDIS_VTIM n, rDIS_LAYER n, rDIS_RECT n 0, rDIS_RECT n 1, rCLK_PIX n] = disShadows n := rfl
  rw [hdef] at e
  generalize (disShadows n).foldl _ x = y at *
  have yc (f : Fld) : y.afld (rDIS_CTRL n) f = x.fld (rDIS_CTRL n) f := by
    rw [State.afld, c3, if_pos (by simp [disShadows]), State.fld]
  have hdis : (y.disU n).gap = 0 := by rw [disU_of_dis (c1.dis (by decide)), disU_of_dis (hx.dis (by decide)), hgap]
  have htr2 : y.flag (rDIS_LINK n) fDIS_LINK_TRAINED = true := by
    rw [flag_of_rd (State.rd_congr c2 _), flag_of_rd (f5 _ (by simp only [rDIS_LINK, rDIS_CTRL]; omega)), htr]
  have yen : y.afld (rDIS_CTRL n) fDIS_CTRL_EN = 1 := by rw [yc, f4 _ (.inr (by decide)) (by decide), hen1]
  rw [yen, htr2, hdis] at e
  simp only [decide_true, Bool.not_true, Bool.false_eq_true, if_false, bne_self_eq_false, if_true] at e
  have tx : Touches (mEvent ||| mAct) v y := (hx.mono (by decide)).trans (c1.mono (by decide))
  unfold State.setDisState at e
  have hz := touches_State.setFld_hi y (rDIS_CTRL n) fDIS_CTRL_STATE 1 (by simp only [rDIS_CTRL]; omega)
  have z1 := State.fld_setFld_self y (rDIS_CTRL n) fDIS_CTRL_STATE 1 (by decide)
  have z2 (f : Fld) (hf : f.lo + f.w ≤ 32 ∨ 34 ≤ f.lo) := State.fld_setFld_apart y (rDIS_CTRL n) (rDIS_CTRL n) fDIS_CTRL_STATE f 1 ⟨by decide, hf⟩
  generalize y.setFld (rDIS_CTRL n) fDIS_CTRL_STATE 1 = z at *
  have hr := touches_State.raise z (966 + n) (some n) 0 0
  have rr (f : Fld) := State.fld_raise_other z (966 + n) (some n) 0 0 (rDIS_CTRL n) f (by simp only [rDIS_CTRL]; omega)
  generalize z.raise (966 + n) (some n) = r at *
  have ha := touches_State.admRetest r
  have hk2 := netKeeps_admRetest r
  rw [e] at ha hk2
  have wf (f : Fld) : w.fld (rDIS_CTRL n) f = z.fld (rDIS_CTRL n) f := (hk2.fld _ _ (by simp only [rDIS_CTRL]; omega)).trans (rr f)
  have hact : w.act = y.act := (ha.act (by decide)).trans ((hr.act (by decide)).trans (hz.act (by decide)))
  refine ⟨?_, ?_, ?_, (wf _).trans z1, (afld_of_act hact _ _).trans yen, fun f hf => ?_, fun a h => ?_, fun a h => ?_,
    tx.trans ((hz.mono (by decide)).trans ((hr.mono (by decide)).trans (ha.mono (by decide))))⟩
  · rw [wf, z2 _ (.inr (by decide)), State.fld_congr c2, f1]
  · rw [wf, z2 _ (.inr (by decide)), State.fld_congr c2, f2]
  · rw [wf, z2 _ (.inr (by decide)), State.fld_congr c2, f3]
  · rw [afld_of_act hact, yc]
    simp only [List.mem_cons, List.not_mem_nil, or_false] at hf
    obtain rfl | rfl | rfl := hf
    · exact f4 _ (.inl (by decide)) (by decide)
    · exact f4 _ (.inr (by decide)) (by decide)
    · exact f4 _ (.inr (by decide)) (by decide)
  · rw [actv_of_act hact, c3, if_pos (show a ∈ disShadows n from List.mem_cons_of_mem _ h), f5]
    rintro rfl
    simp only [List.mem_cons, List.not_mem_nil, or_false, rDIS_CTRL, rDIS_HTIM, rDIS_VTIM, rDIS_LAYER, rDIS_RECT, rCLK_PIX] at h
    omega
  · rw [actv_of_act hact, c3, if_neg h, actv_of_act (hx.act (by decide))]

section

variable {n : Fin 2} {s : State}

theorem frameStart_commits (hg : s.glb ≠ 0) (h0 : s.layerCtx n 0 = none) (h1 : s.layerCtx n 1 = none) (h : (s.disU n).gap = 0)
    (hc : s.flag (rDIS_CTRL n) fDIS_CTRL_COMMIT = true) (hk : s.disCheck n = 0) (hen : s.flag (rDIS_CTRL n) fDIS_CTRL_EN = true)
    (htr : s.flag (rDIS_LINK n) fDIS_LINK_TRAINED = true) (hpix : s.actv (rCLK_PIX n) = s.rd (rCLK_PIX n))
    (hd : s.fld (rDIS_CTRL n) fDIS_CTRL_DEN_EN = 0) (ho : s.fld (rDIS_CTRL n) fDIS_CTRL_OVL_EN = 0) :
      completes (.disFrameStart n) s fun t => t.flag (rDIS_CTRL n) fDIS_CTRL_COMMIT = false ∧ t.fld (rDIS_CTRL n) fDIS_CTRL_RESULT = 2 ∧
        t.fld (rDIS_CTRL n) fDIS_CTRL_REASON = 0 ∧ t.disState n = 1 ∧ t.afld (rDIS_CTRL n) fDIS_CTRL_EN = 1 ∧
        t.afld (rDIS_CTRL n) fDIS_CTRL_BG = s.fld (rDIS_CTRL n) fDIS_CTRL_BG ∧
        (∀ a ∈ [rDIS_HTIM n, rDIS_VTIM n, rDIS_LAYER n, rDIS_RECT n 0, rDIS_RECT n 1, rCLK_PIX n], t.actv a = s.rd a) ∧
        (∀ a, a ∉ [rDIS_CTRL n, rDIS_HTIM n, rDIS_VTIM n, rDIS_LAYER n, rDIS_RECT n 0, rDIS_RECT n 1, rCLK_PIX n] → t.actv a = s.actv a) ∧
        Touches (mEvent ||| mAct ||| mLayers) s t := by
  have t2 := touches_layersAged s n
  have r2 := layersAged_regs s n
  generalize hv : layersAged s n = v at *
  have va := actv_of_act (t2.act (by decide))
  have vf (a : Nat) (f : Fld) : v.fld a f = s.fld a f := State.fld_congr r2 a f
  have e3 : commitDue v n = v.disCommit n := if_pos ((flag_of_rd (State.rd_congr r2 _)).trans hc)
  obtain ⟨c1, c2, c3, c4, c5, c6, c7, c8, c9⟩ := disCommit_taken n.isLt ((disCheck_of r2 (t2.dis (by decide)) n).trans hk)
    ((flag_of_rd (State.rd_congr r2 _)).trans hen) ((flag_of_rd (State.rd_congr r2 _)).trans htr)
    (by rw [va, State.rd_congr r2, hpix]) (by rw [disU_of_dis (t2.dis (by decide)), h]) (rfl : v.disCommit n = _)
  generalize v.disCommit n = w at *
  have e4 : layersLatched w n = w := layersLatched_off (by rw [c6 _ (by simp), vf, hd]) (by rw [c6 _ (by simp), vf, ho])
  refine ⟨w, disFrameStart_runs hg (frameStart_eq (by omega) h0 h1 (gap_zero h) hv e3 e4 ((c9.ctxs (by decide)).trans (t2.ctxs (by decide)))),
    (State.flag_false_iff _ _ _).mpr c1, c2, c3, c4, c5, (c6 _ (by simp)).trans (vf _ _), fun a ha => (c7 a ha).trans (State.rd_congr r2 a),
    fun a ha => (c8 a ha).trans (va a), (t2.mono (by decide)).trans (c9.mono (by decide))⟩

/-! ### Layers latch (R494) -/

theorem layerLatch_effect {w : State} {n l : Nat} {f : DisFrame} (h : (w.layerU n l).ready.getLast? = some f) {t : State} (e : w.layerLatch n l = t) :
    t.layerU n l = { w.layerU n l with ready := [], shown := some f, old := (w.layerU n l).shown } ∧
      t.fld (rDIS_LSTAT n l) fDIS_LSTAT_LATCHED = (w.fld (rDIS_LSTAT n l) fDIS_LSTAT_LATCHED + 1) % 2 ^ 32 ∧ t.act = w.act ∧ t.ctxs = w.ctxs ∧
      onlyIn (mRegs ||| mLayers ||| mGlb) [rDIS_LSTAT n l] [] w t := by
  unfold State.layerLatch at e
  dsimp only at e
  rw [h] at e
  dsimp only at e
  have u1 := layerU_updLayer_same w n l fun y => { y with ready := [], shown := some f, old := y.shown }
  have r1 := State.updLayer_regs w n l fun y => { y with ready := [], shown := some f, old := y.shown }
  have t1 := touches_State.updLayer w n l fun y => { y with ready := [], shown := some f, old := y.shown }
  generalize w.updLayer n l _ = x at *
  refine ⟨?_, ?_, ?_, ?_, ?_⟩
  · rw [← e, layerU_of_layers (State.addMod_layers _ _ _ _), u1]
  · rw [← e, State.fld_addMod_self _ _ _ _ (by decide), State.fld_congr r1]
  · rw [← e, State.addMod_act, t1.act (by decide)]
  · rw [← e, State.addMod_ctxs, t1.ctxs (by decide)]
  · rw [← e]
    exact .addMod (.other (.refl _ _ _ _) t1 (by decide) r1)

theorem frameStart_latches {l : Fin 2} {f : DisFrame} (hg : s.glb ≠ 0) (h0 : s.layerCtx n 0 = none) (h1 : s.layerCtx n 1 = none)
    (h : (s.disU n).gap = 0) (hc : s.flag (rDIS_CTRL n) fDIS_CTRL_COMMIT = false)
    (hon : s.afld (rDIS_CTRL n) (if l = 0 then fDIS_CTRL_DEN_EN else fDIS_CTRL_OVL_EN) = 1)
    (hoff : s.afld (rDIS_CTRL n) (if l = 0 then fDIS_CTRL_OVL_EN else fDIS_CTRL_DEN_EN) = 0) (hf : (s.layerU n l).ready.getLast? = some f) :
      completes (.disFrameStart n) s fun t =>
        t.layerU n l = { s.layerU n l with ready := [], shown := some f, old := (s.layerU n l).shown } ∧
        t.fld (rDIS_LSTAT n l) fDIS_LSTAT_LATCHED = (s.fld (rDIS_LSTAT n l) fDIS_LSTAT_LATCHED + 1) % 2 ^ 32 ∧
        onlyIn (mRegs ||| mLayers) [rDIS_LSTAT n l] [] s t := by
  have t2 := touches_layersAged s n
  have r2 := layersAged_regs s n
  have u2 := layersAged_layerU s n l l.isLt
  generalize hv : layersAged s n = v at *
  have va := afld_of_act (t2.act (by decide))
  have e3 : commitDue v n = v := if_neg (by rw [flag_of_rd (State.rd_congr r2 _), hc]; decide)
  have hgap : (v.disU n).gap = 0 := by rw [disU_of_dis (t2.dis (by decide)), h]
  have e4 : layersLatched v n = v.layerLatch n l := by
    unfold layersLatched
    rw [hgap, if_neg (by decide)]
    dsimp only
    obtain hl | hl : l = 0 ∨ l = 1 := by omega
    · subst hl
      have q1 : fget (v.actv (rDIS_CTRL n)) fDIS_CTRL_DEN_EN = 1 := (va _ _).trans hon
      have q2 : fget (v.actv (rDIS_CTRL n)) fDIS_CTRL_OVL_EN = 0 := (va _ _).trans hoff
      rw [q1, q2, if_neg (by decide), if_pos rfl]
      rfl
    · subst hl
      have q1 : fget (v.actv (rDIS_CTRL n)) fDIS_CTRL_OVL_EN = 1 := (va _ _).trans hon
      have q2 : fget (v.actv (rDIS_CTRL n)) fDIS_CTRL_DEN_EN = 0 := (va _ _).trans hoff
      rw [q1, q2, if_pos rfl, if_neg (by decide)]
      rfl
  obtain ⟨g1, g2, g3, g4, g5⟩ := layerLatch_effect (w := v) (n := n) (l := l) (f := f) (by rw [u2]; exact hf) rfl
  generalize v.layerLatch n l = t at *
  refine ⟨t, disFrameStart_runs hg (frameStart_eq (by omega) h0 h1 (gap_zero h) hv e3 e4 (g4.trans (t2.ctxs (by decide)))), ?_, ?_, ?_⟩
  · rw [g1, u2]
  · rw [g2, State.fld_congr r2]
  · have k : onlyIn (mRegs ||| mLayers ||| mGlb) [rDIS_LSTAT n.val l.val] [] s v := .other (.refl _ _ _ _) t2 (by decide) r2
    refine .of_hi (k.trans g5) ?_
    simp only [List.mem_cons, List.not_mem_nil, or_false, rDIS_LSTAT]
    omega

end

end Sys2Proof

end

section
/-! O56: display outputs, with the records of a layer and the scan-out (R485 to R498). -/

set_option Elab.async false

namespace Sys2Proof

open Sys2Proof.Machine

/-! ### Records of a layer (R492) -/

theorem onlyIn_layerHold (s : State) (n l : Nat) : onlyIn (mRegs ||| mCtxs ||| mBillets) [rSTO_CNT0] [] s (s.layerHold n l) := by
  unfold State.layerHold
  split
  · exact .refl _ _ _ _
  · exact onlyIn_finishTo _ _ _ _

section

variable {n : Fin 2} {s : State}

theorem disLayerRecord_none {l : Fin 2} (hg : s.glb ≠ 0) (h : s.layerCtx n l = none) : exec (.disLayerRecord n l) s = .next s := by
  refine next_live hg ?_
  unfold State.layerTake
  rw [h]

theorem disLayerRecord_noRecord {l : Fin 2} {x d : Nat} (hg : s.glb ≠ 0) (h : s.layerCtx n l = some (x, d)) (hr : (s.ctx x).nextRec d = none) :
    exec (.disLayerRecord n l) s = .next s := by
  refine next_live hg ?_
  unfold State.layerTake
  rw [h]
  dsimp only
  rw [hr]

/-- The record is begun and delivered; `u` is the device then. -/
theorem disLayerRecord_taken {x d : Nat} {r : CordRec} (hg : s.glb ≠ 0) (h : s.layerCtx n 0 = some (x, d)) (hr : (s.ctx x).nextRec d = some r) :
    ∃ u, onlyIn (mRegs ||| mCtxs ||| mBillets) [rSTO_CNT0] [] s u ∧ exec (.disLayerRecord n 0) s = .next ((
          if r.typ = 0x20 then u.updLayer n 0 fun y => { y with ready := y.ready ++ [⟨x, r.pos, r.pos + r.len, [(r.pos + 32, r.len - 32)]⟩] }
          else if r.typ = tyPad then u
          else u.layerDrop n 0).layerHold n 0) := by
  refine ⟨(s.beginRec x d r).deliveredTo x d (r.pos + r.len), (onlyIn_beginRec s x d r).trans (onlyIn_deliveredTo _ _ _ _), next_live hg ?_⟩
  unfold State.layerTake
  rw [show s.layerCtx n (0 : Fin 2).val = some (x, d) from h]
  dsimp only
  rw [hr]
  exact congrArg (fun z => State.layerHold z n 0) (if_pos rfl)

theorem disLayerRecord_frame {x d : Nat} {r : CordRec} (hg : s.glb ≠ 0) (h : s.layerCtx n 0 = some (x, d)) (hr : (s.ctx x).nextRec d = some r)
    (ht : r.typ = 0x20) : completes (.disLayerRecord n 0) s fun t =>
          t.layerU n 0 = { s.layerU n 0 with ready := (s.layerU n 0).ready ++ [⟨x, r.pos, r.pos + r.len, [(r.pos + 32, r.len - 32)]⟩] } ∧
          Touches (mRegs ||| mCtxs ||| mBillets ||| mLayers) s t := by
  obtain ⟨u, k, e⟩ := disLayerRecord_taken hg h hr
  rw [if_pos ht] at e
  have hl := layerU_of_layers (k.1.layers (by decide)) n 0
  have u1 := layerU_updLayer_same u n 0 fun y => { y with ready := y.ready ++ [⟨x, r.pos, r.pos + r.len, [(r.pos + 32, r.len - 32)]⟩] }
  have t1 := touches_State.updLayer u n 0 fun y => { y with ready := y.ready ++ [⟨x, r.pos, r.pos + r.len, [(r.pos + 32, r.len - 32)]⟩] }
  generalize u.updLayer n 0 _ = w at *
  have t2 := touches_State.layerHold w n 0
  refine ⟨_, e, ?_, (k.1.mono (by decide)).trans ((t1.mono (by decide)).trans (t2.mono (by decide)))⟩
  rw [layerU_of_layers (t2.layers (by decide)), u1, hl]

theorem disLayerRecord_dropped {x d : Nat} {r : CordRec} (hg : s.glb ≠ 0) (h : s.layerCtx n 0 = some (x, d)) (hr : (s.ctx x).nextRec d = some r)
    (ht : r.typ ≠ 0x20) (hp : r.typ ≠ tyPad) : completes (.disLayerRecord n 0) s fun t => t.layers = s.layers ∧
          t.fld (rDIS_LSTAT n 0) fDIS_LSTAT_DROPPED = satN 16 (s.fld (rDIS_LSTAT n 0) fDIS_LSTAT_DROPPED + 1) ∧
          Touches (mEvent ||| mCtxs ||| mBillets) s t := by
  obtain ⟨u, k, e⟩ := disLayerRecord_taken hg h hr
  rw [if_neg ht, if_neg hp] at e
  have hst {a b : State} (k : onlyIn (mRegs ||| mCtxs ||| mBillets) [rSTO_CNT0] [] a b) : b.rd (rDIS_LSTAT n 0) = a.rd (rDIS_LSTAT n 0) :=
    k.rd_apart (by simp only [List.mem_cons, List.not_mem_nil, or_false, rDIS_LSTAT, rSTO_CNT0]; omega) (.inr (by simp only [rDIS_LSTAT]; omega)) (by simp)
  have r1 := hst k
  have t1 := touches_State.layerDrop u n 0
  have f1 : (u.layerDrop n 0).fld (rDIS_LSTAT n 0) fDIS_LSTAT_DROPPED = satN 16 (u.fld (rDIS_LSTAT n 0) fDIS_LSTAT_DROPPED + 1) := by
    unfold State.layerDrop
    rw [State.fld_raiseLim_other _ _ _ _ _ _ _ _ _ (.inr (by simp only [rDIS_LSTAT]; omega)), State.fld_addSat_self _ _ _ _ (by decide)]
  generalize u.layerDrop n 0 = w at *
  have k2 := onlyIn_layerHold w n 0
  refine ⟨_, e, ?_, ?_, (k.1.mono (by decide)).trans ((t1.mono (by decide)).trans (k2.1.mono (by decide)))⟩
  · rw [k2.1.layers (by decide), t1.layers (by decide), k.1.layers (by decide)]
  · rw [fld_of_rd (hst k2), f1, fld_of_rd r1]

/-! ### Scan-out (R491 to R495) -/

/-- A colour of 24 bits is its three channels. -/
theorem rgb_join {c : Nat} (h : c < 2 ^ 24) : c / 2 ^ 16 % 256 * 2 ^ 16 + c / 2 ^ 8 % 256 * 2 ^ 8 + c % 256 = c := by omega

theorem disBg_lt (s : State) (n : Nat) : s.afld (rDIS_CTRL n) fDIS_CTRL_BG < 2 ^ 24 := fget_lt (s.actv (rDIS_CTRL n)) fDIS_CTRL_BG

/-- What lies below the layers. -/
def disGround (s : State) (n : Nat) : Nat × Nat × Nat :=
  (s.afld (rDIS_CTRL n) fDIS_CTRL_BG / 2 ^ 16 % 256, s.afld (rDIS_CTRL n) fDIS_CTRL_BG / 2 ^ 8 % 256, s.afld (rDIS_CTRL n) fDIS_CTRL_BG % 256)

/-- A pixel of line `y` with the overlay only, up to pixel `ovl`. -/
def overlaid (s : State) (n y ovl px : Nat) : Nat :=
  let d := match if px < ovl then s.layerPixel n 1 px y else none with
    | some p => blend p (disGround s n)
    | none => disGround s n
  d.1 * 2 ^ 16 + d.2.1 * 2 ^ 8 + d.2.2

theorem overlaid_late {s : State} {n y ovl px : Nat} (h : ovl ≤ px) : overlaid s n y ovl px = s.afld (rDIS_CTRL n) fDIS_CTRL_BG := by
  unfold overlaid
  rw [if_neg (by omega)]
  exact rgb_join (disBg_lt s n)

theorem blend_opaque {p : Argb} (d : Nat × Nat × Nat) (h : p.1 = 255) (h1 : p.2.1 < 256) (h2 : p.2.2.1 < 256) (h3 : p.2.2.2 < 256) :
    blend p d = (p.2.1, p.2.2.1, p.2.2.2) := by
  have k (x y : Nat) : (p.1 * x + (255 - p.1) * y + 127) / 255 = x := by
    rw [h, Nat.sub_self, Nat.zero_mul]
    omega
  unfold blend
  dsimp only
  rw [k, k, k]

theorem overlaid_opaque {s : State} {n y ovl px : Nat} (h : px < ovl) {p : Argb} (hp : s.layerPixel n 1 px y = some p) (h0 : p.1 = 255)
    (h1 : p.2.1 < 256) (h2 : p.2.2.1 < 256) (h3 : p.2.2.2 < 256) : overlaid s n y ovl px = p.2.1 * 2 ^ 16 + p.2.2.1 * 2 ^ 8 + p.2.2.2 := by
  unfold overlaid
  rw [if_pos h, hp]
  dsimp only
  rw [blend_opaque _ h0 h1 h2 h3]

variable {y den ovl : Fin 65536} {hact : Nat}

theorem scanoutLine_runs {t : State} (hg : s.glb ≠ 0) (e : s.scanLine n y den ovl = t) : exec (.scanoutLine n y den ovl) s = .next t := next_live hg e

theorem scanLine_idle (hg : s.glb ≠ 0) (h : s.afld (rDIS_VTIM n) fDIS_VTIM_VACT ≤ y ∨ (s.disState n ≠ 1 ∧ (s.disU n).gap ≠ 3)) :
    exec (.scanoutLine n y den ovl) s = .next s := by
  refine scanoutLine_runs hg (if_pos ?_)
  rw [show fget (s.actv (rDIS_VTIM n)) fDIS_VTIM_VACT = s.afld (rDIS_VTIM n) fDIS_VTIM_VACT from rfl]
  obtain h | ⟨h, k⟩ := h
  · simp [h]
  · simp [h, k]

theorem scanLine_black (hg : s.glb ≠ 0) (hh : s.afld (rDIS_HTIM n) fDIS_HTIM_HACT = hact) (hy : y < s.afld (rDIS_VTIM n) fDIS_VTIM_VACT)
    (h : (s.disU n).gap = 3) : exec (.scanoutLine n y den ovl) s = .next (s.send (.video n y (s.disSync n) (List.replicate hact 0))) := by
  refine scanoutLine_runs hg ((if_neg ?_).trans ((if_pos (by rw [h])).trans (by rw [← hh]; rfl)))
  rw [show fget (s.actv (rDIS_VTIM n)) fDIS_VTIM_VACT = s.afld (rDIS_VTIM n) fDIS_VTIM_VACT from rfl]
  simp only [h, Bool.or_eq_true, decide_eq_true_eq, decide_true, Bool.or_true, Bool.not_true, Bool.false_eq_true, or_false]
  omega

/-- The line of a frame whose density layer is off. -/
theorem scanLine_shown (hg : s.glb ≠ 0) (hh : s.afld (rDIS_HTIM n) fDIS_HTIM_HACT = hact) (hy : y < s.afld (rDIS_VTIM n) fDIS_VTIM_VACT)
    (h : (s.disU n).gap ≠ 3) (ha : s.disState n = 1) (hd : s.afld (rDIS_CTRL n) fDIS_CTRL_DEN_EN = 0) {on : Bool}
    (ho : decide (s.afld (rDIS_CTRL n) fDIS_CTRL_OVL_EN = 1) = on) {k : Nat}
    (hk : b2n (on && (s.layerU n 1).shown.isSome && s.afld (rDIS_RECT n 1) fDIS_RECT_Y ≤ y &&
      y < s.afld (rDIS_RECT n 1) fDIS_RECT_Y + s.afld (rDIS_RECT n 1) fDIS_RECT_H &&
      ovl < s.afld (rDIS_RECT n 1) fDIS_RECT_X + s.afld (rDIS_RECT n 1) fDIS_RECT_W) = k) {pix : List Nat}
    (hp : (upTo hact).map (fun px => if on then overlaid s n y ovl px else s.afld (rDIS_CTRL n) fDIS_CTRL_BG) = pix) :
    exec (.scanoutLine n y den ovl) s = .next (if k = 0 then s.send (.video n y (s.disSync n) pix) else
      ((s.send (.video n y (s.disSync n) pix)).addSat (rDIS_STAT n) fDIS_STAT_UNDERFLOW k).raiseLim 1000000 (964 + n) (some n)) := by
  refine scanoutLine_runs hg ((if_neg ?_).trans ((if_neg (by simpa using h)).trans ?_))
  · rw [show fget (s.actv (rDIS_VTIM n)) fDIS_VTIM_VACT = s.afld (rDIS_VTIM n) fDIS_VTIM_VACT from rfl]
    simp only [ha, decide_true, Bool.true_or, Bool.not_true, Bool.or_false, decide_eq_true_eq]
    omega
  · dsimp only
    have q1 : fget (s.actv (rDIS_CTRL n)) fDIS_CTRL_DEN_EN = 0 := hd
    have q2 : (upTo (fget (s.actv (rDIS_HTIM n)) fDIS_HTIM_HACT)) = upTo hact := congrArg upTo hh
    have q3 : decide (fget (s.actv (rDIS_CTRL n)) fDIS_CTRL_OVL_EN = 1) = on := ho
    rw [q1, q2, q3, show decide ((0 : Nat) = 1) = false from rfl]
    simp only [Bool.false_and, Bool.false_eq_true, if_false, show b2n false = 0 from rfl, Nat.zero_add]
    have hpix : ((upTo hact).map fun px =>
        (match if (on && decide (px < ovl.val)) = true then s.layerPixel n 1 px y else none with
          | some p => blend p (disGround s n)
          | none => disGround s n).1 * 2 ^ 16 +
        (match if (on && decide (px < ovl.val)) = true then s.layerPixel n 1 px y else none with
          | some p => blend p (disGround s n)
          | none => disGround s n).2.1 * 2 ^ 8 +
        (match if (on && decide (px < ovl.val)) = true then s.layerPixel n 1 px y else none with
          | some p => blend p (disGround s n)
          | none => disGround s n).2.2) = pix := by
      rw [← hp]
      refine List.map_congr_left fun px _ => ?_
      cases on with
      | true => simp only [Bool.true_and, decide_eq_true_eq, if_true, overlaid]
      | false =>
        simp only [Bool.false_and, Bool.false_eq_true, if_false]
        exact rgb_join (disBg_lt s n)
    rw [← hk, ← hpix]
    rfl

/-- Neither layer is on. -/
theorem scanLine_ground (hg : s.glb ≠ 0) (hh : s.afld (rDIS_HTIM n) fDIS_HTIM_HACT = hact) (hy : y < s.afld (rDIS_VTIM n) fDIS_VTIM_VACT)
    (h : (s.disU n).gap ≠ 3) (ha : s.disState n = 1) (hd : s.afld (rDIS_CTRL n) fDIS_CTRL_DEN_EN = 0)
    (ho : s.afld (rDIS_CTRL n) fDIS_CTRL_OVL_EN = 0) : exec (.scanoutLine n y den ovl) s =
      .next (s.send (.video n y (s.disSync n) (List.replicate hact (s.afld (rDIS_CTRL n) fDIS_CTRL_BG)))) := by
  have hp : (upTo hact).map (fun px => if false then overlaid s n y ovl px else s.afld (rDIS_CTRL n) fDIS_CTRL_BG) =
      List.replicate hact (s.afld (rDIS_CTRL n) fDIS_CTRL_BG) := by
    simp only [Bool.false_eq_true, if_false, List.map_const']
    rw [show (upTo hact).length = hact from List.length_range]
  rw [scanLine_shown (den := den) (ovl := ovl) (on := false) (k := 0) hg hh hy h ha hd (by rw [ho]; rfl) (by simp only [Bool.false_and]; rfl) hp,
    if_pos rfl]

/-- The overlay's data are late. -/
theorem scanLine_underflow {f : DisFrame} (hg : s.glb ≠ 0) (hh : s.afld (rDIS_HTIM n) fDIS_HTIM_HACT = hact)
    (hy : y < s.afld (rDIS_VTIM n) fDIS_VTIM_VACT) (h : (s.disU n).gap ≠ 3) (ha : s.disState n = 1) (hd : s.afld (rDIS_CTRL n) fDIS_CTRL_DEN_EN = 0)
    (ho : s.afld (rDIS_CTRL n) fDIS_CTRL_OVL_EN = 1) (hf : (s.layerU n 1).shown = some f) (h1 : s.afld (rDIS_RECT n 1) fDIS_RECT_Y ≤ y)
    (h2 : y < s.afld (rDIS_RECT n 1) fDIS_RECT_Y + s.afld (rDIS_RECT n 1) fDIS_RECT_H)
    (h3 : ovl < s.afld (rDIS_RECT n 1) fDIS_RECT_X + s.afld (rDIS_RECT n 1) fDIS_RECT_W) :
        completes (.scanoutLine n y den ovl) s fun t =>
          t.fld (rDIS_STAT n) fDIS_STAT_UNDERFLOW = satN 32 (s.fld (rDIS_STAT n) fDIS_STAT_UNDERFLOW + 1) ∧
          (∃ pix l, t.outs = s.outs ++ .video n y (s.disSync n) pix :: l ∧ pix.length = hact ∧
            (∀ px < hact, ovl ≤ px → pix[px]? = some (s.afld (rDIS_CTRL n) fDIS_CTRL_BG)) ∧
            (∀ px < hact, px < ovl → ∀ p, s.layerPixel n 1 px y = some p → p.1 = 255 → p.2.1 < 256 → p.2.2.1 < 256 → p.2.2.2 < 256 →
              pix[px]? = some (p.2.1 * 2 ^ 16 + p.2.2.1 * 2 ^ 8 + p.2.2.2))) ∧
          onlyIn mEvent [rDIS_STAT n] [964 + n] s t := by
  have e := scanLine_shown (n := n) (y := y) (den := den) (ovl := ovl) (hact := hact) (on := true) (k := 1) hg hh hy h ha hd (by rw [ho]; rfl)
    (by simp only [hf, h1, h2, h3, Option.isSome_some, decide_true, Bool.and_true]; rfl) (pix := (upTo hact).map (overlaid s n y ovl))
    (by simp only [if_true])
  have hget (px : Nat) (hpx : px < hact) : ((upTo hact).map (overlaid s n y ovl))[px]? = some (overlaid s n y ovl px) := by
    rw [List.getElem?_map, show (upTo hact)[px]? = some px from List.getElem?_range hpx]
    rfl
  have hlen : ((upTo hact).map (overlaid s n y ovl)).length = hact := by rw [List.length_map]; exact List.length_range
  rw [if_neg (by decide)] at e
  generalize (upTo hact).map (overlaid s n y ovl) = pix at *
  have k1 : onlyIn (mEvent ||| mGlb) [rDIS_STAT n.val] [964 + n.val] s (s.send (.video n y (s.disSync n) pix)) :=
    .other (.refl _ _ _ _) (touches_State.send _ _) (by decide) (State.send_regs _ _)
  have r1 := State.send_regs s (.video n y (s.disSync n) pix)
  have o1 : (s.send (.video n y (s.disSync n) pix)).outs = s.outs ++ [.video n y (s.disSync n) pix] := rfl
  generalize s.send _ = u at *
  have f1 := State.fld_addSat_self u (rDIS_STAT n) fDIS_STAT_UNDERFLOW 1 (by decide)
  have k2 : onlyIn (mEvent ||| mGlb) [rDIS_STAT n.val] [964 + n.val] s (u.addSat (rDIS_STAT n) fDIS_STAT_UNDERFLOW 1) := .addSat k1
  have o2 := State.addSat_outs u (rDIS_STAT n) fDIS_STAT_UNDERFLOW 1
  generalize u.addSat _ _ _ = w at *
  obtain ⟨l, hl⟩ := raiseLim_outs w 1000000 (964 + n) (some n.val) 0 0 0
  refine ⟨_, e, ?_, ⟨pix, l, ?_, hlen, fun px hpx hlate => ?_, fun px hpx hin p hp h0 q1 q2 q3 => ?_⟩, .of_hi (.raiseLim k2) ?_⟩
  · rw [State.fld_raiseLim_other _ _ _ _ _ _ _ _ _ (.inr (by simp only [rDIS_STAT]; omega)), f1, State.fld_congr r1]
  · rw [hl, o2, o1, List.append_assoc]
    rfl
  · rw [hget px hpx, overlaid_late hlate]
  · rw [hget px hpx, overlaid_opaque hin hp h0 q1 q2 q3]
  · simp only [List.mem_cons, List.not_mem_nil, or_false, rDIS_STAT]
    omega

end

/-- Settles O56, clause by clause: hot plug, commits, frame starts, the pixel clock, layers, AUX, the palette and the scan-out. -/
theorem displayOutputs : Obligations.DisplayOutputs := by
  unfold Obligations.DisplayOutputs
  refine ⟨fun n ok s hg => ⟨_, next_live hg rfl, hpd_fall n.isLt rfl⟩, fun n ok k s hg => ⟨fun l r hok hc => ?_, fun h => disHpd_failed hg h⟩,
    fun n v s hr => disCommit_asked hr, fun n s hg h0 h1 => ⟨frameStart_clock hg, frameStart_black hg h0 h1, frameStart_active hg h0 h1,
      frameStart_rejects hg h0 h1, frameStart_commits hg h0 h1, fun l f => frameStart_latches hg h0 h1⟩,
    fun n ok s hg => ⟨fun h => next_live hg (if_neg h), fun h hl => next_live hg ((if_pos h).trans ?_), fun l r h hl h1 h2 hok => ?_⟩,
    fun n l s hg => ⟨disLayerRecord_none hg, fun x d => disLayerRecord_noRecord hg, fun x d r hl h hr =>
      ⟨disLayerRecord_frame hg h hr, disLayerRecord_dropped hg h hr⟩⟩,
    fun n v w buf s hr hw hb => ⟨disAuxGo_ends hr hw hb, fun bs => disAuxGo_reads hr hw hb⟩,
    fun n b i v s hr => disPalWrite_clauses n b i v s hr,
    fun n y den ovl hact s hg hh => ⟨scanLine_idle hg, scanLine_black hg hh, fun hy h ha hd => ⟨scanLine_ground hg hh hy h ha hd, fun f =>
      scanLine_underflow hg hh hy h ha hd⟩⟩⟩
  · subst hok
    exact disHpd_trained hg hc
  · rw [hl]
    rfl
  · subst hok
    exact pixStable_links hg h hl h1 h2

end Sys2Proof

end

section
/-! SUPPORT. The memory window, its decoders and training of the link (R415 to R424). -/

set_option Elab.async false

namespace Sys2Proof

open Sys2Proof.Machine

/-! ### An event changes the vectors of the host interface only -/

theorem signal_hif (s : State) (v : Nat) : ∃ vs, (s.signal v).hif = { s.hif with vecs := vs } := by
  unfold State.signal
  dsimp only
  split
  · exact ⟨_, rfl⟩
  · exact ⟨_, rfl⟩

theorem raiseWith_hif {s t : State} {src : Nat} {obj : Option Nat} {code detail : Nat} {inj : Bool} {lim key : Nat}
    (e : s.raiseWith src obj code detail inj lim key = t) : ∃ vs, t.hif = { s.hif with vecs := vs } := by
  unfold State.raiseWith at e
  dsimp only at e
  have e0 : ((s.setFlds (rEVT_SRC src) [(fEVT_SRC_STATUS, 1), (fEVT_SRC_COUNT, s.fld (rEVT_SRC src) fEVT_SRC_COUNT + 1)]).addMod
      rEVT_STAT fEVT_STAT_RAISED 1).hif = s.hif := by rw [State.addMod_hif, State.setFlds_hif]
  generalize (s.setFlds (rEVT_SRC src) _).addMod rEVT_STAT _ _ = u at *
  have e1 : (u.onEvt fun z => { z with occ := SMap.upd 0 u.evt.occ src (· + 1) }).hif = u.hif := State.onEvt_hif _ _
  generalize u.onEvt _ = w at *
  have he : t = w ∨ ∃ (z : State) (v : Nat), z.hif = w.hif ∧ (z.ringPut src obj code detail inj).signal v = t := by
    split at e
    · split at e
      · exact .inl e.symm
      · refine .inr ⟨_, _, ?_, e⟩
        split
        · rfl
        · exact State.onEvt_hif _ _
    · exact .inl e.symm
  obtain rfl | ⟨z, v, hz, rfl⟩ := he
  · exact ⟨s.hif.vecs, by rw [e1, e0]⟩
  · obtain ⟨vs, hv⟩ := signal_hif (z.ringPut src obj code detail inj) v
    exact ⟨vs, by rw [hv, (touches_State.ringPut _ _ _ _ _ _).hif (by decide), hz, e1, e0]⟩

theorem raise_hif (s : State) (src : Nat) (obj : Option Nat) (code detail : Nat) :
    ∃ vs, (s.raise src obj code detail).hif = { s.hif with vecs := vs } := raiseWith_hif rfl

/-! ### CXL.mem (R418 to R420) -/

theorem place379_of {s t : State} (h : t.rd rMEM_MAP = s.rd rMEM_MAP) (o : Nat) : t.place379 o = s.place379 o := by
  unfold State.place379 State.grain
  rw [fld_of_rd h, flag_of_rd h]

theorem lineErr_of {s t : State} (h : t.badLines = s.badLines) (hm : t.mem = s.mem) (hr : t.rd rMEM_MAP = s.rd rMEM_MAP) (l : Nat) :
    t.lineErr l = s.lineErr l := by
  unfold State.lineErr
  rw [h, hm, place379_of hr]

theorem lineBad_of {s t : State} (h : t.badLines = s.badLines) (hm : t.mem = s.mem) (hr : t.rd rMEM_MAP = s.rd rMEM_MAP) (l : Nat) :
    t.lineBad l = s.lineBad l := by rw [State.lineBad, lineErr_of h hm hr, State.lineBad]

section

variable {n : Fin (2 ^ 46)} {s : State}

theorem cxlMemRead_runs {t : State} (hg : s.glb ≠ 0) (e : s.cxlRead (64 * n) = t) : exec (.cxlMemRead n) s = .next t := next_live hg e

theorem cxlRead_uncovered (hg : s.glb ≠ 0) (hm : s.cxlMode = true) (h0 : s.hif.hdm0.dpa (64 * n) = none) (h1 : s.hif.hdm1.dpa (64 * n) = none) :
    exec (.cxlMemRead n) s = .next ((s.addSat rGLB_HIF_ERR fGLB_HIF_ERR_UR 1).send (.memRead [] true)) := by
  refine cxlMemRead_runs hg ((if_neg (by rw [hm]; decide)).trans ?_)
  rw [h0, h1]
  rfl

theorem cxlRead_covered (hm : s.cxlMode = true) (hsr : s.selfRefresh = false) {hpa o : Nat} (h0 : s.hif.hdm0.dpa hpa = some o) {u : State}
    (e : (if (s.billet (o / billetBytes)).hbias then s else (s.addSat rGLB_HIF_ERR fGLB_HIF_ERR_DEVBIAS_RD 1).raiseLim 1000000 996) = u) :
    s.cxlRead hpa = (if u.lineBad (o / 64) then u.send .rasDataEcc else u).send (.memRead (u.store.read 0 (64 * (o / 64)) 64) (u.lineBad (o / 64))) := by
  refine (if_neg (by rw [hm]; decide)).trans ?_
  rw [h0]
  dsimp only [Option.orElse]
  rw [srExit_off hsr, e]

theorem cxlRead_hostBias {o : Nat} (hg : s.glb ≠ 0) (hm : s.cxlMode = true) (hsr : s.selfRefresh = false) (h0 : s.hif.hdm0.dpa (64 * n) = some o)
    (hb : (s.billet (o / 16384)).hbias = true) : exec (.cxlMemRead n) s = .next ((if s.lineBad (o / 64) then s.send .rasDataEcc else s).send
          (.memRead (s.store.read 0 (64 * (o / 64)) 64) (s.lineBad (o / 64)))) :=
  cxlMemRead_runs hg (cxlRead_covered hm hsr h0 (if_pos hb))

/-- A read of a line whose billet is in device bias is counted. -/
theorem cxlRead_deviceBias {o : Nat} (hg : s.glb ≠ 0) (hm : s.cxlMode = true) (hsr : s.selfRefresh = false) (h0 : s.hif.hdm0.dpa (64 * n) = some o)
    (hb : (s.billet (o / 16384)).hbias = false) : completes (.cxlMemRead n) s fun t => t.store = s.store ∧
          t.fld rGLB_HIF_ERR fGLB_HIF_ERR_DEVBIAS_RD = satN 16 (s.fld rGLB_HIF_ERR fGLB_HIF_ERR_DEVBIAS_RD + 1) ∧
          t.outs.getLast? = some (.memRead (s.store.read 0 (64 * (o / 64)) 64) (s.lineBad (o / 64))) ∧
          onlyIn mEvent [rGLB_HIF_ERR] [996] s t := by
  have e := cxlMemRead_runs (n := n) hg (cxlRead_covered hm hsr h0 (if_neg (by rw [show billetBytes = 16384 from rfl, hb]; decide)))
  have f := State.fld_addSat_self s rGLB_HIF_ERR fGLB_HIF_ERR_DEVBIAS_RD 1 (by decide)
  have k1 : onlyIn (mEvent ||| mGlb) [rGLB_HIF_ERR] [996] s (s.addSat rGLB_HIF_ERR fGLB_HIF_ERR_DEVBIAS_RD 1) := .addSat (.refl _ _ _ _)
  generalize s.addSat rGLB_HIF_ERR _ _ = w at *
  have k2 : onlyIn mEvent [rGLB_HIF_ERR] [996] s (w.raiseLim 1000000 996) := .of_hi (.raiseLim k1) (by decide)
  have f2 := State.fld_raiseLim_other w 1000000 996 none 0 0 0 rGLB_HIF_ERR fGLB_HIF_ERR_DEVBIAS_RD (by decide)
  generalize w.raiseLim 1000000 996 = u at *
  have hst : u.store = s.store := k2.1.store (by decide)
  have hbl := lineBad_of (k2.1.badLines (by decide)) (k2.1.mem (by decide)) (k2.rd_apart (by decide) (by decide) (by decide)) (o / 64)
  rw [hst, hbl] at e
  have k3 : onlyIn mEvent [rGLB_HIF_ERR] [996] s (if s.lineBad (o / 64) then u.send .rasDataEcc else u) := .ite (.send k2 _) k2
  have k4 : (if s.lineBad (o / 64) then u.send .rasDataEcc else u).regs = u.regs := by
    split
    · exact State.send_regs _ _
    · rfl
  generalize (if s.lineBad (o / 64) then u.send .rasDataEcc else u) = x at *
  refine ⟨_, e, ?_, ?_, ?_, .send k3 _⟩
  · rw [State.send_store, k3.1.store (by decide)]
  · rw [State.fld_congr (State.send_regs _ _), State.fld_congr k4, f2, f]
  · rw [State.send, List.getLast?_append, List.getLast?_singleton]
    rfl

/-- A write changes nothing of the store. -/
theorem cxlMemWrite_discarded (hg : s.glb ≠ 0) (hm : s.cxlMode = true) : completes .cxlMemWrite s fun t => t.store = s.store ∧
      t.fld rGLB_HIF_ERR fGLB_HIF_ERR_MEM_WR_DISC = satN 16 (s.fld rGLB_HIF_ERR fGLB_HIF_ERR_MEM_WR_DISC + 1) ∧
      t.outs.getLast? = some .memWriteDone ∧ onlyIn mEvent [rGLB_HIF_ERR] [995] s t := by
  have e : exec .cxlMemWrite s = .next (((s.addSat rGLB_HIF_ERR fGLB_HIF_ERR_MEM_WR_DISC 1).raiseLim 1000000 995).send .memWriteDone) :=
    next_live hg (if_neg (by rw [hm]; decide))
  have f := State.fld_addSat_self s rGLB_HIF_ERR fGLB_HIF_ERR_MEM_WR_DISC 1 (by decide)
  have k1 : onlyIn (mEvent ||| mGlb) [rGLB_HIF_ERR] [995] s (s.addSat rGLB_HIF_ERR fGLB_HIF_ERR_MEM_WR_DISC 1) := .addSat (.refl _ _ _ _)
  generalize s.addSat rGLB_HIF_ERR _ _ = w at *
  have k2 : onlyIn mEvent [rGLB_HIF_ERR] [995] s (w.raiseLim 1000000 995) := .of_hi (.raiseLim k1) (by decide)
  have f2 := State.fld_raiseLim_other w 1000000 995 none 0 0 0 rGLB_HIF_ERR fGLB_HIF_ERR_MEM_WR_DISC (by decide)
  generalize w.raiseLim 1000000 995 = u at *
  refine ⟨_, e, ?_, ?_, ?_, .send k2 _⟩
  · rw [State.send_store, k2.1.store (by decide)]
  · rw [State.fld_congr (State.send_regs _ _), f2, f]
  · rw [State.send, List.getLast?_append, List.getLast?_singleton]
    rfl

end

/-! ### The decoders (R419) -/

section

variable {s : State} {one lock : Bool} {base size skip ways : Nat}

theorem hdmCommit_runs {t : State} (hg : s.glb ≠ 0) (e : s.hdmCommit one base size skip ways lock = t) :
    exec (.hdmCommit one base size skip ways lock) s = .next t := next_live hg e

theorem hdmCommit_locked (hg : s.glb ≠ 0) (h : (if one then s.hif.hdm1 else s.hif.hdm0).locked = true) :
    exec (.hdmCommit one base size skip ways lock) s = .next s := hdmCommit_runs hg (if_pos h)

theorem hdmCommit_legal (hg : s.glb ≠ 0) (h : (if one then s.hif.hdm1 else s.hif.hdm0).locked = false) (hw : ways = 1) (hz : 0 < size)
    (ha : size % 2 ^ 28 = 0) (hs : skip + size ≤ 30064771072)
    (ho : (if one then s.hif.hdm0 else s.hif.hdm1).committed = true →
      overlaps skip size (if one then s.hif.hdm0 else s.hif.hdm1).skip (if one then s.hif.hdm0 else s.hif.hdm1).size = false) :
    exec (.hdmCommit one base size skip ways lock) s = .next (s.updHif fun h => if one then { h with hdm1 := ⟨base, size, skip, true, false, lock⟩ }
      else { h with hdm0 := ⟨base, size, skip, true, false, lock⟩ }) := by
  refine hdmCommit_runs hg ((if_neg (by rw [h]; decide)).trans (if_pos ?_))
  simp only [Bool.and_eq_true, decide_eq_true_eq, bne_iff_ne, beq_iff_eq, Bool.not_eq_true']
  refine ⟨⟨⟨⟨hw, by omega⟩, ha⟩, hs⟩, ?_⟩
  cases hc : (if one then s.hif.hdm0 else s.hif.hdm1).committed with
  | false => rfl
  | true => rw [ho hc, Bool.and_false]

/-- An illegal first decoder is marked. -/
theorem hdmCommit_illegal (hg : s.glb ≠ 0) (h : s.hif.hdm0.locked = false) (hb : ways ≠ 1 ∨ size = 0 ∨ size % 2 ^ 28 ≠ 0 ∨ 30064771072 < skip + size) :
      completes (.hdmCommit false base size skip ways lock) s fun t => t.hif.hdm0 = ⟨base, size, skip, false, true, false⟩ ∧
        t.hif.hdm1 = s.hif.hdm1 ∧ onlyIn mEvent [] [998] s t := by
  have e : exec (.hdmCommit false base size skip ways lock) s =
      .next ((s.updHif fun h => { h with hdm0 := ⟨base, size, skip, false, true, false⟩ }).raise 998) := by
    refine hdmCommit_runs hg ((if_neg (by rw [if_neg (by decide), h]; decide)).trans ((if_neg ?_).trans rfl))
    simp only [Bool.and_eq_true, decide_eq_true_eq, bne_iff_ne, beq_iff_eq, storeBytes]
    intro ⟨⟨⟨⟨h1, h2⟩, h3⟩, h4⟩, _⟩
    omega
  have k1 : onlyIn mEvent [] [998] s (s.updHif fun h => { h with hdm0 := ⟨base, size, skip, false, true, false⟩ }) :=
    .other (.refl _ _ _ _) (touches_State.updHif _ _) (by decide) (State.updHif_regs _ _)
  have h1 : (s.updHif fun h => { h with hdm0 := ⟨base, size, skip, false, true, false⟩ }).hif =
      { s.hif with hdm0 := ⟨base, size, skip, false, true, false⟩ } := rfl
  generalize s.updHif _ = u at *
  obtain ⟨vs, hv⟩ := raise_hif u 998 none 0 0
  exact ⟨_, e, by rw [hv, h1], by rw [hv, h1], .raise k1⟩

end

end Sys2Proof

end

section
/-! SUPPORT. The link trains, goes down and is reset (R415, R416, R431). -/

set_option Elab.async false

namespace Sys2Proof

open Sys2Proof.Machine

/-! ### What leaves the registers of the GLB window alone -/

theorem glbKeeps_admCapture (s : State) : keeps 0 0x10000 s s.admCapture := by
  unfold State.admCapture
  refine .overList (.wr (.wr (.addMod (.refl _ _ _) (by decide)) _ (by decide)) _ (by decide)) fun t r _ => .wr (.refl _ _ _) _ ?_
  simp only [rADM_RES]
  omega

theorem glbKeeps_admNote (s : State) (o : Option AdmFail) : keeps 0 0x10000 s (s.admNote o) := by
  unfold State.admNote
  cases o with
  | none => exact (keeps.setFld (.refl _ _ _) (by decide)).trans (glbKeeps_admCapture _)
  | some f =>
    have k : keeps 0 0x10000 s (s.setFlds rADM_STATUS [(fADM_STATUS_REASON, f.1), (fADM_STATUS_RESOURCE, f.2.1), (fADM_STATUS_CONTEXT, f.2.2)]) :=
      .setFlds (.refl _ _ _) (by decide)
    exact .ite (k.trans (glbKeeps_admCapture _)) ((keeps.raise (k.setFld (by decide)) (by decide)).trans (glbKeeps_admCapture _))

theorem glbKeeps_admRetest (s : State) : keeps 0 0x10000 s s.admRetest := by
  unfold State.admRetest
  exact (keeps.setFld (.refl _ _ _) (by decide)).trans (glbKeeps_admNote _ _)

theorem glbKeeps_lostRecord (s : State) : keeps 0 0x10000 s s.lostRecord := by
  unfold State.lostRecord
  exact .ite (.other (.raise (.refl _ _ _) (by decide)) (touches_State.onEvt _ _)) (.refl _ _ _)

/-! ### Training (R415, R416) -/

/-- The link's registers as training leaves them. -/
def linkTrainedRegs (s : State) (w r : Nat) (c : Bool) : State :=
  ((s.setFlds rGLB_HIF_LINK [(fGLB_HIF_LINK_WIDTH, w), (fGLB_HIF_LINK_RATE, r), (fGLB_HIF_LINK_CXL, b2n c)]).setFld
    rGLB_STATUS fGLB_STATUS_CXL_MODE (b2n c)).addSat rGLB_HIF_LINK fGLB_HIF_LINK_RETRAINS 1

theorem b2n_lt (c : Bool) : b2n c % 2 ^ 1 = b2n c := by cases c <;> rfl

theorem b2n_ne_zero (c : Bool) : (b2n c != 0) = c := by cases c <;> rfl

theorem linkTrainedRegs_effect {s : State} {w r : Nat} {c : Bool} (hw : w < 4) (hr : r < 8) {u : State} (e : linkTrainedRegs s w r c = u) :
    u.fld rGLB_HIF_LINK fGLB_HIF_LINK_WIDTH = w ∧ u.fld rGLB_HIF_LINK fGLB_HIF_LINK_RATE = r ∧ u.flag rGLB_HIF_LINK fGLB_HIF_LINK_CXL = c ∧
      u.cxlMode = c ∧ u.glb = s.glb ∧ u.fld rGLB_HIF_LINK fGLB_HIF_LINK_RETRAINS = satN 16 (s.fld rGLB_HIF_LINK fGLB_HIF_LINK_RETRAINS + 1) ∧
      u.store = s.store ∧ u.time = s.time ∧ u.ctxs = s.ctxs := by
  subst e
  unfold linkTrainedRegs
  refine ⟨?_, ?_, ?_, ?_, ?_, ?_, ?_, ?_, ?_⟩
  · simp (disch := decide)
    exact hw
  · simp (disch := decide)
    exact hr
  · simp (disch := decide) [State.flag]
    cases c <;> rfl
  · simp (disch := decide) [State.cxlMode, State.flag]
    cases c <;> rfl
  · simp (disch := decide) [State.glb, -State.fld_setFlds_cons, State.fld_setFlds_other]
  · simp (disch := decide)
  · rw [State.addSat_store, State.setFld_store, State.setFlds_store]
  · rw [State.addSat_time, State.setFld_time, State.setFlds_time]
  · rw [State.addSat_ctxs, State.setFld_ctxs, State.setFlds_ctxs]

/-- What follows training leaves those registers as they are. -/
theorem linkRetrain_keeps (s : State) (width rate : Nat) (cxl : Bool) {t : State} (e : s.linkRetrain width rate cxl = t) :
    keeps 0 0x10000 (linkTrainedRegs s (max 1 (min width 3)) (min rate 4) (cxl && decide (2 ≤ min rate 4))) t ∧
      Touches mEvent (linkTrainedRegs s (max 1 (min width 3)) (min rate 4) (cxl && decide (2 ≤ min rate 4))) t := by
  unfold State.linkRetrain at e
  dsimp only at e
  have hd : linkTrainedRegs s (max 1 (min width 3)) (min rate 4) (cxl && decide (2 ≤ min rate 4)) = ((s.setFlds rGLB_HIF_LINK
      [(fGLB_HIF_LINK_WIDTH, max 1 (min width 3)), (fGLB_HIF_LINK_RATE, min rate 4), (fGLB_HIF_LINK_CXL, b2n (cxl && decide (2 ≤ min rate 4)))]).setFld
    rGLB_STATUS fGLB_STATUS_CXL_MODE (b2n (cxl && decide (2 ≤ min rate 4)))).addSat rGLB_HIF_LINK fGLB_HIF_LINK_RETRAINS 1 := rfl
  rw [← hd] at e
  generalize linkTrainedRegs s _ _ _ = u at *
  have q2 : keeps 0 0x10000 u (if s.hif.downSaid then (u.updHif fun h => { h with downSaid := false }).raise 1002 else u) ∧
      Touches mEvent u (if s.hif.downSaid then (u.updHif fun h => { h with downSaid := false }).raise 1002 else u) := by
    split
    · exact ⟨.raise (.other (.refl _ _ _) (touches_State.updHif _ _)) (by decide),
        ((touches_State.updHif _ _).mono (by decide)).trans (touches_State.raise _ _ _ _ _)⟩
    · exact ⟨.refl _ _ _, .refl _ _⟩
  obtain ⟨k2, t2⟩ := q2
  generalize (if s.hif.downSaid then (u.updHif fun h => { h with downSaid := false }).raise 1002 else u) = v at *
  have q3 (f : Hif → Hif) (b : Bool) : keeps 0 0x10000 u (if b then ((v.updHif f).raise 992).admRetest else v) ∧
      Touches mEvent u (if b then ((v.updHif f).raise 992).admRetest else v) := by
    split
    · exact ⟨(keeps.raise (.other k2 (touches_State.updHif _ _)) (by decide)).trans (glbKeeps_admRetest _),
        (t2.trans ((touches_State.updHif _ _).mono (by decide))).trans ((touches_State.raise _ _ _ _ _).trans (touches_State.admRetest _))⟩
    · exact ⟨k2, t2⟩
  obtain ⟨k3, t3⟩ := q3 (fun h => { h with cdatSeq := h.cdatSeq + 1, bw := linkLanes (max 1 (min width 3)) * linkHalfGt (min rate 4) })
    (s.fld rGLB_HIF_LINK fGLB_HIF_LINK_WIDTH != max 1 (min width 3) || s.fld rGLB_HIF_LINK fGLB_HIF_LINK_RATE != min rate 4)
  generalize (if (s.fld rGLB_HIF_LINK fGLB_HIF_LINK_WIDTH != max 1 (min width 3) || s.fld rGLB_HIF_LINK fGLB_HIF_LINK_RATE != min rate 4) then _
    else v) = w at *
  rw [← e]
  exact ⟨(k3.trans (glbKeeps_lostRecord w)).other (touches_State.sendPending _), (t3.trans (touches_State.lostRecord w)).trans
    ((touches_State.sendPending _).mono (by decide))⟩

theorem linkRetrain_effect (w r : Nat) (cxl : Bool) {s : State} (hg : s.glb ≠ 0) : completes (.linkRetrain w r cxl) s fun t =>
      t.fld rGLB_HIF_LINK fGLB_HIF_LINK_WIDTH = max 1 (min w 3) ∧ t.fld rGLB_HIF_LINK fGLB_HIF_LINK_RATE = min r 4 ∧
      t.flag rGLB_HIF_LINK fGLB_HIF_LINK_CXL = (cxl && 2 ≤ r) ∧ t.cxlMode = (cxl && 2 ≤ r) ∧ t.glb = s.glb ∧
      t.fld rGLB_HIF_LINK fGLB_HIF_LINK_RETRAINS = satN 16 (s.fld rGLB_HIF_LINK fGLB_HIF_LINK_RETRAINS + 1) ∧
      t.store = s.store ∧ t.time = s.time ∧ t.ctxs = s.ctxs := by
  obtain ⟨k, tt⟩ := linkRetrain_keeps s w r cxl rfl
  have e : exec (.linkRetrain w r cxl) s = .next (s.linkRetrain w r cxl) := next_live hg rfl
  generalize s.linkRetrain w r cxl = t at *
  obtain ⟨h1, h2, h3, h4, h5, h6, h7, h8, h9⟩ := linkTrainedRegs_effect (s := s) (w := max 1 (min w 3)) (r := min r 4)
    (c := cxl && decide (2 ≤ min r 4)) (by omega) (by omega) rfl
  generalize linkTrainedRegs s _ _ _ = u at *
  have hc : (cxl && decide (2 ≤ min r 4)) = (cxl && decide (2 ≤ r)) := by
    congr 1
    exact decide_eq_decide.mpr (by omega)
  rw [hc] at h3 h4
  exact ⟨t, e, (k.fld _ _ (by decide)).trans h1, (k.fld _ _ (by decide)).trans h2, (k.flag _ _ (by decide)).trans h3,
    (k.flag _ _ (by decide)).trans h4, (k.fld _ _ (by decide)).trans h5, (k.fld _ _ (by decide)).trans h6, (tt.store (by decide)).trans h7,
    (tt.time (by decide)).trans h8, (tt.ctxs (by decide)).trans h9⟩

end Sys2Proof

end

section
/-! SUPPORT. The link goes down, the function is reset, a CXL Reset, and O49 (R431). -/

set_option Elab.async false

namespace Sys2Proof

open Sys2Proof.Machine

/-! ### Halting the channels -/

theorem glbKeeps_settle (s : State) (x : Nat) : keeps 0 0x10000 s (s.settle x) := (onlyIn_settle s x).keeps (by decide) (by simp)

theorem glbKeeps_settleBillet (s : State) (b : Nat) : keeps 0 0x10000 s (s.settleBillet b) := (onlyIn_settleBillet s b).keeps (by decide) (by simp)

theorem glbKeeps_finishTo (s : State) (x d p : Nat) : keeps 0 0x10000 s (s.finishTo x d p) := (onlyIn_finishTo s x d p).keeps (by decide) (by simp)

theorem dmaRegs_high (c : Nat) : 0x10000 ≤ rDMA_STATUS c ∧ 0x10000 ≤ rDMA_BYTES c ∧ 0x10000 ≤ rDMA_ERR c ∧ 0x10000 ≤ rDMA_ERR_INFO c := by
  simp only [rDMA_STATUS, rDMA_BYTES, rDMA_ERR, rDMA_ERR_INFO]
  omega

theorem glbKeeps_dropRefs (s : State) (bs : List Nat) : keeps 0 0x10000 s (s.dropRefs bs) := by
  unfold State.dropRefs
  exact .overList (.refl _ _ _) fun t b _ => (keeps.other (.refl _ _ _) (touches_State.setBillet _ _ _)).trans (glbKeeps_settleBillet _ b)

theorem glbKeeps_untake (s : State) (c : Nat) : keeps 0 0x10000 s (s.untake c) := .other (.refl _ _ _) (touches_State.untake s c)

/-- The end of a descriptor that is aborted. -/
theorem glbKeeps_dmaAborted (s : State) (c stop : Nat) : keeps 0 0x10000 s (s.dmaEnd c dsAborted noBeat 0 stop) := by
  obtain ⟨r1, r2, -, -⟩ := dmaRegs_high c
  unfold State.dmaEnd
  dsimp only
  have hne : ¬ dsAborted = dsDone := by decide
  simp only [hne, if_false, if_true]
  have k1 := (glbKeeps_untake s c).trans (glbKeeps_dropRefs (s.untake c) (s.dmaCh c).refs)
  generalize (s.untake c).dropRefs (s.dmaCh c).refs = u at *
  have k2 (a : Nat) (bs : List Byte) : keeps 0 0x10000 s (if (s.dmaCh c).crec && u.busOk then u.hostWrite a bs else u) :=
    .ite (.other k1 (touches_State.hostWrite _ _ _)) k1
  have k2 := k2 (s.dmaCh c).comp (s.compRecord c dsAborted noBeat 0)
  generalize (if (s.dmaCh c).crec && u.busOk then _ else u) = v at *
  have k3 : keeps 0 0x10000 s (((v.addMod (rDMA_STATUS c) fDMA_STATUS_DESCS 1).setFld (rDMA_STATUS c) fDMA_STATUS_LAST dsAborted).addMod
    (rDMA_BYTES c) fDMA_BYTES_BYTES (s.dmaCh c).bytes) := .addMod (.setFld (.addMod k2 (.inr r1)) (.inr r1)) (.inr r2)
  generalize ((v.addMod (rDMA_STATUS c) _ _).setFld _ _ _).addMod (rDMA_BYTES c) _ _ = w at *
  have k4 (f : SMap Port → SMap Port) : keeps 0 0x10000 s ((w.onPorts f).setDma c dma0) :=
    .other (.other k3 (touches_State.onPorts _ _)) (touches_State.setDma _ _ _)
  unfold State.dmaEvent State.setDmaState
  exact .raise (.setFld (k4 _) (.inr r1)) (.inl (by decide))

theorem glbKeeps_dmaKill (s : State) (c stop : Nat) : keeps 0 0x10000 s (s.dmaKill c stop) := by
  obtain ⟨r1, -, -, -⟩ := dmaRegs_high c
  unfold State.dmaKill
  dsimp only
  generalize (s.dmaCh c).phase = ph
  cases ph with
  | none => exact .ite (c := stop = 3) (.setFld (.refl _ _ _) (.inr r1)) (.refl _ _ _)
  | fetch a b f =>
    unfold State.dmaEvent State.setDmaState
    exact .raise (.setFld (.other (.setFld (.addMod (.refl _ _ _) (.inr r1)) (.inr r1)) (touches_State.setDma _ _ _)) (.inr r1)) (.inl (by decide))
  | ready => exact glbKeeps_dmaAborted s c stop
  | moving => exact glbKeeps_dmaAborted s c stop
  | moved a b d => exact glbKeeps_dmaAborted s c stop

theorem glbKeeps_dmaHaltAll (s : State) : keeps 0 0x10000 s s.dmaHaltAll := .overList (.refl _ _ _) fun t c _ => glbKeeps_dmaKill t c 3

/-- Channels that hold nothing are HALTED. -/
theorem dmaHalt_list (l : List Nat) (s : State) (h : s.dma = []) {t : State} (e : l.foldl (fun (t : State) c => t.dmaKill c 3) s = t) :
    t = l.foldl (fun (t : State) c => t.setDmaState c 3) s := by
  induction l generalizing s with
  | nil => exact e.symm
  | cons c l ih =>
    have hk : s.dmaKill c 3 = s.setDmaState c 3 := by
      have hp : (s.dmaCh c).phase = .none := by
        rw [State.dmaCh, h]
        rfl
      unfold State.dmaKill
      dsimp only
      rw [hp]
      exact if_pos rfl
    rw [List.foldl_cons, hk] at e
    rw [List.foldl_cons]
    exact ih _ ((State.setFld_dma _ _ _ _).trans h) e

theorem setDmaState_list (l : List Nat) (s : State) (hl : ∀ c ∈ l, c < 128) {t : State} (e : l.foldl (fun (t : State) c => t.setDmaState c 3) s = t) :
    (∀ c, c ∈ l ∨ s.dmaState c = 3 → t.dmaState c = 3) ∧ t.hif = s.hif ∧ onlyIn mRegs ((upTo 128).map rDMA_STATUS) [] s t := by
  induction l generalizing s with
  | nil =>
    subst e
    exact ⟨fun c h => h.resolve_left (by simp), rfl, .refl _ _ _ _⟩
  | cons c l ih =>
    rw [List.foldl_cons] at e
    have hc : c < 128 := hl c (by simp)
    have k : onlyIn mRegs ((upTo 128).map rDMA_STATUS) [] s (s.setDmaState c 3) :=
      .of_hi (.setFld (.refl _ _ _ _) (List.mem_map.mpr ⟨c, List.mem_range.mpr hc, rfl⟩)) fun a ha => by
        obtain ⟨k, -, rfl⟩ := List.mem_map.mp ha
        simp only [rDMA_STATUS]
        omega
    have f1 : (s.setDmaState c 3).dmaState c = 3 := State.fld_setFld_self _ _ _ _ (by decide)
    have f2 (k : Nat) (hk : k ≠ c) : (s.setDmaState c 3).dmaState k = s.dmaState k :=
      State.fld_setFld_other _ _ _ _ (by simp only [rDMA_STATUS]; omega)
    obtain ⟨h1, h2, h3⟩ := ih (s.setDmaState c 3) (fun k hk => hl k (by simp [hk])) e
    refine ⟨fun k hk => ?_, h2.trans (State.setFld_hif _ _ _ _), k.trans h3⟩
    by_cases hne : k = c
    · exact h1 k (.inr (hne ▸ f1))
    · exact h1 k (hk.imp (fun h => (List.mem_cons.mp h).resolve_left hne) fun h => (f2 k hne).trans h)

/-! ### The function is reset (Table 19-5) -/

theorem fnReset_effect {s : State} (h : s.dma = []) {t : State} (e : s.fnReset = t) :
    t.hif = { s.hif with bme := false, fnMasked := false, vecs := [] } ∧ t.fld rEVT_CTRL fEVT_CTRL_RING_EN = 0 ∧ (∀ c < 128, t.dmaState c = 3) ∧
      onlyIn (mRegs ||| mHif ||| mDma) ([rEVT_CTRL] ++ (upTo 128).map rDMA_STATUS) [] s t := by
  unfold State.fnReset State.dmaHaltAll at e
  have k1 : onlyIn (mRegs ||| mHif ||| mDma) ([rEVT_CTRL] ++ (upTo 128).map rDMA_STATUS) [] s
      (s.updHif fun h => { h with bme := false, fnMasked := false, vecs := [] }) :=
    .other (.refl _ _ _ _) (touches_State.updHif _ _) (by decide) (State.updHif_regs _ _)
  have d1 : (s.updHif fun h => { h with bme := false, fnMasked := false, vecs := [] }).dma = [] := ((touches_State.updHif _ _).dma (by decide)).trans h
  have v1 : (s.updHif fun h => { h with bme := false, fnMasked := false, vecs := [] }).hif =
    { s.hif with bme := false, fnMasked := false, vecs := [] } := rfl
  generalize s.updHif _ = u at *
  rw [dmaHalt_list (upTo 128) u d1 rfl] at e
  obtain ⟨a1, a2, a3⟩ := setDmaState_list (upTo 128) u (fun c hc => List.mem_range.mp hc) rfl
  generalize (upTo 128).foldl _ u = w at *
  have k2 : onlyIn (mRegs ||| mHif ||| mDma ||| mGlb) ([rEVT_CTRL] ++ (upTo 128).map rDMA_STATUS) [] s w :=
    (k1.mono (by decide) (fun _ h => h) (fun _ h => h)).trans (a3.mono (by decide) (List.subset_append_right _ _) (fun _ h => h))
  refine ⟨?_, ?_, fun c hc => ?_, ?_⟩
  · rw [← e, State.setFld_hif, a2, v1]
  · rw [← e, State.fld_setFld_self _ _ _ _ (by decide)]
    rfl
  · rw [← e, State.dmaState, State.fld_setFld_other _ _ _ _ (by simp only [rDMA_STATUS, rEVT_CTRL]; omega)]
    exact a1 c (.inl (List.mem_range.mpr hc))
  · rw [← e]
    refine .of_hi (.setFld k2 (List.mem_append_left _ (by simp))) fun a ha => ?_
    obtain ha | ha := List.mem_append.mp ha
    · rw [List.mem_singleton.mp ha]
      decide
    · obtain ⟨k, -, rfl⟩ := List.mem_map.mp ha
      simp only [rDMA_STATUS]
      omega

theorem linkDown_effect {s : State} (hg : s.glb ≠ 0) (hw : s.fld rGLB_HIF_LINK fGLB_HIF_LINK_WIDTH ≠ 0) (hd : s.dma = []) :
      completes .linkDown s fun t => t.fld rGLB_HIF_LINK fGLB_HIF_LINK_WIDTH = 0 ∧ t.hif.bme = false ∧ t.hif.vecs = [] ∧
        t.hif.downSaid = true ∧ t.flag rEVT_CTRL fEVT_CTRL_RING_EN = false ∧ (∀ c < 128, t.dmaState c = 3) ∧
        t.fld rGLB_HIF_LINK fGLB_HIF_LINK_DOWNS = satN 16 (s.fld rGLB_HIF_LINK fGLB_HIF_LINK_DOWNS + 1) ∧
        t.fld rGLB_HIF_RESET fGLB_HIF_RESET_LAST = 3 ∧
        onlyIn (mRegs ||| mHif ||| mDma) ([rGLB_HIF_LINK, rGLB_HIF_RESET, rEVT_CTRL] ++ (upTo 128).map rDMA_STATUS) [] s t := by
  have hin (c : Nat) : rDMA_STATUS c ≠ rGLB_HIF_RESET := by simp only [rDMA_STATUS, rGLB_HIF_RESET]; omega
  have hl : ∀ a ∈ [rGLB_HIF_LINK, rGLB_HIF_RESET, rEVT_CTRL] ++ (upTo 128).map rDMA_STATUS, 0x1000 ≤ a := fun a ha => by
    obtain ha | ha := List.mem_append.mp ha
    · simp only [List.mem_cons, List.not_mem_nil, or_false] at ha
      obtain rfl | rfl | rfl := ha <;> decide
    · obtain ⟨k, -, rfl⟩ := List.mem_map.mp ha
      simp only [rDMA_STATUS]
      omega
  have e : exec .linkDown s = .next ((((s.setFld rGLB_HIF_LINK fGLB_HIF_LINK_WIDTH 0).addSat rGLB_HIF_LINK fGLB_HIF_LINK_DOWNS 1).updHif fun h =>
      { h with downSaid := true }).fnReset.setFld rGLB_HIF_RESET fGLB_HIF_RESET_LAST 3) := next_live hg (if_neg hw)
  have k1 : onlyIn (mRegs ||| mHif ||| mDma ||| mGlb) ([rGLB_HIF_LINK, rGLB_HIF_RESET, rEVT_CTRL] ++ (upTo 128).map rDMA_STATUS) [] s
      ((s.setFld rGLB_HIF_LINK fGLB_HIF_LINK_WIDTH 0).addSat rGLB_HIF_LINK fGLB_HIF_LINK_DOWNS 1) :=
    .addSat (.setFld (.refl _ _ _ _) (List.mem_append_left _ (by simp))) (List.mem_append_left _ (by simp))
  have f1 : ((s.setFld rGLB_HIF_LINK fGLB_HIF_LINK_WIDTH 0).addSat rGLB_HIF_LINK fGLB_HIF_LINK_DOWNS 1).fld rGLB_HIF_LINK fGLB_HIF_LINK_WIDTH = 0 := by
    simp (disch := decide)
  have f2 : ((s.setFld rGLB_HIF_LINK fGLB_HIF_LINK_WIDTH 0).addSat rGLB_HIF_LINK fGLB_HIF_LINK_DOWNS 1).fld rGLB_HIF_LINK fGLB_HIF_LINK_DOWNS =
      satN 16 (s.fld rGLB_HIF_LINK fGLB_HIF_LINK_DOWNS + 1) := by simp (disch := decide)
  have d1 : ((s.setFld rGLB_HIF_LINK fGLB_HIF_LINK_WIDTH 0).addSat rGLB_HIF_LINK fGLB_HIF_LINK_DOWNS 1).dma = s.dma := by
    rw [State.addSat_dma, State.setFld_dma]
  generalize (s.setFld rGLB_HIF_LINK _ _).addSat _ _ _ = u at *
  have k2 := k1.other (touches_State.updHif u fun h => { h with downSaid := true }) (by decide) (State.updHif_regs _ _)
  have d2 : (u.updHif fun h => { h with downSaid := true }).dma = [] := ((touches_State.updHif _ _).dma (by decide)).trans (d1.trans hd)
  have r2 := State.updHif_regs u fun h => { h with downSaid := true }
  have v2 : (u.updHif fun h => { h with downSaid := true }).hif = { u.hif with downSaid := true } := rfl
  generalize u.updHif _ = v at *
  obtain ⟨g1, g2, g3, g4⟩ := fnReset_effect d2 rfl
  generalize v.fnReset = w at *
  have hlink : w.rd rGLB_HIF_LINK = u.rd rGLB_HIF_LINK := (g4.rd_apart (fun ha => by
    obtain ha | ha := List.mem_append.mp ha
    · exact absurd ha (by decide)
    · obtain ⟨k, -, hk⟩ := List.mem_map.mp ha
      simp only [rDMA_STATUS, rGLB_HIF_LINK] at hk
      omega) (.inl (by decide)) (by simp)).trans (State.rd_congr r2 _)
  have k3 : onlyIn (mRegs ||| mHif ||| mDma ||| mGlb) ([rGLB_HIF_LINK, rGLB_HIF_RESET, rEVT_CTRL] ++ (upTo 128).map rDMA_STATUS) [] s w :=
    k2.trans (g4.mono (by decide) (by simp) (fun _ h => h))
  refine ⟨_, e, ?_, ?_, ?_, ?_, ?_, fun c hc => ?_, ?_, State.fld_setFld_self _ _ _ _ (by decide), .of_hi (.setFld k3 (List.mem_append_left _ (by simp))) hl⟩
  · rw [State.fld_setFld_other _ _ _ _ (by decide), fld_of_rd hlink, f1]
  · rw [State.setFld_hif, g1]
  · rw [State.setFld_hif, g1]
  · rw [State.setFld_hif, g1, v2]
  · rw [State.flag, State.fld_setFld_other _ _ _ _ (by decide), g2]
    rfl
  · rw [State.dmaState, State.fld_setFld_other _ _ _ _ (hin c)]
    exact g3 c hc
  · rw [State.fld_setFld_other _ _ _ _ (by decide), fld_of_rd hlink, f2]

end Sys2Proof

end

section
/-! SUPPORT. The function level reset, the CXL Reset, and O49 (R431, R534). -/

set_option Elab.async false

namespace Sys2Proof

open Sys2Proof.Machine

/-! ### FLR -/

theorem mem_fnRegs_high {a : Nat} (l : List Nat) (hl : ∀ b ∈ l, 0x1000 ≤ b) (ha : a ∈ l ++ (upTo 128).map rDMA_STATUS) : 0x1000 ≤ a := by
  obtain ha | ha := List.mem_append.mp ha
  · exact hl a ha
  · obtain ⟨k, -, rfl⟩ := List.mem_map.mp ha
    simp only [rDMA_STATUS]
    omega

theorem flr_effect {s : State} (hg : s.glb ≠ 0) (hd : s.dma = []) :
    completes .flr s fun t => t.hif.bme = false ∧ t.flag rEVT_CTRL fEVT_CTRL_RING_EN = false ∧ (∀ c < 128, t.dmaState c = 3) ∧
      t.fld rGLB_HIF_RESET fGLB_HIF_RESET_LAST = 2 ∧
      t.fld rGLB_HIF_RESET fGLB_HIF_RESET_FLRS = satN 16 (s.fld rGLB_HIF_RESET fGLB_HIF_RESET_FLRS + 1) ∧
      onlyIn (mEvent ||| mDma) ([rGLB_HIF_RESET, rEVT_CTRL] ++ (upTo 128).map rDMA_STATUS) [1000] s t := by
  have hin (c : Nat) : rDMA_STATUS c ≠ rGLB_HIF_RESET := by simp only [rDMA_STATUS, rGLB_HIF_RESET]; omega
  have e : exec .flr s = .next ((((s.fnReset).setFld rGLB_HIF_RESET fGLB_HIF_RESET_LAST 2).addSat rGLB_HIF_RESET fGLB_HIF_RESET_FLRS 1).raise
    1000) := next_live hg rfl
  obtain ⟨g1, g2, g3, g4⟩ := fnReset_effect hd rfl
  generalize s.fnReset = w at *
  have hr : w.rd rGLB_HIF_RESET = s.rd rGLB_HIF_RESET := g4.rd_apart (fun ha => by
    obtain ha | ha := List.mem_append.mp ha
    · exact absurd ha (by decide)
    · obtain ⟨k, -, hk⟩ := List.mem_map.mp ha
      exact hin k hk) (.inl (by decide)) (by simp)
  have k1 : onlyIn (mEvent ||| mDma ||| mGlb) ([rGLB_HIF_RESET, rEVT_CTRL] ++ (upTo 128).map rDMA_STATUS) [1000] s
      ((w.setFld rGLB_HIF_RESET fGLB_HIF_RESET_LAST 2).addSat rGLB_HIF_RESET fGLB_HIF_RESET_FLRS 1) :=
    .addSat (.setFld (g4.mono (by decide) (by simp) (by simp)) (List.mem_append_left _ (by simp))) (List.mem_append_left _ (by simp))
  have f1 : ((w.setFld rGLB_HIF_RESET fGLB_HIF_RESET_LAST 2).addSat rGLB_HIF_RESET fGLB_HIF_RESET_FLRS 1).fld rGLB_HIF_RESET
      fGLB_HIF_RESET_LAST = 2 := by simp (disch := decide)
  have f2 : ((w.setFld rGLB_HIF_RESET fGLB_HIF_RESET_LAST 2).addSat rGLB_HIF_RESET fGLB_HIF_RESET_FLRS 1).fld rGLB_HIF_RESET
      fGLB_HIF_RESET_FLRS = satN 16 (s.fld rGLB_HIF_RESET fGLB_HIF_RESET_FLRS + 1) := by
    simp (disch := decide) [fld_of_rd hr]
  have f3 : ((w.setFld rGLB_HIF_RESET fGLB_HIF_RESET_LAST 2).addSat rGLB_HIF_RESET fGLB_HIF_RESET_FLRS 1).fld rEVT_CTRL fEVT_CTRL_RING_EN = 0 := by
    simp (disch := decide) [g2]
  have f4 (c : Nat) (hc : c < 128) : ((w.setFld rGLB_HIF_RESET fGLB_HIF_RESET_LAST 2).addSat rGLB_HIF_RESET fGLB_HIF_RESET_FLRS 1).dmaState c = 3 := by
    rw [State.dmaState, State.fld_addSat_other _ _ _ _ (hin c), State.fld_setFld_other _ _ _ _ (hin c)]
    exact g3 c hc
  have v1 : ((w.setFld rGLB_HIF_RESET fGLB_HIF_RESET_LAST 2).addSat rGLB_HIF_RESET fGLB_HIF_RESET_FLRS 1).hif.bme = false := by
    rw [State.addSat_hif, State.setFld_hif, g1]
  generalize (w.setFld rGLB_HIF_RESET _ _).addSat _ _ _ = u at *
  obtain ⟨vs, hv⟩ := raise_hif u 1000 none 0 0
  refine ⟨_, e, ?_, ?_, fun c hc => ?_, ?_, ?_, .of_hi (.raise k1 (by simp)) fun a => mem_fnRegs_high _ (by decide)⟩
  · rw [hv, v1]
  · rw [State.flag, fld_of_rd ((evtOnly.raise u 1000 none 0 0).2 rEVT_CTRL (by decide)), f3]
    rfl
  · rw [State.dmaState, State.fld_raise_other _ _ _ _ _ _ _ (by simp only [rDMA_STATUS]; omega)]
    exact f4 c hc
  · rw [State.fld_raise_other _ _ _ _ _ _ _ (by decide), f1]
  · rw [State.fld_raise_other _ _ _ _ _ _ _ (by decide), f2]

/-! ### CXL Reset -/

theorem touches_zcEnds (l : List Nat) (s : State) : Touches (mRegs ||| mCtxs ||| mBillets) s (l.foldl State.zcEnd s) :=
  .overList (.refl _ _) fun t b => touches_State.zcEnd t b

/-- One billet goes back to device bias, with no reference held by software. -/
def billetUnheld (t : State) (b : Nat) : State :=
  let x := t.billet b
  let t1 := if x.hbias then t.addMod rGLB_HIF_BIAS fGLB_HIF_BIAS_TO_DEVICE 1 else t
  (t1.setBillet b { x with swref := 0, defer := false, hbias := false, switch := none }).settleBillet b

theorem touches_billetUnheld (t : State) (b : Nat) : Touches (mRegs ||| mCtxs ||| mBillets) t (billetUnheld t b) := by
  unfold billetUnheld
  dsimp only
  have k : Touches (mRegs ||| mCtxs ||| mBillets) t (if (t.billet b).hbias then t.addMod rGLB_HIF_BIAS fGLB_HIF_BIAS_TO_DEVICE 1 else t) := by
    split
    · exact (touches_State.addMod_hi _ _ _ _ (by decide)).mono (by decide)
    · exact .refl _ _
  exact (k.trans ((touches_State.setBillet _ _ _).mono (by decide))).trans (touches_State.settleBillet _ _)

theorem cxlReset_eq (s : State) (m : Bool) : s.cxlReset m =
    (let u := (s.dpOrder dpCxl).updHif fun h => { h with hdm0 := ⟨0, 0, 0, false, false, false⟩, hdm1 := ⟨0, 0, 0, false, false, false⟩ }
    let v := (u.ctxs.map (·.1)).foldl State.zcEnd u
    let w := v.billets.foldl (fun (t : State) e => billetUnheld t e.1) v
    let x := if m then ((w.storeClear.onBadLines fun _ => []).onMem fun z => { z with lost := [] }) else w
    let y := x.setFld rGLB_HIF_RESET fGLB_HIF_RESET_LAST 1
    if y.glb = 4 then y.onRst fun z => { z with cxl := true } else y.dmaHaltAll.cxlResetDone) := rfl

/-- A running restart ends the CXL Reset; in any other state it ends at once. -/
theorem cxlReset_end {y t : State} (hl : y.fld rGLB_HIF_RESET fGLB_HIF_RESET_LAST = 1)
    (e : (if y.glb = 4 then y.onRst fun z => { z with cxl := true } else y.dmaHaltAll.cxlResetDone) = t) :
    t.fld rGLB_HIF_RESET fGLB_HIF_RESET_LAST = 1 ∧ t.store = y.store ∧ t.badLines = y.badLines ∧ t.mem = y.mem ∧ t.time = y.time ∧
      t.flash = y.flash ∧ (y.glb = 4 → t.glb = 4 ∧ t.rst.cxl = true ∧ t.hif = y.hif) := by
  split at e
  case isTrue h =>
    rw [← e]
    exact ⟨hl, rfl, rfl, rfl, rfl, rfl, fun _ => ⟨h, rfl, rfl⟩⟩
  case isFalse h =>
    have k := touches_State.dmaHaltAll y
    have f := ((glbKeeps_dmaHaltAll y).fld rGLB_HIF_RESET fGLB_HIF_RESET_LAST (by decide)).trans hl
    generalize y.dmaHaltAll = z at *
    have k2 := (k.mono (m' := mEvent ||| mCtxs ||| mBillets ||| mPorts ||| mDma) (by decide)).trans ((touches_State.cxlResetDone z).mono (by decide))
    have f2 : z.cxlResetDone.fld rGLB_HIF_RESET fGLB_HIF_RESET_LAST = 1 := by
      rw [State.cxlResetDone, State.fld_raise_other _ _ _ _ _ _ _ (by decide), State.fld_addSat_apart _ _ _ _ _ _ (by decide), f]
    rw [e] at k2 f2
    exact ⟨f2, k2.store (by decide), k2.badLines (by decide), k2.mem (by decide), k2.time (by decide), k2.flash (by decide), fun h4 => absurd h4 h⟩

theorem dpOrder_running {s : State} (hg : s.glb = 4) (cause : Nat) : s.dpOrder cause = s :=
  if_neg (by rw [State.ready, hg]; decide)

theorem dpOrder_ready {s : State} (hr : s.ready = true) (cause : Nat) : (s.dpOrder cause).glb = 4 := by
  rw [State.dpOrder, if_pos hr]
  exact (dpBegin_rst_glb s cause false [] false).1

theorem storeCleared {w x : State} (m : Bool) (e : (if m then ((w.storeClear.onBadLines fun _ => []).onMem fun z => { z with lost := [] }) else w) = x) :
    (m = true → (∀ a, x.store.byte 0 a = 0) ∧ x.badLines = [] ∧ x.mem.lost = []) ∧ (m = false → x.store = w.store) ∧
      Touches (mStore ||| mBadLines ||| mMem) w x := by
  cases m with
  | true =>
    rw [if_pos rfl] at e
    rw [← e]
    exact ⟨fun _ => ⟨fun _ => rfl, rfl, rfl⟩, nofun, ((touches_State.storeClear w).mono (m' := mStore ||| mBadLines ||| mMem) (by decide)).trans
      (((touches_State.onBadLines _ _).mono (m' := mStore ||| mBadLines ||| mMem) (by decide)).trans
        ((touches_State.onMem _ _).mono (m' := mStore ||| mBadLines ||| mMem) (by decide)))⟩
  | false =>
    rw [← e]
    exact ⟨nofun, fun _ => rfl, .refl _ _⟩

theorem cxlReset_effect {s t : State} {m : Bool} (e : s.cxlReset m = t) : t.fld rGLB_HIF_RESET fGLB_HIF_RESET_LAST = 1 ∧
      (m = true → (∀ a, t.store.byte 0 a = 0) ∧ t.badLines = [] ∧ t.mem.lost = []) ∧ t.time = s.time ∧ t.flash = s.flash ∧
      (s.ready = true → t.glb = 4 ∧ t.rst.cxl = true) ∧
      (s.glb = 4 → t.hif.hdm0 = ⟨0, 0, 0, false, false, false⟩ ∧ t.hif.hdm1 = ⟨0, 0, 0, false, false, false⟩ ∧ t.rst.cxl = true ∧
        (m = false → t.store = s.store)) := by
  rw [cxlReset_eq] at e
  dsimp only at e
  have k0 := touches_State.dpOrder s dpCxl
  have g0 := fun h => dpOrder_ready (s := s) h dpCxl
  have i0 := fun h => dpOrder_running (s := s) h dpCxl
  generalize s.dpOrder dpCxl = u at *
  have k1 := touches_State.updHif u fun h => { h with hdm0 := ⟨0, 0, 0, false, false, false⟩, hdm1 := ⟨0, 0, 0, false, false, false⟩ }
  have h1 : (u.updHif fun h => { h with hdm0 := ⟨0, 0, 0, false, false, false⟩, hdm1 := ⟨0, 0, 0, false, false, false⟩ }).hif.hdm0 =
    ⟨0, 0, 0, false, false, false⟩ := rfl
  have h2 : (u.updHif fun h => { h with hdm0 := ⟨0, 0, 0, false, false, false⟩, hdm1 := ⟨0, 0, 0, false, false, false⟩ }).hif.hdm1 =
    ⟨0, 0, 0, false, false, false⟩ := rfl
  generalize (u.updHif fun h => { h with hdm0 := ⟨0, 0, 0, false, false, false⟩, hdm1 := ⟨0, 0, 0, false, false, false⟩ }) = v at *
  have k2 := touches_zcEnds (v.ctxs.map (·.1)) v
  generalize (v.ctxs.map (·.1)).foldl State.zcEnd v = w at *
  have k3 : Touches (mRegs ||| mCtxs ||| mBillets) w (w.billets.foldl (fun (t : State) e => billetUnheld t e.1) w) :=
    .overList (.refl _ _) fun t b => touches_billetUnheld t b.1
  generalize w.billets.foldl _ w = x at *
  have k := (k1.mono (m' := mHif ||| mRegs ||| mCtxs ||| mBillets) (by decide)).trans ((k2.mono (by decide)).trans (k3.mono (by decide)))
  obtain ⟨c1, c2, c3⟩ := storeCleared m (w := x) rfl
  generalize (if m then ((x.storeClear.onBadLines fun _ => []).onMem fun z => { z with lost := [] }) else x) = y at *
  have hl := State.fld_setFld_self y rGLB_HIF_RESET fGLB_HIF_RESET_LAST 1 (by decide)
  have hgl : (y.setFld rGLB_HIF_RESET fGLB_HIF_RESET_LAST 1).glb = u.glb := by
    rw [State.glb, State.fld_setFld_other _ _ _ _ (by decide)]
    exact c3.glbState.trans k.glbState
  have ht := State.setFld_time y rGLB_HIF_RESET fGLB_HIF_RESET_LAST 1
  have hf := (touches_State.setFld y rGLB_HIF_RESET fGLB_HIF_RESET_LAST 1).flash (by decide)
  have hs := State.setFld_store y rGLB_HIF_RESET fGLB_HIF_RESET_LAST 1
  have hm := State.setFld_mem y rGLB_HIF_RESET fGLB_HIF_RESET_LAST 1
  have hb := State.setFld_badLines y rGLB_HIF_RESET fGLB_HIF_RESET_LAST 1
  have hh := State.setFld_hif y rGLB_HIF_RESET fGLB_HIF_RESET_LAST 1
  generalize y.setFld rGLB_HIF_RESET _ _ = z at *
  obtain ⟨e1, e2, e3, e4, e5, e6, e7⟩ := cxlReset_end hl e
  refine ⟨e1, fun h => ?_, ?_, ?_, fun h => ?_, fun h => ?_⟩
  · rw [e2, e3, e4, hs, hb, hm]
    exact c1 h
  · exact e5.trans (ht.trans ((c3.time (by decide)).trans ((k.time (by decide)).trans (k0.time (by decide)))))
  · exact e6.trans (hf.trans ((c3.flash (by decide)).trans ((k.flash (by decide)).trans (k0.flash (by decide)))))
  · obtain ⟨a, b, -⟩ := e7 (hgl.trans (g0 h))
    exact ⟨a, b⟩
  · have hu := i0 h
    obtain ⟨-, b, c⟩ := e7 (hgl.trans (hu ▸ h))
    have hv : t.hif.hdm0 = v.hif.hdm0 ∧ t.hif.hdm1 = v.hif.hdm1 := by
      have q := k2.hif (by decide)
      have q3 := k3.hif (by decide)
      rw [c, hh, c3.hif (by decide), q3, q]
      exact ⟨rfl, rfl⟩
    refine ⟨hv.1.trans h1, hv.2.trans h2, b, fun hm => ?_⟩
    rw [e2, hs, c2 hm, k.store (by decide), hu]

/-! ### O49 -/

theorem cxlMemReads (n : Fin (2 ^ 46)) {s : State} (hg : s.glb ≠ 0) :
    (s.cxlMode = false → exec (.cxlMemRead n) s = .next s) ∧
    (s.cxlMode = true → s.hif.hdm0.dpa (64 * n) = none → s.hif.hdm1.dpa (64 * n) = none →
      exec (.cxlMemRead n) s = .next ((s.addSat rGLB_HIF_ERR fGLB_HIF_ERR_UR 1).send (.memRead [] true))) ∧
    (∀ o, s.cxlMode = true → s.selfRefresh = false → s.hif.hdm0.dpa (64 * n) = some o →
      ((s.billet (o / 16384)).hbias = true →
        exec (.cxlMemRead n) s = .next ((if s.lineBad (o / 64) then s.send .rasDataEcc else s).send
          (.memRead (s.store.read 0 (64 * (o / 64)) 64) (s.lineBad (o / 64))))) ∧
      ((s.billet (o / 16384)).hbias = false →
        completes (.cxlMemRead n) s fun t => t.store = s.store ∧
          t.fld rGLB_HIF_ERR fGLB_HIF_ERR_DEVBIAS_RD = satN 16 (s.fld rGLB_HIF_ERR fGLB_HIF_ERR_DEVBIAS_RD + 1) ∧
          t.outs.getLast? = some (.memRead (s.store.read 0 (64 * (o / 64)) 64) (s.lineBad (o / 64))) ∧
          onlyIn mEvent [rGLB_HIF_ERR] [996] s t)) :=
  ⟨fun hm => cxlMemRead_runs hg (if_pos (by rw [hm]; rfl)), fun hm => cxlRead_uncovered hg hm,
    fun _ hm hsr h0 => ⟨cxlRead_hostBias hg hm hsr h0, cxlRead_deviceBias hg hm hsr h0⟩⟩

theorem overlaps_false {a la b lb : Nat} (h : a + la ≤ b ∨ b + lb ≤ a) : overlaps a la b lb = false := by
  simp only [overlaps, Bool.and_eq_false_iff, decide_eq_false_iff_not]
  omega

theorem hdmCommits (base size skip ways : Nat) (lock : Bool) {s : State} (hg : s.glb ≠ 0) :
    (s.hif.hdm0.locked = true → exec (.hdmCommit false base size skip ways lock) s = .next s) ∧
    (s.hif.hdm1.locked = true → exec (.hdmCommit true base size skip ways lock) s = .next s) ∧
    (s.hif.hdm0.locked = false → s.hif.hdm1.committed = false → ways = 1 → 0 < size → size % 2 ^ 28 = 0 → skip + size ≤ 30064771072 →
      exec (.hdmCommit false base size skip ways lock) s =
        .next (s.updHif fun h => { h with hdm0 := ⟨base, size, skip, true, false, lock⟩ })) ∧
    (s.hif.hdm1.locked = false → s.hif.hdm0.committed = true → ways = 1 → 0 < size → size % 2 ^ 28 = 0 → skip + size ≤ 30064771072 →
      (skip + size ≤ s.hif.hdm0.skip ∨ s.hif.hdm0.skip + s.hif.hdm0.size ≤ skip) →
      exec (.hdmCommit true base size skip ways lock) s =
        .next (s.updHif fun h => { h with hdm1 := ⟨base, size, skip, true, false, lock⟩ })) ∧
    (s.hif.hdm0.locked = false → (ways ≠ 1 ∨ size = 0 ∨ size % 2 ^ 28 ≠ 0 ∨ 30064771072 < skip + size) →
      completes (.hdmCommit false base size skip ways lock) s fun t => t.hif.hdm0 = ⟨base, size, skip, false, true, false⟩ ∧
        t.hif.hdm1 = s.hif.hdm1 ∧ onlyIn mEvent [] [998] s t) :=
  ⟨fun h => hdmCommit_locked (one := false) hg h, fun h => hdmCommit_locked (one := true) hg h,
    fun h hc hw hz ha hs => hdmCommit_legal (one := false) hg h hw hz ha hs fun h1 => absurd (hc.symm.trans h1) (by decide),
    fun h _ hw hz ha hs ho => hdmCommit_legal (one := true) hg h hw hz ha hs fun _ => overlaps_false ho,
    fun h hb => hdmCommit_illegal hg h hb⟩

/-- Settles O49: each clause is the effect of one command, the memory window's from the decoder that covers the line, the resets' from what
the function's reset and the end of a CXL Reset leave. -/
theorem linkAndMemoryWindow : Obligations.LinkAndMemoryWindow := by
  unfold Obligations.LinkAndMemoryWindow
  refine ⟨fun n s hg => cxlMemReads n hg, fun s hg => ⟨fun hm => next_live hg (if_pos (by rw [hm]; rfl)), cxlMemWrite_discarded hg⟩,
    fun base size skip ways lock s hg => hdmCommits base size skip ways lock hg, fun s hg => next_live hg rfl,
    fun w r cxl s hg => linkRetrain_effect w r cxl hg, fun s hg => ⟨fun hw => next_live hg (if_pos hw), fun hw hd => linkDown_effect hg hw hd⟩,
    fun s hg hd => flr_effect hg hd, fun m s hg => ?_, fun s hg => next_live hg rfl⟩
  have e : exec (.cxlReset m) s = .next (s.cxlReset m) := next_live hg rfl
  exact ⟨_, e, cxlReset_effect rfl⟩

end Sys2Proof

end

section
/-! SUPPORT. The memory controller's registers, refresh, training and temperature codes (R380, R383, R385 to R390). -/

set_option Elab.async false

namespace Sys2Proof

open Sys2Proof.Machine

section

variable {s : State} {v : Word}

/-! ### MEM_MAP, MEM_SCHED and the snapshot (R380, R383, R395) -/

theorem wrMemMap_awake (h : s.selfRefresh = false) : s.wrMemMap v = if s.freeBillets != nBillets then s.addSat rMEM_MAP fMEM_MAP_MAP_DISC 1
    else if fget v fMEM_MAP_GRAIN_LOG2 < 6 || 14 < fget v fMEM_MAP_GRAIN_LOG2 then s
    else s.setFlds rMEM_MAP [(fMEM_MAP_XOR, fget v fMEM_MAP_XOR), (fMEM_MAP_GRAIN_LOG2, fget v fMEM_MAP_GRAIN_LOG2), (fMEM_MAP_MAP_BUSY, 1)] := by
  unfold State.wrMemMap
  dsimp only
  rw [srExit_off h]

theorem memMapWrite_runs (hr : s.ready = true) {t : State} (e : State.wrMemMap v (s.dropStaged .host rMEM_MAP) = t) :
    exec (.memMapWrite v) s = .next t := next_hostWr hr e

theorem memMapWrite_busy (hr : s.ready = true) (hs : s.selfRefresh = false) (hf : s.freeBillets ≠ nBillets) :
    exec (.memMapWrite v) s = .next ((s.dropStaged .host rMEM_MAP).addSat rMEM_MAP fMEM_MAP_MAP_DISC 1) :=
  memMapWrite_runs hr ((wrMemMap_awake (s := s.dropStaged .host rMEM_MAP) hs).trans (if_pos (bne_iff_ne.mpr hf)))

theorem memMapWrite_illegal (hr : s.ready = true) (hs : s.selfRefresh = false) (hf : s.freeBillets = nBillets)
    (hg : fget v fMEM_MAP_GRAIN_LOG2 < 6 ∨ 14 < fget v fMEM_MAP_GRAIN_LOG2) : exec (.memMapWrite v) s = .next (s.dropStaged .host rMEM_MAP) := by
  refine memMapWrite_runs hr ((wrMemMap_awake (s := s.dropStaged .host rMEM_MAP) hs).trans ((if_neg ?_).trans (if_pos ?_)))
  · rw [bne_iff_ne, not_not]
    exact hf
  · simpa using hg

theorem memMapWrite_taken (hr : s.ready = true) (hs : s.selfRefresh = false) (hf : s.freeBillets = nBillets) (h1 : 6 ≤ fget v fMEM_MAP_GRAIN_LOG2)
    (h2 : fget v fMEM_MAP_GRAIN_LOG2 ≤ 14) : completes (.memMapWrite v) s fun t =>
      t.fld rMEM_MAP fMEM_MAP_GRAIN_LOG2 = fget v fMEM_MAP_GRAIN_LOG2 ∧ t.fld rMEM_MAP fMEM_MAP_XOR = fget v fMEM_MAP_XOR ∧
        t.flag rMEM_MAP fMEM_MAP_MAP_BUSY = true ∧ onlyIn (mRegs ||| mStaged) [rMEM_MAP] [] s t := by
  have e := memMapWrite_runs (v := v) hr ((wrMemMap_awake (s := s.dropStaged .host rMEM_MAP) hs).trans
    ((if_neg (by rw [bne_iff_ne, not_not]; exact hf)).trans (if_neg (by simp; omega))))
  refine ⟨_, e, ?_, ?_, ?_, .of_hi (.setFlds (.dropStaged (.refl _ _ _ _))) (by decide)⟩
  · simp (disch := decide)
    exact fget_lt v fMEM_MAP_GRAIN_LOG2
  · simp (disch := decide)
    exact Nat.le_of_lt_succ (fget_lt v fMEM_MAP_XOR)
  · simp (disch := decide) [State.flag]

theorem memSchedWrite_taken (hr : s.ready = true) (h1 : fget v fMEM_SCHED_WR_HIGH ≤ 56) (h2 : fget v fMEM_SCHED_WR_LOW < fget v fMEM_SCHED_WR_HIGH)
    (h3 : fget v fMEM_SCHED_AGE_US ≠ 0) : exec (.memSchedWrite v) s = .next ((s.dropStaged .host rMEM_SCHED).wrCodes rMEM_SCHED v []) := by
  have e : State.wrMemSched v (s.dropStaged .host rMEM_SCHED) = (s.dropStaged .host rMEM_SCHED).wrCodes rMEM_SCHED v [] :=
    if_neg (by simp only [Bool.or_eq_true, decide_eq_true_eq]; omega)
  exact next_hostWr hr e

theorem memSchedWrite_illegal (hr : s.ready = true)
    (h : 56 < fget v fMEM_SCHED_WR_HIGH ∨ fget v fMEM_SCHED_WR_HIGH ≤ fget v fMEM_SCHED_WR_LOW ∨ fget v fMEM_SCHED_AGE_US = 0) :
    exec (.memSchedWrite v) s = .next ((s.dropStaged .host rMEM_SCHED).addSat rMEM_SCHED fMEM_SCHED_SCHED_DISC 1) := by
  have e : State.wrMemSched v (s.dropStaged .host rMEM_SCHED) = (s.dropStaged .host rMEM_SCHED).addSat rMEM_SCHED fMEM_SCHED_SCHED_DISC 1 :=
    if_pos (by simp only [Bool.or_eq_true, decide_eq_true_eq]; omega)
  exact next_hostWr hr e

/-- The snapshot block shows the error captured last. -/
theorem ueCapture_effect {t : State} (e : s.ueCapture = t) :
    t.fld rMEM_UE_SNAP fMEM_UE_SNAP_SEQ = (s.fld rMEM_UE_SNAP fMEM_UE_SNAP_SEQ + 1) % 2 ^ 32 ∧ t.rd rMEM_UE0 = s.mem.ue.1 ∧
      t.rd rMEM_UE1 = s.mem.ue.2.1 ∧ t.rd rMEM_UE2 = s.mem.ue.2.2 ∧ onlyIn mRegs [rMEM_UE_SNAP, rMEM_UE0, rMEM_UE1, rMEM_UE2] [] s t := by
  unfold State.ueCapture at e
  rw [← e]
  refine ⟨by simp (disch := decide), by simp (disch := decide), by simp (disch := decide), by simp (disch := decide),
    .of_hi (.wr (.wr (.wr (.addMod (.refl _ _ _ _))))) (by decide)⟩

theorem memUeSnap_effect (hr : s.ready = true) : completes (.memUeSnap v) s fun t =>
      t.fld rMEM_UE_SNAP fMEM_UE_SNAP_SEQ = (s.fld rMEM_UE_SNAP fMEM_UE_SNAP_SEQ + 1) % 2 ^ 32 ∧
      t.rd rMEM_UE0 = s.mem.ue.1 ∧ t.rd rMEM_UE1 = s.mem.ue.2.1 ∧ t.rd rMEM_UE2 = s.mem.ue.2.2 ∧
      onlyIn (mRegs ||| mStaged) [rMEM_UE_SNAP, rMEM_UE0, rMEM_UE1, rMEM_UE2] [] s t := by
  have e : exec (.memUeSnap v) s = .next (s.dropStaged .host rMEM_UE_SNAP).ueCapture :=
    next_hostWr hr (if_pos (fget_fset_self _ _ _ (by decide)))
  have k : onlyIn (mRegs ||| mStaged ||| mGlb) [rMEM_UE_SNAP, rMEM_UE0, rMEM_UE1, rMEM_UE2] [] s (s.dropStaged .host rMEM_UE_SNAP) :=
    .dropStaged (.refl _ _ _ _)
  have hm := State.dropStaged_mem s .host rMEM_UE_SNAP
  have hf := fld_of_rd (dropStaged_rd s .host rMEM_UE_SNAP rMEM_UE_SNAP) (f := fMEM_UE_SNAP_SEQ)
  generalize s.dropStaged .host rMEM_UE_SNAP = u at *
  obtain ⟨h1, h2, h3, h4, h5⟩ := ueCapture_effect (s := u) rfl
  exact ⟨_, e, hf ▸ h1, hm ▸ h2, hm ▸ h3, hm ▸ h4, .of_hi (k.trans (h5.mono (by decide) (fun _ h => h) (fun _ h => h))) (by decide)⟩

theorem mapInitDone_effect (hg : s.glb ≠ 0) (hb : s.flag rMEM_MAP fMEM_MAP_MAP_BUSY = true) :
      completes .mapInitDone s fun t => t.flag rMEM_MAP fMEM_MAP_MAP_BUSY = false ∧ (∀ a, t.store.byte 0 a = 0) ∧ t.badLines = [] ∧
        t.mem.lost = [] ∧ onlyIn (mRegs ||| mStore ||| mBadLines ||| mMem) [rMEM_MAP] [] s t := by
  have e : exec .mapInitDone s = .next (((s.setFld rMEM_MAP fMEM_MAP_MAP_BUSY 0).storeClear.onBadLines fun _ => []).onMem fun _ =>
      { s.mem with lost := [] }) := next_live hg (if_pos hb)
  have f : (s.setFld rMEM_MAP fMEM_MAP_MAP_BUSY 0).flag rMEM_MAP fMEM_MAP_MAP_BUSY = false := by simp (disch := decide) [State.flag]
  have k : onlyIn (mRegs ||| mStore ||| mBadLines ||| mMem ||| mGlb) [rMEM_MAP] [] s (s.setFld rMEM_MAP fMEM_MAP_MAP_BUSY 0) := .setFld (.refl _ _ _ _)
  generalize s.setFld rMEM_MAP _ _ = u at *
  exact ⟨_, e, f, fun _ => rfl, rfl, rfl, .of_hi (((k.other (touches_State.storeClear u) (by decide) rfl).other
    (touches_State.onBadLines _ _) (by decide) rfl).other (touches_State.onMem _ _) (by decide) rfl) (by decide)⟩

/-! ### Temperature codes (R385) -/

theorem mr4Poll_effect (d : Fin 16) (k : Fin 8) (hg : s.glb ≠ 0) : completes (.mr4Poll d k) s fun t =>
      t.fld (rMEM_CH_STATUS (2 * d)) fMEM_CH_STATUS_MR4 = k ∧ t.fld (rMEM_CH_STATUS (2 * d + 1)) fMEM_CH_STATUS_MR4 = k ∧
      onlyIn mEvent [rMEM_CH_STATUS (2 * d), rMEM_CH_STATUS (2 * d + 1), rTHM_STATUS] [705, 706, 19] s t := by
  have e : exec (.mr4Poll d k) s = .next (s.mr4Poll d k).thmPin := next_live hg rfl
  generalize hl : [rMEM_CH_STATUS (2 * d), rMEM_CH_STATUS (2 * d + 1), rTHM_STATUS] = l
  have hhi : ∀ a ∈ l, 0x1000 ≤ a := by
    rw [← hl]
    simp only [List.mem_cons, List.not_mem_nil, or_false, rMEM_CH_STATUS, rTHM_STATUS]
    omega
  have hw : (k : Nat) % 2 ^ fMEM_CH_STATUS_MR4.w = k := Nat.mod_eq_of_lt k.2
  have f1 : ((s.setFld (rMEM_CH_STATUS (2 * d)) fMEM_CH_STATUS_MR4 k).setFld (rMEM_CH_STATUS (2 * d + 1)) fMEM_CH_STATUS_MR4 k).fld
      (rMEM_CH_STATUS (2 * d)) fMEM_CH_STATUS_MR4 = k := by
    rw [State.fld_setFld_other _ _ _ _ (by simp only [rMEM_CH_STATUS]; omega), State.fld_setFld_self _ _ _ _ (by decide), hw]
  have f2 : ((s.setFld (rMEM_CH_STATUS (2 * d)) fMEM_CH_STATUS_MR4 k).setFld (rMEM_CH_STATUS (2 * d + 1)) fMEM_CH_STATUS_MR4 k).fld
      (rMEM_CH_STATUS (2 * d + 1)) fMEM_CH_STATUS_MR4 = k := (State.fld_setFld_self _ _ _ _ (by decide)).trans hw
  have k1 : onlyIn mEvent l [705, 706, 19] s
      ((s.setFld (rMEM_CH_STATUS (2 * d)) fMEM_CH_STATUS_MR4 k).setFld (rMEM_CH_STATUS (2 * d + 1)) fMEM_CH_STATUS_MR4 k) :=
    .of_hi (.setFld (.setFld (.refl _ _ _ _) (by simp [← hl])) (by simp [← hl])) hhi
  unfold State.mr4Poll at e
  dsimp only at e
  generalize (s.setFld (rMEM_CH_STATUS (2 * d)) _ _).setFld (rMEM_CH_STATUS (2 * d + 1)) _ _ = u at *
  have k2 : onlyIn mEvent [] [705, 706] u (if decide (k.val = 5) || decide (k.val = 6) then u.raise 705
      else if decide (k.val = 0) || decide (k.val = 7) then u.raise 706 else u) :=
    .ite (.raise (.refl _ _ _ _) (by simp)) (.ite (.raise (.refl _ _ _ _) (by simp)) (.refl _ _ _ _))
  generalize (if decide (k.val = 5) || decide (k.val = 6) then u.raise 705 else _) = w at *
  have k3 := k2.mono (m' := mEvent) (l' := l) (srcs' := [705, 706, 19]) (by decide) (List.nil_subset _) (by simp) |>.trans
    ((onlyIn_thmPin w).mono (by decide) (by simp [← hl]) (by simp))
  have hk (i : Nat) (hi : i < 32) : w.thmPin.rd (rMEM_CH_STATUS i) = u.rd (rMEM_CH_STATUS i) :=
    ((onlyIn_thmPin w).rd_apart (by simp only [List.mem_singleton, rMEM_CH_STATUS, rTHM_STATUS]; omega)
      (by simp only [rMEM_CH_STATUS]; omega) (by simp)).trans (k2.rd_apart (by simp) (by simp only [rMEM_CH_STATUS]; omega) (by simp))
  exact ⟨_, e, (fld_of_rd (hk _ (by omega))).trans f1, (fld_of_rd (hk _ (by omega))).trans f2, k1.trans k3⟩

/-! ### Refresh (R385 to R387) -/

/-- The registers of one channel lie apart from those that the raising of an event writes. -/
theorem chStatus_high (ch : Nat) : 0x20000 ≤ rMEM_CH_STATUS ch := by
  simp only [rMEM_CH_STATUS]
  omega

theorem rowsClosed_open (ch : Nat) : (∀ b < 8, SMap.get none (s.rowsClosed ch).mem.open_ (8 * ch + b) = none) ∧
    ∀ k, (k < 8 * ch ∨ 8 * ch + 8 ≤ k) → SMap.get none (s.rowsClosed ch).mem.open_ k = SMap.get none s.mem.open_ k := by
  have h (n : Nat) (m : SMap (Option Nat)) : (∀ b < n, SMap.get none ((upTo n).foldl (fun m b => SMap.set none m (8 * ch + b) none) m)
      (8 * ch + b) = none) ∧ ∀ k, (k < 8 * ch ∨ 8 * ch + n ≤ k) →
      SMap.get none ((upTo n).foldl (fun m b => SMap.set none m (8 * ch + b) none) m) k = SMap.get none m k := by
    induction n with
    | zero => exact ⟨fun _ h => absurd h (Nat.not_lt_zero _), fun _ _ => rfl⟩
    | succ n ih =>
      rw [upTo, List.range_succ, List.foldl_append, List.foldl_cons, List.foldl_nil]
      refine ⟨fun b hb => ?_, fun k hk => ?_⟩
      · by_cases hn : b = n
        · rw [hn, SMap.get_set_same]
        · rw [SMap.get_set_other _ _ _ _ (by omega)]
          exact ih.1 b (by omega)
      · rw [SMap.get_set_other _ _ _ _ (by omega)]
        exact ih.2 k (by omega)
  exact ⟨(h 8 s.mem.open_).1, (h 8 s.mem.open_).2⟩

/-- The interval of the last MR4 code comes into force. -/
def refiTaken (s : State) (ch : Nat) : State :=
  s.onMem fun z => { z with refi := SMap.set 0 z.refi ch (tRefi (s.fld (rMEM_CH_STATUS ch) fMEM_CH_STATUS_MR4)) }

theorem refiTaken_effect (ch : Nat) : SMap.get 0 (refiTaken s ch).mem.refi ch = tRefi (s.fld (rMEM_CH_STATUS ch) fMEM_CH_STATUS_MR4) ∧
    (refiTaken s ch).mem.open_ = s.mem.open_ ∧ (refiTaken s ch).regs = s.regs ∧ onlyIn mMem [] [] s (refiTaken s ch) :=
  ⟨SMap.get_set_same .., rfl, rfl, .other (.refl _ _ _ _) (touches_State.onMem _ _) (by decide) rfl⟩

theorem refreshDue_runs {ch : Fin 32} {w : Bool} (hg : s.glb ≠ 0) {t : State} (e : s.refreshDue ch w = t) : exec (.refreshDue ch w) s = .next t :=
  next_live hg e

/-- The refresh, by what holds of the channel. -/
theorem refreshDue_eq (ch : Nat) (w : Bool) : s.refreshDue ch w = if s.selfRefresh then refiTaken s ch
    else if s.dieHot ch then ((refiTaken s ch).rowsClosed ch).setFld (rMEM_CH_STATUS ch) fMEM_CH_STATUS_POSTPONED 0
    else if s.fld rMEM_REFRESH fMEM_REFRESH_POSTPONE_MAX ≤ s.fld (rMEM_CH_STATUS ch) fMEM_CH_STATUS_POSTPONED &&
        (w || s.fld (rMEM_CH_STATUS ch) fMEM_CH_STATUS_POSTPONED != 0) then
      ((((refiTaken s ch).rowsClosed ch).setFld (rMEM_CH_STATUS ch) fMEM_CH_STATUS_POSTPONED 0).addSat (rMEM_CH_STATUS ch)
        fMEM_CH_STATUS_FORCED 1).raiseLim 1000000 711 (some ch) 0 0 ch
    else if w then (refiTaken s ch).setFld (rMEM_CH_STATUS ch) fMEM_CH_STATUS_POSTPONED (s.fld (rMEM_CH_STATUS ch) fMEM_CH_STATUS_POSTPONED + 1)
    else ((refiTaken s ch).rowsClosed ch).setFld (rMEM_CH_STATUS ch) fMEM_CH_STATUS_POSTPONED 0 := rfl

/-- A refresh that is issued closes the channel's rows and leaves none postponed. -/
theorem refreshed_effect (ch : Nat) {t : State} (e : ((refiTaken s ch).rowsClosed ch).setFld (rMEM_CH_STATUS ch) fMEM_CH_STATUS_POSTPONED 0 = t) :
    SMap.get 0 t.mem.refi ch = tRefi (s.fld (rMEM_CH_STATUS ch) fMEM_CH_STATUS_MR4) ∧
        t.fld (rMEM_CH_STATUS ch) fMEM_CH_STATUS_POSTPONED = 0 ∧ (∀ b < 8, SMap.get none t.mem.open_ (8 * ch + b) = none) ∧
        (∀ k, (k < 8 * ch ∨ 8 * ch + 8 ≤ k) → SMap.get none t.mem.open_ k = SMap.get none s.mem.open_ k) ∧
        t.fld (rMEM_CH_STATUS ch) fMEM_CH_STATUS_FORCED = s.fld (rMEM_CH_STATUS ch) fMEM_CH_STATUS_FORCED ∧
        onlyIn (mRegs ||| mMem) [rMEM_CH_STATUS ch] [] s t := by
  obtain ⟨h1, h2, h3, h4⟩ := refiTaken_effect (s := s) ch
  generalize refiTaken s ch = u at *
  obtain ⟨r1, r2⟩ := rowsClosed_open (s := u) ch
  have hr : (u.rowsClosed ch).mem.refi = u.mem.refi := rfl
  have hregs : (u.rowsClosed ch).regs = u.regs := rfl
  have k : onlyIn (mRegs ||| mMem ||| mGlb) [rMEM_CH_STATUS ch] [] s (u.rowsClosed ch) :=
    .other (h4.mono (by decide) (List.nil_subset _) (fun _ h => h)) (touches_State.rowsClosed u ch) (by decide) rfl
  generalize u.rowsClosed ch = v at *
  rw [← e]
  refine ⟨?_, State.fld_setFld_self _ _ _ _ (by decide), fun b hb => ?_, fun k hk => ?_, ?_, .of_hi (.setFld k) fun a ha => ?_⟩
  · rw [State.setFld_mem, hr, h1]
  · rw [State.setFld_mem]
    exact r1 b hb
  · rw [State.setFld_mem, r2 k hk, h2]
  · rw [State.fld_setFld_apart _ _ _ _ _ _ (by decide), State.fld_congr (hregs.trans h3)]
  · have := chStatus_high ch
    simp only [List.mem_singleton] at ha
    omega

theorem refreshDue_made {ch : Fin 32} {w : Bool} (hg : s.glb ≠ 0) (hs : s.selfRefresh = false)
    (h : s.dieHot ch = true ∨ w = false ∧ (s.fld (rMEM_CH_STATUS ch) fMEM_CH_STATUS_POSTPONED = 0 ∨
        s.fld (rMEM_CH_STATUS ch) fMEM_CH_STATUS_POSTPONED < s.fld rMEM_REFRESH fMEM_REFRESH_POSTPONE_MAX)) :
      completes (.refreshDue ch w) s fun t => SMap.get 0 t.mem.refi ch = tRefi (s.fld (rMEM_CH_STATUS ch) fMEM_CH_STATUS_MR4) ∧
        t.fld (rMEM_CH_STATUS ch) fMEM_CH_STATUS_POSTPONED = 0 ∧ (∀ b < 8, SMap.get none t.mem.open_ (8 * ch + b) = none) ∧
        (∀ k, (k < 8 * ch.val ∨ 8 * ch.val + 8 ≤ k) → SMap.get none t.mem.open_ k = SMap.get none s.mem.open_ k) ∧
        onlyIn (mRegs ||| mMem) [rMEM_CH_STATUS ch] [] s t := by
  have e : s.refreshDue ch w = ((refiTaken s ch).rowsClosed ch).setFld (rMEM_CH_STATUS ch) fMEM_CH_STATUS_POSTPONED 0 := by
    rw [refreshDue_eq, hs, if_neg Bool.false_ne_true]
    obtain hh | ⟨hw, ho⟩ := h
    · exact if_pos hh
    · split
      · rfl
      · rw [if_neg (by simp only [hw, Bool.false_or, Bool.and_eq_true, decide_eq_true_eq, bne_iff_ne]; omega), if_neg (by rw [hw]; exact Bool.false_ne_true)]
  obtain ⟨h1, h2, h3, h4, -, h6⟩ := refreshed_effect (s := s) ch rfl
  exact ⟨_, refreshDue_runs hg e, h1, h2, h3, h4, h6⟩

theorem refreshDue_postponed {ch : Fin 32} (hg : s.glb ≠ 0) (hs : s.selfRefresh = false) (hd : s.dieHot ch = false)
    (h : s.fld (rMEM_CH_STATUS ch) fMEM_CH_STATUS_POSTPONED < s.fld rMEM_REFRESH fMEM_REFRESH_POSTPONE_MAX) :
    exec (.refreshDue ch true) s = .next ((s.onMem fun z => { z with
        refi := SMap.set 0 z.refi ch (tRefi (s.fld (rMEM_CH_STATUS ch) fMEM_CH_STATUS_MR4)) }).setFld (rMEM_CH_STATUS ch)
          fMEM_CH_STATUS_POSTPONED (s.fld (rMEM_CH_STATUS ch) fMEM_CH_STATUS_POSTPONED + 1)) := by
  refine refreshDue_runs hg ?_
  rw [refreshDue_eq, hs, hd, if_neg Bool.false_ne_true, if_neg Bool.false_ne_true,
    if_neg (by simp only [Bool.and_eq_true, decide_eq_true_eq]; omega), if_pos rfl]
  rfl

theorem refreshDue_forced {ch : Fin 32} {w : Bool} (hg : s.glb ≠ 0) (hs : s.selfRefresh = false) (hd : s.dieHot ch = false)
    (hw : w = true ∨ s.fld (rMEM_CH_STATUS ch) fMEM_CH_STATUS_POSTPONED ≠ 0)
    (h : s.fld rMEM_REFRESH fMEM_REFRESH_POSTPONE_MAX ≤ s.fld (rMEM_CH_STATUS ch) fMEM_CH_STATUS_POSTPONED) :
      completes (.refreshDue ch w) s fun t => t.fld (rMEM_CH_STATUS ch) fMEM_CH_STATUS_POSTPONED = 0 ∧
        t.fld (rMEM_CH_STATUS ch) fMEM_CH_STATUS_FORCED = satN 32 (s.fld (rMEM_CH_STATUS ch) fMEM_CH_STATUS_FORCED + 1) ∧
        (∀ b < 8, SMap.get none t.mem.open_ (8 * ch + b) = none) ∧ onlyIn (mEvent ||| mMem) [rMEM_CH_STATUS ch] [711] s t := by
  have e := refreshDue_eq (s := s) ch w
  rw [hs, hd, if_neg Bool.false_ne_true, if_neg Bool.false_ne_true, if_pos (by simp [h]; exact hw)] at e
  have e := refreshDue_runs hg e
  obtain ⟨-, h2, h3, -, h5, h6⟩ := refreshed_effect (s := s) ch rfl
  generalize ((refiTaken s ch).rowsClosed ch).setFld _ _ _ = u at *
  have hh := chStatus_high ch
  have hr : ∀ src < 1024, rMEM_CH_STATUS ch < 0x10000 ∨ 0x12000 + 8 * src < rMEM_CH_STATUS ch := fun src hsrc => by omega
  have hm : ((u.addSat (rMEM_CH_STATUS ch) fMEM_CH_STATUS_FORCED 1).raiseLim 1000000 711 (some ch) 0 0 ch).mem = u.mem :=
    ((touches_State.raiseLim _ _ _ _ _ _ _).mem (by decide)).trans (State.addSat_mem _ _ _ _)
  refine ⟨_, e, ?_, ?_, fun b hb => ?_, .raiseLim (.of_hi (.addSat (h6.mono (by decide) (fun _ h => h) (List.nil_subset _))) fun a ha => ?_)⟩
  · rw [State.fld_raiseLim_other _ _ _ _ _ _ _ _ _ (hr _ (by decide)), State.fld_addSat_apart _ _ _ _ _ _ (by decide), h2]
  · rw [State.fld_raiseLim_other _ _ _ _ _ _ _ _ _ (hr _ (by decide)), State.fld_addSat_self _ _ _ _ (by decide), h5]
  · rw [hm]
    exact h3 b hb
  · simp only [List.mem_singleton] at ha
    omega

end

end Sys2Proof

end

section
/-! SUPPORT. Retraining, uncorrectable errors and the scrubber (R389 to R393). -/

set_option Elab.async false

namespace Sys2Proof

open Sys2Proof.Machine

section

variable {s : State}

/-! ### Retraining (R389, R390) -/

/-- The failures in succession of a channel. -/
def failsSet (s : State) (ch n : Nat) : State := s.onMem fun z => { z with fails := SMap.set 0 s.mem.fails ch n }

theorem retrainCh_runs {ch : Fin 32} {ok : Bool} {t : State} (hg : s.glb ≠ 0) (e : s.retrainCh ch ok = t) : exec (.retrain ch ok) s = .next t :=
  next_live hg e

/-- A channel that waits for nothing. -/
def trainable (s : State) (ch : Nat) : Prop := s.selfRefresh = false ∧ s.fld (rMEM_CH_STATUS ch) fMEM_CH_STATUS_POSTPONED = 0 ∧
  s.flag (rMEM_CH_STATUS ch) fMEM_CH_STATUS_FAILED = false

theorem retrain_skipped (ch : Nat) (ok : Bool) (h : s.selfRefresh = true ∨ s.fld (rMEM_CH_STATUS ch) fMEM_CH_STATUS_POSTPONED ≠ 0 ∨
    s.flag (rMEM_CH_STATUS ch) fMEM_CH_STATUS_FAILED = true) : s.retrain ch ok = s :=
  if_pos (by simp only [Bool.or_eq_true, bne_iff_ne, or_assoc]; exact h)

theorem retrain_eq {ch : Nat} (h : trainable s ch) (ok : Bool) : s.retrain ch ok =
    if ok then failsSet s ch 0
    else if SMap.get 0 s.mem.fails ch + 1 < 3 then
      ((failsSet s ch (SMap.get 0 s.mem.fails ch + 1)).addSat (rMEM_CH_STATUS ch) fMEM_CH_STATUS_RETRAIN_FAIL 1).raise 707 (some ch)
    else ((((failsSet s ch (SMap.get 0 s.mem.fails ch + 1)).addSat (rMEM_CH_STATUS ch) fMEM_CH_STATUS_RETRAIN_FAIL 1).raise 707 (some ch)).setFld
      (rMEM_CH_STATUS ch) fMEM_CH_STATUS_FAILED 1).raise 708 (some ch) := by
  obtain ⟨h1, h2, h3⟩ := h
  unfold State.retrain
  dsimp only
  rw [if_neg (by simp [h1, h2, h3])]
  rfl

theorem retrainCh_unfailed {ch : Nat} {ok : Bool} {t : State} (h : s.flag (rMEM_CH_STATUS ch) fMEM_CH_STATUS_FAILED = true ∨
    t.flag (rMEM_CH_STATUS ch) fMEM_CH_STATUS_FAILED = false) (e : s.retrain ch ok = t) : s.retrainCh ch ok = t := by
  unfold State.retrainCh
  dsimp only
  rw [e, if_neg]
  obtain h | h := h <;> simp [h]

theorem retrain_passes {ch : Fin 32} (hg : s.glb ≠ 0) (h : trainable s ch) :
    exec (.retrain ch true) s = .next (s.onMem fun z => { z with fails := SMap.set 0 z.fails ch 0 }) := by
  refine retrainCh_runs hg (retrainCh_unfailed (.inr ?_) ((retrain_eq h true).trans (if_pos rfl)))
  exact h.2.2

/-- What a failure leaves, below the bound that fails the channel. -/
theorem retrainFailed_effect (ch : Nat) (n : Nat) {t : State}
    (e : ((failsSet s ch n).addSat (rMEM_CH_STATUS ch) fMEM_CH_STATUS_RETRAIN_FAIL 1).raise 707 (some ch) = t) :
    SMap.get 0 t.mem.fails ch = n ∧ t.flag (rMEM_CH_STATUS ch) fMEM_CH_STATUS_FAILED = s.flag (rMEM_CH_STATUS ch) fMEM_CH_STATUS_FAILED ∧
      t.fld (rMEM_CH_STATUS ch) fMEM_CH_STATUS_RETRAIN_FAIL = satN 16 (s.fld (rMEM_CH_STATUS ch) fMEM_CH_STATUS_RETRAIN_FAIL + 1) ∧
      onlyIn (mEvent ||| mMem) [rMEM_CH_STATUS ch] [707] s t := by
  have hh := chStatus_high ch
  have hm : SMap.get 0 (failsSet s ch n).mem.fails ch = n := SMap.get_set_same ..
  have hr : (failsSet s ch n).regs = s.regs := rfl
  have k : onlyIn (mEvent ||| mMem ||| mGlb) [rMEM_CH_STATUS ch] [707] s (failsSet s ch n) :=
    .other (.refl _ _ _ _) (touches_State.onMem _ _) (by decide) rfl
  generalize failsSet s ch n = u at *
  have hre : rMEM_CH_STATUS ch < 0x10000 ∨ 0x12000 + 8 * 707 < rMEM_CH_STATUS ch := by omega
  rw [← e]
  refine ⟨?_, ?_, ?_, .of_hi (.raise (.addSat k) (by simp)) fun a ha => ?_⟩
  · rw [(touches_State.raise _ _ _ _ _).mem (by decide), State.addSat_mem, hm]
  · rw [State.flag, State.fld_raise_other _ _ _ _ _ _ _ hre, State.fld_addSat_apart _ _ _ _ _ _ (by decide), State.fld_congr hr]
    rfl
  · rw [State.fld_raise_other _ _ _ _ _ _ _ hre, State.fld_addSat_self _ _ _ _ (by decide), State.fld_congr hr]
  · simp only [List.mem_singleton] at ha
    omega

theorem retrain_fails {ch : Fin 32} (hg : s.glb ≠ 0) (h : trainable s ch) (hn : SMap.get 0 s.mem.fails ch < 2) :
    completes (.retrain ch false) s fun t =>
      SMap.get 0 t.mem.fails ch = SMap.get 0 s.mem.fails ch + 1 ∧ t.flag (rMEM_CH_STATUS ch) fMEM_CH_STATUS_FAILED = false ∧
      t.fld (rMEM_CH_STATUS ch) fMEM_CH_STATUS_RETRAIN_FAIL = satN 16 (s.fld (rMEM_CH_STATUS ch) fMEM_CH_STATUS_RETRAIN_FAIL + 1) ∧
      onlyIn (mEvent ||| mMem) [rMEM_CH_STATUS ch] [707] s t := by
  obtain ⟨h1, h2, h3, h4⟩ := retrainFailed_effect (s := s) ch (SMap.get 0 s.mem.fails ch + 1) rfl
  have e := (retrain_eq h false).trans ((if_neg Bool.false_ne_true).trans (if_pos (by omega)))
  exact ⟨_, retrainCh_runs hg (retrainCh_unfailed (.inr (h2.trans h.2.2)) e), h1, h2.trans h.2.2, h3, h4⟩

/-- A datapath restart that a channel asks for, with AUTO_RESTART 0: HALTED. -/
theorem dpAuto_halted (hr : s.ready = true) (ha : s.flag rEVT_CTRL fEVT_CTRL_AUTO_RESTART = false) (cause : Nat) (failed : List Nat) {t : State}
    (e : s.dpAuto cause failed false = t) : t.glb = 5 ∧ onlyIn (mEvent ||| mRst ||| mGlb) [rGLB_STATUS] [] s t := by
  have hg : s.glb = 3 := by rw [State.ready] at hr; exact beq_iff_eq.mp hr
  unfold State.dpAuto at e
  rw [if_neg (by omega), if_neg (by simp [hr]), if_neg (by simp [ha])] at e
  have k : onlyIn (mEvent ||| mRst ||| mGlb) [rGLB_STATUS] [] s (s.haltWith 5) := .setFlds (.refl _ _ _ _)
  have f : (s.haltWith 5).glb = 5 := by
    rw [State.glb, State.haltWith]
    simp (disch := decide)
  generalize s.haltWith 5 = u at *
  rw [← e]
  exact ⟨f, .other k (touches_State.onRst _ _) (by decide) (State.onRst_regs _ _)⟩

theorem retrain_fails_channel {ch : Fin 32} (hg : s.glb ≠ 0) (h : trainable s ch) (hn : 2 ≤ SMap.get 0 s.mem.fails ch) :
    completes (.retrain ch false) s fun t =>
      SMap.get 0 t.mem.fails ch = SMap.get 0 s.mem.fails ch + 1 ∧ t.store = s.store ∧
      (s.ready = true → s.flag rEVT_CTRL fEVT_CTRL_AUTO_RESTART = false → t.flag (rMEM_CH_STATUS ch) fMEM_CH_STATUS_FAILED = true ∧
        t.glb = 5) := by
  have hh := chStatus_high ch
  have e := (retrain_eq h false).trans ((if_neg Bool.false_ne_true).trans (if_neg (by omega)))
  obtain ⟨h1, h2, -, h4⟩ := retrainFailed_effect (s := s) ch (SMap.get 0 s.mem.fails ch + 1) rfl
  generalize ((failsSet s ch (SMap.get 0 s.mem.fails ch + 1)).addSat _ _ _).raise 707 _ = u at *
  have f : ((u.setFld (rMEM_CH_STATUS ch) fMEM_CH_STATUS_FAILED 1).raise 708 (some ch)).flag (rMEM_CH_STATUS ch) fMEM_CH_STATUS_FAILED = true := by
    rw [State.flag, State.fld_raise_other _ _ _ _ _ _ _ (by omega), State.fld_setFld_self _ _ _ _ (by decide)]
    rfl
  have k : onlyIn (mEvent ||| mMem) [rMEM_CH_STATUS ch] [707, 708] s ((u.setFld (rMEM_CH_STATUS ch) fMEM_CH_STATUS_FAILED 1).raise 708 (some ch)) :=
    .raise (.of_hi (.setFld (h4.mono (by decide) (fun _ h => h) (by simp))) fun a ha => by simp only [List.mem_singleton] at ha; omega)
  have m : ((u.setFld (rMEM_CH_STATUS ch) fMEM_CH_STATUS_FAILED 1).raise 708 (some ch)).mem = u.mem :=
    ((touches_State.raise _ _ _ _ _).mem (by decide)).trans (State.setFld_mem _ _ _ _)
  generalize (u.setFld (rMEM_CH_STATUS ch) fMEM_CH_STATUS_FAILED 1).raise 708 (some ch) = v at *
  have e2 : s.retrainCh ch false = v.dpAuto dpMem [ch] false := by
    unfold State.retrainCh
    dsimp only
    rw [e, if_pos]
    rw [f, h.2.2]
    rfl
  have d := touches_State.dpAuto v dpMem [ch.val] false
  refine ⟨_, retrainCh_runs hg e2, ?_, (d.store (by decide)).trans (k.1.store (by decide)), fun hr ha => ?_⟩
  · rw [d.mem (by decide), m, h1]
  · have hr' : v.ready = true := by rw [State.ready, k.1.glbState]; exact hr
    have ha' : v.flag rEVT_CTRL fEVT_CTRL_AUTO_RESTART = false := by
      refine (flag_of_rd (k.2 rEVT_CTRL ?_ (by decide))).trans ha
      simp only [List.mem_singleton, rEVT_CTRL]
      omega
    obtain ⟨g, q⟩ := dpAuto_halted hr' ha' dpMem [ch.val] rfl
    refine ⟨(flag_of_rd (q.2 _ ?_ (by simp))).trans f, g⟩
    simp only [List.mem_singleton, rGLB_STATUS]
    omega

/-! ### Uncorrectable errors (R391, R392) -/

theorem memUe_eq (p : MemPlace) (line src : Nat) : s.memUe p [line] src =
    ((((s.setLineErr line (SMap.get 0 s.badLines line ||| 2)).addSat (rMEM_CH_ECC p.ch) fMEM_CH_ECC_UE 1).onMem fun z => { z with
      ue := (BitVec.ofNat 64 (64 * line), fsets 0 [(fMEM_UE1_LINES, 1), (fMEM_UE1_SOURCE, src), (fMEM_UE1_ROW, p.row), (fMEM_UE1_BANK, p.bank),
        (fMEM_UE1_CH, p.ch)], BitVec.ofNat 64 s.time) }).ueCapture) := rfl

theorem chEcc_apart {ch : Nat} (h : ch < 32) : ∀ a ∈ [rMEM_UE_SNAP, rMEM_UE0, rMEM_UE1, rMEM_UE2, rMEM_SCRUB], a ≠ rMEM_CH_ECC ch := by
  simp only [List.mem_cons, List.not_mem_nil, or_false, rMEM_CH_ECC, rMEM_UE_SNAP, rMEM_UE0, rMEM_UE1, rMEM_UE2, rMEM_SCRUB]
  omega

/-- One line of an uncorrectable error: poisoned, counted and captured. -/
theorem memUe_effect {p : MemPlace} (hp : p.ch < 32) (line src : Nat) {t : State} (e : s.memUe p [line] src = t) :
    t.badLines = SMap.set 0 s.badLines line (SMap.get 0 s.badLines line ||| 2) ∧
      t.fld (rMEM_CH_ECC p.ch) fMEM_CH_ECC_UE = satN 32 (s.fld (rMEM_CH_ECC p.ch) fMEM_CH_ECC_UE + 1) ∧
      t.fld rMEM_UE_SNAP fMEM_UE_SNAP_SEQ = (s.fld rMEM_UE_SNAP fMEM_UE_SNAP_SEQ + 1) % 2 ^ 32 ∧ t.rd rMEM_UE0 = BitVec.ofNat 64 (64 * line) ∧
      t.fld rMEM_UE1 fMEM_UE1_LINES = 1 ∧ t.fld rMEM_UE1 fMEM_UE1_CH = p.ch ∧ t.rd rMEM_UE2 = BitVec.ofNat 64 s.time ∧
      t.mem.scrub = s.mem.scrub ∧ t.mem.open_ = s.mem.open_ ∧
      onlyIn (mRegs ||| mBadLines ||| mMem) [rMEM_CH_ECC p.ch, rMEM_UE_SNAP, rMEM_UE0, rMEM_UE1, rMEM_UE2] [] s t := by
  rw [memUe_eq] at e
  generalize hw : fsets 0 [(fMEM_UE1_LINES, 1), (fMEM_UE1_SOURCE, src), (fMEM_UE1_ROW, p.row), (fMEM_UE1_BANK, p.bank), (fMEM_UE1_CH, p.ch)] = w at e
  have w1 : fget w fMEM_UE1_LINES = 1 := by
    rw [← hw]
    simp (disch := decide)
  have w2 : fget w fMEM_UE1_CH = p.ch := by
    rw [← hw, fsets_cons, fsets_cons, fsets_cons, fsets_cons, fsets_cons, fsets_nil, fget_fset_self _ _ _ (by decide)]
    exact Nat.mod_eq_of_lt hp
  have hne := chEcc_apart hp
  have k1 : onlyIn (mRegs ||| mBadLines ||| mMem ||| mGlb) [rMEM_CH_ECC p.ch, rMEM_UE_SNAP, rMEM_UE0, rMEM_UE1, rMEM_UE2] [] s
      (s.setLineErr line (SMap.get 0 s.badLines line ||| 2)) :=
    .other (.refl _ _ _ _) (touches_State.setLineErr _ _ _) (by decide) rfl
  have b1 : (s.setLineErr line (SMap.get 0 s.badLines line ||| 2)).badLines = SMap.set 0 s.badLines line (SMap.get 0 s.badLines line ||| 2) := rfl
  have m1 : (s.setLineErr line (SMap.get 0 s.badLines line ||| 2)).mem = s.mem := rfl
  have r1 : (s.setLineErr line (SMap.get 0 s.badLines line ||| 2)).regs = s.regs := rfl
  generalize s.setLineErr line _ = a at *
  have k2 := k1.addSat (a := rMEM_CH_ECC p.ch) (f := fMEM_CH_ECC_UE) (n := 1) (by simp)
  have u2 : (a.addSat (rMEM_CH_ECC p.ch) fMEM_CH_ECC_UE 1).fld (rMEM_CH_ECC p.ch) fMEM_CH_ECC_UE = satN 32 (s.fld (rMEM_CH_ECC p.ch) fMEM_CH_ECC_UE + 1) := by
    rw [State.fld_addSat_self _ _ _ _ (by decide), State.fld_congr r1]
  have q2 : (a.addSat (rMEM_CH_ECC p.ch) fMEM_CH_ECC_UE 1).fld rMEM_UE_SNAP fMEM_UE_SNAP_SEQ = s.fld rMEM_UE_SNAP fMEM_UE_SNAP_SEQ := by
    rw [State.fld_addSat_other _ _ _ _ (hne rMEM_UE_SNAP (by simp)), State.fld_congr r1]
  have b2 := State.addSat_badLines a (rMEM_CH_ECC p.ch) fMEM_CH_ECC_UE 1
  have m2 := State.addSat_mem a (rMEM_CH_ECC p.ch) fMEM_CH_ECC_UE 1
  generalize a.addSat (rMEM_CH_ECC p.ch) fMEM_CH_ECC_UE 1 = b at *
  have k3 := k2.other (touches_State.onMem b fun z => { z with ue := (BitVec.ofNat 64 (64 * line), w, BitVec.ofNat 64 s.time) }) (by decide) rfl
  have m3 : (b.onMem fun z => { z with ue := (BitVec.ofNat 64 (64 * line), w, BitVec.ofNat 64 s.time) }).mem =
    { b.mem with ue := (BitVec.ofNat 64 (64 * line), w, BitVec.ofNat 64 s.time) } := rfl
  have r3 : (b.onMem fun z => { z with ue := (BitVec.ofNat 64 (64 * line), w, BitVec.ofNat 64 s.time) }).regs = b.regs := rfl
  have b3 : (b.onMem fun z => { z with ue := (BitVec.ofNat 64 (64 * line), w, BitVec.ofNat 64 s.time) }).badLines = b.badLines := rfl
  generalize b.onMem _ = c at *
  obtain ⟨c1, c2, c3, c4, c5⟩ := ueCapture_effect e
  have hm : t.mem = c.mem := c5.1.mem (by decide)
  refine ⟨?_, ?_, ?_, ?_, ?_, ?_, ?_, ?_, ?_, .of_hi (k3.trans (c5.mono (by decide) (List.subset_cons_self _ _) (fun _ h => h))) fun a ha => ?_⟩
  · rw [c5.1.badLines (by decide), b3, b2, b1]
  · rw [fld_of_rd (c5.2 _ (fun h => hne _ (List.mem_append_left [rMEM_SCRUB] h) rfl) (by simp)), State.fld_congr r3, u2]
  · rw [c1, State.fld_congr r3, q2]
  · rw [c2, m3]
  · rw [State.fld, c3, m3]
    exact w1
  · rw [State.fld, c3, m3]
    exact w2
  · rw [c4, m3]
  · rw [hm, m3, m2, m1]
  · rw [hm, m3, m2, m1]
  · simp only [List.mem_cons, List.not_mem_nil, or_false, rMEM_CH_ECC, rMEM_UE_SNAP, rMEM_UE0, rMEM_UE1, rMEM_UE2] at ha
    omega

/-! ### The scrubber (R393) -/

theorem scrubRead_runs {err : EccErr} {t : State} (hg : s.glb ≠ 0) (e : s.scrubRead err = t) : exec (.scrubRead err) s = .next t := next_live hg e

theorem scrubRead_off (h : s.flag rMEM_SCRUB fMEM_SCRUB_EN = false ∨ s.selfRefresh = true) (err : EccErr) : s.scrubRead err = s :=
  if_pos (by simpa using h)

theorem scrubRead_clean (h1 : s.flag rMEM_SCRUB fMEM_SCRUB_EN = true) (h2 : s.selfRefresh = false) (h : s.lineErr s.mem.scrub % 4 = 0) :
    s.scrubRead .none = s.scrubNext := by
  unfold State.scrubRead
  dsimp only
  rw [if_neg (by simp [h1, h2]), if_neg (by decide), if_neg (by simp; omega), if_neg (by simp; omega)]

theorem scrubRead_data (h1 : s.flag rMEM_SCRUB fMEM_SCRUB_EN = true) (h2 : s.selfRefresh = false)
    (h : (s.billet (64 * s.mem.scrub / 16384)).used = false) : s.scrubRead .data =
      (((s.memUe (s.place379 (64 * s.mem.scrub)) [s.mem.scrub] 1).storeWrite (64 * s.mem.scrub) (List.replicate 64 0)).addSat rMEM_SCRUB
        fMEM_SCRUB_CLEARED 1).scrubNext := by
  unfold State.scrubRead
  dsimp only
  rw [if_neg (by simp [h1, h2]), if_neg (by decide), if_pos (by simp), show billetBytes = 16384 from rfl]
  simp only [List.filter_cons, List.filter_nil, List.any_cons, List.any_nil, h, Bool.not_false, if_true, Bool.or_false, Bool.false_eq_true,
    if_false, List.foldl_cons, List.foldl_nil]

/-- The data lines of the store. -/
theorem storeLines_eq : storeBytes / 64 = 469762048 := by decide

theorem scrubNext_inside (h : s.mem.scrub + 1 < 469762048) {t : State} (e : s.scrubNext = t) : t.mem.scrub = s.mem.scrub + 1 ∧
    t.fld rMEM_SCRUB fMEM_SCRUB_PROGRESS = (s.mem.scrub + 1) * 256 / 469762048 ∧
    t.fld rMEM_SCRUB fMEM_SCRUB_CLEARED = s.fld rMEM_SCRUB fMEM_SCRUB_CLEARED ∧ t.store = s.store ∧ onlyIn (mRegs ||| mMem) [rMEM_SCRUB] [] s t := by
  unfold State.scrubNext at e
  dsimp only at e
  rw [storeLines_eq, if_neg (Nat.ne_of_lt h)] at e
  have k : onlyIn (mRegs ||| mMem ||| mGlb) [rMEM_SCRUB] [] s (s.onMem fun z => { z with scrub := (s.mem.scrub + 1) % 469762048 }) :=
    .other (.refl _ _ _ _) (touches_State.onMem _ _) (by decide) rfl
  have hm : (s.onMem fun z => { z with scrub := (s.mem.scrub + 1) % 469762048 }).mem.scrub = s.mem.scrub + 1 := Nat.mod_eq_of_lt h
  have hr : (s.onMem fun z => { z with scrub := (s.mem.scrub + 1) % 469762048 }).regs = s.regs := rfl
  have hs : (s.onMem fun z => { z with scrub := (s.mem.scrub + 1) % 469762048 }).store = s.store := rfl
  generalize s.onMem _ = u at *
  rw [← e]
  refine ⟨?_, ?_, ?_, ?_, .of_hi (.setFld k) (by decide)⟩
  · rw [State.setFld_mem, hm]
  · rw [State.fld_setFld_self _ _ _ _ (by decide)]
    refine Nat.mod_eq_of_lt ?_
    show _ < 256
    omega
  · rw [State.fld_setFld_apart _ _ _ _ _ _ (by decide), State.fld_congr hr]
  · rw [State.setFld_store, hs]

theorem scrubNext_last (h : s.mem.scrub + 1 = 469762048) : s.scrubNext =
    (((s.onMem fun z => { z with scrub := 0 }).addMod rMEM_SCRUB fMEM_SCRUB_PASSES 1).setFld rMEM_SCRUB fMEM_SCRUB_PROGRESS 0).raise 710 := by
  unfold State.scrubNext
  dsimp only
  rw [storeLines_eq, if_pos h, h, Nat.mod_self]

theorem scrubNext_pass (h : s.mem.scrub + 1 = 469762048) {t : State} (e : s.scrubNext = t) : t.mem.scrub = 0 ∧
    t.fld rMEM_SCRUB fMEM_SCRUB_PROGRESS = 0 ∧ t.fld rMEM_SCRUB fMEM_SCRUB_PASSES = (s.fld rMEM_SCRUB fMEM_SCRUB_PASSES + 1) % 2 ^ 16 ∧
    onlyIn (mEvent ||| mMem) [rMEM_SCRUB] [710] s t := by
  rw [scrubNext_last h] at e
  have k : onlyIn (mEvent ||| mMem ||| mGlb) [rMEM_SCRUB] [710] s (s.onMem fun z => { z with scrub := 0 }) :=
    .other (.refl _ _ _ _) (touches_State.onMem _ _) (by decide) rfl
  have hm : (s.onMem fun z => { z with scrub := 0 }).mem.scrub = 0 := rfl
  have hr : (s.onMem fun z => { z with scrub := 0 }).regs = s.regs := rfl
  generalize s.onMem _ = u at *
  rw [← e]
  refine ⟨?_, ?_, ?_, .of_hi (.raise (.setFld (.addMod k)) (by simp)) (by decide)⟩
  · rw [(touches_State.raise _ _ _ _ _).mem (by decide), State.setFld_mem, State.addMod_mem, hm]
  · simp (disch := decide)
  · simp (disch := decide) [State.fld_congr hr]

theorem storeWrite_store (a : Nat) (bs : List Byte) : (s.storeWrite a bs).store = s.store.write 0 a bs := by
  unfold State.storeWrite
  dsimp only
  split
  · rfl
  · have k (l : List Nat) (u : State) : Touches mBadLines u (l.foldl (fun (t : State) i =>
        t.onBadLines fun _ => SMap.set 0 t.badLines (a / 64 + i) (t.lineRewritten (a / 64 + i))) u) :=
      .overList (.refl _ _) fun t b => touches_State.onBadLines _ _
    exact (k _ _).store (by decide)

theorem scrub_cleared (h1 : s.flag rMEM_SCRUB fMEM_SCRUB_EN = true) (h2 : s.selfRefresh = false) (hn : s.mem.scrub + 1 < 469762048)
    (h : (s.billet (64 * s.mem.scrub / 16384)).used = false) (hg : s.glb ≠ 0) :
      completes (.scrubRead .data) s fun t => t.mem.scrub = s.mem.scrub + 1 ∧
        (∀ i < 64, t.store.byte 0 (64 * s.mem.scrub + i) = 0) ∧
        (∀ a, a < 64 * s.mem.scrub ∨ 64 * s.mem.scrub + 64 ≤ a → t.store.byte 0 a = s.store.byte 0 a) ∧
        t.fld rMEM_SCRUB fMEM_SCRUB_CLEARED = satN 16 (s.fld rMEM_SCRUB fMEM_SCRUB_CLEARED + 1) := by
  have e := scrubRead_runs hg (scrubRead_data h1 h2 h)
  have hp : (s.place379 (64 * s.mem.scrub)).ch < 32 := Nat.mod_lt _ (by decide)
  obtain ⟨-, -, -, -, -, -, -, c1, -, c2⟩ := memUe_effect hp s.mem.scrub 1 rfl
  generalize s.memUe (s.place379 (64 * s.mem.scrub)) [s.mem.scrub] 1 = u at *
  have hst := c2.1.store (by decide)
  have hcl : u.fld rMEM_SCRUB fMEM_SCRUB_CLEARED = s.fld rMEM_SCRUB fMEM_SCRUB_CLEARED :=
    fld_of_rd (c2.2 _ (fun hm => by
      have := chEcc_apart hp rMEM_SCRUB (by simp)
      simp only [List.mem_cons, List.not_mem_nil, or_false] at hm
      obtain hm | hm | hm | hm | hm := hm
      · exact this hm
      all_goals exact absurd hm (by decide)) (by simp))
  have s2 := storeWrite_store (s := u) (64 * s.mem.scrub) (List.replicate 64 0)
  have t2 := touches_State.storeWrite u (64 * s.mem.scrub) (List.replicate 64 0)
  generalize u.storeWrite (64 * s.mem.scrub) (List.replicate 64 0) = v at *
  have f3 : (v.addSat rMEM_SCRUB fMEM_SCRUB_CLEARED 1).fld rMEM_SCRUB fMEM_SCRUB_CLEARED = satN 16 (s.fld rMEM_SCRUB fMEM_SCRUB_CLEARED + 1) := by
    rw [State.fld_addSat_self _ _ _ _ (by decide), State.fld_congr (t2.regs (by decide)), hcl]
  have m3 : (v.addSat rMEM_SCRUB fMEM_SCRUB_CLEARED 1).mem.scrub = s.mem.scrub := by
    rw [State.addSat_mem, t2.mem (by decide), c1]
  have s3 := (State.addSat_store v rMEM_SCRUB fMEM_SCRUB_CLEARED 1).trans s2
  generalize v.addSat rMEM_SCRUB fMEM_SCRUB_CLEARED 1 = w at *
  obtain ⟨d1, -, d3, d4, -⟩ := scrubNext_inside (s := w) (by omega) rfl
  refine ⟨_, e, d1.trans (by rw [m3]), fun i hi => ?_, fun a ha => ?_, d3.trans f3⟩
  · rw [d4, s3, Memory.byte_write_in _ _ _ _ _ (by rw [List.length_replicate]; exact hi), List.getD_replicate _ hi]
  · rw [d4, s3, Memory.byte_write_out _ _ _ _ _ (by rw [List.length_replicate]; exact ha), hst]

end

end Sys2Proof

end

section
/-! SUPPORT. The granules of a channel, and O47 (R381 to R384, R391). -/

set_option Elab.async false

namespace Sys2Proof

open Sys2Proof.Machine

section

variable {s u : State} {g h : Granule} {p q : MemPlace}

/-! ### The granule that is issued (R382, R383) -/

/-- `u` differs from `s` in the open row of `p`, and in what a channel notes when it issues a granule. -/
def issued (s u : State) (p : MemPlace) : Prop := u.badLines = s.badLines ∧ u.mem.lost = s.mem.lost ∧ u.regs = s.regs ∧ u.time = s.time ∧
  SMap.get none u.mem.open_ (8 * p.ch + p.bank) = some p.row ∧
  (∀ k, k ≠ 8 * p.ch + p.bank → SMap.get none u.mem.open_ k = SMap.get none s.mem.open_ k) ∧ onlyIn (mFreeCtr ||| mMem) [] [] s u

theorem rowOpened_open (s : State) (p : MemPlace) : (s.rowOpened p).mem.open_ = SMap.set none s.mem.open_ (8 * p.ch + p.bank) (some p.row) := rfl

theorem granulePick_picks (ch : Nat) {gs : List Granule} (hh : s.granuleHead gs = some g)
    (hu : ∀ x, (gs.find? fun y => (s.granuleRank y).1 == (s.granuleRank g).1 && s.rowOpen y) = some x → x = g) :
    ∃ t, s.granulePick ch gs = some (g, t) ∧ t.badLines = s.badLines ∧ t.mem.lost = s.mem.lost ∧ t.mem.open_ = s.mem.open_ ∧ t.regs = s.regs ∧
      t.time = s.time ∧ Touches (mFreeCtr ||| mMem) s t := by
  have hk {t : State} (f : Mem → Mem) (e : (s.fresh.2.onMem f) = t) : Touches (mFreeCtr ||| mMem) s t :=
    e ▸ ((touches_State.fresh s).mono (by decide)).trans ((touches_State.onMem _ _).mono (by decide))
  unfold State.granulePick
  rw [hh, Option.map_some]
  dsimp only
  split
  case h_1 x hx =>
    cases hu x hx
    split
    · exact ⟨_, rfl, rfl, rfl, rfl, rfl, rfl, hk _ rfl⟩
    · exact ⟨_, rfl, rfl, rfl, rfl, rfl, rfl, hk _ rfl⟩
  case h_2 => exact ⟨_, rfl, rfl, rfl, rfl, rfl, rfl, hk _ rfl⟩

theorem refreshOld_none {ch : Nat} (hp : s.fld (rMEM_CH_STATUS ch) fMEM_CH_STATUS_POSTPONED = 0) (gs : List Granule) : s.refreshOld ch gs = s :=
  if_pos (by rw [hp]; rfl)

/-- A channel that has none of its refreshes postponed issues what it picks. -/
theorem channelIssue_issues {ch : Nat} (hpost : s.fld (rMEM_CH_STATUS ch) fMEM_CH_STATUS_POSTPONED = 0) {l gs : List Granule}
    (hm : (l.filter fun g => (s.place379 (64 * g.line.val)).ch == ch) = l)
    (hs : (if s.drains ch (l.filter fun g => !g.write).length (l.filter fun g => g.write).length then l.filter fun g => g.write
      else l.filter fun g => !g.write) = gs) (hh : s.granuleHead gs = some g)
    (hu : ∀ x, (gs.find? fun y => (s.granuleRank y).1 == (s.granuleRank g).1 && s.rowOpen y) = some x → x = g) (err : EccErr) :
    ∃ u, s.channelIssue ch l err = u.granule g err ∧ issued s u (s.place379 (64 * g.line)) := by
  obtain ⟨t, ht, h1, h2, h3, h4, h5, h6⟩ := granulePick_picks ch hh hu
  unfold State.channelIssue
  dsimp only
  rw [hm, refreshOld_none hpost, hs, ht]
  dsimp only
  have k (on : Bool) : Touches (mFreeCtr ||| mMem) t ((t.onMem fun z => { z with drain := SMap.set false z.drain ch on }).rowOpened (s.place379 (64 * g.line))) :=
    ((touches_State.onMem _ _).mono (m' := mFreeCtr ||| mMem) (by decide)).trans ((touches_State.rowOpened _ _).mono (by decide))
  refine ⟨_, rfl, h1, h2, h4, h5, by rw [rowOpened_open, SMap.get_set_same], fun k hk => ?_, h6.trans (k _), fun a _ _ => State.rd_congr h4 a⟩
  rw [rowOpened_open, SMap.get_set_other _ _ _ _ hk]
  exact congrArg (fun m => SMap.get none m k) h3

theorem channelIssue_none {ch : Nat} {gs : List Granule} (h : ∀ g ∈ gs, (s.place379 (64 * g.line)).ch ≠ ch) (err : EccErr) :
    s.channelIssue ch gs err = s := by
  have hm : (gs.filter fun g => (s.place379 (64 * g.line.val)).ch == ch) = [] :=
    List.filter_eq_nil_iff.mpr fun g hg => by simpa using h g hg
  unfold State.channelIssue
  dsimp only
  rw [hm, List.filter_nil, List.filter_nil, ite_self]
  rfl

theorem memGranule_runs {ch : Fin 32} {l : List Granule} {err : EccErr} {t : State} (hg : s.glb ≠ 0) (e : s.channelIssue ch l err = t) :
    exec (.memGranule ch l err) s = .next t := next_live hg e

/-- One granule alone on its channel. -/
theorem channelIssue_single {ch : Fin 32} (hpost : s.fld (rMEM_CH_STATUS ch) fMEM_CH_STATUS_POSTPONED = 0) (hp : p = s.place379 (64 * g.line))
    (hc : p.ch = ch) (err : EccErr) : ∃ u, s.channelIssue ch [g] err = u.granule g err ∧ issued s u p := by
  subst hp
  have hm : ([g].filter fun g => (s.place379 (64 * g.line.val)).ch == ch.val) = [g] := List.filter_cons_of_pos (by rw [hc]; exact beq_self_eq_true _)
  refine channelIssue_issues hpost hm (gs := [g]) ?_ rfl (fun x hx => List.mem_singleton.mp (List.mem_of_find?_eq_some hx)) err
  cases hw : g.write with
  | true => simp [hw, State.drains]
  | false => simp [hw, State.drains]

/-! ### Its lines (R381, R391) -/

theorem granuleLines_one (hm : g.more = 0) : s.granuleLines g = [g.line.val] := by
  unfold State.granuleLines
  dsimp only
  rw [hm, show upTo ((0 : Fin 4).val + 1) = [0] from rfl]
  exact List.filterMap_cons_some (if_pos rfl)

theorem granuleLines_nodup (s : State) (g : Granule) : (s.granuleLines g).Nodup := by
  refine List.nodup_range.filterMap fun a a' b ha hb => ?_
  rw [Option.mem_def, Option.ite_none_right_eq_some] at ha hb
  have h1 := Option.some.inj ha.2
  have h2 := Option.some.inj hb.2
  omega

theorem lineRewritten_of {k : Nat} (hb : SMap.get 0 u.badLines k = SMap.get 0 s.badLines k) (hm : u.mem.lost = s.mem.lost) (hr : u.regs = s.regs) :
    u.lineRewritten k = s.lineRewritten k := by
  unfold State.lineRewritten
  rw [hb, hm, place379_of (State.rd_congr hr _)]

/-- Lines that are written hold good data, but for a flip that waited for the write. -/
theorem linesWritten (l : List Nat) (hl : l.Nodup) (err : Nat → EccErr) (u : State) {t : State}
    (e : l.foldl (fun (t : State) k => t.granuleLine k true (err k)) u = t) :
    (∀ k, SMap.get 0 t.badLines k = if k ∈ l then u.lineRewritten k else SMap.get 0 u.badLines k) ∧ t.mem = u.mem ∧ t.regs = u.regs ∧
      Touches mBadLines u t := by
  induction l generalizing u with
  | nil =>
    subst e
    exact ⟨fun k => by simp, rfl, rfl, .refl _ _⟩
  | cons a l ih =>
    obtain ⟨ha, hl⟩ := List.nodup_cons.mp hl
    obtain ⟨h1, h2, h3, h4⟩ := ih hl (u.setLineErr a (u.lineRewritten a)) e
    refine ⟨fun k => ?_, h2, h3, (touches_State.setLineErr u _ _).trans h4⟩
    rw [h1 k]
    by_cases hk : k = a
    · rw [if_neg (hk ▸ ha), if_pos (hk ▸ List.mem_cons_self), hk, State.setLineErr_badLines, SMap.get_set_same]
    · have hb : SMap.get 0 (u.setLineErr a (u.lineRewritten a)).badLines k = SMap.get 0 u.badLines k := by
        rw [State.setLineErr_badLines, SMap.get_set_other _ _ _ _ hk]
      rw [hb, lineRewritten_of hb rfl rfl]
      simp only [List.mem_cons, hk, false_or]

/-- The capture of an error leaves the open rows as they are. -/
theorem ueTaken_open (s : State) (ue : Word × Word × Word) : (s.onMem fun z => { z with ue := ue }).ueCapture.mem.open_ = s.mem.open_ := by
  have h : (s.onMem fun z => { z with ue := ue }).mem.open_ = s.mem.open_ := rfl
  generalize s.onMem _ = u at *
  rw [(touches_State.ueCapture _).mem (by decide), h]

theorem memUe_open (s : State) (p : MemPlace) (lines : List Nat) (src : Nat) : (s.memUe p lines src).mem.open_ = s.mem.open_ := by
  have k : Touches mBadLines s (lines.foldl (fun t l => t.setLineErr l (SMap.get 0 t.badLines l ||| 2)) s) :=
    .overList (.refl _ _) fun t b => touches_State.setLineErr _ _ _
  unfold State.memUe
  dsimp only
  rw [ueTaken_open, State.addSat_mem, k.mem (by decide)]

theorem memCe_mem (s : State) (ch : Nat) : (s.memCe ch).mem = s.mem := (touches_State.memCe _ _).mem (by decide)

theorem setLineErr_mem (s : State) (l v : Nat) : (s.setLineErr l v).mem = s.mem := rfl

theorem granuleLine_open (s : State) (line : Nat) (w : Bool) (err : EccErr) : (s.granuleLine line w err).mem.open_ = s.mem.open_ := by
  have hr (t : State) (o : Option Nat) : (t.raise 704 o).mem.open_ = t.mem.open_ := congrArg Mem.open_ ((touches_State.raise _ _ _ _ _).mem (by decide))
  unfold State.granuleLine
  dsimp only
  split
  · rfl
  split
  · rw [hr, memUe_open]
  split
  · rw [hr, memUe_open]
  split
  · rw [setLineErr_mem, memCe_mem]
  · rfl

theorem granule_open (s : State) (g : Granule) (err : EccErr) : (s.granule g err).mem.open_ = s.mem.open_ := by
  have k (l : List Nat) (t : State) : (l.foldl (fun t k => t.granuleLine k g.write (if k = g.line.val then err else .none)) t).mem.open_ =
      t.mem.open_ := by
    induction l generalizing t with
    | nil => rfl
    | cons a l ih => exact (ih _).trans (granuleLine_open _ _ _ _)
  exact k _ _

theorem granule_read (hw : g.write = false) (hm : g.more = 0) (err : EccErr) : u.granule g err = u.granuleLine g.line false err := by
  unfold State.granule
  rw [granuleLines_one hm, hw, List.foldl_cons, List.foldl_nil, if_pos rfl]

theorem or_two_testBit (n : Nat) : (n ||| 2) / 2 % 2 = 1 := by
  have h : (n ||| 2).testBit 1 = true := by rw [Nat.testBit_or, show (2 : Nat).testBit 1 = true from rfl, Bool.or_true]
  rw [Nat.testBit_eq_decide_div_mod_eq] at h
  exact of_decide_eq_true h

theorem memCe_effect (ch : Fin 32) {t : State} (e : u.memCe ch = t) :
    t.fld (rMEM_CH_ECC ch) fMEM_CH_ECC_CE = satN 32 (u.fld (rMEM_CH_ECC ch) fMEM_CH_ECC_CE + 1) ∧
      t.fld (rMEM_CH_ECC ch) fMEM_CH_ECC_UE = u.fld (rMEM_CH_ECC ch) fMEM_CH_ECC_UE ∧ t.badLines = u.badLines ∧
      onlyIn mEvent [rMEM_CH_ECC ch] [672 + ch] u t := by
  have hre : rMEM_CH_ECC ch < 0x10000 ∨ 0x12000 + 8 * (672 + ch.val) < rMEM_CH_ECC ch := by simp only [rMEM_CH_ECC]; omega
  have f1 : (u.addSat (rMEM_CH_ECC ch) fMEM_CH_ECC_CE 1).fld (rMEM_CH_ECC ch) fMEM_CH_ECC_CE =
    satN 32 (u.fld (rMEM_CH_ECC ch) fMEM_CH_ECC_CE + 1) := State.fld_addSat_self _ _ _ _ (by decide)
  have f2 : (u.addSat (rMEM_CH_ECC ch) fMEM_CH_ECC_CE 1).fld (rMEM_CH_ECC ch) fMEM_CH_ECC_UE = u.fld (rMEM_CH_ECC ch) fMEM_CH_ECC_UE :=
    State.fld_addSat_apart _ _ _ _ _ _ (by decide)
  have k : onlyIn mEvent [rMEM_CH_ECC ch] [672 + ch.val] u (u.addSat (rMEM_CH_ECC ch) fMEM_CH_ECC_CE 1) :=
    .of_hi (.addSat (.refl _ _ _ _)) fun a ha => by simp only [List.mem_singleton, rMEM_CH_ECC] at ha; omega
  have b := State.addSat_badLines u (rMEM_CH_ECC ch) fMEM_CH_ECC_CE 1
  unfold State.memCe at e
  generalize u.addSat (rMEM_CH_ECC ch) fMEM_CH_ECC_CE 1 = v at *
  rw [← e]
  refine ⟨?_, ?_, ?_, .raiseLim k⟩
  · rw [State.fld_raiseLim_other _ _ _ _ _ _ _ _ _ hre, f1]
  · rw [State.fld_raiseLim_other _ _ _ _ _ _ _ _ _ hre, f2]
  · rw [(touches_State.raiseLim _ _ _ _ _ _ _).badLines (by decide), b]

/-! ### The clauses of one granule -/

section

variable {ch : Fin 32} (hg : s.glb ≠ 0) (hpost : s.fld (rMEM_CH_STATUS ch) fMEM_CH_STATUS_POSTPONED = 0) (hp : p = s.place379 (64 * g.line))
  (hc : p.ch = ch)

include hg hpost hp hc

theorem granule_written (hw : g.write = true) (err : EccErr) : completes (.memGranule ch [g] err) s fun t =>
      (∀ k, SMap.get 0 t.badLines k = if k ∈ s.granuleLines g then s.lineRewritten k else SMap.get 0 s.badLines k) ∧
      SMap.get none t.mem.open_ (8 * ch + p.bank) = some p.row ∧ onlyIn (mFreeCtr ||| mBadLines ||| mMem) [] [] s t := by
  obtain ⟨u, e, h1, h2, h3, -, h5, -, h7⟩ := channelIssue_single hpost hp hc err
  have hl : u.granuleLines g = s.granuleLines g := by
    unfold State.granuleLines State.grain
    rw [State.fld_congr h3]
  have hgr : u.granule g err = (s.granuleLines g).foldl (fun t k => t.granuleLine k true (if k = g.line.val then err else .none)) u := by
    unfold State.granule
    rw [hl, hw]
  have ho := granule_open u g err
  obtain ⟨w1, -, w3, w4⟩ := linesWritten _ (granuleLines_nodup s g) (fun k => if k = g.line.val then err else .none) u hgr.symm
  have er := memGranule_runs hg e
  generalize u.granule g err = t at *
  refine ⟨t, er, fun k => ?_, ?_, (h7.1.mono (by decide)).trans (w4.mono (by decide)), fun a _ _ => (State.rd_congr w3 a).trans (State.rd_congr h3 a)⟩
  · rw [w1 k, lineRewritten_of (congrArg (SMap.get 0 · k) h1) h2 h3, h1]
  · rw [ho, ← hc, h5]

theorem granule_clean (hw : g.write = false) (hm : g.more = 0) (he : s.lineErr g.line % 4 = 0) : completes (.memGranule ch [g] .none) s fun t =>
      SMap.get none t.mem.open_ (8 * ch + p.bank) = some p.row ∧ onlyIn (mFreeCtr ||| mMem) [] [] s t := by
  obtain ⟨u, e, h1, h2, h3, -, h5, -, h7⟩ := channelIssue_single hpost hp hc .none
  have hl : u.lineErr g.line = s.lineErr g.line := by
    unfold State.lineErr
    rw [h1, h2, place379_of (State.rd_congr h3 _)]
  have hgr : u.granuleLine g.line false .none = u := by
    unfold State.granuleLine
    dsimp only
    rw [if_neg Bool.false_ne_true, if_neg (by decide), hl, if_neg (by simp; omega), if_neg (by simp; omega)]
  rw [granule_read hw hm, hgr] at e
  exact ⟨u, memGranule_runs hg e, hc ▸ h5, h7⟩

theorem granule_corrected (hw : g.write = false) (hm : g.more = 0) (he : s.lineErr g.line / 2 % 2 = 0) :
    completes (.memGranule ch [g] .single) s fun t =>
      t.fld (rMEM_CH_ECC ch) fMEM_CH_ECC_CE = satN 32 (s.fld (rMEM_CH_ECC ch) fMEM_CH_ECC_CE + 1) ∧
      t.fld (rMEM_CH_ECC ch) fMEM_CH_ECC_UE = s.fld (rMEM_CH_ECC ch) fMEM_CH_ECC_UE ∧
      (∀ k : Nat, k ≠ g.line → SMap.get 0 t.badLines k = SMap.get 0 s.badLines k) ∧
      onlyIn (mEvent ||| mFreeCtr ||| mBadLines ||| mMem) [rMEM_CH_ECC ch] [672 + ch] s t := by
  obtain ⟨u, e, h1, h2, h3, -, h5, -, h7⟩ := channelIssue_single hpost hp hc .single
  have hl : u.lineErr g.line = s.lineErr g.line := by
    unfold State.lineErr
    rw [h1, h2, place379_of (State.rd_congr h3 _)]
  have hgr : u.granuleLine g.line false .single =
      (u.memCe ch).setLineErr g.line (SMap.get 0 u.badLines g.line - s.lineErr g.line % 2) := by
    unfold State.granuleLine
    dsimp only
    rw [if_neg Bool.false_ne_true, if_neg (by decide), hl, if_neg (by simp; omega), if_pos (by simp), place379_of (State.rd_congr h3 _), ← hp, hc]
  rw [granule_read hw hm, hgr] at e
  have er := memGranule_runs hg e
  obtain ⟨c1, c2, c3, c4⟩ := memCe_effect (u := u) ch rfl
  generalize u.memCe ch = v at *
  have k := (h7.mono (m' := mEvent ||| mFreeCtr ||| mBadLines ||| mMem) (l' := [rMEM_CH_ECC ch]) (srcs' := [672 + ch.val]) (by decide)
    (List.nil_subset _) (List.nil_subset _)).trans (c4.mono (by decide) (fun _ h => h) (fun _ h => h))
  rw [State.fld_congr h3] at c1 c2
  have hr := (touches_State.setLineErr v g.line (SMap.get 0 u.badLines g.line - s.lineErr g.line % 2)).regs (by decide)
  refine ⟨_, er, (State.fld_congr hr _ _).trans c1, (State.fld_congr hr _ _).trans c2, fun k hk => ?_,
    .other k (touches_State.setLineErr _ _ _) (by decide) hr⟩
  rw [State.setLineErr_badLines, SMap.get_set_other _ _ _ _ hk, c3, h1]

theorem granule_poisoned (hw : g.write = false) (hm : g.more = 0) : completes (.memGranule ch [g] .data) s fun t =>
      t.fld (rMEM_CH_ECC ch) fMEM_CH_ECC_UE = satN 32 (s.fld (rMEM_CH_ECC ch) fMEM_CH_ECC_UE + 1) ∧
      SMap.get 0 t.badLines g.line / 2 % 2 = 1 ∧ t.fld rMEM_UE_SNAP fMEM_UE_SNAP_SEQ = (s.fld rMEM_UE_SNAP fMEM_UE_SNAP_SEQ + 1) % 2 ^ 32 ∧
      t.rd rMEM_UE0 = BitVec.ofNat 64 (64 * g.line) ∧ t.fld rMEM_UE1 fMEM_UE1_CH = ch ∧ t.fld rMEM_UE1 fMEM_UE1_LINES = 1 ∧
      t.rd rMEM_UE2 = BitVec.ofNat 64 s.time ∧
      onlyIn (mEvent ||| mFreeCtr ||| mBadLines ||| mMem) [rMEM_CH_ECC ch, rMEM_UE_SNAP, rMEM_UE0, rMEM_UE1, rMEM_UE2] [704] s t := by
  obtain ⟨u, e, h1, h2, h3, h4, h5, -, h7⟩ := channelIssue_single hpost hp hc .data
  have hgr : u.granuleLine g.line false .data = (u.memUe p [g.line.val] 0).raise 704 (some p.ch) := by
    unfold State.granuleLine
    dsimp only
    rw [if_neg Bool.false_ne_true, if_neg (by decide), if_pos (by simp), place379_of (State.rd_congr h3 _), ← hp]
  rw [granule_read hw hm, hgr] at e
  have er := memGranule_runs hg e
  have hp32 : p.ch < 32 := hc ▸ ch.2
  obtain ⟨c1, c2, c3, c4, c5, c6, c7, -, -, c8⟩ := memUe_effect (s := u) hp32 g.line.val 0 rfl
  generalize u.memUe p [g.line.val] 0 = v at *
  rw [State.fld_congr h3] at c2 c3
  rw [hc] at c2 c6 c8
  have hre : rMEM_CH_ECC ch < 0x10000 ∨ 0x12000 + 8 * 704 < rMEM_CH_ECC ch := by simp only [rMEM_CH_ECC]; omega
  refine ⟨_, er, ?_, ?_, ?_, ?_, ?_, ?_, ?_, .raise ((h7.mono (by decide) (List.nil_subset _) (List.nil_subset _)).trans
    (c8.mono (by decide) (fun _ h => h) (List.nil_subset _)))⟩
  · rw [State.fld_raise_other _ _ _ _ _ _ _ hre, c2]
  · rw [(touches_State.raise _ _ _ _ _).badLines (by decide), c1, SMap.get_set_same, or_two_testBit]
  · rw [State.fld_raise_other _ _ _ _ _ _ _ (by decide), c3]
  · rw [State.rd_raise_other _ _ _ _ _ _ (by decide), c4]
  · rw [State.fld_raise_other _ _ _ _ _ _ _ (by decide), c6]
  · rw [State.fld_raise_other _ _ _ _ _ _ _ (by decide), c5]
  · rw [State.rd_raise_other _ _ _ _ _ _ (by decide), c7, h4]

end

end

end Sys2Proof

end

section
/-! SUPPORT. The order of two reads, and O47 (R382). -/

set_option Elab.async false

namespace Sys2Proof

open Sys2Proof.Machine

/-! ### Which of two reads goes first (R382) -/

/-- Rank `a` goes before rank `b`. -/
def ranksBefore (a b : Nat × Nat) : Prop := a.1 < b.1 ∨ (a.1 = b.1 ∧ a.2 < b.2)

section

variable {s : State} {g h : Granule} {p q : MemPlace}

theorem granuleRank_plain (hp : s.promoted g = false) :
    s.granuleRank g = (1 + g.cls.val, if g.cls.val < 2 then 4096 * g.due + g.ctx.val else g.since) := if_neg (by rw [hp]; exact Bool.false_ne_true)

theorem granuleRank_promoted (hp : s.promoted g = true) : s.granuleRank g = (0, g.since) := if_pos hp

theorem ranksBefore_of (ho : (s.promoted g = false ∧ s.promoted h = false ∧ (g.cls < h.cls ∨ g.cls = h.cls ∧ g.cls < 2 ∧ g.due < h.due)) ∨
      (s.promoted g = true ∧ (s.promoted h = false ∨ g.since < h.since))) : ranksBefore (s.granuleRank g) (s.granuleRank h) := by
  unfold ranksBefore
  obtain ⟨hg, hh, hc | ⟨hc, h2, hd⟩⟩ | ⟨hg, hh⟩ := ho
  · rw [granuleRank_plain hg, granuleRank_plain hh]
    left
    exact Nat.add_lt_add_left hc 1
  · rw [granuleRank_plain hg, granuleRank_plain hh, ← hc, if_pos (show g.cls.val < 2 from h2), if_pos (show g.cls.val < 2 from h2)]
    right
    refine ⟨rfl, ?_⟩
    show 4096 * g.due + g.ctx.val < 4096 * h.due + h.ctx.val
    omega
  · rw [granuleRank_promoted hg]
    cases hp : s.promoted h with
    | false =>
      rw [granuleRank_plain hp]
      left
      show 0 < 1 + h.cls.val
      omega
    | true =>
      rw [granuleRank_promoted hp]
      exact .inr ⟨rfl, hh.resolve_left (by rw [hp]; decide)⟩

theorem granuleHead_pair (ho : ranksBefore (s.granuleRank g) (s.granuleRank h)) {l : List Granule} (hl : l ∈ [[g, h], [h, g]]) :
    s.granuleHead l = some g := by
  unfold ranksBefore at ho
  simp only [List.mem_cons, List.not_mem_nil, or_false] at hl
  obtain rfl | rfl := hl
  · unfold State.granuleHead
    rw [show s.granuleHead [h] = some h from rfl]
    refine if_neg ?_
    simp only [Bool.or_eq_true, Bool.and_eq_true, decide_eq_true_eq, beq_iff_eq]
    omega
  · unfold State.granuleHead
    rw [show s.granuleHead [g] = some g from rfl]
    refine if_pos ?_
    simp only [Bool.or_eq_true, Bool.and_eq_true, decide_eq_true_eq, beq_iff_eq]
    omega

theorem mem_pair {l : List Granule} (hl : l ∈ [[g, h], [h, g]]) {x : Granule} (hx : x ∈ l) : x = g ∨ x = h := by
  simp only [List.mem_cons, List.not_mem_nil, or_false] at hl
  obtain rfl | rfl := hl
  · simpa using hx
  · exact (by simpa using hx : x = h ∨ x = g).symm

theorem twoReads {ch : Fin 32} (hg : s.glb ≠ 0) (hpost : s.fld (rMEM_CH_STATUS ch) fMEM_CH_STATUS_POSTPONED = 0)
    (hp : p = s.place379 (64 * g.line)) (hq : q = s.place379 (64 * h.line)) (hpc : p.ch = ch) (hqc : q.ch = ch) (hgw : g.write = false)
    (hhw : h.write = false) (hgo : s.rowOpen g = false) (hho : s.rowOpen h = false)
    (ho : ranksBefore (s.granuleRank g) (s.granuleRank h)) {l : List Granule} (hl : l ∈ [[g, h], [h, g]]) :
    completes (.memGranule ch l .none) s fun t => SMap.get none t.mem.open_ (8 * ch + p.bank) = some p.row ∧
      (p.bank ≠ q.bank → SMap.get none t.mem.open_ (8 * ch + q.bank) = SMap.get none s.mem.open_ (8 * ch + q.bank)) := by
  have hx {P : Granule → Prop} (h1 : P g) (h2 : P h) : ∀ x ∈ l, P x := fun x hx => (mem_pair hl hx).elim (· ▸ h1) (· ▸ h2)
  have hm : (l.filter fun g => (s.place379 (64 * g.line.val)).ch == ch.val) = l :=
    List.filter_eq_self.mpr (hx (by rw [← hp, hpc]; exact beq_self_eq_true _) (by rw [← hq, hqc]; exact beq_self_eq_true _))
  have hw : (l.filter fun g => g.write) = [] := List.filter_eq_nil_iff.mpr (hx (by rw [hgw]; decide) (by rw [hhw]; decide))
  have hr : (l.filter fun g => !g.write) = l := List.filter_eq_self.mpr (hx (by rw [hgw]; rfl) (by rw [hhw]; rfl))
  obtain ⟨u, e, -, -, -, -, h5, h6, -⟩ := channelIssue_issues hpost hm (gs := l) (by rw [hw, hr]; exact if_neg (by simp [State.drains]))
    (granuleHead_pair ho hl) (fun x hf => by
      have hn := List.find?_some hf
      rw [hx (P := fun y => s.rowOpen y = false) hgo hho x (List.mem_of_find?_eq_some hf), Bool.and_false] at hn
      exact absurd hn Bool.false_ne_true) .none
  have hopen := granule_open u g .none
  rw [← hp, hpc] at h5 h6
  refine ⟨_, memGranule_runs hg e, ?_, fun hne => ?_⟩
  · rw [hopen]
    exact h5
  · rw [hopen]
    exact h6 _ (by omega)

end

/-! ### O47 -/

theorem memMapWrites (v : Word) {s : State} (hr : s.ready = true) (hs : s.selfRefresh = false) :
    (s.freeBillets ≠ nBillets →
      exec (.memMapWrite v) s = .next ((s.dropStaged .host rMEM_MAP).addSat rMEM_MAP fMEM_MAP_MAP_DISC 1)) ∧
    (s.freeBillets = nBillets → 6 ≤ fget v fMEM_MAP_GRAIN_LOG2 → fget v fMEM_MAP_GRAIN_LOG2 ≤ 14 →
      completes (.memMapWrite v) s fun t => t.fld rMEM_MAP fMEM_MAP_GRAIN_LOG2 = fget v fMEM_MAP_GRAIN_LOG2 ∧
        t.fld rMEM_MAP fMEM_MAP_XOR = fget v fMEM_MAP_XOR ∧ t.flag rMEM_MAP fMEM_MAP_MAP_BUSY = true ∧
        onlyIn (mRegs ||| mStaged) [rMEM_MAP] [] s t) ∧
    (s.freeBillets = nBillets → (fget v fMEM_MAP_GRAIN_LOG2 < 6 ∨ 14 < fget v fMEM_MAP_GRAIN_LOG2) →
      exec (.memMapWrite v) s = .next (s.dropStaged .host rMEM_MAP)) :=
  ⟨memMapWrite_busy hr hs, memMapWrite_taken hr hs, memMapWrite_illegal hr hs⟩

theorem scrubReads {s : State} (hg : s.glb ≠ 0) :
    ((s.flag rMEM_SCRUB fMEM_SCRUB_EN = false ∨ s.selfRefresh = true) → ∀ e, exec (.scrubRead e) s = .next s) ∧
    (s.flag rMEM_SCRUB fMEM_SCRUB_EN = true → s.selfRefresh = false → s.lineErr s.mem.scrub % 4 = 0 → s.mem.scrub + 1 < 469762048 →
      completes (.scrubRead .none) s fun t => t.mem.scrub = s.mem.scrub + 1 ∧
        t.fld rMEM_SCRUB fMEM_SCRUB_PROGRESS = (s.mem.scrub + 1) * 256 / 469762048 ∧
        onlyIn (mRegs ||| mMem) [rMEM_SCRUB] [] s t) ∧
    (s.flag rMEM_SCRUB fMEM_SCRUB_EN = true → s.selfRefresh = false → s.lineErr s.mem.scrub % 4 = 0 → s.mem.scrub + 1 = 469762048 →
      completes (.scrubRead .none) s fun t => t.mem.scrub = 0 ∧ t.fld rMEM_SCRUB fMEM_SCRUB_PROGRESS = 0 ∧
        t.fld rMEM_SCRUB fMEM_SCRUB_PASSES = (s.fld rMEM_SCRUB fMEM_SCRUB_PASSES + 1) % 2 ^ 16 ∧
        onlyIn (mEvent ||| mMem) [rMEM_SCRUB] [710] s t) ∧
    (s.flag rMEM_SCRUB fMEM_SCRUB_EN = true → s.selfRefresh = false → s.mem.scrub + 1 < 469762048 →
      (s.billet (64 * s.mem.scrub / 16384)).used = false →
      completes (.scrubRead .data) s fun t => t.mem.scrub = s.mem.scrub + 1 ∧
        (∀ i < 64, t.store.byte 0 (64 * s.mem.scrub + i) = 0) ∧
        (∀ a, a < 64 * s.mem.scrub ∨ 64 * s.mem.scrub + 64 ≤ a → t.store.byte 0 a = s.store.byte 0 a) ∧
        t.fld rMEM_SCRUB fMEM_SCRUB_CLEARED = satN 16 (s.fld rMEM_SCRUB fMEM_SCRUB_CLEARED + 1)) := by
  refine ⟨fun h e => scrubRead_runs hg (scrubRead_off h e), fun h1 h2 h3 h4 => ?_, fun h1 h2 h3 h4 => ?_, fun h1 h2 h3 h4 => scrub_cleared h1 h2 h3 h4 hg⟩
  · obtain ⟨c1, c2, -, -, c3⟩ := scrubNext_inside h4 rfl
    exact ⟨_, scrubRead_runs hg (scrubRead_clean h1 h2 h3), c1, c2, c3⟩
  · exact ⟨_, scrubRead_runs hg (scrubRead_clean h1 h2 h3), scrubNext_pass h4 rfl⟩

theorem refreshes (ch : Fin 32) {s : State} (hg : s.glb ≠ 0) :
    (∀ w, s.selfRefresh = true → completes (.refreshDue ch w) s fun t =>
      SMap.get 0 t.mem.refi ch = tRefi (s.fld (rMEM_CH_STATUS ch) fMEM_CH_STATUS_MR4) ∧ t.mem.open_ = s.mem.open_ ∧ onlyIn mMem [] [] s t) ∧
    (∀ w, s.selfRefresh = false → (s.dieHot ch = true ∨ w = false ∧ (s.fld (rMEM_CH_STATUS ch) fMEM_CH_STATUS_POSTPONED = 0 ∨
        s.fld (rMEM_CH_STATUS ch) fMEM_CH_STATUS_POSTPONED < s.fld rMEM_REFRESH fMEM_REFRESH_POSTPONE_MAX)) →
      completes (.refreshDue ch w) s fun t => SMap.get 0 t.mem.refi ch = tRefi (s.fld (rMEM_CH_STATUS ch) fMEM_CH_STATUS_MR4) ∧
        t.fld (rMEM_CH_STATUS ch) fMEM_CH_STATUS_POSTPONED = 0 ∧ (∀ b < 8, SMap.get none t.mem.open_ (8 * ch + b) = none) ∧
        (∀ k, (k < 8 * ch.val ∨ 8 * ch.val + 8 ≤ k) → SMap.get none t.mem.open_ k = SMap.get none s.mem.open_ k) ∧
        onlyIn (mRegs ||| mMem) [rMEM_CH_STATUS ch] [] s t) ∧
    (s.selfRefresh = false → s.dieHot ch = false →
      s.fld (rMEM_CH_STATUS ch) fMEM_CH_STATUS_POSTPONED < s.fld rMEM_REFRESH fMEM_REFRESH_POSTPONE_MAX →
      exec (.refreshDue ch true) s = .next ((s.onMem fun z => { z with
        refi := SMap.set 0 z.refi ch (tRefi (s.fld (rMEM_CH_STATUS ch) fMEM_CH_STATUS_MR4)) }).setFld (rMEM_CH_STATUS ch)
          fMEM_CH_STATUS_POSTPONED (s.fld (rMEM_CH_STATUS ch) fMEM_CH_STATUS_POSTPONED + 1))) ∧
    (∀ w, s.selfRefresh = false → s.dieHot ch = false → (w = true ∨ s.fld (rMEM_CH_STATUS ch) fMEM_CH_STATUS_POSTPONED ≠ 0) →
      s.fld rMEM_REFRESH fMEM_REFRESH_POSTPONE_MAX ≤ s.fld (rMEM_CH_STATUS ch) fMEM_CH_STATUS_POSTPONED →
      completes (.refreshDue ch w) s fun t => t.fld (rMEM_CH_STATUS ch) fMEM_CH_STATUS_POSTPONED = 0 ∧
        t.fld (rMEM_CH_STATUS ch) fMEM_CH_STATUS_FORCED = satN 32 (s.fld (rMEM_CH_STATUS ch) fMEM_CH_STATUS_FORCED + 1) ∧
        (∀ b < 8, SMap.get none t.mem.open_ (8 * ch + b) = none) ∧ onlyIn (mEvent ||| mMem) [rMEM_CH_STATUS ch] [711] s t) := by
  refine ⟨fun w h => ?_, fun w hs h => refreshDue_made hg hs h, fun hs hd h => refreshDue_postponed hg hs hd h,
    fun w hs hd hw h => refreshDue_forced hg hs hd hw h⟩
  obtain ⟨h1, h2, -, h4⟩ := refiTaken_effect (s := s) ch
  exact ⟨_, refreshDue_runs hg ((refreshDue_eq _ _).trans (if_pos h)), h1, h2, h4⟩

theorem oneGranule (ch : Fin 32) (g : Granule) (p : MemPlace) {s : State} (hg : s.glb ≠ 0)
    (hpost : s.fld (rMEM_CH_STATUS ch) fMEM_CH_STATUS_POSTPONED = 0) (hp : p = s.place379 (64 * g.line)) (hc : p.ch = ch) :
    (g.write = true → ∀ e, completes (.memGranule ch [g] e) s fun t =>
      (∀ k, SMap.get 0 t.badLines k = if k ∈ s.granuleLines g then s.lineRewritten k else SMap.get 0 s.badLines k) ∧
      SMap.get none t.mem.open_ (8 * ch + p.bank) = some p.row ∧ onlyIn (mFreeCtr ||| mBadLines ||| mMem) [] [] s t) ∧
    (g.write = false → g.more = 0 → s.lineErr g.line % 4 = 0 → completes (.memGranule ch [g] .none) s fun t =>
      SMap.get none t.mem.open_ (8 * ch + p.bank) = some p.row ∧ onlyIn (mFreeCtr ||| mMem) [] [] s t) ∧
    (g.write = false → g.more = 0 → s.lineErr g.line / 2 % 2 = 0 → completes (.memGranule ch [g] .single) s fun t =>
      t.fld (rMEM_CH_ECC ch) fMEM_CH_ECC_CE = satN 32 (s.fld (rMEM_CH_ECC ch) fMEM_CH_ECC_CE + 1) ∧
      t.fld (rMEM_CH_ECC ch) fMEM_CH_ECC_UE = s.fld (rMEM_CH_ECC ch) fMEM_CH_ECC_UE ∧
      (∀ k : Nat, k ≠ g.line → SMap.get 0 t.badLines k = SMap.get 0 s.badLines k) ∧
      onlyIn (mEvent ||| mFreeCtr ||| mBadLines ||| mMem) [rMEM_CH_ECC ch] [672 + ch] s t) ∧
    (g.write = false → g.more = 0 → completes (.memGranule ch [g] .data) s fun t =>
      t.fld (rMEM_CH_ECC ch) fMEM_CH_ECC_UE = satN 32 (s.fld (rMEM_CH_ECC ch) fMEM_CH_ECC_UE + 1) ∧
      SMap.get 0 t.badLines g.line / 2 % 2 = 1 ∧ t.fld rMEM_UE_SNAP fMEM_UE_SNAP_SEQ = (s.fld rMEM_UE_SNAP fMEM_UE_SNAP_SEQ + 1) % 2 ^ 32 ∧
      t.rd rMEM_UE0 = BitVec.ofNat 64 (64 * g.line) ∧ t.fld rMEM_UE1 fMEM_UE1_CH = ch ∧ t.fld rMEM_UE1 fMEM_UE1_LINES = 1 ∧
      t.rd rMEM_UE2 = BitVec.ofNat 64 s.time ∧
      onlyIn (mEvent ||| mFreeCtr ||| mBadLines ||| mMem) [rMEM_CH_ECC ch, rMEM_UE_SNAP, rMEM_UE0, rMEM_UE1, rMEM_UE2] [704] s t) :=
  ⟨fun hw e => granule_written hg hpost hp hc hw e, fun hw hm he => granule_clean hg hpost hp hc hw hm he,
    fun hw hm he => granule_corrected hg hpost hp hc hw hm he, fun hw hm => granule_poisoned hg hpost hp hc hw hm⟩

/-- Settles O47: each clause is the effect of one command; what a channel issues is the granule first in R382's order, and its lines' effect
that of one line at a time. -/
theorem memoryController : Obligations.MemoryController := by
  unfold Obligations.MemoryController
  refine ⟨fun v s hr hs => memMapWrites v hr hs, fun s hg => ⟨fun h => next_live hg (if_neg (by rw [h]; exact Bool.false_ne_true)), mapInitDone_effect hg⟩,
    fun v s hr => ⟨memSchedWrite_taken hr, memSchedWrite_illegal hr⟩, fun ch gs e s h => ?_,
    fun ch g p s hg hpost hp hc => oneGranule ch g p hg hpost hp hc,
    fun ch g h p q s hg hpost hp hq hpc hqc hgw hhw hgo hho ho l hl => twoReads hg hpost hp hq hpc hqc hgw hhw hgo hho (ranksBefore_of ho) hl,
    fun d k s hg => mr4Poll_effect d k hg, fun ch s hg => refreshes ch hg,
    fun ch s hg hs hp hf => ⟨retrain_passes hg ⟨hs, hp, hf⟩, retrain_fails hg ⟨hs, hp, hf⟩, retrain_fails_channel hg ⟨hs, hp, hf⟩⟩,
    fun ch ok s hg h => ?_, fun s hg => scrubReads hg, fun v s hr => memUeSnap_effect hr⟩
  · by_cases hg : s.glb = 0
    · exact congrArg Host.Outcome.next (if_pos hg)
    · exact memGranule_runs hg (channelIssue_none (h.resolve_left hg) e)
  · have e := retrain_skipped (s := s) ch ok h
    refine retrainCh_runs hg ?_
    unfold State.retrainCh
    dsimp only
    rw [e, if_neg]
    cases s.flag (rMEM_CH_STATUS ch) fMEM_CH_STATUS_FAILED
    · exact Bool.false_ne_true
    · exact Bool.false_ne_true

end Sys2Proof

end

section
/-! SUPPORT. A record into the tail billet of a cord: what is written, and what follows a write (R27, R336, R341, R351). -/

set_option Elab.async false

namespace Sys2Proof

open Sys2Proof.Machine

/-! ### Contexts that differ in what settling and publishing move -/

/-- `c'` is `c` but for its records, the progress of its destinations, its extents and billets, and what is published of it. -/
def Machine.Ctx.kin (c c' : Ctx) : Prop := ∃ rs ds es hd zp zr ze zq zs, c' = { c with
  recs := rs, dests := ds, exts := es, held := hd, zcPub := zp, zcRel := zr, zcEnds := ze, zcPos := zq, zcFullSaid := zs }

theorem kin_refl (c : Ctx) : c.kin c := ⟨_, _, _, _, _, _, _, _, _, rfl⟩

theorem kin_trans {a b c : Ctx} (h : a.kin b) (k : b.kin c) : a.kin c := by
  obtain ⟨_, _, _, _, _, _, _, _, _, rfl⟩ := h
  obtain ⟨_, _, _, _, _, _, _, _, _, rfl⟩ := k
  exact ⟨_, _, _, _, _, _, _, _, _, rfl⟩

theorem kin_st {a b : Ctx} (h : a.kin b) : b.st = a.st := by
  obtain ⟨_, _, _, _, _, _, _, _, _, rfl⟩ := h
  rfl

/-- Every context of `t` is that of `s` in this sense, with its records. -/
def kept (s t : State) : Prop := ∀ y, (s.ctx y).kin (t.ctx y) ∧ (t.ctx y).recs = (s.ctx y).recs

theorem kept_refl (s : State) : kept s s := fun _ => ⟨kin_refl _, rfl⟩

section

variable {s t u : State}

theorem kept.trans (h : kept s t) (k : kept t u) : kept s u := fun y => ⟨kin_trans (h y).1 (k y).1, (k y).2.trans (h y).2⟩

theorem ctx_of_ctxs (h : t.ctxs = s.ctxs) (y : Nat) : t.ctx y = s.ctx y := congrArg (fun m => SMap.get ctx0 m y) h

theorem kept.other (h : kept s t) {m : Nat} (k : Touches m t u) (hm : m.testBit 15 = false := by decide) : kept s u :=
  h.trans fun y => by
    rw [ctx_of_ctxs (k.ctxs hm) y]
    exact ⟨kin_refl _, rfl⟩

theorem kept.setCtx (h : kept s t) {x : Nat} {c : Ctx} (hk : (t.ctx x).kin c) (hr : c.recs = (t.ctx x).recs) : kept s (t.setCtx x c) :=
  h.trans fun y => by
    by_cases e : y = x
    · rw [e, ctx_setCtx_same]
      exact ⟨hk, hr⟩
    · rw [ctx_setCtx_other t c e]
      exact ⟨kin_refl _, rfl⟩

theorem kept.updCtx (h : kept s t) {x : Nat} {f : Ctx → Ctx} (hk : ∀ c : Ctx, c.kin (f c)) (hr : ∀ c, (f c).recs = c.recs) : kept s (t.updCtx x f) :=
  h.setCtx (hk _) (hr _)

theorem kept.ite {c : Prop} [Decidable c] (h : kept s t) (k : kept s u) : kept s (if c then t else u) := by
  split
  · exact h
  · exact k

theorem kept.overList {β : Type} {g : State → β → State} {l : List β} (h : kept s t) (k : ∀ v b, kept v (g v b)) : kept s (l.foldl g t) := by
  induction l generalizing t with
  | nil => exact h
  | cons b l ih => exact ih (h.trans (k t b))

end

theorem kept_freeBillet (s : State) (b : Nat) : kept s (s.freeBillet b) := by
  unfold State.freeBillet
  dsimp only
  refine kept.other ?_ (touches_State.addMod _ _ _ _)
  exact .updCtx (.other (kept_refl s) (touches_State.setBillet _ _ _)) (fun _ => ⟨_, _, _, _, _, _, _, _, _, rfl⟩) fun _ => rfl

theorem kept_settleBillet (s : State) (b : Nat) : kept s (s.settleBillet b) :=
  .ite (kept_refl s) (.ite (kept_refl s) (.ite ((kept_refl s).other (touches_State.setBillet _ _ _)) (.ite (kept_freeBillet s b) (kept_refl s))))

theorem kept_publish (s : State) (x d : Nat) (e : Ext) : kept s (s.publish x d e) :=
  .setCtx (.other (kept_refl s) (touches_State.hostWrite _ _ _)) ⟨_, _, _, _, _, _, _, _, _, rfl⟩ rfl

theorem kept_zcAdvance (n : Nat) (s : State) (x : Nat) : kept s (State.zcAdvance n s x) := by
  induction n generalizing s with
  | zero => exact kept_refl s
  | succ n ih =>
    unfold State.zcAdvance
    dsimp only
    split
    · exact kept_refl s
    · refine .ite (.ite (kept_refl s) ?_) ?_
      · exact .updCtx (.other (kept_refl s) (touches_State.raise _ _ _ _ _)) (fun _ => ⟨_, _, _, _, _, _, _, _, _, rfl⟩) fun _ => rfl
      · split
        · exact kept_refl s
        · exact .ite (kept_refl s) (.ite ((kept_publish s x _ _).trans (ih _)) ((kept_refl s).other (touches_State.setBillet _ _ _)))

theorem kept_zcRun (s : State) (x : Nat) : kept s (s.zcRun x) := kept_zcAdvance _ _ _

theorem closeIfDrained_open {s : State} {x : Nat} (h : (s.ctx x).st = .opened) : s.closeIfDrained x = s := if_neg (by simp [h])

theorem kin_settled (c : Ctx) : c.kin c.settled := by
  obtain ⟨rs, ds, e⟩ := settled_eq c
  rw [e]
  exact ⟨_, _, _, _, _, _, _, _, _, rfl⟩

/-- What settling an OPEN context does: its destinations pass what they need not deliver, and billets return. -/
theorem settle_open {s : State} {x : Nat} (h : (s.ctx x).st = .opened) : kept (s.updCtx x Ctx.settled) (s.settle x) := by
  rw [settle_eq]
  have k : kept (s.updCtx x Ctx.settled) ((((s.updCtx x Ctx.settled).ctx x).exts.map (·.billet)).eraseDups.foldl State.settleBillet
      (s.updCtx x Ctx.settled)) := .overList (kept_refl _) kept_settleBillet
  rwa [closeIfDrained_open]
  rw [kin_st (k x).1, ctx_updCtx_same, kin_st (kin_settled _), h]

theorem kin_settle {s : State} {x : Nat} (h : (s.ctx x).st = .opened) (y : Nat) : (s.ctx y).kin ((s.settle x).ctx y) := by
  have k := (settle_open h y).1
  by_cases e : y = x
  · rw [e, ctx_updCtx_same] at k
    rw [e]
    exact kin_trans (kin_settled _) k
  · rwa [ctx_updCtx_other s _ e] at k

/-- What follows a write into the cord of an OPEN context. -/
theorem kin_afterWrite {s0 s : State} {x : Nat} (h : (s.ctx x).st = .opened) (y : Nat) : (s.ctx y).kin ((State.afterWrite s0 s x).ctx y) := by
  have e := ctx_of_ctxs ((touches_State.extentLow s0 s).ctxs (by decide))
  unfold State.afterWrite
  rw [← e] at h ⊢
  exact kin_trans (kin_settle h y) (kept_zcRun _ x y).1

/-! ### Records that a settlement keeps -/

/-- The destinations of a context pass, one after the other, what they need not deliver. -/
def Machine.Ctx.passDest (c : Ctx) (d : Nat) : Ctx :=
  c.updDest d fun t => { t with
    fin := c.skipPast d c.recs.length (c.dest d).fin
    begun := max t.begun (c.skipPast d c.recs.length (c.dest d).fin)
    doneTo := max t.doneTo (c.skipPast d c.recs.length (c.dest d).fin) }

theorem settled_passDest (c : Ctx) : c.settled = { (c.destList.foldl Ctx.passDest c) with
    recs := (c.destList.foldl Ctx.passDest c).recs.filter fun r => (c.destList.foldl Ctx.passDest c).destList.any fun d =>
      ((c.destList.foldl Ctx.passDest c).dest d).fin < min (r.pos + r.len) ((c.destList.foldl Ctx.passDest c).destEnd d) } := rfl

theorem passDests_eq (l : List Nat) (c : Ctx) : ∃ ds, l.foldl Ctx.passDest c = { c with dests := ds } := by
  induction l generalizing c with
  | nil => exact ⟨_, rfl⟩
  | cons d l ih =>
    obtain ⟨ds, e⟩ := ih (c.passDest d)
    exact ⟨ds, e⟩

/-- A destination passes only records that end by `w`, when the first one that is not left out begins there. -/
theorem skipPast_le {c : Ctx} {d w : Nat} (h : ∀ q ∈ c.recs, q.pos + q.len ≤ w ∨ q.skips d = false) (n p : Nat) (hp : p ≤ w) : c.skipPast d n p ≤ w := by
  induction n generalizing p with
  | zero => exact hp
  | succ n ih =>
    unfold Ctx.skipPast
    split
    · next r hr =>
      split
      · next hs =>
        refine ih _ ((h r (List.mem_of_find?_eq_some hr)).resolve_right ?_)
        rw [hs]
        decide
      · exact hp
    · exact hp

theorem getD_modAt {α : Type} (f : α → α) (d : α) : ∀ (l : List α) (i k : Nat), (modAt f l i).getD k d = l.getD k d ∨
    (k = i ∧ i < l.length ∧ (modAt f l i).getD k d = f (l.getD i d))
  | [], _, _ => .inl rfl
  | a :: t, 0, 0 => .inr ⟨rfl, Nat.succ_pos _, rfl⟩
  | a :: t, 0, k + 1 => .inl rfl
  | a :: t, i + 1, 0 => .inl rfl
  | a :: t, i + 1, k + 1 => by
    obtain h | ⟨rfl, h1, h2⟩ := getD_modAt f d t i k
    · exact .inl h
    · exact .inr ⟨rfl, Nat.succ_lt_succ h1, h2⟩

theorem dest_updDest (c : Ctx) (d k : Nat) (f : DestSt → DestSt) :
    (c.updDest d f).dest k = c.dest k ∨ (k = d ∧ (c.updDest d f).dest k = f (c.dest d)) :=
  (getD_modAt f dest0 c.dests d k).imp_right fun ⟨h1, _, h2⟩ => ⟨h1, h2⟩

/-- Passing destinations moves none beyond `w`, when only records that end by `w` are left out. -/
theorem passDests_le (l : List Nat) {c : Ctx} {d w : Nat} (h : ∀ q ∈ c.recs, q.pos + q.len ≤ w ∨ q.skips d = false) (hd : (c.dest d).fin ≤ w) :
    ((l.foldl Ctx.passDest c).dest d).fin ≤ w := by
  induction l generalizing c with
  | nil => exact hd
  | cons k l ih =>
    refine ih (c := c.passDest k) h ?_
    unfold Ctx.passDest
    obtain e | ⟨rfl, e⟩ := dest_updDest c k d fun t => { t with
      fin := c.skipPast k c.recs.length (c.dest k).fin
      begun := max t.begun (c.skipPast k c.recs.length (c.dest k).fin)
      doneTo := max t.doneTo (c.skipPast k c.recs.length (c.dest k).fin) }
    · rw [e]
      exact hd
    · rw [e]
      exact skipPast_le h _ _ hd

/-- A record that destination `d` has not passed stays in the cord. -/
theorem mem_settled {c : Ctx} {d : Nat} {r : CordRec} (hr : r ∈ c.recs) (hd : d ∈ c.destList) (hf : (c.dest d).fin < r.pos + r.len)
    (he : r.pos + r.len ≤ c.destEnd d) (h : ∀ q ∈ c.recs, q.pos + q.len ≤ r.pos + r.len - 1 ∨ q.skips d = false) : r ∈ c.settled.recs := by
  have hle := passDests_le c.destList h (w := r.pos + r.len - 1) (by omega)
  obtain ⟨ds, e⟩ := passDests_eq c.destList c
  rw [e] at hle
  rw [settled_passDest, e]
  refine List.mem_filter.mpr ⟨hr, List.any_eq_true.mpr ⟨d, hd, decide_eq_true ?_⟩⟩
  show _ < min (r.pos + r.len) (c.destEnd d)
  rw [Nat.min_eq_left he]
  omega

theorem mem_settle {s : State} {x d : Nat} {r : CordRec} (hs : (s.ctx x).st = .opened) (hr : r ∈ (s.ctx x).recs) (hd : d ∈ (s.ctx x).destList)
    (hf : ((s.ctx x).dest d).fin < r.pos + r.len) (he : r.pos + r.len ≤ (s.ctx x).destEnd d)
    (h : ∀ q ∈ (s.ctx x).recs, q.pos + q.len ≤ r.pos + r.len - 1 ∨ q.skips d = false) : r ∈ ((s.settle x).ctx x).recs := by
  rw [(settle_open hs x).2, ctx_updCtx_same]
  exact mem_settled hr hd hf he h

theorem mem_afterWrite {s0 s : State} {x d : Nat} {r : CordRec} (hs : (s.ctx x).st = .opened) (hr : r ∈ (s.ctx x).recs)
    (hd : d ∈ (s.ctx x).destList) (hf : ((s.ctx x).dest d).fin < r.pos + r.len) (he : r.pos + r.len ≤ (s.ctx x).destEnd d)
    (h : ∀ q ∈ (s.ctx x).recs, q.pos + q.len ≤ r.pos + r.len - 1 ∨ q.skips d = false) : r ∈ ((State.afterWrite s0 s x).ctx x).recs := by
  have e := ctx_of_ctxs ((touches_State.extentLow s0 s).ctxs (by decide)) x
  unfold State.afterWrite
  rw [(kept_zcRun _ x x).2]
  rw [← e] at hs hr hd hf he h
  exact mem_settle hs hr hd hf he h

/-! ### Bytes at the tail (R337) -/

/-- Context `c` with `n` more bytes in its stream. -/
def Machine.Ctx.longer (c : Ctx) (n : Nat) (c' : Ctx) : Prop := ∃ es tl, c' = { c with exts := es, tail := tl, wpos := c.wpos + n }

theorem leaveTail_ctx (s : State) (x : Nat) : ∃ tl, (s.leaveTail x).ctx x = { s.ctx x with tail := tl } := by
  unfold State.leaveTail
  split
  · exact ⟨_, rfl⟩
  · exact ⟨none, (ctx_updCtx_same _ _ _).trans rfl⟩

theorem leaveTail_other (s : State) {x y : Nat} (h : y ≠ x) : (s.leaveTail x).ctx y = s.ctx y := by
  unfold State.leaveTail
  split
  · rfl
  · exact ctx_updCtx_other _ _ h

theorem append_nil (s : State) (x : Nat) : s.append x [] = s := rfl

/-- Bytes that the tail billet has room for. -/
theorem append_tail {s t : State} {x b off : Nat} {bs : List Byte} (ht : (s.ctx x).tail = some (b, off)) (hl : off + bs.length ≤ billetBytes)
    (e : s.append x bs = t) : (s.ctx x).longer bs.length (t.ctx x) ∧ (off + bs.length < billetBytes → (t.ctx x).tail = some (b, off + bs.length)) ∧
      (∀ y, y ≠ x → t.ctx y = s.ctx y) ∧ t.store = s.store.write 0 (b * billetBytes + off) bs ∧
      Touches (mStore ||| mCtxs ||| mBillets ||| mBadLines) s t := by
  cases hb : bs with
  | nil =>
    rw [hb, append_nil] at e
    rw [← e]
    exact ⟨⟨_, _, rfl⟩, fun _ => ht, fun _ _ => rfl, rfl, .refl _ _⟩
  | cons a as =>
    rw [← hb]
    have hne : bs.isEmpty = false := by rw [hb]; rfl
    have htk : bs.take (billetBytes - off) = bs := List.take_of_length_le (by omega)
    have hdr : bs.drop (billetBytes - off) = [] := List.drop_eq_nil_of_le (by omega)
    have htf : s.tailFor x = (b, off, s) := by rw [State.tailFor, ht]
    unfold State.append at e
    rw [appendTail_succ, htf, hne, if_neg Bool.false_ne_true, hdr] at e
    have hz (n : Nat) (u : State) : State.appendTail n u x [] = u := by
      cases n with
      | zero => rfl
      | succ n => rfl
    rw [hz] at e
    unfold State.fillTail at e
    rw [htf] at e
    dsimp only at e
    rw [htk] at e
    have s1 := storeWrite_store (s := s) (b * billetBytes + off) bs
    have t1 := touches_State.storeWrite s (b * billetBytes + off) bs
    generalize s.storeWrite (b * billetBytes + off) bs = u at *
    have hc (y : Nat) : u.ctx y = s.ctx y := ctx_of_ctxs (t1.ctxs (by decide)) y
    have h2 : (s.ctx x).longer bs.length ((u.updCtx x fun c => c.grown b off bs.length).ctx x) := by
      rw [ctx_updCtx_same, hc, Ctx.grown]
      obtain ⟨es, e⟩ := addBytes_eq (s.ctx x) b off bs.length
      rw [e]
      exact ⟨_, _, rfl⟩
    have h3 : ((u.updCtx x fun c => c.grown b off bs.length).ctx x).tail = some (b, off + bs.length) := by
      rw [ctx_updCtx_same]
      rfl
    have h4 (y : Nat) (hy : y ≠ x) : (u.updCtx x fun c => c.grown b off bs.length).ctx y = s.ctx y := (ctx_updCtx_other _ _ hy).trans (hc y)
    have k4 := touches_State.updCtx u x fun c => c.grown b off bs.length
    generalize (u.updCtx x fun c => c.grown b off bs.length) = v at *
    have t4 : Touches (mStore ||| mCtxs ||| mBillets ||| mBadLines) s v := (t1.mono (by decide)).trans (k4.mono (by decide))
    have st4 : v.store = s.store.write 0 (b * billetBytes + off) bs := (k4.store (by decide)).trans s1
    split at e
    case isTrue hf =>
      have k5 := touches_State.leaveTail v x
      obtain ⟨tl, h5⟩ := leaveTail_ctx v x
      have h6 (y : Nat) (hy : y ≠ x) := leaveTail_other v hy
      rw [e] at k5 h5 h6
      refine ⟨?_, fun hlt => absurd hf (by omega), fun y hy => (h6 y hy).trans (h4 y hy), (k5.store (by decide)).trans st4, t4.trans (k5.mono (by decide))⟩
      obtain ⟨es, tl', h2⟩ := h2
      rw [h5, h2]
      exact ⟨_, _, rfl⟩
    case isFalse hf =>
      rw [← e]
      exact ⟨h2, fun _ => h3, h4, st4, t4⟩

end Sys2Proof

end

section
/-! SUPPORT. One record written into the tail billet of a cord (R27, R28, R337). -/

set_option Elab.async false

namespace Sys2Proof

open Sys2Proof.Machine

theorem header_length (typ devid ctx epoch seq time len fine flags : Nat) : (header typ devid ctx epoch seq time len fine flags).length = 32 := by
  simp [header, leBytes_length]

/-- The bytes of a record of which `n` follow its header. -/
def recSize (n : Nat) : Nat := 32 + n + (tailFill n).length

theorem recSize_of_prod {r : Prod} (h : r.ring = []) : r.size = recSize (r.pre.length + r.post.length) := by
  simp [Prod.size, recSize, h]

theorem recSize_pos (n : Nat) : 0 < recSize n := by
  unfold recSize
  omega

/-- The record that a cord holds of what is written. -/
structure IsRec (q : CordRec) (seq epoch typ pos len items : Nat) : Prop where
  hseq : q.seq = seq
  hepoch : q.epoch = epoch
  htyp : q.typ = typ
  hpos : q.pos = pos
  hlen : q.len = len
  hitems : q.items = items
  hwhole : typ ≠ tyPad → ∀ d, q.skips d = false

/-- `c'` is `c` with the record `q` of `n` bytes at its end. -/
def Machine.Ctx.wrote (c : Ctx) (n : Nat) (q : CordRec) (c' : Ctx) : Prop :=
  ∃ es tl zf, c' = { c with exts := es, tail := tl, wpos := c.wpos + n, recs := c.recs ++ [q], zcFirst := zf }

theorem longer_trans {a b c : Ctx} {m n : Nat} (h : a.longer m b) (k : b.longer n c) : a.longer (m + n) c := by
  obtain ⟨_, _, rfl⟩ := h
  obtain ⟨es, tl, rfl⟩ := k
  exact ⟨es, tl, by rw [Nat.add_assoc]⟩

/-- Two pieces one after the other, which the tail billet has room for together. -/
theorem append_twice {s t : State} {x b off : Nat} {xs ys : List Byte} (ht : (s.ctx x).tail = some (b, off))
    (hl : off + (xs.length + ys.length) ≤ billetBytes) (e : (s.append x xs).append x ys = t) :
    (s.ctx x).longer (xs.length + ys.length) (t.ctx x) ∧ (∀ y, y ≠ x → t.ctx y = s.ctx y) ∧
      t.store = s.store.write 0 (b * billetBytes + off) (xs ++ ys) ∧ Touches (mStore ||| mCtxs ||| mBillets ||| mBadLines) s t := by
  obtain ⟨a1, a2, a3, a4, a5⟩ := append_tail (bs := xs) ht (by omega) rfl
  generalize s.append x xs = u at *
  by_cases hf : off + xs.length < billetBytes
  · obtain ⟨b1, -, b3, b4, b5⟩ := append_tail (bs := ys) (a2 hf) (by omega) e
    refine ⟨longer_trans a1 b1, fun y hy => (b3 y hy).trans (a3 y hy), ?_, a5.trans b5⟩
    rw [b4, a4, Memory.write_append, Nat.add_assoc]
  · have hy : ys = [] := List.length_eq_zero_iff.mp (by omega)
    rw [hy, append_nil] at e
    rw [← e, hy, List.append_nil]
    exact ⟨a1, a3, a4, a5⟩

theorem skips_replicate (seq epoch typ pos len items w : Nat) (due : List (Option Nat)) (ms : List Bool) {f : Nat → Bool} (hf : ∀ d, f d = false) (d : Nat) :
    CordRec.skips ⟨seq, epoch, typ, pos, len, items, w, due, ms, (upTo 4).map f⟩ d = false := by
  unfold CordRec.skips
  dsimp only
  rw [List.getD_eq_getElem?_getD, List.getElem?_map]
  cases (upTo 4)[d]? with
  | none => rfl
  | some k => exact hf k

/-- A record that the tail billet has room for. -/
theorem writeRecord_tail {s t : State} {x b off typ devid epoch seq time fine flags items n : Nat} {pre post : List Byte}
    (ht : (s.ctx x).tail = some (b, off)) (hn : n = pre.length + post.length) (hl : off + recSize n ≤ billetBytes)
    (e : s.writeRecord x typ devid epoch seq time fine flags items pre [] post = t) :
    (∃ q, (s.ctx x).wrote (recSize n) q (t.ctx x) ∧ IsRec q seq epoch typ (s.ctx x).wpos (recSize n) items) ∧
      (∀ y, y ≠ x → t.ctx y = s.ctx y) ∧
      t.store = s.store.write 0 (b * billetBytes + off)
        (header typ devid x epoch seq time (recSize n - 32) fine flags ++ pre ++ (post ++ tailFill n)) ∧
      Touches (mStore ||| mCtxs ||| mBillets ||| mBadLines) s t := by
  have hlen : recSize n - 32 = n + (tailFill n).length := by
    unfold recSize
    omega
  unfold State.writeRecord at e
  dsimp only [List.foldl_nil] at e
  rw [Nat.add_zero, ← hn] at e
  generalize hh : header typ devid x epoch seq time (n + (tailFill n).length) fine flags = hd at e
  have h32 : hd.length = 32 := by rw [← hh, header_length]
  have hsz : (hd ++ pre).length + (post ++ tailFill n).length = recSize n := by
    rw [List.length_append, List.length_append, h32, recSize]
    omega
  obtain ⟨a1, a3, a4, a5⟩ := append_twice ht (hsz ▸ hl) rfl
  rw [hsz] at a1
  generalize (s.append x (hd ++ pre)).append x (post ++ tailFill n) = u at *
  generalize hq : (fun c : Ctx => CordRec.mk seq epoch typ (s.ctx x).wpos (32 + (n + (tailFill n).length)) items s.time (s.deadlines c s.time)
    (List.replicate 4 false) ((upTo 4).map fun d => typ == tyPad && c.destType d == 3)) = g at *
  rw [hlen, hh, ← e]
  refine ⟨⟨g (u.ctx x), ?_, ?_⟩, fun y hy => (ctx_updCtx_other _ _ hy).trans (a3 y hy), a4, a5.trans ((touches_State.updCtx _ _ _).mono (by decide))⟩
  · rw [ctx_updCtx_same]
    obtain ⟨es, tl, h⟩ := a1
    rw [← hq, h]
    exact ⟨es, tl, _, rfl⟩
  · rw [← hq]
    exact ⟨rfl, rfl, rfl, rfl, by unfold recSize; exact (Nat.add_assoc _ _ _).symm, rfl,
      fun hp => skips_replicate _ _ _ _ _ _ _ _ _ fun d => by rw [beq_eq_false_iff_ne.mpr hp, Bool.false_and]⟩

end Sys2Proof

end

section
/-! SUPPORT. What a record leaves of its context once it is stored, and of the registers (R29, R30, R38, R39). -/

set_option Elab.async false

namespace Sys2Proof

open Sys2Proof.Machine

/-! ### Registers -/

theorem onlyIn_publish (s : State) (x d : Nat) (e : Ext) : onlyIn (mHostMem ||| mCtxs) [] [] s (s.publish x d e) :=
  .other (.other (.refl _ _ _ _) (touches_State.hostWrite _ _ _) (by decide) rfl) (touches_State.setCtx _ _ _) (by decide) rfl

theorem onlyIn_zcAdvance (n : Nat) (s : State) (x : Nat) : onlyIn (mEvent ||| mCtxs ||| mBillets) [] [644] s (State.zcAdvance n s x) := by
  induction n generalizing s with
  | zero => exact .refl _ _ _ _
  | succ n ih =>
    unfold State.zcAdvance
    dsimp only
    split
    · exact .refl _ _ _ _
    · refine .ite (.ite (.refl _ _ _ _) ?_) ?_
      · exact .other (.raise (.refl _ _ _ _)) (touches_State.updCtx _ _ _) (by decide) (updCtx_regs _ _ _)
      · split
        · exact .refl _ _ _ _
        · refine .ite (.refl _ _ _ _) (.ite ?_ (.other (.refl _ _ _ _) (touches_State.setBillet _ _ _) (by decide) rfl))
          exact ((onlyIn_publish s x _ _).mono (by decide) (fun _ h => h) (List.nil_subset _)).trans (ih _)

theorem onlyIn_zcRun (s : State) (x : Nat) : onlyIn (mEvent ||| mCtxs ||| mBillets) [] [644] s (s.zcRun x) := onlyIn_zcAdvance _ _ _

theorem onlyIn_afterWrite (s0 s : State) (x : Nat) : onlyIn (mEvent ||| mCtxs ||| mBillets) [rSTO_CNT0] [646, 644] s (State.afterWrite s0 s x) := by
  unfold State.afterWrite
  have k1 : onlyIn (mEvent ||| mCtxs ||| mBillets) [rSTO_CNT0] [646, 644] s (State.extentLow s0 s) :=
    (onlyIn_extentLow s0 s).mono (by decide) (List.nil_subset _) (by simp)
  have k2 := k1.trans ((onlyIn_settle (State.extentLow s0 s) x).mono (by decide) (fun _ h => h) (List.nil_subset _))
  exact k2.trans ((onlyIn_zcRun _ x).mono (by decide) (List.nil_subset _) (by simp))

/-! ### A record that is written, and what follows -/

/-- What the record of a context moves on beside its stream. -/
def Machine.Ctx.noted (c c' : Ctx) : Prop := ∃ sq ep pd rc fl ls lg wt, c' = { c with
  seq := sq, epoch := ep, epochPend := pd, recovering := rc, flags := fl, lostSince := ls, lastGood := lg, waiting := wt }

theorem recordWritten {s u t : State} {x b off typ devid epoch seq time fine flags items n : Nat} {pre post : List Byte} {g : Ctx → Ctx}
    (hs : (s.ctx x).st = .opened) (ht : (s.ctx x).tail = some (b, off)) (hn : n = pre.length + post.length)
    (hl : off + recSize n ≤ billetBytes) (hg : ∀ c : Ctx, c.noted (g c))
    (e1 : s.writeRecord x typ devid epoch seq time fine flags items pre [] post = u) (e : State.afterWrite s (u.updCtx x g) x = t) :
    ∃ q c1, (s.ctx x).wrote (recSize n) q c1 ∧ IsRec q seq epoch typ (s.ctx x).wpos (recSize n) items ∧ (g c1).kin (t.ctx x) ∧
      (∀ d < 4, typ ≠ tyPad → d ∈ (s.ctx x).destList → ((s.ctx x).dest d).fin ≤ (s.ctx x).wpos →
        (∀ q ∈ (s.ctx x).recs, q.pos + q.len ≤ (s.ctx x).wpos) → q ∈ (t.ctx x).recs) ∧
      t.store = s.store.write 0 (b * billetBytes + off)
        (header typ devid x epoch seq time (recSize n - 32) fine flags ++ pre ++ (post ++ tailFill n)) ∧
      onlyIn (mEvent ||| mStore ||| mCtxs ||| mBillets ||| mBadLines) [rSTO_CNT0] [646, 644] s t := by
  obtain ⟨⟨q, h1, h2⟩, -, h3, h4⟩ := writeRecord_tail ht hn hl e1
  have hpos := recSize_pos n
  have c2 := ctx_updCtx_same u x g
  have k2 := touches_State.updCtx u x g
  have r2 := updCtx_regs u x g
  generalize u.updCtx x g = v at *
  have hvst : (v.ctx x).st = .opened := by
    obtain ⟨_, _, _, w1⟩ := h1
    obtain ⟨_, _, _, _, _, _, _, _, w2⟩ := hg (u.ctx x)
    rw [c2, w2, w1]
    exact hs
  have k3 := onlyIn_afterWrite s v x
  have k := kin_afterWrite (s0 := s) hvst x
  rw [e] at k3 k
  have o1 : onlyIn (mEvent ||| mStore ||| mCtxs ||| mBillets ||| mBadLines) [rSTO_CNT0] [646, 644] s v :=
    .other (.other (.refl _ _ _ _) h4 (by decide) (h4.regs (by decide))) k2 (by decide) r2
  refine ⟨q, u.ctx x, h1, h2, c2 ▸ k, fun d hd hp hdl hf hq => ?_, (k3.1.store (by decide)).trans ((k2.store (by decide)).trans h3),
    o1.trans (k3.mono (by decide) (fun _ h => h) (fun _ h => h))⟩
  rw [← e]
  obtain ⟨_, _, _, w1⟩ := h1
  obtain ⟨_, _, _, _, _, _, _, _, w2⟩ := hg (u.ctx x)
  have hpl : q.pos + q.len = (s.ctx x).wpos + recSize n := by rw [h2.hpos, h2.hlen]
  have hend : (v.ctx x).destEnd d = (s.ctx x).wpos + recSize n := by
    rw [c2, w2, w1]
    unfold Ctx.destEnd Ctx.old?
    rw [if_pos hd]
    rfl
  refine mem_afterWrite (d := d) hvst ?_ ?_ ?_ ?_ ?_
  · rw [c2, w2, w1]
    exact List.mem_append_right _ (List.mem_singleton.mpr rfl)
  · rw [c2, w2, w1]
    exact hdl
  · have hfe : ((v.ctx x).dest d).fin = ((s.ctx x).dest d).fin := by
      rw [c2, w2, w1]
      rfl
    omega
  · omega
  · intro y hy
    rw [c2, w2, w1] at hy
    obtain hy | hy := List.mem_append.mp hy
    · have := hq y hy
      left
      omega
    · rw [List.mem_singleton.mp hy]
      exact .inr (h2.hwhole hp d)

/-! ### Room in the tail billet (R336, R344) -/

/-- A context with room in its tail billet takes a record. -/
theorem roomFor_tail {s : State} {c : Ctx} {b off n ext : Nat} (hc : c.tail = some (b, off)) (hn : off + n ≤ billetBytes) (he : 0 < ext) : s.roomFor c n ext = true := by
  have hb : c.billetsFor n = 0 := by
    unfold Ctx.billetsFor
    rw [hc]
    show ceilDiv (n - (billetBytes - off)) billetBytes = 0
    rw [Nat.sub_eq_zero_of_le (by omega)]
    rfl
  have hx : c.extsFor n ≤ 1 := by
    unfold Ctx.extsFor
    rw [hb, hc, Nat.zero_add]
    cases c.exts.getLast? with
    | none => exact Nat.le_refl _
    | some e =>
      dsimp only
      split
      · omega
      · omega
  unfold State.roomFor
  rw [hb, Bool.and_eq_true, decide_eq_true_eq, decide_eq_true_eq]
  omega

/-! ### storeRecord -/

section

variable {s t : State} {r : Prod} {x b off : Nat} (hx : r.ctx = x) (hs : (s.ctx x).st = .opened) (ht : (s.ctx x).tail = some (b, off))
  (hr : r.ring = []) (hl : off + r.size ≤ billetBytes)

include hx hs ht hr hl

/-- A record that is stored: its context goes on by it, and the store holds it at the tail. -/
theorem storeRecord_tail (e : s.storeRecord r = t) : (t.ctx x).seq = (s.ctx x).seq + 1 ∧ (t.ctx x).wpos = (s.ctx x).wpos + r.size ∧
    (t.ctx x).waiting = none ∧ (t.ctx x).tokens = (s.ctx x).tokens ∧ (t.ctx x).tokTime = (s.ctx x).tokTime ∧ (t.ctx x).lost = (s.ctx x).lost ∧
    (∃ bs, bs.length = r.size ∧ t.store = s.store.write 0 (b * billetBytes + off) bs) ∧
    onlyIn (mEvent ||| mStore ||| mCtxs ||| mBillets ||| mBadLines) [rSTO_CNT0] [646, 644, 5] s t := by
  have hsz := recSize_of_prod hr
  rw [hsz] at hl ⊢
  have hmain {typ devid epoch time fine flags items : Nat} {g : Ctx → Ctx} {v : State} (hg : ∀ c : Ctx, c.noted (g c))
      (hgs : ∀ c : Ctx, (g c).seq = c.seq + 1 ∧ (g c).waiting = none)
      (ev : State.afterWrite s ((s.writeRecord x typ devid epoch (s.ctx x).seq time fine flags items r.pre [] r.post).updCtx x g) x = v) :
      (v.ctx x).seq = (s.ctx x).seq + 1 ∧ (v.ctx x).wpos = (s.ctx x).wpos + recSize (r.pre.length + r.post.length) ∧
      (v.ctx x).waiting = none ∧ (v.ctx x).tokens = (s.ctx x).tokens ∧ (v.ctx x).tokTime = (s.ctx x).tokTime ∧ (v.ctx x).lost = (s.ctx x).lost ∧
      (∃ bs, bs.length = recSize (r.pre.length + r.post.length) ∧ v.store = s.store.write 0 (b * billetBytes + off) bs) ∧
      onlyIn (mEvent ||| mStore ||| mCtxs ||| mBillets ||| mBadLines) [rSTO_CNT0] [646, 644, 5] s v := by
    obtain ⟨q, c1, w1, -, k, -, hst, ho⟩ := recordWritten hs ht rfl hl hg rfl ev
    obtain ⟨g1, g2⟩ := hgs c1
    obtain ⟨_, _, _, w1⟩ := w1
    obtain ⟨_, _, _, _, _, _, _, _, w2⟩ := hg c1
    rw [w2] at g1 g2
    dsimp only at g1 g2
    obtain ⟨_, _, _, _, _, _, _, _, _, k⟩ := k
    rw [k, w2]
    refine ⟨?_, ?_, ?_, ?_, ?_, ?_, ⟨_, ?_, hst⟩, ho.mono (by decide) (fun _ h => h) (by simp)⟩
    · dsimp only
      rw [g1, w1]
    · dsimp only
      rw [w1]
    · dsimp only
      rw [g2]
    · dsimp only
      rw [w1]
    · dsimp only
      rw [w1]
    · dsimp only
      rw [w1]
    · simp only [List.length_append, header_length, recSize]
      omega
  unfold State.storeRecord at e
  dsimp only at e
  rw [hx, hr] at e
  split at e
  · exact hmain (fun c => ⟨_, _, _, _, _, _, _, _, rfl⟩) (fun c => ⟨rfl, rfl⟩) e
  · split at e
    · exact hmain (fun c => ⟨_, _, _, _, _, _, _, _, rfl⟩) (fun c => ⟨rfl, rfl⟩) e
    · generalize hv : State.afterWrite s _ x = v at e
      have h := hmain (fun c => ⟨_, _, _, _, _, _, _, _, rfl⟩) (fun c => ⟨rfl, rfl⟩) hv
      split at e
      · obtain ⟨h1, h2, h3, h4, h5, h6, ⟨bs, h7, h8⟩, h9⟩ := h
        have ec := ctx_of_ctxs ((touches_State.raiseLim v 1000 5 (some x) 0 0 0).ctxs (by decide)) x
        have es := (touches_State.raiseLim v 1000 5 (some x) 0 0 0).store (by decide)
        rw [e] at ec es
        rw [ec]
        exact ⟨h1, h2, h3, h4, h5, h6, ⟨bs, h7, es.trans h8⟩, e ▸ .raiseLim h9⟩
      · rw [← e]
        exact h

/-- A record of the present epoch: what it takes with it, and what the cord and the store hold of it. -/
theorem storeRecord_new (hep : r.epoch = none) (hf : r.typ ≠ tyFault) (e : s.storeRecord r = t) :
    (t.ctx x).flags = 0 ∧ (t.ctx x).lastGood = r.time ∧
      (t.ctx x).epoch = (if (s.ctx x).epochPend then ((s.ctx x).epoch + 1) % 65536 else (s.ctx x).epoch) ∧
      (∀ d < 4, r.typ ≠ tyPad → d ∈ (s.ctx x).destList → ((s.ctx x).dest d).fin ≤ (s.ctx x).wpos →
        (∀ q ∈ (s.ctx x).recs, q.pos + q.len ≤ (s.ctx x).wpos) →
        ∃ q ∈ (t.ctx x).recs, q.seq = (s.ctx x).seq ∧ q.epoch = (t.ctx x).epoch ∧ q.typ = r.typ ∧ q.pos = (s.ctx x).wpos ∧ q.len = r.size ∧
          q.items = r.items) ∧
      t.store = s.store.write 0 (b * billetBytes + off)
        (header r.typ (r.devid.getD (s.fld rGLB_DEVID fGLB_DEVID_DEVID)) x (t.ctx x).epoch (s.ctx x).seq r.time (r.size - 32) r.fine
          (r.flags ||| (s.ctx x).flags ||| s.holdFlag) ++ r.pre ++ (r.post ++ tailFill (r.pre.length + r.post.length))) := by
  have hsz := recSize_of_prod hr
  rw [hsz] at hl ⊢
  unfold State.storeRecord at e
  dsimp only at e
  rw [hx, hr, if_neg hf, hep] at e
  dsimp only at e
  generalize hv : State.afterWrite s _ x = v at e
  obtain ⟨q, c1, -, w2, k, hq, hst, -⟩ := recordWritten (g := fun c => { c with
    seq := c.seq + 1, epoch := if (s.ctx x).epochPend then ((s.ctx x).epoch + 1) % 65536 else (s.ctx x).epoch, epochPend := false,
    recovering := false, flags := 0, lostSince := 0, lastGood := r.time, waiting := none }) hs ht rfl hl
    (fun c => ⟨_, _, _, _, _, _, _, _, rfl⟩) rfl hv
  have ht : t.ctx x = v.ctx x ∧ t.store = v.store := by
    split at e
    · rw [← e]
      exact ⟨ctx_of_ctxs ((touches_State.raiseLim v 1000 5 (some x) 0 0 0).ctxs (by decide)) x,
        (touches_State.raiseLim v 1000 5 (some x) 0 0 0).store (by decide)⟩
    · rw [← e]
      exact ⟨rfl, rfl⟩
  rw [ht.1, ht.2]
  obtain ⟨_, _, _, _, _, _, _, _, _, k⟩ := k
  have hep' : (v.ctx x).epoch = if (s.ctx x).epochPend then ((s.ctx x).epoch + 1) % 65536 else (s.ctx x).epoch := by rw [k]
  refine ⟨by rw [k], by rw [k], hep', fun d hd hp hdl hfin hrec => ?_, hep' ▸ hst⟩
  exact ⟨q, hq d hd hp hdl hfin hrec, w2.hseq, w2.hepoch.trans hep'.symm, w2.htyp, w2.hpos, w2.hlen, w2.hitems⟩

theorem placeAccepted_stored (hfl : (s.ctx x).faults = []) (he : 0 < s.extFree) : s.placeAccepted r = (s.storeRecord r, .stored) := by
  unfold State.placeAccepted
  dsimp only
  rw [hx, hr, hfl]
  refine if_pos ?_
  rw [Bool.and_eq_true]
  exact ⟨rfl, roomFor_tail (b := b) (off := off) ht hl (by simpa using he)⟩

end

end Sys2Proof

end

section
/-! SUPPORT. Records at a store port (R344, R345, R349, R372). -/

set_option Elab.async false

namespace Sys2Proof

open Sys2Proof.Machine

/-! ### Placing (R344, R345, R349, R372) -/

theorem updCtx_congr {s : State} {x : Nat} {f g : Ctx → Ctx} (h : f (s.ctx x) = g (s.ctx x)) : s.updCtx x f = s.updCtx x g :=
  congrArg (s.setCtx x) h

section

variable {s t : State} {p : Nat} {ok : Prod → Bool} {r : Prod} {rest : List Prod} (hp : (s.port p).inbox = r :: rest) (hk : ok r = true)
  (hr : r.ring = [])

include hp hk hr

/-- The record at the head of an inbox waits for credit. -/
theorem portTake_waits {w : Nat} (h : s.place r = (t, .waits w)) :
    s.portTake p ok = t.onPorts fun _ => SMap.set ⟨[]⟩ t.ports p ⟨{ r with policed := w == 2 } :: rest⟩ := by
  unfold State.portTake
  dsimp only
  rw [hp, List.find?_cons_of_pos hk]
  dsimp only
  rw [List.takeWhile_cons_of_neg (by rw [hk]; decide), h]
  rfl

/-- The record at the head of an inbox is stored or let go. -/
theorem portTake_gone {c : Placed} (hc : c = .stored ∨ c = .discarded) (h : s.place r = (t, c)) :
    s.portTake p ok = t.onPorts fun _ => SMap.set ⟨[]⟩ t.ports p ⟨rest⟩ := by
  unfold State.portTake
  dsimp only
  rw [hp, List.find?_cons_of_pos hk]
  dsimp only
  rw [List.takeWhile_cons_of_neg (by rw [hk]; decide), h, hr]
  obtain rfl | rfl := hc
  · rfl
  · rfl

end

theorem portTake_none {s : State} {p : Nat} {ok : Prod → Bool} (h : ∀ r ∈ (s.port p).inbox, ok r = false) : s.portTake p ok = s := by
  unfold State.portTake
  dsimp only
  rw [List.find?_eq_none.mpr fun r hr => by rw [h r hr]; decide]

theorem port_set (s : State) (p : Nat) (q : Port) : (s.onPorts fun _ => SMap.set ⟨[]⟩ s.ports p q).port p = q := SMap.get_set_same ..

section

variable {s t : State} {r : Prod} {rest : List Prod} {p : Nat} {ok : Prod → Bool}

theorem place_closed (h : (s.ctx r.ctx).st = .closed) : s.place r = (s, .discarded) := by
  unfold State.place
  dsimp only
  rw [h]

theorem place_draining (h : (s.ctx r.ctx).st = .draining) :
    s.place r = (s.updCtx r.ctx fun c => { c with lost := satN 64 (c.lost + r.items) }, .discarded) := by
  unfold State.place
  dsimp only
  rw [h]

theorem place_accepted (h : (s.ctx r.ctx).st = .opened) (hp : r.policed = true ∨ (s.ctx r.ctx).rate = 0) : s.place r = s.placeAccepted r := by
  unfold State.place
  dsimp only
  rw [h]
  exact if_pos (by simpa using hp)

/-- The bucket is looked at. -/
theorem place_policed (h : (s.ctx r.ctx).st = .opened) (hp : r.policed = false) (hr : (s.ctx r.ctx).rate ≠ 0) : s.place r =
    if r.size * 65536 ≤ s.tokensNow (s.ctx r.ctx) then
      ((s.stallEnds r.ctx).updCtx r.ctx fun c => { c with tokens := s.tokensNow (s.ctx r.ctx) - r.size * 65536, tokTime := s.time }).placeAccepted
        { r with policed := true }
    else if r.canWait && r.size ≤ 64 * (s.ctx r.ctx).burst then
      (s.updCtx r.ctx fun c => { c with waiting := some ((c.waiting.map (·.1)).getD s.time, 1) }, .waits 1)
    else ((((s.loseRec r).updCtx r.ctx fun c => { c with shed := satN 32 (c.shed + r.items) }).addSat (rADM_CTX_STAT r.ctx)
      fADM_CTX_STAT_SHED_REC 1).raiseLim 1000 (576 + r.ctx / 64) (some r.ctx) 0 0 r.ctx, .discarded) := by
  unfold State.place
  dsimp only
  rw [h]
  exact if_neg (by simp [hp, hr])

/-- A record of an OPEN context is lost: what the context notes of it. -/
theorem loseRec_ctx (h : (s.ctx r.ctx).st = .opened) : (s.loseRec r).ctx r.ctx = { s.ctx r.ctx with
    lost := satN 64 ((s.ctx r.ctx).lost + r.items), lostSince := (s.ctx r.ctx).lostSince + r.items,
    flags := (s.ctx r.ctx).flags ||| flGap ||| r.flags &&& flCarried } := by
  unfold State.loseRec State.loseItems State.flagCtx
  have e := ctx_updCtx_same s r.ctx fun c =>
    { c with lost := satN 64 (c.lost + r.items), lostSince := c.lostSince + r.items, flags := c.flags ||| flGap }
  generalize (s.updCtx r.ctx fun c => _) = u at *
  rw [if_pos (by rw [e]; exact h), ctx_updCtx_same, e]

theorem touches_loseRec (s : State) (r : Prod) : Touches mCtxs s (s.loseRec r) := by
  unfold State.loseRec State.loseItems State.flagCtx
  have k := touches_State.updCtx s r.ctx fun c =>
    { c with lost := satN 64 (c.lost + r.items), lostSince := c.lostSince + r.items, flags := c.flags ||| flGap }
  split
  · exact k.trans (touches_State.updCtx _ _ _)
  · exact k

theorem onlyIn_loseRec (s : State) (r : Prod) : onlyIn mCtxs [] [] s (s.loseRec r) :=
  .other (.refl _ _ _ _) (touches_loseRec s r) (by decide) ((touches_loseRec s r).regs (by decide))

/-- A record past the bucket's tokens that may not wait is shed. -/
theorem recordShed (hp : (s.port p).inbox = r :: rest) (hk : ok r = true) (hr : r.ring = []) (hs : (s.ctx r.ctx).st = .opened) (hx : r.ctx < 4096)
    (e : s.place r = ((((s.loseRec r).updCtx r.ctx fun c => { c with shed := satN 32 (c.shed + r.items) }).addSat (rADM_CTX_STAT r.ctx)
      fADM_CTX_STAT_SHED_REC 1).raiseLim 1000 (576 + r.ctx / 64) (some r.ctx) 0 0 r.ctx, .discarded)) (et : s.portTake p ok = t) :
    (t.port p).inbox = rest ∧ (t.ctx r.ctx).shed = satN 32 ((s.ctx r.ctx).shed + r.items) ∧
        (t.ctx r.ctx).lost = satN 64 ((s.ctx r.ctx).lost + r.items) ∧
        (t.ctx r.ctx).flags = (s.ctx r.ctx).flags ||| flGap ||| r.flags &&& flCarried ∧ (t.ctx r.ctx).seq = (s.ctx r.ctx).seq ∧
        t.fld (rADM_CTX_STAT r.ctx) fADM_CTX_STAT_SHED_REC = satN 32 (s.fld (rADM_CTX_STAT r.ctx) fADM_CTX_STAT_SHED_REC + 1) ∧
        onlyIn (mEvent ||| mCtxs ||| mPorts) [rADM_CTX_STAT r.ctx] [576 + r.ctx / 64] s t := by
  rw [portTake_gone hp hk hr (.inr rfl) e] at et
  have c1 := loseRec_ctx (s := s) hs
  have k1 : onlyIn (mEvent ||| mCtxs ||| mPorts) [rADM_CTX_STAT r.ctx] [576 + r.ctx / 64] s (s.loseRec r) :=
    (onlyIn_loseRec s r).mono (by decide) (List.nil_subset _) (List.nil_subset _)
  have r1 := (touches_loseRec s r).regs (by decide)
  generalize s.loseRec r = u at *
  have c2 := ctx_updCtx_same u r.ctx fun c => { c with shed := satN 32 (c.shed + r.items) }
  have k2 := k1.other (touches_State.updCtx u r.ctx fun c => { c with shed := satN 32 (c.shed + r.items) }) (by decide) (updCtx_regs _ _ _)
  have r2 := updCtx_regs u r.ctx fun c => { c with shed := satN 32 (c.shed + r.items) }
  generalize (u.updCtx r.ctx fun c => _) = v at *
  have hre : rADM_CTX_STAT r.ctx < 0x10000 ∨ 0x12000 + 8 * (576 + r.ctx / 64) < rADM_CTX_STAT r.ctx := by simp only [rADM_CTX_STAT]; omega
  have f3 : (v.addSat (rADM_CTX_STAT r.ctx) fADM_CTX_STAT_SHED_REC 1).fld (rADM_CTX_STAT r.ctx) fADM_CTX_STAT_SHED_REC =
      satN 32 (s.fld (rADM_CTX_STAT r.ctx) fADM_CTX_STAT_SHED_REC + 1) := by
    rw [State.fld_addSat_self _ _ _ _ (by decide), State.fld_congr (r2.trans r1)]
  have k3 : onlyIn (mEvent ||| mCtxs ||| mPorts) [rADM_CTX_STAT r.ctx] [576 + r.ctx / 64] s (v.addSat (rADM_CTX_STAT r.ctx) fADM_CTX_STAT_SHED_REC 1) :=
    .of_hi (.addSat (k2.mono (by decide) (fun _ h => h) (fun _ h => h))) fun a ha => by simp only [List.mem_singleton, rADM_CTX_STAT] at ha; omega
  have c3 : (v.addSat (rADM_CTX_STAT r.ctx) fADM_CTX_STAT_SHED_REC 1).ctx r.ctx = v.ctx r.ctx := ctx_of_ctxs (State.addSat_ctxs _ _ _ _) _
  generalize v.addSat (rADM_CTX_STAT r.ctx) _ _ = w at *
  have c4 := ctx_of_ctxs ((touches_State.raiseLim w 1000 (576 + r.ctx / 64) (some r.ctx) 0 0 r.ctx).ctxs (by decide)) r.ctx
  have f4 := State.fld_raiseLim_other w 1000 (576 + r.ctx / 64) (some r.ctx) 0 0 r.ctx (rADM_CTX_STAT r.ctx) fADM_CTX_STAT_SHED_REC hre
  have k4 := k3.raiseLim (us := 1000) (src := 576 + r.ctx / 64) (obj := some r.ctx) (code := 0) (detail := 0) (key := r.ctx)
  generalize w.raiseLim 1000 (576 + r.ctx / 64) (some r.ctx) 0 0 r.ctx = y at *
  have hc : y.ctx r.ctx = { u.ctx r.ctx with shed := satN 32 ((u.ctx r.ctx).shed + r.items) } := c4.trans (c3.trans c2)
  have k5 := touches_State.onPorts y fun _ => SMap.set ⟨[]⟩ y.ports p ⟨rest⟩
  have c5 := ctx_of_ctxs (k5.ctxs (by decide)) r.ctx
  rw [et] at k5 c5
  rw [c5, hc, c1]
  refine ⟨?_, rfl, rfl, rfl, rfl, ?_, .other k4 k5 (by decide) (k5.regs (by decide))⟩
  · rw [← et, port_set]
  · rw [State.fld_congr (k5.regs (by decide)), f4, f3]

end

end Sys2Proof

end

section
/-! SUPPORT. Records that are stored, and records that find no room (R344, R345, R349, R372). -/

set_option Elab.async false

namespace Sys2Proof

open Sys2Proof.Machine

/-! ### Free extents (R339) -/

/-- What the entries of a map amount to. -/
def total {α : Type} (f : α → Nat) (m : SMap α) : Nat := (m.map fun e => f e.2).sum

theorem foldl_total {α : Type} (f : α → Nat) (m : SMap α) (a : Nat) : m.foldl (fun n e => n + f e.2) a = a + total f m := by
  induction m generalizing a with
  | nil => rfl
  | cons e m ih => rw [List.foldl_cons, ih, total, total, List.map_cons, List.sum_cons, Nat.add_assoc]

theorem total_cons {α : Type} (f : α → Nat) (k : Nat) (v : α) (m : SMap α) : total f ((k, v) :: m) = f v + total f m := by
  rw [total, List.map_cons, List.sum_cons]
  rfl

theorem total_ins {α : Type} (f : α → Nat) (m : SMap α) (k : Nat) (v : α) : total f (m.ins k v) = f v + total f m := by
  induction m with
  | nil => exact total_cons f k v []
  | cons e m ih =>
    unfold SMap.ins
    split
    · exact total_cons f k v _
    · rw [total_cons, ih, total_cons]
      omega

theorem total_del {α : Type} (f : α → Nat) {d : α} (hd : f d = 0) (m : SMap α) (k : Nat) : total f (m.del k) + f (m.get d k) ≤ total f m := by
  induction m with
  | nil => simp [SMap.del, SMap.get, hd]
  | cons e m ih =>
    unfold SMap.del SMap.get
    rw [total_cons]
    split
    · omega
    · rw [total_cons]
      omega

theorem total_set {α : Type} [DecidableEq α] (f : α → Nat) {d : α} (hd : f d = 0) (m : SMap α) {k : Nat} {v : α} (h : f v ≤ f (m.get d k)) :
    total f (m.set d k v) ≤ total f m := by
  have := total_del f hd m k
  unfold SMap.set
  split
  · omega
  · rw [total_ins]
    omega

theorem extFree_eq (s : State) : s.extFree = nExtents - total (fun c : Ctx => c.exts.length) s.ctxs - total (fun n => n) s.aside - s.extClosing := by
  unfold State.extFree
  rw [foldl_total (fun c : Ctx => c.exts.length), foldl_total (fun n => n), Nat.zero_add, Nat.zero_add]

theorem extClosing_of {s t : State} (h : t.ports = s.ports) : t.extClosing = s.extClosing := by
  unfold State.extClosing
  rw [h]

/-- A change of a context that leaves its extents leaves the free ones. -/
theorem extFree_updCtx (s : State) (x : Nat) {f : Ctx → Ctx} (h : ∀ c, (f c).exts = c.exts) : s.extFree ≤ (s.updCtx x f).extFree := by
  have hc : (s.updCtx x f).ctxs = SMap.set ctx0 s.ctxs x (f (s.ctx x)) := rfl
  have hs := total_set (fun c : Ctx => c.exts.length) (d := ctx0) rfl s.ctxs (k := x) (v := f (s.ctx x)) (by rw [h]; exact Nat.le_refl _)
  have k := touches_State.updCtx s x f
  rw [extFree_eq, extFree_eq, hc, k.aside (by decide), extClosing_of (k.ports (by decide))]
  omega

theorem extFree_of {s t : State} (hc : t.ctxs = s.ctxs) (ha : t.aside = s.aside) (hp : t.ports = s.ports) : t.extFree = s.extFree := by
  rw [extFree_eq, extFree_eq, hc, ha, extClosing_of hp]

theorem roomFor_of {s t : State} (hc : t.ctxs = s.ctxs) (ha : t.aside = s.aside) (hp : t.ports = s.ports) (c : Ctx) (n ext : Nat) :
    t.roomFor c n ext = s.roomFor c n ext := by
  unfold State.roomFor State.canTake State.poolFree
  rw [extFree_of hc ha hp, hc]

/-! ### A record that is stored -/

section

variable {s t : State} {r : Prod} {rest : List Prod} {p b off : Nat} {ok : Prod → Bool} (hp : (s.port p).inbox = r :: rest) (hk : ok r = true)
  (hr : r.ring = []) (hs : (s.ctx r.ctx).st = .opened)

include hp hk hr hs

theorem portTake_stored (hx : 0 < s.extFree) (hpol : r.policed = true ∨ (s.ctx r.ctx).rate = 0) (hf : (s.ctx r.ctx).faults = [])
    (ht : (s.ctx r.ctx).tail = some (b, off)) (hl : off + r.size ≤ billetBytes) :
    s.portTake p ok = (s.storeRecord r).onPorts fun _ => SMap.set ⟨[]⟩ (s.storeRecord r).ports p ⟨rest⟩ :=
  portTake_gone hp hk hr (.inl rfl) ((place_accepted hs hpol).trans (placeAccepted_stored rfl hs ht hr hl hf hx))

theorem recordArrives {d : Nat} {c : Ctx} (hc : s.ctx r.ctx = c) (hep : r.epoch = none) (hx : 0 < s.extFree) (hpol : r.policed = true ∨ c.rate = 0)
    (hf : c.faults = []) (ht : c.tail = some (b, off)) (hl : off + r.size ≤ 16384) (hft : r.typ ≠ tyFault) (hpt : r.typ ≠ tyPad)
    (hrec : ∀ q ∈ c.recs, q.pos + q.len ≤ c.wpos) (hd : d < 4) (hdl : d ∈ c.destList) (hfin : (c.dest d).fin ≤ c.wpos) (et : s.portTake p ok = t) :
      (t.port p).inbox = rest ∧ (t.ctx r.ctx).seq = c.seq + 1 ∧ (t.ctx r.ctx).wpos = c.wpos + r.size ∧ (t.ctx r.ctx).flags = 0 ∧
      (t.ctx r.ctx).lastGood = r.time ∧ (t.ctx r.ctx).lost = c.lost ∧
      (t.ctx r.ctx).epoch = (if c.epochPend then (c.epoch + 1) % 65536 else c.epoch) ∧
      (∃ q ∈ (t.ctx r.ctx).recs, q.seq = c.seq ∧ q.epoch = (t.ctx r.ctx).epoch ∧ q.typ = r.typ ∧ q.pos = c.wpos ∧ q.len = r.size ∧
        q.items = r.items) ∧
      t.store.read 0 (16384 * b + off) r.size =
        header r.typ (r.devid.getD (s.fld rGLB_DEVID fGLB_DEVID_DEVID)) r.ctx (t.ctx r.ctx).epoch c.seq r.time (r.size - 32) r.fine
          (r.flags ||| c.flags ||| if s.inHoldover then flHoldover else 0) ++ r.pre ++ r.post ++ tailFill (r.pre.length + r.post.length) ∧
      (∀ a, a < 16384 * b + off ∨ 16384 * b + off + r.size ≤ a → t.store.byte 0 a = s.store.byte 0 a) ∧
      Touches (mEvent ||| mFreeCtr ||| mStore ||| mCtxs ||| mBillets ||| mPorts ||| mBadLines) s t := by
  subst hc
  rw [portTake_stored hp hk hr hs hx hpol hf ht hl] at et
  obtain ⟨a1, a2, -, -, -, a6, -, a8⟩ := storeRecord_tail rfl hs ht hr hl rfl
  obtain ⟨b1, b2, b3, b4, b5⟩ := storeRecord_new rfl hs ht hr hl hep hft rfl
  generalize s.storeRecord r = u at *
  have k := touches_State.onPorts u fun _ => SMap.set ⟨[]⟩ u.ports p ⟨rest⟩
  have hin : ((u.onPorts fun _ => SMap.set ⟨[]⟩ u.ports p ⟨rest⟩).port p).inbox = rest := by rw [port_set]
  rw [et] at k hin
  have ec := ctx_of_ctxs (k.ctxs (by decide)) r.ctx
  have es := k.store (by decide)
  rw [ec]
  have hb : b * billetBytes + off = 16384 * b + off := by rw [Nat.mul_comm]
  rw [hb] at b5
  generalize hbs : header r.typ (r.devid.getD (s.fld rGLB_DEVID fGLB_DEVID_DEVID)) r.ctx (u.ctx r.ctx).epoch (s.ctx r.ctx).seq r.time (r.size - 32)
    r.fine (r.flags ||| (s.ctx r.ctx).flags ||| s.holdFlag) = hdr at b5
  have hlen : (hdr ++ r.pre ++ (r.post ++ tailFill (r.pre.length + r.post.length))).length = r.size := by
    rw [recSize_of_prod hr, ← hbs]
    simp only [List.length_append, header_length, recSize]
    omega
  refine ⟨hin, a1, a2, b1, b2, a6, b3, b4 d hd hpt hdl hfin hrec, ?_, fun a ha => ?_, (a8.1.mono (by decide)).trans (k.mono (by decide))⟩
  · rw [es, b5]
    refine Eq.trans (by rw [hlen]) ((Memory.read_write 0 _ _ _).trans ?_)
    rw [← hbs, List.append_assoc, List.append_assoc, List.append_assoc]
    rfl
  · rw [es, b5]
    exact Memory.byte_write_out _ _ _ _ _ (by rw [hlen]; exact ha)

end

end Sys2Proof

end

section
/-! SUPPORT. Records that find no room, credit that comes back, held FAULT records, and O44 (R36, R344, R345, R372). -/

set_option Elab.async false

namespace Sys2Proof

open Sys2Proof.Machine

/-! ### No room (R345) -/

section

variable {s t : State} {r : Prod} {rest : List Prod} {p : Nat} {ok : Prod → Bool}

/-- The event that a record finds no room. -/
def State.noRoom (s : State) (x : Nat) : State := s.raiseLim 1000 641 (some x) 0 0 x

theorem noRoom_same (s : State) (x : Nat) : (State.noRoom s x).ctxs = s.ctxs ∧ (State.noRoom s x).aside = s.aside ∧
    (State.noRoom s x).ports = s.ports ∧ onlyIn mEvent [] [641] s (State.noRoom s x) := by
  have k := touches_State.raiseLim s 1000 641 (some x) 0 0 x
  exact ⟨k.ctxs (by decide), k.aside (by decide), k.ports (by decide), .raiseLim (.refl _ _ _ _)⟩

theorem ring_need (hr : r.ring = []) : r.size - r.ring.foldl (fun k e => k + e.bytes) 0 = r.size := by
  rw [hr]
  rfl

theorem overwrite_nothing {u : State} {x n : Nat} (hq : (u.ctx x).recs = []) (k : Nat) : State.overwrite (k + 1) u x n = u := by
  unfold State.overwrite
  dsimp only
  rw [hq, List.find?_nil, ite_self]

section

variable (hr : r.ring = []) (h : (s.ctx r.ctx).faults ≠ [] ∨ s.roomFor (s.ctx r.ctx) r.size s.extFree = false)

include hr h

theorem noRoom_cond : ¬ ((s.ctx r.ctx).faults.isEmpty && s.roomFor (s.ctx r.ctx) r.size s.extFree) = true := by
  rw [Bool.and_eq_true, not_and_or, List.isEmpty_iff]
  exact h.imp_right fun h => by rw [h]; exact Bool.false_ne_true

theorem placeAccepted_stalls (hp : (s.ctx r.ctx).policy = 0) : s.placeAccepted r =
    ((State.noRoom s r.ctx).updCtx r.ctx fun c => { c with waiting := some ((c.waiting.map (·.1)).getD s.time, 2) }, .waits 2) := by
  unfold State.placeAccepted
  dsimp only
  rw [ring_need hr, hr, hp]
  refine (if_neg (noRoom_cond hr h)).trans ?_
  unfold State.noRoom
  generalize s.raiseLim 1000 641 (some r.ctx) 0 0 r.ctx = u
  rfl

theorem placeAccepted_sheds (hp : (s.ctx r.ctx).policy = 1) : s.placeAccepted r = ((State.noRoom s r.ctx).shedOverflow r, .discarded) := by
  unfold State.placeAccepted
  dsimp only
  rw [ring_need hr, hr, hp]
  refine (if_neg (noRoom_cond hr h)).trans ?_
  unfold State.noRoom
  generalize s.raiseLim 1000 641 (some r.ctx) 0 0 r.ctx = u
  rfl

/-- OVERWRITE with nothing to free sheds. -/
theorem placeAccepted_noneToFree (hp : (s.ctx r.ctx).policy = 2) (hq : (s.ctx r.ctx).recs = []) :
    s.placeAccepted r = ((State.noRoom s r.ctx).shedOverflow r, .discarded) := by
  have hn := noRoom_cond hr h
  unfold State.placeAccepted
  dsimp only
  rw [ring_need hr, hr, hp, List.isEmpty_nil, if_pos rfl, Nat.add_zero]
  refine (if_neg hn).trans ?_
  have hs := noRoom_same s r.ctx
  unfold State.noRoom at hs ⊢
  generalize s.raiseLim 1000 641 (some r.ctx) 0 0 r.ctx = u at *
  obtain ⟨hc, ha, hpo, -⟩ := hs
  have hcx := ctx_of_ctxs hc r.ctx
  rw [← roomFor_of hc ha hpo, ← extFree_of hc ha hpo, ← hcx] at hn
  rw [overwrite_nothing (by rw [hcx]; exact hq), Nat.add_zero, Bool.eq_false_of_not_eq_true hn]
  rfl

end

theorem shedOverflow_effect {u : State} (hs : (u.ctx r.ctx).st = .opened) : (u.shedOverflow r).ctx r.ctx = { u.ctx r.ctx with
      lost := satN 64 ((u.ctx r.ctx).lost + r.items), lostSince := (u.ctx r.ctx).lostSince + r.items,
      flags := (u.ctx r.ctx).flags ||| flGap ||| r.flags &&& flCarried, overflow := satN 32 ((u.ctx r.ctx).overflow + 1), waiting := none } ∧
    onlyIn mCtxs [] [] u (u.shedOverflow r) := by
  unfold State.shedOverflow
  have c1 := loseRec_ctx (s := u) hs
  have k1 := onlyIn_loseRec u r
  generalize u.loseRec r = v at *
  refine ⟨?_, .other k1 (touches_State.updCtx _ _ _) (by decide) (updCtx_regs _ _ _)⟩
  rw [ctx_updCtx_same, c1]

variable (hp : (s.port p).inbox = r :: rest) (hk : ok r = true) (hr : r.ring = []) (hs : (s.ctx r.ctx).st = .opened)
  (hpol : r.policed = true ∨ (s.ctx r.ctx).rate = 0)
  (h : (s.ctx r.ctx).faults ≠ [] ∨ s.roomFor (s.ctx r.ctx) r.size s.extFree = false)

include hp hk hr hs hpol h

theorem recordStalls (hw : (s.ctx r.ctx).waiting = none) (hpo : (s.ctx r.ctx).policy = 0) (et : s.portTake p ok = t) :
    (t.port p).inbox = { r with policed := true } :: rest ∧ t.ctx r.ctx = { s.ctx r.ctx with waiting := some (s.time, 2) } ∧
      onlyIn (mEvent ||| mCtxs ||| mPorts) [] [641] s t := by
  rw [portTake_waits hp hk hr ((place_accepted hs hpol).trans (placeAccepted_stalls hr h hpo))] at et
  obtain ⟨hc, -, -, k1⟩ := noRoom_same s r.ctx
  generalize State.noRoom s r.ctx = u at *
  have c2 := ctx_updCtx_same u r.ctx fun c => { c with waiting := some ((c.waiting.map (·.1)).getD s.time, 2) }
  have k2 : onlyIn (mEvent ||| mCtxs ||| mPorts) [] [641] s (u.updCtx r.ctx fun c => { c with waiting := some ((c.waiting.map (·.1)).getD s.time, 2) }) :=
    .other (k1.mono (by decide) (fun _ h => h) (fun _ h => h)) (touches_State.updCtx _ _ _) (by decide) (updCtx_regs _ _ _)
  generalize (u.updCtx r.ctx fun c => _) = v at *
  have k := touches_State.onPorts v fun _ => SMap.set ⟨[]⟩ v.ports p ⟨{ r with policed := 2 == 2 } :: rest⟩
  have hin : ((v.onPorts fun _ => SMap.set ⟨[]⟩ v.ports p ⟨{ r with policed := 2 == 2 } :: rest⟩).port p).inbox = { r with policed := 2 == 2 } :: rest := by
    rw [port_set]
  rw [et] at k hin
  refine ⟨hin, ?_, .other k2 k (by decide) (k.regs (by decide))⟩
  rw [ctx_of_ctxs (k.ctxs (by decide)), c2, ctx_of_ctxs hc, hw]
  rfl

theorem recordOverflows (hpo : (s.ctx r.ctx).policy = 1 ∨ (s.ctx r.ctx).policy = 2 ∧ (s.ctx r.ctx).recs = []) (et : s.portTake p ok = t) :
    (t.port p).inbox = rest ∧ (t.ctx r.ctx).lost = satN 64 ((s.ctx r.ctx).lost + r.items) ∧
        (t.ctx r.ctx).overflow = satN 32 ((s.ctx r.ctx).overflow + 1) ∧
        (t.ctx r.ctx).flags = (s.ctx r.ctx).flags ||| flGap ||| r.flags &&& flCarried ∧ (t.ctx r.ctx).seq = (s.ctx r.ctx).seq ∧
        onlyIn (mEvent ||| mCtxs ||| mPorts) [] [641] s t := by
  have e : s.placeAccepted r = ((State.noRoom s r.ctx).shedOverflow r, .discarded) :=
    hpo.elim (placeAccepted_sheds hr h) fun hq => placeAccepted_noneToFree hr h hq.1 hq.2
  rw [portTake_gone hp hk hr (.inr rfl) ((place_accepted hs hpol).trans e)] at et
  obtain ⟨hc, -, -, k1⟩ := noRoom_same s r.ctx
  generalize State.noRoom s r.ctx = u at *
  have hcx := ctx_of_ctxs hc r.ctx
  obtain ⟨c2, k2⟩ := shedOverflow_effect (r := r) (u := u) (by rw [hcx]; exact hs)
  generalize u.shedOverflow r = v at *
  have k := touches_State.onPorts v fun _ => SMap.set ⟨[]⟩ v.ports p ⟨rest⟩
  have hin : ((v.onPorts fun _ => SMap.set ⟨[]⟩ v.ports p ⟨rest⟩).port p).inbox = rest := by rw [port_set]
  rw [et] at k hin
  rw [ctx_of_ctxs (k.ctxs (by decide)), c2, hcx]
  exact ⟨hin, rfl, rfl, rfl, rfl, .other ((k1.mono (by decide) (fun _ h => h) (fun _ h => h)).trans (k2.mono (by decide) (fun _ h => h)
    (List.nil_subset _))) k (by decide) (k.regs (by decide))⟩

end

/-! ### Credit comes back (R345, R372) -/

section

variable {s t : State} {x p t0 : Nat} {r : Prod} {b off : Nat}

theorem port_single (hp : s.ports = [(p, ⟨[r]⟩)]) : (s.port p).inbox = [r] := by
  rw [State.port, hp]
  exact congrArg Port.inbox (if_pos rfl)

theorem retryCtx_single {w : Nat} (hp : s.ports = [(p, ⟨[r]⟩)]) (hx : r.ctx = x) (hw : (s.ctx x).waiting = some (t0, w)) :
    s.retryCtx x w = s.portTake p fun r => r.ctx == x := by
  have hq : s.waitPorts x = [p] := by
    rw [State.waitPorts, hp]
    simp [hx]
  unfold State.retryCtx
  rw [hw]
  dsimp only
  rw [if_pos rfl, hq]
  rfl

/-- The stall of policing ends, and the tokens of the record are taken. -/
theorem stallEnds_effect {n : Nat} (hw : (s.ctx x).waiting = some (t0, 1)) {u : State}
    (e : ((s.stallEnds x).updCtx x fun c => { c with tokens := n, tokTime := s.time }) = u) :
    u.ctx x = { s.ctx x with waiting := none, tokens := n, tokTime := s.time } ∧ s.extFree ≤ u.extFree ∧
      u.fld (rADM_CTX_STAT x) fADM_CTX_STAT_STALL_US = satN 32 (s.fld (rADM_CTX_STAT x) fADM_CTX_STAT_STALL_US + s.ticksUs (s.time - t0)) ∧
      Touches (mRegs ||| mCtxs) s u := by
  have e1 : s.stallEnds x = (s.addSat (rADM_CTX_STAT x) fADM_CTX_STAT_STALL_US (s.ticksUs (s.time - t0))).updCtx x fun c => { c with waiting := none } := by
    unfold State.stallEnds
    rw [hw]
    rfl
  rw [e1] at e
  have f := State.fld_addSat_self s (rADM_CTX_STAT x) fADM_CTX_STAT_STALL_US (s.ticksUs (s.time - t0)) (by decide)
  have k := touches_State.addSat_hi s (rADM_CTX_STAT x) fADM_CTX_STAT_STALL_US (s.ticksUs (s.time - t0)) (by simp only [rADM_CTX_STAT]; omega)
  generalize s.addSat (rADM_CTX_STAT x) _ _ = v at *
  have hv := extFree_of (k.ctxs (by decide)) (k.aside (by decide)) (k.ports (by decide))
  have h1 := extFree_updCtx v x (f := fun c => { c with waiting := none }) fun _ => rfl
  have c1 := ctx_updCtx_same v x fun c => { c with waiting := none }
  have k1 := touches_State.updCtx v x fun c => { c with waiting := none }
  have r1 := updCtx_regs v x fun c => { c with waiting := none }
  generalize (v.updCtx x fun c => { c with waiting := none }) = w at *
  have h2 := extFree_updCtx w x (f := fun c => { c with tokens := n, tokTime := s.time }) fun _ => rfl
  have c2 := ctx_updCtx_same w x fun c => { c with tokens := n, tokTime := s.time }
  have k2 := touches_State.updCtx w x fun c => { c with tokens := n, tokTime := s.time }
  have r2 := updCtx_regs w x fun c => { c with tokens := n, tokTime := s.time }
  rw [e] at h2 c2 k2 r2
  refine ⟨?_, by omega, ?_, (k.mono (by decide)).trans ((k1.mono (by decide)).trans (k2.mono (by decide)))⟩
  · rw [c2, c1, ctx_of_ctxs (k.ctxs (by decide))]
  · rw [State.fld_congr r2, State.fld_congr r1, f]

variable (hp : s.ports = [(p, ⟨[r]⟩)]) (hx : r.ctx = x) (hs : (s.ctx x).st = .opened) (he : 0 < s.extFree) (hf : (s.ctx x).faults = [])
  (ht : (s.ctx x).tail = some (b, off)) (hl : off + r.size ≤ 16384) (hr : r.ring = [])

include hp hx hs he hf ht hl hr

theorem stallResumes (hw : (s.ctx x).waiting = some (t0, 2)) (hpol : r.policed = true) (et : s.retryCtx x 2 = t) :
    (t.port p).inbox = [] ∧ (t.ctx x).waiting = none ∧ (t.ctx x).seq = (s.ctx x).seq + 1 ∧ (t.ctx x).lost = (s.ctx x).lost ∧
      Touches (mEvent ||| mFreeCtr ||| mStore ||| mCtxs ||| mBillets ||| mPorts ||| mBadLines) s t := by
  rw [retryCtx_single hp hx hw] at et
  subst hx
  rw [portTake_stored (ok := fun q => q.ctx == r.ctx) (port_single hp) (beq_self_eq_true _) hr hs he (.inl hpol) hf ht hl] at et
  obtain ⟨a1, -, a3, -, -, a6, -, a8⟩ := storeRecord_tail rfl hs ht hr hl rfl
  generalize s.storeRecord r = u at *
  have k := touches_State.onPorts u fun _ => SMap.set ⟨[]⟩ u.ports p ⟨[]⟩
  have hin : ((u.onPorts fun _ => SMap.set ⟨[]⟩ u.ports p ⟨[]⟩).port p).inbox = [] := by rw [port_set]
  rw [et] at k hin
  rw [ctx_of_ctxs (k.ctxs (by decide))]
  exact ⟨hin, a3, a1, a6, (a8.1.mono (by decide)).trans (k.mono (by decide))⟩

theorem policingResumes (hw : (s.ctx x).waiting = some (t0, 1)) (hpol : r.policed = false) (hrate : (s.ctx x).rate ≠ 0)
    (htok : r.size * 65536 ≤ s.tokensNow (s.ctx x)) (et : s.retryCtx x 1 = t) :
    (t.port p).inbox = [] ∧ (t.ctx x).waiting = none ∧ (t.ctx x).seq = (s.ctx x).seq + 1 ∧
      (t.ctx x).tokens = s.tokensNow (s.ctx x) - r.size * 65536 ∧ (t.ctx x).tokTime = s.time ∧
      t.fld (rADM_CTX_STAT x) fADM_CTX_STAT_STALL_US =
        satN 32 (s.fld (rADM_CTX_STAT x) fADM_CTX_STAT_STALL_US + s.ticksUs (s.time - t0)) ∧
      Touches (mEvent ||| mFreeCtr ||| mStore ||| mCtxs ||| mBillets ||| mPorts ||| mBadLines) s t := by
  rw [retryCtx_single hp hx hw] at et
  subst hx
  obtain ⟨c1, h1, f1, k1⟩ := stallEnds_effect (n := s.tokensNow (s.ctx r.ctx) - r.size * 65536) hw rfl
  have e : s.place r = ((s.stallEnds r.ctx).updCtx r.ctx fun c => { c with tokens := s.tokensNow (s.ctx r.ctx) - r.size * 65536, tokTime := s.time }).placeAccepted
      { r with policed := true } := by
    have h := place_policed (s := s) (r := r) hs hpol hrate
    rw [if_pos htok] at h
    exact h
  generalize ((s.stallEnds r.ctx).updCtx r.ctx fun c => _) = u at *
  have hs' : (u.ctx r.ctx).st = .opened := by rw [c1]; exact hs
  have ht' : (u.ctx r.ctx).tail = some (b, off) := by rw [c1]; exact ht
  have hst := placeAccepted_stored (s := u) (r := { r with policed := true }) rfl hs' ht' hr hl (by rw [c1]; exact hf) (by omega)
  rw [portTake_gone (ok := fun q => q.ctx == r.ctx) (port_single hp) (beq_self_eq_true _) hr (.inl rfl) (e.trans hst)] at et
  obtain ⟨a1, -, a3, a4, a5, -, -, a8⟩ := storeRecord_tail (s := u) (r := { r with policed := true }) rfl hs' ht' hr hl rfl
  generalize u.storeRecord { r with policed := true } = v at *
  have k := touches_State.onPorts v fun _ => SMap.set ⟨[]⟩ v.ports p ⟨[]⟩
  have hin : ((v.onPorts fun _ => SMap.set ⟨[]⟩ v.ports p ⟨[]⟩).port p).inbox = [] := by rw [port_set]
  rw [et] at k hin
  rw [ctx_of_ctxs (k.ctxs (by decide))]
  rw [c1] at a1 a4 a5
  refine ⟨hin, a3, a1, a4, a5, ?_, (k1.mono (by decide)).trans ((a8.1.mono (by decide)).trans (k.mono (by decide)))⟩
  rw [State.fld_congr (k.regs (by decide)), fld_of_rd (a8.rd_apart (by simp only [List.mem_singleton, rADM_CTX_STAT, rSTO_CNT0]; omega)
    (by simp only [rADM_CTX_STAT]; omega) (by decide)), f1]

end

end Sys2Proof

end

section
/-! SUPPORT. Held FAULT records (R36), and O44. -/

set_option Elab.async false

namespace Sys2Proof

open Sys2Proof.Machine

/-! ### Nothing to do -/

theorem retryCtx_other {s : State} {x w : Nat} (h : ∀ t0, (s.ctx x).waiting ≠ some (t0, w)) : s.retryCtx x w = s := by
  unfold State.retryCtx
  cases hw : (s.ctx x).waiting with
  | none => rfl
  | some e =>
    obtain ⟨t0, k⟩ := e
    refine if_neg fun hk => h t0 ?_
    rw [hw, hk]

theorem closeIfDrained_other {s : State} {x : Nat} (h : (s.ctx x).st ≠ .draining) : s.closeIfDrained x = s := if_neg (by simp [h])

/-! ### A held FAULT record is written (R36) -/

section

variable {s t : State} {x b off : Nat} {f : FaultRec}

/-- The 32 bytes of a FAULT record's body (Table 2-6). -/
def Machine.FaultRec.body (f : FaultRec) : List Byte :=
  leBytes 8 (f.code + f.source * 2 ^ 16) ++ leBytes 8 f.lost ++ leBytes 8 f.lastGood ++ leBytes 8 f.detail

theorem faultBody_length (f : FaultRec) : f.body.length = 32 := by
  unfold FaultRec.body
  simp only [List.length_append, leBytes_length]

theorem putFault_open (hs : (s.ctx x).st = .opened) (ht : (s.ctx x).tail = some (b, off)) (hl : off + 64 ≤ 16384) (e : s.putFault x f = t) :
    (t.ctx x).faults = (s.ctx x).faults ∧ (t.ctx x).seq = (s.ctx x).seq + 1 ∧ (t.ctx x).wpos = (s.ctx x).wpos + 64 ∧ (t.ctx x).st = .opened ∧
      t.store = s.store.write 0 (b * billetBytes + off)
        (header tyFault (s.fld rGLB_DEVID fGLB_DEVID_DEVID) x (s.ctx x).epoch (s.ctx x).seq f.time 32 0 0 ++ f.body) := by
  unfold State.putFault at e
  dsimp only at e
  rw [← FaultRec.body] at e
  have hsz : recSize 32 = 64 := rfl
  have hb := faultBody_length f
  obtain ⟨q, c1, w1, -, k, -, hst, -⟩ := recordWritten (g := fun c => { c with seq := c.seq + 1 }) (n := 32) (post := []) hs ht
    (by rw [hb]; rfl) (by rw [hsz]; exact hl) (fun c => ⟨_, _, _, _, _, _, _, _, rfl⟩) rfl rfl
  generalize State.afterWrite s _ x = v at *
  obtain ⟨_, _, _, w1⟩ := w1
  obtain ⟨_, _, _, _, _, _, _, _, _, k⟩ := k
  have hv : (v.ctx x).st = .opened := by rw [k, w1]; exact hs
  rw [if_neg (by rw [hv]; decide)] at e
  have kr := touches_State.raiseReq v x f.ev
  rw [e] at kr
  rw [ctx_of_ctxs (kr.ctxs (by decide)), kr.store (by decide), hst, k, w1]
  exact ⟨rfl, rfl, rfl, hs, by rw [hsz, show tailFill 32 = [] from rfl, List.append_nil, List.append_nil]⟩

theorem faultDeferred (hf : (s.ctx x).faults = [f]) (hs : (s.ctx x).st = .opened) (ht : (s.ctx x).tail = some (b, off)) (hl : off + 64 ≤ 16384)
    (hx : 0 < s.extFree) (e : (State.putHeld (s.ctx x).faults.length s x).closeIfDrained x = t) :
    (t.ctx x).faults = [] ∧ (t.ctx x).seq = (s.ctx x).seq + 1 ∧ (t.ctx x).wpos = (s.ctx x).wpos + 64 ∧
      t.store = s.store.write 0 (b * billetBytes + off)
        (header tyFault (s.fld rGLB_DEVID fGLB_DEVID_DEVID) x (s.ctx x).epoch (s.ctx x).seq f.time 32 0 0 ++ f.body) := by
  have hroom : s.faultRoom x = true := by
    unfold State.faultRoom
    dsimp only
    rw [roomFor_tail ht hl hx, Bool.true_or]
  have e1 : State.putHeld (s.ctx x).faults.length s x = (s.updCtx x fun c => { c with faults := [] }).putFault x f := by
    rw [hf]
    unfold List.length List.length State.putHeld State.putHeld
    rw [hf]
    exact if_pos hroom
  rw [e1] at e
  have c2 := ctx_updCtx_same s x fun c => { c with faults := [] }
  have k2 := touches_State.updCtx s x fun c => { c with faults := [] }
  have r2 := updCtx_regs s x fun c => { c with faults := [] }
  generalize (s.updCtx x fun c => { c with faults := [] }) = u at *
  have hu : (u.ctx x).st = .opened ∧ (u.ctx x).tail = some (b, off) ∧ (u.ctx x).faults = [] ∧ (u.ctx x).epoch = (s.ctx x).epoch ∧
      (u.ctx x).seq = (s.ctx x).seq ∧ (u.ctx x).wpos = (s.ctx x).wpos := by
    rw [c2]
    exact ⟨hs, ht, rfl, rfl, rfl, rfl⟩
  obtain ⟨u1, u2, u3, u4, u5, u6⟩ := hu
  obtain ⟨a1, a2, a3, a4, a5⟩ := putFault_open (f := f) u1 u2 hl rfl
  generalize u.putFault x f = v at *
  rw [closeIfDrained_open a4] at e
  subst e
  rw [a1, a2, a3, a5, u3, u4, u5, u6, k2.store (by decide), State.fld_congr r2]
  exact ⟨rfl, rfl, rfl, rfl⟩

end

/-! ### The obligation -/

/-- Settles O44: a record at the head of a port's inbox is written at the tail of its context's cord where credit and room allow, and each
way of not being written leaves what the spec says. -/
theorem recordsReachTheStore : Obligations.RecordsReachTheStore := by
  unfold Obligations.RecordsReachTheStore
  refine ⟨fun p s h => ?_, fun p r rest s hp hw hs hr => ?_, fun p r rest s hp hw hs hr => ?_,
    fun p r rest b off d c s hp hc hw hs hep he hpol hf ht hl hr hft hpt hq hd hdl hfin => ?_,
    fun p r rest c s hp hc hw hs hr hpol hrate htok hx => ⟨fun hcw hb => ?_, fun hcw => ?_⟩,
    fun p r rest c s hp hc hw hs hpol hr h => ⟨fun hpo => ?_, fun hpo => ?_⟩,
    fun x p t0 r b off s hp hx hw hs he hpol hrate htok hf ht hl hr => ⟨_, rfl, ?_⟩,
    fun x p t0 r b off s hp hx hw hs he hpol hf ht hl hr => ⟨_, rfl, ?_⟩,
    fun x s => ⟨fun h => ?_, fun h => ?_, fun hf hs => ?_⟩,
    fun x f b off s hf hs ht hl he => ⟨_, rfl, ?_⟩⟩
  · exact congrArg Host.Outcome.next (portTake_none fun r hr => Bool.eq_false_iff.mpr fun hn => h r hr (Option.isNone_iff_eq_none.mp hn))
  · exact congrArg Host.Outcome.next (portTake_gone hp (Option.isNone_iff_eq_none.mpr hw) hr (.inr rfl) (place_closed hs))
  · exact congrArg Host.Outcome.next (portTake_gone hp (Option.isNone_iff_eq_none.mpr hw) hr (.inr rfl) (place_draining hs))
  · subst hc
    exact ⟨_, rfl, recordArrives hp (Option.isNone_iff_eq_none.mpr hw) hr hs rfl hep he hpol hf ht hl hft hpt hq hd hdl hfin rfl⟩
  · subst hc
    have e := place_policed (s := s) (r := r) hs hpol hrate
    rw [if_neg (by omega), if_pos (by simp [hcw, hb]), updCtx_congr (g := fun c => { c with waiting := some (s.time, 1) }) (by rw [hw]; rfl)] at e
    refine congrArg Host.Outcome.next ((portTake_waits hp (Option.isNone_iff_eq_none.mpr hw) hr e).trans ?_)
    rw [show ({ r with policed := 1 == 2 } : Prod) = r by show { r with policed := false } = r; rw [← hpol]]
    rfl
  · subst hc
    have e := place_policed (s := s) (r := r) hs hpol hrate
    rw [if_neg (by omega), if_neg (by rw [Bool.and_eq_true, decide_eq_true_eq]; rintro ⟨h1, h2⟩; rcases hcw with h | h; exact absurd (h1.symm.trans h) (by decide); omega)] at e
    exact ⟨_, rfl, recordShed hp (Option.isNone_iff_eq_none.mpr hw) hr hs hx e rfl⟩
  · subst hc
    exact ⟨_, rfl, recordStalls hp (Option.isNone_iff_eq_none.mpr hw) hr hs hpol h hw hpo rfl⟩
  · subst hc
    exact ⟨_, rfl, recordOverflows hp (Option.isNone_iff_eq_none.mpr hw) hr hs hpol h hpo rfl⟩
  · exact policingResumes hp hx hs he hf ht hl hr hw hpol hrate htok rfl
  · exact stallResumes hp hx hs he hf ht hl hr hw hpol rfl
  · exact congrArg Host.Outcome.next (retryCtx_other h)
  · exact congrArg Host.Outcome.next (retryCtx_other h)
  · show Host.Outcome.next ((State.putHeld (s.ctx x).faults.length s x).closeIfDrained x) = _
    rw [hf]
    exact congrArg Host.Outcome.next (closeIfDrained_other hs)
  · obtain ⟨a1, a2, a3, a4⟩ := faultDeferred hf hs ht hl he rfl
    generalize ht' : (State.putHeld (s.ctx x).faults.length s x).closeIfDrained x = t at *
    have k := touches_execFaultRecordDeferred x s
    unfold execFaultRecordDeferred at k
    rw [ht'] at k
    rw [Nat.mul_comm b] at a4
    have hlen : (header tyFault (s.fld rGLB_DEVID fGLB_DEVID_DEVID) x (s.ctx x).epoch (s.ctx x).seq f.time 32 0 0 ++ f.body).length = 64 := by
      rw [List.length_append, header_length, faultBody_length]
    refine ⟨a1, a2, a3, ?_, fun a ha => ?_, k.touches rfl⟩
    · rw [a4]
      refine Eq.trans (by rw [hlen]) ((Memory.read_write 0 _ _ _).trans ?_)
      unfold FaultRec.body
      simp only [List.append_assoc]
    · rw [a4]
      exact Memory.byte_write_out _ _ _ _ _ (by rw [hlen]; exact ha)

end Sys2Proof

end

section
/-! SUPPORT. Software references and the end of a DMA operation (R343, R444, R445). -/

set_option Elab.async false

namespace Sys2Proof

open Sys2Proof.Machine

/-! ### Billets and software references -/

theorem billet_setBillet_same (s : State) (b : Nat) (x : Billet) : (s.setBillet b x).billet b = x := by
  rw [State.billet, State.setBillet_billets, SMap.get_set_same]

theorem billet_setBillet_other (s : State) {b k : Nat} (x : Billet) (h : k ≠ b) : (s.setBillet b x).billet k = s.billet k := by
  rw [State.billet, State.setBillet_billets, SMap.get_set_other _ _ _ _ h, State.billet]

theorem billet_of_billets {s t : State} (h : t.billets = s.billets) (b : Nat) : t.billet b = s.billet b := by rw [State.billet, h, State.billet]

/-- TAKE adds a reference, or gives a reason and at most counts and raises STO_REF_LIMIT. -/
theorem swTake_cases (s : State) (x b : Nat) :
    s.swTake x b = (0, s.setBillet b { s.billet b with swref := (s.billet b).swref + 1 }) ∨
      (s.swTake x b).1 ≠ 0 ∧ ((s.swTake x b).2 = s ∨ (s.swTake x b).2 = (s.addSat rSTO_CNT1 fSTO_CNT1_REF_LIMIT 1).raise 643) := by
  have refused {r : Nat} {u : State} (hr : r ≠ 0) (hu : u = s ∨ u = (s.addSat rSTO_CNT1 fSTO_CNT1_REF_LIMIT 1).raise 643) :
      (r, u).1 ≠ 0 ∧ ((r, u).2 = s ∨ (r, u).2 = (s.addSat rSTO_CNT1 fSTO_CNT1_REF_LIMIT 1).raise 643) := ⟨hr, hu⟩
  unfold State.swTake
  generalize (s.addSat rSTO_CNT1 fSTO_CNT1_REF_LIMIT 1).raise 643 = u at *
  dsimp only
  split
  · exact .inr (refused (by decide) (.inl rfl))
  split
  · exact .inr (refused (by decide) (.inl rfl))
  split
  · exact .inr (refused (by decide) (.inl rfl))
  split
  · exact .inr (refused (by decide) (.inl rfl))
  split
  · exact .inr (refused (by decide) (.inr rfl))
  split
  · exact .inr (refused (by decide) (.inr rfl))
  · exact .inl rfl

theorem swTake_taken {s : State} {x b : Nat} (h : (s.swTake x b).1 = 0) :
    s.swTake x b = (0, s.setBillet b { s.billet b with swref := (s.billet b).swref + 1 }) :=
  (swTake_cases s x b).resolve_right fun k => k.1 h

/-- A refusal changes no billet. -/
theorem swTake_refused {s : State} {x b : Nat} (h : (s.swTake x b).1 ≠ 0) : onlyIn mEvent [rSTO_CNT1] [643] s (s.swTake x b).2 := by
  obtain e | ⟨-, e | e⟩ := swTake_cases s x b
  · exact absurd (congrArg Prod.fst e) h
  · rw [e]
    exact .refl _ _ _ _
  · rw [e]
    exact .raise (.of_hi (.addSat (.refl _ _ _ _)) (by decide))

/-- Another reference stays on the billet, so FREE is deferred and settles nothing. -/
theorem swFree_deferred {s : State} {b : Nat} (hb : b < nBillets) (hw : 2 ≤ (s.billet b).swref) (hu : (s.billet b).used = true)
    (hh : (s.billet b).hbias = false) (hs : (s.billet b).switch = none) :
    s.swFree b = (0, ((s.setBillet b { s.billet b with swref := (s.billet b).swref - 1 }).setBillet b
      { s.billet b with swref := (s.billet b).swref - 1, defer := true }).addSat rSTO_CNT0 fSTO_CNT0_FREE_DEFERRED 1) := by
  have ref_pos {u : State} (h1 : (u.billet b).used = true) (h2 : (u.billet b).swref = (s.billet b).swref - 1) : u.refOf b ≠ 0 := by
    unfold State.refOf
    dsimp only
    rw [h1, if_pos rfl, h2]
    omega
  unfold State.swFree
  dsimp only
  rw [if_neg (by omega), if_neg (by omega)]
  have c1 := billet_setBillet_same s b { s.billet b with swref := (s.billet b).swref - 1 }
  generalize s.setBillet b { s.billet b with swref := (s.billet b).swref - 1 } = u at *
  rw [if_neg (ref_pos (u := u) (by rw [c1]; exact hu) (by rw [c1]))]
  have c2 := billet_setBillet_same u b { s.billet b with swref := (s.billet b).swref - 1, defer := true }
  generalize u.setBillet b { s.billet b with swref := (s.billet b).swref - 1, defer := true } = v at *
  have c3 := (billet_of_billets (State.addSat_billets v rSTO_CNT0 fSTO_CNT0_FREE_DEFERRED 1) b).trans c2
  generalize v.addSat rSTO_CNT0 fSTO_CNT0_FREE_DEFERRED 1 = w at *
  have hr : w.refOf b ≠ 0 := ref_pos (by rw [c3]; exact hu) (by rw [c3])
  refine congrArg (Prod.mk 0) ?_
  unfold State.settleBillet
  dsimp only
  rw [if_neg (by rw [c3]; simp [hu]), if_neg (by rw [c3]; simp [hs]), if_neg (by rw [c3]; simp [hh]), if_neg (by simp [hr])]

theorem swFree_none {s : State} {b : Nat} (h : (s.billet b).swref = 0) : (s.swFree b).1 ≠ 0 ∧ onlyIn mEvent [rSTO_CNT1] [642] s (s.swFree b).2 := by
  have k : onlyIn mEvent [rSTO_CNT1] [642] s ((s.addSat rSTO_CNT1 fSTO_CNT1_FREE_BAD 1).raise 642) :=
    .raise (.of_hi (.addSat (.refl _ _ _ _)) (by decide))
  unfold State.swFree
  generalize (s.addSat rSTO_CNT1 fSTO_CNT1_FREE_BAD 1).raise 642 = u at *
  dsimp only
  split
  · exact ⟨Nat.succ_ne_zero 6, .refl _ _ _ _⟩
  · exact ⟨Nat.succ_ne_zero 4, k⟩

/-! ### The commit (R445) -/

theorem live_same {s : State} {f : State → State} (h : f s = s) : (.next (s.live f) : Res) = .next s := by
  unfold State.live
  rw [h, ite_self]

theorem giveLoop_done {s : State} {c : Nat} (h : (s.port (dmaBox c)).inbox = []) (n : Nat) : State.giveLoop n s c = s := by
  cases n with
  | zero => rfl
  | succ n =>
    unfold State.giveLoop
    rw [h]

theorem dmaCommit_idle {s : State} {c : Nat} (h : ∀ a b d, (s.dmaCh c).phase ≠ .moved a b d) : s.dmaCommit c = s := by
  unfold State.dmaCommit
  split
  · next a b d hp => exact absurd hp (h a b d)
  · rfl

theorem dmaCommit_ends {s : State} {c st beat : Nat} (hp : (s.dmaCh c).phase = .moved st beat 0) (hi : (s.port (dmaBox c)).inbox = []) :
    s.dmaCommit c = s.dmaEnd c st beat 0 3 := by
  unfold State.dmaCommit
  rw [hp]
  dsimp only
  rw [giveLoop_done hi, hi, if_neg (by decide), if_neg (by decide)]

theorem fget_all (w : Word) : fget w ⟨0, 64⟩ = w.toNat := by
  unfold fget
  rw [pow_zero, Nat.div_one]
  exact Nat.mod_eq_of_lt w.isLt

section

variable {s : State} {c : Fin 128} {st beat : Nat} (hg : s.glb ≠ 0) (hp : (s.dmaCh c).phase = .moved st beat 0) (hi : (s.port (dmaBox c)).inbox = [])
  (hr : (s.dmaCh c).refs = []) (ho : (s.dmaCh c).op ≠ 1) (hc : (s.dmaCh c).crec = false)

include hg hp hi hr ho hc

theorem commitDone (hn : (s.dmaCh c).w 1 ⟨0, 1⟩ = 0) (h0 : st = 0) (hirq : (s.dmaCh c).irq = false) :
    completes (.dmaDataCompletion c) s fun t => t.dmaState c = 0 ∧ t.dmaCh c = dma0 ∧ t.fld (rDMA_STATUS c) fDMA_STATUS_LAST = 0 ∧
      (t.rd (rDMA_BYTES c)).toNat = ((s.rd (rDMA_BYTES c)).toNat + (s.dmaCh c).bytes) % 2 ^ 64 ∧
      onlyIn (mRegs ||| mPorts ||| mDma) [rDMA_STATUS c, rDMA_BYTES c] [] s t := by
  obtain ⟨-, a2, a3, a4, -, a6, -⟩ := dmaEnd_done c.isLt rfl hr hc ho beat 0 3 rfl
  refine ⟨_, next_live hg ((dmaCommit_ends hp hi).trans (by rw [h0])), (a4 hn).2, (a4 hn).1, a2, ?_, a6 hirq⟩
  have e : fDMA_BYTES_BYTES = ⟨0, 64⟩ := rfl
  rw [e] at a3
  unfold State.fld at a3
  rw [fget_all, fget_all] at a3
  exact a3

theorem commitError (h1 : 16 ≤ st) (h2 : st < 256) :
    completes (.dmaDataCompletion c) s fun t => t.dmaState c = 3 ∧ t.dmaCh c = dma0 ∧ t.fld (rDMA_STATUS c) fDMA_STATUS_LAST = st ∧
      t.fld (rDMA_ERR c) fDMA_ERR_ADDR = (s.dmaCh c).addr / 64 % 2 ^ 58 ∧
      t.fld (rDMA_ERR_INFO c) fDMA_ERR_INFO_BEAT = beat % 2 ^ 32 ∧
      t.fld (rDMA_ERR_INFO c) fDMA_ERR_INFO_BYTES = (s.dmaCh c).bytes % 2 ^ 32 ∧
      onlyIn (mEvent ||| mPorts ||| mDma) [rDMA_STATUS c, rDMA_BYTES c, rDMA_ERR c, rDMA_ERR_INFO c] [768 + c] s t :=
  ⟨_, next_live hg (dmaCommit_ends hp hi), dmaEnd_error c.isLt rfl hr hc (.inl ho) ⟨by omega, h2⟩ beat 0 3 rfl⟩

end

/-! ### REF_TAKE and REF_GIVE (R444) -/

section

variable {s : State} {c : Fin 128} (hg : s.glb ≠ 0) (hp : (s.dmaCh c).phase = .ready) (hc : (s.dmaCh c).crec = false) (hr : (s.dmaCh c).refs = [])

include hp

theorem refTake_runs (ho : (s.dmaCh c).op = 4) : s.refTake c = if (s.swTake (s.dmaCh c).refCtx (s.dmaCh c).billet).1 = 0 then
      (s.swTake (s.dmaCh c).refCtx (s.dmaCh c).billet).2.dmaEnd c dsDone noBeat 0 3
    else (s.swTake (s.dmaCh c).refCtx (s.dmaCh c).billet).2.dmaEnd c dsRefRefused noBeat (s.swTake (s.dmaCh c).refCtx (s.dmaCh c).billet).1 3 := by
  unfold State.refTake
  dsimp only
  rw [if_neg (by rw [State.dmaReady, hp, ho]; decide)]

theorem refGive_runs (ho : (s.dmaCh c).op = 5) : s.refGive c = if (s.swFree (s.dmaCh c).billet).1 = 0 then
      (s.swFree (s.dmaCh c).billet).2.dmaEnd c dsDone noBeat 0 3
    else (s.swFree (s.dmaCh c).billet).2.dmaEnd c dsRefRefused noBeat (s.swFree (s.dmaCh c).billet).1 3 := by
  unfold State.refGive
  dsimp only
  rw [if_neg (by rw [State.dmaReady, hp, ho]; decide)]

include hc hr

/-- The end of an operation on a billet that was refused. -/
theorem refRefused {u t : State} {src why : Nat} (ho : (s.dmaCh c).op ≠ 1) (k : onlyIn mEvent [rSTO_CNT1] [src] s u)
    (e : u.dmaEnd c dsRefRefused noBeat why 3 = t) : t.billets = s.billets ∧ t.dmaState c = 3 ∧ t.fld (rDMA_STATUS c) fDMA_STATUS_LAST = 27 ∧
      onlyIn (mEvent ||| mPorts ||| mDma) [rSTO_CNT1, rDMA_STATUS c, rDMA_BYTES c, rDMA_ERR c, rDMA_ERR_INFO c] [src, 768 + c] s t := by
  have hd := k.1.dmaCh (by decide) c
  obtain ⟨a1, -, a3, -, -, -, a7⟩ := dmaEnd_error c.isLt hd hr hc (.inl ho) (status := dsRefRefused) (by decide) noBeat why 3 e
  exact ⟨(a7.1.billets (by decide)).trans (k.1.billets (by decide)), a1, a3, (k.mono (by decide) (by simp) (by simp)).trans
    (a7.mono (by decide) (List.subset_cons_self _ _) (List.subset_cons_self _ _))⟩

/-- The end of an operation on a billet that was done. -/
theorem refDone {u t : State} {l : List Nat} (ho : (s.dmaCh c).op ≠ 1) (hirq : (s.dmaCh c).irq = false) (hn : (s.dmaCh c).w 1 ⟨0, 1⟩ = 0)
    (hl : l ⊆ [rSTO_CNT0]) (k : onlyIn (mRegs ||| mBillets) l [] s u) (e : u.dmaEnd c dsDone noBeat 0 3 = t) :
    t.billets = u.billets ∧ t.dmaState c = 0 ∧ t.dmaCh c = dma0 ∧ t.fld (rDMA_STATUS c) fDMA_STATUS_LAST = 0 ∧
      t.rd rSTO_CNT0 = u.rd rSTO_CNT0 ∧ onlyIn (mRegs ||| mBillets ||| mPorts ||| mDma) (l ++ [rDMA_STATUS c, rDMA_BYTES c]) [] s t := by
  have hd := k.1.dmaCh (by decide) c
  obtain ⟨-, a2, -, a4, -, a6, -⟩ := dmaEnd_done c.isLt hd hr hc ho noBeat 0 3 e
  obtain ⟨b1, b2⟩ := a4 hn
  have a6 := a6 hirq
  exact ⟨a6.1.billets (by decide), b2, b1, a2, a6.rd_apart (by simp only [List.mem_cons, List.not_mem_nil, or_false, rSTO_CNT0, rDMA_STATUS, rDMA_BYTES]; omega)
    (.inr (by decide)) (by simp), (k.mono (by decide) (List.subset_append_left _ _) (fun _ h => h)).trans
    (a6.mono (by decide) (List.subset_append_right _ _) (fun _ h => h))⟩

include hg

theorem refTaken (ho : (s.dmaCh c).op = 4) (hirq : (s.dmaCh c).irq = false) (hn : (s.dmaCh c).w 1 ⟨0, 1⟩ = 0)
    (h : (s.swTake (s.dmaCh c).refCtx (s.dmaCh c).billet).1 = 0) : completes (.refTake c) s fun t =>
      t.billet (s.dmaCh c).billet = { s.billet (s.dmaCh c).billet with swref := (s.billet (s.dmaCh c).billet).swref + 1 } ∧
      (∀ k, k ≠ (s.dmaCh c).billet → t.billet k = s.billet k) ∧ t.dmaState c = 0 ∧ t.dmaCh c = dma0 ∧
      t.fld (rDMA_STATUS c) fDMA_STATUS_LAST = 0 ∧
      onlyIn (mRegs ||| mBillets ||| mPorts ||| mDma) [rDMA_STATUS c, rDMA_BYTES c] [] s t := by
  have e := refTake_runs hp ho
  rw [if_pos h, congrArg Prod.snd (swTake_taken h)] at e
  have k := touches_State.setBillet s (s.dmaCh c).billet { s.billet (s.dmaCh c).billet with swref := (s.billet (s.dmaCh c).billet).swref + 1 }
  have c1 := billet_setBillet_same s (s.dmaCh c).billet { s.billet (s.dmaCh c).billet with swref := (s.billet (s.dmaCh c).billet).swref + 1 }
  have c2 := fun i hi => billet_setBillet_other s (b := (s.dmaCh c).billet) (k := i)
    { s.billet (s.dmaCh c).billet with swref := (s.billet (s.dmaCh c).billet).swref + 1 } hi
  generalize s.setBillet (s.dmaCh c).billet _ = u at *
  obtain ⟨a1, a2, a3, a4, -, a6⟩ := refDone (l := []) hp hc hr (by omega) hirq hn (List.nil_subset _)
    (.other (.refl _ _ _ _) k (by decide) (k.regs (by decide))) rfl
  exact ⟨_, next_live hg e, (billet_of_billets a1 _).trans c1, fun i hi => (billet_of_billets a1 i).trans (c2 i hi), a2, a3, a4, a6⟩

theorem refTakeRefused (ho : (s.dmaCh c).op = 4) (h : (s.swTake (s.dmaCh c).refCtx (s.dmaCh c).billet).1 ≠ 0) : completes (.refTake c) s fun t =>
      t.billets = s.billets ∧ t.dmaState c = 3 ∧ t.fld (rDMA_STATUS c) fDMA_STATUS_LAST = 27 ∧
        onlyIn (mEvent ||| mPorts ||| mDma) [rSTO_CNT1, rDMA_STATUS c, rDMA_BYTES c, rDMA_ERR c, rDMA_ERR_INFO c] [643, 768 + c] s t :=
  ⟨_, next_live hg ((refTake_runs hp ho).trans (if_neg h)), refRefused hp hc hr (by omega) (swTake_refused h) rfl⟩

theorem refGiven (ho : (s.dmaCh c).op = 5) (hirq : (s.dmaCh c).irq = false) (hn : (s.dmaCh c).w 1 ⟨0, 1⟩ = 0) (hb : (s.dmaCh c).billet < nBillets)
    (hw : 2 ≤ (s.billet (s.dmaCh c).billet).swref) (hu : (s.billet (s.dmaCh c).billet).used = true)
    (hh : (s.billet (s.dmaCh c).billet).hbias = false) (hs : (s.billet (s.dmaCh c).billet).switch = none) : completes (.refGive c) s fun t =>
        t.billet (s.dmaCh c).billet =
          { s.billet (s.dmaCh c).billet with swref := (s.billet (s.dmaCh c).billet).swref - 1, defer := true } ∧
        (∀ k, k ≠ (s.dmaCh c).billet → t.billet k = s.billet k) ∧ t.dmaState c = 0 ∧ t.dmaCh c = dma0 ∧
        t.fld rSTO_CNT0 fSTO_CNT0_FREE_DEFERRED = satN 32 (s.fld rSTO_CNT0 fSTO_CNT0_FREE_DEFERRED + 1) ∧
        onlyIn (mRegs ||| mBillets ||| mPorts ||| mDma) [rSTO_CNT0, rDMA_STATUS c, rDMA_BYTES c] [] s t := by
  have e := refGive_runs hp ho
  rw [swFree_deferred hb hw hu hh hs, if_pos rfl] at e
  generalize (s.dmaCh c).billet = b at *
  have k1 := touches_State.setBillet s b { s.billet b with swref := (s.billet b).swref - 1 }
  have c1 := fun i hi => billet_setBillet_other s (b := b) (k := i) { s.billet b with swref := (s.billet b).swref - 1 } hi
  generalize s.setBillet b { s.billet b with swref := (s.billet b).swref - 1 } = u at *
  have k2 := touches_State.setBillet u b { s.billet b with swref := (s.billet b).swref - 1, defer := true }
  have c2 := fun i hi => billet_setBillet_other u (b := b) (k := i) { s.billet b with swref := (s.billet b).swref - 1, defer := true } hi
  have d2 := billet_setBillet_same u b { s.billet b with swref := (s.billet b).swref - 1, defer := true }
  generalize u.setBillet b { s.billet b with swref := (s.billet b).swref - 1, defer := true } = v at *
  have k3 : onlyIn (mRegs ||| mBillets) [rSTO_CNT0] [] s (v.addSat rSTO_CNT0 fSTO_CNT0_FREE_DEFERRED 1) :=
    .of_hi (.addSat (.other (.other (.refl _ _ _ _) k1 (by decide) (k1.regs (by decide))) k2 (by decide) (k2.regs (by decide)))) (by decide)
  have f3 := State.fld_addSat_self v rSTO_CNT0 fSTO_CNT0_FREE_DEFERRED 1 (by decide)
  have b3 := State.addSat_billets v rSTO_CNT0 fSTO_CNT0_FREE_DEFERRED 1
  rw [State.fld_congr ((k2.regs (by decide)).trans (k1.regs (by decide)))] at f3
  generalize v.addSat rSTO_CNT0 fSTO_CNT0_FREE_DEFERRED 1 = w at *
  obtain ⟨a1, a2, a3, -, a5, a6⟩ := refDone hp hc hr (by omega) hirq hn (List.Subset.refl _) k3 rfl
  exact ⟨_, next_live hg e, (billet_of_billets (a1.trans b3) _).trans d2,
    fun i hi => (billet_of_billets (a1.trans b3) i).trans ((c2 i hi).trans (c1 i hi)), a2, a3, (fld_of_rd a5).trans f3, a6⟩

theorem refGiveRefused (ho : (s.dmaCh c).op = 5) (h : (s.billet (s.dmaCh c).billet).swref = 0) : completes (.refGive c) s fun t =>
      t.billets = s.billets ∧ t.dmaState c = 3 ∧ t.fld (rDMA_STATUS c) fDMA_STATUS_LAST = 27 ∧
        onlyIn (mEvent ||| mPorts ||| mDma) [rSTO_CNT1, rDMA_STATUS c, rDMA_BYTES c, rDMA_ERR c, rDMA_ERR_INFO c] [642, 768 + c] s t :=
  ⟨_, next_live hg ((refGive_runs hp ho).trans (if_neg (swFree_none h).1)), refRefused hp hc hr (by omega) (swFree_none h).2 rfl⟩

end

end Sys2Proof

end

section
/-! SUPPORT. CTX_GIVE (R443, R446, R447). -/

set_option Elab.async false

namespace Sys2Proof

open Sys2Proof.Machine

/-! ### What the engine does before it moves data -/

theorem onlyIn_preempt (s : State) (c : Nat) : onlyIn mRegs [rDMA_GSTAT] [] s (s.preempt c) := by
  unfold State.preempt
  dsimp only
  split
  · exact .of_hi (.addMod (.refl _ _ _ _)) (by decide)
  · exact .refl _ _ _ _

theorem updDma_effect (s : State) (c : Nat) (f : Dma → Dma) : (s.updDma c f).dmaCh c = f (s.dmaCh c) ∧ Touches mDma s (s.updDma c f) :=
  ⟨dmaCh_setDma_same _ _ _, touches_State.setDma _ _ _⟩

/-! ### Extents of records that wait (R338, R339) -/

/-- The extents that the records of a port's inbox have taken. -/
def portClosing (q : Port) : Nat := q.inbox.foldl (fun n r => if r.ring.isEmpty then n else n + r.ring.length + 2) 0

theorem inbox_closing (l : List Prod) (n : Nat) : l.foldl (fun n r => if r.ring.isEmpty then n else n + r.ring.length + 2) n =
    n + l.foldl (fun n r => if r.ring.isEmpty then n else n + r.ring.length + 2) 0 := by
  induction l generalizing n with
  | nil => rfl
  | cons r l ih =>
    rw [List.foldl_cons, List.foldl_cons, ih, ih (if r.ring.isEmpty then 0 else 0 + r.ring.length + 2)]
    cases r.ring.isEmpty with
    | true => exact congrArg (n + ·) (Nat.zero_add _).symm
    | false =>
      rw [if_neg Bool.false_ne_true, if_neg Bool.false_ne_true]
      omega

theorem extClosing_eq (s : State) : s.extClosing = total portClosing s.ports := by
  unfold State.extClosing
  have e : (fun (n : Nat) (e : Nat × Port) => e.2.inbox.foldl (fun n r => if r.ring.isEmpty then n else n + r.ring.length + 2) n) =
      fun n e => n + portClosing e.2 := by
    funext n e
    exact inbox_closing _ _
  rw [e, foldl_total, Nat.zero_add]

/-- An inbox whose records hold no ring billets takes no extents away. -/
theorem extFree_setPort (s : State) (p : Nat) {q : Port} (h : portClosing q = 0) : s.extFree ≤ (s.onPorts fun _ => SMap.set ⟨[]⟩ s.ports p q).extFree := by
  rw [extFree_eq, extFree_eq, State.onPorts_ctxs, State.onPorts_aside, extClosing_eq, extClosing_eq, State.onPorts_ports]
  have := total_set portClosing (d := ⟨[]⟩) rfl s.ports (k := p) (v := q) (by omega)
  omega

/-! ### The records of a host buffer (R443) -/

theorem giveRecs_of {x len good : Nat} : ∀ {n o : Nat} {bs : List Byte} {rs : List Prod} {bad : Bool}, giveRecs x len good n o bs = (rs, bad) →
    ∀ r ∈ rs, r.ctx = x ∧ r.ring = [] ∧ r.policed = false := by
  intro n
  induction n with
  | zero =>
    intro o bs rs bad h r hr
    obtain ⟨rfl, -⟩ := Prod.mk.inj h
    exact absurd hr List.not_mem_nil
  | succ n ih =>
    intro o bs rs bad h r hr
    unfold giveRecs at h
    dsimp only at h
    split_ifs at h
    · obtain ⟨rfl, -⟩ := Prod.mk.inj h
      exact absurd hr List.not_mem_nil
    · obtain ⟨rfl, -⟩ := Prod.mk.inj h
      exact absurd hr List.not_mem_nil
    · obtain ⟨rfl, -⟩ := Prod.mk.inj h
      exact absurd hr List.not_mem_nil
    · obtain ⟨rfl, -⟩ := Prod.mk.inj h
      rcases List.mem_cons.mp hr with rfl | hr
      · exact ⟨rfl, rfl, rfl⟩
      · exact ih rfl r hr

theorem giveRecs_unread {x len n o : Nat} {bs : List Byte} : giveRecs x len 0 (n + 1) o bs = ([], false) := by
  unfold giveRecs
  rw [if_pos (by simp)]

theorem giveRecs_bad {x len n : Nat} {bs : List Byte} (hl : 32 ≤ len)
    (h : leNat (bs.take 1) = tyPad ∨ leNat (bs.take 1) = tyFault ∨ (32 + leNat ((bs.drop 24).take 8) % 2 ^ 32) % 64 ≠ 0 ∨
      4096 < 32 + leNat ((bs.drop 24).take 8) % 2 ^ 32) : giveRecs x len len (n + 1) 0 bs = ([], true) := by
  unfold giveRecs
  dsimp only
  rw [if_neg (by simp only [Bool.or_eq_true, decide_eq_true_eq, not_or]; omega), if_pos]
  simp only [Bool.or_eq_true, decide_eq_true_eq, bne_iff_ne]
  rcases h with h | h | h | h
  · exact .inl (.inr h)
  · exact .inl (.inl (.inr h))
  · exact .inl (.inl (.inl (.inl h)))
  · exact .inl (.inl (.inl (.inr h)))

/-! ### CTX_GIVE -/

/-- The records read stand in the channel's inbox, and its data have moved. -/
def giveBegun (s : State) (c : Nat) (rs : List Prod) (st failAt det : Nat) : State :=
  (s.onPorts fun _ => SMap.set ⟨[]⟩ s.ports (dmaBox c) ⟨rs⟩).updDma c fun e => { e with phase := .moved st failAt det }

theorem giveBegun_effect (s : State) (c : Nat) (rs : List Prod) (st failAt det : Nat) :
    (giveBegun s c rs st failAt det).dmaCh c = { s.dmaCh c with phase := .moved st failAt det } ∧
      ((giveBegun s c rs st failAt det).port (dmaBox c)).inbox = rs ∧ Touches (mPorts ||| mDma) s (giveBegun s c rs st failAt det) := by
  unfold giveBegun
  have k := touches_State.onPorts s fun _ => SMap.set ⟨[]⟩ s.ports (dmaBox c) ⟨rs⟩
  have hp := port_set s (dmaBox c) ⟨rs⟩
  generalize (s.onPorts fun _ => SMap.set ⟨[]⟩ s.ports (dmaBox c) ⟨rs⟩) = u at *
  obtain ⟨h1, h2⟩ := updDma_effect u c fun e => { e with phase := .moved st failAt det }
  generalize (u.updDma c fun e => { e with phase := .moved st failAt det }) = v at *
  exact ⟨by rw [h1, k.dmaCh (by decide)], by rw [State.port, h2.ports (by decide), ← State.port, hp], (k.mono (by decide)).trans (h2.mono (by decide))⟩

theorem giveLoop_none (s : State) (c st failAt det : Nat) : State.giveLoop 1 (giveBegun s c [] st failAt det) c = giveBegun s c [] st failAt det :=
  giveLoop_done (giveBegun_effect s c [] st failAt det).2.1 1

section

variable {s t : State} {c x : Nat} {data : HostRead} (hp : (s.dmaCh c).phase = .ready) (ho : (s.dmaCh c).op = 2) (ht : s.dmaTurn c = true)

include hp ho ht

theorem ctxGive_begins : ¬(!(s.dmaReady c 2 && s.dmaTurn c)) = true := by
  rw [State.dmaReady, hp, ho, ht]
  decide

theorem ctxGive_noBus (hb : s.busOk = false) : s.ctxGive c data = (s.preempt c).updDma c fun e => { e with phase := .moved dsDataErr 0 0 } := by
  unfold State.ctxGive
  rw [if_neg (ctxGive_begins hp ho ht)]
  dsimp only
  rw [hb]
  rfl

/-- The first read of the buffer fails. -/
theorem ctxGive_failed (hb : s.busOk = true) {timeout : Bool} (hf : data.fail = some (0, timeout)) (hl : 0 < (s.dmaCh c).len) :
    s.ctxGive c data = giveBegun ((s.preempt c).hostFail timeout) c [] (if timeout then 21 else 22) 0 0 := by
  unfold State.ctxGive
  rw [if_neg (ctxGive_begins hp ho ht)]
  dsimp only
  rw [hb, if_neg (by decide), hf]
  generalize (s.dmaCh c).len = n at *
  simp only [Option.map_some, Option.getD_some, Nat.zero_div, Nat.zero_mul, Nat.zero_min, giveRecs_unread, Option.isSome_some, hl, decide_true,
    Bool.not_false, Bool.and_self, if_true, List.length_nil]
  generalize (s.preempt c).hostFail timeout = u
  exact giveLoop_none u c _ 0 0

/-- Every read of the buffer succeeds. -/
theorem ctxGive_read (hb : s.busOk = true) (hf : data.fail = none) (hl : data.bytes.length = (s.dmaCh c).len) {rs : List Prod} {bad : Bool}
    (h : giveRecs (s.fld (rDMA_CFG c) fDMA_CFG_GIVE_CTX) data.bytes.length data.bytes.length (data.bytes.length / 64 + 1) 0 data.bytes = (rs, bad)) :
    s.ctxGive c data = State.giveLoop (rs.length + 1) (giveBegun (s.preempt c) c rs (if bad then 25 else 0) noBeat 0) c := by
  unfold State.ctxGive
  rw [if_neg (ctxGive_begins hp ho ht)]
  dsimp only
  rw [hb, if_neg (by decide), hf, ← hl, Nat.sub_self, List.replicate_zero, List.append_nil, Option.map_none, Option.getD_none, Nat.min_self, h]
  generalize s.preempt c = u
  rfl

end

end Sys2Proof

end

section
/-! SUPPORT. The outcomes of CTX_GIVE (R443, R446, R447). -/

set_option Elab.async false

namespace Sys2Proof

open Sys2Proof.Machine

/-- The one record of an inbox is passed to the store and counted. -/
theorem giveLoop_one {s t : State} {c : Nat} {r : Prod} {b off n : Nat} (hin : (s.port (dmaBox c)).inbox = [r]) (hring : r.ring = [])
    (hx : 0 < s.extFree) (hs : (s.ctx r.ctx).st = .opened) (hrate : (s.ctx r.ctx).rate = 0) (hf : (s.ctx r.ctx).faults = [])
    (ht : (s.ctx r.ctx).tail = some (b, off)) (hl : off + r.size ≤ 16384) (e : State.giveLoop (n + 1) s c = t) :
    t.dmaCh c = { s.dmaCh c with recs := (s.dmaCh c).recs + 1, bytes := (s.dmaCh c).bytes + r.size } ∧
      (t.ctx r.ctx).seq = (s.ctx r.ctx).seq + 1 ∧ (t.ctx r.ctx).wpos = (s.ctx r.ctx).wpos + r.size ∧ (t.port (dmaBox c)).inbox = [] ∧
      (∃ bs, bs.length = r.size ∧ t.store = s.store.write 0 (b * billetBytes + off) bs) ∧
      Touches (mEvent ||| mFreeCtr ||| mStore ||| mCtxs ||| mBillets ||| mPorts ||| mBadLines ||| mDma) s t := by
  have etake := portTake_stored (ok := fun _ => true) hin rfl hring hs hx (.inr hrate) hf ht hl
  obtain ⟨a1, a2, -, -, -, -, a7, a8⟩ := storeRecord_tail rfl hs ht hring hl rfl
  generalize s.storeRecord r = u at *
  have k := touches_State.onPorts u fun _ => SMap.set ⟨[]⟩ u.ports (dmaBox c) ⟨[]⟩
  have hp := port_set u (dmaBox c) ⟨[]⟩
  generalize (u.onPorts fun _ => SMap.set ⟨[]⟩ u.ports (dmaBox c) ⟨[]⟩) = v at *
  obtain ⟨h1, h2⟩ := updDma_effect v c fun d => { d with recs := d.recs + 1, bytes := d.bytes + r.size }
  have e1 : State.giveLoop (n + 1) s c = State.giveLoop n (v.updDma c fun d => { d with recs := d.recs + 1, bytes := d.bytes + r.size }) c := by
    conv_lhs => unfold State.giveLoop
    rw [hin]
    dsimp only
    rw [etake, hp]
    exact if_neg Nat.zero_ne_one
  generalize (v.updDma c fun d => { d with recs := d.recs + 1, bytes := d.bytes + r.size }) = w at *
  have hw : (w.port (dmaBox c)).inbox = [] := by rw [State.port, h2.ports (by decide), ← State.port, hp]
  rw [e1, giveLoop_done hw] at e
  subst e
  have hc : w.ctx r.ctx = u.ctx r.ctx := ctx_of_ctxs ((h2.ctxs (by decide)).trans (k.ctxs (by decide))) _
  rw [h1, hc, k.dmaCh (by decide), a8.1.dmaCh (by decide), h2.store (by decide), k.store (by decide)]
  exact ⟨rfl, a1, a2, hw, a7, (a8.1.mono (by decide)).trans ((k.mono (by decide)).trans (h2.mono (by decide)))⟩

section

variable {s : State} {c : Fin 128} {data : HostRead} (hg : s.glb ≠ 0) (ht : s.dmaTurn c = true) (hp : (s.dmaCh c).phase = .ready)
  (ho : (s.dmaCh c).op = 2)

include hg ht hp ho

theorem giveNoBus (hb : s.busOk = false) : completes (.ctxGive c data) s fun t => t.dmaCh c = { s.dmaCh c with phase := .moved 22 0 0 } ∧
    t.store = s.store ∧ onlyIn (mRegs ||| mDma) [rDMA_GSTAT] [] s t := by
  have e := ctxGive_noBus (data := data) hp ho ht hb
  have k := onlyIn_preempt s c
  generalize s.preempt c = u at *
  obtain ⟨h1, h2⟩ := updDma_effect u c fun e => { e with phase := .moved dsDataErr 0 0 }
  rw [k.1.dmaCh (by decide)] at h1
  exact ⟨_, next_live hg e, h1, (h2.store (by decide)).trans (k.1.store (by decide)),
    .other (k.mono (by decide) (fun _ h => h) (fun _ h => h)) h2 (by decide) (h2.regs (by decide))⟩

theorem giveFails (hb : s.busOk = true) {timeout : Bool} (hf : data.fail = some (0, timeout)) (hl : 0 < (s.dmaCh c).len) :
    completes (.ctxGive c data) s fun t => t.dmaCh c = { s.dmaCh c with phase := .moved (if timeout then 21 else 22) 0 0 } ∧
        t.store = s.store ∧ onlyIn (mEvent ||| mPorts ||| mDma) [rDMA_GSTAT, rGLB_HIF_CTO, rGLB_HIF_ERR] [993, 994] s t := by
  have e := ctxGive_failed hp ho ht hb hf hl
  have k := (onlyIn_preempt s c).mono (m' := mEvent ||| mPorts ||| mDma) (l' := [rDMA_GSTAT, rGLB_HIF_CTO, rGLB_HIF_ERR]) (srcs' := [993, 994]) (by decide)
    (by simp) (by simp)
  have k1 := (onlyIn_preempt s c).1.dmaCh (by decide) c
  have k1s := (onlyIn_preempt s c).1.store (by decide)
  generalize s.preempt c = u at *
  have k2 := k.trans ((onlyIn_hostFail u timeout).mono (by decide) (by cases timeout <;> simp [failReg]) (by cases timeout <;> simp [failSrc]))
  have k2d := (onlyIn_hostFail u timeout).1.dmaCh (by decide) c
  have k2s := (onlyIn_hostFail u timeout).1.store (by decide)
  generalize u.hostFail timeout = v at *
  obtain ⟨h1, -, h2⟩ := giveBegun_effect v c [] (if timeout then 21 else 22) 0 0
  rw [k2d, k1] at h1
  exact ⟨_, next_live hg e, h1, (h2.store (by decide)).trans (k2s.trans k1s), .other k2 h2 (by decide) (h2.regs (by decide))⟩

section

variable (hb : s.busOk = true) (hf : data.fail = none) (hl : data.bytes.length = (s.dmaCh c).len)

include hb hf hl

theorem giveStops (h32 : 32 ≤ data.bytes.length) (h : leNat (data.bytes.take 1) = tyPad ∨ leNat (data.bytes.take 1) = tyFault ∨
      (32 + leNat ((data.bytes.drop 24).take 8) % 2 ^ 32) % 64 ≠ 0 ∨ 4096 < 32 + leNat ((data.bytes.drop 24).take 8) % 2 ^ 32) :
    completes (.ctxGive c data) s fun t => t.dmaCh c = { s.dmaCh c with phase := .moved 25 noBeat 0 } ∧ t.store = s.store ∧
        onlyIn (mRegs ||| mPorts ||| mDma) [rDMA_GSTAT] [] s t := by
  have e := ctxGive_read hp ho ht hb hf hl (giveRecs_bad h32 h)
  have k := onlyIn_preempt s c
  generalize s.preempt c = u at *
  obtain ⟨h1, -, h2⟩ := giveBegun_effect u c [] 25 noBeat 0
  have e := e.trans (giveLoop_none u c 25 noBeat 0)
  rw [k.1.dmaCh (by decide)] at h1
  exact ⟨_, next_live hg e, h1, (h2.store (by decide)).trans (k.1.store (by decide)),
    .other (k.mono (by decide) (fun _ h => h) (fun _ h => h)) h2 (by decide) (h2.regs (by decide))⟩

theorem giveOne {x b off : Nat} {r : Prod} (hrecs : (s.dmaCh c).recs = 0) (hbytes : (s.dmaCh c).bytes = 0) (hx : s.fld (rDMA_CFG c) fDMA_CFG_GIVE_CTX = x)
    (h : giveRecs x data.bytes.length data.bytes.length (data.bytes.length / 64 + 1) 0 data.bytes = ([r], false))
    (hxf : 0 < s.extFree) (hs : (s.ctx x).st = .opened) (hrate : (s.ctx x).rate = 0) (hft : (s.ctx x).faults = [])
    (htl : (s.ctx x).tail = some (b, off)) (hlen : off + r.size ≤ 16384) :
    completes (.ctxGive c data) s fun t => (t.dmaCh c).phase = .moved 0 noBeat 0 ∧ (t.dmaCh c).recs = 1 ∧ (t.dmaCh c).bytes = r.size ∧
        (t.ctx x).seq = (s.ctx x).seq + 1 ∧ (t.ctx x).wpos = (s.ctx x).wpos + r.size ∧ (t.port (dmaBox c)).inbox = [] ∧
        (∀ a, a < 16384 * b + off ∨ 16384 * b + off + r.size ≤ a → t.store.byte 0 a = s.store.byte 0 a) ∧
        Touches (mEvent ||| mFreeCtr ||| mStore ||| mCtxs ||| mBillets ||| mPorts ||| mBadLines ||| mDma) s t := by
  have e := ctxGive_read (rs := [r]) (bad := false) hp ho ht hb hf hl (by rw [hx]; exact h)
  obtain ⟨rfl, hring, -⟩ := giveRecs_of h r (List.mem_singleton_self r)
  have k := onlyIn_preempt s c
  have hxu := extFree_of (k.1.ctxs (by decide)) (k.1.aside (by decide)) (k.1.ports (by decide))
  generalize s.preempt c = u at *
  obtain ⟨h1, h2, h3⟩ := giveBegun_effect u c [r] 0 noBeat 0
  have hxv : u.extFree ≤ (giveBegun u c [r] 0 noBeat 0).extFree := by
    have h4 := extFree_setPort u (dmaBox c) (q := ⟨[r]⟩) (by simp [portClosing, hring])
    have kd := touches_State.updDma (u.onPorts fun _ => SMap.set ⟨[]⟩ u.ports (dmaBox c) ⟨[r]⟩) c fun e => { e with phase := .moved 0 noBeat 0 }
    have h5 := extFree_of (kd.ctxs (by decide)) (kd.aside (by decide)) (kd.ports (by decide))
    unfold giveBegun
    omega
  replace e : s.ctxGive c data = State.giveLoop 2 (giveBegun u c [r] 0 noBeat 0) c := e
  generalize giveBegun u c [r] 0 noBeat 0 = v at *
  have hc := ctx_of_ctxs ((h3.ctxs (by decide)).trans (k.1.ctxs (by decide))) r.ctx
  obtain ⟨a1, a2, a3, a4, ⟨bs, hbs, a5⟩, a6⟩ := giveLoop_one (n := 1) h2 hring (by omega) (by rw [hc]; exact hs) (by rw [hc]; exact hrate)
    (by rw [hc]; exact hft) (by rw [hc]; exact htl) hlen rfl
  rw [h1, k.1.dmaCh (by decide)] at a1
  rw [hc] at a2 a3
  refine ⟨_, next_live hg e, by rw [a1], by rw [a1]; exact congrArg (· + 1) hrecs, by rw [a1]; dsimp only; rw [hbytes, Nat.zero_add], a2, a3, a4, fun a ha => ?_,
    (k.1.mono (by decide)).trans ((h3.mono (by decide)).trans a6)⟩
  rw [a5, h3.store (by decide), k.1.store (by decide)]
  exact Memory.byte_write_out _ _ _ _ _ (by rw [Nat.mul_comm b, hbs]; exact ha)

end

end

end Sys2Proof

end

section
/-! SUPPORT. STORE_READ (R444). -/

set_option Elab.async false

namespace Sys2Proof

open Sys2Proof.Machine

/-! ### References to the billets of a range -/

/-- Why TAKE of billet `b` for context `x` is refused. -/
def takeReason (s : State) (x b : Nat) : Nat :=
  if nBillets ≤ b then stRange
  else if !(s.billet b).used then stFree
  else if (s.billet b).owner != x || !(s.ctx x).exts.any (fun e => e.billet == b) then stOwner
  else if (s.billet b).writer then stWriting
  else if 255 ≤ s.refOf b then stRefLimit
  else if 15 ≤ (s.billet b).swref then stSwLimit
  else 0

theorem swTake_reason (s : State) (x b : Nat) : (s.swTake x b).1 = takeReason s x b := by
  unfold State.swTake takeReason
  generalize (s.addSat rSTO_CNT1 fSTO_CNT1_REF_LIMIT 1).raise 643 = u
  generalize s.refOf b = k
  dsimp only
  split_ifs <;> rfl

theorem refOf_of {s t : State} (hb : t.billets = s.billets) (hx : t.ctxs = s.ctxs) (hp : t.ports = s.ports) (b : Nat) : t.refOf b = s.refOf b := by
  unfold State.refOf State.holders State.closing
  simp only [billet_of_billets hb, ctx_of_ctxs hx, hp]

theorem swTake_reason_of {s t : State} (hb : t.billets = s.billets) (hx : t.ctxs = s.ctxs) (hp : t.ports = s.ports) (x b : Nat) :
    (t.swTake x b).1 = (s.swTake x b).1 := by
  rw [swTake_reason, swTake_reason]
  unfold takeReason
  rw [billet_of_billets hb, ctx_of_ctxs hx, refOf_of hb hx hp]

theorem swTakeAll_one (s : State) (b : Nat) : s.swTakeAll [b] =
    if (s.swTake (s.billet b).owner b).1 = 0 then ((0, [b]), (s.swTake (s.billet b).owner b).2)
    else (((s.swTake (s.billet b).owner b).1, []), (s.swTake (s.billet b).owner b).2) := by
  unfold State.swTakeAll
  rw [List.foldl_cons, List.foldl_nil]
  rfl

/-! ### One buffer -/

theorem putSegs_one (s : State) {a n : Nat} (bs : List Byte) (h : 0 < n) : putSegs s [(a, n)] 0 bs = s.hostWrite a (bs.take n) := by
  unfold putSegs putSegs
  exact if_pos h

theorem Memory.read_length (d : Byte) (m : Memory) (a n : Nat) : (Memory.read d m a n).length = n := by
  induction n generalizing a with
  | zero => rfl
  | succ n ih => exact congrArg (· + 1) (ih (a + 1))

/-! ### The operation -/

/-- What STORE_READ does once it holds its references. -/
def storeMoved (u : State) (c : Nat) (a st beat n : Nat) (bs : List Byte) : State :=
  (u.hostWrite a bs).updDma c fun e => { e with phase := .moved st beat 0, bytes := n }

theorem storeMoved_effect {s u : State} {c a st beat n b : Nat} {bs : List Byte} {d : Dma} (hd : u.dmaCh c = d)
    (k : onlyIn (mRegs ||| mBillets ||| mDma) [rDMA_GSTAT] [] s u) (hb : (u.billet b).swref = (s.billet b).swref + 1)
    (hk : ∀ i, i ≠ b → u.billet i = s.billet i) {t : State} (e : storeMoved u c a st beat n bs = t) :
    (t.billet b).swref = (s.billet b).swref + 1 ∧ (∀ i, i ≠ b → t.billet i = s.billet i) ∧
      t.dmaCh c = { d with phase := .moved st beat 0, bytes := n } ∧ t.hostMem = s.hostMem.write 0 a bs ∧
      onlyIn (mRegs ||| mHostMem ||| mBillets ||| mDma) [rDMA_GSTAT] [] s t := by
  unfold storeMoved at e
  have k1 := touches_State.hostWrite u a bs
  have h1 : (u.hostWrite a bs).hostMem = u.hostMem.write 0 a bs := rfl
  generalize u.hostWrite a bs = v at *
  obtain ⟨d2, k2⟩ := updDma_effect v c fun e => { e with phase := .moved st beat 0, bytes := n }
  rw [e] at d2 k2
  have hbi : t.billets = u.billets := (k2.billets (by decide)).trans (k1.billets (by decide))
  refine ⟨by rw [billet_of_billets hbi, hb], fun i hi => (billet_of_billets hbi i).trans (hk i hi), ?_, ?_,
    .other (.other (k.mono (by decide) (fun _ h => h) (fun _ h => h)) k1 (by decide) (k1.regs (by decide))) k2 (by decide) (k2.regs (by decide))⟩
  · rw [d2, k1.dmaCh (by decide), hd]
  · rw [k2.hostMem (by decide), h1, k.1.hostMem (by decide)]

section

variable {s : State} {c : Fin 128} {a b : Nat} (hg : s.glb ≠ 0) (ht : s.dmaTurn c = true) (hp : (s.dmaCh c).phase = .ready)
  (ho : (s.dmaCh c).op = 3)

include ht hp ho

theorem storeRead_begins : ¬(!(s.dmaReady c 3 && s.dmaTurn c)) = true := by
  rw [State.dmaReady, hp, ho, ht]
  decide

variable (hb : billetsOver (s.dmaCh c).storeOff (s.dmaCh c).len = [b])

include hb

/-- The reference is taken: what the channel holds then. -/
theorem storeRead_held (h : (s.swTake (s.billet b).owner b).1 = 0) : ∃ u, (s.preempt c).swTakeAll [b] = ((0, [b]), u) ∧
    (u.billet b).swref = (s.billet b).swref + 1 ∧ (∀ i, i ≠ b → u.billet i = s.billet i) ∧
    onlyIn (mRegs ||| mBillets) [rDMA_GSTAT] [] s u := by
  have k := onlyIn_preempt s c
  generalize s.preempt c = v at *
  have hbv := billet_of_billets (k.1.billets (by decide))
  rw [← swTake_reason_of (k.1.billets (by decide)) (k.1.ctxs (by decide)) (k.1.ports (by decide)), ← hbv b] at h
  rw [swTakeAll_one, if_pos h, congrArg Prod.snd (swTake_taken h)]
  refine ⟨_, rfl, ?_, fun i hi => (billet_setBillet_other _ _ hi).trans (hbv i), .other (k.mono (by decide) (fun _ h => h) (fun _ h => h))
    (touches_State.setBillet _ _ _) (by decide) (State.setBillet_regs _ _ _)⟩
  rw [billet_setBillet_same, hbv b]

/-- Where the reference is taken and requests are possible, the bytes up to the first bad line move. -/
theorem storeRead_moves {u : State} (hu : (s.preempt c).swTakeAll [b] = ((0, [b]), u)) (hbus : s.busOk = true)
    (hs : (s.dmaCh c).segs = [(a, (s.dmaCh c).len)]) (hl : 0 < (s.dmaCh c).len) {bad : Option Nat}
    (hbad : (if s.badLines.isEmpty && s.mem.lost.isEmpty then none else s.badFrom (s.dmaCh c).storeOff (s.dmaCh c).len) = bad) :
    s.storeRead c = storeMoved (u.updDma c fun e => { e with refs := [b] }) c a (if bad.isSome then 22 else 0)
      (if bad.isSome then bad.getD (s.dmaCh c).len / 64 else noBeat) (bad.getD (s.dmaCh c).len)
      ((s.store.read 0 (s.dmaCh c).storeOff (bad.getD (s.dmaCh c).len)).take (s.dmaCh c).len) := by
  unfold State.storeRead storeMoved
  rw [if_neg (storeRead_begins ht hp ho)]
  dsimp only
  rw [hb, hu, hbad, hs, putSegs_one _ _ hl]
  dsimp only
  rw [hbus]
  generalize (u.updDma c fun e => { e with refs := [b] }).hostWrite a _ = v
  cases bad with
  | none => rfl
  | some n => rfl

end

section

variable {s : State} {c : Fin 128} {a b : Nat} (hg : s.glb ≠ 0) (ht : s.dmaTurn c = true) (hp : (s.dmaCh c).phase = .ready)
  (ho : (s.dmaCh c).op = 3) (hb : billetsOver (s.dmaCh c).storeOff (s.dmaCh c).len = [b])

include hg ht hp ho hb

theorem storeReads (hs : (s.dmaCh c).segs = [(a, (s.dmaCh c).len)]) (hl : 0 < (s.dmaCh c).len) (h : (s.swTake (s.billet b).owner b).1 = 0)
    (hbus : s.busOk = true) {bad : Option Nat}
    (hbad : (if s.badLines.isEmpty && s.mem.lost.isEmpty then none else s.badFrom (s.dmaCh c).storeOff (s.dmaCh c).len) = bad) :
    completes (.storeRead c) s fun t => (t.billet b).swref = (s.billet b).swref + 1 ∧ (∀ k, k ≠ b → t.billet k = s.billet k) ∧
      t.dmaCh c = { s.dmaCh c with
        phase := .moved (if bad.isSome then 22 else 0) (if bad.isSome then bad.getD (s.dmaCh c).len / 64 else noBeat) 0
        bytes := bad.getD (s.dmaCh c).len, refs := [b] } ∧
      t.hostMem = s.hostMem.write 0 a ((s.store.read 0 (s.dmaCh c).storeOff (bad.getD (s.dmaCh c).len)).take (s.dmaCh c).len) ∧
      onlyIn (mRegs ||| mHostMem ||| mBillets ||| mDma) [rDMA_GSTAT] [] s t := by
  obtain ⟨u, hu, u1, u2, u3⟩ := storeRead_held ht hp ho hb h
  have e := storeRead_moves ht hp ho hb hu hbus hs hl hbad
  have hd : (u.updDma c fun e => { e with refs := [b] }).dmaCh c = { s.dmaCh c with refs := [b] } := by
    rw [(updDma_effect u c _).1, u3.1.dmaCh (by decide)]
  obtain ⟨v1, v2⟩ := updDma_effect u c fun e => { e with refs := [b] }
  generalize (u.updDma c fun e => { e with refs := [b] }) = v at *
  have hbi := billet_of_billets (v2.billets (by decide))
  obtain ⟨a1, a2, a3, a4, a5⟩ := storeMoved_effect (s := s) (b := b) hd (.other (u3.mono (by decide) (fun _ h => h) (fun _ h => h)) v2 (by decide) (v2.regs (by decide))) (by rw [hbi, u1])
    (fun i hi => (hbi i).trans (u2 i hi)) rfl
  exact ⟨_, next_live hg e, a1, a2, a3, a4, a5⟩

/-- A refusal ends the descriptor with 27. -/
theorem storeRefused (hcr : (s.dmaCh c).crec = false) (hrecs : (s.dmaCh c).recs = 0) (h : (s.swTake (s.billet b).owner b).1 ≠ 0) :
    completes (.storeRead c) s fun t => t.billets = s.billets ∧ t.dmaState c = 3 ∧ t.dmaCh c = dma0 ∧
        t.fld (rDMA_STATUS c) fDMA_STATUS_LAST = 27 ∧
        onlyIn (mEvent ||| mPorts ||| mDma) [rDMA_GSTAT, rSTO_CNT1, rDMA_STATUS c, rDMA_BYTES c, rDMA_ERR c, rDMA_ERR_INFO c]
          [643, 768 + c] s t := by
  have e : s.storeRead c = ((((s.preempt c).swTakeAll [b]).2.updDma c fun e => { e with refs := [] }).dmaEnd c dsRefRefused noBeat
      ((s.preempt c).swTakeAll [b]).1.1 3) := by
    unfold State.storeRead
    rw [if_neg (storeRead_begins ht hp ho)]
    dsimp only
    have k := onlyIn_preempt s c
    rw [← swTake_reason_of (k.1.billets (by decide)) (k.1.ctxs (by decide)) (k.1.ports (by decide)),
      ← billet_of_billets (k.1.billets (by decide)) b] at h
    rw [hb, swTakeAll_one, if_neg h]
    exact if_pos (bne_iff_ne.mpr h)
  have k := onlyIn_preempt s c
  have k2 : onlyIn mEvent [rDMA_GSTAT, rSTO_CNT1] [643] s ((s.preempt c).swTakeAll [b]).2 := by
    rw [← swTake_reason_of (k.1.billets (by decide)) (k.1.ctxs (by decide)) (k.1.ports (by decide)),
      ← billet_of_billets (k.1.billets (by decide)) b] at h
    rw [swTakeAll_one, if_neg h]
    exact (k.mono (by decide) (by simp) (List.nil_subset _)).trans ((swTake_refused h).mono (by decide) (by simp) (fun _ h => h))
  have kb : ((s.preempt c).swTakeAll [b]).2.billets = s.billets := k2.1.billets (by decide)
  generalize (s.preempt c).swTakeAll [b] = w at *
  obtain ⟨d1, d2⟩ := updDma_effect w.2 c fun e => { e with refs := [] }
  rw [k2.1.dmaCh (by decide)] at d1
  have k3 : onlyIn (mEvent ||| mDma) [rDMA_GSTAT, rSTO_CNT1] [643] s (w.2.updDma c fun e => { e with refs := [] }) :=
    .other (k2.mono (by decide) (fun _ h => h) (fun _ h => h)) d2 (by decide) (d2.regs (by decide))
  generalize (w.2.updDma c fun e => { e with refs := [] }) = v at *
  obtain ⟨a1, a2, a3, -, -, -, a7⟩ := dmaEnd_error c.isLt d1 rfl hcr (.inr hrecs) (status := dsRefRefused) (by decide) noBeat w.1.1 3 rfl
  exact ⟨_, next_live hg e, (a7.1.billets (by decide)).trans (k3.1.billets (by decide)), a1, a2, a3,
    (k3.mono (by decide) (by simp) (by simp)).trans (a7.mono (by decide) (by simp) (by simp))⟩

end

end Sys2Proof

end

section
/-! SUPPORT. CTX_TAKE (R442), and O52. -/

set_option Elab.async false

namespace Sys2Proof

open Sys2Proof.Machine

/-! ### An entry of a sorted map, replaced -/

theorem SMap.del_of_from {α : Type} : ∀ {m : SMap α} {k : Nat}, SMap.from (k + 1) m → m.del k = m
  | [], _, _ => rfl
  | (k', v) :: m, k, h => by
    obtain ⟨h1, h2⟩ := h
    unfold SMap.del
    rw [if_neg (by omega), SMap.del_of_from (SMap.from_mono (by omega) h2)]

theorem SMap.ins_of_from {α : Type} {m : SMap α} {k : Nat} (h : SMap.from (k + 1) m) (v : α) : m.ins k v = (k, v) :: m := by
  cases m with
  | nil => rfl
  | cons e m =>
    obtain ⟨h1, -⟩ := h
    exact if_pos (by omega)

theorem SMap.le_of_mem {α : Type} : ∀ {m : SMap α} {n : Nat} {e : Nat × α}, SMap.from n m → e ∈ m → n ≤ e.1
  | (k', v) :: m, n, e, h, he => by
    obtain ⟨h1, h2⟩ := h
    rcases List.mem_cons.mp he with rfl | he
    · exact h1
    · have := SMap.le_of_mem h2 he
      omega

theorem SMap.get_of_mem {α : Type} (d : α) : ∀ {m : SMap α} {n : Nat} {e : Nat × α}, SMap.from n m → e ∈ m → SMap.get d m e.1 = e.2
  | (k', v) :: m, n, e, h, he => by
    obtain ⟨h1, h2⟩ := h
    unfold SMap.get
    rcases List.mem_cons.mp he with rfl | he
    · exact if_pos rfl
    · have := SMap.le_of_mem h2 he
      rw [if_neg (by omega), SMap.get_of_mem d h2 he]

/-- The entry of key `k` with the value `v`. -/
def SMap.put {α : Type} (k : Nat) (v : α) (e : Nat × α) : Nat × α := if e.1 = k then (k, v) else e

theorem SMap.map_put_of_from {α : Type} {m : SMap α} {k : Nat} (v : α) (h : SMap.from (k + 1) m) : m.map (SMap.put k v) = m := by
  refine (List.map_congr_left fun e he => ?_).trans (List.map_id m)
  have := SMap.le_of_mem h he
  exact if_neg (by omega)

theorem SMap.replaced {α : Type} (v : α) : ∀ {m : SMap α} {n : Nat} {e : Nat × α}, SMap.from n m → e ∈ m →
    (m.del e.1).ins e.1 v = m.map (SMap.put e.1 v)
  | (k', w) :: m, n, e, h, he => by
    obtain ⟨h1, h2⟩ := h
    rw [List.map_cons]
    unfold SMap.del SMap.put
    rcases List.mem_cons.mp he with rfl | he
    · rw [if_pos rfl, if_pos rfl, SMap.del_of_from h2, SMap.ins_of_from h2]
      exact congrArg _ (SMap.map_put_of_from v h2).symm
    · have := SMap.le_of_mem h2 he
      rw [if_neg (by omega), if_neg (by omega)]
      refine (if_neg (by omega)).trans ?_
      rw [SMap.replaced v h2 he]
      rfl

theorem findSome_congr {α β : Type} {f g : α → Option β} : ∀ {l : List α}, (∀ e ∈ l, f e = g e) → l.findSome? f = l.findSome? g
  | [], _ => rfl
  | e :: l, h => by
    rw [List.findSome?_cons, List.findSome?_cons, h e List.mem_cons_self, findSome_congr fun e he => h e (List.mem_cons_of_mem _ he)]

/-! ### The context of a channel's CTX_TAKE -/

theorem takeCtx_spec {s : State} {c x k : Nat} (h : s.takeCtx c = some (x, k)) (hs : s.ctxs.sorted = true) :
    ∃ n, SMap.from n s.ctxs ∧ (x, s.ctx x) ∈ s.ctxs ∧ (s.ctx x).st ≠ .closed ∧ (s.ctx x).findDest 1 c = some k := by
  obtain ⟨n, hn⟩ := (SMap.from_iff_sorted _).mpr hs
  obtain ⟨e, he, hf⟩ := List.exists_of_findSome?_eq_some h
  split at hf
  · cases hf
  · next hc =>
    obtain ⟨k', h1, h2⟩ := Option.map_eq_some_iff.mp hf
    obtain ⟨rfl, rfl⟩ := Prod.mk.inj h2
    have hg : s.ctx e.1 = e.2 := SMap.get_of_mem _ hn he
    rw [hg]
    exact ⟨n, hn, he, hc, h1⟩

/-- A change of the context that leaves its state and its destinations leaves the channel's context. -/
theorem takeCtx_updCtx {s : State} {c x k : Nat} (h : s.takeCtx c = some (x, k)) (hs : s.ctxs.sorted = true) {f : Ctx → Ctx}
    (hst : (f (s.ctx x)).st = (s.ctx x).st) (hf : (f (s.ctx x)).findDest 1 c = (s.ctx x).findDest 1 c) : (s.updCtx x f).takeCtx c = some (x, k) := by
  obtain ⟨n, hn, hm, hc, -⟩ := takeCtx_spec h hs
  have hne : f (s.ctx x) ≠ ctx0 := fun e => hc (by rw [← hst, e]; rfl)
  rw [← h]
  unfold State.takeCtx State.updCtx
  rw [State.setCtx_ctxs, SMap.set, if_neg hne, SMap.replaced (f (s.ctx x)) hn hm, List.findSome?_map]
  refine findSome_congr fun e he => ?_
  unfold SMap.put
  by_cases hx : e.1 = x
  · have hg : s.ctx x = e.2 := by rw [← hx]; exact SMap.get_of_mem _ hn he
    rw [hg] at hst hf
    simp only [Function.comp, hg, hx, if_true, hst, hf]
  · simp only [Function.comp, if_neg hx]

/-! ### The progress of a destination -/

theorem modAt_length {α : Type} (f : α → α) : ∀ (l : List α) (i : Nat), (modAt f l i).length = l.length
  | [], _ => rfl
  | _ :: _, 0 => rfl
  | _ :: l, i + 1 => congrArg (· + 1) (modAt_length f l i)

theorem modAt_getD {α : Type} (f : α → α) (d : α) : ∀ {l : List α} {i : Nat}, i < l.length → (modAt f l i).getD i d = f (l.getD i d)
  | _ :: _, 0, _ => rfl
  | _ :: l, i + 1, h => modAt_getD f d (l := l) (Nat.lt_of_succ_lt_succ h)

theorem dests_updDest_length (c : Ctx) (d : Nat) (f : DestSt → DestSt) : (c.updDest d f).dests.length = c.dests.length := modAt_length f c.dests d

theorem dest_updDest_same (c : Ctx) {d : Nat} (h : d < c.dests.length) (f : DestSt → DestSt) : (c.updDest d f).dest d = f (c.dest d) := modAt_getD f dest0 h

/-! ### The copying (R442) -/

/-- The channel and its STATE after a step of CTX_TAKE. -/
def dmaSet (s : State) (c : Nat) (f : Dma → Dma) (st : Nat) : State := (s.updDma c f).setDmaState c st

theorem dmaSet_effect (s : State) {c : Nat} (hc : c < 128) (f : Dma → Dma) {st : Nat} (hs : st < 8) {t : State} (e : dmaSet s c f st = t) :
    t.dmaState c = st ∧ t.dmaCh c = f (s.dmaCh c) ∧ onlyIn (mRegs ||| mDma) [rDMA_STATUS c] [] s t := by
  unfold dmaSet at e
  obtain ⟨h1, h2⟩ := updDma_effect s c f
  have k2 : onlyIn mDma [] [] s (s.updDma c f) := .other (.refl _ _ _ _) h2 (by decide) (h2.regs (by decide))
  generalize s.updDma c f = u at *
  subst e
  refine ⟨?_, (touches_State.setFld _ _ _ _).dmaCh (by decide) c |>.trans h1, .of_hi (.setFld (k2.mono (by decide) (List.nil_subset _) (fun _ h => h))) ?_⟩
  · exact (State.fld_setFld_self _ _ _ _ (by decide)).trans (Nat.mod_eq_of_lt hs)
  · simp only [List.mem_singleton, rDMA_STATUS]
    omega

section

variable {s : State} {c x k n : Nat} (hx : s.takeCtx c = some (x, k))

include hx

theorem takeLoop_waits (h : (s.ctx x).nextRec k = none) :
    State.takeLoop (n + 1) s c = dmaSet s c (fun e => { e with phase := .moving }) (if (s.dmaCh c).recs = 0 then 2 else 1) := by
  unfold State.takeLoop
  dsimp only
  rw [hx]
  dsimp only
  rw [h]
  rfl

variable {r : CordRec} (h : (s.ctx x).nextRec k = some r) (hp : r.typ ≠ tyPad)

include h hp

theorem takeLoop_ends (hl : (s.dmaCh c).len < (s.dmaCh c).bytes + r.len) : State.takeLoop (n + 1) s c =
    dmaSet s c (fun e => { e with phase := .moved (if (s.dmaCh c).recs = 0 then dsTooSmall else dsDone) noBeat 0 }) 1 := by
  unfold State.takeLoop
  dsimp only
  rw [hx]
  dsimp only
  rw [h]
  dsimp only
  rw [if_neg hp, if_pos hl]
  rfl

/-- One record is copied. -/
theorem takeLoop_copies (hl : (s.dmaCh c).bytes + r.len ≤ (s.dmaCh c).len) (hb : s.busOk = true) : State.takeLoop (n + 1) s c =
    State.takeLoop n (dmaSet (((putSegs s (s.dmaCh c).segs (s.dmaCh c).bytes (s.copyRec x k r)).beginRec x k r).deliveredTo x k (r.pos + r.len)) c
      (fun y => { y with
        phase := .moving, bytes := (s.dmaCh c).bytes + r.len, recs := (s.dmaCh c).recs + 1, upTo_ := r.pos + r.len
        gap := if (s.dmaCh c).recs = 0 then ((s.ctx x).dest k).gap else (s.dmaCh c).gap }) 1) c := by
  conv_lhs => unfold State.takeLoop
  dsimp only
  rw [hx]
  dsimp only
  rw [h]
  dsimp only
  rw [if_neg hp, if_neg (by omega), hb]
  rfl

end

end Sys2Proof

end

section
/-! SUPPORT. A record copied by CTX_TAKE (R442), and O52. -/

set_option Elab.async false

namespace Sys2Proof

open Sys2Proof.Machine

theorem takeCtx_of {s t : State} (h : t.ctxs = s.ctxs) (c : Nat) : t.takeCtx c = s.takeCtx c := by rw [State.takeCtx, h, State.takeCtx]

/-- What a destination that has copied the record holds of it. -/
def Machine.Ctx.copied (c : Ctx) (k : Nat) (r : CordRec) : Ctx :=
  (c.updDest k fun t => { t with begun := max t.begun (r.pos + r.len), gap := if r.typ = tyPad then t.gap else t.gap.filter (r.pos ≤ ·) }).updDest k
    fun t => { t with doneTo := max t.doneTo (r.pos + r.len) }

theorem copied_dest (c : Ctx) {k : Nat} (r : CordRec) (hk : k < c.dests.length) : ((c.copied k r).dest k).fin = (c.dest k).fin ∧
    ((c.copied k r).dest k).begun = max (c.dest k).begun (r.pos + r.len) ∧ ((c.copied k r).dest k).doneTo = max (c.dest k).doneTo (r.pos + r.len) := by
  unfold Ctx.copied
  rw [dest_updDest_same _ (by rw [dests_updDest_length]; exact hk), dest_updDest_same _ hk]
  exact ⟨rfl, rfl, rfl⟩

theorem copied_nextRec {c : Ctx} {k : Nat} {r : CordRec} (hk : k < c.dests.length) (hr : c.recs = [r]) (hl : 0 < r.len) :
    (c.copied k r).nextRec k = none := by
  have e : (c.copied k r).recs = [r] := hr
  obtain ⟨-, h, -⟩ := copied_dest c r hk
  unfold Ctx.nextRec
  rw [e, List.find?_cons_of_neg, List.find?_nil]
  rw [h]
  simp
  omega

/-- The bytes and the context of a record that CTX_TAKE copies. -/
theorem copied_effect {s : State} {c x k a n : Nat} {r : CordRec} (hx : s.takeCtx c = some (x, k)) (hs : s.ctxs.sorted = true) (hn : 0 < n) {t : State}
    (e : ((putSegs s [(a, n)] 0 (s.copyRec x k r)).beginRec x k r).deliveredTo x k (r.pos + r.len) = t) :
    t.hostMem = s.hostMem.write 0 a ((s.copyRec x k r).take n) ∧ t.ctx x = (s.ctx x).copied k r ∧ (∀ y, y ≠ x → t.ctx y = s.ctx y) ∧
      t.takeCtx c = some (x, k) ∧ Touches (mHostMem ||| mCtxs) s t := by
  rw [putSegs_one _ _ hn] at e
  generalize (s.copyRec x k r).take n = bs at *
  have k1 := touches_State.hostWrite s a bs
  have h1 : (s.hostWrite a bs).hostMem = s.hostMem.write 0 a bs := rfl
  generalize s.hostWrite a bs = u at *
  have hxu : u.takeCtx c = some (x, k) := (takeCtx_of (k1.ctxs (by decide)) c).trans hx
  have hsu : u.ctxs.sorted = true := by rw [k1.ctxs (by decide)]; exact hs
  have hcu := ctx_of_ctxs (k1.ctxs (by decide))
  unfold State.beginRec State.deliveredTo at e
  have c2 := ctx_updCtx_same u x fun c => c.updDest k fun t =>
    { t with begun := max t.begun (r.pos + r.len), gap := if r.typ = tyPad then t.gap else t.gap.filter (r.pos ≤ ·) }
  have o2 := fun y hy => ctx_updCtx_other u (x := x) (y := y) (fun c => c.updDest k fun t =>
    { t with begun := max t.begun (r.pos + r.len), gap := if r.typ = tyPad then t.gap else t.gap.filter (r.pos ≤ ·) }) hy
  have k2 := touches_State.updCtx u x fun c => c.updDest k fun t =>
    { t with begun := max t.begun (r.pos + r.len), gap := if r.typ = tyPad then t.gap else t.gap.filter (r.pos ≤ ·) }
  have t2 := takeCtx_updCtx hxu hsu (f := fun c => c.updDest k fun t =>
    { t with begun := max t.begun (r.pos + r.len), gap := if r.typ = tyPad then t.gap else t.gap.filter (r.pos ≤ ·) }) rfl rfl
  have s2 : (u.updCtx x fun c => c.updDest k fun t =>
    { t with begun := max t.begun (r.pos + r.len), gap := if r.typ = tyPad then t.gap else t.gap.filter (r.pos ≤ ·) }).ctxs.sorted = true :=
    SMap.sorted_set _ _ _ _ hsu
  generalize (u.updCtx x fun c => c.updDest k fun t =>
    { t with begun := max t.begun (r.pos + r.len), gap := if r.typ = tyPad then t.gap else t.gap.filter (r.pos ≤ ·) }) = v at *
  have c3 := ctx_updCtx_same v x fun c => c.updDest k fun t => { t with doneTo := max t.doneTo (r.pos + r.len) }
  have o3 := fun y hy => ctx_updCtx_other v (x := x) (y := y) (fun c => c.updDest k fun t => { t with doneTo := max t.doneTo (r.pos + r.len) }) hy
  have k3 := touches_State.updCtx v x fun c => c.updDest k fun t => { t with doneTo := max t.doneTo (r.pos + r.len) }
  have t3 := takeCtx_updCtx t2 s2 (f := fun c => c.updDest k fun t => { t with doneTo := max t.doneTo (r.pos + r.len) }) rfl rfl
  rw [e] at c3 k3 t3 o3
  refine ⟨?_, ?_, fun y hy => (o3 y hy).trans ((o2 y hy).trans (hcu y)), t3, (k1.mono (by decide)).trans ((k2.mono (by decide)).trans (k3.mono (by decide)))⟩
  · rw [k3.hostMem (by decide), k2.hostMem (by decide), h1]
  · rw [c3, c2, hcu]
    rfl

section

variable {s : State} {c x k a n : Nat} (hc : c < 128) (hx : s.takeCtx c = some (x, k)) (hrecs : (s.dmaCh c).recs = 0) (hbytes : (s.dmaCh c).bytes = 0)

include hc hx hrecs

theorem takeRun_waits (h : (s.ctx x).nextRec k = none) {t : State} (e : s.takeRun c = t) :
    t.dmaState c = 2 ∧ t.dmaCh c = { s.dmaCh c with phase := .moving } ∧ onlyIn (mRegs ||| mDma) [rDMA_STATUS c] [] s t := by
  unfold State.takeRun at e
  rw [takeLoop_waits hx h, if_pos hrecs] at e
  exact dmaSet_effect s hc _ (by decide) e

variable {r : CordRec} (h : (s.ctx x).nextRec k = some r) (hp : r.typ ≠ tyPad)

include hbytes h hp

theorem takeRun_tooSmall (hl : (s.dmaCh c).len < r.len) {t : State} (e : s.takeRun c = t) :
    t.dmaState c = 1 ∧ t.dmaCh c = { s.dmaCh c with phase := .moved 24 noBeat 0 } ∧ onlyIn (mRegs ||| mDma) [rDMA_STATUS c] [] s t := by
  unfold State.takeRun at e
  rw [takeLoop_ends hx h hp (by rw [hbytes, Nat.zero_add]; exact hl), if_pos hrecs] at e
  exact dmaSet_effect s hc _ (by decide) e

theorem takeRun_copies (hs : s.ctxs.sorted = true) (hk : k < (s.ctx x).dests.length) (hone : (s.ctx x).recs = [r]) (hl : r.len ≤ n) (hpos : 0 < r.len)
    (hb : s.busOk = true) (hsegs : (s.dmaCh c).segs = [(a, n)]) (hlen : (s.dmaCh c).len = n) {t : State} (e : s.takeRun c = t) :
    (t.dmaCh c).phase = .moving ∧ (t.dmaCh c).bytes = r.len ∧ (t.dmaCh c).recs = 1 ∧ t.dmaState c = 1 ∧
      t.hostMem = s.hostMem.write 0 a ((s.copyRec x k r).take n) ∧ ((t.ctx x).dest k).doneTo = max ((s.ctx x).dest k).doneTo (r.pos + r.len) ∧
      ((t.ctx x).dest k).fin = ((s.ctx x).dest k).fin ∧ (t.ctx x).recs = [r] ∧ (∀ y, y ≠ x → t.ctx y = s.ctx y) ∧
      onlyIn (mRegs ||| mHostMem ||| mCtxs ||| mDma) [rDMA_STATUS c] [] s t := by
  have e1 : State.takeLoop 2 s c = t := by
    unfold State.takeRun at e
    rw [hx, Option.map_some, Option.getD_some, hone] at e
    exact e
  rw [takeLoop_copies hx h hp (by rw [hbytes, hlen]; omega) hb, hsegs, hbytes, hrecs] at e1
  obtain ⟨a1, a2, a3, a4, a5⟩ := copied_effect (a := a) (n := n) (r := r) hx hs (by omega) rfl
  have hd := a5.dmaCh (by decide) c
  generalize State.deliveredTo _ x k (r.pos + r.len) = u at *
  have hnone := copied_nextRec hk hone hpos
  obtain ⟨d1, d2, d3⟩ := copied_dest (s.ctx x) r hk
  have hrec : ((s.ctx x).copied k r).recs = [r] := hone
  have k1 : onlyIn (mRegs ||| mHostMem ||| mCtxs ||| mDma) [rDMA_STATUS c] [] s u := .other (.refl _ _ _ _) a5 (by decide) (a5.regs (by decide))
  obtain ⟨-, b2, b3⟩ := dmaSet_effect u hc (fun y => { y with
    phase := .moving, bytes := 0 + r.len, recs := 0 + 1, upTo_ := r.pos + r.len
    gap := if 0 = 0 then ((s.ctx x).dest k).gap else (s.dmaCh c).gap }) (st := 1) (by decide) rfl
  generalize dmaSet u c _ 1 = v at *
  have hcv := ctx_of_ctxs (b3.1.ctxs (by decide))
  rw [takeLoop_waits ((takeCtx_of (b3.1.ctxs (by decide)) c).trans a4) (by rw [hcv, a2]; exact hnone), b2, if_neg (Nat.succ_ne_zero 0)] at e1
  obtain ⟨f1, f2, f3⟩ := dmaSet_effect v hc _ (by decide) e1
  have hct := ctx_of_ctxs (f3.1.ctxs (by decide))
  rw [f2, b2, hct, hcv, a2, f3.1.hostMem (by decide), b3.1.hostMem (by decide), a1]
  exact ⟨rfl, Nat.zero_add _, rfl, f1, rfl, d3, d1, hrec, fun y hy => (hct y).trans ((hcv y).trans (a3 y hy)),
    k1.trans ((b3.mono (by decide) (fun _ h => h) (fun _ h => h)).trans (f3.mono (by decide) (fun _ h => h) (fun _ h => h)))⟩

end

/-! ### The obligation -/

/-- CTX_TAKE begins, or goes on with a record that has come: the copying runs, after the count of pre-emptions. -/
theorem take_runs {s : State} {c : Fin 128} (hg : s.glb ≠ 0) (ht : s.dmaTurn c = true) (ho : (s.dmaCh c).op = 1) {i : Instr}
    (h : i = Instr.ctxTake c ∧ (s.dmaCh c).phase = .ready ∨ i = Instr.dmaRecordAvailable c ∧ (s.dmaCh c).phase = .moving) :
    ∃ u, exec i s = .next (u.takeRun c) ∧ onlyIn mRegs [rDMA_GSTAT] [] s u := by
  obtain ⟨rfl, hp⟩ | ⟨rfl, hp⟩ := h
  · refine ⟨s.preempt c, next_live hg (if_pos ?_), onlyIn_preempt s c⟩
    rw [State.dmaReady, hp, ho, ht]
    rfl
  · refine ⟨s, next_live hg (if_pos ?_), .refl _ _ _ _⟩
    rw [hp, ho, ht]
    rfl

theorem busOk_kept {s t : State} (k : onlyIn mRegs [rDMA_GSTAT] [] s t) : t.busOk = s.busOk := by
  unfold State.busOk
  rw [k.1.hif (by decide), fld_of_rd (k.rd_apart (by decide) (.inl (by decide)) (by simp))]

theorem copyRec_kept {s t : State} (k : onlyIn mRegs [rDMA_GSTAT] [] s t) (x d : Nat) (r : CordRec) : t.copyRec x d r = s.copyRec x d r := by
  have hl := lineBad_of (k.1.badLines (by decide)) (k.1.mem (by decide)) (k.rd_apart (a := rMEM_MAP) (by decide) (.inr (by decide)) (by simp))
  unfold State.copyRec State.readStream State.streamBad
  simp only [ctx_of_ctxs (k.1.ctxs (by decide)), k.1.store (by decide), k.1.badLines (by decide), k.1.mem (by decide), hl]

theorem dmaIdle_other {s : State} {c : Nat} (h : ¬((s.dmaCh c).phase == .moving && (s.dmaCh c).op == 1 && (s.dmaCh c).recs != 0 &&
    !((s.takeCtx c).bind fun e => (s.ctx e.1).nextRec e.2).isSome) = true) : s.dmaIdle c = s := if_neg h

/-- Settles O52, by the copying of CTX_TAKE, the outcomes of CTX_GIVE and STORE_READ, the references and the commit. -/
theorem dmaOperations : Obligations.DmaOperations := by
  unfold Obligations.DmaOperations
  refine ⟨fun c data s hg hp i hi => ?notReady, fun c data s ht i hi => ?notTurn,
    fun c x k a n s hg ht hx ho hrecs hbytes hsegs hlen i hi => ?take, fun c s hg => ⟨fun hp => ⟨?_, ?_⟩, fun hr => ?_, fun x k r hx hn => ?_, fun hp ho hr hn => ?_⟩,
    fun c data x s hg ht hp ho hrecs hbytes hx => ⟨giveNoBus hg ht hp ho, fun timeout hb hf hl => giveFails hg ht hp ho hb hf hl, giveStops hg ht hp ho,
      fun r b off hb hf hl h he hs hrate hft htl hlen => giveOne hg ht hp ho hb hf hl hrecs hbytes hx h he hs hrate hft htl hlen⟩,
    fun c b a s hg ht hp ho hcr hrecs hbytes hsegs hl hb => ⟨fun h hbus hbad => ?clean, fun n h hbus hbl hbad => ?poisoned, storeRefused hg ht hp ho hb hcr hrecs⟩,
    fun c s hg hp hcr hr hirq hn => ⟨fun ho => refTaken hg hp hcr hr ho hirq hn, refTakeRefused hg hp hcr hr,
      fun ho => refGiven hg hp hcr hr ho hirq hn, refGiveRefused hg hp hcr hr⟩,
    fun c s hg => ⟨fun h => live_same (dmaCommit_idle h), fun st beat hp hi hr ho hcr hn => ⟨commitDone hg hp hi hr ho hcr hn, commitError hg hp hi hr ho hcr⟩⟩⟩
  case notReady =>
    simp only [List.mem_cons, List.not_mem_nil, or_false] at hi
    have hd (op : Nat) : s.dmaReady c op = false := by simp [State.dmaReady, hp]
    obtain rfl | rfl | rfl | rfl | rfl := hi
    · exact live_same (if_neg (by simp [hd]))
    · exact live_same (if_pos (by simp [hd]))
    · exact live_same (if_pos (by simp [hd]))
    · exact live_same (if_pos (by simp [hd]))
    · exact live_same (if_pos (by simp [hd]))
  case notTurn =>
    simp only [List.mem_cons, List.not_mem_nil, or_false] at hi
    obtain rfl | rfl | rfl | rfl := hi
    · exact live_same (if_neg (by simp [ht]))
    · exact live_same (if_pos (by simp [ht]))
    · exact live_same (if_pos (by simp [ht]))
    · exact live_same (if_neg (by simp [ht]))
  case take =>
    obtain ⟨u, e, ku⟩ := take_runs hg ht ho hi
    have hcu := ctx_of_ctxs (ku.1.ctxs (by decide))
    have hxu := (takeCtx_of (ku.1.ctxs (by decide)) c).trans hx
    have hdu := ku.1.dmaCh (by decide) c
    rw [← hdu] at hrecs hbytes hsegs hlen ⊢
    rw [← hcu x]
    refine ⟨fun hn => ?_, fun r hn hp hl => ?_, fun r hs hk hone hn hp hl hpos hb => ?_⟩
    · obtain ⟨a1, a2, a3⟩ := takeRun_waits c.isLt hxu hrecs hn rfl
      exact ⟨_, e, a1, a2, (ku.mono (by decide) (by simp) (fun _ h => h)).trans (a3.mono (by decide) (by simp) (fun _ h => h))⟩
    · obtain ⟨a1, a2, a3⟩ := takeRun_tooSmall c.isLt hxu hrecs hbytes hn hp (by rw [hlen]; exact hl) rfl
      exact ⟨_, e, a1, a2, (ku.mono (by decide) (by simp) (fun _ h => h)).trans (a3.mono (by decide) (by simp) (fun _ h => h))⟩
    · obtain ⟨a1, a2, a3, a4, a5, a6, a7, a8, a9, a10⟩ := takeRun_copies c.isLt hxu hrecs hbytes hn hp (by rw [ku.1.ctxs (by decide)]; exact hs) hk hone hl hpos
        (by rw [busOk_kept ku]; exact hb) hsegs hlen rfl
      rw [copyRec_kept ku, ku.1.hostMem (by decide)] at a5
      exact ⟨_, e, a1, a2, a3, a4, a5, a6, a7, a8, fun y hy => (a9 y hy).trans (hcu y),
        (ku.mono (by decide) (by simp) (fun _ h => h)).trans (a10.mono (by decide) (by simp) (fun _ h => h))⟩
  case clean =>
    obtain ⟨t, e, a1, a2, a3, a4, a5⟩ := storeReads hg ht hp ho hb hsegs hl h hbus (bad := none) (by rw [hbad, ite_self])
    exact ⟨t, e, a1, a2, a3, a4.trans (by rw [Option.getD_none, List.take_of_length_le (Memory.read_length _ _ _ _).le]), a5⟩
  case poisoned =>
    obtain ⟨t, e, -, -, a3, a4, a5⟩ := storeReads hg ht hp ho hb hsegs hl h hbus (bad := some n) (by
      rw [hbad, if_neg]
      simp only [Bool.and_eq_true, List.isEmpty_iff, not_and_or]
      exact hbl)
    exact ⟨t, e, a3, a4, a5⟩
  · exact live_same (if_neg (by simp [hp]))
  · exact live_same (dmaIdle_other (by simp [hp]))
  · exact live_same (dmaIdle_other (by simp [hr]))
  · exact live_same (dmaIdle_other (by simp [hx, hn]))
  · refine next_live hg (if_pos ?_)
    have hm : ((s.takeCtx c).bind fun e => (s.ctx e.1).nextRec e.2) = none := by
      cases h : s.takeCtx c with
      | none => rfl
      | some e => exact hn e.1 e.2 h
    rw [hm, hp, ho]
    simp [hr]

end Sys2Proof

end

section
/-! SUPPORT. STO_CMD: TAKE, FREE and QUERY (R342, R343). -/

set_option Elab.async false

namespace Sys2Proof

open Sys2Proof.Machine

/-! ### The command register -/

theorem stoResult_effect (v : State) {k : Nat} (hk : k < 16) {t : State} (e : State.stoResult (k, v) = t) :
    t.fld rSTO_CMD_STATUS fSTO_CMD_STATUS_RESULT = (if k = 0 then 1 else 2) ∧ t.fld rSTO_CMD_STATUS fSTO_CMD_STATUS_REASON = k ∧
      (∀ a, a ≠ rSTO_CMD_STATUS → t.rd a = v.rd a) ∧ onlyIn mRegs [rSTO_CMD_STATUS] [] v t := by
  subst e
  unfold State.stoResult
  dsimp only
  refine ⟨?_, ?_, fun a ha => State.rd_setFlds_other _ _ ha, .of_hi (.setFlds (.refl _ _ _ _)) (by decide)⟩
  · simp (disch := decide)
    split <;> decide
  · simp (disch := decide)
    omega

section

variable {s : State} {x b : Nat} (hr : s.ready = true) (hm : s.flag rMEM_MAP fMEM_MAP_MAP_BUSY = false) (hsr : s.selfRefresh = false)
  (hx : s.fld rSTO_CMD_ARG fSTO_CMD_ARG_CONTEXT = x) (hb : s.fld rSTO_CMD_ARG fSTO_CMD_ARG_BILLET = b)

include hm hsr

/-- The commands of STO_CMD, applied with STO_CMD_ARG. -/
theorem wrStoCmd_applied : State.wrStoCmd 1 s = State.stoResult (s.swTake (s.fld rSTO_CMD_ARG fSTO_CMD_ARG_CONTEXT) (s.fld rSTO_CMD_ARG fSTO_CMD_ARG_BILLET)) ∧
    State.wrStoCmd 2 s = State.stoResult (s.swFree (s.fld rSTO_CMD_ARG fSTO_CMD_ARG_BILLET)) ∧
    State.wrStoCmd 3 s = State.stoResult (s.stoFlush (s.fld rSTO_CMD_ARG fSTO_CMD_ARG_CONTEXT)) ∧
    State.wrStoCmd 4 s = State.stoResult (s.stoDiscard (s.fld rSTO_CMD_ARG fSTO_CMD_ARG_CONTEXT)) ∧
    State.wrStoCmd 5 s = State.stoResult (s.stoQuery (s.fld rSTO_CMD_ARG fSTO_CMD_ARG_BILLET)) := by
  unfold State.wrStoCmd
  dsimp only
  rw [hm, if_neg Bool.false_ne_true, srExit_off hsr]
  exact ⟨rfl, rfl, rfl, rfl, rfl⟩

include hr hx hb

/-- The five commands in READY, on what is left when the staged half is dropped. -/
theorem stoCmd_runs : ∃ u, onlyIn mStaged [] [] s u ∧
    exec .stoTake s = .next (State.stoResult (u.swTake x b)) ∧ exec .stoFree s = .next (State.stoResult (u.swFree b)) ∧
    exec .stoFlush s = .next (State.stoResult (u.stoFlush x)) ∧ exec .stoDiscard s = .next (State.stoResult (u.stoDiscard x)) ∧
    exec .stoQuery s = .next (State.stoResult (u.stoQuery b)) := by
  have k : onlyIn mStaged [] [] s (s.dropStaged .host rSTO_CMD) :=
    .other (.refl _ _ _ _) (touches_State.dropStaged _ _ _) (by decide) ((touches_State.dropStaged _ _ _).regs (by decide))
  have hreg := (touches_State.dropStaged s .host rSTO_CMD).regs (by decide)
  obtain ⟨e1, e2, e3, e4, e5⟩ := wrStoCmd_applied (s := s.dropStaged .host rSTO_CMD) (by rw [State.flag, State.fld_congr hreg]; exact hm)
    (by rw [State.selfRefresh, State.flag, State.fld_congr hreg]; exact hsr)
  rw [State.fld_congr hreg, State.fld_congr hreg, hx, hb] at e1
  rw [State.fld_congr hreg, hb] at e2 e5
  rw [State.fld_congr hreg, hx] at e3 e4
  have run (i : Instr) (v : Word) (h : exec i s = .next (s.write64 .host rSTO_CMD (State.wrStoCmd v))) :
      exec i s = .next (State.wrStoCmd v (s.dropStaged .host rSTO_CMD)) := h.trans (next_write64 hr rfl)
  exact ⟨_, k, (run _ 1 rfl).trans (congrArg Host.Outcome.next e1), (run _ 2 rfl).trans (congrArg Host.Outcome.next e2),
    (run _ 3 rfl).trans (congrArg Host.Outcome.next e3), (run _ 4 rfl).trans (congrArg Host.Outcome.next e4),
    (run _ 5 rfl).trans (congrArg Host.Outcome.next e5)⟩

end

/-- A command that does nothing but answer. -/
theorem stoAnswered {s u t : State} {k : Nat} (ku : onlyIn mStaged [] [] s u) (hk : k < 16) (e : State.stoResult (k, u) = t) :
    t.billets = s.billets ∧ t.fld rSTO_CMD_STATUS fSTO_CMD_STATUS_RESULT = (if k = 0 then 1 else 2) ∧
      t.fld rSTO_CMD_STATUS fSTO_CMD_STATUS_REASON = k ∧ onlyIn (mRegs ||| mStaged) [rSTO_CMD_STATUS] [] s t := by
  obtain ⟨h1, h2, -, h4⟩ := stoResult_effect u hk e
  exact ⟨(h4.1.billets (by decide)).trans (ku.1.billets (by decide)), h1, h2, (ku.mono (by decide) (List.nil_subset _) (fun _ h => h)).trans
    (h4.mono (by decide) (fun _ h => h) (fun _ h => h))⟩

/-! ### TAKE and FREE -/

theorem swTake_free {s : State} {x b : Nat} (hb : b < nBillets) (h : (s.billet b).used = false) : s.swTake x b = (1, s) := by
  unfold State.swTake
  dsimp only
  rw [if_neg (by omega), if_pos (by rw [h]; rfl)]

theorem swTake_owner {s : State} {x b : Nat} (hb : b < nBillets) (h : (s.billet b).used = true) (ho : (s.billet b).owner ≠ x) : s.swTake x b = (2, s) := by
  unfold State.swTake
  dsimp only
  rw [if_neg (by omega), if_neg (by rw [h]; decide), if_pos (by simp [ho])]

theorem swTake_range {s : State} {x b : Nat} (hb : nBillets ≤ b) : s.swTake x b = (7, s) := if_pos hb
theorem swFree_range {s : State} {b : Nat} (hb : nBillets ≤ b) : s.swFree b = (7, s) := if_pos hb
theorem stoQuery_range {s : State} {b : Nat} (hb : nBillets ≤ b) : s.stoQuery b = (7, s) := if_pos hb

theorem takeReason_none {s : State} {x b : Nat} (hb : b < nBillets) (hu : (s.billet b).used = true) (ho : (s.billet b).owner = x)
    (he : ((s.ctx x).exts.any fun e => e.billet == b) = true) (hw : (s.billet b).writer = false) (hr : s.refOf b < 255) (hs : (s.billet b).swref < 15) :
    takeReason s x b = 0 := by
  unfold takeReason
  rw [if_neg (by omega), if_neg (by rw [hu]; decide), if_neg (by rw [ho, he]; simp), if_neg (by rw [hw]; decide), if_neg (by omega), if_neg (by omega)]

/-- A billet without holds returns to the free state. -/
theorem settleBillet_frees {s : State} {b : Nat} (hu : (s.billet b).used = true) (hs : (s.billet b).switch = none) (hh : (s.billet b).hbias = false)
    (hr : s.refOf b = 0) : s.settleBillet b = s.freeBillet b := by
  unfold State.settleBillet
  dsimp only
  rw [if_neg (by simp [hu]), if_neg (by simp [hs]), if_neg (by simp [hh]), if_pos (by simp [hr, hh])]

theorem freeBillet_effect (s : State) (b : Nat) {t : State} (e : s.freeBillet b = t) : t.billet b = billet0 ∧ (∀ k, k ≠ b → t.billet k = s.billet k) ∧
    t.fld rSTO_CNT0 fSTO_CNT0_FREES = (s.fld rSTO_CNT0 fSTO_CNT0_FREES + 1) % 2 ^ 32 ∧
    (t.ctx (s.billet b).owner).held = (s.ctx (s.billet b).owner).held - 1 ∧ onlyIn (mRegs ||| mBillets ||| mCtxs) [rSTO_CNT0] [] s t := by
  unfold State.freeBillet at e
  dsimp only at e
  have k1 := touches_State.setBillet s b billet0
  have c1 := billet_setBillet_same s b billet0
  have o1 := fun k hk => billet_setBillet_other s (b := b) (k := k) billet0 hk
  generalize s.setBillet b billet0 = u at *
  have k2 := touches_State.updCtx u (s.billet b).owner fun c => { c with held := c.held - 1, exts := c.exts.filter fun e => e.billet != b }
  have r2 := updCtx_regs u (s.billet b).owner fun c => { c with held := c.held - 1, exts := c.exts.filter fun e => e.billet != b }
  have c2 := ctx_updCtx_same u (s.billet b).owner fun c => { c with held := c.held - 1, exts := c.exts.filter fun e => e.billet != b }
  generalize (u.updCtx (s.billet b).owner fun c => { c with held := c.held - 1, exts := c.exts.filter fun e => e.billet != b }) = v at *
  have f3 := State.fld_addMod_self v rSTO_CNT0 fSTO_CNT0_FREES 1 (by decide)
  have k3 : onlyIn (mRegs ||| mBillets ||| mCtxs) [rSTO_CNT0] [] s (v.addMod rSTO_CNT0 fSTO_CNT0_FREES 1) :=
    .of_hi (.addMod (.other (.other (.refl _ _ _ _) k1 (by decide) (k1.regs (by decide))) k2 (by decide) r2)) (by decide)
  have b3 := State.addMod_billets v rSTO_CNT0 fSTO_CNT0_FREES 1
  have c3 := State.addMod_ctxs v rSTO_CNT0 fSTO_CNT0_FREES 1
  rw [e] at f3 k3 b3 c3
  have hbi := billet_of_billets (b3.trans (k2.billets (by decide)))
  refine ⟨(hbi b).trans c1, fun k hk => (hbi k).trans (o1 k hk), ?_, ?_, k3⟩
  · rw [f3, State.fld_congr (r2.trans (k1.regs (by decide)))]
  · rw [ctx_of_ctxs c3, c2, ctx_of_ctxs (k1.ctxs (by decide))]

theorem closing_of {s t : State} (h : t.ports = s.ports) (b : Nat) : t.closing b = s.closing b := by rw [State.closing, h, State.closing]

theorem holders_of {s t : State} {b : Nat} (h : t.ctxs = s.ctxs) (ho : (t.billet b).owner = (s.billet b).owner)
    (hw : (t.billet b).writer = (s.billet b).writer) : t.holders b = s.holders b := by
  unfold State.holders
  dsimp only
  rw [ho, hw, ctx_of_ctxs h]

theorem refOf_zero {s : State} {b : Nat} (hw : (s.billet b).writer = false) (hc : s.closing b = false) (hh : s.holders b = [])
    (hs : (s.billet b).swref = 0) : s.refOf b = 0 := by
  unfold State.refOf
  dsimp only
  rw [hw, hc, hh, hs]
  exact ite_self 0

/-- The last reference and hold of a billet ends. -/
theorem swFree_frees {s : State} {b : Nat} (hb : b < nBillets) (hw : (s.billet b).swref = 1) (hu : (s.billet b).used = true)
    (hh : (s.billet b).hbias = false) (hs : (s.billet b).switch = none) (hwr : (s.billet b).writer = false) (hc : s.closing b = false)
    (hho : s.holders b = []) : s.swFree b = (0, (s.setBillet b { s.billet b with swref := 0 }).freeBillet b) := by
  unfold State.swFree
  dsimp only
  rw [if_neg (by omega), if_neg (by omega), hw]
  have k := touches_State.setBillet s b { s.billet b with swref := 1 - 1 }
  have c1 := billet_setBillet_same s b { s.billet b with swref := 1 - 1 }
  generalize s.setBillet b { s.billet b with swref := 1 - 1 } = u at *
  have hr : u.refOf b = 0 := refOf_zero (by rw [c1]; exact hwr) (by rw [closing_of (k.ports (by decide))]; exact hc)
    (by rw [holders_of (k.ctxs (by decide)) (by rw [c1]) (by rw [c1])]; exact hho) (by rw [c1])
  rw [if_pos hr, settleBillet_frees (by rw [c1]; exact hu) (by rw [c1]; exact hs) (by rw [c1]; exact hh) hr]

end Sys2Proof

end

section
/-! SUPPORT. FLUSH and DISCARD of a context (R37, R350). -/

set_option Elab.async false

namespace Sys2Proof

open Sys2Proof.Machine

/-! ### A flush -/

theorem recSize_pad {off : Nat} (h64 : off % 64 = 0) (hlt : off < 16384) : recSize ((billetBytes - off) / 64 * 64 - 32) = 16384 - off := by
  unfold recSize tailFill
  rw [List.length_replicate]
  simp only [billetBytes]
  omega

/-- One PAD record fills the tail billet. -/
theorem pad_effect {s t : State} {x b off : Nat} (hs : (s.ctx x).st = .opened) (ht : (s.ctx x).tail = some (b, off)) (h64 : off % 64 = 0)
    (hlt : off < 16384) (e : s.pad x = t) : (t.ctx x).st = .opened ∧ (t.ctx x).seq = (s.ctx x).seq ∧ (t.ctx x).wpos = (s.ctx x).wpos + (16384 - off) ∧
      ∃ bs, bs.length = 16384 - off ∧ t.store = s.store.write 0 (b * billetBytes + off) bs := by
  unfold State.pad at e
  dsimp only at e
  rw [ht] at e
  dsimp only at e
  rw [if_neg (by simp only [billetBytes]; omega)] at e
  have hsz := recSize_pad h64 hlt
  have hpre := List.length_replicate (n := (billetBytes - off) / 64 * 64 - 32) (a := (0 : Byte))
  generalize (billetBytes - off) / 64 * 64 - 32 = n at *
  generalize List.replicate n (0 : Byte) = pre at *
  generalize (if (s.ctx x).epochPend then ((s.ctx x).epoch + 1) % 65536 else (s.ctx x).epoch) = ep at *
  generalize s.fld rGLB_DEVID fGLB_DEVID_DEVID = dv at *
  have w := writeRecord_tail (n := n) (pre := pre) (post := []) ht (by rw [hpre]; rfl) (by rw [hsz]; simp only [billetBytes]; omega)
    (rfl : s.writeRecord x tyPad dv ep (s.ctx x).seq s.time 0 0 0 pre [] [] = _)
  generalize s.writeRecord x tyPad dv ep (s.ctx x).seq s.time 0 0 0 pre [] [] = u at *
  obtain ⟨⟨q, ⟨_, _, _, w1⟩, -⟩, -, w3, -⟩ := w
  rw [hsz] at w1
  have hu : (u.ctx x).st = .opened := by rw [w1]; exact hs
  have k := kin_afterWrite (s0 := s) hu x
  have ka := touches_State.afterWrite s u x
  rw [e] at k ka
  obtain ⟨_, _, _, _, _, _, _, _, _, k⟩ := k
  rw [ka.store (by decide), k, w1]
  refine ⟨hs, rfl, rfl, _, ?_, w3⟩
  unfold recSize at hsz
  simp only [List.length_append, header_length, hpre, List.length_nil, Nat.zero_add]
  omega

theorem leaveTail_none (s : State) (x : Nat) : (s.leaveTail x).ctx x = { s.ctx x with tail := none } := by
  unfold State.leaveTail
  split
  · next h => rw [← h]
  · next b off h => exact (ctx_updCtx_same _ _ _).trans (by rw [ctx_of_ctxs (State.setBillet_ctxs _ _ _)])

/-- A flush fills the tail billet and the writer leaves it. -/
theorem flushCtx_effect {s t : State} {x b off : Nat} (hs : (s.ctx x).st = .opened) (ht : (s.ctx x).tail = some (b, off)) (h64 : off % 64 = 0)
    (hlt : off < 16384) (e : s.flushCtx x = t) : (t.ctx x).tail = none ∧ (t.ctx x).seq = (s.ctx x).seq ∧ (t.ctx x).wpos = (s.ctx x).wpos + (16384 - off) ∧
      (∀ a, a < 16384 * b + off ∨ 16384 * (b + 1) ≤ a → t.store.byte 0 a = s.store.byte 0 a) := by
  unfold State.flushCtx at e
  rw [ht] at e
  dsimp only at e
  obtain ⟨p1, p2, p3, bs, hbs, p4⟩ := pad_effect hs ht h64 hlt rfl
  generalize s.pad x = u at *
  have c2 := leaveTail_none u x
  have k2 := touches_State.leaveTail u x
  generalize u.leaveTail x = v at *
  have k3 := kin_settle (s := v) (x := x) (by rw [c2]; exact p1) x
  have t3 := touches_State.settle v x
  generalize v.settle x = w at *
  have k4 := (kept_zcRun w x x).1
  have t4 := touches_State.zcRun w x
  rw [e] at k4 t4
  obtain ⟨_, _, _, _, _, _, _, _, _, k⟩ := kin_trans k3 k4
  rw [t4.store (by decide), t3.store (by decide), k2.store (by decide), p4, k, c2]
  refine ⟨rfl, p2, p3, fun a ha => Memory.byte_write_out _ _ _ _ _ ?_⟩
  rw [hbs]
  simp only [billetBytes]
  omega

/-! ### What settling leaves of a context -/

/-- All but the billets and extents that a context holds is as it was. -/
def sameCord (s t : State) : Prop := ∀ y, ∃ es hd, t.ctx y = { s.ctx y with exts := es, held := hd }

theorem sameCord_of {s t : State} (h : t.ctxs = s.ctxs) : sameCord s t := fun y => ⟨_, _, ctx_of_ctxs h y⟩

theorem sameCord.trans {s t u : State} (h : sameCord s t) (k : sameCord t u) : sameCord s u := fun y => by
  obtain ⟨_, _, h⟩ := h y
  obtain ⟨es, hd, k⟩ := k y
  exact ⟨es, hd, by rw [k, h]⟩

theorem sameCord_freeBillet (s : State) (b : Nat) : sameCord s (s.freeBillet b) := fun y => by
  unfold State.freeBillet
  dsimp only
  rw [ctx_of_ctxs (State.addMod_ctxs _ _ _ _)]
  by_cases hy : y = (s.billet b).owner
  · subst hy
    rw [ctx_updCtx_same, ctx_of_ctxs (State.setBillet_ctxs _ _ _)]
    exact ⟨_, _, rfl⟩
  · rw [ctx_updCtx_other _ _ hy, ctx_of_ctxs (State.setBillet_ctxs _ _ _)]
    exact ⟨_, _, rfl⟩

theorem sameCord_settleBillet (s : State) (b : Nat) : sameCord s (s.settleBillet b) := by
  unfold State.settleBillet
  dsimp only
  split
  · exact sameCord_of rfl
  split
  · exact sameCord_of rfl
  split
  · exact sameCord_of (State.setBillet_ctxs _ _ _)
  split
  · exact sameCord_freeBillet s b
  · exact sameCord_of rfl

theorem sameCord_settleBillets (bs : List Nat) (s : State) : sameCord s (bs.foldl State.settleBillet s) := by
  induction bs generalizing s with
  | nil => exact sameCord_of rfl
  | cons b bs ih => exact (sameCord_settleBillet s b).trans (ih _)

/-! ### DISCARD -/

theorem le_skipPast (c : Ctx) (d n p : Nat) : p ≤ c.skipPast d n p := by
  induction n generalizing p with
  | zero => exact Nat.le_refl p
  | succ n ih =>
    unfold Ctx.skipPast
    split
    · next r hr =>
      split
      · have h1 : p ≤ r.pos := by simpa using List.find?_some hr
        exact Nat.le_trans (by omega) (ih (r.pos + r.len))
      · exact Nat.le_refl p
    · exact Nat.le_refl p

theorem le_passDests (l : List Nat) (c : Ctx) (d : Nat) : (c.dest d).fin ≤ ((l.foldl Ctx.passDest c).dest d).fin := by
  induction l generalizing c with
  | nil => exact Nat.le_refl _
  | cons k l ih =>
    refine Nat.le_trans ?_ (ih (c.passDest k))
    unfold Ctx.passDest
    obtain e | ⟨rfl, e⟩ := dest_updDest c k d fun t => { t with
      fin := c.skipPast k c.recs.length (c.dest k).fin
      begun := max t.begun (c.skipPast k c.recs.length (c.dest k).fin)
      doneTo := max t.doneTo (c.skipPast k c.recs.length (c.dest k).fin) }
    · rw [e]
    · rw [e]
      exact le_skipPast _ _ _ _

/-- No destination holds anything of the cord. -/
def Machine.Ctx.drained (c : Ctx) : Prop := ∀ d ∈ c.destList, c.destEnd d ≤ (c.dest d).fin

theorem settled_drained {c : Ctx} (h : c.drained) : c.settled.drained ∧ c.settled.recs = [] := by
  obtain ⟨ds, e⟩ := passDests_eq c.destList c
  have hle := le_passDests c.destList c
  rw [settled_passDest]
  rw [e] at hle ⊢
  have hall : ∀ d ∈ c.destList, c.destEnd d ≤ (({ c with dests := ds } : Ctx).dest d).fin := fun d hd => Nat.le_trans (h d hd) (hle d)
  refine ⟨hall, List.filter_eq_nil_iff.mpr fun r _ hr => ?_⟩
  obtain ⟨d, hd, hlt⟩ := List.any_eq_true.mp hr
  have h1 := of_decide_eq_true hlt
  have h2 := hall d hd
  exact absurd (Nat.lt_of_lt_of_le h1 (Nat.min_le_right _ _)) (Nat.not_lt.mpr h2)

/-- A DRAINING context of which nothing is held closes. -/
theorem settle_closes {s t : State} {x : Nat} (hs : (s.ctx x).st = .draining) (hf : (s.ctx x).faults = []) (hd : (s.ctx x).drained)
    (e : s.settle x = t) : (t.ctx x).st = .closed ∧ (t.ctx x).recs = [] ∧ (t.ctx x).lost = (s.ctx x).lost := by
  rw [settle_eq] at e
  obtain ⟨h1, h2⟩ := settled_drained hd
  obtain ⟨rs, ds, h3⟩ := settled_eq (s.ctx x)
  have c1 := ctx_updCtx_same s x Ctx.settled
  generalize s.updCtx x Ctx.settled = u at *
  obtain ⟨es, hd, c2⟩ := sameCord_settleBillets ((u.ctx x).exts.map (·.billet)).eraseDups u x
  generalize ((u.ctx x).exts.map (·.billet)).eraseDups.foldl State.settleBillet u = v at *
  rw [c1] at c2
  have hclose : ((v.ctx x).st = .draining && (v.ctx x).faults.isEmpty &&
      (v.ctx x).destList.all fun d => (v.ctx x).destEnd d ≤ ((v.ctx x).dest d).fin) = true := by
    have hst : (v.ctx x).st = .draining := by rw [c2, h3]; exact hs
    have hfa : (v.ctx x).faults = [] := by rw [c2, h3]; exact hf
    have hdr : (v.ctx x).drained := by rw [c2]; exact h1
    rw [hst, hfa]
    exact List.all_eq_true.mpr fun d hd => decide_eq_true (hdr d hd)
  unfold State.closeIfDrained at e
  dsimp only at e
  rw [if_pos hclose] at e
  subst e
  rw [ctx_setCtx_same, c2, h3]
  exact ⟨rfl, rfl, rfl⟩

/-- What DISCARD makes of a context before it settles. -/
def Machine.Ctx.letGo (c : Ctx) : Ctx := { c with
  lost := satN 64 (c.lost + ((c.recs.filter fun r => c.destList.any fun d => (c.dest d).doneTo < r.pos + r.len && !r.skips d).foldl (fun k r => k + r.items) 0))
  faults := []
  dests := c.dests.map fun t => { t with fin := max t.fin c.wpos, begun := max t.begun c.wpos, doneTo := max t.doneTo c.wpos } }

theorem letGo_drained {c : Ctx} (hl : c.dests.length = 4 + c.olds.length) (ho : ∀ o ∈ c.olds, o.upto ≤ c.wpos) : c.letGo.drained := by
  intro d hd
  have hd' : d ∈ c.destList := hd
  have hlt : d < c.dests.length := by
    rw [hl]
    exact List.mem_range.mp (List.mem_filter.mp hd').1
  have h1 : c.letGo.dest d = { c.dest d with fin := max (c.dest d).fin c.wpos, begun := max (c.dest d).begun c.wpos, doneTo := max (c.dest d).doneTo c.wpos } := by
    unfold Ctx.dest Ctx.letGo
    rw [List.getD_eq_getElem _ _ (by rw [List.length_map]; exact hlt), List.getD_eq_getElem _ _ hlt, List.getElem_map]
  have h2 : c.destEnd d ≤ c.wpos := by
    unfold Ctx.destEnd
    cases h : c.old? d with
    | none => exact Nat.le_refl _
    | some o =>
      refine ho o ?_
      unfold Ctx.old? at h
      split at h
      · cases h
      · exact List.mem_of_getElem? h
  rw [h1]
  exact Nat.le_trans (show c.letGo.destEnd d ≤ c.wpos from h2) (Nat.le_max_right _ _)

theorem stoDiscard_drains {s : State} {x : Nat} (h : (s.ctx x).st ≠ .opened) : s.stoDiscard x = (0, (s.setCtx x (s.ctx x).letGo).settle x) := if_neg h

end Sys2Proof

end

section
/-! SUPPORT. STO_CMD and STO_CSNAP as the host sees them (R343, R350, R358, R380). -/

set_option Elab.async false

namespace Sys2Proof

open Sys2Proof.Machine

section

variable {s : State} (hr : s.ready = true)

include hr

theorem stoBusy (hm : s.flag rMEM_MAP fMEM_MAP_MAP_BUSY = true) (i : Instr) (hi : i ∈ [Instr.stoTake, .stoFree, .stoFlush, .stoDiscard, .stoQuery]) :
    exec i s = .next ((s.dropStaged .host rSTO_CMD).addSat rSTO_CNT1 fSTO_CNT1_CMD_DISC 1) := by
  have hd (v : Word) : State.wrStoCmd v (s.dropStaged .host rSTO_CMD) = (s.dropStaged .host rSTO_CMD).addSat rSTO_CNT1 fSTO_CNT1_CMD_DISC 1 := by
    have hf : (s.dropStaged .host rSTO_CMD).flag rMEM_MAP fMEM_MAP_MAP_BUSY = true := by
      rw [State.flag, State.fld_congr (State.dropStaged_regs _ _ _)]
      exact hm
    exact if_pos hf
  simp only [List.mem_cons, List.not_mem_nil, or_false] at hi
  obtain rfl | rfl | rfl | rfl | rfl := hi
  · exact next_write64 hr (hd 1)
  · exact next_write64 hr (hd 2)
  · exact next_write64 hr (hd 3)
  · exact next_write64 hr (hd 4)
  · exact next_write64 hr (hd 5)

end

section

variable {s u : State} {x b : Nat} (ku : onlyIn mStaged [] [] s u)

include ku

/-- A command that did something answers with RESULT 1. -/
theorem stoDone {v t : State} {m m' : Nat} {l srcs : List Nat} (kv : onlyIn m l srcs u v) (e : State.stoResult (0, v) = t)
    (h1 : mStaged &&& m' = mStaged := by decide) (h2 : m &&& m' = m := by decide) (h3 : mRegs &&& m' = mRegs := by decide) :
    t.fld rSTO_CMD_STATUS fSTO_CMD_STATUS_RESULT = 1 ∧ t.fld rSTO_CMD_STATUS fSTO_CMD_STATUS_REASON = 0 ∧
      (∀ a, a ≠ rSTO_CMD_STATUS → t.rd a = v.rd a) ∧ Touches mRegs v t ∧ onlyIn m' (rSTO_CMD_STATUS :: l) srcs s t := by
  obtain ⟨a1, a2, a3, a4⟩ := stoResult_effect v (k := 0) (by decide) e
  exact ⟨a1, a2, a3, a4.1, (ku.mono h1 (List.nil_subset _) (List.nil_subset _)).trans ((kv.mono h2 (List.subset_cons_self _ _) (List.Subset.refl _)).trans
    (a4.mono h3 (by simp) (List.nil_subset _)))⟩

theorem stoTaken {t : State} (hb : b < nBillets) (hu : (s.billet b).used = true) (ho : (s.billet b).owner = x)
    (he : ((s.ctx x).exts.any fun e => e.billet == b) = true) (hw : (s.billet b).writer = false) (hr : s.refOf b < 255) (hs : (s.billet b).swref < 15)
    (e : State.stoResult (u.swTake x b) = t) : t.billet b = { s.billet b with swref := (s.billet b).swref + 1 } ∧
        (∀ k, k ≠ b → t.billet k = s.billet k) ∧ t.fld rSTO_CMD_STATUS fSTO_CMD_STATUS_RESULT = 1 ∧
        t.fld rSTO_CMD_STATUS fSTO_CMD_STATUS_REASON = 0 ∧ onlyIn (mRegs ||| mStaged ||| mBillets) [rSTO_CMD_STATUS] [] s t := by
  have hbi := billet_of_billets (ku.1.billets (by decide))
  have h0 : (u.swTake x b).1 = 0 := by
    rw [swTake_reason_of (ku.1.billets (by decide)) (ku.1.ctxs (by decide)) (ku.1.ports (by decide)), swTake_reason]
    exact takeReason_none hb hu ho he hw hr hs
  rw [swTake_taken h0, hbi] at e
  have c1 := billet_setBillet_same u b { s.billet b with swref := (s.billet b).swref + 1 }
  have o1 := fun k hk => billet_setBillet_other u (b := b) (k := k) { s.billet b with swref := (s.billet b).swref + 1 } hk
  have k1 := touches_State.setBillet u b { s.billet b with swref := (s.billet b).swref + 1 }
  generalize u.setBillet b { s.billet b with swref := (s.billet b).swref + 1 } = v at *
  obtain ⟨a1, a2, -, a4, a5⟩ := stoDone ku (m' := mRegs ||| mStaged ||| mBillets) (.other (.refl mBillets [] [] _) k1 (by decide) (k1.regs (by decide))) e
  have hbt := billet_of_billets (a4.billets (by decide))
  exact ⟨(hbt b).trans c1, fun k hk => (hbt k).trans ((o1 k hk).trans (hbi k)), a1, a2, a5⟩

theorem stoFreeDeferred {t : State} (hb : b < nBillets) (hw : 2 ≤ (s.billet b).swref) (hu : (s.billet b).used = true) (hh : (s.billet b).hbias = false)
    (hs : (s.billet b).switch = none) (e : State.stoResult (u.swFree b) = t) :
        t.billet b = { s.billet b with swref := (s.billet b).swref - 1, defer := true } ∧ (∀ k, k ≠ b → t.billet k = s.billet k) ∧
        t.fld rSTO_CNT0 fSTO_CNT0_FREE_DEFERRED = satN 32 (s.fld rSTO_CNT0 fSTO_CNT0_FREE_DEFERRED + 1) ∧
        t.fld rSTO_CMD_STATUS fSTO_CMD_STATUS_RESULT = 1 ∧ t.fld rSTO_CMD_STATUS fSTO_CMD_STATUS_REASON = 0 ∧
        onlyIn (mRegs ||| mStaged ||| mBillets) [rSTO_CMD_STATUS, rSTO_CNT0] [] s t := by
  have hbi := billet_of_billets (ku.1.billets (by decide))
  rw [← hbi b] at hw hu hh hs
  rw [swFree_deferred hb hw hu hh hs, hbi] at e
  have k1 := touches_State.setBillet u b { s.billet b with swref := (s.billet b).swref - 1 }
  have c1 := fun i hi => billet_setBillet_other u (b := b) (k := i) { s.billet b with swref := (s.billet b).swref - 1 } hi
  generalize u.setBillet b { s.billet b with swref := (s.billet b).swref - 1 } = v at *
  have k2 := touches_State.setBillet v b { s.billet b with swref := (s.billet b).swref - 1, defer := true }
  have c2 := fun i hi => billet_setBillet_other v (b := b) (k := i) { s.billet b with swref := (s.billet b).swref - 1, defer := true } hi
  have d2 := billet_setBillet_same v b { s.billet b with swref := (s.billet b).swref - 1, defer := true }
  generalize v.setBillet b { s.billet b with swref := (s.billet b).swref - 1, defer := true } = w at *
  have k3 : onlyIn (mRegs ||| mBillets) [rSTO_CNT0] [] u (w.addSat rSTO_CNT0 fSTO_CNT0_FREE_DEFERRED 1) :=
    .of_hi (.addSat (.other (.other (.refl _ _ _ _) k1 (by decide) (k1.regs (by decide))) k2 (by decide) (k2.regs (by decide)))) (by decide)
  have f3 := State.fld_addSat_self w rSTO_CNT0 fSTO_CNT0_FREE_DEFERRED 1 (by decide)
  have b3 := State.addSat_billets w rSTO_CNT0 fSTO_CNT0_FREE_DEFERRED 1
  rw [State.fld_congr ((k2.regs (by decide)).trans ((k1.regs (by decide)).trans (ku.1.regs (by decide))))] at f3
  generalize w.addSat rSTO_CNT0 fSTO_CNT0_FREE_DEFERRED 1 = y at *
  obtain ⟨a1, a2, a3, a4, a5⟩ := stoDone ku (m' := mRegs ||| mStaged ||| mBillets) k3 e
  have hbt := billet_of_billets ((a4.billets (by decide)).trans b3)
  exact ⟨(hbt b).trans d2, fun k hk => (hbt k).trans ((c2 k hk).trans ((c1 k hk).trans (hbi k))), (fld_of_rd (a3 _ (by decide))).trans f3, a1, a2, a5⟩

theorem stoFreed {t : State} (hb : b < nBillets) (hw : (s.billet b).swref = 1) (hu : (s.billet b).used = true)
    (hh : (s.billet b).hbias = false) (hs : (s.billet b).switch = none) (hwr : (s.billet b).writer = false) (hc : s.closing b = false)
    (hho : s.holders b = []) (e : State.stoResult (u.swFree b) = t) : t.billet b = billet0 ∧ (∀ k, k ≠ b → t.billet k = s.billet k) ∧
        t.fld rSTO_CNT0 fSTO_CNT0_FREES = (s.fld rSTO_CNT0 fSTO_CNT0_FREES + 1) % 2 ^ 32 ∧
        (t.ctx (s.billet b).owner).held = (s.ctx (s.billet b).owner).held - 1 ∧
        t.fld rSTO_CMD_STATUS fSTO_CMD_STATUS_RESULT = 1 ∧
        onlyIn (mRegs ||| mStaged ||| mBillets ||| mCtxs) [rSTO_CMD_STATUS, rSTO_CNT0] [] s t := by
  have hbi := billet_of_billets (ku.1.billets (by decide))
  rw [← closing_of (ku.1.ports (by decide))] at hc
  rw [← holders_of (ku.1.ctxs (by decide)) (by rw [hbi]) (by rw [hbi])] at hho
  rw [← hbi b] at hw hu hh hs hwr
  rw [swFree_frees hb hw hu hh hs hwr hc hho, hbi] at e
  have k1 := touches_State.setBillet u b { s.billet b with swref := 0 }
  have c1 := fun i hi => billet_setBillet_other u (b := b) (k := i) { s.billet b with swref := 0 } hi
  have d1 := billet_setBillet_same u b { s.billet b with swref := 0 }
  generalize u.setBillet b { s.billet b with swref := 0 } = v at *
  obtain ⟨f1, f2, f3, f4, f5⟩ := freeBillet_effect v b rfl
  rw [d1] at f4
  generalize v.freeBillet b = w at *
  have kw : onlyIn (mRegs ||| mBillets ||| mCtxs) [rSTO_CNT0] [] u w := (onlyIn.other (.refl mBillets [] [] u) k1 (by decide) (k1.regs (by decide))).mono
    (by decide) (List.nil_subset _) (List.nil_subset _) |>.trans f5
  obtain ⟨a1, -, a3, a4, a5⟩ := stoDone ku (m' := mRegs ||| mStaged ||| mBillets ||| mCtxs) kw e
  have hbt := billet_of_billets (a4.billets (by decide))
  refine ⟨(hbt b).trans f1, fun k hk => (hbt k).trans ((f2 k hk).trans ((c1 k hk).trans (hbi k))), ?_, ?_, a1, a5⟩
  · rw [fld_of_rd (a3 _ (by decide)), f3, State.fld_congr ((k1.regs (by decide)).trans (ku.1.regs (by decide)))]
  · rw [ctx_of_ctxs (a4.ctxs (by decide)), f4, ctx_of_ctxs ((k1.ctxs (by decide)).trans (ku.1.ctxs (by decide)))]

theorem stoFreeBad {t : State} (hb : b < nBillets) (h : (s.billet b).swref = 0) (e : State.stoResult (u.swFree b) = t) :
    t.billets = s.billets ∧ t.fld rSTO_CMD_STATUS fSTO_CMD_STATUS_RESULT = 2 ∧ t.fld rSTO_CMD_STATUS fSTO_CMD_STATUS_REASON = 5 ∧
        t.fld rSTO_CNT1 fSTO_CNT1_FREE_BAD = satN 16 (s.fld rSTO_CNT1 fSTO_CNT1_FREE_BAD + 1) ∧
        onlyIn (mEvent ||| mStaged) [rSTO_CMD_STATUS, rSTO_CNT1] [642] s t := by
  have e1 : u.swFree b = (5, (u.addSat rSTO_CNT1 fSTO_CNT1_FREE_BAD 1).raise 642) := by
    unfold State.swFree
    dsimp only
    rw [if_neg (by omega), if_pos (by rw [billet_of_billets (ku.1.billets (by decide)), h])]
  rw [e1] at e
  have f1 := State.fld_addSat_self u rSTO_CNT1 fSTO_CNT1_FREE_BAD 1 (by decide)
  rw [State.fld_congr (ku.1.regs (by decide))] at f1
  have k1 : onlyIn mEvent [rSTO_CNT1] [642] u (u.addSat rSTO_CNT1 fSTO_CNT1_FREE_BAD 1) := .of_hi (.addSat (.refl _ _ _ _)) (by decide)
  generalize u.addSat rSTO_CNT1 fSTO_CNT1_FREE_BAD 1 = v at *
  have f2 := State.fld_raise_other v 642 none 0 0 rSTO_CNT1 fSTO_CNT1_FREE_BAD (by decide)
  have k2 : onlyIn mEvent [rSTO_CNT1] [642] u (v.raise 642) := .raise k1
  generalize v.raise 642 = w at *
  obtain ⟨a1, a2, a3, a4⟩ := stoResult_effect w (k := 5) (by decide) e
  exact ⟨(a4.1.billets (by decide)).trans ((k2.1.billets (by decide)).trans (ku.1.billets (by decide))), a1, a2,
    (fld_of_rd (a3 _ (by decide))).trans (f2.trans f1), (ku.mono (by decide) (List.nil_subset _) (List.nil_subset _)).trans
    ((k2.mono (by decide) (by simp) (List.Subset.refl _)).trans (a4.mono (by decide) (by simp) (List.nil_subset _)))⟩

theorem stoQueried {t : State} (hb : b < nBillets) (e : State.stoResult (u.stoQuery b) = t) :
    t.fld rSTO_CMD_STATUS fSTO_CMD_STATUS_RESULT = 1 ∧ t.fld rSTO_BQ fSTO_BQ_BILLET = b ∧
        t.fld rSTO_BQ fSTO_BQ_OWNER = (s.billet b).owner % 2 ^ 12 ∧ t.fld rSTO_BQ fSTO_BQ_REF = s.refOf b % 2 ^ 8 ∧
        t.fld rSTO_BQ fSTO_BQ_SWREF = (s.billet b).swref % 2 ^ 4 ∧ t.flag rSTO_BQ fSTO_BQ_WRITER = (s.billet b).writer ∧
        t.flag rSTO_BQ fSTO_BQ_HBIAS = (s.billet b).hbias ∧
        (t.fld rSTO_BQ fSTO_BQ_STATE = 0 ↔ (s.billet b).used = false) ∧ onlyIn (mRegs ||| mStaged) [rSTO_BQ, rSTO_CMD_STATUS] [] s t := by
  have hbi := billet_of_billets (ku.1.billets (by decide))
  have hrf := refOf_of (ku.1.billets (by decide)) (ku.1.ctxs (by decide)) (ku.1.ports (by decide)) b
  unfold State.stoQuery at e
  dsimp only at e
  rw [if_neg (by omega), hbi, hrf] at e
  have r1 := State.rd_wr_same u rSTO_BQ (fsets 0 [
      (fSTO_BQ_BILLET, b), (fSTO_BQ_STATE, if !(s.billet b).used then 0 else if (s.billet b).ring && (s.billet b).writer then 2 else 1),
      (fSTO_BQ_OWNER, (s.billet b).owner), (fSTO_BQ_DEFER, b2n (s.billet b).defer), (fSTO_BQ_WRITER, b2n (s.billet b).writer),
      (fSTO_BQ_HBIAS, b2n (s.billet b).hbias), (fSTO_BQ_ZC, b2n ((s.billet b).used && u.zcHold b)), (fSTO_BQ_SWREF, (s.billet b).swref),
      (fSTO_BQ_REF, s.refOf b)])
  have k1 : onlyIn mRegs [rSTO_BQ] [] u (u.wr rSTO_BQ (fsets 0 [
      (fSTO_BQ_BILLET, b), (fSTO_BQ_STATE, if !(s.billet b).used then 0 else if (s.billet b).ring && (s.billet b).writer then 2 else 1),
      (fSTO_BQ_OWNER, (s.billet b).owner), (fSTO_BQ_DEFER, b2n (s.billet b).defer), (fSTO_BQ_WRITER, b2n (s.billet b).writer),
      (fSTO_BQ_HBIAS, b2n (s.billet b).hbias), (fSTO_BQ_ZC, b2n ((s.billet b).used && u.zcHold b)), (fSTO_BQ_SWREF, (s.billet b).swref),
      (fSTO_BQ_REF, s.refOf b)])) := .of_hi (.wr (.refl _ _ _ _)) (by decide)
  generalize u.wr rSTO_BQ _ = v at *
  obtain ⟨a1, -, a3, -, a5⟩ := stoDone ku (m' := mRegs ||| mStaged) k1 e
  have r := (a3 rSTO_BQ (by decide)).trans r1
  generalize s.refOf b = rf at *
  generalize s.billet b = x at *
  refine ⟨a1, ?_, ?_, ?_, ?_, ?_, ?_, ?_, a5.mono (by decide) (by simp) (List.nil_subset _)⟩
  · rw [State.fld, r]
    simp (disch := decide)
    simp only [nBillets] at hb
    omega
  · rw [State.fld, r]
    simp (disch := decide)
  · rw [State.fld, r]
    simp (disch := decide)
  · rw [State.fld, r]
    simp (disch := decide)
  · rw [State.flag, State.fld, r]
    simp (disch := decide)
    cases x.writer <;> rfl
  · rw [State.flag, State.fld, r]
    simp (disch := decide)
    cases x.hbias <;> rfl
  · rw [State.fld, r]
    simp (disch := decide)
    cases x.used with
    | false => exact iff_of_true rfl rfl
    | true =>
      rw [if_neg (by decide)]
      split <;> decide

end

end Sys2Proof

end

section
/-! SUPPORT. FLUSH, DISCARD and STO_CSNAP as the host sees them (R350, R358). -/

set_option Elab.async false

namespace Sys2Proof

open Sys2Proof.Machine

section

variable {s u : State} {x b : Nat} (ku : onlyIn mStaged [] [] s u)

include ku

theorem stoFlushed {t : State} {off : Nat} (hs : (s.ctx x).st = .opened) (ht : (s.ctx x).tail = some (b, off)) (h64 : off % 64 = 0) (hlt : off < 16384)
    (e : State.stoResult (u.stoFlush x) = t) : t.fld rSTO_CMD_STATUS fSTO_CMD_STATUS_RESULT = 1 ∧ (t.ctx x).tail = none ∧
        (t.ctx x).wpos = (s.ctx x).wpos + (16384 - off) ∧ (t.ctx x).seq = (s.ctx x).seq ∧
        (∀ a, a < 16384 * b + off ∨ 16384 * (b + 1) ≤ a → t.store.byte 0 a = s.store.byte 0 a) := by
  have hc := ctx_of_ctxs (ku.1.ctxs (by decide)) x
  rw [← hc] at hs ht
  have e1 : u.stoFlush x = (0, u.flushCtx x) := if_pos hs
  rw [e1] at e
  obtain ⟨f1, f2, f3, f4⟩ := flushCtx_effect hs ht h64 hlt rfl
  generalize u.flushCtx x = v at *
  obtain ⟨a1, -, -, a4⟩ := stoResult_effect v (k := 0) (by decide) e
  rw [ctx_of_ctxs (a4.1.ctxs (by decide)), a4.1.store (by decide), ← hc, ← ku.1.store (by decide)]
  exact ⟨a1, f1, f3, f2, f4⟩

theorem stoDiscarded {t : State} (hs : (s.ctx x).st = .draining) (hl : (s.ctx x).dests.length = 4 + (s.ctx x).olds.length)
    (ho : ∀ o ∈ (s.ctx x).olds, o.upto ≤ (s.ctx x).wpos) (e : State.stoResult (u.stoDiscard x) = t) :
    t.fld rSTO_CMD_STATUS fSTO_CMD_STATUS_RESULT = 1 ∧ (t.ctx x).st = .closed ∧ (t.ctx x).recs = [] ∧
        (t.ctx x).lost = satN 64 ((s.ctx x).lost + (((s.ctx x).recs.filter fun r => (s.ctx x).destList.any fun d =>
          ((s.ctx x).dest d).doneTo < r.pos + r.len && !r.skips d).foldl (fun k r => k + r.items) 0)) ∧ t.store = s.store := by
  have hc := ctx_of_ctxs (ku.1.ctxs (by decide)) x
  rw [stoDiscard_drains (by rw [hc, hs]; decide), hc] at e
  have c1 := ctx_setCtx_same u x (s.ctx x).letGo
  have k1 := touches_State.setCtx u x (s.ctx x).letGo
  generalize u.setCtx x (s.ctx x).letGo = v at *
  obtain ⟨s1, s2, s3⟩ := settle_closes (s := v) (x := x) (by rw [c1]; exact hs) (by rw [c1]; rfl) (by rw [c1]; exact letGo_drained hl ho) rfl
  have k2 := touches_State.settle v x
  generalize v.settle x = w at *
  obtain ⟨a1, -, -, a4⟩ := stoResult_effect w (k := 0) (by decide) e
  rw [ctx_of_ctxs (a4.1.ctxs (by decide)), a4.1.store (by decide), k2.store (by decide), k1.store (by decide), ku.1.store (by decide), s3, c1]
  exact ⟨a1, s1, s2, rfl, rfl⟩

end

/-! ### The snapshot of a context -/

theorem csnap_effect {s : State} {x : Nat} {v : Word} (hr : s.ready = true) (hx : fget v fSTO_CSNAP_CONTEXT = x) :
    completes (.stoCsnap v) s fun t => t.fld rSTO_CSNAP fSTO_CSNAP_SEQ = (s.fld rSTO_CSNAP fSTO_CSNAP_SEQ + 1) % 2 ^ 32 ∧
      t.fld rSTO_CSNAP fSTO_CSNAP_CONTEXT = x ∧ t.rd rSTO_CSNAP0 = BitVec.ofNat 64 (s.ctx x).seq ∧
      t.rd rSTO_CSNAP2 = BitVec.ofNat 64 (s.ctx x).lost ∧ t.fld rSTO_CSNAP3 fSTO_CSNAP3_OVERFLOW = (s.ctx x).overflow % 2 ^ 32 ∧
      t.fld rSTO_CSNAP3 fSTO_CSNAP3_SHED = (s.ctx x).shed % 2 ^ 32 ∧
      onlyIn (mRegs ||| mStaged) [rSTO_CSNAP, rSTO_CSNAP0, rSTO_CSNAP1, rSTO_CSNAP2, rSTO_CSNAP3] [] s t := by
  have hlt : x < 4096 := hx ▸ fget_lt v fSTO_CSNAP_CONTEXT
  have hk : onlyIn mStaged [] [] s (s.dropStaged .host rSTO_CSNAP) := .dropStaged (.refl _ _ _ _)
  have hreg := State.dropStaged_regs s .host rSTO_CSNAP
  have e : exec (.stoCsnap v) s = .next (State.wrStoCsnap (fset v fSTO_CSNAP_SNAP 1) (s.dropStaged .host rSTO_CSNAP)) := next_write64 hr rfl
  generalize s.dropStaged .host rSTO_CSNAP = u at *
  refine ⟨_, e, ?_⟩
  unfold State.wrStoCsnap
  dsimp only
  have h1 : fget (fset v fSTO_CSNAP_SNAP 1) fSTO_CSNAP_SNAP = 1 := fget_fset_self _ _ _ (by decide)
  have h2 : fget (fset v fSTO_CSNAP_SNAP 1) fSTO_CSNAP_CONTEXT = x := by rw [fget_fset_apart _ _ _ _ (by decide), hx]
  rw [h1, h2, if_neg Nat.one_ne_zero, ctx_of_ctxs (hk.1.ctxs (by decide))]
  generalize s.ctx x = c
  have k (l : List (Fld × Nat)) (l' : List (Fld × Nat)) : onlyIn (mRegs ||| mStaged) [rSTO_CSNAP, rSTO_CSNAP0, rSTO_CSNAP1, rSTO_CSNAP2, rSTO_CSNAP3] [] s
      ((((((u.setFld rSTO_CSNAP fSTO_CSNAP_CONTEXT x).addMod rSTO_CSNAP fSTO_CSNAP_SEQ 1).wr rSTO_CSNAP0 (BitVec.ofNat 64 c.seq)).wr rSTO_CSNAP1
        (fsets 0 l)).wr rSTO_CSNAP2 (BitVec.ofNat 64 c.lost)).wr rSTO_CSNAP3 (fsets 0 l')) :=
    .of_hi (.wr (.wr (.wr (.wr (.addMod (.setFld (hk.mono (by decide) (List.nil_subset _) (List.nil_subset _)))))))) (by decide)
  refine ⟨?_, ?_, ?_, ?_, ?_, ?_, k _ _⟩
  · rw [← State.fld_congr hreg]
    simp (disch := decide)
  · simp (disch := decide)
    exact hlt
  · rw [State.rd_wr_other _ _ (by decide), State.rd_wr_other _ _ (by decide), State.rd_wr_other _ _ (by decide), State.rd_wr_same]
  · rw [State.rd_wr_other _ _ (by decide), State.rd_wr_same]
  · simp (disch := decide)
  · simp (disch := decide)

end Sys2Proof

end

section
/-! SUPPORT. Publishing, and the switch of a billet's bias (R351, R354, R422). -/

set_option Elab.async false

namespace Sys2Proof

open Sys2Proof.Machine

/-! ### What publishing moves -/

/-- Publishing moves what a context has published and what its destinations have begun and delivered, and starts a switch of billets that
are not in host bias. -/
def zcMoved (s t : State) : Prop :=
  (∀ y, (∃ ds zp ze zq zs, t.ctx y = { s.ctx y with dests := ds, zcPub := zp, zcEnds := ze, zcPos := zq, zcFullSaid := zs }) ∧
    ∀ d, ((t.ctx y).dest d).fin = ((s.ctx y).dest d).fin) ∧
  ∀ b, (∃ sw, t.billet b = { s.billet b with switch := sw }) ∧ ((s.billet b).hbias = true → t.billet b = s.billet b)

theorem zcMoved_of {s t : State} (hx : t.ctxs = s.ctxs) (hb : t.billets = s.billets) : zcMoved s t :=
  ⟨fun y => ⟨⟨_, _, _, _, _, ctx_of_ctxs hx y⟩, fun d => by rw [ctx_of_ctxs hx]⟩, fun b => ⟨⟨_, billet_of_billets hb b⟩, fun _ => billet_of_billets hb b⟩⟩

theorem zcMoved.trans {s t u : State} (h : zcMoved s t) (k : zcMoved t u) : zcMoved s u := by
  obtain ⟨h1, h2⟩ := h
  obtain ⟨k1, k2⟩ := k
  refine ⟨fun y => ?_, fun b => ?_⟩
  · obtain ⟨⟨_, _, _, _, _, e1⟩, f1⟩ := h1 y
    obtain ⟨⟨ds, zp, ze, zq, zs, e2⟩, f2⟩ := k1 y
    exact ⟨⟨ds, zp, ze, zq, zs, by rw [e2, e1]⟩, fun d => (f2 d).trans (f1 d)⟩
  · obtain ⟨⟨_, e1⟩, f1⟩ := h2 b
    obtain ⟨⟨sw, e2⟩, f2⟩ := k2 b
    exact ⟨⟨sw, by rw [e2, e1]⟩, fun hb => (f2 (by rw [e1]; exact hb)).trans (f1 hb)⟩

theorem zcMoved_setCtx {s : State} {x : Nat} {c : Ctx}
    (hc : ∃ ds zp ze zq zs, c = { s.ctx x with dests := ds, zcPub := zp, zcEnds := ze, zcPos := zq, zcFullSaid := zs })
    (hf : ∀ d, (c.dest d).fin = ((s.ctx x).dest d).fin) : zcMoved s (s.setCtx x c) := by
  refine ⟨fun y => ?_, fun b => ⟨⟨_, billet_of_billets (State.setCtx_billets _ _ _) b⟩, fun _ => billet_of_billets (State.setCtx_billets _ _ _) b⟩⟩
  by_cases hy : y = x
  · subst hy
    rw [ctx_setCtx_same]
    exact ⟨hc, hf⟩
  · rw [ctx_setCtx_other _ _ hy]
    exact ⟨⟨_, _, _, _, _, rfl⟩, fun _ => rfl⟩

theorem zcMoved_publish (s : State) (x d : Nat) (e : Ext) : zcMoved s (s.publish x d e) := by
  unfold State.publish
  dsimp only
  have k1 := touches_State.hostWrite s ((s.ctx x).zcRing + 16 * ((s.ctx x).zcPub % 2 ^ (s.ctx x).zcLog2))
  generalize hw : s.hostWrite _ _ = u
  have hx : u.ctxs = s.ctxs := by rw [← hw]; exact (k1 _).ctxs (by decide)
  have hb : u.billets = s.billets := by rw [← hw]; exact (k1 _).billets (by decide)
  refine (zcMoved_of hx hb).trans (zcMoved_setCtx ?_ fun k => ?_)
  · rw [ctx_of_ctxs hx]
    exact ⟨_, _, _, _, _, rfl⟩
  · rw [ctx_of_ctxs hx]
    rcases dest_updDest { s.ctx x with zcPub := (s.ctx x).zcPub + 1, zcEnds := (s.ctx x).zcEnds ++ [(e.billet, e.pos + e.bytes)], zcPos := e.pos + e.bytes } d k
      fun t => { t with begun := e.pos + e.bytes, doneTo := e.pos + e.bytes, gap := t.gap.filter (e.pos ≤ ·) } with h | ⟨rfl, h⟩
    · rw [h]
      rfl
    · rw [h]
      rfl

/-- A full ring says so once. -/
theorem zcMoved_full {s u : State} (k : Touches mEvent s u) (x : Nat) : zcMoved s (u.updCtx x fun c => { c with zcFullSaid := true }) :=
  (zcMoved_of (k.ctxs (by decide)) (k.billets (by decide))).trans (zcMoved_setCtx ⟨_, _, _, _, _, rfl⟩ fun _ => rfl)

theorem zcMoved_zcAdvance (n : Nat) (s : State) (x : Nat) : zcMoved s (State.zcAdvance n s x) := by
  induction n generalizing s with
  | zero => exact zcMoved_of rfl rfl
  | succ n ih =>
    unfold State.zcAdvance
    dsimp only
    split
    · exact zcMoved_of rfl rfl
    split
    · split
      · exact zcMoved_of rfl rfl
      · exact zcMoved_full (touches_State.raise s 644 (some x) 0 0) x
    split
    · exact zcMoved_of rfl rfl
    next e _ =>
    split
    · exact zcMoved_of rfl rfl
    split
    · exact (zcMoved_publish s x _ e).trans (ih _)
    next hb =>
    refine ⟨fun y => ⟨⟨_, _, _, _, _, ctx_of_ctxs (State.setBillet_ctxs _ _ _) y⟩, fun d => by rw [ctx_of_ctxs (State.setBillet_ctxs _ _ _)]⟩, fun b => ?_⟩
    by_cases hbe : b = e.billet
    · subst hbe
      rw [billet_setBillet_same]
      exact ⟨⟨_, rfl⟩, fun h => absurd h hb⟩
    · rw [billet_setBillet_other _ _ hbe]
      exact ⟨⟨_, rfl⟩, fun _ => rfl⟩

theorem zcMoved_zcRun (s : State) (x : Nat) : zcMoved s (s.zcRun x) := zcMoved_zcAdvance _ _ _

theorem holders_zcMoved {s t : State} (h : zcMoved s t) (b : Nat) : t.holders b = s.holders b := by
  obtain ⟨h1, h2⟩ := h
  obtain ⟨⟨sw, e⟩, -⟩ := h2 b
  unfold State.holders
  dsimp only
  rw [e]
  dsimp only
  obtain ⟨⟨ds, zp, ze, zq, zs, e1⟩, f1⟩ := h1 (s.billet b).owner
  have hl : (t.ctx (s.billet b).owner).destList = (s.ctx (s.billet b).owner).destList := by rw [e1]; rfl
  rw [hl]
  refine List.filter_congr fun d _ => ?_
  have he : (t.ctx (s.billet b).owner).destEnd d = (s.ctx (s.billet b).owner).destEnd d := by rw [e1]; rfl
  have hx : (t.ctx (s.billet b).owner).exts = (s.ctx (s.billet b).owner).exts := by rw [e1]
  unfold Ctx.destHolds
  rw [he, hx, f1 d]

theorem zcHold_none {s : State} {b : Nat} (h : s.holders b = []) : s.zcHold b = false := by
  unfold State.zcHold
  rw [h]
  rfl

/-! ### The switch completes (R351, R422) -/

section

variable {s : State} {b : Nat}

theorem biasDone_none (h : (s.billet b).switch = none) : s.biasDone b = s := by
  unfold State.biasDone
  dsimp only
  rw [h]

/-- A billet in host bias whose switch is over: what settling makes of it. -/
theorem settleBillet_hbias (hs : (s.billet b).switch = none) (hh : (s.billet b).hbias = true) : s.settleBillet b = s ∨
    s.settleBillet b = s.setBillet b { s.billet b with switch := some false } ∧ (s.billet b).swref = 0 := by
  unfold State.settleBillet
  dsimp only
  split
  · exact .inl rfl
  rw [if_neg (by simp [hs])]
  split
  · next h => exact .inr ⟨rfl, beq_iff_eq.mp (Bool.and_eq_true_iff.mp h).2⟩
  · rw [if_neg (by simp [hh])]
    exact .inl rfl

theorem settleBillet_returns (hu : (s.billet b).used = true) (hs : (s.billet b).switch = none) (hh : (s.billet b).hbias = true)
    (hz : s.holders b = []) (hw : (s.billet b).swref = 0) : s.settleBillet b = s.setBillet b { s.billet b with switch := some false } := by
  unfold State.settleBillet
  dsimp only
  rw [if_neg (by simp [hu]), if_neg (by simp [hs]), if_pos (by rw [hh, zcHold_none hz, hw]; rfl)]

theorem biasToHost (h : (s.billet b).switch = some true) {t : State} (e : s.biasDone b = t) : (t.billet b).hbias = true ∧
    ((s.billet b).swref ≠ 0 → (t.billet b).switch = none) ∧
    ((s.billet b).used = true → (s.billet b).swref = 0 → s.holders b = [] → (t.billet b).switch = some false) ∧
    t.fld rGLB_HIF_BIAS fGLB_HIF_BIAS_TO_HOST = (s.fld rGLB_HIF_BIAS fGLB_HIF_BIAS_TO_HOST + 1) % 2 ^ 32 ∧
    onlyIn (mEvent ||| mCtxs ||| mBillets) [rGLB_HIF_BIAS] [644] s t := by
  unfold State.biasDone at e
  dsimp only at e
  rw [h] at e
  dsimp only at e
  have k1 := touches_State.setBillet s b { s.billet b with switch := none, hbias := true }
  have c1 := billet_setBillet_same s b { s.billet b with switch := none, hbias := true }
  generalize s.setBillet b { s.billet b with switch := none, hbias := true } = u at *
  have f2 := State.fld_addMod_self u rGLB_HIF_BIAS fGLB_HIF_BIAS_TO_HOST 1 (by decide)
  have k2 : onlyIn (mEvent ||| mCtxs ||| mBillets) [rGLB_HIF_BIAS] [644] s (u.addMod rGLB_HIF_BIAS fGLB_HIF_BIAS_TO_HOST 1) :=
    .of_hi (.addMod (.other (.refl _ _ _ _) k1 (by decide) (k1.regs (by decide)))) (by decide)
  have b2 := State.addMod_billets u rGLB_HIF_BIAS fGLB_HIF_BIAS_TO_HOST 1
  have x2 := State.addMod_ctxs u rGLB_HIF_BIAS fGLB_HIF_BIAS_TO_HOST 1
  generalize u.addMod rGLB_HIF_BIAS fGLB_HIF_BIAS_TO_HOST 1 = v at *
  have c2 : v.billet b = { s.billet b with switch := none, hbias := true } := (billet_of_billets b2 b).trans c1
  have m3 := zcMoved_zcRun v (s.billet b).owner
  have k3 := onlyIn_zcRun v (s.billet b).owner
  generalize v.zcRun (s.billet b).owner = w at *
  have c3 : w.billet b = { s.billet b with switch := none, hbias := true } := ((m3.2 b).2 (by rw [c2])).trans c2
  have k4 := onlyIn_settleBillet w b
  have hh : w.holders b = s.holders b := by
    rw [holders_zcMoved m3, holders_of (x2.trans (k1.ctxs (by decide))) (by rw [c2]) (by rw [c2])]
  have hs1 : (w.billet b).switch = none := by rw [c3]
  have hs2 : (w.billet b).hbias = true := by rw [c3]
  have hset := settleBillet_hbias hs1 hs2
  have hret (hu : (s.billet b).used = true) (hw : (s.billet b).swref = 0) (hz : s.holders b = []) :=
    settleBillet_returns (s := w) (b := b) (by rw [c3]; exact hu) hs1 hs2 (hh.trans hz) (by rw [c3]; exact hw)
  have hreg : (w.settleBillet b).regs = w.regs := by
    rcases hset with h | ⟨h, -⟩
    · rw [h]
    · rw [h]
      rfl
  have hout : Touches mBillets w (w.settleBillet b) := by
    rcases hset with h | ⟨h, -⟩
    · rw [h]
      exact .refl _ _
    · rw [h]
      exact touches_State.setBillet _ _ _
  have hbil : (w.settleBillet b).billet b = w.billet b ∨ (w.settleBillet b).billet b = { w.billet b with switch := some false } ∧ (s.billet b).swref = 0 := by
    rcases hset with h | ⟨h, h0⟩
    · exact .inl (by rw [h])
    · refine .inr ⟨by rw [h, billet_setBillet_same], ?_⟩
      rw [c3] at h0
      exact h0
  have hre2 (hu : (s.billet b).used = true) (hw : (s.billet b).swref = 0) (hz : s.holders b = []) : ((w.settleBillet b).billet b).switch = some false := by
    rw [hret hu hw hz, billet_setBillet_same]
  generalize w.settleBillet b = y at *
  have k5 := touches_State.closeIfDrained y (s.billet b).owner
  rw [e] at k5
  rw [billet_of_billets (k5.billets (by decide))]
  refine ⟨?_, fun h0 => ?_, hre2, ?_, .other (.other (k2.trans (k3.mono (by decide) (List.nil_subset _) (List.Subset.refl _))) hout (by decide) hreg) k5
    (by decide) (k5.regs (by decide))⟩
  · rcases hbil with h | ⟨h, -⟩
    · rw [h, c3]
    · rw [h, c3]
  · rcases hbil with h | ⟨-, h⟩
    · rw [h, c3]
    · exact absurd h h0
  · rw [State.fld_congr ((k5.regs (by decide)).trans hreg), fld_of_rd (k3.rd_apart (by simp) (.inl (by decide)) (by decide)), f2,
      State.fld_congr (k1.regs (by decide))]

theorem biasToDevice (h : (s.billet b).switch = some false) (hu : (s.billet b).used = true) (hw : (s.billet b).swref = 0)
    (hwr : (s.billet b).writer = false) (hc : s.closing b = false) (hh : s.holders b = []) {t : State} (e : s.biasDone b = t) :
    t.billet b = billet0 ∧ (∀ k : Nat, k ≠ b → t.billet k = s.billet k) ∧
      t.fld rGLB_HIF_BIAS fGLB_HIF_BIAS_TO_DEVICE = (s.fld rGLB_HIF_BIAS fGLB_HIF_BIAS_TO_DEVICE + 1) % 2 ^ 32 ∧
      onlyIn (mRegs ||| mCtxs ||| mBillets) [rGLB_HIF_BIAS, rSTO_CNT0] [] s t := by
  unfold State.biasDone at e
  dsimp only at e
  rw [h] at e
  dsimp only at e
  have k1 := touches_State.setBillet s b { s.billet b with switch := none, hbias := false }
  have c1 := billet_setBillet_same s b { s.billet b with switch := none, hbias := false }
  have o1 := fun k hk => billet_setBillet_other s (b := b) (k := k) { s.billet b with switch := none, hbias := false } hk
  generalize s.setBillet b { s.billet b with switch := none, hbias := false } = u at *
  have f2 := State.fld_addMod_self u rGLB_HIF_BIAS fGLB_HIF_BIAS_TO_DEVICE 1 (by decide)
  have k2 : onlyIn (mRegs ||| mCtxs ||| mBillets) [rGLB_HIF_BIAS, rSTO_CNT0] [] s (u.addMod rGLB_HIF_BIAS fGLB_HIF_BIAS_TO_DEVICE 1) :=
    .of_hi (.addMod (.other (.refl _ _ _ _) k1 (by decide) (k1.regs (by decide)))) (by decide)
  have b2 := State.addMod_billets u rGLB_HIF_BIAS fGLB_HIF_BIAS_TO_DEVICE 1
  have x2 := State.addMod_ctxs u rGLB_HIF_BIAS fGLB_HIF_BIAS_TO_DEVICE 1
  have p2 := State.addMod_ports u rGLB_HIF_BIAS fGLB_HIF_BIAS_TO_DEVICE 1
  generalize u.addMod rGLB_HIF_BIAS fGLB_HIF_BIAS_TO_DEVICE 1 = v at *
  have c2 : v.billet b = { s.billet b with switch := none, hbias := false } := (billet_of_billets b2 b).trans c1
  have hr : v.refOf b = 0 := refOf_zero (by rw [c2]; exact hwr) (by rw [closing_of (p2.trans (k1.ports (by decide)))]; exact hc)
    (by rw [holders_of (x2.trans (k1.ctxs (by decide))) (by rw [c2]) (by rw [c2])]; exact hh) (by rw [c2]; exact hw)
  rw [settleBillet_frees (by rw [c2]; exact hu) (by rw [c2]) (by rw [c2]) hr] at e
  obtain ⟨g1, g2, -, -, g5⟩ := freeBillet_effect v b rfl
  generalize v.freeBillet b = w at *
  have k5 := touches_State.closeIfDrained w (s.billet b).owner
  rw [e] at k5
  have hbi := billet_of_billets (k5.billets (by decide))
  refine ⟨(hbi b).trans g1, fun k hk => (hbi k).trans ((g2 k hk).trans ((billet_of_billets b2 k).trans (o1 k hk))), ?_,
    .other (k2.trans (g5.mono (by decide) (by simp) (List.Subset.refl _))) k5 (by decide) (k5.regs (by decide))⟩
  rw [State.fld_congr (k5.regs (by decide)), fld_of_rd (g5.rd_apart (by decide) (.inl (by decide)) (by simp)), f2, State.fld_congr (k1.regs (by decide))]

end

end Sys2Proof

end

section
/-! SUPPORT. Doorbells of a context's page and the zero-copy timer (R351 to R353, R426). -/

set_option Elab.async false

namespace Sys2Proof

open Sys2Proof.Machine

/-! ### The zero-copy timer -/

theorem zcFlush_idle {s : State} {x : Nat} (h : (s.ctx x).tail = none ∨ (s.ctx x).st ≠ .opened) : s.zcFlush x = s := by
  unfold State.zcFlush
  dsimp only
  split
  · next b hb _ => exact if_neg fun ho => h.elim (fun h => by rw [h] at hb; cases hb) fun h => h ho
  · rfl

theorem zcFlush_runs {s : State} {x d : Nat} {bo : Nat × Nat} (ht : (s.ctx x).tail = some bo) (hs : (s.ctx x).st = .opened)
    (hd : d ∈ (s.ctx x).destList) (hz : (s.ctx x).destType d = 2) :
    s.zcFlush x = (s.reach ((s.ctx x).zcFirst + s.usTicks (s.ctx x).zcFlushUs)).flushCtx x := by
  have hf : ((s.ctx x).destList.find? fun d => (s.ctx x).destType d == 2).isSome := List.find?_isSome.mpr ⟨d, hd, by rw [hz]; rfl⟩
  obtain ⟨d', hf⟩ := Option.isSome_iff_exists.mp hf
  unfold State.zcFlush
  dsimp only
  rw [ht, hf, hs]
  rfl

/-! ### ZC_RELEASE and CTX_FLUSH -/

section

variable {s : State} {x : Fin 4096} (ha : s.awake = true)

include ha

theorem zcReleaseWrite (v : Word) : exec (.zcRelease x v) s = .next (s.dbRelease x (v.toNat % 65536)) := by
  have h1 : 4096 * x.val % 8 = 0 := by omega
  have h2 : 4096 * x.val % 4096 = 0 := by omega
  have h3 : 4096 * x.val / 4096 = x := by omega
  refine congrArg Host.Outcome.next ?_
  unfold State.bar4Write64 State.bar4Write
  dsimp only
  rw [ha, if_neg (by decide), if_pos h1, h2, h3] <;> rfl

theorem ctxFlushWrite (v : Word) : exec (.ctxFlush x v) s = .next (s.dbFlush x true) := by
  have h1 : (4096 * x.val + 0x18) % 8 = 0 := by omega
  have h2 : (4096 * x.val + 0x18) % 4096 = 0x18 := by omega
  have h3 : (4096 * x.val + 0x18) / 4096 = x := by omega
  have h4 : (v ||| 1).getLsbD 0 = true := by simp
  refine congrArg Host.Outcome.next ?_
  unfold State.bar4Write64 State.bar4Write
  dsimp only
  rw [ha, if_neg (by decide), if_pos h1, h2, h3, h4] <;> rfl

theorem doorbellClosed (v : Word) (h : (s.ctx x).st = .closed) :
    exec (.zcRelease x v) s = .next s.dbDiscard ∧ exec (.ctxFlush x v) s = .next s.dbDiscard :=
  ⟨(zcReleaseWrite ha v).trans (congrArg Host.Outcome.next (if_pos h)), (ctxFlushWrite ha v).trans (congrArg Host.Outcome.next (if_pos h))⟩

theorem zcRelease_runs (v : Word) (h : (s.ctx x).st = .opened) : exec (.zcRelease x v) s = .next (s.zcRelease x (v.toNat % 65536)) :=
  (zcReleaseWrite ha v).trans (congrArg Host.Outcome.next (if_neg (by rw [h]; decide)))

theorem ctxFlush_idle (v : Word) (h : (s.ctx x).st = .opened ∧ (s.ctx x).tail = none ∨ (s.ctx x).st = .draining) : exec (.ctxFlush x v) s = .next s := by
  refine (ctxFlushWrite ha v).trans (congrArg Host.Outcome.next ?_)
  unfold State.dbFlush
  obtain ⟨ho, ht⟩ | hd := h
  · rw [ho, if_neg (by decide), if_pos (by decide)]
    unfold State.flushCtx
    rw [ht]
  · rw [hd, if_neg (by decide), if_neg (by decide)]

theorem ctxFlush_flushes (v : Word) {k off : Nat} (ho : (s.ctx x).st = .opened) (ht : (s.ctx x).tail = some (k, off)) (h64 : off % 64 = 0)
    (hlt : off < 16384) : completes (.ctxFlush x v) s fun t => (t.ctx x).tail = none ∧ (t.ctx x).wpos = (s.ctx x).wpos + (16384 - off) ∧
        Touches (mEvent ||| mFreeCtr ||| mStore ||| mCtxs ||| mBillets ||| mBadLines) s t := by
  have e : s.dbFlush x true = s.flushCtx x := by
    unfold State.dbFlush
    rw [ho, if_neg (by decide), if_pos (by decide)]
  obtain ⟨a1, -, a3, -⟩ := flushCtx_effect ho ht h64 hlt rfl
  exact ⟨_, (ctxFlushWrite ha v).trans (congrArg Host.Outcome.next e), a1, a3, touches_State.flushCtx s x⟩

end

/-! ### Entries given back (R352, R353) -/

theorem zcRelease_zero (s : State) (x : Nat) : s.zcRelease x 0 = s := by
  unfold State.zcRelease
  exact if_pos rfl

theorem zcRelease_bad {s : State} {x n : Nat} (h : (s.ctx x).zcPub - (s.ctx x).zcRel < n) :
    s.zcRelease x n = (s.addSat rSTO_CNT1 fSTO_CNT1_ZC_BAD_RELEASE 1).raise 645 (some x) := by
  unfold State.zcRelease
  dsimp only
  rw [if_neg (by omega), if_pos (by simp [h])]

/-- Settling an OPEN context leaves its zero-copy counts. -/
theorem settle_zcRel {s : State} {x : Nat} (hs : (s.ctx x).st = .opened) : ((s.settle x).ctx x).zcRel = (s.ctx x).zcRel := by
  rw [settle_eq]
  obtain ⟨rs, ds, h3⟩ := settled_eq (s.ctx x)
  have c1 := ctx_updCtx_same s x Ctx.settled
  generalize s.updCtx x Ctx.settled = u at *
  obtain ⟨es, hd, c2⟩ := sameCord_settleBillets ((u.ctx x).exts.map (·.billet)).eraseDups u x
  generalize ((u.ctx x).exts.map (·.billet)).eraseDups.foldl State.settleBillet u = v at *
  rw [closeIfDrained_open (by rw [c2, c1, h3]; exact hs), c2, c1, h3]

theorem zcReleased {s t : State} {x n d : Nat} (hs : (s.ctx x).st = .opened) (h0 : 0 < n) (hn : n ≤ (s.ctx x).zcPub - (s.ctx x).zcRel)
    (hd : (s.ctx x).destList.find? (fun d => (s.ctx x).destType d == 2) = some d) (e : s.zcRelease x n = t) :
    (t.ctx x).zcRel = (s.ctx x).zcRel + n ∧ (t.ctx x).st = .opened ∧ Touches (mEvent ||| mCtxs ||| mBillets) s t := by
  have k := touches_State.zcRelease s x n
  rw [e] at k
  unfold State.zcRelease at e
  dsimp only at e
  rw [if_neg (by omega), if_neg (by simp [hs]; omega), hd] at e
  dsimp only at e
  have c1 := ctx_setCtx_same s x { s.ctx x with zcRel := (s.ctx x).zcRel + n, zcEnds := (s.ctx x).zcEnds.drop n, zcFullSaid := false }
  generalize s.setCtx x { s.ctx x with zcRel := (s.ctx x).zcRel + n, zcEnds := (s.ctx x).zcEnds.drop n, zcFullSaid := false } = u at *
  unfold State.finishTo at e
  generalize (((s.ctx x).zcEnds.take n).getLast?.map (·.2)).getD 0 = p at *
  have c2 := ctx_updCtx_same u x fun c => c.updDest d fun t => { t with fin := max t.fin p, begun := max t.begun p, doneTo := max t.doneTo p }
  generalize (u.updCtx x fun c => c.updDest d fun t => { t with fin := max t.fin p, begun := max t.begun p, doneTo := max t.doneTo p }) = v at *
  have hv : (v.ctx x).st = .opened ∧ (v.ctx x).zcRel = (s.ctx x).zcRel + n := by
    rw [c2, c1]
    exact ⟨hs, rfl⟩
  have z3 := settle_zcRel hv.1
  obtain ⟨_, _, _, _, _, _, _, _, _, k3⟩ := kin_settle hv.1 x
  have s3 : ((v.settle x).ctx x).st = .opened := by rw [k3]; exact hv.1
  generalize v.settle x = w at *
  obtain ⟨⟨_, _, _, _, _, e4⟩, -⟩ := (zcMoved_zcRun w x).1 x
  rw [e] at e4
  rw [e4]
  exact ⟨z3.trans hv.2, s3, k⟩

end Sys2Proof

end

section
/-! SUPPORT. Replay at a store port (R157, R341, R369), and O45. -/

set_option Elab.async false

namespace Sys2Proof

open Sys2Proof.Machine

/-! ### Replay -/

section

variable {s : State} {p x d : Nat} {r : CordRec}

/-- The hold of a destination on a record that it has delivered ends. -/
def recordSent (s : State) (x d : Nat) (r : CordRec) : State := (s.deliveredTo x d (r.pos + r.len)).finishTo x d (r.pos + r.len)

theorem replaySend_none (h : s.serveNext 5 p = none) : s.replaySend p = s := by
  unfold State.replaySend
  rw [h]

variable (h : s.serveNext 5 p = some (x, d, r))

include h

theorem replaySend_pad (hp : r.typ = tyPad) : s.replaySend p = recordSent (s.beginRec x d r) x d r := by
  unfold State.replaySend
  rw [h]
  exact if_pos hp

variable (hp : r.typ ≠ tyPad)

include hp

theorem replaySend_waits {rt : Route} {q : Nat} (hr : rt ∈ s.routesFrom (70 + p)) (hw : rt.wait = true) (hq : q ∈ rt.dsts)
    (hb : s.branchBusy rt q = true) : s.replaySend p = s := by
  unfold State.replaySend
  rw [h]
  dsimp only
  rw [if_neg hp, if_pos]
  exact List.any_eq_true.mpr ⟨rt, hr, by rw [hw]; exact List.any_eq_true.mpr ⟨q, hq, hb⟩⟩

/-- The routes of a port, taken by a record that no busy WAIT branch holds up. -/
theorem replaySend_goes (hb : ∀ rt ∈ s.routesFrom (70 + p), rt.wait = true → ∀ q ∈ rt.dsts, s.branchBusy rt q = false) : s.replaySend p =
    (recordSent ((s.routesFrom (70 + p)).foldl (fun (t : State) rt => t.replayRoute rt (replayRec 0 x r.items (s.copyRec x d r)) r.len)
      (s.beginRec x d r)) x d r).hadTurn 5 p (s.ctx x).cls x true := by
  unfold State.replaySend
  rw [h]
  dsimp only
  rw [if_neg hp, if_neg]
  · rfl
  · simp only [List.any_eq_true, Bool.and_eq_true, not_exists, not_and]
    exact fun rt hr hw q hq hn => absurd ((hb rt hr hw q hq).symm.trans hn) (by decide)

end

theorem hadTurn_kept (s : State) (ty ix x : Nat) (done : Bool) {cls : Nat} (h : cls < 2) : s.hadTurn ty ix cls x done = s := if_pos h

theorem hadTurn_served (s : State) (ty ix x : Nat) {cls : Nat} (h : 2 ≤ cls) :
    SMap.get 0 (s.hadTurn ty ix cls x true).served (turnKey ty ix cls) = x + 1 := by
  unfold State.hadTurn
  rw [if_neg (by omega)]
  exact SMap.get_set_same (0 : Nat) s.served (turnKey ty ix cls) (x + 1)

theorem takesRecords_of {s t : State} (k : Touches mCtxs s t) (q : Nat) : t.takesRecords q = s.takesRecords q := by
  unfold State.takesRecords State.used State.unitRec
  rw [activePlan_congr (k.regs (by decide)) (k.plan (by decide)), State.flag, State.fld_congr (k.regs (by decide)), State.flag]

/-- The one branch of a port takes the record whole. -/
theorem replayRoute_one {s : State} {rt : Route} {q : Nat} (hq : rt.dsts = [q]) (ht : s.takesRecords q = true) (hb : s.branchBusy rt q = false)
    (rr : RRec) (len : Nat) : s.replayRoute rt rr len = s.onReplay fun _ => SMap.upd [] s.replay q fun l => l ++ [{ rr with route := rt.num }] := by
  unfold State.replayRoute
  rw [hq, List.foldl_cons, List.foldl_nil, if_neg (by rw [hb]; simp)]
  unfold State.replayTo
  exact if_pos ht

theorem touches_recordSent (s : State) (x d : Nat) (r : CordRec) : Touches (mRegs ||| mCtxs ||| mBillets) s (recordSent s x d r) :=
  ((touches_State.deliveredTo s x d (r.pos + r.len)).mono (by decide)).trans (touches_State.finishTo _ x d (r.pos + r.len))

theorem replayRec_whole (route x items : Nat) (bs : List Byte) : (replayRec route x items bs).hdr ++ (replayRec route x items bs).bytes = bs :=
  List.take_append_drop 32 bs

/-- A record that goes: the turns, and what a branch that takes records whole holds. -/
theorem replaySend_effect {s t : State} {p x d : Nat} {r : CordRec} (h : s.serveNext 5 p = some (x, d, r)) (hp : r.typ ≠ tyPad)
    (hb : ∀ rt ∈ s.routesFrom (70 + p), rt.wait = true → ∀ q ∈ rt.dsts, s.branchBusy rt q = false) (e : s.replaySend p = t) :
    ((s.ctx x).cls < 2 → t.served = s.served) ∧ (2 ≤ (s.ctx x).cls → SMap.get 0 t.served (turnKey 5 p (s.ctx x).cls) = x + 1) ∧
      (∀ rt q, s.routesFrom (70 + p) = [rt] → rt.dsts = [q] → s.takesRecords q = true → s.branchBusy rt q = false →
        ∃ v : RRec, SMap.get [] t.replay q = SMap.get [] s.replay q ++ [v] ∧ v.route = rt.num ∧ v.ctx = x ∧ v.items = r.items ∧
          v.hdr ++ v.bytes = s.copyRec x d r) := by
  rw [replaySend_goes h hp hb] at e
  have kb : Touches mCtxs s (s.beginRec x d r) := touches_State.beginRec s x d r
  have hw := replayRec_whole 0 x r.items (s.copyRec x d r)
  have hrr : (replayRec 0 x r.items (s.copyRec x d r)).ctx = x ∧ (replayRec 0 x r.items (s.copyRec x d r)).items = r.items := ⟨rfl, rfl⟩
  generalize replayRec 0 x r.items (s.copyRec x d r) = rr at *
  generalize s.beginRec x d r = u at *
  have ku : Touches (mEvent ||| mFreeCtr ||| mStore ||| mCtxs ||| mBillets ||| mPorts ||| mAside ||| mBadLines ||| mXfm ||| mLt ||| mAu ||| mReplay ||| mCmp)
      u ((s.routesFrom (70 + p)).foldl (fun (t : State) rt => t.replayRoute rt rr r.len) u) :=
    .overList (.refl _ _) fun t rt => touches_State.replayRoute t rt rr r.len
  have hone {rt : Route} {q : Nat} (h1 : s.routesFrom (70 + p) = [rt]) (h2 : rt.dsts = [q]) (h3 : s.takesRecords q = true) (h4 : s.branchBusy rt q = false) :
      SMap.get [] ((s.routesFrom (70 + p)).foldl (fun (t : State) rt => t.replayRoute rt rr r.len) u).replay q =
        SMap.get [] s.replay q ++ [{ rr with route := rt.num }] := by
    have h3' := (takesRecords_of kb q).trans h3
    have h4' : u.branchBusy rt q = false := by
      unfold State.branchBusy at h4 ⊢
      rw [if_pos h3] at h4
      rw [if_pos h3', kb.replay (by decide), h4]
    rw [h1, List.foldl_cons, List.foldl_nil, replayRoute_one h2 h3' h4', State.onReplay_replay, SMap.get_upd_same, kb.replay (by decide)]
  generalize (s.routesFrom (70 + p)).foldl (fun (t : State) rt => t.replayRoute rt rr r.len) u = v at *
  have kv := touches_recordSent v x d r
  generalize recordSent v x d r = w at *
  have kw := touches_State.hadTurn w 5 p (s.ctx x).cls x true
  refine ⟨fun hc => ?_, fun hc => ?_, fun rt q h1 h2 h3 h4 => ⟨{ rr with route := rt.num }, ?_, rfl, hrr.1, hrr.2, hw⟩⟩
  · rw [← e, hadTurn_kept _ _ _ _ _ hc, kv.served (by decide), ku.served (by decide), kb.served (by decide)]
  · rw [← e, hadTurn_served _ _ _ _ hc]
  · rw [e] at kw
    rw [kw.replay (by decide), kv.replay (by decide), hone h1 h2 h3 h4]

/-! ### The obligation -/

/-- Settles O45, by the commands of STO_CMD, the snapshot, the bias switch, the doorbells and replay. -/
theorem woodyardCommands : Obligations.WoodyardCommands := by
  unfold Obligations.WoodyardCommands
  refine ⟨fun s hr hm i hi => stoBusy hr hm i hi, fun x b s hr hm hsr hx hb => ?cmd, fun v x s hr hx => csnap_effect hr hx,
    fun b s => ⟨fun h => congrArg Host.Outcome.next (biasDone_none h), fun h => ⟨_, rfl, biasToHost h rfl⟩,
      fun h hu hw hwr hc hh => ⟨_, rfl, biasToDevice h hu hw hwr hc hh rfl⟩⟩,
    fun x s => ⟨fun h => congrArg Host.Outcome.next (zcFlush_idle h), fun k off d ht hs h64 hlt hd hz => ?timer⟩,
    fun x v s ha => ⟨doorbellClosed ha v, fun hs h0 => ?_, fun d hs h0 hn hd => ?_, fun hs hn => ?_, ctxFlush_idle ha v,
      fun k off hs ht h64 hlt => ctxFlush_flushes ha v hs ht h64 hlt⟩,
    fun p s hg => ?replay⟩
  case cmd =>
    obtain ⟨u, ku, e1, e2, e3, e4, e5⟩ := stoCmd_runs hr hm hsr hx hb
    have hbi := billet_of_billets (ku.1.billets (by decide))
    have hcu := ctx_of_ctxs (ku.1.ctxs (by decide)) x
    refine ⟨fun h1 h2 h3 h4 h5 h6 h7 => ⟨_, e1, stoTaken ku h1 h2 h3 h4 h5 h6 h7 rfl⟩, fun h1 h2 => ⟨_, e1, ?_⟩, fun h1 h2 h3 => ⟨_, e1, ?_⟩,
      fun h1 h2 h3 h4 h5 => ⟨_, e2, stoFreeDeferred ku h1 h2 h3 h4 h5 rfl⟩,
      fun h1 h2 h3 h4 h5 h6 h7 h8 => ⟨_, e2, stoFreed ku h1 h2 h3 h4 h5 h6 h7 h8 rfl⟩, fun h1 h2 => ⟨_, e2, stoFreeBad ku h1 h2 rfl⟩,
      fun h1 => ⟨_, e5, stoQueried ku h1 rfl⟩, fun h1 i hi => ?_, fun h1 h2 => ⟨_, e3, ?_⟩, fun h1 => ⟨_, e3, ?_⟩,
      fun k off h1 h2 h3 h4 => ⟨_, e3, stoFlushed ku h1 h2 h3 h4 rfl⟩, fun h1 => ⟨_, e4, ?_⟩,
      fun h1 h2 h3 => ⟨_, e4, stoDiscarded ku h1 h2 h3 rfl⟩⟩
    · rw [swTake_free h1 ((congrArg Billet.used (hbi b)).trans h2)]
      exact stoAnswered ku (by decide) rfl
    · rw [swTake_owner h1 ((congrArg Billet.used (hbi b)).trans h2) (by rw [hbi]; exact h3)]
      exact stoAnswered ku (by decide) rfl
    · simp only [List.mem_cons, List.not_mem_nil, or_false] at hi
      have ha (t : State) (e : State.stoResult (7, u) = t) := (stoAnswered ku (k := 7) (by decide) e).2
      obtain rfl | rfl | rfl := hi
      · exact ⟨_, e1, ha _ (by rw [swTake_range h1])⟩
      · exact ⟨_, e2, ha _ (by rw [swFree_range h1])⟩
      · exact ⟨_, e5, ha _ (by rw [stoQuery_range h1])⟩
    · have e : u.stoFlush x = (0, u) := by
        unfold State.stoFlush State.flushCtx
        rw [hcu, if_pos h1, h2]
      rw [e]
      obtain ⟨-, a2, -, a4⟩ := stoAnswered ku (k := 0) (by decide) rfl
      exact ⟨a2, a4⟩
    · rw [show u.stoFlush x = (6, u) from if_neg (by rw [hcu]; exact h1)]
      exact (stoAnswered ku (k := 6) (by decide) rfl).2
    · rw [show u.stoDiscard x = (6, u) from if_pos (by rw [hcu]; exact h1)]
      exact (stoAnswered ku (k := 6) (by decide) rfl).2
  case timer =>
    have e := zcFlush_runs ht hs hd hz
    have kr := touches_State.reach s ((s.ctx x).zcFirst + s.usTicks (s.ctx x).zcFlushUs)
    have ht1 := fun hh => State.reach_time_running (s := s) hh ((s.ctx x).zcFirst + s.usTicks (s.ctx x).zcFlushUs)
    have hc := ctx_of_ctxs (kr.ctxs (by decide)) x
    generalize s.reach ((s.ctx x).zcFirst + s.usTicks (s.ctx x).zcFlushUs) = u at *
    rw [← hc] at ht hs
    obtain ⟨a1, -, a3, -⟩ := flushCtx_effect hs ht h64 hlt rfl
    have kf := touches_State.flushCtx u x
    refine ⟨_, congrArg Host.Outcome.next e, a1, by rw [a3, hc], fun hh => (kf.time (by decide)).trans (ht1 hh), (kr.mono (by decide)).trans (kf.mono (by decide))⟩
  case replay =>
    have run (hh : s.held = false) {t : State} (e : s.replaySend p = t) : exec (.replaySend p) s = .next t :=
      next_live hg ((State.clocked_running hh _).trans e)
    have same (e : s.replaySend p = s) : exec (.replaySend p) s = .next s :=
      next_live hg (by unfold State.clocked; dsimp only; rw [e, ite_self])
    refine ⟨fun h => ?_, fun x d r hh h hp => run hh (replaySend_pad h hp), fun x d r hh h hp hr => run hh ?_,
      fun x d r hh h hp hb => ?_, fun x d r rt q h hp hr hw hq hb => same (replaySend_waits h hp hr hw hq hb)⟩
    · obtain hh | h := h
      · exact next_live hg (State.clocked_held hh _)
      · exact same (replaySend_none h)
    · rw [replaySend_goes h hp (by rw [hr]; exact fun _ h => absurd h List.not_mem_nil), hr]
      rfl
    · obtain ⟨a1, a2, a3⟩ := replaySend_effect h hp hb rfl
      exact ⟨_, run hh rfl, a1, a2, a3, touches_State.replaySend s p⟩
  · rw [zcRelease_runs ha v hs, h0, zcRelease_zero]
  · obtain ⟨a1, a2, a3⟩ := zcReleased hs h0 hn hd rfl
    exact ⟨_, zcRelease_runs ha v hs, a1, a2, a3.time (by decide), a3⟩
  · rw [zcRelease_runs ha v hs, zcRelease_bad hn]

end Sys2Proof

end

section
/-! SUPPORT. Avenues: the registers that set one up, and what it sends (R461, R466). -/

set_option Elab.async false

namespace Sys2Proof

open Sys2Proof.Machine

/-! ### How an avenue is set up -/

/-- The registers by which avenue `a` goes read in `t` as in `s`. -/
def aveSetup (a : Nat) (s t : State) : Prop :=
  ∀ r ∈ [rAVE_CFG a, rAVE_MAC a, rAVE_IP0 a, rAVE_IP1 a, rAVE_PARAM a, rAVE_GLOBAL, rGLB_DEVID, rTBS_TICK], t.rd r = s.rd r

/-- Address `r` is that of a register by which avenue `a` does not go: one of the network ports that is no NET_SUB_STATUS, of its own from AVE_CMD on,
or of the trigger slots. -/
def aveFree (a r : Nat) : Prop := (0x900000 ≤ r ∧ r < 0xA00000) ∧ r % 0x100 ≠ 0x28 ∨ rAVE_CMD a ≤ r ∧ r < rAVE_CFG (a + 1) ∨ 0xA80100 ≤ r

section

variable {a i : Nat}

theorem aveFree_status : aveFree a (rAVE_STATUS a) := .inr (.inl (by simp only [rAVE_CMD, rAVE_STATUS, rAVE_CFG]; omega))
theorem aveFree_cnt0 : aveFree a (rAVE_CNT0 a) := .inr (.inl (by simp only [rAVE_CMD, rAVE_CNT0, rAVE_CFG]; omega))
theorem aveFree_cnt1 : aveFree a (rAVE_CNT1 a) := .inr (.inl (by simp only [rAVE_CMD, rAVE_CNT1, rAVE_CFG]; omega))
theorem aveFree_net (h : i < 16) : aveFree a (rNET_SUB_CNT0 i) := .inl ⟨by simp only [rNET_SUB_CNT0]; omega, by simp only [rNET_SUB_CNT0]; omega⟩
theorem aveFree_trig : aveFree a (rAVE_TRIG i) := .inr (.inr (by simp only [rAVE_TRIG]; omega))
theorem aveFree_trigStat : aveFree a (rAVE_TRIG_STAT i) := .inr (.inr (by simp only [rAVE_TRIG_STAT]; omega))
theorem aveFree_trigSend : aveFree a rAVE_TRIG_SEND := .inr (.inr (by decide))

theorem aveFree_none : ∀ r ∈ ([] : List Nat), aveFree a r := fun _ h => absurd h List.not_mem_nil

theorem aveFree_cons {r : Nat} {l : List Nat} (h : aveFree a r) (k : ∀ r ∈ l, aveFree a r) : ∀ q ∈ r :: l, aveFree a q :=
  List.forall_mem_cons.mpr ⟨h, k⟩

theorem aveSub_lt (s : State) (a : Nat) : s.aveSub a < 16 := State.fld_lt s (rAVE_CFG a) fAVE_CFG_SUB

end

section

variable {a : Nat} {s t u : State}

theorem aveSetup.refl (a : Nat) (s : State) : aveSetup a s s := fun _ _ => rfl

theorem aveSetup.trans (h : aveSetup a s t) (k : aveSetup a t u) : aveSetup a s u := fun r hr => (k r hr).trans (h r hr)

theorem aveSetup.of_regs (h : t.regs = s.regs) : aveSetup a s t := fun r _ => State.rd_congr h r

theorem aveSetup.of_onlyIn {m : Nat} {l srcs : List Nat} (h : onlyIn m l srcs s t) (ha : a < 4096) (hl : ∀ r ∈ l, aveFree a r)
    (hs : ∀ src ∈ srcs, src < 1024) : aveSetup a s t := fun r hr => by
  have hr' : (r = rGLB_DEVID ∨ r = rTBS_TICK ∨ rAVE_CFG a ≤ r ∧ r < rAVE_CMD a ∨ r = rAVE_GLOBAL) := by
    simp only [List.mem_cons, List.not_mem_nil, or_false, rAVE_CFG, rAVE_MAC, rAVE_IP0, rAVE_IP1, rAVE_PARAM, rAVE_GLOBAL, rGLB_DEVID, rTBS_TICK,
      rAVE_CMD] at hr ⊢
    omega
  refine h.rd_apart (fun hm => ?_) ?_ hs
  · obtain hf | hf | hf := hl r hm
    all_goals
      simp only [rGLB_DEVID, rTBS_TICK, rAVE_CFG, rAVE_CMD, rAVE_GLOBAL] at hr' hf
      omega
  · simp only [rGLB_DEVID, rTBS_TICK, rAVE_CFG, rAVE_CMD, rAVE_GLOBAL] at hr'
    omega

/-- Nor does the link of a sub-port change. -/
theorem link_of_onlyIn {m i : Nat} {l srcs : List Nat} (h : onlyIn m l srcs s t) (hi : i < 16) (hl : ∀ r ∈ l, aveFree a r)
    (hs : ∀ src ∈ srcs, src < 1024) : t.rd (rNET_SUB_STATUS i) = s.rd (rNET_SUB_STATUS i) := by
  refine h.rd_apart (fun hm => ?_) (.inr (by simp only [rNET_SUB_STATUS]; omega)) hs
  obtain hf | hf | hf := hl _ hm
  all_goals
    simp only [rNET_SUB_STATUS, rAVE_CFG, rAVE_CMD] at hf
    omega

variable (h : aveSetup a s t)

include h

theorem aveSetup.cfg : t.rd (rAVE_CFG a) = s.rd (rAVE_CFG a) := h _ (by simp)
theorem aveSetup.sub : t.aveSub a = s.aveSub a := fld_of_rd h.cfg
theorem aveSetup.ctx : t.aveCtx a = s.aveCtx a := fld_of_rd h.cfg
theorem aveSetup.inb : t.aveIn a = s.aveIn a := flag_of_rd h.cfg
theorem aveSetup.v6 : t.aveV6 a = s.aveV6 a := flag_of_rd h.cfg
theorem aveSetup.par (f : Fld) : t.avePar a f = s.avePar a f := fld_of_rd (h _ (by simp))
theorem aveSetup.glob (f : Fld) : t.fld rAVE_GLOBAL f = s.fld rAVE_GLOBAL f := fld_of_rd (h _ (by simp))

theorem aveSetup.ip : t.aveIp a = s.aveIp a := by
  unfold State.aveIp
  rw [h.v6, h (rAVE_IP0 a) (by simp), h (rAVE_IP1 a) (by simp)]

theorem aveSetup.usTicks (n : Nat) : t.usTicks n = s.usTicks n := by
  have e : t.tickFs = s.tickFs := fld_of_rd (h rTBS_TICK (by simp))
  unfold State.usTicks
  rw [e]

end

/-! ### The messages of events -/

theorem signal_msix (s : State) (v : Nat) : ∃ l, (s.signal v).outs = s.outs ++ l ∧ ∀ o ∈ l, ∃ v, o = .msix v := by
  unfold State.signal
  dsimp only
  split
  · exact ⟨[], (State.setVec_outs _ _ _).trans (List.append_nil _).symm, fun _ h => absurd h List.not_mem_nil⟩
  · exact ⟨[.msix v], congrArg (· ++ [Out.msix v]) (State.setVec_outs _ _ _), fun o ho => ⟨v, List.mem_singleton.mp ho⟩⟩

/-- An event sends at most messages. -/
theorem raiseWith_msix {s t : State} {src : Nat} {obj : Option Nat} {code detail : Nat} {inj : Bool} {lim key : Nat}
    (e : s.raiseWith src obj code detail inj lim key = t) : ∃ l, t.outs = s.outs ++ l ∧ ∀ o ∈ l, ∃ v, o = .msix v := by
  unfold State.raiseWith at e
  dsimp only at e
  have e0 : ((s.setFlds (rEVT_SRC src) [(fEVT_SRC_STATUS, 1), (fEVT_SRC_COUNT, s.fld (rEVT_SRC src) fEVT_SRC_COUNT + 1)]).addMod
      rEVT_STAT fEVT_STAT_RAISED 1).outs = s.outs := by rw [State.addMod_outs, State.setFlds_outs]
  generalize (s.setFlds (rEVT_SRC src) _).addMod rEVT_STAT _ _ = u at *
  have e1 : (u.onEvt fun z => { z with occ := SMap.upd 0 u.evt.occ src (· + 1) }).outs = u.outs := State.onEvt_outs _ _
  generalize u.onEvt _ = w at *
  have he : t = w ∨ ∃ (z : State) (v : Nat), z.outs = w.outs ∧ (z.ringPut src obj code detail inj).signal v = t := by
    split at e
    · split at e
      · exact .inl e.symm
      · refine .inr ⟨_, _, ?_, e⟩
        split
        · rfl
        · exact State.onEvt_outs _ _
    · exact .inl e.symm
  obtain rfl | ⟨z, v, hz, rfl⟩ := he
  · exact ⟨[], by rw [e1, e0, List.append_nil], fun _ h => absurd h List.not_mem_nil⟩
  · obtain ⟨l, hl, hm⟩ := signal_msix (z.ringPut src obj code detail inj) v
    exact ⟨l, by rw [hl, (touches_State.ringPut _ _ _ _ _ _).outs (by decide), hz, e1, e0], hm⟩

theorem raise_msix (s : State) (src : Nat) (obj : Option Nat) (code detail : Nat) :
    ∃ l, (s.raise src obj code detail).outs = s.outs ++ l ∧ ∀ o ∈ l, ∃ v, o = .msix v := raiseWith_msix rfl

/-! ### Sending -/

section

variable {a typ hi ofs aux time : Nat} {body : List Byte} {s t u v : State}

theorem aveSend_effect (h : aveCanSend a s) (e : s.aveSend a typ hi ofs aux time body = t) :
    aveSent a typ hi ofs aux time body s t ∧ t.ave = s.ave ∧ t.net = s.net ∧ onlyIn (mRegs ||| mOuts) [rNET_SUB_CNT0 (s.aveSub a)] [] s t := by
  have ka := (touches_State.aveSend s a typ hi ofs aux time body).ave (by decide)
  rw [e] at ka
  unfold State.aveSend State.udpSend at e
  dsimp only at e
  obtain ⟨e1, e2, -, e4⟩ := netSend_effect h.1 h.2 _ e
  refine ⟨⟨_, [], e1, fun _ h => absurd h List.not_mem_nil, rfl, rfl, rfl, rfl, rfl, ?_⟩, ka, e2, .of_hi e4 ?_⟩
  · rw [aveU_of_ave ka]
    rfl
  · simp only [List.mem_singleton, rNET_SUB_CNT0]
    omega

/-- Whether it leaves, waits or is dropped, what is sent changes only the queue and the counter of the sub-port. -/
theorem onlyIn_netSend (s : State) (i : Nat) (o : Out) : onlyIn (mRegs ||| mOuts ||| mNet) [rNET_SUB_CNT0 i] [] s (s.netSend i o) := by
  refine .of_hi ?_ (by simp only [List.mem_singleton, rNET_SUB_CNT0]; omega)
  unfold State.netSend
  refine .ite (.refl _ _ _ _) (.ite (.other (.refl _ _ _ _) (touches_State.updNet _ _ _) (by decide) (State.updNet_regs _ _ _)) (.addMod ?_))
  exact .other (.refl _ _ _ _) (touches_State.send _ _) (by decide) (State.send_regs _ _)

theorem onlyIn_aveSend (s : State) (a typ hi ofs aux time : Nat) (body : List Byte) :
    onlyIn (mRegs ||| mOuts ||| mNet) [rNET_SUB_CNT0 (s.aveSub a)] [] s (s.aveSend a typ hi ofs aux time body) := onlyIn_netSend _ _ _

/-- What `u` sends is what `s` sends where the avenue is set up alike, and events afterwards send messages. -/
theorem aveSent.of (h : aveSent a typ hi ofs aux time body u t) (k : aveSetup a s u) (ho : u.outs = s.outs) {l : List Out}
    (hv : v.outs = t.outs ++ l) (hl : ∀ o ∈ l, ∃ v, o = .msix v) (hp : (v.aveU a).peer = (t.aveU a).peer) :
    aveSent a typ hi ofs aux time body s v := by
  obtain ⟨d, l0, h1, h2, h3, h4, h5, h6, h7, h8⟩ := h
  refine ⟨d, l0 ++ l, ?_, fun o hm => (List.mem_append.mp hm).elim (h2 o) (hl o), by rw [h3, k.sub], ?_, by rw [h5, k.ip], by rw [h6, k.glob],
    by rw [h7]; exact fld_of_rd k.cfg, ?_⟩
  · rw [hv, h1, ho, List.append_assoc, List.cons_append]
  · rw [h4]
    exact fld_of_rd (k _ (by simp))
  · rw [h8, hp, State.fld, State.fld, State.fld, State.fld, k _ (by simp), k _ (by simp)]

theorem aveSent.from (h : aveSent a typ hi ofs aux time body u t) (k : aveSetup a s u) (ho : u.outs = s.outs) :
    aveSent a typ hi ofs aux time body s t :=
  h.of k ho (l := []) (List.append_nil _).symm (fun _ h => absurd h List.not_mem_nil) rfl

/-- An avenue that can send still can where its setup, its link and its sub-port are as they were. -/
theorem aveCanSend_of (h : aveCanSend a s) (hr : t.regs = s.regs) (hn : t.net = s.net) : aveCanSend a t := by
  unfold aveCanSend
  rw [(aveSetup.of_regs hr).sub, linkUp_of_rd (State.rd_congr hr _), netS_of_net hn]
  exact h

theorem aveCanSend.kept {m : Nat} {l srcs : List Nat} (h : aveCanSend a s) (k : onlyIn m l srcs s t) (ha : a < 4096) (hl : ∀ r ∈ l, aveFree a r)
    (hs : ∀ src ∈ srcs, src < 1024) (hn : m.testBit 44 = false := by decide) : aveCanSend a t := by
  unfold aveCanSend
  rw [(aveSetup.of_onlyIn k ha hl hs).sub, linkUp_of_rd (link_of_onlyIn k (aveSub_lt s a) hl hs), netS_of_net (k.1.net hn)]
  exact h

end

end Sys2Proof

end

section
/-! SUPPORT. Avenues: the commands OPEN, CLOSE and RESET (R468, R475). -/

set_option Elab.async false

namespace Sys2Proof

open Sys2Proof.Machine

/-! ### The state of an avenue -/

section

variable {a : Nat} {s t : State}

theorem aveState_of_rd (h : t.rd (rAVE_STATUS a) = s.rd (rAVE_STATUS a)) : t.aveState a = s.aveState a := fld_of_rd h

theorem aveState_set {v : Nat} (h : v < 8) : (s.setAveState a v).aveState a = v :=
  (State.fld_setFld_self _ _ _ _ (by decide)).trans (Nat.mod_eq_of_lt h)

theorem aveState_upd (f : Ave → Ave) : (s.updAve a f).aveState a = s.aveState a := State.fld_congr (State.updAve_regs s a f) _ _

theorem status_ne_net {i : Nat} (h : i < 16) : rAVE_STATUS a ≠ rNET_SUB_CNT0 i := by simp only [rAVE_STATUS, rNET_SUB_CNT0]; omega

theorem aveOwn_high : ∀ r ∈ [rAVE_STATUS a, rNET_SUB_CNT0 (s.aveSub a)], 0x1000 ≤ r := by
  simp only [List.mem_cons, List.not_mem_nil, or_false, rAVE_STATUS, rNET_SUB_CNT0]
  omega

theorem aveOwn_free : ∀ r ∈ [rAVE_STATUS a, rNET_SUB_CNT0 (s.aveSub a)], aveFree a r :=
  aveFree_cons aveFree_status (aveFree_cons (aveFree_net (aveSub_lt s a)) aveFree_none)

/-- What leaves every address but those of `l` leaves a register that is not one of them. -/
theorem onlyIn.ave_rd {m r : Nat} {l srcs : List Nat} (h : onlyIn m l srcs s t) (hr : r ∉ l) (hi : 0x20000 ≤ r) (hs : ∀ src ∈ srcs, src < 1024) :
    t.rd r = s.rd r := h.rd_apart hr (.inr hi) hs

/-- Sending leaves the state of an avenue. -/
theorem status_sent {m : Nat} (h : onlyIn m [rNET_SUB_CNT0 (s.aveSub a)] [] s t) : t.rd (rAVE_STATUS a) = s.rd (rAVE_STATUS a) :=
  h.ave_rd (by rw [List.mem_singleton]; exact status_ne_net (aveSub_lt s a)) (by simp only [rAVE_STATUS]; omega) (by simp)

end

/-! ### OPEN and CLOSE leave -/

section

variable {a typ : Nat} {s t : State}

/-- What OPEN and OPEN_ACK leave of an avenue: an inbound one has granted its LIMIT. -/
def openLimit (s : State) (a : Nat) : Nat := if s.aveIn a then s.aveLimit a else (s.aveU a).limit

theorem aveOpenPkt_effect (h : aveCanSend a s) (e : s.aveOpenPkt a typ = t) :
    t.aveU a = { s.aveU a with limit := openLimit s a } ∧
      aveSent a typ 0 0 0 s.time (openBody (s.aveU a).own (!s.aveIn a) (if s.aveIn a then (t.aveU a).limit else 0)) s t ∧
      onlyIn (mRegs ||| mOuts ||| mAve) [rNET_SUB_CNT0 (s.aveSub a)] [] s t := by
  unfold State.aveOpenPkt at e
  dsimp only at e
  obtain ⟨u, hu⟩ : ∃ u, u = if s.aveIn a then s.updAve a fun v => { v with limit := if s.aveIn a then s.aveLimit a else 0 } else s := ⟨_, rfl⟩
  rw [← hu] at e
  have hk : Touches mAve s u ∧ u.regs = s.regs ∧ u.aveU a = { s.aveU a with limit := openLimit s a } := by
    rw [hu, openLimit]
    cases s.aveIn a with
    | true => exact ⟨touches_State.updAve _ _ _, State.updAve_regs _ _ _, aveU_updAve_same _ _ _⟩
    | false => exact ⟨.refl _ _, rfl, rfl⟩
  obtain ⟨hu1, hu2, hu3⟩ := hk
  have hset : aveSetup a s u := .of_regs hu2
  obtain ⟨e1, e2, -, e4⟩ := aveSend_effect (aveCanSend_of h hu2 (hu1.net (by decide))) e
  have ht : t.aveU a = { s.aveU a with limit := openLimit s a } := (aveU_of_ave e2 a).trans hu3
  refine ⟨ht, ?_, ?_⟩
  · have hl : (if s.aveIn a then (t.aveU a).limit else 0) = if s.aveIn a then s.aveLimit a else 0 := by
      rw [ht]
      cases h : s.aveIn a <;> simp [openLimit, h]
    rw [hl]
    exact e1.from hset (hu1.outs (by decide))
  · rw [hset.sub] at e4
    exact (onlyIn.other (.refl _ _ _ _) hu1 (by decide) hu2).trans (e4.mono (by decide) (List.Subset.refl _) (List.Subset.refl _))

theorem aveSendOpen_effect (h : aveCanSend a s) (e : s.aveSendOpen a = t) :
    (t.aveU a).own = (s.aveU a).own ∧ (t.aveU a).tries = (s.aveU a).tries + 1 ∧ (t.aveU a).at_ = s.time ∧
      aveSent a 1 0 0 0 s.time (openBody (t.aveU a).own (!s.aveIn a) (if s.aveIn a then (t.aveU a).limit else 0)) s t ∧
      onlyIn (mRegs ||| mOuts ||| mAve) [rNET_SUB_CNT0 (s.aveSub a)] [] s t := by
  unfold State.aveSendOpen at e
  rw [if_pos h.1] at e
  have ku := touches_State.updAve s a fun v => { v with at_ := s.time, tries := v.tries + 1 }
  have ru := State.updAve_regs s a fun v => { v with at_ := s.time, tries := v.tries + 1 }
  have au := aveU_updAve_same s a fun v => { v with at_ := s.time, tries := v.tries + 1 }
  generalize s.updAve a _ = u at *
  have hset : aveSetup a s u := .of_regs ru
  obtain ⟨e1, e2, e3⟩ := aveOpenPkt_effect (aveCanSend_of h ru (ku.net (by decide))) e
  have ho : (t.aveU a).own = (s.aveU a).own := by rw [e1, au]
  refine ⟨ho, by rw [e1, au], by rw [e1, au], ?_, ?_⟩
  · rw [hset.inb, ku.time (by decide), show (u.aveU a).own = (t.aveU a).own by rw [e1]] at e2
    exact e2.from hset (ku.outs (by decide))
  · rw [hset.sub] at e3
    exact (onlyIn.other (.refl _ _ _ _) ku (by decide) ru).trans e3

theorem aveSendClose_effect (h : aveCanSend a s) (e : s.aveSendClose a = t) :
    t.aveU a = { s.aveU a with at_ := s.time, tries := (s.aveU a).tries + 1 } ∧ aveSent a 6 0 (s.aveU a).next 0 0 [] s t ∧
      onlyIn (mRegs ||| mOuts ||| mAve) [rNET_SUB_CNT0 (s.aveSub a)] [] s t := by
  unfold State.aveSendClose at e
  have ku := touches_State.updAve s a fun v => { v with at_ := s.time, tries := v.tries + 1 }
  have ru := State.updAve_regs s a fun v => { v with at_ := s.time, tries := v.tries + 1 }
  have au := aveU_updAve_same s a fun v => { v with at_ := s.time, tries := v.tries + 1 }
  generalize s.updAve a _ = u at *
  have hset : aveSetup a s u := .of_regs ru
  obtain ⟨e1, e2, -, e4⟩ := aveSend_effect (aveCanSend_of h ru (ku.net (by decide))) e
  refine ⟨(aveU_of_ave e2 a).trans au, e1.from hset (ku.outs (by decide)), ?_⟩
  rw [hset.sub] at e4
  exact (onlyIn.other (.refl _ _ _ _) ku (by decide) ru).trans (e4.mono (by decide) (List.Subset.refl _) (List.Subset.refl _))

/-- Leaving OPEN without a partial record, an avenue only drops what it holds ahead. -/
theorem aveLeave_whole (h : (s.aveU a).part = []) : s.aveLeave a = s.updAve a fun v => { v with ahead := [], part := [], ackAt := none } := by
  unfold State.aveLeave
  dsimp only
  rw [h]
  exact if_neg (by simp)

end

/-! ### The host's commands -/

section

variable {a : Fin 4096} {v : Word} {s : State} (hr : s.ready = true)

include hr

theorem aveCmdOpen_runs : exec (.aveCmdOpen a v) s = .next ((s.dropStaged .host (rAVE_CMD a)).aveCmdOpen a) := by
  refine next_hostWr hr (?_ : State.wrAveCmd a (fset v fAVE_CMD_CMD 1) (s.dropStaged .host (rAVE_CMD a)) = _)
  unfold State.wrAveCmd
  rw [fget_fset_self _ _ _ (by decide)]
  rfl

theorem aveCmdClose_runs : exec (.aveCmdClose a v) s = .next ((s.dropStaged .host (rAVE_CMD a)).aveCmdClose a) := by
  refine next_hostWr hr (?_ : State.wrAveCmd a (fset v fAVE_CMD_CMD 2) (s.dropStaged .host (rAVE_CMD a)) = _)
  unfold State.wrAveCmd
  rw [fget_fset_self _ _ _ (by decide)]
  rfl

theorem aveCmdReset_runs : exec (.aveCmdReset a v) s = .next ((s.dropStaged .host (rAVE_CMD a)).aveCmdReset a) := by
  refine next_hostWr hr (?_ : State.wrAveCmd a (fset v fAVE_CMD_CMD 3) (s.dropStaged .host (rAVE_CMD a)) = _)
  unfold State.wrAveCmd
  rw [fget_fset_self _ _ _ (by decide)]
  rfl

theorem aveCmdSkip_runs : exec (.aveCmdSkip a v) s = .next ((s.dropStaged .host (rAVE_CMD a)).aveCmdSkip a) := by
  refine next_hostWr hr (?_ : State.wrAveCmd a (fset v fAVE_CMD_CMD 4) (s.dropStaged .host (rAVE_CMD a)) = _)
  unfold State.wrAveCmd
  rw [fget_fset_self _ _ _ (by decide)]
  rfl

end

section

variable {a : Nat} {s t u : State}

theorem aveBound_of (hr : u.regs = s.regs) (hc : u.ctxs = s.ctxs) : u.aveBound a = s.aveBound a := by
  have hset : aveSetup a s u := .of_regs hr
  unfold State.aveBound
  dsimp only
  rw [hset.ctx, hset.inb, ctx_of_ctxs hc, avesUp_of_regs hr]
  simp only [State.flag, State.fld_congr hr, State.aveIn, State.aveCtx] <;> rfl

theorem aveAddressed_of (hr : u.regs = s.regs) : u.aveAddressed a = s.aveAddressed a := by
  have hset : aveSetup a s u := .of_regs hr
  unfold State.aveAddressed State.ownIp
  rw [hset.ip, hset.v6, hset.sub]
  simp only [State.fld_congr hr, State.rd_congr hr]

/-- An OPEN that is taken: a new nonce, and LISTEN, or OPENING and an OPEN packet. -/
def aveStarted (s : State) (a : Nat) : State :=
  (s.fresh.2.updAve a fun _ => { ave0 with own := Config.nonce s.freeCtr % 2 ^ 32, heard := s.time }).aveRefuse a 0

theorem aveStarted_effect {n : Nat} (hn : n < 8) (e : (aveStarted s a).setAveState a n = t) :
    t.aveState a = n ∧ t.fld (rAVE_STATUS a) fAVE_STATUS_REASON = 0 ∧ t.time = s.time ∧ t.net = s.net ∧ t.outs = s.outs ∧
      t.aveU a = { ave0 with own := Config.nonce s.freeCtr % 2 ^ 32, heard := s.time } ∧
      onlyIn (mRegs ||| mFreeCtr ||| mAve) [rAVE_STATUS a] [] s t := by
  have e' : (((s.fresh.2.updAve a fun _ => { ave0 with own := Config.nonce s.freeCtr % 2 ^ 32, heard := s.time }).setFld (rAVE_STATUS a)
      fAVE_STATUS_REASON 0).setFld (rAVE_STATUS a) fAVE_STATUS_STATE n) = t := e
  have k0 : onlyIn (mRegs ||| mFreeCtr ||| mAve ||| mGlb) [rAVE_STATUS a] [] s
      (s.fresh.2.updAve a fun _ => { ave0 with own := Config.nonce s.freeCtr % 2 ^ 32, heard := s.time }) :=
    .other (.other (.refl _ _ _ _) (touches_State.fresh s) (by decide) rfl) (touches_State.updAve _ _ _) (by decide) (State.updAve_regs _ _ _)
  have a0 := aveU_updAve_same s.fresh.2 a fun _ => { ave0 with own := Config.nonce s.freeCtr % 2 ^ 32, heard := s.time }
  generalize (s.fresh.2.updAve a fun _ => _) = w at *
  have k1 : onlyIn (mRegs ||| mFreeCtr ||| mAve) [rAVE_STATUS a] [] s t := by
    rw [← e']
    refine .of_hi (.setFld (.setFld k0)) ?_
    simp only [List.mem_singleton, rAVE_STATUS]
    omega
  refine ⟨?_, ?_, k1.1.time (by decide), k1.1.net (by decide), k1.1.outs (by decide), ?_, k1⟩
  · rw [← e]
    exact aveState_set hn
  · rw [← e', State.fld_setFld_apart _ _ _ _ _ _ (by decide), State.fld_setFld_self _ _ _ _ (by decide)]
    rfl
  · rw [← e', aveU_of_ave (State.setFld_ave _ _ _ _), aveU_of_ave (State.setFld_ave _ _ _ _), a0]

end

section

variable {a : Fin 4096} {v : Word} {s : State} (hr : s.ready = true)

include hr

/-- OPEN is refused for the first reason of R468 that holds. -/
theorem aveCmdOpen_refused {k : Nat} (h : s.aveState a ≠ 0 ∧ k = 17 ∨ s.aveState a = 0 ∧ s.aveBound a = false ∧ k = 16 ∨
      s.aveState a = 0 ∧ s.aveBound a = true ∧ s.aveAddressed a = false ∧ k = 18 ∨
      s.aveState a = 0 ∧ s.aveBound a = true ∧ s.aveAddressed a = true ∧ s.subExists (s.aveSub a) = false ∧ k = 19) :
    exec (.aveCmdOpen a v) s = .next ((s.dropStaged .host (rAVE_CMD a)).setFld (rAVE_STATUS a) fAVE_STATUS_REASON k) := by
  refine (aveCmdOpen_runs hr).trans (congrArg Host.Outcome.next ?_)
  have h1 := State.dropStaged_regs s .host (rAVE_CMD a)
  have h2 : (s.dropStaged .host (rAVE_CMD a)).ctxs = s.ctxs := State.dropStaged_ctxs ..
  generalize s.dropStaged .host (rAVE_CMD a) = u at *
  have hs : u.aveState a = s.aveState a := State.fld_congr h1 _ _
  have hx : u.subExists (u.aveSub a) = s.subExists (s.aveSub a) := by
    rw [(aveSetup.of_regs h1).sub, State.subExists, State.subExists, State.fld_congr h1]
  rw [← hs, ← aveBound_of h1 h2, ← aveAddressed_of h1, ← hx] at h
  unfold State.aveCmdOpen
  obtain ⟨h1, rfl⟩ | ⟨h1, h2, rfl⟩ | ⟨h1, h2, h3, rfl⟩ | ⟨h1, h2, h3, h4, rfl⟩ := h
  · rw [if_pos (by simpa using h1)]
    rfl
  · rw [if_neg (by simp [h1]), if_pos (by simp [h2])]
    rfl
  · rw [if_neg (by simp [h1]), if_neg (by simp [h2]), if_pos (by simp [h3])]
    rfl
  · rw [if_neg (by simp [h1]), if_neg (by simp [h2]), if_neg (by simp [h3]), if_pos (by simp [h4])]
    rfl

section

variable (h0 : s.aveState a = 0) (hb : s.aveBound a = true) (ha : s.aveAddressed a = true) (hx : s.subExists (s.aveSub a) = true)

include h0 hb ha hx

theorem aveCmdOpen_taken {u : State} (eu : s.dropStaged .host (rAVE_CMD a) = u) : exec (.aveCmdOpen a v) s = .next
    (if s.flag (rAVE_CFG a) fAVE_CFG_ROLE then (aveStarted u a).setAveState a 2 else ((aveStarted u a).setAveState a 1).aveSendOpen a) := by
  refine (aveCmdOpen_runs hr).trans (congrArg Host.Outcome.next ?_)
  have h1 := State.dropStaged_regs s .host (rAVE_CMD a)
  have h2 : (s.dropStaged .host (rAVE_CMD a)).ctxs = s.ctxs := State.dropStaged_ctxs ..
  rw [eu] at h1 h2 ⊢
  have hs : u.aveState a = s.aveState a := State.fld_congr h1 _ _
  have hx' : u.subExists (u.aveSub a) = s.subExists (s.aveSub a) := by
    rw [(aveSetup.of_regs h1).sub, State.subExists, State.subExists, State.fld_congr h1]
  have hrole : u.flag (rAVE_CFG a) fAVE_CFG_ROLE = s.flag (rAVE_CFG a) fAVE_CFG_ROLE := flag_of_rd (State.rd_congr h1 _)
  unfold State.aveCmdOpen
  rw [if_neg (by rw [hs, h0]; decide), if_neg (by rw [aveBound_of h1 h2, hb]; decide), if_neg (by rw [aveAddressed_of h1, ha]; decide),
    if_neg (by rw [hx', hx]; decide)]
  dsimp only
  rw [hrole]
  rfl

theorem aveCmdOpen_listen (hrole : s.flag (rAVE_CFG a) fAVE_CFG_ROLE = true) :
    completes (.aveCmdOpen a v) s fun t => t.aveState a = 2 ∧ t.fld (rAVE_STATUS a) fAVE_STATUS_REASON = 0 ∧
      t.aveU a = { ave0 with own := Config.nonce s.freeCtr % 2 ^ 32, heard := s.time } ∧
      onlyIn (mRegs ||| mStaged ||| mFreeCtr ||| mAve) [rAVE_STATUS a] [] s t := by
  have e := aveCmdOpen_taken (v := v) hr h0 hb ha hx rfl
  have td := touches_State.dropStaged s .host (rAVE_CMD a)
  generalize s.dropStaged .host (rAVE_CMD a) = u at *
  rw [if_pos hrole] at e
  obtain ⟨a1, a2, -, -, -, a6, a7⟩ := aveStarted_effect (s := u) (a := a) (n := 2) (by decide) rfl
  rw [td.freeCtr (by decide), td.time (by decide)] at a6
  exact ⟨_, e, a1, a2, a6, (onlyIn.other (.refl _ _ _ _) td (by decide) (td.regs (by decide))).trans
    (a7.mono (by decide) (List.Subset.refl _) (List.Subset.refl _))⟩

theorem aveCmdOpen_opening (hrole : s.flag (rAVE_CFG a) fAVE_CFG_ROLE = false) (hc : aveCanSend a s) :
    completes (.aveCmdOpen a v) s fun t => t.aveState a = 1 ∧ t.fld (rAVE_STATUS a) fAVE_STATUS_REASON = 0 ∧
      (t.aveU a).own = Config.nonce s.freeCtr % 2 ^ 32 ∧ (t.aveU a).tries = 1 ∧ (t.aveU a).at_ = s.time ∧
      aveSent a 1 0 0 0 s.time (openBody (t.aveU a).own (!s.aveIn a) (if s.aveIn a then (t.aveU a).limit else 0)) s t ∧
      onlyIn (mRegs ||| mStaged ||| mOuts ||| mFreeCtr ||| mAve) [rAVE_STATUS a, rNET_SUB_CNT0 (s.aveSub a)] [] s t := by
  have e := aveCmdOpen_taken (v := v) hr h0 hb ha hx rfl
  have td := touches_State.dropStaged s .host (rAVE_CMD a)
  generalize s.dropStaged .host (rAVE_CMD a) = u at *
  rw [if_neg (by rw [hrole]; decide)] at e
  have hc1 := aveCanSend_of hc (td.regs (by decide)) (td.net (by decide))
  have s1 : aveSetup a s u := .of_regs (td.regs (by decide))
  obtain ⟨a1, a2, a3, a4, a5, a6, a7⟩ := aveStarted_effect (s := u) (a := a) (n := 1) (by decide) rfl
  rw [td.freeCtr (by decide), td.time (by decide)] at a6
  generalize (aveStarted u a).setAveState a 1 = w at *
  have hf := aveFree_cons (aveFree_status (a := a)) aveFree_none
  have s2 : aveSetup a s w := s1.trans (.of_onlyIn a7 a.isLt hf (by simp))
  obtain ⟨b1, b2, b3, b4, b5⟩ := aveSendOpen_effect (hc1.kept a7 a.isLt hf (by simp)) rfl
  rw [s2.sub] at b5
  have hst := b5.ave_rd (r := rAVE_STATUS a) (by rw [List.mem_singleton]; exact status_ne_net (aveSub_lt s a)) (by simp only [rAVE_STATUS]; omega) (by simp)
  have ht := a3.trans (td.time (by decide))
  rw [ht] at b3 b4
  rw [s2.inb] at b4
  refine ⟨_, e, (aveState_of_rd hst).trans a1, (fld_of_rd hst).trans a2, b1.trans (by rw [a6]), b2.trans (by rw [a6]; rfl), b3,
    b4.from s2 (a5.trans (td.outs (by decide))), ?_⟩
  exact ((onlyIn.other (.refl _ _ _ _) td (by decide) (td.regs (by decide))).trans (a7.mono (by decide) (by simp) (List.Subset.refl _))).trans
    (b5.mono (by decide) (by simp) (List.Subset.refl _))

end

theorem aveCmdClose_effect (h3 : s.aveState a = 3) (hp : (s.aveU a).part = []) (hc : aveCanSend a s) :
    completes (.aveCmdClose a v) s fun t => t.aveState a = 4 ∧ (t.aveU a).tries = 1 ∧ (t.aveU a).at_ = s.time ∧
        aveSent a 6 0 (s.aveU a).next 0 0 [] s t ∧
        onlyIn (mRegs ||| mStaged ||| mOuts ||| mAve) [rAVE_STATUS a, rNET_SUB_CNT0 (s.aveSub a)] [] s t := by
  have e := aveCmdClose_runs (a := a) (v := v) hr
  have td := touches_State.dropStaged s .host (rAVE_CMD a)
  generalize s.dropStaged .host (rAVE_CMD a) = u at *
  have hu : u.aveU a = s.aveU a := aveU_of_ave (td.ave (by decide)) a
  have hst : u.aveState a = s.aveState a := State.fld_congr (td.regs (by decide)) _ _
  unfold State.aveCmdClose at e
  rw [if_pos (hst.trans h3), aveLeave_whole (by rw [hu]; exact hp)] at e
  have k0 : onlyIn (mRegs ||| mStaged ||| mOuts ||| mAve) [rAVE_STATUS a, rNET_SUB_CNT0 (s.aveSub a)] [] s u :=
    .other (.refl _ _ _ _) td (by decide) (td.regs (by decide))
  have k1 : onlyIn (mRegs ||| mStaged ||| mOuts ||| mAve ||| mGlb) [rAVE_STATUS a, rNET_SUB_CNT0 (s.aveSub a)] [] s
      (u.updAve a fun v => { v with ahead := [], part := [], ackAt := none }) :=
    .other (k0.mono (by decide) (List.Subset.refl _) (List.Subset.refl _)) (touches_State.updAve _ _ _) (by decide) (State.updAve_regs _ _ _)
  have a1 := aveU_updAve_same u a fun v => { v with ahead := [], part := [], ackAt := none }
  have n1 : (u.updAve a fun v => { v with ahead := [], part := [], ackAt := none }).net = s.net := (State.updAve_net _ _ _).trans (td.net (by decide))
  have o1 : (u.updAve a fun v => { v with ahead := [], part := [], ackAt := none }).outs = s.outs := (State.updAve_outs _ _ _).trans (td.outs (by decide))
  have t1 : (u.updAve a fun v => { v with ahead := [], part := [], ackAt := none }).time = s.time := (State.updAve_time _ _ _).trans (td.time (by decide))
  generalize (u.updAve a fun v => { v with ahead := [], part := [], ackAt := none }) = w at *
  have k2 : onlyIn (mRegs ||| mStaged ||| mOuts ||| mAve) [rAVE_STATUS a, rNET_SUB_CNT0 (s.aveSub a)] [] s
      ((w.setAveState a 4).updAve a fun v => { v with tries := 0 }) :=
    .of_hi (.other (.setFld k1) (touches_State.updAve _ _ _) (by decide) (State.updAve_regs _ _ _)) aveOwn_high
  have a2 := (aveU_updAve_same (w.setAveState a 4) a fun v => { v with tries := 0 }).trans
    (congrArg (fun v : Ave => { v with tries := 0 }) (aveU_of_ave (State.setFld_ave _ _ _ _) a))
  have st2 : ((w.setAveState a 4).updAve a fun v => { v with tries := 0 }).aveState a = 4 := (aveState_upd _).trans (aveState_set (by decide))
  have n2 : ((w.setAveState a 4).updAve a fun v => { v with tries := 0 }).net = s.net := ((State.updAve_net _ _ _).trans (State.setFld_net _ _ _ _)).trans n1
  have o2 : ((w.setAveState a 4).updAve a fun v => { v with tries := 0 }).outs = s.outs := ((State.updAve_outs _ _ _).trans (State.setFld_outs _ _ _ _)).trans o1
  have t2 : ((w.setAveState a 4).updAve a fun v => { v with tries := 0 }).time = s.time := ((State.updAve_time _ _ _).trans (State.setFld_time _ _ _ _)).trans t1
  generalize ((w.setAveState a 4).updAve a fun v => { v with tries := 0 }) = z at *
  have s2 : aveSetup a s z := .of_onlyIn k2 a.isLt aveOwn_free (by simp)
  obtain ⟨b1, b2, b3⟩ := aveSendClose_effect (hc.kept k2 a.isLt aveOwn_free (by simp)) rfl
  rw [s2.sub] at b3
  have hz := b3.ave_rd (r := rAVE_STATUS a) (by rw [List.mem_singleton]; exact status_ne_net (aveSub_lt s a)) (by simp only [rAVE_STATUS]; omega) (by simp)
  rw [a2, a1, hu] at b2
  refine ⟨_, e, (aveState_of_rd hz).trans st2, by rw [b1, a2], by rw [b1, t2], b2.from s2 o2, k2.trans (b3.mono (by decide) (by simp) (List.Subset.refl _))⟩

theorem aveCmdClose_refused (h : s.aveState a ≠ 3) :
    exec (.aveCmdClose a v) s = .next ((s.dropStaged .host (rAVE_CMD a)).setFld (rAVE_STATUS a) fAVE_STATUS_REASON 17) :=
  (aveCmdClose_runs hr).trans (congrArg Host.Outcome.next (if_neg (by
    rw [show (s.dropStaged .host (rAVE_CMD a)).aveState a = s.aveState a from State.fld_congr (State.dropStaged_regs ..) _ _]
    exact h)))

theorem aveCmdReset_refused (h : s.aveState a ≠ 5) :
    exec (.aveCmdReset a v) s = .next ((s.dropStaged .host (rAVE_CMD a)).setFld (rAVE_STATUS a) fAVE_STATUS_REASON 17) :=
  (aveCmdReset_runs hr).trans (congrArg Host.Outcome.next (if_neg (by
    rw [show (s.dropStaged .host (rAVE_CMD a)).aveState a = s.aveState a from State.fld_congr (State.dropStaged_regs ..) _ _]
    exact h)))

theorem aveCmdReset_effect (h : s.aveState a = 5) : completes (.aveCmdReset a v) s fun t => t.aveState a = 0 ∧
    t.fld (rAVE_STATUS a) fAVE_STATUS_REASON = 0 ∧ onlyIn (mRegs ||| mStaged) [rAVE_STATUS a] [] s t := by
  have e := aveCmdReset_runs (a := a) (v := v) hr
  have td := touches_State.dropStaged s .host (rAVE_CMD a)
  generalize s.dropStaged .host (rAVE_CMD a) = u at *
  have hst : u.aveState a = s.aveState a := State.fld_congr (td.regs (by decide)) _ _
  unfold State.aveCmdReset at e
  rw [if_pos (hst.trans h)] at e
  refine ⟨_, e, by simp (disch := decide) [State.aveState], by simp (disch := decide), .of_hi (.setFlds (.other (.refl _ _ _ _) td (by decide)
    (td.regs (by decide)))) ?_⟩
  simp only [List.mem_singleton, rAVE_STATUS]
  omega

end

end Sys2Proof

end

section
/-! SUPPORT. The end of a destination's holds, and the command SKIP of an avenue (R341, R346, R475). -/

set_option Elab.async false

namespace Sys2Proof

open Sys2Proof.Machine

/-! ### Where a destination stands once its context is settled -/

theorem skipPast_congr {b c : Ctx} (h : b.recs = c.recs) (d n p : Nat) : b.skipPast d n p = c.skipPast d n p := by
  induction n generalizing p with
  | zero => rfl
  | succ n ih =>
    unfold Ctx.skipPast
    rw [h]
    split
    · split
      · exact ih _
      · rfl
    · rfl

theorem destList_nodup (c : Ctx) : c.destList.Nodup := List.Nodup.filter _ List.nodup_range

theorem passDest_other (c : Ctx) {d k : Nat} (h : d ≠ k) : (c.passDest k).dest d = c.dest d :=
  (dest_updDest c k d _).elim id fun e => absurd e.1 h

theorem passDests_other (l : List Nat) (c : Ctx) {d : Nat} (h : d ∉ l) : (l.foldl Ctx.passDest c).dest d = c.dest d := by
  induction l generalizing c with
  | nil => rfl
  | cons k l ih =>
    rw [List.mem_cons, not_or] at h
    exact (ih (c.passDest k) h.2).trans (passDest_other c h.1)

theorem passDest_recs (c : Ctx) (k : Nat) : ∃ ds, c.passDest k = { c with dests := ds } := ⟨_, rfl⟩

/-- Each destination passes the records left out there once, whatever the others do. -/
theorem passDests_same (l : List Nat) {c : Ctx} {d : Nat} (hn : l.Nodup) (hd : d ∈ l) (hl : d < c.dests.length) :
    ((l.foldl Ctx.passDest c).dest d).fin = c.skipPast d c.recs.length (c.dest d).fin ∧ ((l.foldl Ctx.passDest c).dest d).gap = (c.dest d).gap ∧
      (l.foldl Ctx.passDest c).dests.length = c.dests.length := by
  induction l generalizing c with
  | nil => exact absurd hd List.not_mem_nil
  | cons k l ih =>
    obtain ⟨hk, hn⟩ := List.nodup_cons.mp hn
    have hlen : (c.passDest k).dests.length = c.dests.length := dests_updDest_length c k _
    have hlens (l : List Nat) (b : Ctx) : (l.foldl Ctx.passDest b).dests.length = b.dests.length := by
      induction l generalizing b with
      | nil => rfl
      | cons j l ih => exact (ih (b.passDest j)).trans (dests_updDest_length b j _)
    rw [List.foldl_cons]
    obtain rfl | hd := List.mem_cons.mp hd
    · rw [passDests_other l (c.passDest d) hk, hlens, hlen]
      have e := dest_updDest_same c hl fun t => { t with
        fin := c.skipPast d c.recs.length (c.dest d).fin
        begun := max t.begun (c.skipPast d c.recs.length (c.dest d).fin)
        doneTo := max t.doneTo (c.skipPast d c.recs.length (c.dest d).fin) }
      have e' : (c.passDest d).dest d = _ := e
      rw [e']
      exact ⟨rfl, rfl, rfl⟩
    · have hne : d ≠ k := fun e => hk (e ▸ hd)
      obtain ⟨h1, h2, h3⟩ := ih (c := c.passDest k) hn hd (by rw [hlen]; exact hl)
      have hother := passDest_other c hne
      obtain ⟨ds, he⟩ := passDest_recs c k
      rw [hother] at h1 h2
      refine ⟨h1.trans ?_, h2, h3.trans hlen⟩
      rw [he]
      exact skipPast_congr (by rfl) _ _ _

section

variable {s t : State} {x d p : Nat}

/-- The end of a destination's hold up to a position: it stands there or further, past the records left out at it; its context keeps all but its
cord. -/
theorem finishTo_effect (hs : (s.ctx x).st = .opened) (hd : d ∈ (s.ctx x).destList) (hl : d < (s.ctx x).dests.length) (e : s.finishTo x d p = t) :
    ∃ rs ds es hd, t.ctx x = { s.ctx x with recs := rs, dests := ds, exts := es, held := hd } ∧ d < ds.length ∧
      (ds.getD d dest0).fin = (s.ctx x).skipPast d (s.ctx x).recs.length (max ((s.ctx x).dest d).fin p) ∧
      (ds.getD d dest0).gap = ((s.ctx x).dest d).gap := by
  unfold State.finishTo at e
  obtain ⟨c, hc⟩ : ∃ c, c = (s.ctx x).updDest d fun t => { t with fin := max t.fin p, begun := max t.begun p, doneTo := max t.doneTo p } := ⟨_, rfl⟩
  have c1 := ctx_updCtx_same s x fun c => c.updDest d fun t => { t with fin := max t.fin p, begun := max t.begun p, doneTo := max t.doneTo p }
  rw [← hc] at c1
  generalize (s.updCtx x fun c => c.updDest d _) = u at *
  have hdest : c.dest d = { (s.ctx x).dest d with
      fin := max ((s.ctx x).dest d).fin p, begun := max ((s.ctx x).dest d).begun p, doneTo := max ((s.ctx x).dest d).doneTo p } := by
    rw [hc]
    exact dest_updDest_same _ hl _
  have hlen : c.dests.length = (s.ctx x).dests.length := by
    rw [hc]
    exact dests_updDest_length _ _ _
  have hu : (u.ctx x).st = .opened := by
    rw [c1, hc]
    exact hs
  rw [settle_eq] at e
  have c2 := ctx_updCtx_same u x Ctx.settled
  generalize u.updCtx x Ctx.settled = v at *
  obtain ⟨es, hd', c3⟩ := sameCord_settleBillets ((v.ctx x).exts.map (·.billet)).eraseDups v x
  generalize ((v.ctx x).exts.map (·.billet)).eraseDups.foldl State.settleBillet v = w at *
  rw [c2, c1] at c3
  obtain ⟨h1, h2, h3⟩ := passDests_same c.destList (c := c) (destList_nodup c) (by rw [hc]; exact hd) (by rw [hlen]; exact hl)
  obtain ⟨ds, h4⟩ := passDests_eq c.destList c
  rw [settled_passDest] at c3
  generalize List.filter _ (c.destList.foldl Ctx.passDest c).recs = rs at c3
  rw [h4] at c3 h1 h2 h3
  rw [closeIfDrained_open (by rw [c3, hc]; exact hs)] at e
  have hskip (q : Nat) : c.skipPast d c.recs.length q = (s.ctx x).skipPast d (s.ctx x).recs.length q := by
    rw [hc]
    exact skipPast_congr (by rfl) _ _ _
  rw [hdest, hskip] at h1
  rw [hdest] at h2
  rw [hlen] at h3
  have h3' : ds.length = (s.ctx x).dests.length := h3
  subst e
  refine ⟨rs, ds, es, hd', c3.trans ?_, by rw [h3']; exact hl, h1, h2⟩
  rw [hc]
  rfl

end

/-! ### SKIP -/

theorem findDest_mem {c : Ctx} {ty ix d : Nat} (h : c.findDest ty ix = some d) : d ∈ c.destList := List.mem_of_find?_eq_some h

section

variable {a : Fin 4096} {v : Word} {s : State} {x : Nat} (hr : s.ready = true)

include hr

theorem aveCmdSkip_refused (h : s.aveState a = 3) :
    exec (.aveCmdSkip a v) s = .next ((s.dropStaged .host (rAVE_CMD a)).setFld (rAVE_STATUS a) fAVE_STATUS_REASON 17) :=
  (aveCmdSkip_runs hr).trans (congrArg Host.Outcome.next (if_pos (by
    rw [show (s.dropStaged .host (rAVE_CMD a)).aveState a = s.aveState a from State.fld_congr (State.dropStaged_regs ..) _ _]
    exact h)))

variable (hx : s.aveCtx a = x) (h3 : s.aveState a ≠ 3)

include hx h3

theorem aveCmdSkip_none (hn : (s.ctx x).findDest 3 a = none) : exec (.aveCmdSkip a v) s = .next (s.dropStaged .host (rAVE_CMD a)) := by
  refine (aveCmdSkip_runs hr).trans (congrArg Host.Outcome.next ?_)
  have td := touches_State.dropStaged s .host (rAVE_CMD a)
  generalize s.dropStaged .host (rAVE_CMD a) = u at *
  have hset : aveSetup a s u := .of_regs (td.regs (by decide))
  have hst : u.aveState a = s.aveState a := State.fld_congr (td.regs (by decide)) _ _
  have hdrop : u.aveDrop a = (0, u) := by
    unfold State.aveDrop
    dsimp only
    rw [hset.ctx, hx, ctx_of_ctxs (td.ctxs (by decide)), hn]
  unfold State.aveCmdSkip
  rw [if_neg (by rw [hst]; exact h3)]
  dsimp only
  rw [hdrop]
  rfl

theorem aveCmdSkip_effect {d n : Nat} (hd : (s.ctx x).findDest 3 a = some d) (hl : d < (s.ctx x).dests.length) (ho : (s.ctx x).st = .opened)
    (hn : (s.ctx x).itemsFrom d ((s.ctx x).dest d).fin = n) (h0 : 0 < n) :
    completes (.aveCmdSkip a v) s fun t => (t.ctx x).lost = satN 64 ((s.ctx x).lost + n) ∧
        ((t.ctx x).dest d).fin =
          (s.ctx x).skipPast d (s.ctx x).recs.length (max ((s.ctx x).dest d).fin ((s.ctx x).destEnd d)) ∧
        ((t.ctx x).dest d).gap = ((s.ctx x).dest d).gap ++ [((s.ctx x).dest d).fin] ∧ t.aveState a = s.aveState a ∧
        Touches (mRegs ||| mStaged ||| mCtxs ||| mBillets) s t := by
  have e := aveCmdSkip_runs (a := a) (v := v) hr
  have td := touches_State.dropStaged s .host (rAVE_CMD a)
  generalize s.dropStaged .host (rAVE_CMD a) = u at *
  have kt := touches_State.aveCmdSkip u a
  have hset : aveSetup a s u := .of_regs (td.regs (by decide))
  have hst : u.aveState a = s.aveState a := State.fld_congr (td.regs (by decide)) _ _
  have hc : u.ctx x = s.ctx x := ctx_of_ctxs (td.ctxs (by decide)) x
  obtain ⟨w, hw⟩ : ∃ w, (u.updCtx x fun c => { c with lost := satN 64 (c.lost + n) }).finishTo x d ((s.ctx x).destEnd d) = w := ⟨_, rfl⟩
  have hdrop : u.aveDrop a = (n, w) := by
    unfold State.aveDrop
    dsimp only
    rw [hset.ctx, hx, hc, hd]
    dsimp only
    rw [hn, hw]
  have c1 : (u.updCtx x fun c => { c with lost := satN 64 (c.lost + n) }).ctx x = { s.ctx x with lost := satN 64 ((s.ctx x).lost + n) } := by
    rw [ctx_updCtx_same, hc]
  have k1 : onlyIn (mRegs ||| mCtxs ||| mBillets) [rSTO_CNT0] [] u w := by
    rw [← hw]
    exact (onlyIn.other (.refl _ _ _ _) (touches_State.updCtx u x _) (by decide) (updCtx_regs _ _ _)).trans
      ((onlyIn_finishTo _ x d _).mono (by decide) (List.Subset.refl _) (List.Subset.refl _))
  generalize (u.updCtx x fun c => { c with lost := satN 64 (c.lost + n) }) = z at *
  obtain ⟨rs, ds, es, hd', f1, f2, f3, f4⟩ := finishTo_effect (s := z) (by rw [c1]; exact ho) (by rw [c1]; exact findDest_mem hd) (by rw [c1]; exact hl) hw
  rw [c1] at f1 f3 f4
  have hfind : (w.ctx x).findDest 3 a = some d := by
    rw [f1]
    exact hd
  have hgo : u.aveCmdSkip a = w.updCtx x fun c => c.updDest d fun t => { t with gap := t.gap ++ [((s.ctx x).dest d).fin] } := by
    unfold State.aveCmdSkip
    rw [if_neg (by rw [hst]; exact h3)]
    dsimp only
    rw [hdrop, hset.ctx, hx]
    dsimp only
    rw [if_neg (Nat.ne_of_gt h0), hfind, hc]
  have hf : ({ s.ctx x with lost := satN 64 ((s.ctx x).lost + n), recs := rs, dests := ds, exts := es, held := hd' } : Ctx).updDest d
      (fun t => { t with gap := t.gap ++ [((s.ctx x).dest d).fin] }) =
      { s.ctx x with
        lost := satN 64 ((s.ctx x).lost + n), recs := rs, exts := es, held := hd'
        dests := modAt (fun t => { t with gap := t.gap ++ [((s.ctx x).dest d).fin] }) ds d } := rfl
  have hctx : (u.aveCmdSkip a).ctx x = { s.ctx x with
      lost := satN 64 ((s.ctx x).lost + n), recs := rs, exts := es, held := hd'
      dests := modAt (fun t => { t with gap := t.gap ++ [((s.ctx x).dest d).fin] }) ds d } := by
    rw [hgo, ctx_updCtx_same, f1, hf]
  have hdest : ((u.aveCmdSkip a).ctx x).dest d = { ds.getD d dest0 with gap := (ds.getD d dest0).gap ++ [((s.ctx x).dest d).fin] } := by
    rw [hctx]
    exact modAt_getD _ dest0 f2
  refine ⟨_, e, by rw [hctx], ?_, ?_, ?_, (td.mono (by decide)).trans (kt.mono (by decide))⟩
  · rw [hdest]
    exact f3.trans (skipPast_congr (by rfl) _ _ _)
  · rw [hdest]
    exact congrArg (· ++ _) f4
  · rw [← hst, hgo]
    exact aveState_of_rd ((State.rd_congr (updCtx_regs _ _ _) _).trans (k1.ave_rd (by simp only [List.mem_singleton, rAVE_STATUS, rSTO_CNT0]; omega)
      (by simp only [rAVE_STATUS]; omega) (by simp)))

end

end Sys2Proof

end

section
/-! SUPPORT. Received packets that no avenue takes, and violations (R476, R477). -/

set_option Elab.async false

namespace Sys2Proof

open Sys2Proof.Machine

/-! ### Which avenue a packet is for -/

/-- The command brings a packet of the TYPE to a sub-port. -/
def bringsPacket (e : (Fin 16 → AvePkt → Instr) × Nat) : Prop :=
  e ∈ [(Instr.pktOpen, 1), (.pktOpenAck, 2), (.pktData, 3), (.pktAck, 4), (.pktNak, 5), (.pktClose, 6), (.pktCloseAck, 7), (.pktTrigger, 8), (.pktTrigAck, 9)]

section

variable {i : Fin 16} {p q : AvePkt} {s t : State} {a ty : Nat}

theorem packet_runs (hg : s.glb ≠ 0) {e : (Fin 16 → AvePkt → Instr) × Nat} (he : bringsPacket e) :
    exec (e.1 i p) s = .next (s.packetIn i e.2 p) := by
  simp only [bringsPacket, List.mem_cons, List.not_mem_nil, or_false] at he
  obtain rfl | rfl | rfl | rfl | rfl | rfl | rfl | rfl | rfl := he
  all_goals exact next_live hg rfl

theorem packetType_small {e : (Fin 16 → AvePkt → Instr) × Nat} (he : bringsPacket e) : e.2 < 16 := by
  simp only [bringsPacket, List.mem_cons, List.not_mem_nil, or_false] at he
  obtain rfl | rfl | rfl | rfl | rfl | rfl | rfl | rfl | rfl := he
  all_goals decide

theorem packetIn_down (h : s.linkUp i = false) : s.packetIn i ty p = s := if_neg (by rw [h]; decide)

theorem packetIn_up (h : s.linkUp i = true) (hq : q = { p with w0 := fset p.w0 ⟨12, 4⟩ ty }) : s.packetIn i ty p = s.aveRx i q := by
  rw [hq]
  exact if_pos h

theorem pktType_set (h : ty < 16) (hq : q = { p with w0 := fset p.w0 ⟨12, 4⟩ ty }) : pktType q = ty := by
  rw [hq]
  exact (fget_fset_self _ _ _ (by decide)).trans (Nat.mod_eq_of_lt h)

section

variable (ha : fget q.w0 ⟨44, 12⟩ = a)

include ha

theorem aveRx_unmatched (hm : s.aveMatches a q = false) :
    s.aveRx i q = if pktHeaderOk q then s.aveUnmatched i q else s.addSat (rAVE_UNATTR i) fAVE_UNATTR_BAD_HEADER 1 := by
  unfold State.aveRx
  dsimp only
  rw [ha, hm]
  exact if_pos rfl

variable (hm : s.aveMatches a q = true)

include hm

theorem aveRx_quarantined (h6 : s.aveState a = 6) : s.aveRx i q = s.addSat (rAVE_CNT1 a) fAVE_CNT1_QDROP 1 := by
  unfold State.aveRx
  dsimp only
  rw [ha, hm, if_neg (by decide), if_pos h6]

variable (h6 : s.aveState a ≠ 6)

include h6

theorem aveRx_badHeader (hh : pktHeaderOk q = false) : s.aveRx i q = s.aveCount a 1 := by
  unfold State.aveRx
  dsimp only
  rw [ha, hm, if_neg (by decide), if_neg h6, hh]
  exact if_pos rfl

variable (hh : pktHeaderOk q = true)

include hh

theorem aveRx_badNonce (ht : pktType q ≠ 1) (hn : fget q.w2 ⟨32, 32⟩ ≠ (s.aveU a).own) :
    s.aveRx i q = s.addSat (rAVE_UNATTR i) fAVE_UNATTR_BAD_NONCE 1 := by
  unfold State.aveRx
  dsimp only
  rw [ha, hm, if_neg (by decide), if_neg h6, hh, if_neg (by decide), if_pos (by simp [ht, hn])]

theorem aveRx_taken (hn : pktType q = 1 ∨ fget q.w2 ⟨32, 32⟩ = (s.aveU a).own) (hl : pktLenOk q (s.aveMax i q.v6) = true) :
    s.aveRx i q = s.avePacket a q := by
  unfold State.aveRx
  dsimp only
  rw [ha, hm, if_neg (by decide), if_neg h6, hh, if_neg (by decide), if_neg, if_neg (by rw [hl]; decide)]
  obtain h | h := hn
  · simp [h]
  · simp [h]

end

/-- A packet that an avenue takes meets its state machine. -/
theorem packetIn_taken (ht : ty < 16) (h : aveTakes i ty a p q s) : s.packetIn i ty p = s.avePacket a q ∧ pktType q = ty := by
  obtain ⟨-, h2, h3, h4, h5, h6, h7, h8, h9⟩ := h
  have hty := pktType_set ht h3
  exact ⟨(packetIn_up h2 h3).trans (aveRx_taken h4 h6 h7 h5 (by rw [hty]; exact h8) h9), hty⟩

theorem packet_taken (h : aveTakes i ty a p q s) {e : Fin 16 → AvePkt → Instr} (he : bringsPacket (e, ty)) :
    exec (e i p) s = .next (s.avePacket a q) ∧ pktType q = ty := by
  obtain ⟨h1, h2⟩ := packetIn_taken (packetType_small he) h
  exact ⟨(packet_runs h.1 he).trans (congrArg Host.Outcome.next h1), h2⟩

theorem aveTakes_lt (h : aveTakes i ty a p q s) : a < 4096 := by
  obtain ⟨-, -, -, h4, -⟩ := h
  rw [← h4]
  exact fget_lt _ _

theorem aveTakes_up (h : aveTakes i ty a p q s) : s.aveState a ≠ 0 := by
  obtain ⟨-, -, -, -, -, h6, -⟩ := h
  simp only [State.aveMatches, Bool.and_eq_true] at h6
  obtain ⟨⟨⟨⟨⟨h, -⟩, -⟩, -⟩, -⟩, -⟩ := h6
  simpa using h

/-! ### Packets that no avenue takes -/

theorem aveUnmatched_effect (hi : i.val < 16) (e : s.aveUnmatched i q = t) :
    t.fld (rAVE_UNATTR i) fAVE_UNATTR_NO_AVENUE = satN 32 (s.fld (rAVE_UNATTR i) fAVE_UNATTR_NO_AVENUE + 1) ∧ t.ave = s.ave ∧
      onlyIn (mRegs ||| mOuts ||| mNet) [rAVE_UNATTR i, rNET_SUB_CNT0 i] [] s t := by
  have ka := touches_State.aveUnmatched s i q
  rw [e] at ka
  unfold State.aveUnmatched at e
  dsimp only at e
  have f1 := State.fld_addSat_self s (rAVE_UNATTR i) fAVE_UNATTR_NO_AVENUE 1 (by decide)
  have k1 : onlyIn (mRegs ||| mOuts ||| mNet ||| mGlb) [rAVE_UNATTR i, rNET_SUB_CNT0 i] [] s (s.addSat (rAVE_UNATTR i) fAVE_UNATTR_NO_AVENUE 1) :=
    .addSat (.refl _ _ _ _)
  generalize s.addSat (rAVE_UNATTR i) fAVE_UNATTR_NO_AVENUE 1 = u at *
  have hr : ∀ r ∈ [rAVE_UNATTR i, rNET_SUB_CNT0 i.val], 0x1000 ≤ r := by
    simp only [List.mem_cons, List.not_mem_nil, or_false, rAVE_UNATTR, rNET_SUB_CNT0]
    omega
  refine ⟨?_, ka.ave (by decide), ?_⟩
  · obtain ⟨-, e⟩ | ⟨-, e⟩ := ite_eq_iff.mp e
    · rw [← e, f1]
    · have k2 := onlyIn_netSend (u.updNet i fun n => { n with nak := some s.time }) i
      rw [← e, ← f1]
      refine fld_of_rd (((k2 _).ave_rd ?_ ?_ (by simp)).trans (State.rd_congr (State.updNet_regs _ _ _) _))
      · simp only [List.mem_singleton, rAVE_UNATTR, rNET_SUB_CNT0]
        omega
      · simp only [rAVE_UNATTR]
        omega
  · obtain ⟨-, e⟩ | ⟨-, e⟩ := ite_eq_iff.mp e
    · rw [← e]
      exact .of_hi k1 hr
    · have k2 := onlyIn_netSend (u.updNet i fun n => { n with nak := some s.time }) i
      rw [← e]
      exact .of_hi ((k1.other (touches_State.updNet _ _ _) (by decide) (State.updNet_regs _ _ _)).trans
        ((k2 _).mono (by decide) (by simp) (List.Subset.refl _))) hr

end

/-! ### Violations -/

section

variable {a code : Nat} {s t : State}

theorem aveCount_effect (ha : a < 4096) (hc : code < 16) (e : s.aveCount a code = t) :
    t.fld (rAVE_STATUS a) fAVE_STATUS_VIOL = satN 16 (s.fld (rAVE_STATUS a) fAVE_STATUS_VIOL + 1) ∧
      t.fld (rAVE_STATUS a) fAVE_STATUS_LAST_VIOL = code ∧ t.aveState a = s.aveState a ∧
      t.fld (rAVE_STATUS a) fAVE_STATUS_QUARANTINES = s.fld (rAVE_STATUS a) fAVE_STATUS_QUARANTINES ∧ onlyIn mEvent [rAVE_STATUS a] [931] s t := by
  have hr : rAVE_STATUS a < 0x10000 ∨ 0x12000 + 8 * 931 < rAVE_STATUS a := .inr (by simp only [rAVE_STATUS]; omega)
  unfold State.aveCount at e
  have f (g : Fld) : t.fld (rAVE_STATUS a) g =
      ((s.addSat (rAVE_STATUS a) fAVE_STATUS_VIOL 1).setFld (rAVE_STATUS a) fAVE_STATUS_LAST_VIOL code).fld (rAVE_STATUS a) g := by
    rw [← e, State.fld_raiseLim_other _ _ _ _ _ _ _ _ _ hr]
  refine ⟨?_, ?_, ?_, ?_, ?_⟩
  · rw [f, State.fld_setFld_apart _ _ _ _ _ _ (by decide), State.fld_addSat_self _ _ _ _ (by decide)]
  · rw [f, State.fld_setFld_self _ _ _ _ (by decide)]
    exact Nat.mod_eq_of_lt hc
  · rw [State.aveState, f, State.fld_setFld_apart _ _ _ _ _ _ (by decide), State.fld_addSat_apart _ _ _ _ _ _ (by decide), State.aveState]
  · rw [f, State.fld_setFld_apart _ _ _ _ _ _ (by decide), State.fld_addSat_apart _ _ _ _ _ _ (by decide)]
  · rw [← e]
    refine .of_hi (.raiseLim (.setFld (.addSat (.refl _ _ _ _)))) ?_
    simp only [List.mem_singleton, rAVE_STATUS]
    omega

/-- A NAK: at most a packet leaves, and the avenue remembers when. -/
theorem aveNak_effect {reason ofs : Nat} {p : AvePkt} (e : s.aveNak a reason ofs p = t) :
    (∃ n, t.aveU a = { s.aveU a with nak := n }) ∧ onlyIn (mRegs ||| mOuts ||| mNet ||| mAve) [rNET_SUB_CNT0 (s.aveSub a)] [] s t := by
  unfold State.aveNak at e
  dsimp only at e
  obtain ⟨-, e⟩ | ⟨-, e⟩ := ite_eq_iff.mp e
  · subst e
    exact ⟨⟨_, rfl⟩, .refl _ _ _ _⟩
  · have ku := touches_State.updAve s a fun v => { v with nak := some s.time }
    have ru := State.updAve_regs s a fun v => { v with nak := some s.time }
    have au := aveU_updAve_same s a fun v => { v with nak := some s.time }
    generalize s.updAve a _ = u at *
    have k := onlyIn_aveSend u a 5 0 ofs reason 0 (leBytes 8 p.w0.toNat ++ leBytes 24 0)
    have ks := touches_State.aveSend u a 5 0 ofs reason 0 (leBytes 8 p.w0.toNat ++ leBytes 24 0)
    rw [(aveSetup.of_regs ru).sub] at k
    rw [e] at k ks
    exact ⟨⟨_, (aveU_of_ave (ks.ave (by decide)) a).trans au⟩,
      (onlyIn.other (.refl _ _ _ _) ku (by decide) ru).trans (k.mono (by decide) (List.Subset.refl _) (List.Subset.refl _))⟩

/-- A violation that is counted, before it is judged whether it quarantines the avenue: what the avenue then is. -/
theorem aveViolated {reason ofs : Nat} {p : AvePkt} (ha : a < 4096) (hc : code < 16) {u : State} (eu : (s.aveNak a reason ofs p).aveCount a code = u) :
    u.fld (rAVE_STATUS a) fAVE_STATUS_VIOL = satN 16 (s.fld (rAVE_STATUS a) fAVE_STATUS_VIOL + 1) ∧
      u.fld (rAVE_STATUS a) fAVE_STATUS_LAST_VIOL = code ∧ u.aveState a = s.aveState a ∧
      u.fld (rAVE_STATUS a) fAVE_STATUS_QUARANTINES = s.fld (rAVE_STATUS a) fAVE_STATUS_QUARANTINES ∧ (∃ n, u.aveU a = { s.aveU a with nak := n }) ∧
      u.time = s.time ∧ aveSetup a s u ∧
      onlyIn (mEvent ||| mNet ||| mAve) [rAVE_STATUS a, rNET_SUB_CNT0 (s.aveSub a)] [931] s u := by
  obtain ⟨⟨n, a1⟩, a2⟩ := aveNak_effect (s := s) (a := a) (reason := reason) (ofs := ofs) (p := p) rfl
  generalize s.aveNak a reason ofs p = w at *
  obtain ⟨b1, b2, b3, b4, b5⟩ := aveCount_effect ha hc eu
  have hw := a2.ave_rd (r := rAVE_STATUS a) (by rw [List.mem_singleton]; exact status_ne_net (aveSub_lt s a)) (by simp only [rAVE_STATUS]; omega) (by simp)
  have k : onlyIn (mEvent ||| mNet ||| mAve) [rAVE_STATUS a, rNET_SUB_CNT0 (s.aveSub a)] [931] s u :=
    (a2.mono (by decide) (by simp) (List.nil_subset _)).trans (b5.mono (by decide) (by simp) (List.Subset.refl _))
  exact ⟨by rw [b1, fld_of_rd hw], b2, b3.trans (aveState_of_rd hw), b4.trans (fld_of_rd hw), ⟨n, (aveU_of_ave (b5.1.ave (by decide)) a).trans a1⟩,
    k.1.time (by decide), .of_onlyIn k ha aveOwn_free (by simp), k⟩

/-- A violation no more than VIOL_MAX within a second: it is counted, and the avenue goes on. -/
theorem aveReject_counted {ofs : Nat} {p : AvePkt} (ha : a < 4096) (hc : code < 16) (hv : (s.aveU a).viols.length < s.avePar a fAVE_PARAM_VIOL_MAX)
    (e : s.aveReject a code ofs p = t) :
    t.fld (rAVE_STATUS a) fAVE_STATUS_VIOL = satN 16 (s.fld (rAVE_STATUS a) fAVE_STATUS_VIOL + 1) ∧
      t.fld (rAVE_STATUS a) fAVE_STATUS_LAST_VIOL = code ∧ t.aveState a = s.aveState a ∧ (∃ n vs, t.aveU a = { s.aveU a with nak := n, viols := vs }) ∧
      onlyIn (mEvent ||| mNet ||| mAve) [rAVE_STATUS a, rNET_SUB_CNT0 (s.aveSub a)] [931] s t := by
  unfold State.aveReject State.aveViol at e
  dsimp only at e
  obtain ⟨b1, b2, b3, -, ⟨n, b5⟩, -, b7, b8⟩ := aveViolated (s := s) (reason := code) (ofs := ofs) (p := p) ha hc rfl
  generalize (s.aveNak a code ofs p).aveCount a code = u at *
  have hlen : ((u.aveU a).viols.filter fun t => decide ((s.aveNak a code ofs p).time < t + (s.aveNak a code ofs p).usTicks 1000000)).length ≤
      (s.aveU a).viols.length := by
    rw [b5]
    exact List.length_filter_le _ _
  generalize (u.aveU a).viols.filter _ = near at *
  generalize (s.aveNak a code ofs p).time = now at *
  have ru := State.updAve_regs u a fun v => { v with viols := near ++ [now] }
  have ku := touches_State.updAve u a fun v => { v with viols := near ++ [now] }
  have au := aveU_updAve_same u a fun v => { v with viols := near ++ [now] }
  generalize u.updAve a _ = w at *
  have hpar : w.avePar a fAVE_PARAM_VIOL_MAX = s.avePar a fAVE_PARAM_VIOL_MAX := (b7.trans (.of_regs ru)).par _
  rw [if_neg] at e
  · subst e
    exact ⟨(State.fld_congr ru _ _).trans b1, (State.fld_congr ru _ _).trans b2, (State.fld_congr ru _ _).trans b3, ⟨n, near ++ [now], by rw [au, b5]⟩,
      b8.other ku (by decide) ru⟩
  · rw [hpar]
    simp only [List.length_append, List.length_singleton, Bool.and_eq_true, decide_eq_true_eq, not_and_or]
    exact .inl (.inl (by omega))

/-- One more than VIOL_MAX within a second: the avenue is QUARANTINED. -/
theorem aveReject_quarantines {ofs : Nat} {p : AvePkt} (ha : a < 4096) (hc : code < 16) (hv : s.avePar a fAVE_PARAM_VIOL_MAX ≤ (s.aveU a).viols.length)
    (hw : ∀ v ∈ (s.aveU a).viols, s.time < v + s.usTicks 1000000) (h0 : s.aveState a ≠ 0) (h6 : s.aveState a ≠ 6) (e : s.aveReject a code ofs p = t) :
    t.aveState a = 6 ∧ (t.aveU a).prev = s.aveState a ∧ (t.aveU a).quar = s.time ∧
      t.fld (rAVE_STATUS a) fAVE_STATUS_QUARANTINES = satN 16 (s.fld (rAVE_STATUS a) fAVE_STATUS_QUARANTINES + 1) ∧
      onlyIn (mEvent ||| mNet ||| mAve) [rAVE_STATUS a, rNET_SUB_CNT0 (s.aveSub a)] [931, 932] s t := by
  have hr : rAVE_STATUS a < 0x10000 ∨ 0x12000 + 8 * 932 < rAVE_STATUS a := .inr (by simp only [rAVE_STATUS]; omega)
  obtain ⟨-, n2⟩ := aveNak_effect (s := s) (a := a) (reason := code) (ofs := ofs) (p := p) rfl
  have nset : aveSetup a s (s.aveNak a code ofs p) := .of_onlyIn n2 ha (aveFree_cons (aveFree_net (aveSub_lt s a)) aveFree_none) (by simp)
  have nt : (s.aveNak a code ofs p).time = s.time := n2.1.time (by decide)
  unfold State.aveReject State.aveViol at e
  dsimp only at e
  obtain ⟨-, -, b3, b4, ⟨n, b5⟩, -, b7, b8⟩ := aveViolated (s := s) (reason := code) (ofs := ofs) (p := p) ha hc rfl
  generalize (s.aveNak a code ofs p).aveCount a code = u at *
  have hlen : ((u.aveU a).viols.filter fun t => decide ((s.aveNak a code ofs p).time < t + (s.aveNak a code ofs p).usTicks 1000000)).length =
      (s.aveU a).viols.length := by
    rw [b5, nt, nset.usTicks]
    exact congrArg List.length (List.filter_eq_self.mpr fun v hm => decide_eq_true (hw v hm))
  generalize (u.aveU a).viols.filter _ = near at *
  rw [nt] at e
  have ru := State.updAve_regs u a fun v => { v with viols := near ++ [s.time] }
  have ku := touches_State.updAve u a fun v => { v with viols := near ++ [s.time] }
  generalize u.updAve a _ = w at *
  have hpar : w.avePar a fAVE_PARAM_VIOL_MAX = s.avePar a fAVE_PARAM_VIOL_MAX := (b7.trans (.of_regs ru)).par _
  have hst : w.aveState a = s.aveState a := (State.fld_congr ru _ _).trans b3
  have hqu := (State.fld_congr ru (rAVE_STATUS a) fAVE_STATUS_QUARANTINES).trans b4
  have k1 := (b8.other ku (by decide) ru)
  rw [if_pos] at e
  · rw [hst] at e
    have k2 : onlyIn (mEvent ||| mNet ||| mAve ||| mGlb) [rAVE_STATUS a, rNET_SUB_CNT0 (s.aveSub a)] [931, 932] s
        (w.updAve a fun v => { v with prev := s.aveState a, quar := s.time, viols := [] }) :=
      .other (k1.mono (by decide) (List.Subset.refl _) (by simp)) (touches_State.updAve _ _ _) (by decide) (State.updAve_regs _ _ _)
    have a2 := aveU_updAve_same w a fun v => { v with prev := s.aveState a, quar := s.time, viols := [] }
    have q2 := State.fld_congr (State.updAve_regs w a fun v => { v with prev := s.aveState a, quar := s.time, viols := [] }) (rAVE_STATUS a)
      fAVE_STATUS_QUARANTINES
    generalize w.updAve a _ = z at *
    have ht : t.aveU a = z.aveU a := by
      rw [← e]
      exact (aveU_of_ave ((touches_State.raise _ _ _ _ _).ave (by decide)) a).trans
        ((aveU_of_ave (State.addSat_ave _ _ _ _) a).trans (aveU_of_ave (State.setFld_ave _ _ _ _) a))
    refine ⟨?_, by rw [ht, a2], by rw [ht, a2], ?_, ?_⟩
    · rw [← e, State.aveState, State.fld_raise_other _ _ _ _ _ _ _ hr, State.fld_addSat_apart _ _ _ _ _ _ (by decide)]
      exact aveState_set (by decide)
    · rw [← e, State.fld_raise_other _ _ _ _ _ _ _ hr, State.fld_addSat_self _ _ _ _ (by decide), State.setAveState,
        State.fld_setFld_apart _ _ _ _ _ _ (by decide), q2, hqu]
    · rw [← e]
      exact .of_hi (.raise (.addSat (.setFld k2))) aveOwn_high
  · rw [hpar, hst]
    simp only [List.length_append, List.length_singleton, Bool.and_eq_true, decide_eq_true_eq, bne_iff_ne]
    exact ⟨⟨by omega, h6⟩, h0⟩

end

end Sys2Proof

end

section
/-! SUPPORT. Packets that open and close an avenue (R468, R474, R475). -/

set_option Elab.async false

namespace Sys2Proof

open Sys2Proof.Machine

/-! ### An avenue enters OPEN -/

section

variable {a d : Nat} {s t : State}

/-- No record of the destination is in part finished. -/
def wholeAt (c : Ctx) (d : Nat) : Prop := ∀ r ∈ c.recs, (c.dest d).fin ≤ r.pos ∨ r.pos + r.len ≤ (c.dest d).fin

theorem aveRewind_none (h : (s.ctx (s.aveCtx a)).findDest 3 a = none) : s.aveRewind a = s := by
  unfold State.aveRewind
  dsimp only
  rw [h]

theorem aveRewind_whole (h : (s.ctx (s.aveCtx a)).findDest 3 a = some d) (hw : wholeAt (s.ctx (s.aveCtx a)) d) :
    s.aveRewind a = s.updCtx (s.aveCtx a) fun c => c.updDest d fun t => { t with begun := t.fin } := by
  have hf : ((s.ctx (s.aveCtx a)).recs.find? fun r => r.pos < ((s.ctx (s.aveCtx a)).dest d).fin &&
      ((s.ctx (s.aveCtx a)).dest d).fin < r.pos + r.len) = none :=
    List.find?_eq_none.mpr fun r hr => by
      simp only [Bool.and_eq_true, decide_eq_true_eq, not_and_or, not_lt]
      exact hw r hr
  unfold State.aveRewind
  dsimp only
  rw [h]
  dsimp only
  rw [hf]

theorem aveRewind_effect (hw : ∀ d, (s.ctx (s.aveCtx a)).findDest 3 a = some d → wholeAt (s.ctx (s.aveCtx a)) d) (e : s.aveRewind a = t) :
    Touches mCtxs s t ∧ (∀ d, (s.ctx (s.aveCtx a)).findDest 3 a = some d → d < (s.ctx (s.aveCtx a)).dests.length →
      ((t.ctx (s.aveCtx a)).dest d).begun = ((s.ctx (s.aveCtx a)).dest d).fin) := by
  cases h : (s.ctx (s.aveCtx a)).findDest 3 a with
  | none =>
    rw [aveRewind_none h] at e
    subst e
    exact ⟨.refl _ _, fun _ h => nomatch h⟩
  | some d =>
    rw [aveRewind_whole h (hw d h)] at e
    subst e
    refine ⟨touches_State.updCtx _ _ _, fun d' hd hl => ?_⟩
    cases hd
    rw [ctx_updCtx_same, dest_updDest_same _ hl]

/-- What an avenue is as it enters OPEN. -/
def Machine.Ave.entered (v : Ave) (inb : Bool) (peer limit now : Nat) : Ave :=
  { v with
    peer := peer, heard := now, recs := [], ranges := [], next := 0, acked := 0, limit := if inb then v.limit else limit
    ahead := [], part := [], ackAt := none, idle := now }

theorem aveOpened_effect (hw : ∀ d, s.aveIn a = false → (s.ctx (s.aveCtx a)).findDest 3 a = some d → wholeAt (s.ctx (s.aveCtx a)) d) {peer limit : Nat}
    (e : s.aveOpened a peer limit = t) :
    t.aveState a = 3 ∧ t.aveU a = (s.aveU a).entered (s.aveIn a) peer limit s.time ∧
      (∃ l, t.outs = s.outs ++ l ∧ ∀ o ∈ l, ∃ v, o = .msix v) ∧
      (∀ d, s.aveIn a = false → (s.ctx (s.aveCtx a)).findDest 3 a = some d → d < (s.ctx (s.aveCtx a)).dests.length →
        ((t.ctx (s.aveCtx a)).dest d).begun = ((s.ctx (s.aveCtx a)).dest d).fin) ∧
      onlyIn (mEvent ||| mCtxs ||| mAve) [rAVE_STATUS a] [928] s t := by
  unfold State.aveOpened at e
  dsimp only at e
  have hr : rAVE_STATUS a < 0x10000 ∨ 0x12000 + 8 * 928 < rAVE_STATUS a := .inr (by simp only [rAVE_STATUS]; omega)
  obtain ⟨u, hu⟩ : ∃ u, u = if s.aveIn a then s else s.aveRewind a := ⟨_, rfl⟩
  rw [← hu] at e
  have hk : Touches mCtxs s u ∧ (∀ d, s.aveIn a = false → (s.ctx (s.aveCtx a)).findDest 3 a = some d → d < (s.ctx (s.aveCtx a)).dests.length →
      ((u.ctx (s.aveCtx a)).dest d).begun = ((s.ctx (s.aveCtx a)).dest d).fin) := by
    rw [hu]
    cases h : s.aveIn a with
    | true => exact ⟨.refl _ _, fun _ h => nomatch h⟩
    | false =>
      obtain ⟨h1, h2⟩ := aveRewind_effect (fun d => hw d h) rfl
      exact ⟨h1, fun d _ => h2 d⟩
  obtain ⟨ku, hb⟩ := hk
  clear hu
  change ((u.updAve a fun v => v.entered (s.aveIn a) peer limit s.time).setAveState a 3).raise 928 (some a) = t at e
  have a1 := aveU_updAve_same u a fun v => v.entered (s.aveIn a) peer limit s.time
  have t1 := touches_State.updAve u a fun v => v.entered (s.aveIn a) peer limit s.time
  have k1 : onlyIn (mEvent ||| mCtxs ||| mAve ||| mGlb) [rAVE_STATUS a] [928] s (u.updAve a fun v => v.entered (s.aveIn a) peer limit s.time) :=
    .other (.other (.refl _ _ _ _) ku (by decide) (ku.regs (by decide))) t1 (by decide) (State.updAve_regs _ _ _)
  have o1 : (u.updAve a fun v => v.entered (s.aveIn a) peer limit s.time).outs = s.outs := (t1.outs (by decide)).trans (ku.outs (by decide))
  have c1 := t1.ctxs (by decide)
  generalize u.updAve a _ = w at *
  have ts := touches_State.setFld w (rAVE_STATUS a) fAVE_STATUS_STATE 3
  have st1 : (w.setAveState a 3).aveState a = 3 := aveState_set (by decide)
  have k2 : onlyIn (mEvent ||| mCtxs ||| mAve ||| mGlb) [rAVE_STATUS a] [928] s (w.setAveState a 3) := .setFld k1
  have a2 : (w.setAveState a 3).aveU a = w.aveU a := aveU_of_ave (State.setFld_ave _ _ _ _) a
  have o2 : (w.setAveState a 3).outs = w.outs := State.setFld_outs _ _ _ _
  have c2 : (w.setAveState a 3).ctxs = w.ctxs := State.setFld_ctxs _ _ _ _
  generalize w.setAveState a 3 = z at *
  have tr := touches_State.raise z 928 (some a) 0 0
  obtain ⟨l, hl1, hl2⟩ := raise_msix z 928 (some a) 0 0
  rw [e] at tr hl1
  refine ⟨?_, ?_, ⟨l, by rw [hl1, o2, o1], hl2⟩, fun d h1 h2 h3 => ?_, ?_⟩
  · rw [← st1, State.aveState, ← e, State.fld_raise_other _ _ _ _ _ _ _ hr, State.aveState]
  · rw [aveU_of_ave (tr.ave (by decide)), a2, a1, aveU_of_ave (ku.ave (by decide))]
  · rw [← hb d h1 h2 h3, ctx_of_ctxs (tr.ctxs (by decide)), ctx_of_ctxs c2, ctx_of_ctxs c1]
  · rw [← e]
    refine .of_hi (.raise k2) ?_
    simp only [List.mem_singleton, rAVE_STATUS]
    omega

end

/-! ### An avenue leaves OPEN -/

section

variable {a : Nat} {s t : State}

/-- An avenue without a partial record becomes CLOSED or FAILED; its event follows. -/
theorem aveLeaves_effect (hp : (s.aveU a).part = []) {l : List (Fld × Nat)} {n src : Nat} (hn : n < 8) (hs : src < 1024)
    (hl : fget (fsets ((s.aveLeave a).rd (rAVE_STATUS a)) l) fAVE_STATUS_STATE = n) (e : ((s.aveLeave a).setFlds (rAVE_STATUS a) l).raise src (some a) = t) :
    t.rd (rAVE_STATUS a) = fsets (s.rd (rAVE_STATUS a)) l ∧ t.aveState a = n ∧ (t.aveU a).peer = (s.aveU a).peer ∧
      (∃ l, t.outs = s.outs ++ l ∧ ∀ o ∈ l, ∃ v, o = .msix v) ∧ onlyIn (mEvent ||| mAve) [rAVE_STATUS a] [src] s t := by
  have hr : rAVE_STATUS a < 0x10000 ∨ 0x12000 + 8 * src < rAVE_STATUS a := .inr (by simp only [rAVE_STATUS]; omega)
  rw [aveLeave_whole hp] at e hl
  have a1 := aveU_updAve_same s a fun v => { v with ahead := [], part := [], ackAt := none }
  have t1 := touches_State.updAve s a fun v => { v with ahead := [], part := [], ackAt := none }
  have r1 := State.updAve_regs s a fun v => { v with ahead := [], part := [], ackAt := none }
  generalize s.updAve a _ = w at *
  have k1 : onlyIn (mEvent ||| mAve ||| mGlb) [rAVE_STATUS a] [src] s (w.setFlds (rAVE_STATUS a) l) :=
    .setFlds (.other (.refl _ _ _ _) t1 (by decide) r1)
  have rd1 : (w.setFlds (rAVE_STATUS a) l).rd (rAVE_STATUS a) = fsets (w.rd (rAVE_STATUS a)) l := State.rd_wr_same _ _ _
  have a2 := aveU_of_ave (State.setFlds_ave w (rAVE_STATUS a) l) a
  have o2 := State.setFlds_outs w (rAVE_STATUS a) l
  generalize w.setFlds (rAVE_STATUS a) l = z at *
  have tr := touches_State.raise z src (some a) 0 0
  obtain ⟨m, hl1, hl2⟩ := raise_msix z src (some a) 0 0
  rw [e] at tr hl1
  have hrd : t.rd (rAVE_STATUS a) = z.rd (rAVE_STATUS a) := by
    rw [← e]
    exact State.rd_raise_other _ _ _ _ _ _ hr
  refine ⟨by rw [hrd, rd1, State.rd_congr r1], ?_, ?_, ⟨m, by rw [hl1, o2, t1.outs (by decide)], hl2⟩, ?_⟩
  · rw [State.aveState, State.fld, hrd, rd1, hl]
  · rw [aveU_of_ave (tr.ave (by decide)), a2, a1]
  · rw [← e]
    refine .of_hi (.raise k1) ?_
    simp only [List.mem_singleton, rAVE_STATUS]
    omega

theorem aveClosed_effect (hp : (s.aveU a).part = []) (e : s.aveClosed a = t) : t.aveState a = 0 ∧ (t.aveU a).peer = (s.aveU a).peer ∧
    (∃ l, t.outs = s.outs ++ l ∧ ∀ o ∈ l, ∃ v, o = .msix v) ∧ onlyIn (mEvent ||| mAve) [rAVE_STATUS a] [929] s t :=
  (aveLeaves_effect hp (l := [(fAVE_STATUS_STATE, 0)]) (by decide) (by decide) (fget_fset_self _ _ _ (by decide)) e).2

/-- An inbound avenue without a partial record becomes FAILED for a reason. -/
theorem aveFail_inbound (hp : (s.aveU a).part = []) (hi : s.aveIn a = true) {k : Nat} (hk : k < 256) (e : s.aveFail a k = t) :
    t.aveState a = 5 ∧ t.fld (rAVE_STATUS a) fAVE_STATUS_REASON = k ∧ onlyIn (mEvent ||| mAve) [rAVE_STATUS a] [930] s t := by
  unfold State.aveFail at e
  dsimp only at e
  rw [if_pos] at e
  · obtain ⟨h1, h2, -, -, h3⟩ := aveLeaves_effect hp (l := [(fAVE_STATUS_STATE, 5), (fAVE_STATUS_REASON, k)]) (n := 5) (by decide) (by decide)
      (by simp (disch := decide) [fsets]) e
    refine ⟨h2, ?_, h3⟩
    rw [State.fld, h1]
    simp (disch := decide) [fsets, hk]
  · have hin : ((s.aveLeave a).setFlds (rAVE_STATUS a) [(fAVE_STATUS_STATE, 5), (fAVE_STATUS_REASON, k)]).aveIn a = true := by
      rw [← hi, aveLeave_whole hp]
      refine flag_of_rd ((State.rd_setFlds_other _ _ ?_).trans (State.rd_congr (State.updAve_regs _ _ _) _))
      simp only [rAVE_CFG, rAVE_STATUS]
      omega
    have hin' : s.aveIn a = true := hi
    simp [hi, hin]

end

/-! ### The state machine, packet by packet (Table 21-5) -/

section

variable {a : Nat} {q : AvePkt} {s : State}

theorem avePacket_open (h : pktType q = 1) : s.avePacket a q =
    if s.aveState a = 2 && pktSends q == s.aveIn a then
      ((s.updAve a fun v => { v with peer := pktNonce q }).aveOpenPkt a 2).aveOpened a (pktNonce q) (pktLimit q)
    else if s.aveState a = 3 && pktNonce q = (s.aveU a).peer then (s.updAve a fun v => { v with heard := s.time }).aveOpenPkt a 2
    else s.aveReject a 6 0 q := by
  unfold State.avePacket
  rw [h] <;> rfl

theorem avePacket_openAck (h : pktType q = 2) : s.avePacket a q =
    if s.aveState a = 1 && pktSends q == s.aveIn a then s.aveOpened a (pktNonce q) (pktLimit q)
    else if s.aveState a = 3 && pktNonce q = (s.aveU a).peer then s.updAve a fun v => { v with heard := s.time }
    else s.aveReject a 6 0 q := by
  unfold State.avePacket
  rw [h] <;> rfl

theorem avePacket_data (h : pktType q = 3) :
    s.avePacket a q = if s.aveState a = 3 && s.aveIn a then s.aveTakeData a q else s.aveReject a 6 q.w1.toNat q := by
  unfold State.avePacket
  rw [h] <;> rfl

theorem avePacket_ack (h : pktType q = 4) :
    s.avePacket a q = if s.aveState a = 3 && !s.aveIn a then s.aveTakeAck a q else s.aveReject a 6 q.w1.toNat q := by
  unfold State.avePacket
  rw [h] <;> rfl

theorem avePacket_nak (h : pktType q = 5) : s.avePacket a q = s.updAve a fun v => { v with heard := s.time } := by
  unfold State.avePacket
  rw [h] <;> rfl

theorem avePacket_close (h : pktType q = 6) : s.avePacket a q =
    if s.aveState a = 3 then ((s.updAve a fun v => { v with heard := s.time }).aveSend a 7 0 (s.aveU a).next 0 0 []).aveClosed a
    else s.aveReject a 6 q.w1.toNat q := by
  unfold State.avePacket
  rw [h] <;> rfl

theorem avePacket_closeAck (h : pktType q = 7) :
    s.avePacket a q = if s.aveState a = 4 then s.aveClosed a else s.aveReject a 6 q.w1.toNat q := by
  unfold State.avePacket
  rw [h] <;> rfl

theorem avePacket_trigger (h : pktType q = 8) :
    s.avePacket a q = if s.aveState a = 3 then s.aveTakeTrigger a q else s.aveReject a 6 0 q := by
  unfold State.avePacket
  rw [h] <;> rfl

theorem avePacket_trigAck (h : pktType q = 9) : s.avePacket a q =
    if s.aveState a = 3 then (s.updAve a fun v => { v with heard := s.time }).updAve a fun v =>
      { v with trigs := v.trigs.filter fun e => e.seq != q.w1.toNat % 65536 }
    else s.aveReject a 6 0 q := by
  unfold State.avePacket
  rw [h] <;> rfl

end

/-! ### The packets -/

section

variable {i : Fin 16} {a : Nat} {p q : AvePkt} {s : State}

theorem pktOpen_opens (ht : aveTakes i 1 a p q s) (h2 : s.aveState a = 2) (hs : pktSends q = s.aveIn a) (hc : aveCanSend a s)
    (hw : ∀ d, s.aveIn a = false → (s.ctx (s.aveCtx a)).findDest 3 a = some d → wholeAt (s.ctx (s.aveCtx a)) d) :
    completes (.pktOpen i p) s fun t => t.aveState a = 3 ∧ (t.aveU a).peer = pktNonce q ∧ (t.aveU a).own = (s.aveU a).own ∧
        (t.aveU a).next = 0 ∧ (t.aveU a).recs = [] ∧ (t.aveU a).heard = s.time ∧ (s.aveIn a = false → (t.aveU a).limit = pktLimit q) ∧
        aveSent a 2 0 0 0 s.time (openBody (s.aveU a).own (!s.aveIn a) (if s.aveIn a then (t.aveU a).limit else 0)) s t ∧
        Touches (mEvent ||| mCtxs ||| mAve) s t := by
  obtain ⟨e, hty⟩ := packet_taken ht (e := Instr.pktOpen) (by simp [bringsPacket])
  have ha := aveTakes_lt ht
  rw [avePacket_open hty, if_pos (by simp [h2, hs])] at e
  have t1 := touches_State.updAve s a fun v => { v with peer := pktNonce q }
  have r1 := State.updAve_regs s a fun v => { v with peer := pktNonce q }
  have a1 := aveU_updAve_same s a fun v => { v with peer := pktNonce q }
  generalize s.updAve a _ = u at *
  have s1 : aveSetup a s u := .of_regs r1
  obtain ⟨b1, b2, b3⟩ := aveOpenPkt_effect (typ := 2) (aveCanSend_of hc r1 (t1.net (by decide))) rfl
  generalize u.aveOpenPkt a 2 = w at *
  have s2 : aveSetup a u w := .of_onlyIn b3 ha (aveFree_cons (aveFree_net (aveSub_lt u a)) aveFree_none) (by simp)
  have hcx := ctx_of_ctxs ((b3.1.ctxs (by decide)).trans (t1.ctxs (by decide)))
  have hset := s1.trans s2
  obtain ⟨c1, c2, ⟨l, c3, c4⟩, -, c6⟩ := aveOpened_effect (s := w) (a := a) (peer := pktNonce q) (limit := pktLimit q)
    (by rw [hset.ctx, hcx, hset.inb]; exact hw) rfl
  rw [hset.inb] at c2
  have hlim : (if s.aveIn a then (w.aveU a).limit else 0) = if s.aveIn a then ((w.aveOpened a (pktNonce q) (pktLimit q)).aveU a).limit else 0 := by
    rw [c2]
    cases s.aveIn a <;> rfl
  rw [t1.time (by decide), s1.inb, hlim, show (u.aveU a).own = (s.aveU a).own by rw [a1]] at b2
  refine ⟨_, e, c1, by rw [c2]; rfl, by rw [c2, Ave.entered, b1, a1], by rw [c2]; rfl, by rw [c2]; rfl, ?_, fun h => ?_, ?_, ?_⟩
  · rw [c2]
    exact (b3.1.time (by decide)).trans (t1.time (by decide))
  · rw [c2, Ave.entered, h]
    rfl
  · refine b2.of s1 (t1.outs (by decide)) c3 c4 ?_
    rw [c2, b1, a1]
    rfl
  · exact (t1.mono (by decide)).trans ((b3.1.mono (by decide)).trans (c6.1.mono (by decide)))

theorem pktOpenAck_opens (ht : aveTakes i 2 a p q s) (h1 : s.aveState a = 1) (hs : pktSends q = s.aveIn a)
    (hw : ∀ d, s.aveIn a = false → (s.ctx (s.aveCtx a)).findDest 3 a = some d → wholeAt (s.ctx (s.aveCtx a)) d) :
    completes (.pktOpenAck i p) s fun t => t.aveState a = 3 ∧ (t.aveU a).peer = pktNonce q ∧ (t.aveU a).next = 0 ∧
        (t.aveU a).recs = [] ∧ (t.aveU a).heard = s.time ∧ (t.aveU a).limit = (if s.aveIn a then (s.aveU a).limit else pktLimit q) ∧
        (∀ d, s.aveIn a = false → (s.ctx (s.aveCtx a)).findDest 3 a = some d → d < (s.ctx (s.aveCtx a)).dests.length →
          ((t.ctx (s.aveCtx a)).dest d).begun = ((s.ctx (s.aveCtx a)).dest d).fin) ∧
        onlyIn (mEvent ||| mCtxs ||| mAve) [rAVE_STATUS a] [928] s t := by
  obtain ⟨e, hty⟩ := packet_taken ht (e := Instr.pktOpenAck) (by simp [bringsPacket])
  rw [avePacket_openAck hty, if_pos (by simp [h1, hs])] at e
  obtain ⟨c1, c2, -, c5, c6⟩ := aveOpened_effect (s := s) (a := a) (peer := pktNonce q) (limit := pktLimit q) hw rfl
  exact ⟨_, e, c1, by rw [c2]; rfl, by rw [c2]; rfl, by rw [c2]; rfl, by rw [c2]; rfl, by rw [c2]; rfl, c5, c6⟩

theorem pktOpenAck_again (ht : aveTakes i 2 a p q s) (h3 : s.aveState a = 3) (hn : pktNonce q = (s.aveU a).peer) :
    exec (.pktOpenAck i p) s = .next (s.updAve a fun v => { v with heard := s.time }) := by
  obtain ⟨e, hty⟩ := packet_taken ht (e := Instr.pktOpenAck) (by simp [bringsPacket])
  rwa [avePacket_openAck hty, if_neg (by simp [h3]), if_pos (by simp [h3, hn])] at e

theorem pktNak_heard (ht : aveTakes i 5 a p q s) : exec (.pktNak i p) s = .next (s.updAve a fun v => { v with heard := s.time }) := by
  obtain ⟨e, hty⟩ := packet_taken ht (e := Instr.pktNak) (by simp [bringsPacket])
  rwa [avePacket_nak hty] at e

theorem pktClose_closes (ht : aveTakes i 6 a p q s) (h3 : s.aveState a = 3) (hp : (s.aveU a).part = []) (hc : aveCanSend a s) :
    completes (.pktClose i p) s fun t => t.aveState a = 0 ∧ aveSent a 7 0 (s.aveU a).next 0 0 [] s t ∧
        onlyIn (mEvent ||| mAve) [rAVE_STATUS a, rNET_SUB_CNT0 (s.aveSub a)] [929] s t := by
  obtain ⟨e, hty⟩ := packet_taken ht (e := Instr.pktClose) (by simp [bringsPacket])
  rw [avePacket_close hty, if_pos h3] at e
  have t1 := touches_State.updAve s a fun v => { v with heard := s.time }
  have r1 := State.updAve_regs s a fun v => { v with heard := s.time }
  have a1 := aveU_updAve_same s a fun v => { v with heard := s.time }
  generalize s.updAve a _ = u at *
  have s1 : aveSetup a s u := .of_regs r1
  obtain ⟨b1, b2, -, b4⟩ := aveSend_effect (typ := 7) (hi := 0) (ofs := (s.aveU a).next) (aux := 0) (time := 0) (body := [])
    (aveCanSend_of hc r1 (t1.net (by decide))) rfl
  generalize u.aveSend a 7 0 (s.aveU a).next 0 0 [] = w at *
  have a2 := (aveU_of_ave b2 a).trans a1
  rw [s1.sub] at b4
  obtain ⟨c1, c2, ⟨l, c3, c4⟩, c5⟩ := aveClosed_effect (s := w) (a := a) (by rw [a2]; exact hp) rfl
  exact ⟨_, e, c1, b1.of s1 (t1.outs (by decide)) c3 c4 c2, ((onlyIn.other (.refl _ _ _ _) t1 (by decide) r1).trans
    (b4.mono (by decide) (by simp) (List.nil_subset _))).trans (c5.mono (by decide) (by simp) (List.Subset.refl _))⟩

theorem pktCloseAck_closes (ht : aveTakes i 7 a p q s) (h4 : s.aveState a = 4) (hp : (s.aveU a).part = []) :
    completes (.pktCloseAck i p) s fun t => t.aveState a = 0 ∧ onlyIn (mEvent ||| mAve) [rAVE_STATUS a] [929] s t := by
  obtain ⟨e, hty⟩ := packet_taken ht (e := Instr.pktCloseAck) (by simp [bringsPacket])
  rw [avePacket_closeAck hty, if_pos h4] at e
  obtain ⟨c1, -, -, c5⟩ := aveClosed_effect hp rfl
  exact ⟨_, e, c1, c5⟩

end

end Sys2Proof

end

section
/-! SUPPORT. What an avenue sends again, and in whose turn (R369, R471). -/

set_option Elab.async false

namespace Sys2Proof

open Sys2Proof.Machine

/-! ### What time and an avenue's own timers do not change -/

/-- Only time and what avenues keep beside their registers differ, and avenue `a` stands where it stood in its stream. -/
structure sameStream (a : Nat) (s u : State) : Prop where
  rest : Touches (mTime ||| mAve) s u
  recs : (u.aveU a).recs = (s.aveU a).recs
  next : (u.aveU a).next = (s.aveU a).next
  limit : (u.aveU a).limit = (s.aveU a).limit

section

variable {a x d i : Nat} {s u : State} (k : sameStream a s u)

include k

theorem sameStream.regs : u.regs = s.regs := k.rest.regs (by decide)
theorem sameStream.ctx (y : Nat) : u.ctx y = s.ctx y := ctx_of_ctxs (k.rest.ctxs (by decide)) y
theorem sameStream.setup : aveSetup a s u := .of_regs k.regs
theorem sameStream.state : u.aveState a = s.aveState a := State.fld_congr k.regs _ _

theorem sameStream.aveNext : u.aveNext a x d = s.aveNext a x d := by
  unfold State.aveNext
  dsimp only
  rw [k.ctx, k.recs, k.next]

theorem sameStream.aveNow (room : Nat) : u.aveNow a x d room = s.aveNow a x d room := by
  have e : u.availEnd x = s.availEnd x := by
    unfold State.availEnd State.billet
    dsimp only
    rw [k.ctx, k.rest.billets (by decide)]
  unfold State.aveNow
  rw [k.aveNext, k.next, k.limit, e]

theorem sameStream.aveRank : u.aveRank i a = s.aveRank i a := by
  have et (c : Nat) : u.turnOf 3 i c (s.aveCtx a) = s.turnOf 3 i c (s.aveCtx a) := by
    unfold State.turnOf
    rw [k.rest.served (by decide)]
  unfold State.aveRank
  dsimp only
  rw [k.setup.ctx, k.ctx]
  split
  · rfl
  · rw [k.setup.inb, k.state, k.aveNow, k.aveNext, et]

theorem sameStream.aveBytes (lo hi : Nat) : u.aveBytes a x lo hi = s.aveBytes a x lo hi := by
  have e (p n : Nat) : u.readStream x p n = s.readStream x p n := by
    unfold State.readStream
    rw [k.ctx, k.rest.store (by decide)]
  unfold State.aveBytes
  simp only [k.recs, e]

theorem sameStream.byOf (lo : Nat) : (u.aveU a).byOf lo = (s.aveU a).byOf lo := by
  unfold Ave.byOf
  rw [k.recs]

theorem sameStream.exqWaits : u.exqWaits i = s.exqWaits i := by
  unfold State.exqWaits State.busOk
  rw [State.rd_congr k.regs, linkUp_of_rd (State.rd_congr k.regs _), netS_of_net (k.rest.net (by decide)), k.rest.hif (by decide), State.fld_congr k.regs,
    State.fld_congr k.regs, State.fld_congr k.regs]

end

/-! ### Whose turn it is -/

section

variable {a i : Nat} {s : State} (hl : (s.avesUp.filter fun b => s.aveSub b == i) = [a])

include hl

theorem aveWaits_one : s.aveWaits i = ((s.aveRank i a).toList ++ (s.aveRankAgain a).toList).map fun r => (a, r) := by
  unfold State.aveWaits
  rw [hl]
  exact List.append_nil _

/-- The one avenue of a sub-port sends its data first. -/
theorem aveFirst_data {r : Nat × Nat × Nat} (hr : s.aveRank i a = some r) (ha : ∀ q, s.aveRankAgain a = some q → serveBefore q r = false) :
    s.aveFirst i = some (a, r) := by
  unfold State.aveFirst
  rw [aveWaits_one hl, hr]
  cases h : s.aveRankAgain a with
  | none => rfl
  | some q =>
    show (if serveBefore q r then some (a, q) else some (a, r)) = some (a, r)
    rw [ha q h]
    exact if_neg (by decide)

/-- Without data to send first it is what it sends again that comes first. -/
theorem aveFirst_again (hr : s.aveRank i a = none) : s.aveFirst i = (s.aveRankAgain a).map fun r => (a, r) := by
  unfold State.aveFirst
  rw [aveWaits_one hl, hr]
  cases s.aveRankAgain a <;> rfl

end

section

variable {a i : Nat} {s t : State}

/-- Data sent for the first time has the even rank of the context's class. -/
theorem aveRank_class {r : Nat × Nat × Nat} (h : s.aveRank i a = some r) : r.1 = 2 * (s.ctx (s.aveCtx a)).cls := by
  unfold State.aveRank at h
  dsimp only at h
  split at h
  · cases h
  · split at h
    · cases h
    · cases h
      split <;> rfl

theorem aveRankAgain_class {r : Nat × Nat × Nat} (h : s.aveRankAgain a = some r) : r.1 = 2 * (s.ctx (s.aveCtx a)).cls + 1 := by
  unfold State.aveRankAgain at h
  split at h
  · cases h
  · obtain ⟨g, -, rfl⟩ := Option.map_eq_some_iff.mp h
    rfl

theorem serveBefore_later {q r : Nat × Nat × Nat} (h : r.1 < q.1) : serveBefore q r = false := by
  unfold serveBefore
  rw [decide_eq_false (by omega), beq_false_of_ne (by omega)]
  rfl

theorem aveServe_again {r : Nat × Nat × Nat} {g : AveRange} (hl : s.linkUp i = true) (hp : (s.netS i).pause = none)
    (hf : s.aveFirst i = some (a, r)) (ho : r.1 % 2 = 1) (h5 : r.1 < 5 ∨ s.exqWaits i = false) (hg : s.aveAgain a = some g) :
    s.aveServe i = s.aveDataAgain a g := by
  unfold State.aveServe
  rw [if_neg (by rw [hl, hp]; decide), hf]
  dsimp only
  rw [if_neg, if_pos ho, hg]
  obtain h | h := h5
  · rw [decide_eq_false (by omega)]
    simp
  · rw [h]
    simp

theorem aveDataAgain_effect {g : AveRange} (hc : aveCanSend a s) (e : s.aveDataAgain a g = t) :
    t.aveU a = { s.aveU a with ranges := (s.aveU a).ranges.map fun q =>
      if q.lo = g.lo then { q with at_ := s.time, tries := q.tries + 1, reports := 0, again := false } else q } ∧
      t.fld (rAVE_CNT0 a) fAVE_CNT0_RETX = satN 32 (s.fld (rAVE_CNT0 a) fAVE_CNT0_RETX + 1) ∧
      aveSent a 3 1 g.lo 0 ((s.aveU a).byOf g.lo) (s.aveBytes a (s.aveCtx a) g.lo g.hi) s t ∧
      onlyIn (mRegs ||| mOuts ||| mAve) [rAVE_CNT0 a, rNET_SUB_CNT0 (s.aveSub a)] [] s t := by
  unfold State.aveDataAgain at e
  have hsub := aveSub_lt s a
  have a1 := aveU_updAve_same s a fun v => { v with ranges := v.ranges.map fun r =>
    if r.lo = g.lo then { r with at_ := s.time, tries := r.tries + 1, reports := 0, again := false } else r }
  have r1 := State.updAve_regs s a fun v => { v with ranges := v.ranges.map fun r =>
    if r.lo = g.lo then { r with at_ := s.time, tries := r.tries + 1, reports := 0, again := false } else r }
  have t1 := touches_State.updAve s a fun v => { v with ranges := v.ranges.map fun r =>
    if r.lo = g.lo then { r with at_ := s.time, tries := r.tries + 1, reports := 0, again := false } else r }
  generalize s.updAve a _ = u at *
  have hr : ∀ r ∈ [rAVE_CNT0 a, rNET_SUB_CNT0 (s.aveSub a)], 0x1000 ≤ r := by
    simp only [List.mem_cons, List.not_mem_nil, or_false, rAVE_CNT0, rNET_SUB_CNT0]
    omega
  have k1 : onlyIn (mRegs ||| mOuts ||| mAve) [rAVE_CNT0 a, rNET_SUB_CNT0 (s.aveSub a)] [] s (u.addSat (rAVE_CNT0 a) fAVE_CNT0_RETX 1) :=
    .of_hi (.addSat (.other (.refl _ _ _ _) t1 (by decide) r1)) hr
  have f1 := (State.fld_addSat_self u (rAVE_CNT0 a) fAVE_CNT0_RETX 1 (by decide)).trans (congrArg (fun n => satN 32 (n + 1)) (State.fld_congr r1 _ _))
  have a2 := (aveU_of_ave (State.addSat_ave u (rAVE_CNT0 a) fAVE_CNT0_RETX 1) a).trans a1
  have o2 := (State.addSat_outs u (rAVE_CNT0 a) fAVE_CNT0_RETX 1).trans (t1.outs (by decide))
  have hcan : aveCanSend a (u.addSat (rAVE_CNT0 a) fAVE_CNT0_RETX 1) := by
    have hne (r : Nat) (h : r ≠ rAVE_CNT0 a) : (u.addSat (rAVE_CNT0 a) fAVE_CNT0_RETX 1).rd r = s.rd r :=
      (State.rd_addSat_other _ _ _ h).trans (State.rd_congr r1 r)
    have hsb : (u.addSat (rAVE_CNT0 a) fAVE_CNT0_RETX 1).aveSub a = s.aveSub a := fld_of_rd (hne _ (by simp only [rAVE_CFG, rAVE_CNT0]; omega))
    unfold aveCanSend
    rw [hsb, linkUp_of_rd (hne _ (by simp only [rNET_SUB_STATUS, rAVE_CNT0]; omega)), netS_of_net (k1.1.net (by decide))]
    exact hc
  have s2 : aveSetup a s (u.addSat (rAVE_CNT0 a) fAVE_CNT0_RETX 1) := fun r hr => by
    refine (State.rd_addSat_other _ _ _ ?_).trans (State.rd_congr r1 r)
    simp only [List.mem_cons, List.not_mem_nil, or_false, rAVE_CFG, rAVE_MAC, rAVE_IP0, rAVE_IP1, rAVE_PARAM, rAVE_GLOBAL, rGLB_DEVID, rTBS_TICK,
      rAVE_CNT0] at hr ⊢
    omega
  generalize u.addSat (rAVE_CNT0 a) fAVE_CNT0_RETX 1 = w at *
  obtain ⟨b1, b2, -, b4⟩ := aveSend_effect hcan e
  rw [s2.sub] at b4
  refine ⟨(aveU_of_ave b2 a).trans a2, ?_, b1.from s2 o2, k1.trans (b4.mono (by decide) (by simp) (List.Subset.refl _))⟩
  · rw [← f1]
    exact fld_of_rd (b4.ave_rd (by simp only [List.mem_singleton, rAVE_CNT0, rNET_SUB_CNT0]; omega) (by simp only [rAVE_CNT0]; omega) (by simp))

end

end Sys2Proof

end

section
/-! SUPPORT. The timers of an avenue: RTO_US, DEAD_MS and the end of a quarantine (R468, R471, R477). -/

set_option Elab.async false

namespace Sys2Proof

open Sys2Proof.Machine

/-! ### What RTO_US does in each state -/

section

variable {a : Nat} {s t : State}

theorem aveRto_down (h : s.linkUp (s.aveSub a) = false) : s.aveRto a = s := by
  unfold State.aveRto
  dsimp only
  rw [if_pos (by rw [h]; rfl)]

theorem aveDead_off (h : s.linkUp (s.aveSub a) = false ∨ s.aveState a ≠ 3) : s.aveDead a = s := by
  refine if_neg ?_
  obtain h | h := h
  · simp [h]
  · simp [h]

variable (hl : s.linkUp (s.aveSub a) = true)

include hl

theorem aveRto_opening (h : s.aveState a = 1) {w : State} (ew : s.reach ((s.aveU a).at_ + s.usTicks (s.avePar a fAVE_PARAM_RTO_US)) = w) :
    s.aveRto a = if s.avePar a fAVE_PARAM_RETRY_MAX ≤ (s.aveU a).tries then w.aveFail a 1 else w.aveSendOpen a := by
  unfold State.aveRto
  rw [if_neg (by rw [hl]; decide), h, ← ew] <;> rfl

theorem aveRto_closing (h : s.aveState a = 4) {w : State} (ew : s.reach ((s.aveU a).at_ + s.usTicks (s.avePar a fAVE_PARAM_RTO_US)) = w) :
    s.aveRto a = if s.avePar a fAVE_PARAM_RETRY_MAX ≤ (s.aveU a).tries then w.aveClosed a else w.aveSendClose a := by
  unfold State.aveRto
  rw [if_neg (by rw [hl]; decide), h, ← ew] <;> rfl

theorem aveRto_none (h : s.aveState a = 3) (hf : (s.aveU a).ranges.filter (fun r => !r.sacked && !r.again) = []) : s.aveRto a = s := by
  unfold State.aveRto
  rw [if_neg (by rw [hl]; decide), h]
  dsimp only
  rw [hf] <;> rfl

theorem aveRto_range (h : s.aveState a = 3) {g : AveRange} (hf : (s.aveU a).ranges.filter (fun r => !r.sacked && !r.again) = [g]) :
    s.aveRto a = (s.reach (g.at_ + s.usTicks (s.avePar a fAVE_PARAM_RTO_US))).aveResend a g := by
  unfold State.aveRto
  rw [if_neg (by rw [hl]; decide), h]
  dsimp only
  rw [hf] <;> rfl

end

theorem aveRto_idle {a : Nat} {s : State} (h1 : s.aveState a ≠ 1) (h3 : s.aveState a ≠ 3) (h4 : s.aveState a ≠ 4) : s.aveRto a = s := by
  unfold State.aveRto
  dsimp only
  split
  · rfl
  · split
    · next h => exact absurd h h1
    · next h => exact absurd h h4
    · next h => exact absurd h h3
    · rfl

/-! ### The timers -/

section

variable {a : Fin 4096} {s : State} (hg : s.glb ≠ 0)

include hg

/-- What RTO_US and DEAD_MS find once device time has reached their moment. -/
theorem aveReached (hh : s.held = false) {n now : Nat} (hn : max s.time n = now) {w : State} (e : s.reach n = w) :
    sameStream a s w ∧ w.aveU a = s.aveU a ∧ w.time = now ∧ onlyIn (mTime ||| mAve) [] [] s w := by
  have k := touches_State.reach s n
  have ht := State.reach_time_running hh n
  rw [e] at k ht
  have ha := aveU_of_ave (k.ave (by decide)) a
  refine ⟨⟨k.mono (by decide), by rw [ha], by rw [ha], by rw [ha]⟩, ha, ht.trans hn, .other (.refl _ _ _ _) k (by decide) (k.regs (by decide))⟩

section

variable {now : Nat} (hn : max s.time ((s.aveU a).at_ + s.usTicks (s.avePar a fAVE_PARAM_RTO_US)) = now) (hh : s.held = false) (hc : aveCanSend a s)

include hn hh hc

theorem aveRto_opensAgain (h1 : s.aveState a = 1) (ht : (s.aveU a).tries < s.avePar a fAVE_PARAM_RETRY_MAX) :
    completes (.aveRtoExpiry a) s fun t => t.aveState a = 1 ∧ t.time = now ∧ (t.aveU a).tries = (s.aveU a).tries + 1 ∧
          (t.aveU a).at_ = now ∧
          aveSent a 1 0 0 0 now (openBody (s.aveU a).own (!s.aveIn a) (if s.aveIn a then (t.aveU a).limit else 0)) s t ∧
          onlyIn (mRegs ||| mOuts ||| mTime ||| mAve) [rNET_SUB_CNT0 (s.aveSub a)] [] s t := by
  obtain ⟨k, ka, kt, ko⟩ := aveReached (a := a) hg hh hn rfl
  have e : exec (.aveRtoExpiry a) s = .next (s.aveRto a) := next_live hg rfl
  rw [aveRto_opening hc.1 h1 rfl, if_neg (by omega)] at e
  generalize s.reach _ = w at *
  obtain ⟨b1, b2, b3, b4, b5⟩ := aveSendOpen_effect (aveCanSend_of hc k.regs (k.rest.net (by decide))) rfl
  have hst := (aveState_of_rd (status_sent b5)).trans k.state
  rw [k.setup.sub] at b5
  rw [kt] at b3 b4
  rw [k.setup.inb, b1, ka] at b4
  exact ⟨_, e, hst.trans h1, (b5.1.time (by decide)).trans kt, by rw [b2, ka], b3, b4.from k.setup (k.rest.outs (by decide)),
    (ko.mono (by decide) (List.nil_subset _) (List.Subset.refl _)).trans (b5.mono (by decide) (List.Subset.refl _) (List.Subset.refl _))⟩

theorem aveRto_closesAgain (h4 : s.aveState a = 4) (ht : (s.aveU a).tries < s.avePar a fAVE_PARAM_RETRY_MAX) :
    completes (.aveRtoExpiry a) s fun t => t.aveState a = 4 ∧ t.time = now ∧ (t.aveU a).tries = (s.aveU a).tries + 1 ∧
          aveSent a 6 0 (s.aveU a).next 0 0 [] s t ∧
          onlyIn (mRegs ||| mOuts ||| mTime ||| mAve) [rNET_SUB_CNT0 (s.aveSub a)] [] s t := by
  obtain ⟨k, ka, kt, ko⟩ := aveReached (a := a) hg hh hn rfl
  have e : exec (.aveRtoExpiry a) s = .next (s.aveRto a) := next_live hg rfl
  rw [aveRto_closing hc.1 h4 rfl, if_neg (by omega)] at e
  generalize s.reach _ = w at *
  obtain ⟨b1, b2, b3⟩ := aveSendClose_effect (aveCanSend_of hc k.regs (k.rest.net (by decide))) rfl
  have hst := (aveState_of_rd (status_sent b3)).trans k.state
  rw [k.setup.sub] at b3
  rw [ka] at b2
  exact ⟨_, e, hst.trans h4, (b3.1.time (by decide)).trans kt, by rw [b1, ka], b2.from k.setup (k.rest.outs (by decide)),
    (ko.mono (by decide) (List.nil_subset _) (List.Subset.refl _)).trans (b3.mono (by decide) (List.Subset.refl _) (List.Subset.refl _))⟩

theorem aveRto_givesUpOpening (h1 : s.aveState a = 1) (ht : s.avePar a fAVE_PARAM_RETRY_MAX ≤ (s.aveU a).tries) (hi : s.aveIn a = true)
    (hp : (s.aveU a).part = []) :
    completes (.aveRtoExpiry a) s fun t => t.aveState a = 5 ∧ t.fld (rAVE_STATUS a) fAVE_STATUS_REASON = 1 ∧ t.time = now ∧
          onlyIn (mEvent ||| mTime ||| mAve) [rAVE_STATUS a] [930] s t := by
  obtain ⟨k, ka, kt, ko⟩ := aveReached (a := a) hg hh hn rfl
  have e : exec (.aveRtoExpiry a) s = .next (s.aveRto a) := next_live hg rfl
  rw [aveRto_opening hc.1 h1 rfl, if_pos ht] at e
  generalize s.reach _ = w at *
  obtain ⟨b1, b2, b3⟩ := aveFail_inbound (s := w) (a := a) (k := 1) (by rw [ka]; exact hp) (by rw [k.setup.inb]; exact hi) (by decide) rfl
  exact ⟨_, e, b1, b2, (b3.1.time (by decide)).trans kt, (ko.mono (by decide) (List.nil_subset _) (List.nil_subset _)).trans
    (b3.mono (by decide) (List.Subset.refl _) (List.Subset.refl _))⟩

theorem aveRto_givesUpClosing (h4 : s.aveState a = 4) (ht : s.avePar a fAVE_PARAM_RETRY_MAX ≤ (s.aveU a).tries) (hp : (s.aveU a).part = []) :
    completes (.aveRtoExpiry a) s fun t => t.aveState a = 0 ∧ t.time = now ∧ onlyIn (mEvent ||| mTime ||| mAve) [rAVE_STATUS a] [929] s t := by
  obtain ⟨k, ka, kt, ko⟩ := aveReached (a := a) hg hh hn rfl
  have e : exec (.aveRtoExpiry a) s = .next (s.aveRto a) := next_live hg rfl
  rw [aveRto_closing hc.1 h4 rfl, if_pos ht] at e
  generalize s.reach _ = w at *
  obtain ⟨b1, -, -, b3⟩ := aveClosed_effect (s := w) (a := a) (by rw [ka]; exact hp) rfl
  exact ⟨_, e, b1, (b3.1.time (by decide)).trans kt, (ko.mono (by decide) (List.nil_subset _) (List.nil_subset _)).trans
    (b3.mono (by decide) (List.Subset.refl _) (List.Subset.refl _))⟩

end

/-! ### A range sent again -/

section

variable {g : AveRange} (h3 : s.aveState a = 3) (hi : s.aveIn a = false) (hr : (s.aveU a).ranges = [g]) (hs : g.sacked = false) (ha : g.again = false)
  (ht : g.tries ≤ s.avePar a fAVE_PARAM_RETRY_MAX) (hh : s.held = false) (hc : aveCanSend a s)
  (hl : (s.avesUp.filter fun b => s.aveSub b == s.aveSub a) = [a.val])

include h3 hi hr hs ha ht hh hc hl

/-- The range waits to be sent again, and is served at once if its turn comes first. -/
theorem aveRto_resends : ∃ u, exec (.aveRtoExpiry a) s = .next (u.aveServeAgain (s.aveSub a)) ∧ sameStream a s u ∧
    (u.aveU a).ranges = [{ g with again := true }] ∧ u.time = max s.time (g.at_ + s.usTicks (s.avePar a fAVE_PARAM_RTO_US)) ∧
    onlyIn (mTime ||| mAve) [] [] s u ∧ u.aveRankAgain a = some (2 * (s.ctx (s.aveCtx a)).cls + 1, 0, s.aveCtx a) ∧
    u.aveAgain a = some { g with again := true } ∧ (u.avesUp.filter fun b => u.aveSub b == s.aveSub a) = [a.val] := by
  obtain ⟨k, ka, kt, ko⟩ := aveReached (a := a) hg hh (rfl : max s.time (g.at_ + s.usTicks (s.avePar a fAVE_PARAM_RTO_US)) = _) rfl
  have e : exec (.aveRtoExpiry a) s = .next (s.aveRto a) := next_live hg rfl
  rw [aveRto_range hc.1 h3 (g := g) (by rw [hr]; simp [hs, ha])] at e
  generalize s.reach _ = w at *
  unfold State.aveResend at e
  rw [if_neg (by rw [k.setup.par]; omega), k.setup.sub] at e
  have t1 := touches_State.updAve w a fun v => { v with ranges := v.ranges.map fun r => if r.lo = g.lo then { r with again := true } else r }
  have r1 := State.updAve_regs w a fun v => { v with ranges := v.ranges.map fun r => if r.lo = g.lo then { r with again := true } else r }
  have a1 := aveU_updAve_same w a fun v => { v with ranges := v.ranges.map fun r => if r.lo = g.lo then { r with again := true } else r }
  rw [ka, hr, List.map_cons, List.map_nil, if_pos rfl] at a1
  generalize w.updAve a _ = u at *
  have ku : sameStream a s u := ⟨k.rest.trans (t1.mono (by decide)), by rw [a1], by rw [a1], by rw [a1]⟩
  have hag : u.aveAgain a = some { g with again := true } := by
    unfold State.aveAgain
    rw [a1]
    simp only [List.filter_cons, List.filter_nil, hs] <;> rfl
  refine ⟨u, e, ku, by rw [a1], (t1.time (by decide)).trans kt, ko.other t1 (by decide) r1, ?_, hag, ?_⟩
  · unfold State.aveRankAgain
    rw [ku.setup.inb, ku.state, hi, h3, hag, ku.setup.ctx, ku.ctx]
    rfl
  · rw [avesUp_of_regs ku.regs, ← hl]
    congr 1
    funext b
    rw [(aveSetup.of_regs (a := b) ku.regs).sub]

theorem aveRto_sentAgain (hn : s.aveRank (s.aveSub a) a = none) (hx : s.exqWaits (s.aveSub a) = false) :
    completes (.aveRtoExpiry a) s fun t => t.time = max s.time (g.at_ + s.usTicks (s.avePar a fAVE_PARAM_RTO_US)) ∧
          (t.aveU a).ranges = [{ g with at_ := t.time, tries := g.tries + 1, reports := 0 }] ∧
          t.fld (rAVE_CNT0 a) fAVE_CNT0_RETX = satN 32 (s.fld (rAVE_CNT0 a) fAVE_CNT0_RETX + 1) ∧
          aveSent a 3 1 g.lo 0 ((s.aveU a).byOf g.lo) (s.aveBytes a (s.aveCtx a) g.lo g.hi) s t ∧
          onlyIn (mRegs ||| mOuts ||| mTime ||| mAve) [rAVE_CNT0 a, rNET_SUB_CNT0 (s.aveSub a)] [] s t := by
  obtain ⟨u, e, k, hrs, htm, ko, hra, hag, hlu⟩ := aveRto_resends hg h3 hi hr hs ha ht hh hc hl
  have hf := aveFirst_again hlu (k.aveRank.trans hn)
  rw [hra] at hf
  have hodd : (2 * (s.ctx (s.aveCtx a)).cls + 1) % 2 = 1 := by omega
  have hcu := aveCanSend_of hc k.regs (k.rest.net (by decide))
  have hserve : u.aveServeAgain (s.aveSub a) = u.aveDataAgain a { g with again := true } := by
    unfold State.aveServeAgain
    rw [hf, ← aveServe_again (i := s.aveSub a) (by rw [← k.setup.sub]; exact hcu.1) (by rw [← k.setup.sub]; exact hcu.2) hf hodd
      (.inr (k.exqWaits.trans hx)) hag]
    exact if_pos hodd
  obtain ⟨b1, b2, b3, b4⟩ := aveDataAgain_effect (g := { g with again := true }) hcu rfl
  rw [← hserve] at b1 b2 b3 b4
  rw [k.setup.sub] at b4
  have htime : (u.aveServeAgain (s.aveSub a)).time = u.time := b4.1.time (by decide)
  refine ⟨_, e, htime.trans htm, ?_, by rw [b2, State.fld_congr k.regs], ?_,
    (ko.mono (by decide) (List.nil_subset _) (List.Subset.refl _)).trans (b4.mono (by decide) (List.Subset.refl _) (List.Subset.refl _))⟩
  · rw [b1, htime]
    show (u.aveU a).ranges.map _ = _
    rw [hrs, List.map_cons, List.map_nil, if_pos rfl, ← ha]
  · rw [k.setup.ctx, k.aveBytes, k.byOf] at b3
    exact b3.from k.setup (k.rest.outs (by decide))

theorem aveRto_waits (hn : s.aveRank (s.aveSub a) a ≠ none) :
    completes (.aveRtoExpiry a) s fun t => t.time = max s.time (g.at_ + s.usTicks (s.avePar a fAVE_PARAM_RTO_US)) ∧
          (t.aveU a).ranges = [{ g with again := true }] ∧ onlyIn (mTime ||| mAve) [] [] s t := by
  obtain ⟨u, e, k, hrs, htm, ko, hra, hag, hlu⟩ := aveRto_resends hg h3 hi hr hs ha ht hh hc hl
  obtain ⟨r, hr⟩ := Option.ne_none_iff_exists'.mp hn
  have hcls := aveRank_class hr
  have hf := aveFirst_data hlu (k.aveRank.trans hr) fun q hq => serveBefore_later (by
    have := aveRankAgain_class hq
    rw [k.setup.ctx, k.ctx] at this
    omega)
  have hserve : u.aveServeAgain (s.aveSub a) = u := by
    unfold State.aveServeAgain
    rw [hf]
    exact if_neg (by rw [hcls]; omega)
  rw [hserve] at e
  exact ⟨_, e, htm, hrs, ko⟩

end

/-! ### DEAD_MS, and the end of a quarantine -/

theorem aveDead_fails (h3 : s.aveState a = 3) (hl : s.linkUp (s.aveSub a) = true) (hi : s.aveIn a = true) (hp : (s.aveU a).part = [])
    (hh : s.held = false) :
    completes (.aveDeadExpiry a) s fun t => t.aveState a = 5 ∧ t.fld (rAVE_STATUS a) fAVE_STATUS_REASON = 3 ∧
        t.time = max s.time ((s.aveU a).heard + s.usTicks (s.avePar a fAVE_PARAM_DEAD_MS * 1000)) ∧
        onlyIn (mEvent ||| mTime ||| mAve) [rAVE_STATUS a] [930] s t := by
  obtain ⟨k, ka, kt, ko⟩ := aveReached (a := a) hg hh
    (rfl : max s.time ((s.aveU a).heard + s.usTicks (s.avePar a fAVE_PARAM_DEAD_MS * 1000)) = _) rfl
  have e : exec (.aveDeadExpiry a) s = .next (s.aveDead a) := next_live hg rfl
  unfold State.aveDead at e
  rw [if_pos (by simp [h3, hl])] at e
  generalize s.reach _ = w at *
  obtain ⟨b1, b2, b3⟩ := aveFail_inbound (s := w) (a := a) (k := 3) (by rw [ka]; exact hp) (by rw [k.setup.inb]; exact hi) (by decide) rfl
  exact ⟨_, e, b1, b2, (b3.1.time (by decide)).trans kt, (ko.mono (by decide) (List.nil_subset _) (List.nil_subset _)).trans
    (b3.mono (by decide) (List.Subset.refl _) (List.Subset.refl _))⟩

theorem aveQuarEnd_effect {n : Nat} (h6 : s.aveState a = 6) (hp : (s.aveU a).prev < 8) (hh : s.held = false)
    (hn : max s.time ((s.aveU a).quar + s.usTicks 1000000) = n) :
    completes (.aveQuarantineEnd a) s fun t => t.aveState a = (s.aveU a).prev ∧ t.time = n ∧ t.aveU a = (s.aveU a).restartAt n ∧
        onlyIn (mRegs ||| mTime ||| mAve) [rAVE_STATUS a] [] s t := by
  obtain ⟨k, ka, kt, ko⟩ := aveReached (a := a) hg hh hn rfl
  have e : exec (.aveQuarantineEnd a) s = .next (s.aveQuarEnd a) := next_live hg rfl
  unfold State.aveQuarEnd at e
  rw [if_pos h6] at e
  dsimp only at e
  generalize s.reach _ = w at *
  have t1 := touches_State.updAve w a fun v => v.restartAt w.time
  have r1 := State.updAve_regs w a fun v => v.restartAt w.time
  have a1 := aveU_updAve_same w a fun v => v.restartAt w.time
  generalize w.updAve a _ = u at *
  refine ⟨_, e, aveState_set hp, ?_, ?_, ?_⟩
  · rw [State.setAveState, State.setFld_time, t1.time (by decide), kt]
  · rw [State.setAveState, aveU_of_ave (State.setFld_ave _ _ _ _), a1, ka, kt]
  · refine .of_hi (.setFld (.other (ko.mono (by decide) (List.nil_subset _) (List.Subset.refl _)) t1 (by decide) r1)) ?_
    simp only [List.mem_singleton, rAVE_STATUS]
    omega

end

end Sys2Proof

end

section
/-! SUPPORT. The states of avenues, together (R468 to R477). -/

set_option Elab.async false

namespace Sys2Proof

open Sys2Proof.Machine

section

variable {i : Fin 16} {p q : AvePkt} {s : State} {a ty : Nat}

/-- A packet that the state does not allow (Table 21-5) is a violation. -/
theorem avePacket_rejected (ht : pktType q = ty)
    (h : ty = 1 ∧ s.aveState a ≠ 2 ∧ s.aveState a ≠ 3 ∨ ty = 2 ∧ s.aveState a ≠ 1 ∧ s.aveState a ≠ 3 ∨
      ty = 3 ∧ (s.aveState a ≠ 3 ∨ s.aveIn a = false) ∨ ty = 4 ∧ (s.aveState a ≠ 3 ∨ s.aveIn a = true) ∨
      ty = 6 ∧ s.aveState a ≠ 3 ∨ ty = 7 ∧ s.aveState a ≠ 4 ∨ (ty = 8 ∨ ty = 9) ∧ s.aveState a ≠ 3) :
    ∃ o, s.avePacket a q = s.aveReject a 6 o q := by
  obtain ⟨rfl, h1, h2⟩ | ⟨rfl, h1, h2⟩ | ⟨rfl, h⟩ | ⟨rfl, h⟩ | ⟨rfl, h⟩ | ⟨rfl, h⟩ | ⟨rfl | rfl, h⟩ := h
  · exact ⟨0, by rw [avePacket_open ht, if_neg (by simp [h1]), if_neg (by simp [h2])]⟩
  · exact ⟨0, by rw [avePacket_openAck ht, if_neg (by simp [h1]), if_neg (by simp [h2])]⟩
  · exact ⟨_, by rw [avePacket_data ht, if_neg (by obtain h | h := h <;> simp [h])]⟩
  · exact ⟨_, by rw [avePacket_ack ht, if_neg (by obtain h | h := h <;> simp [h])]⟩
  · exact ⟨_, by rw [avePacket_close ht, if_neg h]⟩
  · exact ⟨_, by rw [avePacket_closeAck ht, if_neg h]⟩
  · exact ⟨0, by rw [avePacket_trigger ht, if_neg h]⟩
  · exact ⟨0, by rw [avePacket_trigAck ht, if_neg h]⟩

theorem field12_lt (w : Word) : fget w ⟨44, 12⟩ < 4096 := fget_lt w ⟨44, 12⟩

end

/-! ### The obligation -/

/-- Settles O54, by the host's commands, the packets in each state, violations and the timers. -/
theorem avenueStates : Obligations.AvenueStates := by
  unfold Obligations.AvenueStates
  refine ⟨fun a v x s hr hx => ⟨fun h => aveCmdOpen_refused hr (.inl ⟨h, rfl⟩), fun h hb => aveCmdOpen_refused hr (.inr (.inl ⟨h, hb, rfl⟩)),
      fun h hb ha => aveCmdOpen_refused hr (.inr (.inr (.inl ⟨h, hb, ha, rfl⟩))),
      fun h hb ha hx => aveCmdOpen_refused hr (.inr (.inr (.inr ⟨h, hb, ha, hx, rfl⟩))),
      fun h hb ha hx => ⟨aveCmdOpen_listen hr h hb ha hx, aveCmdOpen_opening hr h hb ha hx⟩, aveCmdClose_refused hr, aveCmdClose_effect hr,
      aveCmdReset_refused hr, aveCmdReset_effect hr, aveCmdSkip_refused hr, aveCmdSkip_none hr hx, fun d n h3 => aveCmdSkip_effect hr hx h3⟩,
    fun i p s hg e he => ?packets,
    fun i a p q s => ⟨pktOpen_opens, pktOpenAck_opens, pktOpenAck_again, pktNak_heard, pktClose_closes, pktCloseAck_closes⟩,
    fun a now s hg => ?timers⟩
  case packets =>
    have run := packet_runs (i := i) (p := p) hg he
    refine ⟨fun h => run.trans (congrArg Host.Outcome.next (packetIn_down h)), fun q a hl hq ha => ?_, fun q a ht hb => ?_⟩
    · have hup := packetIn_up hl hq
      have ha12 : a < 4096 := by rw [← ha]; exact field12_lt _
      have go {t : State} (h : s.aveRx i q = t) : exec (e.1 i p) s = .next t := run.trans (congrArg Host.Outcome.next (hup.trans h))
      refine ⟨fun hh hm => go ?_, fun hh hm h6 => ?_, fun hh hm => ?_, fun hm h6 => go (aveRx_quarantined ha hm h6),
        fun hh hm h6 ht hn => go (aveRx_badNonce ha hm h6 hh (by rw [pktType_set (packetType_small he) hq]; exact ht) hn)⟩
      · rw [aveRx_unmatched ha hm, hh]
        rfl
      · obtain ⟨b1, b2, b3, -, b5⟩ := aveCount_effect (s := s) (code := 1) ha12 (by decide) rfl
        exact ⟨_, go (aveRx_badHeader ha hm h6 hh), b1, b2, b3, b5⟩
      · obtain ⟨b1, b2, b3⟩ := aveUnmatched_effect (s := s) (q := q) i.isLt rfl
        exact ⟨_, go (by rw [aveRx_unmatched ha hm, if_pos hh]), b1, b2, b3⟩
    · obtain ⟨h1, h2⟩ := packet_taken ht (e := e.1) he
      have ha12 := aveTakes_lt ht
      obtain ⟨o, ho⟩ := avePacket_rejected h2 hb
      rw [ho] at h1
      refine ⟨fun hv => ?_, fun hv hw => ?_⟩
      · obtain ⟨b1, b2, b3, ⟨n, vs, b4⟩, b5⟩ := aveReject_counted (s := s) (code := 6) (ofs := o) (p := q) ha12 (by decide) hv rfl
        exact ⟨_, h1, b1, b2, b3, by rw [b4], b5⟩
      · have h0 := aveTakes_up ht
        obtain ⟨-, -, -, -, -, -, h6, -⟩ := ht
        exact ⟨_, h1, aveReject_quarantines ha12 (by decide) hv hw h0 h6 rfl⟩
  case timers =>
    refine ⟨fun h => ⟨next_live hg (aveRto_down h), next_live hg (aveDead_off (.inl h))⟩, fun h1 h3 h4 => next_live hg (aveRto_idle h1 h3 h4),
      fun h => next_live hg (aveDead_off (.inr h)), fun hn hh hc => ⟨aveRto_opensAgain hg hn hh hc, aveRto_givesUpOpening hg hn hh hc,
        aveRto_closesAgain hg hn hh hc, aveRto_givesUpClosing hg hn hh hc⟩, fun h3 hf => ?_,
      fun g h3 hi hr hs ha ht hh hc hl => ⟨aveRto_sentAgain hg h3 hi hr hs ha ht hh hc hl, aveRto_waits hg h3 hi hr hs ha ht hh hc hl⟩,
      aveDead_fails hg, fun h => next_live hg (if_neg h), fun n => aveQuarEnd_effect hg⟩
    cases hl : s.linkUp (s.aveSub a) with
    | true => exact next_live hg (aveRto_none hl h3 hf)
    | false => exact next_live hg (aveRto_down hl)

end Sys2Proof

end

section
/-! SUPPORT. The data that an avenue sends for the first time (R369, R469, R472). -/

set_option Elab.async false

namespace Sys2Proof

open Sys2Proof.Machine

section

variable {a i : Nat} {s : State}

theorem aveServe_nothing (h : s.linkUp i = false ∨ (s.netS i).pause ≠ none ∨ (s.avesUp.filter fun a => s.aveSub a == i) = []) : s.aveServe i = s := by
  unfold State.aveServe
  by_cases hl : (!s.linkUp i || (s.netS i).pause.isSome) = true
  · exact if_pos hl
  · rw [if_neg hl]
    obtain h | h | h := h
    · exact absurd (by simp [h]) hl
    · exact absurd (by simp [Option.isSome_iff_ne_none.mpr h]) hl
    · have hf : s.aveFirst i = none := by
        unfold State.aveFirst State.aveWaits
        rw [h]
        rfl
      rw [hf]

theorem aveServe_behind {e : Nat × (Nat × Nat × Nat)} (h : s.aveFirst i = some e) (h5 : 5 ≤ e.2.1) (hx : s.exqWaits i = true) : s.aveServe i = s := by
  unfold State.aveServe
  by_cases hl : (!s.linkUp i || (s.netS i).pause.isSome) = true
  · exact if_pos hl
  · rw [if_neg hl, h]
    exact if_pos (by simp [h5, hx])

theorem aveServe_data {r : Nat × Nat × Nat} (hl : s.linkUp i = true) (hp : (s.netS i).pause = none) (hf : s.aveFirst i = some (a, r))
    (he : r.1 % 2 = 0) (h5 : r.1 < 5 ∨ s.exqWaits i = false) :
    s.aveServe i = (s.aveData a).hadTurn 3 i (r.1 / 2) (s.aveCtx a) ((s.aveData a).aveAtEnd a) := by
  unfold State.aveServe
  rw [if_neg (by rw [hl, hp]; decide), hf]
  dsimp only
  rw [if_neg, if_neg (by omega)]
  obtain h | h := h5
  · rw [decide_eq_false (by omega)]
    simp
  · rw [h]
    simp

end

/-! ### One whole record as one packet -/

/-- What avenue `a` begins in its stream as record `r` of its context at destination `d`. -/
def aveRecOf (s : State) (a x d : Nat) (r : CordRec) : AveRec :=
  ⟨(s.aveU a).next, r.pos, r.len, (if r.missed.getD d false then flLate else 0) ||| (if s.streamBad x r.pos r.len then flDataError else 0)
    ||| (if ((s.ctx x).dest d).gap.any (· < r.pos) then flGap else 0), (s.ctx x).deliverBy r⟩

/-- The state in which avenue `a` has put the whole of record `r` into its stream. -/
def aveWhole (s : State) (a x d : Nat) (r : CordRec) : State :=
  ((s.aveBegin a x d r).updAve a fun v => { v with next := v.next + r.len }).deliveredTo x d (r.pos + r.len)

section

variable {s : State} {a x d : Nat} {r : CordRec} (hr : (s.ctx x).recs = [r]) (hd : d < (s.ctx x).dests.length)
  (hrecs : (s.aveU a).recs = [])

include hrecs

theorem aveNext_fresh (hn : (s.ctx x).nextRec d = some r) : s.aveNext a x d = some (r.pos, r.len, some r) := by
  unfold State.aveNext
  dsimp only
  rw [hrecs, hn]
  rfl

include hd

theorem aveWhole_effect {u : State} (e : aveWhole s a x d r = u) :
    u.aveU a = { s.aveU a with recs := [aveRecOf s a x d r], next := (s.aveU a).next + r.len } ∧ (∃ ds, u.ctx x = { s.ctx x with dests := ds }) ∧
      ((u.ctx x).dest d).begun = max ((s.ctx x).dest d).begun (r.pos + r.len) ∧ ((u.ctx x).dest d).fin = ((s.ctx x).dest d).fin ∧
      Touches (mCtxs ||| mAve) s u := by
  unfold aveWhole State.aveBegin State.beginRec State.deliveredTo at e
  dsimp only at e
  have t1 := touches_State.updAve s a fun v => { v with recs := v.recs ++ [⟨v.next, r.pos, r.len, (if r.missed.getD d false then flLate else 0) |||
    (if s.streamBad x r.pos r.len then flDataError else 0) ||| (if ((s.ctx x).dest d).gap.any (· < r.pos) then flGap else 0), (s.ctx x).deliverBy r⟩] }
  have a1 := aveU_updAve_same s a fun v => { v with recs := v.recs ++ [⟨v.next, r.pos, r.len, (if r.missed.getD d false then flLate else 0) |||
    (if s.streamBad x r.pos r.len then flDataError else 0) ||| (if ((s.ctx x).dest d).gap.any (· < r.pos) then flGap else 0), (s.ctx x).deliverBy r⟩] }
  rw [hrecs] at a1
  have a1' : _ = { s.aveU a with recs := [aveRecOf s a x d r] } := a1
  generalize s.updAve a _ = u1 at *
  have t2 := touches_State.updCtx u1 x fun c => c.updDest d fun t =>
    { t with begun := max t.begun (r.pos + r.len), gap := if r.typ = tyPad then t.gap else t.gap.filter (r.pos ≤ ·) }
  have c2 := ctx_updCtx_same u1 x fun c => c.updDest d fun t =>
    { t with begun := max t.begun (r.pos + r.len), gap := if r.typ = tyPad then t.gap else t.gap.filter (r.pos ≤ ·) }
  generalize u1.updCtx x _ = u2 at *
  have t3 := touches_State.updAve u2 a fun v => { v with next := v.next + r.len }
  have a3 := aveU_updAve_same u2 a fun v => { v with next := v.next + r.len }
  generalize u2.updAve a _ = u3 at *
  have t4 := touches_State.updCtx u3 x fun c => c.updDest d fun t => { t with doneTo := max t.doneTo (r.pos + r.len) }
  have c4 := ctx_updCtx_same u3 x fun c => c.updDest d fun t => { t with doneTo := max t.doneTo (r.pos + r.len) }
  rw [e] at t4 c4
  rw [ctx_of_ctxs (t3.ctxs (by decide)), c2, ctx_of_ctxs (t1.ctxs (by decide))] at c4
  have hl2 : d < ((s.ctx x).updDest d fun t => { t with
      begun := max t.begun (r.pos + r.len), gap := if r.typ = tyPad then t.gap else t.gap.filter (r.pos ≤ ·) }).dests.length := by
    rw [dests_updDest_length]
    exact hd
  refine ⟨?_, ⟨_, c4⟩, ?_, ?_, (t1.mono (by decide)).trans ((t2.mono (by decide)).trans ((t3.mono (by decide)).trans (t4.mono (by decide))))⟩
  · rw [aveU_of_ave (t4.ave (by decide)), a3, aveU_of_ave (t2.ave (by decide)), a1']
  · rw [c4, dest_updDest_same _ hl2, dest_updDest_same _ hd]
  · rw [c4, dest_updDest_same _ hl2, dest_updDest_same _ hd]

/-- After the whole record nothing of the context is left to send. -/
theorem aveWhole_done {u : State} (hr : (s.ctx x).recs = [r]) (h0 : 0 < r.len) (e : aveWhole s a x d r = u) (room : Nat) : u.aveNow a x d room = 0 := by
  obtain ⟨b1, ⟨ds, b2⟩, b3, -, -⟩ := aveWhole_effect hd hrecs e
  have hn : (u.ctx x).nextRec d = none := by
    unfold Ctx.nextRec
    rw [b3, b2]
    refine List.find?_eq_none.mpr fun q hq => ?_
    rw [show q = r from List.mem_singleton.mp (hr ▸ hq)]
    simp only [Bool.and_eq_true, decide_eq_true_eq, not_and_or]
    exact .inl (.inl (by omega))
  have hx : u.aveNext a x d = none := by
    unfold State.aveNext
    dsimp only
    rw [b1, hn]
    exact if_neg (Nat.lt_irrefl _)
  unfold State.aveNow
  rw [hx]

theorem aveGather_one {m : Nat} (hr : (s.ctx x).recs = [r]) (hn : (s.ctx x).nextRec d = some r) (h0 : 0 < r.len)
    (hk : s.aveNow a x d m = r.len) : State.aveGather (m / 64 + 1) s a x d m = aveWhole s a x d r := by
  have hstop (n room : Nat) : State.aveGather n (aveWhole s a x d r) a x d room = aveWhole s a x d r := by
    cases n with
    | zero => rfl
    | succ n =>
      unfold State.aveGather
      dsimp only
      rw [aveWhole_done hd hrecs hr h0 rfl]
      exact if_pos rfl
  conv_lhs => unfold State.aveGather
  dsimp only
  rw [hk, if_neg (Nat.ne_of_gt h0), aveNext_fresh hrecs hn]
  exact hstop _ _

/-- What avenue `a` may send now of its whole next record. -/
theorem aveNow_whole {m : Nat} (hn : (s.ctx x).nextRec d = some r) (h64 : r.len % 64 = 0) (hm : r.len ≤ m)
    (hlim : r.len ≤ (s.aveU a).limit - (s.aveU a).next) (hav : r.pos + r.len ≤ s.availEnd x) : s.aveNow a x d m = r.len := by
  unfold State.aveNow
  rw [aveNext_fresh hrecs hn]
  dsimp only
  omega

theorem aveNow_some (hn : (s.ctx x).nextRec d = some r) (h0 : 0 < r.len) (h64 : r.len % 64 = 0)
    (hlim : r.len ≤ (s.aveU a).limit - (s.aveU a).next) (hav : r.pos + r.len ≤ s.availEnd x) : s.aveNow a x d 64 ≠ 0 := by
  unfold State.aveNow
  rw [aveNext_fresh hrecs hn]
  dsimp only
  omega

end

/-! ### The packet -/

section

variable {s t : State} {a x d i : Nat} {r : CordRec}

/-- The bytes of the packet are the record's copy. -/
theorem aveWhole_bytes {u : State} (hd : d < (s.ctx x).dests.length) (hrecs : (s.aveU a).recs = []) (h0 : 0 < r.len) (e : aveWhole s a x d r = u) :
    u.aveBytes a x (s.aveU a).next ((s.aveU a).next + r.len) = s.copyRec x d r ∧ (u.aveU a).byOf (s.aveU a).next = (s.ctx x).deliverBy r := by
  obtain ⟨b1, ⟨ds, b2⟩, -, -, b5⟩ := aveWhole_effect hd hrecs e
  have hread (p n : Nat) : u.readStream x p n = s.readStream x p n := by
    unfold State.readStream
    rw [b2, b5.store (by decide)]
  refine ⟨?_, ?_⟩
  · unfold State.aveBytes
    rw [b1]
    dsimp only
    have ho : (aveRecOf s a x d r).ofs = (s.aveU a).next := rfl
    have hl : (aveRecOf s a x d r).len = r.len := rfl
    have hp : (aveRecOf s a x d r).pos = r.pos := rfl
    rw [List.flatMap_cons, List.flatMap_nil, List.append_nil, ho, hl, hp, Nat.max_self, Nat.min_self, if_neg (by omega), if_pos rfl, hread, Nat.sub_self, Nat.add_zero, Nat.add_sub_cancel_left]
    rfl
  · unfold Ave.byOf
    rw [b1]
    dsimp only
    have hin : decide ((s.aveU a).next < (aveRecOf s a x d r).ofs + (aveRecOf s a x d r).len) = true :=
      decide_eq_true (Nat.lt_add_of_pos_right h0)
    rw [List.find?_cons, hin]
    rfl

/-- A sub-port sends the next record of its one avenue as one DATA packet. -/
theorem aveServe_record (hl : s.linkUp i = true) (hp : (s.netS i).pause = none) (ha : (s.avesUp.filter fun a => s.aveSub a == i) = [a])
    (hi : s.aveIn a = false) (h3 : s.aveState a = 3) (hx : s.aveCtx a = x) (hf : (s.ctx x).findDest 3 a = some d)
    (hd : d < (s.ctx x).dests.length) (hrecs : (s.aveU a).recs = []) (hr : (s.ctx x).recs = [r]) (hn : (s.ctx x).nextRec d = some r) (h0 : 0 < r.len)
    (h64 : r.len % 64 = 0) (hm : r.len ≤ s.aveMax i (s.aveV6 a)) (hlim : r.len ≤ (s.aveU a).limit - (s.aveU a).next)
    (hav : r.pos + r.len ≤ s.availEnd x) (h5 : (s.ctx x).cls < 3 ∨ s.exqWaits i = false) (e : s.aveServe i = t) :
    (t.aveU a).next = (s.aveU a).next + r.len ∧
        (t.aveU a).ranges = (s.aveU a).ranges ++ [⟨(s.aveU a).next, (s.aveU a).next + r.len, s.time, 1, 0, false, false⟩] ∧
        t.fld (rAVE_CNT0 a) fAVE_CNT0_PACKETS = (s.fld (rAVE_CNT0 a) fAVE_CNT0_PACKETS + 1) % 2 ^ 32 ∧
        ((t.ctx x).dest d).begun = max ((s.ctx x).dest d).begun (r.pos + r.len) ∧ ((t.ctx x).dest d).fin = ((s.ctx x).dest d).fin ∧
        aveSent a 3 0 (s.aveU a).next 0 ((s.ctx x).deliverBy r) (s.copyRec x d r) s t ∧
        onlyIn (mRegs ||| mOuts ||| mCtxs ||| mServed ||| mAve) [rAVE_CNT0 a, rNET_SUB_CNT0 i] [] s t := by
  have hsub : s.aveSub a = i := by
    have : a ∈ s.avesUp.filter fun a => s.aveSub a == i := by rw [ha]; exact List.mem_singleton.mpr rfl
    exact eq_of_beq (List.mem_filter.mp this).2
  have hsome : ∃ q, s.aveRank i a = some q := by
    unfold State.aveRank
    dsimp only
    rw [hx, hf]
    dsimp only
    rw [if_neg (by rw [hi, h3]; simpa using aveNow_some hd hrecs hn h0 h64 hlim hav)]
    exact ⟨_, rfl⟩
  obtain ⟨q, hq⟩ := hsome
  have hcls := aveRank_class hq
  rw [hx] at hcls
  have hfirst := aveFirst_data ha hq fun q' hq' => serveBefore_later (by
    have := aveRankAgain_class hq'
    rw [hx] at this
    omega)
  have e1 := aveServe_data hl hp hfirst (by rw [hcls]; omega) (h5.imp_left fun h => by omega)
  have hdata : s.aveData a = (((aveWhole s a x d r).updAve a fun v => { v with ranges := v.ranges ++
      [⟨(s.aveU a).next, (s.aveU a).next + r.len, s.time, 1, 0, false, false⟩] }).addMod (rAVE_CNT0 a) fAVE_CNT0_PACKETS 1).aveSend a 3 0
        (s.aveU a).next 0 ((s.ctx x).deliverBy r) (s.copyRec x d r) := by
    obtain ⟨h1, h2⟩ := aveWhole_bytes hd hrecs h0 (rfl : aveWhole s a x d r = _)
    obtain ⟨b1, -⟩ := aveWhole_effect hd hrecs (rfl : aveWhole s a x d r = _)
    unfold State.aveData
    dsimp only
    rw [hx, hf]
    dsimp only
    rw [hsub, aveGather_one hd hrecs hr hn h0 (aveNow_whole hd hrecs hn h64 hm hlim hav), b1]
    dsimp only
    rw [if_neg (by omega), h1]
    rw [b1] at h2
    rw [h2]
  obtain ⟨b1, ⟨ds, b2⟩, b3, b4, b5⟩ := aveWhole_effect hd hrecs (rfl : aveWhole s a x d r = _)
  rw [hdata] at e1
  rw [e1] at e
  clear e1 hdata
  generalize aveWhole s a x d r = u at *
  have a1 := aveU_updAve_same u a fun v => { v with ranges := v.ranges ++ [⟨(s.aveU a).next, (s.aveU a).next + r.len, s.time, 1, 0, false, false⟩] }
  have t1 := touches_State.updAve u a fun v => { v with ranges := v.ranges ++ [⟨(s.aveU a).next, (s.aveU a).next + r.len, s.time, 1, 0, false, false⟩] }
  generalize u.updAve a _ = v at *
  have tv : Touches (mCtxs ||| mAve) s v := b5.trans (t1.mono (by decide))
  have rv : v.regs = s.regs := tv.regs (by decide)
  have c1 := ctx_of_ctxs (t1.ctxs (by decide)) x
  have hhi : ∀ q ∈ [rAVE_CNT0 a, rNET_SUB_CNT0 i], 0x1000 ≤ q := by
    simp only [List.mem_cons, List.not_mem_nil, or_false, rAVE_CNT0, rNET_SUB_CNT0]
    omega
  have k2 : onlyIn (mRegs ||| mOuts ||| mCtxs ||| mServed ||| mAve) [rAVE_CNT0 a, rNET_SUB_CNT0 i] [] s (v.addMod (rAVE_CNT0 a) fAVE_CNT0_PACKETS 1) :=
    .of_hi (.addMod (.other (.refl _ _ _ _) tv (by decide) rv)) hhi
  have f2 := (State.fld_addMod_self v (rAVE_CNT0 a) fAVE_CNT0_PACKETS 1 (by decide)).trans (congrArg (fun n => (n + 1) % 2 ^ 32) (State.fld_congr rv _ _))
  have s2 : aveSetup a s (v.addMod (rAVE_CNT0 a) fAVE_CNT0_PACKETS 1) := fun q hq => by
    refine (State.rd_addMod_other _ _ _ ?_).trans (State.rd_congr rv q)
    simp only [List.mem_cons, List.not_mem_nil, or_false, rAVE_CFG, rAVE_MAC, rAVE_IP0, rAVE_IP1, rAVE_PARAM, rAVE_GLOBAL, rGLB_DEVID, rTBS_TICK,
      rAVE_CNT0] at hq ⊢
    omega
  have l2 : (v.addMod (rAVE_CNT0 a) fAVE_CNT0_PACKETS 1).linkUp i = true := (linkUp_of_rd ((State.rd_addMod_other _ _ _
    (by simp only [rNET_SUB_STATUS, rAVE_CNT0]; have := aveSub_lt s a; omega)).trans (State.rd_congr rv _))).trans hl
  have n2 : (v.addMod (rAVE_CNT0 a) fAVE_CNT0_PACKETS 1).net = s.net := (State.addMod_net _ _ _ _).trans (tv.net (by decide))
  have o2 : (v.addMod (rAVE_CNT0 a) fAVE_CNT0_PACKETS 1).outs = s.outs := (State.addMod_outs _ _ _ _).trans (tv.outs (by decide))
  have a2 := (aveU_of_ave (State.addMod_ave v (rAVE_CNT0 a) fAVE_CNT0_PACKETS 1) a).trans a1
  have c2 := (ctx_of_ctxs (State.addMod_ctxs v (rAVE_CNT0 a) fAVE_CNT0_PACKETS 1) x).trans c1
  generalize v.addMod (rAVE_CNT0 a) fAVE_CNT0_PACKETS 1 = w at *
  obtain ⟨g1, g2, -, g4⟩ := aveSend_effect (s := w) (a := a) (typ := 3) (hi := 0) (ofs := (s.aveU a).next) (aux := 0) (time := (s.ctx x).deliverBy r)
    (body := s.copyRec x d r) ⟨by rw [s2.sub, hsub]; exact l2, by rw [s2.sub, hsub, netS_of_net n2]; exact hp⟩ rfl
  rw [s2.sub, hsub] at g4
  have g5 := g1.from s2 o2
  generalize w.aveSend a 3 0 _ 0 _ _ = z at *
  have th := touches_State.hadTurn z 3 i (q.1 / 2) x (z.aveAtEnd a)
  rw [← hx, e] at th
  have az : t.aveU a = w.aveU a := (aveU_of_ave (th.ave (by decide)) a).trans (aveU_of_ave g2 a)
  have cz : t.ctx x = u.ctx x := (ctx_of_ctxs (th.ctxs (by decide)) x).trans ((ctx_of_ctxs (g4.1.ctxs (by decide)) x).trans c2)
  have hrd (q : Nat) : t.rd q = z.rd q := State.rd_congr (th.regs (by decide)) q
  refine ⟨by rw [az, a2, b1], by rw [az, a2, b1], ?_, by rw [cz, b3], by rw [cz, b4], g5.of (.refl _ _) rfl (l := []) ?_
    (fun _ h => absurd h List.not_mem_nil) ?_, ?_⟩
  · rw [← f2]
    exact fld_of_rd ((hrd _).trans (g4.ave_rd (by simp only [List.mem_singleton, rAVE_CNT0, rNET_SUB_CNT0]; have := aveSub_lt s a; omega)
      (by simp only [rAVE_CNT0]; omega) (by simp)))
  · rw [th.outs (by decide), List.append_nil]
  · rw [aveU_of_ave (th.ave (by decide))]
  · exact (k2.trans (g4.mono (by decide) (by simp) (List.Subset.refl _))).other th (by decide) (th.regs (by decide))

end

end Sys2Proof

end

section
/-! SUPPORT. DATA on an inbound avenue, and ACKs (R470 to R474). -/

set_option Elab.async false

namespace Sys2Proof

open Sys2Proof.Machine

/-! ### An ACK leaves -/

section

variable {a : Nat} {s t : State}

/-- What an ACK carries of the packets held ahead. -/
def aveSack (v : Ave) : List (Nat × Nat) := (joinRanges (v.ahead.map fun e => (e.1, e.1 + e.2.length))).take 8

/-- What an avenue is once it has acknowledged. -/
def Machine.Ave.acknowledged (v : Ave) (lim now : Nat) : Ave := { v with limit := lim, acked := v.next, ackAt := none, idle := now }

theorem aveAck_effect (e : s.aveAck a = t) :
    t.aveU a = (s.aveU a).acknowledged (s.aveLimit a) s.time ∧ onlyIn (mRegs ||| mOuts ||| mNet ||| mAve) [rNET_SUB_CNT0 (s.aveSub a)] [] s t := by
  unfold State.aveAck at e
  dsimp only at e
  have t1 := touches_State.updAve s a fun v => { v with limit := s.aveLimit a, acked := v.next, ackAt := none, idle := s.time }
  have r1 := State.updAve_regs s a fun v => { v with limit := s.aveLimit a, acked := v.next, ackAt := none, idle := s.time }
  have a1 := aveU_updAve_same s a fun v => { v with limit := s.aveLimit a, acked := v.next, ackAt := none, idle := s.time }
  generalize s.updAve a _ = u at *
  have k := onlyIn_aveSend u a 4 0 (s.aveU a).next (aveSack (s.aveU a)).length (s.aveLimit a) ((aveSack (s.aveU a)).flatMap fun e => leBytes 8 e.1 ++ leBytes 8 e.2)
  have ka := (touches_State.aveSend u a 4 0 (s.aveU a).next (aveSack (s.aveU a)).length (s.aveLimit a)
    ((aveSack (s.aveU a)).flatMap fun e => leBytes 8 e.1 ++ leBytes 8 e.2)).ave (by decide)
  rw [(aveSetup.of_regs r1).sub] at k
  change u.aveSend a 4 0 (s.aveU a).next (aveSack (s.aveU a)).length (s.aveLimit a) ((aveSack (s.aveU a)).flatMap fun e => leBytes 8 e.1 ++ leBytes 8 e.2) = t at e
  rw [e] at k ka
  exact ⟨(aveU_of_ave ka a).trans a1, (onlyIn.other (.refl _ _ _ _) t1 (by decide) r1).trans (k.mono (by decide) (List.Subset.refl _) (List.Subset.refl _))⟩

/-- With nothing held ahead the ACK carries the next offset and LIMIT alone. -/
theorem aveAck_plain (hc : aveCanSend a s) (ha : (s.aveU a).ahead = []) (e : s.aveAck a = t) :
    aveSent a 4 0 (s.aveU a).next 0 (t.aveU a).limit [] s t ∧ onlyIn (mRegs ||| mOuts ||| mAve) [rNET_SUB_CNT0 (s.aveSub a)] [] s t := by
  obtain ⟨b1, -⟩ := aveAck_effect e
  unfold State.aveAck at e
  dsimp only at e
  rw [ha] at e
  have t1 := touches_State.updAve s a fun v => { v with limit := s.aveLimit a, acked := v.next, ackAt := none, idle := s.time }
  have r1 := State.updAve_regs s a fun v => { v with limit := s.aveLimit a, acked := v.next, ackAt := none, idle := s.time }
  generalize s.updAve a _ = u at *
  change u.aveSend a 4 0 (s.aveU a).next 0 (s.aveLimit a) [] = t at e
  obtain ⟨g1, -, -, g4⟩ := aveSend_effect (aveCanSend_of hc r1 (t1.net (by decide))) e
  rw [(aveSetup.of_regs r1).sub] at g4
  have hlim : (t.aveU a).limit = s.aveLimit a := by rw [b1]; rfl
  rw [hlim]
  exact ⟨g1.from (.of_regs r1) (t1.outs (by decide)), (onlyIn.other (.refl _ _ _ _) t1 (by decide) r1).trans
    (g4.mono (by decide) (List.Subset.refl _) (List.Subset.refl _))⟩

/-- The LIMIT granted never falls. -/
theorem le_aveLimit (s : State) (a : Nat) : (s.aveU a).limit ≤ s.aveLimit a := Nat.le_max_left _ _

/-! ### The timers of an inbound avenue -/

theorem aveAckTimer_idle (h : (s.aveU a).ackAt = none ∨ s.aveState a ≠ 3 ∨ s.aveIn a = false) : s.aveAckTimer a = s := by
  unfold State.aveAckTimer
  split
  · next n hn =>
    refine if_neg ?_
    obtain h | h | h := h
    · rw [hn] at h
      cases h
    · simp [h]
    · simp [h]
  · rfl

theorem aveIdleAck_idle (h : (s.aveU a).ackAt ≠ none ∨ s.aveState a ≠ 3 ∨ s.aveIn a = false) : s.aveIdleAck a = s := by
  unfold State.aveIdleAck
  dsimp only
  refine if_neg ?_
  obtain h | h | h := h
  · simp [h]
  · simp [h]
  · simp [h]

end

section

variable {a : Fin 4096} {s : State} (hg : s.glb ≠ 0) (h3 : s.aveState a = 3) (hi : s.aveIn a = true) (hc : aveCanSend a s)
  (ha : (s.aveU a).ahead = []) (hh : s.held = false)

include hg h3 hi hc ha hh

theorem aveAckTimer_acks {t0 : Nat} (h0 : (s.aveU a).ackAt = some t0) :
    completes (.aveAckTimer a) s fun t => t.time = max s.time (t0 + s.usTicks (s.fld rAVE_GLOBAL fAVE_GLOBAL_ACK_US)) ∧
          (t.aveU a).ackAt = none ∧ (t.aveU a).acked = (s.aveU a).next ∧ (s.aveU a).limit ≤ (t.aveU a).limit ∧
          aveSent a 4 0 (s.aveU a).next 0 (t.aveU a).limit [] s t ∧
          onlyIn (mRegs ||| mOuts ||| mTime ||| mAve) [rNET_SUB_CNT0 (s.aveSub a)] [] s t := by
  obtain ⟨k, ka, kt, ko⟩ := aveReached (a := a) hg hh (rfl : max s.time (t0 + s.usTicks (s.fld rAVE_GLOBAL fAVE_GLOBAL_ACK_US)) = _) rfl
  have e : exec (.aveAckTimer a) s = .next (s.aveAckTimer a) := next_live hg rfl
  unfold State.aveAckTimer at e
  rw [h0] at e
  dsimp only at e
  rw [if_pos (by simp [h3, hi])] at e
  generalize s.reach _ = w at *
  obtain ⟨b1, -⟩ := aveAck_effect (rfl : w.aveAck a = _)
  obtain ⟨g1, g2⟩ := aveAck_plain (aveCanSend_of hc k.regs (k.rest.net (by decide))) (by rw [ka]; exact ha) (rfl : w.aveAck a = _)
  have hl := le_aveLimit w a
  rw [ka] at g1 hl
  rw [k.setup.sub] at g2
  refine ⟨_, e, (g2.1.time (by decide)).trans kt, by rw [b1]; rfl, by rw [b1, ka]; rfl, ?_, g1.from k.setup (k.rest.outs (by decide)),
    (ko.mono (by decide) (List.nil_subset _) (List.Subset.refl _)).trans (g2.mono (by decide) (List.Subset.refl _) (List.Subset.refl _))⟩
  rw [b1]
  exact hl

theorem aveIdleAck_acks (h0 : (s.aveU a).ackAt = none) :
    completes (.aveIdleAck a) s fun t =>
          t.time = max s.time ((s.aveU a).idle + s.usTicks (s.avePar a fAVE_PARAM_DEAD_MS * 250)) ∧ (t.aveU a).idle = t.time ∧
          aveSent a 4 0 (s.aveU a).next 0 (t.aveU a).limit [] s t ∧
          onlyIn (mRegs ||| mOuts ||| mTime ||| mAve) [rNET_SUB_CNT0 (s.aveSub a)] [] s t := by
  obtain ⟨k, ka, kt, ko⟩ := aveReached (a := a) hg hh (rfl : max s.time ((s.aveU a).idle + s.usTicks (s.avePar a fAVE_PARAM_DEAD_MS * 250)) = _) rfl
  have e : exec (.aveIdleAck a) s = .next (s.aveIdleAck a) := next_live hg rfl
  unfold State.aveIdleAck at e
  dsimp only at e
  rw [if_pos (by simp [h3, hi, h0])] at e
  generalize s.reach _ = w at *
  obtain ⟨b1, -⟩ := aveAck_effect (rfl : w.aveAck a = _)
  obtain ⟨g1, g2⟩ := aveAck_plain (aveCanSend_of hc k.regs (k.rest.net (by decide))) (by rw [ka]; exact ha) (rfl : w.aveAck a = _)
  rw [ka] at g1
  rw [k.setup.sub] at g2
  refine ⟨_, e, (g2.1.time (by decide)).trans kt, ?_, g1.from k.setup (k.rest.outs (by decide)),
    (ko.mono (by decide) (List.nil_subset _) (List.Subset.refl _)).trans (g2.mono (by decide) (List.Subset.refl _) (List.Subset.refl _))⟩
  rw [b1, g2.1.time (by decide)]
  rfl

end

end Sys2Proof

end

section
/-! SUPPORT. DATA received on an inbound avenue (R470, R472 to R474). -/

set_option Elab.async false

namespace Sys2Proof

open Sys2Proof.Machine

/-! ### The whole records of a stream (R474) -/

/-- A whole record is one of the avenue's context, without ring billets. -/
theorem wholeRecs_of {x : Nat} : ∀ {n : Nat} {bs : List Byte} {rs : List Prod} {left : List Byte} {bad : Bool},
    wholeRecs x n bs = (rs, left, bad) → ∀ r ∈ rs, r.ctx = x ∧ r.ring = [] := by
  intro n
  induction n with
  | zero =>
    intro bs rs left bad h r hr
    obtain ⟨rfl, -⟩ := Prod.mk.inj h
    exact absurd hr List.not_mem_nil
  | succ n ih =>
    intro bs rs left bad h r hr
    unfold wholeRecs at h
    dsimp only at h
    split at h
    · obtain ⟨rfl, -⟩ := Prod.mk.inj h
      exact absurd hr List.not_mem_nil
    split at h
    · obtain ⟨rfl, -⟩ := Prod.mk.inj h
      exact absurd hr List.not_mem_nil
    split at h
    · obtain ⟨rfl, -⟩ := Prod.mk.inj h
      exact absurd hr List.not_mem_nil
    obtain ⟨rfl, -⟩ := Prod.mk.inj h
    obtain rfl | hr := List.mem_cons.mp hr
    · exact ⟨rfl, rfl⟩
    · exact ih rfl r hr

section

variable {a : Nat} {q : AvePkt} {s t : State}

/-- Records passed on go to the avenue's inbox, and each that its context takes to the store. -/
theorem aveDeliver_good {bs left : List Byte} {rs : List Prod}
    (h : wholeRecs (s.aveCtx a) (((s.aveU a).part ++ bs).length / 32 + 1) ((s.aveU a).part ++ bs) = (rs, left, false)) {u : State}
    (eu : s.updAve a (fun v => { v with part := left }) = u) :
    s.aveDeliver a q bs = rs.foldl (fun t _ => t.portTake (aveBox a) fun r => (t.ctx r.ctx).waiting.isNone)
      (u.onPorts fun _ => SMap.upd ⟨[]⟩ u.ports (aveBox a) fun q => { q with inbox := q.inbox ++ rs }) := by
  unfold State.aveDeliver
  dsimp only
  rw [h]
  dsimp only
  rw [eu]
  exact if_neg (by decide)

/-- The reorder pool counts what is held ahead, and that alone. -/
theorem poolUsed_upd (s : State) (a port : Nat) {f : Ave → Ave} (h : ∀ v, (f v).ahead = v.ahead) : (s.updAve a f).poolUsed port = s.poolUsed port := by
  unfold State.poolUsed
  rw [avesUp_of_regs (State.updAve_regs s a f)]
  congr 1
  funext n b
  have hset : aveSetup b s (s.updAve a f) := .of_regs (State.updAve_regs s a f)
  have hv : ((s.updAve a f).aveU b).ahead = (s.aveU b).ahead := by
    by_cases hb : b = a
    · rw [hb, aveU_updAve_same, h]
    · rw [aveU_updAve_other _ _ hb]
  rw [hset.inb, hset.sub, hv]

end

/-! ### The four ways of a DATA packet -/

section

variable {a lo hi : Nat} {q : AvePkt} {s : State} (ho : q.w1.toNat = lo) (hh : lo + q.body.length = hi)

include ho hh

theorem aveTakeData_beyond (h : (s.aveU a).limit < hi) : s.aveTakeData a q = s.aveReject a 5 lo q := by
  unfold State.aveTakeData
  dsimp only
  rw [ho, hh]
  exact if_pos h

variable (hb : q.w3.toNat = 0 ∨ s.time ≤ q.w3.toNat) (hl : hi ≤ (s.aveU a).limit) {u : State}
  (eu : s.updAve a (fun v => { v with heard := s.time }) = u)

include hb hl eu

theorem aveTakeData_dup (h : hi ≤ (s.aveU a).next) : s.aveTakeData a q = (u.addSat (rAVE_CNT1 a) fAVE_CNT1_DUP 1).aveAck a := by
  have hlate : (q.w3.toNat != 0 && decide (q.w3.toNat < s.time)) = false := by simpa using fun _ => hb.resolve_left ‹_›
  unfold State.aveTakeData
  dsimp only
  rw [ho, hh, hlate, if_neg (Nat.not_lt.mpr hl), if_pos (by simp [h]), if_neg Bool.false_ne_true, eu]

theorem aveTakeData_ahead (h : (s.aveU a).next < lo) (ha : (s.aveU a).ahead = [])
    (hp : s.poolUsed (s.aveSub a / 4) + q.body.length ≤ 8388608) : s.aveTakeData a q =
    ((u.updAve a fun v => { v with ahead := insAhead lo q.body v.ahead }).addMod (rAVE_CNT0 a) fAVE_CNT0_PACKETS 1).aveAck a := by
  have hlate : (q.w3.toNat != 0 && decide (q.w3.toNat < s.time)) = false := by simpa using fun _ => hb.resolve_left ‹_›
  have hpool : u.poolUsed (s.aveSub a / 4) = s.poolUsed (s.aveSub a / 4) := by
    rw [← eu]
    exact poolUsed_upd s a _ fun _ => rfl
  unfold State.aveTakeData
  dsimp only
  rw [ho, hh, hlate, if_neg (Nat.not_lt.mpr hl), if_neg (by simp [ha, joinRanges]; omega), if_pos h, if_neg Bool.false_ne_true, eu, hpool,
    if_neg (by omega)]

theorem aveTakeData_inOrder (h : lo = (s.aveU a).next) (hne : 0 < q.body.length) (ha : (s.aveU a).ahead = []) : s.aveTakeData a q =
    ((u.updAve a fun v => { v with next := hi, ahead := [], idle := s.time, ackAt := some (v.ackAt.getD s.time) }).addMod (rAVE_CNT0 a)
      fAVE_CNT0_PACKETS 1).aveDeliver a q q.body := by
  have hlate : (q.w3.toNat != 0 && decide (q.w3.toNat < s.time)) = false := by simpa using fun _ => hb.resolve_left ‹_›
  have hdrain : drainAhead (0 + 1) hi [] = (hi, [], []) := rfl
  unfold State.aveTakeData
  dsimp only
  rw [ho, hh, hlate, if_neg (Nat.not_lt.mpr hl), if_neg (by simp [ha, joinRanges]; omega), if_neg (by omega), if_neg Bool.false_ne_true, eu, ha,
    ← h, Nat.sub_self, List.drop_zero]
  show (if _ then _ else State.aveDeliver _ a q (q.body ++ [])) = _
  rw [List.append_nil]
  exact if_neg (by simp)

end

/-! ### The packets -/

section

variable {i : Fin 16} {a lo top : Nat} {p q : AvePkt} {s : State} (ht : aveTakes i 3 a p q s) (h3 : s.aveState a = 3) (hi : s.aveIn a = true)

include ht

theorem pktData_nonempty : 0 < q.body.length := by
  obtain ⟨-, hty⟩ := packet_taken ht (e := Instr.pktData) (by simp [bringsPacket])
  obtain ⟨-, -, -, -, -, -, -, -, h9⟩ := ht
  unfold pktLenOk at h9
  rw [hty] at h9
  simp only [Bool.and_eq_true, beq_iff_eq, bne_iff_ne, decide_eq_true_eq] at h9
  omega

include h3 hi

theorem pktData_taken : exec (.pktData i p) s = .next (s.aveTakeData a q) := by
  obtain ⟨e, hty⟩ := packet_taken ht (e := Instr.pktData) (by simp [bringsPacket])
  rwa [avePacket_data hty, if_pos (by simp [h3, hi])] at e

variable (ho : q.w1.toNat = lo) (hh : lo + q.body.length = top)

include ho hh

theorem pktData_beyond (hl : (s.aveU a).limit < top) (hv : (s.aveU a).viols.length < s.avePar a fAVE_PARAM_VIOL_MAX) :
    completes (.pktData i p) s fun t => t.fld (rAVE_STATUS a) fAVE_STATUS_LAST_VIOL = 5 ∧ (t.aveU a).next = (s.aveU a).next ∧
        onlyIn (mEvent ||| mNet ||| mAve) [rAVE_STATUS a, rNET_SUB_CNT0 (s.aveSub a)] [931] s t := by
  have e := pktData_taken ht h3 hi
  rw [aveTakeData_beyond ho hh hl] at e
  obtain ⟨-, b2, -, ⟨n, vs, b4⟩, b5⟩ := aveReject_counted (code := 5) (aveTakes_lt ht) (by decide) hv rfl
  exact ⟨_, e, b2, by rw [b4], b5⟩

variable (hb : q.w3.toNat = 0 ∨ s.time ≤ q.w3.toNat) (hl : top ≤ (s.aveU a).limit)

include hb hl

theorem pktData_dup (hd : top ≤ (s.aveU a).next) :
    completes (.pktData i p) s fun t => t.fld (rAVE_CNT1 a) fAVE_CNT1_DUP = satN 16 (s.fld (rAVE_CNT1 a) fAVE_CNT1_DUP + 1) ∧
        (t.aveU a).next = (s.aveU a).next ∧ (t.aveU a).ackAt = none ∧
        onlyIn (mRegs ||| mOuts ||| mNet ||| mAve) [rAVE_CNT1 a, rNET_SUB_CNT0 (s.aveSub a)] [] s t := by
  have e := pktData_taken ht h3 hi
  have ha := aveTakes_lt ht
  have hsub := aveSub_lt s a
  rw [aveTakeData_dup ho hh hb hl rfl hd] at e
  have a1 := aveU_updAve_same s a fun v => { v with heard := s.time }
  have t1 := touches_State.updAve s a fun v => { v with heard := s.time }
  have r1 := State.updAve_regs s a fun v => { v with heard := s.time }
  generalize s.updAve a _ = u at *
  have f2 := (State.fld_addSat_self u (rAVE_CNT1 a) fAVE_CNT1_DUP 1 (by decide)).trans (congrArg (fun n => satN 16 (n + 1)) (State.fld_congr r1 _ _))
  have k2 : onlyIn (mRegs ||| mOuts ||| mNet ||| mAve) [rAVE_CNT1 a, rNET_SUB_CNT0 (s.aveSub a)] [] s (u.addSat (rAVE_CNT1 a) fAVE_CNT1_DUP 1) :=
    .of_hi (.addSat (.other (.refl _ _ _ _) t1 (by decide) r1)) (by
      simp only [List.mem_cons, List.not_mem_nil, or_false, rAVE_CNT1, rNET_SUB_CNT0]
      omega)
  have a2 := (aveU_of_ave (State.addSat_ave u (rAVE_CNT1 a) fAVE_CNT1_DUP 1) a).trans a1
  generalize u.addSat (rAVE_CNT1 a) fAVE_CNT1_DUP 1 = w at *
  obtain ⟨b1, b2⟩ := aveAck_effect (rfl : w.aveAck a = _)
  have s2 : aveSetup a s w := .of_onlyIn k2 ha (aveFree_cons aveFree_cnt1 (aveFree_cons (aveFree_net hsub) aveFree_none)) (by simp)
  rw [s2.sub] at b2
  refine ⟨_, e, ?_, by rw [b1, a2]; rfl, by rw [b1]; rfl, k2.trans (b2.mono (by decide) (by simp) (List.Subset.refl _))⟩
  rw [← f2]
  exact fld_of_rd (b2.ave_rd (by simp only [List.mem_singleton, rAVE_CNT1, rNET_SUB_CNT0]; omega) (by simp only [rAVE_CNT1]; omega) (by simp))

/-- The state in which a packet has been counted and changes what the avenue holds. -/
theorem aveCounted (f : Ave → Ave) {u w : State} (eu : s.updAve a (fun v => { v with heard := s.time }) = u)
    (e : (u.updAve a f).addMod (rAVE_CNT0 a) fAVE_CNT0_PACKETS 1 = w) :
    w.fld (rAVE_CNT0 a) fAVE_CNT0_PACKETS = (s.fld (rAVE_CNT0 a) fAVE_CNT0_PACKETS + 1) % 2 ^ 32 ∧
      w.aveU a = f { s.aveU a with heard := s.time } ∧ aveSetup a s w ∧ onlyIn (mRegs ||| mAve) [rAVE_CNT0 a] [] s w := by
  have ha := aveTakes_lt ht
  have a1 := aveU_updAve_same s a fun v => { v with heard := s.time }
  have t1 := touches_State.updAve s a fun v => { v with heard := s.time }
  have r1 := State.updAve_regs s a fun v => { v with heard := s.time }
  rw [eu] at a1 t1 r1
  have a2 := (aveU_updAve_same u a f).trans (congrArg f a1)
  have t2 := touches_State.updAve u a f
  have r2 := (State.updAve_regs u a f).trans r1
  generalize u.updAve a f = v at *
  have k : onlyIn (mRegs ||| mAve) [rAVE_CNT0 a] [] s w := by
    rw [← e]
    exact .of_hi (.addMod (.other (.refl _ _ _ _) (t1.trans t2) (by decide) r2)) (by
      simp only [List.mem_singleton, rAVE_CNT0]
      omega)
  refine ⟨?_, ?_, .of_onlyIn k ha (aveFree_cons aveFree_cnt0 aveFree_none) (by simp), k⟩
  · rw [← e, State.fld_addMod_self _ _ _ _ (by decide), State.fld_congr r2]
  · rw [← e, aveU_of_ave (State.addMod_ave _ _ _ _), a2]

theorem pktData_ahead (hd : (s.aveU a).next < lo) (hah : (s.aveU a).ahead = [])
    (hp : s.poolUsed (s.aveSub a / 4) + q.body.length ≤ 8388608) :
    completes (.pktData i p) s fun t => (t.aveU a).ahead = [(lo, q.body)] ∧ (t.aveU a).next = (s.aveU a).next ∧
        t.fld (rAVE_CNT0 a) fAVE_CNT0_PACKETS = (s.fld (rAVE_CNT0 a) fAVE_CNT0_PACKETS + 1) % 2 ^ 32 ∧
        onlyIn (mRegs ||| mOuts ||| mNet ||| mAve) [rAVE_CNT0 a, rNET_SUB_CNT0 (s.aveSub a)] [] s t := by
  have e := pktData_taken ht h3 hi
  have hsub := aveSub_lt s a
  rw [aveTakeData_ahead ho hh hb hl rfl hd hah hp] at e
  obtain ⟨f2, a2, s2, k2⟩ := aveCounted ht h3 hi ho hh hb hl (fun v => { v with ahead := insAhead lo q.body v.ahead }) rfl rfl
  generalize ((s.updAve a _).updAve a _).addMod (rAVE_CNT0 a) fAVE_CNT0_PACKETS 1 = w at *
  obtain ⟨b1, b2⟩ := aveAck_effect (rfl : w.aveAck a = _)
  rw [s2.sub] at b2
  refine ⟨_, e, ?_, by rw [b1, a2]; rfl, ?_, (k2.mono (by decide) (by simp) (List.Subset.refl _)).trans (b2.mono (by decide) (by simp) (List.Subset.refl _))⟩
  · rw [b1, a2]
    show insAhead lo q.body (s.aveU a).ahead = _
    rw [hah]
    rfl
  · rw [← f2]
    exact fld_of_rd (b2.ave_rd (by simp only [List.mem_singleton, rAVE_CNT0, rNET_SUB_CNT0]; omega) (by simp only [rAVE_CNT0]; omega) (by simp))

variable (hd : lo = (s.aveU a).next) (hah : (s.aveU a).ahead = [])

include hd hah

/-- A packet in order: the stream advances, and what it completes goes on. -/
theorem pktData_delivers {rs : List Prod} {left : List Byte}
    (hw : wholeRecs (s.aveCtx a) (((s.aveU a).part ++ q.body).length / 32 + 1) ((s.aveU a).part ++ q.body) = (rs, left, false)) :
    ∃ z : State, exec (.pktData i p) s = .next (rs.foldl (fun t _ => t.portTake (aveBox a) fun r => (t.ctx r.ctx).waiting.isNone)
        (z.onPorts fun _ => SMap.set ⟨[]⟩ z.ports (aveBox a) ⟨(s.port (aveBox a)).inbox ++ rs⟩)) ∧
      (z.aveU a).next = top ∧ (z.aveU a).part = left ∧ (z.aveU a).ackAt = some ((s.aveU a).ackAt.getD s.time) ∧
      z.fld (rAVE_CNT0 a) fAVE_CNT0_PACKETS = (s.fld (rAVE_CNT0 a) fAVE_CNT0_PACKETS + 1) % 2 ^ 32 ∧ Touches (mRegs ||| mAve) s z := by
  have e := pktData_taken ht h3 hi
  rw [aveTakeData_inOrder ho hh hb hl rfl hd (pktData_nonempty ht) hah] at e
  obtain ⟨f2, a2, s2, k2⟩ := aveCounted ht h3 hi ho hh hb hl
    (fun v => { v with next := top, ahead := [], idle := s.time, ackAt := some (v.ackAt.getD s.time) }) rfl rfl
  generalize ((s.updAve a _).updAve a _).addMod (rAVE_CNT0 a) fAVE_CNT0_PACKETS 1 = w at *
  have hpart : (w.aveU a).part = (s.aveU a).part := by rw [a2]
  rw [aveDeliver_good (by rw [s2.ctx, hpart]; exact hw) rfl] at e
  have a3 := aveU_updAve_same w a fun v => { v with part := left }
  have t3 := touches_State.updAve w a fun v => { v with part := left }
  have r3 := State.updAve_regs w a fun v => { v with part := left }
  generalize w.updAve a _ = z at *
  have hport : (SMap.get ⟨[]⟩ z.ports (aveBox a) : Port) = s.port (aveBox a) := by
    rw [t3.ports (by decide), k2.1.ports (by decide)]
    rfl
  refine ⟨z, ?_, by rw [a3, a2], by rw [a3], by rw [a3, a2], (State.fld_congr r3 _ _).trans f2, k2.1.trans (t3.mono (by decide))⟩
  rw [e, ← hport] <;> rfl

theorem pktData_part (hw : wholeRecs (s.aveCtx a) (((s.aveU a).part ++ q.body).length / 32 + 1) ((s.aveU a).part ++ q.body) =
      ([], (s.aveU a).part ++ q.body, false)) :
    completes (.pktData i p) s fun t => (t.aveU a).next = top ∧ (t.aveU a).part = (s.aveU a).part ++ q.body ∧
          (t.aveU a).ackAt = some ((s.aveU a).ackAt.getD s.time) ∧ t.store = s.store ∧
          t.fld (rAVE_CNT0 a) fAVE_CNT0_PACKETS = (s.fld (rAVE_CNT0 a) fAVE_CNT0_PACKETS + 1) % 2 ^ 32 ∧
          Touches (mRegs ||| mPorts ||| mAve) s t := by
  obtain ⟨z, e, b1, b2, b3, b4, b5⟩ := pktData_delivers ht h3 hi ho hh hb hl hd hah hw
  have k := touches_State.onPorts z fun _ => SMap.set ⟨[]⟩ z.ports (aveBox a) ⟨(s.port (aveBox a)).inbox ++ []⟩
  have r := State.onPorts_regs z fun _ => SMap.set ⟨[]⟩ z.ports (aveBox a) ⟨(s.port (aveBox a)).inbox ++ []⟩
  rw [List.foldl_nil] at e
  generalize z.onPorts _ = t at *
  have ha := aveU_of_ave (k.ave (by decide)) a
  exact ⟨t, e, by rw [ha, b1], by rw [ha, b2], by rw [ha, b3], (k.store (by decide)).trans (b5.store (by decide)), (State.fld_congr r _ _).trans b4,
    (b5.mono (by decide)).trans (k.mono (by decide))⟩

theorem pktData_record {r : Prod} {left : List Byte} {x b off : Nat}
    (hw : wholeRecs x (((s.aveU a).part ++ q.body).length / 32 + 1) ((s.aveU a).part ++ q.body) = ([r], left, false)) (hx : s.aveCtx a = x)
    (hbox : (s.port (aveBox a)).inbox = []) (hwait : (s.ctx x).waiting = none) (hs : (s.ctx x).st = .opened) (hrate : (s.ctx x).rate = 0)
    (hfree : 0 < s.extFree) (hfl : (s.ctx x).faults = []) (htl : (s.ctx x).tail = some (b, off)) (hsz : off + r.size ≤ 16384) :
    completes (.pktData i p) s fun t => (t.aveU a).next = top ∧ (t.aveU a).part = left ∧ (t.ctx x).seq = (s.ctx x).seq + 1 ∧
          (t.ctx x).wpos = (s.ctx x).wpos + r.size ∧
          (∀ k, k < 16384 * b + off ∨ 16384 * b + off + r.size ≤ k → t.store.byte 0 k = s.store.byte 0 k) := by
  obtain ⟨hrx, hring⟩ := wholeRecs_of hw r (List.mem_singleton.mpr rfl)
  obtain ⟨z, e, b1, b2, -, -, b5⟩ := pktData_delivers ht h3 hi ho hh hb hl hd hah (by rw [hx]; exact hw)
  rw [List.foldl_cons, List.foldl_nil, hbox, List.nil_append] at e
  have hclose : portClosing ⟨[r]⟩ = 0 := by
    unfold portClosing
    rw [List.foldl_cons, List.foldl_nil, hring]
    rfl
  have hext := extFree_setPort z (aveBox a) hclose
  rw [extFree_of (b5.ctxs (by decide)) (b5.aside (by decide)) (b5.ports (by decide))] at hext
  have hp := port_set z (aveBox a) ⟨[r]⟩
  have k := touches_State.onPorts z fun _ => SMap.set ⟨[]⟩ z.ports (aveBox a) ⟨[r]⟩
  generalize z.onPorts _ = w at *
  have hc : w.ctx x = s.ctx x := ctx_of_ctxs ((k.ctxs (by decide)).trans (b5.ctxs (by decide))) x
  have hk : (w.ctx r.ctx).waiting.isNone = true := by
    rw [hrx, hc, hwait]
    rfl
  have htl' : (w.ctx r.ctx).tail = some (b, off) := by rw [hrx, hc]; exact htl
  rw [portTake_stored (ok := fun r => (w.ctx r.ctx).waiting.isNone) (p := aveBox a) (rest := []) (by rw [hp]) hk hring
    (by rw [hrx, hc]; exact hs) (Nat.lt_of_lt_of_le hfree hext) (.inr (by rw [hrx, hc]; exact hrate)) (by rw [hrx, hc]; exact hfl) htl' hsz] at e
  obtain ⟨c1, c2, -, -, -, -, ⟨bs, c7, c8⟩, c9⟩ := storeRecord_tail hrx (by rw [hc]; exact hs) (by rw [hc]; exact htl) hring hsz (rfl : w.storeRecord r = _)
  generalize w.storeRecord r = v at *
  have kt := touches_State.onPorts v fun _ => SMap.set ⟨[]⟩ v.ports (aveBox a) ⟨[]⟩
  generalize v.onPorts _ = t at *
  have ha : t.aveU a = z.aveU a := (aveU_of_ave (kt.ave (by decide)) a).trans ((aveU_of_ave (c9.1.ave (by decide)) a).trans
    (aveU_of_ave (k.ave (by decide)) a))
  have hct := ctx_of_ctxs (kt.ctxs (by decide)) x
  rw [hc] at c1 c2
  refine ⟨t, e, by rw [ha, b1], by rw [ha, b2], by rw [hct, c1], by rw [hct, c2], fun n hn => ?_⟩
  rw [kt.store (by decide), c8, k.store (by decide), b5.store (by decide)]
  refine Memory.byte_write_out _ _ _ _ _ ?_
  rw [c7]
  simp only [billetBytes]
  omega

end

end Sys2Proof

end

section
/-! SUPPORT. ACK on an outbound avenue (R470, R471). -/

set_option Elab.async false

namespace Sys2Proof

open Sys2Proof.Machine

/-- What an avenue is once an ACK without SACK blocks has acknowledged its stream to `o` and granted `lim`. -/
def Machine.Ave.ackedTo (v : Ave) (o lim now : Nat) : Ave :=
  { v with
    heard := now, limit := lim, acked := max v.acked o
    ranges := (v.ranges.filter fun r => o < r.hi).map fun r => { r with lo := max r.lo o }
    recs := v.recs.filter fun r => o < r.ofs + r.len || v.next < r.ofs + r.len }

section

variable {a o x d : Nat} {q : AvePkt} {s : State} (ho : q.w1.toNat = o)

include ho

theorem aveTakeAck_beyond (h : (s.aveU a).next < o) : s.aveTakeAck a q = s.aveReject a 7 o q := by
  unfold State.aveTakeAck
  dsimp only
  rw [ho]
  exact if_pos (by simp [h])

/-- An ACK without SACK blocks: the avenue's own part, and the end of the holds up to the acknowledged offset. -/
theorem aveTakeAck_plain (hn : o ≤ (s.aveU a).next) (h0 : fget q.w2 ⟨16, 16⟩ = 0) (hl : (s.aveU a).limit ≤ q.w3.toNat)
    (hr : ∀ r ∈ (s.aveU a).ranges, r.reports < 3) (hx : s.aveCtx a = x) (hd : (s.ctx x).findDest 3 a = some d) :
    ∃ u, s.aveTakeAck a q = u.finishTo x d ((s.ctx x).ackPos (s.aveU a) o ((s.ctx x).dest d).fin) ∧
      u.aveU a = (s.aveU a).ackedTo o q.w3.toNat s.time ∧ Touches mAve s u := by
  obtain ⟨u, hu⟩ : ∃ u, u = (s.updAve a fun v => { v with heard := s.time, limit := max v.limit q.w3.toNat, acked := max v.acked o }).updAve a fun w =>
    { w with
      ranges := (w.ranges.filter fun r => o < r.hi).map fun r => { r with lo := max r.lo o }
      recs := w.recs.filter fun r => o < r.ofs + r.len || w.next < r.ofs + r.len } := ⟨_, rfl⟩
  have ku : Touches mAve s u := by
    rw [hu]
    exact (touches_State.updAve _ _ _).trans (touches_State.updAve _ _ _)
  have au : u.aveU a = (s.aveU a).ackedTo o q.w3.toNat s.time := by
    rw [hu, aveU_updAve_same, aveU_updAve_same, Nat.max_eq_right hl]
    rfl
  have hc : u.ctx x = s.ctx x := ctx_of_ctxs (ku.ctxs (by decide)) x
  refine ⟨u, ?_, au, ku⟩
  have kf := touches_State.finishTo u x d ((s.ctx x).ackPos (s.aveU a) o ((s.ctx x).dest d).fin)
  have af := (aveU_of_ave (kf.ave (by decide)) a).trans au
  have hnone : (((u.finishTo x d ((s.ctx x).ackPos (s.aveU a) o ((s.ctx x).dest d).fin)).aveU a).ranges.filter fun r =>
      3 ≤ r.reports && !r.sacked && !r.again) = [] := by
    rw [af]
    refine List.filter_eq_nil_iff.mpr fun r hm => ?_
    obtain ⟨r', hm', rfl⟩ := List.mem_map.mp hm
    have := hr r' (List.mem_filter.mp hm').1
    simp only [Bool.and_eq_true, decide_eq_true_eq]
    omega
  have hcond : (decide ((s.aveU a).next < o) || decide (8 < 0) || !sackOk (s.aveU a).next o (sackBlocks 0 q.body)) = false := by
    simp [sackBlocks, sackOk, hn]
  unfold State.aveTakeAck
  dsimp only
  rw [ho, h0, hcond, if_neg Bool.false_ne_true, if_neg (Nat.not_lt.mpr hl), hx]
  simp only [sackBlocks, List.any_nil, Bool.false_and, Bool.false_eq_true, if_false]
  rw [← hu, hc, hd]
  dsimp only
  rw [hnone, List.foldl_nil]

end

section

variable {i : Fin 16} {a o x d : Nat} {p q : AvePkt} {s : State} (ht : aveTakes i 4 a p q s) (h3 : s.aveState a = 3) (hi : s.aveIn a = false)
  (ho : q.w1.toNat = o)

include ht h3 hi ho

theorem pktAck_taken : exec (.pktAck i p) s = .next (s.aveTakeAck a q) := by
  obtain ⟨e, hty⟩ := packet_taken ht (e := Instr.pktAck) (by simp [bringsPacket])
  rwa [avePacket_ack hty, if_pos (by simp [h3, hi])] at e

theorem pktAck_beyond (h : (s.aveU a).next < o) (hv : (s.aveU a).viols.length < s.avePar a fAVE_PARAM_VIOL_MAX) :
    completes (.pktAck i p) s fun t => t.fld (rAVE_STATUS a) fAVE_STATUS_LAST_VIOL = 7 ∧ (t.aveU a).acked = (s.aveU a).acked ∧
        t.ctxs = s.ctxs ∧ onlyIn (mEvent ||| mNet ||| mAve) [rAVE_STATUS a, rNET_SUB_CNT0 (s.aveSub a)] [931] s t := by
  have e := pktAck_taken ht h3 hi ho
  rw [aveTakeAck_beyond ho h] at e
  obtain ⟨-, b2, -, ⟨n, vs, b4⟩, b5⟩ := aveReject_counted (code := 7) (aveTakes_lt ht) (by decide) hv rfl
  exact ⟨_, e, b2, by rw [b4], b5.1.ctxs (by decide), b5⟩

theorem pktAck_acks (hn : o ≤ (s.aveU a).next) (h0 : fget q.w2 ⟨16, 16⟩ = 0) (hl : (s.aveU a).limit ≤ q.w3.toNat)
    (hr : ∀ r ∈ (s.aveU a).ranges, r.reports < 3) (hx : s.aveCtx a = x) (hd : (s.ctx x).findDest 3 a = some d) (hlen : d < (s.ctx x).dests.length)
    (hs : (s.ctx x).st = .opened) :
    completes (.pktAck i p) s fun t => (t.aveU a).acked = max (s.aveU a).acked o ∧ (t.aveU a).limit = q.w3.toNat ∧
        (t.aveU a).heard = s.time ∧ (t.aveU a).ranges = ((s.aveU a).ranges.filter fun r => o < r.hi).map (fun r => { r with lo := max r.lo o }) ∧
        ((t.ctx x).dest d).fin = (s.ctx x).skipPast d (s.ctx x).recs.length
          (max ((s.ctx x).dest d).fin ((s.ctx x).ackPos (s.aveU a) o ((s.ctx x).dest d).fin)) ∧ t.outs = s.outs ∧
        Touches (mRegs ||| mCtxs ||| mBillets ||| mAve) s t := by
  have e := pktAck_taken ht h3 hi ho
  obtain ⟨u, hu, au, ku⟩ := aveTakeAck_plain ho hn h0 hl hr hx hd
  rw [hu] at e
  have hc : u.ctx x = s.ctx x := ctx_of_ctxs (ku.ctxs (by decide)) x
  obtain ⟨rs, ds, es, hd', f1, f2, f3, f4⟩ := finishTo_effect (s := u) (x := x) (d := d) (p := (s.ctx x).ackPos (s.aveU a) o ((s.ctx x).dest d).fin)
    (by rw [hc]; exact hs) (by rw [hc]; exact findDest_mem hd) (by rw [hc]; exact hlen) rfl
  have kf := touches_State.finishTo u x d ((s.ctx x).ackPos (s.aveU a) o ((s.ctx x).dest d).fin)
  generalize u.finishTo x d _ = t at *
  have at_ := (aveU_of_ave (kf.ave (by decide)) a).trans au
  rw [hc] at f1 f3
  refine ⟨t, e, by rw [at_]; rfl, by rw [at_]; rfl, by rw [at_]; rfl, by rw [at_]; rfl, ?_, (kf.outs (by decide)).trans (ku.outs (by decide)),
    (ku.mono (by decide)).trans (kf.mono (by decide))⟩
  rw [f1]
  exact f3

end

end Sys2Proof

end

section
/-! SUPPORT. AVE_SNAP, and trigger messages sent and acknowledged (R479, R481, R484). -/

set_option Elab.async false

namespace Sys2Proof

open Sys2Proof.Machine

/-! ### AVE_SNAP -/

theorem aveSnap_effect (a : Fin 4096) (v : Word) {s : State} (hr : s.ready = true) :
    completes (.aveSnap a v) s fun t => t.fld (rAVE_SNAP a) fAVE_SNAP_SEQ = (s.fld (rAVE_SNAP a) fAVE_SNAP_SEQ + 1) % 2 ^ 32 ∧
      t.rd (rAVE_OFS0 a) = BitVec.ofNat 64 (s.aveU a).next ∧ t.rd (rAVE_OFS1 a) = BitVec.ofNat 64 (s.aveU a).acked ∧
      t.rd (rAVE_OFS2 a) = BitVec.ofNat 64 (s.aveU a).limit ∧
      onlyIn (mRegs ||| mStaged) [rAVE_SNAP a, rAVE_OFS0 a, rAVE_OFS1 a, rAVE_OFS2 a] [] s t := by
  have e : exec (.aveSnap a v) s = .next (State.wrAveSnap a (fset v fAVE_SNAP_SNAP 1) (s.dropStaged .host (rAVE_SNAP a))) := next_hostWr hr rfl
  have td := touches_State.dropStaged s .host (rAVE_SNAP a)
  generalize s.dropStaged .host (rAVE_SNAP a) = u at *
  have ha : u.aveU a = s.aveU a := aveU_of_ave (td.ave (by decide)) a
  unfold State.wrAveSnap at e
  dsimp only at e
  have hgo : fget (fset v fAVE_SNAP_SNAP 1) fAVE_SNAP_SNAP = 1 := fget_fset_self _ _ _ (by decide)
  rw [if_pos hgo, ha] at e
  have h0 : rAVE_SNAP a ≠ rAVE_OFS0 a ∧ rAVE_SNAP a ≠ rAVE_OFS1 a ∧ rAVE_SNAP a ≠ rAVE_OFS2 a ∧ rAVE_OFS0 a ≠ rAVE_OFS1 a ∧
      rAVE_OFS0 a ≠ rAVE_OFS2 a ∧ rAVE_OFS1 a ≠ rAVE_OFS2 a := by
    simp only [rAVE_SNAP, rAVE_OFS0, rAVE_OFS1, rAVE_OFS2]
    omega
  obtain ⟨h1, h2, h3, h4, h5, h6⟩ := h0
  refine ⟨_, e, ?_, ?_, ?_, State.rd_wr_same _ _ _, .of_hi (.wr (.wr (.wr (.addMod (.other (.refl _ _ _ _) td (by decide) (td.regs (by decide))))))) ?_⟩
  · refine (fld_of_rd ((State.rd_wr_other _ _ h3).trans ((State.rd_wr_other _ _ h2).trans (State.rd_wr_other _ _ h1)))).trans ?_
    rw [State.fld_addMod_self _ _ _ _ (by decide), State.fld_congr (td.regs (by decide))]
  · exact (State.rd_wr_other _ _ h5).trans ((State.rd_wr_other _ _ h4).trans (State.rd_wr_same _ _ _))
  · exact (State.rd_wr_other _ _ h6).trans (State.rd_wr_same _ _ _)
  · simp only [List.mem_cons, List.not_mem_nil, or_false, rAVE_SNAP, rAVE_OFS0, rAVE_OFS1, rAVE_OFS2]
    omega

/-! ### A trigger message is acknowledged -/

theorem pktTrigAck_effect {i : Fin 16} {a : Nat} {p q : AvePkt} {s : State} (ht : aveTakes i 9 a p q s) (h3 : s.aveState a = 3) :
    completes (.pktTrigAck i p) s fun t =>
      t.aveU a = { s.aveU a with heard := s.time, trigs := (s.aveU a).trigs.filter fun e => e.seq != q.w1.toNat % 65536 } ∧
      (∀ b, b ≠ a → t.aveU b = s.aveU b) ∧ Touches mAve s t := by
  obtain ⟨e, hty⟩ := packet_taken ht (e := Instr.pktTrigAck) (by simp [bringsPacket])
  rw [avePacket_trigAck hty, if_pos h3] at e
  refine ⟨_, e, ?_, fun b hb => ?_, (touches_State.updAve _ _ _).trans (touches_State.updAve _ _ _)⟩
  · rw [aveU_updAve_same, aveU_updAve_same]
  · rw [aveU_updAve_other _ _ hb, aveU_updAve_other _ _ hb]

/-! ### A trigger message is sent -/

section

variable {v : Word} {a : Nat} {s : State} (hr : s.ready = true) (ha : fget v fAVE_TRIG_SEND_AVENUE = a)

include hr ha

/-- A write of AVE_TRIG_SEND with GO sends a message on the avenue that it names. -/
theorem trigSendGo_runs : ∃ u, exec (.trigSendGo v) s = .next (u.aveTrigger a (fget v fAVE_TRIG_SEND_SLOT)
      ((s.rd rAVE_TRIG_SEND_TIME).toNat * 65536 + fget v fAVE_TRIG_SEND_FRAC)) ∧
    onlyIn (mRegs ||| mStaged) [rAVE_TRIG_SEND] [] s u := by
  have e : exec (.trigSendGo v) s = .next (State.wrTrigSend (fset v fAVE_TRIG_SEND_GO 1) (s.dropStaged .host rAVE_TRIG_SEND)) := next_hostWr hr rfl
  have td := touches_State.dropStaged s .host rAVE_TRIG_SEND
  generalize s.dropStaged .host rAVE_TRIG_SEND = u at *
  have k : onlyIn (mRegs ||| mStaged) [rAVE_TRIG_SEND] [] s (u.wrCodes rAVE_TRIG_SEND (fset v fAVE_TRIG_SEND_GO 1) [fAVE_TRIG_SEND_GO]) :=
    .of_hi (.wrCodes (.other (.refl _ _ _ _) td (by decide) (td.regs (by decide)))) (by decide)
  have ht : (u.wrCodes rAVE_TRIG_SEND (fset v fAVE_TRIG_SEND_GO 1) [fAVE_TRIG_SEND_GO]).rd rAVE_TRIG_SEND_TIME = s.rd rAVE_TRIG_SEND_TIME :=
    k.ave_rd (by decide) (by decide) (by simp)
  unfold State.wrTrigSend at e
  dsimp only at e
  generalize u.wrCodes rAVE_TRIG_SEND _ _ = w at *
  have hgo : fget (fset v fAVE_TRIG_SEND_GO 1) fAVE_TRIG_SEND_GO = 1 := fget_fset_self _ _ _ (by decide)
  rw [if_pos hgo, fget_fset_apart _ _ _ _ (by decide), fget_fset_apart _ _ _ _ (by decide),
    fget_fset_apart _ _ _ _ (by decide), ha, ht] at e
  exact ⟨w, e, k⟩

theorem trigSendGo_discards (h : s.aveState a ≠ 3 ∨ 16 ≤ (s.aveU a).trigs.length) :
    completes (.trigSendGo v) s fun t => t.fld rAVE_GLOBAL fAVE_GLOBAL_TX_DISC = satN 16 (s.fld rAVE_GLOBAL fAVE_GLOBAL_TX_DISC + 1) ∧
        onlyIn (mRegs ||| mStaged) [rAVE_TRIG_SEND, rAVE_GLOBAL] [] s t := by
  obtain ⟨u, e, k⟩ := trigSendGo_runs hr ha
  have hst : u.aveState a = s.aveState a := aveState_of_rd (k.ave_rd (by
    have : a < 4096 := ha ▸ fget_lt v fAVE_TRIG_SEND_AVENUE
    simp only [List.mem_singleton, rAVE_STATUS, rAVE_TRIG_SEND]; omega) (by simp only [rAVE_STATUS]; omega) (by simp))
  have hu : u.aveU a = s.aveU a := aveU_of_ave (k.1.ave (by decide)) a
  have hg : u.rd rAVE_GLOBAL = s.rd rAVE_GLOBAL := k.ave_rd (by decide) (by decide) (by simp)
  unfold State.aveTrigger at e
  dsimp only at e
  rw [if_pos (by rw [hst, hu]; simpa using h)] at e
  refine ⟨_, e, ?_, .of_hi (.addSat (k.mono (by decide) (by simp) (List.Subset.refl _))) (by decide)⟩
  rw [State.fld_addSat_self _ _ _ _ (by decide), fld_of_rd hg]

theorem trigSendGo_sends {m : AveTrig} (h3 : s.aveState a = 3) (hl : (s.aveU a).trigs.length < 16) (hc : aveCanSend a s)
    (hm : m = (⟨(s.aveU a).tseq, fget v fAVE_TRIG_SEND_SLOT,
        (s.rd rAVE_TRIG_SEND_TIME).toNat * 65536 + fget v fAVE_TRIG_SEND_FRAC, s.time, 1⟩ : AveTrig)) :
    completes (.trigSendGo v) s fun t =>
        t.aveU a = { s.aveU a with tseq := ((s.aveU a).tseq + 1) % 65536, trigs := (s.aveU a).trigs ++ [m] } ∧
        aveSent a 8 (m.slot * 64) m.seq (fget v fAVE_TRIG_SEND_FRAC) (s.rd rAVE_TRIG_SEND_TIME).toNat [] s t ∧
        onlyIn (mRegs ||| mStaged ||| mOuts ||| mAve) [rAVE_TRIG_SEND, rNET_SUB_CNT0 (s.aveSub a)] [] s t := by
  have ha12 : a < 4096 := ha ▸ fget_lt v fAVE_TRIG_SEND_AVENUE
  have hslot : fget v fAVE_TRIG_SEND_SLOT < 4 := fget_lt v fAVE_TRIG_SEND_SLOT
  have hfrac : fget v fAVE_TRIG_SEND_FRAC < 65536 := fget_lt v fAVE_TRIG_SEND_FRAC
  obtain ⟨u, e, k⟩ := trigSendGo_runs hr ha
  have hst : u.aveState a = s.aveState a := aveState_of_rd (k.ave_rd (by simp only [List.mem_singleton, rAVE_STATUS, rAVE_TRIG_SEND]; omega)
    (by simp only [rAVE_STATUS]; omega) (by simp))
  have hu : u.aveU a = s.aveU a := aveU_of_ave (k.1.ave (by decide)) a
  have hf := aveFree_cons (aveFree_trigSend (a := a)) aveFree_none
  have s1 : aveSetup a s u := .of_onlyIn k ha12 hf (by simp)
  have hcu : aveCanSend a u := hc.kept k ha12 hf (by simp)
  unfold State.aveTrigger at e
  dsimp only at e
  rw [if_neg (by rw [hst, hu]; simp [h3]; omega), hu, k.1.time (by decide), ← hm] at e
  have a2 := aveU_updAve_same u a fun v => { v with tseq := (v.tseq + 1) % 65536, trigs := v.trigs ++ [m] }
  have t2 := touches_State.updAve u a fun v => { v with tseq := (v.tseq + 1) % 65536, trigs := v.trigs ++ [m] }
  have r2 := State.updAve_regs u a fun v => { v with tseq := (v.tseq + 1) % 65536, trigs := v.trigs ++ [m] }
  generalize u.updAve a _ = w at *
  have s2 : aveSetup a s w := s1.trans (.of_regs r2)
  unfold State.aveTrigPkt at e
  have e1 : b2n false + m.slot % 4 * 64 = m.slot * 64 := by
    rw [hm]
    show 0 + fget v fAVE_TRIG_SEND_SLOT % 4 * 64 = fget v fAVE_TRIG_SEND_SLOT * 64
    omega
  have e2 : m.t % 65536 = fget v fAVE_TRIG_SEND_FRAC ∧ m.t / 65536 = (s.rd rAVE_TRIG_SEND_TIME).toNat := by
    rw [hm]
    dsimp only
    omega
  rw [e1, e2.1, e2.2] at e
  obtain ⟨b1, b2, -, b4⟩ := aveSend_effect (typ := 8) (hi := m.slot * 64) (ofs := m.seq) (aux := fget v fAVE_TRIG_SEND_FRAC)
    (time := (s.rd rAVE_TRIG_SEND_TIME).toNat) (body := []) (aveCanSend_of hcu r2 (t2.net (by decide))) rfl
  rw [s2.sub] at b4
  refine ⟨_, e, ?_, b1.from s2 ((t2.outs (by decide)).trans (k.1.outs (by decide))), ?_⟩
  · rw [aveU_of_ave b2, a2, hu]
  · exact ((k.mono (by decide) (by simp) (List.Subset.refl _)).other t2 (by decide) r2).trans (b4.mono (by decide) (by simp) (List.Subset.refl _))

end

/-! ### A trigger message is sent again, or given up -/

section

variable {a : Fin 4096} {m : AveTrig} {s : State} (hg : s.glb ≠ 0)

include hg

theorem trigResend_idle (h : (s.aveU a).trigs = [] ∨ s.aveState a ≠ 3 ∨ s.linkUp (s.aveSub a) = false) : exec (.trigResend a) s = .next s := by
  refine next_live hg ?_
  unfold State.trigResend
  split
  · rfl
  · next m ms hm =>
    refine if_pos ?_
    obtain h | h | h := h
    · rw [hm] at h
      cases h
    · simp [h]
    · simp [h]

variable {now : Nat} (hm : (s.aveU a).trigs = [m]) (h3 : s.aveState a = 3)
  (hn : max s.time (m.at_ + s.usTicks (s.avePar a fAVE_PARAM_RTO_US)) = now) (hh : s.held = false) (hl : s.linkUp (s.aveSub a) = true)

include hm h3 hl

theorem trigResend_runs {w : State} (ew : s.reach (m.at_ + s.usTicks (s.avePar a fAVE_PARAM_RTO_US)) = w) : exec (.trigResend a) s = .next
    (if m.t ≤ w.time * 65536 || s.avePar a fAVE_PARAM_RETRY_MAX < m.tries then w.trigUnacked a m
      else (w.updAve a fun v => { v with trigs := v.trigs.map fun e =>
        if e.seq = m.seq then { e with at_ := w.time, tries := e.tries + 1 } else e }).aveTrigPkt a m true) := by
  refine next_live hg ?_
  unfold State.trigResend
  rw [hm]
  dsimp only
  rw [if_neg (by simp [h3, hl]), List.foldl_nil, ew]

include hn hh

theorem trigResend_ends (h : m.t ≤ now * 65536 ∨ s.avePar a fAVE_PARAM_RETRY_MAX < m.tries) :
    completes (.trigResend a) s fun t => (t.aveU a) = { s.aveU a with trigs := [] } ∧ t.time = now ∧
          t.fld (rAVE_TRIG_STAT (m.slot % 4)) fAVE_TRIG_STAT_UNACKED =
            satN 16 (s.fld (rAVE_TRIG_STAT (m.slot % 4)) fAVE_TRIG_STAT_UNACKED + 1) ∧
          onlyIn (mRegs ||| mTime ||| mAve) [rAVE_TRIG_STAT (m.slot % 4)] [] s t := by
  obtain ⟨k, ka, kt, ko⟩ := aveReached (a := a) hg hh hn rfl
  have e := trigResend_runs hg hm h3 hl rfl
  generalize s.reach _ = w at *
  rw [if_pos (by rw [kt]; simpa using h)] at e
  unfold State.trigUnacked at e
  have a2 := aveU_updAve_same w a fun v => { v with trigs := v.trigs.filter fun e => e.seq != m.seq }
  have t2 := touches_State.updAve w a fun v => { v with trigs := v.trigs.filter fun e => e.seq != m.seq }
  have r2 := State.updAve_regs w a fun v => { v with trigs := v.trigs.filter fun e => e.seq != m.seq }
  generalize w.updAve a _ = z at *
  have k3 : onlyIn (mRegs ||| mTime ||| mAve) [rAVE_TRIG_STAT (m.slot % 4)] [] s (z.addSat (rAVE_TRIG_STAT (m.slot % 4)) fAVE_TRIG_STAT_UNACKED 1) :=
    .of_hi (.addSat (.other (ko.mono (by decide) (List.nil_subset _) (List.Subset.refl _)) t2 (by decide) r2)) (by
      simp only [List.mem_singleton, rAVE_TRIG_STAT]
      omega)
  refine ⟨_, e, ?_, ?_, ?_, k3⟩
  · rw [aveU_of_ave (State.addSat_ave _ _ _ _), a2, ka, hm]
    simp
  · rw [State.addSat_time, t2.time (by decide), kt]
  · rw [State.fld_addSat_self _ _ _ _ (by decide), State.fld_congr (r2.trans k.regs)]

theorem trigResend_sends (ht : now * 65536 < m.t) (hr : m.tries ≤ s.avePar a fAVE_PARAM_RETRY_MAX) (hp : (s.netS (s.aveSub a)).pause = none) :
    completes (.trigResend a) s fun t => (t.aveU a) = { s.aveU a with trigs := [{ m with at_ := now, tries := m.tries + 1 }] } ∧
          t.time = now ∧ aveSent a 8 (1 + m.slot % 4 * 64) m.seq (m.t % 65536) (m.t / 65536) [] s t ∧
          onlyIn (mRegs ||| mOuts ||| mTime ||| mAve) [rNET_SUB_CNT0 (s.aveSub a)] [] s t := by
  obtain ⟨k, ka, kt, ko⟩ := aveReached (a := a) hg hh hn rfl
  have e := trigResend_runs hg hm h3 hl rfl
  generalize s.reach _ = w at *
  rw [if_neg (by rw [kt]; simp; omega), kt] at e
  unfold State.aveTrigPkt at e
  have a2 := aveU_updAve_same w a fun v => { v with trigs := v.trigs.map fun e =>
    if e.seq = m.seq then { e with at_ := now, tries := e.tries + 1 } else e }
  have t2 := touches_State.updAve w a fun v => { v with trigs := v.trigs.map fun e =>
    if e.seq = m.seq then { e with at_ := now, tries := e.tries + 1 } else e }
  have r2 := State.updAve_regs w a fun v => { v with trigs := v.trigs.map fun e =>
    if e.seq = m.seq then { e with at_ := now, tries := e.tries + 1 } else e }
  generalize w.updAve a _ = z at *
  have s2 : aveSetup a s z := k.setup.trans (.of_regs r2)
  obtain ⟨b1, b2, -, b4⟩ := aveSend_effect (s := z) (a := a) (typ := 8) (hi := b2n true + m.slot % 4 * 64) (ofs := m.seq) (aux := m.t % 65536)
    (time := m.t / 65536) (body := []) (aveCanSend_of ⟨hl, hp⟩ (r2.trans k.regs) ((t2.net (by decide)).trans (k.rest.net (by decide)))) rfl
  rw [s2.sub] at b4
  refine ⟨_, e, ?_, (b4.1.time (by decide)).trans ((t2.time (by decide)).trans kt), b1.from s2 ((t2.outs (by decide)).trans (k.rest.outs (by decide))), ?_⟩
  · rw [aveU_of_ave b2, a2, ka, hm, List.map_cons, List.map_nil, if_pos rfl]
  · exact ((ko.mono (by decide) (List.nil_subset _) (List.Subset.refl _)).other t2 (by decide) r2).trans
      (b4.mono (by decide) (List.Subset.refl _) (List.Subset.refl _))

end

end Sys2Proof

end

section
/-! SUPPORT. Trigger slots: messages that come, wait, and are released (R478 to R480). -/

set_option Elab.async false

namespace Sys2Proof

open Sys2Proof.Machine

/-! ### The slots -/

section

variable {k : Nat} {s t : State}

theorem slotU_of_slots (h : t.slots = s.slots) (k : Nat) : t.slotU k = s.slotU k := by
  unfold State.slotU
  rw [h]

theorem slotU_updSlot_same (s : State) (k : Nat) (f : TrigSlot → TrigSlot) : (s.updSlot k f).slotU k = f (s.slotU k) := by
  unfold State.updSlot
  rw [slotU_of_slots (State.setFld_slots _ _ _ _), State.slotU, State.onSlots_slots, SMap.get_set_same]

theorem slotU_updSlot_other (s : State) {k j : Nat} (f : TrigSlot → TrigSlot) (h : j ≠ k) : (s.updSlot k f).slotU j = s.slotU j := by
  unfold State.updSlot
  rw [slotU_of_slots (State.setFld_slots _ _ _ _), State.slotU, State.onSlots_slots, SMap.get_set_other _ _ _ _ h]
  rfl

theorem fld_updSlot_pending (s : State) (k : Nat) (f : TrigSlot → TrigSlot) (h : (f (s.slotU k)).times.length < 32) :
    (s.updSlot k f).fld (rAVE_TRIG k) fAVE_TRIG_PENDING = (f (s.slotU k)).times.length :=
  (State.fld_setFld_self _ _ _ _ (by decide)).trans (Nat.mod_eq_of_lt h)

theorem onlyIn_updSlot (s : State) (k : Nat) (f : TrigSlot → TrigSlot) : onlyIn (mRegs ||| mSlots) [rAVE_TRIG k] [] s (s.updSlot k f) :=
  .of_hi (.setFld (.other (.refl _ _ _ _) (touches_State.onSlots s _) (by decide) (State.onSlots_regs s _))) (by
    simp only [List.mem_singleton, rAVE_TRIG]
    omega)

/-- A message that is not late takes a place of its slot where there is one. -/
theorem slotTake_waits {n : Nat} (hn : ¬n < s.time * 65536) (hl : (s.slotU k).times.length < 16) :
    s.slotTake k n = s.updSlot k fun x => { x with times := x.times ++ [n] } := by
  unfold State.slotTake
  rw [if_neg hn, if_neg (Nat.not_le.mpr hl)]

theorem slotTake_drops {n : Nat} (hn : ¬n < s.time * 65536) (hl : 16 ≤ (s.slotU k).times.length) :
    s.slotTake k n = ((s.addSat (rAVE_TRIG_STAT k) fAVE_TRIG_STAT_DROP 1).raise 934).updSlot k fun x => { x with loss := true } := by
  unfold State.slotTake
  rw [if_neg hn, if_pos hl]

end

/-! ### A TRIGGER packet -/

section

variable {i : Fin 16} {a k : Nat} {p q : AvePkt} {s : State} (ht : aveTakes i 8 a p q s) (h3 : s.aveState a = 3) (hk : fget q.w0 ⟨62, 2⟩ = k)

include ht h3

theorem pktTrigger_runs : exec (.pktTrigger i p) s = .next (s.aveTakeTrigger a q) := by
  obtain ⟨e, hty⟩ := packet_taken ht (e := Instr.pktTrigger) (by simp [bringsPacket])
  rwa [avePacket_trigger hty, if_pos h3] at e

include hk

/-- A message that the avenue or the slot does not take is violation 10. -/
theorem pktTrigger_rejected (h : s.flag (rAVE_CFG a) fAVE_CFG_TRIG_EN = false ∨ s.flag (rAVE_TRIG k) fAVE_TRIG_EN = false)
    (hv : (s.aveU a).viols.length < s.avePar a fAVE_PARAM_VIOL_MAX) :
    completes (.pktTrigger i p) s fun t => t.fld (rAVE_STATUS a) fAVE_STATUS_LAST_VIOL = 10 ∧ t.slots = s.slots ∧
        onlyIn (mEvent ||| mNet ||| mAve) [rAVE_STATUS a, rNET_SUB_CNT0 (s.aveSub a)] [931] s t := by
  have e := pktTrigger_runs ht h3
  unfold State.aveTakeTrigger at e
  dsimp only at e
  have hno : (!s.flag (rAVE_CFG a) fAVE_CFG_TRIG_EN || fget (s.rd (rAVE_TRIG k)) fAVE_TRIG_EN = 0 ||
      s.time + fget (s.rd (rAVE_TRIG k)) fAVE_TRIG_HORIZON < q.w3.toNat) = true := by
    obtain h | h := h
    · simp [h]
    · have h0 : fget (s.rd (rAVE_TRIG k)) fAVE_TRIG_EN = 0 := (State.flag_false_iff _ _ _).mp h
      simp [h0]
  rw [hk, if_pos hno] at e
  obtain ⟨-, b2, -, -, b5⟩ := aveReject_counted (code := 10) (aveTakes_lt ht) (by decide) hv rfl
  exact ⟨_, e, b2, b5.1.slots (by decide), b5⟩

variable (hce : s.flag (rAVE_CFG a) fAVE_CFG_TRIG_EN = true) (hse : s.flag (rAVE_TRIG k) fAVE_TRIG_EN = true) (hc : aveCanSend a s)
  (hz : q.w3.toNat ≤ s.time + s.fld (rAVE_TRIG k) fAVE_TRIG_HORIZON)

include hce hse hc hz

/-- A message that is taken is answered; one that is new goes to its slot. -/
theorem pktTrigger_answered : ∃ u, exec (.pktTrigger i p) s = .next (if (s.aveU a).seen.contains (fget q.w1 ⟨0, 16⟩) = true then u else
        (u.updAve a fun v => { v with seen := (fget q.w1 ⟨0, 16⟩ :: v.seen).take 65535 }).slotTake k (q.w3.toNat * 65536 + fget q.w2 ⟨16, 16⟩)) ∧
      aveSent a 9 0 (fget q.w1 ⟨0, 16⟩) 0 0 [] s u ∧ u.slots = s.slots ∧ onlyIn (mRegs ||| mOuts ||| mAve) [rNET_SUB_CNT0 (s.aveSub a)] [] s u := by
  have e := pktTrigger_runs ht h3
  unfold State.aveTakeTrigger at e
  dsimp only at e
  have hz' : ¬s.time + fget (s.rd (rAVE_TRIG k)) fAVE_TRIG_HORIZON < q.w3.toNat := Nat.not_lt.mpr hz
  have hse' : fget (s.rd (rAVE_TRIG k)) fAVE_TRIG_EN ≠ 0 := (State.flag_iff _ _ _).mp hse
  have hyes : ¬(!s.flag (rAVE_CFG a) fAVE_CFG_TRIG_EN || fget (s.rd (rAVE_TRIG k)) fAVE_TRIG_EN = 0 ||
      s.time + fget (s.rd (rAVE_TRIG k)) fAVE_TRIG_HORIZON < q.w3.toNat) = true := by simp [hce, hse', hz']
  rw [hk, if_neg hyes] at e
  have t1 := touches_State.updAve s a fun v => { v with heard := s.time }
  have r1 := State.updAve_regs s a fun v => { v with heard := s.time }
  generalize s.updAve a _ = w at *
  obtain ⟨b1, -, -, b4⟩ := aveSend_effect (typ := 9) (hi := 0) (ofs := fget q.w1 ⟨0, 16⟩) (aux := 0) (time := 0) (body := [])
    (aveCanSend_of hc r1 (t1.net (by decide))) rfl
  rw [(aveSetup.of_regs r1).sub] at b4
  exact ⟨_, e, b1.from (.of_regs r1) (t1.outs (by decide)), (b4.1.slots (by decide)).trans (t1.slots (by decide)),
    (onlyIn.other (.refl _ _ _ _) t1 (by decide) r1).trans (b4.mono (by decide) (List.Subset.refl _) (List.Subset.refl _))⟩

/-- A repeat is answered only. -/
theorem pktTrigger_repeat (hs : (s.aveU a).seen.contains (fget q.w1 ⟨0, 16⟩) = true) :
    completes (.pktTrigger i p) s fun t => aveSent a 9 0 (fget q.w1 ⟨0, 16⟩) 0 0 [] s t ∧ t.slots = s.slots ∧
          onlyIn (mRegs ||| mOuts ||| mAve) [rNET_SUB_CNT0 (s.aveSub a)] [] s t := by
  obtain ⟨u, e, k1, k2, k3⟩ := pktTrigger_answered ht h3 hk hce hse hc hz
  rw [if_pos hs] at e
  exact ⟨u, e, k1, k2, k3⟩

variable {n : Nat} (hn : q.w3.toNat * 65536 + fget q.w2 ⟨16, 16⟩ = n) (hs : (s.aveU a).seen.contains (fget q.w1 ⟨0, 16⟩) = false)

include hn hs

/-- A message that is new goes to its slot, in a state where it is answered and remembered. -/
theorem pktTrigger_new : ∃ w, exec (.pktTrigger i p) s = .next (w.slotTake k n) ∧ aveSent a 9 0 (fget q.w1 ⟨0, 16⟩) 0 0 [] s w ∧
    w.slots = s.slots ∧ onlyIn (mRegs ||| mOuts ||| mAve) [rNET_SUB_CNT0 (s.aveSub a)] [] s w := by
  obtain ⟨u, e, k1, k2, k3⟩ := pktTrigger_answered ht h3 hk hce hse hc hz
  rw [if_neg (by rw [hs]; decide), hn] at e
  have t1 := touches_State.updAve u a fun v => { v with seen := (fget q.w1 ⟨0, 16⟩ :: v.seen).take 65535 }
  have r1 := State.updAve_regs u a fun v => { v with seen := (fget q.w1 ⟨0, 16⟩ :: v.seen).take 65535 }
  have a1 := aveU_updAve_same u a fun v => { v with seen := (fget q.w1 ⟨0, 16⟩ :: v.seen).take 65535 }
  generalize u.updAve a _ = w at *
  refine ⟨w, e, ?_, (t1.slots (by decide)).trans k2, k3.other t1 (by decide) r1⟩
  exact k1.of (.refl _ _) rfl (l := []) (by rw [List.append_nil]; exact t1.outs (by decide)) (fun _ h => absurd h List.not_mem_nil) (by rw [a1])

variable (ht0 : s.time ≤ q.w3.toNat)

include ht0

theorem pktTrigger_waits (hl : (s.slotU k).times.length < 16) :
    completes (.pktTrigger i p) s fun t => aveSent a 9 0 (fget q.w1 ⟨0, 16⟩) 0 0 [] s t ∧
          (t.slotU k) = { s.slotU k with times := (s.slotU k).times ++ [n] } ∧ (∀ j, j ≠ k → t.slotU j = s.slotU j) ∧
          t.fld (rAVE_TRIG k) fAVE_TRIG_PENDING = (s.slotU k).times.length + 1 ∧
          onlyIn (mRegs ||| mOuts ||| mAve ||| mSlots) [rNET_SUB_CNT0 (s.aveSub a), rAVE_TRIG k] [] s t := by
  obtain ⟨w, e, k1, k2, k3⟩ := pktTrigger_new ht h3 hk hce hse hc hz hn hs
  have hu := slotU_of_slots k2
  rw [slotTake_waits (by rw [k3.1.time (by decide)]; omega) (by rw [hu]; exact hl)] at e
  have kw := onlyIn_updSlot w k fun x => { x with times := x.times ++ [n] }
  refine ⟨_, e, k1.of (.refl _ _) rfl (l := []) ?_ (fun _ h => absurd h List.not_mem_nil) ?_, ?_, fun j hj => ?_, ?_,
    (k3.mono (by decide) (by simp) (List.Subset.refl _)).trans (kw.mono (by decide) (by simp) (List.Subset.refl _))⟩
  · rw [List.append_nil]
    exact kw.1.outs (by decide)
  · rw [aveU_of_ave (kw.1.ave (by decide))]
  · rw [slotU_updSlot_same, hu]
  · rw [slotU_updSlot_other _ _ hj, hu]
  · rw [fld_updSlot_pending, hu, List.length_append]
    · rfl
    · rw [hu, List.length_append]
      exact Nat.lt_of_lt_of_le (Nat.add_lt_add_right hl 1) (by decide)

theorem pktTrigger_drops (hl : 16 ≤ (s.slotU k).times.length) :
    completes (.pktTrigger i p) s fun t => aveSent a 9 0 (fget q.w1 ⟨0, 16⟩) 0 0 [] s t ∧
          (t.slotU k) = { s.slotU k with loss := true } ∧
          t.fld (rAVE_TRIG_STAT k) fAVE_TRIG_STAT_DROP = satN 16 (s.fld (rAVE_TRIG_STAT k) fAVE_TRIG_STAT_DROP + 1) := by
  obtain ⟨w, e, k1, k2, k3⟩ := pktTrigger_new ht h3 hk hce hse hc hz hn hs
  have hu := slotU_of_slots k2
  rw [slotTake_drops (by rw [k3.1.time (by decide)]; omega) (by rw [hu]; exact hl)] at e
  have hk4 : k < 4 := hk ▸ fget_lt _ _
  have ha : s.aveSub a < 16 := aveSub_lt s a
  have hw : w.rd (rAVE_TRIG_STAT k) = s.rd (rAVE_TRIG_STAT k) := k3.ave_rd (by
    simp only [List.mem_singleton, rAVE_TRIG_STAT, rNET_SUB_CNT0]
    omega) (by simp only [rAVE_TRIG_STAT]; omega) (by simp)
  have tz := touches_State.addSat w (rAVE_TRIG_STAT k) fAVE_TRIG_STAT_DROP 1
  have dz : (w.addSat (rAVE_TRIG_STAT k) fAVE_TRIG_STAT_DROP 1).fld (rAVE_TRIG_STAT k) fAVE_TRIG_STAT_DROP =
      satN 16 (s.fld (rAVE_TRIG_STAT k) fAVE_TRIG_STAT_DROP + 1) := by
    rw [State.fld_addSat_self _ _ _ _ (by decide), fld_of_rd hw]
  generalize w.addSat (rAVE_TRIG_STAT k) fAVE_TRIG_STAT_DROP 1 = z at *
  obtain ⟨l, ho, hm⟩ := raise_msix z 934 none 0 0
  have ty := touches_State.raise z 934 none 0 0
  have dy : (z.raise 934).fld (rAVE_TRIG_STAT k) fAVE_TRIG_STAT_DROP = z.fld (rAVE_TRIG_STAT k) fAVE_TRIG_STAT_DROP :=
    State.fld_raise_other _ _ _ _ _ _ _ (.inr (by simp only [rAVE_TRIG_STAT]; omega))
  generalize z.raise 934 = y at *
  have kw := onlyIn_updSlot y k fun x => { x with loss := true }
  have uy : y.slotU k = s.slotU k := (slotU_of_slots ((ty.slots (by decide)).trans (tz.slots (by decide))) k).trans (hu k)
  refine ⟨_, e, k1.of (.refl _ _) rfl (l := l) ?_ hm ?_, ?_, ?_⟩
  · rw [kw.1.outs (by decide), ho, tz.outs (by decide)]
  · rw [aveU_of_ave (kw.1.ave (by decide)), aveU_of_ave (ty.ave (by decide)), aveU_of_ave (tz.ave (by decide))]
  · rw [slotU_updSlot_same, uy]
  · rw [fld_of_rd (kw.ave_rd ?_ ?_ (by simp)), dy, dz]
    · simp only [List.mem_singleton, rAVE_TRIG_STAT, rAVE_TRIG]
      omega
    · simp only [rAVE_TRIG_STAT]
      omega

end

/-! ### A waiting message is released -/

section

variable {k : Fin 4} {s : State} (hg : s.glb ≠ 0)

include hg

theorem trigMessageRelease_idle (h : (s.slotU k).times = []) : exec (.trigMessageRelease k) s = .next s := by
  refine next_live hg ?_
  unfold State.slotDue
  rw [h] <;> rfl

theorem trigMessageRelease_issues {n : Nat} (h : (s.slotU k).times = [n]) (hh : s.held = false) :
    completes (.trigMessageRelease k) s fun t => (t.slotU k) = ⟨[], false⟩ ∧ t.time = max s.time (ceilDiv n 65536) ∧
        t.fld (rAVE_TRIG k) fAVE_TRIG_PENDING = 0 ∧
        t.fld (rTRG_SRC (52 + k)) fTRG_SRC_EVENTS = (s.fld (rTRG_SRC (52 + k)) fTRG_SRC_EVENTS + 1) % 2 ^ fTRG_SRC_EVENTS.w ∧
        (∀ z : Fin 16, (t.tqU z).inbox = (s.tqU z).inbox ++
          if inSetA (s.tqNow z) (52 + k) || inSetB (s.tqNow z) (52 + k) then
            [⟨n, 52 + k, 0, (s.slotU k).loss, false, 0⟩] else []) ∧
        onlyIn (mRegs ||| mTime ||| mTq ||| mSlots) [rAVE_TRIG k, rTRG_SRC (52 + k)] [] s t := by
  have e : exec (.trigMessageRelease k) s = .next (s.slotDue k) := next_live hg rfl
  unfold State.slotDue at e
  rw [h] at e
  dsimp only at e
  rw [List.foldl_nil] at e
  have tw := touches_State.reach s (ceilDiv n 65536)
  have hw := State.reach_time_running hh (ceilDiv n 65536)
  generalize s.reach (ceilDiv n 65536) = w at *
  have uw : w.slotU k = s.slotU k := slotU_of_slots (tw.slots (by decide)) k
  have ky := onlyIn_updSlot w k fun x => { x with times := x.times.erase n }
  have uy := slotU_updSlot_same w k fun x => { x with times := x.times.erase n }
  generalize w.updSlot k _ = y at *
  have hy : y.slotU k = ⟨[], (s.slotU k).loss⟩ := by
    rw [uy, uw, h]
    simp
  unfold State.slotRelease at e
  rw [hy] at e
  have kx := onlyIn_updSlot y k fun x => { x with loss := false }
  have ux := slotU_updSlot_same y k fun x => { x with loss := false }
  have px := fld_updSlot_pending y k (fun x => { x with loss := false }) (by rw [hy]; exact Nat.zero_lt_succ _)
  generalize y.updSlot k _ = x at *
  rw [hy] at ux px
  obtain ⟨c1, c2, c3⟩ := trgIssue_effect x (e := ⟨n, 52 + k, 0, (s.slotU k).loss, false, 0⟩) (by show 52 + k.val < 64; omega) rfl
  have kx' : onlyIn (mRegs ||| mTime ||| mTq ||| mSlots) [rAVE_TRIG k, rTRG_SRC (52 + k)] [] s x :=
    ((onlyIn.other (.refl _ _ _ _) tw (by decide) (tw.regs (by decide))).trans (ky.mono (by decide) (by simp) (List.Subset.refl _))).trans
      (kx.mono (by decide) (by simp) (List.Subset.refl _))
  have tx : Touches (mRegs ||| mTime ||| mSlots) s x := ((tw.mono (by decide)).trans (ky.1.mono (by decide))).trans (kx.1.mono (by decide))
  have rx : x.rd (rTRG_SRC (52 + k)) = s.rd (rTRG_SRC (52 + k)) := by
    refine (kx.rd_apart ?_ ?_ (by simp)).trans ((ky.rd_apart ?_ ?_ (by simp)).trans (State.rd_congr (tw.regs (by decide)) _))
    all_goals
      simp only [List.mem_singleton, rTRG_SRC, rAVE_TRIG]
      omega
  refine ⟨_, e, ?_, ?_, ?_, ?_, fun z => ?_, kx'.trans (c3.mono (by decide) (by simp) (List.Subset.refl _))⟩
  · rw [slotU_of_slots (c3.1.slots (by decide)), ux]
  · rw [c3.1.time (by decide), kx.1.time (by decide), ky.1.time (by decide), hw]
  · rw [fld_of_rd (c3.rd_apart ?_ ?_ (by simp)), px]
    · rfl
    · simp only [List.mem_singleton, rTRG_SRC, rAVE_TRIG]
      omega
    · simp only [rAVE_TRIG]
      omega
  · rw [c1, fld_of_rd rx]
  · rw [c2 z z.isLt, tx.selects (by decide), tx.tqU (by decide)]
    change (if (inSetA (s.tqNow z) (52 + k) || inSetB (s.tqNow z) (52 + k)) = true then _ else _) = _
    split
    · rfl
    · exact (List.append_nil _).symm

end

end Sys2Proof

end

section
/-! SUPPORT. Data, acknowledgement and trigger messages of avenues (O55). -/

set_option Elab.async false

namespace Sys2Proof

open Sys2Proof.Machine

/-- Settles O55, one clause per command: what a sub-port sends, DATA and ACK packets, the ACK timers, AVE_SNAP, and trigger messages that
come, are acknowledged, are sent, are sent again and are released. -/
theorem avenueTransfers : Obligations.AvenueTransfers := by
  unfold Obligations.AvenueTransfers
  refine ⟨fun i s hg => ⟨fun h => next_live hg (aveServe_nothing h), fun e h h5 hx => next_live hg (aveServe_behind h h5 hx),
      fun a g r hl hp hc hf ho h5 hag => ?again, fun a x d r hl hp ha hi h3 hx hf hd hrecs hr hn h0 h64 hm hlim hav h5 => ?fresh⟩,
    fun i a lo hi p q s ht h3 hin ho hh hb => ⟨fun hl hv => pktData_beyond ht h3 hin ho hh hl hv,
      fun hl hd => pktData_dup ht h3 hin ho hh hb hl hd, fun hl hd hah hp => pktData_ahead ht h3 hin ho hh hb hl hd hah hp,
      fun hl hd hah => ⟨fun hw => pktData_part ht h3 hin ho hh hb hl hd hah hw,
        fun r left x b off hw _ hx hbox hwait hs hrate hfree hfl htl hsz =>
          pktData_record ht h3 hin ho hh hb hl hd hah hw hx hbox hwait hs hrate hfree hfl htl hsz⟩⟩,
    fun i a x d o p q s ht h3 hin ho => ⟨fun h hv => pktAck_beyond ht h3 hin ho h hv,
      fun hn h0 hl hr hx hd hlen hs => pktAck_acks ht h3 hin ho hn h0 hl hr hx hd hlen hs⟩,
    fun a s hg => ⟨fun h => next_live hg (aveAckTimer_idle h), fun h => next_live hg (aveIdleAck_idle h), fun h3 hin hc hah hh =>
      ⟨fun t0 h0 => aveAckTimer_acks hg h3 hin hc hah hh h0, fun h0 => aveIdleAck_acks hg h3 hin hc hah hh h0⟩⟩,
    fun a v s hr => aveSnap_effect a v hr,
    fun i a k n p q s ht h3 hk hn => ⟨fun h hv => pktTrigger_rejected ht h3 hk h hv, fun hce hse hc ht0 hz =>
      ⟨fun hs => pktTrigger_repeat ht h3 hk hce hse hc hz hs, fun hs hl => pktTrigger_waits ht h3 hk hce hse hc hz hn hs ht0 hl,
        fun hs hl => pktTrigger_drops ht h3 hk hce hse hc hz hn hs ht0 hl⟩⟩,
    fun i a p q s ht h3 => pktTrigAck_effect ht h3,
    fun v a s hr ha => ⟨fun h => trigSendGo_discards hr ha h, fun m h3 hl hc hm => trigSendGo_sends hr ha h3 hl hc hm⟩,
    fun a m now s hg => ⟨fun h => trigResend_idle hg h, fun hm h3 hn hh hl => ⟨fun h => trigResend_ends hg hm h3 hn hh hl h,
      fun ht hr hp => trigResend_sends hg hm h3 hn hh hl ht hr hp⟩⟩,
    fun k s hg => ⟨fun h => trigMessageRelease_idle hg h, fun n h hh => trigMessageRelease_issues hg h hh⟩⟩
  case again =>
    have e : exec (.aveDataSend i) s = .next (s.aveDataAgain a g) := next_live hg (aveServe_again hl hp hf ho h5 hag)
    obtain ⟨b1, b2, b3, b4⟩ := aveDataAgain_effect hc (rfl : s.aveDataAgain a g = _)
    exact ⟨_, e, by rw [b1], by rw [b1], b2, b3, b4⟩
  case fresh =>
    exact ⟨_, next_live hg rfl, aveServe_record hl hp ha hi h3 hx hf hd hrecs hr hn h0 h64 hm hlim hav h5 rfl⟩

end Sys2Proof

end
